-- ==== Sys2Proof/Word.lean ====
section
/-!
DEFINITION. Word.lean: the word types of the engine and their plainest arithmetic.
A register word of BAR0 has 32 bits (R12), a Bamdex general register 64 (R65, Table 3.1), an octet 8.
-/
namespace Sys2Proof

/-- One octet. -/
abbrev Byte := BitVec 8

/-- One register word of BAR0 (R12). -/
abbrev Word := BitVec 32

/-- One Bamdex general register (Table 3.1). -/
abbrev Word64 := BitVec 64

/-- The bits `hi` down to `lo` of a number, as a number. -/
def bitsOf (n hi lo : Nat) : Nat := n / 2 ^ lo % 2 ^ (hi - lo + 1)

/-- Whether bit `i` of a number is 1. -/
def bitAt (n i : Nat) : Bool := n.testBit i

/-- 1 for true, 0 for false. -/
def bit01 (b : Bool) : Nat := if b then 1 else 0

/-- The two's-complement value of the low `w` bits of a number. -/
def signedOf (w n : Nat) : Int :=
  if n % 2 ^ w < 2 ^ (w - 1) then (n % 2 ^ w : Nat) else (n % 2 ^ w : Nat) - (2 ^ w : Nat)

/-- The low `w` bits of the two's-complement form of an integer, as a number. -/
def wrapInt (w : Nat) (z : Int) : Nat := (z % (2 ^ w : Nat)).toNat

/-- `a` divided by `b`, rounded upward (0 when `b` is 0). -/
def ceilDiv (a b : Nat) : Nat := if b = 0 then 0 else (a + b - 1) / b

end Sys2Proof
end

