-- ==== Sys2Proof/Machine/Types.lean ====
section
/-!
DEFINITION. Machine/Types.lean: the plain data types of the engine that both commands and State use: Datum words, bounds,
tags, parties, thread states, notices, timeline events, status codes.
-/
namespace Sys2Proof

/-- A Datum word (R2, Table 0.4): seconds, nanoseconds, fraction in units of 2^-32 ns. -/
structure TimeVal where
  sec  : BitVec 64
  ns   : BitVec 32
  frac : BitVec 32
  deriving DecidableEq, Repr

/-- The all-zero Datum word. -/
def TimeVal.zero : TimeVal := ⟨0, 0, 0⟩

/-- A Datum word as a count of 2^-32 ns. -/
def TimeVal.count (t : TimeVal) : Nat := (t.sec.toNat * 1000000000 + t.ns.toNat) * 2 ^ 32 + t.frac.toNat

/-- The Datum word of a count of 2^-32 ns (seconds modulo 2^64). -/
def TimeVal.ofCount (n : Nat) : TimeVal :=
  ⟨BitVec.ofNat 64 (n / 2 ^ 32 / 1000000000), BitVec.ofNat 32 (n / 2 ^ 32 % 1000000000), BitVec.ofNat 32 (n % 2 ^ 32)⟩

/-- The number of 2^-32 ns in one second. -/
def secCount : Nat := 1000000000 * 2 ^ 32

/-- The number of 2^-32 ns in one microsecond. -/
def usCount : Nat := 1000 * 2 ^ 32

/-- The Datum word of a whole second. -/
def TimeVal.ofSec (n : Nat) : TimeVal := ⟨BitVec.ofNat 64 n, 0, 0⟩

/-- An instant some counts of 2^-32 ns later. -/
def TimeVal.plus (t : TimeVal) (n : Nat) : TimeVal := TimeVal.ofCount (t.count + n)

/-- The distance between two instants in counts of 2^-32 ns. -/
def TimeVal.dist (a b : TimeVal) : Nat := if a.count ≤ b.count then b.count - a.count else a.count - b.count

/-- An instant in units of 2^-32/825 ns, in which every unit interval of the serial lines is a whole number. -/
def TimeVal.line (t : TimeVal) : Nat := t.count * 825

/-- The first Datum second that lies wholly at or after an instant. -/
def TimeVal.nextSec (t : TimeVal) : Nat := if t.ns = 0 ∧ t.frac = 0 then t.sec.toNat else t.sec.toNat + 1

/-- The Datum counter (R37): seconds, nanoseconds and the 56-bit accumulator, whose upper 32 bits are FRAC and whose
lower 24 bits are internal. -/
structure Datum where
  word : TimeVal
  low  : BitVec 24
  deriving DecidableEq, Repr

/-- The counter as a count of 2^-56 ns. -/
def Datum.count56 (d : Datum) : Nat := d.word.count * 2 ^ 24 + d.low.toNat

/-- The counter of a count of 2^-56 ns. -/
def Datum.ofCount56 (n : Nat) : Datum := ⟨TimeVal.ofCount (n / 2 ^ 24), BitVec.ofNat 24 (n % 2 ^ 24)⟩

/-- A bound word (R4): EARLY and LATE in units of 2^-8 ns; 0xFFFF_FFFF is unbounded. -/
structure Bound where
  early : BitVec 32
  late  : BitVec 32
  deriving DecidableEq, Repr

/-- Unbounded on both sides. -/
def Bound.unbounded : Bound := ⟨0xFFFFFFFF#32, 0xFFFFFFFF#32⟩

/-- The hidden tag of a bound register (Table 3.3). -/
inductive Tag where
  | program | datum | port
  | projected (at_ : TimeVal)
  deriving DecidableEq, Repr

/-- A bound register: a bound with its tag. -/
structure TagBound where
  b   : Bound
  tag : Tag
  deriving DecidableEq, Repr

/-- Who asks (R32, R33): a host queue, a host register write, a Stoker thread, or the engine itself. -/
inductive Party where
  | hostQueue (q : Nat)
  | hostReg
  | thread (n : Nat)
  | engine
  deriving DecidableEq, Repr

/-- The KIND and OWNER of a party. -/
def Party.kindOwner : Party → Nat × Nat
  | .hostQueue q => (1, q)
  | .hostReg => (1, 0)
  | .thread n => (2, n)
  | .engine => (3, 0)

/-- Thread states (Table 3.1). -/
inductive ThreadSt where
  | idle | ready | wait | halted | aborted | faulted
  deriving DecidableEq, Repr

/-- The code of a thread state in STK_THR_STAT. -/
def ThreadSt.code : ThreadSt → Nat
  | .idle => 0 | .ready => 1 | .wait => 2 | .halted => 3 | .aborted => 4 | .faulted => 5

/-- Exception codes (Table 3.18). -/
inductive Exc where
  | illegal | privilege | align | access | poison | timeRange | divide | trap | fetch
  deriving DecidableEq, Repr

/-- The code of an exception in ECAUSE. -/
def Exc.code : Exc → Nat
  | .illegal => 1 | .privilege => 2 | .align => 3 | .access => 4 | .poison => 5 | .timeRange => 6 | .divide => 7
  | .trap => 8 | .fetch => 9

/-- Status codes (Table 3.8) and the host-only codes (Table 14.9). -/
inductive Status where
  | ok | busy | notOwner | owned | fixed | okOrphan | noResource | gated | past | late | cancelled | fired | replica
  | stepped | damper | tooLong | align | queue | lost | paused | tagFail | poison | empty | range | notSettle | stepUsed
  | source | closed | aborted | opcode | buffer | armed | refused
  deriving DecidableEq, Repr

/-- The code of a status. -/
def Status.code : Status → Nat
  | .ok => 0x00 | .busy => 0x01 | .notOwner => 0x02 | .owned => 0x03 | .fixed => 0x04 | .okOrphan => 0x05
  | .noResource => 0x06 | .gated => 0x07 | .past => 0x08 | .late => 0x09 | .cancelled => 0x0A | .fired => 0x0B
  | .replica => 0x0C | .stepped => 0x0D | .damper => 0x0E | .tooLong => 0x0F | .align => 0x10 | .queue => 0x11
  | .lost => 0x12 | .paused => 0x13 | .tagFail => 0x14 | .poison => 0x15 | .empty => 0x16 | .range => 0x17
  | .notSettle => 0x18 | .stepUsed => 0x19 | .source => 0x1A | .closed => 0x1B | .aborted => 0x40 | .opcode => 0x41
  | .buffer => 0x42 | .armed => 0x43 | .refused => 0x44

/-- Notice kinds (Table 3.13). -/
inductive NoticeKind where
  | wake | expiry | frame | launched | launchFailed | crypto | irq | sentTs
  deriving DecidableEq, Repr

/-- The code of a notice kind. -/
def NoticeKind.code : NoticeKind → Nat
  | .wake => 1 | .expiry => 2 | .frame => 3 | .launched => 4 | .launchFailed => 5 | .crypto => 6 | .irq => 7
  | .sentTs => 8

/-- A notice in a thread's queue (Table 3.13): its word's fields, the instant td returns, and its place in the order of
R30: the tick of its event and its tie class and rank within the tick. -/
structure Notice where
  kind    : NoticeKind
  status  : Nat
  late    : Bool
  stepped : Bool
  moved   : Bool
  lapsed  : Bool
  handle  : BitVec 32
  instant : TimeVal
  tick    : Nat
  cls     : Nat
  rank    : Nat
  deriving DecidableEq, Repr

/-- Whether one notice stands before another in a thread's queue: by the tick of its event, then by the tie order (R30). -/
def Notice.before (a b : Notice) : Bool :=
  decide (a.tick < b.tick ∨ (a.tick = b.tick ∧ (a.cls < b.cls ∨ (a.cls = b.cls ∧ a.rank < b.rank))))

/-- The notice word (Table 3.13). -/
def Notice.word (n : Notice) : BitVec 64 :=
  BitVec.ofNat 64 (n.kind.code * 2 ^ 56 + n.status % 256 * 2 ^ 48 + bit01 n.late * 2 ^ 47 + bit01 n.stepped * 2 ^ 46
    + bit01 n.moved * 2 ^ 45 + bit01 n.lapsed * 2 ^ 44 + n.handle.toNat)

/-- What a timeline event does when it fires (R56, Table 3.12, R329). -/
inductive EvTarget where
  | thread (n : Nat)
  | source (n : Nat)
  | oneShot (ch : Nat)
  | syncIn
  | snapshot
  | launch (thread frame port : Nat)
  | engineTimer
  deriving DecidableEq, Repr

/-- An armed timeline event. -/
structure Event where
  instant : TimeVal
  target  : EvTarget
  /-- true for EXPIRY (class 3), false for WAKE (class 5) -/
  expiry  : Bool
  deriving DecidableEq, Repr

/-- How a slot's most recent event ended (R58). -/
inductive SlotLast where
  | never | fired | gone
  deriving DecidableEq, Repr

/-- A timeline slot. -/
structure Slot where
  armed : Option Event
  last  : SlotLast
  deriving DecidableEq, Repr

/-- A slot not armed since the keeper-domain start. -/
def Slot.empty : Slot := ⟨none, .never⟩

/-- What a tracking channel latches at a Datum second, with its navigation data (R187, R188, R190): the system week number as
decoded with its number of bits (0: the whole count), the time of week in 2^-16 ns, geometric range over c with Sagnac
correction, ionospheric and tropospheric delay (2^-16 ns), C/N0, elevation, the second signal of a dual-frequency pair with its
C/N0, the unit vector toward the satellite in 2^-20, and the state of its data. -/
structure GnsObs where
  ch       : Fin 192
  week     : Nat
  weekBits : Nat
  tow      : Nat
  range    : Int
  iono     : Nat
  trop     : Nat
  cn0      : Nat
  elev     : Nat
  dual     : Option (Nat × Nat)
  ux       : Int
  uy       : Int
  uz       : Int
  healthy  : Bool
  ephValid : Bool
  newEph   : Bool
  lost     : Bool
  deriving DecidableEq, Repr

/-- One satellite found in both records of an audit (R196): the code-phase difference in cm, the unit vector toward it in
2^-20. -/
structure AuditDelta where
  delta : Int
  ux    : Int
  uy    : Int
  uz    : Int
  deriving DecidableEq, Repr

/-- A heartbeat of the mate link (Table 15.2). -/
structure Heartbeat where
  role    : Nat
  healthy : Bool
  yield   : Bool
  swapReq : Bool
  swapAck : Bool
  swapNak : Bool
  step    : Nat
  prio    : Nat
  seq     : Nat
  tx      : TimeVal
  echoTx  : Option TimeVal
  echoRx  : TimeVal
  early   : BitVec 32
  late    : BitVec 32
  swapAt  : Nat
  clkId   : BitVec 64
  idHash  : BitVec 64
  mirAck  : Nat
  q       : Nat
  l       : Nat
  deriving DecidableEq, Repr

/-- A mirror frame (R360): its sequence number, window, offset and octets; or the END marker of R362. -/
structure MirFrame where
  seq    : Nat
  window : Nat
  off    : Nat
  data   : List Byte
  end_   : Bool
  deriving DecidableEq, Repr

/-- A host completion entry (Table 14.8). -/
structure Completion where
  result : BitVec 64
  cid    : BitVec 32
  sqHead : BitVec 16
  status : Status
  phase  : Bool
  deriving DecidableEq, Repr

end Sys2Proof
end

