-- ==== Sys2Proof/Syntax.lean ====
section
/-!
DEFINITION. Syntax.lean: the commands of the engine. Every row of the spec's command table is one constructor. The table
gives no operands: those here are the model's, taken from the rules of each row. An instruction names the engine thread that
issues it, a host command its queue and its tag, a register write the written word, an event of the world what it brings.
-/
namespace Sys2Proof

/-- Who issues NOP: a thread, or a host queue with its tag. -/
inductive NopBy where
  | thread (th : Fin 512)
  | host (q : Fin 64) (cid : BitVec 32)
  deriving DecidableEq, Repr

/-- The instruction a sampling counter describes (Table 13.6). -/
structure PmcSample where
  at_     : TimeVal
  insn    : BitVec 32
  addr    : BitVec 32
  latency : BitVec 16
  latSat  : Bool
  thread  : Fin 512
  k       : Bool
  deriving DecidableEq, Repr

/-- How the host link is lost (R311). -/
inductive PcieLoss where
  | surpriseDown | linkDown | functionReset
  deriving DecidableEq, Repr

/-- An access through BAR2 (R310): a read of some octets, or a write of octets. -/
inductive Bar2Acc where
  | read (len : Nat)
  | write (data : List Byte)
  deriving DecidableEq, Repr

/-- What the check bits of a word that is read say: no error, one bit or two bits corrected, uncorrectable (R331). -/
inductive EccResult where
  | clean | ce1 | ce2 | ue
  deriving DecidableEq, Repr

/-- What a scrub read finds (R331, R332): a clean word, one or two corrected bits, an uncorrectable word; or that the pass
ended, in time or late. -/
inductive ScrubResult where
  | clean | ce1 | ce2 | ue | passInTime | passLate
  deriving DecidableEq, Repr

/-- Debug levels (Table 16.5). -/
inductive DebugLevel where
  | off | observe | invasive
  deriving DecidableEq, Repr


/-- The commands of the engine: one constructor per row of the command table, in its order. -/
inductive Instr where
  /-- DATUM_SECOND_CHECK (R16): At each Datum second the clock die sends its latched Datum to the core die, which compares it with the replica latched on the same tick. -/
  | datumSecondCheck (upset : Option Datum) (rates : List (Fin 64 × BitVec 32))
  /-- D2D_LINK_DOWN (R17): The die-to-die link goes down; the clock die runs on the last increment, Traverse sets NOWRITER, and a genuine loss raises a CRITICAL LINK_DOWN. -/
  | d2dLinkDown
  /-- D2D_LINK_UP (R17): Link training completes; the replica is loaded at the next Datum second and checked at the following one. -/
  | d2dLinkUp
  /-- POSTED_WRITE_APPLY (R18): Register writes that crossed the link are applied at the next KCLK edge in arrival order, and the last write to one register wins. -/
  | postedWriteApply
  /-- INC_TAKES_EFFECT (R15): An accepted increment takes effect on the Datum counter and the replica together on the 64th tick after the accepting KCLK edge. -/
  | incTakesEffect
  /-- TIMELINE_EVENT_FIRE (R29): An armed event reaches its tick and fires in the Datum tie order, freeing its slot. -/
  | timelineEventFire
  /-- ARB_IN_DECODE_CHANGE (R337): The decoded ARB_IN value changes, or becomes SILENT, and takes effect as a class 3 expiry on the tick of the completing KCLK edge. -/
  | arbInDecodeChange (code : BitVec 2)
  /-- OWN_CLAIM (R32): The host command claims an ownership-table entry and completes with OK, OK_ORPHAN, OWNED, FIXED or NO_RESOURCE. -/
  | ownClaim (q : Fin 64) (cid : BitVec 32) (idx : BitVec 16)
  /-- OWN_RELEASE (R32): The host command releases an ownership-table entry and completes with OK, NOT_OWNER, FIXED or NO_RESOURCE. -/
  | ownRelease (q : Fin 64) (cid : BitVec 32) (idx : BitVec 16)
  /-- CLUSTER_ISOLATE (R22): The cluster is isolated: its transmitters go idle, its threads are aborted, its events are withdrawn and its ownership entries are orphaned. -/
  | clusterIsolate (by_ : Option (Fin 64 × BitVec 32)) (c : Fin 16)
  /-- CLUSTER_RESTORE (R22): An isolated cluster returns to service, its ports restart and its threads stay ABORTED. -/
  | clusterRestore (q : Fin 64) (cid : BitVec 32) (c : Fin 16)
  /-- INC_HI_STAGE (R41): A write of DTM_INC_HI stages the upper word of the increment. -/
  | incHiStage (v : BitVec 32)
  /-- INC_LO_COMMIT (R42): A host write of DTM_INC_LO commits the 64-bit increment under the writer, range and slew rules. -/
  | incLoCommit (v : BitVec 32)
  /-- SETTLE_OPEN (R46): A guarded write of DTM_SETTLE_CTL.OPEN opens a SETTLE window, unless the service is open or the Datum is already in SETTLE. -/
  | settleOpen (v : BitVec 32)
  /-- SETTLE_CLOSE (R47): A guarded write of DTM_SETTLE_CTL.CLOSE closes the window, after any pending step has been applied. -/
  | settleClose (v : BitVec 32)
  /-- SETTLE_TIMEOUT (R47): The SETTLE timeout expires and the window closes without a step. -/
  | settleTimeout
  /-- KINDLING_OPEN (R45): After a keeper-domain start, the engine opens Kindling once the images are verified. -/
  | kindlingOpen
  /-- DTM_STEP_GO (R48): A guarded write of DTM_STEP_CTL.GO requests a host step, which is accepted or refused. -/
  | dtmStepGo (v : BitVec 32)
  /-- STEP_APPLY (R50): An accepted step is added to the counter and the replica on its common tick, and the window closes. -/
  | stepApply
  /-- UTC_OFFSET_WRITE (R53): A host write of DTM_UTC_OFFSET takes effect only in SETTLE, and in RUN is handled as a locked write. -/
  | utcOffsetWrite (v : BitVec 32)
  /-- LEAP_ARM (R54): A guarded DTM_LEAP_CTL.ARM arms a scheduled TAI-UTC change, or is refused with RANGE or PAST. -/
  | leapArm (v : BitVec 32)
  /-- LEAP_CANCEL (R54): A guarded DTM_LEAP_CTL.CANCEL withdraws the armed change, or is refused. -/
  | leapCancel (v : BitVec 32)
  /-- LEAP_TAKE_EFFECT (R52): The scheduled offset change takes effect at its instant as a class 4 state action. -/
  | leapTakeEffect
  /-- LEAP_DAY_FLAG (R55): LEAP61 or LEAP59 rises at UTC midnight of the day that ends with the leap second. -/
  | leapDayFlag
  /-- DTM_NOW_READ (R60): A read of DTM_NOW_SEC_HI captures all four slow-copy words into the holding register. -/
  | dtmNowRead
  /-- SNAP_GO (R61): A write of DTM_SNAP_CTL.GO latches the Datum, bound, increment and mode on the next tick, or sets OVERRUN. -/
  | snapGo (v : BitVec 32)
  /-- NOP (R74): Bamdex no-operation instruction, or the host NOP command. -/
  | nop (by_ : NopBy)
  /-- FENCE (R71): Completes when every earlier memory access of the thread is visible to the cluster, the crypto lane and the ports. -/
  | fence (th : Fin 512)
  /-- TRAP (R85): Raises the TRAP exception, with EVAL set to imm[10:0]. -/
  | trap (th : Fin 512) (imm : BitVec 11)
  /-- ERET (R70): Returns from K, setting the PC and the privilege from EPC. -/
  | eret (th : Fin 512)
  /-- YIELD (R64): Passes the thread's issue slot to the next READY thread. -/
  | yield (th : Fin 512)
  /-- ADD (R74): Integer add. -/
  | add (th : Fin 512) (d : Fin 32) (a : Fin 32) (b : Fin 32)
  /-- SUB (R74): Integer subtract. -/
  | sub (th : Fin 512) (d : Fin 32) (a : Fin 32) (b : Fin 32)
  /-- AND (R74): Bitwise AND. -/
  | and (th : Fin 512) (d : Fin 32) (a : Fin 32) (b : Fin 32)
  /-- OR (R74): Bitwise OR. -/
  | or (th : Fin 512) (d : Fin 32) (a : Fin 32) (b : Fin 32)
  /-- XOR (R74): Bitwise XOR. -/
  | xor (th : Fin 512) (d : Fin 32) (a : Fin 32) (b : Fin 32)
  /-- SHL (R74): Shift left by b[5:0]. -/
  | shl (th : Fin 512) (d : Fin 32) (a : Fin 32) (b : Fin 32)
  /-- SHR (R74): Logical shift right. -/
  | shr (th : Fin 512) (d : Fin 32) (a : Fin 32) (b : Fin 32)
  /-- SAR (R74): Arithmetic shift right. -/
  | sar (th : Fin 512) (d : Fin 32) (a : Fin 32) (b : Fin 32)
  /-- MUL (R74): Integer multiply. -/
  | mul (th : Fin 512) (d : Fin 32) (a : Fin 32) (b : Fin 32)
  /-- MULHU (R74): Unsigned multiply, high half. -/
  | mulhu (th : Fin 512) (d : Fin 32) (a : Fin 32) (b : Fin 32)
  /-- DIVU (R74): Unsigned divide; division by zero raises DIVIDE. -/
  | divu (th : Fin 512) (d : Fin 32) (a : Fin 32) (b : Fin 32)
  /-- REMU (R74): Unsigned remainder; division by zero raises DIVIDE. -/
  | remu (th : Fin 512) (d : Fin 32) (a : Fin 32) (b : Fin 32)
  /-- MIN (R74): Signed minimum. -/
  | min (th : Fin 512) (d : Fin 32) (a : Fin 32) (b : Fin 32)
  /-- MAX (R74): Signed maximum. -/
  | max (th : Fin 512) (d : Fin 32) (a : Fin 32) (b : Fin 32)
  /-- MINU (R74): Unsigned minimum. -/
  | minu (th : Fin 512) (d : Fin 32) (a : Fin 32) (b : Fin 32)
  /-- MAXU (R74): Unsigned maximum. -/
  | maxu (th : Fin 512) (d : Fin 32) (a : Fin 32) (b : Fin 32)
  /-- SEL (R74): Selects a or the third register, according to a predicate. -/
  | sel (th : Fin 512) (d : Fin 32) (a : Fin 32) (b : Fin 32) (c : Fin 32)
  /-- BSWAP (R74): Reverses the eight bytes of a register. -/
  | bswap (th : Fin 512) (d : Fin 32) (a : Fin 32)
  /-- ADDI (R74): Add a sign-extended imm12. -/
  | addi (th : Fin 512) (d : Fin 32) (a : Fin 32) (imm : BitVec 12)
  /-- ANDI (R74): AND with a zero-extended imm12. -/
  | andi (th : Fin 512) (d : Fin 32) (a : Fin 32) (imm : BitVec 12)
  /-- ORI (R74): OR with a zero-extended imm12. -/
  | ori (th : Fin 512) (d : Fin 32) (a : Fin 32) (imm : BitVec 12)
  /-- XORI (R74): XOR with a zero-extended imm12. -/
  | xori (th : Fin 512) (d : Fin 32) (a : Fin 32) (imm : BitVec 12)
  /-- SHLI (R74): Shift left by an immediate. -/
  | shli (th : Fin 512) (d : Fin 32) (a : Fin 32) (imm : BitVec 12)
  /-- SHRI (R74): Logical shift right by an immediate. -/
  | shri (th : Fin 512) (d : Fin 32) (a : Fin 32) (imm : BitVec 12)
  /-- SARI (R74): Arithmetic shift right by an immediate. -/
  | sari (th : Fin 512) (d : Fin 32) (a : Fin 32) (imm : BitVec 12)
  /-- LUI (R74): Loads the sign-extended imm21 shifted left by 11. -/
  | lui (th : Fin 512) (d : Fin 32) (imm : BitVec 21)
  /-- CMP (R74): Sets a predicate from a register comparison. -/
  | cmp (th : Fin 512) (p : Fin 4) (cond : BitVec 3) (a : Fin 32) (b : Fin 32)
  /-- CMPI (R74): Sets a predicate from a comparison with an immediate. -/
  | cmpi (th : Fin 512) (p : Fin 4) (cond : BitVec 3) (a : Fin 32) (imm : BitVec 16)
  /-- BR (R74): Branches when the predicate equals sense. -/
  | br (th : Fin 512) (p : Fin 4) (sense : Bool) (off : BitVec 16)
  /-- JAL (R74): Jump and link. -/
  | jal (th : Fin 512) (d : Fin 32) (off : BitVec 21)
  /-- JALR (R74): Jump to a register and link. -/
  | jalr (th : Fin 512) (d : Fin 32) (a : Fin 32) (imm : BitVec 16)
  /-- LD (R72): Loads from DMEM, CMEM or DDR under the alignment, window and frame rules. -/
  | ld (th : Fin 512) (d : Fin 32) (a : Fin 32) (size : BitVec 3) (off : BitVec 13) (ecc : EccResult)
  /-- ST (R72): Stores to memory under the alignment, window and frame rules. -/
  | st (th : Fin 512) (d : Fin 32) (a : Fin 32) (size : BitVec 3) (off : BitVec 13)
  /-- AMOADD (R71): Atomic add that returns the old value. -/
  | amoadd (th : Fin 512) (d : Fin 32) (a : Fin 32) (b : Fin 32)
  /-- AMOSWP (R71): Atomic swap that returns the old value. -/
  | amoswp (th : Fin 512) (d : Fin 32) (a : Fin 32) (b : Fin 32)
  /-- AMOCAS (R71): Atomic compare-and-swap that returns the old value. -/
  | amocas (th : Fin 512) (d : Fin 32) (a : Fin 32) (b : Fin 32)
  /-- TNOW (R77): Reads the Datum replica at the start of the current tick. -/
  | tnow (th : Fin 512) (td : Fin 8)
  /-- TMOV (R65): Copies a time register. -/
  | tmov (th : Fin 512) (td : Fin 8) (tx : Fin 8)
  /-- TADD (R65): Adds a signed count of 2^-32 ns to a time value, raising TIME_RANGE when out of range. -/
  | tadd (th : Fin 512) (td : Fin 8) (tx : Fin 8) (g : Fin 32)
  /-- TADDS (R65): Adds signed seconds to a time value. -/
  | tadds (th : Fin 512) (td : Fin 8) (tx : Fin 8) (g : Fin 32)
  /-- TSUB (R77): Gives the signed difference of two time values, saturating and setting TSTAT.SAT. -/
  | tsub (th : Fin 512) (g : Fin 32) (tx : Fin 8) (ty : Fin 8)
  /-- TCMP (R77): Compares two time values into a predicate. -/
  | tcmp (th : Fin 512) (p : Fin 4) (tx : Fin 8) (ty : Fin 8) (cond : BitVec 3)
  /-- TGET (R77): Moves SEC, or NS and FRAC, to a general register. -/
  | tget (th : Fin 512) (g : Fin 32) (tx : Fin 8) (low : Bool)
  /-- TPUT (R65): Writes SEC, or NS and FRAC, into a time register. -/
  | tput (th : Fin 512) (td : Fin 8) (g : Fin 32) (low : Bool)
  /-- TWF (R78): Writes a time value into a held frame in a protocol format and records it for the launch checks. -/
  | twf (th : Fin 512) (tx : Fin 8) (g : Fin 32) (fmt : BitVec 2)
  /-- TLD (R72): Loads a 16-byte time value. -/
  | tld (th : Fin 512) (td : Fin 8) (a : Fin 32) (off : BitVec 16)
  /-- TST (R72): Stores a 16-byte time value. -/
  | tst (th : Fin 512) (td : Fin 8) (a : Fin 32) (off : BitVec 16)
  /-- BNOW (R66): Reads the Traverse bound of the Datum, with tag DATUM. -/
  | bnow (th : Fin 512) (bd : Fin 8)
  /-- BAT (R143): Gives the projected bound for an instant served on a port, with tag PROJECTED. -/
  | bat (th : Fin 512) (bd : Fin 8) (tx : Fin 8) (g : Fin 32)
  /-- BMOV (R67): Copies a bound and its tag. -/
  | bmov (th : Fin 512) (bd : Fin 8) (bx : Fin 8)
  /-- BADD (R67): Saturating field-wise addition of bounds, with tag inheritance. -/
  | badd (th : Fin 512) (bd : Fin 8) (bx : Fin 8) (bz : Fin 8)
  /-- BMAX (R67): Field-wise maximum of bounds, with tag inheritance. -/
  | bmax (th : Fin 512) (bd : Fin 8) (bx : Fin 8) (bz : Fin 8)
  /-- BWID (R67): Widens a bound by a general register, keeping its tag. -/
  | bwid (th : Fin 512) (bd : Fin 8) (bx : Fin 8) (g : Fin 32)
  /-- BFROMG (R66): Makes a bound from a general register, with tag PROGRAM. -/
  | bfromg (th : Fin 512) (bd : Fin 8) (g : Fin 32)
  /-- BTOG (R66): Moves a bound to a general register. -/
  | btog (th : Fin 512) (g : Fin 32) (bx : Fin 8)
  /-- BCVT (R6): Converts a bound to a coarser unit, rounding upward. -/
  | bcvt (th : Fin 512) (g : Fin 32) (bx : Fin 8) (unit : BitVec 2) (addOne : Bool)
  /-- BCHK (R66): Compares two bounds into a predicate. -/
  | bchk (th : Fin 512) (p : Fin 4) (bx : Fin 8) (bz : Fin 8)
  /-- BWF (R79): Writes a bound into a frame under the Damper tag check. -/
  | bwf (th : Fin 512) (bx : Fin 8) (g : Fin 32) (unit : BitVec 2) (addOne : Bool)
  /-- BLD (R67): Loads a bound with tag PROGRAM. -/
  | bld (th : Fin 512) (bd : Fin 8) (a : Fin 32) (off : BitVec 16)
  /-- BST (R67): Stores a bound, losing its tag. -/
  | bst (th : Fin 512) (bd : Fin 8) (a : Fin 32) (off : BitVec 16)
  /-- EARM (R80): Arms a timeline event from the arm word under the outcomes of Table 2.1. -/
  | earm (th : Fin 512) (g : Fin 32) (tx : Fin 8)
  /-- ECAN (R80): Cancels a timeline event, or a launch, under R58. -/
  | ecan (th : Fin 512) (g : Fin 32)
  /-- EWAIT (R81): Returns the oldest notice, or waits, withdrawing the named timeout expiry. -/
  | ewait (th : Fin 512) (td : Fin 8) (g : Fin 32)
  /-- PADDR (R82): Returns the CMEM address of a frame. -/
  | paddr (th : Fin 512) (d : Fin 32) (a : Fin 32)
  /-- PINFO (R82): Returns the length, port and class of a frame. -/
  | pinfo (th : Fin 512) (d : Fin 32) (a : Fin 32)
  /-- PALLOC (R82): Allocates a transmit frame. -/
  | palloc (th : Fin 512) (d : Fin 32) (a : Fin 32)
  /-- PFREE (R82): Releases a held frame. -/
  | pfree (th : Fin 512) (a : Fin 32)
  /-- PCOPY (R82): Copies octets under the frame rules. -/
  | pcopy (th : Fin 512) (d : Fin 32) (a : Fin 32) (b : Fin 32)
  /-- PSEND (R82): Submits a frame to Q0 to Q6 after the ordered checks. -/
  | psend (th : Fin 512) (d : Fin 32) (a : Fin 32) (b : Fin 32)
  /-- PTSB (R143): Returns the PORT-tagged bound of a frame's timestamp. -/
  | ptsb (th : Fin 512) (bd : Fin 8) (a : Fin 32)
  /-- LGATE (R83): Returns the first launch point of a port at or after an instant. -/
  | lgate (th : Fin 512) (td : Fin 8) (tx : Fin 8) (g : Fin 32)
  /-- LSEND (R83): Arms a Q7 launch after the checks of Table 3.15. -/
  | lsend (th : Fin 512) (g : Fin 32) (tx : Fin 8)
  /-- CSUB (R84): Submits a crypto descriptor to the cluster's lane. -/
  | csub (th : Fin 512) (d : Fin 32) (a : Fin 32) (b : Fin 32)
  /-- CDRV (R275): Derives or unseals a per-client key into a handle. -/
  | cdrv (th : Fin 512) (d : Fin 32) (a : Fin 32) (b : Fin 32)
  /-- CREL (R276): Releases a derived-key handle. -/
  | crel (th : Fin 512) (a : Fin 32)
  /-- DINC (R42): A program writes the 64-bit increment under the writer and Damper rules. -/
  | dinc (th : Fin 512) (g : Fin 32)
  /-- DENS (R42): Takes the ensemble writer role. -/
  | dens (th : Fin 512) (g : Fin 32)
  /-- DSTEP (R49): Requests a SETTLE step from GNSS or the mate, with the bound taken from Traverse. -/
  | dstep (th : Fin 512) (g : Fin 32) (tx : Fin 8)
  /-- OWNC (R32): A program claims an ownership entry. -/
  | ownc (th : Fin 512) (g : Fin 32)
  /-- OWNR (R32): A program releases an ownership entry. -/
  | ownr (th : Fin 512) (g : Fin 32)
  /-- DOSC (R253): Submits an oscillator steering word under the Damper steering limits. -/
  | dosc (th : Fin 512) (g : Fin 32)
  /-- MFC (R74): Reads a control register, with PRIVILEGE on a disallowed access. -/
  | mfc (th : Fin 512) (d : Fin 32) (c : Fin 32)
  /-- MTC (R74): Writes a control register, with PRIVILEGE on a disallowed access. -/
  | mtc (th : Fin 512) (a : Fin 32) (c : Fin 32)
  /-- CRYPTO_JOB_COMPLETE (R84): A crypto job ends, delivers its CRYPTO notice and, with CHAIN, submits its frame. -/
  | cryptoJobComplete (lane : Fin 16)
  /-- STK_ABORT_GO (R86): A write of STK_ABORT aborts a thread through the staged cleanup. -/
  | stkAbortGo (core : Fin 128) (v : BitVec 32)
  /-- STK_RESTART_GO (R87): A write of STK_RESTART restarts an ABORTED or FAULTED thread at its entry. -/
  | stkRestartGo (core : Fin 128) (v : BitVec 32)
  /-- THREAD_ABORT (R87): The host command aborts a thread and completes once the abort is done. -/
  | threadAbort (q : Fin 64) (cid : BitVec 32) (th : Fin 512)
  /-- THREAD_RESTART (R87): The host command restarts a thread. -/
  | threadRestart (q : Fin 64) (cid : BitVec 32) (th : Fin 512)
  /-- IMAGE_LOAD (R88): The host command verifies a signed image and loads it into the named cores. -/
  | imageLoad (q : Fin 64) (cid : BitVec 32) (mask : BitVec 128) (commit : Bool) (file : List Byte)
  /-- TIC_IN_WRITE (R90): A write of TIC_INn changes the input conditioning and restarts the prescaler. -/
  | ticInWrite (n : Fin 16) (v : BitVec 32)
  /-- TIC_EDGE (R95): A prescaled edge is converted to a Datum timestamp with a bound, and the record is routed to the stream or the ring. -/
  | ticEdge (ch : Fin 21) (code : BitVec 10)
  /-- STREAM_SAMPLE_MISSING (R92): The next stream instant arrives with no edge, and a missing sample is reported. -/
  | streamSampleMissing (r : Fin 8)
  /-- OVERFREQ_CHECK (R90): At each Datum second the frequency monitor sets or clears OVERFREQ. -/
  | overfreqCheck
  /-- TIC_OS_GO (R94): A one-shot window opens, or the request is refused. -/
  | ticOsGo (n : Fin 16) (v : BitVec 32)
  /-- ONESHOT_CLOSE (R94): The one-shot window expires and completes with PREEMPTED, CALIBRATING or NO_EDGE. -/
  | oneshotClose (n : Fin 16)
  /-- TIC_CAL_GO (R101): The owner requests a calibration of the channel. -/
  | ticCalGo (n : Fin 16) (v : BitVec 32)
  /-- CAL_SCHEDULE (R101): The engine schedules a calibration at start, after PERIOD, or after a temperature step. -/
  | calSchedule (ch : Fin 21)
  /-- CAL_START (R97): A pending calibration starts once a stream gap and its yield conditions allow. -/
  | calStart (ch : Fin 21)
  /-- CAL_COMPLETE (R98): The collection ends, and the table is tested and accepted or rejected. -/
  | calComplete (ch : Fin 21) (issued : Nat) (hits : List Nat)
  /-- CAL_REFUSED_NO_GAP (R97): No gap begins within 10 s, and the calibration is refused. -/
  | calRefusedNoGap (ch : Fin 21)
  /-- KEEPER_CHECK (R103): At each Datum second TIC_KX_DEV is written, and a keeper disagreement fault is raised when it exceeds the alarm. -/
  | keeperCheck
  /-- TIC_RING_BASE_STAGE (R322): A write of TIC_RING_LOn or TIC_RING_HIn stages the ring base. -/
  | ticRingBaseStage (n : Fin 16) (hi : Bool) (v : BitVec 32)
  /-- TIC_RING_COMMIT (R105): A write of TIC_RING_SZn commits the ring and zeroes PROD and CONS. -/
  | ticRingCommit (n : Fin 16) (v : BitVec 32)
  /-- ENS_PROCESS_SECOND (R115): The class 4 processing action of second n runs the ordered qualification, ensemble, learning and commit steps. -/
  | ensProcessSecond
  /-- ENS_REF_CFG_WRITE (R109): A write of ENS_REFr_CFG enables or configures an entry, or is refused with RANGE. -/
  | ensRefCfgWrite (r : Fin 32) (v : BitVec 32)
  /-- ENS_NET_GO (R111): A write of ENS_NETj_GO submits a network measurement from the named thread. -/
  | ensNetGo (j : Fin 16) (th : Fin 512) (v : BitVec 32) (insn : BitVec 32)
  /-- REF_ACCEPT_CMD (R117): A guarded ACCEPT requalifies an INCONSISTENT entry and widens the bound by the acceptance term. -/
  | refAcceptCmd (r : Fin 32) (v : BitVec 32)
  /-- WEIGHT_WRITE (R119): A write of an entry weight by the permitted writer. -/
  | weightWrite (r : Fin 32) (v : BitVec 32) (by_ : Option (Fin 512 × BitVec 32))
  /-- MEAS_DELIVER (R411): A GNSS or mate measurement reaches the assist, or is discarded as late. -/
  | measDeliver (r : Fin 32)
  /-- HOLDOVER_COMMIT (R125): The model sums are committed to the Cairn store each second, into alternating records. -/
  | holdoverCommit
  /-- OSC_SPI_TRANSFER (R129): An accepted steering word is shifted out at a millisecond boundary, and LAST is written on completion. -/
  | oscSpiTransfer (j : Fin 2)
  /-- TEMP_SENSOR_READ (R131): The external sensor is read over TEMP_I2C 500 ms after each Datum second. -/
  | tempSensorRead (reading : Option (BitVec 16))
  /-- JOURNAL_COMMIT (R148): The benchmark records of a second are committed to the Cairn store at the next Datum second. -/
  | journalCommit
  /-- JNL_ACK_HI_STAGE (R149): A write of TRV_JNL_ACK_HI stages the upper word. -/
  | jnlAckHiStage (v : BitVec 32)
  /-- JNL_ACK_COMMIT (R149): A write of TRV_JNL_ACK_LO commits the host acknowledgment, or is discarded with RANGE. -/
  | jnlAckCommit (v : BitVec 32)
  /-- FCW_STAGE (R153): A write of SYN_FCW_INTn or SYN_FCW_NUMn stages the control word. -/
  | fcwStage (n : Fin 16) (num : Bool) (v : BitVec 32)
  /-- FCW_COMMIT (R153): A write of SYN_FCW_DENn commits the FCW and starts a hop or search. -/
  | fcwCommit (n : Fin 16) (v : BitVec 32)
  /-- SYN0_SRC_WRITE (R154): A write that changes SYN0's source or divider moves SYN0 to COAST and then requalifies. -/
  | syn0SrcWrite (freq : Bool) (v : BitVec 32)
  /-- SYN_SEARCH_CMD (R159): SYN_CMDn.SEARCH forces a full band search. -/
  | synSearchCmd (n : Fin 16) (v : BitVec 32)
  /-- SYN0_ACCEPT_CMD (R165): A guarded SYN_CMD0.ACCEPT clears REJECT, and SYN0 relocks by frequency. -/
  | syn0AcceptCmd (v : BitVec 32)
  /-- LOOP_HOP_DONE (R159): A hop loads a stored band and code, and the loop enters ACQUIRE. -/
  | loopHopDone (n : Fin 16)
  /-- LOOP_SEARCH_DONE (R161): A search ends, either reaching ACQUIRE or failing to OFF with HOP_FAIL. -/
  | loopSearchDone (n : Fin 16) (found : Option (Fin 64 × Fin 1024))
  /-- LOOP_LOCK (R162): After 2^CNT_LOG2 good comparisons the loop is LOCKED, and a search result is stored. -/
  | loopLock (n : Fin 16)
  /-- LOOP_COAST_ENTRY (R163): A lock loss, a fault or a reference loss freezes the loop in COAST and raises a fault. -/
  | loopCoastEntry (n : Fin 16) (cause : Fin 5)
  /-- SYN0_QUAL_END (R165): SYN0's reference qualification ends, and SYN0 relocks or sets REJECT. -/
  | syn0QualEnd (dy : Int)
  /-- SYN_PHASE_WRITE (R166): A write of SYN_PHASEn is removed by frequency alone within the pull limit. -/
  | synPhaseWrite (n : Fin 16) (v : BitVec 32)
  /-- DIV_HI_STAGE (R322): A write of SYN_OUTk_DIV_HI stages divider bit 32. -/
  | divHiStage (k : Fin 24) (v : BitVec 32)
  /-- DIV_COMMIT (R167): A write of SYN_OUTk_DIV_LO commits the divider for alignment at a later Datum second. -/
  | divCommit (k : Fin 24) (v : BitVec 32)
  /-- DIVIDER_ALIGNMENT (R168): At an aligned second the output ends its old waveform and makes its aligned edge. -/
  | dividerAlignment
  /-- CLKOUT_EN_WRITE (R169): A write of SYN_OUTk_CFG.EN starts the output by alignment, or stops it after a falling edge. -/
  | clkoutEnWrite (k : Fin 24) (v : BitVec 32)
  /-- SYNC_IN_EDGE (R170): A SYNC_IN edge arms an alignment of the selected dividers, or is ignored while one is pending. -/
  | syncInEdge (falling : Bool)
  /-- PPS_EDGE (R171): The leading edge of a PPSOUT second is placed at S minus COMP. -/
  | ppsEdge (j : Fin 4)
  /-- PPS_CFG_TAKE_EFFECT (R171): A written PPS EN or FORMAT takes effect at the next Datum second at least 100 µs later. -/
  | ppsCfgTakeEffect (j : Fin 4)
  /-- PPS_COMP_WRITE (R171): A guarded write of SYN_PPSj_COMP is accepted only while EN is 0 or in SETTLE. -/
  | ppsCompWrite (j : Fin 4) (v : BitVec 32)
  /-- TOD_MESSAGE (R173): TODk sends its time-of-day messages LEAD ms after each Datum second. -/
  | todMessage (k : Fin 2)
  /-- GNS_SP_CFG_WRITE (R179): A write of GNS_SPp_CFG restarts the sample port and drops its channels. -/
  | gnsSpCfgWrite (p : Fin 4) (v : BitVec 32)
  /-- SP_RATE_CHECK (R179): Each second the sample rate is checked, and BADCLK is set or cleared. -/
  | spRateCheck (p : Fin 4) (hz : Nat)
  /-- SP_POWER_CHECK (R180): Each second the port power is measured, and JAM is set or cleared. -/
  | spPowerCheck (p : Fin 4) (pwr : BitVec 16)
  /-- GNS_CTL_GO (R181): A guarded GNS_CTL_CMD.GO starts a front-end SPI transfer. -/
  | gnsCtlGo (v : BitVec 32)
  /-- GNS_CTL_DONE (R181): An SPI transfer ends: RX is filled, BUSY clears and DONE increments. -/
  | gnsCtlDone (miso : BitVec 32)
  /-- ACQ_JOB_DONE (R184): An acquisition job finishes its FFT search and the next job starts by level. -/
  | acqJobDone (found : Option (Nat × Nat))
  /-- ACQ_ABORT (R185): GNS_ACQ_CTL.ABORT aborts all acquisition jobs. -/
  | acqAbort (v : BitVec 32)
  /-- EPOCH_LATCH (R187): At each Datum second the channels latch, and a time solution is formed per MAIN antenna. -/
  | epochLatch (obs : List GnsObs)
  /-- ANT_FLT_CHANGE (R194): ANT_FLTa changes, and the antenna's solutions are withheld or resumed. -/
  | antFltChange (a : Fin 4) (level : Bool)
  /-- ANT_POS_WRITE (R191): A guarded write of the antenna position ends any survey and is committed. -/
  | antPosWrite (a : Fin 4) (which : Fin 4) (v : BitVec 32)
  /-- ANT_SIG_WRITE (R182): A write of GNS_ANTa_CFG.SIG enables signals, or is refused when no port passes them. -/
  | antSigWrite (a : Fin 4) (v : BitVec 32)
  /-- TIME_FLOOR_HI_STAGE (R322): A write of GNS_TIME_FLOOR_HI stages the upper word. -/
  | timeFloorHiStage (v : BitVec 32)
  /-- TIME_FLOOR_COMMIT (R190): A write of GNS_TIME_FLOOR_LO commits the week-resolution floor. -/
  | timeFloorCommit (v : BitVec 32)
  /-- TIME_FLOOR_RAISE (R190): Once a day the committed floor is raised to the resolved time less 7 days. -/
  | timeFloorRaise
  /-- GNS_SNAP_GO (R195): GNS_SNAP_CTL.GO requests a sample capture at the next Datum millisecond. -/
  | gnsSnapGo (v : BitVec 32)
  /-- SNAPSHOT_START (R195): A capture begins at its start instant, or is refused as BUSY or NOPORT. -/
  | snapshotStart
  /-- SNAPSHOT_CAPTURE_END (R195): A capture completes or ends, and SEQ increments. -/
  | snapshotCaptureEnd (data : List Byte)
  /-- AUDIT_SCHEDULE (R196): The scheduled audit captures from the MAIN and AUDIT antennas together. -/
  | auditSchedule
  /-- AUDIT_COMPLETE (R196): The audit fit ends with PASS, FAIL or TOO_FEW, and the alarm updates. -/
  | auditComplete (ds : List AuditDelta)
  /-- PRT_CFG_WRITE (R200): A write of PRT_CFG.EN starts the port sequence or puts it at electrical idle. -/
  | prtCfgWrite (n : Fin 64) (v : BitVec 32)
  /-- PRT_CAL_GO (R216): A guarded PRT_CAL_CTL.GO recalibrates the port, taking the link down. -/
  | prtCalGo (n : Fin 64) (v : BitVec 32)
  /-- PORT_CAL_DONE (R216): The in-situ calibration ends and is accepted or fails. -/
  | portCalDone (n : Fin 64) (span : Nat) (tx : Nat) (rx : Nat)
  /-- LINK_UP (R200): The port link comes up, and launch points become defined. -/
  | linkUp (n : Fin 64) (phase : Nat) (rate : BitVec 32)
  /-- LINK_DOWN (R200): The line loses the link, and queued frames are freed. -/
  | linkDown (n : Fin 64)
  /-- FRAME_RECEIVE (R201): A frame is received whole, length- and FCS-checked, timestamped and buffered. -/
  | frameReceive (n : Fin 64) (data : List Byte) (codeErr : Bool) (at_ : TimeVal) (trx : TimeVal)
  /-- FRAME_TO_POOL (R204): A complete buffered frame moves into frame-pool cells once cells are free. -/
  | frameToPool (n : Fin 64)
  /-- PAUSE_TAKE_EFFECT (R212): At T_act the named queues are paused or unpaused. -/
  | pauseTakeEffect (n : Fin 64)
  /-- PAUSE_END (R212): At T_end the pause of a queue ends. -/
  | pauseEnd (n : Fin 64)
  /-- TX_FRAME_START (R205): At a start position the transmitter begins the head frame of the highest eligible queue. -/
  | txFrameStart (n : Fin 64)
  /-- TX_FRAME_END (R206): A frame finishes leaving, and LAUNCHED or SENT_TS follows. -/
  | txFrameEnd (n : Fin 64)
  /-- LAUNCH_DECIDE (R209): At frame start F a launch leaves, or fails with LOST, PAUSED or BUSY. -/
  | launchDecide (n : Fin 64)
  /-- SVC_OPEN (R221): A guarded SVC_CTL.OPEN opens the service, or is refused. -/
  | svcOpen (v : BitVec 32)
  /-- SVC_CLOSE (R222): A guarded SVC_CTL.CLOSE closes the service and clears AUTO_OPEN. -/
  | svcClose (v : BitVec 32)
  /-- SVC_TALLY_WRITE (R248): A K program adds a count to a named service counter. -/
  | svcTallyWrite (th : Fin 512) (v : BitVec 32) (insn : BitVec 32)
  /-- SIGNALING_REQUEST (R229): The standard image decides a unicast negotiation request and answers with grants. -/
  | signalingRequest (n : Fin 64) (h : BitVec 32)
  /-- SHED_LEVEL_LOWER (R246): Each Datum second the level is lowered when the lower load has held for HOLD seconds. -/
  | shedLevelLower
  /-- GRANT_CANCEL_SPREAD (R247): Grants of a class whose treatment worsened are cancelled spread over SPREAD seconds. -/
  | grantCancelSpread
  /-- CLIENT_RECORD_FREE (R226): An idle client record with expired grants is freed at a processed second. -/
  | clientRecordFree (rec : BitVec 22)
  /-- DELAY_REQ_SERVE (R240): The standard image answers a Delay_Req with an authenticated, bounded Delay_Resp. -/
  | delayReqServe (n : Fin 64) (h : BitVec 32)
  /-- NTP_REQUEST (R233): The standard image answers an NTP client request with a launched, bounded reply. -/
  | ntpRequest (n : Fin 64) (h : BitVec 32)
  /-- NTS_REQUEST (R236): The standard image opens the cookie, verifies the request and replies with fresh cookies, or a NAK. -/
  | ntsRequest (n : Fin 64) (h : BitVec 32)
  /-- LAUNCH_REISSUE (R214): A failed launch is reissued as a two-step Sync or as a rebuilt NTP reply. -/
  | launchReissue (th : Fin 512) (n : Fin 64) (h : BitVec 32)
  /-- FAULT_N_PULSE_END (R261): 100 µs after the latest raise, FAULT_N takes the level set by HOLD. -/
  | faultNPulseEnd
  /-- FLT_PIN_HOLD_WRITE (R261): A write of FLT_PIN_HOLD.HOLD sets FAULT_N outside pulses. -/
  | fltPinHoldWrite (v : BitVec 32)
  /-- FLT_ACK (R262): FLT_RECi_CTL.ACK acknowledges a record and stops its ladder. -/
  | fltAck (n : Fin 472) (v : BitVec 32)
  /-- FLT_CLEAR (R262): FLT_RECi_CTL.CLEAR zeroes a record, or is refused. -/
  | fltClear (n : Fin 472) (v : BitVec 32)
  /-- GRACE_EXPIRY (R263): A record's grace timer expires unacknowledged, and the ladder steps. -/
  | graceExpiry (n : Fin 472)
  /-- FLT_ESC_RELEASE (R268): A guarded FLT_ESC.RELEASE ends the ladder, or is refused. -/
  | fltEscRelease (v : BitVec 32)
  /-- DMP_DFDT_WRITE (R252): A write of DMP_MAX_DFDT is copied to the clock die, or is refused with RANGE. -/
  | dmpDfdtWrite (v : BitVec 32)
  /-- DMP_QCEIL_WRITE (R254): A write of a queue ceiling sets it and refills the bucket. -/
  | dmpQceilWrite (n : Fin 64) (qn : Fin 8) (v : BitVec 32)
  /-- KEY_UPDATE (R280): The host submits a key update envelope, which is verified by the ordered checks. -/
  | keyUpdate (q : Fin 64) (cid : BitVec 32) (data : List Byte)
  /-- ENVELOPE_APPLY (R281): After verification the envelope is applied atomically to the slot and the counter. -/
  | envelopeApply
  /-- KEY_ABORT_GO (R282): A write of KEY_ABORT.GO ends envelope verification with ABORTED. -/
  | keyAbortGo (v : BitVec 32)
  /-- ATTEST (R285): The host command returns a signed attestation statement. -/
  | attest (q : Fin 64) (cid : BitVec 32) (nonce : BitVec 256) (buflen : BitVec 32)
  /-- CERT_READ (R272): The host command returns the identity certificate. -/
  | certRead (q : Fin 64) (cid : BitVec 32) (buflen : BitVec 32)
  /-- COOKIE_SEAL (R329): The host command seals NTS cookies under the current generation. -/
  | cookieSeal (q : Fin 64) (cid : BitVec 32) (cls : Fin 8) (count : BitVec 8) (keys : List Byte) (buflen : BitVec 32)
  /-- IRQ_SOURCE_EDGE (R288): A rising status line of an enabled EDGE source latches it pending. -/
  | irqSourceEdge (n : Fin 512) (detail : BitVec 8)
  /-- IRQ_SRC_CFG_WRITE (R288): A write that enables a source latches a source whose line is already true. -/
  | irqSrcCfgWrite (n : Fin 512) (v : BitVec 32)
  /-- IRQ_DOORBELL (R289): A doorbell write raises a DOORBELL source, or is dropped. -/
  | irqDoorbell (v : BitVec 32)
  /-- IRQ_PEND_SET (R290): A write of IRQ_PEND_SET sets a source pending. -/
  | irqPendSet (v : BitVec 32)
  /-- IRQ_PEND_CLR (R290): A write of IRQ_PEND_CLR clears a pending bit. -/
  | irqPendClr (v : BitVec 32)
  /-- IRQ_GEN_WRITE (R290): A write of IRQ_CTL.GEN enables or stops issue. -/
  | irqGenWrite (v : BitVec 32)
  /-- IRQ_ISSUE (R293): Arbitration issues the winning pending source to its target, once the target can accept it. -/
  | irqIssue (tgt : BitVec 16)
  /-- IRQ_CLAIM_READ (R294): A read of IRQ_CLAIMv claims the issued source and returns its record. -/
  | irqClaimRead (vec : Fin 2048)
  /-- IRQ_EOI (R294): A write of IRQ_EOIv completes an active source. -/
  | irqEoi (vec : Fin 2048) (v : BitVec 32)
  /-- IRQ_TGT_WRITE (R297): A write of a source target takes effect at the next arbitration. -/
  | irqTgtWrite (n : Fin 512) (v : BitVec 32)
  /-- IRQ_TARGET_TIMEOUT (R298): A source unreachable for the timeout is issued once to its fallback, or marked STUCK. -/
  | irqTargetTimeout (n : Fin 512)
  /-- PMC_COUNTER_WRAP (R301): A counter wraps, sets its overflow bit and may freeze the cluster's counters. -/
  | pmcCounterWrap (c : Fin 16) (ctr : Fin 80) (smp : PmcSample)
  /-- PMC_MIRROR_UPDATE (R307): The engine rewrites each enabled mirror area at least once per microsecond. -/
  | pmcMirrorUpdate (c : Fin 16) (k : Fin 8)
  /-- TOP_UNLOCK_WRITE (R314): A write of TOP_UNLOCK arms or disarms the guard unlock. -/
  | topUnlockWrite (v : BitVec 32)
  /-- REGISTER_WRITE (R315): A host write to a register with no row of its own passes the ordered access checks. -/
  | registerWrite (off : BitVec 25) (size : Nat) (v : BitVec 64)
  /-- QUEUE_EN_WRITE (R323): A write of HST_Qq_CFG.EN enables a queue, resetting its pointers, or deletes it. -/
  | queueEnWrite (q : Fin 64) (v : BitVec 32)
  /-- SQ_TAIL_DOORBELL (R324): A write of SQ_TAIL submits commands, or is discarded. -/
  | sqTailDoorbell (q : Fin 64) (v : BitVec 32)
  /-- CQ_HEAD_WRITE (R324): A write of CQ_HEAD consumes completions, or is discarded. -/
  | cqHeadWrite (q : Fin 64) (v : BitVec 32)
  /-- TL_ARM (R56): The host command arms a timeline event or block action. -/
  | tlArm (q : Fin 64) (cid : BitVec 32) (at_ : TimeVal) (word : BitVec 64)
  /-- TL_CANCEL (R58): The host command cancels a timeline event. -/
  | tlCancel (q : Fin 64) (cid : BitVec 32) (h : BitVec 16)
  /-- DTM_SNAPSHOT (R61): The host command latches the Datum, bound and increment into a host buffer. -/
  | dtmSnapshot (q : Fin 64) (cid : BitVec 32) (buflen : BitVec 32)
  /-- DTM_STEP (R49): The host command requests a SETTLE step with a given value and bound. -/
  | dtmStep (q : Fin 64) (cid : BitVec 32) (sec : BitVec 64) (ns : BitVec 32) (frac : BitVec 32) (early : BitVec 32) (late : BitVec 32)
  /-- JOURNAL_READ (R149): The host command returns benchmark records. -/
  | journalRead (q : Fin 64) (cid : BitVec 32) (seq : BitVec 64) (count : BitVec 32) (buflen : BitVec 32)
  /-- GNSS_SNAP_READ (R195): The host command reads the snapshot buffer with SEQ at start and end. -/
  | gnssSnapRead (q : Fin 64) (cid : BitVec 32) (off : BitVec 32) (len : BitVec 32) (buflen : BitVec 32)
  /-- FAULT_SUMMARY (R267): The host command returns the last step-3 summary. -/
  | faultSummary (q : Fin 64) (cid : BitVec 32) (buflen : BitVec 32)
  /-- HST_ABORT_GO (R330): A write of HST_ABORT aborts a queue's outstanding commands within 10 µs. -/
  | hstAbortGo (v : BitVec 32) (cids : List (BitVec 32))
  /-- PCIE_LINK_LOSS (R311): Surprise down, link down or a function-level reset ends the commands, disables the queues and orphans their entries. -/
  | pcieLinkLoss (kind : PcieLoss)
  /-- BAR2_ACCESS (R310): A host access to CMEM or DDR through BAR2. -/
  | bar2Access (off : BitVec 26) (acc : Bar2Acc)
  /-- DDR_SCRUB_READ (R332): The scrubber reads and corrects words, yielding to demand access. -/
  | ddrScrubRead (ch : Fin 2) (addr : BitVec 64) (found : ScrubResult)
  /-- HEARTBEAT_LAUNCH (R340): A heartbeat is launched on each lane at its 50 µs schedule. -/
  | heartbeatLaunch (l : Fin 2) (tx : TimeVal)
  /-- HEARTBEAT_RECEIVE (R341): A received heartbeat re-arms the loss deadline and gives a two-way measurement. -/
  | heartbeatReceive (l : Fin 2) (hb : Heartbeat) (at_ : TimeVal)
  /-- HEARTBEAT_LOSS_DEADLINE (R349): 200 µs pass without a heartbeat on a lane, and the mate status updates. -/
  | heartbeatLossDeadline (l : Fin 2)
  /-- MATE_PRESENT_CHANGE (R350): MATE_PRESENT falls on insertion, or rises and declares the mate lost. -/
  | matePresentChange (high : Bool)
  /-- MAT_INIT_ENTRY (R346): After the lanes train, or 2 ms, the engine enters INIT. -/
  | matInitEntry (t0 : Bool) (t1 : Bool)
  /-- ROLE_DECIDE (R346): 1 ms after INIT the engine decides its role. -/
  | roleDecide
  /-- ARB_CONTENTION_DEMOTE (R347): The worse ACTIVE engine seeing ACTIVE on ARB_IN for 30 µs becomes STANDBY. -/
  | arbContentionDemote
  /-- MAT_WITHDRAW (R348): A guarded MAT_CMD.WITHDRAW moves the engine to WITHDRAWN. -/
  | matWithdraw (v : BitVec 32)
  /-- MAT_REJOIN (R348): A guarded MAT_CMD.REJOIN returns the engine to STANDBY, or is refused. -/
  | matRejoin (v : BitVec 32)
  /-- PROMOTION (R351): A STANDBY engine becomes ACTIVE after loss plus the hold, or on a yield. -/
  | promotion
  /-- WITNESS_MATCH (R353): An Announce from the mate's clockIdentity on a witness port may demote a promoted engine. -/
  | witnessMatch (port : Fin 64) (clk : BitVec 64)
  /-- SWAP_REQUEST_NOW (R355): A guarded MAT_SWAP_CTL.NOW requests a planned swap. -/
  | swapRequestNow (v : BitVec 32)
  /-- PERIODIC_SWAP_REQUEST (R357): The periodic schedule requests a swap 2 s before its second. -/
  | periodicSwapRequest
  /-- REVERSION_REQUEST (R358): The standby preferred engine requests a swap after both have been healthy for the hold. -/
  | reversionRequest
  /-- HEALTH_YIELD_REQUEST (R359): An ACTIVE engine unhealthy for 1 s beside a healthy mate requests a swap. -/
  | healthYieldRequest
  /-- SWAP_RECHECK (R355): At S minus 100 µs both engines recheck; the incoming one goes ACTIVE, or the swap is abandoned. -/
  | swapRecheck
  /-- SWAP_INSTANT (R356): At S the outgoing engine becomes STANDBY and the mirror direction reverses. -/
  | swapInstant
  /-- MIRROR_WRITE (R360): A write into a mirror window on the ACTIVE engine is queued to the mate. -/
  | mirrorWrite
  /-- MIRROR_FRAME_APPLY (R360): A received mirror frame is applied in sequence at the same offset. -/
  | mirrorFrameApply (f : MirFrame)
  /-- MIRROR_END_MARKER (R362): The END marker arrives, and stores resume on the new active. -/
  | mirrorEndMarker (seq : Nat)
  /-- WINDOW_COPY_DONE (R361): A whole-window copy completes, and the window is marked in sync. -/
  | windowCopyDone (k : Fin 4)
  /-- REGION_GATE (R367): The host command gates isolated core regions or the GNSS baseband. -/
  | regionGate (q : Fin 64) (cid : BitVec 32) (word : BitVec 32)
  /-- REGION_UNGATE (R367): The host command powers a gated region. -/
  | regionUngate (q : Fin 64) (cid : BitVec 32) (word : BitVec 32)
  /-- EMBER (R368): The host command enters Ember: commit, core reset and loop gating. -/
  | ember (q : Fin 64) (cid : BitVec 32)
  /-- EMBER_AUTO_ENTRY (R368): VDD_CORE below its minimum for 10 ms with AUTO set enters Ember. -/
  | emberAutoEntry
  /-- SHUTDOWN (R385): The host command commits state and holds the core die in reset. -/
  | shutdown (q : Fin 64) (cid : BitVec 32)
  /-- PROVISION (R374): The host command fuses the owner hash, advances to PROVISIONED and releases the transport key. -/
  | provision (q : Fin 64) (cid : BitVec 32) (owner : List Byte) (qT : List Byte) (buflen : BitVec 32)
  /-- ADVANCE_FIELD (R373): The host command blows LC_F to enter FIELD. -/
  | advanceField (q : Fin 64) (cid : BitVec 32)
  /-- RETIRE (R375): The host command blows LC_R and destroys the key records. -/
  | retire (q : Fin 64) (cid : BitVec 32) (order : List Byte)
  /-- FUSE_PROGRAM (R372): The host command blows a kill, priority or slew-ceiling fuse. -/
  | fuseProgram (q : Fin 64) (cid : BitVec 32) (item : BitVec 16) (value : BitVec 16)
  /-- BOOT_STORE (R376): The host command verifies an image and stores it in the boot store. -/
  | bootStore (q : Fin 64) (cid : BitVec 32) (mask : BitVec 128) (file : List Byte)
  /-- BOOT_CLEAR (R376): The host command clears the boot store. -/
  | bootClear (q : Fin 64) (cid : BitVec 32)
  /-- KEEPER_DOMAIN_START (R383): VDD_KEEP and VDD_CLK become valid, KEEP_RESET_N is released, the Cairn store is read and the Datum resumes. -/
  | keeperDomainStart (elapsed : BitVec 64)
  /-- SYN0_SRC_FALLBACK (R384): With no edge from the stored source 10 ms after the hop, SYN0 falls back to the keeper crystal. -/
  | syn0SrcFallback
  /-- RESET_N_RELEASE (R383): The core die starts: self-tests, DDR, PCIe, keys and boot images. -/
  | resetNRelease (ddr0 : BitVec 32) (ddr1 : BitVec 32) (failed : List (Fin 472))
  /-- CORE_DIE_RESET (R11): RESET_N or a core-supply loss resets the core die while the clock die runs on. -/
  | coreDieReset (byPin : Bool)
  /-- VDD_CLK_LOSS (R369): VDD_CLK is lost and the engine is off, with the keeper running if VDD_KEEP holds. -/
  | vddClkLoss
  /-- VDD_KEEP_LOSS (R369): VDD_KEEP falls below 0.70 V: a full power cycle. -/
  | vddKeepLoss
  /-- PWRFAIL_ASSERT (R386): PWRFAIL_N asserted stops commands and makes an emergency commit. -/
  | pwrfailAssert
  /-- PWRFAIL_RELEASE (R386): PWRFAIL_N released with power held resumes normal commits. -/
  | pwrfailRelease
  /-- DEBUG_LEVEL_REQUEST (R378): A debugger level request is granted or denied per lifecycle. -/
  | debugLevelRequest (lvl : DebugLevel)
  /-- DBG_DROP (R378): A write of DBG_CTL.DROP ends the debug session. -/
  | dbgDrop (v : BitVec 32)
  /-- SENSOR_READ (R401): Temperature sensors are read every 100 µs and the derating factors are re-evaluated. -/
  | sensorRead (clk : Int) (core : Int) (quads : List Int)
  /-- DCLK_TICK (R37): On every DCLK tick the increment is added to the Datum counter and the replica, carrying into seconds. -/
  | dclkTick
  /-- COPY_REFRESH (R318): On each KCLK edge all clock-die and keeper-domain register copies are refreshed together and HST_COPY_SEQ increments. -/
  | copyRefresh (pherr : List (BitVec 32))
  /-- SYN0_REFERENCE_RETURN (R165): SYN0's lost reference delivers edges again and SYN0 begins its QUAL-second qualification while coasting. -/
  | syn0ReferenceReturn
  /-- DEBUG_HALT (R63): An INVASIVE debugger halts a thread, which enters HALTED. -/
  | debugHalt (th : Fin 512)
  /-- DEBUGGER_RESUME (R63): An INVASIVE debugger resumes a HALTED thread. -/
  | debuggerResume (th : Fin 512)
  /-- KEEP_RESET_N_ASSERT (R11): KEEP_RESET_N is asserted, resetting the keeper domain and putting ACTIVE, LOCKA and FAULT_N in high impedance. -/
  | keepResetNAssert
  /-- PCIE_LINK_L0 (R298): The PCIe link completes training and reaches L0, so host vectors can become reachable again. -/
  | pcieLinkL0 (busMaster : Bool) (msixEn : Bool)
  /-- EPHEMERIS_COMMIT (R184): Once an hour the ephemerides and almanacs are committed to the Cairn store. -/
  | ephemerisCommit
  deriving DecidableEq, Repr

end Sys2Proof
end

