-- ==== Sys2Proof/Decode.lean ====
section
/-!
DEFINITION. Decode.lean: the spec gives the commands no encoding: no row of the command table has bits, so no word spells a
command.
-/
namespace Sys2Proof

/-- The command a word spells by the table's bits: none, because the table gives no row any bits. -/
def decodeTableWord (_nbits _w : Nat) : Option Instr := none

end Sys2Proof
end

