-- ==== Sys2Proof/Config.lean ====
section
/-!
DEFINITION. Config.lean: what an implementation fixes and the spec leaves open, and the FREE VALUES. Each is an opaque
constant with no body: nothing in Lean can see a value of it, so a statement about the machine holds whatever it is.
-/
namespace Sys2Proof

/-- A fresh 64-bit value the spec leaves open; the machine applies it to the counter `State.freeCtr` and advances that. -/
opaque Config.free64 : Nat → BitVec 64

/-- SHA-384 of octets (R88, R145, R272): 48 octets, used as an uninterpreted function. -/
opaque Config.sha384 : List Byte → List Byte

/-- ECDSA P-384 verification (R88, R280, R375): public-key hash, message, signature. -/
opaque Config.ecdsaVerify : List Byte → List Byte → List Byte → Bool

/-- ECDSA P-384 signature under the package's identity key (R285): message to 96 octets. -/
opaque Config.ecdsaSign : List Byte → List Byte

/-- AES key wrap (R281, R374): wrapping key, wrapped octets to key octets; none where the integrity check fails. -/
opaque Config.aesUnwrap : List Byte → List Byte → Option (List Byte)

/-- AES key wrap, the wrapping direction (R374). -/
opaque Config.aesWrap : List Byte → List Byte → List Byte

/-- The key derivation functions of the key store and the lanes (R272, R275): key, label, context, length. -/
opaque Config.kdf : List Byte → Nat → List Byte → Nat → List Byte

/-- ECDH agreement with the owner transport key, giving the wrapping key of R374. -/
opaque Config.ecdh : List Byte → List Byte

/-- A crypto-lane operation (Table 3.16): operation code, key, nonce, associated data, input to output octets; none where a
verify or decrypt operation fails. -/
opaque Config.laneOp : Nat → List Byte → List Byte → List Byte → List Byte → Option (List Byte)

/-- The identity public key of the package as its 97-octet uncompressed point (R272). -/
opaque Config.identityPub : List Byte

/-- The DER-encoded identity certificate (R272). -/
opaque Config.identityCert : List Byte

/-- The transport wrapping key derived from the root secret (R272). -/
opaque Config.transportKey : List Byte

/-- The public-key hash of the factory test authority (R88, R376). -/
opaque Config.factoryAuth : List Byte

/-- SipHash of a client's identity under the table's hash seed (R226). -/
opaque Config.sipHash : BitVec 32 → List Byte → BitVec 64

/-- The Ethernet address of port `n`, six octets: the spec names none. -/
opaque Config.portMac : Nat → List Byte

/-- The IP address of port `n` as an IPv6 address, an IPv4 address mapped, 16 octets: the spec names none. -/
opaque Config.portAddr : Nat → List Byte

/-- d_int of TIC channel `n` in fs, a factory measurement held in the Cairn store (R95); channel 16 is channel K. -/
opaque Config.ticDelay : Nat → Int

/-- y_tc of R102, the factory temperature compensation of the keeper, in 10^-12, at a clock-die temperature in 0.1 °C. -/
opaque Config.keeperTc : Int → Int

/-- T_f, the factory calibration temperature of the outputs, held in the Cairn store, in 0.1 °C (R174). -/
opaque Config.factoryTemp : Int

/-- The factory values of d_tx and d_rx of port `n` in fs (R216); 64 and 65 are the mate lanes. -/
opaque Config.portFactory : Nat → Nat × Nat

end Sys2Proof
end

