-- ==== Sys2Proof/Machine/RegNames.lean ====
section
/-!
DEFINITION. Machine/RegNames.lean: the names of the registers of BAR0, one constructor per register group of the spec's
register tables (an index n, r, k, q... of the spec's name is the index of the group), and the named fields of each,
by their bit places. The registers of each block stand in the chapter named beside them.
-/
namespace Sys2Proof.Machine

/-- The registers of BAR0 (Table 14.3 and the register tables of chapters 1 to 16). -/
inductive Reg where
  -- 01_architecture.md
  | TOP_OWN
  -- 02_datum.md
  | DTM_MODE
  | DTM_WSTAT
  | DTM_SETTLE_CTL
  | DTM_SETTLE_TIMEOUT
  | DTM_SETTLE_LEFT
  | DTM_NOW_SEC_HI
  | DTM_NOW_SEC_LO
  | DTM_NOW_NS
  | DTM_NOW_FRAC
  | DTM_INC_HI
  | DTM_INC_LO
  | DTM_SNAP_CTL
  | DTM_SNAP_SEC_HI
  | DTM_SNAP_SEC_LO
  | DTM_SNAP_NS
  | DTM_SNAP_FRAC
  | DTM_SNAP_EARLY
  | DTM_SNAP_LATE
  | DTM_SNAP_INC_HI
  | DTM_SNAP_INC_LO
  | DTM_SNAP_INFO
  | DTM_STEP_SEC_HI
  | DTM_STEP_SEC_LO
  | DTM_STEP_NS
  | DTM_STEP_FRAC
  | DTM_STEP_EARLY
  | DTM_STEP_LATE
  | DTM_STEP_CTL
  | DTM_UTC_OFFSET
  | DTM_LEAP_AT_HI
  | DTM_LEAP_AT_LO
  | DTM_LEAP_CTL
  | DTM_UTC_STAT
  | DTM_TL_USED
  | DTM_TL_PEAK
  | DTM_TL_LATE
  | DTM_TL_REFUSED
  | DTM_TL_WITHDRAWN
  | DTM_TL_STEPPED
  | DTM_CHECK
  -- 03_bamdex_programs.md
  | STK_THR_STAT
  | STK_ABORT
  | STK_RESTART
  | STK_PMC_USER_EN
  | STK_IMG_ID_HI
  | STK_IMG_ID_LO
  | STK_IMG_VER
  | STK_NOTICE_DROP
  | STK_DMP_VIOL
  -- 04_interval_measurement.md
  | TIC_WSTAT
  | TIC_CAL_HITS
  | TIC_RECAL
  | TIC_KX_AGE
  | TIC_KX_OFS
  | TIC_KX_DEV
  | TIC_KX_ALARM
  | TIC_IN
  | TIC_CFG
  | TIC_OS
  | TIC_STAT
  | TIC_RING_LO
  | TIC_RING_HI
  | TIC_RING_SZ
  | TIC_PROD
  | TIC_CONS
  | TIC_DELAY
  | TIC_DELAY_U
  | TIC_SKIP
  | TIC_DROP
  | TIC_CALSTAT
  | TIC_BIN
  -- 05_ensemble_holdover.md
  | ENS_STAT
  | ENS_WSTAT
  | ENS_QUAL
  | ENS_LOSS
  | ENS_TRI
  | ENS_TRI_DRIFT
  | ENS_BANK_AT_HI
  | ENS_BANK_AT_LO
  | ENS_HOLD_CTL
  | ENS_HOLD_Y0
  | ENS_HOLD_AGE
  | ENS_HOLD_TC
  | ENS_HOLD_UY
  | ENS_HOLD_UA
  | ENS_HOLD_UC
  | ENS_HOLD_RES
  | ENS_HOLD_PRED
  | ENS_HOLD_DEF_UY
  | ENS_HOLD_DEF_UA
  | ENS_TSNS_CFG
  | ENS_TSNS_T
  | ENS_OSC_CFG
  | ENS_OSC_GAIN
  | ENS_OSC_REF
  | ENS_OSC_LAST
  | ENS_EPH_HI
  | ENS_EPH_LO
  | ENS_EPH_EARLY
  | ENS_EPH_LATE
  | ENS_POL0
  | ENS_POL1
  | ENS_POL2
  | ENS_POL3
  | ENS_REF_CFG
  | ENS_REF_STATE
  | ENS_REF_LAST_AT
  | ENS_REF_FREQ
  | ENS_REF_OFS
  | ENS_REF_ACC
  | ENS_REF_YACC
  | ENS_REF_YAGE
  | ENS_REF_YMAX
  | ENS_REF_WEIGHT
  | ENS_REF_CMD
  | ENS_REF_PHASE_HI
  | ENS_REF_PHASE_LO
  | ENS_REF_PHASE_EARLY
  | ENS_REF_PHASE_LATE
  | ENS_NET_SEC
  | ENS_NET_NS
  | ENS_NET_FRAC
  | ENS_NET_EARLY
  | ENS_NET_LATE
  | ENS_NET_AT
  | ENS_NET_GO
  | ENS_ADEV
  -- 06_traverse_bounds.md
  | TRV_STAT
  | TRV_WSTAT
  | TRV_DATUM_EARLY
  | TRV_DATUM_LATE
  | TRV_ACCEPT_EARLY
  | TRV_ACCEPT_LATE
  | TRV_HOLD_EARLY
  | TRV_HOLD_LATE
  | TRV_COAST
  | TRV_PROJ_YMIN
  | TRV_COAST_Y
  | TRV_RES_Y
  | TRV_CC_T6
  | TRV_CC_T7
  | TRV_CC_T140
  | TRV_CC_T150
  | TRV_CC_T160
  | TRV_CC_CTL
  | TRV_BMK_CTL
  | TRV_JNL_SEQ_HI
  | TRV_JNL_SEQ_LO
  | TRV_JNL_OLD_HI
  | TRV_JNL_OLD_LO
  | TRV_JNL_ACK_HI
  | TRV_JNL_ACK_LO
  | TRV_JNL_LOST
  | TRV_OUT_EARLY
  | TRV_OUT_LATE
  -- 07_clock_synthesis.md
  | SYN_STAT
  | SYN_WSTAT
  | SYN_LOCKA_CTL
  | SYN0_SRC
  | SYN0_SRC_FREQ
  | SYN_SYNC_CTL
  | SYN_SYNC_STAT
  | SYN_SYNC_AT
  | SYN_CFG
  | SYN_FCW_INT
  | SYN_FCW_NUM
  | SYN_FCW_DEN
  | SYN_LOCK
  | SYN_LSTAT
  | SYN_PHERR
  | SYN_PHASE
  | SYN_PULL
  | SYN_CMD
  | SYN_COASTS
  | SYN_OUT_CFG
  | SYN_OUT_DIV_HI
  | SYN_OUT_DIV_LO
  | SYN_OUT_STAT
  | SYN_PPS_CFG
  | SYN_PPS_COMP
  | SYN_PPS_CF
  | SYN_PPS_STAT
  | SYN_TOD_CFG
  | SYN_HOP
  -- 08_gnss_baseband.md
  | GNS_STAT
  | GNS_WSTAT
  | GNS_TIME_FLOOR_HI
  | GNS_TIME_FLOOR_LO
  | GNS_TRK
  | GNS_RAIM
  | GNS_ACQ_CTL
  | GNS_AUD_CTL
  | GNS_AUD_STAT
  | GNS_AUD_THR
  | GNS_SNAP_CTL
  | GNS_SNAP_STAT
  | GNS_SNAP_SEC_HI
  | GNS_SNAP_SEC_LO
  | GNS_SNAP_NS
  | GNS_SYS_OFS
  | GNS_SYS_U
  | GNS_CTL_CFG
  | GNS_CTL_TX
  | GNS_CTL_CMD
  | GNS_CTL_RX
  | GNS_CTL_STAT
  | GNS_SP_CFG
  | GNS_SP_RATE
  | GNS_SP_FC
  | GNS_SP_STAT
  | GNS_ANT_CFG
  | GNS_ANT_STAT
  | GNS_ANT_POS_X
  | GNS_ANT_POS_Y
  | GNS_ANT_POS_Z
  | GNS_ANT_POS_U
  | GNS_ANT_DELAY
  | GNS_ANT_DELAY_U
  | GNS_ANT_MP
  | GNS_ANT_SURV
  | GNS_ANT_EARLY
  | GNS_ANT_LATE
  | GNS_CH_STAT
  -- 09_ports_timestamping.md
  | PRT_CFG
  | PRT_STAT
  | PRT_WSTAT
  | PRT_MAXFRAME
  | PRT_LAUNCH_GUARD
  | PRT_LPHASE
  | PRT_PFC_MAP
  | PRT_RXMAP0
  | PRT_RXMAP1
  | PRT_CAL_CTL
  | PRT_CAL_TX
  | PRT_CAL_RX
  | PRT_ASYM_CABLE
  | PRT_ASYM_CABLE_U
  | PRT_RXPPM
  | PRT_PAUSE_END_SEC
  | PRT_PAUSE_END_NS
  | PRT_RX_OK
  | PRT_RX_RUNT
  | PRT_RX_OVERSIZE
  | PRT_RX_FCS
  | PRT_RX_OVF
  | PRT_RX_DROP
  | PRT_RX_NOTHREAD
  | PRT_RX_PAUSE
  | PRT_TX_OK
  | PRT_TX_PAD
  | PRT_TX_LINKDROP
  | PRT_LAUNCH_OK
  | PRT_LAUNCH_PAUSED
  | PRT_LAUNCH_COLL
  | PRT_LAUNCH_LOST
  | PRT_GUARD_HOLD
  -- 10_time_service.md
  | SVC_STAT
  | SVC_WSTAT
  | SVC_CTL
  | SVC_OPEN_BOUND
  | SVC_TABLE_LO
  | SVC_TABLE_HI
  | SVC_TABLE_CFG
  | SVC_HASH_SEED
  | SVC_CAP
  | SVC_SHED
  | SVC_COST
  | SVC_GRANT
  | SVC_KEYS
  | SVC_TLV_ORG
  | SVC_TLV_SUB
  | SVC_NTP_EF
  | SVC_NTP_REFID
  | SVC_COOKIE_ID
  | SVC_COOKIE_SLOTS
  | SVC_TALLY
  | SVC_CLASS
  | SVC_PORT
  | SVC_LEVEL
  | SVC_LOAD
  | SVC_CNT_ADMIT
  | SVC_CNT_DELAY
  | SVC_CNT_REFUSE
  | SVC_CNT_AUTHFAIL
  | SVC_REISSUE_SYNC
  | SVC_REISSUE_NTP
  | SVC_TABLE_FULL
  | SVC_NTS_NAK
  | SVC_REPLAY
  -- 11_damper_faults.md
  | FLT_STAT
  | FLT_WSTAT
  | FLT_GRACE
  | FLT_PIN_HOLD
  | FLT_HANDLER
  | FLT_ESC
  | FLT_ESC_CTL
  | FLT_ESC_LAST
  | FLT_ESC_LAST_AT
  | FLT_ACTIVE
  | FLT_REC_STAT
  | FLT_REC_CAUSE
  | FLT_REC_SOURCE
  | FLT_REC_DETAIL
  | FLT_REC_IMG_HI
  | FLT_REC_IMG_LO
  | FLT_REC_FIRST_SEC
  | FLT_REC_FIRST_NS
  | FLT_REC_LAST_SEC
  | FLT_REC_LAST_NS
  | FLT_REC_CTL
  | DMP_MAX_DFDT
  | DMP_FUSE
  | DMP_WSTAT
  | DMP_VIOL_TOTAL
  | DMP_LAST
  | DMP_LAST_INSN
  | DMP_LAST_AT
  | DMP_OSC_MIN
  | DMP_OSC_MAX
  | DMP_OSC_STEP
  | DMP_OSC_INTERVAL
  | DMP_QCEIL
  -- 12_keys_attestation.md
  | KEY_STAT
  | KEY_WSTAT
  | KEY_ABORT
  | KEY_LAST
  | KEY_COUNTER_HI
  | KEY_COUNTER_LO
  | KEY_HGEN
  | KEY_IDHASH
  | KEY_OWNHASH
  | KEY_SLOT
  -- 13_interrupts_counters.md
  | IRQ_CTL
  | IRQ_WSTAT
  | IRQ_TIERS
  | IRQ_TARGET_TIMEOUT
  | IRQ_DOORBELL
  | IRQ_PEND_SET
  | IRQ_PEND_CLR
  | IRQ_DB_DROP
  | IRQ_PEND
  | IRQ_SRC_CFG
  | IRQ_SRC_TGT
  | IRQ_SRC_STAT
  | IRQ_CLAIM
  | IRQ_EOI
  | IRQ_RUN
  | PMC_CTL
  | PMC_WSTAT
  | PMC_OVF0
  | PMC_OVF1
  | PMC_OVF2
  | PMC_SMP_CTL
  | PMC_SMP_PROD
  | PMC_SMP_CONS
  | PMC_SMP_DROP
  | PMC_MIRROR
  | PMC_CC_SEL
  | PMC_CC_THR
  | PMC_CC_HI
  | PMC_CC_LO
  | PMC_K_SEL
  | PMC_K_THR
  | PMC_K_HI
  | PMC_K_LO
  | PMC_SMP_BUF
  -- 14_host_registers.md
  | TOP_ID
  | TOP_LIFE
  | TOP_UNLOCK
  | TOP_LOCK_VIOL
  | TOP_WOS_VIOL
  | TOP_OWN_VIOL
  | HST_STAT
  | HST_WSTAT
  | HST_COPY_SEQ
  | HST_ABORT
  | HST_ABORTING_LO
  | HST_ABORTING_HI
  | HST_B2W_BASE_LO
  | HST_B2W_BASE_HI
  | HST_Q_CFG
  | HST_Q_SQ_LO
  | HST_Q_SQ_HI
  | HST_Q_CQ_LO
  | HST_Q_CQ_HI
  | HST_Q_SQ_TAIL
  | HST_Q_SQ_HEAD
  | HST_Q_CQ_HEAD
  | HST_Q_CQ_TAIL
  | MEM_STAT
  | MEM_SCRUB_CTL
  | MEM_SRAM_CE1
  | MEM_SRAM_CE2
  | MEM_SRAM_UE
  | MEM_SRAM_LAST
  | MEM_CH_SIZE
  | MEM_CH_CE1
  | MEM_CH_CE2
  | MEM_CH_UE
  | MEM_CH_LAST_HI
  | MEM_CH_LAST_LO
  -- 15_mated_pair.md
  | MAT_STAT
  | MAT_WSTAT
  | MAT_CFG
  | MAT_PROMOTE_HOLD
  | MAT_REVERT_HOLD
  | MAT_SWAP_AT
  | MAT_SWAP_CTL
  | MAT_CMD
  | MAT_SVC_LO
  | MAT_SVC_HI
  | MAT_WITNESS_LO
  | MAT_WITNESS_HI
  | MAT_CLKID_HI
  | MAT_CLKID_LO
  | MAT_ASYM0
  | MAT_ASYM_U0
  | MAT_ASYM1
  | MAT_ASYM_U1
  | MAT_MATE_CLKID_HI
  | MAT_MATE_CLKID_LO
  | MAT_WITNESS_AGE
  | MAT_RTT
  | MAT_HB_LOST
  | MAT_ROLECNT
  | MAT_MIR
  | MAT_MIR_STAT
  | MAT_PRIORITY
  -- 16_power_security_life.md
  | PWR_STAT
  | PWR_WSTAT
  | PWR_EMBER
  | PWR_FAIL
  | PWR_CNT
  | PWR_KEEP_STARTS
  | PWR_CORE_STARTS
  | SEC_STAT
  | SEC_BOOT
  | DBG_STAT
  | DBG_CTL
  deriving DecidableEq, Repr

/-- A field: its register group and its bit places. -/
structure Fld where
  reg : Reg
  hi  : Nat
  lo  : Nat
  deriving DecidableEq, Repr

/-- TOP_OWN[31:31], RS. -/
def Fld.TOP_OWN.HELD : Fld := ⟨.TOP_OWN, 31, 31⟩
/-- TOP_OWN[30:30], RS. -/
def Fld.TOP_OWN.ORPHAN : Fld := ⟨.TOP_OWN, 30, 30⟩
/-- TOP_OWN[29:28], RS. -/
def Fld.TOP_OWN.KIND : Fld := ⟨.TOP_OWN, 29, 28⟩
/-- TOP_OWN[15:0], RS. -/
def Fld.TOP_OWN.OWNER : Fld := ⟨.TOP_OWN, 15, 0⟩
/-- DTM_MODE[7:7], RS. -/
def Fld.DTM_MODE.ENS_ACTIVE : Fld := ⟨.DTM_MODE, 7, 7⟩
/-- DTM_MODE[6:6], RS. -/
def Fld.DTM_MODE.HOST_INC : Fld := ⟨.DTM_MODE, 6, 6⟩
/-- DTM_MODE[5:5], RS. -/
def Fld.DTM_MODE.STEP_PEND : Fld := ⟨.DTM_MODE, 5, 5⟩
/-- DTM_MODE[4:4], RS. -/
def Fld.DTM_MODE.STEP_USED : Fld := ⟨.DTM_MODE, 4, 4⟩
/-- DTM_MODE[3:3], RS. -/
def Fld.DTM_MODE.KINDLING : Fld := ⟨.DTM_MODE, 3, 3⟩
/-- DTM_MODE[1:0], RS. -/
def Fld.DTM_MODE.MODE : Fld := ⟨.DTM_MODE, 1, 0⟩
/-- DTM_WSTAT[31:28], RS. -/
def Fld.DTM_WSTAT.INC_SRC : Fld := ⟨.DTM_WSTAT, 31, 28⟩
/-- DTM_WSTAT[27:16], RS. -/
def Fld.DTM_WSTAT.INC_THREAD : Fld := ⟨.DTM_WSTAT, 27, 16⟩
/-- DTM_WSTAT[15:12], RS. -/
def Fld.DTM_WSTAT.REASON : Fld := ⟨.DTM_WSTAT, 15, 12⟩
/-- DTM_WSTAT[9:9], W1C. -/
def Fld.DTM_WSTAT.LEAP_REFUSED : Fld := ⟨.DTM_WSTAT, 9, 9⟩
/-- DTM_WSTAT[8:8], W1C. -/
def Fld.DTM_WSTAT.LEAP_ACCEPT : Fld := ⟨.DTM_WSTAT, 8, 8⟩
/-- DTM_WSTAT[7:7], W1C. -/
def Fld.DTM_WSTAT.SETTLE_REFUSED : Fld := ⟨.DTM_WSTAT, 7, 7⟩
/-- DTM_WSTAT[6:6], W1C. -/
def Fld.DTM_WSTAT.STEP_REFUSED : Fld := ⟨.DTM_WSTAT, 6, 6⟩
/-- DTM_WSTAT[5:5], W1C. -/
def Fld.DTM_WSTAT.STEP_ACCEPT : Fld := ⟨.DTM_WSTAT, 5, 5⟩
/-- DTM_WSTAT[4:4], W1C. -/
def Fld.DTM_WSTAT.INC_REFUSED : Fld := ⟨.DTM_WSTAT, 4, 4⟩
/-- DTM_WSTAT[3:3], W1C. -/
def Fld.DTM_WSTAT.INC_LOST : Fld := ⟨.DTM_WSTAT, 3, 3⟩
/-- DTM_WSTAT[2:2], W1C. -/
def Fld.DTM_WSTAT.INC_ACCEPT : Fld := ⟨.DTM_WSTAT, 2, 2⟩
/-- DTM_WSTAT[1:1], W1C. -/
def Fld.DTM_WSTAT.TIMEOUT_RANGE : Fld := ⟨.DTM_WSTAT, 1, 1⟩
/-- DTM_SETTLE_CTL[31:31], RWG. -/
def Fld.DTM_SETTLE_CTL.OPEN : Fld := ⟨.DTM_SETTLE_CTL, 31, 31⟩
/-- DTM_SETTLE_CTL[30:30], RWG. -/
def Fld.DTM_SETTLE_CTL.CLOSE : Fld := ⟨.DTM_SETTLE_CTL, 30, 30⟩
/-- DTM_SETTLE_CTL[8:8], RWG. -/
def Fld.DTM_SETTLE_CTL.MUTE_PPS : Fld := ⟨.DTM_SETTLE_CTL, 8, 8⟩
/-- DTM_SETTLE_CTL[2:2], RWG. -/
def Fld.DTM_SETTLE_CTL.SRC_HOST : Fld := ⟨.DTM_SETTLE_CTL, 2, 2⟩
/-- DTM_SETTLE_CTL[1:1], RWG. -/
def Fld.DTM_SETTLE_CTL.SRC_MATE : Fld := ⟨.DTM_SETTLE_CTL, 1, 1⟩
/-- DTM_SETTLE_CTL[0:0], RWG. -/
def Fld.DTM_SETTLE_CTL.SRC_GNSS : Fld := ⟨.DTM_SETTLE_CTL, 0, 0⟩
/-- DTM_SETTLE_TIMEOUT[16:0], RWG. -/
def Fld.DTM_SETTLE_TIMEOUT.SECONDS : Fld := ⟨.DTM_SETTLE_TIMEOUT, 16, 0⟩
/-- DTM_SETTLE_LEFT[16:0], RS. -/
def Fld.DTM_SETTLE_LEFT.SECONDS : Fld := ⟨.DTM_SETTLE_LEFT, 16, 0⟩
/-- DTM_SNAP_CTL[31:16], RS. -/
def Fld.DTM_SNAP_CTL.SEQ : Fld := ⟨.DTM_SNAP_CTL, 31, 16⟩
/-- DTM_SNAP_CTL[2:2], W1C. -/
def Fld.DTM_SNAP_CTL.OVERRUN : Fld := ⟨.DTM_SNAP_CTL, 2, 2⟩
/-- DTM_SNAP_CTL[1:1], RS. -/
def Fld.DTM_SNAP_CTL.DONE : Fld := ⟨.DTM_SNAP_CTL, 1, 1⟩
/-- DTM_SNAP_CTL[0:0], WO. -/
def Fld.DTM_SNAP_CTL.GO : Fld := ⟨.DTM_SNAP_CTL, 0, 0⟩
/-- DTM_SNAP_INFO[31:16], RS. -/
def Fld.DTM_SNAP_INFO.UTC_OFFSET : Fld := ⟨.DTM_SNAP_INFO, 31, 16⟩
/-- DTM_SNAP_INFO[3:3], RS. -/
def Fld.DTM_SNAP_INFO.IN_LEAP : Fld := ⟨.DTM_SNAP_INFO, 3, 3⟩
/-- DTM_SNAP_INFO[2:2], RS. -/
def Fld.DTM_SNAP_INFO.LEAP_PEND : Fld := ⟨.DTM_SNAP_INFO, 2, 2⟩
/-- DTM_SNAP_INFO[1:0], RS. -/
def Fld.DTM_SNAP_INFO.MODE : Fld := ⟨.DTM_SNAP_INFO, 1, 0⟩
/-- DTM_STEP_CTL[0:0], RWG. -/
def Fld.DTM_STEP_CTL.GO : Fld := ⟨.DTM_STEP_CTL, 0, 0⟩
/-- DTM_UTC_OFFSET[31:31], RWG. -/
def Fld.DTM_UTC_OFFSET.VALID : Fld := ⟨.DTM_UTC_OFFSET, 31, 31⟩
/-- DTM_UTC_OFFSET[15:0], RWG. -/
def Fld.DTM_UTC_OFFSET.OFFSET : Fld := ⟨.DTM_UTC_OFFSET, 15, 0⟩
/-- DTM_LEAP_CTL[31:31], RWG. -/
def Fld.DTM_LEAP_CTL.ARM : Fld := ⟨.DTM_LEAP_CTL, 31, 31⟩
/-- DTM_LEAP_CTL[30:30], RWG. -/
def Fld.DTM_LEAP_CTL.CANCEL : Fld := ⟨.DTM_LEAP_CTL, 30, 30⟩
/-- DTM_LEAP_CTL[15:0], RWG. -/
def Fld.DTM_LEAP_CTL.NEW_OFFSET : Fld := ⟨.DTM_LEAP_CTL, 15, 0⟩
/-- DTM_UTC_STAT[31:31], RS. -/
def Fld.DTM_UTC_STAT.LEAP_PEND : Fld := ⟨.DTM_UTC_STAT, 31, 31⟩
/-- DTM_UTC_STAT[30:30], RS. -/
def Fld.DTM_UTC_STAT.LEAP61 : Fld := ⟨.DTM_UTC_STAT, 30, 30⟩
/-- DTM_UTC_STAT[29:29], RS. -/
def Fld.DTM_UTC_STAT.LEAP59 : Fld := ⟨.DTM_UTC_STAT, 29, 29⟩
/-- DTM_UTC_STAT[28:28], RS. -/
def Fld.DTM_UTC_STAT.IN_LEAP : Fld := ⟨.DTM_UTC_STAT, 28, 28⟩
/-- DTM_UTC_STAT[15:0], RS. -/
def Fld.DTM_UTC_STAT.NEXT_OFFSET : Fld := ⟨.DTM_UTC_STAT, 15, 0⟩
/-- DTM_CHECK[31:16], RS. -/
def Fld.DTM_CHECK.MISMATCH : Fld := ⟨.DTM_CHECK, 31, 16⟩
/-- DTM_CHECK[1:1], RS. -/
def Fld.DTM_CHECK.REPLICA_VALID : Fld := ⟨.DTM_CHECK, 1, 1⟩
/-- DTM_CHECK[0:0], RS. -/
def Fld.DTM_CHECK.LAST_OK : Fld := ⟨.DTM_CHECK, 0, 0⟩
/-- STK_THR_STAT[31:28], RO. -/
def Fld.STK_THR_STAT.STATE : Fld := ⟨.STK_THR_STAT, 31, 28⟩
/-- STK_THR_STAT[27:27], RO. -/
def Fld.STK_THR_STAT.K : Fld := ⟨.STK_THR_STAT, 27, 27⟩
/-- STK_THR_STAT[23:16], RO. -/
def Fld.STK_THR_STAT.ECAUSE : Fld := ⟨.STK_THR_STAT, 23, 16⟩
/-- STK_THR_STAT[15:0], RO. -/
def Fld.STK_THR_STAT.PC : Fld := ⟨.STK_THR_STAT, 15, 0⟩
/-- STK_ABORT[7:4], W1C. -/
def Fld.STK_ABORT.DONE : Fld := ⟨.STK_ABORT, 7, 4⟩
/-- STK_ABORT[3:0], WO. -/
def Fld.STK_ABORT.GO : Fld := ⟨.STK_ABORT, 3, 0⟩
/-- STK_RESTART[3:0], WO. -/
def Fld.STK_RESTART.GO : Fld := ⟨.STK_RESTART, 3, 0⟩
/-- STK_PMC_USER_EN[3:0], RW. -/
def Fld.STK_PMC_USER_EN.EN : Fld := ⟨.STK_PMC_USER_EN, 3, 0⟩
/-- TIC_WSTAT[3:3], W1C. -/
def Fld.TIC_WSTAT.OS_REFUSED : Fld := ⟨.TIC_WSTAT, 3, 3⟩
/-- TIC_WSTAT[2:2], W1C. -/
def Fld.TIC_WSTAT.CAL_REFUSED : Fld := ⟨.TIC_WSTAT, 2, 2⟩
/-- TIC_WSTAT[1:1], W1C. -/
def Fld.TIC_WSTAT.RANGE : Fld := ⟨.TIC_WSTAT, 1, 1⟩
/-- TIC_WSTAT[0:0], W1C. -/
def Fld.TIC_WSTAT.ACCEPT : Fld := ⟨.TIC_WSTAT, 0, 0⟩
/-- TIC_CAL_HITS[4:0], RWG. -/
def Fld.TIC_CAL_HITS.LOG2N : Fld := ⟨.TIC_CAL_HITS, 4, 0⟩
/-- TIC_RECAL[31:16], RWG. -/
def Fld.TIC_RECAL.PERIOD : Fld := ⟨.TIC_RECAL, 31, 16⟩
/-- TIC_RECAL[7:0], RWG. -/
def Fld.TIC_RECAL.DT : Fld := ⟨.TIC_RECAL, 7, 0⟩
/-- TIC_IN[31:31], RW. -/
def Fld.TIC_IN.EN : Fld := ⟨.TIC_IN, 31, 31⟩
/-- TIC_IN[28:28], RW. -/
def Fld.TIC_IN.TYPE : Fld := ⟨.TIC_IN, 28, 28⟩
/-- TIC_IN[27:27], RW. -/
def Fld.TIC_IN.TERM : Fld := ⟨.TIC_IN, 27, 27⟩
/-- TIC_IN[26:26], RW. -/
def Fld.TIC_IN.EDGE : Fld := ⟨.TIC_IN, 26, 26⟩
/-- TIC_IN[19:16], RW. -/
def Fld.TIC_IN.PRESC : Fld := ⟨.TIC_IN, 19, 16⟩
/-- TIC_CFG[31:31], WO. -/
def Fld.TIC_CFG.CAL_GO : Fld := ⟨.TIC_CFG, 31, 31⟩
/-- TIC_CFG[30:30], RW. -/
def Fld.TIC_CFG.CAL_YIELD : Fld := ⟨.TIC_CFG, 30, 30⟩
/-- TIC_CFG[29:28], RW. -/
def Fld.TIC_CFG.MODE : Fld := ⟨.TIC_CFG, 29, 28⟩
/-- TIC_CFG[19:16], RW. -/
def Fld.TIC_CFG.IRQ_LOG2 : Fld := ⟨.TIC_CFG, 19, 16⟩
/-- TIC_OS[31:31], WO. -/
def Fld.TIC_OS.GO : Fld := ⟨.TIC_OS, 31, 31⟩
/-- TIC_OS[27:20], RW. -/
def Fld.TIC_OS.TAG : Fld := ⟨.TIC_OS, 27, 20⟩
/-- TIC_OS[19:0], RW. -/
def Fld.TIC_OS.WINDOW : Fld := ⟨.TIC_OS, 19, 0⟩
/-- TIC_STAT[31:31], RS. -/
def Fld.TIC_STAT.REF_STREAM : Fld := ⟨.TIC_STAT, 31, 31⟩
/-- TIC_STAT[30:30], RS. -/
def Fld.TIC_STAT.CALIBRATING : Fld := ⟨.TIC_STAT, 30, 30⟩
/-- TIC_STAT[29:29], RS. -/
def Fld.TIC_STAT.UNCAL : Fld := ⟨.TIC_STAT, 29, 29⟩
/-- TIC_STAT[28:28], RS. -/
def Fld.TIC_STAT.STALE : Fld := ⟨.TIC_STAT, 28, 28⟩
/-- TIC_STAT[27:27], RS. -/
def Fld.TIC_STAT.OVERFREQ : Fld := ⟨.TIC_STAT, 27, 27⟩
/-- TIC_STAT[26:26], RS. -/
def Fld.TIC_STAT.OS_PEND : Fld := ⟨.TIC_STAT, 26, 26⟩
/-- TIC_STAT[25:25], RS. -/
def Fld.TIC_STAT.RING_FULL : Fld := ⟨.TIC_STAT, 25, 25⟩
/-- TIC_STAT[24:24], RS. -/
def Fld.TIC_STAT.DERATED : Fld := ⟨.TIC_STAT, 24, 24⟩
/-- TIC_RING_SZ[3:0], RW. -/
def Fld.TIC_RING_SZ.LOG2SZ : Fld := ⟨.TIC_RING_SZ, 3, 0⟩
/-- TIC_CALSTAT[31:28], RS. -/
def Fld.TIC_CALSTAT.RESULT : Fld := ⟨.TIC_CALSTAT, 31, 28⟩
/-- TIC_CALSTAT[27:27], RS. -/
def Fld.TIC_CALSTAT.DRIFT : Fld := ⟨.TIC_CALSTAT, 27, 27⟩
/-- TIC_CALSTAT[26:16], RS. -/
def Fld.TIC_CALSTAT.ACTIVE : Fld := ⟨.TIC_CALSTAT, 26, 16⟩
/-- TIC_CALSTAT[15:0], RS. -/
def Fld.TIC_CALSTAT.MAXW : Fld := ⟨.TIC_CALSTAT, 15, 0⟩
/-- TIC_BIN[31:16], RS. -/
def Fld.TIC_BIN.ODD : Fld := ⟨.TIC_BIN, 31, 16⟩
/-- TIC_BIN[15:0], RS. -/
def Fld.TIC_BIN.EVEN : Fld := ⟨.TIC_BIN, 15, 0⟩
/-- ENS_STAT[31:31], RS. -/
def Fld.ENS_STAT.BANKED : Fld := ⟨.ENS_STAT, 31, 31⟩
/-- ENS_STAT[30:30], RS. -/
def Fld.ENS_STAT.FREQ_HOLD : Fld := ⟨.ENS_STAT, 30, 30⟩
/-- ENS_STAT[29:29], RS. -/
def Fld.ENS_STAT.MODEL_VALID : Fld := ⟨.ENS_STAT, 29, 29⟩
/-- ENS_STAT[28:28], RS. -/
def Fld.ENS_STAT.KEEPER_DIS : Fld := ⟨.ENS_STAT, 28, 28⟩
/-- ENS_STAT[20:16], RS. -/
def Fld.ENS_STAT.NQUAL : Fld := ⟨.ENS_STAT, 20, 16⟩
/-- ENS_WSTAT[6:6], W1C. -/
def Fld.ENS_WSTAT.MEAS_LATE : Fld := ⟨.ENS_WSTAT, 6, 6⟩
/-- ENS_WSTAT[5:5], W1C. -/
def Fld.ENS_WSTAT.NET_LATE : Fld := ⟨.ENS_WSTAT, 5, 5⟩
/-- ENS_WSTAT[4:4], W1C. -/
def Fld.ENS_WSTAT.NET_REFUSED : Fld := ⟨.ENS_WSTAT, 4, 4⟩
/-- ENS_WSTAT[3:3], W1C. -/
def Fld.ENS_WSTAT.CMD_REFUSED : Fld := ⟨.ENS_WSTAT, 3, 3⟩
/-- ENS_WSTAT[2:2], W1C. -/
def Fld.ENS_WSTAT.W_LOST : Fld := ⟨.ENS_WSTAT, 2, 2⟩
/-- ENS_WSTAT[1:1], W1C. -/
def Fld.ENS_WSTAT.RANGE : Fld := ⟨.ENS_WSTAT, 1, 1⟩
/-- ENS_WSTAT[0:0], W1C. -/
def Fld.ENS_WSTAT.ACCEPT : Fld := ⟨.ENS_WSTAT, 0, 0⟩
/-- ENS_QUAL[31:16], RWG. -/
def Fld.ENS_QUAL.WINDOW : Fld := ⟨.ENS_QUAL, 31, 16⟩
/-- ENS_QUAL[7:0], RWG. -/
def Fld.ENS_QUAL.MISS : Fld := ⟨.ENS_QUAL, 7, 0⟩
/-- ENS_LOSS[31:16], RWG. -/
def Fld.ENS_LOSS.LOS : Fld := ⟨.ENS_LOSS, 31, 16⟩
/-- ENS_LOSS[15:0], RWG. -/
def Fld.ENS_LOSS.SUSP_HOLD : Fld := ⟨.ENS_LOSS, 15, 0⟩
/-- ENS_TRI[31:16], RWG. -/
def Fld.ENS_TRI.WIN : Fld := ⟨.ENS_TRI, 31, 16⟩
/-- ENS_TRI[15:8], RWG. -/
def Fld.ENS_TRI.COUNT : Fld := ⟨.ENS_TRI, 15, 8⟩
/-- ENS_TRI[7:0], RWG. -/
def Fld.ENS_TRI.MAJ_MIN : Fld := ⟨.ENS_TRI, 7, 0⟩
/-- ENS_HOLD_CTL[31:31], RWG. -/
def Fld.ENS_HOLD_CTL.TSRC : Fld := ⟨.ENS_HOLD_CTL, 31, 31⟩
/-- ENS_HOLD_CTL[26:16], RWG. -/
def Fld.ENS_HOLD_CTL.TAU : Fld := ⟨.ENS_HOLD_CTL, 26, 16⟩
/-- ENS_HOLD_CTL[15:0], RWG. -/
def Fld.ENS_HOLD_CTL.FLICKER : Fld := ⟨.ENS_HOLD_CTL, 15, 0⟩
/-- ENS_TSNS_CFG[31:31], RWG. -/
def Fld.ENS_TSNS_CFG.EN : Fld := ⟨.ENS_TSNS_CFG, 31, 31⟩
/-- ENS_TSNS_CFG[30:24], RWG. -/
def Fld.ENS_TSNS_CFG.ADDR : Fld := ⟨.ENS_TSNS_CFG, 30, 24⟩
/-- ENS_TSNS_CFG[23:16], RWG. -/
def Fld.ENS_TSNS_CFG.REG : Fld := ⟨.ENS_TSNS_CFG, 23, 16⟩
/-- ENS_TSNS_CFG[15:12], RWG. -/
def Fld.ENS_TSNS_CFG.SCALE : Fld := ⟨.ENS_TSNS_CFG, 15, 12⟩
/-- ENS_TSNS_CFG[7:0], RWG. -/
def Fld.ENS_TSNS_CFG.DTMAX : Fld := ⟨.ENS_TSNS_CFG, 7, 0⟩
/-- ENS_TSNS_T[31:31], RS. -/
def Fld.ENS_TSNS_T.VALID : Fld := ⟨.ENS_TSNS_T, 31, 31⟩
/-- ENS_TSNS_T[30:24], RS. -/
def Fld.ENS_TSNS_T.FAILS : Fld := ⟨.ENS_TSNS_T, 30, 24⟩
/-- ENS_TSNS_T[15:0], RS. -/
def Fld.ENS_TSNS_T.T : Fld := ⟨.ENS_TSNS_T, 15, 0⟩
/-- ENS_OSC_CFG[31:31], RWG. -/
def Fld.ENS_OSC_CFG.SRC : Fld := ⟨.ENS_OSC_CFG, 31, 31⟩
/-- ENS_OSC_CFG[30:29], RWG. -/
def Fld.ENS_OSC_CFG.MODE : Fld := ⟨.ENS_OSC_CFG, 30, 29⟩
/-- ENS_OSC_CFG[28:28], RWG. -/
def Fld.ENS_OSC_CFG.LSB_FIRST : Fld := ⟨.ENS_OSC_CFG, 28, 28⟩
/-- ENS_OSC_CFG[23:16], RWG. -/
def Fld.ENS_OSC_CFG.DIV : Fld := ⟨.ENS_OSC_CFG, 23, 16⟩
/-- ENS_POL0[31:16], RW. -/
def Fld.ENS_POL0.TAU_W : Fld := ⟨.ENS_POL0, 31, 16⟩
/-- ENS_POL0[15:0], RW. -/
def Fld.ENS_POL0.WMAX : Fld := ⟨.ENS_POL0, 15, 0⟩
/-- ENS_POL1[31:16], RW. -/
def Fld.ENS_POL1.SLEW : Fld := ⟨.ENS_POL1, 31, 16⟩
/-- ENS_POL1[15:0], RW. -/
def Fld.ENS_POL1.DEAD : Fld := ⟨.ENS_POL1, 15, 0⟩
/-- ENS_REF_CFG[31:31], RWG. -/
def Fld.ENS_REF_CFG.EN : Fld := ⟨.ENS_REF_CFG, 31, 31⟩
/-- ENS_REF_CFG[30:30], RWG. -/
def Fld.ENS_REF_CFG.KIND : Fld := ⟨.ENS_REF_CFG, 30, 30⟩
/-- ENS_REF_CFG[29:21], RWG. -/
def Fld.ENS_REF_CFG.THREAD : Fld := ⟨.ENS_REF_CFG, 29, 21⟩
/-- ENS_REF_CFG[18:11], RWG. -/
def Fld.ENS_REF_CFG.GROUP : Fld := ⟨.ENS_REF_CFG, 18, 11⟩
/-- ENS_REF_CFG[10:0], RWG. -/
def Fld.ENS_REF_CFG.PERIOD : Fld := ⟨.ENS_REF_CFG, 10, 0⟩
/-- ENS_REF_STATE[31:28], RS. -/
def Fld.ENS_REF_STATE.STATE : Fld := ⟨.ENS_REF_STATE, 31, 28⟩
/-- ENS_REF_STATE[27:24], RS. -/
def Fld.ENS_REF_STATE.CAUSE : Fld := ⟨.ENS_REF_STATE, 27, 24⟩
/-- ENS_REF_STATE[15:0], RS. -/
def Fld.ENS_REF_STATE.RESTARTS : Fld := ⟨.ENS_REF_STATE, 15, 0⟩
/-- ENS_REF_WEIGHT[15:0], RW. -/
def Fld.ENS_REF_WEIGHT.WEIGHT : Fld := ⟨.ENS_REF_WEIGHT, 15, 0⟩
/-- ENS_REF_CMD[0:0], RWG. -/
def Fld.ENS_REF_CMD.ACCEPT : Fld := ⟨.ENS_REF_CMD, 0, 0⟩
/-- ENS_NET_GO[0:0], WO. -/
def Fld.ENS_NET_GO.GO : Fld := ⟨.ENS_NET_GO, 0, 0⟩
/-- TRV_STAT[31:24], RS. -/
def Fld.TRV_STAT.CC : Fld := ⟨.TRV_STAT, 31, 24⟩
/-- TRV_STAT[23:16], RS. -/
def Fld.TRV_STAT.ACC : Fld := ⟨.TRV_STAT, 23, 16⟩
/-- TRV_STAT[8:8], RS. -/
def Fld.TRV_STAT.PRE_SOURCE : Fld := ⟨.TRV_STAT, 8, 8⟩
/-- TRV_STAT[7:7], RS. -/
def Fld.TRV_STAT.DERATED : Fld := ⟨.TRV_STAT, 7, 7⟩
/-- TRV_STAT[6:6], RS. -/
def Fld.TRV_STAT.COAST0 : Fld := ⟨.TRV_STAT, 6, 6⟩
/-- TRV_STAT[5:5], RS. -/
def Fld.TRV_STAT.NOWRITER : Fld := ⟨.TRV_STAT, 5, 5⟩
/-- TRV_STAT[4:4], RS. -/
def Fld.TRV_STAT.ACCEPT : Fld := ⟨.TRV_STAT, 4, 4⟩
/-- TRV_STAT[3:3], RS. -/
def Fld.TRV_STAT.STEP_BASIS : Fld := ⟨.TRV_STAT, 3, 3⟩
/-- TRV_STAT[2:1], RS. -/
def Fld.TRV_STAT.COND : Fld := ⟨.TRV_STAT, 2, 1⟩
/-- TRV_STAT[0:0], RS. -/
def Fld.TRV_STAT.TRACEABLE : Fld := ⟨.TRV_STAT, 0, 0⟩
/-- TRV_WSTAT[1:1], W1C. -/
def Fld.TRV_WSTAT.RANGE : Fld := ⟨.TRV_WSTAT, 1, 1⟩
/-- TRV_WSTAT[0:0], W1C. -/
def Fld.TRV_WSTAT.ACCEPT : Fld := ⟨.TRV_WSTAT, 0, 0⟩
/-- TRV_CC_CTL[9:0], RWG. -/
def Fld.TRV_CC_CTL.HOLD : Fld := ⟨.TRV_CC_CTL, 9, 0⟩
/-- TRV_BMK_CTL[11:0], RWG. -/
def Fld.TRV_BMK_CTL.PERIOD : Fld := ⟨.TRV_BMK_CTL, 11, 0⟩
/-- SYN_STAT[31:16], RS. -/
def Fld.SYN_STAT.COAST : Fld := ⟨.SYN_STAT, 31, 16⟩
/-- SYN_STAT[15:0], RS. -/
def Fld.SYN_STAT.LOCKED : Fld := ⟨.SYN_STAT, 15, 0⟩
/-- SYN_WSTAT[5:5], W1C. -/
def Fld.SYN_WSTAT.SYNC_SKIP : Fld := ⟨.SYN_WSTAT, 5, 5⟩
/-- SYN_WSTAT[4:4], W1C. -/
def Fld.SYN_WSTAT.COMP_REFUSED : Fld := ⟨.SYN_WSTAT, 4, 4⟩
/-- SYN_WSTAT[3:3], W1C. -/
def Fld.SYN_WSTAT.HOP_FAIL : Fld := ⟨.SYN_WSTAT, 3, 3⟩
/-- SYN_WSTAT[2:2], W1C. -/
def Fld.SYN_WSTAT.ALIGN_DEFER : Fld := ⟨.SYN_WSTAT, 2, 2⟩
/-- SYN_WSTAT[1:1], W1C. -/
def Fld.SYN_WSTAT.RANGE : Fld := ⟨.SYN_WSTAT, 1, 1⟩
/-- SYN_WSTAT[0:0], W1C. -/
def Fld.SYN_WSTAT.ACCEPT : Fld := ⟨.SYN_WSTAT, 0, 0⟩
/-- SYN_LOCKA_CTL[15:0], RWG. -/
def Fld.SYN_LOCKA_CTL.SEL : Fld := ⟨.SYN_LOCKA_CTL, 15, 0⟩
/-- SYN0_SRC[31:28], RWG. -/
def Fld.SYN0_SRC.SEL : Fld := ⟨.SYN0_SRC, 31, 28⟩
/-- SYN0_SRC[25:16], RWG. -/
def Fld.SYN0_SRC.RDIV : Fld := ⟨.SYN0_SRC, 25, 16⟩
/-- SYN0_SRC[15:8], RWG. -/
def Fld.SYN0_SRC.QUAL : Fld := ⟨.SYN0_SRC, 15, 8⟩
/-- SYN0_SRC[7:0], RWG. -/
def Fld.SYN0_SRC.YTOL : Fld := ⟨.SYN0_SRC, 7, 0⟩
/-- SYN_SYNC_CTL[31:31], RW. -/
def Fld.SYN_SYNC_CTL.EN : Fld := ⟨.SYN_SYNC_CTL, 31, 31⟩
/-- SYN_SYNC_CTL[30:30], RW. -/
def Fld.SYN_SYNC_CTL.EDGE : Fld := ⟨.SYN_SYNC_CTL, 30, 30⟩
/-- SYN_SYNC_CTL[23:0], RW. -/
def Fld.SYN_SYNC_CTL.MASK : Fld := ⟨.SYN_SYNC_CTL, 23, 0⟩
/-- SYN_SYNC_STAT[31:16], RS. -/
def Fld.SYN_SYNC_STAT.EDGES : Fld := ⟨.SYN_SYNC_STAT, 31, 16⟩
/-- SYN_SYNC_STAT[15:8], RS. -/
def Fld.SYN_SYNC_STAT.IGNORED : Fld := ⟨.SYN_SYNC_STAT, 15, 8⟩
/-- SYN_SYNC_STAT[0:0], RS. -/
def Fld.SYN_SYNC_STAT.PEND : Fld := ⟨.SYN_SYNC_STAT, 0, 0⟩
/-- SYN_CFG[31:25], RW. -/
def Fld.SYN_CFG.BW_ACQ : Fld := ⟨.SYN_CFG, 31, 25⟩
/-- SYN_CFG[24:18], RW. -/
def Fld.SYN_CFG.BW_TRK : Fld := ⟨.SYN_CFG, 24, 18⟩
/-- SYN_FCW_INT[15:0], RW; RO for fixed loops. -/
def Fld.SYN_FCW_INT.INT : Fld := ⟨.SYN_FCW_INT, 15, 0⟩
/-- SYN_LOCK[31:28], RW. -/
def Fld.SYN_LOCK.CNT_LOG2 : Fld := ⟨.SYN_LOCK, 31, 28⟩
/-- SYN_LOCK[27:16], RW. -/
def Fld.SYN_LOCK.UNLOCK_THR : Fld := ⟨.SYN_LOCK, 27, 16⟩
/-- SYN_LOCK[11:0], RW. -/
def Fld.SYN_LOCK.THR : Fld := ⟨.SYN_LOCK, 11, 0⟩
/-- SYN_LSTAT[31:28], RS. -/
def Fld.SYN_LSTAT.STATE : Fld := ⟨.SYN_LSTAT, 31, 28⟩
/-- SYN_LSTAT[27:27], RS. -/
def Fld.SYN_LSTAT.REJECT : Fld := ⟨.SYN_LSTAT, 27, 27⟩
/-- SYN_LSTAT[26:26], RS. -/
def Fld.SYN_LSTAT.SLEWLIM : Fld := ⟨.SYN_LSTAT, 26, 26⟩
/-- SYN_LSTAT[25:25], RS. -/
def Fld.SYN_LSTAT.HOP_MISS : Fld := ⟨.SYN_LSTAT, 25, 25⟩
/-- SYN_LSTAT[23:18], RS. -/
def Fld.SYN_LSTAT.BAND : Fld := ⟨.SYN_LSTAT, 23, 18⟩
/-- SYN_LSTAT[17:8], RS. -/
def Fld.SYN_LSTAT.FINE : Fld := ⟨.SYN_LSTAT, 17, 8⟩
/-- SYN_LSTAT[7:4], RS. -/
def Fld.SYN_LSTAT.CAUSE : Fld := ⟨.SYN_LSTAT, 7, 4⟩
/-- SYN_PHERR[31:16], RS. -/
def Fld.SYN_PHERR.RMS : Fld := ⟨.SYN_PHERR, 31, 16⟩
/-- SYN_PHERR[15:0], RS. -/
def Fld.SYN_PHERR.PEAK : Fld := ⟨.SYN_PHERR, 15, 0⟩
/-- SYN_CMD[1:1], WO. -/
def Fld.SYN_CMD.SEARCH : Fld := ⟨.SYN_CMD, 1, 1⟩
/-- SYN_CMD[0:0], WO. -/
def Fld.SYN_CMD.ACCEPT : Fld := ⟨.SYN_CMD, 0, 0⟩
/-- SYN_OUT_CFG[31:31], RW. -/
def Fld.SYN_OUT_CFG.EN : Fld := ⟨.SYN_OUT_CFG, 31, 31⟩
/-- SYN_OUT_CFG[30:30], RW. -/
def Fld.SYN_OUT_CFG.POL : Fld := ⟨.SYN_OUT_CFG, 30, 30⟩
/-- SYN_OUT_CFG[29:28], RW. -/
def Fld.SYN_OUT_CFG.FORMAT : Fld := ⟨.SYN_OUT_CFG, 29, 28⟩
/-- SYN_OUT_DIV_HI[0:0], RW. -/
def Fld.SYN_OUT_DIV_HI.DIV32 : Fld := ⟨.SYN_OUT_DIV_HI, 0, 0⟩
/-- SYN_OUT_STAT[31:31], RS. -/
def Fld.SYN_OUT_STAT.RUNNING : Fld := ⟨.SYN_OUT_STAT, 31, 31⟩
/-- SYN_OUT_STAT[30:30], RS. -/
def Fld.SYN_OUT_STAT.HELD : Fld := ⟨.SYN_OUT_STAT, 30, 30⟩
/-- SYN_OUT_STAT[29:29], RS. -/
def Fld.SYN_OUT_STAT.ALIGN_PEND : Fld := ⟨.SYN_OUT_STAT, 29, 29⟩
/-- SYN_PPS_CFG[31:31], RW. -/
def Fld.SYN_PPS_CFG.EN : Fld := ⟨.SYN_PPS_CFG, 31, 31⟩
/-- SYN_PPS_CFG[30:30], RW. -/
def Fld.SYN_PPS_CFG.POL : Fld := ⟨.SYN_PPS_CFG, 30, 30⟩
/-- SYN_PPS_CFG[29:29], RW. -/
def Fld.SYN_PPS_CFG.FORMAT : Fld := ⟨.SYN_PPS_CFG, 29, 29⟩
/-- SYN_PPS_CFG[28:26], RW. -/
def Fld.SYN_PPS_CFG.IRIG_X : Fld := ⟨.SYN_PPS_CFG, 28, 26⟩
/-- SYN_PPS_CFG[25:25], RW. -/
def Fld.SYN_PPS_CFG.TSCALE : Fld := ⟨.SYN_PPS_CFG, 25, 25⟩
/-- SYN_PPS_CFG[24:24], RW. -/
def Fld.SYN_PPS_CFG.CFSRC : Fld := ⟨.SYN_PPS_CFG, 24, 24⟩
/-- SYN_PPS_CFG[19:0], RW. -/
def Fld.SYN_PPS_CFG.WIDTH : Fld := ⟨.SYN_PPS_CFG, 19, 0⟩
/-- SYN_PPS_CF[26:0], RW. -/
def Fld.SYN_PPS_CF.CF : Fld := ⟨.SYN_PPS_CF, 26, 0⟩
/-- SYN_PPS_STAT[31:31], RS. -/
def Fld.SYN_PPS_STAT.RUNNING : Fld := ⟨.SYN_PPS_STAT, 31, 31⟩
/-- SYN_PPS_STAT[30:30], RS. -/
def Fld.SYN_PPS_STAT.MUTED : Fld := ⟨.SYN_PPS_STAT, 30, 30⟩
/-- SYN_PPS_STAT[29:29], RS. -/
def Fld.SYN_PPS_STAT.NOUTC : Fld := ⟨.SYN_PPS_STAT, 29, 29⟩
/-- SYN_TOD_CFG[31:31], RW. -/
def Fld.SYN_TOD_CFG.EN : Fld := ⟨.SYN_TOD_CFG, 31, 31⟩
/-- SYN_TOD_CFG[30:28], RW. -/
def Fld.SYN_TOD_CFG.BAUD : Fld := ⟨.SYN_TOD_CFG, 30, 28⟩
/-- SYN_TOD_CFG[27:16], RW. -/
def Fld.SYN_TOD_CFG.LEAD : Fld := ⟨.SYN_TOD_CFG, 27, 16⟩
/-- GNS_STAT[31:31], RS. -/
def Fld.GNS_STAT.ACQ_BUSY : Fld := ⟨.GNS_STAT, 31, 31⟩
/-- GNS_STAT[30:30], RS. -/
def Fld.GNS_STAT.SNAP_BUSY : Fld := ⟨.GNS_STAT, 30, 30⟩
/-- GNS_STAT[29:29], RS. -/
def Fld.GNS_STAT.AUD_ALARM : Fld := ⟨.GNS_STAT, 29, 29⟩
/-- GNS_STAT[28:28], RS. -/
def Fld.GNS_STAT.JAM : Fld := ⟨.GNS_STAT, 28, 28⟩
/-- GNS_STAT[23:16], RS. -/
def Fld.GNS_STAT.CH_USED : Fld := ⟨.GNS_STAT, 23, 16⟩
/-- GNS_WSTAT[3:3], W1C. -/
def Fld.GNS_WSTAT.SNAP_BUSY : Fld := ⟨.GNS_WSTAT, 3, 3⟩
/-- GNS_WSTAT[2:2], W1C. -/
def Fld.GNS_WSTAT.ACQ_ABORTED : Fld := ⟨.GNS_WSTAT, 2, 2⟩
/-- GNS_WSTAT[1:1], W1C. -/
def Fld.GNS_WSTAT.RANGE : Fld := ⟨.GNS_WSTAT, 1, 1⟩
/-- GNS_WSTAT[0:0], W1C. -/
def Fld.GNS_WSTAT.ACCEPT : Fld := ⟨.GNS_WSTAT, 0, 0⟩
/-- GNS_TRK[31:26], RWG. -/
def Fld.GNS_TRK.DEL : Fld := ⟨.GNS_TRK, 31, 26⟩
/-- GNS_TRK[25:20], RWG. -/
def Fld.GNS_TRK.NARROW : Fld := ⟨.GNS_TRK, 25, 20⟩
/-- GNS_TRK[19:18], RWG. -/
def Fld.GNS_TRK.DISC : Fld := ⟨.GNS_TRK, 19, 18⟩
/-- GNS_TRK[17:12], RWG. -/
def Fld.GNS_TRK.CN0_MIN : Fld := ⟨.GNS_TRK, 17, 12⟩
/-- GNS_TRK[11:6], RWG. -/
def Fld.GNS_TRK.MASK : Fld := ⟨.GNS_TRK, 11, 6⟩
/-- GNS_TRK[5:0], RWG. -/
def Fld.GNS_TRK.DLL_BW : Fld := ⟨.GNS_TRK, 5, 0⟩
/-- GNS_RAIM[31:24], RWG. -/
def Fld.GNS_RAIM.ZTHR : Fld := ⟨.GNS_RAIM, 31, 24⟩
/-- GNS_RAIM[23:20], RWG. -/
def Fld.GNS_RAIM.MAXEX : Fld := ⟨.GNS_RAIM, 23, 20⟩
/-- GNS_RAIM[15:0], RWG. -/
def Fld.GNS_RAIM.HOLD : Fld := ⟨.GNS_RAIM, 15, 0⟩
/-- GNS_ACQ_CTL[31:31], WO. -/
def Fld.GNS_ACQ_CTL.ABORT : Fld := ⟨.GNS_ACQ_CTL, 31, 31⟩
/-- GNS_ACQ_CTL[30:30], RWG. -/
def Fld.GNS_ACQ_CTL.HOLD : Fld := ⟨.GNS_ACQ_CTL, 30, 30⟩
/-- GNS_ACQ_CTL[7:0], RWG. -/
def Fld.GNS_ACQ_CTL.NONCOH : Fld := ⟨.GNS_ACQ_CTL, 7, 0⟩
/-- GNS_AUD_CTL[31:31], RWG. -/
def Fld.GNS_AUD_CTL.EN : Fld := ⟨.GNS_AUD_CTL, 31, 31⟩
/-- GNS_AUD_CTL[30:29], RWG. -/
def Fld.GNS_AUD_CTL.MAIN : Fld := ⟨.GNS_AUD_CTL, 30, 29⟩
/-- GNS_AUD_CTL[28:27], RWG. -/
def Fld.GNS_AUD_CTL.AUDIT : Fld := ⟨.GNS_AUD_CTL, 28, 27⟩
/-- GNS_AUD_CTL[26:20], RWG. -/
def Fld.GNS_AUD_CTL.LEN : Fld := ⟨.GNS_AUD_CTL, 26, 20⟩
/-- GNS_AUD_CTL[19:16], RWG. -/
def Fld.GNS_AUD_CTL.NMIN : Fld := ⟨.GNS_AUD_CTL, 19, 16⟩
/-- GNS_AUD_CTL[15:0], RWG. -/
def Fld.GNS_AUD_CTL.PERIOD : Fld := ⟨.GNS_AUD_CTL, 15, 0⟩
/-- GNS_AUD_STAT[31:28], RS. -/
def Fld.GNS_AUD_STAT.RESULT : Fld := ⟨.GNS_AUD_STAT, 31, 28⟩
/-- GNS_AUD_STAT[27:20], RS. -/
def Fld.GNS_AUD_STAT.NSAT : Fld := ⟨.GNS_AUD_STAT, 27, 20⟩
/-- GNS_AUD_STAT[19:0], RS. -/
def Fld.GNS_AUD_STAT.RMS : Fld := ⟨.GNS_AUD_STAT, 19, 0⟩
/-- GNS_AUD_THR[15:0], RWG. -/
def Fld.GNS_AUD_THR.THR : Fld := ⟨.GNS_AUD_THR, 15, 0⟩
/-- GNS_SNAP_CTL[31:31], WO. -/
def Fld.GNS_SNAP_CTL.GO : Fld := ⟨.GNS_SNAP_CTL, 31, 31⟩
/-- GNS_SNAP_CTL[30:27], RW. -/
def Fld.GNS_SNAP_CTL.PORTS : Fld := ⟨.GNS_SNAP_CTL, 30, 27⟩
/-- GNS_SNAP_CTL[6:0], RW. -/
def Fld.GNS_SNAP_CTL.LEN : Fld := ⟨.GNS_SNAP_CTL, 6, 0⟩
/-- GNS_SNAP_STAT[31:28], RS. -/
def Fld.GNS_SNAP_STAT.RESULT : Fld := ⟨.GNS_SNAP_STAT, 31, 28⟩
/-- GNS_SNAP_STAT[27:27], RS. -/
def Fld.GNS_SNAP_STAT.PEND : Fld := ⟨.GNS_SNAP_STAT, 27, 27⟩
/-- GNS_SNAP_STAT[15:0], RS. -/
def Fld.GNS_SNAP_STAT.SEQ : Fld := ⟨.GNS_SNAP_STAT, 15, 0⟩
/-- GNS_CTL_CFG[31:30], RWG. -/
def Fld.GNS_CTL_CFG.MODE : Fld := ⟨.GNS_CTL_CFG, 31, 30⟩
/-- GNS_CTL_CFG[29:29], RWG. -/
def Fld.GNS_CTL_CFG.LSB_FIRST : Fld := ⟨.GNS_CTL_CFG, 29, 29⟩
/-- GNS_CTL_CFG[23:16], RWG. -/
def Fld.GNS_CTL_CFG.DIV : Fld := ⟨.GNS_CTL_CFG, 23, 16⟩
/-- GNS_CTL_CMD[31:31], RWG. -/
def Fld.GNS_CTL_CMD.GO : Fld := ⟨.GNS_CTL_CMD, 31, 31⟩
/-- GNS_CTL_CMD[9:8], RWG. -/
def Fld.GNS_CTL_CMD.CS : Fld := ⟨.GNS_CTL_CMD, 9, 8⟩
/-- GNS_CTL_CMD[5:0], RWG. -/
def Fld.GNS_CTL_CMD.COUNT : Fld := ⟨.GNS_CTL_CMD, 5, 0⟩
/-- GNS_CTL_STAT[31:31], RS. -/
def Fld.GNS_CTL_STAT.BUSY : Fld := ⟨.GNS_CTL_STAT, 31, 31⟩
/-- GNS_CTL_STAT[7:0], RS. -/
def Fld.GNS_CTL_STAT.DONE : Fld := ⟨.GNS_CTL_STAT, 7, 0⟩
/-- GNS_SP_CFG[31:31], RWG. -/
def Fld.GNS_SP_CFG.EN : Fld := ⟨.GNS_SP_CFG, 31, 31⟩
/-- GNS_SP_CFG[30:29], RWG. -/
def Fld.GNS_SP_CFG.ANT : Fld := ⟨.GNS_SP_CFG, 30, 29⟩
/-- GNS_SP_CFG[28:28], RWG. -/
def Fld.GNS_SP_CFG.BAND : Fld := ⟨.GNS_SP_CFG, 28, 28⟩
/-- GNS_SP_CFG[27:20], RWG. -/
def Fld.GNS_SP_CFG.JAMTHR : Fld := ⟨.GNS_SP_CFG, 27, 20⟩
/-- GNS_SP_STAT[31:31], RS. -/
def Fld.GNS_SP_STAT.RUNNING : Fld := ⟨.GNS_SP_STAT, 31, 31⟩
/-- GNS_SP_STAT[30:30], RS. -/
def Fld.GNS_SP_STAT.BADCLK : Fld := ⟨.GNS_SP_STAT, 30, 30⟩
/-- GNS_SP_STAT[29:29], RS. -/
def Fld.GNS_SP_STAT.JAM : Fld := ⟨.GNS_SP_STAT, 29, 29⟩
/-- GNS_SP_STAT[15:0], RS. -/
def Fld.GNS_SP_STAT.PWR : Fld := ⟨.GNS_SP_STAT, 15, 0⟩
/-- GNS_ANT_CFG[31:30], RWG. -/
def Fld.GNS_ANT_CFG.ROLE : Fld := ⟨.GNS_ANT_CFG, 31, 30⟩
/-- GNS_ANT_CFG[29:29], RWG. -/
def Fld.GNS_ANT_CFG.MODE : Fld := ⟨.GNS_ANT_CFG, 29, 29⟩
/-- GNS_ANT_CFG[28:27], RWG. -/
def Fld.GNS_ANT_CFG.TSYS : Fld := ⟨.GNS_ANT_CFG, 28, 27⟩
/-- GNS_ANT_CFG[26:26], RWG. -/
def Fld.GNS_ANT_CFG.FLT_POL : Fld := ⟨.GNS_ANT_CFG, 26, 26⟩
/-- GNS_ANT_CFG[25:17], RWG. -/
def Fld.GNS_ANT_CFG.CHMAX : Fld := ⟨.GNS_ANT_CFG, 25, 17⟩
/-- GNS_ANT_CFG[8:0], RWG. -/
def Fld.GNS_ANT_CFG.SIG : Fld := ⟨.GNS_ANT_CFG, 8, 0⟩
/-- GNS_ANT_STAT[31:28], RS. -/
def Fld.GNS_ANT_STAT.SOL : Fld := ⟨.GNS_ANT_STAT, 31, 28⟩
/-- GNS_ANT_STAT[27:27], RS. -/
def Fld.GNS_ANT_STAT.ANT_FLT : Fld := ⟨.GNS_ANT_STAT, 27, 27⟩
/-- GNS_ANT_STAT[26:26], RS. -/
def Fld.GNS_ANT_STAT.SURVEY_DONE : Fld := ⟨.GNS_ANT_STAT, 26, 26⟩
/-- GNS_ANT_STAT[23:16], RS. -/
def Fld.GNS_ANT_STAT.NUSED : Fld := ⟨.GNS_ANT_STAT, 23, 16⟩
/-- GNS_ANT_STAT[15:8], RS. -/
def Fld.GNS_ANT_STAT.NEXCL : Fld := ⟨.GNS_ANT_STAT, 15, 8⟩
/-- GNS_ANT_STAT[7:0], RS. -/
def Fld.GNS_ANT_STAT.NTRK : Fld := ⟨.GNS_ANT_STAT, 7, 0⟩
/-- GNS_ANT_SURV[31:16], RWG. -/
def Fld.GNS_ANT_SURV.DURATION : Fld := ⟨.GNS_ANT_SURV, 31, 16⟩
/-- GNS_ANT_SURV[15:0], RWG. -/
def Fld.GNS_ANT_SURV.TARGET : Fld := ⟨.GNS_ANT_SURV, 15, 0⟩
/-- GNS_CH_STAT[31:28], RS. -/
def Fld.GNS_CH_STAT.STATE : Fld := ⟨.GNS_CH_STAT, 31, 28⟩
/-- GNS_CH_STAT[27:26], RS. -/
def Fld.GNS_CH_STAT.ANT : Fld := ⟨.GNS_CH_STAT, 27, 26⟩
/-- GNS_CH_STAT[25:22], RS. -/
def Fld.GNS_CH_STAT.SIG : Fld := ⟨.GNS_CH_STAT, 25, 22⟩
/-- GNS_CH_STAT[21:16], RS. -/
def Fld.GNS_CH_STAT.SV : Fld := ⟨.GNS_CH_STAT, 21, 16⟩
/-- GNS_CH_STAT[15:8], RS. -/
def Fld.GNS_CH_STAT.CN0 : Fld := ⟨.GNS_CH_STAT, 15, 8⟩
/-- GNS_CH_STAT[7:0], RS. -/
def Fld.GNS_CH_STAT.ELEV : Fld := ⟨.GNS_CH_STAT, 7, 0⟩
/-- PRT_CFG[31:31], RW. -/
def Fld.PRT_CFG.EN : Fld := ⟨.PRT_CFG, 31, 31⟩
/-- PRT_CFG[30:28], RW. -/
def Fld.PRT_CFG.MODE : Fld := ⟨.PRT_CFG, 30, 28⟩
/-- PRT_CFG[27:27], RW. -/
def Fld.PRT_CFG.FEC : Fld := ⟨.PRT_CFG, 27, 27⟩
/-- PRT_CFG[26:26], RW. -/
def Fld.PRT_CFG.AN : Fld := ⟨.PRT_CFG, 26, 26⟩
/-- PRT_CFG[25:25], RW. -/
def Fld.PRT_CFG.RX_PAUSE : Fld := ⟨.PRT_CFG, 25, 25⟩
/-- PRT_CFG[24:24], RW. -/
def Fld.PRT_CFG.RX_PFC : Fld := ⟨.PRT_CFG, 24, 24⟩
/-- PRT_STAT[31:31], RO. -/
def Fld.PRT_STAT.LINK : Fld := ⟨.PRT_STAT, 31, 31⟩
/-- PRT_STAT[30:29], RO. -/
def Fld.PRT_STAT.CAL : Fld := ⟨.PRT_STAT, 30, 29⟩
/-- PRT_STAT[28:28], RO. -/
def Fld.PRT_STAT.GANGED : Fld := ⟨.PRT_STAT, 28, 28⟩
/-- PRT_STAT[27:27], RO. -/
def Fld.PRT_STAT.TEMP : Fld := ⟨.PRT_STAT, 27, 27⟩
/-- PRT_STAT[15:8], RO. -/
def Fld.PRT_STAT.PAUSED : Fld := ⟨.PRT_STAT, 15, 8⟩
/-- PRT_WSTAT[0:0], W1C. -/
def Fld.PRT_WSTAT.RANGE : Fld := ⟨.PRT_WSTAT, 0, 0⟩
/-- PRT_MAXFRAME[13:0], RW. -/
def Fld.PRT_MAXFRAME.MAX : Fld := ⟨.PRT_MAXFRAME, 13, 0⟩
/-- PRT_LAUNCH_GUARD[31:16], RO. -/
def Fld.PRT_LAUNCH_GUARD.AUTO : Fld := ⟨.PRT_LAUNCH_GUARD, 31, 16⟩
/-- PRT_LAUNCH_GUARD[15:0], RW. -/
def Fld.PRT_LAUNCH_GUARD.GUARD : Fld := ⟨.PRT_LAUNCH_GUARD, 15, 0⟩
/-- PRT_CAL_CTL[31:31], RWG. -/
def Fld.PRT_CAL_CTL.GO : Fld := ⟨.PRT_CAL_CTL, 31, 31⟩
/-- PRT_CAL_CTL[23:16], RO. -/
def Fld.PRT_CAL_CTL.TCAL : Fld := ⟨.PRT_CAL_CTL, 23, 16⟩
/-- PRT_CAL_CTL[7:0], RWG. -/
def Fld.PRT_CAL_CTL.DT : Fld := ⟨.PRT_CAL_CTL, 7, 0⟩
/-- SVC_STAT[31:30], RO. -/
def Fld.SVC_STAT.STATE : Fld := ⟨.SVC_STAT, 31, 30⟩
/-- SVC_STAT[29:26], RO. -/
def Fld.SVC_STAT.CAUSE : Fld := ⟨.SVC_STAT, 29, 26⟩
/-- SVC_STAT[20:20], RO. -/
def Fld.SVC_STAT.C_LADDER : Fld := ⟨.SVC_STAT, 20, 20⟩
/-- SVC_STAT[19:19], RO. -/
def Fld.SVC_STAT.C_LIFE : Fld := ⟨.SVC_STAT, 19, 19⟩
/-- SVC_STAT[18:18], RO. -/
def Fld.SVC_STAT.C_RUN : Fld := ⟨.SVC_STAT, 18, 18⟩
/-- SVC_STAT[17:17], RO. -/
def Fld.SVC_STAT.C_SOURCE : Fld := ⟨.SVC_STAT, 17, 17⟩
/-- SVC_STAT[16:16], RO. -/
def Fld.SVC_STAT.C_BOUND : Fld := ⟨.SVC_STAT, 16, 16⟩
/-- SVC_WSTAT[4:4], W1C. -/
def Fld.SVC_WSTAT.TALLY_REFUSED : Fld := ⟨.SVC_WSTAT, 4, 4⟩
/-- SVC_WSTAT[3:3], W1C. -/
def Fld.SVC_WSTAT.OPEN_LOCK : Fld := ⟨.SVC_WSTAT, 3, 3⟩
/-- SVC_WSTAT[2:2], W1C. -/
def Fld.SVC_WSTAT.OPEN_REFUSED : Fld := ⟨.SVC_WSTAT, 2, 2⟩
/-- SVC_WSTAT[1:1], W1C. -/
def Fld.SVC_WSTAT.RANGE : Fld := ⟨.SVC_WSTAT, 1, 1⟩
/-- SVC_WSTAT[0:0], W1C. -/
def Fld.SVC_WSTAT.ACCEPT : Fld := ⟨.SVC_WSTAT, 0, 0⟩
/-- SVC_CTL[31:31], RWG. -/
def Fld.SVC_CTL.OPEN : Fld := ⟨.SVC_CTL, 31, 31⟩
/-- SVC_CTL[30:30], RWG. -/
def Fld.SVC_CTL.CLOSE : Fld := ⟨.SVC_CTL, 30, 30⟩
/-- SVC_CTL[29:29], RWG. -/
def Fld.SVC_CTL.AUTO_OPEN : Fld := ⟨.SVC_CTL, 29, 29⟩
/-- SVC_CTL[28:27], RWG. -/
def Fld.SVC_CTL.UNAUTH : Fld := ⟨.SVC_CTL, 28, 27⟩
/-- SVC_CTL[26:26], RWG. -/
def Fld.SVC_CTL.COOKIE_CUR : Fld := ⟨.SVC_CTL, 26, 26⟩
/-- SVC_TABLE_CFG[31:16], RWG. -/
def Fld.SVC_TABLE_CFG.IDLE : Fld := ⟨.SVC_TABLE_CFG, 31, 16⟩
/-- SVC_TABLE_CFG[4:0], RWG. -/
def Fld.SVC_TABLE_CFG.LOG2 : Fld := ⟨.SVC_TABLE_CFG, 4, 0⟩
/-- SVC_SHED[31:24], RWG. -/
def Fld.SVC_SHED.HIGH : Fld := ⟨.SVC_SHED, 31, 24⟩
/-- SVC_SHED[23:16], RWG. -/
def Fld.SVC_SHED.LOW : Fld := ⟨.SVC_SHED, 23, 16⟩
/-- SVC_SHED[15:8], RWG. -/
def Fld.SVC_SHED.HOLD : Fld := ⟨.SVC_SHED, 15, 8⟩
/-- SVC_SHED[7:0], RWG. -/
def Fld.SVC_SHED.SPREAD : Fld := ⟨.SVC_SHED, 7, 0⟩
/-- SVC_COST[31:24], RWG. -/
def Fld.SVC_COST.PTP : Fld := ⟨.SVC_COST, 31, 24⟩
/-- SVC_COST[23:16], RWG. -/
def Fld.SVC_COST.NTP : Fld := ⟨.SVC_COST, 23, 16⟩
/-- SVC_COST[15:8], RWG. -/
def Fld.SVC_COST.NTS : Fld := ⟨.SVC_COST, 15, 8⟩
/-- SVC_COST[7:0], RWG. -/
def Fld.SVC_COST.UNAUTH : Fld := ⟨.SVC_COST, 7, 0⟩
/-- SVC_GRANT[31:16], RWG. -/
def Fld.SVC_GRANT.MAX : Fld := ⟨.SVC_GRANT, 31, 16⟩
/-- SVC_GRANT[7:0], RWG. -/
def Fld.SVC_GRANT.TRAIN : Fld := ⟨.SVC_GRANT, 7, 0⟩
/-- SVC_KEYS[31:31], RWG. -/
def Fld.SVC_KEYS.PV : Fld := ⟨.SVC_KEYS, 31, 31⟩
/-- SVC_KEYS[29:24], RWG. -/
def Fld.SVC_KEYS.PTP_MASTER : Fld := ⟨.SVC_KEYS, 29, 24⟩
/-- SVC_KEYS[23:23], RWG. -/
def Fld.SVC_KEYS.NV : Fld := ⟨.SVC_KEYS, 23, 23⟩
/-- SVC_KEYS[21:16], RWG. -/
def Fld.SVC_KEYS.NTP_MASTER : Fld := ⟨.SVC_KEYS, 21, 16⟩
/-- SVC_KEYS[15:15], RWG. -/
def Fld.SVC_KEYS.MV : Fld := ⟨.SVC_KEYS, 15, 15⟩
/-- SVC_KEYS[13:8], RWG. -/
def Fld.SVC_KEYS.MC_GEN : Fld := ⟨.SVC_KEYS, 13, 8⟩
/-- SVC_KEYS[5:0], RWG. -/
def Fld.SVC_KEYS.MC_VER : Fld := ⟨.SVC_KEYS, 5, 0⟩
/-- SVC_TLV_ORG[23:0], RWG. -/
def Fld.SVC_TLV_ORG.OUI : Fld := ⟨.SVC_TLV_ORG, 23, 0⟩
/-- SVC_TLV_SUB[23:0], RWG. -/
def Fld.SVC_TLV_SUB.SUB : Fld := ⟨.SVC_TLV_SUB, 23, 0⟩
/-- SVC_NTP_EF[15:0], RWG. -/
def Fld.SVC_NTP_EF.TYPE : Fld := ⟨.SVC_NTP_EF, 15, 0⟩
/-- SVC_COOKIE_SLOTS[31:31], RWG. -/
def Fld.SVC_COOKIE_SLOTS.VALID : Fld := ⟨.SVC_COOKIE_SLOTS, 31, 31⟩
/-- SVC_COOKIE_SLOTS[17:12], RWG. -/
def Fld.SVC_COOKIE_SLOTS.DRV : Fld := ⟨.SVC_COOKIE_SLOTS, 17, 12⟩
/-- SVC_COOKIE_SLOTS[11:6], RWG. -/
def Fld.SVC_COOKIE_SLOTS.DEC : Fld := ⟨.SVC_COOKIE_SLOTS, 11, 6⟩
/-- SVC_COOKIE_SLOTS[5:0], RWG. -/
def Fld.SVC_COOKIE_SLOTS.ENC : Fld := ⟨.SVC_COOKIE_SLOTS, 5, 0⟩
/-- SVC_TALLY[31:28], WO. -/
def Fld.SVC_TALLY.CNT : Fld := ⟨.SVC_TALLY, 31, 28⟩
/-- SVC_TALLY[27:24], WO. -/
def Fld.SVC_TALLY.CLASS : Fld := ⟨.SVC_TALLY, 27, 24⟩
/-- SVC_TALLY[23:0], WO. -/
def Fld.SVC_TALLY.ADD : Fld := ⟨.SVC_TALLY, 23, 0⟩
/-- SVC_CLASS[31:28], RWG. -/
def Fld.SVC_CLASS.DELAY_LOG2 : Fld := ⟨.SVC_CLASS, 31, 28⟩
/-- SVC_CLASS[23:16], RWG. -/
def Fld.SVC_CLASS.MIN_LOG : Fld := ⟨.SVC_CLASS, 23, 16⟩
/-- SVC_CLASS[15:8], RWG. -/
def Fld.SVC_CLASS.MINPOLL : Fld := ⟨.SVC_CLASS, 15, 8⟩
/-- SVC_PORT[31:29], RWG. -/
def Fld.SVC_PORT.PROFILE : Fld := ⟨.SVC_PORT, 31, 29⟩
/-- SVC_PORT[28:28], RWG. -/
def Fld.SVC_PORT.ROLE : Fld := ⟨.SVC_PORT, 28, 28⟩
/-- SVC_PORT[27:27], RWG. -/
def Fld.SVC_PORT.STEP : Fld := ⟨.SVC_PORT, 27, 27⟩
/-- SVC_PORT[26:26], RWG. -/
def Fld.SVC_PORT.NTP : Fld := ⟨.SVC_PORT, 26, 26⟩
/-- SVC_PORT[25:25], RWG. -/
def Fld.SVC_PORT.NTS : Fld := ⟨.SVC_PORT, 25, 25⟩
/-- SVC_PORT[24:24], RWG. -/
def Fld.SVC_PORT.MC_ADDR : Fld := ⟨.SVC_PORT, 24, 24⟩
/-- SVC_PORT[23:16], RWG. -/
def Fld.SVC_PORT.DOMAIN : Fld := ⟨.SVC_PORT, 23, 16⟩
/-- SVC_PORT[15:8], RWG. -/
def Fld.SVC_PORT.SPP : Fld := ⟨.SVC_PORT, 15, 8⟩
/-- SVC_PORT[7:6], RWG. -/
def Fld.SVC_PORT.ICV : Fld := ⟨.SVC_PORT, 7, 6⟩
/-- SVC_PORT[3:0], RWG. -/
def Fld.SVC_PORT.NETJ : Fld := ⟨.SVC_PORT, 3, 0⟩
/-- SVC_LEVEL[3:0], RW. -/
def Fld.SVC_LEVEL.LEVEL : Fld := ⟨.SVC_LEVEL, 3, 0⟩
/-- FLT_STAT[21:12], RO. -/
def Fld.FLT_STAT.NMAJOR : Fld := ⟨.FLT_STAT, 21, 12⟩
/-- FLT_STAT[9:0], RO. -/
def Fld.FLT_STAT.NACTIVE : Fld := ⟨.FLT_STAT, 9, 0⟩
/-- FLT_WSTAT[3:3], W1C. -/
def Fld.FLT_WSTAT.RELEASE_REFUSED : Fld := ⟨.FLT_WSTAT, 3, 3⟩
/-- FLT_WSTAT[2:2], W1C. -/
def Fld.FLT_WSTAT.CLEAR_REFUSED : Fld := ⟨.FLT_WSTAT, 2, 2⟩
/-- FLT_WSTAT[1:1], W1C. -/
def Fld.FLT_WSTAT.RANGE : Fld := ⟨.FLT_WSTAT, 1, 1⟩
/-- FLT_WSTAT[0:0], W1C. -/
def Fld.FLT_WSTAT.ACCEPT : Fld := ⟨.FLT_WSTAT, 0, 0⟩
/-- FLT_GRACE[20:0], RWG. -/
def Fld.FLT_GRACE.GRACE : Fld := ⟨.FLT_GRACE, 20, 0⟩
/-- FLT_PIN_HOLD[0:0], RW. -/
def Fld.FLT_PIN_HOLD.HOLD : Fld := ⟨.FLT_PIN_HOLD, 0, 0⟩
/-- FLT_HANDLER[31:31], RWG. -/
def Fld.FLT_HANDLER.EN : Fld := ⟨.FLT_HANDLER, 31, 31⟩
/-- FLT_HANDLER[8:0], RWG. -/
def Fld.FLT_HANDLER.THREAD : Fld := ⟨.FLT_HANDLER, 8, 0⟩
/-- FLT_ESC[31:31], RWG. -/
def Fld.FLT_ESC.RELEASE : Fld := ⟨.FLT_ESC, 31, 31⟩
/-- FLT_ESC[30:30], RS. -/
def Fld.FLT_ESC.BANK_FORCED : Fld := ⟨.FLT_ESC, 30, 30⟩
/-- FLT_ESC[29:29], RS. -/
def Fld.FLT_ESC.SKIP2 : Fld := ⟨.FLT_ESC, 29, 29⟩
/-- FLT_ESC[28:28], RS. -/
def Fld.FLT_ESC.HELD : Fld := ⟨.FLT_ESC, 28, 28⟩
/-- FLT_ESC[27:26], RS. -/
def Fld.FLT_ESC.STEP : Fld := ⟨.FLT_ESC, 27, 26⟩
/-- FLT_ESC[8:0], RS. -/
def Fld.FLT_ESC.RECORD : Fld := ⟨.FLT_ESC, 8, 0⟩
/-- FLT_ESC_CTL[3:0], RWG. -/
def Fld.FLT_ESC_CTL.MAXRST : Fld := ⟨.FLT_ESC_CTL, 3, 0⟩
/-- FLT_ESC_LAST[22:14], RS. -/
def Fld.FLT_ESC_LAST.RECORD : Fld := ⟨.FLT_ESC_LAST, 22, 14⟩
/-- FLT_ESC_LAST[13:12], RS. -/
def Fld.FLT_ESC_LAST.CLASS : Fld := ⟨.FLT_ESC_LAST, 13, 12⟩
/-- FLT_ESC_LAST[11:0], RS. -/
def Fld.FLT_ESC_LAST.COUNT : Fld := ⟨.FLT_ESC_LAST, 11, 0⟩
/-- FLT_REC_STAT[31:31], RO or RS. -/
def Fld.FLT_REC_STAT.ACTIVE : Fld := ⟨.FLT_REC_STAT, 31, 31⟩
/-- FLT_REC_STAT[30:30], RO or RS. -/
def Fld.FLT_REC_STAT.ACKED : Fld := ⟨.FLT_REC_STAT, 30, 30⟩
/-- FLT_REC_STAT[29:28], RO or RS. -/
def Fld.FLT_REC_STAT.CLASS : Fld := ⟨.FLT_REC_STAT, 29, 28⟩
/-- FLT_REC_STAT[27:27], RO or RS. -/
def Fld.FLT_REC_STAT.MULTI : Fld := ⟨.FLT_REC_STAT, 27, 27⟩
/-- FLT_REC_STAT[26:26], RO or RS. -/
def Fld.FLT_REC_STAT.GRACE_RUN : Fld := ⟨.FLT_REC_STAT, 26, 26⟩
/-- FLT_REC_STAT[15:0], RO or RS. -/
def Fld.FLT_REC_STAT.MERGE_COUNT : Fld := ⟨.FLT_REC_STAT, 15, 0⟩
/-- FLT_REC_SOURCE[31:31], RO or RS. -/
def Fld.FLT_REC_SOURCE.THREAD_VALID : Fld := ⟨.FLT_REC_SOURCE, 31, 31⟩
/-- FLT_REC_SOURCE[8:0], RO or RS. -/
def Fld.FLT_REC_SOURCE.THREAD : Fld := ⟨.FLT_REC_SOURCE, 8, 0⟩
/-- FLT_REC_DETAIL[15:8], RO or RS. -/
def Fld.FLT_REC_DETAIL.STATUS : Fld := ⟨.FLT_REC_DETAIL, 15, 8⟩
/-- FLT_REC_DETAIL[7:0], RO or RS. -/
def Fld.FLT_REC_DETAIL.REASON : Fld := ⟨.FLT_REC_DETAIL, 7, 0⟩
/-- FLT_REC_CTL[1:1], WO. -/
def Fld.FLT_REC_CTL.CLEAR : Fld := ⟨.FLT_REC_CTL, 1, 1⟩
/-- FLT_REC_CTL[0:0], WO. -/
def Fld.FLT_REC_CTL.ACK : Fld := ⟨.FLT_REC_CTL, 0, 0⟩
/-- DMP_MAX_DFDT[15:0], RWG. -/
def Fld.DMP_MAX_DFDT.DFDT : Fld := ⟨.DMP_MAX_DFDT, 15, 0⟩
/-- DMP_FUSE[15:0], RO. -/
def Fld.DMP_FUSE.DFDT_CEIL : Fld := ⟨.DMP_FUSE, 15, 0⟩
/-- DMP_WSTAT[0:0], W1C. -/
def Fld.DMP_WSTAT.RANGE : Fld := ⟨.DMP_WSTAT, 0, 0⟩
/-- DMP_LAST[16:8], RO. -/
def Fld.DMP_LAST.THREAD : Fld := ⟨.DMP_LAST, 16, 8⟩
/-- DMP_LAST[7:0], RO. -/
def Fld.DMP_LAST.REASON : Fld := ⟨.DMP_LAST, 7, 0⟩
/-- DMP_OSC_INTERVAL[15:0], RWG. -/
def Fld.DMP_OSC_INTERVAL.INTERVAL : Fld := ⟨.DMP_OSC_INTERVAL, 15, 0⟩
/-- DMP_QCEIL[31:20], RWG. -/
def Fld.DMP_QCEIL.BURST : Fld := ⟨.DMP_QCEIL, 31, 20⟩
/-- DMP_QCEIL[19:0], RWG. -/
def Fld.DMP_QCEIL.RATE : Fld := ⟨.DMP_QCEIL, 19, 0⟩
/-- KEY_STAT[31:30], RO. -/
def Fld.KEY_STAT.STATE : Fld := ⟨.KEY_STAT, 31, 30⟩
/-- KEY_STAT[29:29], RO. -/
def Fld.KEY_STAT.BUSY : Fld := ⟨.KEY_STAT, 29, 29⟩
/-- KEY_STAT[28:28], RO. -/
def Fld.KEY_STAT.APPLYING : Fld := ⟨.KEY_STAT, 28, 28⟩
/-- KEY_STAT[27:27], RO. -/
def Fld.KEY_STAT.TK_RELEASED : Fld := ⟨.KEY_STAT, 27, 27⟩
/-- KEY_WSTAT[2:2], W1C. -/
def Fld.KEY_WSTAT.ABORTED : Fld := ⟨.KEY_WSTAT, 2, 2⟩
/-- KEY_WSTAT[1:1], W1C. -/
def Fld.KEY_WSTAT.REFUSED : Fld := ⟨.KEY_WSTAT, 1, 1⟩
/-- KEY_WSTAT[0:0], W1C. -/
def Fld.KEY_WSTAT.ACCEPT : Fld := ⟨.KEY_WSTAT, 0, 0⟩
/-- KEY_ABORT[0:0], WO. -/
def Fld.KEY_ABORT.GO : Fld := ⟨.KEY_ABORT, 0, 0⟩
/-- KEY_LAST[31:24], RO. -/
def Fld.KEY_LAST.STATUS : Fld := ⟨.KEY_LAST, 31, 24⟩
/-- KEY_LAST[21:16], RO. -/
def Fld.KEY_LAST.SLOT : Fld := ⟨.KEY_LAST, 21, 16⟩
/-- KEY_HGEN[19:0], RO. -/
def Fld.KEY_HGEN.GEN : Fld := ⟨.KEY_HGEN, 19, 0⟩
/-- KEY_SLOT[31:31], RO. -/
def Fld.KEY_SLOT.VALID : Fld := ⟨.KEY_SLOT, 31, 31⟩
/-- KEY_SLOT[30:28], RO. -/
def Fld.KEY_SLOT.ATTR : Fld := ⟨.KEY_SLOT, 30, 28⟩
/-- KEY_SLOT[27:26], RO. -/
def Fld.KEY_SLOT.LEN : Fld := ⟨.KEY_SLOT, 27, 26⟩
/-- KEY_SLOT[25:24], RO. -/
def Fld.KEY_SLOT.DMODE : Fld := ⟨.KEY_SLOT, 25, 24⟩
/-- KEY_SLOT[23:22], RO. -/
def Fld.KEY_SLOT.DLEN : Fld := ⟨.KEY_SLOT, 23, 22⟩
/-- KEY_SLOT[15:0], RO. -/
def Fld.KEY_SLOT.CTR_LO : Fld := ⟨.KEY_SLOT, 15, 0⟩
/-- IRQ_CTL[31:31], RW. -/
def Fld.IRQ_CTL.GEN : Fld := ⟨.IRQ_CTL, 31, 31⟩
/-- IRQ_WSTAT[3:3], W1C. -/
def Fld.IRQ_WSTAT.EOI_BAD : Fld := ⟨.IRQ_WSTAT, 3, 3⟩
/-- IRQ_WSTAT[2:2], W1C. -/
def Fld.IRQ_WSTAT.DB_DROP : Fld := ⟨.IRQ_WSTAT, 2, 2⟩
/-- IRQ_WSTAT[1:1], W1C. -/
def Fld.IRQ_WSTAT.RANGE : Fld := ⟨.IRQ_WSTAT, 1, 1⟩
/-- IRQ_WSTAT[0:0], W1C. -/
def Fld.IRQ_WSTAT.ACCEPT : Fld := ⟨.IRQ_WSTAT, 0, 0⟩
/-- IRQ_TIERS[3:0], RW. -/
def Fld.IRQ_TIERS.WIDTH : Fld := ⟨.IRQ_TIERS, 3, 0⟩
/-- IRQ_TARGET_TIMEOUT[19:0], RW. -/
def Fld.IRQ_TARGET_TIMEOUT.US : Fld := ⟨.IRQ_TARGET_TIMEOUT, 19, 0⟩
/-- IRQ_DOORBELL[8:0], WO. -/
def Fld.IRQ_DOORBELL.SOURCE : Fld := ⟨.IRQ_DOORBELL, 8, 0⟩
/-- IRQ_PEND_SET[8:0], WO. -/
def Fld.IRQ_PEND_SET.SOURCE : Fld := ⟨.IRQ_PEND_SET, 8, 0⟩
/-- IRQ_PEND_CLR[8:0], WO. -/
def Fld.IRQ_PEND_CLR.SOURCE : Fld := ⟨.IRQ_PEND_CLR, 8, 0⟩
/-- IRQ_SRC_CFG[31:31], RW. -/
def Fld.IRQ_SRC_CFG.EN : Fld := ⟨.IRQ_SRC_CFG, 31, 31⟩
/-- IRQ_SRC_CFG[30:30], RW. -/
def Fld.IRQ_SRC_CFG.MODE : Fld := ⟨.IRQ_SRC_CFG, 30, 30⟩
/-- IRQ_SRC_CFG[7:0], RW. -/
def Fld.IRQ_SRC_CFG.PRIO : Fld := ⟨.IRQ_SRC_CFG, 7, 0⟩
/-- IRQ_SRC_TGT[31:16], RWG for n < 256; RW otherwise. -/
def Fld.IRQ_SRC_TGT.FALLBACK : Fld := ⟨.IRQ_SRC_TGT, 31, 16⟩
/-- IRQ_SRC_TGT[15:0], RWG for n < 256; RW otherwise. -/
def Fld.IRQ_SRC_TGT.TARGET : Fld := ⟨.IRQ_SRC_TGT, 15, 0⟩
/-- IRQ_SRC_STAT[31:31], RO. -/
def Fld.IRQ_SRC_STAT.PEND : Fld := ⟨.IRQ_SRC_STAT, 31, 31⟩
/-- IRQ_SRC_STAT[30:30], RO. -/
def Fld.IRQ_SRC_STAT.ISSUED : Fld := ⟨.IRQ_SRC_STAT, 30, 30⟩
/-- IRQ_SRC_STAT[29:29], RO. -/
def Fld.IRQ_SRC_STAT.ACTIVE : Fld := ⟨.IRQ_SRC_STAT, 29, 29⟩
/-- IRQ_SRC_STAT[28:28], RO. -/
def Fld.IRQ_SRC_STAT.STUCK : Fld := ⟨.IRQ_SRC_STAT, 28, 28⟩
/-- IRQ_SRC_STAT[27:27], RO. -/
def Fld.IRQ_SRC_STAT.LINE : Fld := ⟨.IRQ_SRC_STAT, 27, 27⟩
/-- IRQ_SRC_STAT[23:16], RO. -/
def Fld.IRQ_SRC_STAT.DETAIL : Fld := ⟨.IRQ_SRC_STAT, 23, 16⟩
/-- IRQ_SRC_STAT[15:8], RO. -/
def Fld.IRQ_SRC_STAT.COALESCE : Fld := ⟨.IRQ_SRC_STAT, 15, 8⟩
/-- IRQ_EOI[8:0], WO. -/
def Fld.IRQ_EOI.SOURCE : Fld := ⟨.IRQ_EOI, 8, 0⟩
/-- IRQ_RUN[31:31], RO. -/
def Fld.IRQ_RUN.ISSUED : Fld := ⟨.IRQ_RUN, 31, 31⟩
/-- IRQ_RUN[27:24], RO. -/
def Fld.IRQ_RUN.DEPTH : Fld := ⟨.IRQ_RUN, 27, 24⟩
/-- IRQ_RUN[23:16], RO. -/
def Fld.IRQ_RUN.RUNTIER : Fld := ⟨.IRQ_RUN, 23, 16⟩
/-- IRQ_RUN[8:0], RO. -/
def Fld.IRQ_RUN.ISSUED_SRC : Fld := ⟨.IRQ_RUN, 8, 0⟩
/-- PMC_CTL[31:31], RW. -/
def Fld.PMC_CTL.FREEZE : Fld := ⟨.PMC_CTL, 31, 31⟩
/-- PMC_CTL[30:30], RW. -/
def Fld.PMC_CTL.FRZ_OVF : Fld := ⟨.PMC_CTL, 30, 30⟩
/-- PMC_WSTAT[1:1], W1C. -/
def Fld.PMC_WSTAT.RANGE : Fld := ⟨.PMC_WSTAT, 1, 1⟩
/-- PMC_WSTAT[0:0], W1C. -/
def Fld.PMC_WSTAT.ACCEPT : Fld := ⟨.PMC_WSTAT, 0, 0⟩
/-- PMC_OVF0[16:16], W1C. -/
def Fld.PMC_OVF0.SMP : Fld := ⟨.PMC_OVF0, 16, 16⟩
/-- PMC_OVF0[15:0], W1C. -/
def Fld.PMC_OVF0.CC : Fld := ⟨.PMC_OVF0, 15, 0⟩
/-- PMC_SMP_CTL[7:0], RW. -/
def Fld.PMC_SMP_CTL.IRQ_AT : Fld := ⟨.PMC_SMP_CTL, 7, 0⟩
/-- PMC_MIRROR[31:31], RW. -/
def Fld.PMC_MIRROR.EN : Fld := ⟨.PMC_MIRROR, 31, 31⟩
/-- PMC_MIRROR[8:0], RW. -/
def Fld.PMC_MIRROR.BLOCK : Fld := ⟨.PMC_MIRROR, 8, 0⟩
/-- PMC_CC_SEL[31:31], RW. -/
def Fld.PMC_CC_SEL.EN : Fld := ⟨.PMC_CC_SEL, 31, 31⟩
/-- PMC_CC_SEL[30:30], RW. -/
def Fld.PMC_CC_SEL.SAMPLE : Fld := ⟨.PMC_CC_SEL, 30, 30⟩
/-- PMC_CC_SEL[29:26], RW. -/
def Fld.PMC_CC_SEL.THREADS : Fld := ⟨.PMC_CC_SEL, 29, 26⟩
/-- PMC_CC_SEL[25:25], RW. -/
def Fld.PMC_CC_SEL.U : Fld := ⟨.PMC_CC_SEL, 25, 25⟩
/-- PMC_CC_SEL[24:24], RW. -/
def Fld.PMC_CC_SEL.K : Fld := ⟨.PMC_CC_SEL, 24, 24⟩
/-- PMC_CC_SEL[17:16], RW. -/
def Fld.PMC_CC_SEL.UNIT : Fld := ⟨.PMC_CC_SEL, 17, 16⟩
/-- PMC_CC_SEL[7:0], RW. -/
def Fld.PMC_CC_SEL.EVENT : Fld := ⟨.PMC_CC_SEL, 7, 0⟩
/-- PMC_CC_HI[15:0], RW. -/
def Fld.PMC_CC_HI.HI : Fld := ⟨.PMC_CC_HI, 15, 0⟩
/-- PMC_K_SEL[31:31], RW. -/
def Fld.PMC_K_SEL.EN : Fld := ⟨.PMC_K_SEL, 31, 31⟩
/-- PMC_K_SEL[30:30], RW. -/
def Fld.PMC_K_SEL.SAMPLE : Fld := ⟨.PMC_K_SEL, 30, 30⟩
/-- PMC_K_SEL[29:26], RW. -/
def Fld.PMC_K_SEL.THREADS : Fld := ⟨.PMC_K_SEL, 29, 26⟩
/-- PMC_K_SEL[25:25], RW. -/
def Fld.PMC_K_SEL.U : Fld := ⟨.PMC_K_SEL, 25, 25⟩
/-- PMC_K_SEL[24:24], RW. -/
def Fld.PMC_K_SEL.K : Fld := ⟨.PMC_K_SEL, 24, 24⟩
/-- PMC_K_SEL[17:16], RW. -/
def Fld.PMC_K_SEL.UNIT : Fld := ⟨.PMC_K_SEL, 17, 16⟩
/-- PMC_K_SEL[7:0], RW. -/
def Fld.PMC_K_SEL.EVENT : Fld := ⟨.PMC_K_SEL, 7, 0⟩
/-- PMC_K_HI[15:0], RW. -/
def Fld.PMC_K_HI.HI : Fld := ⟨.PMC_K_HI, 15, 0⟩
/-- TOP_ID[31:16], RO. -/
def Fld.TOP_ID.PART : Fld := ⟨.TOP_ID, 31, 16⟩
/-- TOP_ID[15:8], RO. -/
def Fld.TOP_ID.STEPPING : Fld := ⟨.TOP_ID, 15, 8⟩
/-- TOP_ID[7:0], RO. -/
def Fld.TOP_ID.ORDER : Fld := ⟨.TOP_ID, 7, 0⟩
/-- TOP_LIFE[3:2], RO. -/
def Fld.TOP_LIFE.DEBUG : Fld := ⟨.TOP_LIFE, 3, 2⟩
/-- TOP_LIFE[1:0], RO. -/
def Fld.TOP_LIFE.LIFECYCLE : Fld := ⟨.TOP_LIFE, 1, 0⟩
/-- TOP_UNLOCK[31:1], WO. -/
def Fld.TOP_UNLOCK.KEY : Fld := ⟨.TOP_UNLOCK, 31, 1⟩
/-- TOP_UNLOCK[0:0], RO. -/
def Fld.TOP_UNLOCK.ARMED : Fld := ⟨.TOP_UNLOCK, 0, 0⟩
/-- TOP_LOCK_VIOL[31:31], W1C. -/
def Fld.TOP_LOCK_VIOL.VIOL : Fld := ⟨.TOP_LOCK_VIOL, 31, 31⟩
/-- TOP_LOCK_VIOL[30:25], RO. -/
def Fld.TOP_LOCK_VIOL.COUNT : Fld := ⟨.TOP_LOCK_VIOL, 30, 25⟩
/-- TOP_LOCK_VIOL[24:2], RO. -/
def Fld.TOP_LOCK_VIOL.OFFSET : Fld := ⟨.TOP_LOCK_VIOL, 24, 2⟩
/-- TOP_WOS_VIOL[31:31], W1C. -/
def Fld.TOP_WOS_VIOL.VIOL : Fld := ⟨.TOP_WOS_VIOL, 31, 31⟩
/-- TOP_WOS_VIOL[30:25], RO. -/
def Fld.TOP_WOS_VIOL.COUNT : Fld := ⟨.TOP_WOS_VIOL, 30, 25⟩
/-- TOP_WOS_VIOL[24:2], RO. -/
def Fld.TOP_WOS_VIOL.OFFSET : Fld := ⟨.TOP_WOS_VIOL, 24, 2⟩
/-- TOP_OWN_VIOL[31:31], W1C. -/
def Fld.TOP_OWN_VIOL.VIOL : Fld := ⟨.TOP_OWN_VIOL, 31, 31⟩
/-- TOP_OWN_VIOL[30:25], RO. -/
def Fld.TOP_OWN_VIOL.COUNT : Fld := ⟨.TOP_OWN_VIOL, 30, 25⟩
/-- TOP_OWN_VIOL[24:2], RO. -/
def Fld.TOP_OWN_VIOL.OFFSET : Fld := ⟨.TOP_OWN_VIOL, 24, 2⟩
/-- HST_STAT[31:31], RX. -/
def Fld.HST_STAT.D2D : Fld := ⟨.HST_STAT, 31, 31⟩
/-- HST_STAT[6:0], RX. -/
def Fld.HST_STAT.QUEUES : Fld := ⟨.HST_STAT, 6, 0⟩
/-- HST_WSTAT[4:4], W1C. -/
def Fld.HST_WSTAT.D2D_DROP : Fld := ⟨.HST_WSTAT, 4, 4⟩
/-- HST_WSTAT[3:3], W1C. -/
def Fld.HST_WSTAT.BUSY : Fld := ⟨.HST_WSTAT, 3, 3⟩
/-- HST_WSTAT[2:2], W1C. -/
def Fld.HST_WSTAT.DOORBELL : Fld := ⟨.HST_WSTAT, 2, 2⟩
/-- HST_WSTAT[1:1], W1C. -/
def Fld.HST_WSTAT.RANGE : Fld := ⟨.HST_WSTAT, 1, 1⟩
/-- HST_WSTAT[0:0], W1C. -/
def Fld.HST_WSTAT.ACCEPT : Fld := ⟨.HST_WSTAT, 0, 0⟩
/-- HST_ABORT[31:31], WO. -/
def Fld.HST_ABORT.GO : Fld := ⟨.HST_ABORT, 31, 31⟩
/-- HST_ABORT[5:0], WO. -/
def Fld.HST_ABORT.QUEUE : Fld := ⟨.HST_ABORT, 5, 0⟩
/-- HST_B2W_BASE_LO[31:24], RW. -/
def Fld.HST_B2W_BASE_LO.BASE_LO : Fld := ⟨.HST_B2W_BASE_LO, 31, 24⟩
/-- HST_Q_CFG[31:31], RW. -/
def Fld.HST_Q_CFG.EN : Fld := ⟨.HST_Q_CFG, 31, 31⟩
/-- HST_Q_SQ_TAIL[15:0], RW. -/
def Fld.HST_Q_SQ_TAIL.SQ_TAIL : Fld := ⟨.HST_Q_SQ_TAIL, 15, 0⟩
/-- HST_Q_SQ_HEAD[15:0], RO. -/
def Fld.HST_Q_SQ_HEAD.SQ_HEAD : Fld := ⟨.HST_Q_SQ_HEAD, 15, 0⟩
/-- HST_Q_CQ_HEAD[15:0], RW. -/
def Fld.HST_Q_CQ_HEAD.CQ_HEAD : Fld := ⟨.HST_Q_CQ_HEAD, 15, 0⟩
/-- HST_Q_CQ_TAIL[16:16], RO. -/
def Fld.HST_Q_CQ_TAIL.PHASE : Fld := ⟨.HST_Q_CQ_TAIL, 16, 16⟩
/-- HST_Q_CQ_TAIL[15:0], RO. -/
def Fld.HST_Q_CQ_TAIL.CQ_TAIL : Fld := ⟨.HST_Q_CQ_TAIL, 15, 0⟩
/-- MEM_STAT[31:30], RO. -/
def Fld.MEM_STAT.READY : Fld := ⟨.MEM_STAT, 31, 30⟩
/-- MEM_STAT[29:29], RO. -/
def Fld.MEM_STAT.SCRUB_LATE : Fld := ⟨.MEM_STAT, 29, 29⟩
/-- MEM_SCRUB_CTL[31:24], RW. -/
def Fld.MEM_SCRUB_CTL.HOURS : Fld := ⟨.MEM_SCRUB_CTL, 31, 24⟩
/-- MEM_SCRUB_CTL[15:0], RW. -/
def Fld.MEM_SCRUB_CTL.CE2_THR : Fld := ⟨.MEM_SCRUB_CTL, 15, 0⟩
/-- MEM_SRAM_LAST[31:16], RO. -/
def Fld.MEM_SRAM_LAST.RECORD : Fld := ⟨.MEM_SRAM_LAST, 31, 16⟩
/-- MAT_STAT[31:29], RO. -/
def Fld.MAT_STAT.ROLE : Fld := ⟨.MAT_STAT, 31, 29⟩
/-- MAT_STAT[28:26], RO. -/
def Fld.MAT_STAT.MATE : Fld := ⟨.MAT_STAT, 28, 26⟩
/-- MAT_STAT[25:25], RO. -/
def Fld.MAT_STAT.LINK1 : Fld := ⟨.MAT_STAT, 25, 25⟩
/-- MAT_STAT[24:24], RO. -/
def Fld.MAT_STAT.LINK0 : Fld := ⟨.MAT_STAT, 24, 24⟩
/-- MAT_STAT[23:22], RO. -/
def Fld.MAT_STAT.ARB : Fld := ⟨.MAT_STAT, 23, 22⟩
/-- MAT_STAT[21:21], RO. -/
def Fld.MAT_STAT.PRESENT : Fld := ⟨.MAT_STAT, 21, 21⟩
/-- MAT_STAT[20:20], RO. -/
def Fld.MAT_STAT.PREFERRED : Fld := ⟨.MAT_STAT, 20, 20⟩
/-- MAT_STAT[19:19], RO. -/
def Fld.MAT_STAT.HEALTHY : Fld := ⟨.MAT_STAT, 19, 19⟩
/-- MAT_STAT[18:18], RO. -/
def Fld.MAT_STAT.MATE_HEALTHY : Fld := ⟨.MAT_STAT, 18, 18⟩
/-- MAT_STAT[17:17], RO. -/
def Fld.MAT_STAT.WIN : Fld := ⟨.MAT_STAT, 17, 17⟩
/-- MAT_STAT[16:16], RO. -/
def Fld.MAT_STAT.SWAP_PEND : Fld := ⟨.MAT_STAT, 16, 16⟩
/-- MAT_STAT[7:0], RO. -/
def Fld.MAT_STAT.CAUSE : Fld := ⟨.MAT_STAT, 7, 0⟩
/-- MAT_WSTAT[2:2], W1C. -/
def Fld.MAT_WSTAT.CMD_REFUSED : Fld := ⟨.MAT_WSTAT, 2, 2⟩
/-- MAT_WSTAT[1:1], W1C. -/
def Fld.MAT_WSTAT.RANGE : Fld := ⟨.MAT_WSTAT, 1, 1⟩
/-- MAT_WSTAT[0:0], W1C. -/
def Fld.MAT_WSTAT.ACCEPT : Fld := ⟨.MAT_WSTAT, 0, 0⟩
/-- MAT_CFG[31:31], RWG. -/
def Fld.MAT_CFG.EN : Fld := ⟨.MAT_CFG, 31, 31⟩
/-- MAT_CFG[30:30], RWG. -/
def Fld.MAT_CFG.FOLLOW : Fld := ⟨.MAT_CFG, 30, 30⟩
/-- MAT_CFG[29:29], RWG. -/
def Fld.MAT_CFG.REVERT : Fld := ⟨.MAT_CFG, 29, 29⟩
/-- MAT_CFG[28:28], RWG. -/
def Fld.MAT_CFG.HYIELD : Fld := ⟨.MAT_CFG, 28, 28⟩
/-- MAT_CFG[27:24], RWG. -/
def Fld.MAT_CFG.ANN_LOG2 : Fld := ⟨.MAT_CFG, 27, 24⟩
/-- MAT_CFG[23:20], RWG. -/
def Fld.MAT_CFG.WNET : Fld := ⟨.MAT_CFG, 23, 20⟩
/-- MAT_PROMOTE_HOLD[20:0], RWG. -/
def Fld.MAT_PROMOTE_HOLD.HOLD : Fld := ⟨.MAT_PROMOTE_HOLD, 20, 0⟩
/-- MAT_REVERT_HOLD[15:0], RWG. -/
def Fld.MAT_REVERT_HOLD.HOLD : Fld := ⟨.MAT_REVERT_HOLD, 15, 0⟩
/-- MAT_SWAP_AT[16:0], RWG. -/
def Fld.MAT_SWAP_AT.AT : Fld := ⟨.MAT_SWAP_AT, 16, 0⟩
/-- MAT_SWAP_CTL[31:31], RWG. -/
def Fld.MAT_SWAP_CTL.EN : Fld := ⟨.MAT_SWAP_CTL, 31, 31⟩
/-- MAT_SWAP_CTL[30:30], RWG. -/
def Fld.MAT_SWAP_CTL.NOW : Fld := ⟨.MAT_SWAP_CTL, 30, 30⟩
/-- MAT_SWAP_CTL[23:16], RWG. -/
def Fld.MAT_SWAP_CTL.PERIOD : Fld := ⟨.MAT_SWAP_CTL, 23, 16⟩
/-- MAT_SWAP_CTL[3:0], RS. -/
def Fld.MAT_SWAP_CTL.LAST : Fld := ⟨.MAT_SWAP_CTL, 3, 0⟩
/-- MAT_CMD[31:31], RWG. -/
def Fld.MAT_CMD.WITHDRAW : Fld := ⟨.MAT_CMD, 31, 31⟩
/-- MAT_CMD[30:30], RWG. -/
def Fld.MAT_CMD.REJOIN : Fld := ⟨.MAT_CMD, 30, 30⟩
/-- MAT_ROLECNT[31:24], RO. -/
def Fld.MAT_ROLECNT.TAKE : Fld := ⟨.MAT_ROLECNT, 31, 24⟩
/-- MAT_ROLECNT[23:16], RO. -/
def Fld.MAT_ROLECNT.SWAP : Fld := ⟨.MAT_ROLECNT, 23, 16⟩
/-- MAT_ROLECNT[15:8], RO. -/
def Fld.MAT_ROLECNT.WIT : Fld := ⟨.MAT_ROLECNT, 15, 8⟩
/-- MAT_ROLECNT[7:0], RO. -/
def Fld.MAT_ROLECNT.ARB : Fld := ⟨.MAT_ROLECNT, 7, 0⟩
/-- MAT_MIR[31:16], RWG. -/
def Fld.MAT_MIR.BASE : Fld := ⟨.MAT_MIR, 31, 16⟩
/-- MAT_MIR[15:0], RWG. -/
def Fld.MAT_MIR.SIZE : Fld := ⟨.MAT_MIR, 15, 0⟩
/-- MAT_MIR_STAT[31:28], RO. -/
def Fld.MAT_MIR_STAT.SYNC : Fld := ⟨.MAT_MIR_STAT, 31, 28⟩
/-- MAT_MIR_STAT[12:0], RO. -/
def Fld.MAT_MIR_STAT.QUEUE : Fld := ⟨.MAT_MIR_STAT, 12, 0⟩
/-- MAT_PRIORITY[31:31], RS. -/
def Fld.MAT_PRIORITY.FUSED : Fld := ⟨.MAT_PRIORITY, 31, 31⟩
/-- MAT_PRIORITY[15:8], WOS. -/
def Fld.MAT_PRIORITY.SET : Fld := ⟨.MAT_PRIORITY, 15, 8⟩
/-- MAT_PRIORITY[7:0], RS. -/
def Fld.MAT_PRIORITY.PRIO : Fld := ⟨.MAT_PRIORITY, 7, 0⟩
/-- PWR_STAT[31:30], RS. -/
def Fld.PWR_STAT.STATE : Fld := ⟨.PWR_STAT, 31, 30⟩
/-- PWR_STAT[29:29], RS. -/
def Fld.PWR_STAT.PWRFAIL : Fld := ⟨.PWR_STAT, 29, 29⟩
/-- PWR_STAT[28:28], RS. -/
def Fld.PWR_STAT.EMERG : Fld := ⟨.PWR_STAT, 28, 28⟩
/-- PWR_STAT[27:27], RS. -/
def Fld.PWR_STAT.SRC_FALLBACK : Fld := ⟨.PWR_STAT, 27, 27⟩
/-- PWR_STAT[20:20], RS. -/
def Fld.PWR_STAT.GNSS_GATED : Fld := ⟨.PWR_STAT, 20, 20⟩
/-- PWR_STAT[19:16], RS. -/
def Fld.PWR_STAT.CR_GATED : Fld := ⟨.PWR_STAT, 19, 16⟩
/-- PWR_WSTAT[1:1], W1C. -/
def Fld.PWR_WSTAT.RANGE : Fld := ⟨.PWR_WSTAT, 1, 1⟩
/-- PWR_WSTAT[0:0], W1C. -/
def Fld.PWR_WSTAT.ACCEPT : Fld := ⟨.PWR_WSTAT, 0, 0⟩
/-- PWR_EMBER[31:31], RWG. -/
def Fld.PWR_EMBER.AUTO : Fld := ⟨.PWR_EMBER, 31, 31⟩
/-- PWR_EMBER[3:0], RWG. -/
def Fld.PWR_EMBER.LOOP : Fld := ⟨.PWR_EMBER, 3, 0⟩
/-- PWR_FAIL[31:16], RS. -/
def Fld.PWR_FAIL.WARN : Fld := ⟨.PWR_FAIL, 31, 16⟩
/-- PWR_CNT[31:16], RS. -/
def Fld.PWR_CNT.WARNED : Fld := ⟨.PWR_CNT, 31, 16⟩
/-- PWR_CNT[15:0], RS. -/
def Fld.PWR_CNT.UNWARNED : Fld := ⟨.PWR_CNT, 15, 0⟩
/-- SEC_STAT[31:30], RO. -/
def Fld.SEC_STAT.LIFECYCLE : Fld := ⟨.SEC_STAT, 31, 30⟩
/-- SEC_STAT[29:29], RO. -/
def Fld.SEC_STAT.LC_BAD : Fld := ⟨.SEC_STAT, 29, 29⟩
/-- SEC_STAT[28:28], RO. -/
def Fld.SEC_STAT.OWNER_FUSED : Fld := ⟨.SEC_STAT, 28, 28⟩
/-- SEC_STAT[27:27], RO. -/
def Fld.SEC_STAT.INV_KILL : Fld := ⟨.SEC_STAT, 27, 27⟩
/-- SEC_STAT[26:26], RO. -/
def Fld.SEC_STAT.OBS_KILL : Fld := ⟨.SEC_STAT, 26, 26⟩
/-- SEC_STAT[25:25], RO. -/
def Fld.SEC_STAT.PRIO_FUSED : Fld := ⟨.SEC_STAT, 25, 25⟩
/-- SEC_STAT[24:24], RO. -/
def Fld.SEC_STAT.DFDT_FUSED : Fld := ⟨.SEC_STAT, 24, 24⟩
/-- SEC_STAT[23:23], RO. -/
def Fld.SEC_STAT.DEBUGGED : Fld := ⟨.SEC_STAT, 23, 23⟩
/-- SEC_STAT[22:22], RO. -/
def Fld.SEC_STAT.ZEROISED : Fld := ⟨.SEC_STAT, 22, 22⟩
/-- SEC_BOOT[31:20], RO. -/
def Fld.SEC_BOOT.USED : Fld := ⟨.SEC_BOOT, 31, 20⟩
/-- SEC_BOOT[15:8], RO. -/
def Fld.SEC_BOOT.STORED : Fld := ⟨.SEC_BOOT, 15, 8⟩
/-- SEC_BOOT[7:0], RO. -/
def Fld.SEC_BOOT.FAILED : Fld := ⟨.SEC_BOOT, 7, 0⟩
/-- DBG_STAT[31:30], RO. -/
def Fld.DBG_STAT.LEVEL : Fld := ⟨.DBG_STAT, 31, 30⟩
/-- DBG_STAT[15:0], RO. -/
def Fld.DBG_STAT.DENIED : Fld := ⟨.DBG_STAT, 15, 0⟩
/-- DBG_CTL[31:31], RWG. -/
def Fld.DBG_CTL.INV_ALLOW : Fld := ⟨.DBG_CTL, 31, 31⟩
/-- DBG_CTL[30:30], RWG. -/
def Fld.DBG_CTL.OBS_ALLOW : Fld := ⟨.DBG_CTL, 30, 30⟩
/-- DBG_CTL[29:29], RWG. -/
def Fld.DBG_CTL.DROP : Fld := ⟨.DBG_CTL, 29, 29⟩

end Sys2Proof.Machine
end

