-- ==== Sys2Proof/Machine/RegTable.lean ====
section
/-!
DEFINITION. Machine/RegTable.lean: what the spec's register tables say of each register group: its place in BAR0, its
repetition, its reset word, which bits a write of each access type reaches, and the die and region that hold it.
-/
namespace Sys2Proof.Machine

/-- One row of the register tables: the BAR0 offset of element 0, the repetition (count and stride, outermost first),
the reset word of element 0, the masks of the fields of types RW, RWG, W1C, WO and WOS (Table 14.4). -/
structure RegRow where
  base  : Nat
  dims  : List (Nat × Nat)
  reset : Nat
  rw    : Nat
  rwg   : Nat
  w1c   : Nat
  wo    : Nat
  wos   : Nat
  deriving DecidableEq, Repr

/-- The register tables. -/
def Reg.row : Reg → RegRow
  | .TOP_OWN => ⟨0x100, [(384, 0x4)], 0x00000000, 0x0, 0x0, 0x0, 0x0, 0x0⟩
  | .DTM_MODE => ⟨0x100000, [], 0x00000000, 0x0, 0x0, 0x0, 0x0, 0x0⟩
  | .DTM_WSTAT => ⟨0x100004, [], 0x00000000, 0x0, 0x0, 0x3FE, 0x0, 0x0⟩
  | .DTM_SETTLE_CTL => ⟨0x100008, [], 0x00000107, 0x0, 0xC0000107, 0x0, 0x0, 0x0⟩
  | .DTM_SETTLE_TIMEOUT => ⟨0x10000C, [], 0x00000258, 0x0, 0x1FFFF, 0x0, 0x0, 0x0⟩
  | .DTM_SETTLE_LEFT => ⟨0x100010, [], 0x00000000, 0x0, 0x0, 0x0, 0x0, 0x0⟩
  | .DTM_NOW_SEC_HI => ⟨0x100020, [], 0x00000000, 0x0, 0x0, 0x0, 0x0, 0x0⟩
  | .DTM_NOW_SEC_LO => ⟨0x100024, [], 0x00000000, 0x0, 0x0, 0x0, 0x0, 0x0⟩
  | .DTM_NOW_NS => ⟨0x100028, [], 0x00000000, 0x0, 0x0, 0x0, 0x0, 0x0⟩
  | .DTM_NOW_FRAC => ⟨0x10002C, [], 0x00000000, 0x0, 0x0, 0x0, 0x0, 0x0⟩
  | .DTM_INC_HI => ⟨0x100030, [], 0x00CCCCCC, 0xFFFFFFFF, 0x0, 0x0, 0x0, 0x0⟩
  | .DTM_INC_LO => ⟨0x100034, [], 0xCCCCCCCD, 0xFFFFFFFF, 0x0, 0x0, 0x0, 0x0⟩
  | .DTM_SNAP_CTL => ⟨0x100040, [], 0x00000000, 0x0, 0x0, 0x4, 0x1, 0x0⟩
  | .DTM_SNAP_SEC_HI => ⟨0x100050, [], 0x00000000, 0x0, 0x0, 0x0, 0x0, 0x0⟩
  | .DTM_SNAP_SEC_LO => ⟨0x100054, [], 0x00000000, 0x0, 0x0, 0x0, 0x0, 0x0⟩
  | .DTM_SNAP_NS => ⟨0x100058, [], 0x00000000, 0x0, 0x0, 0x0, 0x0, 0x0⟩
  | .DTM_SNAP_FRAC => ⟨0x10005C, [], 0x00000000, 0x0, 0x0, 0x0, 0x0, 0x0⟩
  | .DTM_SNAP_EARLY => ⟨0x100060, [], 0xFFFFFFFF, 0x0, 0x0, 0x0, 0x0, 0x0⟩
  | .DTM_SNAP_LATE => ⟨0x100064, [], 0xFFFFFFFF, 0x0, 0x0, 0x0, 0x0, 0x0⟩
  | .DTM_SNAP_INC_HI => ⟨0x100068, [], 0x00000000, 0x0, 0x0, 0x0, 0x0, 0x0⟩
  | .DTM_SNAP_INC_LO => ⟨0x10006C, [], 0x00000000, 0x0, 0x0, 0x0, 0x0, 0x0⟩
  | .DTM_SNAP_INFO => ⟨0x100070, [], 0x00000000, 0x0, 0x0, 0x0, 0x0, 0x0⟩
  | .DTM_STEP_SEC_HI => ⟨0x100080, [], 0x00000000, 0xFFFFFFFF, 0x0, 0x0, 0x0, 0x0⟩
  | .DTM_STEP_SEC_LO => ⟨0x100084, [], 0x00000000, 0xFFFFFFFF, 0x0, 0x0, 0x0, 0x0⟩
  | .DTM_STEP_NS => ⟨0x100088, [], 0x00000000, 0xFFFFFFFF, 0x0, 0x0, 0x0, 0x0⟩
  | .DTM_STEP_FRAC => ⟨0x10008C, [], 0x00000000, 0xFFFFFFFF, 0x0, 0x0, 0x0, 0x0⟩
  | .DTM_STEP_EARLY => ⟨0x100090, [], 0xFFFFFFFF, 0xFFFFFFFF, 0x0, 0x0, 0x0, 0x0⟩
  | .DTM_STEP_LATE => ⟨0x100094, [], 0xFFFFFFFF, 0xFFFFFFFF, 0x0, 0x0, 0x0, 0x0⟩
  | .DTM_STEP_CTL => ⟨0x100098, [], 0x00000000, 0x0, 0x1, 0x0, 0x0, 0x0⟩
  | .DTM_UTC_OFFSET => ⟨0x1000A0, [], 0x00000000, 0x0, 0x8000FFFF, 0x0, 0x0, 0x0⟩
  | .DTM_LEAP_AT_HI => ⟨0x1000A4, [], 0x00000000, 0xFFFFFFFF, 0x0, 0x0, 0x0, 0x0⟩
  | .DTM_LEAP_AT_LO => ⟨0x1000A8, [], 0x00000000, 0xFFFFFFFF, 0x0, 0x0, 0x0, 0x0⟩
  | .DTM_LEAP_CTL => ⟨0x1000AC, [], 0x00000000, 0x0, 0xC000FFFF, 0x0, 0x0, 0x0⟩
  | .DTM_UTC_STAT => ⟨0x1000B0, [], 0x00000000, 0x0, 0x0, 0x0, 0x0, 0x0⟩
  | .DTM_TL_USED => ⟨0x1000C0, [], 0x00000000, 0x0, 0x0, 0x0, 0x0, 0x0⟩
  | .DTM_TL_PEAK => ⟨0x1000C4, [], 0x00000000, 0x0, 0x0, 0x0, 0x0, 0x0⟩
  | .DTM_TL_LATE => ⟨0x1000C8, [], 0x00000000, 0x0, 0x0, 0x0, 0x0, 0x0⟩
  | .DTM_TL_REFUSED => ⟨0x1000CC, [], 0x00000000, 0x0, 0x0, 0x0, 0x0, 0x0⟩
  | .DTM_TL_WITHDRAWN => ⟨0x1000D0, [], 0x00000000, 0x0, 0x0, 0x0, 0x0, 0x0⟩
  | .DTM_TL_STEPPED => ⟨0x1000D4, [], 0x00000000, 0x0, 0x0, 0x0, 0x0, 0x0⟩
  | .DTM_CHECK => ⟨0x1000E0, [], 0x00000000, 0x0, 0x0, 0x0, 0x0, 0x0⟩
  | .STK_THR_STAT => ⟨0x600000, [(128, 0x1000), (4, 0x4)], 0x00000000, 0x0, 0x0, 0x0, 0x0, 0x0⟩
  | .STK_ABORT => ⟨0x600010, [(128, 0x1000)], 0x00000000, 0x0, 0x0, 0xF0, 0xF, 0x0⟩
  | .STK_RESTART => ⟨0x600014, [(128, 0x1000)], 0x00000000, 0x0, 0x0, 0x0, 0xF, 0x0⟩
  | .STK_PMC_USER_EN => ⟨0x600020, [(128, 0x1000)], 0x00000000, 0xF, 0x0, 0x0, 0x0, 0x0⟩
  | .STK_IMG_ID_HI => ⟨0x600030, [(128, 0x1000)], 0x00000000, 0x0, 0x0, 0x0, 0x0, 0x0⟩
  | .STK_IMG_ID_LO => ⟨0x600034, [(128, 0x1000)], 0x00000000, 0x0, 0x0, 0x0, 0x0, 0x0⟩
  | .STK_IMG_VER => ⟨0x600038, [(128, 0x1000)], 0x00000000, 0x0, 0x0, 0x0, 0x0, 0x0⟩
  | .STK_NOTICE_DROP => ⟨0x600040, [(128, 0x1000)], 0x00000000, 0x0, 0x0, 0x0, 0x0, 0x0⟩
  | .STK_DMP_VIOL => ⟨0x600044, [(128, 0x1000)], 0x00000000, 0x0, 0x0, 0x0, 0x0, 0x0⟩
  | .TIC_WSTAT => ⟨0x110000, [], 0x00000000, 0x0, 0x0, 0xF, 0x0, 0x0⟩
  | .TIC_CAL_HITS => ⟨0x110004, [], 0x00000016, 0x0, 0x1F, 0x0, 0x0, 0x0⟩
  | .TIC_RECAL => ⟨0x110008, [], 0x0E10001E, 0x0, 0xFFFF00FF, 0x0, 0x0, 0x0⟩
  | .TIC_KX_AGE => ⟨0x11000C, [], 0x00000000, 0xFFFFFFFF, 0x0, 0x0, 0x0, 0x0⟩
  | .TIC_KX_OFS => ⟨0x110010, [], 0x00000000, 0xFFFFFFFF, 0x0, 0x0, 0x0, 0x0⟩
  | .TIC_KX_DEV => ⟨0x110014, [], 0x80000000, 0x0, 0x0, 0x0, 0x0, 0x0⟩
  | .TIC_KX_ALARM => ⟨0x110018, [], 0x0000C350, 0x0, 0xFFFFFFFF, 0x0, 0x0, 0x0⟩
  | .TIC_IN => ⟨0x110100, [(16, 0x40)], 0x08000000, 0x9C0F0000, 0x0, 0x0, 0x0, 0x0⟩
  | .TIC_CFG => ⟨0x110104, [(16, 0x40)], 0x400F0000, 0x700F0000, 0x0, 0x0, 0x80000000, 0x0⟩
  | .TIC_OS => ⟨0x110108, [(16, 0x40)], 0x000003E8, 0xFFFFFFF, 0x0, 0x0, 0x80000000, 0x0⟩
  | .TIC_STAT => ⟨0x11010C, [(16, 0x40)], 0x20000000, 0x0, 0x0, 0x0, 0x0, 0x0⟩
  | .TIC_RING_LO => ⟨0x110110, [(16, 0x40)], 0x00000000, 0xFFFFFFFF, 0x0, 0x0, 0x0, 0x0⟩
  | .TIC_RING_HI => ⟨0x110114, [(16, 0x40)], 0x00000000, 0xFFFFFFFF, 0x0, 0x0, 0x0, 0x0⟩
  | .TIC_RING_SZ => ⟨0x110118, [(16, 0x40)], 0x00000000, 0xF, 0x0, 0x0, 0x0, 0x0⟩
  | .TIC_PROD => ⟨0x11011C, [(16, 0x40)], 0x00000000, 0x0, 0x0, 0x0, 0x0, 0x0⟩
  | .TIC_CONS => ⟨0x110120, [(16, 0x40)], 0x00000000, 0xFFFFFFFF, 0x0, 0x0, 0x0, 0x0⟩
  | .TIC_DELAY => ⟨0x110124, [(16, 0x40)], 0x00000000, 0xFFFFFFFF, 0x0, 0x0, 0x0, 0x0⟩
  | .TIC_DELAY_U => ⟨0x110128, [(16, 0x40)], 0x00000000, 0xFFFFFFFF, 0x0, 0x0, 0x0, 0x0⟩
  | .TIC_SKIP => ⟨0x11012C, [(16, 0x40)], 0x00000000, 0x0, 0x0, 0x0, 0x0, 0x0⟩
  | .TIC_DROP => ⟨0x110130, [(16, 0x40)], 0x00000000, 0x0, 0x0, 0x0, 0x0, 0x0⟩
  | .TIC_CALSTAT => ⟨0x110134, [(16, 0x40)], 0x00000000, 0x0, 0x0, 0x0, 0x0, 0x0⟩
  | .TIC_BIN => ⟨0x114000, [(17, 0x800), (512, 0x4)], 0x00000000, 0x0, 0x0, 0x0, 0x0, 0x0⟩
  | .ENS_STAT => ⟨0x120000, [], 0x80000000, 0x0, 0x0, 0x0, 0x0, 0x0⟩
  | .ENS_WSTAT => ⟨0x120004, [], 0x00000000, 0x0, 0x0, 0x7F, 0x0, 0x0⟩
  | .ENS_QUAL => ⟨0x120008, [], 0x000A0002, 0x0, 0xFFFF00FF, 0x0, 0x0, 0x0⟩
  | .ENS_LOSS => ⟨0x12000C, [], 0x0003000A, 0x0, 0xFFFFFFFF, 0x0, 0x0, 0x0⟩
  | .ENS_TRI => ⟨0x120010, [], 0x00640302, 0x0, 0xFFFFFFFF, 0x0, 0x0, 0x0⟩
  | .ENS_TRI_DRIFT => ⟨0x120014, [], 0x00000500, 0x0, 0xFFFFFFFF, 0x0, 0x0, 0x0⟩
  | .ENS_BANK_AT_HI => ⟨0x120018, [], 0x00000000, 0x0, 0x0, 0x0, 0x0, 0x0⟩
  | .ENS_BANK_AT_LO => ⟨0x12001C, [], 0x00000000, 0x0, 0x0, 0x0, 0x0, 0x0⟩
  | .ENS_HOLD_CTL => ⟨0x120020, [], 0x00A80000, 0x0, 0x87FFFFFF, 0x0, 0x0, 0x0⟩
  | .ENS_HOLD_Y0 => ⟨0x120024, [], 0x00000000, 0x0, 0x0, 0x0, 0x0, 0x0⟩
  | .ENS_HOLD_AGE => ⟨0x120028, [], 0x00000000, 0x0, 0x0, 0x0, 0x0, 0x0⟩
  | .ENS_HOLD_TC => ⟨0x12002C, [], 0x00000000, 0x0, 0x0, 0x0, 0x0, 0x0⟩
  | .ENS_HOLD_UY => ⟨0x120030, [], 0xFFFFFFFF, 0x0, 0x0, 0x0, 0x0, 0x0⟩
  | .ENS_HOLD_UA => ⟨0x120034, [], 0xFFFFFFFF, 0x0, 0x0, 0x0, 0x0, 0x0⟩
  | .ENS_HOLD_UC => ⟨0x120038, [], 0xFFFFFFFF, 0x0, 0x0, 0x0, 0x0, 0x0⟩
  | .ENS_HOLD_RES => ⟨0x12003C, [], 0xFFFFFFFF, 0x0, 0x0, 0x0, 0x0, 0x0⟩
  | .ENS_HOLD_PRED => ⟨0x120040, [], 0x00000000, 0x0, 0x0, 0x0, 0x0, 0x0⟩
  | .ENS_HOLD_DEF_UY => ⟨0x120044, [], 0x77359400, 0x0, 0xFFFFFFFF, 0x0, 0x0, 0x0⟩
  | .ENS_HOLD_DEF_UA => ⟨0x120048, [], 0x004C4B40, 0x0, 0xFFFFFFFF, 0x0, 0x0, 0x0⟩
  | .ENS_TSNS_CFG => ⟨0x12004C, [], 0x4800800A, 0x0, 0xFFFFF0FF, 0x0, 0x0, 0x0⟩
  | .ENS_TSNS_T => ⟨0x120050, [], 0x00000000, 0x0, 0x0, 0x0, 0x0, 0x0⟩
  | .ENS_OSC_CFG => ⟨0x120060, [(2, 0x10)], 0x00180000, 0x0, 0xF0FF0000, 0x0, 0x0, 0x0⟩
  | .ENS_OSC_GAIN => ⟨0x120064, [(2, 0x10)], 0x00000000, 0x0, 0xFFFFFFFF, 0x0, 0x0, 0x0⟩
  | .ENS_OSC_REF => ⟨0x120068, [(2, 0x10)], 0x00000000, 0x0, 0xFFFFFFFF, 0x0, 0x0, 0x0⟩
  | .ENS_OSC_LAST => ⟨0x12006C, [(2, 0x10)], 0x00000000, 0x0, 0x0, 0x0, 0x0, 0x0⟩
  | .ENS_EPH_HI => ⟨0x120080, [], 0x00000000, 0x0, 0x0, 0x0, 0x0, 0x0⟩
  | .ENS_EPH_LO => ⟨0x120084, [], 0x00000000, 0x0, 0x0, 0x0, 0x0, 0x0⟩
  | .ENS_EPH_EARLY => ⟨0x120088, [], 0xFFFFFFFF, 0x0, 0x0, 0x0, 0x0, 0x0⟩
  | .ENS_EPH_LATE => ⟨0x12008C, [], 0xFFFFFFFF, 0x0, 0x0, 0x0, 0x0, 0x0⟩
  | .ENS_POL0 => ⟨0x120090, [], 0x00070080, 0xFFFFFFFF, 0x0, 0x0, 0x0, 0x0⟩
  | .ENS_POL1 => ⟨0x120094, [], 0x005A0004, 0xFFFFFFFF, 0x0, 0x0, 0x0, 0x0⟩
  | .ENS_POL2 => ⟨0x120098, [], 0x00000000, 0xFFFFFFFF, 0x0, 0x0, 0x0, 0x0⟩
  | .ENS_POL3 => ⟨0x12009C, [], 0x00000000, 0xFFFFFFFF, 0x0, 0x0, 0x0, 0x0⟩
  | .ENS_REF_CFG => ⟨0x120100, [(32, 0x40)], 0x000003E8, 0x0, 0xFFE7FFFF, 0x0, 0x0, 0x0⟩
  | .ENS_REF_STATE => ⟨0x120104, [(32, 0x40)], 0x00000000, 0x0, 0x0, 0x0, 0x0, 0x0⟩
  | .ENS_REF_LAST_AT => ⟨0x120134, [(32, 0x40)], 0x00000000, 0x0, 0x0, 0x0, 0x0, 0x0⟩
  | .ENS_REF_FREQ => ⟨0x120108, [(32, 0x40)], 0x00000001, 0x0, 0xFFFFFFFF, 0x0, 0x0, 0x0⟩
  | .ENS_REF_OFS => ⟨0x12010C, [(32, 0x40)], 0x00000000, 0x0, 0xFFFFFFFF, 0x0, 0x0, 0x0⟩
  | .ENS_REF_ACC => ⟨0x120110, [(32, 0x40)], 0xFFFFFFFF, 0x0, 0xFFFFFFFF, 0x0, 0x0, 0x0⟩
  | .ENS_REF_YACC => ⟨0x120114, [(32, 0x40)], 0xFFFFFFFF, 0x0, 0xFFFFFFFF, 0x0, 0x0, 0x0⟩
  | .ENS_REF_YAGE => ⟨0x120118, [(32, 0x40)], 0xFFFFFFFF, 0x0, 0xFFFFFFFF, 0x0, 0x0, 0x0⟩
  | .ENS_REF_YMAX => ⟨0x120138, [(32, 0x40)], 0x000F4240, 0x0, 0xFFFFFFFF, 0x0, 0x0, 0x0⟩
  | .ENS_REF_WEIGHT => ⟨0x12011C, [(32, 0x40)], 0x00000000, 0xFFFF, 0x0, 0x0, 0x0, 0x0⟩
  | .ENS_REF_CMD => ⟨0x120130, [(32, 0x40)], 0x00000000, 0x0, 0x1, 0x0, 0x0, 0x0⟩
  | .ENS_REF_PHASE_HI => ⟨0x120120, [(32, 0x40)], 0x00000000, 0x0, 0x0, 0x0, 0x0, 0x0⟩
  | .ENS_REF_PHASE_LO => ⟨0x120124, [(32, 0x40)], 0x00000000, 0x0, 0x0, 0x0, 0x0, 0x0⟩
  | .ENS_REF_PHASE_EARLY => ⟨0x120128, [(32, 0x40)], 0xFFFFFFFF, 0x0, 0x0, 0x0, 0x0, 0x0⟩
  | .ENS_REF_PHASE_LATE => ⟨0x12012C, [(32, 0x40)], 0xFFFFFFFF, 0x0, 0x0, 0x0, 0x0, 0x0⟩
  | .ENS_NET_SEC => ⟨0x121000, [(16, 0x20)], 0x00000000, 0xFFFFFFFF, 0x0, 0x0, 0x0, 0x0⟩
  | .ENS_NET_NS => ⟨0x121004, [(16, 0x20)], 0x00000000, 0xFFFFFFFF, 0x0, 0x0, 0x0, 0x0⟩
  | .ENS_NET_FRAC => ⟨0x121008, [(16, 0x20)], 0x00000000, 0xFFFFFFFF, 0x0, 0x0, 0x0, 0x0⟩
  | .ENS_NET_EARLY => ⟨0x12100C, [(16, 0x20)], 0xFFFFFFFF, 0xFFFFFFFF, 0x0, 0x0, 0x0, 0x0⟩
  | .ENS_NET_LATE => ⟨0x121010, [(16, 0x20)], 0xFFFFFFFF, 0xFFFFFFFF, 0x0, 0x0, 0x0, 0x0⟩
  | .ENS_NET_AT => ⟨0x121014, [(16, 0x20)], 0x00000000, 0xFFFFFFFF, 0x0, 0x0, 0x0, 0x0⟩
  | .ENS_NET_GO => ⟨0x121018, [(16, 0x20)], 0x00000000, 0x0, 0x0, 0x0, 0x1, 0x0⟩
  | .ENS_ADEV => ⟨0x122000, [(32, 0x80), (17, 0x4)], 0x00000000, 0x0, 0x0, 0x0, 0x0, 0x0⟩
  | .TRV_STAT => ⟨0x130000, [], 0xF8FE0104, 0x0, 0x0, 0x0, 0x0, 0x0⟩
  | .TRV_WSTAT => ⟨0x130004, [], 0x00000000, 0x0, 0x0, 0x3, 0x0, 0x0⟩
  | .TRV_DATUM_EARLY => ⟨0x130008, [], 0xFFFFFFFF, 0x0, 0x0, 0x0, 0x0, 0x0⟩
  | .TRV_DATUM_LATE => ⟨0x13000C, [], 0xFFFFFFFF, 0x0, 0x0, 0x0, 0x0, 0x0⟩
  | .TRV_ACCEPT_EARLY => ⟨0x130010, [], 0x00000000, 0x0, 0x0, 0x0, 0x0, 0x0⟩
  | .TRV_ACCEPT_LATE => ⟨0x130014, [], 0x00000000, 0x0, 0x0, 0x0, 0x0, 0x0⟩
  | .TRV_HOLD_EARLY => ⟨0x130018, [], 0x00000000, 0x0, 0x0, 0x0, 0x0, 0x0⟩
  | .TRV_HOLD_LATE => ⟨0x13001C, [], 0x00000000, 0x0, 0x0, 0x0, 0x0, 0x0⟩
  | .TRV_COAST => ⟨0x130020, [], 0x00000000, 0x0, 0x0, 0x0, 0x0, 0x0⟩
  | .TRV_PROJ_YMIN => ⟨0x130024, [], 0x00002710, 0x0, 0xFFFFFFFF, 0x0, 0x0, 0x0⟩
  | .TRV_COAST_Y => ⟨0x130028, [], 0x1DCD6500, 0x0, 0xFFFFFFFF, 0x0, 0x0, 0x0⟩
  | .TRV_RES_Y => ⟨0x13002C, [], 0x004C4B40, 0x0, 0xFFFFFFFF, 0x0, 0x0, 0x0⟩
  | .TRV_CC_T6 => ⟨0x130030, [], 0x00006400, 0x0, 0xFFFFFFFF, 0x0, 0x0, 0x0⟩
  | .TRV_CC_T7 => ⟨0x130034, [], 0x0003E800, 0x0, 0xFFFFFFFF, 0x0, 0x0, 0x0⟩
  | .TRV_CC_T140 => ⟨0x130038, [], 0x00271000, 0x0, 0xFFFFFFFF, 0x0, 0x0, 0x0⟩
  | .TRV_CC_T150 => ⟨0x13003C, [], 0x0186A000, 0x0, 0xFFFFFFFF, 0x0, 0x0, 0x0⟩
  | .TRV_CC_T160 => ⟨0x130040, [], 0x0F424000, 0x0, 0xFFFFFFFF, 0x0, 0x0, 0x0⟩
  | .TRV_CC_CTL => ⟨0x130044, [], 0x0000000A, 0x0, 0x3FF, 0x0, 0x0, 0x0⟩
  | .TRV_BMK_CTL => ⟨0x130050, [], 0x0000003C, 0x0, 0xFFF, 0x0, 0x0, 0x0⟩
  | .TRV_JNL_SEQ_HI => ⟨0x130054, [], 0x00000000, 0x0, 0x0, 0x0, 0x0, 0x0⟩
  | .TRV_JNL_SEQ_LO => ⟨0x130058, [], 0x00000000, 0x0, 0x0, 0x0, 0x0, 0x0⟩
  | .TRV_JNL_OLD_HI => ⟨0x13005C, [], 0x00000000, 0x0, 0x0, 0x0, 0x0, 0x0⟩
  | .TRV_JNL_OLD_LO => ⟨0x130060, [], 0x00000000, 0x0, 0x0, 0x0, 0x0, 0x0⟩
  | .TRV_JNL_ACK_HI => ⟨0x130064, [], 0x00000000, 0xFFFFFFFF, 0x0, 0x0, 0x0, 0x0⟩
  | .TRV_JNL_ACK_LO => ⟨0x130068, [], 0x00000000, 0xFFFFFFFF, 0x0, 0x0, 0x0, 0x0⟩
  | .TRV_JNL_LOST => ⟨0x13006C, [], 0x00000000, 0x0, 0x0, 0x0, 0x0, 0x0⟩
  | .TRV_OUT_EARLY => ⟨0x130100, [(16, 0x8)], 0xFFFFFFFF, 0x0, 0x0, 0x0, 0x0, 0x0⟩
  | .TRV_OUT_LATE => ⟨0x130104, [(16, 0x8)], 0xFFFFFFFF, 0x0, 0x0, 0x0, 0x0, 0x0⟩
  | .SYN_STAT => ⟨0x140000, [], 0x00000000, 0x0, 0x0, 0x0, 0x0, 0x0⟩
  | .SYN_WSTAT => ⟨0x140004, [], 0x00000000, 0x0, 0x0, 0x3F, 0x0, 0x0⟩
  | .SYN_LOCKA_CTL => ⟨0x140008, [], 0x0000E000, 0x0, 0xFFFF, 0x0, 0x0, 0x0⟩
  | .SYN0_SRC => ⟨0x14000C, [], 0x8000010A, 0x0, 0xF3FFFFFF, 0x0, 0x0, 0x0⟩
  | .SYN0_SRC_FREQ => ⟨0x140010, [], 0x02FAF080, 0x0, 0xFFFFFFFF, 0x0, 0x0, 0x0⟩
  | .SYN_SYNC_CTL => ⟨0x140014, [], 0x00000000, 0xC0FFFFFF, 0x0, 0x0, 0x0, 0x0⟩
  | .SYN_SYNC_STAT => ⟨0x140018, [], 0x00000000, 0x0, 0x0, 0x0, 0x0, 0x0⟩
  | .SYN_SYNC_AT => ⟨0x14001C, [], 0x00000000, 0x0, 0x0, 0x0, 0x0, 0x0⟩
  | .SYN_CFG => ⟨0x140100, [(16, 0x40)], 0x00000000, 0xFFFC0000, 0x0, 0x0, 0x0, 0x0⟩
  | .SYN_FCW_INT => ⟨0x140104, [(16, 0x40)], 0x000000FA, 0xFFFF, 0x0, 0x0, 0x0, 0x0⟩
  | .SYN_FCW_NUM => ⟨0x140108, [(16, 0x40)], 0x00000000, 0xFFFFFFFF, 0x0, 0x0, 0x0, 0x0⟩
  | .SYN_FCW_DEN => ⟨0x14010C, [(16, 0x40)], 0x00000001, 0xFFFFFFFF, 0x0, 0x0, 0x0, 0x0⟩
  | .SYN_LOCK => ⟨0x140110, [(16, 0x40)], 0xA3E80064, 0xFFFF0FFF, 0x0, 0x0, 0x0, 0x0⟩
  | .SYN_LSTAT => ⟨0x140114, [(16, 0x40)], 0x00000000, 0x0, 0x0, 0x0, 0x0, 0x0⟩
  | .SYN_PHERR => ⟨0x140118, [(16, 0x40)], 0x00000000, 0x0, 0x0, 0x0, 0x0, 0x0⟩
  | .SYN_PHASE => ⟨0x14011C, [(16, 0x40)], 0x00000000, 0xFFFFFFFF, 0x0, 0x0, 0x0, 0x0⟩
  | .SYN_PULL => ⟨0x140120, [(16, 0x40)], 0x00002710, 0xFFFFFFFF, 0x0, 0x0, 0x0, 0x0⟩
  | .SYN_CMD => ⟨0x140124, [(16, 0x40)], 0x00000000, 0x0, 0x0, 0x0, 0x3, 0x0⟩
  | .SYN_COASTS => ⟨0x140128, [(16, 0x40)], 0x00000000, 0x0, 0x0, 0x0, 0x0, 0x0⟩
  | .SYN_OUT_CFG => ⟨0x140800, [(24, 0x10)], 0x00000000, 0xF0000000, 0x0, 0x0, 0x0, 0x0⟩
  | .SYN_OUT_DIV_HI => ⟨0x140804, [(24, 0x10)], 0x00000000, 0x1, 0x0, 0x0, 0x0, 0x0⟩
  | .SYN_OUT_DIV_LO => ⟨0x140808, [(24, 0x10)], 0x00000028, 0xFFFFFFFF, 0x0, 0x0, 0x0, 0x0⟩
  | .SYN_OUT_STAT => ⟨0x14080C, [(24, 0x10)], 0x00000000, 0x0, 0x0, 0x0, 0x0, 0x0⟩
  | .SYN_PPS_CFG => ⟨0x140A00, [(4, 0x10)], 0x000186A0, 0xFF0FFFFF, 0x0, 0x0, 0x0, 0x0⟩
  | .SYN_PPS_COMP => ⟨0x140A04, [(4, 0x10)], 0x00000000, 0x0, 0xFFFFFFFF, 0x0, 0x0, 0x0⟩
  | .SYN_PPS_CF => ⟨0x140A08, [(4, 0x10)], 0x00000000, 0x7FFFFFF, 0x0, 0x0, 0x0, 0x0⟩
  | .SYN_PPS_STAT => ⟨0x140A0C, [(4, 0x10)], 0x00000000, 0x0, 0x0, 0x0, 0x0, 0x0⟩
  | .SYN_TOD_CFG => ⟨0x140A80, [(2, 0x10)], 0x10010000, 0xFFFF0000, 0x0, 0x0, 0x0, 0x0⟩
  | .SYN_HOP => ⟨0x144000, [(16, 0x200), (32, 0x10), (4, 0x4)], 0x00000000, 0x0, 0x0, 0x0, 0x0, 0x0⟩
  | .GNS_STAT => ⟨0x200000, [], 0x00000000, 0x0, 0x0, 0x0, 0x0, 0x0⟩
  | .GNS_WSTAT => ⟨0x200004, [], 0x00000000, 0x0, 0x0, 0xF, 0x0, 0x0⟩
  | .GNS_TIME_FLOOR_HI => ⟨0x200008, [], 0x00000000, 0x0, 0xFFFFFFFF, 0x0, 0x0, 0x0⟩
  | .GNS_TIME_FLOOR_LO => ⟨0x20000C, [], 0x00000000, 0x0, 0xFFFFFFFF, 0x0, 0x0, 0x0⟩
  | .GNS_TRK => ⟨0x200010, [], 0x8065E28A, 0x0, 0xFFFFFFFF, 0x0, 0x0, 0x0⟩
  | .GNS_RAIM => ⟨0x200014, [], 0x3230003C, 0x0, 0xFFF0FFFF, 0x0, 0x0, 0x0⟩
  | .GNS_ACQ_CTL => ⟨0x200018, [], 0x0000000A, 0x0, 0x400000FF, 0x0, 0x80000000, 0x0⟩
  | .GNS_AUD_CTL => ⟨0x200020, [], 0x0A860258, 0x0, 0xFFFFFFFF, 0x0, 0x0, 0x0⟩
  | .GNS_AUD_STAT => ⟨0x200024, [], 0x00000000, 0x0, 0x0, 0x0, 0x0, 0x0⟩
  | .GNS_AUD_THR => ⟨0x200028, [], 0x0000012C, 0x0, 0xFFFF, 0x0, 0x0, 0x0⟩
  | .GNS_SNAP_CTL => ⟨0x200030, [], 0x0000000A, 0x7800007F, 0x0, 0x0, 0x80000000, 0x0⟩
  | .GNS_SNAP_STAT => ⟨0x200034, [], 0x00000000, 0x0, 0x0, 0x0, 0x0, 0x0⟩
  | .GNS_SNAP_SEC_HI => ⟨0x200038, [], 0x00000000, 0x0, 0x0, 0x0, 0x0, 0x0⟩
  | .GNS_SNAP_SEC_LO => ⟨0x20003C, [], 0x00000000, 0x0, 0x0, 0x0, 0x0, 0x0⟩
  | .GNS_SNAP_NS => ⟨0x200040, [], 0x00000000, 0x0, 0x0, 0x0, 0x0, 0x0⟩
  | .GNS_SYS_OFS => ⟨0x200050, [(4, 0x8)], 0x00000000, 0x0, 0xFFFFFFFF, 0x0, 0x0, 0x0⟩
  | .GNS_SYS_U => ⟨0x200054, [(4, 0x8)], 0xFFFFFFFF, 0x0, 0xFFFFFFFF, 0x0, 0x0, 0x0⟩
  | .GNS_CTL_CFG => ⟨0x200070, [], 0x00180000, 0x0, 0xE0FF0000, 0x0, 0x0, 0x0⟩
  | .GNS_CTL_TX => ⟨0x200074, [], 0x00000000, 0x0, 0xFFFFFFFF, 0x0, 0x0, 0x0⟩
  | .GNS_CTL_CMD => ⟨0x200078, [], 0x00000008, 0x0, 0x8000033F, 0x0, 0x0, 0x0⟩
  | .GNS_CTL_RX => ⟨0x20007C, [], 0x00000000, 0x0, 0x0, 0x0, 0x0, 0x0⟩
  | .GNS_CTL_STAT => ⟨0x200080, [], 0x00000000, 0x0, 0x0, 0x0, 0x0, 0x0⟩
  | .GNS_SP_CFG => ⟨0x200100, [(4, 0x10)], 0x03C00000, 0x0, 0xFFF00000, 0x0, 0x0, 0x0⟩
  | .GNS_SP_RATE => ⟨0x200104, [(4, 0x10)], 0x04E0C780, 0x0, 0xFFFFFFFF, 0x0, 0x0, 0x0⟩
  | .GNS_SP_FC => ⟨0x200108, [(4, 0x10)], 0x00182B80, 0x0, 0xFFFFFFFF, 0x0, 0x0, 0x0⟩
  | .GNS_SP_STAT => ⟨0x20010C, [(4, 0x10)], 0x00000000, 0x0, 0x0, 0x0, 0x0, 0x0⟩
  | .GNS_ANT_CFG => ⟨0x200200, [(4, 0x40)], 0x00600000, 0x0, 0xFFFE01FF, 0x0, 0x0, 0x0⟩
  | .GNS_ANT_STAT => ⟨0x200204, [(4, 0x40)], 0x00000000, 0x0, 0x0, 0x0, 0x0, 0x0⟩
  | .GNS_ANT_POS_X => ⟨0x200208, [(4, 0x40)], 0x00000000, 0x0, 0xFFFFFFFF, 0x0, 0x0, 0x0⟩
  | .GNS_ANT_POS_Y => ⟨0x20020C, [(4, 0x40)], 0x00000000, 0x0, 0xFFFFFFFF, 0x0, 0x0, 0x0⟩
  | .GNS_ANT_POS_Z => ⟨0x200210, [(4, 0x40)], 0x00000000, 0x0, 0xFFFFFFFF, 0x0, 0x0, 0x0⟩
  | .GNS_ANT_POS_U => ⟨0x200214, [(4, 0x40)], 0xFFFFFFFF, 0x0, 0xFFFFFFFF, 0x0, 0x0, 0x0⟩
  | .GNS_ANT_DELAY => ⟨0x200218, [(4, 0x40)], 0x00000000, 0x0, 0xFFFFFFFF, 0x0, 0x0, 0x0⟩
  | .GNS_ANT_DELAY_U => ⟨0x20021C, [(4, 0x40)], 0xFFFFFFFF, 0x0, 0xFFFFFFFF, 0x0, 0x0, 0x0⟩
  | .GNS_ANT_MP => ⟨0x200220, [(4, 0x40)], 0xFFFFFFFF, 0x0, 0xFFFFFFFF, 0x0, 0x0, 0x0⟩
  | .GNS_ANT_SURV => ⟨0x200224, [(4, 0x40)], 0x05A0012C, 0x0, 0xFFFFFFFF, 0x0, 0x0, 0x0⟩
  | .GNS_ANT_EARLY => ⟨0x200228, [(4, 0x40)], 0xFFFFFFFF, 0x0, 0x0, 0x0, 0x0, 0x0⟩
  | .GNS_ANT_LATE => ⟨0x20022C, [(4, 0x40)], 0xFFFFFFFF, 0x0, 0x0, 0x0, 0x0, 0x0⟩
  | .GNS_CH_STAT => ⟨0x201000, [(192, 0x4)], 0x00000000, 0x0, 0x0, 0x0, 0x0, 0x0⟩
  | .PRT_CFG => ⟨0x400000, [(64, 0x1000)], 0x32000000, 0xFF000000, 0x0, 0x0, 0x0, 0x0⟩
  | .PRT_STAT => ⟨0x400004, [(64, 0x1000)], 0x00000000, 0x0, 0x0, 0x0, 0x0, 0x0⟩
  | .PRT_WSTAT => ⟨0x400008, [(64, 0x1000)], 0x00000000, 0x0, 0x0, 0x1, 0x0, 0x0⟩
  | .PRT_MAXFRAME => ⟨0x40000C, [(64, 0x1000)], 0x000005F2, 0x3FFF, 0x0, 0x0, 0x0, 0x0⟩
  | .PRT_LAUNCH_GUARD => ⟨0x400010, [(64, 0x1000)], 0x00000000, 0xFFFF, 0x0, 0x0, 0x0, 0x0⟩
  | .PRT_LPHASE => ⟨0x400014, [(64, 0x1000)], 0xFFFFFFFF, 0x0, 0x0, 0x0, 0x0, 0x0⟩
  | .PRT_PFC_MAP => ⟨0x400018, [(64, 0x1000)], 0x76543210, 0xFFFFFFFF, 0x0, 0x0, 0x0, 0x0⟩
  | .PRT_RXMAP0 => ⟨0x40001C, [(64, 0x1000)], 0x80808080, 0xFFFFFFFF, 0x0, 0x0, 0x0, 0x0⟩
  | .PRT_RXMAP1 => ⟨0x400020, [(64, 0x1000)], 0x80808080, 0xFFFFFFFF, 0x0, 0x0, 0x0, 0x0⟩
  | .PRT_CAL_CTL => ⟨0x400024, [(64, 0x1000)], 0x0000000A, 0x0, 0x800000FF, 0x0, 0x0, 0x0⟩
  | .PRT_CAL_TX => ⟨0x400028, [(64, 0x1000)], 0xFFFFFFFF, 0x0, 0x0, 0x0, 0x0, 0x0⟩
  | .PRT_CAL_RX => ⟨0x40002C, [(64, 0x1000)], 0xFFFFFFFF, 0x0, 0x0, 0x0, 0x0, 0x0⟩
  | .PRT_ASYM_CABLE => ⟨0x400030, [(64, 0x1000)], 0x00000000, 0x0, 0xFFFFFFFF, 0x0, 0x0, 0x0⟩
  | .PRT_ASYM_CABLE_U => ⟨0x400034, [(64, 0x1000)], 0xFFFFFFFF, 0x0, 0xFFFFFFFF, 0x0, 0x0, 0x0⟩
  | .PRT_RXPPM => ⟨0x400038, [(64, 0x1000)], 0x80000000, 0x0, 0x0, 0x0, 0x0, 0x0⟩
  | .PRT_PAUSE_END_SEC => ⟨0x40003C, [(64, 0x1000)], 0x00000000, 0x0, 0x0, 0x0, 0x0, 0x0⟩
  | .PRT_PAUSE_END_NS => ⟨0x400040, [(64, 0x1000)], 0x00000000, 0x0, 0x0, 0x0, 0x0, 0x0⟩
  | .PRT_RX_OK => ⟨0x400100, [(64, 0x1000)], 0x00000000, 0x0, 0x0, 0x0, 0x0, 0x0⟩
  | .PRT_RX_RUNT => ⟨0x400104, [(64, 0x1000)], 0x00000000, 0x0, 0x0, 0x0, 0x0, 0x0⟩
  | .PRT_RX_OVERSIZE => ⟨0x400108, [(64, 0x1000)], 0x00000000, 0x0, 0x0, 0x0, 0x0, 0x0⟩
  | .PRT_RX_FCS => ⟨0x40010C, [(64, 0x1000)], 0x00000000, 0x0, 0x0, 0x0, 0x0, 0x0⟩
  | .PRT_RX_OVF => ⟨0x400110, [(64, 0x1000)], 0x00000000, 0x0, 0x0, 0x0, 0x0, 0x0⟩
  | .PRT_RX_DROP => ⟨0x400114, [(64, 0x1000)], 0x00000000, 0x0, 0x0, 0x0, 0x0, 0x0⟩
  | .PRT_RX_NOTHREAD => ⟨0x400118, [(64, 0x1000)], 0x00000000, 0x0, 0x0, 0x0, 0x0, 0x0⟩
  | .PRT_RX_PAUSE => ⟨0x40011C, [(64, 0x1000)], 0x00000000, 0x0, 0x0, 0x0, 0x0, 0x0⟩
  | .PRT_TX_OK => ⟨0x400120, [(64, 0x1000)], 0x00000000, 0x0, 0x0, 0x0, 0x0, 0x0⟩
  | .PRT_TX_PAD => ⟨0x400124, [(64, 0x1000)], 0x00000000, 0x0, 0x0, 0x0, 0x0, 0x0⟩
  | .PRT_TX_LINKDROP => ⟨0x400128, [(64, 0x1000)], 0x00000000, 0x0, 0x0, 0x0, 0x0, 0x0⟩
  | .PRT_LAUNCH_OK => ⟨0x40012C, [(64, 0x1000)], 0x00000000, 0x0, 0x0, 0x0, 0x0, 0x0⟩
  | .PRT_LAUNCH_PAUSED => ⟨0x400130, [(64, 0x1000)], 0x00000000, 0x0, 0x0, 0x0, 0x0, 0x0⟩
  | .PRT_LAUNCH_COLL => ⟨0x400134, [(64, 0x1000)], 0x00000000, 0x0, 0x0, 0x0, 0x0, 0x0⟩
  | .PRT_LAUNCH_LOST => ⟨0x400138, [(64, 0x1000)], 0x00000000, 0x0, 0x0, 0x0, 0x0, 0x0⟩
  | .PRT_GUARD_HOLD => ⟨0x40013C, [(64, 0x1000)], 0x00000000, 0x0, 0x0, 0x0, 0x0, 0x0⟩
  | .SVC_STAT => ⟨0x500000, [], 0x00000000, 0x0, 0x0, 0x0, 0x0, 0x0⟩
  | .SVC_WSTAT => ⟨0x500004, [], 0x00000000, 0x0, 0x0, 0x1F, 0x0, 0x0⟩
  | .SVC_CTL => ⟨0x500008, [], 0x20000000, 0x0, 0xFC000000, 0x0, 0x0, 0x0⟩
  | .SVC_OPEN_BOUND => ⟨0x50000C, [], 0x0003E800, 0x0, 0xFFFFFFFF, 0x0, 0x0, 0x0⟩
  | .SVC_TABLE_LO => ⟨0x500010, [], 0x00000000, 0x0, 0xFFFFFFFF, 0x0, 0x0, 0x0⟩
  | .SVC_TABLE_HI => ⟨0x500014, [], 0x00000000, 0x0, 0xFFFFFFFF, 0x0, 0x0, 0x0⟩
  | .SVC_TABLE_CFG => ⟨0x500018, [], 0x0E100016, 0x0, 0xFFFF001F, 0x0, 0x0, 0x0⟩
  | .SVC_HASH_SEED => ⟨0x50001C, [], 0x00000000, 0x0, 0xFFFFFFFF, 0x0, 0x0, 0x0⟩
  | .SVC_CAP => ⟨0x500020, [], 0x00C042C0, 0x0, 0xFFFFFFFF, 0x0, 0x0, 0x0⟩
  | .SVC_SHED => ⟨0x500024, [], 0x5F550A0A, 0x0, 0xFFFFFFFF, 0x0, 0x0, 0x0⟩
  | .SVC_COST => ⟨0x500028, [], 0x01010401, 0x0, 0xFFFFFFFF, 0x0, 0x0, 0x0⟩
  | .SVC_GRANT => ⟨0x50002C, [], 0x012C0040, 0x0, 0xFFFF00FF, 0x0, 0x0, 0x0⟩
  | .SVC_KEYS => ⟨0x500030, [], 0x00000000, 0x0, 0xBFBFBF3F, 0x0, 0x0, 0x0⟩
  | .SVC_TLV_ORG => ⟨0x500034, [], 0x00000000, 0x0, 0xFFFFFF, 0x0, 0x0, 0x0⟩
  | .SVC_TLV_SUB => ⟨0x500038, [], 0x00000000, 0x0, 0xFFFFFF, 0x0, 0x0, 0x0⟩
  | .SVC_NTP_EF => ⟨0x50003C, [], 0x00000000, 0x0, 0xFFFF, 0x0, 0x0, 0x0⟩
  | .SVC_NTP_REFID => ⟨0x500040, [], 0x00000000, 0x0, 0xFFFFFFFF, 0x0, 0x0, 0x0⟩
  | .SVC_COOKIE_ID => ⟨0x500050, [(2, 0x8)], 0x00000000, 0x0, 0xFFFFFFFF, 0x0, 0x0, 0x0⟩
  | .SVC_COOKIE_SLOTS => ⟨0x500054, [(2, 0x8)], 0x00000000, 0x0, 0x8003FFFF, 0x0, 0x0, 0x0⟩
  | .SVC_TALLY => ⟨0x500060, [], 0x00000000, 0x0, 0x0, 0x0, 0xFFFFFFFF, 0x0⟩
  | .SVC_CLASS => ⟨0x500080, [(8, 0x4)], 0x10F90400, 0x0, 0xF0FFFF00, 0x0, 0x0, 0x0⟩
  | .SVC_PORT => ⟨0x500100, [(64, 0x4)], 0x00000000, 0x0, 0xFFFFFFCF, 0x0, 0x0, 0x0⟩
  | .SVC_LEVEL => ⟨0x500200, [(16, 0x8)], 0x00000000, 0xF, 0x0, 0x0, 0x0, 0x0⟩
  | .SVC_LOAD => ⟨0x500204, [(16, 0x8)], 0x00000000, 0xFFFFFFFF, 0x0, 0x0, 0x0, 0x0⟩
  | .SVC_CNT_ADMIT => ⟨0x500400, [(9, 0x10)], 0x00000000, 0x0, 0x0, 0x0, 0x0, 0x0⟩
  | .SVC_CNT_DELAY => ⟨0x500404, [(9, 0x10)], 0x00000000, 0x0, 0x0, 0x0, 0x0, 0x0⟩
  | .SVC_CNT_REFUSE => ⟨0x500408, [(9, 0x10)], 0x00000000, 0x0, 0x0, 0x0, 0x0, 0x0⟩
  | .SVC_CNT_AUTHFAIL => ⟨0x50040C, [(9, 0x10)], 0x00000000, 0x0, 0x0, 0x0, 0x0, 0x0⟩
  | .SVC_REISSUE_SYNC => ⟨0x500500, [], 0x00000000, 0x0, 0x0, 0x0, 0x0, 0x0⟩
  | .SVC_REISSUE_NTP => ⟨0x500504, [], 0x00000000, 0x0, 0x0, 0x0, 0x0, 0x0⟩
  | .SVC_TABLE_FULL => ⟨0x500508, [], 0x00000000, 0x0, 0x0, 0x0, 0x0, 0x0⟩
  | .SVC_NTS_NAK => ⟨0x50050C, [], 0x00000000, 0x0, 0x0, 0x0, 0x0, 0x0⟩
  | .SVC_REPLAY => ⟨0x500510, [], 0x00000000, 0x0, 0x0, 0x0, 0x0, 0x0⟩
  | .FLT_STAT => ⟨0x20000, [], 0x00000000, 0x0, 0x0, 0x0, 0x0, 0x0⟩
  | .FLT_WSTAT => ⟨0x20004, [], 0x00000000, 0x0, 0x0, 0xF, 0x0, 0x0⟩
  | .FLT_GRACE => ⟨0x20008, [], 0x00002710, 0x0, 0x1FFFFF, 0x0, 0x0, 0x0⟩
  | .FLT_PIN_HOLD => ⟨0x2000C, [], 0x00000000, 0x1, 0x0, 0x0, 0x0, 0x0⟩
  | .FLT_HANDLER => ⟨0x20010, [], 0x00000000, 0x0, 0x800001FF, 0x0, 0x0, 0x0⟩
  | .FLT_ESC => ⟨0x20014, [], 0x00000000, 0x0, 0x80000000, 0x0, 0x0, 0x0⟩
  | .FLT_ESC_CTL => ⟨0x20018, [], 0x00000003, 0x0, 0xF, 0x0, 0x0, 0x0⟩
  | .FLT_ESC_LAST => ⟨0x2001C, [], 0x00000000, 0x0, 0x0, 0x0, 0x0, 0x0⟩
  | .FLT_ESC_LAST_AT => ⟨0x20020, [], 0x00000000, 0x0, 0x0, 0x0, 0x0, 0x0⟩
  | .FLT_ACTIVE => ⟨0x20040, [(16, 0x4)], 0x00000000, 0x0, 0x0, 0x0, 0x0, 0x0⟩
  | .FLT_REC_STAT => ⟨0x28000, [(512, 0x40)], 0x00000000, 0x0, 0x0, 0x0, 0x0, 0x0⟩
  | .FLT_REC_CAUSE => ⟨0x28004, [(512, 0x40)], 0x00000000, 0x0, 0x0, 0x0, 0x0, 0x0⟩
  | .FLT_REC_SOURCE => ⟨0x28008, [(512, 0x40)], 0x00000000, 0x0, 0x0, 0x0, 0x0, 0x0⟩
  | .FLT_REC_DETAIL => ⟨0x2800C, [(512, 0x40)], 0x00000000, 0x0, 0x0, 0x0, 0x0, 0x0⟩
  | .FLT_REC_IMG_HI => ⟨0x28010, [(512, 0x40)], 0x00000000, 0x0, 0x0, 0x0, 0x0, 0x0⟩
  | .FLT_REC_IMG_LO => ⟨0x28014, [(512, 0x40)], 0x00000000, 0x0, 0x0, 0x0, 0x0, 0x0⟩
  | .FLT_REC_FIRST_SEC => ⟨0x28018, [(512, 0x40)], 0x00000000, 0x0, 0x0, 0x0, 0x0, 0x0⟩
  | .FLT_REC_FIRST_NS => ⟨0x2801C, [(512, 0x40)], 0x00000000, 0x0, 0x0, 0x0, 0x0, 0x0⟩
  | .FLT_REC_LAST_SEC => ⟨0x28020, [(512, 0x40)], 0x00000000, 0x0, 0x0, 0x0, 0x0, 0x0⟩
  | .FLT_REC_LAST_NS => ⟨0x28024, [(512, 0x40)], 0x00000000, 0x0, 0x0, 0x0, 0x0, 0x0⟩
  | .FLT_REC_CTL => ⟨0x28028, [(512, 0x40)], 0x00000000, 0x0, 0x0, 0x0, 0x3, 0x0⟩
  | .DMP_MAX_DFDT => ⟨0x40000, [], 0x00000064, 0x0, 0xFFFF, 0x0, 0x0, 0x0⟩
  | .DMP_FUSE => ⟨0x40004, [], 0x00000000, 0x0, 0x0, 0x0, 0x0, 0x0⟩
  | .DMP_WSTAT => ⟨0x40008, [], 0x00000000, 0x0, 0x0, 0x1, 0x0, 0x0⟩
  | .DMP_VIOL_TOTAL => ⟨0x4000C, [], 0x00000000, 0x0, 0x0, 0x0, 0x0, 0x0⟩
  | .DMP_LAST => ⟨0x40010, [], 0x00000000, 0x0, 0x0, 0x0, 0x0, 0x0⟩
  | .DMP_LAST_INSN => ⟨0x40014, [], 0x00000000, 0x0, 0x0, 0x0, 0x0, 0x0⟩
  | .DMP_LAST_AT => ⟨0x40018, [], 0x00000000, 0x0, 0x0, 0x0, 0x0, 0x0⟩
  | .DMP_OSC_MIN => ⟨0x40020, [(2, 0x10)], 0x00000000, 0x0, 0xFFFFFFFF, 0x0, 0x0, 0x0⟩
  | .DMP_OSC_MAX => ⟨0x40024, [(2, 0x10)], 0xFFFFFFFF, 0x0, 0xFFFFFFFF, 0x0, 0x0, 0x0⟩
  | .DMP_OSC_STEP => ⟨0x40028, [(2, 0x10)], 0x00000000, 0x0, 0xFFFFFFFF, 0x0, 0x0, 0x0⟩
  | .DMP_OSC_INTERVAL => ⟨0x4002C, [(2, 0x10)], 0x000003E8, 0x0, 0xFFFF, 0x0, 0x0, 0x0⟩
  | .DMP_QCEIL => ⟨0x41000, [(64, 0x20), (8, 0x4)], 0x10016E36, 0x0, 0xFFFFFFFF, 0x0, 0x0, 0x0⟩
  | .KEY_STAT => ⟨0x50000, [], 0x00000000, 0x0, 0x0, 0x0, 0x0, 0x0⟩
  | .KEY_WSTAT => ⟨0x50004, [], 0x00000000, 0x0, 0x0, 0x7, 0x0, 0x0⟩
  | .KEY_ABORT => ⟨0x50008, [], 0x00000000, 0x0, 0x0, 0x0, 0x1, 0x0⟩
  | .KEY_LAST => ⟨0x5000C, [], 0x00000000, 0x0, 0x0, 0x0, 0x0, 0x0⟩
  | .KEY_COUNTER_HI => ⟨0x50010, [], 0x00000000, 0x0, 0x0, 0x0, 0x0, 0x0⟩
  | .KEY_COUNTER_LO => ⟨0x50014, [], 0x00000000, 0x0, 0x0, 0x0, 0x0, 0x0⟩
  | .KEY_HGEN => ⟨0x50018, [], 0x00000000, 0x0, 0x0, 0x0, 0x0, 0x0⟩
  | .KEY_IDHASH => ⟨0x50040, [(12, 0x4)], 0x00000000, 0x0, 0x0, 0x0, 0x0, 0x0⟩
  | .KEY_OWNHASH => ⟨0x50080, [(12, 0x4)], 0x00000000, 0x0, 0x0, 0x0, 0x0, 0x0⟩
  | .KEY_SLOT => ⟨0x50100, [(64, 0x4)], 0x00000000, 0x0, 0x0, 0x0, 0x0, 0x0⟩
  | .IRQ_CTL => ⟨0x30000, [], 0x00000000, 0x80000000, 0x0, 0x0, 0x0, 0x0⟩
  | .IRQ_WSTAT => ⟨0x30004, [], 0x00000000, 0x0, 0x0, 0xF, 0x0, 0x0⟩
  | .IRQ_TIERS => ⟨0x30008, [], 0x00000004, 0xF, 0x0, 0x0, 0x0, 0x0⟩
  | .IRQ_TARGET_TIMEOUT => ⟨0x3000C, [], 0x000003E8, 0xFFFFF, 0x0, 0x0, 0x0, 0x0⟩
  | .IRQ_DOORBELL => ⟨0x30010, [], 0x00000000, 0x0, 0x0, 0x0, 0x1FF, 0x0⟩
  | .IRQ_PEND_SET => ⟨0x30014, [], 0x00000000, 0x0, 0x0, 0x0, 0x1FF, 0x0⟩
  | .IRQ_PEND_CLR => ⟨0x30018, [], 0x00000000, 0x0, 0x0, 0x0, 0x1FF, 0x0⟩
  | .IRQ_DB_DROP => ⟨0x3001C, [], 0x00000000, 0x0, 0x0, 0x0, 0x0, 0x0⟩
  | .IRQ_PEND => ⟨0x30040, [(16, 0x4)], 0x00000000, 0x0, 0x0, 0x0, 0x0, 0x0⟩
  | .IRQ_SRC_CFG => ⟨0x31000, [(512, 0x10)], 0x00000080, 0xC00000FF, 0x0, 0x0, 0x0, 0x0⟩
  | .IRQ_SRC_TGT => ⟨0x31004, [(512, 0x10)], 0x00000000, 0x0, 0xFFFFFFFF, 0x0, 0x0, 0x0⟩
  | .IRQ_SRC_STAT => ⟨0x31008, [(512, 0x10)], 0x00000000, 0x0, 0x0, 0x0, 0x0, 0x0⟩
  | .IRQ_CLAIM => ⟨0x34000, [(2048, 0x10)], 0x00000000, 0x0, 0x0, 0x0, 0x0, 0x0⟩
  | .IRQ_EOI => ⟨0x34004, [(2048, 0x10)], 0x00000000, 0x0, 0x0, 0x0, 0x1FF, 0x0⟩
  | .IRQ_RUN => ⟨0x34008, [(2048, 0x10)], 0x00000000, 0x0, 0x0, 0x0, 0x0, 0x0⟩
  | .PMC_CTL => ⟨0x700000, [(16, 0x2000)], 0x00000000, 0xC0000000, 0x0, 0x0, 0x0, 0x0⟩
  | .PMC_WSTAT => ⟨0x700004, [(16, 0x2000)], 0x00000000, 0x0, 0x0, 0x3, 0x0, 0x0⟩
  | .PMC_OVF0 => ⟨0x700008, [(16, 0x2000)], 0x00000000, 0x0, 0x0, 0x1FFFF, 0x0, 0x0⟩
  | .PMC_OVF1 => ⟨0x70000C, [(16, 0x2000)], 0x00000000, 0x0, 0x0, 0xFFFFFFFF, 0x0, 0x0⟩
  | .PMC_OVF2 => ⟨0x700010, [(16, 0x2000)], 0x00000000, 0x0, 0x0, 0xFFFFFFFF, 0x0, 0x0⟩
  | .PMC_SMP_CTL => ⟨0x700014, [(16, 0x2000)], 0x00000040, 0xFF, 0x0, 0x0, 0x0, 0x0⟩
  | .PMC_SMP_PROD => ⟨0x700018, [(16, 0x2000)], 0x00000000, 0x0, 0x0, 0x0, 0x0, 0x0⟩
  | .PMC_SMP_CONS => ⟨0x70001C, [(16, 0x2000)], 0x00000000, 0xFFFFFFFF, 0x0, 0x0, 0x0, 0x0⟩
  | .PMC_SMP_DROP => ⟨0x700020, [(16, 0x2000)], 0x00000000, 0x0, 0x0, 0x0, 0x0, 0x0⟩
  | .PMC_MIRROR => ⟨0x700040, [(16, 0x2000), (8, 0x4)], 0x00000000, 0x800001FF, 0x0, 0x0, 0x0, 0x0⟩
  | .PMC_CC_SEL => ⟨0x700100, [(16, 0x2000), (16, 0x10)], 0x00000000, 0x800300FF, 0x0, 0x0, 0x0, 0x0⟩
  | .PMC_CC_THR => ⟨0x700104, [(16, 0x2000), (16, 0x10)], 0x00000000, 0xFFFFFFFF, 0x0, 0x0, 0x0, 0x0⟩
  | .PMC_CC_HI => ⟨0x700108, [(16, 0x2000), (16, 0x10)], 0x00000000, 0xFFFF, 0x0, 0x0, 0x0, 0x0⟩
  | .PMC_CC_LO => ⟨0x70010C, [(16, 0x2000), (16, 0x10)], 0x00000000, 0xFFFFFFFF, 0x0, 0x0, 0x0, 0x0⟩
  | .PMC_K_SEL => ⟨0x700200, [(16, 0x2000), (8, 0x80), (8, 0x10)], 0x3F000000, 0xFF0000FF, 0x0, 0x0, 0x0, 0x0⟩
  | .PMC_K_THR => ⟨0x700204, [(16, 0x2000), (8, 0x80), (8, 0x10)], 0x00000000, 0xFFFFFFFF, 0x0, 0x0, 0x0, 0x0⟩
  | .PMC_K_HI => ⟨0x700208, [(16, 0x2000), (8, 0x80), (8, 0x10)], 0x00000000, 0xFFFF, 0x0, 0x0, 0x0, 0x0⟩
  | .PMC_K_LO => ⟨0x70020C, [(16, 0x2000), (8, 0x80), (8, 0x10)], 0x00000000, 0xFFFFFFFF, 0x0, 0x0, 0x0, 0x0⟩
  | .PMC_SMP_BUF => ⟨0x701000, [(16, 0x2000), (1024, 0x4)], 0x00000000, 0x0, 0x0, 0x0, 0x0, 0x0⟩
  | .TOP_ID => ⟨0x0, [], 0x6400B041, 0x0, 0x0, 0x0, 0x0, 0x0⟩
  | .TOP_LIFE => ⟨0x4, [], 0x00000000, 0x0, 0x0, 0x0, 0x0, 0x0⟩
  | .TOP_UNLOCK => ⟨0x40, [], 0x00000000, 0x0, 0x0, 0x0, 0xFFFFFFFE, 0x0⟩
  | .TOP_LOCK_VIOL => ⟨0x44, [], 0x00000000, 0x0, 0x0, 0x80000000, 0x0, 0x0⟩
  | .TOP_WOS_VIOL => ⟨0x48, [], 0x00000000, 0x0, 0x0, 0x80000000, 0x0, 0x0⟩
  | .TOP_OWN_VIOL => ⟨0x4C, [], 0x00000000, 0x0, 0x0, 0x80000000, 0x0, 0x0⟩
  | .HST_STAT => ⟨0x10000, [], 0x00000000, 0x0, 0x0, 0x0, 0x0, 0x0⟩
  | .HST_WSTAT => ⟨0x10004, [], 0x00000000, 0x0, 0x0, 0x1F, 0x0, 0x0⟩
  | .HST_COPY_SEQ => ⟨0x10008, [], 0x00000000, 0x0, 0x0, 0x0, 0x0, 0x0⟩
  | .HST_ABORT => ⟨0x1000C, [], 0x00000000, 0x0, 0x0, 0x0, 0x8000003F, 0x0⟩
  | .HST_ABORTING_LO => ⟨0x10010, [], 0x00000000, 0x0, 0x0, 0x0, 0x0, 0x0⟩
  | .HST_ABORTING_HI => ⟨0x10014, [], 0x00000000, 0x0, 0x0, 0x0, 0x0, 0x0⟩
  | .HST_B2W_BASE_LO => ⟨0x10020, [(3, 0x8)], 0x00000000, 0xFF000000, 0x0, 0x0, 0x0, 0x0⟩
  | .HST_B2W_BASE_HI => ⟨0x10024, [(3, 0x8)], 0x00000010, 0xFFFFFFFF, 0x0, 0x0, 0x0, 0x0⟩
  | .HST_Q_CFG => ⟨0x10100, [(64, 0x40)], 0x00000000, 0x80000000, 0x0, 0x0, 0x0, 0x0⟩
  | .HST_Q_SQ_LO => ⟨0x10104, [(64, 0x40)], 0x00000000, 0xFFFFFFFF, 0x0, 0x0, 0x0, 0x0⟩
  | .HST_Q_SQ_HI => ⟨0x10108, [(64, 0x40)], 0x00000000, 0xFFFFFFFF, 0x0, 0x0, 0x0, 0x0⟩
  | .HST_Q_CQ_LO => ⟨0x1010C, [(64, 0x40)], 0x00000000, 0xFFFFFFFF, 0x0, 0x0, 0x0, 0x0⟩
  | .HST_Q_CQ_HI => ⟨0x10110, [(64, 0x40)], 0x00000000, 0xFFFFFFFF, 0x0, 0x0, 0x0, 0x0⟩
  | .HST_Q_SQ_TAIL => ⟨0x10114, [(64, 0x40)], 0x00000000, 0xFFFF, 0x0, 0x0, 0x0, 0x0⟩
  | .HST_Q_SQ_HEAD => ⟨0x10118, [(64, 0x40)], 0x00000000, 0x0, 0x0, 0x0, 0x0, 0x0⟩
  | .HST_Q_CQ_HEAD => ⟨0x1011C, [(64, 0x40)], 0x00000000, 0xFFFF, 0x0, 0x0, 0x0, 0x0⟩
  | .HST_Q_CQ_TAIL => ⟨0x10120, [(64, 0x40)], 0x00010000, 0x0, 0x0, 0x0, 0x0, 0x0⟩
  | .MEM_STAT => ⟨0x80000, [], 0x00000000, 0x0, 0x0, 0x0, 0x0, 0x0⟩
  | .MEM_SCRUB_CTL => ⟨0x80004, [], 0x18000064, 0xFF00FFFF, 0x0, 0x0, 0x0, 0x0⟩
  | .MEM_SRAM_CE1 => ⟨0x80010, [], 0x00000000, 0x0, 0x0, 0x0, 0x0, 0x0⟩
  | .MEM_SRAM_CE2 => ⟨0x80014, [], 0x00000000, 0x0, 0x0, 0x0, 0x0, 0x0⟩
  | .MEM_SRAM_UE => ⟨0x80018, [], 0x00000000, 0x0, 0x0, 0x0, 0x0, 0x0⟩
  | .MEM_SRAM_LAST => ⟨0x8001C, [], 0x00000000, 0x0, 0x0, 0x0, 0x0, 0x0⟩
  | .MEM_CH_SIZE => ⟨0x80100, [(2, 0x40)], 0x00000000, 0x0, 0x0, 0x0, 0x0, 0x0⟩
  | .MEM_CH_CE1 => ⟨0x80104, [(2, 0x40)], 0x00000000, 0x0, 0x0, 0x0, 0x0, 0x0⟩
  | .MEM_CH_CE2 => ⟨0x80108, [(2, 0x40)], 0x00000000, 0x0, 0x0, 0x0, 0x0, 0x0⟩
  | .MEM_CH_UE => ⟨0x8010C, [(2, 0x40)], 0x00000000, 0x0, 0x0, 0x0, 0x0, 0x0⟩
  | .MEM_CH_LAST_HI => ⟨0x80110, [(2, 0x40)], 0x00000000, 0x0, 0x0, 0x0, 0x0, 0x0⟩
  | .MEM_CH_LAST_LO => ⟨0x80114, [(2, 0x40)], 0x00000000, 0x0, 0x0, 0x0, 0x0, 0x0⟩
  | .MAT_STAT => ⟨0x70000, [], 0x20000000, 0x0, 0x0, 0x0, 0x0, 0x0⟩
  | .MAT_WSTAT => ⟨0x70004, [], 0x00000000, 0x0, 0x0, 0x7, 0x0, 0x0⟩
  | .MAT_CFG => ⟨0x70008, [], 0x7D000000, 0x0, 0xFFF00000, 0x0, 0x0, 0x0⟩
  | .MAT_PROMOTE_HOLD => ⟨0x7000C, [], 0x00000000, 0x0, 0x1FFFFF, 0x0, 0x0, 0x0⟩
  | .MAT_REVERT_HOLD => ⟨0x70010, [], 0x00000258, 0x0, 0xFFFF, 0x0, 0x0, 0x0⟩
  | .MAT_SWAP_AT => ⟨0x70014, [], 0x00000000, 0x0, 0x1FFFF, 0x0, 0x0, 0x0⟩
  | .MAT_SWAP_CTL => ⟨0x70018, [], 0x80180000, 0x0, 0xC0FF0000, 0x0, 0x0, 0x0⟩
  | .MAT_CMD => ⟨0x7001C, [], 0x00000000, 0x0, 0xC0000000, 0x0, 0x0, 0x0⟩
  | .MAT_SVC_LO => ⟨0x70020, [], 0xFFFFFFFF, 0x0, 0xFFFFFFFF, 0x0, 0x0, 0x0⟩
  | .MAT_SVC_HI => ⟨0x70024, [], 0xFFFFFFFF, 0x0, 0xFFFFFFFF, 0x0, 0x0, 0x0⟩
  | .MAT_WITNESS_LO => ⟨0x70028, [], 0x00000000, 0x0, 0xFFFFFFFF, 0x0, 0x0, 0x0⟩
  | .MAT_WITNESS_HI => ⟨0x7002C, [], 0x00000000, 0x0, 0xFFFFFFFF, 0x0, 0x0, 0x0⟩
  | .MAT_CLKID_HI => ⟨0x70030, [], 0x00000000, 0x0, 0xFFFFFFFF, 0x0, 0x0, 0x0⟩
  | .MAT_CLKID_LO => ⟨0x70034, [], 0x00000000, 0x0, 0xFFFFFFFF, 0x0, 0x0, 0x0⟩
  | .MAT_ASYM0 => ⟨0x70038, [], 0x00000000, 0x0, 0xFFFFFFFF, 0x0, 0x0, 0x0⟩
  | .MAT_ASYM_U0 => ⟨0x7003C, [], 0xFFFFFFFF, 0x0, 0xFFFFFFFF, 0x0, 0x0, 0x0⟩
  | .MAT_ASYM1 => ⟨0x70040, [], 0x00000000, 0x0, 0xFFFFFFFF, 0x0, 0x0, 0x0⟩
  | .MAT_ASYM_U1 => ⟨0x70044, [], 0xFFFFFFFF, 0x0, 0xFFFFFFFF, 0x0, 0x0, 0x0⟩
  | .MAT_MATE_CLKID_HI => ⟨0x70058, [], 0x00000000, 0x0, 0x0, 0x0, 0x0, 0x0⟩
  | .MAT_MATE_CLKID_LO => ⟨0x7005C, [], 0x00000000, 0x0, 0x0, 0x0, 0x0, 0x0⟩
  | .MAT_WITNESS_AGE => ⟨0x70060, [], 0xFFFFFFFF, 0x0, 0x0, 0x0, 0x0, 0x0⟩
  | .MAT_RTT => ⟨0x70064, [], 0xFFFFFFFF, 0x0, 0x0, 0x0, 0x0, 0x0⟩
  | .MAT_HB_LOST => ⟨0x70068, [], 0x00000000, 0x0, 0x0, 0x0, 0x0, 0x0⟩
  | .MAT_ROLECNT => ⟨0x7006C, [], 0x00000000, 0x0, 0x0, 0x0, 0x0, 0x0⟩
  | .MAT_MIR => ⟨0x70080, [(4, 0x4)], 0x00000000, 0x0, 0xFFFFFFFF, 0x0, 0x0, 0x0⟩
  | .MAT_MIR_STAT => ⟨0x70090, [], 0x00000000, 0x0, 0x0, 0x0, 0x0, 0x0⟩
  | .MAT_PRIORITY => ⟨0x70100, [], 0x00008000, 0x0, 0x0, 0x0, 0x0, 0xFF00⟩
  | .PWR_STAT => ⟨0x60000, [], 0x00000000, 0x0, 0x0, 0x0, 0x0, 0x0⟩
  | .PWR_WSTAT => ⟨0x60004, [], 0x00000000, 0x0, 0x0, 0x3, 0x0, 0x0⟩
  | .PWR_EMBER => ⟨0x60008, [], 0x00000001, 0x0, 0x8000000F, 0x0, 0x0, 0x0⟩
  | .PWR_FAIL => ⟨0x6000C, [], 0xFFFF0000, 0x0, 0x0, 0x0, 0x0, 0x0⟩
  | .PWR_CNT => ⟨0x60010, [], 0x00000000, 0x0, 0x0, 0x0, 0x0, 0x0⟩
  | .PWR_KEEP_STARTS => ⟨0x60014, [], 0x00000000, 0x0, 0x0, 0x0, 0x0, 0x0⟩
  | .PWR_CORE_STARTS => ⟨0x60018, [], 0x00000000, 0x0, 0x0, 0x0, 0x0, 0x0⟩
  | .SEC_STAT => ⟨0x60100, [], 0x00000000, 0x0, 0x0, 0x0, 0x0, 0x0⟩
  | .SEC_BOOT => ⟨0x60104, [], 0x00000000, 0x0, 0x0, 0x0, 0x0, 0x0⟩
  | .DBG_STAT => ⟨0x60200, [], 0x00000000, 0x0, 0x0, 0x0, 0x0, 0x0⟩
  | .DBG_CTL => ⟨0x60204, [], 0x40000000, 0x0, 0xE0000000, 0x0, 0x0, 0x0⟩

/-- Register groups 0 to 39. -/
def Reg.all0 : List Reg :=
  [.TOP_OWN, .DTM_MODE, .DTM_WSTAT, .DTM_SETTLE_CTL, .DTM_SETTLE_TIMEOUT, .DTM_SETTLE_LEFT, .DTM_NOW_SEC_HI, .DTM_NOW_SEC_LO, .DTM_NOW_NS, .DTM_NOW_FRAC, .DTM_INC_HI, .DTM_INC_LO, .DTM_SNAP_CTL, .DTM_SNAP_SEC_HI, .DTM_SNAP_SEC_LO, .DTM_SNAP_NS, .DTM_SNAP_FRAC, .DTM_SNAP_EARLY, .DTM_SNAP_LATE, .DTM_SNAP_INC_HI, .DTM_SNAP_INC_LO, .DTM_SNAP_INFO, .DTM_STEP_SEC_HI, .DTM_STEP_SEC_LO, .DTM_STEP_NS, .DTM_STEP_FRAC, .DTM_STEP_EARLY, .DTM_STEP_LATE, .DTM_STEP_CTL, .DTM_UTC_OFFSET, .DTM_LEAP_AT_HI, .DTM_LEAP_AT_LO, .DTM_LEAP_CTL, .DTM_UTC_STAT, .DTM_TL_USED, .DTM_TL_PEAK, .DTM_TL_LATE, .DTM_TL_REFUSED, .DTM_TL_WITHDRAWN, .DTM_TL_STEPPED]

/-- Register groups 40 to 79. -/
def Reg.all1 : List Reg :=
  [.DTM_CHECK, .STK_THR_STAT, .STK_ABORT, .STK_RESTART, .STK_PMC_USER_EN, .STK_IMG_ID_HI, .STK_IMG_ID_LO, .STK_IMG_VER, .STK_NOTICE_DROP, .STK_DMP_VIOL, .TIC_WSTAT, .TIC_CAL_HITS, .TIC_RECAL, .TIC_KX_AGE, .TIC_KX_OFS, .TIC_KX_DEV, .TIC_KX_ALARM, .TIC_IN, .TIC_CFG, .TIC_OS, .TIC_STAT, .TIC_RING_LO, .TIC_RING_HI, .TIC_RING_SZ, .TIC_PROD, .TIC_CONS, .TIC_DELAY, .TIC_DELAY_U, .TIC_SKIP, .TIC_DROP, .TIC_CALSTAT, .TIC_BIN, .ENS_STAT, .ENS_WSTAT, .ENS_QUAL, .ENS_LOSS, .ENS_TRI, .ENS_TRI_DRIFT, .ENS_BANK_AT_HI, .ENS_BANK_AT_LO]

/-- Register groups 80 to 119. -/
def Reg.all2 : List Reg :=
  [.ENS_HOLD_CTL, .ENS_HOLD_Y0, .ENS_HOLD_AGE, .ENS_HOLD_TC, .ENS_HOLD_UY, .ENS_HOLD_UA, .ENS_HOLD_UC, .ENS_HOLD_RES, .ENS_HOLD_PRED, .ENS_HOLD_DEF_UY, .ENS_HOLD_DEF_UA, .ENS_TSNS_CFG, .ENS_TSNS_T, .ENS_OSC_CFG, .ENS_OSC_GAIN, .ENS_OSC_REF, .ENS_OSC_LAST, .ENS_EPH_HI, .ENS_EPH_LO, .ENS_EPH_EARLY, .ENS_EPH_LATE, .ENS_POL0, .ENS_POL1, .ENS_POL2, .ENS_POL3, .ENS_REF_CFG, .ENS_REF_STATE, .ENS_REF_LAST_AT, .ENS_REF_FREQ, .ENS_REF_OFS, .ENS_REF_ACC, .ENS_REF_YACC, .ENS_REF_YAGE, .ENS_REF_YMAX, .ENS_REF_WEIGHT, .ENS_REF_CMD, .ENS_REF_PHASE_HI, .ENS_REF_PHASE_LO, .ENS_REF_PHASE_EARLY, .ENS_REF_PHASE_LATE]

/-- Register groups 120 to 159. -/
def Reg.all3 : List Reg :=
  [.ENS_NET_SEC, .ENS_NET_NS, .ENS_NET_FRAC, .ENS_NET_EARLY, .ENS_NET_LATE, .ENS_NET_AT, .ENS_NET_GO, .ENS_ADEV, .TRV_STAT, .TRV_WSTAT, .TRV_DATUM_EARLY, .TRV_DATUM_LATE, .TRV_ACCEPT_EARLY, .TRV_ACCEPT_LATE, .TRV_HOLD_EARLY, .TRV_HOLD_LATE, .TRV_COAST, .TRV_PROJ_YMIN, .TRV_COAST_Y, .TRV_RES_Y, .TRV_CC_T6, .TRV_CC_T7, .TRV_CC_T140, .TRV_CC_T150, .TRV_CC_T160, .TRV_CC_CTL, .TRV_BMK_CTL, .TRV_JNL_SEQ_HI, .TRV_JNL_SEQ_LO, .TRV_JNL_OLD_HI, .TRV_JNL_OLD_LO, .TRV_JNL_ACK_HI, .TRV_JNL_ACK_LO, .TRV_JNL_LOST, .TRV_OUT_EARLY, .TRV_OUT_LATE, .SYN_STAT, .SYN_WSTAT, .SYN_LOCKA_CTL, .SYN0_SRC]

/-- Register groups 160 to 199. -/
def Reg.all4 : List Reg :=
  [.SYN0_SRC_FREQ, .SYN_SYNC_CTL, .SYN_SYNC_STAT, .SYN_SYNC_AT, .SYN_CFG, .SYN_FCW_INT, .SYN_FCW_NUM, .SYN_FCW_DEN, .SYN_LOCK, .SYN_LSTAT, .SYN_PHERR, .SYN_PHASE, .SYN_PULL, .SYN_CMD, .SYN_COASTS, .SYN_OUT_CFG, .SYN_OUT_DIV_HI, .SYN_OUT_DIV_LO, .SYN_OUT_STAT, .SYN_PPS_CFG, .SYN_PPS_COMP, .SYN_PPS_CF, .SYN_PPS_STAT, .SYN_TOD_CFG, .SYN_HOP, .GNS_STAT, .GNS_WSTAT, .GNS_TIME_FLOOR_HI, .GNS_TIME_FLOOR_LO, .GNS_TRK, .GNS_RAIM, .GNS_ACQ_CTL, .GNS_AUD_CTL, .GNS_AUD_STAT, .GNS_AUD_THR, .GNS_SNAP_CTL, .GNS_SNAP_STAT, .GNS_SNAP_SEC_HI, .GNS_SNAP_SEC_LO, .GNS_SNAP_NS]

/-- Register groups 200 to 239. -/
def Reg.all5 : List Reg :=
  [.GNS_SYS_OFS, .GNS_SYS_U, .GNS_CTL_CFG, .GNS_CTL_TX, .GNS_CTL_CMD, .GNS_CTL_RX, .GNS_CTL_STAT, .GNS_SP_CFG, .GNS_SP_RATE, .GNS_SP_FC, .GNS_SP_STAT, .GNS_ANT_CFG, .GNS_ANT_STAT, .GNS_ANT_POS_X, .GNS_ANT_POS_Y, .GNS_ANT_POS_Z, .GNS_ANT_POS_U, .GNS_ANT_DELAY, .GNS_ANT_DELAY_U, .GNS_ANT_MP, .GNS_ANT_SURV, .GNS_ANT_EARLY, .GNS_ANT_LATE, .GNS_CH_STAT, .PRT_CFG, .PRT_STAT, .PRT_WSTAT, .PRT_MAXFRAME, .PRT_LAUNCH_GUARD, .PRT_LPHASE, .PRT_PFC_MAP, .PRT_RXMAP0, .PRT_RXMAP1, .PRT_CAL_CTL, .PRT_CAL_TX, .PRT_CAL_RX, .PRT_ASYM_CABLE, .PRT_ASYM_CABLE_U, .PRT_RXPPM, .PRT_PAUSE_END_SEC]

/-- Register groups 240 to 279. -/
def Reg.all6 : List Reg :=
  [.PRT_PAUSE_END_NS, .PRT_RX_OK, .PRT_RX_RUNT, .PRT_RX_OVERSIZE, .PRT_RX_FCS, .PRT_RX_OVF, .PRT_RX_DROP, .PRT_RX_NOTHREAD, .PRT_RX_PAUSE, .PRT_TX_OK, .PRT_TX_PAD, .PRT_TX_LINKDROP, .PRT_LAUNCH_OK, .PRT_LAUNCH_PAUSED, .PRT_LAUNCH_COLL, .PRT_LAUNCH_LOST, .PRT_GUARD_HOLD, .SVC_STAT, .SVC_WSTAT, .SVC_CTL, .SVC_OPEN_BOUND, .SVC_TABLE_LO, .SVC_TABLE_HI, .SVC_TABLE_CFG, .SVC_HASH_SEED, .SVC_CAP, .SVC_SHED, .SVC_COST, .SVC_GRANT, .SVC_KEYS, .SVC_TLV_ORG, .SVC_TLV_SUB, .SVC_NTP_EF, .SVC_NTP_REFID, .SVC_COOKIE_ID, .SVC_COOKIE_SLOTS, .SVC_TALLY, .SVC_CLASS, .SVC_PORT, .SVC_LEVEL]

/-- Register groups 280 to 319. -/
def Reg.all7 : List Reg :=
  [.SVC_LOAD, .SVC_CNT_ADMIT, .SVC_CNT_DELAY, .SVC_CNT_REFUSE, .SVC_CNT_AUTHFAIL, .SVC_REISSUE_SYNC, .SVC_REISSUE_NTP, .SVC_TABLE_FULL, .SVC_NTS_NAK, .SVC_REPLAY, .FLT_STAT, .FLT_WSTAT, .FLT_GRACE, .FLT_PIN_HOLD, .FLT_HANDLER, .FLT_ESC, .FLT_ESC_CTL, .FLT_ESC_LAST, .FLT_ESC_LAST_AT, .FLT_ACTIVE, .FLT_REC_STAT, .FLT_REC_CAUSE, .FLT_REC_SOURCE, .FLT_REC_DETAIL, .FLT_REC_IMG_HI, .FLT_REC_IMG_LO, .FLT_REC_FIRST_SEC, .FLT_REC_FIRST_NS, .FLT_REC_LAST_SEC, .FLT_REC_LAST_NS, .FLT_REC_CTL, .DMP_MAX_DFDT, .DMP_FUSE, .DMP_WSTAT, .DMP_VIOL_TOTAL, .DMP_LAST, .DMP_LAST_INSN, .DMP_LAST_AT, .DMP_OSC_MIN, .DMP_OSC_MAX]

/-- Register groups 320 to 359. -/
def Reg.all8 : List Reg :=
  [.DMP_OSC_STEP, .DMP_OSC_INTERVAL, .DMP_QCEIL, .KEY_STAT, .KEY_WSTAT, .KEY_ABORT, .KEY_LAST, .KEY_COUNTER_HI, .KEY_COUNTER_LO, .KEY_HGEN, .KEY_IDHASH, .KEY_OWNHASH, .KEY_SLOT, .IRQ_CTL, .IRQ_WSTAT, .IRQ_TIERS, .IRQ_TARGET_TIMEOUT, .IRQ_DOORBELL, .IRQ_PEND_SET, .IRQ_PEND_CLR, .IRQ_DB_DROP, .IRQ_PEND, .IRQ_SRC_CFG, .IRQ_SRC_TGT, .IRQ_SRC_STAT, .IRQ_CLAIM, .IRQ_EOI, .IRQ_RUN, .PMC_CTL, .PMC_WSTAT, .PMC_OVF0, .PMC_OVF1, .PMC_OVF2, .PMC_SMP_CTL, .PMC_SMP_PROD, .PMC_SMP_CONS, .PMC_SMP_DROP, .PMC_MIRROR, .PMC_CC_SEL, .PMC_CC_THR]

/-- Register groups 360 to 399. -/
def Reg.all9 : List Reg :=
  [.PMC_CC_HI, .PMC_CC_LO, .PMC_K_SEL, .PMC_K_THR, .PMC_K_HI, .PMC_K_LO, .PMC_SMP_BUF, .TOP_ID, .TOP_LIFE, .TOP_UNLOCK, .TOP_LOCK_VIOL, .TOP_WOS_VIOL, .TOP_OWN_VIOL, .HST_STAT, .HST_WSTAT, .HST_COPY_SEQ, .HST_ABORT, .HST_ABORTING_LO, .HST_ABORTING_HI, .HST_B2W_BASE_LO, .HST_B2W_BASE_HI, .HST_Q_CFG, .HST_Q_SQ_LO, .HST_Q_SQ_HI, .HST_Q_CQ_LO, .HST_Q_CQ_HI, .HST_Q_SQ_TAIL, .HST_Q_SQ_HEAD, .HST_Q_CQ_HEAD, .HST_Q_CQ_TAIL, .MEM_STAT, .MEM_SCRUB_CTL, .MEM_SRAM_CE1, .MEM_SRAM_CE2, .MEM_SRAM_UE, .MEM_SRAM_LAST, .MEM_CH_SIZE, .MEM_CH_CE1, .MEM_CH_CE2, .MEM_CH_UE]

/-- Register groups 400 to 439. -/
def Reg.all10 : List Reg :=
  [.MEM_CH_LAST_HI, .MEM_CH_LAST_LO, .MAT_STAT, .MAT_WSTAT, .MAT_CFG, .MAT_PROMOTE_HOLD, .MAT_REVERT_HOLD, .MAT_SWAP_AT, .MAT_SWAP_CTL, .MAT_CMD, .MAT_SVC_LO, .MAT_SVC_HI, .MAT_WITNESS_LO, .MAT_WITNESS_HI, .MAT_CLKID_HI, .MAT_CLKID_LO, .MAT_ASYM0, .MAT_ASYM_U0, .MAT_ASYM1, .MAT_ASYM_U1, .MAT_MATE_CLKID_HI, .MAT_MATE_CLKID_LO, .MAT_WITNESS_AGE, .MAT_RTT, .MAT_HB_LOST, .MAT_ROLECNT, .MAT_MIR, .MAT_MIR_STAT, .MAT_PRIORITY, .PWR_STAT, .PWR_WSTAT, .PWR_EMBER, .PWR_FAIL, .PWR_CNT, .PWR_KEEP_STARTS, .PWR_CORE_STARTS, .SEC_STAT, .SEC_BOOT, .DBG_STAT, .DBG_CTL]

/-- All register groups, in the order of the chapters. -/
def Reg.all : List Reg :=
  List.flatten [Reg.all0, Reg.all1, Reg.all2, Reg.all3, Reg.all4, Reg.all5, Reg.all6, Reg.all7, Reg.all8, Reg.all9, Reg.all10]

/-- The number of a register group: its place in `Reg.all`. -/
def Reg.num : Reg → Nat
  | .TOP_OWN => 0
  | .DTM_MODE => 1
  | .DTM_WSTAT => 2
  | .DTM_SETTLE_CTL => 3
  | .DTM_SETTLE_TIMEOUT => 4
  | .DTM_SETTLE_LEFT => 5
  | .DTM_NOW_SEC_HI => 6
  | .DTM_NOW_SEC_LO => 7
  | .DTM_NOW_NS => 8
  | .DTM_NOW_FRAC => 9
  | .DTM_INC_HI => 10
  | .DTM_INC_LO => 11
  | .DTM_SNAP_CTL => 12
  | .DTM_SNAP_SEC_HI => 13
  | .DTM_SNAP_SEC_LO => 14
  | .DTM_SNAP_NS => 15
  | .DTM_SNAP_FRAC => 16
  | .DTM_SNAP_EARLY => 17
  | .DTM_SNAP_LATE => 18
  | .DTM_SNAP_INC_HI => 19
  | .DTM_SNAP_INC_LO => 20
  | .DTM_SNAP_INFO => 21
  | .DTM_STEP_SEC_HI => 22
  | .DTM_STEP_SEC_LO => 23
  | .DTM_STEP_NS => 24
  | .DTM_STEP_FRAC => 25
  | .DTM_STEP_EARLY => 26
  | .DTM_STEP_LATE => 27
  | .DTM_STEP_CTL => 28
  | .DTM_UTC_OFFSET => 29
  | .DTM_LEAP_AT_HI => 30
  | .DTM_LEAP_AT_LO => 31
  | .DTM_LEAP_CTL => 32
  | .DTM_UTC_STAT => 33
  | .DTM_TL_USED => 34
  | .DTM_TL_PEAK => 35
  | .DTM_TL_LATE => 36
  | .DTM_TL_REFUSED => 37
  | .DTM_TL_WITHDRAWN => 38
  | .DTM_TL_STEPPED => 39
  | .DTM_CHECK => 40
  | .STK_THR_STAT => 41
  | .STK_ABORT => 42
  | .STK_RESTART => 43
  | .STK_PMC_USER_EN => 44
  | .STK_IMG_ID_HI => 45
  | .STK_IMG_ID_LO => 46
  | .STK_IMG_VER => 47
  | .STK_NOTICE_DROP => 48
  | .STK_DMP_VIOL => 49
  | .TIC_WSTAT => 50
  | .TIC_CAL_HITS => 51
  | .TIC_RECAL => 52
  | .TIC_KX_AGE => 53
  | .TIC_KX_OFS => 54
  | .TIC_KX_DEV => 55
  | .TIC_KX_ALARM => 56
  | .TIC_IN => 57
  | .TIC_CFG => 58
  | .TIC_OS => 59
  | .TIC_STAT => 60
  | .TIC_RING_LO => 61
  | .TIC_RING_HI => 62
  | .TIC_RING_SZ => 63
  | .TIC_PROD => 64
  | .TIC_CONS => 65
  | .TIC_DELAY => 66
  | .TIC_DELAY_U => 67
  | .TIC_SKIP => 68
  | .TIC_DROP => 69
  | .TIC_CALSTAT => 70
  | .TIC_BIN => 71
  | .ENS_STAT => 72
  | .ENS_WSTAT => 73
  | .ENS_QUAL => 74
  | .ENS_LOSS => 75
  | .ENS_TRI => 76
  | .ENS_TRI_DRIFT => 77
  | .ENS_BANK_AT_HI => 78
  | .ENS_BANK_AT_LO => 79
  | .ENS_HOLD_CTL => 80
  | .ENS_HOLD_Y0 => 81
  | .ENS_HOLD_AGE => 82
  | .ENS_HOLD_TC => 83
  | .ENS_HOLD_UY => 84
  | .ENS_HOLD_UA => 85
  | .ENS_HOLD_UC => 86
  | .ENS_HOLD_RES => 87
  | .ENS_HOLD_PRED => 88
  | .ENS_HOLD_DEF_UY => 89
  | .ENS_HOLD_DEF_UA => 90
  | .ENS_TSNS_CFG => 91
  | .ENS_TSNS_T => 92
  | .ENS_OSC_CFG => 93
  | .ENS_OSC_GAIN => 94
  | .ENS_OSC_REF => 95
  | .ENS_OSC_LAST => 96
  | .ENS_EPH_HI => 97
  | .ENS_EPH_LO => 98
  | .ENS_EPH_EARLY => 99
  | .ENS_EPH_LATE => 100
  | .ENS_POL0 => 101
  | .ENS_POL1 => 102
  | .ENS_POL2 => 103
  | .ENS_POL3 => 104
  | .ENS_REF_CFG => 105
  | .ENS_REF_STATE => 106
  | .ENS_REF_LAST_AT => 107
  | .ENS_REF_FREQ => 108
  | .ENS_REF_OFS => 109
  | .ENS_REF_ACC => 110
  | .ENS_REF_YACC => 111
  | .ENS_REF_YAGE => 112
  | .ENS_REF_YMAX => 113
  | .ENS_REF_WEIGHT => 114
  | .ENS_REF_CMD => 115
  | .ENS_REF_PHASE_HI => 116
  | .ENS_REF_PHASE_LO => 117
  | .ENS_REF_PHASE_EARLY => 118
  | .ENS_REF_PHASE_LATE => 119
  | .ENS_NET_SEC => 120
  | .ENS_NET_NS => 121
  | .ENS_NET_FRAC => 122
  | .ENS_NET_EARLY => 123
  | .ENS_NET_LATE => 124
  | .ENS_NET_AT => 125
  | .ENS_NET_GO => 126
  | .ENS_ADEV => 127
  | .TRV_STAT => 128
  | .TRV_WSTAT => 129
  | .TRV_DATUM_EARLY => 130
  | .TRV_DATUM_LATE => 131
  | .TRV_ACCEPT_EARLY => 132
  | .TRV_ACCEPT_LATE => 133
  | .TRV_HOLD_EARLY => 134
  | .TRV_HOLD_LATE => 135
  | .TRV_COAST => 136
  | .TRV_PROJ_YMIN => 137
  | .TRV_COAST_Y => 138
  | .TRV_RES_Y => 139
  | .TRV_CC_T6 => 140
  | .TRV_CC_T7 => 141
  | .TRV_CC_T140 => 142
  | .TRV_CC_T150 => 143
  | .TRV_CC_T160 => 144
  | .TRV_CC_CTL => 145
  | .TRV_BMK_CTL => 146
  | .TRV_JNL_SEQ_HI => 147
  | .TRV_JNL_SEQ_LO => 148
  | .TRV_JNL_OLD_HI => 149
  | .TRV_JNL_OLD_LO => 150
  | .TRV_JNL_ACK_HI => 151
  | .TRV_JNL_ACK_LO => 152
  | .TRV_JNL_LOST => 153
  | .TRV_OUT_EARLY => 154
  | .TRV_OUT_LATE => 155
  | .SYN_STAT => 156
  | .SYN_WSTAT => 157
  | .SYN_LOCKA_CTL => 158
  | .SYN0_SRC => 159
  | .SYN0_SRC_FREQ => 160
  | .SYN_SYNC_CTL => 161
  | .SYN_SYNC_STAT => 162
  | .SYN_SYNC_AT => 163
  | .SYN_CFG => 164
  | .SYN_FCW_INT => 165
  | .SYN_FCW_NUM => 166
  | .SYN_FCW_DEN => 167
  | .SYN_LOCK => 168
  | .SYN_LSTAT => 169
  | .SYN_PHERR => 170
  | .SYN_PHASE => 171
  | .SYN_PULL => 172
  | .SYN_CMD => 173
  | .SYN_COASTS => 174
  | .SYN_OUT_CFG => 175
  | .SYN_OUT_DIV_HI => 176
  | .SYN_OUT_DIV_LO => 177
  | .SYN_OUT_STAT => 178
  | .SYN_PPS_CFG => 179
  | .SYN_PPS_COMP => 180
  | .SYN_PPS_CF => 181
  | .SYN_PPS_STAT => 182
  | .SYN_TOD_CFG => 183
  | .SYN_HOP => 184
  | .GNS_STAT => 185
  | .GNS_WSTAT => 186
  | .GNS_TIME_FLOOR_HI => 187
  | .GNS_TIME_FLOOR_LO => 188
  | .GNS_TRK => 189
  | .GNS_RAIM => 190
  | .GNS_ACQ_CTL => 191
  | .GNS_AUD_CTL => 192
  | .GNS_AUD_STAT => 193
  | .GNS_AUD_THR => 194
  | .GNS_SNAP_CTL => 195
  | .GNS_SNAP_STAT => 196
  | .GNS_SNAP_SEC_HI => 197
  | .GNS_SNAP_SEC_LO => 198
  | .GNS_SNAP_NS => 199
  | .GNS_SYS_OFS => 200
  | .GNS_SYS_U => 201
  | .GNS_CTL_CFG => 202
  | .GNS_CTL_TX => 203
  | .GNS_CTL_CMD => 204
  | .GNS_CTL_RX => 205
  | .GNS_CTL_STAT => 206
  | .GNS_SP_CFG => 207
  | .GNS_SP_RATE => 208
  | .GNS_SP_FC => 209
  | .GNS_SP_STAT => 210
  | .GNS_ANT_CFG => 211
  | .GNS_ANT_STAT => 212
  | .GNS_ANT_POS_X => 213
  | .GNS_ANT_POS_Y => 214
  | .GNS_ANT_POS_Z => 215
  | .GNS_ANT_POS_U => 216
  | .GNS_ANT_DELAY => 217
  | .GNS_ANT_DELAY_U => 218
  | .GNS_ANT_MP => 219
  | .GNS_ANT_SURV => 220
  | .GNS_ANT_EARLY => 221
  | .GNS_ANT_LATE => 222
  | .GNS_CH_STAT => 223
  | .PRT_CFG => 224
  | .PRT_STAT => 225
  | .PRT_WSTAT => 226
  | .PRT_MAXFRAME => 227
  | .PRT_LAUNCH_GUARD => 228
  | .PRT_LPHASE => 229
  | .PRT_PFC_MAP => 230
  | .PRT_RXMAP0 => 231
  | .PRT_RXMAP1 => 232
  | .PRT_CAL_CTL => 233
  | .PRT_CAL_TX => 234
  | .PRT_CAL_RX => 235
  | .PRT_ASYM_CABLE => 236
  | .PRT_ASYM_CABLE_U => 237
  | .PRT_RXPPM => 238
  | .PRT_PAUSE_END_SEC => 239
  | .PRT_PAUSE_END_NS => 240
  | .PRT_RX_OK => 241
  | .PRT_RX_RUNT => 242
  | .PRT_RX_OVERSIZE => 243
  | .PRT_RX_FCS => 244
  | .PRT_RX_OVF => 245
  | .PRT_RX_DROP => 246
  | .PRT_RX_NOTHREAD => 247
  | .PRT_RX_PAUSE => 248
  | .PRT_TX_OK => 249
  | .PRT_TX_PAD => 250
  | .PRT_TX_LINKDROP => 251
  | .PRT_LAUNCH_OK => 252
  | .PRT_LAUNCH_PAUSED => 253
  | .PRT_LAUNCH_COLL => 254
  | .PRT_LAUNCH_LOST => 255
  | .PRT_GUARD_HOLD => 256
  | .SVC_STAT => 257
  | .SVC_WSTAT => 258
  | .SVC_CTL => 259
  | .SVC_OPEN_BOUND => 260
  | .SVC_TABLE_LO => 261
  | .SVC_TABLE_HI => 262
  | .SVC_TABLE_CFG => 263
  | .SVC_HASH_SEED => 264
  | .SVC_CAP => 265
  | .SVC_SHED => 266
  | .SVC_COST => 267
  | .SVC_GRANT => 268
  | .SVC_KEYS => 269
  | .SVC_TLV_ORG => 270
  | .SVC_TLV_SUB => 271
  | .SVC_NTP_EF => 272
  | .SVC_NTP_REFID => 273
  | .SVC_COOKIE_ID => 274
  | .SVC_COOKIE_SLOTS => 275
  | .SVC_TALLY => 276
  | .SVC_CLASS => 277
  | .SVC_PORT => 278
  | .SVC_LEVEL => 279
  | .SVC_LOAD => 280
  | .SVC_CNT_ADMIT => 281
  | .SVC_CNT_DELAY => 282
  | .SVC_CNT_REFUSE => 283
  | .SVC_CNT_AUTHFAIL => 284
  | .SVC_REISSUE_SYNC => 285
  | .SVC_REISSUE_NTP => 286
  | .SVC_TABLE_FULL => 287
  | .SVC_NTS_NAK => 288
  | .SVC_REPLAY => 289
  | .FLT_STAT => 290
  | .FLT_WSTAT => 291
  | .FLT_GRACE => 292
  | .FLT_PIN_HOLD => 293
  | .FLT_HANDLER => 294
  | .FLT_ESC => 295
  | .FLT_ESC_CTL => 296
  | .FLT_ESC_LAST => 297
  | .FLT_ESC_LAST_AT => 298
  | .FLT_ACTIVE => 299
  | .FLT_REC_STAT => 300
  | .FLT_REC_CAUSE => 301
  | .FLT_REC_SOURCE => 302
  | .FLT_REC_DETAIL => 303
  | .FLT_REC_IMG_HI => 304
  | .FLT_REC_IMG_LO => 305
  | .FLT_REC_FIRST_SEC => 306
  | .FLT_REC_FIRST_NS => 307
  | .FLT_REC_LAST_SEC => 308
  | .FLT_REC_LAST_NS => 309
  | .FLT_REC_CTL => 310
  | .DMP_MAX_DFDT => 311
  | .DMP_FUSE => 312
  | .DMP_WSTAT => 313
  | .DMP_VIOL_TOTAL => 314
  | .DMP_LAST => 315
  | .DMP_LAST_INSN => 316
  | .DMP_LAST_AT => 317
  | .DMP_OSC_MIN => 318
  | .DMP_OSC_MAX => 319
  | .DMP_OSC_STEP => 320
  | .DMP_OSC_INTERVAL => 321
  | .DMP_QCEIL => 322
  | .KEY_STAT => 323
  | .KEY_WSTAT => 324
  | .KEY_ABORT => 325
  | .KEY_LAST => 326
  | .KEY_COUNTER_HI => 327
  | .KEY_COUNTER_LO => 328
  | .KEY_HGEN => 329
  | .KEY_IDHASH => 330
  | .KEY_OWNHASH => 331
  | .KEY_SLOT => 332
  | .IRQ_CTL => 333
  | .IRQ_WSTAT => 334
  | .IRQ_TIERS => 335
  | .IRQ_TARGET_TIMEOUT => 336
  | .IRQ_DOORBELL => 337
  | .IRQ_PEND_SET => 338
  | .IRQ_PEND_CLR => 339
  | .IRQ_DB_DROP => 340
  | .IRQ_PEND => 341
  | .IRQ_SRC_CFG => 342
  | .IRQ_SRC_TGT => 343
  | .IRQ_SRC_STAT => 344
  | .IRQ_CLAIM => 345
  | .IRQ_EOI => 346
  | .IRQ_RUN => 347
  | .PMC_CTL => 348
  | .PMC_WSTAT => 349
  | .PMC_OVF0 => 350
  | .PMC_OVF1 => 351
  | .PMC_OVF2 => 352
  | .PMC_SMP_CTL => 353
  | .PMC_SMP_PROD => 354
  | .PMC_SMP_CONS => 355
  | .PMC_SMP_DROP => 356
  | .PMC_MIRROR => 357
  | .PMC_CC_SEL => 358
  | .PMC_CC_THR => 359
  | .PMC_CC_HI => 360
  | .PMC_CC_LO => 361
  | .PMC_K_SEL => 362
  | .PMC_K_THR => 363
  | .PMC_K_HI => 364
  | .PMC_K_LO => 365
  | .PMC_SMP_BUF => 366
  | .TOP_ID => 367
  | .TOP_LIFE => 368
  | .TOP_UNLOCK => 369
  | .TOP_LOCK_VIOL => 370
  | .TOP_WOS_VIOL => 371
  | .TOP_OWN_VIOL => 372
  | .HST_STAT => 373
  | .HST_WSTAT => 374
  | .HST_COPY_SEQ => 375
  | .HST_ABORT => 376
  | .HST_ABORTING_LO => 377
  | .HST_ABORTING_HI => 378
  | .HST_B2W_BASE_LO => 379
  | .HST_B2W_BASE_HI => 380
  | .HST_Q_CFG => 381
  | .HST_Q_SQ_LO => 382
  | .HST_Q_SQ_HI => 383
  | .HST_Q_CQ_LO => 384
  | .HST_Q_CQ_HI => 385
  | .HST_Q_SQ_TAIL => 386
  | .HST_Q_SQ_HEAD => 387
  | .HST_Q_CQ_HEAD => 388
  | .HST_Q_CQ_TAIL => 389
  | .MEM_STAT => 390
  | .MEM_SCRUB_CTL => 391
  | .MEM_SRAM_CE1 => 392
  | .MEM_SRAM_CE2 => 393
  | .MEM_SRAM_UE => 394
  | .MEM_SRAM_LAST => 395
  | .MEM_CH_SIZE => 396
  | .MEM_CH_CE1 => 397
  | .MEM_CH_CE2 => 398
  | .MEM_CH_UE => 399
  | .MEM_CH_LAST_HI => 400
  | .MEM_CH_LAST_LO => 401
  | .MAT_STAT => 402
  | .MAT_WSTAT => 403
  | .MAT_CFG => 404
  | .MAT_PROMOTE_HOLD => 405
  | .MAT_REVERT_HOLD => 406
  | .MAT_SWAP_AT => 407
  | .MAT_SWAP_CTL => 408
  | .MAT_CMD => 409
  | .MAT_SVC_LO => 410
  | .MAT_SVC_HI => 411
  | .MAT_WITNESS_LO => 412
  | .MAT_WITNESS_HI => 413
  | .MAT_CLKID_HI => 414
  | .MAT_CLKID_LO => 415
  | .MAT_ASYM0 => 416
  | .MAT_ASYM_U0 => 417
  | .MAT_ASYM1 => 418
  | .MAT_ASYM_U1 => 419
  | .MAT_MATE_CLKID_HI => 420
  | .MAT_MATE_CLKID_LO => 421
  | .MAT_WITNESS_AGE => 422
  | .MAT_RTT => 423
  | .MAT_HB_LOST => 424
  | .MAT_ROLECNT => 425
  | .MAT_MIR => 426
  | .MAT_MIR_STAT => 427
  | .MAT_PRIORITY => 428
  | .PWR_STAT => 429
  | .PWR_WSTAT => 430
  | .PWR_EMBER => 431
  | .PWR_FAIL => 432
  | .PWR_CNT => 433
  | .PWR_KEEP_STARTS => 434
  | .PWR_CORE_STARTS => 435
  | .SEC_STAT => 436
  | .SEC_BOOT => 437
  | .DBG_STAT => 438
  | .DBG_CTL => 439

/-- The reset word of element `i` of a register group: the Reset column of its table, with the elements that the tables
give another value (fixed ownership entries, R35; Table 7.2; R109; Table 13 source modes; R254). -/
def Reg.reset (r : Reg) (i : Nat) : BitVec 32 :=
  if r = .TOP_OWN then (if i = 16 ∨ (29 ≤ i ∧ i ≤ 31) ∨ (128 ≤ i ∧ i ≤ 135) then 0xB0000000#32 else 0#32)
  else if r = .SYN_CFG then (if i = 0 then BitVec.ofNat 32 (93 * 2 ^ 25 + 80 * 2 ^ 18) else if i < 14 then BitVec.ofNat 32 (101 * 2 ^ 25 + 88 * 2 ^ 18) else BitVec.ofNat 32 (101 * 2 ^ 25 + 93 * 2 ^ 18))
  else if r = .SYN_FCW_INT then (if i = 0 then 0x64#32 else if i = 14 then 0x78#32 else if i = 15 then 0x80#32 else 0xFA#32)
  else if r = .ENS_REF_CFG then (BitVec.ofNat 32 (i % 256 * 2 ^ 11 + 0x3E8))
  else if r = .IRQ_SRC_CFG then (if 256 ≤ i then 0x40000080#32 else 0x80#32)
  else if r = .DMP_QCEIL then (if 5 ≤ i % 8 then 0x10016E36#32 else 0x100FFFFF#32)
  else BitVec.ofNat 32 r.row.reset

/-- The number of elements of a register group. -/
def Reg.count (r : Reg) : Nat := r.row.dims.foldl (fun a d => a * d.1) 1

/-- The offset within its repetition of element `i` (indices of several dimensions are flattened, the innermost last). -/
def dimsOffset : List (Nat × Nat) → Nat → Nat
  | [], _ => 0
  | [d], i => i * d.2
  | d :: e :: r, i =>
    let inner := (e :: r).foldl (fun a x => a * x.1) 1
    i / inner * d.2 + dimsOffset (e :: r) (i % inner)

/-- The BAR0 offset of element `i` of a register group. -/
def Reg.addr (r : Reg) (i : Nat) : Nat := r.row.base + dimsOffset r.row.dims i

/-- The flattened index whose offset within the repetition is `off`, if there is one. -/
def dimsIndex : List (Nat × Nat) → Nat → Option Nat
  | [], off => if off = 0 then some 0 else none
  | d :: r, off =>
    if off / d.2 < d.1 then
      match dimsIndex r (off % d.2) with
      | some j => some (off / d.2 * r.foldl (fun a x => a * x.1) 1 + j)
      | none => none
    else none

/-- The element of a register group at a BAR0 offset, if it has one there. -/
def Reg.indexAt (r : Reg) (off : Nat) : Option Nat :=
  if off < r.row.base then none else dimsIndex r.row.dims (off - r.row.base)

/-- The register at a BAR0 offset; none where the offset is reserved (R309). -/
def Reg.ofAddr (off : Nat) : Option (Reg × Nat) :=
  Reg.all.findSome? (fun r => (r.indexAt off).map (fun i => (r, i)))

/-- Where a register is held (R312). -/
inductive Domain where
  | core | clock | keeper
  deriving DecidableEq, Repr

/-- The fault records held in the Keeper region (R258). -/
def keeperRecord (i : Nat) : Bool := decide ((226 ≤ i ∧ i ≤ 266) ∨ (459 ≤ i ∧ i ≤ 464))

/-- The die and region that hold a register (R312, Table 14.3; R258; R264; 15_mated_pair.md and 16_power_security_life.md,
the opening of their register sections). -/
def Reg.domain (r : Reg) (i : Nat) : Domain :=
  let b := r.row.base
  if 0x100000 ≤ b ∧ b < 0x400000 then .clock
  else if r = .TOP_OWN then .keeper
  else if 0x20014 ≤ b ∧ b ≤ 0x20020 then .keeper
  else if 0x28000 ≤ b ∧ b ≤ 0x28028 then (if keeperRecord i then .keeper else .core)
  else if (0x70008 ≤ b ∧ b ≤ 0x70044) ∨ r = .MAT_MIR ∨ r = .MAT_PRIORITY then .keeper
  else if 0x60000 ≤ b ∧ b ≤ 0x60018 then .keeper
  else .core

/-- Whether a register holds an RWG field, so that a host write of it is a guarded write (R314). The loop registers of
SYN0 and SYN13 to SYN15 are guarded (R156); the targets of sources below 256 are. -/
def Reg.guarded (r : Reg) (i : Nat) : Bool :=
  if r = .IRQ_SRC_TGT then decide (i < 256)
  else if r = .SYN_CFG ∨ r = .SYN_FCW_INT ∨ r = .SYN_FCW_NUM ∨ r = .SYN_FCW_DEN ∨ r = .SYN_LOCK ∨ r = .SYN_PHASE
      ∨ r = .SYN_PULL then decide (i = 0 ∨ 13 ≤ i)
  else if r = .SYN_CMD then decide (i = 0)
  else decide (r.row.rwg ≠ 0)

end Sys2Proof.Machine
end

