-- ==== Sys2Proof/Machine/Store.lean ====
section
/-!
DEFINITION. Machine/Store.lean: sparse stores. A store is a list of (key, value) pairs in ONE canonical form: keys
strictly rising in the order of their numbers, and no entry equal to what an unlisted key reads as. Memory, the register
file, the timeline slots and the per-thread records are all stores, so equal contents are equal data.
-/
namespace Sys2Proof.Machine

/-- A sparse store of values by key. -/
abbrev SMap (κ α : Type) := List (κ × α)

/-- The entry listed for a key, if any. -/
def SMap.find {κ α : Type} [DecidableEq κ] : SMap κ α → κ → Option α
  | [], _ => none
  | (k', v) :: r, k => if k' = k then some v else SMap.find r k

/-- What a key reads as: its entry, or the default of that key. -/
def SMap.get {κ α : Type} [DecidableEq κ] (d : κ → α) (m : SMap κ α) (k : κ) : α := (SMap.find m k).getD (d k)

/-- The store with the entry of a key removed. -/
def SMap.erase {κ α : Type} [DecidableEq κ] : SMap κ α → κ → SMap κ α
  | [], _ => []
  | (k', v) :: r, k => if k' = k then SMap.erase r k else (k', v) :: SMap.erase r k

/-- The store with an entry put at its place in the rising order of the keys' numbers. -/
def SMap.insert {κ α : Type} [DecidableEq κ] (ord : κ → Nat) : SMap κ α → κ → α → SMap κ α
  | [], k, v => [(k, v)]
  | (k', v') :: r, k, v =>
    if k' = k then (k, v) :: r
    else if ord k < ord k' then (k, v) :: (k', v') :: r
    else (k', v') :: SMap.insert ord r k v

/-- A write: an entry equal to the default of its key is not listed. -/
def SMap.set {κ α : Type} [DecidableEq κ] [DecidableEq α] (ord : κ → Nat) (d : κ → α) (m : SMap κ α) (k : κ) (v : α) :
    SMap κ α :=
  if v = d k then SMap.erase m k else SMap.insert ord m k v

/-- The canonical form: keys strictly rising, no entry equal to its key's default. -/
def SMap.wf {κ α : Type} [DecidableEq α] (ord : κ → Nat) (d : κ → α) (m : SMap κ α) : Bool :=
  decide (List.Pairwise (fun a b : κ × α => ord a.1 < ord b.1) m) && m.all (fun e => decide (e.2 ≠ d e.1))

end Sys2Proof.Machine
end

