-- ==== Sys2Proof/Machine/Parts.lean ====
section
/-!
DEFINITION. Machine/Parts.lean: the parts of the engine's state as plain data, block by block: what the spec gives the
engine beside the words of its registers. Machine/State.lean puts them together.
-/
namespace Sys2Proof.Machine

/-- The name of one register: its group and its element. -/
structure RegKey where
  reg : Reg
  idx : Nat
  deriving DecidableEq, Repr

/-- The place of a register in the order of the register file: by element, then by group; the groups' numbers lie below 1024. -/
def RegKey.ord (k : RegKey) : Nat := k.idx * 1024 + k.reg.num

/-- The reset word of a register. -/
def RegKey.dflt (k : RegKey) : BitVec 32 := k.reg.reset k.idx

/-- A register file: every register whose word differs from its reset word. -/
abbrev RegFile := SMap RegKey (BitVec 32)

/-- What EWAIT names (R81): the time register and general register of the result, and the timeout's handle. -/
structure WaitRec where
  td      : Nat
  gd      : Nat
  timeout : Option Nat
  deriving DecidableEq, Repr

/-- One destination of a pending poisoned load (R73): a register file's letter (0 g, 1 t, 2 b) and number. -/
structure PReg where
  file : Nat
  num  : Nat
  deriving DecidableEq, Repr

/-- One Stoker thread (Table 3.2, Table 3.4). -/
structure Thread where
  st       : ThreadSt
  k        : Bool
  pc       : BitVec 64
  g        : SMap Nat (BitVec 64)
  t        : SMap Nat TimeVal
  b        : SMap Nat TagBound
  p        : SMap Nat Bool
  epc      : BitVec 64
  ecause   : Nat
  eval     : BitVec 64
  evect    : BitVec 64
  sat      : Bool
  utc      : Bool
  wbase    : SMap Nat (BitVec 64)
  wlim     : SMap Nat (BitVec 64)
  poison   : SMap Nat (BitVec 64)
  notices  : List Notice
  reserved : Nat
  wait     : Option WaitRec
  deriving DecidableEq, Repr

/-- A bound register at reset: zero with tag PROGRAM (Table 3.3). -/
def TagBound.zero : TagBound := ⟨⟨0, 0⟩, .program⟩

/-- A thread at reset. -/
def Thread.reset : Thread :=
  { st := .idle, k := false, pc := 0, g := [], t := [], b := [], p := [], epc := 0, ecause := 0, eval := 0, evect := 0,
    sat := false, utc := false, wbase := [], wlim := [], poison := [], notices := [], reserved := 0, wait := none }

/-- A loaded image (Table 3.20): identity, version, size of the instruction section, exception entry, entries of the four
threads, SHA-384 of the file. -/
structure Image where
  id       : BitVec 64
  version  : BitVec 32
  imemSize : Nat
  evect    : BitVec 64
  entries  : List (Option (BitVec 64 × Bool))
  digest   : List Byte
  deriving DecidableEq, Repr

/-- One recorded time value of a frame (R78): its full value and whether it lay later than the Datum at the write. -/
structure RecTime where
  value : TimeVal
  later : Bool
  deriving DecidableEq, Repr

/-- How a frame came to its stamp: none yet, received, or sent with a measured departure. -/
inductive FrameStamp where
  | none
  | ingress (t : TimeVal)
  | departed (t : TimeVal)
  deriving DecidableEq, Repr

/-- A frame of a cluster's frame pool (R82): first cell, length, holder, frozen mark, and its descriptor's records. -/
structure Frame where
  cluster : Nat
  cell    : Nat
  len     : Nat
  holder  : Option Nat
  frozen  : Bool
  port    : Nat
  cls     : Nat
  stamp   : FrameStamp
  stampOk : Bool
  times   : List RecTime
  bounds  : List Tag
  deriving DecidableEq, Repr

/-- A crypto job in a cluster's lane (R84, Table 3.16), with the privilege of its submitter and, once it runs, what its key
came to. -/
structure CryptoJob where
  thread   : Nat
  event    : Bool
  op       : Nat
  keySrc   : Nat
  key      : Nat
  jobTag   : BitVec 32
  chain    : Bool
  inAddr   : Nat
  inLen    : Nat
  aadLen   : Nat
  aadAddr  : Nat
  outAddr  : Nat
  nonce    : Nat
  chainW   : BitVec 64
  k        : Bool
  got      : Option (Status × List Byte)
  notify   : Bool
  deriving DecidableEq, Repr

/-- A derived-key handle of a lane (R275): owner, derived key, attribute of its operations, key generation. -/
structure DerivedKey where
  thread : Nat
  slot   : Nat
  key    : List Byte
  gen    : Nat
  deriving DecidableEq, Repr

/-- An armed launch (R83, R208, R209): its thread, frame, port, slot, its instant, its launch point's number with its frame
start (2^-32/825 ns), when it was accepted, and whether its launch point has ceased to exist. -/
structure Launch where
  thread : Nat
  frame  : Nat
  port   : Nat
  slot   : Nat
  instant : TimeVal
  point  : Nat
  start  : Nat
  since  : TimeVal
  lost   : Bool
  deriving DecidableEq, Repr

/-- A register write on its way to the clock die (R18): who made it. -/
structure Posted where
  who : Party
  key : RegKey
  val : BitVec 32
  deriving DecidableEq, Repr

/-- An accepted SETTLE step (R48): the tick that applies it, the offset (signed count of 2^-32 ns), its bound, its source. -/
structure StepReq where
  tick   : Nat
  offset : Int
  bound  : Bound
  source : Nat
  deriving DecidableEq, Repr

/-- How the most recent scheduled UTC change stands (R54). -/
inductive LeapHist where
  | none | taken
  deriving DecidableEq, Repr

/-- What DTM_SNAP latches (R61). -/
structure Snapshot where
  at_  : TimeVal
  b    : Bound
  inc  : BitVec 64
  info : BitVec 32
  deriving DecidableEq, Repr

/-- State of the DTM block beside its registers (02_datum.md). -/
structure DtmState where
  incStaged   : BitVec 32
  incPending  : List (Nat × BitVec 64)
  incHist     : List (Nat × BitVec 64)
  writer      : Option Nat
  settleEnd   : Option TimeVal
  closeAsked  : Bool
  step        : Option StepReq
  now         : TimeVal
  nowHeld     : TimeVal
  snapPend    : Bool
  leapAt      : Option (BitVec 64 × BitVec 16)
  leapHist    : LeapHist
  /-- the latest change that has taken effect: its second, and the offset before it -/
  leapDone    : Option (BitVec 64 × BitVec 16)
  reloadDue   : Bool
  deriving DecidableEq, Repr

/-- The DTM block at reset. -/
def DtmState.reset : DtmState :=
  { incStaged := 0x00CCCCCC#32, incPending := [], incHist := [], writer := none, settleEnd := none, closeAsked := false,
    step := none, now := .zero, nowHeld := .zero, snapPend := false, leapAt := none, leapHist := .none, leapDone := none,
    reloadDue := false }

/-- The claim state of one interrupt source beside its STAT word (R293 to R299): the target it is issued to or active on (the
code of Table 13.2), its tier at claim, DETAIL as of the issue, MOVED, FELL, the first arbitration it won without a
reachable target, the present level of its status line, and whether it is a thread notice still in a queue. -/
structure IrqDyn where
  target   : BitVec 16
  tier     : Nat
  detail   : Nat
  moved    : Bool
  fell     : Bool
  firstWin : Option TimeVal
  line     : Bool
  deriving DecidableEq, Repr

/-- An interrupt source at reset. -/
def IrqDyn.reset : IrqDyn := ⟨0, 0, 0, false, false, none, false⟩

/-- One escalating record's place on the ladder (R264): the step its timer leads to, and the timer's instant. -/
structure Grace where
  nextStep : Nat
  at_      : TimeVal
  deriving DecidableEq, Repr

/-- The committed step-3 summary (R267, Table 14.12). -/
structure FltSummary where
  record : Nat
  stat   : BitVec 32
  cause  : BitVec 32
  source : BitVec 32
  img    : BitVec 64
  firstSec : BitVec 32
  firstNs  : BitVec 32
  at_    : TimeVal
  count  : Nat
  deriving DecidableEq, Repr

/-- A queue's token bucket (R254): tokens in units of 2^-32 token, and the instant they were last brought up to date. -/
structure Bucket where
  tokens : Nat
  at_    : TimeVal
  full   : Bool
  deriving DecidableEq, Repr

/-- The Damper and the fault machinery beside their registers (11_damper_faults.md). -/
structure FltState where
  grace       : SMap Nat Grace
  pulse       : Bool
  step3Hold   : Bool
  resets      : List TimeVal
  summary     : Option FltSummary
  dfdtClock   : Nat
  dfdtHist    : List (Nat × Nat)
  buckets     : SMap Nat Bucket
  oscLast     : SMap Nat TimeVal
  deriving DecidableEq, Repr

/-- A bucket no frame has drawn from since reset: full. -/
def Bucket.reset : Bucket := ⟨0, .zero, true⟩

/-- The Damper and fault machinery at reset. -/
def FltState.reset : FltState :=
  { grace := [], pulse := false, step3Hold := false, resets := [], summary := none, dfdtClock := 0x64, dfdtHist := [],
    buckets := [], oscLast := [] }

/-- The host interface beside its registers (14_host_registers.md): the PCIe link, the function's enables, the unlock, the
write-once register's mark, the completions written to host memory, the last output buffer of each queue, the MSI-X table. -/
structure HstState where
  pcieUp    : Bool
  busMaster : Bool
  msixEn    : Bool
  unlocked  : Bool
  wosDone   : Bool
  cq        : SMap Nat Completion
  outBuf    : SMap Nat (List Byte)
  msix      : SMap Nat (BitVec 32)
  msixPba   : SMap Nat Bool
  posted    : List Posted
  poisoned  : SMap Nat Bool
  stopFetch : Bool
  cookieCtr : BitVec 64
  ce2Mark   : SMap Nat (List TimeVal)
  deriving DecidableEq, Repr

/-- A completion slot of host memory the engine has not written. -/
def Completion.none : Completion := ⟨0, 0, 0, .ok, false⟩

/-- The host interface at reset. -/
def HstState.reset : HstState :=
  { pcieUp := false, busMaster := false, msixEn := false, unlocked := false, wosDone := false, cq := [], outBuf := [],
    msix := [], msixPba := [], posted := [], poisoned := [], stopFetch := false, cookieCtr := 0,
    ce2Mark := [] }

/-- A side of a bound in units of 2^-16 ns; none is unbounded (R132). -/
abbrev Side := Option Nat

/-- The basis of the Datum bound (R136): the instant n_p and the two sides there. -/
structure Basis where
  at_   : TimeVal
  early : Side
  late  : Side
  deriving DecidableEq, Repr

/-- A benchmark record (Table 6.2) before its hash link. -/
structure BmkRecord where
  kind   : Nat
  entry  : Nat
  detail : Nat
  seq    : Nat
  at_    : TimeVal
  phase  : Int
  refE   : BitVec 32
  refL   : BitVec 32
  datE   : BitVec 32
  datL   : BitVec 32
  cond   : Nat
  image  : List Byte
  prev   : List Byte
  deriving DecidableEq, Repr

/-- The coast of SYN0 (R140): its start (DCLK tick and Datum), whether the keeper bridge is lost, the phase change against the
keeper time base, and whether it still runs. -/
structure Coast where
  since   : TimeVal
  noBridge : Bool
  phiK    : Nat
  k0      : Option (TimeVal × BitVec 32)
  running : Bool
  ended   : TimeVal
  deriving DecidableEq, Repr

/-- The Traverse engine beside its registers (06_traverse_bounds.md). Entry marks: accepted entries with their A_r (early,
late) in units of 2^-16 ns. -/
structure TrvState where
  basis     : Basis
  bankB     : Basis
  unsteered : Option Basis
  uSince    : TimeVal
  accepted  : SMap Nat (Nat × Nat)
  coast     : Option Coast
  run       : Nat
  runWorst  : Nat
  outO      : SMap Nat Nat
  ringBase  : Nat
  ring      : List BmkRecord
  pendingR  : List BmkRecord
  wrote     : Bool
  nextSeq   : Nat
  lastHash  : List Byte
  ackStaged : BitVec 32
  deriving DecidableEq, Repr

/-- The Traverse engine at reset: unbounded, nothing recorded. -/
def TrvState.reset : TrvState :=
  { basis := ⟨.zero, none, none⟩, bankB := ⟨.zero, none, none⟩, unsteered := none, uSince := .zero, accepted := [],
    coast := none, run := 0, runWorst := 0, outO := [], ringBase := 0, ring := [], pendingR := [], wrote := false, nextSeq := 0,
    lastHash := [], ackStaged := 0 }

/-- The package's fuses (Table 16.4). The factory-blown root secret and what is derived from it are not readable data. -/
structure Fuses where
  lcP      : Bool
  lcF      : Bool
  lcR      : Bool
  owner    : List Byte
  ownerSet : Bool
  invKill  : Bool
  obsKill  : Bool
  matPrio  : Option (BitVec 8)
  dfdtCeil : Option Nat
  deriving DecidableEq, Repr

/-- No fuse blown. -/
def Fuses.blank : Fuses :=
  { lcP := false, lcF := false, lcR := false, owner := [], ownerSet := false, invKill := false, obsKill := false,
    matPrio := none, dfdtCeil := none }

/-- A boot-store entry (R376): the cores it names, and the file's octets. -/
structure BootEntry where
  cores : List Nat
  file  : List Byte
  deriving DecidableEq, Repr

/-- Where the core die stands: held in reset, running, or without power. -/
inductive CoreDie where
  | off | held | running
  deriving DecidableEq, Repr

/-- Supplies, pins, resets, lifecycle and debug beside their registers (16_power_security_life.md). -/
structure PwrState where
  vddKeep   : Bool
  vddClk    : Bool
  coreOk    : Bool
  keepReset : Bool
  resetN    : Bool
  needPin   : Bool
  pwrfail   : Bool
  dclk      : Bool
  core      : CoreDie
  kindle    : Bool
  ember     : Bool
  gatedCr   : List Nat
  gatedGnss : Bool
  isolated  : List Nat
  gatedLoops : List Nat
  fuses     : Fuses
  debugged  : Bool
  zeroised  : Bool
  debug     : DebugLevel
  boot      : List BootEntry
  minVer    : SMap Nat Nat
  warnAt    : Option TimeVal
  lostWarn  : Option (Option Nat)
  /-- the decoded ARB_IN (MAT_STAT.ARB codes), whether MATE_PRESENT is high, and when it rose -/
  arbIn     : Nat
  mateHigh  : Bool
  mateRise  : Option TimeVal
  /-- since when the core supplies have been below their minimum -/
  coreLost  : Option TimeVal
  deriving DecidableEq, Repr

/-- Power, security and debug at the first power-on: nothing supplied, nothing fused. -/
def PwrState.reset : PwrState :=
  { vddKeep := false, vddClk := false, coreOk := false, keepReset := false, resetN := true, needPin := false, pwrfail := false,
    dclk := false, core := .off, kindle := false, ember := false, gatedCr := [], gatedGnss := false, isolated := [],
    gatedLoops := [], fuses := .blank, debugged := false, zeroised := false, debug := .off, boot := [], minVer := [],
    warnAt := none, lostWarn := none, arbIn := 0, mateHigh := true, mateRise := none, coreLost := none }

/-- The temperature sensors (R401): the latest readings in 0.1 °C, the readings of the last second that can be its highest, and
whether the core-die thermal trip holds the die. -/
structure ThmState where
  clk      : Int
  core     : Int
  clkHist  : List (TimeVal × Int)
  quad     : SMap Nat Int
  quadHist : SMap Nat (List (TimeVal × Int))
  trip     : Bool
  deriving DecidableEq, Repr

/-- The sensors before the first reading: 25.0 °C (DESIGN CHOICE). -/
def ThmState.reset : ThmState := { clk := 250, core := 250, clkHist := [], quad := [], quadHist := [], trip := false }

/-- An accepted table of bin widths (R96 to R99): the lowest code, the widths in fs, LOG2N, the temperature in 0.1 °C and the
Datum of its acceptance. -/
structure CalTable where
  lo     : Nat
  widths : List Nat
  log2n  : Nat
  temp   : Int
  at_    : TimeVal
  deriving DecidableEq, Repr

/-- An open one-shot (R94): its tag, when it opened and closes, and whether an edge arrived that it could not take. -/
structure OneShot where
  tag     : Nat
  openAt  : TimeVal
  closeAt : TimeVal
  arrived : Bool
  deriving DecidableEq, Repr

/-- A pending calibration request (R97, R101). -/
structure CalReq where
  at_     : TimeVal
  byOwner : Bool
  deriving DecidableEq, Repr

/-- A calibration that collects hits (R97, R98): its start, LOG2N, the temperatures seen, whether A6's disturbance occurred. -/
structure CalRun where
  from_     : TimeVal
  log2n     : Nat
  tmin      : Int
  tmax      : Int
  disturbed : Bool
  deriving DecidableEq, Repr

/-- A TIC channel beside its registers; channel 16 is channel K. `started`: its first calibration since the keeper-domain start is
scheduled (R101). -/
structure TicChan where
  seq      : BitVec 32
  edges    : Nat
  lastConv : Option Nat
  skipped  : Bool
  discont  : Bool
  os       : Option OneShot
  req      : Option CalReq
  run      : Option CalRun
  table    : Option CalTable
  base     : Nat
  started  : Bool
  deriving DecidableEq, Repr

/-- A channel at reset. -/
def TicChan.reset : TicChan :=
  { seq := 0, edges := 0, lastConv := none, skipped := false, discont := false, os := none, req := none, run := none,
    table := none, base := 0, started := false }

/-- The time-interval counter bank beside its registers (04_interval_measurement.md): the channels, T_ofs of R102, and channel
K's first and latest records of the present second with their number. -/
structure TicState where
  ch      : SMap Nat TicChan
  kxOfsAt : Nat
  kFirst  : Option TimeVal
  kLast   : Option TimeVal
  kCount  : Nat
  deriving DecidableEq, Repr

/-- The bank at reset. -/
def TicState.reset : TicState := { ch := [], kxOfsAt := 0, kFirst := none, kLast := none, kCount := 0 }

/-- One sample of an entry (R109 to R111): the Datum second it belongs to, its phase in 2^-16 ns, its bound, DISCONT, and the
image octets of a network submission. -/
structure EnsSample where
  sec     : Nat
  x       : Int
  early   : BitVec 32
  late    : BitVec 32
  discont : Bool
  image   : List Byte
  deriving DecidableEq, Repr

/-- A processed second's phase of one entry. -/
structure EnsPoint where
  sec   : Nat
  x     : Int
  early : BitVec 32
  late  : BitVec 32
  deriving DecidableEq, Repr

/-- Sums of a least-squares line through the samples of a window. -/
structure LineFit where
  n   : Int
  st  : Int
  sx  : Int
  stt : Int
  stx : Int
  deriving DecidableEq, Repr

/-- One averaging time of the Allan deviation (R112): the last two phases, the second the next is due, the average of the
squared second differences and their number. -/
structure AdevAcc where
  x1   : Option Int
  x2   : Option Int
  due  : Nat
  avg  : Nat
  n    : Nat
  deriving DecidableEq, Repr

/-- The alignment of a FREQUENCY entry (R115): its second q, x_r[q], x_E[q] and the bound there. -/
structure EnsAlign where
  q     : Nat
  xr    : Int
  xe    : Int
  early : BitVec 32
  late  : BitVec 32
  deriving DecidableEq, Repr

/-- A reference entry beside its registers: the next stream mark, the previous unwrapped sample, the samples that wait, the
runs that Table 5.3 counts, the qualification window, the history of the drift test, its alignment, its Allan deviation. -/
structure EnsEntry where
  mark    : Option TimeVal
  prev    : Option Int
  samples : List EnsSample
  missRun : Nat
  presRun : Nat
  suspRun : Nat
  triRun  : Nat
  winFrom : Nat
  winMiss : Nat
  winFit  : LineFit
  winDone : Bool
  lost    : Bool
  last    : Option EnsPoint
  diffs   : List EnsPoint
  align   : Option EnsAlign
  adev    : SMap Nat AdevAcc
  image   : List Byte
  deriving DecidableEq, Repr

/-- An entry at reset. -/
def EnsEntry.reset : EnsEntry :=
  { mark := none, prev := none, samples := [], missRun := 0, presRun := 0, suspRun := 0, triRun := 0, winFrom := 0, winMiss := 0,
    winFit := ⟨0, 0, 0, 0, 0⟩, winDone := false, lost := false, last := none, diffs := [], align := none, adev := [],
    image := [] }

/-- The weighted sums of the holdover fit (R124), with time measured from `at_`: weights scaled by 2^40, time in seconds,
temperature in 2^-8 °C, frequency in 10^-15. -/
structure HoldFit where
  w   : Int
  st  : Int
  stt : Int
  sT  : Int
  stT : Int
  sTT : Int
  sy  : Int
  sty : Int
  sTy : Int
  syy : Int
  at_ : Nat
  deriving DecidableEq, Repr

/-- An empty fit. -/
def HoldFit.zero : HoldFit := ⟨0, 0, 0, 0, 0, 0, 0, 0, 0, 0, 0⟩

/-- What the holdover commit stores (R125): a sequence number, the sums, the fitted values and the steering reference codes. -/
structure HoldRecord where
  seq  : Nat
  fit  : HoldFit
  tref : Int
  regs : List (BitVec 32)
  refs : List (BitVec 32)
  deriving DecidableEq, Repr

/-- A steering word on its way to an oscillator (R129): its code, bit count and the instant its transfer begins. -/
structure OscWord where
  code : BitVec 32
  bits : Nat
  at_  : TimeVal
  deriving DecidableEq, Repr

/-- The ensemble assist beside its registers (05_ensemble_holdover.md). -/
structure EnsState where
  /-- the integral of T - T_ref since ENS_BANK_AT, in 2^-8 K s (R127), and the part without a reading, in K s -/
  theta     : Int
  thetaMiss : Nat
  /-- the integral of y_pred + y_inc since ENS_BANK_AT, in 10^-15 s, and the instant it reaches (R127) -/
  resid     : Int
  residAt   : TimeVal
  ent       : SMap Nat EnsEntry
  /-- the next second to be processed (R411) -/
  procNext  : Option Nat
  /-- the aligned phases of the last processed second that formed an ensemble phase (R124) -/
  prevPhase : Option (Nat × List (Nat × Int))
  /-- the latest second that R124 excludes for a SETTLE window, a step, a lock loss, a source change or a keeper disagreement -/
  exclUntil : Nat
  fit       : HoldFit
  tref      : Int
  osc       : SMap Nat OscWord
  /-- measurements of GNSS and the mate on their way to the assist (R411) -/
  meas      : List (Nat × EnsSample)
  deriving DecidableEq, Repr

/-- The ensemble assist at reset. -/
def EnsState.reset : EnsState :=
  { theta := 0, thetaMiss := 0, resid := 0, residAt := .zero, ent := [], procNext := none, prevPhase := none, exclUntil := 0,
    fit := .zero, tref := 0, osc := [], meas := [] }

/-- A SYN loop beside its registers (R153, R159, R166): the staged control word, whether the start searched, the entries of its
hop table from the latest used, and the phase error being removed with its instant. -/
structure SynLoop where
  stInt    : BitVec 32
  stNum    : BitVec 32
  searched : Bool
  recent   : List Nat
  left     : Int
  leftAt   : TimeVal
  deriving DecidableEq, Repr

/-- A CLKOUT output (R167 to R169): the divider its waveform has, the one that an armed alignment brings, and that second. -/
structure SynOut where
  div     : Nat
  newDiv  : Nat
  alignAt : Option Nat
  stDiv   : BitVec 32
  deriving DecidableEq, Repr

/-- An output at reset: the divider of its register. -/
def SynOut.reset : SynOut := ⟨40, 40, none, 0⟩

/-- What an IRIG-B frame says (R172): seconds of the day's fields, the year, the scale, the control bits. -/
structure IrigFrame where
  sec    : Nat
  min    : Nat
  hour   : Nat
  day    : Nat
  year   : Nat
  sbs    : Nat
  cf     : BitVec 27
  format : Nat
  deriving DecidableEq, Repr

/-- A PPSOUT pin (R171): EN and FORMAT in effect, the second at which a write takes effect, the second of its latest edge, and
the latest IRIG-B frame. -/
structure SynPps where
  en     : Bool
  irig   : Bool
  takeAt : Option Nat
  last   : Option Nat
  frame  : Option IrigFrame
  deriving DecidableEq, Repr

/-- A PPSOUT pin at reset. -/
def SynPps.reset : SynPps := ⟨false, false, none, none, none⟩

/-- What a time-of-day message says (R173). -/
structure TodMessage where
  sec    : BitVec 64
  utcOk  : Bool
  offset : Int
  leap61 : Bool
  leap59 : Bool
  cls    : Nat
  deriving DecidableEq, Repr

/-- The qualification of SYN0's reference (R165): its end, and whether the source is new. -/
structure SynQual where
  end_    : TimeVal
  newSrc  : Bool
  deriving DecidableEq, Repr

/-- Clock synthesis beside its registers (07_clock_synthesis.md). -/
structure SynState where
  loops  : SMap Nat SynLoop
  outs   : SMap Nat SynOut
  pps    : SMap Nat SynPps
  tod    : SMap Nat TodMessage
  qual   : Option SynQual
  /-- an alignment armed by SYNC_IN or its block action: the second, the outputs -/
  sync   : Option (Nat × BitVec 24)
  /-- whether a loop 0 start has reached LOCKED or COAST since the keeper-domain start -/
  locked0 : Bool
  deriving DecidableEq, Repr

/-- A loop at reset, with its number. -/
def SynLoop.reset (n : Nat) : SynLoop :=
  ⟨if n = 0 then 0x64 else if n = 14 then 0x78 else if n = 15 then 0x80 else 0xFA, 0, false, [], 0, .zero⟩

/-- Clock synthesis at reset. -/
def SynState.reset : SynState :=
  { loops := [], outs := [], pps := [], tod := [], qual := none, sync := none, locked0 := false }

/-- An acquisition job (R184): its level 1 to 4, antenna, signal, satellite. -/
structure AcqJob where
  level : Nat
  ant   : Nat
  sig   : Nat
  sv    : Nat
  deriving DecidableEq, Repr

/-- A capture of samples (R195): its ports and length, its start, whether the audit schedule asked for it. -/
structure Capture where
  ports : Nat
  len   : Nat
  at_   : TimeVal
  audit : Bool
  deriving DecidableEq, Repr

/-- A survey of an antenna (R191): its start, the estimates so far and their sums in cm, the sum of their variances in mm^2. -/
structure Survey where
  from_ : Nat
  n     : Nat
  sx    : Int
  sy    : Int
  sz    : Int
  var   : Nat
  deriving DecidableEq, Repr

/-- The GNSS baseband beside its registers (08_gnss_baseband.md). -/
structure GnsState where
  /-- PWR of the last 3 600 seconds without JAM, newest first, and the seconds within the threshold since JAM (R180) -/
  pwr      : SMap Nat (List (BitVec 16))
  calm     : SMap Nat Nat
  /-- the time-channel term of each port's latest conversion, in 10^-3 fs (R192) -/
  tcTerm   : SMap Nat Nat
  jobs     : List AcqJob
  job      : Option AcqJob
  /-- satellites whose ephemeris is held, as (system, satellite) -/
  eph      : List (Nat × Nat)
  /-- the second until which a channel's satellite stays excluded (R193) -/
  excl     : SMap Nat Nat
  /-- the latest second latched -/
  latched  : Option Nat
  surveys  : SMap Nat Survey
  resolved : Option Nat
  floorStaged : BitVec 32
  floorDay : Nat
  fltPin   : SMap Nat Bool
  /-- a capture that waits for its start, the one in progress, and the buffer -/
  armed    : Option Capture
  running  : Option Capture
  buffer   : List Byte
  audLast  : Nat
  audBusy  : Bool
  audPass  : Nat
  spi      : Option (Nat × Nat × BitVec 32)
  ephCommit : Nat
  deriving DecidableEq, Repr

/-- The baseband at reset; ANT_FLT pins read high, which the reset polarity does not assert. -/
def GnsState.reset : GnsState :=
  { pwr := [], calm := [], tcTerm := [], jobs := [], job := none, eph := [], excl := [], latched := none, surveys := [],
    resolved := none, floorStaged := 0, floorDay := 0, fltPin := [], armed := none, running := none, buffer := [], audLast := 0,
    audBusy := false, audPass := 0, spi := none, ephCommit := 0 }

/-- A frame in a port's receive buffer (R204): its octets without the FCS, its class, its timestamp, and whether the timestamp
is bounded (R16). -/
structure RxFrame where
  data : List Byte
  cls  : Nat
  at_  : TimeVal
  ok   : Bool
  deriving DecidableEq, Repr

/-- A frame in a transmit queue Q0 to Q6 (R205): the thread that asked for SENT_TS, the earliest instant at which it may begin
(2^-32/825 ns), and whether a guard band has held it back. -/
structure TxItem where
  frame  : Nat
  queue  : Nat
  notify : Option Nat
  from_  : Nat
  held   : Bool
  deriving DecidableEq, Repr

/-- A frame that is leaving: its launch if it is one, the thread that asked for SENT_TS, its departure, its last bit's instant
(2^-32/825 ns). -/
structure TxNow where
  frame  : Nat
  launch : Option Launch
  notify : Option Nat
  stamp  : TimeVal
  end_   : Nat
  deriving DecidableEq, Repr

/-- A received PAUSE or PFC frame that has not taken effect: T_act (2^-32/825 ns) and the pause times by queue (R212). -/
structure PauseReq where
  act   : Nat
  times : List (Nat × Nat)
  deriving DecidableEq, Repr

/-- A port beside its registers (R204 to R213): the receive buffer, the queues, the frames leaving, the instant from which a new
frame may begin, the pauses to come, the paused queues with their T_end, the instant from which an unpaused queue may send, the
phase of the launch points, T_cal in 0.1 °C, and the octets of the latest frame put on the line. Instants are in 2^-32/825 ns. -/
structure Port where
  rx     : List RxFrame
  q      : List TxItem
  tx     : List TxNow
  free   : Nat
  pauses : List PauseReq
  until_ : SMap Nat Nat
  since  : SMap Nat Nat
  phase  : Nat
  temp   : Int
  line   : List Byte
  deriving DecidableEq, Repr

/-- A port at reset. -/
def Port.reset : Port :=
  { rx := [], q := [], tx := [], free := 0, pauses := [], until_ := [], since := [], phase := 0, temp := 0, line := [] }

/-- The ports beside their registers (09_ports_timestamping.md), and the departures of freed frames by handle: the port, and the
measured departure if there was one (R82, R206). -/
structure PrtState where
  ports : SMap Nat Port
  sent  : SMap Nat (Nat × Option TimeVal)
  deriving DecidableEq, Repr

/-- The ports at reset. -/
def PrtState.reset : PrtState := { ports := [], sent := [] }

/-- The content of a key slot (R274, R275): attribute, length, derivation mode and length, label, key, the counter of the
envelope that wrote it. Attribute 0 marks an erased slot. -/
structure KeyRec where
  attr  : Nat
  len   : Nat
  dmode : Nat
  dlen  : Nat
  label : List Byte
  key   : List Byte
  ctr   : BitVec 64
  deriving DecidableEq, Repr

/-- A key update envelope whose verification runs (R280): the queue and tag of its command, its slot, what it writes. -/
structure KeyEnv where
  q    : Nat
  cid  : BitVec 32
  slot : Nat
  what : KeyRec
  deriving DecidableEq, Repr

/-- The key store beside its registers (12_keys_attestation.md): the slots in the controller's memory, the envelope in
verification. -/
structure KeyState where
  slots  : SMap Nat KeyRec
  env    : Option KeyEnv
  deriving DecidableEq, Repr

/-- The key store at reset. -/
def KeyState.reset : KeyState := { slots := [], env := none }

/-- The two copies of a slot's record in the Cairn store (R278). -/
structure KeyCopies where
  a : Option KeyRec
  b : Option KeyRec
  deriving DecidableEq, Repr

/-- An accepted in-situ calibration held in the Cairn store (R216): d_tx and d_rx in fs, T_cal in 0.1 °C. -/
structure PortCal where
  tx   : Nat
  rx   : Nat
  temp : Int
  deriving DecidableEq, Repr

/-- A lane of the mate link (R339 to R341, R349): whether it has trained, its accepted calibration's T_cal in 0.1 °C, the
heartbeats sent, the latest one received with its ingress timestamp, and whether it delivers heartbeats. -/
structure MateLane where
  trained : Bool
  cal     : Option Int
  seq     : Nat
  rx      : Option (Heartbeat × TimeVal)
  alive   : Bool
  deriving DecidableEq, Repr

/-- A mate lane at reset. -/
def MateLane.reset : MateLane := { trained := false, cal := none, seq := 0, rx := none, alive := false }

/-- A planned swap that is requested or accepted (R355): its second, the cause code of the role change, whether this engine asked
for it, whether it was accepted, whether this engine is the outgoing one, and whether the overlap has begun. -/
structure MatSwap where
  at_   : Nat
  cause : Nat
  mine  : Bool
  acked : Bool
  out   : Bool
  begun : Bool
  deriving DecidableEq, Repr

/-- The declaration of loss (R350): its instant, whether this engine was ACTIVE then, and whether the mate was. -/
structure MateLoss where
  at_    : TimeVal
  active : Bool
  both   : Bool
  deriving DecidableEq, Repr

/-- The mated pair beside its registers (15_mated_pair.md). -/
structure MatState where
  lanes   : SMap Nat MateLane
  /-- the core-die start, and the instant of INIT -/
  start   : Option TimeVal
  init    : Option TimeVal
  decided : Bool
  loss    : Option MateLoss
  /-- the witness has shown the mate since the loss, and the latest match -/
  witness : Bool
  matchAt : Option TimeVal
  promoteAt : Option TimeVal
  /-- promoted while the mate was LOST (R353), and the end of the witness window -/
  promoted : Bool
  winEnd  : Option TimeVal
  /-- since when ARB_IN reads ACTIVE -/
  arbActive : Option TimeVal
  swap    : Option MatSwap
  swapNak : Bool
  /-- the end of the 100 µs after a swap's instant (R347) -/
  swapEnd : Option TimeVal
  /-- since when both engines have been healthy (R358), and since when this engine alone has been unhealthy (R359) -/
  bothOk  : Option TimeVal
  aloneBad : Option TimeVal
  /-- the mirror: lines written (window, offset, first write), frames that wait with their octets, the next number, the highest applied, windows to copy, the offset the copy
  has reached, whether stores wait for END -/
  dirty   : List (Nat × Nat × TimeVal)
  mirQ    : List MirFrame
  mirSeq  : Nat
  mirRx   : Nat
  copying : List Nat
  mirWait : Bool
  /-- the heartbeat last launched on each lane -/
  sent    : SMap Nat Heartbeat
  deriving DecidableEq, Repr

/-- The pair at reset. -/
def MatState.reset : MatState :=
  { lanes := [], start := none, init := none, decided := false, loss := none, witness := false, matchAt := none,
    promoteAt := none, promoted := false, winEnd := none, arbActive := none, swap := none, swapNak := false, swapEnd := none,
    bothOk := none, aloneBad := none, dirty := [], mirQ := [], mirSeq := 0, mirRx := 0, copying := [], mirWait := false,
    sent := [] }

/-- The performance counters beside their registers (R301 to R307): whether records were dropped before the next of a cluster,
and the mirrors' SEQ by thread. -/
structure PmcState where
  drop : SMap Nat Bool
  seq  : SMap Nat Nat
  deriving DecidableEq, Repr

/-- The counters at reset. -/
def PmcState.reset : PmcState := { drop := [], seq := [] }

/-- A cancellation that waits (R247): the record's index in the client table, its port's cluster and the instant it is due. -/
structure SvcCancel where
  rec_ : Nat
  cl   : Nat
  at_  : TimeVal
  deriving DecidableEq, Repr

/-- The standard service image beside its registers (10_time_service.md), by cluster * 16 + class index: the demand of the clients
with a record (unit 1/8), the units of clients without one in the present second and in the last, the units spent on refused
requests in the present second and in the last; the second these counts are of; the seconds the lower load has held; the
messages per second that each record's grants would be at ADMIT (record * 4 + type, unit 1/8); the cancellations that wait; the
counters of cookie nonces by cluster (16: the security controller); the rebuilds of each frame's reply; the launches of each
port's present train with the line instant at which the train ends; the octets of two-step messages whose SENT_TS has not come; the S2C key and the
plain cookies of each NTS reply. `base` is the client table's base in
effect, the value that a commit of SVC_TABLE_CFG put there (R322). -/
structure SvcState where
  demand  : SMap Nat Nat
  units   : SMap Nat Nat
  unitsWas : SMap Nat Nat
  spent   : SMap Nat Nat
  refused : SMap Nat Nat
  second  : Nat
  low     : SMap Nat Nat
  asked   : SMap Nat Nat
  cancels : List SvcCancel
  nonce   : SMap Nat (BitVec 64)
  rebuilt : SMap Nat Nat
  train   : SMap Nat (Nat × Nat)
  follow  : SMap Nat (List Byte)
  ntsKey  : SMap Nat (List Byte × List Byte)
  base    : BitVec 64
  /-- the lane handles that the image uses, the least recently used first -/
  keyUse  : List Nat
  deriving DecidableEq, Repr

/-- The service at reset. -/
def SvcState.reset : SvcState :=
  { demand := [], units := [], unitsWas := [], spent := [], refused := [], second := 0, low := [], asked := [], cancels := [], nonce := [],
    rebuilt := [], train := [], follow := [], ntsKey := [], base := 0, keyUse := [] }

end Sys2Proof.Machine
end

