-- ==== Sys2Proof/Machine/State.lean ====
section
/-!
DEFINITION. Machine/State.lean: the state of the engine as plain data, and the state right after reset. Every register of
BAR0 lives in the register file `regs`; the state the spec gives the engine beside its registers stands in the fields of
the blocks. `pending` is the queue of waiting commands, first in, first out.
-/
namespace Sys2Proof.Machine

/-- Why the machine stops. The spec gives every command an effect, so no meaning raises one: a fault has no constructor. -/
inductive Fault : Type where
  deriving DecidableEq, Repr

/-- Why a command has no meaning. -/
inductive Refusal where
  /-- Raised by the dispatcher for a command whose meaning is not written; safe (the run stops). -/
  | notModelled (mnemonic : String)
  deriving DecidableEq, Repr

/-- The values the Cairn store holds beside the records of the blocks (R25, R45, R53, R141, R383): the committed register
words, the last committed Datum with its bound, and the key store's committed part. -/
structure Cairn where
  regs   : RegFile
  datum  : TimeVal
  early  : Side
  late   : Side
  leapAt : Option (BitVec 64 × BitVec 16)
  inc    : BitVec 64
  tic    : SMap Nat CalTable
  hold   : List HoldRecord
  eph    : List (Nat × Nat)
  port   : SMap Nat PortCal
  keys   : SMap Nat KeyCopies
  keyCtr : BitVec 64 × BitVec 64
  tkOut  : Bool
  deriving DecidableEq, Repr

/-- The Cairn store of a new package: nothing committed. -/
def Cairn.reset : Cairn :=
  { regs := [], datum := .zero, early := none, late := none, leapAt := none, inc := 0x00CCCCCCCCCCCCCD#64, tic := [], hold := [], eph := [], port := [], keys := [], keyCtr := (0, 0), tkOut := false }

/-- The state of the engine. -/
structure State where
  /-- every register word of BAR0 -/
  regs     : RegFile
  /-- the slow copies the core die holds of the clock-die and keeper registers (R318) -/
  copy     : RegFile
  /-- DMEM, IMEM, CMEM and DDR, in one flat address space of octets -/
  mem      : List Host.Cell
  /-- the Datum counter on the clock die (R37) -/
  datum    : Datum
  /-- the Datum replica on the core die (R14) -/
  replica  : Datum
  /-- whether the replica is loaded and no mismatch is pending (R16) -/
  replicaOk : Bool
  /-- whether the die-to-die link is up (R17) -/
  d2dUp    : Bool
  /-- DCLK ticks since the model's start of time -/
  tick     : Nat
  timeline : SMap Nat Slot
  threads  : SMap Nat Thread
  images   : SMap Nat Image
  frames   : SMap Nat Frame
  launches : SMap Nat Launch
  jobs     : SMap Nat (List CryptoJob)
  derived  : SMap Nat DerivedKey
  irq      : SMap Nat IrqDyn
  dtm      : DtmState
  flt      : FltState
  hst      : HstState
  trv      : TrvState
  tic      : TicState
  ens      : EnsState
  thm      : ThmState
  syn      : SynState
  gns      : GnsState
  prt      : PrtState
  key      : KeyState
  mat      : MatState
  pmc      : PmcState
  svc      : SvcState
  pwr      : PwrState
  cairn    : Cairn
  /-- the Datum second at which each once-a-second action last took place, by its number (the model's own mark) -/
  secDone  : SMap Nat Nat
  /-- the model's own counter of free values drawn (no part of the engine) -/
  freeCtr  : Nat
  /-- the waiting commands, first in, first out -/
  pending  : List Instr
  deriving DecidableEq, Repr

/-- The engine right after power-on reset of every domain: every register at its reset word, DCLK stopped, the core die in
reset, nothing stored, nothing waiting. -/
def State.reset : State :=
  { regs := [], copy := [], mem := [], datum := ⟨.zero, 0⟩, replica := ⟨.zero, 0⟩, replicaOk := false, d2dUp := false,
    tick := 0, timeline := [], threads := [], images := [], frames := [], launches := [], jobs := [], derived := [],
    irq := [], dtm := .reset, flt := .reset, hst := .reset, trv := .reset, tic := .reset, ens := .reset, thm := .reset, syn := .reset, gns := .reset, prt := .reset, key := .reset, mat := .reset, pmc := .reset, svc := .reset, pwr := .reset, cairn := .reset, secDone := [], freeCtr := 0,
    pending := [] }

end Sys2Proof.Machine
end

