-- ==== Sys2Proof/Machine/Ops.lean ====
section
/-!
DEFINITION. Machine/Ops.lean: the named operations over the state that every family of commands shares: registers and their
fields, octets of memory, Datum instants, interrupt sources, fault records, ownership, notices and the timeline.
-/
namespace Sys2Proof.Machine

/-- What a command answers. -/
abbrev Out := Host.Outcome State Fault Refusal

/-! ### Registers -/

/-- The word of a register. -/
def State.rg (s : State) (r : Reg) (i : Nat) : BitVec 32 := SMap.get RegKey.dflt s.regs ⟨r, i⟩

/-- The state with a register's word replaced. -/
def State.wr (s : State) (r : Reg) (i : Nat) (v : BitVec 32) : State :=
  { s with regs := SMap.set RegKey.ord RegKey.dflt s.regs ⟨r, i⟩ v }

/-- The value of a field of a word. -/
def Fld.of (f : Fld) (v : BitVec 32) : Nat := bitsOf v.toNat f.hi f.lo

/-- A word with one field replaced. -/
def Fld.put (f : Fld) (v : BitVec 32) (n : Nat) : BitVec 32 :=
  BitVec.ofNat 32 (v.toNat - bitsOf v.toNat f.hi f.lo * 2 ^ f.lo + n % 2 ^ (f.hi - f.lo + 1) * 2 ^ f.lo)

/-- The value of a field of element `i` of its register. -/
def State.fd (s : State) (f : Fld) (i : Nat := 0) : Nat := f.of (s.rg f.reg i)

/-- Whether a one-bit field is 1. -/
def State.fb (s : State) (f : Fld) (i : Nat := 0) : Bool := decide (s.fd f i = 1)

/-- The state with a field of element `i` of its register replaced. -/
def State.setF (s : State) (f : Fld) (n : Nat) (i : Nat := 0) : State := s.wr f.reg i (f.put (s.rg f.reg i) n)

/-- The state with a one-bit field replaced. -/
def State.setB (s : State) (f : Fld) (b : Bool) (i : Nat := 0) : State := s.setF f (bit01 b) i

/-- A 32-bit register with one added, modulo 2^32. -/
def State.bump (s : State) (r : Reg) (i : Nat := 0) : State := s.wr r i (s.rg r i + 1#32)

/-- A register pair, high and low, as one 64-bit value. -/
def State.pair (s : State) (hi lo : Reg) (i : Nat := 0) : BitVec 64 := s.rg hi i ++ s.rg lo i

/-- A register pair set from one 64-bit value. -/
def State.setPair (s : State) (hi lo : Reg) (v : BitVec 64) (i : Nat := 0) : State :=
  (s.wr hi i (v.extractLsb' 32 32)).wr lo i (v.extractLsb' 0 32)

/-- A write of a WSTAT register: the bits written 1 among its W1C bits are cleared, and nothing else happens (R313). -/
def State.w1c (s : State) (r : Reg) (i : Nat) (v : BitVec 32) : State :=
  s.wr r i (s.rg r i &&& ~~~(v &&& BitVec.ofNat 32 r.row.w1c))

/-- The part of a written word that reaches the RW and RWG fields of a register; reserved bits keep reading zero (R10). -/
def State.wrRw (s : State) (r : Reg) (i : Nat) (v : BitVec 32) : State :=
  let m : BitVec 32 := BitVec.ofNat 32 (r.row.rw ||| r.row.rwg)
  s.wr r i ((s.rg r i &&& ~~~m) ||| (v &&& m))

/-- A value of the free source, and the counter advanced. -/
def State.fresh (s : State) : BitVec 64 × State := (Config.free64 s.freeCtr, { s with freeCtr := s.freeCtr + 1 })

/-! ### Memory -/

/-- What an octet of memory that nothing has written reads as. DESIGN CHOICE: zero; the spec gives on-chip memory and DDR no
reset contents. -/
def memDefault (_ : Nat) : Byte := 0

/-- The order of memory addresses. -/
def memOrd (a : Nat) : Nat := a

/-- The canonical form of memory. -/
def Memory.wf (m : List Host.Cell) : Bool := SMap.wf memOrd memDefault m

/-- One octet of memory. -/
def State.octet (s : State) (a : Nat) : Byte := SMap.get memDefault s.mem a

/-- The state with one octet of memory replaced. -/
def State.setOctet (s : State) (a : Nat) (v : Byte) : State := { s with mem := SMap.set memOrd memDefault s.mem a v }

/-- Octets of memory from an address. -/
def State.octets (s : State) : Nat → Nat → List Byte
  | _, 0 => []
  | a, n + 1 => s.octet a :: State.octets s (a + 1) n

/-- The state with octets stored from an address. -/
def State.store (s : State) : Nat → List Byte → State
  | _, [] => s
  | a, b :: r => State.store (s.setOctet a b) (a + 1) r

/-- The little-endian value of octets. -/
def leNat : List Byte → Nat
  | [] => 0
  | b :: r => b.toNat + 256 * leNat r

/-- The `n` little-endian octets of a number. -/
def leBytes : Nat → Nat → List Byte
  | 0, _ => []
  | n + 1, v => BitVec.ofNat 8 v :: leBytes n (v / 256)

/-- The `n` big-endian octets of a number. -/
def beBytes (n v : Nat) : List Byte := (leBytes n v).reverse

/-- The model's flat addresses: DDR stands at its thread address (Table 3.5); CMEM of cluster c, DMEM and IMEM of core k
stand at addresses of the model's own, apart from each other. -/
def cmemBase (c : Nat) : Nat := 0x200000000000 + c * 0x100000

/-- DMEM of a core. -/
def dmemBase (k : Nat) : Nat := 0x201000000000 + k * 0x10000

/-- IMEM of a core. -/
def imemBase (k : Nat) : Nat := 0x202000000000 + k * 0x10000

/-- The first DDR address (R408). -/
def ddrBase : Nat := 0x1000000000

/-- The installed memory in octets (R408). -/
def State.ddrSize (s : State) : Nat := ((s.rg .MEM_CH_SIZE 0).toNat + (s.rg .MEM_CH_SIZE 1).toNat) * 0x100000

/-- Whether `n` octets from `a` lie in the installed memory. -/
def State.inDdr (s : State) (a n : Nat) : Bool := decide (ddrBase ≤ a ∧ a + n ≤ ddrBase + s.ddrSize)

/-- The marked poisoned doublewords among `n` octets from `a` (R333). -/
def State.poisonedIn (s : State) (a n : Nat) : Bool :=
  (s.hst.poisoned.any (fun e => decide (a / 8 ≤ e.1 ∧ e.1 * 8 < a + n)))

/-- A store as the memory sees it: the octets change, and a full aligned doubleword write clears its poison mark (R333). -/
def State.storeMem (s : State) (a : Nat) (bs : List Byte) : State :=
  let s' := s.store a bs
  let keep := fun (e : Nat × Bool) => decide (¬ (a ≤ e.1 * 8 ∧ e.1 * 8 + 8 ≤ a + bs.length))
  { s' with hst := { s'.hst with poisoned := List.filter keep s'.hst.poisoned } }

/-! ### Instants -/

/-- The Datum at the start of the present tick. -/
def State.now (s : State) : TimeVal := s.datum.word

/-- The increment in effect (R41: the registers read the value in effect). -/
def State.inc (s : State) : BitVec 64 := s.pair .DTM_INC_HI .DTM_INC_LO

/-- The Datum at the end of the present tick, in units of 2^-56 ns. -/
def State.tickEnd56 (s : State) : Nat := s.datum.count56 + s.inc.toNat

/-- Whether an instant has been reached: its tick under R29 is the present tick or an earlier one. -/
def State.reached (s : State) (t : TimeVal) : Bool := decide (t.count * 2 ^ 24 < s.tickEnd56)

/-- The tick of an instant (R29), counted by the increment in effect. -/
def State.tickOf (s : State) (t : TimeVal) : Nat :=
  let d := s.datum.count56
  let c := t.count * 2 ^ 24
  let i := s.inc.toNat
  if i = 0 then s.tick
  else if d ≤ c then s.tick + (c - d) / i
  else s.tick - (d - c + i - 1) / i

/-- Whether an instant lies less than `lead` counts after the Datum (Table 2.1). -/
def State.tooSoon (s : State) (t : TimeVal) (lead : Nat) : Bool :=
  decide (t.count * 2 ^ 24 < s.datum.count56 + lead * 2 ^ 24)

/-! ### Numbering (R21) -/

/-- The core of an engine thread. -/
def coreOf (th : Nat) : Nat := th / 4

/-- The cluster of an engine thread. -/
def clusterOf (th : Nat) : Nat := th / 32

/-- The core-die region of a cluster. -/
def regionOf (c : Nat) : Nat := c / 4

/-- Whether a cluster's region is gated. -/
def State.gatedCluster (s : State) (c : Nat) : Bool := s.pwr.gatedCr.contains (regionOf c)

/-- Whether the core die runs. -/
def State.coreUp (s : State) : Bool := decide (s.pwr.core = .running)

/-- Whether the clock die runs. -/
def State.clockUp (s : State) : Bool := s.pwr.vddKeep && s.pwr.vddClk && !s.pwr.keepReset

/-! ### Threads -/

/-- A thread's record. -/
def State.thread (s : State) (n : Nat) : Thread := SMap.get (fun _ => Thread.reset) s.threads n

/-- The state with a thread's record replaced. -/
def State.setThread (s : State) (n : Nat) (t : Thread) : State :=
  { s with threads := SMap.set id (fun _ => Thread.reset) s.threads n t }

/-- A core's image, if one is loaded. -/
def State.image (s : State) (k : Nat) : Option Image := SMap.find s.images k

/-- The image identifier of a thread's core; zero with no image. -/
def State.imageId (s : State) (th : Nat) : BitVec 64 :=
  match s.image (coreOf th) with
  | some i => i.id
  | none => 0

/-! ### Interrupt sources (R287 to R290) -/

/-- The claim state of a source. -/
def State.irqDyn (s : State) (n : Nat) : IrqDyn := SMap.get (fun _ => IrqDyn.reset) s.irq n

/-- The state with the claim state of a source replaced. -/
def State.setIrqDyn (s : State) (n : Nat) (d : IrqDyn) : State :=
  { s with irq := SMap.set id (fun _ => IrqDyn.reset) s.irq n d }

/-- The number of FLT_RAISE (Table 13.1). -/
def irqFltRaise : Nat := 96

/-- A source made pending (R290): a raise while the bit is set coalesces; DETAIL takes the latest raise's, but for FLT_RAISE,
which keeps the highest class raised. -/
def State.irqLatch (s : State) (n detail : Nat) : State :=
  if s.fb Fld.IRQ_SRC_STAT.PEND n then
    let c := s.fd Fld.IRQ_SRC_STAT.COALESCE n
    let s1 := s.setF Fld.IRQ_SRC_STAT.COALESCE (min 0xFF (c + 1)) n
    s1.setF Fld.IRQ_SRC_STAT.DETAIL (if n = irqFltRaise then max detail (s.fd Fld.IRQ_SRC_STAT.DETAIL n) else detail) n
  else (s.setB Fld.IRQ_SRC_STAT.PEND true n).setF Fld.IRQ_SRC_STAT.DETAIL detail n

/-- A pulse on a source's status line: an enabled EDGE source latches it; a disabled or DOORBELL source does not (R288). -/
def State.irqPulse (s : State) (n detail : Nat) : State :=
  if s.coreUp && s.fb Fld.IRQ_SRC_CFG.EN n && !s.fb Fld.IRQ_SRC_CFG.MODE n then s.irqLatch n detail else s

/-- A level on a source's status line: a rising edge latches as a pulse does. -/
def State.irqLine (s : State) (n : Nat) (b : Bool) : State :=
  if s.coreUp then
    let d := s.irqDyn n
    let s1 := (s.setIrqDyn n { d with line := b }).setB Fld.IRQ_SRC_STAT.LINE b n
    if b && !d.line then s1.irqPulse n 0 else s1
  else s

/-! ### Notices (R81) -/

/-- A notice put at its place in a queue, behind those that do not stand after it. -/
def insertNotice (n : Notice) : List Notice → List Notice
  | [] => [n]
  | h :: r => if n.before h then n :: h :: r else h :: insertNotice n r

/-- The entries of a thread's queue that are taken: notices held and entries reserved. -/
def Thread.taken (t : Thread) : Nat := t.notices.length + t.reserved

/-- Whether a queue entry is free (64 entries). -/
def Thread.hasFree (t : Thread) : Bool := decide (t.taken < 64)

/-- General register `i` of a thread; g0 reads zero (Table 3.2). -/
def Thread.gr (t : Thread) (i : Nat) : BitVec 64 := if i = 0 then 0 else SMap.get (fun _ => 0) t.g i

/-- A write of general register `i`: g0 discards it (Table 3.2). A pending poison of the register is overwritten (R73). -/
def Thread.setG (t : Thread) (i : Nat) (v : BitVec 64) : Thread :=
  if i = 0 then t
  else { t with g := SMap.set id (fun _ => 0) t.g i v, poison := SMap.erase t.poison i }

/-- Time register `i`. -/
def Thread.tr (t : Thread) (i : Nat) : TimeVal := SMap.get (fun _ => TimeVal.zero) t.t i

/-- A write of time register `i`. -/
def Thread.setT (t : Thread) (i : Nat) (v : TimeVal) : Thread :=
  { t with t := SMap.set id (fun _ => TimeVal.zero) t.t i v, poison := SMap.erase t.poison (32 + i) }

/-- Bound register `i`. -/
def Thread.br (t : Thread) (i : Nat) : TagBound := SMap.get (fun _ => TagBound.zero) t.b i

/-- A write of bound register `i`. -/
def Thread.setBd (t : Thread) (i : Nat) (v : TagBound) : Thread :=
  { t with b := SMap.set id (fun _ => TagBound.zero) t.b i v, poison := SMap.erase t.poison (40 + i) }

/-- Predicate `i`. -/
def Thread.pr (t : Thread) (i : Nat) : Bool := SMap.get (fun _ => false) t.p i

/-- A write of predicate `i`. -/
def Thread.setP (t : Thread) (i : Nat) (v : Bool) : Thread := { t with p := SMap.set id (fun _ => false) t.p i v }

/-! ### Timeline (R28, R56 to R59) -/

/-- A timeline slot. -/
def State.slot (s : State) (h : Nat) : Slot := SMap.get (fun _ => Slot.empty) s.timeline h

/-- The state with a slot replaced. -/
def State.setSlot (s : State) (h : Nat) (x : Slot) : State :=
  { s with timeline := SMap.set id (fun _ => Slot.empty) s.timeline h x }

/-- The slots armed now (DTM_TL_USED). -/
def State.armedCount (s : State) : Nat := (s.timeline.filter (fun e => e.2.armed.isSome)).length

/-- DTM_TL_USED brought up to date, and DTM_TL_PEAK raised to it. -/
def State.tlCount (s : State) : State :=
  let n := s.armedCount
  let s1 := s.wr .DTM_TL_USED 0 (BitVec.ofNat 32 n)
  if (s1.rg .DTM_TL_PEAK 0).toNat < n then s1.wr .DTM_TL_PEAK 0 (BitVec.ofNat 32 n) else s1

/-- A slot armed with an event. -/
def State.armSlot (s : State) (h : Nat) (e : Event) : State :=
  (s.setSlot h { (s.slot h) with armed := some e }).tlCount

/-- A slot freed: its event fired, or was cancelled or withdrawn. -/
def State.freeSlot (s : State) (h : Nat) (fired : Bool) : State :=
  (s.setSlot h ⟨none, if fired then .fired else .gone⟩).tlCount

/-- Handles of the engine's own events in the fixed blocks 0 to 7 (R35). DESIGN CHOICE: the spec names the blocks, not the
slots. -/
def hSettle : Nat := 0
/-- The scheduled UTC change. -/
def hLeap : Nat := 1
/-- The grace timer of record `i`. -/
def hGrace (i : Nat) : Nat := 512 + i
/-- The heartbeat loss deadline of mate lane `l`. -/
def hMate (l : Nat) : Nat := 8 + l
/-- A port's pause end. -/
def hPort (n : Nat) : Nat := 64 + n
/-- A TIC channel's one-shot deadline. -/
def hTic (n : Nat) : Nat := 128 + n

/-- The engine arms one of its own events (R57: no minimum lead). -/
def State.engineArm (s : State) (h : Nat) (at_ : TimeVal) : State := s.armSlot h ⟨at_, .engineTimer, true⟩

/-- The engine frees one of its own events. -/
def State.engineFree (s : State) (h : Nat) (fired : Bool) : State :=
  if (s.slot h).armed.isSome then s.freeSlot h fired else s

/-! ### Fault records (R257 to R263) -/

/-- The fields of a fault raise: record, cause bit, class, thread if one caused it, detail. -/
structure Raise where
  rec_   : Nat
  cause  : Nat
  cls    : Nat
  thread : Option Nat := none
  status : Nat := 0
  reason : Nat := 0

/-- The SOURCE word of a raise. -/
def Raise.source (r : Raise) : BitVec 32 :=
  match r.thread with
  | some t => BitVec.ofNat 32 (2 ^ 31 + t % 512)
  | none => 0

/-- Whether a record can hold a raise now: a keeper-held record while VDD_KEEP holds, a core-die record while the core die
runs. -/
def State.recordUp (s : State) (i : Nat) : Bool := if keeperRecord i then s.pwr.vddKeep else s.coreUp

/-- The record's part of a raise (R260), the FAULT_N pulse (R261) and FLT_RAISE (R257). -/
def State.recordFault (s : State) (r : Raise) : State :=
  if !s.recordUp r.rec_ then s else
  let i := r.rec_
  let n := s.now
  let s1 : State :=
    if s.fb Fld.FLT_REC_STAT.ACTIVE i then
      let st := s.rg .FLT_REC_STAT i
      let st1 := Fld.FLT_REC_STAT.CLASS.put st (max (Fld.FLT_REC_STAT.CLASS.of st) r.cls)
      let st2 := Fld.FLT_REC_STAT.MERGE_COUNT.put st1 (min 0xFFFF (Fld.FLT_REC_STAT.MERGE_COUNT.of st + 1))
      let st3 := if s.rg .FLT_REC_SOURCE i = r.source then st2 else Fld.FLT_REC_STAT.MULTI.put st2 1
      (s.wr .FLT_REC_STAT i st3).wr .FLT_REC_CAUSE i (s.rg .FLT_REC_CAUSE i ||| BitVec.ofNat 32 (2 ^ r.cause))
    else
      let st := Fld.FLT_REC_STAT.CLASS.put (Fld.FLT_REC_STAT.ACTIVE.put 0 1) r.cls
      let img := match r.thread with
        | some t => s.imageId t
        | none => 0
      ((((((s.wr .FLT_REC_STAT i st).wr .FLT_REC_CAUSE i (BitVec.ofNat 32 (2 ^ r.cause))).wr .FLT_REC_SOURCE i r.source).wr
        .FLT_REC_DETAIL i (BitVec.ofNat 32 (r.status % 256 * 256 + r.reason % 256))).setPair .FLT_REC_IMG_HI
        .FLT_REC_IMG_LO img i).wr .FLT_REC_FIRST_SEC i (n.sec.extractLsb' 0 32)).wr .FLT_REC_FIRST_NS i n.ns
  let s2 := (s1.wr .FLT_REC_LAST_SEC i (n.sec.extractLsb' 0 32)).wr .FLT_REC_LAST_NS i n.ns
  let s3 := if 2 ≤ r.cls then { s2 with flt := { s2.flt with pulse := true } } else s2
  s3.irqPulse irqFltRaise r.cls

/-- A record's grace timer armed `FLT_GRACE` microseconds after an instant, leading to a ladder step (R263). -/
def State.armGrace (s : State) (i step : Nat) (from_ : TimeVal) : State :=
  let at_ := from_.plus ((s.fd Fld.FLT_GRACE.GRACE) * usCount)
  let s1 : State := { s with flt := { s.flt with grace := SMap.insert id s.flt.grace i ⟨step, at_⟩ } }
  (s1.setB Fld.FLT_REC_STAT.GRACE_RUN true i).engineArm (hGrace i) at_

/-- A record's grace timer stopped. -/
def State.stopGrace (s : State) (i : Nat) (fired : Bool) : State :=
  let s1 : State := { s with flt := { s.flt with grace := SMap.erase s.flt.grace i } }
  (s1.setB Fld.FLT_REC_STAT.GRACE_RUN false i).engineFree (hGrace i) fired

/-! ### Statuses and violations -/

/-- The status word of an instruction (R75). -/
def statusWord (st : Status) (detail result : Nat) : BitVec 64 :=
  BitVec.ofNat 64 (st.code % 256 * 2 ^ 56 + detail % 256 * 2 ^ 48 + result % 2 ^ 32)

/-! ### Ownership (R32 to R35) -/

/-- Whether an index names a resource (R32). -/
def ownValid (i : Nat) : Bool := decide (i ≤ 80 ∨ (128 ≤ i ∧ i ≤ 383))

/-- Whether an entry is fixed (Table 1.7). -/
def ownFixed (i : Nat) : Bool := decide (i = 16 ∨ (29 ≤ i ∧ i ≤ 31) ∨ (128 ≤ i ∧ i ≤ 135))

/-- Whether a party owns an entry. A register write over BAR0 carries no queue: it acts for the host, so an entry that any
host queue holds is its own (DEDUCED). -/
def State.owns (s : State) (p : Party) (i : Nat) : Bool :=
  let held := s.fb Fld.TOP_OWN.HELD i && !s.fb Fld.TOP_OWN.ORPHAN i
  let k := s.fd Fld.TOP_OWN.KIND i
  match p with
  | .hostReg => held && decide (k = 1)
  | p => held && decide ((k, s.fd Fld.TOP_OWN.OWNER i) = p.kindOwner)

/-- A claim (R32, R34). -/
def State.claim (s : State) (p : Party) (i : Nat) : State × Status :=
  if !ownValid i then (s, .noResource)
  else if ownFixed i then (s, .fixed)
  else
    let w := BitVec.ofNat 32 (2 ^ 31 + p.kindOwner.1 * 2 ^ 28 + p.kindOwner.2)
    if !s.fb Fld.TOP_OWN.HELD i then (s.wr .TOP_OWN i w, .ok)
    else if s.fb Fld.TOP_OWN.ORPHAN i then (s.wr .TOP_OWN i w, .okOrphan)
    else (s, .owned)

/-- A release (R32, R34). -/
def State.release (s : State) (p : Party) (i : Nat) : State × Status :=
  if !ownValid i then (s, .noResource)
  else if ownFixed i then (s, .fixed)
  else if s.owns p i then (s.wr .TOP_OWN i 0, .ok)
  else (s, .notOwner)

/-- Every entry a party holds becomes orphaned (R34). -/
def State.orphan (s : State) (p : Party) : State :=
  (List.range 384).foldl (fun s i => if !ownFixed i && s.owns p i then s.setB Fld.TOP_OWN.ORPHAN true i else s) s

/-- The ownership index of a slot's block (Table 1.7). -/
def slotOwner (h : Nat) : Nat := 128 + h / 256

end Sys2Proof.Machine
end

