-- ==== Sys2Proof/Machine/TrvOps.lean ====
section
/-!
DEFINITION. Machine/TrvOps.lean: the bounds of the Traverse engine (06_traverse_bounds.md) and the benchmark journal's
buffer. Terms are carried in units of 2^-16 ns, each rounded upward; a side is rounded upward to 2^-8 ns at the end (R132).
-/
namespace Sys2Proof.Machine

/-- The sum of two sides: an unbounded operand gives an unbounded result (R5). -/
def Side.add (a b : Side) : Side :=
  match a, b with
  | some x, some y => some (x + y)
  | _, _ => none

/-- The larger of two sides. -/
def Side.max (a b : Side) : Side :=
  match a, b with
  | some x, some y => some (Nat.max x y)
  | _, _ => none

/-- A side as a bound field: rounded upward to 2^-8 ns, saturated (R5, R6). -/
def Side.word (a : Side) : BitVec 32 :=
  match a with
  | some x => if ceilDiv x 256 ≤ 0xFFFFFFFE then BitVec.ofNat 32 (ceilDiv x 256) else 0xFFFFFFFF#32
  | none => 0xFFFFFFFF#32

/-- A bound field as a side. -/
def sideOf (w : BitVec 32) : Side := if w = 0xFFFFFFFF#32 then none else some (w.toNat * 256)

/-- A bound of two sides. -/
def boundOf (e l : Side) : Bound := ⟨Side.word e, Side.word l⟩

/-- A rate in 10^-15 over `d` counts of 2^-32 ns, in units of 2^-16 ns, rounded upward. -/
def rateTerm (y15 d : Nat) : Nat := ceilDiv (y15 * d) (10 ^ 15 * 2 ^ 16)

/-- DMP_MAX_DFDT * d^2 / 2 for a slew in 10^-13 per second, in units of 2^-16 ns, rounded upward. -/
def slewTerm (dfdt d : Nat) : Nat := ceilDiv (dfdt * d * d) (10 ^ 22 * 2 ^ 49)

/-- The interval of R252 in DCLK ticks. -/
def dfdtWindow : Nat := 3750000000

/-- The largest DMP_MAX_DFDT in effect during the preceding 3 750 000 000 ticks (R252). -/
def State.dfdtMax (s : State) : Nat :=
  s.flt.dfdtHist.foldl (fun m e => if s.tick < e.1 + dfdtWindow then Nat.max m e.2 else m) s.flt.dfdtClock

/-- u_y: ENS_HOLD_UY, or ENS_HOLD_DEF_UY while MODEL_VALID is 0 (R126). -/
def State.uy (s : State) : Nat :=
  if s.fb Fld.ENS_STAT.MODEL_VALID then (s.rg .ENS_HOLD_UY 0).toNat else (s.rg .ENS_HOLD_DEF_UY 0).toNat

/-- u_a, as u_y. -/
def State.ua (s : State) : Nat :=
  if s.fb Fld.ENS_STAT.MODEL_VALID then (s.rg .ENS_HOLD_UA 0).toNat else (s.rg .ENS_HOLD_DEF_UA 0).toNat

/-- u_c; zero while MODEL_VALID is 0 (R126). -/
def State.uc (s : State) : Nat :=
  if s.fb Fld.ENS_STAT.MODEL_VALID then (s.rg .ENS_HOLD_UC 0).toNat else 0

/-- sigma_res; zero while MODEL_VALID is 0 (R126). -/
def State.sigRes (s : State) : Nat :=
  if s.fb Fld.ENS_STAT.MODEL_VALID then (s.rg .ENS_HOLD_RES 0).toNat else 0

/-- sigma_f, the flicker floor (R127): the declared floor, or the Allan deviation at 2^14 s of the entry that is the Datum
source, whichever is larger. -/
def State.sigF (s : State) : Nat :=
  let f := s.fd Fld.ENS_HOLD_CTL.FLICKER
  let src := s.fd Fld.SYN0_SRC.SEL
  if src ≤ 7 ∧ s.fb Fld.ENS_REF_CFG.EN src then Nat.max f (s.rg .ENS_ADEV (src * 17 + 14)).toNat else f

/-- The signed value of a 32-bit register. -/
def State.srg (s : State) (r : Reg) (i : Nat := 0) : Int := (s.rg r i).toInt

/-- y_inc: the fractional frequency that the increment in effect adds, in 10^-15, rounded to the nearest unit (R38). -/
def State.yInc (s : State) : Int :=
  let n : Int := 57646075230342349
  ((s.inc.toNat : Int) - n) * 10 ^ 15 / n

/-- The coast term over `d` counts of coast (R140). -/
def State.coastTerm (s : State) (c : Coast) (d : Nat) : Nat :=
  let floor := ceilDiv (24 * 65536) 1000
  if c.noBridge then floor + rateTerm (s.rg .TRV_COAST_Y 0).toNat d
  else floor + c.phiK + rateTerm ((s.rg .TIC_KX_ALARM 0).toNat * 1000) d

/-- The coast term over the part of the coast that lies between two instants; zero when it does not reach into them. -/
def State.coastWithin (s : State) (from_ to_ : TimeVal) : Nat :=
  match s.trv.coast with
  | none => 0
  | some c =>
    let a := Nat.max c.since.count from_.count
    let b := if c.running then to_.count else Nat.min c.ended.count to_.count
    if a < b then s.coastTerm c (b - a) else 0

/-- The part of H that does not depend on the side (R127): drift, ageing, temperature, residual noise, flicker, steering. -/
def State.holdGrowth (s : State) (from_ to_ : TimeVal) (steer : Nat) : Nat :=
  let d := from_.dist to_
  let noise := 3 * s.sigRes
  rateTerm (3 * s.uy) d
    + ceilDiv (3 * s.ua * d * d) (10 ^ 15 * 2 ^ 16 * secCount * 172800)
    + ceilDiv (3 * s.uc * (s.ens.theta.natAbs + s.ens.thetaMiss * 256) * 65536) (256 * 10 ^ 6)
    + ceilDiv (noise * 65536 * (Nat.sqrt (d * 2 ^ 32 / secCount) + 1)) (10 ^ 6 * 2 ^ 16)
    + rateTerm (3 * s.sigF) d
    + steer

/-- The residual steering term of an interval up to `t` (R127), from the integral kept each second. -/
def State.steerTerm (s : State) (t : TimeVal) : Nat :=
  let rate := s.srg .ENS_HOLD_PRED + s.yInc
  let d := s.ens.residAt.dist t
  ceilDiv (s.ens.resid.natAbs * 65536) (10 ^ 6) + rateTerm rate.natAbs d

/-- The residual steering term at the full model rate (R138). -/
def State.steerFull (s : State) (d : Nat) : Nat := rateTerm (s.srg .ENS_HOLD_PRED).natAbs d

/-- H at an instant (R127, R135), one side of B_b with the coast accumulated since ENS_BANK_AT. -/
def State.bankedSide (s : State) (b : Side) (t : TimeVal) : Side :=
  let full := s.trv.unsteered.isSome || s.fb Fld.FLT_ESC.BANK_FORCED
  let steer := if full then s.steerFull (s.trv.bankB.at_.dist t) else s.steerTerm t
  Side.add b (some (s.holdGrowth s.trv.bankB.at_ t steer + s.coastWithin s.trv.bankB.at_ t))

/-- The projected side of R136 from the basis in force. -/
def State.projSide (s : State) (b : Side) (t : TimeVal) : Side :=
  let d := s.trv.basis.at_.dist t
  let yp := Nat.max (s.rg .TRV_PROJ_YMIN 0).toNat (3 * s.uy)
  Side.add b (some (rateTerm yp d + slewTerm s.dfdtMax d + s.coastWithin s.trv.basis.at_ t))

/-- H_u at an instant, one side (R138). -/
def State.unsteeredSide (s : State) (b : Side) (t : TimeVal) : Side :=
  Side.add b (some (s.holdGrowth s.trv.uSince t (s.steerFull (s.trv.uSince.dist t))))

/-- The condition (R121): 0 Normal, 1 FREQ_HOLD, 2 BANKED. -/
def State.cond (s : State) : Nat := s.fd Fld.TRV_STAT.COND

/-- The two sides of the Datum bound B_D at an instant (R134 to R138). -/
def State.datumSides (s : State) (t : TimeVal) : Side × Side :=
  if s.cond = 2 then (s.bankedSide s.trv.bankB.early t, s.bankedSide s.trv.bankB.late t)
  else
    let e := s.projSide s.trv.basis.early t
    let l := s.projSide s.trv.basis.late t
    match s.trv.unsteered with
    | none => (e, l)
    | some u => (Side.max e (s.unsteeredSide u.early t), Side.max l (s.unsteeredSide u.late t))

/-- B_D at an instant. -/
def State.datumBound (s : State) (t : TimeVal) : Bound := boundOf (s.datumSides t).1 (s.datumSides t).2

/-! ### The benchmark journal -/

/-- The COND octet of a record (Table 6.2). -/
def State.condWord (s : State) : Nat :=
  s.cond + bit01 (s.fb Fld.TRV_STAT.NOWRITER) * 4 + bit01 (s.fb Fld.TRV_STAT.COAST0) * 8
    + bit01 (s.fb Fld.TRV_STAT.DERATED) * 16

/-- The 128 octets of a record (Table 6.2). -/
def BmkRecord.bytes (r : BmkRecord) : List Byte :=
  leBytes 2 1 ++ leBytes 1 r.kind ++ leBytes 1 r.entry ++ leBytes 4 r.detail ++ leBytes 8 r.seq ++ leBytes 8 r.at_.sec.toNat
    ++ leBytes 8 (r.at_.ns.toNat * 2 ^ 32 + r.at_.frac.toNat) ++ leBytes 8 (wrapInt 64 r.phase) ++ leBytes 4 r.refE.toNat
    ++ leBytes 4 r.refL.toNat ++ leBytes 4 r.datE.toNat ++ leBytes 4 r.datL.toNat ++ leBytes 4 r.cond ++ leBytes 4 0
    ++ r.image ++ r.prev

/-- Zero octets. -/
def zeros (n : Nat) : List Byte := List.replicate n 0

/-- The number of records the ring holds (R149). -/
def ringSize : Nat := 65536

/-- One record committed to the ring (R149): when the ring is full the oldest is overwritten, and counted as lost when its
SEQ lies above TRV_JNL_ACK. -/
def State.ringPush (s : State) (r : BmkRecord) : State :=
  let s1 : State :=
    if ringSize ≤ s.trv.ring.length then
      let oldSeq := s.trv.ringBase
      let s0 : State := { s with trv := { s.trv with ring := s.trv.ring.drop 1, ringBase := oldSeq + 1 } }
      if (s.pair .TRV_JNL_ACK_HI .TRV_JNL_ACK_LO).toNat < oldSeq then s0.bump .TRV_JNL_LOST else s0
    else s
  let s2 : State := { s1 with trv := { s1.trv with ring := s1.trv.ring ++ [r] } }
  (s2.setPair .TRV_JNL_SEQ_HI .TRV_JNL_SEQ_LO (BitVec.ofNat 64 r.seq)).setPair .TRV_JNL_OLD_HI .TRV_JNL_OLD_LO
    (BitVec.ofNat 64 s2.trv.ringBase)

/-- The buffered records committed (R148). -/
def State.journalCommit (s : State) : State :=
  let s1 := s.trv.pendingR.foldl State.ringPush s
  { s1 with trv := { s1.trv with pendingR := [] } }

/-- A record written (R145 to R147): it takes the next SEQ and the hash of the record before it, and waits in the second's
buffer; while PWRFAIL_N is asserted after the emergency commit it is written through at once (Table 16.7). -/
def State.journal (s : State) (kind entry detail : Nat) (at_ : TimeVal) (phase : Int) (refE refL : BitVec 32)
    (image : List Byte) : State :=
  let b := s.datumBound at_
  let prev := if s.trv.lastHash = [] then zeros 48 else s.trv.lastHash
  let r : BmkRecord :=
    { kind := kind, entry := entry, detail := detail, seq := s.trv.nextSeq, at_ := at_, phase := phase, refE := refE,
      refL := refL, datE := b.early, datL := b.late, cond := s.condWord,
      image := if image = [] then zeros 16 else image.take 16, prev := prev }
  let s1 : State := { s with trv := { s.trv with nextSeq := s.trv.nextSeq + 1, lastHash := Config.sha384 r.bytes, pendingR := s.trv.pendingR ++ [r] } }
  if s.fb Fld.PWR_STAT.EMERG then s1.journalCommit else s1

end Sys2Proof.Machine
end

