-- ==== Sys2Proof/Machine/PmcOps.lean ====
section
/-!
DEFINITION. Machine/PmcOps.lean: the performance counters (13_interrupts_counters.md, R301 to R307). Events that commands bring
about are counted here; those that pass with time wrap by PMC_COUNTER_WRAP.
-/
namespace Sys2Proof.Machine

/-- The registers of counter `i` of a cluster: cluster counters 0 to 15, then 8 for each core: SEL, THR, HI, LO and the index. -/
def pmcRegs (c i : Nat) : (Reg × Reg × Reg × Reg) × Nat :=
  if i < 16 then ((.PMC_CC_SEL, .PMC_CC_THR, .PMC_CC_HI, .PMC_CC_LO), c * 16 + i)
  else ((.PMC_K_SEL, .PMC_K_THR, .PMC_K_HI, .PMC_K_LO), c * 64 + (i - 16))

/-- The selection word of a counter. -/
def State.pmcSel (s : State) (c i : Nat) : Nat := (s.rg (pmcRegs c i).1.1 (pmcRegs c i).2).toNat

/-- The 48-bit value of a counter. -/
def State.pmcVal (s : State) (c i : Nat) : Nat :=
  let (r, x) := pmcRegs c i
  (s.rg r.2.2.1 x).toNat % 65536 * 2 ^ 32 + (s.rg r.2.2.2 x).toNat

/-- A counter's value replaced. -/
def State.setPmc (s : State) (c i v : Nat) : State :=
  let (r, x) := pmcRegs c i
  (s.wr r.2.2.1 x (BitVec.ofNat 32 (v / 2 ^ 32 % 65536))).wr r.2.2.2 x (BitVec.ofNat 32 v)

/-- The cluster's PMC source follows its overflow flags (Table 13.1). -/
def State.pmcLine (s : State) (c : Nat) : State :=
  s.irqLine (192 + c) (decide (s.rg .PMC_OVF0 c ≠ 0 ∨ s.rg .PMC_OVF1 c ≠ 0 ∨ s.rg .PMC_OVF2 c ≠ 0))

/-- The eight words of a sample record (Table 13.6). -/
def pmcRecord (x : PmcSample) (event : Nat) (dropped : Bool) : List (BitVec 32) :=
  [x.at_.sec.extractLsb' 0 32, x.at_.sec.extractLsb' 32 32, x.at_.frac, x.at_.ns, x.insn, x.addr,
    BitVec.ofNat 32 (x.latency.toNat + x.thread.val * 65536),
    BitVec.ofNat 32 (event % 256 + (bit01 x.k + bit01 x.latSat * 2 + bit01 dropped * 4) * 256)]

/-- A sample record written into its cluster's ring, or dropped while 128 are unread (R305). -/
def State.pmcSample (s : State) (c event : Nat) (x : PmcSample) : State :=
  let prod := s.rg .PMC_SMP_PROD c
  let used := (prod - s.rg .PMC_SMP_CONS c).toNat
  if 128 ≤ used then
    let s1 := s.bump .PMC_SMP_DROP c
    { s1 with pmc := { s1.pmc with drop := SMap.insert id s1.pmc.drop c true } }
  else
    let dropped := SMap.get (fun _ => false) s.pmc.drop c
    let ws := pmcRecord x event dropped
    let base := c * 1024 + prod.toNat % 128 * 8
    let s1 := (List.range 8).foldl (fun s i => s.wr .PMC_SMP_BUF (base + i) (ws.getD i 0)) s
    let s2 := (s1.bump .PMC_SMP_PROD c)
    let s3 : State := { s2 with pmc := { s2.pmc with drop := SMap.erase s2.pmc.drop c }, freeCtr := s2.freeCtr + 1 }
    if used + 1 = s3.fd Fld.PMC_SMP_CTL.IRQ_AT c then (s3.setB Fld.PMC_OVF0.SMP true c).pmcLine c else s3

/-- The overflow flag of a counter. -/
def State.pmcFlag (s : State) (c i : Nat) : State :=
  let (r, b) : Reg × Nat := if i < 16 then (.PMC_OVF0, i) else if i < 48 then (.PMC_OVF1, i - 16) else (.PMC_OVF2, i - 48)
  (s.wr r c (s.rg r c ||| BitVec.ofNat 32 (2 ^ b))).pmcLine c

/-- A counter wraps (R301, R304): a sampling counter reloads and gives a sample, any other sets its flag; FRZ_OVF freezes. -/
def State.pmcWrap (s : State) (c i : Nat) (x : PmcSample) : State :=
  let sel := s.pmcSel c i
  let thr := (s.rg (pmcRegs c i).1.2.1 (pmcRegs c i).2).toNat
  let s1 := if 16 ≤ i ∧ bitAt sel 30 then (s.setPmc c i (2 ^ 48 - thr)).pmcSample c (sel % 256) x
    else (s.setPmc c i 0).pmcFlag c i
  if s.fb Fld.PMC_CTL.FRZ_OVF c then s1.setB Fld.PMC_CTL.FREEZE true c else s1

/-- Whether a counter counts. -/
def State.pmcOn (s : State) (c i : Nat) : Bool := bitAt (s.pmcSel c i) 31 && !s.fb Fld.PMC_CTL.FREEZE c

/-- One more in a counter. -/
def State.pmcBump (s : State) (c i : Nat) (x : PmcSample) : State :=
  let v := s.pmcVal c i
  if v = 2 ^ 48 - 1 then s.pmcWrap c i x else s.setPmc c i (v + 1)

/-- A sample of the instruction that a thread completes now. DESIGN CHOICE: its latency in SCLK cycles is a free value. -/
def State.sampleOf (s : State) (th : Nat) (insn addr : BitVec 32) : PmcSample :=
  { at_ := s.replica.word, insn := insn, addr := addr, latency := (Config.free64 s.freeCtr).extractLsb' 0 16, latSat := false
    thread := Fin.ofNat 512 th, k := (s.thread th).k }

/-- An event of a thread counted by the counters of its core that select it (R301, Table 13.5). -/
def State.pmcEvent (s : State) (th code : Nat) (k : Bool) (insn addr : BitVec 32) : State :=
  let c := clusterOf th
  let x := { s.sampleOf th insn addr with k := k }
  (List.range 8).foldl (fun s j =>
    let i := 16 + coreOf th % 8 * 8 + j
    let sel := s.pmcSel c i
    if s.pmcOn c i && decide (sel % 256 = code) && bitAt sel (26 + th % 4) && bitAt sel (if k then 24 else 25) then
      s.pmcBump c i x else s) s

/-- An event of a cluster counted by its cluster counters; a port event names its port. -/
def State.pmcCluster (s : State) (c code : Nat) (unit : Option Nat) : State :=
  (List.range 16).foldl (fun s i =>
    let sel := s.pmcSel c i
    let at_ := match unit with
      | some u => decide (bitsOf sel 17 16 = u % 4)
      | none => true
    if s.pmcOn c i && decide (sel % 256 = code) && at_ then s.pmcBump c i (s.sampleOf (c * 32) 0 0) else s) s

/-- The events of Table 13.5: 1 a core event, 2 a cluster event, 0 not listed; with T for threshold events. -/
def pmcKind (code : Nat) : Nat × Bool :=
  if code ≤ 0x10 then (1, code = 0x10)
  else if 0x40 ≤ code ∧ code ≤ 0x4D then (2, decide (code = 0x41 ∨ code = 0x45 ∨ code = 0x49 ∨ code = 0x4A ∨ code = 0x4B))
  else (0, false)

/-- Whether a selection word is permitted in a counter (R302, R304). -/
def pmcSelOk (core : Bool) (v thr : Nat) : Bool :=
  let k := pmcKind (v % 256)
  let ev := if core then decide (k.1 = 1) else decide (v % 256 = 0 ∨ k.1 = 2)
  ev && !(core && bitAt v 30 && (k.2 || decide (thr = 0)))

/-- The outcome of a write of the block. -/
def State.pmcDone (s : State) (c : Nat) (ok : Bool) (t : State) : State :=
  if ok then t.setB Fld.PMC_WSTAT.ACCEPT true c else s.setB Fld.PMC_WSTAT.RANGE true c

/-- Zeros written into a thread's mirror area (R307). -/
def State.mirrorZero (s : State) (th : Nat) : State :=
  let m := s.rg .PMC_MIRROR (coreOf th)
  s.store (cmemBase (clusterOf th) + m.toNat % 512 * 1024 + th % 4 * 256) (zeros 256)

/-- The mirror of a core rewritten (R307). -/
def State.pmcMirror (s : State) (c k : Nat) : State :=
  let core := c * 8 + k
  let m := s.rg .PMC_MIRROR core
  if !bitAt m.toNat 31 then s
  else
    (List.range 4).foldl (fun s h =>
      let th := core * 4 + h
      if bitAt (s.rg .STK_PMC_USER_EN core).toNat h then
        let seq := SMap.get (fun _ => 0) s.pmc.seq th + 2
        let vals := (List.range 8).map (fun j => s.pmcVal c (16 + k * 8 + j)) ++ (List.range 16).map (fun j => s.pmcVal c j)
        let bs := leBytes 8 seq ++ (vals.map (fun v => leBytes 8 v)).flatten ++ zeros 56
        let s1 := s.store (cmemBase c + m.toNat % 512 * 1024 + h * 256) bs
        { s1 with pmc := { s1.pmc with seq := SMap.insert id s1.pmc.seq th seq } }
      else s) s

/-- A write of STK_PMC_USER_EN: the area of a thread whose bit becomes 0 is written with zeros (R307). -/
def State.pmcUser (s : State) (core : Nat) (v : BitVec 32) : State :=
  let old := (s.rg .STK_PMC_USER_EN core).toNat
  let s1 := s.wrRw .STK_PMC_USER_EN core v
  (List.range 4).foldl (fun s h =>
    if bitAt old h && !bitAt v.toNat h && bitAt (s.rg .PMC_MIRROR core).toNat 31 then s.mirrorZero (core * 4 + h) else s) s1

/-- A register write of the block; `i` is the register's index. -/
def State.pmcWrite (s : State) (r : Reg) (i : Nat) (v : BitVec 32) : State :=
  let t := s.wrRw r i v
  if r = .PMC_WSTAT then s.w1c r i v
  else if r = .PMC_OVF0 ∨ r = .PMC_OVF1 ∨ r = .PMC_OVF2 then (s.w1c r i v).pmcLine i
  else if r = .PMC_CTL then s.pmcDone i true t
  else if r = .PMC_SMP_CTL then s.pmcDone i (decide (v.toNat ≤ 128)) t
  else if r = .PMC_SMP_CONS then s.pmcDone i (decide ((s.rg .PMC_SMP_PROD i - v).toNat ≤ 128)) t
  else if r = .PMC_MIRROR then s.pmcDone (i / 8) true t
  else if r = .PMC_CC_SEL then s.pmcDone (i / 16) (pmcSelOk false v.toNat 1) t
  else if r = .PMC_K_SEL then s.pmcDone (i / 64) (pmcSelOk true v.toNat (s.rg .PMC_K_THR i).toNat) t
  else if r = .PMC_K_THR then
    s.pmcDone (i / 64) (!(decide (v = 0) && bitAt (s.rg .PMC_K_SEL i).toNat 30)) t
  else if r = .PMC_CC_THR ∨ r = .PMC_CC_HI ∨ r = .PMC_CC_LO then s.pmcDone (i / 16) true t
  else s.pmcDone (i / 64) true t

end Sys2Proof.Machine
end

