-- ==== Sys2Proof/Machine/EngineOps.lean ====
section
/-!
DEFINITION. Machine/EngineOps.lean: the operations that reach across blocks: notices to threads, the cleanup of an aborted
thread (R87), roles and the service state, the core-die reset (R17, R34, R59, R300), the escalation ladder (R264 to R267),
fault raises with their grace timers (R263), and Damper violations (R255).
-/
namespace Sys2Proof.Machine

/-- The number of 2^32 statistics word with one more count. -/
def State.count (s : State) (r : Reg) : State := s.bump r 0

/-! ### Notices and waits -/

/-- The level sources of Table 13.1. -/
def irqIsLevel (n : Nat) : Bool := decide (n < 80 ∨ n = 98 ∨ n = 107 ∨ (192 ≤ n ∧ n < 208))

/-- LAPSED of a source at its claim (R299): an EDGE source with a level line that is already false. -/
def State.irqLapsed (s : State) (n : Nat) : Bool :=
  irqIsLevel n && !s.fb Fld.IRQ_SRC_CFG.MODE n && !(s.irqDyn n).line

/-- What an interrupt notice carries when EWAIT returns it, which is its claim and completion (R295). -/
def State.claimNotice (s : State) (n : Notice) : State × Notice :=
  if n.kind = .irq then
    let src := n.handle.toNat
    let n' := { n with moved := (s.irqDyn src).moved, lapsed := s.irqLapsed src }
    (((s.setB Fld.IRQ_SRC_STAT.ISSUED false src).setIrqDyn src
      { (s.irqDyn src) with target := 0, moved := false, fell := false }), n')
  else (s, n)

/-- The expiry that a wait names, when another notice ends the wait: withdrawn if it has not fired, and counted when it fell in
the same tick as the notice's own event (R31, R81). -/
def State.withdrawTimeout (s : State) (th : Nat) (timeout : Option Nat) (n : Notice) : State :=
  match timeout with
  | none => s
  | some h =>
    match (s.slot h).armed with
    | none => s
    | some e =>
      if e.target = .thread th ∧ e.expiry then
        let s1 := s.freeSlot h false
        if s.tickOf e.instant = n.tick then s1.count .DTM_TL_WITHDRAWN else s1
      else s

/-- A notice returned by the EWAIT that stands before the pc (event NOTICE of Table 13.5). -/
def State.noticeEvent (s : State) (th : Nat) : State :=
  let t := s.thread th
  let addr := (t.pc - 4).toNat
  let insn := leNat (s.octets (imemBase (coreOf th) + addr) 4)
  s.pmcEvent th 0x0E t.k (BitVec.ofNat 32 insn) (BitVec.ofNat 32 addr)

/-- EWAIT returns a notice: the notice word and the notice instant reach the named registers, and the thread runs on. -/
def State.returnNotice (s : State) (th : Nat) (w : WaitRec) (n : Notice) : State :=
  let (s1, n1) := s.claimNotice n
  let s2 := s1.withdrawTimeout th w.timeout n1
  let t := s2.thread th
  let s3 := s2.setThread th { ((t.setG w.gd n1.word).setT w.td n1.instant) with st := .ready, wait := none }
  s3.noticeEvent th

/-- A notice delivered: to a waiting thread at once, otherwise into its queue. -/
def State.deliver (s : State) (th : Nat) (n : Notice) : State :=
  let t := s.thread th
  match t.st, t.wait with
  | .wait, some w => s.returnNotice th w n
  | _, _ => s.setThread th { t with notices := insertNotice n t.notices }

/-- A notice of a thread that is running; a thread that is not takes none. -/
def State.notify (s : State) (th : Nat) (n : Notice) : State :=
  match (s.thread th).st with
  | .ready | .wait | .halted => s.deliver th n
  | _ => s

/-- A reserved queue entry taken up by its notice (R81). -/
def State.unreserve (s : State) (th : Nat) : State :=
  let t := s.thread th
  s.setThread th { t with reserved := t.reserved - 1 }

/-- The notice of an outcome at the Datum of the present tick or at a stated instant. -/
def State.mkNotice (s : State) (kind : NoticeKind) (status : Nat) (handle : Nat) (at_ : TimeVal) (cls rank : Nat) : Notice :=
  { kind := kind, status := status, late := false, stepped := false, moved := false, lapsed := false,
    handle := BitVec.ofNat 32 handle, instant := at_, tick := s.tickOf at_, cls := cls, rank := rank }

/-! ### Frames and launches -/

/-- A frame, if the handle names one. -/
def State.frame (s : State) (f : Nat) : Option Frame := SMap.find s.frames f

/-- The state with a frame's descriptor replaced. -/
def State.setFrame (s : State) (f : Nat) (x : Frame) : State := { s with frames := SMap.insert id s.frames f x }

/-- A frame freed. -/
def State.freeFrame (s : State) (f : Nat) : State := { s with frames := SMap.erase s.frames f }

/-- A launch withdrawn: its slot is free, its guard band ends. -/
def State.dropLaunch (s : State) (l : Launch) : State :=
  { (s.freeSlot l.slot false) with launches := SMap.erase s.launches l.slot }

/-- A launch that fails: the frame returns to the thread, unfrozen and with its recorded values cleared, and the thread is told
(R83). -/
def State.failLaunch (s : State) (l : Launch) (st : Status) : State :=
  let s1 := s.dropLaunch l
  let s2 := match s1.frame l.frame with
    | some f => s1.setFrame l.frame { f with frozen := false, times := [], bounds := [], holder := some l.thread }
    | none => s1
  s2.notify l.thread (s2.mkNotice .launchFailed st.code l.frame l.instant 4 l.port)

/-! ### Roles and the service state -/

/-- Whether a port is role-gated (MAT_SVC, R343). -/
def State.matSvc (s : State) (port : Nat) : Bool :=
  (s.pair .MAT_SVC_HI .MAT_SVC_LO).getLsbD port

/-- The role (Table 15.3): 0 OFF, 1 INIT, 2 ACTIVE, 3 STANDBY, 4 WITHDRAWN. -/
def State.role (s : State) : Nat := if s.fb Fld.MAT_CFG.EN then s.fd Fld.MAT_STAT.ROLE else 0

/-- Whether the role gate is open (Table 15.3). -/
def State.gateOpen (s : State) : Bool := decide (s.role = 0 ∨ s.role = 2)

/-- Every launch that a predicate names fails with a status. -/
def State.failLaunches (s : State) (p : Launch → Bool) (st : Status) : State :=
  s.launches.foldl (fun s e => if p e.2 then s.failLaunch e.2 st else s) s

/-- A role change (R343): its cause, MAT_STATE, and on leaving ACTIVE the launches of the role-gated ports. -/
def State.setRole (s : State) (role cause : Nat) : State :=
  if s.role = role then s else
  let leaving := s.role = 2
  let s1 := (s.setF Fld.MAT_STAT.ROLE role).setF Fld.MAT_STAT.CAUSE cause
  let s2 := s1.irqPulse 106 0
  if leaving ∧ role ≠ 0 then s2.failLaunches (fun l => s2.matSvc l.port) .gated else s2

/-- The service state (R220): 0 CLOSED, 1 OPEN, 2 REFUSE. -/
def State.svcState (s : State) : Nat := s.fd Fld.SVC_STAT.STATE

/-- A change of the service state, with its cause and SVC_STATE. -/
def State.setSvc (s : State) (st cause : Nat) : State :=
  if s.svcState = st then s
  else ((s.setF Fld.SVC_STAT.STATE st).setF Fld.SVC_STAT.CAUSE cause).irqPulse 109 st

/-- The service closed, unless it is in REFUSE (R222, R223). -/
def State.closeSvc (s : State) (cause : Nat) : State := if s.svcState = 1 then s.setSvc 0 cause else s

/-! ### The writer role and the interval without a writer -/

/-- The ensemble writer role ends (R42). -/
def State.endWriter (s : State) : State :=
  ({ s with dtm := { s.dtm with writer := none } }).setB Fld.DTM_MODE.ENS_ACTIVE false

/-- The interval without a writer begins (R138). -/
def State.beginNoWriter (s : State) : State :=
  let s0 := s.setB Fld.TRV_STAT.NOWRITER true
  let s1 : State := { s0 with trv := { s0.trv with wrote := false } }
  match s.trv.unsteered with
  | some _ => s1
  | none =>
    let b := s.datumSides s.now
    let s2 : State := { s1 with trv := { s1.trv with unsteered := some ⟨s.now, b.1, b.2⟩, uSince := s.now } }
    if s2.cond = 2 then s2 else { s2 with ens := { s2.ens with theta := 0, thetaMiss := 0 } }

/-! ### What a step or a loss of lock does to the measurements -/

/-- A calibration in progress is disturbed (Table 4.3, A6). -/
def TicChan.disturb (c : TicChan) : TicChan :=
  match c.run with
  | some r => { c with run := some { r with disturbed := true } }
  | none => c

/-- Every calibration that collects hits is disturbed: DCLK lost lock, SYN0 hopped, or a SETTLE step was applied. -/
def State.ticDisturb (s : State) : State :=
  { s with tic := { s.tic with ch := s.tic.ch.map (fun e => (e.1, e.2.disturb)) } }

/-- An entry whose runs start again from zero, and whose window restarts when it is QUALIFYING (R412). -/
def EnsEntry.restart (e : EnsEntry) (qualifying : Bool) (n : Nat) : EnsEntry :=
  let e1 : EnsEntry := { e with missRun := 0, presRun := 0, suspRun := 0, triRun := 0, samples := [], last := none }
  if qualifying then { e1 with winFrom := n, winMiss := 0, winFit := ⟨0, 0, 0, 0, 0⟩ } else e1

/-- The assist after a step to `end_` (R412, R124): when the step skips the processing action, processing resumes with the first
whole second; every stream takes its next mark there; the seconds of the step take no part in learning. -/
def State.ensStep (s : State) (from_ end_ : TimeVal) : State :=
  let n := end_.nextSec
  let skips := match s.ens.procNext with
    | some m => decide (from_.count ≤ (m + 2) * secCount ∧ (m + 2) * secCount < end_.count)
    | none => false
  let ent := s.ens.ent.map (fun e =>
    let e1 := if skips then e.2.restart (decide (s.fd Fld.ENS_REF_STATE.STATE e.1 = 2)) n else e.2
    (e.1, if e1.mark.isSome then { e1 with mark := some (TimeVal.ofSec n) } else e1))
  { s with ens := { s.ens with ent := ent, procNext := if skips then some n else s.ens.procNext, exclUntil := n + 1 } }

/-- The output alignments that a forward step to `end_` skips are withdrawn (R168). -/
def State.synStep (s : State) (end_ : TimeVal) : State :=
  let outs := s.syn.outs.map (fun e =>
    (e.1, match e.2.alignAt with
      | some a => if a < end_.sec.toNat then { e.2 with alignAt := none } else e.2
      | none => e.2))
  let sync := match s.syn.sync with
    | some (a, m) => if a < end_.sec.toNat then none else some (a, m)
    | none => none
  { s with syn := { s.syn with outs := outs, sync := sync } }

/-- A Datum step moves the instants of the serialisers' count, which runs on (R208): launch points, frames on the line. -/
def State.prtStep (s : State) (off : Int) : State :=
  let sh := fun (x : Nat) => ((x : Int) + off * 825).toNat
  let cycle : Nat := 5 * 5406720 * 32 * 2 ^ 32
  let ports := s.prt.ports.map (fun e =>
    (e.1, { e.2 with
      phase := (((e.2.phase : Int) + off * 825) % cycle).toNat
      free := sh e.2.free
      tx := e.2.tx.map (fun t => { t with end_ := sh t.end_ }) }))
  { s with prt := { s.prt with ports := ports } }

/-! ### Thread cleanup (R87) -/

/-- The events that target a thread are withdrawn and counted (Table 3.19, step 5). -/
def State.withdrawEvents (s : State) (p : EvTarget → Bool) : State :=
  s.timeline.foldl (fun s e =>
    match e.2.armed with
    | some ev => if p ev.target then (s.freeSlot e.1 false).count .DTM_TL_WITHDRAWN else s
    | none => s) s

/-- A cleaned-up thread's part in its lane's queue: queued jobs are cancelled, a running one ends without notice or send. -/
def cutJobs (th : Nat) (js : List CryptoJob) : List CryptoJob :=
  (js.filter (fun j => j.thread ≠ th || j.got.isSome)).map
    (fun j => if j.thread = th then { j with notify := false, chain := false } else j)

/-- The interrupt notices of an aborted thread: withdrawn, their sources pending again (R295). -/
def State.repend (s : State) (ns : List Notice) : State :=
  ns.foldl (fun s n =>
    if n.kind = .irq then
      ((s.setB Fld.IRQ_SRC_STAT.ISSUED false n.handle.toNat).setB Fld.IRQ_SRC_STAT.PEND true n.handle.toNat).setIrqDyn
        n.handle.toNat { (s.irqDyn n.handle.toNat) with target := 0, moved := false, fell := false }
    else s) s

/-- The abort cleanup of a thread, which ends in `final` (R87, Table 3.19): notices and reservations go, queued jobs are
cancelled, its events and launches are withdrawn, its frames freed, its derived keys released, its ownership entries
orphaned, its writer role ended. -/
def State.cleanupThread (s : State) (th : Nat) (final : ThreadSt) : State :=
  let t := s.thread th
  let s1 := s.repend t.notices
  let s2 := s1.setThread th { t with st := final, notices := [], reserved := 0, wait := none, poison := [] }
  let s3 : State := { s2 with
    jobs := s2.jobs.map (fun e => (e.1, cutJobs th e.2))
    derived := s2.derived.filter (fun e => decide (e.2.thread ≠ th)) }
  let s4 := s3.withdrawEvents (fun tg => decide (tg = .thread th))
  let s5 := s4.launches.foldl (fun s e => if e.2.thread = th then (s.dropLaunch e.2).freeFrame e.2.frame else s) s4
  let s6 : State := { s5 with frames := s5.frames.filter (fun e => decide (e.2.holder ≠ some th)) }
  let s7 := s6.orphan (.thread th)
  if s7.dtm.writer = some th then s7.endWriter else s7

/-- A thread abort (R86, R87): of a thread that is ABORTED, FAULTED or IDLE it changes nothing. -/
def State.abortThread (s : State) (th : Nat) : State :=
  match (s.thread th).st with
  | .aborted | .faulted | .idle => s
  | _ =>
    let s1 := s.cleanupThread th .aborted
    s1.wr .STK_ABORT (coreOf th) (s1.rg .STK_ABORT (coreOf th) ||| BitVec.ofNat 32 (2 ^ (4 + th % 4)))

/-! ### The core-die reset -/

/-- Whether an event targets the core die (R59). -/
def EvTarget.onCore : EvTarget → Bool
  | .thread _ => true
  | .source _ => true
  | .launch _ _ _ => true
  | _ => false

/-- PWR_STAT follows the gates, Ember and PWRFAIL_N (R366, R367). -/
def State.pwrShow (s : State) : State :=
  let cr := [0, 1, 2, 3].foldl (fun m r => if s.pwr.gatedCr.contains r then m + 2 ^ r else m) 0
  let st := if s.pwr.ember then 2 else if cr ≠ 0 ∨ s.pwr.gatedGnss then 1 else 0
  (((s.setF Fld.PWR_STAT.STATE st).setF Fld.PWR_STAT.CR_GATED cr).setB Fld.PWR_STAT.GNSS_GATED s.pwr.gatedGnss).setB
    Fld.PWR_STAT.PWRFAIL s.pwr.pwrfail

/-- What the core die holds is lost (R11, R222): its registers take their reset words, its memories, threads, frames and jobs go; the
records held on the clock die and in the Keeper region stay. -/
def State.coreLose (s : State) : State :=
  { s with
    regs := s.regs.filter (fun e => decide (e.1.reg.domain e.1.idx ≠ .core))
    mem := [], replicaOk := false, d2dUp := false, threads := [], images := [], frames := [], launches := [], jobs := [],
    derived := [], irq := [], prt := .reset, key := .reset, mat := .reset, pmc := .reset, svc := .reset,
    flt := { s.flt with grace := s.flt.grace.filter (fun e => keeperRecord e.1), buckets := [] },
    hst := { HstState.reset with posted := s.hst.posted, cookieCtr := s.hst.cookieCtr, wosDone := s.hst.wosDone },
    pwr := { s.pwr with core := .held, isolated := [], gatedCr := [], debug := .off } }

/-- The core die waits for the pin RESET_N. -/
def State.askPin (s : State) : State := { s with pwr := { s.pwr with needPin := true } }

/-- The core die reset (R11, R17, R22, R34, R59, R222, R300): every core-die register takes its reset word and every memory,
thread, frame and job of the core die is lost; the events that target it are withdrawn and counted; the entries of its
threads and host queues become orphaned; the writer role ends and the interval without a writer begins; the clock die and
the Keeper region run on. AUTO_OPEN starts at 0 while the ladder stands at a step. The die is left in reset. -/
def State.coreReset (s : State) : State :=
  let s0 := (s.withdrawEvents EvTarget.onCore).endWriter.beginNoWriter
  let s1 := (List.range 384).foldl (fun s i =>
    if !ownFixed i && s.fb Fld.TOP_OWN.HELD i && decide (s.fd Fld.TOP_OWN.KIND i ≠ 3) then
      s.setB Fld.TOP_OWN.ORPHAN true i else s) s0
  let s2 := (s1.flt.grace.filter (fun e => !keeperRecord e.1)).foldl (fun s e => s.engineFree (hGrace e.1) false) s1
  let s4 := s2.coreLose.pwrShow
  if s4.fd Fld.FLT_ESC.STEP = 0 then s4 else s4.setB Fld.SVC_CTL.AUTO_OPEN false

/-! ### The escalation ladder (R264 to R267) -/

/-- Whether the mate is healthy: LINKED, and its latest heartbeat says so (R345). -/
def State.mateHealthy (s : State) : Bool :=
  decide (s.fd Fld.MAT_STAT.MATE = 4) && s.fb Fld.MAT_STAT.MATE_HEALTHY

/-- Step 1 (R265): the service closes and AUTO_OPEN clears, the writer role ends, the Banked condition is forced. -/
def State.ladder1 (s : State) : State :=
  (((s.closeSvc 4).setB Fld.SVC_CTL.AUTO_OPEN false).endWriter).setB Fld.FLT_ESC.BANK_FORCED true

/-- Step 2 (R266, R348): an active engine with a healthy mate yields, a standby engine withdraws; otherwise, with no healthy
mate, the step is recorded as skipped. -/
def State.ladder2 (s : State) : State :=
  if (s.role = 2 ∧ s.mateHealthy) ∨ s.role = 3 then s.setRole 4 0x0A
  else if s.mateHealthy then s
  else s.setB Fld.FLT_ESC.SKIP2 true

/-- One hour of Datum time. -/
def hourCount : Nat := 3600 * secCount

/-- Step 3 (R267): the summary is committed, the reset is counted, the core die is reset; when the window already holds
MAXRST resets, the die is held and cause OTHER is recorded in record 460. FAULT_N is held low (Table 11.5). -/
def State.ladder3 (s : State) (i : Nat) : State :=
  let n := s.now
  let recent := s.flt.resets.filter (fun t => decide (n.count < t.count + hourCount))
  let held := decide (s.fd Fld.FLT_ESC_CTL.MAXRST ≤ recent.length)
  let cnt := min 0xFFF (s.fd Fld.FLT_ESC_LAST.COUNT + 1)
  let sum : FltSummary :=
    { record := i, stat := s.rg .FLT_REC_STAT i, cause := s.rg .FLT_REC_CAUSE i, source := s.rg .FLT_REC_SOURCE i,
      img := s.pair .FLT_REC_IMG_HI .FLT_REC_IMG_LO i, firstSec := s.rg .FLT_REC_FIRST_SEC i,
      firstNs := s.rg .FLT_REC_FIRST_NS i, at_ := n, count := cnt }
  let cls := s.fd Fld.FLT_REC_STAT.CLASS i
  let s1 : State := { s with flt := { s.flt with summary := some sum, resets := recent ++ [n], step3Hold := true } }
  let s2 := (((s1.setF Fld.FLT_ESC_LAST.RECORD i).setF Fld.FLT_ESC_LAST.CLASS cls).setF Fld.FLT_ESC_LAST.COUNT cnt).wr
    .FLT_ESC_LAST_AT 0 (n.sec.extractLsb' 0 32)
  let s3 := s2.coreReset
  if held then
    let s4 := (s3.setB Fld.FLT_ESC.HELD true).recordFault { rec_ := 460, cause := 31, cls := 2 }
    (s4.armGrace 460 1 n).askPin
  else s3

/-- A record reaches a step of the ladder (R264): ESCALATED is merged into it, and where no record has reached the step
before, the step is taken. A record below step 3 arms its timer for the next step. -/
def State.escalate (s : State) (i step : Nat) : State :=
  let s0 := s.stopGrace i true
  let s1 := if step < 3 then s0.armGrace i (step + 1) s.now else s0
  if s1.fd Fld.FLT_ESC.STEP < step then
    let s2 := s1.recordFault { rec_ := i, cause := 28, cls := 2 }
    let s3 := ((s2.setF Fld.FLT_ESC.STEP step).setF Fld.FLT_ESC.RECORD i).irqPulse 97 step
    if step = 1 then s3.ladder1 else if step = 2 then s3.ladder2 else s3.ladder3 i
  else s1

/-- A fault raised (R257 to R265): the record's part, then the grace timer or, for CRITICAL, step 1 at once. -/
def State.raise (s : State) (r : Raise) : State :=
  if !s.recordUp r.rec_ then s else
  let i := r.rec_
  let active := s.fb Fld.FLT_REC_STAT.ACTIVE i
  let acked := s.fb Fld.FLT_REC_STAT.ACKED i
  let old := s.fd Fld.FLT_REC_STAT.CLASS i
  let s1 := s.recordFault r
  let s2 := if 2 ≤ r.cls ∧ acked then s1.setB Fld.FLT_REC_STAT.ACKED false i else s1
  if r.cls = 3 then s2.escalate i 1
  else if r.cls = 2 ∧ (!active ∨ old < 2 ∨ acked) then s2.armGrace i 1 s.now
  else s2

/-- A host request refused: cause HOST_REFUSED, NOTICE, in the block's record (Table 11.4). -/
def State.hostRefused (s : State) (rec_ : Nat) : State := s.raise { rec_ := rec_, cause := 15, cls := 0 }

/-- A Damper violation (R76, R255) of a thread, with its reason code and instruction word, counted as event DMP (Table 13.5). -/
def State.violation (s : State) (th reason : Nat) (status : Nat) (insn : BitVec 32) : State :=
  let s1 := s.raise { rec_ := 64 + coreOf th, cause := 0, cls := 2, thread := some th, status := status, reason := reason }
  let s2 := (s1.bump .STK_DMP_VIOL (coreOf th)).bump .DMP_VIOL_TOTAL
  let s3 := ((s2.wr .DMP_LAST 0 (BitVec.ofNat 32 (th % 512 * 256 + reason % 256))).wr .DMP_LAST_INSN 0 insn).wr
    .DMP_LAST_AT 0 s.now.ns
  s3.pmcEvent th 0x0C (s.thread th).k insn (((s.thread th).pc - 4).extractLsb' 0 32)

end Sys2Proof.Machine
end

