-- ==== Sys2Proof/Machine/DtmOps.lean ====
section
/-!
DEFINITION. Machine/DtmOps.lean: the operations of the Datum block (02_datum.md): the counter's tick, the increment and its
limits, SETTLE and its step, UTC and its scheduled change, snapshots, the timeline's arm, cancel and fire.
-/
namespace Sys2Proof.Machine

/-! ### Host access violations (R316) -/

/-- A discarded host write recorded in a violation register: VIOL, the count, and the offset of the first (R316). -/
def State.markViol (s : State) (r : Reg) (off : Nat) : State :=
  let w := (s.rg r 0).toNat
  let c := bitsOf w 30 25
  let o := if bitAt w 31 then bitsOf w 24 2 else off / 4 % 2 ^ 23
  s.wr r 0 (BitVec.ofNat 32 (2 ^ 31 + min 63 (c + 1) * 2 ^ 25 + o * 4))

/-- A write treated as a write while locked (R313): TOP_LOCK_VIOL and cause LOCK_VIOL in record 469. -/
def State.lockViol (s : State) (off : Nat) : State :=
  (s.markViol .TOP_LOCK_VIOL off).raise { rec_ := 469, cause := 16, cls := 0 }

/-- A second write of a write-once register. -/
def State.wosViol (s : State) (off : Nat) : State :=
  (s.markViol .TOP_WOS_VIOL off).raise { rec_ := 469, cause := 17, cls := 0 }

/-- A host write to another party's resource (R33). -/
def State.ownViol (s : State) (off : Nat) : State :=
  (s.markViol .TOP_OWN_VIOL off).raise { rec_ := 469, cause := 18, cls := 0 }

/-! ### The counter (R37) and the increment (R39 to R43) -/

/-- The smallest and largest increment (R39). -/
def incMin : Nat := 57645498769590046
def incMax : Nat := 57646651691094652

/-- The window of R40, in ticks. -/
def incWindow : Nat := 1250000000

/-- L of R40 for DMP_MAX_DFDT in 10^-13 per second. -/
def slewLimit (dfdt : Nat) : Nat := dfdt * 57646075230342349 / 10 ^ 13

/-- The values in effect during the window before tick `e`: newest first, with the tick each began (R40). -/
def incWindowValues (e : Nat) : List (Nat × BitVec 64) → Nat → List Nat
  | [], _ => []
  | (start, v) :: r, until_ =>
    if e < until_ + incWindow then v.toNat :: incWindowValues e r start else incWindowValues e r start

/-- The increments in effect or accepted to take effect before tick `e`, newest first. -/
def State.incSeries (s : State) (e : Nat) : List (Nat × BitVec 64) :=
  (s.dtm.incPending.filter (fun x => decide (x.1 < e))).reverse ++ s.dtm.incHist

/-- Whether an increment that would take effect at tick `e` keeps the slew limit of R40. -/
def State.slewOk (s : State) (v e : Nat) : Bool :=
  (incWindowValues e (s.incSeries e) e).all (fun u => decide ((if u ≤ v then v - u else u - v) ≤ slewLimit s.flt.dfdtClock))

/-- The delay of R15 in ticks. -/
def effectDelay : Nat := 64

/-- The accepted increments whose tick has come take effect on the Datum counter and the replica (R15). -/
def State.incTake (s : State) : State :=
  let due := s.dtm.incPending.filter (fun x => decide (x.1 ≤ s.tick))
  let rest := s.dtm.incPending.filter (fun x => decide (s.tick < x.1))
  due.foldl (fun s x =>
    let s1 := s.setPair .DTM_INC_HI .DTM_INC_LO x.2
    let hist := ((x.1, x.2) :: s.dtm.incHist)
    { s1 with dtm := { s1.dtm with incHist := hist.take 4096 } })
    { s with dtm := { s.dtm with incPending := rest } }

/-- Who loses an increment write (R42, R265): in RUN all but the writer role's holder, when a thread holds it; in SETTLE every
program once the host has written; every write while the ladder stands. -/
def State.incLost (s : State) (p : Party) : Bool :=
  let settle := decide (s.fd Fld.DTM_MODE.MODE = 1)
  let roleLoses := match s.dtm.writer, p with
    | none, _ => false
    | some w, .thread n => decide (n ≠ w)
    | some _, _ => true
  if s.fb Fld.FLT_ESC.BANK_FORCED then true
  else match p with
    | .thread _ => if settle ∧ s.fb Fld.DTM_MODE.HOST_INC then true else roleLoses
    | _ => if settle then false else roleLoses

/-- The outcome of an increment write. -/
inductive IncOutcome where
  | accepted | lost | range | slew
  deriving DecidableEq, Repr

/-- The decision on an increment write (R39 to R43). -/
def State.incDecide (s : State) (p : Party) (v : BitVec 64) : IncOutcome :=
  if s.incLost p then .lost
  else if v.toNat < incMin ∨ incMax < v.toNat then .range
  else if s.fd Fld.DTM_MODE.MODE = 0 ∧ !s.slewOk v.toNat (s.tick + effectDelay) then .slew
  else .accepted

/-- An accepted increment write: it waits for its tick, and DTM_WSTAT and the mode bits record it (R42, R43). -/
def State.incAccept (s : State) (p : Party) (v : BitVec 64) : State :=
  let s1 : State := { s with
    dtm := { s.dtm with incPending := s.dtm.incPending ++ [(s.tick + effectDelay, v)] }
    trv := { s.trv with wrote := true } }
  let s2 := s1.setB Fld.DTM_WSTAT.INC_ACCEPT true
  match p with
  | .thread n => (s2.setF Fld.DTM_WSTAT.INC_SRC 1).setF Fld.DTM_WSTAT.INC_THREAD n
  | _ =>
    let s3 := s2.setF Fld.DTM_WSTAT.INC_SRC 2
    if s.fd Fld.DTM_MODE.MODE = 1 then s3.setB Fld.DTM_MODE.HOST_INC true else s3

/-- A host write of the increment (R41 to R43). -/
def State.incHost (s : State) (lo : BitVec 32) : State :=
  let v := s.dtm.incStaged ++ lo
  let s1 := match s.incDecide .hostReg v with
    | .accepted => s.incAccept .hostReg v
    | .lost => s.setB Fld.DTM_WSTAT.INC_LOST true
    | .range => ((s.setB Fld.DTM_WSTAT.INC_REFUSED true).setF Fld.DTM_WSTAT.REASON 6).hostRefused 459
    | .slew => ((s.setB Fld.DTM_WSTAT.INC_REFUSED true).setF Fld.DTM_WSTAT.REASON 0xA).hostRefused 459
  { s1 with dtm := { s1.dtm with incStaged := s1.rg .DTM_INC_HI 0 } }

/-- A program's write of the increment (DINC, Table 3.17), with its instruction word: the state, the status and its detail. -/
def State.incProgram (s : State) (th : Nat) (v : BitVec 64) (insn : BitVec 32) : State × Status × Nat :=
  match s.incDecide (.thread th) v with
  | .accepted => (s.incAccept (.thread th) v, .ok, 0)
  | .lost => (s.setB Fld.DTM_WSTAT.INC_LOST true, .lost, 0)
  | .range => ((s.setF Fld.DTM_WSTAT.REASON 9).violation th 0x01 0x0E insn, .damper, 0x0E)
  | .slew => ((s.setF Fld.DTM_WSTAT.REASON 9).violation th 0x02 0x0E insn, .damper, 0x0E)

/-! ### SETTLE (R44 to R51) -/

/-- A SETTLE window opens (R44, R47). -/
def State.openSettle (s : State) (kindling : Bool) : State :=
  let secs := s.fd Fld.DTM_SETTLE_TIMEOUT.SECONDS
  let end_ := s.now.plus (secs * secCount)
  let s1 := ((((s.setF Fld.DTM_MODE.MODE 1).setB Fld.DTM_MODE.KINDLING kindling).setB Fld.DTM_MODE.STEP_USED false).setB
    Fld.DTM_MODE.HOST_INC false).setF Fld.DTM_SETTLE_LEFT.SECONDS secs
  let s2 : State := { s1 with dtm := { s1.dtm with settleEnd := some end_, closeAsked := false } }
  (s2.engineArm hSettle end_).irqPulse 99 1

/-- The SETTLE window closes: the Datum returns to RUN (R44). -/
def State.shutSettle (s : State) : State :=
  if s.fd Fld.DTM_MODE.MODE = 0 then s else
  let s1 := (((s.setF Fld.DTM_MODE.MODE 0).setB Fld.DTM_MODE.KINDLING false).setB Fld.DTM_MODE.HOST_INC false).setF
    Fld.DTM_SETTLE_LEFT.SECONDS 0
  let s2 : State := { s1 with dtm := { s1.dtm with settleEnd := none, closeAsked := false } }
  (s2.engineFree hSettle false).irqPulse 99 0

/-- Whether the window's timeout has been reached. -/
def State.settleDue (s : State) : Bool :=
  match s.dtm.settleEnd with
  | some t => s.reached t
  | none => false

/-- A write of DTM_SETTLE_CTL (R46, R47): the source and mute fields, then OPEN or CLOSE. A refused request to open changes nothing
but its status (R46). With both bits written, OPEN is the one that counts (DEDUCED: a window must open before it can close). -/
def State.settleCtl (s : State) (v : BitVec 32) : State :=
  let s0 := s.wr .DTM_SETTLE_CTL 0 (v &&& 0x00000107#32)
  if bitAt v.toNat 31 then
    if s.svcState = 1 then (s.setB Fld.DTM_WSTAT.SETTLE_REFUSED true).setF Fld.DTM_WSTAT.REASON 1
    else if s.fd Fld.DTM_MODE.MODE = 1 then (s.setB Fld.DTM_WSTAT.SETTLE_REFUSED true).setF Fld.DTM_WSTAT.REASON 2
    else s0.openSettle false
  else if bitAt v.toNat 30 then
    if s0.fd Fld.DTM_MODE.MODE = 0 then s0
    else if s0.dtm.step.isSome then { s0 with dtm := { s0.dtm with closeAsked := true } }
    else s0.shutSettle
  else s0

/-- The signed offset of a step (R48): seconds, nanoseconds, fraction. -/
def stepOffset (sec : BitVec 64) (ns frac : BitVec 32) : Int :=
  sec.toInt * secCount + (ns.toNat * 2 ^ 32 + frac.toNat : Nat)

/-- Why a step request is refused, if it is (R47, R48); `srcBit` is the source's bit in DTM_SETTLE_CTL. -/
def State.stepRefusal (s : State) (srcBit : Nat) (ns : BitVec 32) (offset : Int) : Option Status :=
  if s.fd Fld.DTM_MODE.MODE = 0 then some .notSettle
  else if s.settleDue || s.dtm.closeAsked then some .closed
  else if s.dtm.step.isSome || s.fb Fld.DTM_MODE.STEP_USED then some .stepUsed
  else if !bitAt (s.rg .DTM_SETTLE_CTL 0).toNat srcBit then some .source
  else if 999999999 < ns.toNat then some .range
  else if (s.now.count : Int) + offset < 0 then some .range
  else none

/-- The REASON code of a refused step (DTM_WSTAT). -/
def stepReason : Status → Nat
  | .notSettle => 3 | .stepUsed => 4 | .source => 5 | .range => 6 | .closed => 7 | _ => 0

/-- An accepted step: it waits for the common tick of R15. -/
def State.stepAccept (s : State) (offset : Int) (b : Bound) (source : Nat) : State :=
  let s1 : State := { s with dtm := { s.dtm with step := some ⟨s.tick + effectDelay, offset, b, source⟩ } }
  (s1.setB Fld.DTM_MODE.STEP_PEND true).setB Fld.DTM_WSTAT.STEP_ACCEPT true

/-- A host step request (R48, R49): the status, OK when it is accepted. -/
def State.stepHost (s : State) (sec : BitVec 64) (ns frac : BitVec 32) (b : Bound) : State × Status :=
  let off := stepOffset sec ns frac
  match s.stepRefusal 2 ns off with
  | none => (s.stepAccept off b 0, .ok)
  | some r => (((s.setB Fld.DTM_WSTAT.STEP_REFUSED true).setF Fld.DTM_WSTAT.REASON (stepReason r)).hostRefused 459, r)

/-- The word of a signed count of 2^-32 ns added to a Datum word; the hidden bits stay (R48). -/
def Datum.shift (d : Datum) (off : Int) : Datum :=
  ⟨TimeVal.ofCount ((d.word.count : Int) + off).toNat, d.low⟩

/-- An event fires: the thread's notice, or the doorbell raise of a source; a block action's unit is told by its own command.
The slot is freed. -/
def State.fireEvent (s : State) (h : Nat) (e : Event) (late stepped : Bool) : State :=
  let s1 := s.freeSlot h true
  match e.target with
  | .thread th =>
    let cls := if e.expiry then 3 else 5
    let n := s1.mkNotice (if e.expiry then .expiry else .wake) 0 h e.instant cls h
    s1.notify th { n with late := late, stepped := stepped }
  | .source n =>
    if 256 ≤ n ∧ n < 512 ∧ s1.fb Fld.IRQ_SRC_CFG.EN n ∧ s1.fb Fld.IRQ_SRC_CFG.MODE n then s1.irqLatch n 0
    else (s1.bump .IRQ_DB_DROP).setB Fld.IRQ_WSTAT.DB_DROP true
  | _ => s1

/-- The events a forward step skips (R50): launches are withdrawn and reported STEPPED, the others fire with the STEPPED flag;
each is counted. -/
def State.skipEvents (s : State) (from_ to_ : Nat) : State :=
  s.timeline.foldl (fun s x =>
    match x.2.armed with
    | none => s
    | some e =>
      let c := e.instant.count * 2 ^ 24
      if from_ ≤ c ∧ c < to_ then
        let s1 := s.count .DTM_TL_STEPPED
        match e.target, SMap.find s1.launches x.1 with
        | .launch _ _ _, some l => s1.failLaunch l .stepped
        | .thread _, _ | .source _, _ => s1.fireEvent x.1 e false true
        | _, _ => s1
      else s) s

/-- A due step applied to the counter and the replica on its common tick (R48, R50, R142): the skipped events, the bound basis,
the journal's STEP record; the window then closes. -/
def State.stepApply (s : State) (r : StepReq) : State :=
  let a := s.datum.count56
  let s1 : State := { s with
    datum := Datum.shift s.datum r.offset
    replica := Datum.shift s.replica r.offset
    dtm := { s.dtm with step := none } }
  let b := s1.datum.count56 + s1.inc.toNat
  let s2 := (s1.setB Fld.DTM_MODE.STEP_PEND false).setB Fld.DTM_MODE.STEP_USED true
  let endWord := (Datum.ofCount56 b).word
  let bank := TimeVal.ofSec endWord.sec.toNat
  let basis : Basis := ⟨endWord, sideOf r.bound.early, sideOf r.bound.late⟩
  let bankB : Basis := ⟨bank, sideOf r.bound.early, sideOf r.bound.late⟩
  let s3 : State := { s2 with
    trv := { s2.trv with basis := basis, bankB := bankB }
    ens := { s2.ens with theta := 0, thetaMiss := 0, resid := 0, residAt := bank } }
  let s4 := (s3.setPair .ENS_BANK_AT_HI .ENS_BANK_AT_LO endWord.sec).setB Fld.TRV_STAT.PRE_SOURCE false
  let s5 := if s4.cond = 2 then s4 else s4.setB Fld.TRV_STAT.STEP_BASIS true
  let s6 := ((s5.skipEvents (a + s1.inc.toNat) b).ticDisturb.ensStep s.now endWord).synStep endWord
  let s7 := (s6.prtStep r.offset).journal 0x06 0xFF r.source endWord (r.offset / 2 ^ 16) r.bound.early r.bound.late []
  s7.shutSettle

/-- The due step, if one is due. -/
def State.stepTake (s : State) : State :=
  match s.dtm.step with
  | some r => if r.tick ≤ s.tick then s.stepApply r else s
  | none => s

/-! ### UTC and leap seconds (R52 to R55) -/

/-- The TAI-UTC offset in effect. -/
def State.utcOffset (s : State) : Int := signedOf 16 (s.fd Fld.DTM_UTC_OFFSET.OFFSET)

/-- The UTC day flags of an armed change (R55): from UTC midnight of the day that ends with it, under the offset in effect. -/
def State.leapFlags (s : State) : State :=
  match s.dtm.leapAt with
  | none => (s.setB Fld.DTM_UTC_STAT.LEAP61 false).setB Fld.DTM_UTC_STAT.LEAP59 false
  | some (at_, new) =>
    let ins := decide (s.utcOffset < signedOf 16 new.toNat)
    let day : Int := if ins then 86401 else 86399
    let on := decide ((at_.toNat : Int) - day ≤ s.now.sec.toNat)
    (s.setB Fld.DTM_UTC_STAT.LEAP61 (on && ins)).setB Fld.DTM_UTC_STAT.LEAP59 (on && !ins)

/-- A refused arm or cancel of a scheduled change. -/
def State.leapRefuse (s : State) (reason : Nat) : State :=
  (s.setB Fld.DTM_WSTAT.LEAP_REFUSED true).setF Fld.DTM_WSTAT.REASON reason

/-- Arming a scheduled change (R54). -/
def State.leapArm (s : State) (new : BitVec 16) : State :=
  let at_ := s.pair .DTM_LEAP_AT_HI .DTM_LEAP_AT_LO
  let diff := signedOf 16 new.toNat - s.utcOffset
  if ¬ (diff = 1 ∨ diff = -1) ∨ ((at_.toNat : Int) - signedOf 16 new.toNat) % 86400 ≠ 0 ∨ s.dtm.leapAt.isSome then
    s.leapRefuse 6
  else if s.tooSoon (TimeVal.ofSec at_.toNat) (2 * secCount) then s.leapRefuse 8
  else
    let s1 : State := { s with
      dtm := { s.dtm with leapAt := some (at_, new), leapHist := .none }
      cairn := { s.cairn with leapAt := some (at_, new) } }
    (((s1.setB Fld.DTM_WSTAT.LEAP_ACCEPT true).setB Fld.DTM_UTC_STAT.LEAP_PEND true).setF Fld.DTM_UTC_STAT.NEXT_OFFSET
      new.toNat |>.engineArm hLeap (TimeVal.ofSec at_.toNat)).leapFlags

/-- Withdrawing a scheduled change (R54). -/
def State.leapCancel (s : State) : State :=
  match s.dtm.leapAt with
  | none => s.leapRefuse (if s.dtm.leapHist = .taken then 8 else 6)
  | some (at_, _) =>
    if s.reached (TimeVal.ofSec at_.toNat) then s.leapRefuse 8
    else
      let s1 : State := { s with
        dtm := { s.dtm with leapAt := none, leapHist := .none }
        cairn := { s.cairn with leapAt := none } }
      (((s1.setB Fld.DTM_WSTAT.LEAP_ACCEPT true).setB Fld.DTM_UTC_STAT.LEAP_PEND false).setF Fld.DTM_UTC_STAT.NEXT_OFFSET 0
        |>.engineFree hLeap false).leapFlags

/-- A write of DTM_LEAP_CTL: ARM takes NEW_OFFSET of the same write; CANCEL withdraws. -/
def State.leapCtl (s : State) (v : BitVec 32) : State :=
  let s0 := s.wr .DTM_LEAP_CTL 0 (v &&& 0xFFFF#32)
  if bitAt v.toNat 31 then s0.leapArm (v.extractLsb' 0 16)
  else if bitAt v.toNat 30 then s0.leapCancel
  else s0

/-- A write of DTM_UTC_OFFSET: it takes effect only in SETTLE; in RUN it is a write while locked (R53). -/
def State.utcWrite (s : State) (v : BitVec 32) : State :=
  if s.fd Fld.DTM_MODE.MODE = 1 then
    let w := v &&& 0x8000FFFF#32
    let s1 := s.wr .DTM_UTC_OFFSET 0 w
    { s1 with cairn := { s1.cairn with regs := SMap.set RegKey.ord RegKey.dflt s1.cairn.regs ⟨.DTM_UTC_OFFSET, 0⟩ w } }
  else s.lockViol ((Reg.DTM_UTC_OFFSET).addr 0)

/-- Whether the Datum second is an inserted second (R52): the second before a change that adds one. -/
def State.inLeapNow (s : State) : Bool :=
  match s.dtm.leapAt with
  | some (at_, new) => decide (s.utcOffset < signedOf 16 new.toNat ∧ s.now.sec.toNat + 1 = at_.toNat)
  | none => false

/-! ### Snapshots (R61) -/

/-- DTM_SNAP_INFO at a tick: the UTC offset, IN_LEAP, LEAP_PEND, MODE. -/
def State.snapInfo (s : State) : BitVec 32 :=
  BitVec.ofNat 32 (s.fd Fld.DTM_UTC_OFFSET.OFFSET * 2 ^ 16 + bit01 s.inLeapNow * 8
    + bit01 (s.fb Fld.DTM_UTC_STAT.LEAP_PEND) * 4 + s.fd Fld.DTM_MODE.MODE)

/-- What a snapshot latches on the present tick. -/
def State.snapshot (s : State) : Snapshot := ⟨s.now, s.datumBound s.now, s.inc, s.snapInfo⟩

/-- A write of DTM_SNAP_CTL: OVERRUN is cleared by 1; GO takes a snapshot, or sets OVERRUN while one is pending. -/
def State.snapGo (s : State) (v : BitVec 32) : State :=
  let s0 := s.w1c .DTM_SNAP_CTL 0 v
  if bitAt v.toNat 0 then
    if s0.dtm.snapPend then s0.setB Fld.DTM_SNAP_CTL.OVERRUN true
    else
      let x := s0.snapshot
      let s1 := ((s0.setPair .DTM_SNAP_SEC_HI .DTM_SNAP_SEC_LO x.at_.sec).wr .DTM_SNAP_NS 0 x.at_.ns).wr .DTM_SNAP_FRAC 0
        x.at_.frac
      let s2 := (((s1.wr .DTM_SNAP_EARLY 0 x.b.early).wr .DTM_SNAP_LATE 0 x.b.late).setPair .DTM_SNAP_INC_HI
        .DTM_SNAP_INC_LO x.inc).wr .DTM_SNAP_INFO 0 x.info
      ({ s2 with dtm := { s2.dtm with snapPend := true } }).setB Fld.DTM_SNAP_CTL.DONE false |>.irqLine 98 false
  else s0

/-- A pending snapshot completes on the copy refresh: SEQ increments and DONE becomes 1 together (R61). -/
def State.snapDone (s : State) : State :=
  if s.dtm.snapPend then
    let s1 : State := { s with dtm := { s.dtm with snapPend := false } }
    ((s1.setF Fld.DTM_SNAP_CTL.SEQ (s1.fd Fld.DTM_SNAP_CTL.SEQ + 1)).setB Fld.DTM_SNAP_CTL.DONE true).irqLine 98 true
  else s

/-! ### Arming, cancelling and firing timeline events (R56 to R58) -/

/-- The lead of Table 2.1 in counts of 2^-32 ns: 4 microseconds. -/
def armLead : Nat := 4 * usCount

/-- Whether a target lies in a gated region (R20): a thread or a launch's port of a gated core-die region, or a snapshot of the
gated GNSS baseband. -/
def State.targetGated (s : State) (t : EvTarget) : Bool :=
  match t with
  | .thread n => s.gatedCluster (clusterOf n)
  | .launch n _ _ => s.gatedCluster (clusterOf n)
  | .snapshot => s.pwr.gatedGnss
  | _ => false

/-- The arm of an event (Table 2.1); `fixedLead` marks kinds that are refused when too soon, whatever the policy. -/
def State.arm (s : State) (p : Party) (h : Nat) (e : Event) (policyFire fixedLead : Bool) : State × Status :=
  if ownFixed (slotOwner h) || !s.owns p (slotOwner h) then (s, .notOwner)
  else if (s.slot h).armed.isSome then (s, .busy)
  else if s.targetGated e.target then (s.count .DTM_TL_REFUSED, .gated)
  else if s.tooSoon e.instant armLead then
    if policyFire ∧ !fixedLead then (((s.armSlot h e).count .DTM_TL_LATE).fireEvent h e true false, .late)
    else (s.count .DTM_TL_REFUSED, .past)
  else (s.armSlot h e, .ok)

/-- The instant before which a cancel must arrive: the event's own. -/
def State.cancel (s : State) (p : Party) (h : Nat) : State × Status :=
  if ownFixed (slotOwner h) || !s.owns p (slotOwner h) then (s, .notOwner)
  else match (s.slot h).armed with
    | some e => if s.reached e.instant then (s, .fired) else (s.freeSlot h false, .cancelled)
    | none => (s, if (s.slot h).last = .fired then .fired else .empty)

/-- The class and the order within the class of an event in the tie order (Table 1.6). -/
def Event.tie (e : Event) (h : Nat) : Nat × Nat :=
  match e.target with
  | .oneShot ch => (2, ch)
  | .snapshot => (2, 1000)
  | .syncIn => (4, 100000 + h)
  | .launch _ _ port => (4, port)
  | _ => (if e.expiry then 3 else 5, h)

/-- Whether one reached event is processed before another: events of earlier ticks by their instants, those of one tick by the
tie order (R29, R30). -/
def State.fireBefore (s : State) (a b : Nat × Event) : Bool :=
  let ta := s.tickOf a.2.instant
  let tb := s.tickOf b.2.instant
  let (ca, ra) := Event.tie a.2 a.1
  let (cb, rb) := Event.tie b.2 b.1
  decide (ta < tb ∨ (ta = tb ∧ (ca < cb ∨ (ca = cb ∧ ra < rb))))

/-- The reached events of threads, sources and block actions, with their handles. -/
def State.dueEvents (s : State) : List (Nat × Event) :=
  s.timeline.filterMap (fun x =>
    match x.2.armed with
    | some e =>
      match e.target with
      | .thread _ | .source _ | .oneShot _ | .syncIn | .snapshot => if s.reached e.instant then some (x.1, e) else none
      | _ => none
    | none => none)

/-- The first of some events in the order of processing. -/
def State.firstEvent (s : State) : List (Nat × Event) → Option (Nat × Event)
  | [] => none
  | x :: r =>
    match State.firstEvent s r with
    | none => some x
    | some y => if s.fireBefore y x then some y else some x

/-! ### The tick and the Datum second -/

/-- One DCLK tick (R37): due increments and a due step take effect, then the counter and the replica advance by the increment. -/
def State.dclkTick (s : State) : State :=
  let s1 := s.incTake.stepTake
  let i := s1.inc.toNat
  { s1 with
    datum := Datum.ofCount56 (s1.datum.count56 + i)
    replica := Datum.ofCount56 (s1.replica.count56 + i)
    tick := s1.tick + 1 }

end Sys2Proof.Machine
end

