-- ==== Sys2Proof/Machine/TicOps.lean ====
section
/-!
DEFINITION. Machine/TicOps.lean: the temperature sensors and their derating (R401, R402), and the operations of the
time-interval counter bank (04_interval_measurement.md). Channel 16 is channel K.
-/
namespace Sys2Proof.Machine

/-! ### Derating (R401, R402) -/

/-- The readings of the last second with a new one: readings that a later one reaches or exceeds cannot be the highest. -/
def pushReading (h : List (TimeVal × Int)) (at_ : TimeVal) (v : Int) : List (TimeVal × Int) :=
  (h.filter (fun e => decide (v < e.2 ∧ at_.count < e.1.count + secCount))) ++ [(at_, v)]

/-- The highest of some readings. -/
def highest : List (TimeVal × Int) → Option Int
  | [] => none
  | e :: r =>
    match highest r with
    | none => some e.2
    | some m => some (if m < e.2 then e.2 else m)

/-- The derating temperature in whole degrees: the highest reading of the last second, plus 2 °C, rounded up. -/
def deratingT (h : List (TimeVal × Int)) : Int :=
  match highest h with
  | none => 0
  | some m => -((-(m + 20)) / 10)

/-- A derating factor in thousandths, for a coefficient in thousandths per kelvin; none makes the term unbounded (R402). -/
def deratingFactor (h : List (TimeVal × Int)) (a : Nat) : Option Nat :=
  let t := deratingT h
  if t ≤ 125 then some 1000 else if t ≤ 150 then some (1000 + a * (t - 125).toNat) else none

/-- The derating factor of the TIC noise row. -/
def State.clkFactor (s : State) : Option Nat := deratingFactor s.thm.clkHist 20

/-- The derating factor of the noise rows of a SerDes quad. -/
def State.quadFactor (s : State) (q : Nat) : Option Nat :=
  deratingFactor (SMap.get (fun _ => []) s.thm.quadHist q) 20

/-- The latest reading of a SerDes quad, in 0.1 °C. -/
def State.quadTemp (s : State) (q : Nat) : Int := SMap.get (fun _ => 250) s.thm.quad q

/-- Whether any derating factor exceeds 1. -/
def State.derated (s : State) : Bool :=
  decide (125 < deratingT s.thm.clkHist) || s.thm.quadHist.any (fun e => decide (125 < deratingT e.2))

/-! ### Channels -/

/-- A TIC channel. -/
def State.tch (s : State) (n : Nat) : TicChan := SMap.get (fun _ => TicChan.reset) s.tic.ch n

/-- The state with a channel replaced. -/
def State.setTch (s : State) (n : Nat) (c : TicChan) : State :=
  { s with tic := { s.tic with ch := SMap.set id (fun _ => TicChan.reset) s.tic.ch n c } }

/-- The level of TIC_RINGn: PROD - CONS has reached 2^IRQ_LOG2 (R105). -/
def State.ticRingLine (s : State) (n : Nat) : State :=
  let l := s.fd Fld.TIC_CFG.IRQ_LOG2 n
  s.irqLine (64 + n) (decide (l ≤ 14 ∧ 2 ^ l ≤ (s.rg .TIC_PROD n - s.rg .TIC_CONS n).toNat))

/-- An accepted write of the bank (TIC_WSTAT.ACCEPT). -/
def State.ticAccept (s : State) : State := s.setB Fld.TIC_WSTAT.ACCEPT true

/-- A write discarded whole for an out-of-range field (TIC_WSTAT.RANGE). -/
def State.ticRange (s : State) : State := s.setB Fld.TIC_WSTAT.RANGE true

/-- The fault record of a channel (Table 11.3). -/
def ticRecord (n : Nat) : Nat := 226 + n

/-- Whether a calibration of the channel is pending or running. -/
def TicChan.calBusy (c : TicChan) : Bool := c.req.isSome || c.run.isSome

/-- A calibration request (R101): while one is pending or running it changes nothing. -/
def State.calRequest (s : State) (n : Nat) (byOwner : Bool) : State :=
  let c := s.tch n
  if c.calBusy then s else s.setTch n { c with req := some ⟨s.now, byOwner⟩ }

/-! ### Reference streams (R92, R109) -/

/-- P_r in counts of 2^-32 ns: 2^PRESC / F_r, at most one second (R109). -/
def State.refPeriod (s : State) (r : Nat) : Nat :=
  let f := (s.rg .ENS_REF_FREQ r).toNat
  if f = 0 then secCount else Nat.min secCount (2 ^ s.fd Fld.TIC_IN.PRESC r * secCount / f)

/-- The stream instant of a mark: s_k = m_k + ofs_r - P_r / 2, as a signed count (R109). -/
def State.streamInstant (s : State) (r : Nat) (mark : TimeVal) : Int :=
  (mark.count : Int) + s.srg .ENS_REF_OFS r * 2 ^ 24 - (s.refPeriod r / 2 : Nat)

/-- The mark after a mark: PERIOD milliseconds later within the Datum second, otherwise the next Datum second. -/
def State.nextMark (s : State) (r : Nat) (mark : TimeVal) : TimeVal :=
  let p := s.fd Fld.ENS_REF_CFG.PERIOD r * 1000000
  if mark.ns.toNat + p < 1000000000 ∧ 0 < p then ⟨mark.sec, BitVec.ofNat 32 (mark.ns.toNat + p), 0⟩
  else TimeVal.ofSec (mark.sec.toNat + 1)

/-- A reference entry of the assist. -/
def State.ent (s : State) (r : Nat) : EnsEntry := SMap.get (fun _ => EnsEntry.reset) s.ens.ent r

/-- The state with an entry replaced. -/
def State.setEnt (s : State) (r : Nat) (e : EnsEntry) : State :=
  { s with ens := { s.ens with ent := SMap.set id (fun _ => EnsEntry.reset) s.ens.ent r e } }

/-- The stream of a channel, when one runs: its next mark (R92). -/
def State.streamMark (s : State) (n : Nat) : Option TimeVal :=
  if n < 8 && s.fb Fld.ENS_REF_CFG.EN n && s.fb Fld.TIC_IN.EN n then (s.ent n).mark else none

/-! ### Interpolation (R95, R96, R106) -/

/-- The position of an edge: twice its place in the tick in fs, and its terms: quantisation, calibration statistics and
temperature, each in 10^-3 fs. -/
structure EdgePos where
  twice : Nat
  quant : Nat
  stat  : Nat
  temp  : Nat
  uncal : Bool
  deriving DecidableEq, Repr

/-- The position of code `k` in a channel's table; with no table, or for a code outside its active span, the middle of the
tick (R96, R100). -/
def edgePos (tab : Option CalTable) (k : Nat) (tempNow : Int) : EdgePos :=
  let mid : EdgePos := ⟨800000, 400000000, 0, 0, true⟩
  match tab with
  | none => mid
  | some t =>
    if k < t.lo ∨ t.lo + t.widths.length ≤ k then mid
    else
      let w := t.widths.getD (k - t.lo) 0
      let c := 2 * (t.widths.take (k - t.lo)).sum + w
      let x := ceilDiv (2250000 * c * (1600000 - c)) (2 ^ t.log2n)
      ⟨c, w * 500, Nat.sqrt x + (if Nat.sqrt x * Nat.sqrt x = x then 0 else 1), 2500 * (tempNow - t.temp).natAbs, false⟩

/-- The timestamp of an edge in the present tick (R95), rounded to the nearest 2^-32 ns. -/
def State.edgeTime (s : State) (n : Nat) (p : EdgePos) : TimeVal :=
  let own : Int := if n < 16 then s.srg .TIC_DELAY n else 0
  let num : Int := (p.twice * s.inc.toNat * 5 : Nat) - (Config.ticDelay n + own) * 2 ^ 59
  let den : Int := 8000000 * 2 ^ 24
  TimeVal.ofCount ((s.now.count : Int) + (2 * num + den) / (2 * den)).toNat

/-- The bound of an edge in units of 2^-8 ns, equal on both sides (R106, Table 4.5; R402). -/
def State.edgeBound (s : State) (n : Nat) (p : EdgePos) : BitVec 32 :=
  match s.clkFactor with
  | none => 0xFFFFFFFF#32
  | some f =>
    let own := if n < 16 then (s.rg .TIC_DELAY_U n).toNat else 0
    let sum := p.quant + p.stat + p.temp + 6000 * f + (3000 + own) * 1000
    BitVec.ofNat 32 (Nat.min 0xFFFFFFFF (ceilDiv (sum * 256) (10 ^ 9)))

/-- The FLAGS word of a record (Table 4.4). -/
def State.ticFlags (s : State) (n : Nat) (oneShot : Bool) (status : Nat) (uncal skipped discont : Bool) : Nat :=
  (if n < 16 then n else 0) + bit01 oneShot * 16 + status * 32 + bit01 uncal * 256
    + bit01 (decide (n < 16) && s.fb Fld.TIC_STAT.STALE n) * 512 + bit01 skipped * 1024
    + bit01 s.derated * 2048 + bit01 discont * 4096 + bit01 (decide (n = 16)) * 8192

/-- The 32 octets of a record (Table 4.4). -/
def ticRecordBytes (t : TimeVal) (b : BitVec 32) (seq : BitVec 32) (flags tag : Nat) : List Byte :=
  leBytes 8 t.sec.toNat ++ leBytes 8 (t.ns.toNat * 2 ^ 32 + t.frac.toNat) ++ leBytes 4 b.toNat ++ leBytes 4 b.toNat
    ++ leBytes 4 seq.toNat ++ leBytes 2 flags ++ leBytes 1 tag ++ leBytes 1 0

/-- A record lost to its ring, counted (R105). -/
def State.ticDrop (s : State) (n : Nat) : State := s.bump .TIC_DROP n

/-- A user record to the channel's ring (R90, R105). -/
def State.ticDeliver (s : State) (n : Nat) (bytes : List Byte) : State :=
  let sz := s.fd Fld.TIC_RING_SZ.LOG2SZ n
  let used := (s.rg .TIC_PROD n - s.rg .TIC_CONS n).toNat
  if s.fb Fld.TIC_STAT.OVERFREQ n || !s.coreUp || !s.d2dUp || sz = 0 then s.ticDrop n
  else if 2 ^ sz ≤ used then (s.ticDrop n).setB Fld.TIC_STAT.RING_FULL true n
  else
    let s1 := s.storeMem ((s.tch n).base + (s.rg .TIC_PROD n).toNat % 2 ^ sz * 32) bytes
    (s1.bump .TIC_PROD n).ticRingLine n

/-! ### One-shots (R94) -/

/-- A one-shot opens, or is refused (R94); `policy` fields are those of TIC_OSn. -/
def State.osOpen (s : State) (n : Nat) (at_ : TimeVal) : State :=
  let c := s.tch n
  if c.os.isSome || !s.fb Fld.TIC_IN.EN n then s.setB Fld.TIC_WSTAT.OS_REFUSED true
  else
    let close := at_.plus (s.fd Fld.TIC_OS.WINDOW n * usCount)
    let s1 := s.setTch n { c with os := some ⟨s.fd Fld.TIC_OS.TAG n, at_, close, false⟩ }
    (s1.setB Fld.TIC_STAT.OS_PEND true n).engineArm (hTic n) close

/-- A one-shot completes with a status: its slot is freed, TIC_OSDONEn is raised with the status. -/
def State.osDone (s : State) (n status : Nat) : State :=
  let s1 := s.setTch n { (s.tch n) with os := none }
  (((s1.setB Fld.TIC_STAT.OS_PEND false n).engineFree (hTic n) true)).irqPulse (80 + n) status

/-- The window expires (Table 4.2): PREEMPTED, CALIBRATING or NO_EDGE, with the deadline instant and an unbounded bound. -/
def State.osClose (s : State) (n : Nat) : State :=
  let c := s.tch n
  match c.os with
  | none => s
  | some o =>
    if !s.reached o.closeAt then s else
    let status := if o.arrived then 1 else if c.run.isSome then 3 else 2
    let flags := s.ticFlags n true status false c.skipped c.discont
    let s1 := s.setTch n { c with skipped := false, discont := false }
    (s1.ticDeliver n (ticRecordBytes o.closeAt 0xFFFFFFFF#32 c.seq flags o.tag)).osDone n status

/-! ### Samples of a reference stream -/

/-- A sample handed to an entry. -/
def State.addSample (s : State) (r : Nat) (x : EnsSample) : State :=
  let e := s.ent r
  s.setEnt r { e with samples := e.samples ++ [x] }

/-- The multiple of a period nearest to a value, added to a raw phase: the unwrapped phase nearest the previous one (R109). -/
def unwrap (raw prev period : Int) : Int :=
  if period = 0 then raw else raw + (prev - raw + period / 2) / period * period

/-- A stream edge's sample (R109): its raw phase, unwrapped for a FREQUENCY entry, with its DISCONT mark. The stream then
waits for its next mark. -/
def State.streamSample (s : State) (r : Nat) (mark t : TimeVal) (b : BitVec 32) (discont : Bool) : State :=
  let e := s.ent r
  let raw : Int := ((t.count : Int) - mark.count - s.srg .ENS_REF_OFS r * 2 ^ 24) / 2 ^ 16
  let per : Int := (s.refPeriod r / 2 ^ 16 : Nat)
  let freq := s.fb Fld.ENS_REF_CFG.KIND r
  let x := match e.prev with
    | some p => if freq then unwrap raw p per else raw
    | none => raw
  let jump := match e.prev with
    | some p => freq && decide (per ≤ 4 * ((x - p).natAbs : Int))
    | none => false
  let smp : EnsSample := ⟨mark.sec.toNat, x, b, b, discont || jump, []⟩
  s.setEnt r { e with prev := some x, samples := e.samples ++ [smp], mark := some (s.nextMark r mark) }

/-- A missing sample for a mark (R92): the stream waits for the next one. -/
def State.streamMissing (s : State) (r : Nat) : State :=
  let e := s.ent r
  match e.mark with
  | some m =>
    let m' := s.nextMark r m
    if s.streamInstant r m' * 2 ^ 24 < s.tickEnd56 then s.setEnt r { e with mark := some m' } else s
  | none => s

/-! ### An edge (R91 to R96) -/

/-- The interval of R91 in DCLK ticks: 100 ns. -/
def convTicks : Nat := 125

/-- y_k at the present second, in 10^-12 (R102). -/
def State.keeperY (s : State) : Int :=
  s.srg .TIC_KX_OFS + s.srg .TIC_KX_AGE * ((s.now.sec.toNat : Int) - s.tic.kxOfsAt) / 86400 + Config.keeperTc s.thm.clk

/-- |φ_K| of a coast at a channel K record, in 2^-16 ns (R140): the change of the Datum's phase against the keeper time base since
the coast's first record, less the change that ENS_HOLD_PRED predicts. A coast begins its count at its first record. -/
def State.coastPhase (s : State) (c : Coast) (t : TimeVal) (seq : BitVec 32) : Coast :=
  match c.k0 with
  | none => { c with k0 := some (t, seq) }
  | some (t0, s0) =>
    let ms : Int := ((seq - s0).toNat : Nat)
    let keeper : Int := ms * 1000000 * 65536 - ms * s.keeperY * 65536 / 10 ^ 6
    let datum : Int := ((t.count : Int) - t0.count) / 2 ^ 16
    let pred : Int := ms * s.srg .ENS_HOLD_PRED * 65536 / 10 ^ 9
    { c with phiK := (datum - keeper - pred).natAbs }

/-- A channel K record (R102, R103): the first and latest records of the present second, and their number; it carries the keeper
bridge of a running coast (R140). -/
def State.keeperEdge (s : State) (k : Nat) : State :=
  let c := s.tch 16
  let p := edgePos c.table k s.thm.clk
  let t := s.edgeTime 16 p
  let s0 := s.setTch 16 { c with seq := c.seq + 1#32 }
  let s1 : State := match s0.trv.coast with
    | some k => if k.running then { s0 with trv := { s0.trv with coast := some (s0.coastPhase k t (c.seq + 1#32)) } } else s0
    | none => s0
  let first := match s.tic.kFirst with
    | some f => some f
    | none => some t
  { s1 with tic := { s1.tic with kFirst := first, kLast := some t, kCount := s.tic.kCount + 1 } }

/-- An edge that the channel could have taken but does not: counted, and marked on the next record (R91 to R93). -/
def State.edgeSkip (s : State) (n : Nat) : State :=
  let c := s.tch n
  let s1 := s.setTch n { c with skipped := true, os := c.os.map (fun o => { o with arrived := true }) }
  s1.bump .TIC_SKIP n

/-- A prescaled edge with code `k` in the present tick on user channel `n` (R91 to R96). -/
def State.userEdge (s : State) (n k : Nat) : State :=
  if !s.fb Fld.TIC_IN.EN n then s else
  let c0 := s.tch n
  let s := s.setTch n { c0 with seq := c0.seq + 1#32, edges := c0.edges + 1 }
  let c := s.tch n
  let p := edgePos c.table k s.thm.clk
  let t := s.edgeTime n p
  let b := s.edgeBound n p
  let tooFast := s.fb Fld.TIC_STAT.OVERFREQ n
  let osOpen := match c.os with
    | some o => decide (s.datum.count56 ≤ o.closeAt.count * 2 ^ 24)
    | none => false
  let selected := decide (s.fd Fld.TIC_CFG.MODE n = 1) || osOpen
  let busy := match c.lastConv with
    | some l => decide (s.tick < l + convTicks)
    | none => false
  let flags := fun (one : Bool) => s.ticFlags n one 0 p.uncal c.skipped c.discont
  let conv : State := s.setTch n { c with lastConv := some s.tick, skipped := false, discont := false }
  let user : State :=
    if !selected then s
    else if c.run.isSome then
      (if s.fd Fld.TIC_CFG.MODE n = 1 then s.bump .TIC_SKIP n else s)
    else if busy then s.edgeSkip n
    else
      let tag := match c.os with
        | some o => if osOpen then o.tag else 0
        | none => 0
      let s1 := conv.ticDeliver n (ticRecordBytes t b c.seq (flags osOpen) tag)
      if osOpen then s1.osDone n 0 else s1
  match s.streamMark n with
  | none => user
  | some m =>
    let si := s.streamInstant n m
    if si ≤ t.count then
      -- the stream edge of the mark: always converted, and no user edge
      let s1 := conv.setTch n { (conv.tch n) with os := c.os.map (fun o => { o with arrived := o.arrived || osOpen }) }
      let s2 := if tooFast then s1.ticDrop n else s1
      if tooFast then s2.setEnt n { (s2.ent n) with mark := some (s2.nextMark n m) }
      else s2.streamSample n m t b c.discont
    else if si ≤ (t.count : Int) + 100 * 2 ^ 32 then (if selected then s.edgeSkip n else s)
    else user

/-! ### Calibration (R97 to R101) -/

/-- The length of a collection of 2^n hits at 10 M hits/s, in counts of 2^-32 ns. -/
def calLength (log2n : Nat) : Nat := 2 ^ log2n * 100 * 2 ^ 32

/-- Whether a channel has a gap in its stream that holds the calibration (R97, condition 1). -/
def State.calGap (s : State) (n : Nat) : Bool :=
  match s.streamMark n with
  | none => true
  | some m =>
    let need := calLength (s.fd Fld.TIC_CAL_HITS.LOG2N) + 1000 * usCount
    let si := s.streamInstant n m
    let next := if si < s.now.count then s.streamInstant n (s.nextMark n m) else si
    decide (((s.now.count + need : Nat) : Int) ≤ next)

/-- Whether a pending calibration may start now (R97). -/
def State.calMayStart (s : State) (n : Nat) : Bool :=
  let c := s.tch n
  match c.req with
  | none => false
  | some r =>
    let waits := decide (n < 16) && !r.byOwner && !s.fb Fld.TIC_CFG.CAL_YIELD n
      && (decide (s.fd Fld.TIC_CFG.MODE n = 1) || c.os.isSome)
    s.calGap n && !waits

/-- CALIBRATING of a channel. -/
def State.calMark (s : State) (n : Nat) (b : Bool) : State := if n < 16 then s.setB Fld.TIC_STAT.CALIBRATING b n else s

/-- A calibration starts. -/
def State.calStart (s : State) (n : Nat) : State :=
  let c := s.tch n
  let run : CalRun := ⟨s.now, s.fd Fld.TIC_CAL_HITS.LOG2N, s.thm.clk, s.thm.clk, false⟩
  (s.setTch n { c with req := none, run := some run }).calMark n true

/-- The largest of some numbers. -/
def maxOf (l : List Nat) : Nat := l.foldl Nat.max 0

/-- A residue added to the first of the widest bins. -/
def addToWidest (m : Nat) (d : Int) : List Nat → List Nat
  | [] => []
  | w :: r => if w = m then ((w : Int) + d).toNat :: r else w :: addToWidest m d r

/-- The widths of an active span (R96, R97): each rounded to the nearest fs, the residue to the widest, to sum 800 000 fs. -/
def calWidths (hits : List Nat) (n : Nat) : List Nat :=
  let ws := hits.map (fun h => if n = 0 then 0 else (2 * h * 800000 + n) / (2 * n))
  addToWidest (maxOf ws) (800000 - (ws.sum : Int)) ws

/-- The active span of a histogram: its lowest code with a hit, and the counts from there to its highest. -/
def activeSpan (hits : List Nat) : Nat × List Nat :=
  let lead := hits.takeWhile (fun h => decide (h = 0))
  let body := (hits.dropWhile (fun h => decide (h = 0))).reverse.dropWhile (fun h => decide (h = 0))
  (lead.length, body.reverse)

/-- Twice each bin's centre, by code. -/
def centres (lo : Nat) (ws : List Nat) : List (Nat × Nat) :=
  (List.range ws.length).map (fun i => (lo + i, 2 * (ws.take i).sum + ws.getD i 0))

/-- Whether any centre moved by more than 2 000 fs against the previous accepted table (R99). -/
def calDrift (old : Option CalTable) (lo : Nat) (ws : List Nat) : Bool :=
  match old with
  | none => false
  | some t =>
    let was := centres t.lo t.widths
    (centres lo ws).any (fun c => was.any (fun d => decide (d.1 = c.1 ∧ (4000 < c.2 - d.2 ∨ 4000 < d.2 - c.2))))

/-- The first failing test of Table 4.3 as its RESULT, or 1 for acceptance. -/
def calResult (run : CalRun) (issued : Nat) (hits : List Nat) : Nat :=
  let n := 2 ^ run.log2n
  let span := (activeSpan hits).2
  if hits.sum ≠ issued ∨ issued ≠ n then 2
  else if span.length < 640 ∨ 960 < span.length then 3
  else if span.any (fun h => decide (h = 0)) then 4
  else if 3000 * n < 800000 * maxOf span then 5
  else if 10 < run.tmax - run.tmin then 6
  else if run.disturbed then 7
  else 1

/-- The width registers of a user channel or channel K written from a table; a GNSS time channel has none. -/
def State.showTable (s : State) (n : Nat) (t : CalTable) : State :=
  if 17 ≤ n then s else
  let w := fun (k : Nat) => if k < t.lo then 0 else t.widths.getD (k - t.lo) 0
  (List.range 512).foldl (fun s j => s.wr .TIC_BIN (n * 512 + j) (BitVec.ofNat 32 (w (2 * j + 1) % 65536 * 65536 + w (2 * j) % 65536))) s

/-- A collection ends (R98 to R100). -/
def State.calComplete (s : State) (n issued : Nat) (hits : List Nat) : State :=
  let c := s.tch n
  match c.run with
  | none => s
  | some run =>
    if !s.reached (run.from_.plus (calLength run.log2n)) then s else
    let res := calResult run issued hits
    let span := activeSpan hits
    let ws := calWidths span.2 (2 ^ run.log2n)
    let show_ : State → State := fun s =>
      if n < 16 then
        let s1 := (s.setF Fld.TIC_CALSTAT.RESULT res n).setF Fld.TIC_CALSTAT.ACTIVE (span.2.length % 2048) n
        s1.setF Fld.TIC_CALSTAT.MAXW (Nat.min 0xFFFF (ceilDiv (800000 * maxOf span.2) (2 ^ run.log2n))) n
      else s
    let s1 := show_ ((s.setTch n { c with run := none }).calMark n false)
    if res = 1 then
      let t : CalTable := ⟨span.1, ws, run.log2n, s.thm.clk, s.now⟩
      let drift := calDrift c.table span.1 ws
      let s2 : State := (s1.setTch n { (s1.tch n) with table := some t }).showTable n t
      let s3 : State := { s2 with cairn := { s2.cairn with tic := SMap.insert id s2.cairn.tic n t } }
      let s4 := if n < 16 then ((s3.setB Fld.TIC_STAT.STALE false n).setB Fld.TIC_STAT.UNCAL false n).setB
        Fld.TIC_CALSTAT.DRIFT drift n else s3
      if drift then s4.raise { rec_ := ticRecord n, cause := 4, cls := 0 } else s4
    else
      let s2 := if n < 16 then s1.setB Fld.TIC_STAT.STALE true n else s1
      s2.raise { rec_ := ticRecord n, cause := 3, cls := 1 }

/-- A request that found no gap within 10 s (R97). -/
def State.calRefuse (s : State) (n : Nat) : State :=
  let c := s.tch n
  match c.req with
  | none => s
  | some r =>
    if (s.streamMark n).isSome ∧ s.reached (r.at_.plus (10 * secCount)) then
      let s1 := (s.setTch n { c with req := none }).setB Fld.TIC_WSTAT.CAL_REFUSED true
      let s2 := if n < 16 then s1.setF Fld.TIC_CALSTAT.RESULT 8 n else s1
      s2.raise { rec_ := ticRecord n, cause := 31, cls := 0 }
    else s

/-- Whether the engine schedules a calibration of a channel now (R101). -/
def State.calDue (s : State) (n : Nat) : Bool :=
  let c := s.tch n
  !c.started || (match c.table with
  | none => false
  | some t =>
    decide ((t.at_.count + s.fd Fld.TIC_RECAL.PERIOD * secCount) * 2 ^ 24 < s.tickEnd56)
      || decide (s.fd Fld.TIC_RECAL.DT ≤ (s.thm.clk - t.temp).natAbs))

/-! ### The keeper check (R102, R103) -/

/-- TIC_KX_DEV for the past second: the keeper's frequency against the Datum from channel K's records, less y_k; 0x8000_0000
when fewer than two records measured it (DESIGN CHOICE). -/
def State.keeperDev (s : State) : BitVec 32 :=
  match s.tic.kFirst, s.tic.kLast with
  | some a, some b =>
    let d := a.dist b
    if s.tic.kCount < 2 ∨ d = 0 then 0x80000000#32
    else
      let nom : Int := ((s.tic.kCount - 1) * 1000 * usCount : Nat)
      BitVec.ofInt 32 ((nom - d) * 10 ^ 12 / d - s.keeperY)
  | _, _ => 0x80000000#32

/-! ### Register writes of the bank -/

/-- A commit of a ring (R105, the TIC_RING_SZn description): the ring must lie in the installed memory. -/
def State.ringCommit (s : State) (n : Nat) (v : BitVec 32) : State :=
  let sz := v.toNat % 16
  let base := (s.rg .TIC_RING_HI n).toNat * 2 ^ 32 + (s.rg .TIC_RING_LO n).toNat
  let back := fun (s : State) =>
    (s.wr .TIC_RING_LO n (BitVec.ofNat 32 ((s.tch n).base % 2 ^ 32))).wr .TIC_RING_HI n (BitVec.ofNat 32 ((s.tch n).base / 2 ^ 32))
  if (1 ≤ sz ∧ sz ≤ 3) ∨ (sz ≠ 0 ∧ !s.inDdr base (32 * 2 ^ sz)) then back s.ticRange
  else
    let s1 := ((s.setTch n { (s.tch n) with base := base }).wr .TIC_RING_SZ n (BitVec.ofNat 32 sz)).wr .TIC_PROD n 0
    (((s1.wr .TIC_CONS n 0).setB Fld.TIC_STAT.RING_FULL false n).ticRingLine n).ticAccept

/-- A write of TIC_CONSn: a value that puts PROD - CONS outside the ring is discarded. -/
def State.ticCons (s : State) (n : Nat) (v : BitVec 32) : State :=
  let used := (s.rg .TIC_PROD n - v).toNat
  let sz := s.fd Fld.TIC_RING_SZ.LOG2SZ n
  if (if sz = 0 then 0 else 2 ^ sz) < used then s.ticRange
  else (((s.wr .TIC_CONS n v).setB Fld.TIC_STAT.RING_FULL (decide (sz ≠ 0 ∧ used = 2 ^ sz)) n).ticRingLine n).ticAccept

/-- A write of TIC_INn (R89, R90). -/
def State.ticIn (s : State) (n : Nat) (v : BitVec 32) : State :=
  if 12 < Fld.TIC_IN.PRESC.of v then s.ticRange
  else
    let old := s.rg .TIC_IN n
    let s1 := (s.wrRw .TIC_IN n v).ticAccept
    if s1.rg .TIC_IN n = old then s1
    else
      let c := s1.tch n
      let up := s1.fb Fld.TIC_IN.EN n && !Fld.TIC_IN.EN.of old = 1
      s1.setTch n { c with discont := true, seq := if up then 0 else c.seq }

/-- A write of TIC_CFGn (R93, R101). -/
def State.ticCfg (s : State) (n : Nat) (v : BitVec 32) : State :=
  if 1 < Fld.TIC_CFG.MODE.of v then s.ticRange
  else
    let s1 := ((s.wrRw .TIC_CFG n v).ticRingLine n).ticAccept
    if bitAt v.toNat 31 then s1.calRequest n true else s1

/-- A write of TIC_OSn (R94). -/
def State.ticOs (s : State) (n : Nat) (v : BitVec 32) : State :=
  let w := Fld.TIC_OS.WINDOW.of v
  if w = 0 ∨ 1000000 < w then s.ticRange
  else if bitAt v.toNat 31 then
    if (s.tch n).os.isSome || !s.fb Fld.TIC_IN.EN n then s.setB Fld.TIC_WSTAT.OS_REFUSED true
    else ((s.wrRw .TIC_OS n v).ticAccept).osOpen n s.now
  else (s.wrRw .TIC_OS n v).ticAccept

/-- A plain write of a register of the bank, accepted when a range holds. -/
def State.ticPlain (s : State) (r : Reg) (n : Nat) (v : BitVec 32) (ok : Bool) : State :=
  if ok then (s.wrRw r n v).ticAccept else s.ticRange

/-- A register write of the bank as it takes effect on the clock die. -/
def State.ticWrite (s : State) (r : Reg) (n : Nat) (v : BitVec 32) : State :=
  if r = .TIC_WSTAT then s.w1c r n v
  else if r = .TIC_CAL_HITS then
    s.ticPlain r n v (decide (22 ≤ Fld.TIC_CAL_HITS.LOG2N.of v ∧ Fld.TIC_CAL_HITS.LOG2N.of v ≤ 26))
  else if r = .TIC_RECAL then
    s.ticPlain r n v (decide (60 ≤ Fld.TIC_RECAL.PERIOD.of v ∧ 5 ≤ Fld.TIC_RECAL.DT.of v ∧ Fld.TIC_RECAL.DT.of v ≤ 200))
  else if r = .TIC_KX_OFS then
    let s1 := s.ticPlain r n v true
    { s1 with tic := { s1.tic with kxOfsAt := s.now.sec.toNat + 1 } }
  else if r = .TIC_KX_AGE ∨ r = .TIC_KX_ALARM ∨ r = .TIC_DELAY ∨ r = .TIC_DELAY_U then s.ticPlain r n v true
  else if r = .TIC_IN then s.ticIn n v
  else if r = .TIC_CFG then s.ticCfg n v
  else if r = .TIC_OS then s.ticOs n v
  else if r = .TIC_RING_LO then (s.wr r n (v &&& 0xFFFFFFE0#32)).ticAccept
  else if r = .TIC_RING_HI then (s.wr r n v).ticAccept
  else if r = .TIC_RING_SZ then s.ringCommit n v
  else if r = .TIC_CONS then s.ticCons n v
  else s

end Sys2Proof.Machine
end

