-- ==== Sys2Proof/Machine/EnsOps.lean ====
section
/-!
DEFINITION. Machine/EnsOps.lean: the ensemble assist (05_ensemble_holdover.md) and the Traverse engine's processed second
(06_traverse_bounds.md): samples, qualification, Triangulation, the ensemble phase, learning and holdover, the acceptance
term, the clock class. Phases are signed counts of 2^-16 ns, bounds words of 2^-8 ns.
-/
namespace Sys2Proof.Machine

/-! ### Bounds and intervals -/

/-- A saturating sum of two bound fields (R5). -/
def satAdd (a b : BitVec 32) : BitVec 32 :=
  if a = 0xFFFFFFFF#32 ∨ b = 0xFFFFFFFF#32 ∨ 0xFFFFFFFF ≤ a.toNat + b.toNat then 0xFFFFFFFF#32 else a + b

/-- A number of 2^-8 ns as a bound field (R5). -/
def satWord (n : Nat) : BitVec 32 := if 0xFFFFFFFF ≤ n then 0xFFFFFFFF#32 else BitVec.ofNat 32 n

/-- An interval on the TAI scale relative to the Datum reading; a missing end is unbounded (R114). -/
structure Interval where
  lo : Option Int
  hi : Option Int
  deriving DecidableEq, Repr

/-- Whether a lower end lies at or below an upper end. -/
def endLe (lo hi : Option Int) : Bool :=
  match lo, hi with
  | some a, some b => decide (a ≤ b)
  | _, _ => true

/-- Whether two intervals intersect (R114). -/
def Interval.meets (a b : Interval) : Bool := endLe a.lo b.hi && endLe b.lo a.hi

/-- The reference interval of a phase with a bound (R114). -/
def refInterval (x : Int) (e l : BitVec 32) : Interval :=
  ⟨if e = 0xFFFFFFFF#32 then none else some (-x - e.toNat * 256), if l = 0xFFFFFFFF#32 then none else some (-x + l.toNat * 256)⟩

/-- The interval of two sides about the Datum reading. -/
def sideInterval (s : Side × Side) : Interval := ⟨s.1.map (fun e => -(e : Int)), s.2.map (fun l => (l : Int))⟩

/-! ### States of entries -/

/-- The state of an entry (Table 5.2). -/
def State.refState (s : State) (r : Nat) : Nat := s.fd Fld.ENS_REF_STATE.STATE r

/-- Whether an entry is a TIME reference. -/
def State.refTime (s : State) (r : Nat) : Bool := !s.fb Fld.ENS_REF_CFG.KIND r

/-- Whether an entry is a GNSS or network entry, which Triangulation tests (R118). -/
def triEntry (r : Nat) : Bool := decide ((8 ≤ r ∧ r ≤ 11) ∨ 16 ≤ r)

/-- The acceptance mark of an entry cleared (R139). -/
def State.unmark (s : State) (r : Nat) : State := { s with trv := { s.trv with accepted := SMap.erase s.trv.accepted r } }

/-- A state change (Table 5.3): the state, its cause and its second, ENS_STATE (source 101), the TRANSITION record. Leaving
QUALIFIED clears an acceptance mark (R139); becoming QUALIFIED ends PRE_SOURCE (R141); a new QUALIFYING starts its window. -/
def State.ensTrans (s : State) (r st cause n : Nat) : State :=
  let e := s.ent r
  let s1 := (((s.setF Fld.ENS_REF_STATE.STATE st r).setF Fld.ENS_REF_STATE.CAUSE cause r).wr .ENS_REF_LAST_AT r
    (BitVec.ofNat 32 n)).irqPulse 101 r
  let s2 := s1.journal 0x02 r (st * 2 ^ 28 + cause * 2 ^ 24) (TimeVal.ofSec n) (match e.last with
    | some p => p.x
    | none => 0) (s1.rg .ENS_REF_PHASE_EARLY r) (s1.rg .ENS_REF_PHASE_LATE r) e.image
  let s3 := if st = 3 then s2.setB Fld.TRV_STAT.PRE_SOURCE false else s2.unmark r
  let e1 : EnsEntry := if st = 2 then { e with winFrom := n, winMiss := 0, winFit := ⟨0, 0, 0, 0, 0⟩ } else e
  let e2 : EnsEntry := if st = 4 then { e1 with suspRun := 0 } else e1
  let e3 : EnsEntry := if st ≤ 1 then { e2 with winDone := false, triRun := 0, diffs := [], align := none } else e2
  s3.setEnt r e3

/-- A window restarted in QUALIFYING (Table 5.3): the cause is recorded and counted in RESTARTS. -/
def State.ensRestart (s : State) (r cause n : Nat) : State :=
  let s1 := s.setF Fld.ENS_REF_STATE.RESTARTS (Nat.min 0xFFFF (s.fd Fld.ENS_REF_STATE.RESTARTS r + 1)) r
  s1.ensTrans r 2 cause n

/-! ### The phase of a second (R110, R411) -/

/-- What an entry delivers for a second: its phase and bound from its bounded samples, and whether one was DISCONT. -/
structure SecondPhase where
  x       : Int
  early   : BitVec 32
  late    : BitVec 32
  discont : Bool
  image   : List Byte
  deriving DecidableEq, Repr

/-- The larger of two bound fields. -/
def maxWord (a b : BitVec 32) : BitVec 32 := if a.toNat ≤ b.toNat then b else a

/-- The samples of a second whose bound is bounded on both sides. -/
def boundedOf (l : List EnsSample) (n : Nat) : List EnsSample :=
  l.filter (fun x => decide (x.sec = n ∧ x.early ≠ 0xFFFFFFFF#32 ∧ x.late ≠ 0xFFFFFFFF#32))

/-- The phase and bound of an entry in a second (R110): a REFIN entry's mean and largest record bound, with ACC added to a TIME
entry's (Table 6.1); the latest measurement of every other entry. -/
def State.secondPhase (s : State) (r n : Nat) : Option SecondPhase :=
  let l := boundedOf (s.ent r).samples n
  match l.getLast? with
  | none => none
  | some z =>
    let disc := (s.ent r).samples.any (fun x => decide (x.sec = n) && x.discont)
    if r < 8 then
      let sum := l.foldl (fun a x => a + x.x) 0
      let e := l.foldl (fun a x => maxWord a x.early) 0
      let acc := if s.refTime r then s.rg .ENS_REF_ACC r else 0
      some ⟨sum / l.length, satAdd e acc, satAdd e acc, disc, []⟩
    else some ⟨z.x, z.early, z.late, disc, z.image⟩

/-- The aligned phase of an entry (R120). -/
def State.alignedX (s : State) (r : Nat) (x : Int) : Int :=
  match s.refTime r, (s.ent r).align with
  | false, some a => x - a.xr + a.xe
  | _, _ => x

/-- The aligned bound of an entry in second `n` (R120). -/
def State.alignedB (s : State) (r n : Nat) (p : SecondPhase) : BitVec 32 × BitVec 32 :=
  match s.refTime r, (s.ent r).align with
  | false, some a =>
    let d := n - a.q
    let g := satWord (ceilDiv (256 * ((s.rg .ENS_REF_YACC r).toNat * d * 172800 + (s.rg .ENS_REF_YAGE r).toNat * d * d))
      (10 ^ 6 * 172800))
    (satAdd (satAdd a.early p.early) g, satAdd (satAdd a.late p.late) g)
  | _, _ => (p.early, p.late)

/-- Phases of one second, by entry. -/
abbrev Phases := SMap Nat SecondPhase

/-- The phases of every enabled entry in a second. -/
def State.phases (s : State) (n : Nat) : Phases :=
  (List.range 32).filterMap (fun r => if s.refState r = 0 then none else (s.secondPhase r n).map (fun p => (r, p)))

/-! ### Weighted combinations (R118 to R120) -/

/-- The written weights of some entries; equal weights when all are zero (R119). -/
def State.weights (s : State) (rs : List Nat) : List (Nat × Nat) :=
  let ws := rs.map (fun r => (r, s.fd Fld.ENS_REF_WEIGHT.WEIGHT r))
  if ws.all (fun w => decide (w.2 = 0)) then rs.map (fun r => (r, 1)) else ws

/-- A weighted mean of bound fields, rounded upward (R120, R6); an entry of weight zero takes no part. -/
def meanBound (ws : List (Nat × Nat)) (b : Nat → BitVec 32) : BitVec 32 :=
  let tot := (ws.map (fun w => w.2)).sum
  if ws.any (fun w => decide (w.2 ≠ 0 ∧ b w.1 = 0xFFFFFFFF#32)) then 0xFFFFFFFF#32
  else satWord (ceilDiv ((ws.map (fun w => w.2 * (b w.1).toNat)).sum) tot)

/-- A weighted mean of phases. -/
def meanPhase (ws : List (Nat × Nat)) (x : Nat → Int) : Int :=
  let tot := (ws.map (fun w => w.2)).sum
  if tot = 0 then 0 else (ws.foldl (fun a w => a + (w.2 : Int) * x w.1) 0) / (tot : Int)

/-- The phase and bound of a weighted set of entries in second `n`; none for an empty set. -/
def State.combine (s : State) (n : Nat) (ps : Phases) (rs : List Nat) : Option SecondPhase :=
  if rs = [] then none else
  let ws := s.weights rs
  let ph := fun r => SMap.get (fun _ => (⟨0, 0, 0, false, []⟩ : SecondPhase)) ps r
  some ⟨meanPhase ws (fun r => s.alignedX r (ph r).x), meanBound ws (fun r => (s.alignedB r n (ph r)).1),
    meanBound ws (fun r => (s.alignedB r n (ph r)).2), false, []⟩

/-- The QUALIFIED entries with a sample in the second, below an entry number. -/
def State.sampled (s : State) (ps : Phases) (below : Nat) : List Nat :=
  (ps.map (fun e => e.1)).filter (fun r => decide (r < below ∧ s.refState r = 3))

/-- The anchor of a second (R118): the QUALIFIED REFIN entries with a sample, or the Datum itself. -/
def State.anchor (s : State) (n : Nat) (ps : Phases) : Int × Interval :=
  match s.combine n ps (s.sampled ps 8) with
  | some p => (p.x, refInterval p.x p.early p.late)
  | none => (0, sideInterval (s.datumSides (TimeVal.ofSec n)))

/-! ### Triangulation (R118) -/

/-- The result of the two tests on an entry with a sample: 0 pass, 7 phase, 8 drift; and the entry with its run and history
brought up to date. -/
def State.triTest (s : State) (n : Nat) (ps : Phases) (r : Nat) (p : SecondPhase) : Nat × EnsEntry :=
  let e := s.ent r
  let a := s.anchor n ps
  let run := if (refInterval p.x p.early p.late).meets a.2 then 0 else e.triRun + 1
  let win := s.fd Fld.ENS_TRI.WIN
  let d : EnsPoint := ⟨n, p.x - a.1, p.early, p.late⟩
  let old := e.diffs.find? (fun x => decide (x.sec + win ≤ n))
  let drift := match old with
    | none => false
    | some o => decide (((s.rg .ENS_TRI_DRIFT 0).toNat + o.early.toNat + o.late.toNat + d.early.toNat + d.late.toNat) * 256
        < (d.x - o.x).natAbs)
  let keep := (d :: e.diffs).filter (fun x => decide (n ≤ x.sec + 2 * win))
  (if s.fd Fld.ENS_TRI.COUNT ≤ run then 7 else if drift then 8 else 0, { e with triRun := run, diffs := keep })

/-! ### Step 2: the checks of Table 5.3 -/

/-- YMAX over one second, in 2^-16 ns. -/
def State.ymaxStep (s : State) (r : Nat) : Nat := ceilDiv ((s.rg .ENS_REF_YMAX r).toNat * 65536) (10 ^ 6)

/-- The jump test (Table 5.3, cause 0x9). -/
def State.jumps (s : State) (r n : Nat) (p : SecondPhase) : Bool :=
  match (s.ent r).last with
  | some q =>
    decide (q.sec + 1 = n ∧ s.ymaxStep r + (q.early.toNat + q.late.toNat + p.early.toNat + p.late.toNat) * 256 < (p.x - q.x).natAbs)
  | none => false

/-- Whether an entry is consistent with the Datum in a second (R114). -/
def State.consistent (s : State) (n : Nat) (p : SecondPhase) : Bool :=
  (refInterval p.x p.early p.late).meets (sideInterval (s.datumSides (TimeVal.ofSec n)))

/-- The cause of the first step 2 check that fails on a sample; 0 when all pass. -/
def State.checkFails (s : State) (r n : Nat) (p : SecondPhase) (tri : Nat) : Nat :=
  if p.discont then 0xA
  else if s.jumps r n p then 0x9
  else if s.refTime r && !s.consistent n p then 0x6
  else tri

/-- A line fit with one more point. -/
def LineFit.add (f : LineFit) (t x : Int) : LineFit := ⟨f.n + 1, f.st + t, f.sx + x, f.stt + t * t, f.stx + t * x⟩

/-- Whether the slope of a fit exceeds a frequency in 10^-15 in magnitude. -/
def LineFit.tooFast (f : LineFit) (ymax : Nat) : Bool :=
  let den := f.n * f.stt - f.st * f.st
  let num := f.n * f.stx - f.st * f.sx
  decide (0 < den ∧ (ymax : Int) * 65536 * den < num.natAbs * 10 ^ 6)

/-- Step 1 for one entry: the runs of missing and present seconds, loss and return. -/
def State.ensStep1 (s : State) (n : Nat) (ps : Phases) (r : Nat) : State :=
  let st := s.refState r
  if st = 0 then s else
  let e := s.ent r
  let los := s.fd Fld.ENS_LOSS.LOS
  match SMap.find ps r with
  | none =>
    let e1 : EnsEntry := { e with missRun := e.missRun + 1, presRun := 0, winMiss := if st = 2 then e.winMiss + 1 else e.winMiss }
    let s1 := s.setEnt r e1
    if 2 ≤ st ∧ (los ≤ e1.missRun ∨ e1.lost) then s1.ensTrans r 1 2 n else s1
  | some _ =>
    let e1 : EnsEntry := { e with missRun := 0, presRun := e.presRun + 1, lost := false }
    let s1 := s.setEnt r e1
    if 2 ≤ st ∧ e.lost then (s1.setEnt r { e1 with presRun := 0 }).ensTrans r 1 2 n
    else if st = 1 ∧ los ≤ e1.presRun then s1.ensTrans r 2 2 n
    else s1

/-- Step 2 for one entry. -/
def State.ensStep2 (s : State) (n : Nat) (ps : Phases) (r : Nat) : State :=
  let st := s.refState r
  match SMap.find ps r with
  | none =>
    if st = 2 ∧ s.fd Fld.ENS_QUAL.MISS < (s.ent r).winMiss then s.ensRestart r 4 n
    else if st = 4 then s.setEnt r { (s.ent r) with suspRun := (s.ent r).suspRun + 1 }
    else s
  | some p =>
    if st < 2 ∨ st = 5 then s else
    let (tri, e1) := if triEntry r then s.triTest n ps r p else (0, s.ent r)
    let s1 := s.setEnt r e1
    let fails := s1.checkFails r n p tri
    if st = 3 then (if fails = 0 then s1 else s1.ensTrans r 4 fails n)
    else if st = 4 then
      (if fails = 0 then s1.ensTrans r 2 3 n else s1.setEnt r { e1 with suspRun := e1.suspRun + 1 })
    else
      let fit := e1.winFit.add ((n : Int) - e1.winFrom) p.x
      let s2 := s1.setEnt r { e1 with winFit := fit }
      if s.fd Fld.ENS_QUAL.MISS < e1.winMiss then s2.ensRestart r 4 n
      else if p.discont || fit.tooFast (s.rg .ENS_REF_YMAX r).toNat then s2.ensRestart r 5 n
      else s2

/-- The bound of the Datum at a second as bound fields. -/
def State.secondBound (s : State) (n : Nat) : Bound := s.datumBound (TimeVal.ofSec n)

/-- An entry becomes QUALIFIED; a FREQUENCY entry records its alignment (R115). -/
def State.qualify (s : State) (r cause n : Nat) (ps : Phases) (p : SecondPhase) : State :=
  let s1 :=
    if s.refTime r then s
    else
      let a : EnsAlign := match s.combine n ps (s.sampled ps 32) with
        | some q => ⟨n, p.x, q.x, q.early, q.late⟩
        | none => ⟨n, p.x, 0, (s.secondBound n).early, (s.secondBound n).late⟩
      s.setEnt r { (s.ent r) with align := some a }
  s1.ensTrans r 3 cause n

/-- Step 3 for one entry: the end of its window (R413). -/
def State.ensStep3 (s : State) (n : Nat) (ps : Phases) (r : Nat) : State :=
  match SMap.find ps r with
  | none => s
  | some p =>
    let e := s.ent r
    if s.refState r ≠ 2 ∨ n < e.winFrom + s.fd Fld.ENS_QUAL.WINDOW then s
    else
      let s1 := s.setEnt r { e with winDone := true }
      if s.refTime r && !s.consistent n p then s1.ensTrans r 5 6 n
      else if triEntry r ∧ s.fd Fld.ENS_TRI.COUNT ≤ e.triRun then s1.ensTrans r 5 7 n
      else if triEntry r ∧ (s.triTest n ps r p).1 = 8 then s1.ensTrans r 5 8 n
      else s1.qualify r 3 n ps p

/-- Step 4 for one entry: a SUSPECT that failed long enough. -/
def State.ensStep4 (s : State) (n : Nat) (r : Nat) : State :=
  if s.refState r = 4 ∧ s.fd Fld.ENS_LOSS.SUSP_HOLD ≤ (s.ent r).suspRun then s.ensTrans r 5 0xD n else s

/-- How far a reference interval lies outside an interval: earlier, later (R117, R139). -/
def outside (i d : Interval) : Nat × Nat :=
  let e := match i.lo, d.lo with
    | some a, some b => (b - a).toNat
    | _, _ => 0
  let l := match i.hi, d.hi with
    | some a, some b => (a - b).toNat
    | _, _ => 0
  (e, l)

/-- TRV_ACCEPT and TRV_STAT.ACCEPT from the marks: the largest A_r of each side (R139). -/
def State.showAccept (s : State) : State :=
  let e := maxOf (s.trv.accepted.map (fun a => a.2.1))
  let l := maxOf (s.trv.accepted.map (fun a => a.2.2))
  ((s.wr .TRV_ACCEPT_EARLY 0 (Side.word (some e))).wr .TRV_ACCEPT_LATE 0 (Side.word (some l))).setB Fld.TRV_STAT.ACCEPT
    (decide (0 < e ∨ 0 < l))

/-- An entry requalified by ACCEPT (1) or majority (2) while it is not consistent with the Datum: it is marked with its
acceptance term, which widens the Datum's bound, and recorded (R117, R139). -/
def State.acceptMark (s : State) (r n how : Nat) (p : SecondPhase) : State :=
  if s.consistent n p then s else
  let a := outside (refInterval p.x p.early p.late) (sideInterval (s.datumSides (TimeVal.ofSec n)))
  let widen := fun (b : Basis) => ({ b with early := Side.add b.early (some a.1), late := Side.add b.late (some a.2) } : Basis)
  let s1 : State := { s with trv := { s.trv with
    accepted := SMap.insert id s.trv.accepted r a
    basis := widen s.trv.basis
    bankB := widen s.trv.bankB } }
  s1.showAccept.journal 0x03 r how (TimeVal.ofSec n) ((Nat.max a.1 a.2 : Nat) : Int) p.early p.late []

/-- The members of M for an entry (R116). -/
def State.majority (s : State) (r n : Nat) (ps : Phases) : Bool :=
  match SMap.find ps r with
  | none => false
  | some p =>
    let g := fun q => s.fd Fld.ENS_REF_CFG.GROUP q
    let mem := ps.filter (fun e => decide (e.1 ≠ r ∧ g e.1 ≠ g r) && s.refTime e.1
      && (decide (s.refState e.1 = 3 ∨ s.refState e.1 = 5) || (decide (s.refState e.1 = 2) && (s.ent e.1).winDone)))
    let i := refInterval p.x p.early p.late
    let groups := (mem.map (fun e => g e.1)).dedup
    let agrees := groups.filter (fun k => mem.all (fun e => decide (g e.1 ≠ k) || (refInterval e.2.x e.2.early e.2.late).meets i))
    let _ := n
    decide (s.fd Fld.ENS_TRI.MAJ_MIN ≤ groups.length ∧ groups.length < 2 * agrees.length)

/-- Step 5 for one entry: majority requalification. -/
def State.ensStep5 (s : State) (n : Nat) (ps : Phases) (r : Nat) : State :=
  match SMap.find ps r with
  | some p =>
    if s.refState r = 5 ∧ s.refTime r ∧ s.majority r n ps then (s.acceptMark r n 2 p).qualify r 0xB n ps p else s
  | none => s

/-! ### Step 7: the condition (R121, R123, R265) -/

/-- The condition that the states give: 0 Normal, 1 FREQ_HOLD, 2 BANKED; BANKED while it is forced. -/
def State.newCond (s : State) : Nat :=
  let q := (List.range 32).filter (fun r => decide (s.refState r = 3))
  if s.fb Fld.FLT_ESC.BANK_FORCED ∨ q = [] then 2
  else if q.any (fun r => s.refTime r) then 0
  else 1

/-- Entry into BANKED at a second (R123): ENS_BANK_AT, B_b, the integrals of R127, the BANK record. -/
def State.bankEntry (s : State) (n : Nat) : State :=
  let at_ := TimeVal.ofSec n
  let b := s.datumSides at_
  let s1 := s.setPair .ENS_BANK_AT_HI .ENS_BANK_AT_LO (BitVec.ofNat 64 n)
  let s2 : State := { s1 with
    trv := { s1.trv with bankB := ⟨at_, b.1, b.2⟩ }
    ens := { s1.ens with theta := 0, thetaMiss := 0, resid := 0, residAt := at_ } }
  s2.journal 0x04 0xFF 0 at_ 0 (Side.word b.1) (Side.word b.2) []

/-- Step 7: the condition decided and shown. -/
def State.ensStep7 (s : State) (n : Nat) : State :=
  let c := s.newCond
  let old := s.cond
  let s1 := if c = 2 ∧ old ≠ 2 then s.bankEntry n else s
  let s2 := ((s1.setF Fld.TRV_STAT.COND c).setB Fld.ENS_STAT.BANKED (decide (c = 2))).setB Fld.ENS_STAT.FREQ_HOLD (decide (c = 1))
  let s3 := s2.setF Fld.ENS_STAT.NQUAL ((List.range 32).filter (fun r => decide (s.refState r = 3))).length
  if old = 2 ∧ c ≠ 2 then s3.journal 0x05 0xFF c (TimeVal.ofSec n) 0 0 0 [] else s3

/-! ### Step 8: the ensemble phase and the Traverse basis (R120, R134, R137, R139) -/

/-- The A_r of the marked entries brought up to date against the interval of R134 with A = 0 (R139). -/
def State.acceptTerms (s : State) (ps : Phases) (d : Interval) : State :=
  s.trv.accepted.foldl (fun s a =>
    match SMap.find ps a.1 with
    | none => s
    | some p =>
      let o := outside (refInterval p.x p.early p.late) d
      if o = (0, 0) then s.unmark a.1
      else { s with trv := { s.trv with accepted := SMap.insert id s.trv.accepted a.1 o } }) s

/-- The Datum bound of a processed second from the ensemble phase (R134), installed as the basis outside BANKED (R137); a second that
does not lie wholly after a step leaves the step's basis (R142). -/
def State.ensBasis (s : State) (n : Nat) (ps : Phases) (q : SecondPhase) : State :=
  let e0 : Side := (sideOf q.early).map (fun e => (q.x + (e : Int)).toNat)
  let l0 : Side := (sideOf q.late).map (fun l => ((l : Int) - q.x).toNat)
  let s1 := (s.acceptTerms ps (sideInterval (e0, l0))).showAccept
  let a := maxOf (s1.trv.accepted.map (fun a => a.2.1))
  let b := maxOf (s1.trv.accepted.map (fun a => a.2.2))
  if s1.cond = 2 ∨ (s1.fb Fld.TRV_STAT.STEP_BASIS ∧ (TimeVal.ofSec n).count < s1.trv.basis.at_.count) then s1
  else
    let s2 : State := { s1 with trv := { s1.trv with basis := ⟨TimeVal.ofSec n, Side.add e0 (some a), Side.add l0 (some b)⟩ } }
    s2.setB Fld.TRV_STAT.STEP_BASIS false

/-- Step 8: the ensemble phase formed, shown, and handed to Traverse. -/
def State.ensStep8 (s : State) (n : Nat) (ps : Phases) : State :=
  match s.combine n ps (s.sampled ps 32) with
  | none => s
  | some q =>
    let s1 := s.setPair .ENS_EPH_HI .ENS_EPH_LO (BitVec.ofNat 64 (wrapInt 64 q.x))
    ((s1.wr .ENS_EPH_EARLY 0 q.early).wr .ENS_EPH_LATE 0 q.late).ensBasis n ps q

/-! ### Step 9: learning and prediction (R124, R126, R127) -/

/-- The temperature of the model in 2^-8 °C, and whether it is a valid reading (R124, R131). -/
def State.modelTemp (s : State) : Int × Bool :=
  if s.fb Fld.ENS_HOLD_CTL.TSRC then
    (signedOf 16 (s.fd Fld.ENS_TSNS_T.T) * 4, s.fb Fld.ENS_TSNS_CFG.EN && s.fb Fld.ENS_TSNS_T.VALID)
  else (s.thm.clk * 256 / 10, true)

/-- y_st: what the steering codes add, in 10^-15 (R124, R130). -/
def State.ySt (s : State) : Int :=
  [0, 1].foldl (fun a i =>
    if s.fb Fld.ENS_OSC_CFG.SRC i then
      a + s.srg .ENS_OSC_GAIN i * (((s.rg .ENS_OSC_LAST i).toNat : Int) - (s.rg .ENS_OSC_REF i).toNat) / 1000
    else a) 0

/-- The sums moved to a later second and decayed for it (R124: weights fall with time constant TAU). -/
def HoldFit.advance (f : HoldFit) (to_ tau : Nat) : HoldFit :=
  let d : Int := (to_ : Int) - f.at_
  let den : Int := (tau * 3600 : Nat)
  let dec := fun (x : Int) => if den = 0 then 0 else x - x * d / den
  let st := f.st - d * f.w
  { w := dec f.w, st := dec st, stt := dec (f.stt - 2 * d * f.st + d * d * f.w), sT := dec f.sT, stT := dec (f.stT - d * f.sT),
    sTT := dec f.sTT, sy := dec f.sy, sty := dec (f.sty - d * f.sy), sTy := dec f.sTy, syy := dec f.syy, at_ := to_ }

/-- The scale of the weights. -/
def holdScale : Int := 2 ^ 40

/-- The sums with one sample at their instant. -/
def HoldFit.add (f : HoldFit) (temp y : Int) : HoldFit :=
  let k := holdScale
  { f with
    w := f.w + k
    sT := f.sT + k * temp
    sTT := f.sTT + k * temp * temp
    sy := f.sy + k * y
    sTy := f.sTy + k * temp * y
    syy := f.syy + k * y * y }

/-- The square root rounded upward. -/
def sqrtUp (n : Nat) : Nat := if Nat.sqrt n * Nat.sqrt n = n then Nat.sqrt n else Nat.sqrt n + 1

/-- What the fit reports: y0, a per day, c per kelvin, their standard uncertainties, the residual deviation (10^-15), and T_ref
(2^-8 °C). -/
structure HoldModel where
  y0   : Int
  a    : Int
  c    : Int
  uy   : Nat
  ua   : Nat
  uc   : Nat
  res  : Nat
  tref : Int
  deriving DecidableEq, Repr

/-- The weighted least-squares solution (R124). -/
def HoldFit.solve (f : HoldFit) : HoldModel :=
  let w := f.w
  let ctt := w * f.stt - f.st * f.st
  let ctT := w * f.stT - f.st * f.sT
  let cTT := w * f.sTT - f.sT * f.sT
  let cty := w * f.sty - f.st * f.sy
  let cTy := w * f.sTy - f.sT * f.sy
  let cyy := w * f.syy - f.sy * f.sy
  let det := ctt * cTT - ctT * ctT
  let two := decide (0 < det)
  -- numerators over a common denominator: slope per second and temperature coefficient per 2^-8 K
  let den : Int := if two then det else if 0 < ctt then ctt else 1
  let slope : Int := if two then cty * cTT - cTy * ctT else if 0 < ctt then cty else 0
  let temp : Int := if two then cTy * ctt - cty * ctT else 0
  let y0 : Int := if w = 0 then 0 else (f.sy * den - f.st * slope) / (w * den)
  -- residual variance times w^2
  let rss : Int := cyy - (slope * cty + temp * cTy) / den
  let var : Nat := if w = 0 then 0 else (rss / (w * w)).toNat
  -- variances of the slope and of the temperature coefficient in units of the residual variance
  let vt : Int := if two then cTT * w * holdScale else if 0 < ctt then w * holdScale else 0
  let vT : Int := if two then ctt * w * holdScale else 0
  let uy := if w = 0 then 0 else sqrtUp (ceilDiv (var * (holdScale * w * den + f.st * f.st * vt).toNat) (w * w * den).toNat)
  { y0 := y0, a := slope * 86400 / den, c := temp * 256 / den, uy := uy,
    ua := sqrtUp (ceilDiv (var * vt.toNat * 86400 ^ 2) den.toNat), uc := sqrtUp (ceilDiv (var * vT.toNat * 65536) den.toNat),
    res := sqrtUp var, tref := if w = 0 then 0 else f.sT / w }

/-- Whether the fit holds enough weight to be valid (R124): N_v is the smaller of 86 400 and 1 800 times TAU. -/
def HoldFit.valid (f : HoldFit) (tau : Nat) : Bool := decide ((Nat.min 86400 (1800 * tau) : Nat) * holdScale ≤ f.w)

/-- The model shown in ENS_HOLD_Y0 to ENS_HOLD_RES, with MODEL_VALID. -/
def State.showModel (s : State) : State :=
  let tau := s.fd Fld.ENS_HOLD_CTL.TAU
  let m := s.ens.fit.solve
  if s.ens.fit.valid tau then
    let s1 := ((s.wr .ENS_HOLD_Y0 0 (BitVec.ofInt 32 m.y0)).wr .ENS_HOLD_AGE 0 (BitVec.ofInt 32 m.a)).wr .ENS_HOLD_TC 0
      (BitVec.ofInt 32 m.c)
    let s2 := ((s1.wr .ENS_HOLD_UY 0 (satWord m.uy)).wr .ENS_HOLD_UA 0 (satWord m.ua)).wr .ENS_HOLD_UC 0 (satWord m.uc)
    let s3 := (s2.wr .ENS_HOLD_RES 0 (satWord m.res)).setB Fld.ENS_STAT.MODEL_VALID true
    { s3 with ens := { s3.ens with tref := m.tref } }
  else
    let s1 := ((s.wr .ENS_HOLD_UY 0 0xFFFFFFFF#32).wr .ENS_HOLD_UA 0 0xFFFFFFFF#32).wr .ENS_HOLD_UC 0 0xFFFFFFFF#32
    let s2 := (s1.wr .ENS_HOLD_RES 0 0xFFFFFFFF#32).setB Fld.ENS_STAT.MODEL_VALID false
    { s2 with ens := { s2.ens with tref := m.tref } }

/-- The model cleared: the Datum source changed (R124). -/
def State.clearModel (s : State) : State :=
  let s1 : State := { s with ens := { s.ens with fit := .zero, prevPhase := none, exclUntil := s.now.sec.toNat + 1 } }
  (((s1.wr .ENS_HOLD_Y0 0 0).wr .ENS_HOLD_AGE 0 0).wr .ENS_HOLD_TC 0 0).showModel

/-- The increment in effect at a tick. -/
def State.incAt (s : State) (k : Nat) : BitVec 64 :=
  match s.dtm.incHist.find? (fun e => decide (e.1 ≤ k)) with
  | some e => e.2
  | none => s.inc

/-- y_inc for an increment (R124), in 10^-15. -/
def yOfInc (i : BitVec 64) : Int := ((i.toNat : Int) - 57646075230342349) * 10 ^ 15 / 57646075230342349

/-- Whether a second takes no part in learning (R124, R128, R131). -/
def State.learnExcluded (s : State) (n : Nat) : Bool :=
  decide (s.cond = 2 ∨ s.fd Fld.DTM_MODE.MODE = 1 ∨ n ≤ s.ens.exclUntil) || !decide (s.fd Fld.SYN_LSTAT.STATE 0 = 4)
    || s.fb Fld.ENS_STAT.KEEPER_DIS || s.fb Fld.PWR_STAT.EMERG || !s.modelTemp.2

/-- One learning sample formed and fitted, when the second is not excluded (R124). -/
def State.learn (s : State) (n : Nat) (ps : Phases) : State :=
  let rs := s.sampled ps 32
  match s.combine n ps rs with
  | none => { s with ens := { s.ens with prevPhase := none } }
  | some q =>
    let xs := rs.map (fun r => (r, s.alignedX r (SMap.get (fun _ => (⟨0, 0, 0, false, []⟩ : SecondPhase)) ps r).x))
    let s1 : State := { s with ens := { s.ens with prevPhase := some (n, xs) } }
    match s.ens.prevPhase with
    | none => s1
    | some (m, old) =>
      -- x_E' of the second before, with this second's weights over the entries that it sampled
      let shared := (s.weights rs).filter (fun w => old.any (fun o => decide (o.1 = w.1)))
      if m + 1 ≠ n ∨ s.learnExcluded n ∨ shared = [] then s1
      else
        let prev := meanPhase shared (fun r => (SMap.find old r).getD 0)
        let y := (q.x - prev) * 10 ^ 6 / 65536 - yOfInc (s.incAt (s.tickOf (TimeVal.ofSec n))) - s.ySt
        let f := (s.ens.fit.advance n (s.fd Fld.ENS_HOLD_CTL.TAU)).add s.modelTemp.1 y
        let s2 : State := { s1 with ens := { s1.ens with fit := f } }
        s2.showModel

/-- The prediction refreshed (R126), and the integrals of R127 carried to the present second. -/
def State.predict (s : State) : State :=
  let f := s.ens.fit
  let t := s.now.sec.toNat
  let model : Int :=
    if s.fb Fld.ENS_STAT.MODEL_VALID then
      s.srg .ENS_HOLD_Y0 + s.srg .ENS_HOLD_AGE * ((t : Int) - f.at_) / 86400
        + s.srg .ENS_HOLD_TC * (s.modelTemp.1 - s.ens.tref) / 256
    else 0
  let rate := s.srg .ENS_HOLD_PRED + s.yInc
  let d : Int := (t : Int) - s.ens.residAt.sec.toNat
  let s1 := s.wr .ENS_HOLD_PRED 0 (BitVec.ofInt 32 (model + s.ySt))
  let ok := s.modelTemp.2
  { s1 with ens := { s1.ens with
    resid := s1.ens.resid + rate * d
    residAt := TimeVal.ofSec t
    theta := if ok then s1.ens.theta + (s.modelTemp.1 - s1.ens.tref) else s1.ens.theta
    thetaMiss := if ok then s1.ens.thetaMiss else s1.ens.thetaMiss + s.fd Fld.ENS_TSNS_CFG.DTMAX } }

/-! ### Stability (R112) -/

/-- One averaging time brought up to date with the phase of a second. -/
def AdevAcc.push (a : AdevAcc) (x : Option Int) : AdevAcc :=
  match x, a.x1, a.x2 with
  | some x0, some x1, some x2 =>
    let d := ((x0 - 2 * x1 + x2).natAbs) ^ 2
    let k := Nat.min 64 (a.n + 1)
    { a with x1 := some x0, x2 := some x1, avg := (a.avg * (k - 1) + d) / k, n := a.n + 1 }
  | some x0, x1, _ => { a with x1 := some x0, x2 := x1 }
  | none, _, _ => { a with x1 := none, x2 := none }

/-- The Allan deviation of an averaging time of 2^j s in 10^-15; 0xFFFF_FFFF until two estimates exist. -/
def AdevAcc.word (a : AdevAcc) (j : Nat) : BitVec 32 :=
  if a.n < 2 then 0xFFFFFFFF#32 else satWord (Nat.sqrt (a.avg * 10 ^ 12 / (2 * 4 ^ j * 2 ^ 32)))

/-- The Allan deviations of an entry brought up to date for a second. -/
def State.adevStep (s : State) (n r : Nat) (x : Option Int) : State :=
  (List.range 17).foldl (fun s j =>
    if n % 2 ^ j = 0 then
      let e := s.ent r
      let a := (SMap.get (fun _ => (⟨none, none, 0, 0, 0⟩ : AdevAcc)) e.adev j).push x
      (s.setEnt r { e with adev := SMap.insert id e.adev j a }).wr .ENS_ADEV (r * 17 + j) (a.word j)
    else s) s

/-! ### The clock class (R150, R151) -/

/-- The larger side of the Datum bound in 2^-8 ns; none while it is unbounded. -/
def State.worstSide (s : State) (t : TimeVal) : Option Nat :=
  match Side.max (s.datumSides t).1 (s.datumSides t).2 with
  | some m => some (ceilDiv m 256)
  | none => none

/-- The class that the bound selects (Table 6.4). -/
def State.selectClass (s : State) (t : TimeVal) : Nat :=
  match s.fb Fld.TRV_STAT.PRE_SOURCE, s.worstSide t with
  | false, some m =>
    if s.cond = 0 ∧ m ≤ (s.rg .TRV_CC_T6 0).toNat then 6
    else if m ≤ (s.rg .TRV_CC_T7 0).toNat then 7
    else if m ≤ (s.rg .TRV_CC_T140 0).toNat then 140
    else if m ≤ (s.rg .TRV_CC_T150 0).toNat then 150
    else if m ≤ (s.rg .TRV_CC_T160 0).toNat then 160
    else 248
  | _, _ => 248

/-- The limits of the clockAccuracy codes 0x17 to 0x30 in 10^-15 s (IEEE 1588-2019): 1 ps, 2.5 ps, 10 ps, 25 ps, … 10 s. -/
def accLimit (i : Nat) : Nat := (if i % 2 = 0 then 10 else 25) * 10 ^ (i / 2) * 100

/-- clockAccuracy of a bound in 2^-8 ns (R151). -/
def clockAccuracy (m : Option Nat) : Nat :=
  match m with
  | none => 0xFE
  | some m =>
    match (List.range 26).find? (fun i => decide (m * 10 ^ 6 ≤ accLimit i * 256)) with
    | some i => 0x17 + i
    | none => 0x31

/-- The class taking effect (R150): a worse one at once, a better one after HOLD seconds that all selected better ones. -/
def State.classStep (s : State) (n : Nat) : State :=
  let t := TimeVal.ofSec n
  let sel := s.selectClass t
  let cur := s.fd Fld.TRV_STAT.CC
  let hold := s.fd Fld.TRV_CC_CTL.HOLD
  let run := s.trv.run + 1
  let worst := Nat.max s.trv.runWorst sel
  let s1 := s.setF Fld.TRV_STAT.ACC (clockAccuracy (s.worstSide t))
  let apply_ : State → Nat → State := fun s c =>
    let s2 : State := { s with trv := { s.trv with run := 0, runWorst := 0 } }
    if c = cur then s2
    else ((s2.setF Fld.TRV_STAT.CC c).setB Fld.TRV_STAT.TRACEABLE (decide (c = 6 ∨ c = 7))).irqPulse 102 c
      |>.journal 0x0C 0xFF c t 0 0 0 []
  if cur ≤ sel then apply_ s1 sel
  else if hold ≤ run then apply_ s1 worst
  else { s1 with trv := { s1.trv with run := run, runWorst := worst } }

/-! ### COMPARISON records and the whole second -/

/-- The COMPARISON records of a second divisible by PERIOD (Table 6.3). -/
def State.comparisons (s : State) (n : Nat) (ps : Phases) : State :=
  let p := s.fd Fld.TRV_BMK_CTL.PERIOD
  if p = 0 ∨ n % p ≠ 0 then s
  else ps.foldl (fun s e =>
    if s.refState e.1 = 2 ∨ s.refState e.1 = 3 then
      s.journal 0x01 e.1 (s.refState e.1 * 2 ^ 28 + s.fd Fld.ENS_REF_STATE.CAUSE e.1 * 2 ^ 24) (TimeVal.ofSec n) e.2.x e.2.early
        e.2.late e.2.image
    else s) s

/-- The phases of the second shown in the entries' registers, kept for the next second's jump test, and the samples dropped. -/
def State.closeSecond (s : State) (n : Nat) (ps : Phases) : State :=
  (List.range 32).foldl (fun s r =>
    if s.refState r = 0 then s else
    let e := s.ent r
    let e1 : EnsEntry := { e with samples := e.samples.filter (fun x => decide (n < x.sec)) }
    match SMap.find ps r with
    | none => (s.setEnt r e1).adevStep n r none
    | some p =>
      let b := s.alignedB r n p
      let s1 := (s.setEnt r { e1 with last := some ⟨n, p.x, p.early, p.late⟩, image := p.image }).setPair .ENS_REF_PHASE_HI
        .ENS_REF_PHASE_LO (BitVec.ofNat 64 (wrapInt 64 (s.alignedX r p.x))) r
      ((s1.wr .ENS_REF_PHASE_EARLY r b.1).wr .ENS_REF_PHASE_LATE r b.2).adevStep n r (some p.x)) s

/-- NOWRITER ends at the first processed second after a writer's accepted increment (R138). -/
def State.writerBack (s : State) : State :=
  if s.trv.wrote && s.coreUp && s.d2dUp then
    ({ s with trv := { s.trv with unsteered := none } }).setB Fld.TRV_STAT.NOWRITER false
  else s

/-- The processing of second `n` (R115): the steps in order, each over the entries in ascending number. -/
def State.processSecond (s : State) (n : Nat) : State :=
  let ps := s.phases n
  let all := List.range 32
  let s1 := all.foldl (fun s r => s.ensStep1 n ps r) s
  let s2 := all.foldl (fun s r => s.ensStep2 n ps r) s1
  let s3 := all.foldl (fun s r => s.ensStep3 n ps r) s2
  let s4 := all.foldl (fun s r => s.ensStep4 n r) s3
  let s5 := all.foldl (fun s r => s.ensStep5 n ps r) s4
  let s6 := (s5.ensStep7 n).ensStep8 n ps
  let s7 := ((s6.learn n ps).predict.writerBack).comparisons n ps
  let s8 := (s7.closeSecond n ps).classStep n
  { s8 with ens := { s8.ens with procNext := some (n + 1) } }

/-! ### Register writes and deliveries of the assist -/

/-- An accepted write of the assist. -/
def State.ensAccept (s : State) : State := s.setB Fld.ENS_WSTAT.ACCEPT true

/-- A write discarded whole for an out-of-range field. -/
def State.ensRange (s : State) : State := s.setB Fld.ENS_WSTAT.RANGE true

/-- Whether entry `r` may take a configuration word (R107 to R109, the CFG.EN description). -/
def State.refCfgOk (s : State) (r : Nat) (v : BitVec 32) : Bool :=
  let en := bitAt v.toNat 31
  let freq := bitAt v.toNat 30
  let per := Fld.ENS_REF_CFG.PERIOD.of v
  let f := (s.rg .ENS_REF_FREQ r).toNat
  let presc := 2 ^ s.fd Fld.TIC_IN.PRESC r
  let kindOk := if r < 8 then freq || decide (f ≤ presc) else !freq
  -- PERIOD in ms, to be a whole number of P_r = 2^PRESC / F_r, or of one second where that is shorter (R109)
  let whole := if presc < f then decide (per * f % (1000 * presc) = 0) else decide (per % 1000 = 0)
  let perOk := decide (1 ≤ per ∧ per ≤ 1000) && (!decide (r < 8) || whole)
  let declOk :=
    if freq then decide (s.rg .ENS_REF_YACC r ≠ 0xFFFFFFFF#32 ∧ s.rg .ENS_REF_YAGE r ≠ 0xFFFFFFFF#32)
    else !decide (r < 8) || decide (s.rg .ENS_REF_ACC r ≠ 0xFFFFFFFF#32)
  kindOk && perOk && (!en || (declOk && !decide (13 ≤ r ∧ r ≤ 15)))

/-- A write of ENS_REFr_CFG (R107 to R109, Table 5.3 step 1). -/
def State.ensCfg (s : State) (r : Nat) (v : BitVec 32) : State :=
  if !s.refCfgOk r v then s.ensRange
  else
    let was := s.fb Fld.ENS_REF_CFG.EN r
    let s1 := (s.wrRw .ENS_REF_CFG r v).ensAccept
    let is_ := s1.fb Fld.ENS_REF_CFG.EN r
    let n := s.now.sec.toNat
    let s2 := if r < 8 then s1.setB Fld.TIC_STAT.REF_STREAM is_ r else s1
    if is_ ∧ !was then
      let e : EnsEntry := { EnsEntry.reset with mark := if r < 8 then some (TimeVal.ofSec (n + 1)) else none }
      ((s2.setEnt r e).setF Fld.ENS_REF_STATE.RESTARTS 0 r).ensTrans r 1 1 n
    else if !is_ ∧ was then (s2.ensTrans r 0 1 n).setEnt r EnsEntry.reset
    else s2

/-- The phase of the latest processed second of an entry, as kept for the jump test. -/
def State.lastPhase (s : State) (r : Nat) : Option (Nat × SecondPhase) :=
  (s.ent r).last.map (fun p => (p.sec, ⟨p.x, p.early, p.late, false, []⟩))

/-- An operator's ACCEPT (R117): an INCONSISTENT entry becomes QUALIFIED, judged on its latest processed second. -/
def State.refAccept (s : State) (r : Nat) : State :=
  if s.refState r ≠ 5 then s.setB Fld.ENS_WSTAT.CMD_REFUSED true
  else
    let s1 := s.ensAccept
    match s.lastPhase r with
    | some (n, p) => (s1.acceptMark r n 1 p).qualify r 0xC n [(r, p)] p
    | none => s1.ensTrans r 3 0xC s.now.sec.toNat

/-- The weight write of a party (R119): none when it is the writer's, in its mode; the state when the write is lost. -/
def State.mayWeigh (s : State) (p : Party) : Bool :=
  let active := s.fb Fld.DTM_MODE.ENS_ACTIVE
  match p with
  | .thread n => active && decide (s.dtm.writer = some n)
  | _ => !active

/-- Whether the processing of a second is past (R411): before any processing, two seconds after it. -/
def State.processed (s : State) (sec : Nat) : Bool :=
  match s.ens.procNext with
  | some n => decide (sec < n)
  | none => decide (sec + 2 < s.now.sec.toNat)

/-- A network submission (R111): the offset as a phase, its bound and instant. -/
def State.netSubmit (s : State) (j : Nat) (image : List Byte) : State :=
  let r := 16 + j
  let at_ := (s.rg .ENS_NET_AT j).toNat
  -- the instant's second: the Datum second with these low 32 bits nearest the present one
  let now := s.now.sec.toNat
  let base := now / 2 ^ 32 * 2 ^ 32 + at_
  let sec := if now + 2 ^ 31 < base then base - 2 ^ 32 else if base + 2 ^ 31 < now then base + 2 ^ 32 else base
  let off : Int := s.srg .ENS_NET_SEC j * secCount + ((s.rg .ENS_NET_NS j).toNat * 2 ^ 32 + (s.rg .ENS_NET_FRAC j).toNat : Nat)
  if 999999999 < (s.rg .ENS_NET_NS j).toNat then s.ensRange
  else if s.processed sec then s.setB Fld.ENS_WSTAT.NET_LATE true
  else if s.refState r = 0 then s.ensAccept
  else s.ensAccept.addSample r ⟨sec, off / 2 ^ 16, s.rg .ENS_NET_EARLY j, s.rg .ENS_NET_LATE j, false, image⟩

/-- A plain write of a register of the assist, accepted when a range holds. -/
def State.ensPlain (s : State) (r : Reg) (n : Nat) (v : BitVec 32) (ok : Bool) : State :=
  if ok then (s.wrRw r n v).ensAccept else s.ensRange

/-- A register write of the assist as it takes effect on the clock die; `p` made it, `image` is its image's hash. Writes that
Damper rules forbid never reach here. -/
def State.ensWrite (s : State) (p : Party) (image : List Byte) (r : Reg) (n : Nat) (v : BitVec 32) : State :=
  let host := match p with
    | .thread _ => false
    | _ => true
  if r = .ENS_WSTAT then s.w1c r n v
  else if r = .ENS_QUAL then
    s.ensPlain r n v (decide (1 ≤ Fld.ENS_QUAL.WINDOW.of v ∧ Fld.ENS_QUAL.WINDOW.of v ≤ 3600))
  else if r = .ENS_LOSS then
    s.ensPlain r n v (decide (1 ≤ Fld.ENS_LOSS.LOS.of v ∧ Fld.ENS_LOSS.LOS.of v ≤ 600 ∧ 1 ≤ Fld.ENS_LOSS.SUSP_HOLD.of v
      ∧ Fld.ENS_LOSS.SUSP_HOLD.of v ≤ 3600))
  else if r = .ENS_TRI then
    s.ensPlain r n v (decide (10 ≤ Fld.ENS_TRI.WIN.of v ∧ Fld.ENS_TRI.WIN.of v ≤ 10000 ∧ 1 ≤ Fld.ENS_TRI.COUNT.of v
      ∧ 2 ≤ Fld.ENS_TRI.MAJ_MIN.of v ∧ Fld.ENS_TRI.MAJ_MIN.of v ≤ 16))
  else if r = .ENS_HOLD_CTL then
    s.ensPlain r n v (decide (1 ≤ Fld.ENS_HOLD_CTL.TAU.of v ∧ Fld.ENS_HOLD_CTL.TAU.of v ≤ 2000))
  else if r = .ENS_TSNS_CFG then
    let ok := decide (Fld.ENS_TSNS_CFG.SCALE.of v ≤ 8 ∧ 1 ≤ Fld.ENS_TSNS_CFG.DTMAX.of v ∧ Fld.ENS_TSNS_CFG.DTMAX.of v ≤ 100)
    s.ensPlain r n v ok
  else if r = .ENS_REF_CFG then s.ensCfg n v
  else if r = .ENS_REF_FREQ then s.ensPlain r n v (decide (1 ≤ v.toNat ∧ v.toNat ≤ 1500000000))
  else if r = .ENS_REF_CMD then (if bitAt v.toNat 0 then s.refAccept n else s.ensAccept)
  else if r = .ENS_REF_WEIGHT then
    (if s.mayWeigh p then s.ensPlain r n v true else if host then s.setB Fld.ENS_WSTAT.W_LOST true else s)
  else if r = .ENS_NET_SEC ∨ r = .ENS_NET_NS ∨ r = .ENS_NET_FRAC ∨ r = .ENS_NET_EARLY ∨ r = .ENS_NET_LATE ∨ r = .ENS_NET_AT then
    (if host then s.setB Fld.ENS_WSTAT.NET_REFUSED true else s.ensPlain r n v (decide (r ≠ .ENS_NET_NS ∨ v.toNat ≤ 999999999)))
  else if r = .ENS_NET_GO then
    (if host then s.setB Fld.ENS_WSTAT.NET_REFUSED true else if bitAt v.toNat 0 then s.netSubmit n image else s.ensAccept)
  else if r.row.rw ≠ 0 ∨ r.row.rwg ≠ 0 then s.ensPlain r n v true
  else s

/-- A measurement of GNSS or the mate reaches the assist (R411): discarded when its second is already processed. -/
def State.measDeliver (s : State) (r : Nat) : State :=
  match s.ens.meas.find? (fun m => decide (m.1 = r)) with
  | none => s
  | some m =>
    let s1 : State := { s with ens := { s.ens with meas := s.ens.meas.erase m } }
    if s.processed m.2.sec then s1.setB Fld.ENS_WSTAT.MEAS_LATE true
    else if s.refState r = 0 then s1
    else s1.addSample r m.2

/-- The holdover commit (R125): the sums, T_ref, the fitted values and the steering reference codes, into the older record. -/
def State.holdCommit (s : State) : State :=
  let newest := s.cairn.hold.foldl (fun m r => if m < r.seq then r.seq else m) 0
  let rec_ : HoldRecord :=
    { seq := newest + 1, fit := s.ens.fit, tref := s.ens.tref,
      regs := [Reg.ENS_HOLD_Y0, .ENS_HOLD_AGE, .ENS_HOLD_TC, .ENS_HOLD_UY, .ENS_HOLD_UA, .ENS_HOLD_UC, .ENS_HOLD_RES].map
        (fun r => s.rg r 0),
      refs := [s.rg .ENS_OSC_REF 0, s.rg .ENS_OSC_REF 1] }
  { s with cairn := { s.cairn with hold := (rec_ :: s.cairn.hold).take 2 } }

/-! ### TRV registers -/

/-- Whether the thresholds stay non-decreasing (TRV_CC_T6 to TRV_CC_T160). -/
def State.ccSorted (s : State) : Bool :=
  let t := [Reg.TRV_CC_T6, .TRV_CC_T7, .TRV_CC_T140, .TRV_CC_T150, .TRV_CC_T160].map (fun r => (s.rg r 0).toNat)
  decide (List.Pairwise (fun a b => a ≤ b) t)

/-- A write of TRV_JNL_ACK_LO commits the staged ACK (R149). -/
def State.jnlAck (s : State) (lo : BitVec 32) : State :=
  let v := s.trv.ackStaged ++ lo
  let seq := s.pair .TRV_JNL_SEQ_HI .TRV_JNL_SEQ_LO
  let ack := s.pair .TRV_JNL_ACK_HI .TRV_JNL_ACK_LO
  let s1 := if seq.toNat < v.toNat ∨ v.toNat < ack.toNat then s.setB Fld.TRV_WSTAT.RANGE true
    else
      let s2 := (s.setPair .TRV_JNL_ACK_HI .TRV_JNL_ACK_LO v).setB Fld.TRV_WSTAT.ACCEPT true
      let c1 := SMap.set RegKey.ord RegKey.dflt s2.cairn.regs ⟨.TRV_JNL_ACK_HI, 0⟩ (s2.rg .TRV_JNL_ACK_HI 0)
      { s2 with cairn := { s2.cairn with regs := SMap.set RegKey.ord RegKey.dflt c1 ⟨.TRV_JNL_ACK_LO, 0⟩ lo } }
  { s1 with trv := { s1.trv with ackStaged := s1.rg .TRV_JNL_ACK_HI 0 } }

/-- A register write of the Traverse engine as it takes effect. -/
def State.trvWrite (s : State) (r : Reg) (n : Nat) (v : BitVec 32) : State :=
  let ok := fun (s1 : State) => s1.setB Fld.TRV_WSTAT.ACCEPT true
  let bad := s.setB Fld.TRV_WSTAT.RANGE true
  if r = .TRV_WSTAT then s.w1c r n v
  else if r = .TRV_JNL_ACK_HI then ok { s with trv := { s.trv with ackStaged := v } }
  else if r = .TRV_JNL_ACK_LO then s.jnlAck v
  else if r = .TRV_CC_T6 ∨ r = .TRV_CC_T7 ∨ r = .TRV_CC_T140 ∨ r = .TRV_CC_T150 ∨ r = .TRV_CC_T160 then
    (if (s.wr r n v).ccSorted then ok (s.wr r n v) else bad)
  else if r = .TRV_CC_CTL then (if Fld.TRV_CC_CTL.HOLD.of v ≤ 600 then ok (s.wrRw r n v) else bad)
  else if r = .TRV_BMK_CTL then
    (if 1 ≤ Fld.TRV_BMK_CTL.PERIOD.of v ∧ Fld.TRV_BMK_CTL.PERIOD.of v ≤ 3600 then ok (s.wrRw r n v) else bad)
  else if r.row.rwg ≠ 0 then ok (s.wrRw r n v)
  else s

/-- The Datum bound and the terms in force shown in their registers at a KCLK edge (R318). -/
def State.trvShow (s : State) : State :=
  let t := s.now
  let b := s.datumBound t
  let s1 := (s.wr .TRV_DATUM_EARLY 0 b.early).wr .TRV_DATUM_LATE 0 b.late
  let hold : Bound := match decide (s.cond = 2), s.trv.unsteered with
    | true, _ => b
    | false, some u => boundOf (s.unsteeredSide u.early t) (s.unsteeredSide u.late t)
    | false, none => ⟨0, 0⟩
  let from_ := if s.cond = 2 then s.trv.bankB.at_ else s.trv.basis.at_
  ((s1.wr .TRV_HOLD_EARLY 0 hold.early).wr .TRV_HOLD_LATE 0 hold.late).wr .TRV_COAST 0
    (Side.word (some (s.coastWithin from_ t)))

end Sys2Proof.Machine
end

