-- ==== Sys2Proof/Machine/SynOps.lean ====
section
/-!
DEFINITION. Machine/SynOps.lean: clock synthesis (07_clock_synthesis.md): the loops' starts, lock and coast, the outputs'
dividers and alignments, PPSOUT with IRIG-B, TOD, and the output bounds of R144. Waveforms between edges are not state.
-/
namespace Sys2Proof.Machine

/-! ### Loops -/

/-- A loop's record. -/
def State.loop (s : State) (n : Nat) : SynLoop := SMap.get SynLoop.reset s.syn.loops n

/-- The state with a loop's record replaced. -/
def State.setLoop (s : State) (n : Nat) (x : SynLoop) : State :=
  { s with syn := { s.syn with loops := SMap.set id SynLoop.reset s.syn.loops n x } }

/-- A loop's state (Table 7.3): 0 OFF, 1 SEARCH, 2 HOP, 3 ACQUIRE, 4 LOCKED, 5 COAST. -/
def State.loopState (s : State) (n : Nat) : Nat := s.fd Fld.SYN_LSTAT.STATE n

/-- The fixed loops. -/
def loopFixed (n : Nat) : Bool := decide (n = 0 ∨ 13 ≤ n)

/-- A CLKOUT output. -/
def State.out (s : State) (k : Nat) : SynOut := SMap.get (fun _ => SynOut.reset) s.syn.outs k

/-- The state with an output replaced. -/
def State.setOut (s : State) (k : Nat) (x : SynOut) : State :=
  { s with syn := { s.syn with outs := SMap.set id (fun _ => SynOut.reset) s.syn.outs k x } }

/-- The loop that drives an output. -/
def loopOf (k : Nat) : Nat := k / 2 + 1

/-- The first Datum second that begins at least 100 microseconds after an instant. -/
def State.alignSecond (s : State) : Nat := (s.now.plus (100 * usCount)).nextSec

/-- An alignment of an enabled output armed, when its loop is LOCKED; otherwise the output is held low (R169). -/
def State.armAlign (s : State) (k : Nat) : State :=
  if s.loopState (loopOf k) = 4 then
    (s.setOut k { (s.out k) with alignAt := some s.alignSecond }).setB Fld.SYN_OUT_STAT.ALIGN_PEND true k
  else s.setB Fld.SYN_OUT_STAT.HELD true k

/-- The outputs of a loop that leaves lock for SEARCH, HOP or ACQUIRE hold low; on LOCKED they restart by alignment (R169). -/
def State.loopOutputs (s : State) (n : Nat) (locked : Bool) : State :=
  if loopFixed n then s
  else [2 * n - 2, 2 * n - 1].foldl (fun s k =>
    if !s.fb Fld.SYN_OUT_CFG.EN k then s
    else if locked then (if s.fb Fld.SYN_OUT_STAT.HELD k then s.armAlign k else s)
    else
      let s1 := s.setOut k { (s.out k) with alignAt := none }
      ((s1.setB Fld.SYN_OUT_STAT.ALIGN_PEND false k).setB Fld.SYN_OUT_STAT.RUNNING false k).setB Fld.SYN_OUT_STAT.HELD true k) s

/-- A bit of a 16-bit mask set or cleared. -/
def maskBit (m n : Nat) (b : Bool) : Nat := if b then m ||| 2 ^ n else if m.testBit n then m - 2 ^ n else m

/-- A loop's state change (Table 7.3): the summary bits, SYN_STATE (source 103), the outputs. -/
def State.setLoopState (s : State) (n st : Nat) : State :=
  let old := s.loopState n
  let s1 := s.setF Fld.SYN_LSTAT.STATE st n
  let s2 := (s1.setF Fld.SYN_STAT.LOCKED (maskBit (s1.fd Fld.SYN_STAT.LOCKED) n (decide (st = 4)))).setF Fld.SYN_STAT.COAST
    (maskBit (s1.fd Fld.SYN_STAT.COAST) n (decide (st = 5)))
  let s3 := if old = st then s2 else s2.irqPulse 103 n
  if st = 4 then s3.loopOutputs n true
  else if st ≤ 3 then s3.loopOutputs n false
  else s3

/-- DCLK starts once SYN0 first reaches LOCKED or COAST (R154). -/
def State.startDclk (s : State) : State :=
  { s with pwr := { s.pwr with dclk := true }, syn := { s.syn with locked0 := true } }

/-- Word `w` of entry `e` of a loop's hop table (Table 7.4). -/
def State.hopWord (s : State) (n e w : Nat) : BitVec 32 := s.rg .SYN_HOP ((n * 32 + e) * 4 + w)

/-- Whether a hop entry serves a loop's present control word at the present temperature (R159). -/
def State.hopFits (s : State) (n e : Nat) : Bool :=
  let w0 := s.hopWord n e 0
  let t : Int := signedOf 8 (bitsOf (s.hopWord n e 3).toNat 23 16) * 10
  bitAt w0.toNat 31 && decide (bitsOf w0.toNat 15 0 = (s.rg .SYN_FCW_INT n).toNat) && decide (s.hopWord n e 1 = s.rg .SYN_FCW_NUM n)
    && decide (s.hopWord n e 2 = s.rg .SYN_FCW_DEN n) && decide ((s.thm.clk - t).natAbs ≤ 100)

/-- A loop starts a hop, or a search where none fits or one is commanded (R159). A hop of SYN0 disturbs calibrations (A6). -/
def State.startLoop (s : State) (n : Nat) (search : Bool) : State :=
  let s0 := if n = 0 then s.ticDisturb else s
  match (List.range 32).find? (fun e => s.hopFits n e) with
  | some e =>
    if search then
      ((s0.setLoop n { (s0.loop n) with searched := true }).setB Fld.SYN_LSTAT.HOP_MISS false n).setLoopState n 1
    else
      let w3 := (s0.hopWord n e 3).toNat
      let uses := Nat.min 255 (bitsOf w3 31 24 + 1)
      let s1 := s0.wr .SYN_HOP ((n * 32 + e) * 4 + 3) (BitVec.ofNat 32 (uses * 2 ^ 24 + w3 % 2 ^ 24))
      let l := s1.loop n
      let s2 := s1.setLoop n { l with searched := false, recent := e :: l.recent.filter (fun x => decide (x ≠ e)) }
      let s3 := (s2.setF Fld.SYN_LSTAT.BAND (bitsOf (s0.hopWord n e 0).toNat 21 16) n).setF Fld.SYN_LSTAT.FINE (w3 % 1024) n
      (s3.setB Fld.SYN_LSTAT.HOP_MISS false n).setLoopState n 2
  | none =>
    ((s0.setLoop n { (s0.loop n) with searched := true }).setB Fld.SYN_LSTAT.HOP_MISS (!search) n).setLoopState n 1

/-- The hop entry that a search's result takes (R161): an invalid one, or the least recently used. -/
def State.hopSlot (s : State) (n : Nat) : Nat :=
  match (List.range 32).find? (fun e => !bitAt (s.hopWord n e 0).toNat 31) with
  | some e => e
  | none =>
    match (List.range 32).find? (fun e => !(s.loop n).recent.contains e) with
    | some e => e
    | none => (s.loop n).recent.getLastD 0

/-- A search's result written into the hop table and committed to the Cairn store (R161). -/
def State.storeHop (s : State) (n : Nat) : State :=
  let e := s.hopSlot n
  let a := (n * 32 + e) * 4
  let w0 := BitVec.ofNat 32 (2 ^ 31 + s.fd Fld.SYN_LSTAT.BAND n * 2 ^ 16 + (s.rg .SYN_FCW_INT n).toNat % 65536)
  let w3 := BitVec.ofNat 32 (wrapInt 8 (s.thm.clk / 10) * 2 ^ 16 + s.fd Fld.SYN_LSTAT.FINE n)
  let s1 := (((s.wr .SYN_HOP a w0).wr .SYN_HOP (a + 1) (s.rg .SYN_FCW_NUM n)).wr .SYN_HOP (a + 2) (s.rg .SYN_FCW_DEN n)).wr .SYN_HOP
    (a + 3) w3
  let l := s1.loop n
  let s2 := s1.setLoop n { l with searched := false, recent := e :: l.recent.filter (fun x => decide (x ≠ e)) }
  let put := fun (m : RegFile) (j : Nat) => SMap.set RegKey.ord RegKey.dflt m ⟨.SYN_HOP, a + j⟩ (s2.rg .SYN_HOP (a + j))
  { s2 with cairn := { s2.cairn with regs := (List.range 4).foldl put s2.cairn.regs } }

/-- A loop's coast begins (R163): the freeze is no phase step; COASTS, the fault, SYN0's coast term and COAST record. -/
def State.coastEntry (s : State) (n cause : Nat) : State :=
  let s1 := ((s.setF Fld.SYN_LSTAT.CAUSE cause n).bump .SYN_COASTS n).setLoopState n 5
  let s2 :=
    if n = 0 then
      let c : Coast := { since := s.now, noBridge := s.fb Fld.ENS_STAT.KEEPER_DIS, phiK := 0, k0 := none, running := true, ended := s.now }
      let sa : State := { s1 with trv := { s1.trv with coast := some c }, ens := { s1.ens with exclUntil := s.now.sec.toNat + 1 } }
      ((sa.setB Fld.TRV_STAT.COAST0 true).ticDisturb.journal 0x0A 0xFF 1 s.now 0 0 0 []).startDclk
    else s1
  s2.raise { rec_ := 251 + n, cause := 5, cls := if n = 0 ∨ n = 13 then 2 else 1 }

/-- SYN0's coast ends (R165): the coast term stops growing, COAST0 clears, the COAST record is written. -/
def State.coastEnd (s : State) : State :=
  match s.trv.coast with
  | some c =>
    if c.running then
      let s1 : State := { s with
        trv := { s.trv with coast := some { c with running := false, ended := s.now } }
        ens := { s.ens with exclUntil := s.now.sec.toNat + 1 } }
      (s1.setB Fld.TRV_STAT.COAST0 false).journal 0x0A 0xFF 0 s.now 0 0 0 []
    else s
  | none => s

/-- A loop locks (R162): a search's result is stored; a loop that leaves COAST removes its phase error by frequency (R166). -/
def State.loopLock (s : State) (n : Nat) : State :=
  let st := s.loopState n
  if st ≠ 3 ∧ (st ≠ 5 ∨ n = 0) then s
  else
    let s0 := if st = 5 then
        s.setLoop n { (s.loop n) with left := ((s.fd Fld.SYN_PHERR.PEAK n : Nat) : Int), leftAt := s.now }
      else s
    let s1 := if (s0.loop n).searched then s0.storeHop n else s0
    let s2 := s1.setLoopState n 4
    if n = 0 then s2.startDclk else s2

/-- The remaining phase error of a loop at an instant, in 2^-8 ns (R166): it shrinks by SYN_PULL. -/
def State.phaseLeft (s : State) (n : Nat) (t : TimeVal) : Nat :=
  let l := s.loop n
  let gone := (s.rg .SYN_PULL n).toNat * l.leftAt.dist t * 256 / (10 ^ 12 * 2 ^ 32)
  l.left.natAbs - gone

/-! ### SYN0's source (R154, R165) -/

/-- SYN0's control word for its source: 5 000 MHz / F_ref (R154). -/
def State.syn0Fcw (s : State) (freq rdiv : Nat) : State :=
  let n := 5000000000 * (rdiv + 1)
  let i := if freq = 0 then 0 else n / freq
  let m := if freq = 0 then 0 else n % freq
  ((s.wr .SYN_FCW_INT 0 (BitVec.ofNat 32 (i % 65536))).wr .SYN_FCW_NUM 0 (BitVec.ofNat 32 m)).wr .SYN_FCW_DEN 0
    (BitVec.ofNat 32 (if m = 0 then 1 else freq))

/-- The qualification of SYN0's reference begins (R165). -/
def State.startQual (s : State) (newSrc : Bool) : State :=
  let q : SynQual := ⟨s.now.plus (s.fd Fld.SYN0_SRC.QUAL * secCount), newSrc⟩
  { s with syn := { s.syn with qual := some q } }

/-- SYN0 relocks by frequency only (R165). -/
def State.relock0 (s : State) : State :=
  let s1 := (s.coastEnd.setB Fld.SYN_LSTAT.REJECT false 0).setLoopState 0 4
  { s1 with syn := { s1.syn with qual := none } }

/-- An accepted write of the block. -/
def State.synAccept (s : State) : State := s.setB Fld.SYN_WSTAT.ACCEPT true

/-- A write discarded whole for an out-of-range field. -/
def State.synRange (s : State) : State := s.setB Fld.SYN_WSTAT.RANGE true

/-- The Cairn copy of a register. -/
def State.cairnReg (s : State) (r : Reg) (i : Nat) : State :=
  { s with cairn := { s.cairn with regs := SMap.set RegKey.ord RegKey.dflt s.cairn.regs ⟨r, i⟩ (s.rg r i) } }

/-- A write of SYN0_SRC or SYN0_SRC_FREQ (R154, R165): a change of source or divider moves SYN0 to COAST and requalifies; a new
SEL clears REJECT and the holdover model (R124). -/
def State.syn0Write (s : State) (r : Reg) (v : BitVec 32) : State :=
  let src := if r = .SYN0_SRC then v &&& 0xF3FFFFFF#32 else s.rg .SYN0_SRC 0
  let freq := (if r = .SYN0_SRC then s.rg .SYN0_SRC_FREQ 0 else v).toNat
  let rdiv := Fld.SYN0_SRC.RDIV.of src
  let sel := Fld.SYN0_SRC.SEL.of src
  if 8 < sel ∨ Fld.SYN0_SRC.QUAL.of src = 0 ∨ freq < 1000000 * (rdiv + 1) ∨ 100000000 * (rdiv + 1) < freq then s.synRange
  else
    let oldSel := s.fd Fld.SYN0_SRC.SEL
    let changed := decide (oldSel ≠ sel ∨ s.fd Fld.SYN0_SRC.RDIV ≠ rdiv)
    let s1 := (((s.wr .SYN0_SRC 0 src).wr .SYN0_SRC_FREQ 0 (BitVec.ofNat 32 freq)).syn0Fcw freq rdiv).synAccept
    let s2 := (s1.cairnReg .SYN0_SRC 0).cairnReg .SYN0_SRC_FREQ 0
    let s3 := if oldSel = sel then s2 else s2.clearModel.setB Fld.SYN_LSTAT.REJECT false 0
    if !changed then s3
    else (if s3.loopState 0 = 4 then s3.coastEntry 0 0 else s3).startQual true

/-- SYN0's qualification ends with a measured departure in 10^-12 (R165). -/
def State.qualEnd (s : State) (dy : Int) : State :=
  match s.syn.qual with
  | none => s
  | some q =>
    if s.loopState 0 ≠ 5 ∨ !s.reached q.end_ then s
    else if dy.natAbs ≤ s.fd Fld.SYN0_SRC.YTOL * 1000 then
      let s1 := if s.fb Fld.PWR_STAT.SRC_FALLBACK then
          (s.setB Fld.PWR_STAT.SRC_FALLBACK false).syn0Fcw (s.rg .SYN0_SRC_FREQ 0).toNat (s.fd Fld.SYN0_SRC.RDIV)
        else s
      s1.relock0
    else
      let s1 : State := { s with syn := { s.syn with qual := none } }
      (s1.setB Fld.SYN_LSTAT.REJECT true 0).raise { rec_ := 251, cause := 31, cls := 1 }

/-! ### Register writes of loops -/

/-- A commit of a control word (R153). -/
def State.fcwCommit (s : State) (n : Nat) (den : BitVec 32) : State :=
  let l := s.loop n
  let i := l.stInt.toNat % 65536
  let num := l.stNum.toNat
  let d := den.toNat
  let restage := fun (s : State) => s.setLoop n { (s.loop n) with stInt := s.rg .SYN_FCW_INT n, stNum := s.rg .SYN_FCW_NUM n }
  if loopFixed n then s
  else if d = 0 ∨ d ≤ num ∨ i * d + num < 200 * d ∨ 256 * d < i * d + num then restage s.synRange
  else
    let s1 := ((s.wr .SYN_FCW_INT n (BitVec.ofNat 32 i)).wr .SYN_FCW_NUM n l.stNum).wr .SYN_FCW_DEN n den
    restage (s1.synAccept.startLoop n false)

/-- The output frequency limit of a format in Hz (Table 17.7; R167's 2.5 GHz). -/
def formatLimit (f : Nat) : Nat := if f = 0 then 1500000000 else if f = 1 then 400000000 else 2500000000

/-- Whether a divider keeps an output within a format's limit (R167, R397): f_out = FCW * 25 MHz / D. -/
def State.outFreqOk (s : State) (k div format : Nat) : Bool :=
  let n := loopOf k
  let den := (s.rg .SYN_FCW_DEN n).toNat
  let f := ((s.rg .SYN_FCW_INT n).toNat * den + (s.rg .SYN_FCW_NUM n).toNat) * 25000000
  decide (f ≤ formatLimit format * den * div)

/-- The divider an output's registers hold. -/
def State.outDiv (s : State) (k : Nat) : Nat := s.fd Fld.SYN_OUT_DIV_HI.DIV32 k * 2 ^ 32 + (s.rg .SYN_OUT_DIV_LO k).toNat

/-- A commit of a divider (R167). -/
def State.divCommit (s : State) (k : Nat) (lo : BitVec 32) : State :=
  let o := s.out k
  let d := o.stDiv.toNat % 2 * 2 ^ 32 + lo.toNat
  if d < 2 ∨ !s.outFreqOk k d (s.fd Fld.SYN_OUT_CFG.FORMAT k) then
    (s.synRange).setOut k { o with stDiv := BitVec.ofNat 32 (s.fd Fld.SYN_OUT_DIV_HI.DIV32 k) }
  else
    let at_ := s.alignSecond
    let clash := match s.syn.sync with
      | some (a, m) => decide (a = at_) && m.getLsbD k
      | none => false
    let s1 := ((s.wr .SYN_OUT_DIV_LO k lo).setF Fld.SYN_OUT_DIV_HI.DIV32 (d / 2 ^ 32) k).synAccept
    let s2 := if clash then s1.setB Fld.SYN_WSTAT.ALIGN_DEFER true else s1
    (s2.setOut k { o with newDiv := d, alignAt := some (if clash then at_ + 1 else at_) }).setB Fld.SYN_OUT_STAT.ALIGN_PEND true k

/-- A write of SYN_OUTk_CFG (R169, R397). -/
def State.outCfg (s : State) (k : Nat) (v : BitVec 32) : State :=
  let f := Fld.SYN_OUT_CFG.FORMAT.of v
  if f = 3 ∨ !s.outFreqOk k (s.outDiv k) f then s.synRange
  else
    let was := s.fb Fld.SYN_OUT_CFG.EN k
    let s1 := (s.wrRw .SYN_OUT_CFG k v).synAccept
    let is_ := s1.fb Fld.SYN_OUT_CFG.EN k
    if is_ ∧ !was then s1.armAlign k
    else if !is_ ∧ was then
      let o := s1.out k
      ((((s1.setOut k { o with alignAt := none }).setB Fld.SYN_OUT_STAT.ALIGN_PEND false k).setB Fld.SYN_OUT_STAT.RUNNING false k).setB
        Fld.SYN_OUT_STAT.HELD false k)
    else s1

/-- A write of SYN_PHASEn (R166): the change becomes a phase error that frequency alone removes. -/
def State.phaseWrite (s : State) (n : Nat) (v : BitVec 32) : State :=
  if loopFixed n then s
  else if 256000 < v.toInt.natAbs then s.synRange
  else
    let d := v.toInt - s.srg .SYN_PHASE n + (s.phaseLeft n s.now : Nat)
    ((s.setLoop n { (s.loop n) with left := d, leftAt := s.now }).wr .SYN_PHASE n v).synAccept

/-- A write of SYN_CMDn (R159, R165): SEARCH forces a search; ACCEPT, for SYN0, clears REJECT and SYN0 relocks. -/
def State.synCmd (s : State) (n : Nat) (v : BitVec 32) : State :=
  let s1 := s.synAccept
  let s2 := if bitAt v.toNat 1 then s1.startLoop n true else s1
  if bitAt v.toNat 0 ∧ n = 0 ∧ s2.fb Fld.SYN_LSTAT.REJECT 0 ∧ s2.loopState 0 = 5 then s2.relock0
  else if bitAt v.toNat 0 ∧ n = 0 then s2.setB Fld.SYN_LSTAT.REJECT false 0
  else s2

/-! ### Alignments and SYNC_IN (R168, R170) -/

/-- An alignment of the selected outputs armed by an edge or the block action; an edge while one is pending is ignored and
counted. -/
def State.syncArm (s : State) : State :=
  match s.syn.sync with
  | some _ => s.setF Fld.SYN_SYNC_STAT.IGNORED (s.fd Fld.SYN_SYNC_STAT.IGNORED + 1)
  | none =>
    let m := BitVec.ofNat 24 (s.fd Fld.SYN_SYNC_CTL.MASK)
    let s1 : State := { s with syn := { s.syn with sync := some (s.alignSecond, m) } }
    (s1.setF Fld.SYN_SYNC_STAT.EDGES (s1.fd Fld.SYN_SYNC_STAT.EDGES + 1)).setB Fld.SYN_SYNC_STAT.PEND true

/-- Whether two ownership entries have one owner. -/
def State.sameOwner (s : State) (i j : Nat) : Bool :=
  s.fb Fld.TOP_OWN.HELD i && s.fb Fld.TOP_OWN.HELD j && decide (s.fd Fld.TOP_OWN.KIND i = s.fd Fld.TOP_OWN.KIND j)
    && decide (s.fd Fld.TOP_OWN.OWNER i = s.fd Fld.TOP_OWN.OWNER j)

/-- One output's aligned edge (R168, R169): the committed divider takes effect, and an enabled output runs. -/
def State.alignOut (s : State) (k : Nat) : State :=
  let o := s.out k
  let s1 := (s.setOut k { o with div := o.newDiv, alignAt := none }).setB Fld.SYN_OUT_STAT.ALIGN_PEND false k
  if s1.fb Fld.SYN_OUT_CFG.EN k ∧ 4 ≤ s1.loopState (loopOf k) then
    (s1.setB Fld.SYN_OUT_STAT.RUNNING true k).setB Fld.SYN_OUT_STAT.HELD false k
  else s1

/-- The alignments of the outputs whose second has been reached, those of SYNC_IN first skipping other owners' outputs. -/
def State.alignDue (s : State) : State :=
  let due := fun (a : Nat) => s.reached (TimeVal.ofSec a)
  let s1 := (List.range 24).foldl (fun s k =>
    match (s.out k).alignAt with
    | some a => if due a then s.alignOut k else s
    | none => s) s
  match s1.syn.sync with
  | none => s1
  | some (a, m) =>
    if !due a then s1
    else
      let s2 := (List.range 24).foldl (fun s k =>
        if !m.getLsbD k then s
        else if s.sameOwner (32 + k) 80 then (if s.fb Fld.SYN_OUT_CFG.EN k ∧ s.loopState (loopOf k) = 4 then s.alignOut k else s)
        else s.setB Fld.SYN_WSTAT.SYNC_SKIP true) s1
      let s3 : State := { s2 with syn := { s2.syn with sync := none } }
      (s3.setB Fld.SYN_SYNC_STAT.PEND false).wr .SYN_SYNC_AT 0 (BitVec.ofNat 32 a)

/-! ### PPSOUT, IRIG-B and TOD (R171 to R173) -/

/-- A PPSOUT pin. -/
def State.ppsPin (s : State) (j : Nat) : SynPps := SMap.get (fun _ => SynPps.reset) s.syn.pps j

/-- The state with a pin replaced. -/
def State.setPps (s : State) (j : Nat) (x : SynPps) : State :=
  { s with syn := { s.syn with pps := SMap.set id (fun _ => SynPps.reset) s.syn.pps j x } }

/-- Whether PPSOUT is muted: a SETTLE window with MUTE_PPS (R51). -/
def State.ppsMuted (s : State) : Bool := decide (s.fd Fld.DTM_MODE.MODE = 1) && s.fb Fld.DTM_SETTLE_CTL.MUTE_PPS

/-- Days before a month of a year (January is 0), in the proleptic Gregorian calendar. -/
def leapYear (y : Nat) : Bool := decide ((y % 4 = 0 ∧ y % 100 ≠ 0) ∨ y % 400 = 0)

/-- The year and the day of the year (from 1) of a day counted from 1970-01-01. -/
def yearDay : Nat → Nat → Nat → Nat × Nat
  | 0, y, d => (y, d + 1)
  | fuel + 1, y, d =>
    let n := if leapYear y then 366 else 365
    if d < n then (y, d + 1) else yearDay fuel (y + 1) (d - n)

/-- The IRIG time quality code of a bound in 2^-8 ns: the smallest code whose limit is at least the bound (IEEE C37.118.1: code 1
is 1 ns, each next code ten times more, to code 11 at 10 s; 15 when unbounded). -/
def qualityCode (m : Option Nat) : Nat :=
  match m with
  | none => 15
  | some m => if m = 0 then 0 else
    match (List.range 11).find? (fun i => decide (m ≤ 10 ^ i * 256)) with
    | some i => i + 1
    | none => 15

/-- The frame of an on-time edge at a Datum second (R172): labelled in TAI, or in UTC under R52, where an inserted second reads
60. -/
def State.irigFrame (s : State) (j sec : Nat) : IrigFrame :=
  let tai := s.fb Fld.SYN_PPS_CFG.TSCALE j
  let leap := !tai && s.inLeapNow
  let lab : Int := (sec : Int) - (if tai then 0 else s.utcOffset) - (if leap then 1 else 0)
  let t := lab.toNat
  let yd := yearDay 600 1970 (t / 86400)
  let utc61 := s.fb Fld.DTM_UTC_STAT.LEAP61
  let utc59 := s.fb Fld.DTM_UTC_STAT.LEAP59
  let cf : BitVec 27 :=
    if s.fb Fld.SYN_PPS_CFG.CFSRC j then
      BitVec.ofNat 27 (bit01 (utc61 || utc59) + bit01 utc59 * 2 + qualityCode (s.worstSide (TimeVal.ofSec sec)) * 2 ^ 10)
    else BitVec.ofNat 27 (s.rg .SYN_PPS_CF j).toNat
  { sec := t % 60 + bit01 leap, min := t / 60 % 60, hour := t / 3600 % 24, day := yd.2, year := yd.1, sbs := t % 86400, cf := cf,
    format := s.fd Fld.SYN_PPS_CFG.IRIG_X j }

/-- The instant of the leading edge of a pin's second: S - COMP (R171), as a signed count of 2^-32 ns. -/
def State.ppsInstant (s : State) (j sec : Nat) : Int := ((sec * secCount : Nat) : Int) - s.srg .SYN_PPS_COMP j * 2 ^ 24

/-- The Datum second whose leading edge lies nearest at or before the end of the present tick. -/
def State.ppsSecond (s : State) (j : Nat) : Nat :=
  let n := s.now.sec.toNat + 1
  if s.ppsInstant j n * 2 ^ 24 < s.tickEnd56 then n else s.now.sec.toNat

/-- The leading edge of a pin's second (R171, R172): muted in SETTLE (R51); IRIG-B in UTC scale needs a valid offset. -/
def State.ppsEdge (s : State) (j : Nat) : State :=
  let p := s.ppsPin j
  let n := s.ppsSecond j
  if !p.en || decide (p.last = some n) || !decide (s.ppsInstant j n * 2 ^ 24 < s.tickEnd56) then s
  else if s.ppsMuted then ((s.setPps j { p with last := some n }).setB Fld.SYN_PPS_STAT.MUTED true j).setB Fld.SYN_PPS_STAT.RUNNING false j
  else
    let noUtc := p.irig && !s.fb Fld.SYN_PPS_CFG.TSCALE j && !s.fb Fld.DTM_UTC_OFFSET.VALID
    let s1 := (s.setB Fld.SYN_PPS_STAT.MUTED false j).setB Fld.SYN_PPS_STAT.NOUTC noUtc j
    let frame := if p.irig && !noUtc then some (s.irigFrame j n) else none
    (s1.setPps j { p with last := some n, frame := frame }).setB Fld.SYN_PPS_STAT.RUNNING (!noUtc) j

/-- A write of SYN_PPSj_CFG (R171, R172): EN and FORMAT wait for their second. -/
def State.ppsCfg (s : State) (j : Nat) (v : BitVec 32) : State :=
  let w := Fld.SYN_PPS_CFG.WIDTH.of v
  if w = 0 ∨ 500000 < w ∨ (bitAt v.toNat 24 ∧ bitAt v.toNat 25) then s.synRange
  else
    let s1 := (s.wrRw .SYN_PPS_CFG j v).synAccept
    s1.setPps j { (s1.ppsPin j) with takeAt := some s.alignSecond }

/-- EN and FORMAT taking effect at their second (R171). -/
def State.ppsTake (s : State) (j : Nat) : State :=
  let p := s.ppsPin j
  match p.takeAt with
  | none => s
  | some a =>
    if !s.reached (TimeVal.ofSec a) then s
    else
      let en := s.fb Fld.SYN_PPS_CFG.EN j
      let s1 := s.setPps j { p with en := en, irig := s.fb Fld.SYN_PPS_CFG.FORMAT j, takeAt := none }
      if en then s1 else ((s1.setB Fld.SYN_PPS_STAT.RUNNING false j).setB Fld.SYN_PPS_STAT.MUTED false j).setB Fld.SYN_PPS_STAT.NOUTC false j

/-- A write of SYN_PPSj_COMP (R171): only while EN is 0 or in SETTLE. -/
def State.ppsComp (s : State) (j : Nat) (v : BitVec 32) : State :=
  if 256000 < v.toInt.natAbs then s.synRange
  else if s.fb Fld.SYN_PPS_CFG.EN j ∧ s.fd Fld.DTM_MODE.MODE ≠ 1 then s.setB Fld.SYN_WSTAT.COMP_REFUSED true
  else (s.wr .SYN_PPS_COMP j v).synAccept

/-- The time-of-day message of the present second (R173), once per second, LEAD milliseconds after it. -/
def State.todSend (s : State) (k : Nat) : State :=
  let sec := s.now.sec
  let due := s.reached (TimeVal.plus (TimeVal.ofSec sec.toNat) (s.fd Fld.SYN_TOD_CFG.LEAD k * 1000 * usCount))
  let sent := match SMap.find s.syn.tod k with
    | some m => decide (m.sec = sec)
    | none => false
  if !s.fb Fld.SYN_TOD_CFG.EN k || !due || sent then s
  else
    let m : TodMessage :=
      { sec := sec, utcOk := s.fb Fld.DTM_UTC_OFFSET.VALID, offset := s.utcOffset, leap61 := s.fb Fld.DTM_UTC_STAT.LEAP61,
        leap59 := s.fb Fld.DTM_UTC_STAT.LEAP59, cls := s.fd Fld.TRV_STAT.CC }
    { s with syn := { s.syn with tod := SMap.insert id s.syn.tod k m } }

/-- The duty of a LOCKA pin in percent (Table 7.6): LOCKA0 shows SYN0, LOCKA1 the selected loop of lowest duty. -/
def State.lockaDuty (s : State) (pin : Nat) : Nat :=
  let duty := fun n => match s.loopState n with
    | 4 => 100
    | 5 => 25
    | 0 => 0
    | _ => 50
  if pin = 0 then duty 0
  else
    let sel := (List.range 16).filter (fun n => (s.rg .SYN_LOCKA_CTL 0).getLsbD n)
    match sel with
    | [] => 0
    | n :: r => r.foldl (fun m k => Nat.min m (duty k)) (duty n)

/-! ### Output bounds (R144, R164, R174) -/

/-- A number of picoseconds as 2^-16 ns, rounded upward. -/
def psTerm (ps : Nat) : Nat := ceilDiv (ps * 65536) 1000

/-- The output placement term with the loop's coast term, in 2^-16 ns; none is unbounded (R402). Outputs 0 to 3 are PPSOUT, 4 to
15 are SYN1 to SYN12. -/
def State.placement (s : State) (k : Nat) : Side :=
  let dt := (s.thm.clk - Config.factoryTemp).natAbs
  match s.clkFactor with
  | none => none
  | some f =>
    if k < 4 then some (ceilDiv ((18 * 1000000 + 15000 * dt + 9 * 1000 * f) * 65536) (10 ^ 9))
    else
      let n := k - 3
      let track := 300 * s.fd Fld.SYN_PHERR.RMS n * f
      let base := ceilDiv ((20 * 1000000 + 20000 * dt + track) * 65536) (10 ^ 9)
      let pull := s.phaseLeft n s.now * 256
      let coast := if s.loopState n = 5 then psTerm 20 + s.fd Fld.SYN_PHERR.PEAK n * 256 else 0
      some (base + pull + coast)

/-- TRV_OUTk shown at a KCLK edge. -/
def State.outShow (s : State) : State :=
  (List.range 16).foldl (fun s k =>
    let d := s.datumSides s.now
    let p := s.placement k
    (s.wr .TRV_OUT_EARLY k (Side.word (Side.add d.1 p))).wr .TRV_OUT_LATE k (Side.word (Side.add d.2 p))) s

/-! ### Register writes -/

/-- A plain write accepted when a range holds. -/
def State.synPlain (s : State) (r : Reg) (n : Nat) (v : BitVec 32) (ok : Bool) : State :=
  if ok then (s.wrRw r n v).synAccept else s.synRange

/-- A register write of the block as it takes effect. -/
def State.synWrite (s : State) (r : Reg) (n : Nat) (v : BitVec 32) : State :=
  if r = .SYN_WSTAT then s.w1c r n v
  else if r = .SYN_LOCKA_CTL then s.synPlain r n v true
  else if r = .SYN0_SRC ∨ r = .SYN0_SRC_FREQ then s.syn0Write r v
  else if r = .SYN_SYNC_CTL then s.synPlain r n v true
  else if r = .SYN_CFG then s.synPlain r n v (decide (Fld.SYN_CFG.BW_ACQ.of v ≤ 101 ∧ Fld.SYN_CFG.BW_TRK.of v ≤ 101))
  else if r = .SYN_FCW_INT then
    (if loopFixed n then s else (s.setLoop n { (s.loop n) with stInt := v &&& 0xFFFF#32 }).synAccept)
  else if r = .SYN_FCW_NUM then (if loopFixed n then s else (s.setLoop n { (s.loop n) with stNum := v }).synAccept)
  else if r = .SYN_FCW_DEN then s.fcwCommit n v
  else if r = .SYN_LOCK then
    s.synPlain r n v (decide (4 ≤ Fld.SYN_LOCK.CNT_LOG2.of v ∧ Fld.SYN_LOCK.THR.of v < Fld.SYN_LOCK.UNLOCK_THR.of v))
  else if r = .SYN_PHASE then s.phaseWrite n v
  else if r = .SYN_PULL then s.synPlain r n v (decide (1 ≤ v.toNat ∧ v.toNat ≤ 1000000))
  else if r = .SYN_CMD then s.synCmd n v
  else if r = .SYN_OUT_CFG then s.outCfg n v
  else if r = .SYN_OUT_DIV_HI then (s.setOut n { (s.out n) with stDiv := v &&& 1#32 }).synAccept
  else if r = .SYN_OUT_DIV_LO then s.divCommit n v
  else if r = .SYN_PPS_CFG then s.ppsCfg n v
  else if r = .SYN_PPS_COMP then s.ppsComp n v
  else if r = .SYN_PPS_CF then s.synPlain r n v true
  else if r = .SYN_TOD_CFG then
    s.synPlain r n v (decide (Fld.SYN_TOD_CFG.BAUD.of v ≤ 5 ∧ 1 ≤ Fld.SYN_TOD_CFG.LEAD.of v ∧ Fld.SYN_TOD_CFG.LEAD.of v ≤ 500))
  else s

end Sys2Proof.Machine
end

