-- ==== Sys2Proof/Machine/GnsOps.lean ====
section
/-!
DEFINITION. Machine/GnsOps.lean: the GNSS timing baseband (08_gnss_baseband.md): sample ports, acquisition, the time
solution by weighted least squares with fault exclusion, its bound, surveys, snapshots, the audit. Times are counts of
2^-16 ns. What the antennas deliver comes with the commands.
-/
namespace Sys2Proof.Machine

/-! ### Least squares over the rationals (R188) -/

/-- A row scaled. -/
def rowScale (k : Rat) (r : List Rat) : List Rat := r.map (fun x => k * x)

/-- A row less a multiple of another. -/
def rowSub (k : Rat) (a b : List Rat) : List Rat := List.zipWith (fun x y => x - k * y) a b

/-- The first row at or below `i` with a nonzero entry in column `i`, moved to place `i`. -/
def pivotRow (i : Nat) (m : List (List Rat)) : Option (List (List Rat)) :=
  match (List.range m.length).find? (fun j => decide (i ≤ j) && decide ((m.getD j []).getD i 0 ≠ 0)) with
  | none => none
  | some j => some ((m.set i (m.getD j [])).set j (m.getD i []))

/-- Gauss-Jordan elimination of the first columns. -/
def eliminate : Nat → Nat → List (List Rat) → Option (List (List Rat))
  | 0, _, m => some m
  | n + 1, i, m =>
    match pivotRow i m with
    | none => none
    | some p =>
      let row := rowScale (1 / (p.getD i []).getD i 1) (p.getD i [])
      let q := (List.range p.length).map (fun j =>
        if j = i then row else rowSub ((p.getD j []).getD i 0) (p.getD j []) row)
      eliminate n (i + 1) q

/-- One equation of the fit: its coefficients, its right side, its weight. -/
structure FitRow where
  a : List Rat
  z : Rat
  w : Rat
  deriving DecidableEq, Repr

/-- A sum of rationals. -/
def ratSum (l : List Rat) : Rat := l.foldl (fun a b => a + b) 0

/-- The inverse of the normal matrix and the solution of a weighted fit with `u` unknowns. -/
def solveFit (u : Nat) (rows : List FitRow) : Option (List (List Rat) × List Rat) :=
  let idx := List.range u
  let n := idx.map (fun i => idx.map (fun j => ratSum (rows.map (fun r => r.w * r.a.getD i 0 * r.a.getD j 0))))
  let b := idx.map (fun i => ratSum (rows.map (fun r => r.w * r.a.getD i 0 * r.z)))
  let aug := idx.map (fun i => n.getD i [] ++ idx.map (fun j => if i = j then (1 : Rat) else 0) ++ [b.getD i 0])
  match eliminate u 0 aug with
  | none => none
  | some m =>
    some (idx.map (fun i => (List.range u).map (fun j => (m.getD i []).getD (u + j) 0)), idx.map (fun i => (m.getD i []).getD (2 * u) 0))

/-! ### Signals (Table 8.2) -/

/-- The system of a signal: 0 GPS, 1 Galileo, 2 BeiDou, 3 GLONASS. -/
def sigSystem (i : Nat) : Nat := if i ≤ 2 then 0 else if i ≤ 4 then 1 else if i ≤ 7 then 2 else 3

/-- The lowest and highest frequency of a signal's main lobe in kHz, for every k of L1OF. -/
def sigSpan (i : Nat) : Nat × Nat :=
  match i with
  | 0 => (1574397, 1576443)
  | 1 => (1573374, 1577466)
  | 2 => (1166220, 1186680)
  | 3 => (1573374, 1577466)
  | 4 => (1166220, 1186680)
  | 5 => (1559052, 1563144)
  | 6 => (1573374, 1577466)
  | 7 => (1166220, 1186680)
  | _ => (1597551, 1605886)

/-- The carrier in kHz. -/
def sigCarrier (i : Nat) : Nat :=
  match i with
  | 2 | 4 | 7 => 1176450
  | 5 => 1561098
  | 8 => 1602000
  | _ => 1575420

/-- The chip length in units of 2^-16 ns. -/
def sigChip (i : Nat) : Rat :=
  match i with
  | 2 | 4 | 7 => 65536 * 1000 / (1023 / 100)
  | 5 => 65536 * 1000 / (2046 / 1000)
  | 8 => 65536 * 1000 / (511 / 1000)
  | _ => 65536 * 1000 / (1023 / 1000)

/-- The satellites of a system that a cold search covers. PRESUMED from the systems' interface documents. -/
def systemSvs (s : Nat) : Nat := if s = 0 then 32 else if s = 1 then 36 else if s = 2 then 63 else 24

/-- Whether a port passes a signal (R182). -/
def State.portPasses (s : State) (p i : Nat) : Bool :=
  let fc := (s.rg .GNS_SP_FC p).toNat * 1000
  let half := (s.rg .GNS_SP_RATE p).toNat * 45 / 100
  decide (fc ≤ (sigSpan i).1 * 1000 + half ∧ (sigSpan i).2 * 1000 ≤ fc + half)

/-- Whether a port runs for an antenna. -/
def State.portOf (s : State) (p a : Nat) : Bool := s.fb Fld.GNS_SP_CFG.EN p && decide (s.fd Fld.GNS_SP_CFG.ANT p = a)

/-- Whether some running port of an antenna passes a signal. -/
def State.antPasses (s : State) (a i : Nat) : Bool := (List.range 4).any (fun p => s.portOf p a && s.portPasses p i)

/-- The primary port of an antenna (R183). -/
def State.primary (s : State) (a : Nat) : Option Nat := (List.range 4).find? (fun p => s.portOf p a)

/-- Whether an antenna is MAIN. -/
def State.antMain (s : State) (a : Nat) : Bool := decide (s.fd Fld.GNS_ANT_CFG.ROLE a = 1)

/-! ### Acquisition (R184, R185) -/

/-- The order of jobs: by level, then antenna, then age. -/
def acqFirst : List AcqJob → Option AcqJob
  | [] => none
  | j :: r =>
    match acqFirst r with
    | none => some j
    | some k => if k.level < j.level ∨ (k.level = j.level ∧ k.ant < j.ant) then some k else some j

/-- The next job starts by level, unless HOLD stops it (R184, R185). -/
def State.acqNext (s : State) : State :=
  if s.gns.job.isSome || s.fb Fld.GNS_ACQ_CTL.HOLD then s
  else match acqFirst s.gns.jobs with
    | none => s.setB Fld.GNS_STAT.ACQ_BUSY false
    | some j => ({ s with gns := { s.gns with job := some j, jobs := s.gns.jobs.erase j } }).setB Fld.GNS_STAT.ACQ_BUSY true

/-- The level of a search for a satellite on an antenna (R184). -/
def State.searchLevel (s : State) (a sys sv : Nat) : Nat :=
  let near := match s.worstSide s.now with
    | some m => decide (m < 10000 * 256)
    | none => false
  if s.gns.eph.contains (sys, sv) && s.fb Fld.GNS_ANT_CFG.MODE a && near then 3 else 4

/-- The searches of a signal on an antenna are queued. -/
def State.acqQueue (s : State) (a i : Nat) : State :=
  let new := (List.range (systemSvs (sigSystem i))).map (fun k => (⟨s.searchLevel a (sigSystem i) (k + 1), a, i, k + 1⟩ : AcqJob))
  { s with gns := { s.gns with jobs := s.gns.jobs ++ new.filter (fun j => !s.gns.jobs.any (fun x => decide (x.ant = j.ant ∧ x.sig = j.sig ∧ x.sv = j.sv))) } }

/-- The tracking channels an antenna has. -/
def State.antChannels (s : State) (a : Nat) : List Nat :=
  (List.range 192).filter (fun c => decide (s.fd Fld.GNS_CH_STAT.STATE c ≠ 0 ∧ s.fd Fld.GNS_CH_STAT.ANT c = a))

/-- CH_USED and NTRK from the channels. -/
def State.chCount (s : State) : State :=
  let used := ((List.range 192).filter (fun c => decide (s.fd Fld.GNS_CH_STAT.STATE c ≠ 0))).length
  (List.range 4).foldl (fun s a => s.setF Fld.GNS_ANT_STAT.NTRK (s.antChannels a).length a) (s.setF Fld.GNS_STAT.CH_USED used)

/-- A tracking channel allocated to a found satellite (R186). -/
def State.allocChannel (s : State) (j : AcqJob) (cn0 elev : Nat) : State :=
  if s.fd Fld.GNS_ANT_CFG.CHMAX j.ant ≤ (s.antChannels j.ant).length then s
  else match (List.range 192).find? (fun c => decide (s.fd Fld.GNS_CH_STAT.STATE c = 0)) with
    | none => s
    | some c =>
      (s.wr .GNS_CH_STAT c (BitVec.ofNat 32 (2 ^ 28 + j.ant % 4 * 2 ^ 26 + j.sig % 16 * 2 ^ 22 + j.sv % 64 * 2 ^ 16
        + cn0 % 256 * 256 + elev % 256))).chCount

/-- An acquisition job finishes (R184): a satellite found takes a channel; one not found is searched again after the others. -/
def State.acqDone (s : State) (found : Option (Nat × Nat)) : State :=
  match s.gns.job with
  | none => s
  | some j =>
    let s1 : State := { s with gns := { s.gns with job := none } }
    let ok := s1.antMain j.ant && (s1.rg .GNS_ANT_CFG j.ant).getLsbD j.sig && s1.antPasses j.ant j.sig
    let s2 := match found with
      | some f => if ok then s1.allocChannel j f.1 f.2 else s1
      | none => if ok ∧ j.level ≠ 1 then { s1 with gns := { s1.gns with jobs := s1.gns.jobs ++ [{ j with level := 4 }] } } else s1
    s2.acqNext

/-- An abort of acquisition (R185). -/
def State.acqAbort (s : State) : State :=
  let s1 : State := { s with gns := { s.gns with jobs := [], job := none } }
  let s2 := (s1.setB Fld.GNS_STAT.ACQ_BUSY false).setB Fld.GNS_WSTAT.ACQ_ABORTED true
  if s.gns.audBusy then
    (({ s2 with gns := { s2.gns with audBusy := false } }).setF Fld.GNS_AUD_STAT.RESULT 4).irqPulse 105 4
  else s2

/-- The channels that a predicate names are freed. -/
def State.dropChannels (s : State) (p : Nat → Bool) : State :=
  ((List.range 192).foldl (fun s c => if s.fd Fld.GNS_CH_STAT.STATE c ≠ 0 ∧ p c then s.wr .GNS_CH_STAT c 0 else s) s).chCount

/-! ### Sample ports (R179, R180) -/

/-- A capture ends with a result (R195). -/
def State.endCapture (s : State) (result : Nat) : State :=
  let s1 : State := { s with gns := { s.gns with running := none } }
  (((s1.setF Fld.GNS_SNAP_STAT.RESULT result).setB Fld.GNS_SNAP_STAT.PEND s.gns.armed.isSome).setB Fld.GNS_STAT.SNAP_BUSY false).irqPulse 104 result

/-- An accepted write of the block. -/
def State.gnsAccept (s : State) : State := s.setB Fld.GNS_WSTAT.ACCEPT true

/-- A write discarded whole for an out-of-range field. -/
def State.gnsRange (s : State) : State := s.setB Fld.GNS_WSTAT.RANGE true

/-- A write of GNS_SPp_CFG (R179, R195): the port restarts, its antenna's channels are dropped, a capture of the port ends. -/
def State.spCfg (s : State) (p : Nat) (v : BitVec 32) : State :=
  let ant := s.fd Fld.GNS_SP_CFG.ANT p
  let s1 := (s.wrRw .GNS_SP_CFG p v).gnsAccept
  let s2 := match s.gns.running with
    | some c => if c.ports.testBit p then s1.endCapture 3 else s1
    | none => s1
  let s3 := s2.dropChannels (fun c => decide (s2.fd Fld.GNS_CH_STAT.ANT c = ant))
  let s4 := (s3.setB Fld.GNS_SP_STAT.RUNNING false p).setB Fld.GNS_SP_STAT.BADCLK false p
  let a := s4.fd Fld.GNS_SP_CFG.ANT p
  if s4.fb Fld.GNS_SP_CFG.EN p && s4.antMain a then
    ((List.range 9).foldl (fun s i => if (s.rg .GNS_ANT_CFG a).getLsbD i ∧ s.antPasses a i then s.acqQueue a i else s) s4).acqNext
  else s4

/-- Whether an antenna's deliveries are withheld (R194). -/
def State.withheld (s : State) (a : Nat) : Bool :=
  s.fb Fld.GNS_ANT_STAT.ANT_FLT a
    || (List.range 4).any (fun p => s.portOf p a && (s.fb Fld.GNS_SP_STAT.JAM p || s.fb Fld.GNS_SP_STAT.BADCLK p))
    || (s.fb Fld.GNS_STAT.AUD_ALARM && decide (s.fd Fld.GNS_AUD_CTL.MAIN = a))

/-- The loss of an antenna's primary port, reported to the assist (R194). -/
def State.losePrimary (s : State) (p : Option Nat) : State :=
  match p with
  | some p => s.setEnt (8 + p) { (s.ent (8 + p)) with lost := true }
  | none => s

/-- SOL of an antenna and the loss of its primary, while its deliveries are withheld (R194). -/
def State.withholdAnt (s : State) (a : Nat) : State := (s.setF Fld.GNS_ANT_STAT.SOL 6 a).losePrimary (s.primary a)

/-- The loss reported to the assist, and SOL, for antennas that are withheld (R194). -/
def State.withholdAll (s : State) : State :=
  (List.range 4).foldl (fun s a =>
    if !s.antMain a then s
    else if s.withheld a then s.withholdAnt a
    else if s.fd Fld.GNS_ANT_STAT.SOL a = 6 then s.setF Fld.GNS_ANT_STAT.SOL 0 a
    else s) s

/-- The rate check of a port over the past second (R179), with the rate its pairs show in Hz. -/
def State.rateCheck (s : State) (p hz : Nat) : State :=
  if !s.fb Fld.GNS_SP_CFG.EN p then s
  else
    let rate := (s.rg .GNS_SP_RATE p).toNat
    let bad := decide (rate * 100 < (if hz ≤ rate then rate - hz else hz - rate) * 1000000)
    let was := s.fb Fld.GNS_SP_STAT.BADCLK p
    let s1 := (s.setB Fld.GNS_SP_STAT.RUNNING (decide (0 < hz)) p).setB Fld.GNS_SP_STAT.BADCLK bad p
    (if bad ∧ !was then s1.raise { rec_ := 243 + p, cause := 10, cls := 1 } else s1).withholdAll

/-- A number put into a rising list. -/
def insertNum (n : Nat) : List Nat → List Nat
  | [] => [n]
  | h :: r => if n ≤ h then n :: h :: r else h :: insertNum n r

/-- The median of some numbers. -/
def median (l : List Nat) : Nat := (l.foldl (fun a x => insertNum x a) []).getD (l.length / 2) 0

/-- The power check of a port over the past second (R180): PWR counts decibels below full scale, so more power is a smaller
PWR. -/
def State.powerCheck (s : State) (p : Nat) (pwr : BitVec 16) : State :=
  if !s.fb Fld.GNS_SP_CFG.EN p then s
  else
    let hist := SMap.get (fun _ => []) s.gns.pwr p
    let med := median (hist.map (fun x => x.toNat))
    let jammed := decide (hist ≠ [] ∧ pwr.toNat + s.fd Fld.GNS_SP_CFG.JAMTHR p * 10 < med)
    let was := s.fb Fld.GNS_SP_STAT.JAM p
    let calm := if jammed then 0 else SMap.get (fun _ => 0) s.gns.calm p + 1
    let now := jammed || (was && decide (calm < 10))
    let s1 := (s.setF Fld.GNS_SP_STAT.PWR pwr.toNat p).setB Fld.GNS_SP_STAT.JAM now p
    let s2 : State := { s1 with gns := { s1.gns with
      calm := SMap.insert id s1.gns.calm p calm
      pwr := if now then s1.gns.pwr else SMap.insert id s1.gns.pwr p ((pwr :: hist).take 3600) } }
    let s3 := s2.setB Fld.GNS_STAT.JAM ((List.range 4).any (fun q => s2.fb Fld.GNS_SP_STAT.JAM q))
    (if jammed ∧ !was then s3.raise { rec_ := 243 + p, cause := 9, cls := 1 } else s3).withholdAll

/-! ### Front-end control (R181) -/

/-- The low `n` bits of a word reversed, for transfers that go least significant bit first. -/
def bitsReversed (n v : Nat) : Nat := (List.range n).foldl (fun a i => a * 2 + bit01 (v.testBit i)) 0

/-- A write of GNS_CTL_CMD: GO starts a transfer. -/
def State.ctlCmd (s : State) (v : BitVec 32) : State :=
  let n := Fld.GNS_CTL_CMD.COUNT.of v
  if n < 8 ∨ 32 < n then s.gnsRange
  else if bitAt v.toNat 31 then
    if s.fb Fld.GNS_CTL_STAT.BUSY ∨ s.pwr.gatedGnss then s.gnsRange
    else
      let tx := (s.rg .GNS_CTL_TX 0).toNat % 2 ^ n
      let out := if s.fb Fld.GNS_CTL_CFG.LSB_FIRST then bitsReversed n tx else tx
      let s1 := (s.wr .GNS_CTL_CMD 0 (v &&& 0x33F#32)).gnsAccept.setB Fld.GNS_CTL_STAT.BUSY true
      { s1 with gns := { s1.gns with spi := some (Fld.GNS_CTL_CMD.CS.of v, n, BitVec.ofNat 32 out) } }
  else (s.wr .GNS_CTL_CMD 0 (v &&& 0x33F#32)).gnsAccept

/-- A transfer ends with the bits sampled on MISO, in the order they came. -/
def State.ctlDone (s : State) (miso : BitVec 32) : State :=
  match s.gns.spi with
  | none => s
  | some (_, n, _) =>
    let rx := if s.fb Fld.GNS_CTL_CFG.LSB_FIRST then bitsReversed n (miso.toNat % 2 ^ n) else miso.toNat % 2 ^ n
    let s1 : State := { s with gns := { s.gns with spi := none } }
    ((s1.wr .GNS_CTL_RX 0 (BitVec.ofNat 32 rx)).setB Fld.GNS_CTL_STAT.BUSY false).setF Fld.GNS_CTL_STAT.DONE
      (s1.fd Fld.GNS_CTL_STAT.DONE + 1)

/-! ### The time solution (R188 to R193) -/

/-- One second in 2^-16 ns. -/
def sec16 : Int := 1000000000 * 65536

/-- The start of a system's week count, in seconds of its own scale since 1970. -/
def systemEpoch (sys : Nat) : Int := if sys = 0 then 315964800 else if sys = 1 then 935280000 else if sys = 2 then 1136073600 else 0

/-- TAI less system time in seconds (Table 8.3). -/
def State.systemToTai (s : State) (sys : Nat) : Int :=
  if sys ≤ 1 then 19 else if sys = 2 then 33 else s.utcOffset - 10800

/-- The full week of a truncated week number: the first candidate whose time lies at or after the floor (R190). -/
def fullWeek (sys week bits floor_ : Nat) : Nat :=
  if bits = 0 then week
  else
    let m := 2 ^ bits
    let f := (((floor_ : Int) - systemEpoch sys + 604799) / 604800).toNat
    if f ≤ week % m then week % m else week % m + ceilDiv (f - week % m) m * m

/-- Whether an observation's week number resolves the time (R190). -/
def State.resolves (s : State) (sys bits : Nat) : Bool :=
  let full := decide ((sys = 0 ∧ bits = 13) ∨ (sys = 1 ∧ bits = 12) ∨ (sys = 2 ∧ bits = 13))
  full || (decide (sys = 0 ∧ bits = 10) && decide (s.pair .GNS_TIME_FLOOR_HI .GNS_TIME_FLOOR_LO ≠ 0))

/-- Whether GLONASS takes part at a second (R189). -/
def State.glonassOk (s : State) (n : Nat) : Bool :=
  s.fb Fld.DTM_UTC_OFFSET.VALID && (match s.dtm.leapAt with
    | some (a, _) => decide (n + 10 < a.toNat ∨ a.toNat + 10 < n)
    | none => true)

/-- z of an observation at second `n` on an antenna (R188). -/
def State.obsZ (s : State) (a n : Nat) (o : GnsObs) : Int :=
  let sys := sigSystem (s.fd Fld.GNS_CH_STAT.SIG o.ch)
  let w := fullWeek sys o.week o.weekBits (s.pair .GNS_TIME_FLOOR_HI .GNS_TIME_FLOOR_LO).toNat
  let arr : Int := (systemEpoch sys + w * 604800) * sec16 + o.tow + o.range + o.iono + o.trop
  let tai := arr + s.systemToTai sys * sec16 + s.srg .GNS_SYS_OFS sys * 256
  (n : Int) * sec16 - s.srg .GNS_ANT_DELAY a * 256 - tai

/-- 10^(c/10) to four figures. -/
def ratioOfDb (c : Nat) : Rat :=
  let m : List Rat := [1000, 1259, 1585, 1995, 2512, 3162, 3981, 5012, 6310, 7943]
  m.getD (c % 10) 1000 / 1000 * 10 ^ (c / 10)

/-- The variance of a code measurement of a signal in units of (2^-16 ns)^2 (Table 8.4). -/
def State.codeVar (s : State) (sig cn0 : Nat) : Rat :=
  let disc := s.fd Fld.GNS_TRK.DISC
  let k2 : Rat := if disc = 1 then 4 else 1
  let d : Rat := (if disc = 2 then s.fd Fld.GNS_TRK.NARROW else s.fd Fld.GNS_TRK.DEL : Nat) / 64
  let b : Rat := (s.fd Fld.GNS_TRK.DLL_BW : Nat) / 20
  k2 * sigChip sig * sigChip sig * b * d / (2 * ratioOfDb cn0)

/-- The variance of an observation, through the ionosphere-free combination where it has one. -/
def State.obsVar (s : State) (o : GnsObs) : Rat :=
  let sig := s.fd Fld.GNS_CH_STAT.SIG o.ch
  match o.dual with
  | none => s.codeVar sig o.cn0
  | some (sig2, cn02) =>
    let f1 : Rat := (sigCarrier sig : Nat)
    let f2 : Rat := (sigCarrier sig2 : Nat)
    let g := f1 * f1 - f2 * f2
    if g = 0 then s.codeVar sig o.cn0
    else
      let a1 := f1 * f1 / g
      let a2 := f2 * f2 / g
      a1 * a1 * s.codeVar sig o.cn0 + a2 * a2 * s.codeVar sig2 cn02

/-- Whether a measurement is used in a solution of its antenna at second `n` (R186, R189). -/
def State.usable (s : State) (a n : Nat) (o : GnsObs) : Bool :=
  let c := o.ch.val
  let sys := sigSystem (s.fd Fld.GNS_CH_STAT.SIG c)
  decide (s.fd Fld.GNS_CH_STAT.STATE c ≠ 0 ∧ s.fd Fld.GNS_CH_STAT.ANT c = a) && !o.lost && o.healthy && o.ephValid
    && decide (s.fd Fld.GNS_TRK.CN0_MIN ≤ o.cn0 ∧ s.fd Fld.GNS_TRK.MASK ≤ o.elev) && decide (s.rg .GNS_SYS_U sys ≠ 0xFFFFFFFF#32)
    && (decide (sys ≠ 3) || s.glonassOk n) && decide (SMap.get (fun _ => 0) s.gns.excl c ≤ n)

/-- The unknowns of a fit (R188, R193): x, one inter-system offset for each other system in use, three coordinates in SURVEY. -/
structure FitPlan where
  systems : List Nat
  survey  : Bool
  deriving DecidableEq, Repr

/-- The number of unknowns. -/
def FitPlan.size (p : FitPlan) : Nat := 1 + p.systems.length + (if p.survey then 3 else 0)

/-- The row of an observation. -/
def State.fitRow (s : State) (a n : Nat) (p : FitPlan) (o : GnsObs) : FitRow :=
  let sys := sigSystem (s.fd Fld.GNS_CH_STAT.SIG o.ch)
  let off := p.systems.map (fun k => if k = sys then (1 : Rat) else 0)
  let pos : List Rat := if p.survey then [(o.ux : Rat) / 1048576, (o.uy : Rat) / 1048576, (o.uz : Rat) / 1048576] else []
  { a := 1 :: off ++ pos, z := (s.obsZ a n o : Rat), w := 1 / s.obsVar o }

/-- The residual of a row. -/
def FitRow.residual (r : FitRow) (x : List Rat) : Rat := r.z - ratSum (List.zipWith (fun p q => p * q) r.a x)

/-- Why or how an epoch's solution came out. -/
inductive SolveEnd where
  | none
  | raimFail
  | ok (x : Rat) (varX : Rat) (pos : List Rat) (posVar : Rat) (used : List GnsObs) (weights : List Rat)
  deriving DecidableEq, Repr

/-- The observation with the largest normalised residual (squared), and that square. -/
def worstObs (rows : List (GnsObs × FitRow)) (x : List Rat) : Option (GnsObs × Rat) :=
  rows.foldl (fun best r =>
    let q := (r.2.residual x) * (r.2.residual x) * r.2.w
    match best with
    | none => some (r.1, q)
    | some b => if b.2 < q then some (r.1, q) else some b) none

/-- The solution of an antenna with fault exclusion (R193): what it is, and the channels excluded. -/
def State.solveEpoch (s : State) (a n : Nat) : Nat → List GnsObs → List Nat → SolveEnd × List Nat
  | fuel, obs, excl =>
    let tsys := s.fd Fld.GNS_ANT_CFG.TSYS a
    let sysOf := fun (o : GnsObs) => sigSystem (s.fd Fld.GNS_CH_STAT.SIG o.ch)
    let plan : FitPlan := ⟨((obs.map sysOf).filter (fun k => decide (k ≠ tsys))).dedup, !s.fb Fld.GNS_ANT_CFG.MODE a⟩
    let u := plan.size
    let rows := obs.map (fun o => (o, s.fitRow a n plan o))
    if obs.length < u + 1 then (.none, excl)
    else match solveFit u (rows.map (fun r => r.2)) with
      | none => (.none, excl)
      | some (inv, x) =>
        let thr : Rat := (s.fd Fld.GNS_RAIM.ZTHR : Nat) / 10
        let first := inv.getD 0 []
        let ws := rows.map (fun r => r.2.w * ratSum (List.zipWith (fun p q => p * q) first r.2.a))
        let k := 1 + plan.systems.length
        let pv := if plan.survey then ratSum ([k, k + 1, k + 2].map (fun i => (inv.getD i []).getD i 0)) else 0
        let done : SolveEnd := .ok (x.getD 0 0) (first.getD 0 0) (x.drop k) pv obs ws
        match worstObs rows x with
        | none => (done, excl)
        | some (o, q) =>
          if q ≤ thr * thr then (done, excl)
          else match fuel with
            | 0 => (.raimFail, excl)
            | f + 1 =>
              if obs.length < u + 2 then (.raimFail, excl)
              else State.solveEpoch s a n f (obs.filter (fun y => decide (y.ch ≠ o.ch))) (o.ch.val :: excl)

/-- A non-negative rational rounded upward. -/
def ratUp (q : Rat) : Nat := (-((-q).floor)).toNat

/-- The square root of a rational rounded upward. -/
def ratSqrtUp (q : Rat) : Nat := sqrtUp (ratUp q)

/-- The time-channel term of a port in 2^-16 ns (R192): Table 4.5 without its input delay; uncalibrated before a conversion. -/
def State.timeChannelTerm (s : State) (p : Nat) : Nat :=
  ceilDiv (SMap.get (fun _ => 406000000) s.gns.tcTerm p * 65536) (10 ^ 9)

/-- The bound of a solution in 2^-8 ns (Table 8.4); none while a declaration is missing (UNDECL). -/
def State.solutionBound (s : State) (a p : Nat) (varX : Rat) (used : List GnsObs) (ws : List Rat) : Option (BitVec 32) :=
  let tsys := s.fd Fld.GNS_ANT_CFG.TSYS a
  let fixed := s.fb Fld.GNS_ANT_CFG.MODE a
  let mp := s.rg .GNS_ANT_MP a
  let du := s.rg .GNS_ANT_DELAY_U a
  let pu := s.rg .GNS_ANT_POS_U a
  let su := s.rg .GNS_SYS_U tsys
  if mp = 0xFFFFFFFF#32 ∨ du = 0xFFFFFFFF#32 ∨ su = 0xFFFFFFFF#32 ∨ (fixed ∧ pu = 0xFFFFFFFF#32) then none
  else
    let pairs := List.zipWith (fun (o : GnsObs) (w : Rat) => (o, w)) used ws
    let iono := ratSum (pairs.map (fun e => if e.1.dual.isSome then 0 else e.2 * (e.1.iono : Nat)))
    let trop := ratSum (pairs.map (fun e => e.2 * (e.1.trop : Nat)))
    let dual := used.any (fun o => o.dual.isSome)
    let prop := (if dual then ceilDiv (30 * 65536) 100 else 0) + ratUp (3 / 2 * iono) + ratUp (trop / 20)
    let pos := if fixed then ceilDiv (3 * pu.toNat * 65536 * 1000000) 299792458 else 0
    let sum := ratSqrtUp (9 * varX) + s.timeChannelTerm p + mp.toNat * 256 + prop + du.toNat * 256 + pos + su.toNat * 256
    some (match s.clkFactor with
      | some _ => satWord (ceilDiv sum 256)
      | none => 0xFFFFFFFF#32)

/-- Centimetres of a light-time in 2^-16 ns. -/
def cmOf (x : Rat) : Int := (x / 65536 * 29979 / 1000).floor

/-- One epoch's estimate added to an antenna's survey, which completes when its time and target are met (R191). -/
def State.surveyStep (s : State) (a n : Nat) (pos : List Rat) (posVar : Rat) : State :=
  let v : Survey := SMap.get (fun _ => (⟨n, 0, 0, 0, 0, 0⟩ : Survey)) s.gns.surveys a
  let mm2 := ratUp (posVar / (65536 * 65536) * (299792458 * 299792458) / 10 ^ 12)
  let v1 : Survey := { v with
    n := v.n + 1
    sx := v.sx + (s.srg .GNS_ANT_POS_X a + cmOf (pos.getD 0 0))
    sy := v.sy + (s.srg .GNS_ANT_POS_Y a + cmOf (pos.getD 1 0))
    sz := v.sz + (s.srg .GNS_ANT_POS_Z a + cmOf (pos.getD 2 0))
    var := v.var + mm2 }
  let sigma := sqrtUp (ceilDiv v1.var (v1.n * v1.n))
  if v1.from_ + s.fd Fld.GNS_ANT_SURV.DURATION a * 60 ≤ n ∧ 3 * sigma ≤ s.fd Fld.GNS_ANT_SURV.TARGET a then
    let w := fun (z : Int) => BitVec.ofInt 32 (z / (v1.n : Int))
    let s1 := (((s.wr .GNS_ANT_POS_X a (w v1.sx)).wr .GNS_ANT_POS_Y a (w v1.sy)).wr .GNS_ANT_POS_Z a (w v1.sz)).wr .GNS_ANT_POS_U a
      (BitVec.ofNat 32 (Nat.max 50 sigma))
    let s2 := (s1.setB Fld.GNS_ANT_CFG.MODE true a).setB Fld.GNS_ANT_STAT.SURVEY_DONE true a
    let s3 : State := { s2 with gns := { s2.gns with surveys := SMap.erase s2.gns.surveys a } }
    [Reg.GNS_ANT_POS_X, .GNS_ANT_POS_Y, .GNS_ANT_POS_Z, .GNS_ANT_POS_U, .GNS_ANT_CFG].foldl (fun s r => s.cairnReg r a) s3
  else { s with gns := { s.gns with surveys := SMap.insert id s.gns.surveys a v1 } }

/-- The solution of one MAIN antenna at a second (R187 to R194). -/
def State.antEpoch (s : State) (n : Nat) (obs : List GnsObs) (a : Nat) : State :=
  if !s.antMain a then s
  else match s.primary a with
    | none => s.setF Fld.GNS_ANT_STAT.SOL 0 a
    | some p =>
      let use_ := obs.filter (fun o => s.usable a n o)
      let r := s.solveEpoch a n (s.fd Fld.GNS_RAIM.MAXEX) use_ []
      let hold := n + s.fd Fld.GNS_RAIM.HOLD
      let s1 : State := { s with gns := { s.gns with excl := r.2.foldl (fun m c => SMap.insert id m c hold) s.gns.excl } }
      let s2 := (r.2.foldl (fun s c => s.setF Fld.GNS_CH_STAT.STATE 4 c) s1).setF Fld.GNS_ANT_STAT.NEXCL (Nat.min 255 r.2.length) a
      if s2.withheld a then s2.setF Fld.GNS_ANT_STAT.SOL 6 a
      else if s2.gns.resolved.isNone then s2.setF Fld.GNS_ANT_STAT.SOL 4 a
      else match r.1 with
        | .none => (s2.setF Fld.GNS_ANT_STAT.SOL 0 a).setF Fld.GNS_ANT_STAT.NUSED 0 a
        | .raimFail => (s2.setF Fld.GNS_ANT_STAT.SOL 3 a).raise { rec_ := 247 + a, cause := 12, cls := 0 }
        | .ok x varX pos posVar used ws =>
          let survey := !s2.fb Fld.GNS_ANT_CFG.MODE a
          let s3 := used.foldl (fun s o => s.setF Fld.GNS_CH_STAT.STATE 3 o.ch) s2
          let s4 := s3.setF Fld.GNS_ANT_STAT.NUSED (Nat.min 255 used.length) a
          match s4.solutionBound a p varX used ws with
          | none => s4.setF Fld.GNS_ANT_STAT.SOL 5 a
          | some b =>
            let s5 := ((s4.setF Fld.GNS_ANT_STAT.SOL (if survey then 2 else 1) a).wr .GNS_ANT_EARLY a b).wr .GNS_ANT_LATE a b
            let m : EnsSample := ⟨n, x.floor, b, b, false, []⟩
            let s6 : State := { s5 with ens := { s5.ens with meas := s5.ens.meas ++ [(8 + p, m)] } }
            if survey then s6.surveyStep a n pos posVar else s6

/-- The channels' own part of an epoch: lost channels are freed and searched again, the others show C/N0 and elevation. -/
def State.chEpoch (s : State) (o : GnsObs) : State :=
  let c := o.ch.val
  if s.fd Fld.GNS_CH_STAT.STATE c = 0 then s
  else
    let a := s.fd Fld.GNS_CH_STAT.ANT c
    let sig := s.fd Fld.GNS_CH_STAT.SIG c
    let sv := s.fd Fld.GNS_CH_STAT.SV c
    if o.lost then
      let s1 := s.wr .GNS_CH_STAT c 0
      { s1 with gns := { s1.gns with jobs := s1.gns.jobs ++ [⟨2, a, sig, sv⟩] } }
    else
      let s1 := ((s.setF Fld.GNS_CH_STAT.STATE 2 c).setF Fld.GNS_CH_STAT.CN0 (Nat.min 255 o.cn0) c).setF Fld.GNS_CH_STAT.ELEV
        (Nat.min 255 o.elev) c
      let k := (sigSystem sig, sv)
      if o.newEph ∧ !s1.gns.eph.contains k then { s1 with gns := { s1.gns with eph := s1.gns.eph ++ [k] } } else s1

/-- The resolved system time of an observation, in TAI seconds (R190). -/
def State.resolvedBy (s : State) (o : GnsObs) : Option Nat :=
  let sys := sigSystem (s.fd Fld.GNS_CH_STAT.SIG o.ch)
  if s.fd Fld.GNS_CH_STAT.STATE o.ch ≠ 0 ∧ s.resolves sys o.weekBits then
    let w := fullWeek sys o.week o.weekBits (s.pair .GNS_TIME_FLOOR_HI .GNS_TIME_FLOOR_LO).toNat
    some (systemEpoch sys + w * 604800 + s.systemToTai sys + (o.tow : Int) / sec16).toNat
  else none

/-- The epoch of the present Datum second (R187): latches, then a solution per MAIN antenna in the order of primary ports. -/
def State.epoch (s : State) (obs : List GnsObs) : State :=
  let n := s.now.sec.toNat
  if s.gns.latched = some n ∨ s.pwr.gatedGnss then s
  else
    let s1 := obs.foldl State.chEpoch s
    let res := match obs.findSome? (fun o => s1.resolvedBy o) with
      | some t => some t
      | none => s1.gns.resolved.map (fun _ => n)
    let s2 : State := { s1 with gns := { s1.gns with latched := some n, resolved := res } }
    let order := (List.range 4).filterMap (fun p => (List.range 4).find? (fun a => decide (s2.primary a = some p)))
    ((order.foldl (fun s a => s.antEpoch n obs a) s2).chCount).acqNext

/-- ANT_FLTa changes (R194). -/
def State.antFlt (s : State) (a : Nat) (level : Bool) : State :=
  let asserted := decide (level = s.fb Fld.GNS_ANT_CFG.FLT_POL a)
  let was := s.fb Fld.GNS_ANT_STAT.ANT_FLT a
  let s1 : State := { s with gns := { s.gns with fltPin := SMap.insert id s.gns.fltPin a level } }
  let s2 := s1.setB Fld.GNS_ANT_STAT.ANT_FLT asserted a
  (if asserted ∧ !was then s2.raise { rec_ := 247 + a, cause := 8, cls := 1 } else s2).withholdAll

/-! ### Snapshots (R195) -/

/-- The octets a capture takes. -/
def State.captureSize (s : State) (ports len : Nat) : Nat :=
  len * ((List.range 4).foldl (fun a p => if ports.testBit p then a + (s.rg .GNS_SP_RATE p).toNat else a) 0) / 1000

/-- A capture starts at its instant, or is refused (R195). -/
def State.startCapture (s : State) (c : Capture) : State :=
  if s.gns.running.isSome then
    let s2 := (s.setF Fld.GNS_SNAP_STAT.RESULT 2).setB Fld.GNS_WSTAT.SNAP_BUSY true
    if c.audit then s2.setF Fld.GNS_AUD_STAT.RESULT 5 else s2
  else if 8388608 < s.captureSize c.ports c.len then (s.setB Fld.GNS_SNAP_STAT.PEND s.gns.armed.isSome).gnsRange
  else if (List.range 4).any (fun p => c.ports.testBit p && !s.fb Fld.GNS_SP_STAT.RUNNING p) then
    ((s.setF Fld.GNS_SNAP_STAT.RESULT 3).setB Fld.GNS_SNAP_STAT.PEND s.gns.armed.isSome).irqPulse 104 3
  else
    let s2 : State := { s with gns := { s.gns with running := some c } }
    let s3 := (s2.setB Fld.GNS_SNAP_STAT.PEND true).setB Fld.GNS_STAT.SNAP_BUSY true
    (s3.setPair .GNS_SNAP_SEC_HI .GNS_SNAP_SEC_LO c.at_.sec).wr .GNS_SNAP_NS 0 c.at_.ns

/-- A write of GNS_SNAP_CTL: GO arms a capture at the first Datum millisecond at least 10 microseconds later. -/
def State.snapCtl (s : State) (v : BitVec 32) : State :=
  let len := Fld.GNS_SNAP_CTL.LEN.of v
  if len = 0 ∨ 100 < len then s.gnsRange
  else
    let s1 := (s.wrRw .GNS_SNAP_CTL 0 v).gnsAccept
    if !bitAt v.toNat 31 then s1
    else if s1.gns.armed.isSome ∨ s1.gns.running.isSome then
      (s1.setF Fld.GNS_SNAP_STAT.RESULT 2).setB Fld.GNS_WSTAT.SNAP_BUSY true
    else
      let ms := 1000 * usCount
      let at_ := TimeVal.ofCount (ceilDiv ((s.now.plus (10 * usCount)).count) ms * ms)
      let c : Capture := ⟨Fld.GNS_SNAP_CTL.PORTS.of v, len, at_, false⟩
      ({ s1 with gns := { s1.gns with armed := some c } }).setB Fld.GNS_SNAP_STAT.PEND true

/-- The armed capture's start instant is reached. -/
def State.snapStart (s : State) : State :=
  match s.gns.armed with
  | some c =>
    if s.reached c.at_ then
      let s1 : State := { s with gns := { s.gns with armed := none } }
      s1.startCapture c
    else s
  | none => s

/-- The capture of the GNSS snapshot block action, at its event's instant (R195, R329). -/
def State.snapAction (s : State) (at_ : TimeVal) : State :=
  s.startCapture ⟨s.fd Fld.GNS_SNAP_CTL.PORTS, s.fd Fld.GNS_SNAP_CTL.LEN, at_, false⟩

/-- A capture completes with its samples: the buffer is overwritten and SEQ increments; an audit's records wait for level 1. -/
def State.captureEnd (s : State) (data : List Byte) : State :=
  match s.gns.running with
  | none => s
  | some c =>
    if !s.reached (c.at_.plus (c.len * 1000 * usCount)) then s
    else
      let s1 : State := { s with gns := { s.gns with buffer := data.take (s.captureSize c.ports c.len) } }
      let s2 := (s1.setF Fld.GNS_SNAP_STAT.SEQ (s1.fd Fld.GNS_SNAP_STAT.SEQ + 1)).endCapture 1
      if c.audit then
        let j : AcqJob := ⟨1, s.fd Fld.GNS_AUD_CTL.MAIN, 0, 0⟩
        ({ s2 with gns := { s2.gns with audBusy := true, jobs := s2.gns.jobs ++ [j] } }).acqNext
      else s2

/-! ### The audit (R196) -/

/-- A port of an antenna, its upper-band one first. -/
def State.auditPort (s : State) (a : Nat) : Option Nat :=
  match (List.range 4).find? (fun p => s.portOf p a && !s.fb Fld.GNS_SP_CFG.BAND p) with
  | some p => some p
  | none => s.primary a

/-- The audit schedule: a capture of both antennas at once, every PERIOD seconds. -/
def State.auditSchedule (s : State) : State :=
  let n := s.now.sec.toNat
  if !s.fb Fld.GNS_AUD_CTL.EN || decide (n < s.gns.audLast + s.fd Fld.GNS_AUD_CTL.PERIOD) || s.pwr.gatedGnss then s
  else
    let s1 : State := { s with gns := { s.gns with audLast := n } }
    let bit : Nat → Nat := fun a => match s.auditPort a with
      | some p => 2 ^ p
      | none => 0
    let ports := bit (s.fd Fld.GNS_AUD_CTL.MAIN) ||| bit (s.fd Fld.GNS_AUD_CTL.AUDIT)
    s1.startCapture ⟨ports, s.fd Fld.GNS_AUD_CTL.LEN, s.now, true⟩

/-- The residuals of the audit fit in cm: δ_i + u_i · (r_AUDIT - r_MAIN) less the common bias, and their RMS (R196). -/
def State.auditRms (s : State) (ds : List AuditDelta) : Nat :=
  let m := s.fd Fld.GNS_AUD_CTL.MAIN
  let a := s.fd Fld.GNS_AUD_CTL.AUDIT
  let dx := s.srg .GNS_ANT_POS_X a - s.srg .GNS_ANT_POS_X m
  let dy := s.srg .GNS_ANT_POS_Y a - s.srg .GNS_ANT_POS_Y m
  let dz := s.srg .GNS_ANT_POS_Z a - s.srg .GNS_ANT_POS_Z m
  let e := ds.map (fun d => d.delta * 1048576 + d.ux * dx + d.uy * dy + d.uz * dz)
  let n : Int := (ds.length : Nat)
  let k := if n = 0 then 0 else (e.foldl (fun x y => x + y) 0) / n
  let sq := e.foldl (fun x y => x + ((y - k).natAbs) ^ 2) 0
  if ds.length = 0 then 0 else Nat.sqrt (sq / ds.length) / 1048576

/-- The audit completes (R196). -/
def State.auditDone (s : State) (ds : List AuditDelta) : State :=
  if !s.gns.audBusy then s
  else
    let rms := s.auditRms ds
    let res := if ds.length < s.fd Fld.GNS_AUD_CTL.NMIN then 3 else if s.fd Fld.GNS_AUD_THR.THR < rms then 2 else 1
    let pass := if res = 1 then s.gns.audPass + 1 else if res = 2 then 0 else s.gns.audPass
    let s1 : State := { s with gns := { s.gns with audBusy := false, audPass := pass, job := match s.gns.job with
      | some j => if j.level = 1 then none else some j
      | none => none } }
    let s2 := ((s1.setF Fld.GNS_AUD_STAT.RESULT res).setF Fld.GNS_AUD_STAT.NSAT (Nat.min 255 ds.length)).setF Fld.GNS_AUD_STAT.RMS
      (Nat.min 0xFFFFF rms)
    let s3 := s2.irqPulse 105 res
    let s4 := if res = 2 then
        (s3.setB Fld.GNS_STAT.AUD_ALARM true).raise { rec_ := 247 + s.fd Fld.GNS_AUD_CTL.MAIN, cause := 11, cls := 2 }
      else if res = 1 ∧ 2 ≤ pass then s3.setB Fld.GNS_STAT.AUD_ALARM false
      else s3
    s4.withholdAll.acqNext

/-! ### The time floor and the hourly commit (R184, R190) -/

/-- The committed floor is written, with its copy in the Cairn store. -/
def State.floorSet (s : State) (v : BitVec 64) : State :=
  let s1 := s.setPair .GNS_TIME_FLOOR_HI .GNS_TIME_FLOOR_LO v
  let s2 := (s1.cairnReg .GNS_TIME_FLOOR_HI 0).cairnReg .GNS_TIME_FLOOR_LO 0
  { s2 with gns := { s2.gns with floorStaged := v.extractLsb' 32 32 } }

/-- A commit of the floor's low word with the staged high word. -/
def State.floorCommit (s : State) (lo : BitVec 32) : State := s.gnsAccept.floorSet (s.gns.floorStaged ++ lo)

/-- The floor's day of the last raise. -/
def State.floorDay (s : State) (day : Nat) : State := { s with gns := { s.gns with floorDay := day } }

/-- The daily raise of the committed floor to the resolved time less 7 days. -/
def State.floorRaise (s : State) : State :=
  match s.gns.resolved with
  | none => s
  | some t =>
    let day := s.now.sec.toNat / 86400
    if s.gns.floorDay = day then s
    else if (s.pair .GNS_TIME_FLOOR_HI .GNS_TIME_FLOOR_LO).toNat < t - 7 * 86400 then
      (s.floorDay day).floorSet (BitVec.ofNat 64 (t - 7 * 86400))
    else s.floorDay day

/-- The hourly commit of ephemerides and almanacs (R184). -/
def State.ephCommit (s : State) : State :=
  let h := s.now.sec.toNat / 3600
  if s.gns.ephCommit = h then s
  else { s with
    gns := { s.gns with ephCommit := h }
    cairn := { s.cairn with eph := s.gns.eph } }

/-! ### Register writes -/

/-- A write of GNS_ANTa_CFG (R182, R183, R186, R191): SIG must name only signals that a running port of the antenna passes; an
antenna that becomes MAIN or gains signals is searched; MODE is committed to the Cairn store. -/
def State.antCfg (s : State) (a : Nat) (v : BitVec 32) : State :=
  let old := s.rg .GNS_ANT_CFG a
  let new := (List.range 9).filter (fun i => v.getLsbD i && !old.getLsbD i)
  if Fld.GNS_ANT_CFG.ROLE.of v = 3 ∨ 192 < Fld.GNS_ANT_CFG.CHMAX.of v ∨ new.any (fun i => !s.antPasses a i) then s.gnsRange
  else
    let s1 := ((s.wrRw .GNS_ANT_CFG a v).cairnReg .GNS_ANT_CFG a).gnsAccept
    let s2 := s1.dropChannels (fun c => decide (s1.fd Fld.GNS_CH_STAT.ANT c = a) &&
      (!s1.antMain a || !(s1.rg .GNS_ANT_CFG a).getLsbD (s1.fd Fld.GNS_CH_STAT.SIG c)))
    let s3 : State := if Fld.GNS_ANT_CFG.MODE.of old = 1 ∧ !s2.fb Fld.GNS_ANT_CFG.MODE a then
        { (s2.setB Fld.GNS_ANT_STAT.SURVEY_DONE false a) with gns := { s2.gns with surveys := SMap.erase s2.gns.surveys a } }
      else s2
    let s4 := s3.setB Fld.GNS_ANT_STAT.ANT_FLT (decide (SMap.get (fun _ => true) s3.gns.fltPin a = s3.fb Fld.GNS_ANT_CFG.FLT_POL a)) a
    if s4.antMain a then
      (((List.range 9).foldl (fun s i => if (s.rg .GNS_ANT_CFG a).getLsbD i ∧ s.antPasses a i then s.acqQueue a i else s) s4).acqNext).withholdAll
    else s4

/-- A write of an antenna position register (R191): it ends a survey, and the host's values are used and committed. -/
def State.antPos (s : State) (r : Reg) (a : Nat) (v : BitVec 32) : State :=
  let s1 := ((s.wr r a v).setB Fld.GNS_ANT_CFG.MODE true a).gnsAccept
  let s2 : State := { s1 with gns := { s1.gns with surveys := SMap.erase s1.gns.surveys a } }
  (s2.cairnReg r a).cairnReg .GNS_ANT_CFG a

/-- A plain write accepted when a range holds. -/
def State.gnsPlain (s : State) (r : Reg) (n : Nat) (v : BitVec 32) (ok : Bool) : State :=
  if ok then (s.wrRw r n v).gnsAccept else s.gnsRange

/-- A write of GNS_ACQ_CTL (R185). -/
def State.acqCtl (s : State) (v : BitVec 32) : State :=
  let n := Fld.GNS_ACQ_CTL.NONCOH.of v
  if n = 0 ∨ 100 < n then s.gnsRange
  else
    let s1 := (s.wrRw .GNS_ACQ_CTL 0 v).gnsAccept
    (if bitAt v.toNat 31 then s1.acqAbort else s1).acqNext

/-- A register write of the block as it takes effect. -/
def State.gnsWrite (s : State) (r : Reg) (n : Nat) (v : BitVec 32) : State :=
  if r = .GNS_WSTAT then s.w1c r n v
  else if r = .GNS_TIME_FLOOR_HI then ({ s with gns := { s.gns with floorStaged := v } }).gnsAccept
  else if r = .GNS_TIME_FLOOR_LO then s.floorCommit v
  else if r = .GNS_TRK then
    s.gnsPlain r n v (decide (4 ≤ Fld.GNS_TRK.DEL.of v ∧ Fld.GNS_TRK.DEL.of v ≤ 32 ∧ 2 ≤ Fld.GNS_TRK.NARROW.of v
      ∧ Fld.GNS_TRK.NARROW.of v ≤ 16 ∧ Fld.GNS_TRK.NARROW.of v < Fld.GNS_TRK.DEL.of v ∧ Fld.GNS_TRK.DISC.of v ≠ 3
      ∧ Fld.GNS_TRK.MASK.of v ≤ 60 ∧ 1 ≤ Fld.GNS_TRK.DLL_BW.of v ∧ Fld.GNS_TRK.DLL_BW.of v ≤ 40))
  else if r = .GNS_RAIM then
    s.gnsPlain r n v (decide (20 ≤ Fld.GNS_RAIM.ZTHR.of v ∧ Fld.GNS_RAIM.ZTHR.of v ≤ 200 ∧ Fld.GNS_RAIM.MAXEX.of v ≤ 8
      ∧ 1 ≤ Fld.GNS_RAIM.HOLD.of v))
  else if r = .GNS_ACQ_CTL then s.acqCtl v
  else if r = .GNS_AUD_CTL then
    s.gnsPlain r n v (decide (10 ≤ Fld.GNS_AUD_CTL.LEN.of v ∧ Fld.GNS_AUD_CTL.LEN.of v ≤ 100 ∧ 5 ≤ Fld.GNS_AUD_CTL.NMIN.of v
      ∧ 60 ≤ Fld.GNS_AUD_CTL.PERIOD.of v) && (!bitAt v.toNat 31 || (s.antMain (Fld.GNS_AUD_CTL.MAIN.of v)
      && decide (s.fd Fld.GNS_ANT_CFG.ROLE (Fld.GNS_AUD_CTL.AUDIT.of v) = 2))))
  else if r = .GNS_SNAP_CTL then s.snapCtl v
  else if r = .GNS_CTL_CFG then s.gnsPlain r n v (decide (1 ≤ Fld.GNS_CTL_CFG.DIV.of v))
  else if r = .GNS_CTL_CMD then s.ctlCmd v
  else if r = .GNS_SP_CFG then s.spCfg n v
  else if r = .GNS_SP_RATE then s.gnsPlain r n v (decide (2046000 ≤ v.toNat ∧ v.toNat ≤ 81840000))
  else if r = .GNS_SP_FC then s.gnsPlain r n v (decide (1150000 ≤ v.toNat ∧ v.toNat ≤ 1620000))
  else if r = .GNS_ANT_CFG then s.antCfg n v
  else if r = .GNS_ANT_POS_X ∨ r = .GNS_ANT_POS_Y ∨ r = .GNS_ANT_POS_Z ∨ r = .GNS_ANT_POS_U then s.antPos r n v
  else if r.row.rw ≠ 0 ∨ r.row.rwg ≠ 0 then s.gnsPlain r n v true
  else s

end Sys2Proof.Machine
end

