-- ==== Sys2Proof/Machine/PrtOps.lean ====
section
/-!
DEFINITION. Machine/PrtOps.lean: the ports (09_ports_timestamping.md): launch points and the launch gate, the frame pool, the
receive path, the transmit queues with their rate ceilings, pauses, the port's start and its in-situ calibration.
Instants of the line are counted in 2^-32/825 ns: in that unit every unit interval of Table 9.1 is a whole number.
-/
namespace Sys2Proof.Machine

/-- A port's record. -/
def State.port (s : State) (n : Nat) : Port := SMap.get (fun _ => Port.reset) s.prt.ports n

/-- The state with a port's record replaced. -/
def State.setPort (s : State) (n : Nat) (p : Port) : State :=
  { s with prt := { s.prt with ports := SMap.set id (fun _ => Port.reset) s.prt.ports n p } }

/-- One nanosecond in line units. -/
def lineNs : Nat := 825 * 2 ^ 32

/-- A line instant to the nearest 2^-32 ns (R207). -/
def lineRound (x : Nat) : TimeVal := TimeVal.ofCount ((x + 412) / 825)

/-! ### Modes and launch points (Table 9.1, R208) -/

/-- What a port's mode fixes: the unit interval, the launch-point spacing and the frame-start offset (line units), whether the
mode has RS-FEC, uses four lanes, is 8b/10b coded, the spacing and the pause quantum in 0.01 ns, and the time of one octet of
R210's data rate in 0.01 ns. -/
structure LineMode where
  ui      : Nat
  space   : Nat
  off     : Nat
  fec     : Bool
  wide    : Bool
  ge      : Bool
  space100 : Nat
  quantum : Nat
  octet   : Nat

/-- The mode of a port. -/
def State.lineMode (s : State) (n : Nat) : LineMode :=
  let m := s.fd Fld.PRT_CFG.MODE n
  let u25 := 32 * 2 ^ 32
  if m ≤ 1 then ⟨660 * 2 ^ 32, 16 * lineNs, 80 * 660 * 2 ^ 32, false, false, true, 1600, 51200, 800⟩
  else if m = 2 then ⟨80 * 2 ^ 32, 66 * 80 * 2 ^ 32, 68 * 80 * 2 ^ 32, false, false, false, 640, 5120, 80⟩
  else if m = 3 then
    if s.fb Fld.PRT_CFG.FEC n then ⟨u25, 264 * u25, 65 * u25, true, false, false, 1024, 2048, 32⟩
    else ⟨u25, 66 * u25, 68 * u25, false, false, false, 256, 2048, 32⟩
  else ⟨u25, 66 * u25, 65 * u25, true, true, false, 256, 512, 32⟩

/-- The time of one RS-FEC codeword on a lane. -/
def LineMode.codeword (m : LineMode) : Nat := if m.wide then 1320 * m.ui else 5280 * m.ui

/-- The time from a codeword's start to its bit `b` on its lane: in the four-lane mode the 10-bit symbols go round the lanes. -/
def LineMode.bit (m : LineMode) (b : Nat) : Nat := if m.wide then (b / 10 / 4 * 10 + b % 10) * m.ui else b * m.ui

/-- The cycle after which the alignment markers recur. PRESUMED: 1 024 codewords with one marker group (Clause 108), 4 096 with
five (Clause 91). -/
def LineMode.cycle (m : LineMode) : Nat := if m.fec then (if m.wide then 4096 else 1024) * m.codeword else m.space

/-- Whether group `i` carries an alignment marker. -/
def LineMode.marker (m : LineMode) (i : Nat) : Bool :=
  m.fec && (if m.wide then decide (i % (20 * 4096) < 5) else decide (i % (20 * 1024) < 1))

/-- The instant of bit `b` of group `i` in an RS-FEC mode. -/
def LineMode.groupBit (m : LineMode) (phase i b : Nat) : Nat :=
  phase % m.cycle + i / 20 * m.codeword + m.bit (257 * (i % 20) + b)

/-- The frame start of launch point `i`. -/
def LineMode.start (m : LineMode) (phase i : Nat) : Nat :=
  if m.fec then m.groupBit phase i 0 else phase % m.space + i * m.space - m.off

/-- Launch point `i` (R208). -/
def LineMode.point (m : LineMode) (phase i : Nat) : Nat :=
  if m.fec then m.groupBit phase i 65 else phase % m.space + i * m.space

/-- A number of a launch point at or before an instant. -/
def LineMode.index (m : LineMode) (phase x : Nat) : Nat :=
  let d := x - phase % m.cycle
  if m.fec then d / m.codeword * 20 - 20 else d / m.space

/-- The first launch point from number `i` on that a predicate of its number accepts. -/
def LineMode.first (m : LineMode) (i : Nat) (ok : Nat → Bool) : Option Nat :=
  ((List.range 64).map (fun j => i + j)).find? (fun k => !m.marker k && ok k)

/-- The number of the first launch point of a port at or after an instant (R83). -/
def State.launchIndex (s : State) (n : Nat) (t : TimeVal) : Option Nat :=
  let m := s.lineMode n
  let ph := (s.port n).phase
  m.first (m.index ph (t.line - 825)) (fun k => decide (t.count ≤ (lineRound (m.point ph k)).count))

/-- The first launch point of a port at or after an instant. -/
def State.launchPoint (s : State) (n : Nat) (t : TimeVal) : Option TimeVal :=
  (s.launchIndex n t).map (fun k => lineRound ((s.lineMode n).point (s.port n).phase k))

/-- The first launch point whose frame start is at or after a line instant. -/
def State.startIndex (s : State) (n x : Nat) : Option Nat :=
  let m := s.lineMode n
  let ph := (s.port n).phase
  m.first (m.index ph x) (fun k => decide (x ≤ m.start ph k))

/-- The group `c` groups after group `i`, alignment markers left out. -/
def LineMode.after (m : LineMode) : Nat → Nat → Nat
  | i, 0 => i
  | i, c + 1 => ((m.first (LineMode.after m i c + 1) (fun _ => true)).getD (LineMode.after m i c + 1))

/-- The instant of the last bit of a frame of `len` octets with its FCS that begins at launch point `i`, its terminating control
included, and the instant from which R206 permits a new frame: 12 octets after that control. -/
def LineMode.ends (m : LineMode) (phase i len : Nat) : Nat × Nat :=
  let st := m.start phase i
  if m.ge then (st + (9 + len) * 10 * m.ui, st + (21 + len) * 10 * m.ui)
  else
    let e := (8 + len) / 8
    let nb := ceilDiv (21 + len) 8
    if m.fec then
      (m.groupBit phase (m.after i (e / 4)) (64 * (e % 4 + 1)) + m.ui, m.start phase (m.after i (ceilDiv nb 4)))
    else (st + (e + 1) * 66 * m.ui, st + nb * 66 * m.ui)

/-! ### The guard band (R210) -/

/-- g_auto in 0.01 ns for a PRT_MAXFRAME. -/
def LineMode.gAuto (m : LineMode) (maxFrame : Nat) : Nat := (ceilDiv ((maxFrame + 20) * m.octet) m.space100 + 2) * m.space100

/-- G of a port in line units. -/
def State.guard (s : State) (n : Nat) : Nat :=
  let g := s.fd Fld.PRT_LAUNCH_GUARD.GUARD n
  if g = 0 then (s.lineMode n).gAuto (s.fd Fld.PRT_MAXFRAME.MAX n) * (33 * 2 ^ 30) else g * lineNs

/-- Whether a port's link is up. -/
def State.linkUp (s : State) (n : Nat) : Bool := s.fb Fld.PRT_STAT.LINK n

/-- PRT_LAUNCH_GUARD.AUTO brought up to date: whole nanoseconds, rounded up; zero while the link is down. -/
def State.showAuto (s : State) (n : Nat) : State :=
  let g := if s.linkUp n then ceilDiv ((s.lineMode n).gAuto (s.fd Fld.PRT_MAXFRAME.MAX n)) 100 else 0
  s.setF Fld.PRT_LAUNCH_GUARD.AUTO g n

/-! ### Port terms (R217) -/

/-- The three rows of a term of Table 9.5: residual, noise, clock path, in ps. -/
def portRows (mode : Nat) (fec rx : Bool) : Nat × Nat × Nat :=
  if mode ≤ 1 then (if rx then (10, 24, 1) else (6, 3, 1))
  else if mode = 2 then (if rx then (4, 12, 1) else (3, 2, 1))
  else if fec ∨ mode = 4 then (if rx then (8, 9, 1) else (2, 2, 1))
  else if rx then (3, 9, 1) else (2, 2, 1)

/-- SYN13's coast term (R164, R217), in 2^-16 ns. -/
def State.coast13 (s : State) : Nat :=
  if s.loopState 13 = 5 then psTerm 20 + s.fd Fld.SYN_PHERR.PEAK 13 * 256 else 0

/-- A port term from its rows, the quad and T_cal, in 2^-16 ns; none where its derating is unbounded (R402). -/
def State.portSum (s : State) (rows : Nat × Nat × Nat) (quad : Nat) (temp : Int) : Side :=
  match s.quadFactor quad with
  | none => none
  | some f =>
    let (r, n, c) := rows
    let dt := (s.quadTemp quad - temp).natAbs
    some (ceilDiv ((r * 100000 + n * 100 * f + c * 100000 + dt * 1000) * 65536) (10 ^ 8) + s.coast13)

/-- Q_p (`rx`) or L_p of a port, in 2^-16 ns; none while it is unbounded. -/
def State.portTerm (s : State) (n : Nat) (rx : Bool) : Side :=
  if s.fd Fld.PRT_STAT.CAL n = 2 then
    s.portSum (portRows (s.fd Fld.PRT_CFG.MODE n) (s.fb Fld.PRT_CFG.FEC n) rx) (n / 4) (s.port n).temp
  else none

/-- The bound of a timestamp or departure of a port at an instant (R143, R207), unbounded while a replica mismatch is pending. -/
def State.portBound (s : State) (n : Nat) (rx : Bool) (t : TimeVal) : Bound :=
  if !s.replicaOk then Bound.unbounded
  else
    let d := s.datumSides t
    let q := s.portTerm n rx
    boundOf (Side.add d.1 q) (Side.add d.2 q)

/-! ### Events of a port -/

/-- The port's PRT_EVENT source pulses with the new LINK and CAL (Table 13.1). -/
def State.prtEvent (s : State) (n : Nat) : State :=
  s.irqPulse (128 + n) (bit01 (s.linkUp n) + s.fd Fld.PRT_STAT.CAL n * 2)

/-- A change of PRT_STAT.CAL. -/
def State.setCal (s : State) (n cal : Nat) : State :=
  if s.fd Fld.PRT_STAT.CAL n = cal then s else (s.setF Fld.PRT_STAT.CAL cal n).prtEvent n

/-! ### The frame pool (R82) -/

/-- The cells of a cluster's frame pool: 512 KiB of 256 octets. -/
def poolCells : Nat := 2048

/-- The cells a frame takes. -/
def cellsOf (len : Nat) : Nat := ceilDiv len 256

/-- The thread address of a cell (Table 3.5). -/
def cellAddr (cell : Nat) : Nat := 0x180000 + cell * 256

/-- The model's flat address of a CMEM address of a cluster. -/
def cmemFlat (c a : Nat) : Nat := cmemBase c + (a - 0x100000)

/-- Whether `k` cells from `i` are free. -/
def State.cellsFree (s : State) (c i k : Nat) : Bool :=
  decide (i + k ≤ poolCells) &&
    s.frames.all (fun e => decide (e.2.cluster ≠ c ∨ i + k ≤ e.2.cell ∨ e.2.cell + cellsOf e.2.len ≤ i))

/-- The lowest free run of `k` cells, which begins at the pool's start or behind a frame. -/
def State.findCells (s : State) (c k : Nat) : Option Nat :=
  let starts := 0 :: (s.frames.filter (fun e => decide (e.2.cluster = c))).map (fun e => e.2.cell + cellsOf e.2.len)
  (starts.filter (fun i => s.cellsFree c i k)).foldl (fun m i =>
    match m with
    | none => some i
    | some j => some (Nat.min i j)) none

/-- The handle of a frame. DESIGN CHOICE: its cluster and its first cell. -/
def frameHandle (c cell : Nat) : Nat := c * poolCells + cell

/-- A frame of `len` octets allocated in a cluster's pool. -/
def State.allocFrame (s : State) (c len : Nat) (f : Frame) : Option (Nat × State) :=
  match s.findCells c (cellsOf len) with
  | none => none
  | some i =>
    let h := frameHandle c i
    let s1 := s.setFrame h { f with cluster := c, cell := i, len := len }
    some (h, { s1 with prt := { s1.prt with sent := SMap.erase s1.prt.sent h } })

/-- The octets of a frame. -/
def State.frameData (s : State) (f : Frame) : List Byte := s.octets (cmemFlat f.cluster (cellAddr f.cell)) f.len

/-- A frame freed after its submission ended, with the departure that PTSB reports (R82, R206). -/
def State.sentFrame (s : State) (h port : Nat) (dep : Option TimeVal) : State :=
  let s1 := s.freeFrame h
  { s1 with prt := { s1.prt with sent := SMap.insert id s1.prt.sent h (port, dep) } }

/-! ### Frames on the line -/

/-- CRC-32 of IEEE 802.3, one bit. PRESUMED. -/
def crcBit (c : BitVec 32) : BitVec 32 := if c.getLsbD 0 then (c >>> 1) ^^^ 0xEDB88320#32 else c >>> 1

/-- CRC-32, one octet. -/
def crcOctet (c : BitVec 32) (b : Byte) : BitVec 32 :=
  crcBit (crcBit (crcBit (crcBit (crcBit (crcBit (crcBit (crcBit (c ^^^ b.zeroExtend 32))))))))

/-- The FCS of octets, as its four octets in the order sent. -/
def fcsOf (bs : List Byte) : List Byte := leBytes 4 (~~~(bs.foldl crcOctet 0xFFFFFFFF#32)).toNat

/-- Octets `i` to `i + n - 1` of a list as a big-endian number. -/
def beAt (bs : List Byte) (i n : Nat) : Nat := ((bs.drop i).take n).foldl (fun a b => a * 256 + b.toNat) 0

/-- The offset behind the EtherType, past up to two VLAN tags. -/
def etherOff (bs : List Byte) : Nat :=
  let tag := fun (i : Nat) => decide (beAt bs i 2 = 0x8100 ∨ beAt bs i 2 = 0x88A8)
  if tag 12 then (if tag 16 then 22 else 18) else 14

/-- The class of a UDP destination port over IPv4 or IPv6 (Table 9.4). -/
def udpClass (port : Nat) : Nat := if port = 319 then 0 else if port = 320 then 1 else if port = 123 then 2 else 5

/-- The receive class of a frame without its FCS (R203, Table 9.4). -/
def rxClass (bs : List Byte) : Nat :=
  let o := etherOff bs
  let ty := beAt bs (o - 2) 2
  let mt := beAt bs o 1 % 16
  if ty = 0x88F7 then (if mt ≤ 3 then 0 else if 8 ≤ mt ∧ mt ≤ 13 then 1 else 6)
  else if ty = 0x8809 then (if beAt bs o 1 = 0x0A then 3 else 6)
  else if ty = 0x0806 then 4
  else if ty = 0x0800 then
    if beAt bs (o + 6) 2 % 0x4000 = 0 ∧ beAt bs (o + 9) 1 = 17 then udpClass (beAt bs (o + beAt bs o 1 % 16 * 4 + 2) 2) else 5
  else if ty = 0x86DD then
    let nh := beAt bs (o + 6) 1
    if nh = 17 then udpClass (beAt bs (o + 42) 2)
    else if nh = 58 ∧ (beAt bs (o + 40) 1 = 135 ∨ beAt bs (o + 40) 1 = 136) then 4
    else 5
  else 6

/-! ### The receive path (R201 to R204, R211, R212) -/

/-- Whether a frame is a flow-control frame: 1 PAUSE, 2 PFC. -/
def flowKind (bs : List Byte) : Option Nat :=
  if beAt bs 12 2 = 0x8808 then (if beAt bs 14 2 = 0x0001 then some 1 else if beAt bs 14 2 = 0x0101 then some 2 else none) else none

/-- The pause times by queue that a flow-control frame names (R211). -/
def State.pauseTimes (s : State) (n kind : Nat) (bs : List Byte) : List (Nat × Nat) :=
  if kind = 1 then (if s.fb Fld.PRT_CFG.RX_PAUSE n then (List.range 8).map (fun q => (q, beAt bs 16 2)) else [])
  else if s.fb Fld.PRT_CFG.RX_PFC n then
    (List.range 8).filterMap (fun q =>
      let p := bitsOf (s.rg .PRT_PFC_MAP n).toNat (4 * q + 2) (4 * q)
      if bitAt (beAt bs 16 2) p then some (q, beAt bs (18 + 2 * p) 2) else none)
  else []

/-- T_act of a flow-control frame received at T_rx: 100 ns later. -/
def pauseAct (trx : TimeVal) : Nat := trx.line + 100 * lineNs

/-- The receive buffer of a port in octets: 64 KiB, 256 KiB for the four lanes of 100GBASE-R (R199, R204). -/
def State.rxCapacity (s : State) (n : Nat) : Nat := if s.fd Fld.PRT_CFG.MODE n = 4 then 262144 else 65536

/-- The octets in a receive buffer. -/
def Port.rxUsed (p : Port) : Nat := (p.rx.map (fun f => f.data.length + 4)).foldl (· + ·) 0

/-- The target octet of a receive class in PRT_RXMAP0 and PRT_RXMAP1. -/
def State.rxMap (s : State) (n cls : Nat) : Nat :=
  let w := if cls < 4 then s.rg .PRT_RXMAP0 n else s.rg .PRT_RXMAP1 n
  bitsOf w.toNat (cls % 4 * 8 + 7) (cls % 4 * 8)

/-- The first frame of a receive buffer removed. -/
def State.rxPop (s : State) (n : Nat) : State := s.setPort n { (s.port n) with rx := (s.port n).rx.drop 1 }

/-- Complete frames move from the buffer into the pool in arrival order and are delivered; a frame for which the pool has no
cells holds back those behind it (R203, R204). -/
def State.rxDrain (s : State) (n : Nat) : Nat → State
  | 0 => s
  | fuel + 1 =>
    match (s.port n).rx with
    | [] => s
    | f :: _ =>
      let m := s.rxMap n f.cls
      let th := 32 * (n / 4) + m % 32
      let t := s.thread th
      if bitAt m 7 then State.rxDrain ((s.rxPop n).bump .PRT_RX_DROP n) n fuel
      else if t.st ≠ .ready ∧ t.st ≠ .wait then State.rxDrain ((s.rxPop n).bump .PRT_RX_NOTHREAD n) n fuel
      else if !t.hasFree then State.rxDrain ((s.rxPop n).bump .STK_NOTICE_DROP (coreOf th)) n fuel
      else
        let fr : Frame := { cluster := n / 4, cell := 0, len := f.data.length, holder := some th, frozen := false, port := n, cls := f.cls, stamp := .ingress f.at_, stampOk := f.ok, times := [], bounds := [] }
        match s.allocFrame (n / 4) f.data.length fr with
        | none => s
        | some (h, s1) =>
          let c := h % poolCells
          let s2 := (s1.storeMem (cmemFlat (n / 4) (cellAddr c)) f.data).rxPop n
          let s3 := s2.pmcCluster (n / 4) 0x46 (some n)
          State.rxDrain (s3.notify th (s3.mkNotice .frame 0 h f.at_ 1 n)) n fuel

/-- A frame received whole (R201 to R204, R211, R212): octets from the destination address to the end of the FCS, whether a code
or block error fell within it, its ingress timestamp and T_rx. -/
def State.frameIn (s : State) (n : Nat) (data : List Byte) (codeErr : Bool) (at_ trx : TimeVal) : State :=
  if !s.linkUp n then s
  else if data.length ≤ 63 then s.bump .PRT_RX_RUNT n
  else if s.fd Fld.PRT_MAXFRAME.MAX n < data.length then s.bump .PRT_RX_OVERSIZE n
  else
    let body := data.take (data.length - 4)
    if codeErr || decide (fcsOf body ≠ data.drop (data.length - 4)) then s.bump .PRT_RX_FCS n
    else
      let s1 := s.bump .PRT_RX_OK n
      match flowKind body with
      | some k =>
        let s2 := s1.bump .PRT_RX_PAUSE n
        let ts := s2.pauseTimes n k body
        if ts = [] then s2 else s2.setPort n { (s2.port n) with pauses := (s2.port n).pauses ++ [⟨pauseAct trx, ts⟩] }
      | none =>
        let p := s1.port n
        if s1.rxCapacity n < p.rxUsed + data.length then s1.bump .PRT_RX_OVF n
        else
          let stamp : TimeVal := { at_ with frac := at_.frac &&& 0xFF000000#32 }
          let s2 := s1.setPort n { p with rx := p.rx ++ [⟨body, rxClass body, stamp, s1.replicaOk⟩] }
          s2.rxDrain n (s2.port n).rx.length

/-! ### Pauses (R212, R213) -/

/-- PRT_STAT.PAUSED and PRT_PAUSE_END_SEC and _NS brought up to date. -/
def State.showPause (s : State) (n : Nat) : State :=
  let u := (s.port n).until_
  let bits := u.foldl (fun m e => m ||| 2 ^ e.1) 0
  let (sec, ns) := match SMap.find u 7 with
    | some e => let x := ceilDiv e lineNs; (x / 10 ^ 9, x % 10 ^ 9)
    | none => (0, 0)
  ((s.setF Fld.PRT_STAT.PAUSED bits n).wr .PRT_PAUSE_END_SEC n (BitVec.ofNat 32 sec)).wr .PRT_PAUSE_END_NS n (BitVec.ofNat 32 ns)

/-- A pause time takes effect on its queue at T_act. -/
def Port.pause (p : Port) (quantum act : Nat) (e : Nat × Nat) : Port :=
  if e.2 = 0 then
    if (SMap.find p.until_ e.1).isSome then { p with until_ := SMap.erase p.until_ e.1, since := SMap.insert id p.since e.1 act } else p
  else { p with until_ := SMap.insert id p.until_ e.1 (act + e.2 * quantum * (33 * 2 ^ 30)) }

/-- The first pause of a port whose T_act has been reached takes effect. -/
def State.pauseTake (s : State) (n : Nat) : State :=
  match (s.port n).pauses with
  | [] => s
  | r :: rest =>
    if decide ((lineRound r.act).count * 2 ^ 24 < s.tickEnd56) then
      let q := (s.lineMode n).quantum
      let p := r.times.foldl (fun p e => p.pause q r.act e) { (s.port n) with pauses := rest }
      (s.setPort n p).showPause n
    else s

/-- Every pause of a port whose T_end has been reached ends. -/
def State.pauseEnd (s : State) (n : Nat) : State :=
  let p := s.port n
  let due := p.until_.filter (fun e => decide ((lineRound e.2).count * 2 ^ 24 < s.tickEnd56))
  if due = [] then s
  else
    let p1 := due.foldl (fun (p : Port) e => { p with until_ := SMap.erase p.until_ e.1, since := SMap.insert id p.since e.1 e.2 }) p
    (s.setPort n p1).showPause n

/-- Whether a queue is paused at a line instant: T_act inclusive to T_end exclusive, pauses to come included (R213). -/
def State.pausedAt (s : State) (n q x : Nat) : Bool :=
  let p := s.port n
  let quantum := (s.lineMode n).quantum
  let p1 := (p.pauses.filter (fun r => decide (r.act ≤ x))).foldl (fun p r => r.times.foldl (fun p e => p.pause quantum r.act e) p) p
  match SMap.find p1.until_ q with
  | some e => decide (x < e)
  | none => false

/-! ### Token buckets (R254) -/

/-- The register of a queue's ceiling. -/
def bucketIdx (n q : Nat) : Nat := n * 8 + q

/-- A bucket's tokens now, in 2^-32 token. -/
def State.tokens (s : State) (i : Nat) : Nat :=
  let b := SMap.get (fun _ => Bucket.reset) s.flt.buckets i
  let cap := s.fd Fld.DMP_QCEIL.BURST i * 2 ^ 32
  if b.full then cap
  else Nat.min cap (b.tokens + s.fd Fld.DMP_QCEIL.RATE i * 64 * (s.now.count - b.at_.count) / 10 ^ 9)

/-- Whether a bucket holds a token; RATE 0xFFFFF means no ceiling. -/
def State.hasToken (s : State) (i : Nat) : Bool := decide (s.fd Fld.DMP_QCEIL.RATE i = 0xFFFFF ∨ 2 ^ 32 ≤ s.tokens i)

/-- A token taken. -/
def State.takeToken (s : State) (i : Nat) : State :=
  let b : Bucket := ⟨s.tokens i - 2 ^ 32, s.now, false⟩
  { s with flt := { s.flt with buckets := SMap.insert id s.flt.buckets i b } }

/-- A bucket refilled to its BURST. -/
def State.refill (s : State) (i : Nat) : State := { s with flt := { s.flt with buckets := SMap.erase s.flt.buckets i } }

/-! ### Transmission (R205, R206, R209) -/

/-- A frame of Q0 to Q6 freed while the link is down: counted, its SENT_TS delivered with the Datum word zero (R206). -/
def State.txDrop (s : State) (n : Nat) (frame : Nat) (notify : Option Nat) : State :=
  let s1 := (s.bump .PRT_TX_LINKDROP n).sentFrame frame n none
  match notify with
  | some th => let s2 := s1.unreserve th; s2.notify th (s2.mkNotice .sentTs 0 frame .zero 4 n)
  | none => s1

/-- A launched frame returned to its thread, unfrozen and with its recorded values cleared, and LAUNCH_FAILED (R83). -/
def State.returnLaunch (s : State) (l : Launch) (st : Status) : State :=
  let s1 := match s.frame l.frame with
    | some f => s.setFrame l.frame { f with frozen := false, times := [], bounds := [], holder := some l.thread }
    | none => s
  s1.notify l.thread (s1.mkNotice .launchFailed st.code l.frame l.instant 4 l.port)

/-- The link of a port goes down, or its transmitter goes to electrical idle: its launch points cease to exist, the frames of
its queues are freed; `cut` cuts off a frame that is leaving (Table 11.6). -/
def State.portDown (s : State) (n : Nat) (cut : Bool) : State :=
  let was := s.linkUp n
  let p := s.port n
  let s1 := if was then ((s.setB Fld.PRT_STAT.LINK false n).prtEvent n) else s
  let s2 : State := { s1 with launches := s1.launches.map (fun e => (e.1, if e.2.port = n then { e.2 with lost := true } else e.2)) }
  let s3 := s2.setPort n { p with q := [], tx := if cut then [] else p.tx }
  let s4 := p.q.foldl (fun s i => s.txDrop n i.frame i.notify) s3
  let s5 := if cut then
      p.tx.foldl (fun s x =>
        match x.launch with
        | some l => s.returnLaunch l .lost
        | none => s.txDrop n x.frame x.notify) s4
    else s4
  ((s5.wr .PRT_LPHASE n 0xFFFFFFFF#32).wr .PRT_RXPPM n 0x80000000#32).showAuto n

/-- Whether a port's cluster serves: not isolated, its region not gated. -/
def State.clusterServes (s : State) (c : Nat) : Bool := !s.pwr.isolated.contains c && !s.gatedCluster c

/-- Whether a port's lane is used by 100GBASE-R on the first port of its cluster (R199). -/
def State.ganged (s : State) (n : Nat) : Bool :=
  decide (n % 4 ≠ 0) && s.fb Fld.PRT_CFG.EN (n / 4 * 4) && decide (s.fd Fld.PRT_CFG.MODE (n / 4 * 4) = 4)

/-- The port start of Table 9.2: the transmitter at electrical idle, the calibration running. -/
def State.portStart (s : State) (n : Nat) : State :=
  if s.fb Fld.PRT_CFG.EN n && s.clusterServes (n / 4) then (s.portDown n true).setCal n 1 else s

/-- The port goes to electrical idle; a calibration that runs ends (R200). -/
def State.portIdle (s : State) (n : Nat) : State :=
  let s1 := s.portDown n true
  if s1.fd Fld.PRT_STAT.CAL n = 1 then s1.setCal n 0 else s1

/-- A frame queued on Q0 to Q6 (R205, R206): to an idle transmitter it begins at least 64 ns later. -/
def State.enqueue (s : State) (n frame queue : Nat) (notify : Option Nat) : State :=
  let p := s.port n
  let idle := p.tx.isEmpty && decide (p.free ≤ s.now.line)
  let from_ := s.now.line + (if idle then 64 * lineNs else 0)
  s.setPort n { p with q := p.q ++ [⟨frame, queue, notify, from_, false⟩] }

/-- The head frame of each queue. -/
def Port.heads (p : Port) : List TxItem := (List.range 7).filterMap (fun q => p.q.find? (fun i => decide (i.queue = q)))

/-- The number of the start position at which a head frame could begin now, if its queue is not paused there. -/
def State.headStart (s : State) (n : Nat) (i : TxItem) : Option Nat :=
  let p := s.port n
  let e := Nat.max (Nat.max i.from_ p.free) ((SMap.find p.since i.queue).getD 0)
  match s.startIndex n e with
  | none => none
  | some k =>
    let st := (s.lineMode n).start p.phase k
    if (SMap.find p.until_ i.queue).isSome || s.pausedAt n i.queue st then none else some k

/-- Whether a frame start falls in the guard band of an armed launch of the port (R210). -/
def State.inGuard (s : State) (n st : Nat) : Bool :=
  s.launches.any (fun e => decide (e.2.port = n ∧ e.2.start ≤ st + s.guard n))

/-- The next frame of Q0 to Q6 with its start position: the earliest start, and among equal starts the highest queue. -/
def State.txNext (s : State) (n : Nat) : Option (TxItem × Nat) :=
  ((s.port n).heads.filterMap (fun i => (s.headStart n i).map (fun k => (i, k)))).foldl (fun m x =>
    match m with
    | none => some x
    | some y => if x.2 ≤ y.2 then some x else some y) none

/-- Padding to 60 octets (R202). -/
def padFrame (bs : List Byte) : List Byte := bs ++ List.replicate (60 - bs.length) 0

/-- The transmitter begins a frame at launch point `k`. -/
def State.beginFrame (s : State) (n k frame : Nat) (launch : Option Launch) (notify : Option Nat) : State :=
  let m := s.lineMode n
  let p := s.port n
  let data := match s.frame frame with
    | some f => s.frameData f
    | none => []
  let body := padFrame data
  let (e, nx) := m.ends p.phase k (body.length + 4)
  let s1 := if data.length < 60 then s.bump .PRT_TX_PAD n else s
  s1.setPort n { p with
    tx := p.tx ++ [⟨frame, launch, notify, lineRound (m.point p.phase k), e⟩]
    free := nx
    line := body ++ fcsOf body }

/-- The transmitter begins the head frame of the highest eligible queue at its start position, once that is reached; a frame that
a guard band holds back is counted once (R205, R210). -/
def State.txStart (s : State) (n : Nat) : State :=
  if !s.linkUp n then s
  else match s.txNext n with
    | none => s
    | some (i, k) =>
      let p := s.port n
      let st := (s.lineMode n).start p.phase k
      if !decide ((lineRound st).count * 2 ^ 24 < s.tickEnd56) then s
      else if s.inGuard n st then
        if i.held then s
        else (s.bump .PRT_GUARD_HOLD n).setPort n { p with q := p.q.map (fun x => if x.frame = i.frame then { x with held := true } else x) }
      else
        let s1 := s.setPort n { p with q := p.q.filter (fun x => decide (x.frame ≠ i.frame)) }
        s1.beginFrame n k i.frame none i.notify

/-- A frame finishes leaving: LAUNCHED or SENT_TS, and the frame is freed (R83, R206). -/
def State.txEnd (s : State) (n : Nat) : State :=
  match (s.port n).tx with
  | [] => s
  | x :: rest =>
    if !decide ((lineRound x.end_).count * 2 ^ 24 < s.tickEnd56) then s
    else
      let s0 := s.pmcCluster (n / 4) (if x.launch.isSome then 0x48 else 0x47) (some n)
      let s1 := (s0.setPort n { (s0.port n) with tx := rest }).sentFrame x.frame n (some x.stamp)
      match x.launch with
      | some l => s1.notify l.thread (s1.mkNotice .launched 0 x.frame l.instant 4 n)
      | none =>
        let s2 := s1.bump .PRT_TX_OK n
        match x.notify with
        | some th => let s3 := s2.unreserve th; s3.notify th (s3.mkNotice .sentTs 0 x.frame x.stamp 4 n)
        | none => s2

/-- The first armed launch of a port by frame start, then handle. -/
def State.nextLaunch (s : State) (n : Nat) : Option Launch :=
  (s.launches.filter (fun e => decide (e.2.port = n))).foldl (fun m e =>
    match m with
    | none => some e.2
    | some l => if e.2.start < l.start then some e.2 else some l) none

/-- The outcome of a launch at its frame start (R209). -/
def State.launchOutcome (s : State) (l : Launch) : Option Status :=
  if !s.linkUp l.port || l.lost then some .lost
  else if s.pausedAt l.port 7 l.start then some .paused
  else if l.start < (s.port l.port).free then some .busy
  else none

/-- The count of a launch that did not start, by its status (R209). -/
def State.launchMissed (s : State) (n : Nat) (st : Status) : State :=
  if st = .lost then s.bump .PRT_LAUNCH_LOST n
  else if st = .paused then s.bump .PRT_LAUNCH_PAUSED n
  else s.bump .PRT_LAUNCH_COLL n

/-- A launch decided at its frame start (R209). -/
def State.launchDecide (s : State) (n : Nat) : State :=
  match s.nextLaunch n with
  | none => s
  | some l =>
    if !decide ((lineRound l.start).count * 2 ^ 24 < s.tickEnd56) then s
    else match s.launchOutcome l with
      | some st =>
        let p := s.port n
        let s1 := (s.launchMissed n st).setPort n { p with free := Nat.max p.free l.start }
        ({ (s1.freeSlot l.slot true) with launches := SMap.erase s1.launches l.slot }).returnLaunch l st
      | none =>
        let s1 : State := { (s.freeSlot l.slot true) with launches := SMap.erase s.launches l.slot }
        (s1.bump .PRT_LAUNCH_OK n).beginFrame n l.point l.frame (some l) none

/-! ### Submission (R82, R83, R254, R256, R343) -/

/-- Whether the ladder closes launches and Q5 and Q6 (R256). -/
def State.ladderCloses (s : State) : Bool := decide (s.fd Fld.FLT_ESC.STEP ≠ 0)

/-- The refusals of R256 and R343 for a port: the detail code. -/
def State.gateRefusal (s : State) (port : Nat) : Option Status :=
  if s.ladderCloses then some .closed else if s.matSvc port && !s.gateOpen then some .gated else none

/-- A frame that a thread holds and that is not frozen. -/
def State.heldFrame (s : State) (th h : Nat) : Option Frame :=
  match s.frame h with
  | some f => if f.holder = some th ∧ f.frozen = false then some f else none
  | none => none

/-- A frame submitted to Q0 to Q6 (R82): the checks in their order, then the queue. The status and its detail; `insn` is the
instruction word of a violation. -/
def State.portSend (s : State) (th h port queue : Nat) (sentTs : Bool) (insn : BitVec 32) : State × Status × Nat :=
  match s.heldFrame th h with
  | none => (s, .notOwner, 0)
  | some f =>
    if queue = 7 then (s, .queue, 0)
    else if s.fd Fld.PRT_MAXFRAME.MAX port - 4 < f.len then (s, .tooLong, 0)
    else
      let refused := if 5 ≤ queue then s.gateRefusal port else none
      match refused with
      | some d => (s, .damper, d.code)
      | none =>
        let i := bucketIdx port queue
        if !s.hasToken i then (s.violation th 0x06 0x0E insn, .damper, 0x0E)
        else if s.poisonedIn (cmemFlat f.cluster (cellAddr f.cell)) f.len then (s, .poison, 0)
        else if !s.linkUp port then ((s.bump .PRT_TX_LINKDROP port).sentFrame h port none, .lost, 0)
        else if sentTs && !(s.thread th).hasFree then (s, .busy, 0)
        else
          let s1 := (s.takeToken i).setFrame h { f with frozen := true }
          let s2 := if sentTs then s1.setThread th { (s1.thread th) with reserved := (s1.thread th).reserved + 1 } else s1
          (s2.enqueue port h queue (if sentTs then some th else none), .ok, 0)

/-- Check 6 of Table 3.15 on what TWF and BWF recorded. -/
def Frame.launchOk (f : Frame) (tx : TimeVal) : Bool :=
  let later := f.times.filter (fun r => r.later)
  let proj := f.bounds.filterMap (fun b => match b with
    | .projected t => some t
    | _ => none)
  later.all (fun r => decide (r.value = tx)) && (later.isEmpty || !proj.isEmpty) && proj.all (fun t => decide (t = tx))

/-- A launch submitted (R83, Table 3.15, R409). -/
def State.launchSend (s : State) (th h slot port : Nat) (tx : TimeVal) (insn : BitVec 32) : State × Status × Nat :=
  match s.heldFrame th h with
  | none => (s, .notOwner, 0)
  | some f =>
    if ownFixed (slotOwner slot) || !s.owns (.thread th) (slotOwner slot) then (s, .notOwner, 0)
    else if (s.slot slot).armed.isSome then (s, .busy, 0)
    else
      let m := s.lineMode port
      let ph := (s.port port).phase
      match (if s.linkUp port && !s.ganged port then s.launchIndex port tx else none) with
      | none => (s, .align, 0)
      | some k =>
        if lineRound (m.point ph k) ≠ tx then (s, .align, 0)
        else if s.fd Fld.PRT_MAXFRAME.MAX port - 4 < f.len then (s, .tooLong, 0)
        else if !s.replicaOk then (s, .replica, 0)
        else match s.gateRefusal port with
          | some d => (s, .damper, d.code)
          | none =>
            if !f.launchOk tx then (s.violation th 0x05 0x0E insn, .damper, 0x0E)
            else if !s.hasToken (bucketIdx port 7) then (s.violation th 0x06 0x0E insn, .damper, 0x0E)
            else if s.tooSoon tx armLead then (s.count .DTM_TL_REFUSED, .past, 0)
            else
              let st := m.start ph k
              let l : Launch := { thread := th, frame := h, port := port, slot := slot, instant := tx, point := k, start := st, since := s.now, lost := false }
              let s1 := (s.takeToken (bucketIdx port 7)).setFrame h { f with frozen := true }
              let s2 := s1.armSlot slot ⟨TimeVal.ofCount (st / 825), .launch th h port, false⟩
              ({ s2 with launches := SMap.insert id s2.launches slot l }, .ok, 0)

/-- A launch cancelled by ECAN (R410): the frame returns to the thread, and no notice follows. -/
def State.cancelLaunch (s : State) (l : Launch) : State :=
  let s1 := s.dropLaunch l
  match s1.frame l.frame with
  | some f => s1.setFrame l.frame { f with frozen := false, times := [], bounds := [], holder := some l.thread }
  | none => s1

/-! ### Calibration (R215, R216) -/

/-- Whether |T_q - T_cal| exceeds DT. -/
def State.calHot (s : State) (n : Nat) : Bool :=
  decide (s.fd Fld.PRT_CAL_CTL.DT n * 10 < (s.quadTemp (n / 4) - (s.port n).temp).natAbs)

/-- PRT_STAT.TEMP of an accepted port against its quad; on its rise a NOTICE fault names the port (R216). -/
def State.calTemp (s : State) (n : Nat) : State :=
  if s.fd Fld.PRT_STAT.CAL n ≠ 2 then s
  else
    let hot := s.calHot n
    if hot && !s.fb Fld.PRT_STAT.TEMP n then (s.setB Fld.PRT_STAT.TEMP true n).raise { rec_ := n, cause := 4, cls := 0 }
    else s.setB Fld.PRT_STAT.TEMP hot n

/-- Whether a measured calibration is accepted against the values in the Cairn store, or the factory's (R216); in fs. -/
def State.calAccepts (s : State) (n span tx rx : Nat) : Bool :=
  let old := match SMap.find s.cairn.port n with
    | some c => (c.tx, c.rx)
    | none => Config.portFactory n
  let near := fun (a b : Nat) => decide (((a : Int) - b).natAbs ≤ 50000)
  decide (span ≤ 2000) && near tx old.1 && near rx old.2

/-- A delay in fs in units of 2^-8 ns. -/
def calWord (fs : Nat) : BitVec 32 := BitVec.ofNat 32 ((fs * 256 + 500000) / 1000000)

/-- The in-situ calibration of a port ends (R216): the span of its 16 measurements and its delays, in fs. -/
def State.portCalEnd (s : State) (n span tx rx : Nat) : State :=
  if s.fd Fld.PRT_STAT.CAL n ≠ 1 then s
  else if s.calAccepts n span tx rx then
    let t := s.quadTemp (n / 4)
    let s1 := s.setPort n { (s.port n) with temp := t }
    let s2 := (s1.wr .PRT_CAL_TX n (calWord tx)).wr .PRT_CAL_RX n (calWord rx)
    let s3 := s2.setF Fld.PRT_CAL_CTL.TCAL (wrapInt 8 ((t + 5) / 10)) n
    let s4 : State := { s3 with cairn := { s3.cairn with port := SMap.insert id s3.cairn.port n ⟨tx, rx, t⟩ } }
    (s4.setB Fld.PRT_STAT.TEMP false n).setCal n 2
  else (s.setCal n 3).raise { rec_ := n, cause := 3, cls := 1 }

/-- The link of a port comes up (R200, R208): `phase` is the place of the launch points in line units (of a codeword with an
alignment marker in the RS-FEC modes), `rate` the received rate. -/
def State.portUp (s : State) (n phase : Nat) (rate : BitVec 32) : State :=
  let c := s.fd Fld.PRT_STAT.CAL n
  if s.linkUp n || !s.fb Fld.PRT_CFG.EN n || s.ganged n || !s.clusterServes (n / 4) || decide (c < 2) then s
  else
    let m := s.lineMode n
    let s1 := s.setPort n { (s.port n) with phase := phase % m.cycle, free := s.now.line }
    let s2 := s1.wr .PRT_LPHASE n (if m.fec then 0xFFFFFFFF#32 else BitVec.ofNat 32 (phase % m.space / (825 * 65536)))
    ((((s2.wr .PRT_RXPPM n rate).setB Fld.PRT_STAT.LINK true n).showAuto n).prtEvent n)

/-! ### Register writes -/

/-- A write discarded whole for an out-of-range field. -/
def State.prtRange (s : State) (n : Nat) : State := s.setB Fld.PRT_WSTAT.RANGE true n

/-- GANGED of a cluster's ports brought up to date. -/
def State.showGanged (s : State) (c : Nat) : State :=
  [1, 2, 3].foldl (fun s i => s.setB Fld.PRT_STAT.GANGED (s.ganged (c * 4 + i)) (c * 4 + i)) s

/-- Whether a write of PRT_CFG is in range (R197, R199, R211). -/
def State.prtCfgOk (s : State) (n : Nat) (v : BitVec 32) : Bool :=
  let f := fun (x : Fld) => x.of v
  let mode := f Fld.PRT_CFG.MODE
  let changes := decide (mode ≠ s.fd Fld.PRT_CFG.MODE n ∨ f Fld.PRT_CFG.FEC ≠ s.fd Fld.PRT_CFG.FEC n
    ∨ f Fld.PRT_CFG.AN ≠ s.fd Fld.PRT_CFG.AN n)
  let others := [1, 2, 3].any (fun i => s.fb Fld.PRT_CFG.EN (n + i))
  !s.ganged n && decide (mode ≤ 4) && !(s.fb Fld.PRT_CFG.EN n && changes)
    && !(decide (mode = 4) && (decide (n % 4 ≠ 0) || others))
    && !(decide (f Fld.PRT_CFG.RX_PAUSE = 1) && decide (f Fld.PRT_CFG.RX_PFC = 1))

/-- A write of PRT_CFG (R197 to R200, R211). -/
def State.prtCfg (s : State) (n : Nat) (v : BitVec 32) : State :=
  if !s.prtCfgOk n v then s.prtRange n
  else
    let was := s.fb Fld.PRT_CFG.EN n
    let s1 := (s.wrRw .PRT_CFG n v).showGanged (n / 4)
    let on := s1.fb Fld.PRT_CFG.EN n
    if on && !was then s1.portStart n else if was && !on then s1.portIdle n else s1

/-- A write of PRT_CAL_CTL (R216): DT from 1 to 50, then GO. -/
def State.prtCalCtl (s : State) (n : Nat) (v : BitVec 32) : State :=
  let dt := Fld.PRT_CAL_CTL.DT.of v
  if dt < 1 ∨ 50 < dt then s.prtRange n
  else
    let s1 := s.setF Fld.PRT_CAL_CTL.DT dt n
    if Fld.PRT_CAL_CTL.GO.of v = 1 then s1.portStart n else s1.calTemp n

/-- A register write of a port as it takes effect. -/
def State.prtWrite (s : State) (r : Reg) (n : Nat) (v : BitVec 32) : State :=
  if r = .PRT_CFG then s.prtCfg n v
  else if r = .PRT_WSTAT then s.w1c .PRT_WSTAT n v
  else if r = .PRT_MAXFRAME then
    let m := Fld.PRT_MAXFRAME.MAX.of v
    let g := s.fd Fld.PRT_LAUNCH_GUARD.GUARD n
    if m < 1518 ∨ 9216 < m ∨ (g ≠ 0 ∧ g * 100 < (s.lineMode n).gAuto m) then s.prtRange n
    else (s.wrRw .PRT_MAXFRAME n v).showAuto n
  else if r = .PRT_LAUNCH_GUARD then
    let g := Fld.PRT_LAUNCH_GUARD.GUARD.of v
    if g ≠ 0 ∧ g * 100 < (s.lineMode n).gAuto (s.fd Fld.PRT_MAXFRAME.MAX n) then s.prtRange n
    else s.wrRw .PRT_LAUNCH_GUARD n v
  else if r = .PRT_PFC_MAP then s.wr r n (v &&& 0x77777777#32)
  else if r = .PRT_RXMAP0 ∨ r = .PRT_RXMAP1 then s.wr r n (v &&& 0x9F9F9F9F#32)
  else if r = .PRT_CAL_CTL then s.prtCalCtl n v
  else if r = .PRT_ASYM_CABLE ∨ r = .PRT_ASYM_CABLE_U then s.wrRw r n v
  else s

end Sys2Proof.Machine
end

