-- ==== Sys2Proof/Machine/MemOps.lean ====
section
/-!
DEFINITION. Machine/MemOps.lean: a thread's address space (R68, R69, R72, R82, R408), what each privilege may reach, the mirror
windows (R360), and the stores of threads, lanes and the host.
-/
namespace Sys2Proof.Machine

/-! ### Areas of the thread address space (Table 3.5) -/

/-- The areas that data accesses reach. -/
inductive Area where
  | dmem | dmemTop | cmem | pool | regs | ddr
  deriving DecidableEq, Repr

/-- Whether `n` octets from `a` lie between two addresses, both included. -/
def within (a n lo hi : Nat) : Bool := decide (lo ≤ a ∧ a + n ≤ hi + 1)

/-- The area that holds `n` octets from `a`. -/
def areaOf (a n : Nat) : Option Area :=
  if within a n 0x10000 0x1EFFF then some .dmem
  else if within a n 0x10000 0x1FFFF then some .dmemTop
  else if within a n 0x100000 0x17FFFF then some .cmem
  else if within a n 0x180000 0x1FFFFF then some .pool
  else if within a n 0x10000000 0x11FFFFFF then some .regs
  else if within a n 0x1000000000 0x1FFFFFFFFF then some .ddr
  else none

/-- The model's flat address of a thread address. -/
def flatOf (th a : Nat) (x : Area) : Nat :=
  match x with
  | .dmem => dmemBase (coreOf th) + (a - 0x10000)
  | .dmemTop => dmemBase (coreOf th) + (a - 0x10000)
  | .cmem => cmemFlat (clusterOf th) a
  | .pool => cmemFlat (clusterOf th) a
  | .regs => a
  | .ddr => a

/-- Whether a window of a thread permits an access (R69). -/
def Thread.windowOk (t : Thread) (a n : Nat) (write : Bool) : Bool :=
  (List.range 8).any (fun i =>
    let base := (SMap.get (fun _ => (0 : BitVec 64)) t.wbase i).toNat / 4096 * 4096
    let lim := (SMap.get (fun _ => (0 : BitVec 64)) t.wlim i).toNat
    let right := if write then bitAt lim 1 else bitAt lim 0
    right && decide (base ≤ a ∧ a + n ≤ base + lim / 4096 * 4096))

/-- The frame that holds `n` octets from a CMEM address of a cluster. -/
def State.frameAt (s : State) (c a n : Nat) : Option (Nat × Frame) :=
  s.frames.find? (fun e =>
    decide (e.2.cluster = c ∧ cellAddr e.2.cell ≤ a ∧ a + n ≤ cellAddr e.2.cell + e.2.len))

/-- The frame rules (R82): the holder reads; it writes while the frame is not frozen. -/
def State.frameOk (s : State) (th a n : Nat) (write : Bool) : Bool :=
  match s.frameAt (clusterOf th) a n with
  | some (_, f) => decide (f.holder = some th) && !(write && f.frozen)
  | none => false

/-! ### Mirror windows (R360) -/

/-- The mirror window that some octets of DDR touch. -/
def State.mirrorAt (s : State) (a n : Nat) : Option Nat :=
  (List.range 4).find? (fun k =>
    let base := ddrBase + s.fd Fld.MAT_MIR.BASE k * 0x100000
    let size := s.fd Fld.MAT_MIR.SIZE k * 0x100000
    decide (a < base + size ∧ base < a + n))

/-- Whether a store into a mirror window is refused: on a STANDBY or WITHDRAWN engine. -/
def State.mirrorRefuses (s : State) (a n : Nat) : Bool := (s.mirrorAt a n).isSome && decide (s.role = 3 ∨ s.role = 4)

/-- Whether a store into a mirror window waits for the END marker (R362). -/
def State.mirrorStalls (s : State) (a n : Nat) : Bool := (s.mirrorAt a n).isSome && s.mat.mirWait

/-- A line of a mirror window marked written: writes to one 64-octet line within 1 µs become one frame. -/
def State.mirrorMark (s : State) (k line : Nat) : State :=
  let dup := s.mat.dirty.any (fun e => decide (e.1 = k ∧ e.2.1 = line ∧ e.2.2.dist s.now < usCount))
  if dup then s else { s with mat := { s.mat with dirty := s.mat.dirty ++ [(k, line, s.now)] } }

/-- The lines that a store on the ACTIVE engine touches in the mirror windows are marked. -/
def State.mirrorWrite (s : State) (a n : Nat) : State :=
  if s.role = 2 then
    (List.range 4).foldl (fun s k =>
      let base := ddrBase + s.fd Fld.MAT_MIR.BASE k * 0x100000
      let size := s.fd Fld.MAT_MIR.SIZE k * 0x100000
      (List.range (n / 64 + 2)).foldl (fun s i =>
        let line := (a / 64 + i) * 64
        if line < a + n ∧ base ≤ line ∧ line < base + size then s.mirrorMark k (line - base) else s) s) s
  else s

/-! ### Accesses -/

/-- The flat address of a data access that its thread may make, register window apart; none raises ACCESS (R68, R69, R82,
R360). -/
def State.dataAccess (s : State) (th : Nat) (k : Bool) (a n : Nat) (write : Bool) : Option Nat :=
  let t := s.thread th
  match areaOf a n with
  | some .dmem => some (flatOf th a .dmem)
  | some .dmemTop => if k then some (flatOf th a .dmemTop) else none
  | some .cmem => if k || t.windowOk a n write then some (flatOf th a .cmem) else none
  | some .pool => if s.frameOk th a n write then some (flatOf th a .pool) else none
  | some .ddr => if s.inDdr a n && (k || t.windowOk a n write) && !(write && s.mirrorRefuses a n) then some a else none
  | some .regs => none
  | none => none

/-- What a crypto lane may reach for a thread: CMEM and DDR with the thread's rights (R84). -/
def State.laneAccess (s : State) (th : Nat) (k : Bool) (a n : Nat) (write : Bool) : Option Nat :=
  match areaOf a n with
  | some .cmem | some .pool | some .ddr => s.dataAccess th k a n write
  | _ => if n = 0 then some 0 else none

/-- Octets stored for a thread, a lane or the host: memory and, in a mirror window, the mirror. -/
def State.storeData (s : State) (flat : Nat) (bs : List Byte) : State := (s.storeMem flat bs).mirrorWrite flat bs.length

end Sys2Proof.Machine
end

