-- ==== Sys2Proof/Machine/KeyOps.lean ====
section
/-!
DEFINITION. Machine/KeyOps.lean: the lifecycle, the key store with its copies in the Cairn store, key update envelopes, derived
keys and the crypto lanes (12_keys_attestation.md, R84, R373).
-/
namespace Sys2Proof.Machine

/-! ### Lifecycle (R373) -/

/-- The lifecycle's encoding is none of the valid ones. -/
def State.lcBad (s : State) : Bool :=
  let f := s.pwr.fuses
  !((!f.lcP && !f.lcF && !f.lcR) || (f.lcP && !f.lcF && !f.lcR) || (f.lcP && f.lcF && !f.lcR) || (f.lcP && f.lcF && f.lcR))

/-- The lifecycle: 0 BLANK, 1 PROVISIONED, 2 FIELD, 3 RETIRED; an invalid encoding behaves as RETIRED. -/
def State.lifecycle (s : State) : Nat :=
  let f := s.pwr.fuses
  if s.lcBad then 3 else bit01 f.lcP + bit01 f.lcF + bit01 f.lcR

/-- The identity hash (R272). -/
def identityHash : List Byte := Config.sha384 Config.identityPub

/-- The owner authority's public-key hash; zero while it is not fused. -/
def State.ownerHash (s : State) : List Byte := if s.pwr.fuses.ownerSet then s.pwr.fuses.owner else zeros 48

/-! ### Slots (R274, R278) -/

/-- The code of a key length in KEY_SLOTs: 0b01 16 octets, 0b10 32 octets. -/
def lenCode (n : Nat) : Nat := if n = 16 then 1 else if n = 32 then 2 else 0

/-- The description of a slot (KEY_SLOTs). -/
def KeyRec.word (r : KeyRec) : BitVec 32 :=
  BitVec.ofNat 32 (2 ^ 31 + r.attr % 8 * 2 ^ 28 + lenCode r.len * 2 ^ 26 + r.dmode % 4 * 2 ^ 24 + lenCode r.dlen * 2 ^ 22
    + r.ctr.toNat % 65536)

/-- A slot's content, if it holds a key. -/
def State.slotKey (s : State) (i : Nat) : Option KeyRec :=
  match SMap.find s.key.slots i with
  | some r => if r.attr = 0 then none else some r
  | none => none

/-- A slot loaded in the controller's memory, with its KEY_SLOTs. -/
def State.loadSlot (s : State) (i : Nat) (r : Option KeyRec) : State :=
  match r with
  | some r =>
    if r.attr = 0 then ({ s with key := { s.key with slots := SMap.erase s.key.slots i } }).wr .KEY_SLOT i 0
    else ({ s with key := { s.key with slots := SMap.insert id s.key.slots i r } }).wr .KEY_SLOT i r.word
  | none => ({ s with key := { s.key with slots := SMap.erase s.key.slots i } }).wr .KEY_SLOT i 0

/-- The copy with the higher counter. -/
def KeyCopies.latest (c : KeyCopies) : Option KeyRec :=
  match c.a, c.b with
  | some x, some y => if x.ctr.toNat < y.ctr.toNat then some y else some x
  | some x, none => some x
  | none, y => y

/-- The copies with the older one replaced. -/
def KeyCopies.push (c : KeyCopies) (r : KeyRec) : KeyCopies :=
  match c.a, c.b with
  | none, b => ⟨some r, b⟩
  | a, none => ⟨a, some r⟩
  | some x, some y => if x.ctr.toNat < y.ctr.toNat then ⟨some r, some y⟩ else ⟨some x, some r⟩

/-- The copies of a slot. -/
def State.copies (s : State) (i : Nat) : KeyCopies := SMap.get (fun _ => ⟨none, none⟩) s.cairn.keys i

/-- KEY_STAT.STATE: 0 LOADING, 1 READY, 2 ZEROISED, 3 DESTROYED; a change pulses KEY_STATE. -/
def State.setKeyState (s : State) (n : Nat) : State :=
  if s.fd Fld.KEY_STAT.STATE = n then s else (s.setF Fld.KEY_STAT.STATE n).irqPulse 110 n

/-- The handle generation moves, and every derived-key handle is invalid (R277). -/
def State.hgenBump (s : State) : State :=
  let s1 : State := { s with derived := [] }
  s1.setF Fld.KEY_HGEN.GEN (s.fd Fld.KEY_HGEN.GEN + 1)

/-- The store is zeroised (R283): every slot in the controller's memory cleared, the generation moved. -/
def State.zeroise (s : State) : State :=
  let s1 := ((List.range 64).foldl (fun s i => s.loadSlot i none) s).hgenBump
  ({ s1 with pwr := { s1.pwr with zeroised := true } }).setKeyState 2

/-- The key records are destroyed (R284). -/
def State.destroyKeys (s : State) : State :=
  let s1 : State := { s with cairn := { s.cairn with keys := [], keyCtr := (0, 0) } }
  let s2 := (List.range 64).foldl (fun s i => s.loadSlot i none) s1
  ((s2.setPair .KEY_COUNTER_HI .KEY_COUNTER_LO 0).hgenBump).setKeyState 3

/-- The words of a 48-octet hash put into twelve registers. -/
def State.hashRegs (s : State) (r : Reg) (h : List Byte) : State :=
  (List.range 12).foldl (fun s w => s.wr r w (BitVec.ofNat 32 (beAt h (4 * w) 4))) s

/-- The security controller loads the store at a core-die start (R278, R284, R377). -/
def State.keyLoad (s : State) : State :=
  let s0 := ((s.hashRegs .KEY_IDHASH identityHash).hashRegs .KEY_OWNHASH s.ownerHash).setB Fld.KEY_STAT.TK_RELEASED s.cairn.tkOut
  if s0.lifecycle = 3 ∧ !s0.lcBad then s0.destroyKeys
  else if s0.pwr.zeroised then s0.setKeyState 2
  else
    let s1 := (List.range 64).foldl (fun s i => s.loadSlot i (s.copies i).latest) s0
    let top := s1.cairn.keys.foldl (fun m e => match e.2.latest with
      | some r => Nat.max m r.ctr.toNat
      | none => m) (Nat.max s1.cairn.keyCtr.1.toNat s1.cairn.keyCtr.2.toNat)
    (s1.setPair .KEY_COUNTER_HI .KEY_COUNTER_LO (BitVec.ofNat 64 top)).setKeyState 1

/-! ### Envelopes (R279 to R282) -/

/-- Octets `i` to `i + n - 1` of a list, little-endian. -/
def leAt (bs : List Byte) (i n : Nat) : Nat := leNat ((bs.drop i).take n)

/-- Part of a list. -/
def sliceAt (bs : List Byte) (i n : Nat) : List Byte := (bs.drop i).take n

/-- Whether octets are all zero. -/
def allZero (bs : List Byte) : Bool := bs.all (fun b => decide (b = 0))

/-- The form of an envelope (check 5). -/
def envForm (e : List Byte) : Bool :=
  decide (e.length = 224) && decide (leAt e 0 4 = 0x4B455901) && decide (leAt e 4 2 = 1) && allZero (sliceAt e 0x49 7)
    && allZero (sliceAt e 0x78 8)

/-- Check 9: the fields agree with Table 12.3. -/
def State.envFields (s : State) (e : List Byte) : Bool :=
  let op := leAt e 6 1
  let slot := leAt e 7 1
  let attr := leAt e 0x40 1
  let len := leAt e 0x41 1
  let dmode := leAt e 0x42 1
  let dlen := leAt e 0x43 1
  let unwrap := leAt e 0x48 1
  let d := decide (attr = 4)
  let lengths := decide (len = 16 ∨ len = 32)
  let derive :=
    if d then
      decide ((dmode = 1 ∧ (dlen = 16 ∨ dlen = 32)) ∨ (dmode = 2 ∧ dlen = 32 ∧ len = 32))
    else decide (dmode = 0 ∧ dlen = 0)
  let label := decide (dmode = 1) || allZero (sliceAt e 0x44 4)
  let wrap := decide (unwrap = 0xFF) || (decide (unwrap < 64 ∧ unwrap ≠ slot) &&
    (match s.slotKey unwrap with
      | some r => decide (r.attr = 3 ∧ r.len = 32)
      | none => false))
  decide (slot < 64) &&
    (if op = 2 then allZero (sliceAt e 0x40 0x40)
     else decide (op = 1) && decide (1 ≤ attr ∧ attr ≤ 4) && lengths && derive && label && wrap)

/-- The key of an envelope after check 10: unwrapped, with LEN octets; a 16-octet key uses the first 24 octets. -/
def State.envKey (s : State) (e : List Byte) : Option (List Byte) :=
  let len := leAt e 0x41 1
  let unwrap := leAt e 0x48 1
  let kek := if unwrap = 0xFF then Config.transportKey else match s.slotKey unwrap with
    | some r => r.key
    | none => []
  let w := sliceAt e 0x50 (len + 8)
  if allZero (sliceAt e (0x50 + len + 8) (32 - len)) then
    match Config.aesUnwrap kek w with
    | some k => if k.length = len then some k else none
    | none => none
  else none

/-- What an envelope's application writes. -/
def envRec (e key : List Byte) : KeyRec :=
  let ctr := BitVec.ofNat 64 (leAt e 8 8)
  if leAt e 6 1 = 2 then ⟨0, 0, 0, 0, [], [], ctr⟩
  else ⟨leAt e 0x40 1, leAt e 0x41 1, leAt e 0x42 1, leAt e 0x43 1, sliceAt e 0x44 4, key, ctr⟩

/-- The monotonic counter. -/
def State.keyCounter (s : State) : Nat := (s.pair .KEY_COUNTER_HI .KEY_COUNTER_LO).toNat

/-- The checks of Table 12.4 in their order: the reason of the first that fails, or what the envelope writes. -/
def State.envCheck (s : State) (e : List Byte) : Nat ⊕ KeyRec :=
  if s.fb Fld.KEY_STAT.BUSY then .inl 0x08
  else if s.fd Fld.KEY_STAT.STATE = 2 then .inl 0x0A
  else if s.lifecycle ≠ 1 ∧ s.lifecycle ≠ 2 then .inl 0x02
  else if s.pwr.pwrfail then .inl 0x0B
  else if !envForm e then .inl 0x01
  else if sliceAt e 0x10 48 ≠ identityHash then .inl 0x03
  else if !Config.ecdsaVerify s.ownerHash (sliceAt e 0 0x80) (sliceAt e 0x80 96) then .inl 0x04
  else if leAt e 8 8 ≤ s.keyCounter then .inl 0x05
  else if !s.envFields e then .inl 0x06
  else if leAt e 6 1 = 2 then .inr (envRec e [])
  else match s.envKey e with
    | some k => .inr (envRec e k)
    | none => .inl 0x07

/-- KEY_LAST. -/
def State.keyLast (s : State) (status slot : Nat) : State :=
  (s.setF Fld.KEY_LAST.STATUS status).setF Fld.KEY_LAST.SLOT slot

/-- A refused envelope (R280). -/
def State.envRefuse (s : State) (reason slot : Nat) : State :=
  ((s.keyLast reason slot).setB Fld.KEY_WSTAT.REFUSED true).raise { rec_ := 465, cause := 24, cls := 0 }

/-- An envelope's verification begins. -/
def State.envBegin (s : State) (x : KeyEnv) : State :=
  ({ s with key := { s.key with env := some x } }).setB Fld.KEY_STAT.BUSY true

/-- The verification in progress ends without application; the envelope that ended. -/
def State.envEnd (s : State) (status : Nat) : State :=
  match s.key.env with
  | none => s
  | some x =>
    let s1 := (({ s with key := { s.key with env := none } }).setB Fld.KEY_STAT.BUSY false).keyLast status x.slot
    if status = 0x09 then s1.setB Fld.KEY_WSTAT.ABORTED true else s1

/-- A verified envelope applied (R281): the older copy, the counter record, the store, the generation. -/
def State.envApply (s : State) (x : KeyEnv) : State :=
  let old := (s.slotKey x.slot).map (·.attr)
  let c := s.cairn.keyCtr
  let ctr := if c.1.toNat ≤ c.2.toNat then (x.what.ctr, c.2) else (c.1, x.what.ctr)
  let s1 : State := { s with
    cairn := { s.cairn with
      keys := SMap.insert id s.cairn.keys x.slot ((s.copies x.slot).push x.what)
      keyCtr := ctr }
    key := { s.key with env := none } }
  let s2 := (s1.loadSlot x.slot (some x.what)).setPair .KEY_COUNTER_HI .KEY_COUNTER_LO x.what.ctr
  let s3 := if old = some 4 ∨ x.what.attr = 4 then s2.hgenBump else s2
  (((s3.setB Fld.KEY_STAT.BUSY false).setB Fld.KEY_WSTAT.ACCEPT true).keyLast 0 x.slot)

/-! ### Derived keys (R275, R276) -/

/-- AES-CMAC under a key. -/
def cmac (key msg : List Byte) : List Byte := (Config.laneOp 0x01 key [] [] msg).getD []

/-- The KDF of R275: block 1 and block 2 of CMAC over the fixed input, the first DLEN octets. -/
def laneKdf (r : KeyRec) (ctx : List Byte) : List Byte :=
  let fixed := fun (i : Nat) => beBytes 4 i ++ r.label ++ [0] ++ ctx ++ beBytes 4 (8 * r.dlen)
  (cmac r.key (fixed 1) ++ cmac r.key (fixed 2)).take r.dlen

/-- The number of handles of a lane. -/
def laneHandles : Nat := 4096

/-- A derived key's handle: the generation and the index. -/
def State.handleWord (s : State) (i : Nat) : Nat := s.fd Fld.KEY_HGEN.GEN * 4096 + i

/-- A derived key held in a lane under the lowest free handle. -/
def State.addDerived (s : State) (c th slot : Nat) (key : List Byte) : State × Status × Nat :=
  match (List.range laneHandles).find? (fun i => (SMap.find s.derived (c * laneHandles + i)).isNone) with
  | none => (s, .noResource, 0)
  | some i =>
    let d : DerivedKey := ⟨th, slot, key, s.fd Fld.KEY_HGEN.GEN⟩
    ({ s with derived := SMap.insert id s.derived (c * laneHandles + i) d }, .ok, s.handleWord i)

/-- CDRV with its context (R84, R275): a violation where the slot is not DERIVE_ONLY. -/
def State.derive (s : State) (th slot : Nat) (ctx : List Byte) (insn : BitVec 32) : State × Status × Nat :=
  match s.slotKey slot with
  | none => (s, .empty, 0)
  | some r =>
    if r.attr ≠ 4 then (s.violation th 0x09 0x0E insn, .damper, 0)
    else if r.dmode = 1 then s.addDerived (clusterOf th) th slot (laneKdf r ctx)
    else if ctx.length ≠ 64 then (s, .range, 0)
    else match Config.laneOp 0x08 r.key (ctx.take 16) [] (ctx.drop 16) with
      | some k => s.addDerived (clusterOf th) th slot k
      | none => (s, .tagFail, 0)

/-- The derived key that a handle names in a lane, while its generation stands. -/
def State.derivedKey (s : State) (c h : Nat) : Option DerivedKey :=
  if h / 4096 = s.fd Fld.KEY_HGEN.GEN then SMap.find s.derived (c * laneHandles + h % 4096) else none

/-- A handle released (CREL). -/
def State.release_ (s : State) (c h : Nat) : State :=
  match s.derivedKey c h with
  | some _ => { s with derived := SMap.erase s.derived (c * laneHandles + h % 4096) }
  | none => s

/-! ### Crypto jobs (R84, R274, R276) -/

/-- The operations that an attribute permits (Table 12.2). -/
def attrPermits (attr op : Nat) : Bool :=
  if attr = 1 then decide (op = 1 ∨ op = 3 ∨ op = 5 ∨ op = 7 ∨ op = 9)
  else if attr = 2 then decide (op = 2 ∨ op = 4 ∨ op = 6 ∨ op = 8 ∨ op = 0x0A)
  else false

/-- Whether an operation takes a key of a length (R274). -/
def opLength (op len : Nat) : Bool := decide ((op = 7 ∨ op = 8) → len = 32) && decide (len = 16 ∨ len = 32)

/-- What a job's key comes to when it starts: OK with the key, or the status that ends it. -/
def State.jobKey (s : State) (c : Nat) (j : CryptoJob) : Status × List Byte :=
  if j.op = 0x0B then (.ok, [])
  else if j.keySrc = 0 then
    match s.slotKey j.key with
    | none => (.empty, [])
    | some r => if !attrPermits r.attr j.op then (.damper, []) else if opLength j.op r.len then (.ok, r.key) else (.range, [])
  else match s.derivedKey c j.key with
    | none => (.noResource, [])
    | some d => if opLength j.op d.key.length then (.ok, d.key) else (.range, [])

/-- The jobs of a lane. -/
def State.laneJobs (s : State) (c : Nat) : List CryptoJob := SMap.get (fun _ => []) s.jobs c

/-- The state with a lane's jobs replaced. -/
def State.setJobs (s : State) (c : Nat) (js : List CryptoJob) : State :=
  { s with jobs := SMap.set id (fun _ => []) s.jobs c js }

/-- An idle lane starts its next job: event work before general work, each in order (R36, R84). -/
def State.laneStart (s : State) (c : Nat) : State :=
  let js := s.laneJobs c
  if js.any (fun j => j.got.isSome) then s
  else match js.find? (fun j => j.event), js with
    | some j, _ => s.setJobs c ({ j with got := some (s.jobKey c j) } :: js.erase j)
    | none, j :: r => s.setJobs c ({ j with got := some (s.jobKey c j) } :: r)
    | none, [] => s

/-- The octets of a nonce: 12 for GMAC and GCM, 16 for SIV. PRESUMED. -/
def nonceLen (op : Nat) : Nat := if 3 ≤ op ∧ op ≤ 6 then 12 else if op = 7 ∨ op = 8 then 16 else 0

/-- The 16-octet tag, or the 32-octet HMAC, that a generate operation gives. -/
def jobTagOf (op : Nat) (key nonce aad input : List Byte) : List Byte := (Config.laneOp op key nonce aad input).getD []

/-- What a job does with its key (R84): the status and, on success, the octets for OUT_ADDR. -/
def jobResult (op : Nat) (key nonce aad input out : List Byte) : Status × List Byte :=
  if op = 0x0B then (.ok, Config.sha384 input)
  else if op = 1 ∨ op = 3 ∨ op = 9 then (.ok, jobTagOf op key nonce aad input)
  else if op = 2 ∨ op = 4 ∨ op = 0x0A then
    (if out = jobTagOf (op - 1) key nonce aad input then .ok else .tagFail, [])
  else match Config.laneOp op key nonce aad input with
    | some r => (.ok, r)
    | none => (.tagFail, [])

/-- A job's octets in and out of memory with its submitter's rights: RANGE where they fail (the spec gives no status), POISON where
a word is poisoned (R73). -/
def State.jobRun (s : State) (j : CryptoJob) (key : List Byte) : State × Status :=
  let acc := fun (a n : Nat) (w : Bool) => s.laneAccess j.thread j.k a n w
  let nl := nonceLen j.op
  let ol := if j.op = 2 ∨ j.op = 4 ∨ j.op = 0x0A then 16 else 0
  match acc j.inAddr j.inLen false, acc j.aadAddr j.aadLen false, acc j.nonce nl false, acc j.outAddr ol false with
  | some i, some a, some n, some o =>
    if s.poisonedIn i j.inLen || s.poisonedIn a j.aadLen || s.poisonedIn n nl || s.poisonedIn o ol then
      (s.raise { rec_ := 192 + clusterOf j.thread, cause := 2, cls := 1 }, .poison)
    else
      let (st, out) := jobResult j.op key (s.octets n nl) (s.octets a j.aadLen) (s.octets i j.inLen) (s.octets o ol)
      if st = .ok ∧ out ≠ [] then
        match acc j.outAddr out.length true with
        | some w => (s.storeData w out, .ok)
        | none => (s, .range)
      else (s, st)
  | _, _, _, _ => (s, .range)

/-- The CRYPTO notice of a job takes its reserved entry. -/
def State.jobNotice (s : State) (j : CryptoJob) (st : Status) : State :=
  if j.notify then
    let s1 := s.unreserve j.thread
    s1.notify j.thread (s1.mkNotice .crypto st.code j.jobTag.toNat s1.now 5 j.thread)
  else s

/-- The job that a lane runs completes (R84): its result, the chained send on success, its notice; the next job starts. -/
def State.jobDone (s : State) (c : Nat) : State :=
  match (s.laneJobs c).find? (fun j => j.got.isSome) with
  | none => s
  | some j =>
    let s0 := (s.setJobs c ((s.laneJobs c).erase j)).pmcCluster c (if j.event then 0x42 else 0x43) none
    let (s1, st) : State × Status := match j.got with
      | some (.ok, key) => s0.jobRun j key
      | some (.damper, _) => (s0.violation j.thread 0x09 0x0E 0, .damper)
      | some (st, _) => (s0, st)
      | none => (s0, .ok)
    let (s2, st2) : State × Status :=
      if st = .ok ∧ j.chain then
        let w := j.chainW.toNat
        let r := s1.portSend j.thread (w % 2 ^ 32) (bitsOf w 37 32) (bitsOf w 42 40) false 0
        (r.1, r.2.1)
      else (s1, st)
    (s2.jobNotice j st2).laneStart c

end Sys2Proof.Machine
end

