-- ==== Sys2Proof/Machine/MatOps.lean ====
section
/-!
DEFINITION. Machine/MatOps.lean: the mated pair (15_mated_pair.md): heartbeats and the two-way measurement, the mate's status,
roles, loss and takeover, the witness, planned swaps, the mirror, the block's writes.
-/
namespace Sys2Proof.Machine

/-! ### Lanes and pins -/

/-- A lane's record. -/
def State.lane (s : State) (l : Nat) : MateLane := SMap.get (fun _ => MateLane.reset) s.mat.lanes l

/-- The state with a lane's record replaced. -/
def State.setLane (s : State) (l : Nat) (x : MateLane) : State :=
  { s with mat := { s.mat with lanes := SMap.set id (fun _ => MateLane.reset) s.mat.lanes l x } }

/-- Whether some lane delivers heartbeats (R349). -/
def State.linkAlive (s : State) : Bool := (s.lane 0).alive || (s.lane 1).alive

/-- Whether the arbitration pair is good (R337): ARB_IN is not SILENT. -/
def State.arbGood (s : State) : Bool := decide (s.pwr.arbIn ≠ 0)

/-- Whether pair operation is on and the core die runs. -/
def State.paired (s : State) : Bool := s.coreUp && s.fb Fld.MAT_CFG.EN

/-- The low KCLK periods of the 10 µs pattern on ARB_OUT; none while it is released (R335, R337). -/
def State.arbOut (s : State) : Option Nat :=
  if !s.paired || s.pwr.keepReset || !s.pwr.vddKeep then none
  else if s.role = 2 then some 8 else if s.role = 4 then some 5 else some 2

/-- The ACTIVE pin: none while it has high impedance (Table 15.1, Table 15.3). -/
def State.activePin (s : State) : Option Bool :=
  if !s.pwr.vddKeep || s.pwr.keepReset then none else some (s.coreUp && s.gateOpen)

/-- The latest heartbeat of the mate, of lane 0 or else lane 1, whichever delivers. -/
def State.mateBeat (s : State) : Option Heartbeat :=
  if (s.lane 0).alive then (s.lane 0).rx.map (·.1)
  else if (s.lane 1).alive then (s.lane 1).rx.map (·.1)
  else none

/-- The latest heartbeat ever received, of the lane with the later ingress timestamp. -/
def State.lastBeat (s : State) : Option (Heartbeat × TimeVal) :=
  match (s.lane 0).rx, (s.lane 1).rx with
  | some a, some b => if a.2.count < b.2.count then some b else some a
  | some a, none => some a
  | none, b => b

/-- The effective priority (R344). -/
def State.matPrio (s : State) : Nat :=
  match s.pwr.fuses.matPrio with
  | some v => v.toNat
  | none => s.fd Fld.MAT_PRIORITY.SET

/-- Octets 0 to 7 of this engine's identity hash as a big-endian number. -/
def idHash64 : Nat := beAt identityHash 0 8

/-- Whether this engine is the better engine (R344). Before any heartbeat nothing is known of the mate and it is not. -/
def State.preferred (s : State) : Bool :=
  match s.lastBeat with
  | none => false
  | some (h, _) => decide (s.matPrio < h.prio ∨ (s.matPrio = h.prio ∧ idHash64 < h.idHash.toNat))

/-- Whether the mate is known to be the better engine. -/
def State.worse (s : State) : Bool := s.lastBeat.isSome && !s.preferred

/-! ### Health (R345) -/

/-- Whether a record is active, MAJOR or CRITICAL, and unacknowledged. -/
def State.recordOpen (s : State) (i : Nat) : Bool :=
  s.fb Fld.FLT_REC_STAT.ACTIVE i && decide (2 ≤ s.fd Fld.FLT_REC_STAT.CLASS i) && !s.fb Fld.FLT_REC_STAT.ACKED i

/-- Whether any record is so. -/
def State.anyOpen (s : State) : Bool := (List.range 472).any (fun i => s.recordOpen i)

/-- The larger side of a bound. -/
def largerSide (b : Bound) : Nat := Nat.max b.early.toNat b.late.toNat

/-- Whether this engine is healthy. -/
def State.healthy (s : State) : Bool :=
  decide (s.fd Fld.FLT_ESC.STEP = 0) && decide (s.svcState = 1) && !s.anyOpen
    && decide (largerSide (s.datumBound s.now) ≤ (s.rg .SVC_OPEN_BOUND 0).toNat) && decide (s.role ≠ 4)

/-! ### The mate's status (R349, R350) -/

/-- A fault of Table 15.5 in record 464. -/
def State.matFault (s : State) (cause cls reason : Nat) : State :=
  s.raise { rec_ := 464, cause := cause, cls := cls, reason := reason }

/-- 10 µs. -/
def tenUs : Nat := 10 * usCount

/-- The status code by the rows of Table 15.4; none where no row holds. -/
def State.mateRow (s : State) : Option Nat :=
  let absent := s.pwr.mateHigh && (match s.pwr.mateRise with
    | none => true
    | some t => decide (t.count + tenUs ≤ s.now.count))
  if absent then some 0
  else if s.mat.loss.isSome then some (if s.mat.witness then 5 else 1)
  else if !s.linkAlive && s.arbGood then some 2
  else if s.linkAlive && !s.arbGood then some 3
  else if s.linkAlive then some 4
  else none

/-- The windows that are defined. -/
def State.windows (s : State) : List Nat := (List.range 4).filter (fun k => decide (s.fd Fld.MAT_MIR.SIZE k ≠ 0))

/-- Windows marked out of sync; the ACTIVE engine copies them. -/
def State.unsync (s : State) (ks : List Nat) : State :=
  let m := ks.foldl (fun m k => if m.testBit k then m - 2 ^ k else m) (s.fd Fld.MAT_MIR_STAT.SYNC)
  let s1 := s.setF Fld.MAT_MIR_STAT.SYNC m
  { s1 with mat := { s1.mat with
    copying := s1.mat.copying.filter (fun k => !ks.contains k) ++ ks.filter (fun k => decide (s.fd Fld.MAT_MIR.SIZE k ≠ 0)) } }

/-- 2 Announce intervals of 2^ANN_LOG2 s, in counts (R353). -/
def State.announce2 (s : State) : Nat :=
  let e := s.fd Fld.MAT_CFG.ANN_LOG2
  if e < 8 then 2 * secCount * 2 ^ e else 2 * secCount / 2 ^ (16 - e)

/-- The fields of MAT_STAT and the counters that show the present state. -/
def State.matShow (s : State) : State :=
  let mh := decide (s.fd Fld.MAT_STAT.MATE = 4) && (match s.mateBeat with
    | some h => h.healthy
    | none => false)
  let win := match s.mat.winEnd with
    | some t => decide (s.now.count < t.count)
    | none => false
  let pend := match s.mat.swap with
    | some w => w.acked
    | none => false
  let age := match s.mat.matchAt with
    | some t => Nat.min 0xFFFFFFFF (t.dist s.now / (1000 * usCount))
    | none => 0xFFFFFFFF
  let q := s.mat.mirQ.foldl (fun n f => n + f.data.length) 0
  let s1 := ((s.setB Fld.MAT_STAT.LINK1 (s.lane 1).alive).setB Fld.MAT_STAT.LINK0 (s.lane 0).alive).setF Fld.MAT_STAT.ARB
    s.pwr.arbIn
  let s2 := ((s1.setB Fld.MAT_STAT.PRESENT (!s.pwr.mateHigh)).setB Fld.MAT_STAT.PREFERRED s.preferred).setB
    Fld.MAT_STAT.HEALTHY s.healthy
  let s3 := ((s2.setB Fld.MAT_STAT.MATE_HEALTHY mh).setB Fld.MAT_STAT.WIN win).setB Fld.MAT_STAT.SWAP_PEND pend
  (s3.wr .MAT_WITNESS_AGE 0 (BitVec.ofNat 32 age)).setF Fld.MAT_MIR_STAT.QUEUE (Nat.min 4096 (ceilDiv q 1024))

/-- The two times of continuous health (R358, R359) brought up to date. -/
def State.matHold (s : State) : State :=
  let me := s.fb Fld.MAT_STAT.HEALTHY
  let mate := s.fb Fld.MAT_STAT.MATE_HEALTHY
  let keep := fun (on : Bool) (old : Option TimeVal) => if on then some (old.getD s.now) else none
  { s with mat := { s.mat with bothOk := keep (me && mate) s.mat.bothOk, aloneBad := keep (!me && mate) s.mat.aloneBad } }

/-- The declaration of loss (R350) with its REASON; a STANDBY engine promotes after the hold (R351). -/
def State.declareLoss (s : State) (reason : Nat) : State :=
  if s.mat.loss.isSome then s else
  let act := decide (s.role = 2)
  let mateAct := match s.lastBeat with
    | some (h, _) => decide (h.role = 2)
    | none => false
  let prom := if s.role = 3 then some (s.now.plus (s.fd Fld.MAT_PROMOTE_HOLD.HOLD * usCount)) else none
  let s1 : State := { s with mat := { s.mat with loss := some ⟨s.now, act, act && mateAct⟩, witness := false, promoteAt := prom } }
  s1.matFault 22 2 reason

/-- The status brought up to date after an event; `was` says whether heartbeats or ARB_IN were good before it. Entering LINK_LOST
or ARB_LOST raises its fault; when both are gone the mate is declared lost; when the mate is newly LINKED the ACTIVE engine
copies every window anew (R362). -/
def State.matRefresh (s : State) (was : Bool) : State :=
  if !s.paired then s else
  let s1 := if was && !s.linkAlive && !s.arbGood && !s.pwr.mateHigh then s.declareLoss 4 else s
  let old := s1.fd Fld.MAT_STAT.MATE
  match s1.mateRow with
  | none => s1.matShow.matHold
  | some c =>
    let s2 := s1.setF Fld.MAT_STAT.MATE c
    let s3 := if c = old then s2
      else if c = 2 then s2.matFault 21 2 1
      else if c = 3 then s2.matFault 21 2 2
      else if c = 4 ∧ (old = 0 ∨ old = 1 ∨ old = 5) then s2.unsync s2.windows
      else s2
    s3.matShow.matHold

/-- Whether heartbeats or ARB_IN are good. -/
def State.mateSeen (s : State) : Bool := s.linkAlive || s.arbGood

/-- The loss ends: heartbeats or ARB_IN have returned. -/
def State.lossEnds (s : State) : State :=
  { s with mat := { s.mat with loss := none, witness := false, promoteAt := none } }

/-! ### Roles (R346 to R348, R351, R353) -/

/-- A saturating 8-bit counter of MAT_ROLECNT with one more. -/
def State.roleCount (s : State) (f : Fld) : State := s.setF f (Nat.min 0xFF (s.fd f + 1))

/-- A witness window opened (R353). -/
def State.openWindow (s : State) : State :=
  { s with mat := { s.mat with promoted := true, winEnd := some (s.now.plus s.announce2) } }

/-- The core die's part of the pair starts (R346): both lanes untrained, the role INIT. -/
def State.matStart (s : State) : State :=
  let s1 := s.setF Fld.MAT_STAT.ROLE 1
  ({ s1 with mat := { MatState.reset with start := some s.now } }).matShow

/-- A lane trains: its calibration is taken at the present temperature of its quad (R215, R339). -/
def State.trainLane (s : State) (l : Nat) : State :=
  if (s.lane l).trained then s else s.setLane l { (s.lane l) with trained := true, cal := some (s.quadTemp 16) }

/-- The engine enters INIT (R346). -/
def State.matInit (s : State) (t0 t1 : Bool) : State :=
  match s.mat.start, s.mat.init with
  | some t, none =>
    if s.paired && ((t0 && t1) || decide (t.count + 2000 * usCount ≤ s.now.count)) then
      let s1 := if t0 then s.trainLane 0 else s
      let s2 := if t1 then s1.trainLane 1 else s1
      { s2 with mat := { s2.mat with init := some s.now } }
    else s
  | _, _ => s

/-- The role that the first case of R346 gives, with whether case 4 gave it. -/
def State.roleCase (s : State) : Option (Nat × Bool) :=
  let st := s.fd Fld.MAT_STAT.MATE
  let hb : Option Nat := s.mateBeat.map (fun h => h.role)
  if hb = some 2 ∨ s.pwr.arbIn = 3 then some (3, false)
  else if st = 4 ∧ (hb = some 1 ∨ hb = some 3) then some (if s.preferred then 2 else 3, false)
  else if hb = some 4 ∨ s.pwr.arbIn = 2 ∨ st = 0 then some (2, false)
  else if st = 1 then some (2, true)
  else none

/-- The engine decides its role (R346); a mate card that is seated and has never been heard is declared lost first. -/
def State.roleDecide (s : State) : State :=
  match s.mat.init with
  | none => s
  | some t =>
    if !s.paired || s.mat.decided || decide (s.now.count < t.count + 1000 * usCount) then s
    else
      let s0 := s.matRefresh (!s.linkAlive && !s.arbGood)
      match s0.roleCase with
      | none => s0
      | some (r, lost) =>
        let s1 : State := { s0 with mat := { s0.mat with decided := true } }
        let s2 := s1.setRole r 1
        (if lost then s2.openWindow else s2).matShow

/-- The worse ACTIVE engine that has seen ACTIVE on ARB_IN for 30 µs becomes STANDBY (R347). -/
def State.arbDemote (s : State) : State :=
  let seen : Bool := match s.mat.arbActive with
    | some t => decide (t.count + 30 * usCount ≤ s.now.count)
    | none => false
  let after : Bool := match s.mat.swapEnd with
    | some t => decide (t.count ≤ s.now.count)
    | none => true
  if s.paired ∧ s.role = 2 ∧ s.pwr.arbIn = 3 ∧ seen ∧ s.worse ∧ s.mat.swap = none ∧ after then
    (((s.setRole 3 8).roleCount Fld.MAT_ROLECNT.ARB).matFault 31 2 6).matShow
  else s

/-- The engine promotes itself (R351): the role, the count of takeovers, the windows out of sync (R361), and the witness window
when the mate is LOST. -/
def State.promote (s : State) (cause : Nat) : State :=
  let lost := s.mat.loss.isSome && !s.mat.witness
  let s1 := (s.setRole 2 cause).roleCount Fld.MAT_ROLECNT.TAKE
  let s2 : State := { s1 with mat := { s1.mat with promoteAt := none, mirWait := false } }
  let s3 := s2.unsync s2.windows
  (if lost then s3.openWindow else s3).matShow

/-- The time since the last match exceeds 2 Announce intervals (R353). -/
def State.witnessQuiet (s : State) : Bool :=
  match s.mat.matchAt with
  | some t => decide (s.announce2 < t.dist s.now)
  | none => true

/-- A STANDBY engine's promotion after the loss and its hold (R351, R353). -/
def State.promotionDue (s : State) : State :=
  match s.mat.promoteAt with
  | none => s
  | some t =>
    if s.paired ∧ s.role = 3 ∧ s.reached t ∧ (!s.mat.witness ∨ s.witnessQuiet) then s.promote 2 else s

/-- An Announce of the mate's clockIdentity on a witness port (R353). -/
def State.witnessMatch (s : State) (port : Nat) (clk : BitVec 64) : State :=
  let isWit := (s.pair .MAT_WITNESS_HI .MAT_WITNESS_LO).getLsbD port
  if !s.paired || !isWit || !s.linkUp port || s.pair .MAT_MATE_CLKID_HI .MAT_MATE_CLKID_LO ≠ clk then s
  else
    let inWin : Bool := match s.mat.winEnd with
      | some t => decide (s.now.count < t.count)
      | none => false
    let byRole := s.mat.promoted && (inWin || !s.mateSeen)
    let byBoth : Bool := match s.mat.loss with
      | some x => x.both && s.worse
      | none => false
    let s1 : State := { s with mat := { s.mat with matchAt := some s.now, witness := s.mat.loss.isSome } }
    let s2 := if s1.role = 2 ∧ (byRole ∨ byBoth) then
        let s2 := ((s1.setRole 3 9).roleCount Fld.MAT_ROLECNT.WIT).matFault 31 2 6
        { s2 with mat := { s2.mat with promoted := false, winEnd := none, promoteAt := s2.mat.loss.map (fun _ => s2.now) } }
      else s1
    s2.matRefresh false

/-- MAT_CMD (R348). -/
def State.matCmd (s : State) (v : BitVec 32) : State :=
  if bitAt v.toNat 31 then
    let s1 := s.setB Fld.MAT_WSTAT.ACCEPT true
    if s1.paired then ({ (s1.setRole 4 0x0B) with mat := { s1.mat with promoteAt := none } }).matShow else s1
  else if bitAt v.toNat 30 then
    if s.fd Fld.FLT_ESC.STEP ≠ 0 then s.setB Fld.MAT_WSTAT.CMD_REFUSED true
    else
      let s1 := s.setB Fld.MAT_WSTAT.ACCEPT true
      if s1.role = 4 ∧ s1.paired then (s1.setRole 3 0x0C).matShow else s1
  else s

/-! ### Planned swaps (R355 to R359) -/

/-- A swap refused or abandoned: its code in LAST, and cause OTHER, NOTICE. -/
def State.swapFail (s : State) (code : Nat) : State :=
  (({ s with mat := { s.mat with swap := none } }).setF Fld.MAT_SWAP_CTL.LAST code).matFault 31 0 7

/-- Whether entry 12 is QUALIFIED with |x| at most 50 ps in its last processed second. -/
def State.tracksMate (s : State) : Bool :=
  let x := (s.pair .ENS_REF_PHASE_HI .ENS_REF_PHASE_LO 12).toInt
  decide (s.fd Fld.ENS_REF_STATE.STATE 12 = 3) && decide (x.natAbs * 1000 ≤ 50 * 65536)

/-- The first condition of R355 that fails, by its code in LAST; what only the mate can check it answers for itself. -/
def State.swapBar (s : State) : Option Nat :=
  let mate := s.mateBeat.map (·.role)
  let incoming := decide (s.role = 3)
  if ¬ ((s.role = 2 ∧ mate = some 3) ∨ (s.role = 3 ∧ mate = some 2)) then some 2
  else if s.fd Fld.MAT_STAT.MATE ≠ 4 then some 3
  else if (if incoming then !s.healthy else !s.mateHealthy) then some 4
  else if incoming && !s.tracksMate then some 5
  else if !incoming && s.windows.any (fun k => !(s.fd Fld.MAT_MIR_STAT.SYNC).testBit k) then some 6
  else none

/-- A swap requested by this engine for a second; a request that finds another swap pending leaves that one. -/
def State.swapRequest (s : State) (at_ cause : Nat) : State :=
  if s.mat.swap.isSome then (s.setF Fld.MAT_SWAP_CTL.LAST 7).matFault 31 0 7 else
  match s.swapBar with
  | some c => s.swapFail c
  | none => { s with mat := { s.mat with swap := some ⟨at_, cause, true, false, decide (s.role = 2), false⟩ } }

/-- The first Datum second at least 2 s after now. -/
def State.swapSecond (s : State) : Nat := (s.now.plus (2 * secCount)).nextSec

/-- The mate's request answered (R355): SWAP_ACK or SWAP_NAK. -/
def State.swapReply (s : State) (h : Heartbeat) : State :=
  if !h.swapReq then { s with mat := { s.mat with swapNak := false } }
  else match s.mat.swap with
    | some w =>
      if w.at_ = h.swapAt ∧ !w.mine then s
      else { s with mat := { s.mat with swapNak := true } }
    | none =>
      if s.mat.swapNak then s
      else match s.swapBar with
        | some c => ({ s with mat := { s.mat with swapNak := true } }).swapFail c
        | none =>
          let per : Int := 3600 * s.fd Fld.MAT_SWAP_CTL.PERIOD
          let cause := if s.fb Fld.MAT_SWAP_CTL.EN ∧ ((h.swapAt : Int) - s.fd Fld.MAT_SWAP_AT.AT) % per = 0 then 5 else 4
          { s with mat := { s.mat with swap := some ⟨h.swapAt, cause, false, true, decide (s.role = 2), false⟩ } }

/-- The mate's answer to this engine's request. -/
def State.swapAnswer (s : State) (h : Heartbeat) : State :=
  match s.mat.swap with
  | some w =>
    if w.mine ∧ !w.acked then
      if h.swapAck ∧ h.swapAt = w.at_ then { s with mat := { s.mat with swap := some { w with acked := true } } }
      else if h.swapNak then s.swapFail 8
      else s
    else s
  | none => s

/-- The conditions checked again at S - 100 µs (R355): the incoming engine becomes ACTIVE, or the swap is abandoned. -/
def State.swapRecheck (s : State) : State :=
  match s.mat.swap with
  | none => s
  | some w =>
    if w.begun ∨ !s.paired ∨ s.now.count + 100 * usCount < w.at_ * secCount then s
    else if !w.acked then (s.swapFail 8).matShow
    else match s.swapBar with
      | some c => (s.swapFail c).matShow
      | none =>
        let s1 : State := { s with mat := { s.mat with swap := some { w with begun := true } } }
        (if w.out then s1 else s1.setRole 2 w.cause).matShow

/-- At S (R356): the outgoing engine becomes STANDBY and sends its END marker, the incoming one lets stores wait for it. -/
def State.swapInstant (s : State) : State :=
  match s.mat.swap with
  | none => s
  | some w =>
    if !w.begun ∨ !s.paired ∨ s.now.count < w.at_ * secCount then s
    else
      let end_ := (TimeVal.ofSec w.at_).plus (100 * usCount)
      let s1 : State := { s with mat := { s.mat with swap := none, swapEnd := some end_ } }
      let s2 := (s1.setF Fld.MAT_SWAP_CTL.LAST 1).roleCount Fld.MAT_ROLECNT.SWAP
      (if w.out then
        let s3 := s2.setRole 3 w.cause
        let n := s3.mat.mirSeq + 1
        { s3 with mat := { s3.mat with mirQ := s3.mat.mirQ ++ [(⟨n, 0, 0, [], true⟩ : MirFrame)], mirSeq := n } }
      else { s2 with mat := { s2.mat with mirWait := true } }).matShow

/-- The periodic schedule (R357): the ACTIVE engine requests 2 s before its second. -/
def State.periodicSwap (s : State) : State :=
  let at_ := s.now.sec.toNat + 2
  let per : Int := 3600 * s.fd Fld.MAT_SWAP_CTL.PERIOD
  if s.paired ∧ s.fb Fld.MAT_SWAP_CTL.EN ∧ s.role = 2 ∧ ((at_ : Int) - s.fd Fld.MAT_SWAP_AT.AT) % per = 0 then
    (s.swapRequest at_ 5).matShow
  else s

/-- Whether a condition has held for a number of seconds. -/
def State.heldFor (s : State) (t : Option TimeVal) (secs : Nat) : Bool :=
  match t with
  | some t => decide (t.count + secs * secCount ≤ s.now.count)
  | none => false

/-- Reversion (R358). -/
def State.reversion (s : State) : State :=
  if s.paired ∧ s.fb Fld.MAT_CFG.REVERT ∧ s.preferred ∧ s.role = 3
      ∧ s.heldFor s.mat.bothOk (s.fd Fld.MAT_REVERT_HOLD.HOLD) then (s.swapRequest s.swapSecond 6).matShow
  else s

/-- Health yield (R359). -/
def State.healthYield (s : State) : State :=
  if s.paired ∧ s.fb Fld.MAT_CFG.HYIELD ∧ s.role = 2 ∧ s.heldFor s.mat.aloneBad 1 then
    (s.swapRequest s.swapSecond 7).matShow
  else s

/-! ### Heartbeats (R340, R341) -/

/-- Q_p (`rx`) or L_p of a lane, in 2^-16 ns (R339). -/
def State.laneTerm (s : State) (l : Nat) (rx : Bool) : Side :=
  match (s.lane l).cal with
  | some t => s.portSum (portRows 3 false rx) 16 t
  | none => none

/-- A term as a 16-bit field of QL, in 2^-8 ns. -/
def qlField (x : Side) : Nat :=
  match x with
  | some n => Nat.min 0xFFFF (ceilDiv n 256)
  | none => 0xFFFF

/-- Whether an instant is the first launch point at or after k × 50 µs, or 25 µs later on the worse engine: closer than one
launch-point spacing of 25GBASE-R without FEC (2.56 ns). -/
def State.onBeat (s : State) (tx : TimeVal) : Bool :=
  let off := if s.preferred then 0 else 25 * usCount
  decide ((tx.count + 50 * usCount - off) % (50 * usCount) * 100 < 256 * 2 ^ 32)

/-- The heartbeat that a lane launches at `tx` (Table 15.2). -/
def State.heartbeat (s : State) (l : Nat) (tx : TimeVal) : Heartbeat :=
  let b := s.datumBound tx
  let w := s.mat.swap
  { role := s.role, healthy := s.healthy, yield := decide (s.role = 4)
    swapReq := match w with
      | some w => w.mine && !w.acked
      | none => false
    swapAck := match w with
      | some w => !w.mine && w.acked
      | none => false
    swapNak := s.mat.swapNak, step := s.fd Fld.FLT_ESC.STEP, prio := s.matPrio, seq := (s.lane l).seq + 1, tx := tx
    echoTx := (s.lane l).rx.map (fun r => r.1.tx), echoRx := (match (s.lane l).rx with
      | some r => r.2
      | none => .zero)
    early := b.early, late := b.late, swapAt := (match w with
      | some w => w.at_
      | none => 0)
    clkId := s.pair .MAT_CLKID_HI .MAT_CLKID_LO, idHash := BitVec.ofNat 64 idHash64, mirAck := s.mat.mirRx
    q := qlField (s.laneTerm l true), l := qlField (s.laneTerm l false) }

/-- A heartbeat launched on a lane (R340). -/
def State.beatLaunch (s : State) (l : Nat) (tx : TimeVal) : State :=
  if !s.paired || !(s.lane l).trained || !s.onBeat tx || !s.reached tx then s
  else
    let h := s.heartbeat l tx
    let s1 := s.setLane l { (s.lane l) with seq := h.seq }
    ({ s1 with mat := { s1.mat with sent := SMap.insert id s1.mat.sent l h } }).matShow

/-- The two-way measurement of a heartbeat (R341), with MAT_RTT. -/
def State.twoWay (s : State) (l : Nat) (h : Heartbeat) (t4 : TimeVal) : State :=
  match h.echoTx with
  | none => s
  | some t1 =>
    let c := fun (t : TimeVal) => (t.count : Int)
    let d := (c t4 - c h.tx) - (c h.echoRx - c t1)
    let rtt := (c t4 - c t1) - (c h.tx - c h.echoRx)
    let s1 := s.wr .MAT_RTT 0 (BitVec.ofInt 32 ((rtt + 2 ^ 23) / 2 ^ 24))
    let asymR : Reg := if l = 0 then .MAT_ASYM0 else .MAT_ASYM1
    let asymU : Reg := if l = 0 then .MAT_ASYM_U0 else .MAT_ASYM_U1
    let x := d / 2 ^ 17 + s.srg asymR * 256
    let own := Side.add (s.laneTerm l true) (s.laneTerm l false)
    let mate : Side := if h.q = 0xFFFF ∨ h.l = 0xFFFF then none else some ((h.q + h.l) * 256)
    let t2w := (Side.add own mate).map (fun n => ceilDiv n 2)
    let y := some (rateTerm (s.rg .ENS_REF_YMAX 12).toNat (t1.dist t4))
    let extra := Side.add (Side.add t2w (sideOf (s.rg asymU 0))) y
    let b := boundOf (Side.add (sideOf h.early) extra) (Side.add (sideOf h.late) extra)
    let m : EnsSample := ⟨t4.sec.toNat, x, b.early, b.late, false, []⟩
    { s1 with ens := { s1.ens with meas := s1.ens.meas ++ [(12, m)] } }

/-- A received heartbeat (R340, R341, R349, R351, R355): the lane delivers, its deadline is armed again; lost heartbeats are
counted by SEQ; the measurement goes to entry 12, from lane 1 only while lane 0 is down; a yield promotes a STANDBY engine; the
swap protocol's flags are answered; mirror frames that the mate has applied leave the queue. -/
def State.beatReceive (s : State) (l : Nat) (h : Heartbeat) (at_ : TimeVal) : State :=
  if !s.paired then s else
  let was := s.mateSeen
  let gap := match (s.lane l).rx with
    | some r => h.seq - r.1.seq - 1
    | none => 0
  let s1 := (s.trainLane l)
  let s2 := s1.setLane l { (s1.lane l) with rx := some (h, at_), alive := true }
  let s3 := (s2.engineArm (hMate l) (at_.plus (200 * usCount))).wr .MAT_HB_LOST 0
    (s2.rg .MAT_HB_LOST 0 + BitVec.ofNat 32 gap)
  let s4 := s3.setPair .MAT_MATE_CLKID_HI .MAT_MATE_CLKID_LO h.clkId
  let s5 : State := { s4 with mat := { s4.mat with mirQ := s4.mat.mirQ.filter (fun f => decide (h.mirAck < f.seq)) } }
  let s6 := s5.lossEnds.matRefresh was
  let s7 := if l = 0 ∨ !(s6.lane 0).alive then s6.twoWay l h at_ else s6
  let s8 := if h.yield ∧ s7.role = 3 then s7.promote 3 else s7
  ((s8.swapReply h).swapAnswer h).matShow

/-- A lane's loss deadline (R349). -/
def State.beatLost (s : State) (l : Nat) : State :=
  match (s.slot (hMate l)).armed with
  | none => s
  | some e =>
    if !s.reached e.instant then s
    else
      let was := s.mateSeen
      let s1 := (s.engineFree (hMate l) true).setLane l { (s.lane l) with alive := false }
      let s2 := if (s1.lane (1 - l)).alive then s1.matFault 31 1 3 else s1
      s2.matRefresh was

/-- The decoded ARB_IN changes (R337, R349 to R351). -/
def State.arbChange (s : State) (code : Nat) : State :=
  let was := s.mateSeen
  let old := s.pwr.arbIn
  let s1 : State := { s with pwr := { s.pwr with arbIn := code } }
  if !s1.coreUp then s1
  else
    let s2 : State := { s1 with mat := { s1.mat with arbActive := if code = 3 then some s1.now else none } }
    let s3 := (if code ≠ 0 then s2.lossEnds else s2).matRefresh was
    if s3.paired ∧ old = 3 ∧ code = 2 ∧ s3.role = 3 then s3.promote 3 else s3.matShow

/-- MATE_PRESENT changes (R350, R361, R363, R364). -/
def State.presentChange (s : State) (high : Bool) : State :=
  if s.pwr.mateHigh = high then s else
  let s1 : State := { s with pwr := { s.pwr with mateHigh := high, mateRise := if high then some s.now else none } }
  if !s1.paired then (if s1.coreUp then s1.matShow else s1)
  else if high then (s1.declareLoss 5).matRefresh false
  else (s1.lossEnds.unsync s1.windows).matRefresh false

/-! ### The mirror (R360 to R362) -/

/-- The 4 MiB of the mirror's queue, in octets of data. -/
def mirrorLimit : Nat := 4 * 2 ^ 20

/-- The oldest written line goes into the queue, 1 µs after its first write (R360); a full queue puts its window out of sync
(R361). -/
def State.mirrorSend (s : State) : State :=
  match s.mat.dirty with
  | [] => s
  | (k, off, t) :: r =>
    if s.role ≠ 2 ∨ s.now.count < t.count + usCount then s
    else
      let s1 : State := { s with mat := { s.mat with dirty := r } }
      let used := s1.mat.mirQ.foldl (fun n f => n + f.data.length) 0
      if mirrorLimit < used + 64 then (s1.unsync [k]).matShow
      else
        let n := s1.mat.mirSeq + 1
        let data := s1.octets (ddrBase + s1.fd Fld.MAT_MIR.BASE k * 0x100000 + off) 64
        ({ s1 with mat := { s1.mat with mirQ := s1.mat.mirQ ++ [(⟨n, k, off, data, false⟩ : MirFrame)], mirSeq := n } }).matShow

/-- Whether the engine applies mirror frames: it is not ACTIVE, or it waits for END (R362). -/
def State.mirrorTakes (s : State) : Bool := s.paired && (decide (s.role = 3 ∨ s.role = 4) || s.mat.mirWait)

/-- A received mirror frame, applied in sequence at the same offset of this engine's window (R360). -/
def State.mirrorApply (s : State) (f : MirFrame) : State :=
  let base := ddrBase + s.fd Fld.MAT_MIR.BASE f.window * 0x100000
  if !s.mirrorTakes || f.end_ || f.seq ≠ s.mat.mirRx + 1 || 3 < f.window
      || s.fd Fld.MAT_MIR.SIZE f.window * 0x100000 < f.off + f.data.length then s
  else
    let s1 := s.storeMem (base + f.off) f.data
    { s1 with mat := { s1.mat with mirRx := f.seq } }

/-- The END marker (R362): stores into the windows resume. -/
def State.mirrorEnd (s : State) (seq : Nat) : State :=
  if !s.mirrorTakes || decide (seq ≠ s.mat.mirRx + 1) then s
  else { s with mat := { s.mat with mirRx := seq, mirWait := false } }

/-- A whole-window copy completes (R361). -/
def State.copyDone (s : State) (k : Nat) : State :=
  if s.role = 2 ∧ s.fd Fld.MAT_STAT.MATE = 4 ∧ s.mat.copying.contains k then
    let s1 := s.setF Fld.MAT_MIR_STAT.SYNC (s.fd Fld.MAT_MIR_STAT.SYNC ||| 2 ^ k)
    { s1 with mat := { s1.mat with copying := s1.mat.copying.filter (fun x => decide (x ≠ k)) } }
  else s

/-! ### Writes -/

/-- An accepted write of a Keeper-held register of the block: applied, committed, recorded. -/
def State.matPlain (s : State) (r : Reg) (i : Nat) (v : BitVec 32) (ok : Bool) : State :=
  if ok then ((s.wrRw r i v).cairnReg r i).setB Fld.MAT_WSTAT.ACCEPT true else s.setB Fld.MAT_WSTAT.RANGE true

/-- MAT_CFG: EN changes only while the service is CLOSED; ANN_LOG2 lies from -3 to 4. -/
def State.matCfg (s : State) (v : BitVec 32) : State :=
  let en := Fld.MAT_CFG.EN.of v = 1
  let a := signedOf 4 (Fld.MAT_CFG.ANN_LOG2.of v)
  let change := decide (en ≠ s.fb Fld.MAT_CFG.EN)
  let ok := decide (-3 ≤ a ∧ a ≤ 4) && !(change && decide (s.svcState ≠ 0))
  let s1 := s.matPlain .MAT_CFG 0 v ok
  if ok && change && s1.coreUp then s1.matStart else s1

/-- A register write of the block as it takes effect. -/
def State.matWrite (s : State) (r : Reg) (i : Nat) (v : BitVec 32) : State :=
  if r = .MAT_WSTAT then s.w1c r i v
  else if r = .MAT_CFG then s.matCfg v
  else if r = .MAT_PROMOTE_HOLD then s.matPlain r i v (decide (Fld.MAT_PROMOTE_HOLD.HOLD.of v ≤ 2000000))
  else if r = .MAT_REVERT_HOLD then s.matPlain r i v (decide (10 ≤ Fld.MAT_REVERT_HOLD.HOLD.of v))
  else if r = .MAT_SWAP_AT then s.matPlain r i v (decide (Fld.MAT_SWAP_AT.AT.of v ≤ 86399))
  else if r = .MAT_SWAP_CTL then
    let p := Fld.MAT_SWAP_CTL.PERIOD.of v
    let ok := decide (1 ≤ p ∧ p ≤ 168)
    let s1 := s.matPlain r i (Fld.MAT_SWAP_CTL.NOW.put v 0) ok
    if ok && bitAt v.toNat 30 && s1.paired then (s1.swapRequest s1.swapSecond 4).matShow else s1
  else if r = .MAT_CMD then s.matCmd v
  else if r = .MAT_MIR then
    let ok := decide ((Fld.MAT_MIR.BASE.of v + Fld.MAT_MIR.SIZE.of v) * 0x100000 ≤ s.ddrSize ∨ Fld.MAT_MIR.SIZE.of v = 0)
    let s1 := s.matPlain r i v ok
    if ok then s1.unsync [i] else s1
  else if r = .MAT_PRIORITY then
    let s1 := (s.setF Fld.MAT_PRIORITY.SET (bitsOf v.toNat 15 8))
    ((s1.setF Fld.MAT_PRIORITY.PRIO s1.matPrio).cairnReg .MAT_PRIORITY 0).setB Fld.MAT_WSTAT.ACCEPT true
  else s.matPlain r i v true

end Sys2Proof.Machine
end

