-- ==== Sys2Proof/Machine/IrqOps.lean ====
section
/-!
DEFINITION. Machine/IrqOps.lean: the interrupt controller (13_interrupts_counters.md, R287 to R300): raises, arbitration, issue,
claim and completion, fallback, and the block's writes.
-/
namespace Sys2Proof.Machine

/-- Whether a source is reserved (Table 13.1). -/
def irqReserved (n : Nat) : Bool := decide ((111 ≤ n ∧ n ≤ 127) ∨ (208 ≤ n ∧ n ≤ 255))

/-- The priority of a source. -/
def State.irqPrio (s : State) (n : Nat) : Nat := s.fd Fld.IRQ_SRC_CFG.PRIO n

/-- The tier of a priority (R291): its top WIDTH bits. -/
def State.irqTier (s : State) (prio : Nat) : Nat := prio / 2 ^ (8 - s.fd Fld.IRQ_TIERS.WIDTH)

/-- Whether a target code is well formed (Table 13.2). -/
def targetOk (t : Nat) : Bool :=
  let b := t % 2 ^ 14
  if t / 2 ^ 14 = 0 then decide (b = 0) else if t / 2 ^ 14 = 1 then decide (b < 2048)
  else if t / 2 ^ 14 = 2 then decide (b < 512) else decide (b = 0)

/-- Whether a target can be reached (R298). -/
def State.targetUp (s : State) (t : Nat) : Bool :=
  if t / 2 ^ 14 = 1 then s.hst.pcieUp && s.hst.busMaster && s.hst.msixEn
  else if t / 2 ^ 14 = 2 then
    let th := t % 512
    match (s.thread th).st with
    | .idle | .aborted | .faulted => false
    | _ => !s.pwr.isolated.contains (clusterOf th) && !s.gatedCluster (clusterOf th)
  else if t / 2 ^ 14 = 3 then s.coreUp
  else false

/-- The sources issued to a target and unclaimed. -/
def State.issuedOn (s : State) (t : Nat) : List Nat :=
  (s.irq.filter (fun e => decide (e.2.target.toNat = t) && s.fb Fld.IRQ_SRC_STAT.ISSUED e.1)).map (fun e => e.1)

/-- The sources active on a target. -/
def State.activeOn (s : State) (t : Nat) : List Nat :=
  (s.irq.filter (fun e => decide (e.2.target.toNat = t) && s.fb Fld.IRQ_SRC_STAT.ACTIVE e.1)).map (fun e => e.1)

/-- The running tier of a target: the highest tier among its active sources. -/
def State.runTier (s : State) (t : Nat) : Nat := (s.activeOn t).foldl (fun m n => Nat.max m (s.irqDyn n).tier) 0

/-- Whether a target can accept a source now (R293, R295, R296). -/
def State.targetTakes (s : State) (t n : Nat) : Bool :=
  if t / 2 ^ 14 = 2 then decide (s.issuedOn t = []) && (s.thread (t % 512)).hasFree
  else
    let act := s.activeOn t
    decide (s.issuedOn t = [])
      && (decide (act = []) || (decide (s.runTier t < s.irqTier (s.irqPrio n)) && decide (act.length < 8)))

/-- Whether a source waits to be issued to a target. -/
def State.irqWaits (s : State) (t n : Nat) : Bool :=
  s.fb Fld.IRQ_SRC_STAT.PEND n && !s.fb Fld.IRQ_SRC_STAT.ISSUED n && !s.fb Fld.IRQ_SRC_STAT.ACTIVE n
    && decide (s.fd Fld.IRQ_SRC_TGT.TARGET n = t)

/-- The winning source of a target (R291): the highest PRIO, and among equals the lower number. -/
def State.irqWinner (s : State) (t : Nat) : Option Nat :=
  (List.range 512).foldl (fun (w : Option Nat) n =>
    if s.irqWaits t n then
      match w with
      | none => some n
      | some m => if s.irqPrio m < s.irqPrio n then some n else some m
    else w) none

/-- The code of a host vector. -/
def vecTarget (v : Nat) : Nat := 2 ^ 14 + v

/-- IRQ_RUNv brought up to date. -/
def State.irqRun (s : State) (t : Nat) : State :=
  if t / 2 ^ 14 = 1 then
    let v := t % 2 ^ 11
    let iss := s.issuedOn t
    let w := bit01 (decide (iss ≠ [])) * 2 ^ 31 + (s.activeOn t).length * 2 ^ 24 + s.runTier t * 2 ^ 16 + iss.headD 0
    s.wr .IRQ_RUN v (BitVec.ofNat 32 w)
  else s

/-- A masked vector's message waits in the pending bit array of the MSI-X table; an unmasked one is posted at once (R293). -/
def State.msixPost (s : State) (v : Nat) : State :=
  if bitAt (SMap.get (fun _ => (1 : BitVec 32)) s.hst.msix (v * 4 + 3)).toNat 0 then
    { s with hst := { s.hst with msixPba := SMap.insert id s.hst.msixPba v true } }
  else s

/-- A source issued to a target (R293, R295, R296); `fell` marks the fallback. The security controller claims and completes at once
(DESIGN CHOICE). -/
def State.irqIssueTo (s : State) (n t : Nat) (fell : Bool) : State :=
  let det := s.fd Fld.IRQ_SRC_STAT.DETAIL n
  let s1 := ((((s.setB Fld.IRQ_SRC_STAT.PEND false n).setF Fld.IRQ_SRC_STAT.COALESCE 0 n).setB Fld.IRQ_SRC_STAT.ISSUED true
    n).setB Fld.IRQ_SRC_STAT.STUCK false n).setIrqDyn n
    { (s.irqDyn n) with target := BitVec.ofNat 16 t, detail := det, moved := false, fell := fell, firstWin := none }
  if t / 2 ^ 14 = 2 then s1.notify (t % 512) (s1.mkNotice .irq 0 n s1.now 5 n)
  else if t / 2 ^ 14 = 1 then (s1.irqRun t).msixPost (t % 2 ^ 11)
  else (s1.setB Fld.IRQ_SRC_STAT.ISSUED false n).setIrqDyn n { (s1.irqDyn n) with target := 0, moved := false, fell := false, tier := 0 }

/-- One arbitration for a target (R291, R293, R298): the winner is issued once the target can accept it; a winner of a target
that cannot be reached notes its first arbitration. -/
def State.irqArbitrate (s : State) (t : Nat) : State :=
  if !s.coreUp || !s.fb Fld.IRQ_CTL.GEN || decide (t / 2 ^ 14 = 0) then s
  else match s.irqWinner t with
    | none => s
    | some n =>
      if s.targetUp t then (if s.targetTakes t n then s.irqIssueTo n t false else s)
      else if (s.irqDyn n).firstWin.isNone then s.setIrqDyn n { (s.irqDyn n) with firstWin := some s.now }
      else s

/-- A source that has waited IRQ_TARGET_TIMEOUT for a target it cannot reach (R298). -/
def State.irqTimeout (s : State) (n : Nat) : State :=
  let t := s.fd Fld.IRQ_SRC_TGT.TARGET n
  match (s.irqDyn n).firstWin with
  | none => s
  | some w =>
    if !s.coreUp || !s.fb Fld.IRQ_CTL.GEN || !s.irqWaits t n || s.targetUp t
        || decide (s.now.count < w.count + s.fd Fld.IRQ_TARGET_TIMEOUT.US * usCount) then s
    else
      let f := s.fd Fld.IRQ_SRC_TGT.FALLBACK n
      if f / 2 ^ 14 = 0 || !s.targetUp f then s.setB Fld.IRQ_SRC_STAT.STUCK true n
      else if s.targetTakes f n then s.irqIssueTo n f true
      else s

/-- The claim record (Table 13.3). -/
def State.claimRecord (s : State) (n : Nat) : BitVec 32 :=
  let d := s.irqDyn n
  BitVec.ofNat 32 (2 ^ 31 + bit01 d.moved * 2 ^ 30 + bit01 (s.irqLapsed n) * 2 ^ 29 + bit01 d.fell * 2 ^ 28
    + d.detail % 256 * 2 ^ 20 + n)

/-- The issued source of a target becomes active with its tier (R294, R296). -/
def State.irqActivate (s : State) (n : Nat) : State :=
  ((s.setB Fld.IRQ_SRC_STAT.ISSUED false n).setB Fld.IRQ_SRC_STAT.ACTIVE true n).setIrqDyn n
    { (s.irqDyn n) with tier := s.irqTier (s.irqPrio n) }

/-- A host read of IRQ_CLAIMv (R294): the register holds what the latest read returned. -/
def State.irqClaim (s : State) (v : Nat) : State :=
  if !s.coreUp then s else
  match s.issuedOn (vecTarget v) with
  | [] => s.wr .IRQ_CLAIM v 0
  | n :: _ => ((s.wr .IRQ_CLAIM v (s.claimRecord n)).irqActivate n).irqRun (vecTarget v)

/-- A completion (R294). -/
def State.irqEoi (s : State) (v n : Nat) : State :=
  if (s.activeOn (vecTarget v)).contains n then
    let s1 := (s.setB Fld.IRQ_SRC_STAT.ACTIVE false n).setIrqDyn n
      { (s.irqDyn n) with target := 0, moved := false, fell := false, tier := 0 }
    (s1.irqRun (vecTarget v)).setB Fld.IRQ_WSTAT.ACCEPT true
  else s.setB Fld.IRQ_WSTAT.EOI_BAD true

/-- An accepted write of the block. -/
def State.irqOk (s : State) : State := s.setB Fld.IRQ_WSTAT.ACCEPT true

/-- A discarded write of the block. -/
def State.irqRange (s : State) : State := s.setB Fld.IRQ_WSTAT.RANGE true

/-- A write of IRQ_SRCn_CFG (R287, R288). -/
def State.irqCfg (s : State) (n : Nat) (v : BitVec 32) : State :=
  let en := bitAt v.toNat 31
  if en && irqReserved n then s.irqRange
  else
    let rise := en && !s.fb Fld.IRQ_SRC_CFG.EN n
    let s1 := (s.wrRw .IRQ_SRC_CFG n v).irqOk
    if rise && !s1.fb Fld.IRQ_SRC_CFG.MODE n && (s1.irqDyn n).line then s1.irqLatch n 0 else s1

/-- A doorbell raise (R289). -/
def State.doorbell (s : State) (n : Nat) : State :=
  if s.fb Fld.IRQ_SRC_CFG.EN n && s.fb Fld.IRQ_SRC_CFG.MODE n then s.irqLatch n 0
  else (s.bump .IRQ_DB_DROP).setB Fld.IRQ_WSTAT.DB_DROP true

/-- A write of IRQ_PEND_SET (R290). -/
def State.pendSet (s : State) (n : Nat) : State :=
  if s.fb Fld.IRQ_SRC_CFG.EN n then
    (if s.fb Fld.IRQ_SRC_STAT.PEND n then s else s.setB Fld.IRQ_SRC_STAT.PEND true n).irqOk
  else s.irqRange

/-- A write of IRQ_PEND_CLR (R290). -/
def State.pendClr (s : State) (n : Nat) : State := (s.setB Fld.IRQ_SRC_STAT.PEND false n).irqOk

/-- A write of IRQ_SRCn_TGT (R292, R297). -/
def State.irqTgt (s : State) (n : Nat) (v : BitVec 32) : State :=
  if !targetOk (v.toNat % 65536) || !targetOk (v.toNat / 65536) then s.irqRange
  else
    let moved := s.fb Fld.IRQ_SRC_STAT.ISSUED n && decide (s.fd Fld.IRQ_SRC_TGT.TARGET n ≠ v.toNat % 65536)
    let d := s.irqDyn n
    let first := if s.fd Fld.IRQ_SRC_TGT.TARGET n = v.toNat % 65536 then d.firstWin else none
    ((s.wr .IRQ_SRC_TGT n v).setIrqDyn n { d with moved := d.moved || moved, firstWin := first }).irqOk

/-- A register write of the block; `i` is the register's index. -/
def State.irqWrite (s : State) (r : Reg) (i : Nat) (v : BitVec 32) : State :=
  let n := v.toNat % 512
  if r = .IRQ_WSTAT then s.w1c r i v
  else if r = .IRQ_CTL then (s.wrRw r i v).irqOk
  else if r = .IRQ_TIERS then (if Fld.IRQ_TIERS.WIDTH.of v ≤ 8 then (s.wrRw r i v).irqOk else s.irqRange)
  else if r = .IRQ_TARGET_TIMEOUT then
    let u := Fld.IRQ_TARGET_TIMEOUT.US.of v
    if 1 ≤ u ∧ u ≤ 1000000 then (s.wrRw r i v).irqOk else s.irqRange
  else if r = .IRQ_DOORBELL then s.doorbell n
  else if r = .IRQ_PEND_SET then s.pendSet n
  else if r = .IRQ_PEND_CLR then s.pendClr n
  else if r = .IRQ_SRC_CFG then s.irqCfg i v
  else if r = .IRQ_SRC_TGT then s.irqTgt i v
  else if r = .IRQ_EOI then s.irqEoi i n
  else s

end Sys2Proof.Machine
end

