-- ==== Sys2Proof/Machine/FltOps.lean ====
section
/-!
DEFINITION. Machine/FltOps.lean: acknowledging and clearing fault records, grace expiry, the ladder's release, FAULT_N, the
Damper's own registers (11_damper_faults.md).
-/
namespace Sys2Proof.Machine

/-- FAULT_N (R261): none while it has high impedance, otherwise whether it is driven low. -/
def State.faultN (s : State) : Option Bool :=
  if !s.pwr.vddKeep || s.pwr.keepReset then none
  else some (s.flt.pulse || s.flt.step3Hold || s.fb Fld.FLT_PIN_HOLD.HOLD)

/-- The pulse on FAULT_N ends; the pin takes the level set by HOLD (Table 11.5). -/
def State.pulseEnd (s : State) : State := { s with flt := { s.flt with pulse := false } }

/-- An accepted write of the FLT block. -/
def State.fltOk (s : State) : State := s.setB Fld.FLT_WSTAT.ACCEPT true

/-- A record acknowledged (R262): its timer and its ladder stop; an inactive record is left as it is. -/
def State.fltAck (s : State) (i : Nat) : State :=
  if s.fb Fld.FLT_REC_STAT.ACTIVE i then (s.setB Fld.FLT_REC_STAT.ACKED true i).stopGrace i false else s

/-- The registers of a record that hold what was raised. -/
def recordRegs : List Reg :=
  [.FLT_REC_STAT, .FLT_REC_CAUSE, .FLT_REC_SOURCE, .FLT_REC_DETAIL, .FLT_REC_IMG_HI, .FLT_REC_IMG_LO, .FLT_REC_FIRST_SEC,
    .FLT_REC_FIRST_NS, .FLT_REC_LAST_SEC, .FLT_REC_LAST_NS]

/-- A record cleared, or the clear refused (R262). -/
def State.fltClear (s : State) (i : Nat) : State :=
  if s.recordOpen i then s.setB Fld.FLT_WSTAT.CLEAR_REFUSED true
  else recordRegs.foldl (fun s r => s.wr r i 0) (s.stopGrace i false)

/-- A write of FLT_RECi_CTL by the host: ACK, then CLEAR. -/
def State.fltCtl (s : State) (i : Nat) (v : BitVec 32) : State :=
  let s1 := if bitAt v.toNat 0 then (s.fltAck i).fltOk else s
  if bitAt v.toNat 1 then s1.fltClear i else s1

/-- A record's grace timer expires (R263, R264). -/
def State.graceExpiry (s : State) (i : Nat) : State :=
  match SMap.find s.flt.grace i with
  | none => s
  | some g => if s.reached g.at_ then s.escalate i g.nextStep else s

/-- FLT_ESC.RELEASE (R268, R348). -/
def State.ladderRelease (s : State) : State :=
  if s.anyOpen then s.setB Fld.FLT_WSTAT.RELEASE_REFUSED true
  else
    let s1 := (s.setF Fld.FLT_ESC.STEP 0).setB Fld.FLT_ESC.BANK_FORCED false
    let s2 := if s1.role = 4 then s1.setRole 3 0x0A else s1
    s2.fltOk

/-- A register write of the FLT block by the host as it takes effect. -/
def State.fltWrite (s : State) (r : Reg) (i : Nat) (v : BitVec 32) : State :=
  if r = .FLT_WSTAT then s.w1c r i v
  else if r = .FLT_GRACE then
    let g := Fld.FLT_GRACE.GRACE.of v
    if 1 ≤ g ∧ g ≤ 2000000 then (s.wrRw r i v).fltOk else s.setB Fld.FLT_WSTAT.RANGE true
  else if r = .FLT_PIN_HOLD ∨ r = .FLT_HANDLER then (s.wrRw r i v).fltOk
  else if r = .FLT_ESC then (if bitAt v.toNat 31 then s.ladderRelease else s.fltOk)
  else if r = .FLT_ESC_CTL then
    if Fld.FLT_ESC_CTL.MAXRST.of v = 0 then s.setB Fld.FLT_WSTAT.RANGE true else (s.wrRw r i v).fltOk
  else if r = .FLT_REC_CTL then s.fltCtl i v
  else s

/-! ### The Damper's registers -/

/-- DMP_FUSE.DFDT_CEIL: 0x2710 while unblown, and never more. -/
def State.dfdtCeil (s : State) : Nat := Nat.min 0x2710 (s.pwr.fuses.dfdtCeil.getD 0x2710)

/-- The copy of DMP_MAX_DFDT takes effect on the clock die (R252). -/
def State.dfdtTake (s : State) (v : Nat) : State :=
  let hist := ((s.tick, s.flt.dfdtClock) :: s.flt.dfdtHist).filter (fun e => decide (s.tick < e.1 + dfdtWindow))
  { s with flt := { s.flt with dfdtClock := v, dfdtHist := hist } }

/-- Whether a write of DMP_MAX_DFDT is accepted (R252). -/
def State.dfdtOk (s : State) (v : BitVec 32) : Bool :=
  decide (1 ≤ Fld.DMP_MAX_DFDT.DFDT.of v ∧ Fld.DMP_MAX_DFDT.DFDT.of v ≤ s.dfdtCeil)

/-- A write of DMP_MAX_DFDT on the core die: the register changes and its copy sets out for the clock die (R252). -/
def State.dfdtWrite (s : State) (v : BitVec 32) : State :=
  if s.dfdtOk v then
    let s1 := s.wrRw .DMP_MAX_DFDT 0 v
    { s1 with hst := { s1.hst with posted := s1.hst.posted ++ [⟨.engine, ⟨.DMP_MAX_DFDT, 0⟩, s1.rg .DMP_MAX_DFDT 0⟩] } }
  else s.setB Fld.DMP_WSTAT.RANGE true

/-- A queue ceiling written: its bucket is full (R254). -/
def State.qceilWrite (s : State) (i : Nat) (v : BitVec 32) : State :=
  if Fld.DMP_QCEIL.BURST.of v = 0 then s.setB Fld.DMP_WSTAT.RANGE true else (s.wrRw .DMP_QCEIL i v).refill i

/-- A register write of the DMP block by the host. -/
def State.dmpWrite (s : State) (r : Reg) (i : Nat) (v : BitVec 32) : State :=
  if r = .DMP_WSTAT then s.w1c r i v
  else if r = .DMP_MAX_DFDT then s.dfdtWrite v
  else if r = .DMP_QCEIL then s.qceilWrite i v
  else if r = .DMP_OSC_MAX then
    if v.toNat < (s.rg .DMP_OSC_MIN i).toNat then s.setB Fld.DMP_WSTAT.RANGE true else s.wrRw r i v
  else if r = .DMP_OSC_INTERVAL then
    if Fld.DMP_OSC_INTERVAL.INTERVAL.of v = 0 then s.setB Fld.DMP_WSTAT.RANGE true else s.wrRw r i v
  else s.wrRw r i v

end Sys2Proof.Machine
end

