-- ==== Sys2Proof/Machine/HstOps.lean ====
section
/-!
DEFINITION. Machine/HstOps.lean: the host interface (14_host_registers.md): command queues, completions and aborts, loss of the
PCIe link, BAR2, the memory scrubber, the writes of the HST and MEM blocks.
-/
namespace Sys2Proof.Machine

/-! ### Queues (R323 to R326) -/

/-- Whether a queue is enabled. -/
def State.queueOn (s : State) (q : Nat) : Bool := s.fb Fld.HST_Q_CFG.EN q

/-- The commands of a queue that its doorbells cover and that have not started. -/
def State.waiting (s : State) (q : Nat) : Nat :=
  (s.fd Fld.HST_Q_SQ_TAIL.SQ_TAIL q + 65536 - s.fd Fld.HST_Q_SQ_HEAD.SQ_HEAD q) % 65536

/-- Whether a queue's command is outstanding: a key update in verification (R325). -/
def State.outstanding (s : State) (q : Nat) : Bool :=
  match s.key.env with
  | some x => decide (x.q = q)
  | none => false

/-- Whether the engine can start the next command of a queue: it is enabled, a doorbell covers a command, the one before it has
completed, and fetching is not stopped (R325, R386). -/
def State.canStart (s : State) (q : Nat) : Bool :=
  s.coreUp && s.queueOn q && decide (s.waiting q ≠ 0) && !s.outstanding q && !s.hst.stopFetch

/-- The next command of a queue is fetched. -/
def State.fetchCmd (s : State) (q : Nat) : State :=
  s.setF Fld.HST_Q_SQ_HEAD.SQ_HEAD (s.fd Fld.HST_Q_SQ_HEAD.SQ_HEAD q + 1) q

/-- The status line of HST_CQq (R326). -/
def State.cqLine (s : State) (q : Nat) : State :=
  s.irqLine q (decide (s.fd Fld.HST_Q_CQ_TAIL.CQ_TAIL q ≠ s.fd Fld.HST_Q_CQ_HEAD.CQ_HEAD q))

/-- A completion written into the queue's ring (R324, R326); PHASE inverts when the ring wraps. -/
def State.complete (s : State) (q : Nat) (cid : BitVec 32) (st : Status) (result : Nat) : State :=
  let i := s.fd Fld.HST_Q_CQ_TAIL.CQ_TAIL q
  let ph := s.fb Fld.HST_Q_CQ_TAIL.PHASE q
  let c : Completion := ⟨BitVec.ofNat 64 result, cid, BitVec.ofNat 16 (s.fd Fld.HST_Q_SQ_HEAD.SQ_HEAD q), st, ph⟩
  let s1 : State := { s with hst := { s.hst with cq := SMap.set id (fun _ => Completion.none) s.hst.cq (q * 64 + i % 64) c } }
  let s2 := s1.setF Fld.HST_Q_CQ_TAIL.CQ_TAIL (i + 1) q
  (if (i + 1) % 64 = 0 then s2.setB Fld.HST_Q_CQ_TAIL.PHASE (!ph) q else s2).cqLine q

/-- The octets a command writes into its buffer. -/
def State.output (s : State) (q : Nat) (bs : List Byte) : State :=
  { s with hst := { s.hst with outBuf := SMap.set id (fun _ => []) s.hst.outBuf q bs } }

/-- A host command that starts and completes (R325): its effect with its status and RESULT. -/
def State.command (s : State) (q : Nat) (cid : BitVec 32) (body : State → State × Status × Nat) : State :=
  if s.canStart q then
    let r := body (s.fetchCmd q)
    r.1.complete q cid r.2.1 r.2.2
  else s

/-- A host command that needs the clock die: LOST while the die-to-die link is down (R320). -/
def State.clockCommand (s : State) (q : Nat) (cid : BitVec 32) (body : State → State × Status × Nat) : State :=
  s.command q cid (fun s => if s.d2dUp then body s else (s, .lost, 0))

/-- A write of HST_Qq_CFG (R323). -/
def State.queueEn (s : State) (q : Nat) (v : BitVec 32) : State :=
  if bitAt v.toNat 31 then
    let s1 := ((s.setF Fld.HST_Q_SQ_TAIL.SQ_TAIL 0 q).setF Fld.HST_Q_SQ_HEAD.SQ_HEAD 0 q).setF Fld.HST_Q_CQ_HEAD.CQ_HEAD 0 q
    let s2 := ((s1.setF Fld.HST_Q_CQ_TAIL.CQ_TAIL 0 q).setB Fld.HST_Q_CQ_TAIL.PHASE true q).setB Fld.HST_Q_CFG.EN true q
    (s2.cqLine q).setB Fld.HST_WSTAT.ACCEPT true
  else if s.queueOn q ∧ (s.waiting q ≠ 0 ∨ s.outstanding q) then s.setB Fld.HST_WSTAT.BUSY true
  else
    let s1 := (s.setB Fld.HST_Q_CFG.EN false q).setB Fld.HST_WSTAT.ACCEPT true
    if s.queueOn q then s1.orphan (.hostQueue q) else s1

/-- A discarded doorbell (R324). -/
def State.doorbellBad (s : State) : State :=
  (s.setB Fld.HST_WSTAT.DOORBELL true).raise { rec_ := 467, cause := 31, cls := 0 }

/-- A difference of two 16-bit counters. -/
def diff16 (a b : Nat) : Nat := (a + 65536 - b) % 65536

/-- A write of SQ_TAIL (R324). -/
def State.sqTail (s : State) (q : Nat) (v : BitVec 32) : State :=
  let t := v.toNat % 65536
  if s.queueOn q && decide (diff16 t (s.fd Fld.HST_Q_SQ_TAIL.SQ_TAIL q) ≤ 64)
      && decide (diff16 t (s.fd Fld.HST_Q_CQ_HEAD.CQ_HEAD q) ≤ 64) then
    (s.setF Fld.HST_Q_SQ_TAIL.SQ_TAIL t q).setB Fld.HST_WSTAT.ACCEPT true
  else s.doorbellBad

/-- A write of CQ_HEAD (R324). -/
def State.cqHead (s : State) (q : Nat) (v : BitVec 32) : State :=
  let h := v.toNat % 65536
  let old := s.fd Fld.HST_Q_CQ_HEAD.CQ_HEAD q
  if s.queueOn q && decide (diff16 h old ≤ diff16 (s.fd Fld.HST_Q_CQ_TAIL.CQ_TAIL q) old) then
    ((s.setF Fld.HST_Q_CQ_HEAD.CQ_HEAD h q).cqLine q).setB Fld.HST_WSTAT.ACCEPT true
  else s.doorbellBad

/-! ### Key update completions -/

/-- The key update in verification ends with a KEY_LAST status; its command completes (R280, R282). -/
def State.envStop (s : State) (status : Nat) (st : Status) : State :=
  match s.key.env with
  | none => s
  | some x => (s.envEnd status).complete x.q x.cid st status

/-! ### Abort (R330) -/

/-- The commands that an abort ends, with the CIDs of their entries. -/
def State.abortEach (s : State) (q : Nat) : List (BitVec 32) → Nat → State
  | _, 0 => s
  | cs, n + 1 => State.abortEach ((s.fetchCmd q).complete q (cs.headD 0) .aborted 0) q (cs.drop 1) n

/-- A queue abort: a key update in verification and every command not started complete with ABORTED, in SQ order. -/
def State.queueAbort (s : State) (q : Nat) (cids : List (BitVec 32)) : State :=
  let s1 := if s.outstanding q then s.envStop 0x09 .aborted else s
  s1.abortEach q cids (s1.waiting q)

/-- A write of HST_ABORT. -/
def State.hstAbort (s : State) (v : BitVec 32) (cids : List (BitVec 32)) : State :=
  let s1 := s.setB Fld.HST_WSTAT.ACCEPT true
  let q := v.toNat % 64
  if bitAt v.toNat 31 && s1.queueOn q then s1.queueAbort q cids else s1

/-! ### The PCIe link (R298, R311) -/

/-- A register group back at its reset words. -/
def State.resetRegs (s : State) (p : Reg → Bool) : State := { s with regs := s.regs.filter (fun e => !p e.1.reg) }

/-- Whether a register belongs to a span of BAR0 offsets. -/
def Reg.inSpan (r : Reg) (lo hi : Nat) : Bool := decide (lo ≤ r.row.base ∧ r.row.base < hi)

/-- The host is gone (R311): commands end without completions, queues are disabled, their entries orphaned, the unlock disarmed,
HOST_DOWN raised; a function-level reset also restores the HST and IRQ registers, the MSI-X table and the window bases. -/
def State.hostLoss (s : State) (kind : PcieLoss) : State :=
  let s1 := (s.envEnd 0x09)
  let s2 := (List.range 64).foldl (fun s q => if s.queueOn q then (s.setB Fld.HST_Q_CFG.EN false q).orphan (.hostQueue q) else s) s1
  let s3 := ({ s2 with hst := { s2.hst with unlocked := false } }).setB Fld.TOP_UNLOCK.ARMED false
  let s4 := match kind with
    | .functionReset =>
      let keep := s3.rg .HST_COPY_SEQ 0
      let s5 := (s3.resetRegs (fun r => r.inSpan 0x10000 0x20000 || r.inSpan 0x30000 0x40000)).wr .HST_COPY_SEQ 0 keep
      { s5 with
        irq := s5.irq.map (fun (e : Nat × IrqDyn) => (e.1, { IrqDyn.reset with line := e.2.line }))
        hst := { s5.hst with msix := [], msixPba := [], busMaster := false, msixEn := false } }
    | _ => { s3 with hst := { s3.hst with pcieUp := false } }
  s4.raise { rec_ := 467, cause := 26, cls := 1 }

/-! ### BAR2 (R310) -/

/-- What a BAR2 offset reaches. -/
inductive Bar2Place where
  | cmem (c a : Nat)
  | pool
  | ddr (a : Nat)
  | none_
  deriving DecidableEq, Repr

/-- The place of `n` octets at a BAR2 offset (Table 14.2); none where the access completes with Unsupported Request. -/
def State.bar2Place (s : State) (off n : Nat) : Bar2Place :=
  if n = 0 ∨ 512 < n then .none_
  else if off < 0x1000000 then
    let c := off / 0x100000
    let a := off % 0x100000
    if s.pwr.isolated.contains c || s.gatedCluster c then .none_
    else if a + n ≤ 0x80000 then .cmem c a else .pool
  else
    let k := (off - 0x1000000) / 0x1000000
    let a := (s.rg .HST_B2W_BASE_HI k).toNat * 2 ^ 32 + (s.rg .HST_B2W_BASE_LO k).toNat + off % 0x1000000
    if k < 3 ∧ s.inDdr a n then .ddr a else .none_

/-- A BAR2 access: reads change nothing; a write to the frame pool, or into a mirror window of an engine that is not ACTIVE, is
discarded (R310, R360). -/
def State.bar2 (s : State) (off : Nat) (acc : Bar2Acc) : State :=
  if !s.coreUp then s else
  match acc with
  | .read _ => s
  | .write data =>
    match s.bar2Place off data.length with
    | .cmem c a => s.storeMem (cmemBase c + a) data
    | .ddr a => if s.mirrorRefuses a data.length || s.mirrorStalls a data.length then s else s.storeData a data
    | _ => s

/-! ### The scrubber (R331 to R334) -/

/-- A corrected double-bit word: its count, and the NOTICE when more than CE2_THR fall within an hour. -/
def State.ce2 (s : State) (c : Nat) : State :=
  let n := s.now
  let recent := (SMap.get (fun _ => []) s.hst.ce2Mark c).filter (fun t => decide (n.count < t.count + hourCount)) ++ [n]
  let over_ := decide (s.fd Fld.MEM_SCRUB_CTL.CE2_THR < recent.length)
  let s1 : State := { s with
    hst := { s.hst with ce2Mark := SMap.set id (fun _ => []) s.hst.ce2Mark c (if over_ then [] else recent) } }
  let s2 := s1.bump .MEM_CH_CE2 c
  if over_ then s2.raise { rec_ := 224 + c, cause := 31, cls := 0 } else s2

/-- An uncorrectable word: at its first detection it is counted, marked poisoned and raises POISON (R333, R334). -/
def State.uncorrectable (s : State) (c a : Nat) : State :=
  let w := a / 8
  if SMap.get (fun _ => false) s.hst.poisoned w then s
  else
    let s1 : State := { s with hst := { s.hst with poisoned := SMap.insert id s.hst.poisoned w true } }
    ((s1.bump .MEM_CH_UE c).setPair .MEM_CH_LAST_HI .MEM_CH_LAST_LO (BitVec.ofNat 64 (w * 8)) c).raise
      { rec_ := 224 + c, cause := 2, cls := 1 }

/-- What the scrubber finds (R331, R332). -/
def State.scrub (s : State) (c a : Nat) (found : ScrubResult) : State :=
  if !s.coreUp then s else
  match found with
  | .clean => s
  | .ce1 => s.bump .MEM_CH_CE1 c
  | .ce2 => s.ce2 c
  | .ue => if s.inDdr a 1 then s.uncorrectable c a else s
  | .passInTime => s.setB Fld.MEM_STAT.SCRUB_LATE false
  | .passLate => s.setB Fld.MEM_STAT.SCRUB_LATE true

/-! ### Writes -/

/-- A register write of the HST block. -/
def State.hstWrite (s : State) (r : Reg) (i : Nat) (v : BitVec 32) : State :=
  let ok := fun (t : State) => t.setB Fld.HST_WSTAT.ACCEPT true
  let bad := s.setB Fld.HST_WSTAT.RANGE true
  if r = .HST_WSTAT then s.w1c r i v
  else if r = .HST_ABORT then s.hstAbort v []
  else if r = .HST_B2W_BASE_LO then ok (s.wrRw r i v)
  else if r = .HST_B2W_BASE_HI then (if 0x10 ≤ v.toNat ∧ v.toNat ≤ 0x1F then ok (s.wrRw r i v) else bad)
  else if r = .HST_Q_CFG then s.queueEn i v
  else if r = .HST_Q_SQ_LO then (if s.queueOn i ∨ v.toNat % 4096 ≠ 0 then bad else ok (s.wrRw r i v))
  else if r = .HST_Q_CQ_LO then (if s.queueOn i ∨ v.toNat % 1024 ≠ 0 then bad else ok (s.wrRw r i v))
  else if r = .HST_Q_SQ_HI ∨ r = .HST_Q_CQ_HI then (if s.queueOn i then bad else ok (s.wrRw r i v))
  else if r = .HST_Q_SQ_TAIL then s.sqTail i v
  else if r = .HST_Q_CQ_HEAD then s.cqHead i v
  else s

/-- A register write of the MEM block: HOURS lies from 1 to 168. -/
def State.memWrite (s : State) (r : Reg) (i : Nat) (v : BitVec 32) : State :=
  if r = .MEM_SCRUB_CTL then
    let h := Fld.MEM_SCRUB_CTL.HOURS.of v
    if 1 ≤ h ∧ h ≤ 168 then s.wrRw r i v else s
  else s

/-- A write of the MSI-X table at BAR0 0x0100_0000: unmasking a vector posts the message that waits for it. -/
def State.msixWrite (s : State) (off : Nat) (v : BitVec 32) : State :=
  let w := (off - 0x1000000) / 4
  let dflt := fun (k : Nat) => if k % 4 = 3 then (1 : BitVec 32) else 0
  let s1 : State := { s with hst := { s.hst with msix := SMap.set id dflt s.hst.msix w v } }
  if w % 4 = 3 ∧ !bitAt v.toNat 0 then { s1 with hst := { s1.hst with msixPba := SMap.erase s1.hst.msixPba (w / 4) } } else s1

end Sys2Proof.Machine
end

