-- ==== Sys2Proof/Machine/Operands.lean ====
section
/-!
DEFINITION. Machine/Operands.lean: the forms in which time values and bounds leave the engine: UTC and NTP time, the formats of
TWF (Table 3.10), the units of BWF and BCVT, and the bound of BAT (Table 3.11).
-/
namespace Sys2Proof.Machine

/-! ### UTC (R52) -/

/-- The TAI-UTC offset in effect at a Datum second, and whether that second is an inserted one. -/
def State.offsetAt (s : State) (sec : Nat) : Int × Bool :=
  let before : Int := match s.dtm.leapDone with
    | some (at_, old) => if sec < at_.toNat then signedOf 16 old.toNat else s.utcOffset
    | none => s.utcOffset
  let (off, at_) : Int × Option Nat := match s.dtm.leapAt with
    | some (at_, new) => if at_.toNat ≤ sec then (signedOf 16 new.toNat, none)
        else (before, if s.utcOffset < signedOf 16 new.toNat then some at_.toNat else none)
    | none => (before, none)
  let past : Option Nat := match s.dtm.leapDone with
    | some (at_, old) => if signedOf 16 old.toNat < s.utcOffset then some at_.toNat else none
    | none => none
  (off, decide (at_ = some (sec + 1) ∨ past = some (sec + 1)))

/-- The UTC seconds count since 1970-01-01 of a Datum second: an inserted second counts as 23:59:59. -/
def State.utcCount (s : State) (sec : Nat) : Int :=
  let (off, ins) := s.offsetAt sec
  (sec : Int) - off - (if ins then 1 else 0)

/-- The NTP timestamp of an instant (Table 3.10): seconds since 1900-01-01 modulo 2^32, then the fraction. -/
def State.ntpTime (s : State) (t : TimeVal) : Nat :=
  wrapInt 32 (s.utcCount t.sec.toNat + 2208988800) * 2 ^ 32 + (t.ns.toNat * 2 ^ 32 + t.frac.toNat) / 10 ^ 9

/-! ### TWF (R78, Table 3.10) -/

/-- The octets of a time value in format `f`; none for the reserved format. -/
def State.timeBytes (s : State) (f : Nat) (t : TimeVal) : Option (List Byte) :=
  if f = 0 then some (beBytes 6 t.sec.toNat ++ beBytes 4 t.ns.toNat)
  else if f = 1 then some (beBytes 8 (s.ntpTime t))
  else if f = 2 then some (beBytes 8 t.sec.toNat ++ beBytes 4 t.ns.toNat ++ beBytes 4 t.frac.toNat)
  else none

/-! ### Bounds (R5, R6, Table 3.11) -/

/-- Units of 2^-8 ns in one output unit: 2^-8 ns, ns, µs. -/
def unitOf (u : Nat) : Nat := if u = 0 then 1 else if u = 1 then 256 else 256000

/-- One side in a coarser unit, rounded upward; unbounded stays unbounded. -/
def sideUnit (u : Nat) (w : BitVec 32) : BitVec 32 :=
  if w = 0xFFFFFFFF#32 then w else satWord (ceilDiv w.toNat (unitOf u))

/-- A bound in unit `u`; `widen` first adds one output unit to LATE. -/
def boundUnit (b : Bound) (u : Nat) (widen : Bool) : Bound :=
  ⟨sideUnit u b.early, sideUnit u (if widen then satAdd b.late (BitVec.ofNat 32 (unitOf u)) else b.late)⟩

/-- The octets BWF writes: EARLY then LATE, big-endian. -/
def boundWire (b : Bound) : List Byte := beBytes 4 b.early.toNat ++ beBytes 4 b.late.toNat

/-- BADD. -/
def boundAdd (a b : Bound) : Bound := ⟨satAdd a.early b.early, satAdd a.late b.late⟩

/-- BMAX. -/
def boundMax (a b : Bound) : Bound := ⟨maxWord a.early b.early, maxWord a.late b.late⟩

/-- BCHK: whether both sides of one bound are at least those of the other. -/
def boundCovers (a b : Bound) : Bool := decide (b.early.toNat ≤ a.early.toNat ∧ b.late.toNat ≤ a.late.toNat)

/-- R67: the tag of the first operand when it is not PROGRAM, otherwise that of the second. -/
def tagInherit (a b : Tag) : Tag := if a = .program then b else a

/-- The bound of BAT for an instant served on a port: unbounded outside the second that begins at the Datum. -/
def State.boundAt (s : State) (n : Nat) (t : TimeVal) : Bound :=
  if s.now.count ≤ t.count ∧ t.count ≤ s.now.count + secCount then s.portBound n false t else Bound.unbounded

/-- Whether BWF accepts a tag (R79). -/
def tagServable : Tag → Bool
  | .port => true
  | .projected _ => true
  | _ => false

end Sys2Proof.Machine
end

