-- ==== Sys2Proof/Machine/SvcOps.lean ====
section
/-!
DEFINITION. Machine/SvcOps.lean: the service state and its registers, and the standard service image (10_time_service.md): the
client table, PTP and NTP messages octet by octet, keys and authentication, admission and shedding.
The octet layouts of PTP, NTP, UDP and IP that the spec names by their standards are PRESUMED from those standards.
-/
namespace Sys2Proof.Machine

/-! ### The service state (R220 to R223) -/

/-- SVC_OPEN_BOUND holds at an instant. -/
def State.svcBoundOk (s : State) (t : TimeVal) : Bool :=
  match s.worstSide t with
  | some m => decide (m ≤ (s.rg .SVC_OPEN_BOUND 0).toNat)
  | none => false

/-- The opening conditions in the order of SVC_STAT[20:16]: bound, source, run, life, ladder (R221). -/
def State.svcConds (s : State) : List Bool :=
  [s.svcBoundOk s.now, !s.fb Fld.TRV_STAT.PRE_SOURCE, decide (s.fd Fld.DTM_MODE.MODE = 0),
    decide (s.lifecycle = 1 ∨ s.lifecycle = 2), decide (s.fd Fld.FLT_ESC.STEP = 0)]

/-- The guarded write of OPEN (R221, R223). -/
def State.svcOpen (s : State) : State :=
  if s.svcState = 2 then s.setB Fld.SVC_WSTAT.OPEN_REFUSED true
  else if s.svcState = 1 then s
  else if s.svcConds.all id then s.setSvc 1 1
  else s.setB Fld.SVC_WSTAT.OPEN_REFUSED true

/-- The guarded write of CLOSE (R222, R223). -/
def State.svcClose (s : State) : State :=
  if s.svcState = 2 then s.setB Fld.SVC_WSTAT.OPEN_REFUSED true
  else (s.closeSvc 3).setB Fld.SVC_CTL.AUTO_OPEN false

/-- AUTO_OPEN at a processed second (R221). -/
def State.svcAuto (s : State) : State :=
  if s.svcState = 0 ∧ s.coreUp ∧ s.fb Fld.SVC_CTL.AUTO_OPEN ∧ s.svcConds.all id then s.setSvc 1 2 else s

/-- REFUSE (R223). -/
def State.svcRefuse (s : State) : State := s.setSvc 2 5

/-! ### Registers of the block -/

/-- An accepted write of the block. -/
def State.svcAccept (s : State) : State := s.setB Fld.SVC_WSTAT.ACCEPT true

/-- A write discarded whole for an out-of-range field. -/
def State.svcRange (s : State) : State := s.setB Fld.SVC_WSTAT.RANGE true

/-- A plain write, if its fields are in range. -/
def State.svcPlain (s : State) (r : Reg) (i : Nat) (v : BitVec 32) (ok : Bool) : State :=
  if ok then (s.wrRw r i v).svcAccept else s.svcRange

/-- A write of SVC_CTL: the policy bits, then OPEN or CLOSE; with both set, OPEN and then CLOSE are weighed as one write that
opens. -/
def State.svcCtl (s : State) (v : BitVec 32) : State :=
  if 1 < Fld.SVC_CTL.UNAUTH.of v then s.svcRange
  else
    let s1 := (s.wr .SVC_CTL 0 (v &&& 0x3C000000#32)).svcAccept
    if Fld.SVC_CTL.OPEN.of v = 1 then s1.svcOpen else if Fld.SVC_CTL.CLOSE.of v = 1 then s1.svcClose else s1

/-- Whether a value of SVC_PORTn is in range (R228, Table 10.2). -/
def svcPortOk (v : BitVec 32) : Bool :=
  let p := Fld.SVC_PORT.PROFILE.of v
  let d := Fld.SVC_PORT.DOMAIN.of v
  let domain := if p = 1 then decide (24 ≤ d ∧ d ≤ 43) else if p = 2 then decide (44 ≤ d ∧ d ≤ 63)
    else if p = 3 then decide (d ≤ 127) else true
  decide (p ≤ 3) && domain && decide (Fld.SVC_PORT.ICV.of v ≤ 1)
    && !(decide (Fld.SVC_PORT.NTS.of v = 1) && decide (Fld.SVC_PORT.NTP.of v = 0))

/-- The client table lies wholly in DDR. -/
def State.svcTableOk (s : State) (v : BitVec 32) : Bool :=
  let n := Fld.SVC_TABLE_CFG.LOG2.of v
  decide (60 ≤ Fld.SVC_TABLE_CFG.IDLE.of v ∧ 10 ≤ n ∧ n ≤ 22)
    && s.inDdr (s.pair .SVC_TABLE_HI .SVC_TABLE_LO).toNat (128 * 2 ^ n)

/-- The staging registers of the table take the base in effect (R322). -/
def State.svcTableBack (s : State) : State := s.setPair .SVC_TABLE_HI .SVC_TABLE_LO s.svc.base

/-- The commit of the staged table base with SVC_TABLE_CFG as one value, or its discard (R322). -/
def State.svcTableCommit (s : State) (v : BitVec 32) : State :=
  if s.svcTableOk v then
    let s1 := (s.wrRw .SVC_TABLE_CFG 0 v).svcAccept
    { s1 with svc := { s1.svc with base := s1.pair .SVC_TABLE_HI .SVC_TABLE_LO } }
  else s.svcRange.svcTableBack

/-- A register write of the block. -/
def State.svcWrite (s : State) (r : Reg) (i : Nat) (v : BitVec 32) : State :=
  let f := fun (x : Fld) => x.of v
  let locked := decide (s.svcState ≠ 0)
  let lock := s.setB Fld.SVC_WSTAT.OPEN_LOCK true
  if r = .SVC_WSTAT then s.w1c r i v
  else if r = .SVC_CTL then s.svcCtl v
  else if r = .SVC_TABLE_LO then (if locked then lock else (s.wr r i (v &&& 0xFFFFFF80#32)).svcAccept)
  else if r = .SVC_TABLE_HI then (if locked then lock else s.svcPlain r i v true)
  else if r = .SVC_TABLE_CFG then (if locked then lock.svcTableBack else s.svcTableCommit v)
  else if r = .SVC_KEYS then (if locked then lock else s.svcPlain r i v true)
  else if r = .SVC_PORT then
    (if locked then lock
     else
      let v1 := if f Fld.SVC_PORT.PROFILE = 3 then Fld.SVC_PORT.STEP.put v 1 else v
      s.svcPlain r i v1 (svcPortOk v))
  else if r = .SVC_CAP then s.svcPlain r i v (decide (1000 ≤ v.toNat ∧ v.toNat ≤ 12600000))
  else if r = .SVC_SHED then
    s.svcPlain r i v (decide (50 ≤ f Fld.SVC_SHED.HIGH ∧ f Fld.SVC_SHED.HIGH ≤ 100 ∧ f Fld.SVC_SHED.LOW < f Fld.SVC_SHED.HIGH
      ∧ 1 ≤ f Fld.SVC_SHED.HOLD ∧ 1 ≤ f Fld.SVC_SHED.SPREAD))
  else if r = .SVC_COST then
    s.svcPlain r i v (decide (1 ≤ f Fld.SVC_COST.PTP ∧ 1 ≤ f Fld.SVC_COST.NTP ∧ 1 ≤ f Fld.SVC_COST.NTS ∧ 1 ≤ f Fld.SVC_COST.UNAUTH))
  else if r = .SVC_GRANT then
    s.svcPlain r i v (decide (10 ≤ f Fld.SVC_GRANT.MAX ∧ f Fld.SVC_GRANT.MAX ≤ 1000 ∧ 1 ≤ f Fld.SVC_GRANT.TRAIN))
  else if r = .SVC_CLASS then
    let m := signedOf 8 (f Fld.SVC_CLASS.MIN_LOG)
    s.svcPlain r i v (decide ((i = 0 ∨ (1 ≤ f Fld.SVC_CLASS.DELAY_LOG2 ∧ f Fld.SVC_CLASS.DELAY_LOG2 ≤ 4)) ∧ -7 ≤ m ∧ m ≤ 4
      ∧ 4 ≤ f Fld.SVC_CLASS.MINPOLL ∧ f Fld.SVC_CLASS.MINPOLL ≤ 17))
  else if r = .SVC_OPEN_BOUND ∨ r = .SVC_HASH_SEED ∨ r = .SVC_TLV_ORG ∨ r = .SVC_TLV_SUB ∨ r = .SVC_NTP_EF ∨ r = .SVC_NTP_REFID
      ∨ r = .SVC_COOKIE_ID ∨ r = .SVC_COOKIE_SLOTS ∨ r = .SVC_LEVEL ∨ r = .SVC_LOAD then s.svcPlain r i v true
  else if r = .SVC_TALLY then s.setB Fld.SVC_WSTAT.TALLY_REFUSED true
  else s

/-! ### Counters (R248) -/

/-- A counter raised by an amount. -/
def State.bumpBy (s : State) (r : Reg) (i add : Nat) : State := s.wr r i (s.rg r i + BitVec.ofNat 32 add)

/-- One count added to a named counter: 0 ADMIT, 1 DELAY, 2 REFUSE, 3 AUTHFAIL, 4 REISSUE_SYNC, 5 REISSUE_NTP, 6 TABLE_FULL,
7 NTS_NAK, 8 REPLAY. -/
def State.tallyAdd (s : State) (cnt k add : Nat) : State :=
  if cnt ≤ 3 ∧ 8 < k then s
  else if cnt = 0 then s.bumpBy .SVC_CNT_ADMIT k add
  else if cnt = 1 then s.bumpBy .SVC_CNT_DELAY k add
  else if cnt = 2 then s.bumpBy .SVC_CNT_REFUSE k add
  else if cnt = 3 then s.bumpBy .SVC_CNT_AUTHFAIL k add
  else if cnt = 4 then s.bumpBy .SVC_REISSUE_SYNC 0 add
  else if cnt = 5 then s.bumpBy .SVC_REISSUE_NTP 0 add
  else if cnt = 6 then s.bumpBy .SVC_TABLE_FULL 0 add
  else if cnt = 7 then s.bumpBy .SVC_NTS_NAK 0 add
  else if cnt = 8 then s.bumpBy .SVC_REPLAY 0 add
  else s

/-- A K program's write of SVC_TALLY. -/
def State.tallyWrite (s : State) (v : BitVec 32) : State :=
  let s1 := s.tallyAdd (Fld.SVC_TALLY.CNT.of v) (Fld.SVC_TALLY.CLASS.of v) (Fld.SVC_TALLY.ADD.of v)
  if s1 = s ∧ Fld.SVC_TALLY.ADD.of v ≠ 0 then s.svcRange else s1.svcAccept

/-- One decision or discard counted. -/
def State.tally (s : State) (cnt k : Nat) : State := s.tallyAdd cnt k 1

/-! ### The image's threads and frames (R224) -/

/-- Thread 4i + `w` of the cluster of port `n`, which serves the port: 0 PTP events, 1 PTP general, 2 NTP, 3 launches. -/
def svcThread (n w : Nat) : Nat := 32 * (n / 4) + 4 * (n % 4) + w

/-- The image runs on the thread. -/
def State.svcRuns (s : State) (th : Nat) : Bool :=
  (s.image (coreOf th)).isSome && decide ((s.thread th).st = .ready ∨ (s.thread th).st = .wait)

/-- A received frame that the thread holds, with its ingress timestamp. -/
def State.svcFrame (s : State) (n w h : Nat) : Option (Frame × TimeVal) :=
  let th := svcThread n w
  match s.heldFrame th h with
  | some f => if f.port = n ∧ s.svcRuns th then (match f.stamp with
      | .ingress t => some (f, t)
      | _ => none) else none
  | none => none

/-- The notice of a frame is consumed and the frame freed. -/
def State.svcDone (s : State) (th h : Nat) : State :=
  let t := s.thread th
  let keep := t.notices.filter (fun x => !(decide (x.kind = .frame) && decide (x.handle = BitVec.ofNat 32 h)))
  (s.setThread th { t with notices := keep }).freeFrame h

/-- A reply frame of the thread with its octets and what TWF and BWF recorded. -/
def State.svcAlloc (s : State) (th : Nat) (bs : List Byte) (times : List RecTime) (bounds : List Tag) : Option (Nat × State) :=
  let fr : Frame := { cluster := clusterOf th, cell := 0, len := bs.length, holder := some th, frozen := false, port := 0, cls := 0, stamp := .none, stampOk := true, times := times, bounds := bounds }
  match s.allocFrame (clusterOf th) bs.length fr with
  | some (h, s1) =>
    let s2 : State := { s1 with svc := { s1.svc with
      rebuilt := SMap.erase s1.svc.rebuilt h, follow := SMap.erase s1.svc.follow h, ntsKey := SMap.erase s1.svc.ntsKey h } }
    some (h, s2.storeData (cmemFlat (clusterOf th) (cellAddr (h % poolCells))) bs)
  | none => none

/-- A message sent on Q6 of a port; with no room in the pool, or refused, it is dropped. -/
def State.svcSend (s : State) (th n : Nat) (bs : List Byte) (bounds : List Tag) (sentTs : Bool) : State × Option Nat :=
  match s.svcAlloc th bs [] bounds with
  | none => (s, none)
  | some (h, s1) =>
    let (s2, st, _) := s1.portSend th h n 6 sentTs 0
    if st = .ok then (s2, some h) else ((if (s2.frame h).isSome ∧ st ≠ .lost then s2.freeFrame h else s2), none)

/-! ### Packets -/

/-- A packet: its octets, the transport (0 Ethernet, 4 IPv4, 6 IPv6), the offset of the IP header and of the message. -/
structure SvcPkt where
  all : List Byte
  ver : Nat
  ip  : Nat
  off : Nat

/-- The transport of a frame. -/
def parsePkt (bs : List Byte) : Option SvcPkt :=
  let o := etherOff bs
  let ty := beAt bs (o - 2) 2
  if ty = 0x88F7 then some ⟨bs, 0, o, o⟩
  else if ty = 0x0800 then some ⟨bs, 4, o, o + beAt bs o 1 % 16 * 4 + 8⟩
  else if ty = 0x86DD then some ⟨bs, 6, o, o + 48⟩
  else none

/-- The source address as an IPv6 address, an IPv4 address mapped. -/
def SvcPkt.src (p : SvcPkt) : List Byte :=
  if p.ver = 4 then zeros 10 ++ [0xFF, 0xFF] ++ sliceAt p.all (p.ip + 12) 4 else if p.ver = 6 then sliceAt p.all (p.ip + 8) 16 else zeros 16

/-- The destination address in the same form. -/
def SvcPkt.dst (p : SvcPkt) : List Byte :=
  if p.ver = 4 then zeros 10 ++ [0xFF, 0xFF] ++ sliceAt p.all (p.ip + 16) 4 else if p.ver = 6 then sliceAt p.all (p.ip + 24) 16 else zeros 16

/-- The source MAC address. -/
def SvcPkt.mac (p : SvcPkt) : List Byte := sliceAt p.all 6 6

/-- The UDP source port; zero over Ethernet. -/
def SvcPkt.sport (p : SvcPkt) : Nat := if p.ver = 0 then 0 else beAt p.all (p.off - 8) 2

/-- Octets of the message. -/
def SvcPkt.at_ (p : SvcPkt) (i n : Nat) : List Byte := sliceAt p.all (p.off + i) n

/-- A big-endian field of the message. -/
def SvcPkt.be (p : SvcPkt) (i n : Nat) : Nat := beAt p.all (p.off + i) n

/-- The ones-complement sum of 16-bit words. -/
def onesSum : List Byte → Nat
  | a :: b :: r => let x := a.toNat * 256 + b.toNat + onesSum r; x % 65536 + x / 65536
  | [a] => a.toNat * 256
  | [] => 0

/-- The Internet checksum; a UDP checksum of zero is sent as all ones. -/
def ipSum (bs : List Byte) : Nat := let x := onesSum bs; 0xFFFF - (x % 65536 + x / 65536)

/-- A UDP datagram in its IP packet and Ethernet frame. -/
def udpFrame (dmac smac : List Byte) (tags : List Byte) (ver : Nat) (src dst : List Byte) (sport dport : Nat) (msg : List Byte) : List Byte :=
  let n := 8 + msg.length
  let a := if ver = 4 then src.drop 12 else src
  let b := if ver = 4 then dst.drop 12 else dst
  let pseudo := a ++ b ++ (if ver = 4 then [0, 17] ++ beBytes 2 n else beBytes 4 n ++ [0, 0, 0, 17])
  let udp := fun (c : Nat) => beBytes 2 sport ++ beBytes 2 dport ++ beBytes 2 n ++ beBytes 2 c ++ msg
  let c := ipSum (pseudo ++ udp 0)
  let dgram := udp (if c = 0 then 0xFFFF else c)
  let ip4 := fun (c : Nat) => [(0x45 : Byte), 0] ++ beBytes 2 (20 + n) ++ [0, 0, 0x40, 0, 64, 17] ++ beBytes 2 c ++ a ++ b
  let ip := if ver = 4 then ip4 (ipSum (ip4 0)) else [(0x60 : Byte), 0, 0, 0] ++ beBytes 2 n ++ [17, 64] ++ a ++ b
  dmac ++ smac ++ tags ++ beBytes 2 (if ver = 4 then 0x0800 else 0x86DD) ++ ip ++ dgram

/-- The VLAN tags of a packet. -/
def SvcPkt.tags (p : SvcPkt) : List Byte := (p.all.drop 12).take (etherOff p.all - 14)

/-- The answer to a packet: over UDP to the addresses turned round, over Ethernet to a given address. -/
def SvcPkt.answer (p : SvcPkt) (n : Nat) (dmac : List Byte) (sport dport : Nat) (msg : List Byte) : List Byte :=
  if p.ver = 0 then dmac ++ Config.portMac n ++ p.tags ++ beBytes 2 0x88F7 ++ msg
  else udpFrame p.mac (Config.portMac n) p.tags p.ver p.dst p.src sport dport msg

/-! ### PTP messages -/

/-- Values of the AUTHENTICATION TLV that ends a message (R230): the SPP, the key identifier, the ICV; none without one. -/
def SvcPkt.auth (p : SvcPkt) : Option (Nat × Nat × List Byte) :=
  let len := p.be 2 2
  if 60 ≤ len ∧ p.off + len ≤ p.all.length ∧ p.be (len - 26) 2 = 0x8009 ∧ p.be (len - 24) 2 = 22 ∧ p.be (len - 21) 1 = 0 then
    some (p.be (len - 22) 1, p.be (len - 20) 4, p.at_ (len - 16) 16)
  else none

/-- What the ICV of a PTP message covers. -/
def SvcPkt.covered (p : SvcPkt) : List Byte := p.at_ 0 (p.be 2 2 - 16)

/-- The ICV of a message under a key with the port's algorithm (R230). -/
def State.icv (s : State) (n : Nat) (key msg : List Byte) : List Byte :=
  ((Config.laneOp (if s.fd Fld.SVC_PORT.ICV n = 1 then 9 else 1) key [] [] msg).getD []).take 16

/-- The header of a message this engine sends (34 octets). -/
def State.ptpHeader (s : State) (n typ len flags : Nat) (corr : Nat) (seq ctl logi : Nat) : List Byte :=
  let sdo := if s.fd Fld.SVC_PORT.PROFILE n = 3 then 0x10 else 0
  beBytes 1 (sdo + typ) ++ [0x12] ++ beBytes 2 len ++ beBytes 1 (s.fd Fld.SVC_PORT.DOMAIN n) ++ [0] ++ beBytes 2 flags ++ beBytes 8 corr
    ++ zeros 4 ++ beBytes 8 (s.pair .MAT_CLKID_HI .MAT_CLKID_LO).toNat ++ beBytes 2 (n + 1) ++ beBytes 2 seq ++ beBytes 1 ctl ++ beBytes 1 logi

/-- The Traverse TLV (R239); none while OUI and SUB are zero. -/
def State.travTlv (s : State) (b : Bound) : List Byte :=
  let oui := s.fd Fld.SVC_TLV_ORG.OUI
  let sub := s.fd Fld.SVC_TLV_SUB.SUB
  if oui = 0 ∧ sub = 0 then [] else beBytes 2 3 ++ beBytes 2 14 ++ beBytes 3 oui ++ beBytes 3 sub ++ boundWire (boundUnit b 1 false)

/-- A message with its length, and with its AUTHENTICATION TLV when it has a key (R230): `mk` builds it from messageLength. -/
def State.sealPtp (s : State) (n : Nat) (key : Option (Nat × List Byte)) (mk : Nat → List Byte) : List Byte :=
  match key with
  | none => mk (mk 0).length
  | some (id, k) =>
    let m := mk ((mk 0).length + 26) ++ beBytes 2 0x8009 ++ beBytes 2 22 ++ beBytes 1 (s.fd Fld.SVC_PORT.SPP n) ++ [0] ++ beBytes 4 id
    m ++ s.icv n k m

/-- A time value with the sub-nanosecond part moved into the correction: the PTP timestamp, and the part in 2^-16 ns. -/
def ptpStamp (t : TimeVal) : List Byte × Nat := (beBytes 6 t.sec.toNat ++ beBytes 4 t.ns.toNat, t.frac.toNat / 65536)

/-- A bound with LATE widened by one unit of 2^-8 ns. -/
def widenUnit (b : Bound) : Bound := ⟨b.early, satAdd b.late 1⟩

/-- The TLVs of a Signaling message between two offsets: type and body. -/
def SvcPkt.tlvs (p : SvcPkt) (end_ : Nat) : Nat → Nat → List (Nat × List Byte)
  | _, 0 => []
  | i, fuel + 1 =>
    if end_ < i + 4 then []
    else
      let n := p.be (i + 2) 2
      if end_ < i + 4 + n then [] else (p.be i 2, p.at_ (i + 4) n) :: SvcPkt.tlvs p end_ (i + 4 + n) fuel

/-! ### The client table (R225, R226) -/

/-- The address of a record. -/
def State.recAddr (s : State) (i : Nat) : Nat := s.svc.base.toNat + 128 * i

/-- A little-endian field of a record. -/
def State.recF (s : State) (i off n : Nat) : Nat := leNat (s.octets (s.recAddr i + off) n)

/-- A field of a record written. -/
def State.recPut (s : State) (i off n v : Nat) : State := s.storeData (s.recAddr i + off) (leBytes n v)

/-- The number of records. -/
def State.svcCount (s : State) : Nat := 2 ^ s.fd Fld.SVC_TABLE_CFG.LOG2

/-- A client: its KIND, port, address, next-hop MAC, UDP port and PTP identity. -/
structure SvcClient where
  kind   : Nat
  port   : Nat
  addr   : List Byte
  mac    : List Byte
  udp    : Nat
  portId : List Byte

/-- The client of a packet on a port. -/
def SvcPkt.client (p : SvcPkt) (n : Nat) (ptp : Bool) : SvcClient :=
  { kind := if ptp then (if p.ver = 6 then 2 else 1) else 3, port := n, addr := p.src, mac := p.mac, udp := p.sport,
    portId := if ptp then p.at_ 20 10 else zeros 10 }

/-- TAG (R226). -/
def State.svcTag (s : State) (c : SvcClient) : Nat :=
  let key := beBytes 1 c.kind ++ beBytes 1 c.port ++ c.addr ++ leBytes 2 c.udp ++ (if c.kind = 3 then [] else c.portId)
  let t := (Config.sipHash (s.rg .SVC_HASH_SEED 0) key).toNat
  if t = 0 then 1 else t

/-- The 16 records that a TAG leads to. -/
def State.svcProbe (s : State) (tag : Nat) : List Nat := (List.range 16).map (fun i => (tag + i) % s.svcCount)

/-- A client's record. -/
def State.svcFind (s : State) (c : SvcClient) : Option Nat :=
  let tag := s.svcTag c
  (s.svcProbe tag).find? (fun i => decide (s.recF i 0 8 = tag ∧ s.recF i 8 1 = c.kind ∧ s.recF i 0x0B 1 = c.port ∧ s.recF i 0x26 2 = c.udp)
    && decide (s.octets (s.recAddr i + 0x10) 16 = c.addr) && decide (s.octets (s.recAddr i + 0x28) 10 = c.portId))

/-- The octets of a new record. -/
def newRecord (tag : Nat) (c : SvcClient) (cls keyid : Nat) : List Byte :=
  leBytes 8 tag ++ beBytes 1 c.kind ++ beBytes 1 cls ++ [0] ++ beBytes 1 c.port ++ leBytes 4 keyid ++ c.addr ++ c.mac ++ leBytes 2 c.udp
    ++ c.portId ++ zeros 6 ++ [0x7F, 0x7F, 0x7F, 0] ++ zeros 68

/-- A client's record, made in the first free place when it has none; none where the 16 are taken. -/
def State.svcRecord (s : State) (c : SvcClient) (cls keyid : Nat) : State × Option Nat :=
  match s.svcFind c with
  | some i => (s, some i)
  | none =>
    let tag := s.svcTag c
    match (s.svcProbe tag).find? (fun i => decide (s.recF i 0 8 = 0)) with
    | some i => (s.storeData (s.recAddr i) (newRecord tag c cls keyid), some i)
    | none => (s, none)

/-- The numbers of the records in use. -/
def State.svcRecords (s : State) : List Nat :=
  let base := s.recAddr 0
  (s.mem.filter (fun e => decide (base ≤ e.1 ∧ e.1 < base + 128 * s.svcCount ∧ (e.1 - base) % 128 = 8))).map (fun e => (e.1 - base) / 128)

/-- The Datum seconds that a record's 32-bit field names. -/
def State.sec32 (s : State) : Nat := s.now.sec.toNat % 2 ^ 32

/-- Whether grant `t` of a record (0 Announce, 1 Sync, 2 Delay_Resp) has not expired. -/
def State.granted (s : State) (i t : Nat) : Bool :=
  let e := s.recF i (0x3C + 4 * t) 4
  decide (e ≠ 0 ∧ (e + 2 ^ 32 - s.sec32) % 2 ^ 32 < 2 ^ 31 ∧ e ≠ s.sec32)

/-! ### Shedding (R244 to R247) -/

/-- The index of a class of a cluster; class 8 is that of unauthenticated and unknown clients. -/
def svcIdx (c k : Nat) : Nat := c * 16 + k

/-- A counter of the image. -/
def svcGet (m : SMap Nat Nat) (i : Nat) : Nat := SMap.get (fun _ => 0) m i

/-- A counter of the image written. -/
def svcSet (m : SMap Nat Nat) (i v : Nat) : SMap Nat Nat := SMap.set id (fun _ => 0) m i v

/-- The treatment of class `k` at level `h` (R245): 0 ADMIT, 1 DELAY, 2 REFUSE. -/
def State.treatment (s : State) (k h : Nat) : Nat :=
  let d := 2 * (8 - k)
  if k = 0 then 0
  else if k = 8 then (if h = 0 ∧ s.fd Fld.SVC_CTL.UNAUTH = 1 then 0 else 2)
  else if h < d then 0 else if h = d then 1 else 2

/-- d[k] in units of 1/8: the clients with a record, and the larger of the last second's and this second's other requests. -/
def State.svcDemand (s : State) (c k : Nat) : Nat :=
  let i := svcIdx c k
  svcGet s.svc.demand i + 8 * Nat.max (svcGet s.svc.units i) (svcGet s.svc.unitsWas i)

/-- cost(k, h) in units of 1/8 (R246). -/
def State.svcCost (s : State) (c h k : Nat) : Nat :=
  let t := s.treatment k h
  if t = 0 then s.svcDemand c k
  else if t = 1 then ceilDiv (s.svcDemand c k) (2 ^ s.fd Fld.SVC_CLASS.DELAY_LOG2 k)
  else 8 * svcGet s.svc.refused (svcIdx c k)

/-- load(h) in units per second, rounded upward. -/
def State.svcLoad (s : State) (c h : Nat) : Nat := ceilDiv (((List.range 9).map (s.svcCost c h)).foldl (· + ·) 0) 8

/-- A load above a percentage of SVC_CAP. -/
def State.loadAbove (s : State) (c h pct : Nat) : Bool := decide ((s.rg .SVC_CAP 0).toNat * pct < s.svcLoad c h * 100)

/-- The grants of classes whose treatment worsens are cancelled, spread evenly over SPREAD seconds (R247). -/
def State.svcCancels (s : State) (c old new : Nat) : State :=
  let hit := s.svcRecords.filter (fun i =>
    let k := s.recF i 9 1
    decide (s.recF i 0x0B 1 / 4 = c ∧ s.recF i 8 1 ≠ 3 ∧ s.treatment k old < s.treatment k new ∧ s.recF i 0x0A 1 < s.treatment k new)
      && ((List.range 3).any (s.granted i)) && s.svc.cancels.all (fun x => decide (x.rec_ ≠ i)))
  let n := hit.length
  let span := s.fd Fld.SVC_SHED.SPREAD * secCount
  let new_ := (List.range n).zip hit |>.map (fun (e : Nat × Nat) => (⟨e.2, c, s.now.plus (e.1 * span / n)⟩ : SvcCancel))
  { s with svc := { s.svc with cancels := s.svc.cancels ++ new_ } }

/-- SVC_LOADc brought up to date. -/
def State.showLoad (s : State) (c : Nat) : State :=
  s.wr .SVC_LOAD c (BitVec.ofNat 32 (s.svcLoad c (s.fd Fld.SVC_LEVEL.LEVEL c)))

/-- The level raised before a decision (R246): to the least at which the load does not exceed limit_hi. -/
def State.shedRaise (s : State) (c : Nat) : State :=
  let h := s.fd Fld.SVC_LEVEL.LEVEL c
  let hi := s.fd Fld.SVC_SHED.HIGH
  if s.loadAbove c h hi then
    let h1 := ((List.range 16).find? (fun x => decide (h ≤ x) && !s.loadAbove c x hi)).getD 15
    ((s.svcCancels c h h1).setF Fld.SVC_LEVEL.LEVEL h1 c).showLoad c
  else s.showLoad c

/-- The level lowered at a Datum second (R246), with the counts of the second rolled over. -/
def State.shedLower (s : State) : State :=
  if s.now.sec.toNat ≤ s.svc.second ∨ !s.coreUp then s
  else
    let gap := decide (s.svc.second + 1 < s.now.sec.toNat)
    let s1 : State := { s with svc := { s.svc with
      second := s.now.sec.toNat, unitsWas := if gap then [] else s.svc.units, units := [],
      refused := if gap then [] else s.svc.spent, spent := [] } }
    (List.range 16).foldl (fun s c =>
      let h := s.fd Fld.SVC_LEVEL.LEVEL c
      let ok := decide (0 < h) && !s.loadAbove c (h - 1) (s.fd Fld.SVC_SHED.LOW)
      let run := if ok then svcGet s.svc.low c + 1 else 0
      let down := ok && decide (s.fd Fld.SVC_SHED.HOLD ≤ run)
      let s2 : State := { s with svc := { s.svc with low := svcSet s.svc.low c (if down then 0 else run) } }
      (if down then s2.setF Fld.SVC_LEVEL.LEVEL (h - 1) c else s2).showLoad c) s1

/-- Units of a message of a client without a record. -/
def State.addUnits (s : State) (c k u : Nat) : State :=
  let i := svcIdx c k
  { s with svc := { s.svc with units := svcSet s.svc.units i (svcGet s.svc.units i + u) } }

/-- Units spent on a refused request. -/
def State.addSpent (s : State) (c k u : Nat) : State :=
  let i := svcIdx c k
  { s with svc := { s.svc with spent := svcSet s.svc.spent i (svcGet s.svc.spent i + u) } }

/-- What one type of grant of a record would use at ADMIT (unit 1/8) replaced, with d[k] and DEMAND. -/
def State.askedSet (s : State) (i t v : Nat) : State :=
  let old := svcGet s.svc.asked (i * 4 + t)
  let x := svcIdx (s.recF i 0x0B 1 / 4) (s.recF i 9 1)
  let s1 : State := { s with svc := { s.svc with
    asked := svcSet s.svc.asked (i * 4 + t) v
    demand := svcSet s.svc.demand x (svcGet s.svc.demand x + v - old) } }
  s1.recPut i 0x58 4 (s.recF i 0x58 4 + v - old)

/-- A decision (R244, R246): the level raised where the load demands it, the treatment of the class, its tally. -/
def State.svcDecide (s : State) (c k : Nat) : State × Nat :=
  let s1 := s.shedRaise c
  (s1, s1.treatment k (s1.fd Fld.SVC_LEVEL.LEVEL c))

/-! ### Keys (R231) -/

/-- A handle of a lane is used: it moves to the end of the order of use (R231). -/
def State.keyTouch (s : State) (c h : Nat) : State :=
  let k := c * laneHandles + h % laneHandles
  { s with svc := { s.svc with keyUse := s.svc.keyUse.filter (fun x => decide (x ≠ k)) ++ [k] } }

/-- A derived-key handle of the thread, its least recently used one released where the lane has none free (R231). -/
def State.svcDerive (s : State) (th slot : Nat) (ctx : List Byte) : State × Option Nat :=
  let c := clusterOf th
  let (s1, st, h) := s.derive th slot ctx 0
  if st = .ok then (s1.keyTouch c h, some h)
  else if st = .noResource then
    match s1.svc.keyUse.find? (fun k => decide (k / laneHandles = c ∧ (SMap.find s1.derived k).map (·.thread) = some th)) with
    | some k =>
      let (s2, st2, h2) := (s1.release_ c (s1.handleWord (k % laneHandles))).derive th slot ctx 0
      (s2.keyTouch c h2, if st2 = .ok then some h2 else none)
    | none => (s1, none)
  else (s1, none)

/-- The context of a per-client key. -/
def keyContext (ntp : Bool) (id : Nat) : List Byte := (if ntp then [0x4E, 0x54, 0x50] else [0x50, 0x54, 0x50]) ++ beBytes 4 id

/-- The key of a unicast client and its handle: the cached one, or one derived from the master. -/
def State.clientKey (s : State) (th : Nat) (ntp : Bool) (id : Nat) (rec_ : Option Nat) : State × Option (Nat × List Byte) :=
  let c := clusterOf th
  let valid := if ntp then s.fb Fld.SVC_KEYS.NV else s.fb Fld.SVC_KEYS.PV
  let slot := if ntp then s.fd Fld.SVC_KEYS.NTP_MASTER else s.fd Fld.SVC_KEYS.PTP_MASTER
  let cached : Option (Nat × List Byte) := match rec_ with
    | some i => if s.recF i 0x0C 4 = id then (s.derivedKey c (s.recF i 0x60 8)).map (fun d => (s.recF i 0x60 8, d.key)) else none
    | none => none
  match cached with
  | some x => (s.keyTouch c x.1, some x)
  | none =>
    if !valid then (s, none)
    else match s.svcDerive th slot (keyContext ntp id) with
      | (s1, some h) => (s1, (s1.derivedKey c h).map (fun d => (h, d.key)))
      | (s1, none) => (s1, none)

/-- The key of a slot for an operation, if its attribute permits that. -/
def State.slotFor (s : State) (slot op : Nat) : Option (List Byte) :=
  match s.slotKey slot with
  | some r => if attrPermits r.attr op then some r.key else none
  | none => none

/-! ### Signaling (R229, R232, R244) -/

/-- Messages per second at a period, in units of 1/8. -/
def eighths (p : Int) : Nat := if p ≤ 3 then 2 ^ (3 - p).toNat else 1

/-- The type of a message type in a unicast negotiation TLV: Announce, Sync, Delay_Resp. -/
def grantType (b : Byte) : Option Nat :=
  let t := b.toNat / 16
  if t = 0x0B then some 0 else if t = 0 then some 1 else if t = 9 then some 2 else none

/-- The message type of a grant in its TLV octet. -/
def grantOctet (t : Nat) : Nat := (if t = 0 then 0x0B else if t = 1 then 0 else 9) * 16

/-- The period granted under a treatment, and whether it is longer than requested (R229). -/
def State.grantPeriod (s : State) (k tr : Nat) (req : Int) : Int × Bool :=
  let k' := if k = 8 then 7 else k
  let minLog := signedOf 8 (s.fd Fld.SVC_CLASS.MIN_LOG k')
  let base := max req (-7)
  if tr = 0 then (max base minLog, decide (base < minLog))
  else (min 4 (max (base + (s.fd Fld.SVC_CLASS.DELAY_LOG2 k' : Int)) minLog), true)

/-- A grant TLV. -/
def grantTlv (t : Nat) (log : Int) (dur : Nat) : List Byte :=
  beBytes 2 5 ++ beBytes 2 8 ++ beBytes 1 (grantOctet t) ++ beBytes 1 (wrapInt 8 log) ++ beBytes 4 dur ++ [0] ++ beBytes 1 (if dur = 0 then 0 else 1)

/-- A Signaling message to a client. -/
def State.signaling (s : State) (n seq : Nat) (target : List Byte) (key : Option (Nat × List Byte)) (tlvs : List Byte) : List Byte :=
  s.sealPtp n key (fun len => s.ptpHeader n 0x0C len 0x0400 0 seq 5 0x7F ++ target ++ tlvs)

/-- One request TLV or cancel TLV applied to the record, with its answer; whether it was delayed. -/
def State.svcTlv (s : State) (rec_ : Option Nat) (k tr : Nat) (x : Nat × List Byte) : State × List Byte × Bool :=
  match grantType (x.2.getD 0 0) with
  | none => (s, [], false)
  | some t =>
    let req := signedOf 8 (x.2.getD 1 0).toNat
    if x.1 = 4 then
      match rec_ with
      | some i =>
        if tr = 2 then (s, grantTlv t req 0, false)
        else
          let (p, slower) := s.grantPeriod k tr req
          let dur := Nat.min (beAt x.2 2 4) (s.fd Fld.SVC_GRANT.MAX)
          let s1 := (s.recPut i (0x38 + t) 1 (wrapInt 8 p)).recPut i (0x3C + 4 * t) 4 ((s.sec32 + dur) % 2 ^ 32)
          (s1, grantTlv t p dur, slower)
      | none => (s, grantTlv t req 0, false)
    else if x.1 = 6 then
      let s1 := match rec_ with
        | some i => ((s.askedSet i t 0).recPut i (0x38 + t) 1 0x7F).recPut i (0x3C + 4 * t) 4 0
        | none => s
      (s1, beBytes 2 7 ++ beBytes 2 2 ++ beBytes 1 (grantOctet t) ++ [0], false)
    else (s, [], false)

/-- What a request TLV adds to its class's demand, before the decision. -/
def State.svcAsk (s : State) (i k : Nat) (x : Nat × List Byte) : State :=
  match decide (x.1 = 4), grantType (x.2.getD 0 0) with
  | true, some t =>
    let p := (s.grantPeriod k 0 (signedOf 8 (x.2.getD 1 0).toNat)).1
    s.askedSet i t (s.fd Fld.SVC_COST.PTP * eighths p * (if t = 2 then 2 else 1))
  | _, _ => s

/-- The class index of a client whose key identifier may be trusted, or 8. -/
def State.failIdx (s : State) (rec_ : Option Nat) : Nat :=
  match rec_ with
  | some i => s.recF i 9 1
  | none => 8

/-- Whether a sequenceId is newer (R232). -/
def newer (old new : Nat) : Bool := let d := (new + 65536 - old) % 65536; decide (1 ≤ d ∧ d ≤ 32767)

/-- A received message noted in its client's record. -/
def State.recSeen (s : State) (i seqOff seq : Nat) : State :=
  let s1 := (s.recPut i 0x50 8 s.now.sec.toNat).recPut i 0x68 8 (s.recF i 0x68 8 + 1)
  if seqOff = 0 then s1 else s1.recPut i seqOff 2 seq

/-- A sent message noted in its client's record. -/
def State.recSent (s : State) (i : Nat) : State := s.recPut i 0x70 8 (s.recF i 0x70 8 + 1)

/-- What authentication found of an inbound PTP message on a unicast port. -/
inductive SvcAuth where
  | bad (k : Nat)
  | open_
  | good (id handle : Nat) (key : List Byte)

/-- The checks of R230 and R232 on an inbound unicast PTP message. -/
def State.ptpCheck (s : State) (th n : Nat) (p : SvcPkt) (rec_ : Option Nat) : State × SvcAuth :=
  match p.auth with
  | none => (s, .open_)
  | some (spp, id, icv) =>
    if spp ≠ s.fd Fld.SVC_PORT.SPP n then (s, .bad (s.failIdx rec_))
    else match s.clientKey th false id rec_ with
      | (s1, some (h, key)) => (s1, if s1.icv n key p.covered = icv then .good id h key else .bad (s1.failIdx rec_))
      | (s1, none) => (s1, .bad (s1.failIdx rec_))

/-- The TLVs of a Signaling message, its AUTHENTICATION TLV left out (R229). -/
def SvcPkt.signalTlvs (p : SvcPkt) : List (Nat × List Byte) := p.tlvs (if p.auth.isSome then p.be 2 2 - 26 else p.be 2 2) 44 64

/-- The answer to a Signaling message (R229). -/
def State.signalReply (s : State) (th n : Nat) (p : SvcPkt) (key : Option (Nat × List Byte)) (tl : List Byte) : State :=
  (s.svcSend th n (p.answer n p.mac 320 320 (s.signaling n (p.be 30 2) (p.at_ 20 10) key tl)) [] false).1

/-- Every request of a Signaling message refused (R229). -/
def State.signalRefuse (s : State) (th n : Nat) (p : SvcPkt) (key : Option (Nat × List Byte)) : State :=
  let tl := p.signalTlvs.foldl (fun a x => a ++ (s.svcTlv none 8 2 x).2.1) ([] : List Byte)
  (((s.addSpent (n / 4) 8 (s.fd Fld.SVC_COST.UNAUTH)).tally 2 8)).signalReply th n p key tl

/-- The grants of a Signaling message whose client has record `i`, decided together in class `k` (R229). `hk` is the handle and the
key of an authenticated message, `id` its key identifier. -/
def State.signalGrant (s : State) (th n : Nat) (p : SvcPkt) (i k id : Nat) (hk : Option (Nat × List Byte)) : State :=
  let cl := n / 4
  let all := p.signalTlvs
  let s2 := s.recSeen i 0x32 (p.be 30 2)
  let s3 := match hk with
    | some e => s2.recPut i 0x60 8 e.1
    | none => s2
  let s4 := if k = 8 then s3.addUnits cl 8 (s.fd Fld.SVC_COST.UNAUTH) else all.foldl (fun s x => s.svcAsk i k x) s3
  let (s5, tr) := s4.svcDecide cl k
  let (s6, tl, slow) := all.foldl (fun (acc : State × List Byte × Bool) x =>
    let r := acc.1.svcTlv (some i) k tr x
    (r.1, acc.2.1 ++ r.2.1, acc.2.2 || r.2.2)) (s5, ([] : List Byte), false)
  let asked := all.any (fun x => decide (x.1 = 4))
  let out := if tr = 2 then 2 else if tr = 1 ∨ slow then 1 else 0
  let s7 := if asked then (s6.tally out k).recPut i 0x0A 1 out else s6
  let s8 := if out = 2 then s7.addSpent cl k (s.fd Fld.SVC_COST.PTP) else s7
  (s8.signalReply th n p (hk.map (fun e => (id, e.2))) tl).recSent i

/-- A Signaling message that may be served in class `k`: a repeated one is dropped, a client without a record takes one, and a
client for which the table has no room is refused. -/
def State.signalAdmit (s : State) (th n : Nat) (p : SvcPkt) (found : Option Nat) (k id : Nat) (hk : Option (Nat × List Byte)) : State :=
  match found with
  | some i =>
    if newer (s.recF i 0x32 2) (p.be 30 2) ∨ s.recF i 0x68 8 = 0 then s.signalGrant th n p i k id hk else s.tally 8 0
  | none =>
    match s.svcRecord (p.client n true) (if k = 8 then 7 else k) id with
    | (s2, none) => (s2.tally 6 0).signalRefuse th n p (hk.map (fun e => (id, e.2)))
    | (s2, some i) => s2.signalGrant th n p i k id hk

/-- A Signaling message served (R229): requests decided together, one grant for each, in one answer. -/
def State.signalServe (s : State) (n h : Nat) : State :=
  let th := svcThread n 1
  match s.svcFrame n 1 h with
  | none => s
  | some (f, _) =>
    let s0 := s.svcDone th h
    match parsePkt (s.frameData f) with
    | none => s0
    | some p =>
      if p.be 0 1 % 16 ≠ 0x0C ∨ s.fd Fld.SVC_PORT.PROFILE n ≠ 2 ∨ s.fb Fld.SVC_PORT.ROLE n ∨ p.be 4 1 ≠ s.fd Fld.SVC_PORT.DOMAIN n
          ∨ p.ver = 0 ∨ s.svcState = 0 then s0
      else if s0.svcState = 2 then s0.signalRefuse th n p none
      else
        let found := s0.svcFind (p.client n true)
        match s0.ptpCheck th n p found with
        | (s1, .bad k) => s1.tally 3 k
        | (s1, .good id hd key) => s1.signalAdmit th n p found (id / 2 ^ 29) id (some (hd, key))
        | (s1, .open_) => if s1.treatment 8 0 = 0 then s1.signalAdmit th n p found 8 0 none else s1.signalRefuse th n p none

/-! ### Delay requests (R228, R232, R240) -/

/-- The keys of a multicast port: the one that verifies and the one that generates. -/
def State.mcKey (s : State) (n : Nat) (gen : Bool) : Option (List Byte) :=
  let op := (if s.fd Fld.SVC_PORT.ICV n = 1 then 9 else 1) + (if gen then 0 else 1)
  if s.fb Fld.SVC_KEYS.MV then s.slotFor (if gen then s.fd Fld.SVC_KEYS.MC_GEN else s.fd Fld.SVC_KEYS.MC_VER) op else none

/-- What authentication found of an inbound PTP message on a multicast port. -/
def State.mcCheck (s : State) (n : Nat) (p : SvcPkt) : SvcAuth :=
  match p.auth with
  | none => .open_
  | some (spp, id, icv) =>
    if spp ≠ s.fd Fld.SVC_PORT.SPP n then .bad 8
    else match s.mcKey n false, s.mcKey n true with
      | some key, some gen => if s.icv n key p.covered = icv then .good id 0 gen else .bad 8
      | _, _ => .bad 8

/-- The address of a multicast port's messages (Table 10.2). -/
def State.mcAddr (s : State) (n : Nat) : List Byte :=
  if s.fd Fld.SVC_PORT.PROFILE n = 1 ∧ !s.fb Fld.SVC_PORT.MC_ADDR n then [0x01, 0x1B, 0x19, 0, 0, 0] else [0x01, 0x80, 0xC2, 0, 0, 0x0E]

/-- The Delay_Resp of a Delay_Req, or the Pdelay_Resp of a Pdelay_Req (R240): the receive timestamp with its PTSB bound. -/
def State.delayResp (s : State) (n : Nat) (p : SvcPkt) (t : TimeVal) (ok : Bool) (key : Option (Nat × List Byte)) (flags log : Nat) : List Byte :=
  let b := widenUnit (if ok then s.portBound n true t else Bound.unbounded)
  let (stamp, frac) := ptpStamp t
  let peer := decide (p.be 0 1 % 16 = 2)
  let corr := wrapInt 64 (if peer then (0 : Int) else (p.be 8 8 : Int) - frac)
  s.sealPtp n key (fun len => s.ptpHeader n (if peer then 3 else 9) len flags corr (p.be 30 2) (if peer then 5 else 3) log
    ++ stamp ++ p.at_ 20 10 ++ s.travTlv b)

/-- A Delay_Req or Pdelay_Req served (R240). -/
def State.delayServe (s : State) (n h : Nat) : State :=
  let th := svcThread n 0
  match s.svcFrame n 0 h with
  | none => s
  | some (f, t) =>
    let s0 := s.svcDone th h
    match parsePkt (s.frameData f) with
    | none => s0
    | some p =>
      let prof := s.fd Fld.SVC_PORT.PROFILE n
      let typ := p.be 0 1 % 16
      if s.svcState ≠ 1 ∨ s.fb Fld.SVC_PORT.ROLE n ∨ p.be 4 1 ≠ s.fd Fld.SVC_PORT.DOMAIN n ∨ (prof = 0) ∨ (typ ≠ (if prof = 3 then 2 else 1))
          ∨ (prof = 2 ∧ p.ver = 0) ∨ (prof ≠ 2 ∧ p.ver ≠ 0) then s0
      else if prof = 2 then
        match s0.svcFind (p.client n true) with
        | none => (match s0.ptpCheck th n p none with
            | (s1, .bad k) => s1.tally 3 k
            | (s1, _) => s1)
        | some i =>
          let (s1, a) := s0.ptpCheck th n p (some i)
          let go := fun (s : State) (key : Option (Nat × List Byte)) =>
            if !newer (s.recF i 0x34 2) (p.be 30 2) && decide (s.recF i 0x34 2 ≠ 0) then s.tally 8 0
            else
              let s2 := s.recSeen i 0x34 (p.be 30 2)
              if !s2.granted i 2 then s2
              else
                let bs := p.answer n p.mac 320 320 (s2.delayResp n p t f.stampOk key 0x0400 (s2.recF i 0x3A 1))
                (s2.svcSend th n bs [.port] false).1.recSent i
          match a with
          | .bad k => s1.tally 3 k
          | .good id hd key => go (s1.recPut i 0x60 8 hd) (some (id, key))
          | .open_ => if s1.treatment 8 (s1.fd Fld.SVC_LEVEL.LEVEL (n / 4)) = 0 ∧ s1.recF i 0x0C 4 = 0 then go s1 none else s1.tally 2 8
      else
        let go := fun (s : State) (key : Option (Nat × List Byte)) =>
          let two := decide (prof = 3)
          let msg := s.delayResp n p t f.stampOk key (if two then 0x0200 else 0) (if two then 0x7F else wrapInt 8 (-4))
          let (s2, sent) := s.svcSend th n (p.answer n (s.mcAddr n) 0 0 msg) [.port] two
          match two, sent with
          | true, some hd => { s2 with svc := { s2.svc with follow := SMap.insert id s2.svc.follow hd (p.answer n (s.mcAddr n) 0 0 msg) } }
          | _, _ => s2
        match s0.mcCheck n p with
        | .bad k => s0.tally 3 k
        | .good id _ key => go s0 (some (id, key))
        | .open_ => if s0.fd Fld.SVC_CTL.UNAUTH = 1 then go s0 none else s0.tally 2 8

/-! ### Launch trains (R249) -/

/-- A slot that a thread may arm: a free one of a block it owns; with no block of its own it claims the lowest free one. -/
def State.svcSlot (s : State) (th : Nat) : State × Option Nat :=
  let own := fun (s : State) => (List.range 256).find? (fun b => !ownFixed (128 + b) && s.owns (.thread th) (128 + b)
    && ((List.range 256).any (fun i => (s.slot (b * 256 + i)).armed.isNone)))
  let slot := fun (s : State) (b : Nat) => ((List.range 256).map (fun i => b * 256 + i)).find? (fun h => (s.slot h).armed.isNone)
  match own s with
  | some b => (s, slot s b)
  | none =>
    match (List.range 256).find? (fun b => !ownFixed (128 + b) && !s.fb Fld.TOP_OWN.HELD (128 + b)) with
    | some b => let s1 := (s.claim (.thread th) (128 + b)).1; (s1, slot s1 b)
    | none => (s, none)

/-- The next launch point of a port for a message of `len` octets with its FCS (R249): behind the train in progress, 10 µs after a
train of TRAIN launches, and never before an instant. -/
def State.trainPoint (s : State) (n len : Nat) (from_ : TimeVal) : Option (TimeVal × State) :=
  let m := s.lineMode n
  let ph := (s.port n).phase
  let (cnt, end_) := SMap.get (fun _ => ((0 : Nat), (0 : Nat))) s.svc.train n
  let fresh := decide (end_ + 10000 * lineNs ≤ from_.line)
  let full := !fresh && decide (s.fd Fld.SVC_GRANT.TRAIN ≤ cnt)
  let x := if fresh then from_.line else if full then end_ + 10000 * lineNs else Nat.max end_ from_.line
  let k : Option Nat := match s.startIndex n x, s.launchIndex n from_ with
    | some a, some b => if a < b then some b else some a
    | _, _ => none
  match k with
  | none => none
  | some k =>
    let e := (m.ends ph k len).2
    let cnt' := if fresh || full then 1 else cnt + 1
    some (lineRound (m.point ph k), { s with svc := { s.svc with train := SMap.insert id s.svc.train n (cnt', e) } })

/-- A frame launched on Q7 for a launch point that its octets are built from; a refused one is dropped. -/
def State.svcLaunch (s : State) (th n len : Nat) (from_ : TimeVal) (mk : TimeVal → List Byte × List Tag) : State × Option Nat :=
  match s.svcSlot th, s.trainPoint n len from_ with
  | (_, some slot), some (tx, _) =>
    let s1 := match s.trainPoint n len from_ with
      | some (_, s') => (s'.svcSlot th).1
      | none => s
    let (bs, tags) := mk tx
    match s1.svcAlloc th bs [⟨tx, true⟩] tags with
    | none => (s, none)
    | some (h, s2) =>
      let (s3, st, _) := s2.launchSend th h slot n tx 0
      if st = .ok then (s3, some h) else (s3.freeFrame h, none)
  | _, _ => (s, none)

/-! ### NTP (R233, R234, R241) -/

/-- The extension fields of an NTP message between two offsets: type and the whole field's offset and length. -/
def SvcPkt.fields (p : SvcPkt) (end_ : Nat) : Nat → Nat → List (Nat × Nat × Nat)
  | _, 0 => []
  | i, fuel + 1 =>
    let n := p.be (i + 2) 2
    if end_ < i + 16 ∨ n < 16 ∨ n % 4 ≠ 0 ∨ end_ < i + n then [] else (p.be i 2, i, n) :: SvcPkt.fields p end_ (i + n) fuel

/-- The length of an NTP message. -/
def SvcPkt.ntpLen (p : SvcPkt) : Nat := beAt p.all (p.off - 4) 2 - 8

/-- The fields of an NTP message up to an RFC 8573 MAC of 20 octets, if it ends in one. -/
def SvcPkt.ntpFields (p : SvcPkt) : List (Nat × Nat × Nat) := p.fields p.ntpLen 48 64

/-- Where the extension fields end. -/
def fieldsEnd (l : List (Nat × Nat × Nat)) : Nat := l.foldl (fun _ e => e.2.1 + e.2.2) 48

/-- The key identifier and MAC of RFC 8573 that end a message. -/
def SvcPkt.ntpMac (p : SvcPkt) : Option (Nat × List Byte) :=
  let e := fieldsEnd p.ntpFields
  if p.ntpLen = e + 20 then some (p.be e 4, p.at_ (e + 4) 16) else none

/-- The Traverse extension field (R241); none while TYPE is zero. -/
def State.travField (s : State) (b : Bound) : List Byte :=
  let ty := s.fd Fld.SVC_NTP_EF.TYPE
  if ty = 0 then [] else beBytes 2 ty ++ beBytes 2 16 ++ boundWire b ++ beBytes 1 (s.fd Fld.TRV_STAT.CC) ++ zeros 3

/-- NTP root dispersion of a bound (R151): its larger side in 2^-16 s, rounded upward. -/
def rootDispersion (m : Option Nat) : Nat :=
  match m with
  | some x => Nat.min 0xFFFFFFFE (ceilDiv (x * 65536) (256 * 10 ^ 9))
  | none => 0xFFFFFFFF

/-- The leap indicator (R233). -/
def State.leapInd (s : State) : Nat := if s.fb Fld.DTM_UTC_STAT.LEAP61 then 1 else if s.fb Fld.DTM_UTC_STAT.LEAP59 then 2 else 0

/-- The 48 octets of a reply for a launch point; `kiss` makes it a Kiss-o'-death. The reference timestamp has no value in the spec. -/
def State.ntpReply (s : State) (p : SvcPkt) (poll : Nat) (rx tx : TimeVal) (refTime : BitVec 64) (kiss : Option (List Byte)) : List Byte :=
  let stratum := if kiss.isSome then 0 else 1
  let refid := kiss.getD (beBytes 4 (s.rg .SVC_NTP_REFID 0).toNat)
  beBytes 1 (s.leapInd * 64 + 4 * 8 + 4) ++ beBytes 1 stratum ++ beBytes 1 poll ++ [0xE2] ++ zeros 4
    ++ beBytes 4 (rootDispersion (s.worstSide s.now)) ++ refid ++ beBytes 8 refTime.toNat ++ p.at_ 40 8
    ++ beBytes 8 (s.ntpTime rx) ++ beBytes 8 (s.ntpTime tx)

/-- The bound of an NTP reply (Table 10.5), in whole nanoseconds. -/
def State.ntpBound (s : State) (n : Nat) (rx tx : TimeVal) (ok : Bool) : Bound :=
  boundUnit (boundMax (s.boundAt n tx) (if ok then s.portBound n true rx else Bound.unbounded)) 1 true

/-- The poll of a reply (R244): the client's, or from max(client poll + DELAY_LOG2, MINPOLL) capped at 17. -/
def State.ntpPoll (s : State) (k tr poll : Nat) : Nat :=
  if tr = 1 then Nat.min 17 (Nat.max (poll + s.fd Fld.SVC_CLASS.DELAY_LOG2 k) (s.fd Fld.SVC_CLASS.MINPOLL k)) else poll

/-- An NTP message sent on Q6 with no time in it that is bounded: a Kiss-o'-death. -/
def State.ntpKiss (s : State) (n : Nat) (p : SvcPkt) (rx : TimeVal) (code tail : List Byte) (mac : Option (Nat × List Byte)) : State :=
  let (ref, s1) := s.fresh
  let m := s1.ntpReply p (p.be 2 1) rx s.now ref (some code) ++ tail
  let msg := match mac with
    | some (id, key) => m ++ beBytes 4 id ++ cmac key (m ++ [])
    | none => m
  (s1.svcSend (svcThread n 2) n (p.answer n p.mac 123 p.sport msg) [] false).1

/-- A reply launched on Q7 whose transmit timestamp is the launch point: `tail` gives what follows the 48 octets and the Traverse
field from the octets before it. -/
def State.ntpLaunch (s : State) (n : Nat) (p : SvcPkt) (poll : Nat) (rx : TimeVal) (ok : Bool) (before : List Byte)
    (tail : List Byte → List Byte) (from_ : TimeVal) : State × Option Nat :=
  let (ref, s1) := s.fresh
  let mk := fun (tx : TimeVal) =>
    let m := s1.ntpReply p poll rx tx ref none ++ before ++ s1.travField (s1.ntpBound n rx tx ok)
    (p.answer n p.mac 123 p.sport (m ++ tail m), if s1.fd Fld.SVC_NTP_EF.TYPE = 0 then [] else [Tag.projected tx])
  s1.svcLaunch (svcThread n 2) n ((mk s.now).1.length + 4) from_ mk

/-- The least lead of a launched reply: DESIGN CHOICE 8 µs, above the lead of Table 2.1 and the 4 µs of R214. -/
def State.replyFrom (s : State) : TimeVal := s.now.plus (8 * usCount)

/-- Whether an NTP request may be answered on a port: service, port, UTC. -/
def State.ntpServes (s : State) (n : Nat) (p : SvcPkt) : Bool :=
  decide (s.svcState ≠ 0) && s.fb Fld.SVC_PORT.NTP n && decide (p.ver ≠ 0 ∧ p.be 0 1 % 8 = 3 ∧ 48 ≤ p.ntpLen) && s.fb Fld.DTM_UTC_OFFSET.VALID

/-- The demand of an NTP client at its poll, in units of 1/8: a request and a reply every 2^poll seconds. -/
def ntpEighths (cost poll : Nat) : Nat := ceilDiv (16 * cost) (2 ^ Nat.min poll 17)

/-- Whether a message carries NTS fields. -/
def SvcPkt.isNts (p : SvcPkt) : Bool := p.ntpFields.any (fun e => decide (e.1 = 0x0204 ∨ e.1 = 0x0404))

/-- An NTP request served (R233, R234). -/
def State.ntpServe (s : State) (n h : Nat) : State :=
  let th := svcThread n 2
  match s.svcFrame n 2 h with
  | none => s
  | some (f, rx) =>
    match parsePkt (s.frameData f) with
    | none => s.svcDone th h
    | some p =>
      if p.isNts then s
      else
        let s0 := s.svcDone th h
        let cl := n / 4
        let rate : List Byte := [0x52, 0x41, 0x54, 0x45]
        let refuse := fun (s : State) (k : Nat) (mac : Option (Nat × List Byte)) =>
          ((s.addSpent cl k (if mac.isSome then s.fd Fld.SVC_COST.NTP else s.fd Fld.SVC_COST.UNAUTH)).tally 2 k).ntpKiss n p rx rate [] mac
        if !s0.ntpServes n p then s0
        else if s0.svcState = 2 then refuse s0 8 none
        else match p.ntpMac with
          | none =>
            let s1 := s0.addUnits cl 8 (2 * s0.fd Fld.SVC_COST.UNAUTH)
            let (s2, tr) := s1.svcDecide cl 8
            if tr = 2 then refuse s2 8 none
            else ((s2.tally 0 8).ntpLaunch n p (p.be 2 1) rx f.stampOk [] (fun _ => []) s.replyFrom).1
          | some (id, mac) =>
            let client := p.client n false
            let found := s0.svcFind client
            match s0.clientKey th true id found with
            | (s1, none) => s1.tally 3 (s1.failIdx found)
            | (s1, some (hd, key)) =>
              if cmac key (p.at_ 0 (fieldsEnd p.ntpFields)) ≠ mac then s1.tally 3 (s1.failIdx found)
              else
                let k := id / 2 ^ 29
                match s1.svcRecord client k id with
                | (s2, none) => refuse (s2.tally 6 0) 8 (some (id, key))
                | (s2, some i) =>
                  let s3 := ((s2.recSeen i 0 0).recPut i 0x60 8 hd).askedSet i 0 (ntpEighths (s2.fd Fld.SVC_COST.NTP) (p.be 2 1))
                  let (s4, tr) := s3.svcDecide cl k
                  let s5 := s4.recPut i 0x0A 1 tr
                  if tr = 2 then (refuse s5 k (some (id, key))).recSent i
                  else
                    (((s5.tally tr k).ntpLaunch n p (s5.ntpPoll k tr (p.be 2 1)) rx f.stampOk []
                      (fun m => beBytes 4 id ++ cmac key m) s.replyFrom).1).recSent i

/-! ### NTS (R235 to R238) -/

/-- The generation that a KEY_ID names, if it is valid. -/
def State.cookieGen (s : State) (id : Nat) : Option Nat :=
  (List.range 2).find? (fun g => s.fb Fld.SVC_COOKIE_SLOTS.VALID g && decide ((s.rg .SVC_COOKIE_ID g).toNat = id))

/-- The next unique nonce of a class (R237): by cluster, or 16 for the security controller. -/
def State.cookieNonce (s : State) (c cls : Nat) : List Byte × State :=
  let n := SMap.get (fun _ => (0 : BitVec 64)) s.svc.nonce c
  (beBytes 1 (cls % 8) ++ beBytes 1 c ++ beBytes 8 n.toNat ++ beBytes 4 s.now.ns.toNat ++ zeros 2,
    { s with svc := { s.svc with nonce := SMap.insert id s.svc.nonce c (n + 1) } })

/-- One sealed half of a cookie: nonce, synthetic IV, encrypted key. -/
def sealHalf (key nonce plain : List Byte) : List Byte := nonce ++ (Config.laneOp 0x07 key nonce [] plain).getD []

/-- A cookie of a class over two keys under generation `g` (Table 10.3). -/
def State.makeCookie (s : State) (c cls g : Nat) (key c2s s2c : List Byte) : List Byte × State :=
  let (n1, s1) := s.cookieNonce c cls
  let (n2, s2) := s1.cookieNonce c cls
  (beBytes 4 (s.rg .SVC_COOKIE_ID g).toNat ++ sealHalf key n1 c2s ++ sealHalf key n2 s2c, s2)

/-- Several cookies. -/
def State.makeCookies (s : State) (c cls g : Nat) (key c2s s2c : List Byte) : Nat → List (List Byte) × State
  | 0 => ([], s)
  | n + 1 =>
    let (x, s1) := s.makeCookie c cls g key c2s s2c
    let (r, s2) := State.makeCookies s1 c cls g key c2s s2c n
    (x :: r, s2)

/-- An extension field with its body. -/
def ntpField (ty : Nat) (body : List Byte) : List Byte :=
  let pad := (4 - body.length % 4) % 4
  beBytes 2 ty ++ beBytes 2 (4 + body.length + pad) ++ body ++ zeros pad

/-- The Authenticator field: nonce length, ciphertext length, nonce, ciphertext. -/
def authField (nonce ct : List Byte) : List Byte := ntpField 0x0404 (beBytes 2 nonce.length ++ beBytes 2 ct.length ++ nonce ++ ct)

/-- The two keys of a request's cookie, opened by the unseal slot as CDRV opens them, with the cookie's class. -/
def State.openCookie (s : State) (th : Nat) (cookie : List Byte) : State × Option (Nat × List Byte × List Byte) :=
  match s.cookieGen (beAt cookie 0 4) with
  | none => (s, none)
  | some g =>
    let slot := s.fd Fld.SVC_COOKIE_SLOTS.DRV g
    let c := clusterOf th
    match s.svcDerive th slot (sliceAt cookie 4 64) with
    | (s1, none) => (s1, none)
    | (s1, some h1) =>
      match s1.svcDerive th slot (sliceAt cookie 68 64) with
      | (s2, none) => (s2.release_ c h1, none)
      | (s2, some h2) =>
        let keys : Option (Nat × List Byte × List Byte) := match s2.derivedKey c h1, s2.derivedKey c h2 with
          | some a, some b => some (beAt cookie 4 1 % 8, a.key, b.key)
          | _, _ => none
        ((s2.release_ c h1).release_ c h2, keys)

/-- The keys of a cookie as the DECRYPT_ONLY slot of its generation gives them (R237). -/
def State.cookiePlain (s : State) (cookie : List Byte) : Option (List Byte × List Byte) :=
  match s.cookieGen (beAt cookie 0 4) with
  | none => none
  | some g => match s.slotFor (s.fd Fld.SVC_COOKIE_SLOTS.DEC g) 8 with
    | none => none
    | some key =>
      match Config.laneOp 0x08 key (sliceAt cookie 4 16) [] (sliceAt cookie 20 48), Config.laneOp 0x08 key (sliceAt cookie 68 16) [] (sliceAt cookie 84 48) with
      | some a, some b => some (a, b)
      | _, _ => none

/-- An NTS request served (R236, R237), or answered with an NTS NAK (R238). -/
def State.ntsServe (s : State) (n h : Nat) : State :=
  let th := svcThread n 2
  match s.svcFrame n 2 h with
  | none => s
  | some (f, rx) =>
    match parsePkt (s.frameData f) with
    | none => s
    | some p =>
      if !p.isNts then s
      else
        let s0 := s.svcDone th h
        let cl := n / 4
        let cost := s0.fd Fld.SVC_COST.NTS
        if !s0.ntpServes n p || !s0.fb Fld.SVC_PORT.NTS n then s0
        else
          let fs := p.ntpFields
          let body := fun (e : Nat × Nat × Nat) => p.at_ (e.2.1 + 4) (e.2.2 - 4)
          let one := fun (ty : Nat) => fs.find? (fun e => decide (e.1 = ty))
          let uid : List Byte := ((one 0x0104).map (fun e => p.at_ e.2.1 e.2.2)).getD []
          let cookie : List Byte := ((one 0x0204).map body).getD []
          if s0.svcState = 2 then
            ((s0.addSpent cl 8 cost).tally 2 8).ntpKiss n p rx [0x52, 0x41, 0x54, 0x45] uid none
          else
            let (s1, keys) := s0.openCookie th (cookie.take 132)
            let good : Option (Nat × List Byte × List Byte) := match keys, one 0x0404 with
              | some k, some e =>
                let b := body e
                let nl := beAt b 0 2
                let ct := beAt b 2 2
                if (Config.laneOp 0x08 k.2.1 (sliceAt b 4 nl) (p.at_ 0 e.2.1) (sliceAt b (4 + (nl + 3) / 4 * 4) ct)).isSome then some k else none
              | _, _ => none
            match good with
            | none => (((s1.addSpent cl 8 cost).tally 7 0).tally 2 8).ntpKiss n p rx [0x4E, 0x54, 0x53, 0x4E] uid none
            | some (k, _, s2c) =>
              let (s2, tr) := (s1.addUnits cl k (2 * cost)).svcDecide cl k
              let places := Nat.min 7 ((fs.filter (fun e => decide (e.1 = 0x0304))).length)
              let cur := bit01 (s2.fb Fld.SVC_CTL.COOKIE_CUR)
              let (cookies, s3) := match s2.cookiePlain cookie, s2.slotFor (s2.fd Fld.SVC_COOKIE_SLOTS.ENC cur) 7 with
                | some (a, b), some key => if tr = 2 then ([], s2) else s2.makeCookies cl k cur key a b (1 + places)
                | _, _ => ([], s2)
              let plain := cookies.foldl (fun a x => a ++ ntpField 0x0204 x) ([] : List Byte)
              let (nonce, s4) := s3.cookieNonce cl k
              let tail := fun (m : List Byte) => authField nonce ((Config.laneOp 0x07 s2c nonce m plain).getD [])
              if tr = 2 then
                let (ref, s5) := ((s4.addSpent cl k cost).tally 2 k).fresh
                let m := s5.ntpReply p (p.be 2 1) rx s5.now ref (some [0x52, 0x41, 0x54, 0x45]) ++ uid
                (s5.svcSend th n (p.answer n p.mac 123 p.sport (m ++ tail m)) [] false).1
              else
                let (s5, sent) := (s4.tally tr k).ntpLaunch n p (s4.ntpPoll k tr (p.be 2 1)) rx f.stampOk uid tail s.replyFrom
                (match sent with
                  | some hd => { s5 with svc := { s5.svc with ntsKey := SMap.insert id s5.svc.ntsKey hd (s2c, plain) } }
                  | none => s5)

/-! ### Cancellations, freed records, reissued launches (R226, R243, R247) -/

/-- The next cancellation that is due is sent: one CANCEL_UNICAST_TRANSMISSION for every grant the record holds. -/
def State.cancelSpread (s : State) : State :=
  match s.svc.cancels.find? (fun x => s.reached x.at_) with
  | none => s
  | some x =>
    let i := x.rec_
    let s1 : State := { s with svc := { s.svc with cancels := s.svc.cancels.erase x } }
    let n := s1.recF i 0x0B 1
    let th := svcThread n 1
    let live := (List.range 3).filter (s1.granted i)
    if live = [] ∨ !s1.svcRuns th ∨ s1.recF i 0 8 = 0 then s1
    else
      let id := s1.recF i 0x0C 4
      let (s2, key) := s1.clientKey th false id (some i)
      let s3 := live.foldl (fun s t => (s.recPut i (0x38 + t) 1 0x7F).recPut i (0x3C + 4 * t) 4 0) s2
      let tl := live.foldl (fun a t => a ++ beBytes 2 6 ++ beBytes 2 2 ++ beBytes 1 (grantOctet t) ++ [0]) ([] : List Byte)
      let addr := s3.octets (s3.recAddr i + 0x10) 16
      let ver := if s3.recF i 8 1 = 2 then 6 else 4
      let msg := s3.signaling n 0 (s3.octets (s3.recAddr i + 0x28) 10) (key.map (fun e => (id, e.2))) tl
      let bs := udpFrame (s3.octets (s3.recAddr i + 0x20) 6) (Config.portMac n) [] ver (Config.portAddr n) addr 320 320 msg
      (s3.svcSend th n bs [] false).1.recSent i

/-- A record freed at a processed second (R226): every grant expired, and SEEN more than IDLE seconds past. -/
def State.recordFree (s : State) (i : Nat) : State :=
  let idle := decide (s.recF i 0x50 8 + s.fd Fld.SVC_TABLE_CFG.IDLE < s.now.sec.toNat)
  if s.svcCount ≤ i ∨ s.recF i 0 8 = 0 ∨ !idle ∨ (List.range 3).any (s.granted i) ∨ !s.coreUp then s
  else
    let s1 := (List.range 3).foldl (fun s t => s.askedSet i t 0) s
    s1.storeData (s1.recAddr i) (zeros 128)

/-- The notices of a thread without those that a predicate names. -/
def State.dropNotices (s : State) (th : Nat) (p : Notice → Bool) : State :=
  let t := s.thread th
  s.setThread th { t with notices := t.notices.filter (fun x => !p x) }

/-- The key that authenticates a message sent again for a Delay_Req with an AUTHENTICATION TLV: the client's own on a unicast port,
the multicast key elsewhere. -/
def State.syncKey (s : State) (th n : Nat) (p : SvcPkt) : State × Option (Nat × List Byte) :=
  match p.auth with
  | some (_, id, _) =>
    if s.fd Fld.SVC_PORT.PROFILE n = 2 then ((s.clientKey th false id none).1, (s.clientKey th false id none).2.map (fun e => (id, e.2)))
    else (s, (s.mcKey n true).map (fun k => (id, k)))
  | none => (s, none)

/-- A Sync reissued as two-step (R214, R243): twoStepFlag set, originTimestamp zero, no Traverse TLV, sent with SENT_TS. -/
def State.syncReissue (s : State) (th n h : Nat) (p : SvcPkt) : State :=
  let len := p.be 2 2
  let end_ := if p.auth.isSome then len - 26 else len
  let rest := (p.tlvs end_ 44 16).filter (fun x => !(decide (x.1 = 3) && decide (x.2.length = 14)))
  let tl := rest.foldl (fun a x => a ++ beBytes 2 x.1 ++ beBytes 2 x.2.length ++ x.2) ([] : List Byte)
  let (s1, key) := s.syncKey th n p
  let msg := s1.sealPtp n key (fun l => p.at_ 0 2 ++ beBytes 2 l ++ p.at_ 4 2 ++ beBytes 1 (p.be 6 1 / 4 * 4 + 2 + p.be 6 1 % 2) ++ p.at_ 7 1 ++ zeros 8
    ++ p.at_ 16 18 ++ zeros 10 ++ tl)
  let head := p.all.take p.off
  let bs := if p.ver = 0 then head ++ msg
    else udpFrame (sliceAt p.all 0 6) (sliceAt p.all 6 6) p.tags p.ver p.src p.dst p.sport (beAt p.all (p.off - 6) 2) msg
  let (s2, sent) := ((s1.freeFrame h).tally 4 0).svcSend th n bs [] true
  match sent with
  | some hd => { s2 with svc := { s2.svc with follow := SMap.insert id s2.svc.follow hd bs } }
  | none => s2

/-- The Follow_Up of a two-step message, or the Pdelay_Resp_Follow_Up, once its SENT_TS has come (Table 10.5). -/
def State.followUp (s : State) (th n : Nat) (x : Notice) (p : SvcPkt) : State :=
  let t := x.instant
  let (stamp, frac) := ptpStamp t
  let peer := decide (p.be 0 1 % 16 = 3)
  let b := widenUnit (s.portBound n false t)
  let (s1, key) : State × Option (Nat × List Byte) := match p.auth with
    | some (_, id, _) =>
      if s.fd Fld.SVC_PORT.PROFILE n = 2 then let r := s.clientKey th false id none; (r.1, r.2.map (fun e => (id, e.2)))
      else (s, (s.mcKey n true).map (fun k => (id, k)))
    | none => (s, none)
  let body := if peer then stamp ++ p.at_ 44 10 else stamp
  let msg := s1.sealPtp n key (fun l => s1.ptpHeader n (if peer then 0x0A else 8) l (p.be 6 1 * 256 / 1024 * 1024 % 2048) frac (p.be 30 2)
    (if peer then 5 else 2) (p.be 33 1) ++ body ++ s1.travTlv b)
  let bs := if p.ver = 0 then p.all.take p.off ++ msg
    else udpFrame (sliceAt p.all 0 6) (sliceAt p.all 6 6) p.tags p.ver p.src p.dst p.sport 320 msg
  (s1.svcSend th n bs [.port] false).1

/-- The key of the MAC of an NTP message that is built again. -/
def State.ntpKey (s : State) (th : Nat) (p : SvcPkt) : State × Option (Nat × List Byte) :=
  match p.ntpMac with
  | some (id, _) => ((s.clientKey th true id none).1, (s.clientKey th true id none).2.map (fun e => (id, e.2)))
  | none => (s, none)

/-- The nonce of an NTS reply that is built again. -/
def State.ntsNonce (s : State) (c : Nat) (nts : Bool) : List Byte × State := if nts then s.cookieNonce c 0 else ([], s)

/-- An NTP reply rebuilt for a new launch point at least 4 µs ahead and not before the pause's end, at most twice (R214, R243).
The new MAC or authenticator covers the new octets. -/
def State.ntpRebuild (s : State) (th n h : Nat) (p : SvcPkt) : State :=
  let count := svcGet s.svc.rebuilt h
  let s0 := s.freeFrame h
  let s1 : State := { s0 with svc := { s0.svc with rebuilt := SMap.erase s0.svc.rebuilt h } }
  if 2 ≤ count then s1
  else
    let end_ : Nat := match SMap.find (s1.port n).until_ 7 with
      | some e => e
      | none => 0
    let from_ := if s1.replyFrom.line < end_ then lineRound (end_ + 825) else s1.replyFrom
    let fs := p.ntpFields
    let (s2, key) := s1.ntpKey th p
    let nts := SMap.find s.svc.ntsKey h
    let (nonce, s2) := s2.ntsNonce (n / 4) nts.isSome
    let ty := s2.fd Fld.SVC_NTP_EF.TYPE
    let mk := fun (tx : TimeVal) =>
      let b := boundUnit (s2.boundAt n tx) 1 true
      let old := fs.find? (fun e => decide (e.1 = ty))
      let wide := match old with
        | some e => boundMax b ⟨BitVec.ofNat 32 (p.be (e.2.1 + 4) 4), BitVec.ofNat 32 (p.be (e.2.1 + 8) 4)⟩
        | none => b
      let fields := fs.foldl (fun a e =>
        if e.1 = ty then a ++ s2.travField wide else if e.1 = 0x0404 then a else a ++ p.at_ e.2.1 e.2.2) ([] : List Byte)
      let m := p.at_ 0 40 ++ beBytes 8 (s2.ntpTime tx) ++ fields
      let tail := match key, nts with
        | some (id, k), _ => beBytes 4 id ++ cmac k m
        | none, some (k, plain) => authField nonce ((Config.laneOp 0x07 k nonce m plain).getD [])
        | none, none => []
      (udpFrame (sliceAt p.all 0 6) (sliceAt p.all 6 6) p.tags p.ver p.src p.dst 123 (beAt p.all (p.off - 6) 2) (m ++ tail),
        if old.isSome then [Tag.projected tx] else ([] : List Tag))
    let (s3, sent) := s2.svcLaunch th n ((mk s.now).1.length + 4) from_ mk
    match sent with
    | some hd =>
      let keys := match nts with
        | some x => SMap.insert id s3.svc.ntsKey hd x
        | none => s3.svc.ntsKey
      let s4 : State := { s3 with svc := { s3.svc with rebuilt := svcSet s3.svc.rebuilt hd (count + 1), ntsKey := keys } }
      s4.tally 5 0
    | none => s3

/-- LAUNCH_REISSUE (R214, R243): the thread's LAUNCH_FAILED notice for a frame, reissued as a two-step Sync or a rebuilt NTP reply;
or its SENT_TS notice for a two-step message, followed by the Follow_Up. -/
def State.reissue (s : State) (th n h : Nat) : State :=
  if !s.svcRuns th then s
  else
    let ns := (s.thread th).notices
    let hit := fun (k : NoticeKind) (x : Notice) => decide (x.kind = k) && decide (x.handle = BitVec.ofNat 32 h)
    if ns.any (hit .launchFailed) then
      let s1 := s.dropNotices th (hit .launchFailed)
      match s1.heldFrame th h with
      | none => s1
      | some f => match parsePkt (s1.frameData f) with
        | none => s1
        | some p =>
          if p.be 0 1 % 16 = 0 ∧ (p.ver = 0 ∨ beAt p.all (p.off - 6) 2 = 319) then s1.syncReissue th n h p
          else if p.ver ≠ 0 ∧ beAt p.all (p.off - 8) 2 = 123 ∧ p.be 0 1 % 8 = 4 then s1.ntpRebuild th n h p
          else s1
    else match ns.find? (hit .sentTs), SMap.find s.svc.follow h with
      | some x, some bs =>
        let s1 := s.dropNotices th (hit .sentTs)
        let s2 : State := { s1 with svc := { s1.svc with follow := SMap.erase s1.svc.follow h } }
        (match parsePkt bs with
          | some p => if x.instant = TimeVal.zero then s2 else s2.followUp th n x p
          | none => s2)
      | _, _ => s

end Sys2Proof.Machine
end

