-- ==== Sys2Proof/Machine/PwrOps.lean ====
section
/-!
DEFINITION. Machine/PwrOps.lean: program images and the boot store, fuses and debug levels, gating and isolation, the Cairn
commits, the start of the keeper domain and of the core die, loss of supplies and the power-fail warning
(16_power_security_life.md; R22, R88, R141, R285, R401, R402).
-/
namespace Sys2Proof.Machine

/-! ### Program images (R88, Table 3.20) -/

/-- A parsed image with its two sections. -/
structure ImageFile where
  image : Image
  imem  : List Byte
  dmem  : List Byte
  zero  : Nat

/-- The entry of thread `j` in an image header: none leaves the thread IDLE. -/
def imageEntry (f : List Byte) (j : Nat) : Option (BitVec 64 × Bool) :=
  let w := leAt f (0x24 + 4 * j) 4
  if w = 0xFFFFFFFF then none else some (BitVec.ofNat 64 (w / 2 * 2), bitAt w 0)

/-- Whether the header's form and sizes hold (R88, condition 1). -/
def imageForm (f : List Byte) : Bool :=
  let imem := leAt f 0x14 4
  let init := leAt f 0x18 4
  let zero := leAt f 0x1C 4
  let inside := fun (a : Nat) => decide (a < imem)
  decide (208 ≤ f.length) && decide (leAt f 0 4 = 0x42445801) && decide (leAt f 4 2 = 1) && decide (imem ≤ 65536)
    && decide (imem % 4 = 0) && decide (init ≤ 61440) && decide (init + zero ≤ 65536)
    && decide (f.length = 208 + imem + init) && inside (leAt f 0x20 4)
    && (List.range 4).all (fun j => match imageEntry f j with
      | some (a, _) => inside a.toNat
      | none => true)

/-- An image file taken apart. -/
def imageParse (f : List Byte) : ImageFile :=
  let imem := leAt f 0x14 4
  { image :=
      { id := BitVec.ofNat 64 (leAt f 8 8), version := BitVec.ofNat 32 (leAt f 0x10 4), imemSize := imem,
        evect := BitVec.ofNat 64 (leAt f 0x20 4), entries := (List.range 4).map (imageEntry f), digest := Config.sha384 f }
    imem := sliceAt f 208 imem
    dmem := f.drop (208 + imem)
    zero := leAt f 0x1C 4 }

/-- The minimum VERSION stored for an identifier. -/
def State.minVersion (s : State) (id : BitVec 64) : Nat := SMap.get (fun _ => 0) s.pwr.minVer id.toNat

/-- The security controller's verdict on an image (R88, R373, R376): the reason of the first check that fails, or the image. -/
def State.imageCheck (s : State) (f : List Byte) : Nat ⊕ ImageFile :=
  if s.lcBad then .inl 0x05
  else if !imageForm f then .inl 0x01
  else if sliceAt f 0x40 48 ≠ Config.sha384 (f.drop 208) then .inl 0x02
  else if !Config.ecdsaVerify (if s.lifecycle = 0 then Config.factoryAuth else s.ownerHash) (f.take 0x70) (sliceAt f 0x70 96) then
    .inl 0x03
  else
    let x := imageParse f
    if x.image.version.toNat < s.minVersion x.image.id then .inl 0x04 else .inr x

/-- A refused image: cause IMAGE_REFUSED, NOTICE (Table 11.4). -/
def State.imageRefused (s : State) (reason : Nat) : State := s.raise { rec_ := 466, cause := 25, cls := 0, reason := reason }

/-- Thread `th` as its core's image starts it: at its entry, or IDLE without one. -/
def Image.thread (x : Image) (th : Nat) : Thread :=
  match x.entries.getD (th % 4) none with
  | some (pc, k) => { Thread.reset with st := .ready, k := k, pc := pc, evect := x.evect }
  | none => { Thread.reset with evect := x.evect }

/-- An image loaded into one core (R88): IMEM, the initial and the zeroed part of DMEM, its registers, its threads. -/
def State.loadImage (s : State) (x : ImageFile) (k : Nat) : State :=
  let s1 := ((s.store (imemBase k) x.imem).store (dmemBase k) x.dmem).store (dmemBase k + x.dmem.length) (zeros x.zero)
  let s2 : State := { s1 with images := SMap.insert id s1.images k x.image }
  let s3 := (s2.setPair .STK_IMG_ID_HI .STK_IMG_ID_LO x.image.id k).wr .STK_IMG_VER k x.image.version
  (List.range 4).foldl (fun s j => s.setThread (4 * k + j) (x.image.thread (4 * k + j))) s3

/-- Whether a thread of a core is READY, WAIT or HALTED. -/
def State.coreBusy (s : State) (k : Nat) : Bool :=
  (List.range 4).any (fun j => match (s.thread (4 * k + j)).st with
    | .ready | .wait | .halted => true
    | _ => false)

/-- The cores that a 16-octet mask names. -/
def maskCores (m : BitVec 128) : List Nat := (List.range 128).filter (fun k => m.getLsbD k)

/-- The stored minimum raised to an image's VERSION, when a load requests commit (R88). -/
def State.commitVersion (s : State) (x : Image) : State :=
  { s with pwr := { s.pwr with minVer := SMap.set id (fun _ => 0) s.pwr.minVer x.id.toNat (Nat.max (s.minVersion x.id) x.version.toNat) } }

/-- IMAGE_LOAD (Table 14.10). A core of a gated region has no memory to load: GATED (DESIGN CHOICE). -/
def State.imageLoad (s : State) (mask : BitVec 128) (commit : Bool) (f : List Byte) : State × Status × Nat :=
  let cores := maskCores mask
  match s.imageCheck f with
  | .inl r => (s.imageRefused r, .refused, r)
  | .inr x =>
    if cores.any (fun k => s.gatedCluster (k / 8)) then (s, .gated, 0)
    else match cores.find? s.coreBusy with
      | some k => (s, .busy, k)
      | none =>
        let s1 := if commit then s.commitVersion x.image else s
        (cores.foldl (fun s k => s.loadImage x k) s1, .ok, 0)

/-! ### The boot store (R376) -/

/-- The boot store's room in octets. -/
def bootRoom : Nat := 4 * 2 ^ 20

/-- The octets a boot store uses: each file with its core mask. -/
def bootUsed (l : List BootEntry) : Nat := (l.map (fun e => e.file.length + 16)).foldl (· + ·) 0

/-- SEC_BOOT's USED and STORED follow the store. -/
def State.bootShow (s : State) : State :=
  (s.setF Fld.SEC_BOOT.USED (Nat.min 0xFFF (ceilDiv (bootUsed s.pwr.boot) 1024))).setF Fld.SEC_BOOT.STORED s.pwr.boot.length

/-- BOOT_STORE: the file replaces the entries of the cores it names. -/
def State.bootStore (s : State) (mask : BitVec 128) (f : List Byte) : State × Status × Nat :=
  let cores := maskCores mask
  match s.imageCheck f with
  | .inl r => (s.imageRefused r, .refused, r)
  | .inr _ =>
    let kept := (s.pwr.boot.map (fun e => { e with cores := e.cores.filter (fun k => !cores.contains k) })).filter
      (fun e => decide (e.cores ≠ []))
    let l := if cores = [] then kept else kept ++ [⟨cores, f⟩]
    if bootRoom < bootUsed l then (s, .noResource, 0)
    else (({ s with pwr := { s.pwr with boot := l } }).bootShow, .ok, 0)

/-- BOOT_CLEAR. -/
def State.bootClear (s : State) : State := ({ s with pwr := { s.pwr with boot := [] } }).bootShow

/-- One boot image verified and loaded at a core-die start; a refused one leaves its cores IDLE (Table 16.6, step 5). -/
def State.bootOne (s : State) (e : BootEntry) : State :=
  match s.imageCheck e.file with
  | .inl r => (s.imageRefused r).setF Fld.SEC_BOOT.FAILED (Nat.min 0xFF (s.fd Fld.SEC_BOOT.FAILED + 1))
  | .inr x => e.cores.foldl (fun s k => s.loadImage x k) s

/-! ### Debug (R377 to R381) -/

/-- The debug level changes: HALTED threads resume when it leaves INVASIVE. -/
def State.setDebug (s : State) (l : DebugLevel) : State :=
  let code := match l with
    | .off => 0
    | .observe => 1
    | .invasive => 2
  let s1 := ({ s with pwr := { s.pwr with debug := l } }).setF Fld.DBG_STAT.LEVEL code
  if s.pwr.debug = .invasive ∧ l ≠ .invasive then
    s1.threads.foldl (fun s e => if e.2.st = .halted then s.setThread e.1 { e.2 with st := .ready } else s) s1
  else s1

/-- Whether Table 16.5 permits a level. -/
def State.debugPermits (s : State) (l : DebugLevel) : Bool :=
  let f := s.pwr.fuses
  let lc := s.lifecycle
  match l with
  | .off => true
  | .observe => !f.obsKill && (decide (lc = 0 ∨ lc = 3) || s.fb Fld.DBG_CTL.OBS_ALLOW)
  | .invasive => !f.invKill && !f.obsKill && (decide (lc ≠ 2) || s.fb Fld.DBG_CTL.INV_ALLOW)

/-- What a grant of INVASIVE does before the debugger gains access (R283, R377, Table 16.5). -/
def State.invade (s : State) : State :=
  let s1 : State := { s with pwr := { s.pwr with debugged := true } }
  if s1.lifecycle = 2 then s1.zeroise.svcRefuse
  else if s1.lifecycle = 1 then s1.closeSvc 5
  else s1

/-- A debugger's request for a level (R378); in Ember and without power nothing answers (R382). -/
def State.debugRequest (s : State) (l : DebugLevel) : State :=
  if !s.coreUp then s
  else if s.debugPermits l then ((if l = .invasive then s.invade else s).setDebug l)
  else s.setF Fld.DBG_STAT.DENIED (Nat.min 0xFFFF (s.fd Fld.DBG_STAT.DENIED + 1))

/-- A write of DBG_CTL: the permissions; DROP ends the session. -/
def State.dbgCtl (s : State) (v : BitVec 32) : State :=
  let s1 := s.wr .DBG_CTL 0 (v &&& 0xC0000000#32)
  if bitAt v.toNat 29 then s1.setDebug .off else s1

/-! ### Fuses (R372 to R375) -/

/-- The state with the fuses replaced. -/
def State.setFuses (s : State) (f : Fuses) : State := { s with pwr := { s.pwr with fuses := f } }

/-- FUSE_PROGRAM (R372): an item of Table 16.4 blown, or a reason; none for an item that does not exist or a value outside its
range. -/
def State.fuseProgram (s : State) (item value : Nat) : State × Status × Nat :=
  let f := s.pwr.fuses
  if s.pwr.pwrfail then (s, .refused, 0x0B)
  else if s.lifecycle = 3 then (s, .refused, 0x05)
  else if item = 1 then
    if f.invKill then (s, .refused, 0x06)
    else
      let s1 := s.setFuses { f with invKill := true }
      (if s1.pwr.debug = .invasive then s1.setDebug .off else s1, .ok, 0)
  else if item = 2 then
    if f.obsKill then (s, .refused, 0x06)
    else ((s.setFuses { f with invKill := true, obsKill := true }).setDebug .off, .ok, 0)
  else if item = 3 then
    if f.matPrio.isSome then (s, .refused, 0x06)
    else if 0xFF < value then (s, .range, 0)
    else (((s.setFuses { f with matPrio := some (BitVec.ofNat 8 value) }).setF Fld.MAT_PRIORITY.PRIO value).setB Fld.MAT_PRIORITY.FUSED true,
      .ok, 0)
  else if item = 4 then
    if f.dfdtCeil.isSome then (s, .refused, 0x06)
    else if value = 0 ∨ 10000 < value then (s, .range, 0)
    else
      let s1 := s.setFuses { f with dfdtCeil := some value }
      (if value < s1.fd Fld.DMP_MAX_DFDT.DFDT then s1.dfdtWrite (BitVec.ofNat 32 value) else s1, .ok, 0)
  else (s, .range, 0)

/-- Whether one hash can be blown into another: no fused 1 where the given hash has a 0. -/
def hashFits (fused given : List Byte) : Bool := (List.zip fused given).all (fun e => decide (e.1 &&& ~~~e.2 = 0))

/-- The owner hash and LC_P blown, and the transport key released (R374). -/
def State.fuseOwner (s : State) (owner : List Byte) : State :=
  let s1 := (s.setFuses { s.pwr.fuses with owner := owner, ownerSet := true, lcP := true }).hashRegs .KEY_OWNHASH owner
  ({ s1 with cairn := { s1.cairn with tkOut := true } }).setB Fld.KEY_STAT.TK_RELEASED true

/-- PROVISION (R374): the reason of a refusal, or the fuses and the released transport key. -/
def State.provision (s : State) (owner : List Byte) : Nat ⊕ State :=
  if s.pwr.pwrfail then .inl 0x0B
  else if s.lifecycle ≠ 0 ∧ s.lifecycle ≠ 1 then .inl 0x05
  else if s.lifecycle = 1 ∧ s.cairn.tkOut then .inl 0x08
  else if !hashFits s.ownerHash owner ∨ (s.lifecycle = 1 ∧ s.ownerHash ≠ owner) then .inl 0x06
  else .inr (s.fuseOwner owner)

/-- ADVANCE_FIELD (R373). -/
def State.advanceField (s : State) : State × Status × Nat :=
  if s.pwr.pwrfail then (s, .refused, 0x0B)
  else if s.lifecycle ≠ 1 then (s, .refused, 0x05)
  else if s.pwr.debug = .invasive then (s, .refused, 0x07)
  else (s.setFuses { s.pwr.fuses with lcF := true }, .ok, 0)

/-- RETIRE (R375): LC_R blown, then the key records destroyed; a key update in verification ends with LIFECYCLE (R284). -/
def State.retire (s : State) (order : List Byte) : State × Status × Nat :=
  let done : State × Status × Nat :=
    ((((s.setFuses { s.pwr.fuses with lcR := true }).envStop 0x02 .refused).destroyKeys), .ok, 0)
  if s.pwr.pwrfail then (s, .refused, 0x0B)
  else if s.lifecycle = 3 then (s, .refused, 0x05)
  else if s.lifecycle = 0 then done
  else if order.length ≠ 160 ∨ leAt order 0 4 ≠ 0x52455401 ∨ !allZero (sliceAt order 4 12) then (s, .buffer, 0)
  else if sliceAt order 0x10 48 ≠ identityHash then (s, .refused, 0x03)
  else if !Config.ecdsaVerify s.ownerHash (order.take 0x40) (sliceAt order 0x40 96) then (s, .refused, 0x04)
  else done

/-! ### Isolation (R22) -/

/-- The events that target a cluster are withdrawn and counted, armed launches of its ports among them (R59). A launch that a
thread of another cluster armed there fails with LOST (DESIGN CHOICE: the spec names no outcome for it). -/
def State.withdrawCluster (s : State) (c : Nat) : State :=
  let s1 := s.withdrawEvents (fun t => match t with
    | .thread n => decide (clusterOf n = c)
    | .launch n _ p => decide (clusterOf n = c ∨ p / 4 = c)
    | _ => false)
  s1.launches.foldl (fun s e =>
    if e.2.port / 4 = c ∧ e.2.thread / 32 ≠ c then s.failLaunch e.2 .lost else s) s1

/-- A cluster isolated (R22): its events are withdrawn, its ports go idle, its threads are aborted. -/
def State.isolate (s : State) (c : Nat) : State :=
  let s1 : State := { s with pwr := { s.pwr with isolated := if s.pwr.isolated.contains c then s.pwr.isolated else s.pwr.isolated ++ [c] } }
  let s2 := [0, 1, 2, 3].foldl (fun s j => s.portIdle (4 * c + j)) (s1.withdrawCluster c)
  (List.range 32).foldl (fun s j => s.abortThread (32 * c + j)) s2

/-- An isolated cluster returns to service: its ports restart (Table 9.2). -/
def State.restore (s : State) (c : Nat) : State :=
  let s1 : State := { s with pwr := { s.pwr with isolated := s.pwr.isolated.filter (fun x => decide (x ≠ c)) } }
  [0, 1, 2, 3].foldl (fun s j => s.portStart (4 * c + j)) s1

/-! ### Gating (R20, R367) -/

/-- Whether an armed event targets a unit of a core-die region. -/
def State.regionArmed (s : State) (r : Nat) : Bool :=
  s.timeline.any (fun e => match e.2.armed with
    | some ev => match ev.target with
      | .thread n => decide (regionOf (clusterOf n) = r)
      | .launch n _ _ => decide (regionOf (clusterOf n) = r)
      | _ => false
    | none => false)

/-- Whether a snapshot is armed. -/
def State.snapArmed (s : State) : Bool :=
  s.gns.armed.isSome || s.timeline.any (fun e => match e.2.armed with
    | some ev => decide (ev.target = .snapshot)
    | none => false)

/-- The GNSS baseband gated: sample ports and tracking stop, entries 8 to 11 lose their source. -/
def State.gateGnss (s : State) : State :=
  let s0 : State := { s with gns := { s.gns with armed := none } }
  let s1 := if s.gns.running.isSome ∨ s.gns.armed.isSome then s0.endCapture 3 else s0
  let s2 := (List.range 4).foldl (fun s p => s.setB Fld.GNS_SP_STAT.RUNNING false p) (s1.dropChannels (fun _ => true))
  let s3 : State := { s2 with gns := { s2.gns with jobs := [], job := none }, pwr := { s2.pwr with gatedGnss := true } }
  ([8, 9, 10, 11].foldl (fun s r => s.setEnt r { (s.ent r) with lost := true }) s3).pwrShow

/-- The GNSS baseband powered again; its ports start as after a configuration write. -/
def State.ungateGnss (s : State) : State := ({ s with pwr := { s.pwr with gatedGnss := false } }).pwrShow

/-- Whether a model address of memory belongs to a core-die region. -/
def regionHolds (r a : Nat) : Bool :=
  let inArea := fun (base size per : Nat) => decide (base ≤ a ∧ a < base + 4 * per * size ∧ (a - base) / size / per = r)
  inArea (cmemBase 0) 0x100000 4 || inArea (dmemBase 0) 0x10000 32 || inArea (imemBase 0) 0x10000 32

/-- The core-die region whose PRT, STK or PMC block holds a register. -/
def RegKey.region (k : RegKey) : Option Nat :=
  let a := k.reg.addr k.idx
  if 0x400000 ≤ a ∧ a < 0x440000 then some ((a - 0x400000) / 0x1000 / 16)
  else if 0x600000 ≤ a ∧ a < 0x680000 then some ((a - 0x600000) / 0x1000 / 32)
  else if 0x700000 ≤ a ∧ a < 0x720000 then some ((a - 0x700000) / 0x2000 / 4)
  else none

/-- A core-die region gated: what it held is lost. -/
def State.gateRegion (s : State) (r : Nat) : State :=
  let mine := fun (c : Nat) => decide (regionOf c = r)
  ({ s with
    mem := s.mem.filter (fun e => !regionHolds r e.1)
    regs := s.regs.filter (fun e => decide (e.1.region ≠ some r))
    images := s.images.filter (fun e => !mine (e.1 / 8))
    threads := s.threads.filter (fun e => !mine (clusterOf e.1))
    frames := s.frames.filter (fun e => !mine e.2.cluster)
    jobs := s.jobs.filter (fun e => !mine e.1)
    derived := s.derived.filter (fun e => !mine (e.1 / laneHandles))
    prt := { s.prt with ports := s.prt.ports.filter (fun e => !mine (e.1 / 4)) }
    pwr := { s.pwr with gatedCr := if s.pwr.gatedCr.contains r then s.pwr.gatedCr else s.pwr.gatedCr ++ [r] } }).pwrShow

/-- The regions that a word of REGION_GATE names. -/
def wordRegions (w : BitVec 32) : List Nat := [0, 1, 2, 3].filter (fun r => w.getLsbD r)

/-- REGION_GATE (R367). -/
def State.regionGate (s : State) (w : BitVec 32) : State × Status × Nat :=
  let rs := wordRegions w
  let open_ := rs.filter (fun r => !(List.range 4).all (fun j => s.pwr.isolated.contains (4 * r + j)))
  if w &&& 0xFFFFFEF0#32 ≠ 0 then (s, .opcode, 0)
  else if open_ ≠ [] then (s, .busy, open_.foldl (fun m r => m + 2 ^ r) 0)
  else if rs.any s.regionArmed || (bitAt w.toNat 8 && s.snapArmed) then (s, .armed, 0)
  else
    let s1 := rs.foldl State.gateRegion s
    (if bitAt w.toNat 8 && !s.pwr.gatedGnss then s1.gateGnss else s1, .ok, 0)

/-- REGION_UNGATE (R367). -/
def State.regionUngate (s : State) (w : BitVec 32) : State × Status × Nat :=
  let rs := wordRegions w
  if w &&& 0xFFFFFEF0#32 ≠ 0 then (s, .opcode, 0)
  else if rs.any (fun r => !s.pwr.gatedCr.contains r) || (bitAt w.toNat 8 && !s.pwr.gatedGnss) then (s, .range, 0)
  else
    let s1 := ({ s with pwr := { s.pwr with gatedCr := s.pwr.gatedCr.filter (fun r => !rs.contains r) } }).pwrShow
    (if bitAt w.toNat 8 then s1.ungateGnss else s1, .ok, 0)

/-! ### Commits to the Cairn store (R25, R385, R386) -/

/-- The Datum, its bound and the increment committed. -/
def State.commitDatum (s : State) : State :=
  let b := s.datumSides s.now
  { s with cairn := { s.cairn with datum := s.now, early := b.1, late := b.2, inc := s.inc } }

/-- What a shutdown and the emergency commit store (R385, step 4). -/
def State.commitAll (s : State) : State := if s.clockUp then s.commitDatum.holdCommit.journalCommit else s

/-! ### Loss of power (R387) -/

/-- The core supplies fall: the loss waits to be counted at the next start, with the warning it was given. -/
def State.powerLost (s : State) : State :=
  if s.pwr.core = .off then s
  else
    let w : Option Nat := s.pwr.warnAt.map (fun t => t.dist s.now / usCount)
    { s with pwr := { s.pwr with lostWarn := some w, coreLost := some s.now } }

/-- A loss counted at the next start (R387). -/
def State.countLoss (s : State) : State :=
  match s.pwr.lostWarn with
  | none => s
  | some w =>
    let us := w.getD 0
    let f := if 50 ≤ us then Fld.PWR_CNT.WARNED else Fld.PWR_CNT.UNWARNED
    let s1 := (s.setF Fld.PWR_FAIL.WARN (Nat.min 0xFFFF us)).setF f (Nat.min 0xFFFF (s.fd f + 1))
    ({ s1 with pwr := { s1.pwr with lostWarn := none } }).cairnReg .PWR_CNT 0

/-- The core die loses its supplies or is reset by its pin (R11). -/
def State.coreDieReset (s : State) (byPin : Bool) : State :=
  if byPin then
    let s1 := if s.coreUp then s.coreReset else s
    { s1 with pwr := { s1.pwr with resetN := true, needPin := false } }
  else
    let s1 := s.powerLost
    let s2 := if s.coreUp then s1.coreReset else s1
    { s2 with pwr := { s2.pwr with core := .off, coreOk := false } }

/-- The blocks of the Synthesis and Measurement regions lose their contents (R11). -/
def State.clockReset (s : State) : State :=
  let s1 := if s.coreUp then s.coreReset else s
  { s1 with
    regs := s1.regs.filter (fun e => decide (e.1.reg.domain e.1.idx = .keeper))
    copy := []
    secDone := []
    timeline := []
    hst := { s1.hst with posted := [] }
    pwr := { s1.pwr with dclk := false, ember := false, gatedGnss := false, gatedLoops := [] } }

/-- VDD_CLK is lost: the engine is off (R369). -/
def State.clkLoss (s : State) : State :=
  let s1 := s.powerLost.clockReset
  ({ s1 with pwr := { s1.pwr with vddClk := false, core := .off, coreOk := false } }).pwrShow

/-- The Keeper region reset (R11): every keeper-held register takes its reset word; the step-3 count stands (R388). -/
def State.keeperReset (s : State) : State :=
  let n := s.fd Fld.FLT_ESC_LAST.COUNT
  let s1 := s.clockReset
  ({ s1 with
    regs := []
    hst := { s1.hst with wosDone := false }
    flt := { FltState.reset with dfdtClock := s1.flt.dfdtClock } }).setF Fld.FLT_ESC_LAST.COUNT n

/-- KEEP_RESET_N asserted (R11, R369: not a full power cycle). -/
def State.keepReset (s : State) : State :=
  let s1 := s.keeperReset
  { s1 with pwr := { s1.pwr with keepReset := true, core := if s1.pwr.core = .off then .off else .held } }

/-- VDD_KEEP below its threshold: a full power cycle (R369, R377). -/
def State.keepLoss (s : State) : State :=
  let s1 := s.powerLost.keeperReset
  { s1 with pwr := { s1.pwr with vddKeep := false, debugged := false, zeroised := false, core := .off, coreOk := false } }

/-! ### The keeper-domain start (R141, R383) -/

/-- One side of the resumption bound (R141): none where the elapsed time is unknown. -/
def State.resumeSide (s : State) (b : Side) (known : Bool) (elapsed : Nat) : Side :=
  if known then Side.add b (some (rateTerm ((s.rg .TRV_RES_Y 0).toNat * 1000) (elapsed * 2 ^ 32) + 1000 * 65536)) else none

/-- The clock-die blocks at their reset values with what the Cairn store holds of them (R11). -/
def State.loadCairn (s : State) : State :=
  let c := s.cairn
  let s1 : State := { s with
    dtm := .reset, tic := .reset, ens := .reset, gns := { GnsState.reset with eph := c.eph, fltPin := s.gns.fltPin }
    syn := .reset
    trv := { TrvState.reset with ring := s.trv.ring, ringBase := s.trv.ringBase }
    timeline := []
    flt := { s.flt with grace := [], oscLast := [], dfdtHist := [], dfdtClock := Nat.min 0x64 s.dfdtCeil }
    copy := [] }
  let s2 := c.regs.foldl (fun s e => s.wr e.1.reg e.1.idx e.2) s1
  let s3 := c.tic.foldl (fun (s : State) (e : Nat × CalTable) =>
    let sa := (s.setTch e.1 { (s.tch e.1) with table := some e.2 }).showTable e.1 e.2
    if e.1 < 16 then sa.setB Fld.TIC_STAT.UNCAL false e.1 else sa) s2
  let s4 := (List.range 472).foldl (fun s i => if s.fb Fld.FLT_REC_STAT.GRACE_RUN i then s.setB Fld.FLT_REC_STAT.GRACE_RUN false i else s) s3
  let newest := c.hold.foldl (fun (m : Option HoldRecord) r => match m with
    | none => some r
    | some x => if x.seq < r.seq then some r else some x) none
  match newest with
  | none => s4
  | some h =>
    let s5 := ([Reg.ENS_HOLD_Y0, .ENS_HOLD_AGE, .ENS_HOLD_TC, .ENS_HOLD_UY, .ENS_HOLD_UA, .ENS_HOLD_UC, .ENS_HOLD_RES].zip h.regs).foldl
      (fun s e => s.wr e.1 0 e.2) s4
    let s6 := (s5.wr .ENS_OSC_REF 0 (h.refs.getD 0 0)).wr .ENS_OSC_REF 1 (h.refs.getD 1 0)
    let s7 := s6.setB Fld.ENS_STAT.MODEL_VALID (h.fit.valid (s6.fd Fld.ENS_HOLD_CTL.TAU))
    { s7 with ens := { s7.ens with fit := h.fit, tref := h.tref } }

/-- The journal goes on after the last record of the ring (R145, R388). -/
def State.resumeJournal (s : State) : State :=
  match s.trv.ring.getLast? with
  | none => s
  | some r =>
    let s1 : State := { s with trv := { s.trv with nextSeq := r.seq + 1, lastHash := Config.sha384 r.bytes } }
    (s1.setPair .TRV_JNL_SEQ_HI .TRV_JNL_SEQ_LO (BitVec.ofNat 64 r.seq)).setPair .TRV_JNL_OLD_HI .TRV_JNL_OLD_LO
      (BitVec.ofNat 64 s.trv.ringBase)

/-- A scheduled UTC change that was committed is armed again. -/
def State.rearmLeap (s : State) : State :=
  match s.cairn.leapAt with
  | none => s
  | some (at_, new) =>
    let s1 : State := { s with dtm := { s.dtm with leapAt := some (at_, new) } }
    (((s1.setPair .DTM_LEAP_AT_HI .DTM_LEAP_AT_LO at_).setB Fld.DTM_UTC_STAT.LEAP_PEND true).setF Fld.DTM_UTC_STAT.NEXT_OFFSET
      new.toNat).engineArm hLeap (TimeVal.ofSec at_.toNat)

/-- The Datum resumes from its last commit plus the elapsed time, BANKED, without a writer, with the bound of R141. -/
def State.resumeDatum (s : State) (known : Bool) (elapsed : Nat) : State :=
  let t := s.cairn.datum.plus (if known then elapsed * 2 ^ 32 else 0)
  let e := s.resumeSide s.cairn.early known elapsed
  let l := s.resumeSide s.cairn.late known elapsed
  let bank := TimeVal.ofSec t.sec.toNat
  let s1 := ({ s with datum := ⟨t, 0⟩ }).setPair .DTM_INC_HI .DTM_INC_LO s.cairn.inc
  let s2 : State := { s1 with
    dtm := { s1.dtm with incHist := [(s1.tick, s.cairn.inc)], incStaged := s1.rg .DTM_INC_HI 0 }
    trv := { s1.trv with basis := ⟨t, e, l⟩, bankB := ⟨bank, e, l⟩ }
    ens := { s1.ens with procNext := some t.nextSec, residAt := bank } }
  let s3 := ((s2.setF Fld.TRV_STAT.COND 2).setB Fld.ENS_STAT.BANKED true).setPair .ENS_BANK_AT_HI .ENS_BANK_AT_LO t.sec
  let s4 := (s3.setB Fld.TRV_STAT.PRE_SOURCE true).beginNoWriter
  s4.journal 0x07 0xFF (bit01 known) t 0 0 0 []

/-- A keeper-domain start (Table 16.6, steps 1 to 3): VDD_KEEP and VDD_CLK are valid and KEEP_RESET_N is released. -/
def State.keeperStart (s : State) (elapsed : Nat) : State :=
  if s.clockUp then s
  else
    let known := s.pwr.vddKeep
    let s1 : State := { s with
      pwr := { s.pwr with
        vddKeep := true, vddClk := true, keepReset := false, kindle := true, dclk := false
        core := .held, warnAt := if s.pwr.pwrfail then s.pwr.warnAt else none } }
    let s2 := ((s1.loadCairn.resumeJournal.rearmLeap).resumeDatum known elapsed).countLoss
    let s3 := (s2.bump .PWR_KEEP_STARTS).cairnReg .PWR_KEEP_STARTS 0
    ((List.range 16).foldl (fun s n => s.startLoop n false) s3).pwrShow

/-! ### The core-die start (Table 16.6, steps 4 and 5; R45) -/

/-- Leaving Ember (R368): the gated loops restart by hop and the GNSS baseband is powered. -/
def State.leaveEmber (s : State) : State :=
  if s.pwr.ember then
    let s1 := s.pwr.gatedLoops.foldl (fun s n => s.startLoop n false) s
    ({ s1 with pwr := { s1.pwr with ember := false, gatedLoops := [] } }).ungateGnss
  else s

/-- Whether the core-die sensors permit a start after a thermal trip (R402). -/
def State.coolEnough (s : State) : Bool := !s.thm.trip || decide (s.thm.core ≤ 1400)

/-- The level lines of sources that are true at the start (R288, R300). -/
def State.startLines (s : State) : State :=
  let s1 := (s.irqLine 98 (s.fb Fld.DTM_SNAP_CTL.DONE)).irqLine 107 s.pwr.pwrfail
  (List.range 16).foldl (fun s n => s.ticRingLine n) s1

/-- The core die starts: self-tests, memory, keys, boot images. -/
def State.coreStart (s : State) (ddr0 ddr1 : BitVec 32) (failed : List Nat) : State :=
  if !s.clockUp || !s.pwr.dclk || s.coreUp || s.pwr.needPin || !s.coolEnough then s
  else
    let s1 := s.leaveEmber
    let s2 : State := { s1 with
      pwr := { s1.pwr with core := .running, coreOk := true, resetN := false, coreLost := none }
      flt := { s1.flt with step3Hold := false }
      thm := { s1.thm with trip := false } }
    let s3 := ((s2.bump .PWR_CORE_STARTS).countLoss.wr .MEM_CH_SIZE 0 ddr0).wr .MEM_CH_SIZE 1 ddr1
    let s4 := (s3.setF Fld.MEM_STAT.READY (bit01 (decide (ddr0 ≠ 0)) + 2 * bit01 (decide (ddr1 ≠ 0)))).setF Fld.DMP_MAX_DFDT.DFDT
      s3.flt.dfdtClock
    let s5 := failed.foldl (fun s i => s.raise { rec_ := i, cause := 29, cls := 2 }) s4.startLines
    let s6 := ((s5.setF Fld.MAT_PRIORITY.PRIO s5.matPrio).setB Fld.MAT_PRIORITY.FUSED s5.pwr.fuses.matPrio.isSome).keyLoad.bootShow
    let s7 := if s6.pwr.zeroised then s6.svcRefuse else s6
    let s8 := if s7.fd Fld.FLT_ESC.STEP = 0 then s7 else s7.setB Fld.SVC_CTL.AUTO_OPEN false
    let s9 := s8.pwr.boot.foldl State.bootOne (s8.setF Fld.SEC_BOOT.FAILED 0)
    if s9.fb Fld.MAT_CFG.EN then s9.matStart else s9

/-- Kindling opens once after each keeper-domain start, when the boot images are verified (R45). -/
def State.kindle (s : State) : State :=
  if s.coreUp && s.pwr.kindle then ({ s with pwr := { s.pwr with kindle := false } }).openSettle true else s

/-! ### Ember and shutdown (R368, R385) -/

/-- Why EMBER and SHUTDOWN are refused: the RESULT of BUSY. -/
def State.lifeBusy (s : State) : Option Nat :=
  if s.svcState ≠ 0 then some 1 else if s.role = 2 then some 2 else none

/-- The engine goes to Ember: commit, core-die reset, gating. -/
def State.enterEmber (s : State) : State :=
  let s1 := s.commitAll.setDebug .off
  let s2 := if s1.coreUp then s1.coreReset else s1
  let keep := s2.fd Fld.PWR_EMBER.LOOP
  let loops := (List.range 16).filter (fun n => decide (n ≠ 0 ∧ n ≠ keep))
  let s3 := loops.foldl (fun s n => s.setLoopState n 0) s2.gateGnss
  ({ s3 with pwr := { s3.pwr with ember := true, needPin := true, gatedLoops := loops } }).pwrShow

/-- SHUTDOWN, once its command is accepted, up to its completion: command fetch stops, ports and mate lanes go idle, the commit.
The state that holds the core die in reset follows the completion. -/
def State.shutdown (s : State) : State :=
  let s1 := s.envStop 0x09 .lost
  ((List.range 64).foldl (fun s n => s.portIdle n) s1).commitAll

/-- The core die held in reset until RESET_N is next released. -/
def State.holdCore (s : State) : State :=
  let s1 := if s.coreUp then s.coreReset else s
  { s1 with pwr := { s1.pwr with needPin := true } }

/-- The Ember entry that loss of VDD_CORE brings with AUTO set (R368). -/
def State.emberAuto (s : State) : State :=
  match s.pwr.coreLost with
  | some t =>
    if s.clockUp && s.fb Fld.PWR_EMBER.AUTO && !s.pwr.ember && decide (s.pwr.core = .off)
        && decide (t.count + 10000 * usCount ≤ s.now.count) then s.enterEmber
    else s
  | none => s

/-! ### The power-fail warning (R386) -/

/-- PWRFAIL_N asserted. -/
def State.pwrfailOn (s : State) : State :=
  if s.pwr.pwrfail then s
  else
    let s1 := ({ s with pwr := { s.pwr with pwrfail := true, warnAt := some s.now } }).pwrShow
    let s2 := ((s1.irqLine 107 true).raise { rec_ := 468, cause := 27, cls := 0 }).envStop 0x0B .lost
    let s3 : State := { s2 with hst := { s2.hst with stopFetch := true } }
    s3.commitAll.setB Fld.PWR_STAT.EMERG s3.clockUp

/-- PWRFAIL_N released with power held. -/
def State.pwrfailOff (s : State) : State :=
  if s.pwr.pwrfail then
    let s1 := ({ s with
      pwr := { s.pwr with pwrfail := false, warnAt := none }
      hst := { s.hst with stopFetch := false } }).pwrShow
    (s1.irqLine 107 false).setB Fld.PWR_STAT.EMERG false
  else s

/-- A write of the PWR registers: LOOP is 0 to 12. -/
def State.pwrWrite (s : State) (r : Reg) (v : BitVec 32) : State :=
  if r = .PWR_WSTAT then s.w1c r 0 v
  else if r = .PWR_EMBER then
    if 12 < Fld.PWR_EMBER.LOOP.of v then s.setB Fld.PWR_WSTAT.RANGE true
    else (s.wrRw .PWR_EMBER 0 v).setB Fld.PWR_WSTAT.ACCEPT true
  else s

/-! ### Temperature sensors (R401, R402) -/

/-- A reading of the sensors: the clock die, the hottest of the core die, the SerDes quads by number (16: the mate lanes). -/
def State.sensors (s : State) (clk core : Int) (quads : List Int) : State :=
  let t := s.now
  let was := decide (1500 < s.thm.clk ∨ 1500 < s.thm.core)
  let q := quads.zip (List.range quads.length)
  let s1 : State := { s with
    thm := { s.thm with
      clk := clk, core := core, clkHist := pushReading s.thm.clkHist t clk
      quad := q.foldl (fun m e => SMap.insert id m e.2 e.1) s.thm.quad
      quadHist := q.foldl (fun m e => SMap.insert id m e.2 (pushReading (SMap.get (fun _ => []) s.thm.quadHist e.2) t e.1)) s.thm.quadHist } }
  let s2 := if s1.derated = s1.fb Fld.TRV_STAT.DERATED then s1
    else
      let sa := (List.range 16).foldl (fun s n => s.setB Fld.TIC_STAT.DERATED s1.derated n) s1
      (sa.setB Fld.TRV_STAT.DERATED s1.derated).irqPulse 108 0
  let s3 := (List.range 64).foldl (fun s n => s.calTemp n) s2
  let hot := decide (1500 < clk ∨ 1500 < core)
  let s4 := if hot && !was then (s3.raise { rec_ := 468, cause := 20, cls := 3 }).irqPulse 108 0 else s3
  if 1600 ≤ core ∧ s4.coreUp then
    let s5 := s4.coreReset.askPin
    { s5 with thm := { s5.thm with trip := true } }
  else s4

/-! ### The attestation statement (R285) -/

/-- The distinct images loaded, by their lowest core: its mask and the image. -/
def State.imageGroups (s : State) : List (Nat × Image) :=
  s.images.filterMap (fun e =>
    let same := s.images.filter (fun x => decide (x.2.digest = e.2.digest))
    if same.head?.map (fun x => x.1) = some e.1 then some (same.foldl (fun m x => m + 2 ^ x.1) 0, e.2) else none)

/-- The octet of one slot in the statement. -/
def slotOctet (s : State) (i : Nat) : Byte :=
  match s.slotKey i with
  | some r => BitVec.ofNat 8 (r.attr % 8 + lenCode r.len * 8 + r.dmode % 4 * 32)
  | none => 0

/-- DEBUG of the statement. -/
def State.attestDebug (s : State) : Nat :=
  s.fd Fld.DBG_STAT.LEVEL + bit01 s.pwr.debugged * 4 + bit01 s.pwr.fuses.invKill * 8 + bit01 s.pwr.fuses.obsKill * 16

/-- STATE of the statement. -/
def State.attestState (s : State) : Nat :=
  s.svcState + s.cond * 4 + bit01 (s.fb Fld.TRV_STAT.PRE_SOURCE) * 16 + bit01 (s.fb Fld.TRV_STAT.NOWRITER) * 32
    + s.fd Fld.FLT_ESC.STEP * 64 + bit01 s.cairn.tkOut * 256 + s.fd Fld.KEY_STAT.STATE * 512

/-- The statement without its signature (Table 12.5). -/
def State.attestBody (s : State) (nonce : List Byte) : List Byte :=
  let x := s.snapshot
  let gs := s.imageGroups
  let last := s.trv.ring.getLast?
  let lastSeq := (last.map (fun r => r.seq)).getD 0
  let lastHash := (last.map (fun r => Config.sha384 r.bytes)).getD (zeros 48)
  leBytes 4 0x41545301 ++ leBytes 2 1 ++ leBytes 2 (424 + 80 * gs.length) ++ nonce ++ identityHash
    ++ leBytes 4 (s.rg .TOP_ID 0).toNat ++ leBytes 1 s.lifecycle ++ leBytes 1 s.attestDebug ++ leBytes 2 s.attestState
    ++ s.ownerHash ++ leBytes 8 s.keyCounter ++ leBytes 4 (s.rg .PWR_CORE_STARTS 0).toNat ++ leBytes 4 (s.rg .DMP_VIOL_TOTAL 0).toNat
    ++ leBytes 8 x.at_.sec.toNat ++ leBytes 8 (x.at_.ns.toNat * 2 ^ 32 + x.at_.frac.toNat) ++ leBytes 4 x.b.early.toNat
    ++ leBytes 4 x.b.late.toNat ++ leBytes 1 (s.fd Fld.TRV_STAT.CC) ++ leBytes 1 (s.fd Fld.TRV_STAT.ACC) ++ zeros 6
    ++ leBytes 8 lastSeq ++ lastHash ++ leBytes 8 s.trv.ringBase ++ leBytes 2 gs.length ++ zeros 6
    ++ (List.range 64).map (slotOctet s)
    ++ (gs.map (fun g => leBytes 16 g.1 ++ leBytes 8 g.2.id.toNat ++ leBytes 4 g.2.version.toNat ++ zeros 4 ++ g.2.digest)).flatten

/-- The signed statement. -/
def State.attestation (s : State) (nonce : List Byte) : List Byte :=
  let b := s.attestBody nonce
  b ++ Config.ecdsaSign b

end Sys2Proof.Machine
end

