-- ==== Sys2Proof/Machine/RegWrite.lean ====
section
/-!
DEFINITION. Machine/RegWrite.lean: register accesses: the checks of a host write in their order (R315), posted writes and
their application (R18, R319), what a program's write through the register window comes to (R70), the slow copies (R318) and
the registers whose words follow the state.
-/
namespace Sys2Proof.Machine

/-! ### Blocks -/

/-- A write of the Datum block (Table 2.2). -/
def State.dtmWrite (s : State) (r : Reg) (i : Nat) (v : BitVec 32) : State :=
  if r = .DTM_WSTAT then s.w1c r i v
  else if r = .DTM_SETTLE_CTL then s.settleCtl v
  else if r = .DTM_SETTLE_TIMEOUT then
    let n := Fld.DTM_SETTLE_TIMEOUT.SECONDS.of v
    if 1 ≤ n ∧ n ≤ 86400 then s.wrRw r i v else s.setB Fld.DTM_WSTAT.TIMEOUT_RANGE true
  else if r = .DTM_INC_HI then { s with dtm := { s.dtm with incStaged := v } }
  else if r = .DTM_INC_LO then s.incHost v
  else if r = .DTM_SNAP_CTL then s.snapGo v
  else if r = .DTM_STEP_CTL then
    if bitAt v.toNat 0 then
      (s.stepHost (s.pair .DTM_STEP_SEC_HI .DTM_STEP_SEC_LO) (s.rg .DTM_STEP_NS 0) (s.rg .DTM_STEP_FRAC 0)
        ⟨s.rg .DTM_STEP_EARLY 0, s.rg .DTM_STEP_LATE 0⟩).1
    else s
  else if r = .DTM_UTC_OFFSET then s.utcWrite v
  else if r = .DTM_LEAP_CTL then s.leapCtl v
  else s.wrRw r i v

/-- A write of the key store's block: KEY_ABORT.GO ends the verification in progress (R282). -/
def State.keyWrite (s : State) (r : Reg) (i : Nat) (v : BitVec 32) : State :=
  if r = .KEY_WSTAT then s.w1c r i v
  else if r = .KEY_ABORT then (if bitAt v.toNat 0 then s.envStop 0x09 .aborted else s)
  else s

/-- A thread ABORTED or FAULTED starts at its image entry (R87); none where it is in another state or has no entry. -/
def State.restartThread (s : State) (th : Nat) : Option State :=
  let t := s.thread th
  let entry := (s.image (coreOf th)).bind (fun x => x.entries.getD (th % 4) none)
  match t.st, entry with
  | .aborted, some (pc, k) => some (s.setThread th { t with st := .ready, pc := pc, k := k })
  | .faulted, some (pc, k) => some (s.setThread th { t with st := .ready, pc := pc, k := k })
  | _, _ => none

/-- A write of a core's registers. -/
def State.stkWrite (s : State) (r : Reg) (n : Nat) (v : BitVec 32) : State :=
  if r = .STK_ABORT then
    (List.range 4).foldl (fun s j => if bitAt v.toNat j then s.abortThread (4 * n + j) else s) (s.w1c r n v)
  else if r = .STK_RESTART then
    (List.range 4).foldl (fun s j => if bitAt v.toNat j then (s.restartThread (4 * n + j)).getD s else s) s
  else if r = .STK_PMC_USER_EN then s.pmcUser n v
  else s

/-- A write of TOP_UNLOCK (R314): the key arms the unlock; any other value disarms it and is a write while locked. -/
def State.unlockWrite (s : State) (v : BitVec 32) : State :=
  let ok := decide (v = 0x00005EA1#32)
  let s1 := ({ s with hst := { s.hst with unlocked := ok } }).setB Fld.TOP_UNLOCK.ARMED ok
  if ok then s1 else s1.lockViol (Reg.TOP_UNLOCK.addr 0)

/-- A write of the TOP block: VIOL is cleared with its count and offset (R316). -/
def State.topWrite (s : State) (r : Reg) (v : BitVec 32) : State :=
  if r = .TOP_UNLOCK then s.unlockWrite v
  else if r = .TOP_LOCK_VIOL ∨ r = .TOP_WOS_VIOL ∨ r = .TOP_OWN_VIOL then (if bitAt v.toNat 31 then s.wr r 0 0 else s)
  else s

/-- The first 16 octets of the SHA-384 of a thread's image (Table 6.2). -/
def State.imageOctets (s : State) (p : Party) : List Byte :=
  match p with
  | .thread th => match s.image (coreOf th) with
    | some x => x.digest.take 16
    | none => []
  | _ => []

/-- A register write as its block takes it. -/
def State.applyWrite (s : State) (p : Party) (r : Reg) (i : Nat) (v : BitVec 32) : State :=
  let b := r.row.base
  if p = .engine then (if r = .DMP_MAX_DFDT then s.dfdtTake (Fld.DMP_MAX_DFDT.DFDT.of v) else s)
  else if b < 0x10000 then s.topWrite r v
  else if b < 0x20000 then s.hstWrite r i v
  else if b < 0x30000 then s.fltWrite r i v
  else if b < 0x40000 then s.irqWrite r i v
  else if b < 0x50000 then s.dmpWrite r i v
  else if b < 0x60000 then s.keyWrite r i v
  else if b < 0x70000 then (if r = .DBG_CTL then s.dbgCtl v else s.pwrWrite r v)
  else if b < 0x80000 then s.matWrite r i v
  else if b < 0x100000 then s.memWrite r i v
  else if b < 0x110000 then s.dtmWrite r i v
  else if b < 0x120000 then s.ticWrite r i v
  else if b < 0x130000 then s.ensWrite p (s.imageOctets p) r i v
  else if b < 0x140000 then s.trvWrite r i v
  else if b < 0x200000 then s.synWrite r i v
  else if b < 0x400000 then s.gnsWrite r i v
  else if b < 0x500000 then s.prtWrite r i v
  else if b < 0x600000 then s.svcWrite r i v
  else if b < 0x700000 then s.stkWrite r i v
  else s.pmcWrite r i v

/-! ### Posted writes -/

/-- The writes that crossed the link take effect at the KCLK edge, in the order of their arrival (R18, R319). -/
def State.flushPosted (s : State) : State :=
  s.hst.posted.foldl (fun s p => s.applyWrite p.who p.key.reg p.key.idx p.val) { s with hst := { s.hst with posted := [] } }

/-- A write set out for the clock die. -/
def State.post (s : State) (p : Party) (r : Reg) (i : Nat) (v : BitVec 32) : State :=
  { s with hst := { s.hst with posted := s.hst.posted ++ [⟨p, ⟨r, i⟩, v⟩] } }

/-! ### Ownership of registers (R33) -/

/-- The ownership index that governs a register, if one does (R89, R156, R170, R171, R173; ENS_OSCi_CFG, GAIN and REF). -/
def regOwner (r : Reg) (i : Nat) : Option Nat :=
  if r = .TIC_IN then some (if i < 8 then 68 + i else 52 + i)
  else if r = .TIC_CFG ∨ r = .TIC_OS ∨ r = .TIC_RING_LO ∨ r = .TIC_RING_HI ∨ r = .TIC_RING_SZ ∨ r = .TIC_CONS ∨ r = .TIC_DELAY
      ∨ r = .TIC_DELAY_U then some i
  else if r = .SYN_CFG ∨ r = .SYN_FCW_INT ∨ r = .SYN_FCW_NUM ∨ r = .SYN_FCW_DEN ∨ r = .SYN_LOCK ∨ r = .SYN_PHASE ∨ r = .SYN_PULL
      ∨ r = .SYN_CMD then some (16 + i)
  else if r = .SYN_OUT_CFG ∨ r = .SYN_OUT_DIV_HI ∨ r = .SYN_OUT_DIV_LO then some (32 + i)
  else if r = .SYN_PPS_CFG ∨ r = .SYN_PPS_CF then some (56 + i)
  else if r = .SYN_TOD_CFG then some (78 + i)
  else if r = .SYN_SYNC_CTL then some 80
  else if r = .ENS_OSC_CFG ∨ r = .ENS_OSC_GAIN ∨ r = .ENS_OSC_REF then some (76 + i)
  else none

/-! ### Host writes (R315) -/

/-- Whether a register lies in a gated core-die region: it reads zero, and writes to it are discarded (R367). -/
def State.regGated (s : State) (r : Reg) (i : Nat) : Bool :=
  match RegKey.region ⟨r, i⟩ with
  | some c => s.pwr.gatedCr.contains c
  | none => false

/-- Whether a register is held on the clock die. -/
def Reg.onClock (r : Reg) (i : Nat) : Bool := decide (r.domain i ≠ .core)

/-- A host write that the front door takes up: the state after the checks, and whether the write goes on (R315, R320). -/
def State.front (s : State) (r : Reg) (i : Nat) : State × Bool :=
  let off := r.addr i
  if !s.coreUp || !s.hst.pcieUp then (s, false)
  else if s.regGated r i then (s, false)
  else if r.guarded i && !s.hst.unlocked then (s.lockViol off, false)
  else
    let s1 := if r.guarded i then ({ s with hst := { s.hst with unlocked := false } }).setB Fld.TOP_UNLOCK.ARMED false else s
    let wos := decide (r = .MAT_PRIORITY)
    if wos && s1.hst.wosDone then (s1.wosViol off, false)
    else if r.onClock i && !s1.d2dUp then (s1.setB Fld.HST_WSTAT.D2D_DROP true, false)
    else
      let s2 : State := if wos then { s1 with hst := { s1.hst with wosDone := true } } else s1
      match regOwner r i with
      | some o => if ownFixed o || s2.owns .hostReg o then (s2, true) else (s2.ownViol off, false)
      | none => (s2, true)

/-- A host register write that has a row of its own: a core-die register takes it at once; a write of the clock die takes effect
with those posted before it, at the KCLK edge (R319). -/
def State.hostRow (s : State) (r : Reg) (i : Nat) (v : BitVec 32) : State :=
  let x := s.front r i
  if x.2 then (if r.onClock i then x.1.flushPosted.applyWrite .hostReg r i v else x.1.applyWrite .hostReg r i v) else x.1

/-- A host register write that stays on its way to the clock die until POSTED_WRITE_APPLY. -/
def State.hostPosted (s : State) (r : Reg) (i : Nat) (v : BitVec 32) : State :=
  let x := s.front r i
  if x.2 then (if r.onClock i then x.1.post .hostReg r i v else x.1.applyWrite .hostReg r i v) else x.1

/-- A host write of `size` octets at an offset of BAR0 (R12, R309, R315): a register takes aligned 32-bit words only; the MSI-X
table takes aligned 32-bit and 64-bit writes. -/
def State.bar0Write (s : State) (off size : Nat) (v : BitVec 64) : State :=
  if !s.coreUp || !s.hst.pcieUp then s
  else if 0x1000000 ≤ off ∧ off < 0x1008000 then
    if size = 4 ∧ off % 4 = 0 then s.msixWrite off (v.extractLsb' 0 32)
    else if size = 8 ∧ off % 8 = 0 then (s.msixWrite off (v.extractLsb' 0 32)).msixWrite (off + 4) (v.extractLsb' 32 32)
    else s
  else if size ≠ 4 ∨ off % 4 ≠ 0 then s
  else match Reg.ofAddr off with
    | some (r, i) => s.hostPosted r i (v.extractLsb' 0 32)
    | none => s

/-! ### Program writes (R70, R262, R415) -/

/-- The reason of the Damper violation that a program's write to a register is, if it is one (R33, R70, R111, R119, R262). -/
def State.writeViolation (s : State) (th : Nat) (r : Reg) (i : Nat) (v : BitVec 32) : Option Nat :=
  let flt := decide (0x20000 ≤ r.row.base ∧ r.row.base < 0x30000)
  if flt then
    if r = .FLT_REC_CTL ∧ bitAt v.toNat 1 = false then
      if !bitAt v.toNat 0 then none
      else
        let handler := s.fb Fld.FLT_HANDLER.EN && decide (s.fd Fld.FLT_HANDLER.THREAD = th)
        let self := decide (s.rg .FLT_REC_SOURCE i = BitVec.ofNat 32 (2 ^ 31 + th % 512))
        if handler && !self then none else some 0x0F
    else some 0x0B
  else if r.guarded i || decide (r = .MAT_PRIORITY) then some 0x0B
  else if r = .ENS_NET_SEC ∨ r = .ENS_NET_NS ∨ r = .ENS_NET_FRAC ∨ r = .ENS_NET_EARLY ∨ r = .ENS_NET_LATE ∨ r = .ENS_NET_AT
      ∨ r = .ENS_NET_GO then
    (if s.fd Fld.ENS_REF_CFG.THREAD (16 + i) = th then none else some 0x0D)
  else if r = .ENS_REF_WEIGHT then (if s.mayWeigh (.thread th) then none else some 0x0E)
  else match regOwner r i with
    | some o => if !ownFixed o && s.owns (.thread th) o then none else some 0x0C
    | none => none

/-- A K program's write of a register through its window, with the instruction word. The Datum increment goes its own way under the
precedence table (R18, R42). -/
def State.progWrite (s : State) (th : Nat) (r : Reg) (i : Nat) (v insn : BitVec 32) : State :=
  if s.regGated r i then s
  else if r.onClock i && !s.d2dUp then s.setB Fld.HST_WSTAT.D2D_DROP true
  else match s.writeViolation th r i v with
    | some reason => s.violation th reason 0x0E insn
    | none =>
      if r = .DTM_INC_LO then
        let s1 := (s.incProgram th (s.dtm.incStaged ++ v) insn).1
        { s1 with dtm := { s1.dtm with incStaged := s1.rg .DTM_INC_HI 0 } }
      else if r = .SVC_TALLY then s.tallyWrite v
      else if r.onClock i then s.post (.thread th) r i v
      else s.applyWrite (.thread th) r i v

/-! ### Reads -/

/-- A count of 1 bits at the set places of a predicate over a range. -/
def bitWord (n : Nat) (f : Nat → Bool) : BitVec 32 := BitVec.ofNat 32 ((List.range n).foldl (fun m b => if f b then m + 2 ^ b else m) 0)

/-- The active records that satisfy a predicate. -/
def State.fltCount (s : State) (p : Nat → Bool) : Nat := ((List.range 472).filter (fun i => s.fb Fld.FLT_REC_STAT.ACTIVE i && p i)).length

/-- FLT_STAT: how many records are active, and how many of them are MAJOR or CRITICAL. -/
def State.fltStat (s : State) : BitVec 32 :=
  Fld.FLT_STAT.NMAJOR.put (Fld.FLT_STAT.NACTIVE.put 0 (s.fltCount (fun _ => true)))
    (s.fltCount (fun i => decide (2 ≤ s.fd Fld.FLT_REC_STAT.CLASS i)))

/-- SEC_STAT and TOP_LIFE from the fuses and latches (R373, R377). -/
def State.secStat (s : State) : BitVec 32 :=
  let f := s.pwr.fuses
  BitVec.ofNat 32 (s.lifecycle * 2 ^ 30 + bit01 s.lcBad * 2 ^ 29 + bit01 f.ownerSet * 2 ^ 28 + bit01 f.invKill * 2 ^ 27
    + bit01 f.obsKill * 2 ^ 26 + bit01 f.matPrio.isSome * 2 ^ 25 + bit01 f.dfdtCeil.isSome * 2 ^ 24 + bit01 s.pwr.debugged * 2 ^ 23
    + bit01 s.pwr.zeroised * 2 ^ 22)

/-- STK_THR_STATn of a thread (Table 3.1). -/
def State.thrStat (s : State) (th : Nat) : BitVec 32 :=
  let t := s.thread th
  BitVec.ofNat 32 (t.st.code * 2 ^ 28 + bit01 t.k * 2 ^ 27 + t.ecause % 256 * 2 ^ 16 + t.pc.toNat / 4 % 65536)

/-- SVC_STAT with the conditions of R221 that hold now (bits 16 to 20). -/
def State.svcStat (s : State) : BitVec 32 :=
  (s.rg .SVC_STAT 0 &&& 0xFC000000#32) ||| (bitWord 5 (fun b => s.svcConds.getD b false) <<< 16)

/-- The present word of a register: what the register file holds, or, for a register that follows the state, what the state makes
of it. -/
def State.view (s : State) (r : Reg) (i : Nat) : BitVec 32 :=
  if r = .IRQ_PEND then bitWord 32 (fun b => s.fb Fld.IRQ_SRC_STAT.PEND (32 * i + b))
  else if r = .FLT_STAT then s.fltStat
  else if r = .FLT_ACTIVE then bitWord 32 (fun b => s.fb Fld.FLT_REC_STAT.ACTIVE (32 * i + b))
  else if r = .DMP_FUSE then BitVec.ofNat 32 s.dfdtCeil
  else if r = .SEC_STAT then s.secStat
  else if r = .TOP_LIFE then BitVec.ofNat 32 (s.fd Fld.DBG_STAT.LEVEL * 4 + s.lifecycle)
  else if r = .STK_THR_STAT then s.thrStat i
  else if r = .SVC_STAT then s.svcStat
  else if r = .MAT_STAT then Fld.MAT_STAT.ROLE.put (s.rg .MAT_STAT 0) s.role
  else if r = .HST_STAT then
    BitVec.ofNat 32 (bit01 s.d2dUp * 2 ^ 31 + ((List.range 64).filter (fun q => s.queueOn q)).length)
  else s.rg r i

/-- What a read of a register returns: zero in a gated region, the copy of R318 for a register on the clock die, the present word
for a register on the core die; the write-only bits read zero. -/
def State.readReg (s : State) (r : Reg) (i : Nat) : BitVec 32 :=
  if s.regGated r i then 0
  else if r.onClock i then SMap.get RegKey.dflt s.copy ⟨r, i⟩
  else s.view r i

/-- The copies refreshed together on a KCLK edge, with the Datum of DTM_NOW, and HST_COPY_SEQ advanced (R60, R318). Without the
die-to-die link the copies keep their values (R320). -/
def State.copyRefresh (s : State) : State :=
  let n := s.now
  let s1 := (((s.setPair .DTM_NOW_SEC_HI .DTM_NOW_SEC_LO n.sec).wr .DTM_NOW_NS 0 n.ns).wr .DTM_NOW_FRAC 0 n.frac).setF
    Fld.DTM_SETTLE_LEFT.SECONDS (match s.dtm.settleEnd with
      | some t => ceilDiv (t.count - n.count) secCount
      | none => 0)
  let s2 := (s1.setB Fld.DTM_UTC_STAT.IN_LEAP s1.inLeapNow).snapDone.trvShow
  if s2.coreUp && s2.d2dUp then
    ({ s2 with
      copy := s2.regs.filter (fun e => e.1.reg.onClock e.1.idx)
      dtm := { s2.dtm with now := n } }).bump .HST_COPY_SEQ
  else s2

end Sys2Proof.Machine
end

