-- ==== Sys2Proof/Machine/Flags.lean ====
section
/-!
DEFINITION. Machine/Flags.lean: the conditions of the compare instructions and their predicates (R74, Table 3.9), the integer
operations of a Bamdex thread, and the arithmetic of time registers with TIME_RANGE and TSTAT.SAT (R65, R77).
-/
namespace Sys2Proof.Machine

/-! ### Conditions -/

/-- A condition of CMP and CMPI: EQ, NE, LT, LE, LTU, LEU, TEST, NTEST, by code. -/
def condHolds (c : BitVec 3) (a b : BitVec 64) : Bool :=
  match c.toNat with
  | 0 => decide (a = b)
  | 1 => decide (a ≠ b)
  | 2 => a.slt b
  | 3 => a.sle b
  | 4 => a.ult b
  | 5 => a.ule b
  | 6 => decide (a &&& b ≠ 0)
  | _ => decide (a &&& b = 0)

/-- A condition of TCMP: LT, LE, EQ, NE; none for a reserved code. -/
def timeCond (c : BitVec 3) (x y : TimeVal) : Option Bool :=
  match c.toNat with
  | 0 => some (decide (x.count < y.count))
  | 1 => some (decide (x.count ≤ y.count))
  | 2 => some (decide (x = y))
  | 3 => some (decide (x ≠ y))
  | _ => none

/-! ### Integer operations -/

/-- The shift count of format A: bits [5:0] of the operand. -/
def shiftCount (b : BitVec 64) : Nat := b.toNat % 64

/-- MULHU: the upper 64 bits of the unsigned product. -/
def mulHigh (a b : BitVec 64) : BitVec 64 := BitVec.ofNat 64 (a.toNat * b.toNat / 2 ^ 64)

/-- BSWAP: the eight octets reversed. -/
def byteSwap (a : BitVec 64) : BitVec 64 := BitVec.ofNat 64 (leNat (beBytes 8 a.toNat))

/-- MIN: the smaller as signed values. -/
def minSigned (a b : BitVec 64) : BitVec 64 := if a.sle b then a else b

/-- MAX: the larger as signed values. -/
def maxSigned (a b : BitVec 64) : BitVec 64 := if a.sle b then b else a

/-- MINU: the smaller as unsigned values. -/
def minUnsigned (a b : BitVec 64) : BitVec 64 := if a.ule b then a else b

/-- MAXU: the larger as unsigned values. -/
def maxUnsigned (a b : BitVec 64) : BitVec 64 := if a.ule b then b else a

/-! ### Time registers (R65, R77) -/

/-- The number of instants that a Datum word spells. -/
def timeSpan : Nat := 2 ^ 64 * secCount

/-- A time value with a signed count added; none where the result is no Datum word. A seconds count above 64 bits is taken for out
of range too. -/
def timeAdd (t : TimeVal) (d : Int) : Option TimeVal :=
  let n := (t.count : Int) + d
  if n < 0 ∨ (timeSpan : Int) ≤ n then none else some (TimeVal.ofCount n.toNat)

/-- The signed difference of two time values in 2^-32 ns, saturated at ±(2^63 - 1), and whether it saturated. -/
def timeDiff (x y : TimeVal) : BitVec 64 × Bool :=
  let d := (x.count : Int) - y.count
  let m : Int := 2 ^ 63 - 1
  if m < d then (BitVec.ofInt 64 m, true)
  else if d < -m then (BitVec.ofInt 64 (-m), true)
  else (BitVec.ofInt 64 d, false)

/-- TGET: SEC, or NS and FRAC. -/
def timeGet (t : TimeVal) (low : Bool) : BitVec 64 := if low then t.ns ++ t.frac else t.sec

/-- TPUT: SEC, or NS and FRAC, replaced; none where NS would exceed 999 999 999. -/
def timePut (t : TimeVal) (low : Bool) (g : BitVec 64) : Option TimeVal :=
  if low then
    if 999999999 < (g.extractLsb' 32 32).toNat then none
    else some ⟨t.sec, g.extractLsb' 32 32, g.extractLsb' 0 32⟩
  else some ⟨g, t.ns, t.frac⟩

/-- A bound of two words of a general register: EARLY above LATE. -/
def boundOfWord (g : BitVec 64) : Bound := ⟨g.extractLsb' 32 32, g.extractLsb' 0 32⟩

/-- A bound as one doubleword: EARLY × 2^32 + LATE. -/
def wordOfBound (b : Bound) : BitVec 64 := b.early ++ b.late

/-- The octets of a Datum word in memory (TST): SEC, then NS × 2^32 + FRAC, each little-endian. -/
def timeMem (t : TimeVal) : List Byte := leBytes 8 t.sec.toNat ++ leBytes 8 (timeGet t true).toNat

/-- The Datum word of sixteen octets (TLD); none where NS exceeds 999 999 999. -/
def timeOfMem (bs : List Byte) : Option TimeVal :=
  timePut ⟨BitVec.ofNat 64 (leNat (bs.take 8)), 0, 0⟩ true (BitVec.ofNat 64 (leNat (bs.drop 8)))

/-! ### Loads -/

/-- The octets of a load or store by its size code; none for a reserved code. -/
def loadBytes (size : BitVec 3) : Option Nat :=
  match size.toNat with
  | 0 => some 1
  | 1 => some 2
  | 2 => some 4
  | 3 => some 8
  | 4 => some 1
  | 5 => some 2
  | 6 => some 4
  | _ => none

/-- The value of a load: codes 0 to 3 sign-extend, codes 4 to 6 zero-extend. -/
def loadValue (size : BitVec 3) (n v : Nat) : BitVec 64 :=
  if 4 ≤ size.toNat then BitVec.ofNat 64 v else BitVec.ofInt 64 (signedOf (8 * n) v)

end Sys2Proof.Machine
end

