-- ==== Sys2Proof/Machine/Encode.lean ====
section
/-!
DEFINITION. Machine/Encode.lean: the instruction words of Tables 3.6 and 3.7, which EVAL, DMP_LAST_INSN and the performance samples
report.
-/
namespace Sys2Proof.Machine

/-- Fields put together from the most significant: a width and a value each. -/
def packBits : List (Nat × Nat) → Nat
  | [] => 0
  | (w, v) :: r => v % 2 ^ w * 2 ^ ((r.map (fun e => e.1)).sum) + packBits r

/-- An instruction word of its fields. -/
def insnWord (fs : List (Nat × Nat)) : BitVec 32 := BitVec.ofNat 32 (packBits fs)

/-- Format A: d, a, b, and the function code; `c` stands in fn[10:6]. -/
def encA (major d a b fn c : Nat) : BitVec 32 := insnWord [(6, major), (5, d), (5, a), (5, b), (5, c), (6, fn)]

/-- Format I. -/
def encI (major d a : Nat) (imm : BitVec 16) : BitVec 32 := insnWord [(6, major), (5, d), (5, a), (16, imm.toNat)]

/-- Format L. -/
def encL (op d a : Nat) (imm : BitVec 12) : BitVec 32 := insnWord [(6, 0x02), (5, d), (5, a), (4, op), (12, imm.toNat)]

/-- Format U. -/
def encU (major d : Nat) (imm : BitVec 21) : BitVec 32 := insnWord [(6, major), (5, d), (21, imm.toNat)]

/-- Format M. -/
def encM (major d a : Nat) (size : BitVec 3) (off : BitVec 13) : BitVec 32 :=
  insnWord [(6, major), (5, d), (5, a), (3, size.toNat), (13, off.toNat)]

/-- Format C: CMP has b above eleven zeros, CMPI its immediate. -/
def encC (major p : Nat) (cond : BitVec 3) (a low : Nat) : BitVec 32 :=
  insnWord [(6, major), (2, p), (3, cond.toNat), (5, a), (16, low)]

/-- Format B. -/
def encB (p : Nat) (sense : Bool) (off : BitVec 16) : BitVec 32 :=
  insnWord [(6, 0x06), (2, p), (1, bit01 sense), (2, 0), (5, 0), (16, off.toNat)]

/-- Format T: d, x, y, g, the function code, the modifier. -/
def encT (major d x y g fn mod_ : Nat) : BitVec 32 :=
  insnWord [(6, major), (3, d), (2, 0), (3, x), (2, 0), (3, y), (5, g), (5, fn), (3, mod_)]

/-- Format TM. -/
def encTM (r op a : Nat) (off : BitVec 16) : BitVec 32 := insnWord [(6, 0x11), (3, r), (2, op), (5, a), (16, off.toNat)]

/-- The word of TRAP. DESIGN CHOICE: imm[10:0] stands above fn, in bits [21:11]; Table 3.6 gives format A no such field. -/
def encTrap (imm : BitVec 11) : BitVec 32 := insnWord [(6, 0), (4, 0), (11, imm.toNat), (11, 2)]

end Sys2Proof.Machine
end

