-- ==== Sys2Proof/Machine/StkOps.lean ====
section
/-!
DEFINITION. Machine/StkOps.lean: how a Stoker thread runs an instruction (R62 to R87): the checks before it, its effect, its
exception, and the accesses of its loads and stores.
-/
namespace Sys2Proof.Machine

/-- An exception that an instruction raises, with its EVAL (Table 3.18). -/
structure Trap where
  exc  : Exc
  eval : BitVec 64
  deriving DecidableEq, Repr

/-- How an instruction ends: its effect, an exception, or a stall that leaves everything as it was. -/
inductive Eff where
  | ok (s : State)
  | trap (t : Trap)
  | stall

/-- The number of a general register among the destinations that poison marks: g 0 to 31, t 32 to 39, b 40 to 47. -/
def srcT (i : Nat) : Nat := 32 + i

/-- The number of a bound register among them. -/
def srcB (i : Nat) : Nat := 40 + i

/-- Whether a thread issues instructions: the core die runs and the thread is READY (R63). -/
def State.runs (s : State) (th : Nat) : Bool := s.coreUp && decide ((s.thread th).st = .ready)

/-- Whether a thread's program counter can be fetched (Table 3.18): a word address inside the image, the word not poisoned. A
program counter that is not word-aligned is taken to lie outside (DEDUCED). -/
def State.canFetch (s : State) (th : Nat) : Bool :=
  let pc := (s.thread th).pc.toNat
  match s.image (coreOf th) with
  | some x => decide (pc % 4 = 0 ∧ pc + 4 ≤ x.imemSize) && !s.poisonedIn (imemBase (coreOf th) + pc) 4
  | none => false

/-- The load address of the first poisoned register among some that are read (R73). -/
def Thread.poisonOf (t : Thread) (srcs : List Nat) : Option (BitVec 64) := srcs.findSome? (fun r => SMap.find t.poison r)

/-- An exception taken (R85): from U it enters K at EVECT; from K it puts the thread into FAULTED, cleans up as an abort does and
raises K_EXCEPTION. The fault's REASON is the exception code (DEDUCED: block-specific). -/
def State.takeTrap (s : State) (th : Nat) (insn : BitVec 32) (e : Trap) : State :=
  let t := s.thread th
  let s1 := s.pmcEvent th 0x0B t.k insn (t.pc.extractLsb' 0 32)
  if t.k then
    let s2 := s1.cleanupThread th .faulted
    let s3 := s2.setThread th { (s2.thread th) with ecause := e.exc.code, eval := e.eval }
    s3.raise { rec_ := 64 + coreOf th, cause := 1, cls := 1, thread := some th, reason := e.exc.code }
  else
    s1.setThread th { (s1.thread th) with epc := t.pc, ecause := e.exc.code, eval := e.eval, k := true, pc := t.evect }

/-- An instruction issued by a thread: FETCH, PRIVILEGE, the poison of the registers it reads, then its effect with the program
counter already past it; a completed instruction is counted (Table 13.5). -/
def State.issue (s : State) (th : Nat) (insn : BitVec 32) (kOnly : Bool) (srcs : List Nat) (body : State → Eff) : State :=
  if !s.runs th then s
  else
    let t := s.thread th
    if !s.canFetch th then s.takeTrap th insn ⟨.fetch, t.pc⟩
    else if kOnly && !t.k then s.takeTrap th insn ⟨.privilege, insn.setWidth 64⟩
    else match t.poisonOf srcs with
      | some a => s.takeTrap th insn ⟨.poison, a⟩
      | none =>
        match body (s.setThread th { t with pc := t.pc + 4 }) with
        | .ok s' => s'.pmcEvent th 0x02 t.k insn (t.pc.extractLsb' 0 32)
        | .trap e => s.takeTrap th insn e
        | .stall => s

/-- The word of an instruction with a reserved field or code (R74). -/
def illegal (insn : BitVec 32) : Eff := .trap ⟨.illegal, insn.setWidth 64⟩

/-- General register `i` of a thread. -/
def State.gr (s : State) (th i : Nat) : BitVec 64 := (s.thread th).gr i

/-- A general register written. -/
def State.setG (s : State) (th i : Nat) (v : BitVec 64) : State := s.setThread th ((s.thread th).setG i v)

/-- Time register `i`. -/
def State.tr (s : State) (th i : Nat) : TimeVal := (s.thread th).tr i

/-- A time register written. -/
def State.setT (s : State) (th i : Nat) (v : TimeVal) : State := s.setThread th ((s.thread th).setT i v)

/-- Bound register `i`. -/
def State.br (s : State) (th i : Nat) : TagBound := (s.thread th).br i

/-- A bound register written. -/
def State.setBd (s : State) (th i : Nat) (v : TagBound) : State := s.setThread th ((s.thread th).setBd i v)

/-- A predicate written. -/
def State.setP (s : State) (th i : Nat) (v : Bool) : State := s.setThread th ((s.thread th).setP i v)

/-- The program counter written. -/
def State.setPc (s : State) (th : Nat) (v : BitVec 64) : State := s.setThread th { (s.thread th) with pc := v }

/-- An instruction that writes one general register from its thread's registers. -/
def State.putG (s : State) (th d : Nat) (insn : BitVec 32) (srcs : List Nat) (f : Thread → BitVec 64) : State :=
  s.issue th insn false srcs (fun s => .ok (s.setG th d (f (s.thread th))))

/-- A time register written, or TIME_RANGE where the result is no Datum word (R65). -/
def State.putT (s : State) (th d : Nat) (v : Option TimeVal) : Eff :=
  match v with
  | some x => .ok (s.setT th d x)
  | none => .trap ⟨.timeRange, 0⟩

/-- A status word written to an instruction's general register (R75). -/
def State.answer (s : State) (th d : Nat) (st : Status) (detail result : Nat) : Eff :=
  .ok (s.setG th d (statusWord st detail result))

/-! ### Loads and stores -/

/-- The effective address of a load or store. -/
def State.ea (s : State) (th a : Nat) (off : Int) : Nat := (s.gr th a + BitVec.ofInt 64 off).toNat

/-- The flat address of an aligned or packet-pool access, or the exception (R68, R69, R72). `strict` asks natural alignment in the
frame pool as well. -/
def State.access (s : State) (th a n : Nat) (write strict : Bool) : Except Trap Nat :=
  match areaOf a n with
  | none => .error ⟨.access, BitVec.ofNat 64 a⟩
  | some x =>
    if a % n ≠ 0 ∧ (x ≠ .pool ∨ strict) then .error ⟨.align, BitVec.ofNat 64 a⟩
    else match s.dataAccess th (s.thread th).k a n write with
      | some f => .ok f
      | none => .error ⟨.access, BitVec.ofNat 64 a⟩

/-- The event of Table 13.5 of a load by its area. -/
def loadEvent (a n : Nat) : Option Nat :=
  match areaOf a n with
  | some .dmem | some .dmemTop => some 0x07
  | some .cmem | some .pool => some 0x08
  | some .ddr => some 0x09
  | _ => none

/-- A counted event of the instruction that a thread runs. -/
def State.insnEvent (s : State) (th code : Nat) (insn : BitVec 32) : State :=
  s.pmcEvent th code (s.thread th).k insn (((s.thread th).pc - 4).extractLsb' 0 32)

/-- A load counted. -/
def State.loadCount (s : State) (th a n : Nat) (insn : BitVec 32) : State :=
  match loadEvent a n with
  | some c => s.insnEvent th c insn
  | none => s

/-- A register destination marked poisoned by a load (R73). -/
def State.poisonDest (s : State) (th dest a : Nat) : State :=
  if dest = 0 then s else
  let t := s.thread th
  s.setThread th { t with poison := SMap.insert id t.poison dest (BitVec.ofNat 64 a) }

/-- The record of an uncorrectable word on the core die by its flat address (R334): CMEM in the cluster's record, DMEM and IMEM in
the core's. -/
def memRecord (flat : Nat) : Nat :=
  if flat < dmemBase 0 then 208 + (flat - cmemBase 0) / 0x100000 % 16
  else if flat < imemBase 0 then 64 + (flat - dmemBase 0) / 0x10000 % 128
  else 64 + (flat - imemBase 0) / 0x10000 % 128

/-- The DDR channel of an address (R408): 4 KiB units in turn over twice the smaller channel, the rest of the larger above. -/
def State.ddrChannel (s : State) (a : Nat) : Nat :=
  let o := a - ddrBase
  let c0 := (s.rg .MEM_CH_SIZE 0).toNat * 0x100000
  let c1 := (s.rg .MEM_CH_SIZE 1).toNat * 0x100000
  if o < 2 * Nat.min c0 c1 then o / 4096 % 2 else if c1 ≤ c0 then 0 else 1

/-- A word that a load finds uncorrectable: at its first detection it is counted, marked poisoned and POISON is raised (R331, R333,
R334). -/
def State.foundUe (s : State) (flat : Nat) : State :=
  if s.inDdr flat 1 then s.uncorrectable (s.ddrChannel flat) flat
  else if SMap.get (fun _ => false) s.hst.poisoned (flat / 8) then s
  else
    let s1 : State := { s with hst := { s.hst with poisoned := SMap.insert id s.hst.poisoned (flat / 8) true } }
    let s2 := (s1.bump .MEM_SRAM_UE).wr .MEM_SRAM_LAST 0 (BitVec.ofNat 32 (memRecord flat * 65536))
    s2.raise { rec_ := memRecord flat, cause := 2, cls := 1 }

/-- What a load's read of a word counts: a corrected word by its channel or over all on-chip SRAM (R331), an uncorrectable one. -/
def State.eccRead (s : State) (flat : Nat) (e : EccResult) : State :=
  match e with
  | .clean => s
  | .ce1 => if s.inDdr flat 1 then s.bump .MEM_CH_CE1 (s.ddrChannel flat) else s.bump .MEM_SRAM_CE1
  | .ce2 => if s.inDdr flat 1 then s.ce2 (s.ddrChannel flat) else s.bump .MEM_SRAM_CE2
  | .ue => s.foundUe flat

/-- A word of the MSI-X table or the pending-bit array. -/
def State.msixRead (s : State) (off : Nat) : BitVec 32 :=
  if 0x1000000 ≤ off ∧ off < 0x1008000 then
    let w := (off - 0x1000000) / 4
    SMap.get (fun k => if k % 4 = 3 then (1 : BitVec 32) else 0) s.hst.msix w
  else if 0x1010000 ≤ off ∧ off < 0x1010100 then
    bitWord 32 (fun b => SMap.get (fun _ => false) s.hst.msixPba ((off - 0x1010000) / 4 * 32 + b))
  else 0

/-- A read of a register through the window (R70): the word, with the capture of DTM_NOW (R60) and the claim of IRQ_CLAIMv, whose
read claims (R294). Reserved offsets read zero (R309). -/
def State.regLoad (s : State) (off : Nat) : State × BitVec 32 :=
  match Reg.ofAddr off with
  | none => (s, s.msixRead off)
  | some (r, i) =>
    let h := s.dtm.nowHeld
    if r = .DTM_NOW_SEC_HI then
      ({ s with dtm := { s.dtm with nowHeld := s.dtm.now } }, s.dtm.now.sec.extractLsb' 32 32)
    else if r = .DTM_NOW_SEC_LO then (s, h.sec.extractLsb' 0 32)
    else if r = .DTM_NOW_NS then (s, h.ns)
    else if r = .DTM_NOW_FRAC then (s, h.frac)
    else if r = .IRQ_CLAIM then (s.irqClaim i, (s.irqClaim i).rg .IRQ_CLAIM i)
    else (s, s.readReg r i)

/-- The offset in BAR0 of an access through the register window: K only, aligned words only (R12, R70); none for other areas. -/
def windowOff (k : Bool) (a n : Nat) : Option (Except Trap Nat) :=
  if areaOf a n = some .regs then
    some (if !k then .error ⟨.access, BitVec.ofNat 64 a⟩
      else if n ≠ 4 then .error ⟨.access, BitVec.ofNat 64 a⟩
      else if a % 4 ≠ 0 then .error ⟨.align, BitVec.ofNat 64 a⟩
      else .ok (a - 0x10000000))
  else none

/-- A load of a general register (R72, R73); `ecc` is what the check bits of the word say. -/
def State.load (s : State) (th d a : Nat) (size : BitVec 3) (ecc : EccResult) (insn : BitVec 32) : Eff :=
  match loadBytes size with
  | none => illegal insn
  | some n =>
    match windowOff (s.thread th).k a n with
    | some (.error e) => .trap e
    | some (.ok off) =>
      let (s1, w) := s.regLoad off
      .ok (s1.setG th d (loadValue size n w.toNat))
    | none =>
      match s.access th a n false false with
      | .error e => .trap e
      | .ok f =>
        let s1 := s.eccRead f ecc
        let s2 := s1.loadCount th a n insn
        if s2.poisonedIn f n then .ok (s2.poisonDest th d a)
        else .ok (s2.setG th d (loadValue size n (leNat (s2.octets f n))))

/-- A store of octets by a thread (R72, R360); it waits while a mirror window is brought up to date (R362). -/
def State.put (s : State) (th a : Nat) (bs : List Byte) (strict : Bool) (insn : BitVec 32) : Eff :=
  match s.access th a bs.length true strict with
  | .error e => .trap e
  | .ok f => if s.mirrorStalls f bs.length then .stall else .ok ((s.storeData f bs).insnEvent th 0x0A insn)

/-- A program's write of a register through its window. -/
def State.regStore (s : State) (th off : Nat) (v insn : BitVec 32) : State :=
  match Reg.ofAddr off with
  | some (r, i) => s.progWrite th r i v insn
  | none => if 0x1000000 ≤ off ∧ off < 0x1008000 then s.msixWrite off v else s

/-- A store of a general register; a reserved size is illegal. -/
def State.storeReg (s : State) (th d a : Nat) (size : BitVec 3) (insn : BitVec 32) : Eff :=
  match (if size.toNat < 4 then loadBytes size else none) with
  | none => illegal insn
  | some n =>
    match windowOff (s.thread th).k a n with
    | some (.error e) => .trap e
    | some (.ok off) => .ok ((s.regStore th off ((s.gr th d).extractLsb' 0 32) insn).insnEvent th 0x0A insn)
    | none => s.put th a (leBytes n (s.gr th d).toNat) false insn

/-- An atomic on the doubleword at an address (R71, R72): `f` gives the doubleword to store, if any, from the old one. A poisoned
old value reaches no computation: only a swap stores. -/
def State.atomic (s : State) (th d a : Nat) (swap : Bool) (f : BitVec 64 → Option (BitVec 64)) : Eff :=
  match s.access th a 8 true true with
  | .error e => .trap e
  | .ok x =>
    if s.mirrorStalls x 8 then .stall
    else
      let old := BitVec.ofNat 64 (leNat (s.octets x 8))
      let bad := s.poisonedIn x 8
      let s1 := if bad && !swap then s
        else match f old with
          | some v => s.storeData x (leBytes 8 v.toNat)
          | none => s
      .ok (if bad then s1.poisonDest th d a else s1.setG th d old)

end Sys2Proof.Machine
end

