-- ==== Sys2Proof/Machine/Integer.lean ====
section
/-!
DEFINITION. Machine/Integer.lean: the integer, compare and control instructions of Bamdex (majors 0x00 to 0x08, R70, R74).
-/
namespace Sys2Proof.Machine

/-! ### System (major 0x00) -/

/-- NOP: a thread's no-operation instruction, or the host command NOP, which completes with OK. -/
def execNop (by_ : NopBy) (s : State) : Out :=
  match by_ with
  | .thread th => .next (s.issue th.val (encA 0x00 0 0 0 0 0) false [] (fun s => .ok s))
  | .host q cid => .next (s.command q.val cid (fun s => (s, .ok, 0)))

/-- FENCE: one copy of memory and no posted store of a thread is ever behind, so it completes at once (R71). -/
def execFence (th : Fin 512) (s : State) : Out := .next (s.issue th.val (encA 0x00 0 0 0 1 0) false [] (fun s => .ok s))

/-- TRAP: the exception, with imm[10:0] in EVAL (R85). -/
def execTrap (th : Fin 512) (imm : BitVec 11) (s : State) : Out :=
  .next (s.issue th.val (encTrap imm) false [] (fun _ => .trap ⟨.trap, imm.setWidth 64⟩))

/-- ERET: the program counter from EPC, the privilege from EPC bit 0, which is cleared before fetch (R70). -/
def execEret (th : Fin 512) (s : State) : Out :=
  .next (s.issue th.val (encA 0x00 0 0 0 3 0) true [] (fun s =>
    let t := s.thread th.val
    .ok (s.setThread th.val { t with pc := t.epc &&& ~~~1#64, k := t.epc.getLsbD 0 })))

/-- YIELD: the issue slot passes to the next READY thread (R64); the order of issue is the order of the commands. -/
def execYield (th : Fin 512) (s : State) : Out := .next (s.issue th.val (encA 0x00 0 0 0 4 0) false [] (fun s => .ok s))

/-! ### Integer (major 0x01) -/

/-- ADD. -/
def execAdd (th : Fin 512) (d a b : Fin 32) (s : State) : Out :=
  .next (s.putG th.val d.val (encA 0x01 d.val a.val b.val 0 0) [a.val, b.val] (fun t =>
    (t.gr a.val) + (t.gr b.val)))

/-- SUB. -/
def execSub (th : Fin 512) (d a b : Fin 32) (s : State) : Out :=
  .next (s.putG th.val d.val (encA 0x01 d.val a.val b.val 1 0) [a.val, b.val] (fun t =>
    (t.gr a.val) - (t.gr b.val)))

/-- AND. -/
def execAnd (th : Fin 512) (d a b : Fin 32) (s : State) : Out :=
  .next (s.putG th.val d.val (encA 0x01 d.val a.val b.val 2 0) [a.val, b.val] (fun t =>
    (t.gr a.val) &&& (t.gr b.val)))

/-- OR. -/
def execOr (th : Fin 512) (d a b : Fin 32) (s : State) : Out :=
  .next (s.putG th.val d.val (encA 0x01 d.val a.val b.val 3 0) [a.val, b.val] (fun t =>
    (t.gr a.val) ||| (t.gr b.val)))

/-- XOR. -/
def execXor (th : Fin 512) (d a b : Fin 32) (s : State) : Out :=
  .next (s.putG th.val d.val (encA 0x01 d.val a.val b.val 4 0) [a.val, b.val] (fun t =>
    (t.gr a.val) ^^^ (t.gr b.val)))

/-- SHL: the count is b[5:0]. -/
def execShl (th : Fin 512) (d a b : Fin 32) (s : State) : Out :=
  .next (s.putG th.val d.val (encA 0x01 d.val a.val b.val 5 0) [a.val, b.val] (fun t =>
    (t.gr a.val) <<< shiftCount (t.gr b.val)))

/-- SHR: the count is b[5:0]. -/
def execShr (th : Fin 512) (d a b : Fin 32) (s : State) : Out :=
  .next (s.putG th.val d.val (encA 0x01 d.val a.val b.val 6 0) [a.val, b.val] (fun t =>
    (t.gr a.val) >>> shiftCount (t.gr b.val)))

/-- SAR: the count is b[5:0]. -/
def execSar (th : Fin 512) (d a b : Fin 32) (s : State) : Out :=
  .next (s.putG th.val d.val (encA 0x01 d.val a.val b.val 7 0) [a.val, b.val] (fun t =>
    (t.gr a.val).sshiftRight (shiftCount (t.gr b.val))))

/-- MUL: the lower 64 bits of the product. -/
def execMul (th : Fin 512) (d a b : Fin 32) (s : State) : Out :=
  .next (s.putG th.val d.val (encA 0x01 d.val a.val b.val 8 0) [a.val, b.val] (fun t =>
    (t.gr a.val) * (t.gr b.val)))

/-- MULHU: the upper 64 bits of the unsigned product. -/
def execMulhu (th : Fin 512) (d a b : Fin 32) (s : State) : Out :=
  .next (s.putG th.val d.val (encA 0x01 d.val a.val b.val 9 0) [a.val, b.val] (fun t =>
    mulHigh (t.gr a.val) (t.gr b.val)))

/-- DIVU: unsigned; by zero raises DIVIDE. -/
def execDivu (th : Fin 512) (d a b : Fin 32) (s : State) : Out :=
  .next (s.issue th.val (encA 0x01 d.val a.val b.val 10 0) false [a.val, b.val] (fun s =>
    if s.gr th.val b.val = 0 then .trap ⟨.divide, 0⟩
    else .ok (s.setG th.val d.val (s.gr th.val a.val / s.gr th.val b.val))))

/-- REMU: unsigned; by zero raises DIVIDE. -/
def execRemu (th : Fin 512) (d a b : Fin 32) (s : State) : Out :=
  .next (s.issue th.val (encA 0x01 d.val a.val b.val 11 0) false [a.val, b.val] (fun s =>
    if s.gr th.val b.val = 0 then .trap ⟨.divide, 0⟩
    else .ok (s.setG th.val d.val (s.gr th.val a.val % s.gr th.val b.val))))

/-- MIN, signed. -/
def execMin (th : Fin 512) (d a b : Fin 32) (s : State) : Out :=
  .next (s.putG th.val d.val (encA 0x01 d.val a.val b.val 12 0) [a.val, b.val] (fun t =>
    minSigned (t.gr a.val) (t.gr b.val)))

/-- MAX, signed. -/
def execMax (th : Fin 512) (d a b : Fin 32) (s : State) : Out :=
  .next (s.putG th.val d.val (encA 0x01 d.val a.val b.val 13 0) [a.val, b.val] (fun t =>
    maxSigned (t.gr a.val) (t.gr b.val)))

/-- MINU, unsigned. -/
def execMinu (th : Fin 512) (d a b : Fin 32) (s : State) : Out :=
  .next (s.putG th.val d.val (encA 0x01 d.val a.val b.val 14 0) [a.val, b.val] (fun t =>
    minUnsigned (t.gr a.val) (t.gr b.val)))

/-- MAXU, unsigned. -/
def execMaxu (th : Fin 512) (d a b : Fin 32) (s : State) : Out :=
  .next (s.putG th.val d.val (encA 0x01 d.val a.val b.val 15 0) [a.val, b.val] (fun t =>
    maxUnsigned (t.gr a.val) (t.gr b.val)))

/-- SEL: a when predicate b[1:0] is true, otherwise the register that fn[10:6] names. The operand field b names the predicate by its
low two bits (DEDUCED). -/
def execSel (th : Fin 512) (d a b c : Fin 32) (s : State) : Out :=
  .next (s.putG th.val d.val (encA 0x01 d.val a.val b.val 16 c.val) [a.val, c.val] (fun t =>
    if t.pr (b.val % 4) then t.gr a.val else t.gr c.val))

/-- BSWAP: the eight octets of a reversed. -/
def execBswap (th : Fin 512) (d a : Fin 32) (s : State) : Out :=
  .next (s.putG th.val d.val (encA 0x01 d.val a.val 0 17 0) [a.val] (fun t => byteSwap (t.gr a.val)))

/-! ### Integer immediate (majors 0x02 and 0x03) -/

/-- ADDI: the immediate is sign-extended. -/
def execAddi (th : Fin 512) (d a : Fin 32) (imm : BitVec 12) (s : State) : Out :=
  .next (s.putG th.val d.val (encL 0 d.val a.val imm) [a.val] (fun t => (t.gr a.val) + imm.signExtend 64))

/-- ANDI: the immediate is zero-extended. -/
def execAndi (th : Fin 512) (d a : Fin 32) (imm : BitVec 12) (s : State) : Out :=
  .next (s.putG th.val d.val (encL 1 d.val a.val imm) [a.val] (fun t => (t.gr a.val) &&& imm.setWidth 64))

/-- ORI: the immediate is zero-extended. -/
def execOri (th : Fin 512) (d a : Fin 32) (imm : BitVec 12) (s : State) : Out :=
  .next (s.putG th.val d.val (encL 2 d.val a.val imm) [a.val] (fun t => (t.gr a.val) ||| imm.setWidth 64))

/-- XORI: the immediate is zero-extended. -/
def execXori (th : Fin 512) (d a : Fin 32) (imm : BitVec 12) (s : State) : Out :=
  .next (s.putG th.val d.val (encL 3 d.val a.val imm) [a.val] (fun t => (t.gr a.val) ^^^ imm.setWidth 64))

/-- SHLI: the count is imm12[5:0]. -/
def execShli (th : Fin 512) (d a : Fin 32) (imm : BitVec 12) (s : State) : Out :=
  .next (s.putG th.val d.val (encL 4 d.val a.val imm) [a.val] (fun t => (t.gr a.val) <<< (imm.toNat % 64)))

/-- SHRI: the count is imm12[5:0]. -/
def execShri (th : Fin 512) (d a : Fin 32) (imm : BitVec 12) (s : State) : Out :=
  .next (s.putG th.val d.val (encL 5 d.val a.val imm) [a.val] (fun t => (t.gr a.val) >>> (imm.toNat % 64)))

/-- SARI: the count is imm12[5:0]. -/
def execSari (th : Fin 512) (d a : Fin 32) (imm : BitVec 12) (s : State) : Out :=
  .next (s.putG th.val d.val (encL 6 d.val a.val imm) [a.val] (fun t => (t.gr a.val).sshiftRight (imm.toNat % 64)))

/-- LUI: the sign-extended immediate shifted left by 11. -/
def execLui (th : Fin 512) (d : Fin 32) (imm : BitVec 21) (s : State) : Out :=
  .next (s.putG th.val d.val (encU 0x03 d.val imm) [] (fun _ => imm.signExtend 64 <<< 11))

/-! ### Compare and branch (majors 0x04 to 0x08) -/

/-- CMP: predicate p takes the condition on two registers. -/
def execCmp (th : Fin 512) (p : Fin 4) (cond : BitVec 3) (a b : Fin 32) (s : State) : Out :=
  .next (s.issue th.val (encC 0x04 p.val cond a.val (b.val * 2048)) false [a.val, b.val] (fun s =>
    .ok (s.setP th.val p.val (condHolds cond (s.gr th.val a.val) (s.gr th.val b.val)))))

/-- CMPI: predicate p takes the condition on a register and the sign-extended immediate. -/
def execCmpi (th : Fin 512) (p : Fin 4) (cond : BitVec 3) (a : Fin 32) (imm : BitVec 16) (s : State) : Out :=
  .next (s.issue th.val (encC 0x05 p.val cond a.val imm.toNat) false [a.val] (fun s =>
    .ok (s.setP th.val p.val (condHolds cond (s.gr th.val a.val) (imm.signExtend 64)))))

/-- The address of the instruction a thread runs, with the program counter already past it. -/
def State.thisPc (s : State) (th : Nat) : BitVec 64 := (s.thread th).pc - 4

/-- BR: when p equals sense, the program counter moves by the signed word offset, counted from the branch itself (DEDUCED). -/
def execBr (th : Fin 512) (p : Fin 4) (sense : Bool) (off : BitVec 16) (s : State) : Out :=
  .next (s.issue th.val (encB p.val sense off) false [] (fun s =>
    if (s.thread th.val).pr p.val = sense then .ok (s.setPc th.val (s.thisPc th.val + off.signExtend 64 * 4)) else .ok s))

/-- JAL: the next instruction's address to gd, a jump by the signed word offset, counted from the instruction itself (DEDUCED). -/
def execJal (th : Fin 512) (d : Fin 32) (off : BitVec 21) (s : State) : Out :=
  .next (s.issue th.val (encU 0x07 d.val off) false [] (fun s =>
    let pc := s.thisPc th.val
    .ok ((s.setG th.val d.val (pc + 4)).setPc th.val (pc + off.signExtend 64 * 4))))

/-- JALR: the next instruction's address to gd, a jump to a plus the signed octet offset, a read before gd is written (DEDUCED: the
spec names the instruction and its format only). -/
def execJalr (th : Fin 512) (d a : Fin 32) (imm : BitVec 16) (s : State) : Out :=
  .next (s.issue th.val (encI 0x08 d.val a.val imm) false [a.val] (fun s =>
    let target := s.gr th.val a.val + imm.signExtend 64
    .ok ((s.setG th.val d.val (s.thisPc th.val + 4)).setPc th.val target)))

end Sys2Proof.Machine
end

