-- ==== Sys2Proof/Machine/BamdexMem.lean ====
section
/-!
DEFINITION. Machine/BamdexMem.lean: loads, stores and atomics (majors 0x09 to 0x0B, 0x11) and the control registers (major 0x18).
-/
namespace Sys2Proof.Machine

/-! ### Loads and stores of general registers -/

/-- LD (R72, R73). `ecc`: what the check bits of the word say. -/
def execLd (th : Fin 512) (d a : Fin 32) (size : BitVec 3) (off : BitVec 13) (ecc : EccResult) (s : State) : Out :=
  let insn := encM 0x09 d.val a.val size off
  .next (s.issue th.val insn false [a.val] (fun s => s.load th.val d.val (s.ea th.val a.val off.toInt) size ecc insn))

/-- ST (R70, R72, R360). -/
def execSt (th : Fin 512) (d a : Fin 32) (size : BitVec 3) (off : BitVec 13) (s : State) : Out :=
  let insn := encM 0x0A d.val a.val size off
  .next (s.issue th.val insn false [d.val, a.val] (fun s =>
    s.storeReg th.val d.val (s.ea th.val a.val off.toInt) size insn))

/-- AMOADD: adds b to the doubleword at a; gd receives the old value. -/
def execAmoadd (th : Fin 512) (d a b : Fin 32) (s : State) : Out :=
  .next (s.issue th.val (encA 0x0B d.val a.val b.val 0 0) false [a.val, b.val] (fun s =>
    s.atomic th.val d.val (s.ea th.val a.val 0) false (fun old => some (old + s.gr th.val b.val))))

/-- AMOSWP: stores b; gd receives the old value. -/
def execAmoswp (th : Fin 512) (d a b : Fin 32) (s : State) : Out :=
  .next (s.issue th.val (encA 0x0B d.val a.val b.val 1 0) false [a.val, b.val] (fun s =>
    s.atomic th.val d.val (s.ea th.val a.val 0) true (fun _ => some (s.gr th.val b.val))))

/-- AMOCAS: stores b when the doubleword at a equals gd; gd receives the old value in either case. -/
def execAmocas (th : Fin 512) (d a b : Fin 32) (s : State) : Out :=
  .next (s.issue th.val (encA 0x0B d.val a.val b.val 2 0) false [d.val, a.val, b.val] (fun s =>
    s.atomic th.val d.val (s.ea th.val a.val 0) false (fun old =>
      if old = s.gr th.val d.val then some (s.gr th.val b.val) else none)))

/-! ### Time values and bounds in memory (major 0x11) -/

/-- A load of sixteen octets into a time register; TIME_RANGE where they spell no Datum word (R65). -/
def State.loadT (s : State) (th td x : Nat) (insn : BitVec 32) : Eff :=
  match s.access th x 16 false true with
  | .error e => .trap e
  | .ok f =>
    let s1 := s.loadCount th x 16 insn
    if s1.poisonedIn f 16 then .ok (s1.poisonDest th (srcT td) x) else s1.putT th td (timeOfMem (s1.octets f 16))

/-- A load of eight octets into a bound register, with tag PROGRAM. -/
def State.loadB (s : State) (th bd x : Nat) (insn : BitVec 32) : Eff :=
  match s.access th x 8 false true with
  | .error e => .trap e
  | .ok f =>
    let s1 := s.loadCount th x 8 insn
    if s1.poisonedIn f 8 then .ok (s1.poisonDest th (srcB bd) x)
    else .ok (s1.setBd th bd ⟨boundOfWord (BitVec.ofNat 64 (leNat (s1.octets f 8))), .program⟩)

/-- TLD: sixteen octets to a time register. -/
def execTld (th : Fin 512) (td : Fin 8) (a : Fin 32) (off : BitVec 16) (s : State) : Out :=
  let insn := encTM td.val 0 a.val off
  .next (s.issue th.val insn false [a.val] (fun s => s.loadT th.val td.val (s.ea th.val a.val off.toInt) insn))

/-- TST: sixteen octets from a time register. -/
def execTst (th : Fin 512) (td : Fin 8) (a : Fin 32) (off : BitVec 16) (s : State) : Out :=
  let insn := encTM td.val 1 a.val off
  .next (s.issue th.val insn false [a.val, srcT td.val] (fun s =>
    s.put th.val (s.ea th.val a.val off.toInt) (timeMem (s.tr th.val td.val)) true insn))

/-- BLD: eight octets to a bound register, with tag PROGRAM. -/
def execBld (th : Fin 512) (bd : Fin 8) (a : Fin 32) (off : BitVec 16) (s : State) : Out :=
  let insn := encTM bd.val 2 a.val off
  .next (s.issue th.val insn false [a.val] (fun s => s.loadB th.val bd.val (s.ea th.val a.val off.toInt) insn))

/-- BST: eight octets from a bound register; the tag is lost. -/
def execBst (th : Fin 512) (bd : Fin 8) (a : Fin 32) (off : BitVec 16) (s : State) : Out :=
  let insn := encTM bd.val 3 a.val off
  .next (s.issue th.val insn false [a.val, srcB bd.val] (fun s =>
    s.put th.val (s.ea th.val a.val off.toInt) (leBytes 8 (wordOfBound (s.br th.val bd.val).b).toNat) true insn))

/-! ### Control registers (Table 3.4) -/

/-- The content of a control register; none where the table permits the thread no read. -/
def State.ctlRead (s : State) (th c : Nat) : Option (BitVec 64) :=
  let t := s.thread th
  if c = 0 then some (BitVec.ofNat 64 th)
  else if c = 1 then some (BitVec.ofNat 64 (bit01 t.k))
  else if c = 6 then some (BitVec.ofNat 64 (bit01 t.sat + bit01 t.utc * 2))
  else if c = 24 then some (s.imageId th)
  else if !t.k then none
  else if c = 2 then some t.epc
  else if c = 3 then some (BitVec.ofNat 64 t.ecause)
  else if c = 4 then some t.eval
  else if c = 5 then some t.evect
  else if 8 ≤ c ∧ c ≤ 15 then some (SMap.get (fun _ => 0) t.wbase (c - 8))
  else if 16 ≤ c ∧ c ≤ 23 then some (SMap.get (fun _ => 0) t.wlim (c - 16))
  else none

/-- A control register written, reserved bits left zero; none where the table permits the thread no write. -/
def Thread.ctlWrite (t : Thread) (c : Nat) (v : BitVec 64) : Option Thread :=
  if c = 6 then some { t with sat := v.getLsbD 0, utc := v.getLsbD 1 }
  else if !t.k then none
  else if c = 1 then some { t with k := v.getLsbD 0 }
  else if c = 2 then some { t with epc := v }
  else if c = 5 then some { t with evect := v &&& ~~~3#64 }
  else if 8 ≤ c ∧ c ≤ 15 then some { t with wbase := SMap.set id (fun _ => 0) t.wbase (c - 8) (v &&& ~~~0xFFF#64) }
  else if 16 ≤ c ∧ c ≤ 23 then some { t with wlim := SMap.set id (fun _ => 0) t.wlim (c - 16) (v &&& ~~~0xFFC#64) }
  else none

/-- MFC: gd takes control register c. DESIGN CHOICE of the word: c stands in field a. -/
def execMfc (th : Fin 512) (d c : Fin 32) (s : State) : Out :=
  let insn := encA 0x18 d.val c.val 0 0 0
  .next (s.issue th.val insn false [] (fun s =>
    match s.ctlRead th.val c.val with
    | some v => .ok (s.setG th.val d.val v)
    | none => .trap ⟨.privilege, insn.setWidth 64⟩))

/-- MTC: control register c takes a. DESIGN CHOICE of the word: c stands in field d. -/
def execMtc (th : Fin 512) (a c : Fin 32) (s : State) : Out :=
  let insn := encA 0x18 c.val a.val 0 1 0
  .next (s.issue th.val insn false [a.val] (fun s =>
    match (s.thread th.val).ctlWrite c.val (s.gr th.val a.val) with
    | some t => .ok (s.setThread th.val t)
    | none => .trap ⟨.privilege, insn.setWidth 64⟩))

end Sys2Proof.Machine
end

