-- ==== Sys2Proof/Machine/BamdexTime.lean ====
section
/-!
DEFINITION. Machine/BamdexTime.lean: the time instructions (major 0x10, Table 3.9) and the bound instructions (major 0x12, Table 3.11).
-/
namespace Sys2Proof.Machine

/-! ### Time (major 0x10) -/

/-- TNOW: the Datum replica at the start of the present tick. -/
def execTnow (th : Fin 512) (td : Fin 8) (s : State) : Out :=
  .next (s.issue th.val (encT 0x10 td.val 0 0 0 0 0) false [] (fun s => .ok (s.setT th.val td.val s.replica.word)))

/-- TMOV. -/
def execTmov (th : Fin 512) (td tx : Fin 8) (s : State) : Out :=
  .next (s.issue th.val (encT 0x10 td.val tx.val 0 0 1 0) false [srcT tx.val] (fun s =>
    .ok (s.setT th.val td.val (s.tr th.val tx.val))))

/-- TADD: a signed count of 2^-32 ns added. -/
def execTadd (th : Fin 512) (td tx : Fin 8) (g : Fin 32) (s : State) : Out :=
  .next (s.issue th.val (encT 0x10 td.val tx.val 0 g.val 2 0) false [srcT tx.val, g.val] (fun s =>
    s.putT th.val td.val (timeAdd (s.tr th.val tx.val) (s.gr th.val g.val).toInt)))

/-- TADDS: signed seconds added. -/
def execTadds (th : Fin 512) (td tx : Fin 8) (g : Fin 32) (s : State) : Out :=
  .next (s.issue th.val (encT 0x10 td.val tx.val 0 g.val 3 0) false [srcT tx.val, g.val] (fun s =>
    s.putT th.val td.val (timeAdd (s.tr th.val tx.val) ((s.gr th.val g.val).toInt * secCount))))

/-- TSUB: the signed difference, saturated with TSTAT.SAT. -/
def execTsub (th : Fin 512) (g : Fin 32) (tx ty : Fin 8) (s : State) : Out :=
  .next (s.issue th.val (encT 0x10 0 tx.val ty.val g.val 4 0) false [srcT tx.val, srcT ty.val] (fun s =>
    let t := s.thread th.val
    let r := timeDiff (t.tr tx.val) (t.tr ty.val)
    .ok (s.setThread th.val { (t.setG g.val r.1) with sat := t.sat || r.2 })))

/-- TCMP: predicate p takes the condition; a reserved condition is illegal. -/
def execTcmp (th : Fin 512) (p : Fin 4) (tx ty : Fin 8) (cond : BitVec 3) (s : State) : Out :=
  let insn := encT 0x10 p.val tx.val ty.val 0 5 cond.toNat
  .next (s.issue th.val insn false [srcT tx.val, srcT ty.val] (fun s =>
    match timeCond cond (s.tr th.val tx.val) (s.tr th.val ty.val) with
    | some b => .ok (s.setP th.val p.val b)
    | none => illegal insn))

/-- TGET: SEC, or NS and FRAC. -/
def execTget (th : Fin 512) (g : Fin 32) (tx : Fin 8) (low : Bool) (s : State) : Out :=
  .next (s.issue th.val (encT 0x10 0 tx.val 0 g.val 6 (bit01 low)) false [srcT tx.val] (fun s =>
    .ok (s.setG th.val g.val (timeGet (s.tr th.val tx.val) low))))

/-- TPUT: SEC, or NS and FRAC; TIME_RANGE for an NS above 999 999 999. -/
def execTput (th : Fin 512) (td : Fin 8) (g : Fin 32) (low : Bool) (s : State) : Out :=
  .next (s.issue th.val (encT 0x10 td.val 0 0 g.val 7 (bit01 low)) false [srcT td.val, g.val] (fun s =>
    s.putT th.val td.val (timePut (s.tr th.val td.val) low (s.gr th.val g.val))))

/-- The flat address of a write of `n` octets into a frame that the thread holds unfrozen, and the frame; anything else raises
ACCESS (R78). -/
def State.frameWrite (s : State) (th a n : Nat) : Option (Nat × Nat × Frame) :=
  match s.frameAt (clusterOf th) a n with
  | some (h, f) => if f.holder = some th ∧ f.frozen = false then some (cmemFlat (clusterOf th) a, h, f) else none
  | none => none

/-- TWF: a time value written into a held frame and recorded for the launch checks (R78). -/
def execTwf (th : Fin 512) (tx : Fin 8) (g : Fin 32) (fmt : BitVec 2) (s : State) : Out :=
  let insn := encT 0x10 0 tx.val 0 g.val 8 fmt.toNat
  .next (s.issue th.val insn false [srcT tx.val, g.val] (fun s =>
    let v := s.tr th.val tx.val
    match s.timeBytes fmt.toNat v with
    | none => illegal insn
    | some bs =>
      match s.frameWrite th.val (s.gr th.val g.val).toNat bs.length with
      | none => .trap ⟨.access, s.gr th.val g.val⟩
      | some (flat, h, f) =>
        if fmt = 1 ∧ !s.fb Fld.DTM_UTC_OFFSET.VALID then
          .ok (s.setThread th.val { (s.thread th.val) with utc := true })
        else
          let r : RecTime := ⟨v, decide (s.replica.word.count < v.count)⟩
          .ok ((s.storeMem flat bs).setFrame h { f with times := f.times ++ [r] })))

/-! ### Bounds (major 0x12) -/

/-- BNOW: the Traverse bound of the Datum, unbounded while a replica mismatch is pending. -/
def execBnow (th : Fin 512) (bd : Fin 8) (s : State) : Out :=
  .next (s.issue th.val (encT 0x12 bd.val 0 0 0 0 0) false [] (fun s =>
    .ok (s.setBd th.val bd.val ⟨if s.replicaOk then s.datumBound s.now else Bound.unbounded, .datum⟩)))

/-- BAT: the bound for an instant served on port g[5:0], with its tag. -/
def execBat (th : Fin 512) (bd tx : Fin 8) (g : Fin 32) (s : State) : Out :=
  .next (s.issue th.val (encT 0x12 bd.val tx.val 0 g.val 1 0) false [srcT tx.val, g.val] (fun s =>
    let t := s.tr th.val tx.val
    .ok (s.setBd th.val bd.val ⟨s.boundAt ((s.gr th.val g.val).toNat % 64) t, .projected t⟩)))

/-- BMOV. -/
def execBmov (th : Fin 512) (bd bx : Fin 8) (s : State) : Out :=
  .next (s.issue th.val (encT 0x12 bd.val bx.val 0 0 2 0) false [srcB bx.val] (fun s =>
    .ok (s.setBd th.val bd.val (s.br th.val bx.val))))

/-- BADD: field by field, saturating; the tag by R67. -/
def execBadd (th : Fin 512) (bd bx bz : Fin 8) (s : State) : Out :=
  .next (s.issue th.val (encT 0x12 bd.val bx.val bz.val 0 3 0) false [srcB bx.val, srcB bz.val] (fun s =>
    let x := s.br th.val bx.val
    let y := s.br th.val bz.val
    .ok (s.setBd th.val bd.val ⟨boundAdd x.b y.b, tagInherit x.tag y.tag⟩)))

/-- BMAX: field by field, the larger; the tag by R67. -/
def execBmax (th : Fin 512) (bd bx bz : Fin 8) (s : State) : Out :=
  .next (s.issue th.val (encT 0x12 bd.val bx.val bz.val 0 4 0) false [srcB bx.val, srcB bz.val] (fun s =>
    let x := s.br th.val bx.val
    let y := s.br th.val bz.val
    .ok (s.setBd th.val bd.val ⟨boundMax x.b y.b, tagInherit x.tag y.tag⟩)))

/-- BWID: widened by the two halves of a general register, saturating. -/
def execBwid (th : Fin 512) (bd bx : Fin 8) (g : Fin 32) (s : State) : Out :=
  .next (s.issue th.val (encT 0x12 bd.val bx.val 0 g.val 5 0) false [srcB bx.val, g.val] (fun s =>
    let x := s.br th.val bx.val
    .ok (s.setBd th.val bd.val ⟨boundAdd x.b (boundOfWord (s.gr th.val g.val)), x.tag⟩)))

/-- BFROMG: a bound from a general register, with tag PROGRAM. -/
def execBfromg (th : Fin 512) (bd : Fin 8) (g : Fin 32) (s : State) : Out :=
  .next (s.issue th.val (encT 0x12 bd.val 0 0 g.val 6 0) false [g.val] (fun s =>
    .ok (s.setBd th.val bd.val ⟨boundOfWord (s.gr th.val g.val), .program⟩)))

/-- BTOG: EARLY × 2^32 + LATE. -/
def execBtog (th : Fin 512) (g : Fin 32) (bx : Fin 8) (s : State) : Out :=
  .next (s.issue th.val (encT 0x12 0 bx.val 0 g.val 7 0) false [srcB bx.val] (fun s =>
    .ok (s.setG th.val g.val (wordOfBound (s.br th.val bx.val).b))))

/-- The modifier of BCVT and BWF: the unit, and in bit 2 the added output unit. -/
def unitMod (unit : BitVec 2) (addOne : Bool) : Nat := unit.toNat + bit01 addOne * 4

/-- BCVT: both fields in a coarser unit, rounded upward; the reserved unit is illegal. -/
def execBcvt (th : Fin 512) (g : Fin 32) (bx : Fin 8) (unit : BitVec 2) (addOne : Bool) (s : State) : Out :=
  let insn := encT 0x12 0 bx.val 0 g.val 8 (unitMod unit addOne)
  .next (s.issue th.val insn false [srcB bx.val] (fun s =>
    if unit = 3 then illegal insn
    else .ok (s.setG th.val g.val (wordOfBound (boundUnit (s.br th.val bx.val).b unit.toNat addOne)))))

/-- BCHK: whether both fields of bx are at least those of by. -/
def execBchk (th : Fin 512) (p : Fin 4) (bx bz : Fin 8) (s : State) : Out :=
  .next (s.issue th.val (encT 0x12 p.val bx.val bz.val 0 9 0) false [srcB bx.val, srcB bz.val] (fun s =>
    .ok (s.setP th.val p.val (boundCovers (s.br th.val bx.val).b (s.br th.val bz.val).b))))

/-- BWF: a bound written into a held frame and recorded; a tag that is not servable is a Damper violation with nothing written
(R79). -/
def execBwf (th : Fin 512) (bx : Fin 8) (g : Fin 32) (unit : BitVec 2) (addOne : Bool) (s : State) : Out :=
  let insn := encT 0x12 0 bx.val 0 g.val 10 (unitMod unit addOne)
  .next (s.issue th.val insn false [srcB bx.val, g.val] (fun s =>
    let x := s.br th.val bx.val
    if unit = 3 then illegal insn
    else if !tagServable x.tag then .ok (s.violation th.val 0x04 0x0E insn)
    else match s.frameWrite th.val (s.gr th.val g.val).toNat 8 with
      | none => .trap ⟨.access, s.gr th.val g.val⟩
      | some (flat, h, f) =>
        .ok ((s.storeMem flat (boundWire (boundUnit x.b unit.toNat addOne))).setFrame h
          { f with bounds := f.bounds ++ [x.tag] })))

end Sys2Proof.Machine
end

