-- ==== Sys2Proof/Machine/BamdexIo.lean ====
section
/-!
DEFINITION. Machine/BamdexIo.lean: the event, packet, launch, crypto and Damper-checked instructions (majors 0x13 to 0x17) and the
end of a crypto job.
-/
namespace Sys2Proof.Machine

/-! ### Events and notices (major 0x13) -/

/-- EARM with its arm word (R80, Table 3.12). DESIGN CHOICE: NOT_OWNER for a target in U outside the own core. -/
def State.earm (s : State) (th : Nat) (w : BitVec 64) (tx : TimeVal) : State × Status :=
  let kind := (w.extractLsb' 16 3).toNat
  let target := (w.extractLsb' 20 9).toNat
  if !s.d2dUp then (s, .lost)
  else if 1 < kind ∨ w.extractLsb' 29 35 ≠ 0 then (s, .range)
  else if !(s.thread th).k ∧ coreOf target ≠ coreOf th then (s, .notOwner)
  else s.arm (.thread th) (w.extractLsb' 0 16).toNat ⟨tx, .thread target, decide (kind = 1)⟩ (w.getLsbD 19) false

/-- EARM. -/
def execEarm (th : Fin 512) (g : Fin 32) (tx : Fin 8) (s : State) : Out :=
  .next (s.issue th.val (encT 0x13 0 tx.val 0 g.val 0 0) false [g.val, srcT tx.val] (fun s =>
    let r := s.earm th.val (s.gr th.val g.val) (s.tr th.val tx.val)
    r.1.answer th.val g.val r.2 0 0))

/-- ECAN with its handle: an event, or a launch (R58, R410). -/
def State.ecan (s : State) (th h : Nat) : State × Status :=
  if !s.d2dUp then (s, .lost)
  else if ownFixed (slotOwner h) || !s.owns (.thread th) (slotOwner h) then (s, .notOwner)
  else match (s.slot h).armed, SMap.find s.launches h with
    | some e, some l => if s.reached e.instant then (s, .fired) else (s.cancelLaunch l, .cancelled)
    | _, _ => s.cancel (.thread th) h

/-- ECAN. -/
def execEcan (th : Fin 512) (g : Fin 32) (s : State) : Out :=
  .next (s.issue th.val (encT 0x13 0 0 0 g.val 1 0) false [g.val] (fun s =>
    let r := s.ecan th.val ((s.gr th.val g.val).toNat % 65536)
    r.1.answer th.val g.val r.2 0 0))

/-- EWAIT: the oldest notice, or the thread waits (R81). -/
def execEwait (th : Fin 512) (td : Fin 8) (g : Fin 32) (s : State) : Out :=
  .next (s.issue th.val (encT 0x13 td.val 0 0 g.val 2 0) false [g.val] (fun s =>
    let t := s.thread th.val
    let w := s.gr th.val g.val
    let wr : WaitRec := ⟨td.val, g.val, if w.getLsbD 16 then none else some (w.toNat % 65536)⟩
    match t.notices with
    | n :: r => .ok ((s.setThread th.val { t with notices := r }).returnNotice th.val wr n)
    | [] => .ok (s.setThread th.val { t with st := .wait, wait := some wr })))

/-! ### Packets (major 0x14) -/

/-- A handle as an instruction gives it: bits [31:0]. -/
def handleOf (v : BitVec 64) : Nat := v.toNat % 2 ^ 32

/-- PADDR: the CMEM address of a frame; the spec states none where the handle names no frame of the cluster: a free value. -/
def execPaddr (th : Fin 512) (d a : Fin 32) (s : State) : Out :=
  .next (s.issue th.val (encA 0x14 d.val a.val 0 0 0) false [a.val] (fun s =>
    match s.frame (handleOf (s.gr th.val a.val)) with
    | some f => .ok (s.setG th.val d.val (BitVec.ofNat 64 (cellAddr f.cell)))
    | none => .ok (s.fresh.2.setG th.val d.val s.fresh.1)))

/-- The PINFO word of a frame. -/
def Frame.info (f : Frame) : BitVec 64 :=
  BitVec.ofNat 64 (f.len % 65536 * 2 ^ 48 + f.port % 64 * 2 ^ 40 + f.cls % 256 * 2 ^ 32)

/-- PINFO: length, port and receive class; a free value where the handle names no frame. -/
def execPinfo (th : Fin 512) (d a : Fin 32) (s : State) : Out :=
  .next (s.issue th.val (encA 0x14 d.val a.val 0 1 0) false [a.val] (fun s =>
    match s.frame (handleOf (s.gr th.val a.val)) with
    | some f => .ok (s.setG th.val d.val f.info)
    | none => .ok (s.fresh.2.setG th.val d.val s.fresh.1)))

/-- A transmit frame for a thread; the spec gives it no port and no receive class, so both are free values. -/
def State.palloc (s : State) (th len : Nat) : State × Status × Nat :=
  if len = 0 then (s, .range, 0)
  else if 9212 < len then (s, .tooLong, 0)
  else
    let x := s.fresh
    let f : Frame := { cluster := clusterOf th, cell := 0, len := len, holder := some th, frozen := false, port := x.1.toNat % 64, cls := x.1.toNat / 64 % 256, stamp := .none, stampOk := false, times := [], bounds := [] }
    match x.2.allocFrame (clusterOf th) len f with
    | some (h, s1) => (s1, .ok, h)
    | none => (s, .empty, 0)

/-- PALLOC. -/
def execPalloc (th : Fin 512) (d a : Fin 32) (s : State) : Out :=
  .next (s.issue th.val (encA 0x14 d.val a.val 0 2 0) false [a.val] (fun s =>
    let r := s.palloc th.val (s.gr th.val a.val).toNat
    r.1.answer th.val d.val r.2.1 0 r.2.2))

/-- PFREE: a held frame released; ACCESS with the handle for any other. -/
def execPfree (th : Fin 512) (a : Fin 32) (s : State) : Out :=
  .next (s.issue th.val (encA 0x14 0 a.val 0 3 0) false [a.val] (fun s =>
    let h := handleOf (s.gr th.val a.val)
    match s.heldFrame th.val h with
    | some _ => .ok (s.freeFrame h)
    | none => .trap ⟨.access, BitVec.ofNat 64 h⟩))

/-- A copy of octets between two ranges under the rules of loads and stores at any octet address (R82). -/
def State.pcopy (s : State) (th n src dst : Nat) : Eff :=
  if n = 0 then .ok s
  else match s.dataAccess th (s.thread th).k src n false, s.dataAccess th (s.thread th).k dst n true with
    | none, _ => .trap ⟨.access, BitVec.ofNat 64 src⟩
    | _, none => .trap ⟨.access, BitVec.ofNat 64 dst⟩
    | some x, some y =>
      if s.poisonedIn x n then .trap ⟨.poison, BitVec.ofNat 64 src⟩
      else if s.mirrorStalls y n then .stall
      else .ok (s.storeData y (s.octets x n))

/-- PCOPY: gd[12:0] octets, at most 4 096, from address b to address a. -/
def execPcopy (th : Fin 512) (d a b : Fin 32) (s : State) : Out :=
  .next (s.issue th.val (encA 0x14 d.val a.val b.val 4 0) false [d.val, a.val, b.val] (fun s =>
    s.pcopy th.val (Nat.min 4096 ((s.gr th.val d.val).toNat % 8192)) (s.gr th.val b.val).toNat (s.gr th.val a.val).toNat))

/-- PSEND: frame a on port b[5:0], queue b[10:8], with SENT_TS for b[11]. -/
def execPsend (th : Fin 512) (d a b : Fin 32) (s : State) : Out :=
  let insn := encA 0x14 d.val a.val b.val 5 0
  .next (s.issue th.val insn false [a.val, b.val] (fun s =>
    let w := s.gr th.val b.val
    let r := s.portSend th.val (handleOf (s.gr th.val a.val)) (w.toNat % 64) ((w.extractLsb' 8 3).toNat) (w.getLsbD 11) insn
    r.1.answer th.val d.val r.2.1 r.2.2 0))

/-- The bound that PTSB returns for a frame handle: of the ingress timestamp, or of the measured departure; unbounded for a frame
with neither, and for a timestamp taken during a replica mismatch (R16). -/
def State.frameBound (s : State) (h : Nat) : Bound :=
  match s.frame h, SMap.find s.prt.sent h with
  | some f, _ => match f.stamp with
    | .ingress t => if f.stampOk then s.portBound f.port true t else Bound.unbounded
    | .departed t => s.portBound f.port false t
    | .none => Bound.unbounded
  | none, some (port, some t) => s.portBound port false t
  | none, _ => Bound.unbounded

/-- PTSB: tag PORT in every case. -/
def execPtsb (th : Fin 512) (bd : Fin 8) (a : Fin 32) (s : State) : Out :=
  .next (s.issue th.val (encA 0x14 bd.val a.val 0 6 0) false [a.val] (fun s =>
    .ok (s.setBd th.val bd.val ⟨s.frameBound (handleOf (s.gr th.val a.val)), .port⟩)))

/-! ### Launches (major 0x15) -/

/-- LGATE: the first launch point of port g[5:0] at or after tx. -/
def execLgate (th : Fin 512) (td tx : Fin 8) (g : Fin 32) (s : State) : Out :=
  .next (s.issue th.val (encT 0x15 td.val tx.val 0 g.val 0 0) false [srcT tx.val, g.val] (fun s =>
    let port := (s.gr th.val g.val).toNat % 64
    if s.ganged port then (s.setT th.val td.val .zero).answer th.val g.val .range 0 0
    else match (if s.linkUp port then s.launchPoint port (s.tr th.val tx.val) else none) with
      | some t => (s.setT th.val td.val t).answer th.val g.val .ok 0 0
      | none => (s.setT th.val td.val .zero).answer th.val g.val .lost 0 0))

/-- A launch of a held frame at an instant by the launch word `w` (R83), its status in gd. -/
def State.lsend (s : State) (th g : Nat) (w : BitVec 64) (t : TimeVal) (insn : BitVec 32) : Eff :=
  match s.launchSend th (handleOf w) (w.extractLsb' 32 16).toNat (w.extractLsb' 48 6).toNat t insn with
  | (s1, .ok, d) => (s1.insnEvent th 0x0F insn).answer th g .ok d 0
  | (s1, st, d) => s1.answer th g st d 0

/-- LSEND: a launch of a held frame at tx, by the launch word g (R83). -/
def execLsend (th : Fin 512) (g : Fin 32) (tx : Fin 8) (s : State) : Out :=
  let insn := encT 0x15 0 tx.val 0 g.val 1 0
  .next (s.issue th.val insn false [g.val, srcT tx.val] (fun s =>
    s.lsend th.val g.val (s.gr th.val g.val) (s.tr th.val tx.val) insn))

/-! ### Crypto (major 0x16) -/

/-- The octets of a CMEM range that a thread may read; none raises ACCESS. -/
def State.cmemRead (s : State) (th a n : Nat) : Option Nat :=
  match areaOf a n with
  | some .cmem | some .pool => s.dataAccess th (s.thread th).k a n false
  | _ => none

/-- The job of a descriptor (Table 3.16). -/
def jobOf (th : Nat) (k event : Bool) (e : List Byte) : CryptoJob :=
  { thread := th, event := event, op := leAt e 0 1, keySrc := leAt e 1 1, key := leAt e 4 4, jobTag := BitVec.ofNat 32 (leAt e 8 4), chain := bitAt (leAt e 0x0C 4) 0, inAddr := leAt e 0x10 8, inLen := leAt e 0x18 4, aadLen := leAt e 0x1C 4, aadAddr := leAt e 0x20 8, outAddr := leAt e 0x28 8, nonce := leAt e 0x30 8, chainW := BitVec.ofNat 64 (leAt e 0x38 8), k := k, got := none, notify := true }

/-- Whether a descriptor's codes and reserved fields are those of Table 3.16. -/
def descOk (e : List Byte) : Bool :=
  decide (1 ≤ leAt e 0 1 ∧ leAt e 0 1 ≤ 0x0B ∧ leAt e 1 1 ≤ 1 ∧ leAt e 2 2 = 0 ∧ leAt e 0x0C 4 ≤ 1)

/-- A descriptor submitted to the cluster's lane: BUSY with no free notice entry, POISON for a poisoned descriptor. DESIGN CHOICE:
RANGE for a descriptor outside Table 3.16. -/
def State.submit (s : State) (th flat : Nat) (event : Bool) : State × Status :=
  let e := s.octets flat 64
  let t := s.thread th
  if s.poisonedIn flat 64 then (s, .poison)
  else if !descOk e then (s, .range)
  else if !t.hasFree then (s, .busy)
  else
    let s1 := s.setThread th { t with reserved := t.reserved + 1 }
    let c := clusterOf th
    ((s1.setJobs c (s1.laneJobs c ++ [jobOf th t.k event e])).laneStart c, .ok)

/-- CSUB: the descriptor at CMEM address a; b[0] marks event-message work. -/
def execCsub (th : Fin 512) (d a b : Fin 32) (s : State) : Out :=
  let insn := encA 0x16 d.val a.val b.val 0 0
  .next (s.issue th.val insn false [a.val, b.val] (fun s =>
    match s.cmemRead th.val (s.gr th.val a.val).toNat 64 with
    | none => .trap ⟨.access, s.gr th.val a.val⟩
    | some flat =>
      let r := s.submit th.val flat ((s.gr th.val b.val).getLsbD 0)
      let s1 := if r.2 = .ok then r.1.insnEvent th.val 0x0D insn else r.1
      s1.answer th.val d.val r.2 0 0))

/-- CDRV: a key derived from slot a[5:0] with a context of a[23:16] octets at CMEM address b (R275). -/
def execCdrv (th : Fin 512) (d a b : Fin 32) (s : State) : Out :=
  let insn := encA 0x16 d.val a.val b.val 1 0
  .next (s.issue th.val insn false [a.val, b.val] (fun s =>
    let w := s.gr th.val a.val
    let n := (w.extractLsb' 16 8).toNat
    if 64 < n then s.answer th.val d.val .range 0 0
    else match (if n = 0 then some 0 else s.cmemRead th.val (s.gr th.val b.val).toNat n) with
      | none => .trap ⟨.access, s.gr th.val b.val⟩
      | some flat =>
        if s.poisonedIn flat n then s.answer th.val d.val .poison 0 0
        else
          let r := s.derive th.val (w.toNat % 64) (s.octets flat n) insn
          r.1.answer th.val d.val r.2.1 (if r.2.1 = .damper then 0x0E else 0) (if r.2.1 = .ok then r.2.2 else 0)))

/-- CREL: a derived-key handle released. -/
def execCrel (th : Fin 512) (a : Fin 32) (s : State) : Out :=
  .next (s.issue th.val (encA 0x16 0 a.val 0 2 0) false [a.val] (fun s =>
    .ok (s.release_ (clusterOf th.val) (handleOf (s.gr th.val a.val)))))

/-- CRYPTO_JOB_COMPLETE: the job that a lane runs ends (R84). -/
def execCryptoJobComplete (lane : Fin 16) (s : State) : Out := .next (if s.coreUp then s.jobDone lane.val else s)

/-! ### Damper-checked instructions (major 0x17) -/

/-- DINC: the 64-bit increment (R41 to R43). -/
def execDinc (th : Fin 512) (g : Fin 32) (s : State) : Out :=
  let insn := encT 0x17 0 0 0 g.val 0 0
  .next (s.issue th.val insn true [g.val] (fun s =>
    if !s.d2dUp then s.answer th.val g.val .lost 0 0
    else
      let r := s.incProgram th.val (s.gr th.val g.val) insn
      r.1.answer th.val g.val r.2.1 r.2.2 0))

/-- The ensemble writer role taken (R42): BUSY while another thread holds it. -/
def State.takeWriter (s : State) (th : Nat) : State × Status :=
  match s.dtm.writer with
  | some w => (s, if w = th then .ok else .busy)
  | none => (({ s with dtm := { s.dtm with writer := some th } }).setB Fld.DTM_MODE.ENS_ACTIVE true, .ok)

/-- DENS. -/
def execDens (th : Fin 512) (g : Fin 32) (s : State) : Out :=
  .next (s.issue th.val (encT 0x17 0 0 0 g.val 1 0) true [] (fun s =>
    let r := if s.d2dUp then s.takeWriter th.val else (s, .lost)
    r.1.answer th.val g.val r.2 0 0))

/-- The bound of a program's step (R49): the latest measurement of entry `r`; unbounded where there is none. -/
def State.refBound (s : State) (r : Nat) : Bound :=
  match (s.ent r).samples.getLast?, (s.ent r).last with
  | some x, _ => ⟨x.early, x.late⟩
  | none, some p => ⟨p.early, p.late⟩
  | none, none => Bound.unbounded

/-- The entry and the enabling bit of a step's source code (Table 3.17). -/
def stepSource (code : Nat) : Option (Nat × Nat) :=
  if 0x10 ≤ code ∧ code ≤ 0x13 then some (8 + (code - 0x10), 0)
  else if code = 0x20 then some (12, 1)
  else none

/-- A program's step request (R47 to R49): a refusal is a Damper violation whose detail says why. A source code that Table 3.17 does
not list is refused as SOURCE, after the checks that come before it (DEDUCED). -/
def State.stepProgram (s : State) (th code : Nat) (x : TimeVal) (insn : BitVec 32) : State × Status × Nat :=
  let off := stepOffset x.sec x.ns x.frac
  let src := stepSource code
  let refused : Option Status := match src with
    | some (_, b) => s.stepRefusal b x.ns off
    | none => match s.stepRefusal 0 0 0 with
      | some .notSettle => some .notSettle
      | some .closed => some .closed
      | some .stepUsed => some .stepUsed
      | _ => some .source
  match refused with
  | some st => ((s.setF Fld.DTM_WSTAT.REASON 9).violation th 0x03 st.code insn, .damper, st.code)
  | none => (s.stepAccept off (s.refBound (src.getD (0, 0)).1) code, .ok, 0)

/-- DSTEP: a step of offset tx from source g[7:0]. -/
def execDstep (th : Fin 512) (g : Fin 32) (tx : Fin 8) (s : State) : Out :=
  let insn := encT 0x17 0 tx.val 0 g.val 2 0
  .next (s.issue th.val insn true [g.val, srcT tx.val] (fun s =>
    if !s.d2dUp then s.answer th.val g.val .lost 0 0
    else
      let r := s.stepProgram th.val ((s.gr th.val g.val).toNat % 256) (s.tr th.val tx.val) insn
      r.1.answer th.val g.val r.2.1 r.2.2 0))

/-- OWNC: a claim of the whole index in g (R32). -/
def execOwnc (th : Fin 512) (g : Fin 32) (s : State) : Out :=
  .next (s.issue th.val (encT 0x17 0 0 0 g.val 3 0) true [g.val] (fun s =>
    let r := if s.d2dUp then s.claim (.thread th.val) (s.gr th.val g.val).toNat else (s, .lost)
    r.1.answer th.val g.val r.2 0 0))

/-- OWNR: a release of the whole index in g. -/
def execOwnr (th : Fin 512) (g : Fin 32) (s : State) : Out :=
  .next (s.issue th.val (encT 0x17 0 0 0 g.val 4 0) true [g.val] (fun s =>
    let r := if s.d2dUp then s.release (.thread th.val) (s.gr th.val g.val).toNat else (s, .lost)
    r.1.answer th.val g.val r.2 0 0))

/-- The tests of R253 on a steering word, in their order: the reason of the first that holds. -/
def State.oscRefusal (s : State) (i : Nat) (code : BitVec 32) : Option Nat :=
  let step := (s.rg .DMP_OSC_STEP i).toNat
  let last := (s.rg .ENS_OSC_LAST i).toNat
  let diff := if last ≤ code.toNat then code.toNat - last else last - code.toNat
  let since : Nat := match SMap.find s.flt.oscLast i with
    | some t => Nat.min secCount (s.now.count - t.count)
    | none => secCount
  let early : Bool := match SMap.find s.flt.oscLast i with
    | some t => decide (s.now.count < t.count + s.fd Fld.DMP_OSC_INTERVAL.INTERVAL i * 1000 * usCount)
    | none => false
  let gain := (s.srg .ENS_OSC_GAIN i).natAbs
  if step = 0 then some 8
  else if early then some 7
  else if code.toNat < (s.rg .DMP_OSC_MIN i).toNat ∨ (s.rg .DMP_OSC_MAX i).toNat < code.toNat then some 8
  else if step < diff then some 8
  else if s.fb Fld.ENS_OSC_CFG.SRC i ∧ s.flt.dfdtClock * 100000 * since < diff * gain * secCount then some 8
  else none

/-- The first Datum millisecond boundary at least 10 µs after an instant (R129). -/
def oscSlot (t : TimeVal) : TimeVal := TimeVal.ofCount (ceilDiv (t.count + 10 * usCount) (1000 * usCount) * (1000 * usCount))

/-- A steering word submitted (R129, R253): an interface that the thread does not own is a Damper violation (DEDUCED, R33). DESIGN
CHOICE: RANGE for a bit count outside 8 to 32 or a nonzero reserved bit. -/
def State.steer (s : State) (th : Nat) (w : BitVec 64) (insn : BitVec 32) : State × Status × Nat :=
  let i := (w.extractLsb' 40 1).toNat
  let bits := (w.extractLsb' 32 8).toNat
  let code := BitVec.ofNat 32 (w.toNat % 2 ^ Nat.min 32 bits)
  if bits < 8 ∨ 32 < bits ∨ w.extractLsb' 41 23 ≠ 0 then (s, .range, 0)
  else if !s.owns (.thread th) (76 + i) then (s.violation th 0x0C 0x0E insn, .damper, 0x0E)
  else match s.oscRefusal i code with
    | some reason => (s.violation th reason 0x0E insn, .damper, 0x0E)
    | none =>
      ({ s with
        ens := { s.ens with osc := SMap.insert id s.ens.osc i ⟨code, bits, oscSlot s.now⟩ }
        flt := { s.flt with oscLast := SMap.insert id s.flt.oscLast i s.now } }, .ok, 0)

/-- DOSC: a steering word. -/
def execDosc (th : Fin 512) (g : Fin 32) (s : State) : Out :=
  let insn := encT 0x17 0 0 0 g.val 5 0
  .next (s.issue th.val insn true [g.val] (fun s =>
    if !s.d2dUp then s.answer th.val g.val .lost 0 0
    else
      let r := s.steer th.val (s.gr th.val g.val) insn
      r.1.answer th.val g.val r.2.1 r.2.2 0))

end Sys2Proof.Machine
end

