-- ==== Sys2Proof/Machine/Datum.lean ====
section
/-!
DEFINITION. Machine/Datum.lean: the commands of the two dies' link, the timeline, ownership, isolation and the Datum block
(01_architecture.md, 02_datum.md), and those that start and stop threads (R86 to R88).
-/
namespace Sys2Proof.Machine

/-- A command that a condition lets act; otherwise it changes nothing. -/
def State.act (s : State) (c : Bool) (f : State → State) : State := if c then f s else s

/-- An action that takes place once in each Datum second: number `i` of them, not yet taken in the present second. -/
def State.once (s : State) (i : Nat) (f : State → State) : State :=
  if SMap.find s.secDone i = some s.now.sec.toNat then s
  else f { s with secDone := SMap.insert id s.secDone i s.now.sec.toNat }

/-! ### The die-to-die link (R16 to R18) -/

/-- The replica loaded from the Datum (R16, R17). -/
def State.replicaLoad (s : State) : State :=
  { s with
    replica := s.datum
    replicaOk := true
    dtm := { s.dtm with reloadDue := false } }

/-- A replica that differs from the Datum (R16): the fault, the journal's record, every planned launch refused. -/
def State.replicaMismatch (s : State) : State :=
  let s1 : State := { s with
    replicaOk := false
    dtm := { s.dtm with reloadDue := true } }
  let s2 := ((s1.setB Fld.DTM_CHECK.LAST_OK false).setB Fld.DTM_CHECK.REPLICA_VALID false).setF Fld.DTM_CHECK.MISMATCH
    (Nat.min 0xFFFF (s1.fd Fld.DTM_CHECK.MISMATCH + 1))
  let s3 := (s2.raise { rec_ := 459, cause := 13, cls := 2 }).journal 0x08 0xFF 0 s2.now 0 0 0 []
  s3.failLaunches (fun _ => true) .replica

/-- The check of one Datum second (R16, R17): the replica is compared, or loaded where a reload is due. -/
def State.secondCheck (s : State) : State :=
  if s.dtm.reloadDue then s.replicaLoad
  else if s.datum = s.replica then (s.setB Fld.DTM_CHECK.LAST_OK true).setB Fld.DTM_CHECK.REPLICA_VALID true
  else s.replicaMismatch

/-- DATUM_SECOND_CHECK, once for each Datum second while the link is up. `upset`: the replica as a disturbance has left it, if one
has; `rates`: the line rate that each port receives against the Datum (PRT_RXPPM). -/
def execDatumSecondCheck (upset : Option Datum) (rates : List (Fin 64 × BitVec 32)) (s : State) : Out :=
  .next (s.act (s.coreUp && s.clockUp && s.d2dUp) (fun s => s.once 0 (fun s =>
    let s1 : State := { s with replica := upset.getD s.replica }
    rates.foldl (fun s e => if s.linkUp e.1.val then s.wr .PRT_RXPPM e.1.val e.2 else s) s1.secondCheck)))

/-- D2D_LINK_DOWN: the clock die runs on with no writer; a loss while the core die runs is a genuine one (R17, R259). -/
def execD2dLinkDown (s : State) : Out :=
  .next (s.act (s.coreUp && s.d2dUp) (fun s =>
    let s1 : State := { s with
      d2dUp := false
      replicaOk := false }
    ((s1.setB Fld.DTM_CHECK.REPLICA_VALID false).beginNoWriter).raise { rec_ := 463, cause := 7, cls := 3 }))

/-- D2D_LINK_UP: training completes; the replica is loaded at the next Datum second (R17). -/
def execD2dLinkUp (s : State) : Out :=
  .next (s.act (s.coreUp && s.clockUp && !s.d2dUp) (fun s =>
    { s with
      d2dUp := true
      replicaOk := false
      dtm := { s.dtm with reloadDue := true } }))

/-- POSTED_WRITE_APPLY (R18, R319). -/
def execPostedWriteApply (s : State) : Out := .next (s.act s.clockUp State.flushPosted)

/-- COPY_REFRESH (R318): `pherr` gives the SYN loops' latest phase comparisons (SYN_PHERR). -/
def execCopyRefresh (pherr : List (BitVec 32)) (s : State) : Out :=
  .next (s.act s.clockUp (fun s => ((List.range 16).foldl (fun s i =>
    match pherr[i]? with
    | some v => s.wr .SYN_PHERR i v
    | none => s) s).copyRefresh))

/-! ### The Datum counter (R15, R37) -/

/-- DCLK_TICK (R37). -/
def execDclkTick (s : State) : Out := .next (s.act (s.clockUp && s.pwr.dclk) State.dclkTick)

/-- INC_TAKES_EFFECT (R15). -/
def execIncTakesEffect (s : State) : Out := .next (s.act s.clockUp State.incTake)

/-- STEP_APPLY (R48, R50). -/
def execStepApply (s : State) : Out := .next (s.act s.clockUp State.stepTake)

/-! ### The timeline (R29) -/

/-- The block action of an event: a one-shot of a TIC channel, an alignment as SYNC_IN brings, a GNSS snapshot (R329). -/
def State.blockAction (s : State) (e : Event) : State :=
  match e.target with
  | .oneShot ch => s.osOpen ch s.now
  | .syncIn => s.syncArm
  | .snapshot => s.snapAction e.instant
  | _ => s

/-- TIMELINE_EVENT_FIRE: the first reached event in the order of R29 and R30 fires. -/
def execTimelineEventFire (s : State) : Out :=
  .next (s.act s.clockUp (fun s =>
    match s.firstEvent s.dueEvents with
    | some x => (s.fireEvent x.1 x.2 false false).blockAction x.2
    | none => s))

/-- ARB_IN_DECODE_CHANGE (R337): the code of MAT_STAT.ARB. -/
def execArbInDecodeChange (code : BitVec 2) (s : State) : Out := .next (s.act s.clockUp (fun s => s.arbChange code.toNat))

/-! ### Ownership and isolation (R22, R32) -/

/-- OWN_CLAIM. -/
def execOwnClaim (q : Fin 64) (cid : BitVec 32) (idx : BitVec 16) (s : State) : Out :=
  .next (s.clockCommand q.val cid (fun s =>
    let r := s.claim (.hostQueue q.val) idx.toNat
    (r.1, r.2, 0)))

/-- OWN_RELEASE. -/
def execOwnRelease (q : Fin 64) (cid : BitVec 32) (idx : BitVec 16) (s : State) : Out :=
  .next (s.clockCommand q.val cid (fun s =>
    let r := s.release (.hostQueue q.val) idx.toNat
    (r.1, r.2, 0)))

/-- CLUSTER_ISOLATE: by the cluster's own fault, or by a host command, whose fault names it ISOLATED. -/
def execClusterIsolate (by_ : Option (Fin 64 × BitVec 32)) (c : Fin 16) (s : State) : Out :=
  match by_ with
  | some (q, cid) => .next (s.command q.val cid (fun s =>
      ((s.isolate c.val).raise { rec_ := 208 + c.val, cause := 19, cls := 0 }, .ok, 0)))
  | none => .next (s.act s.coreUp (fun s => s.isolate c.val))

/-- CLUSTER_RESTORE: RANGE for a cluster that is not isolated. -/
def execClusterRestore (q : Fin 64) (cid : BitVec 32) (c : Fin 16) (s : State) : Out :=
  .next (s.command q.val cid (fun s =>
    if s.pwr.isolated.contains c.val then (s.restore c.val, .ok, 0) else (s, .range, 0)))

/-! ### Registers of the Datum block -/

/-- INC_HI_STAGE (R41). -/
def execIncHiStage (v : BitVec 32) (s : State) : Out := .next (s.hostRow .DTM_INC_HI 0 v)

/-- INC_LO_COMMIT (R41 to R43). -/
def execIncLoCommit (v : BitVec 32) (s : State) : Out := .next (s.hostRow .DTM_INC_LO 0 v)

/-- SETTLE_OPEN: a write of DTM_SETTLE_CTL with OPEN (R46). -/
def execSettleOpen (v : BitVec 32) (s : State) : Out := .next (s.hostRow .DTM_SETTLE_CTL 0 (v ||| 0x80000000#32))

/-- SETTLE_CLOSE: a write of DTM_SETTLE_CTL with CLOSE and without OPEN (R47). -/
def execSettleClose (v : BitVec 32) (s : State) : Out :=
  .next (s.hostRow .DTM_SETTLE_CTL 0 ((v ||| 0x40000000#32) &&& 0x7FFFFFFF#32))

/-- SETTLE_TIMEOUT (R47): with a step accepted, the window closes after the step. -/
def execSettleTimeout (s : State) : Out :=
  .next (s.act (s.clockUp && s.settleDue && s.dtm.step.isNone) State.shutSettle)

/-- KINDLING_OPEN (R45). -/
def execKindlingOpen (s : State) : Out := .next s.kindle

/-- DTM_STEP_GO: a write of DTM_STEP_CTL with GO (R48). -/
def execDtmStepGo (v : BitVec 32) (s : State) : Out := .next (s.hostRow .DTM_STEP_CTL 0 (v ||| 1#32))

/-- UTC_OFFSET_WRITE (R53). -/
def execUtcOffsetWrite (v : BitVec 32) (s : State) : Out := .next (s.hostRow .DTM_UTC_OFFSET 0 v)

/-- LEAP_ARM: a write of DTM_LEAP_CTL with ARM (R54). -/
def execLeapArm (v : BitVec 32) (s : State) : Out := .next (s.hostRow .DTM_LEAP_CTL 0 (v ||| 0x80000000#32))

/-- LEAP_CANCEL: a write of DTM_LEAP_CTL with CANCEL and without ARM (R54). -/
def execLeapCancel (v : BitVec 32) (s : State) : Out :=
  .next (s.hostRow .DTM_LEAP_CTL 0 ((v ||| 0x40000000#32) &&& 0x7FFFFFFF#32))

/-- The scheduled change takes effect (R52, R54): the offset, the flags, the journal's LEAP record, DTM_LEAP. -/
def State.leapTake (s : State) (at_ : BitVec 64) (new : BitVec 16) : State :=
  let old := BitVec.ofNat 16 (s.fd Fld.DTM_UTC_OFFSET.OFFSET)
  let s1 := s.setF Fld.DTM_UTC_OFFSET.OFFSET new.toNat
  let w := s1.rg .DTM_UTC_OFFSET 0
  let s2 : State := { s1 with
    dtm := { s1.dtm with leapAt := none, leapHist := .taken, leapDone := some (at_, old) }
    cairn := { s1.cairn with
      leapAt := none
      regs := SMap.set RegKey.ord RegKey.dflt s1.cairn.regs ⟨.DTM_UTC_OFFSET, 0⟩ w } }
  let s3 := ((s2.setB Fld.DTM_UTC_STAT.LEAP_PEND false).setF Fld.DTM_UTC_STAT.NEXT_OFFSET 0).engineFree hLeap true
  (s3.leapFlags.journal 0x09 0xFF 0 (TimeVal.ofSec at_.toNat) 0 0 0 []).irqPulse 100 0

/-- LEAP_TAKE_EFFECT. -/
def execLeapTakeEffect (s : State) : Out :=
  .next (s.act s.clockUp (fun s =>
    match s.dtm.leapAt with
    | some (at_, new) => if s.reached (TimeVal.ofSec at_.toNat) then s.leapTake at_ new else s
    | none => s))

/-- LEAP_DAY_FLAG (R55). -/
def execLeapDayFlag (s : State) : Out := .next (s.act s.clockUp State.leapFlags)

/-- DTM_NOW_READ: a read of DTM_NOW_SEC_HI captures all four words of the copy (R60). -/
def execDtmNowRead (s : State) : Out :=
  .next (s.act (s.coreUp && s.hst.pcieUp) (fun s => { s with dtm := { s.dtm with nowHeld := s.dtm.now } }))

/-- SNAP_GO: a write of DTM_SNAP_CTL with GO (R61). -/
def execSnapGo (v : BitVec 32) (s : State) : Out := .next (s.hostRow .DTM_SNAP_CTL 0 (v ||| 1#32))

/-! ### Threads and images (R63, R86 to R88) -/

/-- STK_ABORT_GO: a write of STK_ABORT. -/
def execStkAbortGo (core : Fin 128) (v : BitVec 32) (s : State) : Out := .next (s.hostRow .STK_ABORT core.val v)

/-- STK_RESTART_GO: a write of STK_RESTART. -/
def execStkRestartGo (core : Fin 128) (v : BitVec 32) (s : State) : Out := .next (s.hostRow .STK_RESTART core.val v)

/-- THREAD_ABORT. -/
def execThreadAbort (q : Fin 64) (cid : BitVec 32) (th : Fin 512) (s : State) : Out :=
  .next (s.command q.val cid (fun s => (s.abortThread th.val, .ok, 0)))

/-- THREAD_RESTART: BUSY for a thread that is neither ABORTED nor FAULTED, or that has no entry. -/
def execThreadRestart (q : Fin 64) (cid : BitVec 32) (th : Fin 512) (s : State) : Out :=
  .next (s.command q.val cid (fun s =>
    match s.restartThread th.val with
    | some s1 => (s1, .ok, 0)
    | none => (s, .busy, 0)))

/-- IMAGE_LOAD. -/
def execImageLoad (q : Fin 64) (cid : BitVec 32) (mask : BitVec 128) (commit : Bool) (file : List Byte) (s : State) : Out :=
  .next (s.command q.val cid (fun s => s.imageLoad mask commit file))

/-- DEBUG_HALT: an INVASIVE debugger stops a READY thread (R63). -/
def execDebugHalt (th : Fin 512) (s : State) : Out :=
  .next (s.act (s.runs th.val && decide (s.pwr.debug = .invasive)) (fun s =>
    s.setThread th.val { (s.thread th.val) with st := .halted }))

/-- DEBUGGER_RESUME. -/
def execDebuggerResume (th : Fin 512) (s : State) : Out :=
  .next (s.act (s.coreUp && decide (s.pwr.debug = .invasive) && decide ((s.thread th.val).st = .halted)) (fun s =>
    s.setThread th.val { (s.thread th.val) with st := .ready }))

end Sys2Proof.Machine
end

