-- ==== Sys2Proof/Machine/Tic.lean ====
section
/-!
DEFINITION. Machine/Tic.lean: the commands of the time-interval counter bank (04_interval_measurement.md).
-/
namespace Sys2Proof.Machine

/-- TIC_IN_WRITE (R89, R90). -/
def execTicInWrite (n : Fin 16) (v : BitVec 32) (s : State) : Out := .next (s.hostRow .TIC_IN n.val v)

/-- A conversion of GNSS time channel `p`: its Table 4.5 terms without the input delay (R192). -/
def State.timeEdge (s : State) (p k : Nat) : State :=
  let c := s.tch (17 + p)
  let e := edgePos c.table k s.thm.clk
  let sum := e.quant + e.stat + e.temp + 6000 * s.clkFactor.getD 1000
  { s with gns := { s.gns with tcTerm := SMap.set id (fun _ => 406000000) s.gns.tcTerm p sum } }

/-- TIC_EDGE: an edge with interpolator code `code` in the present tick. Channels 0 to 15 are the user channels, 16 is channel K,
17 to 20 are the time channels of the GNSS sample ports (R95, R102, R179). -/
def execTicEdge (ch : Fin 21) (code : BitVec 10) (s : State) : Out :=
  .next (s.act (s.clockUp && s.pwr.dclk) (fun s =>
    if ch.val < 16 then s.userEdge ch.val code.toNat
    else if ch.val = 16 then s.keeperEdge code.toNat
    else s.timeEdge (ch.val - 17) code.toNat))

/-- STREAM_SAMPLE_MISSING for the stream of reference entry `r` (R92). -/
def execStreamSampleMissing (r : Fin 8) (s : State) : Out := .next (s.act s.clockUp (fun s => s.streamMissing r.val))

/-- The frequency monitor of one channel at a Datum second (R90): more than 400 M prescaled edges set OVERFREQ. -/
def State.overfreq (s : State) (n : Nat) : State :=
  let c := s.tch n
  (s.setTch n { c with edges := 0 }).setB Fld.TIC_STAT.OVERFREQ (decide (400000000 < c.edges)) n

/-- OVERFREQ_CHECK, once in each Datum second. -/
def execOverfreqCheck (s : State) : Out :=
  .next (s.act s.clockUp (fun s => s.once 1 (fun s => (List.range 16).foldl State.overfreq s)))

/-- TIC_OS_GO: a write of TIC_OSn with GO (R94). -/
def execTicOsGo (n : Fin 16) (v : BitVec 32) (s : State) : Out := .next (s.hostRow .TIC_OS n.val (v ||| 1#32 <<< Fld.TIC_OS.GO.lo))

/-- ONESHOT_CLOSE (R94). -/
def execOneshotClose (n : Fin 16) (s : State) : Out := .next (s.act s.clockUp (fun s => s.osClose n.val))

/-- TIC_CAL_GO: a write of TIC_CFGn with CAL_GO (R101). -/
def execTicCalGo (n : Fin 16) (v : BitVec 32) (s : State) : Out :=
  .next (s.hostRow .TIC_CFG n.val (v ||| 1#32 <<< Fld.TIC_CFG.CAL_GO.lo))

/-- CAL_SCHEDULE (R101): the engine requests a calibration of a channel that is due. -/
def execCalSchedule (ch : Fin 21) (s : State) : Out :=
  .next (s.act (s.clockUp && s.calDue ch.val) (fun s =>
    (s.setTch ch.val { (s.tch ch.val) with started := true }).calRequest ch.val false))

/-- CAL_START (R97). -/
def execCalStart (ch : Fin 21) (s : State) : Out :=
  .next (s.act (s.clockUp && s.calMayStart ch.val) (fun s => s.calStart ch.val))

/-- CAL_COMPLETE (R98 to R100): the source issued `issued` hits, and the codes counted `hits`. -/
def execCalComplete (ch : Fin 21) (issued : Nat) (hits : List Nat) (s : State) : Out :=
  .next (s.act s.clockUp (fun s => s.calComplete ch.val issued hits))

/-- CAL_REFUSED_NO_GAP (R97). -/
def execCalRefusedNoGap (ch : Fin 21) (s : State) : Out := .next (s.act s.clockUp (fun s => s.calRefuse ch.val))

/-- A running coast loses its keeper bridge (R140): KEEPER_DIS is 1 at a moment of it. -/
def State.unbridge (s : State) : State :=
  { s with trv := { s.trv with coast := s.trv.coast.map (fun c => if c.running then { c with noBridge := true } else c) } }

/-- What a keeper deviation brings about (R103, R128): KEEPER_DIS with its KEEPER record at each change, the fault while it
lasts, no bridge and no learning. A second with no measurement (0x8000_0000) shows no disagreement. -/
def State.keeperJudge (s : State) (dev : BitVec 32) : State :=
  let bad := decide (dev ≠ 0x80000000#32 ∧ (s.rg .TIC_KX_ALARM 0).toNat < dev.toInt.natAbs)
  let s1 := if bad = s.fb Fld.ENS_STAT.KEEPER_DIS then s
    else (s.setB Fld.ENS_STAT.KEEPER_DIS bad).journal 0x0B 0xFF 0 s.now 0 0 0 []
  if bad then
    let s2 := (s1.raise { rec_ := 242, cause := 14, cls := 1 }).unbridge
    { s2 with ens := { s2.ens with exclUntil := Nat.max s2.ens.exclUntil s2.now.sec.toNat } }
  else s1

/-- KEEPER_CHECK, once in each Datum second (R103). -/
def execKeeperCheck (s : State) : Out :=
  .next (s.act s.clockUp (fun s => s.once 2 (fun s =>
    let dev := s.keeperDev
    let s1 : State := { s with tic := { s.tic with kFirst := none, kLast := none, kCount := 0 } }
    (s1.wr .TIC_KX_DEV 0 dev).keeperJudge dev)))

/-- TIC_RING_BASE_STAGE: a write of TIC_RING_HIn or TIC_RING_LOn (R322). -/
def execTicRingBaseStage (n : Fin 16) (hi : Bool) (v : BitVec 32) (s : State) : Out :=
  .next (s.hostRow (if hi then .TIC_RING_HI else .TIC_RING_LO) n.val v)

/-- TIC_RING_COMMIT: a write of TIC_RING_SZn (R105). -/
def execTicRingCommit (n : Fin 16) (v : BitVec 32) (s : State) : Out := .next (s.hostRow .TIC_RING_SZ n.val v)

end Sys2Proof.Machine
end

