-- ==== Sys2Proof/Machine/Ens.lean ====
section
/-!
DEFINITION. Machine/Ens.lean: the commands of the ensemble assist, the holdover model and the benchmark journal
(05_ensemble_holdover.md, 06_traverse_bounds.md).
-/
namespace Sys2Proof.Machine

/-- The second that the next processing takes (R411): the one after the last processed, or the one two seconds ago. -/
def State.procSecond (s : State) : Nat :=
  match s.ens.procNext with
  | some n => n
  | none => s.now.sec.toNat - 2

/-- ENS_PROCESS_SECOND: the processing of second n at Datum second n + 2 (R115, R411), and AUTO_OPEN at its end (R221). -/
def execEnsProcessSecond (s : State) : Out :=
  .next (s.act (s.clockUp && s.reached (TimeVal.ofSec (s.procSecond + 2))) (fun s => (s.processSecond s.procSecond).svcAuto))

/-- ENS_REF_CFG_WRITE (R107 to R109). -/
def execEnsRefCfgWrite (r : Fin 32) (v : BitVec 32) (s : State) : Out := .next (s.hostRow .ENS_REF_CFG r.val v)

/-- A register store of a running K thread (R70), with the instruction word `insn`. -/
def State.threadWrite (s : State) (th : Nat) (r : Reg) (i : Nat) (v insn : BitVec 32) : State :=
  s.act (s.runs th && (s.thread th).k) (fun s => (s.progWrite th r i v insn).flushPosted)

/-- ENS_NET_GO: thread `th` submits the staged measurement of entry 16 + j (R111). -/
def execEnsNetGo (j : Fin 16) (th : Fin 512) (v insn : BitVec 32) (s : State) : Out :=
  .next (s.threadWrite th.val .ENS_NET_GO j.val (v ||| 1#32) insn)

/-- REF_ACCEPT_CMD: a write of ENS_REFr_CMD with ACCEPT (R117). -/
def execRefAcceptCmd (r : Fin 32) (v : BitVec 32) (s : State) : Out := .next (s.hostRow .ENS_REF_CMD r.val (v ||| 1#32))

/-- WEIGHT_WRITE: by the host, or by a thread with the word of its store (R119). -/
def execWeightWrite (r : Fin 32) (v : BitVec 32) (by_ : Option (Fin 512 × BitVec 32)) (s : State) : Out :=
  match by_ with
  | some (th, insn) => .next (s.threadWrite th.val .ENS_REF_WEIGHT r.val v insn)
  | none => .next (s.hostRow .ENS_REF_WEIGHT r.val v)

/-- MEAS_DELIVER: the oldest measurement on its way to entry `r` (R411). -/
def execMeasDeliver (r : Fin 32) (s : State) : Out := .next (s.act s.clockUp (fun s => s.measDeliver r.val))

/-- HOLDOVER_COMMIT, once in each Datum second (R125). -/
def execHoldoverCommit (s : State) : Out := .next (s.act s.clockUp (fun s => s.once 3 State.holdCommit))

/-- The instant at which the transfer of a steering word ends (R129): its bits and two chip-select periods of SCK after its
beginning. -/
def State.oscEnd (s : State) (i : Nat) (w : OscWord) : TimeVal :=
  w.at_.plus ((w.bits + 2) * (s.fd Fld.ENS_OSC_CFG.DIV i + 1) * 40 * 2 ^ 32)

/-- OSC_SPI_TRANSFER: the word of interface `i` is transferred and shown in LAST; while the core die is down no word is sent
(R129). -/
def execOscSpiTransfer (i : Fin 2) (s : State) : Out :=
  .next (s.act s.clockUp (fun s =>
    match SMap.find s.ens.osc i.val with
    | none => s
    | some w =>
      let gone : State := { s with ens := { s.ens with osc := SMap.erase s.ens.osc i.val } }
      if !s.coreUp then gone
      else if s.reached (s.oscEnd i.val w) then gone.wr .ENS_OSC_LAST i.val w.code
      else s))

/-- Whether a reading of the external sensor lies from -55 °C to +150 °C (R131). -/
def State.tsnsOk (s : State) (v : Int) : Bool :=
  let u : Int := 2 ^ s.fd Fld.ENS_TSNS_CFG.SCALE
  decide (-55 * u ≤ v ∧ v ≤ 150 * u)

/-- A failed read of the external sensor: the first after a valid one raises the fault (R131). -/
def State.tsnsFail (s : State) : State :=
  let s1 := (s.setB Fld.ENS_TSNS_T.VALID false).setF Fld.ENS_TSNS_T.FAILS (Nat.min 127 (s.fd Fld.ENS_TSNS_T.FAILS + 1))
  if s.fb Fld.ENS_TSNS_T.VALID then s1.raise { rec_ := 461, cause := 31, cls := 1 } else s1

/-- A reading taken, or a read that failed (R131). T is in units of 2^-6 °C, rounded down (DESIGN CHOICE). -/
def State.tsnsRead (s : State) (reading : Option (BitVec 16)) : State :=
  match reading with
  | some w =>
    if s.tsnsOk w.toInt then
      let t : Int := w.toInt * 64 / 2 ^ s.fd Fld.ENS_TSNS_CFG.SCALE
      ((s.setB Fld.ENS_TSNS_T.VALID true).setF Fld.ENS_TSNS_T.FAILS 0).setF Fld.ENS_TSNS_T.T (BitVec.ofInt 16 t).toNat
    else s.tsnsFail
  | none => s.tsnsFail

/-- TEMP_SENSOR_READ: once in each Datum second from 500 ms after it. `reading`: the two octets, or none when the slave did not
acknowledge or held the clock. -/
def execTempSensorRead (reading : Option (BitVec 16)) (s : State) : Out :=
  .next (s.act (s.clockUp && s.fb Fld.ENS_TSNS_CFG.EN && decide (500000000 ≤ s.now.ns.toNat)) (fun s =>
    s.once 4 (fun s => s.tsnsRead reading)))

/-- JOURNAL_COMMIT, once in each Datum second (R148). -/
def execJournalCommit (s : State) : Out := .next (s.act s.clockUp (fun s => s.once 5 State.journalCommit))

/-- JNL_ACK_HI_STAGE (R149). -/
def execJnlAckHiStage (v : BitVec 32) (s : State) : Out := .next (s.hostRow .TRV_JNL_ACK_HI 0 v)

/-- JNL_ACK_COMMIT: a write of TRV_JNL_ACK_LO (R149). -/
def execJnlAckCommit (v : BitVec 32) (s : State) : Out := .next (s.hostRow .TRV_JNL_ACK_LO 0 v)

end Sys2Proof.Machine
end

