-- ==== Sys2Proof/Machine/Syn.lean ====
section
/-!
DEFINITION. Machine/Syn.lean: the commands of clock synthesis (07_clock_synthesis.md).
-/
namespace Sys2Proof.Machine

/-! ### Loops -/

/-- FCW_STAGE: a write of SYN_FCW_NUMn or SYN_FCW_INTn (R153). -/
def execFcwStage (n : Fin 16) (num : Bool) (v : BitVec 32) (s : State) : Out :=
  .next (s.hostRow (if num then .SYN_FCW_NUM else .SYN_FCW_INT) n.val v)

/-- FCW_COMMIT: a write of SYN_FCW_DENn (R153, R159). -/
def execFcwCommit (n : Fin 16) (v : BitVec 32) (s : State) : Out := .next (s.hostRow .SYN_FCW_DEN n.val v)

/-- SYN0_SRC_WRITE: a write of SYN0_SRC_FREQ or SYN0_SRC (R154, R165). -/
def execSyn0SrcWrite (freq : Bool) (v : BitVec 32) (s : State) : Out :=
  .next (s.hostRow (if freq then .SYN0_SRC_FREQ else .SYN0_SRC) 0 v)

/-- SYN_SEARCH_CMD: a write of SYN_CMDn with SEARCH (R159). -/
def execSynSearchCmd (n : Fin 16) (v : BitVec 32) (s : State) : Out := .next (s.hostRow .SYN_CMD n.val (v ||| 2#32))

/-- SYN0_ACCEPT_CMD: a write of SYN_CMD0 with ACCEPT (R165). -/
def execSyn0AcceptCmd (v : BitVec 32) (s : State) : Out := .next (s.hostRow .SYN_CMD 0 (v ||| 1#32))

/-- LOOP_HOP_DONE (R159): ACQUIRE follows. -/
def execLoopHopDone (n : Fin 16) (s : State) : Out :=
  .next (s.act (s.clockUp && decide (s.loopState n.val = 2)) (fun s => s.setLoopState n.val 3))

/-- A search that found a band and a fine code, or none (R159, R161). -/
def State.searchDone (s : State) (n : Nat) (found : Option (Fin 64 × Fin 1024)) : State :=
  match found with
  | some x => ((s.setF Fld.SYN_LSTAT.BAND x.1.val n).setF Fld.SYN_LSTAT.FINE x.2.val n).setLoopState n 3
  | none =>
    ((s.setLoopState n 0).setB Fld.SYN_WSTAT.HOP_FAIL true).raise { rec_ := 251 + n, cause := 6, cls := if loopFixed n then 2 else 1 }

/-- LOOP_SEARCH_DONE. -/
def execLoopSearchDone (n : Fin 16) (found : Option (Fin 64 × Fin 1024)) (s : State) : Out :=
  .next (s.act (s.clockUp && decide (s.loopState n.val = 1)) (fun s => s.searchDone n.val found))

/-- LOOP_LOCK (R162). -/
def execLoopLock (n : Fin 16) (s : State) : Out := .next (s.act s.clockUp (fun s => s.loopLock n.val))

/-- A coast begins (R162, R163). A loop other than SYN0 has no reference to lose; SYN0's reference lost again while it coasts ends
the qualification that ran. -/
def State.loopLost (s : State) (n cause : Nat) : State :=
  if cause = 0 ∨ (n ≠ 0 ∧ cause ≤ 2) then s
  else if s.loopState n = 4 then s.coastEntry n cause
  else if n = 0 ∧ s.loopState 0 = 5 ∧ cause ≤ 2 then { s with syn := { s.syn with qual := none } }
  else s

/-- LOOP_COAST_ENTRY, with the code of SYN_STATn.CAUSE. -/
def execLoopCoastEntry (n : Fin 16) (cause : Fin 5) (s : State) : Out :=
  .next (s.act s.clockUp (fun s => s.loopLost n.val cause.val))

/-- SYN0_REFERENCE_RETURN (R165): a coasting SYN0 begins its qualification, unless REJECT holds; after a start on the keeper
crystal, SYN0 coasts to change its source (R384). -/
def execSyn0ReferenceReturn (s : State) : Out :=
  .next (s.act (s.clockUp && s.syn.qual.isNone && !s.fb Fld.SYN_LSTAT.REJECT 0) (fun s =>
    if s.loopState 0 = 5 then s.startQual false
    else if s.loopState 0 = 4 ∧ s.fb Fld.PWR_STAT.SRC_FALLBACK then (s.coastEntry 0 0).startQual true
    else s))

/-- SYN0_QUAL_END (R165): `dy` is the departure measured, in 10^-12. -/
def execSyn0QualEnd (dy : Int) (s : State) : Out := .next (s.act s.clockUp (fun s => s.qualEnd dy))

/-- SYN0_SRC_FALLBACK (R384): SYN0, still in acquisition with DCLK stopped, takes the keeper crystal for this start. -/
def execSyn0SrcFallback (s : State) : Out :=
  .next (s.act (s.clockUp && !s.pwr.dclk && decide (s.loopState 0 = 3) && decide (s.fd Fld.SYN0_SRC.SEL ≠ 8)
      && !s.fb Fld.PWR_STAT.SRC_FALLBACK) (fun s => (s.syn0Fcw 50000000 0).setB Fld.PWR_STAT.SRC_FALLBACK true))

/-- SYN_PHASE_WRITE (R166). -/
def execSynPhaseWrite (n : Fin 16) (v : BitVec 32) (s : State) : Out := .next (s.hostRow .SYN_PHASE n.val v)

/-! ### CLKOUT and SYNC_IN -/

/-- DIV_HI_STAGE (R322). -/
def execDivHiStage (k : Fin 24) (v : BitVec 32) (s : State) : Out := .next (s.hostRow .SYN_OUT_DIV_HI k.val v)

/-- DIV_COMMIT: a write of SYN_OUTk_DIV_LO (R167). -/
def execDivCommit (k : Fin 24) (v : BitVec 32) (s : State) : Out := .next (s.hostRow .SYN_OUT_DIV_LO k.val v)

/-- DIVIDER_ALIGNMENT: every alignment whose Datum second has been reached (R168, R170). -/
def execDividerAlignment (s : State) : Out := .next (s.act (s.clockUp && s.pwr.dclk) State.alignDue)

/-- CLKOUT_EN_WRITE: a write of SYN_OUTk_CFG (R169). -/
def execClkoutEnWrite (k : Fin 24) (v : BitVec 32) (s : State) : Out := .next (s.hostRow .SYN_OUT_CFG k.val v)

/-- SYNC_IN_EDGE: an edge of the selected polarity arms an alignment while EN is 1 (R170). -/
def execSyncInEdge (falling : Bool) (s : State) : Out :=
  .next (s.act (s.clockUp && s.fb Fld.SYN_SYNC_CTL.EN && decide (s.fb Fld.SYN_SYNC_CTL.EDGE = falling)) State.syncArm)

/-! ### PPSOUT and TOD -/

/-- PPS_EDGE (R171, R172). -/
def execPpsEdge (j : Fin 4) (s : State) : Out := .next (s.act (s.clockUp && s.pwr.dclk) (fun s => s.ppsEdge j.val))

/-- PPS_CFG_TAKE_EFFECT (R171). -/
def execPpsCfgTakeEffect (j : Fin 4) (s : State) : Out := .next (s.act s.clockUp (fun s => s.ppsTake j.val))

/-- PPS_COMP_WRITE (R171). -/
def execPpsCompWrite (j : Fin 4) (v : BitVec 32) (s : State) : Out := .next (s.hostRow .SYN_PPS_COMP j.val v)

/-- TOD_MESSAGE (R173). -/
def execTodMessage (k : Fin 2) (s : State) : Out := .next (s.act (s.clockUp && s.pwr.dclk) (fun s => s.todSend k.val))

end Sys2Proof.Machine
end

