-- ==== Sys2Proof/Machine/Gns.lean ====
section
/-!
DEFINITION. Machine/Gns.lean: the commands of the GNSS timing baseband (08_gnss_baseband.md).
-/
namespace Sys2Proof.Machine

/-- Whether the baseband runs: the clock die is up and the region of the baseband is not gated (R367). -/
def State.gnssUp (s : State) : Bool := s.clockUp && !s.pwr.gatedGnss

/-! ### Sample ports and the front ends -/

/-- GNS_SP_CFG_WRITE (R179). -/
def execGnsSpCfgWrite (p : Fin 4) (v : BitVec 32) (s : State) : Out := .next (s.hostRow .GNS_SP_CFG p.val v)

/-- SP_RATE_CHECK, once in each Datum second: the pairs of port `p` show the rate `hz` (R179). -/
def execSpRateCheck (p : Fin 4) (hz : Nat) (s : State) : Out :=
  .next (s.act s.gnssUp (fun s => s.once (10 + p.val) (fun s => s.rateCheck p.val hz)))

/-- SP_POWER_CHECK, once in each Datum second: the mean power of port `p` in tenths of a decibel below full scale (R180). -/
def execSpPowerCheck (p : Fin 4) (pwr : BitVec 16) (s : State) : Out :=
  .next (s.act s.gnssUp (fun s => s.once (14 + p.val) (fun s => s.powerCheck p.val pwr)))

/-- GNS_CTL_GO: a write of GNS_CTL_CMD with GO (R181). -/
def execGnsCtlGo (v : BitVec 32) (s : State) : Out := .next (s.hostRow .GNS_CTL_CMD 0 (v ||| 0x80000000#32))

/-- GNS_CTL_DONE: the transfer ends, with the bits sampled on MISO (R181). -/
def execGnsCtlDone (miso : BitVec 32) (s : State) : Out := .next (s.act s.clockUp (fun s => s.ctlDone miso))

/-! ### Acquisition, solutions, antennas -/

/-- ACQ_JOB_DONE (R184): the running job found its satellite, with C/N0 and elevation, or did not. An audit's job ends with
AUDIT_COMPLETE. -/
def execAcqJobDone (found : Option (Nat × Nat)) (s : State) : Out :=
  .next (s.act s.gnssUp (fun s =>
    match s.gns.job with
    | some j => if j.level = 1 then s else s.acqDone found
    | none => s))

/-- ACQ_ABORT: a write of GNS_ACQ_CTL with ABORT (R185). -/
def execAcqAbort (v : BitVec 32) (s : State) : Out := .next (s.hostRow .GNS_ACQ_CTL 0 (v ||| 0x80000000#32))

/-- EPOCH_LATCH (R187 to R194): `obs` is what the channels give at this Datum second. -/
def execEpochLatch (obs : List GnsObs) (s : State) : Out := .next (s.act s.gnssUp (fun s => s.epoch obs))

/-- ANT_FLT_CHANGE: the pin's level (R194). -/
def execAntFltChange (a : Fin 4) (level : Bool) (s : State) : Out := .next (s.act s.clockUp (fun s => s.antFlt a.val level))

/-- The position registers of an antenna: X, Y, Z and the uncertainty. -/
def posReg (i : Fin 4) : Reg :=
  if i = 0 then .GNS_ANT_POS_X else if i = 1 then .GNS_ANT_POS_Y else if i = 2 then .GNS_ANT_POS_Z else .GNS_ANT_POS_U

/-- ANT_POS_WRITE (R191). -/
def execAntPosWrite (a : Fin 4) (which : Fin 4) (v : BitVec 32) (s : State) : Out := .next (s.hostRow (posReg which) a.val v)

/-- ANT_SIG_WRITE: a write of GNS_ANTa_CFG (R182). -/
def execAntSigWrite (a : Fin 4) (v : BitVec 32) (s : State) : Out := .next (s.hostRow .GNS_ANT_CFG a.val v)

/-! ### The time floor -/

/-- TIME_FLOOR_HI_STAGE (R322). -/
def execTimeFloorHiStage (v : BitVec 32) (s : State) : Out := .next (s.hostRow .GNS_TIME_FLOOR_HI 0 v)

/-- TIME_FLOOR_COMMIT (R190). -/
def execTimeFloorCommit (v : BitVec 32) (s : State) : Out := .next (s.hostRow .GNS_TIME_FLOOR_LO 0 v)

/-- TIME_FLOOR_RAISE, once a day (R190). -/
def execTimeFloorRaise (s : State) : Out := .next (s.act s.clockUp State.floorRaise)

/-! ### Snapshots and the audit -/

/-- GNS_SNAP_GO: a write of GNS_SNAP_CTL with GO (R195). -/
def execGnsSnapGo (v : BitVec 32) (s : State) : Out := .next (s.hostRow .GNS_SNAP_CTL 0 (v ||| 0x80000000#32))

/-- SNAPSHOT_START (R195). -/
def execSnapshotStart (s : State) : Out := .next (s.act s.clockUp State.snapStart)

/-- SNAPSHOT_CAPTURE_END (R195), with the samples as the buffer holds them. -/
def execSnapshotCaptureEnd (data : List Byte) (s : State) : Out := .next (s.act s.gnssUp (fun s => s.captureEnd data))

/-- AUDIT_SCHEDULE (R196). -/
def execAuditSchedule (s : State) : Out := .next (s.act s.gnssUp State.auditSchedule)

/-- AUDIT_COMPLETE (R196): the code-phase differences of the satellites found in both records. -/
def execAuditComplete (ds : List AuditDelta) (s : State) : Out := .next (s.act s.gnssUp (fun s => s.auditDone ds))

/-- EPHEMERIS_COMMIT, once an hour (R184). -/
def execEphemerisCommit (s : State) : Out := .next (s.act s.clockUp State.ephCommit)

end Sys2Proof.Machine
end

