-- ==== Sys2Proof/Machine/Prt.lean ====
section
/-!
DEFINITION. Machine/Prt.lean: the commands of the ports (09_ports_timestamping.md).
-/
namespace Sys2Proof.Machine

/-- PRT_CFG_WRITE (R197 to R200). -/
def execPrtCfgWrite (n : Fin 64) (v : BitVec 32) (s : State) : Out := .next (s.hostRow .PRT_CFG n.val v)

/-- PRT_CAL_GO: a write of PRT_CAL_CTL with GO (R216). -/
def execPrtCalGo (n : Fin 64) (v : BitVec 32) (s : State) : Out :=
  .next (s.hostRow .PRT_CAL_CTL n.val (v ||| 1#32 <<< Fld.PRT_CAL_CTL.GO.lo))

/-- PORT_CAL_DONE (R216): the span of the 16 measurements and the delays d_tx and d_rx, in fs. -/
def execPortCalDone (n : Fin 64) (span tx rx : Nat) (s : State) : Out :=
  .next (s.act s.coreUp (fun s => s.portCalEnd n.val span tx rx))

/-- LINK_UP (R200, R208): where the launch points lie, and the received line rate. -/
def execLinkUp (n : Fin 64) (phase : Nat) (rate : BitVec 32) (s : State) : Out :=
  .next (s.act s.coreUp (fun s => s.portUp n.val phase rate))

/-- LINK_DOWN: the line loses the link (R200); a frame that is leaving leaves. -/
def execLinkDown (n : Fin 64) (s : State) : Out :=
  .next (s.act (s.coreUp && s.linkUp n.val) (fun s => (s.portDown n.val false).raise { rec_ := n.val, cause := 7, cls := 0 }))

/-- FRAME_RECEIVE (R201 to R204, R207, R211, R212): the octets from the destination address to the end of the FCS, whether a code
or block error fell within them, the ingress timestamp at the ball, and T_rx of R212. -/
def execFrameReceive (n : Fin 64) (data : List Byte) (codeErr : Bool) (at_ trx : TimeVal) (s : State) : Out :=
  .next (s.act s.coreUp (fun s => s.frameIn n.val data codeErr at_ trx))

/-- FRAME_TO_POOL (R204): waiting frames move once cells are free. -/
def execFrameToPool (n : Fin 64) (s : State) : Out :=
  .next (s.act s.coreUp (fun s => s.rxDrain n.val (s.port n.val).rx.length))

/-- PAUSE_TAKE_EFFECT at T_act (R212). -/
def execPauseTakeEffect (n : Fin 64) (s : State) : Out := .next (s.act s.coreUp (fun s => s.pauseTake n.val))

/-- PAUSE_END at T_end (R212). -/
def execPauseEnd (n : Fin 64) (s : State) : Out := .next (s.act s.coreUp (fun s => s.pauseEnd n.val))

/-- TX_FRAME_START (R205, R206). -/
def execTxFrameStart (n : Fin 64) (s : State) : Out := .next (s.act s.coreUp (fun s => s.txStart n.val))

/-- TX_FRAME_END (R206, R83). -/
def execTxFrameEnd (n : Fin 64) (s : State) : Out := .next (s.act s.coreUp (fun s => s.txEnd n.val))

/-- LAUNCH_DECIDE at the frame start F (R209). -/
def execLaunchDecide (n : Fin 64) (s : State) : Out := .next (s.act s.coreUp (fun s => s.launchDecide n.val))

end Sys2Proof.Machine
end

