-- ==== Sys2Proof/Machine/Svc.lean ====
section
/-!
DEFINITION. Machine/Svc.lean: the commands of the time service (10_time_service.md): the host's writes, and the steps of the
standard image.
-/
namespace Sys2Proof.Machine

/-- SVC_OPEN: a write of SVC_CTL with OPEN and without CLOSE (R221). -/
def execSvcOpen (v : BitVec 32) (s : State) : Out := .next (s.hostRow .SVC_CTL 0 ((v ||| 0x80000000#32) &&& 0xBFFFFFFF#32))

/-- SVC_CLOSE: a write of SVC_CTL with CLOSE and without OPEN (R222). -/
def execSvcClose (v : BitVec 32) (s : State) : Out := .next (s.hostRow .SVC_CTL 0 ((v ||| 0x40000000#32) &&& 0x7FFFFFFF#32))

/-- SVC_TALLY_WRITE: a K program's store to SVC_TALLY (R248). -/
def execSvcTallyWrite (th : Fin 512) (v insn : BitVec 32) (s : State) : Out := .next (s.threadWrite th.val .SVC_TALLY 0 v insn)

/-- SIGNALING_REQUEST: frame `h`, received on port `n` (R229). -/
def execSignalingRequest (n : Fin 64) (h : BitVec 32) (s : State) : Out :=
  .next (s.act s.coreUp (fun s => s.signalServe n.val h.toNat))

/-- SHED_LEVEL_LOWER, at each Datum second (R246). -/
def execShedLevelLower (s : State) : Out := .next s.shedLower

/-- GRANT_CANCEL_SPREAD: the next cancellation that is due (R247). -/
def execGrantCancelSpread (s : State) : Out := .next (s.act s.coreUp State.cancelSpread)

/-- CLIENT_RECORD_FREE: record `i` of the table, at a processed second (R226). -/
def execClientRecordFree (i : BitVec 22) (s : State) : Out := .next (s.recordFree i.toNat)

/-- DELAY_REQ_SERVE: frame `h`, received on port `n` (R240). -/
def execDelayReqServe (n : Fin 64) (h : BitVec 32) (s : State) : Out :=
  .next (s.act s.coreUp (fun s => s.delayServe n.val h.toNat))

/-- NTP_REQUEST (R233). -/
def execNtpRequest (n : Fin 64) (h : BitVec 32) (s : State) : Out := .next (s.act s.coreUp (fun s => s.ntpServe n.val h.toNat))

/-- NTS_REQUEST (R236). -/
def execNtsRequest (n : Fin 64) (h : BitVec 32) (s : State) : Out := .next (s.act s.coreUp (fun s => s.ntsServe n.val h.toNat))

/-- LAUNCH_REISSUE: thread `th` of port `n`, for frame `h` (R214). -/
def execLaunchReissue (th : Fin 512) (n : Fin 64) (h : BitVec 32) (s : State) : Out :=
  .next (s.act s.coreUp (fun s => s.reissue th.val n.val h.toNat))

end Sys2Proof.Machine
end

