-- ==== Sys2Proof/Machine/Flt.lean ====
section
/-!
DEFINITION. Machine/Flt.lean: the commands of the fault store, the escalation ladder and the Damper (11_damper_faults.md).
-/
namespace Sys2Proof.Machine

/-- FAULT_N_PULSE_END: 100 µs after the latest MAJOR or CRITICAL raise (R261). -/
def execFaultNPulseEnd (s : State) : Out := .next (s.act s.clockUp State.pulseEnd)

/-- FLT_PIN_HOLD_WRITE (R261). -/
def execFltPinHoldWrite (v : BitVec 32) (s : State) : Out := .next (s.hostRow .FLT_PIN_HOLD 0 v)

/-- FLT_ACK: a write of FLT_RECi_CTL with ACK and without CLEAR (R262). -/
def execFltAck (i : Fin 472) (v : BitVec 32) (s : State) : Out :=
  .next (s.hostRow .FLT_REC_CTL i.val ((v ||| 1#32) &&& ~~~2#32))

/-- FLT_CLEAR: a write of FLT_RECi_CTL with CLEAR (R262). -/
def execFltClear (i : Fin 472) (v : BitVec 32) (s : State) : Out :=
  .next (s.hostRow .FLT_REC_CTL i.val (v ||| 2#32))

/-- GRACE_EXPIRY: record `i`'s timer has reached its instant unacknowledged (R263, R264). -/
def execGraceExpiry (i : Fin 472) (s : State) : Out := .next (s.act s.clockUp (fun s => s.graceExpiry i.val))

/-- FLT_ESC_RELEASE: a write of FLT_ESC with RELEASE (R268). -/
def execFltEscRelease (v : BitVec 32) (s : State) : Out := .next (s.hostRow .FLT_ESC 0 (v ||| 0x80000000#32))

/-- DMP_DFDT_WRITE (R252). -/
def execDmpDfdtWrite (v : BitVec 32) (s : State) : Out := .next (s.hostRow .DMP_MAX_DFDT 0 v)

/-- DMP_QCEIL_WRITE: the ceiling of queue `qn` of port `n` (R254). -/
def execDmpQceilWrite (n : Fin 64) (qn : Fin 8) (v : BitVec 32) (s : State) : Out :=
  .next (s.hostRow .DMP_QCEIL (bucketIdx n.val qn.val) v)

end Sys2Proof.Machine
end

