-- ==== Sys2Proof/Machine/Key.lean ====
section
/-!
DEFINITION. Machine/Key.lean: the commands of the key store and attestation (12_keys_attestation.md).
-/
namespace Sys2Proof.Machine

/-- A host command that answers with octets: BUFFER where the host's buffer is too short for them. -/
def State.give (s : State) (q : Nat) (buflen : Nat) (bs : List Byte) (result : Nat) : State × Status × Nat :=
  if buflen < bs.length then (s, .buffer, 0) else (s.output q bs, .ok, result)

/-- KEY_UPDATE: an envelope that fails a check is refused; one that passes waits for its application (R280). -/
def execKeyUpdate (q : Fin 64) (cid : BitVec 32) (data : List Byte) (s : State) : Out :=
  .next (s.act (s.canStart q.val) (fun s =>
    let s1 := s.fetchCmd q.val
    let slot := leAt data 7 1
    match s1.envCheck data with
    | .inl reason => (s1.envRefuse reason slot).complete q.val cid .refused reason
    | .inr r => s1.envBegin ⟨q.val, cid, slot, r⟩))

/-- ENVELOPE_APPLY (R281): the command completes with OK. -/
def execEnvelopeApply (s : State) : Out :=
  .next (s.act s.coreUp (fun s =>
    match s.key.env with
    | some x => (s.envApply x).complete x.q x.cid .ok 0
    | none => s))

/-- KEY_ABORT_GO: a write of KEY_ABORT with GO (R282). -/
def execKeyAbortGo (v : BitVec 32) (s : State) : Out := .next (s.hostRow .KEY_ABORT 0 (v ||| 1#32))

/-- ATTEST (R285). -/
def execAttest (q : Fin 64) (cid : BitVec 32) (nonce : BitVec 256) (buflen : BitVec 32) (s : State) : Out :=
  .next (s.command q.val cid (fun s =>
    let st := s.attestation (leBytes 32 nonce.toNat)
    s.give q.val buflen.toNat st st.length))

/-- CERT_READ (R272): BUFFER, with the length all the same, where the buffer is short (R328). -/
def execCertRead (q : Fin 64) (cid : BitVec 32) (buflen : BitVec 32) (s : State) : Out :=
  .next (s.command q.val cid (fun s =>
    let c := Config.identityCert
    ((s.give q.val buflen.toNat c 0).1, (s.give q.val buflen.toNat c 0).2.1, c.length)))

/-- COOKIE_SEAL (R237, R328, R329): `count` cookies of a class over the C2S and S2C keys, sealed by the controller's own nonces under
generation COOKIE_CUR; NO_RESOURCE also where its slot holds no ENCRYPT_ONLY key (DESIGN CHOICE). -/
def State.cookieSeal (s : State) (q cls count : Nat) (keys : List Byte) (buflen : Nat) : State × Status × Nat :=
  let g := s.fd Fld.SVC_CTL.COOKIE_CUR
  if keys.length ≠ 64 ∨ buflen < count * 132 then (s, .buffer, 0)
  else if count = 0 ∨ 8 < count then (s, .range, 0)
  else if s.fd Fld.KEY_STAT.STATE = 2 then (s, .refused, 0x0A)
  else if !s.fb Fld.SVC_COOKIE_SLOTS.VALID g then (s, .noResource, 0)
  else match s.slotKey (s.fd Fld.SVC_COOKIE_SLOTS.ENC g) with
    | none => (s, .noResource, 0)
    | some k =>
      if k.attr ≠ 1 then (s, .noResource, 0)
      else
        let r := s.makeCookies 16 cls g k.key (sliceAt keys 0 32) (sliceAt keys 32 32) count
        (r.2.output q r.1.flatten, .ok, 0)

/-- COOKIE_SEAL. -/
def execCookieSeal (q : Fin 64) (cid : BitVec 32) (cls : Fin 8) (count : BitVec 8) (keys : List Byte) (buflen : BitVec 32) (s : State) :
    Out :=
  .next (s.command q.val cid (fun s => s.cookieSeal q.val cls.val count.toNat keys buflen.toNat))

end Sys2Proof.Machine
end

