-- ==== Sys2Proof/Machine/Irq.lean ====
section
/-!
DEFINITION. Machine/Irq.lean: the commands of the interrupt controller and the performance counters (13_interrupts_counters.md).
-/
namespace Sys2Proof.Machine

/-! ### Interrupts -/

/-- Whether a source has a pulse line (Table 13.1): neither a level line, nor reserved, nor a source that only a doorbell raises. -/
def irqPulsed (n : Nat) : Bool := decide (80 ≤ n ∧ n < 192) && !irqReserved n && decide (n ≠ 98 ∧ n ≠ 107)

/-- IRQ_SOURCE_EDGE: a pulse on the status line of source `n` (R288). A level line rises with its condition, in the command that
makes the condition true. -/
def execIrqSourceEdge (n : Fin 512) (detail : BitVec 8) (s : State) : Out :=
  .next (s.act (s.coreUp && irqPulsed n.val) (fun s => s.irqPulse n.val detail.toNat))

/-- IRQ_SRC_CFG_WRITE (R288). -/
def execIrqSrcCfgWrite (n : Fin 512) (v : BitVec 32) (s : State) : Out := .next (s.hostRow .IRQ_SRC_CFG n.val v)

/-- IRQ_DOORBELL (R289). -/
def execIrqDoorbell (v : BitVec 32) (s : State) : Out := .next (s.hostRow .IRQ_DOORBELL 0 v)

/-- IRQ_PEND_SET (R290). -/
def execIrqPendSet (v : BitVec 32) (s : State) : Out := .next (s.hostRow .IRQ_PEND_SET 0 v)

/-- IRQ_PEND_CLR (R290). -/
def execIrqPendClr (v : BitVec 32) (s : State) : Out := .next (s.hostRow .IRQ_PEND_CLR 0 v)

/-- IRQ_GEN_WRITE: a write of IRQ_CTL (R290). -/
def execIrqGenWrite (v : BitVec 32) (s : State) : Out := .next (s.hostRow .IRQ_CTL 0 v)

/-- IRQ_ISSUE: one arbitration for a target (R291, R293). -/
def execIrqIssue (tgt : BitVec 16) (s : State) : Out := .next (s.irqArbitrate tgt.toNat)

/-- IRQ_CLAIM_READ: a host read of IRQ_CLAIMv (R294). -/
def execIrqClaimRead (vec : Fin 2048) (s : State) : Out := .next (s.act s.hst.pcieUp (fun s => s.irqClaim vec.val))

/-- IRQ_EOI: a write of IRQ_EOIv (R294). -/
def execIrqEoi (vec : Fin 2048) (v : BitVec 32) (s : State) : Out := .next (s.hostRow .IRQ_EOI vec.val v)

/-- IRQ_TGT_WRITE (R297). -/
def execIrqTgtWrite (n : Fin 512) (v : BitVec 32) (s : State) : Out := .next (s.hostRow .IRQ_SRC_TGT n.val v)

/-- IRQ_TARGET_TIMEOUT (R298). -/
def execIrqTargetTimeout (n : Fin 512) (s : State) : Out := .next (s.irqTimeout n.val)

/-! ### Performance counters -/

/-- PMC_COUNTER_WRAP: counter `ctr` of cluster `c` goes from 2^48 - 1 to 0; `smp` is the instruction that a sampling counter's
record describes (R301, R304). -/
def execPmcCounterWrap (c : Fin 16) (ctr : Fin 80) (smp : PmcSample) (s : State) : Out :=
  .next (s.act (s.coreUp && s.pmcOn c.val ctr.val) (fun s => s.pmcWrap c.val ctr.val smp))

/-- PMC_MIRROR_UPDATE (R307). -/
def execPmcMirrorUpdate (c : Fin 16) (k : Fin 8) (s : State) : Out :=
  .next (s.act s.coreUp (fun s => s.pmcMirror c.val k.val))

end Sys2Proof.Machine
end

