-- ==== Sys2Proof/Machine/Hst.lean ====
section
/-!
DEFINITION. Machine/Hst.lean: the commands of the host interface (14_host_registers.md).
-/
namespace Sys2Proof.Machine

/-! ### Register writes and queues -/

/-- TOP_UNLOCK_WRITE (R314). -/
def execTopUnlockWrite (v : BitVec 32) (s : State) : Out := .next (s.hostRow .TOP_UNLOCK 0 v)

/-- REGISTER_WRITE: a host write of `size` octets at an offset of BAR0 (R309, R315, R319). -/
def execRegisterWrite (off : BitVec 25) (size : Nat) (v : BitVec 64) (s : State) : Out := .next (s.bar0Write off.toNat size v)

/-- QUEUE_EN_WRITE: a write of HST_Qq_CFG (R323). -/
def execQueueEnWrite (q : Fin 64) (v : BitVec 32) (s : State) : Out := .next (s.hostRow .HST_Q_CFG q.val v)

/-- SQ_TAIL_DOORBELL (R324). -/
def execSqTailDoorbell (q : Fin 64) (v : BitVec 32) (s : State) : Out := .next (s.hostRow .HST_Q_SQ_TAIL q.val v)

/-- CQ_HEAD_WRITE (R324). -/
def execCqHeadWrite (q : Fin 64) (v : BitVec 32) (s : State) : Out := .next (s.hostRow .HST_Q_CQ_HEAD q.val v)

/-- HST_ABORT_GO: a write of HST_ABORT with GO; `cids` are the tags of the queue's commands that have not started (R330). -/
def execHstAbortGo (v : BitVec 32) (cids : List (BitVec 32)) (s : State) : Out :=
  let x := s.front .HST_ABORT 0
  .next (if x.2 then x.1.hstAbort (v ||| 0x80000000#32) cids else x.1)

/-- PCIE_LINK_LOSS (R311). -/
def execPcieLinkLoss (kind : PcieLoss) (s : State) : Out := .next (s.act (s.coreUp && s.hst.pcieUp) (fun s => s.hostLoss kind))

/-- BAR2_ACCESS (R310). -/
def execBar2Access (off : BitVec 26) (acc : Bar2Acc) (s : State) : Out := .next (s.act s.hst.pcieUp (fun s => s.bar2 off.toNat acc))

/-- DDR_SCRUB_READ (R331, R332). -/
def execDdrScrubRead (ch : Fin 2) (addr : BitVec 64) (found : ScrubResult) (s : State) : Out :=
  .next (s.scrub ch.val addr.toNat found)

/-! ### Timeline commands -/

/-- What an arm word names (R329): the event, whether its kind admits no late firing, and the ownership entry of a block action;
none where a field lies outside the rule. -/
def armTarget (at_ : TimeVal) (w : BitVec 64) : Option (Event × Bool × Option Nat) :=
  let kind := (w.extractLsb' 16 3).toNat
  let t := (w.extractLsb' 20 9).toNat
  let tkind := (w.extractLsb' 29 3).toNat
  if w.extractLsb' 32 32 ≠ 0 then none
  else if tkind = 0 then (if kind ≤ 1 then some (⟨at_, .thread t, decide (kind = 1)⟩, false, none) else none)
  else if tkind = 1 then (if kind ≤ 1 ∧ 256 ≤ t then some (⟨at_, .source t, decide (kind = 1)⟩, false, none) else none)
  else if tkind = 2 then
    if t < 16 then some (⟨at_, .oneShot t, false⟩, false, some t)
    else if t = 16 then some (⟨at_, .syncIn, false⟩, true, some 80)
    else if t = 17 then some (⟨at_, .snapshot, false⟩, false, none)
    else none
  else none

/-- TL_ARM with its arm word (R56, R328, R329): a block action on a resource that the queue does not own is NOT_OWNER. -/
def State.tlArm (s : State) (q : Nat) (at_ : TimeVal) (w : BitVec 64) : State × Status × Nat :=
  let p : Party := .hostQueue q
  match armTarget at_ w with
  | none => (s, .range, 0)
  | some (e, fixed, res) =>
    if (match res with
        | some o => !s.owns p o
        | none => false) then (s, .notOwner, 0)
    else
      let r := s.arm p (w.extractLsb' 0 16).toNat e (w.getLsbD 19) fixed
      (if r.2 = .late then r.1.blockAction e else r.1, r.2, 0)

/-- TL_ARM. -/
def execTlArm (q : Fin 64) (cid : BitVec 32) (at_ : TimeVal) (word : BitVec 64) (s : State) : Out :=
  .next (s.clockCommand q.val cid (fun s => s.tlArm q.val at_ word))

/-- TL_CANCEL (R58): of an event, or of a launch in a slot whose block the queue has come to own (R410). -/
def execTlCancel (q : Fin 64) (cid : BitVec 32) (h : BitVec 16) (s : State) : Out :=
  .next (s.clockCommand q.val cid (fun s =>
    let p : Party := .hostQueue q.val
    let r : State × Status := match (s.slot h.toNat).armed, SMap.find s.launches h.toNat with
      | some e, some l =>
        if ownFixed (slotOwner h.toNat) || !s.owns p (slotOwner h.toNat) then (s, .notOwner)
        else if s.reached e.instant then (s, .fired) else (s.cancelLaunch l, .cancelled)
      | _, _ => s.cancel p h.toNat
    (r.1, r.2, 0)))

/-! ### Datum commands -/

/-- DTM_SNAPSHOT (R61, Table 14.11). -/
def execDtmSnapshot (q : Fin 64) (cid buflen : BitVec 32) (s : State) : Out :=
  .next (s.clockCommand q.val cid (fun s =>
    let x := s.snapshot
    s.give q.val buflen.toNat (leBytes 8 x.at_.sec.toNat ++ leBytes 8 (x.at_.ns.toNat * 2 ^ 32 + x.at_.frac.toNat)
      ++ leBytes 4 x.b.early.toNat ++ leBytes 4 x.b.late.toNat ++ leBytes 8 x.inc.toNat ++ leBytes 4 x.info.toNat ++ zeros 12) 0))

/-- The Datum second at the end of a step's application tick, after its offset (R142): the counter goes on at the present
increment for the 64 ticks before it and for the tick itself. -/
def State.stepSecond (s : State) (off : Int) : Nat :=
  (((s.datum.count56 + (effectDelay + 1) * s.inc.toNat) / 2 ^ 24 : Nat) + off).toNat / secCount

/-- DTM_STEP (R48, R49, R328). -/
def execDtmStep (q : Fin 64) (cid : BitVec 32) (sec : BitVec 64) (ns frac early late : BitVec 32) (s : State) : Out :=
  .next (s.clockCommand q.val cid (fun s =>
    let r := s.stepHost sec ns frac ⟨early, late⟩
    (r.1, r.2, if r.2 = .ok then s.stepSecond (stepOffset sec ns frac) else 0)))

/-! ### Reads of what the engine keeps -/

/-- JOURNAL_READ (R149): RANGE with TRV_JNL_OLD as RESULT where the first SEQ lies outside the ring. A count outside 1 to 256 is
RANGE too (DESIGN CHOICE). -/
def State.journalRead (s : State) (q : Nat) (seq count buflen : Nat) : State × Status × Nat :=
  if count = 0 ∨ 256 < count ∨ seq < s.trv.ringBase ∨ s.trv.ringBase + s.trv.ring.length ≤ seq then (s, .range, s.trv.ringBase)
  else if buflen < count * 128 then (s, .buffer, 0)
  else
    let rs := (s.trv.ring.drop (seq - s.trv.ringBase)).take count
    (s.output q (rs.map (fun r => r.bytes)).flatten, .ok, rs.length)

/-- JOURNAL_READ. -/
def execJournalRead (q : Fin 64) (cid : BitVec 32) (seq : BitVec 64) (count buflen : BitVec 32) (s : State) : Out :=
  .next (s.clockCommand q.val cid (fun s => s.journalRead q.val seq.toNat count.toNat buflen.toNat))

/-- GNSS_SNAP_READ (R195): SEQ does not change within the command; octets that no capture has written read zero. -/
def State.snapRead (s : State) (q : Nat) (off len buflen : Nat) : State × Status × Nat :=
  if len % 64 ≠ 0 ∨ len = 0 ∨ 1048576 < len ∨ 8388608 < off + len then (s, .range, 0)
  else
    let bs := (s.gns.buffer.drop off).take len
    let seq := s.fd Fld.GNS_SNAP_STAT.SEQ % 65536
    s.give q buflen (bs ++ zeros (len - bs.length)) (seq + seq * 65536)

/-- GNSS_SNAP_READ. -/
def execGnssSnapRead (q : Fin 64) (cid off len buflen : BitVec 32) (s : State) : Out :=
  .next (s.clockCommand q.val cid (fun s => s.snapRead q.val off.toNat len.toNat buflen.toNat))

/-- The fault summary (Table 14.12). -/
def FltSummary.bytes (x : FltSummary) : List Byte :=
  leBytes 2 x.record ++ zeros 2 ++ leBytes 4 x.stat.toNat ++ leBytes 4 x.cause.toNat ++ leBytes 4 x.source.toNat
    ++ leBytes 8 x.img.toNat ++ leBytes 4 x.firstSec.toNat ++ leBytes 4 x.firstNs.toNat ++ leBytes 8 x.at_.sec.toNat
    ++ leBytes 4 x.at_.ns.toNat ++ leBytes 4 x.count

/-- FAULT_SUMMARY (R267). -/
def execFaultSummary (q : Fin 64) (cid buflen : BitVec 32) (s : State) : Out :=
  .next (s.clockCommand q.val cid (fun s =>
    match s.flt.summary with
    | none => (s, .empty, 0)
    | some x => s.give q.val buflen.toNat x.bytes 0))

end Sys2Proof.Machine
end

