-- ==== Sys2Proof/Machine/Mat.lean ====
section
/-!
DEFINITION. Machine/Mat.lean: the commands of the mated pair (15_mated_pair.md).
-/
namespace Sys2Proof.Machine

/-! ### Heartbeats and the mate's status -/

/-- HEARTBEAT_LAUNCH on lane `l` at the launch point `tx` (R340). -/
def execHeartbeatLaunch (l : Fin 2) (tx : TimeVal) (s : State) : Out := .next (s.act s.coreUp (fun s => s.beatLaunch l.val tx))

/-- HEARTBEAT_RECEIVE on lane `l`, with its ingress timestamp (R341). -/
def execHeartbeatReceive (l : Fin 2) (hb : Heartbeat) (at_ : TimeVal) (s : State) : Out :=
  .next (s.act s.coreUp (fun s => s.beatReceive l.val hb at_))

/-- HEARTBEAT_LOSS_DEADLINE of lane `l` (R349, R350). -/
def execHeartbeatLossDeadline (l : Fin 2) (s : State) : Out := .next (s.act s.coreUp (fun s => s.beatLost l.val))

/-- MATE_PRESENT_CHANGE: the pin's level (R350). -/
def execMatePresentChange (high : Bool) (s : State) : Out := .next (s.act s.clockUp (fun s => s.presentChange high))

/-! ### Roles -/

/-- MAT_INIT_ENTRY: which lanes have trained (R346). -/
def execMatInitEntry (t0 t1 : Bool) (s : State) : Out := .next (s.act s.coreUp (fun s => s.matInit t0 t1))

/-- ROLE_DECIDE (R346). -/
def execRoleDecide (s : State) : Out := .next (s.act s.coreUp State.roleDecide)

/-- ARB_CONTENTION_DEMOTE (R347). -/
def execArbContentionDemote (s : State) : Out := .next (s.act s.coreUp State.arbDemote)

/-- MAT_WITHDRAW: a write of MAT_CMD with WITHDRAW (R348). -/
def execMatWithdraw (v : BitVec 32) (s : State) : Out := .next (s.hostRow .MAT_CMD 0 (v ||| 0x80000000#32))

/-- MAT_REJOIN: a write of MAT_CMD with REJOIN and without WITHDRAW (R348). -/
def execMatRejoin (v : BitVec 32) (s : State) : Out := .next (s.hostRow .MAT_CMD 0 ((v ||| 0x40000000#32) &&& 0x7FFFFFFF#32))

/-- PROMOTION (R351). -/
def execPromotion (s : State) : Out := .next (s.act s.coreUp State.promotionDue)

/-- WITNESS_MATCH: an Announce with clockIdentity `clk` on port `port` (R353). -/
def execWitnessMatch (port : Fin 64) (clk : BitVec 64) (s : State) : Out :=
  .next (s.act s.coreUp (fun s => s.witnessMatch port.val clk))

/-! ### Planned swaps -/

/-- SWAP_REQUEST_NOW: a write of MAT_SWAP_CTL with NOW (R355). -/
def execSwapRequestNow (v : BitVec 32) (s : State) : Out :=
  .next (s.hostRow .MAT_SWAP_CTL 0 (v ||| 1#32 <<< Fld.MAT_SWAP_CTL.NOW.lo))

/-- PERIODIC_SWAP_REQUEST, at most once in each Datum second (R357). -/
def execPeriodicSwapRequest (s : State) : Out := .next (s.act s.coreUp (fun s => s.once 6 State.periodicSwap))

/-- REVERSION_REQUEST, with no swap pending (R358). -/
def execReversionRequest (s : State) : Out := .next (s.act (s.coreUp && s.mat.swap.isNone) State.reversion)

/-- HEALTH_YIELD_REQUEST, with no swap pending (R359). -/
def execHealthYieldRequest (s : State) : Out := .next (s.act (s.coreUp && s.mat.swap.isNone) State.healthYield)

/-- SWAP_RECHECK at S - 100 µs (R355). -/
def execSwapRecheck (s : State) : Out := .next (s.act s.coreUp State.swapRecheck)

/-- SWAP_INSTANT at S (R356). -/
def execSwapInstant (s : State) : Out := .next (s.act s.coreUp State.swapInstant)

/-! ### The mirror -/

/-- MIRROR_WRITE: the oldest written line goes into the mirror's queue (R360). -/
def execMirrorWrite (s : State) : Out := .next (s.act s.coreUp State.mirrorSend)

/-- MIRROR_FRAME_APPLY (R360). -/
def execMirrorFrameApply (f : MirFrame) (s : State) : Out := .next (s.act s.coreUp (fun s => s.mirrorApply f))

/-- MIRROR_END_MARKER, with its place in the sequence (R362). -/
def execMirrorEndMarker (seq : Nat) (s : State) : Out := .next (s.act s.coreUp (fun s => s.mirrorEnd seq))

/-- WINDOW_COPY_DONE of window `k` (R361). -/
def execWindowCopyDone (k : Fin 4) (s : State) : Out := .next (s.act s.coreUp (fun s => s.copyDone k.val))

end Sys2Proof.Machine
end

