-- ==== Sys2Proof/Machine/Pwr.lean ====
section
/-!
DEFINITION. Machine/Pwr.lean: the commands of power, security state and product life (16_power_security_life.md, with the
sensors of 17_electrical_package.md, the resets of 01_overview.md and the link training of 14_host_registers.md).
-/
namespace Sys2Proof.Machine

/-! ### Gating, Ember and shutdown -/

/-- REGION_GATE (R367). -/
def execRegionGate (q : Fin 64) (cid : BitVec 32) (word : BitVec 32) (s : State) : Out :=
  .next (s.command q.val cid (fun s => s.regionGate word))

/-- REGION_UNGATE (R367). -/
def execRegionUngate (q : Fin 64) (cid : BitVec 32) (word : BitVec 32) (s : State) : Out :=
  .next (s.command q.val cid (fun s => s.regionUngate word))

/-- EMBER (R368): the completion is written, then the engine enters Ember. -/
def execEmber (q : Fin 64) (cid : BitVec 32) (s : State) : Out :=
  .next (if s.canStart q.val then
      let s1 := s.fetchCmd q.val
      match s1.lifeBusy with
      | some n => s1.complete q.val cid .busy n
      | none => (s1.complete q.val cid .ok 0).enterEmber
    else s)

/-- EMBER_AUTO_ENTRY (R368). -/
def execEmberAutoEntry (s : State) : Out := .next s.emberAuto

/-- SHUTDOWN (R385): the commit, the completion, then the core die is held in reset. -/
def execShutdown (q : Fin 64) (cid : BitVec 32) (s : State) : Out :=
  .next (if s.canStart q.val then
      let s1 := s.fetchCmd q.val
      match s1.lifeBusy with
      | some n => s1.complete q.val cid .busy n
      | none => (s1.shutdown.complete q.val cid .ok 0).holdCore
    else s)

/-! ### Product life -/

/-- PROVISION (R374): the wrapped transport key goes to the buffer. -/
def execProvision (q : Fin 64) (cid : BitVec 32) (owner qT : List Byte) (buflen : BitVec 32) (s : State) : Out :=
  .next (s.command q.val cid (fun s =>
    if owner.length ≠ 48 ∨ qT.length ≠ 97 ∨ buflen.toNat < 40 then (s, .buffer, 0)
    else match s.provision owner with
      | .inl r => (s, .refused, r)
      | .inr s1 => (s1.output q.val (Config.aesWrap (Config.ecdh qT) Config.transportKey), .ok, 0)))

/-- ADVANCE_FIELD (R373). -/
def execAdvanceField (q : Fin 64) (cid : BitVec 32) (s : State) : Out := .next (s.command q.val cid State.advanceField)

/-- RETIRE (R375). -/
def execRetire (q : Fin 64) (cid : BitVec 32) (order : List Byte) (s : State) : Out :=
  .next (s.command q.val cid (fun s => s.retire order))

/-- FUSE_PROGRAM (R372). -/
def execFuseProgram (q : Fin 64) (cid : BitVec 32) (item value : BitVec 16) (s : State) : Out :=
  .next (s.command q.val cid (fun s => s.fuseProgram item.toNat value.toNat))

/-- BOOT_STORE (R376). -/
def execBootStore (q : Fin 64) (cid : BitVec 32) (mask : BitVec 128) (file : List Byte) (s : State) : Out :=
  .next (s.command q.val cid (fun s => s.bootStore mask file))

/-- BOOT_CLEAR (R376). -/
def execBootClear (q : Fin 64) (cid : BitVec 32) (s : State) : Out :=
  .next (s.command q.val cid (fun s => (s.bootClear, .ok, 0)))

/-! ### Power and resets -/

/-- KEEPER_DOMAIN_START, `elapsed` being E in nanoseconds (R141, R383). -/
def execKeeperDomainStart (elapsed : BitVec 64) (s : State) : Out := .next (s.keeperStart elapsed.toNat)

/-- RESET_N_RELEASE (R383): the DDR sizes found and the records of the units that fail their self-test. -/
def execResetNRelease (ddr0 ddr1 : BitVec 32) (failed : List (Fin 472)) (s : State) : Out :=
  .next (s.coreStart ddr0 ddr1 (failed.map (fun i => i.val)))

/-- CORE_DIE_RESET (R11). -/
def execCoreDieReset (byPin : Bool) (s : State) : Out := .next (s.coreDieReset byPin)

/-- VDD_CLK_LOSS (R369). -/
def execVddClkLoss (s : State) : Out := .next s.clkLoss

/-- VDD_KEEP_LOSS (R369). -/
def execVddKeepLoss (s : State) : Out := .next s.keepLoss

/-- KEEP_RESET_N_ASSERT (R11). -/
def execKeepResetNAssert (s : State) : Out := .next s.keepReset

/-- PWRFAIL_ASSERT (R386). -/
def execPwrfailAssert (s : State) : Out := .next s.pwrfailOn

/-- PWRFAIL_RELEASE (R386). -/
def execPwrfailRelease (s : State) : Out := .next s.pwrfailOff

/-- PCIE_LINK_L0 (R298): the link is up, with the Bus Master and MSI-X enables that the host has set. -/
def execPcieLinkL0 (busMaster msixEn : Bool) (s : State) : Out :=
  .next (s.act s.coreUp (fun s =>
    { s with
      hst := { s.hst with pcieUp := true, busMaster := busMaster, msixEn := msixEn } }))

/-! ### Debug -/

/-- DEBUG_LEVEL_REQUEST (R378). -/
def execDebugLevelRequest (lvl : DebugLevel) (s : State) : Out := .next (s.debugRequest lvl)

/-- DBG_DROP: a write of DBG_CTL with DROP (R378). -/
def execDbgDrop (v : BitVec 32) (s : State) : Out := .next (s.hostRow .DBG_CTL 0 (v ||| 0x20000000#32))

/-! ### Temperature -/

/-- SENSOR_READ (R401, R402). -/
def execSensorRead (clk core : Int) (quads : List Int) (s : State) : Out :=
  .next (s.act s.clockUp (fun s => s.sensors clk core quads))

end Sys2Proof.Machine
end

