-- ==== Sys2Proof/Machine/Dispatch.lean ====
section
/-!
DEFINITION. Machine/Dispatch.lean: one arm per command, each one direct call of its meaning.
-/
namespace Sys2Proof.Machine

/-- The effect of a command on everything but the queue. -/
def exec (i : Instr) (s : State) : Host.Outcome State Fault Refusal :=
  match i with
  | .datumSecondCheck upset rates => Sys2Proof.Machine.execDatumSecondCheck upset rates s
  | .d2dLinkDown => Sys2Proof.Machine.execD2dLinkDown s
  | .d2dLinkUp => Sys2Proof.Machine.execD2dLinkUp s
  | .postedWriteApply => Sys2Proof.Machine.execPostedWriteApply s
  | .incTakesEffect => Sys2Proof.Machine.execIncTakesEffect s
  | .timelineEventFire => Sys2Proof.Machine.execTimelineEventFire s
  | .arbInDecodeChange code => Sys2Proof.Machine.execArbInDecodeChange code s
  | .ownClaim q cid idx => Sys2Proof.Machine.execOwnClaim q cid idx s
  | .ownRelease q cid idx => Sys2Proof.Machine.execOwnRelease q cid idx s
  | .clusterIsolate by_ c => Sys2Proof.Machine.execClusterIsolate by_ c s
  | .clusterRestore q cid c => Sys2Proof.Machine.execClusterRestore q cid c s
  | .incHiStage v => Sys2Proof.Machine.execIncHiStage v s
  | .incLoCommit v => Sys2Proof.Machine.execIncLoCommit v s
  | .settleOpen v => Sys2Proof.Machine.execSettleOpen v s
  | .settleClose v => Sys2Proof.Machine.execSettleClose v s
  | .settleTimeout => Sys2Proof.Machine.execSettleTimeout s
  | .kindlingOpen => Sys2Proof.Machine.execKindlingOpen s
  | .dtmStepGo v => Sys2Proof.Machine.execDtmStepGo v s
  | .stepApply => Sys2Proof.Machine.execStepApply s
  | .utcOffsetWrite v => Sys2Proof.Machine.execUtcOffsetWrite v s
  | .leapArm v => Sys2Proof.Machine.execLeapArm v s
  | .leapCancel v => Sys2Proof.Machine.execLeapCancel v s
  | .leapTakeEffect => Sys2Proof.Machine.execLeapTakeEffect s
  | .leapDayFlag => Sys2Proof.Machine.execLeapDayFlag s
  | .dtmNowRead => Sys2Proof.Machine.execDtmNowRead s
  | .snapGo v => Sys2Proof.Machine.execSnapGo v s
  | .nop by_ => Sys2Proof.Machine.execNop by_ s
  | .fence th => Sys2Proof.Machine.execFence th s
  | .trap th imm => Sys2Proof.Machine.execTrap th imm s
  | .eret th => Sys2Proof.Machine.execEret th s
  | .yield th => Sys2Proof.Machine.execYield th s
  | .add th d a b => Sys2Proof.Machine.execAdd th d a b s
  | .sub th d a b => Sys2Proof.Machine.execSub th d a b s
  | .and th d a b => Sys2Proof.Machine.execAnd th d a b s
  | .or th d a b => Sys2Proof.Machine.execOr th d a b s
  | .xor th d a b => Sys2Proof.Machine.execXor th d a b s
  | .shl th d a b => Sys2Proof.Machine.execShl th d a b s
  | .shr th d a b => Sys2Proof.Machine.execShr th d a b s
  | .sar th d a b => Sys2Proof.Machine.execSar th d a b s
  | .mul th d a b => Sys2Proof.Machine.execMul th d a b s
  | .mulhu th d a b => Sys2Proof.Machine.execMulhu th d a b s
  | .divu th d a b => Sys2Proof.Machine.execDivu th d a b s
  | .remu th d a b => Sys2Proof.Machine.execRemu th d a b s
  | .min th d a b => Sys2Proof.Machine.execMin th d a b s
  | .max th d a b => Sys2Proof.Machine.execMax th d a b s
  | .minu th d a b => Sys2Proof.Machine.execMinu th d a b s
  | .maxu th d a b => Sys2Proof.Machine.execMaxu th d a b s
  | .sel th d a b c => Sys2Proof.Machine.execSel th d a b c s
  | .bswap th d a => Sys2Proof.Machine.execBswap th d a s
  | .addi th d a imm => Sys2Proof.Machine.execAddi th d a imm s
  | .andi th d a imm => Sys2Proof.Machine.execAndi th d a imm s
  | .ori th d a imm => Sys2Proof.Machine.execOri th d a imm s
  | .xori th d a imm => Sys2Proof.Machine.execXori th d a imm s
  | .shli th d a imm => Sys2Proof.Machine.execShli th d a imm s
  | .shri th d a imm => Sys2Proof.Machine.execShri th d a imm s
  | .sari th d a imm => Sys2Proof.Machine.execSari th d a imm s
  | .lui th d imm => Sys2Proof.Machine.execLui th d imm s
  | .cmp th p cond a b => Sys2Proof.Machine.execCmp th p cond a b s
  | .cmpi th p cond a imm => Sys2Proof.Machine.execCmpi th p cond a imm s
  | .br th p sense off => Sys2Proof.Machine.execBr th p sense off s
  | .jal th d off => Sys2Proof.Machine.execJal th d off s
  | .jalr th d a imm => Sys2Proof.Machine.execJalr th d a imm s
  | .ld th d a size off ecc => Sys2Proof.Machine.execLd th d a size off ecc s
  | .st th d a size off => Sys2Proof.Machine.execSt th d a size off s
  | .amoadd th d a b => Sys2Proof.Machine.execAmoadd th d a b s
  | .amoswp th d a b => Sys2Proof.Machine.execAmoswp th d a b s
  | .amocas th d a b => Sys2Proof.Machine.execAmocas th d a b s
  | .tnow th td => Sys2Proof.Machine.execTnow th td s
  | .tmov th td tx => Sys2Proof.Machine.execTmov th td tx s
  | .tadd th td tx g => Sys2Proof.Machine.execTadd th td tx g s
  | .tadds th td tx g => Sys2Proof.Machine.execTadds th td tx g s
  | .tsub th g tx ty => Sys2Proof.Machine.execTsub th g tx ty s
  | .tcmp th p tx ty cond => Sys2Proof.Machine.execTcmp th p tx ty cond s
  | .tget th g tx low => Sys2Proof.Machine.execTget th g tx low s
  | .tput th td g low => Sys2Proof.Machine.execTput th td g low s
  | .twf th tx g fmt => Sys2Proof.Machine.execTwf th tx g fmt s
  | .tld th td a off => Sys2Proof.Machine.execTld th td a off s
  | .tst th td a off => Sys2Proof.Machine.execTst th td a off s
  | .bnow th bd => Sys2Proof.Machine.execBnow th bd s
  | .bat th bd tx g => Sys2Proof.Machine.execBat th bd tx g s
  | .bmov th bd bx => Sys2Proof.Machine.execBmov th bd bx s
  | .badd th bd bx bz => Sys2Proof.Machine.execBadd th bd bx bz s
  | .bmax th bd bx bz => Sys2Proof.Machine.execBmax th bd bx bz s
  | .bwid th bd bx g => Sys2Proof.Machine.execBwid th bd bx g s
  | .bfromg th bd g => Sys2Proof.Machine.execBfromg th bd g s
  | .btog th g bx => Sys2Proof.Machine.execBtog th g bx s
  | .bcvt th g bx unit addOne => Sys2Proof.Machine.execBcvt th g bx unit addOne s
  | .bchk th p bx bz => Sys2Proof.Machine.execBchk th p bx bz s
  | .bwf th bx g unit addOne => Sys2Proof.Machine.execBwf th bx g unit addOne s
  | .bld th bd a off => Sys2Proof.Machine.execBld th bd a off s
  | .bst th bd a off => Sys2Proof.Machine.execBst th bd a off s
  | .earm th g tx => Sys2Proof.Machine.execEarm th g tx s
  | .ecan th g => Sys2Proof.Machine.execEcan th g s
  | .ewait th td g => Sys2Proof.Machine.execEwait th td g s
  | .paddr th d a => Sys2Proof.Machine.execPaddr th d a s
  | .pinfo th d a => Sys2Proof.Machine.execPinfo th d a s
  | .palloc th d a => Sys2Proof.Machine.execPalloc th d a s
  | .pfree th a => Sys2Proof.Machine.execPfree th a s
  | .pcopy th d a b => Sys2Proof.Machine.execPcopy th d a b s
  | .psend th d a b => Sys2Proof.Machine.execPsend th d a b s
  | .ptsb th bd a => Sys2Proof.Machine.execPtsb th bd a s
  | .lgate th td tx g => Sys2Proof.Machine.execLgate th td tx g s
  | .lsend th g tx => Sys2Proof.Machine.execLsend th g tx s
  | .csub th d a b => Sys2Proof.Machine.execCsub th d a b s
  | .cdrv th d a b => Sys2Proof.Machine.execCdrv th d a b s
  | .crel th a => Sys2Proof.Machine.execCrel th a s
  | .dinc th g => Sys2Proof.Machine.execDinc th g s
  | .dens th g => Sys2Proof.Machine.execDens th g s
  | .dstep th g tx => Sys2Proof.Machine.execDstep th g tx s
  | .ownc th g => Sys2Proof.Machine.execOwnc th g s
  | .ownr th g => Sys2Proof.Machine.execOwnr th g s
  | .dosc th g => Sys2Proof.Machine.execDosc th g s
  | .mfc th d c => Sys2Proof.Machine.execMfc th d c s
  | .mtc th a c => Sys2Proof.Machine.execMtc th a c s
  | .cryptoJobComplete lane => Sys2Proof.Machine.execCryptoJobComplete lane s
  | .stkAbortGo core v => Sys2Proof.Machine.execStkAbortGo core v s
  | .stkRestartGo core v => Sys2Proof.Machine.execStkRestartGo core v s
  | .threadAbort q cid th => Sys2Proof.Machine.execThreadAbort q cid th s
  | .threadRestart q cid th => Sys2Proof.Machine.execThreadRestart q cid th s
  | .imageLoad q cid mask commit file => Sys2Proof.Machine.execImageLoad q cid mask commit file s
  | .ticInWrite n v => Sys2Proof.Machine.execTicInWrite n v s
  | .ticEdge ch code => Sys2Proof.Machine.execTicEdge ch code s
  | .streamSampleMissing r => Sys2Proof.Machine.execStreamSampleMissing r s
  | .overfreqCheck => Sys2Proof.Machine.execOverfreqCheck s
  | .ticOsGo n v => Sys2Proof.Machine.execTicOsGo n v s
  | .oneshotClose n => Sys2Proof.Machine.execOneshotClose n s
  | .ticCalGo n v => Sys2Proof.Machine.execTicCalGo n v s
  | .calSchedule ch => Sys2Proof.Machine.execCalSchedule ch s
  | .calStart ch => Sys2Proof.Machine.execCalStart ch s
  | .calComplete ch issued hits => Sys2Proof.Machine.execCalComplete ch issued hits s
  | .calRefusedNoGap ch => Sys2Proof.Machine.execCalRefusedNoGap ch s
  | .keeperCheck => Sys2Proof.Machine.execKeeperCheck s
  | .ticRingBaseStage n hi v => Sys2Proof.Machine.execTicRingBaseStage n hi v s
  | .ticRingCommit n v => Sys2Proof.Machine.execTicRingCommit n v s
  | .ensProcessSecond => Sys2Proof.Machine.execEnsProcessSecond s
  | .ensRefCfgWrite r v => Sys2Proof.Machine.execEnsRefCfgWrite r v s
  | .ensNetGo j th v insn => Sys2Proof.Machine.execEnsNetGo j th v insn s
  | .refAcceptCmd r v => Sys2Proof.Machine.execRefAcceptCmd r v s
  | .weightWrite r v by_ => Sys2Proof.Machine.execWeightWrite r v by_ s
  | .measDeliver r => Sys2Proof.Machine.execMeasDeliver r s
  | .holdoverCommit => Sys2Proof.Machine.execHoldoverCommit s
  | .oscSpiTransfer j => Sys2Proof.Machine.execOscSpiTransfer j s
  | .tempSensorRead reading => Sys2Proof.Machine.execTempSensorRead reading s
  | .journalCommit => Sys2Proof.Machine.execJournalCommit s
  | .jnlAckHiStage v => Sys2Proof.Machine.execJnlAckHiStage v s
  | .jnlAckCommit v => Sys2Proof.Machine.execJnlAckCommit v s
  | .fcwStage n num v => Sys2Proof.Machine.execFcwStage n num v s
  | .fcwCommit n v => Sys2Proof.Machine.execFcwCommit n v s
  | .syn0SrcWrite freq v => Sys2Proof.Machine.execSyn0SrcWrite freq v s
  | .synSearchCmd n v => Sys2Proof.Machine.execSynSearchCmd n v s
  | .syn0AcceptCmd v => Sys2Proof.Machine.execSyn0AcceptCmd v s
  | .loopHopDone n => Sys2Proof.Machine.execLoopHopDone n s
  | .loopSearchDone n found => Sys2Proof.Machine.execLoopSearchDone n found s
  | .loopLock n => Sys2Proof.Machine.execLoopLock n s
  | .loopCoastEntry n cause => Sys2Proof.Machine.execLoopCoastEntry n cause s
  | .syn0QualEnd dy => Sys2Proof.Machine.execSyn0QualEnd dy s
  | .synPhaseWrite n v => Sys2Proof.Machine.execSynPhaseWrite n v s
  | .divHiStage k v => Sys2Proof.Machine.execDivHiStage k v s
  | .divCommit k v => Sys2Proof.Machine.execDivCommit k v s
  | .dividerAlignment => Sys2Proof.Machine.execDividerAlignment s
  | .clkoutEnWrite k v => Sys2Proof.Machine.execClkoutEnWrite k v s
  | .syncInEdge falling => Sys2Proof.Machine.execSyncInEdge falling s
  | .ppsEdge j => Sys2Proof.Machine.execPpsEdge j s
  | .ppsCfgTakeEffect j => Sys2Proof.Machine.execPpsCfgTakeEffect j s
  | .ppsCompWrite j v => Sys2Proof.Machine.execPpsCompWrite j v s
  | .todMessage k => Sys2Proof.Machine.execTodMessage k s
  | .gnsSpCfgWrite p v => Sys2Proof.Machine.execGnsSpCfgWrite p v s
  | .spRateCheck p hz => Sys2Proof.Machine.execSpRateCheck p hz s
  | .spPowerCheck p pwr => Sys2Proof.Machine.execSpPowerCheck p pwr s
  | .gnsCtlGo v => Sys2Proof.Machine.execGnsCtlGo v s
  | .gnsCtlDone miso => Sys2Proof.Machine.execGnsCtlDone miso s
  | .acqJobDone found => Sys2Proof.Machine.execAcqJobDone found s
  | .acqAbort v => Sys2Proof.Machine.execAcqAbort v s
  | .epochLatch obs => Sys2Proof.Machine.execEpochLatch obs s
  | .antFltChange a level => Sys2Proof.Machine.execAntFltChange a level s
  | .antPosWrite a which v => Sys2Proof.Machine.execAntPosWrite a which v s
  | .antSigWrite a v => Sys2Proof.Machine.execAntSigWrite a v s
  | .timeFloorHiStage v => Sys2Proof.Machine.execTimeFloorHiStage v s
  | .timeFloorCommit v => Sys2Proof.Machine.execTimeFloorCommit v s
  | .timeFloorRaise => Sys2Proof.Machine.execTimeFloorRaise s
  | .gnsSnapGo v => Sys2Proof.Machine.execGnsSnapGo v s
  | .snapshotStart => Sys2Proof.Machine.execSnapshotStart s
  | .snapshotCaptureEnd data => Sys2Proof.Machine.execSnapshotCaptureEnd data s
  | .auditSchedule => Sys2Proof.Machine.execAuditSchedule s
  | .auditComplete ds => Sys2Proof.Machine.execAuditComplete ds s
  | .prtCfgWrite n v => Sys2Proof.Machine.execPrtCfgWrite n v s
  | .prtCalGo n v => Sys2Proof.Machine.execPrtCalGo n v s
  | .portCalDone n span tx rx => Sys2Proof.Machine.execPortCalDone n span tx rx s
  | .linkUp n phase rate => Sys2Proof.Machine.execLinkUp n phase rate s
  | .linkDown n => Sys2Proof.Machine.execLinkDown n s
  | .frameReceive n data codeErr at_ trx => Sys2Proof.Machine.execFrameReceive n data codeErr at_ trx s
  | .frameToPool n => Sys2Proof.Machine.execFrameToPool n s
  | .pauseTakeEffect n => Sys2Proof.Machine.execPauseTakeEffect n s
  | .pauseEnd n => Sys2Proof.Machine.execPauseEnd n s
  | .txFrameStart n => Sys2Proof.Machine.execTxFrameStart n s
  | .txFrameEnd n => Sys2Proof.Machine.execTxFrameEnd n s
  | .launchDecide n => Sys2Proof.Machine.execLaunchDecide n s
  | .svcOpen v => Sys2Proof.Machine.execSvcOpen v s
  | .svcClose v => Sys2Proof.Machine.execSvcClose v s
  | .svcTallyWrite th v insn => Sys2Proof.Machine.execSvcTallyWrite th v insn s
  | .signalingRequest n h => Sys2Proof.Machine.execSignalingRequest n h s
  | .shedLevelLower => Sys2Proof.Machine.execShedLevelLower s
  | .grantCancelSpread => Sys2Proof.Machine.execGrantCancelSpread s
  | .clientRecordFree rec => Sys2Proof.Machine.execClientRecordFree rec s
  | .delayReqServe n h => Sys2Proof.Machine.execDelayReqServe n h s
  | .ntpRequest n h => Sys2Proof.Machine.execNtpRequest n h s
  | .ntsRequest n h => Sys2Proof.Machine.execNtsRequest n h s
  | .launchReissue th n h => Sys2Proof.Machine.execLaunchReissue th n h s
  | .faultNPulseEnd => Sys2Proof.Machine.execFaultNPulseEnd s
  | .fltPinHoldWrite v => Sys2Proof.Machine.execFltPinHoldWrite v s
  | .fltAck n v => Sys2Proof.Machine.execFltAck n v s
  | .fltClear n v => Sys2Proof.Machine.execFltClear n v s
  | .graceExpiry n => Sys2Proof.Machine.execGraceExpiry n s
  | .fltEscRelease v => Sys2Proof.Machine.execFltEscRelease v s
  | .dmpDfdtWrite v => Sys2Proof.Machine.execDmpDfdtWrite v s
  | .dmpQceilWrite n qn v => Sys2Proof.Machine.execDmpQceilWrite n qn v s
  | .keyUpdate q cid data => Sys2Proof.Machine.execKeyUpdate q cid data s
  | .envelopeApply => Sys2Proof.Machine.execEnvelopeApply s
  | .keyAbortGo v => Sys2Proof.Machine.execKeyAbortGo v s
  | .attest q cid nonce buflen => Sys2Proof.Machine.execAttest q cid nonce buflen s
  | .certRead q cid buflen => Sys2Proof.Machine.execCertRead q cid buflen s
  | .cookieSeal q cid cls count keys buflen => Sys2Proof.Machine.execCookieSeal q cid cls count keys buflen s
  | .irqSourceEdge n detail => Sys2Proof.Machine.execIrqSourceEdge n detail s
  | .irqSrcCfgWrite n v => Sys2Proof.Machine.execIrqSrcCfgWrite n v s
  | .irqDoorbell v => Sys2Proof.Machine.execIrqDoorbell v s
  | .irqPendSet v => Sys2Proof.Machine.execIrqPendSet v s
  | .irqPendClr v => Sys2Proof.Machine.execIrqPendClr v s
  | .irqGenWrite v => Sys2Proof.Machine.execIrqGenWrite v s
  | .irqIssue tgt => Sys2Proof.Machine.execIrqIssue tgt s
  | .irqClaimRead vec => Sys2Proof.Machine.execIrqClaimRead vec s
  | .irqEoi vec v => Sys2Proof.Machine.execIrqEoi vec v s
  | .irqTgtWrite n v => Sys2Proof.Machine.execIrqTgtWrite n v s
  | .irqTargetTimeout n => Sys2Proof.Machine.execIrqTargetTimeout n s
  | .pmcCounterWrap c ctr smp => Sys2Proof.Machine.execPmcCounterWrap c ctr smp s
  | .pmcMirrorUpdate c k => Sys2Proof.Machine.execPmcMirrorUpdate c k s
  | .topUnlockWrite v => Sys2Proof.Machine.execTopUnlockWrite v s
  | .registerWrite off size v => Sys2Proof.Machine.execRegisterWrite off size v s
  | .queueEnWrite q v => Sys2Proof.Machine.execQueueEnWrite q v s
  | .sqTailDoorbell q v => Sys2Proof.Machine.execSqTailDoorbell q v s
  | .cqHeadWrite q v => Sys2Proof.Machine.execCqHeadWrite q v s
  | .tlArm q cid at_ word => Sys2Proof.Machine.execTlArm q cid at_ word s
  | .tlCancel q cid h => Sys2Proof.Machine.execTlCancel q cid h s
  | .dtmSnapshot q cid buflen => Sys2Proof.Machine.execDtmSnapshot q cid buflen s
  | .dtmStep q cid sec ns frac early late => Sys2Proof.Machine.execDtmStep q cid sec ns frac early late s
  | .journalRead q cid seq count buflen => Sys2Proof.Machine.execJournalRead q cid seq count buflen s
  | .gnssSnapRead q cid off len buflen => Sys2Proof.Machine.execGnssSnapRead q cid off len buflen s
  | .faultSummary q cid buflen => Sys2Proof.Machine.execFaultSummary q cid buflen s
  | .hstAbortGo v cids => Sys2Proof.Machine.execHstAbortGo v cids s
  | .pcieLinkLoss kind => Sys2Proof.Machine.execPcieLinkLoss kind s
  | .bar2Access off acc => Sys2Proof.Machine.execBar2Access off acc s
  | .ddrScrubRead ch addr found => Sys2Proof.Machine.execDdrScrubRead ch addr found s
  | .heartbeatLaunch l tx => Sys2Proof.Machine.execHeartbeatLaunch l tx s
  | .heartbeatReceive l hb at_ => Sys2Proof.Machine.execHeartbeatReceive l hb at_ s
  | .heartbeatLossDeadline l => Sys2Proof.Machine.execHeartbeatLossDeadline l s
  | .matePresentChange high => Sys2Proof.Machine.execMatePresentChange high s
  | .matInitEntry t0 t1 => Sys2Proof.Machine.execMatInitEntry t0 t1 s
  | .roleDecide => Sys2Proof.Machine.execRoleDecide s
  | .arbContentionDemote => Sys2Proof.Machine.execArbContentionDemote s
  | .matWithdraw v => Sys2Proof.Machine.execMatWithdraw v s
  | .matRejoin v => Sys2Proof.Machine.execMatRejoin v s
  | .promotion => Sys2Proof.Machine.execPromotion s
  | .witnessMatch port clk => Sys2Proof.Machine.execWitnessMatch port clk s
  | .swapRequestNow v => Sys2Proof.Machine.execSwapRequestNow v s
  | .periodicSwapRequest => Sys2Proof.Machine.execPeriodicSwapRequest s
  | .reversionRequest => Sys2Proof.Machine.execReversionRequest s
  | .healthYieldRequest => Sys2Proof.Machine.execHealthYieldRequest s
  | .swapRecheck => Sys2Proof.Machine.execSwapRecheck s
  | .swapInstant => Sys2Proof.Machine.execSwapInstant s
  | .mirrorWrite => Sys2Proof.Machine.execMirrorWrite s
  | .mirrorFrameApply f => Sys2Proof.Machine.execMirrorFrameApply f s
  | .mirrorEndMarker seq => Sys2Proof.Machine.execMirrorEndMarker seq s
  | .windowCopyDone k => Sys2Proof.Machine.execWindowCopyDone k s
  | .regionGate q cid word => Sys2Proof.Machine.execRegionGate q cid word s
  | .regionUngate q cid word => Sys2Proof.Machine.execRegionUngate q cid word s
  | .ember q cid => Sys2Proof.Machine.execEmber q cid s
  | .emberAutoEntry => Sys2Proof.Machine.execEmberAutoEntry s
  | .shutdown q cid => Sys2Proof.Machine.execShutdown q cid s
  | .provision q cid owner qT buflen => Sys2Proof.Machine.execProvision q cid owner qT buflen s
  | .advanceField q cid => Sys2Proof.Machine.execAdvanceField q cid s
  | .retire q cid order => Sys2Proof.Machine.execRetire q cid order s
  | .fuseProgram q cid item value => Sys2Proof.Machine.execFuseProgram q cid item value s
  | .bootStore q cid mask file => Sys2Proof.Machine.execBootStore q cid mask file s
  | .bootClear q cid => Sys2Proof.Machine.execBootClear q cid s
  | .keeperDomainStart elapsed => Sys2Proof.Machine.execKeeperDomainStart elapsed s
  | .syn0SrcFallback => Sys2Proof.Machine.execSyn0SrcFallback s
  | .resetNRelease ddr0 ddr1 failed => Sys2Proof.Machine.execResetNRelease ddr0 ddr1 failed s
  | .coreDieReset byPin => Sys2Proof.Machine.execCoreDieReset byPin s
  | .vddClkLoss => Sys2Proof.Machine.execVddClkLoss s
  | .vddKeepLoss => Sys2Proof.Machine.execVddKeepLoss s
  | .pwrfailAssert => Sys2Proof.Machine.execPwrfailAssert s
  | .pwrfailRelease => Sys2Proof.Machine.execPwrfailRelease s
  | .debugLevelRequest lvl => Sys2Proof.Machine.execDebugLevelRequest lvl s
  | .dbgDrop v => Sys2Proof.Machine.execDbgDrop v s
  | .sensorRead clk core quads => Sys2Proof.Machine.execSensorRead clk core quads s
  | .dclkTick => Sys2Proof.Machine.execDclkTick s
  | .copyRefresh pherr => Sys2Proof.Machine.execCopyRefresh pherr s
  | .syn0ReferenceReturn => Sys2Proof.Machine.execSyn0ReferenceReturn s
  | .debugHalt th => Sys2Proof.Machine.execDebugHalt th s
  | .debuggerResume th => Sys2Proof.Machine.execDebuggerResume th s
  | .keepResetNAssert => Sys2Proof.Machine.execKeepResetNAssert s
  | .pcieLinkL0 busMaster msixEn => Sys2Proof.Machine.execPcieLinkL0 busMaster msixEn s
  | .ephemerisCommit => Sys2Proof.Machine.execEphemerisCommit s

end Sys2Proof.Machine
end

