-- ==== Sys2Proof/Safety.lean ====
section
/-!
DEFINITION. Safety.lean: the terms in which claims about runs are stated: the parts of the state and what it is for a step to leave
them alone, what it is for a command to complete, for a thread to issue an instruction, and for a host write to be taken.
-/
namespace Sys2Proof.Machine

/-- The groups of registers of BAR0, by block; the ownership entries, the fault records and the status words of the interrupt sources
stand apart, since many commands reach them. -/
inductive RegGroup where
  /-- the ownership entries (TOP_OWN) -/
  | own
  /-- the other TOP registers -/
  | top
  /-- the HST block -/
  | host
  /-- the fault records (FLT_REC) -/
  | fltRec
  /-- the other FLT registers -/
  | fault
  /-- the status words of the interrupt sources (IRQ_SRC_STAT) -/
  | irqStat
  /-- the other IRQ registers -/
  | irq
  /-- the DMP block -/
  | damper
  /-- the KEY block -/
  | key
  /-- the PWR, SEC and DBG blocks -/
  | power
  /-- the MAT block -/
  | mate
  /-- the MEM block -/
  | memory
  /-- the DTM block -/
  | datum
  /-- the TIC bank -/
  | tic
  /-- the ENS block -/
  | ens
  /-- the TRV block -/
  | traverse
  /-- the SYN block -/
  | syn
  /-- the GNS block -/
  | gns
  /-- the PRT blocks -/
  | port
  /-- the SVC block -/
  | service
  /-- the STK block -/
  | stoker
  /-- the PMC block -/
  | pmc
  deriving DecidableEq, Repr

/-- The group of a register. -/
def Reg.group (r : Reg) : RegGroup :=
  let b := r.row.base
  if r = .TOP_OWN then .own
  else if r = .IRQ_SRC_STAT then .irqStat
  else if b < 0x10000 then .top
  else if b < 0x20000 then .host
  else if b < 0x28000 then .fault
  else if b < 0x30000 then .fltRec
  else if b < 0x40000 then .irq
  else if b < 0x50000 then .damper
  else if b < 0x60000 then .key
  else if b < 0x70000 then .power
  else if b < 0x80000 then .mate
  else if b < 0x100000 then .memory
  else if b < 0x110000 then .datum
  else if b < 0x120000 then .tic
  else if b < 0x130000 then .ens
  else if b < 0x140000 then .traverse
  else if b < 0x200000 then .syn
  else if b < 0x400000 then .gns
  else if b < 0x500000 then .port
  else if b < 0x600000 then .service
  else if b < 0x700000 then .stoker
  else .pmc

/-- The parts of the engine's state: the fields of `State` beside the register file and the queue, and the groups of registers. -/
inductive Part where
  | copy | mem | datum | replica | replicaOk | d2dUp | tick | timeline | threads | images | frames | launches | jobs | derived | irq | dtm | flt
  | hst | trv | tic | ens | thm | syn | gns | prt | key | mat | pmc | svc | pwr | cairn | secDone | freeCtr
  | regs (g : RegGroup)
  deriving DecidableEq, Repr

/-- What it is for a part to be the same in two states. -/
def Part.Same (p : Part) (s t : State) : Prop :=
  match p with
  | .copy => t.copy = s.copy
  | .mem => t.mem = s.mem
  | .datum => t.datum = s.datum
  | .replica => t.replica = s.replica
  | .replicaOk => t.replicaOk = s.replicaOk
  | .d2dUp => t.d2dUp = s.d2dUp
  | .tick => t.tick = s.tick
  | .timeline => t.timeline = s.timeline
  | .threads => t.threads = s.threads
  | .images => t.images = s.images
  | .frames => t.frames = s.frames
  | .launches => t.launches = s.launches
  | .jobs => t.jobs = s.jobs
  | .derived => t.derived = s.derived
  | .irq => t.irq = s.irq
  | .dtm => t.dtm = s.dtm
  | .flt => t.flt = s.flt
  | .hst => t.hst = s.hst
  | .trv => t.trv = s.trv
  | .tic => t.tic = s.tic
  | .ens => t.ens = s.ens
  | .thm => t.thm = s.thm
  | .syn => t.syn = s.syn
  | .gns => t.gns = s.gns
  | .prt => t.prt = s.prt
  | .key => t.key = s.key
  | .mat => t.mat = s.mat
  | .pmc => t.pmc = s.pmc
  | .svc => t.svc = s.svc
  | .pwr => t.pwr = s.pwr
  | .cairn => t.cairn = s.cairn
  | .secDone => t.secDone = s.secDone
  | .freeCtr => t.freeCtr = s.freeCtr
  | .regs g => ∀ r i, r.group = g → t.rg r i = s.rg r i

/-- Nothing but the listed parts differs between two states, the queue of waiting commands least of all. -/
def Only (l : List Part) (s t : State) : Prop := t.pending = s.pending ∧ ∀ p, p ∉ l → p.Same s t

/-- A command completes: it answers a next state, of which `P` holds, and in which nothing but the listed parts differs. -/
def Does (c : Instr) (s : State) (l : List Part) (P : State → Prop) : Prop := ∃ t, exec c s = .next t ∧ P t ∧ Only l s t

/-! ### Instructions of a Stoker thread -/

/-- A thread issues an instruction, and issuing it raises no exception of its own (R63, R70, R73): the core die runs, the thread is
READY, its program counter can be fetched, the thread is in K where the instruction asks it, and none of the registers the
instruction reads is poisoned. -/
structure State.Issues (s : State) (th : Nat) (kOnly : Bool) (srcs : List Nat) : Prop where
  runs  : s.coreUp = true
  ready : (s.thread th).st = .ready
  fetch : s.canFetch th = true
  priv  : kOnly = true → (s.thread th).k = true
  clean : ∀ r ∈ srcs, SMap.find (s.thread th).poison r = none

/-- A thread's record with its program counter past the instruction it runs. -/
def State.past (s : State) (th : Nat) : Thread := { (s.thread th) with pc := (s.thread th).pc + 4 }

/-- What counting a completed instruction may change (R301, R304, R305): the counters, their samples and their interrupt. -/
def counting : List Part := [.irq, .pmc, .freeCtr, .regs .pmc, .regs .irqStat]

/-- An instruction of a thread completes: it answers a next state in which the thread's record is `u`, every other thread's record
is the same, `P` holds, and beside the threads, the counters and the listed parts nothing differs. -/
def Completes (c : Instr) (s : State) (th : Nat) (u : Thread) (l : List Part) (P : State → Prop) : Prop :=
  ∃ t, exec c s = .next t ∧ t.thread th = u ∧ (∀ h, h ≠ th → t.thread h = s.thread h) ∧ P t ∧
    Only (.threads :: (counting ++ l)) s t

/-- A thread in U takes an exception (R85): it answers a next state in which the address of the instruction stands in EPC, ECAUSE and
EVAL are set, and the thread is in K at EVECT; beside the thread and the counters nothing differs. -/
def TrapsFromU (c : Instr) (s : State) (th : Nat) (e : Exc) (eval : BitVec 64) : Prop :=
  Completes c s th
    { (s.thread th) with epc := (s.thread th).pc, ecause := e.code, eval := eval, k := true, pc := (s.thread th).evect } [] (fun _ => True)

/-- Octets of memory after a store: the stored ones at their addresses, every other address as it was. -/
def Stored (s t : State) (a : Nat) (bs : List Byte) : Prop :=
  (∀ i v, bs[i]? = some v → t.octet (a + i) = v) ∧ ∀ x, (x < a ∨ a + bs.length ≤ x) → t.octet x = s.octet x

/-- Every octet of memory is as it was. -/
def MemorySame (s t : State) : Prop := ∀ x, t.octet x = s.octet x

/-- What a Damper violation of a thread changes beside the thread and the counters (R76, R255): the fault record of its core with its
grace timer, the counts of violations and the words that name the last one. -/
def violating : List Part := [.timeline, .flt, .regs .fltRec, .regs .datum, .regs .damper, .regs .stoker]

/-- A Damper violation of a thread, counted and recorded (R76, R255). -/
def Violated (s t : State) (th reason : Nat) : Prop :=
  t.rg .STK_DMP_VIOL (coreOf th) = s.rg .STK_DMP_VIOL (coreOf th) + 1 ∧ t.rg .DMP_VIOL_TOTAL 0 = s.rg .DMP_VIOL_TOTAL 0 + 1 ∧
    t.rg .DMP_LAST 0 = BitVec.ofNat 32 (th % 512 * 256 + reason % 256) ∧
    t.fb Fld.FLT_REC_STAT.ACTIVE (64 + coreOf th) = true ∧ bitAt (t.rg .FLT_REC_CAUSE (64 + coreOf th)).toNat 0 = true

/-! ### Faults and notices of a command -/

/-- A fault record is active and holds a cause (R259, R260). -/
def Raised (t : State) (r cause : Nat) : Prop :=
  t.fb Fld.FLT_REC_STAT.ACTIVE r = true ∧ bitAt (t.rg .FLT_REC_CAUSE r).toNat cause = true

/-- What a fault below CRITICAL changes beside its cause: its record, the grace timer and its count, FLT_RAISE (R260, R263). -/
def raising : List Part := [.timeline, .flt, .regs .fltRec, .regs .irqStat, .regs .datum]

/-- What a notice changes: the thread that takes it, the expiry of its wait, the claim of an interrupt, the counters (R81). -/
def notifying : List Part := [.timeline, .threads, .irq, .pmc, .freeCtr, .regs .irqStat, .regs .datum, .regs .pmc]

/-- What a guarded write changes beside its own effect: the unlock (R314). -/
def unlocking : List Part := [.hst, .regs .top]

/-! ### Commands of the host -/

/-- A host write of a register that its rows take (R12, R33, R314 to R316, R320, R367): the core die runs and the PCIe link is up, the
register is in no gated region, a guarded register finds the unlock armed, a write-once register is unwritten, a register of the clock
die is reached over the die-to-die link with no posted write before it, and the resource is the host's own. -/
structure State.Takes (s : State) (r : Reg) (i : Nat) : Prop where
  core  : s.coreUp = true
  link  : s.hst.pcieUp = true
  gate  : s.regGated r i = false
  guard : r.guarded i = true → s.hst.unlocked = true
  once  : r = .MAT_PRIORITY → s.hst.wosDone = false
  d2d   : r.onClock i = true → s.d2dUp = true
  clear : r.onClock i = true → s.hst.posted = []
  own   : ∀ o, regOwner r i = some o → ownFixed o = true ∨ s.owns .hostReg o = true

/-- The state in which a taken host write acts: a guarded register consumes the unlock, and the write-once register is marked
written. -/
def State.entered (s : State) (r : Reg) (i : Nat) : State :=
  let s1 := if r.guarded i then ({ s with hst := { s.hst with unlocked := false } }).setB Fld.TOP_UNLOCK.ARMED false else s
  if r = .MAT_PRIORITY then { s1 with hst := { s1.hst with wosDone := true } } else s1

/-- The completion record in the next place of a queue's ring gives a CID, a status and a RESULT (R324). -/
def Reports (s t : State) (q : Nat) (cid : BitVec 32) (st : Status) (result : Nat) : Prop :=
  t.fd Fld.HST_Q_CQ_TAIL.CQ_TAIL q = (s.fd Fld.HST_Q_CQ_TAIL.CQ_TAIL q + 1) % 65536 ∧
    ∃ x, SMap.get (fun _ => Completion.none) t.hst.cq (q * 64 + s.fd Fld.HST_Q_CQ_TAIL.CQ_TAIL q % 64) = x ∧ x.cid = cid ∧
      x.status = st ∧ x.result = BitVec.ofNat 64 result ∧ x.phase = s.fb Fld.HST_Q_CQ_TAIL.PHASE q

/-- What a completion changes: the queue's ring and its interrupt line (R324, R326). -/
def completing : List Part := [.hst, .irq, .regs .host, .regs .irqStat]

/-- A command of a host queue completes (R324, R325): its entry is fetched, its completion reports a status and a RESULT, `P` holds of
the next state, in which beside the queue, its interrupt line and the listed parts nothing differs. -/
def Answers (c : Instr) (s : State) (q : Nat) (cid : BitVec 32) (st : Status) (result : Nat) (l : List Part) (P : State → Prop) : Prop :=
  ∃ t, exec c s = .next t ∧
    t.fd Fld.HST_Q_SQ_HEAD.SQ_HEAD q = (s.fd Fld.HST_Q_SQ_HEAD.SQ_HEAD q + 1) % 65536 ∧
    Reports s t q cid st result ∧ P t ∧ Only (completing ++ l) s t

/-! ### What every step keeps -/

/-- The canonical form of a register file. -/
def RegFile.wf (m : RegFile) : Bool := SMap.wf RegKey.ord RegKey.dflt m

/-- Fuses are one-way (R372): what is blown stays blown, at the value it was blown to. -/
structure Fuses.Le (f g : Fuses) : Prop where
  lcP   : f.lcP = true → g.lcP = true
  lcF   : f.lcF = true → g.lcF = true
  lcR   : f.lcR = true → g.lcR = true
  owner : f.ownerSet = true → g.ownerSet = true
  inv   : f.invKill = true → g.invKill = true
  obs   : f.obsKill = true → g.obsKill = true
  prio  : f.matPrio.isSome = true → g.matPrio = f.matPrio
  dfdt  : f.dfdtCeil.isSome = true → g.dfdtCeil = f.dfdtCeil

/-- The form that every step keeps: memory and the register file are canonical, and the nanoseconds of the Datum lie below one second
(R2, R37). -/
structure State.Formed (s : State) : Prop where
  mem  : Memory.wf s.mem = true
  regs : RegFile.wf s.regs = true
  ns   : s.datum.word.ns.toNat < 1000000000

end Sys2Proof.Machine
end

