-- ==== Sys2Proof/Certificates/Slice0/Obligations.lean ====
section
/-!
DEFINITION. Certificates/Slice0/Obligations.lean: the statements for the provers. Each says what it states; the rules of the spec stand in
its docstring. In the statements of instructions, commands of the host's queues and host writes, `Completes`, `Answers` and `Does` have as
their conclusion that `exec` answers a next state, and say what it holds and that nothing else differs (Safety.lean).
-/
open Sys2Proof Sys2Proof.Machine

/-- A step runs the command at the front of the queue on the state with the queue's rest; on an empty queue the engine idles (the model's
choice, log entry 2). -/
def Obligations.StepRunsTheFront : Prop :=
  (∀ (c : Instr) (s : State), step { s with pending := c :: s.pending } = exec c s) ∧
    ∀ s : State, s.pending = [] → step s = .next s

/-- No command changes the queue of waiting commands: what a command does, it does to everything else. -/
def Obligations.CommandsKeepTheQueue : Prop :=
  ∀ (c : Instr) (s t : State), exec c s = .next t → t.pending = s.pending

/-- From every state in which memory and the register file are canonical and the nanoseconds of the Datum lie below one second, every step
gives such a state (R2, R37). -/
def Obligations.EveryStepKeepsTheForm : Prop :=
  ∀ s t : State, s.Formed → step s = .next t → t.Formed

/-- No step restores a fuse: from every state, what is blown stays blown, and a value once blown stays (R372). -/
def Obligations.FusesAreOneWay : Prop :=
  ∀ s t : State, step s = .next t → Fuses.Le s.pwr.fuses t.pwr.fuses

/-- What reset leaves: the form that every step keeps, no waiting command, every register at its reset word, the Datum increment at its
nominal value, the service CLOSED, no fuse blown, every fixed entry held by the engine, and every other free (R11, R35, R37). -/
def Obligations.ResetState : Prop :=
  State.reset.Formed ∧ State.reset.pending = [] ∧ (∀ (r : Reg) (i : Nat), State.reset.rg r i = r.reset i) ∧
    State.reset.inc = 0x00CCCCCCCCCCCCCD#64 ∧ State.reset.svcState = 0 ∧ State.reset.pwr.fuses = .blank ∧
    ∀ k, k < 384 → State.reset.fb Fld.TOP_OWN.HELD k = ownFixed k

/-- The limits of an increment: a value below 57 645 498 769 590 046 or above 57 646 651 691 094 652 is refused to every party whose write
is not lost, and these limits are the nominal value minus and plus 576 460 752 303 units (R39). -/
def Obligations.IncrementLimits : Prop :=
  (∀ (s : State) (p : Party) (v : BitVec 64), s.incLost p = false →
    (s.incDecide p v = .range ↔ v.toNat < 57645498769590046 ∨ 57646651691094652 < v.toNat)) ∧
    57645498769590046 + 576460752303 = 0x00CCCCCCCCCCCCCD ∧ 57646651691094652 - 576460752303 = 0x00CCCCCCCCCCCCCD

/-- Bound arithmetic saturates: a sum above 0xFFFF_FFFE is unbounded, and an unbounded operand on a side gives an unbounded result on that
side (R5). -/
def Obligations.BoundArithmeticSaturates : Prop :=
  ∀ a b : BitVec 32,
    let c := Side.word (Side.add (sideOf a) (sideOf b))
    (a = 0xFFFFFFFF#32 → c = 0xFFFFFFFF#32) ∧ (b = 0xFFFFFFFF#32 → c = 0xFFFFFFFF#32) ∧
      (0xFFFFFFFE < a.toNat + b.toNat → c = 0xFFFFFFFF#32) ∧
      (a ≠ 0xFFFFFFFF#32 → b ≠ 0xFFFFFFFF#32 → a.toNat + b.toNat ≤ 0xFFFFFFFE → c.toNat = a.toNat + b.toNat)

/-- A general register reads what was last written to it, and no write reaches another one; g0 reads zero and discards writes (Table 3.2).
-/
def Obligations.GeneralRegistersReadBack : Prop :=
  ∀ (t : Thread) (i j : Nat) (v : BitVec 64),
    t.gr 0 = 0 ∧ t.setG 0 v = t ∧ (i ≠ 0 → (t.setG i v).gr i = v) ∧ (j ≠ i → (t.setG i v).gr j = t.gr j) ∧
      (t.setG i v).pc = t.pc ∧ (t.setG i v).t = t.t ∧ (t.setG i v).b = t.b ∧ (t.setG i v).p = t.p ∧ (t.setG i v).k = t.k ∧
      (t.setG i v).st = t.st ∧ (t.setG i v).notices = t.notices

/-- The integer instructions of two registers (major 0x01), on every destination: gd takes the stated value, the program counter moves
past the instruction, and nothing else differs but the counters. SEL names its predicate by the low two bits of b (the model's reading,
log entry 62). DIVU and REMU with a divisor that is not zero. -/
def Obligations.RegisterArithmeticResults : Prop :=
  (∀ (s : State) (th : Fin 512) (d a b c : Fin 32),
    let x := s.gr th.val a.val
    let y := s.gr th.val b.val
    let gives := fun (i : Instr) (v : BitVec 64) => Completes i s th.val ((s.past th.val).setG d.val v) [] (fun _ => True)
    (s.Issues th.val false [a.val, b.val] →
      gives (.add th d a b) (x + y) ∧
      gives (.sub th d a b) (x - y) ∧
      gives (.and th d a b) (x &&& y) ∧
      gives (.or th d a b) (x ||| y) ∧
      gives (.xor th d a b) (x ^^^ y) ∧
      gives (.shl th d a b) (x <<< (y.toNat % 64)) ∧
      gives (.shr th d a b) (x >>> (y.toNat % 64)) ∧
      gives (.sar th d a b) (x.sshiftRight (y.toNat % 64)) ∧
      gives (.mul th d a b) (BitVec.ofNat 64 (x.toNat * y.toNat)) ∧
      gives (.mulhu th d a b) (BitVec.ofNat 64 (x.toNat * y.toNat / 2 ^ 64)) ∧
      gives (.min th d a b) (if x.toInt ≤ y.toInt then x else y) ∧
      gives (.max th d a b) (if x.toInt ≤ y.toInt then y else x) ∧
      gives (.minu th d a b) (if x.toNat ≤ y.toNat then x else y) ∧
      gives (.maxu th d a b) (if x.toNat ≤ y.toNat then y else x)) ∧
    (s.Issues th.val false [a.val, c.val] →
      gives (.sel th d a b c) (if (s.thread th.val).pr (b.val % 4) then x else s.gr th.val c.val)) ∧
    (s.Issues th.val false [a.val] →
      gives (.bswap th d a) (BitVec.ofNat 64 (leNat (leBytes 8 x.toNat).reverse)))) ∧
  (∀ (s : State) (th : Fin 512) (d a b : Fin 32), s.Issues th.val false [a.val, b.val] → s.gr th.val b.val ≠ 0 →
    Completes (.divu th d a b) s th.val
      ((s.past th.val).setG d.val (BitVec.ofNat 64 ((s.gr th.val a.val).toNat / (s.gr th.val b.val).toNat))) [] (fun _ => True) ∧
    Completes (.remu th d a b) s th.val
      ((s.past th.val).setG d.val (BitVec.ofNat 64 ((s.gr th.val a.val).toNat % (s.gr th.val b.val).toNat))) [] (fun _ => True))

/-- The integer instructions of a register and an immediate (majors 0x02 and 0x03). -/
def Obligations.IntegerImmediateResults : Prop :=
  ∀ (s : State) (th : Fin 512) (d a : Fin 32) (imm : BitVec 12) (wide : BitVec 21),
    let x := s.gr th.val a.val
    let gives := fun (i : Instr) (v : BitVec 64) => Completes i s th.val ((s.past th.val).setG d.val v) [] (fun _ => True)
    (s.Issues th.val false [a.val] →
      gives (.addi th d a imm) (x + BitVec.ofInt 64 imm.toInt) ∧
      gives (.andi th d a imm) (x &&& BitVec.ofNat 64 imm.toNat) ∧
      gives (.ori th d a imm) (x ||| BitVec.ofNat 64 imm.toNat) ∧
      gives (.xori th d a imm) (x ^^^ BitVec.ofNat 64 imm.toNat) ∧
      gives (.shli th d a imm) (x <<< (imm.toNat % 64)) ∧
      gives (.shri th d a imm) (x >>> (imm.toNat % 64)) ∧
      gives (.sari th d a imm) (x.sshiftRight (imm.toNat % 64))) ∧
    (s.Issues th.val false [] → gives (.lui th d wide) (BitVec.ofInt 64 (wide.toInt * 2 ^ 11)))

/-- The condition of CMP and CMPI by its code: EQ, NE, LT, LE, LTU, LEU, TEST, NTEST (R74). BR moves the program counter by its word
offset when the predicate equals its sense; JAL and JALR write the address of the next instruction and jump. The offsets are counted from
the instruction itself and JALR adds octets to a register read before gd is written (the model's reading, log entry 63). -/
def Obligations.PredicateAndBranchResults : Prop :=
  (∀ (s : State) (th : Fin 512) (p : Fin 4) (cond : BitVec 3) (a b : Fin 32) (imm : BitVec 16),
    let x := s.gr th.val a.val
    let y := s.gr th.val b.val
    let z := BitVec.ofInt 64 imm.toInt
    let holds := fun (x y : BitVec 64) =>
      (cond = 0 ∧ x = y) ∨ (cond = 1 ∧ x ≠ y) ∨ (cond = 2 ∧ x.toInt < y.toInt) ∨ (cond = 3 ∧ x.toInt ≤ y.toInt) ∨
      (cond = 4 ∧ x.toNat < y.toNat) ∨ (cond = 5 ∧ x.toNat ≤ y.toNat) ∨ (cond = 6 ∧ x &&& y ≠ 0) ∨ (cond = 7 ∧ x &&& y = 0)
    (s.Issues th.val false [a.val, b.val] → ∃ v : Bool, (v = true ↔ holds x y) ∧
      Completes (.cmp th p cond a b) s th.val ((s.past th.val).setP p.val v) [] (fun _ => True)) ∧
    (s.Issues th.val false [a.val] → ∃ v : Bool, (v = true ↔ holds x z) ∧
      Completes (.cmpi th p cond a imm) s th.val ((s.past th.val).setP p.val v) [] (fun _ => True)) ∧
    (∀ (t : Thread) (v : Bool) (q : Fin 4), (t.setP p.val v).pr q.val = if q = p then v else t.pr q.val)) ∧
  (∀ (s : State) (th : Fin 512) (p : Fin 4) (sense : Bool) (d a : Fin 32) (off imm : BitVec 16) (far : BitVec 21),
    let pc := (s.thread th.val).pc
    let u := s.past th.val
    (s.Issues th.val false [] →
      Completes (.br th p sense off) s th.val
        (if (s.thread th.val).pr p.val = sense then { u with pc := pc + BitVec.ofInt 64 (off.toInt * 4) } else u) [] (fun _ => True) ∧
      Completes (.jal th d far) s th.val { (u.setG d.val (pc + 4)) with pc := pc + BitVec.ofInt 64 (far.toInt * 4) } []
        (fun _ => True)) ∧
    (s.Issues th.val false [a.val] →
      Completes (.jalr th d a imm) s th.val
        { (u.setG d.val (pc + 4)) with pc := s.gr th.val a.val + BitVec.ofInt 64 imm.toInt } [] (fun _ => True)))

/-- NOP, FENCE and YIELD only advance the program counter; ERET takes the program counter and the privilege from EPC. -/
def Obligations.SystemInstructionResults : Prop :=
  ∀ (s : State) (th : Fin 512),
    let u := s.past th.val
    (s.Issues th.val false [] →
      Completes (.nop (.thread th)) s th.val u [] (fun _ => True) ∧
      Completes (.fence th) s th.val u [] (fun _ => True) ∧
      Completes (.yield th) s th.val u [] (fun _ => True)) ∧
    (s.Issues th.val true [] →
      Completes (.eret th) s th.val { u with pc := u.epc &&& ~~~1#64, k := u.epc.getLsbD 0 } [] (fun _ => True))

/-- An exception in U saves the address of the instruction in EPC, sets ECAUSE and EVAL and enters K at EVECT (R85): TRAP with its
immediate, a fetch outside the image, an instruction of K issued in U, a poisoned register read, a division by zero, a load or store that
no rule of the address space permits. An exception in K puts the thread into FAULTED with ECAUSE and EVAL set, cleans it up and raises
K_EXCEPTION in the record of its core (R85). -/
def Obligations.ExceptionResults : Prop :=
  (∀ (s : State) (th : Fin 512), s.coreUp = true → (s.thread th.val).st = .ready → (s.thread th.val).k = false →
    (∀ d a b : Fin 32, s.canFetch th.val = false → TrapsFromU (.add th d a b) s th.val .fetch (s.thread th.val).pc) ∧
    (s.canFetch th.val = true →
      (∀ imm : BitVec 11, TrapsFromU (.trap th imm) s th.val .trap (imm.setWidth 64)) ∧
      TrapsFromU (.eret th) s th.val .privilege ((encA 0x00 0 0 0 3 0).setWidth 64) ∧
      (∀ (g : Fin 32), TrapsFromU (.dens th g) s th.val .privilege ((encT 0x17 0 0 0 g.val 1 0).setWidth 64)) ∧
      (∀ (d a b : Fin 32) (x : BitVec 64), SMap.find (s.thread th.val).poison a.val = some x →
        TrapsFromU (.add th d a b) s th.val .poison x)) ∧
    (∀ d a b : Fin 32, s.Issues th.val false [a.val, b.val] → s.gr th.val b.val = 0 →
      TrapsFromU (.divu th d a b) s th.val .divide 0 ∧ TrapsFromU (.remu th d a b) s th.val .divide 0) ∧
    (∀ (d a : Fin 32) (size : BitVec 3) (off : BitVec 13) (ecc : EccResult) (n : Nat) (e : Trap), s.Issues th.val false [a.val] →
      loadBytes size = some n → windowOff false (s.ea th.val a.val off.toInt) n = none →
      s.access th.val (s.ea th.val a.val off.toInt) n false false = .error e →
      TrapsFromU (.ld th d a size off ecc) s th.val e.exc e.eval)) ∧
  (∀ (s : State) (th : Fin 512) (imm : BitVec 11), s.Issues th.val false [] → (s.thread th.val).k = true →
    ∃ t, exec (.trap th imm) s = .next t ∧ (t.thread th.val).st = .faulted ∧ (t.thread th.val).ecause = Exc.trap.code ∧
      (t.thread th.val).eval = imm.setWidth 64 ∧ (t.thread th.val).notices = [] ∧ (t.thread th.val).wait = none ∧
      (∀ h, h ≠ th.val → t.thread h = s.thread h) ∧
      t.fb Fld.FLT_REC_STAT.ACTIVE (64 + coreOf th.val) = true ∧ bitAt (t.rg .FLT_REC_CAUSE (64 + coreOf th.val)).toNat 1 = true ∧
      Only [.timeline, .threads, .frames, .launches, .jobs, .derived, .irq, .dtm, .flt, .pmc, .freeCtr, .regs .own, .regs .fltRec,
        .regs .irqStat, .regs .datum, .regs .pmc] s t)

/-- LD from memory takes the octets at the access's address, little-endian, sign-extended for codes 0 to 3 and zero-extended for codes 4
to 6; of a word that is poisoned, or found uncorrectable, no data is returned and the destination is marked (R72, R73). A load stores
nothing. A load of a register through the window by a program in K takes the register's word as a read gives it: the slow copy for a
register of the clock die (R70, R318). DTM_NOW and IRQ_CLAIM have rules of their own (R60, R294). -/
def Obligations.LoadResults : Prop :=
  (∀ (s : State) (th : Fin 512) (d a : Fin 32) (size : BitVec 3) (off : BitVec 13) (ecc : EccResult) (n f : Nat),
    s.Issues th.val false [a.val] → loadBytes size = some n →
    s.access th.val (s.ea th.val a.val off.toInt) n false false = .ok f →
    let x := s.ea th.val a.val off.toInt
    let v := leNat (s.octets f n)
    let u := s.past th.val
    (ecc = .clean → s.poisonedIn f n = false →
      Completes (.ld th d a size off ecc) s th.val
        (u.setG d.val (if size.toNat < 4 then BitVec.ofInt 64 (signedOf (8 * n) v) else BitVec.ofNat 64 v)) [] (fun _ => True)) ∧
    (ecc = .ce1 ∨ ecc = .ce2 → s.poisonedIn f n = false →
      Completes (.ld th d a size off ecc) s th.val
        (u.setG d.val (if size.toNat < 4 then BitVec.ofInt 64 (signedOf (8 * n) v) else BitVec.ofNat 64 v))
        [.timeline, .flt, .hst, .regs .fltRec, .regs .memory, .regs .datum] (fun _ => True)) ∧
    (ecc = .ue ∨ (ecc = .clean ∧ s.poisonedIn f n = true) →
      Completes (.ld th d a size off ecc) s th.val
        (if d.val = 0 then u else { u with poison := SMap.insert id u.poison d.val (BitVec.ofNat 64 x) })
        [.timeline, .flt, .hst, .regs .fltRec, .regs .memory, .regs .datum] (fun _ => True))) ∧
  (∀ (s : State) (th : Fin 512) (d a : Fin 32) (off : BitVec 13) (r : Reg) (i : Nat),
    let x := s.ea th.val a.val off.toInt
    s.Issues th.val false [a.val] → (s.thread th.val).k = true → areaOf x 4 = some .regs → x % 4 = 0 →
    Reg.ofAddr (x - 0x10000000) = some (r, i) →
    r ≠ .DTM_NOW_SEC_HI → r ≠ .DTM_NOW_SEC_LO → r ≠ .DTM_NOW_NS → r ≠ .DTM_NOW_FRAC → r ≠ .IRQ_CLAIM → r ≠ .STK_THR_STAT →
    Completes (.ld th d a 6 off .clean) s th.val ((s.past th.val).setG d.val (BitVec.ofNat 64 (s.readReg r i).toNat)) [] (fun _ => True))

/-- ST of a general register to memory stores its low octets, little-endian, at the access's address and nowhere else (R72). Within a
mirror window that waits for its END marker the store waits too (R362), and changes nothing. A store of a word to a register through the
window by a program in K is the program's write of that register (R70): beside what that write does and the counters, nothing differs. -/
def Obligations.StoreResults : Prop :=
  (∀ (s : State) (th : Fin 512) (d a : Fin 32) (size : BitVec 3) (off : BitVec 13) (f : Nat),
    let n := 2 ^ size.toNat
    s.Issues th.val false [d.val, a.val] → size.toNat < 4 →
    s.access th.val (s.ea th.val a.val off.toInt) n true false = .ok f →
    (s.mirrorStalls f n = false →
      Completes (.st th d a size off) s th.val (s.past th.val) [.mem, .hst, .mat]
        (fun t => Stored s t f (leBytes n (s.gr th.val d.val).toNat))) ∧
    (s.mirrorStalls f n = true → exec (.st th d a size off) s = .next s)) ∧
  (∀ (s : State) (th : Fin 512) (d a : Fin 32) (off : BitVec 13) (r : Reg) (i : Nat),
    let x := s.ea th.val a.val off.toInt
    let insn := encM 0x0A d.val a.val 2 off
    s.Issues th.val false [d.val, a.val] → (s.thread th.val).k = true → areaOf x 4 = some .regs → x % 4 = 0 →
    Reg.ofAddr (x - 0x10000000) = some (r, i) →
    ∃ t, exec (.st th d a 2 off) s = .next t ∧
      Only counting ((s.setThread th.val (s.past th.val)).progWrite th.val r i ((s.gr th.val d.val).extractLsb' 0 32) insn) t ∧
      (s.regGated r i = false → r.onClock i = true → s.d2dUp = true → s.writeViolation th.val r i ((s.gr th.val d.val).extractLsb' 0 32) = none →
        r ≠ .DTM_INC_LO → r ≠ .SVC_TALLY →
        t.hst.posted = s.hst.posted ++ [⟨.thread th.val, ⟨r, i⟩, (s.gr th.val d.val).extractLsb' 0 32⟩] ∧ MemorySame s t))

/-- AMOADD, AMOSWP and AMOCAS on a doubleword of memory: gd takes the old doubleword; AMOADD stores the sum, AMOSWP the register b, AMOCAS
the register b only where the old doubleword equals gd. No octet outside the doubleword changes. An atomic whose old doubleword is
poisoned returns no data: gd is marked, AMOSWP alone stores (R73). -/
def Obligations.AtomicResults : Prop :=
  (∀ (s : State) (th : Fin 512) (d a b : Fin 32) (f : Nat),
    let old := BitVec.ofNat 64 (leNat (s.octets f 8))
    let y := s.gr th.val b.val
    let u := (s.past th.val).setG d.val old
    s.access th.val (s.ea th.val a.val 0) 8 true true = .ok f → s.mirrorStalls f 8 = false → s.poisonedIn f 8 = false →
    (s.Issues th.val false [a.val, b.val] →
      Completes (.amoadd th d a b) s th.val u [.mem, .hst, .mat] (fun t => Stored s t f (leBytes 8 (old + y).toNat)) ∧
      Completes (.amoswp th d a b) s th.val u [.mem, .hst, .mat] (fun t => Stored s t f (leBytes 8 y.toNat))) ∧
    (s.Issues th.val false [d.val, a.val, b.val] →
      (old = s.gr th.val d.val →
        Completes (.amocas th d a b) s th.val u [.mem, .hst, .mat] (fun t => Stored s t f (leBytes 8 y.toNat))) ∧
      (old ≠ s.gr th.val d.val →
        Completes (.amocas th d a b) s th.val u [] (fun t => MemorySame s t)))) ∧
  (∀ (s : State) (th : Fin 512) (d a b : Fin 32) (f : Nat),
    let x := s.ea th.val a.val 0
    let w := s.past th.val
    let u : Thread := if d.val = 0 then w else { w with poison := SMap.insert id w.poison d.val (BitVec.ofNat 64 x) }
    s.access th.val x 8 true true = .ok f → s.mirrorStalls f 8 = false → s.poisonedIn f 8 = true →
    (s.Issues th.val false [a.val, b.val] →
      Completes (.amoadd th d a b) s th.val u [] (fun t => MemorySame s t) ∧
      Completes (.amoswp th d a b) s th.val u [.mem, .hst, .mat] (fun t => Stored s t f (leBytes 8 (s.gr th.val b.val).toNat))) ∧
    (s.Issues th.val false [d.val, a.val, b.val] →
      Completes (.amocas th d a b) s th.val u [] (fun t => MemorySame s t)))

/-- TLD and BLD load time values and bounds, with tag PROGRAM for a bound; TST and BST store them, without the tag. -/
def Obligations.TimeMemoryResults : Prop :=
  ∀ (s : State) (th : Fin 512) (td : Fin 8) (a : Fin 32) (off : BitVec 16) (f : Nat),
    let x := s.ea th.val a.val off.toInt
    (s.Issues th.val false [a.val] → s.poisonedIn f 16 = false → s.access th.val x 16 false true = .ok f →
      let sec := BitVec.ofNat 64 (leNat ((s.octets f 16).take 8))
      let low := BitVec.ofNat 64 (leNat ((s.octets f 16).drop 8))
      (low.toNat / 2 ^ 32 ≤ 999999999 →
        Completes (.tld th td a off) s th.val
          ((s.past th.val).setT td.val ⟨sec, BitVec.ofNat 32 (low.toNat / 2 ^ 32), BitVec.ofNat 32 low.toNat⟩) []
          (fun t => MemorySame s t)) ∧
      (999999999 < low.toNat / 2 ^ 32 → (s.thread th.val).k = false → TrapsFromU (.tld th td a off) s th.val .timeRange 0)) ∧
    (s.Issues th.val false [a.val] → s.poisonedIn f 8 = false → s.access th.val x 8 false true = .ok f →
      let w := BitVec.ofNat 64 (leNat (s.octets f 8))
      Completes (.bld th td a off) s th.val
        ((s.past th.val).setBd td.val ⟨⟨BitVec.ofNat 32 (w.toNat / 2 ^ 32), BitVec.ofNat 32 w.toNat⟩, .program⟩) []
        (fun t => MemorySame s t)) ∧
    (s.Issues th.val false [a.val] → s.poisonedIn f 16 = true → s.access th.val x 16 false true = .ok f →
      Completes (.tld th td a off) s th.val
        { (s.past th.val) with poison := SMap.insert id (s.thread th.val).poison (32 + td.val) (BitVec.ofNat 64 x) } []
        (fun t => MemorySame s t)) ∧
    (s.Issues th.val false [a.val] → s.poisonedIn f 8 = true → s.access th.val x 8 false true = .ok f →
      Completes (.bld th td a off) s th.val
        { (s.past th.val) with poison := SMap.insert id (s.thread th.val).poison (40 + td.val) (BitVec.ofNat 64 x) } []
        (fun t => MemorySame s t)) ∧
    (s.Issues th.val false [a.val, 32 + td.val] → s.access th.val x 16 true true = .ok f → s.mirrorStalls f 16 = false →
      let v := s.tr th.val td.val
      Completes (.tst th td a off) s th.val (s.past th.val) [.mem, .hst, .mat]
        (fun t => Stored s t f (leBytes 8 v.sec.toNat ++ leBytes 4 v.frac.toNat ++ leBytes 4 v.ns.toNat))) ∧
    (s.Issues th.val false [a.val, 40 + td.val] → s.access th.val x 8 true true = .ok f → s.mirrorStalls f 8 = false →
      let v := (s.br th.val td.val).b
      Completes (.bst th td a off) s th.val (s.past th.val) [.mem, .hst, .mat]
        (fun t => Stored s t f (leBytes 4 v.late.toNat ++ leBytes 4 v.early.toNat)))

/-- MFC and MTC move control registers (Table 3.4): what each reads as, the writes it takes, and PRIVILEGE where the table permits a
thread in U none. -/
def Obligations.ControlRegisterResults : Prop :=
  ∀ (s : State) (th : Fin 512) (d a c : Fin 32),
    let t := s.thread th.val
    let reads := fun (v : BitVec 64) => Completes (.mfc th d c) s th.val ((s.past th.val).setG d.val v) [] (fun _ => True)
    let x := s.gr th.val a.val
    let u := s.past th.val
    let takes := fun (r : Thread) => Completes (.mtc th a c) s th.val r [] (fun _ => True)
    (s.Issues th.val false [] →
      (c.val = 0 → reads (BitVec.ofNat 64 th.val)) ∧
      (c.val = 1 → reads (if t.k then 1 else 0)) ∧
      (c.val = 6 → reads (BitVec.ofNat 64 ((if t.sat then 1 else 0) + (if t.utc then 2 else 0)))) ∧
      (c.val = 24 → reads (s.imageId th.val)) ∧
      (t.k = true →
        (c.val = 2 → reads t.epc) ∧ (c.val = 3 → reads (BitVec.ofNat 64 t.ecause)) ∧ (c.val = 4 → reads t.eval) ∧
        (c.val = 5 → reads t.evect) ∧
        (8 ≤ c.val ∧ c.val ≤ 15 → reads (SMap.get (fun _ => 0) t.wbase (c.val - 8))) ∧
        (16 ≤ c.val ∧ c.val ≤ 23 → reads (SMap.get (fun _ => 0) t.wlim (c.val - 16)))) ∧
      (t.k = false → (2 ≤ c.val ∧ c.val ≤ 5 ∨ 8 ≤ c.val ∧ c.val ≤ 23) →
        TrapsFromU (.mfc th d c) s th.val .privilege ((encA 0x18 d.val c.val 0 0 0).setWidth 64))) ∧
    (s.Issues th.val false [a.val] →
      (c.val = 6 → takes { u with sat := x.getLsbD 0, utc := x.getLsbD 1 }) ∧
      (t.k = true →
        (c.val = 1 → takes { u with k := x.getLsbD 0 }) ∧ (c.val = 2 → takes { u with epc := x }) ∧
        (c.val = 5 → takes { u with evect := x &&& ~~~3#64 }) ∧
        (8 ≤ c.val ∧ c.val ≤ 15 →
          takes { u with wbase := SMap.set id (fun _ => 0) t.wbase (c.val - 8) (x &&& ~~~0xFFF#64) }) ∧
        (16 ≤ c.val ∧ c.val ≤ 23 →
          takes { u with wlim := SMap.set id (fun _ => 0) t.wlim (c.val - 16) (x &&& ~~~0xFFC#64) })) ∧
      (t.k = false → (1 ≤ c.val ∧ c.val ≤ 5 ∨ 8 ≤ c.val ∧ c.val ≤ 23) →
        TrapsFromU (.mtc th a c) s th.val .privilege ((encA 0x18 c.val a.val 0 1 0).setWidth 64)))

/-- Time registers hold 2^-32 ns exactly: TNOW takes the replica at the start of the tick (R77), TMOV copies, TADD and TADDS add a signed
count of 2^-32 ns or of seconds, TSUB takes the difference saturated at 2^63 - 1 with TSTAT.SAT, TGET and TPUT move SEC or NS and FRAC; a
result that is no Datum word raises TIME_RANGE and leaves the destination alone (R65). A seconds count above 64 bits is taken for such a
result too (the model's reading, log entry 64). TCMP and BCHK write a predicate: LT, LE, EQ, NE of two time values; whether both fields of
one bound are at least those of another. A reserved condition of TCMP raises ILLEGAL. -/
def Obligations.TimeResults : Prop :=
  (∀ (s : State) (th : Fin 512) (td tx ty : Fin 8) (g : Fin 32) (low : Bool),
    let x := s.tr th.val tx.val
    let y := s.tr th.val ty.val
    let v := s.gr th.val g.val
    let u := s.past th.val
    let span : Int := 2 ^ 64 * 10 ^ 9 * 2 ^ 32
    let sum : Int := (x.count : Int) + v.toInt
    let secs : Int := (x.count : Int) + v.toInt * (10 ^ 9 * 2 ^ 32)
    let diff : Int := (x.count : Int) - y.count
    (s.Issues th.val false [] →
      Completes (.tnow th td) s th.val (u.setT td.val s.replica.word) [] (fun _ => True)) ∧
    (s.Issues th.val false [32 + tx.val] →
      Completes (.tmov th td tx) s th.val (u.setT td.val x) [] (fun _ => True) ∧
      Completes (.tget th g tx low) s th.val (u.setG g.val (if low then x.ns ++ x.frac else x.sec)) [] (fun _ => True)) ∧
    (s.Issues th.val false [32 + tx.val, g.val] →
      (0 ≤ sum ∧ sum < span → Completes (.tadd th td tx g) s th.val (u.setT td.val (TimeVal.ofCount sum.toNat)) [] (fun _ => True)) ∧
      (0 ≤ secs ∧ secs < span → Completes (.tadds th td tx g) s th.val (u.setT td.val (TimeVal.ofCount secs.toNat)) [] (fun _ => True)) ∧
      ((s.thread th.val).k = false → sum < 0 ∨ span ≤ sum → TrapsFromU (.tadd th td tx g) s th.val .timeRange 0) ∧
      ((s.thread th.val).k = false → secs < 0 ∨ span ≤ secs → TrapsFromU (.tadds th td tx g) s th.val .timeRange 0)) ∧
    (s.Issues th.val false [32 + tx.val, 32 + ty.val] →
      (diff.natAbs < 2 ^ 63 → Completes (.tsub th g tx ty) s th.val (u.setG g.val (BitVec.ofInt 64 diff)) [] (fun _ => True)) ∧
      (2 ^ 63 ≤ diff → Completes (.tsub th g tx ty) s th.val { (u.setG g.val 0x7FFFFFFFFFFFFFFF#64) with sat := true } [] (fun _ => True)) ∧
      (diff ≤ -2 ^ 63 → Completes (.tsub th g tx ty) s th.val { (u.setG g.val 0x8000000000000001#64) with sat := true } [] (fun _ => True))) ∧
    (s.Issues th.val false [32 + td.val, g.val] →
      Completes (.tput th td g false) s th.val
        (u.setT td.val ⟨v, (s.tr th.val td.val).ns, (s.tr th.val td.val).frac⟩) [] (fun _ => True) ∧
      (v.toNat / 2 ^ 32 ≤ 999999999 →
        Completes (.tput th td g true) s th.val
          (u.setT td.val ⟨(s.tr th.val td.val).sec, BitVec.ofNat 32 (v.toNat / 2 ^ 32), BitVec.ofNat 32 v.toNat⟩) [] (fun _ => True)) ∧
      ((s.thread th.val).k = false → 999999999 < v.toNat / 2 ^ 32 → TrapsFromU (.tput th td g true) s th.val .timeRange 0))) ∧
  (∀ (s : State) (th : Fin 512) (p : Fin 4) (tx ty bx bz : Fin 8) (cond : BitVec 3),
    let x := s.tr th.val tx.val
    let y := s.tr th.val ty.val
    let a := (s.br th.val bx.val).b
    let c := (s.br th.val bz.val).b
    let holds := (cond = 0 ∧ x.count < y.count) ∨ (cond = 1 ∧ x.count ≤ y.count) ∨ (cond = 2 ∧ x = y) ∨ (cond = 3 ∧ x ≠ y)
    (s.Issues th.val false [32 + tx.val, 32 + ty.val] →
      (cond.toNat < 4 → ∃ v : Bool, (v = true ↔ holds) ∧
        Completes (.tcmp th p tx ty cond) s th.val ((s.past th.val).setP p.val v) [] (fun _ => True)) ∧
      (4 ≤ cond.toNat → (s.thread th.val).k = false →
        TrapsFromU (.tcmp th p tx ty cond) s th.val .illegal ((encT 0x10 p.val tx.val ty.val 0 5 cond.toNat).setWidth 64))) ∧
    (s.Issues th.val false [40 + bx.val, 40 + bz.val] → ∃ v : Bool,
      (v = true ↔ c.early.toNat ≤ a.early.toNat ∧ c.late.toNat ≤ a.late.toNat) ∧
      Completes (.bchk th p bx bz) s th.val ((s.past th.val).setP p.val v) [] (fun _ => True)))

/-- The bound instructions: BNOW takes the Traverse bound of the Datum, unbounded while the replica is not sure (R16), with tag DATUM; BAT
the bound of an instant on a port, with tag PROJECTED; BMOV copies; BADD and BMAX work field by field, an unbounded field staying
unbounded, and inherit the first tag that is not PROGRAM (R67); BWID widens by the halves of a general register and keeps the tag; BFROMG
takes a bound with tag PROGRAM; BTOG gives EARLY × 2^32 + LATE. BCVT gives both fields in a coarser unit, rounded upward, an unbounded
field staying so; LATE may first be widened by one output unit. The reserved unit raises ILLEGAL. -/
def Obligations.BoundResults : Prop :=
  (∀ (s : State) (th : Fin 512) (bd bx bz tx : Fin 8) (g : Fin 32),
    let x := s.br th.val bx.val
    let y := s.br th.val bz.val
    let v := s.gr th.val g.val
    let u := s.past th.val
    let gives := fun (i : Instr) (b : TagBound) => Completes i s th.val (u.setBd bd.val b) [] (fun _ => True)
    let add := fun (p q : BitVec 32) =>
      BitVec.ofNat 32 (min 0xFFFFFFFF (p.toNat + q.toNat))
    let max_ := fun (p q : BitVec 32) => if p.toNat ≤ q.toNat then q else p
    let tag := if x.tag = .program then y.tag else x.tag
    (s.Issues th.val false [] →
      gives (.bnow th bd) ⟨if s.replicaOk then s.datumBound s.now else ⟨0xFFFFFFFF#32, 0xFFFFFFFF#32⟩, .datum⟩) ∧
    (s.Issues th.val false [32 + tx.val, g.val] →
      gives (.bat th bd tx g) ⟨s.boundAt (v.toNat % 64) (s.tr th.val tx.val), .projected (s.tr th.val tx.val)⟩) ∧
    (s.Issues th.val false [40 + bx.val] →
      gives (.bmov th bd bx) x ∧
      Completes (.btog th g bx) s th.val (u.setG g.val (x.b.early ++ x.b.late)) [] (fun _ => True)) ∧
    (s.Issues th.val false [40 + bx.val, 40 + bz.val] →
      gives (.badd th bd bx bz) ⟨⟨add x.b.early y.b.early, add x.b.late y.b.late⟩, tag⟩ ∧
      gives (.bmax th bd bx bz) ⟨⟨max_ x.b.early y.b.early, max_ x.b.late y.b.late⟩, tag⟩) ∧
    (s.Issues th.val false [40 + bx.val, g.val] →
      gives (.bwid th bd bx g) ⟨⟨add x.b.early (BitVec.ofNat 32 (v.toNat / 2 ^ 32)), add x.b.late (BitVec.ofNat 32 v.toNat)⟩, x.tag⟩) ∧
    (s.Issues th.val false [g.val] →
      gives (.bfromg th bd g) ⟨⟨BitVec.ofNat 32 (v.toNat / 2 ^ 32), BitVec.ofNat 32 v.toNat⟩, .program⟩)) ∧
  (∀ (s : State) (th : Fin 512) (g : Fin 32) (bx : Fin 8) (unit : BitVec 2) (addOne : Bool), s.Issues th.val false [40 + bx.val] →
    let x := (s.br th.val bx.val).b
    let size := if unit = 0 then 1 else if unit = 1 then 256 else 256000
    let up := fun (n : Nat) => BitVec.ofNat 32 (if 0xFFFFFFFF ≤ n then 0xFFFFFFFF else (n + size - 1) / size)
    let late := if addOne then x.late.toNat + size else x.late.toNat
    (unit ≠ 3 → Completes (.bcvt th g bx unit addOne) s th.val ((s.past th.val).setG g.val (up x.early.toNat ++ up late)) []
      (fun _ => True)) ∧
    (unit = 3 → (s.thread th.val).k = false →
      TrapsFromU (.bcvt th g bx unit addOne) s th.val .illegal
        ((encT 0x12 0 bx.val 0 g.val 8 (unit.toNat + (if addOne then 4 else 0))).setWidth 64)))

/-- TWF writes a time value into a frame that the thread holds unfrozen, in the stated format, big-endian, and records the full value and
whether it lies later than the Datum; BWF does so with a bound whose tag is servable. With no UTC offset TWF in the NTP format writes
nothing and sets TSTAT.UTC (Table 3.10). Nothing else of memory changes (R78, R79). -/
def Obligations.FrameWriteResults : Prop :=
  ∀ (s : State) (th : Fin 512) (tx bx : Fin 8) (g : Fin 32) (unit : BitVec 2) (flat h : Nat) (f : Frame),
    let a := (s.gr th.val g.val).toNat
    let v := s.tr th.val tx.val
    let x := s.br th.val bx.val
    let u := s.past th.val
    let twf := fun (fmt : BitVec 2) (bs : List Byte) =>
      s.frameWrite th.val a bs.length = some (flat, h, f) →
        Completes (.twf th tx g fmt) s th.val u [.mem, .hst, .frames]
          (fun t => Stored s t flat bs ∧
            SMap.find t.frames h = some { f with times := f.times ++ [⟨v, decide (s.replica.word.count < v.count)⟩] })
    let size := if unit = 0 then 1 else if unit = 1 then 256 else 256000
    let up := fun (n : Nat) => BitVec.ofNat 32 (if 0xFFFFFFFF ≤ n then 0xFFFFFFFF else (n + size - 1) / size)
    (s.Issues th.val false [32 + tx.val, g.val] →
      twf 0 (beBytes 6 v.sec.toNat ++ beBytes 4 v.ns.toNat) ∧
      (s.fb Fld.DTM_UTC_OFFSET.VALID = true → twf 1 (beBytes 8 (s.ntpTime v))) ∧
      twf 2 (beBytes 8 v.sec.toNat ++ beBytes 4 v.ns.toNat ++ beBytes 4 v.frac.toNat) ∧
      (s.fb Fld.DTM_UTC_OFFSET.VALID = false → s.frameWrite th.val a 8 = some (flat, h, f) →
        Completes (.twf th tx g 1) s th.val { u with utc := true } [] (fun _ => True)) ∧
      ((s.thread th.val).k = false → s.frameWrite th.val a 10 = none →
        TrapsFromU (.twf th tx g 0) s th.val .access (s.gr th.val g.val))) ∧
    (s.Issues th.val false [40 + bx.val, g.val] → unit ≠ 3 →
      (x.tag = .port ∨ (∃ q, x.tag = .projected q) → s.frameWrite th.val a 8 = some (flat, h, f) →
        (∀ addOne : Bool,
          Completes (.bwf th bx g unit addOne) s th.val u [.mem, .hst, .frames]
            (fun t => Stored s t flat (beBytes 4 (up x.b.early.toNat).toNat
                ++ beBytes 4 (up (if addOne then x.b.late.toNat + size else x.b.late.toNat)).toNat) ∧
              SMap.find t.frames h = some { f with bounds := f.bounds ++ [x.tag] }))) ∧
      (x.tag = .program ∨ x.tag = .datum → ∀ addOne : Bool,
        Completes (.bwf th bx g unit addOne) s th.val u violating (fun t => Violated s t th.val 4 ∧ MemorySame s t)))

/-- The status word of an instruction: the code in bits 63 to 56, the detail in 55 to 48, zero in 47 to 32, the result in 31 to 0 (R75).
EARM arms a timeline event in a slot that the thread owns and that is free, with the lead of Table 2.1; ECAN frees an armed slot before
its instant; EWAIT returns the oldest notice or puts the thread into WAIT (R80, R81). -/
def Obligations.EventInstructionResults : Prop :=
  (∀ (st : Status) (detail result : Nat), detail < 256 → result < 2 ^ 32 →
    (statusWord st detail result).extractLsb' 56 8 = BitVec.ofNat 8 st.code ∧
    (statusWord st detail result).extractLsb' 48 8 = BitVec.ofNat 8 detail ∧
    (statusWord st detail result).extractLsb' 32 16 = 0 ∧
    (statusWord st detail result).extractLsb' 0 32 = BitVec.ofNat 32 result) ∧
  (∀ (s : State) (th : Fin 512) (g : Fin 32) (td tx : Fin 8),
    let w := s.gr th.val g.val
    let at_ := s.tr th.val tx.val
    let h := w.toNat % 65536
    let target := (w.extractLsb' 20 9).toNat
    let expiry := (w.extractLsb' 16 3).toNat
    let u := s.past th.val
    (s.Issues th.val false [g.val, 32 + tx.val] → s.d2dUp = true → expiry ≤ 1 → w.extractLsb' 29 35 = 0 →
      ((s.thread th.val).k = true ∨ coreOf target = coreOf th.val) →
      ownFixed (slotOwner h) = false → s.owns (.thread th.val) (slotOwner h) = true → (s.slot h).armed = none →
      s.gatedCluster (clusterOf target) = false →
      (s.datum.count56 + 4000 * 2 ^ 56 ≤ at_.count * 2 ^ 24 →
        Completes (.earm th g tx) s th.val (u.setG g.val (statusWord .ok 0 0)) [.timeline, .regs .datum]
          (fun t => (t.slot h).armed = some ⟨at_, .thread target, decide (expiry = 1)⟩ ∧ (∀ k, k ≠ h → t.slot k = s.slot k))) ∧
      (at_.count * 2 ^ 24 < s.datum.count56 + 4000 * 2 ^ 56 → w.getLsbD 19 = false →
        Completes (.earm th g tx) s th.val (u.setG g.val (statusWord .past 0 0)) [.regs .datum]
          (fun t => t.rg .DTM_TL_REFUSED 0 = s.rg .DTM_TL_REFUSED 0 + 1))) ∧
    (s.Issues th.val false [g.val] → s.d2dUp = true → ownFixed (slotOwner h) = false →
      s.owns (.thread th.val) (slotOwner h) = true →
      (∀ e, (s.slot h).armed = some e → SMap.find s.launches h = none → s.reached e.instant = false →
        Completes (.ecan th g) s th.val (u.setG g.val (statusWord .cancelled 0 0)) [.timeline, .regs .datum]
          (fun t => (t.slot h).armed = none ∧ (∀ k, k ≠ h → t.slot k = s.slot k))) ∧
      ((s.slot h).armed = none → (s.slot h).last ≠ .fired →
        Completes (.ecan th g) s th.val (u.setG g.val (statusWord .empty 0 0)) [] (fun _ => True))) ∧
    (s.Issues th.val false [g.val] →
      ((s.thread th.val).notices = [] →
        Completes (.ewait th td g) s th.val
          { u with st := .wait, wait := some ⟨td.val, g.val, if w.getLsbD 16 then none else some (w.toNat % 65536)⟩ } [] (fun _ => True)) ∧
      (∀ n r, (s.thread th.val).notices = n :: r → n.kind ≠ .irq → w.getLsbD 16 = true →
        Completes (.ewait th td g) s th.val
          { (({ u with notices := r }.setG g.val n.word).setT td.val n.instant) with st := .ready, wait := none } [] (fun _ => True))))

/-- The packet instructions: PADDR and PINFO of a frame of the cluster's pool, PALLOC of a transmit frame where the pool has room, PFREE
of a held frame, PTSB with tag PORT (R82). PCOPY copies octets to where a store would put them, and PSEND queues a held frame on a port,
freezing it (R82). -/
def Obligations.PacketResults : Prop :=
  (∀ (s : State) (th : Fin 512) (d a : Fin 32) (bd : Fin 8),
    let x := s.gr th.val a.val
    let h := x.toNat % 2 ^ 32
    let u := s.past th.val
    s.Issues th.val false [a.val] →
      (∀ f, SMap.find s.frames h = some f →
        Completes (.paddr th d a) s th.val (u.setG d.val (BitVec.ofNat 64 (cellAddr f.cell))) [] (fun _ => True) ∧
        Completes (.pinfo th d a) s th.val
          (u.setG d.val (BitVec.ofNat 16 f.len ++ (BitVec.ofNat 8 (f.port % 64)) ++ BitVec.ofNat 8 f.cls ++ 0#32)) [] (fun _ => True) ∧
        (f.holder = some th.val → f.frozen = false →
          Completes (.pfree th a) s th.val u [.frames]
            (fun t => SMap.find t.frames h = none ∧ ∀ k, k ≠ h → SMap.find t.frames k = SMap.find s.frames k)) ∧
        ((f.holder ≠ some th.val ∨ f.frozen = true) → (s.thread th.val).k = false →
          TrapsFromU (.pfree th a) s th.val .access (BitVec.ofNat 64 h))) ∧
      (SMap.find s.frames h = none → ∃ v, Completes (.paddr th d a) s th.val (u.setG d.val v) [] (fun _ => True)) ∧
      (SMap.find s.frames h = none → ∃ v, Completes (.pinfo th d a) s th.val (u.setG d.val v) [] (fun _ => True)) ∧
      (0 < x.toNat → x.toNat ≤ 9212 → ∀ i, s.findCells (clusterOf th.val) (cellsOf x.toNat) = some i →
        Completes (.palloc th d a) s th.val (u.setG d.val (statusWord .ok 0 (frameHandle (clusterOf th.val) i))) [.frames, .prt]
          (fun t => ∃ f, SMap.find t.frames (frameHandle (clusterOf th.val) i) = some f ∧ f.holder = some th.val ∧ f.frozen = false ∧
            f.len = x.toNat ∧ f.cell = i)) ∧
      (x.toNat = 0 → Completes (.palloc th d a) s th.val (u.setG d.val (statusWord .range 0 0)) [] (fun _ => True)) ∧
      (9212 < x.toNat → Completes (.palloc th d a) s th.val (u.setG d.val (statusWord .tooLong 0 0)) [] (fun _ => True)) ∧
      (0 < x.toNat → x.toNat ≤ 9212 → s.findCells (clusterOf th.val) (cellsOf x.toNat) = none →
        Completes (.palloc th d a) s th.val (u.setG d.val (statusWord .empty 0 0)) [] (fun _ => True)) ∧
      Completes (.ptsb th bd a) s th.val (u.setBd bd.val ⟨s.frameBound h, .port⟩) [] (fun _ => True)) ∧
  (∀ (s : State) (th : Fin 512) (d a b : Fin 32),
    let k := (s.thread th.val).k
    let n := min 4096 ((s.gr th.val d.val).toNat % 8192)
    let src := (s.gr th.val b.val).toNat
    let dst := (s.gr th.val a.val).toNat
    let h := (s.gr th.val a.val).toNat % 2 ^ 32
    let port := (s.gr th.val b.val).toNat % 64
    let queue := ((s.gr th.val b.val).extractLsb' 8 3).toNat
    (s.Issues th.val false [d.val, a.val, b.val] →
      (n = 0 → Completes (.pcopy th d a b) s th.val (s.past th.val) [] (fun t => MemorySame s t)) ∧
      (∀ x y, n ≠ 0 → s.dataAccess th.val k src n false = some x → s.dataAccess th.val k dst n true = some y →
        s.poisonedIn x n = false → s.mirrorStalls y n = false →
        Completes (.pcopy th d a b) s th.val (s.past th.val) [.mem, .hst, .mat] (fun t => Stored s t y (s.octets x n)))) ∧
    (s.Issues th.val false [a.val, b.val] → ∀ f, SMap.find s.frames h = some f → f.holder = some th.val → f.frozen = false →
      queue < 5 → (s.gr th.val b.val).getLsbD 11 = false → f.len + 4 ≤ s.fd Fld.PRT_MAXFRAME.MAX port →
      s.hasToken (port * 8 + queue) = true → s.poisonedIn (cmemFlat f.cluster (cellAddr f.cell)) f.len = false → s.linkUp port = true →
      Completes (.psend th d a b) s th.val ((s.past th.val).setG d.val (statusWord .ok 0 0)) [.frames, .prt, .flt]
        (fun t => SMap.find t.frames h = some { f with frozen := true })) ∧
    (s.Issues th.val false [a.val, b.val] →
      (SMap.find s.frames h = none →
        Completes (.psend th d a b) s th.val ((s.past th.val).setG d.val (statusWord .notOwner 0 0)) [] (fun _ => True)) ∧
      (∀ f, SMap.find s.frames h = some f → f.holder = some th.val → f.frozen = false → queue = 7 →
        Completes (.psend th d a b) s th.val ((s.past th.val).setG d.val (statusWord .queue 0 0)) [] (fun _ => True))))

/-- LGATE gives the first launch point of a port at or after an instant, with OK; RANGE with the time zero for a ganged port, and LOST
with the time zero where the port has no link (R83). LSEND of a frame that the thread holds, at a launch point of a port with a link, in a
slot that it owns and that is free, with everything Table 3.15 checks in order, arms the launch and freezes the frame; a frame whose
recorded times or bounds are not those of the instant is a Damper violation with reason 0x05, and a frame without a token of its port's
launch ceiling one with reason 0x06 (R83, R76). -/
def Obligations.LaunchResults : Prop :=
  (∀ (s : State) (th : Fin 512) (td tx : Fin 8) (g : Fin 32), s.Issues th.val false [32 + tx.val, g.val] →
    let port := (s.gr th.val g.val).toNat % 64
    let gives := fun (st : Status) (t : TimeVal) =>
      Completes (.lgate th td tx g) s th.val (((s.past th.val).setT td.val t).setG g.val (statusWord st 0 0)) [] (fun _ => True)
    (s.ganged port = true → gives .range .zero) ∧
    (s.ganged port = false → s.linkUp port = false → gives .lost .zero) ∧
    (s.ganged port = false → s.linkUp port = true → ∀ t, s.launchPoint port (s.tr th.val tx.val) = some t → gives .ok t)) ∧
  (∀ (s : State) (th : Fin 512) (g : Fin 32) (tx : Fin 8) (f : Frame) (k : Nat),
    let w := s.gr th.val g.val
    let at_ := s.tr th.val tx.val
    let h := w.toNat % 2 ^ 32
    let slot := (w.extractLsb' 32 16).toNat
    let port := (w.extractLsb' 48 6).toNat
    let u := s.past th.val
    s.Issues th.val false [g.val, 32 + tx.val] → SMap.find s.frames h = some f → f.holder = some th.val → f.frozen = false →
    ownFixed (slotOwner slot) = false → s.owns (.thread th.val) (slotOwner slot) = true → (s.slot slot).armed = none →
    s.linkUp port = true → s.ganged port = false → s.launchIndex port at_ = some k →
    lineRound ((s.lineMode port).point (s.port port).phase k) = at_ → f.len + 4 ≤ s.fd Fld.PRT_MAXFRAME.MAX port →
    s.replicaOk = true → s.gateRefusal port = none →
    (f.launchOk at_ = true → s.hasToken (port * 8 + 7) = true → s.tooSoon at_ armLead = false →
      Completes (.lsend th g tx) s th.val (u.setG g.val (statusWord .ok 0 0)) [.timeline, .frames, .launches, .flt, .regs .datum]
        (fun t => SMap.find t.frames h = some { f with frozen := true } ∧ (t.slot slot).armed.isSome ∧
          ∃ l, SMap.find t.launches slot = some l ∧ l.thread = th.val ∧ l.frame = h ∧ l.port = port ∧ l.instant = at_ ∧ l.lost = false)) ∧
    (f.launchOk at_ = true → s.hasToken (port * 8 + 7) = true → s.tooSoon at_ armLead = true →
      Completes (.lsend th g tx) s th.val (u.setG g.val (statusWord .past 0 0)) [.regs .datum]
        (fun t => SMap.find t.frames h = some f)) ∧
    (f.launchOk at_ = false →
      Completes (.lsend th g tx) s th.val (u.setG g.val (statusWord .damper 0x0E 0)) violating
        (fun t => Violated s t th.val 5 ∧ SMap.find t.frames h = some f)) ∧
    (f.launchOk at_ = true → s.hasToken (port * 8 + 7) = false →
      Completes (.lsend th g tx) s th.val (u.setG g.val (statusWord .damper 0x0E 0)) violating
        (fun t => Violated s t th.val 6 ∧ SMap.find t.frames h = some f)))

/-- CSUB queues the descriptor's job on the cluster's lane, where one of the thread's notice entries is reserved for its outcome, and
answers BUSY where none is free; CDRV derives a key from a DERIVE_ONLY slot, any other use being a Damper violation with reason 0x09; CREL
releases a derived key (R84, R275). The free handle that CDRV takes is the lowest (the model's choice, log entry 70). CRYPTO_JOB_COMPLETE
ends the job that a lane runs: it leaves the lane; a job whose key was refused delivers its notice with that status to a running thread,
in the entry reserved for it, and stores nothing (R84). -/
def Obligations.CryptoResults : Prop :=
  (∀ (s : State) (th : Fin 512) (d a b : Fin 32) (flat : Nat),
    let x := s.gr th.val a.val
    let c := clusterOf th.val
    let t := s.thread th.val
    let u := s.past th.val
    let e := s.octets flat 64
    (s.Issues th.val false [a.val, b.val] → s.cmemRead th.val x.toNat 64 = some flat → s.poisonedIn flat 64 = false → descOk e = true →
      (t.hasFree = true → (s.laneJobs c).any (fun j => j.got.isSome) = true →
        Completes (.csub th d a b) s th.val (({ u with reserved := t.reserved + 1 }).setG d.val (statusWord .ok 0 0)) [.jobs]
          (fun v => v.laneJobs c = s.laneJobs c ++ [jobOf th.val t.k ((s.gr th.val b.val).getLsbD 0) e])) ∧
      (t.hasFree = true → s.laneJobs c = [] →
        Completes (.csub th d a b) s th.val (({ u with reserved := t.reserved + 1 }).setG d.val (statusWord .ok 0 0)) [.jobs]
          (fun v => ∃ j, v.laneJobs c = [j] ∧ j.got.isSome ∧ j.thread = th.val ∧ j.op = leNat (e.take 1) ∧
            j.jobTag = BitVec.ofNat 32 (leNat ((e.drop 8).take 4)))) ∧
      (t.hasFree = false →
        Completes (.csub th d a b) s th.val (u.setG d.val (statusWord .busy 0 0)) [] (fun _ => True))) ∧
    (s.Issues th.val false [a.val, b.val] → s.poisonedIn flat (x.extractLsb' 16 8).toNat = false →
      ((x.extractLsb' 16 8).toNat = 0 ∧ flat = 0 ∨
        0 < (x.extractLsb' 16 8).toNat ∧ (x.extractLsb' 16 8).toNat ≤ 64 ∧
        s.cmemRead th.val (s.gr th.val b.val).toNat (x.extractLsb' 16 8).toNat = some flat) →
      ∀ r, s.slotKey (x.toNat % 64) = some r →
      (r.attr = 4 → r.dmode = 1 → ∀ i, (List.range 4096).find? (fun i => (SMap.find s.derived (c * 4096 + i)).isNone) = some i →
        Completes (.cdrv th d a b) s th.val (u.setG d.val (statusWord .ok 0 (s.fd Fld.KEY_HGEN.GEN * 4096 + i))) [.derived]
          (fun v => SMap.find v.derived (c * 4096 + i) =
            some ⟨th.val, x.toNat % 64, laneKdf r (s.octets flat (x.extractLsb' 16 8).toNat), s.fd Fld.KEY_HGEN.GEN⟩)) ∧
      (r.attr ≠ 4 →
        Completes (.cdrv th d a b) s th.val (u.setG d.val (statusWord .damper 0x0E 0)) violating
          (fun v => Violated s v th.val 9 ∧ v.derived = s.derived))) ∧
    (s.Issues th.val false [a.val] →
      let h := x.toNat % 2 ^ 32
      (h / 4096 = s.fd Fld.KEY_HGEN.GEN →
        Completes (.crel th a) s th.val u [.derived]
          (fun v => SMap.find v.derived (c * 4096 + h % 4096) = none ∧
            ∀ k, k ≠ c * 4096 + h % 4096 → SMap.find v.derived k = SMap.find s.derived k)) ∧
      (h / 4096 ≠ s.fd Fld.KEY_HGEN.GEN → Completes (.crel th a) s th.val u [] (fun _ => True)))) ∧
  (∀ (s : State) (lane : Fin 16) (j : CryptoJob), s.coreUp = true →
    (s.laneJobs lane.val).find? (fun j => j.got.isSome) = some j →
    ∃ t, exec (.cryptoJobComplete lane) s = .next t ∧ (t.laneJobs lane.val).length + 1 = (s.laneJobs lane.val).length ∧
      (∀ st key, j.got = some (st, key) → st ≠ .ok → st ≠ .damper → j.notify = true → (s.thread j.thread).st = .ready →
        MemorySame s t ∧ (t.thread j.thread).reserved = (s.thread j.thread).reserved - 1 ∧
        (t.thread j.thread).notices.length = (s.thread j.thread).notices.length + 1 ∧
        (∃ n ∈ (t.thread j.thread).notices, n.kind = .crypto ∧ n.status = st.code ∧ n.handle = BitVec.ofNat 32 j.jobTag.toNat) ∧
        (∀ h, h ≠ j.thread → t.thread h = s.thread h) ∧
        Only (.threads :: .jobs :: counting) s t))

/-- DINC, DENS, DSTEP, OWNC, OWNR and DOSC of a program in K with the link up, each with its own effect where the Damper and the owner
rules permit it, a violation with its reason where they do not (R32, R41 to R43, R47, R129, R253, R262). -/
def Obligations.DamperCheckedResults : Prop :=
  ∀ (s : State) (th : Fin 512) (g : Fin 32) (tx : Fin 8),
    let v := s.gr th.val g.val
    let x := s.tr th.val tx.val
    let u := s.past th.val
    let ans := fun (st : Status) (detail : Nat) => u.setG g.val (statusWord st detail 0)
    s.d2dUp = true →
    (s.Issues th.val true [g.val] →
      (s.incDecide (.thread th.val) v = .accepted →
        Completes (.dinc th g) s th.val (ans .ok 0) [.dtm, .trv, .regs .datum]
          (fun t => t.dtm.incPending = s.dtm.incPending ++ [(s.tick + 64, v)] ∧ t.trv.wrote = true ∧ t.datum = s.datum)) ∧
      (s.incDecide (.thread th.val) v = .range →
        Completes (.dinc th g) s th.val (ans .damper 0x0E) violating
          (fun t => Violated s t th.val 1 ∧ t.dtm = s.dtm)) ∧
      (s.incDecide (.thread th.val) v = .slew →
        Completes (.dinc th g) s th.val (ans .damper 0x0E) violating
          (fun t => Violated s t th.val 2 ∧ t.dtm = s.dtm)) ∧
      (s.incDecide (.thread th.val) v = .lost →
        Completes (.dinc th g) s th.val (ans .lost 0) [.regs .datum] (fun t => t.fb Fld.DTM_WSTAT.INC_LOST 0 = true)) ∧
      (ownValid v.toNat = true → ownFixed v.toNat = false → s.fb Fld.TOP_OWN.HELD v.toNat = false →
        Completes (.ownc th g) s th.val (ans .ok 0) [.regs .own]
          (fun t => t.owns (.thread th.val) v.toNat = true ∧ ∀ i, i ≠ v.toNat → t.rg .TOP_OWN i = s.rg .TOP_OWN i)) ∧
      (ownFixed v.toNat = true → ownValid v.toNat = true → Completes (.ownc th g) s th.val (ans .fixed 0) [] (fun _ => True)) ∧
      (ownValid v.toNat = true → ownFixed v.toNat = false → s.owns (.thread th.val) v.toNat = true →
        Completes (.ownr th g) s th.val (ans .ok 0) [.regs .own]
          (fun t => t.rg .TOP_OWN v.toNat = 0 ∧ ∀ i, i ≠ v.toNat → t.rg .TOP_OWN i = s.rg .TOP_OWN i)) ∧
      (ownValid v.toNat = true → ownFixed v.toNat = false → s.owns (.thread th.val) v.toNat = false →
        Completes (.ownr th g) s th.val (ans .notOwner 0) [] (fun _ => True))) ∧
    (s.Issues th.val true [] →
      (s.dtm.writer = none →
        Completes (.dens th g) s th.val (ans .ok 0) [.dtm, .regs .datum]
          (fun t => t.dtm.writer = some th.val ∧ t.fb Fld.DTM_MODE.ENS_ACTIVE 0 = true)) ∧
      (s.dtm.writer = some th.val → Completes (.dens th g) s th.val (ans .ok 0) [] (fun _ => True)) ∧
      (∀ w, s.dtm.writer = some w → w ≠ th.val → Completes (.dens th g) s th.val (ans .busy 0) [] (fun _ => True))) ∧
    (s.Issues th.val true [g.val, 32 + tx.val] →
      let off := stepOffset x.sec x.ns x.frac
      (∀ r b, stepSource (v.toNat % 256) = some (r, b) → s.stepRefusal b x.ns off = none →
        Completes (.dstep th g tx) s th.val (ans .ok 0) [.dtm, .regs .datum]
          (fun t => t.dtm.step = some ⟨s.tick + 64, off, s.refBound r, v.toNat % 256⟩ ∧ t.fb Fld.DTM_MODE.STEP_PEND 0 = true ∧
            t.datum = s.datum)) ∧
      (∀ r b st, stepSource (v.toNat % 256) = some (r, b) → s.stepRefusal b x.ns off = some st →
        Completes (.dstep th g tx) s th.val (ans .damper st.code) violating
          (fun t => Violated s t th.val 3 ∧ t.dtm = s.dtm))) ∧
    (s.Issues th.val true [g.val] →
      let i := (v.extractLsb' 40 1).toNat
      let bits := (v.extractLsb' 32 8).toNat
      let code := BitVec.ofNat 32 (v.toNat % 2 ^ bits)
      8 ≤ bits → bits ≤ 32 → v.extractLsb' 41 23 = 0 →
      (s.owns (.thread th.val) (76 + i) = true → s.oscRefusal i code = none →
        Completes (.dosc th g) s th.val (ans .ok 0) [.ens, .flt]
          (fun t => SMap.find t.ens.osc i = some ⟨code, bits, oscSlot s.now⟩ ∧ SMap.find t.flt.oscLast i = some s.now)) ∧
      (∀ reason, s.owns (.thread th.val) (76 + i) = true → s.oscRefusal i code = some reason →
        Completes (.dosc th g) s th.val (ans .damper 0x0E) violating
          (fun t => Violated s t th.val reason ∧ t.ens = s.ens)) ∧
      (s.owns (.thread th.val) (76 + i) = false →
        Completes (.dosc th g) s th.val (ans .damper 0x0E) violating
          (fun t => Violated s t th.val 0x0C ∧ t.ens = s.ens)))

/-- The two dies' link: DATUM_SECOND_CHECK loads, confirms or refuses the replica; D2D_LINK_DOWN and D2D_LINK_UP; a posted write takes
effect at the KCLK edge; the copies are refreshed together; DTM_NOW_READ holds all four words of the copy (R16 to R18, R60, R318). -/
def Obligations.DieLinkCommands : Prop :=
  ∀ (s : State) (upset : Option Datum) (rates : List (Fin 64 × BitVec 32)) (pherr : List (BitVec 32)),
    let rep := upset.getD s.replica
    let parts : List Part := [.replica, .replicaOk, .dtm, .secDone, .regs .datum, .regs .port]
    (s.coreUp = true → s.clockUp = true → s.d2dUp = true → SMap.find s.secDone 0 ≠ some s.now.sec.toNat →
      (s.dtm.reloadDue = true → Does (.datumSecondCheck upset rates) s parts
        (fun t => t.replica = s.datum ∧ t.replicaOk = true ∧ t.dtm.reloadDue = false ∧ (∀ i, t.rg .DTM_CHECK i = s.rg .DTM_CHECK i))) ∧
      (s.dtm.reloadDue = false → rep = s.datum → Does (.datumSecondCheck upset rates) s parts
        (fun t => t.replica = s.datum ∧ t.replicaOk = s.replicaOk ∧ t.fb Fld.DTM_CHECK.LAST_OK = true ∧
          t.fb Fld.DTM_CHECK.REPLICA_VALID = true ∧ t.fd Fld.DTM_CHECK.MISMATCH = s.fd Fld.DTM_CHECK.MISMATCH)) ∧
      (s.dtm.reloadDue = false → rep ≠ s.datum → rates = [] → Does (.datumSecondCheck upset rates) s
          ([.replica, .replicaOk, .dtm, .secDone, .trv, .frames, .launches, .regs .traverse] ++ raising ++ notifying)
        (fun t => t.replica = rep ∧ t.replicaOk = false ∧ t.dtm.reloadDue = true ∧ t.fb Fld.DTM_CHECK.LAST_OK = false ∧
          t.fb Fld.DTM_CHECK.REPLICA_VALID = false ∧
          t.fd Fld.DTM_CHECK.MISMATCH = Nat.min 0xFFFF (s.fd Fld.DTM_CHECK.MISMATCH + 1) ∧ Raised t 459 13))) ∧
    (s.coreUp = true → s.d2dUp = true → s.pwr.vddKeep = true →
      Does .d2dLinkDown s ([.d2dUp, .replicaOk, .irq, .dtm, .trv, .ens, .regs .fault, .regs .traverse, .regs .service] ++ raising)
        (fun t => t.d2dUp = false ∧ t.replicaOk = false ∧ t.fb Fld.TRV_STAT.NOWRITER = true ∧ Raised t 463 7 ∧ t.datum = s.datum)) ∧
    (s.coreUp = true → s.clockUp = true → s.d2dUp = false →
      Does .d2dLinkUp s [.d2dUp, .replicaOk, .dtm] (fun t => t.d2dUp = true ∧ t.replicaOk = false ∧ t.dtm.reloadDue = true)) ∧
    (s.clockUp = true → ∀ v w, s.hst.posted = [⟨.hostReg, ⟨.DTM_STEP_FRAC, 0⟩, v⟩, ⟨.hostReg, ⟨.DTM_STEP_FRAC, 0⟩, w⟩] →
      Does .postedWriteApply s [.hst, .regs .datum] (fun t => t.hst.posted = [] ∧ t.rg .DTM_STEP_FRAC 0 = w)) ∧
    (s.clockUp = true →
      (s.coreUp = true → s.d2dUp = true → s.dtm.snapPend = false →
        Does (.copyRefresh pherr) s [.copy, .irq, .dtm, .regs .host, .regs .irqStat, .regs .datum, .regs .traverse, .regs .syn]
          (fun t => t.dtm.now = s.now ∧ t.rg .HST_COPY_SEQ 0 = s.rg .HST_COPY_SEQ 0 + 1 ∧
            (∀ r i, r.onClock i = true → SMap.get RegKey.dflt t.copy ⟨r, i⟩ = t.rg r i))) ∧
      (s.d2dUp = false → ∃ t, exec (.copyRefresh pherr) s = .next t ∧ t.copy = s.copy ∧ t.dtm.now = s.dtm.now)) ∧
    (s.coreUp = true → s.hst.pcieUp = true → Does .dtmNowRead s [.dtm] (fun t => t.dtm.nowHeld = s.dtm.now))

/-- The counter and the timeline: a DCLK tick adds the increment to the Datum and its replica; an accepted increment takes effect on its
tick; an accepted step moves both; the first reached event fires; the decoded ARB_IN is taken; a snapshot latches the Datum, its bound,
the increment and the UTC state (R15, R29, R37, R48, R50, R56, R61, R337). -/
def Obligations.CounterAndTimeline : Prop :=
  ∀ (s : State), s.clockUp = true →
    (s.pwr.dclk = true → (∀ x ∈ s.dtm.incPending, s.tick < x.1) → (∀ r, s.dtm.step = some r → s.tick < r.tick) →
      Does .dclkTick s [.datum, .replica, .tick] (fun t => t.datum = Datum.ofCount56 (s.datum.count56 + s.inc.toNat) ∧
        t.replica = Datum.ofCount56 (s.replica.count56 + s.inc.toNat) ∧ t.tick = s.tick + 1)) ∧
    (∀ k v, s.dtm.incPending = [(k, v)] → k ≤ s.tick → s.pwr.dclk = true → s.dtm.step = none →
      Does .dclkTick s [.datum, .replica, .tick, .dtm, .regs .datum] (fun t => t.inc = v ∧ t.dtm.incPending = [] ∧
        t.datum = Datum.ofCount56 (s.datum.count56 + v.toNat) ∧ t.replica = Datum.ofCount56 (s.replica.count56 + v.toNat))) ∧
    (∀ k v, s.dtm.incPending = [(k, v)] → k ≤ s.tick →
      Does .incTakesEffect s [.dtm, .regs .datum] (fun t => t.inc = v ∧ t.dtm.incPending = [])) ∧
    (∀ r, s.dtm.step = some r → r.tick ≤ s.tick →
      Does .stepApply s ([.datum, .replica, .frames, .launches, .dtm, .trv, .tic, .ens, .syn, .prt, .regs .irq, .regs .ens,
          .regs .traverse] ++ notifying)
        (fun t => t.datum = Datum.shift s.datum r.offset ∧ t.replica = Datum.shift s.replica r.offset ∧ t.dtm.step = none ∧
          t.fd Fld.DTM_MODE.MODE = 0 ∧ t.fb Fld.DTM_MODE.STEP_PEND = false ∧ t.fb Fld.DTM_MODE.STEP_USED = true ∧
          t.trv.basis = ⟨(Datum.ofCount56 (t.datum.count56 + s.inc.toNat)).word, sideOf r.bound.early, sideOf r.bound.late⟩)) ∧
    (∀ h e, s.firstEvent s.dueEvents = some (h, e) →
      (∀ th, e.target = .thread th → (s.thread th).st = .ready →
        Does .timelineEventFire s [.timeline, .threads, .regs .datum] (fun t => t.slot h = ⟨none, .fired⟩ ∧
          (∀ k, k ≠ h → t.slot k = s.slot k) ∧ (∀ k, k ≠ th → t.thread k = s.thread k) ∧
          ∃ n, n = s.mkNotice (if e.expiry then .expiry else .wake) 0 h e.instant (if e.expiry then 3 else 5) h ∧
            t.thread th = { (s.thread th) with notices := insertNotice n (s.thread th).notices })) ∧
      (∀ n, e.target = .source n → 256 ≤ n → n < 512 → s.fb Fld.IRQ_SRC_CFG.EN n = true → s.fb Fld.IRQ_SRC_CFG.MODE n = true →
        Does .timelineEventFire s [.timeline, .regs .datum, .regs .irqStat] (fun t => t.slot h = ⟨none, .fired⟩ ∧
          t.fb Fld.IRQ_SRC_STAT.PEND n = true)) ∧
      (∀ n, e.target = .source n → s.fb Fld.IRQ_SRC_CFG.EN n = false →
        Does .timelineEventFire s [.timeline, .regs .datum, .regs .irq] (fun t => t.slot h = ⟨none, .fired⟩ ∧
          t.rg .IRQ_DB_DROP 0 = s.rg .IRQ_DB_DROP 0 + 1 ∧ t.fb Fld.IRQ_WSTAT.DB_DROP = true)) ∧
      (∀ n, e.target = .oneShot n → (s.tch n).os = none → s.fb Fld.TIC_IN.EN n = true →
        Does .timelineEventFire s [.timeline, .tic, .regs .tic, .regs .datum] (fun t => t.fb Fld.TIC_STAT.OS_PEND n = true ∧
          ∃ o, (t.tch n).os = some o ∧ o.openAt = s.now ∧ o.closeAt = s.now.plus (s.fd Fld.TIC_OS.WINDOW n * usCount) ∧
            o.tag = s.fd Fld.TIC_OS.TAG n))) ∧
    (∀ code : BitVec 2,
      (s.coreUp = false → Does (.arbInDecodeChange code) s [.pwr] (fun t => t.pwr.arbIn = code.toNat)) ∧
      (s.coreUp = true → Does (.arbInDecodeChange code) s ([.frames, .launches, .dtm, .flt, .mat, .pwr, .regs .fltRec, .regs .fault,
          .regs .mate, .regs .service] ++ notifying)
        (fun t => t.pwr.arbIn = code.toNat ∧ t.fd Fld.MAT_STAT.ARB = code.toNat))) ∧
    (∀ v, s.Takes .DTM_SNAP_CTL 0 →
      (s.dtm.snapPend = false → Does (.snapGo v) s [.irq, .dtm, .regs .irqStat, .regs .datum] (fun t => t.dtm.snapPend = true ∧
        t.pair .DTM_SNAP_SEC_HI .DTM_SNAP_SEC_LO = s.now.sec ∧ t.rg .DTM_SNAP_NS 0 = s.now.ns ∧ t.rg .DTM_SNAP_FRAC 0 = s.now.frac ∧
        t.rg .DTM_SNAP_EARLY 0 = (s.datumBound s.now).early ∧ t.rg .DTM_SNAP_LATE 0 = (s.datumBound s.now).late ∧
        t.pair .DTM_SNAP_INC_HI .DTM_SNAP_INC_LO = s.inc ∧ t.rg .DTM_SNAP_INFO 0 = s.snapInfo ∧ t.fb Fld.DTM_SNAP_CTL.DONE = false)) ∧
      (s.dtm.snapPend = true → Does (.snapGo v) s [.regs .datum] (fun t => t.fb Fld.DTM_SNAP_CTL.OVERRUN = true ∧
        ∀ r, r ≠ .DTM_SNAP_CTL → ∀ i, t.rg r i = s.rg r i)))

/-- Ownership and isolation: OWN_CLAIM takes a free or an orphaned entry for the queue, OWN_RELEASE gives up the queue's own; a cluster
isolated has its threads aborted, and CLUSTER_RESTORE returns it to service; a command that needs the clock die answers LOST while the
die-to-die link is down (R22, R32, R34, R320). -/
def Obligations.OwnershipAndIsolation : Prop :=
  ∀ (s : State) (q : Fin 64) (cid : BitVec 32),
    (s.canStart q.val = true → s.d2dUp = true → ∀ idx : BitVec 16,
      let i := idx.toNat
      let others := fun (t : State) => ∀ k, k ≠ i → t.rg .TOP_OWN k = s.rg .TOP_OWN k
      (ownValid i = false → Answers (.ownClaim q cid idx) s q.val cid .noResource 0 [] (fun _ => True) ∧
        Answers (.ownRelease q cid idx) s q.val cid .noResource 0 [] (fun _ => True)) ∧
      (ownValid i = true → ownFixed i = true → Answers (.ownClaim q cid idx) s q.val cid .fixed 0 [] (fun _ => True) ∧
        Answers (.ownRelease q cid idx) s q.val cid .fixed 0 [] (fun _ => True)) ∧
      (ownValid i = true → ownFixed i = false →
        (s.fb Fld.TOP_OWN.HELD i = false → Answers (.ownClaim q cid idx) s q.val cid .ok 0 [.regs .own]
          (fun t => t.owns (.hostQueue q.val) i = true ∧ others t)) ∧
        (s.fb Fld.TOP_OWN.HELD i = true → s.fb Fld.TOP_OWN.ORPHAN i = true →
          Answers (.ownClaim q cid idx) s q.val cid .okOrphan 0 [.regs .own]
            (fun t => t.owns (.hostQueue q.val) i = true ∧ t.fb Fld.TOP_OWN.ORPHAN i = false ∧ others t)) ∧
        (s.fb Fld.TOP_OWN.HELD i = true → s.fb Fld.TOP_OWN.ORPHAN i = false →
          Answers (.ownClaim q cid idx) s q.val cid .owned 0 [] (fun _ => True)) ∧
        (s.owns (.hostQueue q.val) i = true → Answers (.ownRelease q cid idx) s q.val cid .ok 0 [.regs .own]
          (fun t => t.fb Fld.TOP_OWN.HELD i = false ∧ others t)) ∧
        (s.owns (.hostQueue q.val) i = false → Answers (.ownRelease q cid idx) s q.val cid .notOwner 0 [] (fun _ => True)))) ∧
    (s.canStart q.val = true → s.d2dUp = false → ∀ idx : BitVec 16,
      Answers (.ownClaim q cid idx) s q.val cid .lost 0 [] (fun _ => True) ∧
      Answers (.ownRelease q cid idx) s q.val cid .lost 0 [] (fun _ => True)) ∧
    (∀ c : Fin 16,
      (s.coreUp = true →
        ∃ t, exec (.clusterIsolate none c) s = .next t ∧ t.pwr.isolated.contains c.val = true ∧
          (∀ d, d ≠ c.val → t.pwr.isolated.contains d = s.pwr.isolated.contains d) ∧
          (∀ th, clusterOf th = c.val → (s.thread th).st = .ready → (t.thread th).st = .aborted) ∧ t.mem = s.mem ∧ t.datum = s.datum) ∧
      (s.canStart q.val = true → ∃ t, exec (.clusterIsolate (some (q, cid)) c) s = .next t ∧
        t.pwr.isolated.contains c.val = true ∧ Raised t (208 + c.val) 19 ∧
        t.fd Fld.HST_Q_CQ_TAIL.CQ_TAIL q.val = (s.fd Fld.HST_Q_CQ_TAIL.CQ_TAIL q.val + 1) % 65536 ∧
        (∀ th, clusterOf th = c.val → (s.thread th).st = .ready → (t.thread th).st = .aborted) ∧ t.mem = s.mem) ∧
      (s.canStart q.val = true → s.pwr.isolated.contains c.val = true →
        Answers (.clusterRestore q cid c) s q.val cid .ok 0 ([.frames, .launches, .prt, .pwr, .regs .port] ++ notifying)
          (fun t => t.pwr.isolated.contains c.val = false ∧
            ∀ d, d ≠ c.val → t.pwr.isolated.contains d = s.pwr.isolated.contains d)) ∧
      (s.canStart q.val = true → s.pwr.isolated.contains c.val = false →
        Answers (.clusterRestore q cid c) s q.val cid .range 0 [] (fun _ => True)))

/-- Threads and images: STK_ABORT and THREAD_ABORT abort a running thread with its cleanup, STK_RESTART and THREAD_RESTART start an
ABORTED or FAULTED thread at its image's entry (its registers as they were: the model's choice, log entry 39), IMAGE_LOAD loads a verified
image into a core whose threads do not run, DEBUG_HALT and DEBUGGER_RESUME stop and resume a thread (R63, R86 to R88). -/
def Obligations.ThreadControlCommands : Prop :=
  ∀ (s : State) (q : Fin 64) (cid : BitVec 32) (core : Fin 128) (v : BitVec 32) (th : Fin 512),
    let cleaned : List Part := [.timeline, .threads, .frames, .launches, .jobs, .derived, .irq, .dtm, .regs .own, .regs .irqStat,
      .regs .datum, .regs .stoker]
    let runs := fun (t : Thread) => t.st = .ready ∨ t.st = .wait ∨ t.st = .halted
    let gone := fun (t : Thread) => t.st = .aborted ∧ t.notices = [] ∧ t.reserved = 0 ∧ t.wait = none
    let entry := fun (h : Nat) => (s.image (coreOf h)).bind (fun x => x.entries.getD (h % 4) none)
    (s.Takes .STK_ABORT core.val →
      Does (.stkAbortGo core v) s cleaned (fun t =>
        (∀ j, j < 4 → v.getLsbD j = true → runs (s.thread (4 * core.val + j)) → gone (t.thread (4 * core.val + j)) ∧
          bitAt (t.rg .STK_ABORT core.val).toNat (4 + j) = true) ∧
        (∀ h, (coreOf h ≠ core.val ∨ v.getLsbD (h % 4) = false) → t.thread h = s.thread h))) ∧
    (s.Takes .STK_RESTART core.val →
      Does (.stkRestartGo core v) s [.threads] (fun t =>
        (∀ j pc k, j < 4 → v.getLsbD j = true → entry (4 * core.val + j) = some (pc, k) →
          ((s.thread (4 * core.val + j)).st = .aborted ∨ (s.thread (4 * core.val + j)).st = .faulted) →
          t.thread (4 * core.val + j) = { (s.thread (4 * core.val + j)) with st := .ready, pc := pc, k := k }) ∧
        (∀ h, (coreOf h ≠ core.val ∨ v.getLsbD (h % 4) = false) → t.thread h = s.thread h))) ∧
    (s.canStart q.val = true →
      (runs (s.thread th.val) → Answers (.threadAbort q cid th) s q.val cid .ok 0 cleaned (fun t => gone (t.thread th.val) ∧
        (∀ h, h ≠ th.val → t.thread h = s.thread h) ∧
        (∀ i, ownValid i = true → ownFixed i = false → t.owns (.thread th.val) i = false) ∧
        (s.dtm.writer = some th.val → t.dtm.writer = none))) ∧
      (¬ runs (s.thread th.val) → Answers (.threadAbort q cid th) s q.val cid .ok 0 [] (fun _ => True)) ∧
      (∀ pc k, entry th.val = some (pc, k) → ((s.thread th.val).st = .aborted ∨ (s.thread th.val).st = .faulted) →
        Answers (.threadRestart q cid th) s q.val cid .ok 0 [.threads] (fun t =>
          t.thread th.val = { (s.thread th.val) with st := .ready, pc := pc, k := k } ∧
          ∀ h, h ≠ th.val → t.thread h = s.thread h)) ∧
      ((entry th.val = none ∨ runs (s.thread th.val) ∨ (s.thread th.val).st = .idle) →
        Answers (.threadRestart q cid th) s q.val cid .busy 0 [] (fun _ => True)) ∧
      (∀ mask commit file x k, s.imageCheck file = .inr x → maskCores mask = [k] → s.gatedCluster (k / 8) = false →
        (s.coreBusy k = true → Answers (.imageLoad q cid mask commit file) s q.val cid .busy k [] (fun _ => True)) ∧
        (s.coreBusy k = false → Answers (.imageLoad q cid mask commit file) s q.val cid .ok 0
          [.mem, .threads, .images, .pwr, .regs .stoker] (fun t => t.image k = some x.image ∧
            t.pair .STK_IMG_ID_HI .STK_IMG_ID_LO k = x.image.id ∧ t.rg .STK_IMG_VER k = x.image.version ∧
            (∀ j, j < 4 → t.thread (4 * k + j) = x.image.thread (4 * k + j)) ∧ (∀ h, coreOf h ≠ k → t.thread h = s.thread h) ∧
            (∀ i b, x.imem[i]? = some b → t.octet (imemBase k + i) = b) ∧ (∀ i b, x.dmem[i]? = some b → t.octet (dmemBase k + i) = b) ∧
            (∀ a, (a < imemBase k ∨ imemBase k + 65536 ≤ a) → (a < dmemBase k ∨ dmemBase k + 65536 ≤ a) → t.octet a = s.octet a)))) ∧
      (∀ mask commit file r, s.imageCheck file = .inl r →
        Answers (.imageLoad q cid mask commit file) s q.val cid .refused r raising (fun t => Raised t 466 25 ∧ t.threads = s.threads))) ∧
    (s.coreUp = true → s.pwr.debug = .invasive →
      ((s.thread th.val).st = .ready → Does (.debugHalt th) s [.threads]
        (fun t => t.thread th.val = { (s.thread th.val) with st := .halted } ∧ ∀ h, h ≠ th.val → t.thread h = s.thread h)) ∧
      ((s.thread th.val).st = .halted → Does (.debuggerResume th) s [.threads]
        (fun t => t.thread th.val = { (s.thread th.val) with st := .ready } ∧ ∀ h, h ≠ th.val → t.thread h = s.thread h)))

/-- The increment and the SETTLE window of the host: a committed increment is accepted, lost or refused by R39 to R43; a window opens from
RUN while the service is not OPEN, and closes by command or at its timeout; the Kindling opens one (R44 to R47). -/
def Obligations.IncrementAndSettleCommands : Prop :=
  ∀ (s : State) (v : BitVec 32),
    let w := s.dtm.incStaged ++ v
    let secs := s.fd Fld.DTM_SETTLE_TIMEOUT.SECONDS
    let shut : List Part := [.timeline, .dtm, .regs .irqStat, .regs .datum]
    let closed := fun (t : State) => t.fd Fld.DTM_MODE.MODE = 0 ∧ t.dtm.settleEnd = none ∧ t.fb Fld.DTM_MODE.HOST_INC = false ∧
      t.fb Fld.DTM_MODE.KINDLING = false ∧ t.dtm.incPending = s.dtm.incPending
    let opened := fun (kindling : Bool) (t : State) => t.fd Fld.DTM_MODE.MODE = 1 ∧ t.fb Fld.DTM_MODE.KINDLING = kindling ∧
      t.fb Fld.DTM_MODE.STEP_USED = false ∧ t.fb Fld.DTM_MODE.HOST_INC = false ∧ t.fd Fld.DTM_SETTLE_LEFT.SECONDS = secs ∧
      t.dtm.settleEnd = some (s.now.plus (secs * secCount)) ∧ t.dtm.closeAsked = false ∧
      (t.slot hSettle).armed = some ⟨s.now.plus (secs * secCount), .engineTimer, true⟩
    (s.Takes .DTM_INC_HI 0 → Does (.incHiStage v) s [.dtm] (fun t => t.dtm = { s.dtm with incStaged := v })) ∧
    (s.Takes .DTM_INC_LO 0 →
      (s.incDecide .hostReg w = .accepted → Does (.incLoCommit v) s [.dtm, .trv, .regs .datum] (fun t =>
        t.dtm.incPending = s.dtm.incPending ++ [(s.tick + 64, w)] ∧ t.trv.wrote = true ∧ t.fb Fld.DTM_WSTAT.INC_ACCEPT = true ∧
          t.inc = s.inc ∧ t.dtm.incStaged = s.rg .DTM_INC_HI 0)) ∧
      (s.incDecide .hostReg w = .lost → Does (.incLoCommit v) s [.dtm, .regs .datum] (fun t =>
        t.dtm.incPending = s.dtm.incPending ∧ t.fb Fld.DTM_WSTAT.INC_LOST = true)) ∧
      (s.pwr.vddKeep = true → ∀ o reason, (o = .range ∧ reason = 6 ∨ o = .slew ∧ reason = 0xA) → s.incDecide .hostReg w = o →
        Does (.incLoCommit v) s (.dtm :: raising) (fun t => t.dtm.incPending = s.dtm.incPending ∧
          t.fb Fld.DTM_WSTAT.INC_REFUSED = true ∧ t.fd Fld.DTM_WSTAT.REASON = reason ∧ Raised t 459 15))) ∧
    (s.Takes .DTM_SETTLE_CTL 0 →
      (s.svcState ≠ 1 → s.fd Fld.DTM_MODE.MODE = 0 → Does (.settleOpen v) s (unlocking ++ shut) (fun t => opened false t ∧
        t.rg .DTM_SETTLE_CTL 0 = v &&& 0x107#32)) ∧
      (s.svcState = 1 → Does (.settleOpen v) s (unlocking ++ [.regs .datum]) (fun t =>
        t.fb Fld.DTM_WSTAT.SETTLE_REFUSED = true ∧ t.fd Fld.DTM_WSTAT.REASON = 1 ∧
          ∀ r, r ≠ .DTM_WSTAT → r ≠ .TOP_UNLOCK → ∀ i, t.rg r i = s.rg r i)) ∧
      (s.svcState ≠ 1 → s.fd Fld.DTM_MODE.MODE = 1 → Does (.settleOpen v) s (unlocking ++ [.regs .datum]) (fun t =>
        t.fb Fld.DTM_WSTAT.SETTLE_REFUSED = true ∧ t.fd Fld.DTM_WSTAT.REASON = 2 ∧
          ∀ r, r ≠ .DTM_WSTAT → r ≠ .TOP_UNLOCK → ∀ i, t.rg r i = s.rg r i)) ∧
      (s.fd Fld.DTM_MODE.MODE ≠ 0 → s.dtm.step = none → Does (.settleClose v) s (unlocking ++ shut) closed) ∧
      (s.fd Fld.DTM_MODE.MODE ≠ 0 → s.dtm.step ≠ none → Does (.settleClose v) s (unlocking ++ [.dtm, .regs .datum])
        (fun t => t.dtm = { s.dtm with closeAsked := true } ∧ t.rg .DTM_MODE 0 = s.rg .DTM_MODE 0))) ∧
    (s.clockUp = true → s.settleDue = true → s.fd Fld.DTM_MODE.MODE ≠ 0 → s.dtm.step = none →
      Does .settleTimeout s shut closed) ∧
    (s.clockUp = true → s.settleDue = false → Does .settleTimeout s [] (fun _ => True)) ∧
    (s.coreUp = true → s.pwr.kindle = true → Does .kindlingOpen s (.pwr :: shut) (fun t => opened true t ∧ t.pwr.kindle = false))

/-- A host step is accepted for the tick 64 ahead or refused with its reason; the UTC offset is written in SETTLE and locked in RUN; a
scheduled change is armed, withdrawn, and takes effect at its second, and the day's flags announce it (R48, R52 to R55). -/
def Obligations.StepAndLeapCommands : Prop :=
  ∀ (s : State) (v : BitVec 32),
    let off := stepOffset (s.pair .DTM_STEP_SEC_HI .DTM_STEP_SEC_LO) (s.rg .DTM_STEP_NS 0) (s.rg .DTM_STEP_FRAC 0)
    let new := v.extractLsb' 0 16
    let at_ := s.pair .DTM_LEAP_AT_HI .DTM_LEAP_AT_LO
    let diff := signedOf 16 new.toNat - s.utcOffset
    let refused := fun (reason : Nat) (t : State) => t.fb Fld.DTM_WSTAT.LEAP_REFUSED = true ∧ t.fd Fld.DTM_WSTAT.REASON = reason ∧
      t.dtm = s.dtm ∧ t.rg .DTM_UTC_STAT 0 = s.rg .DTM_UTC_STAT 0
    let armed : List Part := unlocking ++ [.timeline, .dtm, .cairn, .regs .datum]
    (s.Takes .DTM_STEP_CTL 0 →
      (s.stepRefusal 2 (s.rg .DTM_STEP_NS 0) off = none → Does (.dtmStepGo v) s (unlocking ++ [.dtm, .regs .datum]) (fun t =>
        t.dtm = { s.dtm with step := some ⟨s.tick + 64, off, ⟨s.rg .DTM_STEP_EARLY 0, s.rg .DTM_STEP_LATE 0⟩, 0⟩ } ∧
          t.fb Fld.DTM_MODE.STEP_PEND = true ∧ t.fb Fld.DTM_WSTAT.STEP_ACCEPT = true)) ∧
      (s.pwr.vddKeep = true → ∀ r, s.stepRefusal 2 (s.rg .DTM_STEP_NS 0) off = some r →
        Does (.dtmStepGo v) s (unlocking ++ raising) (fun t => t.dtm = s.dtm ∧ t.fb Fld.DTM_WSTAT.STEP_REFUSED = true ∧
          t.fd Fld.DTM_WSTAT.REASON = stepReason r ∧ Raised t 459 15))) ∧
    (s.Takes .DTM_UTC_OFFSET 0 →
      (s.fd Fld.DTM_MODE.MODE = 1 → Does (.utcOffsetWrite v) s (unlocking ++ [.cairn, .regs .datum]) (fun t =>
        t.rg .DTM_UTC_OFFSET 0 = v &&& 0x8000FFFF#32 ∧
          SMap.get RegKey.dflt t.cairn.regs ⟨.DTM_UTC_OFFSET, 0⟩ = v &&& 0x8000FFFF#32)) ∧
      (s.fd Fld.DTM_MODE.MODE = 0 → Does (.utcOffsetWrite v) s (unlocking ++ raising) (fun t =>
        t.rg .DTM_UTC_OFFSET 0 = s.rg .DTM_UTC_OFFSET 0 ∧ Raised t 469 16 ∧ bitAt (t.rg .TOP_LOCK_VIOL 0).toNat 31 = true))) ∧
    (s.Takes .DTM_LEAP_CTL 0 →
      ((diff = 1 ∨ diff = -1) → ((at_.toNat : Int) - signedOf 16 new.toNat) % 86400 = 0 → s.dtm.leapAt = none →
        (s.tooSoon (TimeVal.ofSec at_.toNat) (2 * secCount) = false → Does (.leapArm v) s armed (fun t =>
          t.dtm.leapAt = some (at_, new) ∧ t.cairn.leapAt = some (at_, new) ∧ t.fb Fld.DTM_UTC_STAT.LEAP_PEND = true ∧
            t.fd Fld.DTM_UTC_STAT.NEXT_OFFSET = new.toNat ∧ t.fb Fld.DTM_WSTAT.LEAP_ACCEPT = true ∧
            (t.slot hLeap).armed = some ⟨TimeVal.ofSec at_.toNat, .engineTimer, true⟩ ∧
            t.rg .DTM_UTC_OFFSET 0 = s.rg .DTM_UTC_OFFSET 0)) ∧
        (s.tooSoon (TimeVal.ofSec at_.toNat) (2 * secCount) = true → Does (.leapArm v) s (unlocking ++ [.regs .datum]) (refused 8))) ∧
      (¬ (diff = 1 ∨ diff = -1) ∨ ((at_.toNat : Int) - signedOf 16 new.toNat) % 86400 ≠ 0 ∨ s.dtm.leapAt ≠ none →
        Does (.leapArm v) s (unlocking ++ [.regs .datum]) (refused 6)) ∧
      (∀ x y, s.dtm.leapAt = some (x, y) →
        (s.reached (TimeVal.ofSec x.toNat) = false → Does (.leapCancel v) s armed (fun t => t.dtm.leapAt = none ∧ t.cairn.leapAt = none ∧
          t.fb Fld.DTM_UTC_STAT.LEAP_PEND = false ∧ t.fb Fld.DTM_UTC_STAT.LEAP61 = false ∧ t.fb Fld.DTM_UTC_STAT.LEAP59 = false ∧
          t.fb Fld.DTM_WSTAT.LEAP_ACCEPT = true)) ∧
        (s.reached (TimeVal.ofSec x.toNat) = true → Does (.leapCancel v) s (unlocking ++ [.regs .datum]) (refused 8))) ∧
      (s.dtm.leapAt = none → Does (.leapCancel v) s (unlocking ++ [.regs .datum])
        (refused (if s.dtm.leapHist = .taken then 8 else 6)))) ∧
    (s.clockUp = true → ∀ x y, s.dtm.leapAt = some (x, y) →
      (s.reached (TimeVal.ofSec x.toNat) = true →
        Does .leapTakeEffect s [.timeline, .dtm, .trv, .cairn, .regs .irqStat, .regs .datum, .regs .traverse] (fun t =>
          t.fd Fld.DTM_UTC_OFFSET.OFFSET = y.toNat ∧ t.dtm.leapAt = none ∧ t.dtm.leapHist = .taken ∧
            t.dtm.leapDone = some (x, BitVec.ofNat 16 (s.fd Fld.DTM_UTC_OFFSET.OFFSET)) ∧ t.fb Fld.DTM_UTC_STAT.LEAP_PEND = false ∧
            t.cairn.leapAt = none)) ∧
      (let ins := decide (s.utcOffset < signedOf 16 y.toNat)
       let day := decide ((x.toNat : Int) - (if ins then 86401 else 86399) ≤ s.now.sec.toNat)
       Does .leapDayFlag s [.regs .datum] (fun t => t.fb Fld.DTM_UTC_STAT.LEAP61 = (day && ins) ∧
         t.fb Fld.DTM_UTC_STAT.LEAP59 = (day && !ins) ∧ ∀ r, r ≠ .DTM_UTC_STAT → ∀ i, t.rg r i = s.rg r i))) ∧
    (s.clockUp = true → s.dtm.leapAt = none → Does .leapDayFlag s [.regs .datum] (fun t =>
      t.fb Fld.DTM_UTC_STAT.LEAP61 = false ∧ t.fb Fld.DTM_UTC_STAT.LEAP59 = false))

/-- The interval counter's inputs and edges: TIC_IN_WRITE; a converted edge delivers its record to the ring; the records of channel K and
of the time channels; a missing stream sample; the frequency monitor; a one-shot opens and closes; the ring's base is staged and committed
(R89 to R95, R102, R105). -/
def Obligations.IntervalCounterCommands : Prop :=
  ∀ (s : State) (n : Fin 16) (v : BitVec 32) (code : BitVec 10),
    let c := s.tch n.val
    let sz := s.fd Fld.TIC_RING_SZ.LOG2SZ n.val
    let room := s.fb Fld.TIC_STAT.OVERFREQ n.val = false ∧ s.coreUp = true ∧ s.d2dUp = true ∧ sz ≠ 0 ∧
      (s.rg .TIC_PROD n.val - s.rg .TIC_CONS n.val).toNat < 2 ^ sz
    let place := c.base + (s.rg .TIC_PROD n.val).toNat % 2 ^ sz * 32
    let delivers : List Part := [.mem, .irq, .hst, .tic, .regs .irqStat, .regs .tic]
    (s.Takes .TIC_IN n.val →
      (Fld.TIC_IN.PRESC.of v ≤ 12 → Does (.ticInWrite n v) s [.tic, .regs .tic] (fun t =>
        t.rg .TIC_IN n.val &&& 0x9C0F0000#32 = v &&& 0x9C0F0000#32 ∧ t.fb Fld.TIC_WSTAT.ACCEPT = true ∧
          (t.rg .TIC_IN n.val ≠ s.rg .TIC_IN n.val → (t.tch n.val).discont = true) ∧
          (t.rg .TIC_IN n.val = s.rg .TIC_IN n.val → t.tic = s.tic) ∧ ∀ m, m ≠ n.val → t.tch m = s.tch m)) ∧
      (12 < Fld.TIC_IN.PRESC.of v → Does (.ticInWrite n v) s [.regs .tic] (fun t =>
        t.rg .TIC_IN n.val = s.rg .TIC_IN n.val ∧ t.fb Fld.TIC_WSTAT.RANGE = true))) ∧
    (s.clockUp = true → s.pwr.dclk = true →
      (s.fb Fld.TIC_IN.EN n.val = false → Does (.ticEdge ⟨n.val, by omega⟩ code) s [] (fun _ => True)) ∧
      (s.fb Fld.TIC_IN.EN n.val = true → s.streamMark n.val = none → s.fd Fld.TIC_CFG.MODE n.val = 1 → c.os = none → c.run = none →
        c.lastConv = none → room →
        let p := edgePos c.table code.toNat s.thm.clk
        Does (.ticEdge ⟨n.val, by omega⟩ code) s delivers (fun t =>
          Stored s t place (ticRecordBytes (s.edgeTime n.val p) (s.edgeBound n.val p) (c.seq + 1#32)
            (s.ticFlags n.val false 0 p.uncal c.skipped c.discont) 0) ∧
          t.rg .TIC_PROD n.val = s.rg .TIC_PROD n.val + 1#32 ∧ t.rg .TIC_CONS n.val = s.rg .TIC_CONS n.val ∧
          t.tch n.val = { c with seq := c.seq + 1#32, edges := c.edges + 1, lastConv := some s.tick, skipped := false, discont := false })) ∧
      (s.trv.coast = none → Does (.ticEdge 16 code) s [.tic] (fun t => t.tic.kCount = s.tic.kCount + 1 ∧
        (t.tch 16).seq = (s.tch 16).seq + 1#32 ∧ t.tic.kLast = some (s.edgeTime 16 (edgePos (s.tch 16).table code.toNat s.thm.clk)) ∧
        (∀ f, s.tic.kFirst = some f → t.tic.kFirst = some f))) ∧
      (∀ ch : Fin 21, 17 ≤ ch.val → Does (.ticEdge ch code) s [.gns] (fun t =>
        let e := edgePos (s.tch ch.val).table code.toNat s.thm.clk
        SMap.get (fun _ => 406000000) t.gns.tcTerm (ch.val - 17) = e.quant + e.stat + e.temp + 6000 * s.clkFactor.getD 1000))) ∧
    (s.clockUp = true → ∀ (r : Fin 8) m, (s.ent r.val).mark = some m →
      s.streamInstant r.val (s.nextMark r.val m) * 2 ^ 24 < s.tickEnd56 →
      Does (.streamSampleMissing r) s [.ens] (fun t => t.ent r.val = { (s.ent r.val) with mark := some (s.nextMark r.val m) } ∧
        ∀ k, k ≠ r.val → t.ent k = s.ent k)) ∧
    (s.clockUp = true → SMap.find s.secDone 1 ≠ some s.now.sec.toNat →
      Does .overfreqCheck s [.tic, .secDone, .regs .tic] (fun t => ∀ k, k < 16 →
        t.fb Fld.TIC_STAT.OVERFREQ k = decide (400000000 < (s.tch k).edges) ∧ (t.tch k).edges = 0)) ∧
    (s.Takes .TIC_OS n.val → 0 < Fld.TIC_OS.WINDOW.of v → Fld.TIC_OS.WINDOW.of v ≤ 1000000 →
      let close := s.now.plus (Fld.TIC_OS.WINDOW.of v * usCount)
      (c.os = none → s.fb Fld.TIC_IN.EN n.val = true → Does (.ticOsGo n v) s [.timeline, .tic, .regs .tic, .regs .datum] (fun t =>
        (t.tch n.val).os = some ⟨Fld.TIC_OS.TAG.of v, s.now, close, false⟩ ∧ t.fb Fld.TIC_STAT.OS_PEND n.val = true ∧
          t.fb Fld.TIC_WSTAT.ACCEPT = true ∧ (t.slot (hTic n.val)).armed = some ⟨close, .engineTimer, true⟩)) ∧
      ((c.os ≠ none ∨ s.fb Fld.TIC_IN.EN n.val = false) → Does (.ticOsGo n v) s [.regs .tic] (fun t =>
        t.fb Fld.TIC_WSTAT.OS_REFUSED = true ∧ t.rg .TIC_OS n.val = s.rg .TIC_OS n.val))) ∧
    (s.clockUp = true → ∀ o, c.os = some o → s.reached o.closeAt = true → room →
      Does (.oneshotClose n) s ([.timeline, .regs .datum] ++ delivers) (fun t =>
        (t.tch n.val).os = none ∧ t.fb Fld.TIC_STAT.OS_PEND n.val = false ∧ (t.slot (hTic n.val)).armed = none ∧
          t.rg .TIC_PROD n.val = s.rg .TIC_PROD n.val + 1#32 ∧
          let status := if o.arrived then 1 else if c.run.isSome then 3 else 2
          Stored s t place (ticRecordBytes o.closeAt 0xFFFFFFFF#32 c.seq (s.ticFlags n.val true status false c.skipped c.discont) o.tag))) ∧
    (s.Takes .TIC_RING_HI n.val → Does (.ticRingBaseStage n true v) s [.regs .tic] (fun t => t.rg .TIC_RING_HI n.val = v)) ∧
    (s.Takes .TIC_RING_LO n.val → Does (.ticRingBaseStage n false v) s [.regs .tic] (fun t =>
      t.rg .TIC_RING_LO n.val = v &&& 0xFFFFFFE0#32)) ∧
    (s.Takes .TIC_RING_SZ n.val →
      let k := v.toNat % 16
      let base := (s.rg .TIC_RING_HI n.val).toNat * 2 ^ 32 + (s.rg .TIC_RING_LO n.val).toNat
      (4 ≤ k → s.inDdr base (32 * 2 ^ k) = true → Does (.ticRingCommit n v) s [.irq, .tic, .regs .irqStat, .regs .tic] (fun t =>
        (t.tch n.val).base = base ∧ t.fd Fld.TIC_RING_SZ.LOG2SZ n.val = k ∧ t.rg .TIC_PROD n.val = 0 ∧ t.rg .TIC_CONS n.val = 0 ∧
          t.fb Fld.TIC_STAT.RING_FULL n.val = false ∧ t.fb Fld.TIC_WSTAT.ACCEPT = true)) ∧
      ((1 ≤ k ∧ k ≤ 3 ∨ 4 ≤ k ∧ s.inDdr base (32 * 2 ^ k) = false) → Does (.ticRingCommit n v) s [.regs .tic] (fun t =>
        t.rg .TIC_RING_SZ n.val = s.rg .TIC_RING_SZ n.val ∧ t.fb Fld.TIC_WSTAT.RANGE = true ∧ t.tch n.val = c)))

/-- Calibration of the interval counter and the keeper check: a calibration is requested by its owner or by schedule, starts in a gap, and
ends with an accepted table or the first failing test of Table 4.3; a request with no gap for 10 s is refused; the keeper's deviation is
measured and judged once a second (R97 to R103). -/
def Obligations.CalibrationCommands : Prop :=
  ∀ (s : State) (n : Fin 16) (ch : Fin 21) (v : BitVec 32) (issued : Nat) (hits : List Nat),
    let c := s.tch ch.val
    (s.Takes .TIC_CFG n.val → Fld.TIC_CFG.MODE.of v ≤ 1 →
      Does (.ticCalGo n v) s [.irq, .tic, .regs .irqStat, .regs .tic] (fun t =>
        t.rg .TIC_CFG n.val &&& 0x700F0000#32 = v &&& 0x700F0000#32 ∧ t.fb Fld.TIC_WSTAT.ACCEPT = true ∧
          ((s.tch n.val).calBusy = false → t.tch n.val = { (s.tch n.val) with req := some ⟨s.now, true⟩ }) ∧
          ((s.tch n.val).calBusy = true → t.tch n.val = s.tch n.val))) ∧
    (s.clockUp = true →
      (s.calDue ch.val = true → c.calBusy = false → Does (.calSchedule ch) s [.tic] (fun t =>
        t.tch ch.val = { c with started := true, req := some ⟨s.now, false⟩ } ∧ ∀ k, k ≠ ch.val → t.tch k = s.tch k)) ∧
      (s.calDue ch.val = false → Does (.calSchedule ch) s [] (fun _ => True)) ∧
      (s.calMayStart ch.val = true → Does (.calStart ch) s [.tic, .regs .tic] (fun t =>
        t.tch ch.val = { c with req := none, run := some ⟨s.now, s.fd Fld.TIC_CAL_HITS.LOG2N, s.thm.clk, s.thm.clk, false⟩ } ∧
          (ch.val < 16 → t.fb Fld.TIC_STAT.CALIBRATING ch.val = true) ∧ ∀ k, k ≠ ch.val → t.tch k = s.tch k)) ∧
      (s.calMayStart ch.val = false → Does (.calStart ch) s [] (fun _ => True)) ∧
      (∀ run, c.run = some run → s.reached (run.from_.plus (calLength run.log2n)) = true →
        let span := activeSpan hits
        let tab : CalTable := ⟨span.1, calWidths span.2 (2 ^ run.log2n), run.log2n, s.thm.clk, s.now⟩
        (calResult run issued hits = 1 → calDrift c.table tab.lo tab.widths = false →
          Does (.calComplete ch issued hits) s [.tic, .cairn, .regs .tic] (fun t =>
            t.tch ch.val = { c with run := none, table := some tab } ∧ SMap.find t.cairn.tic ch.val = some tab ∧
              (ch.val < 16 → t.fb Fld.TIC_STAT.CALIBRATING ch.val = false ∧ t.fb Fld.TIC_STAT.STALE ch.val = false ∧
                t.fb Fld.TIC_STAT.UNCAL ch.val = false ∧ t.fd Fld.TIC_CALSTAT.RESULT ch.val = 1))) ∧
        (calResult run issued hits ≠ 1 → s.pwr.vddKeep = true →
          Does (.calComplete ch issued hits) s ([.tic, .regs .tic] ++ raising) (fun t =>
            t.tch ch.val = { c with run := none } ∧ Raised t (226 + ch.val) 3 ∧
              (ch.val < 16 → t.fb Fld.TIC_STAT.CALIBRATING ch.val = false ∧ t.fb Fld.TIC_STAT.STALE ch.val = true ∧
                t.fd Fld.TIC_CALSTAT.RESULT ch.val = calResult run issued hits)))) ∧
      (∀ r, c.req = some r → (s.streamMark ch.val).isSome = true → s.reached (r.at_.plus (10 * secCount)) = true →
        s.pwr.vddKeep = true → Does (.calRefusedNoGap ch) s ([.tic, .regs .tic] ++ raising) (fun t =>
          t.tch ch.val = { c with req := none } ∧ t.fb Fld.TIC_WSTAT.CAL_REFUSED = true ∧ Raised t (226 + ch.val) 31)) ∧
      (SMap.find s.secDone 2 ≠ some s.now.sec.toNat →
        let bad := decide (s.keeperDev ≠ 0x80000000#32 ∧ (s.rg .TIC_KX_ALARM 0).toNat < s.keeperDev.toInt.natAbs)
        (bad = false → s.fb Fld.ENS_STAT.KEEPER_DIS = false → Does .keeperCheck s [.tic, .secDone, .regs .tic] (fun t =>
          t.rg .TIC_KX_DEV 0 = s.keeperDev ∧ t.tic = { s.tic with kFirst := none, kLast := none, kCount := 0 })) ∧
        (bad = true → s.pwr.vddKeep = true →
          Does .keeperCheck s ([.tic, .trv, .ens, .secDone, .regs .tic, .regs .ens, .regs .traverse] ++ raising) (fun t =>
            t.rg .TIC_KX_DEV 0 = s.keeperDev ∧ t.fb Fld.ENS_STAT.KEEPER_DIS = true ∧ Raised t 242 14 ∧
              s.now.sec.toNat ≤ t.ens.exclUntil ∧ (∀ k, t.trv.coast = some k → k.running = true → k.noBridge = true)))))

/-- The processed second and the entries: the assist processes each second once and the condition follows its entries' states (with no
entry qualified it banks); an entry is enabled, disabled and accepted by the host; weights are written by their writer alone; a network
measurement and one of GNSS or the mate reach their entry (R107 to R111, R115, R117, R119, R121, R123, R411). -/
def Obligations.EnsembleEntryCommands : Prop :=
  ∀ (s : State) (r : Fin 32) (j : Fin 16) (th : Fin 512) (v insn : BitVec 32),
    let n := s.procSecond
    let moved : List Part := [.trv, .ens, .regs .tic, .regs .ens, .regs .irqStat, .regs .traverse]
    let e := 16 + j.val
    let base := s.now.sec.toNat / 2 ^ 32 * 2 ^ 32 + (s.rg .ENS_NET_AT j.val).toNat
    let sec := if s.now.sec.toNat + 2 ^ 31 < base then base - 2 ^ 32
      else if base + 2 ^ 31 < s.now.sec.toNat then base + 2 ^ 32 else base
    let off : Int := s.srg .ENS_NET_SEC j.val * secCount + ((s.rg .ENS_NET_NS j.val).toNat * 2 ^ 32 + (s.rg .ENS_NET_FRAC j.val).toNat : Nat)
    let stores := s.runs th.val = true ∧ (s.thread th.val).k = true ∧ s.d2dUp = true ∧ s.hst.posted = []
    (s.clockUp = true → s.reached (TimeVal.ofSec (n + 2)) = true →
      let parts : List Part := [.trv, .ens, .regs .irqStat, .regs .ens, .regs .traverse, .regs .service]
      Does .ensProcessSecond s parts (fun t => t.ens.procNext = some (n + 1) ∧ t.cond = t.newCond) ∧
      ((∀ k, k < 32 → s.refState k = 0) → s.cond ≠ 2 → Does .ensProcessSecond s parts (fun t => t.ens.procNext = some (n + 1) ∧
        t.cond = 2 ∧ t.fb Fld.ENS_STAT.BANKED = true ∧ t.pair .ENS_BANK_AT_HI .ENS_BANK_AT_LO = BitVec.ofNat 64 n ∧
          t.trv.bankB = ⟨TimeVal.ofSec n, (s.datumSides (TimeVal.ofSec n)).1, (s.datumSides (TimeVal.ofSec n)).2⟩))) ∧
    (s.clockUp = true → s.reached (TimeVal.ofSec (n + 2)) = false → Does .ensProcessSecond s [] (fun _ => True)) ∧
    (s.Takes .ENS_REF_CFG r.val →
      (s.refCfgOk r.val v = true → s.fb Fld.ENS_REF_CFG.EN r.val = false → v.getLsbD 31 = true →
        Does (.ensRefCfgWrite r v) s (unlocking ++ moved) (fun t => t.refState r.val = 1 ∧ t.fb Fld.ENS_REF_CFG.EN r.val = true ∧
          t.fd Fld.ENS_REF_STATE.CAUSE r.val = 1 ∧ t.fb Fld.ENS_WSTAT.ACCEPT = true ∧ (t.ent r.val).samples = [] ∧
            (t.ent r.val).mark = (if r.val < 8 then some (TimeVal.ofSec (s.now.sec.toNat + 1)) else none))) ∧
      (s.refCfgOk r.val v = true → s.fb Fld.ENS_REF_CFG.EN r.val = true → v.getLsbD 31 = false →
        Does (.ensRefCfgWrite r v) s (unlocking ++ moved) (fun t => t.refState r.val = 0 ∧ t.ent r.val = EnsEntry.reset ∧
          t.fb Fld.ENS_REF_CFG.EN r.val = false ∧ SMap.find t.trv.accepted r.val = none)) ∧
      (s.refCfgOk r.val v = false → Does (.ensRefCfgWrite r v) s (unlocking ++ [.regs .ens]) (fun t =>
        t.rg .ENS_REF_CFG r.val = s.rg .ENS_REF_CFG r.val ∧ t.fb Fld.ENS_WSTAT.RANGE = true))) ∧
    (s.Takes .ENS_REF_CMD r.val →
      (s.refState r.val = 5 → Does (.refAcceptCmd r v) s (unlocking ++ moved) (fun t => t.refState r.val = 3 ∧
        t.fd Fld.ENS_REF_STATE.CAUSE r.val = 0xC ∧ t.fb Fld.TRV_STAT.PRE_SOURCE = false ∧ t.fb Fld.ENS_WSTAT.ACCEPT = true)) ∧
      (s.refState r.val ≠ 5 → Does (.refAcceptCmd r v) s (unlocking ++ [.regs .ens]) (fun t => t.fb Fld.ENS_WSTAT.CMD_REFUSED = true ∧
        t.refState r.val = s.refState r.val))) ∧
    (s.Takes .ENS_REF_WEIGHT r.val →
      (s.fb Fld.DTM_MODE.ENS_ACTIVE = false → Does (.weightWrite r v none) s [.regs .ens] (fun t =>
        t.rg .ENS_REF_WEIGHT r.val &&& 0xFFFF#32 = v &&& 0xFFFF#32 ∧ t.fb Fld.ENS_WSTAT.ACCEPT = true)) ∧
      (s.fb Fld.DTM_MODE.ENS_ACTIVE = true → Does (.weightWrite r v none) s [.regs .ens] (fun t =>
        t.rg .ENS_REF_WEIGHT r.val = s.rg .ENS_REF_WEIGHT r.val ∧ t.fb Fld.ENS_WSTAT.W_LOST = true))) ∧
    (stores →
      (s.fb Fld.DTM_MODE.ENS_ACTIVE = true → s.dtm.writer = some th.val → Does (.weightWrite r v (some (th, insn))) s [.regs .ens]
        (fun t => t.rg .ENS_REF_WEIGHT r.val &&& 0xFFFF#32 = v &&& 0xFFFF#32 ∧ t.fb Fld.ENS_WSTAT.ACCEPT = true)) ∧
      (s.dtm.writer ≠ some th.val → Does (.weightWrite r v (some (th, insn))) s (counting ++ violating) (fun t =>
        Violated s t th.val 0x0E ∧ t.rg .ENS_REF_WEIGHT r.val = s.rg .ENS_REF_WEIGHT r.val)) ∧
      (s.fd Fld.ENS_REF_CFG.THREAD e = th.val → (s.rg .ENS_NET_NS j.val).toNat ≤ 999999999 → s.processed sec = false → s.refState e ≠ 0 →
        Does (.ensNetGo j th v insn) s [.ens, .regs .ens] (fun t => t.fb Fld.ENS_WSTAT.ACCEPT = true ∧
          (∀ k, k ≠ e → t.ent k = s.ent k) ∧ ∃ x, (t.ent e).samples = (s.ent e).samples ++ [x] ∧ x.sec = sec ∧ x.x = off / 2 ^ 16 ∧
            x.early = s.rg .ENS_NET_EARLY j.val ∧ x.late = s.rg .ENS_NET_LATE j.val ∧ x.discont = false)) ∧
      (s.fd Fld.ENS_REF_CFG.THREAD e ≠ th.val → Does (.ensNetGo j th v insn) s (counting ++ violating) (fun t =>
        Violated s t th.val 0x0D ∧ t.ens = s.ens))) ∧
    (s.clockUp = true → ∀ m, s.ens.meas.find? (fun m => decide (m.1 = r.val)) = some m →
      (s.processed m.2.sec = true → Does (.measDeliver r) s [.ens, .regs .ens] (fun t => t.ens.meas = s.ens.meas.erase m ∧
        t.fb Fld.ENS_WSTAT.MEAS_LATE = true ∧ t.ens.ent = s.ens.ent)) ∧
      (s.processed m.2.sec = false → s.refState r.val ≠ 0 → Does (.measDeliver r) s [.ens] (fun t =>
        t.ens.meas = s.ens.meas.erase m ∧ t.ent r.val = { (s.ent r.val) with samples := (s.ent r.val).samples ++ [m.2] })))

/-- Holdover, steering, the external sensor and the journal: the holdover commit keeps the two latest records; a steering word ends its
transfer; the sensor is read once a second; the buffered records are committed to the ring, and the host acknowledges them (R125, R129,
R131, R148, R149). -/
def Obligations.HoldoverAndJournalCommands : Prop :=
  ∀ (s : State) (i : Fin 2) (v : BitVec 32),
    let ack := s.trv.ackStaged ++ v
    (s.clockUp = true →
      (SMap.find s.secDone 3 ≠ some s.now.sec.toNat → Does .holdoverCommit s [.cairn, .secDone] (fun t =>
        ∃ h, t.cairn.hold = (h :: s.cairn.hold).take 2 ∧ h.fit = s.ens.fit ∧ h.tref = s.ens.tref ∧
          h.refs = [s.rg .ENS_OSC_REF 0, s.rg .ENS_OSC_REF 1] ∧ ∀ x ∈ s.cairn.hold, x.seq < h.seq)) ∧
      (SMap.find s.secDone 3 = some s.now.sec.toNat → Does .holdoverCommit s [] (fun _ => True)) ∧
      (∀ w, SMap.find s.ens.osc i.val = some w →
        (s.coreUp = true → s.reached (s.oscEnd i.val w) = true → Does (.oscSpiTransfer i) s [.ens, .regs .ens] (fun t =>
          t.rg .ENS_OSC_LAST i.val = w.code ∧ SMap.find t.ens.osc i.val = none ∧ t.ens.fit = s.ens.fit)) ∧
        (s.coreUp = true → s.reached (s.oscEnd i.val w) = false → Does (.oscSpiTransfer i) s [] (fun _ => True)) ∧
        (s.coreUp = false → Does (.oscSpiTransfer i) s [.ens] (fun t => SMap.find t.ens.osc i.val = none))) ∧
      (s.fb Fld.ENS_TSNS_CFG.EN = true → 500000000 ≤ s.now.ns.toNat → SMap.find s.secDone 4 ≠ some s.now.sec.toNat →
        (∀ w : BitVec 16, s.tsnsOk w.toInt = true → Does (.tempSensorRead (some w)) s [.secDone, .regs .ens] (fun t =>
          t.fb Fld.ENS_TSNS_T.VALID = true ∧ t.fd Fld.ENS_TSNS_T.FAILS = 0 ∧
            t.fd Fld.ENS_TSNS_T.T = (BitVec.ofInt 16 (w.toInt * 64 / 2 ^ s.fd Fld.ENS_TSNS_CFG.SCALE)).toNat)) ∧
        (s.fb Fld.ENS_TSNS_T.VALID = true → Does (.tempSensorRead none) s ([.secDone, .regs .ens] ++ raising) (fun t =>
          t.fb Fld.ENS_TSNS_T.VALID = false ∧ t.fd Fld.ENS_TSNS_T.FAILS = Nat.min 127 (s.fd Fld.ENS_TSNS_T.FAILS + 1) ∧ Raised t 461 31)) ∧
        (s.fb Fld.ENS_TSNS_T.VALID = false → Does (.tempSensorRead none) s [.secDone, .regs .ens] (fun t =>
          t.fb Fld.ENS_TSNS_T.VALID = false ∧ t.fd Fld.ENS_TSNS_T.FAILS = Nat.min 127 (s.fd Fld.ENS_TSNS_T.FAILS + 1)))) ∧
      (SMap.find s.secDone 5 ≠ some s.now.sec.toNat → s.trv.ring.length + s.trv.pendingR.length ≤ 65536 →
        Does .journalCommit s [.trv, .secDone, .regs .traverse] (fun t => t.trv.pendingR = [] ∧
          t.trv.ring = s.trv.ring ++ s.trv.pendingR ∧ t.trv.nextSeq = s.trv.nextSeq ∧ t.rg .TRV_JNL_LOST 0 = s.rg .TRV_JNL_LOST 0 ∧
            (∀ x, s.trv.pendingR.getLast? = some x → t.pair .TRV_JNL_SEQ_HI .TRV_JNL_SEQ_LO = BitVec.ofNat 64 x.seq)))) ∧
    (s.Takes .TRV_JNL_ACK_HI 0 → Does (.jnlAckHiStage v) s [.trv, .regs .traverse] (fun t =>
      t.trv = { s.trv with ackStaged := v } ∧ t.fb Fld.TRV_WSTAT.ACCEPT = true)) ∧
    (s.Takes .TRV_JNL_ACK_LO 0 →
      ((s.pair .TRV_JNL_ACK_HI .TRV_JNL_ACK_LO).toNat ≤ ack.toNat → ack.toNat ≤ (s.pair .TRV_JNL_SEQ_HI .TRV_JNL_SEQ_LO).toNat →
        Does (.jnlAckCommit v) s [.trv, .cairn, .regs .traverse] (fun t => t.pair .TRV_JNL_ACK_HI .TRV_JNL_ACK_LO = ack ∧
          t.fb Fld.TRV_WSTAT.ACCEPT = true)) ∧
      ((ack.toNat < (s.pair .TRV_JNL_ACK_HI .TRV_JNL_ACK_LO).toNat ∨ (s.pair .TRV_JNL_SEQ_HI .TRV_JNL_SEQ_LO).toNat < ack.toNat) →
        Does (.jnlAckCommit v) s [.trv, .regs .traverse] (fun t => t.fb Fld.TRV_WSTAT.RANGE = true ∧
          t.pair .TRV_JNL_ACK_HI .TRV_JNL_ACK_LO = s.pair .TRV_JNL_ACK_HI .TRV_JNL_ACK_LO)))

/-- The loops of the synthesiser: a control word is staged and committed, SYN0's source is written, a loop searches, hops, acquires,
locks, coasts and relocks, SYN0's reference returns and is qualified, SYN0 falls back to the keeper crystal, and a phase offset is written
(R153, R154, R159, R161 to R166, R384). -/
def Obligations.LoopCommands : Prop :=
  ∀ (s : State) (n : Fin 16) (v : BitVec 32) (num freq : Bool) (found : Option (Fin 64 × Fin 1024)) (cause : Fin 5) (dy : Int),
    let l := s.loop n.val
    let st := s.loopState n.val
    let i := l.stInt.toNat % 65536
    let den := v.toNat
    let fits := den ≠ 0 ∧ l.stNum.toNat < den ∧ 200 * den ≤ i * den + l.stNum.toNat ∧ i * den + l.stNum.toNat ≤ 256 * den
    let same := fun (t : State) => t.rg .SYN_FCW_INT n.val = s.rg .SYN_FCW_INT n.val ∧ t.rg .SYN_FCW_NUM n.val = s.rg .SYN_FCW_NUM n.val ∧
      t.rg .SYN_FCW_DEN n.val = s.rg .SYN_FCW_DEN n.val
    let loops : List Part := [.syn, .regs .syn, .regs .irqStat]
    let coasts : List Part := [.irq, .dtm, .trv, .tic, .ens, .syn, .pwr, .cairn, .regs .fault, .regs .ens, .regs .traverse, .regs .syn,
      .regs .service] ++ raising
    let src := if freq then s.rg .SYN0_SRC 0 else v &&& 0xF3FFFFFF#32
    let hz := (if freq then v else s.rg .SYN0_SRC_FREQ 0).toNat
    let rdiv := Fld.SYN0_SRC.RDIV.of src
    let srcOk := Fld.SYN0_SRC.SEL.of src ≤ 8 ∧ Fld.SYN0_SRC.QUAL.of src ≠ 0 ∧ 1000000 * (rdiv + 1) ≤ hz ∧ hz ≤ 100000000 * (rdiv + 1)
    let new := s.fd Fld.SYN0_SRC.SEL ≠ Fld.SYN0_SRC.SEL.of src ∨ s.fd Fld.SYN0_SRC.RDIV ≠ rdiv
    let ends := fun (q : Nat) => s.now.plus (q * secCount)
    (s.Takes (if num then .SYN_FCW_NUM else .SYN_FCW_INT) n.val →
      (loopFixed n.val = false → Does (.fcwStage n num v) s [.syn, .regs .syn] (fun t => same t ∧ t.fb Fld.SYN_WSTAT.ACCEPT = true ∧
        t.loop n.val = (if num then { l with stNum := v } else { l with stInt := v &&& 0xFFFF#32 }))) ∧
      (loopFixed n.val = true → Does (.fcwStage n num v) s unlocking (fun t => same t))) ∧
    (s.Takes .SYN_FCW_DEN n.val →
      (loopFixed n.val = false → fits → Does (.fcwCommit n v) s loops (fun t => (t.rg .SYN_FCW_INT n.val).toNat = i ∧
        t.rg .SYN_FCW_NUM n.val = l.stNum ∧ t.rg .SYN_FCW_DEN n.val = v ∧ t.fb Fld.SYN_WSTAT.ACCEPT = true ∧
          t.loopState n.val = (if (List.range 32).any (fun e => t.hopFits n.val e) then 2 else 1))) ∧
      (loopFixed n.val = false → ¬ fits → Does (.fcwCommit n v) s [.syn, .regs .syn] (fun t => same t ∧
        t.loopState n.val = st ∧ t.fb Fld.SYN_WSTAT.RANGE = true)) ∧
      (loopFixed n.val = true → Does (.fcwCommit n v) s unlocking (fun t => same t))) ∧
    (s.Takes (if freq then .SYN0_SRC_FREQ else .SYN0_SRC) 0 →
      (srcOk → ¬ new → Does (.syn0SrcWrite freq v) s (unlocking ++ [.cairn, .regs .syn]) (fun t => t.rg .SYN0_SRC 0 = src ∧
        (t.rg .SYN0_SRC_FREQ 0).toNat = hz ∧ t.loopState 0 = s.loopState 0 ∧ t.fb Fld.SYN_WSTAT.ACCEPT = true)) ∧
      (srcOk → new → s.loopState 0 = 4 → s.pwr.vddKeep = true → Does (.syn0SrcWrite freq v) s (unlocking ++ coasts) (fun t => t.rg .SYN0_SRC 0 = src ∧
        t.loopState 0 = 5 ∧ t.syn.qual = some ⟨ends (Fld.SYN0_SRC.QUAL.of src), true⟩ ∧ t.fb Fld.TRV_STAT.COAST0 = true ∧ Raised t 251 5)) ∧
      (¬ srcOk → Does (.syn0SrcWrite freq v) s (unlocking ++ [.regs .syn]) (fun t => t.rg .SYN0_SRC 0 = s.rg .SYN0_SRC 0 ∧
        t.rg .SYN0_SRC_FREQ 0 = s.rg .SYN0_SRC_FREQ 0 ∧ t.fb Fld.SYN_WSTAT.RANGE = true))) ∧
    (s.Takes .SYN_CMD n.val → Does (.synSearchCmd n v) s (unlocking ++ (.tic :: loops)) (fun t => t.loopState n.val = 1 ∧
      (t.loop n.val).searched = true ∧ t.fb Fld.SYN_WSTAT.ACCEPT = true)) ∧
    (s.Takes .SYN_CMD 0 → v.getLsbD 1 = false →
      (s.fb Fld.SYN_LSTAT.REJECT 0 = true → s.loopState 0 = 5 →
        Does (.syn0AcceptCmd v) s (unlocking ++ [.trv, .ens, .regs .traverse] ++ loops) (fun t => t.loopState 0 = 4 ∧
          t.fb Fld.SYN_LSTAT.REJECT 0 = false ∧ t.syn.qual = none ∧ ∀ c, t.trv.coast = some c → c.running = false)) ∧
      ((s.fb Fld.SYN_LSTAT.REJECT 0 = false ∨ s.loopState 0 ≠ 5) → Does (.syn0AcceptCmd v) s (unlocking ++ [.regs .syn]) (fun t =>
        t.fb Fld.SYN_LSTAT.REJECT 0 = false ∧ t.loopState 0 = s.loopState 0))) ∧
    (s.clockUp = true →
      (st = 2 → Does (.loopHopDone n) s loops (fun t => t.loopState n.val = 3)) ∧
      (st ≠ 2 → Does (.loopHopDone n) s [] (fun _ => True)) ∧
      (st = 1 → ∀ b f, found = some (b, f) → Does (.loopSearchDone n found) s loops (fun t => t.loopState n.val = 3 ∧
        t.fd Fld.SYN_LSTAT.BAND n.val = b.val ∧ t.fd Fld.SYN_LSTAT.FINE n.val = f.val)) ∧
      (st = 1 → found = none → Does (.loopSearchDone n found) s ([.irq, .dtm, .regs .fault, .regs .service] ++ raising ++ loops) (fun t =>
        t.loopState n.val = 0 ∧ t.fb Fld.SYN_WSTAT.HOP_FAIL = true ∧ Raised t (251 + n.val) 6)) ∧
      ((st = 3 ∨ st = 5 ∧ n.val ≠ 0) → Does (.loopLock n) s ([.pwr, .cairn] ++ loops) (fun t => t.loopState n.val = 4 ∧
        (n.val = 0 → t.pwr.dclk = true) ∧ (n.val ≠ 0 → t.pwr = s.pwr))) ∧
      (st = 4 → (n.val = 0 ∧ 1 ≤ cause.val ∨ 3 ≤ cause.val) → Does (.loopCoastEntry n cause) s coasts (fun t =>
        t.loopState n.val = 5 ∧ t.fd Fld.SYN_LSTAT.CAUSE n.val = cause.val ∧ t.rg .SYN_COASTS n.val = s.rg .SYN_COASTS n.val + 1#32 ∧
          Raised t (251 + n.val) 5 ∧ (n.val = 0 → t.fb Fld.TRV_STAT.COAST0 = true ∧ ∃ c, t.trv.coast = some c ∧ c.since = s.now ∧
            c.running = true))) ∧
      (s.syn.qual = none → s.fb Fld.SYN_LSTAT.REJECT 0 = false → s.loopState 0 = 5 → Does .syn0ReferenceReturn s [.syn] (fun t =>
        t.syn = { s.syn with qual := some ⟨ends (s.fd Fld.SYN0_SRC.QUAL), false⟩ })) ∧
      (∀ q, s.syn.qual = some q → s.loopState 0 = 5 → s.reached q.end_ = true →
        (dy.natAbs ≤ s.fd Fld.SYN0_SRC.YTOL * 1000 → Does (.syn0QualEnd dy) s ([.trv, .ens, .regs .power, .regs .traverse] ++ loops)
          (fun t => t.loopState 0 = 4 ∧ t.syn.qual = none ∧ t.fb Fld.PWR_STAT.SRC_FALLBACK = false)) ∧
        (s.fd Fld.SYN0_SRC.YTOL * 1000 < dy.natAbs → Does (.syn0QualEnd dy) s ([.syn, .regs .syn] ++ raising)
          (fun t => t.loopState 0 = 5 ∧ t.syn.qual = none ∧ t.fb Fld.SYN_LSTAT.REJECT 0 = true ∧ Raised t 251 31))) ∧
      (s.pwr.dclk = false → s.loopState 0 = 3 → s.fd Fld.SYN0_SRC.SEL ≠ 8 → s.fb Fld.PWR_STAT.SRC_FALLBACK = false →
        Does .syn0SrcFallback s [.regs .power, .regs .syn] (fun t => t.fb Fld.PWR_STAT.SRC_FALLBACK = true ∧
          t.rg .SYN_FCW_INT 0 = 100 ∧ t.rg .SYN_FCW_NUM 0 = 0 ∧ t.rg .SYN_FCW_DEN 0 = 1))) ∧
    (s.Takes .SYN_PHASE n.val → loopFixed n.val = false →
      (v.toInt.natAbs ≤ 256000 → Does (.synPhaseWrite n v) s [.syn, .regs .syn] (fun t => t.rg .SYN_PHASE n.val = v ∧
        (t.loop n.val).left = v.toInt - s.srg .SYN_PHASE n.val + (s.phaseLeft n.val s.now : Nat) ∧ (t.loop n.val).leftAt = s.now ∧
          t.fb Fld.SYN_WSTAT.ACCEPT = true)) ∧
      (256000 < v.toInt.natAbs → Does (.synPhaseWrite n v) s [.regs .syn] (fun t => t.rg .SYN_PHASE n.val = s.rg .SYN_PHASE n.val ∧
        t.fb Fld.SYN_WSTAT.RANGE = true)))

/-- The clock, PPS and time-of-day outputs: a divider is staged, committed and takes effect at its alignment; an output is enabled and
disabled; SYNC_IN arms an alignment; PPSOUT edges, their configuration and compensation; the message of a TOD pin (R51, R167 to R173,
R322). -/
def Obligations.OutputCommands : Prop :=
  ∀ (s : State) (k : Fin 24) (j : Fin 4) (v : BitVec 32),
    let o := s.out k.val
    let d := o.stDiv.toNat % 2 * 2 ^ 32 + v.toNat
    let p := s.ppsPin j.val
    let sec := s.ppsSecond j.val
    (s.Takes .SYN_OUT_DIV_HI k.val → Does (.divHiStage k v) s [.syn, .regs .syn] (fun t =>
      t.out k.val = { o with stDiv := v &&& 1#32 } ∧ t.outDiv k.val = s.outDiv k.val ∧ t.fb Fld.SYN_WSTAT.ACCEPT = true)) ∧
    (s.Takes .SYN_OUT_DIV_LO k.val →
      (2 ≤ d → s.outFreqOk k.val d (s.fd Fld.SYN_OUT_CFG.FORMAT k.val) = true → s.syn.sync = none →
        Does (.divCommit k v) s [.syn, .regs .syn] (fun t => t.outDiv k.val = d ∧ t.fb Fld.SYN_OUT_STAT.ALIGN_PEND k.val = true ∧
          t.out k.val = { o with newDiv := d, alignAt := some s.alignSecond } ∧ t.fb Fld.SYN_WSTAT.ACCEPT = true)) ∧
      ((d < 2 ∨ s.outFreqOk k.val d (s.fd Fld.SYN_OUT_CFG.FORMAT k.val) = false) →
        Does (.divCommit k v) s [.syn, .regs .syn] (fun t => t.outDiv k.val = s.outDiv k.val ∧ (t.out k.val).newDiv = o.newDiv ∧
          (t.out k.val).alignAt = o.alignAt ∧ t.fb Fld.SYN_WSTAT.RANGE = true))) ∧
    (s.clockUp = true → s.pwr.dclk = true → s.syn.sync = none → Does .dividerAlignment s [.syn, .regs .syn] (fun t =>
      ∀ m, m < 24 → (∀ a, (s.out m).alignAt = some a → s.reached (TimeVal.ofSec a) = true →
          (t.out m).div = (s.out m).newDiv ∧ (t.out m).alignAt = none ∧ t.fb Fld.SYN_OUT_STAT.ALIGN_PEND m = false ∧
          (s.fb Fld.SYN_OUT_CFG.EN m = true → 4 ≤ s.loopState (loopOf m) → t.fb Fld.SYN_OUT_STAT.RUNNING m = true)) ∧
        (∀ a, (s.out m).alignAt = some a → s.reached (TimeVal.ofSec a) = false → t.out m = s.out m) ∧
        ((s.out m).alignAt = none → t.out m = s.out m))) ∧
    (s.Takes .SYN_OUT_CFG k.val → Fld.SYN_OUT_CFG.FORMAT.of v ≠ 3 →
      s.outFreqOk k.val (s.outDiv k.val) (Fld.SYN_OUT_CFG.FORMAT.of v) = true →
      (Fld.SYN_OUT_CFG.EN.of v = 1 → s.fb Fld.SYN_OUT_CFG.EN k.val = false →
        Does (.clkoutEnWrite k v) s [.syn, .regs .syn] (fun t => t.fb Fld.SYN_OUT_CFG.EN k.val = true ∧ t.fb Fld.SYN_WSTAT.ACCEPT = true ∧
          (s.loopState (loopOf k.val) = 4 → t.out k.val = { o with alignAt := some s.alignSecond } ∧
            t.fb Fld.SYN_OUT_STAT.ALIGN_PEND k.val = true) ∧
          (s.loopState (loopOf k.val) ≠ 4 → t.out k.val = o ∧ t.fb Fld.SYN_OUT_STAT.HELD k.val = true))) ∧
      (Fld.SYN_OUT_CFG.EN.of v = 0 → s.fb Fld.SYN_OUT_CFG.EN k.val = true →
        Does (.clkoutEnWrite k v) s [.syn, .regs .syn] (fun t => t.fb Fld.SYN_OUT_CFG.EN k.val = false ∧
          t.out k.val = { o with alignAt := none } ∧ t.fb Fld.SYN_OUT_STAT.RUNNING k.val = false ∧
            t.fb Fld.SYN_OUT_STAT.HELD k.val = false ∧ t.fb Fld.SYN_OUT_STAT.ALIGN_PEND k.val = false))) ∧
    (∀ falling, s.clockUp = true → s.fb Fld.SYN_SYNC_CTL.EN = true → s.fb Fld.SYN_SYNC_CTL.EDGE = falling →
      (s.syn.sync = none → Does (.syncInEdge falling) s [.syn, .regs .syn] (fun t =>
        t.syn = { s.syn with sync := some (s.alignSecond, BitVec.ofNat 24 (s.fd Fld.SYN_SYNC_CTL.MASK)) } ∧
          t.fb Fld.SYN_SYNC_STAT.PEND = true)) ∧
      (s.syn.sync ≠ none → Does (.syncInEdge falling) s [.regs .syn] (fun t =>
        t.fd Fld.SYN_SYNC_STAT.IGNORED = (s.fd Fld.SYN_SYNC_STAT.IGNORED + 1) % 2 ^ 8))) ∧
    (s.clockUp = true → s.pwr.dclk = true → p.en = true → p.last ≠ some sec → s.ppsInstant j.val sec * 2 ^ 24 < s.tickEnd56 →
      (s.ppsMuted = true → Does (.ppsEdge j) s [.syn, .regs .syn] (fun t => t.ppsPin j.val = { p with last := some sec } ∧
        t.fb Fld.SYN_PPS_STAT.MUTED j.val = true ∧ t.fb Fld.SYN_PPS_STAT.RUNNING j.val = false)) ∧
      (s.ppsMuted = false → p.irig = false → Does (.ppsEdge j) s [.syn, .regs .syn] (fun t =>
        t.ppsPin j.val = { p with last := some sec, frame := none } ∧ t.fb Fld.SYN_PPS_STAT.MUTED j.val = false ∧
          t.fb Fld.SYN_PPS_STAT.RUNNING j.val = true)) ∧
      (s.ppsMuted = false → p.irig = true → (s.fb Fld.SYN_PPS_CFG.TSCALE j.val = true ∨ s.fb Fld.DTM_UTC_OFFSET.VALID = true) →
        Does (.ppsEdge j) s [.syn, .regs .syn] (fun t => t.ppsPin j.val = { p with last := some sec, frame := some (s.irigFrame j.val sec) } ∧
          t.fb Fld.SYN_PPS_STAT.NOUTC j.val = false ∧ t.fb Fld.SYN_PPS_STAT.RUNNING j.val = true)) ∧
      (s.ppsMuted = false → p.irig = true → s.fb Fld.SYN_PPS_CFG.TSCALE j.val = false → s.fb Fld.DTM_UTC_OFFSET.VALID = false →
        Does (.ppsEdge j) s [.syn, .regs .syn] (fun t => t.ppsPin j.val = { p with last := some sec, frame := none } ∧
          t.fb Fld.SYN_PPS_STAT.NOUTC j.val = true ∧ t.fb Fld.SYN_PPS_STAT.RUNNING j.val = false))) ∧
    (s.clockUp = true → ∀ a, p.takeAt = some a → s.reached (TimeVal.ofSec a) = true → Does (.ppsCfgTakeEffect j) s [.syn, .regs .syn]
      (fun t => t.ppsPin j.val = { p with en := s.fb Fld.SYN_PPS_CFG.EN j.val, irig := s.fb Fld.SYN_PPS_CFG.FORMAT j.val, takeAt := none } ∧
        (s.fb Fld.SYN_PPS_CFG.EN j.val = false → t.fb Fld.SYN_PPS_STAT.RUNNING j.val = false))) ∧
    (s.Takes .SYN_PPS_COMP j.val → v.toInt.natAbs ≤ 256000 →
      ((s.fb Fld.SYN_PPS_CFG.EN j.val = false ∨ s.fd Fld.DTM_MODE.MODE = 1) → Does (.ppsCompWrite j v) s (unlocking ++ [.regs .syn])
        (fun t => t.rg .SYN_PPS_COMP j.val = v ∧ t.fb Fld.SYN_WSTAT.ACCEPT = true)) ∧
      (s.fb Fld.SYN_PPS_CFG.EN j.val = true → s.fd Fld.DTM_MODE.MODE ≠ 1 → Does (.ppsCompWrite j v) s (unlocking ++ [.regs .syn])
        (fun t => t.rg .SYN_PPS_COMP j.val = s.rg .SYN_PPS_COMP j.val ∧ t.fb Fld.SYN_WSTAT.COMP_REFUSED = true))) ∧
    (∀ i : Fin 2, s.clockUp = true → s.pwr.dclk = true → s.fb Fld.SYN_TOD_CFG.EN i.val = true →
      s.reached (TimeVal.plus (TimeVal.ofSec s.now.sec.toNat) (s.fd Fld.SYN_TOD_CFG.LEAD i.val * 1000 * usCount)) = true →
      SMap.find s.syn.tod i.val = none → Does (.todMessage i) s [.syn] (fun t => ∃ m, SMap.find t.syn.tod i.val = some m ∧
        m.sec = s.now.sec ∧ m.utcOk = s.fb Fld.DTM_UTC_OFFSET.VALID ∧ m.offset = s.utcOffset ∧
          m.leap61 = s.fb Fld.DTM_UTC_STAT.LEAP61 ∧ m.leap59 = s.fb Fld.DTM_UTC_STAT.LEAP59 ∧ m.cls = s.fd Fld.TRV_STAT.CC))

/-- Sample ports, front-end control, acquisition and antennas: a port restarts with its configuration and its antenna's channels are
dropped; its rate and its power are checked each second; a transfer on GNSS_CTL runs; acquisition jobs end and are aborted; an antenna's
fault pin, position and signals (R179 to R186, R191, R194). -/
def Obligations.BasebandPortCommands : Prop :=
  ∀ (s : State) (p a which : Fin 4) (v miso : BitVec 32) (hz : Nat) (pw : BitVec 16),
    (s.Takes .GNS_SP_CFG p.val → Does (.gnsSpCfgWrite p v) s (unlocking ++ [.gns, .regs .irqStat, .regs .gns]) (fun t =>
      t.rg .GNS_SP_CFG p.val = ((s.rg .GNS_SP_CFG p.val &&& ~~~0xFFF00000#32) ||| (v &&& 0xFFF00000#32)) ∧
        t.fb Fld.GNS_SP_STAT.RUNNING p.val = false ∧ t.fb Fld.GNS_SP_STAT.BADCLK p.val = false ∧ t.fb Fld.GNS_WSTAT.ACCEPT = true ∧
        (∀ c, c < 192 → s.fd Fld.GNS_CH_STAT.ANT c = s.fd Fld.GNS_SP_CFG.ANT p.val → t.fd Fld.GNS_CH_STAT.STATE c = 0) ∧
        (∀ c, s.gns.running = some c → c.ports.testBit p.val = true → t.gns.running = none ∧ t.fd Fld.GNS_SNAP_STAT.RESULT = 3))) ∧
    (s.clockUp = true → s.pwr.gatedGnss = false → s.fb Fld.GNS_SP_CFG.EN p.val = true →
      let rate := (s.rg .GNS_SP_RATE p.val).toNat
      let off := if hz ≤ rate then rate - hz else hz - rate
      let hist := SMap.get (fun _ => []) s.gns.pwr p.val
      let high := pw.toNat + s.fd Fld.GNS_SP_CFG.JAMTHR p.val * 10 < median (hist.map (fun x => x.toNat))
      (SMap.find s.secDone (10 + p.val) ≠ some s.now.sec.toNat →
        (off * 1000000 ≤ rate * 100 → Does (.spRateCheck p hz) s [.secDone, .ens, .regs .gns] (fun t =>
          t.fb Fld.GNS_SP_STAT.BADCLK p.val = false ∧ t.fb Fld.GNS_SP_STAT.RUNNING p.val = decide (0 < hz))) ∧
        (rate * 100 < off * 1000000 → s.fb Fld.GNS_SP_STAT.BADCLK p.val = false →
          Does (.spRateCheck p hz) s (raising ++ [.secDone, .ens, .regs .gns]) (fun t =>
            t.fb Fld.GNS_SP_STAT.BADCLK p.val = true ∧ Raised t (243 + p.val) 10))) ∧
      (SMap.find s.secDone (14 + p.val) ≠ some s.now.sec.toNat → s.fb Fld.GNS_SP_STAT.JAM p.val = false →
        (¬ (hist ≠ [] ∧ high) → Does (.spPowerCheck p pw) s [.secDone, .ens, .gns, .regs .gns] (fun t =>
          t.fd Fld.GNS_SP_STAT.PWR p.val = pw.toNat ∧ t.fb Fld.GNS_SP_STAT.JAM p.val = false ∧
            SMap.get (fun _ => []) t.gns.pwr p.val = (pw :: hist).take 3600)) ∧
        (hist ≠ [] → high → Does (.spPowerCheck p pw) s (raising ++ [.secDone, .ens, .gns, .regs .gns]) (fun t =>
          t.fd Fld.GNS_SP_STAT.PWR p.val = pw.toNat ∧ t.fb Fld.GNS_SP_STAT.JAM p.val = true ∧ t.fb Fld.GNS_STAT.JAM = true ∧
            t.gns.pwr = s.gns.pwr ∧ Raised t (243 + p.val) 9)))) ∧
    (s.Takes .GNS_CTL_CMD 0 →
      let n := Fld.GNS_CTL_CMD.COUNT.of v
      let tx := (s.rg .GNS_CTL_TX 0).toNat % 2 ^ n
      (8 ≤ n → n ≤ 32 → s.fb Fld.GNS_CTL_STAT.BUSY = false → s.pwr.gatedGnss = false →
        Does (.gnsCtlGo v) s (unlocking ++ [.gns, .regs .gns]) (fun t => t.fb Fld.GNS_CTL_STAT.BUSY = true ∧
          t.fb Fld.GNS_WSTAT.ACCEPT = true ∧ t.gns = { s.gns with spi := some (Fld.GNS_CTL_CMD.CS.of v, n,
            BitVec.ofNat 32 (if s.fb Fld.GNS_CTL_CFG.LSB_FIRST then bitsReversed n tx else tx)) })) ∧
      ((n < 8 ∨ 32 < n ∨ s.fb Fld.GNS_CTL_STAT.BUSY = true ∨ s.pwr.gatedGnss = true) →
        Does (.gnsCtlGo v) s (unlocking ++ [.regs .gns]) (fun t => t.fb Fld.GNS_WSTAT.RANGE = true ∧
          t.fb Fld.GNS_CTL_STAT.BUSY = s.fb Fld.GNS_CTL_STAT.BUSY))) ∧
    (s.clockUp = true → ∀ cs n out, s.gns.spi = some (cs, n, out) → Does (.gnsCtlDone miso) s [.gns, .regs .gns] (fun t =>
      t.gns = { s.gns with spi := none } ∧ t.fb Fld.GNS_CTL_STAT.BUSY = false ∧
        t.fd Fld.GNS_CTL_STAT.DONE = (s.fd Fld.GNS_CTL_STAT.DONE + 1) % 256 ∧
        (s.fb Fld.GNS_CTL_CFG.LSB_FIRST = false → t.rg .GNS_CTL_RX 0 = BitVec.ofNat 32 (miso.toNat % 2 ^ n)))) ∧
    (s.clockUp = true → s.pwr.gatedGnss = false → s.fb Fld.GNS_ACQ_CTL.HOLD = true → ∀ j, s.gns.job = some j → j.level ≠ 1 →
      s.antMain j.ant = true → (s.rg .GNS_ANT_CFG j.ant).getLsbD j.sig = true → s.antPasses j.ant j.sig = true →
      Does (.acqJobDone none) s [.gns] (fun t => t.gns = { s.gns with job := none, jobs := s.gns.jobs ++ [{ j with level := 4 }] }) ∧
      (∀ cn0 elev c, (s.antChannels j.ant).length < s.fd Fld.GNS_ANT_CFG.CHMAX j.ant →
        (List.range 192).find? (fun c => decide (s.fd Fld.GNS_CH_STAT.STATE c = 0)) = some c →
        Does (.acqJobDone (some (cn0, elev))) s [.gns, .regs .gns] (fun t => t.gns = { s.gns with job := none } ∧
          t.fd Fld.GNS_CH_STAT.STATE c = 1 ∧ t.fd Fld.GNS_CH_STAT.ANT c = j.ant % 4 ∧ t.fd Fld.GNS_CH_STAT.SIG c = j.sig % 16 ∧
            t.fd Fld.GNS_CH_STAT.SV c = j.sv % 64))) ∧
    (s.Takes .GNS_ACQ_CTL 0 → 1 ≤ Fld.GNS_ACQ_CTL.NONCOH.of v → Fld.GNS_ACQ_CTL.NONCOH.of v ≤ 100 →
      Does (.acqAbort v) s (unlocking ++ [.gns, .regs .irqStat, .regs .gns]) (fun t => t.gns.jobs = [] ∧ t.gns.job = none ∧
        t.fb Fld.GNS_STAT.ACQ_BUSY = false ∧ t.fb Fld.GNS_WSTAT.ACQ_ABORTED = true ∧
          (s.gns.audBusy = true → t.gns.audBusy = false ∧ t.fd Fld.GNS_AUD_STAT.RESULT = 4))) ∧
    (s.clockUp = true →
      (s.fb Fld.GNS_ANT_STAT.ANT_FLT a.val = false →
        Does (.antFltChange a (s.fb Fld.GNS_ANT_CFG.FLT_POL a.val)) s (raising ++ [.gns, .ens, .regs .gns]) (fun t =>
          t.fb Fld.GNS_ANT_STAT.ANT_FLT a.val = true ∧ Raised t (247 + a.val) 8 ∧
            (s.antMain a.val = true → t.fd Fld.GNS_ANT_STAT.SOL a.val = 6 ∧
              ∀ q, s.primary a.val = some q → (t.ent (8 + q)).lost = true))) ∧
      Does (.antFltChange a (!s.fb Fld.GNS_ANT_CFG.FLT_POL a.val)) s [.gns, .ens, .regs .gns] (fun t =>
        t.fb Fld.GNS_ANT_STAT.ANT_FLT a.val = false)) ∧
    (s.Takes (posReg which) a.val → Does (.antPosWrite a which v) s (unlocking ++ [.gns, .cairn, .regs .gns]) (fun t =>
      t.rg (posReg which) a.val = v ∧ t.fb Fld.GNS_ANT_CFG.MODE a.val = true ∧ SMap.find t.gns.surveys a.val = none ∧
        SMap.get RegKey.dflt t.cairn.regs ⟨posReg which, a.val⟩ = v)) ∧
    (s.Takes .GNS_ANT_CFG a.val →
      let named := ∀ i, i < 9 → v.getLsbD i = true → (s.rg .GNS_ANT_CFG a.val).getLsbD i = false → s.antPasses a.val i = true
      let fields := Fld.GNS_ANT_CFG.ROLE.of v ≠ 3 ∧ Fld.GNS_ANT_CFG.CHMAX.of v ≤ 192
      (fields → named → Does (.antSigWrite a v) s (unlocking ++ [.gns, .ens, .cairn, .regs .gns]) (fun t =>
        t.rg .GNS_ANT_CFG a.val = ((s.rg .GNS_ANT_CFG a.val &&& ~~~0xFFFE01FF#32) ||| (v &&& 0xFFFE01FF#32)) ∧
          t.fb Fld.GNS_WSTAT.ACCEPT = true ∧ ∀ c, c < 192 → s.fd Fld.GNS_CH_STAT.ANT c = a.val →
            (Fld.GNS_ANT_CFG.ROLE.of v ≠ 1 ∨ v.getLsbD (s.fd Fld.GNS_CH_STAT.SIG c) = false) → t.fd Fld.GNS_CH_STAT.STATE c = 0)) ∧
      ((¬ fields ∨ ¬ named) → Does (.antSigWrite a v) s (unlocking ++ [.regs .gns]) (fun t => t.fb Fld.GNS_WSTAT.RANGE = true ∧
        t.rg .GNS_ANT_CFG a.val = s.rg .GNS_ANT_CFG a.val)))

/-- The epoch: at a Datum second each channel latches, and a MAIN antenna's solution is delivered with its bound or reads why it is not; a
lost satellite is searched again (R184, R187 to R194). -/
def Obligations.TimeSolution : Prop :=
  ∀ (s : State) (obs : List GnsObs) (a : Nat) (p : Nat),
    let n := s.now.sec.toNat
    let parts : List Part := [.ens, .gns, .cairn, .regs .gns]
    s.clockUp = true → s.pwr.gatedGnss = false →
    (s.gns.latched = some n → Does (.epochLatch obs) s [] (fun _ => True)) ∧
    (s.gns.latched ≠ some n → Does (.epochLatch obs) s (parts ++ raising) (fun t => t.gns.latched = some n)) ∧
    (∀ o, obs = [o] → o.lost = true → s.fd Fld.GNS_CH_STAT.STATE o.ch.val ≠ 0 → s.fb Fld.GNS_ACQ_CTL.HOLD = true →
      s.gns.latched ≠ some n → Does (.epochLatch obs) s (parts ++ raising) (fun t => t.fd Fld.GNS_CH_STAT.STATE o.ch.val = 0 ∧
        t.gns.jobs = s.gns.jobs ++ [⟨2, s.fd Fld.GNS_CH_STAT.ANT o.ch.val, s.fd Fld.GNS_CH_STAT.SIG o.ch.val,
          s.fd Fld.GNS_CH_STAT.SV o.ch.val⟩])) ∧
    (a < 4 → s.antMain a = true → (∀ b, b < 4 → b ≠ a → s.antMain b = false) → s.primary a = some p → s.gns.latched ≠ some n →
      let s1 := obs.foldl State.chEpoch s
      let solved := s1.solveEpoch a n (s.fd Fld.GNS_RAIM.MAXEX) (obs.filter (fun o => s1.usable a n o)) []
      let timed := (obs.findSome? (fun o => s1.resolvedBy o)).isSome || s.gns.resolved.isSome
      (s.withheld a = true → Does (.epochLatch obs) s parts (fun t => t.fd Fld.GNS_ANT_STAT.SOL a = 6 ∧ t.ens.meas = s.ens.meas)) ∧
      (s.withheld a = false → timed = false → Does (.epochLatch obs) s parts (fun t => t.fd Fld.GNS_ANT_STAT.SOL a = 4 ∧
        t.ens.meas = s.ens.meas)) ∧
      (s.withheld a = false → timed = true → solved.1 = .none → Does (.epochLatch obs) s parts (fun t =>
        t.fd Fld.GNS_ANT_STAT.SOL a = 0 ∧ t.ens.meas = s.ens.meas)) ∧
      (s.withheld a = false → timed = true → solved.1 = .raimFail → Does (.epochLatch obs) s (parts ++ raising) (fun t =>
        t.fd Fld.GNS_ANT_STAT.SOL a = 3 ∧ t.ens.meas = s.ens.meas ∧ Raised t (247 + a) 12)) ∧
      (s.withheld a = false → timed = true → ∀ x varX pos pv used ws, solved.1 = .ok x varX pos pv used ws →
        (s.solutionBound a p varX used ws = none → Does (.epochLatch obs) s parts (fun t => t.fd Fld.GNS_ANT_STAT.SOL a = 5 ∧
          t.ens.meas = s.ens.meas)) ∧
        (∀ b, s.solutionBound a p varX used ws = some b → s.fb Fld.GNS_ANT_CFG.MODE a = true →
          Does (.epochLatch obs) s parts (fun t => t.fd Fld.GNS_ANT_STAT.SOL a = 1 ∧ t.rg .GNS_ANT_EARLY a = b ∧
            t.rg .GNS_ANT_LATE a = b ∧ t.ens.meas = s.ens.meas ++ [(8 + p, ⟨n, x.floor, b, b, false, []⟩)]))))

/-- The time floor is staged, committed and raised once a day; a snapshot is armed, starts at its instant and ends, or is refused with its
result; an audit captures both antennas every PERIOD and passes, fails or finds too few; ephemerides are committed once an hour (R184,
R190, R195, R196, R322). -/
def Obligations.FloorSnapshotAuditCommands : Prop :=
  ∀ (s : State) (v : BitVec 32) (data : List Byte) (ds : List AuditDelta),
    let len := Fld.GNS_SNAP_CTL.LEN.of v
    let day := s.now.sec.toNat / 86400
    let floor_ := s.pair .GNS_TIME_FLOOR_HI .GNS_TIME_FLOOR_LO
    (s.Takes .GNS_TIME_FLOOR_HI 0 → Does (.timeFloorHiStage v) s (unlocking ++ [.gns, .regs .gns]) (fun t =>
      t.gns = { s.gns with floorStaged := v } ∧ t.fb Fld.GNS_WSTAT.ACCEPT = true ∧
        t.pair .GNS_TIME_FLOOR_HI .GNS_TIME_FLOOR_LO = floor_)) ∧
    (s.Takes .GNS_TIME_FLOOR_LO 0 → Does (.timeFloorCommit v) s (unlocking ++ [.gns, .cairn, .regs .gns]) (fun t =>
      t.pair .GNS_TIME_FLOOR_HI .GNS_TIME_FLOOR_LO = s.gns.floorStaged ++ v ∧
        SMap.get RegKey.dflt t.cairn.regs ⟨.GNS_TIME_FLOOR_HI, 0⟩ = s.gns.floorStaged ∧
        SMap.get RegKey.dflt t.cairn.regs ⟨.GNS_TIME_FLOOR_LO, 0⟩ = v ∧ t.fb Fld.GNS_WSTAT.ACCEPT = true)) ∧
    (s.clockUp = true → ∀ r, s.gns.resolved = some r → s.gns.floorDay ≠ day →
      (floor_.toNat < r - 7 * 86400 → Does .timeFloorRaise s [.gns, .cairn, .regs .gns] (fun t => t.gns.floorDay = day ∧
        t.pair .GNS_TIME_FLOOR_HI .GNS_TIME_FLOOR_LO = BitVec.ofNat 64 (r - 7 * 86400))) ∧
      (r - 7 * 86400 ≤ floor_.toNat → Does .timeFloorRaise s [.gns] (fun t => t.gns = { s.gns with floorDay := day }))) ∧
    (s.Takes .GNS_SNAP_CTL 0 →
      ((len = 0 ∨ 100 < len) → Does (.gnsSnapGo v) s [.regs .gns] (fun t => t.fb Fld.GNS_WSTAT.RANGE = true ∧
        t.rg .GNS_SNAP_CTL 0 = s.rg .GNS_SNAP_CTL 0)) ∧
      (1 ≤ len → len ≤ 100 → (s.gns.armed.isSome = true ∨ s.gns.running.isSome = true) → Does (.gnsSnapGo v) s [.regs .gns] (fun t =>
        t.fd Fld.GNS_SNAP_STAT.RESULT = 2 ∧ t.fb Fld.GNS_WSTAT.SNAP_BUSY = true)) ∧
      (1 ≤ len → len ≤ 100 → s.gns.armed = none → s.gns.running = none → Does (.gnsSnapGo v) s [.gns, .regs .gns] (fun t =>
        t.fb Fld.GNS_SNAP_STAT.PEND = true ∧ t.fb Fld.GNS_WSTAT.ACCEPT = true ∧
          t.gns = { s.gns with armed := some ⟨Fld.GNS_SNAP_CTL.PORTS.of v, len,
            TimeVal.ofCount (ceilDiv ((s.now.plus (10 * usCount)).count) (1000 * usCount) * (1000 * usCount)), false⟩ }))) ∧
    (s.clockUp = true → ∀ c, s.gns.armed = some c → s.reached c.at_ = true →
      let fits := s.captureSize c.ports c.len ≤ 8388608
      let ports := ∀ p, p < 4 → c.ports.testBit p = true → s.fb Fld.GNS_SP_STAT.RUNNING p = true
      (s.gns.running.isSome = true → Does .snapshotStart s [.gns, .regs .gns] (fun t => t.gns = { s.gns with armed := none } ∧
        t.fd Fld.GNS_SNAP_STAT.RESULT = 2 ∧ t.fb Fld.GNS_WSTAT.SNAP_BUSY = true)) ∧
      (s.gns.running = none → ¬ fits → Does .snapshotStart s [.gns, .regs .gns] (fun t => t.gns = { s.gns with armed := none } ∧
        t.fb Fld.GNS_WSTAT.RANGE = true ∧ t.fb Fld.GNS_SNAP_STAT.PEND = false)) ∧
      (s.gns.running = none → fits → ¬ ports → Does .snapshotStart s [.gns, .regs .irqStat, .regs .gns] (fun t =>
        t.gns = { s.gns with armed := none } ∧ t.fd Fld.GNS_SNAP_STAT.RESULT = 3 ∧ t.fb Fld.GNS_SNAP_STAT.PEND = false)) ∧
      (s.gns.running = none → fits → ports → Does .snapshotStart s [.gns, .regs .gns] (fun t =>
        t.gns = { s.gns with armed := none, running := some c } ∧ t.fb Fld.GNS_SNAP_STAT.PEND = true ∧
          t.fb Fld.GNS_STAT.SNAP_BUSY = true ∧ t.pair .GNS_SNAP_SEC_HI .GNS_SNAP_SEC_LO = c.at_.sec ∧ t.rg .GNS_SNAP_NS 0 = c.at_.ns))) ∧
    (s.clockUp = true → s.pwr.gatedGnss = false →
      (∀ c, s.gns.running = some c → s.reached (c.at_.plus (c.len * 1000 * usCount)) = true →
        Does (.snapshotCaptureEnd data) s [.gns, .regs .irqStat, .regs .gns] (fun t => t.gns.running = none ∧
          t.gns.buffer = data.take (s.captureSize c.ports c.len) ∧ t.fd Fld.GNS_SNAP_STAT.RESULT = 1 ∧
            t.fd Fld.GNS_SNAP_STAT.SEQ = (s.fd Fld.GNS_SNAP_STAT.SEQ + 1) % 65536 ∧ t.fb Fld.GNS_STAT.SNAP_BUSY = false ∧
            (c.audit = true → t.gns.audBusy = true))) ∧
      (s.fb Fld.GNS_AUD_CTL.EN = true →
        (s.now.sec.toNat < s.gns.audLast + s.fd Fld.GNS_AUD_CTL.PERIOD → Does .auditSchedule s [] (fun _ => True)) ∧
        (s.gns.audLast + s.fd Fld.GNS_AUD_CTL.PERIOD ≤ s.now.sec.toNat →
          Does .auditSchedule s [.gns, .regs .irqStat, .regs .gns] (fun t => t.gns.audLast = s.now.sec.toNat) ∧
          (∀ p q, s.gns.running = none → s.auditPort (s.fd Fld.GNS_AUD_CTL.MAIN) = some p → s.auditPort (s.fd Fld.GNS_AUD_CTL.AUDIT) = some q →
            let ports := 2 ^ p ||| 2 ^ q
            s.captureSize ports (s.fd Fld.GNS_AUD_CTL.LEN) ≤ 8388608 → s.fb Fld.GNS_SP_STAT.RUNNING p = true →
            s.fb Fld.GNS_SP_STAT.RUNNING q = true → Does .auditSchedule s [.gns, .regs .gns] (fun t =>
              t.gns.running = some ⟨ports, s.fd Fld.GNS_AUD_CTL.LEN, s.now, true⟩ ∧ t.fb Fld.GNS_STAT.SNAP_BUSY = true)))) ∧
      (s.gns.audBusy = true →
        let few := ds.length < s.fd Fld.GNS_AUD_CTL.NMIN
        let high := s.fd Fld.GNS_AUD_THR.THR < s.auditRms ds
        let parts : List Part := [.ens, .gns, .regs .irqStat, .regs .gns]
        (few → Does (.auditComplete ds) s parts (fun t => t.fd Fld.GNS_AUD_STAT.RESULT = 3 ∧
          t.fb Fld.GNS_STAT.AUD_ALARM = s.fb Fld.GNS_STAT.AUD_ALARM ∧ t.gns.audBusy = false)) ∧
        (¬ few → high → Does (.auditComplete ds) s (raising ++ parts) (fun t => t.fd Fld.GNS_AUD_STAT.RESULT = 2 ∧
          t.fb Fld.GNS_STAT.AUD_ALARM = true ∧ t.gns.audPass = 0 ∧ Raised t (247 + s.fd Fld.GNS_AUD_CTL.MAIN) 11)) ∧
        (¬ few → ¬ high → Does (.auditComplete ds) s parts (fun t => t.fd Fld.GNS_AUD_STAT.RESULT = 1 ∧
          t.gns.audPass = s.gns.audPass + 1 ∧
            t.fb Fld.GNS_STAT.AUD_ALARM = (s.fb Fld.GNS_STAT.AUD_ALARM && decide (s.gns.audPass = 0)))))) ∧
    (s.clockUp = true → s.gns.ephCommit ≠ s.now.sec.toNat / 3600 → Does .ephemerisCommit s [.gns, .cairn] (fun t =>
      t.gns = { s.gns with ephCommit := s.now.sec.toNat / 3600 } ∧ t.cairn = { s.cairn with eph := s.gns.eph }))

/-- Configuration, calibration, link and pauses of a port: a write of PRT_CFG in and out of range, the port's start, its calibration's
end, LINK rising and falling, a pause taking effect and ending (R197 to R200, R208, R211 to R213, R216). -/
def Obligations.PortCommands : Prop :=
  ∀ (s : State) (n : Fin 64) (v rate : BitVec 32) (span tx rx phase : Nat),
    let i := n.val
    let p := s.port i
    let m := s.lineMode i
    let merged := (s.rg .PRT_CFG i &&& ~~~0xFF000000#32) ||| (v &&& 0xFF000000#32)
    let started : List Part := notifying ++ [.frames, .launches, .prt, .regs .port]
    let on := Fld.PRT_CFG.EN.of v = 1
    let serves := s.clusterServes (i / 4) = true
    (s.Takes .PRT_CFG i →
      (s.prtCfgOk i v = false → Does (.prtCfgWrite n v) s [.regs .port] (fun t => t.fb Fld.PRT_WSTAT.RANGE i = true ∧
        t.rg .PRT_CFG i = s.rg .PRT_CFG i)) ∧
      (s.prtCfgOk i v = true → on → s.fb Fld.PRT_CFG.EN i = true → Does (.prtCfgWrite n v) s [.regs .port] (fun t =>
        t.rg .PRT_CFG i = merged)) ∧
      (s.prtCfgOk i v = true → on → s.fb Fld.PRT_CFG.EN i = false → serves → Does (.prtCfgWrite n v) s started (fun t =>
        t.rg .PRT_CFG i = merged ∧ t.fd Fld.PRT_STAT.CAL i = 1 ∧ t.fb Fld.PRT_STAT.LINK i = false)) ∧
      (s.prtCfgOk i v = true → ¬ on → s.fb Fld.PRT_CFG.EN i = true → Does (.prtCfgWrite n v) s started (fun t =>
        t.rg .PRT_CFG i = merged ∧ t.fb Fld.PRT_STAT.LINK i = false ∧ (t.port i).q = [] ∧ (t.port i).tx = [] ∧
          (s.fd Fld.PRT_STAT.CAL i = 1 → t.fd Fld.PRT_STAT.CAL i = 0)))) ∧
    (s.Takes .PRT_CAL_CTL i →
      let dt := Fld.PRT_CAL_CTL.DT.of v
      ((dt < 1 ∨ 50 < dt) → Does (.prtCalGo n v) s (unlocking ++ [.regs .port]) (fun t => t.fb Fld.PRT_WSTAT.RANGE i = true ∧
        t.fd Fld.PRT_STAT.CAL i = s.fd Fld.PRT_STAT.CAL i)) ∧
      (1 ≤ dt → dt ≤ 50 → s.fb Fld.PRT_CFG.EN i = true → serves → Does (.prtCalGo n v) s (unlocking ++ started) (fun t =>
        t.fd Fld.PRT_STAT.CAL i = 1 ∧ t.fb Fld.PRT_STAT.LINK i = false ∧ t.fd Fld.PRT_CAL_CTL.DT i = dt))) ∧
    (s.coreUp = true → s.fd Fld.PRT_STAT.CAL i = 1 →
      (s.calAccepts i span tx rx = true → Does (.portCalDone n span tx rx) s [.prt, .cairn, .regs .port, .regs .irqStat] (fun t =>
        t.fd Fld.PRT_STAT.CAL i = 2 ∧ t.rg .PRT_CAL_TX i = calWord tx ∧ t.rg .PRT_CAL_RX i = calWord rx ∧
          t.port i = { p with temp := s.quadTemp (i / 4) } ∧ t.fb Fld.PRT_STAT.TEMP i = false ∧
          SMap.find t.cairn.port i = some ⟨tx, rx, s.quadTemp (i / 4)⟩)) ∧
      (s.calAccepts i span tx rx = false → Does (.portCalDone n span tx rx) s (raising ++ [.regs .port]) (fun t =>
        t.fd Fld.PRT_STAT.CAL i = 3 ∧ Raised t i 3 ∧ t.rg .PRT_CAL_TX i = s.rg .PRT_CAL_TX i))) ∧
    (s.coreUp = true →
      (s.linkUp i = false → s.fb Fld.PRT_CFG.EN i = true → s.ganged i = false → serves → 2 ≤ s.fd Fld.PRT_STAT.CAL i →
        Does (.linkUp n phase rate) s [.prt, .regs .port, .regs .irqStat] (fun t => t.fb Fld.PRT_STAT.LINK i = true ∧
          t.port i = { p with phase := phase % m.cycle, free := s.now.line } ∧ t.rg .PRT_RXPPM i = rate ∧
          t.rg .PRT_LPHASE i = (if m.fec then 0xFFFFFFFF#32 else BitVec.ofNat 32 (phase % m.space / (825 * 65536))))) ∧
      (s.fd Fld.PRT_STAT.CAL i < 2 → Does (.linkUp n phase rate) s [] (fun _ => True)) ∧
      (s.linkUp i = true → Does (.linkDown n) s (started ++ raising) (fun t => t.fb Fld.PRT_STAT.LINK i = false ∧
        (t.port i).q = [] ∧ (t.port i).tx = p.tx ∧ (∀ x ∈ p.q, t.frame x.frame = none) ∧
        (∀ e ∈ t.launches, e.2.port = i → e.2.lost = true) ∧ Raised t i 7)) ∧
      (∀ r rest, p.pauses = r :: rest →
        ((lineRound r.act).count * 2 ^ 24 < s.tickEnd56 → ∀ q x, r.times = [(q, x)] → q < 8 →
          Does (.pauseTakeEffect n) s [.prt, .regs .port] (fun t => (t.port i).pauses = rest ∧
            (x ≠ 0 → SMap.find (t.port i).until_ q = some (r.act + x * m.quantum * (33 * 2 ^ 30))) ∧
            (x = 0 → SMap.find (t.port i).until_ q = none) ∧ (∀ k, k ≠ q → SMap.find (t.port i).until_ k = SMap.find p.until_ k))) ∧
        (s.tickEnd56 ≤ (lineRound r.act).count * 2 ^ 24 → Does (.pauseTakeEffect n) s [] (fun _ => True))) ∧
      (∀ q e, SMap.find p.until_ q = some e → (lineRound e).count * 2 ^ 24 < s.tickEnd56 →
        Does (.pauseEnd n) s [.prt, .regs .port] (fun t => SMap.find (t.port i).until_ q = none)) ∧
      ((∀ e ∈ p.until_, s.tickEnd56 ≤ (lineRound e.2).count * 2 ^ 24) → Does (.pauseEnd n) s [] (fun _ => True)))

/-- Frames and launches of a port: a frame received whole is counted, checked, classed, and handed to a thread with its octets in the
pool; waiting frames move once cells are free; a queued frame begins at its start position and is freed when it has left; a launch begins
at its instant or fails with the reason (R82, R83, R201 to R206, R209 to R212). -/
def Obligations.PortFrameCommands : Prop :=
  ∀ (s : State) (n : Fin 64) (data : List Byte) (bad : Bool) (a trx : TimeVal),
    let i := n.val
    let p := s.port i
    let m := s.lineMode i
    let body := data.take (data.length - 4)
    let sound := 64 ≤ data.length ∧ data.length ≤ s.fd Fld.PRT_MAXFRAME.MAX i
    let stamp : TimeVal := { a with frac := a.frac &&& 0xFF000000#32 }
    let moved : List Part := notifying ++ [.mem, .hst, .frames, .prt, .regs .port]
    let placed := fun (t : State) (th c : Nat) (x : RxFrame) =>
      let h := frameHandle (i / 4) c
      Stored s t (cmemFlat (i / 4) (cellAddr c)) x.data ∧
        (∃ f, t.frame h = some f ∧ f.cluster = i / 4 ∧ f.cell = c ∧ f.len = x.data.length ∧ f.holder = some th ∧ f.frozen = false ∧
          f.port = i ∧ f.cls = x.cls ∧ f.stamp = .ingress x.at_) ∧
        ∃ k ∈ (t.thread th).notices, k.kind = .frame ∧ k.handle = BitVec.ofNat 32 h ∧ k.instant = x.at_
    s.coreUp = true →
    (s.linkUp i = true →
      (data.length ≤ 63 → Does (.frameReceive n data bad a trx) s [.regs .port] (fun t =>
        t.rg .PRT_RX_RUNT i = s.rg .PRT_RX_RUNT i + 1)) ∧
      (63 < data.length → s.fd Fld.PRT_MAXFRAME.MAX i < data.length → Does (.frameReceive n data bad a trx) s [.regs .port] (fun t =>
        t.rg .PRT_RX_OVERSIZE i = s.rg .PRT_RX_OVERSIZE i + 1)) ∧
      (sound → (bad = true ∨ fcsOf body ≠ data.drop (data.length - 4)) → Does (.frameReceive n data bad a trx) s [.regs .port]
        (fun t => t.rg .PRT_RX_FCS i = s.rg .PRT_RX_FCS i + 1)) ∧
      (sound → bad = false → fcsOf body = data.drop (data.length - 4) →
        (∀ k, flowKind body = some k → Does (.frameReceive n data bad a trx) s [.prt, .regs .port] (fun t =>
          t.rg .PRT_RX_OK i = s.rg .PRT_RX_OK i + 1 ∧ t.rg .PRT_RX_PAUSE i = s.rg .PRT_RX_PAUSE i + 1 ∧
            (s.pauseTimes i k body ≠ [] → t.port i = { p with pauses := p.pauses ++ [⟨pauseAct trx, s.pauseTimes i k body⟩] }))) ∧
        (flowKind body = none → s.rxCapacity i < p.rxUsed + data.length → Does (.frameReceive n data bad a trx) s [.regs .port] (fun t =>
          t.rg .PRT_RX_OVF i = s.rg .PRT_RX_OVF i + 1)) ∧
        (flowKind body = none → p.rx = [] → data.length ≤ s.rxCapacity i →
          let w := s.rxMap i (rxClass body)
          let th := 32 * (i / 4) + w % 32
          (bitAt w 7 = true → Does (.frameReceive n data bad a trx) s [.prt, .regs .port] (fun t =>
            t.rg .PRT_RX_OK i = s.rg .PRT_RX_OK i + 1 ∧ t.rg .PRT_RX_DROP i = s.rg .PRT_RX_DROP i + 1 ∧ (t.port i).rx = [])) ∧
          (bitAt w 7 = false → (s.thread th).st = .ready → (s.thread th).hasFree = true →
            (∀ c, s.findCells (i / 4) (cellsOf body.length) = some c → Does (.frameReceive n data bad a trx) s moved (fun t =>
              t.rg .PRT_RX_OK i = s.rg .PRT_RX_OK i + 1 ∧ (t.port i).rx = [] ∧ placed t th c ⟨body, rxClass body, stamp, s.replicaOk⟩)) ∧
            (s.findCells (i / 4) (cellsOf body.length) = none → Does (.frameReceive n data bad a trx) s [.prt, .regs .port] (fun t =>
              (t.port i).rx = [⟨body, rxClass body, stamp, s.replicaOk⟩])))))) ∧
    (∀ x, p.rx = [x] → 60 ≤ x.data.length →
      let w := s.rxMap i x.cls
      let th := 32 * (i / 4) + w % 32
      bitAt w 7 = false → (s.thread th).st = .ready → (s.thread th).hasFree = true →
      (∀ c, s.findCells (i / 4) (cellsOf x.data.length) = some c → Does (.frameToPool n) s moved (fun t =>
        (t.port i).rx = [] ∧ placed t th c x)) ∧
      (s.findCells (i / 4) (cellsOf x.data.length) = none → Does (.frameToPool n) s [] (fun _ => True))) ∧
    (s.linkUp i = true → ∀ x k, s.txNext i = some (x, k) →
      let st := m.start p.phase k
      (s.tickEnd56 ≤ (lineRound st).count * 2 ^ 24 → Does (.txFrameStart n) s [] (fun _ => True)) ∧
      ((lineRound st).count * 2 ^ 24 < s.tickEnd56 →
        (s.inGuard i st = true → x.held = false → Does (.txFrameStart n) s [.prt, .regs .port] (fun t =>
          t.rg .PRT_GUARD_HOLD i = s.rg .PRT_GUARD_HOLD i + 1 ∧ (t.port i).tx = p.tx)) ∧
        (s.inGuard i st = false → ∀ f, s.frame x.frame = some f → Does (.txFrameStart n) s [.prt, .regs .port] (fun t =>
          let sent := padFrame (s.frameData f)
          let ends := m.ends p.phase k (sent.length + 4)
          (t.port i).line = sent ++ fcsOf sent ∧ (t.port i).free = ends.2 ∧ (t.port i).q = p.q.filter (fun y => decide (y.frame ≠ x.frame)) ∧
            (t.port i).tx = p.tx ++ [⟨x.frame, none, x.notify, lineRound (m.point p.phase k), ends.1⟩])))) ∧
    (∀ x rest, p.tx = x :: rest →
      (s.tickEnd56 ≤ (lineRound x.end_).count * 2 ^ 24 → Does (.txFrameEnd n) s [] (fun _ => True)) ∧
      ((lineRound x.end_).count * 2 ^ 24 < s.tickEnd56 →
        (x.launch = none → x.notify = none → Does (.txFrameEnd n) s (counting ++ [.frames, .prt, .regs .port]) (fun t =>
          t.frame x.frame = none ∧ (t.port i).tx = rest ∧ t.rg .PRT_TX_OK i = s.rg .PRT_TX_OK i + 1 ∧
            SMap.find t.prt.sent x.frame = some (i, some x.stamp))) ∧
        (∀ th, x.launch = none → x.notify = some th → (s.thread th).st = .ready →
          Does (.txFrameEnd n) s (notifying ++ [.frames, .prt, .regs .port]) (fun t => t.frame x.frame = none ∧
            ∃ k ∈ (t.thread th).notices, k.kind = .sentTs ∧ k.handle = BitVec.ofNat 32 x.frame ∧ k.instant = x.stamp)) ∧
        (∀ l, x.launch = some l → (s.thread l.thread).st = .ready →
          Does (.txFrameEnd n) s (notifying ++ [.frames, .prt, .regs .port]) (fun t => t.frame x.frame = none ∧
            ∃ k ∈ (t.thread l.thread).notices, k.kind = .launched ∧ k.handle = BitVec.ofNat 32 x.frame ∧ k.instant = l.instant)))) ∧
    (∀ l, s.nextLaunch i = some l →
      (s.tickEnd56 ≤ (lineRound l.start).count * 2 ^ 24 → Does (.launchDecide n) s [] (fun _ => True)) ∧
      ((lineRound l.start).count * 2 ^ 24 < s.tickEnd56 →
        (s.launchOutcome l = none → Does (.launchDecide n) s [.timeline, .launches, .prt, .regs .port, .regs .datum] (fun t =>
          t.rg .PRT_LAUNCH_OK i = s.rg .PRT_LAUNCH_OK i + 1 ∧ SMap.find t.launches l.slot = none ∧ (t.slot l.slot).armed = none ∧
            ∃ x, (t.port i).tx = p.tx ++ [x] ∧ x.frame = l.frame ∧ x.launch = some l ∧ x.stamp = lineRound (m.point p.phase l.point))) ∧
        (∀ st f, s.launchOutcome l = some st → s.frame l.frame = some f → (s.thread l.thread).st = .ready →
          Does (.launchDecide n) s (notifying ++ [.frames, .launches, .prt, .regs .port]) (fun t =>
            SMap.find t.launches l.slot = none ∧ (t.slot l.slot).armed = none ∧ (t.port i).tx = p.tx ∧
            t.frame l.frame = some { f with frozen := false, times := [], bounds := [], holder := some l.thread } ∧
            (st = .lost → t.rg .PRT_LAUNCH_LOST i = s.rg .PRT_LAUNCH_LOST i + 1) ∧
            (st = .paused → t.rg .PRT_LAUNCH_PAUSED i = s.rg .PRT_LAUNCH_PAUSED i + 1) ∧
            (st = .busy → t.rg .PRT_LAUNCH_COLL i = s.rg .PRT_LAUNCH_COLL i + 1) ∧
            ∃ k ∈ (t.thread l.thread).notices, k.kind = .launchFailed ∧ k.status = st.code ∧ k.handle = BitVec.ofNat 32 l.frame))))

/-- The service's state, tallies, shedding level and client table: OPEN and CLOSE in each state, a program's tally, the level lowered
after HOLD seconds below the low limit, cancellations that fall due, a record freed (R220 to R223, R226, R245 to R248). -/
def Obligations.ServiceStateCommands : Prop :=
  ∀ (s : State) (th : Fin 512) (i : BitVec 22) (v insn : BitVec 32),
    let asked := Fld.SVC_CTL.UNAUTH.of v ≤ 1
    let now := s.now.sec.toNat
    (s.Takes .SVC_CTL 0 → asked →
      let parts : List Part := unlocking ++ [.regs .service, .regs .irqStat]
      (s.svcState = 0 → s.svcConds.all id = true → Does (.svcOpen v) s parts (fun t => t.svcState = 1 ∧ t.fd Fld.SVC_STAT.CAUSE = 1)) ∧
      (s.svcState = 0 → s.svcConds.all id = false → Does (.svcOpen v) s (unlocking ++ [.regs .service]) (fun t => t.svcState = 0 ∧
        t.fb Fld.SVC_WSTAT.OPEN_REFUSED = true)) ∧
      (s.svcState = 1 → Does (.svcOpen v) s (unlocking ++ [.regs .service]) (fun t => t.svcState = 1)) ∧
      (s.svcState = 1 → Does (.svcClose v) s parts (fun t => t.svcState = 0 ∧ t.fd Fld.SVC_STAT.CAUSE = 3 ∧
        t.fb Fld.SVC_CTL.AUTO_OPEN = false)) ∧
      (s.svcState = 0 → Does (.svcClose v) s (unlocking ++ [.regs .service]) (fun t => t.svcState = 0 ∧
        t.fb Fld.SVC_CTL.AUTO_OPEN = false)) ∧
      (s.svcState = 2 → Does (.svcOpen v) s (unlocking ++ [.regs .service]) (fun t => t.svcState = 2 ∧
          t.fb Fld.SVC_WSTAT.OPEN_REFUSED = true) ∧
        Does (.svcClose v) s (unlocking ++ [.regs .service]) (fun t => t.svcState = 2 ∧ t.fb Fld.SVC_WSTAT.OPEN_REFUSED = true))) ∧
    (s.Takes .SVC_CTL 0 → ¬ asked → Does (.svcOpen v) s (unlocking ++ [.regs .service]) (fun t => t.svcState = s.svcState ∧
      t.fb Fld.SVC_WSTAT.RANGE = true)) ∧
    (s.runs th.val = true → (s.thread th.val).k = true → s.hst.posted = [] →
      let k := Fld.SVC_TALLY.CLASS.of v
      let add := BitVec.ofNat 32 (Fld.SVC_TALLY.ADD.of v)
      let counts := fun (r : Reg) (j : Nat) => Does (.svcTallyWrite th v insn) s [.regs .service] (fun t =>
        t.rg r j = s.rg r j + add ∧ t.fb Fld.SVC_WSTAT.ACCEPT = true)
      (k ≤ 8 → (Fld.SVC_TALLY.CNT.of v = 0 → counts .SVC_CNT_ADMIT k) ∧ (Fld.SVC_TALLY.CNT.of v = 1 → counts .SVC_CNT_DELAY k) ∧
        (Fld.SVC_TALLY.CNT.of v = 2 → counts .SVC_CNT_REFUSE k) ∧ (Fld.SVC_TALLY.CNT.of v = 3 → counts .SVC_CNT_AUTHFAIL k)) ∧
      (Fld.SVC_TALLY.CNT.of v = 4 → counts .SVC_REISSUE_SYNC 0) ∧ (Fld.SVC_TALLY.CNT.of v = 5 → counts .SVC_REISSUE_NTP 0) ∧
      (Fld.SVC_TALLY.CNT.of v = 6 → counts .SVC_TABLE_FULL 0) ∧ (Fld.SVC_TALLY.CNT.of v = 7 → counts .SVC_NTS_NAK 0) ∧
      (Fld.SVC_TALLY.CNT.of v = 8 → counts .SVC_REPLAY 0)) ∧
    (s.coreUp = true →
      (now ≤ s.svc.second → Does .shedLevelLower s [] (fun _ => True)) ∧
      (now = s.svc.second + 1 →
        let s1 : State := { s with svc := { s.svc with second := now, unitsWas := s.svc.units, units := [], refused := s.svc.spent, spent := [] } }
        Does .shedLevelLower s [.svc, .regs .service] (fun t => t.svc.second = now ∧ t.svc.units = [] ∧ t.svc.unitsWas = s.svc.units ∧
          ∀ c, c < 16 →
            let h := s.fd Fld.SVC_LEVEL.LEVEL c
            let calm := 0 < h ∧ s1.loadAbove c (h - 1) (s.fd Fld.SVC_SHED.LOW) = false
            let run := svcGet s.svc.low c + 1
            (calm → s.fd Fld.SVC_SHED.HOLD ≤ run → t.fd Fld.SVC_LEVEL.LEVEL c = h - 1 ∧ svcGet t.svc.low c = 0) ∧
            (calm → run < s.fd Fld.SVC_SHED.HOLD → t.fd Fld.SVC_LEVEL.LEVEL c = h ∧ svcGet t.svc.low c = run) ∧
            (¬ calm → t.fd Fld.SVC_LEVEL.LEVEL c = h ∧ svcGet t.svc.low c = 0)))) ∧
    (s.coreUp = true →
      (s.svc.cancels.find? (fun x => s.reached x.at_) = none → Does .grantCancelSpread s [] (fun _ => True)) ∧
      (∀ x, s.svc.cancels.find? (fun x => s.reached x.at_) = some x →
        (((List.range 3).any (s.granted x.rec_)) = false → Does .grantCancelSpread s [.svc] (fun t =>
          t.svc = { s.svc with cancels := s.svc.cancels.erase x })) ∧
        Does .grantCancelSpread s (notifying ++ violating ++ [.mem, .frames, .derived, .hst, .prt, .mat, .svc, .regs .port]) (fun t =>
          t.svc.cancels = s.svc.cancels.erase x))) ∧
    (s.coreUp = true →
      let free := s.recF i.toNat 0 8 ≠ 0 ∧ s.recF i.toNat 0x50 8 + s.fd Fld.SVC_TABLE_CFG.IDLE < now ∧
        (List.range 3).any (s.granted i.toNat) = false
      (i.toNat < s.svcCount → free → Does (.clientRecordFree i) s [.mem, .hst, .mat, .svc] (fun t => t.recF i.toNat 0 8 = 0)) ∧
      (¬ free → Does (.clientRecordFree i) s [] (fun _ => True)))

/-- Messages of the standard image: a Signaling message, a Delay_Req, an NTP and an NTS request that are not for the port are dropped; one
that fails authentication, is repeated or is refused is counted; one that is served is answered; a failed launch is sent again as its
message allows (R214, R228 to R236, R238, R240, R243, R244, R248). A launch or a two-step message of the image seen to its end: a Sync
whose launch failed is sent again as two-step and counted, an NTP reply is built again at most twice, a message without such a notice
changes nothing (R214, R243). -/
def Obligations.ServiceMessageResults : Prop :=
  (∀ (s : State) (n : Fin 64) (h : BitVec 32) (p : SvcPkt) (f : Frame) (rx : TimeVal),
    let i := n.val
    let taken := fun (w : Nat) => s.svcDone (svcThread i w) h.toNat
    let dropped := fun (c : Instr) (w : Nat) => Does c s [.threads, .frames] (fun t => t.frame h.toNat = none ∧
      ∀ x ∈ (t.thread (svcThread i w)).notices, ¬ (x.kind = .frame ∧ x.handle = BitVec.ofNat 32 h.toNat))
    let counted := fun (c : Instr) (r : Reg) (k : Nat) => ∃ t, exec c s = .next t ∧ t.rg r k = s.rg r k + 1
    let auth := s.fd Fld.SVC_CTL.UNAUTH = 1
    let spp := s.fd Fld.SVC_PORT.SPP i
    let prof := s.fd Fld.SVC_PORT.PROFILE i
    let mine := p.be 4 1 = s.fd Fld.SVC_PORT.DOMAIN i ∧ s.fb Fld.SVC_PORT.ROLE i = false
    s.coreUp = true → parsePkt (s.frameData f) = some p →
    (s.svcFrame i 1 h.toNat = some (f, rx) →
      let wanted := p.be 0 1 % 16 = 0x0C ∧ prof = 2 ∧ mine ∧ p.ver ≠ 0
      (¬ (wanted ∧ s.svcState ≠ 0) → dropped (.signalingRequest n h) 1) ∧
      (wanted → s.svcState = 2 → counted (.signalingRequest n h) .SVC_CNT_REFUSE 8) ∧
      (wanted → s.svcState = 1 → ∀ sp id icv, p.auth = some (sp, id, icv) → sp ≠ spp → (taken 1).svcFind (p.client i true) = none →
        counted (.signalingRequest n h) .SVC_CNT_AUTHFAIL 8) ∧
      (wanted → s.svcState = 1 → p.auth = none → ¬ auth → counted (.signalingRequest n h) .SVC_CNT_REFUSE 8) ∧
      (wanted → s.svcState = 1 → p.auth = none → auth → ∀ r, (taken 1).svcFind (p.client i true) = some r →
        let old := (taken 1).recF r 0x32 2
        (newer old (p.be 30 2) = false → (taken 1).recF r 0x68 8 ≠ 0 → Does (.signalingRequest n h) s [.threads, .frames, .regs .service]
          (fun t => t.rg .SVC_REPLAY 0 = s.rg .SVC_REPLAY 0 + 1 ∧ t.frame h.toNat = none)) ∧
        (newer old (p.be 30 2) = true → exec (.signalingRequest n h) s = .next ((taken 1).signalGrant (svcThread i 1) i p r 8 0 none) ∧
          (p.signalTlvs.any (fun x => decide (x.1 = 4)) = true → ∃ t k, exec (.signalingRequest n h) s = .next t ∧
            k ∈ [Reg.SVC_CNT_ADMIT, .SVC_CNT_DELAY, .SVC_CNT_REFUSE] ∧ t.rg k 8 = s.rg k 8 + 1 ∧
              ∀ q, q ∈ [Reg.SVC_CNT_ADMIT, .SVC_CNT_DELAY, .SVC_CNT_REFUSE] → q ≠ k → t.rg q 8 = s.rg q 8)))) ∧
    (s.svcFrame i 0 h.toNat = some (f, rx) →
      let wanted := s.svcState = 1 ∧ mine ∧ prof ≠ 0 ∧ p.be 0 1 % 16 = (if prof = 3 then 2 else 1) ∧ (prof = 2 ↔ p.ver ≠ 0)
      (¬ wanted → dropped (.delayReqServe n h) 0) ∧
      (wanted → prof ≠ 2 → p.auth = none → ¬ auth → Does (.delayReqServe n h) s [.threads, .frames, .regs .service] (fun t =>
        t.rg .SVC_CNT_REFUSE 8 = s.rg .SVC_CNT_REFUSE 8 + 1 ∧ t.frame h.toNat = none)) ∧
      (wanted → prof ≠ 2 → ∀ sp id icv, p.auth = some (sp, id, icv) → sp ≠ spp →
        Does (.delayReqServe n h) s [.threads, .frames, .regs .service] (fun t =>
          t.rg .SVC_CNT_AUTHFAIL 8 = s.rg .SVC_CNT_AUTHFAIL 8 + 1 ∧ t.frame h.toNat = none)) ∧
      (wanted → prof = 1 → p.auth = none → auth → exec (.delayReqServe n h) s = .next ((taken 0).svcSend (svcThread i 0) i
        (p.answer i (s.mcAddr i) 0 0 ((taken 0).delayResp i p rx f.stampOk none 0 (wrapInt 8 (-4)))) [.port] false).1)) ∧
    (s.svcFrame i 2 h.toNat = some (f, rx) → p.isNts = false →
      (s.ntpServes i p = false → dropped (.ntpRequest n h) 2) ∧
      (s.ntpServes i p = true → s.svcState = 2 → counted (.ntpRequest n h) .SVC_CNT_REFUSE 8) ∧
      (s.ntpServes i p = true → s.svcState = 1 → p.ntpMac = none → ¬ auth → counted (.ntpRequest n h) .SVC_CNT_REFUSE 8) ∧
      (s.ntpServes i p = true → s.svcState = 1 → p.ntpMac = none → auth →
        let d := ((taken 2).addUnits (i / 4) 8 (2 * s.fd Fld.SVC_COST.UNAUTH)).svcDecide (i / 4) 8
        d.2 = 0 → counted (.ntpRequest n h) .SVC_CNT_ADMIT 8 ∧ exec (.ntpRequest n h) s =
          .next ((d.1.tally 0 8).ntpLaunch i p (p.be 2 1) rx f.stampOk [] (fun _ => []) s.replyFrom).1)) ∧
    (s.svcFrame i 2 h.toNat = some (f, rx) → p.isNts = true →
      let cookie := ((p.ntpFields.find? (fun e => decide (e.1 = 0x0204))).map (fun e => p.at_ (e.2.1 + 4) (e.2.2 - 4))).getD []
      (s.ntpServes i p = false ∨ s.fb Fld.SVC_PORT.NTS i = false → dropped (.ntsRequest n h) 2) ∧
      (s.ntpServes i p = true → s.fb Fld.SVC_PORT.NTS i = true → s.svcState = 2 → counted (.ntsRequest n h) .SVC_CNT_REFUSE 8) ∧
      (s.ntpServes i p = true → s.fb Fld.SVC_PORT.NTS i = true → s.svcState = 1 →
        ((taken 2).openCookie (svcThread i 2) (cookie.take 132)).2 = none →
        ∃ t, exec (.ntsRequest n h) s = .next t ∧ t.rg .SVC_NTS_NAK 0 = s.rg .SVC_NTS_NAK 0 + 1 ∧
          t.rg .SVC_CNT_REFUSE 8 = s.rg .SVC_CNT_REFUSE 8 + 1) ∧
      (s.ntpServes i p = true → s.fb Fld.SVC_PORT.NTS i = true → s.svcState = 1 → ∃ t r k, exec (.ntsRequest n h) s = .next t ∧
        r ∈ [Reg.SVC_CNT_ADMIT, .SVC_CNT_DELAY, .SVC_CNT_REFUSE] ∧ k ≤ 8 ∧ t.rg r k = s.rg r k + 1))) ∧
  (∀ (s : State) (th : Fin 512) (n : Fin 64) (h : BitVec 32),
    let hit := fun (k : NoticeKind) (x : Notice) => decide (x.kind = k) && decide (x.handle = BitVec.ofNat 32 h.toNat)
    let ns := (s.thread th.val).notices
    let s1 := s.dropNotices th.val (hit .launchFailed)
    s.coreUp = true → s.svcRuns th.val = true →
    (ns.any (hit .launchFailed) = false → ns.any (hit .sentTs) = false → Does (.launchReissue th n h) s [] (fun _ => True)) ∧
    (ns.any (hit .launchFailed) = true → s.heldFrame th.val h.toNat = none → Does (.launchReissue th n h) s [.threads] (fun t =>
      (t.thread th.val).notices = ns.filter (fun x => !hit .launchFailed x))) ∧
    (∀ f p, ns.any (hit .launchFailed) = true → s.heldFrame th.val h.toNat = some f → parsePkt (s.frameData f) = some p →
      (p.be 0 1 % 16 = 0 → p.ver = 0 → exec (.launchReissue th n h) s = .next (s1.syncReissue th.val n.val h.toNat p) ∧
        ∃ t, exec (.launchReissue th n h) s = .next t ∧ t.rg .SVC_REISSUE_SYNC 0 = s.rg .SVC_REISSUE_SYNC 0 + 1) ∧
      (p.be 0 1 % 16 ≠ 0 → p.ver ≠ 0 → beAt p.all (p.off - 8) 2 = 123 → p.be 0 1 % 8 = 4 →
        exec (.launchReissue th n h) s = .next (s1.ntpRebuild th.val n.val h.toNat p) ∧
        (2 ≤ svcGet s.svc.rebuilt h.toNat → Does (.launchReissue th n h) s [.threads, .frames, .svc] (fun t => t.frame h.toNat = none ∧
          SMap.find t.svc.rebuilt h.toNat = none)))) ∧
    (∀ x bs, ns.any (hit .launchFailed) = false → ns.find? (hit .sentTs) = some x → SMap.find s.svc.follow h.toNat = some bs →
      x.instant = .zero → Does (.launchReissue th n h) s [.threads, .svc] (fun t => SMap.find t.svc.follow h.toNat = none ∧
        (t.thread th.val).notices = ns.filter (fun x => !hit .sentTs x))))

/-- Fault records, the ladder and the Damper's registers: FAULT_N's pulse ends, HOLD; a record is acknowledged, cleared, or its clear
refused; a grace timer expires into the next step of the ladder; the ladder is released; the slew limit and a queue's ceiling are written
(R252, R254, R261 to R268). -/
def Obligations.FaultAndDamperCommands : Prop :=
  ∀ (s : State) (i : Fin 472) (n : Fin 64) (qn : Fin 8) (v : BitVec 32),
    let r := i.val
    let b := bucketIdx n.val qn.val
    let zeroed := fun (t : State) => ∀ q ∈ recordRegs, t.rg q r = 0
    (s.clockUp = true → Does .faultNPulseEnd s [.flt] (fun t => t.flt = { s.flt with pulse := false })) ∧
    (s.Takes .FLT_PIN_HOLD 0 → Does (.fltPinHoldWrite v) s [.regs .fault] (fun t =>
      t.fb Fld.FLT_PIN_HOLD.HOLD = v.getLsbD 0 ∧ t.fb Fld.FLT_WSTAT.ACCEPT = true)) ∧
    (s.Takes .FLT_REC_CTL r →
      (s.fb Fld.FLT_REC_STAT.ACTIVE r = true → Does (.fltAck i v) s [.timeline, .flt, .regs .fltRec, .regs .fault, .regs .datum]
        (fun t => t.fb Fld.FLT_REC_STAT.ACKED r = true ∧ t.fb Fld.FLT_REC_STAT.GRACE_RUN r = false ∧ SMap.find t.flt.grace r = none ∧
          t.fb Fld.FLT_WSTAT.ACCEPT = true ∧ t.rg .FLT_REC_CAUSE r = s.rg .FLT_REC_CAUSE r)) ∧
      (s.fb Fld.FLT_REC_STAT.ACTIVE r = false → Does (.fltAck i v) s [.regs .fault] (fun t => t.fb Fld.FLT_WSTAT.ACCEPT = true)) ∧
      (v.getLsbD 0 = false → s.recordOpen r = true → Does (.fltClear i v) s [.regs .fault] (fun t =>
        t.fb Fld.FLT_WSTAT.CLEAR_REFUSED = true)) ∧
      (v.getLsbD 0 = false → s.recordOpen r = false → Does (.fltClear i v) s [.timeline, .flt, .regs .fltRec, .regs .datum] (fun t =>
        zeroed t ∧ SMap.find t.flt.grace r = none)) ∧
      (v.getLsbD 0 = true → Does (.fltClear i v) s [.timeline, .flt, .regs .fltRec, .regs .fault, .regs .datum] zeroed)) ∧
    (s.clockUp = true →
      (SMap.find s.flt.grace r = none → Does (.graceExpiry i) s [] (fun _ => True)) ∧
      (∀ g, SMap.find s.flt.grace r = some g →
        (s.reached g.at_ = false → Does (.graceExpiry i) s [] (fun _ => True)) ∧
        (s.reached g.at_ = true → g.nextStep = 1 → s.fd Fld.FLT_ESC.STEP = 0 → s.recordUp r = true →
          Does (.graceExpiry i) s (raising ++ [.dtm, .regs .fault, .regs .service]) (fun t => t.fd Fld.FLT_ESC.STEP = 1 ∧
            t.fd Fld.FLT_ESC.RECORD = r ∧ t.fb Fld.FLT_ESC.BANK_FORCED = true ∧ t.fb Fld.SVC_CTL.AUTO_OPEN = false ∧
            t.dtm.writer = none ∧ (s.svcState = 1 → t.svcState = 0 ∧ t.fd Fld.SVC_STAT.CAUSE = 4) ∧ Raised t r 28 ∧
            ∃ x, SMap.find t.flt.grace r = some x ∧ x.nextStep = 2 ∧ x.at_ = s.now.plus (s.fd Fld.FLT_GRACE.GRACE * usCount))) ∧
        (s.reached g.at_ = true → g.nextStep = 2 → s.fd Fld.FLT_ESC.STEP < 2 → ∃ t, exec (.graceExpiry i) s = .next t ∧
          t.fd Fld.FLT_ESC.STEP = 2 ∧ t.fd Fld.FLT_ESC.RECORD = r ∧
          ((s.role = 2 ∧ s.mateHealthy = true) ∨ s.role = 3 → t.role = 4 ∧ t.fb Fld.FLT_ESC.SKIP2 = s.fb Fld.FLT_ESC.SKIP2) ∧
          (s.role ≠ 3 → s.mateHealthy = false → t.role = s.role ∧ t.fb Fld.FLT_ESC.SKIP2 = true)) ∧
        (s.reached g.at_ = true → g.nextStep = 3 → s.fd Fld.FLT_ESC.STEP < 3 → ∃ t, exec (.graceExpiry i) s = .next t ∧
          t.fd Fld.FLT_ESC.STEP = 3 ∧ t.pwr.core = .held ∧ t.flt.step3Hold = true ∧ t.fd Fld.FLT_ESC_LAST.RECORD = r ∧
          t.fd Fld.FLT_ESC_LAST.COUNT = min 0xFFF (s.fd Fld.FLT_ESC_LAST.COUNT + 1) ∧
          (∃ x, t.flt.summary = some x ∧ x.record = r ∧ x.at_ = s.now) ∧ t.datum = s.datum) ∧
        (s.reached g.at_ = true → g.nextStep ≤ s.fd Fld.FLT_ESC.STEP → Does (.graceExpiry i) s
          [.timeline, .flt, .regs .fltRec, .regs .datum] (fun t => t.fd Fld.FLT_ESC.STEP = s.fd Fld.FLT_ESC.STEP)))) ∧
    (s.Takes .FLT_ESC 0 →
      (s.anyOpen = true → Does (.fltEscRelease v) s (unlocking ++ [.regs .fault]) (fun t => t.fb Fld.FLT_WSTAT.RELEASE_REFUSED = true ∧
        t.fd Fld.FLT_ESC.STEP = s.fd Fld.FLT_ESC.STEP)) ∧
      (s.anyOpen = false → Does (.fltEscRelease v) s (unlocking ++ [.regs .fault, .regs .mate, .regs .irqStat]) (fun t =>
        t.fd Fld.FLT_ESC.STEP = 0 ∧ t.fb Fld.FLT_ESC.BANK_FORCED = false ∧ t.fb Fld.FLT_WSTAT.ACCEPT = true ∧
          t.role = (if s.role = 4 then 3 else s.role)))) ∧
    (s.Takes .DMP_MAX_DFDT 0 →
      (1 ≤ Fld.DMP_MAX_DFDT.DFDT.of v → Fld.DMP_MAX_DFDT.DFDT.of v ≤ s.dfdtCeil → Does (.dmpDfdtWrite v) s (unlocking ++ [.regs .damper])
        (fun t => t.fd Fld.DMP_MAX_DFDT.DFDT = Fld.DMP_MAX_DFDT.DFDT.of v ∧
          t.hst.posted = s.hst.posted ++ [⟨.engine, ⟨.DMP_MAX_DFDT, 0⟩, t.rg .DMP_MAX_DFDT 0⟩])) ∧
      ((Fld.DMP_MAX_DFDT.DFDT.of v = 0 ∨ s.dfdtCeil < Fld.DMP_MAX_DFDT.DFDT.of v) → Does (.dmpDfdtWrite v) s
        (unlocking ++ [.regs .damper]) (fun t => t.fd Fld.DMP_MAX_DFDT.DFDT = s.fd Fld.DMP_MAX_DFDT.DFDT ∧
          t.fb Fld.DMP_WSTAT.RANGE = true ∧ t.hst.posted = s.hst.posted))) ∧
    (s.Takes .DMP_QCEIL b →
      (Fld.DMP_QCEIL.BURST.of v ≠ 0 → Does (.dmpQceilWrite n qn v) s (unlocking ++ [.flt, .regs .damper]) (fun t =>
        t.rg .DMP_QCEIL b = v ∧ t.tokens b = Fld.DMP_QCEIL.BURST.of v * 2 ^ 32)) ∧
      (Fld.DMP_QCEIL.BURST.of v = 0 → Does (.dmpQceilWrite n qn v) s (unlocking ++ [.regs .damper]) (fun t =>
        t.rg .DMP_QCEIL b = s.rg .DMP_QCEIL b ∧ t.fb Fld.DMP_WSTAT.RANGE = true)))

/-- The key store's commands: an envelope is refused with the reason of the first check that fails, or waits for its application; its
application writes the slot and the counter and completes the command; an abort ends the verification; an attestation, a certificate and
sealed cookies are answered (R237, R272, R274, R279 to R282, R285, R328). -/
def Obligations.KeyCommands : Prop :=
  ∀ (s : State) (q : Fin 64) (cid : BitVec 32) (data keys : List Byte) (nonce : BitVec 256) (buflen v : BitVec 32) (cls : Fin 8)
    (count : BitVec 8),
    let room := buflen.toNat
    let st := s.attestation (leBytes 32 nonce.toNat)
    let cert := Config.identityCert
    (s.canStart q.val = true →
      (match s.envCheck data with
        | .inl reason => Answers (.keyUpdate q cid data) s q.val cid .refused reason (raising ++ [.regs .key]) (fun t =>
            t.fd Fld.KEY_LAST.STATUS = reason % 256 ∧ t.fb Fld.KEY_WSTAT.REFUSED = true ∧ t.key = s.key ∧ Raised t 465 24)
        | .inr rec => ∃ t, exec (.keyUpdate q cid data) s = .next t ∧ t.key = { s.key with env := some ⟨q.val, cid, leAt data 7 1, rec⟩ } ∧
            t.fb Fld.KEY_STAT.BUSY = true ∧ t.fd Fld.HST_Q_SQ_HEAD.SQ_HEAD q.val = (s.fd Fld.HST_Q_SQ_HEAD.SQ_HEAD q.val + 1) % 65536 ∧
            Only [.key, .regs .host, .regs .key] s t) ∧
      (s.fb Fld.KEY_STAT.BUSY = true → s.envCheck data = .inl 0x08) ∧
      (s.fb Fld.KEY_STAT.BUSY = false → s.fd Fld.KEY_STAT.STATE = 2 → s.envCheck data = .inl 0x0A) ∧
      (if room < st.length then Answers (.attest q cid nonce buflen) s q.val cid .buffer 0 [] (fun _ => True)
        else Answers (.attest q cid nonce buflen) s q.val cid .ok st.length [] (fun t =>
          SMap.get (fun _ => []) t.hst.outBuf q.val = st)) ∧
      (if room < cert.length then Answers (.certRead q cid buflen) s q.val cid .buffer cert.length [] (fun _ => True)
        else Answers (.certRead q cid buflen) s q.val cid .ok cert.length [] (fun t => SMap.get (fun _ => []) t.hst.outBuf q.val = cert)) ∧
      ((keys.length ≠ 64 ∨ room < count.toNat * 132) →
        Answers (.cookieSeal q cid cls count keys buflen) s q.val cid .buffer 0 [] (fun _ => True)) ∧
      (keys.length = 64 → count.toNat * 132 ≤ room → (count = 0 ∨ 8 < count.toNat) →
        Answers (.cookieSeal q cid cls count keys buflen) s q.val cid .range 0 [] (fun _ => True)) ∧
      (keys.length = 64 → count.toNat * 132 ≤ room → 1 ≤ count.toNat → count.toNat ≤ 8 → s.fd Fld.KEY_STAT.STATE ≠ 2 →
        let g := s.fd Fld.SVC_CTL.COOKIE_CUR
        s.fb Fld.SVC_COOKIE_SLOTS.VALID g = true → ∀ k, s.slotKey (s.fd Fld.SVC_COOKIE_SLOTS.ENC g) = some k → k.attr = 1 →
        Answers (.cookieSeal q cid cls count keys buflen) s q.val cid .ok 0 [.svc] (fun t =>
          SMap.get (fun _ => []) t.hst.outBuf q.val =
            (s.makeCookies 16 cls.val g k.key (sliceAt keys 0 32) (sliceAt keys 32 32) count.toNat).1.flatten))) ∧
    (s.coreUp = true → ∀ x, s.key.env = some x → ∃ t, exec .envelopeApply s = .next t ∧
      t.slotKey x.slot = (if x.what.attr = 0 then none else some x.what) ∧ t.pair .KEY_COUNTER_HI .KEY_COUNTER_LO = x.what.ctr ∧
      t.key.env = none ∧ t.fb Fld.KEY_STAT.BUSY = false ∧ t.fb Fld.KEY_WSTAT.ACCEPT = true ∧ t.fd Fld.KEY_LAST.STATUS = 0 ∧
      SMap.find t.cairn.keys x.slot = some ((s.copies x.slot).push x.what) ∧ (x.what.attr = 4 → t.derived = []) ∧
      (∀ k, k ≠ x.slot → t.slotKey k = s.slotKey k) ∧ Reports s t x.q x.cid .ok 0 ∧
      Only (completing ++ [.derived, .key, .cairn, .regs .key]) s t) ∧
    (s.Takes .KEY_ABORT 0 →
      (∀ x, s.key.env = some x → ∃ t, exec (.keyAbortGo v) s = .next t ∧ t.key = { s.key with env := none } ∧
        t.fb Fld.KEY_STAT.BUSY = false ∧ t.fd Fld.KEY_LAST.STATUS = 9 ∧ t.fb Fld.KEY_WSTAT.ABORTED = true ∧
        Reports s t x.q x.cid .aborted 9 ∧ Only (completing ++ [.key, .regs .key]) s t) ∧
      (s.key.env = none → Does (.keyAbortGo v) s [] (fun _ => True)))

/-- Raising and routing of interrupt sources: a pulse, a doorbell and a host write make a source pending or coalesce; a source's
configuration, target and pending bit are written within their ranges (R287 to R292, R297). -/
def Obligations.InterruptRaiseCommands : Prop :=
  ∀ (s : State) (n : Fin 512) (detail : BitVec 8) (v : BitVec 32),
    let i := n.val
    let j := v.toNat % 512
    let pends := fun (t : State) (k det : Nat) => t.fb Fld.IRQ_SRC_STAT.PEND k = true ∧ t.fd Fld.IRQ_SRC_STAT.DETAIL k = det
    let merges := fun (t : State) (k : Nat) => t.fb Fld.IRQ_SRC_STAT.PEND k = true ∧
      t.fd Fld.IRQ_SRC_STAT.COALESCE k = min 255 (s.fd Fld.IRQ_SRC_STAT.COALESCE k + 1)
    (s.coreUp = true →
      (irqPulsed i = true → s.fb Fld.IRQ_SRC_CFG.EN i = true → s.fb Fld.IRQ_SRC_CFG.MODE i = false →
        (s.fb Fld.IRQ_SRC_STAT.PEND i = false → Does (.irqSourceEdge n detail) s [.regs .irqStat] (fun t => pends t i detail.toNat)) ∧
        (s.fb Fld.IRQ_SRC_STAT.PEND i = true → Does (.irqSourceEdge n detail) s [.regs .irqStat] (fun t => merges t i ∧
          t.fd Fld.IRQ_SRC_STAT.DETAIL i = (if i = 96 then max detail.toNat (s.fd Fld.IRQ_SRC_STAT.DETAIL i) else detail.toNat)))) ∧
      ((s.fb Fld.IRQ_SRC_CFG.EN i = false ∨ s.fb Fld.IRQ_SRC_CFG.MODE i = true ∨ irqPulsed i = false) →
        Does (.irqSourceEdge n detail) s [] (fun _ => True))) ∧
    (s.Takes .IRQ_SRC_CFG i →
      (v.getLsbD 31 = true → irqReserved i = true → Does (.irqSrcCfgWrite n v) s [.regs .irq] (fun t =>
        t.fb Fld.IRQ_WSTAT.RANGE = true ∧ t.rg .IRQ_SRC_CFG i = s.rg .IRQ_SRC_CFG i)) ∧
      ((v.getLsbD 31 = false ∨ irqReserved i = false) → Does (.irqSrcCfgWrite n v) s [.regs .irq, .regs .irqStat] (fun t =>
        t.rg .IRQ_SRC_CFG i = ((s.rg .IRQ_SRC_CFG i &&& ~~~0xC00000FF#32) ||| (v &&& 0xC00000FF#32)) ∧
          t.fb Fld.IRQ_WSTAT.ACCEPT = true ∧
          (v.getLsbD 31 = true → s.fb Fld.IRQ_SRC_CFG.EN i = false → v.getLsbD 30 = false → (s.irqDyn i).line = true →
            t.fb Fld.IRQ_SRC_STAT.PEND i = true)))) ∧
    (s.Takes .IRQ_DOORBELL 0 →
      (s.fb Fld.IRQ_SRC_CFG.EN j = true → s.fb Fld.IRQ_SRC_CFG.MODE j = true →
        (s.fb Fld.IRQ_SRC_STAT.PEND j = false → Does (.irqDoorbell v) s [.regs .irqStat] (fun t => pends t j 0)) ∧
        (s.fb Fld.IRQ_SRC_STAT.PEND j = true → Does (.irqDoorbell v) s [.regs .irqStat] (fun t => merges t j))) ∧
      ((s.fb Fld.IRQ_SRC_CFG.EN j = false ∨ s.fb Fld.IRQ_SRC_CFG.MODE j = false) → Does (.irqDoorbell v) s [.regs .irq] (fun t =>
        t.rg .IRQ_DB_DROP 0 = s.rg .IRQ_DB_DROP 0 + 1 ∧ t.fb Fld.IRQ_WSTAT.DB_DROP = true))) ∧
    (s.Takes .IRQ_PEND_SET 0 →
      (s.fb Fld.IRQ_SRC_CFG.EN j = true → Does (.irqPendSet v) s [.regs .irq, .regs .irqStat] (fun t =>
        t.fb Fld.IRQ_SRC_STAT.PEND j = true ∧ t.fb Fld.IRQ_WSTAT.ACCEPT = true)) ∧
      (s.fb Fld.IRQ_SRC_CFG.EN j = false → Does (.irqPendSet v) s [.regs .irq] (fun t => t.fb Fld.IRQ_WSTAT.RANGE = true))) ∧
    (s.Takes .IRQ_PEND_CLR 0 → Does (.irqPendClr v) s [.regs .irq, .regs .irqStat] (fun t =>
      t.fb Fld.IRQ_SRC_STAT.PEND j = false ∧ t.fb Fld.IRQ_WSTAT.ACCEPT = true)) ∧
    (s.Takes .IRQ_CTL 0 → Does (.irqGenWrite v) s [.regs .irq] (fun t => t.fb Fld.IRQ_CTL.GEN = v.getLsbD 31)) ∧
    (s.Takes .IRQ_SRC_TGT i →
      let ok := targetOk (v.toNat % 65536) = true ∧ targetOk (v.toNat / 65536) = true
      (ok → Does (.irqTgtWrite n v) s (unlocking ++ [.irq, .regs .irq]) (fun t => t.rg .IRQ_SRC_TGT i = v ∧
        t.fb Fld.IRQ_WSTAT.ACCEPT = true ∧ (t.irqDyn i).moved = ((s.irqDyn i).moved ||
          (s.fb Fld.IRQ_SRC_STAT.ISSUED i && decide (s.fd Fld.IRQ_SRC_TGT.TARGET i ≠ v.toNat % 65536))))) ∧
      (¬ ok → Does (.irqTgtWrite n v) s (unlocking ++ [.regs .irq]) (fun t => t.fb Fld.IRQ_WSTAT.RANGE = true ∧
        t.rg .IRQ_SRC_TGT i = s.rg .IRQ_SRC_TGT i)))

/-- Arbitration, claim, completion and fallback of interrupts: a target's winner is its pending source of highest priority and lowest
number; it is issued once the target takes it, claimed by a read and completed by EOI; a target out of reach falls back after the timeout
(R291, R293 to R298). -/
def Obligations.InterruptIssueCommands : Prop :=
  ∀ (s : State) (n : Nat) (tgt : BitVec 16) (vec : Fin 2048) (src : Fin 512) (v : BitVec 32),
    let g := tgt.toNat
    let j := v.toNat % 512
    let i := src.val
    let f := s.fd Fld.IRQ_SRC_TGT.FALLBACK i
    let hostParts : List Part := [.irq, .hst, .regs .irq, .regs .irqStat]
    let issued := fun (t : State) (k code : Nat) (fell : Bool) => t.fb Fld.IRQ_SRC_STAT.PEND k = false ∧
      t.fb Fld.IRQ_SRC_STAT.ISSUED k = true ∧ t.fd Fld.IRQ_SRC_STAT.COALESCE k = 0 ∧ (t.irqDyn k).target = BitVec.ofNat 16 code ∧
        (t.irqDyn k).fell = fell ∧ (t.irqDyn k).detail = s.fd Fld.IRQ_SRC_STAT.DETAIL k
    let told := fun (t : State) (k code : Nat) =>
      ∃ x ∈ (t.thread (code % 512)).notices, x.kind = .irq ∧ x.handle = BitVec.ofNat 32 k
    (s.irqWinner g = some n → s.irqWaits g n = true ∧ n < 512 ∧
      ∀ m, m < 512 → s.irqWaits g m = true → s.irqPrio m ≤ s.irqPrio n ∧ (s.irqPrio m = s.irqPrio n → n ≤ m)) ∧
    (s.coreUp = true → s.fb Fld.IRQ_CTL.GEN = true → s.irqWinner g = some n →
      (s.targetUp g = true → s.targetTakes g n = true → g / 2 ^ 14 = 1 → Does (.irqIssue tgt) s hostParts (fun t => issued t n g false)) ∧
      (s.targetUp g = true → s.targetTakes g n = true → g / 2 ^ 14 = 2 → (s.thread (g % 512)).st = .ready →
        Does (.irqIssue tgt) s [.threads, .irq, .regs .irqStat] (fun t => issued t n g false ∧ told t n g)) ∧
      (s.targetUp g = true → s.targetTakes g n = false → Does (.irqIssue tgt) s [] (fun _ => True)) ∧
      (s.targetUp g = false → 1 ≤ g / 2 ^ 14 → (s.irqDyn n).firstWin = none → Does (.irqIssue tgt) s [.irq] (fun t =>
        (t.irqDyn n).firstWin = some s.now))) ∧
    ((s.fb Fld.IRQ_CTL.GEN = false ∨ s.irqWinner g = none) → Does (.irqIssue tgt) s [] (fun _ => True)) ∧
    (s.coreUp = true → s.hst.pcieUp = true →
      (s.issuedOn (vecTarget vec.val) = [] → Does (.irqClaimRead vec) s [.regs .irq] (fun t => t.rg .IRQ_CLAIM vec.val = 0)) ∧
      (∀ k r, s.issuedOn (vecTarget vec.val) = k :: r → Does (.irqClaimRead vec) s [.irq, .regs .irq, .regs .irqStat] (fun t =>
        t.rg .IRQ_CLAIM vec.val = s.claimRecord k ∧ t.fb Fld.IRQ_SRC_STAT.ISSUED k = false ∧ t.fb Fld.IRQ_SRC_STAT.ACTIVE k = true ∧
          (t.irqDyn k).tier = s.irqTier (s.irqPrio k)))) ∧
    (s.Takes .IRQ_EOI vec.val →
      ((s.activeOn (vecTarget vec.val)).contains j = true → Does (.irqEoi vec v) s [.irq, .regs .irq, .regs .irqStat] (fun t =>
        t.fb Fld.IRQ_SRC_STAT.ACTIVE j = false ∧ (t.irqDyn j).target = 0 ∧ t.fb Fld.IRQ_WSTAT.ACCEPT = true)) ∧
      ((s.activeOn (vecTarget vec.val)).contains j = false → Does (.irqEoi vec v) s [.regs .irq] (fun t =>
        t.fb Fld.IRQ_WSTAT.EOI_BAD = true))) ∧
    (s.coreUp = true → s.fb Fld.IRQ_CTL.GEN = true → s.irqWaits (s.fd Fld.IRQ_SRC_TGT.TARGET i) i = true →
      s.targetUp (s.fd Fld.IRQ_SRC_TGT.TARGET i) = false → ∀ w, (s.irqDyn i).firstWin = some w →
      (s.now.count < w.count + s.fd Fld.IRQ_TARGET_TIMEOUT.US * usCount → Does (.irqTargetTimeout src) s [] (fun _ => True)) ∧
      (w.count + s.fd Fld.IRQ_TARGET_TIMEOUT.US * usCount ≤ s.now.count →
        (f / 2 ^ 14 = 0 ∨ s.targetUp f = false → Does (.irqTargetTimeout src) s [.regs .irqStat] (fun t =>
          t.fb Fld.IRQ_SRC_STAT.STUCK i = true)) ∧
        (f / 2 ^ 14 = 1 → s.targetUp f = true → s.targetTakes f i = true → Does (.irqTargetTimeout src) s hostParts (fun t =>
          issued t i f true)) ∧
        (f / 2 ^ 14 = 2 → s.targetUp f = true → s.targetTakes f i = true → (s.thread (f % 512)).st = .ready →
          Does (.irqTargetTimeout src) s [.threads, .irq, .regs .irqStat] (fun t => issued t i f true ∧ told t i f))))

/-- Performance counters: a counter that wraps goes to zero and sets its flag, or reloads and gives a sample record or counts a dropped
one; the mirror of a core is rewritten for each thread that may read it (R301, R304, R305, R307). -/
def Obligations.CounterWrapAndMirror : Prop :=
  ∀ (s : State) (c : Fin 16) (ctr : Fin 80) (x : PmcSample) (k : Fin 8) (h : Fin 4),
    let i := ctr.val
    let sel := s.pmcSel c.val i
    let thr := (s.rg (pmcRegs c.val i).1.2.1 (pmcRegs c.val i).2).toNat
    let sampling := 16 ≤ i ∧ bitAt sel 30 = true
    let prod := s.rg .PMC_SMP_PROD c.val
    let used := (prod - s.rg .PMC_SMP_CONS c.val).toNat
    let freeze := fun (t : State) => s.fb Fld.PMC_CTL.FRZ_OVF c.val = true → t.fb Fld.PMC_CTL.FREEZE c.val = true
    let core := c.val * 8 + k.val
    let m := s.rg .PMC_MIRROR core
    (s.coreUp = true → s.pmcOn c.val i = true →
      (¬ sampling → Does (.pmcCounterWrap c ctr x) s [.irq, .regs .pmc, .regs .irqStat] (fun t => t.pmcVal c.val i = 0 ∧ freeze t ∧
        (i < 16 → (t.rg .PMC_OVF0 c.val).getLsbD i = true) ∧ (16 ≤ i → i < 48 → (t.rg .PMC_OVF1 c.val).getLsbD (i - 16) = true) ∧
          (48 ≤ i → (t.rg .PMC_OVF2 c.val).getLsbD (i - 48) = true))) ∧
      (sampling → used < 128 → Does (.pmcCounterWrap c ctr x) s [.irq, .pmc, .freeCtr, .regs .pmc, .regs .irqStat] (fun t =>
        t.pmcVal c.val i = (2 ^ 48 - thr) % 2 ^ 48 ∧ freeze t ∧ t.rg .PMC_SMP_PROD c.val = prod + 1 ∧
          ∀ w, w < 8 → t.rg .PMC_SMP_BUF (c.val * 1024 + prod.toNat % 128 * 8 + w) =
            (pmcRecord x (sel % 256) (SMap.get (fun _ => false) s.pmc.drop c.val)).getD w 0)) ∧
      (sampling → 128 ≤ used → Does (.pmcCounterWrap c ctr x) s [.pmc, .regs .pmc] (fun t =>
        t.pmcVal c.val i = (2 ^ 48 - thr) % 2 ^ 48 ∧ freeze t ∧ t.rg .PMC_SMP_PROD c.val = prod ∧
          t.rg .PMC_SMP_DROP c.val = s.rg .PMC_SMP_DROP c.val + 1))) ∧
    (s.pmcOn c.val i = false → Does (.pmcCounterWrap c ctr x) s [] (fun _ => True)) ∧
    (s.coreUp = true →
      (bitAt m.toNat 31 = false → Does (.pmcMirrorUpdate c k) s [] (fun _ => True)) ∧
      (bitAt m.toNat 31 = true → (∀ j, j < 4 → bitAt (s.rg .STK_PMC_USER_EN core).toNat j = decide (j = h.val)) →
        let seq := SMap.get (fun _ => 0) s.pmc.seq (core * 4 + h.val) + 2
        let vals := (List.range 8).map (fun j => s.pmcVal c.val (16 + k.val * 8 + j)) ++ (List.range 16).map (fun j => s.pmcVal c.val j)
        Does (.pmcMirrorUpdate c k) s [.mem, .pmc] (fun t =>
          Stored s t (cmemBase c.val + m.toNat % 512 * 1024 + h.val * 256)
            (leBytes 8 seq ++ (vals.map (fun v => leBytes 8 v)).flatten ++ zeros 56) ∧
          SMap.get (fun _ => 0) t.pmc.seq (core * 4 + h.val) = seq)))

/-- Writes of the host: the unlock is armed and disarmed; a register write is taken at once, set out for the clock die, or turned away and
recorded when it is locked, written once, not owned, gated or cut off; queues are enabled, disabled and moved, and an abort ends a queue's
commands (R33, R309, R313 to R316, R319, R320, R323, R324, R330, R367). -/
def Obligations.HostWriteCommands : Prop :=
  ∀ (s : State) (off : BitVec 25) (size : Nat) (w : BitVec 64) (r : Reg) (i : Nat) (q : Fin 64) (v : BitVec 32) (cids : List (BitVec 32)),
    let c := Instr.registerWrite off size w
    let word := w.extractLsb' 0 32
    let plain := size = 4 ∧ off.toNat % 4 = 0 ∧ off.toNat < 0x1000000 ∧ Reg.ofAddr off.toNat = some (r, i)
    let gate := s.regGated r i = false
    let guard := r.guarded i = true → s.hst.unlocked = true
    let once := r = .MAT_PRIORITY → s.hst.wosDone = false
    let link := r.onClock i = true → s.d2dUp = true
    let own := ∀ o, regOwner r i = some o → ownFixed o = true ∨ s.owns .hostReg o = true
    let recorded := fun (t : State) (x : Reg) (cause : Nat) => (t.rg x 0).getLsbD 31 = true ∧ Raised t 469 cause
    let h := v.toNat % 65536
    let waits := s.waiting q.val
    let bad := fun (c : Instr) (f : Fld) => Does c s (raising ++ [.regs .host]) (fun t => t.fb Fld.HST_WSTAT.DOORBELL = true ∧
      Raised t 467 31 ∧ t.fd f q.val = s.fd f q.val)
    (s.Takes .TOP_UNLOCK 0 →
      (v = 0x00005EA1#32 → Does (.topUnlockWrite v) s [.hst, .regs .top] (fun t => t.hst = { s.hst with unlocked := true } ∧
        t.fb Fld.TOP_UNLOCK.ARMED = true)) ∧
      (v ≠ 0x00005EA1#32 → Does (.topUnlockWrite v) s (raising ++ [.hst, .regs .top]) (fun t => t.hst = { s.hst with unlocked := false } ∧
        t.fb Fld.TOP_UNLOCK.ARMED = false ∧ recorded t .TOP_LOCK_VIOL 16))) ∧
    (s.coreUp = true → s.hst.pcieUp = true →
      (off.toNat < 0x1000000 → (size ≠ 4 ∨ off.toNat % 4 ≠ 0 ∨ Reg.ofAddr off.toNat = none) → Does c s [] (fun _ => True)) ∧
      (plain →
        (¬ gate → Does c s [] (fun _ => True)) ∧
        (gate → ¬ guard → Does c s (raising ++ [.regs .top]) (fun t => recorded t .TOP_LOCK_VIOL 16)) ∧
        (gate → guard → ¬ once → Does c s (raising ++ unlocking) (fun t => recorded t .TOP_WOS_VIOL 17)) ∧
        (gate → guard → once → ¬ link → Does c s (unlocking ++ [.regs .host]) (fun t => t.fb Fld.HST_WSTAT.D2D_DROP = true)) ∧
        (gate → guard → once → link → ¬ own → Does c s (raising ++ unlocking) (fun t => recorded t .TOP_OWN_VIOL 18)) ∧
        (gate → guard → once → link → own →
          (r.onClock i = true → Does c s unlocking (fun t => t.hst.posted = s.hst.posted ++ [⟨.hostReg, ⟨r, i⟩, word⟩])) ∧
          (r.onClock i = false → exec c s = .next ((s.entered r i).applyWrite .hostReg r i word))))) ∧
    (s.Takes .HST_Q_CFG q.val →
      (v.getLsbD 31 = true → Does (.queueEnWrite q v) s [.irq, .regs .host, .regs .irqStat] (fun t => t.queueOn q.val = true ∧
        t.fd Fld.HST_Q_SQ_TAIL.SQ_TAIL q.val = 0 ∧ t.fd Fld.HST_Q_SQ_HEAD.SQ_HEAD q.val = 0 ∧ t.fd Fld.HST_Q_CQ_HEAD.CQ_HEAD q.val = 0 ∧
          t.fd Fld.HST_Q_CQ_TAIL.CQ_TAIL q.val = 0 ∧ t.fb Fld.HST_Q_CQ_TAIL.PHASE q.val = true)) ∧
      (v.getLsbD 31 = false → s.queueOn q.val = true → (waits ≠ 0 ∨ s.outstanding q.val = true) → Does (.queueEnWrite q v) s [.regs .host]
        (fun t => t.queueOn q.val = true ∧ t.fb Fld.HST_WSTAT.BUSY = true)) ∧
      (v.getLsbD 31 = false → s.queueOn q.val = true → waits = 0 → s.outstanding q.val = false →
        Does (.queueEnWrite q v) s [.regs .host, .regs .own] (fun t => t.queueOn q.val = false ∧
          ∀ o, o < 384 → ownFixed o = false → s.owns (.hostQueue q.val) o = true → t.fb Fld.TOP_OWN.ORPHAN o = true))) ∧
    (s.Takes .HST_Q_SQ_TAIL q.val →
      let fits := s.queueOn q.val = true ∧ diff16 h (s.fd Fld.HST_Q_SQ_TAIL.SQ_TAIL q.val) ≤ 64 ∧
        diff16 h (s.fd Fld.HST_Q_CQ_HEAD.CQ_HEAD q.val) ≤ 64
      (fits → Does (.sqTailDoorbell q v) s [.regs .host] (fun t => t.fd Fld.HST_Q_SQ_TAIL.SQ_TAIL q.val = h ∧
        t.fb Fld.HST_WSTAT.ACCEPT = true)) ∧ (¬ fits → bad (.sqTailDoorbell q v) Fld.HST_Q_SQ_TAIL.SQ_TAIL)) ∧
    (s.Takes .HST_Q_CQ_HEAD q.val →
      let old := s.fd Fld.HST_Q_CQ_HEAD.CQ_HEAD q.val
      let fits := s.queueOn q.val = true ∧ diff16 h old ≤ diff16 (s.fd Fld.HST_Q_CQ_TAIL.CQ_TAIL q.val) old
      (fits → Does (.cqHeadWrite q v) s [.irq, .regs .host, .regs .irqStat] (fun t => t.fd Fld.HST_Q_CQ_HEAD.CQ_HEAD q.val = h ∧
        t.fb Fld.HST_WSTAT.ACCEPT = true)) ∧ (¬ fits → bad (.cqHeadWrite q v) Fld.HST_Q_CQ_HEAD.CQ_HEAD)) ∧
    (s.Takes .HST_ABORT 0 → v.toNat % 64 = q.val → s.queueOn q.val = true →
      (s.outstanding q.val = false → Does (.hstAbortGo v cids) s completing (fun t => t.waiting q.val = 0 ∧
        t.fd Fld.HST_Q_CQ_TAIL.CQ_TAIL q.val = (s.fd Fld.HST_Q_CQ_TAIL.CQ_TAIL q.val + waits) % 65536 ∧
          (waits = 1 → Reports s t q.val (cids.headD 0) .aborted 0))) ∧
      (s.outstanding q.val = true → Does (.hstAbortGo v cids) s (completing ++ [.key, .regs .key]) (fun t => t.waiting q.val = 0 ∧
        t.key.env = none ∧ t.fd Fld.KEY_LAST.STATUS = 9)))

/-- Commands of the host's queues: NOP; events of the timeline are armed and cancelled, or refused with the reason; a snapshot of the
Datum; a step in SETTLE; records of the journal, the GNSS snapshot buffer and the fault summary are read; a command that needs the clock
die is LOST while the link to it is down (R48, R49, R56 to R58, R61, R149, R195, R267, R320, R325, R328, R329, R410). -/
def Obligations.HostQueueCommands : Prop :=
  ∀ (s : State) (q : Fin 64) (cid buflen ns frac early late count off len : BitVec 32) (x : TimeVal) (word seq sec : BitVec 64)
    (h : BitVec 16) (e : Event) (fixed : Bool) (res : Option Nat),
    let p : Party := .hostQueue q.val
    let slot := (word.extractLsb' 0 16).toNat
    let mine := fun (k : Nat) => ownFixed (slotOwner k) = false ∧ s.owns p (slotOwner k) = true
    let given := fun (c : Instr) (bs : List Byte) (result : Nat) =>
      if buflen.toNat < bs.length then Answers c s q.val cid .buffer 0 [] (fun _ => True)
      else Answers c s q.val cid .ok result [] (fun t => SMap.get (fun _ => []) t.hst.outBuf q.val = bs)
    let fails := fun (c : Instr) (st : Status) => Answers c s q.val cid st 0 [] (fun _ => True)
    let counted := fun (c : Instr) (st : Status) => Answers c s q.val cid st 0 [.regs .datum] (fun t =>
      t.rg .DTM_TL_REFUSED 0 = s.rg .DTM_TL_REFUSED 0 + 1)
    s.canStart q.val = true →
    Answers (.nop (.host q cid)) s q.val cid .ok 0 [] (fun _ => True) ∧
    (s.d2dUp = false → ∀ c ∈ [Instr.tlArm q cid x word, .tlCancel q cid h, .dtmSnapshot q cid buflen,
      .dtmStep q cid sec ns frac early late, .journalRead q cid seq count buflen, .gnssSnapRead q cid off len buflen,
      .faultSummary q cid buflen], fails c .lost) ∧
    (s.d2dUp = true →
      (armTarget x word = none → fails (.tlArm q cid x word) .range) ∧
      (armTarget x word = some (e, fixed, res) →
        let granted := ∀ o, res = some o → s.owns p o = true
        let c := Instr.tlArm q cid x word
        ((¬ granted ∨ ¬ mine slot) → fails c .notOwner) ∧
        (granted → mine slot → (s.slot slot).armed.isSome = true → fails c .busy) ∧
        (granted → mine slot → (s.slot slot).armed = none → s.targetGated e.target = true → counted c .gated) ∧
        (granted → mine slot → (s.slot slot).armed = none → s.targetGated e.target = false → s.tooSoon e.instant armLead = true →
          (word.getLsbD 19 = false ∨ fixed = true) → counted c .past) ∧
        (granted → mine slot → (s.slot slot).armed = none → s.targetGated e.target = false → s.tooSoon e.instant armLead = false →
          Answers c s q.val cid .ok 0 [.timeline, .regs .datum] (fun t => (t.slot slot).armed = some e ∧
            ∀ k, k ≠ slot → t.slot k = s.slot k))) ∧
      (let c := Instr.tlCancel q cid h
        let k := h.toNat
        (¬ mine k → fails c .notOwner) ∧
        (mine k → (s.slot k).armed = none → fails c (if (s.slot k).last = .fired then .fired else .empty)) ∧
        (∀ e, mine k → (s.slot k).armed = some e →
          (s.reached e.instant = true → fails c .fired) ∧
          (s.reached e.instant = false → SMap.find s.launches k = none → Answers c s q.val cid .cancelled 0 [.timeline, .regs .datum]
            (fun t => (t.slot k).armed = none ∧ ∀ j, j ≠ k → t.slot j = s.slot j)) ∧
          (∀ l f, s.reached e.instant = false → SMap.find s.launches k = some l → l.slot = k → s.frame l.frame = some f →
            Answers c s q.val cid .cancelled 0 [.timeline, .frames, .launches, .regs .datum] (fun t => (t.slot k).armed = none ∧
              SMap.find t.launches k = none ∧
              t.frame l.frame = some { f with frozen := false, times := [], bounds := [], holder := some l.thread })))) ∧
      (let y := s.snapshot
        let bs := leBytes 8 y.at_.sec.toNat ++ leBytes 8 (y.at_.ns.toNat * 2 ^ 32 + y.at_.frac.toNat) ++
          leBytes 4 y.b.early.toNat ++ leBytes 4 y.b.late.toNat ++ leBytes 8 y.inc.toNat ++ leBytes 4 y.info.toNat ++ zeros 12
        given (.dtmSnapshot q cid buflen) bs 0) ∧
      (let o := stepOffset sec ns frac
        let c := Instr.dtmStep q cid sec ns frac early late
        (s.stepRefusal 2 ns o = none → Answers c s q.val cid .ok (s.stepSecond o) [.dtm, .regs .datum] (fun t =>
          t.dtm = { s.dtm with step := some ⟨s.tick + effectDelay, o, ⟨early, late⟩, 0⟩ } ∧ t.fb Fld.DTM_MODE.STEP_PEND = true ∧
            t.datum = s.datum)) ∧
        (∀ st, s.stepRefusal 2 ns o = some st → Answers c s q.val cid st 0 raising (fun t =>
          t.fb Fld.DTM_WSTAT.STEP_REFUSED = true ∧ t.fd Fld.DTM_WSTAT.REASON = stepReason st ∧ Raised t 459 15 ∧ t.dtm = s.dtm))) ∧
      (let n := count.toNat
        let c := Instr.journalRead q cid seq count buflen
        let inside := 1 ≤ n ∧ n ≤ 256 ∧ s.trv.ringBase ≤ seq.toNat ∧ seq.toNat < s.trv.ringBase + s.trv.ring.length
        let rs := (s.trv.ring.drop (seq.toNat - s.trv.ringBase)).take n
        (¬ inside → Answers c s q.val cid .range s.trv.ringBase [] (fun _ => True)) ∧
        (inside → buflen.toNat < n * 128 → fails c .buffer) ∧
        (inside → n * 128 ≤ buflen.toNat → Answers c s q.val cid .ok rs.length [] (fun t =>
          SMap.get (fun _ => []) t.hst.outBuf q.val = (rs.map (fun r => r.bytes)).flatten))) ∧
      (let n := len.toNat
        let fits := n % 64 = 0 ∧ 64 ≤ n ∧ n ≤ 1048576 ∧ off.toNat + n ≤ 8388608
        let bs := (s.gns.buffer.drop off.toNat).take n
        (¬ fits → fails (.gnssSnapRead q cid off len buflen) .range) ∧
        (fits → given (.gnssSnapRead q cid off len buflen) (bs ++ zeros (n - bs.length))
          (s.fd Fld.GNS_SNAP_STAT.SEQ * 65537))) ∧
      (s.flt.summary = none → fails (.faultSummary q cid buflen) .empty) ∧
      (∀ y, s.flt.summary = some y → given (.faultSummary q cid buflen) y.bytes 0))

/-- The PCIe link, BAR2 and the scrubber: the link's loss disables the queues and disarms the unlock, L0 brings it back; a write through
BAR2 reaches its memory and no other; a scrubbed word is counted, poisoned at its first uncorrectable detection (R310, R311, R331 to
R334). -/
def Obligations.HostLinkAndMemoryCommands : Prop :=
  ∀ (s : State) (kind : PcieLoss) (master msix : Bool) (off : BitVec 26) (n : Nat) (data : List Byte) (ch : Fin 2) (addr : BitVec 64),
    let o := off.toNat
    let a := addr.toNat
    s.coreUp = true →
    (s.hst.pcieUp = true →
      (kind ≠ .functionReset → Does (.pcieLinkLoss kind) s (raising ++ [.hst, .key, .regs .top, .regs .host, .regs .own, .regs .key])
        (fun t => t.hst.pcieUp = false ∧ t.hst.unlocked = false ∧ (∀ q, q < 64 → t.queueOn q = false) ∧ Raised t 467 26)) ∧
      (∃ t, exec (.pcieLinkLoss kind) s = .next t ∧ t.hst.unlocked = false ∧ t.fb Fld.TOP_UNLOCK.ARMED = false ∧ t.key.env = none ∧
        (∀ q, q < 64 → t.queueOn q = false) ∧ t.datum = s.datum ∧
        ∀ q k, q < 64 → k < 384 → s.queueOn q = true → ownFixed k = false → s.owns (.hostQueue q) k = true →
          t.fb Fld.TOP_OWN.ORPHAN k = true)) ∧
    Does (.pcieLinkL0 master msix) s [.hst] (fun t =>
      t.hst = { s.hst with pcieUp := true, busMaster := master, msixEn := msix }) ∧
    (s.hst.pcieUp = true →
      Does (.bar2Access off (.read n)) s [] (fun _ => True) ∧
      (∀ c b, s.bar2Place o data.length = .cmem c b → Does (.bar2Access off (.write data)) s [.mem, .hst] (fun t =>
        Stored s t (cmemBase c + b) data)) ∧
      (∀ b, s.bar2Place o data.length = .ddr b →
        ((s.mirrorRefuses b data.length = true ∨ s.mirrorStalls b data.length = true) →
          Does (.bar2Access off (.write data)) s [] (fun _ => True)) ∧
        (s.mirrorRefuses b data.length = false → s.mirrorStalls b data.length = false →
          Does (.bar2Access off (.write data)) s [.mem, .hst, .mat] (fun t => Stored s t b data))) ∧
      ((s.bar2Place o data.length = .pool ∨ s.bar2Place o data.length = .none_) →
        Does (.bar2Access off (.write data)) s [] (fun _ => True))) ∧
    Does (.ddrScrubRead ch addr .clean) s [] (fun _ => True) ∧
    Does (.ddrScrubRead ch addr .ce1) s [.regs .memory] (fun t => t.rg .MEM_CH_CE1 ch.val = s.rg .MEM_CH_CE1 ch.val + 1) ∧
    Does (.ddrScrubRead ch addr .ce2) s (raising ++ [.hst, .regs .memory]) (fun t =>
      t.rg .MEM_CH_CE2 ch.val = s.rg .MEM_CH_CE2 ch.val + 1) ∧
    (s.inDdr a 1 = true → SMap.get (fun _ => false) s.hst.poisoned (a / 8) = false →
      Does (.ddrScrubRead ch addr .ue) s (raising ++ [.hst, .regs .memory]) (fun t =>
        t.rg .MEM_CH_UE ch.val = s.rg .MEM_CH_UE ch.val + 1 ∧ SMap.get (fun _ => false) t.hst.poisoned (a / 8) = true ∧
          t.pair .MEM_CH_LAST_HI .MEM_CH_LAST_LO ch.val = BitVec.ofNat 64 (a / 8 * 8) ∧ Raised t (224 + ch.val) 2)) ∧
    (SMap.get (fun _ => false) s.hst.poisoned (a / 8) = true → Does (.ddrScrubRead ch addr .ue) s [] (fun _ => True)) ∧
    Does (.ddrScrubRead ch addr .passLate) s [.regs .memory] (fun t => t.fb Fld.MEM_STAT.SCRUB_LATE = true) ∧
    Does (.ddrScrubRead ch addr .passInTime) s [.regs .memory] (fun t => t.fb Fld.MEM_STAT.SCRUB_LATE = false)

/-- Heartbeats, the mate's status and the mirror of a pair in operation: a launch point carries the heartbeat of Table 15.2; an arrival
keeps its lane delivering, gives the two-way measurement and answers a yield; a lane's deadline, MATE_PRESENT and the arbitration pair
decide when the mate is LOST; written lines, their frames, the END marker and whole-window copies keep the mirror (R337, R340, R341, R349
to R351, R360 to R362, R364). -/
def Obligations.MateLinkCommands : Prop :=
  ∀ (s : State) (l : Fin 2) (k : Fin 4) (x : TimeVal) (h : Heartbeat) (f : MirFrame) (high : Bool) (n : Nat),
    let own : List Part := [.mat, .regs .mate]
    let roled := notifying ++ own ++ [.frames, .launches]
    let i := l.val
    s.coreUp = true → s.clockUp = true → s.fb Fld.MAT_CFG.EN = true →
    ((s.lane i).trained = true → s.onBeat x = true → s.reached x = true → Does (.heartbeatLaunch l x) s own (fun t =>
      SMap.find t.mat.sent i = some (s.heartbeat i x) ∧ (t.lane i).seq = (s.lane i).seq + 1)) ∧
    Does (.heartbeatReceive l h x) s (roled ++ raising ++ [.ens]) (fun t =>
      (t.lane i).rx = some (h, x) ∧ (t.lane i).alive = true ∧ t.mat.loss = none ∧
      (t.slot (hMate i)).armed = some ⟨x.plus (200 * usCount), .engineTimer, true⟩ ∧
      t.pair .MAT_MATE_CLKID_HI .MAT_MATE_CLKID_LO = h.clkId ∧
      t.mat.mirQ = s.mat.mirQ.filter (fun f => decide (h.mirAck < f.seq)) ∧
      (∀ r, (s.lane i).rx = some r → t.rg .MAT_HB_LOST 0 = s.rg .MAT_HB_LOST 0 + BitVec.ofNat 32 (h.seq - r.1.seq - 1)) ∧
      t.role = (if h.yield = true ∧ s.role = 3 then 2 else s.role) ∧
      (h.yield = true → s.role = 3 → t.fd Fld.MAT_STAT.CAUSE = 3) ∧
      ((h.echoTx = none ∨ (i = 1 ∧ (s.lane 0).alive = true)) → t.ens = s.ens) ∧
      (∀ t1, h.echoTx = some t1 → (i = 0 ∨ (s.lane 0).alive = false) →
        ∃ m : EnsSample, t.ens = { s.ens with meas := s.ens.meas ++ [(12, m)] } ∧ m.sec = x.sec.toNat ∧
          m.x = (((x.count : Int) - h.tx.count) - ((h.echoRx.count : Int) - t1.count)) / 2 ^ 17 +
            s.srg (if i = 0 then .MAT_ASYM0 else .MAT_ASYM1) * 256 ∧
          t.rg .MAT_RTT 0 =
            BitVec.ofInt 32 ((((x.count : Int) - t1.count) - ((h.tx.count : Int) - h.echoRx.count) + 2 ^ 23) / 2 ^ 24))) ∧
    (∀ e, (s.slot (hMate i)).armed = some e →
      (s.reached e.instant = false → Does (.heartbeatLossDeadline l) s [] (fun _ => True)) ∧
      (s.reached e.instant = true → Does (.heartbeatLossDeadline l) s (own ++ raising) (fun t =>
        (t.lane i).alive = false ∧ (t.slot (hMate i)).armed = none ∧
        ((s.lane (1 - i)).alive = true → Raised t 464 31 ∧ t.mat.loss = s.mat.loss) ∧
        ((s.lane (1 - i)).alive = false → s.arbGood = true → s.pwr.mateHigh = false → s.mat.loss = none →
          t.mat.loss = none ∧ t.fd Fld.MAT_STAT.MATE = 2 ∧ (s.fd Fld.MAT_STAT.MATE ≠ 2 → Raised t 464 21)) ∧
        ((s.lane i).alive = true → (s.lane (1 - i)).alive = false → s.arbGood = false → s.pwr.mateHigh = false → s.mat.loss = none →
          t.mat.loss.isSome = true ∧ t.fd Fld.MAT_STAT.MATE = 1 ∧ Raised t 464 22 ∧
          (s.role = 3 → t.mat.promoteAt = some (s.now.plus (s.fd Fld.MAT_PROMOTE_HOLD.HOLD * usCount))))))) ∧
    (s.pwr.mateHigh = high → Does (.matePresentChange high) s [] (fun _ => True)) ∧
    (s.pwr.mateHigh = false → s.mat.loss = none → Does (.matePresentChange true) s (own ++ raising ++ [.pwr]) (fun t =>
      t.pwr.mateHigh = true ∧ t.mat.loss.isSome = true ∧ t.fd Fld.MAT_STAT.MATE = 1 ∧ Raised t 464 22)) ∧
    (s.pwr.mateHigh = true → Does (.matePresentChange false) s (own ++ raising ++ [.pwr]) (fun t =>
      t.pwr.mateHigh = false ∧ t.mat.loss = none ∧
      (s.fd Fld.MAT_MIR.SIZE k.val ≠ 0 → (t.fd Fld.MAT_MIR_STAT.SYNC).testBit k.val = false ∧ k.val ∈ t.mat.copying))) ∧
    (∀ w off tm r, s.mat.dirty = (w, off, tm) :: r → s.role = 2 →
      (s.now.count < tm.count + usCount → Does .mirrorWrite s [] (fun _ => True)) ∧
      (tm.count + usCount ≤ s.now.count → Does .mirrorWrite s own (fun t => t.mat.dirty = r ∧
        (if mirrorLimit < s.mat.mirQ.foldl (fun n f => n + f.data.length) 0 + 64 then
          t.mat.mirQ = s.mat.mirQ ∧ (t.fd Fld.MAT_MIR_STAT.SYNC).testBit w = false
        else t.mat.mirSeq = s.mat.mirSeq + 1 ∧
          t.mat.mirQ = s.mat.mirQ ++ [⟨s.mat.mirSeq + 1, w, off,
            s.octets (ddrBase + s.fd Fld.MAT_MIR.BASE w * 0x100000 + off) 64, false⟩])))) ∧
    ((s.role = 3 ∨ s.role = 4 ∨ s.mat.mirWait = true) →
      (f.end_ = false → f.seq = s.mat.mirRx + 1 → f.window ≤ 3 →
        f.off + f.data.length ≤ s.fd Fld.MAT_MIR.SIZE f.window * 0x100000 → Does (.mirrorFrameApply f) s [.mem, .hst, .mat] (fun t =>
          Stored s t (ddrBase + s.fd Fld.MAT_MIR.BASE f.window * 0x100000 + f.off) f.data ∧ t.mat = { s.mat with mirRx := f.seq })) ∧
      (f.seq ≠ s.mat.mirRx + 1 → Does (.mirrorFrameApply f) s [] (fun _ => True)) ∧
      Does (.mirrorEndMarker n) s [.mat] (fun t =>
        t.mat = if n = s.mat.mirRx + 1 then { s.mat with mirRx := n, mirWait := false } else s.mat)) ∧
    (s.role = 2 → s.fd Fld.MAT_STAT.MATE = 4 → k.val ∈ s.mat.copying → Does (.windowCopyDone k) s own (fun t =>
      (t.fd Fld.MAT_MIR_STAT.SYNC).testBit k.val = true ∧ k.val ∉ t.mat.copying))

/-- Roles: INIT once both lanes have trained or 2 ms have passed, the role by the first case of R346 that applies; the worse of two ACTIVE
engines demotes itself; a guarded WITHDRAW and REJOIN; the promotion after a loss and its hold; the witness rule (R346 to R348, R351,
R353). -/
def Obligations.RoleCommands : Prop :=
  ∀ (s : State) (t0 t1 : Bool) (x : TimeVal) (v : BitVec 32) (port : Fin 64) (clk : BitVec 64),
    let own : List Part := [.mat, .regs .mate]
    let roled := notifying ++ own ++ [.frames, .launches]
    let hb := s.mateBeat.map (fun h => h.role)
    let becomes := fun (c : Instr) (l : List Part) (role cause : Nat) (P : State → Prop) =>
      Does c s (roled ++ l) (fun t => t.role = role ∧ (s.role ≠ role → t.fd Fld.MAT_STAT.CAUSE = cause) ∧ P t)
    let counts := fun (t : State) (f : Fld) => t.fd f = Nat.min 0xFF (s.fd f + 1)
    s.coreUp = true → s.pwr.vddKeep = true → s.fb Fld.MAT_CFG.EN = true →
    (s.mat.start = some x → s.mat.init = none →
      (((t0 = true ∧ t1 = true) ∨ x.count + 2000 * usCount ≤ s.now.count) → Does (.matInitEntry t0 t1) s [.mat] (fun t =>
        t.mat.init = some s.now ∧ (t0 = true → (t.lane 0).trained = true) ∧ (t1 = true → (t.lane 1).trained = true))) ∧
      ((t0 && t1) = false → s.now.count < x.count + 2000 * usCount → Does (.matInitEntry t0 t1) s [] (fun _ => True))) ∧
    (s.mat.init = some x → s.mat.decided = false →
      (s.now.count < x.count + 1000 * usCount → Does .roleDecide s [] (fun _ => True)) ∧
      (x.count + 1000 * usCount ≤ s.now.count →
        ((hb = some 2 ∨ s.pwr.arbIn = 3) → becomes .roleDecide raising 3 1 (fun t => t.mat.decided = true)) ∧
        (s.pwr.arbIn ≠ 3 → s.mateRow = some 4 → (hb = some 1 ∨ hb = some 3) →
          becomes .roleDecide raising (if s.preferred = true then 2 else 3) 1 (fun t => t.mat.decided = true)) ∧
        (hb ≠ some 1 → hb ≠ some 2 → hb ≠ some 3 → s.pwr.arbIn ≠ 3 → (hb = some 4 ∨ s.pwr.arbIn = 2 ∨ s.mateRow = some 0) →
          becomes .roleDecide raising 2 1 (fun t => t.mat.decided = true)) ∧
        (s.linkAlive = false → s.pwr.arbIn = 0 → s.pwr.mateHigh = false → s.mat.loss = none →
          becomes .roleDecide raising 2 1 (fun t => t.mat.decided = true ∧ t.fd Fld.MAT_STAT.MATE = 1 ∧ Raised t 464 22 ∧
            t.mat.promoted = true ∧ t.mat.winEnd = some (s.now.plus s.announce2))))) ∧
    (s.role = 2 →
      (∀ a, s.pwr.arbIn = 3 → s.mat.arbActive = some a → a.count + 30 * usCount ≤ s.now.count → s.worse = true → s.mat.swap = none →
        (∀ e, s.mat.swapEnd = some e → e.count ≤ s.now.count) →
        becomes .arbContentionDemote raising 3 8 (fun t => counts t Fld.MAT_ROLECNT.ARB ∧ Raised t 464 31)) ∧
      ((s.pwr.arbIn ≠ 3 ∨ s.preferred = true ∨ s.mat.swap.isSome = true) → Does .arbContentionDemote s [] (fun _ => True))) ∧
    (s.Takes .MAT_CMD 0 → becomes (.matWithdraw v) unlocking 4 0x0B (fun t => t.fb Fld.MAT_WSTAT.ACCEPT = true)) ∧
    (s.Takes .MAT_CMD 0 →
      (s.fd Fld.FLT_ESC.STEP ≠ 0 → Does (.matRejoin v) s (unlocking ++ own) (fun t =>
        t.fb Fld.MAT_WSTAT.CMD_REFUSED = true ∧ t.rg .MAT_STAT 0 = s.rg .MAT_STAT 0)) ∧
      (s.fd Fld.FLT_ESC.STEP = 0 → s.role = 4 → becomes (.matRejoin v) unlocking 3 0x0C (fun t =>
        t.fb Fld.MAT_WSTAT.ACCEPT = true))) ∧
    (s.mat.promoteAt = some x → s.role = 3 →
      (s.reached x = false → Does .promotion s [] (fun _ => True)) ∧
      (s.reached x = true → s.mat.witness = true → s.witnessQuiet = false → Does .promotion s [] (fun _ => True)) ∧
      (s.reached x = true → (s.mat.witness = false ∨ s.witnessQuiet = true) → becomes .promotion [] 2 2 (fun t =>
        counts t Fld.MAT_ROLECNT.TAKE ∧ t.mat.promoteAt = none ∧
        (s.mat.loss.isSome = true → s.mat.witness = false →
          t.mat.promoted = true ∧ t.mat.winEnd = some (s.now.plus s.announce2))))) ∧
    (let c := Instr.witnessMatch port clk
      let hit := (s.pair .MAT_WITNESS_HI .MAT_WITNESS_LO).getLsbD port.val = true ∧ s.linkUp port.val = true ∧
        clk = s.pair .MAT_MATE_CLKID_HI .MAT_MATE_CLKID_LO
      (¬ hit → Does c s [] (fun _ => True)) ∧
      (hit → s.role ≠ 2 → Does c s (own ++ raising) (fun t => t.mat.matchAt = some s.now ∧ t.role = s.role)) ∧
      (hit → s.role = 2 → s.mat.promoted = true → s.mateSeen = false → s.mat.loss.isSome = true → s.pwr.mateHigh = false →
        becomes c raising 3 9 (fun t => counts t Fld.MAT_ROLECNT.WIT ∧ t.mat.matchAt = some s.now ∧ t.mat.promoteAt = some s.now ∧
          t.fd Fld.MAT_STAT.MATE = 5 ∧ Raised t 464 31)))

/-- Planned swaps: the host's request, the periodic schedule, reversion and health yield, each refused with its code where a condition
fails; the conditions again at S - 100 µs, where the incoming engine becomes ACTIVE; at S the outgoing engine becomes STANDBY and sends
its END marker (R355 to R359, R362). -/
def Obligations.SwapCommands : Prop :=
  ∀ (s : State) (v : BitVec 32) (x : TimeVal) (w : MatSwap),
    let own : List Part := [.mat, .regs .mate]
    let roled := notifying ++ own ++ [.frames, .launches]
    let word := v ||| 1#32 <<< Fld.MAT_SWAP_CTL.NOW.lo
    let p := Fld.MAT_SWAP_CTL.PERIOD.of word
    let second := fun (n : Nat) (sec : Nat) => ((sec : Int) - s.fd Fld.MAT_SWAP_AT.AT) % (3600 * (n : Int)) = 0
    let asks := fun (c : Instr) (l : List Part) (at_ cause : Nat) =>
      (s.mat.swap.isSome = true → Does c s (own ++ raising ++ l) (fun t =>
        t.fd Fld.MAT_SWAP_CTL.LAST = 7 ∧ Raised t 464 31 ∧ t.mat.swap = s.mat.swap)) ∧
      (∀ e, s.mat.swap = none → s.swapBar = some e → Does c s (own ++ raising ++ l) (fun t =>
        t.fd Fld.MAT_SWAP_CTL.LAST = e ∧ Raised t 464 31 ∧ t.mat.swap = none)) ∧
      (s.mat.swap = none → s.swapBar = none → Does c s (own ++ l) (fun t =>
        t.mat.swap = some ⟨at_, cause, true, false, decide (s.role = 2), false⟩))
    s.coreUp = true → s.pwr.vddKeep = true → s.fb Fld.MAT_CFG.EN = true →
    (s.Takes .MAT_SWAP_CTL 0 →
      ((p = 0 ∨ 168 < p) → Does (.swapRequestNow v) s (unlocking ++ [.regs .mate]) (fun t =>
        t.fb Fld.MAT_WSTAT.RANGE = true ∧ t.rg .MAT_SWAP_CTL 0 = s.rg .MAT_SWAP_CTL 0)) ∧
      (1 ≤ p → p ≤ 168 → asks (.swapRequestNow v) (unlocking ++ [.cairn]) s.swapSecond 4)) ∧
    (SMap.find s.secDone 6 ≠ some s.now.sec.toNat → s.fb Fld.MAT_SWAP_CTL.EN = true → s.role = 2 →
      (second (s.fd Fld.MAT_SWAP_CTL.PERIOD) (s.now.sec.toNat + 2) →
        asks .periodicSwapRequest [.secDone] (s.now.sec.toNat + 2) 5) ∧
      (¬ second (s.fd Fld.MAT_SWAP_CTL.PERIOD) (s.now.sec.toNat + 2) →
        Does .periodicSwapRequest s [.secDone] (fun _ => True))) ∧
    (s.mat.swap = none → s.fb Fld.MAT_CFG.REVERT = true → s.preferred = true → s.role = 3 → s.mat.bothOk = some x →
      (s.now.count < x.count + s.fd Fld.MAT_REVERT_HOLD.HOLD * secCount → Does .reversionRequest s [] (fun _ => True)) ∧
      (x.count + s.fd Fld.MAT_REVERT_HOLD.HOLD * secCount ≤ s.now.count → asks .reversionRequest [] s.swapSecond 6)) ∧
    (s.mat.swap = none → s.fb Fld.MAT_CFG.HYIELD = true → s.role = 2 → s.mat.aloneBad = some x →
      (s.now.count < x.count + secCount → Does .healthYieldRequest s [] (fun _ => True)) ∧
      (x.count + secCount ≤ s.now.count → asks .healthYieldRequest [] s.swapSecond 7)) ∧
    (s.mat.swap = some w →
      (w.begun = false → s.now.count + 100 * usCount < w.at_ * secCount → Does .swapRecheck s [] (fun _ => True)) ∧
      (w.begun = false → w.at_ * secCount ≤ s.now.count + 100 * usCount →
        (w.acked = false → Does .swapRecheck s (own ++ raising) (fun t =>
          t.mat.swap = none ∧ t.fd Fld.MAT_SWAP_CTL.LAST = 8 ∧ t.role = s.role ∧ Raised t 464 31)) ∧
        (∀ e, w.acked = true → s.swapBar = some e → Does .swapRecheck s (own ++ raising) (fun t =>
          t.mat.swap = none ∧ t.fd Fld.MAT_SWAP_CTL.LAST = e ∧ t.role = s.role ∧ Raised t 464 31)) ∧
        (w.acked = true → s.swapBar = none → Does .swapRecheck s roled (fun t =>
          t.mat.swap = some { w with begun := true } ∧ t.role = (if w.out then s.role else 2) ∧
          (w.out = false → s.role = 3 → w.cause ≤ 7 → t.fd Fld.MAT_STAT.CAUSE = w.cause)))) ∧
      ((w.begun = false ∨ s.now.count < w.at_ * secCount) → Does .swapInstant s [] (fun _ => True)) ∧
      (w.begun = true → w.at_ * secCount ≤ s.now.count → Does .swapInstant s roled (fun t =>
        t.mat.swap = none ∧ t.fd Fld.MAT_SWAP_CTL.LAST = 1 ∧ t.fd Fld.MAT_ROLECNT.SWAP = Nat.min 0xFF (s.fd Fld.MAT_ROLECNT.SWAP + 1) ∧
        t.mat.swapEnd = some ((TimeVal.ofSec w.at_).plus (100 * usCount)) ∧
        t.role = (if w.out then 3 else s.role) ∧
        (w.out = true → t.mat.mirQ = s.mat.mirQ ++ [⟨s.mat.mirSeq + 1, 0, 0, [], true⟩]) ∧
        (w.out = false → t.mat.mirWait = true ∧ t.mat.mirQ = s.mat.mirQ))))

/-- Commands of power and product life: regions are gated and powered again, fuses blow once, the lifecycle advances, the boot store is
kept (R20, R367, R372 to R376). -/
def Obligations.LifeCommands : Prop :=
  ∀ (s : State) (q : Fin 64) (cid word buflen : BitVec 32) (item value : BitVec 16) (mask : BitVec 128) (file owner qT : List Byte),
    let f := s.pwr.fuses
    let ans := fun (c : Instr) (st : Status) (n : Nat) (l : List Part) (P : State → Prop) => Answers c s q.val cid st n l P
    let no := fun (c : Instr) (n : Nat) => ans c .refused n [] (fun _ => True)
    let rs := wordRegions word
    let regs : List Part := [.regs .own, .regs .top, .regs .fltRec, .regs .fault, .regs .irq, .regs .damper, .regs .key, .regs .mate,
      .regs .memory, .regs .datum, .regs .tic, .regs .ens, .regs .traverse, .regs .syn, .regs .port, .regs .service, .regs .stoker, .regs .pmc]
    s.canStart q.val = true →
    (let c := Instr.regionGate q cid word
      let busy := rs.filter (fun r => !(List.range 4).all (fun j => s.pwr.isolated.contains (4 * r + j)))
      let armed := rs.any s.regionArmed || (word.getLsbD 8 && s.snapArmed)
      (word &&& 0xFFFFFEF0#32 ≠ 0 → ans c .opcode 0 [] (fun _ => True)) ∧
      (word &&& 0xFFFFFEF0#32 = 0 → busy ≠ [] → ans c .busy (busy.foldl (fun m r => m + 2 ^ r) 0) [] (fun _ => True)) ∧
      (word &&& 0xFFFFFEF0#32 = 0 → busy = [] → armed = true → ans c .armed 0 [] (fun _ => True)) ∧
      (word &&& 0xFFFFFEF0#32 = 0 → busy = [] → armed = false →
        ans c .ok 0 ([.mem, .threads, .images, .frames, .jobs, .derived, .prt, .pwr, .ens, .gns, .regs .power, .regs .gns] ++ regs)
          (fun t => (∀ r ∈ rs, r ∈ t.pwr.gatedCr) ∧ (∀ r, r ∉ rs → (r ∈ t.pwr.gatedCr ↔ r ∈ s.pwr.gatedCr)) ∧
            t.pwr.gatedGnss = (s.pwr.gatedGnss || word.getLsbD 8) ∧
            (rs ≠ [] → t.fd Fld.PWR_STAT.STATE = if s.pwr.ember then 2 else 1) ∧
            (∀ r ∈ rs, ∀ th, regionOf (clusterOf th) = r → t.thread th = Thread.reset) ∧
            (∀ a, t.octet a = if rs.any (fun r => regionHolds r a) then 0 else s.octet a) ∧
            (∀ r i, r.group ∉ [RegGroup.power, .gns, .host, .irqStat] →
              t.rg r i = if rs.any (fun n => decide (RegKey.region ⟨r, i⟩ = some n)) then RegKey.dflt ⟨r, i⟩ else s.rg r i)))) ∧
    (let c := Instr.regionUngate q cid word
      let off := rs.all (fun r => s.pwr.gatedCr.contains r) && (!word.getLsbD 8 || s.pwr.gatedGnss)
      (word &&& 0xFFFFFEF0#32 ≠ 0 → ans c .opcode 0 [] (fun _ => True)) ∧
      (word &&& 0xFFFFFEF0#32 = 0 → off = false → ans c .range 0 [] (fun _ => True)) ∧
      (word &&& 0xFFFFFEF0#32 = 0 → off = true → ans c .ok 0 [.pwr, .regs .power] (fun t =>
        (∀ r ∈ rs, r ∉ t.pwr.gatedCr) ∧ t.pwr.gatedGnss = (s.pwr.gatedGnss && !word.getLsbD 8)))) ∧
    (let c := Instr.fuseProgram q cid item value
      let n := item.toNat
      let v := value.toNat
      let blown := (n = 1 ∧ f.invKill = true) ∨ (n = 2 ∧ f.obsKill = true) ∨ (n = 3 ∧ f.matPrio.isSome = true) ∨
        (n = 4 ∧ f.dfdtCeil.isSome = true)
      (s.pwr.pwrfail = true → no c 0x0B) ∧
      (s.pwr.pwrfail = false → s.lifecycle = 3 → no c 5) ∧
      (s.pwr.pwrfail = false → s.lifecycle ≠ 3 →
        (blown → no c 6) ∧
        (¬ blown → (n = 0 ∨ 4 < n ∨ (n = 3 ∧ 0xFF < v) ∨ (n = 4 ∧ (v = 0 ∨ 10000 < v))) → ans c .range 0 [] (fun _ => True)) ∧
        (¬ blown → n = 1 → ans c .ok 0 [.threads, .pwr, .regs .power] (fun t => t.pwr.fuses = { f with invKill := true } ∧
          t.pwr.debug ≠ .invasive)) ∧
        (¬ blown → n = 2 → ans c .ok 0 [.threads, .pwr, .regs .power] (fun t =>
          t.pwr.fuses = { f with invKill := true, obsKill := true } ∧ t.pwr.debug = .off)) ∧
        (¬ blown → n = 3 → v ≤ 0xFF → ans c .ok 0 [.pwr, .regs .mate] (fun t =>
          t.pwr.fuses = { f with matPrio := some (BitVec.ofNat 8 v) } ∧ t.fd Fld.MAT_PRIORITY.PRIO = v ∧
            t.fb Fld.MAT_PRIORITY.FUSED = true)) ∧
        (¬ blown → n = 4 → 1 ≤ v → v ≤ 10000 → ans c .ok 0 [.pwr, .regs .damper] (fun t =>
          t.pwr.fuses = { f with dfdtCeil := some v } ∧
            t.fd Fld.DMP_MAX_DFDT.DFDT = Nat.min v (s.fd Fld.DMP_MAX_DFDT.DFDT))))) ∧
    (let c := Instr.provision q cid owner qT buflen
      let ready := owner.length = 48 ∧ qT.length = 97 ∧ 40 ≤ buflen.toNat
      (¬ ready → ans c .buffer 0 [] (fun _ => True)) ∧
      (ready → s.pwr.pwrfail = true → no c 0x0B) ∧
      (ready → s.pwr.pwrfail = false →
        (s.lifecycle ≠ 0 → s.lifecycle ≠ 1 → no c 5) ∧
        (s.lifecycle = 1 → s.cairn.tkOut = true → no c 8) ∧
        ((s.lifecycle = 0 ∨ (s.lifecycle = 1 ∧ s.cairn.tkOut = false)) →
          (hashFits s.ownerHash owner = false → no c 6) ∧
          (hashFits s.ownerHash owner = true → (s.lifecycle = 0 ∨ s.ownerHash = owner) →
            ans c .ok 0 [.pwr, .cairn, .regs .key] (fun t =>
              t.pwr.fuses = { f with owner := owner, ownerSet := true, lcP := true } ∧ t.cairn = { s.cairn with tkOut := true } ∧
                t.fb Fld.KEY_STAT.TK_RELEASED = true ∧
                SMap.get (fun _ => []) t.hst.outBuf q.val = Config.aesWrap (Config.ecdh qT) Config.transportKey))))) ∧
    (let c := Instr.advanceField q cid;
      (s.pwr.pwrfail = true → no c 0x0B) ∧
      (s.pwr.pwrfail = false → s.lifecycle ≠ 1 → no c 5) ∧
      (s.pwr.pwrfail = false → s.lifecycle = 1 → s.pwr.debug = .invasive → no c 7) ∧
      (s.pwr.pwrfail = false → s.lifecycle = 1 → s.pwr.debug ≠ .invasive → ans c .ok 0 [.pwr] (fun t =>
        t.pwr = { s.pwr with fuses := { f with lcF := true } }))) ∧
    (let c := Instr.retire q cid file
      let done := ans c .ok 0 [.derived, .key, .pwr, .cairn, .regs .key] (fun t =>
        t.pwr.fuses = { f with lcR := true } ∧ t.cairn.keys = [] ∧ t.key.env = none ∧ t.fd Fld.KEY_STAT.STATE = 3 ∧
          ∀ i < 64, t.slotKey i = none)
      let framed := file.length = 160 ∧ leAt file 0 4 = 0x52455401 ∧ allZero (sliceAt file 4 12) = true
      (s.pwr.pwrfail = true → no c 0x0B) ∧
      (s.pwr.pwrfail = false → s.lifecycle = 3 → no c 5) ∧
      (s.pwr.pwrfail = false → s.lifecycle = 0 → done) ∧
      (s.pwr.pwrfail = false → s.lifecycle ≠ 0 → s.lifecycle ≠ 3 →
        (¬ framed → ans c .buffer 0 [] (fun _ => True)) ∧
        (framed →
          if sliceAt file 0x10 48 ≠ identityHash then no c 3
          else if Config.ecdsaVerify s.ownerHash (file.take 0x40) (sliceAt file 0x40 96) then done else no c 4))) ∧
    (let c := Instr.bootStore q cid mask file
      let fewer := s.pwr.boot.map (fun e => { e with cores := e.cores.filter (fun k => !(maskCores mask).contains k) })
      let kept := fewer.filter (fun e => decide (e.cores ≠ []))
      let l := if maskCores mask = [] then kept else kept ++ [⟨maskCores mask, file⟩]
      match s.imageCheck file with
      | .inl r => ans c .refused r raising (fun t => t.pwr.boot = s.pwr.boot ∧ Raised t 466 25)
      | .inr _ =>
        if bootRoom < bootUsed l then ans c .noResource 0 [] (fun _ => True)
        else ans c .ok 0 [.pwr, .regs .power] (fun t => t.pwr = { s.pwr with boot := l })) ∧
    ans (.bootClear q cid) .ok 0 [.pwr, .regs .power] (fun t =>
      t.pwr = { s.pwr with boot := [] } ∧ t.fd Fld.SEC_BOOT.STORED = 0 ∧ t.fd Fld.SEC_BOOT.USED = 0)

/-- The starts, losses and resets of the two dies: what a core-die reset, loss of VDD_CLK, KEEP_RESET_N and a full power cycle keep and
lose; the keeper-domain start resumes the Datum; RESET_N starts the core die (R11, R141, R369, R370, R377, R383, R387). -/
def Obligations.PowerCommands : Prop :=
  ∀ (s : State) (byPin : Bool) (elapsed : BitVec 64) (ddr0 ddr1 : BitVec 32) (failed : List (Fin 472)),
    let goes := fun (c : Instr) (P : State → Prop) => ∃ t, exec c s = .next t ∧ t.pending = s.pending ∧ P t
    let kept := fun (t : State) => t.cairn = s.cairn ∧ t.datum = s.datum ∧ t.pwr.fuses = s.pwr.fuses ∧ t.pwr.boot = s.pwr.boot
    let latched := fun (t : State) => t.pwr.debugged = s.pwr.debugged ∧ t.pwr.zeroised = s.pwr.zeroised
    let bare := fun (t : State) => t.mem = [] ∧ t.threads = [] ∧ t.images = [] ∧ t.frames = [] ∧ t.launches = [] ∧ t.jobs = []
    (s.coreUp = true → goes (.coreDieReset byPin) (fun t => t.coreUp = false ∧ t.d2dUp = false ∧ bare t ∧ kept t ∧ latched t ∧
      t.tick = s.tick ∧ t.syn = s.syn ∧ t.tic = s.tic ∧ t.gns = s.gns ∧ t.thm = s.thm ∧ t.fb Fld.TRV_STAT.NOWRITER = true ∧
      t.pwr.resetN = (byPin || s.pwr.resetN) ∧ (byPin = true → t.pwr.needPin = false) ∧
      (∀ r i, r.domain i = .core → r ≠ .SVC_CTL → r.group ≠ .power → t.rg r i = RegKey.dflt ⟨r, i⟩) ∧
      (∀ r i, r.domain i = .keeper → r.group ∉ [RegGroup.own, .power] → t.rg r i = s.rg r i) ∧
      (∀ k, k < 384 → ownFixed k = false → s.fb Fld.TOP_OWN.HELD k = true → s.fd Fld.TOP_OWN.KIND k ≠ 3 →
        t.fb Fld.TOP_OWN.ORPHAN k = true) ∧
      (s.fd Fld.FLT_ESC.STEP ≠ 0 → t.fb Fld.SVC_CTL.AUTO_OPEN = false))) ∧
    goes .vddClkLoss (fun t => t.clockUp = false ∧ t.coreUp = false ∧ kept t ∧ latched t ∧ t.pwr.vddKeep = s.pwr.vddKeep ∧
      t.timeline = [] ∧ (s.coreUp = true → bare t) ∧
      (∀ r i, r.domain i = .keeper → r.group ∉ [RegGroup.own, .power] → t.rg r i = s.rg r i) ∧
      (∀ r i, r.domain i ≠ .keeper → r.group ≠ .power → t.rg r i = RegKey.dflt ⟨r, i⟩)) ∧
    goes .keepResetNAssert (fun t => t.clockUp = false ∧ t.coreUp = false ∧ kept t ∧ latched t ∧ t.timeline = [] ∧ t.hst.wosDone = false ∧
      (∀ r i, r ≠ .FLT_ESC_LAST → t.rg r i = RegKey.dflt ⟨r, i⟩)) ∧
    goes .vddKeepLoss (fun t => t.clockUp = false ∧ t.coreUp = false ∧ kept t ∧ t.pwr.debugged = false ∧ t.pwr.zeroised = false ∧
      t.timeline = [] ∧ (∀ r i, r ≠ .FLT_ESC_LAST → t.rg r i = RegKey.dflt ⟨r, i⟩)) ∧
    (s.clockUp = true → Does (.keeperDomainStart elapsed) s [] (fun _ => True)) ∧
    (s.clockUp = false → goes (.keeperDomainStart elapsed) (fun t => t.clockUp = true ∧ t.coreUp = false ∧ t.pwr.kindle = true ∧
      t.now = s.cairn.datum.plus (if s.pwr.vddKeep then elapsed.toNat * 2 ^ 32 else 0) ∧ t.inc = s.cairn.inc ∧
      t.fd Fld.TRV_STAT.COND = 2 ∧ t.fb Fld.TRV_STAT.NOWRITER = true ∧ t.fb Fld.TRV_STAT.PRE_SOURCE = true ∧ t.pwr.lostWarn = none)) ∧
    (let c := Instr.resetNRelease ddr0 ddr1 failed
      let able := s.clockUp && s.pwr.dclk && !s.coreUp && !s.pwr.needPin && s.coolEnough
      (able = false → Does c s [] (fun _ => True)) ∧
      (able = true → goes c (fun t => t.coreUp = true ∧ t.datum = s.datum ∧ t.pwr.ember = false ∧ t.thm.trip = false ∧
        t.flt.step3Hold = false ∧ t.rg .PWR_CORE_STARTS 0 = s.rg .PWR_CORE_STARTS 0 + 1 ∧ t.rg .MEM_CH_SIZE 0 = ddr0 ∧
        t.rg .MEM_CH_SIZE 1 = ddr1 ∧ (∀ i ∈ failed, Raised t i.val 29) ∧ (s.pwr.zeroised = true → t.svcState = 2) ∧
        (s.fd Fld.FLT_ESC.STEP ≠ 0 → t.fb Fld.SVC_CTL.AUTO_OPEN = false))))

/-- Ember, shutdown and the power-fail warning: EMBER and SHUTDOWN are BUSY while the service is not CLOSED or the role is ACTIVE, and
otherwise commit and reset the core die; the warning raises its fault, stops the fetch of commands and commits (R368, R385, R386). -/
def Obligations.EmberAndShutdownCommands : Prop :=
  ∀ (s : State) (q : Fin 64) (cid : BitVec 32) (x : TimeVal),
    let goes := fun (c : Instr) (P : State → Prop) => ∃ t, exec c s = .next t ∧ t.pending = s.pending ∧ t.datum = s.datum ∧ P t
    let saved := fun (t : State) => s.clockUp = true → t.cairn.datum = s.now
    let inEmber := fun (t : State) => t.pwr.ember = true ∧ t.pwr.needPin = true ∧ t.pwr.gatedGnss = true ∧ t.pwr.debug = .off ∧
      t.fd Fld.PWR_STAT.STATE = 2 ∧ t.pwr.gatedLoops = (List.range 16).filter (fun n => decide (n ≠ 0 ∧ n ≠ s.fd Fld.PWR_EMBER.LOOP))
    (s.canStart q.val = true →
      (s.svcState ≠ 0 → Answers (.ember q cid) s q.val cid .busy 1 [] (fun _ => True) ∧
        Answers (.shutdown q cid) s q.val cid .busy 1 [] (fun _ => True)) ∧
      (s.svcState = 0 → s.role = 2 → Answers (.ember q cid) s q.val cid .busy 2 [] (fun _ => True) ∧
        Answers (.shutdown q cid) s q.val cid .busy 2 [] (fun _ => True)) ∧
      (s.svcState = 0 → s.role ≠ 2 →
        goes (.ember q cid) (fun t => t.coreUp = false ∧ saved t ∧ inEmber t ∧ t.mem = [] ∧ t.threads = []) ∧
        goes (.shutdown q cid) (fun t => t.coreUp = false ∧ saved t ∧ t.pwr.needPin = true ∧ t.mem = [] ∧ t.threads = []))) ∧
    (let able := s.clockUp && s.fb Fld.PWR_EMBER.AUTO && !s.pwr.ember && decide (s.pwr.core = .off);
      (s.pwr.coreLost = some x → able = true → x.count + 10000 * usCount ≤ s.now.count →
        goes .emberAutoEntry (fun t => saved t ∧ inEmber t)) ∧
      ((s.pwr.coreLost = none ∨ able = false ∨ (s.pwr.coreLost = some x ∧ s.now.count < x.count + 10000 * usCount)) →
        Does .emberAutoEntry s [] (fun _ => True))) ∧
    (s.pwr.pwrfail = true → Does .pwrfailAssert s [] (fun _ => True)) ∧
    (s.pwr.pwrfail = false → Does .pwrfailAssert s
        ([.datum, .irq, .hst, .trv, .key, .pwr, .cairn, .regs .host, .regs .key, .regs .power, .regs .traverse] ++ raising)
      (fun t => t.datum = s.datum ∧ t.pwr.pwrfail = true ∧ t.pwr.warnAt = some s.now ∧ t.key.env = none ∧ t.hst.stopFetch = true ∧
        t.fb Fld.PWR_STAT.PWRFAIL = true ∧ t.fb Fld.PWR_STAT.EMERG = s.clockUp ∧ saved t ∧ (s.coreUp = true → Raised t 468 27))) ∧
    (s.pwr.pwrfail = false → Does .pwrfailRelease s [] (fun _ => True)) ∧
    (s.pwr.pwrfail = true → Does .pwrfailRelease s [.irq, .hst, .pwr, .regs .irqStat, .regs .power] (fun t =>
      t.pwr.pwrfail = false ∧ t.pwr.warnAt = none ∧ t.hst.stopFetch = false ∧ t.fb Fld.PWR_STAT.PWRFAIL = false ∧
        t.fb Fld.PWR_STAT.EMERG = false))

/-- Debug levels and temperature: a permitted level is granted with what Table 16.5 asks of it, another is counted as denied; HALTED
threads resume when INVASIVE ends; a reading of the sensors is kept, and a core die at 160 °C is reset (R377, R378, R381, R401, R402). -/
def Obligations.DebugAndSensorCommands : Prop :=
  ∀ (s : State) (lvl : DebugLevel) (v : BitVec 32) (clk core : Int) (quads : List Int),
    let resumes := fun (t : State) => s.pwr.debug = .invasive → t.pwr.debug ≠ .invasive →
      ∀ th, (s.thread th).st = .halted → (t.thread th).st = .ready
    (s.coreUp = false → Does (.debugLevelRequest lvl) s [] (fun _ => True)) ∧
    (s.coreUp = true → s.debugPermits lvl = false → Does (.debugLevelRequest lvl) s [.regs .power] (fun t =>
      t.fd Fld.DBG_STAT.DENIED = Nat.min 0xFFFF (s.fd Fld.DBG_STAT.DENIED + 1))) ∧
    (s.coreUp = true → s.debugPermits lvl = true → lvl ≠ .invasive → Does (.debugLevelRequest lvl) s [.threads, .pwr, .regs .power]
      (fun t => t.pwr = { s.pwr with debug := lvl } ∧ resumes t)) ∧
    (s.coreUp = true → s.debugPermits .invasive = true →
      Does (.debugLevelRequest .invasive) s [.derived, .key, .pwr, .threads, .regs .irqStat, .regs .key, .regs .power, .regs .service]
        (fun t => t.pwr.debug = .invasive ∧ t.pwr.debugged = true ∧ t.fd Fld.DBG_STAT.LEVEL = 2 ∧
        (s.lifecycle = 2 → t.pwr.zeroised = true ∧ t.fd Fld.KEY_STAT.STATE = 2 ∧ t.svcState = 2) ∧
        (s.lifecycle = 1 → t.svcState = (if s.svcState = 1 then 0 else s.svcState)) ∧
        (s.lifecycle ≠ 1 → s.lifecycle ≠ 2 → t.svcState = s.svcState))) ∧
    (s.Takes .DBG_CTL 0 → Does (.dbgDrop v) s (unlocking ++ [.threads, .pwr, .regs .power]) (fun t =>
      t.pwr.debug = .off ∧ t.fd Fld.DBG_STAT.LEVEL = 0 ∧ t.rg .DBG_CTL 0 = v &&& 0xC0000000#32 ∧ resumes t)) ∧
    (s.clockUp = false → Does (.sensorRead clk core quads) s [] (fun _ => True)) ∧
    (s.clockUp = true → clk ≤ 1500 → core ≤ 1500 →
      Does (.sensorRead clk core quads) s ([.thm, .irq, .regs .tic, .regs .traverse, .regs .port] ++ raising) (fun t =>
        t.thm.clk = clk ∧ t.thm.core = core ∧ t.fb Fld.TRV_STAT.DERATED = t.derated ∧
        ∀ i y, quads[i]? = some y → SMap.get (fun _ => y + 1) t.thm.quad i = y)) ∧
    (s.clockUp = true → 1600 ≤ core → ∃ t, exec (.sensorRead clk core quads) s = .next t ∧ t.coreUp = false ∧ t.thm.core = core ∧
      t.datum = s.datum ∧ t.pending = s.pending)
end

