-- ==== Sys2Proof/Laws/Store.lean ====
section
/-!
SUPPORT. Laws/Store.lean: the laws of a sparse store: a read after a write of the same key gives the value, a write leaves the
other keys alone, and writes and filters keep the canonical form.
-/
namespace Sys2Proof.Machine

theorem SMap.find_erase_same {κ α : Type} [DecidableEq κ] (m : SMap κ α) (k : κ) : SMap.find (SMap.erase m k) k = none := by
  induction m with
  | nil => rfl
  | cons e r ih =>
    obtain ⟨k', v⟩ := e
    by_cases h : k' = k
    · simp [SMap.erase, h, ih]
    · simp [SMap.erase, SMap.find, h, ih]

theorem SMap.find_erase_other {κ α : Type} [DecidableEq κ] (m : SMap κ α) (k j : κ) (hj : j ≠ k) :
    SMap.find (SMap.erase m k) j = SMap.find m j := by
  induction m with
  | nil => rfl
  | cons e r ih =>
    obtain ⟨k', v⟩ := e
    by_cases h : k' = k
    · have hk : k' ≠ j := fun hh => hj (hh.symm.trans h)
      simp only [SMap.erase, h, if_true, ih, SMap.find]
      rw [if_neg (fun hh => hj hh.symm)]
    · simp [SMap.erase, SMap.find, h, ih]

theorem SMap.find_insert_same {κ α : Type} [DecidableEq κ] (ord : κ → Nat) (m : SMap κ α) (k : κ) (v : α) :
    SMap.find (SMap.insert ord m k v) k = some v := by
  induction m with
  | nil => simp [SMap.insert, SMap.find]
  | cons e r ih =>
    obtain ⟨k', v'⟩ := e
    simp only [SMap.insert]
    split
    · simp [SMap.find]
    · split
      · simp [SMap.find]
      · simp [SMap.find, *]

theorem SMap.find_insert_other {κ α : Type} [DecidableEq κ] (ord : κ → Nat) (m : SMap κ α) (k j : κ) (v : α) (hj : j ≠ k) :
    SMap.find (SMap.insert ord m k v) j = SMap.find m j := by
  induction m with
  | nil => simp [SMap.insert, SMap.find, hj.symm]
  | cons e r ih =>
    obtain ⟨k', v'⟩ := e
    simp only [SMap.insert]
    split
    · next h => subst h; simp [SMap.find, hj.symm]
    · split
      · simp [SMap.find, hj.symm]
      · simp [SMap.find, ih]

/-- A key reads as what was last written to it. -/
@[simp] theorem SMap.get_set_same {κ α : Type} [DecidableEq κ] [DecidableEq α] (ord : κ → Nat) (d : κ → α) (m : SMap κ α)
    (k : κ) (v : α) : SMap.get d (SMap.set ord d m k v) k = v := by
  unfold SMap.get SMap.set
  split
  · next h => simp [SMap.find_erase_same, h]
  · simp [SMap.find_insert_same]

/-- A write leaves every other key alone. -/
theorem SMap.get_set_other {κ α : Type} [DecidableEq κ] [DecidableEq α] (ord : κ → Nat) (d : κ → α) (m : SMap κ α)
    (k j : κ) (v : α) (hj : j ≠ k) : SMap.get d (SMap.set ord d m k v) j = SMap.get d m j := by
  unfold SMap.get SMap.set
  split
  · simp [SMap.find_erase_other _ _ _ hj]
  · simp [SMap.find_insert_other _ _ _ _ _ hj]

theorem SMap.mem_erase {κ α : Type} [DecidableEq κ] {m : SMap κ α} {k : κ} {e : κ × α} (h : e ∈ SMap.erase m k) : e ∈ m := by
  induction m with
  | nil => simp [SMap.erase] at h
  | cons e' r ih =>
    obtain ⟨k', v⟩ := e'
    simp only [SMap.erase] at h
    split at h
    · exact List.mem_cons_of_mem _ (ih h)
    · rcases List.mem_cons.1 h with h | h
      · exact h ▸ List.mem_cons_self
      · exact List.mem_cons_of_mem _ (ih h)

theorem SMap.mem_insert {κ α : Type} [DecidableEq κ] {ord : κ → Nat} {m : SMap κ α} {k : κ} {v : α} {e : κ × α}
    (h : e ∈ SMap.insert ord m k v) : e = (k, v) ∨ e ∈ m := by
  induction m with
  | nil => simpa [SMap.insert] using h
  | cons e' r ih =>
    obtain ⟨k', v'⟩ := e'
    simp only [SMap.insert] at h
    split at h
    · rcases List.mem_cons.1 h with h | h
      · exact .inl h
      · exact .inr (List.mem_cons_of_mem _ h)
    · split at h
      · rcases List.mem_cons.1 h with h | h
        · exact .inl h
        · exact .inr h
      · rcases List.mem_cons.1 h with h | h
        · exact .inr (h ▸ List.mem_cons_self)
        · rcases ih h with h | h
          · exact .inl h
          · exact .inr (List.mem_cons_of_mem _ h)

/-- The canonical form, as two facts. -/
theorem SMap.wf_iff {κ α : Type} [DecidableEq α] (ord : κ → Nat) (d : κ → α) (m : SMap κ α) :
    SMap.wf ord d m = true ↔ List.Pairwise (fun a b : κ × α => ord a.1 < ord b.1) m ∧ ∀ e ∈ m, e.2 ≠ d e.1 := by
  simp [SMap.wf]

theorem SMap.wf_nil {κ α : Type} [DecidableEq α] (ord : κ → Nat) (d : κ → α) : SMap.wf ord d ([] : SMap κ α) = true := by
  simp [SMap.wf]

theorem SMap.pairwise_erase {κ α : Type} [DecidableEq κ] {R : κ × α → κ × α → Prop} {m : SMap κ α} (k : κ)
    (h : List.Pairwise R m) : List.Pairwise R (SMap.erase m k) := by
  induction m with
  | nil => exact h
  | cons e r ih =>
    obtain ⟨k', v⟩ := e
    rw [List.pairwise_cons] at h
    simp only [SMap.erase]
    split
    · exact ih h.2
    · exact List.pairwise_cons.2 ⟨fun e he => h.1 e (SMap.mem_erase he), ih h.2⟩

theorem SMap.pairwise_insert {κ α : Type} [DecidableEq κ] {ord : κ → Nat} (inj : ∀ a b, ord a = ord b → a = b) {m : SMap κ α}
    (k : κ) (v : α) (h : List.Pairwise (fun a b : κ × α => ord a.1 < ord b.1) m) :
    List.Pairwise (fun a b : κ × α => ord a.1 < ord b.1) (SMap.insert ord m k v) := by
  induction m with
  | nil => simp [SMap.insert]
  | cons e r ih =>
    obtain ⟨k', v'⟩ := e
    have h' := List.pairwise_cons.1 h
    simp only [SMap.insert]
    split
    · next hk => subst hk; exact List.pairwise_cons.2 ⟨h'.1, h'.2⟩
    · next hk =>
      split
      · next hl =>
        refine List.pairwise_cons.2 ⟨fun e he => ?_, h⟩
        rcases List.mem_cons.1 he with he | he
        · subst he; exact hl
        · exact Nat.lt_trans hl (h'.1 e he)
      · next hl =>
        refine List.pairwise_cons.2 ⟨fun e he => ?_, ih h'.2⟩
        rcases SMap.mem_insert he with he | he
        · subst he
          have : ord k' ≠ ord k := fun hh => hk (inj _ _ hh)
          simp only at *
          omega
        · exact h'.1 e he

/-- A write keeps the canonical form. -/
theorem SMap.wf_set {κ α : Type} [DecidableEq κ] [DecidableEq α] {ord : κ → Nat} (inj : ∀ a b, ord a = ord b → a = b)
    {d : κ → α} {m : SMap κ α} (k : κ) (v : α) (h : SMap.wf ord d m = true) : SMap.wf ord d (SMap.set ord d m k v) = true := by
  rw [SMap.wf_iff] at h ⊢
  unfold SMap.set
  split
  · exact ⟨SMap.pairwise_erase k h.1, fun e he => h.2 e (SMap.mem_erase he)⟩
  · next hv =>
    refine ⟨SMap.pairwise_insert inj k v h.1, fun e he => ?_⟩
    rcases SMap.mem_insert he with he | he
    · subst he; exact hv
    · exact h.2 e he

/-- A filter keeps the canonical form. -/
theorem SMap.wf_filter {κ α : Type} [DecidableEq α] {ord : κ → Nat} {d : κ → α} {m : SMap κ α} (p : κ × α → Bool)
    (h : SMap.wf ord d m = true) : SMap.wf ord d (m.filter p) = true := by
  rw [SMap.wf_iff] at h ⊢
  exact ⟨h.1.filter p, fun e he => h.2 e (List.mem_filter.1 he).1⟩

end Sys2Proof.Machine
end

