-- ==== Sys2Proof/Laws/Keeps.lean ====
section
/-!
SUPPORT. Laws/Keeps.lean: what every operation of the engine keeps, said once as a relation between the state before and the state
after: the queue of waiting commands, the canonical forms of memory and of the register file, the range of the Datum's nanoseconds,
the blown fuses, and every part of the state that the operation does not reach. The parts it may reach are the bits of a mask, by
their numbers.
-/
namespace Sys2Proof.Machine

theorem Fuses.Le.refl (f : Fuses) : Fuses.Le f f := ⟨id, id, id, id, id, id, fun _ => rfl, fun _ => rfl⟩

theorem Fuses.Le.trans {f g h : Fuses} (a : Fuses.Le f g) (b : Fuses.Le g h) : Fuses.Le f h where
  lcP x := b.lcP (a.lcP x)
  lcF x := b.lcF (a.lcF x)
  lcR x := b.lcR (a.lcR x)
  owner x := b.owner (a.owner x)
  inv x := b.inv (a.inv x)
  obs x := b.obs (a.obs x)
  prio x := (b.prio (by rw [a.prio x]; exact x)).trans (a.prio x)
  dfdt x := (b.dfdt (by rw [a.dfdt x]; exact x)).trans (a.dfdt x)

theorem Fuses.le_inv (f : Fuses) : Fuses.Le f { f with invKill := true } := by constructor <;> simp

theorem Fuses.le_kills (f : Fuses) : Fuses.Le f { f with invKill := true, obsKill := true } := by constructor <;> simp

theorem Fuses.le_prio (f : Fuses) (v : Option (BitVec 8)) (h : ¬ f.matPrio.isSome = true) : Fuses.Le f { f with matPrio := v } := by
  constructor <;> simp_all

theorem Fuses.le_dfdt (f : Fuses) (v : Option Nat) (h : ¬ f.dfdtCeil.isSome = true) : Fuses.Le f { f with dfdtCeil := v } := by
  constructor <;> simp_all

theorem Fuses.le_owner (f : Fuses) (o : List Byte) : Fuses.Le f { f with owner := o, ownerSet := true, lcP := true } := by
  constructor <;> simp

theorem Fuses.le_field (f : Fuses) : Fuses.Le f { f with lcF := true } := by constructor <;> simp

theorem Fuses.le_retire (f : Fuses) : Fuses.Le f { f with lcR := true } := by constructor <;> simp

/-- The nanoseconds of an instant lie below one second. -/
theorem TimeVal.ofCount_ns (n : Nat) : (TimeVal.ofCount n).ns.toNat < 1000000000 := by
  simp only [TimeVal.ofCount, BitVec.toNat_ofNat]
  omega

/-- The number of a group of registers. -/
def RegGroup.num : RegGroup → Nat
  | .own => 0
  | .top => 1
  | .host => 2
  | .fltRec => 3
  | .fault => 4
  | .irqStat => 5
  | .irq => 6
  | .damper => 7
  | .key => 8
  | .power => 9
  | .mate => 10
  | .memory => 11
  | .datum => 12
  | .tic => 13
  | .ens => 14
  | .traverse => 15
  | .syn => 16
  | .gns => 17
  | .port => 18
  | .service => 19
  | .stoker => 20
  | .pmc => 21

/-- The number of a part: its bit in a mask. -/
def Part.num : Part → Nat
  | .copy => 0
  | .mem => 1
  | .datum => 2
  | .replica => 3
  | .replicaOk => 4
  | .d2dUp => 5
  | .tick => 6
  | .timeline => 7
  | .threads => 8
  | .images => 9
  | .frames => 10
  | .launches => 11
  | .jobs => 12
  | .derived => 13
  | .irq => 14
  | .dtm => 15
  | .flt => 16
  | .hst => 17
  | .trv => 18
  | .tic => 19
  | .ens => 20
  | .thm => 21
  | .syn => 22
  | .gns => 23
  | .prt => 24
  | .key => 25
  | .mat => 26
  | .pmc => 27
  | .svc => 28
  | .pwr => 29
  | .cairn => 30
  | .secDone => 31
  | .freeCtr => 32
  | .regs g => 33 + g.num

/-- The bit of a register's group. -/
def Reg.bit (r : Reg) : Nat := 2 ^ (33 + r.group.num)

/-- A part whose bit is not in a mask is the same. -/
def Same {α : Type} (m k : Nat) (a b : α) : Prop := m.testBit k = false → a = b

theorem same_rfl {α : Type} {m k : Nat} {a : α} : Same m k a a := fun _ => rfl

theorem same_trans {α : Type} {m k : Nat} {a b c : α} (h : Same m k a b) (g : Same m k b c) : Same m k a c :=
  fun x => (h x).trans (g x)

/-- A mask within a mask. -/
theorem mask_sub {a b m : Nat} (h : a &&& b = a) (hm : b &&& m = b) : a &&& m = a := by
  rw [← h, Nat.land_assoc, hm]

/-- A mask of all parts holds the bit of every register. -/
theorem Reg.bit_all (r : Reg) {m : Nat} (hm : 0x7FFFFFFFFFFFFF &&& m = 0x7FFFFFFFFFFFFF) : r.bit &&& m = r.bit :=
  mask_sub (by unfold Reg.bit; generalize r.group = g; cases g <;> decide) hm

theorem mask_bit {b m k : Nat} (h : b.testBit k = true) (hm : b &&& m = b) : m.testBit k = true := by
  have := congrArg (fun n => n.testBit k) hm
  simp only [Nat.testBit_and, h, Bool.true_and] at this
  exact this

theorem same_bit {α : Type} {b m k : Nat} {x y : α} (h : b.testBit k = true) (hm : b &&& m = b) : Same m k x y := by
  intro hk
  rw [mask_bit h hm] at hk
  exact absurd hk (by decide)

/-- What an operation keeps. -/
structure Keeps (m : Nat) (z t : State) : Prop where
  pending : t.pending = z.pending
  mem     : Memory.wf z.mem = true → Memory.wf t.mem = true
  regs    : RegFile.wf z.regs = true → RegFile.wf t.regs = true
  datum   : z.datum.word.ns.toNat < 1000000000 → t.datum.word.ns.toNat < 1000000000
  fuses   : Fuses.Le z.pwr.fuses t.pwr.fuses
  same    : ∀ p : Part, m.testBit p.num = false → p.Same z t

theorem Part.same_refl (p : Part) (s : State) : p.Same s s := by
  cases p <;> first | rfl | exact fun _ _ _ => rfl

theorem Part.same_trans {p : Part} {a b c : State} (h : p.Same a b) (g : p.Same b c) : p.Same a c := by
  cases p <;> first | exact Eq.trans g h | exact fun r i e => (g r i e).trans (h r i e)

theorem Keeps.refl (m : Nat) (s : State) : Keeps m s s := ⟨rfl, id, id, id, Fuses.Le.refl _, fun p _ => p.same_refl s⟩

theorem Keeps.trans {m : Nat} {a b c : State} (h : Keeps m a b) (k : Keeps m b c) : Keeps m a c :=
  ⟨k.pending.trans h.pending, fun x => k.mem (h.mem x), fun x => k.regs (h.regs x), fun x => k.datum (h.datum x),
    h.fuses.trans k.fuses, fun p hp => Part.same_trans (h.same p hp) (k.same p hp)⟩

/-- A smaller mask keeps more. -/
theorem Keeps.mono {a b : Nat} {z t : State} (h : Keeps a z t) (hm : a &&& b = a) : Keeps b z t := by
  refine ⟨h.pending, h.mem, h.regs, h.datum, h.fuses, fun p hp => h.same p ?_⟩
  cases hk : a.testBit p.num with
  | false => rfl
  | true => rw [mask_bit hk hm] at hp; exact absurd hp (by decide)

/-- A frame from a mask: the parts whose bits it holds are listed. -/
theorem Keeps.only {m : Nat} {l : List Part} {z t : State} (h : Keeps m z t)
    (hl : ∀ p : Part, m.testBit p.num = true → p ∈ l) : Only l z t := by
  refine ⟨h.pending, fun p hp => h.same p ?_⟩
  cases hk : m.testBit p.num with
  | false => rfl
  | true => exact absurd (hl p hk) hp

/-- What an answer keeps. -/
def OutKeeps (m : Nat) (z : State) (o : Out) : Prop :=
  match o with
  | .next t => Keeps m z t
  | _ => True

theorem OutKeeps_next {m : Nat} {z t : State} (h : Keeps m z t) : OutKeeps m z (.next t) := h

/-- A fact about an intermediate state, then the goal from it. -/
theorem keeps_cut {G : Prop} {m : Nat} {z x : State} (h : Keeps m z x) (k : Keeps m z x → G) : G := k h

/-- Either branch of a choice. -/
theorem keeps_ite {m : Nat} {z a b : State} {c : Prop} [Decidable c] (ha : Keeps m z a) (hb : Keeps m z b) :
    Keeps m z (if c then a else b) := by
  split
  · exact ha
  · exact hb

/-- Either branch of a choice of a state with something beside it, with the condition at hand. -/
theorem keeps_ite_fst {β : Type} {m : Nat} {z : State} {a b : State × β} {c : Prop} [Decidable c] (ha : c → Keeps m z a.1)
    (hb : ¬ c → Keeps m z b.1) : Keeps m z (if c then a else b).1 := by
  split
  · next h => exact ha h
  · next h => exact hb h

/-- What is kept of a state written out, field by field: a name for it that shows its form. -/
def KeepsMk (m : Nat) (z : State) (regs : RegFile) (copy : RegFile) (mem : List Host.Cell) (datum replica : Datum)
    (replicaOk d2dUp : Bool) (tick : Nat) (timeline : SMap Nat Slot) (threads : SMap Nat Thread) (images : SMap Nat Image)
    (frames : SMap Nat Frame) (launches : SMap Nat Launch) (jobs : SMap Nat (List CryptoJob)) (derived : SMap Nat DerivedKey)
    (irq : SMap Nat IrqDyn) (dtm : DtmState) (flt : FltState) (hst : HstState) (trv : TrvState) (tic : TicState) (ens : EnsState)
    (thm : ThmState) (syn : SynState) (gns : GnsState) (prt : PrtState) (key : KeyState) (mat : MatState) (pmc : PmcState)
    (svc : SvcState) (pwr : PwrState) (cairn : Cairn) (secDone : SMap Nat Nat) (freeCtr : Nat) (pending : List Instr) : Prop :=
  Keeps m z (State.mk regs copy mem datum replica replicaOk d2dUp tick timeline threads images frames launches jobs derived irq dtm flt hst trv tic ens thm syn gns prt key mat pmc svc pwr cairn secDone freeCtr pending)

theorem keeps_mk {m : Nat} {z : State} {regs copy mem datum replica replicaOk d2dUp tick timeline threads images frames launches jobs derived irq dtm flt hst trv tic ens thm syn gns prt key mat pmc svc pwr cairn secDone freeCtr pending} :
    Keeps m z (State.mk regs copy mem datum replica replicaOk d2dUp tick timeline threads images frames launches jobs derived irq dtm flt hst trv tic ens thm syn gns prt key mat pmc svc pwr cairn secDone freeCtr pending) = KeepsMk m z regs copy mem datum replica replicaOk d2dUp tick timeline threads images frames launches jobs derived irq dtm flt hst trv tic ens thm syn gns prt key mat pmc svc pwr cairn secDone freeCtr pending :=
  propext Iff.rfl

/-- An update of fields whose bits a mask holds; the fuses must not go back and the Datum's nanoseconds stay in range. -/
theorem keeps_upd {m : Nat} {z u : State} {copy mem datum replica replicaOk d2dUp tick timeline threads images frames launches jobs derived irq dtm flt hst trv tic ens thm syn gns prt key mat pmc svc pwr cairn secDone freeCtr} (h : Keeps m z u)
    (h_copy : Same m 0 copy u.copy)
    (h_mem : Same m 1 mem u.mem)
    (h_datum : Same m 2 datum u.datum)
    (h_replica : Same m 3 replica u.replica)
    (h_replicaOk : Same m 4 replicaOk u.replicaOk)
    (h_d2dUp : Same m 5 d2dUp u.d2dUp)
    (h_tick : Same m 6 tick u.tick)
    (h_timeline : Same m 7 timeline u.timeline)
    (h_threads : Same m 8 threads u.threads)
    (h_images : Same m 9 images u.images)
    (h_frames : Same m 10 frames u.frames)
    (h_launches : Same m 11 launches u.launches)
    (h_jobs : Same m 12 jobs u.jobs)
    (h_derived : Same m 13 derived u.derived)
    (h_irq : Same m 14 irq u.irq)
    (h_dtm : Same m 15 dtm u.dtm)
    (h_flt : Same m 16 flt u.flt)
    (h_hst : Same m 17 hst u.hst)
    (h_trv : Same m 18 trv u.trv)
    (h_tic : Same m 19 tic u.tic)
    (h_ens : Same m 20 ens u.ens)
    (h_thm : Same m 21 thm u.thm)
    (h_syn : Same m 22 syn u.syn)
    (h_gns : Same m 23 gns u.gns)
    (h_prt : Same m 24 prt u.prt)
    (h_key : Same m 25 key u.key)
    (h_mat : Same m 26 mat u.mat)
    (h_pmc : Same m 27 pmc u.pmc)
    (h_svc : Same m 28 svc u.svc)
    (h_pwr : Same m 29 pwr u.pwr)
    (h_cairn : Same m 30 cairn u.cairn)
    (h_secDone : Same m 31 secDone u.secDone)
    (h_freeCtr : Same m 32 freeCtr u.freeCtr)
    (hw : Memory.wf u.mem = true → Memory.wf mem = true)
    (hd : u.datum.word.ns.toNat < 1000000000 → datum.word.ns.toNat < 1000000000) (hf : Fuses.Le u.pwr.fuses pwr.fuses) :
    KeepsMk m z u.regs copy mem datum replica replicaOk d2dUp tick timeline threads images frames launches jobs derived irq dtm flt hst trv tic ens thm syn gns prt key mat pmc svc pwr cairn secDone freeCtr u.pending := by
  refine ⟨h.pending, fun x => hw (h.mem x), h.regs, fun x => hd (h.datum x), h.fuses.trans hf, fun p hp => Part.same_trans (h.same p hp) ?_⟩
  cases p with
  | copy => exact h_copy hp
  | mem => exact h_mem hp
  | datum => exact h_datum hp
  | replica => exact h_replica hp
  | replicaOk => exact h_replicaOk hp
  | d2dUp => exact h_d2dUp hp
  | tick => exact h_tick hp
  | timeline => exact h_timeline hp
  | threads => exact h_threads hp
  | images => exact h_images hp
  | frames => exact h_frames hp
  | launches => exact h_launches hp
  | jobs => exact h_jobs hp
  | derived => exact h_derived hp
  | irq => exact h_irq hp
  | dtm => exact h_dtm hp
  | flt => exact h_flt hp
  | hst => exact h_hst hp
  | trv => exact h_trv hp
  | tic => exact h_tic hp
  | ens => exact h_ens hp
  | thm => exact h_thm hp
  | syn => exact h_syn hp
  | gns => exact h_gns hp
  | prt => exact h_prt hp
  | key => exact h_key hp
  | mat => exact h_mat hp
  | pmc => exact h_pmc hp
  | svc => exact h_svc hp
  | pwr => exact h_pwr hp
  | cairn => exact h_cairn hp
  | secDone => exact h_secDone hp
  | freeCtr => exact h_freeCtr hp
  | regs g => exact fun _ _ _ => rfl

/-- The same where the register file is filtered: every group of registers may change. -/
theorem keeps_updF {m : Nat} {z u : State} {regs copy mem datum replica replicaOk d2dUp tick timeline threads images frames launches jobs derived irq dtm flt hst trv tic ens thm syn gns prt key mat pmc svc pwr cairn secDone freeCtr} (h : Keeps m z u)
    (hr : RegFile.wf u.regs = true → RegFile.wf regs = true) (hg : 0x7FFFFE00000000 &&& m = 0x7FFFFE00000000)
    (h_copy : Same m 0 copy u.copy)
    (h_mem : Same m 1 mem u.mem)
    (h_datum : Same m 2 datum u.datum)
    (h_replica : Same m 3 replica u.replica)
    (h_replicaOk : Same m 4 replicaOk u.replicaOk)
    (h_d2dUp : Same m 5 d2dUp u.d2dUp)
    (h_tick : Same m 6 tick u.tick)
    (h_timeline : Same m 7 timeline u.timeline)
    (h_threads : Same m 8 threads u.threads)
    (h_images : Same m 9 images u.images)
    (h_frames : Same m 10 frames u.frames)
    (h_launches : Same m 11 launches u.launches)
    (h_jobs : Same m 12 jobs u.jobs)
    (h_derived : Same m 13 derived u.derived)
    (h_irq : Same m 14 irq u.irq)
    (h_dtm : Same m 15 dtm u.dtm)
    (h_flt : Same m 16 flt u.flt)
    (h_hst : Same m 17 hst u.hst)
    (h_trv : Same m 18 trv u.trv)
    (h_tic : Same m 19 tic u.tic)
    (h_ens : Same m 20 ens u.ens)
    (h_thm : Same m 21 thm u.thm)
    (h_syn : Same m 22 syn u.syn)
    (h_gns : Same m 23 gns u.gns)
    (h_prt : Same m 24 prt u.prt)
    (h_key : Same m 25 key u.key)
    (h_mat : Same m 26 mat u.mat)
    (h_pmc : Same m 27 pmc u.pmc)
    (h_svc : Same m 28 svc u.svc)
    (h_pwr : Same m 29 pwr u.pwr)
    (h_cairn : Same m 30 cairn u.cairn)
    (h_secDone : Same m 31 secDone u.secDone)
    (h_freeCtr : Same m 32 freeCtr u.freeCtr)
    (hw : Memory.wf u.mem = true → Memory.wf mem = true)
    (hd : u.datum.word.ns.toNat < 1000000000 → datum.word.ns.toNat < 1000000000) (hf : Fuses.Le u.pwr.fuses pwr.fuses) :
    KeepsMk m z regs copy mem datum replica replicaOk d2dUp tick timeline threads images frames launches jobs derived irq dtm flt hst trv tic ens thm syn gns prt key mat pmc svc pwr cairn secDone freeCtr u.pending := by
  refine ⟨h.pending, fun x => hw (h.mem x), fun x => hr (h.regs x), fun x => hd (h.datum x), h.fuses.trans hf, fun p hp => ?_⟩
  cases p with
  | copy => exact Part.same_trans (p := .copy) (h.same .copy hp) (h_copy hp)
  | mem => exact Part.same_trans (p := .mem) (h.same .mem hp) (h_mem hp)
  | datum => exact Part.same_trans (p := .datum) (h.same .datum hp) (h_datum hp)
  | replica => exact Part.same_trans (p := .replica) (h.same .replica hp) (h_replica hp)
  | replicaOk => exact Part.same_trans (p := .replicaOk) (h.same .replicaOk hp) (h_replicaOk hp)
  | d2dUp => exact Part.same_trans (p := .d2dUp) (h.same .d2dUp hp) (h_d2dUp hp)
  | tick => exact Part.same_trans (p := .tick) (h.same .tick hp) (h_tick hp)
  | timeline => exact Part.same_trans (p := .timeline) (h.same .timeline hp) (h_timeline hp)
  | threads => exact Part.same_trans (p := .threads) (h.same .threads hp) (h_threads hp)
  | images => exact Part.same_trans (p := .images) (h.same .images hp) (h_images hp)
  | frames => exact Part.same_trans (p := .frames) (h.same .frames hp) (h_frames hp)
  | launches => exact Part.same_trans (p := .launches) (h.same .launches hp) (h_launches hp)
  | jobs => exact Part.same_trans (p := .jobs) (h.same .jobs hp) (h_jobs hp)
  | derived => exact Part.same_trans (p := .derived) (h.same .derived hp) (h_derived hp)
  | irq => exact Part.same_trans (p := .irq) (h.same .irq hp) (h_irq hp)
  | dtm => exact Part.same_trans (p := .dtm) (h.same .dtm hp) (h_dtm hp)
  | flt => exact Part.same_trans (p := .flt) (h.same .flt hp) (h_flt hp)
  | hst => exact Part.same_trans (p := .hst) (h.same .hst hp) (h_hst hp)
  | trv => exact Part.same_trans (p := .trv) (h.same .trv hp) (h_trv hp)
  | tic => exact Part.same_trans (p := .tic) (h.same .tic hp) (h_tic hp)
  | ens => exact Part.same_trans (p := .ens) (h.same .ens hp) (h_ens hp)
  | thm => exact Part.same_trans (p := .thm) (h.same .thm hp) (h_thm hp)
  | syn => exact Part.same_trans (p := .syn) (h.same .syn hp) (h_syn hp)
  | gns => exact Part.same_trans (p := .gns) (h.same .gns hp) (h_gns hp)
  | prt => exact Part.same_trans (p := .prt) (h.same .prt hp) (h_prt hp)
  | key => exact Part.same_trans (p := .key) (h.same .key hp) (h_key hp)
  | mat => exact Part.same_trans (p := .mat) (h.same .mat hp) (h_mat hp)
  | pmc => exact Part.same_trans (p := .pmc) (h.same .pmc hp) (h_pmc hp)
  | svc => exact Part.same_trans (p := .svc) (h.same .svc hp) (h_svc hp)
  | pwr => exact Part.same_trans (p := .pwr) (h.same .pwr hp) (h_pwr hp)
  | cairn => exact Part.same_trans (p := .cairn) (h.same .cairn hp) (h_cairn hp)
  | secDone => exact Part.same_trans (p := .secDone) (h.same .secDone hp) (h_secDone hp)
  | freeCtr => exact Part.same_trans (p := .freeCtr) (h.same .freeCtr hp) (h_freeCtr hp)
  | regs g => exact absurd ((mask_bit (by cases g <;> decide) hg).symm.trans hp) (by decide)

/-- A fold of steps that each keep it. -/
theorem keeps_foldl {α : Type} {m : Nat} {z : State} {f : State → α → State} {l : List α} {u : State} (h : Keeps m z u)
    (hf : ∀ t x, Keeps m z t → Keeps m z (f t x)) : Keeps m z (l.foldl f u) := by
  induction l generalizing u with
  | nil => exact h
  | cons x r ih => exact ih (hf _ _ h)

/-- A fold that carries more than the state. -/
theorem keeps_foldl_fst {α β : Type} {m : Nat} {z : State} {f : State × β → α → State × β} {l : List α} {u : State × β} (h : Keeps m z u.1)
    (hf : ∀ t x, Keeps m z t.1 → Keeps m z (f t x).1) : Keeps m z (l.foldl f u).1 := by
  induction l generalizing u with
  | nil => exact h
  | cons x r ih => exact ih (hf _ _ h)

/-- A choice between a state that may be missing and another. -/
theorem keeps_getD {m : Nat} {z u : State} {o : Option State} (h : Keeps m z u) (ho : ∀ t, o = some t → Keeps m z t) :
    Keeps m z (o.getD u) := by
  cases o with
  | none => exact h
  | some t => exact ho t rfl

theorem keeps_pair {β : Type} {m : Nat} {z s : State} {b : β} (h : Keeps m z s) : Keeps m z (s, b).1 := h

theorem keeps_of_fst {β : Type} {m : Nat} {z : State} {p : State × β} {s : State} {b : β} (e : p = (s, b)) (h : Keeps m z p.1) : Keeps m z s := by
  subst e; exact h

theorem keeps_of_snd {β : Type} {m : Nat} {z : State} {p : β × State} {s : State} {b : β} (e : p = (b, s)) (h : Keeps m z p.2) : Keeps m z s := by
  subst e; exact h

/-- Register numbers lie below 1024. -/
theorem Reg.num_lt (r : Reg) : r.num < 1024 := by cases r <;> decide

/-- A register group is found at its number. -/
theorem Reg.all_num (r : Reg) : Reg.all[r.num]? = some r := by cases r <;> rfl

theorem Reg.num_inj (r q : Reg) (h : r.num = q.num) : r = q := by
  have hr := Reg.all_num r
  rw [h, Reg.all_num q] at hr
  exact (Option.some.inj hr).symm

theorem RegKey.ord_inj (a b : RegKey) (h : a.ord = b.ord) : a = b := by
  obtain ⟨r, i⟩ := a
  obtain ⟨q, j⟩ := b
  have h1 := Reg.num_lt r
  have h2 := Reg.num_lt q
  simp only [RegKey.ord] at h
  have hi : i = j := by omega
  have hn : r.num = q.num := by omega
  subst hi
  have hr : r = q := Reg.num_inj r q hn
  subst hr; rfl

theorem State.rg_wr_same (s : State) (r : Reg) (i : Nat) (v : BitVec 32) : (s.wr r i v).rg r i = v := SMap.get_set_same _ _ _ _ _

theorem State.rg_wr_other (s : State) (r q : Reg) (i j : Nat) (v : BitVec 32) (h : r ≠ q ∨ i ≠ j) :
    (s.wr r i v).rg q j = s.rg q j := by
  refine SMap.get_set_other _ _ _ _ _ _ ?_
  intro e
  injection e with e1 e2
  rcases h with h | h
  · exact h e1.symm
  · exact h e2.symm

theorem State.wr_keeps {m : Nat} {z s : State} (h : Keeps m z s) (r : Reg) (hm : r.bit &&& m = r.bit) (i : Nat) (v : BitVec 32) :
    Keeps m z (s.wr r i v) := by
  refine ⟨h.pending, h.mem, fun x => SMap.wf_set RegKey.ord_inj _ _ (h.regs x), h.datum, h.fuses, fun p hp => Part.same_trans (h.same p hp) ?_⟩
  cases p with
  | regs g =>
    intro q j e
    refine State.rg_wr_other s r q i j v (.inl ?_)
    intro hq
    subst hq; subst e
    exact absurd ((mask_bit (b := r.bit) (by simp [Reg.bit, Part.num]) hm).symm.trans hp) (by decide)
  | _ => rfl

theorem State.setOctet_keeps {m : Nat} {z s : State} (h : Keeps m z s) (hm : 0x2 &&& m = 0x2) (a : Nat) (v : Byte) :
    Keeps m z (s.setOctet a v) := by
  refine ⟨h.pending, fun x => SMap.wf_set (fun _ _ e => e) _ _ (h.mem x), h.regs, h.datum, h.fuses, fun p hp => Part.same_trans (h.same p hp) ?_⟩
  cases p with
  | mem => exact absurd ((mask_bit (k := 1) (by decide) hm).symm.trans hp) (by decide)
  | regs g => exact fun _ _ _ => rfl
  | _ => rfl

theorem State.store_keeps {m : Nat} {z : State} (bs : List Byte) : ∀ {s : State}, Keeps m z s → 0x2 &&& m = 0x2 → ∀ a,
    Keeps m z (s.store a bs) := by
  induction bs with
  | nil => intro s h _ a; exact h
  | cons b r ih => intro s h hm a; exact ih (State.setOctet_keeps h hm a b) hm _

end Sys2Proof.Machine
end

