-- ==== Sys2Proof/Laws/KeepsOps.lean ====
section
/-!
SUPPORT. Laws/KeepsOps.lean: what each operation keeps (Laws/Keeps.lean): the shared operations and those of the Datum, TIC, ensemble, synthesis, GNSS, port, memory and key blocks.
-/
set_option linter.all false
namespace Sys2Proof.Machine

/-! ### Machine/Ops.lean -/

theorem State.setF_keeps {m : Nat} {z s : State} {f : Fld} (h0 : Keeps m z s) (hm : 0x0 &&& m = 0x0) (hf_bit : f.reg.bit &&& m = f.reg.bit) (n : Nat) (i : Nat) : Keeps m z (State.setF s f n i) := by
  unfold State.setF
  repeat' first
    | with_reducible assumption
    | exact mask_sub (by decide) hm
    | with_reducible apply State.wr_keeps
    | (intro _)

theorem State.setB_keeps {m : Nat} {z s : State} {f : Fld} (h0 : Keeps m z s) (hm : 0x0 &&& m = 0x0) (hf_bit : f.reg.bit &&& m = f.reg.bit) (b : Bool) (i : Nat) : Keeps m z (State.setB s f b i) := by
  unfold State.setB
  repeat' first
    | with_reducible assumption
    | exact mask_sub (by decide) hm
    | with_reducible apply State.setF_keeps
    | (intro _)

theorem State.bump_keeps {m : Nat} {z s : State} {r : Reg} (h0 : Keeps m z s) (hm : 0x0 &&& m = 0x0) (hr_bit : r.bit &&& m = r.bit) (i : Nat) : Keeps m z (State.bump s r i) := by
  unfold State.bump
  repeat' first
    | with_reducible assumption
    | exact mask_sub (by decide) hm
    | with_reducible apply State.wr_keeps
    | (intro _)

theorem State.setPair_keeps {m : Nat} {z s : State} {hi : Reg} {lo : Reg} (h0 : Keeps m z s) (hm : 0x0 &&& m = 0x0) (hhi_bit : hi.bit &&& m = hi.bit) (hlo_bit : lo.bit &&& m = lo.bit) (v : BitVec 64) (i : Nat) : Keeps m z (State.setPair s hi lo v i) := by
  unfold State.setPair
  repeat' first
    | with_reducible assumption
    | exact mask_sub (by decide) hm
    | with_reducible apply State.wr_keeps
    | (intro _)

theorem State.w1c_keeps {m : Nat} {z s : State} {r : Reg} (h0 : Keeps m z s) (hm : 0x0 &&& m = 0x0) (hr_bit : r.bit &&& m = r.bit) (i : Nat) (v : BitVec 32) : Keeps m z (State.w1c s r i v) := by
  unfold State.w1c
  repeat' first
    | with_reducible assumption
    | exact mask_sub (by decide) hm
    | with_reducible apply State.wr_keeps
    | (intro _)

theorem State.wrRw_keeps {m : Nat} {z s : State} {r : Reg} (h0 : Keeps m z s) (hm : 0x0 &&& m = 0x0) (hr_bit : r.bit &&& m = r.bit) (i : Nat) (v : BitVec 32) : Keeps m z (State.wrRw s r i v) := by
  unfold State.wrRw
  repeat' first
    | (extract_lets +onlyGivenNames x; refine keeps_cut (m := m) (z := z) (x := x) ?_ (fun hx => ?_); rotate_left; generalize x = y at hx ⊢; clear x; rotate_left; subst x)
    | (extract_lets +onlyGivenNames x; first | (subst x) | skip)
    | with_reducible assumption
    | exact mask_sub (by decide) hm
    | with_reducible apply State.wr_keeps
    | (intro _)

theorem State.fresh_keeps {m : Nat} {z s : State} (h : Keeps m z s) (hm : 0x100000000 &&& m = 0x100000000) : Keeps m z (s.fresh).2 := by
  unfold State.fresh
  simp only [keeps_mk]
  refine keeps_upd h ?_ ?_ ?_ ?_ ?_ ?_ ?_ ?_ ?_ ?_ ?_ ?_ ?_ ?_ ?_ ?_ ?_ ?_ ?_ ?_ ?_ ?_ ?_ ?_ ?_ ?_ ?_ ?_ ?_ ?_ ?_ ?_ ?_ id id (Fuses.Le.refl _)
    <;> first | exact same_rfl | exact same_bit (by decide) hm

theorem State.storeMem_keeps {m : Nat} {z s : State} (h0 : Keeps m z s) (hm : 0x20002 &&& m = 0x20002) (a : Nat) (bs : List Byte) : Keeps m z (State.storeMem s a bs) := by
  unfold State.storeMem
  repeat' first
    | (extract_lets +onlyGivenNames x; refine keeps_cut (m := m) (z := z) (x := x) ?_ (fun hx => ?_); rotate_left; generalize x = y at hx ⊢; clear x; rotate_left; subst x)
    | (extract_lets +onlyGivenNames x; first | (subst x) | skip)
    | with_reducible assumption
    | exact mask_sub (by decide) hm
    | with_reducible apply State.store_keeps
    | (intro _)
    | (simp only [keeps_mk]; refine keeps_upd ?_ ?_ ?_ ?_ ?_ ?_ ?_ ?_ ?_ ?_ ?_ ?_ ?_ ?_ ?_ ?_ ?_ ?_ ?_ ?_ ?_ ?_ ?_ ?_ ?_ ?_ ?_ ?_ ?_ ?_ ?_ ?_ ?_ ?_ ?_ ?_ ?_ <;> first | exact same_rfl | exact same_bit (by decide) hm | exact id | exact Fuses.Le.refl _ | exact fun _ => TimeVal.ofCount_ns _ | exact fun h => SMap.wf_filter _ h | exact fun _ => SMap.wf_nil _ _ | skip)

theorem State.setThread_keeps {m : Nat} {z s : State} (h0 : Keeps m z s) (hm : 0x100 &&& m = 0x100) (n : Nat) (t : Thread) : Keeps m z (State.setThread s n t) := by
  unfold State.setThread
  repeat' first
    | (extract_lets +onlyGivenNames x; refine keeps_cut (m := m) (z := z) (x := x) ?_ (fun hx => ?_); rotate_left; generalize x = y at hx ⊢; clear x; rotate_left; subst x)
    | (extract_lets +onlyGivenNames x; first | (subst x) | skip)
    | with_reducible assumption
    | exact mask_sub (by decide) hm
    | (intro _)
    | (simp only [keeps_mk]; refine keeps_upd ?_ ?_ ?_ ?_ ?_ ?_ ?_ ?_ ?_ ?_ ?_ ?_ ?_ ?_ ?_ ?_ ?_ ?_ ?_ ?_ ?_ ?_ ?_ ?_ ?_ ?_ ?_ ?_ ?_ ?_ ?_ ?_ ?_ ?_ ?_ ?_ ?_ <;> first | exact same_rfl | exact same_bit (by decide) hm | exact id | exact Fuses.Le.refl _ | exact fun _ => TimeVal.ofCount_ns _ | exact fun h => SMap.wf_filter _ h | exact fun _ => SMap.wf_nil _ _ | skip)

theorem State.setIrqDyn_keeps {m : Nat} {z s : State} (h0 : Keeps m z s) (hm : 0x4000 &&& m = 0x4000) (n : Nat) (d : IrqDyn) : Keeps m z (State.setIrqDyn s n d) := by
  unfold State.setIrqDyn
  repeat' first
    | (extract_lets +onlyGivenNames x; refine keeps_cut (m := m) (z := z) (x := x) ?_ (fun hx => ?_); rotate_left; generalize x = y at hx ⊢; clear x; rotate_left; subst x)
    | (extract_lets +onlyGivenNames x; first | (subst x) | skip)
    | with_reducible assumption
    | exact mask_sub (by decide) hm
    | (intro _)
    | (simp only [keeps_mk]; refine keeps_upd ?_ ?_ ?_ ?_ ?_ ?_ ?_ ?_ ?_ ?_ ?_ ?_ ?_ ?_ ?_ ?_ ?_ ?_ ?_ ?_ ?_ ?_ ?_ ?_ ?_ ?_ ?_ ?_ ?_ ?_ ?_ ?_ ?_ ?_ ?_ ?_ ?_ <;> first | exact same_rfl | exact same_bit (by decide) hm | exact id | exact Fuses.Le.refl _ | exact fun _ => TimeVal.ofCount_ns _ | exact fun h => SMap.wf_filter _ h | exact fun _ => SMap.wf_nil _ _ | skip)

theorem State.irqLatch_keeps {m : Nat} {z s : State} (h0 : Keeps m z s) (hm : 0x4000000000 &&& m = 0x4000000000) (n detail : Nat) : Keeps m z (State.irqLatch s n detail) := by
  unfold State.irqLatch
  repeat' first
    | (extract_lets +onlyGivenNames x; refine keeps_cut (m := m) (z := z) (x := x) ?_ (fun hx => ?_); rotate_left; generalize x = y at hx ⊢; clear x; rotate_left; subst x)
    | (extract_lets +onlyGivenNames x; first | (subst x) | skip)
    | with_reducible assumption
    | exact mask_sub (by decide) hm
    | with_reducible apply State.setB_keeps
    | with_reducible apply State.setF_keeps
    | (intro _)
    | with_reducible apply keeps_ite

theorem State.irqPulse_keeps {m : Nat} {z s : State} (h0 : Keeps m z s) (hm : 0x4000000000 &&& m = 0x4000000000) (n detail : Nat) : Keeps m z (State.irqPulse s n detail) := by
  unfold State.irqPulse
  repeat' first
    | with_reducible assumption
    | exact mask_sub (by decide) hm
    | with_reducible apply State.irqLatch_keeps
    | (intro _)
    | with_reducible apply keeps_ite

theorem State.irqLine_keeps {m : Nat} {z s : State} (h0 : Keeps m z s) (hm : 0x4000004000 &&& m = 0x4000004000) (n : Nat) (b : Bool) : Keeps m z (State.irqLine s n b) := by
  unfold State.irqLine
  repeat' first
    | (extract_lets +onlyGivenNames x; refine keeps_cut (m := m) (z := z) (x := x) ?_ (fun hx => ?_); rotate_left; generalize x = y at hx ⊢; clear x; rotate_left; subst x)
    | (extract_lets +onlyGivenNames x; first | (subst x) | skip)
    | with_reducible assumption
    | exact mask_sub (by decide) hm
    | with_reducible apply State.irqPulse_keeps
    | with_reducible apply State.setIrqDyn_keeps
    | with_reducible apply State.setB_keeps
    | (intro _)
    | with_reducible apply keeps_ite

theorem State.setSlot_keeps {m : Nat} {z s : State} (h0 : Keeps m z s) (hm : 0x80 &&& m = 0x80) (h : Nat) (x : Slot) : Keeps m z (State.setSlot s h x) := by
  unfold State.setSlot
  repeat' first
    | (extract_lets +onlyGivenNames x; refine keeps_cut (m := m) (z := z) (x := x) ?_ (fun hx => ?_); rotate_left; generalize x = y at hx ⊢; clear x; rotate_left; subst x)
    | (extract_lets +onlyGivenNames x; first | (subst x) | skip)
    | with_reducible assumption
    | exact mask_sub (by decide) hm
    | (intro _)
    | (simp only [keeps_mk]; refine keeps_upd ?_ ?_ ?_ ?_ ?_ ?_ ?_ ?_ ?_ ?_ ?_ ?_ ?_ ?_ ?_ ?_ ?_ ?_ ?_ ?_ ?_ ?_ ?_ ?_ ?_ ?_ ?_ ?_ ?_ ?_ ?_ ?_ ?_ ?_ ?_ ?_ ?_ <;> first | exact same_rfl | exact same_bit (by decide) hm | exact id | exact Fuses.Le.refl _ | exact fun _ => TimeVal.ofCount_ns _ | exact fun h => SMap.wf_filter _ h | exact fun _ => SMap.wf_nil _ _ | skip)

theorem State.tlCount_keeps {m : Nat} {z s : State} (h0 : Keeps m z s) (hm : 0x200000000000 &&& m = 0x200000000000) : Keeps m z (State.tlCount s) := by
  unfold State.tlCount
  repeat' first
    | (extract_lets +onlyGivenNames x; refine keeps_cut (m := m) (z := z) (x := x) ?_ (fun hx => ?_); rotate_left; generalize x = y at hx ⊢; clear x; rotate_left; subst x)
    | (extract_lets +onlyGivenNames x; first | (subst x) | skip)
    | with_reducible assumption
    | exact mask_sub (by decide) hm
    | with_reducible apply State.wr_keeps
    | (intro _)
    | with_reducible apply keeps_ite

theorem State.armSlot_keeps {m : Nat} {z s : State} (h0 : Keeps m z s) (hm : 0x200000000080 &&& m = 0x200000000080) (h : Nat) (e : Event) : Keeps m z (State.armSlot s h e) := by
  unfold State.armSlot
  repeat' first
    | (extract_lets +onlyGivenNames x; refine keeps_cut (m := m) (z := z) (x := x) ?_ (fun hx => ?_); rotate_left; generalize x = y at hx ⊢; clear x; rotate_left; subst x)
    | (extract_lets +onlyGivenNames x; first | (subst x) | skip)
    | with_reducible assumption
    | exact mask_sub (by decide) hm
    | with_reducible apply State.tlCount_keeps
    | with_reducible apply State.setSlot_keeps
    | (intro _)

theorem State.freeSlot_keeps {m : Nat} {z s : State} (h0 : Keeps m z s) (hm : 0x200000000080 &&& m = 0x200000000080) (h : Nat) (fired : Bool) : Keeps m z (State.freeSlot s h fired) := by
  unfold State.freeSlot
  repeat' first
    | with_reducible assumption
    | exact mask_sub (by decide) hm
    | with_reducible apply State.tlCount_keeps
    | with_reducible apply State.setSlot_keeps
    | (intro _)
    | with_reducible apply keeps_ite
    | with_reducible apply keeps_ite_fst
    | (with_reducible apply keeps_pair)

theorem State.engineArm_keeps {m : Nat} {z s : State} (h0 : Keeps m z s) (hm : 0x200000000080 &&& m = 0x200000000080) (h : Nat) (at_ : TimeVal) : Keeps m z (State.engineArm s h at_) := by
  unfold State.engineArm
  repeat' first
    | with_reducible assumption
    | exact mask_sub (by decide) hm
    | with_reducible apply State.armSlot_keeps
    | (intro _)
    | (with_reducible apply keeps_pair)

theorem State.engineFree_keeps {m : Nat} {z s : State} (h0 : Keeps m z s) (hm : 0x200000000080 &&& m = 0x200000000080) (h : Nat) (fired : Bool) : Keeps m z (State.engineFree s h fired) := by
  unfold State.engineFree
  repeat' first
    | with_reducible assumption
    | exact mask_sub (by decide) hm
    | with_reducible apply State.freeSlot_keeps
    | (intro _)
    | with_reducible apply keeps_ite

theorem State.recordFault_keeps {m : Nat} {z s : State} (h0 : Keeps m z s) (hm : 0x5000010000 &&& m = 0x5000010000) (r : Raise) : Keeps m z (State.recordFault s r) := by
  unfold State.recordFault
  repeat' first
    | (extract_lets +onlyGivenNames x; refine keeps_cut (m := m) (z := z) (x := x) ?_ (fun hx => ?_); rotate_left; generalize x = y at hx ⊢; clear x; rotate_left; subst x)
    | (extract_lets +onlyGivenNames x; first | (subst x) | skip)
    | with_reducible assumption
    | exact mask_sub (by decide) hm
    | with_reducible apply State.irqPulse_keeps
    | with_reducible apply State.setPair_keeps
    | with_reducible apply State.wr_keeps
    | (intro _)
    | with_reducible apply keeps_ite
    | (simp only [keeps_mk]; refine keeps_upd ?_ ?_ ?_ ?_ ?_ ?_ ?_ ?_ ?_ ?_ ?_ ?_ ?_ ?_ ?_ ?_ ?_ ?_ ?_ ?_ ?_ ?_ ?_ ?_ ?_ ?_ ?_ ?_ ?_ ?_ ?_ ?_ ?_ ?_ ?_ ?_ ?_ <;> first | exact same_rfl | exact same_bit (by decide) hm | exact id | exact Fuses.Le.refl _ | exact fun _ => TimeVal.ofCount_ns _ | exact fun h => SMap.wf_filter _ h | exact fun _ => SMap.wf_nil _ _ | skip)
    | (split)

theorem State.armGrace_keeps {m : Nat} {z s : State} (h0 : Keeps m z s) (hm : 0x201000010080 &&& m = 0x201000010080) (i step : Nat) (from_ : TimeVal) : Keeps m z (State.armGrace s i step from_) := by
  unfold State.armGrace
  repeat' first
    | (extract_lets +onlyGivenNames x; refine keeps_cut (m := m) (z := z) (x := x) ?_ (fun hx => ?_); rotate_left; generalize x = y at hx ⊢; clear x; rotate_left; subst x)
    | (extract_lets +onlyGivenNames x; first | (subst x) | skip)
    | with_reducible assumption
    | exact mask_sub (by decide) hm
    | with_reducible apply State.engineArm_keeps
    | with_reducible apply State.setB_keeps
    | (intro _)
    | (simp only [keeps_mk]; refine keeps_upd ?_ ?_ ?_ ?_ ?_ ?_ ?_ ?_ ?_ ?_ ?_ ?_ ?_ ?_ ?_ ?_ ?_ ?_ ?_ ?_ ?_ ?_ ?_ ?_ ?_ ?_ ?_ ?_ ?_ ?_ ?_ ?_ ?_ ?_ ?_ ?_ ?_ <;> first | exact same_rfl | exact same_bit (by decide) hm | exact id | exact Fuses.Le.refl _ | exact fun _ => TimeVal.ofCount_ns _ | exact fun h => SMap.wf_filter _ h | exact fun _ => SMap.wf_nil _ _ | skip)
    | (with_reducible apply keeps_pair)

theorem State.stopGrace_keeps {m : Nat} {z s : State} (h0 : Keeps m z s) (hm : 0x201000010080 &&& m = 0x201000010080) (i : Nat) (fired : Bool) : Keeps m z (State.stopGrace s i fired) := by
  unfold State.stopGrace
  repeat' first
    | (extract_lets +onlyGivenNames x; refine keeps_cut (m := m) (z := z) (x := x) ?_ (fun hx => ?_); rotate_left; generalize x = y at hx ⊢; clear x; rotate_left; subst x)
    | (extract_lets +onlyGivenNames x; first | (subst x) | skip)
    | with_reducible assumption
    | exact mask_sub (by decide) hm
    | with_reducible apply State.engineFree_keeps
    | with_reducible apply State.setB_keeps
    | (intro _)
    | (simp only [keeps_mk]; refine keeps_upd ?_ ?_ ?_ ?_ ?_ ?_ ?_ ?_ ?_ ?_ ?_ ?_ ?_ ?_ ?_ ?_ ?_ ?_ ?_ ?_ ?_ ?_ ?_ ?_ ?_ ?_ ?_ ?_ ?_ ?_ ?_ ?_ ?_ ?_ ?_ ?_ ?_ <;> first | exact same_rfl | exact same_bit (by decide) hm | exact id | exact Fuses.Le.refl _ | exact fun _ => TimeVal.ofCount_ns _ | exact fun h => SMap.wf_filter _ h | exact fun _ => SMap.wf_nil _ _ | skip)

theorem State.claim_keeps {m : Nat} {z s : State} (h0 : Keeps m z s) (hm : 0x200000000 &&& m = 0x200000000) (p : Party) (i : Nat) : Keeps m z (State.claim s p i).1 := by
  unfold State.claim
  repeat' first
    | (extract_lets +onlyGivenNames x; refine keeps_cut (m := m) (z := z) (x := x) ?_ (fun hx => ?_); rotate_left; generalize x = y at hx ⊢; clear x; rotate_left; subst x)
    | (extract_lets +onlyGivenNames x; first | (subst x) | skip)
    | with_reducible assumption
    | exact mask_sub (by decide) hm
    | with_reducible apply State.wr_keeps
    | (intro _)
    | with_reducible apply keeps_ite
    | with_reducible apply keeps_ite_fst
    | (split)
    | (with_reducible apply keeps_pair)

theorem State.release_keeps {m : Nat} {z s : State} (h0 : Keeps m z s) (hm : 0x200000000 &&& m = 0x200000000) (p : Party) (i : Nat) : Keeps m z (State.release s p i).1 := by
  unfold State.release
  repeat' first
    | with_reducible assumption
    | exact mask_sub (by decide) hm
    | with_reducible apply State.wr_keeps
    | (intro _)
    | with_reducible apply keeps_ite
    | with_reducible apply keeps_ite_fst
    | (split)
    | (with_reducible apply keeps_pair)

theorem State.orphan_keeps {m : Nat} {z s : State} (h0 : Keeps m z s) (hm : 0x200000000 &&& m = 0x200000000) (p : Party) : Keeps m z (State.orphan s p) := by
  unfold State.orphan
  repeat' first
    | with_reducible assumption
    | exact mask_sub (by decide) hm
    | with_reducible apply State.setB_keeps
    | (with_reducible apply keeps_foldl)
    | (intro _ _ _)
    | (intro _)
    | with_reducible apply keeps_ite

/-! ### Machine/TrvOps.lean -/

theorem State.ringPush_keeps {m : Nat} {z s : State} (h0 : Keeps m z s) (hm : 0x1000000040000 &&& m = 0x1000000040000) (r : BmkRecord) : Keeps m z (State.ringPush s r) := by
  unfold State.ringPush
  repeat' first
    | (extract_lets +onlyGivenNames x; refine keeps_cut (m := m) (z := z) (x := x) ?_ (fun hx => ?_); rotate_left; generalize x = y at hx ⊢; clear x; rotate_left; subst x)
    | (extract_lets +onlyGivenNames x; first | (subst x) | skip)
    | with_reducible assumption
    | exact mask_sub (by decide) hm
    | with_reducible apply State.setPair_keeps
    | with_reducible apply State.bump_keeps
    | (intro _)
    | with_reducible apply keeps_ite
    | with_reducible apply keeps_ite_fst
    | (simp only [keeps_mk]; refine keeps_upd ?_ ?_ ?_ ?_ ?_ ?_ ?_ ?_ ?_ ?_ ?_ ?_ ?_ ?_ ?_ ?_ ?_ ?_ ?_ ?_ ?_ ?_ ?_ ?_ ?_ ?_ ?_ ?_ ?_ ?_ ?_ ?_ ?_ ?_ ?_ ?_ ?_ <;> first | exact same_rfl | exact same_bit (by decide) hm | exact id | exact Fuses.Le.refl _ | exact fun _ => TimeVal.ofCount_ns _ | exact fun h => SMap.wf_filter _ h | exact fun _ => SMap.wf_nil _ _ | skip)
    | (with_reducible apply keeps_pair)

theorem State.journalCommit_keeps {m : Nat} {z s : State} (h0 : Keeps m z s) (hm : 0x1000000040000 &&& m = 0x1000000040000) : Keeps m z (State.journalCommit s) := by
  unfold State.journalCommit
  repeat' first
    | (extract_lets +onlyGivenNames x; refine keeps_cut (m := m) (z := z) (x := x) ?_ (fun hx => ?_); rotate_left; generalize x = y at hx ⊢; clear x; rotate_left; subst x)
    | (extract_lets +onlyGivenNames x; first | (subst x) | skip)
    | with_reducible assumption
    | exact mask_sub (by decide) hm
    | with_reducible apply State.ringPush_keeps
    | (with_reducible apply keeps_foldl)
    | (intro _ _ _)
    | (intro _)
    | (simp only [keeps_mk]; refine keeps_upd ?_ ?_ ?_ ?_ ?_ ?_ ?_ ?_ ?_ ?_ ?_ ?_ ?_ ?_ ?_ ?_ ?_ ?_ ?_ ?_ ?_ ?_ ?_ ?_ ?_ ?_ ?_ ?_ ?_ ?_ ?_ ?_ ?_ ?_ ?_ ?_ ?_ <;> first | exact same_rfl | exact same_bit (by decide) hm | exact id | exact Fuses.Le.refl _ | exact fun _ => TimeVal.ofCount_ns _ | exact fun h => SMap.wf_filter _ h | exact fun _ => SMap.wf_nil _ _ | skip)

theorem State.journal_keeps {m : Nat} {z s : State} (h0 : Keeps m z s) (hm : 0x1000000040000 &&& m = 0x1000000040000) (kind entry detail : Nat) (at_ : TimeVal) (phase : Int) (refE refL : BitVec 32) (image : List Byte) : Keeps m z (State.journal s kind entry detail at_ phase refE refL image) := by
  unfold State.journal
  repeat' first
    | (extract_lets +onlyGivenNames x; refine keeps_cut (m := m) (z := z) (x := x) ?_ (fun hx => ?_); rotate_left; generalize x = y at hx ⊢; clear x; rotate_left; subst x)
    | (extract_lets +onlyGivenNames x; first | (subst x) | skip)
    | with_reducible assumption
    | exact mask_sub (by decide) hm
    | with_reducible apply State.journalCommit_keeps
    | (intro _)
    | with_reducible apply keeps_ite
    | with_reducible apply keeps_ite_fst
    | (simp only [keeps_mk]; refine keeps_upd ?_ ?_ ?_ ?_ ?_ ?_ ?_ ?_ ?_ ?_ ?_ ?_ ?_ ?_ ?_ ?_ ?_ ?_ ?_ ?_ ?_ ?_ ?_ ?_ ?_ ?_ ?_ ?_ ?_ ?_ ?_ ?_ ?_ ?_ ?_ ?_ ?_ <;> first | exact same_rfl | exact same_bit (by decide) hm | exact id | exact Fuses.Le.refl _ | exact fun _ => TimeVal.ofCount_ns _ | exact fun h => SMap.wf_filter _ h | exact fun _ => SMap.wf_nil _ _ | skip)
    | (with_reducible apply keeps_pair)

/-! ### Machine/PmcOps.lean -/

theorem pmcRegs_bits {m : Nat} (c i : Nat) (hm : 0x40000000000000 &&& m = 0x40000000000000) :
    (pmcRegs c i).1.2.2.1.bit &&& m = (pmcRegs c i).1.2.2.1.bit ∧ (pmcRegs c i).1.2.2.2.bit &&& m = (pmcRegs c i).1.2.2.2.bit := by
  unfold pmcRegs
  split <;> exact ⟨mask_sub (a := _) (b := 0x40000000000000) (by dsimp only; decide) hm, mask_sub (a := _) (b := 0x40000000000000) (by dsimp only; decide) hm⟩

theorem State.setPmc_keeps {m : Nat} {z s : State} (h : Keeps m z s) (hm : 0x40000000000000 &&& m = 0x40000000000000) (c i v : Nat) :
    Keeps m z (s.setPmc c i v) :=
  State.wr_keeps (State.wr_keeps h _ (pmcRegs_bits c i hm).1 _ _) _ (pmcRegs_bits c i hm).2 _ _

theorem State.pmcLine_keeps {m : Nat} {z s : State} (h0 : Keeps m z s) (hm : 0x4000004000 &&& m = 0x4000004000) (c : Nat) : Keeps m z (State.pmcLine s c) := by
  unfold State.pmcLine
  repeat' first
    | with_reducible assumption
    | exact mask_sub (by decide) hm
    | with_reducible apply State.irqLine_keeps
    | (intro _)

theorem State.pmcSample_keeps {m : Nat} {z s : State} (h0 : Keeps m z s) (hm : 0x40004108004000 &&& m = 0x40004108004000) (c event : Nat) (x : PmcSample) : Keeps m z (State.pmcSample s c event x) := by
  unfold State.pmcSample
  repeat' first
    | (extract_lets +onlyGivenNames x; refine keeps_cut (m := m) (z := z) (x := x) ?_ (fun hx => ?_); rotate_left; generalize x = y at hx ⊢; clear x; rotate_left; subst x)
    | (extract_lets +onlyGivenNames x; first | (subst x) | skip)
    | with_reducible assumption
    | exact mask_sub (by decide) hm
    | with_reducible apply State.pmcLine_keeps
    | with_reducible apply State.bump_keeps
    | with_reducible apply State.setB_keeps
    | with_reducible apply State.wr_keeps
    | (with_reducible apply keeps_foldl)
    | (with_reducible apply keeps_getD)
    | (intro _ _ _)
    | (intro _)
    | with_reducible apply keeps_ite
    | with_reducible apply keeps_ite_fst
    | (simp only [keeps_mk]; refine keeps_upd ?_ ?_ ?_ ?_ ?_ ?_ ?_ ?_ ?_ ?_ ?_ ?_ ?_ ?_ ?_ ?_ ?_ ?_ ?_ ?_ ?_ ?_ ?_ ?_ ?_ ?_ ?_ ?_ ?_ ?_ ?_ ?_ ?_ ?_ ?_ ?_ ?_ <;> first | exact same_rfl | exact same_bit (by decide) hm | exact id | exact Fuses.Le.refl _ | exact fun _ => TimeVal.ofCount_ns _ | exact fun h => SMap.wf_filter _ h | exact fun _ => SMap.wf_nil _ _ | skip)
    | (with_reducible apply keeps_pair)

theorem State.pmcFlag_keeps {m : Nat} {z s : State} (h0 : Keeps m z s) (hm : 0x40004000004000 &&& m = 0x40004000004000) (c i : Nat) : Keeps m z (State.pmcFlag s c i) := by
  unfold State.pmcFlag
  repeat' first
    | (extract_lets +onlyGivenNames x; refine keeps_cut (m := m) (z := z) (x := x) ?_ (fun hx => ?_); rotate_left; generalize x = y at hx ⊢; clear x; rotate_left; subst x)
    | (extract_lets +onlyGivenNames x; first | (subst x) | skip)
    | with_reducible assumption
    | exact mask_sub (by decide) hm
    | (dsimp only; exact mask_sub (by decide) hm)
    | with_reducible apply State.pmcLine_keeps
    | with_reducible apply State.wr_keeps
    | (intro _)
    | with_reducible apply keeps_ite
    | with_reducible apply keeps_ite_fst
    | (split)
    | (with_reducible apply keeps_pair)

theorem State.pmcWrap_keeps {m : Nat} {z s : State} (h0 : Keeps m z s) (hm : 0x40004108004000 &&& m = 0x40004108004000) (c i : Nat) (x : PmcSample) : Keeps m z (State.pmcWrap s c i x) := by
  unfold State.pmcWrap
  repeat' first
    | (extract_lets +onlyGivenNames x; refine keeps_cut (m := m) (z := z) (x := x) ?_ (fun hx => ?_); rotate_left; generalize x = y at hx ⊢; clear x; rotate_left; subst x)
    | (extract_lets +onlyGivenNames x; first | (subst x) | skip)
    | with_reducible assumption
    | exact mask_sub (by decide) hm
    | with_reducible apply State.pmcFlag_keeps
    | with_reducible apply State.pmcSample_keeps
    | with_reducible apply State.setPmc_keeps
    | with_reducible apply State.setB_keeps
    | (intro _)
    | with_reducible apply keeps_ite

theorem State.pmcBump_keeps {m : Nat} {z s : State} (h0 : Keeps m z s) (hm : 0x40004108004000 &&& m = 0x40004108004000) (c i : Nat) (x : PmcSample) : Keeps m z (State.pmcBump s c i x) := by
  unfold State.pmcBump
  repeat' first
    | (extract_lets +onlyGivenNames x; refine keeps_cut (m := m) (z := z) (x := x) ?_ (fun hx => ?_); rotate_left; generalize x = y at hx ⊢; clear x; rotate_left; subst x)
    | (extract_lets +onlyGivenNames x; first | (subst x) | skip)
    | with_reducible assumption
    | exact mask_sub (by decide) hm
    | with_reducible apply State.pmcWrap_keeps
    | with_reducible apply State.setPmc_keeps
    | (intro _)
    | with_reducible apply keeps_ite

theorem State.pmcEvent_keeps {m : Nat} {z s : State} (h0 : Keeps m z s) (hm : 0x40004108004000 &&& m = 0x40004108004000) (th code : Nat) (k : Bool) (insn addr : BitVec 32) : Keeps m z (State.pmcEvent s th code k insn addr) := by
  unfold State.pmcEvent
  repeat' first
    | (extract_lets +onlyGivenNames x; refine keeps_cut (m := m) (z := z) (x := x) ?_ (fun hx => ?_); rotate_left; generalize x = y at hx ⊢; clear x; rotate_left; subst x)
    | (extract_lets +onlyGivenNames x; first | (subst x) | skip)
    | with_reducible assumption
    | exact mask_sub (by decide) hm
    | with_reducible apply State.pmcBump_keeps
    | (with_reducible apply keeps_foldl)
    | (intro _ _ _)
    | (intro _)
    | with_reducible apply keeps_ite

theorem State.pmcCluster_keeps {m : Nat} {z s : State} (h0 : Keeps m z s) (hm : 0x40004108004000 &&& m = 0x40004108004000) (c code : Nat) (unit : Option Nat) : Keeps m z (State.pmcCluster s c code unit) := by
  unfold State.pmcCluster
  repeat' first
    | (extract_lets +onlyGivenNames x; refine keeps_cut (m := m) (z := z) (x := x) ?_ (fun hx => ?_); rotate_left; generalize x = y at hx ⊢; clear x; rotate_left; subst x)
    | (extract_lets +onlyGivenNames x; first | (subst x) | skip)
    | with_reducible assumption
    | exact mask_sub (by decide) hm
    | with_reducible apply State.pmcBump_keeps
    | (with_reducible apply keeps_foldl)
    | (intro _ _ _)
    | (intro _)
    | with_reducible apply keeps_ite
    | (split)

theorem State.pmcDone_keeps {m : Nat} {z s : State} (h0 : Keeps m z s) (hm : 0x40000000000000 &&& m = 0x40000000000000) (c : Nat) (ok : Bool) {t : State} (ht : Keeps m z t) : Keeps m z (State.pmcDone s c ok t) := by
  unfold State.pmcDone
  repeat' first
    | with_reducible assumption
    | exact mask_sub (by decide) hm
    | with_reducible apply State.setB_keeps
    | (intro _)
    | with_reducible apply keeps_ite

theorem State.mirrorZero_keeps {m : Nat} {z s : State} (h0 : Keeps m z s) (hm : 0x2 &&& m = 0x2) (th : Nat) : Keeps m z (State.mirrorZero s th) := by
  unfold State.mirrorZero
  repeat' first
    | (extract_lets +onlyGivenNames x; refine keeps_cut (m := m) (z := z) (x := x) ?_ (fun hx => ?_); rotate_left; generalize x = y at hx ⊢; clear x; rotate_left; subst x)
    | (extract_lets +onlyGivenNames x; first | (subst x) | skip)
    | with_reducible assumption
    | exact mask_sub (by decide) hm
    | with_reducible apply State.store_keeps
    | (intro _)

theorem State.pmcMirror_keeps {m : Nat} {z s : State} (h0 : Keeps m z s) (hm : 0x8000002 &&& m = 0x8000002) (c k : Nat) : Keeps m z (State.pmcMirror s c k) := by
  unfold State.pmcMirror
  repeat' first
    | (extract_lets +onlyGivenNames x; refine keeps_cut (m := m) (z := z) (x := x) ?_ (fun hx => ?_); rotate_left; generalize x = y at hx ⊢; clear x; rotate_left; subst x)
    | (extract_lets +onlyGivenNames x; first | (subst x) | skip)
    | with_reducible assumption
    | exact mask_sub (by decide) hm
    | with_reducible apply State.store_keeps
    | (with_reducible apply keeps_foldl)
    | (intro _ _ _)
    | (intro _)
    | with_reducible apply keeps_ite
    | (simp only [keeps_mk]; refine keeps_upd ?_ ?_ ?_ ?_ ?_ ?_ ?_ ?_ ?_ ?_ ?_ ?_ ?_ ?_ ?_ ?_ ?_ ?_ ?_ ?_ ?_ ?_ ?_ ?_ ?_ ?_ ?_ ?_ ?_ ?_ ?_ ?_ ?_ ?_ ?_ ?_ ?_ <;> first | exact same_rfl | exact same_bit (by decide) hm | exact id | exact Fuses.Le.refl _ | exact fun _ => TimeVal.ofCount_ns _ | exact fun h => SMap.wf_filter _ h | exact fun _ => SMap.wf_nil _ _ | skip)

theorem State.pmcUser_keeps {m : Nat} {z s : State} (h0 : Keeps m z s) (hm : 0x20000000000002 &&& m = 0x20000000000002) (core : Nat) (v : BitVec 32) : Keeps m z (State.pmcUser s core v) := by
  unfold State.pmcUser
  repeat' first
    | (extract_lets +onlyGivenNames x; refine keeps_cut (m := m) (z := z) (x := x) ?_ (fun hx => ?_); rotate_left; generalize x = y at hx ⊢; clear x; rotate_left; subst x)
    | (extract_lets +onlyGivenNames x; first | (subst x) | skip)
    | with_reducible assumption
    | exact mask_sub (by decide) hm
    | with_reducible apply State.mirrorZero_keeps
    | with_reducible apply State.wrRw_keeps
    | (with_reducible apply keeps_foldl)
    | (intro _ _ _)
    | (intro _)
    | with_reducible apply keeps_ite

theorem State.pmcWrite_keeps {m : Nat} {z s : State} {r : Reg} (h0 : Keeps m z s) (hm : 0x40004000004000 &&& m = 0x40004000004000) (hr_bit : r.bit &&& m = r.bit) (i : Nat) (v : BitVec 32) : Keeps m z (State.pmcWrite s r i v) := by
  unfold State.pmcWrite
  repeat' first
    | (extract_lets +onlyGivenNames x; refine keeps_cut (m := m) (z := z) (x := x) ?_ (fun hx => ?_); rotate_left; generalize x = y at hx ⊢; clear x; rotate_left; subst x)
    | (extract_lets +onlyGivenNames x; first | (subst x) | skip)
    | with_reducible assumption
    | exact mask_sub (by decide) hm
    | with_reducible apply State.pmcDone_keeps
    | with_reducible apply State.pmcLine_keeps
    | with_reducible apply State.wrRw_keeps
    | with_reducible apply State.w1c_keeps
    | (intro _)
    | with_reducible apply keeps_ite

/-! ### Machine/EngineOps.lean -/

theorem State.count_keeps {m : Nat} {z s : State} {r : Reg} (h0 : Keeps m z s) (hm : 0x0 &&& m = 0x0) (hr_bit : r.bit &&& m = r.bit) : Keeps m z (State.count s r) := by
  unfold State.count
  repeat' first
    | with_reducible assumption
    | exact mask_sub (by decide) hm
    | with_reducible apply State.bump_keeps
    | (intro _)

theorem State.claimNotice_keeps {m : Nat} {z s : State} (h0 : Keeps m z s) (hm : 0x4000004000 &&& m = 0x4000004000) (n : Notice) : Keeps m z (State.claimNotice s n).1 := by
  unfold State.claimNotice
  repeat' first
    | (extract_lets +onlyGivenNames x; refine keeps_cut (m := m) (z := z) (x := x) ?_ (fun hx => ?_); rotate_left; generalize x = y at hx ⊢; clear x; rotate_left; subst x)
    | (extract_lets +onlyGivenNames x; first | (subst x) | skip)
    | with_reducible assumption
    | exact mask_sub (by decide) hm
    | with_reducible apply State.setIrqDyn_keeps
    | with_reducible apply State.setB_keeps
    | (intro _)
    | with_reducible apply keeps_ite
    | with_reducible apply keeps_ite_fst
    | (split)
    | (with_reducible apply keeps_pair)

theorem State.withdrawTimeout_keeps {m : Nat} {z s : State} (h0 : Keeps m z s) (hm : 0x200000000080 &&& m = 0x200000000080) (th : Nat) (timeout : Option Nat) (n : Notice) : Keeps m z (State.withdrawTimeout s th timeout n) := by
  unfold State.withdrawTimeout
  repeat' first
    | (extract_lets +onlyGivenNames x; refine keeps_cut (m := m) (z := z) (x := x) ?_ (fun hx => ?_); rotate_left; generalize x = y at hx ⊢; clear x; rotate_left; subst x)
    | (extract_lets +onlyGivenNames x; first | (subst x) | skip)
    | with_reducible assumption
    | exact mask_sub (by decide) hm
    | with_reducible apply State.count_keeps
    | with_reducible apply State.freeSlot_keeps
    | (intro _)
    | with_reducible apply keeps_ite
    | (split)

theorem State.noticeEvent_keeps {m : Nat} {z s : State} (h0 : Keeps m z s) (hm : 0x40004108004000 &&& m = 0x40004108004000) (th : Nat) : Keeps m z (State.noticeEvent s th) := by
  unfold State.noticeEvent
  repeat' first
    | (extract_lets +onlyGivenNames x; refine keeps_cut (m := m) (z := z) (x := x) ?_ (fun hx => ?_); rotate_left; generalize x = y at hx ⊢; clear x; rotate_left; subst x)
    | (extract_lets +onlyGivenNames x; first | (subst x) | skip)
    | with_reducible assumption
    | exact mask_sub (by decide) hm
    | with_reducible apply State.pmcEvent_keeps
    | (intro _)

theorem State.returnNotice_keeps {m : Nat} {z s : State} (h0 : Keeps m z s) (hm : 0x40204108004180 &&& m = 0x40204108004180) (th : Nat) (w : WaitRec) (n : Notice) : Keeps m z (State.returnNotice s th w n) := by
  unfold State.returnNotice
  repeat' first
    | (extract_lets +onlyGivenNames x; refine keeps_cut (m := m) (z := z) (x := x) ?_ (fun hx => ?_); rotate_left; generalize x = y at hx ⊢; clear x; rotate_left; subst x)
    | (extract_lets +onlyGivenNames x; first | (subst x) | skip)
    | with_reducible assumption
    | exact mask_sub (by decide) hm
    | (dsimp only; exact mask_sub (by decide) hm)
    | with_reducible apply State.noticeEvent_keeps
    | with_reducible apply State.withdrawTimeout_keeps
    | with_reducible apply State.claimNotice_keeps
    | with_reducible refine keeps_of_fst (by assumption) (State.claimNotice_keeps ?_ ?_ ..)
    | with_reducible apply State.setThread_keeps
    | (intro _)
    | (split)
    | (with_reducible apply keeps_pair)

theorem State.deliver_keeps {m : Nat} {z s : State} (h0 : Keeps m z s) (hm : 0x40204108004180 &&& m = 0x40204108004180) (th : Nat) (n : Notice) : Keeps m z (State.deliver s th n) := by
  unfold State.deliver
  repeat' first
    | (extract_lets +onlyGivenNames x; refine keeps_cut (m := m) (z := z) (x := x) ?_ (fun hx => ?_); rotate_left; generalize x = y at hx ⊢; clear x; rotate_left; subst x)
    | (extract_lets +onlyGivenNames x; first | (subst x) | skip)
    | with_reducible assumption
    | exact mask_sub (by decide) hm
    | with_reducible apply State.returnNotice_keeps
    | with_reducible apply State.setThread_keeps
    | (intro _)
    | (split)
    | (with_reducible apply keeps_pair)

theorem State.notify_keeps {m : Nat} {z s : State} (h0 : Keeps m z s) (hm : 0x40204108004180 &&& m = 0x40204108004180) (th : Nat) (n : Notice) : Keeps m z (State.notify s th n) := by
  unfold State.notify
  repeat' first
    | (extract_lets +onlyGivenNames x; refine keeps_cut (m := m) (z := z) (x := x) ?_ (fun hx => ?_); rotate_left; generalize x = y at hx ⊢; clear x; rotate_left; subst x)
    | (extract_lets +onlyGivenNames x; first | (subst x) | skip)
    | with_reducible assumption
    | exact mask_sub (by decide) hm
    | with_reducible apply State.deliver_keeps
    | (intro _)
    | (split)

theorem State.unreserve_keeps {m : Nat} {z s : State} (h0 : Keeps m z s) (hm : 0x100 &&& m = 0x100) (th : Nat) : Keeps m z (State.unreserve s th) := by
  unfold State.unreserve
  repeat' first
    | (extract_lets +onlyGivenNames x; refine keeps_cut (m := m) (z := z) (x := x) ?_ (fun hx => ?_); rotate_left; generalize x = y at hx ⊢; clear x; rotate_left; subst x)
    | (extract_lets +onlyGivenNames x; first | (subst x) | skip)
    | with_reducible assumption
    | exact mask_sub (by decide) hm
    | with_reducible apply State.setThread_keeps
    | (intro _)

theorem State.setFrame_keeps {m : Nat} {z s : State} (h0 : Keeps m z s) (hm : 0x400 &&& m = 0x400) (f : Nat) (x : Frame) : Keeps m z (State.setFrame s f x) := by
  unfold State.setFrame
  repeat' first
    | (extract_lets +onlyGivenNames x; refine keeps_cut (m := m) (z := z) (x := x) ?_ (fun hx => ?_); rotate_left; generalize x = y at hx ⊢; clear x; rotate_left; subst x)
    | (extract_lets +onlyGivenNames x; first | (subst x) | skip)
    | with_reducible assumption
    | exact mask_sub (by decide) hm
    | (intro _)
    | (simp only [keeps_mk]; refine keeps_upd ?_ ?_ ?_ ?_ ?_ ?_ ?_ ?_ ?_ ?_ ?_ ?_ ?_ ?_ ?_ ?_ ?_ ?_ ?_ ?_ ?_ ?_ ?_ ?_ ?_ ?_ ?_ ?_ ?_ ?_ ?_ ?_ ?_ ?_ ?_ ?_ ?_ <;> first | exact same_rfl | exact same_bit (by decide) hm | exact id | exact Fuses.Le.refl _ | exact fun _ => TimeVal.ofCount_ns _ | exact fun h => SMap.wf_filter _ h | exact fun _ => SMap.wf_nil _ _ | skip)

theorem State.freeFrame_keeps {m : Nat} {z s : State} (h0 : Keeps m z s) (hm : 0x400 &&& m = 0x400) (f : Nat) : Keeps m z (State.freeFrame s f) := by
  unfold State.freeFrame
  repeat' first
    | (extract_lets +onlyGivenNames x; refine keeps_cut (m := m) (z := z) (x := x) ?_ (fun hx => ?_); rotate_left; generalize x = y at hx ⊢; clear x; rotate_left; subst x)
    | (extract_lets +onlyGivenNames x; first | (subst x) | skip)
    | with_reducible assumption
    | exact mask_sub (by decide) hm
    | (intro _)
    | (simp only [keeps_mk]; refine keeps_upd ?_ ?_ ?_ ?_ ?_ ?_ ?_ ?_ ?_ ?_ ?_ ?_ ?_ ?_ ?_ ?_ ?_ ?_ ?_ ?_ ?_ ?_ ?_ ?_ ?_ ?_ ?_ ?_ ?_ ?_ ?_ ?_ ?_ ?_ ?_ ?_ ?_ <;> first | exact same_rfl | exact same_bit (by decide) hm | exact id | exact Fuses.Le.refl _ | exact fun _ => TimeVal.ofCount_ns _ | exact fun h => SMap.wf_filter _ h | exact fun _ => SMap.wf_nil _ _ | skip)

theorem State.dropLaunch_keeps {m : Nat} {z s : State} (h0 : Keeps m z s) (hm : 0x200000000880 &&& m = 0x200000000880) (l : Launch) : Keeps m z (State.dropLaunch s l) := by
  unfold State.dropLaunch
  repeat' first
    | (extract_lets +onlyGivenNames x; refine keeps_cut (m := m) (z := z) (x := x) ?_ (fun hx => ?_); rotate_left; generalize x = y at hx ⊢; clear x; rotate_left; subst x)
    | (extract_lets +onlyGivenNames x; first | (subst x) | skip)
    | with_reducible assumption
    | exact mask_sub (by decide) hm
    | with_reducible apply State.freeSlot_keeps
    | (intro _)
    | (simp only [keeps_mk]; refine keeps_upd ?_ ?_ ?_ ?_ ?_ ?_ ?_ ?_ ?_ ?_ ?_ ?_ ?_ ?_ ?_ ?_ ?_ ?_ ?_ ?_ ?_ ?_ ?_ ?_ ?_ ?_ ?_ ?_ ?_ ?_ ?_ ?_ ?_ ?_ ?_ ?_ ?_ <;> first | exact same_rfl | exact same_bit (by decide) hm | exact id | exact Fuses.Le.refl _ | exact fun _ => TimeVal.ofCount_ns _ | exact fun h => SMap.wf_filter _ h | exact fun _ => SMap.wf_nil _ _ | skip)

theorem State.failLaunch_keeps {m : Nat} {z s : State} (h0 : Keeps m z s) (hm : 0x40204108004D80 &&& m = 0x40204108004D80) (l : Launch) (st : Status) : Keeps m z (State.failLaunch s l st) := by
  unfold State.failLaunch
  repeat' first
    | (extract_lets +onlyGivenNames x; refine keeps_cut (m := m) (z := z) (x := x) ?_ (fun hx => ?_); rotate_left; generalize x = y at hx ⊢; clear x; rotate_left; subst x)
    | (extract_lets +onlyGivenNames x; first | (subst x) | skip)
    | with_reducible assumption
    | exact mask_sub (by decide) hm
    | with_reducible apply State.dropLaunch_keeps
    | with_reducible apply State.setFrame_keeps
    | with_reducible apply State.notify_keeps
    | (intro _)
    | (split)
    | (with_reducible apply keeps_pair)

theorem State.failLaunches_keeps {m : Nat} {z s : State} (h0 : Keeps m z s) (hm : 0x40204108004D80 &&& m = 0x40204108004D80) (p : Launch → Bool) (st : Status) : Keeps m z (State.failLaunches s p st) := by
  unfold State.failLaunches
  repeat' first
    | with_reducible assumption
    | exact mask_sub (by decide) hm
    | with_reducible apply State.failLaunch_keeps
    | (with_reducible apply keeps_foldl)
    | (intro _ _ _)
    | (intro _)
    | with_reducible apply keeps_ite

theorem State.setRole_keeps {m : Nat} {z s : State} (h0 : Keeps m z s) (hm : 0x40284108004D80 &&& m = 0x40284108004D80) (role cause : Nat) : Keeps m z (State.setRole s role cause) := by
  unfold State.setRole
  repeat' first
    | (extract_lets +onlyGivenNames x; refine keeps_cut (m := m) (z := z) (x := x) ?_ (fun hx => ?_); rotate_left; generalize x = y at hx ⊢; clear x; rotate_left; subst x)
    | (extract_lets +onlyGivenNames x; first | (subst x) | skip)
    | with_reducible assumption
    | exact mask_sub (by decide) hm
    | with_reducible apply State.failLaunches_keeps
    | with_reducible apply State.irqPulse_keeps
    | with_reducible apply State.setF_keeps
    | (intro _)
    | with_reducible apply keeps_ite

theorem State.setSvc_keeps {m : Nat} {z s : State} (h0 : Keeps m z s) (hm : 0x10004000000000 &&& m = 0x10004000000000) (st cause : Nat) : Keeps m z (State.setSvc s st cause) := by
  unfold State.setSvc
  repeat' first
    | with_reducible assumption
    | exact mask_sub (by decide) hm
    | with_reducible apply State.irqPulse_keeps
    | with_reducible apply State.setF_keeps
    | (intro _)
    | with_reducible apply keeps_ite

theorem State.closeSvc_keeps {m : Nat} {z s : State} (h0 : Keeps m z s) (hm : 0x10004000000000 &&& m = 0x10004000000000) (cause : Nat) : Keeps m z (State.closeSvc s cause) := by
  unfold State.closeSvc
  repeat' first
    | with_reducible assumption
    | exact mask_sub (by decide) hm
    | with_reducible apply State.setSvc_keeps
    | (intro _)
    | with_reducible apply keeps_ite

theorem State.endWriter_keeps {m : Nat} {z s : State} (h0 : Keeps m z s) (hm : 0x200000008000 &&& m = 0x200000008000) : Keeps m z (State.endWriter s) := by
  unfold State.endWriter
  repeat' first
    | (extract_lets +onlyGivenNames x; refine keeps_cut (m := m) (z := z) (x := x) ?_ (fun hx => ?_); rotate_left; generalize x = y at hx ⊢; clear x; rotate_left; subst x)
    | (extract_lets +onlyGivenNames x; first | (subst x) | skip)
    | with_reducible assumption
    | exact mask_sub (by decide) hm
    | with_reducible apply State.setB_keeps
    | (intro _)
    | (simp only [keeps_mk]; refine keeps_upd ?_ ?_ ?_ ?_ ?_ ?_ ?_ ?_ ?_ ?_ ?_ ?_ ?_ ?_ ?_ ?_ ?_ ?_ ?_ ?_ ?_ ?_ ?_ ?_ ?_ ?_ ?_ ?_ ?_ ?_ ?_ ?_ ?_ ?_ ?_ ?_ ?_ <;> first | exact same_rfl | exact same_bit (by decide) hm | exact id | exact Fuses.Le.refl _ | exact fun _ => TimeVal.ofCount_ns _ | exact fun h => SMap.wf_filter _ h | exact fun _ => SMap.wf_nil _ _ | skip)

theorem State.beginNoWriter_keeps {m : Nat} {z s : State} (h0 : Keeps m z s) (hm : 0x1000000140000 &&& m = 0x1000000140000) : Keeps m z (State.beginNoWriter s) := by
  unfold State.beginNoWriter
  repeat' first
    | (extract_lets +onlyGivenNames x; refine keeps_cut (m := m) (z := z) (x := x) ?_ (fun hx => ?_); rotate_left; generalize x = y at hx ⊢; clear x; rotate_left; subst x)
    | (extract_lets +onlyGivenNames x; first | (subst x) | skip)
    | with_reducible assumption
    | exact mask_sub (by decide) hm
    | with_reducible apply State.setB_keeps
    | (intro _)
    | with_reducible apply keeps_ite
    | with_reducible apply keeps_ite_fst
    | (simp only [keeps_mk]; refine keeps_upd ?_ ?_ ?_ ?_ ?_ ?_ ?_ ?_ ?_ ?_ ?_ ?_ ?_ ?_ ?_ ?_ ?_ ?_ ?_ ?_ ?_ ?_ ?_ ?_ ?_ ?_ ?_ ?_ ?_ ?_ ?_ ?_ ?_ ?_ ?_ ?_ ?_ <;> first | exact same_rfl | exact same_bit (by decide) hm | exact id | exact Fuses.Le.refl _ | exact fun _ => TimeVal.ofCount_ns _ | exact fun h => SMap.wf_filter _ h | exact fun _ => SMap.wf_nil _ _ | skip)
    | (split)
    | (with_reducible apply keeps_pair)

theorem State.ticDisturb_keeps {m : Nat} {z s : State} (h0 : Keeps m z s) (hm : 0x80000 &&& m = 0x80000) : Keeps m z (State.ticDisturb s) := by
  unfold State.ticDisturb
  repeat' first
    | (extract_lets +onlyGivenNames x; refine keeps_cut (m := m) (z := z) (x := x) ?_ (fun hx => ?_); rotate_left; generalize x = y at hx ⊢; clear x; rotate_left; subst x)
    | (extract_lets +onlyGivenNames x; first | (subst x) | skip)
    | with_reducible assumption
    | exact mask_sub (by decide) hm
    | (intro _)
    | (simp only [keeps_mk]; refine keeps_upd ?_ ?_ ?_ ?_ ?_ ?_ ?_ ?_ ?_ ?_ ?_ ?_ ?_ ?_ ?_ ?_ ?_ ?_ ?_ ?_ ?_ ?_ ?_ ?_ ?_ ?_ ?_ ?_ ?_ ?_ ?_ ?_ ?_ ?_ ?_ ?_ ?_ <;> first | exact same_rfl | exact same_bit (by decide) hm | exact id | exact Fuses.Le.refl _ | exact fun _ => TimeVal.ofCount_ns _ | exact fun h => SMap.wf_filter _ h | exact fun _ => SMap.wf_nil _ _ | skip)
    | (with_reducible apply keeps_pair)

theorem State.ensStep_keeps {m : Nat} {z s : State} (h0 : Keeps m z s) (hm : 0x100000 &&& m = 0x100000) (from_ end_ : TimeVal) : Keeps m z (State.ensStep s from_ end_) := by
  unfold State.ensStep
  repeat' first
    | (extract_lets +onlyGivenNames x; refine keeps_cut (m := m) (z := z) (x := x) ?_ (fun hx => ?_); rotate_left; generalize x = y at hx ⊢; clear x; rotate_left; subst x)
    | (extract_lets +onlyGivenNames x; first | (subst x) | skip)
    | with_reducible assumption
    | exact mask_sub (by decide) hm
    | with_reducible apply State.count_keeps
    | (intro _)
    | with_reducible apply keeps_ite
    | with_reducible apply keeps_ite_fst
    | (simp only [keeps_mk]; refine keeps_upd ?_ ?_ ?_ ?_ ?_ ?_ ?_ ?_ ?_ ?_ ?_ ?_ ?_ ?_ ?_ ?_ ?_ ?_ ?_ ?_ ?_ ?_ ?_ ?_ ?_ ?_ ?_ ?_ ?_ ?_ ?_ ?_ ?_ ?_ ?_ ?_ ?_ <;> first | exact same_rfl | exact same_bit (by decide) hm | exact id | exact Fuses.Le.refl _ | exact fun _ => TimeVal.ofCount_ns _ | exact fun h => SMap.wf_filter _ h | exact fun _ => SMap.wf_nil _ _ | skip)
    | (split)
    | (with_reducible apply keeps_pair)

theorem State.synStep_keeps {m : Nat} {z s : State} (h0 : Keeps m z s) (hm : 0x400000 &&& m = 0x400000) (end_ : TimeVal) : Keeps m z (State.synStep s end_) := by
  unfold State.synStep
  repeat' first
    | (extract_lets +onlyGivenNames x; refine keeps_cut (m := m) (z := z) (x := x) ?_ (fun hx => ?_); rotate_left; generalize x = y at hx ⊢; clear x; rotate_left; subst x)
    | (extract_lets +onlyGivenNames x; first | (subst x) | skip)
    | with_reducible assumption
    | exact mask_sub (by decide) hm
    | (intro _)
    | with_reducible apply keeps_ite
    | with_reducible apply keeps_ite_fst
    | (simp only [keeps_mk]; refine keeps_upd ?_ ?_ ?_ ?_ ?_ ?_ ?_ ?_ ?_ ?_ ?_ ?_ ?_ ?_ ?_ ?_ ?_ ?_ ?_ ?_ ?_ ?_ ?_ ?_ ?_ ?_ ?_ ?_ ?_ ?_ ?_ ?_ ?_ ?_ ?_ ?_ ?_ <;> first | exact same_rfl | exact same_bit (by decide) hm | exact id | exact Fuses.Le.refl _ | exact fun _ => TimeVal.ofCount_ns _ | exact fun h => SMap.wf_filter _ h | exact fun _ => SMap.wf_nil _ _ | skip)
    | (split)
    | (with_reducible apply keeps_pair)

theorem State.prtStep_keeps {m : Nat} {z s : State} (h0 : Keeps m z s) (hm : 0x1000000 &&& m = 0x1000000) (off : Int) : Keeps m z (State.prtStep s off) := by
  unfold State.prtStep
  repeat' first
    | (extract_lets +onlyGivenNames x; refine keeps_cut (m := m) (z := z) (x := x) ?_ (fun hx => ?_); rotate_left; generalize x = y at hx ⊢; clear x; rotate_left; subst x)
    | (extract_lets +onlyGivenNames x; first | (subst x) | skip)
    | with_reducible assumption
    | exact mask_sub (by decide) hm
    | (intro _)
    | (simp only [keeps_mk]; refine keeps_upd ?_ ?_ ?_ ?_ ?_ ?_ ?_ ?_ ?_ ?_ ?_ ?_ ?_ ?_ ?_ ?_ ?_ ?_ ?_ ?_ ?_ ?_ ?_ ?_ ?_ ?_ ?_ ?_ ?_ ?_ ?_ ?_ ?_ ?_ ?_ ?_ ?_ <;> first | exact same_rfl | exact same_bit (by decide) hm | exact id | exact Fuses.Le.refl _ | exact fun _ => TimeVal.ofCount_ns _ | exact fun h => SMap.wf_filter _ h | exact fun _ => SMap.wf_nil _ _ | skip)
    | (with_reducible apply keeps_pair)

theorem State.withdrawEvents_keeps {m : Nat} {z s : State} (h0 : Keeps m z s) (hm : 0x200000000080 &&& m = 0x200000000080) (p : EvTarget → Bool) : Keeps m z (State.withdrawEvents s p) := by
  unfold State.withdrawEvents
  repeat' first
    | (extract_lets +onlyGivenNames x; refine keeps_cut (m := m) (z := z) (x := x) ?_ (fun hx => ?_); rotate_left; generalize x = y at hx ⊢; clear x; rotate_left; subst x)
    | (extract_lets +onlyGivenNames x; first | (subst x) | skip)
    | with_reducible assumption
    | exact mask_sub (by decide) hm
    | with_reducible apply State.count_keeps
    | with_reducible apply State.freeSlot_keeps
    | (with_reducible apply keeps_foldl)
    | (intro _ _ _)
    | (intro _)
    | with_reducible apply keeps_ite
    | (split)

theorem State.repend_keeps {m : Nat} {z s : State} (h0 : Keeps m z s) (hm : 0x4000004000 &&& m = 0x4000004000) (ns : List Notice) : Keeps m z (State.repend s ns) := by
  unfold State.repend
  repeat' first
    | (extract_lets +onlyGivenNames x; refine keeps_cut (m := m) (z := z) (x := x) ?_ (fun hx => ?_); rotate_left; generalize x = y at hx ⊢; clear x; rotate_left; subst x)
    | (extract_lets +onlyGivenNames x; first | (subst x) | skip)
    | with_reducible assumption
    | exact mask_sub (by decide) hm
    | with_reducible apply State.setIrqDyn_keeps
    | with_reducible apply State.setB_keeps
    | (with_reducible apply keeps_foldl)
    | (intro _ _ _)
    | (intro _)
    | with_reducible apply keeps_ite
    | with_reducible apply keeps_ite_fst
    | (with_reducible apply keeps_pair)

theorem State.cleanupThread_keeps {m : Nat} {z s : State} (h0 : Keeps m z s) (hm : 0x20420000FD80 &&& m = 0x20420000FD80) (th : Nat) (final : ThreadSt) : Keeps m z (State.cleanupThread s th final) := by
  unfold State.cleanupThread
  repeat' first
    | (extract_lets +onlyGivenNames x; refine keeps_cut (m := m) (z := z) (x := x) ?_ (fun hx => ?_); rotate_left; generalize x = y at hx ⊢; clear x; rotate_left; subst x)
    | (extract_lets +onlyGivenNames x; first | (subst x) | skip)
    | with_reducible assumption
    | exact mask_sub (by decide) hm
    | with_reducible apply State.repend_keeps
    | with_reducible apply State.withdrawEvents_keeps
    | with_reducible apply State.endWriter_keeps
    | with_reducible apply State.dropLaunch_keeps
    | with_reducible apply State.freeFrame_keeps
    | with_reducible apply State.orphan_keeps
    | with_reducible apply State.setThread_keeps
    | (with_reducible apply keeps_foldl)
    | (intro _ _ _)
    | (intro _)
    | with_reducible apply keeps_ite
    | with_reducible apply keeps_ite_fst
    | (simp only [keeps_mk]; refine keeps_upd ?_ ?_ ?_ ?_ ?_ ?_ ?_ ?_ ?_ ?_ ?_ ?_ ?_ ?_ ?_ ?_ ?_ ?_ ?_ ?_ ?_ ?_ ?_ ?_ ?_ ?_ ?_ ?_ ?_ ?_ ?_ ?_ ?_ ?_ ?_ ?_ ?_ <;> first | exact same_rfl | exact same_bit (by decide) hm | exact id | exact Fuses.Le.refl _ | exact fun _ => TimeVal.ofCount_ns _ | exact fun h => SMap.wf_filter _ h | exact fun _ => SMap.wf_nil _ _ | skip)
    | (with_reducible apply keeps_pair)

theorem State.abortThread_keeps {m : Nat} {z s : State} (h0 : Keeps m z s) (hm : 0x2020420000FD80 &&& m = 0x2020420000FD80) (th : Nat) : Keeps m z (State.abortThread s th) := by
  unfold State.abortThread
  repeat' first
    | (extract_lets +onlyGivenNames x; refine keeps_cut (m := m) (z := z) (x := x) ?_ (fun hx => ?_); rotate_left; generalize x = y at hx ⊢; clear x; rotate_left; subst x)
    | (extract_lets +onlyGivenNames x; first | (subst x) | skip)
    | with_reducible assumption
    | exact mask_sub (by decide) hm
    | with_reducible apply State.cleanupThread_keeps
    | with_reducible apply State.wr_keeps
    | (intro _)
    | (split)

theorem State.pwrShow_keeps {m : Nat} {z s : State} (h0 : Keeps m z s) (hm : 0x40000000000 &&& m = 0x40000000000) : Keeps m z (State.pwrShow s) := by
  unfold State.pwrShow
  repeat' first
    | (extract_lets +onlyGivenNames x; refine keeps_cut (m := m) (z := z) (x := x) ?_ (fun hx => ?_); rotate_left; generalize x = y at hx ⊢; clear x; rotate_left; subst x)
    | (extract_lets +onlyGivenNames x; first | (subst x) | skip)
    | with_reducible assumption
    | exact mask_sub (by decide) hm
    | with_reducible apply State.setB_keeps
    | with_reducible apply State.setF_keeps
    | (with_reducible apply keeps_foldl)
    | (intro _ _ _)
    | (intro _)
    | with_reducible apply keeps_ite
    | with_reducible apply keeps_ite_fst
    | (with_reducible apply keeps_pair)

theorem State.coreLose_keeps {m : Nat} {z s : State} (h0 : Keeps m z s) (hm : 0x7FFFFE3F037F32 &&& m = 0x7FFFFE3F037F32) : Keeps m z (State.coreLose s) := by
  unfold State.coreLose
  repeat' first
    | (extract_lets +onlyGivenNames x; refine keeps_cut (m := m) (z := z) (x := x) ?_ (fun hx => ?_); rotate_left; generalize x = y at hx ⊢; clear x; rotate_left; subst x)
    | (extract_lets +onlyGivenNames x; first | (subst x) | skip)
    | with_reducible assumption
    | exact mask_sub (by decide) hm
    | (intro _)
    | (simp only [keeps_mk]; refine keeps_updF ?_ ?_ ?_ ?_ ?_ ?_ ?_ ?_ ?_ ?_ ?_ ?_ ?_ ?_ ?_ ?_ ?_ ?_ ?_ ?_ ?_ ?_ ?_ ?_ ?_ ?_ ?_ ?_ ?_ ?_ ?_ ?_ ?_ ?_ ?_ ?_ ?_ ?_ ?_ <;> first | exact same_rfl | exact same_bit (by decide) hm | exact id | exact Fuses.Le.refl _ | exact fun _ => TimeVal.ofCount_ns _ | exact fun h => SMap.wf_filter _ h | exact fun _ => SMap.wf_nil _ _ | exact mask_sub (by decide) hm | skip)
    | (with_reducible apply keeps_pair)

theorem State.askPin_keeps {m : Nat} {z s : State} (h0 : Keeps m z s) (hm : 0x20000000 &&& m = 0x20000000) : Keeps m z (State.askPin s) := by
  unfold State.askPin
  repeat' first
    | (extract_lets +onlyGivenNames x; refine keeps_cut (m := m) (z := z) (x := x) ?_ (fun hx => ?_); rotate_left; generalize x = y at hx ⊢; clear x; rotate_left; subst x)
    | (extract_lets +onlyGivenNames x; first | (subst x) | skip)
    | with_reducible assumption
    | exact mask_sub (by decide) hm
    | (intro _)
    | (simp only [keeps_mk]; refine keeps_upd ?_ ?_ ?_ ?_ ?_ ?_ ?_ ?_ ?_ ?_ ?_ ?_ ?_ ?_ ?_ ?_ ?_ ?_ ?_ ?_ ?_ ?_ ?_ ?_ ?_ ?_ ?_ ?_ ?_ ?_ ?_ ?_ ?_ ?_ ?_ ?_ ?_ <;> first | exact same_rfl | exact same_bit (by decide) hm | exact id | exact Fuses.Le.refl _ | exact fun _ => TimeVal.ofCount_ns _ | exact fun h => SMap.wf_filter _ h | exact fun _ => SMap.wf_nil _ _ | skip)

theorem State.coreReset_keeps {m : Nat} {z s : State} (h0 : Keeps m z s) (hm : 0x7FFFFE3F17FFB2 &&& m = 0x7FFFFE3F17FFB2) : Keeps m z (State.coreReset s) := by
  unfold State.coreReset
  repeat' first
    | (extract_lets +onlyGivenNames x; refine keeps_cut (m := m) (z := z) (x := x) ?_ (fun hx => ?_); rotate_left; generalize x = y at hx ⊢; clear x; rotate_left; subst x)
    | (extract_lets +onlyGivenNames x; first | (subst x) | skip)
    | with_reducible assumption
    | exact mask_sub (by decide) hm
    | with_reducible apply State.coreLose_keeps
    | with_reducible apply State.pwrShow_keeps
    | with_reducible apply State.withdrawEvents_keeps
    | with_reducible apply State.beginNoWriter_keeps
    | with_reducible apply State.endWriter_keeps
    | with_reducible apply State.engineFree_keeps
    | with_reducible apply State.setB_keeps
    | (with_reducible apply keeps_foldl)
    | (intro _ _ _)
    | (intro _)
    | with_reducible apply keeps_ite

theorem State.ladder1_keeps {m : Nat} {z s : State} (h0 : Keeps m z s) (hm : 0x10206000008000 &&& m = 0x10206000008000) : Keeps m z (State.ladder1 s) := by
  unfold State.ladder1
  repeat' first
    | with_reducible assumption
    | exact mask_sub (by decide) hm
    | with_reducible apply State.endWriter_keeps
    | with_reducible apply State.closeSvc_keeps
    | with_reducible apply State.setB_keeps
    | (intro _)

theorem State.ladder2_keeps {m : Nat} {z s : State} (h0 : Keeps m z s) (hm : 0x40286108004D80 &&& m = 0x40286108004D80) : Keeps m z (State.ladder2 s) := by
  unfold State.ladder2
  repeat' first
    | with_reducible assumption
    | exact mask_sub (by decide) hm
    | with_reducible apply State.setRole_keeps
    | with_reducible apply State.setB_keeps
    | (intro _)
    | with_reducible apply keeps_ite

theorem State.ladder3_keeps {m : Nat} {z s : State} (h0 : Keeps m z s) (hm : 0x7FFFFE3F17FFB2 &&& m = 0x7FFFFE3F17FFB2) (i : Nat) : Keeps m z (State.ladder3 s i) := by
  unfold State.ladder3
  repeat' first
    | (extract_lets +onlyGivenNames x; refine keeps_cut (m := m) (z := z) (x := x) ?_ (fun hx => ?_); rotate_left; generalize x = y at hx ⊢; clear x; rotate_left; subst x)
    | (extract_lets +onlyGivenNames x; first | (subst x) | skip)
    | with_reducible assumption
    | exact mask_sub (by decide) hm
    | with_reducible apply State.coreReset_keeps
    | with_reducible apply State.askPin_keeps
    | with_reducible apply State.count_keeps
    | with_reducible apply State.armGrace_keeps
    | with_reducible apply State.recordFault_keeps
    | with_reducible apply State.setB_keeps
    | with_reducible apply State.setF_keeps
    | with_reducible apply State.wr_keeps
    | (intro _)
    | with_reducible apply keeps_ite
    | with_reducible apply keeps_ite_fst
    | (simp only [keeps_mk]; refine keeps_upd ?_ ?_ ?_ ?_ ?_ ?_ ?_ ?_ ?_ ?_ ?_ ?_ ?_ ?_ ?_ ?_ ?_ ?_ ?_ ?_ ?_ ?_ ?_ ?_ ?_ ?_ ?_ ?_ ?_ ?_ ?_ ?_ ?_ ?_ ?_ ?_ ?_ <;> first | exact same_rfl | exact same_bit (by decide) hm | exact id | exact Fuses.Le.refl _ | exact fun _ => TimeVal.ofCount_ns _ | exact fun h => SMap.wf_filter _ h | exact fun _ => SMap.wf_nil _ _ | skip)
    | (with_reducible apply keeps_pair)

theorem State.escalate_keeps {m : Nat} {z s : State} (h0 : Keeps m z s) (hm : 0x7FFFFF3F17FFB2 &&& m = 0x7FFFFF3F17FFB2) (i step : Nat) : Keeps m z (State.escalate s i step) := by
  unfold State.escalate
  repeat' first
    | (extract_lets +onlyGivenNames x; refine keeps_cut (m := m) (z := z) (x := x) ?_ (fun hx => ?_); rotate_left; generalize x = y at hx ⊢; clear x; rotate_left; subst x)
    | (extract_lets +onlyGivenNames x; first | (subst x) | skip)
    | with_reducible assumption
    | exact mask_sub (by decide) hm
    | with_reducible apply State.ladder3_keeps
    | with_reducible apply State.ladder2_keeps
    | with_reducible apply State.ladder1_keeps
    | with_reducible apply State.stopGrace_keeps
    | with_reducible apply State.armGrace_keeps
    | with_reducible apply State.recordFault_keeps
    | with_reducible apply State.irqPulse_keeps
    | with_reducible apply State.setF_keeps
    | (intro _)
    | with_reducible apply keeps_ite
    | with_reducible apply keeps_ite_fst
    | (with_reducible apply keeps_pair)

/-- A record that reaches step 1 of the ladder. -/
theorem State.escalate1_keeps {m : Nat} {z s : State} (h0 : Keeps m z s) (hm : 0x10207000018080 &&& m = 0x10207000018080) (i : Nat) :
    Keeps m z (s.escalate i 1) := by
  unfold State.escalate
  simp only [reduceIte, Nat.reduceLT]
  repeat' first
    | with_reducible assumption
    | exact mask_sub (by decide) hm
    | with_reducible apply State.ladder1_keeps
    | with_reducible apply State.irqPulse_keeps
    | with_reducible apply State.setF_keeps
    | with_reducible apply State.recordFault_keeps
    | with_reducible apply State.armGrace_keeps
    | with_reducible apply State.stopGrace_keeps
    | with_reducible apply keeps_ite

/-- A fault raised, of any class. -/
theorem State.raise_keeps {m : Nat} {z s : State} (h0 : Keeps m z s) (hm : 0x10207000018080 &&& m = 0x10207000018080) (r : Raise) : Keeps m z (s.raise r) := by
  unfold State.raise
  repeat' first
    | (extract_lets +onlyGivenNames x; refine keeps_cut (m := m) (z := z) (x := x) ?_ (fun hx => ?_); rotate_left; generalize x = y at hx ⊢; clear x; rotate_left; subst x)
    | (extract_lets +onlyGivenNames x; first | (subst x) | skip)
    | with_reducible assumption
    | exact mask_sub (by decide) hm
    | with_reducible apply State.escalate1_keeps
    | with_reducible apply State.armGrace_keeps
    | with_reducible apply State.setB_keeps
    | with_reducible apply State.recordFault_keeps
    | with_reducible apply keeps_ite

/-- A fault raised below CRITICAL: its record, its timer and FLT_RAISE. -/
theorem State.raiseLow_keeps {m : Nat} {z s : State} {r : Raise} (h0 : Keeps m z s) (hm : 0x205000010080 &&& m = 0x205000010080) (hc : r.cls ≠ 3) :
    Keeps m z (s.raise r) := by
  unfold State.raise
  simp only [if_neg hc]
  repeat' first
    | (extract_lets +onlyGivenNames x; refine keeps_cut (m := m) (z := z) (x := x) ?_ (fun hx => ?_); rotate_left; generalize x = y at hx ⊢; clear x; rotate_left; subst x)
    | (extract_lets +onlyGivenNames x; first | (subst x) | skip)
    | with_reducible assumption
    | exact mask_sub (by decide) hm
    | with_reducible apply State.armGrace_keeps
    | with_reducible apply State.setB_keeps
    | with_reducible apply State.recordFault_keeps
    | with_reducible apply keeps_ite

theorem State.hostRefused_keeps {m : Nat} {z s : State} (h0 : Keeps m z s) (hm : 0x205000010080 &&& m = 0x205000010080) (rec_ : Nat) : Keeps m z (State.hostRefused s rec_) := by
  unfold State.hostRefused
  repeat' first
    | with_reducible assumption
    | exact mask_sub (by decide) hm
    | with_reducible refine State.raiseLow_keeps ?_ ?_ (by dsimp only; decide)
    | with_reducible apply State.raise_keeps
    | (intro _)
    | (with_reducible apply keeps_pair)

theorem State.violation_keeps {m : Nat} {z s : State} (h0 : Keeps m z s) (hm : 0x60215108014080 &&& m = 0x60215108014080) (th reason : Nat) (status : Nat) (insn : BitVec 32) : Keeps m z (State.violation s th reason status insn) := by
  unfold State.violation
  repeat' first
    | (extract_lets +onlyGivenNames x; refine keeps_cut (m := m) (z := z) (x := x) ?_ (fun hx => ?_); rotate_left; generalize x = y at hx ⊢; clear x; rotate_left; subst x)
    | (extract_lets +onlyGivenNames x; first | (subst x) | skip)
    | with_reducible assumption
    | exact mask_sub (by decide) hm
    | with_reducible refine State.raiseLow_keeps ?_ ?_ (by dsimp only; decide)
    | with_reducible apply State.raise_keeps
    | with_reducible apply State.pmcEvent_keeps
    | with_reducible apply State.bump_keeps
    | with_reducible apply State.wr_keeps
    | (intro _)
    | (with_reducible apply keeps_pair)

/-! ### Machine/DtmOps.lean -/

theorem State.markViol_keeps {m : Nat} {z s : State} {r : Reg} (h0 : Keeps m z s) (hm : 0x0 &&& m = 0x0) (hr_bit : r.bit &&& m = r.bit) (off : Nat) : Keeps m z (State.markViol s r off) := by
  unfold State.markViol
  repeat' first
    | (extract_lets +onlyGivenNames x; refine keeps_cut (m := m) (z := z) (x := x) ?_ (fun hx => ?_); rotate_left; generalize x = y at hx ⊢; clear x; rotate_left; subst x)
    | (extract_lets +onlyGivenNames x; first | (subst x) | skip)
    | with_reducible assumption
    | exact mask_sub (by decide) hm
    | with_reducible apply State.wr_keeps
    | (intro _)
    | with_reducible apply keeps_ite

theorem State.lockViol_keeps {m : Nat} {z s : State} (h0 : Keeps m z s) (hm : 0x205400010080 &&& m = 0x205400010080) (off : Nat) : Keeps m z (State.lockViol s off) := by
  unfold State.lockViol
  repeat' first
    | with_reducible assumption
    | exact mask_sub (by decide) hm
    | with_reducible apply State.markViol_keeps
    | with_reducible refine State.raiseLow_keeps ?_ ?_ (by dsimp only; decide)
    | with_reducible apply State.raise_keeps
    | (intro _)
    | (with_reducible apply keeps_pair)

theorem State.wosViol_keeps {m : Nat} {z s : State} (h0 : Keeps m z s) (hm : 0x205400010080 &&& m = 0x205400010080) (off : Nat) : Keeps m z (State.wosViol s off) := by
  unfold State.wosViol
  repeat' first
    | with_reducible assumption
    | exact mask_sub (by decide) hm
    | with_reducible apply State.markViol_keeps
    | with_reducible refine State.raiseLow_keeps ?_ ?_ (by dsimp only; decide)
    | with_reducible apply State.raise_keeps
    | (intro _)
    | (with_reducible apply keeps_pair)

theorem State.ownViol_keeps {m : Nat} {z s : State} (h0 : Keeps m z s) (hm : 0x205400010080 &&& m = 0x205400010080) (off : Nat) : Keeps m z (State.ownViol s off) := by
  unfold State.ownViol
  repeat' first
    | with_reducible assumption
    | exact mask_sub (by decide) hm
    | with_reducible apply State.markViol_keeps
    | with_reducible refine State.raiseLow_keeps ?_ ?_ (by dsimp only; decide)
    | with_reducible apply State.raise_keeps
    | (intro _)
    | (with_reducible apply keeps_pair)

theorem State.incTake_keeps {m : Nat} {z s : State} (h0 : Keeps m z s) (hm : 0x200000008000 &&& m = 0x200000008000) : Keeps m z (State.incTake s) := by
  unfold State.incTake
  repeat' first
    | (extract_lets +onlyGivenNames x; refine keeps_cut (m := m) (z := z) (x := x) ?_ (fun hx => ?_); rotate_left; generalize x = y at hx ⊢; clear x; rotate_left; subst x)
    | (extract_lets +onlyGivenNames x; first | (subst x) | skip)
    | with_reducible assumption
    | exact mask_sub (by decide) hm
    | with_reducible apply State.setPair_keeps
    | (with_reducible apply keeps_foldl)
    | (intro _ _ _)
    | (intro _)
    | (simp only [keeps_mk]; refine keeps_upd ?_ ?_ ?_ ?_ ?_ ?_ ?_ ?_ ?_ ?_ ?_ ?_ ?_ ?_ ?_ ?_ ?_ ?_ ?_ ?_ ?_ ?_ ?_ ?_ ?_ ?_ ?_ ?_ ?_ ?_ ?_ ?_ ?_ ?_ ?_ ?_ ?_ <;> first | exact same_rfl | exact same_bit (by decide) hm | exact id | exact Fuses.Le.refl _ | exact fun _ => TimeVal.ofCount_ns _ | exact fun h => SMap.wf_filter _ h | exact fun _ => SMap.wf_nil _ _ | skip)
    | (with_reducible apply keeps_pair)

theorem State.incAccept_keeps {m : Nat} {z s : State} (h0 : Keeps m z s) (hm : 0x200000048000 &&& m = 0x200000048000) (p : Party) (v : BitVec 64) : Keeps m z (State.incAccept s p v) := by
  unfold State.incAccept
  repeat' first
    | (extract_lets +onlyGivenNames x; refine keeps_cut (m := m) (z := z) (x := x) ?_ (fun hx => ?_); rotate_left; generalize x = y at hx ⊢; clear x; rotate_left; subst x)
    | (extract_lets +onlyGivenNames x; first | (subst x) | skip)
    | with_reducible assumption
    | exact mask_sub (by decide) hm
    | with_reducible apply State.setB_keeps
    | with_reducible apply State.setF_keeps
    | (intro _)
    | with_reducible apply keeps_ite
    | with_reducible apply keeps_ite_fst
    | (simp only [keeps_mk]; refine keeps_upd ?_ ?_ ?_ ?_ ?_ ?_ ?_ ?_ ?_ ?_ ?_ ?_ ?_ ?_ ?_ ?_ ?_ ?_ ?_ ?_ ?_ ?_ ?_ ?_ ?_ ?_ ?_ ?_ ?_ ?_ ?_ ?_ ?_ ?_ ?_ ?_ ?_ <;> first | exact same_rfl | exact same_bit (by decide) hm | exact id | exact Fuses.Le.refl _ | exact fun _ => TimeVal.ofCount_ns _ | exact fun h => SMap.wf_filter _ h | exact fun _ => SMap.wf_nil _ _ | skip)
    | (split)
    | (with_reducible apply keeps_pair)

theorem State.incHost_keeps {m : Nat} {z s : State} (h0 : Keeps m z s) (hm : 0x205000058080 &&& m = 0x205000058080) (lo : BitVec 32) : Keeps m z (State.incHost s lo) := by
  unfold State.incHost
  repeat' first
    | (extract_lets +onlyGivenNames x; refine keeps_cut (m := m) (z := z) (x := x) ?_ (fun hx => ?_); rotate_left; generalize x = y at hx ⊢; clear x; rotate_left; subst x)
    | (extract_lets +onlyGivenNames x; first | (subst x) | skip)
    | with_reducible assumption
    | exact mask_sub (by decide) hm
    | with_reducible apply State.incAccept_keeps
    | with_reducible apply State.hostRefused_keeps
    | with_reducible apply State.setB_keeps
    | with_reducible apply State.setF_keeps
    | (intro _)
    | (simp only [keeps_mk]; refine keeps_upd ?_ ?_ ?_ ?_ ?_ ?_ ?_ ?_ ?_ ?_ ?_ ?_ ?_ ?_ ?_ ?_ ?_ ?_ ?_ ?_ ?_ ?_ ?_ ?_ ?_ ?_ ?_ ?_ ?_ ?_ ?_ ?_ ?_ ?_ ?_ ?_ ?_ <;> first | exact same_rfl | exact same_bit (by decide) hm | exact id | exact Fuses.Le.refl _ | exact fun _ => TimeVal.ofCount_ns _ | exact fun h => SMap.wf_filter _ h | exact fun _ => SMap.wf_nil _ _ | skip)
    | (split)

theorem State.incProgram_keeps {m : Nat} {z s : State} (h0 : Keeps m z s) (hm : 0x6021510805C080 &&& m = 0x6021510805C080) (th : Nat) (v : BitVec 64) (insn : BitVec 32) : Keeps m z (State.incProgram s th v insn).1 := by
  unfold State.incProgram
  repeat' first
    | (extract_lets +onlyGivenNames x; refine keeps_cut (m := m) (z := z) (x := x) ?_ (fun hx => ?_); rotate_left; generalize x = y at hx ⊢; clear x; rotate_left; subst x)
    | (extract_lets +onlyGivenNames x; first | (subst x) | skip)
    | with_reducible assumption
    | exact mask_sub (by decide) hm
    | with_reducible apply State.incAccept_keeps
    | with_reducible apply State.violation_keeps
    | with_reducible apply State.setB_keeps
    | with_reducible apply State.setF_keeps
    | (intro _)
    | (split)
    | (with_reducible apply keeps_pair)

theorem State.openSettle_keeps {m : Nat} {z s : State} (h0 : Keeps m z s) (hm : 0x204000008080 &&& m = 0x204000008080) (kindling : Bool) : Keeps m z (State.openSettle s kindling) := by
  unfold State.openSettle
  repeat' first
    | (extract_lets +onlyGivenNames x; refine keeps_cut (m := m) (z := z) (x := x) ?_ (fun hx => ?_); rotate_left; generalize x = y at hx ⊢; clear x; rotate_left; subst x)
    | (extract_lets +onlyGivenNames x; first | (subst x) | skip)
    | with_reducible assumption
    | exact mask_sub (by decide) hm
    | with_reducible apply State.engineArm_keeps
    | with_reducible apply State.irqPulse_keeps
    | with_reducible apply State.setB_keeps
    | with_reducible apply State.setF_keeps
    | (intro _)
    | (simp only [keeps_mk]; refine keeps_upd ?_ ?_ ?_ ?_ ?_ ?_ ?_ ?_ ?_ ?_ ?_ ?_ ?_ ?_ ?_ ?_ ?_ ?_ ?_ ?_ ?_ ?_ ?_ ?_ ?_ ?_ ?_ ?_ ?_ ?_ ?_ ?_ ?_ ?_ ?_ ?_ ?_ <;> first | exact same_rfl | exact same_bit (by decide) hm | exact id | exact Fuses.Le.refl _ | exact fun _ => TimeVal.ofCount_ns _ | exact fun h => SMap.wf_filter _ h | exact fun _ => SMap.wf_nil _ _ | skip)
    | (with_reducible apply keeps_pair)

theorem State.shutSettle_keeps {m : Nat} {z s : State} (h0 : Keeps m z s) (hm : 0x204000008080 &&& m = 0x204000008080) : Keeps m z (State.shutSettle s) := by
  unfold State.shutSettle
  repeat' first
    | (extract_lets +onlyGivenNames x; refine keeps_cut (m := m) (z := z) (x := x) ?_ (fun hx => ?_); rotate_left; generalize x = y at hx ⊢; clear x; rotate_left; subst x)
    | (extract_lets +onlyGivenNames x; first | (subst x) | skip)
    | with_reducible assumption
    | exact mask_sub (by decide) hm
    | with_reducible apply State.engineFree_keeps
    | with_reducible apply State.irqPulse_keeps
    | with_reducible apply State.setB_keeps
    | with_reducible apply State.setF_keeps
    | (intro _)
    | with_reducible apply keeps_ite
    | with_reducible apply keeps_ite_fst
    | (simp only [keeps_mk]; refine keeps_upd ?_ ?_ ?_ ?_ ?_ ?_ ?_ ?_ ?_ ?_ ?_ ?_ ?_ ?_ ?_ ?_ ?_ ?_ ?_ ?_ ?_ ?_ ?_ ?_ ?_ ?_ ?_ ?_ ?_ ?_ ?_ ?_ ?_ ?_ ?_ ?_ ?_ <;> first | exact same_rfl | exact same_bit (by decide) hm | exact id | exact Fuses.Le.refl _ | exact fun _ => TimeVal.ofCount_ns _ | exact fun h => SMap.wf_filter _ h | exact fun _ => SMap.wf_nil _ _ | skip)
    | (with_reducible apply keeps_pair)

theorem State.settleCtl_keeps {m : Nat} {z s : State} (h0 : Keeps m z s) (hm : 0x204000008080 &&& m = 0x204000008080) (v : BitVec 32) : Keeps m z (State.settleCtl s v) := by
  unfold State.settleCtl
  repeat' first
    | (extract_lets +onlyGivenNames x; refine keeps_cut (m := m) (z := z) (x := x) ?_ (fun hx => ?_); rotate_left; generalize x = y at hx ⊢; clear x; rotate_left; subst x)
    | (extract_lets +onlyGivenNames x; first | (subst x) | skip)
    | with_reducible assumption
    | exact mask_sub (by decide) hm
    | with_reducible apply State.shutSettle_keeps
    | with_reducible apply State.openSettle_keeps
    | with_reducible apply State.setB_keeps
    | with_reducible apply State.setF_keeps
    | with_reducible apply State.wr_keeps
    | (intro _)
    | with_reducible apply keeps_ite
    | (simp only [keeps_mk]; refine keeps_upd ?_ ?_ ?_ ?_ ?_ ?_ ?_ ?_ ?_ ?_ ?_ ?_ ?_ ?_ ?_ ?_ ?_ ?_ ?_ ?_ ?_ ?_ ?_ ?_ ?_ ?_ ?_ ?_ ?_ ?_ ?_ ?_ ?_ ?_ ?_ ?_ ?_ <;> first | exact same_rfl | exact same_bit (by decide) hm | exact id | exact Fuses.Le.refl _ | exact fun _ => TimeVal.ofCount_ns _ | exact fun h => SMap.wf_filter _ h | exact fun _ => SMap.wf_nil _ _ | skip)

theorem State.stepAccept_keeps {m : Nat} {z s : State} (h0 : Keeps m z s) (hm : 0x200000008000 &&& m = 0x200000008000) (offset : Int) (b : Bound) (source : Nat) : Keeps m z (State.stepAccept s offset b source) := by
  unfold State.stepAccept
  repeat' first
    | (extract_lets +onlyGivenNames x; refine keeps_cut (m := m) (z := z) (x := x) ?_ (fun hx => ?_); rotate_left; generalize x = y at hx ⊢; clear x; rotate_left; subst x)
    | (extract_lets +onlyGivenNames x; first | (subst x) | skip)
    | with_reducible assumption
    | exact mask_sub (by decide) hm
    | with_reducible apply State.setB_keeps
    | (intro _)
    | (simp only [keeps_mk]; refine keeps_upd ?_ ?_ ?_ ?_ ?_ ?_ ?_ ?_ ?_ ?_ ?_ ?_ ?_ ?_ ?_ ?_ ?_ ?_ ?_ ?_ ?_ ?_ ?_ ?_ ?_ ?_ ?_ ?_ ?_ ?_ ?_ ?_ ?_ ?_ ?_ ?_ ?_ <;> first | exact same_rfl | exact same_bit (by decide) hm | exact id | exact Fuses.Le.refl _ | exact fun _ => TimeVal.ofCount_ns _ | exact fun h => SMap.wf_filter _ h | exact fun _ => SMap.wf_nil _ _ | skip)
    | (with_reducible apply keeps_pair)

theorem State.stepHost_keeps {m : Nat} {z s : State} (h0 : Keeps m z s) (hm : 0x205000018080 &&& m = 0x205000018080) (sec : BitVec 64) (ns frac : BitVec 32) (b : Bound) : Keeps m z (State.stepHost s sec ns frac b).1 := by
  unfold State.stepHost
  repeat' first
    | (extract_lets +onlyGivenNames x; refine keeps_cut (m := m) (z := z) (x := x) ?_ (fun hx => ?_); rotate_left; generalize x = y at hx ⊢; clear x; rotate_left; subst x)
    | (extract_lets +onlyGivenNames x; first | (subst x) | skip)
    | with_reducible assumption
    | exact mask_sub (by decide) hm
    | with_reducible apply State.stepAccept_keeps
    | with_reducible apply State.hostRefused_keeps
    | with_reducible apply State.setB_keeps
    | with_reducible apply State.setF_keeps
    | (intro _)
    | (split)
    | (with_reducible apply keeps_pair)

theorem State.fireEvent_keeps {m : Nat} {z s : State} (h0 : Keeps m z s) (hm : 0x4020C108004180 &&& m = 0x4020C108004180) (h : Nat) (e : Event) (late stepped : Bool) : Keeps m z (State.fireEvent s h e late stepped) := by
  unfold State.fireEvent
  repeat' first
    | (extract_lets +onlyGivenNames x; refine keeps_cut (m := m) (z := z) (x := x) ?_ (fun hx => ?_); rotate_left; generalize x = y at hx ⊢; clear x; rotate_left; subst x)
    | (extract_lets +onlyGivenNames x; first | (subst x) | skip)
    | with_reducible assumption
    | exact mask_sub (by decide) hm
    | with_reducible apply State.notify_keeps
    | with_reducible apply State.freeSlot_keeps
    | with_reducible apply State.irqLatch_keeps
    | with_reducible apply State.bump_keeps
    | with_reducible apply State.setB_keeps
    | (intro _)
    | with_reducible apply keeps_ite
    | with_reducible apply keeps_ite_fst
    | (split)
    | (with_reducible apply keeps_pair)

theorem State.skipEvents_keeps {m : Nat} {z s : State} (h0 : Keeps m z s) (hm : 0x4020C108004D80 &&& m = 0x4020C108004D80) (from_ to_ : Nat) : Keeps m z (State.skipEvents s from_ to_) := by
  unfold State.skipEvents
  repeat' first
    | (extract_lets +onlyGivenNames x; refine keeps_cut (m := m) (z := z) (x := x) ?_ (fun hx => ?_); rotate_left; generalize x = y at hx ⊢; clear x; rotate_left; subst x)
    | (extract_lets +onlyGivenNames x; first | (subst x) | skip)
    | with_reducible assumption
    | exact mask_sub (by decide) hm
    | with_reducible apply State.fireEvent_keeps
    | with_reducible apply State.failLaunch_keeps
    | with_reducible apply State.count_keeps
    | (with_reducible apply keeps_foldl)
    | (intro _ _ _)
    | (intro _)
    | with_reducible apply keeps_ite
    | with_reducible apply keeps_ite_fst
    | (split)
    | (with_reducible apply keeps_pair)

theorem State.stepApply_keeps {m : Nat} {z s : State} (h0 : Keeps m z s) (hm : 0x41A0C1095CCD8C &&& m = 0x41A0C1095CCD8C) (r : StepReq) : Keeps m z (State.stepApply s r) := by
  unfold State.stepApply
  repeat' first
    | (extract_lets +onlyGivenNames x; refine keeps_cut (m := m) (z := z) (x := x) ?_ (fun hx => ?_); rotate_left; generalize x = y at hx ⊢; clear x; rotate_left; subst x)
    | (extract_lets +onlyGivenNames x; first | (subst x) | skip)
    | with_reducible assumption
    | exact mask_sub (by decide) hm
    | with_reducible apply State.skipEvents_keeps
    | with_reducible apply State.shutSettle_keeps
    | with_reducible apply State.prtStep_keeps
    | with_reducible apply State.synStep_keeps
    | with_reducible apply State.ensStep_keeps
    | with_reducible apply State.ticDisturb_keeps
    | with_reducible apply State.journal_keeps
    | with_reducible apply State.setPair_keeps
    | with_reducible apply State.setB_keeps
    | (intro _)
    | with_reducible apply keeps_ite
    | with_reducible apply keeps_ite_fst
    | (simp only [keeps_mk]; refine keeps_upd ?_ ?_ ?_ ?_ ?_ ?_ ?_ ?_ ?_ ?_ ?_ ?_ ?_ ?_ ?_ ?_ ?_ ?_ ?_ ?_ ?_ ?_ ?_ ?_ ?_ ?_ ?_ ?_ ?_ ?_ ?_ ?_ ?_ ?_ ?_ ?_ ?_ <;> first | exact same_rfl | exact same_bit (by decide) hm | exact id | exact Fuses.Le.refl _ | exact fun _ => TimeVal.ofCount_ns _ | exact fun h => SMap.wf_filter _ h | exact fun _ => SMap.wf_nil _ _ | skip)
    | (with_reducible apply keeps_pair)

theorem State.stepTake_keeps {m : Nat} {z s : State} (h0 : Keeps m z s) (hm : 0x41A0C1095CCD8C &&& m = 0x41A0C1095CCD8C) : Keeps m z (State.stepTake s) := by
  unfold State.stepTake
  repeat' first
    | (extract_lets +onlyGivenNames x; refine keeps_cut (m := m) (z := z) (x := x) ?_ (fun hx => ?_); rotate_left; generalize x = y at hx ⊢; clear x; rotate_left; subst x)
    | (extract_lets +onlyGivenNames x; first | (subst x) | skip)
    | with_reducible assumption
    | exact mask_sub (by decide) hm
    | with_reducible apply State.stepApply_keeps
    | (intro _)
    | with_reducible apply keeps_ite
    | (split)

theorem State.leapFlags_keeps {m : Nat} {z s : State} (h0 : Keeps m z s) (hm : 0x200000000000 &&& m = 0x200000000000) : Keeps m z (State.leapFlags s) := by
  unfold State.leapFlags
  repeat' first
    | (extract_lets +onlyGivenNames x; refine keeps_cut (m := m) (z := z) (x := x) ?_ (fun hx => ?_); rotate_left; generalize x = y at hx ⊢; clear x; rotate_left; subst x)
    | (extract_lets +onlyGivenNames x; first | (subst x) | skip)
    | with_reducible assumption
    | exact mask_sub (by decide) hm
    | with_reducible apply State.setB_keeps
    | (intro _)
    | with_reducible apply keeps_ite
    | with_reducible apply keeps_ite_fst
    | (split)
    | (with_reducible apply keeps_pair)

theorem State.leapRefuse_keeps {m : Nat} {z s : State} (h0 : Keeps m z s) (hm : 0x200000000000 &&& m = 0x200000000000) (reason : Nat) : Keeps m z (State.leapRefuse s reason) := by
  unfold State.leapRefuse
  repeat' first
    | with_reducible assumption
    | exact mask_sub (by decide) hm
    | with_reducible apply State.setB_keeps
    | with_reducible apply State.setF_keeps
    | (intro _)

theorem State.leapArm_keeps {m : Nat} {z s : State} (h0 : Keeps m z s) (hm : 0x200040008080 &&& m = 0x200040008080) (new : BitVec 16) : Keeps m z (State.leapArm s new) := by
  unfold State.leapArm
  repeat' first
    | (extract_lets +onlyGivenNames x; refine keeps_cut (m := m) (z := z) (x := x) ?_ (fun hx => ?_); rotate_left; generalize x = y at hx ⊢; clear x; rotate_left; subst x)
    | (extract_lets +onlyGivenNames x; first | (subst x) | skip)
    | with_reducible assumption
    | exact mask_sub (by decide) hm
    | with_reducible apply State.leapRefuse_keeps
    | with_reducible apply State.leapFlags_keeps
    | with_reducible apply State.engineArm_keeps
    | with_reducible apply State.setB_keeps
    | with_reducible apply State.setF_keeps
    | (intro _)
    | with_reducible apply keeps_ite
    | with_reducible apply keeps_ite_fst
    | (simp only [keeps_mk]; refine keeps_upd ?_ ?_ ?_ ?_ ?_ ?_ ?_ ?_ ?_ ?_ ?_ ?_ ?_ ?_ ?_ ?_ ?_ ?_ ?_ ?_ ?_ ?_ ?_ ?_ ?_ ?_ ?_ ?_ ?_ ?_ ?_ ?_ ?_ ?_ ?_ ?_ ?_ <;> first | exact same_rfl | exact same_bit (by decide) hm | exact id | exact Fuses.Le.refl _ | exact fun _ => TimeVal.ofCount_ns _ | exact fun h => SMap.wf_filter _ h | exact fun _ => SMap.wf_nil _ _ | skip)
    | (with_reducible apply keeps_pair)

theorem State.leapCancel_keeps {m : Nat} {z s : State} (h0 : Keeps m z s) (hm : 0x200040008080 &&& m = 0x200040008080) : Keeps m z (State.leapCancel s) := by
  unfold State.leapCancel
  repeat' first
    | (extract_lets +onlyGivenNames x; refine keeps_cut (m := m) (z := z) (x := x) ?_ (fun hx => ?_); rotate_left; generalize x = y at hx ⊢; clear x; rotate_left; subst x)
    | (extract_lets +onlyGivenNames x; first | (subst x) | skip)
    | with_reducible assumption
    | exact mask_sub (by decide) hm
    | with_reducible apply State.leapRefuse_keeps
    | with_reducible apply State.leapFlags_keeps
    | with_reducible apply State.engineFree_keeps
    | with_reducible apply State.setB_keeps
    | with_reducible apply State.setF_keeps
    | (intro _)
    | with_reducible apply keeps_ite
    | with_reducible apply keeps_ite_fst
    | (simp only [keeps_mk]; refine keeps_upd ?_ ?_ ?_ ?_ ?_ ?_ ?_ ?_ ?_ ?_ ?_ ?_ ?_ ?_ ?_ ?_ ?_ ?_ ?_ ?_ ?_ ?_ ?_ ?_ ?_ ?_ ?_ ?_ ?_ ?_ ?_ ?_ ?_ ?_ ?_ ?_ ?_ <;> first | exact same_rfl | exact same_bit (by decide) hm | exact id | exact Fuses.Le.refl _ | exact fun _ => TimeVal.ofCount_ns _ | exact fun h => SMap.wf_filter _ h | exact fun _ => SMap.wf_nil _ _ | skip)
    | (split)
    | (with_reducible apply keeps_pair)

theorem State.leapCtl_keeps {m : Nat} {z s : State} (h0 : Keeps m z s) (hm : 0x200040008080 &&& m = 0x200040008080) (v : BitVec 32) : Keeps m z (State.leapCtl s v) := by
  unfold State.leapCtl
  repeat' first
    | (extract_lets +onlyGivenNames x; refine keeps_cut (m := m) (z := z) (x := x) ?_ (fun hx => ?_); rotate_left; generalize x = y at hx ⊢; clear x; rotate_left; subst x)
    | (extract_lets +onlyGivenNames x; first | (subst x) | skip)
    | with_reducible assumption
    | exact mask_sub (by decide) hm
    | with_reducible apply State.leapCancel_keeps
    | with_reducible apply State.leapArm_keeps
    | with_reducible apply State.wr_keeps
    | (intro _)
    | with_reducible apply keeps_ite

theorem State.utcWrite_keeps {m : Nat} {z s : State} (h0 : Keeps m z s) (hm : 0x205440010080 &&& m = 0x205440010080) (v : BitVec 32) : Keeps m z (State.utcWrite s v) := by
  unfold State.utcWrite
  repeat' first
    | (extract_lets +onlyGivenNames x; refine keeps_cut (m := m) (z := z) (x := x) ?_ (fun hx => ?_); rotate_left; generalize x = y at hx ⊢; clear x; rotate_left; subst x)
    | (extract_lets +onlyGivenNames x; first | (subst x) | skip)
    | with_reducible assumption
    | exact mask_sub (by decide) hm
    | with_reducible apply State.lockViol_keeps
    | with_reducible apply State.wr_keeps
    | (intro _)
    | with_reducible apply keeps_ite
    | with_reducible apply keeps_ite_fst
    | (simp only [keeps_mk]; refine keeps_upd ?_ ?_ ?_ ?_ ?_ ?_ ?_ ?_ ?_ ?_ ?_ ?_ ?_ ?_ ?_ ?_ ?_ ?_ ?_ ?_ ?_ ?_ ?_ ?_ ?_ ?_ ?_ ?_ ?_ ?_ ?_ ?_ ?_ ?_ ?_ ?_ ?_ <;> first | exact same_rfl | exact same_bit (by decide) hm | exact id | exact Fuses.Le.refl _ | exact fun _ => TimeVal.ofCount_ns _ | exact fun h => SMap.wf_filter _ h | exact fun _ => SMap.wf_nil _ _ | skip)
    | (with_reducible apply keeps_pair)

theorem State.snapGo_keeps {m : Nat} {z s : State} (h0 : Keeps m z s) (hm : 0x20400000C000 &&& m = 0x20400000C000) (v : BitVec 32) : Keeps m z (State.snapGo s v) := by
  unfold State.snapGo
  repeat' first
    | (extract_lets +onlyGivenNames x; refine keeps_cut (m := m) (z := z) (x := x) ?_ (fun hx => ?_); rotate_left; generalize x = y at hx ⊢; clear x; rotate_left; subst x)
    | (extract_lets +onlyGivenNames x; first | (subst x) | skip)
    | with_reducible assumption
    | exact mask_sub (by decide) hm
    | with_reducible apply State.irqLine_keeps
    | with_reducible apply State.w1c_keeps
    | with_reducible apply State.setPair_keeps
    | with_reducible apply State.setB_keeps
    | with_reducible apply State.wr_keeps
    | (intro _)
    | with_reducible apply keeps_ite
    | (simp only [keeps_mk]; refine keeps_upd ?_ ?_ ?_ ?_ ?_ ?_ ?_ ?_ ?_ ?_ ?_ ?_ ?_ ?_ ?_ ?_ ?_ ?_ ?_ ?_ ?_ ?_ ?_ ?_ ?_ ?_ ?_ ?_ ?_ ?_ ?_ ?_ ?_ ?_ ?_ ?_ ?_ <;> first | exact same_rfl | exact same_bit (by decide) hm | exact id | exact Fuses.Le.refl _ | exact fun _ => TimeVal.ofCount_ns _ | exact fun h => SMap.wf_filter _ h | exact fun _ => SMap.wf_nil _ _ | skip)

theorem State.snapDone_keeps {m : Nat} {z s : State} (h0 : Keeps m z s) (hm : 0x20400000C000 &&& m = 0x20400000C000) : Keeps m z (State.snapDone s) := by
  unfold State.snapDone
  repeat' first
    | (extract_lets +onlyGivenNames x; refine keeps_cut (m := m) (z := z) (x := x) ?_ (fun hx => ?_); rotate_left; generalize x = y at hx ⊢; clear x; rotate_left; subst x)
    | (extract_lets +onlyGivenNames x; first | (subst x) | skip)
    | with_reducible assumption
    | exact mask_sub (by decide) hm
    | with_reducible apply State.irqLine_keeps
    | with_reducible apply State.setB_keeps
    | with_reducible apply State.setF_keeps
    | (intro _)
    | with_reducible apply keeps_ite
    | (simp only [keeps_mk]; refine keeps_upd ?_ ?_ ?_ ?_ ?_ ?_ ?_ ?_ ?_ ?_ ?_ ?_ ?_ ?_ ?_ ?_ ?_ ?_ ?_ ?_ ?_ ?_ ?_ ?_ ?_ ?_ ?_ ?_ ?_ ?_ ?_ ?_ ?_ ?_ ?_ ?_ ?_ <;> first | exact same_rfl | exact same_bit (by decide) hm | exact id | exact Fuses.Le.refl _ | exact fun _ => TimeVal.ofCount_ns _ | exact fun h => SMap.wf_filter _ h | exact fun _ => SMap.wf_nil _ _ | skip)

theorem State.arm_keeps {m : Nat} {z s : State} (h0 : Keeps m z s) (hm : 0x4020C108004180 &&& m = 0x4020C108004180) (p : Party) (h : Nat) (e : Event) (policyFire fixedLead : Bool) : Keeps m z (State.arm s p h e policyFire fixedLead).1 := by
  unfold State.arm
  repeat' first
    | with_reducible assumption
    | exact mask_sub (by decide) hm
    | with_reducible apply State.fireEvent_keeps
    | with_reducible apply State.count_keeps
    | with_reducible apply State.armSlot_keeps
    | (intro _)
    | with_reducible apply keeps_ite
    | with_reducible apply keeps_ite_fst
    | (split)
    | (with_reducible apply keeps_pair)

theorem State.cancel_keeps {m : Nat} {z s : State} (h0 : Keeps m z s) (hm : 0x200000000080 &&& m = 0x200000000080) (p : Party) (h : Nat) : Keeps m z (State.cancel s p h).1 := by
  unfold State.cancel
  repeat' first
    | (extract_lets +onlyGivenNames x; refine keeps_cut (m := m) (z := z) (x := x) ?_ (fun hx => ?_); rotate_left; generalize x = y at hx ⊢; clear x; rotate_left; subst x)
    | (extract_lets +onlyGivenNames x; first | (subst x) | skip)
    | with_reducible assumption
    | exact mask_sub (by decide) hm
    | with_reducible apply State.freeSlot_keeps
    | (intro _)
    | with_reducible apply keeps_ite
    | with_reducible apply keeps_ite_fst
    | (split)
    | (with_reducible apply keeps_pair)

theorem State.dclkTick_keeps {m : Nat} {z s : State} (h0 : Keeps m z s) (hm : 0x41A0C1095CCDCC &&& m = 0x41A0C1095CCDCC) : Keeps m z (State.dclkTick s) := by
  unfold State.dclkTick
  repeat' first
    | (extract_lets +onlyGivenNames x; refine keeps_cut (m := m) (z := z) (x := x) ?_ (fun hx => ?_); rotate_left; generalize x = y at hx ⊢; clear x; rotate_left; subst x)
    | (extract_lets +onlyGivenNames x; first | (subst x) | skip)
    | with_reducible assumption
    | exact mask_sub (by decide) hm
    | with_reducible apply State.stepTake_keeps
    | with_reducible apply State.incTake_keeps
    | (intro _)
    | (simp only [keeps_mk]; refine keeps_upd ?_ ?_ ?_ ?_ ?_ ?_ ?_ ?_ ?_ ?_ ?_ ?_ ?_ ?_ ?_ ?_ ?_ ?_ ?_ ?_ ?_ ?_ ?_ ?_ ?_ ?_ ?_ ?_ ?_ ?_ ?_ ?_ ?_ ?_ ?_ ?_ ?_ <;> first | exact same_rfl | exact same_bit (by decide) hm | exact id | exact Fuses.Le.refl _ | exact fun _ => TimeVal.ofCount_ns _ | exact fun h => SMap.wf_filter _ h | exact fun _ => SMap.wf_nil _ _ | skip)

/-! ### Machine/TicOps.lean -/

theorem State.setTch_keeps {m : Nat} {z s : State} (h0 : Keeps m z s) (hm : 0x80000 &&& m = 0x80000) (n : Nat) (c : TicChan) : Keeps m z (State.setTch s n c) := by
  unfold State.setTch
  repeat' first
    | (extract_lets +onlyGivenNames x; refine keeps_cut (m := m) (z := z) (x := x) ?_ (fun hx => ?_); rotate_left; generalize x = y at hx ⊢; clear x; rotate_left; subst x)
    | (extract_lets +onlyGivenNames x; first | (subst x) | skip)
    | with_reducible assumption
    | exact mask_sub (by decide) hm
    | (intro _)
    | (simp only [keeps_mk]; refine keeps_upd ?_ ?_ ?_ ?_ ?_ ?_ ?_ ?_ ?_ ?_ ?_ ?_ ?_ ?_ ?_ ?_ ?_ ?_ ?_ ?_ ?_ ?_ ?_ ?_ ?_ ?_ ?_ ?_ ?_ ?_ ?_ ?_ ?_ ?_ ?_ ?_ ?_ <;> first | exact same_rfl | exact same_bit (by decide) hm | exact id | exact Fuses.Le.refl _ | exact fun _ => TimeVal.ofCount_ns _ | exact fun h => SMap.wf_filter _ h | exact fun _ => SMap.wf_nil _ _ | skip)

theorem State.ticRingLine_keeps {m : Nat} {z s : State} (h0 : Keeps m z s) (hm : 0x4000004000 &&& m = 0x4000004000) (n : Nat) : Keeps m z (State.ticRingLine s n) := by
  unfold State.ticRingLine
  repeat' first
    | (extract_lets +onlyGivenNames x; refine keeps_cut (m := m) (z := z) (x := x) ?_ (fun hx => ?_); rotate_left; generalize x = y at hx ⊢; clear x; rotate_left; subst x)
    | (extract_lets +onlyGivenNames x; first | (subst x) | skip)
    | with_reducible assumption
    | exact mask_sub (by decide) hm
    | with_reducible apply State.irqLine_keeps
    | (intro _)

theorem State.ticAccept_keeps {m : Nat} {z s : State} (h0 : Keeps m z s) (hm : 0x400000000000 &&& m = 0x400000000000) : Keeps m z (State.ticAccept s) := by
  unfold State.ticAccept
  repeat' first
    | with_reducible assumption
    | exact mask_sub (by decide) hm
    | with_reducible apply State.setB_keeps
    | (intro _)

theorem State.ticRange_keeps {m : Nat} {z s : State} (h0 : Keeps m z s) (hm : 0x400000000000 &&& m = 0x400000000000) : Keeps m z (State.ticRange s) := by
  unfold State.ticRange
  repeat' first
    | with_reducible assumption
    | exact mask_sub (by decide) hm
    | with_reducible apply State.setB_keeps
    | (intro _)

theorem State.calRequest_keeps {m : Nat} {z s : State} (h0 : Keeps m z s) (hm : 0x80000 &&& m = 0x80000) (n : Nat) (byOwner : Bool) : Keeps m z (State.calRequest s n byOwner) := by
  unfold State.calRequest
  repeat' first
    | (extract_lets +onlyGivenNames x; refine keeps_cut (m := m) (z := z) (x := x) ?_ (fun hx => ?_); rotate_left; generalize x = y at hx ⊢; clear x; rotate_left; subst x)
    | (extract_lets +onlyGivenNames x; first | (subst x) | skip)
    | with_reducible assumption
    | exact mask_sub (by decide) hm
    | with_reducible apply State.setTch_keeps
    | (intro _)
    | with_reducible apply keeps_ite
    | with_reducible apply keeps_ite_fst
    | (with_reducible apply keeps_pair)

theorem State.setEnt_keeps {m : Nat} {z s : State} (h0 : Keeps m z s) (hm : 0x100000 &&& m = 0x100000) (r : Nat) (e : EnsEntry) : Keeps m z (State.setEnt s r e) := by
  unfold State.setEnt
  repeat' first
    | (extract_lets +onlyGivenNames x; refine keeps_cut (m := m) (z := z) (x := x) ?_ (fun hx => ?_); rotate_left; generalize x = y at hx ⊢; clear x; rotate_left; subst x)
    | (extract_lets +onlyGivenNames x; first | (subst x) | skip)
    | with_reducible assumption
    | exact mask_sub (by decide) hm
    | (intro _)
    | (simp only [keeps_mk]; refine keeps_upd ?_ ?_ ?_ ?_ ?_ ?_ ?_ ?_ ?_ ?_ ?_ ?_ ?_ ?_ ?_ ?_ ?_ ?_ ?_ ?_ ?_ ?_ ?_ ?_ ?_ ?_ ?_ ?_ ?_ ?_ ?_ ?_ ?_ ?_ ?_ ?_ ?_ <;> first | exact same_rfl | exact same_bit (by decide) hm | exact id | exact Fuses.Le.refl _ | exact fun _ => TimeVal.ofCount_ns _ | exact fun h => SMap.wf_filter _ h | exact fun _ => SMap.wf_nil _ _ | skip)

theorem State.ticDrop_keeps {m : Nat} {z s : State} (h0 : Keeps m z s) (hm : 0x400000000000 &&& m = 0x400000000000) (n : Nat) : Keeps m z (State.ticDrop s n) := by
  unfold State.ticDrop
  repeat' first
    | with_reducible assumption
    | exact mask_sub (by decide) hm
    | with_reducible apply State.bump_keeps
    | (intro _)

theorem State.ticDeliver_keeps {m : Nat} {z s : State} (h0 : Keeps m z s) (hm : 0x404000024002 &&& m = 0x404000024002) (n : Nat) (bytes : List Byte) : Keeps m z (State.ticDeliver s n bytes) := by
  unfold State.ticDeliver
  repeat' first
    | (extract_lets +onlyGivenNames x; refine keeps_cut (m := m) (z := z) (x := x) ?_ (fun hx => ?_); rotate_left; generalize x = y at hx ⊢; clear x; rotate_left; subst x)
    | (extract_lets +onlyGivenNames x; first | (subst x) | skip)
    | with_reducible assumption
    | exact mask_sub (by decide) hm
    | with_reducible apply State.ticDrop_keeps
    | with_reducible apply State.ticRingLine_keeps
    | with_reducible apply State.storeMem_keeps
    | with_reducible apply State.bump_keeps
    | with_reducible apply State.setB_keeps
    | (intro _)
    | with_reducible apply keeps_ite

theorem State.osOpen_keeps {m : Nat} {z s : State} (h0 : Keeps m z s) (hm : 0x600000080080 &&& m = 0x600000080080) (n : Nat) (at_ : TimeVal) : Keeps m z (State.osOpen s n at_) := by
  unfold State.osOpen
  repeat' first
    | (extract_lets +onlyGivenNames x; refine keeps_cut (m := m) (z := z) (x := x) ?_ (fun hx => ?_); rotate_left; generalize x = y at hx ⊢; clear x; rotate_left; subst x)
    | (extract_lets +onlyGivenNames x; first | (subst x) | skip)
    | with_reducible assumption
    | exact mask_sub (by decide) hm
    | with_reducible apply State.setTch_keeps
    | with_reducible apply State.engineArm_keeps
    | with_reducible apply State.setB_keeps
    | (intro _)
    | with_reducible apply keeps_ite
    | with_reducible apply keeps_ite_fst
    | (with_reducible apply keeps_pair)

theorem State.osDone_keeps {m : Nat} {z s : State} (h0 : Keeps m z s) (hm : 0x604000080080 &&& m = 0x604000080080) (n status : Nat) : Keeps m z (State.osDone s n status) := by
  unfold State.osDone
  repeat' first
    | (extract_lets +onlyGivenNames x; refine keeps_cut (m := m) (z := z) (x := x) ?_ (fun hx => ?_); rotate_left; generalize x = y at hx ⊢; clear x; rotate_left; subst x)
    | (extract_lets +onlyGivenNames x; first | (subst x) | skip)
    | with_reducible assumption
    | exact mask_sub (by decide) hm
    | with_reducible apply State.setTch_keeps
    | with_reducible apply State.engineFree_keeps
    | with_reducible apply State.irqPulse_keeps
    | with_reducible apply State.setB_keeps
    | (intro _)

theorem State.osClose_keeps {m : Nat} {z s : State} (h0 : Keeps m z s) (hm : 0x6040000A4082 &&& m = 0x6040000A4082) (n : Nat) : Keeps m z (State.osClose s n) := by
  unfold State.osClose
  repeat' first
    | (extract_lets +onlyGivenNames x; refine keeps_cut (m := m) (z := z) (x := x) ?_ (fun hx => ?_); rotate_left; generalize x = y at hx ⊢; clear x; rotate_left; subst x)
    | (extract_lets +onlyGivenNames x; first | (subst x) | skip)
    | with_reducible assumption
    | exact mask_sub (by decide) hm
    | with_reducible apply State.osDone_keeps
    | with_reducible apply State.ticDeliver_keeps
    | with_reducible apply State.setTch_keeps
    | (intro _)
    | with_reducible apply keeps_ite
    | with_reducible apply keeps_ite_fst
    | (split)
    | (with_reducible apply keeps_pair)

theorem State.addSample_keeps {m : Nat} {z s : State} (h0 : Keeps m z s) (hm : 0x100000 &&& m = 0x100000) (r : Nat) (x : EnsSample) : Keeps m z (State.addSample s r x) := by
  unfold State.addSample
  repeat' first
    | (extract_lets +onlyGivenNames x; refine keeps_cut (m := m) (z := z) (x := x) ?_ (fun hx => ?_); rotate_left; generalize x = y at hx ⊢; clear x; rotate_left; subst x)
    | (extract_lets +onlyGivenNames x; first | (subst x) | skip)
    | with_reducible assumption
    | exact mask_sub (by decide) hm
    | with_reducible apply State.setEnt_keeps
    | (intro _)

theorem State.streamSample_keeps {m : Nat} {z s : State} (h0 : Keeps m z s) (hm : 0x100000 &&& m = 0x100000) (r : Nat) (mark t : TimeVal) (b : BitVec 32) (discont : Bool) : Keeps m z (State.streamSample s r mark t b discont) := by
  unfold State.streamSample
  repeat' first
    | (extract_lets +onlyGivenNames x; refine keeps_cut (m := m) (z := z) (x := x) ?_ (fun hx => ?_); rotate_left; generalize x = y at hx ⊢; clear x; rotate_left; subst x)
    | (extract_lets +onlyGivenNames x; first | (subst x) | skip)
    | with_reducible assumption
    | exact mask_sub (by decide) hm
    | with_reducible apply State.setEnt_keeps
    | with_reducible apply State.count_keeps
    | (intro _)
    | with_reducible apply keeps_ite
    | with_reducible apply keeps_ite_fst
    | (split)
    | (with_reducible apply keeps_pair)

theorem State.streamMissing_keeps {m : Nat} {z s : State} (h0 : Keeps m z s) (hm : 0x100000 &&& m = 0x100000) (r : Nat) : Keeps m z (State.streamMissing s r) := by
  unfold State.streamMissing
  repeat' first
    | (extract_lets +onlyGivenNames x; refine keeps_cut (m := m) (z := z) (x := x) ?_ (fun hx => ?_); rotate_left; generalize x = y at hx ⊢; clear x; rotate_left; subst x)
    | (extract_lets +onlyGivenNames x; first | (subst x) | skip)
    | with_reducible assumption
    | exact mask_sub (by decide) hm
    | with_reducible apply State.setEnt_keeps
    | (intro _)
    | with_reducible apply keeps_ite
    | (split)

theorem State.keeperEdge_keeps {m : Nat} {z s : State} (h0 : Keeps m z s) (hm : 0xC0000 &&& m = 0xC0000) (k : Nat) : Keeps m z (State.keeperEdge s k) := by
  unfold State.keeperEdge
  repeat' first
    | (extract_lets +onlyGivenNames x; refine keeps_cut (m := m) (z := z) (x := x) ?_ (fun hx => ?_); rotate_left; generalize x = y at hx ⊢; clear x; rotate_left; subst x)
    | (extract_lets +onlyGivenNames x; first | (subst x) | skip)
    | with_reducible assumption
    | exact mask_sub (by decide) hm
    | with_reducible apply State.setTch_keeps
    | (intro _)
    | with_reducible apply keeps_ite
    | with_reducible apply keeps_ite_fst
    | (simp only [keeps_mk]; refine keeps_upd ?_ ?_ ?_ ?_ ?_ ?_ ?_ ?_ ?_ ?_ ?_ ?_ ?_ ?_ ?_ ?_ ?_ ?_ ?_ ?_ ?_ ?_ ?_ ?_ ?_ ?_ ?_ ?_ ?_ ?_ ?_ ?_ ?_ ?_ ?_ ?_ ?_ <;> first | exact same_rfl | exact same_bit (by decide) hm | exact id | exact Fuses.Le.refl _ | exact fun _ => TimeVal.ofCount_ns _ | exact fun h => SMap.wf_filter _ h | exact fun _ => SMap.wf_nil _ _ | skip)
    | (split)
    | (with_reducible apply keeps_pair)

theorem State.edgeSkip_keeps {m : Nat} {z s : State} (h0 : Keeps m z s) (hm : 0x400000080000 &&& m = 0x400000080000) (n : Nat) : Keeps m z (State.edgeSkip s n) := by
  unfold State.edgeSkip
  repeat' first
    | (extract_lets +onlyGivenNames x; refine keeps_cut (m := m) (z := z) (x := x) ?_ (fun hx => ?_); rotate_left; generalize x = y at hx ⊢; clear x; rotate_left; subst x)
    | (extract_lets +onlyGivenNames x; first | (subst x) | skip)
    | with_reducible assumption
    | exact mask_sub (by decide) hm
    | with_reducible apply State.setTch_keeps
    | with_reducible apply State.bump_keeps
    | (intro _)
    | (with_reducible apply keeps_pair)

theorem State.userEdge_keeps {m : Nat} {z s : State} (h0 : Keeps m z s) (hm : 0x6040001A4082 &&& m = 0x6040001A4082) (n k : Nat) : Keeps m z (State.userEdge s n k) := by
  unfold State.userEdge
  repeat' first
    | (extract_lets +onlyGivenNames x; refine keeps_cut (m := m) (z := z) (x := x) ?_ (fun hx => ?_); rotate_left; generalize x = y at hx ⊢; clear x; rotate_left; subst x)
    | (extract_lets +onlyGivenNames x; first | (subst x) | skip)
    | with_reducible assumption
    | exact mask_sub (by decide) hm
    | with_reducible apply State.edgeSkip_keeps
    | with_reducible apply State.streamSample_keeps
    | with_reducible apply State.osDone_keeps
    | with_reducible apply State.osOpen_keeps
    | with_reducible apply State.ticDeliver_keeps
    | with_reducible apply State.ticDrop_keeps
    | with_reducible apply State.setEnt_keeps
    | with_reducible apply State.setTch_keeps
    | with_reducible apply State.count_keeps
    | with_reducible apply State.bump_keeps
    | (intro _)
    | with_reducible apply keeps_ite
    | with_reducible apply keeps_ite_fst
    | (split)
    | (with_reducible apply keeps_pair)

theorem State.calMark_keeps {m : Nat} {z s : State} (h0 : Keeps m z s) (hm : 0x400000000000 &&& m = 0x400000000000) (n : Nat) (b : Bool) : Keeps m z (State.calMark s n b) := by
  unfold State.calMark
  repeat' first
    | with_reducible assumption
    | exact mask_sub (by decide) hm
    | with_reducible apply State.setB_keeps
    | (intro _)
    | with_reducible apply keeps_ite

theorem State.calStart_keeps {m : Nat} {z s : State} (h0 : Keeps m z s) (hm : 0x400000080000 &&& m = 0x400000080000) (n : Nat) : Keeps m z (State.calStart s n) := by
  unfold State.calStart
  repeat' first
    | (extract_lets +onlyGivenNames x; refine keeps_cut (m := m) (z := z) (x := x) ?_ (fun hx => ?_); rotate_left; generalize x = y at hx ⊢; clear x; rotate_left; subst x)
    | (extract_lets +onlyGivenNames x; first | (subst x) | skip)
    | with_reducible assumption
    | exact mask_sub (by decide) hm
    | with_reducible apply State.calMark_keeps
    | with_reducible apply State.setTch_keeps
    | (intro _)
    | (with_reducible apply keeps_pair)

theorem State.showTable_keeps {m : Nat} {z s : State} (h0 : Keeps m z s) (hm : 0x400000000000 &&& m = 0x400000000000) (n : Nat) (t : CalTable) : Keeps m z (State.showTable s n t) := by
  unfold State.showTable
  repeat' first
    | (extract_lets +onlyGivenNames x; refine keeps_cut (m := m) (z := z) (x := x) ?_ (fun hx => ?_); rotate_left; generalize x = y at hx ⊢; clear x; rotate_left; subst x)
    | (extract_lets +onlyGivenNames x; first | (subst x) | skip)
    | with_reducible assumption
    | exact mask_sub (by decide) hm
    | with_reducible apply State.wr_keeps
    | (with_reducible apply keeps_foldl)
    | (with_reducible apply keeps_getD)
    | (intro _ _ _)
    | (intro _)
    | with_reducible apply keeps_ite

theorem State.calComplete_keeps {m : Nat} {z s : State} (h0 : Keeps m z s) (hm : 0x605040090080 &&& m = 0x605040090080) (n issued : Nat) (hits : List Nat) : Keeps m z (State.calComplete s n issued hits) := by
  unfold State.calComplete
  repeat' first
    | (extract_lets +onlyGivenNames x; refine keeps_cut (m := m) (z := z) (x := x) ?_ (fun hx => ?_); rotate_left; generalize x = y at hx ⊢; clear x; rotate_left; subst x)
    | (extract_lets +onlyGivenNames x; first | (subst x) | skip)
    | with_reducible assumption
    | exact mask_sub (by decide) hm
    | with_reducible apply State.showTable_keeps
    | with_reducible apply State.calMark_keeps
    | with_reducible apply State.setTch_keeps
    | with_reducible refine State.raiseLow_keeps ?_ ?_ (by dsimp only; decide)
    | with_reducible apply State.raise_keeps
    | with_reducible apply State.setB_keeps
    | with_reducible apply State.setF_keeps
    | (intro _)
    | with_reducible apply keeps_ite
    | with_reducible apply keeps_ite_fst
    | (simp only [keeps_mk]; refine keeps_upd ?_ ?_ ?_ ?_ ?_ ?_ ?_ ?_ ?_ ?_ ?_ ?_ ?_ ?_ ?_ ?_ ?_ ?_ ?_ ?_ ?_ ?_ ?_ ?_ ?_ ?_ ?_ ?_ ?_ ?_ ?_ ?_ ?_ ?_ ?_ ?_ ?_ <;> first | exact same_rfl | exact same_bit (by decide) hm | exact id | exact Fuses.Le.refl _ | exact fun _ => TimeVal.ofCount_ns _ | exact fun h => SMap.wf_filter _ h | exact fun _ => SMap.wf_nil _ _ | skip)
    | (split)
    | (with_reducible apply keeps_pair)

theorem State.calRefuse_keeps {m : Nat} {z s : State} (h0 : Keeps m z s) (hm : 0x605000090080 &&& m = 0x605000090080) (n : Nat) : Keeps m z (State.calRefuse s n) := by
  unfold State.calRefuse
  repeat' first
    | (extract_lets +onlyGivenNames x; refine keeps_cut (m := m) (z := z) (x := x) ?_ (fun hx => ?_); rotate_left; generalize x = y at hx ⊢; clear x; rotate_left; subst x)
    | (extract_lets +onlyGivenNames x; first | (subst x) | skip)
    | with_reducible assumption
    | exact mask_sub (by decide) hm
    | with_reducible apply State.setTch_keeps
    | with_reducible refine State.raiseLow_keeps ?_ ?_ (by dsimp only; decide)
    | with_reducible apply State.raise_keeps
    | with_reducible apply State.setB_keeps
    | with_reducible apply State.setF_keeps
    | (intro _)
    | with_reducible apply keeps_ite
    | with_reducible apply keeps_ite_fst
    | (split)
    | (with_reducible apply keeps_pair)

theorem State.ringCommit_keeps {m : Nat} {z s : State} (h0 : Keeps m z s) (hm : 0x404000084000 &&& m = 0x404000084000) (n : Nat) (v : BitVec 32) : Keeps m z (State.ringCommit s n v) := by
  unfold State.ringCommit
  repeat' first
    | (extract_lets +onlyGivenNames x; refine keeps_cut (m := m) (z := z) (x := x) ?_ (fun hx => ?_); rotate_left; generalize x = y at hx ⊢; clear x; rotate_left; subst x)
    | (extract_lets +onlyGivenNames x; first | (subst x) | skip)
    | with_reducible assumption
    | exact mask_sub (by decide) hm
    | with_reducible apply State.ticRange_keeps
    | with_reducible apply State.ticAccept_keeps
    | with_reducible apply State.ticRingLine_keeps
    | with_reducible apply State.setTch_keeps
    | with_reducible apply State.setB_keeps
    | with_reducible apply State.wr_keeps
    | (intro _)
    | with_reducible apply keeps_ite

theorem State.ticCons_keeps {m : Nat} {z s : State} (h0 : Keeps m z s) (hm : 0x404000004000 &&& m = 0x404000004000) (n : Nat) (v : BitVec 32) : Keeps m z (State.ticCons s n v) := by
  unfold State.ticCons
  repeat' first
    | (extract_lets +onlyGivenNames x; refine keeps_cut (m := m) (z := z) (x := x) ?_ (fun hx => ?_); rotate_left; generalize x = y at hx ⊢; clear x; rotate_left; subst x)
    | (extract_lets +onlyGivenNames x; first | (subst x) | skip)
    | with_reducible assumption
    | exact mask_sub (by decide) hm
    | with_reducible apply State.ticRange_keeps
    | with_reducible apply State.ticAccept_keeps
    | with_reducible apply State.ticRingLine_keeps
    | with_reducible apply State.setB_keeps
    | with_reducible apply State.wr_keeps
    | (intro _)
    | with_reducible apply keeps_ite

theorem State.ticIn_keeps {m : Nat} {z s : State} (h0 : Keeps m z s) (hm : 0x400000080000 &&& m = 0x400000080000) (n : Nat) (v : BitVec 32) : Keeps m z (State.ticIn s n v) := by
  unfold State.ticIn
  repeat' first
    | (extract_lets +onlyGivenNames x; refine keeps_cut (m := m) (z := z) (x := x) ?_ (fun hx => ?_); rotate_left; generalize x = y at hx ⊢; clear x; rotate_left; subst x)
    | (extract_lets +onlyGivenNames x; first | (subst x) | skip)
    | with_reducible assumption
    | exact mask_sub (by decide) hm
    | with_reducible apply State.ticRange_keeps
    | with_reducible apply State.ticAccept_keeps
    | with_reducible apply State.setTch_keeps
    | with_reducible apply State.wrRw_keeps
    | (intro _)
    | with_reducible apply keeps_ite
    | with_reducible apply keeps_ite_fst
    | (with_reducible apply keeps_pair)

theorem State.ticCfg_keeps {m : Nat} {z s : State} (h0 : Keeps m z s) (hm : 0x404000084000 &&& m = 0x404000084000) (n : Nat) (v : BitVec 32) : Keeps m z (State.ticCfg s n v) := by
  unfold State.ticCfg
  repeat' first
    | (extract_lets +onlyGivenNames x; refine keeps_cut (m := m) (z := z) (x := x) ?_ (fun hx => ?_); rotate_left; generalize x = y at hx ⊢; clear x; rotate_left; subst x)
    | (extract_lets +onlyGivenNames x; first | (subst x) | skip)
    | with_reducible assumption
    | exact mask_sub (by decide) hm
    | with_reducible apply State.calRequest_keeps
    | with_reducible apply State.ticRange_keeps
    | with_reducible apply State.ticAccept_keeps
    | with_reducible apply State.ticRingLine_keeps
    | with_reducible apply State.wrRw_keeps
    | (intro _)
    | with_reducible apply keeps_ite

theorem State.ticOs_keeps {m : Nat} {z s : State} (h0 : Keeps m z s) (hm : 0x600000080080 &&& m = 0x600000080080) (n : Nat) (v : BitVec 32) : Keeps m z (State.ticOs s n v) := by
  unfold State.ticOs
  repeat' first
    | (extract_lets +onlyGivenNames x; refine keeps_cut (m := m) (z := z) (x := x) ?_ (fun hx => ?_); rotate_left; generalize x = y at hx ⊢; clear x; rotate_left; subst x)
    | (extract_lets +onlyGivenNames x; first | (subst x) | skip)
    | with_reducible assumption
    | exact mask_sub (by decide) hm
    | with_reducible apply State.osOpen_keeps
    | with_reducible apply State.ticRange_keeps
    | with_reducible apply State.ticAccept_keeps
    | with_reducible apply State.wrRw_keeps
    | with_reducible apply State.setB_keeps
    | (intro _)
    | with_reducible apply keeps_ite

theorem State.ticPlain_keeps {m : Nat} {z s : State} {r : Reg} (h0 : Keeps m z s) (hm : 0x400000000000 &&& m = 0x400000000000) (hr_bit : r.bit &&& m = r.bit) (n : Nat) (v : BitVec 32) (ok : Bool) : Keeps m z (State.ticPlain s r n v ok) := by
  unfold State.ticPlain
  repeat' first
    | with_reducible assumption
    | exact mask_sub (by decide) hm
    | with_reducible apply State.ticRange_keeps
    | with_reducible apply State.ticAccept_keeps
    | with_reducible apply State.wrRw_keeps
    | (intro _)
    | with_reducible apply keeps_ite

theorem State.ticWrite_keeps {m : Nat} {z s : State} {r : Reg} (h0 : Keeps m z s) (hm : 0x604000084080 &&& m = 0x604000084080) (hr_bit : r.bit &&& m = r.bit) (n : Nat) (v : BitVec 32) : Keeps m z (State.ticWrite s r n v) := by
  unfold State.ticWrite
  repeat' first
    | (extract_lets +onlyGivenNames x; refine keeps_cut (m := m) (z := z) (x := x) ?_ (fun hx => ?_); rotate_left; generalize x = y at hx ⊢; clear x; rotate_left; subst x)
    | (extract_lets +onlyGivenNames x; first | (subst x) | skip)
    | with_reducible assumption
    | exact mask_sub (by decide) hm
    | with_reducible apply State.ticPlain_keeps
    | with_reducible apply State.ticOs_keeps
    | with_reducible apply State.ticCfg_keeps
    | with_reducible apply State.ticIn_keeps
    | with_reducible apply State.ticCons_keeps
    | with_reducible apply State.ringCommit_keeps
    | with_reducible apply State.ticAccept_keeps
    | with_reducible apply State.w1c_keeps
    | with_reducible apply State.wr_keeps
    | (intro _)
    | with_reducible apply keeps_ite
    | (simp only [keeps_mk]; refine keeps_upd ?_ ?_ ?_ ?_ ?_ ?_ ?_ ?_ ?_ ?_ ?_ ?_ ?_ ?_ ?_ ?_ ?_ ?_ ?_ ?_ ?_ ?_ ?_ ?_ ?_ ?_ ?_ ?_ ?_ ?_ ?_ ?_ ?_ ?_ ?_ ?_ ?_ <;> first | exact same_rfl | exact same_bit (by decide) hm | exact id | exact Fuses.Le.refl _ | exact fun _ => TimeVal.ofCount_ns _ | exact fun h => SMap.wf_filter _ h | exact fun _ => SMap.wf_nil _ _ | skip)

/-! ### Machine/EnsOps.lean -/

theorem State.unmark_keeps {m : Nat} {z s : State} (h0 : Keeps m z s) (hm : 0x40000 &&& m = 0x40000) (r : Nat) : Keeps m z (State.unmark s r) := by
  unfold State.unmark
  repeat' first
    | (extract_lets +onlyGivenNames x; refine keeps_cut (m := m) (z := z) (x := x) ?_ (fun hx => ?_); rotate_left; generalize x = y at hx ⊢; clear x; rotate_left; subst x)
    | (extract_lets +onlyGivenNames x; first | (subst x) | skip)
    | with_reducible assumption
    | exact mask_sub (by decide) hm
    | (intro _)
    | (simp only [keeps_mk]; refine keeps_upd ?_ ?_ ?_ ?_ ?_ ?_ ?_ ?_ ?_ ?_ ?_ ?_ ?_ ?_ ?_ ?_ ?_ ?_ ?_ ?_ ?_ ?_ ?_ ?_ ?_ ?_ ?_ ?_ ?_ ?_ ?_ ?_ ?_ ?_ ?_ ?_ ?_ <;> first | exact same_rfl | exact same_bit (by decide) hm | exact id | exact Fuses.Le.refl _ | exact fun _ => TimeVal.ofCount_ns _ | exact fun h => SMap.wf_filter _ h | exact fun _ => SMap.wf_nil _ _ | skip)

theorem State.ensTrans_keeps {m : Nat} {z s : State} (h0 : Keeps m z s) (hm : 0x1804000140000 &&& m = 0x1804000140000) (r st cause n : Nat) : Keeps m z (State.ensTrans s r st cause n) := by
  unfold State.ensTrans
  repeat' first
    | (extract_lets +onlyGivenNames x; refine keeps_cut (m := m) (z := z) (x := x) ?_ (fun hx => ?_); rotate_left; generalize x = y at hx ⊢; clear x; rotate_left; subst x)
    | (extract_lets +onlyGivenNames x; first | (subst x) | skip)
    | with_reducible assumption
    | exact mask_sub (by decide) hm
    | with_reducible apply State.unmark_keeps
    | with_reducible apply State.setEnt_keeps
    | with_reducible apply State.journal_keeps
    | with_reducible apply State.irqPulse_keeps
    | with_reducible apply State.setB_keeps
    | with_reducible apply State.setF_keeps
    | with_reducible apply State.wr_keeps
    | (intro _)
    | with_reducible apply keeps_ite
    | with_reducible apply keeps_ite_fst
    | (split)
    | (with_reducible apply keeps_pair)

theorem State.ensRestart_keeps {m : Nat} {z s : State} (h0 : Keeps m z s) (hm : 0x1804000140000 &&& m = 0x1804000140000) (r cause n : Nat) : Keeps m z (State.ensRestart s r cause n) := by
  unfold State.ensRestart
  repeat' first
    | (extract_lets +onlyGivenNames x; refine keeps_cut (m := m) (z := z) (x := x) ?_ (fun hx => ?_); rotate_left; generalize x = y at hx ⊢; clear x; rotate_left; subst x)
    | (extract_lets +onlyGivenNames x; first | (subst x) | skip)
    | with_reducible assumption
    | exact mask_sub (by decide) hm
    | with_reducible apply State.ensTrans_keeps
    | with_reducible apply State.setF_keeps
    | (intro _)

theorem State.ensStep1_keeps {m : Nat} {z s : State} (h0 : Keeps m z s) (hm : 0x1804000140000 &&& m = 0x1804000140000) (n : Nat) (ps : Phases) (r : Nat) : Keeps m z (State.ensStep1 s n ps r) := by
  unfold State.ensStep1
  repeat' first
    | (extract_lets +onlyGivenNames x; refine keeps_cut (m := m) (z := z) (x := x) ?_ (fun hx => ?_); rotate_left; generalize x = y at hx ⊢; clear x; rotate_left; subst x)
    | (extract_lets +onlyGivenNames x; first | (subst x) | skip)
    | with_reducible assumption
    | exact mask_sub (by decide) hm
    | with_reducible apply State.ensTrans_keeps
    | with_reducible apply State.setEnt_keeps
    | (intro _)
    | with_reducible apply keeps_ite
    | with_reducible apply keeps_ite_fst
    | (split)
    | (with_reducible apply keeps_pair)

theorem State.ensStep2_keeps {m : Nat} {z s : State} (h0 : Keeps m z s) (hm : 0x1804000140000 &&& m = 0x1804000140000) (n : Nat) (ps : Phases) (r : Nat) : Keeps m z (State.ensStep2 s n ps r) := by
  unfold State.ensStep2
  repeat' first
    | (extract_lets +onlyGivenNames x; refine keeps_cut (m := m) (z := z) (x := x) ?_ (fun hx => ?_); rotate_left; generalize x = y at hx ⊢; clear x; rotate_left; subst x)
    | (extract_lets +onlyGivenNames x; first | (subst x) | skip)
    | with_reducible assumption
    | exact mask_sub (by decide) hm
    | (dsimp only; exact mask_sub (by decide) hm)
    | with_reducible apply State.ensRestart_keeps
    | with_reducible apply State.ensTrans_keeps
    | with_reducible apply State.setEnt_keeps
    | (intro _)
    | with_reducible apply keeps_ite
    | with_reducible apply keeps_ite_fst
    | (split)
    | (with_reducible apply keeps_pair)

theorem State.qualify_keeps {m : Nat} {z s : State} (h0 : Keeps m z s) (hm : 0x1804000140000 &&& m = 0x1804000140000) (r cause n : Nat) (ps : Phases) (p : SecondPhase) : Keeps m z (State.qualify s r cause n ps p) := by
  unfold State.qualify
  repeat' first
    | (extract_lets +onlyGivenNames x; refine keeps_cut (m := m) (z := z) (x := x) ?_ (fun hx => ?_); rotate_left; generalize x = y at hx ⊢; clear x; rotate_left; subst x)
    | (extract_lets +onlyGivenNames x; first | (subst x) | skip)
    | with_reducible assumption
    | exact mask_sub (by decide) hm
    | with_reducible apply State.ensTrans_keeps
    | with_reducible apply State.setEnt_keeps
    | (intro _)
    | with_reducible apply keeps_ite
    | with_reducible apply keeps_ite_fst
    | (split)
    | (with_reducible apply keeps_pair)

theorem State.ensStep3_keeps {m : Nat} {z s : State} (h0 : Keeps m z s) (hm : 0x1804000140000 &&& m = 0x1804000140000) (n : Nat) (ps : Phases) (r : Nat) : Keeps m z (State.ensStep3 s n ps r) := by
  unfold State.ensStep3
  repeat' first
    | (extract_lets +onlyGivenNames x; refine keeps_cut (m := m) (z := z) (x := x) ?_ (fun hx => ?_); rotate_left; generalize x = y at hx ⊢; clear x; rotate_left; subst x)
    | (extract_lets +onlyGivenNames x; first | (subst x) | skip)
    | with_reducible assumption
    | exact mask_sub (by decide) hm
    | with_reducible apply State.qualify_keeps
    | with_reducible apply State.ensTrans_keeps
    | with_reducible apply State.setEnt_keeps
    | (intro _)
    | with_reducible apply keeps_ite
    | (split)

theorem State.ensStep4_keeps {m : Nat} {z s : State} (h0 : Keeps m z s) (hm : 0x1804000140000 &&& m = 0x1804000140000) (n : Nat) (r : Nat) : Keeps m z (State.ensStep4 s n r) := by
  unfold State.ensStep4
  repeat' first
    | with_reducible assumption
    | exact mask_sub (by decide) hm
    | with_reducible apply State.ensTrans_keeps
    | (intro _)
    | with_reducible apply keeps_ite

theorem State.showAccept_keeps {m : Nat} {z s : State} (h0 : Keeps m z s) (hm : 0x1000000000000 &&& m = 0x1000000000000) : Keeps m z (State.showAccept s) := by
  unfold State.showAccept
  repeat' first
    | (extract_lets +onlyGivenNames x; refine keeps_cut (m := m) (z := z) (x := x) ?_ (fun hx => ?_); rotate_left; generalize x = y at hx ⊢; clear x; rotate_left; subst x)
    | (extract_lets +onlyGivenNames x; first | (subst x) | skip)
    | with_reducible assumption
    | exact mask_sub (by decide) hm
    | with_reducible apply State.setB_keeps
    | with_reducible apply State.wr_keeps
    | (intro _)

theorem State.acceptMark_keeps {m : Nat} {z s : State} (h0 : Keeps m z s) (hm : 0x1000000040000 &&& m = 0x1000000040000) (r n how : Nat) (p : SecondPhase) : Keeps m z (State.acceptMark s r n how p) := by
  unfold State.acceptMark
  repeat' first
    | (extract_lets +onlyGivenNames x; refine keeps_cut (m := m) (z := z) (x := x) ?_ (fun hx => ?_); rotate_left; generalize x = y at hx ⊢; clear x; rotate_left; subst x)
    | (extract_lets +onlyGivenNames x; first | (subst x) | skip)
    | with_reducible assumption
    | exact mask_sub (by decide) hm
    | with_reducible apply State.showAccept_keeps
    | with_reducible apply State.journal_keeps
    | (intro _)
    | with_reducible apply keeps_ite
    | with_reducible apply keeps_ite_fst
    | (simp only [keeps_mk]; refine keeps_upd ?_ ?_ ?_ ?_ ?_ ?_ ?_ ?_ ?_ ?_ ?_ ?_ ?_ ?_ ?_ ?_ ?_ ?_ ?_ ?_ ?_ ?_ ?_ ?_ ?_ ?_ ?_ ?_ ?_ ?_ ?_ ?_ ?_ ?_ ?_ ?_ ?_ <;> first | exact same_rfl | exact same_bit (by decide) hm | exact id | exact Fuses.Le.refl _ | exact fun _ => TimeVal.ofCount_ns _ | exact fun h => SMap.wf_filter _ h | exact fun _ => SMap.wf_nil _ _ | skip)
    | (with_reducible apply keeps_pair)

theorem State.ensStep5_keeps {m : Nat} {z s : State} (h0 : Keeps m z s) (hm : 0x1804000140000 &&& m = 0x1804000140000) (n : Nat) (ps : Phases) (r : Nat) : Keeps m z (State.ensStep5 s n ps r) := by
  unfold State.ensStep5
  repeat' first
    | (extract_lets +onlyGivenNames x; refine keeps_cut (m := m) (z := z) (x := x) ?_ (fun hx => ?_); rotate_left; generalize x = y at hx ⊢; clear x; rotate_left; subst x)
    | (extract_lets +onlyGivenNames x; first | (subst x) | skip)
    | with_reducible assumption
    | exact mask_sub (by decide) hm
    | with_reducible apply State.acceptMark_keeps
    | with_reducible apply State.qualify_keeps
    | (intro _)
    | with_reducible apply keeps_ite
    | (split)

theorem State.bankEntry_keeps {m : Nat} {z s : State} (h0 : Keeps m z s) (hm : 0x1800000140000 &&& m = 0x1800000140000) (n : Nat) : Keeps m z (State.bankEntry s n) := by
  unfold State.bankEntry
  repeat' first
    | (extract_lets +onlyGivenNames x; refine keeps_cut (m := m) (z := z) (x := x) ?_ (fun hx => ?_); rotate_left; generalize x = y at hx ⊢; clear x; rotate_left; subst x)
    | (extract_lets +onlyGivenNames x; first | (subst x) | skip)
    | with_reducible assumption
    | exact mask_sub (by decide) hm
    | with_reducible apply State.journal_keeps
    | with_reducible apply State.setPair_keeps
    | (intro _)
    | (simp only [keeps_mk]; refine keeps_upd ?_ ?_ ?_ ?_ ?_ ?_ ?_ ?_ ?_ ?_ ?_ ?_ ?_ ?_ ?_ ?_ ?_ ?_ ?_ ?_ ?_ ?_ ?_ ?_ ?_ ?_ ?_ ?_ ?_ ?_ ?_ ?_ ?_ ?_ ?_ ?_ ?_ <;> first | exact same_rfl | exact same_bit (by decide) hm | exact id | exact Fuses.Le.refl _ | exact fun _ => TimeVal.ofCount_ns _ | exact fun h => SMap.wf_filter _ h | exact fun _ => SMap.wf_nil _ _ | skip)
    | (with_reducible apply keeps_pair)

theorem State.ensStep7_keeps {m : Nat} {z s : State} (h0 : Keeps m z s) (hm : 0x1800000140000 &&& m = 0x1800000140000) (n : Nat) : Keeps m z (State.ensStep7 s n) := by
  unfold State.ensStep7
  repeat' first
    | (extract_lets +onlyGivenNames x; refine keeps_cut (m := m) (z := z) (x := x) ?_ (fun hx => ?_); rotate_left; generalize x = y at hx ⊢; clear x; rotate_left; subst x)
    | (extract_lets +onlyGivenNames x; first | (subst x) | skip)
    | with_reducible assumption
    | exact mask_sub (by decide) hm
    | with_reducible apply State.bankEntry_keeps
    | with_reducible apply State.journal_keeps
    | with_reducible apply State.setB_keeps
    | with_reducible apply State.setF_keeps
    | (intro _)
    | with_reducible apply keeps_ite

theorem State.acceptTerms_keeps {m : Nat} {z s : State} (h0 : Keeps m z s) (hm : 0x40000 &&& m = 0x40000) (ps : Phases) (d : Interval) : Keeps m z (State.acceptTerms s ps d) := by
  unfold State.acceptTerms
  repeat' first
    | (extract_lets +onlyGivenNames x; refine keeps_cut (m := m) (z := z) (x := x) ?_ (fun hx => ?_); rotate_left; generalize x = y at hx ⊢; clear x; rotate_left; subst x)
    | (extract_lets +onlyGivenNames x; first | (subst x) | skip)
    | with_reducible assumption
    | exact mask_sub (by decide) hm
    | with_reducible apply State.unmark_keeps
    | (with_reducible apply keeps_foldl)
    | (with_reducible apply keeps_foldl_fst)
    | (intro _ _ _)
    | (intro _)
    | with_reducible apply keeps_ite
    | with_reducible apply keeps_ite_fst
    | (simp only [keeps_mk]; refine keeps_upd ?_ ?_ ?_ ?_ ?_ ?_ ?_ ?_ ?_ ?_ ?_ ?_ ?_ ?_ ?_ ?_ ?_ ?_ ?_ ?_ ?_ ?_ ?_ ?_ ?_ ?_ ?_ ?_ ?_ ?_ ?_ ?_ ?_ ?_ ?_ ?_ ?_ <;> first | exact same_rfl | exact same_bit (by decide) hm | exact id | exact Fuses.Le.refl _ | exact fun _ => TimeVal.ofCount_ns _ | exact fun h => SMap.wf_filter _ h | exact fun _ => SMap.wf_nil _ _ | skip)
    | (split)
    | (with_reducible apply keeps_pair)

theorem State.ensBasis_keeps {m : Nat} {z s : State} (h0 : Keeps m z s) (hm : 0x1000000040000 &&& m = 0x1000000040000) (n : Nat) (ps : Phases) (q : SecondPhase) : Keeps m z (State.ensBasis s n ps q) := by
  unfold State.ensBasis
  repeat' first
    | (extract_lets +onlyGivenNames x; refine keeps_cut (m := m) (z := z) (x := x) ?_ (fun hx => ?_); rotate_left; generalize x = y at hx ⊢; clear x; rotate_left; subst x)
    | (extract_lets +onlyGivenNames x; first | (subst x) | skip)
    | with_reducible assumption
    | exact mask_sub (by decide) hm
    | with_reducible apply State.acceptTerms_keeps
    | with_reducible apply State.showAccept_keeps
    | with_reducible apply State.count_keeps
    | with_reducible apply State.setB_keeps
    | (intro _)
    | with_reducible apply keeps_ite
    | with_reducible apply keeps_ite_fst
    | (simp only [keeps_mk]; refine keeps_upd ?_ ?_ ?_ ?_ ?_ ?_ ?_ ?_ ?_ ?_ ?_ ?_ ?_ ?_ ?_ ?_ ?_ ?_ ?_ ?_ ?_ ?_ ?_ ?_ ?_ ?_ ?_ ?_ ?_ ?_ ?_ ?_ ?_ ?_ ?_ ?_ ?_ <;> first | exact same_rfl | exact same_bit (by decide) hm | exact id | exact Fuses.Le.refl _ | exact fun _ => TimeVal.ofCount_ns _ | exact fun h => SMap.wf_filter _ h | exact fun _ => SMap.wf_nil _ _ | skip)
    | (with_reducible apply keeps_pair)

theorem State.ensStep8_keeps {m : Nat} {z s : State} (h0 : Keeps m z s) (hm : 0x1800000040000 &&& m = 0x1800000040000) (n : Nat) (ps : Phases) : Keeps m z (State.ensStep8 s n ps) := by
  unfold State.ensStep8
  repeat' first
    | (extract_lets +onlyGivenNames x; refine keeps_cut (m := m) (z := z) (x := x) ?_ (fun hx => ?_); rotate_left; generalize x = y at hx ⊢; clear x; rotate_left; subst x)
    | (extract_lets +onlyGivenNames x; first | (subst x) | skip)
    | with_reducible assumption
    | exact mask_sub (by decide) hm
    | with_reducible apply State.ensBasis_keeps
    | with_reducible apply State.setPair_keeps
    | with_reducible apply State.wr_keeps
    | (intro _)
    | (split)

theorem State.showModel_keeps {m : Nat} {z s : State} (h0 : Keeps m z s) (hm : 0x800000100000 &&& m = 0x800000100000) : Keeps m z (State.showModel s) := by
  unfold State.showModel
  repeat' first
    | (extract_lets +onlyGivenNames x; refine keeps_cut (m := m) (z := z) (x := x) ?_ (fun hx => ?_); rotate_left; generalize x = y at hx ⊢; clear x; rotate_left; subst x)
    | (extract_lets +onlyGivenNames x; first | (subst x) | skip)
    | with_reducible assumption
    | exact mask_sub (by decide) hm
    | with_reducible apply State.setB_keeps
    | with_reducible apply State.wr_keeps
    | (intro _)
    | with_reducible apply keeps_ite
    | (simp only [keeps_mk]; refine keeps_upd ?_ ?_ ?_ ?_ ?_ ?_ ?_ ?_ ?_ ?_ ?_ ?_ ?_ ?_ ?_ ?_ ?_ ?_ ?_ ?_ ?_ ?_ ?_ ?_ ?_ ?_ ?_ ?_ ?_ ?_ ?_ ?_ ?_ ?_ ?_ ?_ ?_ <;> first | exact same_rfl | exact same_bit (by decide) hm | exact id | exact Fuses.Le.refl _ | exact fun _ => TimeVal.ofCount_ns _ | exact fun h => SMap.wf_filter _ h | exact fun _ => SMap.wf_nil _ _ | skip)

theorem State.clearModel_keeps {m : Nat} {z s : State} (h0 : Keeps m z s) (hm : 0x800000100000 &&& m = 0x800000100000) : Keeps m z (State.clearModel s) := by
  unfold State.clearModel
  repeat' first
    | (extract_lets +onlyGivenNames x; refine keeps_cut (m := m) (z := z) (x := x) ?_ (fun hx => ?_); rotate_left; generalize x = y at hx ⊢; clear x; rotate_left; subst x)
    | (extract_lets +onlyGivenNames x; first | (subst x) | skip)
    | with_reducible assumption
    | exact mask_sub (by decide) hm
    | with_reducible apply State.showModel_keeps
    | with_reducible apply State.wr_keeps
    | (intro _)
    | (simp only [keeps_mk]; refine keeps_upd ?_ ?_ ?_ ?_ ?_ ?_ ?_ ?_ ?_ ?_ ?_ ?_ ?_ ?_ ?_ ?_ ?_ ?_ ?_ ?_ ?_ ?_ ?_ ?_ ?_ ?_ ?_ ?_ ?_ ?_ ?_ ?_ ?_ ?_ ?_ ?_ ?_ <;> first | exact same_rfl | exact same_bit (by decide) hm | exact id | exact Fuses.Le.refl _ | exact fun _ => TimeVal.ofCount_ns _ | exact fun h => SMap.wf_filter _ h | exact fun _ => SMap.wf_nil _ _ | skip)
    | (with_reducible apply keeps_pair)

theorem State.learn_keeps {m : Nat} {z s : State} (h0 : Keeps m z s) (hm : 0x800000100000 &&& m = 0x800000100000) (n : Nat) (ps : Phases) : Keeps m z (State.learn s n ps) := by
  unfold State.learn
  repeat' first
    | (extract_lets +onlyGivenNames x; refine keeps_cut (m := m) (z := z) (x := x) ?_ (fun hx => ?_); rotate_left; generalize x = y at hx ⊢; clear x; rotate_left; subst x)
    | (extract_lets +onlyGivenNames x; first | (subst x) | skip)
    | with_reducible assumption
    | exact mask_sub (by decide) hm
    | with_reducible apply State.showModel_keeps
    | (with_reducible apply keeps_getD)
    | (intro _)
    | with_reducible apply keeps_ite
    | with_reducible apply keeps_ite_fst
    | (simp only [keeps_mk]; refine keeps_upd ?_ ?_ ?_ ?_ ?_ ?_ ?_ ?_ ?_ ?_ ?_ ?_ ?_ ?_ ?_ ?_ ?_ ?_ ?_ ?_ ?_ ?_ ?_ ?_ ?_ ?_ ?_ ?_ ?_ ?_ ?_ ?_ ?_ ?_ ?_ ?_ ?_ <;> first | exact same_rfl | exact same_bit (by decide) hm | exact id | exact Fuses.Le.refl _ | exact fun _ => TimeVal.ofCount_ns _ | exact fun h => SMap.wf_filter _ h | exact fun _ => SMap.wf_nil _ _ | skip)
    | (split)
    | (with_reducible apply keeps_pair)

theorem State.predict_keeps {m : Nat} {z s : State} (h0 : Keeps m z s) (hm : 0x800000100000 &&& m = 0x800000100000) : Keeps m z (State.predict s) := by
  unfold State.predict
  repeat' first
    | (extract_lets +onlyGivenNames x; refine keeps_cut (m := m) (z := z) (x := x) ?_ (fun hx => ?_); rotate_left; generalize x = y at hx ⊢; clear x; rotate_left; subst x)
    | (extract_lets +onlyGivenNames x; first | (subst x) | skip)
    | with_reducible assumption
    | exact mask_sub (by decide) hm
    | with_reducible apply State.wr_keeps
    | (intro _)
    | with_reducible apply keeps_ite
    | (simp only [keeps_mk]; refine keeps_upd ?_ ?_ ?_ ?_ ?_ ?_ ?_ ?_ ?_ ?_ ?_ ?_ ?_ ?_ ?_ ?_ ?_ ?_ ?_ ?_ ?_ ?_ ?_ ?_ ?_ ?_ ?_ ?_ ?_ ?_ ?_ ?_ ?_ ?_ ?_ ?_ ?_ <;> first | exact same_rfl | exact same_bit (by decide) hm | exact id | exact Fuses.Le.refl _ | exact fun _ => TimeVal.ofCount_ns _ | exact fun h => SMap.wf_filter _ h | exact fun _ => SMap.wf_nil _ _ | skip)

theorem State.adevStep_keeps {m : Nat} {z s : State} (h0 : Keeps m z s) (hm : 0x800000100000 &&& m = 0x800000100000) (n r : Nat) (x : Option Int) : Keeps m z (State.adevStep s n r x) := by
  unfold State.adevStep
  repeat' first
    | (extract_lets +onlyGivenNames x; refine keeps_cut (m := m) (z := z) (x := x) ?_ (fun hx => ?_); rotate_left; generalize x = y at hx ⊢; clear x; rotate_left; subst x)
    | (extract_lets +onlyGivenNames x; first | (subst x) | skip)
    | with_reducible assumption
    | exact mask_sub (by decide) hm
    | with_reducible apply State.setEnt_keeps
    | with_reducible apply State.wr_keeps
    | (with_reducible apply keeps_foldl)
    | (intro _ _ _)
    | (intro _)
    | with_reducible apply keeps_ite
    | with_reducible apply keeps_ite_fst
    | (with_reducible apply keeps_pair)

theorem State.classStep_keeps {m : Nat} {z s : State} (h0 : Keeps m z s) (hm : 0x1004000040000 &&& m = 0x1004000040000) (n : Nat) : Keeps m z (State.classStep s n) := by
  unfold State.classStep
  repeat' first
    | (extract_lets +onlyGivenNames x; refine keeps_cut (m := m) (z := z) (x := x) ?_ (fun hx => ?_); rotate_left; generalize x = y at hx ⊢; clear x; rotate_left; subst x)
    | (extract_lets +onlyGivenNames x; first | (subst x) | skip)
    | with_reducible assumption
    | exact mask_sub (by decide) hm
    | with_reducible apply State.journal_keeps
    | with_reducible apply State.irqPulse_keeps
    | with_reducible apply State.setB_keeps
    | with_reducible apply State.setF_keeps
    | (intro _)
    | with_reducible apply keeps_ite
    | with_reducible apply keeps_ite_fst
    | (simp only [keeps_mk]; refine keeps_upd ?_ ?_ ?_ ?_ ?_ ?_ ?_ ?_ ?_ ?_ ?_ ?_ ?_ ?_ ?_ ?_ ?_ ?_ ?_ ?_ ?_ ?_ ?_ ?_ ?_ ?_ ?_ ?_ ?_ ?_ ?_ ?_ ?_ ?_ ?_ ?_ ?_ <;> first | exact same_rfl | exact same_bit (by decide) hm | exact id | exact Fuses.Le.refl _ | exact fun _ => TimeVal.ofCount_ns _ | exact fun h => SMap.wf_filter _ h | exact fun _ => SMap.wf_nil _ _ | skip)
    | (with_reducible apply keeps_pair)

theorem State.comparisons_keeps {m : Nat} {z s : State} (h0 : Keeps m z s) (hm : 0x1000000040000 &&& m = 0x1000000040000) (n : Nat) (ps : Phases) : Keeps m z (State.comparisons s n ps) := by
  unfold State.comparisons
  repeat' first
    | (extract_lets +onlyGivenNames x; refine keeps_cut (m := m) (z := z) (x := x) ?_ (fun hx => ?_); rotate_left; generalize x = y at hx ⊢; clear x; rotate_left; subst x)
    | (extract_lets +onlyGivenNames x; first | (subst x) | skip)
    | with_reducible assumption
    | exact mask_sub (by decide) hm
    | with_reducible apply State.journal_keeps
    | (with_reducible apply keeps_foldl)
    | (intro _ _ _)
    | (intro _)
    | with_reducible apply keeps_ite

theorem State.closeSecond_keeps {m : Nat} {z s : State} (h0 : Keeps m z s) (hm : 0x800000100000 &&& m = 0x800000100000) (n : Nat) (ps : Phases) : Keeps m z (State.closeSecond s n ps) := by
  unfold State.closeSecond
  repeat' first
    | (extract_lets +onlyGivenNames x; refine keeps_cut (m := m) (z := z) (x := x) ?_ (fun hx => ?_); rotate_left; generalize x = y at hx ⊢; clear x; rotate_left; subst x)
    | (extract_lets +onlyGivenNames x; first | (subst x) | skip)
    | with_reducible assumption
    | exact mask_sub (by decide) hm
    | with_reducible apply State.adevStep_keeps
    | with_reducible apply State.setEnt_keeps
    | with_reducible apply State.setPair_keeps
    | with_reducible apply State.wr_keeps
    | (with_reducible apply keeps_foldl)
    | (intro _ _ _)
    | (intro _)
    | with_reducible apply keeps_ite
    | with_reducible apply keeps_ite_fst
    | (split)
    | (with_reducible apply keeps_pair)

theorem State.writerBack_keeps {m : Nat} {z s : State} (h0 : Keeps m z s) (hm : 0x1000000040000 &&& m = 0x1000000040000) : Keeps m z (State.writerBack s) := by
  unfold State.writerBack
  repeat' first
    | (extract_lets +onlyGivenNames x; refine keeps_cut (m := m) (z := z) (x := x) ?_ (fun hx => ?_); rotate_left; generalize x = y at hx ⊢; clear x; rotate_left; subst x)
    | (extract_lets +onlyGivenNames x; first | (subst x) | skip)
    | with_reducible assumption
    | exact mask_sub (by decide) hm
    | with_reducible apply State.setB_keeps
    | (intro _)
    | with_reducible apply keeps_ite
    | (simp only [keeps_mk]; refine keeps_upd ?_ ?_ ?_ ?_ ?_ ?_ ?_ ?_ ?_ ?_ ?_ ?_ ?_ ?_ ?_ ?_ ?_ ?_ ?_ ?_ ?_ ?_ ?_ ?_ ?_ ?_ ?_ ?_ ?_ ?_ ?_ ?_ ?_ ?_ ?_ ?_ ?_ <;> first | exact same_rfl | exact same_bit (by decide) hm | exact id | exact Fuses.Le.refl _ | exact fun _ => TimeVal.ofCount_ns _ | exact fun h => SMap.wf_filter _ h | exact fun _ => SMap.wf_nil _ _ | skip)

theorem State.processSecond_keeps {m : Nat} {z s : State} (h0 : Keeps m z s) (hm : 0x1804000140000 &&& m = 0x1804000140000) (n : Nat) : Keeps m z (State.processSecond s n) := by
  unfold State.processSecond
  repeat' first
    | (extract_lets +onlyGivenNames x; refine keeps_cut (m := m) (z := z) (x := x) ?_ (fun hx => ?_); rotate_left; generalize x = y at hx ⊢; clear x; rotate_left; subst x)
    | (extract_lets +onlyGivenNames x; first | (subst x) | skip)
    | with_reducible assumption
    | exact mask_sub (by decide) hm
    | with_reducible apply State.writerBack_keeps
    | with_reducible apply State.closeSecond_keeps
    | with_reducible apply State.comparisons_keeps
    | with_reducible apply State.classStep_keeps
    | with_reducible apply State.predict_keeps
    | with_reducible apply State.learn_keeps
    | with_reducible apply State.ensStep8_keeps
    | with_reducible apply State.ensStep7_keeps
    | with_reducible apply State.ensStep5_keeps
    | with_reducible apply State.ensStep4_keeps
    | with_reducible apply State.ensStep3_keeps
    | with_reducible apply State.ensStep2_keeps
    | with_reducible apply State.ensStep1_keeps
    | (with_reducible apply keeps_foldl)
    | (intro _ _ _)
    | (intro _)
    | (simp only [keeps_mk]; refine keeps_upd ?_ ?_ ?_ ?_ ?_ ?_ ?_ ?_ ?_ ?_ ?_ ?_ ?_ ?_ ?_ ?_ ?_ ?_ ?_ ?_ ?_ ?_ ?_ ?_ ?_ ?_ ?_ ?_ ?_ ?_ ?_ ?_ ?_ ?_ ?_ ?_ ?_ <;> first | exact same_rfl | exact same_bit (by decide) hm | exact id | exact Fuses.Le.refl _ | exact fun _ => TimeVal.ofCount_ns _ | exact fun h => SMap.wf_filter _ h | exact fun _ => SMap.wf_nil _ _ | skip)

theorem State.ensAccept_keeps {m : Nat} {z s : State} (h0 : Keeps m z s) (hm : 0x800000000000 &&& m = 0x800000000000) : Keeps m z (State.ensAccept s) := by
  unfold State.ensAccept
  repeat' first
    | with_reducible assumption
    | exact mask_sub (by decide) hm
    | with_reducible apply State.setB_keeps
    | (intro _)

theorem State.ensRange_keeps {m : Nat} {z s : State} (h0 : Keeps m z s) (hm : 0x800000000000 &&& m = 0x800000000000) : Keeps m z (State.ensRange s) := by
  unfold State.ensRange
  repeat' first
    | with_reducible assumption
    | exact mask_sub (by decide) hm
    | with_reducible apply State.setB_keeps
    | (intro _)

theorem State.ensCfg_keeps {m : Nat} {z s : State} (h0 : Keeps m z s) (hm : 0x1C04000140000 &&& m = 0x1C04000140000) (r : Nat) (v : BitVec 32) : Keeps m z (State.ensCfg s r v) := by
  unfold State.ensCfg
  repeat' first
    | (extract_lets +onlyGivenNames x; refine keeps_cut (m := m) (z := z) (x := x) ?_ (fun hx => ?_); rotate_left; generalize x = y at hx ⊢; clear x; rotate_left; subst x)
    | (extract_lets +onlyGivenNames x; first | (subst x) | skip)
    | with_reducible assumption
    | exact mask_sub (by decide) hm
    | with_reducible apply State.ensRange_keeps
    | with_reducible apply State.ensAccept_keeps
    | with_reducible apply State.ensTrans_keeps
    | with_reducible apply State.setEnt_keeps
    | with_reducible apply State.wrRw_keeps
    | with_reducible apply State.setB_keeps
    | with_reducible apply State.setF_keeps
    | (intro _)
    | with_reducible apply keeps_ite

theorem State.refAccept_keeps {m : Nat} {z s : State} (h0 : Keeps m z s) (hm : 0x1804000140000 &&& m = 0x1804000140000) (r : Nat) : Keeps m z (State.refAccept s r) := by
  unfold State.refAccept
  repeat' first
    | (extract_lets +onlyGivenNames x; refine keeps_cut (m := m) (z := z) (x := x) ?_ (fun hx => ?_); rotate_left; generalize x = y at hx ⊢; clear x; rotate_left; subst x)
    | (extract_lets +onlyGivenNames x; first | (subst x) | skip)
    | with_reducible assumption
    | exact mask_sub (by decide) hm
    | with_reducible apply State.ensAccept_keeps
    | with_reducible apply State.acceptMark_keeps
    | with_reducible apply State.qualify_keeps
    | with_reducible apply State.ensTrans_keeps
    | with_reducible apply State.setB_keeps
    | (intro _)
    | with_reducible apply keeps_ite
    | with_reducible apply keeps_ite_fst
    | (split)
    | (with_reducible apply keeps_pair)

theorem State.netSubmit_keeps {m : Nat} {z s : State} (h0 : Keeps m z s) (hm : 0x800000100000 &&& m = 0x800000100000) (j : Nat) (image : List Byte) : Keeps m z (State.netSubmit s j image) := by
  unfold State.netSubmit
  repeat' first
    | (extract_lets +onlyGivenNames x; refine keeps_cut (m := m) (z := z) (x := x) ?_ (fun hx => ?_); rotate_left; generalize x = y at hx ⊢; clear x; rotate_left; subst x)
    | (extract_lets +onlyGivenNames x; first | (subst x) | skip)
    | with_reducible assumption
    | exact mask_sub (by decide) hm
    | with_reducible apply State.ensRange_keeps
    | with_reducible apply State.ensAccept_keeps
    | with_reducible apply State.addSample_keeps
    | with_reducible apply State.setB_keeps
    | (intro _)
    | with_reducible apply keeps_ite
    | with_reducible apply keeps_ite_fst
    | (with_reducible apply keeps_pair)

theorem State.ensPlain_keeps {m : Nat} {z s : State} {r : Reg} (h0 : Keeps m z s) (hm : 0x800000000000 &&& m = 0x800000000000) (hr_bit : r.bit &&& m = r.bit) (n : Nat) (v : BitVec 32) (ok : Bool) : Keeps m z (State.ensPlain s r n v ok) := by
  unfold State.ensPlain
  repeat' first
    | with_reducible assumption
    | exact mask_sub (by decide) hm
    | with_reducible apply State.ensRange_keeps
    | with_reducible apply State.ensAccept_keeps
    | with_reducible apply State.wrRw_keeps
    | (intro _)
    | with_reducible apply keeps_ite

theorem State.ensWrite_keeps {m : Nat} {z s : State} {r : Reg} (h0 : Keeps m z s) (hm : 0x1C04000140000 &&& m = 0x1C04000140000) (hr_bit : r.bit &&& m = r.bit) (p : Party) (image : List Byte) (n : Nat) (v : BitVec 32) : Keeps m z (State.ensWrite s p image r n v) := by
  unfold State.ensWrite
  repeat' first
    | (extract_lets +onlyGivenNames x; refine keeps_cut (m := m) (z := z) (x := x) ?_ (fun hx => ?_); rotate_left; generalize x = y at hx ⊢; clear x; rotate_left; subst x)
    | (extract_lets +onlyGivenNames x; first | (subst x) | skip)
    | with_reducible assumption
    | exact mask_sub (by decide) hm
    | with_reducible apply State.ensPlain_keeps
    | with_reducible apply State.netSubmit_keeps
    | with_reducible apply State.refAccept_keeps
    | with_reducible apply State.ensCfg_keeps
    | with_reducible apply State.ensAccept_keeps
    | with_reducible apply State.w1c_keeps
    | with_reducible apply State.setB_keeps
    | (intro _)
    | with_reducible apply keeps_ite
    | (split)

theorem State.measDeliver_keeps {m : Nat} {z s : State} (h0 : Keeps m z s) (hm : 0x800000100000 &&& m = 0x800000100000) (r : Nat) : Keeps m z (State.measDeliver s r) := by
  unfold State.measDeliver
  repeat' first
    | (extract_lets +onlyGivenNames x; refine keeps_cut (m := m) (z := z) (x := x) ?_ (fun hx => ?_); rotate_left; generalize x = y at hx ⊢; clear x; rotate_left; subst x)
    | (extract_lets +onlyGivenNames x; first | (subst x) | skip)
    | with_reducible assumption
    | exact mask_sub (by decide) hm
    | with_reducible apply State.addSample_keeps
    | with_reducible apply State.setB_keeps
    | (intro _)
    | with_reducible apply keeps_ite
    | (simp only [keeps_mk]; refine keeps_upd ?_ ?_ ?_ ?_ ?_ ?_ ?_ ?_ ?_ ?_ ?_ ?_ ?_ ?_ ?_ ?_ ?_ ?_ ?_ ?_ ?_ ?_ ?_ ?_ ?_ ?_ ?_ ?_ ?_ ?_ ?_ ?_ ?_ ?_ ?_ ?_ ?_ <;> first | exact same_rfl | exact same_bit (by decide) hm | exact id | exact Fuses.Le.refl _ | exact fun _ => TimeVal.ofCount_ns _ | exact fun h => SMap.wf_filter _ h | exact fun _ => SMap.wf_nil _ _ | skip)
    | (split)

theorem State.holdCommit_keeps {m : Nat} {z s : State} (h0 : Keeps m z s) (hm : 0x40000000 &&& m = 0x40000000) : Keeps m z (State.holdCommit s) := by
  unfold State.holdCommit
  repeat' first
    | (extract_lets +onlyGivenNames x; refine keeps_cut (m := m) (z := z) (x := x) ?_ (fun hx => ?_); rotate_left; generalize x = y at hx ⊢; clear x; rotate_left; subst x)
    | (extract_lets +onlyGivenNames x; first | (subst x) | skip)
    | with_reducible assumption
    | exact mask_sub (by decide) hm
    | (with_reducible apply keeps_foldl)
    | (intro _ _ _)
    | (intro _)
    | with_reducible apply keeps_ite
    | with_reducible apply keeps_ite_fst
    | (simp only [keeps_mk]; refine keeps_upd ?_ ?_ ?_ ?_ ?_ ?_ ?_ ?_ ?_ ?_ ?_ ?_ ?_ ?_ ?_ ?_ ?_ ?_ ?_ ?_ ?_ ?_ ?_ ?_ ?_ ?_ ?_ ?_ ?_ ?_ ?_ ?_ ?_ ?_ ?_ ?_ ?_ <;> first | exact same_rfl | exact same_bit (by decide) hm | exact id | exact Fuses.Le.refl _ | exact fun _ => TimeVal.ofCount_ns _ | exact fun h => SMap.wf_filter _ h | exact fun _ => SMap.wf_nil _ _ | skip)
    | (with_reducible apply keeps_pair)

theorem State.jnlAck_keeps {m : Nat} {z s : State} (h0 : Keeps m z s) (hm : 0x1000040040000 &&& m = 0x1000040040000) (lo : BitVec 32) : Keeps m z (State.jnlAck s lo) := by
  unfold State.jnlAck
  repeat' first
    | (extract_lets +onlyGivenNames x; refine keeps_cut (m := m) (z := z) (x := x) ?_ (fun hx => ?_); rotate_left; generalize x = y at hx ⊢; clear x; rotate_left; subst x)
    | (extract_lets +onlyGivenNames x; first | (subst x) | skip)
    | with_reducible assumption
    | exact mask_sub (by decide) hm
    | with_reducible apply State.setPair_keeps
    | with_reducible apply State.setB_keeps
    | (intro _)
    | with_reducible apply keeps_ite
    | with_reducible apply keeps_ite_fst
    | (simp only [keeps_mk]; refine keeps_upd ?_ ?_ ?_ ?_ ?_ ?_ ?_ ?_ ?_ ?_ ?_ ?_ ?_ ?_ ?_ ?_ ?_ ?_ ?_ ?_ ?_ ?_ ?_ ?_ ?_ ?_ ?_ ?_ ?_ ?_ ?_ ?_ ?_ ?_ ?_ ?_ ?_ <;> first | exact same_rfl | exact same_bit (by decide) hm | exact id | exact Fuses.Le.refl _ | exact fun _ => TimeVal.ofCount_ns _ | exact fun h => SMap.wf_filter _ h | exact fun _ => SMap.wf_nil _ _ | skip)
    | (with_reducible apply keeps_pair)

theorem State.trvWrite_keeps {m : Nat} {z s : State} {r : Reg} (h0 : Keeps m z s) (hm : 0x1000040040000 &&& m = 0x1000040040000) (hr_bit : r.bit &&& m = r.bit) (n : Nat) (v : BitVec 32) : Keeps m z (State.trvWrite s r n v) := by
  unfold State.trvWrite
  repeat' first
    | (extract_lets +onlyGivenNames x; refine keeps_cut (m := m) (z := z) (x := x) ?_ (fun hx => ?_); rotate_left; generalize x = y at hx ⊢; clear x; rotate_left; subst x)
    | (extract_lets +onlyGivenNames x; first | (subst x) | skip)
    | with_reducible assumption
    | exact mask_sub (by decide) hm
    | with_reducible apply State.jnlAck_keeps
    | with_reducible apply State.wrRw_keeps
    | with_reducible apply State.w1c_keeps
    | with_reducible apply State.setB_keeps
    | with_reducible apply State.wr_keeps
    | (intro _)
    | with_reducible apply keeps_ite
    | (simp only [keeps_mk]; refine keeps_upd ?_ ?_ ?_ ?_ ?_ ?_ ?_ ?_ ?_ ?_ ?_ ?_ ?_ ?_ ?_ ?_ ?_ ?_ ?_ ?_ ?_ ?_ ?_ ?_ ?_ ?_ ?_ ?_ ?_ ?_ ?_ ?_ ?_ ?_ ?_ ?_ ?_ <;> first | exact same_rfl | exact same_bit (by decide) hm | exact id | exact Fuses.Le.refl _ | exact fun _ => TimeVal.ofCount_ns _ | exact fun h => SMap.wf_filter _ h | exact fun _ => SMap.wf_nil _ _ | skip)

theorem State.trvShow_keeps {m : Nat} {z s : State} (h0 : Keeps m z s) (hm : 0x1000000000000 &&& m = 0x1000000000000) : Keeps m z (State.trvShow s) := by
  unfold State.trvShow
  repeat' first
    | (extract_lets +onlyGivenNames x; refine keeps_cut (m := m) (z := z) (x := x) ?_ (fun hx => ?_); rotate_left; generalize x = y at hx ⊢; clear x; rotate_left; subst x)
    | (extract_lets +onlyGivenNames x; first | (subst x) | skip)
    | with_reducible assumption
    | exact mask_sub (by decide) hm
    | with_reducible apply State.wr_keeps
    | (intro _)
    | with_reducible apply keeps_ite
    | with_reducible apply keeps_ite_fst
    | (split)
    | (with_reducible apply keeps_pair)

/-! ### Machine/SynOps.lean -/

theorem State.setLoop_keeps {m : Nat} {z s : State} (h0 : Keeps m z s) (hm : 0x400000 &&& m = 0x400000) (n : Nat) (x : SynLoop) : Keeps m z (State.setLoop s n x) := by
  unfold State.setLoop
  repeat' first
    | (extract_lets +onlyGivenNames x; refine keeps_cut (m := m) (z := z) (x := x) ?_ (fun hx => ?_); rotate_left; generalize x = y at hx ⊢; clear x; rotate_left; subst x)
    | (extract_lets +onlyGivenNames x; first | (subst x) | skip)
    | with_reducible assumption
    | exact mask_sub (by decide) hm
    | (intro _)
    | (simp only [keeps_mk]; refine keeps_upd ?_ ?_ ?_ ?_ ?_ ?_ ?_ ?_ ?_ ?_ ?_ ?_ ?_ ?_ ?_ ?_ ?_ ?_ ?_ ?_ ?_ ?_ ?_ ?_ ?_ ?_ ?_ ?_ ?_ ?_ ?_ ?_ ?_ ?_ ?_ ?_ ?_ <;> first | exact same_rfl | exact same_bit (by decide) hm | exact id | exact Fuses.Le.refl _ | exact fun _ => TimeVal.ofCount_ns _ | exact fun h => SMap.wf_filter _ h | exact fun _ => SMap.wf_nil _ _ | skip)

theorem State.setOut_keeps {m : Nat} {z s : State} (h0 : Keeps m z s) (hm : 0x400000 &&& m = 0x400000) (k : Nat) (x : SynOut) : Keeps m z (State.setOut s k x) := by
  unfold State.setOut
  repeat' first
    | (extract_lets +onlyGivenNames x; refine keeps_cut (m := m) (z := z) (x := x) ?_ (fun hx => ?_); rotate_left; generalize x = y at hx ⊢; clear x; rotate_left; subst x)
    | (extract_lets +onlyGivenNames x; first | (subst x) | skip)
    | with_reducible assumption
    | exact mask_sub (by decide) hm
    | (intro _)
    | (simp only [keeps_mk]; refine keeps_upd ?_ ?_ ?_ ?_ ?_ ?_ ?_ ?_ ?_ ?_ ?_ ?_ ?_ ?_ ?_ ?_ ?_ ?_ ?_ ?_ ?_ ?_ ?_ ?_ ?_ ?_ ?_ ?_ ?_ ?_ ?_ ?_ ?_ ?_ ?_ ?_ ?_ <;> first | exact same_rfl | exact same_bit (by decide) hm | exact id | exact Fuses.Le.refl _ | exact fun _ => TimeVal.ofCount_ns _ | exact fun h => SMap.wf_filter _ h | exact fun _ => SMap.wf_nil _ _ | skip)

theorem State.armAlign_keeps {m : Nat} {z s : State} (h0 : Keeps m z s) (hm : 0x2000000400000 &&& m = 0x2000000400000) (k : Nat) : Keeps m z (State.armAlign s k) := by
  unfold State.armAlign
  repeat' first
    | (extract_lets +onlyGivenNames x; refine keeps_cut (m := m) (z := z) (x := x) ?_ (fun hx => ?_); rotate_left; generalize x = y at hx ⊢; clear x; rotate_left; subst x)
    | (extract_lets +onlyGivenNames x; first | (subst x) | skip)
    | with_reducible assumption
    | exact mask_sub (by decide) hm
    | with_reducible apply State.setOut_keeps
    | with_reducible apply State.setB_keeps
    | (intro _)
    | with_reducible apply keeps_ite

theorem State.loopOutputs_keeps {m : Nat} {z s : State} (h0 : Keeps m z s) (hm : 0x2000000400000 &&& m = 0x2000000400000) (n : Nat) (locked : Bool) : Keeps m z (State.loopOutputs s n locked) := by
  unfold State.loopOutputs
  repeat' first
    | (extract_lets +onlyGivenNames x; refine keeps_cut (m := m) (z := z) (x := x) ?_ (fun hx => ?_); rotate_left; generalize x = y at hx ⊢; clear x; rotate_left; subst x)
    | (extract_lets +onlyGivenNames x; first | (subst x) | skip)
    | with_reducible assumption
    | exact mask_sub (by decide) hm
    | with_reducible apply State.armAlign_keeps
    | with_reducible apply State.setOut_keeps
    | with_reducible apply State.setB_keeps
    | (with_reducible apply keeps_foldl)
    | (intro _ _ _)
    | (intro _)
    | with_reducible apply keeps_ite
    | with_reducible apply keeps_ite_fst
    | (with_reducible apply keeps_pair)

theorem State.setLoopState_keeps {m : Nat} {z s : State} (h0 : Keeps m z s) (hm : 0x2004000400000 &&& m = 0x2004000400000) (n st : Nat) : Keeps m z (State.setLoopState s n st) := by
  unfold State.setLoopState
  repeat' first
    | (extract_lets +onlyGivenNames x; refine keeps_cut (m := m) (z := z) (x := x) ?_ (fun hx => ?_); rotate_left; generalize x = y at hx ⊢; clear x; rotate_left; subst x)
    | (extract_lets +onlyGivenNames x; first | (subst x) | skip)
    | with_reducible assumption
    | exact mask_sub (by decide) hm
    | with_reducible apply State.loopOutputs_keeps
    | with_reducible apply State.irqPulse_keeps
    | with_reducible apply State.setF_keeps
    | (intro _)
    | with_reducible apply keeps_ite

theorem State.startDclk_keeps {m : Nat} {z s : State} (h0 : Keeps m z s) (hm : 0x20400000 &&& m = 0x20400000) : Keeps m z (State.startDclk s) := by
  unfold State.startDclk
  repeat' first
    | (extract_lets +onlyGivenNames x; refine keeps_cut (m := m) (z := z) (x := x) ?_ (fun hx => ?_); rotate_left; generalize x = y at hx ⊢; clear x; rotate_left; subst x)
    | (extract_lets +onlyGivenNames x; first | (subst x) | skip)
    | with_reducible assumption
    | exact mask_sub (by decide) hm
    | (intro _)
    | (simp only [keeps_mk]; refine keeps_upd ?_ ?_ ?_ ?_ ?_ ?_ ?_ ?_ ?_ ?_ ?_ ?_ ?_ ?_ ?_ ?_ ?_ ?_ ?_ ?_ ?_ ?_ ?_ ?_ ?_ ?_ ?_ ?_ ?_ ?_ ?_ ?_ ?_ ?_ ?_ ?_ ?_ <;> first | exact same_rfl | exact same_bit (by decide) hm | exact id | exact Fuses.Le.refl _ | exact fun _ => TimeVal.ofCount_ns _ | exact fun h => SMap.wf_filter _ h | exact fun _ => SMap.wf_nil _ _ | skip)
    | (with_reducible apply keeps_pair)

theorem State.startLoop_keeps {m : Nat} {z s : State} (h0 : Keeps m z s) (hm : 0x2004000480000 &&& m = 0x2004000480000) (n : Nat) (search : Bool) : Keeps m z (State.startLoop s n search) := by
  unfold State.startLoop
  repeat' first
    | (extract_lets +onlyGivenNames x; refine keeps_cut (m := m) (z := z) (x := x) ?_ (fun hx => ?_); rotate_left; generalize x = y at hx ⊢; clear x; rotate_left; subst x)
    | (extract_lets +onlyGivenNames x; first | (subst x) | skip)
    | with_reducible assumption
    | exact mask_sub (by decide) hm
    | with_reducible apply State.setLoopState_keeps
    | with_reducible apply State.setLoop_keeps
    | with_reducible apply State.ticDisturb_keeps
    | with_reducible apply State.setB_keeps
    | with_reducible apply State.setF_keeps
    | with_reducible apply State.wr_keeps
    | (intro _)
    | with_reducible apply keeps_ite
    | with_reducible apply keeps_ite_fst
    | (split)
    | (with_reducible apply keeps_pair)

theorem State.storeHop_keeps {m : Nat} {z s : State} (h0 : Keeps m z s) (hm : 0x2000040400000 &&& m = 0x2000040400000) (n : Nat) : Keeps m z (State.storeHop s n) := by
  unfold State.storeHop
  repeat' first
    | (extract_lets +onlyGivenNames x; refine keeps_cut (m := m) (z := z) (x := x) ?_ (fun hx => ?_); rotate_left; generalize x = y at hx ⊢; clear x; rotate_left; subst x)
    | (extract_lets +onlyGivenNames x; first | (subst x) | skip)
    | with_reducible assumption
    | exact mask_sub (by decide) hm
    | with_reducible apply State.setLoop_keeps
    | with_reducible apply State.wr_keeps
    | (with_reducible apply keeps_foldl)
    | (intro _ _ _)
    | (intro _)
    | (simp only [keeps_mk]; refine keeps_upd ?_ ?_ ?_ ?_ ?_ ?_ ?_ ?_ ?_ ?_ ?_ ?_ ?_ ?_ ?_ ?_ ?_ ?_ ?_ ?_ ?_ ?_ ?_ ?_ ?_ ?_ ?_ ?_ ?_ ?_ ?_ ?_ ?_ ?_ ?_ ?_ ?_ <;> first | exact same_rfl | exact same_bit (by decide) hm | exact id | exact Fuses.Le.refl _ | exact fun _ => TimeVal.ofCount_ns _ | exact fun h => SMap.wf_filter _ h | exact fun _ => SMap.wf_nil _ _ | skip)
    | (with_reducible apply keeps_pair)

theorem State.coastEntry_keeps {m : Nat} {z s : State} (h0 : Keeps m z s) (hm : 0x132070205D8080 &&& m = 0x132070205D8080) (n cause : Nat) : Keeps m z (State.coastEntry s n cause) := by
  unfold State.coastEntry
  repeat' first
    | (extract_lets +onlyGivenNames x; refine keeps_cut (m := m) (z := z) (x := x) ?_ (fun hx => ?_); rotate_left; generalize x = y at hx ⊢; clear x; rotate_left; subst x)
    | (extract_lets +onlyGivenNames x; first | (subst x) | skip)
    | with_reducible assumption
    | exact mask_sub (by decide) hm
    | with_reducible apply State.startDclk_keeps
    | with_reducible apply State.setLoopState_keeps
    | with_reducible refine State.raiseLow_keeps ?_ ?_ (by dsimp only; decide)
    | with_reducible apply State.raise_keeps
    | with_reducible apply State.ticDisturb_keeps
    | with_reducible apply State.journal_keeps
    | with_reducible apply State.bump_keeps
    | with_reducible apply State.setB_keeps
    | with_reducible apply State.setF_keeps
    | (intro _)
    | with_reducible apply keeps_ite
    | with_reducible apply keeps_ite_fst
    | (simp only [keeps_mk]; refine keeps_upd ?_ ?_ ?_ ?_ ?_ ?_ ?_ ?_ ?_ ?_ ?_ ?_ ?_ ?_ ?_ ?_ ?_ ?_ ?_ ?_ ?_ ?_ ?_ ?_ ?_ ?_ ?_ ?_ ?_ ?_ ?_ ?_ ?_ ?_ ?_ ?_ ?_ <;> first | exact same_rfl | exact same_bit (by decide) hm | exact id | exact Fuses.Le.refl _ | exact fun _ => TimeVal.ofCount_ns _ | exact fun h => SMap.wf_filter _ h | exact fun _ => SMap.wf_nil _ _ | skip)
    | (with_reducible apply keeps_pair)

theorem State.coastEnd_keeps {m : Nat} {z s : State} (h0 : Keeps m z s) (hm : 0x1000000140000 &&& m = 0x1000000140000) : Keeps m z (State.coastEnd s) := by
  unfold State.coastEnd
  repeat' first
    | (extract_lets +onlyGivenNames x; refine keeps_cut (m := m) (z := z) (x := x) ?_ (fun hx => ?_); rotate_left; generalize x = y at hx ⊢; clear x; rotate_left; subst x)
    | (extract_lets +onlyGivenNames x; first | (subst x) | skip)
    | with_reducible assumption
    | exact mask_sub (by decide) hm
    | with_reducible apply State.journal_keeps
    | with_reducible apply State.setB_keeps
    | (intro _)
    | with_reducible apply keeps_ite
    | with_reducible apply keeps_ite_fst
    | (simp only [keeps_mk]; refine keeps_upd ?_ ?_ ?_ ?_ ?_ ?_ ?_ ?_ ?_ ?_ ?_ ?_ ?_ ?_ ?_ ?_ ?_ ?_ ?_ ?_ ?_ ?_ ?_ ?_ ?_ ?_ ?_ ?_ ?_ ?_ ?_ ?_ ?_ ?_ ?_ ?_ ?_ <;> first | exact same_rfl | exact same_bit (by decide) hm | exact id | exact Fuses.Le.refl _ | exact fun _ => TimeVal.ofCount_ns _ | exact fun h => SMap.wf_filter _ h | exact fun _ => SMap.wf_nil _ _ | skip)
    | (split)
    | (with_reducible apply keeps_pair)

theorem State.loopLock_keeps {m : Nat} {z s : State} (h0 : Keeps m z s) (hm : 0x2004060400000 &&& m = 0x2004060400000) (n : Nat) : Keeps m z (State.loopLock s n) := by
  unfold State.loopLock
  repeat' first
    | (extract_lets +onlyGivenNames x; refine keeps_cut (m := m) (z := z) (x := x) ?_ (fun hx => ?_); rotate_left; generalize x = y at hx ⊢; clear x; rotate_left; subst x)
    | (extract_lets +onlyGivenNames x; first | (subst x) | skip)
    | with_reducible assumption
    | exact mask_sub (by decide) hm
    | with_reducible apply State.storeHop_keeps
    | with_reducible apply State.startDclk_keeps
    | with_reducible apply State.setLoopState_keeps
    | with_reducible apply State.setLoop_keeps
    | (intro _)
    | with_reducible apply keeps_ite
    | with_reducible apply keeps_ite_fst
    | (with_reducible apply keeps_pair)

theorem State.syn0Fcw_keeps {m : Nat} {z s : State} (h0 : Keeps m z s) (hm : 0x2000000000000 &&& m = 0x2000000000000) (freq rdiv : Nat) : Keeps m z (State.syn0Fcw s freq rdiv) := by
  unfold State.syn0Fcw
  repeat' first
    | (extract_lets +onlyGivenNames x; refine keeps_cut (m := m) (z := z) (x := x) ?_ (fun hx => ?_); rotate_left; generalize x = y at hx ⊢; clear x; rotate_left; subst x)
    | (extract_lets +onlyGivenNames x; first | (subst x) | skip)
    | with_reducible assumption
    | exact mask_sub (by decide) hm
    | with_reducible apply State.wr_keeps
    | (intro _)
    | with_reducible apply keeps_ite

theorem State.startQual_keeps {m : Nat} {z s : State} (h0 : Keeps m z s) (hm : 0x400000 &&& m = 0x400000) (newSrc : Bool) : Keeps m z (State.startQual s newSrc) := by
  unfold State.startQual
  repeat' first
    | (extract_lets +onlyGivenNames x; refine keeps_cut (m := m) (z := z) (x := x) ?_ (fun hx => ?_); rotate_left; generalize x = y at hx ⊢; clear x; rotate_left; subst x)
    | (extract_lets +onlyGivenNames x; first | (subst x) | skip)
    | with_reducible assumption
    | exact mask_sub (by decide) hm
    | (intro _)
    | (simp only [keeps_mk]; refine keeps_upd ?_ ?_ ?_ ?_ ?_ ?_ ?_ ?_ ?_ ?_ ?_ ?_ ?_ ?_ ?_ ?_ ?_ ?_ ?_ ?_ ?_ ?_ ?_ ?_ ?_ ?_ ?_ ?_ ?_ ?_ ?_ ?_ ?_ ?_ ?_ ?_ ?_ <;> first | exact same_rfl | exact same_bit (by decide) hm | exact id | exact Fuses.Le.refl _ | exact fun _ => TimeVal.ofCount_ns _ | exact fun h => SMap.wf_filter _ h | exact fun _ => SMap.wf_nil _ _ | skip)
    | (with_reducible apply keeps_pair)

theorem State.relock0_keeps {m : Nat} {z s : State} (h0 : Keeps m z s) (hm : 0x3004000540000 &&& m = 0x3004000540000) : Keeps m z (State.relock0 s) := by
  unfold State.relock0
  repeat' first
    | (extract_lets +onlyGivenNames x; refine keeps_cut (m := m) (z := z) (x := x) ?_ (fun hx => ?_); rotate_left; generalize x = y at hx ⊢; clear x; rotate_left; subst x)
    | (extract_lets +onlyGivenNames x; first | (subst x) | skip)
    | with_reducible assumption
    | exact mask_sub (by decide) hm
    | with_reducible apply State.coastEnd_keeps
    | with_reducible apply State.setLoopState_keeps
    | with_reducible apply State.setB_keeps
    | (intro _)
    | (simp only [keeps_mk]; refine keeps_upd ?_ ?_ ?_ ?_ ?_ ?_ ?_ ?_ ?_ ?_ ?_ ?_ ?_ ?_ ?_ ?_ ?_ ?_ ?_ ?_ ?_ ?_ ?_ ?_ ?_ ?_ ?_ ?_ ?_ ?_ ?_ ?_ ?_ ?_ ?_ ?_ ?_ <;> first | exact same_rfl | exact same_bit (by decide) hm | exact id | exact Fuses.Le.refl _ | exact fun _ => TimeVal.ofCount_ns _ | exact fun h => SMap.wf_filter _ h | exact fun _ => SMap.wf_nil _ _ | skip)

theorem State.synAccept_keeps {m : Nat} {z s : State} (h0 : Keeps m z s) (hm : 0x2000000000000 &&& m = 0x2000000000000) : Keeps m z (State.synAccept s) := by
  unfold State.synAccept
  repeat' first
    | with_reducible assumption
    | exact mask_sub (by decide) hm
    | with_reducible apply State.setB_keeps
    | (intro _)

theorem State.synRange_keeps {m : Nat} {z s : State} (h0 : Keeps m z s) (hm : 0x2000000000000 &&& m = 0x2000000000000) : Keeps m z (State.synRange s) := by
  unfold State.synRange
  repeat' first
    | with_reducible assumption
    | exact mask_sub (by decide) hm
    | with_reducible apply State.setB_keeps
    | (intro _)

theorem State.cairnReg_keeps {m : Nat} {z s : State} (h0 : Keeps m z s) (hm : 0x40000000 &&& m = 0x40000000) (r : Reg) (i : Nat) : Keeps m z (State.cairnReg s r i) := by
  unfold State.cairnReg
  repeat' first
    | (extract_lets +onlyGivenNames x; refine keeps_cut (m := m) (z := z) (x := x) ?_ (fun hx => ?_); rotate_left; generalize x = y at hx ⊢; clear x; rotate_left; subst x)
    | (extract_lets +onlyGivenNames x; first | (subst x) | skip)
    | with_reducible assumption
    | exact mask_sub (by decide) hm
    | (intro _)
    | (simp only [keeps_mk]; refine keeps_upd ?_ ?_ ?_ ?_ ?_ ?_ ?_ ?_ ?_ ?_ ?_ ?_ ?_ ?_ ?_ ?_ ?_ ?_ ?_ ?_ ?_ ?_ ?_ ?_ ?_ ?_ ?_ ?_ ?_ ?_ ?_ ?_ ?_ ?_ ?_ ?_ ?_ <;> first | exact same_rfl | exact same_bit (by decide) hm | exact id | exact Fuses.Le.refl _ | exact fun _ => TimeVal.ofCount_ns _ | exact fun h => SMap.wf_filter _ h | exact fun _ => SMap.wf_nil _ _ | skip)
    | (with_reducible apply keeps_pair)

theorem State.syn0Write_keeps {m : Nat} {z s : State} (h0 : Keeps m z s) (hm : 0x13A070605D8080 &&& m = 0x13A070605D8080) (r : Reg) (v : BitVec 32) : Keeps m z (State.syn0Write s r v) := by
  unfold State.syn0Write
  repeat' first
    | (extract_lets +onlyGivenNames x; refine keeps_cut (m := m) (z := z) (x := x) ?_ (fun hx => ?_); rotate_left; generalize x = y at hx ⊢; clear x; rotate_left; subst x)
    | (extract_lets +onlyGivenNames x; first | (subst x) | skip)
    | with_reducible assumption
    | exact mask_sub (by decide) hm
    | with_reducible apply State.cairnReg_keeps
    | with_reducible apply State.synRange_keeps
    | with_reducible apply State.synAccept_keeps
    | with_reducible apply State.startQual_keeps
    | with_reducible apply State.syn0Fcw_keeps
    | with_reducible apply State.coastEntry_keeps
    | with_reducible apply State.clearModel_keeps
    | with_reducible apply State.setB_keeps
    | with_reducible apply State.wr_keeps
    | (intro _)
    | with_reducible apply keeps_ite

theorem State.qualEnd_keeps {m : Nat} {z s : State} (h0 : Keeps m z s) (hm : 0x3245000550080 &&& m = 0x3245000550080) (dy : Int) : Keeps m z (State.qualEnd s dy) := by
  unfold State.qualEnd
  repeat' first
    | (extract_lets +onlyGivenNames x; refine keeps_cut (m := m) (z := z) (x := x) ?_ (fun hx => ?_); rotate_left; generalize x = y at hx ⊢; clear x; rotate_left; subst x)
    | (extract_lets +onlyGivenNames x; first | (subst x) | skip)
    | with_reducible assumption
    | exact mask_sub (by decide) hm
    | with_reducible apply State.relock0_keeps
    | with_reducible apply State.syn0Fcw_keeps
    | with_reducible refine State.raiseLow_keeps ?_ ?_ (by dsimp only; decide)
    | with_reducible apply State.raise_keeps
    | with_reducible apply State.setB_keeps
    | (intro _)
    | with_reducible apply keeps_ite
    | with_reducible apply keeps_ite_fst
    | (simp only [keeps_mk]; refine keeps_upd ?_ ?_ ?_ ?_ ?_ ?_ ?_ ?_ ?_ ?_ ?_ ?_ ?_ ?_ ?_ ?_ ?_ ?_ ?_ ?_ ?_ ?_ ?_ ?_ ?_ ?_ ?_ ?_ ?_ ?_ ?_ ?_ ?_ ?_ ?_ ?_ ?_ <;> first | exact same_rfl | exact same_bit (by decide) hm | exact id | exact Fuses.Le.refl _ | exact fun _ => TimeVal.ofCount_ns _ | exact fun h => SMap.wf_filter _ h | exact fun _ => SMap.wf_nil _ _ | skip)
    | (split)
    | (with_reducible apply keeps_pair)

theorem State.fcwCommit_keeps {m : Nat} {z s : State} (h0 : Keeps m z s) (hm : 0x2004000480000 &&& m = 0x2004000480000) (n : Nat) (den : BitVec 32) : Keeps m z (State.fcwCommit s n den) := by
  unfold State.fcwCommit
  repeat' first
    | (extract_lets +onlyGivenNames x; refine keeps_cut (m := m) (z := z) (x := x) ?_ (fun hx => ?_); rotate_left; generalize x = y at hx ⊢; clear x; rotate_left; subst x)
    | (extract_lets +onlyGivenNames x; first | (subst x) | skip)
    | with_reducible assumption
    | exact mask_sub (by decide) hm
    | with_reducible apply State.synRange_keeps
    | with_reducible apply State.synAccept_keeps
    | with_reducible apply State.startLoop_keeps
    | with_reducible apply State.setLoop_keeps
    | with_reducible apply State.wr_keeps
    | (intro _)
    | with_reducible apply keeps_ite
    | with_reducible apply keeps_ite_fst
    | (with_reducible apply keeps_pair)

theorem State.divCommit_keeps {m : Nat} {z s : State} (h0 : Keeps m z s) (hm : 0x2000000400000 &&& m = 0x2000000400000) (k : Nat) (lo : BitVec 32) : Keeps m z (State.divCommit s k lo) := by
  unfold State.divCommit
  repeat' first
    | (extract_lets +onlyGivenNames x; refine keeps_cut (m := m) (z := z) (x := x) ?_ (fun hx => ?_); rotate_left; generalize x = y at hx ⊢; clear x; rotate_left; subst x)
    | (extract_lets +onlyGivenNames x; first | (subst x) | skip)
    | with_reducible assumption
    | exact mask_sub (by decide) hm
    | with_reducible apply State.synRange_keeps
    | with_reducible apply State.synAccept_keeps
    | with_reducible apply State.setOut_keeps
    | with_reducible apply State.setB_keeps
    | with_reducible apply State.setF_keeps
    | with_reducible apply State.wr_keeps
    | (intro _)
    | with_reducible apply keeps_ite
    | with_reducible apply keeps_ite_fst
    | (split)
    | (with_reducible apply keeps_pair)

theorem State.outCfg_keeps {m : Nat} {z s : State} (h0 : Keeps m z s) (hm : 0x2000000400000 &&& m = 0x2000000400000) (k : Nat) (v : BitVec 32) : Keeps m z (State.outCfg s k v) := by
  unfold State.outCfg
  repeat' first
    | (extract_lets +onlyGivenNames x; refine keeps_cut (m := m) (z := z) (x := x) ?_ (fun hx => ?_); rotate_left; generalize x = y at hx ⊢; clear x; rotate_left; subst x)
    | (extract_lets +onlyGivenNames x; first | (subst x) | skip)
    | with_reducible assumption
    | exact mask_sub (by decide) hm
    | with_reducible apply State.synRange_keeps
    | with_reducible apply State.synAccept_keeps
    | with_reducible apply State.armAlign_keeps
    | with_reducible apply State.setOut_keeps
    | with_reducible apply State.wrRw_keeps
    | with_reducible apply State.setB_keeps
    | (intro _)
    | with_reducible apply keeps_ite

theorem State.phaseWrite_keeps {m : Nat} {z s : State} (h0 : Keeps m z s) (hm : 0x2000000400000 &&& m = 0x2000000400000) (n : Nat) (v : BitVec 32) : Keeps m z (State.phaseWrite s n v) := by
  unfold State.phaseWrite
  repeat' first
    | (extract_lets +onlyGivenNames x; refine keeps_cut (m := m) (z := z) (x := x) ?_ (fun hx => ?_); rotate_left; generalize x = y at hx ⊢; clear x; rotate_left; subst x)
    | (extract_lets +onlyGivenNames x; first | (subst x) | skip)
    | with_reducible assumption
    | exact mask_sub (by decide) hm
    | with_reducible apply State.synRange_keeps
    | with_reducible apply State.synAccept_keeps
    | with_reducible apply State.setLoop_keeps
    | with_reducible apply State.wr_keeps
    | (intro _)
    | with_reducible apply keeps_ite
    | with_reducible apply keeps_ite_fst
    | (with_reducible apply keeps_pair)

theorem State.synCmd_keeps {m : Nat} {z s : State} (h0 : Keeps m z s) (hm : 0x30040005C0000 &&& m = 0x30040005C0000) (n : Nat) (v : BitVec 32) : Keeps m z (State.synCmd s n v) := by
  unfold State.synCmd
  repeat' first
    | (extract_lets +onlyGivenNames x; refine keeps_cut (m := m) (z := z) (x := x) ?_ (fun hx => ?_); rotate_left; generalize x = y at hx ⊢; clear x; rotate_left; subst x)
    | (extract_lets +onlyGivenNames x; first | (subst x) | skip)
    | with_reducible assumption
    | exact mask_sub (by decide) hm
    | with_reducible apply State.synAccept_keeps
    | with_reducible apply State.relock0_keeps
    | with_reducible apply State.startLoop_keeps
    | with_reducible apply State.setB_keeps
    | (intro _)
    | with_reducible apply keeps_ite

theorem State.syncArm_keeps {m : Nat} {z s : State} (h0 : Keeps m z s) (hm : 0x2000000400000 &&& m = 0x2000000400000) : Keeps m z (State.syncArm s) := by
  unfold State.syncArm
  repeat' first
    | (extract_lets +onlyGivenNames x; refine keeps_cut (m := m) (z := z) (x := x) ?_ (fun hx => ?_); rotate_left; generalize x = y at hx ⊢; clear x; rotate_left; subst x)
    | (extract_lets +onlyGivenNames x; first | (subst x) | skip)
    | with_reducible assumption
    | exact mask_sub (by decide) hm
    | with_reducible apply State.setB_keeps
    | with_reducible apply State.setF_keeps
    | (intro _)
    | (simp only [keeps_mk]; refine keeps_upd ?_ ?_ ?_ ?_ ?_ ?_ ?_ ?_ ?_ ?_ ?_ ?_ ?_ ?_ ?_ ?_ ?_ ?_ ?_ ?_ ?_ ?_ ?_ ?_ ?_ ?_ ?_ ?_ ?_ ?_ ?_ ?_ ?_ ?_ ?_ ?_ ?_ <;> first | exact same_rfl | exact same_bit (by decide) hm | exact id | exact Fuses.Le.refl _ | exact fun _ => TimeVal.ofCount_ns _ | exact fun h => SMap.wf_filter _ h | exact fun _ => SMap.wf_nil _ _ | skip)
    | (split)
    | (with_reducible apply keeps_pair)

theorem State.alignOut_keeps {m : Nat} {z s : State} (h0 : Keeps m z s) (hm : 0x2000000400000 &&& m = 0x2000000400000) (k : Nat) : Keeps m z (State.alignOut s k) := by
  unfold State.alignOut
  repeat' first
    | (extract_lets +onlyGivenNames x; refine keeps_cut (m := m) (z := z) (x := x) ?_ (fun hx => ?_); rotate_left; generalize x = y at hx ⊢; clear x; rotate_left; subst x)
    | (extract_lets +onlyGivenNames x; first | (subst x) | skip)
    | with_reducible assumption
    | exact mask_sub (by decide) hm
    | with_reducible apply State.setOut_keeps
    | with_reducible apply State.setB_keeps
    | (intro _)
    | with_reducible apply keeps_ite
    | with_reducible apply keeps_ite_fst
    | (with_reducible apply keeps_pair)

theorem State.alignDue_keeps {m : Nat} {z s : State} (h0 : Keeps m z s) (hm : 0x2000000400000 &&& m = 0x2000000400000) : Keeps m z (State.alignDue s) := by
  unfold State.alignDue
  repeat' first
    | (extract_lets +onlyGivenNames x; refine keeps_cut (m := m) (z := z) (x := x) ?_ (fun hx => ?_); rotate_left; generalize x = y at hx ⊢; clear x; rotate_left; subst x)
    | (extract_lets +onlyGivenNames x; first | (subst x) | skip)
    | with_reducible assumption
    | exact mask_sub (by decide) hm
    | with_reducible apply State.alignOut_keeps
    | with_reducible apply State.setB_keeps
    | with_reducible apply State.wr_keeps
    | (with_reducible apply keeps_foldl)
    | (intro _ _ _)
    | (intro _)
    | with_reducible apply keeps_ite
    | with_reducible apply keeps_ite_fst
    | (simp only [keeps_mk]; refine keeps_upd ?_ ?_ ?_ ?_ ?_ ?_ ?_ ?_ ?_ ?_ ?_ ?_ ?_ ?_ ?_ ?_ ?_ ?_ ?_ ?_ ?_ ?_ ?_ ?_ ?_ ?_ ?_ ?_ ?_ ?_ ?_ ?_ ?_ ?_ ?_ ?_ ?_ <;> first | exact same_rfl | exact same_bit (by decide) hm | exact id | exact Fuses.Le.refl _ | exact fun _ => TimeVal.ofCount_ns _ | exact fun h => SMap.wf_filter _ h | exact fun _ => SMap.wf_nil _ _ | skip)
    | (split)
    | (with_reducible apply keeps_pair)

theorem State.setPps_keeps {m : Nat} {z s : State} (h0 : Keeps m z s) (hm : 0x400000 &&& m = 0x400000) (j : Nat) (x : SynPps) : Keeps m z (State.setPps s j x) := by
  unfold State.setPps
  repeat' first
    | (extract_lets +onlyGivenNames x; refine keeps_cut (m := m) (z := z) (x := x) ?_ (fun hx => ?_); rotate_left; generalize x = y at hx ⊢; clear x; rotate_left; subst x)
    | (extract_lets +onlyGivenNames x; first | (subst x) | skip)
    | with_reducible assumption
    | exact mask_sub (by decide) hm
    | (intro _)
    | (simp only [keeps_mk]; refine keeps_upd ?_ ?_ ?_ ?_ ?_ ?_ ?_ ?_ ?_ ?_ ?_ ?_ ?_ ?_ ?_ ?_ ?_ ?_ ?_ ?_ ?_ ?_ ?_ ?_ ?_ ?_ ?_ ?_ ?_ ?_ ?_ ?_ ?_ ?_ ?_ ?_ ?_ <;> first | exact same_rfl | exact same_bit (by decide) hm | exact id | exact Fuses.Le.refl _ | exact fun _ => TimeVal.ofCount_ns _ | exact fun h => SMap.wf_filter _ h | exact fun _ => SMap.wf_nil _ _ | skip)

theorem State.ppsEdge_keeps {m : Nat} {z s : State} (h0 : Keeps m z s) (hm : 0x2000000400000 &&& m = 0x2000000400000) (j : Nat) : Keeps m z (State.ppsEdge s j) := by
  unfold State.ppsEdge
  repeat' first
    | (extract_lets +onlyGivenNames x; refine keeps_cut (m := m) (z := z) (x := x) ?_ (fun hx => ?_); rotate_left; generalize x = y at hx ⊢; clear x; rotate_left; subst x)
    | (extract_lets +onlyGivenNames x; first | (subst x) | skip)
    | with_reducible assumption
    | exact mask_sub (by decide) hm
    | with_reducible apply State.setPps_keeps
    | with_reducible apply State.setB_keeps
    | (intro _)
    | with_reducible apply keeps_ite
    | with_reducible apply keeps_ite_fst
    | (with_reducible apply keeps_pair)

theorem State.ppsCfg_keeps {m : Nat} {z s : State} (h0 : Keeps m z s) (hm : 0x2000000400000 &&& m = 0x2000000400000) (j : Nat) (v : BitVec 32) : Keeps m z (State.ppsCfg s j v) := by
  unfold State.ppsCfg
  repeat' first
    | (extract_lets +onlyGivenNames x; refine keeps_cut (m := m) (z := z) (x := x) ?_ (fun hx => ?_); rotate_left; generalize x = y at hx ⊢; clear x; rotate_left; subst x)
    | (extract_lets +onlyGivenNames x; first | (subst x) | skip)
    | with_reducible assumption
    | exact mask_sub (by decide) hm
    | with_reducible apply State.setPps_keeps
    | with_reducible apply State.synRange_keeps
    | with_reducible apply State.synAccept_keeps
    | with_reducible apply State.wrRw_keeps
    | (intro _)
    | with_reducible apply keeps_ite

theorem State.ppsTake_keeps {m : Nat} {z s : State} (h0 : Keeps m z s) (hm : 0x2000000400000 &&& m = 0x2000000400000) (j : Nat) : Keeps m z (State.ppsTake s j) := by
  unfold State.ppsTake
  repeat' first
    | (extract_lets +onlyGivenNames x; refine keeps_cut (m := m) (z := z) (x := x) ?_ (fun hx => ?_); rotate_left; generalize x = y at hx ⊢; clear x; rotate_left; subst x)
    | (extract_lets +onlyGivenNames x; first | (subst x) | skip)
    | with_reducible assumption
    | exact mask_sub (by decide) hm
    | with_reducible apply State.setPps_keeps
    | with_reducible apply State.setB_keeps
    | (intro _)
    | with_reducible apply keeps_ite
    | with_reducible apply keeps_ite_fst
    | (split)
    | (with_reducible apply keeps_pair)

theorem State.ppsComp_keeps {m : Nat} {z s : State} (h0 : Keeps m z s) (hm : 0x2000000000000 &&& m = 0x2000000000000) (j : Nat) (v : BitVec 32) : Keeps m z (State.ppsComp s j v) := by
  unfold State.ppsComp
  repeat' first
    | with_reducible assumption
    | exact mask_sub (by decide) hm
    | with_reducible apply State.synRange_keeps
    | with_reducible apply State.synAccept_keeps
    | with_reducible apply State.setB_keeps
    | with_reducible apply State.wr_keeps
    | (intro _)
    | with_reducible apply keeps_ite

theorem State.todSend_keeps {m : Nat} {z s : State} (h0 : Keeps m z s) (hm : 0x400000 &&& m = 0x400000) (k : Nat) : Keeps m z (State.todSend s k) := by
  unfold State.todSend
  repeat' first
    | (extract_lets +onlyGivenNames x; refine keeps_cut (m := m) (z := z) (x := x) ?_ (fun hx => ?_); rotate_left; generalize x = y at hx ⊢; clear x; rotate_left; subst x)
    | (extract_lets +onlyGivenNames x; first | (subst x) | skip)
    | with_reducible assumption
    | exact mask_sub (by decide) hm
    | (intro _)
    | with_reducible apply keeps_ite
    | with_reducible apply keeps_ite_fst
    | (simp only [keeps_mk]; refine keeps_upd ?_ ?_ ?_ ?_ ?_ ?_ ?_ ?_ ?_ ?_ ?_ ?_ ?_ ?_ ?_ ?_ ?_ ?_ ?_ ?_ ?_ ?_ ?_ ?_ ?_ ?_ ?_ ?_ ?_ ?_ ?_ ?_ ?_ ?_ ?_ ?_ ?_ <;> first | exact same_rfl | exact same_bit (by decide) hm | exact id | exact Fuses.Le.refl _ | exact fun _ => TimeVal.ofCount_ns _ | exact fun h => SMap.wf_filter _ h | exact fun _ => SMap.wf_nil _ _ | skip)
    | (split)
    | (with_reducible apply keeps_pair)

theorem State.outShow_keeps {m : Nat} {z s : State} (h0 : Keeps m z s) (hm : 0x1000000000000 &&& m = 0x1000000000000) : Keeps m z (State.outShow s) := by
  unfold State.outShow
  repeat' first
    | (extract_lets +onlyGivenNames x; refine keeps_cut (m := m) (z := z) (x := x) ?_ (fun hx => ?_); rotate_left; generalize x = y at hx ⊢; clear x; rotate_left; subst x)
    | (extract_lets +onlyGivenNames x; first | (subst x) | skip)
    | with_reducible assumption
    | exact mask_sub (by decide) hm
    | with_reducible apply State.wr_keeps
    | (with_reducible apply keeps_foldl)
    | (intro _ _ _)
    | (intro _)

theorem State.synPlain_keeps {m : Nat} {z s : State} {r : Reg} (h0 : Keeps m z s) (hm : 0x2000000000000 &&& m = 0x2000000000000) (hr_bit : r.bit &&& m = r.bit) (n : Nat) (v : BitVec 32) (ok : Bool) : Keeps m z (State.synPlain s r n v ok) := by
  unfold State.synPlain
  repeat' first
    | with_reducible assumption
    | exact mask_sub (by decide) hm
    | with_reducible apply State.synRange_keeps
    | with_reducible apply State.synAccept_keeps
    | with_reducible apply State.wrRw_keeps
    | (intro _)
    | with_reducible apply keeps_ite

theorem State.synWrite_keeps {m : Nat} {z s : State} {r : Reg} (h0 : Keeps m z s) (hm : 0x13A070605D8080 &&& m = 0x13A070605D8080) (hr_bit : r.bit &&& m = r.bit) (n : Nat) (v : BitVec 32) : Keeps m z (State.synWrite s r n v) := by
  unfold State.synWrite
  repeat' first
    | (extract_lets +onlyGivenNames x; refine keeps_cut (m := m) (z := z) (x := x) ?_ (fun hx => ?_); rotate_left; generalize x = y at hx ⊢; clear x; rotate_left; subst x)
    | (extract_lets +onlyGivenNames x; first | (subst x) | skip)
    | with_reducible assumption
    | exact mask_sub (by decide) hm
    | with_reducible apply State.synPlain_keeps
    | with_reducible apply State.ppsComp_keeps
    | with_reducible apply State.ppsCfg_keeps
    | with_reducible apply State.synCmd_keeps
    | with_reducible apply State.phaseWrite_keeps
    | with_reducible apply State.outCfg_keeps
    | with_reducible apply State.divCommit_keeps
    | with_reducible apply State.fcwCommit_keeps
    | with_reducible apply State.syn0Write_keeps
    | with_reducible apply State.synAccept_keeps
    | with_reducible apply State.setOut_keeps
    | with_reducible apply State.setLoop_keeps
    | with_reducible apply State.w1c_keeps
    | (intro _)
    | with_reducible apply keeps_ite

/-! ### Machine/GnsOps.lean -/

theorem State.acqNext_keeps {m : Nat} {z s : State} (h0 : Keeps m z s) (hm : 0x4000000800000 &&& m = 0x4000000800000) : Keeps m z (State.acqNext s) := by
  unfold State.acqNext
  repeat' first
    | (extract_lets +onlyGivenNames x; refine keeps_cut (m := m) (z := z) (x := x) ?_ (fun hx => ?_); rotate_left; generalize x = y at hx ⊢; clear x; rotate_left; subst x)
    | (extract_lets +onlyGivenNames x; first | (subst x) | skip)
    | with_reducible assumption
    | exact mask_sub (by decide) hm
    | with_reducible apply State.setB_keeps
    | (intro _)
    | with_reducible apply keeps_ite
    | with_reducible apply keeps_ite_fst
    | (simp only [keeps_mk]; refine keeps_upd ?_ ?_ ?_ ?_ ?_ ?_ ?_ ?_ ?_ ?_ ?_ ?_ ?_ ?_ ?_ ?_ ?_ ?_ ?_ ?_ ?_ ?_ ?_ ?_ ?_ ?_ ?_ ?_ ?_ ?_ ?_ ?_ ?_ ?_ ?_ ?_ ?_ <;> first | exact same_rfl | exact same_bit (by decide) hm | exact id | exact Fuses.Le.refl _ | exact fun _ => TimeVal.ofCount_ns _ | exact fun h => SMap.wf_filter _ h | exact fun _ => SMap.wf_nil _ _ | skip)
    | (split)
    | (with_reducible apply keeps_pair)

theorem State.acqQueue_keeps {m : Nat} {z s : State} (h0 : Keeps m z s) (hm : 0x800000 &&& m = 0x800000) (a i : Nat) : Keeps m z (State.acqQueue s a i) := by
  unfold State.acqQueue
  repeat' first
    | (extract_lets +onlyGivenNames x; refine keeps_cut (m := m) (z := z) (x := x) ?_ (fun hx => ?_); rotate_left; generalize x = y at hx ⊢; clear x; rotate_left; subst x)
    | (extract_lets +onlyGivenNames x; first | (subst x) | skip)
    | with_reducible assumption
    | exact mask_sub (by decide) hm
    | (intro _)
    | (simp only [keeps_mk]; refine keeps_upd ?_ ?_ ?_ ?_ ?_ ?_ ?_ ?_ ?_ ?_ ?_ ?_ ?_ ?_ ?_ ?_ ?_ ?_ ?_ ?_ ?_ ?_ ?_ ?_ ?_ ?_ ?_ ?_ ?_ ?_ ?_ ?_ ?_ ?_ ?_ ?_ ?_ <;> first | exact same_rfl | exact same_bit (by decide) hm | exact id | exact Fuses.Le.refl _ | exact fun _ => TimeVal.ofCount_ns _ | exact fun h => SMap.wf_filter _ h | exact fun _ => SMap.wf_nil _ _ | skip)
    | (with_reducible apply keeps_pair)

theorem State.chCount_keeps {m : Nat} {z s : State} (h0 : Keeps m z s) (hm : 0x4000000000000 &&& m = 0x4000000000000) : Keeps m z (State.chCount s) := by
  unfold State.chCount
  repeat' first
    | (extract_lets +onlyGivenNames x; refine keeps_cut (m := m) (z := z) (x := x) ?_ (fun hx => ?_); rotate_left; generalize x = y at hx ⊢; clear x; rotate_left; subst x)
    | (extract_lets +onlyGivenNames x; first | (subst x) | skip)
    | with_reducible assumption
    | exact mask_sub (by decide) hm
    | with_reducible apply State.setF_keeps
    | (with_reducible apply keeps_foldl)
    | (intro _ _ _)
    | (intro _)

theorem State.allocChannel_keeps {m : Nat} {z s : State} (h0 : Keeps m z s) (hm : 0x4000000000000 &&& m = 0x4000000000000) (j : AcqJob) (cn0 elev : Nat) : Keeps m z (State.allocChannel s j cn0 elev) := by
  unfold State.allocChannel
  repeat' first
    | (extract_lets +onlyGivenNames x; refine keeps_cut (m := m) (z := z) (x := x) ?_ (fun hx => ?_); rotate_left; generalize x = y at hx ⊢; clear x; rotate_left; subst x)
    | (extract_lets +onlyGivenNames x; first | (subst x) | skip)
    | with_reducible assumption
    | exact mask_sub (by decide) hm
    | with_reducible apply State.chCount_keeps
    | with_reducible apply State.wr_keeps
    | (intro _)
    | with_reducible apply keeps_ite
    | (split)

theorem State.acqDone_keeps {m : Nat} {z s : State} (h0 : Keeps m z s) (hm : 0x4000000800000 &&& m = 0x4000000800000) (found : Option (Nat × Nat)) : Keeps m z (State.acqDone s found) := by
  unfold State.acqDone
  repeat' first
    | (extract_lets +onlyGivenNames x; refine keeps_cut (m := m) (z := z) (x := x) ?_ (fun hx => ?_); rotate_left; generalize x = y at hx ⊢; clear x; rotate_left; subst x)
    | (extract_lets +onlyGivenNames x; first | (subst x) | skip)
    | with_reducible assumption
    | exact mask_sub (by decide) hm
    | with_reducible apply State.allocChannel_keeps
    | with_reducible apply State.acqNext_keeps
    | (intro _)
    | with_reducible apply keeps_ite
    | (simp only [keeps_mk]; refine keeps_upd ?_ ?_ ?_ ?_ ?_ ?_ ?_ ?_ ?_ ?_ ?_ ?_ ?_ ?_ ?_ ?_ ?_ ?_ ?_ ?_ ?_ ?_ ?_ ?_ ?_ ?_ ?_ ?_ ?_ ?_ ?_ ?_ ?_ ?_ ?_ ?_ ?_ <;> first | exact same_rfl | exact same_bit (by decide) hm | exact id | exact Fuses.Le.refl _ | exact fun _ => TimeVal.ofCount_ns _ | exact fun h => SMap.wf_filter _ h | exact fun _ => SMap.wf_nil _ _ | skip)
    | (split)

theorem State.acqAbort_keeps {m : Nat} {z s : State} (h0 : Keeps m z s) (hm : 0x4004000800000 &&& m = 0x4004000800000) : Keeps m z (State.acqAbort s) := by
  unfold State.acqAbort
  repeat' first
    | (extract_lets +onlyGivenNames x; refine keeps_cut (m := m) (z := z) (x := x) ?_ (fun hx => ?_); rotate_left; generalize x = y at hx ⊢; clear x; rotate_left; subst x)
    | (extract_lets +onlyGivenNames x; first | (subst x) | skip)
    | with_reducible assumption
    | exact mask_sub (by decide) hm
    | with_reducible apply State.irqPulse_keeps
    | with_reducible apply State.setB_keeps
    | with_reducible apply State.setF_keeps
    | (intro _)
    | with_reducible apply keeps_ite
    | with_reducible apply keeps_ite_fst
    | (simp only [keeps_mk]; refine keeps_upd ?_ ?_ ?_ ?_ ?_ ?_ ?_ ?_ ?_ ?_ ?_ ?_ ?_ ?_ ?_ ?_ ?_ ?_ ?_ ?_ ?_ ?_ ?_ ?_ ?_ ?_ ?_ ?_ ?_ ?_ ?_ ?_ ?_ ?_ ?_ ?_ ?_ <;> first | exact same_rfl | exact same_bit (by decide) hm | exact id | exact Fuses.Le.refl _ | exact fun _ => TimeVal.ofCount_ns _ | exact fun h => SMap.wf_filter _ h | exact fun _ => SMap.wf_nil _ _ | skip)
    | (with_reducible apply keeps_pair)

theorem State.dropChannels_keeps {m : Nat} {z s : State} (h0 : Keeps m z s) (hm : 0x4000000000000 &&& m = 0x4000000000000) (p : Nat → Bool) : Keeps m z (State.dropChannels s p) := by
  unfold State.dropChannels
  repeat' first
    | with_reducible assumption
    | exact mask_sub (by decide) hm
    | with_reducible apply State.chCount_keeps
    | with_reducible apply State.wr_keeps
    | (with_reducible apply keeps_foldl)
    | (intro _ _ _)
    | (intro _)
    | with_reducible apply keeps_ite

theorem State.endCapture_keeps {m : Nat} {z s : State} (h0 : Keeps m z s) (hm : 0x4004000800000 &&& m = 0x4004000800000) (result : Nat) : Keeps m z (State.endCapture s result) := by
  unfold State.endCapture
  repeat' first
    | (extract_lets +onlyGivenNames x; refine keeps_cut (m := m) (z := z) (x := x) ?_ (fun hx => ?_); rotate_left; generalize x = y at hx ⊢; clear x; rotate_left; subst x)
    | (extract_lets +onlyGivenNames x; first | (subst x) | skip)
    | with_reducible assumption
    | exact mask_sub (by decide) hm
    | with_reducible apply State.irqPulse_keeps
    | with_reducible apply State.setB_keeps
    | with_reducible apply State.setF_keeps
    | (intro _)
    | (simp only [keeps_mk]; refine keeps_upd ?_ ?_ ?_ ?_ ?_ ?_ ?_ ?_ ?_ ?_ ?_ ?_ ?_ ?_ ?_ ?_ ?_ ?_ ?_ ?_ ?_ ?_ ?_ ?_ ?_ ?_ ?_ ?_ ?_ ?_ ?_ ?_ ?_ ?_ ?_ ?_ ?_ <;> first | exact same_rfl | exact same_bit (by decide) hm | exact id | exact Fuses.Le.refl _ | exact fun _ => TimeVal.ofCount_ns _ | exact fun h => SMap.wf_filter _ h | exact fun _ => SMap.wf_nil _ _ | skip)

theorem State.gnsAccept_keeps {m : Nat} {z s : State} (h0 : Keeps m z s) (hm : 0x4000000000000 &&& m = 0x4000000000000) : Keeps m z (State.gnsAccept s) := by
  unfold State.gnsAccept
  repeat' first
    | with_reducible assumption
    | exact mask_sub (by decide) hm
    | with_reducible apply State.setB_keeps
    | (intro _)

theorem State.gnsRange_keeps {m : Nat} {z s : State} (h0 : Keeps m z s) (hm : 0x4000000000000 &&& m = 0x4000000000000) : Keeps m z (State.gnsRange s) := by
  unfold State.gnsRange
  repeat' first
    | with_reducible assumption
    | exact mask_sub (by decide) hm
    | with_reducible apply State.setB_keeps
    | (intro _)

theorem State.spCfg_keeps {m : Nat} {z s : State} (h0 : Keeps m z s) (hm : 0x4004000800000 &&& m = 0x4004000800000) (p : Nat) (v : BitVec 32) : Keeps m z (State.spCfg s p v) := by
  unfold State.spCfg
  repeat' first
    | (extract_lets +onlyGivenNames x; refine keeps_cut (m := m) (z := z) (x := x) ?_ (fun hx => ?_); rotate_left; generalize x = y at hx ⊢; clear x; rotate_left; subst x)
    | (extract_lets +onlyGivenNames x; first | (subst x) | skip)
    | with_reducible assumption
    | exact mask_sub (by decide) hm
    | with_reducible apply State.gnsAccept_keeps
    | with_reducible apply State.endCapture_keeps
    | with_reducible apply State.dropChannels_keeps
    | with_reducible apply State.acqQueue_keeps
    | with_reducible apply State.acqNext_keeps
    | with_reducible apply State.wrRw_keeps
    | with_reducible apply State.setB_keeps
    | (with_reducible apply keeps_foldl)
    | (intro _ _ _)
    | (intro _)
    | with_reducible apply keeps_ite
    | (split)

theorem State.losePrimary_keeps {m : Nat} {z s : State} (h0 : Keeps m z s) (hm : 0x100000 &&& m = 0x100000) (p : Option Nat) : Keeps m z (State.losePrimary s p) := by
  unfold State.losePrimary
  repeat' first
    | (extract_lets +onlyGivenNames x; refine keeps_cut (m := m) (z := z) (x := x) ?_ (fun hx => ?_); rotate_left; generalize x = y at hx ⊢; clear x; rotate_left; subst x)
    | (extract_lets +onlyGivenNames x; first | (subst x) | skip)
    | with_reducible assumption
    | exact mask_sub (by decide) hm
    | with_reducible apply State.setEnt_keeps
    | (intro _)
    | (split)

theorem State.withholdAnt_keeps {m : Nat} {z s : State} (h0 : Keeps m z s) (hm : 0x4000000100000 &&& m = 0x4000000100000) (a : Nat) : Keeps m z (State.withholdAnt s a) := by
  unfold State.withholdAnt
  repeat' first
    | with_reducible assumption
    | exact mask_sub (by decide) hm
    | with_reducible apply State.losePrimary_keeps
    | with_reducible apply State.setF_keeps
    | (intro _)

theorem State.withholdAll_keeps {m : Nat} {z s : State} (h0 : Keeps m z s) (hm : 0x4000000100000 &&& m = 0x4000000100000) : Keeps m z (State.withholdAll s) := by
  unfold State.withholdAll
  repeat' first
    | with_reducible assumption
    | exact mask_sub (by decide) hm
    | with_reducible apply State.withholdAnt_keeps
    | with_reducible apply State.setF_keeps
    | (with_reducible apply keeps_foldl)
    | (intro _ _ _)
    | (intro _)
    | with_reducible apply keeps_ite

theorem State.rateCheck_keeps {m : Nat} {z s : State} (h0 : Keeps m z s) (hm : 0x4205000110080 &&& m = 0x4205000110080) (p hz : Nat) : Keeps m z (State.rateCheck s p hz) := by
  unfold State.rateCheck
  repeat' first
    | (extract_lets +onlyGivenNames x; refine keeps_cut (m := m) (z := z) (x := x) ?_ (fun hx => ?_); rotate_left; generalize x = y at hx ⊢; clear x; rotate_left; subst x)
    | (extract_lets +onlyGivenNames x; first | (subst x) | skip)
    | with_reducible assumption
    | exact mask_sub (by decide) hm
    | with_reducible apply State.withholdAll_keeps
    | with_reducible refine State.raiseLow_keeps ?_ ?_ (by dsimp only; decide)
    | with_reducible apply State.raise_keeps
    | with_reducible apply State.setB_keeps
    | (intro _)
    | with_reducible apply keeps_ite
    | with_reducible apply keeps_ite_fst
    | (with_reducible apply keeps_pair)

theorem State.powerCheck_keeps {m : Nat} {z s : State} (h0 : Keeps m z s) (hm : 0x4205000910080 &&& m = 0x4205000910080) (p : Nat) (pwr : BitVec 16) : Keeps m z (State.powerCheck s p pwr) := by
  unfold State.powerCheck
  repeat' first
    | (extract_lets +onlyGivenNames x; refine keeps_cut (m := m) (z := z) (x := x) ?_ (fun hx => ?_); rotate_left; generalize x = y at hx ⊢; clear x; rotate_left; subst x)
    | (extract_lets +onlyGivenNames x; first | (subst x) | skip)
    | with_reducible assumption
    | exact mask_sub (by decide) hm
    | with_reducible apply State.withholdAll_keeps
    | with_reducible refine State.raiseLow_keeps ?_ ?_ (by dsimp only; decide)
    | with_reducible apply State.raise_keeps
    | with_reducible apply State.setB_keeps
    | with_reducible apply State.setF_keeps
    | (intro _)
    | with_reducible apply keeps_ite
    | with_reducible apply keeps_ite_fst
    | (simp only [keeps_mk]; refine keeps_upd ?_ ?_ ?_ ?_ ?_ ?_ ?_ ?_ ?_ ?_ ?_ ?_ ?_ ?_ ?_ ?_ ?_ ?_ ?_ ?_ ?_ ?_ ?_ ?_ ?_ ?_ ?_ ?_ ?_ ?_ ?_ ?_ ?_ ?_ ?_ ?_ ?_ <;> first | exact same_rfl | exact same_bit (by decide) hm | exact id | exact Fuses.Le.refl _ | exact fun _ => TimeVal.ofCount_ns _ | exact fun h => SMap.wf_filter _ h | exact fun _ => SMap.wf_nil _ _ | skip)
    | (with_reducible apply keeps_pair)

theorem State.ctlCmd_keeps {m : Nat} {z s : State} (h0 : Keeps m z s) (hm : 0x4000000800000 &&& m = 0x4000000800000) (v : BitVec 32) : Keeps m z (State.ctlCmd s v) := by
  unfold State.ctlCmd
  repeat' first
    | (extract_lets +onlyGivenNames x; refine keeps_cut (m := m) (z := z) (x := x) ?_ (fun hx => ?_); rotate_left; generalize x = y at hx ⊢; clear x; rotate_left; subst x)
    | (extract_lets +onlyGivenNames x; first | (subst x) | skip)
    | with_reducible assumption
    | exact mask_sub (by decide) hm
    | with_reducible apply State.gnsRange_keeps
    | with_reducible apply State.gnsAccept_keeps
    | with_reducible apply State.setB_keeps
    | with_reducible apply State.wr_keeps
    | (intro _)
    | with_reducible apply keeps_ite
    | with_reducible apply keeps_ite_fst
    | (simp only [keeps_mk]; refine keeps_upd ?_ ?_ ?_ ?_ ?_ ?_ ?_ ?_ ?_ ?_ ?_ ?_ ?_ ?_ ?_ ?_ ?_ ?_ ?_ ?_ ?_ ?_ ?_ ?_ ?_ ?_ ?_ ?_ ?_ ?_ ?_ ?_ ?_ ?_ ?_ ?_ ?_ <;> first | exact same_rfl | exact same_bit (by decide) hm | exact id | exact Fuses.Le.refl _ | exact fun _ => TimeVal.ofCount_ns _ | exact fun h => SMap.wf_filter _ h | exact fun _ => SMap.wf_nil _ _ | skip)
    | (with_reducible apply keeps_pair)

theorem State.ctlDone_keeps {m : Nat} {z s : State} (h0 : Keeps m z s) (hm : 0x4000000800000 &&& m = 0x4000000800000) (miso : BitVec 32) : Keeps m z (State.ctlDone s miso) := by
  unfold State.ctlDone
  repeat' first
    | (extract_lets +onlyGivenNames x; refine keeps_cut (m := m) (z := z) (x := x) ?_ (fun hx => ?_); rotate_left; generalize x = y at hx ⊢; clear x; rotate_left; subst x)
    | (extract_lets +onlyGivenNames x; first | (subst x) | skip)
    | with_reducible assumption
    | exact mask_sub (by decide) hm
    | with_reducible apply State.setB_keeps
    | with_reducible apply State.setF_keeps
    | with_reducible apply State.wr_keeps
    | (intro _)
    | with_reducible apply keeps_ite
    | with_reducible apply keeps_ite_fst
    | (simp only [keeps_mk]; refine keeps_upd ?_ ?_ ?_ ?_ ?_ ?_ ?_ ?_ ?_ ?_ ?_ ?_ ?_ ?_ ?_ ?_ ?_ ?_ ?_ ?_ ?_ ?_ ?_ ?_ ?_ ?_ ?_ ?_ ?_ ?_ ?_ ?_ ?_ ?_ ?_ ?_ ?_ <;> first | exact same_rfl | exact same_bit (by decide) hm | exact id | exact Fuses.Le.refl _ | exact fun _ => TimeVal.ofCount_ns _ | exact fun h => SMap.wf_filter _ h | exact fun _ => SMap.wf_nil _ _ | skip)
    | (split)
    | (with_reducible apply keeps_pair)

theorem State.surveyStep_keeps {m : Nat} {z s : State} (h0 : Keeps m z s) (hm : 0x4000040800000 &&& m = 0x4000040800000) (a n : Nat) (pos : List Rat) (posVar : Rat) : Keeps m z (State.surveyStep s a n pos posVar) := by
  unfold State.surveyStep
  repeat' first
    | (extract_lets +onlyGivenNames x; refine keeps_cut (m := m) (z := z) (x := x) ?_ (fun hx => ?_); rotate_left; generalize x = y at hx ⊢; clear x; rotate_left; subst x)
    | (extract_lets +onlyGivenNames x; first | (subst x) | skip)
    | with_reducible assumption
    | exact mask_sub (by decide) hm
    | with_reducible apply State.cairnReg_keeps
    | with_reducible apply State.setB_keeps
    | with_reducible apply State.wr_keeps
    | (with_reducible apply keeps_foldl)
    | (with_reducible apply keeps_getD)
    | (intro _ _ _)
    | (intro _)
    | with_reducible apply keeps_ite
    | with_reducible apply keeps_ite_fst
    | (simp only [keeps_mk]; refine keeps_upd ?_ ?_ ?_ ?_ ?_ ?_ ?_ ?_ ?_ ?_ ?_ ?_ ?_ ?_ ?_ ?_ ?_ ?_ ?_ ?_ ?_ ?_ ?_ ?_ ?_ ?_ ?_ ?_ ?_ ?_ ?_ ?_ ?_ ?_ ?_ ?_ ?_ <;> first | exact same_rfl | exact same_bit (by decide) hm | exact id | exact Fuses.Le.refl _ | exact fun _ => TimeVal.ofCount_ns _ | exact fun h => SMap.wf_filter _ h | exact fun _ => SMap.wf_nil _ _ | skip)
    | (with_reducible apply keeps_pair)

theorem State.antEpoch_keeps {m : Nat} {z s : State} (h0 : Keeps m z s) (hm : 0x4205040910080 &&& m = 0x4205040910080) (n : Nat) (obs : List GnsObs) (a : Nat) : Keeps m z (State.antEpoch s n obs a) := by
  unfold State.antEpoch
  repeat' first
    | (extract_lets +onlyGivenNames x; refine keeps_cut (m := m) (z := z) (x := x) ?_ (fun hx => ?_); rotate_left; generalize x = y at hx ⊢; clear x; rotate_left; subst x)
    | (extract_lets +onlyGivenNames x; first | (subst x) | skip)
    | with_reducible assumption
    | exact mask_sub (by decide) hm
    | with_reducible apply State.surveyStep_keeps
    | with_reducible refine State.raiseLow_keeps ?_ ?_ (by dsimp only; decide)
    | with_reducible apply State.raise_keeps
    | with_reducible apply State.setF_keeps
    | with_reducible apply State.wr_keeps
    | (with_reducible apply keeps_foldl)
    | (intro _ _ _)
    | (intro _)
    | with_reducible apply keeps_ite
    | with_reducible apply keeps_ite_fst
    | (simp only [keeps_mk]; refine keeps_upd ?_ ?_ ?_ ?_ ?_ ?_ ?_ ?_ ?_ ?_ ?_ ?_ ?_ ?_ ?_ ?_ ?_ ?_ ?_ ?_ ?_ ?_ ?_ ?_ ?_ ?_ ?_ ?_ ?_ ?_ ?_ ?_ ?_ ?_ ?_ ?_ ?_ <;> first | exact same_rfl | exact same_bit (by decide) hm | exact id | exact Fuses.Le.refl _ | exact fun _ => TimeVal.ofCount_ns _ | exact fun h => SMap.wf_filter _ h | exact fun _ => SMap.wf_nil _ _ | skip)
    | (split)
    | (with_reducible apply keeps_pair)

theorem State.chEpoch_keeps {m : Nat} {z s : State} (h0 : Keeps m z s) (hm : 0x4000000800000 &&& m = 0x4000000800000) (o : GnsObs) : Keeps m z (State.chEpoch s o) := by
  unfold State.chEpoch
  repeat' first
    | (extract_lets +onlyGivenNames x; refine keeps_cut (m := m) (z := z) (x := x) ?_ (fun hx => ?_); rotate_left; generalize x = y at hx ⊢; clear x; rotate_left; subst x)
    | (extract_lets +onlyGivenNames x; first | (subst x) | skip)
    | with_reducible assumption
    | exact mask_sub (by decide) hm
    | with_reducible apply State.setF_keeps
    | with_reducible apply State.wr_keeps
    | (intro _)
    | with_reducible apply keeps_ite
    | with_reducible apply keeps_ite_fst
    | (simp only [keeps_mk]; refine keeps_upd ?_ ?_ ?_ ?_ ?_ ?_ ?_ ?_ ?_ ?_ ?_ ?_ ?_ ?_ ?_ ?_ ?_ ?_ ?_ ?_ ?_ ?_ ?_ ?_ ?_ ?_ ?_ ?_ ?_ ?_ ?_ ?_ ?_ ?_ ?_ ?_ ?_ <;> first | exact same_rfl | exact same_bit (by decide) hm | exact id | exact Fuses.Le.refl _ | exact fun _ => TimeVal.ofCount_ns _ | exact fun h => SMap.wf_filter _ h | exact fun _ => SMap.wf_nil _ _ | skip)
    | (with_reducible apply keeps_pair)

theorem State.epoch_keeps {m : Nat} {z s : State} (h0 : Keeps m z s) (hm : 0x4205040910080 &&& m = 0x4205040910080) (obs : List GnsObs) : Keeps m z (State.epoch s obs) := by
  unfold State.epoch
  repeat' first
    | (extract_lets +onlyGivenNames x; refine keeps_cut (m := m) (z := z) (x := x) ?_ (fun hx => ?_); rotate_left; generalize x = y at hx ⊢; clear x; rotate_left; subst x)
    | (extract_lets +onlyGivenNames x; first | (subst x) | skip)
    | with_reducible assumption
    | exact mask_sub (by decide) hm
    | with_reducible apply State.chEpoch_keeps
    | with_reducible apply State.antEpoch_keeps
    | with_reducible apply State.chCount_keeps
    | with_reducible apply State.acqNext_keeps
    | (with_reducible apply keeps_foldl)
    | (intro _ _ _)
    | (intro _)
    | with_reducible apply keeps_ite
    | with_reducible apply keeps_ite_fst
    | (simp only [keeps_mk]; refine keeps_upd ?_ ?_ ?_ ?_ ?_ ?_ ?_ ?_ ?_ ?_ ?_ ?_ ?_ ?_ ?_ ?_ ?_ ?_ ?_ ?_ ?_ ?_ ?_ ?_ ?_ ?_ ?_ ?_ ?_ ?_ ?_ ?_ ?_ ?_ ?_ ?_ ?_ <;> first | exact same_rfl | exact same_bit (by decide) hm | exact id | exact Fuses.Le.refl _ | exact fun _ => TimeVal.ofCount_ns _ | exact fun h => SMap.wf_filter _ h | exact fun _ => SMap.wf_nil _ _ | skip)
    | (split)
    | (with_reducible apply keeps_pair)

theorem State.antFlt_keeps {m : Nat} {z s : State} (h0 : Keeps m z s) (hm : 0x4205000910080 &&& m = 0x4205000910080) (a : Nat) (level : Bool) : Keeps m z (State.antFlt s a level) := by
  unfold State.antFlt
  repeat' first
    | (extract_lets +onlyGivenNames x; refine keeps_cut (m := m) (z := z) (x := x) ?_ (fun hx => ?_); rotate_left; generalize x = y at hx ⊢; clear x; rotate_left; subst x)
    | (extract_lets +onlyGivenNames x; first | (subst x) | skip)
    | with_reducible assumption
    | exact mask_sub (by decide) hm
    | with_reducible apply State.withholdAll_keeps
    | with_reducible refine State.raiseLow_keeps ?_ ?_ (by dsimp only; decide)
    | with_reducible apply State.raise_keeps
    | with_reducible apply State.setB_keeps
    | (intro _)
    | with_reducible apply keeps_ite
    | with_reducible apply keeps_ite_fst
    | (simp only [keeps_mk]; refine keeps_upd ?_ ?_ ?_ ?_ ?_ ?_ ?_ ?_ ?_ ?_ ?_ ?_ ?_ ?_ ?_ ?_ ?_ ?_ ?_ ?_ ?_ ?_ ?_ ?_ ?_ ?_ ?_ ?_ ?_ ?_ ?_ ?_ ?_ ?_ ?_ ?_ ?_ <;> first | exact same_rfl | exact same_bit (by decide) hm | exact id | exact Fuses.Le.refl _ | exact fun _ => TimeVal.ofCount_ns _ | exact fun h => SMap.wf_filter _ h | exact fun _ => SMap.wf_nil _ _ | skip)
    | (with_reducible apply keeps_pair)

theorem State.startCapture_keeps {m : Nat} {z s : State} (h0 : Keeps m z s) (hm : 0x4004000800000 &&& m = 0x4004000800000) (c : Capture) : Keeps m z (State.startCapture s c) := by
  unfold State.startCapture
  repeat' first
    | (extract_lets +onlyGivenNames x; refine keeps_cut (m := m) (z := z) (x := x) ?_ (fun hx => ?_); rotate_left; generalize x = y at hx ⊢; clear x; rotate_left; subst x)
    | (extract_lets +onlyGivenNames x; first | (subst x) | skip)
    | with_reducible assumption
    | exact mask_sub (by decide) hm
    | with_reducible apply State.gnsRange_keeps
    | with_reducible apply State.irqPulse_keeps
    | with_reducible apply State.setPair_keeps
    | with_reducible apply State.setB_keeps
    | with_reducible apply State.setF_keeps
    | with_reducible apply State.wr_keeps
    | (intro _)
    | with_reducible apply keeps_ite
    | (simp only [keeps_mk]; refine keeps_upd ?_ ?_ ?_ ?_ ?_ ?_ ?_ ?_ ?_ ?_ ?_ ?_ ?_ ?_ ?_ ?_ ?_ ?_ ?_ ?_ ?_ ?_ ?_ ?_ ?_ ?_ ?_ ?_ ?_ ?_ ?_ ?_ ?_ ?_ ?_ ?_ ?_ <;> first | exact same_rfl | exact same_bit (by decide) hm | exact id | exact Fuses.Le.refl _ | exact fun _ => TimeVal.ofCount_ns _ | exact fun h => SMap.wf_filter _ h | exact fun _ => SMap.wf_nil _ _ | skip)

theorem State.snapCtl_keeps {m : Nat} {z s : State} (h0 : Keeps m z s) (hm : 0x4000000800000 &&& m = 0x4000000800000) (v : BitVec 32) : Keeps m z (State.snapCtl s v) := by
  unfold State.snapCtl
  repeat' first
    | (extract_lets +onlyGivenNames x; refine keeps_cut (m := m) (z := z) (x := x) ?_ (fun hx => ?_); rotate_left; generalize x = y at hx ⊢; clear x; rotate_left; subst x)
    | (extract_lets +onlyGivenNames x; first | (subst x) | skip)
    | with_reducible assumption
    | exact mask_sub (by decide) hm
    | with_reducible apply State.gnsRange_keeps
    | with_reducible apply State.gnsAccept_keeps
    | with_reducible apply State.count_keeps
    | with_reducible apply State.wrRw_keeps
    | with_reducible apply State.setB_keeps
    | with_reducible apply State.setF_keeps
    | (intro _)
    | with_reducible apply keeps_ite
    | with_reducible apply keeps_ite_fst
    | (simp only [keeps_mk]; refine keeps_upd ?_ ?_ ?_ ?_ ?_ ?_ ?_ ?_ ?_ ?_ ?_ ?_ ?_ ?_ ?_ ?_ ?_ ?_ ?_ ?_ ?_ ?_ ?_ ?_ ?_ ?_ ?_ ?_ ?_ ?_ ?_ ?_ ?_ ?_ ?_ ?_ ?_ <;> first | exact same_rfl | exact same_bit (by decide) hm | exact id | exact Fuses.Le.refl _ | exact fun _ => TimeVal.ofCount_ns _ | exact fun h => SMap.wf_filter _ h | exact fun _ => SMap.wf_nil _ _ | skip)
    | (with_reducible apply keeps_pair)

theorem State.snapStart_keeps {m : Nat} {z s : State} (h0 : Keeps m z s) (hm : 0x4004000800000 &&& m = 0x4004000800000) : Keeps m z (State.snapStart s) := by
  unfold State.snapStart
  repeat' first
    | (extract_lets +onlyGivenNames x; refine keeps_cut (m := m) (z := z) (x := x) ?_ (fun hx => ?_); rotate_left; generalize x = y at hx ⊢; clear x; rotate_left; subst x)
    | (extract_lets +onlyGivenNames x; first | (subst x) | skip)
    | with_reducible assumption
    | exact mask_sub (by decide) hm
    | with_reducible apply State.startCapture_keeps
    | (intro _)
    | with_reducible apply keeps_ite
    | (simp only [keeps_mk]; refine keeps_upd ?_ ?_ ?_ ?_ ?_ ?_ ?_ ?_ ?_ ?_ ?_ ?_ ?_ ?_ ?_ ?_ ?_ ?_ ?_ ?_ ?_ ?_ ?_ ?_ ?_ ?_ ?_ ?_ ?_ ?_ ?_ ?_ ?_ ?_ ?_ ?_ ?_ <;> first | exact same_rfl | exact same_bit (by decide) hm | exact id | exact Fuses.Le.refl _ | exact fun _ => TimeVal.ofCount_ns _ | exact fun h => SMap.wf_filter _ h | exact fun _ => SMap.wf_nil _ _ | skip)
    | (split)

theorem State.snapAction_keeps {m : Nat} {z s : State} (h0 : Keeps m z s) (hm : 0x4004000800000 &&& m = 0x4004000800000) (at_ : TimeVal) : Keeps m z (State.snapAction s at_) := by
  unfold State.snapAction
  repeat' first
    | with_reducible assumption
    | exact mask_sub (by decide) hm
    | with_reducible apply State.startCapture_keeps
    | (intro _)
    | (with_reducible apply keeps_pair)

theorem State.captureEnd_keeps {m : Nat} {z s : State} (h0 : Keeps m z s) (hm : 0x4004000800000 &&& m = 0x4004000800000) (data : List Byte) : Keeps m z (State.captureEnd s data) := by
  unfold State.captureEnd
  repeat' first
    | (extract_lets +onlyGivenNames x; refine keeps_cut (m := m) (z := z) (x := x) ?_ (fun hx => ?_); rotate_left; generalize x = y at hx ⊢; clear x; rotate_left; subst x)
    | (extract_lets +onlyGivenNames x; first | (subst x) | skip)
    | with_reducible assumption
    | exact mask_sub (by decide) hm
    | with_reducible apply State.endCapture_keeps
    | with_reducible apply State.acqNext_keeps
    | with_reducible apply State.setF_keeps
    | (intro _)
    | with_reducible apply keeps_ite
    | with_reducible apply keeps_ite_fst
    | (simp only [keeps_mk]; refine keeps_upd ?_ ?_ ?_ ?_ ?_ ?_ ?_ ?_ ?_ ?_ ?_ ?_ ?_ ?_ ?_ ?_ ?_ ?_ ?_ ?_ ?_ ?_ ?_ ?_ ?_ ?_ ?_ ?_ ?_ ?_ ?_ ?_ ?_ ?_ ?_ ?_ ?_ <;> first | exact same_rfl | exact same_bit (by decide) hm | exact id | exact Fuses.Le.refl _ | exact fun _ => TimeVal.ofCount_ns _ | exact fun h => SMap.wf_filter _ h | exact fun _ => SMap.wf_nil _ _ | skip)
    | (split)
    | (with_reducible apply keeps_pair)

theorem State.auditSchedule_keeps {m : Nat} {z s : State} (h0 : Keeps m z s) (hm : 0x4004000800000 &&& m = 0x4004000800000) : Keeps m z (State.auditSchedule s) := by
  unfold State.auditSchedule
  repeat' first
    | (extract_lets +onlyGivenNames x; refine keeps_cut (m := m) (z := z) (x := x) ?_ (fun hx => ?_); rotate_left; generalize x = y at hx ⊢; clear x; rotate_left; subst x)
    | (extract_lets +onlyGivenNames x; first | (subst x) | skip)
    | with_reducible assumption
    | exact mask_sub (by decide) hm
    | with_reducible apply State.startCapture_keeps
    | (intro _)
    | with_reducible apply keeps_ite
    | with_reducible apply keeps_ite_fst
    | (simp only [keeps_mk]; refine keeps_upd ?_ ?_ ?_ ?_ ?_ ?_ ?_ ?_ ?_ ?_ ?_ ?_ ?_ ?_ ?_ ?_ ?_ ?_ ?_ ?_ ?_ ?_ ?_ ?_ ?_ ?_ ?_ ?_ ?_ ?_ ?_ ?_ ?_ ?_ ?_ ?_ ?_ <;> first | exact same_rfl | exact same_bit (by decide) hm | exact id | exact Fuses.Le.refl _ | exact fun _ => TimeVal.ofCount_ns _ | exact fun h => SMap.wf_filter _ h | exact fun _ => SMap.wf_nil _ _ | skip)
    | (split)
    | (with_reducible apply keeps_pair)

theorem State.auditDone_keeps {m : Nat} {z s : State} (h0 : Keeps m z s) (hm : 0x4205000910080 &&& m = 0x4205000910080) (ds : List AuditDelta) : Keeps m z (State.auditDone s ds) := by
  unfold State.auditDone
  repeat' first
    | (extract_lets +onlyGivenNames x; refine keeps_cut (m := m) (z := z) (x := x) ?_ (fun hx => ?_); rotate_left; generalize x = y at hx ⊢; clear x; rotate_left; subst x)
    | (extract_lets +onlyGivenNames x; first | (subst x) | skip)
    | with_reducible assumption
    | exact mask_sub (by decide) hm
    | with_reducible apply State.withholdAll_keeps
    | with_reducible apply State.acqNext_keeps
    | with_reducible refine State.raiseLow_keeps ?_ ?_ (by dsimp only; decide)
    | with_reducible apply State.raise_keeps
    | with_reducible apply State.irqPulse_keeps
    | with_reducible apply State.setB_keeps
    | with_reducible apply State.setF_keeps
    | (intro _)
    | with_reducible apply keeps_ite
    | with_reducible apply keeps_ite_fst
    | (simp only [keeps_mk]; refine keeps_upd ?_ ?_ ?_ ?_ ?_ ?_ ?_ ?_ ?_ ?_ ?_ ?_ ?_ ?_ ?_ ?_ ?_ ?_ ?_ ?_ ?_ ?_ ?_ ?_ ?_ ?_ ?_ ?_ ?_ ?_ ?_ ?_ ?_ ?_ ?_ ?_ ?_ <;> first | exact same_rfl | exact same_bit (by decide) hm | exact id | exact Fuses.Le.refl _ | exact fun _ => TimeVal.ofCount_ns _ | exact fun h => SMap.wf_filter _ h | exact fun _ => SMap.wf_nil _ _ | skip)
    | (split)
    | (with_reducible apply keeps_pair)

theorem State.floorSet_keeps {m : Nat} {z s : State} (h0 : Keeps m z s) (hm : 0x4000040800000 &&& m = 0x4000040800000) (v : BitVec 64) : Keeps m z (State.floorSet s v) := by
  unfold State.floorSet
  repeat' first
    | (extract_lets +onlyGivenNames x; refine keeps_cut (m := m) (z := z) (x := x) ?_ (fun hx => ?_); rotate_left; generalize x = y at hx ⊢; clear x; rotate_left; subst x)
    | (extract_lets +onlyGivenNames x; first | (subst x) | skip)
    | with_reducible assumption
    | exact mask_sub (by decide) hm
    | with_reducible apply State.cairnReg_keeps
    | with_reducible apply State.setPair_keeps
    | (intro _)
    | (simp only [keeps_mk]; refine keeps_upd ?_ ?_ ?_ ?_ ?_ ?_ ?_ ?_ ?_ ?_ ?_ ?_ ?_ ?_ ?_ ?_ ?_ ?_ ?_ ?_ ?_ ?_ ?_ ?_ ?_ ?_ ?_ ?_ ?_ ?_ ?_ ?_ ?_ ?_ ?_ ?_ ?_ <;> first | exact same_rfl | exact same_bit (by decide) hm | exact id | exact Fuses.Le.refl _ | exact fun _ => TimeVal.ofCount_ns _ | exact fun h => SMap.wf_filter _ h | exact fun _ => SMap.wf_nil _ _ | skip)

theorem State.floorCommit_keeps {m : Nat} {z s : State} (h0 : Keeps m z s) (hm : 0x4000040800000 &&& m = 0x4000040800000) (lo : BitVec 32) : Keeps m z (State.floorCommit s lo) := by
  unfold State.floorCommit
  repeat' first
    | with_reducible assumption
    | exact mask_sub (by decide) hm
    | with_reducible apply State.floorSet_keeps
    | with_reducible apply State.gnsAccept_keeps
    | (intro _)

theorem State.floorDay_keeps {m : Nat} {z s : State} (h0 : Keeps m z s) (hm : 0x800000 &&& m = 0x800000) (day : Nat) : Keeps m z (State.floorDay s day) := by
  unfold State.floorDay
  repeat' first
    | (extract_lets +onlyGivenNames x; refine keeps_cut (m := m) (z := z) (x := x) ?_ (fun hx => ?_); rotate_left; generalize x = y at hx ⊢; clear x; rotate_left; subst x)
    | (extract_lets +onlyGivenNames x; first | (subst x) | skip)
    | with_reducible assumption
    | exact mask_sub (by decide) hm
    | (intro _)
    | (simp only [keeps_mk]; refine keeps_upd ?_ ?_ ?_ ?_ ?_ ?_ ?_ ?_ ?_ ?_ ?_ ?_ ?_ ?_ ?_ ?_ ?_ ?_ ?_ ?_ ?_ ?_ ?_ ?_ ?_ ?_ ?_ ?_ ?_ ?_ ?_ ?_ ?_ ?_ ?_ ?_ ?_ <;> first | exact same_rfl | exact same_bit (by decide) hm | exact id | exact Fuses.Le.refl _ | exact fun _ => TimeVal.ofCount_ns _ | exact fun h => SMap.wf_filter _ h | exact fun _ => SMap.wf_nil _ _ | skip)

theorem State.floorRaise_keeps {m : Nat} {z s : State} (h0 : Keeps m z s) (hm : 0x4000040800000 &&& m = 0x4000040800000) : Keeps m z (State.floorRaise s) := by
  unfold State.floorRaise
  repeat' first
    | (extract_lets +onlyGivenNames x; refine keeps_cut (m := m) (z := z) (x := x) ?_ (fun hx => ?_); rotate_left; generalize x = y at hx ⊢; clear x; rotate_left; subst x)
    | (extract_lets +onlyGivenNames x; first | (subst x) | skip)
    | with_reducible assumption
    | exact mask_sub (by decide) hm
    | with_reducible apply State.floorDay_keeps
    | with_reducible apply State.floorSet_keeps
    | (intro _)
    | with_reducible apply keeps_ite
    | (split)

theorem State.ephCommit_keeps {m : Nat} {z s : State} (h0 : Keeps m z s) (hm : 0x40800000 &&& m = 0x40800000) : Keeps m z (State.ephCommit s) := by
  unfold State.ephCommit
  repeat' first
    | (extract_lets +onlyGivenNames x; refine keeps_cut (m := m) (z := z) (x := x) ?_ (fun hx => ?_); rotate_left; generalize x = y at hx ⊢; clear x; rotate_left; subst x)
    | (extract_lets +onlyGivenNames x; first | (subst x) | skip)
    | with_reducible assumption
    | exact mask_sub (by decide) hm
    | (intro _)
    | with_reducible apply keeps_ite
    | (simp only [keeps_mk]; refine keeps_upd ?_ ?_ ?_ ?_ ?_ ?_ ?_ ?_ ?_ ?_ ?_ ?_ ?_ ?_ ?_ ?_ ?_ ?_ ?_ ?_ ?_ ?_ ?_ ?_ ?_ ?_ ?_ ?_ ?_ ?_ ?_ ?_ ?_ ?_ ?_ ?_ ?_ <;> first | exact same_rfl | exact same_bit (by decide) hm | exact id | exact Fuses.Le.refl _ | exact fun _ => TimeVal.ofCount_ns _ | exact fun h => SMap.wf_filter _ h | exact fun _ => SMap.wf_nil _ _ | skip)

theorem State.antCfg_keeps {m : Nat} {z s : State} (h0 : Keeps m z s) (hm : 0x4000040900000 &&& m = 0x4000040900000) (a : Nat) (v : BitVec 32) : Keeps m z (State.antCfg s a v) := by
  unfold State.antCfg
  repeat' first
    | (extract_lets +onlyGivenNames x; refine keeps_cut (m := m) (z := z) (x := x) ?_ (fun hx => ?_); rotate_left; generalize x = y at hx ⊢; clear x; rotate_left; subst x)
    | (extract_lets +onlyGivenNames x; first | (subst x) | skip)
    | with_reducible assumption
    | exact mask_sub (by decide) hm
    | with_reducible apply State.withholdAll_keeps
    | with_reducible apply State.gnsRange_keeps
    | with_reducible apply State.gnsAccept_keeps
    | with_reducible apply State.dropChannels_keeps
    | with_reducible apply State.acqQueue_keeps
    | with_reducible apply State.acqNext_keeps
    | with_reducible apply State.cairnReg_keeps
    | with_reducible apply State.wrRw_keeps
    | with_reducible apply State.setB_keeps
    | (with_reducible apply keeps_foldl)
    | (intro _ _ _)
    | (intro _)
    | with_reducible apply keeps_ite
    | (simp only [keeps_mk]; refine keeps_upd ?_ ?_ ?_ ?_ ?_ ?_ ?_ ?_ ?_ ?_ ?_ ?_ ?_ ?_ ?_ ?_ ?_ ?_ ?_ ?_ ?_ ?_ ?_ ?_ ?_ ?_ ?_ ?_ ?_ ?_ ?_ ?_ ?_ ?_ ?_ ?_ ?_ <;> first | exact same_rfl | exact same_bit (by decide) hm | exact id | exact Fuses.Le.refl _ | exact fun _ => TimeVal.ofCount_ns _ | exact fun h => SMap.wf_filter _ h | exact fun _ => SMap.wf_nil _ _ | skip)

theorem State.antPos_keeps {m : Nat} {z s : State} {r : Reg} (h0 : Keeps m z s) (hm : 0x4000040800000 &&& m = 0x4000040800000) (hr_bit : r.bit &&& m = r.bit) (a : Nat) (v : BitVec 32) : Keeps m z (State.antPos s r a v) := by
  unfold State.antPos
  repeat' first
    | (extract_lets +onlyGivenNames x; refine keeps_cut (m := m) (z := z) (x := x) ?_ (fun hx => ?_); rotate_left; generalize x = y at hx ⊢; clear x; rotate_left; subst x)
    | (extract_lets +onlyGivenNames x; first | (subst x) | skip)
    | with_reducible assumption
    | exact mask_sub (by decide) hm
    | with_reducible apply State.gnsAccept_keeps
    | with_reducible apply State.cairnReg_keeps
    | with_reducible apply State.setB_keeps
    | with_reducible apply State.wr_keeps
    | (intro _)
    | (simp only [keeps_mk]; refine keeps_upd ?_ ?_ ?_ ?_ ?_ ?_ ?_ ?_ ?_ ?_ ?_ ?_ ?_ ?_ ?_ ?_ ?_ ?_ ?_ ?_ ?_ ?_ ?_ ?_ ?_ ?_ ?_ ?_ ?_ ?_ ?_ ?_ ?_ ?_ ?_ ?_ ?_ <;> first | exact same_rfl | exact same_bit (by decide) hm | exact id | exact Fuses.Le.refl _ | exact fun _ => TimeVal.ofCount_ns _ | exact fun h => SMap.wf_filter _ h | exact fun _ => SMap.wf_nil _ _ | skip)

theorem State.gnsPlain_keeps {m : Nat} {z s : State} {r : Reg} (h0 : Keeps m z s) (hm : 0x4000000000000 &&& m = 0x4000000000000) (hr_bit : r.bit &&& m = r.bit) (n : Nat) (v : BitVec 32) (ok : Bool) : Keeps m z (State.gnsPlain s r n v ok) := by
  unfold State.gnsPlain
  repeat' first
    | with_reducible assumption
    | exact mask_sub (by decide) hm
    | with_reducible apply State.gnsRange_keeps
    | with_reducible apply State.gnsAccept_keeps
    | with_reducible apply State.wrRw_keeps
    | (intro _)
    | with_reducible apply keeps_ite

theorem State.acqCtl_keeps {m : Nat} {z s : State} (h0 : Keeps m z s) (hm : 0x4004000800000 &&& m = 0x4004000800000) (v : BitVec 32) : Keeps m z (State.acqCtl s v) := by
  unfold State.acqCtl
  repeat' first
    | (extract_lets +onlyGivenNames x; refine keeps_cut (m := m) (z := z) (x := x) ?_ (fun hx => ?_); rotate_left; generalize x = y at hx ⊢; clear x; rotate_left; subst x)
    | (extract_lets +onlyGivenNames x; first | (subst x) | skip)
    | with_reducible assumption
    | exact mask_sub (by decide) hm
    | with_reducible apply State.gnsRange_keeps
    | with_reducible apply State.gnsAccept_keeps
    | with_reducible apply State.acqAbort_keeps
    | with_reducible apply State.acqNext_keeps
    | with_reducible apply State.wrRw_keeps
    | (intro _)
    | with_reducible apply keeps_ite

theorem State.gnsWrite_keeps {m : Nat} {z s : State} {r : Reg} (h0 : Keeps m z s) (hm : 0x4004040900000 &&& m = 0x4004040900000) (hr_bit : r.bit &&& m = r.bit) (n : Nat) (v : BitVec 32) : Keeps m z (State.gnsWrite s r n v) := by
  unfold State.gnsWrite
  repeat' first
    | (extract_lets +onlyGivenNames x; refine keeps_cut (m := m) (z := z) (x := x) ?_ (fun hx => ?_); rotate_left; generalize x = y at hx ⊢; clear x; rotate_left; subst x)
    | (extract_lets +onlyGivenNames x; first | (subst x) | skip)
    | with_reducible assumption
    | exact mask_sub (by decide) hm
    | with_reducible apply State.acqCtl_keeps
    | with_reducible apply State.gnsPlain_keeps
    | with_reducible apply State.antPos_keeps
    | with_reducible apply State.antCfg_keeps
    | with_reducible apply State.floorCommit_keeps
    | with_reducible apply State.snapCtl_keeps
    | with_reducible apply State.ctlCmd_keeps
    | with_reducible apply State.spCfg_keeps
    | with_reducible apply State.gnsAccept_keeps
    | with_reducible apply State.w1c_keeps
    | (intro _)
    | with_reducible apply keeps_ite
    | (simp only [keeps_mk]; refine keeps_upd ?_ ?_ ?_ ?_ ?_ ?_ ?_ ?_ ?_ ?_ ?_ ?_ ?_ ?_ ?_ ?_ ?_ ?_ ?_ ?_ ?_ ?_ ?_ ?_ ?_ ?_ ?_ ?_ ?_ ?_ ?_ ?_ ?_ ?_ ?_ ?_ ?_ <;> first | exact same_rfl | exact same_bit (by decide) hm | exact id | exact Fuses.Le.refl _ | exact fun _ => TimeVal.ofCount_ns _ | exact fun h => SMap.wf_filter _ h | exact fun _ => SMap.wf_nil _ _ | skip)

/-! ### Machine/PrtOps.lean -/

theorem State.setPort_keeps {m : Nat} {z s : State} (h0 : Keeps m z s) (hm : 0x1000000 &&& m = 0x1000000) (n : Nat) (p : Port) : Keeps m z (State.setPort s n p) := by
  unfold State.setPort
  repeat' first
    | (extract_lets +onlyGivenNames x; refine keeps_cut (m := m) (z := z) (x := x) ?_ (fun hx => ?_); rotate_left; generalize x = y at hx ⊢; clear x; rotate_left; subst x)
    | (extract_lets +onlyGivenNames x; first | (subst x) | skip)
    | with_reducible assumption
    | exact mask_sub (by decide) hm
    | (intro _)
    | (simp only [keeps_mk]; refine keeps_upd ?_ ?_ ?_ ?_ ?_ ?_ ?_ ?_ ?_ ?_ ?_ ?_ ?_ ?_ ?_ ?_ ?_ ?_ ?_ ?_ ?_ ?_ ?_ ?_ ?_ ?_ ?_ ?_ ?_ ?_ ?_ ?_ ?_ ?_ ?_ ?_ ?_ <;> first | exact same_rfl | exact same_bit (by decide) hm | exact id | exact Fuses.Le.refl _ | exact fun _ => TimeVal.ofCount_ns _ | exact fun h => SMap.wf_filter _ h | exact fun _ => SMap.wf_nil _ _ | skip)

theorem State.showAuto_keeps {m : Nat} {z s : State} (h0 : Keeps m z s) (hm : 0x8000000000000 &&& m = 0x8000000000000) (n : Nat) : Keeps m z (State.showAuto s n) := by
  unfold State.showAuto
  repeat' first
    | (extract_lets +onlyGivenNames x; refine keeps_cut (m := m) (z := z) (x := x) ?_ (fun hx => ?_); rotate_left; generalize x = y at hx ⊢; clear x; rotate_left; subst x)
    | (extract_lets +onlyGivenNames x; first | (subst x) | skip)
    | with_reducible assumption
    | exact mask_sub (by decide) hm
    | with_reducible apply State.setF_keeps
    | (intro _)
    | with_reducible apply keeps_ite

theorem State.prtEvent_keeps {m : Nat} {z s : State} (h0 : Keeps m z s) (hm : 0x4000000000 &&& m = 0x4000000000) (n : Nat) : Keeps m z (State.prtEvent s n) := by
  unfold State.prtEvent
  repeat' first
    | with_reducible assumption
    | exact mask_sub (by decide) hm
    | with_reducible apply State.irqPulse_keeps
    | (intro _)

theorem State.setCal_keeps {m : Nat} {z s : State} (h0 : Keeps m z s) (hm : 0x8004000000000 &&& m = 0x8004000000000) (n cal : Nat) : Keeps m z (State.setCal s n cal) := by
  unfold State.setCal
  repeat' first
    | with_reducible assumption
    | exact mask_sub (by decide) hm
    | with_reducible apply State.prtEvent_keeps
    | with_reducible apply State.setF_keeps
    | (intro _)
    | with_reducible apply keeps_ite

theorem State.allocFrame_keeps {m : Nat} {z s : State} (h0 : Keeps m z s) (hm : 0x1000400 &&& m = 0x1000400) {c len : Nat} {f : Frame} {r : Nat × State} (e0 : State.allocFrame s c len f = some r) : Keeps m z r.2 := by
  unfold State.allocFrame at e0
  revert e0
  repeat' first
    | (extract_lets +onlyGivenNames x; refine keeps_cut (m := m) (z := z) (x := x) ?_ (fun hx => ?_); rotate_left; generalize x = y at hx ⊢; clear x; rotate_left; subst x)
    | (extract_lets +onlyGivenNames x; first | (subst x) | skip)
    | with_reducible assumption
    | exact mask_sub (by decide) hm
    | with_reducible apply State.setFrame_keeps
    | (split)
    | (intro e0; cases e0; first | done | dsimp only | skip)
    | (simp only [keeps_mk]; refine keeps_upd ?_ ?_ ?_ ?_ ?_ ?_ ?_ ?_ ?_ ?_ ?_ ?_ ?_ ?_ ?_ ?_ ?_ ?_ ?_ ?_ ?_ ?_ ?_ ?_ ?_ ?_ ?_ ?_ ?_ ?_ ?_ ?_ ?_ ?_ ?_ ?_ ?_ <;> first | exact same_rfl | exact same_bit (by decide) hm | exact id | exact Fuses.Le.refl _ | exact fun _ => TimeVal.ofCount_ns _ | exact fun h => SMap.wf_filter _ h | exact fun _ => SMap.wf_nil _ _ | skip)
    | (with_reducible apply keeps_pair)

theorem State.sentFrame_keeps {m : Nat} {z s : State} (h0 : Keeps m z s) (hm : 0x1000400 &&& m = 0x1000400) (h port : Nat) (dep : Option TimeVal) : Keeps m z (State.sentFrame s h port dep) := by
  unfold State.sentFrame
  repeat' first
    | (extract_lets +onlyGivenNames x; refine keeps_cut (m := m) (z := z) (x := x) ?_ (fun hx => ?_); rotate_left; generalize x = y at hx ⊢; clear x; rotate_left; subst x)
    | (extract_lets +onlyGivenNames x; first | (subst x) | skip)
    | with_reducible assumption
    | exact mask_sub (by decide) hm
    | with_reducible apply State.freeFrame_keeps
    | (intro _)
    | (simp only [keeps_mk]; refine keeps_upd ?_ ?_ ?_ ?_ ?_ ?_ ?_ ?_ ?_ ?_ ?_ ?_ ?_ ?_ ?_ ?_ ?_ ?_ ?_ ?_ ?_ ?_ ?_ ?_ ?_ ?_ ?_ ?_ ?_ ?_ ?_ ?_ ?_ ?_ ?_ ?_ ?_ <;> first | exact same_rfl | exact same_bit (by decide) hm | exact id | exact Fuses.Le.refl _ | exact fun _ => TimeVal.ofCount_ns _ | exact fun h => SMap.wf_filter _ h | exact fun _ => SMap.wf_nil _ _ | skip)
    | (with_reducible apply keeps_pair)

theorem State.rxPop_keeps {m : Nat} {z s : State} (h0 : Keeps m z s) (hm : 0x1000000 &&& m = 0x1000000) (n : Nat) : Keeps m z (State.rxPop s n) := by
  unfold State.rxPop
  repeat' first
    | (extract_lets +onlyGivenNames x; refine keeps_cut (m := m) (z := z) (x := x) ?_ (fun hx => ?_); rotate_left; generalize x = y at hx ⊢; clear x; rotate_left; subst x)
    | (extract_lets +onlyGivenNames x; first | (subst x) | skip)
    | with_reducible assumption
    | exact mask_sub (by decide) hm
    | with_reducible apply State.setPort_keeps
    | (intro _)

theorem State.rxDrain_keeps {m : Nat} {z : State} (n fuel : Nat) : ∀ {s : State}, Keeps m z s → 0x68204109024582 &&& m = 0x68204109024582 →
    Keeps m z (s.rxDrain n fuel) := by
  induction fuel with
  | zero => intro s h _; exact h
  | succ k ih =>
    intro s h0 hm
    unfold State.rxDrain
    repeat' first
      | (extract_lets +onlyGivenNames x; refine keeps_cut (m := m) (z := z) (x := x) ?_ (fun hx => ?_); rotate_left; generalize x = y at hx ⊢; clear x; rotate_left; subst x)
      | (extract_lets +onlyGivenNames x; first | (subst x) | skip)
      | with_reducible assumption
      | exact mask_sub (by decide) hm
      | with_reducible apply ih
      | with_reducible apply State.bump_keeps
      | with_reducible apply State.rxPop_keeps
      | with_reducible apply State.notify_keeps
      | with_reducible apply State.pmcCluster_keeps
      | with_reducible apply State.storeMem_keeps
      | with_reducible refine State.allocFrame_keeps (r := (_, _)) ?_ ?_ (by assumption)
      | with_reducible apply keeps_ite
      | (split)

theorem State.frameIn_keeps {m : Nat} {z s : State} (h0 : Keeps m z s) (hm : 0x68204109024582 &&& m = 0x68204109024582) (n : Nat) (data : List Byte) (codeErr : Bool) (at_ trx : TimeVal) : Keeps m z (State.frameIn s n data codeErr at_ trx) := by
  unfold State.frameIn
  repeat' first
    | (extract_lets +onlyGivenNames x; refine keeps_cut (m := m) (z := z) (x := x) ?_ (fun hx => ?_); rotate_left; generalize x = y at hx ⊢; clear x; rotate_left; subst x)
    | (extract_lets +onlyGivenNames x; first | (subst x) | skip)
    | with_reducible assumption
    | exact mask_sub (by decide) hm
    | with_reducible apply State.rxDrain_keeps
    | with_reducible apply State.setPort_keeps
    | with_reducible apply State.bump_keeps
    | (intro _)
    | with_reducible apply keeps_ite
    | with_reducible apply keeps_ite_fst
    | (split)
    | (with_reducible apply keeps_pair)

theorem State.showPause_keeps {m : Nat} {z s : State} (h0 : Keeps m z s) (hm : 0x8000000000000 &&& m = 0x8000000000000) (n : Nat) : Keeps m z (State.showPause s n) := by
  unfold State.showPause
  repeat' first
    | (extract_lets +onlyGivenNames x; refine keeps_cut (m := m) (z := z) (x := x) ?_ (fun hx => ?_); rotate_left; generalize x = y at hx ⊢; clear x; rotate_left; subst x)
    | (extract_lets +onlyGivenNames x; first | (subst x) | skip)
    | with_reducible assumption
    | exact mask_sub (by decide) hm
    | (dsimp only; exact mask_sub (by decide) hm)
    | with_reducible apply State.setF_keeps
    | with_reducible apply State.wr_keeps
    | (with_reducible apply keeps_foldl)
    | (intro _ _ _)
    | (intro _)
    | (split)
    | (with_reducible apply keeps_pair)

theorem State.pauseTake_keeps {m : Nat} {z s : State} (h0 : Keeps m z s) (hm : 0x8000001000000 &&& m = 0x8000001000000) (n : Nat) : Keeps m z (State.pauseTake s n) := by
  unfold State.pauseTake
  repeat' first
    | (extract_lets +onlyGivenNames x; refine keeps_cut (m := m) (z := z) (x := x) ?_ (fun hx => ?_); rotate_left; generalize x = y at hx ⊢; clear x; rotate_left; subst x)
    | (extract_lets +onlyGivenNames x; first | (subst x) | skip)
    | with_reducible assumption
    | exact mask_sub (by decide) hm
    | with_reducible apply State.showPause_keeps
    | with_reducible apply State.setPort_keeps
    | with_reducible apply State.count_keeps
    | (with_reducible apply keeps_foldl)
    | (intro _ _ _)
    | (intro _)
    | with_reducible apply keeps_ite
    | (split)

theorem State.pauseEnd_keeps {m : Nat} {z s : State} (h0 : Keeps m z s) (hm : 0x8000001000000 &&& m = 0x8000001000000) (n : Nat) : Keeps m z (State.pauseEnd s n) := by
  unfold State.pauseEnd
  repeat' first
    | (extract_lets +onlyGivenNames x; refine keeps_cut (m := m) (z := z) (x := x) ?_ (fun hx => ?_); rotate_left; generalize x = y at hx ⊢; clear x; rotate_left; subst x)
    | (extract_lets +onlyGivenNames x; first | (subst x) | skip)
    | with_reducible assumption
    | exact mask_sub (by decide) hm
    | with_reducible apply State.showPause_keeps
    | with_reducible apply State.setPort_keeps
    | with_reducible apply State.count_keeps
    | (with_reducible apply keeps_foldl)
    | (intro _ _ _)
    | (intro _)
    | with_reducible apply keeps_ite
    | with_reducible apply keeps_ite_fst
    | (with_reducible apply keeps_pair)

theorem State.takeToken_keeps {m : Nat} {z s : State} (h0 : Keeps m z s) (hm : 0x10000 &&& m = 0x10000) (i : Nat) : Keeps m z (State.takeToken s i) := by
  unfold State.takeToken
  repeat' first
    | (extract_lets +onlyGivenNames x; refine keeps_cut (m := m) (z := z) (x := x) ?_ (fun hx => ?_); rotate_left; generalize x = y at hx ⊢; clear x; rotate_left; subst x)
    | (extract_lets +onlyGivenNames x; first | (subst x) | skip)
    | with_reducible assumption
    | exact mask_sub (by decide) hm
    | (intro _)
    | (simp only [keeps_mk]; refine keeps_upd ?_ ?_ ?_ ?_ ?_ ?_ ?_ ?_ ?_ ?_ ?_ ?_ ?_ ?_ ?_ ?_ ?_ ?_ ?_ ?_ ?_ ?_ ?_ ?_ ?_ ?_ ?_ ?_ ?_ ?_ ?_ ?_ ?_ ?_ ?_ ?_ ?_ <;> first | exact same_rfl | exact same_bit (by decide) hm | exact id | exact Fuses.Le.refl _ | exact fun _ => TimeVal.ofCount_ns _ | exact fun h => SMap.wf_filter _ h | exact fun _ => SMap.wf_nil _ _ | skip)
    | (with_reducible apply keeps_pair)

theorem State.refill_keeps {m : Nat} {z s : State} (h0 : Keeps m z s) (hm : 0x10000 &&& m = 0x10000) (i : Nat) : Keeps m z (State.refill s i) := by
  unfold State.refill
  repeat' first
    | (extract_lets +onlyGivenNames x; refine keeps_cut (m := m) (z := z) (x := x) ?_ (fun hx => ?_); rotate_left; generalize x = y at hx ⊢; clear x; rotate_left; subst x)
    | (extract_lets +onlyGivenNames x; first | (subst x) | skip)
    | with_reducible assumption
    | exact mask_sub (by decide) hm
    | (intro _)
    | (simp only [keeps_mk]; refine keeps_upd ?_ ?_ ?_ ?_ ?_ ?_ ?_ ?_ ?_ ?_ ?_ ?_ ?_ ?_ ?_ ?_ ?_ ?_ ?_ ?_ ?_ ?_ ?_ ?_ ?_ ?_ ?_ ?_ ?_ ?_ ?_ ?_ ?_ ?_ ?_ ?_ ?_ <;> first | exact same_rfl | exact same_bit (by decide) hm | exact id | exact Fuses.Le.refl _ | exact fun _ => TimeVal.ofCount_ns _ | exact fun h => SMap.wf_filter _ h | exact fun _ => SMap.wf_nil _ _ | skip)

theorem State.txDrop_keeps {m : Nat} {z s : State} (h0 : Keeps m z s) (hm : 0x48204109004580 &&& m = 0x48204109004580) (n : Nat) (frame : Nat) (notify : Option Nat) : Keeps m z (State.txDrop s n frame notify) := by
  unfold State.txDrop
  repeat' first
    | (extract_lets +onlyGivenNames x; refine keeps_cut (m := m) (z := z) (x := x) ?_ (fun hx => ?_); rotate_left; generalize x = y at hx ⊢; clear x; rotate_left; subst x)
    | (extract_lets +onlyGivenNames x; first | (subst x) | skip)
    | with_reducible assumption
    | exact mask_sub (by decide) hm
    | with_reducible apply State.sentFrame_keeps
    | with_reducible apply State.unreserve_keeps
    | with_reducible apply State.notify_keeps
    | with_reducible apply State.bump_keeps
    | (intro _)
    | (split)

theorem State.returnLaunch_keeps {m : Nat} {z s : State} (h0 : Keeps m z s) (hm : 0x40204108004580 &&& m = 0x40204108004580) (l : Launch) (st : Status) : Keeps m z (State.returnLaunch s l st) := by
  unfold State.returnLaunch
  repeat' first
    | (extract_lets +onlyGivenNames x; refine keeps_cut (m := m) (z := z) (x := x) ?_ (fun hx => ?_); rotate_left; generalize x = y at hx ⊢; clear x; rotate_left; subst x)
    | (extract_lets +onlyGivenNames x; first | (subst x) | skip)
    | with_reducible assumption
    | exact mask_sub (by decide) hm
    | with_reducible apply State.setFrame_keeps
    | with_reducible apply State.notify_keeps
    | (intro _)
    | (split)
    | (with_reducible apply keeps_pair)

theorem State.portDown_keeps {m : Nat} {z s : State} (h0 : Keeps m z s) (hm : 0x48204109004D80 &&& m = 0x48204109004D80) (n : Nat) (cut : Bool) : Keeps m z (State.portDown s n cut) := by
  unfold State.portDown
  repeat' first
    | (extract_lets +onlyGivenNames x; refine keeps_cut (m := m) (z := z) (x := x) ?_ (fun hx => ?_); rotate_left; generalize x = y at hx ⊢; clear x; rotate_left; subst x)
    | (extract_lets +onlyGivenNames x; first | (subst x) | skip)
    | with_reducible assumption
    | exact mask_sub (by decide) hm
    | with_reducible apply State.returnLaunch_keeps
    | with_reducible apply State.txDrop_keeps
    | with_reducible apply State.prtEvent_keeps
    | with_reducible apply State.showAuto_keeps
    | with_reducible apply State.setPort_keeps
    | with_reducible apply State.notify_keeps
    | with_reducible apply State.setB_keeps
    | with_reducible apply State.wr_keeps
    | (with_reducible apply keeps_foldl)
    | (intro _ _ _)
    | (intro _)
    | with_reducible apply keeps_ite
    | with_reducible apply keeps_ite_fst
    | (simp only [keeps_mk]; refine keeps_upd ?_ ?_ ?_ ?_ ?_ ?_ ?_ ?_ ?_ ?_ ?_ ?_ ?_ ?_ ?_ ?_ ?_ ?_ ?_ ?_ ?_ ?_ ?_ ?_ ?_ ?_ ?_ ?_ ?_ ?_ ?_ ?_ ?_ ?_ ?_ ?_ ?_ <;> first | exact same_rfl | exact same_bit (by decide) hm | exact id | exact Fuses.Le.refl _ | exact fun _ => TimeVal.ofCount_ns _ | exact fun h => SMap.wf_filter _ h | exact fun _ => SMap.wf_nil _ _ | skip)
    | (split)
    | (with_reducible apply keeps_pair)

theorem State.portStart_keeps {m : Nat} {z s : State} (h0 : Keeps m z s) (hm : 0x48204109004D80 &&& m = 0x48204109004D80) (n : Nat) : Keeps m z (State.portStart s n) := by
  unfold State.portStart
  repeat' first
    | with_reducible assumption
    | exact mask_sub (by decide) hm
    | with_reducible apply State.portDown_keeps
    | with_reducible apply State.setCal_keeps
    | (intro _)
    | with_reducible apply keeps_ite

theorem State.portIdle_keeps {m : Nat} {z s : State} (h0 : Keeps m z s) (hm : 0x48204109004D80 &&& m = 0x48204109004D80) (n : Nat) : Keeps m z (State.portIdle s n) := by
  unfold State.portIdle
  repeat' first
    | (extract_lets +onlyGivenNames x; refine keeps_cut (m := m) (z := z) (x := x) ?_ (fun hx => ?_); rotate_left; generalize x = y at hx ⊢; clear x; rotate_left; subst x)
    | (extract_lets +onlyGivenNames x; first | (subst x) | skip)
    | with_reducible assumption
    | exact mask_sub (by decide) hm
    | with_reducible apply State.portDown_keeps
    | with_reducible apply State.setCal_keeps
    | (intro _)
    | with_reducible apply keeps_ite

theorem State.enqueue_keeps {m : Nat} {z s : State} (h0 : Keeps m z s) (hm : 0x40204109004180 &&& m = 0x40204109004180) (n frame queue : Nat) (notify : Option Nat) : Keeps m z (State.enqueue s n frame queue notify) := by
  unfold State.enqueue
  repeat' first
    | (extract_lets +onlyGivenNames x; refine keeps_cut (m := m) (z := z) (x := x) ?_ (fun hx => ?_); rotate_left; generalize x = y at hx ⊢; clear x; rotate_left; subst x)
    | (extract_lets +onlyGivenNames x; first | (subst x) | skip)
    | with_reducible assumption
    | exact mask_sub (by decide) hm
    | with_reducible apply State.setPort_keeps
    | with_reducible apply State.notify_keeps
    | (intro _)
    | with_reducible apply keeps_ite
    | with_reducible apply keeps_ite_fst
    | (with_reducible apply keeps_pair)

theorem State.beginFrame_keeps {m : Nat} {z s : State} (h0 : Keeps m z s) (hm : 0x48204109004180 &&& m = 0x48204109004180) (n k frame : Nat) (launch : Option Launch) (notify : Option Nat) : Keeps m z (State.beginFrame s n k frame launch notify) := by
  unfold State.beginFrame
  repeat' first
    | (extract_lets +onlyGivenNames x; refine keeps_cut (m := m) (z := z) (x := x) ?_ (fun hx => ?_); rotate_left; generalize x = y at hx ⊢; clear x; rotate_left; subst x)
    | (extract_lets +onlyGivenNames x; first | (subst x) | skip)
    | with_reducible assumption
    | exact mask_sub (by decide) hm
    | (dsimp only; exact mask_sub (by decide) hm)
    | with_reducible apply State.setPort_keeps
    | with_reducible apply State.notify_keeps
    | with_reducible apply State.bump_keeps
    | (intro _)
    | with_reducible apply keeps_ite
    | with_reducible apply keeps_ite_fst
    | (split)
    | (with_reducible apply keeps_pair)

theorem State.txStart_keeps {m : Nat} {z s : State} (h0 : Keeps m z s) (hm : 0x48204109004180 &&& m = 0x48204109004180) (n : Nat) : Keeps m z (State.txStart s n) := by
  unfold State.txStart
  repeat' first
    | (extract_lets +onlyGivenNames x; refine keeps_cut (m := m) (z := z) (x := x) ?_ (fun hx => ?_); rotate_left; generalize x = y at hx ⊢; clear x; rotate_left; subst x)
    | (extract_lets +onlyGivenNames x; first | (subst x) | skip)
    | with_reducible assumption
    | exact mask_sub (by decide) hm
    | with_reducible apply State.beginFrame_keeps
    | with_reducible apply State.setPort_keeps
    | with_reducible apply State.notify_keeps
    | with_reducible apply State.count_keeps
    | with_reducible apply State.bump_keeps
    | (intro _)
    | with_reducible apply keeps_ite
    | with_reducible apply keeps_ite_fst
    | (split)
    | (with_reducible apply keeps_pair)

theorem State.txEnd_keeps {m : Nat} {z s : State} (h0 : Keeps m z s) (hm : 0x48204109004580 &&& m = 0x48204109004580) (n : Nat) : Keeps m z (State.txEnd s n) := by
  unfold State.txEnd
  repeat' first
    | (extract_lets +onlyGivenNames x; refine keeps_cut (m := m) (z := z) (x := x) ?_ (fun hx => ?_); rotate_left; generalize x = y at hx ⊢; clear x; rotate_left; subst x)
    | (extract_lets +onlyGivenNames x; first | (subst x) | skip)
    | with_reducible assumption
    | exact mask_sub (by decide) hm
    | with_reducible apply State.sentFrame_keeps
    | with_reducible apply State.setPort_keeps
    | with_reducible apply State.unreserve_keeps
    | with_reducible apply State.notify_keeps
    | with_reducible apply State.count_keeps
    | with_reducible apply State.pmcCluster_keeps
    | with_reducible apply State.bump_keeps
    | (intro _)
    | with_reducible apply keeps_ite
    | (split)

theorem State.launchMissed_keeps {m : Nat} {z s : State} (h0 : Keeps m z s) (hm : 0x8000000000000 &&& m = 0x8000000000000) (n : Nat) (st : Status) : Keeps m z (State.launchMissed s n st) := by
  unfold State.launchMissed
  repeat' first
    | with_reducible assumption
    | exact mask_sub (by decide) hm
    | with_reducible apply State.bump_keeps
    | (intro _)
    | with_reducible apply keeps_ite

theorem State.launchDecide_keeps {m : Nat} {z s : State} (h0 : Keeps m z s) (hm : 0x48204109004D80 &&& m = 0x48204109004D80) (n : Nat) : Keeps m z (State.launchDecide s n) := by
  unfold State.launchDecide
  repeat' first
    | (extract_lets +onlyGivenNames x; refine keeps_cut (m := m) (z := z) (x := x) ?_ (fun hx => ?_); rotate_left; generalize x = y at hx ⊢; clear x; rotate_left; subst x)
    | (extract_lets +onlyGivenNames x; first | (subst x) | skip)
    | with_reducible assumption
    | exact mask_sub (by decide) hm
    | with_reducible apply State.launchMissed_keeps
    | with_reducible apply State.beginFrame_keeps
    | with_reducible apply State.returnLaunch_keeps
    | with_reducible apply State.setPort_keeps
    | with_reducible apply State.count_keeps
    | with_reducible apply State.freeSlot_keeps
    | with_reducible apply State.bump_keeps
    | (intro _)
    | with_reducible apply keeps_ite
    | (simp only [keeps_mk]; refine keeps_upd ?_ ?_ ?_ ?_ ?_ ?_ ?_ ?_ ?_ ?_ ?_ ?_ ?_ ?_ ?_ ?_ ?_ ?_ ?_ ?_ ?_ ?_ ?_ ?_ ?_ ?_ ?_ ?_ ?_ ?_ ?_ ?_ ?_ ?_ ?_ ?_ ?_ <;> first | exact same_rfl | exact same_bit (by decide) hm | exact id | exact Fuses.Le.refl _ | exact fun _ => TimeVal.ofCount_ns _ | exact fun h => SMap.wf_filter _ h | exact fun _ => SMap.wf_nil _ _ | skip)
    | (split)

theorem State.portSend_keeps {m : Nat} {z s : State} (h0 : Keeps m z s) (hm : 0x68215109014580 &&& m = 0x68215109014580) (th h port queue : Nat) (sentTs : Bool) (insn : BitVec 32) : Keeps m z (State.portSend s th h port queue sentTs insn).1 := by
  unfold State.portSend
  repeat' first
    | (extract_lets +onlyGivenNames x; refine keeps_cut (m := m) (z := z) (x := x) ?_ (fun hx => ?_); rotate_left; generalize x = y at hx ⊢; clear x; rotate_left; subst x)
    | (extract_lets +onlyGivenNames x; first | (subst x) | skip)
    | with_reducible assumption
    | exact mask_sub (by decide) hm
    | with_reducible apply State.enqueue_keeps
    | with_reducible apply State.takeToken_keeps
    | with_reducible apply State.sentFrame_keeps
    | with_reducible apply State.violation_keeps
    | with_reducible apply State.setFrame_keeps
    | with_reducible apply State.setThread_keeps
    | with_reducible apply State.bump_keeps
    | (intro _)
    | with_reducible apply keeps_ite
    | with_reducible apply keeps_ite_fst
    | (split)
    | (with_reducible apply keeps_pair)

theorem State.launchSend_keeps {m : Nat} {z s : State} (h0 : Keeps m z s) (hm : 0x60215108014C80 &&& m = 0x60215108014C80) (th h slot port : Nat) (tx : TimeVal) (insn : BitVec 32) : Keeps m z (State.launchSend s th h slot port tx insn).1 := by
  unfold State.launchSend
  repeat' first
    | (extract_lets +onlyGivenNames x; refine keeps_cut (m := m) (z := z) (x := x) ?_ (fun hx => ?_); rotate_left; generalize x = y at hx ⊢; clear x; rotate_left; subst x)
    | (extract_lets +onlyGivenNames x; first | (subst x) | skip)
    | with_reducible assumption
    | exact mask_sub (by decide) hm
    | with_reducible apply State.takeToken_keeps
    | with_reducible apply State.violation_keeps
    | with_reducible apply State.setFrame_keeps
    | with_reducible apply State.count_keeps
    | with_reducible apply State.armSlot_keeps
    | (intro _)
    | with_reducible apply keeps_ite
    | with_reducible apply keeps_ite_fst
    | (simp only [keeps_mk]; refine keeps_upd ?_ ?_ ?_ ?_ ?_ ?_ ?_ ?_ ?_ ?_ ?_ ?_ ?_ ?_ ?_ ?_ ?_ ?_ ?_ ?_ ?_ ?_ ?_ ?_ ?_ ?_ ?_ ?_ ?_ ?_ ?_ ?_ ?_ ?_ ?_ ?_ ?_ <;> first | exact same_rfl | exact same_bit (by decide) hm | exact id | exact Fuses.Le.refl _ | exact fun _ => TimeVal.ofCount_ns _ | exact fun h => SMap.wf_filter _ h | exact fun _ => SMap.wf_nil _ _ | skip)
    | (split)
    | (with_reducible apply keeps_pair)

theorem State.cancelLaunch_keeps {m : Nat} {z s : State} (h0 : Keeps m z s) (hm : 0x200000000C80 &&& m = 0x200000000C80) (l : Launch) : Keeps m z (State.cancelLaunch s l) := by
  unfold State.cancelLaunch
  repeat' first
    | (extract_lets +onlyGivenNames x; refine keeps_cut (m := m) (z := z) (x := x) ?_ (fun hx => ?_); rotate_left; generalize x = y at hx ⊢; clear x; rotate_left; subst x)
    | (extract_lets +onlyGivenNames x; first | (subst x) | skip)
    | with_reducible assumption
    | exact mask_sub (by decide) hm
    | with_reducible apply State.dropLaunch_keeps
    | with_reducible apply State.setFrame_keeps
    | (intro _)
    | (split)
    | (with_reducible apply keeps_pair)

theorem State.calTemp_keeps {m : Nat} {z s : State} (h0 : Keeps m z s) (hm : 0x8205000010080 &&& m = 0x8205000010080) (n : Nat) : Keeps m z (State.calTemp s n) := by
  unfold State.calTemp
  repeat' first
    | (extract_lets +onlyGivenNames x; refine keeps_cut (m := m) (z := z) (x := x) ?_ (fun hx => ?_); rotate_left; generalize x = y at hx ⊢; clear x; rotate_left; subst x)
    | (extract_lets +onlyGivenNames x; first | (subst x) | skip)
    | with_reducible assumption
    | exact mask_sub (by decide) hm
    | with_reducible refine State.raiseLow_keeps ?_ ?_ (by dsimp only; decide)
    | with_reducible apply State.raise_keeps
    | with_reducible apply State.setB_keeps
    | (intro _)
    | with_reducible apply keeps_ite
    | with_reducible apply keeps_ite_fst
    | (with_reducible apply keeps_pair)

theorem State.portCalEnd_keeps {m : Nat} {z s : State} (h0 : Keeps m z s) (hm : 0x8205041010080 &&& m = 0x8205041010080) (n span tx rx : Nat) : Keeps m z (State.portCalEnd s n span tx rx) := by
  unfold State.portCalEnd
  repeat' first
    | (extract_lets +onlyGivenNames x; refine keeps_cut (m := m) (z := z) (x := x) ?_ (fun hx => ?_); rotate_left; generalize x = y at hx ⊢; clear x; rotate_left; subst x)
    | (extract_lets +onlyGivenNames x; first | (subst x) | skip)
    | with_reducible assumption
    | exact mask_sub (by decide) hm
    | with_reducible apply State.setCal_keeps
    | with_reducible apply State.setPort_keeps
    | with_reducible refine State.raiseLow_keeps ?_ ?_ (by dsimp only; decide)
    | with_reducible apply State.raise_keeps
    | with_reducible apply State.setB_keeps
    | with_reducible apply State.setF_keeps
    | with_reducible apply State.wr_keeps
    | (intro _)
    | with_reducible apply keeps_ite
    | with_reducible apply keeps_ite_fst
    | (simp only [keeps_mk]; refine keeps_upd ?_ ?_ ?_ ?_ ?_ ?_ ?_ ?_ ?_ ?_ ?_ ?_ ?_ ?_ ?_ ?_ ?_ ?_ ?_ ?_ ?_ ?_ ?_ ?_ ?_ ?_ ?_ ?_ ?_ ?_ ?_ ?_ ?_ ?_ ?_ ?_ ?_ <;> first | exact same_rfl | exact same_bit (by decide) hm | exact id | exact Fuses.Le.refl _ | exact fun _ => TimeVal.ofCount_ns _ | exact fun h => SMap.wf_filter _ h | exact fun _ => SMap.wf_nil _ _ | skip)
    | (with_reducible apply keeps_pair)

theorem State.portUp_keeps {m : Nat} {z s : State} (h0 : Keeps m z s) (hm : 0x8004001000000 &&& m = 0x8004001000000) (n phase : Nat) (rate : BitVec 32) : Keeps m z (State.portUp s n phase rate) := by
  unfold State.portUp
  repeat' first
    | (extract_lets +onlyGivenNames x; refine keeps_cut (m := m) (z := z) (x := x) ?_ (fun hx => ?_); rotate_left; generalize x = y at hx ⊢; clear x; rotate_left; subst x)
    | (extract_lets +onlyGivenNames x; first | (subst x) | skip)
    | with_reducible assumption
    | exact mask_sub (by decide) hm
    | with_reducible apply State.prtEvent_keeps
    | with_reducible apply State.showAuto_keeps
    | with_reducible apply State.setPort_keeps
    | with_reducible apply State.setB_keeps
    | with_reducible apply State.wr_keeps
    | (intro _)
    | with_reducible apply keeps_ite
    | with_reducible apply keeps_ite_fst
    | (with_reducible apply keeps_pair)

theorem State.prtRange_keeps {m : Nat} {z s : State} (h0 : Keeps m z s) (hm : 0x8000000000000 &&& m = 0x8000000000000) (n : Nat) : Keeps m z (State.prtRange s n) := by
  unfold State.prtRange
  repeat' first
    | with_reducible assumption
    | exact mask_sub (by decide) hm
    | with_reducible apply State.setB_keeps
    | (intro _)

theorem State.showGanged_keeps {m : Nat} {z s : State} (h0 : Keeps m z s) (hm : 0x8000000000000 &&& m = 0x8000000000000) (c : Nat) : Keeps m z (State.showGanged s c) := by
  unfold State.showGanged
  repeat' first
    | with_reducible assumption
    | exact mask_sub (by decide) hm
    | with_reducible apply State.setB_keeps
    | (with_reducible apply keeps_foldl)
    | (intro _ _ _)
    | (intro _)
    | (with_reducible apply keeps_pair)

theorem State.prtCfg_keeps {m : Nat} {z s : State} (h0 : Keeps m z s) (hm : 0x48204109004D80 &&& m = 0x48204109004D80) (n : Nat) (v : BitVec 32) : Keeps m z (State.prtCfg s n v) := by
  unfold State.prtCfg
  repeat' first
    | (extract_lets +onlyGivenNames x; refine keeps_cut (m := m) (z := z) (x := x) ?_ (fun hx => ?_); rotate_left; generalize x = y at hx ⊢; clear x; rotate_left; subst x)
    | (extract_lets +onlyGivenNames x; first | (subst x) | skip)
    | with_reducible assumption
    | exact mask_sub (by decide) hm
    | with_reducible apply State.showGanged_keeps
    | with_reducible apply State.prtRange_keeps
    | with_reducible apply State.portIdle_keeps
    | with_reducible apply State.portStart_keeps
    | with_reducible apply State.wrRw_keeps
    | (intro _)
    | with_reducible apply keeps_ite

theorem State.prtCalCtl_keeps {m : Nat} {z s : State} (h0 : Keeps m z s) (hm : 0x48205109014D80 &&& m = 0x48205109014D80) (n : Nat) (v : BitVec 32) : Keeps m z (State.prtCalCtl s n v) := by
  unfold State.prtCalCtl
  repeat' first
    | (extract_lets +onlyGivenNames x; refine keeps_cut (m := m) (z := z) (x := x) ?_ (fun hx => ?_); rotate_left; generalize x = y at hx ⊢; clear x; rotate_left; subst x)
    | (extract_lets +onlyGivenNames x; first | (subst x) | skip)
    | with_reducible assumption
    | exact mask_sub (by decide) hm
    | with_reducible apply State.prtRange_keeps
    | with_reducible apply State.calTemp_keeps
    | with_reducible apply State.portStart_keeps
    | with_reducible apply State.setF_keeps
    | (intro _)
    | with_reducible apply keeps_ite

theorem State.prtWrite_keeps {m : Nat} {z s : State} {r : Reg} (h0 : Keeps m z s) (hm : 0x48205109014D80 &&& m = 0x48205109014D80) (hr_bit : r.bit &&& m = r.bit) (n : Nat) (v : BitVec 32) : Keeps m z (State.prtWrite s r n v) := by
  unfold State.prtWrite
  repeat' first
    | (extract_lets +onlyGivenNames x; refine keeps_cut (m := m) (z := z) (x := x) ?_ (fun hx => ?_); rotate_left; generalize x = y at hx ⊢; clear x; rotate_left; subst x)
    | (extract_lets +onlyGivenNames x; first | (subst x) | skip)
    | with_reducible assumption
    | exact mask_sub (by decide) hm
    | with_reducible apply State.prtCalCtl_keeps
    | with_reducible apply State.prtCfg_keeps
    | with_reducible apply State.prtRange_keeps
    | with_reducible apply State.showAuto_keeps
    | with_reducible apply State.wrRw_keeps
    | with_reducible apply State.w1c_keeps
    | with_reducible apply State.wr_keeps
    | (intro _)
    | with_reducible apply keeps_ite

/-! ### Machine/MemOps.lean -/

theorem State.mirrorMark_keeps {m : Nat} {z s : State} (h0 : Keeps m z s) (hm : 0x4000000 &&& m = 0x4000000) (k line : Nat) : Keeps m z (State.mirrorMark s k line) := by
  unfold State.mirrorMark
  repeat' first
    | (extract_lets +onlyGivenNames x; refine keeps_cut (m := m) (z := z) (x := x) ?_ (fun hx => ?_); rotate_left; generalize x = y at hx ⊢; clear x; rotate_left; subst x)
    | (extract_lets +onlyGivenNames x; first | (subst x) | skip)
    | with_reducible assumption
    | exact mask_sub (by decide) hm
    | (intro _)
    | with_reducible apply keeps_ite
    | with_reducible apply keeps_ite_fst
    | (simp only [keeps_mk]; refine keeps_upd ?_ ?_ ?_ ?_ ?_ ?_ ?_ ?_ ?_ ?_ ?_ ?_ ?_ ?_ ?_ ?_ ?_ ?_ ?_ ?_ ?_ ?_ ?_ ?_ ?_ ?_ ?_ ?_ ?_ ?_ ?_ ?_ ?_ ?_ ?_ ?_ ?_ <;> first | exact same_rfl | exact same_bit (by decide) hm | exact id | exact Fuses.Le.refl _ | exact fun _ => TimeVal.ofCount_ns _ | exact fun h => SMap.wf_filter _ h | exact fun _ => SMap.wf_nil _ _ | skip)
    | (with_reducible apply keeps_pair)

theorem State.mirrorWrite_keeps {m : Nat} {z s : State} (h0 : Keeps m z s) (hm : 0x4000000 &&& m = 0x4000000) (a n : Nat) : Keeps m z (State.mirrorWrite s a n) := by
  unfold State.mirrorWrite
  repeat' first
    | (extract_lets +onlyGivenNames x; refine keeps_cut (m := m) (z := z) (x := x) ?_ (fun hx => ?_); rotate_left; generalize x = y at hx ⊢; clear x; rotate_left; subst x)
    | (extract_lets +onlyGivenNames x; first | (subst x) | skip)
    | with_reducible assumption
    | exact mask_sub (by decide) hm
    | with_reducible apply State.mirrorMark_keeps
    | (with_reducible apply keeps_foldl)
    | (intro _ _ _)
    | (intro _)
    | with_reducible apply keeps_ite

theorem State.storeData_keeps {m : Nat} {z s : State} (h0 : Keeps m z s) (hm : 0x4020002 &&& m = 0x4020002) (flat : Nat) (bs : List Byte) : Keeps m z (State.storeData s flat bs) := by
  unfold State.storeData
  repeat' first
    | with_reducible assumption
    | exact mask_sub (by decide) hm
    | with_reducible apply State.mirrorWrite_keeps
    | with_reducible apply State.storeMem_keeps
    | (intro _)

/-! ### Machine/KeyOps.lean -/

theorem State.loadSlot_keeps {m : Nat} {z s : State} (h0 : Keeps m z s) (hm : 0x20002000000 &&& m = 0x20002000000) (i : Nat) (r : Option KeyRec) : Keeps m z (State.loadSlot s i r) := by
  unfold State.loadSlot
  repeat' first
    | (extract_lets +onlyGivenNames x; refine keeps_cut (m := m) (z := z) (x := x) ?_ (fun hx => ?_); rotate_left; generalize x = y at hx ⊢; clear x; rotate_left; subst x)
    | (extract_lets +onlyGivenNames x; first | (subst x) | skip)
    | with_reducible assumption
    | exact mask_sub (by decide) hm
    | with_reducible apply State.wr_keeps
    | (intro _)
    | with_reducible apply keeps_ite
    | (simp only [keeps_mk]; refine keeps_upd ?_ ?_ ?_ ?_ ?_ ?_ ?_ ?_ ?_ ?_ ?_ ?_ ?_ ?_ ?_ ?_ ?_ ?_ ?_ ?_ ?_ ?_ ?_ ?_ ?_ ?_ ?_ ?_ ?_ ?_ ?_ ?_ ?_ ?_ ?_ ?_ ?_ <;> first | exact same_rfl | exact same_bit (by decide) hm | exact id | exact Fuses.Le.refl _ | exact fun _ => TimeVal.ofCount_ns _ | exact fun h => SMap.wf_filter _ h | exact fun _ => SMap.wf_nil _ _ | skip)
    | (split)

theorem State.setKeyState_keeps {m : Nat} {z s : State} (h0 : Keeps m z s) (hm : 0x24000000000 &&& m = 0x24000000000) (n : Nat) : Keeps m z (State.setKeyState s n) := by
  unfold State.setKeyState
  repeat' first
    | with_reducible assumption
    | exact mask_sub (by decide) hm
    | with_reducible apply State.irqPulse_keeps
    | with_reducible apply State.setF_keeps
    | (intro _)
    | with_reducible apply keeps_ite

theorem State.hgenBump_keeps {m : Nat} {z s : State} (h0 : Keeps m z s) (hm : 0x20000002000 &&& m = 0x20000002000) : Keeps m z (State.hgenBump s) := by
  unfold State.hgenBump
  repeat' first
    | (extract_lets +onlyGivenNames x; refine keeps_cut (m := m) (z := z) (x := x) ?_ (fun hx => ?_); rotate_left; generalize x = y at hx ⊢; clear x; rotate_left; subst x)
    | (extract_lets +onlyGivenNames x; first | (subst x) | skip)
    | with_reducible assumption
    | exact mask_sub (by decide) hm
    | with_reducible apply State.setF_keeps
    | (intro _)
    | (simp only [keeps_mk]; refine keeps_upd ?_ ?_ ?_ ?_ ?_ ?_ ?_ ?_ ?_ ?_ ?_ ?_ ?_ ?_ ?_ ?_ ?_ ?_ ?_ ?_ ?_ ?_ ?_ ?_ ?_ ?_ ?_ ?_ ?_ ?_ ?_ ?_ ?_ ?_ ?_ ?_ ?_ <;> first | exact same_rfl | exact same_bit (by decide) hm | exact id | exact Fuses.Le.refl _ | exact fun _ => TimeVal.ofCount_ns _ | exact fun h => SMap.wf_filter _ h | exact fun _ => SMap.wf_nil _ _ | skip)

theorem State.zeroise_keeps {m : Nat} {z s : State} (h0 : Keeps m z s) (hm : 0x24022002000 &&& m = 0x24022002000) : Keeps m z (State.zeroise s) := by
  unfold State.zeroise
  repeat' first
    | (extract_lets +onlyGivenNames x; refine keeps_cut (m := m) (z := z) (x := x) ?_ (fun hx => ?_); rotate_left; generalize x = y at hx ⊢; clear x; rotate_left; subst x)
    | (extract_lets +onlyGivenNames x; first | (subst x) | skip)
    | with_reducible assumption
    | exact mask_sub (by decide) hm
    | with_reducible apply State.hgenBump_keeps
    | with_reducible apply State.setKeyState_keeps
    | with_reducible apply State.loadSlot_keeps
    | (with_reducible apply keeps_foldl)
    | (intro _ _ _)
    | (intro _)
    | (simp only [keeps_mk]; refine keeps_upd ?_ ?_ ?_ ?_ ?_ ?_ ?_ ?_ ?_ ?_ ?_ ?_ ?_ ?_ ?_ ?_ ?_ ?_ ?_ ?_ ?_ ?_ ?_ ?_ ?_ ?_ ?_ ?_ ?_ ?_ ?_ ?_ ?_ ?_ ?_ ?_ ?_ <;> first | exact same_rfl | exact same_bit (by decide) hm | exact id | exact Fuses.Le.refl _ | exact fun _ => TimeVal.ofCount_ns _ | exact fun h => SMap.wf_filter _ h | exact fun _ => SMap.wf_nil _ _ | skip)

theorem State.destroyKeys_keeps {m : Nat} {z s : State} (h0 : Keeps m z s) (hm : 0x24042002000 &&& m = 0x24042002000) : Keeps m z (State.destroyKeys s) := by
  unfold State.destroyKeys
  repeat' first
    | (extract_lets +onlyGivenNames x; refine keeps_cut (m := m) (z := z) (x := x) ?_ (fun hx => ?_); rotate_left; generalize x = y at hx ⊢; clear x; rotate_left; subst x)
    | (extract_lets +onlyGivenNames x; first | (subst x) | skip)
    | with_reducible assumption
    | exact mask_sub (by decide) hm
    | with_reducible apply State.hgenBump_keeps
    | with_reducible apply State.setKeyState_keeps
    | with_reducible apply State.loadSlot_keeps
    | with_reducible apply State.setPair_keeps
    | (with_reducible apply keeps_foldl)
    | (intro _ _ _)
    | (intro _)
    | (simp only [keeps_mk]; refine keeps_upd ?_ ?_ ?_ ?_ ?_ ?_ ?_ ?_ ?_ ?_ ?_ ?_ ?_ ?_ ?_ ?_ ?_ ?_ ?_ ?_ ?_ ?_ ?_ ?_ ?_ ?_ ?_ ?_ ?_ ?_ ?_ ?_ ?_ ?_ ?_ ?_ ?_ <;> first | exact same_rfl | exact same_bit (by decide) hm | exact id | exact Fuses.Le.refl _ | exact fun _ => TimeVal.ofCount_ns _ | exact fun h => SMap.wf_filter _ h | exact fun _ => SMap.wf_nil _ _ | skip)
    | (with_reducible apply keeps_pair)

theorem State.hashRegs_keeps {m : Nat} {z s : State} {r : Reg} (h0 : Keeps m z s) (hm : 0x0 &&& m = 0x0) (hr_bit : r.bit &&& m = r.bit) (h : List Byte) : Keeps m z (State.hashRegs s r h) := by
  unfold State.hashRegs
  repeat' first
    | with_reducible assumption
    | exact mask_sub (by decide) hm
    | with_reducible apply State.wr_keeps
    | (with_reducible apply keeps_foldl)
    | (intro _ _ _)
    | (intro _)

theorem State.keyLoad_keeps {m : Nat} {z s : State} (h0 : Keeps m z s) (hm : 0x24042002000 &&& m = 0x24042002000) : Keeps m z (State.keyLoad s) := by
  unfold State.keyLoad
  repeat' first
    | (extract_lets +onlyGivenNames x; refine keeps_cut (m := m) (z := z) (x := x) ?_ (fun hx => ?_); rotate_left; generalize x = y at hx ⊢; clear x; rotate_left; subst x)
    | (extract_lets +onlyGivenNames x; first | (subst x) | skip)
    | with_reducible assumption
    | exact mask_sub (by decide) hm
    | with_reducible apply State.hashRegs_keeps
    | with_reducible apply State.destroyKeys_keeps
    | with_reducible apply State.setKeyState_keeps
    | with_reducible apply State.loadSlot_keeps
    | with_reducible apply State.setPair_keeps
    | with_reducible apply State.setB_keeps
    | (with_reducible apply keeps_foldl)
    | (intro _ _ _)
    | (intro _)
    | with_reducible apply keeps_ite
    | (split)

theorem State.keyLast_keeps {m : Nat} {z s : State} (h0 : Keeps m z s) (hm : 0x20000000000 &&& m = 0x20000000000) (status slot : Nat) : Keeps m z (State.keyLast s status slot) := by
  unfold State.keyLast
  repeat' first
    | with_reducible assumption
    | exact mask_sub (by decide) hm
    | with_reducible apply State.setF_keeps
    | (intro _)

theorem State.envRefuse_keeps {m : Nat} {z s : State} (h0 : Keeps m z s) (hm : 0x225000010080 &&& m = 0x225000010080) (reason slot : Nat) : Keeps m z (State.envRefuse s reason slot) := by
  unfold State.envRefuse
  repeat' first
    | with_reducible assumption
    | exact mask_sub (by decide) hm
    | with_reducible apply State.keyLast_keeps
    | with_reducible refine State.raiseLow_keeps ?_ ?_ (by dsimp only; decide)
    | with_reducible apply State.raise_keeps
    | with_reducible apply State.setB_keeps
    | (intro _)
    | (with_reducible apply keeps_pair)

theorem State.envBegin_keeps {m : Nat} {z s : State} (h0 : Keeps m z s) (hm : 0x20002000000 &&& m = 0x20002000000) (x : KeyEnv) : Keeps m z (State.envBegin s x) := by
  unfold State.envBegin
  repeat' first
    | (extract_lets +onlyGivenNames x; refine keeps_cut (m := m) (z := z) (x := x) ?_ (fun hx => ?_); rotate_left; generalize x = y at hx ⊢; clear x; rotate_left; subst x)
    | (extract_lets +onlyGivenNames x; first | (subst x) | skip)
    | with_reducible assumption
    | exact mask_sub (by decide) hm
    | with_reducible apply State.setB_keeps
    | (intro _)
    | (simp only [keeps_mk]; refine keeps_upd ?_ ?_ ?_ ?_ ?_ ?_ ?_ ?_ ?_ ?_ ?_ ?_ ?_ ?_ ?_ ?_ ?_ ?_ ?_ ?_ ?_ ?_ ?_ ?_ ?_ ?_ ?_ ?_ ?_ ?_ ?_ ?_ ?_ ?_ ?_ ?_ ?_ <;> first | exact same_rfl | exact same_bit (by decide) hm | exact id | exact Fuses.Le.refl _ | exact fun _ => TimeVal.ofCount_ns _ | exact fun h => SMap.wf_filter _ h | exact fun _ => SMap.wf_nil _ _ | skip)

theorem State.envEnd_keeps {m : Nat} {z s : State} (h0 : Keeps m z s) (hm : 0x20002000000 &&& m = 0x20002000000) (status : Nat) : Keeps m z (State.envEnd s status) := by
  unfold State.envEnd
  repeat' first
    | (extract_lets +onlyGivenNames x; refine keeps_cut (m := m) (z := z) (x := x) ?_ (fun hx => ?_); rotate_left; generalize x = y at hx ⊢; clear x; rotate_left; subst x)
    | (extract_lets +onlyGivenNames x; first | (subst x) | skip)
    | with_reducible assumption
    | exact mask_sub (by decide) hm
    | with_reducible apply State.keyLast_keeps
    | with_reducible apply State.setB_keeps
    | (intro _)
    | with_reducible apply keeps_ite
    | (simp only [keeps_mk]; refine keeps_upd ?_ ?_ ?_ ?_ ?_ ?_ ?_ ?_ ?_ ?_ ?_ ?_ ?_ ?_ ?_ ?_ ?_ ?_ ?_ ?_ ?_ ?_ ?_ ?_ ?_ ?_ ?_ ?_ ?_ ?_ ?_ ?_ ?_ ?_ ?_ ?_ ?_ <;> first | exact same_rfl | exact same_bit (by decide) hm | exact id | exact Fuses.Le.refl _ | exact fun _ => TimeVal.ofCount_ns _ | exact fun h => SMap.wf_filter _ h | exact fun _ => SMap.wf_nil _ _ | skip)
    | (split)

theorem State.envApply_keeps {m : Nat} {z s : State} (h0 : Keeps m z s) (hm : 0x20042002000 &&& m = 0x20042002000) (x : KeyEnv) : Keeps m z (State.envApply s x) := by
  unfold State.envApply
  repeat' first
    | (extract_lets +onlyGivenNames x; refine keeps_cut (m := m) (z := z) (x := x) ?_ (fun hx => ?_); rotate_left; generalize x = y at hx ⊢; clear x; rotate_left; subst x)
    | (extract_lets +onlyGivenNames x; first | (subst x) | skip)
    | with_reducible assumption
    | exact mask_sub (by decide) hm
    | with_reducible apply State.keyLast_keeps
    | with_reducible apply State.hgenBump_keeps
    | with_reducible apply State.loadSlot_keeps
    | with_reducible apply State.setPair_keeps
    | with_reducible apply State.setB_keeps
    | (intro _)
    | with_reducible apply keeps_ite
    | with_reducible apply keeps_ite_fst
    | (simp only [keeps_mk]; refine keeps_upd ?_ ?_ ?_ ?_ ?_ ?_ ?_ ?_ ?_ ?_ ?_ ?_ ?_ ?_ ?_ ?_ ?_ ?_ ?_ ?_ ?_ ?_ ?_ ?_ ?_ ?_ ?_ ?_ ?_ ?_ ?_ ?_ ?_ ?_ ?_ ?_ ?_ <;> first | exact same_rfl | exact same_bit (by decide) hm | exact id | exact Fuses.Le.refl _ | exact fun _ => TimeVal.ofCount_ns _ | exact fun h => SMap.wf_filter _ h | exact fun _ => SMap.wf_nil _ _ | skip)
    | (with_reducible apply keeps_pair)

theorem State.addDerived_keeps {m : Nat} {z s : State} (h0 : Keeps m z s) (hm : 0x2000 &&& m = 0x2000) (c th slot : Nat) (key : List Byte) : Keeps m z (State.addDerived s c th slot key).1 := by
  unfold State.addDerived
  repeat' first
    | (extract_lets +onlyGivenNames x; refine keeps_cut (m := m) (z := z) (x := x) ?_ (fun hx => ?_); rotate_left; generalize x = y at hx ⊢; clear x; rotate_left; subst x)
    | (extract_lets +onlyGivenNames x; first | (subst x) | skip)
    | with_reducible assumption
    | exact mask_sub (by decide) hm
    | (intro _)
    | (simp only [keeps_mk]; refine keeps_upd ?_ ?_ ?_ ?_ ?_ ?_ ?_ ?_ ?_ ?_ ?_ ?_ ?_ ?_ ?_ ?_ ?_ ?_ ?_ ?_ ?_ ?_ ?_ ?_ ?_ ?_ ?_ ?_ ?_ ?_ ?_ ?_ ?_ ?_ ?_ ?_ ?_ <;> first | exact same_rfl | exact same_bit (by decide) hm | exact id | exact Fuses.Le.refl _ | exact fun _ => TimeVal.ofCount_ns _ | exact fun h => SMap.wf_filter _ h | exact fun _ => SMap.wf_nil _ _ | skip)
    | (split)
    | (with_reducible apply keeps_pair)

theorem State.derive_keeps {m : Nat} {z s : State} (h0 : Keeps m z s) (hm : 0x60215108016080 &&& m = 0x60215108016080) (th slot : Nat) (ctx : List Byte) (insn : BitVec 32) : Keeps m z (State.derive s th slot ctx insn).1 := by
  unfold State.derive
  repeat' first
    | (extract_lets +onlyGivenNames x; refine keeps_cut (m := m) (z := z) (x := x) ?_ (fun hx => ?_); rotate_left; generalize x = y at hx ⊢; clear x; rotate_left; subst x)
    | (extract_lets +onlyGivenNames x; first | (subst x) | skip)
    | with_reducible assumption
    | exact mask_sub (by decide) hm
    | with_reducible apply State.addDerived_keeps
    | with_reducible refine keeps_of_fst (by assumption) (State.addDerived_keeps ?_ ?_ ..)
    | with_reducible apply State.violation_keeps
    | (intro _)
    | with_reducible apply keeps_ite
    | with_reducible apply keeps_ite_fst
    | (split)
    | (with_reducible apply keeps_pair)

theorem State.release__keeps {m : Nat} {z s : State} (h0 : Keeps m z s) (hm : 0x2000 &&& m = 0x2000) (c h : Nat) : Keeps m z (State.release_ s c h) := by
  unfold State.release_
  repeat' first
    | (extract_lets +onlyGivenNames x; refine keeps_cut (m := m) (z := z) (x := x) ?_ (fun hx => ?_); rotate_left; generalize x = y at hx ⊢; clear x; rotate_left; subst x)
    | (extract_lets +onlyGivenNames x; first | (subst x) | skip)
    | with_reducible assumption
    | exact mask_sub (by decide) hm
    | (intro _)
    | (simp only [keeps_mk]; refine keeps_upd ?_ ?_ ?_ ?_ ?_ ?_ ?_ ?_ ?_ ?_ ?_ ?_ ?_ ?_ ?_ ?_ ?_ ?_ ?_ ?_ ?_ ?_ ?_ ?_ ?_ ?_ ?_ ?_ ?_ ?_ ?_ ?_ ?_ ?_ ?_ ?_ ?_ <;> first | exact same_rfl | exact same_bit (by decide) hm | exact id | exact Fuses.Le.refl _ | exact fun _ => TimeVal.ofCount_ns _ | exact fun h => SMap.wf_filter _ h | exact fun _ => SMap.wf_nil _ _ | skip)
    | (split)

theorem State.setJobs_keeps {m : Nat} {z s : State} (h0 : Keeps m z s) (hm : 0x1000 &&& m = 0x1000) (c : Nat) (js : List CryptoJob) : Keeps m z (State.setJobs s c js) := by
  unfold State.setJobs
  repeat' first
    | (extract_lets +onlyGivenNames x; refine keeps_cut (m := m) (z := z) (x := x) ?_ (fun hx => ?_); rotate_left; generalize x = y at hx ⊢; clear x; rotate_left; subst x)
    | (extract_lets +onlyGivenNames x; first | (subst x) | skip)
    | with_reducible assumption
    | exact mask_sub (by decide) hm
    | (intro _)
    | (simp only [keeps_mk]; refine keeps_upd ?_ ?_ ?_ ?_ ?_ ?_ ?_ ?_ ?_ ?_ ?_ ?_ ?_ ?_ ?_ ?_ ?_ ?_ ?_ ?_ ?_ ?_ ?_ ?_ ?_ ?_ ?_ ?_ ?_ ?_ ?_ ?_ ?_ ?_ ?_ ?_ ?_ <;> first | exact same_rfl | exact same_bit (by decide) hm | exact id | exact Fuses.Le.refl _ | exact fun _ => TimeVal.ofCount_ns _ | exact fun h => SMap.wf_filter _ h | exact fun _ => SMap.wf_nil _ _ | skip)

theorem State.laneStart_keeps {m : Nat} {z s : State} (h0 : Keeps m z s) (hm : 0x1000 &&& m = 0x1000) (c : Nat) : Keeps m z (State.laneStart s c) := by
  unfold State.laneStart
  repeat' first
    | (extract_lets +onlyGivenNames x; refine keeps_cut (m := m) (z := z) (x := x) ?_ (fun hx => ?_); rotate_left; generalize x = y at hx ⊢; clear x; rotate_left; subst x)
    | (extract_lets +onlyGivenNames x; first | (subst x) | skip)
    | with_reducible assumption
    | exact mask_sub (by decide) hm
    | with_reducible apply State.setJobs_keeps
    | (intro _)
    | with_reducible apply keeps_ite
    | with_reducible apply keeps_ite_fst
    | (split)
    | (with_reducible apply keeps_pair)

theorem State.jobRun_keeps {m : Nat} {z s : State} (h0 : Keeps m z s) (hm : 0x205004030082 &&& m = 0x205004030082) (j : CryptoJob) (key : List Byte) : Keeps m z (State.jobRun s j key).1 := by
  unfold State.jobRun
  repeat' first
    | (extract_lets +onlyGivenNames x; refine keeps_cut (m := m) (z := z) (x := x) ?_ (fun hx => ?_); rotate_left; generalize x = y at hx ⊢; clear x; rotate_left; subst x)
    | (extract_lets +onlyGivenNames x; first | (subst x) | skip)
    | with_reducible assumption
    | exact mask_sub (by decide) hm
    | (dsimp only; exact mask_sub (by decide) hm)
    | with_reducible apply State.storeData_keeps
    | with_reducible refine State.raiseLow_keeps ?_ ?_ (by dsimp only; decide)
    | with_reducible apply State.raise_keeps
    | (intro _)
    | with_reducible apply keeps_ite
    | with_reducible apply keeps_ite_fst
    | (split)
    | (with_reducible apply keeps_pair)

theorem State.jobNotice_keeps {m : Nat} {z s : State} (h0 : Keeps m z s) (hm : 0x40204108004180 &&& m = 0x40204108004180) (j : CryptoJob) (st : Status) : Keeps m z (State.jobNotice s j st) := by
  unfold State.jobNotice
  repeat' first
    | (extract_lets +onlyGivenNames x; refine keeps_cut (m := m) (z := z) (x := x) ?_ (fun hx => ?_); rotate_left; generalize x = y at hx ⊢; clear x; rotate_left; subst x)
    | (extract_lets +onlyGivenNames x; first | (subst x) | skip)
    | with_reducible assumption
    | exact mask_sub (by decide) hm
    | with_reducible apply State.unreserve_keeps
    | with_reducible apply State.notify_keeps
    | (intro _)
    | with_reducible apply keeps_ite

theorem State.jobDone_keeps {m : Nat} {z s : State} (h0 : Keeps m z s) (hm : 0x6821510D035582 &&& m = 0x6821510D035582) (c : Nat) : Keeps m z (State.jobDone s c) := by
  unfold State.jobDone
  repeat' first
    | (extract_lets +onlyGivenNames x; refine keeps_cut (m := m) (z := z) (x := x) ?_ (fun hx => ?_); rotate_left; generalize x = y at hx ⊢; clear x; rotate_left; subst x)
    | (extract_lets +onlyGivenNames x; first | (subst x) | skip)
    | with_reducible assumption
    | exact mask_sub (by decide) hm
    | (dsimp only; exact mask_sub (by decide) hm)
    | with_reducible apply State.jobNotice_keeps
    | with_reducible apply State.jobRun_keeps
    | with_reducible refine keeps_of_fst (by assumption) (State.jobRun_keeps ?_ ?_ ..)
    | with_reducible apply State.laneStart_keeps
    | with_reducible apply State.setJobs_keeps
    | with_reducible apply State.portSend_keeps
    | with_reducible refine keeps_of_fst (by assumption) (State.portSend_keeps ?_ ?_ ..)
    | with_reducible apply State.violation_keeps
    | with_reducible apply State.pmcCluster_keeps
    | (intro _)
    | with_reducible apply keeps_ite
    | with_reducible apply keeps_ite_fst
    | (split)
    | (with_reducible apply keeps_pair)

end Sys2Proof.Machine
end

