-- ==== Sys2Proof/Laws/KeepsBlocks.lean ====
section
/-!
SUPPORT. Laws/KeepsBlocks.lean: what each operation keeps (Laws/Keeps.lean): the operations of the pair, interrupt, fault, host, service and power blocks, and register accesses.
-/
set_option linter.all false
namespace Sys2Proof.Machine

/-! ### Machine/MatOps.lean -/

theorem State.setLane_keeps {m : Nat} {z s : State} (h0 : Keeps m z s) (hm : 0x4000000 &&& m = 0x4000000) (l : Nat) (x : MateLane) : Keeps m z (State.setLane s l x) := by
  unfold State.setLane
  repeat' first
    | (extract_lets +onlyGivenNames x; refine keeps_cut (m := m) (z := z) (x := x) ?_ (fun hx => ?_); rotate_left; generalize x = y at hx ⊢; clear x; rotate_left; subst x)
    | (extract_lets +onlyGivenNames x; first | (subst x) | skip)
    | with_reducible assumption
    | exact mask_sub (by decide) hm
    | (intro _)
    | (simp only [keeps_mk]; refine keeps_upd ?_ ?_ ?_ ?_ ?_ ?_ ?_ ?_ ?_ ?_ ?_ ?_ ?_ ?_ ?_ ?_ ?_ ?_ ?_ ?_ ?_ ?_ ?_ ?_ ?_ ?_ ?_ ?_ ?_ ?_ ?_ ?_ ?_ ?_ ?_ ?_ ?_ <;> first | exact same_rfl | exact same_bit (by decide) hm | exact id | exact Fuses.Le.refl _ | exact fun _ => TimeVal.ofCount_ns _ | exact fun h => SMap.wf_filter _ h | exact fun _ => SMap.wf_nil _ _ | skip)

theorem State.matFault_keeps {m : Nat} {z s : State} (h0 : Keeps m z s) (hm : 0x10207000018080 &&& m = 0x10207000018080) (cause cls reason : Nat) : Keeps m z (State.matFault s cause cls reason) := by
  unfold State.matFault
  repeat' first
    | with_reducible assumption
    | exact mask_sub (by decide) hm
    | with_reducible refine State.raiseLow_keeps ?_ ?_ (by dsimp only; decide)
    | with_reducible apply State.raise_keeps
    | (intro _)
    | (with_reducible apply keeps_pair)

theorem State.unsync_keeps {m : Nat} {z s : State} (h0 : Keeps m z s) (hm : 0x80004000000 &&& m = 0x80004000000) (ks : List Nat) : Keeps m z (State.unsync s ks) := by
  unfold State.unsync
  repeat' first
    | (extract_lets +onlyGivenNames x; refine keeps_cut (m := m) (z := z) (x := x) ?_ (fun hx => ?_); rotate_left; generalize x = y at hx ⊢; clear x; rotate_left; subst x)
    | (extract_lets +onlyGivenNames x; first | (subst x) | skip)
    | with_reducible assumption
    | exact mask_sub (by decide) hm
    | with_reducible apply State.setF_keeps
    | (with_reducible apply keeps_foldl)
    | (intro _ _ _)
    | (intro _)
    | with_reducible apply keeps_ite
    | (simp only [keeps_mk]; refine keeps_upd ?_ ?_ ?_ ?_ ?_ ?_ ?_ ?_ ?_ ?_ ?_ ?_ ?_ ?_ ?_ ?_ ?_ ?_ ?_ ?_ ?_ ?_ ?_ ?_ ?_ ?_ ?_ ?_ ?_ ?_ ?_ ?_ ?_ ?_ ?_ ?_ ?_ <;> first | exact same_rfl | exact same_bit (by decide) hm | exact id | exact Fuses.Le.refl _ | exact fun _ => TimeVal.ofCount_ns _ | exact fun h => SMap.wf_filter _ h | exact fun _ => SMap.wf_nil _ _ | skip)

theorem State.matShow_keeps {m : Nat} {z s : State} (h0 : Keeps m z s) (hm : 0x80000000000 &&& m = 0x80000000000) : Keeps m z (State.matShow s) := by
  unfold State.matShow
  repeat' first
    | (extract_lets +onlyGivenNames x; refine keeps_cut (m := m) (z := z) (x := x) ?_ (fun hx => ?_); rotate_left; generalize x = y at hx ⊢; clear x; rotate_left; subst x)
    | (extract_lets +onlyGivenNames x; first | (subst x) | skip)
    | with_reducible assumption
    | exact mask_sub (by decide) hm
    | with_reducible apply State.count_keeps
    | with_reducible apply State.setB_keeps
    | with_reducible apply State.setF_keeps
    | with_reducible apply State.wr_keeps
    | (with_reducible apply keeps_foldl)
    | (intro _ _ _)
    | (intro _)
    | (split)

theorem State.matHold_keeps {m : Nat} {z s : State} (h0 : Keeps m z s) (hm : 0x4000000 &&& m = 0x4000000) : Keeps m z (State.matHold s) := by
  unfold State.matHold
  repeat' first
    | (extract_lets +onlyGivenNames x; refine keeps_cut (m := m) (z := z) (x := x) ?_ (fun hx => ?_); rotate_left; generalize x = y at hx ⊢; clear x; rotate_left; subst x)
    | (extract_lets +onlyGivenNames x; first | (subst x) | skip)
    | with_reducible assumption
    | exact mask_sub (by decide) hm
    | (with_reducible apply keeps_getD)
    | (intro _)
    | with_reducible apply keeps_ite
    | with_reducible apply keeps_ite_fst
    | (simp only [keeps_mk]; refine keeps_upd ?_ ?_ ?_ ?_ ?_ ?_ ?_ ?_ ?_ ?_ ?_ ?_ ?_ ?_ ?_ ?_ ?_ ?_ ?_ ?_ ?_ ?_ ?_ ?_ ?_ ?_ ?_ ?_ ?_ ?_ ?_ ?_ ?_ ?_ ?_ ?_ ?_ <;> first | exact same_rfl | exact same_bit (by decide) hm | exact id | exact Fuses.Le.refl _ | exact fun _ => TimeVal.ofCount_ns _ | exact fun h => SMap.wf_filter _ h | exact fun _ => SMap.wf_nil _ _ | skip)
    | (with_reducible apply keeps_pair)

theorem State.declareLoss_keeps {m : Nat} {z s : State} (h0 : Keeps m z s) (hm : 0x10207004018080 &&& m = 0x10207004018080) (reason : Nat) : Keeps m z (State.declareLoss s reason) := by
  unfold State.declareLoss
  repeat' first
    | (extract_lets +onlyGivenNames x; refine keeps_cut (m := m) (z := z) (x := x) ?_ (fun hx => ?_); rotate_left; generalize x = y at hx ⊢; clear x; rotate_left; subst x)
    | (extract_lets +onlyGivenNames x; first | (subst x) | skip)
    | with_reducible assumption
    | exact mask_sub (by decide) hm
    | with_reducible apply State.matFault_keeps
    | (intro _)
    | with_reducible apply keeps_ite
    | with_reducible apply keeps_ite_fst
    | (simp only [keeps_mk]; refine keeps_upd ?_ ?_ ?_ ?_ ?_ ?_ ?_ ?_ ?_ ?_ ?_ ?_ ?_ ?_ ?_ ?_ ?_ ?_ ?_ ?_ ?_ ?_ ?_ ?_ ?_ ?_ ?_ ?_ ?_ ?_ ?_ ?_ ?_ ?_ ?_ ?_ ?_ <;> first | exact same_rfl | exact same_bit (by decide) hm | exact id | exact Fuses.Le.refl _ | exact fun _ => TimeVal.ofCount_ns _ | exact fun h => SMap.wf_filter _ h | exact fun _ => SMap.wf_nil _ _ | skip)
    | (split)
    | (with_reducible apply keeps_pair)

theorem State.matRefresh_keeps {m : Nat} {z s : State} (h0 : Keeps m z s) (hm : 0x10287004018080 &&& m = 0x10287004018080) (was : Bool) : Keeps m z (State.matRefresh s was) := by
  unfold State.matRefresh
  repeat' first
    | (extract_lets +onlyGivenNames x; refine keeps_cut (m := m) (z := z) (x := x) ?_ (fun hx => ?_); rotate_left; generalize x = y at hx ⊢; clear x; rotate_left; subst x)
    | (extract_lets +onlyGivenNames x; first | (subst x) | skip)
    | with_reducible assumption
    | exact mask_sub (by decide) hm
    | with_reducible apply State.declareLoss_keeps
    | with_reducible apply State.matHold_keeps
    | with_reducible apply State.matShow_keeps
    | with_reducible apply State.unsync_keeps
    | with_reducible apply State.matFault_keeps
    | with_reducible apply State.setF_keeps
    | (intro _)
    | with_reducible apply keeps_ite
    | (split)

theorem State.lossEnds_keeps {m : Nat} {z s : State} (h0 : Keeps m z s) (hm : 0x4000000 &&& m = 0x4000000) : Keeps m z (State.lossEnds s) := by
  unfold State.lossEnds
  repeat' first
    | (extract_lets +onlyGivenNames x; refine keeps_cut (m := m) (z := z) (x := x) ?_ (fun hx => ?_); rotate_left; generalize x = y at hx ⊢; clear x; rotate_left; subst x)
    | (extract_lets +onlyGivenNames x; first | (subst x) | skip)
    | with_reducible assumption
    | exact mask_sub (by decide) hm
    | (intro _)
    | (simp only [keeps_mk]; refine keeps_upd ?_ ?_ ?_ ?_ ?_ ?_ ?_ ?_ ?_ ?_ ?_ ?_ ?_ ?_ ?_ ?_ ?_ ?_ ?_ ?_ ?_ ?_ ?_ ?_ ?_ ?_ ?_ ?_ ?_ ?_ ?_ ?_ ?_ ?_ ?_ ?_ ?_ <;> first | exact same_rfl | exact same_bit (by decide) hm | exact id | exact Fuses.Le.refl _ | exact fun _ => TimeVal.ofCount_ns _ | exact fun h => SMap.wf_filter _ h | exact fun _ => SMap.wf_nil _ _ | skip)
    | (with_reducible apply keeps_pair)

theorem State.roleCount_keeps {m : Nat} {z s : State} {f : Fld} (h0 : Keeps m z s) (hm : 0x0 &&& m = 0x0) (hf_bit : f.reg.bit &&& m = f.reg.bit) : Keeps m z (State.roleCount s f) := by
  unfold State.roleCount
  repeat' first
    | with_reducible assumption
    | exact mask_sub (by decide) hm
    | with_reducible apply State.setF_keeps
    | (intro _)

theorem State.openWindow_keeps {m : Nat} {z s : State} (h0 : Keeps m z s) (hm : 0x4000000 &&& m = 0x4000000) : Keeps m z (State.openWindow s) := by
  unfold State.openWindow
  repeat' first
    | (extract_lets +onlyGivenNames x; refine keeps_cut (m := m) (z := z) (x := x) ?_ (fun hx => ?_); rotate_left; generalize x = y at hx ⊢; clear x; rotate_left; subst x)
    | (extract_lets +onlyGivenNames x; first | (subst x) | skip)
    | with_reducible assumption
    | exact mask_sub (by decide) hm
    | (intro _)
    | (simp only [keeps_mk]; refine keeps_upd ?_ ?_ ?_ ?_ ?_ ?_ ?_ ?_ ?_ ?_ ?_ ?_ ?_ ?_ ?_ ?_ ?_ ?_ ?_ ?_ ?_ ?_ ?_ ?_ ?_ ?_ ?_ ?_ ?_ ?_ ?_ ?_ ?_ ?_ ?_ ?_ ?_ <;> first | exact same_rfl | exact same_bit (by decide) hm | exact id | exact Fuses.Le.refl _ | exact fun _ => TimeVal.ofCount_ns _ | exact fun h => SMap.wf_filter _ h | exact fun _ => SMap.wf_nil _ _ | skip)
    | (with_reducible apply keeps_pair)

theorem State.matStart_keeps {m : Nat} {z s : State} (h0 : Keeps m z s) (hm : 0x80004000000 &&& m = 0x80004000000) : Keeps m z (State.matStart s) := by
  unfold State.matStart
  repeat' first
    | (extract_lets +onlyGivenNames x; refine keeps_cut (m := m) (z := z) (x := x) ?_ (fun hx => ?_); rotate_left; generalize x = y at hx ⊢; clear x; rotate_left; subst x)
    | (extract_lets +onlyGivenNames x; first | (subst x) | skip)
    | with_reducible assumption
    | exact mask_sub (by decide) hm
    | with_reducible apply State.matShow_keeps
    | with_reducible apply State.setF_keeps
    | (intro _)
    | (simp only [keeps_mk]; refine keeps_upd ?_ ?_ ?_ ?_ ?_ ?_ ?_ ?_ ?_ ?_ ?_ ?_ ?_ ?_ ?_ ?_ ?_ ?_ ?_ ?_ ?_ ?_ ?_ ?_ ?_ ?_ ?_ ?_ ?_ ?_ ?_ ?_ ?_ ?_ ?_ ?_ ?_ <;> first | exact same_rfl | exact same_bit (by decide) hm | exact id | exact Fuses.Le.refl _ | exact fun _ => TimeVal.ofCount_ns _ | exact fun h => SMap.wf_filter _ h | exact fun _ => SMap.wf_nil _ _ | skip)

theorem State.trainLane_keeps {m : Nat} {z s : State} (h0 : Keeps m z s) (hm : 0x4000000 &&& m = 0x4000000) (l : Nat) : Keeps m z (State.trainLane s l) := by
  unfold State.trainLane
  repeat' first
    | (extract_lets +onlyGivenNames x; refine keeps_cut (m := m) (z := z) (x := x) ?_ (fun hx => ?_); rotate_left; generalize x = y at hx ⊢; clear x; rotate_left; subst x)
    | (extract_lets +onlyGivenNames x; first | (subst x) | skip)
    | with_reducible assumption
    | exact mask_sub (by decide) hm
    | with_reducible apply State.setLane_keeps
    | (intro _)
    | with_reducible apply keeps_ite
    | with_reducible apply keeps_ite_fst
    | (with_reducible apply keeps_pair)

theorem State.matInit_keeps {m : Nat} {z s : State} (h0 : Keeps m z s) (hm : 0x4000000 &&& m = 0x4000000) (t0 t1 : Bool) : Keeps m z (State.matInit s t0 t1) := by
  unfold State.matInit
  repeat' first
    | (extract_lets +onlyGivenNames x; refine keeps_cut (m := m) (z := z) (x := x) ?_ (fun hx => ?_); rotate_left; generalize x = y at hx ⊢; clear x; rotate_left; subst x)
    | (extract_lets +onlyGivenNames x; first | (subst x) | skip)
    | with_reducible assumption
    | exact mask_sub (by decide) hm
    | with_reducible apply State.trainLane_keeps
    | with_reducible apply State.count_keeps
    | (intro _)
    | with_reducible apply keeps_ite
    | with_reducible apply keeps_ite_fst
    | (simp only [keeps_mk]; refine keeps_upd ?_ ?_ ?_ ?_ ?_ ?_ ?_ ?_ ?_ ?_ ?_ ?_ ?_ ?_ ?_ ?_ ?_ ?_ ?_ ?_ ?_ ?_ ?_ ?_ ?_ ?_ ?_ ?_ ?_ ?_ ?_ ?_ ?_ ?_ ?_ ?_ ?_ <;> first | exact same_rfl | exact same_bit (by decide) hm | exact id | exact Fuses.Le.refl _ | exact fun _ => TimeVal.ofCount_ns _ | exact fun h => SMap.wf_filter _ h | exact fun _ => SMap.wf_nil _ _ | skip)
    | (split)
    | (with_reducible apply keeps_pair)

theorem State.roleDecide_keeps {m : Nat} {z s : State} (h0 : Keeps m z s) (hm : 0x5028710C01CD80 &&& m = 0x5028710C01CD80) : Keeps m z (State.roleDecide s) := by
  unfold State.roleDecide
  repeat' first
    | (extract_lets +onlyGivenNames x; refine keeps_cut (m := m) (z := z) (x := x) ?_ (fun hx => ?_); rotate_left; generalize x = y at hx ⊢; clear x; rotate_left; subst x)
    | (extract_lets +onlyGivenNames x; first | (subst x) | skip)
    | with_reducible assumption
    | exact mask_sub (by decide) hm
    | with_reducible apply State.openWindow_keeps
    | with_reducible apply State.matRefresh_keeps
    | with_reducible apply State.matShow_keeps
    | with_reducible apply State.setRole_keeps
    | with_reducible apply State.count_keeps
    | (intro _)
    | with_reducible apply keeps_ite
    | with_reducible apply keeps_ite_fst
    | (simp only [keeps_mk]; refine keeps_upd ?_ ?_ ?_ ?_ ?_ ?_ ?_ ?_ ?_ ?_ ?_ ?_ ?_ ?_ ?_ ?_ ?_ ?_ ?_ ?_ ?_ ?_ ?_ ?_ ?_ ?_ ?_ ?_ ?_ ?_ ?_ ?_ ?_ ?_ ?_ ?_ ?_ <;> first | exact same_rfl | exact same_bit (by decide) hm | exact id | exact Fuses.Le.refl _ | exact fun _ => TimeVal.ofCount_ns _ | exact fun h => SMap.wf_filter _ h | exact fun _ => SMap.wf_nil _ _ | skip)
    | (split)
    | (with_reducible apply keeps_pair)

theorem State.arbDemote_keeps {m : Nat} {z s : State} (h0 : Keeps m z s) (hm : 0x5028710801CD80 &&& m = 0x5028710801CD80) : Keeps m z (State.arbDemote s) := by
  unfold State.arbDemote
  repeat' first
    | (extract_lets +onlyGivenNames x; refine keeps_cut (m := m) (z := z) (x := x) ?_ (fun hx => ?_); rotate_left; generalize x = y at hx ⊢; clear x; rotate_left; subst x)
    | (extract_lets +onlyGivenNames x; first | (subst x) | skip)
    | with_reducible assumption
    | exact mask_sub (by decide) hm
    | with_reducible apply State.roleCount_keeps
    | with_reducible apply State.matShow_keeps
    | with_reducible apply State.matFault_keeps
    | with_reducible apply State.setRole_keeps
    | with_reducible apply State.count_keeps
    | (intro _)
    | with_reducible apply keeps_ite
    | (split)

theorem State.promote_keeps {m : Nat} {z s : State} (h0 : Keeps m z s) (hm : 0x4028410C004D80 &&& m = 0x4028410C004D80) (cause : Nat) : Keeps m z (State.promote s cause) := by
  unfold State.promote
  repeat' first
    | (extract_lets +onlyGivenNames x; refine keeps_cut (m := m) (z := z) (x := x) ?_ (fun hx => ?_); rotate_left; generalize x = y at hx ⊢; clear x; rotate_left; subst x)
    | (extract_lets +onlyGivenNames x; first | (subst x) | skip)
    | with_reducible assumption
    | exact mask_sub (by decide) hm
    | with_reducible apply State.openWindow_keeps
    | with_reducible apply State.roleCount_keeps
    | with_reducible apply State.matShow_keeps
    | with_reducible apply State.unsync_keeps
    | with_reducible apply State.setRole_keeps
    | (intro _)
    | with_reducible apply keeps_ite
    | with_reducible apply keeps_ite_fst
    | (simp only [keeps_mk]; refine keeps_upd ?_ ?_ ?_ ?_ ?_ ?_ ?_ ?_ ?_ ?_ ?_ ?_ ?_ ?_ ?_ ?_ ?_ ?_ ?_ ?_ ?_ ?_ ?_ ?_ ?_ ?_ ?_ ?_ ?_ ?_ ?_ ?_ ?_ ?_ ?_ ?_ ?_ <;> first | exact same_rfl | exact same_bit (by decide) hm | exact id | exact Fuses.Le.refl _ | exact fun _ => TimeVal.ofCount_ns _ | exact fun h => SMap.wf_filter _ h | exact fun _ => SMap.wf_nil _ _ | skip)
    | (with_reducible apply keeps_pair)

theorem State.promotionDue_keeps {m : Nat} {z s : State} (h0 : Keeps m z s) (hm : 0x4028410C004D80 &&& m = 0x4028410C004D80) : Keeps m z (State.promotionDue s) := by
  unfold State.promotionDue
  repeat' first
    | (extract_lets +onlyGivenNames x; refine keeps_cut (m := m) (z := z) (x := x) ?_ (fun hx => ?_); rotate_left; generalize x = y at hx ⊢; clear x; rotate_left; subst x)
    | (extract_lets +onlyGivenNames x; first | (subst x) | skip)
    | with_reducible assumption
    | exact mask_sub (by decide) hm
    | with_reducible apply State.promote_keeps
    | (intro _)
    | with_reducible apply keeps_ite
    | (split)

theorem State.witnessMatch_keeps {m : Nat} {z s : State} (h0 : Keeps m z s) (hm : 0x5028710C01CD80 &&& m = 0x5028710C01CD80) (port : Nat) (clk : BitVec 64) : Keeps m z (State.witnessMatch s port clk) := by
  unfold State.witnessMatch
  repeat' first
    | (extract_lets +onlyGivenNames x; refine keeps_cut (m := m) (z := z) (x := x) ?_ (fun hx => ?_); rotate_left; generalize x = y at hx ⊢; clear x; rotate_left; subst x)
    | (extract_lets +onlyGivenNames x; first | (subst x) | skip)
    | with_reducible assumption
    | exact mask_sub (by decide) hm
    | with_reducible apply State.roleCount_keeps
    | with_reducible apply State.matRefresh_keeps
    | with_reducible apply State.matFault_keeps
    | with_reducible apply State.setRole_keeps
    | with_reducible apply State.count_keeps
    | (intro _)
    | with_reducible apply keeps_ite
    | with_reducible apply keeps_ite_fst
    | (simp only [keeps_mk]; refine keeps_upd ?_ ?_ ?_ ?_ ?_ ?_ ?_ ?_ ?_ ?_ ?_ ?_ ?_ ?_ ?_ ?_ ?_ ?_ ?_ ?_ ?_ ?_ ?_ ?_ ?_ ?_ ?_ ?_ ?_ ?_ ?_ ?_ ?_ ?_ ?_ ?_ ?_ <;> first | exact same_rfl | exact same_bit (by decide) hm | exact id | exact Fuses.Le.refl _ | exact fun _ => TimeVal.ofCount_ns _ | exact fun h => SMap.wf_filter _ h | exact fun _ => SMap.wf_nil _ _ | skip)
    | (split)
    | (with_reducible apply keeps_pair)

theorem State.matCmd_keeps {m : Nat} {z s : State} (h0 : Keeps m z s) (hm : 0x4028410C004D80 &&& m = 0x4028410C004D80) (v : BitVec 32) : Keeps m z (State.matCmd s v) := by
  unfold State.matCmd
  repeat' first
    | (extract_lets +onlyGivenNames x; refine keeps_cut (m := m) (z := z) (x := x) ?_ (fun hx => ?_); rotate_left; generalize x = y at hx ⊢; clear x; rotate_left; subst x)
    | (extract_lets +onlyGivenNames x; first | (subst x) | skip)
    | with_reducible assumption
    | exact mask_sub (by decide) hm
    | with_reducible apply State.matShow_keeps
    | with_reducible apply State.setRole_keeps
    | with_reducible apply State.setB_keeps
    | (intro _)
    | with_reducible apply keeps_ite
    | (simp only [keeps_mk]; refine keeps_upd ?_ ?_ ?_ ?_ ?_ ?_ ?_ ?_ ?_ ?_ ?_ ?_ ?_ ?_ ?_ ?_ ?_ ?_ ?_ ?_ ?_ ?_ ?_ ?_ ?_ ?_ ?_ ?_ ?_ ?_ ?_ ?_ ?_ ?_ ?_ ?_ ?_ <;> first | exact same_rfl | exact same_bit (by decide) hm | exact id | exact Fuses.Le.refl _ | exact fun _ => TimeVal.ofCount_ns _ | exact fun h => SMap.wf_filter _ h | exact fun _ => SMap.wf_nil _ _ | skip)

theorem State.swapFail_keeps {m : Nat} {z s : State} (h0 : Keeps m z s) (hm : 0x10287004018080 &&& m = 0x10287004018080) (code : Nat) : Keeps m z (State.swapFail s code) := by
  unfold State.swapFail
  repeat' first
    | (extract_lets +onlyGivenNames x; refine keeps_cut (m := m) (z := z) (x := x) ?_ (fun hx => ?_); rotate_left; generalize x = y at hx ⊢; clear x; rotate_left; subst x)
    | (extract_lets +onlyGivenNames x; first | (subst x) | skip)
    | with_reducible assumption
    | exact mask_sub (by decide) hm
    | with_reducible apply State.matFault_keeps
    | with_reducible apply State.setF_keeps
    | (intro _)
    | (simp only [keeps_mk]; refine keeps_upd ?_ ?_ ?_ ?_ ?_ ?_ ?_ ?_ ?_ ?_ ?_ ?_ ?_ ?_ ?_ ?_ ?_ ?_ ?_ ?_ ?_ ?_ ?_ ?_ ?_ ?_ ?_ ?_ ?_ ?_ ?_ ?_ ?_ ?_ ?_ ?_ ?_ <;> first | exact same_rfl | exact same_bit (by decide) hm | exact id | exact Fuses.Le.refl _ | exact fun _ => TimeVal.ofCount_ns _ | exact fun h => SMap.wf_filter _ h | exact fun _ => SMap.wf_nil _ _ | skip)

theorem State.swapRequest_keeps {m : Nat} {z s : State} (h0 : Keeps m z s) (hm : 0x10287004018080 &&& m = 0x10287004018080) (at_ cause : Nat) : Keeps m z (State.swapRequest s at_ cause) := by
  unfold State.swapRequest
  repeat' first
    | (extract_lets +onlyGivenNames x; refine keeps_cut (m := m) (z := z) (x := x) ?_ (fun hx => ?_); rotate_left; generalize x = y at hx ⊢; clear x; rotate_left; subst x)
    | (extract_lets +onlyGivenNames x; first | (subst x) | skip)
    | with_reducible assumption
    | exact mask_sub (by decide) hm
    | with_reducible apply State.swapFail_keeps
    | with_reducible apply State.matFault_keeps
    | with_reducible apply State.setF_keeps
    | (intro _)
    | with_reducible apply keeps_ite
    | with_reducible apply keeps_ite_fst
    | (simp only [keeps_mk]; refine keeps_upd ?_ ?_ ?_ ?_ ?_ ?_ ?_ ?_ ?_ ?_ ?_ ?_ ?_ ?_ ?_ ?_ ?_ ?_ ?_ ?_ ?_ ?_ ?_ ?_ ?_ ?_ ?_ ?_ ?_ ?_ ?_ ?_ ?_ ?_ ?_ ?_ ?_ <;> first | exact same_rfl | exact same_bit (by decide) hm | exact id | exact Fuses.Le.refl _ | exact fun _ => TimeVal.ofCount_ns _ | exact fun h => SMap.wf_filter _ h | exact fun _ => SMap.wf_nil _ _ | skip)
    | (split)
    | (with_reducible apply keeps_pair)

theorem State.swapReply_keeps {m : Nat} {z s : State} (h0 : Keeps m z s) (hm : 0x10287004018080 &&& m = 0x10287004018080) (h : Heartbeat) : Keeps m z (State.swapReply s h) := by
  unfold State.swapReply
  repeat' first
    | (extract_lets +onlyGivenNames x; refine keeps_cut (m := m) (z := z) (x := x) ?_ (fun hx => ?_); rotate_left; generalize x = y at hx ⊢; clear x; rotate_left; subst x)
    | (extract_lets +onlyGivenNames x; first | (subst x) | skip)
    | with_reducible assumption
    | exact mask_sub (by decide) hm
    | with_reducible apply State.swapFail_keeps
    | (intro _)
    | with_reducible apply keeps_ite
    | with_reducible apply keeps_ite_fst
    | (simp only [keeps_mk]; refine keeps_upd ?_ ?_ ?_ ?_ ?_ ?_ ?_ ?_ ?_ ?_ ?_ ?_ ?_ ?_ ?_ ?_ ?_ ?_ ?_ ?_ ?_ ?_ ?_ ?_ ?_ ?_ ?_ ?_ ?_ ?_ ?_ ?_ ?_ ?_ ?_ ?_ ?_ <;> first | exact same_rfl | exact same_bit (by decide) hm | exact id | exact Fuses.Le.refl _ | exact fun _ => TimeVal.ofCount_ns _ | exact fun h => SMap.wf_filter _ h | exact fun _ => SMap.wf_nil _ _ | skip)
    | (split)
    | (with_reducible apply keeps_pair)

theorem State.swapAnswer_keeps {m : Nat} {z s : State} (h0 : Keeps m z s) (hm : 0x10287004018080 &&& m = 0x10287004018080) (h : Heartbeat) : Keeps m z (State.swapAnswer s h) := by
  unfold State.swapAnswer
  repeat' first
    | (extract_lets +onlyGivenNames x; refine keeps_cut (m := m) (z := z) (x := x) ?_ (fun hx => ?_); rotate_left; generalize x = y at hx ⊢; clear x; rotate_left; subst x)
    | (extract_lets +onlyGivenNames x; first | (subst x) | skip)
    | with_reducible assumption
    | exact mask_sub (by decide) hm
    | with_reducible apply State.swapFail_keeps
    | (intro _)
    | with_reducible apply keeps_ite
    | (simp only [keeps_mk]; refine keeps_upd ?_ ?_ ?_ ?_ ?_ ?_ ?_ ?_ ?_ ?_ ?_ ?_ ?_ ?_ ?_ ?_ ?_ ?_ ?_ ?_ ?_ ?_ ?_ ?_ ?_ ?_ ?_ ?_ ?_ ?_ ?_ ?_ ?_ ?_ ?_ ?_ ?_ <;> first | exact same_rfl | exact same_bit (by decide) hm | exact id | exact Fuses.Le.refl _ | exact fun _ => TimeVal.ofCount_ns _ | exact fun h => SMap.wf_filter _ h | exact fun _ => SMap.wf_nil _ _ | skip)
    | (split)

theorem State.swapRecheck_keeps {m : Nat} {z s : State} (h0 : Keeps m z s) (hm : 0x5028710C01CD80 &&& m = 0x5028710C01CD80) : Keeps m z (State.swapRecheck s) := by
  unfold State.swapRecheck
  repeat' first
    | (extract_lets +onlyGivenNames x; refine keeps_cut (m := m) (z := z) (x := x) ?_ (fun hx => ?_); rotate_left; generalize x = y at hx ⊢; clear x; rotate_left; subst x)
    | (extract_lets +onlyGivenNames x; first | (subst x) | skip)
    | with_reducible assumption
    | exact mask_sub (by decide) hm
    | with_reducible apply State.swapFail_keeps
    | with_reducible apply State.matShow_keeps
    | with_reducible apply State.setRole_keeps
    | with_reducible apply State.count_keeps
    | (intro _)
    | with_reducible apply keeps_ite
    | (simp only [keeps_mk]; refine keeps_upd ?_ ?_ ?_ ?_ ?_ ?_ ?_ ?_ ?_ ?_ ?_ ?_ ?_ ?_ ?_ ?_ ?_ ?_ ?_ ?_ ?_ ?_ ?_ ?_ ?_ ?_ ?_ ?_ ?_ ?_ ?_ ?_ ?_ ?_ ?_ ?_ ?_ <;> first | exact same_rfl | exact same_bit (by decide) hm | exact id | exact Fuses.Le.refl _ | exact fun _ => TimeVal.ofCount_ns _ | exact fun h => SMap.wf_filter _ h | exact fun _ => SMap.wf_nil _ _ | skip)
    | (split)

theorem State.swapInstant_keeps {m : Nat} {z s : State} (h0 : Keeps m z s) (hm : 0x4028410C004D80 &&& m = 0x4028410C004D80) : Keeps m z (State.swapInstant s) := by
  unfold State.swapInstant
  repeat' first
    | (extract_lets +onlyGivenNames x; refine keeps_cut (m := m) (z := z) (x := x) ?_ (fun hx => ?_); rotate_left; generalize x = y at hx ⊢; clear x; rotate_left; subst x)
    | (extract_lets +onlyGivenNames x; first | (subst x) | skip)
    | with_reducible assumption
    | exact mask_sub (by decide) hm
    | with_reducible apply State.roleCount_keeps
    | with_reducible apply State.matShow_keeps
    | with_reducible apply State.setRole_keeps
    | with_reducible apply State.count_keeps
    | with_reducible apply State.setF_keeps
    | (intro _)
    | with_reducible apply keeps_ite
    | with_reducible apply keeps_ite_fst
    | (simp only [keeps_mk]; refine keeps_upd ?_ ?_ ?_ ?_ ?_ ?_ ?_ ?_ ?_ ?_ ?_ ?_ ?_ ?_ ?_ ?_ ?_ ?_ ?_ ?_ ?_ ?_ ?_ ?_ ?_ ?_ ?_ ?_ ?_ ?_ ?_ ?_ ?_ ?_ ?_ ?_ ?_ <;> first | exact same_rfl | exact same_bit (by decide) hm | exact id | exact Fuses.Le.refl _ | exact fun _ => TimeVal.ofCount_ns _ | exact fun h => SMap.wf_filter _ h | exact fun _ => SMap.wf_nil _ _ | skip)
    | (split)
    | (with_reducible apply keeps_pair)

theorem State.periodicSwap_keeps {m : Nat} {z s : State} (h0 : Keeps m z s) (hm : 0x10287004018080 &&& m = 0x10287004018080) : Keeps m z (State.periodicSwap s) := by
  unfold State.periodicSwap
  repeat' first
    | (extract_lets +onlyGivenNames x; refine keeps_cut (m := m) (z := z) (x := x) ?_ (fun hx => ?_); rotate_left; generalize x = y at hx ⊢; clear x; rotate_left; subst x)
    | (extract_lets +onlyGivenNames x; first | (subst x) | skip)
    | with_reducible assumption
    | exact mask_sub (by decide) hm
    | with_reducible apply State.swapRequest_keeps
    | with_reducible apply State.matShow_keeps
    | (intro _)
    | with_reducible apply keeps_ite

theorem State.reversion_keeps {m : Nat} {z s : State} (h0 : Keeps m z s) (hm : 0x10287004018080 &&& m = 0x10287004018080) : Keeps m z (State.reversion s) := by
  unfold State.reversion
  repeat' first
    | with_reducible assumption
    | exact mask_sub (by decide) hm
    | with_reducible apply State.swapRequest_keeps
    | with_reducible apply State.matShow_keeps
    | (intro _)
    | with_reducible apply keeps_ite

theorem State.healthYield_keeps {m : Nat} {z s : State} (h0 : Keeps m z s) (hm : 0x10287004018080 &&& m = 0x10287004018080) : Keeps m z (State.healthYield s) := by
  unfold State.healthYield
  repeat' first
    | with_reducible assumption
    | exact mask_sub (by decide) hm
    | with_reducible apply State.swapRequest_keeps
    | with_reducible apply State.matShow_keeps
    | (intro _)
    | with_reducible apply keeps_ite

theorem State.beatLaunch_keeps {m : Nat} {z s : State} (h0 : Keeps m z s) (hm : 0x80004000000 &&& m = 0x80004000000) (l : Nat) (tx : TimeVal) : Keeps m z (State.beatLaunch s l tx) := by
  unfold State.beatLaunch
  repeat' first
    | (extract_lets +onlyGivenNames x; refine keeps_cut (m := m) (z := z) (x := x) ?_ (fun hx => ?_); rotate_left; generalize x = y at hx ⊢; clear x; rotate_left; subst x)
    | (extract_lets +onlyGivenNames x; first | (subst x) | skip)
    | with_reducible assumption
    | exact mask_sub (by decide) hm
    | with_reducible apply State.matShow_keeps
    | with_reducible apply State.setLane_keeps
    | (intro _)
    | with_reducible apply keeps_ite
    | (simp only [keeps_mk]; refine keeps_upd ?_ ?_ ?_ ?_ ?_ ?_ ?_ ?_ ?_ ?_ ?_ ?_ ?_ ?_ ?_ ?_ ?_ ?_ ?_ ?_ ?_ ?_ ?_ ?_ ?_ ?_ ?_ ?_ ?_ ?_ ?_ ?_ ?_ ?_ ?_ ?_ ?_ <;> first | exact same_rfl | exact same_bit (by decide) hm | exact id | exact Fuses.Le.refl _ | exact fun _ => TimeVal.ofCount_ns _ | exact fun h => SMap.wf_filter _ h | exact fun _ => SMap.wf_nil _ _ | skip)

theorem State.twoWay_keeps {m : Nat} {z s : State} (h0 : Keeps m z s) (hm : 0x80000100000 &&& m = 0x80000100000) (l : Nat) (h : Heartbeat) (t4 : TimeVal) : Keeps m z (State.twoWay s l h t4) := by
  unfold State.twoWay
  repeat' first
    | (extract_lets +onlyGivenNames x; refine keeps_cut (m := m) (z := z) (x := x) ?_ (fun hx => ?_); rotate_left; generalize x = y at hx ⊢; clear x; rotate_left; subst x)
    | (extract_lets +onlyGivenNames x; first | (subst x) | skip)
    | with_reducible assumption
    | exact mask_sub (by decide) hm
    | with_reducible apply State.count_keeps
    | with_reducible apply State.wr_keeps
    | (intro _)
    | with_reducible apply keeps_ite
    | with_reducible apply keeps_ite_fst
    | (simp only [keeps_mk]; refine keeps_upd ?_ ?_ ?_ ?_ ?_ ?_ ?_ ?_ ?_ ?_ ?_ ?_ ?_ ?_ ?_ ?_ ?_ ?_ ?_ ?_ ?_ ?_ ?_ ?_ ?_ ?_ ?_ ?_ ?_ ?_ ?_ ?_ ?_ ?_ ?_ ?_ ?_ <;> first | exact same_rfl | exact same_bit (by decide) hm | exact id | exact Fuses.Le.refl _ | exact fun _ => TimeVal.ofCount_ns _ | exact fun h => SMap.wf_filter _ h | exact fun _ => SMap.wf_nil _ _ | skip)
    | (split)
    | (with_reducible apply keeps_pair)

theorem State.beatReceive_keeps {m : Nat} {z s : State} (h0 : Keeps m z s) (hm : 0x5028710C11CD80 &&& m = 0x5028710C11CD80) (l : Nat) (h : Heartbeat) (at_ : TimeVal) : Keeps m z (State.beatReceive s l h at_) := by
  unfold State.beatReceive
  repeat' first
    | (extract_lets +onlyGivenNames x; refine keeps_cut (m := m) (z := z) (x := x) ?_ (fun hx => ?_); rotate_left; generalize x = y at hx ⊢; clear x; rotate_left; subst x)
    | (extract_lets +onlyGivenNames x; first | (subst x) | skip)
    | with_reducible assumption
    | exact mask_sub (by decide) hm
    | with_reducible apply State.twoWay_keeps
    | with_reducible apply State.swapAnswer_keeps
    | with_reducible apply State.swapReply_keeps
    | with_reducible apply State.promote_keeps
    | with_reducible apply State.trainLane_keeps
    | with_reducible apply State.lossEnds_keeps
    | with_reducible apply State.matRefresh_keeps
    | with_reducible apply State.matShow_keeps
    | with_reducible apply State.setLane_keeps
    | with_reducible apply State.engineArm_keeps
    | with_reducible apply State.setPair_keeps
    | with_reducible apply State.wr_keeps
    | (intro _)
    | with_reducible apply keeps_ite
    | with_reducible apply keeps_ite_fst
    | (simp only [keeps_mk]; refine keeps_upd ?_ ?_ ?_ ?_ ?_ ?_ ?_ ?_ ?_ ?_ ?_ ?_ ?_ ?_ ?_ ?_ ?_ ?_ ?_ ?_ ?_ ?_ ?_ ?_ ?_ ?_ ?_ ?_ ?_ ?_ ?_ ?_ ?_ ?_ ?_ ?_ ?_ <;> first | exact same_rfl | exact same_bit (by decide) hm | exact id | exact Fuses.Le.refl _ | exact fun _ => TimeVal.ofCount_ns _ | exact fun h => SMap.wf_filter _ h | exact fun _ => SMap.wf_nil _ _ | skip)
    | (split)
    | (with_reducible apply keeps_pair)

theorem State.beatLost_keeps {m : Nat} {z s : State} (h0 : Keeps m z s) (hm : 0x10287004018080 &&& m = 0x10287004018080) (l : Nat) : Keeps m z (State.beatLost s l) := by
  unfold State.beatLost
  repeat' first
    | (extract_lets +onlyGivenNames x; refine keeps_cut (m := m) (z := z) (x := x) ?_ (fun hx => ?_); rotate_left; generalize x = y at hx ⊢; clear x; rotate_left; subst x)
    | (extract_lets +onlyGivenNames x; first | (subst x) | skip)
    | with_reducible assumption
    | exact mask_sub (by decide) hm
    | with_reducible apply State.matRefresh_keeps
    | with_reducible apply State.matFault_keeps
    | with_reducible apply State.setLane_keeps
    | with_reducible apply State.engineFree_keeps
    | (intro _)
    | with_reducible apply keeps_ite
    | (split)

theorem State.arbChange_keeps {m : Nat} {z s : State} (h0 : Keeps m z s) (hm : 0x5028712C01CD80 &&& m = 0x5028712C01CD80) (code : Nat) : Keeps m z (State.arbChange s code) := by
  unfold State.arbChange
  repeat' first
    | (extract_lets +onlyGivenNames x; refine keeps_cut (m := m) (z := z) (x := x) ?_ (fun hx => ?_); rotate_left; generalize x = y at hx ⊢; clear x; rotate_left; subst x)
    | (extract_lets +onlyGivenNames x; first | (subst x) | skip)
    | with_reducible assumption
    | exact mask_sub (by decide) hm
    | with_reducible apply State.promote_keeps
    | with_reducible apply State.lossEnds_keeps
    | with_reducible apply State.matRefresh_keeps
    | with_reducible apply State.matShow_keeps
    | (intro _)
    | with_reducible apply keeps_ite
    | (simp only [keeps_mk]; refine keeps_upd ?_ ?_ ?_ ?_ ?_ ?_ ?_ ?_ ?_ ?_ ?_ ?_ ?_ ?_ ?_ ?_ ?_ ?_ ?_ ?_ ?_ ?_ ?_ ?_ ?_ ?_ ?_ ?_ ?_ ?_ ?_ ?_ ?_ ?_ ?_ ?_ ?_ <;> first | exact same_rfl | exact same_bit (by decide) hm | exact id | exact Fuses.Le.refl _ | exact fun _ => TimeVal.ofCount_ns _ | exact fun h => SMap.wf_filter _ h | exact fun _ => SMap.wf_nil _ _ | skip)

theorem State.presentChange_keeps {m : Nat} {z s : State} (h0 : Keeps m z s) (hm : 0x10287024018080 &&& m = 0x10287024018080) (high : Bool) : Keeps m z (State.presentChange s high) := by
  unfold State.presentChange
  repeat' first
    | (extract_lets +onlyGivenNames x; refine keeps_cut (m := m) (z := z) (x := x) ?_ (fun hx => ?_); rotate_left; generalize x = y at hx ⊢; clear x; rotate_left; subst x)
    | (extract_lets +onlyGivenNames x; first | (subst x) | skip)
    | with_reducible assumption
    | exact mask_sub (by decide) hm
    | with_reducible apply State.lossEnds_keeps
    | with_reducible apply State.matRefresh_keeps
    | with_reducible apply State.declareLoss_keeps
    | with_reducible apply State.matShow_keeps
    | with_reducible apply State.unsync_keeps
    | (intro _)
    | with_reducible apply keeps_ite
    | with_reducible apply keeps_ite_fst
    | (simp only [keeps_mk]; refine keeps_upd ?_ ?_ ?_ ?_ ?_ ?_ ?_ ?_ ?_ ?_ ?_ ?_ ?_ ?_ ?_ ?_ ?_ ?_ ?_ ?_ ?_ ?_ ?_ ?_ ?_ ?_ ?_ ?_ ?_ ?_ ?_ ?_ ?_ ?_ ?_ ?_ ?_ <;> first | exact same_rfl | exact same_bit (by decide) hm | exact id | exact Fuses.Le.refl _ | exact fun _ => TimeVal.ofCount_ns _ | exact fun h => SMap.wf_filter _ h | exact fun _ => SMap.wf_nil _ _ | skip)
    | (with_reducible apply keeps_pair)

theorem State.mirrorSend_keeps {m : Nat} {z s : State} (h0 : Keeps m z s) (hm : 0x80004000000 &&& m = 0x80004000000) : Keeps m z (State.mirrorSend s) := by
  unfold State.mirrorSend
  repeat' first
    | (extract_lets +onlyGivenNames x; refine keeps_cut (m := m) (z := z) (x := x) ?_ (fun hx => ?_); rotate_left; generalize x = y at hx ⊢; clear x; rotate_left; subst x)
    | (extract_lets +onlyGivenNames x; first | (subst x) | skip)
    | with_reducible assumption
    | exact mask_sub (by decide) hm
    | with_reducible apply State.matShow_keeps
    | with_reducible apply State.unsync_keeps
    | with_reducible apply State.count_keeps
    | (with_reducible apply keeps_foldl)
    | (intro _ _ _)
    | (intro _)
    | with_reducible apply keeps_ite
    | with_reducible apply keeps_ite_fst
    | (simp only [keeps_mk]; refine keeps_upd ?_ ?_ ?_ ?_ ?_ ?_ ?_ ?_ ?_ ?_ ?_ ?_ ?_ ?_ ?_ ?_ ?_ ?_ ?_ ?_ ?_ ?_ ?_ ?_ ?_ ?_ ?_ ?_ ?_ ?_ ?_ ?_ ?_ ?_ ?_ ?_ ?_ <;> first | exact same_rfl | exact same_bit (by decide) hm | exact id | exact Fuses.Le.refl _ | exact fun _ => TimeVal.ofCount_ns _ | exact fun h => SMap.wf_filter _ h | exact fun _ => SMap.wf_nil _ _ | skip)
    | (split)
    | (with_reducible apply keeps_pair)

theorem State.mirrorApply_keeps {m : Nat} {z s : State} (h0 : Keeps m z s) (hm : 0x4020002 &&& m = 0x4020002) (f : MirFrame) : Keeps m z (State.mirrorApply s f) := by
  unfold State.mirrorApply
  repeat' first
    | (extract_lets +onlyGivenNames x; refine keeps_cut (m := m) (z := z) (x := x) ?_ (fun hx => ?_); rotate_left; generalize x = y at hx ⊢; clear x; rotate_left; subst x)
    | (extract_lets +onlyGivenNames x; first | (subst x) | skip)
    | with_reducible assumption
    | exact mask_sub (by decide) hm
    | with_reducible apply State.storeMem_keeps
    | (intro _)
    | with_reducible apply keeps_ite
    | (simp only [keeps_mk]; refine keeps_upd ?_ ?_ ?_ ?_ ?_ ?_ ?_ ?_ ?_ ?_ ?_ ?_ ?_ ?_ ?_ ?_ ?_ ?_ ?_ ?_ ?_ ?_ ?_ ?_ ?_ ?_ ?_ ?_ ?_ ?_ ?_ ?_ ?_ ?_ ?_ ?_ ?_ <;> first | exact same_rfl | exact same_bit (by decide) hm | exact id | exact Fuses.Le.refl _ | exact fun _ => TimeVal.ofCount_ns _ | exact fun h => SMap.wf_filter _ h | exact fun _ => SMap.wf_nil _ _ | skip)

theorem State.mirrorEnd_keeps {m : Nat} {z s : State} (h0 : Keeps m z s) (hm : 0x4000000 &&& m = 0x4000000) (seq : Nat) : Keeps m z (State.mirrorEnd s seq) := by
  unfold State.mirrorEnd
  repeat' first
    | (extract_lets +onlyGivenNames x; refine keeps_cut (m := m) (z := z) (x := x) ?_ (fun hx => ?_); rotate_left; generalize x = y at hx ⊢; clear x; rotate_left; subst x)
    | (extract_lets +onlyGivenNames x; first | (subst x) | skip)
    | with_reducible assumption
    | exact mask_sub (by decide) hm
    | (intro _)
    | with_reducible apply keeps_ite
    | with_reducible apply keeps_ite_fst
    | (simp only [keeps_mk]; refine keeps_upd ?_ ?_ ?_ ?_ ?_ ?_ ?_ ?_ ?_ ?_ ?_ ?_ ?_ ?_ ?_ ?_ ?_ ?_ ?_ ?_ ?_ ?_ ?_ ?_ ?_ ?_ ?_ ?_ ?_ ?_ ?_ ?_ ?_ ?_ ?_ ?_ ?_ <;> first | exact same_rfl | exact same_bit (by decide) hm | exact id | exact Fuses.Le.refl _ | exact fun _ => TimeVal.ofCount_ns _ | exact fun h => SMap.wf_filter _ h | exact fun _ => SMap.wf_nil _ _ | skip)
    | (with_reducible apply keeps_pair)

theorem State.copyDone_keeps {m : Nat} {z s : State} (h0 : Keeps m z s) (hm : 0x80004000000 &&& m = 0x80004000000) (k : Nat) : Keeps m z (State.copyDone s k) := by
  unfold State.copyDone
  repeat' first
    | (extract_lets +onlyGivenNames x; refine keeps_cut (m := m) (z := z) (x := x) ?_ (fun hx => ?_); rotate_left; generalize x = y at hx ⊢; clear x; rotate_left; subst x)
    | (extract_lets +onlyGivenNames x; first | (subst x) | skip)
    | with_reducible assumption
    | exact mask_sub (by decide) hm
    | with_reducible apply State.setF_keeps
    | (intro _)
    | with_reducible apply keeps_ite
    | (simp only [keeps_mk]; refine keeps_upd ?_ ?_ ?_ ?_ ?_ ?_ ?_ ?_ ?_ ?_ ?_ ?_ ?_ ?_ ?_ ?_ ?_ ?_ ?_ ?_ ?_ ?_ ?_ ?_ ?_ ?_ ?_ ?_ ?_ ?_ ?_ ?_ ?_ ?_ ?_ ?_ ?_ <;> first | exact same_rfl | exact same_bit (by decide) hm | exact id | exact Fuses.Le.refl _ | exact fun _ => TimeVal.ofCount_ns _ | exact fun h => SMap.wf_filter _ h | exact fun _ => SMap.wf_nil _ _ | skip)

theorem State.matPlain_keeps {m : Nat} {z s : State} {r : Reg} (h0 : Keeps m z s) (hm : 0x80040000000 &&& m = 0x80040000000) (hr_bit : r.bit &&& m = r.bit) (i : Nat) (v : BitVec 32) (ok : Bool) : Keeps m z (State.matPlain s r i v ok) := by
  unfold State.matPlain
  repeat' first
    | with_reducible assumption
    | exact mask_sub (by decide) hm
    | with_reducible apply State.cairnReg_keeps
    | with_reducible apply State.wrRw_keeps
    | with_reducible apply State.setB_keeps
    | (intro _)
    | with_reducible apply keeps_ite

theorem State.matCfg_keeps {m : Nat} {z s : State} (h0 : Keeps m z s) (hm : 0x80044000000 &&& m = 0x80044000000) (v : BitVec 32) : Keeps m z (State.matCfg s v) := by
  unfold State.matCfg
  repeat' first
    | (extract_lets +onlyGivenNames x; refine keeps_cut (m := m) (z := z) (x := x) ?_ (fun hx => ?_); rotate_left; generalize x = y at hx ⊢; clear x; rotate_left; subst x)
    | (extract_lets +onlyGivenNames x; first | (subst x) | skip)
    | with_reducible assumption
    | exact mask_sub (by decide) hm
    | with_reducible apply State.matPlain_keeps
    | with_reducible apply State.matStart_keeps
    | (intro _)
    | with_reducible apply keeps_ite

theorem State.matWrite_keeps {m : Nat} {z s : State} {r : Reg} (h0 : Keeps m z s) (hm : 0x5028714C01CD80 &&& m = 0x5028714C01CD80) (hr_bit : r.bit &&& m = r.bit) (i : Nat) (v : BitVec 32) : Keeps m z (State.matWrite s r i v) := by
  unfold State.matWrite
  repeat' first
    | (extract_lets +onlyGivenNames x; refine keeps_cut (m := m) (z := z) (x := x) ?_ (fun hx => ?_); rotate_left; generalize x = y at hx ⊢; clear x; rotate_left; subst x)
    | (extract_lets +onlyGivenNames x; first | (subst x) | skip)
    | with_reducible assumption
    | exact mask_sub (by decide) hm
    | with_reducible apply State.matCfg_keeps
    | with_reducible apply State.matPlain_keeps
    | with_reducible apply State.swapRequest_keeps
    | with_reducible apply State.matCmd_keeps
    | with_reducible apply State.matShow_keeps
    | with_reducible apply State.unsync_keeps
    | with_reducible apply State.cairnReg_keeps
    | with_reducible apply State.w1c_keeps
    | with_reducible apply State.setB_keeps
    | with_reducible apply State.setF_keeps
    | (intro _)
    | with_reducible apply keeps_ite

/-! ### Machine/IrqOps.lean -/

theorem State.irqRun_keeps {m : Nat} {z s : State} (h0 : Keeps m z s) (hm : 0x8000000000 &&& m = 0x8000000000) (t : Nat) : Keeps m z (State.irqRun s t) := by
  unfold State.irqRun
  repeat' first
    | (extract_lets +onlyGivenNames x; refine keeps_cut (m := m) (z := z) (x := x) ?_ (fun hx => ?_); rotate_left; generalize x = y at hx ⊢; clear x; rotate_left; subst x)
    | (extract_lets +onlyGivenNames x; first | (subst x) | skip)
    | with_reducible assumption
    | exact mask_sub (by decide) hm
    | with_reducible apply State.wr_keeps
    | (intro _)
    | with_reducible apply keeps_ite

theorem State.msixPost_keeps {m : Nat} {z s : State} (h0 : Keeps m z s) (hm : 0x20000 &&& m = 0x20000) (v : Nat) : Keeps m z (State.msixPost s v) := by
  unfold State.msixPost
  repeat' first
    | (extract_lets +onlyGivenNames x; refine keeps_cut (m := m) (z := z) (x := x) ?_ (fun hx => ?_); rotate_left; generalize x = y at hx ⊢; clear x; rotate_left; subst x)
    | (extract_lets +onlyGivenNames x; first | (subst x) | skip)
    | with_reducible assumption
    | exact mask_sub (by decide) hm
    | (intro _)
    | with_reducible apply keeps_ite
    | (simp only [keeps_mk]; refine keeps_upd ?_ ?_ ?_ ?_ ?_ ?_ ?_ ?_ ?_ ?_ ?_ ?_ ?_ ?_ ?_ ?_ ?_ ?_ ?_ ?_ ?_ ?_ ?_ ?_ ?_ ?_ ?_ ?_ ?_ ?_ ?_ ?_ ?_ ?_ ?_ ?_ ?_ <;> first | exact same_rfl | exact same_bit (by decide) hm | exact id | exact Fuses.Le.refl _ | exact fun _ => TimeVal.ofCount_ns _ | exact fun h => SMap.wf_filter _ h | exact fun _ => SMap.wf_nil _ _ | skip)

theorem State.irqIssueTo_keeps {m : Nat} {z s : State} (h0 : Keeps m z s) (hm : 0x4020C108024180 &&& m = 0x4020C108024180) (n t : Nat) (fell : Bool) : Keeps m z (State.irqIssueTo s n t fell) := by
  unfold State.irqIssueTo
  repeat' first
    | (extract_lets +onlyGivenNames x; refine keeps_cut (m := m) (z := z) (x := x) ?_ (fun hx => ?_); rotate_left; generalize x = y at hx ⊢; clear x; rotate_left; subst x)
    | (extract_lets +onlyGivenNames x; first | (subst x) | skip)
    | with_reducible assumption
    | exact mask_sub (by decide) hm
    | with_reducible apply State.msixPost_keeps
    | with_reducible apply State.irqRun_keeps
    | with_reducible apply State.notify_keeps
    | with_reducible apply State.setIrqDyn_keeps
    | with_reducible apply State.setB_keeps
    | with_reducible apply State.setF_keeps
    | (intro _)
    | with_reducible apply keeps_ite
    | with_reducible apply keeps_ite_fst
    | (with_reducible apply keeps_pair)

theorem State.irqArbitrate_keeps {m : Nat} {z s : State} (h0 : Keeps m z s) (hm : 0x4020C108024180 &&& m = 0x4020C108024180) (t : Nat) : Keeps m z (State.irqArbitrate s t) := by
  unfold State.irqArbitrate
  repeat' first
    | (extract_lets +onlyGivenNames x; refine keeps_cut (m := m) (z := z) (x := x) ?_ (fun hx => ?_); rotate_left; generalize x = y at hx ⊢; clear x; rotate_left; subst x)
    | (extract_lets +onlyGivenNames x; first | (subst x) | skip)
    | with_reducible assumption
    | exact mask_sub (by decide) hm
    | with_reducible apply State.irqIssueTo_keeps
    | with_reducible apply State.setIrqDyn_keeps
    | (intro _)
    | with_reducible apply keeps_ite
    | (split)

theorem State.irqTimeout_keeps {m : Nat} {z s : State} (h0 : Keeps m z s) (hm : 0x4020C108024180 &&& m = 0x4020C108024180) (n : Nat) : Keeps m z (State.irqTimeout s n) := by
  unfold State.irqTimeout
  repeat' first
    | (extract_lets +onlyGivenNames x; refine keeps_cut (m := m) (z := z) (x := x) ?_ (fun hx => ?_); rotate_left; generalize x = y at hx ⊢; clear x; rotate_left; subst x)
    | (extract_lets +onlyGivenNames x; first | (subst x) | skip)
    | with_reducible assumption
    | exact mask_sub (by decide) hm
    | with_reducible apply State.irqIssueTo_keeps
    | with_reducible apply State.count_keeps
    | with_reducible apply State.setB_keeps
    | (intro _)
    | with_reducible apply keeps_ite
    | (split)

theorem State.irqActivate_keeps {m : Nat} {z s : State} (h0 : Keeps m z s) (hm : 0x4000004000 &&& m = 0x4000004000) (n : Nat) : Keeps m z (State.irqActivate s n) := by
  unfold State.irqActivate
  repeat' first
    | (extract_lets +onlyGivenNames x; refine keeps_cut (m := m) (z := z) (x := x) ?_ (fun hx => ?_); rotate_left; generalize x = y at hx ⊢; clear x; rotate_left; subst x)
    | (extract_lets +onlyGivenNames x; first | (subst x) | skip)
    | with_reducible assumption
    | exact mask_sub (by decide) hm
    | with_reducible apply State.setIrqDyn_keeps
    | with_reducible apply State.setB_keeps
    | (intro _)

theorem State.irqClaim_keeps {m : Nat} {z s : State} (h0 : Keeps m z s) (hm : 0xC000004000 &&& m = 0xC000004000) (v : Nat) : Keeps m z (State.irqClaim s v) := by
  unfold State.irqClaim
  repeat' first
    | (extract_lets +onlyGivenNames x; refine keeps_cut (m := m) (z := z) (x := x) ?_ (fun hx => ?_); rotate_left; generalize x = y at hx ⊢; clear x; rotate_left; subst x)
    | (extract_lets +onlyGivenNames x; first | (subst x) | skip)
    | with_reducible assumption
    | exact mask_sub (by decide) hm
    | with_reducible apply State.irqActivate_keeps
    | with_reducible apply State.irqRun_keeps
    | with_reducible apply State.wr_keeps
    | (intro _)
    | with_reducible apply keeps_ite
    | (split)

theorem State.irqEoi_keeps {m : Nat} {z s : State} (h0 : Keeps m z s) (hm : 0xC000004000 &&& m = 0xC000004000) (v n : Nat) : Keeps m z (State.irqEoi s v n) := by
  unfold State.irqEoi
  repeat' first
    | (extract_lets +onlyGivenNames x; refine keeps_cut (m := m) (z := z) (x := x) ?_ (fun hx => ?_); rotate_left; generalize x = y at hx ⊢; clear x; rotate_left; subst x)
    | (extract_lets +onlyGivenNames x; first | (subst x) | skip)
    | with_reducible assumption
    | exact mask_sub (by decide) hm
    | with_reducible apply State.irqRun_keeps
    | with_reducible apply State.setIrqDyn_keeps
    | with_reducible apply State.setB_keeps
    | (intro _)
    | with_reducible apply keeps_ite
    | with_reducible apply keeps_ite_fst
    | (with_reducible apply keeps_pair)

theorem State.irqOk_keeps {m : Nat} {z s : State} (h0 : Keeps m z s) (hm : 0x8000000000 &&& m = 0x8000000000) : Keeps m z (State.irqOk s) := by
  unfold State.irqOk
  repeat' first
    | with_reducible assumption
    | exact mask_sub (by decide) hm
    | with_reducible apply State.setB_keeps
    | (intro _)

theorem State.irqRange_keeps {m : Nat} {z s : State} (h0 : Keeps m z s) (hm : 0x8000000000 &&& m = 0x8000000000) : Keeps m z (State.irqRange s) := by
  unfold State.irqRange
  repeat' first
    | with_reducible assumption
    | exact mask_sub (by decide) hm
    | with_reducible apply State.setB_keeps
    | (intro _)

theorem State.irqCfg_keeps {m : Nat} {z s : State} (h0 : Keeps m z s) (hm : 0xC000000000 &&& m = 0xC000000000) (n : Nat) (v : BitVec 32) : Keeps m z (State.irqCfg s n v) := by
  unfold State.irqCfg
  repeat' first
    | (extract_lets +onlyGivenNames x; refine keeps_cut (m := m) (z := z) (x := x) ?_ (fun hx => ?_); rotate_left; generalize x = y at hx ⊢; clear x; rotate_left; subst x)
    | (extract_lets +onlyGivenNames x; first | (subst x) | skip)
    | with_reducible assumption
    | exact mask_sub (by decide) hm
    | with_reducible apply State.irqRange_keeps
    | with_reducible apply State.irqOk_keeps
    | with_reducible apply State.irqLatch_keeps
    | with_reducible apply State.wrRw_keeps
    | (intro _)
    | with_reducible apply keeps_ite

theorem State.doorbell_keeps {m : Nat} {z s : State} (h0 : Keeps m z s) (hm : 0xC000000000 &&& m = 0xC000000000) (n : Nat) : Keeps m z (State.doorbell s n) := by
  unfold State.doorbell
  repeat' first
    | with_reducible assumption
    | exact mask_sub (by decide) hm
    | with_reducible apply State.irqLatch_keeps
    | with_reducible apply State.bump_keeps
    | with_reducible apply State.setB_keeps
    | (intro _)
    | with_reducible apply keeps_ite

theorem State.pendSet_keeps {m : Nat} {z s : State} (h0 : Keeps m z s) (hm : 0xC000000000 &&& m = 0xC000000000) (n : Nat) : Keeps m z (State.pendSet s n) := by
  unfold State.pendSet
  repeat' first
    | with_reducible assumption
    | exact mask_sub (by decide) hm
    | with_reducible apply State.irqRange_keeps
    | with_reducible apply State.irqOk_keeps
    | with_reducible apply State.setB_keeps
    | (intro _)
    | with_reducible apply keeps_ite

theorem State.pendClr_keeps {m : Nat} {z s : State} (h0 : Keeps m z s) (hm : 0xC000000000 &&& m = 0xC000000000) (n : Nat) : Keeps m z (State.pendClr s n) := by
  unfold State.pendClr
  repeat' first
    | with_reducible assumption
    | exact mask_sub (by decide) hm
    | with_reducible apply State.irqOk_keeps
    | with_reducible apply State.setB_keeps
    | (intro _)

theorem State.irqTgt_keeps {m : Nat} {z s : State} (h0 : Keeps m z s) (hm : 0x8000004000 &&& m = 0x8000004000) (n : Nat) (v : BitVec 32) : Keeps m z (State.irqTgt s n v) := by
  unfold State.irqTgt
  repeat' first
    | (extract_lets +onlyGivenNames x; refine keeps_cut (m := m) (z := z) (x := x) ?_ (fun hx => ?_); rotate_left; generalize x = y at hx ⊢; clear x; rotate_left; subst x)
    | (extract_lets +onlyGivenNames x; first | (subst x) | skip)
    | with_reducible assumption
    | exact mask_sub (by decide) hm
    | with_reducible apply State.irqRange_keeps
    | with_reducible apply State.irqOk_keeps
    | with_reducible apply State.setIrqDyn_keeps
    | with_reducible apply State.wr_keeps
    | (intro _)
    | with_reducible apply keeps_ite
    | with_reducible apply keeps_ite_fst
    | (with_reducible apply keeps_pair)

theorem State.irqWrite_keeps {m : Nat} {z s : State} {r : Reg} (h0 : Keeps m z s) (hm : 0xC000004000 &&& m = 0xC000004000) (hr_bit : r.bit &&& m = r.bit) (i : Nat) (v : BitVec 32) : Keeps m z (State.irqWrite s r i v) := by
  unfold State.irqWrite
  repeat' first
    | (extract_lets +onlyGivenNames x; refine keeps_cut (m := m) (z := z) (x := x) ?_ (fun hx => ?_); rotate_left; generalize x = y at hx ⊢; clear x; rotate_left; subst x)
    | (extract_lets +onlyGivenNames x; first | (subst x) | skip)
    | with_reducible assumption
    | exact mask_sub (by decide) hm
    | with_reducible apply State.irqTgt_keeps
    | with_reducible apply State.pendClr_keeps
    | with_reducible apply State.pendSet_keeps
    | with_reducible apply State.doorbell_keeps
    | with_reducible apply State.irqCfg_keeps
    | with_reducible apply State.irqRange_keeps
    | with_reducible apply State.irqOk_keeps
    | with_reducible apply State.irqEoi_keeps
    | with_reducible apply State.wrRw_keeps
    | with_reducible apply State.w1c_keeps
    | (intro _)
    | with_reducible apply keeps_ite

/-! ### Machine/FltOps.lean -/

theorem State.pulseEnd_keeps {m : Nat} {z s : State} (h0 : Keeps m z s) (hm : 0x10000 &&& m = 0x10000) : Keeps m z (State.pulseEnd s) := by
  unfold State.pulseEnd
  repeat' first
    | (extract_lets +onlyGivenNames x; refine keeps_cut (m := m) (z := z) (x := x) ?_ (fun hx => ?_); rotate_left; generalize x = y at hx ⊢; clear x; rotate_left; subst x)
    | (extract_lets +onlyGivenNames x; first | (subst x) | skip)
    | with_reducible assumption
    | exact mask_sub (by decide) hm
    | (intro _)
    | (simp only [keeps_mk]; refine keeps_upd ?_ ?_ ?_ ?_ ?_ ?_ ?_ ?_ ?_ ?_ ?_ ?_ ?_ ?_ ?_ ?_ ?_ ?_ ?_ ?_ ?_ ?_ ?_ ?_ ?_ ?_ ?_ ?_ ?_ ?_ ?_ ?_ ?_ ?_ ?_ ?_ ?_ <;> first | exact same_rfl | exact same_bit (by decide) hm | exact id | exact Fuses.Le.refl _ | exact fun _ => TimeVal.ofCount_ns _ | exact fun h => SMap.wf_filter _ h | exact fun _ => SMap.wf_nil _ _ | skip)

theorem State.fltOk_keeps {m : Nat} {z s : State} (h0 : Keeps m z s) (hm : 0x2000000000 &&& m = 0x2000000000) : Keeps m z (State.fltOk s) := by
  unfold State.fltOk
  repeat' first
    | with_reducible assumption
    | exact mask_sub (by decide) hm
    | with_reducible apply State.setB_keeps
    | (intro _)

theorem State.fltAck_keeps {m : Nat} {z s : State} (h0 : Keeps m z s) (hm : 0x201000010080 &&& m = 0x201000010080) (i : Nat) : Keeps m z (State.fltAck s i) := by
  unfold State.fltAck
  repeat' first
    | with_reducible assumption
    | exact mask_sub (by decide) hm
    | with_reducible apply State.stopGrace_keeps
    | with_reducible apply State.setB_keeps
    | (intro _)
    | with_reducible apply keeps_ite

theorem State.fltClear_keeps {m : Nat} {z s : State} (h0 : Keeps m z s) (hm : 0x203000010080 &&& m = 0x203000010080) (i : Nat) : Keeps m z (State.fltClear s i) := by
  unfold State.fltClear
  refine keeps_ite (State.setB_keeps h0 (mask_sub (by decide) hm) (mask_sub (by decide) hm) _ _) ?_
  have h1 := State.stopGrace_keeps h0 (mask_sub (by decide) hm) i false
  revert h1
  generalize s.stopGrace i false = t
  intro h1
  unfold recordRegs
  simp only [List.foldl]
  repeat' first
    | with_reducible assumption
    | exact mask_sub (by decide) hm
    | with_reducible apply State.wr_keeps

theorem State.fltCtl_keeps {m : Nat} {z s : State} (h0 : Keeps m z s) (hm : 0x203000010080 &&& m = 0x203000010080) (i : Nat) (v : BitVec 32) : Keeps m z (State.fltCtl s i v) := by
  unfold State.fltCtl
  repeat' first
    | (extract_lets +onlyGivenNames x; refine keeps_cut (m := m) (z := z) (x := x) ?_ (fun hx => ?_); rotate_left; generalize x = y at hx ⊢; clear x; rotate_left; subst x)
    | (extract_lets +onlyGivenNames x; first | (subst x) | skip)
    | with_reducible assumption
    | exact mask_sub (by decide) hm
    | with_reducible apply State.fltClear_keeps
    | with_reducible apply State.fltAck_keeps
    | with_reducible apply State.fltOk_keeps
    | (intro _)
    | with_reducible apply keeps_ite

theorem State.graceExpiry_keeps {m : Nat} {z s : State} (h0 : Keeps m z s) (hm : 0x7FFFFF3F17FFB2 &&& m = 0x7FFFFF3F17FFB2) (i : Nat) : Keeps m z (State.graceExpiry s i) := by
  unfold State.graceExpiry
  repeat' first
    | (extract_lets +onlyGivenNames x; refine keeps_cut (m := m) (z := z) (x := x) ?_ (fun hx => ?_); rotate_left; generalize x = y at hx ⊢; clear x; rotate_left; subst x)
    | (extract_lets +onlyGivenNames x; first | (subst x) | skip)
    | with_reducible assumption
    | exact mask_sub (by decide) hm
    | with_reducible apply State.escalate_keeps
    | (intro _)
    | with_reducible apply keeps_ite
    | (split)

theorem State.ladderRelease_keeps {m : Nat} {z s : State} (h0 : Keeps m z s) (hm : 0x40286108004D80 &&& m = 0x40286108004D80) : Keeps m z (State.ladderRelease s) := by
  unfold State.ladderRelease
  repeat' first
    | (extract_lets +onlyGivenNames x; refine keeps_cut (m := m) (z := z) (x := x) ?_ (fun hx => ?_); rotate_left; generalize x = y at hx ⊢; clear x; rotate_left; subst x)
    | (extract_lets +onlyGivenNames x; first | (subst x) | skip)
    | with_reducible assumption
    | exact mask_sub (by decide) hm
    | with_reducible apply State.fltOk_keeps
    | with_reducible apply State.setRole_keeps
    | with_reducible apply State.setB_keeps
    | with_reducible apply State.setF_keeps
    | (intro _)
    | with_reducible apply keeps_ite

theorem State.fltWrite_keeps {m : Nat} {z s : State} {r : Reg} (h0 : Keeps m z s) (hm : 0x40287108014D80 &&& m = 0x40287108014D80) (hr_bit : r.bit &&& m = r.bit) (i : Nat) (v : BitVec 32) : Keeps m z (State.fltWrite s r i v) := by
  unfold State.fltWrite
  repeat' first
    | (extract_lets +onlyGivenNames x; refine keeps_cut (m := m) (z := z) (x := x) ?_ (fun hx => ?_); rotate_left; generalize x = y at hx ⊢; clear x; rotate_left; subst x)
    | (extract_lets +onlyGivenNames x; first | (subst x) | skip)
    | with_reducible assumption
    | exact mask_sub (by decide) hm
    | with_reducible apply State.ladderRelease_keeps
    | with_reducible apply State.fltCtl_keeps
    | with_reducible apply State.fltOk_keeps
    | with_reducible apply State.wrRw_keeps
    | with_reducible apply State.w1c_keeps
    | with_reducible apply State.setB_keeps
    | (intro _)
    | with_reducible apply keeps_ite

theorem State.dfdtTake_keeps {m : Nat} {z s : State} (h0 : Keeps m z s) (hm : 0x10000 &&& m = 0x10000) (v : Nat) : Keeps m z (State.dfdtTake s v) := by
  unfold State.dfdtTake
  repeat' first
    | (extract_lets +onlyGivenNames x; refine keeps_cut (m := m) (z := z) (x := x) ?_ (fun hx => ?_); rotate_left; generalize x = y at hx ⊢; clear x; rotate_left; subst x)
    | (extract_lets +onlyGivenNames x; first | (subst x) | skip)
    | with_reducible assumption
    | exact mask_sub (by decide) hm
    | (intro _)
    | (simp only [keeps_mk]; refine keeps_upd ?_ ?_ ?_ ?_ ?_ ?_ ?_ ?_ ?_ ?_ ?_ ?_ ?_ ?_ ?_ ?_ ?_ ?_ ?_ ?_ ?_ ?_ ?_ ?_ ?_ ?_ ?_ ?_ ?_ ?_ ?_ ?_ ?_ ?_ ?_ ?_ ?_ <;> first | exact same_rfl | exact same_bit (by decide) hm | exact id | exact Fuses.Le.refl _ | exact fun _ => TimeVal.ofCount_ns _ | exact fun h => SMap.wf_filter _ h | exact fun _ => SMap.wf_nil _ _ | skip)
    | (with_reducible apply keeps_pair)

theorem State.dfdtWrite_keeps {m : Nat} {z s : State} (h0 : Keeps m z s) (hm : 0x10000020000 &&& m = 0x10000020000) (v : BitVec 32) : Keeps m z (State.dfdtWrite s v) := by
  unfold State.dfdtWrite
  repeat' first
    | (extract_lets +onlyGivenNames x; refine keeps_cut (m := m) (z := z) (x := x) ?_ (fun hx => ?_); rotate_left; generalize x = y at hx ⊢; clear x; rotate_left; subst x)
    | (extract_lets +onlyGivenNames x; first | (subst x) | skip)
    | with_reducible assumption
    | exact mask_sub (by decide) hm
    | with_reducible apply State.wrRw_keeps
    | with_reducible apply State.setB_keeps
    | (intro _)
    | with_reducible apply keeps_ite
    | with_reducible apply keeps_ite_fst
    | (simp only [keeps_mk]; refine keeps_upd ?_ ?_ ?_ ?_ ?_ ?_ ?_ ?_ ?_ ?_ ?_ ?_ ?_ ?_ ?_ ?_ ?_ ?_ ?_ ?_ ?_ ?_ ?_ ?_ ?_ ?_ ?_ ?_ ?_ ?_ ?_ ?_ ?_ ?_ ?_ ?_ ?_ <;> first | exact same_rfl | exact same_bit (by decide) hm | exact id | exact Fuses.Le.refl _ | exact fun _ => TimeVal.ofCount_ns _ | exact fun h => SMap.wf_filter _ h | exact fun _ => SMap.wf_nil _ _ | skip)
    | (with_reducible apply keeps_pair)

theorem State.qceilWrite_keeps {m : Nat} {z s : State} (h0 : Keeps m z s) (hm : 0x10000010000 &&& m = 0x10000010000) (i : Nat) (v : BitVec 32) : Keeps m z (State.qceilWrite s i v) := by
  unfold State.qceilWrite
  repeat' first
    | with_reducible assumption
    | exact mask_sub (by decide) hm
    | with_reducible apply State.refill_keeps
    | with_reducible apply State.wrRw_keeps
    | with_reducible apply State.setB_keeps
    | (intro _)
    | with_reducible apply keeps_ite

theorem State.dmpWrite_keeps {m : Nat} {z s : State} {r : Reg} (h0 : Keeps m z s) (hm : 0x10000030000 &&& m = 0x10000030000) (hr_bit : r.bit &&& m = r.bit) (i : Nat) (v : BitVec 32) : Keeps m z (State.dmpWrite s r i v) := by
  unfold State.dmpWrite
  repeat' first
    | with_reducible assumption
    | exact mask_sub (by decide) hm
    | with_reducible apply State.qceilWrite_keeps
    | with_reducible apply State.dfdtWrite_keeps
    | with_reducible apply State.wrRw_keeps
    | with_reducible apply State.w1c_keeps
    | with_reducible apply State.setB_keeps
    | (intro _)
    | with_reducible apply keeps_ite

/-! ### Machine/HstOps.lean -/

theorem State.fetchCmd_keeps {m : Nat} {z s : State} (h0 : Keeps m z s) (hm : 0x800000000 &&& m = 0x800000000) (q : Nat) : Keeps m z (State.fetchCmd s q) := by
  unfold State.fetchCmd
  repeat' first
    | with_reducible assumption
    | exact mask_sub (by decide) hm
    | with_reducible apply State.setF_keeps
    | (intro _)

theorem State.cqLine_keeps {m : Nat} {z s : State} (h0 : Keeps m z s) (hm : 0x4000004000 &&& m = 0x4000004000) (q : Nat) : Keeps m z (State.cqLine s q) := by
  unfold State.cqLine
  repeat' first
    | with_reducible assumption
    | exact mask_sub (by decide) hm
    | with_reducible apply State.irqLine_keeps
    | (intro _)

theorem State.complete_keeps {m : Nat} {z s : State} (h0 : Keeps m z s) (hm : 0x4800024000 &&& m = 0x4800024000) (q : Nat) (cid : BitVec 32) (st : Status) (result : Nat) : Keeps m z (State.complete s q cid st result) := by
  unfold State.complete
  repeat' first
    | (extract_lets +onlyGivenNames x; refine keeps_cut (m := m) (z := z) (x := x) ?_ (fun hx => ?_); rotate_left; generalize x = y at hx ⊢; clear x; rotate_left; subst x)
    | (extract_lets +onlyGivenNames x; first | (subst x) | skip)
    | with_reducible assumption
    | exact mask_sub (by decide) hm
    | with_reducible apply State.cqLine_keeps
    | with_reducible apply State.setB_keeps
    | with_reducible apply State.setF_keeps
    | (intro _)
    | with_reducible apply keeps_ite
    | with_reducible apply keeps_ite_fst
    | (simp only [keeps_mk]; refine keeps_upd ?_ ?_ ?_ ?_ ?_ ?_ ?_ ?_ ?_ ?_ ?_ ?_ ?_ ?_ ?_ ?_ ?_ ?_ ?_ ?_ ?_ ?_ ?_ ?_ ?_ ?_ ?_ ?_ ?_ ?_ ?_ ?_ ?_ ?_ ?_ ?_ ?_ <;> first | exact same_rfl | exact same_bit (by decide) hm | exact id | exact Fuses.Le.refl _ | exact fun _ => TimeVal.ofCount_ns _ | exact fun h => SMap.wf_filter _ h | exact fun _ => SMap.wf_nil _ _ | skip)
    | (with_reducible apply keeps_pair)

theorem State.output_keeps {m : Nat} {z s : State} (h0 : Keeps m z s) (hm : 0x20000 &&& m = 0x20000) (q : Nat) (bs : List Byte) : Keeps m z (State.output s q bs) := by
  unfold State.output
  repeat' first
    | (extract_lets +onlyGivenNames x; refine keeps_cut (m := m) (z := z) (x := x) ?_ (fun hx => ?_); rotate_left; generalize x = y at hx ⊢; clear x; rotate_left; subst x)
    | (extract_lets +onlyGivenNames x; first | (subst x) | skip)
    | with_reducible assumption
    | exact mask_sub (by decide) hm
    | (intro _)
    | (simp only [keeps_mk]; refine keeps_upd ?_ ?_ ?_ ?_ ?_ ?_ ?_ ?_ ?_ ?_ ?_ ?_ ?_ ?_ ?_ ?_ ?_ ?_ ?_ ?_ ?_ ?_ ?_ ?_ ?_ ?_ ?_ ?_ ?_ ?_ ?_ ?_ ?_ ?_ ?_ ?_ ?_ <;> first | exact same_rfl | exact same_bit (by decide) hm | exact id | exact Fuses.Le.refl _ | exact fun _ => TimeVal.ofCount_ns _ | exact fun h => SMap.wf_filter _ h | exact fun _ => SMap.wf_nil _ _ | skip)

theorem State.command_keeps {m : Nat} {z s : State} (h : Keeps m z s) (hm : 0x4800024000 &&& m = 0x4800024000) (q : Nat) (cid : BitVec 32)
    {body : State → State × Status × Nat} (hb : ∀ u, Keeps m z u → Keeps m z (body u).1) : Keeps m z (s.command q cid body) := by
  unfold State.command
  split
  · exact State.complete_keeps (hb _ (State.fetchCmd_keeps h (mask_sub (by decide) hm) _)) (mask_sub (by decide) hm) _ _ _ _
  · exact h

theorem State.clockCommand_keeps {m : Nat} {z s : State} (h : Keeps m z s) (hm : 0x4800024000 &&& m = 0x4800024000) (q : Nat) (cid : BitVec 32)
    {body : State → State × Status × Nat} (hb : ∀ u, Keeps m z u → Keeps m z (body u).1) :
    Keeps m z (s.clockCommand q cid body) := by
  refine State.command_keeps h (mask_sub (by decide) hm) q cid (fun u hu => ?_)
  split
  · exact hb u hu
  · exact hu

theorem State.queueEn_keeps {m : Nat} {z s : State} (h0 : Keeps m z s) (hm : 0x4A00004000 &&& m = 0x4A00004000) (q : Nat) (v : BitVec 32) : Keeps m z (State.queueEn s q v) := by
  unfold State.queueEn
  repeat' first
    | (extract_lets +onlyGivenNames x; refine keeps_cut (m := m) (z := z) (x := x) ?_ (fun hx => ?_); rotate_left; generalize x = y at hx ⊢; clear x; rotate_left; subst x)
    | (extract_lets +onlyGivenNames x; first | (subst x) | skip)
    | with_reducible assumption
    | exact mask_sub (by decide) hm
    | with_reducible apply State.cqLine_keeps
    | with_reducible apply State.orphan_keeps
    | with_reducible apply State.setB_keeps
    | with_reducible apply State.setF_keeps
    | (intro _)
    | with_reducible apply keeps_ite

theorem State.doorbellBad_keeps {m : Nat} {z s : State} (h0 : Keeps m z s) (hm : 0x205800010080 &&& m = 0x205800010080) : Keeps m z (State.doorbellBad s) := by
  unfold State.doorbellBad
  repeat' first
    | with_reducible assumption
    | exact mask_sub (by decide) hm
    | with_reducible refine State.raiseLow_keeps ?_ ?_ (by dsimp only; decide)
    | with_reducible apply State.raise_keeps
    | with_reducible apply State.setB_keeps
    | (intro _)
    | (with_reducible apply keeps_pair)

theorem State.sqTail_keeps {m : Nat} {z s : State} (h0 : Keeps m z s) (hm : 0x205800010080 &&& m = 0x205800010080) (q : Nat) (v : BitVec 32) : Keeps m z (State.sqTail s q v) := by
  unfold State.sqTail
  repeat' first
    | (extract_lets +onlyGivenNames x; refine keeps_cut (m := m) (z := z) (x := x) ?_ (fun hx => ?_); rotate_left; generalize x = y at hx ⊢; clear x; rotate_left; subst x)
    | (extract_lets +onlyGivenNames x; first | (subst x) | skip)
    | with_reducible assumption
    | exact mask_sub (by decide) hm
    | with_reducible apply State.doorbellBad_keeps
    | with_reducible apply State.setB_keeps
    | with_reducible apply State.setF_keeps
    | (intro _)
    | with_reducible apply keeps_ite

theorem State.cqHead_keeps {m : Nat} {z s : State} (h0 : Keeps m z s) (hm : 0x205800014080 &&& m = 0x205800014080) (q : Nat) (v : BitVec 32) : Keeps m z (State.cqHead s q v) := by
  unfold State.cqHead
  repeat' first
    | (extract_lets +onlyGivenNames x; refine keeps_cut (m := m) (z := z) (x := x) ?_ (fun hx => ?_); rotate_left; generalize x = y at hx ⊢; clear x; rotate_left; subst x)
    | (extract_lets +onlyGivenNames x; first | (subst x) | skip)
    | with_reducible assumption
    | exact mask_sub (by decide) hm
    | with_reducible apply State.doorbellBad_keeps
    | with_reducible apply State.cqLine_keeps
    | with_reducible apply State.setB_keeps
    | with_reducible apply State.setF_keeps
    | (intro _)
    | with_reducible apply keeps_ite

theorem State.envStop_keeps {m : Nat} {z s : State} (h0 : Keeps m z s) (hm : 0x24802024000 &&& m = 0x24802024000) (status : Nat) (st : Status) : Keeps m z (State.envStop s status st) := by
  unfold State.envStop
  repeat' first
    | (extract_lets +onlyGivenNames x; refine keeps_cut (m := m) (z := z) (x := x) ?_ (fun hx => ?_); rotate_left; generalize x = y at hx ⊢; clear x; rotate_left; subst x)
    | (extract_lets +onlyGivenNames x; first | (subst x) | skip)
    | with_reducible assumption
    | exact mask_sub (by decide) hm
    | with_reducible apply State.complete_keeps
    | with_reducible apply State.envEnd_keeps
    | (intro _)
    | (split)

theorem State.abortEach_keeps {m : Nat} {z : State} (q n : Nat) : ∀ (cs : List (BitVec 32)) {s : State}, Keeps m z s →
    0x4800024000 &&& m = 0x4800024000 → Keeps m z (s.abortEach q cs n) := by
  induction n with
  | zero => intro cs s h _; cases cs <;> exact h
  | succ k ih =>
    intro cs s h hm
    unfold State.abortEach
    exact ih _ (State.complete_keeps (State.fetchCmd_keeps h (mask_sub (by decide) hm) _) (mask_sub (by decide) hm) _ _ _ _) hm

theorem State.queueAbort_keeps {m : Nat} {z s : State} (h0 : Keeps m z s) (hm : 0x24802024000 &&& m = 0x24802024000) (q : Nat) (cids : List (BitVec 32)) : Keeps m z (State.queueAbort s q cids) := by
  unfold State.queueAbort
  repeat' first
    | (extract_lets +onlyGivenNames x; refine keeps_cut (m := m) (z := z) (x := x) ?_ (fun hx => ?_); rotate_left; generalize x = y at hx ⊢; clear x; rotate_left; subst x)
    | (extract_lets +onlyGivenNames x; first | (subst x) | skip)
    | with_reducible assumption
    | exact mask_sub (by decide) hm
    | with_reducible apply State.abortEach_keeps
    | with_reducible apply State.envStop_keeps
    | (intro _)
    | with_reducible apply keeps_ite

theorem State.hstAbort_keeps {m : Nat} {z s : State} (h0 : Keeps m z s) (hm : 0x24802024000 &&& m = 0x24802024000) (v : BitVec 32) (cids : List (BitVec 32)) : Keeps m z (State.hstAbort s v cids) := by
  unfold State.hstAbort
  repeat' first
    | (extract_lets +onlyGivenNames x; refine keeps_cut (m := m) (z := z) (x := x) ?_ (fun hx => ?_); rotate_left; generalize x = y at hx ⊢; clear x; rotate_left; subst x)
    | (extract_lets +onlyGivenNames x; first | (subst x) | skip)
    | with_reducible assumption
    | exact mask_sub (by decide) hm
    | with_reducible apply State.queueAbort_keeps
    | with_reducible apply State.setB_keeps
    | (intro _)
    | with_reducible apply keeps_ite

theorem State.resetRegs_keeps {m : Nat} {z s : State} (h0 : Keeps m z s) (hm : 0x7FFFFE00000000 &&& m = 0x7FFFFE00000000) (p : Reg → Bool) : Keeps m z (State.resetRegs s p) := by
  unfold State.resetRegs
  repeat' first
    | (extract_lets +onlyGivenNames x; refine keeps_cut (m := m) (z := z) (x := x) ?_ (fun hx => ?_); rotate_left; generalize x = y at hx ⊢; clear x; rotate_left; subst x)
    | (extract_lets +onlyGivenNames x; first | (subst x) | skip)
    | with_reducible assumption
    | exact mask_sub (by decide) hm
    | (intro _)
    | (simp only [keeps_mk]; refine keeps_updF ?_ ?_ ?_ ?_ ?_ ?_ ?_ ?_ ?_ ?_ ?_ ?_ ?_ ?_ ?_ ?_ ?_ ?_ ?_ ?_ ?_ ?_ ?_ ?_ ?_ ?_ ?_ ?_ ?_ ?_ ?_ ?_ ?_ ?_ ?_ ?_ ?_ ?_ ?_ <;> first | exact same_rfl | exact same_bit (by decide) hm | exact id | exact Fuses.Le.refl _ | exact fun _ => TimeVal.ofCount_ns _ | exact fun h => SMap.wf_filter _ h | exact fun _ => SMap.wf_nil _ _ | exact mask_sub (by decide) hm | skip)

theorem State.hostLoss_keeps {m : Nat} {z s : State} (h0 : Keeps m z s) (hm : 0x7FFFFE02034080 &&& m = 0x7FFFFE02034080) (kind : PcieLoss) : Keeps m z (State.hostLoss s kind) := by
  unfold State.hostLoss
  repeat' first
    | (extract_lets +onlyGivenNames x; refine keeps_cut (m := m) (z := z) (x := x) ?_ (fun hx => ?_); rotate_left; generalize x = y at hx ⊢; clear x; rotate_left; subst x)
    | (extract_lets +onlyGivenNames x; first | (subst x) | skip)
    | with_reducible assumption
    | exact mask_sub (by decide) hm
    | with_reducible apply State.resetRegs_keeps
    | with_reducible apply State.envEnd_keeps
    | with_reducible refine State.raiseLow_keeps ?_ ?_ (by dsimp only; decide)
    | with_reducible apply State.raise_keeps
    | with_reducible apply State.orphan_keeps
    | with_reducible apply State.setB_keeps
    | with_reducible apply State.wr_keeps
    | (with_reducible apply keeps_foldl)
    | (with_reducible apply keeps_foldl_fst)
    | (intro _ _ _)
    | (intro _)
    | with_reducible apply keeps_ite
    | with_reducible apply keeps_ite_fst
    | (simp only [keeps_mk]; refine keeps_upd ?_ ?_ ?_ ?_ ?_ ?_ ?_ ?_ ?_ ?_ ?_ ?_ ?_ ?_ ?_ ?_ ?_ ?_ ?_ ?_ ?_ ?_ ?_ ?_ ?_ ?_ ?_ ?_ ?_ ?_ ?_ ?_ ?_ ?_ ?_ ?_ ?_ <;> first | exact same_rfl | exact same_bit (by decide) hm | exact id | exact Fuses.Le.refl _ | exact fun _ => TimeVal.ofCount_ns _ | exact fun h => SMap.wf_filter _ h | exact fun _ => SMap.wf_nil _ _ | skip)
    | (split)
    | (with_reducible apply keeps_pair)

theorem State.bar2_keeps {m : Nat} {z s : State} (h0 : Keeps m z s) (hm : 0x4020002 &&& m = 0x4020002) (off : Nat) (acc : Bar2Acc) : Keeps m z (State.bar2 s off acc) := by
  unfold State.bar2
  repeat' first
    | (extract_lets +onlyGivenNames x; refine keeps_cut (m := m) (z := z) (x := x) ?_ (fun hx => ?_); rotate_left; generalize x = y at hx ⊢; clear x; rotate_left; subst x)
    | (extract_lets +onlyGivenNames x; first | (subst x) | skip)
    | with_reducible assumption
    | exact mask_sub (by decide) hm
    | with_reducible apply State.storeData_keeps
    | with_reducible apply State.storeMem_keeps
    | (intro _)
    | with_reducible apply keeps_ite
    | (split)

theorem State.ce2_keeps {m : Nat} {z s : State} (h0 : Keeps m z s) (hm : 0x305000030080 &&& m = 0x305000030080) (c : Nat) : Keeps m z (State.ce2 s c) := by
  unfold State.ce2
  repeat' first
    | (extract_lets +onlyGivenNames x; refine keeps_cut (m := m) (z := z) (x := x) ?_ (fun hx => ?_); rotate_left; generalize x = y at hx ⊢; clear x; rotate_left; subst x)
    | (extract_lets +onlyGivenNames x; first | (subst x) | skip)
    | with_reducible assumption
    | exact mask_sub (by decide) hm
    | with_reducible refine State.raiseLow_keeps ?_ ?_ (by dsimp only; decide)
    | with_reducible apply State.raise_keeps
    | with_reducible apply State.count_keeps
    | with_reducible apply State.bump_keeps
    | (intro _)
    | with_reducible apply keeps_ite
    | with_reducible apply keeps_ite_fst
    | (simp only [keeps_mk]; refine keeps_upd ?_ ?_ ?_ ?_ ?_ ?_ ?_ ?_ ?_ ?_ ?_ ?_ ?_ ?_ ?_ ?_ ?_ ?_ ?_ ?_ ?_ ?_ ?_ ?_ ?_ ?_ ?_ ?_ ?_ ?_ ?_ ?_ ?_ ?_ ?_ ?_ ?_ <;> first | exact same_rfl | exact same_bit (by decide) hm | exact id | exact Fuses.Le.refl _ | exact fun _ => TimeVal.ofCount_ns _ | exact fun h => SMap.wf_filter _ h | exact fun _ => SMap.wf_nil _ _ | skip)
    | (with_reducible apply keeps_pair)

theorem State.uncorrectable_keeps {m : Nat} {z s : State} (h0 : Keeps m z s) (hm : 0x305000030080 &&& m = 0x305000030080) (c a : Nat) : Keeps m z (State.uncorrectable s c a) := by
  unfold State.uncorrectable
  repeat' first
    | (extract_lets +onlyGivenNames x; refine keeps_cut (m := m) (z := z) (x := x) ?_ (fun hx => ?_); rotate_left; generalize x = y at hx ⊢; clear x; rotate_left; subst x)
    | (extract_lets +onlyGivenNames x; first | (subst x) | skip)
    | with_reducible assumption
    | exact mask_sub (by decide) hm
    | with_reducible refine State.raiseLow_keeps ?_ ?_ (by dsimp only; decide)
    | with_reducible apply State.raise_keeps
    | with_reducible apply State.setPair_keeps
    | with_reducible apply State.bump_keeps
    | (intro _)
    | with_reducible apply keeps_ite
    | with_reducible apply keeps_ite_fst
    | (simp only [keeps_mk]; refine keeps_upd ?_ ?_ ?_ ?_ ?_ ?_ ?_ ?_ ?_ ?_ ?_ ?_ ?_ ?_ ?_ ?_ ?_ ?_ ?_ ?_ ?_ ?_ ?_ ?_ ?_ ?_ ?_ ?_ ?_ ?_ ?_ ?_ ?_ ?_ ?_ ?_ ?_ <;> first | exact same_rfl | exact same_bit (by decide) hm | exact id | exact Fuses.Le.refl _ | exact fun _ => TimeVal.ofCount_ns _ | exact fun h => SMap.wf_filter _ h | exact fun _ => SMap.wf_nil _ _ | skip)
    | (with_reducible apply keeps_pair)

theorem State.scrub_keeps {m : Nat} {z s : State} (h0 : Keeps m z s) (hm : 0x305000030080 &&& m = 0x305000030080) (c a : Nat) (found : ScrubResult) : Keeps m z (State.scrub s c a found) := by
  unfold State.scrub
  repeat' first
    | (extract_lets +onlyGivenNames x; refine keeps_cut (m := m) (z := z) (x := x) ?_ (fun hx => ?_); rotate_left; generalize x = y at hx ⊢; clear x; rotate_left; subst x)
    | (extract_lets +onlyGivenNames x; first | (subst x) | skip)
    | with_reducible assumption
    | exact mask_sub (by decide) hm
    | with_reducible apply State.uncorrectable_keeps
    | with_reducible apply State.ce2_keeps
    | with_reducible apply State.bump_keeps
    | with_reducible apply State.setB_keeps
    | (intro _)
    | with_reducible apply keeps_ite
    | (split)

theorem State.hstWrite_keeps {m : Nat} {z s : State} {r : Reg} (h0 : Keeps m z s) (hm : 0x225A02034080 &&& m = 0x225A02034080) (hr_bit : r.bit &&& m = r.bit) (i : Nat) (v : BitVec 32) : Keeps m z (State.hstWrite s r i v) := by
  unfold State.hstWrite
  repeat' first
    | (extract_lets +onlyGivenNames x; refine keeps_cut (m := m) (z := z) (x := x) ?_ (fun hx => ?_); rotate_left; generalize x = y at hx ⊢; clear x; rotate_left; subst x)
    | (extract_lets +onlyGivenNames x; first | (subst x) | skip)
    | with_reducible assumption
    | exact mask_sub (by decide) hm
    | with_reducible apply State.hstAbort_keeps
    | with_reducible apply State.cqHead_keeps
    | with_reducible apply State.sqTail_keeps
    | with_reducible apply State.queueEn_keeps
    | with_reducible apply State.wrRw_keeps
    | with_reducible apply State.w1c_keeps
    | with_reducible apply State.setB_keeps
    | (intro _)
    | with_reducible apply keeps_ite

theorem State.memWrite_keeps {m : Nat} {z s : State} {r : Reg} (h0 : Keeps m z s) (hm : 0x0 &&& m = 0x0) (hr_bit : r.bit &&& m = r.bit) (i : Nat) (v : BitVec 32) : Keeps m z (State.memWrite s r i v) := by
  unfold State.memWrite
  repeat' first
    | (extract_lets +onlyGivenNames x; refine keeps_cut (m := m) (z := z) (x := x) ?_ (fun hx => ?_); rotate_left; generalize x = y at hx ⊢; clear x; rotate_left; subst x)
    | (extract_lets +onlyGivenNames x; first | (subst x) | skip)
    | with_reducible assumption
    | exact mask_sub (by decide) hm
    | with_reducible apply State.wrRw_keeps
    | (intro _)
    | with_reducible apply keeps_ite

theorem State.msixWrite_keeps {m : Nat} {z s : State} (h0 : Keeps m z s) (hm : 0x20000 &&& m = 0x20000) (off : Nat) (v : BitVec 32) : Keeps m z (State.msixWrite s off v) := by
  unfold State.msixWrite
  repeat' first
    | (extract_lets +onlyGivenNames x; refine keeps_cut (m := m) (z := z) (x := x) ?_ (fun hx => ?_); rotate_left; generalize x = y at hx ⊢; clear x; rotate_left; subst x)
    | (extract_lets +onlyGivenNames x; first | (subst x) | skip)
    | with_reducible assumption
    | exact mask_sub (by decide) hm
    | (intro _)
    | with_reducible apply keeps_ite
    | (simp only [keeps_mk]; refine keeps_upd ?_ ?_ ?_ ?_ ?_ ?_ ?_ ?_ ?_ ?_ ?_ ?_ ?_ ?_ ?_ ?_ ?_ ?_ ?_ ?_ ?_ ?_ ?_ ?_ ?_ ?_ ?_ ?_ ?_ ?_ ?_ ?_ ?_ ?_ ?_ ?_ ?_ <;> first | exact same_rfl | exact same_bit (by decide) hm | exact id | exact Fuses.Le.refl _ | exact fun _ => TimeVal.ofCount_ns _ | exact fun h => SMap.wf_filter _ h | exact fun _ => SMap.wf_nil _ _ | skip)

/-! ### Machine/SvcOps.lean -/

theorem State.svcOpen_keeps {m : Nat} {z s : State} (h0 : Keeps m z s) (hm : 0x10004000000000 &&& m = 0x10004000000000) : Keeps m z (State.svcOpen s) := by
  unfold State.svcOpen
  repeat' first
    | with_reducible assumption
    | exact mask_sub (by decide) hm
    | with_reducible apply State.setSvc_keeps
    | with_reducible apply State.setB_keeps
    | (intro _)
    | with_reducible apply keeps_ite

theorem State.svcClose_keeps {m : Nat} {z s : State} (h0 : Keeps m z s) (hm : 0x10004000000000 &&& m = 0x10004000000000) : Keeps m z (State.svcClose s) := by
  unfold State.svcClose
  repeat' first
    | with_reducible assumption
    | exact mask_sub (by decide) hm
    | with_reducible apply State.closeSvc_keeps
    | with_reducible apply State.setB_keeps
    | (intro _)
    | with_reducible apply keeps_ite

theorem State.svcAuto_keeps {m : Nat} {z s : State} (h0 : Keeps m z s) (hm : 0x10004000000000 &&& m = 0x10004000000000) : Keeps m z (State.svcAuto s) := by
  unfold State.svcAuto
  repeat' first
    | with_reducible assumption
    | exact mask_sub (by decide) hm
    | with_reducible apply State.setSvc_keeps
    | (intro _)
    | with_reducible apply keeps_ite

theorem State.svcRefuse_keeps {m : Nat} {z s : State} (h0 : Keeps m z s) (hm : 0x10004000000000 &&& m = 0x10004000000000) : Keeps m z (State.svcRefuse s) := by
  unfold State.svcRefuse
  repeat' first
    | with_reducible assumption
    | exact mask_sub (by decide) hm
    | with_reducible apply State.setSvc_keeps
    | (intro _)

theorem State.svcAccept_keeps {m : Nat} {z s : State} (h0 : Keeps m z s) (hm : 0x10000000000000 &&& m = 0x10000000000000) : Keeps m z (State.svcAccept s) := by
  unfold State.svcAccept
  repeat' first
    | with_reducible assumption
    | exact mask_sub (by decide) hm
    | with_reducible apply State.setB_keeps
    | (intro _)

theorem State.svcRange_keeps {m : Nat} {z s : State} (h0 : Keeps m z s) (hm : 0x10000000000000 &&& m = 0x10000000000000) : Keeps m z (State.svcRange s) := by
  unfold State.svcRange
  repeat' first
    | with_reducible assumption
    | exact mask_sub (by decide) hm
    | with_reducible apply State.setB_keeps
    | (intro _)

theorem State.svcPlain_keeps {m : Nat} {z s : State} {r : Reg} (h0 : Keeps m z s) (hm : 0x10000000000000 &&& m = 0x10000000000000) (hr_bit : r.bit &&& m = r.bit) (i : Nat) (v : BitVec 32) (ok : Bool) : Keeps m z (State.svcPlain s r i v ok) := by
  unfold State.svcPlain
  repeat' first
    | with_reducible assumption
    | exact mask_sub (by decide) hm
    | with_reducible apply State.svcRange_keeps
    | with_reducible apply State.svcAccept_keeps
    | with_reducible apply State.wrRw_keeps
    | (intro _)
    | with_reducible apply keeps_ite

theorem State.svcCtl_keeps {m : Nat} {z s : State} (h0 : Keeps m z s) (hm : 0x10004000000000 &&& m = 0x10004000000000) (v : BitVec 32) : Keeps m z (State.svcCtl s v) := by
  unfold State.svcCtl
  repeat' first
    | (extract_lets +onlyGivenNames x; refine keeps_cut (m := m) (z := z) (x := x) ?_ (fun hx => ?_); rotate_left; generalize x = y at hx ⊢; clear x; rotate_left; subst x)
    | (extract_lets +onlyGivenNames x; first | (subst x) | skip)
    | with_reducible assumption
    | exact mask_sub (by decide) hm
    | with_reducible apply State.svcRange_keeps
    | with_reducible apply State.svcAccept_keeps
    | with_reducible apply State.svcClose_keeps
    | with_reducible apply State.svcOpen_keeps
    | with_reducible apply State.wr_keeps
    | (intro _)
    | with_reducible apply keeps_ite

theorem State.svcTableBack_keeps {m : Nat} {z s : State} (h0 : Keeps m z s) (hm : 0x10000000000000 &&& m = 0x10000000000000) : Keeps m z (State.svcTableBack s) := by
  unfold State.svcTableBack
  repeat' first
    | with_reducible assumption
    | exact mask_sub (by decide) hm
    | with_reducible apply State.setPair_keeps
    | (intro _)

theorem State.svcTableCommit_keeps {m : Nat} {z s : State} (h0 : Keeps m z s) (hm : 0x10000010000000 &&& m = 0x10000010000000) (v : BitVec 32) : Keeps m z (State.svcTableCommit s v) := by
  unfold State.svcTableCommit
  repeat' first
    | (extract_lets +onlyGivenNames x; refine keeps_cut (m := m) (z := z) (x := x) ?_ (fun hx => ?_); rotate_left; generalize x = y at hx ⊢; clear x; rotate_left; subst x)
    | (extract_lets +onlyGivenNames x; first | (subst x) | skip)
    | with_reducible assumption
    | exact mask_sub (by decide) hm
    | with_reducible apply State.svcTableBack_keeps
    | with_reducible apply State.svcRange_keeps
    | with_reducible apply State.svcAccept_keeps
    | with_reducible apply State.wrRw_keeps
    | (intro _)
    | with_reducible apply keeps_ite
    | (simp only [keeps_mk]; refine keeps_upd ?_ ?_ ?_ ?_ ?_ ?_ ?_ ?_ ?_ ?_ ?_ ?_ ?_ ?_ ?_ ?_ ?_ ?_ ?_ ?_ ?_ ?_ ?_ ?_ ?_ ?_ ?_ ?_ ?_ ?_ ?_ ?_ ?_ ?_ ?_ ?_ ?_ <;> first | exact same_rfl | exact same_bit (by decide) hm | exact id | exact Fuses.Le.refl _ | exact fun _ => TimeVal.ofCount_ns _ | exact fun h => SMap.wf_filter _ h | exact fun _ => SMap.wf_nil _ _ | skip)

theorem State.svcWrite_keeps {m : Nat} {z s : State} {r : Reg} (h0 : Keeps m z s) (hm : 0x10004010000000 &&& m = 0x10004010000000) (hr_bit : r.bit &&& m = r.bit) (i : Nat) (v : BitVec 32) : Keeps m z (State.svcWrite s r i v) := by
  unfold State.svcWrite
  repeat' first
    | (extract_lets +onlyGivenNames x; refine keeps_cut (m := m) (z := z) (x := x) ?_ (fun hx => ?_); rotate_left; generalize x = y at hx ⊢; clear x; rotate_left; subst x)
    | (extract_lets +onlyGivenNames x; first | (subst x) | skip)
    | with_reducible assumption
    | exact mask_sub (by decide) hm
    | with_reducible apply State.svcTableCommit_keeps
    | with_reducible apply State.svcTableBack_keeps
    | with_reducible apply State.svcCtl_keeps
    | with_reducible apply State.svcPlain_keeps
    | with_reducible apply State.svcAccept_keeps
    | with_reducible apply State.w1c_keeps
    | with_reducible apply State.setB_keeps
    | with_reducible apply State.wr_keeps
    | (intro _)
    | with_reducible apply keeps_ite

theorem State.bumpBy_keeps {m : Nat} {z s : State} {r : Reg} (h0 : Keeps m z s) (hm : 0x0 &&& m = 0x0) (hr_bit : r.bit &&& m = r.bit) (i add : Nat) : Keeps m z (State.bumpBy s r i add) := by
  unfold State.bumpBy
  repeat' first
    | with_reducible assumption
    | exact mask_sub (by decide) hm
    | with_reducible apply State.wr_keeps
    | (intro _)

theorem State.tallyAdd_keeps {m : Nat} {z s : State} (h0 : Keeps m z s) (hm : 0x10000000000000 &&& m = 0x10000000000000) (cnt k add : Nat) : Keeps m z (State.tallyAdd s cnt k add) := by
  unfold State.tallyAdd
  repeat' first
    | with_reducible assumption
    | exact mask_sub (by decide) hm
    | with_reducible apply State.bumpBy_keeps
    | (intro _)
    | with_reducible apply keeps_ite

theorem State.tallyWrite_keeps {m : Nat} {z s : State} (h0 : Keeps m z s) (hm : 0x10000000000000 &&& m = 0x10000000000000) (v : BitVec 32) : Keeps m z (State.tallyWrite s v) := by
  unfold State.tallyWrite
  repeat' first
    | (extract_lets +onlyGivenNames x; refine keeps_cut (m := m) (z := z) (x := x) ?_ (fun hx => ?_); rotate_left; generalize x = y at hx ⊢; clear x; rotate_left; subst x)
    | (extract_lets +onlyGivenNames x; first | (subst x) | skip)
    | with_reducible assumption
    | exact mask_sub (by decide) hm
    | with_reducible apply State.tallyAdd_keeps
    | with_reducible apply State.svcRange_keeps
    | with_reducible apply State.svcAccept_keeps
    | (intro _)
    | with_reducible apply keeps_ite

theorem State.tally_keeps {m : Nat} {z s : State} (h0 : Keeps m z s) (hm : 0x10000000000000 &&& m = 0x10000000000000) (cnt k : Nat) : Keeps m z (State.tally s cnt k) := by
  unfold State.tally
  repeat' first
    | with_reducible assumption
    | exact mask_sub (by decide) hm
    | with_reducible apply State.tallyAdd_keeps
    | (intro _)

theorem State.svcDone_keeps {m : Nat} {z s : State} (h0 : Keeps m z s) (hm : 0x500 &&& m = 0x500) (th h : Nat) : Keeps m z (State.svcDone s th h) := by
  unfold State.svcDone
  repeat' first
    | (extract_lets +onlyGivenNames x; refine keeps_cut (m := m) (z := z) (x := x) ?_ (fun hx => ?_); rotate_left; generalize x = y at hx ⊢; clear x; rotate_left; subst x)
    | (extract_lets +onlyGivenNames x; first | (subst x) | skip)
    | with_reducible assumption
    | exact mask_sub (by decide) hm
    | with_reducible apply State.freeFrame_keeps
    | with_reducible apply State.setThread_keeps
    | (intro _)

theorem State.svcAlloc_keeps {m : Nat} {z s : State} (h0 : Keeps m z s) (hm : 0x15020402 &&& m = 0x15020402) {th : Nat} {bs : List Byte} {times : List RecTime} {bounds : List Tag} {r : Nat × State} (e0 : State.svcAlloc s th bs times bounds = some r) : Keeps m z r.2 := by
  unfold State.svcAlloc at e0
  revert e0
  repeat' first
    | (extract_lets +onlyGivenNames x; refine keeps_cut (m := m) (z := z) (x := x) ?_ (fun hx => ?_); rotate_left; generalize x = y at hx ⊢; clear x; rotate_left; subst x)
    | (extract_lets +onlyGivenNames x; first | (subst x) | skip)
    | with_reducible assumption
    | exact mask_sub (by decide) hm
    | with_reducible apply State.storeData_keeps
    | with_reducible refine State.allocFrame_keeps (r := (_, _)) ?_ ?_ (by assumption)
    | (split)
    | (intro e0; cases e0; first | done | dsimp only | skip)
    | (simp only [keeps_mk]; refine keeps_upd ?_ ?_ ?_ ?_ ?_ ?_ ?_ ?_ ?_ ?_ ?_ ?_ ?_ ?_ ?_ ?_ ?_ ?_ ?_ ?_ ?_ ?_ ?_ ?_ ?_ ?_ ?_ ?_ ?_ ?_ ?_ ?_ ?_ ?_ ?_ ?_ ?_ <;> first | exact same_rfl | exact same_bit (by decide) hm | exact id | exact Fuses.Le.refl _ | exact fun _ => TimeVal.ofCount_ns _ | exact fun h => SMap.wf_filter _ h | exact fun _ => SMap.wf_nil _ _ | skip)
    | (with_reducible apply keeps_pair)

theorem State.svcSend_keeps {m : Nat} {z s : State} (h0 : Keeps m z s) (hm : 0x6821511D034582 &&& m = 0x6821511D034582) (th n : Nat) (bs : List Byte) (bounds : List Tag) (sentTs : Bool) : Keeps m z (State.svcSend s th n bs bounds sentTs).1 := by
  unfold State.svcSend
  repeat' first
    | (extract_lets +onlyGivenNames x; refine keeps_cut (m := m) (z := z) (x := x) ?_ (fun hx => ?_); rotate_left; generalize x = y at hx ⊢; clear x; rotate_left; subst x)
    | (extract_lets +onlyGivenNames x; first | (subst x) | skip)
    | with_reducible assumption
    | exact mask_sub (by decide) hm
    | (dsimp only; exact mask_sub (by decide) hm)
    | with_reducible refine State.svcAlloc_keeps (r := (_, _)) ?_ ?_ (by assumption)
    | with_reducible apply State.portSend_keeps
    | with_reducible refine keeps_of_fst (by assumption) (State.portSend_keeps ?_ ?_ ..)
    | with_reducible apply State.freeFrame_keeps
    | (intro _)
    | with_reducible apply keeps_ite
    | with_reducible apply keeps_ite_fst
    | (split)
    | (with_reducible apply keeps_pair)

theorem State.recPut_keeps {m : Nat} {z s : State} (h0 : Keeps m z s) (hm : 0x4020002 &&& m = 0x4020002) (i off n v : Nat) : Keeps m z (State.recPut s i off n v) := by
  unfold State.recPut
  repeat' first
    | with_reducible assumption
    | exact mask_sub (by decide) hm
    | with_reducible apply State.storeData_keeps
    | (intro _)

theorem State.svcRecord_keeps {m : Nat} {z s : State} (h0 : Keeps m z s) (hm : 0x4020002 &&& m = 0x4020002) (c : SvcClient) (cls keyid : Nat) : Keeps m z (State.svcRecord s c cls keyid).1 := by
  unfold State.svcRecord
  repeat' first
    | (extract_lets +onlyGivenNames x; refine keeps_cut (m := m) (z := z) (x := x) ?_ (fun hx => ?_); rotate_left; generalize x = y at hx ⊢; clear x; rotate_left; subst x)
    | (extract_lets +onlyGivenNames x; first | (subst x) | skip)
    | with_reducible assumption
    | exact mask_sub (by decide) hm
    | with_reducible apply State.storeData_keeps
    | (intro _)
    | (split)
    | (with_reducible apply keeps_pair)

theorem State.svcCancels_keeps {m : Nat} {z s : State} (h0 : Keeps m z s) (hm : 0x10000000 &&& m = 0x10000000) (c old new : Nat) : Keeps m z (State.svcCancels s c old new) := by
  unfold State.svcCancels
  repeat' first
    | (extract_lets +onlyGivenNames x; refine keeps_cut (m := m) (z := z) (x := x) ?_ (fun hx => ?_); rotate_left; generalize x = y at hx ⊢; clear x; rotate_left; subst x)
    | (extract_lets +onlyGivenNames x; first | (subst x) | skip)
    | with_reducible assumption
    | exact mask_sub (by decide) hm
    | (intro _)
    | (simp only [keeps_mk]; refine keeps_upd ?_ ?_ ?_ ?_ ?_ ?_ ?_ ?_ ?_ ?_ ?_ ?_ ?_ ?_ ?_ ?_ ?_ ?_ ?_ ?_ ?_ ?_ ?_ ?_ ?_ ?_ ?_ ?_ ?_ ?_ ?_ ?_ ?_ ?_ ?_ ?_ ?_ <;> first | exact same_rfl | exact same_bit (by decide) hm | exact id | exact Fuses.Le.refl _ | exact fun _ => TimeVal.ofCount_ns _ | exact fun h => SMap.wf_filter _ h | exact fun _ => SMap.wf_nil _ _ | skip)
    | (with_reducible apply keeps_pair)

theorem State.showLoad_keeps {m : Nat} {z s : State} (h0 : Keeps m z s) (hm : 0x10000000000000 &&& m = 0x10000000000000) (c : Nat) : Keeps m z (State.showLoad s c) := by
  unfold State.showLoad
  repeat' first
    | with_reducible assumption
    | exact mask_sub (by decide) hm
    | with_reducible apply State.wr_keeps
    | (intro _)

theorem State.shedRaise_keeps {m : Nat} {z s : State} (h0 : Keeps m z s) (hm : 0x10000010000000 &&& m = 0x10000010000000) (c : Nat) : Keeps m z (State.shedRaise s c) := by
  unfold State.shedRaise
  repeat' first
    | (extract_lets +onlyGivenNames x; refine keeps_cut (m := m) (z := z) (x := x) ?_ (fun hx => ?_); rotate_left; generalize x = y at hx ⊢; clear x; rotate_left; subst x)
    | (extract_lets +onlyGivenNames x; first | (subst x) | skip)
    | with_reducible assumption
    | exact mask_sub (by decide) hm
    | with_reducible apply State.showLoad_keeps
    | with_reducible apply State.svcCancels_keeps
    | with_reducible apply State.setF_keeps
    | (with_reducible apply keeps_getD)
    | (intro _)
    | with_reducible apply keeps_ite

theorem State.shedLower_keeps {m : Nat} {z s : State} (h0 : Keeps m z s) (hm : 0x10000010000000 &&& m = 0x10000010000000) : Keeps m z (State.shedLower s) := by
  unfold State.shedLower
  repeat' first
    | (extract_lets +onlyGivenNames x; refine keeps_cut (m := m) (z := z) (x := x) ?_ (fun hx => ?_); rotate_left; generalize x = y at hx ⊢; clear x; rotate_left; subst x)
    | (extract_lets +onlyGivenNames x; first | (subst x) | skip)
    | with_reducible assumption
    | exact mask_sub (by decide) hm
    | with_reducible apply State.showLoad_keeps
    | with_reducible apply State.setF_keeps
    | (with_reducible apply keeps_foldl)
    | (intro _ _ _)
    | (intro _)
    | with_reducible apply keeps_ite
    | with_reducible apply keeps_ite_fst
    | (simp only [keeps_mk]; refine keeps_upd ?_ ?_ ?_ ?_ ?_ ?_ ?_ ?_ ?_ ?_ ?_ ?_ ?_ ?_ ?_ ?_ ?_ ?_ ?_ ?_ ?_ ?_ ?_ ?_ ?_ ?_ ?_ ?_ ?_ ?_ ?_ ?_ ?_ ?_ ?_ ?_ ?_ <;> first | exact same_rfl | exact same_bit (by decide) hm | exact id | exact Fuses.Le.refl _ | exact fun _ => TimeVal.ofCount_ns _ | exact fun h => SMap.wf_filter _ h | exact fun _ => SMap.wf_nil _ _ | skip)
    | (with_reducible apply keeps_pair)

theorem State.addUnits_keeps {m : Nat} {z s : State} (h0 : Keeps m z s) (hm : 0x10000000 &&& m = 0x10000000) (c k u : Nat) : Keeps m z (State.addUnits s c k u) := by
  unfold State.addUnits
  repeat' first
    | (extract_lets +onlyGivenNames x; refine keeps_cut (m := m) (z := z) (x := x) ?_ (fun hx => ?_); rotate_left; generalize x = y at hx ⊢; clear x; rotate_left; subst x)
    | (extract_lets +onlyGivenNames x; first | (subst x) | skip)
    | with_reducible assumption
    | exact mask_sub (by decide) hm
    | (intro _)
    | (simp only [keeps_mk]; refine keeps_upd ?_ ?_ ?_ ?_ ?_ ?_ ?_ ?_ ?_ ?_ ?_ ?_ ?_ ?_ ?_ ?_ ?_ ?_ ?_ ?_ ?_ ?_ ?_ ?_ ?_ ?_ ?_ ?_ ?_ ?_ ?_ ?_ ?_ ?_ ?_ ?_ ?_ <;> first | exact same_rfl | exact same_bit (by decide) hm | exact id | exact Fuses.Le.refl _ | exact fun _ => TimeVal.ofCount_ns _ | exact fun h => SMap.wf_filter _ h | exact fun _ => SMap.wf_nil _ _ | skip)

theorem State.addSpent_keeps {m : Nat} {z s : State} (h0 : Keeps m z s) (hm : 0x10000000 &&& m = 0x10000000) (c k u : Nat) : Keeps m z (State.addSpent s c k u) := by
  unfold State.addSpent
  repeat' first
    | (extract_lets +onlyGivenNames x; refine keeps_cut (m := m) (z := z) (x := x) ?_ (fun hx => ?_); rotate_left; generalize x = y at hx ⊢; clear x; rotate_left; subst x)
    | (extract_lets +onlyGivenNames x; first | (subst x) | skip)
    | with_reducible assumption
    | exact mask_sub (by decide) hm
    | (intro _)
    | (simp only [keeps_mk]; refine keeps_upd ?_ ?_ ?_ ?_ ?_ ?_ ?_ ?_ ?_ ?_ ?_ ?_ ?_ ?_ ?_ ?_ ?_ ?_ ?_ ?_ ?_ ?_ ?_ ?_ ?_ ?_ ?_ ?_ ?_ ?_ ?_ ?_ ?_ ?_ ?_ ?_ ?_ <;> first | exact same_rfl | exact same_bit (by decide) hm | exact id | exact Fuses.Le.refl _ | exact fun _ => TimeVal.ofCount_ns _ | exact fun h => SMap.wf_filter _ h | exact fun _ => SMap.wf_nil _ _ | skip)

theorem State.askedSet_keeps {m : Nat} {z s : State} (h0 : Keeps m z s) (hm : 0x14020002 &&& m = 0x14020002) (i t v : Nat) : Keeps m z (State.askedSet s i t v) := by
  unfold State.askedSet
  repeat' first
    | (extract_lets +onlyGivenNames x; refine keeps_cut (m := m) (z := z) (x := x) ?_ (fun hx => ?_); rotate_left; generalize x = y at hx ⊢; clear x; rotate_left; subst x)
    | (extract_lets +onlyGivenNames x; first | (subst x) | skip)
    | with_reducible assumption
    | exact mask_sub (by decide) hm
    | with_reducible apply State.recPut_keeps
    | (intro _)
    | (simp only [keeps_mk]; refine keeps_upd ?_ ?_ ?_ ?_ ?_ ?_ ?_ ?_ ?_ ?_ ?_ ?_ ?_ ?_ ?_ ?_ ?_ ?_ ?_ ?_ ?_ ?_ ?_ ?_ ?_ ?_ ?_ ?_ ?_ ?_ ?_ ?_ ?_ ?_ ?_ ?_ ?_ <;> first | exact same_rfl | exact same_bit (by decide) hm | exact id | exact Fuses.Le.refl _ | exact fun _ => TimeVal.ofCount_ns _ | exact fun h => SMap.wf_filter _ h | exact fun _ => SMap.wf_nil _ _ | skip)

theorem State.svcDecide_keeps {m : Nat} {z s : State} (h0 : Keeps m z s) (hm : 0x10000010000000 &&& m = 0x10000010000000) (c k : Nat) : Keeps m z (State.svcDecide s c k).1 := by
  unfold State.svcDecide
  repeat' first
    | (extract_lets +onlyGivenNames x; refine keeps_cut (m := m) (z := z) (x := x) ?_ (fun hx => ?_); rotate_left; generalize x = y at hx ⊢; clear x; rotate_left; subst x)
    | (extract_lets +onlyGivenNames x; first | (subst x) | skip)
    | with_reducible assumption
    | exact mask_sub (by decide) hm
    | with_reducible apply State.shedRaise_keeps
    | (intro _)
    | (with_reducible apply keeps_pair)

theorem State.keyTouch_keeps {m : Nat} {z s : State} (h0 : Keeps m z s) (hm : 0x10000000 &&& m = 0x10000000) (c h : Nat) : Keeps m z (State.keyTouch s c h) := by
  unfold State.keyTouch
  repeat' first
    | (extract_lets +onlyGivenNames x; refine keeps_cut (m := m) (z := z) (x := x) ?_ (fun hx => ?_); rotate_left; generalize x = y at hx ⊢; clear x; rotate_left; subst x)
    | (extract_lets +onlyGivenNames x; first | (subst x) | skip)
    | with_reducible assumption
    | exact mask_sub (by decide) hm
    | (intro _)
    | (simp only [keeps_mk]; refine keeps_upd ?_ ?_ ?_ ?_ ?_ ?_ ?_ ?_ ?_ ?_ ?_ ?_ ?_ ?_ ?_ ?_ ?_ ?_ ?_ ?_ ?_ ?_ ?_ ?_ ?_ ?_ ?_ ?_ ?_ ?_ ?_ ?_ ?_ ?_ ?_ ?_ ?_ <;> first | exact same_rfl | exact same_bit (by decide) hm | exact id | exact Fuses.Le.refl _ | exact fun _ => TimeVal.ofCount_ns _ | exact fun h => SMap.wf_filter _ h | exact fun _ => SMap.wf_nil _ _ | skip)

theorem State.svcDerive_keeps {m : Nat} {z s : State} (h0 : Keeps m z s) (hm : 0x60215118016080 &&& m = 0x60215118016080) (th slot : Nat) (ctx : List Byte) : Keeps m z (State.svcDerive s th slot ctx).1 := by
  unfold State.svcDerive
  repeat' first
    | (extract_lets +onlyGivenNames x; refine keeps_cut (m := m) (z := z) (x := x) ?_ (fun hx => ?_); rotate_left; generalize x = y at hx ⊢; clear x; rotate_left; subst x)
    | (extract_lets +onlyGivenNames x; first | (subst x) | skip)
    | with_reducible assumption
    | exact mask_sub (by decide) hm
    | (dsimp only; exact mask_sub (by decide) hm)
    | with_reducible apply State.keyTouch_keeps
    | with_reducible apply State.release__keeps
    | with_reducible apply State.derive_keeps
    | with_reducible refine keeps_of_fst (by assumption) (State.derive_keeps ?_ ?_ ..)
    | (intro _)
    | with_reducible apply keeps_ite
    | with_reducible apply keeps_ite_fst
    | (split)
    | (with_reducible apply keeps_pair)

theorem State.clientKey_keeps {m : Nat} {z s : State} (h0 : Keeps m z s) (hm : 0x60215118016080 &&& m = 0x60215118016080) (th : Nat) (ntp : Bool) (id : Nat) (rec_ : Option Nat) : Keeps m z (State.clientKey s th ntp id rec_).1 := by
  unfold State.clientKey
  repeat' first
    | (extract_lets +onlyGivenNames x; refine keeps_cut (m := m) (z := z) (x := x) ?_ (fun hx => ?_); rotate_left; generalize x = y at hx ⊢; clear x; rotate_left; subst x)
    | (extract_lets +onlyGivenNames x; first | (subst x) | skip)
    | with_reducible assumption
    | exact mask_sub (by decide) hm
    | with_reducible apply State.svcDerive_keeps
    | with_reducible refine keeps_of_fst (by assumption) (State.svcDerive_keeps ?_ ?_ ..)
    | with_reducible apply State.keyTouch_keeps
    | (intro _)
    | with_reducible apply keeps_ite
    | with_reducible apply keeps_ite_fst
    | (split)
    | (with_reducible apply keeps_pair)

theorem State.svcTlv_keeps {m : Nat} {z s : State} (h0 : Keeps m z s) (hm : 0x14020002 &&& m = 0x14020002) (rec_ : Option Nat) (k tr : Nat) (x : Nat × List Byte) : Keeps m z (State.svcTlv s rec_ k tr x).1 := by
  unfold State.svcTlv
  repeat' first
    | (extract_lets +onlyGivenNames x; refine keeps_cut (m := m) (z := z) (x := x) ?_ (fun hx => ?_); rotate_left; generalize x = y at hx ⊢; clear x; rotate_left; subst x)
    | (extract_lets +onlyGivenNames x; first | (subst x) | skip)
    | with_reducible assumption
    | exact mask_sub (by decide) hm
    | (dsimp only; exact mask_sub (by decide) hm)
    | with_reducible apply State.askedSet_keeps
    | with_reducible apply State.recPut_keeps
    | (with_reducible apply keeps_getD)
    | (intro _)
    | with_reducible apply keeps_ite
    | with_reducible apply keeps_ite_fst
    | (split)
    | (with_reducible apply keeps_pair)

theorem State.svcAsk_keeps {m : Nat} {z s : State} (h0 : Keeps m z s) (hm : 0x14020002 &&& m = 0x14020002) (i k : Nat) (x : Nat × List Byte) : Keeps m z (State.svcAsk s i k x) := by
  unfold State.svcAsk
  repeat' first
    | (extract_lets +onlyGivenNames x; refine keeps_cut (m := m) (z := z) (x := x) ?_ (fun hx => ?_); rotate_left; generalize x = y at hx ⊢; clear x; rotate_left; subst x)
    | (extract_lets +onlyGivenNames x; first | (subst x) | skip)
    | with_reducible assumption
    | exact mask_sub (by decide) hm
    | with_reducible apply State.askedSet_keeps
    | (with_reducible apply keeps_getD)
    | (intro _)
    | with_reducible apply keeps_ite
    | with_reducible apply keeps_ite_fst
    | (split)
    | (with_reducible apply keeps_pair)

theorem State.recSeen_keeps {m : Nat} {z s : State} (h0 : Keeps m z s) (hm : 0x4020002 &&& m = 0x4020002) (i seqOff seq : Nat) : Keeps m z (State.recSeen s i seqOff seq) := by
  unfold State.recSeen
  repeat' first
    | (extract_lets +onlyGivenNames x; refine keeps_cut (m := m) (z := z) (x := x) ?_ (fun hx => ?_); rotate_left; generalize x = y at hx ⊢; clear x; rotate_left; subst x)
    | (extract_lets +onlyGivenNames x; first | (subst x) | skip)
    | with_reducible assumption
    | exact mask_sub (by decide) hm
    | with_reducible apply State.recPut_keeps
    | (intro _)
    | with_reducible apply keeps_ite

theorem State.recSent_keeps {m : Nat} {z s : State} (h0 : Keeps m z s) (hm : 0x4020002 &&& m = 0x4020002) (i : Nat) : Keeps m z (State.recSent s i) := by
  unfold State.recSent
  repeat' first
    | with_reducible assumption
    | exact mask_sub (by decide) hm
    | with_reducible apply State.recPut_keeps
    | (intro _)

theorem State.ptpCheck_keeps {m : Nat} {z s : State} (h0 : Keeps m z s) (hm : 0x60215118016080 &&& m = 0x60215118016080) (th n : Nat) (p : SvcPkt) (rec_ : Option Nat) : Keeps m z (State.ptpCheck s th n p rec_).1 := by
  unfold State.ptpCheck
  repeat' first
    | (extract_lets +onlyGivenNames x; refine keeps_cut (m := m) (z := z) (x := x) ?_ (fun hx => ?_); rotate_left; generalize x = y at hx ⊢; clear x; rotate_left; subst x)
    | (extract_lets +onlyGivenNames x; first | (subst x) | skip)
    | with_reducible assumption
    | exact mask_sub (by decide) hm
    | with_reducible apply State.clientKey_keeps
    | with_reducible refine keeps_of_fst (by assumption) (State.clientKey_keeps ?_ ?_ ..)
    | (intro _)
    | with_reducible apply keeps_ite
    | with_reducible apply keeps_ite_fst
    | (split)
    | (with_reducible apply keeps_pair)

theorem State.signalReply_keeps {m : Nat} {z s : State} (h0 : Keeps m z s) (hm : 0x6821511D034582 &&& m = 0x6821511D034582) (th n : Nat) (p : SvcPkt) (key : Option (Nat × List Byte)) (tl : List Byte) : Keeps m z (State.signalReply s th n p key tl) := by
  unfold State.signalReply
  repeat' first
    | with_reducible assumption
    | exact mask_sub (by decide) hm
    | with_reducible apply State.svcSend_keeps
    | with_reducible refine keeps_of_fst (by assumption) (State.svcSend_keeps ?_ ?_ ..)
    | (intro _)

theorem State.signalRefuse_keeps {m : Nat} {z s : State} (h0 : Keeps m z s) (hm : 0x7821511D034582 &&& m = 0x7821511D034582) (th n : Nat) (p : SvcPkt) (key : Option (Nat × List Byte)) : Keeps m z (State.signalRefuse s th n p key) := by
  unfold State.signalRefuse
  repeat' first
    | (extract_lets +onlyGivenNames x; refine keeps_cut (m := m) (z := z) (x := x) ?_ (fun hx => ?_); rotate_left; generalize x = y at hx ⊢; clear x; rotate_left; subst x)
    | (extract_lets +onlyGivenNames x; first | (subst x) | skip)
    | with_reducible assumption
    | exact mask_sub (by decide) hm
    | with_reducible apply State.signalReply_keeps
    | with_reducible apply State.svcTlv_keeps
    | with_reducible refine keeps_of_fst (by assumption) (State.svcTlv_keeps ?_ ?_ ..)
    | with_reducible apply State.addSpent_keeps
    | with_reducible apply State.tally_keeps
    | (with_reducible apply keeps_foldl)
    | (intro _ _ _)
    | (intro _)

theorem State.signalGrant_keeps {m : Nat} {z s : State} (h0 : Keeps m z s) (hm : 0x7821511D034582 &&& m = 0x7821511D034582) (th n : Nat) (p : SvcPkt) (i k id : Nat) (hk : Option (Nat × List Byte)) : Keeps m z (State.signalGrant s th n p i k id hk) := by
  unfold State.signalGrant
  repeat' first
    | (extract_lets +onlyGivenNames x; refine keeps_cut (m := m) (z := z) (x := x) ?_ (fun hx => ?_); rotate_left; generalize x = y at hx ⊢; clear x; rotate_left; subst x)
    | (extract_lets +onlyGivenNames x; first | (subst x) | skip)
    | with_reducible assumption
    | exact mask_sub (by decide) hm
    | (dsimp only; exact mask_sub (by decide) hm)
    | with_reducible apply State.signalReply_keeps
    | with_reducible apply State.recSent_keeps
    | with_reducible apply State.recSeen_keeps
    | with_reducible apply State.svcAsk_keeps
    | with_reducible apply State.svcTlv_keeps
    | with_reducible refine keeps_of_fst (by assumption) (State.svcTlv_keeps ?_ ?_ ..)
    | with_reducible apply State.svcDecide_keeps
    | with_reducible refine keeps_of_fst (by assumption) (State.svcDecide_keeps ?_ ?_ ..)
    | with_reducible apply State.addSpent_keeps
    | with_reducible apply State.addUnits_keeps
    | with_reducible apply State.recPut_keeps
    | with_reducible apply State.tally_keeps
    | (with_reducible apply keeps_foldl)
    | (with_reducible apply keeps_foldl_fst)
    | (intro _ _ _)
    | (intro _)
    | with_reducible apply keeps_ite
    | with_reducible apply keeps_ite_fst
    | (split)
    | (with_reducible apply keeps_pair)

theorem State.signalAdmit_keeps {m : Nat} {z s : State} (h0 : Keeps m z s) (hm : 0x7821511D034582 &&& m = 0x7821511D034582) (th n : Nat) (p : SvcPkt) (found : Option Nat) (k id : Nat) (hk : Option (Nat × List Byte)) : Keeps m z (State.signalAdmit s th n p found k id hk) := by
  unfold State.signalAdmit
  repeat' first
    | (extract_lets +onlyGivenNames x; refine keeps_cut (m := m) (z := z) (x := x) ?_ (fun hx => ?_); rotate_left; generalize x = y at hx ⊢; clear x; rotate_left; subst x)
    | (extract_lets +onlyGivenNames x; first | (subst x) | skip)
    | with_reducible assumption
    | exact mask_sub (by decide) hm
    | with_reducible apply State.signalGrant_keeps
    | with_reducible apply State.signalRefuse_keeps
    | with_reducible apply State.svcRecord_keeps
    | with_reducible refine keeps_of_fst (by assumption) (State.svcRecord_keeps ?_ ?_ ..)
    | with_reducible apply State.tally_keeps
    | (intro _)
    | with_reducible apply keeps_ite
    | with_reducible apply keeps_ite_fst
    | (split)
    | (with_reducible apply keeps_pair)

theorem State.signalServe_keeps {m : Nat} {z s : State} (h0 : Keeps m z s) (hm : 0x7821511D036582 &&& m = 0x7821511D036582) (n h : Nat) : Keeps m z (State.signalServe s n h) := by
  unfold State.signalServe
  repeat' first
    | (extract_lets +onlyGivenNames x; refine keeps_cut (m := m) (z := z) (x := x) ?_ (fun hx => ?_); rotate_left; generalize x = y at hx ⊢; clear x; rotate_left; subst x)
    | (extract_lets +onlyGivenNames x; first | (subst x) | skip)
    | with_reducible assumption
    | exact mask_sub (by decide) hm
    | with_reducible apply State.signalAdmit_keeps
    | with_reducible apply State.signalRefuse_keeps
    | with_reducible apply State.ptpCheck_keeps
    | with_reducible refine keeps_of_fst (by assumption) (State.ptpCheck_keeps ?_ ?_ ..)
    | with_reducible apply State.svcDone_keeps
    | with_reducible apply State.tally_keeps
    | (intro _)
    | with_reducible apply keeps_ite
    | with_reducible apply keeps_ite_fst
    | (split)
    | (with_reducible apply keeps_pair)

theorem State.delayServe_keeps {m : Nat} {z s : State} (h0 : Keeps m z s) (hm : 0x7821511D036582 &&& m = 0x7821511D036582) (n h : Nat) : Keeps m z (State.delayServe s n h) := by
  unfold State.delayServe
  repeat' first
    | (extract_lets +onlyGivenNames x; refine keeps_cut (m := m) (z := z) (x := x) ?_ (fun hx => ?_); rotate_left; generalize x = y at hx ⊢; clear x; rotate_left; subst x)
    | (extract_lets +onlyGivenNames x; first | (subst x) | skip)
    | with_reducible assumption
    | exact mask_sub (by decide) hm
    | (dsimp only; exact mask_sub (by decide) hm)
    | with_reducible apply State.ptpCheck_keeps
    | with_reducible refine keeps_of_fst (by assumption) (State.ptpCheck_keeps ?_ ?_ ..)
    | with_reducible apply State.recSent_keeps
    | with_reducible apply State.recSeen_keeps
    | with_reducible apply State.recPut_keeps
    | with_reducible apply State.svcSend_keeps
    | with_reducible refine keeps_of_fst (by assumption) (State.svcSend_keeps ?_ ?_ ..)
    | with_reducible apply State.svcDone_keeps
    | with_reducible apply State.tally_keeps
    | (intro _)
    | with_reducible apply keeps_ite
    | with_reducible apply keeps_ite_fst
    | (simp only [keeps_mk]; refine keeps_upd ?_ ?_ ?_ ?_ ?_ ?_ ?_ ?_ ?_ ?_ ?_ ?_ ?_ ?_ ?_ ?_ ?_ ?_ ?_ ?_ ?_ ?_ ?_ ?_ ?_ ?_ ?_ ?_ ?_ ?_ ?_ ?_ ?_ ?_ ?_ ?_ ?_ <;> first | exact same_rfl | exact same_bit (by decide) hm | exact id | exact Fuses.Le.refl _ | exact fun _ => TimeVal.ofCount_ns _ | exact fun h => SMap.wf_filter _ h | exact fun _ => SMap.wf_nil _ _ | skip)
    | (split)
    | (with_reducible apply keeps_pair)

theorem State.svcSlot_keeps {m : Nat} {z s : State} (h0 : Keeps m z s) (hm : 0x200000000 &&& m = 0x200000000) (th : Nat) : Keeps m z (State.svcSlot s th).1 := by
  unfold State.svcSlot
  repeat' first
    | (extract_lets +onlyGivenNames x; refine keeps_cut (m := m) (z := z) (x := x) ?_ (fun hx => ?_); rotate_left; generalize x = y at hx ⊢; clear x; rotate_left; subst x)
    | (extract_lets +onlyGivenNames x; first | (subst x) | skip)
    | with_reducible assumption
    | exact mask_sub (by decide) hm
    | with_reducible apply State.claim_keeps
    | with_reducible refine keeps_of_fst (by assumption) (State.claim_keeps ?_ ?_ ..)
    | (intro _)
    | (split)
    | (with_reducible apply keeps_pair)

theorem State.trainPoint_keeps {m : Nat} {z s : State} (h0 : Keeps m z s) (hm : 0x110000000 &&& m = 0x110000000) {n len : Nat} {from_ : TimeVal} {r : TimeVal × State} (e0 : State.trainPoint s n len from_ = some r) : Keeps m z r.2 := by
  unfold State.trainPoint at e0
  revert e0
  repeat' first
    | (extract_lets +onlyGivenNames x; refine keeps_cut (m := m) (z := z) (x := x) ?_ (fun hx => ?_); rotate_left; generalize x = y at hx ⊢; clear x; rotate_left; subst x)
    | (extract_lets +onlyGivenNames x; first | (subst x) | skip)
    | with_reducible assumption
    | exact mask_sub (by decide) hm
    | (dsimp only; exact mask_sub (by decide) hm)
    | with_reducible apply State.fresh_keeps
    | with_reducible refine keeps_of_snd (by assumption) (State.fresh_keeps ?_ ?_ ..)
    | (split)
    | (intro e0; cases e0; first | done | dsimp only | skip)
    | with_reducible apply keeps_ite
    | with_reducible apply keeps_ite_fst
    | (intro _)
    | (simp only [keeps_mk]; refine keeps_upd ?_ ?_ ?_ ?_ ?_ ?_ ?_ ?_ ?_ ?_ ?_ ?_ ?_ ?_ ?_ ?_ ?_ ?_ ?_ ?_ ?_ ?_ ?_ ?_ ?_ ?_ ?_ ?_ ?_ ?_ ?_ ?_ ?_ ?_ ?_ ?_ ?_ <;> first | exact same_rfl | exact same_bit (by decide) hm | exact id | exact Fuses.Le.refl _ | exact fun _ => TimeVal.ofCount_ns _ | exact fun h => SMap.wf_filter _ h | exact fun _ => SMap.wf_nil _ _ | skip)
    | (with_reducible apply keeps_pair)

theorem State.svcLaunch_keeps {m : Nat} {z s : State} (h0 : Keeps m z s) (hm : 0x6021531D034C82 &&& m = 0x6021531D034C82) (th n len : Nat) (from_ : TimeVal) (mk : TimeVal → List Byte × List Tag) : Keeps m z (State.svcLaunch s th n len from_ mk).1 := by
  unfold State.svcLaunch
  repeat' first
    | (extract_lets +onlyGivenNames x; refine keeps_cut (m := m) (z := z) (x := x) ?_ (fun hx => ?_); rotate_left; generalize x = y at hx ⊢; clear x; rotate_left; subst x)
    | (extract_lets +onlyGivenNames x; first | (subst x) | skip)
    | with_reducible assumption
    | exact mask_sub (by decide) hm
    | (dsimp only; exact mask_sub (by decide) hm)
    | with_reducible refine State.trainPoint_keeps (r := (_, _)) ?_ ?_ (by assumption)
    | with_reducible apply State.svcSlot_keeps
    | with_reducible refine keeps_of_fst (by assumption) (State.svcSlot_keeps ?_ ?_ ..)
    | with_reducible refine State.svcAlloc_keeps (r := (_, _)) ?_ ?_ (by assumption)
    | with_reducible apply State.launchSend_keeps
    | with_reducible refine keeps_of_fst (by assumption) (State.launchSend_keeps ?_ ?_ ..)
    | with_reducible apply State.freeFrame_keeps
    | (intro _)
    | with_reducible apply keeps_ite
    | with_reducible apply keeps_ite_fst
    | (split)
    | (with_reducible apply keeps_pair)

theorem State.ntpKiss_keeps {m : Nat} {z s : State} (h0 : Keeps m z s) (hm : 0x6821511D034582 &&& m = 0x6821511D034582) (n : Nat) (p : SvcPkt) (rx : TimeVal) (code tail : List Byte) (mac : Option (Nat × List Byte)) : Keeps m z (State.ntpKiss s n p rx code tail mac) := by
  unfold State.ntpKiss
  repeat' first
    | (extract_lets +onlyGivenNames x; refine keeps_cut (m := m) (z := z) (x := x) ?_ (fun hx => ?_); rotate_left; generalize x = y at hx ⊢; clear x; rotate_left; subst x)
    | (extract_lets +onlyGivenNames x; first | (subst x) | skip)
    | with_reducible assumption
    | exact mask_sub (by decide) hm
    | (dsimp only; exact mask_sub (by decide) hm)
    | with_reducible apply State.svcSend_keeps
    | with_reducible refine keeps_of_fst (by assumption) (State.svcSend_keeps ?_ ?_ ..)
    | with_reducible apply State.fresh_keeps
    | with_reducible refine keeps_of_snd (by assumption) (State.fresh_keeps ?_ ?_ ..)
    | (intro _)
    | (split)
    | (with_reducible apply keeps_pair)

theorem State.ntpLaunch_keeps {m : Nat} {z s : State} (h0 : Keeps m z s) (hm : 0x6021531D034C82 &&& m = 0x6021531D034C82) (n : Nat) (p : SvcPkt) (poll : Nat) (rx : TimeVal) (ok : Bool) (before : List Byte) (tail : List Byte → List Byte) (from_ : TimeVal) : Keeps m z (State.ntpLaunch s n p poll rx ok before tail from_).1 := by
  unfold State.ntpLaunch
  repeat' first
    | (extract_lets +onlyGivenNames x; refine keeps_cut (m := m) (z := z) (x := x) ?_ (fun hx => ?_); rotate_left; generalize x = y at hx ⊢; clear x; rotate_left; subst x)
    | (extract_lets +onlyGivenNames x; first | (subst x) | skip)
    | with_reducible assumption
    | exact mask_sub (by decide) hm
    | (dsimp only; exact mask_sub (by decide) hm)
    | with_reducible apply State.svcLaunch_keeps
    | with_reducible refine keeps_of_fst (by assumption) (State.svcLaunch_keeps ?_ ?_ ..)
    | with_reducible apply State.fresh_keeps
    | with_reducible refine keeps_of_snd (by assumption) (State.fresh_keeps ?_ ?_ ..)
    | (intro _)
    | with_reducible apply keeps_ite
    | with_reducible apply keeps_ite_fst
    | (split)
    | (with_reducible apply keeps_pair)

theorem State.ntpServe_keeps {m : Nat} {z s : State} (h0 : Keeps m z s) (hm : 0x7821531D036D82 &&& m = 0x7821531D036D82) (n h : Nat) : Keeps m z (State.ntpServe s n h) := by
  unfold State.ntpServe
  repeat' first
    | (extract_lets +onlyGivenNames x; refine keeps_cut (m := m) (z := z) (x := x) ?_ (fun hx => ?_); rotate_left; generalize x = y at hx ⊢; clear x; rotate_left; subst x)
    | (extract_lets +onlyGivenNames x; first | (subst x) | skip)
    | with_reducible assumption
    | exact mask_sub (by decide) hm
    | (dsimp only; exact mask_sub (by decide) hm)
    | with_reducible apply State.ntpLaunch_keeps
    | with_reducible refine keeps_of_fst (by assumption) (State.ntpLaunch_keeps ?_ ?_ ..)
    | with_reducible apply State.ntpKiss_keeps
    | with_reducible apply State.recSent_keeps
    | with_reducible apply State.recSeen_keeps
    | with_reducible apply State.clientKey_keeps
    | with_reducible refine keeps_of_fst (by assumption) (State.clientKey_keeps ?_ ?_ ..)
    | with_reducible apply State.svcDecide_keeps
    | with_reducible refine keeps_of_fst (by assumption) (State.svcDecide_keeps ?_ ?_ ..)
    | with_reducible apply State.askedSet_keeps
    | with_reducible apply State.addSpent_keeps
    | with_reducible apply State.addUnits_keeps
    | with_reducible apply State.svcRecord_keeps
    | with_reducible refine keeps_of_fst (by assumption) (State.svcRecord_keeps ?_ ?_ ..)
    | with_reducible apply State.recPut_keeps
    | with_reducible apply State.svcDone_keeps
    | with_reducible apply State.tally_keeps
    | (intro _)
    | with_reducible apply keeps_ite
    | with_reducible apply keeps_ite_fst
    | (split)
    | (with_reducible apply keeps_pair)

theorem State.cookieNonce_keeps {m : Nat} {z s : State} (h0 : Keeps m z s) (hm : 0x10000000 &&& m = 0x10000000) (c cls : Nat) : Keeps m z (State.cookieNonce s c cls).2 := by
  unfold State.cookieNonce
  repeat' first
    | (extract_lets +onlyGivenNames x; refine keeps_cut (m := m) (z := z) (x := x) ?_ (fun hx => ?_); rotate_left; generalize x = y at hx ⊢; clear x; rotate_left; subst x)
    | (extract_lets +onlyGivenNames x; first | (subst x) | skip)
    | with_reducible assumption
    | exact mask_sub (by decide) hm
    | (intro _)
    | (simp only [keeps_mk]; refine keeps_upd ?_ ?_ ?_ ?_ ?_ ?_ ?_ ?_ ?_ ?_ ?_ ?_ ?_ ?_ ?_ ?_ ?_ ?_ ?_ ?_ ?_ ?_ ?_ ?_ ?_ ?_ ?_ ?_ ?_ ?_ ?_ ?_ ?_ ?_ ?_ ?_ ?_ <;> first | exact same_rfl | exact same_bit (by decide) hm | exact id | exact Fuses.Le.refl _ | exact fun _ => TimeVal.ofCount_ns _ | exact fun h => SMap.wf_filter _ h | exact fun _ => SMap.wf_nil _ _ | skip)
    | (with_reducible apply keeps_pair)

theorem State.makeCookie_keeps {m : Nat} {z s : State} (h0 : Keeps m z s) (hm : 0x10000000 &&& m = 0x10000000) (c cls g : Nat) (key c2s s2c : List Byte) : Keeps m z (State.makeCookie s c cls g key c2s s2c).2 := by
  unfold State.makeCookie
  repeat' first
    | (extract_lets +onlyGivenNames x; refine keeps_cut (m := m) (z := z) (x := x) ?_ (fun hx => ?_); rotate_left; generalize x = y at hx ⊢; clear x; rotate_left; subst x)
    | (extract_lets +onlyGivenNames x; first | (subst x) | skip)
    | with_reducible assumption
    | exact mask_sub (by decide) hm
    | (dsimp only; exact mask_sub (by decide) hm)
    | with_reducible apply State.cookieNonce_keeps
    | with_reducible refine keeps_of_snd (by assumption) (State.cookieNonce_keeps ?_ ?_ ..)
    | (intro _)
    | (split)
    | (with_reducible apply keeps_pair)

theorem State.makeCookies_keeps {m : Nat} {z s : State} (h : Keeps m z s) (hm : 0x10000000 &&& m = 0x10000000) (c cls g : Nat)
    (key c2s s2c : List Byte) (n : Nat) : Keeps m z (s.makeCookies c cls g key c2s s2c n).2 := by
  induction n generalizing s with
  | zero => exact h
  | succ k ih =>
    unfold State.makeCookies
    exact ih (State.makeCookie_keeps h (mask_sub (by decide) hm) _ _ _ _ _ _)

theorem State.openCookie_keeps {m : Nat} {z s : State} (h0 : Keeps m z s) (hm : 0x60215118016080 &&& m = 0x60215118016080) (th : Nat) (cookie : List Byte) : Keeps m z (State.openCookie s th cookie).1 := by
  unfold State.openCookie
  repeat' first
    | (extract_lets +onlyGivenNames x; refine keeps_cut (m := m) (z := z) (x := x) ?_ (fun hx => ?_); rotate_left; generalize x = y at hx ⊢; clear x; rotate_left; subst x)
    | (extract_lets +onlyGivenNames x; first | (subst x) | skip)
    | with_reducible assumption
    | exact mask_sub (by decide) hm
    | with_reducible apply State.svcDerive_keeps
    | with_reducible refine keeps_of_fst (by assumption) (State.svcDerive_keeps ?_ ?_ ..)
    | with_reducible apply State.release__keeps
    | (intro _)
    | (split)
    | (with_reducible apply keeps_pair)

theorem State.ntsServe_keeps {m : Nat} {z s : State} (h0 : Keeps m z s) (hm : 0x7821531D036D82 &&& m = 0x7821531D036D82) (n h : Nat) : Keeps m z (State.ntsServe s n h) := by
  unfold State.ntsServe
  repeat' first
    | (extract_lets +onlyGivenNames x; refine keeps_cut (m := m) (z := z) (x := x) ?_ (fun hx => ?_); rotate_left; generalize x = y at hx ⊢; clear x; rotate_left; subst x)
    | (extract_lets +onlyGivenNames x; first | (subst x) | skip)
    | with_reducible assumption
    | exact mask_sub (by decide) hm
    | (dsimp only; exact mask_sub (by decide) hm)
    | with_reducible apply State.openCookie_keeps
    | with_reducible refine keeps_of_fst (by assumption) (State.openCookie_keeps ?_ ?_ ..)
    | with_reducible apply State.makeCookies_keeps
    | with_reducible refine keeps_of_snd (by assumption) (State.makeCookies_keeps ?_ ?_ ..)
    | with_reducible apply State.cookieNonce_keeps
    | with_reducible refine keeps_of_snd (by assumption) (State.cookieNonce_keeps ?_ ?_ ..)
    | with_reducible apply State.ntpLaunch_keeps
    | with_reducible refine keeps_of_fst (by assumption) (State.ntpLaunch_keeps ?_ ?_ ..)
    | with_reducible apply State.ntpKiss_keeps
    | with_reducible apply State.svcDecide_keeps
    | with_reducible refine keeps_of_fst (by assumption) (State.svcDecide_keeps ?_ ?_ ..)
    | with_reducible apply State.addSpent_keeps
    | with_reducible apply State.addUnits_keeps
    | with_reducible apply State.svcSend_keeps
    | with_reducible refine keeps_of_fst (by assumption) (State.svcSend_keeps ?_ ?_ ..)
    | with_reducible apply State.svcDone_keeps
    | with_reducible apply State.tally_keeps
    | with_reducible apply State.fresh_keeps
    | with_reducible refine keeps_of_snd (by assumption) (State.fresh_keeps ?_ ?_ ..)
    | (with_reducible apply keeps_foldl)
    | (with_reducible apply keeps_foldl_fst)
    | (with_reducible apply keeps_getD)
    | (intro _ _ _)
    | (intro _)
    | with_reducible apply keeps_ite
    | with_reducible apply keeps_ite_fst
    | (simp only [keeps_mk]; refine keeps_upd ?_ ?_ ?_ ?_ ?_ ?_ ?_ ?_ ?_ ?_ ?_ ?_ ?_ ?_ ?_ ?_ ?_ ?_ ?_ ?_ ?_ ?_ ?_ ?_ ?_ ?_ ?_ ?_ ?_ ?_ ?_ ?_ ?_ ?_ ?_ ?_ ?_ <;> first | exact same_rfl | exact same_bit (by decide) hm | exact id | exact Fuses.Le.refl _ | exact fun _ => TimeVal.ofCount_ns _ | exact fun h => SMap.wf_filter _ h | exact fun _ => SMap.wf_nil _ _ | skip)
    | (split)
    | (with_reducible apply keeps_pair)

theorem State.cancelSpread_keeps {m : Nat} {z s : State} (h0 : Keeps m z s) (hm : 0x6821511D036582 &&& m = 0x6821511D036582) : Keeps m z (State.cancelSpread s) := by
  unfold State.cancelSpread
  repeat' first
    | (extract_lets +onlyGivenNames x; refine keeps_cut (m := m) (z := z) (x := x) ?_ (fun hx => ?_); rotate_left; generalize x = y at hx ⊢; clear x; rotate_left; subst x)
    | (extract_lets +onlyGivenNames x; first | (subst x) | skip)
    | with_reducible assumption
    | exact mask_sub (by decide) hm
    | (dsimp only; exact mask_sub (by decide) hm)
    | with_reducible apply State.recSent_keeps
    | with_reducible apply State.clientKey_keeps
    | with_reducible refine keeps_of_fst (by assumption) (State.clientKey_keeps ?_ ?_ ..)
    | with_reducible apply State.recPut_keeps
    | with_reducible apply State.svcSend_keeps
    | with_reducible refine keeps_of_fst (by assumption) (State.svcSend_keeps ?_ ?_ ..)
    | (with_reducible apply keeps_foldl)
    | (with_reducible apply keeps_foldl_fst)
    | (intro _ _ _)
    | (intro _)
    | with_reducible apply keeps_ite
    | with_reducible apply keeps_ite_fst
    | (simp only [keeps_mk]; refine keeps_upd ?_ ?_ ?_ ?_ ?_ ?_ ?_ ?_ ?_ ?_ ?_ ?_ ?_ ?_ ?_ ?_ ?_ ?_ ?_ ?_ ?_ ?_ ?_ ?_ ?_ ?_ ?_ ?_ ?_ ?_ ?_ ?_ ?_ ?_ ?_ ?_ ?_ <;> first | exact same_rfl | exact same_bit (by decide) hm | exact id | exact Fuses.Le.refl _ | exact fun _ => TimeVal.ofCount_ns _ | exact fun h => SMap.wf_filter _ h | exact fun _ => SMap.wf_nil _ _ | skip)
    | (split)
    | (with_reducible apply keeps_pair)

theorem State.recordFree_keeps {m : Nat} {z s : State} (h0 : Keeps m z s) (hm : 0x14020002 &&& m = 0x14020002) (i : Nat) : Keeps m z (State.recordFree s i) := by
  unfold State.recordFree
  repeat' first
    | (extract_lets +onlyGivenNames x; refine keeps_cut (m := m) (z := z) (x := x) ?_ (fun hx => ?_); rotate_left; generalize x = y at hx ⊢; clear x; rotate_left; subst x)
    | (extract_lets +onlyGivenNames x; first | (subst x) | skip)
    | with_reducible assumption
    | exact mask_sub (by decide) hm
    | with_reducible apply State.askedSet_keeps
    | with_reducible apply State.storeData_keeps
    | (with_reducible apply keeps_foldl)
    | (intro _ _ _)
    | (intro _)
    | with_reducible apply keeps_ite

theorem State.dropNotices_keeps {m : Nat} {z s : State} (h0 : Keeps m z s) (hm : 0x100 &&& m = 0x100) (th : Nat) (p : Notice → Bool) : Keeps m z (State.dropNotices s th p) := by
  unfold State.dropNotices
  repeat' first
    | (extract_lets +onlyGivenNames x; refine keeps_cut (m := m) (z := z) (x := x) ?_ (fun hx => ?_); rotate_left; generalize x = y at hx ⊢; clear x; rotate_left; subst x)
    | (extract_lets +onlyGivenNames x; first | (subst x) | skip)
    | with_reducible assumption
    | exact mask_sub (by decide) hm
    | with_reducible apply State.setThread_keeps
    | (intro _)

theorem State.syncKey_keeps {m : Nat} {z s : State} (h0 : Keeps m z s) (hm : 0x60215118016080 &&& m = 0x60215118016080) (th n : Nat) (p : SvcPkt) : Keeps m z (State.syncKey s th n p).1 := by
  unfold State.syncKey
  repeat' first
    | (extract_lets +onlyGivenNames x; refine keeps_cut (m := m) (z := z) (x := x) ?_ (fun hx => ?_); rotate_left; generalize x = y at hx ⊢; clear x; rotate_left; subst x)
    | (extract_lets +onlyGivenNames x; first | (subst x) | skip)
    | with_reducible assumption
    | exact mask_sub (by decide) hm
    | with_reducible apply State.clientKey_keeps
    | with_reducible refine keeps_of_fst (by assumption) (State.clientKey_keeps ?_ ?_ ..)
    | (intro _)
    | with_reducible apply keeps_ite
    | with_reducible apply keeps_ite_fst
    | (split)
    | (with_reducible apply keeps_pair)

theorem State.syncReissue_keeps {m : Nat} {z s : State} (h0 : Keeps m z s) (hm : 0x7821511D036582 &&& m = 0x7821511D036582) (th n h : Nat) (p : SvcPkt) : Keeps m z (State.syncReissue s th n h p) := by
  unfold State.syncReissue
  repeat' first
    | (extract_lets +onlyGivenNames x; refine keeps_cut (m := m) (z := z) (x := x) ?_ (fun hx => ?_); rotate_left; generalize x = y at hx ⊢; clear x; rotate_left; subst x)
    | (extract_lets +onlyGivenNames x; first | (subst x) | skip)
    | with_reducible assumption
    | exact mask_sub (by decide) hm
    | (dsimp only; exact mask_sub (by decide) hm)
    | with_reducible apply State.syncKey_keeps
    | with_reducible refine keeps_of_fst (by assumption) (State.syncKey_keeps ?_ ?_ ..)
    | with_reducible apply State.svcSend_keeps
    | with_reducible refine keeps_of_fst (by assumption) (State.svcSend_keeps ?_ ?_ ..)
    | with_reducible apply State.tally_keeps
    | with_reducible apply State.freeFrame_keeps
    | (with_reducible apply keeps_foldl)
    | (with_reducible apply keeps_foldl_fst)
    | (intro _ _ _)
    | (intro _)
    | with_reducible apply keeps_ite
    | with_reducible apply keeps_ite_fst
    | (simp only [keeps_mk]; refine keeps_upd ?_ ?_ ?_ ?_ ?_ ?_ ?_ ?_ ?_ ?_ ?_ ?_ ?_ ?_ ?_ ?_ ?_ ?_ ?_ ?_ ?_ ?_ ?_ ?_ ?_ ?_ ?_ ?_ ?_ ?_ ?_ ?_ ?_ ?_ ?_ ?_ ?_ <;> first | exact same_rfl | exact same_bit (by decide) hm | exact id | exact Fuses.Le.refl _ | exact fun _ => TimeVal.ofCount_ns _ | exact fun h => SMap.wf_filter _ h | exact fun _ => SMap.wf_nil _ _ | skip)
    | (split)
    | (with_reducible apply keeps_pair)

theorem State.followUp_keeps {m : Nat} {z s : State} (h0 : Keeps m z s) (hm : 0x6821511D036582 &&& m = 0x6821511D036582) (th n : Nat) (x : Notice) (p : SvcPkt) : Keeps m z (State.followUp s th n x p) := by
  unfold State.followUp
  repeat' first
    | (extract_lets +onlyGivenNames x; refine keeps_cut (m := m) (z := z) (x := x) ?_ (fun hx => ?_); rotate_left; generalize x = y at hx ⊢; clear x; rotate_left; subst x)
    | (extract_lets +onlyGivenNames x; first | (subst x) | skip)
    | with_reducible assumption
    | exact mask_sub (by decide) hm
    | (dsimp only; exact mask_sub (by decide) hm)
    | with_reducible apply State.clientKey_keeps
    | with_reducible refine keeps_of_fst (by assumption) (State.clientKey_keeps ?_ ?_ ..)
    | with_reducible apply State.svcSend_keeps
    | with_reducible refine keeps_of_fst (by assumption) (State.svcSend_keeps ?_ ?_ ..)
    | (intro _)
    | with_reducible apply keeps_ite
    | with_reducible apply keeps_ite_fst
    | (split)
    | (with_reducible apply keeps_pair)

theorem State.ntpKey_keeps {m : Nat} {z s : State} (h0 : Keeps m z s) (hm : 0x60215118016080 &&& m = 0x60215118016080) (th : Nat) (p : SvcPkt) : Keeps m z (State.ntpKey s th p).1 := by
  unfold State.ntpKey
  repeat' first
    | (extract_lets +onlyGivenNames x; refine keeps_cut (m := m) (z := z) (x := x) ?_ (fun hx => ?_); rotate_left; generalize x = y at hx ⊢; clear x; rotate_left; subst x)
    | (extract_lets +onlyGivenNames x; first | (subst x) | skip)
    | with_reducible assumption
    | exact mask_sub (by decide) hm
    | with_reducible apply State.clientKey_keeps
    | with_reducible refine keeps_of_fst (by assumption) (State.clientKey_keeps ?_ ?_ ..)
    | (intro _)
    | (split)
    | (with_reducible apply keeps_pair)

theorem State.ntsNonce_keeps {m : Nat} {z s : State} (h0 : Keeps m z s) (hm : 0x10000000 &&& m = 0x10000000) (c : Nat) (nts : Bool) : Keeps m z (State.ntsNonce s c nts).2 := by
  unfold State.ntsNonce
  repeat' first
    | with_reducible assumption
    | exact mask_sub (by decide) hm
    | with_reducible apply State.cookieNonce_keeps
    | with_reducible refine keeps_of_snd (by assumption) (State.cookieNonce_keeps ?_ ?_ ..)
    | (intro _)
    | with_reducible apply keeps_ite
    | with_reducible apply keeps_ite_fst
    | (split)
    | (with_reducible apply keeps_pair)

theorem State.ntpRebuild_keeps {m : Nat} {z s : State} (h0 : Keeps m z s) (hm : 0x7021531D036C82 &&& m = 0x7021531D036C82) (th n h : Nat) (p : SvcPkt) : Keeps m z (State.ntpRebuild s th n h p) := by
  unfold State.ntpRebuild
  repeat' first
    | (extract_lets +onlyGivenNames x; refine keeps_cut (m := m) (z := z) (x := x) ?_ (fun hx => ?_); rotate_left; generalize x = y at hx ⊢; clear x; rotate_left; subst x)
    | (extract_lets +onlyGivenNames x; first | (subst x) | skip)
    | with_reducible assumption
    | exact mask_sub (by decide) hm
    | (dsimp only; exact mask_sub (by decide) hm)
    | with_reducible apply State.ntsNonce_keeps
    | with_reducible refine keeps_of_snd (by assumption) (State.ntsNonce_keeps ?_ ?_ ..)
    | with_reducible apply State.ntpKey_keeps
    | with_reducible refine keeps_of_fst (by assumption) (State.ntpKey_keeps ?_ ?_ ..)
    | with_reducible apply State.svcLaunch_keeps
    | with_reducible refine keeps_of_fst (by assumption) (State.svcLaunch_keeps ?_ ?_ ..)
    | with_reducible apply State.tally_keeps
    | with_reducible apply State.freeFrame_keeps
    | with_reducible apply State.count_keeps
    | (with_reducible apply keeps_foldl)
    | (with_reducible apply keeps_foldl_fst)
    | (with_reducible apply keeps_getD)
    | (intro _ _ _)
    | (intro _)
    | with_reducible apply keeps_ite
    | with_reducible apply keeps_ite_fst
    | (simp only [keeps_mk]; refine keeps_upd ?_ ?_ ?_ ?_ ?_ ?_ ?_ ?_ ?_ ?_ ?_ ?_ ?_ ?_ ?_ ?_ ?_ ?_ ?_ ?_ ?_ ?_ ?_ ?_ ?_ ?_ ?_ ?_ ?_ ?_ ?_ ?_ ?_ ?_ ?_ ?_ ?_ <;> first | exact same_rfl | exact same_bit (by decide) hm | exact id | exact Fuses.Le.refl _ | exact fun _ => TimeVal.ofCount_ns _ | exact fun h => SMap.wf_filter _ h | exact fun _ => SMap.wf_nil _ _ | skip)
    | (split)
    | (with_reducible apply keeps_pair)

theorem State.reissue_keeps {m : Nat} {z s : State} (h0 : Keeps m z s) (hm : 0x7821531D036D82 &&& m = 0x7821531D036D82) (th n h : Nat) : Keeps m z (State.reissue s th n h) := by
  unfold State.reissue
  repeat' first
    | (extract_lets +onlyGivenNames x; refine keeps_cut (m := m) (z := z) (x := x) ?_ (fun hx => ?_); rotate_left; generalize x = y at hx ⊢; clear x; rotate_left; subst x)
    | (extract_lets +onlyGivenNames x; first | (subst x) | skip)
    | with_reducible assumption
    | exact mask_sub (by decide) hm
    | with_reducible apply State.ntpRebuild_keeps
    | with_reducible apply State.followUp_keeps
    | with_reducible apply State.syncReissue_keeps
    | with_reducible apply State.dropNotices_keeps
    | (intro _)
    | with_reducible apply keeps_ite
    | with_reducible apply keeps_ite_fst
    | (simp only [keeps_mk]; refine keeps_upd ?_ ?_ ?_ ?_ ?_ ?_ ?_ ?_ ?_ ?_ ?_ ?_ ?_ ?_ ?_ ?_ ?_ ?_ ?_ ?_ ?_ ?_ ?_ ?_ ?_ ?_ ?_ ?_ ?_ ?_ ?_ ?_ ?_ ?_ ?_ ?_ ?_ <;> first | exact same_rfl | exact same_bit (by decide) hm | exact id | exact Fuses.Le.refl _ | exact fun _ => TimeVal.ofCount_ns _ | exact fun h => SMap.wf_filter _ h | exact fun _ => SMap.wf_nil _ _ | skip)
    | (split)
    | (with_reducible apply keeps_pair)

/-! ### Machine/PwrOps.lean -/

theorem State.imageRefused_keeps {m : Nat} {z s : State} (h0 : Keeps m z s) (hm : 0x205000010080 &&& m = 0x205000010080) (reason : Nat) : Keeps m z (State.imageRefused s reason) := by
  unfold State.imageRefused
  repeat' first
    | with_reducible assumption
    | exact mask_sub (by decide) hm
    | with_reducible refine State.raiseLow_keeps ?_ ?_ (by dsimp only; decide)
    | with_reducible apply State.raise_keeps
    | (intro _)
    | (with_reducible apply keeps_pair)

theorem State.loadImage_keeps {m : Nat} {z s : State} (h0 : Keeps m z s) (hm : 0x20000000000302 &&& m = 0x20000000000302) (x : ImageFile) (k : Nat) : Keeps m z (State.loadImage s x k) := by
  unfold State.loadImage
  repeat' first
    | (extract_lets +onlyGivenNames x; refine keeps_cut (m := m) (z := z) (x := x) ?_ (fun hx => ?_); rotate_left; generalize x = y at hx ⊢; clear x; rotate_left; subst x)
    | (extract_lets +onlyGivenNames x; first | (subst x) | skip)
    | with_reducible assumption
    | exact mask_sub (by decide) hm
    | with_reducible apply State.setThread_keeps
    | with_reducible apply State.store_keeps
    | with_reducible apply State.setPair_keeps
    | with_reducible apply State.wr_keeps
    | (with_reducible apply keeps_foldl)
    | (intro _ _ _)
    | (intro _)
    | (simp only [keeps_mk]; refine keeps_upd ?_ ?_ ?_ ?_ ?_ ?_ ?_ ?_ ?_ ?_ ?_ ?_ ?_ ?_ ?_ ?_ ?_ ?_ ?_ ?_ ?_ ?_ ?_ ?_ ?_ ?_ ?_ ?_ ?_ ?_ ?_ ?_ ?_ ?_ ?_ ?_ ?_ <;> first | exact same_rfl | exact same_bit (by decide) hm | exact id | exact Fuses.Le.refl _ | exact fun _ => TimeVal.ofCount_ns _ | exact fun h => SMap.wf_filter _ h | exact fun _ => SMap.wf_nil _ _ | skip)

theorem State.commitVersion_keeps {m : Nat} {z s : State} (h0 : Keeps m z s) (hm : 0x20000000 &&& m = 0x20000000) (x : Image) : Keeps m z (State.commitVersion s x) := by
  unfold State.commitVersion
  repeat' first
    | (extract_lets +onlyGivenNames x; refine keeps_cut (m := m) (z := z) (x := x) ?_ (fun hx => ?_); rotate_left; generalize x = y at hx ⊢; clear x; rotate_left; subst x)
    | (extract_lets +onlyGivenNames x; first | (subst x) | skip)
    | with_reducible assumption
    | exact mask_sub (by decide) hm
    | (intro _)
    | (simp only [keeps_mk]; refine keeps_upd ?_ ?_ ?_ ?_ ?_ ?_ ?_ ?_ ?_ ?_ ?_ ?_ ?_ ?_ ?_ ?_ ?_ ?_ ?_ ?_ ?_ ?_ ?_ ?_ ?_ ?_ ?_ ?_ ?_ ?_ ?_ ?_ ?_ ?_ ?_ ?_ ?_ <;> first | exact same_rfl | exact same_bit (by decide) hm | exact id | exact Fuses.Le.refl _ | exact fun _ => TimeVal.ofCount_ns _ | exact fun h => SMap.wf_filter _ h | exact fun _ => SMap.wf_nil _ _ | skip)

theorem State.imageLoad_keeps {m : Nat} {z s : State} (h0 : Keeps m z s) (hm : 0x20205020010382 &&& m = 0x20205020010382) (mask : BitVec 128) (commit : Bool) (f : List Byte) : Keeps m z (State.imageLoad s mask commit f).1 := by
  unfold State.imageLoad
  repeat' first
    | (extract_lets +onlyGivenNames x; refine keeps_cut (m := m) (z := z) (x := x) ?_ (fun hx => ?_); rotate_left; generalize x = y at hx ⊢; clear x; rotate_left; subst x)
    | (extract_lets +onlyGivenNames x; first | (subst x) | skip)
    | with_reducible assumption
    | exact mask_sub (by decide) hm
    | with_reducible apply State.commitVersion_keeps
    | with_reducible apply State.loadImage_keeps
    | with_reducible apply State.imageRefused_keeps
    | (with_reducible apply keeps_foldl)
    | (with_reducible apply keeps_foldl_fst)
    | (intro _ _ _)
    | (intro _)
    | with_reducible apply keeps_ite
    | with_reducible apply keeps_ite_fst
    | (split)
    | (with_reducible apply keeps_pair)

theorem State.bootShow_keeps {m : Nat} {z s : State} (h0 : Keeps m z s) (hm : 0x40000000000 &&& m = 0x40000000000) : Keeps m z (State.bootShow s) := by
  unfold State.bootShow
  repeat' first
    | with_reducible assumption
    | exact mask_sub (by decide) hm
    | with_reducible apply State.setF_keeps
    | (intro _)

theorem State.bootStore_keeps {m : Nat} {z s : State} (h0 : Keeps m z s) (hm : 0x245020010080 &&& m = 0x245020010080) (mask : BitVec 128) (f : List Byte) : Keeps m z (State.bootStore s mask f).1 := by
  unfold State.bootStore
  repeat' first
    | (extract_lets +onlyGivenNames x; refine keeps_cut (m := m) (z := z) (x := x) ?_ (fun hx => ?_); rotate_left; generalize x = y at hx ⊢; clear x; rotate_left; subst x)
    | (extract_lets +onlyGivenNames x; first | (subst x) | skip)
    | with_reducible assumption
    | exact mask_sub (by decide) hm
    | with_reducible apply State.bootShow_keeps
    | with_reducible apply State.imageRefused_keeps
    | (intro _)
    | with_reducible apply keeps_ite
    | with_reducible apply keeps_ite_fst
    | (simp only [keeps_mk]; refine keeps_upd ?_ ?_ ?_ ?_ ?_ ?_ ?_ ?_ ?_ ?_ ?_ ?_ ?_ ?_ ?_ ?_ ?_ ?_ ?_ ?_ ?_ ?_ ?_ ?_ ?_ ?_ ?_ ?_ ?_ ?_ ?_ ?_ ?_ ?_ ?_ ?_ ?_ <;> first | exact same_rfl | exact same_bit (by decide) hm | exact id | exact Fuses.Le.refl _ | exact fun _ => TimeVal.ofCount_ns _ | exact fun h => SMap.wf_filter _ h | exact fun _ => SMap.wf_nil _ _ | skip)
    | (split)
    | (with_reducible apply keeps_pair)

theorem State.bootClear_keeps {m : Nat} {z s : State} (h0 : Keeps m z s) (hm : 0x40020000000 &&& m = 0x40020000000) : Keeps m z (State.bootClear s) := by
  unfold State.bootClear
  repeat' first
    | (extract_lets +onlyGivenNames x; refine keeps_cut (m := m) (z := z) (x := x) ?_ (fun hx => ?_); rotate_left; generalize x = y at hx ⊢; clear x; rotate_left; subst x)
    | (extract_lets +onlyGivenNames x; first | (subst x) | skip)
    | with_reducible assumption
    | exact mask_sub (by decide) hm
    | with_reducible apply State.bootShow_keeps
    | (intro _)
    | (simp only [keeps_mk]; refine keeps_upd ?_ ?_ ?_ ?_ ?_ ?_ ?_ ?_ ?_ ?_ ?_ ?_ ?_ ?_ ?_ ?_ ?_ ?_ ?_ ?_ ?_ ?_ ?_ ?_ ?_ ?_ ?_ ?_ ?_ ?_ ?_ ?_ ?_ ?_ ?_ ?_ ?_ <;> first | exact same_rfl | exact same_bit (by decide) hm | exact id | exact Fuses.Le.refl _ | exact fun _ => TimeVal.ofCount_ns _ | exact fun h => SMap.wf_filter _ h | exact fun _ => SMap.wf_nil _ _ | skip)

theorem State.bootOne_keeps {m : Nat} {z s : State} (h0 : Keeps m z s) (hm : 0x20245000010382 &&& m = 0x20245000010382) (e : BootEntry) : Keeps m z (State.bootOne s e) := by
  unfold State.bootOne
  repeat' first
    | (extract_lets +onlyGivenNames x; refine keeps_cut (m := m) (z := z) (x := x) ?_ (fun hx => ?_); rotate_left; generalize x = y at hx ⊢; clear x; rotate_left; subst x)
    | (extract_lets +onlyGivenNames x; first | (subst x) | skip)
    | with_reducible assumption
    | exact mask_sub (by decide) hm
    | with_reducible apply State.loadImage_keeps
    | with_reducible apply State.imageRefused_keeps
    | with_reducible apply State.setF_keeps
    | (with_reducible apply keeps_foldl)
    | (intro _ _ _)
    | (intro _)
    | (split)

theorem State.setDebug_keeps {m : Nat} {z s : State} (h0 : Keeps m z s) (hm : 0x40020000100 &&& m = 0x40020000100) (l : DebugLevel) : Keeps m z (State.setDebug s l) := by
  unfold State.setDebug
  repeat' first
    | (extract_lets +onlyGivenNames x; refine keeps_cut (m := m) (z := z) (x := x) ?_ (fun hx => ?_); rotate_left; generalize x = y at hx ⊢; clear x; rotate_left; subst x)
    | (extract_lets +onlyGivenNames x; first | (subst x) | skip)
    | with_reducible assumption
    | exact mask_sub (by decide) hm
    | with_reducible apply State.setThread_keeps
    | with_reducible apply State.setF_keeps
    | (with_reducible apply keeps_foldl)
    | (intro _ _ _)
    | (intro _)
    | with_reducible apply keeps_ite
    | (simp only [keeps_mk]; refine keeps_upd ?_ ?_ ?_ ?_ ?_ ?_ ?_ ?_ ?_ ?_ ?_ ?_ ?_ ?_ ?_ ?_ ?_ ?_ ?_ ?_ ?_ ?_ ?_ ?_ ?_ ?_ ?_ ?_ ?_ ?_ ?_ ?_ ?_ ?_ ?_ ?_ ?_ <;> first | exact same_rfl | exact same_bit (by decide) hm | exact id | exact Fuses.Le.refl _ | exact fun _ => TimeVal.ofCount_ns _ | exact fun h => SMap.wf_filter _ h | exact fun _ => SMap.wf_nil _ _ | skip)
    | (split)

theorem State.invade_keeps {m : Nat} {z s : State} (h0 : Keeps m z s) (hm : 0x10024022002000 &&& m = 0x10024022002000) : Keeps m z (State.invade s) := by
  unfold State.invade
  repeat' first
    | (extract_lets +onlyGivenNames x; refine keeps_cut (m := m) (z := z) (x := x) ?_ (fun hx => ?_); rotate_left; generalize x = y at hx ⊢; clear x; rotate_left; subst x)
    | (extract_lets +onlyGivenNames x; first | (subst x) | skip)
    | with_reducible assumption
    | exact mask_sub (by decide) hm
    | with_reducible apply State.svcRefuse_keeps
    | with_reducible apply State.zeroise_keeps
    | with_reducible apply State.closeSvc_keeps
    | (intro _)
    | with_reducible apply keeps_ite
    | (simp only [keeps_mk]; refine keeps_upd ?_ ?_ ?_ ?_ ?_ ?_ ?_ ?_ ?_ ?_ ?_ ?_ ?_ ?_ ?_ ?_ ?_ ?_ ?_ ?_ ?_ ?_ ?_ ?_ ?_ ?_ ?_ ?_ ?_ ?_ ?_ ?_ ?_ ?_ ?_ ?_ ?_ <;> first | exact same_rfl | exact same_bit (by decide) hm | exact id | exact Fuses.Le.refl _ | exact fun _ => TimeVal.ofCount_ns _ | exact fun h => SMap.wf_filter _ h | exact fun _ => SMap.wf_nil _ _ | skip)

theorem State.debugRequest_keeps {m : Nat} {z s : State} (h0 : Keeps m z s) (hm : 0x10064022002100 &&& m = 0x10064022002100) (l : DebugLevel) : Keeps m z (State.debugRequest s l) := by
  unfold State.debugRequest
  repeat' first
    | with_reducible assumption
    | exact mask_sub (by decide) hm
    | with_reducible apply State.invade_keeps
    | with_reducible apply State.setDebug_keeps
    | with_reducible apply State.setF_keeps
    | (intro _)
    | with_reducible apply keeps_ite

theorem State.dbgCtl_keeps {m : Nat} {z s : State} (h0 : Keeps m z s) (hm : 0x40020000100 &&& m = 0x40020000100) (v : BitVec 32) : Keeps m z (State.dbgCtl s v) := by
  unfold State.dbgCtl
  repeat' first
    | (extract_lets +onlyGivenNames x; refine keeps_cut (m := m) (z := z) (x := x) ?_ (fun hx => ?_); rotate_left; generalize x = y at hx ⊢; clear x; rotate_left; subst x)
    | (extract_lets +onlyGivenNames x; first | (subst x) | skip)
    | with_reducible assumption
    | exact mask_sub (by decide) hm
    | with_reducible apply State.setDebug_keeps
    | with_reducible apply State.wr_keeps
    | (intro _)
    | with_reducible apply keeps_ite

theorem State.setFuses_keeps {m : Nat} {z s : State} (h : Keeps m z s) (hm : 0x20000000 &&& m = 0x20000000) (f : Fuses)
    (hf : Fuses.Le s.pwr.fuses f) : Keeps m z (s.setFuses f) := by
  unfold State.setFuses
  simp only [keeps_mk]
  refine keeps_upd h ?_ ?_ ?_ ?_ ?_ ?_ ?_ ?_ ?_ ?_ ?_ ?_ ?_ ?_ ?_ ?_ ?_ ?_ ?_ ?_ ?_ ?_ ?_ ?_ ?_ ?_ ?_ ?_ ?_ ?_ ?_ ?_ ?_ id id hf
    <;> first | exact same_rfl | exact same_bit (by decide) hm

theorem State.fuseProgram_keeps {m : Nat} {z s : State} (h : Keeps m z s) (hm : 0xD0020020100 &&& m = 0xD0020020100) (item value : Nat) :
    Keeps m z (State.fuseProgram s item value).1 := by
  have set := fun f hf => State.setFuses_keeps h (mask_sub (by decide) hm) f hf
  have inv := set _ (Fuses.le_inv s.pwr.fuses)
  have kills := set _ (Fuses.le_kills s.pwr.fuses)
  have prio := fun v hv => set _ (Fuses.le_prio s.pwr.fuses v hv)
  have dfdt := fun v hv => set _ (Fuses.le_dfdt s.pwr.fuses v hv)
  refine keeps_ite_fst (fun _ => h) (fun _ => keeps_ite_fst (fun _ => h) (fun _ => keeps_ite_fst (fun _ => ?_) (fun _ =>
    keeps_ite_fst (fun _ => ?_) (fun _ => keeps_ite_fst (fun _ => ?_) (fun _ => keeps_ite_fst (fun _ => ?_) (fun _ => h))))))
  · exact keeps_ite_fst (fun _ => h) (fun _ => keeps_ite (State.setDebug_keeps inv (mask_sub (by decide) hm) _) inv)
  · exact keeps_ite_fst (fun _ => h) (fun _ => State.setDebug_keeps kills (mask_sub (by decide) hm) _)
  · exact keeps_ite_fst (fun _ => h) (fun hp => keeps_ite_fst (fun _ => h) (fun _ =>
      State.setB_keeps (State.setF_keeps (prio _ hp) (mask_sub (by decide) hm) (mask_sub (by decide) hm) _ _) (mask_sub (by decide) hm)
        (mask_sub (by decide) hm) _ _))
  · exact keeps_ite_fst (fun _ => h) (fun hp => keeps_ite_fst (fun _ => h) (fun _ =>
      keeps_ite (State.dfdtWrite_keeps (dfdt _ hp) (mask_sub (by decide) hm) _) (dfdt _ hp)))

theorem State.fuseOwner_keeps {m : Nat} {z s : State} (h0 : Keeps m z s) (hm : 0x20060000000 &&& m = 0x20060000000) (owner : List Byte) : Keeps m z (State.fuseOwner s owner) := by
  unfold State.fuseOwner
  repeat' first
    | (extract_lets +onlyGivenNames x; refine keeps_cut (m := m) (z := z) (x := x) ?_ (fun hx => ?_); rotate_left; generalize x = y at hx ⊢; clear x; rotate_left; subst x)
    | (extract_lets +onlyGivenNames x; first | (subst x) | skip)
    | with_reducible assumption
    | exact mask_sub (by decide) hm
    | with_reducible refine State.setFuses_keeps ?_ ?_ _ (Fuses.le_inv _)
    | with_reducible refine State.setFuses_keeps ?_ ?_ _ (Fuses.le_kills _)
    | with_reducible refine State.setFuses_keeps ?_ ?_ _ (Fuses.le_prio _ _ (by assumption))
    | with_reducible refine State.setFuses_keeps ?_ ?_ _ (Fuses.le_dfdt _ _ (by assumption))
    | with_reducible refine State.setFuses_keeps ?_ ?_ _ (Fuses.le_owner _ _)
    | with_reducible refine State.setFuses_keeps ?_ ?_ _ (Fuses.le_field _)
    | with_reducible refine State.setFuses_keeps ?_ ?_ _ (Fuses.le_retire _)
    | with_reducible apply State.hashRegs_keeps
    | with_reducible apply State.setB_keeps
    | (intro _)
    | (simp only [keeps_mk]; refine keeps_upd ?_ ?_ ?_ ?_ ?_ ?_ ?_ ?_ ?_ ?_ ?_ ?_ ?_ ?_ ?_ ?_ ?_ ?_ ?_ ?_ ?_ ?_ ?_ ?_ ?_ ?_ ?_ ?_ ?_ ?_ ?_ ?_ ?_ ?_ ?_ ?_ ?_ <;> first | exact same_rfl | exact same_bit (by decide) hm | exact id | exact Fuses.Le.refl _ | exact fun _ => TimeVal.ofCount_ns _ | exact fun h => SMap.wf_filter _ h | exact fun _ => SMap.wf_nil _ _ | skip)
    | (with_reducible apply keeps_pair)

theorem State.provision_keeps {m : Nat} {z s : State} (h : Keeps m z s) (hm : 0x20060000000 &&& m = 0x20060000000) {owner : List Byte} {r : State}
    (e0 : State.provision s owner = .inr r) : Keeps m z r := by
  have k := State.fuseOwner_keeps h (mask_sub (by decide) hm) owner
  unfold State.provision at e0
  repeat' split at e0
  all_goals first | exact Sum.inr.inj e0 ▸ k | exact absurd e0 Sum.inl_ne_inr

theorem State.advanceField_keeps {m : Nat} {z s : State} (h0 : Keeps m z s) (hm : 0x20000000 &&& m = 0x20000000) : Keeps m z (State.advanceField s).1 := by
  unfold State.advanceField
  repeat' first
    | (extract_lets +onlyGivenNames x; refine keeps_cut (m := m) (z := z) (x := x) ?_ (fun hx => ?_); rotate_left; generalize x = y at hx ⊢; clear x; rotate_left; subst x)
    | (extract_lets +onlyGivenNames x; first | (subst x) | skip)
    | with_reducible assumption
    | exact mask_sub (by decide) hm
    | with_reducible refine State.setFuses_keeps ?_ ?_ _ (Fuses.le_inv _)
    | with_reducible refine State.setFuses_keeps ?_ ?_ _ (Fuses.le_kills _)
    | with_reducible refine State.setFuses_keeps ?_ ?_ _ (Fuses.le_prio _ _ (by assumption))
    | with_reducible refine State.setFuses_keeps ?_ ?_ _ (Fuses.le_dfdt _ _ (by assumption))
    | with_reducible refine State.setFuses_keeps ?_ ?_ _ (Fuses.le_owner _ _)
    | with_reducible refine State.setFuses_keeps ?_ ?_ _ (Fuses.le_field _)
    | with_reducible refine State.setFuses_keeps ?_ ?_ _ (Fuses.le_retire _)
    | (intro _)
    | with_reducible apply keeps_ite
    | with_reducible apply keeps_ite_fst
    | (split)
    | (with_reducible apply keeps_pair)

theorem State.retire_keeps {m : Nat} {z s : State} (h0 : Keeps m z s) (hm : 0x24862026000 &&& m = 0x24862026000) (order : List Byte) : Keeps m z (State.retire s order).1 := by
  unfold State.retire
  repeat' first
    | (extract_lets +onlyGivenNames x; refine keeps_cut (m := m) (z := z) (x := x) ?_ (fun hx => ?_); rotate_left; generalize x = y at hx ⊢; clear x; rotate_left; subst x)
    | (extract_lets +onlyGivenNames x; first | (subst x) | skip)
    | with_reducible assumption
    | exact mask_sub (by decide) hm
    | with_reducible refine State.setFuses_keeps ?_ ?_ _ (Fuses.le_inv _)
    | with_reducible refine State.setFuses_keeps ?_ ?_ _ (Fuses.le_kills _)
    | with_reducible refine State.setFuses_keeps ?_ ?_ _ (Fuses.le_prio _ _ (by assumption))
    | with_reducible refine State.setFuses_keeps ?_ ?_ _ (Fuses.le_dfdt _ _ (by assumption))
    | with_reducible refine State.setFuses_keeps ?_ ?_ _ (Fuses.le_owner _ _)
    | with_reducible refine State.setFuses_keeps ?_ ?_ _ (Fuses.le_field _)
    | with_reducible refine State.setFuses_keeps ?_ ?_ _ (Fuses.le_retire _)
    | with_reducible apply State.envStop_keeps
    | with_reducible apply State.destroyKeys_keeps
    | (intro _)
    | with_reducible apply keeps_ite
    | with_reducible apply keeps_ite_fst
    | (split)
    | (with_reducible apply keeps_pair)

theorem State.withdrawCluster_keeps {m : Nat} {z s : State} (h0 : Keeps m z s) (hm : 0x40204108004D80 &&& m = 0x40204108004D80) (c : Nat) : Keeps m z (State.withdrawCluster s c) := by
  unfold State.withdrawCluster
  repeat' first
    | (extract_lets +onlyGivenNames x; refine keeps_cut (m := m) (z := z) (x := x) ?_ (fun hx => ?_); rotate_left; generalize x = y at hx ⊢; clear x; rotate_left; subst x)
    | (extract_lets +onlyGivenNames x; first | (subst x) | skip)
    | with_reducible assumption
    | exact mask_sub (by decide) hm
    | with_reducible apply State.withdrawEvents_keeps
    | with_reducible apply State.failLaunch_keeps
    | (with_reducible apply keeps_foldl)
    | (intro _ _ _)
    | (intro _)
    | with_reducible apply keeps_ite
    | (split)

theorem State.isolate_keeps {m : Nat} {z s : State} (h0 : Keeps m z s) (hm : 0x6820432900FD80 &&& m = 0x6820432900FD80) (c : Nat) : Keeps m z (State.isolate s c) := by
  unfold State.isolate
  repeat' first
    | (extract_lets +onlyGivenNames x; refine keeps_cut (m := m) (z := z) (x := x) ?_ (fun hx => ?_); rotate_left; generalize x = y at hx ⊢; clear x; rotate_left; subst x)
    | (extract_lets +onlyGivenNames x; first | (subst x) | skip)
    | with_reducible assumption
    | exact mask_sub (by decide) hm
    | with_reducible apply State.withdrawCluster_keeps
    | with_reducible apply State.portIdle_keeps
    | with_reducible apply State.abortThread_keeps
    | (with_reducible apply keeps_foldl)
    | (intro _ _ _)
    | (intro _)
    | with_reducible apply keeps_ite
    | with_reducible apply keeps_ite_fst
    | (simp only [keeps_mk]; refine keeps_upd ?_ ?_ ?_ ?_ ?_ ?_ ?_ ?_ ?_ ?_ ?_ ?_ ?_ ?_ ?_ ?_ ?_ ?_ ?_ ?_ ?_ ?_ ?_ ?_ ?_ ?_ ?_ ?_ ?_ ?_ ?_ ?_ ?_ ?_ ?_ ?_ ?_ <;> first | exact same_rfl | exact same_bit (by decide) hm | exact id | exact Fuses.Le.refl _ | exact fun _ => TimeVal.ofCount_ns _ | exact fun h => SMap.wf_filter _ h | exact fun _ => SMap.wf_nil _ _ | skip)
    | (with_reducible apply keeps_pair)

theorem State.restore_keeps {m : Nat} {z s : State} (h0 : Keeps m z s) (hm : 0x48204129004D80 &&& m = 0x48204129004D80) (c : Nat) : Keeps m z (State.restore s c) := by
  unfold State.restore
  repeat' first
    | (extract_lets +onlyGivenNames x; refine keeps_cut (m := m) (z := z) (x := x) ?_ (fun hx => ?_); rotate_left; generalize x = y at hx ⊢; clear x; rotate_left; subst x)
    | (extract_lets +onlyGivenNames x; first | (subst x) | skip)
    | with_reducible assumption
    | exact mask_sub (by decide) hm
    | with_reducible apply State.portStart_keeps
    | (with_reducible apply keeps_foldl)
    | (intro _ _ _)
    | (intro _)
    | (simp only [keeps_mk]; refine keeps_upd ?_ ?_ ?_ ?_ ?_ ?_ ?_ ?_ ?_ ?_ ?_ ?_ ?_ ?_ ?_ ?_ ?_ ?_ ?_ ?_ ?_ ?_ ?_ ?_ ?_ ?_ ?_ ?_ ?_ ?_ ?_ ?_ ?_ ?_ ?_ ?_ ?_ <;> first | exact same_rfl | exact same_bit (by decide) hm | exact id | exact Fuses.Le.refl _ | exact fun _ => TimeVal.ofCount_ns _ | exact fun h => SMap.wf_filter _ h | exact fun _ => SMap.wf_nil _ _ | skip)
    | (with_reducible apply keeps_pair)

theorem State.gateGnss_keeps {m : Nat} {z s : State} (h0 : Keeps m z s) (hm : 0x4044020900000 &&& m = 0x4044020900000) : Keeps m z (State.gateGnss s) := by
  unfold State.gateGnss
  repeat' first
    | (extract_lets +onlyGivenNames x; refine keeps_cut (m := m) (z := z) (x := x) ?_ (fun hx => ?_); rotate_left; generalize x = y at hx ⊢; clear x; rotate_left; subst x)
    | (extract_lets +onlyGivenNames x; first | (subst x) | skip)
    | with_reducible assumption
    | exact mask_sub (by decide) hm
    | with_reducible apply State.endCapture_keeps
    | with_reducible apply State.dropChannels_keeps
    | with_reducible apply State.setEnt_keeps
    | with_reducible apply State.pwrShow_keeps
    | with_reducible apply State.setB_keeps
    | (with_reducible apply keeps_foldl)
    | (intro _ _ _)
    | (intro _)
    | with_reducible apply keeps_ite
    | with_reducible apply keeps_ite_fst
    | (simp only [keeps_mk]; refine keeps_upd ?_ ?_ ?_ ?_ ?_ ?_ ?_ ?_ ?_ ?_ ?_ ?_ ?_ ?_ ?_ ?_ ?_ ?_ ?_ ?_ ?_ ?_ ?_ ?_ ?_ ?_ ?_ ?_ ?_ ?_ ?_ ?_ ?_ ?_ ?_ ?_ ?_ <;> first | exact same_rfl | exact same_bit (by decide) hm | exact id | exact Fuses.Le.refl _ | exact fun _ => TimeVal.ofCount_ns _ | exact fun h => SMap.wf_filter _ h | exact fun _ => SMap.wf_nil _ _ | skip)
    | (with_reducible apply keeps_pair)

theorem State.ungateGnss_keeps {m : Nat} {z s : State} (h0 : Keeps m z s) (hm : 0x40020000000 &&& m = 0x40020000000) : Keeps m z (State.ungateGnss s) := by
  unfold State.ungateGnss
  repeat' first
    | (extract_lets +onlyGivenNames x; refine keeps_cut (m := m) (z := z) (x := x) ?_ (fun hx => ?_); rotate_left; generalize x = y at hx ⊢; clear x; rotate_left; subst x)
    | (extract_lets +onlyGivenNames x; first | (subst x) | skip)
    | with_reducible assumption
    | exact mask_sub (by decide) hm
    | with_reducible apply State.pwrShow_keeps
    | (intro _)
    | (simp only [keeps_mk]; refine keeps_upd ?_ ?_ ?_ ?_ ?_ ?_ ?_ ?_ ?_ ?_ ?_ ?_ ?_ ?_ ?_ ?_ ?_ ?_ ?_ ?_ ?_ ?_ ?_ ?_ ?_ ?_ ?_ ?_ ?_ ?_ ?_ ?_ ?_ ?_ ?_ ?_ ?_ <;> first | exact same_rfl | exact same_bit (by decide) hm | exact id | exact Fuses.Le.refl _ | exact fun _ => TimeVal.ofCount_ns _ | exact fun h => SMap.wf_filter _ h | exact fun _ => SMap.wf_nil _ _ | skip)

theorem State.gateRegion_keeps {m : Nat} {z s : State} (h0 : Keeps m z s) (hm : 0x7FFFFE21003702 &&& m = 0x7FFFFE21003702) (r : Nat) : Keeps m z (State.gateRegion s r) := by
  unfold State.gateRegion
  repeat' first
    | (extract_lets +onlyGivenNames x; refine keeps_cut (m := m) (z := z) (x := x) ?_ (fun hx => ?_); rotate_left; generalize x = y at hx ⊢; clear x; rotate_left; subst x)
    | (extract_lets +onlyGivenNames x; first | (subst x) | skip)
    | with_reducible assumption
    | exact mask_sub (by decide) hm
    | with_reducible apply State.pwrShow_keeps
    | (intro _)
    | with_reducible apply keeps_ite
    | (simp only [keeps_mk]; refine keeps_updF ?_ ?_ ?_ ?_ ?_ ?_ ?_ ?_ ?_ ?_ ?_ ?_ ?_ ?_ ?_ ?_ ?_ ?_ ?_ ?_ ?_ ?_ ?_ ?_ ?_ ?_ ?_ ?_ ?_ ?_ ?_ ?_ ?_ ?_ ?_ ?_ ?_ ?_ ?_ <;> first | exact same_rfl | exact same_bit (by decide) hm | exact id | exact Fuses.Le.refl _ | exact fun _ => TimeVal.ofCount_ns _ | exact fun h => SMap.wf_filter _ h | exact fun _ => SMap.wf_nil _ _ | exact mask_sub (by decide) hm | skip)

theorem State.regionGate_keeps {m : Nat} {z s : State} (h0 : Keeps m z s) (hm : 0x7FFFFE21903702 &&& m = 0x7FFFFE21903702) (w : BitVec 32) : Keeps m z (State.regionGate s w).1 := by
  unfold State.regionGate
  repeat' first
    | (extract_lets +onlyGivenNames x; refine keeps_cut (m := m) (z := z) (x := x) ?_ (fun hx => ?_); rotate_left; generalize x = y at hx ⊢; clear x; rotate_left; subst x)
    | (extract_lets +onlyGivenNames x; first | (subst x) | skip)
    | with_reducible assumption
    | exact mask_sub (by decide) hm
    | with_reducible apply State.gateRegion_keeps
    | with_reducible apply State.gateGnss_keeps
    | (with_reducible apply keeps_foldl)
    | (with_reducible apply keeps_foldl_fst)
    | (intro _ _ _)
    | (intro _)
    | with_reducible apply keeps_ite
    | with_reducible apply keeps_ite_fst
    | (split)
    | (with_reducible apply keeps_pair)

theorem State.regionUngate_keeps {m : Nat} {z s : State} (h0 : Keeps m z s) (hm : 0x40020000000 &&& m = 0x40020000000) (w : BitVec 32) : Keeps m z (State.regionUngate s w).1 := by
  unfold State.regionUngate
  repeat' first
    | (extract_lets +onlyGivenNames x; refine keeps_cut (m := m) (z := z) (x := x) ?_ (fun hx => ?_); rotate_left; generalize x = y at hx ⊢; clear x; rotate_left; subst x)
    | (extract_lets +onlyGivenNames x; first | (subst x) | skip)
    | with_reducible assumption
    | exact mask_sub (by decide) hm
    | with_reducible apply State.ungateGnss_keeps
    | with_reducible apply State.pwrShow_keeps
    | (intro _)
    | with_reducible apply keeps_ite
    | with_reducible apply keeps_ite_fst
    | (simp only [keeps_mk]; refine keeps_upd ?_ ?_ ?_ ?_ ?_ ?_ ?_ ?_ ?_ ?_ ?_ ?_ ?_ ?_ ?_ ?_ ?_ ?_ ?_ ?_ ?_ ?_ ?_ ?_ ?_ ?_ ?_ ?_ ?_ ?_ ?_ ?_ ?_ ?_ ?_ ?_ ?_ <;> first | exact same_rfl | exact same_bit (by decide) hm | exact id | exact Fuses.Le.refl _ | exact fun _ => TimeVal.ofCount_ns _ | exact fun h => SMap.wf_filter _ h | exact fun _ => SMap.wf_nil _ _ | skip)
    | (split)
    | (with_reducible apply keeps_pair)

theorem State.commitDatum_keeps {m : Nat} {z s : State} (h0 : Keeps m z s) (hm : 0x40000004 &&& m = 0x40000004) : Keeps m z (State.commitDatum s) := by
  unfold State.commitDatum
  repeat' first
    | (extract_lets +onlyGivenNames x; refine keeps_cut (m := m) (z := z) (x := x) ?_ (fun hx => ?_); rotate_left; generalize x = y at hx ⊢; clear x; rotate_left; subst x)
    | (extract_lets +onlyGivenNames x; first | (subst x) | skip)
    | with_reducible assumption
    | exact mask_sub (by decide) hm
    | (intro _)
    | (simp only [keeps_mk]; refine keeps_upd ?_ ?_ ?_ ?_ ?_ ?_ ?_ ?_ ?_ ?_ ?_ ?_ ?_ ?_ ?_ ?_ ?_ ?_ ?_ ?_ ?_ ?_ ?_ ?_ ?_ ?_ ?_ ?_ ?_ ?_ ?_ ?_ ?_ ?_ ?_ ?_ ?_ <;> first | exact same_rfl | exact same_bit (by decide) hm | exact id | exact Fuses.Le.refl _ | exact fun _ => TimeVal.ofCount_ns _ | exact fun h => SMap.wf_filter _ h | exact fun _ => SMap.wf_nil _ _ | skip)
    | (with_reducible apply keeps_pair)

theorem State.commitAll_keeps {m : Nat} {z s : State} (h0 : Keeps m z s) (hm : 0x1000040040004 &&& m = 0x1000040040004) : Keeps m z (State.commitAll s) := by
  unfold State.commitAll
  repeat' first
    | with_reducible assumption
    | exact mask_sub (by decide) hm
    | with_reducible apply State.commitDatum_keeps
    | with_reducible apply State.holdCommit_keeps
    | with_reducible apply State.journalCommit_keeps
    | (intro _)
    | with_reducible apply keeps_ite

theorem State.powerLost_keeps {m : Nat} {z s : State} (h0 : Keeps m z s) (hm : 0x20000000 &&& m = 0x20000000) : Keeps m z (State.powerLost s) := by
  unfold State.powerLost
  repeat' first
    | (extract_lets +onlyGivenNames x; refine keeps_cut (m := m) (z := z) (x := x) ?_ (fun hx => ?_); rotate_left; generalize x = y at hx ⊢; clear x; rotate_left; subst x)
    | (extract_lets +onlyGivenNames x; first | (subst x) | skip)
    | with_reducible assumption
    | exact mask_sub (by decide) hm
    | (intro _)
    | with_reducible apply keeps_ite
    | with_reducible apply keeps_ite_fst
    | (simp only [keeps_mk]; refine keeps_upd ?_ ?_ ?_ ?_ ?_ ?_ ?_ ?_ ?_ ?_ ?_ ?_ ?_ ?_ ?_ ?_ ?_ ?_ ?_ ?_ ?_ ?_ ?_ ?_ ?_ ?_ ?_ ?_ ?_ ?_ ?_ ?_ ?_ ?_ ?_ ?_ ?_ <;> first | exact same_rfl | exact same_bit (by decide) hm | exact id | exact Fuses.Le.refl _ | exact fun _ => TimeVal.ofCount_ns _ | exact fun h => SMap.wf_filter _ h | exact fun _ => SMap.wf_nil _ _ | skip)
    | (with_reducible apply keeps_pair)

theorem State.countLoss_keeps {m : Nat} {z s : State} (h0 : Keeps m z s) (hm : 0x40060000000 &&& m = 0x40060000000) : Keeps m z (State.countLoss s) := by
  unfold State.countLoss
  repeat' first
    | (extract_lets +onlyGivenNames x; refine keeps_cut (m := m) (z := z) (x := x) ?_ (fun hx => ?_); rotate_left; generalize x = y at hx ⊢; clear x; rotate_left; subst x)
    | (extract_lets +onlyGivenNames x; first | (subst x) | skip)
    | with_reducible assumption
    | exact mask_sub (by decide) hm
    | with_reducible apply State.cairnReg_keeps
    | with_reducible apply State.setF_keeps
    | (with_reducible apply keeps_getD)
    | (intro _)
    | with_reducible apply keeps_ite
    | (simp only [keeps_mk]; refine keeps_upd ?_ ?_ ?_ ?_ ?_ ?_ ?_ ?_ ?_ ?_ ?_ ?_ ?_ ?_ ?_ ?_ ?_ ?_ ?_ ?_ ?_ ?_ ?_ ?_ ?_ ?_ ?_ ?_ ?_ ?_ ?_ ?_ ?_ ?_ ?_ ?_ ?_ <;> first | exact same_rfl | exact same_bit (by decide) hm | exact id | exact Fuses.Le.refl _ | exact fun _ => TimeVal.ofCount_ns _ | exact fun h => SMap.wf_filter _ h | exact fun _ => SMap.wf_nil _ _ | skip)
    | (split)

theorem State.coreDieReset_keeps {m : Nat} {z s : State} (h0 : Keeps m z s) (hm : 0x7FFFFE3F17FFB2 &&& m = 0x7FFFFE3F17FFB2) (byPin : Bool) : Keeps m z (State.coreDieReset s byPin) := by
  unfold State.coreDieReset
  repeat' first
    | (extract_lets +onlyGivenNames x; refine keeps_cut (m := m) (z := z) (x := x) ?_ (fun hx => ?_); rotate_left; generalize x = y at hx ⊢; clear x; rotate_left; subst x)
    | (extract_lets +onlyGivenNames x; first | (subst x) | skip)
    | with_reducible assumption
    | exact mask_sub (by decide) hm
    | with_reducible apply State.powerLost_keeps
    | with_reducible apply State.coreReset_keeps
    | (intro _)
    | with_reducible apply keeps_ite
    | with_reducible apply keeps_ite_fst
    | (simp only [keeps_mk]; refine keeps_upd ?_ ?_ ?_ ?_ ?_ ?_ ?_ ?_ ?_ ?_ ?_ ?_ ?_ ?_ ?_ ?_ ?_ ?_ ?_ ?_ ?_ ?_ ?_ ?_ ?_ ?_ ?_ ?_ ?_ ?_ ?_ ?_ ?_ ?_ ?_ ?_ ?_ <;> first | exact same_rfl | exact same_bit (by decide) hm | exact id | exact Fuses.Le.refl _ | exact fun _ => TimeVal.ofCount_ns _ | exact fun h => SMap.wf_filter _ h | exact fun _ => SMap.wf_nil _ _ | skip)
    | (with_reducible apply keeps_pair)

theorem State.clockReset_keeps {m : Nat} {z s : State} (h0 : Keeps m z s) (hm : 0x7FFFFEBF17FFB3 &&& m = 0x7FFFFEBF17FFB3) : Keeps m z (State.clockReset s) := by
  unfold State.clockReset
  repeat' first
    | (extract_lets +onlyGivenNames x; refine keeps_cut (m := m) (z := z) (x := x) ?_ (fun hx => ?_); rotate_left; generalize x = y at hx ⊢; clear x; rotate_left; subst x)
    | (extract_lets +onlyGivenNames x; first | (subst x) | skip)
    | with_reducible assumption
    | exact mask_sub (by decide) hm
    | with_reducible apply State.coreReset_keeps
    | (intro _)
    | with_reducible apply keeps_ite
    | with_reducible apply keeps_ite_fst
    | (simp only [keeps_mk]; refine keeps_updF ?_ ?_ ?_ ?_ ?_ ?_ ?_ ?_ ?_ ?_ ?_ ?_ ?_ ?_ ?_ ?_ ?_ ?_ ?_ ?_ ?_ ?_ ?_ ?_ ?_ ?_ ?_ ?_ ?_ ?_ ?_ ?_ ?_ ?_ ?_ ?_ ?_ ?_ ?_ <;> first | exact same_rfl | exact same_bit (by decide) hm | exact id | exact Fuses.Le.refl _ | exact fun _ => TimeVal.ofCount_ns _ | exact fun h => SMap.wf_filter _ h | exact fun _ => SMap.wf_nil _ _ | exact mask_sub (by decide) hm | skip)
    | (with_reducible apply keeps_pair)

theorem State.clkLoss_keeps {m : Nat} {z s : State} (h0 : Keeps m z s) (hm : 0x7FFFFEBF17FFB3 &&& m = 0x7FFFFEBF17FFB3) : Keeps m z (State.clkLoss s) := by
  unfold State.clkLoss
  repeat' first
    | (extract_lets +onlyGivenNames x; refine keeps_cut (m := m) (z := z) (x := x) ?_ (fun hx => ?_); rotate_left; generalize x = y at hx ⊢; clear x; rotate_left; subst x)
    | (extract_lets +onlyGivenNames x; first | (subst x) | skip)
    | with_reducible assumption
    | exact mask_sub (by decide) hm
    | with_reducible apply State.clockReset_keeps
    | with_reducible apply State.powerLost_keeps
    | with_reducible apply State.pwrShow_keeps
    | (intro _)
    | (simp only [keeps_mk]; refine keeps_upd ?_ ?_ ?_ ?_ ?_ ?_ ?_ ?_ ?_ ?_ ?_ ?_ ?_ ?_ ?_ ?_ ?_ ?_ ?_ ?_ ?_ ?_ ?_ ?_ ?_ ?_ ?_ ?_ ?_ ?_ ?_ ?_ ?_ ?_ ?_ ?_ ?_ <;> first | exact same_rfl | exact same_bit (by decide) hm | exact id | exact Fuses.Le.refl _ | exact fun _ => TimeVal.ofCount_ns _ | exact fun h => SMap.wf_filter _ h | exact fun _ => SMap.wf_nil _ _ | skip)
    | (with_reducible apply keeps_pair)

theorem State.keeperReset_keeps {m : Nat} {z s : State} (h0 : Keeps m z s) (hm : 0x7FFFFEBF17FFB3 &&& m = 0x7FFFFEBF17FFB3) : Keeps m z (State.keeperReset s) := by
  unfold State.keeperReset
  repeat' first
    | (extract_lets +onlyGivenNames x; refine keeps_cut (m := m) (z := z) (x := x) ?_ (fun hx => ?_); rotate_left; generalize x = y at hx ⊢; clear x; rotate_left; subst x)
    | (extract_lets +onlyGivenNames x; first | (subst x) | skip)
    | with_reducible assumption
    | exact mask_sub (by decide) hm
    | with_reducible apply State.clockReset_keeps
    | with_reducible apply State.setF_keeps
    | (intro _)
    | (simp only [keeps_mk]; refine keeps_updF ?_ ?_ ?_ ?_ ?_ ?_ ?_ ?_ ?_ ?_ ?_ ?_ ?_ ?_ ?_ ?_ ?_ ?_ ?_ ?_ ?_ ?_ ?_ ?_ ?_ ?_ ?_ ?_ ?_ ?_ ?_ ?_ ?_ ?_ ?_ ?_ ?_ ?_ ?_ <;> first | exact same_rfl | exact same_bit (by decide) hm | exact id | exact Fuses.Le.refl _ | exact fun _ => TimeVal.ofCount_ns _ | exact fun h => SMap.wf_filter _ h | exact fun _ => SMap.wf_nil _ _ | exact mask_sub (by decide) hm | skip)

theorem State.keepReset_keeps {m : Nat} {z s : State} (h0 : Keeps m z s) (hm : 0x7FFFFEBF17FFB3 &&& m = 0x7FFFFEBF17FFB3) : Keeps m z (State.keepReset s) := by
  unfold State.keepReset
  repeat' first
    | (extract_lets +onlyGivenNames x; refine keeps_cut (m := m) (z := z) (x := x) ?_ (fun hx => ?_); rotate_left; generalize x = y at hx ⊢; clear x; rotate_left; subst x)
    | (extract_lets +onlyGivenNames x; first | (subst x) | skip)
    | with_reducible assumption
    | exact mask_sub (by decide) hm
    | with_reducible apply State.keeperReset_keeps
    | (intro _)
    | with_reducible apply keeps_ite
    | with_reducible apply keeps_ite_fst
    | (simp only [keeps_mk]; refine keeps_upd ?_ ?_ ?_ ?_ ?_ ?_ ?_ ?_ ?_ ?_ ?_ ?_ ?_ ?_ ?_ ?_ ?_ ?_ ?_ ?_ ?_ ?_ ?_ ?_ ?_ ?_ ?_ ?_ ?_ ?_ ?_ ?_ ?_ ?_ ?_ ?_ ?_ <;> first | exact same_rfl | exact same_bit (by decide) hm | exact id | exact Fuses.Le.refl _ | exact fun _ => TimeVal.ofCount_ns _ | exact fun h => SMap.wf_filter _ h | exact fun _ => SMap.wf_nil _ _ | skip)
    | (with_reducible apply keeps_pair)

theorem State.keepLoss_keeps {m : Nat} {z s : State} (h0 : Keeps m z s) (hm : 0x7FFFFEBF17FFB3 &&& m = 0x7FFFFEBF17FFB3) : Keeps m z (State.keepLoss s) := by
  unfold State.keepLoss
  repeat' first
    | (extract_lets +onlyGivenNames x; refine keeps_cut (m := m) (z := z) (x := x) ?_ (fun hx => ?_); rotate_left; generalize x = y at hx ⊢; clear x; rotate_left; subst x)
    | (extract_lets +onlyGivenNames x; first | (subst x) | skip)
    | with_reducible assumption
    | exact mask_sub (by decide) hm
    | with_reducible apply State.keeperReset_keeps
    | with_reducible apply State.powerLost_keeps
    | (intro _)
    | (simp only [keeps_mk]; refine keeps_upd ?_ ?_ ?_ ?_ ?_ ?_ ?_ ?_ ?_ ?_ ?_ ?_ ?_ ?_ ?_ ?_ ?_ ?_ ?_ ?_ ?_ ?_ ?_ ?_ ?_ ?_ ?_ ?_ ?_ ?_ ?_ ?_ ?_ ?_ ?_ ?_ ?_ <;> first | exact same_rfl | exact same_bit (by decide) hm | exact id | exact Fuses.Le.refl _ | exact fun _ => TimeVal.ofCount_ns _ | exact fun h => SMap.wf_filter _ h | exact fun _ => SMap.wf_nil _ _ | skip)
    | (with_reducible apply keeps_pair)

theorem State.loadCairn_keeps {m : Nat} {z s : State} (h0 : Keeps m z s) (hm : 0x7FFFFFFFFFFFFF &&& m = 0x7FFFFFFFFFFFFF) : Keeps m z (State.loadCairn s) := by
  unfold State.loadCairn
  repeat' first
    | (extract_lets +onlyGivenNames x; refine keeps_cut (m := m) (z := z) (x := x) ?_ (fun hx => ?_); rotate_left; generalize x = y at hx ⊢; clear x; rotate_left; subst x)
    | (extract_lets +onlyGivenNames x; first | (subst x) | skip)
    | with_reducible assumption
    | exact mask_sub (by decide) hm
    | with_reducible apply State.showTable_keeps
    | with_reducible apply State.setTch_keeps
    | with_reducible apply State.setB_keeps
    | with_reducible apply State.wr_keeps
    | exact Reg.bit_all _ hm
    | (with_reducible apply keeps_foldl)
    | (with_reducible apply keeps_foldl_fst)
    | (with_reducible apply keeps_getD)
    | (intro _ _ _)
    | (intro _)
    | with_reducible apply keeps_ite
    | with_reducible apply keeps_ite_fst
    | (simp only [keeps_mk]; refine keeps_upd ?_ ?_ ?_ ?_ ?_ ?_ ?_ ?_ ?_ ?_ ?_ ?_ ?_ ?_ ?_ ?_ ?_ ?_ ?_ ?_ ?_ ?_ ?_ ?_ ?_ ?_ ?_ ?_ ?_ ?_ ?_ ?_ ?_ ?_ ?_ ?_ ?_ <;> first | exact same_rfl | exact same_bit (by decide) hm | exact id | exact Fuses.Le.refl _ | exact fun _ => TimeVal.ofCount_ns _ | exact fun h => SMap.wf_filter _ h | exact fun _ => SMap.wf_nil _ _ | skip)
    | (split)
    | (with_reducible apply keeps_pair)

theorem State.resumeJournal_keeps {m : Nat} {z s : State} (h0 : Keeps m z s) (hm : 0x1000000040000 &&& m = 0x1000000040000) : Keeps m z (State.resumeJournal s) := by
  unfold State.resumeJournal
  repeat' first
    | (extract_lets +onlyGivenNames x; refine keeps_cut (m := m) (z := z) (x := x) ?_ (fun hx => ?_); rotate_left; generalize x = y at hx ⊢; clear x; rotate_left; subst x)
    | (extract_lets +onlyGivenNames x; first | (subst x) | skip)
    | with_reducible assumption
    | exact mask_sub (by decide) hm
    | with_reducible apply State.setPair_keeps
    | (intro _)
    | (simp only [keeps_mk]; refine keeps_upd ?_ ?_ ?_ ?_ ?_ ?_ ?_ ?_ ?_ ?_ ?_ ?_ ?_ ?_ ?_ ?_ ?_ ?_ ?_ ?_ ?_ ?_ ?_ ?_ ?_ ?_ ?_ ?_ ?_ ?_ ?_ ?_ ?_ ?_ ?_ ?_ ?_ <;> first | exact same_rfl | exact same_bit (by decide) hm | exact id | exact Fuses.Le.refl _ | exact fun _ => TimeVal.ofCount_ns _ | exact fun h => SMap.wf_filter _ h | exact fun _ => SMap.wf_nil _ _ | skip)
    | (split)
    | (with_reducible apply keeps_pair)

theorem State.rearmLeap_keeps {m : Nat} {z s : State} (h0 : Keeps m z s) (hm : 0x200000008080 &&& m = 0x200000008080) : Keeps m z (State.rearmLeap s) := by
  unfold State.rearmLeap
  repeat' first
    | (extract_lets +onlyGivenNames x; refine keeps_cut (m := m) (z := z) (x := x) ?_ (fun hx => ?_); rotate_left; generalize x = y at hx ⊢; clear x; rotate_left; subst x)
    | (extract_lets +onlyGivenNames x; first | (subst x) | skip)
    | with_reducible assumption
    | exact mask_sub (by decide) hm
    | with_reducible apply State.engineArm_keeps
    | with_reducible apply State.setPair_keeps
    | with_reducible apply State.setB_keeps
    | with_reducible apply State.setF_keeps
    | (intro _)
    | (simp only [keeps_mk]; refine keeps_upd ?_ ?_ ?_ ?_ ?_ ?_ ?_ ?_ ?_ ?_ ?_ ?_ ?_ ?_ ?_ ?_ ?_ ?_ ?_ ?_ ?_ ?_ ?_ ?_ ?_ ?_ ?_ ?_ ?_ ?_ ?_ ?_ ?_ ?_ ?_ ?_ ?_ <;> first | exact same_rfl | exact same_bit (by decide) hm | exact id | exact Fuses.Le.refl _ | exact fun _ => TimeVal.ofCount_ns _ | exact fun h => SMap.wf_filter _ h | exact fun _ => SMap.wf_nil _ _ | skip)
    | (split)
    | (with_reducible apply keeps_pair)

theorem State.resumeDatum_keeps {m : Nat} {z s : State} (h0 : Keeps m z s) (hm : 0x1A00000148004 &&& m = 0x1A00000148004) (known : Bool) (elapsed : Nat) : Keeps m z (State.resumeDatum s known elapsed) := by
  unfold State.resumeDatum
  repeat' first
    | (extract_lets +onlyGivenNames x; refine keeps_cut (m := m) (z := z) (x := x) ?_ (fun hx => ?_); rotate_left; generalize x = y at hx ⊢; clear x; rotate_left; subst x)
    | (extract_lets +onlyGivenNames x; first | (subst x) | skip)
    | with_reducible assumption
    | exact mask_sub (by decide) hm
    | with_reducible apply State.beginNoWriter_keeps
    | with_reducible apply State.journal_keeps
    | with_reducible apply State.setPair_keeps
    | with_reducible apply State.setB_keeps
    | with_reducible apply State.setF_keeps
    | (intro _)
    | with_reducible apply keeps_ite
    | with_reducible apply keeps_ite_fst
    | (simp only [keeps_mk]; refine keeps_upd ?_ ?_ ?_ ?_ ?_ ?_ ?_ ?_ ?_ ?_ ?_ ?_ ?_ ?_ ?_ ?_ ?_ ?_ ?_ ?_ ?_ ?_ ?_ ?_ ?_ ?_ ?_ ?_ ?_ ?_ ?_ ?_ ?_ ?_ ?_ ?_ ?_ <;> first | exact same_rfl | exact same_bit (by decide) hm | exact id | exact Fuses.Le.refl _ | exact fun _ => TimeVal.ofCount_ns _ | exact fun h => SMap.wf_filter _ h | exact fun _ => SMap.wf_nil _ _ | skip)
    | (with_reducible apply keeps_pair)

theorem State.keeperStart_keeps {m : Nat} {z s : State} (h0 : Keeps m z s) (hm : 0x7FFFFFFFFFFFFF &&& m = 0x7FFFFFFFFFFFFF) (elapsed : Nat) : Keeps m z (State.keeperStart s elapsed) := by
  unfold State.keeperStart
  repeat' first
    | (extract_lets +onlyGivenNames x; refine keeps_cut (m := m) (z := z) (x := x) ?_ (fun hx => ?_); rotate_left; generalize x = y at hx ⊢; clear x; rotate_left; subst x)
    | (extract_lets +onlyGivenNames x; first | (subst x) | skip)
    | with_reducible assumption
    | exact mask_sub (by decide) hm
    | with_reducible apply State.resumeDatum_keeps
    | with_reducible apply State.rearmLeap_keeps
    | with_reducible apply State.resumeJournal_keeps
    | with_reducible apply State.loadCairn_keeps
    | with_reducible apply State.keepReset_keeps
    | with_reducible apply State.countLoss_keeps
    | with_reducible apply State.cairnReg_keeps
    | with_reducible apply State.startLoop_keeps
    | with_reducible apply State.pwrShow_keeps
    | with_reducible apply State.bump_keeps
    | exact Reg.bit_all _ hm
    | (with_reducible apply keeps_foldl)
    | (intro _ _ _)
    | (intro _)
    | with_reducible apply keeps_ite
    | with_reducible apply keeps_ite_fst
    | (simp only [keeps_mk]; refine keeps_upd ?_ ?_ ?_ ?_ ?_ ?_ ?_ ?_ ?_ ?_ ?_ ?_ ?_ ?_ ?_ ?_ ?_ ?_ ?_ ?_ ?_ ?_ ?_ ?_ ?_ ?_ ?_ ?_ ?_ ?_ ?_ ?_ ?_ ?_ ?_ ?_ ?_ <;> first | exact same_rfl | exact same_bit (by decide) hm | exact id | exact Fuses.Le.refl _ | exact fun _ => TimeVal.ofCount_ns _ | exact fun h => SMap.wf_filter _ h | exact fun _ => SMap.wf_nil _ _ | skip)
    | (with_reducible apply keeps_pair)

theorem State.leaveEmber_keeps {m : Nat} {z s : State} (h0 : Keeps m z s) (hm : 0x2044020480000 &&& m = 0x2044020480000) : Keeps m z (State.leaveEmber s) := by
  unfold State.leaveEmber
  repeat' first
    | (extract_lets +onlyGivenNames x; refine keeps_cut (m := m) (z := z) (x := x) ?_ (fun hx => ?_); rotate_left; generalize x = y at hx ⊢; clear x; rotate_left; subst x)
    | (extract_lets +onlyGivenNames x; first | (subst x) | skip)
    | with_reducible assumption
    | exact mask_sub (by decide) hm
    | with_reducible apply State.ungateGnss_keeps
    | with_reducible apply State.startLoop_keeps
    | (with_reducible apply keeps_foldl)
    | (intro _ _ _)
    | (intro _)
    | with_reducible apply keeps_ite
    | with_reducible apply keeps_ite_fst
    | (simp only [keeps_mk]; refine keeps_upd ?_ ?_ ?_ ?_ ?_ ?_ ?_ ?_ ?_ ?_ ?_ ?_ ?_ ?_ ?_ ?_ ?_ ?_ ?_ ?_ ?_ ?_ ?_ ?_ ?_ ?_ ?_ ?_ ?_ ?_ ?_ ?_ ?_ ?_ ?_ ?_ ?_ <;> first | exact same_rfl | exact same_bit (by decide) hm | exact id | exact Fuses.Le.refl _ | exact fun _ => TimeVal.ofCount_ns _ | exact fun h => SMap.wf_filter _ h | exact fun _ => SMap.wf_nil _ _ | skip)
    | (with_reducible apply keeps_pair)

theorem State.startLines_keeps {m : Nat} {z s : State} (h0 : Keeps m z s) (hm : 0x4000004000 &&& m = 0x4000004000) : Keeps m z (State.startLines s) := by
  unfold State.startLines
  repeat' first
    | (extract_lets +onlyGivenNames x; refine keeps_cut (m := m) (z := z) (x := x) ?_ (fun hx => ?_); rotate_left; generalize x = y at hx ⊢; clear x; rotate_left; subst x)
    | (extract_lets +onlyGivenNames x; first | (subst x) | skip)
    | with_reducible assumption
    | exact mask_sub (by decide) hm
    | with_reducible apply State.ticRingLine_keeps
    | with_reducible apply State.irqLine_keeps
    | (with_reducible apply keeps_foldl)
    | (intro _ _ _)
    | (intro _)

theorem State.coreStart_keeps {m : Nat} {z s : State} (h0 : Keeps m z s) (hm : 0x323F5066696382 &&& m = 0x323F5066696382) (ddr0 ddr1 : BitVec 32) (failed : List Nat) : Keeps m z (State.coreStart s ddr0 ddr1 failed) := by
  unfold State.coreStart
  repeat' first
    | (extract_lets +onlyGivenNames x; refine keeps_cut (m := m) (z := z) (x := x) ?_ (fun hx => ?_); rotate_left; generalize x = y at hx ⊢; clear x; rotate_left; subst x)
    | (extract_lets +onlyGivenNames x; first | (subst x) | skip)
    | with_reducible assumption
    | exact mask_sub (by decide) hm
    | with_reducible apply State.startLines_keeps
    | with_reducible apply State.leaveEmber_keeps
    | with_reducible apply State.countLoss_keeps
    | with_reducible apply State.bootOne_keeps
    | with_reducible apply State.bootShow_keeps
    | with_reducible apply State.svcRefuse_keeps
    | with_reducible apply State.matStart_keeps
    | with_reducible apply State.keyLoad_keeps
    | with_reducible refine State.raiseLow_keeps ?_ ?_ (by dsimp only; decide)
    | with_reducible apply State.raise_keeps
    | with_reducible apply State.bump_keeps
    | with_reducible apply State.setB_keeps
    | with_reducible apply State.setF_keeps
    | with_reducible apply State.wr_keeps
    | (with_reducible apply keeps_foldl)
    | (intro _ _ _)
    | (intro _)
    | with_reducible apply keeps_ite
    | with_reducible apply keeps_ite_fst
    | (simp only [keeps_mk]; refine keeps_upd ?_ ?_ ?_ ?_ ?_ ?_ ?_ ?_ ?_ ?_ ?_ ?_ ?_ ?_ ?_ ?_ ?_ ?_ ?_ ?_ ?_ ?_ ?_ ?_ ?_ ?_ ?_ ?_ ?_ ?_ ?_ ?_ ?_ ?_ ?_ ?_ ?_ <;> first | exact same_rfl | exact same_bit (by decide) hm | exact id | exact Fuses.Le.refl _ | exact fun _ => TimeVal.ofCount_ns _ | exact fun h => SMap.wf_filter _ h | exact fun _ => SMap.wf_nil _ _ | skip)
    | (with_reducible apply keeps_pair)

theorem State.kindle_keeps {m : Nat} {z s : State} (h0 : Keeps m z s) (hm : 0x204020008080 &&& m = 0x204020008080) : Keeps m z (State.kindle s) := by
  unfold State.kindle
  repeat' first
    | (extract_lets +onlyGivenNames x; refine keeps_cut (m := m) (z := z) (x := x) ?_ (fun hx => ?_); rotate_left; generalize x = y at hx ⊢; clear x; rotate_left; subst x)
    | (extract_lets +onlyGivenNames x; first | (subst x) | skip)
    | with_reducible assumption
    | exact mask_sub (by decide) hm
    | with_reducible apply State.openSettle_keeps
    | (intro _)
    | with_reducible apply keeps_ite
    | (simp only [keeps_mk]; refine keeps_upd ?_ ?_ ?_ ?_ ?_ ?_ ?_ ?_ ?_ ?_ ?_ ?_ ?_ ?_ ?_ ?_ ?_ ?_ ?_ ?_ ?_ ?_ ?_ ?_ ?_ ?_ ?_ ?_ ?_ ?_ ?_ ?_ ?_ ?_ ?_ ?_ ?_ <;> first | exact same_rfl | exact same_bit (by decide) hm | exact id | exact Fuses.Le.refl _ | exact fun _ => TimeVal.ofCount_ns _ | exact fun h => SMap.wf_filter _ h | exact fun _ => SMap.wf_nil _ _ | skip)

theorem State.enterEmber_keeps {m : Nat} {z s : State} (h0 : Keeps m z s) (hm : 0x7FFFFE7FD7FFB6 &&& m = 0x7FFFFE7FD7FFB6) : Keeps m z (State.enterEmber s) := by
  unfold State.enterEmber
  repeat' first
    | (extract_lets +onlyGivenNames x; refine keeps_cut (m := m) (z := z) (x := x) ?_ (fun hx => ?_); rotate_left; generalize x = y at hx ⊢; clear x; rotate_left; subst x)
    | (extract_lets +onlyGivenNames x; first | (subst x) | skip)
    | with_reducible assumption
    | exact mask_sub (by decide) hm
    | with_reducible apply State.commitAll_keeps
    | with_reducible apply State.gateGnss_keeps
    | with_reducible apply State.setDebug_keeps
    | with_reducible apply State.setLoopState_keeps
    | with_reducible apply State.coreReset_keeps
    | with_reducible apply State.pwrShow_keeps
    | (with_reducible apply keeps_foldl)
    | (intro _ _ _)
    | (intro _)
    | with_reducible apply keeps_ite
    | with_reducible apply keeps_ite_fst
    | (simp only [keeps_mk]; refine keeps_upd ?_ ?_ ?_ ?_ ?_ ?_ ?_ ?_ ?_ ?_ ?_ ?_ ?_ ?_ ?_ ?_ ?_ ?_ ?_ ?_ ?_ ?_ ?_ ?_ ?_ ?_ ?_ ?_ ?_ ?_ ?_ ?_ ?_ ?_ ?_ ?_ ?_ <;> first | exact same_rfl | exact same_bit (by decide) hm | exact id | exact Fuses.Le.refl _ | exact fun _ => TimeVal.ofCount_ns _ | exact fun h => SMap.wf_filter _ h | exact fun _ => SMap.wf_nil _ _ | skip)
    | (with_reducible apply keeps_pair)

theorem State.shutdown_keeps {m : Nat} {z s : State} (h0 : Keeps m z s) (hm : 0x4922494B064D84 &&& m = 0x4922494B064D84) : Keeps m z (State.shutdown s) := by
  unfold State.shutdown
  repeat' first
    | (extract_lets +onlyGivenNames x; refine keeps_cut (m := m) (z := z) (x := x) ?_ (fun hx => ?_); rotate_left; generalize x = y at hx ⊢; clear x; rotate_left; subst x)
    | (extract_lets +onlyGivenNames x; first | (subst x) | skip)
    | with_reducible assumption
    | exact mask_sub (by decide) hm
    | with_reducible apply State.commitAll_keeps
    | with_reducible apply State.envStop_keeps
    | with_reducible apply State.portIdle_keeps
    | (with_reducible apply keeps_foldl)
    | (intro _ _ _)
    | (intro _)

theorem State.holdCore_keeps {m : Nat} {z s : State} (h0 : Keeps m z s) (hm : 0x7FFFFE3F17FFB2 &&& m = 0x7FFFFE3F17FFB2) : Keeps m z (State.holdCore s) := by
  unfold State.holdCore
  repeat' first
    | (extract_lets +onlyGivenNames x; refine keeps_cut (m := m) (z := z) (x := x) ?_ (fun hx => ?_); rotate_left; generalize x = y at hx ⊢; clear x; rotate_left; subst x)
    | (extract_lets +onlyGivenNames x; first | (subst x) | skip)
    | with_reducible assumption
    | exact mask_sub (by decide) hm
    | with_reducible apply State.coreReset_keeps
    | (intro _)
    | with_reducible apply keeps_ite
    | (simp only [keeps_mk]; refine keeps_upd ?_ ?_ ?_ ?_ ?_ ?_ ?_ ?_ ?_ ?_ ?_ ?_ ?_ ?_ ?_ ?_ ?_ ?_ ?_ ?_ ?_ ?_ ?_ ?_ ?_ ?_ ?_ ?_ ?_ ?_ ?_ ?_ ?_ ?_ ?_ ?_ ?_ <;> first | exact same_rfl | exact same_bit (by decide) hm | exact id | exact Fuses.Le.refl _ | exact fun _ => TimeVal.ofCount_ns _ | exact fun h => SMap.wf_filter _ h | exact fun _ => SMap.wf_nil _ _ | skip)

theorem State.emberAuto_keeps {m : Nat} {z s : State} (h0 : Keeps m z s) (hm : 0x7FFFFE7FD7FFB6 &&& m = 0x7FFFFE7FD7FFB6) : Keeps m z (State.emberAuto s) := by
  unfold State.emberAuto
  repeat' first
    | (extract_lets +onlyGivenNames x; refine keeps_cut (m := m) (z := z) (x := x) ?_ (fun hx => ?_); rotate_left; generalize x = y at hx ⊢; clear x; rotate_left; subst x)
    | (extract_lets +onlyGivenNames x; first | (subst x) | skip)
    | with_reducible assumption
    | exact mask_sub (by decide) hm
    | with_reducible apply State.enterEmber_keeps
    | with_reducible apply State.count_keeps
    | (intro _)
    | with_reducible apply keeps_ite
    | (split)

theorem State.pwrfailOn_keeps {m : Nat} {z s : State} (h0 : Keeps m z s) (hm : 0x1265862074084 &&& m = 0x1265862074084) : Keeps m z (State.pwrfailOn s) := by
  unfold State.pwrfailOn
  repeat' first
    | (extract_lets +onlyGivenNames x; refine keeps_cut (m := m) (z := z) (x := x) ?_ (fun hx => ?_); rotate_left; generalize x = y at hx ⊢; clear x; rotate_left; subst x)
    | (extract_lets +onlyGivenNames x; first | (subst x) | skip)
    | with_reducible assumption
    | exact mask_sub (by decide) hm
    | with_reducible apply State.commitAll_keeps
    | with_reducible apply State.envStop_keeps
    | with_reducible refine State.raiseLow_keeps ?_ ?_ (by dsimp only; decide)
    | with_reducible apply State.raise_keeps
    | with_reducible apply State.pwrShow_keeps
    | with_reducible apply State.irqLine_keeps
    | with_reducible apply State.setB_keeps
    | (intro _)
    | with_reducible apply keeps_ite
    | with_reducible apply keeps_ite_fst
    | (simp only [keeps_mk]; refine keeps_upd ?_ ?_ ?_ ?_ ?_ ?_ ?_ ?_ ?_ ?_ ?_ ?_ ?_ ?_ ?_ ?_ ?_ ?_ ?_ ?_ ?_ ?_ ?_ ?_ ?_ ?_ ?_ ?_ ?_ ?_ ?_ ?_ ?_ ?_ ?_ ?_ ?_ <;> first | exact same_rfl | exact same_bit (by decide) hm | exact id | exact Fuses.Le.refl _ | exact fun _ => TimeVal.ofCount_ns _ | exact fun h => SMap.wf_filter _ h | exact fun _ => SMap.wf_nil _ _ | skip)
    | (with_reducible apply keeps_pair)

theorem State.pwrfailOff_keeps {m : Nat} {z s : State} (h0 : Keeps m z s) (hm : 0x44020024000 &&& m = 0x44020024000) : Keeps m z (State.pwrfailOff s) := by
  unfold State.pwrfailOff
  repeat' first
    | (extract_lets +onlyGivenNames x; refine keeps_cut (m := m) (z := z) (x := x) ?_ (fun hx => ?_); rotate_left; generalize x = y at hx ⊢; clear x; rotate_left; subst x)
    | (extract_lets +onlyGivenNames x; first | (subst x) | skip)
    | with_reducible assumption
    | exact mask_sub (by decide) hm
    | with_reducible apply State.pwrShow_keeps
    | with_reducible apply State.irqLine_keeps
    | with_reducible apply State.setB_keeps
    | (intro _)
    | with_reducible apply keeps_ite
    | with_reducible apply keeps_ite_fst
    | (simp only [keeps_mk]; refine keeps_upd ?_ ?_ ?_ ?_ ?_ ?_ ?_ ?_ ?_ ?_ ?_ ?_ ?_ ?_ ?_ ?_ ?_ ?_ ?_ ?_ ?_ ?_ ?_ ?_ ?_ ?_ ?_ ?_ ?_ ?_ ?_ ?_ ?_ ?_ ?_ ?_ ?_ <;> first | exact same_rfl | exact same_bit (by decide) hm | exact id | exact Fuses.Le.refl _ | exact fun _ => TimeVal.ofCount_ns _ | exact fun h => SMap.wf_filter _ h | exact fun _ => SMap.wf_nil _ _ | skip)
    | (with_reducible apply keeps_pair)

theorem State.pwrWrite_keeps {m : Nat} {z s : State} {r : Reg} (h0 : Keeps m z s) (hm : 0x40000000000 &&& m = 0x40000000000) (hr_bit : r.bit &&& m = r.bit) (v : BitVec 32) : Keeps m z (State.pwrWrite s r v) := by
  unfold State.pwrWrite
  repeat' first
    | with_reducible assumption
    | exact mask_sub (by decide) hm
    | with_reducible apply State.wrRw_keeps
    | with_reducible apply State.w1c_keeps
    | with_reducible apply State.setB_keeps
    | (intro _)
    | with_reducible apply keeps_ite

theorem State.sensors_keeps {m : Nat} {z s : State} (h0 : Keeps m z s) (hm : 0x7FFFFE3F37FFB2 &&& m = 0x7FFFFE3F37FFB2) (clk core : Int) (quads : List Int) : Keeps m z (State.sensors s clk core quads) := by
  unfold State.sensors
  repeat' first
    | (extract_lets +onlyGivenNames x; refine keeps_cut (m := m) (z := z) (x := x) ?_ (fun hx => ?_); rotate_left; generalize x = y at hx ⊢; clear x; rotate_left; subst x)
    | (extract_lets +onlyGivenNames x; first | (subst x) | skip)
    | with_reducible assumption
    | exact mask_sub (by decide) hm
    | with_reducible apply State.calTemp_keeps
    | with_reducible refine State.raiseLow_keeps ?_ ?_ (by dsimp only; decide)
    | with_reducible apply State.raise_keeps
    | with_reducible apply State.coreReset_keeps
    | with_reducible apply State.askPin_keeps
    | with_reducible apply State.irqPulse_keeps
    | with_reducible apply State.setB_keeps
    | (with_reducible apply keeps_foldl)
    | (intro _ _ _)
    | (intro _)
    | with_reducible apply keeps_ite
    | with_reducible apply keeps_ite_fst
    | (simp only [keeps_mk]; refine keeps_upd ?_ ?_ ?_ ?_ ?_ ?_ ?_ ?_ ?_ ?_ ?_ ?_ ?_ ?_ ?_ ?_ ?_ ?_ ?_ ?_ ?_ ?_ ?_ ?_ ?_ ?_ ?_ ?_ ?_ ?_ ?_ ?_ ?_ ?_ ?_ ?_ ?_ <;> first | exact same_rfl | exact same_bit (by decide) hm | exact id | exact Fuses.Le.refl _ | exact fun _ => TimeVal.ofCount_ns _ | exact fun h => SMap.wf_filter _ h | exact fun _ => SMap.wf_nil _ _ | skip)
    | (with_reducible apply keeps_pair)

/-! ### Machine/RegWrite.lean -/

theorem State.dtmWrite_keeps {m : Nat} {z s : State} {r : Reg} (h0 : Keeps m z s) (hm : 0x20544005C080 &&& m = 0x20544005C080) (hr_bit : r.bit &&& m = r.bit) (i : Nat) (v : BitVec 32) : Keeps m z (State.dtmWrite s r i v) := by
  unfold State.dtmWrite
  repeat' first
    | (extract_lets +onlyGivenNames x; refine keeps_cut (m := m) (z := z) (x := x) ?_ (fun hx => ?_); rotate_left; generalize x = y at hx ⊢; clear x; rotate_left; subst x)
    | (extract_lets +onlyGivenNames x; first | (subst x) | skip)
    | with_reducible assumption
    | exact mask_sub (by decide) hm
    | with_reducible apply State.snapGo_keeps
    | with_reducible apply State.utcWrite_keeps
    | with_reducible apply State.leapCtl_keeps
    | with_reducible apply State.stepHost_keeps
    | with_reducible refine keeps_of_fst (by assumption) (State.stepHost_keeps ?_ ?_ ..)
    | with_reducible apply State.settleCtl_keeps
    | with_reducible apply State.incHost_keeps
    | with_reducible apply State.wrRw_keeps
    | with_reducible apply State.w1c_keeps
    | with_reducible apply State.setB_keeps
    | (intro _)
    | with_reducible apply keeps_ite
    | with_reducible apply keeps_ite_fst
    | (simp only [keeps_mk]; refine keeps_upd ?_ ?_ ?_ ?_ ?_ ?_ ?_ ?_ ?_ ?_ ?_ ?_ ?_ ?_ ?_ ?_ ?_ ?_ ?_ ?_ ?_ ?_ ?_ ?_ ?_ ?_ ?_ ?_ ?_ ?_ ?_ ?_ ?_ ?_ ?_ ?_ ?_ <;> first | exact same_rfl | exact same_bit (by decide) hm | exact id | exact Fuses.Le.refl _ | exact fun _ => TimeVal.ofCount_ns _ | exact fun h => SMap.wf_filter _ h | exact fun _ => SMap.wf_nil _ _ | skip)
    | (with_reducible apply keeps_pair)

theorem State.keyWrite_keeps {m : Nat} {z s : State} {r : Reg} (h0 : Keeps m z s) (hm : 0x24802024000 &&& m = 0x24802024000) (hr_bit : r.bit &&& m = r.bit) (i : Nat) (v : BitVec 32) : Keeps m z (State.keyWrite s r i v) := by
  unfold State.keyWrite
  repeat' first
    | with_reducible assumption
    | exact mask_sub (by decide) hm
    | with_reducible apply State.envStop_keeps
    | with_reducible apply State.w1c_keeps
    | (intro _)
    | with_reducible apply keeps_ite

theorem State.restartThread_keeps {m : Nat} {z s : State} (h0 : Keeps m z s) (hm : 0x100 &&& m = 0x100) {th : Nat} {r : State} (e0 : State.restartThread s th = some r) : Keeps m z r := by
  unfold State.restartThread at e0
  revert e0
  repeat' first
    | (extract_lets +onlyGivenNames x; refine keeps_cut (m := m) (z := z) (x := x) ?_ (fun hx => ?_); rotate_left; generalize x = y at hx ⊢; clear x; rotate_left; subst x)
    | (extract_lets +onlyGivenNames x; first | (subst x) | skip)
    | with_reducible assumption
    | exact mask_sub (by decide) hm
    | with_reducible apply State.setThread_keeps
    | (with_reducible apply keeps_getD)
    | (split)
    | (intro e0; cases e0; first | done | dsimp only | skip)
    | (with_reducible apply keeps_pair)

theorem State.stkWrite_keeps {m : Nat} {z s : State} {r : Reg} (h0 : Keeps m z s) (hm : 0x2020420000FD82 &&& m = 0x2020420000FD82) (hr_bit : r.bit &&& m = r.bit) (n : Nat) (v : BitVec 32) : Keeps m z (State.stkWrite s r n v) := by
  unfold State.stkWrite
  repeat' first
    | with_reducible assumption
    | exact mask_sub (by decide) hm
    | with_reducible refine State.restartThread_keeps ?_ ?_ (by assumption)
    | with_reducible apply State.abortThread_keeps
    | with_reducible apply State.pmcUser_keeps
    | with_reducible apply State.w1c_keeps
    | (with_reducible apply keeps_foldl)
    | (with_reducible apply keeps_getD)
    | (intro _ _ _)
    | (intro _)
    | with_reducible apply keeps_ite

theorem State.unlockWrite_keeps {m : Nat} {z s : State} (h0 : Keeps m z s) (hm : 0x205400030080 &&& m = 0x205400030080) (v : BitVec 32) : Keeps m z (State.unlockWrite s v) := by
  unfold State.unlockWrite
  repeat' first
    | (extract_lets +onlyGivenNames x; refine keeps_cut (m := m) (z := z) (x := x) ?_ (fun hx => ?_); rotate_left; generalize x = y at hx ⊢; clear x; rotate_left; subst x)
    | (extract_lets +onlyGivenNames x; first | (subst x) | skip)
    | with_reducible assumption
    | exact mask_sub (by decide) hm
    | with_reducible apply State.lockViol_keeps
    | with_reducible apply State.setB_keeps
    | (intro _)
    | with_reducible apply keeps_ite
    | (simp only [keeps_mk]; refine keeps_upd ?_ ?_ ?_ ?_ ?_ ?_ ?_ ?_ ?_ ?_ ?_ ?_ ?_ ?_ ?_ ?_ ?_ ?_ ?_ ?_ ?_ ?_ ?_ ?_ ?_ ?_ ?_ ?_ ?_ ?_ ?_ ?_ ?_ ?_ ?_ ?_ ?_ <;> first | exact same_rfl | exact same_bit (by decide) hm | exact id | exact Fuses.Le.refl _ | exact fun _ => TimeVal.ofCount_ns _ | exact fun h => SMap.wf_filter _ h | exact fun _ => SMap.wf_nil _ _ | skip)

theorem State.topWrite_keeps {m : Nat} {z s : State} {r : Reg} (h0 : Keeps m z s) (hm : 0x205400030080 &&& m = 0x205400030080) (hr_bit : r.bit &&& m = r.bit) (v : BitVec 32) : Keeps m z (State.topWrite s r v) := by
  unfold State.topWrite
  repeat' first
    | with_reducible assumption
    | exact mask_sub (by decide) hm
    | with_reducible apply State.unlockWrite_keeps
    | with_reducible apply State.wr_keeps
    | (intro _)
    | with_reducible apply keeps_ite

theorem State.applyWrite_keeps {m : Nat} {z s : State} (h0 : Keeps m z s) (hm : 0x7FFFFFFFFFFFFF &&& m = 0x7FFFFFFFFFFFFF) (p : Party) (r : Reg) (i : Nat) (v : BitVec 32) : Keeps m z (State.applyWrite s p r i v) := by
  unfold State.applyWrite
  repeat' first
    | (extract_lets +onlyGivenNames x; refine keeps_cut (m := m) (z := z) (x := x) ?_ (fun hx => ?_); rotate_left; generalize x = y at hx ⊢; clear x; rotate_left; subst x)
    | (extract_lets +onlyGivenNames x; first | (subst x) | skip)
    | with_reducible assumption
    | exact mask_sub (by decide) hm
    | with_reducible apply State.topWrite_keeps
    | with_reducible apply State.stkWrite_keeps
    | with_reducible apply State.keyWrite_keeps
    | with_reducible apply State.dtmWrite_keeps
    | with_reducible apply State.pwrWrite_keeps
    | with_reducible apply State.dbgCtl_keeps
    | with_reducible apply State.svcWrite_keeps
    | with_reducible apply State.memWrite_keeps
    | with_reducible apply State.hstWrite_keeps
    | with_reducible apply State.dmpWrite_keeps
    | with_reducible apply State.dfdtTake_keeps
    | with_reducible apply State.fltWrite_keeps
    | with_reducible apply State.irqWrite_keeps
    | with_reducible apply State.matWrite_keeps
    | with_reducible apply State.prtWrite_keeps
    | with_reducible apply State.gnsWrite_keeps
    | with_reducible apply State.synWrite_keeps
    | with_reducible apply State.trvWrite_keeps
    | with_reducible apply State.ensWrite_keeps
    | with_reducible apply State.ticWrite_keeps
    | with_reducible apply State.pmcWrite_keeps
    | exact Reg.bit_all _ hm
    | (intro _)
    | with_reducible apply keeps_ite

theorem State.flushPosted_keeps {m : Nat} {z s : State} (h0 : Keeps m z s) (hm : 0x7FFFFFFFFFFFFF &&& m = 0x7FFFFFFFFFFFFF) : Keeps m z (State.flushPosted s) := by
  unfold State.flushPosted
  repeat' first
    | (extract_lets +onlyGivenNames x; refine keeps_cut (m := m) (z := z) (x := x) ?_ (fun hx => ?_); rotate_left; generalize x = y at hx ⊢; clear x; rotate_left; subst x)
    | (extract_lets +onlyGivenNames x; first | (subst x) | skip)
    | with_reducible assumption
    | exact mask_sub (by decide) hm
    | with_reducible apply State.applyWrite_keeps
    | exact Reg.bit_all _ hm
    | (with_reducible apply keeps_foldl)
    | (intro _ _ _)
    | (intro _)
    | (simp only [keeps_mk]; refine keeps_upd ?_ ?_ ?_ ?_ ?_ ?_ ?_ ?_ ?_ ?_ ?_ ?_ ?_ ?_ ?_ ?_ ?_ ?_ ?_ ?_ ?_ ?_ ?_ ?_ ?_ ?_ ?_ ?_ ?_ ?_ ?_ ?_ ?_ ?_ ?_ ?_ ?_ <;> first | exact same_rfl | exact same_bit (by decide) hm | exact id | exact Fuses.Le.refl _ | exact fun _ => TimeVal.ofCount_ns _ | exact fun h => SMap.wf_filter _ h | exact fun _ => SMap.wf_nil _ _ | skip)

theorem State.post_keeps {m : Nat} {z s : State} (h0 : Keeps m z s) (hm : 0x20000 &&& m = 0x20000) (p : Party) (r : Reg) (i : Nat) (v : BitVec 32) : Keeps m z (State.post s p r i v) := by
  unfold State.post
  repeat' first
    | (extract_lets +onlyGivenNames x; refine keeps_cut (m := m) (z := z) (x := x) ?_ (fun hx => ?_); rotate_left; generalize x = y at hx ⊢; clear x; rotate_left; subst x)
    | (extract_lets +onlyGivenNames x; first | (subst x) | skip)
    | with_reducible assumption
    | exact mask_sub (by decide) hm
    | (intro _)
    | (simp only [keeps_mk]; refine keeps_upd ?_ ?_ ?_ ?_ ?_ ?_ ?_ ?_ ?_ ?_ ?_ ?_ ?_ ?_ ?_ ?_ ?_ ?_ ?_ ?_ ?_ ?_ ?_ ?_ ?_ ?_ ?_ ?_ ?_ ?_ ?_ ?_ ?_ ?_ ?_ ?_ ?_ <;> first | exact same_rfl | exact same_bit (by decide) hm | exact id | exact Fuses.Le.refl _ | exact fun _ => TimeVal.ofCount_ns _ | exact fun h => SMap.wf_filter _ h | exact fun _ => SMap.wf_nil _ _ | skip)
    | (with_reducible apply keeps_pair)

theorem State.front_keeps {m : Nat} {z s : State} (h0 : Keeps m z s) (hm : 0x205C00030080 &&& m = 0x205C00030080) (r : Reg) (i : Nat) : Keeps m z (State.front s r i).1 := by
  unfold State.front
  repeat' first
    | (extract_lets +onlyGivenNames x; refine keeps_cut (m := m) (z := z) (x := x) ?_ (fun hx => ?_); rotate_left; generalize x = y at hx ⊢; clear x; rotate_left; subst x)
    | (extract_lets +onlyGivenNames x; first | (subst x) | skip)
    | with_reducible assumption
    | exact mask_sub (by decide) hm
    | with_reducible apply State.ownViol_keeps
    | with_reducible apply State.wosViol_keeps
    | with_reducible apply State.lockViol_keeps
    | with_reducible apply State.setB_keeps
    | (intro _)
    | with_reducible apply keeps_ite
    | with_reducible apply keeps_ite_fst
    | (simp only [keeps_mk]; refine keeps_upd ?_ ?_ ?_ ?_ ?_ ?_ ?_ ?_ ?_ ?_ ?_ ?_ ?_ ?_ ?_ ?_ ?_ ?_ ?_ ?_ ?_ ?_ ?_ ?_ ?_ ?_ ?_ ?_ ?_ ?_ ?_ ?_ ?_ ?_ ?_ ?_ ?_ <;> first | exact same_rfl | exact same_bit (by decide) hm | exact id | exact Fuses.Le.refl _ | exact fun _ => TimeVal.ofCount_ns _ | exact fun h => SMap.wf_filter _ h | exact fun _ => SMap.wf_nil _ _ | skip)
    | (split)
    | (with_reducible apply keeps_pair)

theorem State.hostRow_keeps {m : Nat} {z s : State} (h0 : Keeps m z s) (hm : 0x7FFFFFFFFFFFFF &&& m = 0x7FFFFFFFFFFFFF) (r : Reg) (i : Nat) (v : BitVec 32) : Keeps m z (State.hostRow s r i v) := by
  unfold State.hostRow
  repeat' first
    | (extract_lets +onlyGivenNames x; refine keeps_cut (m := m) (z := z) (x := x) ?_ (fun hx => ?_); rotate_left; generalize x = y at hx ⊢; clear x; rotate_left; subst x)
    | (extract_lets +onlyGivenNames x; first | (subst x) | skip)
    | with_reducible assumption
    | exact mask_sub (by decide) hm
    | with_reducible apply State.front_keeps
    | with_reducible refine keeps_of_fst (by assumption) (State.front_keeps ?_ ?_ ..)
    | with_reducible apply State.flushPosted_keeps
    | with_reducible apply State.applyWrite_keeps
    | exact Reg.bit_all _ hm
    | (intro _)
    | with_reducible apply keeps_ite

theorem State.hostPosted_keeps {m : Nat} {z s : State} (h0 : Keeps m z s) (hm : 0x7FFFFFFFFFFFFF &&& m = 0x7FFFFFFFFFFFFF) (r : Reg) (i : Nat) (v : BitVec 32) : Keeps m z (State.hostPosted s r i v) := by
  unfold State.hostPosted
  repeat' first
    | (extract_lets +onlyGivenNames x; refine keeps_cut (m := m) (z := z) (x := x) ?_ (fun hx => ?_); rotate_left; generalize x = y at hx ⊢; clear x; rotate_left; subst x)
    | (extract_lets +onlyGivenNames x; first | (subst x) | skip)
    | with_reducible assumption
    | exact mask_sub (by decide) hm
    | with_reducible apply State.front_keeps
    | with_reducible refine keeps_of_fst (by assumption) (State.front_keeps ?_ ?_ ..)
    | with_reducible apply State.post_keeps
    | with_reducible apply State.applyWrite_keeps
    | exact Reg.bit_all _ hm
    | (intro _)
    | with_reducible apply keeps_ite

theorem State.bar0Write_keeps {m : Nat} {z s : State} (h0 : Keeps m z s) (hm : 0x7FFFFFFFFFFFFF &&& m = 0x7FFFFFFFFFFFFF) (off size : Nat) (v : BitVec 64) : Keeps m z (State.bar0Write s off size v) := by
  unfold State.bar0Write
  repeat' first
    | (extract_lets +onlyGivenNames x; refine keeps_cut (m := m) (z := z) (x := x) ?_ (fun hx => ?_); rotate_left; generalize x = y at hx ⊢; clear x; rotate_left; subst x)
    | (extract_lets +onlyGivenNames x; first | (subst x) | skip)
    | with_reducible assumption
    | exact mask_sub (by decide) hm
    | with_reducible apply State.hostPosted_keeps
    | with_reducible apply State.msixWrite_keeps
    | exact Reg.bit_all _ hm
    | (intro _)
    | with_reducible apply keeps_ite
    | with_reducible apply keeps_ite_fst
    | (split)
    | (with_reducible apply keeps_pair)

theorem State.progWrite_keeps {m : Nat} {z s : State} (h0 : Keeps m z s) (hm : 0x7FFFFFFFFFFFFF &&& m = 0x7FFFFFFFFFFFFF) (th : Nat) (r : Reg) (i : Nat) (v insn : BitVec 32) : Keeps m z (State.progWrite s th r i v insn) := by
  unfold State.progWrite
  repeat' first
    | (extract_lets +onlyGivenNames x; refine keeps_cut (m := m) (z := z) (x := x) ?_ (fun hx => ?_); rotate_left; generalize x = y at hx ⊢; clear x; rotate_left; subst x)
    | (extract_lets +onlyGivenNames x; first | (subst x) | skip)
    | with_reducible assumption
    | exact mask_sub (by decide) hm
    | with_reducible apply State.post_keeps
    | with_reducible apply State.applyWrite_keeps
    | with_reducible apply State.tallyWrite_keeps
    | with_reducible apply State.incProgram_keeps
    | with_reducible refine keeps_of_fst (by assumption) (State.incProgram_keeps ?_ ?_ ..)
    | with_reducible apply State.violation_keeps
    | with_reducible apply State.setB_keeps
    | exact Reg.bit_all _ hm
    | (intro _)
    | with_reducible apply keeps_ite
    | (simp only [keeps_mk]; refine keeps_upd ?_ ?_ ?_ ?_ ?_ ?_ ?_ ?_ ?_ ?_ ?_ ?_ ?_ ?_ ?_ ?_ ?_ ?_ ?_ ?_ ?_ ?_ ?_ ?_ ?_ ?_ ?_ ?_ ?_ ?_ ?_ ?_ ?_ ?_ ?_ ?_ ?_ <;> first | exact same_rfl | exact same_bit (by decide) hm | exact id | exact Fuses.Le.refl _ | exact fun _ => TimeVal.ofCount_ns _ | exact fun h => SMap.wf_filter _ h | exact fun _ => SMap.wf_nil _ _ | skip)
    | (split)

theorem State.copyRefresh_keeps {m : Nat} {z s : State} (h0 : Keeps m z s) (hm : 0x120480000C001 &&& m = 0x120480000C001) : Keeps m z (State.copyRefresh s) := by
  unfold State.copyRefresh
  repeat' first
    | (extract_lets +onlyGivenNames x; refine keeps_cut (m := m) (z := z) (x := x) ?_ (fun hx => ?_); rotate_left; generalize x = y at hx ⊢; clear x; rotate_left; subst x)
    | (extract_lets +onlyGivenNames x; first | (subst x) | skip)
    | with_reducible assumption
    | exact mask_sub (by decide) hm
    | with_reducible apply State.trvShow_keeps
    | with_reducible apply State.snapDone_keeps
    | with_reducible apply State.count_keeps
    | with_reducible apply State.setPair_keeps
    | with_reducible apply State.bump_keeps
    | with_reducible apply State.setB_keeps
    | with_reducible apply State.setF_keeps
    | with_reducible apply State.wr_keeps
    | (intro _)
    | with_reducible apply keeps_ite
    | (simp only [keeps_mk]; refine keeps_upd ?_ ?_ ?_ ?_ ?_ ?_ ?_ ?_ ?_ ?_ ?_ ?_ ?_ ?_ ?_ ?_ ?_ ?_ ?_ ?_ ?_ ?_ ?_ ?_ ?_ ?_ ?_ ?_ ?_ ?_ ?_ ?_ ?_ ?_ ?_ ?_ ?_ <;> first | exact same_rfl | exact same_bit (by decide) hm | exact id | exact Fuses.Le.refl _ | exact fun _ => TimeVal.ofCount_ns _ | exact fun h => SMap.wf_filter _ h | exact fun _ => SMap.wf_nil _ _ | skip)
    | (split)

end Sys2Proof.Machine
end

