-- ==== Sys2Proof/Laws/KeepsStoker.lean ====
section
/-!
SUPPORT. Laws/KeepsStoker.lean: what each operation keeps (Laws/Keeps.lean): the instructions of the Stoker threads.
-/
set_option linter.all false
namespace Sys2Proof.Machine

/-! ### Machine/StkOps.lean -/

theorem State.takeTrap_keeps {m : Nat} {z s : State} (h0 : Keeps m z s) (hm : 0x4020530801FD80 &&& m = 0x4020530801FD80) (th : Nat) (insn : BitVec 32) (e : Trap) : Keeps m z (State.takeTrap s th insn e) := by
  unfold State.takeTrap
  repeat' first
    | (extract_lets +onlyGivenNames x; refine keeps_cut (m := m) (z := z) (x := x) ?_ (fun hx => ?_); rotate_left; generalize x = y at hx ⊢; clear x; rotate_left; subst x)
    | (extract_lets +onlyGivenNames x; first | (subst x) | skip)
    | with_reducible assumption
    | exact mask_sub (by decide) hm
    | with_reducible refine State.raiseLow_keeps ?_ ?_ (by dsimp only; decide)
    | with_reducible apply State.raise_keeps
    | with_reducible apply State.cleanupThread_keeps
    | with_reducible apply State.pmcEvent_keeps
    | with_reducible apply State.setThread_keeps
    | (intro _)
    | with_reducible apply keeps_ite
    | with_reducible apply keeps_ite_fst
    | (with_reducible apply keeps_pair)

/-- What an instruction's effect keeps. -/
def EffKeeps (m : Nat) (z : State) (e : Eff) : Prop :=
  match e with
  | .ok t => Keeps m z t
  | _ => True

theorem Eff.ok_keeps {m : Nat} {z t : State} (h : Keeps m z t) : EffKeeps m z (.ok t) := h

theorem Eff.trap_keeps {m : Nat} {z : State} (e : Trap) : EffKeeps m z (.trap e) := trivial

theorem Eff.stall_keeps {m : Nat} {z : State} : EffKeeps m z .stall := trivial

theorem effKeeps_ite {m : Nat} {z : State} {a b : Eff} {c : Prop} [Decidable c] (ha : EffKeeps m z a) (hb : EffKeeps m z b) :
    EffKeeps m z (if c then a else b) := by
  split
  · exact ha
  · exact hb

theorem State.issue_keeps {m : Nat} {z s : State} (h : Keeps m z s) (hm : 0x4020530801FD80 &&& m = 0x4020530801FD80) (th : Nat) (insn : BitVec 32)
    (kOnly : Bool) (srcs : List Nat) {body : State → Eff} (hb : ∀ u, Keeps m z u → EffKeeps m z (body u)) :
    Keeps m z (s.issue th insn kOnly srcs body) := by
  have tt := fun e => State.takeTrap_keeps h (mask_sub (by decide) hm) th insn e
  have k := hb _ (State.setThread_keeps h (mask_sub (by decide) hm) th { (s.thread th) with pc := (s.thread th).pc + 4 })
  refine keeps_ite h (keeps_ite (tt _) (keeps_ite (tt _) ?_))
  generalize (s.thread th).poisonOf srcs = o
  cases o with
  | some a => exact tt _
  | none =>
    revert k
    generalize body (s.setThread th { (s.thread th) with pc := (s.thread th).pc + 4 }) = e
    intro k
    cases e with
    | ok u => exact State.pmcEvent_keeps k (mask_sub (by decide) hm) _ _ _ _ _
    | trap e => exact tt _
    | stall => exact h

theorem illegal_keeps (m : Nat) (z : State) (insn : BitVec 32) : EffKeeps m z (illegal insn) := trivial

theorem State.setG_keeps {m : Nat} {z s : State} (h0 : Keeps m z s) (hm : 0x100 &&& m = 0x100) (th i : Nat) (v : BitVec 64) : Keeps m z (State.setG s th i v) := by
  unfold State.setG
  repeat' first
    | with_reducible assumption
    | exact mask_sub (by decide) hm
    | with_reducible apply State.setThread_keeps
    | (intro _)

theorem State.setT_keeps {m : Nat} {z s : State} (h0 : Keeps m z s) (hm : 0x100 &&& m = 0x100) (th i : Nat) (v : TimeVal) : Keeps m z (State.setT s th i v) := by
  unfold State.setT
  repeat' first
    | with_reducible assumption
    | exact mask_sub (by decide) hm
    | with_reducible apply State.setThread_keeps
    | (intro _)

theorem State.setBd_keeps {m : Nat} {z s : State} (h0 : Keeps m z s) (hm : 0x100 &&& m = 0x100) (th i : Nat) (v : TagBound) : Keeps m z (State.setBd s th i v) := by
  unfold State.setBd
  repeat' first
    | with_reducible assumption
    | exact mask_sub (by decide) hm
    | with_reducible apply State.setThread_keeps
    | (intro _)

theorem State.setP_keeps {m : Nat} {z s : State} (h0 : Keeps m z s) (hm : 0x100 &&& m = 0x100) (th i : Nat) (v : Bool) : Keeps m z (State.setP s th i v) := by
  unfold State.setP
  repeat' first
    | with_reducible assumption
    | exact mask_sub (by decide) hm
    | with_reducible apply State.setThread_keeps
    | (intro _)

theorem State.setPc_keeps {m : Nat} {z s : State} (h0 : Keeps m z s) (hm : 0x100 &&& m = 0x100) (th : Nat) (v : BitVec 64) : Keeps m z (State.setPc s th v) := by
  unfold State.setPc
  repeat' first
    | (extract_lets +onlyGivenNames x; refine keeps_cut (m := m) (z := z) (x := x) ?_ (fun hx => ?_); rotate_left; generalize x = y at hx ⊢; clear x; rotate_left; subst x)
    | (extract_lets +onlyGivenNames x; first | (subst x) | skip)
    | with_reducible assumption
    | exact mask_sub (by decide) hm
    | with_reducible apply State.setThread_keeps
    | (intro _)

theorem State.putG_keeps {m : Nat} {z s : State} (h0 : Keeps m z s) (hm : 0x4020530801FD80 &&& m = 0x4020530801FD80) (th d : Nat) (insn : BitVec 32) (srcs : List Nat) (f : Thread → BitVec 64) : Keeps m z (State.putG s th d insn srcs f) := by
  unfold State.putG
  repeat' first
    | with_reducible assumption
    | exact mask_sub (by decide) hm
    | with_reducible apply State.setG_keeps
    | with_reducible apply State.issue_keeps
    | with_reducible apply Eff.ok_keeps
    | (intro _)

theorem State.putT_keeps {m : Nat} {z s : State} (h0 : Keeps m z s) (hm : 0x100 &&& m = 0x100) (th d : Nat) (v : Option TimeVal) : EffKeeps m z (State.putT s th d v) := by
  unfold State.putT
  repeat' first
    | (extract_lets +onlyGivenNames x; refine keeps_cut (m := m) (z := z) (x := x) ?_ (fun hx => ?_); rotate_left; generalize x = y at hx ⊢; clear x; rotate_left; subst x)
    | (extract_lets +onlyGivenNames x; first | (subst x) | skip)
    | with_reducible assumption
    | exact mask_sub (by decide) hm
    | with_reducible apply State.setT_keeps
    | with_reducible apply Eff.ok_keeps
    | with_reducible exact Eff.trap_keeps _
    | (intro _)
    | (split)
    | (with_reducible apply keeps_pair)

theorem State.answer_keeps {m : Nat} {z s : State} (h0 : Keeps m z s) (hm : 0x100 &&& m = 0x100) (th d : Nat) (st : Status) (detail result : Nat) : EffKeeps m z (State.answer s th d st detail result) := by
  unfold State.answer
  repeat' first
    | with_reducible assumption
    | exact mask_sub (by decide) hm
    | with_reducible apply State.setG_keeps
    | with_reducible apply Eff.ok_keeps
    | (intro _)

theorem State.insnEvent_keeps {m : Nat} {z s : State} (h0 : Keeps m z s) (hm : 0x40004108004000 &&& m = 0x40004108004000) (th code : Nat) (insn : BitVec 32) : Keeps m z (State.insnEvent s th code insn) := by
  unfold State.insnEvent
  repeat' first
    | with_reducible assumption
    | exact mask_sub (by decide) hm
    | with_reducible apply State.pmcEvent_keeps
    | (intro _)

theorem State.loadCount_keeps {m : Nat} {z s : State} (h0 : Keeps m z s) (hm : 0x40004108004000 &&& m = 0x40004108004000) (th a n : Nat) (insn : BitVec 32) : Keeps m z (State.loadCount s th a n insn) := by
  unfold State.loadCount
  repeat' first
    | (extract_lets +onlyGivenNames x; refine keeps_cut (m := m) (z := z) (x := x) ?_ (fun hx => ?_); rotate_left; generalize x = y at hx ⊢; clear x; rotate_left; subst x)
    | (extract_lets +onlyGivenNames x; first | (subst x) | skip)
    | with_reducible assumption
    | exact mask_sub (by decide) hm
    | with_reducible apply State.insnEvent_keeps
    | (intro _)
    | (split)

theorem State.poisonDest_keeps {m : Nat} {z s : State} (h0 : Keeps m z s) (hm : 0x100 &&& m = 0x100) (th dest a : Nat) : Keeps m z (State.poisonDest s th dest a) := by
  unfold State.poisonDest
  repeat' first
    | (extract_lets +onlyGivenNames x; refine keeps_cut (m := m) (z := z) (x := x) ?_ (fun hx => ?_); rotate_left; generalize x = y at hx ⊢; clear x; rotate_left; subst x)
    | (extract_lets +onlyGivenNames x; first | (subst x) | skip)
    | with_reducible assumption
    | exact mask_sub (by decide) hm
    | with_reducible apply State.setThread_keeps
    | (intro _)
    | with_reducible apply keeps_ite

theorem State.foundUe_keeps {m : Nat} {z s : State} (h0 : Keeps m z s) (hm : 0x305000030080 &&& m = 0x305000030080) (flat : Nat) : Keeps m z (State.foundUe s flat) := by
  unfold State.foundUe
  repeat' first
    | (extract_lets +onlyGivenNames x; refine keeps_cut (m := m) (z := z) (x := x) ?_ (fun hx => ?_); rotate_left; generalize x = y at hx ⊢; clear x; rotate_left; subst x)
    | (extract_lets +onlyGivenNames x; first | (subst x) | skip)
    | with_reducible assumption
    | exact mask_sub (by decide) hm
    | with_reducible apply State.uncorrectable_keeps
    | with_reducible refine State.raiseLow_keeps ?_ ?_ (by dsimp only; decide)
    | with_reducible apply State.raise_keeps
    | with_reducible apply State.bump_keeps
    | with_reducible apply State.wr_keeps
    | (intro _)
    | with_reducible apply keeps_ite
    | with_reducible apply keeps_ite_fst
    | (simp only [keeps_mk]; refine keeps_upd ?_ ?_ ?_ ?_ ?_ ?_ ?_ ?_ ?_ ?_ ?_ ?_ ?_ ?_ ?_ ?_ ?_ ?_ ?_ ?_ ?_ ?_ ?_ ?_ ?_ ?_ ?_ ?_ ?_ ?_ ?_ ?_ ?_ ?_ ?_ ?_ ?_ <;> first | exact same_rfl | exact same_bit (by decide) hm | exact id | exact Fuses.Le.refl _ | exact fun _ => TimeVal.ofCount_ns _ | exact fun h => SMap.wf_filter _ h | exact fun _ => SMap.wf_nil _ _ | skip)
    | (with_reducible apply keeps_pair)

theorem State.eccRead_keeps {m : Nat} {z s : State} (h0 : Keeps m z s) (hm : 0x305000030080 &&& m = 0x305000030080) (flat : Nat) (e : EccResult) : Keeps m z (State.eccRead s flat e) := by
  unfold State.eccRead
  repeat' first
    | (extract_lets +onlyGivenNames x; refine keeps_cut (m := m) (z := z) (x := x) ?_ (fun hx => ?_); rotate_left; generalize x = y at hx ⊢; clear x; rotate_left; subst x)
    | (extract_lets +onlyGivenNames x; first | (subst x) | skip)
    | with_reducible assumption
    | exact mask_sub (by decide) hm
    | with_reducible apply State.foundUe_keeps
    | with_reducible apply State.ce2_keeps
    | with_reducible apply State.bump_keeps
    | (intro _)
    | with_reducible apply keeps_ite
    | (split)

theorem State.regLoad_keeps {m : Nat} {z s : State} (h0 : Keeps m z s) (hm : 0xC00000C000 &&& m = 0xC00000C000) (off : Nat) : Keeps m z (State.regLoad s off).1 := by
  unfold State.regLoad
  repeat' first
    | (extract_lets +onlyGivenNames x; refine keeps_cut (m := m) (z := z) (x := x) ?_ (fun hx => ?_); rotate_left; generalize x = y at hx ⊢; clear x; rotate_left; subst x)
    | (extract_lets +onlyGivenNames x; first | (subst x) | skip)
    | with_reducible assumption
    | exact mask_sub (by decide) hm
    | with_reducible apply State.irqClaim_keeps
    | (intro _)
    | with_reducible apply keeps_ite
    | with_reducible apply keeps_ite_fst
    | (simp only [keeps_mk]; refine keeps_upd ?_ ?_ ?_ ?_ ?_ ?_ ?_ ?_ ?_ ?_ ?_ ?_ ?_ ?_ ?_ ?_ ?_ ?_ ?_ ?_ ?_ ?_ ?_ ?_ ?_ ?_ ?_ ?_ ?_ ?_ ?_ ?_ ?_ ?_ ?_ ?_ ?_ <;> first | exact same_rfl | exact same_bit (by decide) hm | exact id | exact Fuses.Le.refl _ | exact fun _ => TimeVal.ofCount_ns _ | exact fun h => SMap.wf_filter _ h | exact fun _ => SMap.wf_nil _ _ | skip)
    | (split)
    | (with_reducible apply keeps_pair)

theorem State.load_keeps {m : Nat} {z s : State} (h0 : Keeps m z s) (hm : 0x4030D10803C180 &&& m = 0x4030D10803C180) (th d a : Nat) (size : BitVec 3) (ecc : EccResult) (insn : BitVec 32) : EffKeeps m z (State.load s th d a size ecc insn) := by
  unfold State.load
  repeat' first
    | (extract_lets +onlyGivenNames x; refine keeps_cut (m := m) (z := z) (x := x) ?_ (fun hx => ?_); rotate_left; generalize x = y at hx ⊢; clear x; rotate_left; subst x)
    | (extract_lets +onlyGivenNames x; first | (subst x) | skip)
    | with_reducible assumption
    | exact mask_sub (by decide) hm
    | (dsimp only; exact mask_sub (by decide) hm)
    | with_reducible apply State.regLoad_keeps
    | with_reducible refine keeps_of_fst (by assumption) (State.regLoad_keeps ?_ ?_ ..)
    | with_reducible apply State.eccRead_keeps
    | with_reducible apply State.poisonDest_keeps
    | with_reducible apply State.loadCount_keeps
    | with_reducible apply State.setG_keeps
    | exact illegal_keeps _ _ _
    | with_reducible apply Eff.ok_keeps
    | with_reducible exact Eff.trap_keeps _
    | with_reducible apply effKeeps_ite
    | (intro _)
    | with_reducible apply keeps_ite_fst
    | (split)
    | (with_reducible apply keeps_pair)

theorem State.put_keeps {m : Nat} {z s : State} (h0 : Keeps m z s) (hm : 0x4000410C024002 &&& m = 0x4000410C024002) (th a : Nat) (bs : List Byte) (strict : Bool) (insn : BitVec 32) : EffKeeps m z (State.put s th a bs strict insn) := by
  unfold State.put
  repeat' first
    | (extract_lets +onlyGivenNames x; refine keeps_cut (m := m) (z := z) (x := x) ?_ (fun hx => ?_); rotate_left; generalize x = y at hx ⊢; clear x; rotate_left; subst x)
    | (extract_lets +onlyGivenNames x; first | (subst x) | skip)
    | with_reducible assumption
    | exact mask_sub (by decide) hm
    | with_reducible apply State.insnEvent_keeps
    | with_reducible apply State.storeData_keeps
    | with_reducible apply Eff.ok_keeps
    | with_reducible exact Eff.trap_keeps _
    | with_reducible exact Eff.stall_keeps
    | with_reducible apply effKeeps_ite
    | (intro _)
    | (split)

theorem State.regStore_keeps {m : Nat} {z s : State} (h0 : Keeps m z s) (hm : 0x7FFFFFFFFFFFFF &&& m = 0x7FFFFFFFFFFFFF) (th off : Nat) (v insn : BitVec 32) : Keeps m z (State.regStore s th off v insn) := by
  unfold State.regStore
  repeat' first
    | (extract_lets +onlyGivenNames x; refine keeps_cut (m := m) (z := z) (x := x) ?_ (fun hx => ?_); rotate_left; generalize x = y at hx ⊢; clear x; rotate_left; subst x)
    | (extract_lets +onlyGivenNames x; first | (subst x) | skip)
    | with_reducible assumption
    | exact mask_sub (by decide) hm
    | with_reducible apply State.progWrite_keeps
    | with_reducible apply State.msixWrite_keeps
    | exact Reg.bit_all _ hm
    | (intro _)
    | with_reducible apply keeps_ite
    | with_reducible apply keeps_ite_fst
    | (split)
    | (with_reducible apply keeps_pair)

theorem State.storeReg_keeps {m : Nat} {z s : State} (h0 : Keeps m z s) (hm : 0x7FFFFFFFFFFFFF &&& m = 0x7FFFFFFFFFFFFF) (th d a : Nat) (size : BitVec 3) (insn : BitVec 32) : EffKeeps m z (State.storeReg s th d a size insn) := by
  unfold State.storeReg
  repeat' first
    | (extract_lets +onlyGivenNames x; refine keeps_cut (m := m) (z := z) (x := x) ?_ (fun hx => ?_); rotate_left; generalize x = y at hx ⊢; clear x; rotate_left; subst x)
    | (extract_lets +onlyGivenNames x; first | (subst x) | skip)
    | with_reducible assumption
    | exact mask_sub (by decide) hm
    | with_reducible apply State.regStore_keeps
    | with_reducible apply State.put_keeps
    | with_reducible apply State.insnEvent_keeps
    | exact illegal_keeps _ _ _
    | exact Reg.bit_all _ hm
    | with_reducible apply Eff.ok_keeps
    | with_reducible exact Eff.trap_keeps _
    | with_reducible apply effKeeps_ite
    | (intro _)
    | (split)

theorem State.atomic_keeps {m : Nat} {z s : State} (h0 : Keeps m z s) (hm : 0x4020102 &&& m = 0x4020102) (th d a : Nat) (swap : Bool) (f : BitVec 64 → Option (BitVec 64)) : EffKeeps m z (State.atomic s th d a swap f) := by
  unfold State.atomic
  repeat' first
    | (extract_lets +onlyGivenNames x; refine keeps_cut (m := m) (z := z) (x := x) ?_ (fun hx => ?_); rotate_left; generalize x = y at hx ⊢; clear x; rotate_left; subst x)
    | (extract_lets +onlyGivenNames x; first | (subst x) | skip)
    | with_reducible assumption
    | exact mask_sub (by decide) hm
    | with_reducible apply State.poisonDest_keeps
    | with_reducible apply State.setG_keeps
    | with_reducible apply State.storeData_keeps
    | with_reducible apply Eff.ok_keeps
    | with_reducible exact Eff.trap_keeps _
    | with_reducible exact Eff.stall_keeps
    | with_reducible apply effKeeps_ite
    | (intro _)
    | (split)

/-! ### Machine/Integer.lean -/

theorem execNop_keeps (by_ : NopBy) (s : State) : OutKeeps 0x40205B0803FD80 s (execNop by_ s) := by
  unfold execNop
  have hm : 0x40205B0803FD80 &&& 0x40205B0803FD80 = 0x40205B0803FD80 := rfl
  have h0 := Keeps.refl 0x40205B0803FD80 s
  repeat' first
    | with_reducible apply OutKeeps_next
    | with_reducible apply State.issue_keeps
    | with_reducible apply State.command_keeps
    | (intro u hu)
    | (extract_lets +onlyGivenNames x; refine keeps_cut (m := 0x40205B0803FD80) (z := s) (x := x) ?_ (fun hx => ?_); rotate_left; generalize x = y at hx ⊢; clear x; rotate_left; subst x)
    | (extract_lets +onlyGivenNames x; first | (subst x) | skip)
    | with_reducible assumption
    | exact mask_sub (by decide) hm
    | with_reducible apply Eff.ok_keeps
    | (intro _)
    | (split)
    | (with_reducible apply keeps_pair)

theorem execFence_keeps (th : Fin 512) (s : State) : OutKeeps 0x4020530801FD80 s (execFence th s) := by
  unfold execFence
  have hm : 0x4020530801FD80 &&& 0x4020530801FD80 = 0x4020530801FD80 := rfl
  have h0 := Keeps.refl 0x4020530801FD80 s
  repeat' first
    | with_reducible apply OutKeeps_next
    | with_reducible apply State.issue_keeps
    | (intro u hu)
    | with_reducible assumption
    | exact mask_sub (by decide) hm
    | with_reducible apply Eff.ok_keeps
    | (intro _)

theorem execTrap_keeps (th : Fin 512) (imm : BitVec 11) (s : State) : OutKeeps 0x4020530801FD80 s (execTrap th imm s) := by
  unfold execTrap
  have hm : 0x4020530801FD80 &&& 0x4020530801FD80 = 0x4020530801FD80 := rfl
  have h0 := Keeps.refl 0x4020530801FD80 s
  repeat' first
    | with_reducible apply OutKeeps_next
    | with_reducible apply State.issue_keeps
    | (intro u hu)
    | with_reducible assumption
    | exact mask_sub (by decide) hm
    | with_reducible exact Eff.trap_keeps _
    | (intro _)
    | (with_reducible apply keeps_pair)

theorem execEret_keeps (th : Fin 512) (s : State) : OutKeeps 0x4020530801FD80 s (execEret th s) := by
  unfold execEret
  have hm : 0x4020530801FD80 &&& 0x4020530801FD80 = 0x4020530801FD80 := rfl
  have h0 := Keeps.refl 0x4020530801FD80 s
  repeat' first
    | with_reducible apply OutKeeps_next
    | with_reducible apply State.issue_keeps
    | (intro u hu)
    | (extract_lets +onlyGivenNames x; refine keeps_cut (m := 0x4020530801FD80) (z := s) (x := x) ?_ (fun hx => ?_); rotate_left; generalize x = y at hx ⊢; clear x; rotate_left; subst x)
    | (extract_lets +onlyGivenNames x; first | (subst x) | skip)
    | with_reducible assumption
    | exact mask_sub (by decide) hm
    | with_reducible apply State.setThread_keeps
    | with_reducible apply Eff.ok_keeps
    | (intro _)
    | (with_reducible apply keeps_pair)

theorem execYield_keeps (th : Fin 512) (s : State) : OutKeeps 0x4020530801FD80 s (execYield th s) := by
  unfold execYield
  have hm : 0x4020530801FD80 &&& 0x4020530801FD80 = 0x4020530801FD80 := rfl
  have h0 := Keeps.refl 0x4020530801FD80 s
  repeat' first
    | with_reducible apply OutKeeps_next
    | with_reducible apply State.issue_keeps
    | (intro u hu)
    | with_reducible assumption
    | exact mask_sub (by decide) hm
    | with_reducible apply Eff.ok_keeps
    | (intro _)

theorem execAdd_keeps (th : Fin 512) (d a b : Fin 32) (s : State) : OutKeeps 0x4020530801FD80 s (execAdd th d a b s) := by
  unfold execAdd
  have hm : 0x4020530801FD80 &&& 0x4020530801FD80 = 0x4020530801FD80 := rfl
  have h0 := Keeps.refl 0x4020530801FD80 s
  repeat' first
    | with_reducible apply OutKeeps_next
    | with_reducible assumption
    | exact mask_sub (by decide) hm
    | with_reducible apply State.putG_keeps
    | (intro _)
    | (with_reducible apply keeps_pair)

theorem execSub_keeps (th : Fin 512) (d a b : Fin 32) (s : State) : OutKeeps 0x4020530801FD80 s (execSub th d a b s) := by
  unfold execSub
  have hm : 0x4020530801FD80 &&& 0x4020530801FD80 = 0x4020530801FD80 := rfl
  have h0 := Keeps.refl 0x4020530801FD80 s
  repeat' first
    | with_reducible apply OutKeeps_next
    | with_reducible assumption
    | exact mask_sub (by decide) hm
    | with_reducible apply State.putG_keeps
    | (intro _)
    | (with_reducible apply keeps_pair)

theorem execAnd_keeps (th : Fin 512) (d a b : Fin 32) (s : State) : OutKeeps 0x4020530801FD80 s (execAnd th d a b s) := by
  unfold execAnd
  have hm : 0x4020530801FD80 &&& 0x4020530801FD80 = 0x4020530801FD80 := rfl
  have h0 := Keeps.refl 0x4020530801FD80 s
  repeat' first
    | with_reducible apply OutKeeps_next
    | with_reducible assumption
    | exact mask_sub (by decide) hm
    | with_reducible apply State.putG_keeps
    | (intro _)
    | (with_reducible apply keeps_pair)

theorem execOr_keeps (th : Fin 512) (d a b : Fin 32) (s : State) : OutKeeps 0x4020530801FD80 s (execOr th d a b s) := by
  unfold execOr
  have hm : 0x4020530801FD80 &&& 0x4020530801FD80 = 0x4020530801FD80 := rfl
  have h0 := Keeps.refl 0x4020530801FD80 s
  repeat' first
    | with_reducible apply OutKeeps_next
    | with_reducible assumption
    | exact mask_sub (by decide) hm
    | with_reducible apply State.putG_keeps
    | (intro _)
    | (with_reducible apply keeps_pair)

theorem execXor_keeps (th : Fin 512) (d a b : Fin 32) (s : State) : OutKeeps 0x4020530801FD80 s (execXor th d a b s) := by
  unfold execXor
  have hm : 0x4020530801FD80 &&& 0x4020530801FD80 = 0x4020530801FD80 := rfl
  have h0 := Keeps.refl 0x4020530801FD80 s
  repeat' first
    | with_reducible apply OutKeeps_next
    | with_reducible assumption
    | exact mask_sub (by decide) hm
    | with_reducible apply State.putG_keeps
    | (intro _)
    | (with_reducible apply keeps_pair)

theorem execShl_keeps (th : Fin 512) (d a b : Fin 32) (s : State) : OutKeeps 0x4020530801FD80 s (execShl th d a b s) := by
  unfold execShl
  have hm : 0x4020530801FD80 &&& 0x4020530801FD80 = 0x4020530801FD80 := rfl
  have h0 := Keeps.refl 0x4020530801FD80 s
  repeat' first
    | with_reducible apply OutKeeps_next
    | with_reducible assumption
    | exact mask_sub (by decide) hm
    | with_reducible apply State.putG_keeps
    | (intro _)
    | (with_reducible apply keeps_pair)

theorem execShr_keeps (th : Fin 512) (d a b : Fin 32) (s : State) : OutKeeps 0x4020530801FD80 s (execShr th d a b s) := by
  unfold execShr
  have hm : 0x4020530801FD80 &&& 0x4020530801FD80 = 0x4020530801FD80 := rfl
  have h0 := Keeps.refl 0x4020530801FD80 s
  repeat' first
    | with_reducible apply OutKeeps_next
    | with_reducible assumption
    | exact mask_sub (by decide) hm
    | with_reducible apply State.putG_keeps
    | (intro _)
    | (with_reducible apply keeps_pair)

theorem execSar_keeps (th : Fin 512) (d a b : Fin 32) (s : State) : OutKeeps 0x4020530801FD80 s (execSar th d a b s) := by
  unfold execSar
  have hm : 0x4020530801FD80 &&& 0x4020530801FD80 = 0x4020530801FD80 := rfl
  have h0 := Keeps.refl 0x4020530801FD80 s
  repeat' first
    | with_reducible apply OutKeeps_next
    | with_reducible assumption
    | exact mask_sub (by decide) hm
    | with_reducible apply State.putG_keeps
    | (intro _)
    | (with_reducible apply keeps_pair)

theorem execMul_keeps (th : Fin 512) (d a b : Fin 32) (s : State) : OutKeeps 0x4020530801FD80 s (execMul th d a b s) := by
  unfold execMul
  have hm : 0x4020530801FD80 &&& 0x4020530801FD80 = 0x4020530801FD80 := rfl
  have h0 := Keeps.refl 0x4020530801FD80 s
  repeat' first
    | with_reducible apply OutKeeps_next
    | with_reducible assumption
    | exact mask_sub (by decide) hm
    | with_reducible apply State.putG_keeps
    | (intro _)
    | (with_reducible apply keeps_pair)

theorem execMulhu_keeps (th : Fin 512) (d a b : Fin 32) (s : State) : OutKeeps 0x4020530801FD80 s (execMulhu th d a b s) := by
  unfold execMulhu
  have hm : 0x4020530801FD80 &&& 0x4020530801FD80 = 0x4020530801FD80 := rfl
  have h0 := Keeps.refl 0x4020530801FD80 s
  repeat' first
    | with_reducible apply OutKeeps_next
    | with_reducible assumption
    | exact mask_sub (by decide) hm
    | with_reducible apply State.putG_keeps
    | (intro _)
    | (with_reducible apply keeps_pair)

theorem execDivu_keeps (th : Fin 512) (d a b : Fin 32) (s : State) : OutKeeps 0x4020530801FD80 s (execDivu th d a b s) := by
  unfold execDivu
  have hm : 0x4020530801FD80 &&& 0x4020530801FD80 = 0x4020530801FD80 := rfl
  have h0 := Keeps.refl 0x4020530801FD80 s
  repeat' first
    | with_reducible apply OutKeeps_next
    | with_reducible apply State.issue_keeps
    | (intro u hu)
    | with_reducible assumption
    | exact mask_sub (by decide) hm
    | with_reducible apply State.setG_keeps
    | with_reducible apply Eff.ok_keeps
    | with_reducible exact Eff.trap_keeps _
    | with_reducible apply effKeeps_ite
    | (intro _)
    | with_reducible apply keeps_ite
    | with_reducible apply keeps_ite_fst
    | (with_reducible apply keeps_pair)

theorem execRemu_keeps (th : Fin 512) (d a b : Fin 32) (s : State) : OutKeeps 0x4020530801FD80 s (execRemu th d a b s) := by
  unfold execRemu
  have hm : 0x4020530801FD80 &&& 0x4020530801FD80 = 0x4020530801FD80 := rfl
  have h0 := Keeps.refl 0x4020530801FD80 s
  repeat' first
    | with_reducible apply OutKeeps_next
    | with_reducible apply State.issue_keeps
    | (intro u hu)
    | with_reducible assumption
    | exact mask_sub (by decide) hm
    | with_reducible apply State.setG_keeps
    | with_reducible apply Eff.ok_keeps
    | with_reducible exact Eff.trap_keeps _
    | with_reducible apply effKeeps_ite
    | (intro _)
    | with_reducible apply keeps_ite
    | with_reducible apply keeps_ite_fst
    | (with_reducible apply keeps_pair)

theorem execMin_keeps (th : Fin 512) (d a b : Fin 32) (s : State) : OutKeeps 0x4020530801FD80 s (execMin th d a b s) := by
  unfold execMin
  have hm : 0x4020530801FD80 &&& 0x4020530801FD80 = 0x4020530801FD80 := rfl
  have h0 := Keeps.refl 0x4020530801FD80 s
  repeat' first
    | with_reducible apply OutKeeps_next
    | with_reducible assumption
    | exact mask_sub (by decide) hm
    | with_reducible apply State.putG_keeps
    | (intro _)
    | (with_reducible apply keeps_pair)

theorem execMax_keeps (th : Fin 512) (d a b : Fin 32) (s : State) : OutKeeps 0x4020530801FD80 s (execMax th d a b s) := by
  unfold execMax
  have hm : 0x4020530801FD80 &&& 0x4020530801FD80 = 0x4020530801FD80 := rfl
  have h0 := Keeps.refl 0x4020530801FD80 s
  repeat' first
    | with_reducible apply OutKeeps_next
    | with_reducible assumption
    | exact mask_sub (by decide) hm
    | with_reducible apply State.putG_keeps
    | (intro _)
    | (with_reducible apply keeps_pair)

theorem execMinu_keeps (th : Fin 512) (d a b : Fin 32) (s : State) : OutKeeps 0x4020530801FD80 s (execMinu th d a b s) := by
  unfold execMinu
  have hm : 0x4020530801FD80 &&& 0x4020530801FD80 = 0x4020530801FD80 := rfl
  have h0 := Keeps.refl 0x4020530801FD80 s
  repeat' first
    | with_reducible apply OutKeeps_next
    | with_reducible assumption
    | exact mask_sub (by decide) hm
    | with_reducible apply State.putG_keeps
    | (intro _)
    | (with_reducible apply keeps_pair)

theorem execMaxu_keeps (th : Fin 512) (d a b : Fin 32) (s : State) : OutKeeps 0x4020530801FD80 s (execMaxu th d a b s) := by
  unfold execMaxu
  have hm : 0x4020530801FD80 &&& 0x4020530801FD80 = 0x4020530801FD80 := rfl
  have h0 := Keeps.refl 0x4020530801FD80 s
  repeat' first
    | with_reducible apply OutKeeps_next
    | with_reducible assumption
    | exact mask_sub (by decide) hm
    | with_reducible apply State.putG_keeps
    | (intro _)
    | (with_reducible apply keeps_pair)

theorem execSel_keeps (th : Fin 512) (d a b c : Fin 32) (s : State) : OutKeeps 0x4020530801FD80 s (execSel th d a b c s) := by
  unfold execSel
  have hm : 0x4020530801FD80 &&& 0x4020530801FD80 = 0x4020530801FD80 := rfl
  have h0 := Keeps.refl 0x4020530801FD80 s
  repeat' first
    | with_reducible apply OutKeeps_next
    | with_reducible assumption
    | exact mask_sub (by decide) hm
    | with_reducible apply State.putG_keeps
    | (intro _)
    | with_reducible apply keeps_ite
    | with_reducible apply keeps_ite_fst
    | (with_reducible apply keeps_pair)

theorem execBswap_keeps (th : Fin 512) (d a : Fin 32) (s : State) : OutKeeps 0x4020530801FD80 s (execBswap th d a s) := by
  unfold execBswap
  have hm : 0x4020530801FD80 &&& 0x4020530801FD80 = 0x4020530801FD80 := rfl
  have h0 := Keeps.refl 0x4020530801FD80 s
  repeat' first
    | with_reducible apply OutKeeps_next
    | with_reducible assumption
    | exact mask_sub (by decide) hm
    | with_reducible apply State.putG_keeps
    | (intro _)

theorem execAddi_keeps (th : Fin 512) (d a : Fin 32) (imm : BitVec 12) (s : State) : OutKeeps 0x4020530801FD80 s (execAddi th d a imm s) := by
  unfold execAddi
  have hm : 0x4020530801FD80 &&& 0x4020530801FD80 = 0x4020530801FD80 := rfl
  have h0 := Keeps.refl 0x4020530801FD80 s
  repeat' first
    | with_reducible apply OutKeeps_next
    | with_reducible assumption
    | exact mask_sub (by decide) hm
    | with_reducible apply State.putG_keeps
    | (intro _)

theorem execAndi_keeps (th : Fin 512) (d a : Fin 32) (imm : BitVec 12) (s : State) : OutKeeps 0x4020530801FD80 s (execAndi th d a imm s) := by
  unfold execAndi
  have hm : 0x4020530801FD80 &&& 0x4020530801FD80 = 0x4020530801FD80 := rfl
  have h0 := Keeps.refl 0x4020530801FD80 s
  repeat' first
    | with_reducible apply OutKeeps_next
    | with_reducible assumption
    | exact mask_sub (by decide) hm
    | with_reducible apply State.putG_keeps
    | (intro _)

theorem execOri_keeps (th : Fin 512) (d a : Fin 32) (imm : BitVec 12) (s : State) : OutKeeps 0x4020530801FD80 s (execOri th d a imm s) := by
  unfold execOri
  have hm : 0x4020530801FD80 &&& 0x4020530801FD80 = 0x4020530801FD80 := rfl
  have h0 := Keeps.refl 0x4020530801FD80 s
  repeat' first
    | with_reducible apply OutKeeps_next
    | with_reducible assumption
    | exact mask_sub (by decide) hm
    | with_reducible apply State.putG_keeps
    | (intro _)

theorem execXori_keeps (th : Fin 512) (d a : Fin 32) (imm : BitVec 12) (s : State) : OutKeeps 0x4020530801FD80 s (execXori th d a imm s) := by
  unfold execXori
  have hm : 0x4020530801FD80 &&& 0x4020530801FD80 = 0x4020530801FD80 := rfl
  have h0 := Keeps.refl 0x4020530801FD80 s
  repeat' first
    | with_reducible apply OutKeeps_next
    | with_reducible assumption
    | exact mask_sub (by decide) hm
    | with_reducible apply State.putG_keeps
    | (intro _)

theorem execShli_keeps (th : Fin 512) (d a : Fin 32) (imm : BitVec 12) (s : State) : OutKeeps 0x4020530801FD80 s (execShli th d a imm s) := by
  unfold execShli
  have hm : 0x4020530801FD80 &&& 0x4020530801FD80 = 0x4020530801FD80 := rfl
  have h0 := Keeps.refl 0x4020530801FD80 s
  repeat' first
    | with_reducible apply OutKeeps_next
    | with_reducible assumption
    | exact mask_sub (by decide) hm
    | with_reducible apply State.putG_keeps
    | (intro _)

theorem execShri_keeps (th : Fin 512) (d a : Fin 32) (imm : BitVec 12) (s : State) : OutKeeps 0x4020530801FD80 s (execShri th d a imm s) := by
  unfold execShri
  have hm : 0x4020530801FD80 &&& 0x4020530801FD80 = 0x4020530801FD80 := rfl
  have h0 := Keeps.refl 0x4020530801FD80 s
  repeat' first
    | with_reducible apply OutKeeps_next
    | with_reducible assumption
    | exact mask_sub (by decide) hm
    | with_reducible apply State.putG_keeps
    | (intro _)

theorem execSari_keeps (th : Fin 512) (d a : Fin 32) (imm : BitVec 12) (s : State) : OutKeeps 0x4020530801FD80 s (execSari th d a imm s) := by
  unfold execSari
  have hm : 0x4020530801FD80 &&& 0x4020530801FD80 = 0x4020530801FD80 := rfl
  have h0 := Keeps.refl 0x4020530801FD80 s
  repeat' first
    | with_reducible apply OutKeeps_next
    | with_reducible assumption
    | exact mask_sub (by decide) hm
    | with_reducible apply State.putG_keeps
    | (intro _)

theorem execLui_keeps (th : Fin 512) (d : Fin 32) (imm : BitVec 21) (s : State) : OutKeeps 0x4020530801FD80 s (execLui th d imm s) := by
  unfold execLui
  have hm : 0x4020530801FD80 &&& 0x4020530801FD80 = 0x4020530801FD80 := rfl
  have h0 := Keeps.refl 0x4020530801FD80 s
  repeat' first
    | with_reducible apply OutKeeps_next
    | with_reducible assumption
    | exact mask_sub (by decide) hm
    | with_reducible apply State.putG_keeps
    | (intro _)

theorem execCmp_keeps (th : Fin 512) (p : Fin 4) (cond : BitVec 3) (a b : Fin 32) (s : State) : OutKeeps 0x4020530801FD80 s (execCmp th p cond a b s) := by
  unfold execCmp
  have hm : 0x4020530801FD80 &&& 0x4020530801FD80 = 0x4020530801FD80 := rfl
  have h0 := Keeps.refl 0x4020530801FD80 s
  repeat' first
    | with_reducible apply OutKeeps_next
    | with_reducible apply State.issue_keeps
    | (intro u hu)
    | with_reducible assumption
    | exact mask_sub (by decide) hm
    | with_reducible apply State.setP_keeps
    | with_reducible apply Eff.ok_keeps
    | (intro _)
    | (with_reducible apply keeps_pair)

theorem execCmpi_keeps (th : Fin 512) (p : Fin 4) (cond : BitVec 3) (a : Fin 32) (imm : BitVec 16) (s : State) : OutKeeps 0x4020530801FD80 s (execCmpi th p cond a imm s) := by
  unfold execCmpi
  have hm : 0x4020530801FD80 &&& 0x4020530801FD80 = 0x4020530801FD80 := rfl
  have h0 := Keeps.refl 0x4020530801FD80 s
  repeat' first
    | with_reducible apply OutKeeps_next
    | with_reducible apply State.issue_keeps
    | (intro u hu)
    | with_reducible assumption
    | exact mask_sub (by decide) hm
    | with_reducible apply State.setP_keeps
    | with_reducible apply Eff.ok_keeps
    | (intro _)

theorem execBr_keeps (th : Fin 512) (p : Fin 4) (sense : Bool) (off : BitVec 16) (s : State) : OutKeeps 0x4020530801FD80 s (execBr th p sense off s) := by
  unfold execBr
  have hm : 0x4020530801FD80 &&& 0x4020530801FD80 = 0x4020530801FD80 := rfl
  have h0 := Keeps.refl 0x4020530801FD80 s
  repeat' first
    | with_reducible apply OutKeeps_next
    | with_reducible apply State.issue_keeps
    | (intro u hu)
    | with_reducible assumption
    | exact mask_sub (by decide) hm
    | with_reducible apply State.setPc_keeps
    | with_reducible apply Eff.ok_keeps
    | with_reducible apply effKeeps_ite
    | (intro _)
    | with_reducible apply keeps_ite

theorem execJal_keeps (th : Fin 512) (d : Fin 32) (off : BitVec 21) (s : State) : OutKeeps 0x4020530801FD80 s (execJal th d off s) := by
  unfold execJal
  have hm : 0x4020530801FD80 &&& 0x4020530801FD80 = 0x4020530801FD80 := rfl
  have h0 := Keeps.refl 0x4020530801FD80 s
  repeat' first
    | with_reducible apply OutKeeps_next
    | with_reducible apply State.issue_keeps
    | (intro u hu)
    | (extract_lets +onlyGivenNames x; refine keeps_cut (m := 0x4020530801FD80) (z := s) (x := x) ?_ (fun hx => ?_); rotate_left; generalize x = y at hx ⊢; clear x; rotate_left; subst x)
    | (extract_lets +onlyGivenNames x; first | (subst x) | skip)
    | with_reducible assumption
    | exact mask_sub (by decide) hm
    | with_reducible apply State.setPc_keeps
    | with_reducible apply State.setG_keeps
    | with_reducible apply Eff.ok_keeps
    | (intro _)

theorem execJalr_keeps (th : Fin 512) (d a : Fin 32) (imm : BitVec 16) (s : State) : OutKeeps 0x4020530801FD80 s (execJalr th d a imm s) := by
  unfold execJalr
  have hm : 0x4020530801FD80 &&& 0x4020530801FD80 = 0x4020530801FD80 := rfl
  have h0 := Keeps.refl 0x4020530801FD80 s
  repeat' first
    | with_reducible apply OutKeeps_next
    | with_reducible apply State.issue_keeps
    | (intro u hu)
    | (extract_lets +onlyGivenNames x; refine keeps_cut (m := 0x4020530801FD80) (z := s) (x := x) ?_ (fun hx => ?_); rotate_left; generalize x = y at hx ⊢; clear x; rotate_left; subst x)
    | (extract_lets +onlyGivenNames x; first | (subst x) | skip)
    | with_reducible assumption
    | exact mask_sub (by decide) hm
    | with_reducible apply State.setPc_keeps
    | with_reducible apply State.setG_keeps
    | with_reducible apply Eff.ok_keeps
    | (intro _)

/-! ### Machine/BamdexMem.lean -/

theorem execLd_keeps (th : Fin 512) (d a : Fin 32) (size : BitVec 3) (off : BitVec 13) (ecc : EccResult) (s : State) : OutKeeps 0x4030D30803FD80 s (execLd th d a size off ecc s) := by
  unfold execLd
  have hm : 0x4030D30803FD80 &&& 0x4030D30803FD80 = 0x4030D30803FD80 := rfl
  have h0 := Keeps.refl 0x4030D30803FD80 s
  repeat' first
    | with_reducible apply OutKeeps_next
    | with_reducible apply State.issue_keeps
    | (intro u hu)
    | (extract_lets +onlyGivenNames x; refine keeps_cut (m := 0x4030D30803FD80) (z := s) (x := x) ?_ (fun hx => ?_); rotate_left; generalize x = y at hx ⊢; clear x; rotate_left; subst x)
    | (extract_lets +onlyGivenNames x; first | (subst x) | skip)
    | with_reducible assumption
    | exact mask_sub (by decide) hm
    | with_reducible apply State.load_keeps
    | (intro _)

theorem execSt_keeps (th : Fin 512) (d a : Fin 32) (size : BitVec 3) (off : BitVec 13) (s : State) : OutKeeps 0x7FFFFFFFFFFFFF s (execSt th d a size off s) := by
  unfold execSt
  have hm : 0x7FFFFFFFFFFFFF &&& 0x7FFFFFFFFFFFFF = 0x7FFFFFFFFFFFFF := rfl
  have h0 := Keeps.refl 0x7FFFFFFFFFFFFF s
  repeat' first
    | with_reducible apply OutKeeps_next
    | with_reducible apply State.issue_keeps
    | (intro u hu)
    | (extract_lets +onlyGivenNames x; refine keeps_cut (m := 0x7FFFFFFFFFFFFF) (z := s) (x := x) ?_ (fun hx => ?_); rotate_left; generalize x = y at hx ⊢; clear x; rotate_left; subst x)
    | (extract_lets +onlyGivenNames x; first | (subst x) | skip)
    | with_reducible assumption
    | exact mask_sub (by decide) hm
    | with_reducible apply State.storeReg_keeps
    | exact Reg.bit_all _ hm
    | (intro _)
    | (with_reducible apply keeps_pair)

theorem execAmoadd_keeps (th : Fin 512) (d a b : Fin 32) (s : State) : OutKeeps 0x4020530C03FD82 s (execAmoadd th d a b s) := by
  unfold execAmoadd
  have hm : 0x4020530C03FD82 &&& 0x4020530C03FD82 = 0x4020530C03FD82 := rfl
  have h0 := Keeps.refl 0x4020530C03FD82 s
  repeat' first
    | with_reducible apply OutKeeps_next
    | with_reducible apply State.issue_keeps
    | (intro u hu)
    | with_reducible assumption
    | exact mask_sub (by decide) hm
    | with_reducible apply State.atomic_keeps
    | (intro _)
    | (with_reducible apply keeps_pair)

theorem execAmoswp_keeps (th : Fin 512) (d a b : Fin 32) (s : State) : OutKeeps 0x4020530C03FD82 s (execAmoswp th d a b s) := by
  unfold execAmoswp
  have hm : 0x4020530C03FD82 &&& 0x4020530C03FD82 = 0x4020530C03FD82 := rfl
  have h0 := Keeps.refl 0x4020530C03FD82 s
  repeat' first
    | with_reducible apply OutKeeps_next
    | with_reducible apply State.issue_keeps
    | (intro u hu)
    | with_reducible assumption
    | exact mask_sub (by decide) hm
    | with_reducible apply State.atomic_keeps
    | (intro _)
    | (with_reducible apply keeps_pair)

theorem execAmocas_keeps (th : Fin 512) (d a b : Fin 32) (s : State) : OutKeeps 0x4020530C03FD82 s (execAmocas th d a b s) := by
  unfold execAmocas
  have hm : 0x4020530C03FD82 &&& 0x4020530C03FD82 = 0x4020530C03FD82 := rfl
  have h0 := Keeps.refl 0x4020530C03FD82 s
  repeat' first
    | with_reducible apply OutKeeps_next
    | with_reducible apply State.issue_keeps
    | (intro u hu)
    | with_reducible assumption
    | exact mask_sub (by decide) hm
    | with_reducible apply State.atomic_keeps
    | with_reducible apply effKeeps_ite
    | (intro _)
    | with_reducible apply keeps_ite
    | with_reducible apply keeps_ite_fst
    | (with_reducible apply keeps_pair)

theorem State.loadT_keeps {m : Nat} {z s : State} (h0 : Keeps m z s) (hm : 0x40004108004100 &&& m = 0x40004108004100) (th td x : Nat) (insn : BitVec 32) : EffKeeps m z (State.loadT s th td x insn) := by
  unfold State.loadT
  repeat' first
    | (extract_lets +onlyGivenNames x; refine keeps_cut (m := m) (z := z) (x := x) ?_ (fun hx => ?_); rotate_left; generalize x = y at hx ⊢; clear x; rotate_left; subst x)
    | (extract_lets +onlyGivenNames x; first | (subst x) | skip)
    | with_reducible assumption
    | exact mask_sub (by decide) hm
    | with_reducible apply State.poisonDest_keeps
    | with_reducible apply State.loadCount_keeps
    | with_reducible apply State.putT_keeps
    | with_reducible apply Eff.ok_keeps
    | with_reducible exact Eff.trap_keeps _
    | with_reducible apply effKeeps_ite
    | (intro _)
    | (split)

theorem State.loadB_keeps {m : Nat} {z s : State} (h0 : Keeps m z s) (hm : 0x40004108004100 &&& m = 0x40004108004100) (th bd x : Nat) (insn : BitVec 32) : EffKeeps m z (State.loadB s th bd x insn) := by
  unfold State.loadB
  repeat' first
    | (extract_lets +onlyGivenNames x; refine keeps_cut (m := m) (z := z) (x := x) ?_ (fun hx => ?_); rotate_left; generalize x = y at hx ⊢; clear x; rotate_left; subst x)
    | (extract_lets +onlyGivenNames x; first | (subst x) | skip)
    | with_reducible assumption
    | exact mask_sub (by decide) hm
    | with_reducible apply State.poisonDest_keeps
    | with_reducible apply State.loadCount_keeps
    | with_reducible apply State.setBd_keeps
    | with_reducible apply Eff.ok_keeps
    | with_reducible exact Eff.trap_keeps _
    | with_reducible apply effKeeps_ite
    | (intro _)
    | with_reducible apply keeps_ite_fst
    | (split)
    | (with_reducible apply keeps_pair)

theorem execTld_keeps (th : Fin 512) (td : Fin 8) (a : Fin 32) (off : BitVec 16) (s : State) : OutKeeps 0x4020530801FD80 s (execTld th td a off s) := by
  unfold execTld
  have hm : 0x4020530801FD80 &&& 0x4020530801FD80 = 0x4020530801FD80 := rfl
  have h0 := Keeps.refl 0x4020530801FD80 s
  repeat' first
    | with_reducible apply OutKeeps_next
    | with_reducible apply State.issue_keeps
    | (intro u hu)
    | (extract_lets +onlyGivenNames x; refine keeps_cut (m := 0x4020530801FD80) (z := s) (x := x) ?_ (fun hx => ?_); rotate_left; generalize x = y at hx ⊢; clear x; rotate_left; subst x)
    | (extract_lets +onlyGivenNames x; first | (subst x) | skip)
    | with_reducible assumption
    | exact mask_sub (by decide) hm
    | with_reducible apply State.loadT_keeps
    | (intro _)

theorem execTst_keeps (th : Fin 512) (td : Fin 8) (a : Fin 32) (off : BitVec 16) (s : State) : OutKeeps 0x4020530C03FD82 s (execTst th td a off s) := by
  unfold execTst
  have hm : 0x4020530C03FD82 &&& 0x4020530C03FD82 = 0x4020530C03FD82 := rfl
  have h0 := Keeps.refl 0x4020530C03FD82 s
  repeat' first
    | with_reducible apply OutKeeps_next
    | with_reducible apply State.issue_keeps
    | (intro u hu)
    | (extract_lets +onlyGivenNames x; refine keeps_cut (m := 0x4020530C03FD82) (z := s) (x := x) ?_ (fun hx => ?_); rotate_left; generalize x = y at hx ⊢; clear x; rotate_left; subst x)
    | (extract_lets +onlyGivenNames x; first | (subst x) | skip)
    | with_reducible assumption
    | exact mask_sub (by decide) hm
    | with_reducible apply State.put_keeps
    | (intro _)
    | (with_reducible apply keeps_pair)

theorem execBld_keeps (th : Fin 512) (bd : Fin 8) (a : Fin 32) (off : BitVec 16) (s : State) : OutKeeps 0x4020530801FD80 s (execBld th bd a off s) := by
  unfold execBld
  have hm : 0x4020530801FD80 &&& 0x4020530801FD80 = 0x4020530801FD80 := rfl
  have h0 := Keeps.refl 0x4020530801FD80 s
  repeat' first
    | with_reducible apply OutKeeps_next
    | with_reducible apply State.issue_keeps
    | (intro u hu)
    | (extract_lets +onlyGivenNames x; refine keeps_cut (m := 0x4020530801FD80) (z := s) (x := x) ?_ (fun hx => ?_); rotate_left; generalize x = y at hx ⊢; clear x; rotate_left; subst x)
    | (extract_lets +onlyGivenNames x; first | (subst x) | skip)
    | with_reducible assumption
    | exact mask_sub (by decide) hm
    | with_reducible apply State.loadB_keeps
    | (intro _)

theorem execBst_keeps (th : Fin 512) (bd : Fin 8) (a : Fin 32) (off : BitVec 16) (s : State) : OutKeeps 0x4020530C03FD82 s (execBst th bd a off s) := by
  unfold execBst
  have hm : 0x4020530C03FD82 &&& 0x4020530C03FD82 = 0x4020530C03FD82 := rfl
  have h0 := Keeps.refl 0x4020530C03FD82 s
  repeat' first
    | with_reducible apply OutKeeps_next
    | with_reducible apply State.issue_keeps
    | (intro u hu)
    | (extract_lets +onlyGivenNames x; refine keeps_cut (m := 0x4020530C03FD82) (z := s) (x := x) ?_ (fun hx => ?_); rotate_left; generalize x = y at hx ⊢; clear x; rotate_left; subst x)
    | (extract_lets +onlyGivenNames x; first | (subst x) | skip)
    | with_reducible assumption
    | exact mask_sub (by decide) hm
    | with_reducible apply State.put_keeps
    | (intro _)
    | (with_reducible apply keeps_pair)

theorem execMfc_keeps (th : Fin 512) (d c : Fin 32) (s : State) : OutKeeps 0x4020530801FD80 s (execMfc th d c s) := by
  unfold execMfc
  have hm : 0x4020530801FD80 &&& 0x4020530801FD80 = 0x4020530801FD80 := rfl
  have h0 := Keeps.refl 0x4020530801FD80 s
  repeat' first
    | with_reducible apply OutKeeps_next
    | with_reducible apply State.issue_keeps
    | (intro u hu)
    | (extract_lets +onlyGivenNames x; refine keeps_cut (m := 0x4020530801FD80) (z := s) (x := x) ?_ (fun hx => ?_); rotate_left; generalize x = y at hx ⊢; clear x; rotate_left; subst x)
    | (extract_lets +onlyGivenNames x; first | (subst x) | skip)
    | with_reducible assumption
    | exact mask_sub (by decide) hm
    | with_reducible apply State.setG_keeps
    | with_reducible apply Eff.ok_keeps
    | with_reducible exact Eff.trap_keeps _
    | (intro _)
    | (split)
    | (with_reducible apply keeps_pair)

theorem execMtc_keeps (th : Fin 512) (a c : Fin 32) (s : State) : OutKeeps 0x4020530801FD80 s (execMtc th a c s) := by
  unfold execMtc
  have hm : 0x4020530801FD80 &&& 0x4020530801FD80 = 0x4020530801FD80 := rfl
  have h0 := Keeps.refl 0x4020530801FD80 s
  repeat' first
    | with_reducible apply OutKeeps_next
    | with_reducible apply State.issue_keeps
    | (intro u hu)
    | (extract_lets +onlyGivenNames x; refine keeps_cut (m := 0x4020530801FD80) (z := s) (x := x) ?_ (fun hx => ?_); rotate_left; generalize x = y at hx ⊢; clear x; rotate_left; subst x)
    | (extract_lets +onlyGivenNames x; first | (subst x) | skip)
    | with_reducible assumption
    | exact mask_sub (by decide) hm
    | with_reducible apply State.setThread_keeps
    | with_reducible apply Eff.ok_keeps
    | with_reducible exact Eff.trap_keeps _
    | (intro _)
    | (split)
    | (with_reducible apply keeps_pair)

/-! ### Machine/BamdexTime.lean -/

theorem execTnow_keeps (th : Fin 512) (td : Fin 8) (s : State) : OutKeeps 0x4020530801FD80 s (execTnow th td s) := by
  unfold execTnow
  have hm : 0x4020530801FD80 &&& 0x4020530801FD80 = 0x4020530801FD80 := rfl
  have h0 := Keeps.refl 0x4020530801FD80 s
  repeat' first
    | with_reducible apply OutKeeps_next
    | with_reducible apply State.issue_keeps
    | (intro u hu)
    | with_reducible assumption
    | exact mask_sub (by decide) hm
    | with_reducible apply State.setT_keeps
    | with_reducible apply Eff.ok_keeps
    | (intro _)

theorem execTmov_keeps (th : Fin 512) (td tx : Fin 8) (s : State) : OutKeeps 0x4020530801FD80 s (execTmov th td tx s) := by
  unfold execTmov
  have hm : 0x4020530801FD80 &&& 0x4020530801FD80 = 0x4020530801FD80 := rfl
  have h0 := Keeps.refl 0x4020530801FD80 s
  repeat' first
    | with_reducible apply OutKeeps_next
    | with_reducible apply State.issue_keeps
    | (intro u hu)
    | with_reducible assumption
    | exact mask_sub (by decide) hm
    | with_reducible apply State.setT_keeps
    | with_reducible apply Eff.ok_keeps
    | (intro _)

theorem execTadd_keeps (th : Fin 512) (td tx : Fin 8) (g : Fin 32) (s : State) : OutKeeps 0x4020530801FD80 s (execTadd th td tx g s) := by
  unfold execTadd
  have hm : 0x4020530801FD80 &&& 0x4020530801FD80 = 0x4020530801FD80 := rfl
  have h0 := Keeps.refl 0x4020530801FD80 s
  repeat' first
    | with_reducible apply OutKeeps_next
    | with_reducible apply State.issue_keeps
    | (intro u hu)
    | with_reducible assumption
    | exact mask_sub (by decide) hm
    | with_reducible apply State.putT_keeps
    | (intro _)
    | (with_reducible apply keeps_pair)

theorem execTadds_keeps (th : Fin 512) (td tx : Fin 8) (g : Fin 32) (s : State) : OutKeeps 0x4020530801FD80 s (execTadds th td tx g s) := by
  unfold execTadds
  have hm : 0x4020530801FD80 &&& 0x4020530801FD80 = 0x4020530801FD80 := rfl
  have h0 := Keeps.refl 0x4020530801FD80 s
  repeat' first
    | with_reducible apply OutKeeps_next
    | with_reducible apply State.issue_keeps
    | (intro u hu)
    | with_reducible assumption
    | exact mask_sub (by decide) hm
    | with_reducible apply State.putT_keeps
    | (intro _)
    | (with_reducible apply keeps_pair)

theorem execTsub_keeps (th : Fin 512) (g : Fin 32) (tx ty : Fin 8) (s : State) : OutKeeps 0x4020530801FD80 s (execTsub th g tx ty s) := by
  unfold execTsub
  have hm : 0x4020530801FD80 &&& 0x4020530801FD80 = 0x4020530801FD80 := rfl
  have h0 := Keeps.refl 0x4020530801FD80 s
  repeat' first
    | with_reducible apply OutKeeps_next
    | with_reducible apply State.issue_keeps
    | (intro u hu)
    | (extract_lets +onlyGivenNames x; refine keeps_cut (m := 0x4020530801FD80) (z := s) (x := x) ?_ (fun hx => ?_); rotate_left; generalize x = y at hx ⊢; clear x; rotate_left; subst x)
    | (extract_lets +onlyGivenNames x; first | (subst x) | skip)
    | with_reducible assumption
    | exact mask_sub (by decide) hm
    | with_reducible apply State.setG_keeps
    | with_reducible apply State.setThread_keeps
    | with_reducible apply Eff.ok_keeps
    | (intro _)
    | (with_reducible apply keeps_pair)

theorem execTcmp_keeps (th : Fin 512) (p : Fin 4) (tx ty : Fin 8) (cond : BitVec 3) (s : State) : OutKeeps 0x4020530801FD80 s (execTcmp th p tx ty cond s) := by
  unfold execTcmp
  have hm : 0x4020530801FD80 &&& 0x4020530801FD80 = 0x4020530801FD80 := rfl
  have h0 := Keeps.refl 0x4020530801FD80 s
  repeat' first
    | with_reducible apply OutKeeps_next
    | with_reducible apply State.issue_keeps
    | (intro u hu)
    | (extract_lets +onlyGivenNames x; refine keeps_cut (m := 0x4020530801FD80) (z := s) (x := x) ?_ (fun hx => ?_); rotate_left; generalize x = y at hx ⊢; clear x; rotate_left; subst x)
    | (extract_lets +onlyGivenNames x; first | (subst x) | skip)
    | with_reducible assumption
    | exact mask_sub (by decide) hm
    | with_reducible apply State.setP_keeps
    | exact illegal_keeps _ _ _
    | with_reducible apply Eff.ok_keeps
    | (intro _)
    | (split)
    | (with_reducible apply keeps_pair)

theorem execTget_keeps (th : Fin 512) (g : Fin 32) (tx : Fin 8) (low : Bool) (s : State) : OutKeeps 0x4020530801FD80 s (execTget th g tx low s) := by
  unfold execTget
  have hm : 0x4020530801FD80 &&& 0x4020530801FD80 = 0x4020530801FD80 := rfl
  have h0 := Keeps.refl 0x4020530801FD80 s
  repeat' first
    | with_reducible apply OutKeeps_next
    | with_reducible apply State.issue_keeps
    | (intro u hu)
    | with_reducible assumption
    | exact mask_sub (by decide) hm
    | with_reducible apply State.setG_keeps
    | with_reducible apply Eff.ok_keeps
    | (intro _)

theorem execTput_keeps (th : Fin 512) (td : Fin 8) (g : Fin 32) (low : Bool) (s : State) : OutKeeps 0x4020530801FD80 s (execTput th td g low s) := by
  unfold execTput
  have hm : 0x4020530801FD80 &&& 0x4020530801FD80 = 0x4020530801FD80 := rfl
  have h0 := Keeps.refl 0x4020530801FD80 s
  repeat' first
    | with_reducible apply OutKeeps_next
    | with_reducible apply State.issue_keeps
    | (intro u hu)
    | with_reducible assumption
    | exact mask_sub (by decide) hm
    | with_reducible apply State.putT_keeps
    | (intro _)
    | (with_reducible apply keeps_pair)

theorem execTwf_keeps (th : Fin 512) (tx : Fin 8) (g : Fin 32) (fmt : BitVec 2) (s : State) : OutKeeps 0x4020530803FD82 s (execTwf th tx g fmt s) := by
  unfold execTwf
  have hm : 0x4020530803FD82 &&& 0x4020530803FD82 = 0x4020530803FD82 := rfl
  have h0 := Keeps.refl 0x4020530803FD82 s
  repeat' first
    | with_reducible apply OutKeeps_next
    | with_reducible apply State.issue_keeps
    | (intro u hu)
    | (extract_lets +onlyGivenNames x; refine keeps_cut (m := 0x4020530803FD82) (z := s) (x := x) ?_ (fun hx => ?_); rotate_left; generalize x = y at hx ⊢; clear x; rotate_left; subst x)
    | (extract_lets +onlyGivenNames x; first | (subst x) | skip)
    | with_reducible assumption
    | exact mask_sub (by decide) hm
    | exact illegal_keeps _ _ _
    | with_reducible apply State.setFrame_keeps
    | with_reducible apply State.count_keeps
    | with_reducible apply State.setThread_keeps
    | with_reducible apply State.storeMem_keeps
    | with_reducible apply Eff.ok_keeps
    | with_reducible exact Eff.trap_keeps _
    | with_reducible apply effKeeps_ite
    | (intro _)
    | with_reducible apply keeps_ite
    | with_reducible apply keeps_ite_fst
    | (split)
    | (with_reducible apply keeps_pair)

theorem execBnow_keeps (th : Fin 512) (bd : Fin 8) (s : State) : OutKeeps 0x4020530801FD80 s (execBnow th bd s) := by
  unfold execBnow
  have hm : 0x4020530801FD80 &&& 0x4020530801FD80 = 0x4020530801FD80 := rfl
  have h0 := Keeps.refl 0x4020530801FD80 s
  repeat' first
    | with_reducible apply OutKeeps_next
    | with_reducible apply State.issue_keeps
    | (intro u hu)
    | with_reducible assumption
    | exact mask_sub (by decide) hm
    | with_reducible apply State.setBd_keeps
    | with_reducible apply Eff.ok_keeps
    | with_reducible apply effKeeps_ite
    | (intro _)
    | with_reducible apply keeps_ite
    | with_reducible apply keeps_ite_fst
    | (with_reducible apply keeps_pair)

theorem execBat_keeps (th : Fin 512) (bd tx : Fin 8) (g : Fin 32) (s : State) : OutKeeps 0x4020530801FD80 s (execBat th bd tx g s) := by
  unfold execBat
  have hm : 0x4020530801FD80 &&& 0x4020530801FD80 = 0x4020530801FD80 := rfl
  have h0 := Keeps.refl 0x4020530801FD80 s
  repeat' first
    | with_reducible apply OutKeeps_next
    | with_reducible apply State.issue_keeps
    | (intro u hu)
    | (extract_lets +onlyGivenNames x; refine keeps_cut (m := 0x4020530801FD80) (z := s) (x := x) ?_ (fun hx => ?_); rotate_left; generalize x = y at hx ⊢; clear x; rotate_left; subst x)
    | (extract_lets +onlyGivenNames x; first | (subst x) | skip)
    | with_reducible assumption
    | exact mask_sub (by decide) hm
    | with_reducible apply State.setBd_keeps
    | with_reducible apply Eff.ok_keeps
    | (intro _)
    | (with_reducible apply keeps_pair)

theorem execBmov_keeps (th : Fin 512) (bd bx : Fin 8) (s : State) : OutKeeps 0x4020530801FD80 s (execBmov th bd bx s) := by
  unfold execBmov
  have hm : 0x4020530801FD80 &&& 0x4020530801FD80 = 0x4020530801FD80 := rfl
  have h0 := Keeps.refl 0x4020530801FD80 s
  repeat' first
    | with_reducible apply OutKeeps_next
    | with_reducible apply State.issue_keeps
    | (intro u hu)
    | with_reducible assumption
    | exact mask_sub (by decide) hm
    | with_reducible apply State.setBd_keeps
    | with_reducible apply Eff.ok_keeps
    | (intro _)

theorem execBadd_keeps (th : Fin 512) (bd bx bz : Fin 8) (s : State) : OutKeeps 0x4020530801FD80 s (execBadd th bd bx bz s) := by
  unfold execBadd
  have hm : 0x4020530801FD80 &&& 0x4020530801FD80 = 0x4020530801FD80 := rfl
  have h0 := Keeps.refl 0x4020530801FD80 s
  repeat' first
    | with_reducible apply OutKeeps_next
    | with_reducible apply State.issue_keeps
    | (intro u hu)
    | (extract_lets +onlyGivenNames x; refine keeps_cut (m := 0x4020530801FD80) (z := s) (x := x) ?_ (fun hx => ?_); rotate_left; generalize x = y at hx ⊢; clear x; rotate_left; subst x)
    | (extract_lets +onlyGivenNames x; first | (subst x) | skip)
    | with_reducible assumption
    | exact mask_sub (by decide) hm
    | with_reducible apply State.setBd_keeps
    | with_reducible apply Eff.ok_keeps
    | (intro _)
    | (with_reducible apply keeps_pair)

theorem execBmax_keeps (th : Fin 512) (bd bx bz : Fin 8) (s : State) : OutKeeps 0x4020530801FD80 s (execBmax th bd bx bz s) := by
  unfold execBmax
  have hm : 0x4020530801FD80 &&& 0x4020530801FD80 = 0x4020530801FD80 := rfl
  have h0 := Keeps.refl 0x4020530801FD80 s
  repeat' first
    | with_reducible apply OutKeeps_next
    | with_reducible apply State.issue_keeps
    | (intro u hu)
    | (extract_lets +onlyGivenNames x; refine keeps_cut (m := 0x4020530801FD80) (z := s) (x := x) ?_ (fun hx => ?_); rotate_left; generalize x = y at hx ⊢; clear x; rotate_left; subst x)
    | (extract_lets +onlyGivenNames x; first | (subst x) | skip)
    | with_reducible assumption
    | exact mask_sub (by decide) hm
    | with_reducible apply State.setBd_keeps
    | with_reducible apply Eff.ok_keeps
    | (intro _)
    | (with_reducible apply keeps_pair)

theorem execBwid_keeps (th : Fin 512) (bd bx : Fin 8) (g : Fin 32) (s : State) : OutKeeps 0x4020530801FD80 s (execBwid th bd bx g s) := by
  unfold execBwid
  have hm : 0x4020530801FD80 &&& 0x4020530801FD80 = 0x4020530801FD80 := rfl
  have h0 := Keeps.refl 0x4020530801FD80 s
  repeat' first
    | with_reducible apply OutKeeps_next
    | with_reducible apply State.issue_keeps
    | (intro u hu)
    | (extract_lets +onlyGivenNames x; refine keeps_cut (m := 0x4020530801FD80) (z := s) (x := x) ?_ (fun hx => ?_); rotate_left; generalize x = y at hx ⊢; clear x; rotate_left; subst x)
    | (extract_lets +onlyGivenNames x; first | (subst x) | skip)
    | with_reducible assumption
    | exact mask_sub (by decide) hm
    | with_reducible apply State.setBd_keeps
    | with_reducible apply Eff.ok_keeps
    | (intro _)
    | (with_reducible apply keeps_pair)

theorem execBfromg_keeps (th : Fin 512) (bd : Fin 8) (g : Fin 32) (s : State) : OutKeeps 0x4020530801FD80 s (execBfromg th bd g s) := by
  unfold execBfromg
  have hm : 0x4020530801FD80 &&& 0x4020530801FD80 = 0x4020530801FD80 := rfl
  have h0 := Keeps.refl 0x4020530801FD80 s
  repeat' first
    | with_reducible apply OutKeeps_next
    | with_reducible apply State.issue_keeps
    | (intro u hu)
    | with_reducible assumption
    | exact mask_sub (by decide) hm
    | with_reducible apply State.setBd_keeps
    | with_reducible apply Eff.ok_keeps
    | (intro _)
    | (with_reducible apply keeps_pair)

theorem execBtog_keeps (th : Fin 512) (g : Fin 32) (bx : Fin 8) (s : State) : OutKeeps 0x4020530801FD80 s (execBtog th g bx s) := by
  unfold execBtog
  have hm : 0x4020530801FD80 &&& 0x4020530801FD80 = 0x4020530801FD80 := rfl
  have h0 := Keeps.refl 0x4020530801FD80 s
  repeat' first
    | with_reducible apply OutKeeps_next
    | with_reducible apply State.issue_keeps
    | (intro u hu)
    | with_reducible assumption
    | exact mask_sub (by decide) hm
    | with_reducible apply State.setG_keeps
    | with_reducible apply Eff.ok_keeps
    | (intro _)

theorem execBcvt_keeps (th : Fin 512) (g : Fin 32) (bx : Fin 8) (unit : BitVec 2) (addOne : Bool) (s : State) : OutKeeps 0x4020530801FD80 s (execBcvt th g bx unit addOne s) := by
  unfold execBcvt
  have hm : 0x4020530801FD80 &&& 0x4020530801FD80 = 0x4020530801FD80 := rfl
  have h0 := Keeps.refl 0x4020530801FD80 s
  repeat' first
    | with_reducible apply OutKeeps_next
    | with_reducible apply State.issue_keeps
    | (intro u hu)
    | (extract_lets +onlyGivenNames x; refine keeps_cut (m := 0x4020530801FD80) (z := s) (x := x) ?_ (fun hx => ?_); rotate_left; generalize x = y at hx ⊢; clear x; rotate_left; subst x)
    | (extract_lets +onlyGivenNames x; first | (subst x) | skip)
    | with_reducible assumption
    | exact mask_sub (by decide) hm
    | with_reducible apply State.setG_keeps
    | exact illegal_keeps _ _ _
    | with_reducible apply Eff.ok_keeps
    | with_reducible apply effKeeps_ite
    | (intro _)
    | with_reducible apply keeps_ite

theorem execBchk_keeps (th : Fin 512) (p : Fin 4) (bx bz : Fin 8) (s : State) : OutKeeps 0x4020530801FD80 s (execBchk th p bx bz s) := by
  unfold execBchk
  have hm : 0x4020530801FD80 &&& 0x4020530801FD80 = 0x4020530801FD80 := rfl
  have h0 := Keeps.refl 0x4020530801FD80 s
  repeat' first
    | with_reducible apply OutKeeps_next
    | with_reducible apply State.issue_keeps
    | (intro u hu)
    | with_reducible assumption
    | exact mask_sub (by decide) hm
    | with_reducible apply State.setP_keeps
    | with_reducible apply Eff.ok_keeps
    | (intro _)
    | (with_reducible apply keeps_pair)

theorem execBwf_keeps (th : Fin 512) (bx : Fin 8) (g : Fin 32) (unit : BitVec 2) (addOne : Bool) (s : State) : OutKeeps 0x6021530803FD82 s (execBwf th bx g unit addOne s) := by
  unfold execBwf
  have hm : 0x6021530803FD82 &&& 0x6021530803FD82 = 0x6021530803FD82 := rfl
  have h0 := Keeps.refl 0x6021530803FD82 s
  repeat' first
    | with_reducible apply OutKeeps_next
    | with_reducible apply State.issue_keeps
    | (intro u hu)
    | (extract_lets +onlyGivenNames x; refine keeps_cut (m := 0x6021530803FD82) (z := s) (x := x) ?_ (fun hx => ?_); rotate_left; generalize x = y at hx ⊢; clear x; rotate_left; subst x)
    | (extract_lets +onlyGivenNames x; first | (subst x) | skip)
    | with_reducible assumption
    | exact mask_sub (by decide) hm
    | exact illegal_keeps _ _ _
    | with_reducible apply State.violation_keeps
    | with_reducible apply State.setFrame_keeps
    | with_reducible apply State.storeMem_keeps
    | with_reducible apply Eff.ok_keeps
    | with_reducible exact Eff.trap_keeps _
    | with_reducible apply effKeeps_ite
    | (intro _)
    | with_reducible apply keeps_ite
    | with_reducible apply keeps_ite_fst
    | (split)
    | (with_reducible apply keeps_pair)

/-! ### Machine/BamdexIo.lean -/

theorem State.earm_keeps {m : Nat} {z s : State} (h0 : Keeps m z s) (hm : 0x4020C108004180 &&& m = 0x4020C108004180) (th : Nat) (w : BitVec 64) (tx : TimeVal) : Keeps m z (State.earm s th w tx).1 := by
  unfold State.earm
  repeat' first
    | (extract_lets +onlyGivenNames x; refine keeps_cut (m := m) (z := z) (x := x) ?_ (fun hx => ?_); rotate_left; generalize x = y at hx ⊢; clear x; rotate_left; subst x)
    | (extract_lets +onlyGivenNames x; first | (subst x) | skip)
    | with_reducible assumption
    | exact mask_sub (by decide) hm
    | with_reducible apply State.arm_keeps
    | with_reducible refine keeps_of_fst (by assumption) (State.arm_keeps ?_ ?_ ..)
    | (intro _)
    | with_reducible apply keeps_ite
    | with_reducible apply keeps_ite_fst
    | (split)
    | (with_reducible apply keeps_pair)

theorem execEarm_keeps (th : Fin 512) (g : Fin 32) (tx : Fin 8) (s : State) : OutKeeps 0x4020D30801FD80 s (execEarm th g tx s) := by
  unfold execEarm
  have hm : 0x4020D30801FD80 &&& 0x4020D30801FD80 = 0x4020D30801FD80 := rfl
  have h0 := Keeps.refl 0x4020D30801FD80 s
  repeat' first
    | with_reducible apply OutKeeps_next
    | with_reducible apply State.issue_keeps
    | (intro u hu)
    | (extract_lets +onlyGivenNames x; refine keeps_cut (m := 0x4020D30801FD80) (z := s) (x := x) ?_ (fun hx => ?_); rotate_left; generalize x = y at hx ⊢; clear x; rotate_left; subst x)
    | (extract_lets +onlyGivenNames x; first | (subst x) | skip)
    | with_reducible assumption
    | exact mask_sub (by decide) hm
    | with_reducible apply State.earm_keeps
    | with_reducible refine keeps_of_fst (by assumption) (State.earm_keeps ?_ ?_ ..)
    | with_reducible apply State.answer_keeps
    | (intro _)
    | (with_reducible apply keeps_pair)

theorem State.ecan_keeps {m : Nat} {z s : State} (h0 : Keeps m z s) (hm : 0x200000000C80 &&& m = 0x200000000C80) (th h : Nat) : Keeps m z (State.ecan s th h).1 := by
  unfold State.ecan
  repeat' first
    | (extract_lets +onlyGivenNames x; refine keeps_cut (m := m) (z := z) (x := x) ?_ (fun hx => ?_); rotate_left; generalize x = y at hx ⊢; clear x; rotate_left; subst x)
    | (extract_lets +onlyGivenNames x; first | (subst x) | skip)
    | with_reducible assumption
    | exact mask_sub (by decide) hm
    | with_reducible apply State.cancelLaunch_keeps
    | with_reducible apply State.cancel_keeps
    | with_reducible refine keeps_of_fst (by assumption) (State.cancel_keeps ?_ ?_ ..)
    | (intro _)
    | with_reducible apply keeps_ite
    | with_reducible apply keeps_ite_fst
    | (split)
    | (with_reducible apply keeps_pair)

theorem execEcan_keeps (th : Fin 512) (g : Fin 32) (s : State) : OutKeeps 0x4020530801FD80 s (execEcan th g s) := by
  unfold execEcan
  have hm : 0x4020530801FD80 &&& 0x4020530801FD80 = 0x4020530801FD80 := rfl
  have h0 := Keeps.refl 0x4020530801FD80 s
  repeat' first
    | with_reducible apply OutKeeps_next
    | with_reducible apply State.issue_keeps
    | (intro u hu)
    | (extract_lets +onlyGivenNames x; refine keeps_cut (m := 0x4020530801FD80) (z := s) (x := x) ?_ (fun hx => ?_); rotate_left; generalize x = y at hx ⊢; clear x; rotate_left; subst x)
    | (extract_lets +onlyGivenNames x; first | (subst x) | skip)
    | with_reducible assumption
    | exact mask_sub (by decide) hm
    | with_reducible apply State.ecan_keeps
    | with_reducible refine keeps_of_fst (by assumption) (State.ecan_keeps ?_ ?_ ..)
    | with_reducible apply State.answer_keeps
    | (intro _)

theorem execEwait_keeps (th : Fin 512) (td : Fin 8) (g : Fin 32) (s : State) : OutKeeps 0x4020530801FD80 s (execEwait th td g s) := by
  unfold execEwait
  have hm : 0x4020530801FD80 &&& 0x4020530801FD80 = 0x4020530801FD80 := rfl
  have h0 := Keeps.refl 0x4020530801FD80 s
  repeat' first
    | with_reducible apply OutKeeps_next
    | with_reducible apply State.issue_keeps
    | (intro u hu)
    | (extract_lets +onlyGivenNames x; refine keeps_cut (m := 0x4020530801FD80) (z := s) (x := x) ?_ (fun hx => ?_); rotate_left; generalize x = y at hx ⊢; clear x; rotate_left; subst x)
    | (extract_lets +onlyGivenNames x; first | (subst x) | skip)
    | with_reducible assumption
    | exact mask_sub (by decide) hm
    | with_reducible apply State.returnNotice_keeps
    | with_reducible apply State.setThread_keeps
    | with_reducible apply State.wr_keeps
    | with_reducible apply Eff.ok_keeps
    | with_reducible apply effKeeps_ite
    | (intro _)
    | with_reducible apply keeps_ite
    | with_reducible apply keeps_ite_fst
    | (split)
    | (with_reducible apply keeps_pair)

theorem execPaddr_keeps (th : Fin 512) (d a : Fin 32) (s : State) : OutKeeps 0x4020530801FD80 s (execPaddr th d a s) := by
  unfold execPaddr
  have hm : 0x4020530801FD80 &&& 0x4020530801FD80 = 0x4020530801FD80 := rfl
  have h0 := Keeps.refl 0x4020530801FD80 s
  repeat' first
    | with_reducible apply OutKeeps_next
    | with_reducible apply State.issue_keeps
    | (intro u hu)
    | (extract_lets +onlyGivenNames x; refine keeps_cut (m := 0x4020530801FD80) (z := s) (x := x) ?_ (fun hx => ?_); rotate_left; generalize x = y at hx ⊢; clear x; rotate_left; subst x)
    | (extract_lets +onlyGivenNames x; first | (subst x) | skip)
    | with_reducible assumption
    | exact mask_sub (by decide) hm
    | with_reducible apply State.setG_keeps
    | with_reducible apply State.fresh_keeps
    | with_reducible refine keeps_of_snd (by assumption) (State.fresh_keeps ?_ ?_ ..)
    | with_reducible apply Eff.ok_keeps
    | (intro _)
    | (split)

theorem execPinfo_keeps (th : Fin 512) (d a : Fin 32) (s : State) : OutKeeps 0x4020530801FD80 s (execPinfo th d a s) := by
  unfold execPinfo
  have hm : 0x4020530801FD80 &&& 0x4020530801FD80 = 0x4020530801FD80 := rfl
  have h0 := Keeps.refl 0x4020530801FD80 s
  repeat' first
    | with_reducible apply OutKeeps_next
    | with_reducible apply State.issue_keeps
    | (intro u hu)
    | (extract_lets +onlyGivenNames x; refine keeps_cut (m := 0x4020530801FD80) (z := s) (x := x) ?_ (fun hx => ?_); rotate_left; generalize x = y at hx ⊢; clear x; rotate_left; subst x)
    | (extract_lets +onlyGivenNames x; first | (subst x) | skip)
    | with_reducible assumption
    | exact mask_sub (by decide) hm
    | with_reducible apply State.setG_keeps
    | with_reducible apply State.fresh_keeps
    | with_reducible refine keeps_of_snd (by assumption) (State.fresh_keeps ?_ ?_ ..)
    | with_reducible apply Eff.ok_keeps
    | (intro _)
    | (split)

theorem State.palloc_keeps {m : Nat} {z s : State} (h0 : Keeps m z s) (hm : 0x101000400 &&& m = 0x101000400) (th len : Nat) : Keeps m z (State.palloc s th len).1 := by
  unfold State.palloc
  repeat' first
    | (extract_lets +onlyGivenNames x; refine keeps_cut (m := m) (z := z) (x := x) ?_ (fun hx => ?_); rotate_left; generalize x = y at hx ⊢; clear x; rotate_left; subst x)
    | (extract_lets +onlyGivenNames x; first | (subst x) | skip)
    | with_reducible assumption
    | exact mask_sub (by decide) hm
    | with_reducible refine State.allocFrame_keeps (r := (_, _)) ?_ ?_ (by assumption)
    | with_reducible apply State.fresh_keeps
    | with_reducible refine keeps_of_snd (by assumption) (State.fresh_keeps ?_ ?_ ..)
    | (intro _)
    | with_reducible apply keeps_ite
    | with_reducible apply keeps_ite_fst
    | (split)
    | (with_reducible apply keeps_pair)

theorem execPalloc_keeps (th : Fin 512) (d a : Fin 32) (s : State) : OutKeeps 0x4020530901FD80 s (execPalloc th d a s) := by
  unfold execPalloc
  have hm : 0x4020530901FD80 &&& 0x4020530901FD80 = 0x4020530901FD80 := rfl
  have h0 := Keeps.refl 0x4020530901FD80 s
  repeat' first
    | with_reducible apply OutKeeps_next
    | with_reducible apply State.issue_keeps
    | (intro u hu)
    | (extract_lets +onlyGivenNames x; refine keeps_cut (m := 0x4020530901FD80) (z := s) (x := x) ?_ (fun hx => ?_); rotate_left; generalize x = y at hx ⊢; clear x; rotate_left; subst x)
    | (extract_lets +onlyGivenNames x; first | (subst x) | skip)
    | with_reducible assumption
    | exact mask_sub (by decide) hm
    | with_reducible apply State.palloc_keeps
    | with_reducible refine keeps_of_fst (by assumption) (State.palloc_keeps ?_ ?_ ..)
    | with_reducible apply State.answer_keeps
    | (intro _)

theorem execPfree_keeps (th : Fin 512) (a : Fin 32) (s : State) : OutKeeps 0x4020530801FD80 s (execPfree th a s) := by
  unfold execPfree
  have hm : 0x4020530801FD80 &&& 0x4020530801FD80 = 0x4020530801FD80 := rfl
  have h0 := Keeps.refl 0x4020530801FD80 s
  repeat' first
    | with_reducible apply OutKeeps_next
    | with_reducible apply State.issue_keeps
    | (intro u hu)
    | (extract_lets +onlyGivenNames x; refine keeps_cut (m := 0x4020530801FD80) (z := s) (x := x) ?_ (fun hx => ?_); rotate_left; generalize x = y at hx ⊢; clear x; rotate_left; subst x)
    | (extract_lets +onlyGivenNames x; first | (subst x) | skip)
    | with_reducible assumption
    | exact mask_sub (by decide) hm
    | with_reducible apply State.freeFrame_keeps
    | with_reducible apply Eff.ok_keeps
    | with_reducible exact Eff.trap_keeps _
    | (intro _)
    | (split)
    | (with_reducible apply keeps_pair)

theorem State.pcopy_keeps {m : Nat} {z s : State} (h0 : Keeps m z s) (hm : 0x4020002 &&& m = 0x4020002) (th n src dst : Nat) : EffKeeps m z (State.pcopy s th n src dst) := by
  unfold State.pcopy
  repeat' first
    | (extract_lets +onlyGivenNames x; refine keeps_cut (m := m) (z := z) (x := x) ?_ (fun hx => ?_); rotate_left; generalize x = y at hx ⊢; clear x; rotate_left; subst x)
    | (extract_lets +onlyGivenNames x; first | (subst x) | skip)
    | with_reducible assumption
    | exact mask_sub (by decide) hm
    | with_reducible apply State.storeData_keeps
    | with_reducible apply Eff.ok_keeps
    | with_reducible exact Eff.trap_keeps _
    | with_reducible exact Eff.stall_keeps
    | with_reducible apply effKeeps_ite
    | (intro _)
    | with_reducible apply keeps_ite_fst
    | (split)
    | (with_reducible apply keeps_pair)

theorem execPcopy_keeps (th : Fin 512) (d a b : Fin 32) (s : State) : OutKeeps 0x4020530C03FD82 s (execPcopy th d a b s) := by
  unfold execPcopy
  have hm : 0x4020530C03FD82 &&& 0x4020530C03FD82 = 0x4020530C03FD82 := rfl
  have h0 := Keeps.refl 0x4020530C03FD82 s
  repeat' first
    | with_reducible apply OutKeeps_next
    | with_reducible apply State.issue_keeps
    | (intro u hu)
    | with_reducible assumption
    | exact mask_sub (by decide) hm
    | with_reducible apply State.pcopy_keeps
    | (intro _)
    | (with_reducible apply keeps_pair)

theorem execPsend_keeps (th : Fin 512) (d a b : Fin 32) (s : State) : OutKeeps 0x6821530901FD80 s (execPsend th d a b s) := by
  unfold execPsend
  have hm : 0x6821530901FD80 &&& 0x6821530901FD80 = 0x6821530901FD80 := rfl
  have h0 := Keeps.refl 0x6821530901FD80 s
  repeat' first
    | with_reducible apply OutKeeps_next
    | with_reducible apply State.issue_keeps
    | (intro u hu)
    | (extract_lets +onlyGivenNames x; refine keeps_cut (m := 0x6821530901FD80) (z := s) (x := x) ?_ (fun hx => ?_); rotate_left; generalize x = y at hx ⊢; clear x; rotate_left; subst x)
    | (extract_lets +onlyGivenNames x; first | (subst x) | skip)
    | with_reducible assumption
    | exact mask_sub (by decide) hm
    | with_reducible apply State.answer_keeps
    | with_reducible apply State.portSend_keeps
    | with_reducible refine keeps_of_fst (by assumption) (State.portSend_keeps ?_ ?_ ..)
    | (intro _)
    | (with_reducible apply keeps_pair)

theorem execPtsb_keeps (th : Fin 512) (bd : Fin 8) (a : Fin 32) (s : State) : OutKeeps 0x4020530801FD80 s (execPtsb th bd a s) := by
  unfold execPtsb
  have hm : 0x4020530801FD80 &&& 0x4020530801FD80 = 0x4020530801FD80 := rfl
  have h0 := Keeps.refl 0x4020530801FD80 s
  repeat' first
    | with_reducible apply OutKeeps_next
    | with_reducible apply State.issue_keeps
    | (intro u hu)
    | with_reducible assumption
    | exact mask_sub (by decide) hm
    | with_reducible apply State.setBd_keeps
    | with_reducible apply Eff.ok_keeps
    | (intro _)
    | (with_reducible apply keeps_pair)

theorem execLgate_keeps (th : Fin 512) (td tx : Fin 8) (g : Fin 32) (s : State) : OutKeeps 0x4020530801FD80 s (execLgate th td tx g s) := by
  unfold execLgate
  have hm : 0x4020530801FD80 &&& 0x4020530801FD80 = 0x4020530801FD80 := rfl
  have h0 := Keeps.refl 0x4020530801FD80 s
  repeat' first
    | with_reducible apply OutKeeps_next
    | with_reducible apply State.issue_keeps
    | (intro u hu)
    | (extract_lets +onlyGivenNames x; refine keeps_cut (m := 0x4020530801FD80) (z := s) (x := x) ?_ (fun hx => ?_); rotate_left; generalize x = y at hx ⊢; clear x; rotate_left; subst x)
    | (extract_lets +onlyGivenNames x; first | (subst x) | skip)
    | with_reducible assumption
    | exact mask_sub (by decide) hm
    | with_reducible apply State.answer_keeps
    | with_reducible apply State.setT_keeps
    | with_reducible apply Eff.ok_keeps
    | with_reducible apply effKeeps_ite
    | (intro _)
    | with_reducible apply keeps_ite
    | with_reducible apply keeps_ite_fst
    | (split)
    | (with_reducible apply keeps_pair)

theorem State.lsend_keeps {m : Nat} {z s : State} (h0 : Keeps m z s) (hm : 0x60215108014D80 &&& m = 0x60215108014D80) (th g : Nat) (w : BitVec 64) (t : TimeVal) (insn : BitVec 32) : EffKeeps m z (State.lsend s th g w t insn) := by
  unfold State.lsend
  repeat' first
    | (extract_lets +onlyGivenNames x; refine keeps_cut (m := m) (z := z) (x := x) ?_ (fun hx => ?_); rotate_left; generalize x = y at hx ⊢; clear x; rotate_left; subst x)
    | (extract_lets +onlyGivenNames x; first | (subst x) | skip)
    | with_reducible assumption
    | exact mask_sub (by decide) hm
    | with_reducible apply State.insnEvent_keeps
    | with_reducible apply State.answer_keeps
    | with_reducible apply State.launchSend_keeps
    | with_reducible refine keeps_of_fst (by assumption) (State.launchSend_keeps ?_ ?_ ..)
    | with_reducible apply Eff.ok_keeps
    | (intro _)
    | (split)
    | (with_reducible apply keeps_pair)

theorem execLsend_keeps (th : Fin 512) (g : Fin 32) (tx : Fin 8) (s : State) : OutKeeps 0x6021530801FD80 s (execLsend th g tx s) := by
  unfold execLsend
  have hm : 0x6021530801FD80 &&& 0x6021530801FD80 = 0x6021530801FD80 := rfl
  have h0 := Keeps.refl 0x6021530801FD80 s
  repeat' first
    | with_reducible apply OutKeeps_next
    | with_reducible apply State.issue_keeps
    | (intro u hu)
    | (extract_lets +onlyGivenNames x; refine keeps_cut (m := 0x6021530801FD80) (z := s) (x := x) ?_ (fun hx => ?_); rotate_left; generalize x = y at hx ⊢; clear x; rotate_left; subst x)
    | (extract_lets +onlyGivenNames x; first | (subst x) | skip)
    | with_reducible assumption
    | exact mask_sub (by decide) hm
    | with_reducible apply State.lsend_keeps
    | (intro _)
    | (with_reducible apply keeps_pair)

theorem State.submit_keeps {m : Nat} {z s : State} (h0 : Keeps m z s) (hm : 0x1100 &&& m = 0x1100) (th flat : Nat) (event : Bool) : Keeps m z (State.submit s th flat event).1 := by
  unfold State.submit
  repeat' first
    | (extract_lets +onlyGivenNames x; refine keeps_cut (m := m) (z := z) (x := x) ?_ (fun hx => ?_); rotate_left; generalize x = y at hx ⊢; clear x; rotate_left; subst x)
    | (extract_lets +onlyGivenNames x; first | (subst x) | skip)
    | with_reducible assumption
    | exact mask_sub (by decide) hm
    | with_reducible apply State.laneStart_keeps
    | with_reducible apply State.setJobs_keeps
    | with_reducible apply State.setThread_keeps
    | (intro _)
    | with_reducible apply keeps_ite
    | with_reducible apply keeps_ite_fst
    | (split)
    | (with_reducible apply keeps_pair)

theorem execCsub_keeps (th : Fin 512) (d a b : Fin 32) (s : State) : OutKeeps 0x4020530801FD80 s (execCsub th d a b s) := by
  unfold execCsub
  have hm : 0x4020530801FD80 &&& 0x4020530801FD80 = 0x4020530801FD80 := rfl
  have h0 := Keeps.refl 0x4020530801FD80 s
  repeat' first
    | with_reducible apply OutKeeps_next
    | with_reducible apply State.issue_keeps
    | (intro u hu)
    | (extract_lets +onlyGivenNames x; refine keeps_cut (m := 0x4020530801FD80) (z := s) (x := x) ?_ (fun hx => ?_); rotate_left; generalize x = y at hx ⊢; clear x; rotate_left; subst x)
    | (extract_lets +onlyGivenNames x; first | (subst x) | skip)
    | with_reducible assumption
    | exact mask_sub (by decide) hm
    | with_reducible apply State.submit_keeps
    | with_reducible refine keeps_of_fst (by assumption) (State.submit_keeps ?_ ?_ ..)
    | with_reducible apply State.insnEvent_keeps
    | with_reducible apply State.answer_keeps
    | with_reducible apply Eff.ok_keeps
    | with_reducible exact Eff.trap_keeps _
    | with_reducible apply effKeeps_ite
    | (intro _)
    | with_reducible apply keeps_ite
    | with_reducible apply keeps_ite_fst
    | (split)
    | (with_reducible apply keeps_pair)

theorem execCdrv_keeps (th : Fin 512) (d a b : Fin 32) (s : State) : OutKeeps 0x6021530801FD80 s (execCdrv th d a b s) := by
  unfold execCdrv
  have hm : 0x6021530801FD80 &&& 0x6021530801FD80 = 0x6021530801FD80 := rfl
  have h0 := Keeps.refl 0x6021530801FD80 s
  repeat' first
    | with_reducible apply OutKeeps_next
    | with_reducible apply State.issue_keeps
    | (intro u hu)
    | (extract_lets +onlyGivenNames x; refine keeps_cut (m := 0x6021530801FD80) (z := s) (x := x) ?_ (fun hx => ?_); rotate_left; generalize x = y at hx ⊢; clear x; rotate_left; subst x)
    | (extract_lets +onlyGivenNames x; first | (subst x) | skip)
    | with_reducible assumption
    | exact mask_sub (by decide) hm
    | with_reducible apply State.answer_keeps
    | with_reducible apply State.derive_keeps
    | with_reducible refine keeps_of_fst (by assumption) (State.derive_keeps ?_ ?_ ..)
    | with_reducible apply Eff.ok_keeps
    | with_reducible exact Eff.trap_keeps _
    | with_reducible apply effKeeps_ite
    | (intro _)
    | with_reducible apply keeps_ite
    | with_reducible apply keeps_ite_fst
    | (split)
    | (with_reducible apply keeps_pair)

theorem execCrel_keeps (th : Fin 512) (a : Fin 32) (s : State) : OutKeeps 0x4020530801FD80 s (execCrel th a s) := by
  unfold execCrel
  have hm : 0x4020530801FD80 &&& 0x4020530801FD80 = 0x4020530801FD80 := rfl
  have h0 := Keeps.refl 0x4020530801FD80 s
  repeat' first
    | with_reducible apply OutKeeps_next
    | with_reducible apply State.issue_keeps
    | (intro u hu)
    | with_reducible assumption
    | exact mask_sub (by decide) hm
    | with_reducible apply State.release__keeps
    | with_reducible apply Eff.ok_keeps
    | (intro _)

theorem execCryptoJobComplete_keeps (lane : Fin 16) (s : State) : OutKeeps 0x6821510D035582 s (execCryptoJobComplete lane s) := by
  unfold execCryptoJobComplete
  have hm : 0x6821510D035582 &&& 0x6821510D035582 = 0x6821510D035582 := rfl
  have h0 := Keeps.refl 0x6821510D035582 s
  repeat' first
    | with_reducible apply OutKeeps_next
    | with_reducible assumption
    | exact mask_sub (by decide) hm
    | with_reducible apply State.jobDone_keeps
    | (intro _)
    | with_reducible apply keeps_ite

theorem execDinc_keeps (th : Fin 512) (g : Fin 32) (s : State) : OutKeeps 0x6021530805FD80 s (execDinc th g s) := by
  unfold execDinc
  have hm : 0x6021530805FD80 &&& 0x6021530805FD80 = 0x6021530805FD80 := rfl
  have h0 := Keeps.refl 0x6021530805FD80 s
  repeat' first
    | with_reducible apply OutKeeps_next
    | with_reducible apply State.issue_keeps
    | (intro u hu)
    | (extract_lets +onlyGivenNames x; refine keeps_cut (m := 0x6021530805FD80) (z := s) (x := x) ?_ (fun hx => ?_); rotate_left; generalize x = y at hx ⊢; clear x; rotate_left; subst x)
    | (extract_lets +onlyGivenNames x; first | (subst x) | skip)
    | with_reducible assumption
    | exact mask_sub (by decide) hm
    | with_reducible apply State.answer_keeps
    | with_reducible apply State.incProgram_keeps
    | with_reducible refine keeps_of_fst (by assumption) (State.incProgram_keeps ?_ ?_ ..)
    | with_reducible apply effKeeps_ite
    | (intro _)
    | with_reducible apply keeps_ite

theorem State.takeWriter_keeps {m : Nat} {z s : State} (h0 : Keeps m z s) (hm : 0x200000008000 &&& m = 0x200000008000) (th : Nat) : Keeps m z (State.takeWriter s th).1 := by
  unfold State.takeWriter
  repeat' first
    | (extract_lets +onlyGivenNames x; refine keeps_cut (m := m) (z := z) (x := x) ?_ (fun hx => ?_); rotate_left; generalize x = y at hx ⊢; clear x; rotate_left; subst x)
    | (extract_lets +onlyGivenNames x; first | (subst x) | skip)
    | with_reducible assumption
    | exact mask_sub (by decide) hm
    | with_reducible apply State.setB_keeps
    | (intro _)
    | with_reducible apply keeps_ite
    | with_reducible apply keeps_ite_fst
    | (simp only [keeps_mk]; refine keeps_upd ?_ ?_ ?_ ?_ ?_ ?_ ?_ ?_ ?_ ?_ ?_ ?_ ?_ ?_ ?_ ?_ ?_ ?_ ?_ ?_ ?_ ?_ ?_ ?_ ?_ ?_ ?_ ?_ ?_ ?_ ?_ ?_ ?_ ?_ ?_ ?_ ?_ <;> first | exact same_rfl | exact same_bit (by decide) hm | exact id | exact Fuses.Le.refl _ | exact fun _ => TimeVal.ofCount_ns _ | exact fun h => SMap.wf_filter _ h | exact fun _ => SMap.wf_nil _ _ | skip)
    | (split)
    | (with_reducible apply keeps_pair)

theorem execDens_keeps (th : Fin 512) (g : Fin 32) (s : State) : OutKeeps 0x4020530801FD80 s (execDens th g s) := by
  unfold execDens
  have hm : 0x4020530801FD80 &&& 0x4020530801FD80 = 0x4020530801FD80 := rfl
  have h0 := Keeps.refl 0x4020530801FD80 s
  repeat' first
    | with_reducible apply OutKeeps_next
    | with_reducible apply State.issue_keeps
    | (intro u hu)
    | (extract_lets +onlyGivenNames x; refine keeps_cut (m := 0x4020530801FD80) (z := s) (x := x) ?_ (fun hx => ?_); rotate_left; generalize x = y at hx ⊢; clear x; rotate_left; subst x)
    | (extract_lets +onlyGivenNames x; first | (subst x) | skip)
    | with_reducible assumption
    | exact mask_sub (by decide) hm
    | with_reducible apply State.takeWriter_keeps
    | with_reducible refine keeps_of_fst (by assumption) (State.takeWriter_keeps ?_ ?_ ..)
    | with_reducible apply State.answer_keeps
    | with_reducible apply effKeeps_ite
    | (intro _)
    | with_reducible apply keeps_ite
    | with_reducible apply keeps_ite_fst
    | (with_reducible apply keeps_pair)

theorem State.stepProgram_keeps {m : Nat} {z s : State} (h0 : Keeps m z s) (hm : 0x6021510801C080 &&& m = 0x6021510801C080) (th code : Nat) (x : TimeVal) (insn : BitVec 32) : Keeps m z (State.stepProgram s th code x insn).1 := by
  unfold State.stepProgram
  repeat' first
    | (extract_lets +onlyGivenNames x; refine keeps_cut (m := m) (z := z) (x := x) ?_ (fun hx => ?_); rotate_left; generalize x = y at hx ⊢; clear x; rotate_left; subst x)
    | (extract_lets +onlyGivenNames x; first | (subst x) | skip)
    | with_reducible assumption
    | exact mask_sub (by decide) hm
    | with_reducible apply State.stepAccept_keeps
    | with_reducible apply State.violation_keeps
    | with_reducible apply State.setF_keeps
    | (with_reducible apply keeps_getD)
    | (intro _)
    | (split)
    | (with_reducible apply keeps_pair)

theorem execDstep_keeps (th : Fin 512) (g : Fin 32) (tx : Fin 8) (s : State) : OutKeeps 0x6021530801FD80 s (execDstep th g tx s) := by
  unfold execDstep
  have hm : 0x6021530801FD80 &&& 0x6021530801FD80 = 0x6021530801FD80 := rfl
  have h0 := Keeps.refl 0x6021530801FD80 s
  repeat' first
    | with_reducible apply OutKeeps_next
    | with_reducible apply State.issue_keeps
    | (intro u hu)
    | (extract_lets +onlyGivenNames x; refine keeps_cut (m := 0x6021530801FD80) (z := s) (x := x) ?_ (fun hx => ?_); rotate_left; generalize x = y at hx ⊢; clear x; rotate_left; subst x)
    | (extract_lets +onlyGivenNames x; first | (subst x) | skip)
    | with_reducible assumption
    | exact mask_sub (by decide) hm
    | with_reducible apply State.stepProgram_keeps
    | with_reducible refine keeps_of_fst (by assumption) (State.stepProgram_keeps ?_ ?_ ..)
    | with_reducible apply State.answer_keeps
    | with_reducible apply effKeeps_ite
    | (intro _)
    | with_reducible apply keeps_ite
    | with_reducible apply keeps_ite_fst
    | (with_reducible apply keeps_pair)

theorem execOwnc_keeps (th : Fin 512) (g : Fin 32) (s : State) : OutKeeps 0x4020530801FD80 s (execOwnc th g s) := by
  unfold execOwnc
  have hm : 0x4020530801FD80 &&& 0x4020530801FD80 = 0x4020530801FD80 := rfl
  have h0 := Keeps.refl 0x4020530801FD80 s
  repeat' first
    | with_reducible apply OutKeeps_next
    | with_reducible apply State.issue_keeps
    | (intro u hu)
    | (extract_lets +onlyGivenNames x; refine keeps_cut (m := 0x4020530801FD80) (z := s) (x := x) ?_ (fun hx => ?_); rotate_left; generalize x = y at hx ⊢; clear x; rotate_left; subst x)
    | (extract_lets +onlyGivenNames x; first | (subst x) | skip)
    | with_reducible assumption
    | exact mask_sub (by decide) hm
    | with_reducible apply State.answer_keeps
    | with_reducible apply State.claim_keeps
    | with_reducible refine keeps_of_fst (by assumption) (State.claim_keeps ?_ ?_ ..)
    | with_reducible apply effKeeps_ite
    | (intro _)
    | with_reducible apply keeps_ite
    | with_reducible apply keeps_ite_fst
    | (with_reducible apply keeps_pair)

theorem execOwnr_keeps (th : Fin 512) (g : Fin 32) (s : State) : OutKeeps 0x4020530801FD80 s (execOwnr th g s) := by
  unfold execOwnr
  have hm : 0x4020530801FD80 &&& 0x4020530801FD80 = 0x4020530801FD80 := rfl
  have h0 := Keeps.refl 0x4020530801FD80 s
  repeat' first
    | with_reducible apply OutKeeps_next
    | with_reducible apply State.issue_keeps
    | (intro u hu)
    | (extract_lets +onlyGivenNames x; refine keeps_cut (m := 0x4020530801FD80) (z := s) (x := x) ?_ (fun hx => ?_); rotate_left; generalize x = y at hx ⊢; clear x; rotate_left; subst x)
    | (extract_lets +onlyGivenNames x; first | (subst x) | skip)
    | with_reducible assumption
    | exact mask_sub (by decide) hm
    | with_reducible apply State.answer_keeps
    | with_reducible apply State.release_keeps
    | with_reducible refine keeps_of_fst (by assumption) (State.release_keeps ?_ ?_ ..)
    | with_reducible apply effKeeps_ite
    | (intro _)
    | with_reducible apply keeps_ite
    | with_reducible apply keeps_ite_fst
    | (with_reducible apply keeps_pair)

theorem State.steer_keeps {m : Nat} {z s : State} (h0 : Keeps m z s) (hm : 0x60215108114080 &&& m = 0x60215108114080) (th : Nat) (w : BitVec 64) (insn : BitVec 32) : Keeps m z (State.steer s th w insn).1 := by
  unfold State.steer
  repeat' first
    | (extract_lets +onlyGivenNames x; refine keeps_cut (m := m) (z := z) (x := x) ?_ (fun hx => ?_); rotate_left; generalize x = y at hx ⊢; clear x; rotate_left; subst x)
    | (extract_lets +onlyGivenNames x; first | (subst x) | skip)
    | with_reducible assumption
    | exact mask_sub (by decide) hm
    | with_reducible apply State.violation_keeps
    | (intro _)
    | with_reducible apply keeps_ite
    | with_reducible apply keeps_ite_fst
    | (simp only [keeps_mk]; refine keeps_upd ?_ ?_ ?_ ?_ ?_ ?_ ?_ ?_ ?_ ?_ ?_ ?_ ?_ ?_ ?_ ?_ ?_ ?_ ?_ ?_ ?_ ?_ ?_ ?_ ?_ ?_ ?_ ?_ ?_ ?_ ?_ ?_ ?_ ?_ ?_ ?_ ?_ <;> first | exact same_rfl | exact same_bit (by decide) hm | exact id | exact Fuses.Le.refl _ | exact fun _ => TimeVal.ofCount_ns _ | exact fun h => SMap.wf_filter _ h | exact fun _ => SMap.wf_nil _ _ | skip)
    | (split)
    | (with_reducible apply keeps_pair)

theorem execDosc_keeps (th : Fin 512) (g : Fin 32) (s : State) : OutKeeps 0x6021530811FD80 s (execDosc th g s) := by
  unfold execDosc
  have hm : 0x6021530811FD80 &&& 0x6021530811FD80 = 0x6021530811FD80 := rfl
  have h0 := Keeps.refl 0x6021530811FD80 s
  repeat' first
    | with_reducible apply OutKeeps_next
    | with_reducible apply State.issue_keeps
    | (intro u hu)
    | (extract_lets +onlyGivenNames x; refine keeps_cut (m := 0x6021530811FD80) (z := s) (x := x) ?_ (fun hx => ?_); rotate_left; generalize x = y at hx ⊢; clear x; rotate_left; subst x)
    | (extract_lets +onlyGivenNames x; first | (subst x) | skip)
    | with_reducible assumption
    | exact mask_sub (by decide) hm
    | with_reducible apply State.steer_keeps
    | with_reducible refine keeps_of_fst (by assumption) (State.steer_keeps ?_ ?_ ..)
    | with_reducible apply State.answer_keeps
    | with_reducible apply effKeeps_ite
    | (intro _)
    | with_reducible apply keeps_ite

end Sys2Proof.Machine
end

