-- ==== Sys2Proof/Laws/KeepsCommands.lean ====
section
/-!
SUPPORT. Laws/KeepsCommands.lean: what each operation keeps (Laws/Keeps.lean): the commands of the blocks.
-/
set_option linter.all false
namespace Sys2Proof.Machine

/-! ### Machine/Datum.lean -/

theorem State.act_keeps {m : Nat} {z s : State} (h : Keeps m z s) (c : Bool) {f : State → State}
    (hf : ∀ u, Keeps m z u → Keeps m z (f u)) : Keeps m z (s.act c f) := by
  unfold State.act
  split
  · exact hf _ h
  · exact h

theorem State.once_keeps {m : Nat} {z s : State} (h : Keeps m z s) (hm : 0x80000000 &&& m = 0x80000000) (i : Nat) {f : State → State}
    (hf : ∀ u, Keeps m z u → Keeps m z (f u)) : Keeps m z (s.once i f) := by
  unfold State.once
  split
  · exact h
  · refine hf _ ?_
    simp only [keeps_mk]
    refine keeps_upd h ?_ ?_ ?_ ?_ ?_ ?_ ?_ ?_ ?_ ?_ ?_ ?_ ?_ ?_ ?_ ?_ ?_ ?_ ?_ ?_ ?_ ?_ ?_ ?_ ?_ ?_ ?_ ?_ ?_ ?_ ?_ ?_ ?_ id id (Fuses.Le.refl _)
      <;> first | exact same_rfl | exact same_bit (by decide) hm

theorem State.replicaLoad_keeps {m : Nat} {z s : State} (h0 : Keeps m z s) (hm : 0x8018 &&& m = 0x8018) : Keeps m z (State.replicaLoad s) := by
  unfold State.replicaLoad
  repeat' first
    | (extract_lets +onlyGivenNames x; refine keeps_cut (m := m) (z := z) (x := x) ?_ (fun hx => ?_); rotate_left; generalize x = y at hx ⊢; clear x; rotate_left; subst x)
    | (extract_lets +onlyGivenNames x; first | (subst x) | skip)
    | with_reducible assumption
    | exact mask_sub (by decide) hm
    | (intro _)
    | (simp only [keeps_mk]; refine keeps_upd ?_ ?_ ?_ ?_ ?_ ?_ ?_ ?_ ?_ ?_ ?_ ?_ ?_ ?_ ?_ ?_ ?_ ?_ ?_ ?_ ?_ ?_ ?_ ?_ ?_ ?_ ?_ ?_ ?_ ?_ ?_ ?_ ?_ ?_ ?_ ?_ ?_ <;> first | exact same_rfl | exact same_bit (by decide) hm | exact id | exact Fuses.Le.refl _ | exact fun _ => TimeVal.ofCount_ns _ | exact fun h => SMap.wf_filter _ h | exact fun _ => SMap.wf_nil _ _ | skip)

theorem State.replicaMismatch_keeps {m : Nat} {z s : State} (h0 : Keeps m z s) (hm : 0x4120510805CD90 &&& m = 0x4120510805CD90) : Keeps m z (State.replicaMismatch s) := by
  unfold State.replicaMismatch
  repeat' first
    | (extract_lets +onlyGivenNames x; refine keeps_cut (m := m) (z := z) (x := x) ?_ (fun hx => ?_); rotate_left; generalize x = y at hx ⊢; clear x; rotate_left; subst x)
    | (extract_lets +onlyGivenNames x; first | (subst x) | skip)
    | with_reducible assumption
    | exact mask_sub (by decide) hm
    | with_reducible refine State.raiseLow_keeps ?_ ?_ (by dsimp only; decide)
    | with_reducible apply State.raise_keeps
    | with_reducible apply State.failLaunches_keeps
    | with_reducible apply State.journal_keeps
    | with_reducible apply State.setB_keeps
    | with_reducible apply State.setF_keeps
    | (intro _)
    | (simp only [keeps_mk]; refine keeps_upd ?_ ?_ ?_ ?_ ?_ ?_ ?_ ?_ ?_ ?_ ?_ ?_ ?_ ?_ ?_ ?_ ?_ ?_ ?_ ?_ ?_ ?_ ?_ ?_ ?_ ?_ ?_ ?_ ?_ ?_ ?_ ?_ ?_ ?_ ?_ ?_ ?_ <;> first | exact same_rfl | exact same_bit (by decide) hm | exact id | exact Fuses.Le.refl _ | exact fun _ => TimeVal.ofCount_ns _ | exact fun h => SMap.wf_filter _ h | exact fun _ => SMap.wf_nil _ _ | skip)
    | (with_reducible apply keeps_pair)

theorem State.secondCheck_keeps {m : Nat} {z s : State} (h0 : Keeps m z s) (hm : 0x4120510805CD98 &&& m = 0x4120510805CD98) : Keeps m z (State.secondCheck s) := by
  unfold State.secondCheck
  repeat' first
    | with_reducible assumption
    | exact mask_sub (by decide) hm
    | with_reducible apply State.replicaMismatch_keeps
    | with_reducible apply State.replicaLoad_keeps
    | with_reducible apply State.setB_keeps
    | (intro _)
    | with_reducible apply keeps_ite

theorem execDatumSecondCheck_keeps (upset : Option Datum) (rates : List (Fin 64 × BitVec 32)) (s : State) : OutKeeps 0x4920518805CD98 s (execDatumSecondCheck upset rates s) := by
  unfold execDatumSecondCheck
  have hm : 0x4920518805CD98 &&& 0x4920518805CD98 = 0x4920518805CD98 := rfl
  have h0 := Keeps.refl 0x4920518805CD98 s
  repeat' first
    | with_reducible apply OutKeeps_next
    | with_reducible apply State.once_keeps
    | with_reducible apply State.act_keeps
    | (intro u hu)
    | (extract_lets +onlyGivenNames x; refine keeps_cut (m := 0x4920518805CD98) (z := s) (x := x) ?_ (fun hx => ?_); rotate_left; generalize x = y at hx ⊢; clear x; rotate_left; subst x)
    | (extract_lets +onlyGivenNames x; first | (subst x) | skip)
    | with_reducible assumption
    | exact mask_sub (by decide) hm
    | with_reducible apply State.secondCheck_keeps
    | with_reducible apply State.wr_keeps
    | (with_reducible apply keeps_foldl)
    | (with_reducible apply keeps_getD)
    | (intro _ _ _)
    | (intro _)
    | with_reducible apply keeps_ite
    | (simp only [keeps_mk]; refine keeps_upd ?_ ?_ ?_ ?_ ?_ ?_ ?_ ?_ ?_ ?_ ?_ ?_ ?_ ?_ ?_ ?_ ?_ ?_ ?_ ?_ ?_ ?_ ?_ ?_ ?_ ?_ ?_ ?_ ?_ ?_ ?_ ?_ ?_ ?_ ?_ ?_ ?_ <;> first | exact same_rfl | exact same_bit (by decide) hm | exact id | exact Fuses.Le.refl _ | exact fun _ => TimeVal.ofCount_ns _ | exact fun h => SMap.wf_filter _ h | exact fun _ => SMap.wf_nil _ _ | skip)

theorem execD2dLinkDown_keeps  (s : State) : OutKeeps 0x112070001580B0 s (execD2dLinkDown s) := by
  unfold execD2dLinkDown
  have hm : 0x112070001580B0 &&& 0x112070001580B0 = 0x112070001580B0 := rfl
  have h0 := Keeps.refl 0x112070001580B0 s
  repeat' first
    | with_reducible apply OutKeeps_next
    | with_reducible apply State.act_keeps
    | (intro u hu)
    | (extract_lets +onlyGivenNames x; refine keeps_cut (m := 0x112070001580B0) (z := s) (x := x) ?_ (fun hx => ?_); rotate_left; generalize x = y at hx ⊢; clear x; rotate_left; subst x)
    | (extract_lets +onlyGivenNames x; first | (subst x) | skip)
    | with_reducible assumption
    | exact mask_sub (by decide) hm
    | with_reducible refine State.raiseLow_keeps ?_ ?_ (by dsimp only; decide)
    | with_reducible apply State.raise_keeps
    | with_reducible apply State.beginNoWriter_keeps
    | with_reducible apply State.setB_keeps
    | (intro _)
    | (simp only [keeps_mk]; refine keeps_upd ?_ ?_ ?_ ?_ ?_ ?_ ?_ ?_ ?_ ?_ ?_ ?_ ?_ ?_ ?_ ?_ ?_ ?_ ?_ ?_ ?_ ?_ ?_ ?_ ?_ ?_ ?_ ?_ ?_ ?_ ?_ ?_ ?_ ?_ ?_ ?_ ?_ <;> first | exact same_rfl | exact same_bit (by decide) hm | exact id | exact Fuses.Le.refl _ | exact fun _ => TimeVal.ofCount_ns _ | exact fun h => SMap.wf_filter _ h | exact fun _ => SMap.wf_nil _ _ | skip)
    | (with_reducible apply keeps_pair)

theorem execD2dLinkUp_keeps  (s : State) : OutKeeps 0x8030 s (execD2dLinkUp s) := by
  unfold execD2dLinkUp
  have hm : 0x8030 &&& 0x8030 = 0x8030 := rfl
  have h0 := Keeps.refl 0x8030 s
  repeat' first
    | with_reducible apply OutKeeps_next
    | with_reducible apply State.act_keeps
    | (intro u hu)
    | (extract_lets +onlyGivenNames x; refine keeps_cut (m := 0x8030) (z := s) (x := x) ?_ (fun hx => ?_); rotate_left; generalize x = y at hx ⊢; clear x; rotate_left; subst x)
    | (extract_lets +onlyGivenNames x; first | (subst x) | skip)
    | with_reducible assumption
    | exact mask_sub (by decide) hm
    | (intro _)
    | (simp only [keeps_mk]; refine keeps_upd ?_ ?_ ?_ ?_ ?_ ?_ ?_ ?_ ?_ ?_ ?_ ?_ ?_ ?_ ?_ ?_ ?_ ?_ ?_ ?_ ?_ ?_ ?_ ?_ ?_ ?_ ?_ ?_ ?_ ?_ ?_ ?_ ?_ ?_ ?_ ?_ ?_ <;> first | exact same_rfl | exact same_bit (by decide) hm | exact id | exact Fuses.Le.refl _ | exact fun _ => TimeVal.ofCount_ns _ | exact fun h => SMap.wf_filter _ h | exact fun _ => SMap.wf_nil _ _ | skip)

theorem execPostedWriteApply_keeps  (s : State) : OutKeeps 0x7FFFFFFFFFFFFF s (execPostedWriteApply s) := by
  unfold execPostedWriteApply
  have hm : 0x7FFFFFFFFFFFFF &&& 0x7FFFFFFFFFFFFF = 0x7FFFFFFFFFFFFF := rfl
  have h0 := Keeps.refl 0x7FFFFFFFFFFFFF s
  repeat' first
    | with_reducible apply OutKeeps_next
    | with_reducible apply State.act_keeps
    | (intro u hu)
    | with_reducible assumption
    | exact mask_sub (by decide) hm
    | with_reducible apply State.flushPosted_keeps
    | exact Reg.bit_all _ hm
    | (intro _)

theorem execCopyRefresh_keeps (pherr : List (BitVec 32)) (s : State) : OutKeeps 0x320480000C001 s (execCopyRefresh pherr s) := by
  unfold execCopyRefresh
  have hm : 0x320480000C001 &&& 0x320480000C001 = 0x320480000C001 := rfl
  have h0 := Keeps.refl 0x320480000C001 s
  repeat' first
    | with_reducible apply OutKeeps_next
    | with_reducible apply State.act_keeps
    | (intro u hu)
    | (extract_lets +onlyGivenNames x; refine keeps_cut (m := 0x320480000C001) (z := s) (x := x) ?_ (fun hx => ?_); rotate_left; generalize x = y at hx ⊢; clear x; rotate_left; subst x)
    | (extract_lets +onlyGivenNames x; first | (subst x) | skip)
    | with_reducible assumption
    | exact mask_sub (by decide) hm
    | with_reducible apply State.copyRefresh_keeps
    | with_reducible apply State.wr_keeps
    | (with_reducible apply keeps_foldl)
    | (intro _ _ _)
    | (intro _)
    | (split)

theorem execDclkTick_keeps  (s : State) : OutKeeps 0x41A0C1095CCDCC s (execDclkTick s) := by
  unfold execDclkTick
  have hm : 0x41A0C1095CCDCC &&& 0x41A0C1095CCDCC = 0x41A0C1095CCDCC := rfl
  have h0 := Keeps.refl 0x41A0C1095CCDCC s
  repeat' first
    | with_reducible apply OutKeeps_next
    | with_reducible apply State.act_keeps
    | (intro u hu)
    | with_reducible assumption
    | exact mask_sub (by decide) hm
    | with_reducible apply State.dclkTick_keeps
    | (intro _)

theorem execIncTakesEffect_keeps  (s : State) : OutKeeps 0x200000008000 s (execIncTakesEffect s) := by
  unfold execIncTakesEffect
  have hm : 0x200000008000 &&& 0x200000008000 = 0x200000008000 := rfl
  have h0 := Keeps.refl 0x200000008000 s
  repeat' first
    | with_reducible apply OutKeeps_next
    | with_reducible apply State.act_keeps
    | (intro u hu)
    | with_reducible assumption
    | exact mask_sub (by decide) hm
    | with_reducible apply State.incTake_keeps
    | (intro _)

theorem execStepApply_keeps  (s : State) : OutKeeps 0x41A0C1095CCD8C s (execStepApply s) := by
  unfold execStepApply
  have hm : 0x41A0C1095CCD8C &&& 0x41A0C1095CCD8C = 0x41A0C1095CCD8C := rfl
  have h0 := Keeps.refl 0x41A0C1095CCD8C s
  repeat' first
    | with_reducible apply OutKeeps_next
    | with_reducible apply State.act_keeps
    | (intro u hu)
    | with_reducible assumption
    | exact mask_sub (by decide) hm
    | with_reducible apply State.stepTake_keeps
    | (intro _)

theorem State.blockAction_keeps {m : Nat} {z s : State} (h0 : Keeps m z s) (hm : 0x6604000C80080 &&& m = 0x6604000C80080) (e : Event) : Keeps m z (State.blockAction s e) := by
  unfold State.blockAction
  repeat' first
    | (extract_lets +onlyGivenNames x; refine keeps_cut (m := m) (z := z) (x := x) ?_ (fun hx => ?_); rotate_left; generalize x = y at hx ⊢; clear x; rotate_left; subst x)
    | (extract_lets +onlyGivenNames x; first | (subst x) | skip)
    | with_reducible assumption
    | exact mask_sub (by decide) hm
    | with_reducible apply State.snapAction_keeps
    | with_reducible apply State.syncArm_keeps
    | with_reducible apply State.osOpen_keeps
    | (intro _)
    | (split)

theorem execTimelineEventFire_keeps  (s : State) : OutKeeps 0x4660C108C84180 s (execTimelineEventFire s) := by
  unfold execTimelineEventFire
  have hm : 0x4660C108C84180 &&& 0x4660C108C84180 = 0x4660C108C84180 := rfl
  have h0 := Keeps.refl 0x4660C108C84180 s
  repeat' first
    | with_reducible apply OutKeeps_next
    | with_reducible apply State.act_keeps
    | (intro u hu)
    | (extract_lets +onlyGivenNames x; refine keeps_cut (m := 0x4660C108C84180) (z := s) (x := x) ?_ (fun hx => ?_); rotate_left; generalize x = y at hx ⊢; clear x; rotate_left; subst x)
    | (extract_lets +onlyGivenNames x; first | (subst x) | skip)
    | with_reducible assumption
    | exact mask_sub (by decide) hm
    | with_reducible apply State.blockAction_keeps
    | with_reducible apply State.fireEvent_keeps
    | (intro _)
    | (split)

theorem execArbInDecodeChange_keeps (code : BitVec 2) (s : State) : OutKeeps 0x5028712C01CD80 s (execArbInDecodeChange code s) := by
  unfold execArbInDecodeChange
  have hm : 0x5028712C01CD80 &&& 0x5028712C01CD80 = 0x5028712C01CD80 := rfl
  have h0 := Keeps.refl 0x5028712C01CD80 s
  repeat' first
    | with_reducible apply OutKeeps_next
    | with_reducible apply State.act_keeps
    | (intro u hu)
    | with_reducible assumption
    | exact mask_sub (by decide) hm
    | with_reducible apply State.arbChange_keeps
    | (intro _)

theorem execOwnClaim_keeps (q : Fin 64) (cid : BitVec 32) (idx : BitVec 16) (s : State) : OutKeeps 0x4A00024000 s (execOwnClaim q cid idx s) := by
  unfold execOwnClaim
  have hm : 0x4A00024000 &&& 0x4A00024000 = 0x4A00024000 := rfl
  have h0 := Keeps.refl 0x4A00024000 s
  repeat' first
    | with_reducible apply OutKeeps_next
    | with_reducible apply State.clockCommand_keeps
    | (intro u hu)
    | (extract_lets +onlyGivenNames x; refine keeps_cut (m := 0x4A00024000) (z := s) (x := x) ?_ (fun hx => ?_); rotate_left; generalize x = y at hx ⊢; clear x; rotate_left; subst x)
    | (extract_lets +onlyGivenNames x; first | (subst x) | skip)
    | with_reducible assumption
    | exact mask_sub (by decide) hm
    | with_reducible apply State.claim_keeps
    | with_reducible refine keeps_of_fst (by assumption) (State.claim_keeps ?_ ?_ ..)
    | (intro _)
    | (with_reducible apply keeps_pair)

theorem execOwnRelease_keeps (q : Fin 64) (cid : BitVec 32) (idx : BitVec 16) (s : State) : OutKeeps 0x4A00024000 s (execOwnRelease q cid idx s) := by
  unfold execOwnRelease
  have hm : 0x4A00024000 &&& 0x4A00024000 = 0x4A00024000 := rfl
  have h0 := Keeps.refl 0x4A00024000 s
  repeat' first
    | with_reducible apply OutKeeps_next
    | with_reducible apply State.clockCommand_keeps
    | (intro u hu)
    | (extract_lets +onlyGivenNames x; refine keeps_cut (m := 0x4A00024000) (z := s) (x := x) ?_ (fun hx => ?_); rotate_left; generalize x = y at hx ⊢; clear x; rotate_left; subst x)
    | (extract_lets +onlyGivenNames x; first | (subst x) | skip)
    | with_reducible assumption
    | exact mask_sub (by decide) hm
    | with_reducible apply State.release_keeps
    | with_reducible refine keeps_of_fst (by assumption) (State.release_keeps ?_ ?_ ..)
    | (intro _)
    | (with_reducible apply keeps_pair)

theorem execClusterIsolate_keeps (by_ : Option (Fin 64 × BitVec 32)) (c : Fin 16) (s : State) : OutKeeps 0x68205B2903FD80 s (execClusterIsolate by_ c s) := by
  unfold execClusterIsolate
  have hm : 0x68205B2903FD80 &&& 0x68205B2903FD80 = 0x68205B2903FD80 := rfl
  have h0 := Keeps.refl 0x68205B2903FD80 s
  repeat' first
    | with_reducible apply OutKeeps_next
    | with_reducible apply State.act_keeps
    | with_reducible apply State.command_keeps
    | (intro u hu)
    | (extract_lets +onlyGivenNames x; refine keeps_cut (m := 0x68205B2903FD80) (z := s) (x := x) ?_ (fun hx => ?_); rotate_left; generalize x = y at hx ⊢; clear x; rotate_left; subst x)
    | (extract_lets +onlyGivenNames x; first | (subst x) | skip)
    | with_reducible assumption
    | exact mask_sub (by decide) hm
    | with_reducible apply State.isolate_keeps
    | with_reducible refine State.raiseLow_keeps ?_ ?_ (by dsimp only; decide)
    | with_reducible apply State.raise_keeps
    | (intro _)
    | (split)
    | (with_reducible apply keeps_pair)

theorem execClusterRestore_keeps (q : Fin 64) (cid : BitVec 32) (c : Fin 16) (s : State) : OutKeeps 0x48204929024D80 s (execClusterRestore q cid c s) := by
  unfold execClusterRestore
  have hm : 0x48204929024D80 &&& 0x48204929024D80 = 0x48204929024D80 := rfl
  have h0 := Keeps.refl 0x48204929024D80 s
  repeat' first
    | with_reducible apply OutKeeps_next
    | with_reducible apply State.command_keeps
    | (intro u hu)
    | with_reducible assumption
    | exact mask_sub (by decide) hm
    | with_reducible apply State.restore_keeps
    | (intro _)
    | with_reducible apply keeps_ite
    | with_reducible apply keeps_ite_fst
    | (with_reducible apply keeps_pair)

theorem execIncHiStage_keeps (v : BitVec 32) (s : State) : OutKeeps 0x7FFFFFFFFFFFFF s (execIncHiStage v s) := by
  unfold execIncHiStage
  have hm : 0x7FFFFFFFFFFFFF &&& 0x7FFFFFFFFFFFFF = 0x7FFFFFFFFFFFFF := rfl
  have h0 := Keeps.refl 0x7FFFFFFFFFFFFF s
  repeat' first
    | with_reducible apply OutKeeps_next
    | with_reducible assumption
    | exact mask_sub (by decide) hm
    | with_reducible apply State.hostRow_keeps
    | exact Reg.bit_all _ hm
    | (intro _)

theorem execIncLoCommit_keeps (v : BitVec 32) (s : State) : OutKeeps 0x7FFFFFFFFFFFFF s (execIncLoCommit v s) := by
  unfold execIncLoCommit
  have hm : 0x7FFFFFFFFFFFFF &&& 0x7FFFFFFFFFFFFF = 0x7FFFFFFFFFFFFF := rfl
  have h0 := Keeps.refl 0x7FFFFFFFFFFFFF s
  repeat' first
    | with_reducible apply OutKeeps_next
    | with_reducible assumption
    | exact mask_sub (by decide) hm
    | with_reducible apply State.hostRow_keeps
    | exact Reg.bit_all _ hm
    | (intro _)

theorem execSettleOpen_keeps (v : BitVec 32) (s : State) : OutKeeps 0x7FFFFFFFFFFFFF s (execSettleOpen v s) := by
  unfold execSettleOpen
  have hm : 0x7FFFFFFFFFFFFF &&& 0x7FFFFFFFFFFFFF = 0x7FFFFFFFFFFFFF := rfl
  have h0 := Keeps.refl 0x7FFFFFFFFFFFFF s
  repeat' first
    | with_reducible apply OutKeeps_next
    | with_reducible assumption
    | exact mask_sub (by decide) hm
    | with_reducible apply State.hostRow_keeps
    | exact Reg.bit_all _ hm
    | (intro _)

theorem execSettleClose_keeps (v : BitVec 32) (s : State) : OutKeeps 0x7FFFFFFFFFFFFF s (execSettleClose v s) := by
  unfold execSettleClose
  have hm : 0x7FFFFFFFFFFFFF &&& 0x7FFFFFFFFFFFFF = 0x7FFFFFFFFFFFFF := rfl
  have h0 := Keeps.refl 0x7FFFFFFFFFFFFF s
  repeat' first
    | with_reducible apply OutKeeps_next
    | with_reducible assumption
    | exact mask_sub (by decide) hm
    | with_reducible apply State.hostRow_keeps
    | exact Reg.bit_all _ hm
    | (intro _)

theorem execSettleTimeout_keeps  (s : State) : OutKeeps 0x204000008080 s (execSettleTimeout s) := by
  unfold execSettleTimeout
  have hm : 0x204000008080 &&& 0x204000008080 = 0x204000008080 := rfl
  have h0 := Keeps.refl 0x204000008080 s
  repeat' first
    | with_reducible apply OutKeeps_next
    | with_reducible apply State.act_keeps
    | (intro u hu)
    | with_reducible assumption
    | exact mask_sub (by decide) hm
    | with_reducible apply State.shutSettle_keeps
    | (intro _)

theorem execKindlingOpen_keeps  (s : State) : OutKeeps 0x204020008080 s (execKindlingOpen s) := by
  unfold execKindlingOpen
  have hm : 0x204020008080 &&& 0x204020008080 = 0x204020008080 := rfl
  have h0 := Keeps.refl 0x204020008080 s
  repeat' first
    | with_reducible apply OutKeeps_next
    | with_reducible assumption
    | exact mask_sub (by decide) hm
    | with_reducible apply State.kindle_keeps
    | (intro _)

theorem execDtmStepGo_keeps (v : BitVec 32) (s : State) : OutKeeps 0x7FFFFFFFFFFFFF s (execDtmStepGo v s) := by
  unfold execDtmStepGo
  have hm : 0x7FFFFFFFFFFFFF &&& 0x7FFFFFFFFFFFFF = 0x7FFFFFFFFFFFFF := rfl
  have h0 := Keeps.refl 0x7FFFFFFFFFFFFF s
  repeat' first
    | with_reducible apply OutKeeps_next
    | with_reducible assumption
    | exact mask_sub (by decide) hm
    | with_reducible apply State.hostRow_keeps
    | exact Reg.bit_all _ hm
    | (intro _)

theorem execUtcOffsetWrite_keeps (v : BitVec 32) (s : State) : OutKeeps 0x7FFFFFFFFFFFFF s (execUtcOffsetWrite v s) := by
  unfold execUtcOffsetWrite
  have hm : 0x7FFFFFFFFFFFFF &&& 0x7FFFFFFFFFFFFF = 0x7FFFFFFFFFFFFF := rfl
  have h0 := Keeps.refl 0x7FFFFFFFFFFFFF s
  repeat' first
    | with_reducible apply OutKeeps_next
    | with_reducible assumption
    | exact mask_sub (by decide) hm
    | with_reducible apply State.hostRow_keeps
    | exact Reg.bit_all _ hm
    | (intro _)

theorem execLeapArm_keeps (v : BitVec 32) (s : State) : OutKeeps 0x7FFFFFFFFFFFFF s (execLeapArm v s) := by
  unfold execLeapArm
  have hm : 0x7FFFFFFFFFFFFF &&& 0x7FFFFFFFFFFFFF = 0x7FFFFFFFFFFFFF := rfl
  have h0 := Keeps.refl 0x7FFFFFFFFFFFFF s
  repeat' first
    | with_reducible apply OutKeeps_next
    | with_reducible assumption
    | exact mask_sub (by decide) hm
    | with_reducible apply State.hostRow_keeps
    | exact Reg.bit_all _ hm
    | (intro _)

theorem execLeapCancel_keeps (v : BitVec 32) (s : State) : OutKeeps 0x7FFFFFFFFFFFFF s (execLeapCancel v s) := by
  unfold execLeapCancel
  have hm : 0x7FFFFFFFFFFFFF &&& 0x7FFFFFFFFFFFFF = 0x7FFFFFFFFFFFFF := rfl
  have h0 := Keeps.refl 0x7FFFFFFFFFFFFF s
  repeat' first
    | with_reducible apply OutKeeps_next
    | with_reducible assumption
    | exact mask_sub (by decide) hm
    | with_reducible apply State.hostRow_keeps
    | exact Reg.bit_all _ hm
    | (intro _)

theorem State.leapTake_keeps {m : Nat} {z s : State} (h0 : Keeps m z s) (hm : 0x1204040048080 &&& m = 0x1204040048080) (at_ : BitVec 64) (new : BitVec 16) : Keeps m z (State.leapTake s at_ new) := by
  unfold State.leapTake
  repeat' first
    | (extract_lets +onlyGivenNames x; refine keeps_cut (m := m) (z := z) (x := x) ?_ (fun hx => ?_); rotate_left; generalize x = y at hx ⊢; clear x; rotate_left; subst x)
    | (extract_lets +onlyGivenNames x; first | (subst x) | skip)
    | with_reducible assumption
    | exact mask_sub (by decide) hm
    | with_reducible apply State.leapFlags_keeps
    | with_reducible apply State.journal_keeps
    | with_reducible apply State.engineFree_keeps
    | with_reducible apply State.irqPulse_keeps
    | with_reducible apply State.setB_keeps
    | with_reducible apply State.setF_keeps
    | (intro _)
    | (simp only [keeps_mk]; refine keeps_upd ?_ ?_ ?_ ?_ ?_ ?_ ?_ ?_ ?_ ?_ ?_ ?_ ?_ ?_ ?_ ?_ ?_ ?_ ?_ ?_ ?_ ?_ ?_ ?_ ?_ ?_ ?_ ?_ ?_ ?_ ?_ ?_ ?_ ?_ ?_ ?_ ?_ <;> first | exact same_rfl | exact same_bit (by decide) hm | exact id | exact Fuses.Le.refl _ | exact fun _ => TimeVal.ofCount_ns _ | exact fun h => SMap.wf_filter _ h | exact fun _ => SMap.wf_nil _ _ | skip)
    | (with_reducible apply keeps_pair)

theorem execLeapTakeEffect_keeps  (s : State) : OutKeeps 0x1204040048080 s (execLeapTakeEffect s) := by
  unfold execLeapTakeEffect
  have hm : 0x1204040048080 &&& 0x1204040048080 = 0x1204040048080 := rfl
  have h0 := Keeps.refl 0x1204040048080 s
  repeat' first
    | with_reducible apply OutKeeps_next
    | with_reducible apply State.act_keeps
    | (intro u hu)
    | (extract_lets +onlyGivenNames x; refine keeps_cut (m := 0x1204040048080) (z := s) (x := x) ?_ (fun hx => ?_); rotate_left; generalize x = y at hx ⊢; clear x; rotate_left; subst x)
    | (extract_lets +onlyGivenNames x; first | (subst x) | skip)
    | with_reducible assumption
    | exact mask_sub (by decide) hm
    | with_reducible apply State.leapTake_keeps
    | (intro _)
    | with_reducible apply keeps_ite
    | with_reducible apply keeps_ite_fst
    | (split)
    | (with_reducible apply keeps_pair)

theorem execLeapDayFlag_keeps  (s : State) : OutKeeps 0x200000000000 s (execLeapDayFlag s) := by
  unfold execLeapDayFlag
  have hm : 0x200000000000 &&& 0x200000000000 = 0x200000000000 := rfl
  have h0 := Keeps.refl 0x200000000000 s
  repeat' first
    | with_reducible apply OutKeeps_next
    | with_reducible apply State.act_keeps
    | (intro u hu)
    | with_reducible assumption
    | exact mask_sub (by decide) hm
    | with_reducible apply State.leapFlags_keeps
    | (intro _)

theorem execDtmNowRead_keeps  (s : State) : OutKeeps 0x8000 s (execDtmNowRead s) := by
  unfold execDtmNowRead
  have hm : 0x8000 &&& 0x8000 = 0x8000 := rfl
  have h0 := Keeps.refl 0x8000 s
  repeat' first
    | with_reducible apply OutKeeps_next
    | with_reducible apply State.act_keeps
    | (intro u hu)
    | (extract_lets +onlyGivenNames x; refine keeps_cut (m := 0x8000) (z := s) (x := x) ?_ (fun hx => ?_); rotate_left; generalize x = y at hx ⊢; clear x; rotate_left; subst x)
    | (extract_lets +onlyGivenNames x; first | (subst x) | skip)
    | with_reducible assumption
    | exact mask_sub (by decide) hm
    | (intro _)
    | (simp only [keeps_mk]; refine keeps_upd ?_ ?_ ?_ ?_ ?_ ?_ ?_ ?_ ?_ ?_ ?_ ?_ ?_ ?_ ?_ ?_ ?_ ?_ ?_ ?_ ?_ ?_ ?_ ?_ ?_ ?_ ?_ ?_ ?_ ?_ ?_ ?_ ?_ ?_ ?_ ?_ ?_ <;> first | exact same_rfl | exact same_bit (by decide) hm | exact id | exact Fuses.Le.refl _ | exact fun _ => TimeVal.ofCount_ns _ | exact fun h => SMap.wf_filter _ h | exact fun _ => SMap.wf_nil _ _ | skip)

theorem execSnapGo_keeps (v : BitVec 32) (s : State) : OutKeeps 0x7FFFFFFFFFFFFF s (execSnapGo v s) := by
  unfold execSnapGo
  have hm : 0x7FFFFFFFFFFFFF &&& 0x7FFFFFFFFFFFFF = 0x7FFFFFFFFFFFFF := rfl
  have h0 := Keeps.refl 0x7FFFFFFFFFFFFF s
  repeat' first
    | with_reducible apply OutKeeps_next
    | with_reducible assumption
    | exact mask_sub (by decide) hm
    | with_reducible apply State.hostRow_keeps
    | exact Reg.bit_all _ hm
    | (intro _)

theorem execStkAbortGo_keeps (core : Fin 128) (v : BitVec 32) (s : State) : OutKeeps 0x7FFFFFFFFFFFFF s (execStkAbortGo core v s) := by
  unfold execStkAbortGo
  have hm : 0x7FFFFFFFFFFFFF &&& 0x7FFFFFFFFFFFFF = 0x7FFFFFFFFFFFFF := rfl
  have h0 := Keeps.refl 0x7FFFFFFFFFFFFF s
  repeat' first
    | with_reducible apply OutKeeps_next
    | with_reducible assumption
    | exact mask_sub (by decide) hm
    | with_reducible apply State.hostRow_keeps
    | exact Reg.bit_all _ hm
    | (intro _)

theorem execStkRestartGo_keeps (core : Fin 128) (v : BitVec 32) (s : State) : OutKeeps 0x7FFFFFFFFFFFFF s (execStkRestartGo core v s) := by
  unfold execStkRestartGo
  have hm : 0x7FFFFFFFFFFFFF &&& 0x7FFFFFFFFFFFFF = 0x7FFFFFFFFFFFFF := rfl
  have h0 := Keeps.refl 0x7FFFFFFFFFFFFF s
  repeat' first
    | with_reducible apply OutKeeps_next
    | with_reducible assumption
    | exact mask_sub (by decide) hm
    | with_reducible apply State.hostRow_keeps
    | exact Reg.bit_all _ hm
    | (intro _)

theorem execThreadAbort_keeps (q : Fin 64) (cid : BitVec 32) (th : Fin 512) (s : State) : OutKeeps 0x20204A0002FD80 s (execThreadAbort q cid th s) := by
  unfold execThreadAbort
  have hm : 0x20204A0002FD80 &&& 0x20204A0002FD80 = 0x20204A0002FD80 := rfl
  have h0 := Keeps.refl 0x20204A0002FD80 s
  repeat' first
    | with_reducible apply OutKeeps_next
    | with_reducible apply State.command_keeps
    | (intro u hu)
    | with_reducible assumption
    | exact mask_sub (by decide) hm
    | with_reducible apply State.abortThread_keeps
    | (intro _)
    | (with_reducible apply keeps_pair)

theorem execThreadRestart_keeps (q : Fin 64) (cid : BitVec 32) (th : Fin 512) (s : State) : OutKeeps 0x4800024100 s (execThreadRestart q cid th s) := by
  unfold execThreadRestart
  have hm : 0x4800024100 &&& 0x4800024100 = 0x4800024100 := rfl
  have h0 := Keeps.refl 0x4800024100 s
  repeat' first
    | with_reducible apply OutKeeps_next
    | with_reducible apply State.command_keeps
    | (intro u hu)
    | (extract_lets +onlyGivenNames x; refine keeps_cut (m := 0x4800024100) (z := s) (x := x) ?_ (fun hx => ?_); rotate_left; generalize x = y at hx ⊢; clear x; rotate_left; subst x)
    | (extract_lets +onlyGivenNames x; first | (subst x) | skip)
    | with_reducible assumption
    | exact mask_sub (by decide) hm
    | with_reducible refine State.restartThread_keeps ?_ ?_ (by assumption)
    | (intro _)
    | (split)
    | (with_reducible apply keeps_pair)

theorem execImageLoad_keeps (q : Fin 64) (cid : BitVec 32) (mask : BitVec 128) (commit : Bool) (file : List Byte) (s : State) : OutKeeps 0x20205820034382 s (execImageLoad q cid mask commit file s) := by
  unfold execImageLoad
  have hm : 0x20205820034382 &&& 0x20205820034382 = 0x20205820034382 := rfl
  have h0 := Keeps.refl 0x20205820034382 s
  repeat' first
    | with_reducible apply OutKeeps_next
    | with_reducible apply State.command_keeps
    | (intro u hu)
    | with_reducible assumption
    | exact mask_sub (by decide) hm
    | with_reducible apply State.imageLoad_keeps
    | with_reducible refine keeps_of_fst (by assumption) (State.imageLoad_keeps ?_ ?_ ..)
    | (intro _)

theorem execDebugHalt_keeps (th : Fin 512) (s : State) : OutKeeps 0x100 s (execDebugHalt th s) := by
  unfold execDebugHalt
  have hm : 0x100 &&& 0x100 = 0x100 := rfl
  have h0 := Keeps.refl 0x100 s
  repeat' first
    | with_reducible apply OutKeeps_next
    | with_reducible apply State.act_keeps
    | (intro u hu)
    | (extract_lets +onlyGivenNames x; refine keeps_cut (m := 0x100) (z := s) (x := x) ?_ (fun hx => ?_); rotate_left; generalize x = y at hx ⊢; clear x; rotate_left; subst x)
    | (extract_lets +onlyGivenNames x; first | (subst x) | skip)
    | with_reducible assumption
    | exact mask_sub (by decide) hm
    | with_reducible apply State.setThread_keeps
    | (intro _)

theorem execDebuggerResume_keeps (th : Fin 512) (s : State) : OutKeeps 0x100 s (execDebuggerResume th s) := by
  unfold execDebuggerResume
  have hm : 0x100 &&& 0x100 = 0x100 := rfl
  have h0 := Keeps.refl 0x100 s
  repeat' first
    | with_reducible apply OutKeeps_next
    | with_reducible apply State.act_keeps
    | (intro u hu)
    | (extract_lets +onlyGivenNames x; refine keeps_cut (m := 0x100) (z := s) (x := x) ?_ (fun hx => ?_); rotate_left; generalize x = y at hx ⊢; clear x; rotate_left; subst x)
    | (extract_lets +onlyGivenNames x; first | (subst x) | skip)
    | with_reducible assumption
    | exact mask_sub (by decide) hm
    | with_reducible apply State.setThread_keeps
    | (intro _)

/-! ### Machine/Tic.lean -/

theorem execTicInWrite_keeps (n : Fin 16) (v : BitVec 32) (s : State) : OutKeeps 0x7FFFFFFFFFFFFF s (execTicInWrite n v s) := by
  unfold execTicInWrite
  have hm : 0x7FFFFFFFFFFFFF &&& 0x7FFFFFFFFFFFFF = 0x7FFFFFFFFFFFFF := rfl
  have h0 := Keeps.refl 0x7FFFFFFFFFFFFF s
  repeat' first
    | with_reducible apply OutKeeps_next
    | with_reducible assumption
    | exact mask_sub (by decide) hm
    | with_reducible apply State.hostRow_keeps
    | exact Reg.bit_all _ hm
    | (intro _)

theorem State.timeEdge_keeps {m : Nat} {z s : State} (h0 : Keeps m z s) (hm : 0x800000 &&& m = 0x800000) (p k : Nat) : Keeps m z (State.timeEdge s p k) := by
  unfold State.timeEdge
  repeat' first
    | (extract_lets +onlyGivenNames x; refine keeps_cut (m := m) (z := z) (x := x) ?_ (fun hx => ?_); rotate_left; generalize x = y at hx ⊢; clear x; rotate_left; subst x)
    | (extract_lets +onlyGivenNames x; first | (subst x) | skip)
    | with_reducible assumption
    | exact mask_sub (by decide) hm
    | (with_reducible apply keeps_getD)
    | (intro _)
    | (simp only [keeps_mk]; refine keeps_upd ?_ ?_ ?_ ?_ ?_ ?_ ?_ ?_ ?_ ?_ ?_ ?_ ?_ ?_ ?_ ?_ ?_ ?_ ?_ ?_ ?_ ?_ ?_ ?_ ?_ ?_ ?_ ?_ ?_ ?_ ?_ ?_ ?_ ?_ ?_ ?_ ?_ <;> first | exact same_rfl | exact same_bit (by decide) hm | exact id | exact Fuses.Le.refl _ | exact fun _ => TimeVal.ofCount_ns _ | exact fun h => SMap.wf_filter _ h | exact fun _ => SMap.wf_nil _ _ | skip)

theorem execTicEdge_keeps (ch : Fin 21) (code : BitVec 10) (s : State) : OutKeeps 0x6040009E4082 s (execTicEdge ch code s) := by
  unfold execTicEdge
  have hm : 0x6040009E4082 &&& 0x6040009E4082 = 0x6040009E4082 := rfl
  have h0 := Keeps.refl 0x6040009E4082 s
  repeat' first
    | with_reducible apply OutKeeps_next
    | with_reducible apply State.act_keeps
    | (intro u hu)
    | with_reducible assumption
    | exact mask_sub (by decide) hm
    | with_reducible apply State.timeEdge_keeps
    | with_reducible apply State.userEdge_keeps
    | with_reducible apply State.keeperEdge_keeps
    | (intro _)
    | with_reducible apply keeps_ite

theorem execStreamSampleMissing_keeps (r : Fin 8) (s : State) : OutKeeps 0x100000 s (execStreamSampleMissing r s) := by
  unfold execStreamSampleMissing
  have hm : 0x100000 &&& 0x100000 = 0x100000 := rfl
  have h0 := Keeps.refl 0x100000 s
  repeat' first
    | with_reducible apply OutKeeps_next
    | with_reducible apply State.act_keeps
    | (intro u hu)
    | with_reducible assumption
    | exact mask_sub (by decide) hm
    | with_reducible apply State.streamMissing_keeps
    | (intro _)

theorem State.overfreq_keeps {m : Nat} {z s : State} (h0 : Keeps m z s) (hm : 0x400000080000 &&& m = 0x400000080000) (n : Nat) : Keeps m z (State.overfreq s n) := by
  unfold State.overfreq
  repeat' first
    | (extract_lets +onlyGivenNames x; refine keeps_cut (m := m) (z := z) (x := x) ?_ (fun hx => ?_); rotate_left; generalize x = y at hx ⊢; clear x; rotate_left; subst x)
    | (extract_lets +onlyGivenNames x; first | (subst x) | skip)
    | with_reducible assumption
    | exact mask_sub (by decide) hm
    | with_reducible apply State.setTch_keeps
    | with_reducible apply State.setB_keeps
    | (intro _)

theorem execOverfreqCheck_keeps  (s : State) : OutKeeps 0x400080080000 s (execOverfreqCheck s) := by
  unfold execOverfreqCheck
  have hm : 0x400080080000 &&& 0x400080080000 = 0x400080080000 := rfl
  have h0 := Keeps.refl 0x400080080000 s
  repeat' first
    | with_reducible apply OutKeeps_next
    | with_reducible apply State.once_keeps
    | with_reducible apply State.act_keeps
    | (intro u hu)
    | with_reducible assumption
    | exact mask_sub (by decide) hm
    | with_reducible apply State.overfreq_keeps
    | (with_reducible apply keeps_foldl)
    | (intro _ _ _)
    | (intro _)

theorem execTicOsGo_keeps (n : Fin 16) (v : BitVec 32) (s : State) : OutKeeps 0x7FFFFFFFFFFFFF s (execTicOsGo n v s) := by
  unfold execTicOsGo
  have hm : 0x7FFFFFFFFFFFFF &&& 0x7FFFFFFFFFFFFF = 0x7FFFFFFFFFFFFF := rfl
  have h0 := Keeps.refl 0x7FFFFFFFFFFFFF s
  repeat' first
    | with_reducible apply OutKeeps_next
    | with_reducible assumption
    | exact mask_sub (by decide) hm
    | with_reducible apply State.hostRow_keeps
    | exact Reg.bit_all _ hm
    | (intro _)

theorem execOneshotClose_keeps (n : Fin 16) (s : State) : OutKeeps 0x6040000A4082 s (execOneshotClose n s) := by
  unfold execOneshotClose
  have hm : 0x6040000A4082 &&& 0x6040000A4082 = 0x6040000A4082 := rfl
  have h0 := Keeps.refl 0x6040000A4082 s
  repeat' first
    | with_reducible apply OutKeeps_next
    | with_reducible apply State.act_keeps
    | (intro u hu)
    | with_reducible assumption
    | exact mask_sub (by decide) hm
    | with_reducible apply State.osClose_keeps
    | (intro _)

theorem execTicCalGo_keeps (n : Fin 16) (v : BitVec 32) (s : State) : OutKeeps 0x7FFFFFFFFFFFFF s (execTicCalGo n v s) := by
  unfold execTicCalGo
  have hm : 0x7FFFFFFFFFFFFF &&& 0x7FFFFFFFFFFFFF = 0x7FFFFFFFFFFFFF := rfl
  have h0 := Keeps.refl 0x7FFFFFFFFFFFFF s
  repeat' first
    | with_reducible apply OutKeeps_next
    | with_reducible assumption
    | exact mask_sub (by decide) hm
    | with_reducible apply State.hostRow_keeps
    | exact Reg.bit_all _ hm
    | (intro _)

theorem execCalSchedule_keeps (ch : Fin 21) (s : State) : OutKeeps 0x80000 s (execCalSchedule ch s) := by
  unfold execCalSchedule
  have hm : 0x80000 &&& 0x80000 = 0x80000 := rfl
  have h0 := Keeps.refl 0x80000 s
  repeat' first
    | with_reducible apply OutKeeps_next
    | with_reducible apply State.act_keeps
    | (intro u hu)
    | (extract_lets +onlyGivenNames x; refine keeps_cut (m := 0x80000) (z := s) (x := x) ?_ (fun hx => ?_); rotate_left; generalize x = y at hx ⊢; clear x; rotate_left; subst x)
    | (extract_lets +onlyGivenNames x; first | (subst x) | skip)
    | with_reducible assumption
    | exact mask_sub (by decide) hm
    | with_reducible apply State.calRequest_keeps
    | with_reducible apply State.setTch_keeps
    | (intro _)

theorem execCalStart_keeps (ch : Fin 21) (s : State) : OutKeeps 0x400000080000 s (execCalStart ch s) := by
  unfold execCalStart
  have hm : 0x400000080000 &&& 0x400000080000 = 0x400000080000 := rfl
  have h0 := Keeps.refl 0x400000080000 s
  repeat' first
    | with_reducible apply OutKeeps_next
    | with_reducible apply State.act_keeps
    | (intro u hu)
    | with_reducible assumption
    | exact mask_sub (by decide) hm
    | with_reducible apply State.calStart_keeps
    | (intro _)

theorem execCalComplete_keeps (ch : Fin 21) (issued : Nat) (hits : List Nat) (s : State) : OutKeeps 0x605040090080 s (execCalComplete ch issued hits s) := by
  unfold execCalComplete
  have hm : 0x605040090080 &&& 0x605040090080 = 0x605040090080 := rfl
  have h0 := Keeps.refl 0x605040090080 s
  repeat' first
    | with_reducible apply OutKeeps_next
    | with_reducible apply State.act_keeps
    | (intro u hu)
    | with_reducible assumption
    | exact mask_sub (by decide) hm
    | with_reducible apply State.calComplete_keeps
    | (intro _)

theorem execCalRefusedNoGap_keeps (ch : Fin 21) (s : State) : OutKeeps 0x605000090080 s (execCalRefusedNoGap ch s) := by
  unfold execCalRefusedNoGap
  have hm : 0x605000090080 &&& 0x605000090080 = 0x605000090080 := rfl
  have h0 := Keeps.refl 0x605000090080 s
  repeat' first
    | with_reducible apply OutKeeps_next
    | with_reducible apply State.act_keeps
    | (intro u hu)
    | with_reducible assumption
    | exact mask_sub (by decide) hm
    | with_reducible apply State.calRefuse_keeps
    | (intro _)

theorem State.unbridge_keeps {m : Nat} {z s : State} (h0 : Keeps m z s) (hm : 0x40000 &&& m = 0x40000) : Keeps m z (State.unbridge s) := by
  unfold State.unbridge
  repeat' first
    | (extract_lets +onlyGivenNames x; refine keeps_cut (m := m) (z := z) (x := x) ?_ (fun hx => ?_); rotate_left; generalize x = y at hx ⊢; clear x; rotate_left; subst x)
    | (extract_lets +onlyGivenNames x; first | (subst x) | skip)
    | with_reducible assumption
    | exact mask_sub (by decide) hm
    | (intro _)
    | with_reducible apply keeps_ite
    | (simp only [keeps_mk]; refine keeps_upd ?_ ?_ ?_ ?_ ?_ ?_ ?_ ?_ ?_ ?_ ?_ ?_ ?_ ?_ ?_ ?_ ?_ ?_ ?_ ?_ ?_ ?_ ?_ ?_ ?_ ?_ ?_ ?_ ?_ ?_ ?_ ?_ ?_ ?_ ?_ ?_ ?_ <;> first | exact same_rfl | exact same_bit (by decide) hm | exact id | exact Fuses.Le.refl _ | exact fun _ => TimeVal.ofCount_ns _ | exact fun h => SMap.wf_filter _ h | exact fun _ => SMap.wf_nil _ _ | skip)

theorem State.keeperJudge_keeps {m : Nat} {z s : State} (h0 : Keeps m z s) (hm : 0x1A05000150080 &&& m = 0x1A05000150080) (dev : BitVec 32) : Keeps m z (State.keeperJudge s dev) := by
  unfold State.keeperJudge
  repeat' first
    | (extract_lets +onlyGivenNames x; refine keeps_cut (m := m) (z := z) (x := x) ?_ (fun hx => ?_); rotate_left; generalize x = y at hx ⊢; clear x; rotate_left; subst x)
    | (extract_lets +onlyGivenNames x; first | (subst x) | skip)
    | with_reducible assumption
    | exact mask_sub (by decide) hm
    | with_reducible apply State.unbridge_keeps
    | with_reducible refine State.raiseLow_keeps ?_ ?_ (by dsimp only; decide)
    | with_reducible apply State.raise_keeps
    | with_reducible apply State.journal_keeps
    | with_reducible apply State.setB_keeps
    | (intro _)
    | with_reducible apply keeps_ite
    | with_reducible apply keeps_ite_fst
    | (simp only [keeps_mk]; refine keeps_upd ?_ ?_ ?_ ?_ ?_ ?_ ?_ ?_ ?_ ?_ ?_ ?_ ?_ ?_ ?_ ?_ ?_ ?_ ?_ ?_ ?_ ?_ ?_ ?_ ?_ ?_ ?_ ?_ ?_ ?_ ?_ ?_ ?_ ?_ ?_ ?_ ?_ <;> first | exact same_rfl | exact same_bit (by decide) hm | exact id | exact Fuses.Le.refl _ | exact fun _ => TimeVal.ofCount_ns _ | exact fun h => SMap.wf_filter _ h | exact fun _ => SMap.wf_nil _ _ | skip)
    | (with_reducible apply keeps_pair)

theorem execKeeperCheck_keeps  (s : State) : OutKeeps 0x1E050801D0080 s (execKeeperCheck s) := by
  unfold execKeeperCheck
  have hm : 0x1E050801D0080 &&& 0x1E050801D0080 = 0x1E050801D0080 := rfl
  have h0 := Keeps.refl 0x1E050801D0080 s
  repeat' first
    | with_reducible apply OutKeeps_next
    | with_reducible apply State.once_keeps
    | with_reducible apply State.act_keeps
    | (intro u hu)
    | (extract_lets +onlyGivenNames x; refine keeps_cut (m := 0x1E050801D0080) (z := s) (x := x) ?_ (fun hx => ?_); rotate_left; generalize x = y at hx ⊢; clear x; rotate_left; subst x)
    | (extract_lets +onlyGivenNames x; first | (subst x) | skip)
    | with_reducible assumption
    | exact mask_sub (by decide) hm
    | with_reducible apply State.keeperJudge_keeps
    | with_reducible apply State.wr_keeps
    | (intro _)
    | (simp only [keeps_mk]; refine keeps_upd ?_ ?_ ?_ ?_ ?_ ?_ ?_ ?_ ?_ ?_ ?_ ?_ ?_ ?_ ?_ ?_ ?_ ?_ ?_ ?_ ?_ ?_ ?_ ?_ ?_ ?_ ?_ ?_ ?_ ?_ ?_ ?_ ?_ ?_ ?_ ?_ ?_ <;> first | exact same_rfl | exact same_bit (by decide) hm | exact id | exact Fuses.Le.refl _ | exact fun _ => TimeVal.ofCount_ns _ | exact fun h => SMap.wf_filter _ h | exact fun _ => SMap.wf_nil _ _ | skip)
    | (with_reducible apply keeps_pair)

theorem execTicRingBaseStage_keeps (n : Fin 16) (hi : Bool) (v : BitVec 32) (s : State) : OutKeeps 0x7FFFFFFFFFFFFF s (execTicRingBaseStage n hi v s) := by
  unfold execTicRingBaseStage
  have hm : 0x7FFFFFFFFFFFFF &&& 0x7FFFFFFFFFFFFF = 0x7FFFFFFFFFFFFF := rfl
  have h0 := Keeps.refl 0x7FFFFFFFFFFFFF s
  repeat' first
    | with_reducible apply OutKeeps_next
    | with_reducible assumption
    | exact mask_sub (by decide) hm
    | with_reducible apply State.hostRow_keeps
    | exact Reg.bit_all _ hm
    | (intro _)
    | with_reducible apply keeps_ite

theorem execTicRingCommit_keeps (n : Fin 16) (v : BitVec 32) (s : State) : OutKeeps 0x7FFFFFFFFFFFFF s (execTicRingCommit n v s) := by
  unfold execTicRingCommit
  have hm : 0x7FFFFFFFFFFFFF &&& 0x7FFFFFFFFFFFFF = 0x7FFFFFFFFFFFFF := rfl
  have h0 := Keeps.refl 0x7FFFFFFFFFFFFF s
  repeat' first
    | with_reducible apply OutKeeps_next
    | with_reducible assumption
    | exact mask_sub (by decide) hm
    | with_reducible apply State.hostRow_keeps
    | exact Reg.bit_all _ hm
    | (intro _)

/-! ### Machine/Ens.lean -/

theorem execEnsProcessSecond_keeps  (s : State) : OutKeeps 0x11804000140000 s (execEnsProcessSecond s) := by
  unfold execEnsProcessSecond
  have hm : 0x11804000140000 &&& 0x11804000140000 = 0x11804000140000 := rfl
  have h0 := Keeps.refl 0x11804000140000 s
  repeat' first
    | with_reducible apply OutKeeps_next
    | with_reducible apply State.act_keeps
    | (intro u hu)
    | with_reducible assumption
    | exact mask_sub (by decide) hm
    | with_reducible apply State.svcAuto_keeps
    | with_reducible apply State.processSecond_keeps
    | (intro _)

theorem execEnsRefCfgWrite_keeps (r : Fin 32) (v : BitVec 32) (s : State) : OutKeeps 0x7FFFFFFFFFFFFF s (execEnsRefCfgWrite r v s) := by
  unfold execEnsRefCfgWrite
  have hm : 0x7FFFFFFFFFFFFF &&& 0x7FFFFFFFFFFFFF = 0x7FFFFFFFFFFFFF := rfl
  have h0 := Keeps.refl 0x7FFFFFFFFFFFFF s
  repeat' first
    | with_reducible apply OutKeeps_next
    | with_reducible assumption
    | exact mask_sub (by decide) hm
    | with_reducible apply State.hostRow_keeps
    | exact Reg.bit_all _ hm
    | (intro _)

theorem State.threadWrite_keeps {m : Nat} {z s : State} (h0 : Keeps m z s) (hm : 0x7FFFFFFFFFFFFF &&& m = 0x7FFFFFFFFFFFFF) (th : Nat) (r : Reg) (i : Nat) (v insn : BitVec 32) : Keeps m z (State.threadWrite s th r i v insn) := by
  unfold State.threadWrite
  repeat' first
    | with_reducible assumption
    | exact mask_sub (by decide) hm
    | with_reducible apply State.act_keeps
    | with_reducible apply State.progWrite_keeps
    | with_reducible apply State.flushPosted_keeps
    | exact Reg.bit_all _ hm
    | (intro _)

theorem execEnsNetGo_keeps (j : Fin 16) (th : Fin 512) (v insn : BitVec 32) (s : State) : OutKeeps 0x7FFFFFFFFFFFFF s (execEnsNetGo j th v insn s) := by
  unfold execEnsNetGo
  have hm : 0x7FFFFFFFFFFFFF &&& 0x7FFFFFFFFFFFFF = 0x7FFFFFFFFFFFFF := rfl
  have h0 := Keeps.refl 0x7FFFFFFFFFFFFF s
  repeat' first
    | with_reducible apply OutKeeps_next
    | with_reducible assumption
    | exact mask_sub (by decide) hm
    | with_reducible apply State.threadWrite_keeps
    | exact Reg.bit_all _ hm
    | (intro _)

theorem execRefAcceptCmd_keeps (r : Fin 32) (v : BitVec 32) (s : State) : OutKeeps 0x7FFFFFFFFFFFFF s (execRefAcceptCmd r v s) := by
  unfold execRefAcceptCmd
  have hm : 0x7FFFFFFFFFFFFF &&& 0x7FFFFFFFFFFFFF = 0x7FFFFFFFFFFFFF := rfl
  have h0 := Keeps.refl 0x7FFFFFFFFFFFFF s
  repeat' first
    | with_reducible apply OutKeeps_next
    | with_reducible assumption
    | exact mask_sub (by decide) hm
    | with_reducible apply State.hostRow_keeps
    | exact Reg.bit_all _ hm
    | (intro _)

theorem execWeightWrite_keeps (r : Fin 32) (v : BitVec 32) (by_ : Option (Fin 512 × BitVec 32)) (s : State) : OutKeeps 0x7FFFFFFFFFFFFF s (execWeightWrite r v by_ s) := by
  unfold execWeightWrite
  have hm : 0x7FFFFFFFFFFFFF &&& 0x7FFFFFFFFFFFFF = 0x7FFFFFFFFFFFFF := rfl
  have h0 := Keeps.refl 0x7FFFFFFFFFFFFF s
  repeat' first
    | with_reducible apply OutKeeps_next
    | (extract_lets +onlyGivenNames x; refine keeps_cut (m := 0x7FFFFFFFFFFFFF) (z := s) (x := x) ?_ (fun hx => ?_); rotate_left; generalize x = y at hx ⊢; clear x; rotate_left; subst x)
    | (extract_lets +onlyGivenNames x; first | (subst x) | skip)
    | with_reducible assumption
    | exact mask_sub (by decide) hm
    | with_reducible apply State.threadWrite_keeps
    | with_reducible apply State.hostRow_keeps
    | exact Reg.bit_all _ hm
    | (intro _)
    | (split)
    | (with_reducible apply keeps_pair)

theorem execMeasDeliver_keeps (r : Fin 32) (s : State) : OutKeeps 0x800000100000 s (execMeasDeliver r s) := by
  unfold execMeasDeliver
  have hm : 0x800000100000 &&& 0x800000100000 = 0x800000100000 := rfl
  have h0 := Keeps.refl 0x800000100000 s
  repeat' first
    | with_reducible apply OutKeeps_next
    | with_reducible apply State.act_keeps
    | (intro u hu)
    | with_reducible assumption
    | exact mask_sub (by decide) hm
    | with_reducible apply State.measDeliver_keeps
    | (intro _)

theorem execHoldoverCommit_keeps  (s : State) : OutKeeps 0xC0000000 s (execHoldoverCommit s) := by
  unfold execHoldoverCommit
  have hm : 0xC0000000 &&& 0xC0000000 = 0xC0000000 := rfl
  have h0 := Keeps.refl 0xC0000000 s
  repeat' first
    | with_reducible apply OutKeeps_next
    | with_reducible apply State.once_keeps
    | with_reducible apply State.act_keeps
    | (intro u hu)
    | with_reducible assumption
    | exact mask_sub (by decide) hm
    | with_reducible apply State.holdCommit_keeps
    | (intro _)

theorem execOscSpiTransfer_keeps (i : Fin 2) (s : State) : OutKeeps 0x800000100000 s (execOscSpiTransfer i s) := by
  unfold execOscSpiTransfer
  have hm : 0x800000100000 &&& 0x800000100000 = 0x800000100000 := rfl
  have h0 := Keeps.refl 0x800000100000 s
  repeat' first
    | with_reducible apply OutKeeps_next
    | with_reducible apply State.act_keeps
    | (intro u hu)
    | (extract_lets +onlyGivenNames x; refine keeps_cut (m := 0x800000100000) (z := s) (x := x) ?_ (fun hx => ?_); rotate_left; generalize x = y at hx ⊢; clear x; rotate_left; subst x)
    | (extract_lets +onlyGivenNames x; first | (subst x) | skip)
    | with_reducible assumption
    | exact mask_sub (by decide) hm
    | with_reducible apply State.wr_keeps
    | (intro _)
    | with_reducible apply keeps_ite
    | (simp only [keeps_mk]; refine keeps_upd ?_ ?_ ?_ ?_ ?_ ?_ ?_ ?_ ?_ ?_ ?_ ?_ ?_ ?_ ?_ ?_ ?_ ?_ ?_ ?_ ?_ ?_ ?_ ?_ ?_ ?_ ?_ ?_ ?_ ?_ ?_ ?_ ?_ ?_ ?_ ?_ ?_ <;> first | exact same_rfl | exact same_bit (by decide) hm | exact id | exact Fuses.Le.refl _ | exact fun _ => TimeVal.ofCount_ns _ | exact fun h => SMap.wf_filter _ h | exact fun _ => SMap.wf_nil _ _ | skip)
    | (split)

theorem State.tsnsFail_keeps {m : Nat} {z s : State} (h0 : Keeps m z s) (hm : 0xA05000010080 &&& m = 0xA05000010080) : Keeps m z (State.tsnsFail s) := by
  unfold State.tsnsFail
  repeat' first
    | (extract_lets +onlyGivenNames x; refine keeps_cut (m := m) (z := z) (x := x) ?_ (fun hx => ?_); rotate_left; generalize x = y at hx ⊢; clear x; rotate_left; subst x)
    | (extract_lets +onlyGivenNames x; first | (subst x) | skip)
    | with_reducible assumption
    | exact mask_sub (by decide) hm
    | with_reducible refine State.raiseLow_keeps ?_ ?_ (by dsimp only; decide)
    | with_reducible apply State.raise_keeps
    | with_reducible apply State.setB_keeps
    | with_reducible apply State.setF_keeps
    | (intro _)
    | with_reducible apply keeps_ite
    | with_reducible apply keeps_ite_fst
    | (with_reducible apply keeps_pair)

theorem State.tsnsRead_keeps {m : Nat} {z s : State} (h0 : Keeps m z s) (hm : 0xA05000010080 &&& m = 0xA05000010080) (reading : Option (BitVec 16)) : Keeps m z (State.tsnsRead s reading) := by
  unfold State.tsnsRead
  repeat' first
    | (extract_lets +onlyGivenNames x; refine keeps_cut (m := m) (z := z) (x := x) ?_ (fun hx => ?_); rotate_left; generalize x = y at hx ⊢; clear x; rotate_left; subst x)
    | (extract_lets +onlyGivenNames x; first | (subst x) | skip)
    | with_reducible assumption
    | exact mask_sub (by decide) hm
    | with_reducible apply State.tsnsFail_keeps
    | with_reducible apply State.setB_keeps
    | with_reducible apply State.setF_keeps
    | (intro _)
    | with_reducible apply keeps_ite
    | (split)

theorem execTempSensorRead_keeps (reading : Option (BitVec 16)) (s : State) : OutKeeps 0xA05080010080 s (execTempSensorRead reading s) := by
  unfold execTempSensorRead
  have hm : 0xA05080010080 &&& 0xA05080010080 = 0xA05080010080 := rfl
  have h0 := Keeps.refl 0xA05080010080 s
  repeat' first
    | with_reducible apply OutKeeps_next
    | with_reducible apply State.once_keeps
    | with_reducible apply State.act_keeps
    | (intro u hu)
    | with_reducible assumption
    | exact mask_sub (by decide) hm
    | with_reducible apply State.tsnsRead_keeps
    | (intro _)

theorem execJournalCommit_keeps  (s : State) : OutKeeps 0x1000080040000 s (execJournalCommit s) := by
  unfold execJournalCommit
  have hm : 0x1000080040000 &&& 0x1000080040000 = 0x1000080040000 := rfl
  have h0 := Keeps.refl 0x1000080040000 s
  repeat' first
    | with_reducible apply OutKeeps_next
    | with_reducible apply State.once_keeps
    | with_reducible apply State.act_keeps
    | (intro u hu)
    | with_reducible assumption
    | exact mask_sub (by decide) hm
    | with_reducible apply State.journalCommit_keeps
    | (intro _)

theorem execJnlAckHiStage_keeps (v : BitVec 32) (s : State) : OutKeeps 0x7FFFFFFFFFFFFF s (execJnlAckHiStage v s) := by
  unfold execJnlAckHiStage
  have hm : 0x7FFFFFFFFFFFFF &&& 0x7FFFFFFFFFFFFF = 0x7FFFFFFFFFFFFF := rfl
  have h0 := Keeps.refl 0x7FFFFFFFFFFFFF s
  repeat' first
    | with_reducible apply OutKeeps_next
    | with_reducible assumption
    | exact mask_sub (by decide) hm
    | with_reducible apply State.hostRow_keeps
    | exact Reg.bit_all _ hm
    | (intro _)

theorem execJnlAckCommit_keeps (v : BitVec 32) (s : State) : OutKeeps 0x7FFFFFFFFFFFFF s (execJnlAckCommit v s) := by
  unfold execJnlAckCommit
  have hm : 0x7FFFFFFFFFFFFF &&& 0x7FFFFFFFFFFFFF = 0x7FFFFFFFFFFFFF := rfl
  have h0 := Keeps.refl 0x7FFFFFFFFFFFFF s
  repeat' first
    | with_reducible apply OutKeeps_next
    | with_reducible assumption
    | exact mask_sub (by decide) hm
    | with_reducible apply State.hostRow_keeps
    | exact Reg.bit_all _ hm
    | (intro _)

/-! ### Machine/Syn.lean -/

theorem execFcwStage_keeps (n : Fin 16) (num : Bool) (v : BitVec 32) (s : State) : OutKeeps 0x7FFFFFFFFFFFFF s (execFcwStage n num v s) := by
  unfold execFcwStage
  have hm : 0x7FFFFFFFFFFFFF &&& 0x7FFFFFFFFFFFFF = 0x7FFFFFFFFFFFFF := rfl
  have h0 := Keeps.refl 0x7FFFFFFFFFFFFF s
  repeat' first
    | with_reducible apply OutKeeps_next
    | with_reducible assumption
    | exact mask_sub (by decide) hm
    | with_reducible apply State.hostRow_keeps
    | exact Reg.bit_all _ hm
    | (intro _)
    | with_reducible apply keeps_ite

theorem execFcwCommit_keeps (n : Fin 16) (v : BitVec 32) (s : State) : OutKeeps 0x7FFFFFFFFFFFFF s (execFcwCommit n v s) := by
  unfold execFcwCommit
  have hm : 0x7FFFFFFFFFFFFF &&& 0x7FFFFFFFFFFFFF = 0x7FFFFFFFFFFFFF := rfl
  have h0 := Keeps.refl 0x7FFFFFFFFFFFFF s
  repeat' first
    | with_reducible apply OutKeeps_next
    | with_reducible assumption
    | exact mask_sub (by decide) hm
    | with_reducible apply State.hostRow_keeps
    | exact Reg.bit_all _ hm
    | (intro _)

theorem execSyn0SrcWrite_keeps (freq : Bool) (v : BitVec 32) (s : State) : OutKeeps 0x7FFFFFFFFFFFFF s (execSyn0SrcWrite freq v s) := by
  unfold execSyn0SrcWrite
  have hm : 0x7FFFFFFFFFFFFF &&& 0x7FFFFFFFFFFFFF = 0x7FFFFFFFFFFFFF := rfl
  have h0 := Keeps.refl 0x7FFFFFFFFFFFFF s
  repeat' first
    | with_reducible apply OutKeeps_next
    | with_reducible assumption
    | exact mask_sub (by decide) hm
    | with_reducible apply State.hostRow_keeps
    | exact Reg.bit_all _ hm
    | (intro _)
    | with_reducible apply keeps_ite

theorem execSynSearchCmd_keeps (n : Fin 16) (v : BitVec 32) (s : State) : OutKeeps 0x7FFFFFFFFFFFFF s (execSynSearchCmd n v s) := by
  unfold execSynSearchCmd
  have hm : 0x7FFFFFFFFFFFFF &&& 0x7FFFFFFFFFFFFF = 0x7FFFFFFFFFFFFF := rfl
  have h0 := Keeps.refl 0x7FFFFFFFFFFFFF s
  repeat' first
    | with_reducible apply OutKeeps_next
    | with_reducible assumption
    | exact mask_sub (by decide) hm
    | with_reducible apply State.hostRow_keeps
    | exact Reg.bit_all _ hm
    | (intro _)

theorem execSyn0AcceptCmd_keeps (v : BitVec 32) (s : State) : OutKeeps 0x7FFFFFFFFFFFFF s (execSyn0AcceptCmd v s) := by
  unfold execSyn0AcceptCmd
  have hm : 0x7FFFFFFFFFFFFF &&& 0x7FFFFFFFFFFFFF = 0x7FFFFFFFFFFFFF := rfl
  have h0 := Keeps.refl 0x7FFFFFFFFFFFFF s
  repeat' first
    | with_reducible apply OutKeeps_next
    | with_reducible assumption
    | exact mask_sub (by decide) hm
    | with_reducible apply State.hostRow_keeps
    | exact Reg.bit_all _ hm
    | (intro _)

theorem execLoopHopDone_keeps (n : Fin 16) (s : State) : OutKeeps 0x2004000400000 s (execLoopHopDone n s) := by
  unfold execLoopHopDone
  have hm : 0x2004000400000 &&& 0x2004000400000 = 0x2004000400000 := rfl
  have h0 := Keeps.refl 0x2004000400000 s
  repeat' first
    | with_reducible apply OutKeeps_next
    | with_reducible apply State.act_keeps
    | (intro u hu)
    | with_reducible assumption
    | exact mask_sub (by decide) hm
    | with_reducible apply State.setLoopState_keeps
    | (intro _)

theorem State.searchDone_keeps {m : Nat} {z s : State} (h0 : Keeps m z s) (hm : 0x12207000418080 &&& m = 0x12207000418080) (n : Nat) (found : Option (Fin 64 × Fin 1024)) : Keeps m z (State.searchDone s n found) := by
  unfold State.searchDone
  repeat' first
    | (extract_lets +onlyGivenNames x; refine keeps_cut (m := m) (z := z) (x := x) ?_ (fun hx => ?_); rotate_left; generalize x = y at hx ⊢; clear x; rotate_left; subst x)
    | (extract_lets +onlyGivenNames x; first | (subst x) | skip)
    | with_reducible assumption
    | exact mask_sub (by decide) hm
    | with_reducible apply State.setLoopState_keeps
    | with_reducible refine State.raiseLow_keeps ?_ ?_ (by dsimp only; decide)
    | with_reducible apply State.raise_keeps
    | with_reducible apply State.setB_keeps
    | with_reducible apply State.setF_keeps
    | (intro _)
    | with_reducible apply keeps_ite
    | with_reducible apply keeps_ite_fst
    | (split)
    | (with_reducible apply keeps_pair)

theorem execLoopSearchDone_keeps (n : Fin 16) (found : Option (Fin 64 × Fin 1024)) (s : State) : OutKeeps 0x12207000418080 s (execLoopSearchDone n found s) := by
  unfold execLoopSearchDone
  have hm : 0x12207000418080 &&& 0x12207000418080 = 0x12207000418080 := rfl
  have h0 := Keeps.refl 0x12207000418080 s
  repeat' first
    | with_reducible apply OutKeeps_next
    | with_reducible apply State.act_keeps
    | (intro u hu)
    | with_reducible assumption
    | exact mask_sub (by decide) hm
    | with_reducible apply State.searchDone_keeps
    | (intro _)

theorem execLoopLock_keeps (n : Fin 16) (s : State) : OutKeeps 0x2004060400000 s (execLoopLock n s) := by
  unfold execLoopLock
  have hm : 0x2004060400000 &&& 0x2004060400000 = 0x2004060400000 := rfl
  have h0 := Keeps.refl 0x2004060400000 s
  repeat' first
    | with_reducible apply OutKeeps_next
    | with_reducible apply State.act_keeps
    | (intro u hu)
    | with_reducible assumption
    | exact mask_sub (by decide) hm
    | with_reducible apply State.loopLock_keeps
    | (intro _)

theorem State.loopLost_keeps {m : Nat} {z s : State} (h0 : Keeps m z s) (hm : 0x132070205D8080 &&& m = 0x132070205D8080) (n cause : Nat) : Keeps m z (State.loopLost s n cause) := by
  unfold State.loopLost
  repeat' first
    | (extract_lets +onlyGivenNames x; refine keeps_cut (m := m) (z := z) (x := x) ?_ (fun hx => ?_); rotate_left; generalize x = y at hx ⊢; clear x; rotate_left; subst x)
    | (extract_lets +onlyGivenNames x; first | (subst x) | skip)
    | with_reducible assumption
    | exact mask_sub (by decide) hm
    | with_reducible apply State.coastEntry_keeps
    | (intro _)
    | with_reducible apply keeps_ite
    | (simp only [keeps_mk]; refine keeps_upd ?_ ?_ ?_ ?_ ?_ ?_ ?_ ?_ ?_ ?_ ?_ ?_ ?_ ?_ ?_ ?_ ?_ ?_ ?_ ?_ ?_ ?_ ?_ ?_ ?_ ?_ ?_ ?_ ?_ ?_ ?_ ?_ ?_ ?_ ?_ ?_ ?_ <;> first | exact same_rfl | exact same_bit (by decide) hm | exact id | exact Fuses.Le.refl _ | exact fun _ => TimeVal.ofCount_ns _ | exact fun h => SMap.wf_filter _ h | exact fun _ => SMap.wf_nil _ _ | skip)

theorem execLoopCoastEntry_keeps (n : Fin 16) (cause : Fin 5) (s : State) : OutKeeps 0x132070205D8080 s (execLoopCoastEntry n cause s) := by
  unfold execLoopCoastEntry
  have hm : 0x132070205D8080 &&& 0x132070205D8080 = 0x132070205D8080 := rfl
  have h0 := Keeps.refl 0x132070205D8080 s
  repeat' first
    | with_reducible apply OutKeeps_next
    | with_reducible apply State.act_keeps
    | (intro u hu)
    | with_reducible assumption
    | exact mask_sub (by decide) hm
    | with_reducible apply State.loopLost_keeps
    | (intro _)

theorem execSyn0ReferenceReturn_keeps  (s : State) : OutKeeps 0x132070205D8080 s (execSyn0ReferenceReturn s) := by
  unfold execSyn0ReferenceReturn
  have hm : 0x132070205D8080 &&& 0x132070205D8080 = 0x132070205D8080 := rfl
  have h0 := Keeps.refl 0x132070205D8080 s
  repeat' first
    | with_reducible apply OutKeeps_next
    | with_reducible apply State.act_keeps
    | (intro u hu)
    | with_reducible assumption
    | exact mask_sub (by decide) hm
    | with_reducible apply State.startQual_keeps
    | with_reducible apply State.coastEntry_keeps
    | (intro _)
    | with_reducible apply keeps_ite

theorem execSyn0QualEnd_keeps (dy : Int) (s : State) : OutKeeps 0x3245000550080 s (execSyn0QualEnd dy s) := by
  unfold execSyn0QualEnd
  have hm : 0x3245000550080 &&& 0x3245000550080 = 0x3245000550080 := rfl
  have h0 := Keeps.refl 0x3245000550080 s
  repeat' first
    | with_reducible apply OutKeeps_next
    | with_reducible apply State.act_keeps
    | (intro u hu)
    | with_reducible assumption
    | exact mask_sub (by decide) hm
    | with_reducible apply State.qualEnd_keeps
    | (intro _)

theorem execSyn0SrcFallback_keeps  (s : State) : OutKeeps 0x2040000000000 s (execSyn0SrcFallback s) := by
  unfold execSyn0SrcFallback
  have hm : 0x2040000000000 &&& 0x2040000000000 = 0x2040000000000 := rfl
  have h0 := Keeps.refl 0x2040000000000 s
  repeat' first
    | with_reducible apply OutKeeps_next
    | with_reducible apply State.act_keeps
    | (intro u hu)
    | with_reducible assumption
    | exact mask_sub (by decide) hm
    | with_reducible apply State.syn0Fcw_keeps
    | with_reducible apply State.setB_keeps
    | (intro _)

theorem execSynPhaseWrite_keeps (n : Fin 16) (v : BitVec 32) (s : State) : OutKeeps 0x7FFFFFFFFFFFFF s (execSynPhaseWrite n v s) := by
  unfold execSynPhaseWrite
  have hm : 0x7FFFFFFFFFFFFF &&& 0x7FFFFFFFFFFFFF = 0x7FFFFFFFFFFFFF := rfl
  have h0 := Keeps.refl 0x7FFFFFFFFFFFFF s
  repeat' first
    | with_reducible apply OutKeeps_next
    | with_reducible assumption
    | exact mask_sub (by decide) hm
    | with_reducible apply State.hostRow_keeps
    | exact Reg.bit_all _ hm
    | (intro _)

theorem execDivHiStage_keeps (k : Fin 24) (v : BitVec 32) (s : State) : OutKeeps 0x7FFFFFFFFFFFFF s (execDivHiStage k v s) := by
  unfold execDivHiStage
  have hm : 0x7FFFFFFFFFFFFF &&& 0x7FFFFFFFFFFFFF = 0x7FFFFFFFFFFFFF := rfl
  have h0 := Keeps.refl 0x7FFFFFFFFFFFFF s
  repeat' first
    | with_reducible apply OutKeeps_next
    | with_reducible assumption
    | exact mask_sub (by decide) hm
    | with_reducible apply State.hostRow_keeps
    | exact Reg.bit_all _ hm
    | (intro _)

theorem execDivCommit_keeps (k : Fin 24) (v : BitVec 32) (s : State) : OutKeeps 0x7FFFFFFFFFFFFF s (execDivCommit k v s) := by
  unfold execDivCommit
  have hm : 0x7FFFFFFFFFFFFF &&& 0x7FFFFFFFFFFFFF = 0x7FFFFFFFFFFFFF := rfl
  have h0 := Keeps.refl 0x7FFFFFFFFFFFFF s
  repeat' first
    | with_reducible apply OutKeeps_next
    | with_reducible assumption
    | exact mask_sub (by decide) hm
    | with_reducible apply State.hostRow_keeps
    | exact Reg.bit_all _ hm
    | (intro _)

theorem execDividerAlignment_keeps  (s : State) : OutKeeps 0x2000000400000 s (execDividerAlignment s) := by
  unfold execDividerAlignment
  have hm : 0x2000000400000 &&& 0x2000000400000 = 0x2000000400000 := rfl
  have h0 := Keeps.refl 0x2000000400000 s
  repeat' first
    | with_reducible apply OutKeeps_next
    | with_reducible apply State.act_keeps
    | (intro u hu)
    | with_reducible assumption
    | exact mask_sub (by decide) hm
    | with_reducible apply State.alignDue_keeps
    | (intro _)

theorem execClkoutEnWrite_keeps (k : Fin 24) (v : BitVec 32) (s : State) : OutKeeps 0x7FFFFFFFFFFFFF s (execClkoutEnWrite k v s) := by
  unfold execClkoutEnWrite
  have hm : 0x7FFFFFFFFFFFFF &&& 0x7FFFFFFFFFFFFF = 0x7FFFFFFFFFFFFF := rfl
  have h0 := Keeps.refl 0x7FFFFFFFFFFFFF s
  repeat' first
    | with_reducible apply OutKeeps_next
    | with_reducible assumption
    | exact mask_sub (by decide) hm
    | with_reducible apply State.hostRow_keeps
    | exact Reg.bit_all _ hm
    | (intro _)

theorem execSyncInEdge_keeps (falling : Bool) (s : State) : OutKeeps 0x2000000400000 s (execSyncInEdge falling s) := by
  unfold execSyncInEdge
  have hm : 0x2000000400000 &&& 0x2000000400000 = 0x2000000400000 := rfl
  have h0 := Keeps.refl 0x2000000400000 s
  repeat' first
    | with_reducible apply OutKeeps_next
    | with_reducible apply State.act_keeps
    | (intro u hu)
    | with_reducible assumption
    | exact mask_sub (by decide) hm
    | with_reducible apply State.syncArm_keeps
    | (intro _)

theorem execPpsEdge_keeps (j : Fin 4) (s : State) : OutKeeps 0x2000000400000 s (execPpsEdge j s) := by
  unfold execPpsEdge
  have hm : 0x2000000400000 &&& 0x2000000400000 = 0x2000000400000 := rfl
  have h0 := Keeps.refl 0x2000000400000 s
  repeat' first
    | with_reducible apply OutKeeps_next
    | with_reducible apply State.act_keeps
    | (intro u hu)
    | with_reducible assumption
    | exact mask_sub (by decide) hm
    | with_reducible apply State.ppsEdge_keeps
    | (intro _)

theorem execPpsCfgTakeEffect_keeps (j : Fin 4) (s : State) : OutKeeps 0x2000000400000 s (execPpsCfgTakeEffect j s) := by
  unfold execPpsCfgTakeEffect
  have hm : 0x2000000400000 &&& 0x2000000400000 = 0x2000000400000 := rfl
  have h0 := Keeps.refl 0x2000000400000 s
  repeat' first
    | with_reducible apply OutKeeps_next
    | with_reducible apply State.act_keeps
    | (intro u hu)
    | with_reducible assumption
    | exact mask_sub (by decide) hm
    | with_reducible apply State.ppsTake_keeps
    | (intro _)

theorem execPpsCompWrite_keeps (j : Fin 4) (v : BitVec 32) (s : State) : OutKeeps 0x7FFFFFFFFFFFFF s (execPpsCompWrite j v s) := by
  unfold execPpsCompWrite
  have hm : 0x7FFFFFFFFFFFFF &&& 0x7FFFFFFFFFFFFF = 0x7FFFFFFFFFFFFF := rfl
  have h0 := Keeps.refl 0x7FFFFFFFFFFFFF s
  repeat' first
    | with_reducible apply OutKeeps_next
    | with_reducible assumption
    | exact mask_sub (by decide) hm
    | with_reducible apply State.hostRow_keeps
    | exact Reg.bit_all _ hm
    | (intro _)

theorem execTodMessage_keeps (k : Fin 2) (s : State) : OutKeeps 0x400000 s (execTodMessage k s) := by
  unfold execTodMessage
  have hm : 0x400000 &&& 0x400000 = 0x400000 := rfl
  have h0 := Keeps.refl 0x400000 s
  repeat' first
    | with_reducible apply OutKeeps_next
    | with_reducible apply State.act_keeps
    | (intro u hu)
    | with_reducible assumption
    | exact mask_sub (by decide) hm
    | with_reducible apply State.todSend_keeps
    | (intro _)

/-! ### Machine/Gns.lean -/

theorem execGnsSpCfgWrite_keeps (p : Fin 4) (v : BitVec 32) (s : State) : OutKeeps 0x7FFFFFFFFFFFFF s (execGnsSpCfgWrite p v s) := by
  unfold execGnsSpCfgWrite
  have hm : 0x7FFFFFFFFFFFFF &&& 0x7FFFFFFFFFFFFF = 0x7FFFFFFFFFFFFF := rfl
  have h0 := Keeps.refl 0x7FFFFFFFFFFFFF s
  repeat' first
    | with_reducible apply OutKeeps_next
    | with_reducible assumption
    | exact mask_sub (by decide) hm
    | with_reducible apply State.hostRow_keeps
    | exact Reg.bit_all _ hm
    | (intro _)

theorem execSpRateCheck_keeps (p : Fin 4) (hz : Nat) (s : State) : OutKeeps 0x4205080110080 s (execSpRateCheck p hz s) := by
  unfold execSpRateCheck
  have hm : 0x4205080110080 &&& 0x4205080110080 = 0x4205080110080 := rfl
  have h0 := Keeps.refl 0x4205080110080 s
  repeat' first
    | with_reducible apply OutKeeps_next
    | with_reducible apply State.once_keeps
    | with_reducible apply State.act_keeps
    | (intro u hu)
    | with_reducible assumption
    | exact mask_sub (by decide) hm
    | with_reducible apply State.rateCheck_keeps
    | (intro _)

theorem execSpPowerCheck_keeps (p : Fin 4) (pwr : BitVec 16) (s : State) : OutKeeps 0x4205080910080 s (execSpPowerCheck p pwr s) := by
  unfold execSpPowerCheck
  have hm : 0x4205080910080 &&& 0x4205080910080 = 0x4205080910080 := rfl
  have h0 := Keeps.refl 0x4205080910080 s
  repeat' first
    | with_reducible apply OutKeeps_next
    | with_reducible apply State.once_keeps
    | with_reducible apply State.act_keeps
    | (intro u hu)
    | with_reducible assumption
    | exact mask_sub (by decide) hm
    | with_reducible apply State.powerCheck_keeps
    | (intro _)

theorem execGnsCtlGo_keeps (v : BitVec 32) (s : State) : OutKeeps 0x7FFFFFFFFFFFFF s (execGnsCtlGo v s) := by
  unfold execGnsCtlGo
  have hm : 0x7FFFFFFFFFFFFF &&& 0x7FFFFFFFFFFFFF = 0x7FFFFFFFFFFFFF := rfl
  have h0 := Keeps.refl 0x7FFFFFFFFFFFFF s
  repeat' first
    | with_reducible apply OutKeeps_next
    | with_reducible assumption
    | exact mask_sub (by decide) hm
    | with_reducible apply State.hostRow_keeps
    | exact Reg.bit_all _ hm
    | (intro _)

theorem execGnsCtlDone_keeps (miso : BitVec 32) (s : State) : OutKeeps 0x4000000800000 s (execGnsCtlDone miso s) := by
  unfold execGnsCtlDone
  have hm : 0x4000000800000 &&& 0x4000000800000 = 0x4000000800000 := rfl
  have h0 := Keeps.refl 0x4000000800000 s
  repeat' first
    | with_reducible apply OutKeeps_next
    | with_reducible apply State.act_keeps
    | (intro u hu)
    | with_reducible assumption
    | exact mask_sub (by decide) hm
    | with_reducible apply State.ctlDone_keeps
    | (intro _)

theorem execAcqJobDone_keeps (found : Option (Nat × Nat)) (s : State) : OutKeeps 0x4000000800000 s (execAcqJobDone found s) := by
  unfold execAcqJobDone
  have hm : 0x4000000800000 &&& 0x4000000800000 = 0x4000000800000 := rfl
  have h0 := Keeps.refl 0x4000000800000 s
  repeat' first
    | with_reducible apply OutKeeps_next
    | with_reducible apply State.act_keeps
    | (intro u hu)
    | (extract_lets +onlyGivenNames x; refine keeps_cut (m := 0x4000000800000) (z := s) (x := x) ?_ (fun hx => ?_); rotate_left; generalize x = y at hx ⊢; clear x; rotate_left; subst x)
    | (extract_lets +onlyGivenNames x; first | (subst x) | skip)
    | with_reducible assumption
    | exact mask_sub (by decide) hm
    | with_reducible apply State.acqDone_keeps
    | (intro _)
    | with_reducible apply keeps_ite
    | (split)

theorem execAcqAbort_keeps (v : BitVec 32) (s : State) : OutKeeps 0x7FFFFFFFFFFFFF s (execAcqAbort v s) := by
  unfold execAcqAbort
  have hm : 0x7FFFFFFFFFFFFF &&& 0x7FFFFFFFFFFFFF = 0x7FFFFFFFFFFFFF := rfl
  have h0 := Keeps.refl 0x7FFFFFFFFFFFFF s
  repeat' first
    | with_reducible apply OutKeeps_next
    | with_reducible assumption
    | exact mask_sub (by decide) hm
    | with_reducible apply State.hostRow_keeps
    | exact Reg.bit_all _ hm
    | (intro _)

theorem execEpochLatch_keeps (obs : List GnsObs) (s : State) : OutKeeps 0x4205040910080 s (execEpochLatch obs s) := by
  unfold execEpochLatch
  have hm : 0x4205040910080 &&& 0x4205040910080 = 0x4205040910080 := rfl
  have h0 := Keeps.refl 0x4205040910080 s
  repeat' first
    | with_reducible apply OutKeeps_next
    | with_reducible apply State.act_keeps
    | (intro u hu)
    | with_reducible assumption
    | exact mask_sub (by decide) hm
    | with_reducible apply State.epoch_keeps
    | (intro _)

theorem execAntFltChange_keeps (a : Fin 4) (level : Bool) (s : State) : OutKeeps 0x4205000910080 s (execAntFltChange a level s) := by
  unfold execAntFltChange
  have hm : 0x4205000910080 &&& 0x4205000910080 = 0x4205000910080 := rfl
  have h0 := Keeps.refl 0x4205000910080 s
  repeat' first
    | with_reducible apply OutKeeps_next
    | with_reducible apply State.act_keeps
    | (intro u hu)
    | with_reducible assumption
    | exact mask_sub (by decide) hm
    | with_reducible apply State.antFlt_keeps
    | (intro _)

theorem execAntPosWrite_keeps (a : Fin 4) (which : Fin 4) (v : BitVec 32) (s : State) : OutKeeps 0x7FFFFFFFFFFFFF s (execAntPosWrite a which v s) := by
  unfold execAntPosWrite
  have hm : 0x7FFFFFFFFFFFFF &&& 0x7FFFFFFFFFFFFF = 0x7FFFFFFFFFFFFF := rfl
  have h0 := Keeps.refl 0x7FFFFFFFFFFFFF s
  repeat' first
    | with_reducible apply OutKeeps_next
    | with_reducible assumption
    | exact mask_sub (by decide) hm
    | with_reducible apply State.hostRow_keeps
    | exact Reg.bit_all _ hm
    | (intro _)

theorem execAntSigWrite_keeps (a : Fin 4) (v : BitVec 32) (s : State) : OutKeeps 0x7FFFFFFFFFFFFF s (execAntSigWrite a v s) := by
  unfold execAntSigWrite
  have hm : 0x7FFFFFFFFFFFFF &&& 0x7FFFFFFFFFFFFF = 0x7FFFFFFFFFFFFF := rfl
  have h0 := Keeps.refl 0x7FFFFFFFFFFFFF s
  repeat' first
    | with_reducible apply OutKeeps_next
    | with_reducible assumption
    | exact mask_sub (by decide) hm
    | with_reducible apply State.hostRow_keeps
    | exact Reg.bit_all _ hm
    | (intro _)

theorem execTimeFloorHiStage_keeps (v : BitVec 32) (s : State) : OutKeeps 0x7FFFFFFFFFFFFF s (execTimeFloorHiStage v s) := by
  unfold execTimeFloorHiStage
  have hm : 0x7FFFFFFFFFFFFF &&& 0x7FFFFFFFFFFFFF = 0x7FFFFFFFFFFFFF := rfl
  have h0 := Keeps.refl 0x7FFFFFFFFFFFFF s
  repeat' first
    | with_reducible apply OutKeeps_next
    | with_reducible assumption
    | exact mask_sub (by decide) hm
    | with_reducible apply State.hostRow_keeps
    | exact Reg.bit_all _ hm
    | (intro _)

theorem execTimeFloorCommit_keeps (v : BitVec 32) (s : State) : OutKeeps 0x7FFFFFFFFFFFFF s (execTimeFloorCommit v s) := by
  unfold execTimeFloorCommit
  have hm : 0x7FFFFFFFFFFFFF &&& 0x7FFFFFFFFFFFFF = 0x7FFFFFFFFFFFFF := rfl
  have h0 := Keeps.refl 0x7FFFFFFFFFFFFF s
  repeat' first
    | with_reducible apply OutKeeps_next
    | with_reducible assumption
    | exact mask_sub (by decide) hm
    | with_reducible apply State.hostRow_keeps
    | exact Reg.bit_all _ hm
    | (intro _)

theorem execTimeFloorRaise_keeps  (s : State) : OutKeeps 0x4000040800000 s (execTimeFloorRaise s) := by
  unfold execTimeFloorRaise
  have hm : 0x4000040800000 &&& 0x4000040800000 = 0x4000040800000 := rfl
  have h0 := Keeps.refl 0x4000040800000 s
  repeat' first
    | with_reducible apply OutKeeps_next
    | with_reducible apply State.act_keeps
    | (intro u hu)
    | with_reducible assumption
    | exact mask_sub (by decide) hm
    | with_reducible apply State.floorRaise_keeps
    | (intro _)

theorem execGnsSnapGo_keeps (v : BitVec 32) (s : State) : OutKeeps 0x7FFFFFFFFFFFFF s (execGnsSnapGo v s) := by
  unfold execGnsSnapGo
  have hm : 0x7FFFFFFFFFFFFF &&& 0x7FFFFFFFFFFFFF = 0x7FFFFFFFFFFFFF := rfl
  have h0 := Keeps.refl 0x7FFFFFFFFFFFFF s
  repeat' first
    | with_reducible apply OutKeeps_next
    | with_reducible assumption
    | exact mask_sub (by decide) hm
    | with_reducible apply State.hostRow_keeps
    | exact Reg.bit_all _ hm
    | (intro _)

theorem execSnapshotStart_keeps  (s : State) : OutKeeps 0x4004000800000 s (execSnapshotStart s) := by
  unfold execSnapshotStart
  have hm : 0x4004000800000 &&& 0x4004000800000 = 0x4004000800000 := rfl
  have h0 := Keeps.refl 0x4004000800000 s
  repeat' first
    | with_reducible apply OutKeeps_next
    | with_reducible apply State.act_keeps
    | (intro u hu)
    | with_reducible assumption
    | exact mask_sub (by decide) hm
    | with_reducible apply State.snapStart_keeps
    | (intro _)

theorem execSnapshotCaptureEnd_keeps (data : List Byte) (s : State) : OutKeeps 0x4004000800000 s (execSnapshotCaptureEnd data s) := by
  unfold execSnapshotCaptureEnd
  have hm : 0x4004000800000 &&& 0x4004000800000 = 0x4004000800000 := rfl
  have h0 := Keeps.refl 0x4004000800000 s
  repeat' first
    | with_reducible apply OutKeeps_next
    | with_reducible apply State.act_keeps
    | (intro u hu)
    | with_reducible assumption
    | exact mask_sub (by decide) hm
    | with_reducible apply State.captureEnd_keeps
    | (intro _)

theorem execAuditSchedule_keeps  (s : State) : OutKeeps 0x4004000800000 s (execAuditSchedule s) := by
  unfold execAuditSchedule
  have hm : 0x4004000800000 &&& 0x4004000800000 = 0x4004000800000 := rfl
  have h0 := Keeps.refl 0x4004000800000 s
  repeat' first
    | with_reducible apply OutKeeps_next
    | with_reducible apply State.act_keeps
    | (intro u hu)
    | with_reducible assumption
    | exact mask_sub (by decide) hm
    | with_reducible apply State.auditSchedule_keeps
    | (intro _)

theorem execAuditComplete_keeps (ds : List AuditDelta) (s : State) : OutKeeps 0x4205000910080 s (execAuditComplete ds s) := by
  unfold execAuditComplete
  have hm : 0x4205000910080 &&& 0x4205000910080 = 0x4205000910080 := rfl
  have h0 := Keeps.refl 0x4205000910080 s
  repeat' first
    | with_reducible apply OutKeeps_next
    | with_reducible apply State.act_keeps
    | (intro u hu)
    | with_reducible assumption
    | exact mask_sub (by decide) hm
    | with_reducible apply State.auditDone_keeps
    | (intro _)

theorem execEphemerisCommit_keeps  (s : State) : OutKeeps 0x40800000 s (execEphemerisCommit s) := by
  unfold execEphemerisCommit
  have hm : 0x40800000 &&& 0x40800000 = 0x40800000 := rfl
  have h0 := Keeps.refl 0x40800000 s
  repeat' first
    | with_reducible apply OutKeeps_next
    | with_reducible apply State.act_keeps
    | (intro u hu)
    | with_reducible assumption
    | exact mask_sub (by decide) hm
    | with_reducible apply State.ephCommit_keeps
    | (intro _)

/-! ### Machine/Prt.lean -/

theorem execPrtCfgWrite_keeps (n : Fin 64) (v : BitVec 32) (s : State) : OutKeeps 0x7FFFFFFFFFFFFF s (execPrtCfgWrite n v s) := by
  unfold execPrtCfgWrite
  have hm : 0x7FFFFFFFFFFFFF &&& 0x7FFFFFFFFFFFFF = 0x7FFFFFFFFFFFFF := rfl
  have h0 := Keeps.refl 0x7FFFFFFFFFFFFF s
  repeat' first
    | with_reducible apply OutKeeps_next
    | with_reducible assumption
    | exact mask_sub (by decide) hm
    | with_reducible apply State.hostRow_keeps
    | exact Reg.bit_all _ hm
    | (intro _)

theorem execPrtCalGo_keeps (n : Fin 64) (v : BitVec 32) (s : State) : OutKeeps 0x7FFFFFFFFFFFFF s (execPrtCalGo n v s) := by
  unfold execPrtCalGo
  have hm : 0x7FFFFFFFFFFFFF &&& 0x7FFFFFFFFFFFFF = 0x7FFFFFFFFFFFFF := rfl
  have h0 := Keeps.refl 0x7FFFFFFFFFFFFF s
  repeat' first
    | with_reducible apply OutKeeps_next
    | with_reducible assumption
    | exact mask_sub (by decide) hm
    | with_reducible apply State.hostRow_keeps
    | exact Reg.bit_all _ hm
    | (intro _)

theorem execPortCalDone_keeps (n : Fin 64) (span tx rx : Nat) (s : State) : OutKeeps 0x8205041010080 s (execPortCalDone n span tx rx s) := by
  unfold execPortCalDone
  have hm : 0x8205041010080 &&& 0x8205041010080 = 0x8205041010080 := rfl
  have h0 := Keeps.refl 0x8205041010080 s
  repeat' first
    | with_reducible apply OutKeeps_next
    | with_reducible apply State.act_keeps
    | (intro u hu)
    | with_reducible assumption
    | exact mask_sub (by decide) hm
    | with_reducible apply State.portCalEnd_keeps
    | (intro _)

theorem execLinkUp_keeps (n : Fin 64) (phase : Nat) (rate : BitVec 32) (s : State) : OutKeeps 0x8004001000000 s (execLinkUp n phase rate s) := by
  unfold execLinkUp
  have hm : 0x8004001000000 &&& 0x8004001000000 = 0x8004001000000 := rfl
  have h0 := Keeps.refl 0x8004001000000 s
  repeat' first
    | with_reducible apply OutKeeps_next
    | with_reducible apply State.act_keeps
    | (intro u hu)
    | with_reducible assumption
    | exact mask_sub (by decide) hm
    | with_reducible apply State.portUp_keeps
    | (intro _)

theorem execLinkDown_keeps (n : Fin 64) (s : State) : OutKeeps 0x48205109014D80 s (execLinkDown n s) := by
  unfold execLinkDown
  have hm : 0x48205109014D80 &&& 0x48205109014D80 = 0x48205109014D80 := rfl
  have h0 := Keeps.refl 0x48205109014D80 s
  repeat' first
    | with_reducible apply OutKeeps_next
    | with_reducible apply State.act_keeps
    | (intro u hu)
    | with_reducible assumption
    | exact mask_sub (by decide) hm
    | with_reducible apply State.portDown_keeps
    | with_reducible refine State.raiseLow_keeps ?_ ?_ (by dsimp only; decide)
    | with_reducible apply State.raise_keeps
    | (intro _)
    | (with_reducible apply keeps_pair)

theorem execFrameReceive_keeps (n : Fin 64) (data : List Byte) (codeErr : Bool) (at_ trx : TimeVal) (s : State) : OutKeeps 0x68204109024582 s (execFrameReceive n data codeErr at_ trx s) := by
  unfold execFrameReceive
  have hm : 0x68204109024582 &&& 0x68204109024582 = 0x68204109024582 := rfl
  have h0 := Keeps.refl 0x68204109024582 s
  repeat' first
    | with_reducible apply OutKeeps_next
    | with_reducible apply State.act_keeps
    | (intro u hu)
    | with_reducible assumption
    | exact mask_sub (by decide) hm
    | with_reducible apply State.frameIn_keeps
    | (intro _)

theorem execFrameToPool_keeps (n : Fin 64) (s : State) : OutKeeps 0x68204109024582 s (execFrameToPool n s) := by
  unfold execFrameToPool
  have hm : 0x68204109024582 &&& 0x68204109024582 = 0x68204109024582 := rfl
  have h0 := Keeps.refl 0x68204109024582 s
  repeat' first
    | with_reducible apply OutKeeps_next
    | with_reducible apply State.act_keeps
    | (intro u hu)
    | with_reducible assumption
    | exact mask_sub (by decide) hm
    | with_reducible apply State.rxDrain_keeps
    | (intro _)

theorem execPauseTakeEffect_keeps (n : Fin 64) (s : State) : OutKeeps 0x8000001000000 s (execPauseTakeEffect n s) := by
  unfold execPauseTakeEffect
  have hm : 0x8000001000000 &&& 0x8000001000000 = 0x8000001000000 := rfl
  have h0 := Keeps.refl 0x8000001000000 s
  repeat' first
    | with_reducible apply OutKeeps_next
    | with_reducible apply State.act_keeps
    | (intro u hu)
    | with_reducible assumption
    | exact mask_sub (by decide) hm
    | with_reducible apply State.pauseTake_keeps
    | (intro _)

theorem execPauseEnd_keeps (n : Fin 64) (s : State) : OutKeeps 0x8000001000000 s (execPauseEnd n s) := by
  unfold execPauseEnd
  have hm : 0x8000001000000 &&& 0x8000001000000 = 0x8000001000000 := rfl
  have h0 := Keeps.refl 0x8000001000000 s
  repeat' first
    | with_reducible apply OutKeeps_next
    | with_reducible apply State.act_keeps
    | (intro u hu)
    | with_reducible assumption
    | exact mask_sub (by decide) hm
    | with_reducible apply State.pauseEnd_keeps
    | (intro _)

theorem execTxFrameStart_keeps (n : Fin 64) (s : State) : OutKeeps 0x48204109004180 s (execTxFrameStart n s) := by
  unfold execTxFrameStart
  have hm : 0x48204109004180 &&& 0x48204109004180 = 0x48204109004180 := rfl
  have h0 := Keeps.refl 0x48204109004180 s
  repeat' first
    | with_reducible apply OutKeeps_next
    | with_reducible apply State.act_keeps
    | (intro u hu)
    | with_reducible assumption
    | exact mask_sub (by decide) hm
    | with_reducible apply State.txStart_keeps
    | (intro _)

theorem execTxFrameEnd_keeps (n : Fin 64) (s : State) : OutKeeps 0x48204109004580 s (execTxFrameEnd n s) := by
  unfold execTxFrameEnd
  have hm : 0x48204109004580 &&& 0x48204109004580 = 0x48204109004580 := rfl
  have h0 := Keeps.refl 0x48204109004580 s
  repeat' first
    | with_reducible apply OutKeeps_next
    | with_reducible apply State.act_keeps
    | (intro u hu)
    | with_reducible assumption
    | exact mask_sub (by decide) hm
    | with_reducible apply State.txEnd_keeps
    | (intro _)

theorem execLaunchDecide_keeps (n : Fin 64) (s : State) : OutKeeps 0x48204109004D80 s (execLaunchDecide n s) := by
  unfold execLaunchDecide
  have hm : 0x48204109004D80 &&& 0x48204109004D80 = 0x48204109004D80 := rfl
  have h0 := Keeps.refl 0x48204109004D80 s
  repeat' first
    | with_reducible apply OutKeeps_next
    | with_reducible apply State.act_keeps
    | (intro u hu)
    | with_reducible assumption
    | exact mask_sub (by decide) hm
    | with_reducible apply State.launchDecide_keeps
    | (intro _)

/-! ### Machine/Svc.lean -/

theorem execSvcOpen_keeps (v : BitVec 32) (s : State) : OutKeeps 0x7FFFFFFFFFFFFF s (execSvcOpen v s) := by
  unfold execSvcOpen
  have hm : 0x7FFFFFFFFFFFFF &&& 0x7FFFFFFFFFFFFF = 0x7FFFFFFFFFFFFF := rfl
  have h0 := Keeps.refl 0x7FFFFFFFFFFFFF s
  repeat' first
    | with_reducible apply OutKeeps_next
    | with_reducible assumption
    | exact mask_sub (by decide) hm
    | with_reducible apply State.hostRow_keeps
    | exact Reg.bit_all _ hm
    | (intro _)

theorem execSvcClose_keeps (v : BitVec 32) (s : State) : OutKeeps 0x7FFFFFFFFFFFFF s (execSvcClose v s) := by
  unfold execSvcClose
  have hm : 0x7FFFFFFFFFFFFF &&& 0x7FFFFFFFFFFFFF = 0x7FFFFFFFFFFFFF := rfl
  have h0 := Keeps.refl 0x7FFFFFFFFFFFFF s
  repeat' first
    | with_reducible apply OutKeeps_next
    | with_reducible assumption
    | exact mask_sub (by decide) hm
    | with_reducible apply State.hostRow_keeps
    | exact Reg.bit_all _ hm
    | (intro _)

theorem execSvcTallyWrite_keeps (th : Fin 512) (v insn : BitVec 32) (s : State) : OutKeeps 0x7FFFFFFFFFFFFF s (execSvcTallyWrite th v insn s) := by
  unfold execSvcTallyWrite
  have hm : 0x7FFFFFFFFFFFFF &&& 0x7FFFFFFFFFFFFF = 0x7FFFFFFFFFFFFF := rfl
  have h0 := Keeps.refl 0x7FFFFFFFFFFFFF s
  repeat' first
    | with_reducible apply OutKeeps_next
    | with_reducible assumption
    | exact mask_sub (by decide) hm
    | with_reducible apply State.threadWrite_keeps
    | exact Reg.bit_all _ hm
    | (intro _)

theorem execSignalingRequest_keeps (n : Fin 64) (h : BitVec 32) (s : State) : OutKeeps 0x7821511D036582 s (execSignalingRequest n h s) := by
  unfold execSignalingRequest
  have hm : 0x7821511D036582 &&& 0x7821511D036582 = 0x7821511D036582 := rfl
  have h0 := Keeps.refl 0x7821511D036582 s
  repeat' first
    | with_reducible apply OutKeeps_next
    | with_reducible apply State.act_keeps
    | (intro u hu)
    | with_reducible assumption
    | exact mask_sub (by decide) hm
    | with_reducible apply State.signalServe_keeps
    | (intro _)

theorem execShedLevelLower_keeps  (s : State) : OutKeeps 0x10000010000000 s (execShedLevelLower s) := by
  unfold execShedLevelLower
  have hm : 0x10000010000000 &&& 0x10000010000000 = 0x10000010000000 := rfl
  have h0 := Keeps.refl 0x10000010000000 s
  repeat' first
    | with_reducible apply OutKeeps_next
    | with_reducible assumption
    | exact mask_sub (by decide) hm
    | with_reducible apply State.shedLower_keeps
    | (intro _)

theorem execGrantCancelSpread_keeps  (s : State) : OutKeeps 0x6821511D036582 s (execGrantCancelSpread s) := by
  unfold execGrantCancelSpread
  have hm : 0x6821511D036582 &&& 0x6821511D036582 = 0x6821511D036582 := rfl
  have h0 := Keeps.refl 0x6821511D036582 s
  repeat' first
    | with_reducible apply OutKeeps_next
    | with_reducible apply State.act_keeps
    | (intro u hu)
    | with_reducible assumption
    | exact mask_sub (by decide) hm
    | with_reducible apply State.cancelSpread_keeps
    | (intro _)

theorem execClientRecordFree_keeps (i : BitVec 22) (s : State) : OutKeeps 0x14020002 s (execClientRecordFree i s) := by
  unfold execClientRecordFree
  have hm : 0x14020002 &&& 0x14020002 = 0x14020002 := rfl
  have h0 := Keeps.refl 0x14020002 s
  repeat' first
    | with_reducible apply OutKeeps_next
    | with_reducible assumption
    | exact mask_sub (by decide) hm
    | with_reducible apply State.recordFree_keeps
    | (intro _)

theorem execDelayReqServe_keeps (n : Fin 64) (h : BitVec 32) (s : State) : OutKeeps 0x7821511D036582 s (execDelayReqServe n h s) := by
  unfold execDelayReqServe
  have hm : 0x7821511D036582 &&& 0x7821511D036582 = 0x7821511D036582 := rfl
  have h0 := Keeps.refl 0x7821511D036582 s
  repeat' first
    | with_reducible apply OutKeeps_next
    | with_reducible apply State.act_keeps
    | (intro u hu)
    | with_reducible assumption
    | exact mask_sub (by decide) hm
    | with_reducible apply State.delayServe_keeps
    | (intro _)

theorem execNtpRequest_keeps (n : Fin 64) (h : BitVec 32) (s : State) : OutKeeps 0x7821531D036D82 s (execNtpRequest n h s) := by
  unfold execNtpRequest
  have hm : 0x7821531D036D82 &&& 0x7821531D036D82 = 0x7821531D036D82 := rfl
  have h0 := Keeps.refl 0x7821531D036D82 s
  repeat' first
    | with_reducible apply OutKeeps_next
    | with_reducible apply State.act_keeps
    | (intro u hu)
    | with_reducible assumption
    | exact mask_sub (by decide) hm
    | with_reducible apply State.ntpServe_keeps
    | (intro _)

theorem execNtsRequest_keeps (n : Fin 64) (h : BitVec 32) (s : State) : OutKeeps 0x7821531D036D82 s (execNtsRequest n h s) := by
  unfold execNtsRequest
  have hm : 0x7821531D036D82 &&& 0x7821531D036D82 = 0x7821531D036D82 := rfl
  have h0 := Keeps.refl 0x7821531D036D82 s
  repeat' first
    | with_reducible apply OutKeeps_next
    | with_reducible apply State.act_keeps
    | (intro u hu)
    | with_reducible assumption
    | exact mask_sub (by decide) hm
    | with_reducible apply State.ntsServe_keeps
    | (intro _)

theorem execLaunchReissue_keeps (th : Fin 512) (n : Fin 64) (h : BitVec 32) (s : State) : OutKeeps 0x7821531D036D82 s (execLaunchReissue th n h s) := by
  unfold execLaunchReissue
  have hm : 0x7821531D036D82 &&& 0x7821531D036D82 = 0x7821531D036D82 := rfl
  have h0 := Keeps.refl 0x7821531D036D82 s
  repeat' first
    | with_reducible apply OutKeeps_next
    | with_reducible apply State.act_keeps
    | (intro u hu)
    | with_reducible assumption
    | exact mask_sub (by decide) hm
    | with_reducible apply State.reissue_keeps
    | (intro _)

/-! ### Machine/Flt.lean -/

theorem execFaultNPulseEnd_keeps  (s : State) : OutKeeps 0x10000 s (execFaultNPulseEnd s) := by
  unfold execFaultNPulseEnd
  have hm : 0x10000 &&& 0x10000 = 0x10000 := rfl
  have h0 := Keeps.refl 0x10000 s
  repeat' first
    | with_reducible apply OutKeeps_next
    | with_reducible apply State.act_keeps
    | (intro u hu)
    | with_reducible assumption
    | exact mask_sub (by decide) hm
    | with_reducible apply State.pulseEnd_keeps
    | (intro _)

theorem execFltPinHoldWrite_keeps (v : BitVec 32) (s : State) : OutKeeps 0x7FFFFFFFFFFFFF s (execFltPinHoldWrite v s) := by
  unfold execFltPinHoldWrite
  have hm : 0x7FFFFFFFFFFFFF &&& 0x7FFFFFFFFFFFFF = 0x7FFFFFFFFFFFFF := rfl
  have h0 := Keeps.refl 0x7FFFFFFFFFFFFF s
  repeat' first
    | with_reducible apply OutKeeps_next
    | with_reducible assumption
    | exact mask_sub (by decide) hm
    | with_reducible apply State.hostRow_keeps
    | exact Reg.bit_all _ hm
    | (intro _)

theorem execFltAck_keeps (i : Fin 472) (v : BitVec 32) (s : State) : OutKeeps 0x7FFFFFFFFFFFFF s (execFltAck i v s) := by
  unfold execFltAck
  have hm : 0x7FFFFFFFFFFFFF &&& 0x7FFFFFFFFFFFFF = 0x7FFFFFFFFFFFFF := rfl
  have h0 := Keeps.refl 0x7FFFFFFFFFFFFF s
  repeat' first
    | with_reducible apply OutKeeps_next
    | with_reducible assumption
    | exact mask_sub (by decide) hm
    | with_reducible apply State.hostRow_keeps
    | exact Reg.bit_all _ hm
    | (intro _)

theorem execFltClear_keeps (i : Fin 472) (v : BitVec 32) (s : State) : OutKeeps 0x7FFFFFFFFFFFFF s (execFltClear i v s) := by
  unfold execFltClear
  have hm : 0x7FFFFFFFFFFFFF &&& 0x7FFFFFFFFFFFFF = 0x7FFFFFFFFFFFFF := rfl
  have h0 := Keeps.refl 0x7FFFFFFFFFFFFF s
  repeat' first
    | with_reducible apply OutKeeps_next
    | with_reducible assumption
    | exact mask_sub (by decide) hm
    | with_reducible apply State.hostRow_keeps
    | exact Reg.bit_all _ hm
    | (intro _)

theorem execGraceExpiry_keeps (i : Fin 472) (s : State) : OutKeeps 0x7FFFFF3F17FFB2 s (execGraceExpiry i s) := by
  unfold execGraceExpiry
  have hm : 0x7FFFFF3F17FFB2 &&& 0x7FFFFF3F17FFB2 = 0x7FFFFF3F17FFB2 := rfl
  have h0 := Keeps.refl 0x7FFFFF3F17FFB2 s
  repeat' first
    | with_reducible apply OutKeeps_next
    | with_reducible apply State.act_keeps
    | (intro u hu)
    | with_reducible assumption
    | exact mask_sub (by decide) hm
    | with_reducible apply State.graceExpiry_keeps
    | (intro _)

theorem execFltEscRelease_keeps (v : BitVec 32) (s : State) : OutKeeps 0x7FFFFFFFFFFFFF s (execFltEscRelease v s) := by
  unfold execFltEscRelease
  have hm : 0x7FFFFFFFFFFFFF &&& 0x7FFFFFFFFFFFFF = 0x7FFFFFFFFFFFFF := rfl
  have h0 := Keeps.refl 0x7FFFFFFFFFFFFF s
  repeat' first
    | with_reducible apply OutKeeps_next
    | with_reducible assumption
    | exact mask_sub (by decide) hm
    | with_reducible apply State.hostRow_keeps
    | exact Reg.bit_all _ hm
    | (intro _)

theorem execDmpDfdtWrite_keeps (v : BitVec 32) (s : State) : OutKeeps 0x7FFFFFFFFFFFFF s (execDmpDfdtWrite v s) := by
  unfold execDmpDfdtWrite
  have hm : 0x7FFFFFFFFFFFFF &&& 0x7FFFFFFFFFFFFF = 0x7FFFFFFFFFFFFF := rfl
  have h0 := Keeps.refl 0x7FFFFFFFFFFFFF s
  repeat' first
    | with_reducible apply OutKeeps_next
    | with_reducible assumption
    | exact mask_sub (by decide) hm
    | with_reducible apply State.hostRow_keeps
    | exact Reg.bit_all _ hm
    | (intro _)

theorem execDmpQceilWrite_keeps (n : Fin 64) (qn : Fin 8) (v : BitVec 32) (s : State) : OutKeeps 0x7FFFFFFFFFFFFF s (execDmpQceilWrite n qn v s) := by
  unfold execDmpQceilWrite
  have hm : 0x7FFFFFFFFFFFFF &&& 0x7FFFFFFFFFFFFF = 0x7FFFFFFFFFFFFF := rfl
  have h0 := Keeps.refl 0x7FFFFFFFFFFFFF s
  repeat' first
    | with_reducible apply OutKeeps_next
    | with_reducible assumption
    | exact mask_sub (by decide) hm
    | with_reducible apply State.hostRow_keeps
    | exact Reg.bit_all _ hm
    | (intro _)

/-! ### Machine/Key.lean -/

theorem State.give_keeps {m : Nat} {z s : State} (h0 : Keeps m z s) (hm : 0x20000 &&& m = 0x20000) (q : Nat) (buflen : Nat) (bs : List Byte) (result : Nat) : Keeps m z (State.give s q buflen bs result).1 := by
  unfold State.give
  repeat' first
    | with_reducible assumption
    | exact mask_sub (by decide) hm
    | with_reducible apply State.output_keeps
    | (intro _)
    | with_reducible apply keeps_ite
    | with_reducible apply keeps_ite_fst
    | (split)
    | (with_reducible apply keeps_pair)

theorem execKeyUpdate_keeps (q : Fin 64) (cid : BitVec 32) (data : List Byte) (s : State) : OutKeeps 0x225802034080 s (execKeyUpdate q cid data s) := by
  unfold execKeyUpdate
  have hm : 0x225802034080 &&& 0x225802034080 = 0x225802034080 := rfl
  have h0 := Keeps.refl 0x225802034080 s
  repeat' first
    | with_reducible apply OutKeeps_next
    | with_reducible apply State.act_keeps
    | (intro u hu)
    | (extract_lets +onlyGivenNames x; refine keeps_cut (m := 0x225802034080) (z := s) (x := x) ?_ (fun hx => ?_); rotate_left; generalize x = y at hx ⊢; clear x; rotate_left; subst x)
    | (extract_lets +onlyGivenNames x; first | (subst x) | skip)
    | with_reducible assumption
    | exact mask_sub (by decide) hm
    | with_reducible apply State.complete_keeps
    | with_reducible apply State.fetchCmd_keeps
    | with_reducible apply State.envBegin_keeps
    | with_reducible apply State.envRefuse_keeps
    | (intro _)
    | (split)
    | (with_reducible apply keeps_pair)

theorem execEnvelopeApply_keeps  (s : State) : OutKeeps 0x24842026000 s (execEnvelopeApply s) := by
  unfold execEnvelopeApply
  have hm : 0x24842026000 &&& 0x24842026000 = 0x24842026000 := rfl
  have h0 := Keeps.refl 0x24842026000 s
  repeat' first
    | with_reducible apply OutKeeps_next
    | with_reducible apply State.act_keeps
    | (intro u hu)
    | (extract_lets +onlyGivenNames x; refine keeps_cut (m := 0x24842026000) (z := s) (x := x) ?_ (fun hx => ?_); rotate_left; generalize x = y at hx ⊢; clear x; rotate_left; subst x)
    | (extract_lets +onlyGivenNames x; first | (subst x) | skip)
    | with_reducible assumption
    | exact mask_sub (by decide) hm
    | with_reducible apply State.complete_keeps
    | with_reducible apply State.envApply_keeps
    | (intro _)
    | (split)

theorem execKeyAbortGo_keeps (v : BitVec 32) (s : State) : OutKeeps 0x7FFFFFFFFFFFFF s (execKeyAbortGo v s) := by
  unfold execKeyAbortGo
  have hm : 0x7FFFFFFFFFFFFF &&& 0x7FFFFFFFFFFFFF = 0x7FFFFFFFFFFFFF := rfl
  have h0 := Keeps.refl 0x7FFFFFFFFFFFFF s
  repeat' first
    | with_reducible apply OutKeeps_next
    | with_reducible assumption
    | exact mask_sub (by decide) hm
    | with_reducible apply State.hostRow_keeps
    | exact Reg.bit_all _ hm
    | (intro _)

theorem execAttest_keeps (q : Fin 64) (cid : BitVec 32) (nonce : BitVec 256) (buflen : BitVec 32) (s : State) : OutKeeps 0x4800024000 s (execAttest q cid nonce buflen s) := by
  unfold execAttest
  have hm : 0x4800024000 &&& 0x4800024000 = 0x4800024000 := rfl
  have h0 := Keeps.refl 0x4800024000 s
  repeat' first
    | with_reducible apply OutKeeps_next
    | with_reducible apply State.command_keeps
    | (intro u hu)
    | (extract_lets +onlyGivenNames x; refine keeps_cut (m := 0x4800024000) (z := s) (x := x) ?_ (fun hx => ?_); rotate_left; generalize x = y at hx ⊢; clear x; rotate_left; subst x)
    | (extract_lets +onlyGivenNames x; first | (subst x) | skip)
    | with_reducible assumption
    | exact mask_sub (by decide) hm
    | with_reducible apply State.give_keeps
    | with_reducible refine keeps_of_fst (by assumption) (State.give_keeps ?_ ?_ ..)
    | (intro _)

theorem execCertRead_keeps (q : Fin 64) (cid : BitVec 32) (buflen : BitVec 32) (s : State) : OutKeeps 0x4800024000 s (execCertRead q cid buflen s) := by
  unfold execCertRead
  have hm : 0x4800024000 &&& 0x4800024000 = 0x4800024000 := rfl
  have h0 := Keeps.refl 0x4800024000 s
  repeat' first
    | with_reducible apply OutKeeps_next
    | with_reducible apply State.command_keeps
    | (intro u hu)
    | (extract_lets +onlyGivenNames x; refine keeps_cut (m := 0x4800024000) (z := s) (x := x) ?_ (fun hx => ?_); rotate_left; generalize x = y at hx ⊢; clear x; rotate_left; subst x)
    | (extract_lets +onlyGivenNames x; first | (subst x) | skip)
    | with_reducible assumption
    | exact mask_sub (by decide) hm
    | with_reducible apply State.give_keeps
    | with_reducible refine keeps_of_fst (by assumption) (State.give_keeps ?_ ?_ ..)
    | (intro _)
    | (with_reducible apply keeps_pair)

theorem State.cookieSeal_keeps {m : Nat} {z s : State} (h0 : Keeps m z s) (hm : 0x10020010020000 &&& m = 0x10020010020000) (q cls count : Nat) (keys : List Byte) (buflen : Nat) : Keeps m z (State.cookieSeal s q cls count keys buflen).1 := by
  unfold State.cookieSeal
  repeat' first
    | (extract_lets +onlyGivenNames x; refine keeps_cut (m := m) (z := z) (x := x) ?_ (fun hx => ?_); rotate_left; generalize x = y at hx ⊢; clear x; rotate_left; subst x)
    | (extract_lets +onlyGivenNames x; first | (subst x) | skip)
    | with_reducible assumption
    | exact mask_sub (by decide) hm
    | with_reducible apply State.makeCookies_keeps
    | with_reducible refine keeps_of_snd (by assumption) (State.makeCookies_keeps ?_ ?_ ..)
    | with_reducible apply State.output_keeps
    | with_reducible apply State.count_keeps
    | (intro _)
    | with_reducible apply keeps_ite
    | with_reducible apply keeps_ite_fst
    | (split)
    | (with_reducible apply keeps_pair)

theorem execCookieSeal_keeps (q : Fin 64) (cid : BitVec 32) (cls : Fin 8) (count : BitVec 8) (keys : List Byte) (buflen : BitVec 32) (s : State) : OutKeeps 0x10024810024000 s (execCookieSeal q cid cls count keys buflen s) := by
  unfold execCookieSeal
  have hm : 0x10024810024000 &&& 0x10024810024000 = 0x10024810024000 := rfl
  have h0 := Keeps.refl 0x10024810024000 s
  repeat' first
    | with_reducible apply OutKeeps_next
    | with_reducible apply State.command_keeps
    | (intro u hu)
    | with_reducible assumption
    | exact mask_sub (by decide) hm
    | with_reducible apply State.cookieSeal_keeps
    | with_reducible refine keeps_of_fst (by assumption) (State.cookieSeal_keeps ?_ ?_ ..)
    | with_reducible apply State.count_keeps
    | (intro _)

/-! ### Machine/Irq.lean -/

theorem execIrqSourceEdge_keeps (n : Fin 512) (detail : BitVec 8) (s : State) : OutKeeps 0x4000000000 s (execIrqSourceEdge n detail s) := by
  unfold execIrqSourceEdge
  have hm : 0x4000000000 &&& 0x4000000000 = 0x4000000000 := rfl
  have h0 := Keeps.refl 0x4000000000 s
  repeat' first
    | with_reducible apply OutKeeps_next
    | with_reducible apply State.act_keeps
    | (intro u hu)
    | with_reducible assumption
    | exact mask_sub (by decide) hm
    | with_reducible apply State.irqPulse_keeps
    | (intro _)

theorem execIrqSrcCfgWrite_keeps (n : Fin 512) (v : BitVec 32) (s : State) : OutKeeps 0x7FFFFFFFFFFFFF s (execIrqSrcCfgWrite n v s) := by
  unfold execIrqSrcCfgWrite
  have hm : 0x7FFFFFFFFFFFFF &&& 0x7FFFFFFFFFFFFF = 0x7FFFFFFFFFFFFF := rfl
  have h0 := Keeps.refl 0x7FFFFFFFFFFFFF s
  repeat' first
    | with_reducible apply OutKeeps_next
    | with_reducible assumption
    | exact mask_sub (by decide) hm
    | with_reducible apply State.hostRow_keeps
    | exact Reg.bit_all _ hm
    | (intro _)

theorem execIrqDoorbell_keeps (v : BitVec 32) (s : State) : OutKeeps 0x7FFFFFFFFFFFFF s (execIrqDoorbell v s) := by
  unfold execIrqDoorbell
  have hm : 0x7FFFFFFFFFFFFF &&& 0x7FFFFFFFFFFFFF = 0x7FFFFFFFFFFFFF := rfl
  have h0 := Keeps.refl 0x7FFFFFFFFFFFFF s
  repeat' first
    | with_reducible apply OutKeeps_next
    | with_reducible assumption
    | exact mask_sub (by decide) hm
    | with_reducible apply State.hostRow_keeps
    | exact Reg.bit_all _ hm
    | (intro _)

theorem execIrqPendSet_keeps (v : BitVec 32) (s : State) : OutKeeps 0x7FFFFFFFFFFFFF s (execIrqPendSet v s) := by
  unfold execIrqPendSet
  have hm : 0x7FFFFFFFFFFFFF &&& 0x7FFFFFFFFFFFFF = 0x7FFFFFFFFFFFFF := rfl
  have h0 := Keeps.refl 0x7FFFFFFFFFFFFF s
  repeat' first
    | with_reducible apply OutKeeps_next
    | with_reducible assumption
    | exact mask_sub (by decide) hm
    | with_reducible apply State.hostRow_keeps
    | exact Reg.bit_all _ hm
    | (intro _)

theorem execIrqPendClr_keeps (v : BitVec 32) (s : State) : OutKeeps 0x7FFFFFFFFFFFFF s (execIrqPendClr v s) := by
  unfold execIrqPendClr
  have hm : 0x7FFFFFFFFFFFFF &&& 0x7FFFFFFFFFFFFF = 0x7FFFFFFFFFFFFF := rfl
  have h0 := Keeps.refl 0x7FFFFFFFFFFFFF s
  repeat' first
    | with_reducible apply OutKeeps_next
    | with_reducible assumption
    | exact mask_sub (by decide) hm
    | with_reducible apply State.hostRow_keeps
    | exact Reg.bit_all _ hm
    | (intro _)

theorem execIrqGenWrite_keeps (v : BitVec 32) (s : State) : OutKeeps 0x7FFFFFFFFFFFFF s (execIrqGenWrite v s) := by
  unfold execIrqGenWrite
  have hm : 0x7FFFFFFFFFFFFF &&& 0x7FFFFFFFFFFFFF = 0x7FFFFFFFFFFFFF := rfl
  have h0 := Keeps.refl 0x7FFFFFFFFFFFFF s
  repeat' first
    | with_reducible apply OutKeeps_next
    | with_reducible assumption
    | exact mask_sub (by decide) hm
    | with_reducible apply State.hostRow_keeps
    | exact Reg.bit_all _ hm
    | (intro _)

theorem execIrqIssue_keeps (tgt : BitVec 16) (s : State) : OutKeeps 0x4020C108024180 s (execIrqIssue tgt s) := by
  unfold execIrqIssue
  have hm : 0x4020C108024180 &&& 0x4020C108024180 = 0x4020C108024180 := rfl
  have h0 := Keeps.refl 0x4020C108024180 s
  repeat' first
    | with_reducible apply OutKeeps_next
    | with_reducible assumption
    | exact mask_sub (by decide) hm
    | with_reducible apply State.irqArbitrate_keeps
    | (intro _)

theorem execIrqClaimRead_keeps (vec : Fin 2048) (s : State) : OutKeeps 0xC000004000 s (execIrqClaimRead vec s) := by
  unfold execIrqClaimRead
  have hm : 0xC000004000 &&& 0xC000004000 = 0xC000004000 := rfl
  have h0 := Keeps.refl 0xC000004000 s
  repeat' first
    | with_reducible apply OutKeeps_next
    | with_reducible apply State.act_keeps
    | (intro u hu)
    | with_reducible assumption
    | exact mask_sub (by decide) hm
    | with_reducible apply State.irqClaim_keeps
    | (intro _)

theorem execIrqEoi_keeps (vec : Fin 2048) (v : BitVec 32) (s : State) : OutKeeps 0x7FFFFFFFFFFFFF s (execIrqEoi vec v s) := by
  unfold execIrqEoi
  have hm : 0x7FFFFFFFFFFFFF &&& 0x7FFFFFFFFFFFFF = 0x7FFFFFFFFFFFFF := rfl
  have h0 := Keeps.refl 0x7FFFFFFFFFFFFF s
  repeat' first
    | with_reducible apply OutKeeps_next
    | with_reducible assumption
    | exact mask_sub (by decide) hm
    | with_reducible apply State.hostRow_keeps
    | exact Reg.bit_all _ hm
    | (intro _)

theorem execIrqTgtWrite_keeps (n : Fin 512) (v : BitVec 32) (s : State) : OutKeeps 0x7FFFFFFFFFFFFF s (execIrqTgtWrite n v s) := by
  unfold execIrqTgtWrite
  have hm : 0x7FFFFFFFFFFFFF &&& 0x7FFFFFFFFFFFFF = 0x7FFFFFFFFFFFFF := rfl
  have h0 := Keeps.refl 0x7FFFFFFFFFFFFF s
  repeat' first
    | with_reducible apply OutKeeps_next
    | with_reducible assumption
    | exact mask_sub (by decide) hm
    | with_reducible apply State.hostRow_keeps
    | exact Reg.bit_all _ hm
    | (intro _)

theorem execIrqTargetTimeout_keeps (n : Fin 512) (s : State) : OutKeeps 0x4020C108024180 s (execIrqTargetTimeout n s) := by
  unfold execIrqTargetTimeout
  have hm : 0x4020C108024180 &&& 0x4020C108024180 = 0x4020C108024180 := rfl
  have h0 := Keeps.refl 0x4020C108024180 s
  repeat' first
    | with_reducible apply OutKeeps_next
    | with_reducible assumption
    | exact mask_sub (by decide) hm
    | with_reducible apply State.irqTimeout_keeps
    | (intro _)

theorem execPmcCounterWrap_keeps (c : Fin 16) (ctr : Fin 80) (smp : PmcSample) (s : State) : OutKeeps 0x40004108004000 s (execPmcCounterWrap c ctr smp s) := by
  unfold execPmcCounterWrap
  have hm : 0x40004108004000 &&& 0x40004108004000 = 0x40004108004000 := rfl
  have h0 := Keeps.refl 0x40004108004000 s
  repeat' first
    | with_reducible apply OutKeeps_next
    | with_reducible apply State.act_keeps
    | (intro u hu)
    | with_reducible assumption
    | exact mask_sub (by decide) hm
    | with_reducible apply State.pmcWrap_keeps
    | (intro _)

theorem execPmcMirrorUpdate_keeps (c : Fin 16) (k : Fin 8) (s : State) : OutKeeps 0x8000002 s (execPmcMirrorUpdate c k s) := by
  unfold execPmcMirrorUpdate
  have hm : 0x8000002 &&& 0x8000002 = 0x8000002 := rfl
  have h0 := Keeps.refl 0x8000002 s
  repeat' first
    | with_reducible apply OutKeeps_next
    | with_reducible apply State.act_keeps
    | (intro u hu)
    | with_reducible assumption
    | exact mask_sub (by decide) hm
    | with_reducible apply State.pmcMirror_keeps
    | (intro _)

/-! ### Machine/Hst.lean -/

theorem execTopUnlockWrite_keeps (v : BitVec 32) (s : State) : OutKeeps 0x7FFFFFFFFFFFFF s (execTopUnlockWrite v s) := by
  unfold execTopUnlockWrite
  have hm : 0x7FFFFFFFFFFFFF &&& 0x7FFFFFFFFFFFFF = 0x7FFFFFFFFFFFFF := rfl
  have h0 := Keeps.refl 0x7FFFFFFFFFFFFF s
  repeat' first
    | with_reducible apply OutKeeps_next
    | with_reducible assumption
    | exact mask_sub (by decide) hm
    | with_reducible apply State.hostRow_keeps
    | exact Reg.bit_all _ hm
    | (intro _)

theorem execRegisterWrite_keeps (off : BitVec 25) (size : Nat) (v : BitVec 64) (s : State) : OutKeeps 0x7FFFFFFFFFFFFF s (execRegisterWrite off size v s) := by
  unfold execRegisterWrite
  have hm : 0x7FFFFFFFFFFFFF &&& 0x7FFFFFFFFFFFFF = 0x7FFFFFFFFFFFFF := rfl
  have h0 := Keeps.refl 0x7FFFFFFFFFFFFF s
  repeat' first
    | with_reducible apply OutKeeps_next
    | with_reducible assumption
    | exact mask_sub (by decide) hm
    | with_reducible apply State.bar0Write_keeps
    | exact Reg.bit_all _ hm
    | (intro _)

theorem execQueueEnWrite_keeps (q : Fin 64) (v : BitVec 32) (s : State) : OutKeeps 0x7FFFFFFFFFFFFF s (execQueueEnWrite q v s) := by
  unfold execQueueEnWrite
  have hm : 0x7FFFFFFFFFFFFF &&& 0x7FFFFFFFFFFFFF = 0x7FFFFFFFFFFFFF := rfl
  have h0 := Keeps.refl 0x7FFFFFFFFFFFFF s
  repeat' first
    | with_reducible apply OutKeeps_next
    | with_reducible assumption
    | exact mask_sub (by decide) hm
    | with_reducible apply State.hostRow_keeps
    | exact Reg.bit_all _ hm
    | (intro _)

theorem execSqTailDoorbell_keeps (q : Fin 64) (v : BitVec 32) (s : State) : OutKeeps 0x7FFFFFFFFFFFFF s (execSqTailDoorbell q v s) := by
  unfold execSqTailDoorbell
  have hm : 0x7FFFFFFFFFFFFF &&& 0x7FFFFFFFFFFFFF = 0x7FFFFFFFFFFFFF := rfl
  have h0 := Keeps.refl 0x7FFFFFFFFFFFFF s
  repeat' first
    | with_reducible apply OutKeeps_next
    | with_reducible assumption
    | exact mask_sub (by decide) hm
    | with_reducible apply State.hostRow_keeps
    | exact Reg.bit_all _ hm
    | (intro _)

theorem execCqHeadWrite_keeps (q : Fin 64) (v : BitVec 32) (s : State) : OutKeeps 0x7FFFFFFFFFFFFF s (execCqHeadWrite q v s) := by
  unfold execCqHeadWrite
  have hm : 0x7FFFFFFFFFFFFF &&& 0x7FFFFFFFFFFFFF = 0x7FFFFFFFFFFFFF := rfl
  have h0 := Keeps.refl 0x7FFFFFFFFFFFFF s
  repeat' first
    | with_reducible apply OutKeeps_next
    | with_reducible assumption
    | exact mask_sub (by decide) hm
    | with_reducible apply State.hostRow_keeps
    | exact Reg.bit_all _ hm
    | (intro _)

theorem execHstAbortGo_keeps (v : BitVec 32) (cids : List (BitVec 32)) (s : State) : OutKeeps 0x225C02034080 s (execHstAbortGo v cids s) := by
  unfold execHstAbortGo
  have hm : 0x225C02034080 &&& 0x225C02034080 = 0x225C02034080 := rfl
  have h0 := Keeps.refl 0x225C02034080 s
  repeat' first
    | with_reducible apply OutKeeps_next
    | (extract_lets +onlyGivenNames x; refine keeps_cut (m := 0x225C02034080) (z := s) (x := x) ?_ (fun hx => ?_); rotate_left; generalize x = y at hx ⊢; clear x; rotate_left; subst x)
    | (extract_lets +onlyGivenNames x; first | (subst x) | skip)
    | with_reducible assumption
    | exact mask_sub (by decide) hm
    | with_reducible apply State.front_keeps
    | with_reducible refine keeps_of_fst (by assumption) (State.front_keeps ?_ ?_ ..)
    | with_reducible apply State.hstAbort_keeps
    | (intro _)
    | with_reducible apply keeps_ite

theorem execPcieLinkLoss_keeps (kind : PcieLoss) (s : State) : OutKeeps 0x7FFFFE02034080 s (execPcieLinkLoss kind s) := by
  unfold execPcieLinkLoss
  have hm : 0x7FFFFE02034080 &&& 0x7FFFFE02034080 = 0x7FFFFE02034080 := rfl
  have h0 := Keeps.refl 0x7FFFFE02034080 s
  repeat' first
    | with_reducible apply OutKeeps_next
    | with_reducible apply State.act_keeps
    | (intro u hu)
    | with_reducible assumption
    | exact mask_sub (by decide) hm
    | with_reducible apply State.hostLoss_keeps
    | (intro _)

theorem execBar2Access_keeps (off : BitVec 26) (acc : Bar2Acc) (s : State) : OutKeeps 0x4020002 s (execBar2Access off acc s) := by
  unfold execBar2Access
  have hm : 0x4020002 &&& 0x4020002 = 0x4020002 := rfl
  have h0 := Keeps.refl 0x4020002 s
  repeat' first
    | with_reducible apply OutKeeps_next
    | with_reducible apply State.act_keeps
    | (intro u hu)
    | with_reducible assumption
    | exact mask_sub (by decide) hm
    | with_reducible apply State.bar2_keeps
    | (intro _)

theorem execDdrScrubRead_keeps (ch : Fin 2) (addr : BitVec 64) (found : ScrubResult) (s : State) : OutKeeps 0x305000030080 s (execDdrScrubRead ch addr found s) := by
  unfold execDdrScrubRead
  have hm : 0x305000030080 &&& 0x305000030080 = 0x305000030080 := rfl
  have h0 := Keeps.refl 0x305000030080 s
  repeat' first
    | with_reducible apply OutKeeps_next
    | with_reducible assumption
    | exact mask_sub (by decide) hm
    | with_reducible apply State.scrub_keeps
    | (intro _)

theorem State.tlArm_keeps {m : Nat} {z s : State} (h0 : Keeps m z s) (hm : 0x4660C108C84180 &&& m = 0x4660C108C84180) (q : Nat) (at_ : TimeVal) (w : BitVec 64) : Keeps m z (State.tlArm s q at_ w).1 := by
  unfold State.tlArm
  repeat' first
    | (extract_lets +onlyGivenNames x; refine keeps_cut (m := m) (z := z) (x := x) ?_ (fun hx => ?_); rotate_left; generalize x = y at hx ⊢; clear x; rotate_left; subst x)
    | (extract_lets +onlyGivenNames x; first | (subst x) | skip)
    | with_reducible assumption
    | exact mask_sub (by decide) hm
    | with_reducible apply State.blockAction_keeps
    | with_reducible apply State.arm_keeps
    | with_reducible refine keeps_of_fst (by assumption) (State.arm_keeps ?_ ?_ ..)
    | (intro _)
    | with_reducible apply keeps_ite
    | with_reducible apply keeps_ite_fst
    | (split)
    | (with_reducible apply keeps_pair)

theorem execTlArm_keeps (q : Fin 64) (cid : BitVec 32) (at_ : TimeVal) (word : BitVec 64) (s : State) : OutKeeps 0x4660C908CA4180 s (execTlArm q cid at_ word s) := by
  unfold execTlArm
  have hm : 0x4660C908CA4180 &&& 0x4660C908CA4180 = 0x4660C908CA4180 := rfl
  have h0 := Keeps.refl 0x4660C908CA4180 s
  repeat' first
    | with_reducible apply OutKeeps_next
    | with_reducible apply State.clockCommand_keeps
    | (intro u hu)
    | with_reducible assumption
    | exact mask_sub (by decide) hm
    | with_reducible apply State.tlArm_keeps
    | with_reducible refine keeps_of_fst (by assumption) (State.tlArm_keeps ?_ ?_ ..)
    | (intro _)

theorem execTlCancel_keeps (q : Fin 64) (cid : BitVec 32) (h : BitVec 16) (s : State) : OutKeeps 0x204800024C80 s (execTlCancel q cid h s) := by
  unfold execTlCancel
  have hm : 0x204800024C80 &&& 0x204800024C80 = 0x204800024C80 := rfl
  have h0 := Keeps.refl 0x204800024C80 s
  repeat' first
    | with_reducible apply OutKeeps_next
    | with_reducible apply State.clockCommand_keeps
    | (intro u hu)
    | (extract_lets +onlyGivenNames x; refine keeps_cut (m := 0x204800024C80) (z := s) (x := x) ?_ (fun hx => ?_); rotate_left; generalize x = y at hx ⊢; clear x; rotate_left; subst x)
    | (extract_lets +onlyGivenNames x; first | (subst x) | skip)
    | with_reducible assumption
    | exact mask_sub (by decide) hm
    | with_reducible apply State.cancelLaunch_keeps
    | with_reducible apply State.cancel_keeps
    | with_reducible refine keeps_of_fst (by assumption) (State.cancel_keeps ?_ ?_ ..)
    | (intro _)
    | with_reducible apply keeps_ite
    | with_reducible apply keeps_ite_fst
    | (split)
    | (with_reducible apply keeps_pair)

theorem execDtmSnapshot_keeps (q : Fin 64) (cid buflen : BitVec 32) (s : State) : OutKeeps 0x4800024000 s (execDtmSnapshot q cid buflen s) := by
  unfold execDtmSnapshot
  have hm : 0x4800024000 &&& 0x4800024000 = 0x4800024000 := rfl
  have h0 := Keeps.refl 0x4800024000 s
  repeat' first
    | with_reducible apply OutKeeps_next
    | with_reducible apply State.clockCommand_keeps
    | (intro u hu)
    | (extract_lets +onlyGivenNames x; refine keeps_cut (m := 0x4800024000) (z := s) (x := x) ?_ (fun hx => ?_); rotate_left; generalize x = y at hx ⊢; clear x; rotate_left; subst x)
    | (extract_lets +onlyGivenNames x; first | (subst x) | skip)
    | with_reducible assumption
    | exact mask_sub (by decide) hm
    | with_reducible apply State.give_keeps
    | with_reducible refine keeps_of_fst (by assumption) (State.give_keeps ?_ ?_ ..)
    | (intro _)

theorem execDtmStep_keeps (q : Fin 64) (cid : BitVec 32) (sec : BitVec 64) (ns frac early late : BitVec 32) (s : State) : OutKeeps 0x20580003C080 s (execDtmStep q cid sec ns frac early late s) := by
  unfold execDtmStep
  have hm : 0x20580003C080 &&& 0x20580003C080 = 0x20580003C080 := rfl
  have h0 := Keeps.refl 0x20580003C080 s
  repeat' first
    | with_reducible apply OutKeeps_next
    | with_reducible apply State.clockCommand_keeps
    | (intro u hu)
    | (extract_lets +onlyGivenNames x; refine keeps_cut (m := 0x20580003C080) (z := s) (x := x) ?_ (fun hx => ?_); rotate_left; generalize x = y at hx ⊢; clear x; rotate_left; subst x)
    | (extract_lets +onlyGivenNames x; first | (subst x) | skip)
    | with_reducible assumption
    | exact mask_sub (by decide) hm
    | with_reducible apply State.stepHost_keeps
    | with_reducible refine keeps_of_fst (by assumption) (State.stepHost_keeps ?_ ?_ ..)
    | (intro _)
    | with_reducible apply keeps_ite
    | with_reducible apply keeps_ite_fst
    | (with_reducible apply keeps_pair)

theorem State.journalRead_keeps {m : Nat} {z s : State} (h0 : Keeps m z s) (hm : 0x20000 &&& m = 0x20000) (q : Nat) (seq count buflen : Nat) : Keeps m z (State.journalRead s q seq count buflen).1 := by
  unfold State.journalRead
  repeat' first
    | (extract_lets +onlyGivenNames x; refine keeps_cut (m := m) (z := z) (x := x) ?_ (fun hx => ?_); rotate_left; generalize x = y at hx ⊢; clear x; rotate_left; subst x)
    | (extract_lets +onlyGivenNames x; first | (subst x) | skip)
    | with_reducible assumption
    | exact mask_sub (by decide) hm
    | with_reducible apply State.output_keeps
    | with_reducible apply State.count_keeps
    | (intro _)
    | with_reducible apply keeps_ite
    | with_reducible apply keeps_ite_fst
    | (split)
    | (with_reducible apply keeps_pair)

theorem execJournalRead_keeps (q : Fin 64) (cid : BitVec 32) (seq : BitVec 64) (count buflen : BitVec 32) (s : State) : OutKeeps 0x4800024000 s (execJournalRead q cid seq count buflen s) := by
  unfold execJournalRead
  have hm : 0x4800024000 &&& 0x4800024000 = 0x4800024000 := rfl
  have h0 := Keeps.refl 0x4800024000 s
  repeat' first
    | with_reducible apply OutKeeps_next
    | with_reducible apply State.clockCommand_keeps
    | (intro u hu)
    | with_reducible assumption
    | exact mask_sub (by decide) hm
    | with_reducible apply State.journalRead_keeps
    | with_reducible refine keeps_of_fst (by assumption) (State.journalRead_keeps ?_ ?_ ..)
    | with_reducible apply State.count_keeps
    | (intro _)

theorem State.snapRead_keeps {m : Nat} {z s : State} (h0 : Keeps m z s) (hm : 0x20000 &&& m = 0x20000) (q : Nat) (off len buflen : Nat) : Keeps m z (State.snapRead s q off len buflen).1 := by
  unfold State.snapRead
  repeat' first
    | (extract_lets +onlyGivenNames x; refine keeps_cut (m := m) (z := z) (x := x) ?_ (fun hx => ?_); rotate_left; generalize x = y at hx ⊢; clear x; rotate_left; subst x)
    | (extract_lets +onlyGivenNames x; first | (subst x) | skip)
    | with_reducible assumption
    | exact mask_sub (by decide) hm
    | with_reducible apply State.give_keeps
    | with_reducible refine keeps_of_fst (by assumption) (State.give_keeps ?_ ?_ ..)
    | (intro _)
    | with_reducible apply keeps_ite
    | with_reducible apply keeps_ite_fst
    | (split)
    | (with_reducible apply keeps_pair)

theorem execGnssSnapRead_keeps (q : Fin 64) (cid off len buflen : BitVec 32) (s : State) : OutKeeps 0x4800024000 s (execGnssSnapRead q cid off len buflen s) := by
  unfold execGnssSnapRead
  have hm : 0x4800024000 &&& 0x4800024000 = 0x4800024000 := rfl
  have h0 := Keeps.refl 0x4800024000 s
  repeat' first
    | with_reducible apply OutKeeps_next
    | with_reducible apply State.clockCommand_keeps
    | (intro u hu)
    | with_reducible assumption
    | exact mask_sub (by decide) hm
    | with_reducible apply State.snapRead_keeps
    | with_reducible refine keeps_of_fst (by assumption) (State.snapRead_keeps ?_ ?_ ..)
    | (intro _)

theorem execFaultSummary_keeps (q : Fin 64) (cid buflen : BitVec 32) (s : State) : OutKeeps 0x4800024000 s (execFaultSummary q cid buflen s) := by
  unfold execFaultSummary
  have hm : 0x4800024000 &&& 0x4800024000 = 0x4800024000 := rfl
  have h0 := Keeps.refl 0x4800024000 s
  repeat' first
    | with_reducible apply OutKeeps_next
    | with_reducible apply State.clockCommand_keeps
    | (intro u hu)
    | (extract_lets +onlyGivenNames x; refine keeps_cut (m := 0x4800024000) (z := s) (x := x) ?_ (fun hx => ?_); rotate_left; generalize x = y at hx ⊢; clear x; rotate_left; subst x)
    | (extract_lets +onlyGivenNames x; first | (subst x) | skip)
    | with_reducible assumption
    | exact mask_sub (by decide) hm
    | with_reducible apply State.give_keeps
    | with_reducible refine keeps_of_fst (by assumption) (State.give_keeps ?_ ?_ ..)
    | (intro _)
    | (split)
    | (with_reducible apply keeps_pair)

/-! ### Machine/Mat.lean -/

theorem execHeartbeatLaunch_keeps (l : Fin 2) (tx : TimeVal) (s : State) : OutKeeps 0x80004000000 s (execHeartbeatLaunch l tx s) := by
  unfold execHeartbeatLaunch
  have hm : 0x80004000000 &&& 0x80004000000 = 0x80004000000 := rfl
  have h0 := Keeps.refl 0x80004000000 s
  repeat' first
    | with_reducible apply OutKeeps_next
    | with_reducible apply State.act_keeps
    | (intro u hu)
    | with_reducible assumption
    | exact mask_sub (by decide) hm
    | with_reducible apply State.beatLaunch_keeps
    | (intro _)

theorem execHeartbeatReceive_keeps (l : Fin 2) (hb : Heartbeat) (at_ : TimeVal) (s : State) : OutKeeps 0x5028710C11CD80 s (execHeartbeatReceive l hb at_ s) := by
  unfold execHeartbeatReceive
  have hm : 0x5028710C11CD80 &&& 0x5028710C11CD80 = 0x5028710C11CD80 := rfl
  have h0 := Keeps.refl 0x5028710C11CD80 s
  repeat' first
    | with_reducible apply OutKeeps_next
    | with_reducible apply State.act_keeps
    | (intro u hu)
    | with_reducible assumption
    | exact mask_sub (by decide) hm
    | with_reducible apply State.beatReceive_keeps
    | (intro _)

theorem execHeartbeatLossDeadline_keeps (l : Fin 2) (s : State) : OutKeeps 0x10287004018080 s (execHeartbeatLossDeadline l s) := by
  unfold execHeartbeatLossDeadline
  have hm : 0x10287004018080 &&& 0x10287004018080 = 0x10287004018080 := rfl
  have h0 := Keeps.refl 0x10287004018080 s
  repeat' first
    | with_reducible apply OutKeeps_next
    | with_reducible apply State.act_keeps
    | (intro u hu)
    | with_reducible assumption
    | exact mask_sub (by decide) hm
    | with_reducible apply State.beatLost_keeps
    | (intro _)

theorem execMatePresentChange_keeps (high : Bool) (s : State) : OutKeeps 0x10287024018080 s (execMatePresentChange high s) := by
  unfold execMatePresentChange
  have hm : 0x10287024018080 &&& 0x10287024018080 = 0x10287024018080 := rfl
  have h0 := Keeps.refl 0x10287024018080 s
  repeat' first
    | with_reducible apply OutKeeps_next
    | with_reducible apply State.act_keeps
    | (intro u hu)
    | with_reducible assumption
    | exact mask_sub (by decide) hm
    | with_reducible apply State.presentChange_keeps
    | (intro _)

theorem execMatInitEntry_keeps (t0 t1 : Bool) (s : State) : OutKeeps 0x4000000 s (execMatInitEntry t0 t1 s) := by
  unfold execMatInitEntry
  have hm : 0x4000000 &&& 0x4000000 = 0x4000000 := rfl
  have h0 := Keeps.refl 0x4000000 s
  repeat' first
    | with_reducible apply OutKeeps_next
    | with_reducible apply State.act_keeps
    | (intro u hu)
    | with_reducible assumption
    | exact mask_sub (by decide) hm
    | with_reducible apply State.matInit_keeps
    | (intro _)

theorem execRoleDecide_keeps  (s : State) : OutKeeps 0x5028710C01CD80 s (execRoleDecide s) := by
  unfold execRoleDecide
  have hm : 0x5028710C01CD80 &&& 0x5028710C01CD80 = 0x5028710C01CD80 := rfl
  have h0 := Keeps.refl 0x5028710C01CD80 s
  repeat' first
    | with_reducible apply OutKeeps_next
    | with_reducible apply State.act_keeps
    | (intro u hu)
    | with_reducible assumption
    | exact mask_sub (by decide) hm
    | with_reducible apply State.roleDecide_keeps
    | (intro _)

theorem execArbContentionDemote_keeps  (s : State) : OutKeeps 0x5028710801CD80 s (execArbContentionDemote s) := by
  unfold execArbContentionDemote
  have hm : 0x5028710801CD80 &&& 0x5028710801CD80 = 0x5028710801CD80 := rfl
  have h0 := Keeps.refl 0x5028710801CD80 s
  repeat' first
    | with_reducible apply OutKeeps_next
    | with_reducible apply State.act_keeps
    | (intro u hu)
    | with_reducible assumption
    | exact mask_sub (by decide) hm
    | with_reducible apply State.arbDemote_keeps
    | (intro _)

theorem execMatWithdraw_keeps (v : BitVec 32) (s : State) : OutKeeps 0x7FFFFFFFFFFFFF s (execMatWithdraw v s) := by
  unfold execMatWithdraw
  have hm : 0x7FFFFFFFFFFFFF &&& 0x7FFFFFFFFFFFFF = 0x7FFFFFFFFFFFFF := rfl
  have h0 := Keeps.refl 0x7FFFFFFFFFFFFF s
  repeat' first
    | with_reducible apply OutKeeps_next
    | with_reducible assumption
    | exact mask_sub (by decide) hm
    | with_reducible apply State.hostRow_keeps
    | exact Reg.bit_all _ hm
    | (intro _)

theorem execMatRejoin_keeps (v : BitVec 32) (s : State) : OutKeeps 0x7FFFFFFFFFFFFF s (execMatRejoin v s) := by
  unfold execMatRejoin
  have hm : 0x7FFFFFFFFFFFFF &&& 0x7FFFFFFFFFFFFF = 0x7FFFFFFFFFFFFF := rfl
  have h0 := Keeps.refl 0x7FFFFFFFFFFFFF s
  repeat' first
    | with_reducible apply OutKeeps_next
    | with_reducible assumption
    | exact mask_sub (by decide) hm
    | with_reducible apply State.hostRow_keeps
    | exact Reg.bit_all _ hm
    | (intro _)

theorem execPromotion_keeps  (s : State) : OutKeeps 0x4028410C004D80 s (execPromotion s) := by
  unfold execPromotion
  have hm : 0x4028410C004D80 &&& 0x4028410C004D80 = 0x4028410C004D80 := rfl
  have h0 := Keeps.refl 0x4028410C004D80 s
  repeat' first
    | with_reducible apply OutKeeps_next
    | with_reducible apply State.act_keeps
    | (intro u hu)
    | with_reducible assumption
    | exact mask_sub (by decide) hm
    | with_reducible apply State.promotionDue_keeps
    | (intro _)

theorem execWitnessMatch_keeps (port : Fin 64) (clk : BitVec 64) (s : State) : OutKeeps 0x5028710C01CD80 s (execWitnessMatch port clk s) := by
  unfold execWitnessMatch
  have hm : 0x5028710C01CD80 &&& 0x5028710C01CD80 = 0x5028710C01CD80 := rfl
  have h0 := Keeps.refl 0x5028710C01CD80 s
  repeat' first
    | with_reducible apply OutKeeps_next
    | with_reducible apply State.act_keeps
    | (intro u hu)
    | with_reducible assumption
    | exact mask_sub (by decide) hm
    | with_reducible apply State.witnessMatch_keeps
    | (intro _)

theorem execSwapRequestNow_keeps (v : BitVec 32) (s : State) : OutKeeps 0x7FFFFFFFFFFFFF s (execSwapRequestNow v s) := by
  unfold execSwapRequestNow
  have hm : 0x7FFFFFFFFFFFFF &&& 0x7FFFFFFFFFFFFF = 0x7FFFFFFFFFFFFF := rfl
  have h0 := Keeps.refl 0x7FFFFFFFFFFFFF s
  repeat' first
    | with_reducible apply OutKeeps_next
    | with_reducible assumption
    | exact mask_sub (by decide) hm
    | with_reducible apply State.hostRow_keeps
    | exact Reg.bit_all _ hm
    | (intro _)

theorem execPeriodicSwapRequest_keeps  (s : State) : OutKeeps 0x10287084018080 s (execPeriodicSwapRequest s) := by
  unfold execPeriodicSwapRequest
  have hm : 0x10287084018080 &&& 0x10287084018080 = 0x10287084018080 := rfl
  have h0 := Keeps.refl 0x10287084018080 s
  repeat' first
    | with_reducible apply OutKeeps_next
    | with_reducible apply State.once_keeps
    | with_reducible apply State.act_keeps
    | (intro u hu)
    | with_reducible assumption
    | exact mask_sub (by decide) hm
    | with_reducible apply State.periodicSwap_keeps
    | (intro _)

theorem execReversionRequest_keeps  (s : State) : OutKeeps 0x10287004018080 s (execReversionRequest s) := by
  unfold execReversionRequest
  have hm : 0x10287004018080 &&& 0x10287004018080 = 0x10287004018080 := rfl
  have h0 := Keeps.refl 0x10287004018080 s
  repeat' first
    | with_reducible apply OutKeeps_next
    | with_reducible apply State.act_keeps
    | (intro u hu)
    | with_reducible assumption
    | exact mask_sub (by decide) hm
    | with_reducible apply State.reversion_keeps
    | (intro _)

theorem execHealthYieldRequest_keeps  (s : State) : OutKeeps 0x10287004018080 s (execHealthYieldRequest s) := by
  unfold execHealthYieldRequest
  have hm : 0x10287004018080 &&& 0x10287004018080 = 0x10287004018080 := rfl
  have h0 := Keeps.refl 0x10287004018080 s
  repeat' first
    | with_reducible apply OutKeeps_next
    | with_reducible apply State.act_keeps
    | (intro u hu)
    | with_reducible assumption
    | exact mask_sub (by decide) hm
    | with_reducible apply State.healthYield_keeps
    | (intro _)

theorem execSwapRecheck_keeps  (s : State) : OutKeeps 0x5028710C01CD80 s (execSwapRecheck s) := by
  unfold execSwapRecheck
  have hm : 0x5028710C01CD80 &&& 0x5028710C01CD80 = 0x5028710C01CD80 := rfl
  have h0 := Keeps.refl 0x5028710C01CD80 s
  repeat' first
    | with_reducible apply OutKeeps_next
    | with_reducible apply State.act_keeps
    | (intro u hu)
    | with_reducible assumption
    | exact mask_sub (by decide) hm
    | with_reducible apply State.swapRecheck_keeps
    | (intro _)

theorem execSwapInstant_keeps  (s : State) : OutKeeps 0x4028410C004D80 s (execSwapInstant s) := by
  unfold execSwapInstant
  have hm : 0x4028410C004D80 &&& 0x4028410C004D80 = 0x4028410C004D80 := rfl
  have h0 := Keeps.refl 0x4028410C004D80 s
  repeat' first
    | with_reducible apply OutKeeps_next
    | with_reducible apply State.act_keeps
    | (intro u hu)
    | with_reducible assumption
    | exact mask_sub (by decide) hm
    | with_reducible apply State.swapInstant_keeps
    | (intro _)

theorem execMirrorWrite_keeps  (s : State) : OutKeeps 0x80004000000 s (execMirrorWrite s) := by
  unfold execMirrorWrite
  have hm : 0x80004000000 &&& 0x80004000000 = 0x80004000000 := rfl
  have h0 := Keeps.refl 0x80004000000 s
  repeat' first
    | with_reducible apply OutKeeps_next
    | with_reducible apply State.act_keeps
    | (intro u hu)
    | with_reducible assumption
    | exact mask_sub (by decide) hm
    | with_reducible apply State.mirrorSend_keeps
    | (intro _)

theorem execMirrorFrameApply_keeps (f : MirFrame) (s : State) : OutKeeps 0x4020002 s (execMirrorFrameApply f s) := by
  unfold execMirrorFrameApply
  have hm : 0x4020002 &&& 0x4020002 = 0x4020002 := rfl
  have h0 := Keeps.refl 0x4020002 s
  repeat' first
    | with_reducible apply OutKeeps_next
    | with_reducible apply State.act_keeps
    | (intro u hu)
    | with_reducible assumption
    | exact mask_sub (by decide) hm
    | with_reducible apply State.mirrorApply_keeps
    | (intro _)

theorem execMirrorEndMarker_keeps (seq : Nat) (s : State) : OutKeeps 0x4000000 s (execMirrorEndMarker seq s) := by
  unfold execMirrorEndMarker
  have hm : 0x4000000 &&& 0x4000000 = 0x4000000 := rfl
  have h0 := Keeps.refl 0x4000000 s
  repeat' first
    | with_reducible apply OutKeeps_next
    | with_reducible apply State.act_keeps
    | (intro u hu)
    | with_reducible assumption
    | exact mask_sub (by decide) hm
    | with_reducible apply State.mirrorEnd_keeps
    | (intro _)

theorem execWindowCopyDone_keeps (k : Fin 4) (s : State) : OutKeeps 0x80004000000 s (execWindowCopyDone k s) := by
  unfold execWindowCopyDone
  have hm : 0x80004000000 &&& 0x80004000000 = 0x80004000000 := rfl
  have h0 := Keeps.refl 0x80004000000 s
  repeat' first
    | with_reducible apply OutKeeps_next
    | with_reducible apply State.act_keeps
    | (intro u hu)
    | with_reducible assumption
    | exact mask_sub (by decide) hm
    | with_reducible apply State.copyDone_keeps
    | (intro _)

/-! ### Machine/Pwr.lean -/

theorem execRegionGate_keeps (q : Fin 64) (cid : BitVec 32) (word : BitVec 32) (s : State) : OutKeeps 0x7FFFFE21927702 s (execRegionGate q cid word s) := by
  unfold execRegionGate
  have hm : 0x7FFFFE21927702 &&& 0x7FFFFE21927702 = 0x7FFFFE21927702 := rfl
  have h0 := Keeps.refl 0x7FFFFE21927702 s
  repeat' first
    | with_reducible apply OutKeeps_next
    | with_reducible apply State.command_keeps
    | (intro u hu)
    | with_reducible assumption
    | exact mask_sub (by decide) hm
    | with_reducible apply State.regionGate_keeps
    | with_reducible refine keeps_of_fst (by assumption) (State.regionGate_keeps ?_ ?_ ..)
    | (intro _)

theorem execRegionUngate_keeps (q : Fin 64) (cid : BitVec 32) (word : BitVec 32) (s : State) : OutKeeps 0x44820024000 s (execRegionUngate q cid word s) := by
  unfold execRegionUngate
  have hm : 0x44820024000 &&& 0x44820024000 = 0x44820024000 := rfl
  have h0 := Keeps.refl 0x44820024000 s
  repeat' first
    | with_reducible apply OutKeeps_next
    | with_reducible apply State.command_keeps
    | (intro u hu)
    | with_reducible assumption
    | exact mask_sub (by decide) hm
    | with_reducible apply State.regionUngate_keeps
    | with_reducible refine keeps_of_fst (by assumption) (State.regionUngate_keeps ?_ ?_ ..)
    | (intro _)

theorem execEmber_keeps (q : Fin 64) (cid : BitVec 32) (s : State) : OutKeeps 0x7FFFFE7FD7FFB6 s (execEmber q cid s) := by
  unfold execEmber
  have hm : 0x7FFFFE7FD7FFB6 &&& 0x7FFFFE7FD7FFB6 = 0x7FFFFE7FD7FFB6 := rfl
  have h0 := Keeps.refl 0x7FFFFE7FD7FFB6 s
  repeat' first
    | with_reducible apply OutKeeps_next
    | (extract_lets +onlyGivenNames x; refine keeps_cut (m := 0x7FFFFE7FD7FFB6) (z := s) (x := x) ?_ (fun hx => ?_); rotate_left; generalize x = y at hx ⊢; clear x; rotate_left; subst x)
    | (extract_lets +onlyGivenNames x; first | (subst x) | skip)
    | with_reducible assumption
    | exact mask_sub (by decide) hm
    | with_reducible apply State.enterEmber_keeps
    | with_reducible apply State.complete_keeps
    | with_reducible apply State.fetchCmd_keeps
    | (intro _)
    | with_reducible apply keeps_ite
    | (split)

theorem execEmberAutoEntry_keeps  (s : State) : OutKeeps 0x7FFFFE7FD7FFB6 s (execEmberAutoEntry s) := by
  unfold execEmberAutoEntry
  have hm : 0x7FFFFE7FD7FFB6 &&& 0x7FFFFE7FD7FFB6 = 0x7FFFFE7FD7FFB6 := rfl
  have h0 := Keeps.refl 0x7FFFFE7FD7FFB6 s
  repeat' first
    | with_reducible apply OutKeeps_next
    | with_reducible assumption
    | exact mask_sub (by decide) hm
    | with_reducible apply State.emberAuto_keeps
    | (intro _)

theorem execShutdown_keeps (q : Fin 64) (cid : BitVec 32) (s : State) : OutKeeps 0x7FFFFF7F17FFB6 s (execShutdown q cid s) := by
  unfold execShutdown
  have hm : 0x7FFFFF7F17FFB6 &&& 0x7FFFFF7F17FFB6 = 0x7FFFFF7F17FFB6 := rfl
  have h0 := Keeps.refl 0x7FFFFF7F17FFB6 s
  repeat' first
    | with_reducible apply OutKeeps_next
    | (extract_lets +onlyGivenNames x; refine keeps_cut (m := 0x7FFFFF7F17FFB6) (z := s) (x := x) ?_ (fun hx => ?_); rotate_left; generalize x = y at hx ⊢; clear x; rotate_left; subst x)
    | (extract_lets +onlyGivenNames x; first | (subst x) | skip)
    | with_reducible assumption
    | exact mask_sub (by decide) hm
    | with_reducible apply State.holdCore_keeps
    | with_reducible apply State.shutdown_keeps
    | with_reducible apply State.complete_keeps
    | with_reducible apply State.fetchCmd_keeps
    | (intro _)
    | with_reducible apply keeps_ite
    | (split)

theorem execProvision_keeps (q : Fin 64) (cid : BitVec 32) (owner qT : List Byte) (buflen : BitVec 32) (s : State) : OutKeeps 0x24860024000 s (execProvision q cid owner qT buflen s) := by
  unfold execProvision
  have hm : 0x24860024000 &&& 0x24860024000 = 0x24860024000 := rfl
  have h0 := Keeps.refl 0x24860024000 s
  repeat' first
    | with_reducible apply OutKeeps_next
    | with_reducible apply State.command_keeps
    | (intro u hu)
    | (extract_lets +onlyGivenNames x; refine keeps_cut (m := 0x24860024000) (z := s) (x := x) ?_ (fun hx => ?_); rotate_left; generalize x = y at hx ⊢; clear x; rotate_left; subst x)
    | (extract_lets +onlyGivenNames x; first | (subst x) | skip)
    | with_reducible assumption
    | exact mask_sub (by decide) hm
    | with_reducible refine State.provision_keeps ?_ ?_ (by assumption)
    | with_reducible apply State.output_keeps
    | (intro _)
    | with_reducible apply keeps_ite
    | with_reducible apply keeps_ite_fst
    | (split)
    | (with_reducible apply keeps_pair)

theorem execAdvanceField_keeps (q : Fin 64) (cid : BitVec 32) (s : State) : OutKeeps 0x4820024000 s (execAdvanceField q cid s) := by
  unfold execAdvanceField
  have hm : 0x4820024000 &&& 0x4820024000 = 0x4820024000 := rfl
  have h0 := Keeps.refl 0x4820024000 s
  repeat' first
    | with_reducible apply OutKeeps_next
    | with_reducible apply State.command_keeps
    | (intro u hu)
    | with_reducible assumption
    | exact mask_sub (by decide) hm
    | with_reducible apply State.advanceField_keeps
    | with_reducible refine keeps_of_fst (by assumption) (State.advanceField_keeps ?_ ?_ ..)
    | (intro _)

theorem execRetire_keeps (q : Fin 64) (cid : BitVec 32) (order : List Byte) (s : State) : OutKeeps 0x24862026000 s (execRetire q cid order s) := by
  unfold execRetire
  have hm : 0x24862026000 &&& 0x24862026000 = 0x24862026000 := rfl
  have h0 := Keeps.refl 0x24862026000 s
  repeat' first
    | with_reducible apply OutKeeps_next
    | with_reducible apply State.command_keeps
    | (intro u hu)
    | with_reducible assumption
    | exact mask_sub (by decide) hm
    | with_reducible apply State.retire_keeps
    | with_reducible refine keeps_of_fst (by assumption) (State.retire_keeps ?_ ?_ ..)
    | (intro _)

theorem execFuseProgram_keeps (q : Fin 64) (cid : BitVec 32) (item value : BitVec 16) (s : State) : OutKeeps 0xD4820024100 s (execFuseProgram q cid item value s) := by
  unfold execFuseProgram
  have hm : 0xD4820024100 &&& 0xD4820024100 = 0xD4820024100 := rfl
  have h0 := Keeps.refl 0xD4820024100 s
  repeat' first
    | with_reducible apply OutKeeps_next
    | with_reducible apply State.command_keeps
    | (intro u hu)
    | with_reducible assumption
    | exact mask_sub (by decide) hm
    | with_reducible apply State.fuseProgram_keeps
    | with_reducible refine keeps_of_fst (by assumption) (State.fuseProgram_keeps ?_ ?_ ..)
    | (intro _)

theorem execBootStore_keeps (q : Fin 64) (cid : BitVec 32) (mask : BitVec 128) (file : List Byte) (s : State) : OutKeeps 0x245820034080 s (execBootStore q cid mask file s) := by
  unfold execBootStore
  have hm : 0x245820034080 &&& 0x245820034080 = 0x245820034080 := rfl
  have h0 := Keeps.refl 0x245820034080 s
  repeat' first
    | with_reducible apply OutKeeps_next
    | with_reducible apply State.command_keeps
    | (intro u hu)
    | with_reducible assumption
    | exact mask_sub (by decide) hm
    | with_reducible apply State.bootStore_keeps
    | with_reducible refine keeps_of_fst (by assumption) (State.bootStore_keeps ?_ ?_ ..)
    | (intro _)

theorem execBootClear_keeps (q : Fin 64) (cid : BitVec 32) (s : State) : OutKeeps 0x44820024000 s (execBootClear q cid s) := by
  unfold execBootClear
  have hm : 0x44820024000 &&& 0x44820024000 = 0x44820024000 := rfl
  have h0 := Keeps.refl 0x44820024000 s
  repeat' first
    | with_reducible apply OutKeeps_next
    | with_reducible apply State.command_keeps
    | (intro u hu)
    | with_reducible assumption
    | exact mask_sub (by decide) hm
    | with_reducible apply State.bootClear_keeps
    | (intro _)
    | (with_reducible apply keeps_pair)

theorem execKeeperDomainStart_keeps (elapsed : BitVec 64) (s : State) : OutKeeps 0x7FFFFFFFFFFFFF s (execKeeperDomainStart elapsed s) := by
  unfold execKeeperDomainStart
  have hm : 0x7FFFFFFFFFFFFF &&& 0x7FFFFFFFFFFFFF = 0x7FFFFFFFFFFFFF := rfl
  have h0 := Keeps.refl 0x7FFFFFFFFFFFFF s
  repeat' first
    | with_reducible apply OutKeeps_next
    | with_reducible assumption
    | exact mask_sub (by decide) hm
    | with_reducible apply State.keeperStart_keeps
    | exact Reg.bit_all _ hm
    | (intro _)

theorem execResetNRelease_keeps (ddr0 ddr1 : BitVec 32) (failed : List (Fin 472)) (s : State) : OutKeeps 0x323F5066696382 s (execResetNRelease ddr0 ddr1 failed s) := by
  unfold execResetNRelease
  have hm : 0x323F5066696382 &&& 0x323F5066696382 = 0x323F5066696382 := rfl
  have h0 := Keeps.refl 0x323F5066696382 s
  repeat' first
    | with_reducible apply OutKeeps_next
    | with_reducible assumption
    | exact mask_sub (by decide) hm
    | with_reducible apply State.coreStart_keeps
    | (intro _)

theorem execCoreDieReset_keeps (byPin : Bool) (s : State) : OutKeeps 0x7FFFFE3F17FFB2 s (execCoreDieReset byPin s) := by
  unfold execCoreDieReset
  have hm : 0x7FFFFE3F17FFB2 &&& 0x7FFFFE3F17FFB2 = 0x7FFFFE3F17FFB2 := rfl
  have h0 := Keeps.refl 0x7FFFFE3F17FFB2 s
  repeat' first
    | with_reducible apply OutKeeps_next
    | with_reducible assumption
    | exact mask_sub (by decide) hm
    | with_reducible apply State.coreDieReset_keeps
    | (intro _)

theorem execVddClkLoss_keeps  (s : State) : OutKeeps 0x7FFFFEBF17FFB3 s (execVddClkLoss s) := by
  unfold execVddClkLoss
  have hm : 0x7FFFFEBF17FFB3 &&& 0x7FFFFEBF17FFB3 = 0x7FFFFEBF17FFB3 := rfl
  have h0 := Keeps.refl 0x7FFFFEBF17FFB3 s
  repeat' first
    | with_reducible apply OutKeeps_next
    | with_reducible assumption
    | exact mask_sub (by decide) hm
    | with_reducible apply State.clkLoss_keeps
    | (intro _)

theorem execVddKeepLoss_keeps  (s : State) : OutKeeps 0x7FFFFEBF17FFB3 s (execVddKeepLoss s) := by
  unfold execVddKeepLoss
  have hm : 0x7FFFFEBF17FFB3 &&& 0x7FFFFEBF17FFB3 = 0x7FFFFEBF17FFB3 := rfl
  have h0 := Keeps.refl 0x7FFFFEBF17FFB3 s
  repeat' first
    | with_reducible apply OutKeeps_next
    | with_reducible assumption
    | exact mask_sub (by decide) hm
    | with_reducible apply State.keepLoss_keeps
    | (intro _)

theorem execKeepResetNAssert_keeps  (s : State) : OutKeeps 0x7FFFFEBF17FFB3 s (execKeepResetNAssert s) := by
  unfold execKeepResetNAssert
  have hm : 0x7FFFFEBF17FFB3 &&& 0x7FFFFEBF17FFB3 = 0x7FFFFEBF17FFB3 := rfl
  have h0 := Keeps.refl 0x7FFFFEBF17FFB3 s
  repeat' first
    | with_reducible apply OutKeeps_next
    | with_reducible assumption
    | exact mask_sub (by decide) hm
    | with_reducible apply State.keepReset_keeps
    | (intro _)

theorem execPwrfailAssert_keeps  (s : State) : OutKeeps 0x1265862074084 s (execPwrfailAssert s) := by
  unfold execPwrfailAssert
  have hm : 0x1265862074084 &&& 0x1265862074084 = 0x1265862074084 := rfl
  have h0 := Keeps.refl 0x1265862074084 s
  repeat' first
    | with_reducible apply OutKeeps_next
    | with_reducible assumption
    | exact mask_sub (by decide) hm
    | with_reducible apply State.pwrfailOn_keeps
    | (intro _)

theorem execPwrfailRelease_keeps  (s : State) : OutKeeps 0x44020024000 s (execPwrfailRelease s) := by
  unfold execPwrfailRelease
  have hm : 0x44020024000 &&& 0x44020024000 = 0x44020024000 := rfl
  have h0 := Keeps.refl 0x44020024000 s
  repeat' first
    | with_reducible apply OutKeeps_next
    | with_reducible assumption
    | exact mask_sub (by decide) hm
    | with_reducible apply State.pwrfailOff_keeps
    | (intro _)

theorem execPcieLinkL0_keeps (busMaster msixEn : Bool) (s : State) : OutKeeps 0x20000 s (execPcieLinkL0 busMaster msixEn s) := by
  unfold execPcieLinkL0
  have hm : 0x20000 &&& 0x20000 = 0x20000 := rfl
  have h0 := Keeps.refl 0x20000 s
  repeat' first
    | with_reducible apply OutKeeps_next
    | with_reducible apply State.act_keeps
    | (intro u hu)
    | (extract_lets +onlyGivenNames x; refine keeps_cut (m := 0x20000) (z := s) (x := x) ?_ (fun hx => ?_); rotate_left; generalize x = y at hx ⊢; clear x; rotate_left; subst x)
    | (extract_lets +onlyGivenNames x; first | (subst x) | skip)
    | with_reducible assumption
    | exact mask_sub (by decide) hm
    | (intro _)
    | (simp only [keeps_mk]; refine keeps_upd ?_ ?_ ?_ ?_ ?_ ?_ ?_ ?_ ?_ ?_ ?_ ?_ ?_ ?_ ?_ ?_ ?_ ?_ ?_ ?_ ?_ ?_ ?_ ?_ ?_ ?_ ?_ ?_ ?_ ?_ ?_ ?_ ?_ ?_ ?_ ?_ ?_ <;> first | exact same_rfl | exact same_bit (by decide) hm | exact id | exact Fuses.Le.refl _ | exact fun _ => TimeVal.ofCount_ns _ | exact fun h => SMap.wf_filter _ h | exact fun _ => SMap.wf_nil _ _ | skip)
    | (with_reducible apply keeps_pair)

theorem execDebugLevelRequest_keeps (lvl : DebugLevel) (s : State) : OutKeeps 0x10064022002100 s (execDebugLevelRequest lvl s) := by
  unfold execDebugLevelRequest
  have hm : 0x10064022002100 &&& 0x10064022002100 = 0x10064022002100 := rfl
  have h0 := Keeps.refl 0x10064022002100 s
  repeat' first
    | with_reducible apply OutKeeps_next
    | with_reducible assumption
    | exact mask_sub (by decide) hm
    | with_reducible apply State.debugRequest_keeps
    | (intro _)

theorem execDbgDrop_keeps (v : BitVec 32) (s : State) : OutKeeps 0x7FFFFFFFFFFFFF s (execDbgDrop v s) := by
  unfold execDbgDrop
  have hm : 0x7FFFFFFFFFFFFF &&& 0x7FFFFFFFFFFFFF = 0x7FFFFFFFFFFFFF := rfl
  have h0 := Keeps.refl 0x7FFFFFFFFFFFFF s
  repeat' first
    | with_reducible apply OutKeeps_next
    | with_reducible assumption
    | exact mask_sub (by decide) hm
    | with_reducible apply State.hostRow_keeps
    | exact Reg.bit_all _ hm
    | (intro _)

theorem execSensorRead_keeps (clk core : Int) (quads : List Int) (s : State) : OutKeeps 0x7FFFFE3F37FFB2 s (execSensorRead clk core quads s) := by
  unfold execSensorRead
  have hm : 0x7FFFFE3F37FFB2 &&& 0x7FFFFE3F37FFB2 = 0x7FFFFE3F37FFB2 := rfl
  have h0 := Keeps.refl 0x7FFFFE3F37FFB2 s
  repeat' first
    | with_reducible apply OutKeeps_next
    | with_reducible apply State.act_keeps
    | (intro u hu)
    | with_reducible assumption
    | exact mask_sub (by decide) hm
    | with_reducible apply State.sensors_keeps
    | (intro _)

end Sys2Proof.Machine
end

