-- ==== Sys2Proof/Laws/State.lean ====
section
/-!
SUPPORT. Laws/State.lean: the fields of the state after each named update: those that the update leaves alone, by field, and the
reads of what it wrote.
-/
namespace Sys2Proof.Machine

/-! ### wr -/

@[simp] theorem State.wr_copy (s : State) (r : Reg) (i : Nat) (v : BitVec 32) : (s.wr r i v).copy = s.copy := rfl
@[simp] theorem State.wr_mem (s : State) (r : Reg) (i : Nat) (v : BitVec 32) : (s.wr r i v).mem = s.mem := rfl
@[simp] theorem State.wr_datum (s : State) (r : Reg) (i : Nat) (v : BitVec 32) : (s.wr r i v).datum = s.datum := rfl
@[simp] theorem State.wr_replica (s : State) (r : Reg) (i : Nat) (v : BitVec 32) : (s.wr r i v).replica = s.replica := rfl
@[simp] theorem State.wr_replicaOk (s : State) (r : Reg) (i : Nat) (v : BitVec 32) : (s.wr r i v).replicaOk = s.replicaOk := rfl
@[simp] theorem State.wr_d2dUp (s : State) (r : Reg) (i : Nat) (v : BitVec 32) : (s.wr r i v).d2dUp = s.d2dUp := rfl
@[simp] theorem State.wr_tick (s : State) (r : Reg) (i : Nat) (v : BitVec 32) : (s.wr r i v).tick = s.tick := rfl
@[simp] theorem State.wr_timeline (s : State) (r : Reg) (i : Nat) (v : BitVec 32) : (s.wr r i v).timeline = s.timeline := rfl
@[simp] theorem State.wr_threads (s : State) (r : Reg) (i : Nat) (v : BitVec 32) : (s.wr r i v).threads = s.threads := rfl
@[simp] theorem State.wr_images (s : State) (r : Reg) (i : Nat) (v : BitVec 32) : (s.wr r i v).images = s.images := rfl
@[simp] theorem State.wr_frames (s : State) (r : Reg) (i : Nat) (v : BitVec 32) : (s.wr r i v).frames = s.frames := rfl
@[simp] theorem State.wr_launches (s : State) (r : Reg) (i : Nat) (v : BitVec 32) : (s.wr r i v).launches = s.launches := rfl
@[simp] theorem State.wr_jobs (s : State) (r : Reg) (i : Nat) (v : BitVec 32) : (s.wr r i v).jobs = s.jobs := rfl
@[simp] theorem State.wr_derived (s : State) (r : Reg) (i : Nat) (v : BitVec 32) : (s.wr r i v).derived = s.derived := rfl
@[simp] theorem State.wr_irq (s : State) (r : Reg) (i : Nat) (v : BitVec 32) : (s.wr r i v).irq = s.irq := rfl
@[simp] theorem State.wr_dtm (s : State) (r : Reg) (i : Nat) (v : BitVec 32) : (s.wr r i v).dtm = s.dtm := rfl
@[simp] theorem State.wr_flt (s : State) (r : Reg) (i : Nat) (v : BitVec 32) : (s.wr r i v).flt = s.flt := rfl
@[simp] theorem State.wr_hst (s : State) (r : Reg) (i : Nat) (v : BitVec 32) : (s.wr r i v).hst = s.hst := rfl
@[simp] theorem State.wr_trv (s : State) (r : Reg) (i : Nat) (v : BitVec 32) : (s.wr r i v).trv = s.trv := rfl
@[simp] theorem State.wr_tic (s : State) (r : Reg) (i : Nat) (v : BitVec 32) : (s.wr r i v).tic = s.tic := rfl
@[simp] theorem State.wr_ens (s : State) (r : Reg) (i : Nat) (v : BitVec 32) : (s.wr r i v).ens = s.ens := rfl
@[simp] theorem State.wr_thm (s : State) (r : Reg) (i : Nat) (v : BitVec 32) : (s.wr r i v).thm = s.thm := rfl
@[simp] theorem State.wr_syn (s : State) (r : Reg) (i : Nat) (v : BitVec 32) : (s.wr r i v).syn = s.syn := rfl
@[simp] theorem State.wr_gns (s : State) (r : Reg) (i : Nat) (v : BitVec 32) : (s.wr r i v).gns = s.gns := rfl
@[simp] theorem State.wr_prt (s : State) (r : Reg) (i : Nat) (v : BitVec 32) : (s.wr r i v).prt = s.prt := rfl
@[simp] theorem State.wr_key (s : State) (r : Reg) (i : Nat) (v : BitVec 32) : (s.wr r i v).key = s.key := rfl
@[simp] theorem State.wr_mat (s : State) (r : Reg) (i : Nat) (v : BitVec 32) : (s.wr r i v).mat = s.mat := rfl
@[simp] theorem State.wr_pmc (s : State) (r : Reg) (i : Nat) (v : BitVec 32) : (s.wr r i v).pmc = s.pmc := rfl
@[simp] theorem State.wr_svc (s : State) (r : Reg) (i : Nat) (v : BitVec 32) : (s.wr r i v).svc = s.svc := rfl
@[simp] theorem State.wr_pwr (s : State) (r : Reg) (i : Nat) (v : BitVec 32) : (s.wr r i v).pwr = s.pwr := rfl
@[simp] theorem State.wr_cairn (s : State) (r : Reg) (i : Nat) (v : BitVec 32) : (s.wr r i v).cairn = s.cairn := rfl
@[simp] theorem State.wr_secDone (s : State) (r : Reg) (i : Nat) (v : BitVec 32) : (s.wr r i v).secDone = s.secDone := rfl
@[simp] theorem State.wr_freeCtr (s : State) (r : Reg) (i : Nat) (v : BitVec 32) : (s.wr r i v).freeCtr = s.freeCtr := rfl
@[simp] theorem State.wr_pending (s : State) (r : Reg) (i : Nat) (v : BitVec 32) : (s.wr r i v).pending = s.pending := rfl
@[simp] theorem State.thread_wr (s : State) (r : Reg) (i : Nat) (v : BitVec 32) (h : Nat) : (s.wr r i v).thread h = s.thread h := rfl

/-! ### setF -/

@[simp] theorem State.setF_copy (s : State) (f : Fld) (n i : Nat) : (s.setF f n i).copy = s.copy := rfl
@[simp] theorem State.setF_mem (s : State) (f : Fld) (n i : Nat) : (s.setF f n i).mem = s.mem := rfl
@[simp] theorem State.setF_datum (s : State) (f : Fld) (n i : Nat) : (s.setF f n i).datum = s.datum := rfl
@[simp] theorem State.setF_replica (s : State) (f : Fld) (n i : Nat) : (s.setF f n i).replica = s.replica := rfl
@[simp] theorem State.setF_replicaOk (s : State) (f : Fld) (n i : Nat) : (s.setF f n i).replicaOk = s.replicaOk := rfl
@[simp] theorem State.setF_d2dUp (s : State) (f : Fld) (n i : Nat) : (s.setF f n i).d2dUp = s.d2dUp := rfl
@[simp] theorem State.setF_tick (s : State) (f : Fld) (n i : Nat) : (s.setF f n i).tick = s.tick := rfl
@[simp] theorem State.setF_timeline (s : State) (f : Fld) (n i : Nat) : (s.setF f n i).timeline = s.timeline := rfl
@[simp] theorem State.setF_threads (s : State) (f : Fld) (n i : Nat) : (s.setF f n i).threads = s.threads := rfl
@[simp] theorem State.setF_images (s : State) (f : Fld) (n i : Nat) : (s.setF f n i).images = s.images := rfl
@[simp] theorem State.setF_frames (s : State) (f : Fld) (n i : Nat) : (s.setF f n i).frames = s.frames := rfl
@[simp] theorem State.setF_launches (s : State) (f : Fld) (n i : Nat) : (s.setF f n i).launches = s.launches := rfl
@[simp] theorem State.setF_jobs (s : State) (f : Fld) (n i : Nat) : (s.setF f n i).jobs = s.jobs := rfl
@[simp] theorem State.setF_derived (s : State) (f : Fld) (n i : Nat) : (s.setF f n i).derived = s.derived := rfl
@[simp] theorem State.setF_irq (s : State) (f : Fld) (n i : Nat) : (s.setF f n i).irq = s.irq := rfl
@[simp] theorem State.setF_dtm (s : State) (f : Fld) (n i : Nat) : (s.setF f n i).dtm = s.dtm := rfl
@[simp] theorem State.setF_flt (s : State) (f : Fld) (n i : Nat) : (s.setF f n i).flt = s.flt := rfl
@[simp] theorem State.setF_hst (s : State) (f : Fld) (n i : Nat) : (s.setF f n i).hst = s.hst := rfl
@[simp] theorem State.setF_trv (s : State) (f : Fld) (n i : Nat) : (s.setF f n i).trv = s.trv := rfl
@[simp] theorem State.setF_tic (s : State) (f : Fld) (n i : Nat) : (s.setF f n i).tic = s.tic := rfl
@[simp] theorem State.setF_ens (s : State) (f : Fld) (n i : Nat) : (s.setF f n i).ens = s.ens := rfl
@[simp] theorem State.setF_thm (s : State) (f : Fld) (n i : Nat) : (s.setF f n i).thm = s.thm := rfl
@[simp] theorem State.setF_syn (s : State) (f : Fld) (n i : Nat) : (s.setF f n i).syn = s.syn := rfl
@[simp] theorem State.setF_gns (s : State) (f : Fld) (n i : Nat) : (s.setF f n i).gns = s.gns := rfl
@[simp] theorem State.setF_prt (s : State) (f : Fld) (n i : Nat) : (s.setF f n i).prt = s.prt := rfl
@[simp] theorem State.setF_key (s : State) (f : Fld) (n i : Nat) : (s.setF f n i).key = s.key := rfl
@[simp] theorem State.setF_mat (s : State) (f : Fld) (n i : Nat) : (s.setF f n i).mat = s.mat := rfl
@[simp] theorem State.setF_pmc (s : State) (f : Fld) (n i : Nat) : (s.setF f n i).pmc = s.pmc := rfl
@[simp] theorem State.setF_svc (s : State) (f : Fld) (n i : Nat) : (s.setF f n i).svc = s.svc := rfl
@[simp] theorem State.setF_pwr (s : State) (f : Fld) (n i : Nat) : (s.setF f n i).pwr = s.pwr := rfl
@[simp] theorem State.setF_cairn (s : State) (f : Fld) (n i : Nat) : (s.setF f n i).cairn = s.cairn := rfl
@[simp] theorem State.setF_secDone (s : State) (f : Fld) (n i : Nat) : (s.setF f n i).secDone = s.secDone := rfl
@[simp] theorem State.setF_freeCtr (s : State) (f : Fld) (n i : Nat) : (s.setF f n i).freeCtr = s.freeCtr := rfl
@[simp] theorem State.setF_pending (s : State) (f : Fld) (n i : Nat) : (s.setF f n i).pending = s.pending := rfl
@[simp] theorem State.thread_setF (s : State) (f : Fld) (n i : Nat) (h : Nat) : (s.setF f n i).thread h = s.thread h := rfl

/-! ### setB -/

@[simp] theorem State.setB_copy (s : State) (f : Fld) (b : Bool) (i : Nat) : (s.setB f b i).copy = s.copy := rfl
@[simp] theorem State.setB_mem (s : State) (f : Fld) (b : Bool) (i : Nat) : (s.setB f b i).mem = s.mem := rfl
@[simp] theorem State.setB_datum (s : State) (f : Fld) (b : Bool) (i : Nat) : (s.setB f b i).datum = s.datum := rfl
@[simp] theorem State.setB_replica (s : State) (f : Fld) (b : Bool) (i : Nat) : (s.setB f b i).replica = s.replica := rfl
@[simp] theorem State.setB_replicaOk (s : State) (f : Fld) (b : Bool) (i : Nat) : (s.setB f b i).replicaOk = s.replicaOk := rfl
@[simp] theorem State.setB_d2dUp (s : State) (f : Fld) (b : Bool) (i : Nat) : (s.setB f b i).d2dUp = s.d2dUp := rfl
@[simp] theorem State.setB_tick (s : State) (f : Fld) (b : Bool) (i : Nat) : (s.setB f b i).tick = s.tick := rfl
@[simp] theorem State.setB_timeline (s : State) (f : Fld) (b : Bool) (i : Nat) : (s.setB f b i).timeline = s.timeline := rfl
@[simp] theorem State.setB_threads (s : State) (f : Fld) (b : Bool) (i : Nat) : (s.setB f b i).threads = s.threads := rfl
@[simp] theorem State.setB_images (s : State) (f : Fld) (b : Bool) (i : Nat) : (s.setB f b i).images = s.images := rfl
@[simp] theorem State.setB_frames (s : State) (f : Fld) (b : Bool) (i : Nat) : (s.setB f b i).frames = s.frames := rfl
@[simp] theorem State.setB_launches (s : State) (f : Fld) (b : Bool) (i : Nat) : (s.setB f b i).launches = s.launches := rfl
@[simp] theorem State.setB_jobs (s : State) (f : Fld) (b : Bool) (i : Nat) : (s.setB f b i).jobs = s.jobs := rfl
@[simp] theorem State.setB_derived (s : State) (f : Fld) (b : Bool) (i : Nat) : (s.setB f b i).derived = s.derived := rfl
@[simp] theorem State.setB_irq (s : State) (f : Fld) (b : Bool) (i : Nat) : (s.setB f b i).irq = s.irq := rfl
@[simp] theorem State.setB_dtm (s : State) (f : Fld) (b : Bool) (i : Nat) : (s.setB f b i).dtm = s.dtm := rfl
@[simp] theorem State.setB_flt (s : State) (f : Fld) (b : Bool) (i : Nat) : (s.setB f b i).flt = s.flt := rfl
@[simp] theorem State.setB_hst (s : State) (f : Fld) (b : Bool) (i : Nat) : (s.setB f b i).hst = s.hst := rfl
@[simp] theorem State.setB_trv (s : State) (f : Fld) (b : Bool) (i : Nat) : (s.setB f b i).trv = s.trv := rfl
@[simp] theorem State.setB_tic (s : State) (f : Fld) (b : Bool) (i : Nat) : (s.setB f b i).tic = s.tic := rfl
@[simp] theorem State.setB_ens (s : State) (f : Fld) (b : Bool) (i : Nat) : (s.setB f b i).ens = s.ens := rfl
@[simp] theorem State.setB_thm (s : State) (f : Fld) (b : Bool) (i : Nat) : (s.setB f b i).thm = s.thm := rfl
@[simp] theorem State.setB_syn (s : State) (f : Fld) (b : Bool) (i : Nat) : (s.setB f b i).syn = s.syn := rfl
@[simp] theorem State.setB_gns (s : State) (f : Fld) (b : Bool) (i : Nat) : (s.setB f b i).gns = s.gns := rfl
@[simp] theorem State.setB_prt (s : State) (f : Fld) (b : Bool) (i : Nat) : (s.setB f b i).prt = s.prt := rfl
@[simp] theorem State.setB_key (s : State) (f : Fld) (b : Bool) (i : Nat) : (s.setB f b i).key = s.key := rfl
@[simp] theorem State.setB_mat (s : State) (f : Fld) (b : Bool) (i : Nat) : (s.setB f b i).mat = s.mat := rfl
@[simp] theorem State.setB_pmc (s : State) (f : Fld) (b : Bool) (i : Nat) : (s.setB f b i).pmc = s.pmc := rfl
@[simp] theorem State.setB_svc (s : State) (f : Fld) (b : Bool) (i : Nat) : (s.setB f b i).svc = s.svc := rfl
@[simp] theorem State.setB_pwr (s : State) (f : Fld) (b : Bool) (i : Nat) : (s.setB f b i).pwr = s.pwr := rfl
@[simp] theorem State.setB_cairn (s : State) (f : Fld) (b : Bool) (i : Nat) : (s.setB f b i).cairn = s.cairn := rfl
@[simp] theorem State.setB_secDone (s : State) (f : Fld) (b : Bool) (i : Nat) : (s.setB f b i).secDone = s.secDone := rfl
@[simp] theorem State.setB_freeCtr (s : State) (f : Fld) (b : Bool) (i : Nat) : (s.setB f b i).freeCtr = s.freeCtr := rfl
@[simp] theorem State.setB_pending (s : State) (f : Fld) (b : Bool) (i : Nat) : (s.setB f b i).pending = s.pending := rfl
@[simp] theorem State.thread_setB (s : State) (f : Fld) (b : Bool) (i : Nat) (h : Nat) : (s.setB f b i).thread h = s.thread h := rfl

/-! ### bump -/

@[simp] theorem State.bump_copy (s : State) (r : Reg) (i : Nat) : (s.bump r i).copy = s.copy := rfl
@[simp] theorem State.bump_mem (s : State) (r : Reg) (i : Nat) : (s.bump r i).mem = s.mem := rfl
@[simp] theorem State.bump_datum (s : State) (r : Reg) (i : Nat) : (s.bump r i).datum = s.datum := rfl
@[simp] theorem State.bump_replica (s : State) (r : Reg) (i : Nat) : (s.bump r i).replica = s.replica := rfl
@[simp] theorem State.bump_replicaOk (s : State) (r : Reg) (i : Nat) : (s.bump r i).replicaOk = s.replicaOk := rfl
@[simp] theorem State.bump_d2dUp (s : State) (r : Reg) (i : Nat) : (s.bump r i).d2dUp = s.d2dUp := rfl
@[simp] theorem State.bump_tick (s : State) (r : Reg) (i : Nat) : (s.bump r i).tick = s.tick := rfl
@[simp] theorem State.bump_timeline (s : State) (r : Reg) (i : Nat) : (s.bump r i).timeline = s.timeline := rfl
@[simp] theorem State.bump_threads (s : State) (r : Reg) (i : Nat) : (s.bump r i).threads = s.threads := rfl
@[simp] theorem State.bump_images (s : State) (r : Reg) (i : Nat) : (s.bump r i).images = s.images := rfl
@[simp] theorem State.bump_frames (s : State) (r : Reg) (i : Nat) : (s.bump r i).frames = s.frames := rfl
@[simp] theorem State.bump_launches (s : State) (r : Reg) (i : Nat) : (s.bump r i).launches = s.launches := rfl
@[simp] theorem State.bump_jobs (s : State) (r : Reg) (i : Nat) : (s.bump r i).jobs = s.jobs := rfl
@[simp] theorem State.bump_derived (s : State) (r : Reg) (i : Nat) : (s.bump r i).derived = s.derived := rfl
@[simp] theorem State.bump_irq (s : State) (r : Reg) (i : Nat) : (s.bump r i).irq = s.irq := rfl
@[simp] theorem State.bump_dtm (s : State) (r : Reg) (i : Nat) : (s.bump r i).dtm = s.dtm := rfl
@[simp] theorem State.bump_flt (s : State) (r : Reg) (i : Nat) : (s.bump r i).flt = s.flt := rfl
@[simp] theorem State.bump_hst (s : State) (r : Reg) (i : Nat) : (s.bump r i).hst = s.hst := rfl
@[simp] theorem State.bump_trv (s : State) (r : Reg) (i : Nat) : (s.bump r i).trv = s.trv := rfl
@[simp] theorem State.bump_tic (s : State) (r : Reg) (i : Nat) : (s.bump r i).tic = s.tic := rfl
@[simp] theorem State.bump_ens (s : State) (r : Reg) (i : Nat) : (s.bump r i).ens = s.ens := rfl
@[simp] theorem State.bump_thm (s : State) (r : Reg) (i : Nat) : (s.bump r i).thm = s.thm := rfl
@[simp] theorem State.bump_syn (s : State) (r : Reg) (i : Nat) : (s.bump r i).syn = s.syn := rfl
@[simp] theorem State.bump_gns (s : State) (r : Reg) (i : Nat) : (s.bump r i).gns = s.gns := rfl
@[simp] theorem State.bump_prt (s : State) (r : Reg) (i : Nat) : (s.bump r i).prt = s.prt := rfl
@[simp] theorem State.bump_key (s : State) (r : Reg) (i : Nat) : (s.bump r i).key = s.key := rfl
@[simp] theorem State.bump_mat (s : State) (r : Reg) (i : Nat) : (s.bump r i).mat = s.mat := rfl
@[simp] theorem State.bump_pmc (s : State) (r : Reg) (i : Nat) : (s.bump r i).pmc = s.pmc := rfl
@[simp] theorem State.bump_svc (s : State) (r : Reg) (i : Nat) : (s.bump r i).svc = s.svc := rfl
@[simp] theorem State.bump_pwr (s : State) (r : Reg) (i : Nat) : (s.bump r i).pwr = s.pwr := rfl
@[simp] theorem State.bump_cairn (s : State) (r : Reg) (i : Nat) : (s.bump r i).cairn = s.cairn := rfl
@[simp] theorem State.bump_secDone (s : State) (r : Reg) (i : Nat) : (s.bump r i).secDone = s.secDone := rfl
@[simp] theorem State.bump_freeCtr (s : State) (r : Reg) (i : Nat) : (s.bump r i).freeCtr = s.freeCtr := rfl
@[simp] theorem State.bump_pending (s : State) (r : Reg) (i : Nat) : (s.bump r i).pending = s.pending := rfl
@[simp] theorem State.thread_bump (s : State) (r : Reg) (i : Nat) (h : Nat) : (s.bump r i).thread h = s.thread h := rfl

/-! ### setPair -/

@[simp] theorem State.setPair_copy (s : State) (h l : Reg) (v : BitVec 64) (i : Nat) : (s.setPair h l v i).copy = s.copy := rfl
@[simp] theorem State.setPair_mem (s : State) (h l : Reg) (v : BitVec 64) (i : Nat) : (s.setPair h l v i).mem = s.mem := rfl
@[simp] theorem State.setPair_datum (s : State) (h l : Reg) (v : BitVec 64) (i : Nat) : (s.setPair h l v i).datum = s.datum := rfl
@[simp] theorem State.setPair_replica (s : State) (h l : Reg) (v : BitVec 64) (i : Nat) : (s.setPair h l v i).replica = s.replica := rfl
@[simp] theorem State.setPair_replicaOk (s : State) (h l : Reg) (v : BitVec 64) (i : Nat) : (s.setPair h l v i).replicaOk = s.replicaOk := rfl
@[simp] theorem State.setPair_d2dUp (s : State) (h l : Reg) (v : BitVec 64) (i : Nat) : (s.setPair h l v i).d2dUp = s.d2dUp := rfl
@[simp] theorem State.setPair_tick (s : State) (h l : Reg) (v : BitVec 64) (i : Nat) : (s.setPair h l v i).tick = s.tick := rfl
@[simp] theorem State.setPair_timeline (s : State) (h l : Reg) (v : BitVec 64) (i : Nat) : (s.setPair h l v i).timeline = s.timeline := rfl
@[simp] theorem State.setPair_threads (s : State) (h l : Reg) (v : BitVec 64) (i : Nat) : (s.setPair h l v i).threads = s.threads := rfl
@[simp] theorem State.setPair_images (s : State) (h l : Reg) (v : BitVec 64) (i : Nat) : (s.setPair h l v i).images = s.images := rfl
@[simp] theorem State.setPair_frames (s : State) (h l : Reg) (v : BitVec 64) (i : Nat) : (s.setPair h l v i).frames = s.frames := rfl
@[simp] theorem State.setPair_launches (s : State) (h l : Reg) (v : BitVec 64) (i : Nat) : (s.setPair h l v i).launches = s.launches := rfl
@[simp] theorem State.setPair_jobs (s : State) (h l : Reg) (v : BitVec 64) (i : Nat) : (s.setPair h l v i).jobs = s.jobs := rfl
@[simp] theorem State.setPair_derived (s : State) (h l : Reg) (v : BitVec 64) (i : Nat) : (s.setPair h l v i).derived = s.derived := rfl
@[simp] theorem State.setPair_irq (s : State) (h l : Reg) (v : BitVec 64) (i : Nat) : (s.setPair h l v i).irq = s.irq := rfl
@[simp] theorem State.setPair_dtm (s : State) (h l : Reg) (v : BitVec 64) (i : Nat) : (s.setPair h l v i).dtm = s.dtm := rfl
@[simp] theorem State.setPair_flt (s : State) (h l : Reg) (v : BitVec 64) (i : Nat) : (s.setPair h l v i).flt = s.flt := rfl
@[simp] theorem State.setPair_hst (s : State) (h l : Reg) (v : BitVec 64) (i : Nat) : (s.setPair h l v i).hst = s.hst := rfl
@[simp] theorem State.setPair_trv (s : State) (h l : Reg) (v : BitVec 64) (i : Nat) : (s.setPair h l v i).trv = s.trv := rfl
@[simp] theorem State.setPair_tic (s : State) (h l : Reg) (v : BitVec 64) (i : Nat) : (s.setPair h l v i).tic = s.tic := rfl
@[simp] theorem State.setPair_ens (s : State) (h l : Reg) (v : BitVec 64) (i : Nat) : (s.setPair h l v i).ens = s.ens := rfl
@[simp] theorem State.setPair_thm (s : State) (h l : Reg) (v : BitVec 64) (i : Nat) : (s.setPair h l v i).thm = s.thm := rfl
@[simp] theorem State.setPair_syn (s : State) (h l : Reg) (v : BitVec 64) (i : Nat) : (s.setPair h l v i).syn = s.syn := rfl
@[simp] theorem State.setPair_gns (s : State) (h l : Reg) (v : BitVec 64) (i : Nat) : (s.setPair h l v i).gns = s.gns := rfl
@[simp] theorem State.setPair_prt (s : State) (h l : Reg) (v : BitVec 64) (i : Nat) : (s.setPair h l v i).prt = s.prt := rfl
@[simp] theorem State.setPair_key (s : State) (h l : Reg) (v : BitVec 64) (i : Nat) : (s.setPair h l v i).key = s.key := rfl
@[simp] theorem State.setPair_mat (s : State) (h l : Reg) (v : BitVec 64) (i : Nat) : (s.setPair h l v i).mat = s.mat := rfl
@[simp] theorem State.setPair_pmc (s : State) (h l : Reg) (v : BitVec 64) (i : Nat) : (s.setPair h l v i).pmc = s.pmc := rfl
@[simp] theorem State.setPair_svc (s : State) (h l : Reg) (v : BitVec 64) (i : Nat) : (s.setPair h l v i).svc = s.svc := rfl
@[simp] theorem State.setPair_pwr (s : State) (h l : Reg) (v : BitVec 64) (i : Nat) : (s.setPair h l v i).pwr = s.pwr := rfl
@[simp] theorem State.setPair_cairn (s : State) (h l : Reg) (v : BitVec 64) (i : Nat) : (s.setPair h l v i).cairn = s.cairn := rfl
@[simp] theorem State.setPair_secDone (s : State) (h l : Reg) (v : BitVec 64) (i : Nat) : (s.setPair h l v i).secDone = s.secDone := rfl
@[simp] theorem State.setPair_freeCtr (s : State) (h l : Reg) (v : BitVec 64) (i : Nat) : (s.setPair h l v i).freeCtr = s.freeCtr := rfl
@[simp] theorem State.setPair_pending (s : State) (h l : Reg) (v : BitVec 64) (i : Nat) : (s.setPair h l v i).pending = s.pending := rfl
@[simp] theorem State.thread_setPair (s : State) (h l : Reg) (v : BitVec 64) (i : Nat) (k : Nat) : (s.setPair h l v i).thread k = s.thread k := rfl

/-! ### w1c -/

@[simp] theorem State.w1c_copy (s : State) (r : Reg) (i : Nat) (v : BitVec 32) : (s.w1c r i v).copy = s.copy := rfl
@[simp] theorem State.w1c_mem (s : State) (r : Reg) (i : Nat) (v : BitVec 32) : (s.w1c r i v).mem = s.mem := rfl
@[simp] theorem State.w1c_datum (s : State) (r : Reg) (i : Nat) (v : BitVec 32) : (s.w1c r i v).datum = s.datum := rfl
@[simp] theorem State.w1c_replica (s : State) (r : Reg) (i : Nat) (v : BitVec 32) : (s.w1c r i v).replica = s.replica := rfl
@[simp] theorem State.w1c_replicaOk (s : State) (r : Reg) (i : Nat) (v : BitVec 32) : (s.w1c r i v).replicaOk = s.replicaOk := rfl
@[simp] theorem State.w1c_d2dUp (s : State) (r : Reg) (i : Nat) (v : BitVec 32) : (s.w1c r i v).d2dUp = s.d2dUp := rfl
@[simp] theorem State.w1c_tick (s : State) (r : Reg) (i : Nat) (v : BitVec 32) : (s.w1c r i v).tick = s.tick := rfl
@[simp] theorem State.w1c_timeline (s : State) (r : Reg) (i : Nat) (v : BitVec 32) : (s.w1c r i v).timeline = s.timeline := rfl
@[simp] theorem State.w1c_threads (s : State) (r : Reg) (i : Nat) (v : BitVec 32) : (s.w1c r i v).threads = s.threads := rfl
@[simp] theorem State.w1c_images (s : State) (r : Reg) (i : Nat) (v : BitVec 32) : (s.w1c r i v).images = s.images := rfl
@[simp] theorem State.w1c_frames (s : State) (r : Reg) (i : Nat) (v : BitVec 32) : (s.w1c r i v).frames = s.frames := rfl
@[simp] theorem State.w1c_launches (s : State) (r : Reg) (i : Nat) (v : BitVec 32) : (s.w1c r i v).launches = s.launches := rfl
@[simp] theorem State.w1c_jobs (s : State) (r : Reg) (i : Nat) (v : BitVec 32) : (s.w1c r i v).jobs = s.jobs := rfl
@[simp] theorem State.w1c_derived (s : State) (r : Reg) (i : Nat) (v : BitVec 32) : (s.w1c r i v).derived = s.derived := rfl
@[simp] theorem State.w1c_irq (s : State) (r : Reg) (i : Nat) (v : BitVec 32) : (s.w1c r i v).irq = s.irq := rfl
@[simp] theorem State.w1c_dtm (s : State) (r : Reg) (i : Nat) (v : BitVec 32) : (s.w1c r i v).dtm = s.dtm := rfl
@[simp] theorem State.w1c_flt (s : State) (r : Reg) (i : Nat) (v : BitVec 32) : (s.w1c r i v).flt = s.flt := rfl
@[simp] theorem State.w1c_hst (s : State) (r : Reg) (i : Nat) (v : BitVec 32) : (s.w1c r i v).hst = s.hst := rfl
@[simp] theorem State.w1c_trv (s : State) (r : Reg) (i : Nat) (v : BitVec 32) : (s.w1c r i v).trv = s.trv := rfl
@[simp] theorem State.w1c_tic (s : State) (r : Reg) (i : Nat) (v : BitVec 32) : (s.w1c r i v).tic = s.tic := rfl
@[simp] theorem State.w1c_ens (s : State) (r : Reg) (i : Nat) (v : BitVec 32) : (s.w1c r i v).ens = s.ens := rfl
@[simp] theorem State.w1c_thm (s : State) (r : Reg) (i : Nat) (v : BitVec 32) : (s.w1c r i v).thm = s.thm := rfl
@[simp] theorem State.w1c_syn (s : State) (r : Reg) (i : Nat) (v : BitVec 32) : (s.w1c r i v).syn = s.syn := rfl
@[simp] theorem State.w1c_gns (s : State) (r : Reg) (i : Nat) (v : BitVec 32) : (s.w1c r i v).gns = s.gns := rfl
@[simp] theorem State.w1c_prt (s : State) (r : Reg) (i : Nat) (v : BitVec 32) : (s.w1c r i v).prt = s.prt := rfl
@[simp] theorem State.w1c_key (s : State) (r : Reg) (i : Nat) (v : BitVec 32) : (s.w1c r i v).key = s.key := rfl
@[simp] theorem State.w1c_mat (s : State) (r : Reg) (i : Nat) (v : BitVec 32) : (s.w1c r i v).mat = s.mat := rfl
@[simp] theorem State.w1c_pmc (s : State) (r : Reg) (i : Nat) (v : BitVec 32) : (s.w1c r i v).pmc = s.pmc := rfl
@[simp] theorem State.w1c_svc (s : State) (r : Reg) (i : Nat) (v : BitVec 32) : (s.w1c r i v).svc = s.svc := rfl
@[simp] theorem State.w1c_pwr (s : State) (r : Reg) (i : Nat) (v : BitVec 32) : (s.w1c r i v).pwr = s.pwr := rfl
@[simp] theorem State.w1c_cairn (s : State) (r : Reg) (i : Nat) (v : BitVec 32) : (s.w1c r i v).cairn = s.cairn := rfl
@[simp] theorem State.w1c_secDone (s : State) (r : Reg) (i : Nat) (v : BitVec 32) : (s.w1c r i v).secDone = s.secDone := rfl
@[simp] theorem State.w1c_freeCtr (s : State) (r : Reg) (i : Nat) (v : BitVec 32) : (s.w1c r i v).freeCtr = s.freeCtr := rfl
@[simp] theorem State.w1c_pending (s : State) (r : Reg) (i : Nat) (v : BitVec 32) : (s.w1c r i v).pending = s.pending := rfl
@[simp] theorem State.thread_w1c (s : State) (r : Reg) (i : Nat) (v : BitVec 32) (h : Nat) : (s.w1c r i v).thread h = s.thread h := rfl

/-! ### wrRw -/

@[simp] theorem State.wrRw_copy (s : State) (r : Reg) (i : Nat) (v : BitVec 32) : (s.wrRw r i v).copy = s.copy := rfl
@[simp] theorem State.wrRw_mem (s : State) (r : Reg) (i : Nat) (v : BitVec 32) : (s.wrRw r i v).mem = s.mem := rfl
@[simp] theorem State.wrRw_datum (s : State) (r : Reg) (i : Nat) (v : BitVec 32) : (s.wrRw r i v).datum = s.datum := rfl
@[simp] theorem State.wrRw_replica (s : State) (r : Reg) (i : Nat) (v : BitVec 32) : (s.wrRw r i v).replica = s.replica := rfl
@[simp] theorem State.wrRw_replicaOk (s : State) (r : Reg) (i : Nat) (v : BitVec 32) : (s.wrRw r i v).replicaOk = s.replicaOk := rfl
@[simp] theorem State.wrRw_d2dUp (s : State) (r : Reg) (i : Nat) (v : BitVec 32) : (s.wrRw r i v).d2dUp = s.d2dUp := rfl
@[simp] theorem State.wrRw_tick (s : State) (r : Reg) (i : Nat) (v : BitVec 32) : (s.wrRw r i v).tick = s.tick := rfl
@[simp] theorem State.wrRw_timeline (s : State) (r : Reg) (i : Nat) (v : BitVec 32) : (s.wrRw r i v).timeline = s.timeline := rfl
@[simp] theorem State.wrRw_threads (s : State) (r : Reg) (i : Nat) (v : BitVec 32) : (s.wrRw r i v).threads = s.threads := rfl
@[simp] theorem State.wrRw_images (s : State) (r : Reg) (i : Nat) (v : BitVec 32) : (s.wrRw r i v).images = s.images := rfl
@[simp] theorem State.wrRw_frames (s : State) (r : Reg) (i : Nat) (v : BitVec 32) : (s.wrRw r i v).frames = s.frames := rfl
@[simp] theorem State.wrRw_launches (s : State) (r : Reg) (i : Nat) (v : BitVec 32) : (s.wrRw r i v).launches = s.launches := rfl
@[simp] theorem State.wrRw_jobs (s : State) (r : Reg) (i : Nat) (v : BitVec 32) : (s.wrRw r i v).jobs = s.jobs := rfl
@[simp] theorem State.wrRw_derived (s : State) (r : Reg) (i : Nat) (v : BitVec 32) : (s.wrRw r i v).derived = s.derived := rfl
@[simp] theorem State.wrRw_irq (s : State) (r : Reg) (i : Nat) (v : BitVec 32) : (s.wrRw r i v).irq = s.irq := rfl
@[simp] theorem State.wrRw_dtm (s : State) (r : Reg) (i : Nat) (v : BitVec 32) : (s.wrRw r i v).dtm = s.dtm := rfl
@[simp] theorem State.wrRw_flt (s : State) (r : Reg) (i : Nat) (v : BitVec 32) : (s.wrRw r i v).flt = s.flt := rfl
@[simp] theorem State.wrRw_hst (s : State) (r : Reg) (i : Nat) (v : BitVec 32) : (s.wrRw r i v).hst = s.hst := rfl
@[simp] theorem State.wrRw_trv (s : State) (r : Reg) (i : Nat) (v : BitVec 32) : (s.wrRw r i v).trv = s.trv := rfl
@[simp] theorem State.wrRw_tic (s : State) (r : Reg) (i : Nat) (v : BitVec 32) : (s.wrRw r i v).tic = s.tic := rfl
@[simp] theorem State.wrRw_ens (s : State) (r : Reg) (i : Nat) (v : BitVec 32) : (s.wrRw r i v).ens = s.ens := rfl
@[simp] theorem State.wrRw_thm (s : State) (r : Reg) (i : Nat) (v : BitVec 32) : (s.wrRw r i v).thm = s.thm := rfl
@[simp] theorem State.wrRw_syn (s : State) (r : Reg) (i : Nat) (v : BitVec 32) : (s.wrRw r i v).syn = s.syn := rfl
@[simp] theorem State.wrRw_gns (s : State) (r : Reg) (i : Nat) (v : BitVec 32) : (s.wrRw r i v).gns = s.gns := rfl
@[simp] theorem State.wrRw_prt (s : State) (r : Reg) (i : Nat) (v : BitVec 32) : (s.wrRw r i v).prt = s.prt := rfl
@[simp] theorem State.wrRw_key (s : State) (r : Reg) (i : Nat) (v : BitVec 32) : (s.wrRw r i v).key = s.key := rfl
@[simp] theorem State.wrRw_mat (s : State) (r : Reg) (i : Nat) (v : BitVec 32) : (s.wrRw r i v).mat = s.mat := rfl
@[simp] theorem State.wrRw_pmc (s : State) (r : Reg) (i : Nat) (v : BitVec 32) : (s.wrRw r i v).pmc = s.pmc := rfl
@[simp] theorem State.wrRw_svc (s : State) (r : Reg) (i : Nat) (v : BitVec 32) : (s.wrRw r i v).svc = s.svc := rfl
@[simp] theorem State.wrRw_pwr (s : State) (r : Reg) (i : Nat) (v : BitVec 32) : (s.wrRw r i v).pwr = s.pwr := rfl
@[simp] theorem State.wrRw_cairn (s : State) (r : Reg) (i : Nat) (v : BitVec 32) : (s.wrRw r i v).cairn = s.cairn := rfl
@[simp] theorem State.wrRw_secDone (s : State) (r : Reg) (i : Nat) (v : BitVec 32) : (s.wrRw r i v).secDone = s.secDone := rfl
@[simp] theorem State.wrRw_freeCtr (s : State) (r : Reg) (i : Nat) (v : BitVec 32) : (s.wrRw r i v).freeCtr = s.freeCtr := rfl
@[simp] theorem State.wrRw_pending (s : State) (r : Reg) (i : Nat) (v : BitVec 32) : (s.wrRw r i v).pending = s.pending := rfl
@[simp] theorem State.thread_wrRw (s : State) (r : Reg) (i : Nat) (v : BitVec 32) (h : Nat) : (s.wrRw r i v).thread h = s.thread h := rfl

/-! ### setOctet -/

@[simp] theorem State.setOctet_regs (s : State) (a : Nat) (v : Byte) : (s.setOctet a v).regs = s.regs := rfl
@[simp] theorem State.setOctet_copy (s : State) (a : Nat) (v : Byte) : (s.setOctet a v).copy = s.copy := rfl
@[simp] theorem State.setOctet_datum (s : State) (a : Nat) (v : Byte) : (s.setOctet a v).datum = s.datum := rfl
@[simp] theorem State.setOctet_replica (s : State) (a : Nat) (v : Byte) : (s.setOctet a v).replica = s.replica := rfl
@[simp] theorem State.setOctet_replicaOk (s : State) (a : Nat) (v : Byte) : (s.setOctet a v).replicaOk = s.replicaOk := rfl
@[simp] theorem State.setOctet_d2dUp (s : State) (a : Nat) (v : Byte) : (s.setOctet a v).d2dUp = s.d2dUp := rfl
@[simp] theorem State.setOctet_tick (s : State) (a : Nat) (v : Byte) : (s.setOctet a v).tick = s.tick := rfl
@[simp] theorem State.setOctet_timeline (s : State) (a : Nat) (v : Byte) : (s.setOctet a v).timeline = s.timeline := rfl
@[simp] theorem State.setOctet_threads (s : State) (a : Nat) (v : Byte) : (s.setOctet a v).threads = s.threads := rfl
@[simp] theorem State.setOctet_images (s : State) (a : Nat) (v : Byte) : (s.setOctet a v).images = s.images := rfl
@[simp] theorem State.setOctet_frames (s : State) (a : Nat) (v : Byte) : (s.setOctet a v).frames = s.frames := rfl
@[simp] theorem State.setOctet_launches (s : State) (a : Nat) (v : Byte) : (s.setOctet a v).launches = s.launches := rfl
@[simp] theorem State.setOctet_jobs (s : State) (a : Nat) (v : Byte) : (s.setOctet a v).jobs = s.jobs := rfl
@[simp] theorem State.setOctet_derived (s : State) (a : Nat) (v : Byte) : (s.setOctet a v).derived = s.derived := rfl
@[simp] theorem State.setOctet_irq (s : State) (a : Nat) (v : Byte) : (s.setOctet a v).irq = s.irq := rfl
@[simp] theorem State.setOctet_dtm (s : State) (a : Nat) (v : Byte) : (s.setOctet a v).dtm = s.dtm := rfl
@[simp] theorem State.setOctet_flt (s : State) (a : Nat) (v : Byte) : (s.setOctet a v).flt = s.flt := rfl
@[simp] theorem State.setOctet_hst (s : State) (a : Nat) (v : Byte) : (s.setOctet a v).hst = s.hst := rfl
@[simp] theorem State.setOctet_trv (s : State) (a : Nat) (v : Byte) : (s.setOctet a v).trv = s.trv := rfl
@[simp] theorem State.setOctet_tic (s : State) (a : Nat) (v : Byte) : (s.setOctet a v).tic = s.tic := rfl
@[simp] theorem State.setOctet_ens (s : State) (a : Nat) (v : Byte) : (s.setOctet a v).ens = s.ens := rfl
@[simp] theorem State.setOctet_thm (s : State) (a : Nat) (v : Byte) : (s.setOctet a v).thm = s.thm := rfl
@[simp] theorem State.setOctet_syn (s : State) (a : Nat) (v : Byte) : (s.setOctet a v).syn = s.syn := rfl
@[simp] theorem State.setOctet_gns (s : State) (a : Nat) (v : Byte) : (s.setOctet a v).gns = s.gns := rfl
@[simp] theorem State.setOctet_prt (s : State) (a : Nat) (v : Byte) : (s.setOctet a v).prt = s.prt := rfl
@[simp] theorem State.setOctet_key (s : State) (a : Nat) (v : Byte) : (s.setOctet a v).key = s.key := rfl
@[simp] theorem State.setOctet_mat (s : State) (a : Nat) (v : Byte) : (s.setOctet a v).mat = s.mat := rfl
@[simp] theorem State.setOctet_pmc (s : State) (a : Nat) (v : Byte) : (s.setOctet a v).pmc = s.pmc := rfl
@[simp] theorem State.setOctet_svc (s : State) (a : Nat) (v : Byte) : (s.setOctet a v).svc = s.svc := rfl
@[simp] theorem State.setOctet_pwr (s : State) (a : Nat) (v : Byte) : (s.setOctet a v).pwr = s.pwr := rfl
@[simp] theorem State.setOctet_cairn (s : State) (a : Nat) (v : Byte) : (s.setOctet a v).cairn = s.cairn := rfl
@[simp] theorem State.setOctet_secDone (s : State) (a : Nat) (v : Byte) : (s.setOctet a v).secDone = s.secDone := rfl
@[simp] theorem State.setOctet_freeCtr (s : State) (a : Nat) (v : Byte) : (s.setOctet a v).freeCtr = s.freeCtr := rfl
@[simp] theorem State.setOctet_pending (s : State) (a : Nat) (v : Byte) : (s.setOctet a v).pending = s.pending := rfl
@[simp] theorem State.rg_setOctet (s : State) (a : Nat) (v : Byte) (q : Reg) (j : Nat) : (s.setOctet a v).rg q j = s.rg q j := rfl
@[simp] theorem State.fd_setOctet (s : State) (a : Nat) (v : Byte) (g : Fld) (j : Nat) : (s.setOctet a v).fd g j = s.fd g j := rfl
@[simp] theorem State.fb_setOctet (s : State) (a : Nat) (v : Byte) (g : Fld) (j : Nat) : (s.setOctet a v).fb g j = s.fb g j := rfl
@[simp] theorem State.thread_setOctet (s : State) (a : Nat) (v : Byte) (h : Nat) : (s.setOctet a v).thread h = s.thread h := rfl

/-! ### setThread -/

@[simp] theorem State.setThread_regs (s : State) (n : Nat) (t : Thread) : (s.setThread n t).regs = s.regs := rfl
@[simp] theorem State.setThread_copy (s : State) (n : Nat) (t : Thread) : (s.setThread n t).copy = s.copy := rfl
@[simp] theorem State.setThread_mem (s : State) (n : Nat) (t : Thread) : (s.setThread n t).mem = s.mem := rfl
@[simp] theorem State.setThread_datum (s : State) (n : Nat) (t : Thread) : (s.setThread n t).datum = s.datum := rfl
@[simp] theorem State.setThread_replica (s : State) (n : Nat) (t : Thread) : (s.setThread n t).replica = s.replica := rfl
@[simp] theorem State.setThread_replicaOk (s : State) (n : Nat) (t : Thread) : (s.setThread n t).replicaOk = s.replicaOk := rfl
@[simp] theorem State.setThread_d2dUp (s : State) (n : Nat) (t : Thread) : (s.setThread n t).d2dUp = s.d2dUp := rfl
@[simp] theorem State.setThread_tick (s : State) (n : Nat) (t : Thread) : (s.setThread n t).tick = s.tick := rfl
@[simp] theorem State.setThread_timeline (s : State) (n : Nat) (t : Thread) : (s.setThread n t).timeline = s.timeline := rfl
@[simp] theorem State.setThread_images (s : State) (n : Nat) (t : Thread) : (s.setThread n t).images = s.images := rfl
@[simp] theorem State.setThread_frames (s : State) (n : Nat) (t : Thread) : (s.setThread n t).frames = s.frames := rfl
@[simp] theorem State.setThread_launches (s : State) (n : Nat) (t : Thread) : (s.setThread n t).launches = s.launches := rfl
@[simp] theorem State.setThread_jobs (s : State) (n : Nat) (t : Thread) : (s.setThread n t).jobs = s.jobs := rfl
@[simp] theorem State.setThread_derived (s : State) (n : Nat) (t : Thread) : (s.setThread n t).derived = s.derived := rfl
@[simp] theorem State.setThread_irq (s : State) (n : Nat) (t : Thread) : (s.setThread n t).irq = s.irq := rfl
@[simp] theorem State.setThread_dtm (s : State) (n : Nat) (t : Thread) : (s.setThread n t).dtm = s.dtm := rfl
@[simp] theorem State.setThread_flt (s : State) (n : Nat) (t : Thread) : (s.setThread n t).flt = s.flt := rfl
@[simp] theorem State.setThread_hst (s : State) (n : Nat) (t : Thread) : (s.setThread n t).hst = s.hst := rfl
@[simp] theorem State.setThread_trv (s : State) (n : Nat) (t : Thread) : (s.setThread n t).trv = s.trv := rfl
@[simp] theorem State.setThread_tic (s : State) (n : Nat) (t : Thread) : (s.setThread n t).tic = s.tic := rfl
@[simp] theorem State.setThread_ens (s : State) (n : Nat) (t : Thread) : (s.setThread n t).ens = s.ens := rfl
@[simp] theorem State.setThread_thm (s : State) (n : Nat) (t : Thread) : (s.setThread n t).thm = s.thm := rfl
@[simp] theorem State.setThread_syn (s : State) (n : Nat) (t : Thread) : (s.setThread n t).syn = s.syn := rfl
@[simp] theorem State.setThread_gns (s : State) (n : Nat) (t : Thread) : (s.setThread n t).gns = s.gns := rfl
@[simp] theorem State.setThread_prt (s : State) (n : Nat) (t : Thread) : (s.setThread n t).prt = s.prt := rfl
@[simp] theorem State.setThread_key (s : State) (n : Nat) (t : Thread) : (s.setThread n t).key = s.key := rfl
@[simp] theorem State.setThread_mat (s : State) (n : Nat) (t : Thread) : (s.setThread n t).mat = s.mat := rfl
@[simp] theorem State.setThread_pmc (s : State) (n : Nat) (t : Thread) : (s.setThread n t).pmc = s.pmc := rfl
@[simp] theorem State.setThread_svc (s : State) (n : Nat) (t : Thread) : (s.setThread n t).svc = s.svc := rfl
@[simp] theorem State.setThread_pwr (s : State) (n : Nat) (t : Thread) : (s.setThread n t).pwr = s.pwr := rfl
@[simp] theorem State.setThread_cairn (s : State) (n : Nat) (t : Thread) : (s.setThread n t).cairn = s.cairn := rfl
@[simp] theorem State.setThread_secDone (s : State) (n : Nat) (t : Thread) : (s.setThread n t).secDone = s.secDone := rfl
@[simp] theorem State.setThread_freeCtr (s : State) (n : Nat) (t : Thread) : (s.setThread n t).freeCtr = s.freeCtr := rfl
@[simp] theorem State.setThread_pending (s : State) (n : Nat) (t : Thread) : (s.setThread n t).pending = s.pending := rfl
@[simp] theorem State.rg_setThread (s : State) (n : Nat) (t : Thread) (q : Reg) (j : Nat) : (s.setThread n t).rg q j = s.rg q j := rfl
@[simp] theorem State.fd_setThread (s : State) (n : Nat) (t : Thread) (g : Fld) (j : Nat) : (s.setThread n t).fd g j = s.fd g j := rfl
@[simp] theorem State.fb_setThread (s : State) (n : Nat) (t : Thread) (g : Fld) (j : Nat) : (s.setThread n t).fb g j = s.fb g j := rfl

/-! ### setIrqDyn -/

@[simp] theorem State.setIrqDyn_regs (s : State) (n : Nat) (d : IrqDyn) : (s.setIrqDyn n d).regs = s.regs := rfl
@[simp] theorem State.setIrqDyn_copy (s : State) (n : Nat) (d : IrqDyn) : (s.setIrqDyn n d).copy = s.copy := rfl
@[simp] theorem State.setIrqDyn_mem (s : State) (n : Nat) (d : IrqDyn) : (s.setIrqDyn n d).mem = s.mem := rfl
@[simp] theorem State.setIrqDyn_datum (s : State) (n : Nat) (d : IrqDyn) : (s.setIrqDyn n d).datum = s.datum := rfl
@[simp] theorem State.setIrqDyn_replica (s : State) (n : Nat) (d : IrqDyn) : (s.setIrqDyn n d).replica = s.replica := rfl
@[simp] theorem State.setIrqDyn_replicaOk (s : State) (n : Nat) (d : IrqDyn) : (s.setIrqDyn n d).replicaOk = s.replicaOk := rfl
@[simp] theorem State.setIrqDyn_d2dUp (s : State) (n : Nat) (d : IrqDyn) : (s.setIrqDyn n d).d2dUp = s.d2dUp := rfl
@[simp] theorem State.setIrqDyn_tick (s : State) (n : Nat) (d : IrqDyn) : (s.setIrqDyn n d).tick = s.tick := rfl
@[simp] theorem State.setIrqDyn_timeline (s : State) (n : Nat) (d : IrqDyn) : (s.setIrqDyn n d).timeline = s.timeline := rfl
@[simp] theorem State.setIrqDyn_threads (s : State) (n : Nat) (d : IrqDyn) : (s.setIrqDyn n d).threads = s.threads := rfl
@[simp] theorem State.setIrqDyn_images (s : State) (n : Nat) (d : IrqDyn) : (s.setIrqDyn n d).images = s.images := rfl
@[simp] theorem State.setIrqDyn_frames (s : State) (n : Nat) (d : IrqDyn) : (s.setIrqDyn n d).frames = s.frames := rfl
@[simp] theorem State.setIrqDyn_launches (s : State) (n : Nat) (d : IrqDyn) : (s.setIrqDyn n d).launches = s.launches := rfl
@[simp] theorem State.setIrqDyn_jobs (s : State) (n : Nat) (d : IrqDyn) : (s.setIrqDyn n d).jobs = s.jobs := rfl
@[simp] theorem State.setIrqDyn_derived (s : State) (n : Nat) (d : IrqDyn) : (s.setIrqDyn n d).derived = s.derived := rfl
@[simp] theorem State.setIrqDyn_dtm (s : State) (n : Nat) (d : IrqDyn) : (s.setIrqDyn n d).dtm = s.dtm := rfl
@[simp] theorem State.setIrqDyn_flt (s : State) (n : Nat) (d : IrqDyn) : (s.setIrqDyn n d).flt = s.flt := rfl
@[simp] theorem State.setIrqDyn_hst (s : State) (n : Nat) (d : IrqDyn) : (s.setIrqDyn n d).hst = s.hst := rfl
@[simp] theorem State.setIrqDyn_trv (s : State) (n : Nat) (d : IrqDyn) : (s.setIrqDyn n d).trv = s.trv := rfl
@[simp] theorem State.setIrqDyn_tic (s : State) (n : Nat) (d : IrqDyn) : (s.setIrqDyn n d).tic = s.tic := rfl
@[simp] theorem State.setIrqDyn_ens (s : State) (n : Nat) (d : IrqDyn) : (s.setIrqDyn n d).ens = s.ens := rfl
@[simp] theorem State.setIrqDyn_thm (s : State) (n : Nat) (d : IrqDyn) : (s.setIrqDyn n d).thm = s.thm := rfl
@[simp] theorem State.setIrqDyn_syn (s : State) (n : Nat) (d : IrqDyn) : (s.setIrqDyn n d).syn = s.syn := rfl
@[simp] theorem State.setIrqDyn_gns (s : State) (n : Nat) (d : IrqDyn) : (s.setIrqDyn n d).gns = s.gns := rfl
@[simp] theorem State.setIrqDyn_prt (s : State) (n : Nat) (d : IrqDyn) : (s.setIrqDyn n d).prt = s.prt := rfl
@[simp] theorem State.setIrqDyn_key (s : State) (n : Nat) (d : IrqDyn) : (s.setIrqDyn n d).key = s.key := rfl
@[simp] theorem State.setIrqDyn_mat (s : State) (n : Nat) (d : IrqDyn) : (s.setIrqDyn n d).mat = s.mat := rfl
@[simp] theorem State.setIrqDyn_pmc (s : State) (n : Nat) (d : IrqDyn) : (s.setIrqDyn n d).pmc = s.pmc := rfl
@[simp] theorem State.setIrqDyn_svc (s : State) (n : Nat) (d : IrqDyn) : (s.setIrqDyn n d).svc = s.svc := rfl
@[simp] theorem State.setIrqDyn_pwr (s : State) (n : Nat) (d : IrqDyn) : (s.setIrqDyn n d).pwr = s.pwr := rfl
@[simp] theorem State.setIrqDyn_cairn (s : State) (n : Nat) (d : IrqDyn) : (s.setIrqDyn n d).cairn = s.cairn := rfl
@[simp] theorem State.setIrqDyn_secDone (s : State) (n : Nat) (d : IrqDyn) : (s.setIrqDyn n d).secDone = s.secDone := rfl
@[simp] theorem State.setIrqDyn_freeCtr (s : State) (n : Nat) (d : IrqDyn) : (s.setIrqDyn n d).freeCtr = s.freeCtr := rfl
@[simp] theorem State.setIrqDyn_pending (s : State) (n : Nat) (d : IrqDyn) : (s.setIrqDyn n d).pending = s.pending := rfl
@[simp] theorem State.rg_setIrqDyn (s : State) (n : Nat) (d : IrqDyn) (q : Reg) (j : Nat) : (s.setIrqDyn n d).rg q j = s.rg q j := rfl
@[simp] theorem State.fd_setIrqDyn (s : State) (n : Nat) (d : IrqDyn) (g : Fld) (j : Nat) : (s.setIrqDyn n d).fd g j = s.fd g j := rfl
@[simp] theorem State.fb_setIrqDyn (s : State) (n : Nat) (d : IrqDyn) (g : Fld) (j : Nat) : (s.setIrqDyn n d).fb g j = s.fb g j := rfl
@[simp] theorem State.thread_setIrqDyn (s : State) (n : Nat) (d : IrqDyn) (h : Nat) : (s.setIrqDyn n d).thread h = s.thread h := rfl

/-! ### setSlot -/

@[simp] theorem State.setSlot_regs (s : State) (h : Nat) (x : Slot) : (s.setSlot h x).regs = s.regs := rfl
@[simp] theorem State.setSlot_copy (s : State) (h : Nat) (x : Slot) : (s.setSlot h x).copy = s.copy := rfl
@[simp] theorem State.setSlot_mem (s : State) (h : Nat) (x : Slot) : (s.setSlot h x).mem = s.mem := rfl
@[simp] theorem State.setSlot_datum (s : State) (h : Nat) (x : Slot) : (s.setSlot h x).datum = s.datum := rfl
@[simp] theorem State.setSlot_replica (s : State) (h : Nat) (x : Slot) : (s.setSlot h x).replica = s.replica := rfl
@[simp] theorem State.setSlot_replicaOk (s : State) (h : Nat) (x : Slot) : (s.setSlot h x).replicaOk = s.replicaOk := rfl
@[simp] theorem State.setSlot_d2dUp (s : State) (h : Nat) (x : Slot) : (s.setSlot h x).d2dUp = s.d2dUp := rfl
@[simp] theorem State.setSlot_tick (s : State) (h : Nat) (x : Slot) : (s.setSlot h x).tick = s.tick := rfl
@[simp] theorem State.setSlot_threads (s : State) (h : Nat) (x : Slot) : (s.setSlot h x).threads = s.threads := rfl
@[simp] theorem State.setSlot_images (s : State) (h : Nat) (x : Slot) : (s.setSlot h x).images = s.images := rfl
@[simp] theorem State.setSlot_frames (s : State) (h : Nat) (x : Slot) : (s.setSlot h x).frames = s.frames := rfl
@[simp] theorem State.setSlot_launches (s : State) (h : Nat) (x : Slot) : (s.setSlot h x).launches = s.launches := rfl
@[simp] theorem State.setSlot_jobs (s : State) (h : Nat) (x : Slot) : (s.setSlot h x).jobs = s.jobs := rfl
@[simp] theorem State.setSlot_derived (s : State) (h : Nat) (x : Slot) : (s.setSlot h x).derived = s.derived := rfl
@[simp] theorem State.setSlot_irq (s : State) (h : Nat) (x : Slot) : (s.setSlot h x).irq = s.irq := rfl
@[simp] theorem State.setSlot_dtm (s : State) (h : Nat) (x : Slot) : (s.setSlot h x).dtm = s.dtm := rfl
@[simp] theorem State.setSlot_flt (s : State) (h : Nat) (x : Slot) : (s.setSlot h x).flt = s.flt := rfl
@[simp] theorem State.setSlot_hst (s : State) (h : Nat) (x : Slot) : (s.setSlot h x).hst = s.hst := rfl
@[simp] theorem State.setSlot_trv (s : State) (h : Nat) (x : Slot) : (s.setSlot h x).trv = s.trv := rfl
@[simp] theorem State.setSlot_tic (s : State) (h : Nat) (x : Slot) : (s.setSlot h x).tic = s.tic := rfl
@[simp] theorem State.setSlot_ens (s : State) (h : Nat) (x : Slot) : (s.setSlot h x).ens = s.ens := rfl
@[simp] theorem State.setSlot_thm (s : State) (h : Nat) (x : Slot) : (s.setSlot h x).thm = s.thm := rfl
@[simp] theorem State.setSlot_syn (s : State) (h : Nat) (x : Slot) : (s.setSlot h x).syn = s.syn := rfl
@[simp] theorem State.setSlot_gns (s : State) (h : Nat) (x : Slot) : (s.setSlot h x).gns = s.gns := rfl
@[simp] theorem State.setSlot_prt (s : State) (h : Nat) (x : Slot) : (s.setSlot h x).prt = s.prt := rfl
@[simp] theorem State.setSlot_key (s : State) (h : Nat) (x : Slot) : (s.setSlot h x).key = s.key := rfl
@[simp] theorem State.setSlot_mat (s : State) (h : Nat) (x : Slot) : (s.setSlot h x).mat = s.mat := rfl
@[simp] theorem State.setSlot_pmc (s : State) (h : Nat) (x : Slot) : (s.setSlot h x).pmc = s.pmc := rfl
@[simp] theorem State.setSlot_svc (s : State) (h : Nat) (x : Slot) : (s.setSlot h x).svc = s.svc := rfl
@[simp] theorem State.setSlot_pwr (s : State) (h : Nat) (x : Slot) : (s.setSlot h x).pwr = s.pwr := rfl
@[simp] theorem State.setSlot_cairn (s : State) (h : Nat) (x : Slot) : (s.setSlot h x).cairn = s.cairn := rfl
@[simp] theorem State.setSlot_secDone (s : State) (h : Nat) (x : Slot) : (s.setSlot h x).secDone = s.secDone := rfl
@[simp] theorem State.setSlot_freeCtr (s : State) (h : Nat) (x : Slot) : (s.setSlot h x).freeCtr = s.freeCtr := rfl
@[simp] theorem State.setSlot_pending (s : State) (h : Nat) (x : Slot) : (s.setSlot h x).pending = s.pending := rfl
@[simp] theorem State.rg_setSlot (s : State) (h : Nat) (x : Slot) (q : Reg) (j : Nat) : (s.setSlot h x).rg q j = s.rg q j := rfl
@[simp] theorem State.fd_setSlot (s : State) (h : Nat) (x : Slot) (g : Fld) (j : Nat) : (s.setSlot h x).fd g j = s.fd g j := rfl
@[simp] theorem State.fb_setSlot (s : State) (h : Nat) (x : Slot) (g : Fld) (j : Nat) : (s.setSlot h x).fb g j = s.fb g j := rfl
@[simp] theorem State.thread_setSlot (s : State) (h : Nat) (x : Slot) (k : Nat) : (s.setSlot h x).thread k = s.thread k := rfl

/-! ### Reads of what was written -/

/-- A register after a write of a register. -/
@[simp] theorem State.rg_wr (s : State) (r q : Reg) (i j : Nat) (v : BitVec 32) :
    (s.wr r i v).rg q j = if r = q ∧ i = j then v else s.rg q j := by
  by_cases h : r = q ∧ i = j
  · obtain ⟨rfl, rfl⟩ := h
    rw [if_pos ⟨rfl, rfl⟩]
    exact SMap.get_set_same _ _ _ _ _
  · rw [if_neg h]
    refine SMap.get_set_other _ _ _ _ _ _ ?_
    intro e
    injection e with e1 e2
    exact h ⟨e1.symm, e2.symm⟩

@[simp] theorem State.thread_setThread_same (s : State) (n : Nat) (t : Thread) : (s.setThread n t).thread n = t :=
  SMap.get_set_same _ _ _ _ _

@[simp] theorem State.thread_setThread_other (s : State) (n h : Nat) (t : Thread) (hn : h ≠ n) :
    (s.setThread n t).thread h = s.thread h := SMap.get_set_other _ _ _ _ _ _ hn

@[simp] theorem State.irqDyn_setIrqDyn_same (s : State) (n : Nat) (d : IrqDyn) : (s.setIrqDyn n d).irqDyn n = d :=
  SMap.get_set_same _ _ _ _ _

theorem State.irqDyn_setIrqDyn_other (s : State) (n k : Nat) (d : IrqDyn) (h : k ≠ n) : (s.setIrqDyn n d).irqDyn k = s.irqDyn k :=
  SMap.get_set_other _ _ _ _ _ _ h

@[simp] theorem State.slot_setSlot_same (s : State) (n : Nat) (x : Slot) : (s.setSlot n x).slot n = x :=
  SMap.get_set_same _ _ _ _ _

theorem State.slot_setSlot_other (s : State) (n k : Nat) (x : Slot) (h : k ≠ n) : (s.setSlot n x).slot k = s.slot k :=
  SMap.get_set_other _ _ _ _ _ _ h

@[simp] theorem State.octet_setOctet_same (s : State) (a : Nat) (v : Byte) : (s.setOctet a v).octet a = v :=
  SMap.get_set_same _ _ _ _ _

theorem State.octet_setOctet_other (s : State) (a b : Nat) (v : Byte) (h : b ≠ a) : (s.setOctet a v).octet b = s.octet b :=
  SMap.get_set_other _ _ _ _ _ _ h

/-! ### Fields of a word -/

/-- The three parts of a word about a field, and the word with the field replaced. -/
theorem Fld.parts (f : Fld) (v : BitVec 32) (n : Nat) (h1 : f.lo ≤ f.hi) (h2 : f.hi < 32) :
    ∃ q b r : Nat, r < 2 ^ f.lo ∧ b < 2 ^ (f.hi - f.lo + 1) ∧ v.toNat = (q * 2 ^ (f.hi - f.lo + 1) + b) * 2 ^ f.lo + r ∧
      (f.put v n).toNat = (q * 2 ^ (f.hi - f.lo + 1) + n % 2 ^ (f.hi - f.lo + 1)) * 2 ^ f.lo + r := by
  have hv := v.isLt
  have hC : (2 : Nat) ^ 32 = 2 ^ (31 - f.hi) * 2 ^ (f.hi - f.lo + 1) * 2 ^ f.lo := by
    rw [← Nat.pow_add, ← Nat.pow_add]; congr 1; omega
  have hA : 0 < 2 ^ f.lo := Nat.two_pow_pos _
  have hB : 0 < 2 ^ (f.hi - f.lo + 1) := Nat.two_pow_pos _
  unfold Fld.put bitsOf
  rw [BitVec.toNat_ofNat]
  rw [hC] at hv ⊢
  generalize 2 ^ f.lo = A at *
  generalize 2 ^ (f.hi - f.lo + 1) = B at *
  generalize 2 ^ (31 - f.hi) = C at *
  generalize v.toNat = x at *
  have e1 := Nat.div_add_mod x A
  have e2 := Nat.div_add_mod (x / A) B
  have hr := Nat.mod_lt x hA
  have hb := Nat.mod_lt (x / A) hB
  have hm := Nat.mod_lt n hB
  have hx : x / A < C * B := (Nat.div_lt_iff_lt_mul hA).mpr hv
  have hq : x / A / B < C := (Nat.div_lt_iff_lt_mul hB).mpr hx
  refine ⟨x / A / B, x / A % B, x % A, hr, hb, ?_, ?_⟩
  · rw [Nat.mul_comm (x / A / B) B, e2, Nat.mul_comm, e1]
  · have e3 : x - x / A % B * A + n % B * A = (x / A / B * B + n % B) * A + x % A := by
      have : x = (x / A / B * B) * A + x / A % B * A + x % A := by
        rw [← Nat.add_mul, Nat.mul_comm (x / A / B) B, e2, Nat.mul_comm, e1]
      rw [Nat.add_mul]
      omega
    rw [e3]
    refine Nat.mod_eq_of_lt ?_
    have h5 : x / A / B * B + n % B < C * B := by
      have := Nat.mul_le_mul_right B hq
      rw [Nat.succ_mul] at this
      omega
    have := Nat.mul_le_mul_right A h5
    rw [Nat.succ_mul] at this
    omega

/-- A field reads as what was put into it. -/
theorem Fld.of_put_same (f : Fld) (v : BitVec 32) (n : Nat) (h1 : f.lo ≤ f.hi) (h2 : f.hi < 32) :
    f.of (f.put v n) = n % 2 ^ (f.hi - f.lo + 1) := by
  obtain ⟨q, b, r, hr, -, -, e⟩ := Fld.parts f v n h1 h2
  unfold Fld.of bitsOf
  rw [e]
  have hA : 0 < 2 ^ f.lo := Nat.two_pow_pos _
  rw [Nat.add_comm, Nat.add_mul_div_right _ _ hA, Nat.div_eq_of_lt hr, Nat.zero_add, Nat.add_comm, Nat.add_mul_mod_self_right,
    Nat.mod_mod]

/-- A field apart from the one that is put reads as before. -/
theorem Fld.of_put_other (f g : Fld) (v : BitVec 32) (n : Nat) (h1 : f.lo ≤ f.hi) (h2 : f.hi < 32) (h0 : g.lo ≤ g.hi)
    (h3 : g.hi < f.lo ∨ f.hi < g.lo) : g.of (f.put v n) = g.of v := by
  obtain ⟨q, b, r, hr, hb, e1, e2⟩ := Fld.parts f v n h1 h2
  unfold Fld.of bitsOf
  have hm := Nat.mod_lt n (Nat.two_pow_pos (f.hi - f.lo + 1))
  rcases h3 with h3 | h3
  · have key : ∀ x : Nat, x / 2 ^ g.lo % 2 ^ (g.hi - g.lo + 1) = x % 2 ^ f.lo / 2 ^ g.lo % 2 ^ (g.hi - g.lo + 1) := by
      intro x
      have : (2 : Nat) ^ f.lo = 2 ^ g.lo * 2 ^ (f.lo - g.lo) := by rw [← Nat.pow_add]; congr 1; omega
      rw [this, Nat.mod_mul_right_div_self]
      have : (2 : Nat) ^ (f.lo - g.lo) = 2 ^ (g.hi - g.lo + 1) * 2 ^ (f.lo - (g.hi + 1)) := by
        rw [← Nat.pow_add]; congr 1; omega
      rw [this, Nat.mod_mul_right_mod]
    rw [key, key v.toNat, e1, e2, Nat.mul_add_mod_self_right, Nat.mul_add_mod_self_right]
  · have key : ∀ x : Nat, x / 2 ^ g.lo = x / 2 ^ f.lo / 2 ^ (f.hi - f.lo + 1) / 2 ^ (g.lo - (f.hi + 1)) := by
      intro x
      rw [Nat.div_div_eq_div_mul, Nat.div_div_eq_div_mul, ← Nat.pow_add, ← Nat.pow_add]; congr 2; omega
    have hd : ∀ c : Nat, c < 2 ^ (f.hi - f.lo + 1) →
        ((q * 2 ^ (f.hi - f.lo + 1) + c) * 2 ^ f.lo + r) / 2 ^ f.lo / 2 ^ (f.hi - f.lo + 1) = q := by
      intro c hc
      rw [Nat.add_comm, Nat.add_mul_div_right _ _ (Nat.two_pow_pos _), Nat.div_eq_of_lt hr, Nat.zero_add, Nat.add_comm,
        Nat.add_mul_div_right _ _ (Nat.two_pow_pos _), Nat.div_eq_of_lt hc, Nat.zero_add]
    rw [key, key v.toNat, e1, e2, hd _ hb, hd _ hm]
/-- A field of a register after a write of that field. -/
theorem State.fd_setF_same (s : State) (f : Fld) (n i : Nat) (h1 : f.lo ≤ f.hi) (h2 : f.hi < 32) :
    (s.setF f n i).fd f i = n % 2 ^ (f.hi - f.lo + 1) := by
  unfold State.fd State.setF
  rw [State.rg_wr, if_pos ⟨rfl, rfl⟩, Fld.of_put_same f _ _ h1 h2]

/-- A field of a register after a write of another field. -/
theorem State.fd_setF_other (s : State) (f g : Fld) (n i j : Nat) (h1 : f.lo ≤ f.hi) (h2 : f.hi < 32) (h0 : g.lo ≤ g.hi)
    (h3 : f.reg ≠ g.reg ∨ g.hi < f.lo ∨ f.hi < g.lo ∨ i ≠ j) : (s.setF f n i).fd g j = s.fd g j := by
  unfold State.fd State.setF
  rw [State.rg_wr]
  split
  · next h =>
    obtain ⟨e1, e2⟩ := h
    subst e2
    rw [Fld.of_put_other f g _ _ h1 h2 h0 (by simpa [e1] using h3), e1]
  · rfl

/-- A one-bit field after a write of it. -/
theorem State.fb_setB_same (s : State) (f : Fld) (b : Bool) (i : Nat) (h1 : f.lo = f.hi) (h2 : f.hi < 32) :
    (s.setB f b i).fb f i = b := by
  unfold State.fb State.setB
  rw [State.fd_setF_same _ _ _ _ (Nat.le_of_eq h1) h2, h1, Nat.sub_self]
  cases b <;> rfl

/-- A one-bit field after a write of another field. -/
theorem State.fb_setB_other (s : State) (f g : Fld) (b : Bool) (i j : Nat) (h1 : f.lo ≤ f.hi) (h2 : f.hi < 32) (h0 : g.lo ≤ g.hi)
    (h3 : f.reg ≠ g.reg ∨ g.hi < f.lo ∨ f.hi < g.lo ∨ i ≠ j) : (s.setB f b i).fb g j = s.fb g j := by
  unfold State.fb State.setB
  rw [State.fd_setF_other _ _ _ _ _ _ h1 h2 h0 h3]

end Sys2Proof.Machine
end

