-- ==== Sys2Proof/Laws/Issue.lean ====
section
/-!
SUPPORT. Laws/Issue.lean: the laws of frames and of an issued instruction: what its effect gives is what the next state holds, up to
the performance counters.
-/
namespace Sys2Proof.Machine

theorem Only.refl (l : List Part) (s : State) : Only l s s := ⟨rfl, fun p _ => p.same_refl s⟩

theorem Only.trans {l k : List Part} {a b c : State} (h : Only l a b) (g : Only k b c) : Only (l ++ k) a c :=
  ⟨g.1.trans h.1, fun p hp => Part.same_trans (h.2 p fun x => hp (List.mem_append_left _ x)) (g.2 p fun x => hp (List.mem_append_right _ x))⟩

theorem Only.mono {l k : List Part} {a b : State} (h : Only l a b) (hl : ∀ p ∈ l, p ∈ k) : Only k a b :=
  ⟨h.1, fun p hp => h.2 p fun x => hp (hl p x)⟩

/-- The parts that a mask names are among some parts. -/
def maskIn (m : Nat) (l : List Part) : Prop := ∀ p : Part, m.testBit p.num = true → p ∈ l

theorem pmcEvent_only (s : State) (th code : Nat) (k : Bool) (insn addr : BitVec 32) : Only counting s (s.pmcEvent th code k insn addr) :=
  (State.pmcEvent_keeps (Keeps.refl 0x40004108004000 s) (by decide) th code k insn addr).only (by
    intro p; cases p <;> first | decide | (rename_i g; cases g <;> decide))

theorem Thread.poisonOf_none {t : Thread} {srcs : List Nat} (h : ∀ r ∈ srcs, SMap.find t.poison r = none) : t.poisonOf srcs = none := by
  unfold Thread.poisonOf
  exact List.findSome?_eq_none_iff.mpr h

/-- An issued instruction whose effect is a state: that state, up to the counters. -/
theorem issue_ok {s u : State} {th : Nat} {insn : BitVec 32} {kOnly : Bool} {srcs : List Nat} {body : State → Eff}
    (h : s.Issues th kOnly srcs) (hb : body (s.setThread th (s.past th)) = .ok u) :
    Only counting u (s.issue th insn kOnly srcs body) := by
  have hr : s.runs th = true := by simp [State.runs, h.runs, h.ready]
  have hp := Thread.poisonOf_none h.clean
  have hk : (kOnly && !(s.thread th).k) = false := by
    cases kOnly with
    | false => rfl
    | true => simp [h.priv rfl]
  unfold State.issue
  simp only [hr, h.fetch, hk, hp]
  simp only [State.past] at hb
  simp only [Bool.not_true, Bool.false_eq_true, if_false, hb]
  exact pmcEvent_only _ _ _ _ _ _

/-- Completion of an instruction from its effect. -/
theorem completes {c : Instr} {s u : State} {th : Nat} {insn : BitVec 32} {kOnly : Bool} {srcs : List Nat} {body : State → Eff}
    {l : List Part} {r : Thread} {P : State → Prop} (hc : exec c s = .next (s.issue th insn kOnly srcs body))
    (h : s.Issues th kOnly srcs) (hb : body (s.setThread th (s.past th)) = .ok u) (hr : u.thread th = r)
    (ho : ∀ x, x ≠ th → u.thread x = s.thread x) (hP : ∀ t, Only counting u t → P t) (hf : Only (.threads :: l) s u) :
    Completes c s th r l P := by
  have hi := issue_ok (insn := insn) h hb
  have ht : ∀ x, (s.issue th insn kOnly srcs body).thread x = u.thread x := fun x => by
    have e : (s.issue th insn kOnly srcs body).threads = u.threads := hi.2 .threads (by decide)
    simp only [State.thread, e]
  refine ⟨_, hc, (ht th).trans hr, fun x hx => (ht x).trans (ho x hx), hP _ hi, (hf.trans hi).mono ?_⟩
  intro p hp
  simp only [List.mem_append, List.mem_cons] at hp ⊢
  rcases hp with (hp | hp) | hp
  · exact .inl hp
  · exact .inr (.inr hp)
  · exact .inr (.inl hp)

/-- A thread's record replaced: only the threads differ. -/
theorem setThread_only (s : State) (th : Nat) (t : Thread) : Only [.threads] s (s.setThread th t) := by
  refine ⟨rfl, fun p hp => ?_⟩
  cases p <;> first | rfl | exact fun _ _ _ => rfl | exact absurd (List.mem_singleton.mpr rfl) hp

/-- An instruction that does no more than replace its thread's record. -/
theorem completes_thread {c : Instr} {s : State} {th : Nat} {insn : BitVec 32} {kOnly : Bool} {srcs : List Nat} {body : State → Eff}
    {r : Thread} (hc : exec c s = .next (s.issue th insn kOnly srcs body))
    (h : s.Issues th kOnly srcs) (hb : body (s.setThread th (s.past th)) = .ok ((s.setThread th (s.past th)).setThread th r)) :
    Completes c s th r [] (fun _ => True) :=
  completes hc h hb (State.thread_setThread_same _ _ _)
    (fun x hx => by rw [State.thread_setThread_other _ _ _ _ hx, State.thread_setThread_other _ _ _ _ hx]) (fun _ _ => trivial)
    (((setThread_only s th _).trans (setThread_only _ th r)).mono (by decide))

end Sys2Proof.Machine
end

