-- ==== Sys2Proof/Laws/Memory.lean ====
section
/-!
SUPPORT. Laws/Memory.lean: the laws of memory: what a store leaves at each address, by the store of octets, by a store that clears
poison marks and by a store with its mirror; and what an issued instruction's accesses see.
-/
namespace Sys2Proof.Machine

/-- An address outside the stored octets keeps its octet. -/
theorem State.octet_store_other (bs : List Byte) : ∀ (s : State) (a x : Nat), (x < a ∨ a + bs.length ≤ x) →
    (s.store a bs).octet x = s.octet x := by
  induction bs with
  | nil => intro s a x _; rfl
  | cons b r ih =>
    intro s a x h
    simp only [List.length_cons] at h
    rw [State.store, ih _ _ _ (by omega), State.octet_setOctet_other _ _ _ _ (by omega)]

/-- A stored octet reads back. -/
theorem State.octet_store_in (bs : List Byte) : ∀ (s : State) (a i : Nat) (v : Byte), bs[i]? = some v →
    (s.store a bs).octet (a + i) = v := by
  induction bs with
  | nil => intro s a i v h; simp at h
  | cons b r ih =>
    intro s a i v h
    cases i with
    | zero =>
      simp only [List.getElem?_cons_zero, Option.some.injEq] at h
      subst h
      rw [State.store, State.octet_store_other _ _ _ _ (.inl (by omega)), Nat.add_zero, State.octet_setOctet_same]
    | succ n =>
      simp only [List.getElem?_cons_succ] at h
      rw [State.store, ← ih (s.setOctet a b) (a + 1) n v h]
      congr 1
      omega

/-- Octets of memory depend on the memory alone. -/
theorem State.octet_congr {s t : State} (h : t.mem = s.mem) (x : Nat) : t.octet x = s.octet x := by
  unfold State.octet
  rw [h]

theorem stored_store (s : State) (a : Nat) (bs : List Byte) : Stored s (s.store a bs) a bs :=
  ⟨fun i v h => State.octet_store_in bs s a i v h, fun x h => State.octet_store_other bs s a x h⟩

theorem Stored.congr {s t u : State} {a : Nat} {bs : List Byte} (h : Stored s t a bs) (e : u.mem = t.mem) : Stored s u a bs :=
  ⟨fun i v hi => (State.octet_congr e _).trans (h.1 i v hi), fun x hx => (State.octet_congr e _).trans (h.2 x hx)⟩

theorem stored_storeMem (s : State) (a : Nat) (bs : List Byte) : Stored s (s.storeMem a bs) a bs := (stored_store s a bs).congr rfl

theorem mirrorWrite_mem (s : State) (a n : Nat) : (s.mirrorWrite a n).mem = s.mem :=
  (State.mirrorWrite_keeps (Keeps.refl 0x4000000 s) (by decide) a n).same .mem (by decide)

theorem stored_storeData (s : State) (a : Nat) (bs : List Byte) : Stored s (s.storeData a bs) a bs :=
  (stored_storeMem s a bs).congr (mirrorWrite_mem _ _ _)

/-- What an access decides does not depend on the program counter of its thread. -/
theorem access_past (s : State) (th a n : Nat) (w b : Bool) : (s.setThread th (s.past th)).access th a n w b = s.access th a n w b := by
  unfold State.access State.dataAccess
  simp only [State.thread_setThread_same, State.past]
  rfl

theorem ea_past (s : State) (th a : Nat) (off : Int) : (s.setThread th (s.past th)).ea th a off = s.ea th a off := by
  unfold State.ea State.gr
  simp only [State.thread_setThread_same]
  rfl

theorem gr_past (s : State) (th i : Nat) : (s.setThread th (s.past th)).gr th i = s.gr th i := by
  unfold State.gr
  simp only [State.thread_setThread_same]
  rfl

theorem Only.mem {l : List Part} {s t : State} (h : Only l s t) (hl : Part.mem ∉ l) : MemorySame s t :=
  fun x => State.octet_congr (h.2 .mem hl) x

end Sys2Proof.Machine
end

