-- ==== Sys2Proof/Laws/Host.lean ====
section
/-!
SUPPORT. Laws/Host.lean: the laws of host commands: a host write that is taken acts as its block says, and a command that a queue can
start completes.
-/
namespace Sys2Proof.Machine

theorem owns_setB {s : State} {f : Fld} {b : Bool} {i o : Nat} (p : Party) (h : f.reg ≠ .TOP_OWN) : (s.setB f b i).owns p o = s.owns p o := by
  have e : ∀ j, (s.setB f b i).rg .TOP_OWN j = s.rg .TOP_OWN j := by
    intro j
    unfold State.setB State.setF
    rw [State.rg_wr, if_neg (fun x => h x.1)]
  unfold State.owns State.fb State.fd
  simp only [Fld.TOP_OWN.HELD, Fld.TOP_OWN.ORPHAN, Fld.TOP_OWN.KIND, Fld.TOP_OWN.OWNER, e]
  cases p <;> rfl

/-- Posted writes that are none leave the state as it is. -/
theorem flushPosted_nil {s : State} (h : s.hst.posted = []) : s.flushPosted = s := by
  unfold State.flushPosted
  rw [h]
  have e : ({ s.hst with posted := [] } : HstState) = s.hst := by rw [← h]
  simp only [List.foldl_nil, e]

theorem entered_posted (s : State) (r : Reg) (i : Nat) : (s.entered r i).hst.posted = s.hst.posted := by
  unfold State.entered
  simp only
  split <;> split <;> rfl

/-- A host write that is taken acts as its block says. -/
theorem hostRow_takes {s : State} {r : Reg} {i : Nat} (v : BitVec 32) (h : s.Takes r i) :
    s.hostRow r i v = (s.entered r i).applyWrite .hostReg r i v := by
  have hf : s.front r i = (s.entered r i, true) := by
    unfold State.front State.entered
    have h0 : (!s.coreUp || !s.hst.pcieUp) = false := by rw [h.core, h.link]; rfl
    simp only [h0, h.gate, Bool.false_eq_true, if_false]
    have hg : (r.guarded i && !s.hst.unlocked) = false := by
      cases hr : r.guarded i with
      | false => rfl
      | true => simp [h.guard hr]
    simp only [hg, Bool.false_eq_true, if_false]
    generalize hs1 : (if r.guarded i = true then ({ s with hst := { s.hst with unlocked := false } }).setB Fld.TOP_UNLOCK.ARMED false
      else s) = s1
    have e1 : s1.hst.wosDone = s.hst.wosDone := by subst hs1; split <;> rfl
    have e2 : s1.d2dUp = s.d2dUp := by subst hs1; split <;> rfl
    have e3 : ∀ o, s1.owns .hostReg o = s.owns .hostReg o := by
      intro o
      subst hs1
      split
      · exact owns_setB _ (by decide)
      · rfl
    have hw : (decide (r = .MAT_PRIORITY) && s1.hst.wosDone) = false := by
      by_cases hr : r = .MAT_PRIORITY
      · rw [e1, h.once hr, Bool.and_false]
      · simp [hr]
    have hd : (r.onClock i && !s1.d2dUp) = false := by
      cases hr : r.onClock i with
      | false => rfl
      | true => simp [e2, h.d2d hr]
    simp only [hw, hd, Bool.false_eq_true, if_false, decide_eq_true_eq]
    have ho : ∀ o, (if r = .MAT_PRIORITY then ({ s1 with hst := { s1.hst with wosDone := true } } : State) else s1).owns .hostReg o
        = s.owns .hostReg o := by
      intro o
      split
      · exact e3 o
      · exact e3 o
    cases hr : regOwner r i with
    | none => rfl
    | some o =>
      have := h.own o hr
      simp only [ho]
      rcases this with x | x <;> simp [x]
  unfold State.hostRow
  rw [hf]
  simp only [if_true]
  split
  · next hc => rw [flushPosted_nil ((entered_posted s r i).trans (h.clear hc))]
  · rfl

/-- A register that is neither guarded nor write-once is written in the state as it is. -/
theorem entered_plain {s : State} {r : Reg} {i : Nat} (h : r.guarded i = false) (hr : r ≠ .MAT_PRIORITY) : s.entered r i = s := by
  unfold State.entered
  simp [h, hr]

end Sys2Proof.Machine
end

