-- ==== Sys2Proof/WellFormed.lean ====
section
/-!
DEFINITION. WellFormed.lean: which terms of `Instr` are commands that the engine can receive. Most operands hold every value; an operand
that carries a time, a list with a length that the spec fixes, or a set of places is checked here. A meaning is total on ill-formed terms
too.
-/
namespace Sys2Proof

/-- A Datum word: the nanoseconds lie below one second (R2). -/
def TimeVal.valid (t : TimeVal) : Bool := decide (t.ns.toNat ≤ 999999999)

/-- A Datum counter with a valid word (R37). -/
def Datum.valid (d : Datum) : Bool := d.word.valid

/-- An access through BAR2 reaches at least one octet (R310). -/
def Bar2Acc.wellFormed (a : Bar2Acc) : Bool :=
  match a with
  | .read n => decide (n ≠ 0)
  | .write d => decide (d ≠ [])

/-- A heartbeat's times are Datum words and its fields lie in their widths (Table 15.2). -/
def Heartbeat.wellFormed (h : Heartbeat) : Bool :=
  h.tx.valid && h.echoTx.all TimeVal.valid && h.echoRx.valid && decide (h.role < 5) && decide (h.step < 4) && decide (h.prio < 256)
    && decide (h.q < 65536) && decide (h.l < 65536)

/-- Whether a term is a command that the engine can receive. -/
def Instr.wellFormed (i : Instr) : Bool :=
  match i with
  | .datumSecondCheck upset rates => (upset.all Datum.valid) && decide ((rates.map (·.1)).Nodup)
  | .d2dLinkDown => true
  | .d2dLinkUp => true
  | .postedWriteApply => true
  | .incTakesEffect => true
  | .timelineEventFire => true
  | .arbInDecodeChange _ => true
  | .ownClaim _ _ _ => true
  | .ownRelease _ _ _ => true
  | .clusterIsolate _ _ => true
  | .clusterRestore _ _ _ => true
  | .incHiStage _ => true
  | .incLoCommit _ => true
  | .settleOpen _ => true
  | .settleClose _ => true
  | .settleTimeout => true
  | .kindlingOpen => true
  | .dtmStepGo _ => true
  | .stepApply => true
  | .utcOffsetWrite _ => true
  | .leapArm _ => true
  | .leapCancel _ => true
  | .leapTakeEffect => true
  | .leapDayFlag => true
  | .dtmNowRead => true
  | .snapGo _ => true
  | .nop _ => true
  | .fence _ => true
  | .trap _ _ => true
  | .eret _ => true
  | .yield _ => true
  | .add _ _ _ _ => true
  | .sub _ _ _ _ => true
  | .and _ _ _ _ => true
  | .or _ _ _ _ => true
  | .xor _ _ _ _ => true
  | .shl _ _ _ _ => true
  | .shr _ _ _ _ => true
  | .sar _ _ _ _ => true
  | .mul _ _ _ _ => true
  | .mulhu _ _ _ _ => true
  | .divu _ _ _ _ => true
  | .remu _ _ _ _ => true
  | .min _ _ _ _ => true
  | .max _ _ _ _ => true
  | .minu _ _ _ _ => true
  | .maxu _ _ _ _ => true
  | .sel _ _ _ _ _ => true
  | .bswap _ _ _ => true
  | .addi _ _ _ _ => true
  | .andi _ _ _ _ => true
  | .ori _ _ _ _ => true
  | .xori _ _ _ _ => true
  | .shli _ _ _ _ => true
  | .shri _ _ _ _ => true
  | .sari _ _ _ _ => true
  | .lui _ _ _ => true
  | .cmp _ _ _ _ _ => true
  | .cmpi _ _ _ _ _ => true
  | .br _ _ _ _ => true
  | .jal _ _ _ => true
  | .jalr _ _ _ _ => true
  | .ld _ _ _ _ _ _ => true
  | .st _ _ _ _ _ => true
  | .amoadd _ _ _ _ => true
  | .amoswp _ _ _ _ => true
  | .amocas _ _ _ _ => true
  | .tnow _ _ => true
  | .tmov _ _ _ => true
  | .tadd _ _ _ _ => true
  | .tadds _ _ _ _ => true
  | .tsub _ _ _ _ => true
  | .tcmp _ _ _ _ _ => true
  | .tget _ _ _ _ => true
  | .tput _ _ _ _ => true
  | .twf _ _ _ _ => true
  | .tld _ _ _ _ => true
  | .tst _ _ _ _ => true
  | .bnow _ _ => true
  | .bat _ _ _ _ => true
  | .bmov _ _ _ => true
  | .badd _ _ _ _ => true
  | .bmax _ _ _ _ => true
  | .bwid _ _ _ _ => true
  | .bfromg _ _ _ => true
  | .btog _ _ _ => true
  | .bcvt _ _ _ _ _ => true
  | .bchk _ _ _ _ => true
  | .bwf _ _ _ _ _ => true
  | .bld _ _ _ _ => true
  | .bst _ _ _ _ => true
  | .earm _ _ _ => true
  | .ecan _ _ => true
  | .ewait _ _ _ => true
  | .paddr _ _ _ => true
  | .pinfo _ _ _ => true
  | .palloc _ _ _ => true
  | .pfree _ _ => true
  | .pcopy _ _ _ _ => true
  | .psend _ _ _ _ => true
  | .ptsb _ _ _ => true
  | .lgate _ _ _ _ => true
  | .lsend _ _ _ => true
  | .csub _ _ _ _ => true
  | .cdrv _ _ _ _ => true
  | .crel _ _ => true
  | .dinc _ _ => true
  | .dens _ _ => true
  | .dstep _ _ _ => true
  | .ownc _ _ => true
  | .ownr _ _ => true
  | .dosc _ _ => true
  | .mfc _ _ _ => true
  | .mtc _ _ _ => true
  | .cryptoJobComplete _ => true
  | .stkAbortGo _ _ => true
  | .stkRestartGo _ _ => true
  | .threadAbort _ _ _ => true
  | .threadRestart _ _ _ => true
  | .imageLoad _ _ _ _ _ => true
  | .ticInWrite _ _ => true
  | .ticEdge _ _ => true
  | .streamSampleMissing _ => true
  | .overfreqCheck => true
  | .ticOsGo _ _ => true
  | .oneshotClose _ => true
  | .ticCalGo _ _ => true
  | .calSchedule _ => true
  | .calStart _ => true
  | .calComplete _ _ hits => decide (hits.length = 1024)
  | .calRefusedNoGap _ => true
  | .keeperCheck => true
  | .ticRingBaseStage _ _ _ => true
  | .ticRingCommit _ _ => true
  | .ensProcessSecond => true
  | .ensRefCfgWrite _ _ => true
  | .ensNetGo _ _ _ _ => true
  | .refAcceptCmd _ _ => true
  | .weightWrite _ _ _ => true
  | .measDeliver _ => true
  | .holdoverCommit => true
  | .oscSpiTransfer _ => true
  | .tempSensorRead _ => true
  | .journalCommit => true
  | .jnlAckHiStage _ => true
  | .jnlAckCommit _ => true
  | .fcwStage _ _ _ => true
  | .fcwCommit _ _ => true
  | .syn0SrcWrite _ _ => true
  | .synSearchCmd _ _ => true
  | .syn0AcceptCmd _ => true
  | .loopHopDone _ => true
  | .loopSearchDone _ _ => true
  | .loopLock _ => true
  | .loopCoastEntry _ _ => true
  | .syn0QualEnd _ => true
  | .synPhaseWrite _ _ => true
  | .divHiStage _ _ => true
  | .divCommit _ _ => true
  | .dividerAlignment => true
  | .clkoutEnWrite _ _ => true
  | .syncInEdge _ => true
  | .ppsEdge _ => true
  | .ppsCfgTakeEffect _ => true
  | .ppsCompWrite _ _ => true
  | .todMessage _ => true
  | .gnsSpCfgWrite _ _ => true
  | .spRateCheck _ _ => true
  | .spPowerCheck _ _ => true
  | .gnsCtlGo _ => true
  | .gnsCtlDone _ => true
  | .acqJobDone _ => true
  | .acqAbort _ => true
  | .epochLatch _ => true
  | .antFltChange _ _ => true
  | .antPosWrite _ _ _ => true
  | .antSigWrite _ _ => true
  | .timeFloorHiStage _ => true
  | .timeFloorCommit _ => true
  | .timeFloorRaise => true
  | .gnsSnapGo _ => true
  | .snapshotStart => true
  | .snapshotCaptureEnd _ => true
  | .auditSchedule => true
  | .auditComplete _ => true
  | .prtCfgWrite _ _ => true
  | .prtCalGo _ _ => true
  | .portCalDone _ _ _ _ => true
  | .linkUp _ _ _ => true
  | .linkDown _ => true
  | .frameReceive _ _ _ at_ trx => at_.valid && trx.valid
  | .frameToPool _ => true
  | .pauseTakeEffect _ => true
  | .pauseEnd _ => true
  | .txFrameStart _ => true
  | .txFrameEnd _ => true
  | .launchDecide _ => true
  | .svcOpen _ => true
  | .svcClose _ => true
  | .svcTallyWrite _ _ _ => true
  | .signalingRequest _ _ => true
  | .shedLevelLower => true
  | .grantCancelSpread => true
  | .clientRecordFree _ => true
  | .delayReqServe _ _ => true
  | .ntpRequest _ _ => true
  | .ntsRequest _ _ => true
  | .launchReissue _ _ _ => true
  | .faultNPulseEnd => true
  | .fltPinHoldWrite _ => true
  | .fltAck _ _ => true
  | .fltClear _ _ => true
  | .graceExpiry _ => true
  | .fltEscRelease _ => true
  | .dmpDfdtWrite _ => true
  | .dmpQceilWrite _ _ _ => true
  | .keyUpdate _ _ _ => true
  | .envelopeApply => true
  | .keyAbortGo _ => true
  | .attest _ _ _ _ => true
  | .certRead _ _ _ => true
  | .cookieSeal _ _ _ _ _ _ => true
  | .irqSourceEdge _ _ => true
  | .irqSrcCfgWrite _ _ => true
  | .irqDoorbell _ => true
  | .irqPendSet _ => true
  | .irqPendClr _ => true
  | .irqGenWrite _ => true
  | .irqIssue _ => true
  | .irqClaimRead _ => true
  | .irqEoi _ _ => true
  | .irqTgtWrite _ _ => true
  | .irqTargetTimeout _ => true
  | .pmcCounterWrap _ _ smp => smp.at_.valid
  | .pmcMirrorUpdate _ _ => true
  | .topUnlockWrite _ => true
  | .registerWrite _ size _ => decide (size ∈ [1, 2, 4, 8])
  | .queueEnWrite _ _ => true
  | .sqTailDoorbell _ _ => true
  | .cqHeadWrite _ _ => true
  | .tlArm _ _ at_ _ => at_.valid
  | .tlCancel _ _ _ => true
  | .dtmSnapshot _ _ _ => true
  | .dtmStep _ _ _ _ _ _ _ => true
  | .journalRead _ _ _ _ _ => true
  | .gnssSnapRead _ _ _ _ _ => true
  | .faultSummary _ _ _ => true
  | .hstAbortGo _ _ => true
  | .pcieLinkLoss _ => true
  | .bar2Access _ acc => acc.wellFormed
  | .ddrScrubRead _ _ _ => true
  | .heartbeatLaunch _ tx => tx.valid
  | .heartbeatReceive _ hb at_ => hb.wellFormed && at_.valid
  | .heartbeatLossDeadline _ => true
  | .matePresentChange _ => true
  | .matInitEntry _ _ => true
  | .roleDecide => true
  | .arbContentionDemote => true
  | .matWithdraw _ => true
  | .matRejoin _ => true
  | .promotion => true
  | .witnessMatch _ _ => true
  | .swapRequestNow _ => true
  | .periodicSwapRequest => true
  | .reversionRequest => true
  | .healthYieldRequest => true
  | .swapRecheck => true
  | .swapInstant => true
  | .mirrorWrite => true
  | .mirrorFrameApply f => decide (f.window < 4)
  | .mirrorEndMarker _ => true
  | .windowCopyDone _ => true
  | .regionGate _ _ _ => true
  | .regionUngate _ _ _ => true
  | .ember _ _ => true
  | .emberAutoEntry => true
  | .shutdown _ _ => true
  | .provision _ _ _ _ _ => true
  | .advanceField _ _ => true
  | .retire _ _ _ => true
  | .fuseProgram _ _ _ _ => true
  | .bootStore _ _ _ _ => true
  | .bootClear _ _ => true
  | .keeperDomainStart _ => true
  | .syn0SrcFallback => true
  | .resetNRelease _ _ failed => decide failed.Nodup
  | .coreDieReset _ => true
  | .vddClkLoss => true
  | .vddKeepLoss => true
  | .pwrfailAssert => true
  | .pwrfailRelease => true
  | .debugLevelRequest _ => true
  | .dbgDrop _ => true
  | .sensorRead _ _ quads => decide (quads.length = 17)
  | .dclkTick => true
  | .copyRefresh pherr => decide (pherr.length ≤ 16)
  | .syn0ReferenceReturn => true
  | .debugHalt _ => true
  | .debuggerResume _ => true
  | .keepResetNAssert => true
  | .pcieLinkL0 _ _ => true
  | .ephemerisCommit => true

end Sys2Proof
end

section
/-!
The whole machine: what every command keeps, said once for `exec`, and what a step keeps of the form of the state.
-/
namespace Sys2Proof.Machine

/-- Every command keeps what `Keeps` says, with a mask of its own. -/
theorem exec_keeps : ∀ (c : Instr) (s : State), ∃ m, OutKeeps m s (exec c s)
  | .datumSecondCheck upset rates, s => ⟨_, execDatumSecondCheck_keeps upset rates s⟩
  | .d2dLinkDown, s => ⟨_, execD2dLinkDown_keeps s⟩
  | .d2dLinkUp, s => ⟨_, execD2dLinkUp_keeps s⟩
  | .postedWriteApply, s => ⟨_, execPostedWriteApply_keeps s⟩
  | .incTakesEffect, s => ⟨_, execIncTakesEffect_keeps s⟩
  | .timelineEventFire, s => ⟨_, execTimelineEventFire_keeps s⟩
  | .arbInDecodeChange code, s => ⟨_, execArbInDecodeChange_keeps code s⟩
  | .ownClaim q cid idx, s => ⟨_, execOwnClaim_keeps q cid idx s⟩
  | .ownRelease q cid idx, s => ⟨_, execOwnRelease_keeps q cid idx s⟩
  | .clusterIsolate by_ c, s => ⟨_, execClusterIsolate_keeps by_ c s⟩
  | .clusterRestore q cid c, s => ⟨_, execClusterRestore_keeps q cid c s⟩
  | .incHiStage v, s => ⟨_, execIncHiStage_keeps v s⟩
  | .incLoCommit v, s => ⟨_, execIncLoCommit_keeps v s⟩
  | .settleOpen v, s => ⟨_, execSettleOpen_keeps v s⟩
  | .settleClose v, s => ⟨_, execSettleClose_keeps v s⟩
  | .settleTimeout, s => ⟨_, execSettleTimeout_keeps s⟩
  | .kindlingOpen, s => ⟨_, execKindlingOpen_keeps s⟩
  | .dtmStepGo v, s => ⟨_, execDtmStepGo_keeps v s⟩
  | .stepApply, s => ⟨_, execStepApply_keeps s⟩
  | .utcOffsetWrite v, s => ⟨_, execUtcOffsetWrite_keeps v s⟩
  | .leapArm v, s => ⟨_, execLeapArm_keeps v s⟩
  | .leapCancel v, s => ⟨_, execLeapCancel_keeps v s⟩
  | .leapTakeEffect, s => ⟨_, execLeapTakeEffect_keeps s⟩
  | .leapDayFlag, s => ⟨_, execLeapDayFlag_keeps s⟩
  | .dtmNowRead, s => ⟨_, execDtmNowRead_keeps s⟩
  | .snapGo v, s => ⟨_, execSnapGo_keeps v s⟩
  | .nop by_, s => ⟨_, execNop_keeps by_ s⟩
  | .fence th, s => ⟨_, execFence_keeps th s⟩
  | .trap th imm, s => ⟨_, execTrap_keeps th imm s⟩
  | .eret th, s => ⟨_, execEret_keeps th s⟩
  | .yield th, s => ⟨_, execYield_keeps th s⟩
  | .add th d a b, s => ⟨_, execAdd_keeps th d a b s⟩
  | .sub th d a b, s => ⟨_, execSub_keeps th d a b s⟩
  | .and th d a b, s => ⟨_, execAnd_keeps th d a b s⟩
  | .or th d a b, s => ⟨_, execOr_keeps th d a b s⟩
  | .xor th d a b, s => ⟨_, execXor_keeps th d a b s⟩
  | .shl th d a b, s => ⟨_, execShl_keeps th d a b s⟩
  | .shr th d a b, s => ⟨_, execShr_keeps th d a b s⟩
  | .sar th d a b, s => ⟨_, execSar_keeps th d a b s⟩
  | .mul th d a b, s => ⟨_, execMul_keeps th d a b s⟩
  | .mulhu th d a b, s => ⟨_, execMulhu_keeps th d a b s⟩
  | .divu th d a b, s => ⟨_, execDivu_keeps th d a b s⟩
  | .remu th d a b, s => ⟨_, execRemu_keeps th d a b s⟩
  | .min th d a b, s => ⟨_, execMin_keeps th d a b s⟩
  | .max th d a b, s => ⟨_, execMax_keeps th d a b s⟩
  | .minu th d a b, s => ⟨_, execMinu_keeps th d a b s⟩
  | .maxu th d a b, s => ⟨_, execMaxu_keeps th d a b s⟩
  | .sel th d a b c, s => ⟨_, execSel_keeps th d a b c s⟩
  | .bswap th d a, s => ⟨_, execBswap_keeps th d a s⟩
  | .addi th d a imm, s => ⟨_, execAddi_keeps th d a imm s⟩
  | .andi th d a imm, s => ⟨_, execAndi_keeps th d a imm s⟩
  | .ori th d a imm, s => ⟨_, execOri_keeps th d a imm s⟩
  | .xori th d a imm, s => ⟨_, execXori_keeps th d a imm s⟩
  | .shli th d a imm, s => ⟨_, execShli_keeps th d a imm s⟩
  | .shri th d a imm, s => ⟨_, execShri_keeps th d a imm s⟩
  | .sari th d a imm, s => ⟨_, execSari_keeps th d a imm s⟩
  | .lui th d imm, s => ⟨_, execLui_keeps th d imm s⟩
  | .cmp th p cond a b, s => ⟨_, execCmp_keeps th p cond a b s⟩
  | .cmpi th p cond a imm, s => ⟨_, execCmpi_keeps th p cond a imm s⟩
  | .br th p sense off, s => ⟨_, execBr_keeps th p sense off s⟩
  | .jal th d off, s => ⟨_, execJal_keeps th d off s⟩
  | .jalr th d a imm, s => ⟨_, execJalr_keeps th d a imm s⟩
  | .ld th d a size off ecc, s => ⟨_, execLd_keeps th d a size off ecc s⟩
  | .st th d a size off, s => ⟨_, execSt_keeps th d a size off s⟩
  | .amoadd th d a b, s => ⟨_, execAmoadd_keeps th d a b s⟩
  | .amoswp th d a b, s => ⟨_, execAmoswp_keeps th d a b s⟩
  | .amocas th d a b, s => ⟨_, execAmocas_keeps th d a b s⟩
  | .tnow th td, s => ⟨_, execTnow_keeps th td s⟩
  | .tmov th td tx, s => ⟨_, execTmov_keeps th td tx s⟩
  | .tadd th td tx g, s => ⟨_, execTadd_keeps th td tx g s⟩
  | .tadds th td tx g, s => ⟨_, execTadds_keeps th td tx g s⟩
  | .tsub th g tx ty, s => ⟨_, execTsub_keeps th g tx ty s⟩
  | .tcmp th p tx ty cond, s => ⟨_, execTcmp_keeps th p tx ty cond s⟩
  | .tget th g tx low, s => ⟨_, execTget_keeps th g tx low s⟩
  | .tput th td g low, s => ⟨_, execTput_keeps th td g low s⟩
  | .twf th tx g fmt, s => ⟨_, execTwf_keeps th tx g fmt s⟩
  | .tld th td a off, s => ⟨_, execTld_keeps th td a off s⟩
  | .tst th td a off, s => ⟨_, execTst_keeps th td a off s⟩
  | .bnow th bd, s => ⟨_, execBnow_keeps th bd s⟩
  | .bat th bd tx g, s => ⟨_, execBat_keeps th bd tx g s⟩
  | .bmov th bd bx, s => ⟨_, execBmov_keeps th bd bx s⟩
  | .badd th bd bx bz, s => ⟨_, execBadd_keeps th bd bx bz s⟩
  | .bmax th bd bx bz, s => ⟨_, execBmax_keeps th bd bx bz s⟩
  | .bwid th bd bx g, s => ⟨_, execBwid_keeps th bd bx g s⟩
  | .bfromg th bd g, s => ⟨_, execBfromg_keeps th bd g s⟩
  | .btog th g bx, s => ⟨_, execBtog_keeps th g bx s⟩
  | .bcvt th g bx unit addOne, s => ⟨_, execBcvt_keeps th g bx unit addOne s⟩
  | .bchk th p bx bz, s => ⟨_, execBchk_keeps th p bx bz s⟩
  | .bwf th bx g unit addOne, s => ⟨_, execBwf_keeps th bx g unit addOne s⟩
  | .bld th bd a off, s => ⟨_, execBld_keeps th bd a off s⟩
  | .bst th bd a off, s => ⟨_, execBst_keeps th bd a off s⟩
  | .earm th g tx, s => ⟨_, execEarm_keeps th g tx s⟩
  | .ecan th g, s => ⟨_, execEcan_keeps th g s⟩
  | .ewait th td g, s => ⟨_, execEwait_keeps th td g s⟩
  | .paddr th d a, s => ⟨_, execPaddr_keeps th d a s⟩
  | .pinfo th d a, s => ⟨_, execPinfo_keeps th d a s⟩
  | .palloc th d a, s => ⟨_, execPalloc_keeps th d a s⟩
  | .pfree th a, s => ⟨_, execPfree_keeps th a s⟩
  | .pcopy th d a b, s => ⟨_, execPcopy_keeps th d a b s⟩
  | .psend th d a b, s => ⟨_, execPsend_keeps th d a b s⟩
  | .ptsb th bd a, s => ⟨_, execPtsb_keeps th bd a s⟩
  | .lgate th td tx g, s => ⟨_, execLgate_keeps th td tx g s⟩
  | .lsend th g tx, s => ⟨_, execLsend_keeps th g tx s⟩
  | .csub th d a b, s => ⟨_, execCsub_keeps th d a b s⟩
  | .cdrv th d a b, s => ⟨_, execCdrv_keeps th d a b s⟩
  | .crel th a, s => ⟨_, execCrel_keeps th a s⟩
  | .dinc th g, s => ⟨_, execDinc_keeps th g s⟩
  | .dens th g, s => ⟨_, execDens_keeps th g s⟩
  | .dstep th g tx, s => ⟨_, execDstep_keeps th g tx s⟩
  | .ownc th g, s => ⟨_, execOwnc_keeps th g s⟩
  | .ownr th g, s => ⟨_, execOwnr_keeps th g s⟩
  | .dosc th g, s => ⟨_, execDosc_keeps th g s⟩
  | .mfc th d c, s => ⟨_, execMfc_keeps th d c s⟩
  | .mtc th a c, s => ⟨_, execMtc_keeps th a c s⟩
  | .cryptoJobComplete lane, s => ⟨_, execCryptoJobComplete_keeps lane s⟩
  | .stkAbortGo core v, s => ⟨_, execStkAbortGo_keeps core v s⟩
  | .stkRestartGo core v, s => ⟨_, execStkRestartGo_keeps core v s⟩
  | .threadAbort q cid th, s => ⟨_, execThreadAbort_keeps q cid th s⟩
  | .threadRestart q cid th, s => ⟨_, execThreadRestart_keeps q cid th s⟩
  | .imageLoad q cid mask commit file, s => ⟨_, execImageLoad_keeps q cid mask commit file s⟩
  | .ticInWrite n v, s => ⟨_, execTicInWrite_keeps n v s⟩
  | .ticEdge ch code, s => ⟨_, execTicEdge_keeps ch code s⟩
  | .streamSampleMissing r, s => ⟨_, execStreamSampleMissing_keeps r s⟩
  | .overfreqCheck, s => ⟨_, execOverfreqCheck_keeps s⟩
  | .ticOsGo n v, s => ⟨_, execTicOsGo_keeps n v s⟩
  | .oneshotClose n, s => ⟨_, execOneshotClose_keeps n s⟩
  | .ticCalGo n v, s => ⟨_, execTicCalGo_keeps n v s⟩
  | .calSchedule ch, s => ⟨_, execCalSchedule_keeps ch s⟩
  | .calStart ch, s => ⟨_, execCalStart_keeps ch s⟩
  | .calComplete ch issued hits, s => ⟨_, execCalComplete_keeps ch issued hits s⟩
  | .calRefusedNoGap ch, s => ⟨_, execCalRefusedNoGap_keeps ch s⟩
  | .keeperCheck, s => ⟨_, execKeeperCheck_keeps s⟩
  | .ticRingBaseStage n hi v, s => ⟨_, execTicRingBaseStage_keeps n hi v s⟩
  | .ticRingCommit n v, s => ⟨_, execTicRingCommit_keeps n v s⟩
  | .ensProcessSecond, s => ⟨_, execEnsProcessSecond_keeps s⟩
  | .ensRefCfgWrite r v, s => ⟨_, execEnsRefCfgWrite_keeps r v s⟩
  | .ensNetGo j th v insn, s => ⟨_, execEnsNetGo_keeps j th v insn s⟩
  | .refAcceptCmd r v, s => ⟨_, execRefAcceptCmd_keeps r v s⟩
  | .weightWrite r v by_, s => ⟨_, execWeightWrite_keeps r v by_ s⟩
  | .measDeliver r, s => ⟨_, execMeasDeliver_keeps r s⟩
  | .holdoverCommit, s => ⟨_, execHoldoverCommit_keeps s⟩
  | .oscSpiTransfer j, s => ⟨_, execOscSpiTransfer_keeps j s⟩
  | .tempSensorRead reading, s => ⟨_, execTempSensorRead_keeps reading s⟩
  | .journalCommit, s => ⟨_, execJournalCommit_keeps s⟩
  | .jnlAckHiStage v, s => ⟨_, execJnlAckHiStage_keeps v s⟩
  | .jnlAckCommit v, s => ⟨_, execJnlAckCommit_keeps v s⟩
  | .fcwStage n num v, s => ⟨_, execFcwStage_keeps n num v s⟩
  | .fcwCommit n v, s => ⟨_, execFcwCommit_keeps n v s⟩
  | .syn0SrcWrite freq v, s => ⟨_, execSyn0SrcWrite_keeps freq v s⟩
  | .synSearchCmd n v, s => ⟨_, execSynSearchCmd_keeps n v s⟩
  | .syn0AcceptCmd v, s => ⟨_, execSyn0AcceptCmd_keeps v s⟩
  | .loopHopDone n, s => ⟨_, execLoopHopDone_keeps n s⟩
  | .loopSearchDone n found, s => ⟨_, execLoopSearchDone_keeps n found s⟩
  | .loopLock n, s => ⟨_, execLoopLock_keeps n s⟩
  | .loopCoastEntry n cause, s => ⟨_, execLoopCoastEntry_keeps n cause s⟩
  | .syn0QualEnd dy, s => ⟨_, execSyn0QualEnd_keeps dy s⟩
  | .synPhaseWrite n v, s => ⟨_, execSynPhaseWrite_keeps n v s⟩
  | .divHiStage k v, s => ⟨_, execDivHiStage_keeps k v s⟩
  | .divCommit k v, s => ⟨_, execDivCommit_keeps k v s⟩
  | .dividerAlignment, s => ⟨_, execDividerAlignment_keeps s⟩
  | .clkoutEnWrite k v, s => ⟨_, execClkoutEnWrite_keeps k v s⟩
  | .syncInEdge falling, s => ⟨_, execSyncInEdge_keeps falling s⟩
  | .ppsEdge j, s => ⟨_, execPpsEdge_keeps j s⟩
  | .ppsCfgTakeEffect j, s => ⟨_, execPpsCfgTakeEffect_keeps j s⟩
  | .ppsCompWrite j v, s => ⟨_, execPpsCompWrite_keeps j v s⟩
  | .todMessage k, s => ⟨_, execTodMessage_keeps k s⟩
  | .gnsSpCfgWrite p v, s => ⟨_, execGnsSpCfgWrite_keeps p v s⟩
  | .spRateCheck p hz, s => ⟨_, execSpRateCheck_keeps p hz s⟩
  | .spPowerCheck p pwr, s => ⟨_, execSpPowerCheck_keeps p pwr s⟩
  | .gnsCtlGo v, s => ⟨_, execGnsCtlGo_keeps v s⟩
  | .gnsCtlDone miso, s => ⟨_, execGnsCtlDone_keeps miso s⟩
  | .acqJobDone found, s => ⟨_, execAcqJobDone_keeps found s⟩
  | .acqAbort v, s => ⟨_, execAcqAbort_keeps v s⟩
  | .epochLatch obs, s => ⟨_, execEpochLatch_keeps obs s⟩
  | .antFltChange a level, s => ⟨_, execAntFltChange_keeps a level s⟩
  | .antPosWrite a which v, s => ⟨_, execAntPosWrite_keeps a which v s⟩
  | .antSigWrite a v, s => ⟨_, execAntSigWrite_keeps a v s⟩
  | .timeFloorHiStage v, s => ⟨_, execTimeFloorHiStage_keeps v s⟩
  | .timeFloorCommit v, s => ⟨_, execTimeFloorCommit_keeps v s⟩
  | .timeFloorRaise, s => ⟨_, execTimeFloorRaise_keeps s⟩
  | .gnsSnapGo v, s => ⟨_, execGnsSnapGo_keeps v s⟩
  | .snapshotStart, s => ⟨_, execSnapshotStart_keeps s⟩
  | .snapshotCaptureEnd data, s => ⟨_, execSnapshotCaptureEnd_keeps data s⟩
  | .auditSchedule, s => ⟨_, execAuditSchedule_keeps s⟩
  | .auditComplete ds, s => ⟨_, execAuditComplete_keeps ds s⟩
  | .prtCfgWrite n v, s => ⟨_, execPrtCfgWrite_keeps n v s⟩
  | .prtCalGo n v, s => ⟨_, execPrtCalGo_keeps n v s⟩
  | .portCalDone n span tx rx, s => ⟨_, execPortCalDone_keeps n span tx rx s⟩
  | .linkUp n phase rate, s => ⟨_, execLinkUp_keeps n phase rate s⟩
  | .linkDown n, s => ⟨_, execLinkDown_keeps n s⟩
  | .frameReceive n data codeErr at_ trx, s => ⟨_, execFrameReceive_keeps n data codeErr at_ trx s⟩
  | .frameToPool n, s => ⟨_, execFrameToPool_keeps n s⟩
  | .pauseTakeEffect n, s => ⟨_, execPauseTakeEffect_keeps n s⟩
  | .pauseEnd n, s => ⟨_, execPauseEnd_keeps n s⟩
  | .txFrameStart n, s => ⟨_, execTxFrameStart_keeps n s⟩
  | .txFrameEnd n, s => ⟨_, execTxFrameEnd_keeps n s⟩
  | .launchDecide n, s => ⟨_, execLaunchDecide_keeps n s⟩
  | .svcOpen v, s => ⟨_, execSvcOpen_keeps v s⟩
  | .svcClose v, s => ⟨_, execSvcClose_keeps v s⟩
  | .svcTallyWrite th v insn, s => ⟨_, execSvcTallyWrite_keeps th v insn s⟩
  | .signalingRequest n h, s => ⟨_, execSignalingRequest_keeps n h s⟩
  | .shedLevelLower, s => ⟨_, execShedLevelLower_keeps s⟩
  | .grantCancelSpread, s => ⟨_, execGrantCancelSpread_keeps s⟩
  | .clientRecordFree rec, s => ⟨_, execClientRecordFree_keeps rec s⟩
  | .delayReqServe n h, s => ⟨_, execDelayReqServe_keeps n h s⟩
  | .ntpRequest n h, s => ⟨_, execNtpRequest_keeps n h s⟩
  | .ntsRequest n h, s => ⟨_, execNtsRequest_keeps n h s⟩
  | .launchReissue th n h, s => ⟨_, execLaunchReissue_keeps th n h s⟩
  | .faultNPulseEnd, s => ⟨_, execFaultNPulseEnd_keeps s⟩
  | .fltPinHoldWrite v, s => ⟨_, execFltPinHoldWrite_keeps v s⟩
  | .fltAck n v, s => ⟨_, execFltAck_keeps n v s⟩
  | .fltClear n v, s => ⟨_, execFltClear_keeps n v s⟩
  | .graceExpiry n, s => ⟨_, execGraceExpiry_keeps n s⟩
  | .fltEscRelease v, s => ⟨_, execFltEscRelease_keeps v s⟩
  | .dmpDfdtWrite v, s => ⟨_, execDmpDfdtWrite_keeps v s⟩
  | .dmpQceilWrite n qn v, s => ⟨_, execDmpQceilWrite_keeps n qn v s⟩
  | .keyUpdate q cid data, s => ⟨_, execKeyUpdate_keeps q cid data s⟩
  | .envelopeApply, s => ⟨_, execEnvelopeApply_keeps s⟩
  | .keyAbortGo v, s => ⟨_, execKeyAbortGo_keeps v s⟩
  | .attest q cid nonce buflen, s => ⟨_, execAttest_keeps q cid nonce buflen s⟩
  | .certRead q cid buflen, s => ⟨_, execCertRead_keeps q cid buflen s⟩
  | .cookieSeal q cid cls count keys buflen, s => ⟨_, execCookieSeal_keeps q cid cls count keys buflen s⟩
  | .irqSourceEdge n detail, s => ⟨_, execIrqSourceEdge_keeps n detail s⟩
  | .irqSrcCfgWrite n v, s => ⟨_, execIrqSrcCfgWrite_keeps n v s⟩
  | .irqDoorbell v, s => ⟨_, execIrqDoorbell_keeps v s⟩
  | .irqPendSet v, s => ⟨_, execIrqPendSet_keeps v s⟩
  | .irqPendClr v, s => ⟨_, execIrqPendClr_keeps v s⟩
  | .irqGenWrite v, s => ⟨_, execIrqGenWrite_keeps v s⟩
  | .irqIssue tgt, s => ⟨_, execIrqIssue_keeps tgt s⟩
  | .irqClaimRead vec, s => ⟨_, execIrqClaimRead_keeps vec s⟩
  | .irqEoi vec v, s => ⟨_, execIrqEoi_keeps vec v s⟩
  | .irqTgtWrite n v, s => ⟨_, execIrqTgtWrite_keeps n v s⟩
  | .irqTargetTimeout n, s => ⟨_, execIrqTargetTimeout_keeps n s⟩
  | .pmcCounterWrap c ctr smp, s => ⟨_, execPmcCounterWrap_keeps c ctr smp s⟩
  | .pmcMirrorUpdate c k, s => ⟨_, execPmcMirrorUpdate_keeps c k s⟩
  | .topUnlockWrite v, s => ⟨_, execTopUnlockWrite_keeps v s⟩
  | .registerWrite off size v, s => ⟨_, execRegisterWrite_keeps off size v s⟩
  | .queueEnWrite q v, s => ⟨_, execQueueEnWrite_keeps q v s⟩
  | .sqTailDoorbell q v, s => ⟨_, execSqTailDoorbell_keeps q v s⟩
  | .cqHeadWrite q v, s => ⟨_, execCqHeadWrite_keeps q v s⟩
  | .tlArm q cid at_ word, s => ⟨_, execTlArm_keeps q cid at_ word s⟩
  | .tlCancel q cid h, s => ⟨_, execTlCancel_keeps q cid h s⟩
  | .dtmSnapshot q cid buflen, s => ⟨_, execDtmSnapshot_keeps q cid buflen s⟩
  | .dtmStep q cid sec ns frac early late, s => ⟨_, execDtmStep_keeps q cid sec ns frac early late s⟩
  | .journalRead q cid seq count buflen, s => ⟨_, execJournalRead_keeps q cid seq count buflen s⟩
  | .gnssSnapRead q cid off len buflen, s => ⟨_, execGnssSnapRead_keeps q cid off len buflen s⟩
  | .faultSummary q cid buflen, s => ⟨_, execFaultSummary_keeps q cid buflen s⟩
  | .hstAbortGo v cids, s => ⟨_, execHstAbortGo_keeps v cids s⟩
  | .pcieLinkLoss kind, s => ⟨_, execPcieLinkLoss_keeps kind s⟩
  | .bar2Access off acc, s => ⟨_, execBar2Access_keeps off acc s⟩
  | .ddrScrubRead ch addr found, s => ⟨_, execDdrScrubRead_keeps ch addr found s⟩
  | .heartbeatLaunch l tx, s => ⟨_, execHeartbeatLaunch_keeps l tx s⟩
  | .heartbeatReceive l hb at_, s => ⟨_, execHeartbeatReceive_keeps l hb at_ s⟩
  | .heartbeatLossDeadline l, s => ⟨_, execHeartbeatLossDeadline_keeps l s⟩
  | .matePresentChange high, s => ⟨_, execMatePresentChange_keeps high s⟩
  | .matInitEntry t0 t1, s => ⟨_, execMatInitEntry_keeps t0 t1 s⟩
  | .roleDecide, s => ⟨_, execRoleDecide_keeps s⟩
  | .arbContentionDemote, s => ⟨_, execArbContentionDemote_keeps s⟩
  | .matWithdraw v, s => ⟨_, execMatWithdraw_keeps v s⟩
  | .matRejoin v, s => ⟨_, execMatRejoin_keeps v s⟩
  | .promotion, s => ⟨_, execPromotion_keeps s⟩
  | .witnessMatch port clk, s => ⟨_, execWitnessMatch_keeps port clk s⟩
  | .swapRequestNow v, s => ⟨_, execSwapRequestNow_keeps v s⟩
  | .periodicSwapRequest, s => ⟨_, execPeriodicSwapRequest_keeps s⟩
  | .reversionRequest, s => ⟨_, execReversionRequest_keeps s⟩
  | .healthYieldRequest, s => ⟨_, execHealthYieldRequest_keeps s⟩
  | .swapRecheck, s => ⟨_, execSwapRecheck_keeps s⟩
  | .swapInstant, s => ⟨_, execSwapInstant_keeps s⟩
  | .mirrorWrite, s => ⟨_, execMirrorWrite_keeps s⟩
  | .mirrorFrameApply f, s => ⟨_, execMirrorFrameApply_keeps f s⟩
  | .mirrorEndMarker seq, s => ⟨_, execMirrorEndMarker_keeps seq s⟩
  | .windowCopyDone k, s => ⟨_, execWindowCopyDone_keeps k s⟩
  | .regionGate q cid word, s => ⟨_, execRegionGate_keeps q cid word s⟩
  | .regionUngate q cid word, s => ⟨_, execRegionUngate_keeps q cid word s⟩
  | .ember q cid, s => ⟨_, execEmber_keeps q cid s⟩
  | .emberAutoEntry, s => ⟨_, execEmberAutoEntry_keeps s⟩
  | .shutdown q cid, s => ⟨_, execShutdown_keeps q cid s⟩
  | .provision q cid owner qT buflen, s => ⟨_, execProvision_keeps q cid owner qT buflen s⟩
  | .advanceField q cid, s => ⟨_, execAdvanceField_keeps q cid s⟩
  | .retire q cid order, s => ⟨_, execRetire_keeps q cid order s⟩
  | .fuseProgram q cid item value, s => ⟨_, execFuseProgram_keeps q cid item value s⟩
  | .bootStore q cid mask file, s => ⟨_, execBootStore_keeps q cid mask file s⟩
  | .bootClear q cid, s => ⟨_, execBootClear_keeps q cid s⟩
  | .keeperDomainStart elapsed, s => ⟨_, execKeeperDomainStart_keeps elapsed s⟩
  | .syn0SrcFallback, s => ⟨_, execSyn0SrcFallback_keeps s⟩
  | .resetNRelease ddr0 ddr1 failed, s => ⟨_, execResetNRelease_keeps ddr0 ddr1 failed s⟩
  | .coreDieReset byPin, s => ⟨_, execCoreDieReset_keeps byPin s⟩
  | .vddClkLoss, s => ⟨_, execVddClkLoss_keeps s⟩
  | .vddKeepLoss, s => ⟨_, execVddKeepLoss_keeps s⟩
  | .pwrfailAssert, s => ⟨_, execPwrfailAssert_keeps s⟩
  | .pwrfailRelease, s => ⟨_, execPwrfailRelease_keeps s⟩
  | .debugLevelRequest lvl, s => ⟨_, execDebugLevelRequest_keeps lvl s⟩
  | .dbgDrop v, s => ⟨_, execDbgDrop_keeps v s⟩
  | .sensorRead clk core quads, s => ⟨_, execSensorRead_keeps clk core quads s⟩
  | .dclkTick, s => ⟨_, execDclkTick_keeps s⟩
  | .copyRefresh pherr, s => ⟨_, execCopyRefresh_keeps pherr s⟩
  | .syn0ReferenceReturn, s => ⟨_, execSyn0ReferenceReturn_keeps s⟩
  | .debugHalt th, s => ⟨_, execDebugHalt_keeps th s⟩
  | .debuggerResume th, s => ⟨_, execDebuggerResume_keeps th s⟩
  | .keepResetNAssert, s => ⟨_, execKeepResetNAssert_keeps s⟩
  | .pcieLinkL0 busMaster msixEn, s => ⟨_, execPcieLinkL0_keeps busMaster msixEn s⟩
  | .ephemerisCommit, s => ⟨_, execEphemerisCommit_keeps s⟩

/-- A command that answers a next state keeps what `Keeps` says. -/
theorem keeps_of_exec {c : Instr} {s t : State} (h : exec c s = .next t) : ∃ m, Keeps m s t := by
  obtain ⟨m, hm⟩ := exec_keeps c s
  rw [h] at hm
  exact ⟨m, hm⟩

/-- What an operation keeps holds the form of the state. -/
theorem Keeps.formed {m : Nat} {s t : State} (h : Keeps m s t) (hs : s.Formed) : t.Formed :=
  ⟨h.mem hs.mem, h.regs hs.regs, h.datum hs.ns⟩

/-- The form of a state says nothing of its queue. -/
theorem State.Formed.setPending {s : State} (hs : s.Formed) (l : List Instr) : State.Formed { s with pending := l } :=
  ⟨hs.mem, hs.regs, hs.ns⟩

/-- Settles O3: a step idles or runs one command, and every command keeps the form. -/
theorem everyStepKeepsTheForm : Obligations.EveryStepKeepsTheForm := by
  unfold Obligations.EveryStepKeepsTheForm
  intro s t hs hstep
  unfold step at hstep
  split at hstep
  · case h_1 =>
    cases hstep
    exact hs
  · case h_2 c r _ =>
    obtain ⟨m, hm⟩ := keeps_of_exec hstep
    exact hm.formed (hs.setPending r)

end Sys2Proof.Machine
end

section
/-!
The state that reset leaves, and the arithmetic of bound fields (R5).
-/
namespace Sys2Proof.Machine

/-- The canonical form of no octet and of no register word. -/
theorem State.reset_formed : State.reset.Formed := ⟨SMap.wf_nil _ _, SMap.wf_nil _ _, by decide⟩

/-- Every register holds its reset word. -/
theorem State.rg_reset (r : Reg) (i : Nat) : State.reset.rg r i = r.reset i := rfl

/-- The HELD bit of an ownership entry at reset (R35). -/
theorem State.reset_held (k : Nat) : State.reset.fb Fld.TOP_OWN.HELD k = ownFixed k := by
  unfold State.fb State.fd ownFixed
  rw [State.rg_reset]
  unfold Reg.reset
  by_cases h : k = 16 ∨ (29 ≤ k ∧ k ≤ 31) ∨ (128 ≤ k ∧ k ≤ 135)
  · simp only [Fld.TOP_OWN.HELD, if_true, h]
    decide
  · simp only [Fld.TOP_OWN.HELD, if_true, if_false, h]
    decide

/-- Settles O5: every word of the register file is a reset word, and the rest is read off the reset state. -/
theorem resetState : Obligations.ResetState := by
  unfold Obligations.ResetState
  exact ⟨State.reset_formed, rfl, State.rg_reset, by decide, by decide, rfl, fun k _ => State.reset_held k⟩

theorem ceilDiv_mul_right (n : Nat) : ceilDiv (n * 256) 256 = n := by
  unfold ceilDiv
  rw [if_neg (by decide)]
  omega

/-- The sum of two bounded fields, as a field: the sum of their values, saturated (R5). -/
theorem Side.word_add_bounded {a b : BitVec 32} (ha : a ≠ 0xFFFFFFFF#32) (hb : b ≠ 0xFFFFFFFF#32) :
    Side.word (Side.add (sideOf a) (sideOf b)) =
      if a.toNat + b.toNat ≤ 0xFFFFFFFE then BitVec.ofNat 32 (a.toNat + b.toNat) else 0xFFFFFFFF#32 := by
  simp only [sideOf, if_neg ha, if_neg hb, Side.add, Side.word, ← Nat.add_mul, ceilDiv_mul_right]

/-- An unbounded operand gives an unbounded sum. -/
theorem Side.word_add_unbounded {a b : BitVec 32} (h : a = 0xFFFFFFFF#32 ∨ b = 0xFFFFFFFF#32) :
    Side.word (Side.add (sideOf a) (sideOf b)) = 0xFFFFFFFF#32 := by
  have hn : Side.add (sideOf a) (sideOf b) = none := by
    rcases h with rfl | rfl
    · rfl
    · cases sideOf a <;> rfl
  rw [hn]
  rfl

/-- Settles O7: an unbounded operand, a sum out of range, and a sum in range. -/
theorem boundArithmeticSaturates : Obligations.BoundArithmeticSaturates := by
  unfold Obligations.BoundArithmeticSaturates
  intro a b
  refine ⟨fun ha => Side.word_add_unbounded (.inl ha), fun hb => Side.word_add_unbounded (.inr hb), fun hsum => ?_,
    fun ha hb hsum => ?_⟩
  · by_cases h : a = 0xFFFFFFFF#32 ∨ b = 0xFFFFFFFF#32
    · exact Side.word_add_unbounded h
    · rw [Side.word_add_bounded (fun e => h (.inl e)) (fun e => h (.inr e)), if_neg (by omega)]
  · rw [Side.word_add_bounded ha hb, if_pos hsum, BitVec.toNat_ofNat, Nat.mod_eq_of_lt (by omega)]

end Sys2Proof.Machine
end

section
/-!
Masks written as lists of parts, registers read through `Keeps`, and what the loss of a die leaves in the register file.
-/
namespace Sys2Proof.Machine

/-- The mask of some parts: what an operation that reaches no other part may change. -/
def maskOf (l : List Part) : Nat := l.foldl (fun m p => m ||| 2 ^ p.num) 0

/-- A register of a group that an operation does not reach. -/
theorem Keeps.rg {m : Nat} {z t : State} {r : Reg} (h : Keeps m z t) (hr : m.testBit (Part.regs r.group).num = false) (i : Nat) :
    t.rg r i = z.rg r i := h.same (.regs r.group) hr r i rfl

/-- A field depends on its register's word alone. -/
theorem State.fd_congr {s t : State} {f : Fld} {i : Nat} (h : t.rg f.reg i = s.rg f.reg i) : t.fd f i = s.fd f i := congrArg f.of h

theorem State.fb_congr {s t : State} {f : Fld} {i : Nat} (h : t.rg f.reg i = s.rg f.reg i) : t.fb f i = s.fb f i :=
  congrArg (fun n => decide (n = 1)) (State.fd_congr h)

/-- A field of a register of a group that an operation does not reach. -/
theorem Keeps.fd {m : Nat} {z t : State} {f : Fld} (h : Keeps m z t) (hr : m.testBit (Part.regs f.reg.group).num = false) (i : Nat) :
    t.fd f i = z.fd f i := State.fd_congr (h.rg hr i)

theorem Keeps.fb {m : Nat} {z t : State} {f : Fld} (h : Keeps m z t) (hr : m.testBit (Part.regs f.reg.group).num = false) (i : Nat) :
    t.fb f i = z.fb f i := State.fb_congr (h.rg hr i)

/-- A register apart from the one that a field is put in. -/
theorem State.rg_setF_other (s : State) (f : Fld) (n i : Nat) {q : Reg} (j : Nat) (h : f.reg ≠ q) : (s.setF f n i).rg q j = s.rg q j :=
  State.rg_wr_other _ _ _ _ _ _ (.inl h)

theorem State.rg_setB_other (s : State) (f : Fld) (b : Bool) (i : Nat) {q : Reg} (j : Nat) (h : f.reg ≠ q) :
    (s.setB f b i).rg q j = s.rg q j := State.rg_setF_other _ _ _ _ _ h

/-- A filter of a store by key: the keys that pass read as before, the others as their default. -/
theorem SMap.get_filter {κ α : Type} [DecidableEq κ] (d : κ → α) (m : SMap κ α) (p : κ → Bool) (k : κ) :
    SMap.get d (m.filter (fun e => p e.1)) k = if p k then SMap.get d m k else d k := by
  have hf : SMap.find (m.filter (fun e => p e.1)) k = if p k then SMap.find m k else none := by
    induction m with
    | nil => simp [SMap.find]
    | cons e r ih =>
      obtain ⟨k', v⟩ := e
      by_cases hk : k' = k
      · subst hk
        cases hp : p k' <;> simp [SMap.find, hp, ih]
      · cases hp : p k' <;> simp [SMap.find, hp, hk, ih]
  unfold SMap.get
  rw [hf]
  split <;> rfl

/-! ### The parts of the core-die reset -/

/-- Whether an entry is held by a thread or a host queue, and not fixed. -/
def State.coreHolds (s : State) (i : Nat) : Bool :=
  !ownFixed i && s.fb Fld.TOP_OWN.HELD i && decide (s.fd Fld.TOP_OWN.KIND i ≠ 3)

/-- An entry that a thread or a host queue holds is orphaned (R34). -/
def State.orphanEntry (s : State) (i : Nat) : State := if s.coreHolds i then s.setB Fld.TOP_OWN.ORPHAN true i else s

/-- Every entry that a thread or a host queue holds is orphaned. -/
def State.orphanAll (s : State) : State := (List.range 384).foldl State.orphanEntry s

/-- The core die cut off from the dies that run on: its events withdrawn, the writer role ended, its entries orphaned, its grace timers
freed. -/
def State.coreCut (s : State) : State :=
  let s1 := (s.withdrawEvents EvTarget.onCore).endWriter.beginNoWriter.orphanAll
  (s1.flt.grace.filter (fun e => !keeperRecord e.1)).foldl (fun s e => s.engineFree (hGrace e.1) false) s1

/-- AUTO_OPEN starts at 0 while the ladder stands at a step. -/
def State.autoOff (s : State) : State := if s.fd Fld.FLT_ESC.STEP = 0 then s else s.setB Fld.SVC_CTL.AUTO_OPEN false

theorem State.coreReset_eq (s : State) : s.coreReset = s.coreCut.coreLose.pwrShow.autoOff := rfl

theorem State.orphanAll_keeps {m : Nat} {z s : State} (h : Keeps m z s)
    (hm : Fld.TOP_OWN.ORPHAN.reg.bit &&& m = Fld.TOP_OWN.ORPHAN.reg.bit) : Keeps m z s.orphanAll :=
  keeps_foldl h fun _ i hu => keeps_ite (State.setB_keeps hu (Nat.zero_and m) hm true i) hu

/-- The parts that cutting off the core die reaches. -/
def cutting : List Part := [.timeline, .dtm, .trv, .ens, .regs .datum, .regs .traverse, .regs .own]

theorem State.coreCut_keeps (s : State) : Keeps (maskOf cutting) s s.coreCut := by
  have h1 := State.withdrawEvents_keeps (Keeps.refl (maskOf cutting) s) (by decide) EvTarget.onCore
  have h2 := State.beginNoWriter_keeps (State.endWriter_keeps h1 (by decide)) (by decide)
  exact keeps_foldl (State.orphanAll_keeps h2 (by decide)) fun _ e hu => State.engineFree_keeps hu (by decide) (hGrace e.1) false

theorem State.autoOff_keeps {m : Nat} {z s : State} (h : Keeps m z s) (hm : Reg.SVC_CTL.bit &&& m = Reg.SVC_CTL.bit) :
    Keeps m z s.autoOff := keeps_ite h (State.setB_keeps (f := Fld.SVC_CTL.AUTO_OPEN) h (Nat.zero_and m) hm false 0)

theorem State.rg_autoOff (s : State) {r : Reg} (i : Nat) (hr : r ≠ .SVC_CTL) : s.autoOff.rg r i = s.rg r i := by
  unfold State.autoOff
  split
  · rfl
  · exact State.rg_setB_other s Fld.SVC_CTL.AUTO_OPEN false 0 i hr.symm

theorem State.autoOff_clears (s : State) (h : s.fd Fld.FLT_ESC.STEP ≠ 0) : s.autoOff.fb Fld.SVC_CTL.AUTO_OPEN = false := by
  unfold State.autoOff
  rw [if_neg h]
  exact State.fb_setB_same s Fld.SVC_CTL.AUTO_OPEN false 0 rfl (by decide)

/-- PWR_STAT alone follows the gates. -/
theorem State.rg_pwrShow (s : State) {r : Reg} (i : Nat) (hr : r ≠ .PWR_STAT) : s.pwrShow.rg r i = s.rg r i := by
  unfold State.pwrShow
  simp only [State.rg_setB_other _ Fld.PWR_STAT.PWRFAIL _ _ i hr.symm, State.rg_setB_other _ Fld.PWR_STAT.GNSS_GATED _ _ i hr.symm,
    State.rg_setF_other _ Fld.PWR_STAT.CR_GATED _ _ i hr.symm, State.rg_setF_other _ Fld.PWR_STAT.STATE _ _ i hr.symm]

theorem State.beginNoWriter_sets (s : State) : s.beginNoWriter.fb Fld.TRV_STAT.NOWRITER = true := by
  have h := State.fb_setB_same s Fld.TRV_STAT.NOWRITER true 0 rfl (by decide)
  unfold State.beginNoWriter
  simp only
  split
  · exact h
  · split <;> exact h

/-! ### The core-die registers after the reset -/

/-- The registers of the core die read their reset words, the others as before. -/
theorem State.rg_coreLose (s : State) (r : Reg) (i : Nat) :
    s.coreLose.rg r i = if r.domain i = .core then RegKey.dflt ⟨r, i⟩ else s.rg r i := by
  have h := SMap.get_filter RegKey.dflt s.regs (fun k => decide (k.reg.domain k.idx ≠ .core)) ⟨r, i⟩
  refine Eq.trans h ?_
  by_cases hd : r.domain i = .core <;> simp [hd, State.rg]

/-- The registers of the Datum and Traverse blocks have clock-die addresses. -/
theorem Reg.clock_base (r : Reg) (h : r.group = .datum ∨ r.group = .traverse) : 0x100000 ≤ r.row.base ∧ r.row.base < 0x400000 := by
  revert h
  cases r <;> decide

/-- A register that the keeper holds belongs to neither the Datum nor the Traverse block. -/
theorem Reg.keeper_group {r : Reg} {i : Nat} (h : r.domain i = .keeper) : ¬ (r.group = .datum ∨ r.group = .traverse) := by
  intro hg
  unfold Reg.domain at h
  simp [Reg.clock_base r hg] at h

end Sys2Proof.Machine
end

section
/-!
The core-die reset (R11, R17, R34, R138, R264): what it leaves of the engine, said once, for every command that resets the core die.
-/
namespace Sys2Proof.Machine

/-! ### The entries that the core die leaves orphaned -/

theorem State.orphanEntry_fd (s : State) (i k : Nat) {g : Fld} (h0 : g.lo ≤ g.hi) (hg : g.hi < 30 ∨ 30 < g.lo) :
    (s.orphanEntry i).fd g k = s.fd g k := by
  unfold State.orphanEntry
  split
  · exact State.fd_setF_other s Fld.TOP_OWN.ORPHAN g _ i k (by decide) (by decide) h0 (.inr (hg.imp_right .inl))
  · rfl

theorem State.orphanEntry_coreHolds (s : State) (i k : Nat) : (s.orphanEntry i).coreHolds k = s.coreHolds k := by
  unfold State.coreHolds State.fb
  rw [State.orphanEntry_fd s i k (g := Fld.TOP_OWN.HELD) (by decide) (.inr (by decide)),
    State.orphanEntry_fd s i k (g := Fld.TOP_OWN.KIND) (by decide) (.inl (by decide))]

theorem State.orphanEntry_sets (s : State) (k : Nat) (h : s.coreHolds k = true) : (s.orphanEntry k).fb Fld.TOP_OWN.ORPHAN k = true := by
  unfold State.orphanEntry
  rw [if_pos h]
  exact State.fb_setB_same s Fld.TOP_OWN.ORPHAN true k rfl (by decide)

theorem State.orphanEntry_keeps_orphan (s : State) (i k : Nat) (h : s.fb Fld.TOP_OWN.ORPHAN k = true) :
    (s.orphanEntry i).fb Fld.TOP_OWN.ORPHAN k = true := by
  unfold State.orphanEntry
  split
  · by_cases hik : i = k
    · subst hik
      exact State.fb_setB_same s Fld.TOP_OWN.ORPHAN true i rfl (by decide)
    · exact (State.fb_setB_other s Fld.TOP_OWN.ORPHAN Fld.TOP_OWN.ORPHAN true i k (by decide) (by decide) (by decide)
        (.inr (.inr (.inr hik)))).trans h
  · exact h

/-- An entry that is orphaned, or stands in the list with a holder on the core die, is orphaned in the end. -/
theorem foldl_orphanEntry {k : Nat} (l : List Nat) :
    ∀ s : State, s.fb Fld.TOP_OWN.ORPHAN k = true ∨ (k ∈ l ∧ s.coreHolds k = true) →
      (l.foldl State.orphanEntry s).fb Fld.TOP_OWN.ORPHAN k = true := by
  induction l with
  | nil =>
    rintro s (h | ⟨h, -⟩)
    · exact h
    · exact absurd h List.not_mem_nil
  | cons i r ih =>
    rintro s (h | ⟨hk, h⟩)
    · exact ih _ (.inl (s.orphanEntry_keeps_orphan i k h))
    · rcases List.mem_cons.1 hk with rfl | hr
      · exact ih _ (.inl (s.orphanEntry_sets k h))
      · exact ih _ (.inr ⟨hr, (s.orphanEntry_coreHolds i k).trans h⟩)

/-! ### What the core die leaves -/

/-- What the loss of the core die leaves of a state: the die is bare, the dies that run on keep what they hold, and the interval without
a writer runs. The supplies and pins are said apart. -/
structure CoreLost (s t : State) : Prop where
  d2d      : t.d2dUp = false
  bare     : t.mem = [] ∧ t.threads = [] ∧ t.images = [] ∧ t.frames = [] ∧ t.launches = [] ∧ t.jobs = []
  cairn    : t.cairn = s.cairn
  datum    : t.datum = s.datum
  clock    : t.tick = s.tick ∧ t.syn = s.syn ∧ t.tic = s.tic ∧ t.gns = s.gns ∧ t.thm = s.thm
  noWriter : t.fb Fld.TRV_STAT.NOWRITER = true
  coreRegs : ∀ r i, r.domain i = .core → r ≠ .SVC_CTL → r.group ≠ .power → t.rg r i = RegKey.dflt ⟨r, i⟩
  keepRegs : ∀ r i, r.domain i = .keeper → r.group ∉ [RegGroup.own, .power] → t.rg r i = s.rg r i
  orphans  : ∀ k, k < 384 → ownFixed k = false → s.fb Fld.TOP_OWN.HELD k = true → s.fd Fld.TOP_OWN.KIND k ≠ 3 →
    t.fb Fld.TOP_OWN.ORPHAN k = true
  autoOpen : s.fd Fld.FLT_ESC.STEP ≠ 0 → t.fb Fld.SVC_CTL.AUTO_OPEN = false

/-- The supplies and pins of neither state stand in it. -/
theorem CoreLost.setPwr {s t : State} {p : PwrState} (q : PwrState) (h : CoreLost { s with pwr := p } t) :
    CoreLost s { t with pwr := q } := by
  obtain ⟨d2d, bare, cairn, datum, clock, noWriter, coreRegs, keepRegs, orphans, autoOpen⟩ := h
  exact ⟨d2d, bare, cairn, datum, clock, noWriter, coreRegs, keepRegs, orphans, autoOpen⟩

theorem Reg.ne_pwrStat {r : Reg} (h : r.group ≠ .power) : r ≠ .PWR_STAT := by
  rintro rfl
  exact h (by decide)

theorem Reg.keeper_ne_svcCtl {r : Reg} {i : Nat} (h : r.domain i = .keeper) : r ≠ .SVC_CTL := by
  rintro rfl
  rw [show Reg.SVC_CTL.domain i = .core from rfl] at h
  exact absurd h (by decide)

/-- A register after the core-die reset, but for the two that follow the reset itself. -/
theorem State.rg_coreReset (s : State) {r : Reg} (i : Nat) (hp : r ≠ .PWR_STAT) (hs : r ≠ .SVC_CTL) :
    s.coreReset.rg r i = if r.domain i = .core then RegKey.dflt ⟨r, i⟩ else s.coreCut.rg r i := by
  rw [State.coreReset_eq, State.rg_autoOff _ i hs, State.rg_pwrShow _ i hp, State.rg_coreLose]

/-- Only two registers change once the core die has lost what it holds. -/
theorem State.coreReset_shows (s : State) : Keeps (maskOf [.regs .power, .regs .service]) s.coreCut.coreLose s.coreReset :=
  State.autoOff_keeps (State.pwrShow_keeps (Keeps.refl _ _) (by decide)) (by decide)

/-- A keeper-held register is not reached, but for ownership entries and the power block. -/
theorem State.coreCut_keeper (s : State) {r : Reg} {i : Nat} (hd : r.domain i = .keeper) (hg : r.group ∉ [RegGroup.own, .power]) :
    s.coreCut.rg r i = s.rg r i := by
  have hk := Reg.keeper_group hd
  refine s.coreCut_keeps.rg ?_ i
  revert hg hk
  generalize r.group = g
  cases g <;> decide

theorem State.coreReset_keeper (s : State) {r : Reg} {i : Nat} (hd : r.domain i = .keeper) (hg : r.group ∉ [RegGroup.own, .power]) :
    s.coreReset.rg r i = s.rg r i := by
  have hp : r.group ≠ .power := fun e => hg (by simp [e])
  rw [State.rg_coreReset s i (Reg.ne_pwrStat hp) (Reg.keeper_ne_svcCtl hd), if_neg (by rw [hd]; decide), s.coreCut_keeper hd hg]

theorem State.coreReset_noWriter (s : State) : s.coreReset.fb Fld.TRV_STAT.NOWRITER = true := by
  have hcut : s.coreCut.rg .TRV_STAT 0 = (s.withdrawEvents EvTarget.onCore).endWriter.beginNoWriter.rg .TRV_STAT 0 := by
    have h1 := State.orphanAll_keeps (Keeps.refl (maskOf [.timeline, .regs .datum, .regs .own])
      (s.withdrawEvents EvTarget.onCore).endWriter.beginNoWriter) (by decide)
    exact (keeps_foldl h1 fun _ e hu => State.engineFree_keeps hu (by decide) (hGrace e.1) false).rg (by decide) 0
  have hrg : s.coreReset.rg .TRV_STAT 0 = (s.withdrawEvents EvTarget.onCore).endWriter.beginNoWriter.rg .TRV_STAT 0 :=
    (State.rg_coreReset s 0 (by decide) (by decide)).trans hcut
  exact (State.fb_congr hrg).trans (State.beginNoWriter_sets _)

theorem State.coreReset_orphans (s : State) {k : Nat} (hk : k < 384) (h : s.coreHolds k = true) :
    s.coreReset.fb Fld.TOP_OWN.ORPHAN k = true := by
  have hq : Keeps (maskOf [.timeline, .dtm, .trv, .ens, .regs .datum, .regs .traverse]) s
      (s.withdrawEvents EvTarget.onCore).endWriter.beginNoWriter :=
    State.beginNoWriter_keeps (State.endWriter_keeps (State.withdrawEvents_keeps (Keeps.refl _ s) (by decide) EvTarget.onCore)
      (by decide)) (by decide)
  have ho : (s.withdrawEvents EvTarget.onCore).endWriter.beginNoWriter.orphanAll.fb Fld.TOP_OWN.ORPHAN k = true := by
    refine foldl_orphanEntry _ _ (.inr ⟨List.mem_range.2 hk, ?_⟩)
    rw [← h]
    unfold State.coreHolds
    rw [hq.fb (by decide), hq.fd (by decide)]
  have hcut : s.coreCut.fb Fld.TOP_OWN.ORPHAN k = true :=
    ((keeps_foldl (Keeps.refl (maskOf [.timeline, .regs .datum]) _) fun _ e hu =>
      State.engineFree_keeps hu (by decide) (hGrace e.1) false).fb (by decide) k).trans ho
  exact (State.fb_congr (State.rg_coreReset s k (by decide) (by decide))).trans hcut

theorem State.coreReset_autoOpen (s : State) (h : s.fd Fld.FLT_ESC.STEP ≠ 0) : s.coreReset.fb Fld.SVC_CTL.AUTO_OPEN = false := by
  have he : s.coreCut.coreLose.pwrShow.rg .FLT_ESC 0 = s.rg .FLT_ESC 0 := by
    rw [State.rg_pwrShow _ 0 (by decide), State.rg_coreLose]
    exact s.coreCut_keeper (r := .FLT_ESC) (i := 0) (by decide) (by decide)
  have hf : s.coreCut.coreLose.pwrShow.fd Fld.FLT_ESC.STEP = s.fd Fld.FLT_ESC.STEP := State.fd_congr he
  rw [State.coreReset_eq]
  exact State.autoOff_clears _ (by rwa [hf])

theorem State.coreReset_lost (s : State) : CoreLost s s.coreReset where
  d2d := s.coreReset_shows.same .d2dUp (by decide)
  bare := ⟨s.coreReset_shows.same .mem (by decide), s.coreReset_shows.same .threads (by decide),
    s.coreReset_shows.same .images (by decide), s.coreReset_shows.same .frames (by decide),
    s.coreReset_shows.same .launches (by decide), s.coreReset_shows.same .jobs (by decide)⟩
  cairn := (State.coreReset_keeps (Keeps.refl 0x7FFFFE3F17FFB2 s) (by decide)).same .cairn (by decide)
  datum := (State.coreReset_keeps (Keeps.refl 0x7FFFFE3F17FFB2 s) (by decide)).same .datum (by decide)
  clock := by
    have h := State.coreReset_keeps (Keeps.refl 0x7FFFFE3F17FFB2 s) (by decide)
    exact ⟨h.same .tick (by decide), h.same .syn (by decide), h.same .tic (by decide), h.same .gns (by decide),
      h.same .thm (by decide)⟩
  noWriter := s.coreReset_noWriter
  coreRegs := fun r i hd hs hp => by rw [State.rg_coreReset s i (Reg.ne_pwrStat hp) hs, if_pos hd]
  keepRegs := fun _ _ hd hg => s.coreReset_keeper hd hg
  orphans := fun k hk hf hh hn => s.coreReset_orphans hk (by simp [State.coreHolds, hf, hh, hn])
  autoOpen := s.coreReset_autoOpen

/-- Of the supplies and pins, the core-die reset changes the core die alone, with what it isolated, gated and debugged. -/
theorem State.coreReset_pwr (s : State) :
    s.coreReset.pwr = { s.pwr with core := .held, isolated := [], gatedCr := [], debug := .off } := by
  have hcut : s.coreCut.pwr = s.pwr := s.coreCut_keeps.same .pwr (by decide)
  have hshow : s.coreReset.pwr = s.coreCut.coreLose.pwr := s.coreReset_shows.same .pwr (by decide)
  rw [hshow, ← hcut]
  rfl

end Sys2Proof.Machine
end

section
/-!
The losses of power and the resets of both dies (R11, R369, R377, R387, R388): what each of them leaves.
-/
namespace Sys2Proof.Machine

/-! ### What stands through a loss -/

/-- What no reset or loss of VDD_CLK changes of the supplies and the security state (R11, R369, R377). -/
structure PwrState.Stands (p q : PwrState) : Prop where
  fuses    : q.fuses = p.fuses
  boot     : q.boot = p.boot
  debugged : q.debugged = p.debugged
  zeroised : q.zeroised = p.zeroised
  vddKeep  : q.vddKeep = p.vddKeep

theorem PwrState.Stands.trans {p q r : PwrState} (h : p.Stands q) (g : q.Stands r) : p.Stands r :=
  ⟨g.fuses.trans h.fuses, g.boot.trans h.boot, g.debugged.trans h.debugged, g.zeroised.trans h.zeroised, g.vddKeep.trans h.vddKeep⟩

theorem State.coreReset_stands (s : State) : s.pwr.Stands s.coreReset.pwr := by
  rw [s.coreReset_pwr]
  exact ⟨rfl, rfl, rfl, rfl, rfl⟩

/-- The core die is up exactly when it runs. -/
theorem State.coreUp_eq_false {s : State} (h : s.pwr.core ≠ .running) : s.coreUp = false := by
  unfold State.coreUp
  exact decide_eq_false h

/-- The fall of the core supplies is noted for the next start, and changes nothing else (R387). -/
theorem State.powerLost_eq (s : State) :
    ∃ w c, s.powerLost = { s with pwr := { s.pwr with lostWarn := w, coreLost := c } } := by
  unfold State.powerLost
  split
  · exact ⟨s.pwr.lostWarn, s.pwr.coreLost, rfl⟩
  · exact ⟨_, _, rfl⟩

theorem State.powerLost_stands (s : State) : s.pwr.Stands s.powerLost.pwr := by
  obtain ⟨w, c, e⟩ := s.powerLost_eq
  rw [e]
  exact ⟨rfl, rfl, rfl, rfl, rfl⟩

theorem State.coreUp_powerLost (s : State) : s.powerLost.coreUp = s.coreUp := by
  obtain ⟨w, c, e⟩ := s.powerLost_eq
  rw [e]
  rfl

theorem State.rg_powerLost (s : State) (r : Reg) (i : Nat) : s.powerLost.rg r i = s.rg r i := by
  obtain ⟨w, c, e⟩ := s.powerLost_eq
  rw [e]
  rfl

/-! ### CORE_DIE_RESET -/

theorem State.coreDieReset_byPin (s : State) (h : s.coreUp = true) :
    s.coreDieReset true = { s.coreReset with pwr := { s.coreReset.pwr with resetN := true, needPin := false } } := by
  simp only [State.coreDieReset, h, if_true]

theorem State.coreDieReset_bySupply (s : State) (h : s.coreUp = true) :
    s.coreDieReset false =
      { s.powerLost.coreReset with pwr := { s.powerLost.coreReset.pwr with core := .off, coreOk := false } } := by
  simp only [State.coreDieReset, h, if_true, Bool.false_eq_true, if_false]

theorem State.coreDieReset_lost (s : State) (byPin : Bool) (h : s.coreUp = true) : CoreLost s (s.coreDieReset byPin) := by
  cases byPin with
  | true =>
    rw [s.coreDieReset_byPin h]
    exact CoreLost.setPwr (p := s.pwr) _ s.coreReset_lost
  | false =>
    obtain ⟨w, c, e⟩ := s.powerLost_eq
    rw [s.coreDieReset_bySupply h, e]
    exact CoreLost.setPwr _ (State.coreReset_lost _)

/-- The supplies and pins after CORE_DIE_RESET: the die does not run, and its pin, when that asked, is answered. -/
theorem State.coreDieReset_pwr (s : State) (byPin : Bool) (h : s.coreUp = true) :
    s.pwr.Stands (s.coreDieReset byPin).pwr ∧ (s.coreDieReset byPin).pwr.core ≠ .running ∧
      (s.coreDieReset byPin).pwr.resetN = (byPin || s.pwr.resetN) ∧
      (byPin = true → (s.coreDieReset byPin).pwr.needPin = false) := by
  cases byPin with
  | true =>
    rw [s.coreDieReset_byPin h, s.coreReset_pwr]
    exact ⟨⟨rfl, rfl, rfl, rfl, rfl⟩, by simp, rfl, fun _ => rfl⟩
  | false =>
    obtain ⟨w, c, e⟩ := s.powerLost_eq
    rw [s.coreDieReset_bySupply h, State.coreReset_pwr, e]
    exact ⟨⟨rfl, rfl, rfl, rfl, rfl⟩, by simp, rfl, fun hf => absurd hf (by decide)⟩

/-! ### The reset of the clock die -/

/-- The core die out of service: reset when it runs. -/
def State.coreOut (s : State) : State := if s.coreUp then s.coreReset else s

theorem State.coreOut_stands (s : State) : s.pwr.Stands s.coreOut.pwr := by
  unfold State.coreOut
  split
  · exact s.coreReset_stands
  · exact ⟨rfl, rfl, rfl, rfl, rfl⟩

theorem State.coreOut_keeper (s : State) {r : Reg} {i : Nat} (hd : r.domain i = .keeper) (hg : r.group ∉ [RegGroup.own, .power]) :
    s.coreOut.rg r i = s.rg r i := by
  unfold State.coreOut
  split
  · exact s.coreReset_keeper hd hg
  · rfl

theorem State.clockReset_stands (s : State) : s.pwr.Stands s.clockReset.pwr :=
  s.coreOut_stands.trans ⟨rfl, rfl, rfl, rfl, rfl⟩

/-- The registers of the keeper stay, those of both dies read their reset words. -/
theorem State.rg_clockReset (s : State) (r : Reg) (i : Nat) :
    s.clockReset.rg r i = if r.domain i = .keeper then s.coreOut.rg r i else RegKey.dflt ⟨r, i⟩ := by
  refine Eq.trans (SMap.get_filter RegKey.dflt s.coreOut.regs (fun k => decide (k.reg.domain k.idx = .keeper)) ⟨r, i⟩) ?_
  simp only [decide_eq_true_eq]
  rfl

/-- A running core die loses what it holds with the clock die. -/
theorem State.clockReset_bare (s : State) (h : s.coreUp = true) :
    s.clockReset.mem = [] ∧ s.clockReset.threads = [] ∧ s.clockReset.images = [] ∧ s.clockReset.frames = [] ∧
      s.clockReset.launches = [] ∧ s.clockReset.jobs = [] := by
  have hb := s.coreReset_lost.bare
  unfold State.clockReset
  simpa only [h, if_true] using hb

/-- What the clock-die reset does not reach: the Cairn store and the Datum. -/
theorem State.clockReset_kept (s : State) : s.clockReset.cairn = s.cairn ∧ s.clockReset.datum = s.datum := by
  have h := State.clockReset_keeps (Keeps.refl 0x7FFFFEBF17FFB3 s) (by decide)
  exact ⟨h.same .cairn (by decide), h.same .datum (by decide)⟩

/-! ### VDD_CLK_LOSS -/

theorem State.powerLost_kept (s : State) : s.powerLost.cairn = s.cairn ∧ s.powerLost.datum = s.datum := by
  obtain ⟨w, c, e⟩ := s.powerLost_eq
  rw [e]
  exact ⟨rfl, rfl⟩

/-- PWR_STAT alone differs from the clock-die reset with the supplies off. -/
theorem State.clkLoss_shows (s : State) :
    Keeps (maskOf [.regs .power])
      { s.powerLost.clockReset with pwr := { s.powerLost.clockReset.pwr with vddClk := false, core := .off, coreOk := false } }
      s.clkLoss := State.pwrShow_keeps (Keeps.refl _ _) (by decide)

theorem State.clkLoss_pwr (s : State) :
    s.clkLoss.pwr = { s.powerLost.clockReset.pwr with vddClk := false, core := .off, coreOk := false } :=
  s.clkLoss_shows.same .pwr (by decide)

theorem State.clkLoss_stands (s : State) : s.pwr.Stands s.clkLoss.pwr := by
  rw [s.clkLoss_pwr]
  exact (s.powerLost_stands.trans s.powerLost.clockReset_stands).trans ⟨rfl, rfl, rfl, rfl, rfl⟩

theorem State.clkLoss_off (s : State) : s.clkLoss.clockUp = false ∧ s.clkLoss.coreUp = false := by
  unfold State.clockUp State.coreUp
  rw [s.clkLoss_pwr]
  simp

theorem State.clkLoss_kept (s : State) : s.clkLoss.cairn = s.cairn ∧ s.clkLoss.datum = s.datum := by
  obtain ⟨hc, hd⟩ := s.powerLost.clockReset_kept
  obtain ⟨gc, gd⟩ := s.powerLost_kept
  exact ⟨(s.clkLoss_shows.same .cairn (by decide)).trans (hc.trans gc), (s.clkLoss_shows.same .datum (by decide)).trans (hd.trans gd)⟩

theorem State.clkLoss_timeline (s : State) : s.clkLoss.timeline = [] := s.clkLoss_shows.same .timeline (by decide)

theorem State.clkLoss_bare (s : State) (h : s.coreUp = true) :
    s.clkLoss.mem = [] ∧ s.clkLoss.threads = [] ∧ s.clkLoss.images = [] ∧ s.clkLoss.frames = [] ∧ s.clkLoss.launches = [] ∧
      s.clkLoss.jobs = [] := by
  obtain ⟨hm, ht, hi, hf, hl, hj⟩ := s.powerLost.clockReset_bare (s.coreUp_powerLost.trans h)
  exact ⟨(s.clkLoss_shows.same .mem (by decide)).trans hm, (s.clkLoss_shows.same .threads (by decide)).trans ht,
    (s.clkLoss_shows.same .images (by decide)).trans hi, (s.clkLoss_shows.same .frames (by decide)).trans hf,
    (s.clkLoss_shows.same .launches (by decide)).trans hl, (s.clkLoss_shows.same .jobs (by decide)).trans hj⟩

theorem State.rg_clkLoss (s : State) {r : Reg} (i : Nat) (hp : r ≠ .PWR_STAT) :
    s.clkLoss.rg r i = if r.domain i = .keeper then s.powerLost.coreOut.rg r i else RegKey.dflt ⟨r, i⟩ :=
  (State.rg_pwrShow _ i hp).trans (s.powerLost.rg_clockReset r i)

theorem State.clkLoss_keeper (s : State) {r : Reg} {i : Nat} (hd : r.domain i = .keeper) (hg : r.group ∉ [RegGroup.own, .power]) :
    s.clkLoss.rg r i = s.rg r i := by
  have hp : r.group ≠ .power := fun e => hg (by simp [e])
  rw [s.rg_clkLoss i (Reg.ne_pwrStat hp), if_pos hd, s.powerLost.coreOut_keeper hd hg, s.rg_powerLost]

/-! ### KEEP_RESET_N_ASSERT and VDD_KEEP_LOSS -/

/-- Every register but FLT_ESC_LAST, whose count stands (R388), reads its reset word. -/
theorem State.rg_keeperReset (s : State) {r : Reg} (i : Nat) (h : r ≠ .FLT_ESC_LAST) : s.keeperReset.rg r i = RegKey.dflt ⟨r, i⟩ :=
  State.rg_setF_other _ Fld.FLT_ESC_LAST.COUNT _ _ i h.symm

theorem State.keeperReset_kept (s : State) : s.keeperReset.cairn = s.cairn ∧ s.keeperReset.datum = s.datum := s.clockReset_kept

theorem State.keepReset_off (s : State) : s.keepReset.clockUp = false ∧ s.keepReset.coreUp = false := by
  refine ⟨by simp [State.clockUp, State.keepReset], ?_⟩
  unfold State.coreUp State.keepReset
  simp only
  split <;> simp

theorem State.keepReset_stands (s : State) : s.pwr.Stands s.keepReset.pwr :=
  s.clockReset_stands.trans ⟨rfl, rfl, rfl, rfl, rfl⟩

theorem State.keepLoss_off (s : State) : s.keepLoss.clockUp = false ∧ s.keepLoss.coreUp = false := ⟨rfl, rfl⟩

theorem State.keepLoss_kept (s : State) :
    s.keepLoss.cairn = s.cairn ∧ s.keepLoss.datum = s.datum ∧ s.keepLoss.pwr.fuses = s.pwr.fuses ∧
      s.keepLoss.pwr.boot = s.pwr.boot := by
  obtain ⟨hc, hd⟩ := s.powerLost.keeperReset_kept
  obtain ⟨gc, gd⟩ := s.powerLost_kept
  have hs := s.powerLost_stands.trans s.powerLost.clockReset_stands
  exact ⟨hc.trans gc, hd.trans gd, hs.fuses, hs.boot⟩

end Sys2Proof.Machine
end

section
/-!
The keeper-domain start (R141, R383): what it resumes of the Datum, and what the steps after that leave alone.
-/
namespace Sys2Proof.Machine

/-- A fold whose steps leave what `f` reads alone leaves it alone. -/
theorem foldl_unchanged {α β : Type} {f : State → β} {g : State → α → State} (h : ∀ s x, f (g s x) = f s) (l : List α) :
    ∀ s, f (l.foldl g s) = f s := by
  induction l with
  | nil => exact fun _ => rfl
  | cons x r ih => exact fun s => (ih (g s x)).trans (h s x)

/-- A register pair reads as the value it was set to. -/
theorem State.pair_setPair_same (s : State) {hi lo : Reg} (h : hi ≠ lo) (v : BitVec 64) (i : Nat) :
    (s.setPair hi lo v i).pair hi lo i = v := by
  unfold State.pair State.setPair
  rw [State.rg_wr_other _ _ _ _ _ _ (.inl h.symm), State.rg_wr_same, State.rg_wr_same]
  exact BitVec.extractLsb'_append_extractLsb'_eq_extractLsb' (w := 64) (by decide) |>.trans (by simp)

theorem State.rg_setPair_other (s : State) {hi lo q : Reg} (v : BitVec 64) (i j : Nat) (h1 : hi ≠ q) (h2 : lo ≠ q) :
    (s.setPair hi lo v i).rg q j = s.rg q j := by
  unfold State.setPair
  rw [State.rg_wr_other _ _ _ _ _ _ (.inl h2), State.rg_wr_other _ _ _ _ _ _ (.inl h1)]

/-! ### The Cairn store read back -/

/-- The supplies and the Cairn store are the same: no step of reading the store back changes them. -/
structure Holds (s t : State) : Prop where
  pwr   : t.pwr = s.pwr
  cairn : t.cairn = s.cairn

theorem Holds.refl (s : State) : Holds s s := ⟨rfl, rfl⟩

theorem Holds.trans {a b c : State} (h : Holds a b) (g : Holds b c) : Holds a c := ⟨g.pwr.trans h.pwr, g.cairn.trans h.cairn⟩

theorem Holds.foldl {α : Type} {f : State → α → State} (hf : ∀ s x, Holds s (f s x)) (l : List α) :
    ∀ s, Holds s (l.foldl f s) := by
  induction l with
  | nil => exact Holds.refl
  | cons x r ih => exact fun s => (hf s x).trans (ih (f s x))

theorem Keeps.holds {m : Nat} {z t : State} (h : Keeps m z t) (hp : m.testBit 29 = false) (hc : m.testBit 30 = false) :
    Holds z t := ⟨h.same .pwr hp, h.same .cairn hc⟩

theorem State.wr_holds (s : State) (r : Reg) (i : Nat) (v : BitVec 32) : Holds s (s.wr r i v) := ⟨rfl, rfl⟩

theorem State.setB_holds (s : State) (f : Fld) (b : Bool) (i : Nat) : Holds s (s.setB f b i) := ⟨rfl, rfl⟩

theorem Holds.setEns {s t : State} (h : Holds s t) (e : EnsState) : Holds s { t with ens := e } := ⟨h.pwr, h.cairn⟩

/-- A committed calibration table put in place. -/
theorem State.showTable_holds (s : State) (n : Nat) (c : TicChan) (t : CalTable) : Holds s ((s.setTch n c).showTable n t) :=
  Holds.trans (b := s.setTch n c) ⟨rfl, rfl⟩
    ((State.showTable_keeps (Keeps.refl (maskOf [.regs .tic]) (s.setTch n c)) (by decide) n t).holds (by decide) (by decide))

theorem State.loadCairn_holds (s : State) : Holds s s.loadCairn := by
  unfold State.loadCairn
  extract_lets c _ _ _ s1 s2 s3 s4 newest
  have h1 : Holds s s1 := ⟨rfl, rfl⟩
  have h2 : Holds s1 s2 := Holds.foldl (fun u e => u.wr_holds e.1.reg e.1.idx e.2) c.regs s1
  have h3 : Holds s2 s3 := by
    refine Holds.foldl (fun u e => ?_) c.tic s2
    dsimp only
    split
    · exact (State.showTable_holds u _ _ _).trans (State.setB_holds _ _ _ _)
    · exact State.showTable_holds u _ _ _
  have h4 : Holds s3 s4 := by
    refine Holds.foldl (fun u i => ?_) _ s3
    split
    · exact State.setB_holds _ _ _ _
    · exact Holds.refl u
  have h5 : Holds s s4 := ((h1.trans h2).trans h3).trans h4
  clear_value s4 newest
  cases newest with
  | none => exact h5
  | some h =>
    have hz := Holds.foldl (fun (u : State) (e : Reg × BitVec 32) => u.wr_holds e.1 0 e.2)
      ([Reg.ENS_HOLD_Y0, .ENS_HOLD_AGE, .ENS_HOLD_TC, .ENS_HOLD_UY, .ENS_HOLD_UA, .ENS_HOLD_UC, .ENS_HOLD_RES].zip h.regs) s4
    exact ((((h5.trans hz).trans (State.wr_holds _ _ _ _)).trans (State.wr_holds _ _ _ _)).trans (State.setB_holds _ _ _ _)).setEns _

/-- What the steps before the Datum resumes leave alone. -/
theorem State.beforeDatum_holds (s : State) : Holds s s.loadCairn.resumeJournal.rearmLeap :=
  s.loadCairn_holds.trans ((State.rearmLeap_keeps (State.resumeJournal_keeps
    (Keeps.refl (maskOf [.timeline, .dtm, .trv, .regs .datum, .regs .traverse]) s.loadCairn) (by decide)) (by decide)).holds
    (by decide) (by decide))

/-! ### The Datum resumes -/

/-- A record of the benchmark journal leaves TRV_STAT alone. -/
theorem State.ringPush_trvStat (s : State) (r : BmkRecord) : (s.ringPush r).rg .TRV_STAT 0 = s.rg .TRV_STAT 0 := by
  unfold State.ringPush
  extract_lets oldSeq _ s0 s1 _ s2
  have h1 : s1.rg .TRV_STAT 0 = s.rg .TRV_STAT 0 := by
    dsimp only [s1]
    split
    · split
      · exact State.rg_wr_other _ .TRV_JNL_LOST .TRV_STAT 0 0 _ (.inl (by decide))
      · rfl
    · rfl
  rw [State.rg_setPair_other _ _ _ _ (by decide) (by decide), State.rg_setPair_other _ _ _ _ (by decide) (by decide)]
  exact h1

theorem State.journal_trvStat (s : State) (kind entry detail : Nat) (at_ : TimeVal) (phase : Int) (refE refL : BitVec 32)
    (image : List Byte) : (s.journal kind entry detail at_ phase refE refL image).rg .TRV_STAT 0 = s.rg .TRV_STAT 0 := by
  unfold State.journal
  extract_lets b prev r _ s1
  split
  · exact foldl_unchanged (f := fun u => u.rg .TRV_STAT 0) State.ringPush_trvStat s1.trv.pendingR s1
  · rfl

/-- Of the registers, the interval without a writer shows in NOWRITER alone. -/
theorem State.beginNoWriter_regs (s : State) : s.beginNoWriter.regs = (s.setB Fld.TRV_STAT.NOWRITER true).regs := by
  unfold State.beginNoWriter
  simp only
  split
  · rfl
  · split <;> rfl

/-- Another field of TRV_STAT while the interval without a writer begins. -/
theorem State.beginNoWriter_fd (s : State) {g : Fld} (h0 : g.lo ≤ g.hi)
    (hg : g.hi < Fld.TRV_STAT.NOWRITER.lo ∨ Fld.TRV_STAT.NOWRITER.hi < g.lo) (i : Nat) : s.beginNoWriter.fd g i = s.fd g i := by
  have hr : s.beginNoWriter.fd g i = (s.setB Fld.TRV_STAT.NOWRITER true).fd g i :=
    State.fd_congr (congrArg (fun m => SMap.get RegKey.dflt m ⟨g.reg, i⟩) s.beginNoWriter_regs)
  exact hr.trans (State.fd_setF_other s _ g _ 0 i (by decide) (by decide) h0 (.inr (hg.imp_right .inl)))

/-- What the resumption of the Datum sets: the counter, the increment, and the condition BANKED without a writer or a source. -/
structure Resumed (s t : State) (known : Bool) (elapsed : Nat) : Prop where
  now       : t.now = s.cairn.datum.plus (if known then elapsed * 2 ^ 32 else 0)
  inc       : t.inc = s.cairn.inc
  cond      : t.fd Fld.TRV_STAT.COND = 2
  noWriter  : t.fb Fld.TRV_STAT.NOWRITER = true
  preSource : t.fb Fld.TRV_STAT.PRE_SOURCE = true

theorem State.resumeDatum_resumed (s : State) (known : Bool) (elapsed : Nat) : Resumed s (s.resumeDatum known elapsed) known elapsed := by
  unfold State.resumeDatum
  extract_lets t e l bank s1 _ _ _ s2 s3 s4
  have hj : Keeps (maskOf [.trv, .ens, .regs .traverse]) (s3.setB Fld.TRV_STAT.PRE_SOURCE true)
      (s4.journal 0x07 0xFF (bit01 known) t 0 0 0 []) :=
    State.journal_keeps (State.beginNoWriter_keeps (Keeps.refl _ _) (by decide)) (by decide) _ _ _ _ _ _ _ _
  have hinc : s1.pair .DTM_INC_HI .DTM_INC_LO = s.cairn.inc := State.pair_setPair_same _ (by decide) _ _
  have hrg : ∀ r, r ≠ .TRV_STAT → r ≠ .ENS_STAT → r ≠ .ENS_BANK_AT_HI → r ≠ .ENS_BANK_AT_LO →
      (s3.setB Fld.TRV_STAT.PRE_SOURCE true).rg r 0 = s1.rg r 0 := fun r h1 h2 h3 h4 => by
    rw [State.rg_setB_other _ _ _ _ 0 (Ne.symm h1), State.rg_setPair_other _ _ _ _ (Ne.symm h3) (Ne.symm h4),
      State.rg_setB_other _ _ _ _ 0 (Ne.symm h2), State.rg_setF_other _ _ _ _ 0 (Ne.symm h1)]
    rfl
  have hstat : (s4.journal 0x07 0xFF (bit01 known) t 0 0 0 []).rg .TRV_STAT 0 = s4.rg .TRV_STAT 0 := State.journal_trvStat _ _ _ _ _ _ _ _ _
  have hcond : s3.fd Fld.TRV_STAT.COND = 2 := by
    have hb : s3.fd Fld.TRV_STAT.COND = (s2.setF Fld.TRV_STAT.COND 2).fd Fld.TRV_STAT.COND := by
      refine State.fd_congr ?_
      rw [State.rg_setPair_other _ _ _ _ (by decide) (by decide), State.rg_setB_other _ _ _ _ _ (by decide)]
    exact hb.trans (State.fd_setF_same s2 Fld.TRV_STAT.COND 2 0 (by decide) (by decide))
  refine ⟨?_, ?_, ?_, ?_, ?_⟩
  · exact congrArg Datum.word (hj.same .datum (by decide))
  · rw [← hinc]
    unfold State.inc State.pair
    rw [hj.rg (by decide), hj.rg (by decide), hrg _ (by decide) (by decide) (by decide) (by decide),
      hrg _ (by decide) (by decide) (by decide) (by decide)]
  · calc _ = s4.fd Fld.TRV_STAT.COND := State.fd_congr hstat
      _ = (s3.setB Fld.TRV_STAT.PRE_SOURCE true).fd Fld.TRV_STAT.COND := State.beginNoWriter_fd _ (by decide) (by decide) 0
      _ = s3.fd Fld.TRV_STAT.COND := State.fd_setF_other _ _ _ _ 0 0 (by decide) (by decide) (by decide) (.inr (by decide))
      _ = 2 := hcond
  · exact (State.fb_congr hstat).trans (State.beginNoWriter_sets _)
  · have hp := State.fb_setB_same s3 Fld.TRV_STAT.PRE_SOURCE true 0 (by decide) (by decide)
    have hn : s4.fb Fld.TRV_STAT.PRE_SOURCE = (s3.setB Fld.TRV_STAT.PRE_SOURCE true).fb Fld.TRV_STAT.PRE_SOURCE :=
      congrArg (fun n => decide (n = 1)) (State.beginNoWriter_fd _ (by decide) (by decide) 0)
    exact (State.fb_congr hstat).trans (hn.trans hp)

/-! ### The rest of the start -/

/-- A loss is counted once (R387). -/
theorem State.countLoss_pwr (s : State) : s.countLoss.pwr = { s.pwr with lostWarn := none } := by
  unfold State.countLoss
  split
  · next h => rw [← h]
  · extract_lets us f s1
    have h1 : s1.pwr = s.pwr := (State.setF_pwr _ _ _ _).trans (State.setF_pwr _ _ _ _)
    exact congrArg (fun p : PwrState => { p with lostWarn := none }) h1

/-- The steps of a keeper-domain start after the Datum has resumed. -/
def State.afterDatum (s : State) : State :=
  ((List.range 16).foldl (fun s n => s.startLoop n false)
    ((s.countLoss.bump .PWR_KEEP_STARTS).cairnReg .PWR_KEEP_STARTS 0)).pwrShow

/-- Starting the loops leaves the supplies, the Datum and its condition alone. -/
theorem State.afterDatum_keeps {m : Nat} {z s : State} (h : Keeps m z s.countLoss)
    (hm : maskOf [.cairn, .tic, .syn, .regs .power, .regs .irqStat, .regs .syn] &&& m =
      maskOf [.cairn, .tic, .syn, .regs .power, .regs .irqStat, .regs .syn]) : Keeps m z s.afterDatum := by
  have h1 := State.bump_keeps (r := .PWR_KEEP_STARTS) h (Nat.zero_and m) (mask_sub (by decide) hm) 0
  have h2 := State.cairnReg_keeps h1 (mask_sub (by decide) hm) .PWR_KEEP_STARTS 0
  exact State.pwrShow_keeps (keeps_foldl h2 fun _ n hu => State.startLoop_keeps hu (mask_sub (by decide) hm) n false)
    (mask_sub (by decide) hm)

theorem State.afterDatum_pwr (s : State) : s.afterDatum.pwr = { s.pwr with lostWarn := none } :=
  ((State.afterDatum_keeps (Keeps.refl (maskOf [.cairn, .tic, .syn, .regs .power, .regs .irqStat, .regs .syn]) s.countLoss)
    rfl).same .pwr (by decide)).trans s.countLoss_pwr

theorem Resumed.afterDatum {s t : State} {known : Bool} {elapsed : Nat} (h : Resumed s t known elapsed) :
    Resumed s t.afterDatum known elapsed := by
  have hk : Keeps (maskOf [.pwr, .cairn, .tic, .syn, .regs .power, .regs .irqStat, .regs .syn]) t t.afterDatum :=
    State.afterDatum_keeps (State.countLoss_keeps (Keeps.refl _ t) (by decide)) (by decide)
  obtain ⟨now, inc, cond, noWriter, preSource⟩ := h
  refine ⟨(congrArg Datum.word (hk.same .datum (by decide))).trans now, ?_, (hk.fd (by decide) 0).trans cond,
    (hk.fb (by decide) 0).trans noWriter, (hk.fb (by decide) 0).trans preSource⟩
  unfold State.inc State.pair at inc ⊢
  rw [hk.rg (by decide), hk.rg (by decide), inc]

/-- The supplies that a keeper-domain start takes as valid. -/
def State.supplied (s : State) : State :=
  { s with
    pwr := { s.pwr with
      vddKeep := true, vddClk := true, keepReset := false, kindle := true, dclk := false
      core := .held, warnAt := if s.pwr.pwrfail then s.pwr.warnAt else none } }

theorem State.keeperStart_eq (s : State) (elapsed : Nat) (h : s.clockUp = false) :
    s.keeperStart elapsed = (s.supplied.loadCairn.resumeJournal.rearmLeap.resumeDatum s.pwr.vddKeep elapsed).afterDatum := by
  unfold State.keeperStart
  rw [h]
  rfl

theorem State.keeperStart_pwr (s : State) (elapsed : Nat) (h : s.clockUp = false) :
    (s.keeperStart elapsed).pwr = { s.supplied.pwr with lostWarn := none } := by
  have hb : s.supplied.loadCairn.resumeJournal.rearmLeap.pwr = s.supplied.pwr := s.supplied.beforeDatum_holds.pwr
  have hd := (State.resumeDatum_keeps (Keeps.refl 0x1A00000148004 s.supplied.loadCairn.resumeJournal.rearmLeap) (by decide)
    s.pwr.vddKeep elapsed).same .pwr (by decide)
  rw [s.keeperStart_eq elapsed h, State.afterDatum_pwr, hd.trans hb]

theorem State.keeperStart_resumed (s : State) (elapsed : Nat) (h : s.clockUp = false) :
    Resumed s (s.keeperStart elapsed) s.pwr.vddKeep elapsed := by
  have hc : s.supplied.loadCairn.resumeJournal.rearmLeap.cairn = s.cairn := s.supplied.beforeDatum_holds.cairn
  rw [s.keeperStart_eq elapsed h]
  obtain ⟨now, inc, cond, noWriter, preSource⟩ :=
    (State.resumeDatum_resumed s.supplied.loadCairn.resumeJournal.rearmLeap s.pwr.vddKeep elapsed).afterDatum
  rw [hc] at now inc
  exact ⟨now, inc, cond, noWriter, preSource⟩

/-- A start of a clock die that runs changes nothing. -/
theorem State.keeperStart_idle (s : State) (elapsed : Nat) (h : s.clockUp = true) : s.keeperStart elapsed = s := by
  unfold State.keeperStart
  rw [if_pos h]

end Sys2Proof.Machine
end

section
/-!
A fault below CRITICAL (R257 to R263): the words it leaves in its record, and what a raise leaves alone.
-/
namespace Sys2Proof.Machine

/-! ### The words of a record -/

/-- FLT_REC_STAT of a record that takes a raise: merged into an active record, or a new one (R260). -/
def State.raisedStat (s : State) (r : Raise) : BitVec 32 :=
  if s.fb Fld.FLT_REC_STAT.ACTIVE r.rec_ then
    let st := s.rg .FLT_REC_STAT r.rec_
    let st1 := Fld.FLT_REC_STAT.CLASS.put st (max (Fld.FLT_REC_STAT.CLASS.of st) r.cls)
    let st2 := Fld.FLT_REC_STAT.MERGE_COUNT.put st1 (min 0xFFFF (Fld.FLT_REC_STAT.MERGE_COUNT.of st + 1))
    if s.rg .FLT_REC_SOURCE r.rec_ = r.source then st2 else Fld.FLT_REC_STAT.MULTI.put st2 1
  else Fld.FLT_REC_STAT.CLASS.put (Fld.FLT_REC_STAT.ACTIVE.put 0 1) r.cls

/-- FLT_REC_CAUSE of a record that takes a raise. -/
def State.raisedCause (s : State) (r : Raise) : BitVec 32 :=
  if s.fb Fld.FLT_REC_STAT.ACTIVE r.rec_ then s.rg .FLT_REC_CAUSE r.rec_ ||| BitVec.ofNat 32 (2 ^ r.cause)
  else BitVec.ofNat 32 (2 ^ r.cause)

/-- A pulse on a status line shows in IRQ_SRC_STAT alone. -/
theorem State.rg_irqPulse (s : State) (n detail : Nat) {q : Reg} (j : Nat) (hq : q ≠ .IRQ_SRC_STAT) :
    (s.irqPulse n detail).rg q j = s.rg q j := by
  have hput : ∀ (u : State) (f : Fld) (v : Nat), f.reg = .IRQ_SRC_STAT → (u.setF f v n).rg q j = u.rg q j := fun u f v hf =>
    State.rg_setF_other u f v n j (hf ▸ hq.symm)
  unfold State.irqPulse State.irqLatch
  split
  · split
    · exact (hput _ _ _ rfl).trans (hput _ _ _ rfl)
    · exact (hput _ _ _ rfl).trans (hput _ _ _ rfl)
  · rfl

/-- The two words of each record after a raise that its record can hold. -/
theorem State.recordFault_words (s : State) (r : Raise) (h : s.recordUp r.rec_ = true) (j : Nat) :
    (s.recordFault r).rg .FLT_REC_STAT j = (if r.rec_ = j then s.raisedStat r else s.rg .FLT_REC_STAT j) ∧
      (s.recordFault r).rg .FLT_REC_CAUSE j = (if r.rec_ = j then s.raisedCause r else s.rg .FLT_REC_CAUSE j) := by
  unfold State.recordFault
  rw [if_neg (by simp [h])]
  extract_lets i n st st1 st2 st3 stNew img s1 s2 _ s3
  have hs1 : ∀ q, q ≠ .IRQ_SRC_STAT → q ≠ .FLT_REC_LAST_SEC → q ≠ .FLT_REC_LAST_NS →
      (s3.irqPulse irqFltRaise r.cls).rg q j = s1.rg q j := fun q h1 h2 h3 => by
    have hf : s3.rg q j = s2.rg q j := by
      dsimp only [s3]
      split <;> rfl
    rw [State.rg_irqPulse _ _ _ _ h1, hf, State.rg_wr_other _ _ _ _ _ _ (.inl h3.symm), State.rg_wr_other _ _ _ _ _ _ (.inl h2.symm)]
  rw [hs1 _ (by decide) (by decide) (by decide), hs1 _ (by decide) (by decide) (by decide)]
  dsimp only [s1, stNew, st3, st2, st1, st, i]
  unfold State.raisedStat State.raisedCause
  split
  · simp
  · simp [State.setPair]

/-- A record that takes a raise is active. -/
theorem State.raisedStat_active (s : State) (r : Raise) : Fld.FLT_REC_STAT.ACTIVE.of (s.raisedStat r) = 1 := by
  have hput : ∀ (f : Fld) (v : BitVec 32) (n : Nat), f.lo ≤ f.hi → f.hi < Fld.FLT_REC_STAT.ACTIVE.lo →
      Fld.FLT_REC_STAT.ACTIVE.of (f.put v n) = Fld.FLT_REC_STAT.ACTIVE.of v := fun f v n h1 h2 =>
    Fld.of_put_other f _ v n h1 (Nat.lt_trans h2 (by decide)) (by decide) (.inr h2)
  unfold State.raisedStat
  split
  · next h =>
    have ha : Fld.FLT_REC_STAT.ACTIVE.of (s.rg .FLT_REC_STAT r.rec_) = 1 := of_decide_eq_true h
    dsimp only
    split
    · rw [hput _ _ _ (by decide) (by decide), hput _ _ _ (by decide) (by decide), ha]
    · rw [hput _ _ _ (by decide) (by decide), hput _ _ _ (by decide) (by decide), hput _ _ _ (by decide) (by decide), ha]
  · rw [hput _ _ _ (by decide) (by decide), Fld.of_put_same _ _ _ (by decide) (by decide)]
    rfl

theorem bitAt_twoPow {c : Nat} (hc : c < 32) : bitAt (BitVec.ofNat 32 (2 ^ c)).toNat c = true := by
  unfold bitAt
  rw [BitVec.toNat_ofNat, Nat.mod_eq_of_lt (Nat.pow_lt_pow_right (by decide) hc), Nat.testBit_two_pow_self]

/-- A record that takes a raise holds its cause. -/
theorem State.raisedCause_bit (s : State) (r : Raise) (hc : r.cause < 32) : bitAt (s.raisedCause r).toNat r.cause = true := by
  have hb := bitAt_twoPow hc
  unfold State.raisedCause
  split
  · unfold bitAt at hb ⊢
    rw [BitVec.toNat_or, Nat.testBit_or, hb, Bool.or_true]
  · exact hb

/-- An active record keeps the causes it holds. -/
theorem State.raisedCause_keeps (s : State) (r : Raise) {c : Nat} (ha : s.fb Fld.FLT_REC_STAT.ACTIVE r.rec_ = true)
    (hc : bitAt (s.rg .FLT_REC_CAUSE r.rec_).toNat c = true) : bitAt (s.raisedCause r).toNat c = true := by
  unfold State.raisedCause
  unfold bitAt at hc ⊢
  rw [if_pos ha, BitVec.toNat_or, Nat.testBit_or, hc, Bool.true_or]

/-! ### A record holds its causes through later raises -/

/-- Only its record's two words say whether a fault is raised. -/
theorem Raised.congr {s t : State} {j c : Nat} (h : Raised s j c)
    (h1 : t.fb Fld.FLT_REC_STAT.ACTIVE j = s.fb Fld.FLT_REC_STAT.ACTIVE j) (h2 : t.rg .FLT_REC_CAUSE j = s.rg .FLT_REC_CAUSE j) :
    Raised t j c := by
  unfold Raised
  rwa [h1, h2]

theorem Raised.keeps {m : Nat} {s t : State} {j c : Nat} (h : Raised s j c) (hk : Keeps m s t)
    (hm : m.testBit (Part.regs .fltRec).num = false) : Raised t j c :=
  h.congr (hk.fb (f := Fld.FLT_REC_STAT.ACTIVE) hm j) (hk.rg (r := .FLT_REC_CAUSE) hm j)

/-- Another flag of the record's status. -/
theorem Raised.setB {s : State} {j c : Nat} (h : Raised s j c) (f : Fld) (b : Bool) (i : Nat) (hr : f.reg = .FLT_REC_STAT)
    (h1 : f.lo ≤ f.hi) (h2 : f.hi < Fld.FLT_REC_STAT.ACTIVE.lo) : Raised (s.setB f b i) j c :=
  h.congr (State.fb_setB_other s f _ b i j h1 (Nat.lt_trans h2 (by decide)) (by decide) (.inr (.inr (.inl h2))))
    (State.rg_setB_other s f b i j (by rw [hr]; decide))

theorem State.recordFault_raised (s : State) (r : Raise) (h : s.recordUp r.rec_ = true) (hc : r.cause < 32) :
    Raised (s.recordFault r) r.rec_ r.cause := by
  obtain ⟨hs, hw⟩ := s.recordFault_words r h r.rec_
  rw [if_pos rfl] at hs hw
  refine ⟨?_, by rw [hw]; exact s.raisedCause_bit r hc⟩
  unfold State.fb State.fd
  rw [show Fld.FLT_REC_STAT.ACTIVE.reg = .FLT_REC_STAT from rfl, hs, s.raisedStat_active]
  rfl

theorem Raised.recordFault {s : State} {j c : Nat} (h : Raised s j c) (r : Raise) : Raised (s.recordFault r) j c := by
  cases hu : s.recordUp r.rec_ with
  | false =>
    unfold State.recordFault
    simpa [hu] using h
  | true =>
    obtain ⟨ha, hcause⟩ := h
    obtain ⟨hs, hw⟩ := s.recordFault_words r hu j
    by_cases hj : r.rec_ = j
    · subst hj
      rw [if_pos rfl] at hs hw
      refine ⟨?_, by rw [hw]; exact s.raisedCause_keeps r ha hcause⟩
      unfold State.fb State.fd
      rw [show Fld.FLT_REC_STAT.ACTIVE.reg = .FLT_REC_STAT from rfl, hs, s.raisedStat_active]
      rfl
    · rw [if_neg hj] at hs hw
      exact Raised.congr ⟨ha, hcause⟩ (State.fb_congr hs) hw

theorem Raised.armGrace {s : State} {j c : Nat} (h : Raised s j c) (i step : Nat) (from_ : TimeVal) :
    Raised (s.armGrace i step from_) j c := by
  unfold State.armGrace
  extract_lets at_ _ s1
  have h1 : Raised s1 j c := h.congr rfl rfl
  exact (h1.setB Fld.FLT_REC_STAT.GRACE_RUN true i rfl (by decide) (by decide)).keeps
    (State.engineArm_keeps (Keeps.refl (maskOf [.timeline, .regs .datum]) _) (by decide) (hGrace i) at_) (by decide)

/-! ### A raise below CRITICAL -/

/-- What a raise below CRITICAL does: its record's part, the acknowledgement withdrawn, the grace timer armed. -/
theorem State.raise_minor {s : State} {r : Raise} (hc : r.cls ≠ 3) {P : State → Prop} (h0 : s.recordUp r.rec_ = false → P s)
    (hrec : s.recordUp r.rec_ = true → P (s.recordFault r))
    (hack : ∀ u, P u → P (u.setB Fld.FLT_REC_STAT.ACKED false r.rec_)) (harm : ∀ u t, P u → P (u.armGrace r.rec_ 1 t)) :
    P (s.raise r) := by
  unfold State.raise
  cases hu : s.recordUp r.rec_ with
  | false => simpa using h0 hu
  | true =>
    simp only [Bool.not_true, Bool.false_eq_true, if_false, if_neg hc]
    have h2 : P (if 2 ≤ r.cls ∧ s.fb Fld.FLT_REC_STAT.ACKED r.rec_ = true then
        (s.recordFault r).setB Fld.FLT_REC_STAT.ACKED false r.rec_ else s.recordFault r) := by
      split
      · exact hack _ (hrec hu)
      · exact hrec hu
    split
    · exact harm _ _ h2
    · exact h2

/-- The parts that a raise below CRITICAL reaches. -/
theorem State.raise_minor_keeps {m : Nat} {z s : State} {r : Raise} (hc : r.cls ≠ 3) (h : Keeps m z s)
    (hm : maskOf raising &&& m = maskOf raising) : Keeps m z (s.raise r) :=
  State.raise_minor (P := Keeps m z) hc (fun _ => h) (fun _ => State.recordFault_keeps h (mask_sub (by decide) hm) r)
    (fun _ hu => State.setB_keeps hu (Nat.zero_and m) (mask_sub (by decide) hm) false r.rec_)
    (fun _ t hu => State.armGrace_keeps hu (mask_sub (by decide) hm) r.rec_ 1 t)

theorem Raised.raise_minor {s : State} {j c : Nat} (h : Raised s j c) {r : Raise} (hc : r.cls ≠ 3) : Raised (s.raise r) j c :=
  State.raise_minor (P := fun u => Raised u j c) hc (fun _ => h) (fun _ => h.recordFault r)
    (fun _ hu => hu.setB Fld.FLT_REC_STAT.ACKED false r.rec_ rfl (by decide) (by decide)) (fun _ t hu => hu.armGrace r.rec_ 1 t)

/-- A raise below CRITICAL is held by its record. -/
theorem State.raise_minor_raised {s : State} {r : Raise} (hc : r.cls ≠ 3) (hu : s.recordUp r.rec_ = true) (hb : r.cause < 32) :
    Raised (s.raise r) r.rec_ r.cause :=
  State.raise_minor (P := fun u => Raised u r.rec_ r.cause) hc (fun hf => absurd (hf.symm.trans hu) (by decide))
    (fun _ => s.recordFault_raised r hu hb) (fun _ h => h.setB Fld.FLT_REC_STAT.ACKED false r.rec_ rfl (by decide) (by decide))
    (fun _ t h => h.armGrace r.rec_ 1 t)

theorem State.irqPulse_flt (s : State) (n detail : Nat) : (s.irqPulse n detail).flt = s.flt :=
  (State.irqPulse_keeps (Keeps.refl 0x4000000000 s) (by decide) n detail).same .flt (by decide)

/-- The mark of the FAULT_N pulse is no hold. -/
theorem State.markPulse_step3 (s : State) (c : Prop) [Decidable c] :
    (if c then { s with flt := { s.flt with pulse := true } } else s).flt.step3Hold = s.flt.step3Hold := by
  split <;> rfl

theorem State.recordFault_step3 (s : State) (r : Raise) : (s.recordFault r).flt.step3Hold = s.flt.step3Hold := by
  unfold State.recordFault
  split
  · rfl
  · extract_lets i n st st1 st2 st3 stNew img s1 s2 _ s3
    have h1 : s1.flt = s.flt := by
      dsimp only [s1]
      split
      · rw [State.wr_flt, State.wr_flt]
      · rw [State.wr_flt, State.wr_flt, State.setPair_flt, State.wr_flt, State.wr_flt, State.wr_flt, State.wr_flt]
    have h2 : s2.flt.step3Hold = s.flt.step3Hold :=
      congrArg FltState.step3Hold ((State.wr_flt _ _ _ _).trans ((State.wr_flt _ _ _ _).trans h1))
    rw [State.irqPulse_flt]
    exact (s2.markPulse_step3 _).trans h2

theorem State.armGrace_step3 (s : State) (i step : Nat) (t : TimeVal) : (s.armGrace i step t).flt.step3Hold = s.flt.step3Hold := by
  unfold State.armGrace
  extract_lets at_ _ s1
  have he : ((s1.setB Fld.FLT_REC_STAT.GRACE_RUN true i).engineArm (hGrace i) at_).flt = (s1.setB Fld.FLT_REC_STAT.GRACE_RUN true i).flt :=
    (State.engineArm_keeps (Keeps.refl (maskOf [.timeline, .regs .datum]) _) (by decide) (hGrace i) at_).same .flt (by decide)
  rw [he, State.setB_flt]

/-- No raise below CRITICAL touches the hold of step 3. -/
theorem State.raise_minor_step3 (s : State) {r : Raise} (hc : r.cls ≠ 3) : (s.raise r).flt.step3Hold = s.flt.step3Hold :=
  State.raise_minor (P := fun u => u.flt.step3Hold = s.flt.step3Hold) hc (fun _ => rfl) (fun _ => s.recordFault_step3 r)
    (fun u h => by rw [State.setB_flt, h]) (fun u t h => (u.armGrace_step3 _ _ t).trans h)

end Sys2Proof.Machine
end

section
/-!
The core-die start (Table 16.6, R45, R383, R402): its stages, and what each of them leaves alone.
-/
namespace Sys2Proof.Machine

/-! ### The stages -/

/-- The core die has its supplies, and the holds of the ladder and of the thermal trip end. -/
def State.coreOn (s : State) : State :=
  let s1 := s.leaveEmber
  { s1 with
    pwr := { s1.pwr with core := .running, coreOk := true, resetN := false, coreLost := none }
    flt := { s1.flt with step3Hold := false }
    thm := { s1.thm with trip := false } }

/-- The start is counted, and the memory found is shown. -/
def State.coreCounted (s : State) (ddr0 ddr1 : BitVec 32) : State :=
  let s3 := ((s.bump .PWR_CORE_STARTS).countLoss.wr .MEM_CH_SIZE 0 ddr0).wr .MEM_CH_SIZE 1 ddr1
  (s3.setF Fld.MEM_STAT.READY (bit01 (decide (ddr0 ≠ 0)) + 2 * bit01 (decide (ddr1 ≠ 0)))).setF Fld.DMP_MAX_DFDT.DFDT
    s3.flt.dfdtClock

/-- The fault of a unit that fails its self-test. -/
def selfTestFault (i : Nat) : Raise := { rec_ := i, cause := 29, cls := 2 }

theorem selfTestFault_minor (i : Nat) : (selfTestFault i).cls ≠ 3 := by simp [selfTestFault]

/-- The lines are sampled, and each unit that fails its self-test raises its fault. -/
def State.selfTested (s : State) (failed : List Nat) : State := failed.foldl (fun s i => s.raise (selfTestFault i)) s.startLines

/-- The priority, the keys and the boot store are shown. -/
def State.coreLoaded (s : State) : State :=
  ((s.setF Fld.MAT_PRIORITY.PRIO s.matPrio).setB Fld.MAT_PRIORITY.FUSED s.pwr.fuses.matPrio.isSome).keyLoad.bootShow

/-- A zeroised engine refuses service (R377). -/
def State.refuseZeroised (s : State) : State := if s.pwr.zeroised then s.svcRefuse else s

/-- The boot images are verified and loaded. -/
def State.booted (s : State) : State := s.pwr.boot.foldl State.bootOne (s.setF Fld.SEC_BOOT.FAILED 0)

/-- The mate block starts when it is enabled. -/
def State.mateStarted (s : State) : State := if s.fb Fld.MAT_CFG.EN then s.matStart else s

/-- The stages of a start after the self-tests. -/
def State.afterTests (s : State) : State := s.coreLoaded.refuseZeroised.autoOff.booted.mateStarted

/-- Whether the core die can start. -/
def State.coreAble (s : State) : Bool := s.clockUp && s.pwr.dclk && !s.coreUp && !s.pwr.needPin && s.coolEnough

theorem State.coreAble_not (s : State) :
    (!s.clockUp || !s.pwr.dclk || s.coreUp || s.pwr.needPin || !s.coolEnough) = !s.coreAble := by
  unfold State.coreAble
  simp only [Bool.not_and, Bool.not_not]

theorem State.coreStart_able (s : State) (ddr0 ddr1 : BitVec 32) (failed : List Nat) (h : s.coreAble = true) :
    s.coreStart ddr0 ddr1 failed = ((s.coreOn.coreCounted ddr0 ddr1).selfTested failed).afterTests := by
  unfold State.coreStart
  rw [s.coreAble_not, h]
  rfl

theorem State.coreStart_unable (s : State) (ddr0 ddr1 : BitVec 32) (failed : List Nat) (h : s.coreAble = false) :
    s.coreStart ddr0 ddr1 failed = s := by
  unfold State.coreStart
  rw [s.coreAble_not, h]
  rfl

/-! ### What the stages leave alone -/

/-- The parts that counting the start and showing the memory reaches. -/
def starting : List Part := [.pwr, .cairn, .regs .power, .regs .memory, .regs .damper]

theorem State.coreCounted_keeps {m : Nat} {z s : State} (h : Keeps m z s) (ddr0 ddr1 : BitVec 32)
    (hm : maskOf starting &&& m = maskOf starting) : Keeps m z (s.coreCounted ddr0 ddr1) := by
  have h1 := State.bump_keeps (r := .PWR_CORE_STARTS) h (Nat.zero_and m) (mask_sub (by decide) hm) 0
  have h2 := State.countLoss_keeps h1 (mask_sub (by decide) hm)
  have h3 := State.wr_keeps (State.wr_keeps h2 .MEM_CH_SIZE (mask_sub (by decide) hm) 0 ddr0) .MEM_CH_SIZE (mask_sub (by decide) hm) 1 ddr1
  exact State.setF_keeps (State.setF_keeps h3 (Nat.zero_and m) (mask_sub (by decide) hm) _ 0) (Nat.zero_and m)
    (mask_sub (by decide) hm) _ 0

/-- The parts that the self-tests reach. -/
def testing : List Part := .irq :: raising

theorem State.selfTested_keeps {m : Nat} {z s : State} (h : Keeps m z s) (failed : List Nat) (hm : maskOf testing &&& m = maskOf testing) :
    Keeps m z (s.selfTested failed) :=
  keeps_foldl (State.startLines_keeps h (mask_sub (by decide) hm)) fun _ i hu =>
    State.raise_minor_keeps (selfTestFault_minor i) hu (mask_sub (by decide) hm)

/-- The parts that showing the priority, the keys and the boot store reaches. -/
def loading : List Part := [.derived, .key, .cairn, .regs .irqStat, .regs .key, .regs .power, .regs .mate]

theorem State.coreLoaded_keeps {m : Nat} {z s : State} (h : Keeps m z s) (hm : maskOf loading &&& m = maskOf loading) :
    Keeps m z s.coreLoaded := by
  have h1 := State.setF_keeps (f := Fld.MAT_PRIORITY.PRIO) h (Nat.zero_and m) (mask_sub (by decide) hm) s.matPrio 0
  have h2 := State.setB_keeps (f := Fld.MAT_PRIORITY.FUSED) h1 (Nat.zero_and m) (mask_sub (by decide) hm) s.pwr.fuses.matPrio.isSome 0
  exact State.bootShow_keeps (State.keyLoad_keeps h2 (mask_sub (by decide) hm)) (mask_sub (by decide) hm)

theorem State.refuseZeroised_keeps {m : Nat} {z s : State} (h : Keeps m z s)
    (hm : maskOf [.regs .irqStat, .regs .service] &&& m = maskOf [.regs .irqStat, .regs .service]) : Keeps m z s.refuseZeroised :=
  keeps_ite (State.svcRefuse_keeps h (mask_sub (by decide) hm)) h

/-- The parts that verifying and loading the boot images reaches. -/
def booting : List Part := [.mem, .threads, .images, .regs .stoker, .regs .power] ++ raising

theorem State.booted_keeps {m : Nat} {z s : State} (h : Keeps m z s) (hm : maskOf booting &&& m = maskOf booting) : Keeps m z s.booted :=
  keeps_foldl (State.setF_keeps h (Nat.zero_and m) (mask_sub (by decide) hm) 0 0) fun _ e hu =>
    State.bootOne_keeps hu (mask_sub (by decide) hm) e

theorem State.mateStarted_keeps {m : Nat} {z s : State} (h : Keeps m z s)
    (hm : maskOf [.mat, .regs .mate] &&& m = maskOf [.mat, .regs .mate]) : Keeps m z s.mateStarted :=
  keeps_ite (State.matStart_keeps h (mask_sub (by decide) hm)) h

/-- Everything that the stages after the self-tests reach. -/
def bringing : List Part := loading ++ booting ++ [.mat, .regs .service]

theorem State.afterTests_keeps {m : Nat} {z s : State} (h : Keeps m z s) (hm : maskOf bringing &&& m = maskOf bringing) :
    Keeps m z s.afterTests := by
  have h1 := State.refuseZeroised_keeps (State.coreLoaded_keeps h (mask_sub (by decide) hm)) (mask_sub (by decide) hm)
  have h2 := State.booted_keeps (State.autoOff_keeps h1 (mask_sub (by decide) hm)) (mask_sub (by decide) hm)
  exact State.mateStarted_keeps h2 (mask_sub (by decide) hm)

end Sys2Proof.Machine
end

section
/-!
The core-die start: what its stages set and what of it lasts to the end (R11, R223, R264, R377, R383, R387, R402).
-/
namespace Sys2Proof.Machine

/-! ### The supplies and the count of starts -/

/-- The loops that Ember gated start again with the supplies as they are. -/
theorem State.leaveEmber_pwr (s : State) : s.pwr.Stands s.leaveEmber.pwr ∧ s.leaveEmber.pwr.ember = false := by
  unfold State.leaveEmber
  split
  · have h1 : (s.pwr.gatedLoops.foldl (fun s n => s.startLoop n false) s).pwr = s.pwr :=
      (keeps_foldl (Keeps.refl (maskOf [.tic, .syn, .regs .irqStat, .regs .syn]) s) fun _ n hu =>
        State.startLoop_keeps hu (by decide) n false).same .pwr (by decide)
    extract_lets s1 _
    have h2 : ({ s1 with pwr := { s1.pwr with ember := false, gatedLoops := [] } } : State).ungateGnss.pwr =
        { s1.pwr with ember := false, gatedLoops := [], gatedGnss := false } :=
      (State.pwrShow_keeps (Keeps.refl (maskOf [.regs .power]) _) (by decide)).same .pwr (by decide)
    rw [h2, h1]
    exact ⟨⟨rfl, rfl, rfl, rfl, rfl⟩, rfl⟩
  · next h => exact ⟨⟨rfl, rfl, rfl, rfl, rfl⟩, by simpa using h⟩

theorem State.leaveEmber_starts (s : State) : s.leaveEmber.rg .PWR_CORE_STARTS 0 = s.rg .PWR_CORE_STARTS 0 := by
  unfold State.leaveEmber
  split
  · exact (State.rg_pwrShow _ 0 (by decide)).trans
      ((keeps_foldl (Keeps.refl (maskOf [.tic, .syn, .regs .irqStat, .regs .syn]) s) fun _ n hu =>
        State.startLoop_keeps hu (by decide) n false).rg (by decide) 0)
  · rfl

theorem State.rg_coreOn (s : State) (r : Reg) (i : Nat) : s.coreOn.rg r i = s.leaveEmber.rg r i := rfl

theorem State.rg_cairnReg (s : State) (r q : Reg) (i j : Nat) : (s.cairnReg r i).rg q j = s.rg q j := rfl

theorem State.rg_setPwr (s : State) (p : PwrState) (q : Reg) (j : Nat) : ({ s with pwr := p } : State).rg q j = s.rg q j := rfl

/-- The count of a loss shows in PWR_FAIL and PWR_CNT. -/
theorem State.rg_countLoss (s : State) {q : Reg} (j : Nat) (h1 : q ≠ .PWR_FAIL) (h2 : q ≠ .PWR_CNT) :
    s.countLoss.rg q j = s.rg q j := by
  unfold State.countLoss
  split
  · rfl
  · extract_lets us f s1
    have hf : f.reg = .PWR_CNT := by
      dsimp only [f]
      split <;> rfl
    rw [State.rg_cairnReg, State.rg_setPwr, State.rg_setF_other _ f _ _ _ (by rw [hf]; exact h2.symm),
      State.rg_setF_other _ _ _ _ _ (by exact h1.symm)]

theorem State.coreCounted_pwr (s : State) (ddr0 ddr1 : BitVec 32) : (s.coreCounted ddr0 ddr1).pwr = { s.pwr with lostWarn := none } := by
  unfold State.coreCounted
  rw [State.setF_pwr, State.setF_pwr, State.wr_pwr, State.wr_pwr, State.countLoss_pwr, State.bump_pwr]

/-- The registers that the count of the start sets. -/
theorem State.coreCounted_sets (s : State) (ddr0 ddr1 : BitVec 32) :
    (s.coreCounted ddr0 ddr1).rg .PWR_CORE_STARTS 0 = s.rg .PWR_CORE_STARTS 0 + 1 ∧
      (s.coreCounted ddr0 ddr1).rg .MEM_CH_SIZE 0 = ddr0 ∧ (s.coreCounted ddr0 ddr1).rg .MEM_CH_SIZE 1 = ddr1 := by
  have hset : ∀ q j, q ≠ .MEM_STAT → q ≠ .DMP_MAX_DFDT → (s.coreCounted ddr0 ddr1).rg q j =
      (((s.bump .PWR_CORE_STARTS).countLoss.wr .MEM_CH_SIZE 0 ddr0).wr .MEM_CH_SIZE 1 ddr1).rg q j := fun q j h1 h2 =>
    (State.rg_setF_other _ Fld.DMP_MAX_DFDT.DFDT _ _ j h2.symm).trans (State.rg_setF_other _ Fld.MEM_STAT.READY _ _ j h1.symm)
  refine ⟨?_, ?_, ?_⟩
  · rw [hset _ _ (by decide) (by decide), State.rg_wr_other _ _ _ _ _ _ (.inl (by decide)),
      State.rg_wr_other _ _ _ _ _ _ (.inl (by decide)), State.rg_countLoss _ _ (by decide) (by decide)]
    exact State.rg_wr_same _ _ _ _
  · rw [hset _ _ (by decide) (by decide), State.rg_wr_other _ _ _ _ _ _ (.inr (by decide)), State.rg_wr_same]
  · rw [hset _ _ (by decide) (by decide), State.rg_wr_same]

/-! ### What lasts through the stages -/

/-- The parts, beside those of a raise and SEC_BOOT, that the stages of the start reach. -/
def startParts : List Part :=
  [.irq, .derived, .key, .cairn, .mem, .threads, .images, .mat, .regs .irqStat, .regs .key, .regs .mate, .regs .service, .regs .stoker]

/-- A fact that no step of the start's stages ends: neither a part of theirs, nor a raise below CRITICAL, nor SEC_BOOT bears on it. -/
structure Lasts (P : State → Prop) : Prop where
  keeps : ∀ {s t}, Keeps (maskOf startParts) s t → P s → P t
  raise : ∀ {s r}, r.cls ≠ 3 → P s → P (s.raise r)
  boot  : ∀ {s : State} {f : Fld} n, f.reg = .SEC_BOOT → P s → P (s.setF f n)

theorem Lasts.selfTested {P : State → Prop} (h : Lasts P) {s : State} (hs : P s) (failed : List Nat) : P (s.selfTested failed) :=
  List.foldlRecOn _ _ (h.keeps (State.startLines_keeps (Keeps.refl _ s) (by decide)) hs) fun _ hu i _ =>
    h.raise (selfTestFault_minor i) hu

theorem Lasts.coreLoaded {P : State → Prop} (h : Lasts P) {s : State} (hs : P s) : P s.coreLoaded := by
  have h1 := State.setF_keeps (f := Fld.MAT_PRIORITY.PRIO) (Keeps.refl (maskOf startParts) s) (Nat.zero_and _) (by decide) s.matPrio 0
  have h2 := State.setB_keeps (f := Fld.MAT_PRIORITY.FUSED) h1 (Nat.zero_and _) (by decide) s.pwr.fuses.matPrio.isSome 0
  exact h.boot _ rfl (h.boot _ rfl (h.keeps (State.keyLoad_keeps h2 (by decide)) hs))

theorem Lasts.bootOne {P : State → Prop} (h : Lasts P) {s : State} (hs : P s) (e : BootEntry) : P (s.bootOne e) := by
  unfold State.bootOne
  split
  · exact h.boot _ rfl (h.raise (r := { rec_ := 466, cause := 25, cls := 0, reason := _ }) (by simp) hs)
  · exact List.foldlRecOn _ _ hs fun u hu k _ => h.keeps (State.loadImage_keeps (Keeps.refl _ u) (by decide) _ k) hu

theorem Lasts.booted {P : State → Prop} (h : Lasts P) {s : State} (hs : P s) : P s.booted :=
  List.foldlRecOn _ _ (h.boot 0 rfl hs) fun _ hu e _ => h.bootOne hu e

theorem Lasts.afterTests {P : State → Prop} (h : Lasts P) {s : State} (hs : P s) : P s.afterTests := by
  have h1 : P s.coreLoaded.refuseZeroised.autoOff :=
    h.keeps (State.autoOff_keeps (State.refuseZeroised_keeps (Keeps.refl _ _) (by decide)) (by decide)) (h.coreLoaded hs)
  exact h.keeps (State.mateStarted_keeps (Keeps.refl _ _) (by decide)) (h.booted h1)

theorem lasts_step3 (b : Bool) : Lasts (fun u => u.flt.step3Hold = b) where
  keeps hk h := (congrArg FltState.step3Hold (hk.same .flt (by decide))).trans h
  raise hc h := (State.raise_minor_step3 _ hc).trans h
  boot _ _ h := (congrArg FltState.step3Hold (State.setF_flt _ _ _ _)).trans h

theorem lasts_starts (v : BitVec 32) : Lasts (fun u => u.rg .PWR_CORE_STARTS 0 = v) where
  keeps hk h := (hk.rg (by decide) 0).trans h
  raise hc h := ((State.raise_minor_keeps hc (Keeps.refl (maskOf raising) _) rfl).rg (by decide) 0).trans h
  boot _ hf h := (State.rg_setF_other _ _ _ _ 0 (by rw [hf]; decide)).trans h

theorem lasts_raised (j c : Nat) : Lasts (fun u => Raised u j c) where
  keeps hk h := h.keeps hk (by decide)
  raise hc h := h.raise_minor hc
  boot _ hf h := h.keeps (State.setF_keeps (Keeps.refl (maskOf [.regs .power]) _) (Nat.zero_and _) (by unfold Reg.bit; rw [hf]; decide) _ 0)
    (by decide)

/-- What a running core die needs to hold its faults: VDD_KEEP and its own supplies. -/
theorem State.recordUp_of_up {s : State} (hk : s.pwr.vddKeep = true) (hc : s.coreUp = true) (i : Nat) : s.recordUp i = true := by
  unfold State.recordUp
  split
  · exact hk
  · exact hc

/-- Each unit that fails its self-test has its fault raised. -/
theorem foldl_selfTestFault (l : List Nat) : ∀ {s : State}, s.pwr.vddKeep = true → s.coreUp = true →
    ∀ i ∈ l, Raised (l.foldl (fun s i => s.raise (selfTestFault i)) s) i 29 := by
  induction l with
  | nil => exact fun _ _ i hi => absurd hi List.not_mem_nil
  | cons x r ih =>
    intro s hk hc i hi
    rcases List.mem_cons.1 hi with rfl | hr
    · have h0 : Raised (s.raise (selfTestFault i)) i 29 :=
        State.raise_minor_raised (selfTestFault_minor i) (State.recordUp_of_up hk hc i) (by simp [selfTestFault])
      exact List.foldlRecOn (motive := fun u => Raised u i 29) r _ h0 fun _ hu y _ => hu.raise_minor (selfTestFault_minor y)
    · have hp : (s.raise (selfTestFault x)).pwr = s.pwr :=
        (State.raise_minor_keeps (selfTestFault_minor x) (Keeps.refl (maskOf raising) s) rfl).same .pwr (by decide)
      exact ih (by rw [hp]; exact hk) (by unfold State.coreUp; rw [hp]; exact hc) i hr

theorem State.selfTested_raised (s : State) {failed : List Nat} (hk : s.pwr.vddKeep = true) (hc : s.coreUp = true) :
    ∀ i ∈ failed, Raised (s.selfTested failed) i 29 := by
  have hp : s.startLines.pwr = s.pwr := (State.startLines_keeps (Keeps.refl (maskOf testing) s) (by decide)).same .pwr (by decide)
  exact foldl_selfTestFault failed (by rw [hp]; exact hk) (by unfold State.coreUp; rw [hp]; exact hc)

/-! ### The service -/

theorem State.svcRefuse_refuses (s : State) : s.svcRefuse.svcState = 2 := by
  unfold State.svcRefuse State.setSvc
  split
  · assumption
  · have hp : (((s.setF Fld.SVC_STAT.STATE 2).setF Fld.SVC_STAT.CAUSE 5).irqPulse 109 2).fd Fld.SVC_STAT.STATE =
        (s.setF Fld.SVC_STAT.STATE 2).fd Fld.SVC_STAT.STATE :=
      (State.fd_congr (State.rg_irqPulse _ _ _ 0 (by decide))).trans
        (State.fd_setF_other _ _ _ _ 0 0 (by decide) (by decide) (by decide) (.inr (by decide)))
    exact hp.trans (State.fd_setF_same _ _ _ 0 (by decide) (by decide))

/-- The boot images and the mate leave the service's registers alone. -/
theorem State.bootedMate_keeps (s : State) : Keeps (maskOf (booting ++ [.mat, .regs .mate])) s s.booted.mateStarted :=
  State.mateStarted_keeps (State.booted_keeps (Keeps.refl _ s) (by decide)) (by decide)

/-- A zeroised engine ends its start in REFUSE (R377). -/
theorem State.afterTests_refuses (s : State) (h : s.pwr.zeroised = true) : s.afterTests.svcState = 2 := by
  have hz : s.coreLoaded.pwr = s.pwr := (State.coreLoaded_keeps (Keeps.refl (maskOf loading) s) rfl).same .pwr (by decide)
  have hr : s.coreLoaded.refuseZeroised.svcState = 2 := by
    unfold State.refuseZeroised
    rw [hz, if_pos h]
    exact State.svcRefuse_refuses _
  have ha : s.coreLoaded.refuseZeroised.autoOff.svcState = s.coreLoaded.refuseZeroised.svcState :=
    State.fd_congr (State.rg_autoOff _ 0 (by decide))
  exact ((State.bootedMate_keeps _).fd (by decide) 0).trans (ha.trans hr)

/-- AUTO_OPEN ends the start at 0 while the ladder stands at a step (R264). -/
theorem State.afterTests_autoOpen (s : State) (h : s.fd Fld.FLT_ESC.STEP ≠ 0) : s.afterTests.fb Fld.SVC_CTL.AUTO_OPEN = false := by
  have hs : s.coreLoaded.refuseZeroised.fd Fld.FLT_ESC.STEP = s.fd Fld.FLT_ESC.STEP :=
    (State.refuseZeroised_keeps (State.coreLoaded_keeps (Keeps.refl (maskOf (.regs .service :: loading)) s) (by decide))
      (by decide)).fd (by decide) 0
  exact ((State.bootedMate_keeps _).fb (by decide) 0).trans (State.autoOff_clears _ (by rwa [hs]))

/-! ### The whole start -/

/-- What a core-die start gives (R264, R377, R383, R387, R402): the die runs, its count is one more, its memory is as found, the units
that failed have their faults, and the service is held back where the ladder or the zeroisation holds it. -/
structure CoreStarted (s t : State) (ddr0 ddr1 : BitVec 32) (failed : List Nat) : Prop where
  up       : t.coreUp = true
  datum    : t.datum = s.datum
  ember    : t.pwr.ember = false
  trip     : t.thm.trip = false
  step3    : t.flt.step3Hold = false
  starts   : t.rg .PWR_CORE_STARTS 0 = s.rg .PWR_CORE_STARTS 0 + 1
  mem0     : t.rg .MEM_CH_SIZE 0 = ddr0
  mem1     : t.rg .MEM_CH_SIZE 1 = ddr1
  raised   : ∀ i ∈ failed, Raised t i 29
  refuses  : s.pwr.zeroised = true → t.svcState = 2
  autoOpen : s.fd Fld.FLT_ESC.STEP ≠ 0 → t.fb Fld.SVC_CTL.AUTO_OPEN = false

theorem State.coreAble_vddKeep {s : State} (h : s.coreAble = true) : s.pwr.vddKeep = true := by
  unfold State.coreAble State.clockUp at h
  simp only [Bool.and_eq_true] at h
  obtain ⟨⟨⟨⟨⟨⟨hk, -⟩, -⟩, -⟩, -⟩, -⟩, -⟩ := h
  exact hk

/-- The supplies of the core die after the count of its start. -/
theorem State.coreCounted_up (s : State) (ddr0 ddr1 : BitVec 32) :
    s.pwr.Stands (s.coreOn.coreCounted ddr0 ddr1).pwr ∧ (s.coreOn.coreCounted ddr0 ddr1).coreUp = true ∧
      (s.coreOn.coreCounted ddr0 ddr1).pwr.ember = false := by
  obtain ⟨hs, he⟩ := s.leaveEmber_pwr
  unfold State.coreUp
  rw [State.coreCounted_pwr]
  exact ⟨hs.trans ⟨rfl, rfl, rfl, rfl, rfl⟩, rfl, he⟩

/-- The ladder's step is as it was when the self-tests are done. -/
theorem State.selfTested_step (s : State) (ddr0 ddr1 : BitVec 32) (failed : List Nat) :
    ((s.coreOn.coreCounted ddr0 ddr1).selfTested failed).fd Fld.FLT_ESC.STEP = s.fd Fld.FLT_ESC.STEP := by
  have h1 : s.coreOn.fd Fld.FLT_ESC.STEP = s.fd Fld.FLT_ESC.STEP :=
    (State.leaveEmber_keeps (Keeps.refl 0x2044020480000 s) (by decide)).fd (by decide) 0
  have h2 : (s.coreOn.coreCounted ddr0 ddr1).fd Fld.FLT_ESC.STEP = s.coreOn.fd Fld.FLT_ESC.STEP :=
    (State.coreCounted_keeps (Keeps.refl (maskOf starting) s.coreOn) ddr0 ddr1 rfl).fd (by decide) 0
  exact ((State.selfTested_keeps (Keeps.refl (maskOf testing) _) failed rfl).fd (by decide) 0).trans (h2.trans h1)

theorem State.coreStart_started (s : State) (ddr0 ddr1 : BitVec 32) (failed : List Nat) (h : s.coreAble = true) :
    CoreStarted s (s.coreStart ddr0 ddr1 failed) ddr0 ddr1 failed := by
  have hd := State.coreStart_keeps (Keeps.refl 0x323F5066696382 s) (by decide) ddr0 ddr1 failed
  rw [s.coreStart_able ddr0 ddr1 failed h] at hd ⊢
  obtain ⟨hs, hu, he⟩ := s.coreCounted_up ddr0 ddr1
  obtain ⟨hstarts, hm0, hm1⟩ := s.coreOn.coreCounted_sets ddr0 ddr1
  have hon := State.coreCounted_keeps (Keeps.refl (maskOf starting) s.coreOn) ddr0 ddr1 rfl
  have htest := State.selfTested_keeps (Keeps.refl (maskOf testing) (s.coreOn.coreCounted ddr0 ddr1)) failed rfl
  have hk := State.afterTests_keeps (State.selfTested_keeps (Keeps.refl (maskOf (testing ++ bringing))
    (s.coreOn.coreCounted ddr0 ddr1)) failed (by decide)) (by decide)
  have hp := hk.same .pwr (by decide)
  have hsp := htest.same .pwr (by decide)
  refine ⟨?_, hd.same .datum (by decide), (congrArg PwrState.ember hp).trans he, ?_, ?_, ?_, (hk.rg (by decide) 0).trans hm0,
    (hk.rg (by decide) 1).trans hm1, fun i hi => ?_, fun hz => ?_, fun hstep => ?_⟩
  · unfold State.coreUp at hu ⊢
    rw [hp]
    exact hu
  · exact congrArg ThmState.trip ((hk.same .thm (by decide)).trans (hon.same .thm (by decide)))
  · exact (lasts_step3 false).afterTests ((lasts_step3 false).selfTested (congrArg FltState.step3Hold (hon.same .flt (by decide))) failed)
  · exact (lasts_starts _).afterTests ((lasts_starts _).selfTested (hstarts.trans (congrArg (· + 1)
      ((s.rg_coreOn _ _).trans s.leaveEmber_starts))) failed)
  · exact (lasts_raised i 29).afterTests
      (State.selfTested_raised _ (hs.vddKeep.trans (State.coreAble_vddKeep h)) hu i hi)
  · exact State.afterTests_refuses _ ((congrArg PwrState.zeroised hsp).trans (hs.zeroised.trans hz))
  · exact State.afterTests_autoOpen _ (by rwa [s.selfTested_step])

end Sys2Proof.Machine
end

section
/-!
The commands of power and reset: each answers a next state with the same queue, of which its lemma above speaks.
-/
namespace Sys2Proof.Machine

/-- A command that answers a next state leaves the queue of waiting commands as it is. -/
theorem goes_of_exec {c : Instr} {s t : State} {P : State → Prop} (h : exec c s = .next t) (hP : P t) :
    ∃ t, exec c s = .next t ∧ t.pending = s.pending ∧ P t := by
  obtain ⟨m, hm⟩ := keeps_of_exec h
  exact ⟨t, h, hm.pending, hP⟩

/-- A command that answers the same state. -/
theorem does_nothing {c : Instr} {s : State} (h : exec c s = .next s) : Does c s [] (fun _ => True) := ⟨s, h, trivial, Only.refl _ s⟩

/-- Settles O58: clause by clause from what each loss, reset and start leaves. -/
theorem powerCommands : Obligations.PowerCommands := by
  unfold Obligations.PowerCommands
  intro s byPin elapsed ddr0 ddr1 failed goes kept latched bare
  refine ⟨fun hup => ?_, ?_, ?_, ?_, fun hclk => ?_, fun hclk => ?_, fun hable => ?_, fun hable => ?_⟩
  · obtain ⟨d2d, hbare, cairn, datum, ⟨tick, syn, tic, gns, thm⟩, noWriter, coreRegs, keepRegs, orphans, autoOpen⟩ :=
      s.coreDieReset_lost byPin hup
    obtain ⟨hs, hdown, hresetN, hneed⟩ := s.coreDieReset_pwr byPin hup
    exact goes_of_exec rfl ⟨State.coreUp_eq_false hdown, d2d, hbare, ⟨cairn, datum, hs.fuses, hs.boot⟩, ⟨hs.debugged, hs.zeroised⟩,
      tick, syn, tic, gns, thm, noWriter, hresetN, hneed, coreRegs, keepRegs, orphans, autoOpen⟩
  · obtain ⟨hclk, hcore⟩ := s.clkLoss_off
    obtain ⟨cairn, datum⟩ := s.clkLoss_kept
    have hs := s.clkLoss_stands
    exact goes_of_exec rfl ⟨hclk, hcore, ⟨cairn, datum, hs.fuses, hs.boot⟩, ⟨hs.debugged, hs.zeroised⟩, hs.vddKeep, s.clkLoss_timeline,
      s.clkLoss_bare, fun _ _ hd hg => s.clkLoss_keeper hd hg,
      fun _ i hd hp => (s.rg_clkLoss i (Reg.ne_pwrStat hp)).trans (if_neg hd)⟩
  · obtain ⟨hclk, hcore⟩ := s.keepReset_off
    obtain ⟨cairn, datum⟩ := s.keeperReset_kept
    have hs := s.keepReset_stands
    exact goes_of_exec rfl ⟨hclk, hcore, ⟨cairn, datum, hs.fuses, hs.boot⟩, ⟨hs.debugged, hs.zeroised⟩, rfl, rfl,
      fun _ i h => s.rg_keeperReset i h⟩
  · obtain ⟨hclk, hcore⟩ := s.keepLoss_off
    exact goes_of_exec rfl ⟨hclk, hcore, s.keepLoss_kept, rfl, rfl, rfl, fun _ i h => s.powerLost.rg_keeperReset i h⟩
  · exact does_nothing (congrArg _ (s.keeperStart_idle elapsed.toNat hclk))
  · obtain ⟨now, inc, cond, noWriter, preSource⟩ := s.keeperStart_resumed elapsed.toNat hclk
    have hp := s.keeperStart_pwr elapsed.toNat hclk
    refine goes_of_exec rfl ⟨?_, State.coreUp_eq_false (by rw [hp]; simp [State.supplied]), by rw [hp]; rfl, now, inc, cond, noWriter, preSource,
      by rw [hp]⟩
    unfold State.clockUp
    rw [hp]
    rfl
  · exact does_nothing (congrArg _ (s.coreStart_unable ddr0 ddr1 _ hable))
  · obtain ⟨up, datum, ember, trip, step3, starts, mem0, mem1, raised, refuses, autoOpen⟩ :=
      s.coreStart_started ddr0 ddr1 (failed.map fun i => i.val) hable
    exact goes_of_exec rfl ⟨up, datum, ember, trip, step3, starts, mem0, mem1, fun i hi => raised i.val (List.mem_map_of_mem hi),
      refuses, autoOpen⟩

end Sys2Proof.Machine
end

section
/-!
The bound instructions (R5, R67, Table 3.11), and an exception that an instruction's effect raises in U (R85).
-/
namespace Sys2Proof.Machine

/-! ### Bound fields -/

/-- A saturating sum is the sum of the fields, cut at the unbounded field (R5). -/
theorem satAdd_eq (p q : BitVec 32) : satAdd p q = BitVec.ofNat 32 (min 0xFFFFFFFF (p.toNat + q.toNat)) := by
  unfold satAdd
  split
  · next h =>
    have hs : 0xFFFFFFFF ≤ p.toNat + q.toNat := by
      rcases h with rfl | rfl | h
      · simp
      · simp
      · exact h
    rw [Nat.min_eq_left hs]
  · next h =>
    refine BitVec.eq_of_toNat_eq ?_
    rw [BitVec.toNat_add, BitVec.toNat_ofNat, Nat.min_eq_right (by omega)]

/-- One output unit is a whole number of 2^-8 ns, in a bound field. -/
theorem unitOf_range (u : Nat) : 0 < unitOf u ∧ unitOf u < 2 ^ 32 := by
  unfold unitOf
  split
  · decide
  · split <;> decide

/-- A field in a coarser unit is rounded upward, and an unbounded field stays so (R5, Table 3.11). -/
theorem sideUnit_eq (u : Nat) (w : BitVec 32) : sideUnit u w =
    BitVec.ofNat 32 (if 0xFFFFFFFF ≤ w.toNat then 0xFFFFFFFF else (w.toNat + unitOf u - 1) / unitOf u) := by
  have hu := (unitOf_range u).1
  have hw : w = 0xFFFFFFFF#32 ↔ 0xFFFFFFFF ≤ w.toNat := by
    rw [← BitVec.toNat_inj]
    have := w.isLt
    change _ = 4294967295 ↔ _
    omega
  unfold sideUnit
  by_cases h : w = 0xFFFFFFFF#32
  · rw [if_pos h, if_pos (hw.1 h), h]
  · have hlt : w.toNat < 0xFFFFFFFF := Nat.lt_of_not_le fun hl => h (hw.2 hl)
    have hc : ceilDiv w.toNat (unitOf u) ≤ w.toNat := by
      unfold ceilDiv
      rw [if_neg (by omega)]
      refine (Nat.div_le_iff_le_mul_add_pred hu).2 ?_
      have := Nat.le_mul_of_pos_left w.toNat hu
      omega
    rw [if_neg h, if_neg (by omega), satWord, if_neg (by omega), ceilDiv, if_neg (by omega)]

/-- A field that is first widened by one output unit, then given in that unit: the sum is rounded upward, and a sum beyond the bounded
fields is unbounded. -/
theorem sideUnit_widened (u : Nat) (w : BitVec 32) : sideUnit u (satAdd w (BitVec.ofNat 32 (unitOf u))) =
    BitVec.ofNat 32 (if 0xFFFFFFFF ≤ w.toNat + unitOf u then 0xFFFFFFFF else (w.toNat + unitOf u + unitOf u - 1) / unitOf u) := by
  have hu := (unitOf_range u).2
  have hv : (satAdd w (BitVec.ofNat 32 (unitOf u))).toNat = min 0xFFFFFFFF (w.toNat + unitOf u) := by
    rw [satAdd_eq, BitVec.toNat_ofNat, BitVec.toNat_ofNat, Nat.mod_eq_of_lt hu]
    omega
  rw [sideUnit_eq, hv]
  by_cases h : 0xFFFFFFFF ≤ w.toNat + unitOf u
  · rw [Nat.min_eq_left h, if_pos h, if_pos (Nat.le_refl _)]
  · rw [Nat.min_eq_right (by omega)]

theorem boundOfWord_eq (g : BitVec 64) : boundOfWord g = ⟨BitVec.ofNat 32 (g.toNat / 2 ^ 32), BitVec.ofNat 32 g.toNat⟩ := by
  unfold boundOfWord
  simp only [Bound.mk.injEq]
  constructor
  · refine BitVec.eq_of_toNat_eq ?_
    simp [BitVec.extractLsb'_toNat, Nat.shiftRight_eq_div_pow]
  · refine BitVec.eq_of_toNat_eq ?_
    simp [BitVec.extractLsb'_toNat]

/-! ### An exception taken from U -/

/-- An exception that an instruction's effect raises in a thread in U: the thread is in K at EVECT, and up to the counters nothing else
differs. -/
theorem trapsFromU {c : Instr} {s : State} {th : Nat} {insn : BitVec 32} {kOnly : Bool} {srcs : List Nat} {body : State → Eff}
    {e : Trap} (hc : exec c s = .next (s.issue th insn kOnly srcs body)) (h : s.Issues th kOnly srcs)
    (hk : (s.thread th).k = false) (hb : body (s.setThread th (s.past th)) = .trap e) : TrapsFromU c s th e.exc e.eval := by
  have hr : s.runs th = true := by simp [State.runs, h.runs, h.ready]
  have hp := Thread.poisonOf_none h.clean
  have hko : kOnly = false := by
    cases kOnly with
    | false => rfl
    | true => exact absurd (h.priv rfl) (by simp [hk])
  have hpmc := pmcEvent_only s th 0x0B (s.thread th).k insn ((s.thread th).pc.extractLsb' 0 32)
  have hth : ∀ x, (s.pmcEvent th 0x0B (s.thread th).k insn ((s.thread th).pc.extractLsb' 0 32)).thread x = s.thread x := fun x => by
    have ht : (s.pmcEvent th 0x0B (s.thread th).k insn ((s.thread th).pc.extractLsb' 0 32)).threads = s.threads := hpmc.2 .threads (by decide)
    exact congrArg (fun m => SMap.get (fun _ => Thread.reset) m x) ht
  have hi : s.issue th insn kOnly srcs body = s.takeTrap th insn e := by
    simp only [State.past] at hb
    unfold State.issue
    simp only [hr, h.fetch, hko, hp, hb, Bool.not_true, Bool.false_and, Bool.false_eq_true, if_false]
  rw [hi] at hc
  refine ⟨_, hc, ?_, fun x hx => ?_, trivial, ?_⟩
  all_goals
    unfold State.takeTrap
    simp only [hk, Bool.false_eq_true, if_false]
    rw [hk] at hth hpmc
  · rw [State.thread_setThread_same, hth]
  · rw [State.thread_setThread_other _ _ _ _ hx, hth]
  · exact (hpmc.trans (setThread_only _ th _)).mono (by decide)

/-! ### The registers that an issued instruction reads -/

theorem tr_past (s : State) (th i : Nat) : (s.setThread th (s.past th)).tr th i = s.tr th i := by
  unfold State.tr
  rw [State.thread_setThread_same]
  rfl

theorem br_past (s : State) (th i : Nat) : (s.setThread th (s.past th)).br th i = s.br th i := by
  unfold State.br
  rw [State.thread_setThread_same]
  rfl

theorem setBd_past (s : State) (th i : Nat) (v : TagBound) : (s.setThread th (s.past th)).setBd th i v =
    (s.setThread th (s.past th)).setThread th ((s.past th).setBd i v) := by
  unfold State.setBd
  rw [State.thread_setThread_same]

theorem setG_past (s : State) (th i : Nat) (v : BitVec 64) : (s.setThread th (s.past th)).setG th i v =
    (s.setThread th (s.past th)).setThread th ((s.past th).setG i v) := by
  unfold State.setG
  rw [State.thread_setThread_same]

/-- An instruction that writes one bound register. -/
theorem completes_setBd {c : Instr} {s : State} {th bd : Nat} {insn : BitVec 32} {srcs : List Nat} {body : State → Eff} {v : TagBound}
    (hc : exec c s = .next (s.issue th insn false srcs body)) (h : s.Issues th false srcs)
    (hb : body (s.setThread th (s.past th)) = .ok ((s.setThread th (s.past th)).setBd th bd v)) :
    Completes c s th ((s.past th).setBd bd v) [] (fun _ => True) :=
  completes_thread hc h (by rw [hb, setBd_past])

/-- An instruction that writes one general register. -/
theorem completes_setG {c : Instr} {s : State} {th d : Nat} {insn : BitVec 32} {kOnly : Bool} {srcs : List Nat} {body : State → Eff}
    {v : BitVec 64} (hc : exec c s = .next (s.issue th insn kOnly srcs body)) (h : s.Issues th kOnly srcs)
    (hb : body (s.setThread th (s.past th)) = .ok ((s.setThread th (s.past th)).setG th d v)) :
    Completes c s th ((s.past th).setG d v) [] (fun _ => True) :=
  completes_thread hc h (by rw [hb, setG_past])

/-! ### What BCVT writes, and the statement -/

theorem unitMod_eq (unit : BitVec 2) (addOne : Bool) : unitMod unit addOne = unit.toNat + (if addOne then 4 else 0) := by
  cases addOne <;> rfl

theorem unitOf_unit (unit : BitVec 2) : unitOf unit.toNat = if unit = 0 then 1 else if unit = 1 then 256 else 256000 := by
  revert unit
  decide

/-- What BCVT writes: both fields in the unit, LATE first widened where that is asked. -/
theorem boundUnit_eq (b : Bound) (u : Nat) (widen : Bool) :
    let up := fun n => BitVec.ofNat 32 (if 0xFFFFFFFF ≤ n then 0xFFFFFFFF else (n + unitOf u - 1) / unitOf u)
    boundUnit b u widen = ⟨up b.early.toNat, up (if widen then b.late.toNat + unitOf u else b.late.toNat)⟩ := by
  intro up
  unfold boundUnit
  cases widen with
  | false => simp only [Bool.false_eq_true, if_false, sideUnit_eq, up]
  | true =>
    rw [if_pos rfl, if_pos rfl, sideUnit_widened, sideUnit_eq]

/-- Settles O20: each instruction writes its one register, from the registers that issuing it leaves as they were. -/
theorem boundResults : Obligations.BoundResults := by
  unfold Obligations.BoundResults
  refine ⟨fun s th bd bx bz tx g => ?_, fun s th g bx unit addOne h => ?_⟩
  · intro x y v u gives add max_ tag
    refine ⟨fun h => ?_, fun h => ?_, fun h => ⟨?_, ?_⟩, fun h => ⟨?_, ?_⟩, fun h => ?_, fun h => ?_⟩
    · exact completes_setBd rfl h rfl
    · exact completes_setBd rfl h (by rw [gr_past, tr_past]; rfl)
    · exact completes_setBd rfl h (by rw [br_past])
    · exact completes_setG rfl h (by rw [br_past]; rfl)
    · refine completes_setBd rfl h ?_
      simp only [br_past, boundAdd, satAdd_eq]
      rfl
    · exact completes_setBd rfl h (by simp only [br_past]; rfl)
    · refine completes_setBd rfl h ?_
      simp only [br_past, gr_past, boundAdd, boundOfWord_eq, satAdd_eq]
      rfl
    · exact completes_setBd rfl h (by rw [gr_past, boundOfWord_eq])
  · intro x size up late
    refine ⟨fun hu => completes_setG rfl h ?_, fun hu hk => ?_⟩
    · simp only [if_neg hu, br_past, boundUnit_eq, unitOf_unit]
      rfl
    · have ht : TrapsFromU (.bcvt th g bx unit addOne) s th.val .illegal
          ((encT 0x12 0 bx.val 0 g.val 8 (unitMod unit addOne)).setWidth 64) :=
        trapsFromU (e := ⟨.illegal, _⟩) rfl h hk (if_pos hu)
      rwa [unitMod_eq] at ht

end Sys2Proof.Machine
end

section
/-!
Frames from masks: the parts that a mask of listed parts names are the listed ones.
-/
namespace Sys2Proof.Machine

/-- The parts, each at its number. -/
def Part.all : List Part :=
  [.copy, .mem, .datum, .replica, .replicaOk, .d2dUp, .tick, .timeline, .threads, .images, .frames, .launches, .jobs, .derived, .irq, .dtm,
    .flt, .hst, .trv, .tic, .ens, .thm, .syn, .gns, .prt, .key, .mat, .pmc, .svc, .pwr, .cairn, .secDone, .freeCtr, .regs .own, .regs .top,
    .regs .host, .regs .fltRec, .regs .fault, .regs .irqStat, .regs .irq, .regs .damper, .regs .key, .regs .power, .regs .mate,
    .regs .memory, .regs .datum, .regs .tic, .regs .ens, .regs .traverse, .regs .syn, .regs .gns, .regs .port, .regs .service,
    .regs .stoker, .regs .pmc]

theorem Part.all_num (p : Part) : Part.all[p.num]? = some p := by
  cases p with
  | regs g => cases g <;> rfl
  | _ => rfl

theorem Part.num_inj {p q : Part} (h : p.num = q.num) : p = q := by
  have hp := p.all_num
  rw [h, q.all_num] at hp
  exact (Option.some.inj hp).symm

/-- A bit of a mask of parts, with a mask that stands before them, names a listed part. -/
theorem testBit_foldl_parts (p : Part) (l : List Part) : ∀ m : Nat,
    (l.foldl (fun m q => m ||| 2 ^ q.num) m).testBit p.num = true → m.testBit p.num = true ∨ p ∈ l := by
  induction l with
  | nil => exact fun _ h => .inl h
  | cons q r ih =>
    intro m h
    rcases ih _ h with hm | hr
    · rw [Nat.testBit_or, Bool.or_eq_true] at hm
      rcases hm with hm | hq
      · exact .inl hm
      · have hn : q.num = p.num := by simpa [Nat.testBit_two_pow] using hq
        exact .inr (Part.num_inj hn ▸ List.mem_cons_self)
    · exact .inr (List.mem_cons_of_mem _ hr)

/-- What keeps all but the listed parts, as a frame. -/
theorem Keeps.onlyOf {l : List Part} {s t : State} (h : Keeps (maskOf l) s t) : Only l s t := by
  refine h.only fun p hp => ?_
  rcases testBit_foldl_parts p l 0 hp with h0 | hl
  · simp at h0
  · exact hl

/-- A frame that leaves a part out says that it is the same. -/
theorem Only.same {l : List Part} {s t : State} (h : Only l s t) (p : Part) (hp : p ∉ l) : p.Same s t := h.2 p hp

theorem Only.rg {l : List Part} {s t : State} {r : Reg} (h : Only l s t) (hr : Part.regs r.group ∉ l) (i : Nat) : t.rg r i = s.rg r i :=
  h.2 _ hr r i rfl

theorem Only.fd {l : List Part} {s t : State} {f : Fld} (h : Only l s t) (hr : Part.regs f.reg.group ∉ l) (i : Nat) :
    t.fd f i = s.fd f i := State.fd_congr (h.rg hr i)

theorem Only.fb {l : List Part} {s t : State} {f : Fld} (h : Only l s t) (hr : Part.regs f.reg.group ∉ l) (i : Nat) :
    t.fb f i = s.fb f i := State.fb_congr (h.rg hr i)

/-- A command whose next state keeps all but the listed parts. -/
theorem does_of_keeps {c : Instr} {s t : State} {l : List Part} {P : State → Prop} (h : exec c s = .next t) (hk : Keeps (maskOf l) s t)
    (hP : P t) : Does c s l P := ⟨t, h, hP, hk.onlyOf⟩

end Sys2Proof.Machine
end

section
/-!
Ownership entries (R32, R34): what a claim and a release leave of the entry they ask for.
-/
namespace Sys2Proof.Machine

/-- The word of an entry that a party holds (R32). -/
def ownWord (p : Party) : BitVec 32 := BitVec.ofNat 32 (2 ^ 31 + p.kindOwner.1 * 2 ^ 28 + p.kindOwner.2)

/-- A party whose KIND and OWNER fit their fields: every host queue and every thread. -/
def OwnFits (p : Party) : Prop := p.kindOwner.1 < 4 ∧ p.kindOwner.2 < 2 ^ 16

theorem ownFits_thread (th : Fin 512) : OwnFits (.thread th.val) := ⟨by simp [Party.kindOwner], Nat.lt_trans th.isLt (by decide)⟩

theorem ownFits_hostQueue (q : Fin 64) : OwnFits (.hostQueue q.val) :=
  ⟨by simp [Party.kindOwner], Nat.lt_trans q.isLt (by decide)⟩

/-- The fields of the word of a held entry. -/
theorem ownWord_fields {p : Party} (h : OwnFits p) :
    Fld.TOP_OWN.HELD.of (ownWord p) = 1 ∧ Fld.TOP_OWN.ORPHAN.of (ownWord p) = 0 ∧ Fld.TOP_OWN.KIND.of (ownWord p) = p.kindOwner.1 ∧
      Fld.TOP_OWN.OWNER.of (ownWord p) = p.kindOwner.2 := by
  obtain ⟨hk, ho⟩ := h
  have hv : (ownWord p).toNat = 2 ^ 31 + p.kindOwner.1 * 2 ^ 28 + p.kindOwner.2 := by
    unfold ownWord
    rw [BitVec.toNat_ofNat]
    omega
  unfold Fld.of bitsOf
  rw [hv]
  simp only [Fld.TOP_OWN.HELD, Fld.TOP_OWN.ORPHAN, Fld.TOP_OWN.KIND, Fld.TOP_OWN.OWNER]
  omega

/-- A party owns the entry that holds its word. -/
theorem State.owns_ownWord {t : State} {p : Party} {i : Nat} (h : OwnFits p) (hw : t.rg .TOP_OWN i = (ownWord p)) :
    t.owns p i = true ∧ t.fb Fld.TOP_OWN.ORPHAN i = false := by
  obtain ⟨held, orphan, kind, owner⟩ := ownWord_fields h
  have hH : t.fb Fld.TOP_OWN.HELD i = true := decide_eq_true ((congrArg _ hw).trans held)
  have hO : t.fb Fld.TOP_OWN.ORPHAN i = false := decide_eq_false fun e => absurd (((congrArg _ hw).trans orphan).symm.trans e) (by decide)
  have hK : t.fd Fld.TOP_OWN.KIND i = p.kindOwner.1 := (congrArg _ hw).trans kind
  have hN : t.fd Fld.TOP_OWN.OWNER i = p.kindOwner.2 := (congrArg _ hw).trans owner
  refine ⟨?_, hO⟩
  unfold State.owns
  rw [hH, hO, hK, hN]
  cases p <;> simp [Party.kindOwner]

/-! ### Claims and releases, by what they find -/

theorem State.claim_invalid {s : State} {i : Nat} (p : Party) (hv : ownValid i = false) : s.claim p i = (s, .noResource) := by
  simp [State.claim, hv]

theorem State.claim_fixed {s : State} {i : Nat} (p : Party) (hv : ownValid i = true) (hf : ownFixed i = true) :
    s.claim p i = (s, .fixed) := by simp [State.claim, hv, hf]

theorem State.claim_free {s : State} {i : Nat} (p : Party) (hv : ownValid i = true) (hf : ownFixed i = false)
    (hh : s.fb Fld.TOP_OWN.HELD i = false) : s.claim p i = (s.wr .TOP_OWN i (ownWord p), .ok) := by
  simp [State.claim, hv, hf, hh, ownWord]

theorem State.claim_orphan {s : State} {i : Nat} (p : Party) (hv : ownValid i = true) (hf : ownFixed i = false)
    (hh : s.fb Fld.TOP_OWN.HELD i = true) (ho : s.fb Fld.TOP_OWN.ORPHAN i = true) :
    s.claim p i = (s.wr .TOP_OWN i (ownWord p), .okOrphan) := by simp [State.claim, hv, hf, hh, ho, ownWord]

theorem State.claim_owned {s : State} {i : Nat} (p : Party) (hv : ownValid i = true) (hf : ownFixed i = false)
    (hh : s.fb Fld.TOP_OWN.HELD i = true) (ho : s.fb Fld.TOP_OWN.ORPHAN i = false) : s.claim p i = (s, .owned) := by
  simp [State.claim, hv, hf, hh, ho]

theorem State.release_invalid {s : State} {i : Nat} (p : Party) (hv : ownValid i = false) : s.release p i = (s, .noResource) := by
  simp [State.release, hv]

theorem State.release_fixed {s : State} {i : Nat} (p : Party) (hv : ownValid i = true) (hf : ownFixed i = true) :
    s.release p i = (s, .fixed) := by simp [State.release, hv, hf]

theorem State.release_own {s : State} {i : Nat} {p : Party} (hv : ownValid i = true) (hf : ownFixed i = false)
    (ho : s.owns p i = true) : s.release p i = (s.wr .TOP_OWN i 0, .ok) := by simp [State.release, hv, hf, ho]

theorem State.release_other {s : State} {i : Nat} {p : Party} (hv : ownValid i = true) (hf : ownFixed i = false)
    (ho : s.owns p i = false) : s.release p i = (s, .notOwner) := by simp [State.release, hv, hf, ho]

/-- A write of an ownership entry reaches no other part. -/
theorem State.wr_own_keeps (s : State) (i : Nat) (v : BitVec 32) : Keeps (maskOf [.regs .own]) s (s.wr .TOP_OWN i v) :=
  State.wr_keeps (Keeps.refl _ s) .TOP_OWN (by decide) i v

theorem State.rg_wr_own_other (s : State) (i : Nat) (v : BitVec 32) : ∀ k, k ≠ i → (s.wr .TOP_OWN i v).rg .TOP_OWN k = s.rg .TOP_OWN k :=
  fun _ hk => State.rg_wr_other _ _ _ _ _ _ (.inr hk.symm)

end Sys2Proof.Machine
end

section
/-!
The Damper-checked instructions of a program (Table 3.17): each ends in a status word, from an effect that leaves the threads alone, and a
violation is counted and recorded (R76, R255).
-/
namespace Sys2Proof.Machine

/-! ### Instructions that answer with a status word -/

/-- An instruction whose effect leaves the threads alone and ends in a status word for one general register. -/
theorem completes_answer {c : Instr} {s u : State} {th d : Nat} {insn : BitVec 32} {kOnly : Bool} {srcs : List Nat} {body : State → Eff}
    {l : List Part} {P : State → Prop} {st : Status} {detail result : Nat}
    (hc : exec c s = .next (s.issue th insn kOnly srcs body)) (h : s.Issues th kOnly srcs)
    (hb : body (s.setThread th (s.past th)) = u.answer th d st detail result)
    (hu : Keeps (maskOf (counting ++ l)) (s.setThread th (s.past th)) u) (hl : Part.threads ∉ counting ++ l)
    (hP : ∀ t, Only (.threads :: counting) u t → P t) :
    Completes c s th ((s.past th).setG d (statusWord st detail result)) l P := by
  have ho := hu.onlyOf
  have hth : ∀ x, u.thread x = (s.setThread th (s.past th)).thread x := fun x =>
    congrArg (fun m => SMap.get (fun _ => Thread.reset) m x) (ho.same .threads hl)
  have hself : u.thread th = s.past th := (hth th).trans (State.thread_setThread_same _ _ _)
  have hset : u.setG th d (statusWord st detail result) = u.setThread th ((s.past th).setG d (statusWord st detail result)) := by
    unfold State.setG
    rw [hself]
  have hi : Only counting _ (s.issue th insn kOnly srcs body) := issue_ok (insn := insn) h hb
  rw [hset] at hi
  have ht : ∀ x, (s.issue th insn kOnly srcs body).thread x = (u.setThread th ((s.past th).setG d (statusWord st detail result))).thread x :=
    fun x => congrArg (fun m => SMap.get (fun _ => Thread.reset) m x) (hi.same .threads (by decide))
  have hlast := (setThread_only u th ((s.past th).setG d (statusWord st detail result))).trans hi
  refine ⟨_, hc, (ht th).trans (State.thread_setThread_same _ _ _), fun x hx => ?_, hP _ (hlast.mono (by decide)), ?_⟩
  · rw [ht, State.thread_setThread_other _ _ _ _ hx, hth, State.thread_setThread_other _ _ _ _ hx]
  · refine (((setThread_only s th _).trans ho).trans hlast).mono fun p hp => ?_
    simp only [List.mem_append, List.mem_cons, List.not_mem_nil, or_false] at hp ⊢
    tauto

/-- The same where the effect changes nothing. -/
theorem completes_status {c : Instr} {s : State} {th d : Nat} {insn : BitVec 32} {kOnly : Bool} {srcs : List Nat} {body : State → Eff}
    {st : Status} {detail result : Nat} (hc : exec c s = .next (s.issue th insn kOnly srcs body)) (h : s.Issues th kOnly srcs)
    (hb : body (s.setThread th (s.past th)) = (s.setThread th (s.past th)).answer th d st detail result) :
    Completes c s th ((s.past th).setG d (statusWord st detail result)) [] (fun _ => True) :=
  completes_answer hc h hb (Keeps.refl _ _) (by decide) fun _ _ => trivial

/-! ### Violations -/

/-- The fault of a thread's violation (R255). -/
def violationFault (th status reason : Nat) : Raise :=
  { rec_ := 64 + coreOf th, cause := 0, cls := 2, thread := some th, status := status, reason := reason }

theorem violationFault_minor (th status reason : Nat) : (violationFault th status reason).cls ≠ 3 := by simp [violationFault]

theorem State.violation_eq (s : State) (th reason status : Nat) (insn : BitVec 32) :
    s.violation th reason status insn =
      (((((((s.raise (violationFault th status reason)).bump .STK_DMP_VIOL (coreOf th)).bump .DMP_VIOL_TOTAL).wr .DMP_LAST 0
        (BitVec.ofNat 32 (th % 512 * 256 + reason % 256))).wr .DMP_LAST_INSN 0 insn).wr .DMP_LAST_AT 0 s.now.ns).pmcEvent th 0x0C
        (s.thread th).k insn (((s.thread th).pc - 4).extractLsb' 0 32)) := rfl

theorem State.violation_parts {l : List Part} {z s : State} (h : Keeps (maskOf l) z s)
    (hm : maskOf (counting ++ violating) &&& maskOf l = maskOf (counting ++ violating)) (th reason status : Nat) (insn : BitVec 32) :
    Keeps (maskOf l) z (s.violation th reason status insn) :=
  State.violation_keeps h (mask_sub (by decide) hm) th reason status insn

/-- A violation of a thread while the core die runs is counted and recorded. -/
theorem State.violation_violated (s : State) (th : Fin 512) (reason status : Nat) (insn : BitVec 32) (hup : s.coreUp = true) :
    Violated s (s.violation th.val reason status insn) th.val reason := by
  have hcore : keeperRecord (64 + coreOf th.val) = false := by
    have := th.isLt
    unfold keeperRecord coreOf
    exact decide_eq_false (by omega)
  have hrec : s.recordUp (violationFault th.val status reason).rec_ = true := by
    simp only [State.recordUp, violationFault, hcore, Bool.false_eq_true, if_false, hup]
  have hr := State.raise_minor_raised (violationFault_minor th.val status reason) hrec (by simp [violationFault])
  have hk := State.raise_minor_keeps (violationFault_minor th.val status reason) (Keeps.refl (maskOf raising) s) rfl
  rw [State.violation_eq]
  generalize s.raise (violationFault th.val status reason) = u at hr hk ⊢
  have hp := State.pmcEvent_keeps (Keeps.refl (maskOf counting)
    (((((u.bump .STK_DMP_VIOL (coreOf th.val)).bump .DMP_VIOL_TOTAL).wr .DMP_LAST 0
      (BitVec.ofNat 32 (th.val % 512 * 256 + reason % 256))).wr .DMP_LAST_INSN 0 insn).wr .DMP_LAST_AT 0 s.now.ns)) (by decide) th.val 0x0C
    (s.thread th.val).k insn (((s.thread th.val).pc - 4).extractLsb' 0 32)
  have hw : Keeps (maskOf [.regs .stoker, .regs .damper]) u
      (((((u.bump .STK_DMP_VIOL (coreOf th.val)).bump .DMP_VIOL_TOTAL).wr .DMP_LAST 0
        (BitVec.ofNat 32 (th.val % 512 * 256 + reason % 256))).wr .DMP_LAST_INSN 0 insn).wr .DMP_LAST_AT 0 s.now.ns) :=
    State.wr_keeps (State.wr_keeps (State.wr_keeps (State.bump_keeps (State.bump_keeps (Keeps.refl _ u) (by decide) (by decide) _)
      (by decide) (by decide) 0) _ (by decide) _ _) _ (by decide) _ _) _ (by decide) _ _
  refine ⟨?_, ?_, ?_, (hr.keeps hw (by decide)).keeps hp (by decide)⟩
  · rw [hp.rg (by decide), ← hk.rg (r := .STK_DMP_VIOL) (by decide)]
    simp [State.bump]
  · rw [hp.rg (by decide), ← hk.rg (r := .DMP_VIOL_TOTAL) (by decide)]
    simp [State.bump]
  · rw [hp.rg (by decide)]
    simp

/-- A violation stands through what reaches neither its record nor its counts. -/
theorem Violated.only {s u t : State} {th reason : Nat} {l : List Part} (h : Violated s u th reason) (ho : Only l u t)
    (hl : Part.regs .stoker ∉ l ∧ Part.regs .damper ∉ l ∧ Part.regs .fltRec ∉ l) : Violated s t th reason := by
  obtain ⟨viol, total, last, raised⟩ := h
  obtain ⟨hs, hd, hf⟩ := hl
  refine ⟨(ho.rg (r := .STK_DMP_VIOL) hs _).trans viol, (ho.rg (r := .DMP_VIOL_TOTAL) hd _).trans total,
    (ho.rg (r := .DMP_LAST) hd _).trans last, ?_⟩
  exact Raised.congr raised (ho.fb (f := Fld.FLT_REC_STAT.ACTIVE) hf _) (ho.rg (r := .FLT_REC_CAUSE) hf _)

/-- What came before a violation and reached no count of it does not matter. -/
theorem Violated.from_ {s z u : State} {th reason : Nat} {l : List Part} (h : Violated z u th reason) (ho : Only l s z)
    (hl : Part.regs .stoker ∉ l ∧ Part.regs .damper ∉ l) : Violated s u th reason := by
  obtain ⟨viol, total, rest⟩ := h
  exact ⟨viol.trans (congrArg (· + 1) (ho.rg (r := .STK_DMP_VIOL) hl.1 _)),
    total.trans (congrArg (· + 1) (ho.rg (r := .DMP_VIOL_TOTAL) hl.2 _)), rest⟩

/-- An instruction that ends in a Damper violation, from a state that marks the refusal in the Datum block alone. -/
theorem completes_violation {c : Instr} {s z : State} {th : Fin 512} {d : Nat} {insn : BitVec 32} {kOnly : Bool} {srcs : List Nat}
    {body : State → Eff} {P : State → Prop} {reason detail : Nat}
    (hc : exec c s = .next (s.issue th.val insn kOnly srcs body)) (h : s.Issues th.val kOnly srcs)
    (hb : body (s.setThread th.val (s.past th.val)) = (z.violation th.val reason detail insn).answer th.val d .damper detail 0)
    (hz : Keeps (maskOf [.regs .datum]) (s.setThread th.val (s.past th.val)) z)
    (hP : ∀ t, Only (.threads :: (counting ++ violating)) s t → P t) :
    Completes c s th.val ((s.past th.val).setG d (statusWord .damper detail 0)) violating
      (fun t => Violated s t th.val reason ∧ P t) := by
  have hpast := setThread_only s th.val (s.past th.val)
  have hup : z.coreUp = true := (congrArg (fun p : PwrState => decide (p.core = .running)) (hz.same .pwr (by decide))).trans h.runs
  have hv := (z.violation_violated th reason detail insn hup).from_ (hpast.trans hz.onlyOf) (by decide)
  have hk := State.violation_parts (l := counting ++ violating) (hz.mono (by decide)) rfl th.val reason detail insn
  exact completes_answer hc h hb hk (by decide) fun t ht =>
    ⟨hv.only ht (by decide), hP t (((hpast.trans hk.onlyOf).trans ht).mono (by decide))⟩

/-! ### Decisions that no thread's record bears on -/

theorem State.incDecide_setThread (s : State) (n : Nat) (t : Thread) (p : Party) (v : BitVec 64) :
    (s.setThread n t).incDecide p v = s.incDecide p v := rfl

theorem State.owns_setThread (s : State) (n : Nat) (t : Thread) (p : Party) (i : Nat) : (s.setThread n t).owns p i = s.owns p i := by
  cases p <;> rfl

theorem State.stepRefusal_setThread (s : State) (n : Nat) (t : Thread) (b : Nat) (ns : BitVec 32) (off : Int) :
    (s.setThread n t).stepRefusal b ns off = s.stepRefusal b ns off := rfl

theorem State.oscRefusal_setThread (s : State) (n : Nat) (t : Thread) (i : Nat) (code : BitVec 32) :
    (s.setThread n t).oscRefusal i code = s.oscRefusal i code := rfl

/-! ### The increment and the step -/

theorem State.incProgram_accepted {s : State} {th : Nat} {v : BitVec 64} (insn : BitVec 32) (h : s.incDecide (.thread th) v = .accepted) :
    s.incProgram th v insn = (s.incAccept (.thread th) v, .ok, 0) := by simp only [State.incProgram, h]

theorem State.incProgram_lost {s : State} {th : Nat} {v : BitVec 64} (insn : BitVec 32) (h : s.incDecide (.thread th) v = .lost) :
    s.incProgram th v insn = (s.setB Fld.DTM_WSTAT.INC_LOST true, .lost, 0) := by simp only [State.incProgram, h]

theorem State.incProgram_range {s : State} {th : Nat} {v : BitVec 64} (insn : BitVec 32) (h : s.incDecide (.thread th) v = .range) :
    s.incProgram th v insn = ((s.setF Fld.DTM_WSTAT.REASON 9).violation th 0x01 0x0E insn, .damper, 0x0E) := by
  simp only [State.incProgram, h]

theorem State.incProgram_slew {s : State} {th : Nat} {v : BitVec 64} (insn : BitVec 32) (h : s.incDecide (.thread th) v = .slew) :
    s.incProgram th v insn = ((s.setF Fld.DTM_WSTAT.REASON 9).violation th 0x02 0x0E insn, .damper, 0x0E) := by
  simp only [State.incProgram, h]

/-- An accepted increment of a program waits for its tick, and marks that the increment was written. -/
theorem State.incAccept_waits (s : State) (th : Nat) (v : BitVec 64) :
    (s.incAccept (.thread th) v).dtm.incPending = s.dtm.incPending ++ [(s.tick + 64, v)] ∧
      (s.incAccept (.thread th) v).trv.wrote = true := by
  unfold State.incAccept
  simp [effectDelay]

theorem State.stepProgram_accepted {s : State} {code r b : Nat} {x : TimeVal} (th : Nat) (insn : BitVec 32)
    (hs : stepSource code = some (r, b)) (h : s.stepRefusal b x.ns (stepOffset x.sec x.ns x.frac) = none) :
    s.stepProgram th code x insn = (s.stepAccept (stepOffset x.sec x.ns x.frac) (s.refBound r) code, .ok, 0) := by
  simp only [State.stepProgram, hs, h, Option.getD_some]

theorem State.stepProgram_refused {s : State} {code r b : Nat} {x : TimeVal} {st : Status} (th : Nat) (insn : BitVec 32)
    (hs : stepSource code = some (r, b)) (h : s.stepRefusal b x.ns (stepOffset x.sec x.ns x.frac) = some st) :
    s.stepProgram th code x insn = ((s.setF Fld.DTM_WSTAT.REASON 9).violation th 0x03 st.code insn, .damper, st.code) := by
  simp only [State.stepProgram, hs, h]

/-- An accepted step waits for its tick. -/
theorem State.stepAccept_waits (s : State) (off : Int) (b : Bound) (source : Nat) :
    (s.stepAccept off b source).dtm.step = some ⟨s.tick + 64, off, b, source⟩ ∧
      (s.stepAccept off b source).fb Fld.DTM_MODE.STEP_PEND 0 = true := by
  unfold State.stepAccept
  refine ⟨by simp [effectDelay], ?_⟩
  rw [State.fb_setB_other _ _ _ _ _ _ (by decide) (by decide) (by decide) (.inl (by decide)),
    State.fb_setB_same _ _ _ _ (by decide) (by decide)]

/-! ### The writer role -/

theorem State.takeWriter_free {s : State} (th : Nat) (h : s.dtm.writer = none) :
    s.takeWriter th = (({ s with dtm := { s.dtm with writer := some th } }).setB Fld.DTM_MODE.ENS_ACTIVE true, .ok) := by
  simp only [State.takeWriter, h]

theorem State.takeWriter_held {s : State} (th : Nat) {w : Nat} (h : s.dtm.writer = some w) :
    s.takeWriter th = (s, if w = th then .ok else .busy) := by simp only [State.takeWriter, h]

/-! ### The steering word of an oscillator -/

/-- A steering word in its form: the interface, the bit count and the code (R129). -/
structure SteerForm (v : BitVec 64) (i bits : Nat) (code : BitVec 32) : Prop where
  iface    : (v.extractLsb' 40 1).toNat = i
  count    : (v.extractLsb' 32 8).toNat = bits
  code     : BitVec.ofNat 32 (v.toNat % 2 ^ bits) = code
  low      : 8 ≤ bits
  high     : bits ≤ 32
  reserved : v.extractLsb' 41 23 = 0

theorem State.steer_notOwned {s : State} {th i bits : Nat} {v : BitVec 64} {code : BitVec 32} (insn : BitVec 32)
    (h : SteerForm v i bits code) (ho : s.owns (.thread th) (76 + i) = false) :
    s.steer th v insn = (s.violation th 0x0C 0x0E insn, .damper, 0x0E) := by
  obtain ⟨rfl, rfl, -, low, high, res⟩ := h
  unfold State.steer
  simp only [res, ne_eq, not_true_eq_false, or_false, if_neg (by omega : ¬ ((v.extractLsb' 32 8).toNat < 8 ∨ 32 < (v.extractLsb' 32 8).toNat)),
    ho, Bool.not_false, if_true]

theorem State.steer_refused {s : State} {th i bits reason : Nat} {v : BitVec 64} {code : BitVec 32} (insn : BitVec 32)
    (h : SteerForm v i bits code) (ho : s.owns (.thread th) (76 + i) = true) (hr : s.oscRefusal i code = some reason) :
    s.steer th v insn = (s.violation th reason 0x0E insn, .damper, 0x0E) := by
  obtain ⟨rfl, rfl, rfl, low, high, res⟩ := h
  unfold State.steer
  simp only [res, ne_eq, not_true_eq_false, or_false, if_neg (by omega : ¬ ((v.extractLsb' 32 8).toNat < 8 ∨ 32 < (v.extractLsb' 32 8).toNat)),
    ho, Bool.not_true, Bool.false_eq_true, if_false, Nat.min_eq_right high, hr]

/-- A steering word that is taken waits for its slot, and is the interface's last. -/
def State.steered (s : State) (i bits : Nat) (code : BitVec 32) : State :=
  { s with
    ens := { s.ens with osc := SMap.insert id s.ens.osc i ⟨code, bits, oscSlot s.now⟩ }
    flt := { s.flt with oscLast := SMap.insert id s.flt.oscLast i s.now } }

theorem State.steer_taken {s : State} {th i bits : Nat} {v : BitVec 64} {code : BitVec 32} (insn : BitVec 32)
    (h : SteerForm v i bits code) (ho : s.owns (.thread th) (76 + i) = true) (hr : s.oscRefusal i code = none) :
    s.steer th v insn = (s.steered i bits code, .ok, 0) := by
  obtain ⟨rfl, rfl, rfl, low, high, res⟩ := h
  unfold State.steer
  simp only [res, ne_eq, not_true_eq_false, or_false, if_neg (by omega : ¬ ((v.extractLsb' 32 8).toNat < 8 ∨ 32 < (v.extractLsb' 32 8).toNat)),
    ho, Bool.not_true, Bool.false_eq_true, if_false, Nat.min_eq_right high, hr, State.steered]

/-- A steering word that is taken reaches the ensemble's and the Damper's state alone. -/
theorem State.steered_keeps (s : State) (i bits : Nat) (code : BitVec 32) : Keeps (maskOf [.ens, .flt]) s (s.steered i bits code) := by
  refine ⟨rfl, id, id, id, Fuses.Le.refl _, fun p hp => ?_⟩
  cases p with
  | ens => exact absurd hp (by decide)
  | flt => exact absurd hp (by decide)
  | regs g => exact fun _ _ _ => rfl
  | _ => rfl

end Sys2Proof.Machine
end

section
/-!
The Damper-checked instructions, settled: every decision reads what issuing the instruction leaves as it was.
-/
namespace Sys2Proof.Machine

theorem State.takeWriter_takes {s : State} (th : Nat) (h : s.dtm.writer = none) :
    Keeps (maskOf [.dtm, .regs .datum]) s (s.takeWriter th).1 ∧ (s.takeWriter th).1.dtm.writer = some th ∧
      (s.takeWriter th).1.fb Fld.DTM_MODE.ENS_ACTIVE 0 = true := by
  refine ⟨State.takeWriter_keeps (Keeps.refl _ s) (by decide) th, ?_, ?_⟩
  · rw [State.takeWriter_free th h, State.setB_dtm]
  · rw [State.takeWriter_free th h]
    exact State.fb_setB_same _ _ _ _ (by decide) (by decide)

/-- The mark of a refused write in the Datum block. -/
theorem State.reason_keeps (s : State) : Keeps (maskOf [.regs .datum]) s (s.setF Fld.DTM_WSTAT.REASON 9) :=
  State.setF_keeps (Keeps.refl _ s) (Nat.zero_and _) (by decide) 9 0

/-- Settles O26: each instruction from the decision of its own operation, a violation from what every violation leaves. -/
theorem damperCheckedResults : Obligations.DamperCheckedResults := by
  unfold Obligations.DamperCheckedResults
  intro s th g tx v x u ans hd
  have hd' : (s.setThread th.val (s.past th.val)).d2dUp = true := hd
  have hv : (s.setThread th.val (s.past th.val)).gr th.val g.val = v := gr_past _ _ _
  have hx : (s.setThread th.val (s.past th.val)).tr th.val tx.val = x := tr_past _ _ _
  refine ⟨fun h => ⟨fun hi => ?_, fun hi => ?_, fun hi => ?_, fun hi => ?_, fun ho hf hh => ?_, fun hf ho => ?_, fun ho hf hown => ?_,
    fun ho hf hown => ?_⟩, fun h => ⟨fun hw => ?_, fun hw => ?_, fun w hw hne => ?_⟩, fun h => ?_, fun h => ?_⟩
  · obtain ⟨hpend, hwrote⟩ := (s.setThread th.val (s.past th.val)).incAccept_waits th.val v
    have hk := State.incAccept_keeps (Keeps.refl (maskOf [.dtm, .trv, .regs .datum]) (s.setThread th.val (s.past th.val))) (by decide)
      (.thread th.val) v
    refine completes_answer rfl h ?_ (hk.mono (by decide)) (by decide) fun t ht =>
      ⟨(congrArg DtmState.incPending (ht.same .dtm (by decide))).trans hpend,
        (congrArg TrvState.wrote (ht.same .trv (by decide))).trans hwrote, (ht.same .datum (by decide)).trans (hk.same .datum (by decide))⟩
    simp only [hd', hv, State.incProgram_accepted, State.incDecide_setThread, hi]
    rfl
  · refine completes_violation rfl h ?_ (State.reason_keeps _) fun t ht => ht.same .dtm (by decide)
    simp only [hd', hv, State.incProgram_range, State.incDecide_setThread, hi]
    rfl
  · refine completes_violation rfl h ?_ (State.reason_keeps _) fun t ht => ht.same .dtm (by decide)
    simp only [hd', hv, State.incProgram_slew, State.incDecide_setThread, hi]
    rfl
  · have hk := State.setB_keeps (f := Fld.DTM_WSTAT.INC_LOST) (Keeps.refl (maskOf [.regs .datum]) (s.setThread th.val (s.past th.val)))
      (Nat.zero_and _) (by decide) true 0
    refine completes_answer rfl h ?_ (hk.mono (by decide)) (by decide) fun t ht =>
      (ht.fb (by decide) 0).trans (State.fb_setB_same _ _ _ _ (by decide) (by decide))
    simp only [hd', hv, State.incProgram_lost, State.incDecide_setThread, hi]
    rfl
  · refine completes_answer rfl h ?_ ((State.wr_own_keeps _ v.toNat (ownWord (.thread th.val))).mono (by decide)) (by decide) fun t ht =>
      ⟨(State.owns_ownWord (ownFits_thread th) ((ht.rg (by decide) _).trans (State.rg_wr_same _ _ _ _))).1,
        fun i hi => (ht.rg (by decide) i).trans (State.rg_wr_own_other _ _ _ i hi)⟩
    simp only [hd', hv, State.claim_free _ ho hf, State.fb_setThread, hh]
    rfl
  · refine completes_status rfl h ?_
    simp only [hd', hv, State.claim_fixed _ ho hf]
    rfl
  · refine completes_answer rfl h ?_ ((State.wr_own_keeps _ v.toNat 0).mono (by decide)) (by decide) fun t ht =>
      ⟨(ht.rg (by decide) _).trans (State.rg_wr_same _ _ _ _), fun i hi => (ht.rg (by decide) i).trans (State.rg_wr_own_other _ _ _ i hi)⟩
    simp only [hd', hv, State.release_own ho hf ((State.owns_setThread _ _ _ _ _).trans hown)]
    rfl
  · refine completes_status rfl h ?_
    simp only [hd', hv, State.release_other ho hf ((State.owns_setThread _ _ _ _ _).trans hown)]
    rfl
  · obtain ⟨hk, hwriter, hens⟩ := State.takeWriter_takes (s := s.setThread th.val (s.past th.val)) th.val hw
    refine completes_answer rfl h ?_ (hk.mono (by decide)) (by decide) fun t ht =>
      ⟨(congrArg DtmState.writer (ht.same .dtm (by decide))).trans hwriter, (ht.fb (by decide) 0).trans hens⟩
    simp only [hd', State.takeWriter_free, State.setThread_dtm, hw]
    rfl
  · refine completes_status rfl h ?_
    simp only [hd', State.takeWriter_held th.val ((congrArg DtmState.writer (State.setThread_dtm _ _ _)).trans hw)]
    rfl
  · refine completes_status rfl h ?_
    simp only [hd', State.takeWriter_held th.val ((congrArg DtmState.writer (State.setThread_dtm _ _ _)).trans hw), if_neg hne]
    rfl
  · refine ⟨fun r b hs hr => ?_, fun r b st hs hr => ?_⟩
    · obtain ⟨hstep, hpend⟩ := (s.setThread th.val (s.past th.val)).stepAccept_waits (stepOffset x.sec x.ns x.frac) (s.refBound r)
        (v.toNat % 256)
      have hk := State.stepAccept_keeps (Keeps.refl (maskOf [.dtm, .regs .datum]) (s.setThread th.val (s.past th.val))) (by decide)
        (stepOffset x.sec x.ns x.frac) (s.refBound r) (v.toNat % 256)
      refine completes_answer rfl h ?_ (hk.mono (by decide)) (by decide) fun t ht =>
        ⟨(congrArg DtmState.step (ht.same .dtm (by decide))).trans hstep, (ht.fb (by decide) 0).trans hpend,
          (ht.same .datum (by decide)).trans (hk.same .datum (by decide))⟩
      simp only [hd', hv, hx, State.stepProgram_accepted _ _ hs ((State.stepRefusal_setThread _ _ _ _ _ _).trans hr)]
      rfl
    · refine completes_violation rfl h ?_ (State.reason_keeps _) fun t ht => ht.same .dtm (by decide)
      simp only [hd', hv, hx, State.stepProgram_refused _ _ hs ((State.stepRefusal_setThread _ _ _ _ _ _).trans hr)]
      rfl
  · intro i bits code low high res
    have form : SteerForm v i bits code := ⟨rfl, rfl, rfl, low, high, res⟩
    refine ⟨fun ho hr => ?_, fun reason ho hr => ?_, fun ho => ?_⟩
    · have hk := (s.setThread th.val (s.past th.val)).steered_keeps i bits code
      refine completes_answer rfl h ?_ (hk.mono (by decide)) (by decide) fun t ht =>
        ⟨(congrArg (fun e : EnsState => SMap.find e.osc i) (ht.same .ens (by decide))).trans (SMap.find_insert_same _ _ _ _),
          (congrArg (fun e : FltState => SMap.find e.oscLast i) (ht.same .flt (by decide))).trans (SMap.find_insert_same _ _ _ _)⟩
      simp only [hd', hv, State.steer_taken _ form ((State.owns_setThread _ _ _ _ _).trans ho)
        ((State.oscRefusal_setThread _ _ _ _ _).trans hr)]
      rfl
    · refine completes_violation rfl h ?_ (Keeps.refl _ _) fun t ht => ht.same .ens (by decide)
      simp only [hd', hv, State.steer_refused _ form ((State.owns_setThread _ _ _ _ _).trans ho)
        ((State.oscRefusal_setThread _ _ _ _ _).trans hr)]
      rfl
    · refine completes_violation rfl h ?_ (Keeps.refl _ _) fun t ht => ht.same .ens (by decide)
      simp only [hd', hv, State.steer_notOwned _ form ((State.owns_setThread _ _ _ _ _).trans ho)]
      rfl

end Sys2Proof.Machine
end

section
/-!
Commands of the host's queues (R324 to R326): a command that its queue can start is fetched, acts, and completes; what its completion says,
and what the fetch and the completion leave alone.
-/
namespace Sys2Proof.Machine

/-- A status line of the interrupt sources shows in IRQ_SRC_STAT alone. -/
theorem State.irqLine_keeps_stat (s : State) (n : Nat) (b : Bool) : Keeps (maskOf [.irq, .regs .irqStat]) s (s.irqLine n b) :=
  State.irqLine_keeps (Keeps.refl _ s) (by decide) n b

/-- The completion that a command writes (R324). -/
def State.completion (s : State) (q : Nat) (cid : BitVec 32) (st : Status) (result : Nat) : Completion :=
  ⟨BitVec.ofNat 64 result, cid, BitVec.ofNat 16 (s.fd Fld.HST_Q_SQ_HEAD.SQ_HEAD q), st, s.fb Fld.HST_Q_CQ_TAIL.PHASE q⟩

/-- The ring with a completion in its next place. -/
def State.ringed (s : State) (q : Nat) (c : Completion) : State :=
  { s with hst := { s.hst with cq := SMap.set id (fun _ => Completion.none) s.hst.cq (q * 64 + s.fd Fld.HST_Q_CQ_TAIL.CQ_TAIL q % 64) c } }

/-- The place after the completion, with PHASE inverted where the ring wraps. -/
def State.tailMoved (s : State) (q : Nat) : State :=
  let s2 := s.setF Fld.HST_Q_CQ_TAIL.CQ_TAIL (s.fd Fld.HST_Q_CQ_TAIL.CQ_TAIL q + 1) q
  if (s.fd Fld.HST_Q_CQ_TAIL.CQ_TAIL q + 1) % 64 = 0 then s2.setB Fld.HST_Q_CQ_TAIL.PHASE (!s.fb Fld.HST_Q_CQ_TAIL.PHASE q) q else s2

theorem State.tailMoved_hst (s : State) (q : Nat) : (s.tailMoved q).hst = s.hst := by
  unfold State.tailMoved
  simp only
  split
  · rw [State.setB_hst, State.setF_hst]
  · rw [State.setF_hst]

theorem State.tailMoved_tail (s : State) (q : Nat) :
    (s.tailMoved q).fd Fld.HST_Q_CQ_TAIL.CQ_TAIL q = (s.fd Fld.HST_Q_CQ_TAIL.CQ_TAIL q + 1) % 65536 := by
  have h := State.fd_setF_same s Fld.HST_Q_CQ_TAIL.CQ_TAIL (s.fd Fld.HST_Q_CQ_TAIL.CQ_TAIL q + 1) q (by decide) (by decide)
  unfold State.tailMoved
  simp only
  split
  · exact (State.fd_setF_other _ Fld.HST_Q_CQ_TAIL.PHASE Fld.HST_Q_CQ_TAIL.CQ_TAIL _ q q (by decide) (by decide) (by decide)
      (.inr (.inl (by decide)))).trans h
  · exact h

/-- Of the host's registers, a completion changes HST_Qq_CQ_TAIL alone. -/
theorem State.rg_tailMoved (s : State) (q : Nat) {r : Reg} (i : Nat) (h : r ≠ .HST_Q_CQ_TAIL ∨ i ≠ q) :
    (s.tailMoved q).rg r i = s.rg r i := by
  have hset : ∀ (u : State) (f : Fld) (n : Nat), f.reg = .HST_Q_CQ_TAIL → (u.setF f n q).rg r i = u.rg r i := fun u f n hf =>
    State.rg_wr_other _ _ _ _ _ _ (by rw [hf]; exact h.imp Ne.symm Ne.symm)
  unfold State.tailMoved
  simp only
  split
  · exact (hset _ _ _ rfl).trans (hset _ _ _ rfl)
  · exact hset _ _ _ rfl

/-- What a completion reports. -/
theorem State.complete_reports (s : State) (q : Nat) (cid : BitVec 32) (st : Status) (result : Nat) :
    Reports s (s.complete q cid st result) q cid st result := by
  have hl := ((s.ringed q (s.completion q cid st result)).tailMoved q).irqLine_keeps_stat q
    (decide (((s.ringed q (s.completion q cid st result)).tailMoved q).fd Fld.HST_Q_CQ_TAIL.CQ_TAIL q ≠
      ((s.ringed q (s.completion q cid st result)).tailMoved q).fd Fld.HST_Q_CQ_HEAD.CQ_HEAD q))
  refine ⟨?_, s.completion q cid st result, ?_, rfl, rfl, rfl, rfl⟩
  · exact (hl.fd (f := Fld.HST_Q_CQ_TAIL.CQ_TAIL) (by decide) q).trans (State.tailMoved_tail _ q)
  · have hh : (s.complete q cid st result).hst = (s.ringed q (s.completion q cid st result)).hst :=
      (hl.same .hst (by decide)).trans (State.tailMoved_hst _ q)
    rw [hh]
    exact SMap.get_set_same _ _ _ _ _

theorem State.complete_parts (s : State) (q : Nat) (cid : BitVec 32) (st : Status) (result : Nat) :
    Keeps (maskOf completing) s (s.complete q cid st result) :=
  State.complete_keeps (Keeps.refl _ s) (by decide) q cid st result

/-- Of the host's registers, a completion changes HST_Qq_CQ_TAIL alone. -/
theorem State.rg_complete (s : State) (q : Nat) (cid : BitVec 32) (st : Status) (result : Nat) {r : Reg} (i : Nat)
    (h : r ≠ .HST_Q_CQ_TAIL ∨ i ≠ q) (hr : r ≠ .IRQ_SRC_STAT) : (s.complete q cid st result).rg r i = s.rg r i := by
  refine Eq.trans ?_ (State.rg_tailMoved (s.ringed q (s.completion q cid st result)) q i h)
  refine (State.irqLine_keeps_stat _ q _).rg ?_ i
  revert hr
  cases r <;> decide

/-- A fetch shows in HST_Qq_SQ_HEAD alone. -/
theorem State.fetchCmd_parts (s : State) (q : Nat) : Keeps (maskOf [.regs .host]) s (s.fetchCmd q) :=
  State.fetchCmd_keeps (Keeps.refl _ s) (by decide) q

theorem State.fetchCmd_head (s : State) (q : Nat) :
    (s.fetchCmd q).fd Fld.HST_Q_SQ_HEAD.SQ_HEAD q = (s.fd Fld.HST_Q_SQ_HEAD.SQ_HEAD q + 1) % 65536 :=
  State.fd_setF_same s Fld.HST_Q_SQ_HEAD.SQ_HEAD _ q (by decide) (by decide)

theorem State.rg_fetchCmd (s : State) (q : Nat) {r : Reg} (i : Nat) (h : r ≠ .HST_Q_SQ_HEAD) : (s.fetchCmd q).rg r i = s.rg r i :=
  State.rg_setF_other _ _ _ _ _ h.symm

/-- A command that its queue can start completes, from what its effect gives on the state with its entry fetched: an effect that may reach
the host's block, but not the queue's own head and tail. -/
theorem answers_of {c : Instr} {s u : State} {q n : Nat} {cid : BitVec 32} {st : Status} {l : List Part} {P : State → Prop}
    {body : State → State × Status × Nat} (hc : exec c s = .next (s.command q cid body)) (hs : s.canStart q = true)
    (hb : body (s.fetchCmd q) = (u, st, n)) (ho : Only (completing ++ l) (s.fetchCmd q) u)
    (htail : u.rg .HST_Q_CQ_TAIL q = (s.fetchCmd q).rg .HST_Q_CQ_TAIL q) (hhead : u.rg .HST_Q_SQ_HEAD q = (s.fetchCmd q).rg .HST_Q_SQ_HEAD q)
    (hP : Only completing u (u.complete q cid st n) → P (u.complete q cid st n)) : Answers c s q cid st n l P := by
  have hd := (u.complete_parts q cid st n).onlyOf
  have htail : u.rg .HST_Q_CQ_TAIL q = s.rg .HST_Q_CQ_TAIL q := htail.trans (s.rg_fetchCmd q q (by decide))
  have ht : u.fd Fld.HST_Q_CQ_TAIL.CQ_TAIL q = s.fd Fld.HST_Q_CQ_TAIL.CQ_TAIL q := State.fd_congr htail
  have hph : u.fb Fld.HST_Q_CQ_TAIL.PHASE q = s.fb Fld.HST_Q_CQ_TAIL.PHASE q := State.fb_congr htail
  have he : s.command q cid body = u.complete q cid st n := by
    unfold State.command
    rw [if_pos hs, hb]
  rw [he] at hc
  refine ⟨_, hc, ?_, ?_, hP hd, (((s.fetchCmd_parts q).onlyOf.trans ho).trans hd).mono fun p hp => ?_⟩
  · refine Eq.trans ?_ (s.fetchCmd_head q)
    exact State.fd_congr ((State.rg_complete _ _ _ _ _ q (.inl (by decide)) (by decide)).trans hhead)
  · have hr := u.complete_reports q cid st n
    unfold Reports at hr ⊢
    rwa [ht, hph] at hr
  · simp only [List.mem_append, List.mem_singleton] at hp ⊢
    rcases hp with (rfl | hp | hp) | hp
    · exact .inl (by decide)
    · exact .inl hp
    · exact .inr hp
    · exact .inl hp

/-- The same of an effect that stays out of the host's registers. -/
theorem answers {c : Instr} {s u : State} {q n : Nat} {cid : BitVec 32} {st : Status} {l : List Part} {P : State → Prop}
    {body : State → State × Status × Nat} (hc : exec c s = .next (s.command q cid body)) (hs : s.canStart q = true)
    (hb : body (s.fetchCmd q) = (u, st, n)) (hu : Keeps (maskOf l) (s.fetchCmd q) u) (hl : Part.regs .host ∉ l)
    (hP : Only completing u (u.complete q cid st n) → P (u.complete q cid st n)) : Answers c s q cid st n l P :=
  answers_of hc hs hb (hu.onlyOf.mono fun _ hp => List.mem_append_right _ hp) (hu.onlyOf.rg (r := .HST_Q_CQ_TAIL) hl q)
    (hu.onlyOf.rg (r := .HST_Q_SQ_HEAD) hl q) hP

/-- A command that changes nothing but its queue. -/
theorem answers_nothing {c : Instr} {s : State} {q n : Nat} {cid : BitVec 32} {st : Status} {body : State → State × Status × Nat}
    (hc : exec c s = .next (s.command q cid body)) (hs : s.canStart q = true) (hb : body (s.fetchCmd q) = (s.fetchCmd q, st, n)) :
    Answers c s q cid st n [] (fun _ => True) := answers hc hs hb (Keeps.refl _ _) List.not_mem_nil fun _ => trivial

/-- A command that can start finds the core die up. -/
theorem State.coreUp_of_canStart {s : State} {q : Nat} (h : s.canStart q = true) : s.coreUp = true := by
  simp only [State.canStart, Bool.and_eq_true] at h
  obtain ⟨⟨⟨⟨hc, -⟩, -⟩, -⟩, -⟩ := h
  exact hc

/-- A fetched command reads the registers, but its queue's head, as they were. -/
theorem State.fd_fetchCmd (s : State) (q : Nat) (f : Fld) (i : Nat) (h : f.reg ≠ .HST_Q_SQ_HEAD) :
    (s.fetchCmd q).fd f i = s.fd f i := State.fd_congr (s.rg_fetchCmd q i h)

theorem State.fb_fetchCmd (s : State) (q : Nat) (f : Fld) (i : Nat) (h : f.reg ≠ .HST_Q_SQ_HEAD) :
    (s.fetchCmd q).fb f i = s.fb f i := State.fb_congr (s.rg_fetchCmd q i h)

theorem State.owns_fetchCmd (s : State) (q : Nat) (p : Party) (i : Nat) : (s.fetchCmd q).owns p i = s.owns p i := by
  unfold State.owns
  rw [s.fb_fetchCmd q Fld.TOP_OWN.HELD i (by decide), s.fb_fetchCmd q Fld.TOP_OWN.ORPHAN i (by decide),
    s.fd_fetchCmd q Fld.TOP_OWN.KIND i (by decide), s.fd_fetchCmd q Fld.TOP_OWN.OWNER i (by decide)]

end Sys2Proof.Machine
end

section
/-!
A thread that is READY stays so through everything but its own cleanup: what a notice, a failed launch and a port that goes down leave of the
threads (R81, R83).
-/
namespace Sys2Proof.Machine

/-- Every thread that is READY in the one state is so in the other. -/
def ReadyStays (s t : State) : Prop := ∀ h, (s.thread h).st = .ready → (t.thread h).st = .ready

theorem ReadyStays.refl (s : State) : ReadyStays s s := fun _ => id

theorem ReadyStays.trans {a b c : State} (h : ReadyStays a b) (g : ReadyStays b c) : ReadyStays a c := fun x hx => g x (h x hx)

theorem ReadyStays.foldl {α : Type} {f : State → α → State} (hf : ∀ s x, ReadyStays s (f s x)) (l : List α) :
    ∀ s, ReadyStays s (l.foldl f s) := by
  induction l with
  | nil => exact ReadyStays.refl
  | cons x r ih => exact fun s => (hf s x).trans (ih (f s x))

/-- The record of a thread, where the threads are the same. -/
theorem thread_congr {s t : State} (h : t.threads = s.threads) (x : Nat) : t.thread x = s.thread x :=
  congrArg (fun m => SMap.get (fun _ => Thread.reset) m x) h

theorem Keeps.thread {m : Nat} {s t : State} (h : Keeps m s t) (hm : m.testBit (Part.threads).num = false) (x : Nat) :
    t.thread x = s.thread x := thread_congr (h.same .threads hm) x

theorem Keeps.readyStays {m : Nat} {s t : State} (h : Keeps m s t) (hm : m.testBit (Part.threads).num = false) : ReadyStays s t :=
  fun x hx => by rwa [h.thread hm]

/-- One thread's record replaced by one that is READY where the old one was. -/
theorem State.setThread_readyStays (s : State) (n : Nat) (t : Thread) (h : (s.thread n).st = .ready → t.st = .ready) :
    ReadyStays s (s.setThread n t) := fun x hx => by
  by_cases hn : x = n
  · subst hn
    rw [State.thread_setThread_same]
    exact h hx
  · rwa [State.thread_setThread_other _ _ _ _ hn]

/-- The record of a thread whose EWAIT returns a notice. -/
def Thread.returned (t : Thread) (w : WaitRec) (n : Notice) : Thread :=
  { (t.setG w.gd n.word).setT w.td n.instant with st := .ready, wait := none }

/-- The state with a notice claimed and the wait's own expiry withdrawn. -/
def State.unwaited (s : State) (th : Nat) (w : WaitRec) (n : Notice) : State :=
  (s.claimNotice n).1.withdrawTimeout th w.timeout (s.claimNotice n).2

theorem State.returnNotice_eq (s : State) (th : Nat) (w : WaitRec) (n : Notice) : s.returnNotice th w n =
    ((s.unwaited th w n).setThread th (((s.unwaited th w n).thread th).returned w (s.claimNotice n).2)).noticeEvent th := rfl

theorem State.claimNotice_only (s : State) (n : Notice) : Keeps (maskOf [.irq, .regs .irqStat]) s (s.claimNotice n).1 :=
  State.claimNotice_keeps (Keeps.refl _ s) (by decide) n

theorem State.noticeEvent_only (s : State) (th : Nat) : Keeps (maskOf counting) s (s.noticeEvent th) :=
  State.noticeEvent_keeps (Keeps.refl _ s) (by decide) th

/-- EWAIT's return makes its thread READY, and touches no other. -/
theorem State.returnNotice_readyStays (s : State) (th : Nat) (w : WaitRec) (n : Notice) : ReadyStays s (s.returnNotice th w n) := by
  rw [State.returnNotice_eq]
  have h2 := State.withdrawTimeout_keeps (Keeps.refl (maskOf [.timeline, .regs .datum]) (s.claimNotice n).1) (by decide) th w.timeout
    (s.claimNotice n).2
  refine ((((s.claimNotice_only n).readyStays (by decide)).trans (h2.readyStays (by decide))).trans
    (State.setThread_readyStays (s.unwaited th w n) th (((s.unwaited th w n).thread th).returned w (s.claimNotice n).2) fun _ => rfl)).trans ?_
  exact (State.noticeEvent_only _ th).readyStays (by decide)

theorem State.deliver_readyStays (s : State) (th : Nat) (n : Notice) : ReadyStays s (s.deliver th n) := by
  unfold State.deliver
  dsimp only
  split
  · exact s.returnNotice_readyStays th _ n
  · exact s.setThread_readyStays _ _ id

theorem State.notify_readyStays (s : State) (th : Nat) (n : Notice) : ReadyStays s (s.notify th n) := by
  unfold State.notify
  split
  · exact s.deliver_readyStays th n
  · exact s.deliver_readyStays th n
  · exact s.deliver_readyStays th n
  · exact ReadyStays.refl s

theorem State.unreserve_readyStays (s : State) (th : Nat) : ReadyStays s (s.unreserve th) := s.setThread_readyStays _ _ id

theorem State.failLaunch_readyStays (s : State) (l : Launch) (st : Status) : ReadyStays s (s.failLaunch l st) := by
  unfold State.failLaunch
  extract_lets s1 s2
  have h1 : ReadyStays s s1 := (State.dropLaunch_keeps (Keeps.refl (maskOf [.timeline, .launches, .regs .datum]) s) (by decide) l).readyStays
    (by decide)
  have h2 : ReadyStays s1 s2 := by
    dsimp only [s2]
    split
    · exact (State.setFrame_keeps (Keeps.refl 0x400 s1) (by decide) _ _).readyStays (by decide)
    · exact ReadyStays.refl s1
  exact (h1.trans h2).trans (s2.notify_readyStays _ _)

theorem State.returnLaunch_readyStays (s : State) (l : Launch) (st : Status) : ReadyStays s (s.returnLaunch l st) := by
  unfold State.returnLaunch
  extract_lets s1
  have h1 : ReadyStays s s1 := by
    dsimp only [s1]
    split
    · exact (State.setFrame_keeps (Keeps.refl 0x400 s) (by decide) _ _).readyStays (by decide)
    · exact ReadyStays.refl s
  exact h1.trans (s1.notify_readyStays _ _)

theorem State.txDrop_readyStays (s : State) (n frame : Nat) (notify : Option Nat) : ReadyStays s (s.txDrop n frame notify) := by
  unfold State.txDrop
  extract_lets s1
  have h1 : ReadyStays s s1 := (State.sentFrame_keeps (State.bump_keeps (r := .PRT_TX_LINKDROP)
    (Keeps.refl (maskOf [.frames, .prt, .regs .port]) s) (Nat.zero_and _) (by decide) n) (by decide) frame n none).readyStays (by decide)
  cases notify with
  | none => exact h1
  | some th => exact (h1.trans (s1.unreserve_readyStays th)).trans (State.notify_readyStays _ _ _)

/-- The parts of a port's own state and registers, with the counters of its cluster. -/
def portParts : List Part := [.launches, .prt, .pmc, .freeCtr, .irq, .regs .port, .regs .pmc, .regs .irqStat]

theorem State.portDown_readyStays (s : State) (n : Nat) (cut : Bool) : ReadyStays s (s.portDown n cut) := by
  unfold State.portDown
  extract_lets was p s1 s2 s3 s4 s5
  have h1 : Keeps (maskOf portParts) s s1 := by
    dsimp only [s1]
    exact keeps_ite (State.prtEvent_keeps (State.setB_keeps (f := Fld.PRT_STAT.LINK) (Keeps.refl _ s) (Nat.zero_and _) (by decide) false n)
      (by decide) n) (Keeps.refl _ s)
  have h2 : ReadyStays s s2 := fun x hx => (h1.readyStays (by decide)) x hx
  have h3 : ReadyStays s2 s3 := (State.setPort_keeps (Keeps.refl (maskOf portParts) s2) (by decide) n _).readyStays (by decide)
  have h4 : ReadyStays s3 s4 := ReadyStays.foldl (fun u i => u.txDrop_readyStays _ _ _) p.q s3
  have h5 : ReadyStays s4 s5 := by
    dsimp only [s5]
    split
    · refine ReadyStays.foldl (fun u x => ?_) p.tx s4
      split
      · exact u.returnLaunch_readyStays _ _
      · exact u.txDrop_readyStays _ _ _
    · exact ReadyStays.refl s4
  have h6 := State.showAuto_keeps (State.wr_keeps (State.wr_keeps (Keeps.refl (maskOf portParts) s5) .PRT_LPHASE (by decide) n 0xFFFFFFFF#32)
    .PRT_RXPPM (by decide) n 0x80000000#32) (by decide) n
  exact (((h2.trans h3).trans h4).trans h5).trans (h6.readyStays (by decide))

theorem State.portIdle_readyStays (s : State) (n : Nat) : ReadyStays s (s.portIdle n) := by
  unfold State.portIdle
  extract_lets s1
  have h1 : ReadyStays s s1 := s.portDown_readyStays n true
  split
  · exact h1.trans ((State.setCal_keeps (Keeps.refl (maskOf [.regs .irqStat, .regs .port]) s1) (by decide) n 0).readyStays (by decide))
  · exact h1

theorem State.withdrawCluster_readyStays (s : State) (c : Nat) : ReadyStays s (s.withdrawCluster c) := by
  unfold State.withdrawCluster
  extract_lets s1
  have h1 : ReadyStays s s1 := (State.withdrawEvents_keeps (Keeps.refl (maskOf [.timeline, .regs .datum]) s) (by decide) _).readyStays (by decide)
  refine h1.trans (ReadyStays.foldl (fun u e => ?_) _ s1)
  split
  · exact u.failLaunch_readyStays _ _
  · exact ReadyStays.refl u

end Sys2Proof.Machine
end

section
/-!
The cleanup of a thread (R87), and what isolating a cluster makes of its threads (R22).
-/
namespace Sys2Proof.Machine

/-- The record that a cleanup leaves of its thread. -/
def Thread.cleaned (t : Thread) (final : ThreadSt) : Thread :=
  { t with st := final, notices := [], reserved := 0, wait := none, poison := [] }

/-- The parts of a cleanup beside the thread's own record. -/
def cleaning : List Part := [.timeline, .frames, .launches, .jobs, .derived, .irq, .dtm, .regs .own, .regs .irqStat, .regs .datum]

/-- A cleanup's jobs and derived keys: those of the thread go. -/
def State.cutSecrets (s : State) (th : Nat) : State :=
  { s with
    jobs := s.jobs.map (fun e => (e.1, cutJobs th e.2))
    derived := s.derived.filter (fun e => decide (e.2.thread ≠ th)) }

/-- A cleanup's launches: those of the thread go with their frames. -/
def State.cutLaunches (s : State) (th : Nat) : State :=
  s.launches.foldl (fun s e => if e.2.thread = th then (s.dropLaunch e.2).freeFrame e.2.frame else s) s

/-- A cleanup's frames: those that the thread holds go. -/
def State.cutFrames (s : State) (th : Nat) : State := { s with frames := s.frames.filter (fun e => decide (e.2.holder ≠ some th)) }

/-- A cleanup's ownership: the thread's entries are orphaned, and it leaves the increment. -/
def State.cutOwned (s : State) (th : Nat) : State :=
  if (s.orphan (.thread th)).dtm.writer = some th then (s.orphan (.thread th)).endWriter else s.orphan (.thread th)

theorem State.cleanupThread_eq (s : State) (th : Nat) (final : ThreadSt) : s.cleanupThread th final =
    (((((((s.repend (s.thread th).notices).setThread th ((s.thread th).cleaned final)).cutSecrets th).withdrawEvents
      (fun tg => decide (tg = .thread th))).cutLaunches th).cutFrames th).cutOwned th) := by
  unfold State.cleanupThread State.cutSecrets State.cutLaunches State.cutFrames State.cutOwned Thread.cleaned
  rfl

theorem State.repend_threads (s : State) (l : List Notice) : (s.repend l).threads = s.threads :=
  (State.repend_keeps (Keeps.refl (maskOf [.irq, .regs .irqStat]) s) (by decide) l).same .threads (by decide)

theorem State.cutSecrets_threads (s : State) (th : Nat) : (s.cutSecrets th).threads = s.threads := rfl

theorem State.withdrawEvents_threads (s : State) (p : EvTarget → Bool) : (s.withdrawEvents p).threads = s.threads :=
  (State.withdrawEvents_keeps (Keeps.refl (maskOf [.timeline, .regs .datum]) s) (by decide) p).same .threads (by decide)

theorem State.cutLaunches_threads (s : State) (th : Nat) : (s.cutLaunches th).threads = s.threads := by
  unfold State.cutLaunches
  refine (keeps_foldl (Keeps.refl (maskOf [.timeline, .frames, .launches, .regs .datum]) s) fun u e hu => ?_).same .threads (by decide)
  exact keeps_ite (State.freeFrame_keeps (State.dropLaunch_keeps hu (by decide) _) (by decide) _) hu

theorem State.cutFrames_threads (s : State) (th : Nat) : (s.cutFrames th).threads = s.threads := rfl

theorem State.cutOwned_threads (s : State) (th : Nat) : (s.cutOwned th).threads = s.threads := by
  have h := State.orphan_keeps (Keeps.refl (maskOf [.dtm, .regs .own, .regs .datum]) s) (by decide) (.thread th)
  unfold State.cutOwned
  exact (keeps_ite (State.endWriter_keeps h (by decide)) h).same .threads (by decide)

theorem State.setThread_threads (s : State) (n : Nat) (t : Thread) :
    (s.setThread n t).threads = SMap.set id (fun _ => Thread.reset) s.threads n t := rfl

/-- The threads after a cleanup: the one record replaced. -/
theorem State.cleanupThread_threads (s : State) (th : Nat) (final : ThreadSt) :
    (s.cleanupThread th final).threads = (s.setThread th ((s.thread th).cleaned final)).threads := by
  rw [State.cleanupThread_eq, State.cutOwned_threads, State.cutFrames_threads, State.cutLaunches_threads, State.withdrawEvents_threads,
    State.cutSecrets_threads, State.setThread_threads, State.repend_threads, State.setThread_threads]

theorem State.cleanupThread_self (s : State) (th : Nat) (final : ThreadSt) :
    (s.cleanupThread th final).thread th = (s.thread th).cleaned final :=
  (thread_congr (s.cleanupThread_threads th final) th).trans (State.thread_setThread_same _ _ _)

theorem State.cleanupThread_other (s : State) (th x : Nat) (final : ThreadSt) (h : x ≠ th) :
    (s.cleanupThread th final).thread x = s.thread x :=
  (thread_congr (s.cleanupThread_threads th final) x).trans (State.thread_setThread_other _ _ _ _ h)

/-- An abort touches no other thread. -/
theorem State.abortThread_other (s : State) (th x : Nat) (h : x ≠ th) : (s.abortThread th).thread x = s.thread x := by
  unfold State.abortThread
  split
  · rfl
  · rfl
  · rfl
  · rw [State.thread_wr]
    exact s.cleanupThread_other th x .aborted h

/-- A READY thread is ABORTED by an abort, and an ABORTED one stays so. -/
theorem State.abortThread_aborts (s : State) (th : Nat) (h : (s.thread th).st = .ready ∨ (s.thread th).st = .aborted) :
    ((s.abortThread th).thread th).st = .aborted := by
  rcases h with h | h
  · have hc : ((s.cleanupThread th .aborted).thread th).st = .aborted := congrArg Thread.st (s.cleanupThread_self th .aborted)
    unfold State.abortThread
    rw [h]
    generalize s.cleanupThread th .aborted = u at hc ⊢
    exact (congrArg Thread.st (State.thread_wr _ _ _ _ _)).trans hc
  · unfold State.abortThread
    rwa [h]

/-- A fold of aborts: a thread among those that are aborted ends ABORTED, once it is READY or ABORTED. -/
theorem foldl_abortThread {x : Nat} (f : Nat → Nat) (l : List Nat) : ∀ s : State,
    (s.thread x).st = .aborted ∨ ((∃ j ∈ l, f j = x) ∧ (s.thread x).st = .ready) →
      ((l.foldl (fun s j => s.abortThread (f j)) s).thread x).st = .aborted := by
  induction l with
  | nil =>
    rintro s (h | ⟨⟨j, hj, -⟩, -⟩)
    · exact h
    · exact absurd hj List.not_mem_nil
  | cons i r ih =>
    intro s h
    refine ih _ ?_
    by_cases hi : f i = x
    · refine .inl ?_
      subst hi
      exact s.abortThread_aborts _ (h.symm.imp (fun h => h.2) id)
    · rw [s.abortThread_other (f i) x (Ne.symm hi)]
      refine h.imp id fun ⟨⟨j, hj, hx⟩, hr⟩ => ⟨⟨j, ?_, hx⟩, hr⟩
      rcases List.mem_cons.1 hj with rfl | hj
      · exact absurd hx hi
      · exact hj

/-! ### Isolation and restoration -/

/-- The clusters isolated, with one more. -/
def State.isolateMark (s : State) (c : Nat) : State :=
  { s with pwr := { s.pwr with isolated := if s.pwr.isolated.contains c then s.pwr.isolated else s.pwr.isolated ++ [c] } }

/-- The parts that isolating a cluster reaches beside the mark itself. -/
def isolating : List Part := cleaning ++ notifying ++ [.prt, .regs .port, .regs .stoker]

theorem State.isolateMark_pwr (s : State) (c : Nat) : (s.isolateMark c).pwr =
    { s.pwr with isolated := if s.pwr.isolated.contains c then s.pwr.isolated else s.pwr.isolated ++ [c] } := rfl

theorem State.isolateMark_kept (s : State) (c : Nat) : (s.isolateMark c).mem = s.mem ∧ (s.isolateMark c).datum = s.datum := ⟨rfl, rfl⟩

theorem State.isolateMark_readyStays (s : State) (c : Nat) : ReadyStays s (s.isolateMark c) := fun _ h => h

/-- The ports of a cluster at electrical idle, its events withdrawn. -/
def State.isolateQuiet (s : State) (c : Nat) : State :=
  [0, 1, 2, 3].foldl (fun s j => s.portIdle (4 * c + j)) ((s.isolateMark c).withdrawCluster c)

theorem State.isolate_eq (s : State) (c : Nat) :
    s.isolate c = (List.range 32).foldl (fun s j => s.abortThread (32 * c + j)) (s.isolateQuiet c) := by
  unfold State.isolate State.isolateQuiet State.isolateMark
  rfl

theorem State.isolateQuiet_keeps (s : State) (c : Nat) : Keeps (maskOf isolating) (s.isolateMark c) (s.isolateQuiet c) := by
  have h1 := State.withdrawCluster_keeps (Keeps.refl (maskOf isolating) (s.isolateMark c)) (by decide) c
  unfold State.isolateQuiet
  exact keeps_foldl h1 fun _ j hu => State.portIdle_keeps hu (by decide) (4 * c + j)

theorem State.isolateQuiet_readyStays (s : State) (c : Nat) : ReadyStays s (s.isolateQuiet c) := by
  have h1 := (s.isolateMark_readyStays c).trans ((s.isolateMark c).withdrawCluster_readyStays c)
  unfold State.isolateQuiet
  exact h1.trans (ReadyStays.foldl (fun u j => u.portIdle_readyStays (4 * c + j)) _ _)

theorem State.isolate_afterMark (s : State) (c : Nat) : Keeps (maskOf isolating) (s.isolateMark c) (s.isolate c) := by
  rw [s.isolate_eq c]
  exact keeps_foldl (s.isolateQuiet_keeps c) fun _ j hu => State.abortThread_keeps hu (by decide) (32 * c + j)

theorem contains_marked (l : List Nat) (c : Nat) :
    (if l.contains c then l else l ++ [c]).contains c = true ∧
      ∀ d, d ≠ c → (if l.contains c then l else l ++ [c]).contains d = l.contains d := by
  split
  · next h => exact ⟨h, fun _ _ => rfl⟩
  · refine ⟨by simp, fun d hd => ?_⟩
    simp [hd]

/-- What isolating a cluster leaves (R22): the mark, the READY threads aborted, memory and the Datum as they were. -/
structure Isolated (s t : State) (c : Nat) : Prop where
  marked : t.pwr.isolated.contains c = true
  others : ∀ d, d ≠ c → t.pwr.isolated.contains d = s.pwr.isolated.contains d
  aborts : ∀ th, clusterOf th = c → (s.thread th).st = .ready → (t.thread th).st = .aborted
  mem    : t.mem = s.mem
  datum  : t.datum = s.datum

theorem State.isolate_isolated (s : State) (c : Nat) : Isolated s (s.isolate c) c := by
  have hk := s.isolate_afterMark c
  have hp : (s.isolate c).pwr = (s.isolateMark c).pwr := hk.same .pwr (by decide)
  refine ⟨?_, fun d hd => ?_, fun th hc hr => ?_, (hk.same .mem (by decide)).trans (s.isolateMark_kept c).1,
    (hk.same .datum (by decide)).trans (s.isolateMark_kept c).2⟩
  · rw [hp, s.isolateMark_pwr]
    exact (contains_marked _ c).1
  · rw [hp, s.isolateMark_pwr]
    exact (contains_marked _ c).2 d hd
  · have hth : 32 * c + th % 32 = th := by
      unfold clusterOf at hc
      omega
    rw [s.isolate_eq c]
    exact foldl_abortThread (fun j => 32 * c + j) (List.range 32) _
      (.inr ⟨⟨th % 32, List.mem_range.2 (Nat.mod_lt _ (by decide)), hth⟩, s.isolateQuiet_readyStays c th hr⟩)

/-- What follows an isolation and reaches neither memory, the Datum, the threads nor the supplies leaves it in place. -/
theorem Isolated.keeps {s t u : State} {c m : Nat} (h : Isolated s t c) (hk : Keeps m t u)
    (hm : [Part.pwr, .threads, .mem, .datum].all (fun p => m.testBit p.num == false) = true) : Isolated s u c := by
  obtain ⟨marked, others, aborts, mem, datum⟩ := h
  simp only [List.all_cons, List.all_nil, Bool.and_true, Bool.and_eq_true, beq_iff_eq] at hm
  obtain ⟨hpwr, hthreads, hmem, hdatum⟩ := hm
  have hp : u.pwr = t.pwr := hk.same .pwr hpwr
  refine ⟨by rwa [hp], fun d hd => by rw [hp]; exact others d hd, fun th hc hr => ?_, (hk.same .mem hmem).trans mem,
    (hk.same .datum hdatum).trans datum⟩
  rw [hk.thread hthreads]
  exact aborts th hc hr

/-- The clusters isolated, without one. -/
def State.isolateUnmark (s : State) (c : Nat) : State :=
  { s with pwr := { s.pwr with isolated := s.pwr.isolated.filter (fun x => decide (x ≠ c)) } }

/-- The parts that restoring a cluster's ports reaches. -/
def restoring : List Part := [.frames, .launches, .prt, .regs .port] ++ notifying

theorem State.restore_eq (s : State) (c : Nat) :
    s.restore c = [0, 1, 2, 3].foldl (fun s j => s.portStart (4 * c + j)) (s.isolateUnmark c) := by
  unfold State.restore State.isolateUnmark
  rfl

theorem State.restore_afterUnmark (s : State) (c : Nat) : Keeps (maskOf restoring) (s.isolateUnmark c) (s.restore c) := by
  rw [s.restore_eq c]
  exact keeps_foldl (Keeps.refl _ _) fun _ j hu => State.portStart_keeps hu (by decide) (4 * c + j)

theorem State.restore_unmarks (s : State) (c : Nat) :
    (s.restore c).pwr.isolated.contains c = false ∧
      ∀ d, d ≠ c → (s.restore c).pwr.isolated.contains d = s.pwr.isolated.contains d := by
  have hp : (s.restore c).pwr = (s.isolateUnmark c).pwr := (s.restore_afterUnmark c).same .pwr (by decide)
  rw [hp]
  refine ⟨by simp [State.isolateUnmark], fun d hd => ?_⟩
  rw [Bool.eq_iff_iff]
  simp [State.isolateUnmark, hd]

/-! ### The statement -/

theorem State.act_pos {s : State} {c : Bool} (f : State → State) (h : c = true) : s.act c f = f s := if_pos h

/-- A command that needs the clock die, while the link to it is up. -/
theorem answers_clock {c : Instr} {s u : State} {q n : Nat} {cid : BitVec 32} {st : Status} {l : List Part} {P : State → Prop}
    {body : State → State × Status × Nat} (hc : exec c s = .next (s.clockCommand q cid body)) (hs : s.canStart q = true)
    (hd : s.d2dUp = true) (hb : body (s.fetchCmd q) = (u, st, n)) (hu : Keeps (maskOf l) (s.fetchCmd q) u) (hl : Part.regs .host ∉ l)
    (hP : Only completing u (u.complete q cid st n) → P (u.complete q cid st n)) : Answers c s q cid st n l P := by
  refine answers hc hs ?_ hu hl hP
  have hf : (s.fetchCmd q).d2dUp = true := (State.setF_d2dUp _ _ _ _).trans hd
  rw [if_pos hf, hb]

/-- A command that needs the clock die is LOST while the link to it is down (R320). -/
theorem answers_lost {c : Instr} {s : State} {q : Nat} {cid : BitVec 32} {body : State → State × Status × Nat}
    (hc : exec c s = .next (s.clockCommand q cid body)) (hs : s.canStart q = true) (hd : s.d2dUp = false) :
    Answers c s q cid .lost 0 [] (fun _ => True) := by
  refine answers_nothing hc hs ?_
  have hf : (s.fetchCmd q).d2dUp = false := (State.setF_d2dUp _ _ _ _).trans hd
  rw [if_neg (by simp [hf])]

/-- OWN_CLAIM, from what the claim gives. -/
theorem answers_claim {s u : State} {q : Fin 64} {cid : BitVec 32} {idx : BitVec 16} {st : Status} {l : List Part} {P : State → Prop}
    (hs : s.canStart q.val = true) (hd : s.d2dUp = true)
    (hb : (s.fetchCmd q.val).claim (.hostQueue q.val) idx.toNat = (u, st)) (hu : Keeps (maskOf l) (s.fetchCmd q.val) u)
    (hl : Part.regs .host ∉ l) (hP : Only completing u (u.complete q.val cid st 0) → P (u.complete q.val cid st 0)) :
    Answers (.ownClaim q cid idx) s q.val cid st 0 l P :=
  answers_clock rfl hs hd (by simp only [hb]) hu hl hP

/-- OWN_RELEASE, from what the release gives. -/
theorem answers_release {s u : State} {q : Fin 64} {cid : BitVec 32} {idx : BitVec 16} {st : Status} {l : List Part} {P : State → Prop}
    (hs : s.canStart q.val = true) (hd : s.d2dUp = true)
    (hb : (s.fetchCmd q.val).release (.hostQueue q.val) idx.toNat = (u, st)) (hu : Keeps (maskOf l) (s.fetchCmd q.val) u)
    (hl : Part.regs .host ∉ l) (hP : Only completing u (u.complete q.val cid st 0) → P (u.complete q.val cid st 0)) :
    Answers (.ownRelease q cid idx) s q.val cid st 0 l P :=
  answers_clock rfl hs hd (by simp only [hb]) hu hl hP

/-- A claim or a release that the entry refuses changes nothing. -/
theorem keeps_fetched (s : State) (q : Nat) : Keeps (maskOf []) (s.fetchCmd q) (s.fetchCmd q) := Keeps.refl _ _

/-- The entries, but one, after a write of that one and a completion. -/
theorem State.ownOthers (s : State) (q : Nat) (v : BitVec 32) (i : Nat) {t : State}
    (ho : Only completing ((s.fetchCmd q).wr .TOP_OWN i v) t) : ∀ k, k ≠ i → t.rg .TOP_OWN k = s.rg .TOP_OWN k := fun k hk =>
  (ho.rg (by decide) k).trans ((State.rg_wr_own_other _ i v k hk).trans (s.rg_fetchCmd q k (by decide)))

/-- The entry itself after a write of it and a completion. -/
theorem State.ownWritten (s : State) (q : Nat) (v : BitVec 32) (i : Nat) {t : State}
    (ho : Only completing ((s.fetchCmd q).wr .TOP_OWN i v) t) : t.rg .TOP_OWN i = v :=
  (ho.rg (by decide) i).trans (State.rg_wr_same _ _ _ _)

theorem State.fetchCmd_pwr (s : State) (q : Nat) : (s.fetchCmd q).pwr = s.pwr := State.setF_pwr _ _ _ _

/-- The fault of a cluster that the host isolates (R22). -/
def isolatedFault (c : Nat) : Raise := { rec_ := 208 + c, cause := 19, cls := 0 }

theorem isolatedFault_minor (c : Nat) : (isolatedFault c).cls ≠ 3 := by simp [isolatedFault]

theorem exec_clusterIsolate_own {s : State} (c : Fin 16) (h : s.coreUp = true) :
    exec (.clusterIsolate none c) s = .next (s.isolate c.val) := congrArg Host.Outcome.next (State.act_pos _ h)

theorem exec_clusterIsolate_host {s : State} (q : Fin 64) (cid : BitVec 32) (c : Fin 16) (h : s.canStart q.val = true) :
    exec (.clusterIsolate (some (q, cid)) c) s =
      .next ((((s.fetchCmd q.val).isolate c.val).raise (isolatedFault c.val)).complete q.val cid .ok 0) := by
  refine congrArg Host.Outcome.next ?_
  unfold State.command
  rw [if_pos h, isolatedFault]

/-- A cluster that the host isolates has its own fault raised. -/
theorem State.isolate_raised {s : State} {c : Nat} (hc : c < 16) (hup : s.coreUp = true) :
    Raised ((s.isolate c).raise (isolatedFault c)) (208 + c) 19 := by
  have hp : (s.isolate c).pwr.core = s.pwr.core := by
    rw [(s.isolate_afterMark c).same .pwr (by decide), s.isolateMark_pwr]
  generalize s.isolate c = u at hp ⊢
  have hn : keeperRecord (208 + c) = false := decide_eq_false (by omega)
  have hrec : u.recordUp (isolatedFault c).rec_ = true := by
    unfold State.recordUp isolatedFault
    simp only [hn, Bool.false_eq_true, if_false]
    unfold State.coreUp at hup ⊢
    rwa [hp]
  exact State.raise_minor_raised (isolatedFault_minor c) hrec (by simp [isolatedFault])

/-- Settles O29: claims and releases by what they find, isolation by what it leaves of a cluster's threads. -/
theorem ownershipAndIsolation : Obligations.OwnershipAndIsolation := by
  unfold Obligations.OwnershipAndIsolation
  intro s q cid
  refine ⟨fun hs hd idx => ?_, fun hs hd idx => ⟨answers_lost rfl hs hd, answers_lost rfl hs hd⟩, fun c => ⟨fun hup => ?_, fun hs => ?_,
    fun hs hi => ?_, fun hs hi => ?_⟩⟩
  · intro i others
    have hh := s.fb_fetchCmd q.val Fld.TOP_OWN.HELD i (by decide)
    have ho := s.fb_fetchCmd q.val Fld.TOP_OWN.ORPHAN i (by decide)
    have hw := s.owns_fetchCmd q.val (.hostQueue q.val) i
    have nil : Part.regs .host ∉ ([] : List Part) := List.not_mem_nil
    refine ⟨fun hv => ⟨?_, ?_⟩, fun hv hf => ⟨?_, ?_⟩, fun hv hf => ⟨fun held => ?_, fun held orphan => ?_, fun held orphan => ?_,
      fun own => ?_, fun own => ?_⟩⟩
    · exact answers_claim hs hd (State.claim_invalid _ hv) (keeps_fetched s _) nil fun _ => trivial
    · exact answers_release hs hd (State.release_invalid _ hv) (keeps_fetched s _) nil fun _ => trivial
    · exact answers_claim hs hd (State.claim_fixed _ hv hf) (keeps_fetched s _) nil fun _ => trivial
    · exact answers_release hs hd (State.release_fixed _ hv hf) (keeps_fetched s _) nil fun _ => trivial
    · exact answers_claim hs hd (State.claim_free _ hv hf (hh.trans held)) (State.wr_own_keeps _ _ _) (by decide) fun h =>
        ⟨(State.owns_ownWord (ownFits_hostQueue q) (s.ownWritten q.val _ i h)).1, s.ownOthers q.val _ i h⟩
    · refine answers_claim hs hd (State.claim_orphan _ hv hf (hh.trans held) (ho.trans orphan)) (State.wr_own_keeps _ _ _) (by decide)
        fun h => ?_
      obtain ⟨own, orphaned⟩ := State.owns_ownWord (ownFits_hostQueue q) (s.ownWritten q.val _ i h)
      exact ⟨own, orphaned, s.ownOthers q.val _ i h⟩
    · exact answers_claim hs hd (State.claim_owned _ hv hf (hh.trans held) (ho.trans orphan)) (keeps_fetched s _) nil fun _ => trivial
    · refine answers_release hs hd (State.release_own hv hf (hw.trans own)) (State.wr_own_keeps _ _ _) (by decide) fun h => ⟨?_, ?_⟩
      · exact decide_eq_false fun e => absurd ((congrArg Fld.TOP_OWN.HELD.of (s.ownWritten q.val _ i h)).symm.trans e) (by decide)
      · exact s.ownOthers q.val _ i h
    · exact answers_release hs hd (State.release_other hv hf (hw.trans own)) (keeps_fetched s _) nil fun _ => trivial
  · obtain ⟨marked, others, aborts, mem, datum⟩ := s.isolate_isolated c.val
    exact ⟨_, exec_clusterIsolate_own c hup, marked, others, aborts, mem, datum⟩
  · have hup : (s.fetchCmd q.val).coreUp = true := by
      unfold State.coreUp
      rw [s.fetchCmd_pwr]
      exact State.coreUp_of_canStart hs
    have hi := (s.fetchCmd q.val).isolate_isolated c.val
    have hk := (s.fetchCmd q.val).isolate_afterMark c.val
    have hraised := State.isolate_raised c.isLt hup
    have hexec := exec_clusterIsolate_host q cid c hs
    have htail : ((s.fetchCmd q.val).isolate c.val).rg .HST_Q_CQ_TAIL q.val = s.rg .HST_Q_CQ_TAIL q.val :=
      (hk.rg (by decide) _).trans (s.rg_fetchCmd q.val q.val (by decide))
    generalize (s.fetchCmd q.val).isolate c.val = u at hi hraised hexec htail
    have hr := State.raise_minor_keeps (isolatedFault_minor c.val) (Keeps.refl (maskOf raising) u) rfl
    have hdone := (u.raise (isolatedFault c.val)).complete_parts q.val cid .ok 0
    obtain ⟨marked, -, aborts, mem, -⟩ := (hi.keeps hr (by decide)).keeps hdone (by decide)
    obtain ⟨hcq, -⟩ := (u.raise (isolatedFault c.val)).complete_reports q.val cid .ok 0
    have ht : (u.raise (isolatedFault c.val)).fd Fld.HST_Q_CQ_TAIL.CQ_TAIL q.val = s.fd Fld.HST_Q_CQ_TAIL.CQ_TAIL q.val :=
      (hr.fd (by decide) _).trans (State.fd_congr htail)
    exact ⟨_, hexec, marked, hraised.keeps hdone (by decide), by rw [← ht]; exact hcq, aborts, mem⟩
  · obtain ⟨gone, others⟩ := (s.fetchCmd q.val).restore_unmarks c.val
    have hk : Keeps (maskOf (.pwr :: restoring)) (s.fetchCmd q.val) ((s.fetchCmd q.val).restore c.val) :=
      State.restore_keeps (Keeps.refl _ _) (by decide) c.val
    refine answers (c := .clusterRestore q cid c) (l := [.frames, .launches, .prt, .pwr, .regs .port] ++ notifying) rfl hs ?_
      (hk.mono (by decide)) (by decide) fun h => ?_
    · exact if_pos (by rw [s.fetchCmd_pwr, hi])
    rw [show (((s.fetchCmd q.val).restore c.val).complete q.val cid .ok 0).pwr = _ from h.same .pwr (by decide)]
    rw [s.fetchCmd_pwr] at others
    exact ⟨gone, others⟩
  · refine answers_nothing (c := .clusterRestore q cid c) rfl hs ?_
    exact if_neg (by rw [s.fetchCmd_pwr, hi]; decide)

end Sys2Proof.Machine
end

section
/-!
Gating of the core-die regions and of the GNSS baseband (R20, R367): what it loses, what it leaves, and what PWR_STAT shows of it.
-/
namespace Sys2Proof.Machine

theorem State.fd_setB_other (s : State) (f g : Fld) (b : Bool) (i j : Nat) (h1 : f.lo ≤ f.hi) (h2 : f.hi < 32) (h0 : g.lo ≤ g.hi)
    (h3 : f.reg ≠ g.reg ∨ g.hi < f.lo ∨ f.hi < g.lo ∨ i ≠ j) : (s.setB f b i).fd g j = s.fd g j :=
  State.fd_setF_other s f g _ i j h1 h2 h0 h3

/-- PWR_STAT shows a gate: the engine's state is GATED, or EMBER in Ember. -/
def GateShown (s : State) : Prop := s.fd Fld.PWR_STAT.STATE = if s.pwr.ember then 2 else 1

/-- The regions gated, as PWR_STAT writes them. -/
def gateBits (l : List Nat) : Nat := [0, 1, 2, 3].foldl (fun m r => if l.contains r then m + 2 ^ r else m) 0

theorem gateBits_ne {l : List Nat} {r : Nat} (hr : r < 4) (h : r ∈ l) : gateBits l ≠ 0 := by
  have hc : l.contains r = true := by simpa using h
  unfold gateBits
  simp only [List.foldl_cons, List.foldl_nil]
  interval_cases r <;> simp only [hc, if_true] <;> split_ifs <;> decide

theorem State.pwrShow_state (s : State) : s.pwrShow.fd Fld.PWR_STAT.STATE =
    if s.pwr.ember then 2 else if gateBits s.pwr.gatedCr ≠ 0 ∨ s.pwr.gatedGnss then 1 else 0 := by
  have hlt : (if s.pwr.ember then 2 else if gateBits s.pwr.gatedCr ≠ 0 ∨ s.pwr.gatedGnss then 1 else 0) < 2 ^ 2 := by
    split_ifs <;> decide
  unfold State.pwrShow
  dsimp only
  rw [State.fd_setB_other _ Fld.PWR_STAT.PWRFAIL _ _ _ _ (by decide) (by decide) (by decide) (by decide),
    State.fd_setB_other _ Fld.PWR_STAT.GNSS_GATED _ _ _ _ (by decide) (by decide) (by decide) (by decide),
    State.fd_setF_other _ Fld.PWR_STAT.CR_GATED _ _ _ _ (by decide) (by decide) (by decide) (by decide),
    State.fd_setF_same _ _ _ _ (by decide) (by decide)]
  exact Nat.mod_eq_of_lt hlt

theorem State.pwrShow_only (s : State) : Keeps (maskOf [.regs .power]) s s.pwrShow := State.pwrShow_keeps (Keeps.refl _ s) (by decide)

theorem State.pwrShow_pwr (s : State) : s.pwrShow.pwr = s.pwr := s.pwrShow_only.same .pwr (by decide)

theorem State.pwrShow_shown {s : State} (h : gateBits s.pwr.gatedCr ≠ 0 ∨ s.pwr.gatedGnss = true) : GateShown s.pwrShow := by
  unfold GateShown
  rw [State.pwrShow_state, State.pwrShow_pwr, if_pos h]

/-! ### One region -/

/-- What a gated region holds is lost: the gate before PWR_STAT shows it. -/
def State.regionLose (s : State) (r : Nat) : State :=
  { s with
    mem := s.mem.filter (fun e => !regionHolds r e.1)
    regs := s.regs.filter (fun e => decide (e.1.region ≠ some r))
    images := s.images.filter (fun e => !decide (regionOf (e.1 / 8) = r))
    threads := s.threads.filter (fun e => !decide (regionOf (clusterOf e.1) = r))
    frames := s.frames.filter (fun e => !decide (regionOf e.2.cluster = r))
    jobs := s.jobs.filter (fun e => !decide (regionOf e.1 = r))
    derived := s.derived.filter (fun e => !decide (regionOf (e.1 / laneHandles) = r))
    prt := { s.prt with ports := s.prt.ports.filter (fun e => !decide (regionOf (e.1 / 4) = r)) }
    pwr := { s.pwr with gatedCr := if s.pwr.gatedCr.contains r then s.pwr.gatedCr else s.pwr.gatedCr ++ [r] } }

theorem State.gateRegion_eq (s : State) (r : Nat) : s.gateRegion r = (s.regionLose r).pwrShow := by
  unfold State.gateRegion State.regionLose
  rfl

theorem State.gateRegion_pwr (s : State) (r : Nat) : (s.gateRegion r).pwr =
    { s.pwr with gatedCr := if s.pwr.gatedCr.contains r then s.pwr.gatedCr else s.pwr.gatedCr ++ [r] } := by
  rw [State.gateRegion_eq, State.pwrShow_pwr, State.regionLose]

theorem State.mem_gateRegion (s : State) (r x : Nat) : x ∈ (s.gateRegion r).pwr.gatedCr ↔ x = r ∨ x ∈ s.pwr.gatedCr := by
  rw [State.gateRegion_pwr]
  dsimp only
  split
  · next h => exact ⟨.inr, fun e => e.elim (fun e => e ▸ (by simpa using h)) id⟩
  · rw [List.mem_append, List.mem_singleton, or_comm]

theorem State.thread_gateRegion (s : State) (r th : Nat) :
    (s.gateRegion r).thread th = if regionOf (clusterOf th) = r then Thread.reset else s.thread th := by
  have h := SMap.get_filter (fun _ => Thread.reset) s.threads (fun k => !decide (regionOf (clusterOf k) = r)) th
  refine ((thread_congr ((s.regionLose r).pwrShow_only.same .threads (by decide)) th).trans h).trans ?_
  by_cases hr : regionOf (clusterOf th) = r <;> simp [hr, State.thread]

theorem State.octet_gateRegion (s : State) (r a : Nat) : (s.gateRegion r).octet a = if regionHolds r a then 0 else s.octet a := by
  have h := SMap.get_filter memDefault s.mem (fun k => !regionHolds r k) a
  refine Eq.trans (congrArg (fun m => SMap.get memDefault m a) ((s.regionLose r).pwrShow_only.same .mem (by decide))) (h.trans ?_)
  cases hr : regionHolds r a <;> simp [memDefault, State.octet]

theorem State.rg_gateRegion (s : State) (n : Nat) {r : Reg} (i : Nat) (hr : r.group ≠ .power) :
    (s.gateRegion n).rg r i = if RegKey.region ⟨r, i⟩ = some n then RegKey.dflt ⟨r, i⟩ else s.rg r i := by
  have h := SMap.get_filter RegKey.dflt s.regs (fun k => decide (k.region ≠ some n)) ⟨r, i⟩
  refine ((s.regionLose n).rg_pwrShow i (fun e => hr (congrArg Reg.group e))).trans (h.trans ?_)
  by_cases hn : RegKey.region ⟨r, i⟩ = some n <;> simp [hn, State.rg]

theorem State.gateRegion_shown (s : State) {r : Nat} (hr : r < 4) : GateShown (s.gateRegion r) := by
  rw [State.gateRegion_eq]
  exact State.pwrShow_shown (.inl (gateBits_ne hr ((s.mem_gateRegion r r).2 (.inl rfl))))

/-! ### The regions of a word -/

/-- What gating regions leaves: they read as after reset, the others as before. -/
structure RegionsLost (s t : State) (l : List Nat) : Prop where
  gated   : ∀ x, x ∈ t.pwr.gatedCr ↔ x ∈ l ∨ x ∈ s.pwr.gatedCr
  gnss    : t.pwr.gatedGnss = s.pwr.gatedGnss
  ember   : t.pwr.ember = s.pwr.ember
  threads : ∀ th, t.thread th = if regionOf (clusterOf th) ∈ l then Thread.reset else s.thread th
  octets  : ∀ a, t.octet a = if l.any (fun r => regionHolds r a) then 0 else s.octet a
  regs    : ∀ r i, r.group ≠ .power →
    t.rg r i = if l.any (fun n => decide (RegKey.region ⟨r, i⟩ = some n)) then RegKey.dflt ⟨r, i⟩ else s.rg r i

theorem State.gateRegions_lost (l : List Nat) : ∀ s : State, RegionsLost s (l.foldl State.gateRegion s) l := by
  induction l with
  | nil => exact fun s => ⟨by simp, rfl, rfl, by simp, by simp, by simp⟩
  | cons r l ih =>
    intro s
    obtain ⟨gated, gnss, ember, threads, octets, regs⟩ := ih (s.gateRegion r)
    rw [List.foldl_cons]
    rw [s.gateRegion_pwr] at gnss ember
    refine ⟨fun x => ?_, gnss, ember, fun th => ?_, fun a => ?_, fun q i hq => ?_⟩
    · rw [gated, s.mem_gateRegion, List.mem_cons]
      tauto
    · rw [threads, s.thread_gateRegion]
      simp only [List.mem_cons]
      split_ifs <;> simp_all
    · rw [octets, s.octet_gateRegion]
      rw [List.any_cons]
      cases regionHolds r a <;> cases l.any (fun r => regionHolds r a) <;> rfl
    · rw [regs q i hq, s.rg_gateRegion r i hq]
      rw [List.any_cons]
      by_cases hr : RegKey.region ⟨q, i⟩ = some r
      · simp [hr]
      · simp only [hr, decide_false, Bool.false_or, if_false]

theorem State.gateRegions_shown {l : List Nat} (hl : ∀ r ∈ l, r < 4) : ∀ s : State, l ≠ [] ∨ GateShown s →
    GateShown (l.foldl State.gateRegion s) := by
  induction l with
  | nil => exact fun s h => h.resolve_left (fun e => e rfl)
  | cons r l ih => exact fun s _ => ih (fun x hx => hl x (List.mem_cons_of_mem _ hx)) _ (.inr (s.gateRegion_shown (hl r List.mem_cons_self)))

/-- The parts that gating regions reaches: of the registers all groups, for a block's addresses run on past its last one. -/
def gating : List Part := [.mem, .threads, .images, .frames, .jobs, .derived, .prt, .pwr, .ens, .gns, .regs .power, .regs .gns, .regs .own,
  .regs .top, .regs .fltRec, .regs .fault, .regs .irq, .regs .damper, .regs .key, .regs .mate, .regs .memory, .regs .datum, .regs .tic,
  .regs .ens, .regs .traverse, .regs .syn, .regs .port, .regs .service, .regs .stoker, .regs .pmc]

theorem State.gateRegions_keeps (s : State) (l : List Nat) : Keeps (maskOf (completing ++ gating)) s (l.foldl State.gateRegion s) :=
  keeps_foldl (Keeps.refl _ s) fun _ r hu => State.gateRegion_keeps hu (by decide) r

/-- The registers of a host queue lie in no core-die region. -/
theorem region_queue (q : Fin 64) : RegKey.region ⟨.HST_Q_CQ_TAIL, q.val⟩ = none ∧ RegKey.region ⟨.HST_Q_SQ_HEAD, q.val⟩ = none := by
  revert q
  decide

/-! ### The GNSS baseband -/

/-- The baseband stopped: no capture, no channel, no sample port. -/
def State.gnssQuiet (s : State) : State :=
  let s0 : State := { s with gns := { s.gns with armed := none } }
  let s1 := if s.gns.running.isSome ∨ s.gns.armed.isSome then s0.endCapture 3 else s0
  (List.range 4).foldl (fun s p => s.setB Fld.GNS_SP_STAT.RUNNING false p) (s1.dropChannels (fun _ => true))

/-- The baseband's jobs gone, and its gate marked. -/
def State.gnssMark (s : State) : State :=
  { s with gns := { s.gns with jobs := [], job := none }, pwr := { s.pwr with gatedGnss := true } }

/-- The ensemble's entries of the baseband, without their source. -/
def State.gnssEntries (s : State) : State := [8, 9, 10, 11].foldl (fun s r => s.setEnt r { (s.ent r) with lost := true }) s

theorem State.gateGnss_eq (s : State) : s.gateGnss = s.gnssQuiet.gnssMark.gnssEntries.pwrShow := by
  unfold State.gateGnss State.gnssQuiet State.gnssMark State.gnssEntries
  rfl

/-- The parts that stopping the baseband reaches. -/
def gnssParts : List Part := [.ens, .gns, .irq, .regs .gns, .regs .irqStat]

/-- A write of the baseband's own state. -/
theorem State.setGns_keeps {m : Nat} {z s : State} (h : Keeps m z s) (hm : 0x800000 &&& m = 0x800000) (g : GnsState) :
    Keeps m z { s with gns := g } := by
  simp only [keeps_mk]
  refine keeps_upd h ?_ ?_ ?_ ?_ ?_ ?_ ?_ ?_ ?_ ?_ ?_ ?_ ?_ ?_ ?_ ?_ ?_ ?_ ?_ ?_ ?_ ?_ ?_ ?_ ?_ ?_ ?_ ?_ ?_ ?_ ?_ ?_ ?_ id id
    (Fuses.Le.refl _) <;> first | exact same_rfl | exact same_bit (by decide) hm

theorem State.gnssQuiet_keeps (s : State) : Keeps (maskOf gnssParts) s s.gnssQuiet := by
  have h0 := State.setGns_keeps (Keeps.refl (maskOf gnssParts) s) (by decide) { s.gns with armed := none }
  have h1 := keeps_ite (c := s.gns.running.isSome ∨ s.gns.armed.isSome) (State.endCapture_keeps h0 (by decide) 3) h0
  exact keeps_foldl (State.dropChannels_keeps h1 (by decide) _) fun _ p hu => State.setB_keeps hu (Nat.zero_and _) (by decide) false p

theorem State.gnssEntries_keeps (s : State) : Keeps (maskOf [.ens]) s s.gnssEntries :=
  keeps_foldl (Keeps.refl _ s) fun _ r hu => State.setEnt_keeps hu (by decide) r _

theorem State.gateGnss_pwr (s : State) : s.gateGnss.pwr = { s.pwr with gatedGnss := true } := by
  rw [State.gateGnss_eq, State.pwrShow_pwr, show s.gnssQuiet.gnssMark.gnssEntries.pwr = _ from State.gnssEntries_keeps _ |>.same .pwr (by decide),
    State.gnssMark, show s.gnssQuiet.pwr = _ from s.gnssQuiet_keeps.same .pwr (by decide)]

theorem State.gateGnss_shown (s : State) : GateShown s.gateGnss := by
  have h := s.gateGnss_pwr
  rw [State.gateGnss_eq] at h ⊢
  refine State.pwrShow_shown (.inr ?_)
  rw [← State.pwrShow_pwr, h]

/-- The parts that gating the baseband reaches. -/
def gnssGating : List Part := [.ens, .gns, .irq, .pwr, .regs .power, .regs .gns, .regs .irqStat]

theorem State.gateGnss_only (s : State) : Keeps (maskOf gnssGating) s s.gateGnss := State.gateGnss_keeps (Keeps.refl _ s) (by decide)

/-! ### REGION_GATE and REGION_UNGATE -/

/-- What REGION_GATE makes of the state: the regions of the word, then the baseband where the word names it and it is not gated. -/
def State.gateWord (s : State) (w : BitVec 32) : State :=
  let s1 := (wordRegions w).foldl State.gateRegion s
  if bitAt w.toNat 8 && !s.pwr.gatedGnss then s1.gateGnss else s1

/-- The regions of a word that are not wholly isolated. -/
def State.openRegions (s : State) (w : BitVec 32) : List Nat :=
  (wordRegions w).filter (fun r => !(List.range 4).all (fun j => s.pwr.isolated.contains (4 * r + j)))

/-- Whether an armed event or an armed snapshot stands against a word. -/
def State.wordArmed (s : State) (w : BitVec 32) : Bool := (wordRegions w).any s.regionArmed || (bitAt w.toNat 8 && s.snapArmed)

theorem State.regionGate_eq (s : State) (w : BitVec 32) : s.regionGate w =
    if w &&& 0xFFFFFEF0#32 ≠ 0 then (s, .opcode, 0)
    else if s.openRegions w ≠ [] then (s, .busy, (s.openRegions w).foldl (fun m r => m + 2 ^ r) 0)
    else if s.wordArmed w then (s, .armed, 0)
    else (s.gateWord w, .ok, 0) := rfl

theorem bitAt_toNat (w : BitVec 32) (i : Nat) : bitAt w.toNat i = w.getLsbD i := rfl

theorem wordRegions_lt {w : BitVec 32} {r : Nat} (h : r ∈ wordRegions w) : r < 4 := by
  have h4 : r ∈ [0, 1, 2, 3] := (List.mem_filter.1 h).1
  simp only [List.mem_cons, List.not_mem_nil, or_false] at h4
  omega

/-- What gating a word leaves. -/
structure WordGated (s t : State) (w : BitVec 32) : Prop where
  gated   : ∀ x, x ∈ t.pwr.gatedCr ↔ x ∈ wordRegions w ∨ x ∈ s.pwr.gatedCr
  gnss    : t.pwr.gatedGnss = (s.pwr.gatedGnss || w.getLsbD 8)
  shown   : wordRegions w ≠ [] → t.fd Fld.PWR_STAT.STATE = if s.pwr.ember then 2 else 1
  threads : ∀ th, t.thread th = if regionOf (clusterOf th) ∈ wordRegions w then Thread.reset else s.thread th
  octets  : ∀ a, t.octet a = if (wordRegions w).any (fun r => regionHolds r a) then 0 else s.octet a
  regs    : ∀ r i, r.group ∉ [RegGroup.power, .gns, .host, .irqStat] → t.rg r i =
    if (wordRegions w).any (fun n => decide (RegKey.region ⟨r, i⟩ = some n)) then RegKey.dflt ⟨r, i⟩ else s.rg r i

theorem not_power {g : RegGroup} (h : g ∉ [RegGroup.power, .gns, .host, .irqStat]) : g ≠ .power := fun e => by
  subst e
  exact h List.mem_cons_self

theorem State.gateWord_gated (s : State) (w : BitVec 32) : WordGated s (s.gateWord w) w := by
  obtain ⟨gated, gnss, ember, threads, octets, regs⟩ := State.gateRegions_lost (wordRegions w) s
  have shown := fun h => State.gateRegions_shown (fun r hr => wordRegions_lt (w := w) hr) s (.inl h)
  unfold State.gateWord
  dsimp only
  generalize (wordRegions w).foldl State.gateRegion s = u at gated gnss ember threads octets regs shown ⊢
  rw [bitAt_toNat]
  split
  · next h =>
    obtain ⟨h8, -⟩ := Bool.and_eq_true_iff.1 h
    have hk := u.gateGnss_only
    have hp := u.gateGnss_pwr
    refine ⟨by rwa [hp], by rw [hp, h8, Bool.or_true], fun _ => ?_, fun th => (hk.thread (by decide) th).trans (threads th),
      fun a => Eq.trans (congrArg (fun m => SMap.get memDefault m a) (hk.same .mem (by decide))) (octets a), fun r i hr => ?_⟩
    · have hs := u.gateGnss_shown
      rw [GateShown, hp] at hs
      rw [hs, ember]
    · refine (hk.rg ?_ i).trans (regs r i (not_power hr))
      revert hr
      cases r.group <;> decide
  · next h =>
    refine ⟨gated, ?_, fun h => ?_, threads, octets, fun r i hr => regs r i (not_power hr)⟩
    · rw [gnss]
      revert h
      cases w.getLsbD 8 <;> cases s.pwr.gatedGnss <;> simp
    · rw [← ember]
      exact shown h

theorem State.gateWord_keeps (s : State) (w : BitVec 32) : Keeps (maskOf (completing ++ gating)) s (s.gateWord w) := by
  have h := s.gateRegions_keeps (wordRegions w)
  exact keeps_ite (State.gateGnss_keeps h (by decide)) h

/-- The queue's own registers through a gate. -/
theorem State.gateWord_queue (s : State) (w : BitVec 32) (q : Fin 64) :
    (s.gateWord w).rg .HST_Q_CQ_TAIL q.val = s.rg .HST_Q_CQ_TAIL q.val ∧
      (s.gateWord w).rg .HST_Q_SQ_HEAD q.val = s.rg .HST_Q_SQ_HEAD q.val := by
  obtain ⟨ht, hh⟩ := region_queue q
  obtain ⟨-, -, -, -, -, regs⟩ := State.gateRegions_lost (wordRegions w) s
  have none_ : ∀ l : List Nat, l.any (fun n => decide ((none : Option Nat) = some n)) = false := fun l => by simp
  have tail := regs .HST_Q_CQ_TAIL q.val (by decide)
  have head := regs .HST_Q_SQ_HEAD q.val (by decide)
  rw [ht, none_, if_neg Bool.false_ne_true] at tail
  rw [hh, none_, if_neg Bool.false_ne_true] at head
  unfold State.gateWord
  dsimp only
  generalize (wordRegions w).foldl State.gateRegion s = u at tail head ⊢
  split
  · exact ⟨(u.gateGnss_only.rg (r := .HST_Q_CQ_TAIL) (by decide) _).trans tail,
      (u.gateGnss_only.rg (r := .HST_Q_SQ_HEAD) (by decide) _).trans head⟩
  · exact ⟨tail, head⟩

/-- The parts that lie beside what a gate leaves to the completion. -/
theorem WordGated.complete {s u t : State} {w : BitVec 32} (h : WordGated s u w) (ho : Only completing u t) : WordGated s t w := by
  obtain ⟨gated, gnss, shown, threads, octets, regs⟩ := h
  have hp : t.pwr = u.pwr := ho.same .pwr (by decide)
  refine ⟨by rwa [hp], by rwa [hp], fun h => (ho.fd (f := Fld.PWR_STAT.STATE) (by decide) 0).trans (shown h),
    fun th => (thread_congr (ho.same .threads (by decide)) th).trans (threads th),
    fun a => Eq.trans (congrArg (fun m => SMap.get memDefault m a) (ho.same .mem (by decide))) (octets a),
    fun r i hr => (ho.rg ?_ i).trans (regs r i hr)⟩
  revert hr
  cases r.group <;> decide

/-- The regions of a word powered again. -/
def State.ungateRegions (s : State) (w : BitVec 32) : State :=
  { s with pwr := { s.pwr with gatedCr := s.pwr.gatedCr.filter (fun r => !(wordRegions w).contains r) } }

/-- What REGION_UNGATE makes of the state. -/
def State.ungateWord (s : State) (w : BitVec 32) : State :=
  if bitAt w.toNat 8 then (s.ungateRegions w).pwrShow.ungateGnss else (s.ungateRegions w).pwrShow

theorem State.regionUngate_eq (s : State) (w : BitVec 32) : s.regionUngate w =
    if w &&& 0xFFFFFEF0#32 ≠ 0 then (s, .opcode, 0)
    else if (wordRegions w).any (fun r => !s.pwr.gatedCr.contains r) || (bitAt w.toNat 8 && !s.pwr.gatedGnss) then (s, .range, 0)
    else (s.ungateWord w, .ok, 0) := rfl

theorem State.ungateWord_pwr (s : State) (w : BitVec 32) : (s.ungateWord w).pwr =
    { s.pwr with
      gatedCr := s.pwr.gatedCr.filter (fun r => !(wordRegions w).contains r)
      gatedGnss := s.pwr.gatedGnss && !w.getLsbD 8 } := by
  unfold State.ungateWord
  rw [bitAt_toNat]
  split
  · next h => rw [State.ungateGnss, State.pwrShow_pwr, State.pwrShow_pwr, h, State.ungateRegions, Bool.not_true, Bool.and_false]
  · next h => rw [State.pwrShow_pwr, State.ungateRegions, Bool.eq_false_iff.2 h, Bool.not_false, Bool.and_true]

/-- Whether every region of a word, and the baseband if it is named, is gated: as REGION_UNGATE asks it and as the spec says it. -/
theorem ungate_refuses (l : List Nat) (p : Nat → Bool) (a b : Bool) :
    (l.any (fun r => !p r) || (a && !b)) = !(l.all p && (!a || b)) := by
  rw [← List.not_all_eq_any_not]
  cases l.all p <;> cases a <;> cases b <;> rfl

/-- REGION_GATE, by what it finds (R367). -/
theorem regionGate_answers {s : State} {q : Fin 64} (cid word : BitVec 32) (hs : s.canStart q.val = true) :
    let c := Instr.regionGate q cid word
    (word &&& 0xFFFFFEF0#32 ≠ 0 → Answers c s q.val cid .opcode 0 [] (fun _ => True)) ∧
    (word &&& 0xFFFFFEF0#32 = 0 → s.openRegions word ≠ [] →
      Answers c s q.val cid .busy ((s.openRegions word).foldl (fun m r => m + 2 ^ r) 0) [] (fun _ => True)) ∧
    (word &&& 0xFFFFFEF0#32 = 0 → s.openRegions word = [] → s.wordArmed word = true → Answers c s q.val cid .armed 0 [] (fun _ => True)) ∧
    (word &&& 0xFFFFFEF0#32 = 0 → s.openRegions word = [] → s.wordArmed word = false →
      Answers c s q.val cid .ok 0 gating (fun t => WordGated (s.fetchCmd q.val) t word)) := by
  have hopen : (s.fetchCmd q.val).openRegions word = s.openRegions word := rfl
  have harm : (s.fetchCmd q.val).wordArmed word = s.wordArmed word := rfl
  have he := (s.fetchCmd q.val).regionGate_eq word
  rw [hopen, harm] at he
  refine ⟨fun h => ?_, fun h hb => ?_, fun h hb ha => ?_, fun h hb ha => ?_⟩
  · exact answers_nothing rfl hs (by rw [he, if_pos h])
  · exact answers_nothing rfl hs (by rw [he, if_neg (not_not.2 h), if_pos hb])
  · exact answers_nothing rfl hs (by rw [he, if_neg (not_not.2 h), if_neg (not_not.2 hb), if_pos ha])
  · obtain ⟨tail, head⟩ := (s.fetchCmd q.val).gateWord_queue word q
    refine answers_of rfl hs (by rw [he, if_neg (not_not.2 h), if_neg (not_not.2 hb), if_neg (by rw [ha]; decide)])
      ((s.fetchCmd q.val).gateWord_keeps word).onlyOf tail head fun ho => ?_
    exact ((s.fetchCmd q.val).gateWord_gated word).complete ho

/-- REGION_UNGATE, by what it finds (R367). -/
theorem regionUngate_answers {s : State} {q : Fin 64} (cid word : BitVec 32) (hs : s.canStart q.val = true) :
    let c := Instr.regionUngate q cid word
    let off := (wordRegions word).all (fun r => s.pwr.gatedCr.contains r) && (!word.getLsbD 8 || s.pwr.gatedGnss)
    (word &&& 0xFFFFFEF0#32 ≠ 0 → Answers c s q.val cid .opcode 0 [] (fun _ => True)) ∧
    (word &&& 0xFFFFFEF0#32 = 0 → off = false → Answers c s q.val cid .range 0 [] (fun _ => True)) ∧
    (word &&& 0xFFFFFEF0#32 = 0 → off = true → Answers c s q.val cid .ok 0 [.pwr, .regs .power] (fun t =>
      (∀ r ∈ wordRegions word, r ∉ t.pwr.gatedCr) ∧ t.pwr.gatedGnss = (s.pwr.gatedGnss && !word.getLsbD 8))) := by
  intro c off
  have he := (s.fetchCmd q.val).regionUngate_eq word
  rw [bitAt_toNat, ungate_refuses, s.fetchCmd_pwr] at he
  refine ⟨fun h => ?_, fun h ho => ?_, fun h ho => ?_⟩
  · exact answers_nothing rfl hs (by rw [he, if_pos h])
  · exact answers_nothing rfl hs (by rw [he, if_neg (not_not.2 h)]; exact if_pos (congrArg not ho))
  · have hk : Keeps (maskOf [.pwr, .regs .power]) (s.fetchCmd q.val) ((s.fetchCmd q.val).regionUngate word).1 :=
      State.regionUngate_keeps (Keeps.refl _ _) (by decide) word
    have hb : (s.fetchCmd q.val).regionUngate word = ((s.fetchCmd q.val).ungateWord word, .ok, 0) := by
      rw [he, if_neg (not_not.2 h)]
      exact if_neg (Bool.eq_false_iff.1 (congrArg not ho))
    rw [hb] at hk
    refine answers rfl hs hb hk (by decide) fun hd => ?_
    rw [show (State.complete _ _ _ _ _).pwr = _ from hd.same .pwr (by decide), State.ungateWord_pwr, s.fetchCmd_pwr]
    exact ⟨fun r hr => by simp [hr], rfl⟩

end Sys2Proof.Machine
end

section
/-!
Fuses and the lifecycle (R372 to R376): what each command finds, and what it blows.
-/
namespace Sys2Proof.Machine

/-! ### The debug level -/

/-- The debug level replaced: the supplies' record but for it, and the threads that resume. -/
theorem State.setDebug_pwr (s : State) (l : DebugLevel) : (s.setDebug l).pwr = { s.pwr with debug := l } := by
  unfold State.setDebug
  dsimp only
  split
  · refine (show (State.pwr _) = _ from (keeps_foldl (Keeps.refl (maskOf [.threads]) _) fun u e hu => ?_).same .pwr (by decide)).trans
      (State.setF_pwr _ _ _ _)
    exact keeps_ite (State.setThread_keeps hu (by decide) _ _) hu
  · rw [State.setF_pwr]

/-! ### FUSE_PROGRAM -/

/-- Whether an item of Table 16.4 is blown. -/
def Fuses.blown (f : Fuses) (n : Nat) : Prop :=
  (n = 1 ∧ f.invKill = true) ∨ (n = 2 ∧ f.obsKill = true) ∨ (n = 3 ∧ f.matPrio.isSome = true) ∨ (n = 4 ∧ f.dfdtCeil.isSome = true)

/-- Whether an item does not exist, or a value lies outside its range. -/
def fuseRange (n v : Nat) : Prop := n = 0 ∨ 4 < n ∨ (n = 3 ∧ 0xFF < v) ∨ (n = 4 ∧ (v = 0 ∨ 10000 < v))

/-- The INVASIVE kill blown. -/
def State.killInvasive (s : State) : State :=
  let s1 := s.setFuses { s.pwr.fuses with invKill := true }
  if s1.pwr.debug = .invasive then s1.setDebug .off else s1

/-- The kills of both levels blown. -/
def State.killObserve (s : State) : State := (s.setFuses { s.pwr.fuses with invKill := true, obsKill := true }).setDebug .off

/-- The fused priority blown. -/
def State.fusePrio (s : State) (v : Nat) : State :=
  ((s.setFuses { s.pwr.fuses with matPrio := some (BitVec.ofNat 8 v) }).setF Fld.MAT_PRIORITY.PRIO v).setB Fld.MAT_PRIORITY.FUSED true

/-- The fused ceiling blown. -/
def State.fuseCeil (s : State) (v : Nat) : State :=
  let s1 := s.setFuses { s.pwr.fuses with dfdtCeil := some v }
  if v < s1.fd Fld.DMP_MAX_DFDT.DFDT then s1.dfdtWrite (BitVec.ofNat 32 v) else s1

section
variable {s : State} {n v : Nat}

theorem State.fuseProgram_pwrfail (h : s.pwr.pwrfail = true) : s.fuseProgram n v = (s, .refused, 0x0B) := if_pos h

theorem State.fuseProgram_retired (h : s.pwr.pwrfail = false) (hl : s.lifecycle = 3) : s.fuseProgram n v = (s, .refused, 0x05) := by
  unfold State.fuseProgram
  simp only [h, hl, Bool.false_eq_true, if_true, if_false]

variable (h : s.pwr.pwrfail = false) (hl : s.lifecycle ≠ 3)
include h hl

theorem State.fuseProgram_blown (hb : s.pwr.fuses.blown n) : s.fuseProgram n v = (s, .refused, 0x06) := by
  unfold State.fuseProgram
  rcases hb with ⟨rfl, hb⟩ | ⟨rfl, hb⟩ | ⟨rfl, hb⟩ | ⟨rfl, hb⟩ <;> simp [h, hl, hb]

theorem State.fuseProgram_range (hb : ¬ s.pwr.fuses.blown n) (hr : fuseRange n v) : s.fuseProgram n v = (s, .range, 0) := by
  unfold State.fuseProgram
  unfold Fuses.blown at hb
  rcases hr with rfl | hn | ⟨rfl, hv⟩ | ⟨rfl, hv⟩
  · simp [h, hl]
  · simp [h, hl, show n ≠ 1 by omega, show n ≠ 2 by omega, show n ≠ 3 by omega, show n ≠ 4 by omega]
  · simp_all
  · simp_all

theorem State.fuseProgram_invasive (hb : ¬ s.pwr.fuses.blown 1) : s.fuseProgram 1 v = (s.killInvasive, .ok, 0) := by
  unfold State.fuseProgram State.killInvasive
  unfold Fuses.blown at hb
  simp_all

theorem State.fuseProgram_observe (hb : ¬ s.pwr.fuses.blown 2) : s.fuseProgram 2 v = (s.killObserve, .ok, 0) := by
  unfold State.fuseProgram State.killObserve
  unfold Fuses.blown at hb
  simp_all

theorem State.fuseProgram_prio (hb : ¬ s.pwr.fuses.blown 3) (hv : v ≤ 0xFF) : s.fuseProgram 3 v = (s.fusePrio v, .ok, 0) := by
  unfold State.fuseProgram State.fusePrio
  unfold Fuses.blown at hb
  simp_all [not_lt.2 hv]

theorem State.fuseProgram_ceil (hb : ¬ s.pwr.fuses.blown 4) (h1 : 1 ≤ v) (hv : v ≤ 10000) :
    s.fuseProgram 4 v = (s.fuseCeil v, .ok, 0) := by
  have hr : ¬ (v = 0 ∨ 10000 < v) := by omega
  unfold State.fuseProgram State.fuseCeil
  unfold Fuses.blown at hb
  simp_all

end

theorem State.setFuses_pwr (s : State) (f : Fuses) : (s.setFuses f).pwr = { s.pwr with fuses := f } := rfl

theorem State.killInvasive_keeps (s : State) : Keeps (maskOf [.threads, .pwr, .regs .power]) s s.killInvasive := by
  have h := State.setFuses_keeps (Keeps.refl (maskOf [.threads, .pwr, .regs .power]) s) (by decide) _ (Fuses.le_inv s.pwr.fuses)
  exact keeps_ite (State.setDebug_keeps h (by decide) _) h

theorem State.killInvasive_kills (s : State) :
    s.killInvasive.pwr.fuses = { s.pwr.fuses with invKill := true } ∧ s.killInvasive.pwr.debug ≠ .invasive := by
  unfold State.killInvasive
  dsimp only
  split
  · rw [State.setDebug_pwr, State.setFuses_pwr]
    exact ⟨rfl, show DebugLevel.off ≠ .invasive by decide⟩
  · next h => exact ⟨rfl, h⟩

theorem State.killObserve_keeps (s : State) : Keeps (maskOf [.threads, .pwr, .regs .power]) s s.killObserve :=
  State.setDebug_keeps (State.setFuses_keeps (Keeps.refl _ s) (by decide) _ (Fuses.le_kills s.pwr.fuses)) (by decide) _

theorem State.killObserve_kills (s : State) :
    s.killObserve.pwr.fuses = { s.pwr.fuses with invKill := true, obsKill := true } ∧ s.killObserve.pwr.debug = .off := by
  unfold State.killObserve
  rw [State.setDebug_pwr, State.setFuses_pwr]
  exact ⟨rfl, rfl⟩

theorem State.fusePrio_keeps (s : State) (v : Nat) (h : ¬ s.pwr.fuses.blown 3) :
    Keeps (maskOf [.pwr, .regs .mate]) s (s.fusePrio v) := by
  have hf : ¬ s.pwr.fuses.matPrio.isSome = true := fun e => h (.inr (.inr (.inl ⟨rfl, e⟩)))
  exact State.setB_keeps (State.setF_keeps (State.setFuses_keeps (Keeps.refl _ s) (by decide) _ (Fuses.le_prio s.pwr.fuses _ hf))
    (Nat.zero_and _) (by decide) _ _) (Nat.zero_and _) (by decide) _ _

theorem State.fusePrio_blows (s : State) {v : Nat} (hv : v ≤ 0xFF) :
    (s.fusePrio v).pwr.fuses = { s.pwr.fuses with matPrio := some (BitVec.ofNat 8 v) } ∧
      (s.fusePrio v).fd Fld.MAT_PRIORITY.PRIO = v ∧ (s.fusePrio v).fb Fld.MAT_PRIORITY.FUSED = true := by
  unfold State.fusePrio
  refine ⟨?_, ?_, State.fb_setB_same _ _ _ _ (by decide) (by decide)⟩
  · rw [State.setB_pwr, State.setF_pwr, State.setFuses_pwr]
  · rw [State.fd_setB_other _ _ _ _ _ _ (by decide) (by decide) (by decide) (by decide), State.fd_setF_same _ _ _ _ (by decide) (by decide)]
    exact Nat.mod_eq_of_lt (Nat.lt_succ_of_le hv)

/-- A written DMP_MAX_DFDT reads back. -/
theorem State.fd_wrRw_dfdt (s : State) (v : BitVec 32) :
    (s.wrRw .DMP_MAX_DFDT 0 v).fd Fld.DMP_MAX_DFDT.DFDT = Fld.DMP_MAX_DFDT.DFDT.of v := by
  unfold State.wrRw State.fd
  refine (congrArg _ (State.rg_wr_same _ _ _ _)).trans ?_
  generalize s.rg .DMP_MAX_DFDT 0 = x
  have h : ((x &&& ~~~0xFFFF#32) ||| (v &&& 0xFFFF#32)).toNat % 65536 = v.toNat % 65536 := by
    have e : ((x &&& ~~~0xFFFF#32) ||| (v &&& 0xFFFF#32)).setWidth 16 = v.setWidth 16 := by
      ext i hi
      interval_cases i <;> simp
    have hn := congrArg BitVec.toNat e
    rwa [BitVec.toNat_setWidth, BitVec.toNat_setWidth] at hn
  have hm : BitVec.ofNat 32 (Reg.DMP_MAX_DFDT.row.rw ||| Reg.DMP_MAX_DFDT.row.rwg) = 0xFFFF#32 := rfl
  rw [hm]
  simp only [Fld.of, bitsOf, Fld.DMP_MAX_DFDT.DFDT, Nat.pow_zero, Nat.div_one]
  exact h

theorem of_dfdt {v : Nat} (h : v ≤ 10000) : Fld.DMP_MAX_DFDT.DFDT.of (BitVec.ofNat 32 v) = v := by
  simp only [Fld.of, bitsOf, Fld.DMP_MAX_DFDT.DFDT, BitVec.toNat_ofNat]
  omega

theorem State.fuseCeil_only (s : State) {v : Nat} (h : ¬ s.pwr.fuses.blown 4) :
    Keeps (maskOf [.hst, .pwr, .regs .damper]) s (s.fuseCeil v) := by
  have hf : ¬ s.pwr.fuses.dfdtCeil.isSome = true := fun e => h (.inr (.inr (.inr ⟨rfl, e⟩)))
  have hs := State.setFuses_keeps (Keeps.refl (maskOf [.hst, .pwr, .regs .damper]) s) (by decide) _ (Fuses.le_dfdt s.pwr.fuses (some v) hf)
  exact keeps_ite (State.dfdtWrite_keeps hs (by decide) _) hs

theorem State.fuseCeil_blows (s : State) {v : Nat} (h1 : 1 ≤ v) (hv : v ≤ 10000) :
    (s.fuseCeil v).pwr.fuses = { s.pwr.fuses with dfdtCeil := some v } ∧
      (s.fuseCeil v).fd Fld.DMP_MAX_DFDT.DFDT = Nat.min v (s.fd Fld.DMP_MAX_DFDT.DFDT) := by
  have hold : (s.setFuses { s.pwr.fuses with dfdtCeil := some v }).fd Fld.DMP_MAX_DFDT.DFDT = s.fd Fld.DMP_MAX_DFDT.DFDT := rfl
  have hp := s.setFuses_pwr { s.pwr.fuses with dfdtCeil := some v }
  unfold State.fuseCeil
  dsimp only
  rw [hold]
  generalize s.setFuses { s.pwr.fuses with dfdtCeil := some v } = u at hold hp ⊢
  split
  · next hlt =>
    have hok : u.dfdtOk (BitVec.ofNat 32 v) = true := by
      unfold State.dfdtOk State.dfdtCeil
      rw [of_dfdt hv, hp]
      exact decide_eq_true ⟨h1, Nat.le_min.2 ⟨hv, Nat.le_refl v⟩⟩
    have hw := (u.fd_wrRw_dfdt (BitVec.ofNat 32 v)).trans (of_dfdt hv)
    have he := u.wrRw_pwr .DMP_MAX_DFDT 0 (BitVec.ofNat 32 v)
    unfold State.dfdtWrite
    rw [if_pos hok]
    dsimp only
    rw [he, hp]
    exact ⟨rfl, hw.trans (Nat.min_eq_left (Nat.le_of_lt hlt)).symm⟩
  · next hle =>
    rw [hp, hold]
    exact ⟨rfl, (Nat.min_eq_right (Nat.le_of_not_lt hle)).symm⟩

/-- FUSE_PROGRAM, by what it finds (R372). -/
theorem fuseProgram_answers {s : State} {q : Fin 64} (cid : BitVec 32) (item value : BitVec 16) (hs : s.canStart q.val = true) :
    let c := Instr.fuseProgram q cid item value
    let f := s.pwr.fuses
    let n := item.toNat
    let v := value.toNat
    (s.pwr.pwrfail = true → Answers c s q.val cid .refused 0x0B [] (fun _ => True)) ∧
    (s.pwr.pwrfail = false → s.lifecycle = 3 → Answers c s q.val cid .refused 5 [] (fun _ => True)) ∧
    (s.pwr.pwrfail = false → s.lifecycle ≠ 3 →
      (f.blown n → Answers c s q.val cid .refused 6 [] (fun _ => True)) ∧
      (¬ f.blown n → fuseRange n v → Answers c s q.val cid .range 0 [] (fun _ => True)) ∧
      (¬ f.blown n → n = 1 → Answers c s q.val cid .ok 0 [.threads, .pwr, .regs .power] (fun t =>
        t.pwr.fuses = { f with invKill := true } ∧ t.pwr.debug ≠ .invasive)) ∧
      (¬ f.blown n → n = 2 → Answers c s q.val cid .ok 0 [.threads, .pwr, .regs .power] (fun t =>
        t.pwr.fuses = { f with invKill := true, obsKill := true } ∧ t.pwr.debug = .off)) ∧
      (¬ f.blown n → n = 3 → v ≤ 0xFF → Answers c s q.val cid .ok 0 [.pwr, .regs .mate] (fun t =>
        t.pwr.fuses = { f with matPrio := some (BitVec.ofNat 8 v) } ∧ t.fd Fld.MAT_PRIORITY.PRIO = v ∧
          t.fb Fld.MAT_PRIORITY.FUSED = true)) ∧
      (¬ f.blown n → n = 4 → 1 ≤ v → v ≤ 10000 → Answers c s q.val cid .ok 0 [.pwr, .regs .damper] (fun t =>
        t.pwr.fuses = { f with dfdtCeil := some v } ∧ t.fd Fld.DMP_MAX_DFDT.DFDT = Nat.min v (s.fd Fld.DMP_MAX_DFDT.DFDT)))) := by
  intro c f n v
  have hp := s.fetchCmd_pwr q.val
  have hl : (s.fetchCmd q.val).lifecycle = s.lifecycle := rfl
  have hbl : (s.fetchCmd q.val).pwr.fuses = f := congrArg PwrState.fuses hp
  have item_ : ∀ {m : Nat} {x}, n = m → (s.fetchCmd q.val).fuseProgram m v = x → (s.fetchCmd q.val).fuseProgram n v = x :=
    fun e h => e ▸ h
  refine ⟨fun h => ?_, fun h h3 => ?_, fun h h3 => ⟨fun hb => ?_, fun hb hr => ?_, fun hb h1 => ?_, fun hb h2 => ?_, fun hb hn hv => ?_,
    fun hb hn h1 hv => ?_⟩⟩
  · exact answers_nothing rfl hs (State.fuseProgram_pwrfail (by rw [hp, h]))
  · exact answers_nothing rfl hs (State.fuseProgram_retired (by rw [hp, h]) (hl.trans h3))
  · exact answers_nothing rfl hs (State.fuseProgram_blown (by rw [hp, h]) (by rwa [hl]) (by rwa [hbl]))
  · exact answers_nothing rfl hs (State.fuseProgram_range (by rw [hp, h]) (by rwa [hl]) (by rwa [hbl]) hr)
  · rw [h1] at hb
    refine answers rfl hs (item_ h1 (State.fuseProgram_invasive (by rw [hp, h]) (by rwa [hl]) (by rwa [hbl])))
      (State.killInvasive_keeps _) (by decide) fun ho => ?_
    have hk := (s.fetchCmd q.val).killInvasive_kills
    rwa [← show State.pwr _ = _ from ho.same .pwr (by decide), hbl] at hk
  · rw [h2] at hb
    refine answers rfl hs (item_ h2 (State.fuseProgram_observe (by rw [hp, h]) (by rwa [hl]) (by rwa [hbl])))
      (State.killObserve_keeps _) (by decide) fun ho => ?_
    have hk := (s.fetchCmd q.val).killObserve_kills
    rwa [← show State.pwr _ = _ from ho.same .pwr (by decide), hbl] at hk
  · rw [hn] at hb
    refine answers rfl hs (item_ hn (State.fuseProgram_prio (by rw [hp, h]) (by rwa [hl]) (by rwa [hbl]) hv))
      (State.fusePrio_keeps _ _ (by rwa [hbl])) (by decide) fun ho => ?_
    have hk := (s.fetchCmd q.val).fusePrio_blows hv
    rwa [← show State.pwr _ = _ from ho.same .pwr (by decide), hbl, ← ho.fd (f := Fld.MAT_PRIORITY.PRIO) (by decide),
      ← ho.fb (f := Fld.MAT_PRIORITY.FUSED) (by decide)] at hk
  · rw [hn] at hb
    have hu := (s.fetchCmd q.val).fuseCeil_only (v := v) (by rwa [hbl])
    refine answers_of rfl hs (item_ hn (State.fuseProgram_ceil (by rw [hp, h]) (by rwa [hl]) (by rwa [hbl]) h1 hv))
      (hu.onlyOf.mono (by decide)) (hu.rg (by decide) _) (hu.rg (by decide) _) fun ho => ?_
    have hk := (s.fetchCmd q.val).fuseCeil_blows h1 hv
    rwa [← show State.pwr _ = _ from ho.same .pwr (by decide), hbl, ← ho.fd (f := Fld.DMP_MAX_DFDT.DFDT) (by decide),
      s.fd_fetchCmd q.val Fld.DMP_MAX_DFDT.DFDT 0 (by decide)] at hk

end Sys2Proof.Machine
end

section
/-!
Provisioning, the field, retirement and the boot store (R373 to R376).
-/
namespace Sys2Proof.Machine

/-! ### PROVISION -/

theorem State.ownHash_keeps (s : State) (h : List Byte) : Keeps (maskOf [.regs .key]) s (s.hashRegs .KEY_OWNHASH h) :=
  State.hashRegs_keeps (Keeps.refl _ s) (Nat.zero_and _) (by decide) h

/-- The host's own state after a completion: the rings apart, it is as it was. -/
theorem State.complete_outBuf (s : State) (q : Nat) (cid : BitVec 32) (st : Status) (n : Nat) :
    (s.complete q cid st n).hst.outBuf = s.hst.outBuf := by
  have hl := ((s.ringed q (s.completion q cid st n)).tailMoved q).irqLine_keeps_stat q
    (decide (((s.ringed q (s.completion q cid st n)).tailMoved q).fd Fld.HST_Q_CQ_TAIL.CQ_TAIL q ≠
      ((s.ringed q (s.completion q cid st n)).tailMoved q).fd Fld.HST_Q_CQ_HEAD.CQ_HEAD q))
  have hh : (s.complete q cid st n).hst = (s.ringed q (s.completion q cid st n)).hst :=
    (hl.same .hst (by decide)).trans (State.tailMoved_hst _ q)
  rw [hh]
  rfl

theorem State.output_outBuf (s : State) (q : Nat) (bs : List Byte) : SMap.get (fun _ => []) (s.output q bs).hst.outBuf q = bs :=
  SMap.get_set_same _ _ _ _ _

theorem State.fuseOwner_owns (s : State) (owner : List Byte) :
    (s.fuseOwner owner).pwr.fuses = { s.pwr.fuses with owner := owner, ownerSet := true, lcP := true } ∧
      (s.fuseOwner owner).cairn = { s.cairn with tkOut := true } ∧ (s.fuseOwner owner).fb Fld.KEY_STAT.TK_RELEASED = true := by
  unfold State.fuseOwner
  dsimp only
  have hk := (s.setFuses { s.pwr.fuses with owner := owner, ownerSet := true, lcP := true }).ownHash_keeps owner
  have hp := s.setFuses_pwr { s.pwr.fuses with owner := owner, ownerSet := true, lcP := true }
  have hc : (s.setFuses { s.pwr.fuses with owner := owner, ownerSet := true, lcP := true }).cairn = s.cairn := rfl
  generalize s.setFuses { s.pwr.fuses with owner := owner, ownerSet := true, lcP := true } = u at hk hp hc ⊢
  have h1 : (u.hashRegs .KEY_OWNHASH owner).pwr = u.pwr := hk.same .pwr (by decide)
  have h2 : (u.hashRegs .KEY_OWNHASH owner).cairn = u.cairn := hk.same .cairn (by decide)
  refine ⟨?_, ?_, State.fb_setB_same _ _ _ _ (by decide) (by decide)⟩
  · rw [State.setB_pwr]
    dsimp only
    rw [h1, hp]
  · rw [State.setB_cairn]
    dsimp only
    rw [h2, hc]

section
variable {s : State} {owner : List Byte}

theorem State.provision_pwrfail (h : s.pwr.pwrfail = true) : s.provision owner = .inl 0x0B := if_pos h

theorem State.provision_late (h : s.pwr.pwrfail = false) (h0 : s.lifecycle ≠ 0) (h1 : s.lifecycle ≠ 1) : s.provision owner = .inl 0x05 := by
  unfold State.provision
  rw [if_neg (by rw [h]; decide), if_pos ⟨h0, h1⟩]

theorem State.provision_released (h : s.pwr.pwrfail = false) (h1 : s.lifecycle = 1) (ht : s.cairn.tkOut = true) :
    s.provision owner = .inl 0x08 := by
  unfold State.provision
  rw [if_neg (by rw [h]; decide), if_neg (fun e => e.2 h1), if_pos ⟨h1, ht⟩]

variable (h : s.pwr.pwrfail = false) (hl : s.lifecycle = 0 ∨ (s.lifecycle = 1 ∧ s.cairn.tkOut = false))
include h hl

theorem State.provision_unfit (hf : hashFits s.ownerHash owner = false) : s.provision owner = .inl 0x06 := by
  unfold State.provision
  rw [if_neg (by rw [h]; decide), if_neg (by omega), if_neg, if_pos (.inl (by rw [hf]; rfl))]
  rintro ⟨h1, ht⟩
  rcases hl with h0 | ⟨-, hf⟩
  · omega
  · exact absurd (ht.symm.trans hf) (by decide)

theorem State.provision_done (hf : hashFits s.ownerHash owner = true) (ho : s.lifecycle = 0 ∨ s.ownerHash = owner) :
    s.provision owner = .inr (s.fuseOwner owner) := by
  unfold State.provision
  rw [if_neg (by rw [h]; decide), if_neg (by omega), if_neg, if_neg]
  · rintro (hn | ⟨h1, hne⟩)
    · rw [hf] at hn
      exact absurd hn (by decide)
    · rcases ho with h0 | he
      · omega
      · exact hne he
  · rintro ⟨h1, ht⟩
    rcases hl with h0 | ⟨-, hf⟩
    · omega
    · exact absurd (ht.symm.trans hf) (by decide)

end

/-- PROVISION, from the verdict on it. -/
theorem provision_refused {s : State} {q : Fin 64} {cid buflen : BitVec 32} {owner qT : List Byte} {r : Nat}
    (hs : s.canStart q.val = true) (hr : owner.length = 48 ∧ qT.length = 97 ∧ 40 ≤ buflen.toNat)
    (hv : (s.fetchCmd q.val).provision owner = .inl r) :
    Answers (.provision q cid owner qT buflen) s q.val cid .refused r [] (fun _ => True) := by
  refine answers_nothing rfl hs ?_
  rw [if_neg (by omega), hv]

/-- PROVISION, from a verdict that lets it through: the wrapped transport key goes to the buffer. -/
theorem provision_passed {s u : State} {q : Fin 64} {cid buflen : BitVec 32} {owner qT : List Byte} {P : State → Prop}
    (hs : s.canStart q.val = true) (hr : owner.length = 48 ∧ qT.length = 97 ∧ 40 ≤ buflen.toNat)
    (hv : (s.fetchCmd q.val).provision owner = .inr u) (hu : Keeps (maskOf [.pwr, .cairn, .regs .key]) (s.fetchCmd q.val) u)
    (hP : ∀ t, Only completing u t →
      SMap.get (fun _ => []) t.hst.outBuf q.val = Config.aesWrap (Config.ecdh qT) Config.transportKey → P t) :
    Answers (.provision q cid owner qT buflen) s q.val cid .ok 0 [.pwr, .cairn, .regs .key] P := by
  have hk : Keeps (maskOf [.hst, .pwr, .cairn, .regs .key]) (s.fetchCmd q.val) (u.output q.val
      (Config.aesWrap (Config.ecdh qT) Config.transportKey)) :=
    State.output_keeps (hu.mono (by decide)) (by decide) _ _
  have ho := (State.output_keeps (Keeps.refl (maskOf [.hst]) u) (by decide) q.val (Config.aesWrap (Config.ecdh qT) Config.transportKey)).onlyOf
  refine answers_of (c := .provision q cid owner qT buflen) (u := u.output q.val (Config.aesWrap (Config.ecdh qT) Config.transportKey)) rfl hs
    ?_ (hk.onlyOf.mono (by decide)) (hk.rg (by decide) _) (hk.rg (by decide) _) fun hd => hP _ ((ho.trans hd).mono (by decide)) ?_
  · rw [if_neg (by omega), hv]
  · rw [State.complete_outBuf]
    exact u.output_outBuf _ _

/-- PROVISION carried out (R374). -/
theorem provision_done {s : State} {q : Fin 64} {cid buflen : BitVec 32} {owner qT : List Byte}
    (hs : s.canStart q.val = true) (hr : owner.length = 48 ∧ qT.length = 97 ∧ 40 ≤ buflen.toNat)
    (hv : (s.fetchCmd q.val).provision owner = .inr ((s.fetchCmd q.val).fuseOwner owner)) :
    Answers (.provision q cid owner qT buflen) s q.val cid .ok 0 [.pwr, .cairn, .regs .key] (fun t =>
      t.pwr.fuses = { s.pwr.fuses with owner := owner, ownerSet := true, lcP := true } ∧ t.cairn = { s.cairn with tkOut := true } ∧
        t.fb Fld.KEY_STAT.TK_RELEASED = true ∧
        SMap.get (fun _ => []) t.hst.outBuf q.val = Config.aesWrap (Config.ecdh qT) Config.transportKey) := by
  obtain ⟨fuses, cairn, released⟩ := (s.fetchCmd q.val).fuseOwner_owns owner
  rw [s.fetchCmd_pwr] at fuses
  rw [show (s.fetchCmd q.val).cairn = s.cairn from State.setF_cairn _ _ _ _] at cairn
  have hu := State.fuseOwner_keeps (Keeps.refl (maskOf [.pwr, .cairn, .regs .key]) (s.fetchCmd q.val)) (by decide) owner
  generalize (s.fetchCmd q.val).fuseOwner owner = u at fuses cairn released hu hv
  exact provision_passed hs hr hv hu fun t ho hb => ⟨(congrArg PwrState.fuses (ho.same .pwr (by decide))).trans fuses,
    (ho.same .cairn (by decide)).trans cairn, (ho.fb (f := Fld.KEY_STAT.TK_RELEASED) (by decide) 0).trans released, hb⟩

/-! ### ADVANCE_FIELD -/

section
variable {s : State}

theorem State.advanceField_pwrfail (h : s.pwr.pwrfail = true) : s.advanceField = (s, .refused, 0x0B) := if_pos h

variable (h : s.pwr.pwrfail = false)
include h

theorem State.advanceField_late (hl : s.lifecycle ≠ 1) : s.advanceField = (s, .refused, 0x05) := by
  unfold State.advanceField
  rw [if_neg (by rw [h]; decide), if_pos hl]

theorem State.advanceField_debugged (hl : s.lifecycle = 1) (hd : s.pwr.debug = .invasive) : s.advanceField = (s, .refused, 0x07) := by
  unfold State.advanceField
  rw [if_neg (by rw [h]; decide), if_neg (not_not.2 hl), if_pos hd]

theorem State.advanceField_done (hl : s.lifecycle = 1) (hd : s.pwr.debug ≠ .invasive) :
    s.advanceField = (s.setFuses { s.pwr.fuses with lcF := true }, .ok, 0) := by
  unfold State.advanceField
  rw [if_neg (by rw [h]; decide), if_neg (not_not.2 hl), if_neg hd]

end

/-! ### RETIRE -/

/-- The slots of the controller's memory, cleared one after the other. -/
def State.clearSlots (s : State) : State := (List.range 64).foldl (fun s i => s.loadSlot i none) s

theorem State.slotKey_loadNone (s : State) (i j : Nat) : (s.loadSlot i none).slotKey j = if j = i then none else s.slotKey j := by
  have hk : (s.loadSlot i none).key.slots = SMap.erase s.key.slots i := rfl
  unfold State.slotKey
  rw [hk]
  split_ifs with h
  · rw [h, SMap.find_erase_same]
  · rw [SMap.find_erase_other _ _ _ h]

theorem State.clearSlots_slots (s : State) (j : Nat) (h : j < 64) : s.clearSlots.slotKey j = none := by
  have step : ∀ (l : List Nat) (s : State), s.slotKey j = none ∨ j ∈ l → (l.foldl (fun s i => s.loadSlot i none) s).slotKey j = none := by
    intro l
    induction l with
    | nil => exact fun s h => h.resolve_right List.not_mem_nil
    | cons i r ih =>
      intro s h
      refine ih _ ?_
      rw [State.slotKey_loadNone]
      split_ifs with hj
      · exact .inl rfl
      · exact h.imp id fun hm => (List.mem_cons.1 hm).resolve_left hj
  exact step _ s (.inr (List.mem_range.2 h))

theorem State.loadNone_env (s : State) (i : Nat) : (s.loadSlot i none).key.env = s.key.env := rfl

theorem State.clearSlots_env (s : State) : s.clearSlots.key.env = s.key.env := by
  unfold State.clearSlots
  exact foldl_unchanged (f := fun u : State => u.key.env) (g := fun s i => s.loadSlot i none) State.loadNone_env _ s

/-- The key records gone from the store. -/
def State.dropRecords (s : State) : State := { s with cairn := { s.cairn with keys := [], keyCtr := (0, 0) } }

theorem State.destroyKeys_eq (s : State) : s.destroyKeys =
    ((s.dropRecords.clearSlots.setPair .KEY_COUNTER_HI .KEY_COUNTER_LO 0).hgenBump).setKeyState 3 := rfl

theorem State.slotKey_congr {s t : State} (h : t.key = s.key) (i : Nat) : t.slotKey i = s.slotKey i := by
  unfold State.slotKey
  rw [h]

/-- The key state shown, with the interrupt of its change. -/
theorem State.setKeyState_shows (s : State) {n : Nat} (hn : n < 4) : (s.setKeyState n).fd Fld.KEY_STAT.STATE = n := by
  unfold State.setKeyState
  split
  · assumption
  · have hk := State.irqPulse_keeps (Keeps.refl (maskOf [.irq, .regs .irqStat]) (s.setF Fld.KEY_STAT.STATE n)) (by decide) 110 n
    refine (hk.fd (f := Fld.KEY_STAT.STATE) (by decide) 0).trans ?_
    exact (State.fd_setF_same _ Fld.KEY_STAT.STATE n 0 (by decide) (by decide)).trans (Nat.mod_eq_of_lt hn)

/-- What destroying the keys leaves (R284). -/
theorem State.destroyKeys_destroys (s : State) :
    s.destroyKeys.cairn.keys = [] ∧ s.destroyKeys.key.env = s.key.env ∧ s.destroyKeys.fd Fld.KEY_STAT.STATE = 3 ∧
      ∀ i < 64, s.destroyKeys.slotKey i = none := by
  have hs := s.dropRecords.clearSlots_slots
  have he := s.dropRecords.clearSlots_env
  have hc : s.dropRecords.clearSlots.cairn = s.dropRecords.cairn :=
    (keeps_foldl (Keeps.refl (maskOf [.key, .regs .key]) s.dropRecords) fun _ i hu => State.loadSlot_keeps hu (by decide) i none).same
      .cairn (by decide)
  rw [State.destroyKeys_eq]
  generalize s.dropRecords.clearSlots = u at hs he hc ⊢
  have hk : Keeps (maskOf [.derived, .irq, .regs .key, .regs .irqStat]) u
      (((u.setPair .KEY_COUNTER_HI .KEY_COUNTER_LO 0).hgenBump).setKeyState 3) :=
    State.setKeyState_keeps (State.hgenBump_keeps (State.setPair_keeps (Keeps.refl _ u) (Nat.zero_and _) (by decide) (by decide) 0 0)
      (by decide)) (by decide) 3
  have hkey : (((u.setPair .KEY_COUNTER_HI .KEY_COUNTER_LO 0).hgenBump).setKeyState 3).key = u.key := hk.same .key (by decide)
  refine ⟨?_, ?_, State.setKeyState_shows _ (by decide), fun i hi => (State.slotKey_congr hkey i).trans (hs i hi)⟩
  · rw [show State.cairn _ = u.cairn from hk.same .cairn (by decide), hc, State.dropRecords]
  · rw [hkey, he, State.dropRecords]

/-- The state with LC_R blown and a key update in verification ended. -/
def State.retireStop (s : State) : State := (s.setFuses { s.pwr.fuses with lcR := true }).envStop 0x02 .refused

theorem State.envEnd_env (s : State) (n : Nat) : (s.envEnd n).key.env = none := by
  unfold State.envEnd
  split
  · assumption
  · dsimp only
    split <;> rfl

/-- The parts that ending a key update reaches. -/
def stopping : List Part := [.hst, .irq, .key, .regs .host, .regs .key, .regs .irqStat]

theorem State.envStop_env (s : State) (n : Nat) (st : Status) : (s.envStop n st).key.env = none := by
  unfold State.envStop
  split
  · assumption
  · exact (congrArg KeyState.env ((State.complete_parts _ _ _ _ _).same .key (by decide))).trans (s.envEnd_env n)

/-- Ending a key update writes the ring of its own queue alone. -/
theorem State.envStop_queue {s : State} {q : Nat} (h : s.outstanding q = false) (n : Nat) (st : Status) :
    (s.envStop n st).rg .HST_Q_CQ_TAIL q = s.rg .HST_Q_CQ_TAIL q ∧ (s.envStop n st).rg .HST_Q_SQ_HEAD q = s.rg .HST_Q_SQ_HEAD q := by
  have hk := State.envEnd_keeps (Keeps.refl (maskOf [.key, .regs .key]) s) (by decide) n
  have ht := hk.rg (r := .HST_Q_CQ_TAIL) (by decide) q
  have hh := hk.rg (r := .HST_Q_SQ_HEAD) (by decide) q
  unfold State.envStop
  unfold State.outstanding at h
  split
  · exact ⟨rfl, rfl⟩
  · next x hx =>
    rw [hx] at h
    have hq : q ≠ x.q := fun e => of_decide_eq_false h e.symm
    exact ⟨(State.rg_complete _ _ _ _ _ q (.inr hq) (by decide)).trans ht,
      (State.rg_complete _ _ _ _ _ q (.inl (by decide)) (by decide)).trans hh⟩

/-- What RETIRE blows and destroys. -/
def State.retired (s : State) : State := s.retireStop.destroyKeys

theorem State.retired_keeps (s : State) :
    Keeps (maskOf (completing ++ [.derived, .key, .pwr, .cairn, .regs .key])) s s.retired :=
  State.destroyKeys_keeps (State.envStop_keeps (State.setFuses_keeps (Keeps.refl _ s) (by decide) _ (Fuses.le_retire s.pwr.fuses))
    (by decide) _ _) (by decide)

theorem State.retired_fuses (s : State) : s.retired.pwr.fuses = { s.pwr.fuses with lcR := true } := by
  have h1 : s.retired.pwr = s.retireStop.pwr :=
    (State.destroyKeys_keeps (Keeps.refl (maskOf [.derived, .irq, .key, .cairn, .regs .key, .regs .irqStat]) s.retireStop) (by decide)).same
      .pwr (by decide)
  have h2 : s.retireStop.pwr = (s.setFuses { s.pwr.fuses with lcR := true }).pwr :=
    (State.envStop_keeps (Keeps.refl (maskOf stopping) (s.setFuses { s.pwr.fuses with lcR := true })) (by decide) _ _).same .pwr (by decide)
  rw [h1, h2, State.setFuses_pwr]

theorem State.retired_queue {s : State} {q : Nat} (h : s.outstanding q = false) :
    s.retired.rg .HST_Q_CQ_TAIL q = s.rg .HST_Q_CQ_TAIL q ∧ s.retired.rg .HST_Q_SQ_HEAD q = s.rg .HST_Q_SQ_HEAD q := by
  have hk := State.destroyKeys_keeps (Keeps.refl (maskOf [.derived, .irq, .key, .cairn, .regs .key, .regs .irqStat]) s.retireStop) (by decide)
  obtain ⟨tail, head⟩ := State.envStop_queue (s := s.setFuses { s.pwr.fuses with lcR := true }) (q := q) h 0x02 .refused
  exact ⟨(hk.rg (r := .HST_Q_CQ_TAIL) (by decide) q).trans tail, (hk.rg (r := .HST_Q_SQ_HEAD) (by decide) q).trans head⟩

/-- A retirement order in its form. -/
def orderFramed (file : List Byte) : Prop := file.length = 160 ∧ leAt file 0 4 = 0x52455401 ∧ allZero (sliceAt file 4 12) = true

section
variable {s : State} {file : List Byte}

theorem State.retire_pwrfail (h : s.pwr.pwrfail = true) : s.retire file = (s, .refused, 0x0B) := if_pos h

theorem State.retire_retired (h : s.pwr.pwrfail = false) (hl : s.lifecycle = 3) : s.retire file = (s, .refused, 0x05) := by
  unfold State.retire
  rw [if_neg (by rw [h]; decide), if_pos hl]

theorem State.retire_blank (h : s.pwr.pwrfail = false) (hl : s.lifecycle = 0) : s.retire file = (s.retired, .ok, 0) := by
  unfold State.retire
  rw [if_neg (by rw [h]; decide), if_neg (by omega), if_pos hl]
  rfl

variable (h : s.pwr.pwrfail = false) (h0 : s.lifecycle ≠ 0) (h3 : s.lifecycle ≠ 3)
include h h0 h3

theorem State.retire_unframed (hf : ¬ orderFramed file) : s.retire file = (s, .buffer, 0) := by
  have hn : file.length ≠ 160 ∨ leAt file 0 4 ≠ 0x52455401 ∨ (!allZero (sliceAt file 4 12)) = true := by
    rw [Bool.not_eq_true', ← Bool.not_eq_true]
    unfold orderFramed at hf
    tauto
  unfold State.retire
  rw [if_neg (by rw [h]; decide), if_neg h3, if_neg h0, if_pos hn]

theorem State.retire_framed (hf : orderFramed file) : s.retire file =
    if sliceAt file 0x10 48 ≠ identityHash then (s, .refused, 0x03)
    else if !Config.ecdsaVerify s.ownerHash (file.take 0x40) (sliceAt file 0x40 96) then (s, .refused, 0x04)
    else (s.retired, .ok, 0) := by
  have hn : ¬ (file.length ≠ 160 ∨ leAt file 0 4 ≠ 0x52455401 ∨ (!allZero (sliceAt file 4 12)) = true) := by
    rw [Bool.not_eq_true', ← Bool.not_eq_true]
    unfold orderFramed at hf
    tauto
  unfold State.retire
  rw [if_neg (by rw [h]; decide), if_neg h3, if_neg h0, if_neg hn]
  rfl

end

/-- RETIRE carried out (R375). -/
theorem retire_done {s : State} {q : Fin 64} {cid : BitVec 32} {file : List Byte} (hs : s.canStart q.val = true)
    (hr : (s.fetchCmd q.val).retire file = ((s.fetchCmd q.val).retired, .ok, 0)) :
    Answers (.retire q cid file) s q.val cid .ok 0 [.derived, .key, .pwr, .cairn, .regs .key] (fun t =>
      t.pwr.fuses = { s.pwr.fuses with lcR := true } ∧ t.cairn.keys = [] ∧ t.key.env = none ∧ t.fd Fld.KEY_STAT.STATE = 3 ∧
        ∀ i < 64, t.slotKey i = none) := by
  have ho : (s.fetchCmd q.val).outstanding q.val = false := by
    simp only [State.canStart, Bool.and_eq_true, Bool.not_eq_true'] at hs
    obtain ⟨⟨-, ho⟩, -⟩ := hs
    exact ho
  obtain ⟨tail, head⟩ := State.retired_queue ho
  have hf := (s.fetchCmd q.val).retired_fuses
  rw [s.fetchCmd_pwr] at hf
  obtain ⟨keys, env, state, slots⟩ := (s.fetchCmd q.val).retireStop.destroyKeys_destroys
  have hk := (s.fetchCmd q.val).retired_keeps.onlyOf
  have henv : (s.fetchCmd q.val).retireStop.key.env = none := State.envStop_env _ _ _
  rw [henv] at env
  refine answers_of (c := .retire q cid file) rfl hs hr hk tail head fun hd => ?_
  have hkey : State.key _ = State.key _ := hd.same .key (by decide)
  refine ⟨(congrArg PwrState.fuses (hd.same .pwr (by decide))).trans hf, (congrArg Cairn.keys (hd.same .cairn (by decide))).trans keys,
    (congrArg KeyState.env hkey).trans env, (hd.fd (f := Fld.KEY_STAT.STATE) (by decide) 0).trans state,
    fun i hi => (State.slotKey_congr hkey i).trans (slots i hi)⟩

/-! ### The boot store -/

theorem State.bootShow_pwr (s : State) : s.bootShow.pwr = s.pwr := by
  unfold State.bootShow
  rw [State.setF_pwr, State.setF_pwr]

theorem State.bootShow_empty {s : State} (h : s.pwr.boot = []) :
    s.bootShow.fd Fld.SEC_BOOT.STORED = 0 ∧ s.bootShow.fd Fld.SEC_BOOT.USED = 0 := by
  unfold State.bootShow
  rw [h]
  refine ⟨State.fd_setF_same _ _ _ _ (by decide) (by decide), ?_⟩
  rw [State.fd_setF_other _ _ _ _ _ _ (by decide) (by decide) (by decide) (by decide)]
  exact State.fd_setF_same _ _ _ _ (by decide) (by decide)

/-- The boot store after BOOT_STORE's entry replaces those of the cores it names. -/
def bootAfter (l : List BootEntry) (mask : BitVec 128) (file : List Byte) : List BootEntry :=
  let kept := (l.map (fun e => { e with cores := e.cores.filter (fun k => !(maskCores mask).contains k) })).filter
    (fun e => decide (e.cores ≠ []))
  if maskCores mask = [] then kept else kept ++ [⟨maskCores mask, file⟩]

/-- The state with its boot store replaced. -/
def State.setBoot (s : State) (l : List BootEntry) : State := ({ s with pwr := { s.pwr with boot := l } }).bootShow

theorem State.setBoot_pwr (s : State) (l : List BootEntry) : (s.setBoot l).pwr = { s.pwr with boot := l } := State.bootShow_pwr _

theorem State.bootStore_eq (s : State) (mask : BitVec 128) (file : List Byte) : s.bootStore mask file =
    match s.imageCheck file with
    | .inl r => (s.imageRefused r, .refused, r)
    | .inr _ =>
      if bootRoom < bootUsed (bootAfter s.pwr.boot mask file) then (s, .noResource, 0)
      else (s.setBoot (bootAfter s.pwr.boot mask file), .ok, 0) := rfl

/-- A write of the supplies' own state that unblows no fuse. -/
theorem State.setPwr_keeps {m : Nat} {z s : State} (h : Keeps m z s) (hm : 0x20000000 &&& m = 0x20000000) (p : PwrState)
    (hf : Fuses.Le s.pwr.fuses p.fuses) : Keeps m z { s with pwr := p } := by
  simp only [keeps_mk]
  refine keeps_upd h ?_ ?_ ?_ ?_ ?_ ?_ ?_ ?_ ?_ ?_ ?_ ?_ ?_ ?_ ?_ ?_ ?_ ?_ ?_ ?_ ?_ ?_ ?_ ?_ ?_ ?_ ?_ ?_ ?_ ?_ ?_ ?_ ?_ id id
    hf <;> first | exact same_rfl | exact same_bit (by decide) hm

theorem State.setBoot_keeps (s : State) (l : List BootEntry) : Keeps (maskOf [.pwr, .regs .power]) s (s.setBoot l) :=
  State.bootShow_keeps (State.setPwr_keeps (Keeps.refl _ s) (by decide) _ (Fuses.Le.refl _)) (by decide)

/-- The fault of a refused image. -/
def refusedFault (r : Nat) : Raise := { rec_ := 466, cause := 25, cls := 0, reason := r }

theorem State.imageRefused_eq (s : State) (r : Nat) : s.imageRefused r = s.raise (refusedFault r) := rfl

theorem refusedFault_minor (r : Nat) : (refusedFault r).cls ≠ 3 := by simp [refusedFault]

theorem State.imageRefused_raises {s : State} (h : s.coreUp = true) (r : Nat) : Raised (s.imageRefused r) 466 25 := by
  rw [State.imageRefused_eq]
  exact State.raise_minor_raised (r := refusedFault r) (refusedFault_minor r) h (show 25 < 32 by decide)

theorem State.imageRefused_only (s : State) (r : Nat) : Keeps (maskOf raising) s (s.imageRefused r) := by
  rw [State.imageRefused_eq]
  exact State.raise_minor_keeps (refusedFault_minor r) (Keeps.refl _ s) rfl

/-- BOOT_STORE, by what it finds (R376). -/
theorem bootStore_answers {s : State} {q : Fin 64} (cid : BitVec 32) (mask : BitVec 128) (file : List Byte) (hs : s.canStart q.val = true) :
    match s.imageCheck file with
    | .inl r => Answers (.bootStore q cid mask file) s q.val cid .refused r raising (fun t => t.pwr.boot = s.pwr.boot ∧ Raised t 466 25)
    | .inr _ =>
      if bootRoom < bootUsed (bootAfter s.pwr.boot mask file) then
        Answers (.bootStore q cid mask file) s q.val cid .noResource 0 [] (fun _ => True)
      else Answers (.bootStore q cid mask file) s q.val cid .ok 0 [.pwr, .regs .power] (fun t =>
        t.pwr = { s.pwr with boot := bootAfter s.pwr.boot mask file }) := by
  have he := (s.fetchCmd q.val).bootStore_eq mask file
  rw [show (s.fetchCmd q.val).imageCheck file = s.imageCheck file from rfl, s.fetchCmd_pwr] at he
  cases hc : s.imageCheck file with
  | inl r =>
    rw [hc] at he
    have hs' := State.coreUp_of_canStart hs
    have hup : (s.fetchCmd q.val).coreUp = true := hs'
    have hraised := State.imageRefused_raises hup r
    have hk := (s.fetchCmd q.val).imageRefused_only r
    have hpwr : ((s.fetchCmd q.val).imageRefused r).pwr = s.pwr := (hk.same .pwr (by decide)).trans (s.fetchCmd_pwr q.val)
    dsimp only at he ⊢
    generalize (s.fetchCmd q.val).imageRefused r = u at he hraised hk hpwr
    refine answers (c := .bootStore q cid mask file) rfl hs he hk (by decide) fun ho => ⟨?_, ?_⟩
    · exact congrArg PwrState.boot (Eq.trans (ho.same .pwr (by decide)) hpwr)
    · exact hraised.keeps (State.complete_parts _ _ _ _ _) (by decide)
  | inr x =>
    rw [hc] at he
    dsimp only at he ⊢
    split
    · next hroom => exact answers_nothing (c := .bootStore q cid mask file) rfl hs (he.trans (if_pos hroom))
    · next hroom =>
      refine answers (c := .bootStore q cid mask file) rfl hs (he.trans (if_neg hroom)) (State.setBoot_keeps _ _) (by decide) fun ho => ?_
      rw [show State.pwr _ = State.pwr _ from ho.same .pwr (by decide), State.setBoot_pwr, s.fetchCmd_pwr]

/-- Settles O57: each command by what it finds, then the parts its effect reaches. -/
theorem lifeCommands : Obligations.LifeCommands := by
  unfold Obligations.LifeCommands
  intro s q cid word buflen item value mask file owner qT f ans no rs regs hs
  have hp := s.fetchCmd_pwr q.val
  have hl : (s.fetchCmd q.val).lifecycle = s.lifecycle := rfl
  have hh : (s.fetchCmd q.val).ownerHash = s.ownerHash := rfl
  have ht : (s.fetchCmd q.val).cairn.tkOut = s.cairn.tkOut := rfl
  refine ⟨?_, regionUngate_answers cid word hs, fuseProgram_answers cid item value hs, ⟨fun hr => ?_, fun hr hf => ?_,
    fun hr hf => ⟨fun h0 h1 => ?_, fun h1 hk => ?_, fun hlc => ⟨fun hu => ?_, fun hu ho => ?_⟩⟩⟩, ⟨fun hf => ?_, fun hf h1 => ?_,
    fun hf h1 hd => ?_, fun hf h1 hd => ?_⟩, ⟨fun hf => ?_, fun hf h3 => ?_, fun hf h0 => ?_, fun hf h0 h3 => ⟨fun hn => ?_, fun hn => ?_⟩⟩,
    bootStore_answers cid mask file hs, ?_⟩
  · obtain ⟨opcode, busy, armed, ok⟩ := regionGate_answers cid word hs
    refine ⟨opcode, busy, armed, fun hw hb ha => ?_⟩
    obtain ⟨t, step, head, report, ⟨gated, gnss, shown, threads, octets, regs⟩, only⟩ := ok hw hb ha
    rw [hp] at gated gnss shown
    refine ⟨t, step, head, report, ⟨fun r hr => (gated r).2 (.inl hr), fun r hr => (gated r).trans (or_iff_right hr), gnss, shown,
      fun r hr th hth => ?_, octets, fun r i hr => ?_⟩, only⟩
    · rw [threads, hth, if_pos hr]
    · rw [regs r i hr, s.rg_fetchCmd q.val i fun e => hr (by rw [e]; decide)]
  · refine answers_nothing (c := .provision q cid owner qT buflen) rfl hs ?_
    rw [if_pos (by omega)]
  · exact provision_refused hs hr (State.provision_pwrfail (by rw [hp, hf]))
  · exact provision_refused hs hr (State.provision_late (by rw [hp, hf]) h0 h1)
  · exact provision_refused hs hr (State.provision_released (by rw [hp, hf]) h1 hk)
  · exact provision_refused hs hr (State.provision_unfit (by rw [hp, hf]) hlc hu)
  · exact provision_done hs hr (State.provision_done (by rw [hp, hf]) hlc hu ho)
  · exact answers_nothing rfl hs (State.advanceField_pwrfail (by rw [hp, hf]))
  · exact answers_nothing rfl hs (State.advanceField_late (by rw [hp, hf]) h1)
  · exact answers_nothing rfl hs (State.advanceField_debugged (by rw [hp, hf]) h1 (by rw [hp, hd]))
  · refine answers rfl hs (State.advanceField_done (by rw [hp, hf]) h1 (by rwa [hp])) (State.setFuses_keeps (Keeps.refl _ _) (by decide) _
      (Fuses.le_field _)) (by decide) fun ho => ?_
    rw [show State.pwr _ = State.pwr _ from ho.same .pwr (by decide), State.setFuses_pwr, hp]
  · exact answers_nothing rfl hs (State.retire_pwrfail (by rw [hp, hf]))
  · exact answers_nothing rfl hs (State.retire_retired (by rw [hp, hf]) h3)
  · exact retire_done hs (State.retire_blank (by rw [hp, hf]) h0)
  · exact answers_nothing rfl hs (State.retire_unframed (by rw [hp, hf]) h0 h3 hn)
  · have he := State.retire_framed (s := s.fetchCmd q.val) (by rw [hp, hf]) h0 h3 hn
    rw [hh] at he
    split_ifs with hid hv
    · exact answers_nothing rfl hs (he.trans (if_pos hid))
    · exact retire_done hs (he.trans ((if_neg hid).trans (if_neg (by rw [hv]; decide))))
    · exact answers_nothing rfl hs (he.trans ((if_neg hid).trans (if_pos (by rw [Bool.eq_false_iff.2 hv]; rfl))))
  · have hk := (s.fetchCmd q.val).setBoot_keeps []
    have he : ((s.fetchCmd q.val).setBoot []).pwr = { s.pwr with boot := [] } := by rw [State.setBoot_pwr, hp]
    obtain ⟨stored, used⟩ := State.bootShow_empty (s := { s.fetchCmd q.val with pwr := { (s.fetchCmd q.val).pwr with boot := [] } }) rfl
    refine answers (c := .bootClear q cid) rfl hs rfl hk (by decide) fun ho => ⟨?_, ?_, ?_⟩
    · exact Eq.trans (ho.same .pwr (by decide)) he
    · exact (ho.fd (f := Fld.SEC_BOOT.STORED) (by decide) 0).trans stored
    · exact (ho.fd (f := Fld.SEC_BOOT.USED) (by decide) 0).trans used

end Sys2Proof.Machine
end

section
/-!
Registers of the Datum block that the timeline's counts leave alone: what a fault, a notice and a failed launch keep of them (R56, R59, R81).
-/
namespace Sys2Proof.Machine

/-- The registers in which the timeline counts its slots and their withdrawals. -/
def timelineRegs : List Reg := [.DTM_TL_USED, .DTM_TL_PEAK, .DTM_TL_WITHDRAWN, .DTM_TL_STEPPED]

/-- Every register of the Datum block but the timeline's counts reads as before. -/
def DatumCalm (s t : State) : Prop := ∀ r i, r.group = .datum → r ∉ timelineRegs → t.rg r i = s.rg r i

theorem DatumCalm.refl (s : State) : DatumCalm s s := fun _ _ _ _ => rfl

theorem DatumCalm.trans {a b c : State} (h : DatumCalm a b) (g : DatumCalm b c) : DatumCalm a c :=
  fun r i hg hr => (g r i hg hr).trans (h r i hg hr)

theorem DatumCalm.foldl {α : Type} {f : State → α → State} (hf : ∀ s x, DatumCalm s (f s x)) (l : List α) :
    ∀ s, DatumCalm s (l.foldl f s) := by
  induction l with
  | nil => exact DatumCalm.refl
  | cons x r ih => exact fun s => (hf s x).trans (ih (f s x))

theorem DatumCalm.fd {s t : State} (h : DatumCalm s t) {f : Fld} (hg : f.reg.group = .datum) (hr : f.reg ∉ timelineRegs) (i : Nat) :
    t.fd f i = s.fd f i := State.fd_congr (h f.reg i hg hr)

theorem DatumCalm.fb {s t : State} (h : DatumCalm s t) {f : Fld} (hg : f.reg.group = .datum) (hr : f.reg ∉ timelineRegs) (i : Nat) :
    t.fb f i = s.fb f i := State.fb_congr (h f.reg i hg hr)

theorem DatumCalm.of_regs {s t : State} (h : t.regs = s.regs) : DatumCalm s t :=
  fun r i _ _ => congrArg (fun m => SMap.get RegKey.dflt m ⟨r, i⟩) h

theorem Keeps.datumCalm {m : Nat} {s t : State} (h : Keeps m s t) (hm : m.testBit (Part.regs .datum).num = false) : DatumCalm s t :=
  fun _ i hg _ => h.rg (by rw [hg]; exact hm) i

theorem State.wr_datumCalm (s : State) {r : Reg} (i : Nat) (v : BitVec 32) (h : r ∈ timelineRegs) : DatumCalm s (s.wr r i v) :=
  fun _ _ _ hq => State.rg_wr_other _ _ _ _ _ _ (.inl fun e => hq (e ▸ h))

theorem State.tlCount_datumCalm (s : State) : DatumCalm s s.tlCount := by
  unfold State.tlCount
  dsimp only
  have h := s.wr_datumCalm 0 (BitVec.ofNat 32 s.armedCount) (r := .DTM_TL_USED) (by decide)
  split
  · exact h.trans (State.wr_datumCalm _ 0 _ (by decide))
  · exact h

theorem State.armSlot_datumCalm (s : State) (h : Nat) (e : Event) : DatumCalm s (s.armSlot h e) := by
  unfold State.armSlot
  exact (DatumCalm.of_regs (s := s) rfl).trans (State.tlCount_datumCalm _)

theorem State.freeSlot_datumCalm (s : State) (h : Nat) (b : Bool) : DatumCalm s (s.freeSlot h b) := by
  unfold State.freeSlot
  exact (DatumCalm.of_regs (s := s) rfl).trans (State.tlCount_datumCalm _)

theorem State.engineFree_datumCalm (s : State) (h : Nat) (b : Bool) : DatumCalm s (s.engineFree h b) := by
  unfold State.engineFree
  split
  · exact s.freeSlot_datumCalm h b
  · exact DatumCalm.refl s

/-- A write of a register of another block. -/
theorem State.setF_datumCalm (s : State) (f : Fld) (n i : Nat) (h : f.reg.group ≠ .datum) : DatumCalm s (s.setF f n i) :=
  fun _ _ hg _ => State.rg_setF_other _ _ _ _ _ fun e => h (e ▸ hg)

theorem State.armGrace_datumCalm (s : State) (i step : Nat) (t : TimeVal) : DatumCalm s (s.armGrace i step t) := by
  unfold State.armGrace
  dsimp only
  refine DatumCalm.trans (DatumCalm.trans (DatumCalm.of_regs (s := s) ?_) (State.setF_datumCalm _ Fld.FLT_REC_STAT.GRACE_RUN _ i (by decide)))
    (State.armSlot_datumCalm _ _ _)
  rfl

theorem State.raise_datumCalm (s : State) {r : Raise} (hc : r.cls ≠ 3) : DatumCalm s (s.raise r) :=
  State.raise_minor (P := DatumCalm s) hc (fun _ => DatumCalm.refl s)
    (fun _ => (State.recordFault_keeps (Keeps.refl (maskOf [.flt, .regs .fltRec, .regs .irqStat]) s) (by decide) r).datumCalm (by decide))
    (fun u hu => hu.trans (u.setF_datumCalm Fld.FLT_REC_STAT.ACKED _ _ (by decide)))
    (fun u t hu => hu.trans (u.armGrace_datumCalm _ 1 t))

theorem State.dropLaunch_datumCalm (s : State) (l : Launch) : DatumCalm s (s.dropLaunch l) := by
  unfold State.dropLaunch
  exact (s.freeSlot_datumCalm l.slot false).trans (DatumCalm.of_regs rfl)

theorem State.withdrawTimeout_datumCalm (s : State) (th : Nat) (t : Option Nat) (n : Notice) : DatumCalm s (s.withdrawTimeout th t n) := by
  unfold State.withdrawTimeout
  split
  · exact DatumCalm.refl s
  · split
    · exact DatumCalm.refl s
    · split
      · dsimp only
        split
        · exact (s.freeSlot_datumCalm _ false).trans (State.wr_datumCalm _ 0 _ (by decide))
        · exact s.freeSlot_datumCalm _ false
      · exact DatumCalm.refl s

theorem State.setThread_datumCalm (s : State) (n : Nat) (t : Thread) : DatumCalm s (s.setThread n t) := DatumCalm.of_regs rfl

theorem State.returnNotice_datumCalm (s : State) (th : Nat) (w : WaitRec) (n : Notice) : DatumCalm s (s.returnNotice th w n) := by
  rw [State.returnNotice_eq]
  have hu : DatumCalm s (s.unwaited th w n) :=
    ((s.claimNotice_only n).datumCalm (by decide)).trans (State.withdrawTimeout_datumCalm _ th w.timeout _)
  have ht := (s.unwaited th w n).setThread_datumCalm th (((s.unwaited th w n).thread th).returned w (s.claimNotice n).2)
  exact (hu.trans ht).trans ((State.noticeEvent_only _ th).datumCalm (by decide))

theorem State.deliver_datumCalm (s : State) (th : Nat) (n : Notice) : DatumCalm s (s.deliver th n) := by
  unfold State.deliver
  dsimp only
  split
  · exact s.returnNotice_datumCalm th _ n
  · exact s.setThread_datumCalm _ _

theorem State.notify_datumCalm (s : State) (th : Nat) (n : Notice) : DatumCalm s (s.notify th n) := by
  unfold State.notify
  split
  · exact s.deliver_datumCalm th n
  · exact s.deliver_datumCalm th n
  · exact s.deliver_datumCalm th n
  · exact DatumCalm.refl s

theorem State.setFrame_datumCalm (s : State) (f : Nat) (x : Frame) : DatumCalm s (s.setFrame f x) := DatumCalm.of_regs rfl

theorem State.failLaunch_datumCalm (s : State) (l : Launch) (st : Status) : DatumCalm s (s.failLaunch l st) := by
  have h1 := s.dropLaunch_datumCalm l
  unfold State.failLaunch
  generalize s.dropLaunch l = s1 at h1 ⊢
  dsimp only
  split
  · exact (h1.trans (s1.setFrame_datumCalm _ _)).trans (State.notify_datumCalm _ _ _)
  · exact h1.trans (State.notify_datumCalm _ _ _)

theorem State.failLaunches_datumCalm (s : State) (p : Launch → Bool) (st : Status) : DatumCalm s (s.failLaunches p st) := by
  unfold State.failLaunches
  refine DatumCalm.foldl (fun u e => ?_) _ s
  split
  · exact u.failLaunch_datumCalm _ st
  · exact DatumCalm.refl u

end Sys2Proof.Machine
end

section
/-!
CRITICAL faults (R264, R265): the ladder's first step, and a fault's own record through it.
-/
namespace Sys2Proof.Machine

/-- The parts of the ladder's first step, with the record's own. -/
def escalating : List Part := [.irq, .dtm, .regs .fault, .regs .service] ++ raising

theorem State.raise_only (s : State) (r : Raise) : Keeps (maskOf escalating) s (s.raise r) := State.raise_keeps (Keeps.refl _ s) (by decide) r

theorem Raised.stopGrace {s : State} {j c : Nat} (h : Raised s j c) (i : Nat) (fired : Bool) : Raised (s.stopGrace i fired) j c := by
  unfold State.stopGrace
  dsimp only
  have h1 : Raised { s with flt := { s.flt with grace := SMap.erase s.flt.grace i } } j c := h.congr rfl rfl
  exact (h1.setB Fld.FLT_REC_STAT.GRACE_RUN false i rfl (by decide) (by decide)).keeps
    (State.engineFree_keeps (Keeps.refl (maskOf [.timeline, .regs .datum]) _) (by decide) (hGrace i) fired) (by decide)

/-- The ladder's first step keeps every record's causes. -/
theorem Raised.escalate1 {s : State} {j c : Nat} (h : Raised s j c) (i : Nat) : Raised (s.escalate i 1) j c := by
  have h1 : Raised ((s.stopGrace i true).armGrace i 2 s.now) j c := (h.stopGrace i true).armGrace i 2 _
  unfold State.escalate
  simp only [reduceIte, Nat.reduceLT, Nat.reduceAdd]
  generalize (s.stopGrace i true).armGrace i 2 s.now = u at h1 ⊢
  split
  · have h2 := h1.recordFault { rec_ := i, cause := 28, cls := 2 }
    generalize u.recordFault { rec_ := i, cause := 28, cls := 2 } = v at h2 ⊢
    have hk := State.ladder1_keeps (State.irqPulse_keeps (State.setF_keeps (f := Fld.FLT_ESC.RECORD) (State.setF_keeps
      (f := Fld.FLT_ESC.STEP) (Keeps.refl (maskOf [.irq, .dtm, .regs .fault, .regs .irqStat, .regs .datum, .regs .service]) v) (Nat.zero_and _)
      (by decide) 1 0) (Nat.zero_and _) (by decide) i 0) (by decide) 97 1) (by decide)
    exact h2.keeps hk (by decide)
  · exact h1

/-- A CRITICAL fault is held by its record. -/
theorem State.raise_critical_raised {s : State} {r : Raise} (hc : r.cls = 3) (hu : s.recordUp r.rec_ = true) (hb : r.cause < 32) :
    Raised (s.raise r) r.rec_ r.cause := by
  have h1 := s.recordFault_raised r hu hb
  unfold State.raise
  rw [if_neg (by rw [hu]; decide)]
  dsimp only
  rw [if_pos hc]
  refine Raised.escalate1 ?_ _
  split
  · exact h1.setB Fld.FLT_REC_STAT.ACKED false r.rec_ rfl (by decide) (by decide)
  · exact h1

end Sys2Proof.Machine
end

section
/-!
The two dies' link (R16 to R18, R60, R318).
-/
namespace Sys2Proof.Machine

/-! ### DATUM_SECOND_CHECK -/

/-- The state as a second's check finds it: the second marked as done, the replica as a disturbance has left it. -/
def State.checked (s : State) (upset : Option Datum) : State :=
  { s with
    secDone := SMap.insert id s.secDone 0 s.now.sec.toNat
    replica := upset.getD s.replica }

/-- The line rates that the ports receive. -/
def State.rated (s : State) (rates : List (Fin 64 × BitVec 32)) : State :=
  rates.foldl (fun s e => if s.linkUp e.1.val then s.wr .PRT_RXPPM e.1.val e.2 else s) s

theorem exec_datumSecondCheck {s : State} (upset : Option Datum) (rates : List (Fin 64 × BitVec 32)) (hc : s.coreUp = true)
    (hk : s.clockUp = true) (hd : s.d2dUp = true) (hs : SMap.find s.secDone 0 ≠ some s.now.sec.toNat) :
    exec (.datumSecondCheck upset rates) s = .next ((s.checked upset).secondCheck.rated rates) := by
  refine congrArg Host.Outcome.next ((State.act_pos _ (by rw [hc, hk, hd]; rfl)).trans ?_)
  unfold State.once
  rw [if_neg hs]
  rfl

theorem State.rated_only (s : State) (rates : List (Fin 64 × BitVec 32)) : Keeps (maskOf [.regs .port]) s (s.rated rates) :=
  keeps_foldl (Keeps.refl _ s) fun _ e hu => keeps_ite (State.wr_keeps hu .PRT_RXPPM (by decide) e.1.val e.2) hu

theorem State.checked_only (s : State) (upset : Option Datum) : Only [.replica, .secDone] s (s.checked upset) := by
  refine ⟨rfl, fun p hp => ?_⟩
  cases p <;> first | exact rfl | exact fun _ _ _ => rfl | exact absurd hp (by decide)

theorem State.replicaLoad_only (s : State) : Only [.replica, .replicaOk, .dtm] s s.replicaLoad := by
  refine ⟨rfl, fun p hp => ?_⟩
  cases p <;> first | exact rfl | exact fun _ _ _ => rfl | exact absurd hp (by decide)

/-- A second's check that agrees. -/
def State.checkAgrees (s : State) : State := (s.setB Fld.DTM_CHECK.LAST_OK true).setB Fld.DTM_CHECK.REPLICA_VALID true

theorem State.checkAgrees_only (s : State) : Keeps (maskOf [.regs .datum]) s s.checkAgrees :=
  State.setB_keeps (State.setB_keeps (Keeps.refl _ s) (Nat.zero_and _) (by decide) _ _) (Nat.zero_and _) (by decide) _ _

theorem State.checkAgrees_shows (s : State) : s.checkAgrees.fb Fld.DTM_CHECK.LAST_OK = true ∧
    s.checkAgrees.fb Fld.DTM_CHECK.REPLICA_VALID = true ∧ s.checkAgrees.fd Fld.DTM_CHECK.MISMATCH = s.fd Fld.DTM_CHECK.MISMATCH := by
  unfold State.checkAgrees
  refine ⟨?_, State.fb_setB_same _ _ _ _ (by decide) (by decide), ?_⟩
  · exact (State.fb_setB_other _ Fld.DTM_CHECK.REPLICA_VALID Fld.DTM_CHECK.LAST_OK _ _ _ (by decide) (by decide) (by decide) (by decide)).trans
      (State.fb_setB_same _ _ _ _ (by decide) (by decide))
  · rw [State.fd_setB_other _ _ _ _ _ _ (by decide) (by decide) (by decide) (by decide),
      State.fd_setB_other _ _ _ _ _ _ (by decide) (by decide) (by decide) (by decide)]

/-- A replica that is not sure any more, and due for a reload. -/
def State.unsure (s : State) : State := { s with replicaOk := false, dtm := { s.dtm with reloadDue := true } }

theorem State.unsure_only (s : State) : Only [.replicaOk, .dtm] s s.unsure := by
  refine ⟨rfl, fun p hp => ?_⟩
  cases p <;> first | exact rfl | exact fun _ _ _ => rfl | exact absurd hp (by decide)

/-- A mismatch shown in DTM_CHECK, with one more counted. -/
def State.checkDiffers (s : State) : State :=
  ((s.setB Fld.DTM_CHECK.LAST_OK false).setB Fld.DTM_CHECK.REPLICA_VALID false).setF Fld.DTM_CHECK.MISMATCH
    (Nat.min 0xFFFF (s.fd Fld.DTM_CHECK.MISMATCH + 1))

theorem State.checkDiffers_only (s : State) : Keeps (maskOf [.regs .datum]) s s.checkDiffers :=
  State.setF_keeps (State.setB_keeps (State.setB_keeps (Keeps.refl _ s) (Nat.zero_and _) (by decide) _ _) (Nat.zero_and _) (by decide) _ _)
    (Nat.zero_and _) (by decide) _ _

theorem State.checkDiffers_shows (s : State) : s.checkDiffers.fb Fld.DTM_CHECK.LAST_OK = false ∧
    s.checkDiffers.fb Fld.DTM_CHECK.REPLICA_VALID = false ∧
      s.checkDiffers.fd Fld.DTM_CHECK.MISMATCH = Nat.min 0xFFFF (s.fd Fld.DTM_CHECK.MISMATCH + 1) := by
  unfold State.checkDiffers
  refine ⟨?_, ?_, ?_⟩
  · unfold State.fb
    rw [State.fd_setF_other _ _ _ _ _ _ (by decide) (by decide) (by decide) (by decide),
      State.fd_setB_other _ _ _ _ _ _ (by decide) (by decide) (by decide) (by decide)]
    exact State.fb_setB_same _ _ _ _ (by decide) (by decide)
  · unfold State.fb
    rw [State.fd_setF_other _ _ _ _ _ _ (by decide) (by decide) (by decide) (by decide)]
    exact State.fb_setB_same _ _ _ _ (by decide) (by decide)
  · rw [State.fd_setF_same _ _ _ _ (by decide) (by decide)]
    exact Nat.mod_eq_of_lt (Nat.lt_of_le_of_lt (Nat.min_le_left _ _) (by decide))

/-- The fault of a replica that differs. -/
def mismatchFault : Raise := { rec_ := 459, cause := 13, cls := 2 }

/-- The state with a mismatch shown and its fault raised. -/
def State.mismatched (s : State) : State := s.unsure.checkDiffers.raise mismatchFault

theorem State.replicaMismatch_eq (s : State) : s.replicaMismatch =
    (s.mismatched.journal 0x08 0xFF 0 s.unsure.checkDiffers.now 0 0 0 []).failLaunches (fun _ => true) .replica := rfl

/-- What a mismatch leaves beside the launches it refuses (R16). -/
theorem State.replicaMismatch_leaves {s : State} (hv : s.pwr.vddKeep = true) :
    Only ([.replicaOk, .dtm, .trv, .frames, .launches, .regs .traverse] ++ raising ++ notifying) s s.replicaMismatch ∧
      s.replicaMismatch.replicaOk = false ∧ s.replicaMismatch.dtm.reloadDue = true ∧ s.replicaMismatch.fb Fld.DTM_CHECK.LAST_OK = false ∧
      s.replicaMismatch.fb Fld.DTM_CHECK.REPLICA_VALID = false ∧
      s.replicaMismatch.fd Fld.DTM_CHECK.MISMATCH = Nat.min 0xFFFF (s.fd Fld.DTM_CHECK.MISMATCH + 1) ∧
      Raised s.replicaMismatch 459 13 := by
  have hup : s.unsure.checkDiffers.recordUp mismatchFault.rec_ = true := by
    have hp : s.unsure.checkDiffers.pwr = s.pwr := (s.unsure.checkDiffers_only.same .pwr (by decide)).trans (s.unsure_only.same .pwr (by decide))
    rw [State.recordUp, if_pos (by decide), hp]
    exact hv
  have hraised : Raised s.mismatched 459 13 :=
    State.raise_minor_raised (r := mismatchFault) (by decide) hup (by decide)
  have hk1 : Keeps (maskOf raising) s.unsure.checkDiffers s.mismatched := State.raise_minor_keeps (by decide) (Keeps.refl _ _) rfl
  have hc1 : DatumCalm s.unsure.checkDiffers s.mismatched := State.raise_datumCalm _ (by decide)
  have hk2 := State.journal_keeps (Keeps.refl (maskOf [.trv, .regs .traverse]) s.mismatched) (by decide) 0x08 0xFF 0
    s.unsure.checkDiffers.now 0 0 0 []
  have hk3 := State.failLaunches_keeps (Keeps.refl (maskOf ([.frames, .launches] ++ notifying))
    (s.mismatched.journal 0x08 0xFF 0 s.unsure.checkDiffers.now 0 0 0 [])) (by decide) (fun _ => true) .replica
  have hc3 := State.failLaunches_datumCalm (s.mismatched.journal 0x08 0xFF 0 s.unsure.checkDiffers.now 0 0 0 []) (fun _ => true) .replica
  rw [← State.replicaMismatch_eq] at hk3 hc3
  have hcalm : DatumCalm s.unsure.checkDiffers s.replicaMismatch := (hc1.trans (hk2.datumCalm (by decide))).trans hc3
  have hfrom : Only ((raising ++ [.trv, .regs .traverse]) ++ ([.frames, .launches] ++ notifying)) s.unsure.checkDiffers s.replicaMismatch :=
    (hk1.onlyOf.trans hk2.onlyOf).trans hk3.onlyOf
  have hto : Only ([.replicaOk, .dtm] ++ [.regs .datum]) s s.unsure.checkDiffers := s.unsure_only.trans s.unsure.checkDiffers_only.onlyOf
  obtain ⟨ok, valid, count⟩ := s.unsure.checkDiffers_shows
  refine ⟨(hto.trans hfrom).mono (by decide), ?_, ?_, ?_, ?_, ?_, (hraised.keeps hk2 (by decide)).keeps hk3 (by decide)⟩
  · exact (hfrom.same .replicaOk (by decide)).trans (s.unsure.checkDiffers_only.same .replicaOk (by decide))
  · exact congrArg DtmState.reloadDue ((hfrom.same .dtm (by decide)).trans (s.unsure.checkDiffers_only.same .dtm (by decide)))
  · exact (hcalm.fb (f := Fld.DTM_CHECK.LAST_OK) (by decide) (by decide) 0).trans ok
  · exact (hcalm.fb (f := Fld.DTM_CHECK.REPLICA_VALID) (by decide) (by decide) 0).trans valid
  · exact (hcalm.fd (f := Fld.DTM_CHECK.MISMATCH) (by decide) (by decide) 0).trans count

/-! ### The link's loss and return -/

/-- The link lost: the clock die runs on with no writer. -/
def State.linkLost (s : State) : State :=
  (({ s with d2dUp := false, replicaOk := false }).setB Fld.DTM_CHECK.REPLICA_VALID false).beginNoWriter

/-- The fault of a link that is lost. -/
def linkFault : Raise := { rec_ := 463, cause := 7, cls := 3 }

theorem exec_d2dLinkDown {s : State} (hc : s.coreUp = true) (hd : s.d2dUp = true) :
    exec .d2dLinkDown s = .next (s.linkLost.raise linkFault) :=
  congrArg Host.Outcome.next (State.act_pos _ (by rw [hc, hd]; rfl))

theorem State.linkDrop_only (s : State) : Only [.d2dUp, .replicaOk] s { s with d2dUp := false, replicaOk := false } := by
  refine ⟨rfl, fun p hp => ?_⟩
  cases p <;> first | exact rfl | exact fun _ _ _ => rfl | exact absurd hp (by decide)

theorem State.noWriter_only (s : State) :
    Keeps (maskOf [.trv, .ens, .regs .traverse, .regs .datum]) s (s.setB Fld.DTM_CHECK.REPLICA_VALID false).beginNoWriter :=
  State.beginNoWriter_keeps (State.setB_keeps (Keeps.refl _ s) (Nat.zero_and _) (by decide) _ _) (by decide)

/-- What the loss of the link leaves (R17, R259). -/
theorem State.linkLost_leaves {s : State} (hv : s.pwr.vddKeep = true) :
    Only ([.d2dUp, .replicaOk, .irq, .dtm, .trv, .ens, .regs .fault, .regs .traverse, .regs .service] ++ raising) s
        (s.linkLost.raise linkFault) ∧
      (s.linkLost.raise linkFault).d2dUp = false ∧ (s.linkLost.raise linkFault).replicaOk = false ∧
      (s.linkLost.raise linkFault).fb Fld.TRV_STAT.NOWRITER = true ∧ Raised (s.linkLost.raise linkFault) 463 7 := by
  have h1 := State.noWriter_only { s with d2dUp := false, replicaOk := false }
  have h2 := s.linkDrop_only.trans h1.onlyOf
  have hp : s.linkLost.pwr = s.pwr := h2.same .pwr (by decide)
  have hup : s.linkLost.recordUp linkFault.rec_ = true := by
    rw [State.recordUp, if_pos (by decide), hp]
    exact hv
  have hd : s.linkLost.d2dUp = false := h1.same .d2dUp (by decide)
  have ho : s.linkLost.replicaOk = false := h1.same .replicaOk (by decide)
  have hw : s.linkLost.fb Fld.TRV_STAT.NOWRITER = true := State.beginNoWriter_sets _
  have hr := s.linkLost.raise_only linkFault
  exact ⟨(h2.trans hr.onlyOf).mono (by decide), (hr.same .d2dUp (by decide)).trans hd, (hr.same .replicaOk (by decide)).trans ho,
    (hr.fb (f := Fld.TRV_STAT.NOWRITER) (by decide) 0).trans hw, State.raise_critical_raised (r := linkFault) rfl hup (by decide)⟩

theorem State.linkUp_only (s : State) : Only [.d2dUp, .replicaOk, .dtm] s
    { s with d2dUp := true, replicaOk := false, dtm := { s.dtm with reloadDue := true } } := by
  refine ⟨rfl, fun p hp => ?_⟩
  cases p <;> first | exact rfl | exact fun _ _ _ => rfl | exact absurd hp (by decide)

/-! ### Posted writes -/

/-- A register whose every bit can be written reads what is written. -/
theorem State.rg_wrRw_whole (s : State) {r : Reg} (i : Nat) (v : BitVec 32) (h : BitVec.ofNat 32 (r.row.rw ||| r.row.rwg) = 0xFFFFFFFF#32) :
    (s.wrRw r i v).rg r i = v := by
  unfold State.wrRw
  dsimp only
  rw [State.rg_wr_same, h, show 0xFFFFFFFF#32 = BitVec.allOnes 32 from rfl, BitVec.not_allOnes, BitVec.and_zero, BitVec.zero_or,
    BitVec.and_allOnes]

/-- The posted writes, taken off the link. -/
def State.unposted (s : State) : State := { s with hst := { s.hst with posted := [] } }

theorem State.unposted_only (s : State) : Only [.hst] s s.unposted := by
  refine ⟨rfl, fun p hp => ?_⟩
  cases p <;> first | exact rfl | exact fun _ _ _ => rfl | exact absurd hp (by decide)

theorem State.flushPosted_two {s : State} {v w : BitVec 32}
    (h : s.hst.posted = [⟨.hostReg, ⟨.DTM_STEP_FRAC, 0⟩, v⟩, ⟨.hostReg, ⟨.DTM_STEP_FRAC, 0⟩, w⟩]) :
    s.flushPosted = (s.unposted.wrRw .DTM_STEP_FRAC 0 v).wrRw .DTM_STEP_FRAC 0 w := by
  unfold State.flushPosted
  rw [h]
  rfl

/-! ### The copies (R60, R318) -/

/-- The loops' latest phase comparisons shown. -/
def State.phased (s : State) (pherr : List (BitVec 32)) : State :=
  (List.range 16).foldl (fun s i =>
    match pherr[i]? with
    | some v => s.wr .SYN_PHERR i v
    | none => s) s

theorem State.phased_only (s : State) (pherr : List (BitVec 32)) : Keeps (maskOf [.regs .syn]) s (s.phased pherr) := by
  refine keeps_foldl (Keeps.refl _ s) fun u i hu => ?_
  split
  · exact State.wr_keeps hu .SYN_PHERR (by decide) i _
  · exact hu

/-- The Datum and what is left of a SETTLE window, shown. -/
def State.datumShown (s : State) : State :=
  (((s.setPair .DTM_NOW_SEC_HI .DTM_NOW_SEC_LO s.now.sec).wr .DTM_NOW_NS 0 s.now.ns).wr .DTM_NOW_FRAC 0 s.now.frac).setF
    Fld.DTM_SETTLE_LEFT.SECONDS (match s.dtm.settleEnd with
      | some t => ceilDiv (t.count - s.now.count) secCount
      | none => 0)

/-- The leap flag, shown with the Datum. -/
def State.leapShown (s : State) : State := s.datumShown.setB Fld.DTM_UTC_STAT.IN_LEAP s.datumShown.inLeapNow

/-- The registers that the copy takes, brought up to date on the clock die. -/
def State.copyShown (s : State) : State := s.leapShown.snapDone.trvShow

/-- The copy taken, at an instant. -/
def State.copied (s : State) (n : TimeVal) : State :=
  ({ s with
    copy := s.regs.filter (fun e => e.1.reg.onClock e.1.idx)
    dtm := { s.dtm with now := n } }).bump .HST_COPY_SEQ

theorem State.copyRefresh_eq (s : State) : s.copyRefresh =
    if s.copyShown.coreUp && s.copyShown.d2dUp then s.copyShown.copied s.now else s.copyShown := rfl

theorem State.leapShown_only (s : State) : Keeps (maskOf [.regs .datum]) s s.leapShown := by
  unfold State.leapShown State.datumShown
  exact State.setB_keeps (State.setF_keeps (State.wr_keeps (State.wr_keeps (State.setPair_keeps (Keeps.refl _ s) (Nat.zero_and _) (by decide)
    (by decide) _ _) .DTM_NOW_NS (by decide) 0 _) .DTM_NOW_FRAC (by decide) 0 _) (Nat.zero_and _) (by decide) _ _) (Nat.zero_and _)
    (by decide) _ _

theorem State.copyShown_only (s : State) : Keeps (maskOf [.irq, .dtm, .regs .irqStat, .regs .datum, .regs .traverse]) s s.copyShown :=
  State.trvShow_keeps (State.snapDone_keeps (s.leapShown_only.mono (by decide)) (by decide)) (by decide)

theorem State.snapDone_now (s : State) : s.snapDone.dtm.now = s.dtm.now := by
  unfold State.snapDone
  split
  · dsimp only
    rw [show State.dtm (State.irqLine _ 98 true) = _ from
      (State.irqLine_keeps (Keeps.refl (maskOf [.irq, .regs .irqStat]) _) (by decide) 98 true).same .dtm (by decide)]
    rfl
  · rfl

theorem State.copyShown_now (s : State) : s.copyShown.dtm.now = s.dtm.now := by
  have h1 : s.leapShown.dtm = s.dtm := s.leapShown_only.same .dtm (by decide)
  have h3 := (State.trvShow_keeps (Keeps.refl (maskOf [.regs .traverse]) s.leapShown.snapDone) (by decide)).same .dtm (by decide)
  exact ((congrArg DtmState.now h3).trans s.leapShown.snapDone_now).trans (congrArg DtmState.now h1)

theorem State.copied_now (s : State) (n : TimeVal) : (s.copied n).dtm.now = n := rfl

theorem State.copied_seq (s : State) (n : TimeVal) : (s.copied n).rg .HST_COPY_SEQ 0 = s.rg .HST_COPY_SEQ 0 + 1#32 := State.rg_wr_same _ _ _ _

theorem onClock_copySeq (i : Nat) : (Reg.HST_COPY_SEQ).onClock i = false := rfl

/-- Every register of the clock die reads in the copy as it does there. -/
theorem State.copied_copies (s : State) (n : TimeVal) {r : Reg} {i : Nat} (h : r.onClock i = true) :
    SMap.get RegKey.dflt (s.copied n).copy ⟨r, i⟩ = (s.copied n).rg r i := by
  have hr : Reg.HST_COPY_SEQ ≠ r := fun e => by
    subst e
    rw [onClock_copySeq] at h
    exact absurd h (by decide)
  have hc := SMap.get_filter RegKey.dflt s.regs (fun k => k.reg.onClock k.idx) ⟨r, i⟩
  rw [if_pos h] at hc
  exact hc.trans (State.rg_wr_other _ _ _ _ _ _ (.inl hr)).symm

theorem exec_copyRefresh {s : State} (pherr : List (BitVec 32)) (hk : s.clockUp = true) :
    exec (.copyRefresh pherr) s = .next (s.phased pherr).copyRefresh := congrArg Host.Outcome.next (State.act_pos _ hk)

/-- Settles O27: the second's check by its three findings, the link's loss by what it raises, the copy by what it takes. -/
theorem dieLinkCommands : Obligations.DieLinkCommands := by
  unfold Obligations.DieLinkCommands
  intro s upset rates pherr rep parts
  refine ⟨fun hc hk hd hs => ⟨fun hr => ?_, fun hr he => ?_, fun hr hne hrates => ?_⟩, fun hc hd hv => ?_, fun hc hk hd => ?_,
    fun hk v w hp => ?_, fun hk => ⟨fun hc hd hsnap => ?_, fun hd => ?_⟩, fun hc hp => ?_⟩
  · have h1 := s.checked_only upset
    have h2 := (s.checked upset).replicaLoad_only
    have h3 := (s.checked upset).replicaLoad.rated_only rates
    have hload : (s.checked upset).secondCheck = (s.checked upset).replicaLoad := if_pos hr
    refine ⟨_, by rw [exec_datumSecondCheck upset rates hc hk hd hs, hload], ⟨?_, ?_, ?_, fun i => ?_⟩,
      ((h1.trans h2).trans h3.onlyOf).mono (by decide)⟩
    · exact h3.same .replica (by decide)
    · exact h3.same .replicaOk (by decide)
    · exact congrArg DtmState.reloadDue (h3.same .dtm (by decide))
    · exact ((h3.rg (by decide) i).trans (h2.rg (by decide) i)).trans (h1.rg (by decide) i)
  · have h1 := s.checked_only upset
    have h2 := (s.checked upset).checkAgrees_only
    have h3 := (s.checked upset).checkAgrees.rated_only rates
    have h23 := h2.onlyOf.trans h3.onlyOf
    have hagree : (s.checked upset).secondCheck = (s.checked upset).checkAgrees :=
      (if_neg (by rw [show (s.checked upset).dtm.reloadDue = false from hr]; decide)).trans (if_pos he.symm)
    obtain ⟨ok, valid, count⟩ := (s.checked upset).checkAgrees_shows
    refine ⟨_, by rw [exec_datumSecondCheck upset rates hc hk hd hs, hagree], ⟨?_, ?_, ?_, ?_, ?_⟩, (h1.trans h23).mono (by decide)⟩
    · exact (h23.same .replica (by decide)).trans he
    · exact h23.same .replicaOk (by decide)
    · exact (h3.fb (f := Fld.DTM_CHECK.LAST_OK) (by decide) 0).trans ok
    · exact (h3.fb (f := Fld.DTM_CHECK.REPLICA_VALID) (by decide) 0).trans valid
    · exact ((h3.fd (f := Fld.DTM_CHECK.MISMATCH) (by decide) 0).trans count).trans (h1.fd (f := Fld.DTM_CHECK.MISMATCH) (by decide) 0)
  · have h1 := s.checked_only upset
    have hv : (s.checked upset).pwr.vddKeep = true := by
      simp only [State.clockUp, Bool.and_eq_true] at hk
      obtain ⟨⟨hv, -⟩, -⟩ := hk
      exact hv
    obtain ⟨only, replicaOk, reload, ok, valid, count, raised⟩ := State.replicaMismatch_leaves hv
    have hdiffer : (s.checked upset).secondCheck = (s.checked upset).replicaMismatch :=
      (if_neg (by rw [show (s.checked upset).dtm.reloadDue = false from hr]; decide)).trans (if_neg fun e => hne e.symm)
    subst hrates
    refine ⟨_, by rw [exec_datumSecondCheck upset [] hc hk hd hs, hdiffer]; rfl,
      ⟨only.same .replica (by decide), replicaOk, reload, ok, valid, ?_, raised⟩, (h1.trans only).mono (by decide)⟩
    rw [count, h1.fd (f := Fld.DTM_CHECK.MISMATCH) (by decide) 0]
  · obtain ⟨only, link, replicaOk, noWriter, raised⟩ := State.linkLost_leaves hv
    exact ⟨_, exec_d2dLinkDown hc hd, ⟨link, replicaOk, noWriter, raised, only.same .datum (by decide)⟩, only⟩
  · exact ⟨_, congrArg Host.Outcome.next (State.act_pos _ (by rw [hc, hk, hd]; rfl)), ⟨rfl, rfl, rfl⟩, s.linkUp_only⟩
  · have h1 := s.unposted_only
    have h2 := State.wrRw_keeps (State.wrRw_keeps (r := .DTM_STEP_FRAC) (Keeps.refl (maskOf [.regs .datum]) s.unposted) (Nat.zero_and _)
      (by decide) 0 v) (r := .DTM_STEP_FRAC) (Nat.zero_and _) (by decide) 0 w
    refine ⟨_, congrArg Host.Outcome.next ((State.act_pos _ hk).trans (State.flushPosted_two hp)), ⟨?_, State.rg_wrRw_whole _ 0 w (by decide)⟩,
      (h1.trans h2.onlyOf).mono (by decide)⟩
    exact congrArg HstState.posted (h2.same .hst (by decide))
  · have h1 := s.phased_only pherr
    have h2 := (s.phased pherr).copyShown_only
    have hup : ((s.phased pherr).copyShown.coreUp && (s.phased pherr).copyShown.d2dUp) = true := by
      have hp : (s.phased pherr).copyShown.pwr = s.pwr := (h2.same .pwr (by decide)).trans (h1.same .pwr (by decide))
      have hl : (s.phased pherr).copyShown.d2dUp = s.d2dUp := (h2.same .d2dUp (by decide)).trans (h1.same .d2dUp (by decide))
      unfold State.coreUp at hc ⊢
      rw [hp, hl, hc, hd]
      rfl
    have hn : (s.phased pherr).now = s.now := congrArg Datum.word (h1.same .datum (by decide))
    have hk3 := State.copyRefresh_keeps (Keeps.refl (maskOf [.copy, .irq, .dtm, .regs .host, .regs .irqStat, .regs .datum, .regs .traverse])
      (s.phased pherr)) (by decide)
    have he : (s.phased pherr).copyRefresh = (s.phased pherr).copyShown.copied s.now := by
      rw [State.copyRefresh_eq, if_pos hup, hn]
    rw [he] at hk3
    refine ⟨_, (exec_copyRefresh pherr hk).trans (congrArg Host.Outcome.next he),
      ⟨State.copied_now _ _, ?_, fun r i hr => State.copied_copies _ _ hr⟩,
      (h1.onlyOf.trans hk3.onlyOf).mono (by decide)⟩
    have hs : (s.phased pherr).copyShown.rg .HST_COPY_SEQ 0 = s.rg .HST_COPY_SEQ 0 := (h2.rg (by decide) 0).trans (h1.rg (by decide) 0)
    rw [State.copied_seq, hs]
    rfl
  · have h1 := s.phased_only pherr
    have h2 := (s.phased pherr).copyShown_only
    have hl : (s.phased pherr).copyShown.d2dUp = false := ((h2.same .d2dUp (by decide)).trans (h1.same .d2dUp (by decide))).trans hd
    have he : (s.phased pherr).copyRefresh = (s.phased pherr).copyShown := by
      rw [State.copyRefresh_eq, if_neg (by rw [hl, Bool.and_false]; decide)]
    refine ⟨_, (exec_copyRefresh pherr hk).trans (congrArg Host.Outcome.next he),
      (h2.same .copy (by decide)).trans (h1.same .copy (by decide)), ?_⟩
    exact (State.copyShown_now _).trans (congrArg DtmState.now (h1.same .dtm (by decide)))
  · refine ⟨_, congrArg Host.Outcome.next (State.act_pos _ (by rw [hc, hp]; rfl)), rfl, rfl, fun p hp => ?_⟩
    cases p <;> first | exact rfl | exact fun _ _ _ => rfl | exact absurd hp (by decide)

end Sys2Proof.Machine
end

section
/-!
The counter and its step (R15, R37, R48, R50): increments that take effect, and what a step leaves.
-/
namespace Sys2Proof.Machine

/-! ### The increment -/

theorem State.incTake_none {s : State} (h : ∀ x ∈ s.dtm.incPending, s.tick < x.1) : s.incTake = s := by
  have hdue : s.dtm.incPending.filter (fun x => decide (x.1 ≤ s.tick)) = [] :=
    List.filter_eq_nil_iff.2 fun x hx => by simpa using h x hx
  have hrest : s.dtm.incPending.filter (fun x => decide (s.tick < x.1)) = s.dtm.incPending :=
    List.filter_eq_self.2 fun x hx => by simpa using h x hx
  unfold State.incTake
  rw [hdue, hrest]
  rfl

/-- The one accepted increment taken. -/
def State.incTaken (s : State) (k : Nat) (v : BitVec 64) : State :=
  let s1 := ({ s with dtm := { s.dtm with incPending := [] } }).setPair .DTM_INC_HI .DTM_INC_LO v
  { s1 with dtm := { s1.dtm with incHist := ((k, v) :: s.dtm.incHist).take 4096 } }

theorem State.incTake_one {s : State} {k : Nat} {v : BitVec 64} (h : s.dtm.incPending = [(k, v)]) (hk : k ≤ s.tick) :
    s.incTake = s.incTaken k v := by
  unfold State.incTake State.incTaken
  rw [h]
  simp only [List.filter_cons, List.filter_nil, decide_eq_true hk, decide_eq_false (Nat.not_lt.2 hk), if_true, Bool.false_eq_true, if_false,
    List.foldl_cons, List.foldl_nil]

theorem State.incTaken_inc (s : State) (k : Nat) (v : BitVec 64) : (s.incTaken k v).inc = v :=
  State.pair_setPair_same _ (by decide) _ _

theorem State.incTake_only (s : State) : Keeps (maskOf [.dtm, .regs .datum]) s s.incTake := State.incTake_keeps (Keeps.refl _ s) (by decide)

/-! ### The tick -/

/-- The counter, the replica and the tick replaced. -/
def State.setCounter (s : State) (d r : Datum) (t : Nat) : State := { s with datum := d, replica := r, tick := t }

theorem State.setCounter_only (s : State) (d r : Datum) (t : Nat) : Only [.datum, .replica, .tick] s (s.setCounter d r t) := by
  refine ⟨rfl, fun p hp => ?_⟩
  cases p <;> first | exact rfl | exact fun _ _ _ => rfl | exact absurd hp (by decide)

/-- The counter and the replica advanced by an increment. -/
def State.advanced (s : State) (i : Nat) : State :=
  s.setCounter (Datum.ofCount56 (s.datum.count56 + i)) (Datum.ofCount56 (s.replica.count56 + i)) (s.tick + 1)

theorem State.advanced_only (s : State) (i : Nat) : Only [.datum, .replica, .tick] s (s.advanced i) := s.setCounter_only _ _ _

theorem State.advanced_counts (s : State) (i : Nat) : (s.advanced i).datum = Datum.ofCount56 (s.datum.count56 + i) ∧
    (s.advanced i).replica = Datum.ofCount56 (s.replica.count56 + i) ∧ (s.advanced i).tick = s.tick + 1 := ⟨rfl, rfl, rfl⟩

theorem State.dclkTick_eq {s u : State} (h : s.incTake.stepTake = u) : s.dclkTick = u.advanced u.inc.toNat := by
  unfold State.dclkTick
  rw [h]
  rfl

theorem State.stepTake_none {s : State} (h : ∀ r, s.dtm.step = some r → s.tick < r.tick) : s.stepTake = s := by
  unfold State.stepTake
  split
  · next r hr => exact if_neg (Nat.not_le.2 (h r hr))
  · rfl

theorem exec_dclkTick {s : State} (hk : s.clockUp = true) (hd : s.pwr.dclk = true) : exec .dclkTick s = .next s.dclkTick :=
  congrArg Host.Outcome.next (State.act_pos _ (by rw [hk, hd]; rfl))

/-! ### The step -/

/-- The Datum block's own state replaced. -/
def State.setDtm (s : State) (d : DtmState) : State := { s with dtm := d }

theorem State.setDtm_only (s : State) (d : DtmState) : Only [.dtm] s (s.setDtm d) := by
  refine ⟨rfl, fun p hp => ?_⟩
  cases p <;> first | exact rfl | exact fun _ _ _ => rfl | exact absurd hp (by decide)

/-- The counter and the replica moved, and the request gone. -/
def State.stepMoved (s : State) (r : StepReq) : State :=
  (s.setCounter (Datum.shift s.datum r.offset) (Datum.shift s.replica r.offset) s.tick).setDtm { s.dtm with step := none }

/-- The step's bits in DTM_MODE. -/
def State.stepFlags (s : State) : State := (s.setB Fld.DTM_MODE.STEP_PEND false).setB Fld.DTM_MODE.STEP_USED true

/-- The bound of the Datum from the step on. -/
def State.stepBound (s : State) (r : StepReq) (endWord : TimeVal) : State :=
  let bank := TimeVal.ofSec endWord.sec.toNat
  { s with
    trv := { s.trv with
      basis := ⟨endWord, sideOf r.bound.early, sideOf r.bound.late⟩
      bankB := ⟨bank, sideOf r.bound.early, sideOf r.bound.late⟩ }
    ens := { s.ens with theta := 0, thetaMiss := 0, resid := 0, residAt := bank } }

/-- The registers that show the step's bound. -/
def State.stepShown (s : State) (endWord : TimeVal) : State :=
  let s4 := (s.setPair .ENS_BANK_AT_HI .ENS_BANK_AT_LO endWord.sec).setB Fld.TRV_STAT.PRE_SOURCE false
  if s4.cond = 2 then s4 else s4.setB Fld.TRV_STAT.STEP_BASIS true

/-- What the step does to the blocks beside the counter: skipped events, calibrations, streams, alignments, serialisers, the journal. -/
def State.stepSpread (s : State) (r : StepReq) (a b : Nat) (from_ endWord : TimeVal) : State :=
  (((((s.skipEvents a b).ticDisturb.ensStep from_ endWord).synStep endWord).prtStep r.offset).journal 0x06 0xFF r.source endWord
    (r.offset / 2 ^ 16) r.bound.early r.bound.late [])

/-- The counter's end of tick after the step. -/
def State.stepEnd (s : State) (r : StepReq) : Nat := (s.stepMoved r).datum.count56 + (s.stepMoved r).inc.toNat

theorem State.stepApply_eq (s : State) (r : StepReq) : s.stepApply r =
    ((((s.stepMoved r).stepFlags.stepBound r (Datum.ofCount56 (s.stepEnd r)).word).stepShown (Datum.ofCount56 (s.stepEnd r)).word).stepSpread
      r (s.datum.count56 + (s.stepMoved r).inc.toNat) (s.stepEnd r) s.now (Datum.ofCount56 (s.stepEnd r)).word).shutSettle := rfl

/-- An event fired, seen from the Datum block. -/
theorem State.fireEvent_datumCalm (s : State) (h : Nat) (e : Event) (late stepped : Bool) : DatumCalm s (s.fireEvent h e late stepped) := by
  have h1 := s.freeSlot_datumCalm h true
  unfold State.fireEvent
  generalize s.freeSlot h true = u at h1 ⊢
  dsimp only
  split
  · exact h1.trans (u.notify_datumCalm _ _)
  · split
    · exact h1.trans ((State.irqLatch_keeps (Keeps.refl (maskOf [.regs .irqStat]) u) (by decide) _ _).datumCalm (by decide))
    · exact h1.trans ((State.setB_keeps (f := Fld.IRQ_WSTAT.DB_DROP) (State.bump_keeps (r := .IRQ_DB_DROP) (Keeps.refl (maskOf [.regs .irq]) u)
        (Nat.zero_and _) (by decide) 0) (Nat.zero_and _) (by decide) true 0).datumCalm (by decide))
  · exact h1

theorem State.skipEvents_datumCalm (s : State) (a b : Nat) : DatumCalm s (s.skipEvents a b) := by
  unfold State.skipEvents
  refine DatumCalm.foldl (fun u x => ?_) _ s
  split
  · exact DatumCalm.refl u
  · dsimp only
    split
    · have h1 : DatumCalm u (u.count .DTM_TL_STEPPED) := u.wr_datumCalm 0 _ (by decide)
      split
      · exact h1.trans (State.failLaunch_datumCalm _ _ _)
      · exact h1.trans (State.fireEvent_datumCalm _ _ _ _ _)
      · exact h1.trans (State.fireEvent_datumCalm _ _ _ _ _)
      · exact h1
    · exact DatumCalm.refl u

/-- The blocks that a step reaches after its skipped events. -/
def stepBlocks : List Part := [.trv, .tic, .ens, .syn, .prt, .regs .traverse]

/-- A step's effect on the blocks beside the counter and the journal. -/
def State.stepBlocked (s : State) (r : StepReq) (from_ endWord : TimeVal) : State :=
  ((s.ticDisturb.ensStep from_ endWord).synStep endWord).prtStep r.offset

theorem State.stepBlocked_only (s : State) (r : StepReq) (f w : TimeVal) : Keeps (maskOf [.tic, .ens, .syn, .prt]) s (s.stepBlocked r f w) :=
  State.prtStep_keeps (State.synStep_keeps (State.ensStep_keeps (State.ticDisturb_keeps (Keeps.refl _ s) (by decide)) (by decide) f w)
    (by decide) w) (by decide) r.offset

theorem State.stepSpread_eq (s : State) (r : StepReq) (a b : Nat) (f w : TimeVal) : s.stepSpread r a b f w =
    ((s.skipEvents a b).stepBlocked r f w).journal 0x06 0xFF r.source w (r.offset / 2 ^ 16) r.bound.early r.bound.late [] := rfl

/-- The parts of what a step does beside the counter, apart from the window. -/
def spreading : List Part := [.frames, .launches, .regs .irq] ++ notifying ++ stepBlocks

theorem State.journal_only (s : State) (kind entry detail : Nat) (at_ : TimeVal) (phase : Int) (refE refL : BitVec 32) (image : List Byte) :
    Keeps (maskOf [.trv, .regs .traverse]) s (s.journal kind entry detail at_ phase refE refL image) :=
  State.journal_keeps (Keeps.refl _ s) (by decide) kind entry detail at_ phase refE refL image

theorem State.ringPush_basis (s : State) (r : BmkRecord) : (s.ringPush r).trv.basis = s.trv.basis := by
  unfold State.ringPush
  dsimp only
  rw [State.setPair_trv, State.setPair_trv]
  split
  · split <;> rfl
  · rfl

/-- A record of the journal leaves the bound's basis. -/
theorem State.journal_basis (s : State) (kind entry detail : Nat) (at_ : TimeVal) (phase : Int) (refE refL : BitVec 32) (image : List Byte) :
    (s.journal kind entry detail at_ phase refE refL image).trv.basis = s.trv.basis := by
  unfold State.journal
  dsimp only
  split
  · unfold State.journalCommit
    exact foldl_unchanged (f := fun u : State => u.trv.basis) (g := State.ringPush) State.ringPush_basis _ _
  · rfl

theorem State.stepSpread_only (s : State) (r : StepReq) (a b : Nat) (f w : TimeVal) :
    Keeps (maskOf spreading) s (s.stepSpread r a b f w) := by
  rw [State.stepSpread_eq]
  have h1 := State.skipEvents_keeps (Keeps.refl (maskOf spreading) s) (by decide) a b
  have h2 := State.prtStep_keeps (State.synStep_keeps (State.ensStep_keeps (State.ticDisturb_keeps h1 (by decide)) (by decide) f w)
    (by decide) w) (by decide) r.offset
  exact State.journal_keeps h2 (by decide) _ _ _ _ _ _ _ _

theorem State.stepSpread_datumCalm (s : State) (r : StepReq) (a b : Nat) (f w : TimeVal) : DatumCalm s (s.stepSpread r a b f w) := by
  rw [State.stepSpread_eq]
  exact ((s.skipEvents_datumCalm a b).trans ((State.stepBlocked_only _ r f w).datumCalm (by decide))).trans
    ((State.journal_only _ _ _ _ _ _ _ _ _).datumCalm (by decide))

theorem State.stepSpread_basis (s : State) (r : StepReq) (a b : Nat) (f w : TimeVal) : (s.stepSpread r a b f w).trv.basis = s.trv.basis := by
  have h1 := State.skipEvents_keeps (Keeps.refl (maskOf ([.frames, .launches, .regs .irq] ++ notifying)) s) (by decide) a b
  have h2 := (s.skipEvents a b).stepBlocked_only r f w
  rw [State.stepSpread_eq, State.journal_basis]
  exact congrArg TrvState.basis ((h2.same .trv (by decide)).trans (h1.same .trv (by decide)))

/-! ### The window closes -/

/-- DTM_MODE and the window as a SETTLE that closes leaves them. -/
def State.settleCleared (s : State) : State :=
  ((((s.setF Fld.DTM_MODE.MODE 0).setB Fld.DTM_MODE.KINDLING false).setB Fld.DTM_MODE.HOST_INC false).setF
    Fld.DTM_SETTLE_LEFT.SECONDS 0).setDtm { s.dtm with settleEnd := none, closeAsked := false }

theorem State.shutSettle_eq (s : State) : s.shutSettle =
    if s.fd Fld.DTM_MODE.MODE = 0 then s else (s.settleCleared.engineFree hSettle false).irqPulse 99 0 := rfl

theorem State.settleCleared_fields (s : State) : s.settleCleared.fd Fld.DTM_MODE.MODE = 0 ∧
    s.settleCleared.fd Fld.DTM_MODE.STEP_PEND = s.fd Fld.DTM_MODE.STEP_PEND ∧
      s.settleCleared.fd Fld.DTM_MODE.STEP_USED = s.fd Fld.DTM_MODE.STEP_USED := by
  have hd : ∀ (u : State) (d : DtmState) (f : Fld), (u.setDtm d).fd f = u.fd f := fun _ _ _ => rfl
  unfold State.settleCleared
  rw [hd, hd, hd]
  refine ⟨?_, ?_, ?_⟩
  · rw [State.fd_setF_other _ _ _ _ _ _ (by decide) (by decide) (by decide) (by decide),
      State.fd_setB_other _ _ _ _ _ _ (by decide) (by decide) (by decide) (by decide),
      State.fd_setB_other _ _ _ _ _ _ (by decide) (by decide) (by decide) (by decide)]
    exact State.fd_setF_same _ _ _ _ (by decide) (by decide)
  all_goals
    rw [State.fd_setF_other _ _ _ _ _ _ (by decide) (by decide) (by decide) (by decide),
      State.fd_setB_other _ _ _ _ _ _ (by decide) (by decide) (by decide) (by decide),
      State.fd_setB_other _ _ _ _ _ _ (by decide) (by decide) (by decide) (by decide),
      State.fd_setF_other _ _ _ _ _ _ (by decide) (by decide) (by decide) (by decide)]

/-- A window that closes: RUN, the step's bits and the step as they were (R44). -/
theorem State.shutSettle_closes (s : State) : s.shutSettle.fd Fld.DTM_MODE.MODE = 0 ∧
    s.shutSettle.fd Fld.DTM_MODE.STEP_PEND = s.fd Fld.DTM_MODE.STEP_PEND ∧
      s.shutSettle.fd Fld.DTM_MODE.STEP_USED = s.fd Fld.DTM_MODE.STEP_USED ∧ s.shutSettle.dtm.step = s.dtm.step := by
  rw [State.shutSettle_eq]
  split
  · next h => exact ⟨h, rfl, rfl, rfl⟩
  · obtain ⟨mode, pend, used⟩ := s.settleCleared_fields
    have hstep : s.settleCleared.dtm.step = s.dtm.step := rfl
    have h1 := State.engineFree_keeps (Keeps.refl (maskOf [.timeline, .regs .datum]) s.settleCleared) (by decide) hSettle false
    have h2 := State.irqPulse_keeps (Keeps.refl (maskOf [.regs .irqStat]) (s.settleCleared.engineFree hSettle false)) (by decide) 99 0
    have hc : DatumCalm s.settleCleared ((s.settleCleared.engineFree hSettle false).irqPulse 99 0) :=
      (s.settleCleared.engineFree_datumCalm hSettle false).trans (h2.datumCalm (by decide))
    exact ⟨(hc.fd (f := Fld.DTM_MODE.MODE) rfl (by decide) 0).trans mode, (hc.fd (f := Fld.DTM_MODE.STEP_PEND) rfl (by decide) 0).trans pend,
      (hc.fd (f := Fld.DTM_MODE.STEP_USED) rfl (by decide) 0).trans used,
      (congrArg DtmState.step ((h2.same .dtm (by decide)).trans (h1.same .dtm (by decide)))).trans hstep⟩

theorem State.shutSettle_only (s : State) : Keeps (maskOf [.timeline, .dtm, .regs .irqStat, .regs .datum]) s s.shutSettle :=
  State.shutSettle_keeps (Keeps.refl _ s) (by decide)

/-! ### The step as a whole -/

theorem State.stepMoved_only (s : State) (r : StepReq) : Only [.datum, .replica, .dtm, .tick] s (s.stepMoved r) :=
  ((s.setCounter_only _ _ _).trans (State.setDtm_only _ _)).mono (by decide)

theorem State.stepMoved_moves (s : State) (r : StepReq) : (s.stepMoved r).datum = Datum.shift s.datum r.offset ∧
    (s.stepMoved r).replica = Datum.shift s.replica r.offset ∧ (s.stepMoved r).dtm.step = none ∧ (s.stepMoved r).tick = s.tick :=
  ⟨rfl, rfl, rfl, rfl⟩

theorem State.stepFlags_shows (s : State) : s.stepFlags.fb Fld.DTM_MODE.STEP_PEND = false ∧ s.stepFlags.fb Fld.DTM_MODE.STEP_USED = true := by
  unfold State.stepFlags
  refine ⟨?_, State.fb_setB_same _ _ _ _ (by decide) (by decide)⟩
  exact (State.fb_setB_other _ Fld.DTM_MODE.STEP_USED Fld.DTM_MODE.STEP_PEND _ _ _ (by decide) (by decide) (by decide) (by decide)).trans
    (State.fb_setB_same _ _ _ _ (by decide) (by decide))

theorem State.stepBound_basis (s : State) (r : StepReq) (w : TimeVal) :
    (s.stepBound r w).trv.basis = ⟨w, sideOf r.bound.early, sideOf r.bound.late⟩ := rfl

theorem State.stepShown_only (s : State) (w : TimeVal) : Keeps (maskOf [.regs .ens, .regs .traverse]) s (s.stepShown w) := by
  have h4 : Keeps (maskOf [.regs .ens, .regs .traverse]) s ((s.setPair .ENS_BANK_AT_HI .ENS_BANK_AT_LO w.sec).setB Fld.TRV_STAT.PRE_SOURCE
      false) :=
    State.setB_keeps (State.setPair_keeps (Keeps.refl _ s) (Nat.zero_and _) (by decide) (by decide) _ _) (Nat.zero_and _) (by decide) _ _
  unfold State.stepShown
  exact keeps_ite h4 (State.setB_keeps h4 (Nat.zero_and _) (by decide) _ _)

theorem State.stepBound_only (s : State) (r : StepReq) (w : TimeVal) : Only [.trv, .ens] s (s.stepBound r w) := by
  refine ⟨rfl, fun p hp => ?_⟩
  cases p <;> first | exact rfl | exact fun _ _ _ => rfl | exact absurd hp (by decide)

theorem State.stepFlags_only (s : State) : Keeps (maskOf [.regs .datum]) s s.stepFlags :=
  State.setB_keeps (State.setB_keeps (Keeps.refl _ s) (Nat.zero_and _) (by decide) _ _) (Nat.zero_and _) (by decide) _ _

/-- What applying a step leaves (R48, R50, R142): the counter and the replica moved, RUN, the bound from the step on. -/
theorem State.stepApply_leaves (s : State) (r : StepReq) :
    (s.stepApply r).datum = Datum.shift s.datum r.offset ∧ (s.stepApply r).replica = Datum.shift s.replica r.offset ∧
      (s.stepApply r).dtm.step = none ∧ (s.stepApply r).fd Fld.DTM_MODE.MODE = 0 ∧ (s.stepApply r).fb Fld.DTM_MODE.STEP_PEND = false ∧
      (s.stepApply r).fb Fld.DTM_MODE.STEP_USED = true ∧
      (s.stepApply r).trv.basis = ⟨(Datum.ofCount56 (s.stepEnd r)).word, sideOf r.bound.early, sideOf r.bound.late⟩ := by
  rw [State.stepApply_eq]
  generalize (Datum.ofCount56 (s.stepEnd r)).word = w
  generalize s.datum.count56 + (s.stepMoved r).inc.toNat = a
  generalize s.stepEnd r = b
  obtain ⟨datum, replica, step, -⟩ := s.stepMoved_moves r
  generalize s.stepMoved r = m at datum replica step ⊢
  obtain ⟨pend, used⟩ := m.stepFlags_shows
  have h1 := m.stepFlags_only
  have h2 := m.stepFlags.stepBound_only r w
  have hb := m.stepFlags.stepBound_basis r w
  generalize m.stepFlags = f at pend used h1 h2 hb ⊢
  have h3 := (f.stepBound r w).stepShown_only w
  generalize f.stepBound r w = g at h2 hb h3 ⊢
  have h4 := (g.stepShown w).stepSpread_only r a b s.now w
  have hcalm := (g.stepShown w).stepSpread_datumCalm r a b s.now w
  have hbasis := (g.stepShown w).stepSpread_basis r a b s.now w
  generalize (g.stepShown w).stepSpread r a b s.now w = u at h4 hcalm hbasis ⊢
  have h5 := u.shutSettle_only
  obtain ⟨mode, pendKept, usedKept, stepKept⟩ := u.shutSettle_closes
  have ho : Only ([.regs .datum] ++ [.trv, .ens] ++ [.regs .ens, .regs .traverse] ++ spreading) m u :=
    ((h1.onlyOf.trans h2).trans h3.onlyOf).trans h4.onlyOf
  have hflag : ∀ fl : Fld, fl.reg = .DTM_MODE → u.fd fl = f.fd fl := fun fl hf =>
    ((hcalm.fd (f := fl) (by rw [hf]; rfl) (by rw [hf]; decide) 0).trans (h3.fd (f := fl) (by rw [hf]; decide) 0)).trans
      (h2.fd (f := fl) (by rw [hf]; decide) 0)
  refine ⟨(h5.same .datum (by decide)).trans ((ho.same .datum (by decide)).trans datum),
    (h5.same .replica (by decide)).trans ((ho.same .replica (by decide)).trans replica),
    stepKept.trans ((congrArg DtmState.step (ho.same .dtm (by decide))).trans step), mode, ?_, ?_, ?_⟩
  · exact (congrArg (fun n => decide (n = 1)) (pendKept.trans (hflag Fld.DTM_MODE.STEP_PEND rfl))).trans pend
  · exact (congrArg (fun n => decide (n = 1)) (usedKept.trans (hflag Fld.DTM_MODE.STEP_USED rfl))).trans used
  · exact ((congrArg TrvState.basis (h5.same .trv (by decide))).trans hbasis).trans
      ((congrArg TrvState.basis (h3.same .trv (by decide))).trans hb)

end Sys2Proof.Machine
end

section
/-!
Events that fire (R29, R56), the decoded ARB_IN (R337) and snapshots (R61).
-/
namespace Sys2Proof.Machine

/-! ### A slot freed -/

theorem State.tlCount_only (s : State) : Keeps (maskOf [.regs .datum]) s s.tlCount := State.tlCount_keeps (Keeps.refl _ s) (by decide)

theorem State.freeSlot_only (s : State) (h : Nat) (b : Bool) : Keeps (maskOf [.timeline, .regs .datum]) s (s.freeSlot h b) :=
  State.freeSlot_keeps (Keeps.refl _ s) (by decide) h b

theorem State.freeSlot_timeline (s : State) (h : Nat) (b : Bool) :
    (s.freeSlot h b).timeline = SMap.set id (fun _ => Slot.empty) s.timeline h ⟨none, if b then .fired else .gone⟩ := by
  unfold State.freeSlot
  exact (State.tlCount_only _).same .timeline (by decide)

/-- The slots, where the timeline is the same. -/
theorem slot_congr {s t : State} (h : t.timeline = s.timeline) (k : Nat) : t.slot k = s.slot k :=
  congrArg (fun m => SMap.get (fun _ => Slot.empty) m k) h

theorem State.slot_freeSlot_same (s : State) (h : Nat) : (s.freeSlot h true).slot h = ⟨none, .fired⟩ := by
  unfold State.slot
  rw [State.freeSlot_timeline, SMap.get_set_same]
  rfl

theorem State.slot_freeSlot_other (s : State) (h k : Nat) (b : Bool) (hk : k ≠ h) : (s.freeSlot h b).slot k = s.slot k := by
  unfold State.slot
  rw [State.freeSlot_timeline, SMap.get_set_other _ _ _ _ _ _ hk]

/-! ### Events that fire -/

theorem exec_timelineEventFire {s : State} {h : Nat} {e : Event} (hk : s.clockUp = true) (he : s.firstEvent s.dueEvents = some (h, e)) :
    exec .timelineEventFire s = .next ((s.fireEvent h e false false).blockAction e) := by
  refine congrArg Host.Outcome.next ((State.act_pos _ hk).trans ?_)
  rw [he]

theorem inc_congr {s t : State} (h : DatumCalm s t) : t.inc = s.inc := by
  unfold State.inc State.pair
  rw [h .DTM_INC_HI 0 rfl (by decide), h .DTM_INC_LO 0 rfl (by decide)]

theorem tickOf_congr {s t : State} (h : DatumCalm s t) (hd : t.datum = s.datum) (ht : t.tick = s.tick) (x : TimeVal) :
    t.tickOf x = s.tickOf x := by
  unfold State.tickOf
  simp only [inc_congr h, hd, ht]

/-- The notice of an event at its thread. -/
def State.eventNotice (s : State) (h : Nat) (e : Event) : Notice :=
  s.mkNotice (if e.expiry then .expiry else .wake) 0 h e.instant (if e.expiry then 3 else 5) h

theorem State.eventNotice_freeSlot (s : State) (h : Nat) (e : Event) : (s.freeSlot h true).eventNotice h e = s.eventNotice h e := by
  unfold State.eventNotice State.mkNotice
  rw [tickOf_congr (s.freeSlot_datumCalm h true) ((s.freeSlot_only h true).same .datum (by decide)) ((s.freeSlot_only h true).same .tick (by decide))]

/-- A notice delivered to a thread that is READY waits in its queue. -/
theorem State.notify_ready {s : State} {th : Nat} (h : (s.thread th).st = .ready) (n : Notice) :
    s.notify th n = s.setThread th { (s.thread th) with notices := insertNotice n (s.thread th).notices } := by
  unfold State.notify
  rw [h]
  dsimp only
  unfold State.deliver
  dsimp only
  rw [h]

theorem State.fireEvent_thread {s : State} {h th : Nat} {e : Event} (he : e.target = .thread th) (hr : (s.thread th).st = .ready) :
    s.fireEvent h e false false = (s.freeSlot h true).setThread th
      { (s.thread th) with notices := insertNotice (s.eventNotice h e) (s.thread th).notices } := by
  have ht : (s.freeSlot h true).thread th = s.thread th := (s.freeSlot_only h true).thread (by decide) th
  have hn := s.eventNotice_freeSlot h e
  unfold State.fireEvent
  generalize s.freeSlot h true = u at ht hn ⊢
  rw [he]
  dsimp only
  rw [← hn, ← ht]
  exact State.notify_ready (by rwa [ht]) _

theorem State.fireEvent_source {s : State} {h n : Nat} {e : Event} (he : e.target = .source n) (h1 : 256 ≤ n) (h2 : n < 512)
    (hen : s.fb Fld.IRQ_SRC_CFG.EN n = true) (hm : s.fb Fld.IRQ_SRC_CFG.MODE n = true) :
    s.fireEvent h e false false = (s.freeSlot h true).irqLatch n 0 := by
  have ha : (s.freeSlot h true).fb Fld.IRQ_SRC_CFG.EN n = true := ((s.freeSlot_only h true).fb (by decide) n).trans hen
  have hb : (s.freeSlot h true).fb Fld.IRQ_SRC_CFG.MODE n = true := ((s.freeSlot_only h true).fb (by decide) n).trans hm
  unfold State.fireEvent
  generalize s.freeSlot h true = u at ha hb ⊢
  rw [he]
  exact if_pos ⟨h1, h2, ha, hb⟩

/-- A doorbell raise that its source does not take, counted. -/
def State.dropBell (s : State) : State := (s.bump .IRQ_DB_DROP).setB Fld.IRQ_WSTAT.DB_DROP true

theorem State.fireEvent_dropped {s : State} {h n : Nat} {e : Event} (he : e.target = .source n) (hen : s.fb Fld.IRQ_SRC_CFG.EN n = false) :
    s.fireEvent h e false false = (s.freeSlot h true).dropBell := by
  have ha : (s.freeSlot h true).fb Fld.IRQ_SRC_CFG.EN n = false := ((s.freeSlot_only h true).fb (by decide) n).trans hen
  unfold State.fireEvent
  generalize s.freeSlot h true = u at ha ⊢
  rw [he]
  exact if_neg fun ⟨_, _, hx, _⟩ => absurd (ha.symm.trans hx) (by decide)

theorem State.dropBell_only (s : State) : Keeps (maskOf [.regs .irq]) s s.dropBell :=
  State.setB_keeps (State.bump_keeps (r := .IRQ_DB_DROP) (Keeps.refl _ s) (Nat.zero_and _) (by decide) 0) (Nat.zero_and _) (by decide) _ _

theorem State.dropBell_counts (s : State) :
    s.dropBell.rg .IRQ_DB_DROP 0 = s.rg .IRQ_DB_DROP 0 + 1#32 ∧ s.dropBell.fb Fld.IRQ_WSTAT.DB_DROP = true := by
  unfold State.dropBell
  refine ⟨?_, State.fb_setB_same _ _ _ _ (by decide) (by decide)⟩
  rw [State.rg_setB_other _ _ _ _ _ (by decide)]
  exact State.rg_wr_same _ _ _ _

theorem State.irqLatch_only (s : State) (n d : Nat) : Keeps (maskOf [.regs .irqStat]) s (s.irqLatch n d) :=
  State.irqLatch_keeps (Keeps.refl _ s) (by decide) n d

theorem State.irqLatch_pends (s : State) (n d : Nat) : (s.irqLatch n d).fb Fld.IRQ_SRC_STAT.PEND n = true := by
  unfold State.irqLatch
  split
  · next h =>
    unfold State.fb at h ⊢
    dsimp only
    rwa [State.fd_setF_other _ _ _ _ _ _ (by decide) (by decide) (by decide) (.inr (.inr (.inl (by decide)))),
      State.fd_setF_other _ _ _ _ _ _ (by decide) (by decide) (by decide) (.inr (.inr (.inl (by decide))))]
  · unfold State.fb
    rw [State.fd_setF_other _ _ _ _ _ _ (by decide) (by decide) (by decide) (.inr (.inr (.inl (by decide))))]
    exact State.fb_setB_same _ _ _ _ (by decide) (by decide)

/-! ### A one-shot opened -/

/-- The channel with its one-shot open at an instant. -/
def State.shotOpen (s : State) (n : Nat) (at_ : TimeVal) : TicChan :=
  { (s.tch n) with os := some ⟨s.fd Fld.TIC_OS.TAG n, at_, at_.plus (s.fd Fld.TIC_OS.WINDOW n * usCount), false⟩ }

theorem State.osOpen_opens {s : State} {n : Nat} (at_ : TimeVal) (ho : (s.tch n).os = none) (hen : s.fb Fld.TIC_IN.EN n = true) :
    s.osOpen n at_ = ((s.setTch n (s.shotOpen n at_)).setB Fld.TIC_STAT.OS_PEND true n).engineArm (hTic n)
      (at_.plus (s.fd Fld.TIC_OS.WINDOW n * usCount)) := by
  unfold State.osOpen
  dsimp only
  rw [ho, hen, if_neg (by decide)]
  rfl

theorem State.osOpen_shows {s : State} {n : Nat} (at_ : TimeVal) (ho : (s.tch n).os = none) (hen : s.fb Fld.TIC_IN.EN n = true) :
    (s.osOpen n at_).fb Fld.TIC_STAT.OS_PEND n = true ∧ (s.osOpen n at_).tch n = s.shotOpen n at_ := by
  rw [State.osOpen_opens at_ ho hen]
  have hk := State.engineArm_keeps (Keeps.refl (maskOf [.timeline, .regs .datum])
    ((s.setTch n (s.shotOpen n at_)).setB Fld.TIC_STAT.OS_PEND true n)) (by decide) (hTic n) (at_.plus (s.fd Fld.TIC_OS.WINDOW n * usCount))
  refine ⟨(hk.fb (f := Fld.TIC_STAT.OS_PEND) (by decide) n).trans (State.fb_setB_same _ _ _ _ (by decide) (by decide)), ?_⟩
  refine (congrArg (fun c : TicState => SMap.get (fun _ => TicChan.reset) c.ch n) (hk.same .tic (by decide))).trans ?_
  exact SMap.get_set_same _ _ _ _ _

/-! ### The decoded ARB_IN -/

theorem State.matShow_arb (s : State) : s.matShow.fd Fld.MAT_STAT.ARB = s.pwr.arbIn % 4 := by
  unfold State.matShow
  extract_lets mh win pend age q s1 s2 s3
  have h1 : s1.fd Fld.MAT_STAT.ARB = s.pwr.arbIn % 4 := State.fd_setF_same _ _ _ _ (by decide) (by decide)
  have h2 : s2.fd Fld.MAT_STAT.ARB = s1.fd Fld.MAT_STAT.ARB := by
    dsimp only [s2]
    rw [State.fd_setB_other _ _ _ _ _ _ (by decide) (by decide) (by decide) (by decide),
      State.fd_setB_other _ _ _ _ _ _ (by decide) (by decide) (by decide) (by decide),
      State.fd_setB_other _ _ _ _ _ _ (by decide) (by decide) (by decide) (by decide)]
  have h3 : s3.fd Fld.MAT_STAT.ARB = s2.fd Fld.MAT_STAT.ARB := by
    dsimp only [s3]
    rw [State.fd_setB_other _ _ _ _ _ _ (by decide) (by decide) (by decide) (by decide),
      State.fd_setB_other _ _ _ _ _ _ (by decide) (by decide) (by decide) (by decide),
      State.fd_setB_other _ _ _ _ _ _ (by decide) (by decide) (by decide) (by decide)]
  rw [State.fd_setF_other _ _ _ _ _ _ (by decide) (by decide) (by decide) (by decide), ← h1, ← h2, ← h3]
  exact State.fd_congr (State.rg_wr_other _ _ _ _ _ _ (.inl (by decide)))

theorem State.promote_eq (s : State) (cause : Nat) : ∃ u : State, s.promote cause = u.matShow := ⟨_, rfl⟩

theorem State.matShow_shows {s : State} {code : BitVec 2} (h : s.pwr.arbIn = code.toNat) :
    s.matShow.pwr.arbIn = code.toNat ∧ s.matShow.fd Fld.MAT_STAT.ARB = code.toNat :=
  ⟨(congrArg PwrState.arbIn ((State.matShow_keeps (Keeps.refl (maskOf [.regs .mate]) s) (by decide)).same .pwr (by decide))).trans h,
    by rw [s.matShow_arb, h, Nat.mod_eq_of_lt code.isLt]⟩

theorem State.promote_shows {s : State} {code : BitVec 2} (cause : Nat) (h : s.pwr.arbIn = code.toNat) :
    (s.promote cause).pwr.arbIn = code.toNat ∧ (s.promote cause).fd Fld.MAT_STAT.ARB = code.toNat := by
  have hp : (s.promote cause).pwr = s.pwr :=
    (State.promote_keeps (Keeps.refl 0x4028410C004D80 s) (by decide) cause).same .pwr (by decide)
  obtain ⟨u, hu⟩ := s.promote_eq cause
  have hm : u.matShow.pwr = u.pwr := (State.matShow_keeps (Keeps.refl (maskOf [.regs .mate]) u) (by decide)).same .pwr (by decide)
  have hc : u.pwr.arbIn = code.toNat := by rw [← hm, ← hu, hp, h]
  exact hu ▸ State.matShow_shows hc

/-- The state with the decoded ARB_IN taken. -/
def State.setArb (s : State) (code : Nat) : State := { s with pwr := { s.pwr with arbIn := code } }

theorem State.setArb_only (s : State) (code : Nat) : Only [.pwr] s (s.setArb code) := by
  refine ⟨rfl, fun p hp => ?_⟩
  cases p <;> first | exact rfl | exact fun _ _ _ => rfl | exact absurd hp (by decide)

/-- What the other half's losses and the mate's row make of a changed ARB_IN. -/
def State.arbFollowed (s : State) (code : Nat) (was : Bool) : State :=
  (if code ≠ 0 then ({ s with mat := { s.mat with arbActive := if code = 3 then some s.now else none } } : State).lossEnds
    else { s with mat := { s.mat with arbActive := if code = 3 then some s.now else none } }).matRefresh was

theorem State.arbChange_down {s : State} {code : Nat} (h : s.coreUp = false) : s.arbChange code = s.setArb code := by
  have hc : (!(s.setArb code).coreUp) = true := by rw [show (s.setArb code).coreUp = s.coreUp from rfl, h]; rfl
  exact if_pos hc

theorem State.arbChange_up {s : State} {code : Nat} (h : s.coreUp = true) : s.arbChange code =
    if ((s.setArb code).arbFollowed code s.mateSeen).paired ∧ s.pwr.arbIn = 3 ∧ code = 2 ∧
        ((s.setArb code).arbFollowed code s.mateSeen).role = 3
    then ((s.setArb code).arbFollowed code s.mateSeen).promote 3 else ((s.setArb code).arbFollowed code s.mateSeen).matShow := by
  have hc : ¬ (!(s.setArb code).coreUp) = true := by rw [show (s.setArb code).coreUp = s.coreUp from rfl, h]; decide
  exact if_neg hc

theorem State.arbFollowed_pwr (s : State) (code : Nat) (was : Bool) : (s.arbFollowed code was).pwr = s.pwr := by
  unfold State.arbFollowed
  refine ((State.matRefresh_keeps (Keeps.refl 0x10287004018080 _) (by decide) was).same .pwr (by decide)).trans ?_
  split
  · exact (State.lossEnds_keeps (Keeps.refl 0x4000000 _) (by decide)).same .pwr (by decide)
  · rfl

theorem State.arbChange_shows {s : State} (code : BitVec 2) (h : s.coreUp = true) :
    (s.arbChange code.toNat).pwr.arbIn = code.toNat ∧ (s.arbChange code.toNat).fd Fld.MAT_STAT.ARB = code.toNat := by
  have hp : ((s.setArb code.toNat).arbFollowed code.toNat s.mateSeen).pwr.arbIn = code.toNat :=
    congrArg PwrState.arbIn (State.arbFollowed_pwr _ _ _)
  rw [State.arbChange_up h]
  split
  · exact State.promote_shows 3 hp
  · exact State.matShow_shows hp

/-! ### A snapshot -/

/-- The state with another word in the snapshot's control. -/
def State.snapWr (s : State) (w : BitVec 32) : State := s.wr .DTM_SNAP_CTL 0 w

theorem State.rg_snapWr (s : State) (w : BitVec 32) {r : Reg} (h : r ≠ .DTM_SNAP_CTL) (i : Nat) : (s.snapWr w).rg r i = s.rg r i :=
  State.rg_wr_other s _ r 0 i w (.inl h.symm)

theorem State.fd_snapWr (s : State) (w : BitVec 32) {f : Fld} (h : f.reg ≠ .DTM_SNAP_CTL) (i : Nat) : (s.snapWr w).fd f i = s.fd f i :=
  State.fd_congr (s.rg_snapWr w h i)

theorem State.fb_snapWr (s : State) (w : BitVec 32) {f : Fld} (h : f.reg ≠ .DTM_SNAP_CTL) (i : Nat) : (s.snapWr w).fb f i = s.fb f i := by
  unfold State.fb
  rw [s.fd_snapWr w h i]

/-- The increment does not read the snapshot's control. -/
theorem State.inc_snapWr (s : State) (w : BitVec 32) : (s.snapWr w).inc = s.inc := by
  unfold State.inc State.pair
  rw [s.rg_snapWr w (by decide), s.rg_snapWr w (by decide)]

/-- The holdover model does not read the snapshot's control. -/
theorem State.holdGrowth_snapWr (s : State) (w : BitVec 32) (a b : TimeVal) (n : Nat) :
    (s.snapWr w).holdGrowth a b n = s.holdGrowth a b n := by
  have huy : (s.snapWr w).uy = s.uy := by
    simp (disch := decide) only [State.uy, State.rg_snapWr, State.fb_snapWr]
  have hua : (s.snapWr w).ua = s.ua := by
    simp (disch := decide) only [State.ua, State.rg_snapWr, State.fb_snapWr]
  have huc : (s.snapWr w).uc = s.uc := by
    simp (disch := decide) only [State.uc, State.rg_snapWr, State.fb_snapWr]
  have hres : (s.snapWr w).sigRes = s.sigRes := by
    simp (disch := decide) only [State.sigRes, State.rg_snapWr, State.fb_snapWr]
  have hf : (s.snapWr w).sigF = s.sigF := by
    simp (disch := decide) only [State.sigF, State.rg_snapWr, State.fb_snapWr, State.fd_snapWr]
  unfold State.holdGrowth
  rw [huy, hua, huc, hres, hf]
  rfl

/-- Nor does what a coast adds. -/
theorem State.coastWithin_snapWr (s : State) (w : BitVec 32) (a b : TimeVal) : (s.snapWr w).coastWithin a b = s.coastWithin a b := by
  have h : (s.snapWr w).coastTerm = s.coastTerm := by
    funext c d
    simp (disch := decide) only [State.coastTerm, State.rg_snapWr]
  unfold State.coastWithin
  rw [h]
  rfl

theorem State.bankedSide_snapWr (s : State) (w : BitVec 32) (b : Side) (t : TimeVal) : (s.snapWr w).bankedSide b t = s.bankedSide b t := by
  have hy : (s.snapWr w).yInc = s.yInc := by
    unfold State.yInc
    rw [s.inc_snapWr w]
  have hs : ∀ d, (s.snapWr w).steerFull d = s.steerFull d := fun d => by
    simp (disch := decide) only [State.steerFull, State.srg, State.rg_snapWr]
  have ht : (s.snapWr w).steerTerm t = s.steerTerm t := by
    simp (disch := decide) only [State.steerTerm, State.srg, State.rg_snapWr, hy]
    rfl
  simp (disch := decide) only [State.bankedSide, State.fb_snapWr, State.holdGrowth_snapWr, State.coastWithin_snapWr, hs, ht]
  rfl

theorem State.projSide_snapWr (s : State) (w : BitVec 32) (b : Side) (t : TimeVal) : (s.snapWr w).projSide b t = s.projSide b t := by
  have huy : (s.snapWr w).uy = s.uy := by
    simp (disch := decide) only [State.uy, State.rg_snapWr, State.fb_snapWr]
  simp (disch := decide) only [State.projSide, State.rg_snapWr, State.coastWithin_snapWr, huy]
  rfl

theorem State.unsteeredSide_snapWr (s : State) (w : BitVec 32) (b : Side) (t : TimeVal) :
    (s.snapWr w).unsteeredSide b t = s.unsteeredSide b t := by
  have hs : ∀ d, (s.snapWr w).steerFull d = s.steerFull d := fun d => by
    simp (disch := decide) only [State.steerFull, State.srg, State.rg_snapWr]
  simp only [State.unsteeredSide, State.holdGrowth_snapWr, hs]
  rfl

/-- The Datum bound does not read the snapshot's control. -/
theorem State.datumBound_snapWr (s : State) (w : BitVec 32) (t : TimeVal) : (s.snapWr w).datumBound t = s.datumBound t := by
  have hc : (s.snapWr w).cond = s.cond := s.fd_snapWr w (by decide) 0
  have h : (s.snapWr w).datumSides t = s.datumSides t := by
    simp only [State.datumSides, hc, State.bankedSide_snapWr, State.projSide_snapWr, State.unsteeredSide_snapWr]
    rfl
  unfold State.datumBound
  rw [h]

theorem State.snapInfo_snapWr (s : State) (w : BitVec 32) : (s.snapWr w).snapInfo = s.snapInfo := by
  have hl : (s.snapWr w).inLeapNow = s.inLeapNow := by
    simp (disch := decide) only [State.inLeapNow, State.utcOffset, State.fd_snapWr]
    rfl
  simp (disch := decide) only [State.snapInfo, State.fd_snapWr, State.fb_snapWr, hl]

theorem State.snapshot_snapWr (s : State) (w : BitVec 32) : (s.snapWr w).snapshot = s.snapshot := by
  have hn : (s.snapWr w).now = s.now := rfl
  unfold State.snapshot
  rw [s.inc_snapWr, s.snapInfo_snapWr, hn, s.datumBound_snapWr]

/-- A snapshot shown in its registers. -/
def State.latched (s : State) (x : Snapshot) : State :=
  (((((((s.setPair .DTM_SNAP_SEC_HI .DTM_SNAP_SEC_LO x.at_.sec).wr .DTM_SNAP_NS 0 x.at_.ns).wr .DTM_SNAP_FRAC 0 x.at_.frac).wr
    .DTM_SNAP_EARLY 0 x.b.early).wr .DTM_SNAP_LATE 0 x.b.late).setPair .DTM_SNAP_INC_HI .DTM_SNAP_INC_LO x.inc).wr .DTM_SNAP_INFO 0 x.info)

/-- The registers of a snapshot hold it. -/
def State.Shows (t : State) (x : Snapshot) : Prop :=
  t.pair .DTM_SNAP_SEC_HI .DTM_SNAP_SEC_LO = x.at_.sec ∧ t.rg .DTM_SNAP_NS 0 = x.at_.ns ∧ t.rg .DTM_SNAP_FRAC 0 = x.at_.frac ∧
    t.rg .DTM_SNAP_EARLY 0 = x.b.early ∧ t.rg .DTM_SNAP_LATE 0 = x.b.late ∧ t.pair .DTM_SNAP_INC_HI .DTM_SNAP_INC_LO = x.inc ∧
    t.rg .DTM_SNAP_INFO 0 = x.info

theorem State.latched_shows (s : State) (x : Snapshot) : (s.latched x).Shows x := by
  have hp : ∀ (u : State) (hi lo : Reg) (v : BitVec 64), hi ≠ lo → (u.setPair hi lo v).rg hi 0 ++ (u.setPair hi lo v).rg lo 0 = v :=
    fun u _ _ v h => u.pair_setPair_same h v 0
  unfold State.latched State.Shows State.pair
  simp (disch := decide) only [State.rg_wr_other, State.rg_wr_same, State.rg_setPair_other, hp, and_self]

theorem State.Shows.congr {s t : State} {x : Snapshot} (h : s.Shows x)
    (hr : ∀ r : Reg, r ≠ .DTM_SNAP_CTL → r.group = .datum → t.rg r 0 = s.rg r 0) :
    t.Shows x := by
  unfold State.Shows State.pair at h ⊢
  simp (disch := decide) only [hr]
  exact h

/-- A write of the snapshot's control with GO. -/
def goWord (s : State) (v : BitVec 32) : BitVec 32 :=
  s.rg .DTM_SNAP_CTL 0 &&& ~~~((v ||| 1#32) &&& BitVec.ofNat 32 Reg.DTM_SNAP_CTL.row.w1c)

theorem bit0_go (v : BitVec 32) : bitAt (v ||| 1#32).toNat 0 = true := by
  rw [bitAt_toNat, BitVec.getLsbD_or]
  simp

theorem exec_snapGo {s : State} (h : s.Takes .DTM_SNAP_CTL 0) (v : BitVec 32) : exec (.snapGo v) s = .next (s.snapGo (v ||| 1#32)) := by
  refine congrArg Host.Outcome.next ((hostRow_takes (v ||| 1#32) h).trans ?_)
  rw [entered_plain (by decide) (by decide)]
  rfl

theorem State.snapGo_overruns {s : State} (hp : s.dtm.snapPend = true) (v : BitVec 32) :
    s.snapGo (v ||| 1#32) = (s.snapWr (goWord s v)).setB Fld.DTM_SNAP_CTL.OVERRUN true :=
  (if_pos (bit0_go v)).trans (if_pos hp)

/-- A snapshot is pending: it is shown, not yet DONE. -/
def State.snapTaken (s : State) (x : Snapshot) : State :=
  ((s.latched x).setDtm { (s.latched x).dtm with snapPend := true }).setB Fld.DTM_SNAP_CTL.DONE false

theorem State.snapGo_takes {s : State} (hp : s.dtm.snapPend = false) (v : BitVec 32) :
    s.snapGo (v ||| 1#32) = ((s.snapWr (goWord s v)).snapTaken s.snapshot).irqLine 98 false := by
  rw [← s.snapshot_snapWr (goWord s v)]
  exact (if_pos (bit0_go v)).trans (if_neg (by rw [show (s.w1c .DTM_SNAP_CTL 0 (v ||| 1#32)).dtm = s.dtm from rfl, hp]; decide))

theorem State.Shows.setDtm {u : State} {x : Snapshot} (h : u.Shows x) (d : DtmState) : (u.setDtm d).Shows x := h

theorem State.snapTaken_shows (s : State) (x : Snapshot) : (s.snapTaken x).Shows x ∧ (s.snapTaken x).dtm.snapPend = true ∧
    (s.snapTaken x).fb Fld.DTM_SNAP_CTL.DONE = false := by
  have h := (s.latched_shows x).setDtm { (s.latched x).dtm with snapPend := true }
  have hd : ((s.latched x).setDtm { (s.latched x).dtm with snapPend := true }).dtm.snapPend = true := rfl
  unfold State.snapTaken
  generalize (s.latched x).setDtm { (s.latched x).dtm with snapPend := true } = u at h hd ⊢
  exact ⟨h.congr fun r hr _ => State.rg_setB_other _ _ _ _ _ hr.symm, hd, State.fb_setB_same _ _ _ _ (by decide) (by decide)⟩

theorem snapGo_pending {s : State} (h : s.Takes .DTM_SNAP_CTL 0) (hp : s.dtm.snapPend = true) (v : BitVec 32) :
    Does (.snapGo v) s [.regs .datum]
      fun t => t.fb Fld.DTM_SNAP_CTL.OVERRUN = true ∧ ∀ r, r ≠ .DTM_SNAP_CTL → ∀ i, t.rg r i = s.rg r i := by
  refine does_of_keeps ((exec_snapGo h v).trans (congrArg Host.Outcome.next (State.snapGo_overruns hp v))) ?_
    ⟨State.fb_setB_same _ _ _ _ (by decide) (by decide), fun r hr i => ?_⟩
  · exact State.setB_keeps (State.wr_keeps (Keeps.refl _ s) _ (by decide) _ _) (Nat.zero_and _) (by decide) _ _
  · exact (State.rg_setB_other _ _ _ _ _ hr.symm).trans (s.rg_snapWr _ hr i)

theorem snapGo_latches {s : State} (h : s.Takes .DTM_SNAP_CTL 0) (hp : s.dtm.snapPend = false) (v : BitVec 32) :
    Does (.snapGo v) s [.irq, .dtm, .regs .irqStat, .regs .datum] fun t => t.dtm.snapPend = true ∧
      t.Shows s.snapshot ∧ t.fb Fld.DTM_SNAP_CTL.DONE = false := by
  obtain ⟨hx, hd, hb⟩ := (s.snapWr (goWord s v)).snapTaken_shows s.snapshot
  have hk := State.snapGo_keeps (Keeps.refl 0x20400000C000 s) (by decide) (v ||| 1#32)
  rw [State.snapGo_takes hp] at hk
  have hl := State.irqLine_keeps (Keeps.refl 0x4000004000 ((s.snapWr (goWord s v)).snapTaken s.snapshot)) (by decide) 98 false
  refine does_of_keeps ((exec_snapGo h v).trans (congrArg Host.Outcome.next (State.snapGo_takes hp v))) hk ⟨?_, ?_, ?_⟩
  · exact (congrArg DtmState.snapPend (hl.same .dtm (by decide))).trans hd
  · exact hx.congr fun r _ hg => hl.rg (by rw [hg]; decide) 0
  · exact (hl.fb (f := Fld.DTM_SNAP_CTL.DONE) (by decide) 0).trans hb

end Sys2Proof.Machine
end

section
/-!
The counter and the timeline, clause by clause.
-/
namespace Sys2Proof.Machine

/-! ### The counter -/

theorem dclkTick_plain {s : State} (hk : s.clockUp = true) (hd : s.pwr.dclk = true) (hi : ∀ x ∈ s.dtm.incPending, s.tick < x.1)
    (hs : ∀ r, s.dtm.step = some r → s.tick < r.tick) :
    Does .dclkTick s [.datum, .replica, .tick] fun t => t.datum = Datum.ofCount56 (s.datum.count56 + s.inc.toNat) ∧
      t.replica = Datum.ofCount56 (s.replica.count56 + s.inc.toNat) ∧ t.tick = s.tick + 1 := by
  have hu : s.incTake.stepTake = s := by rw [State.incTake_none hi, State.stepTake_none hs]
  exact ⟨_, (exec_dclkTick hk hd).trans (congrArg Host.Outcome.next (State.dclkTick_eq hu)), s.advanced_counts _, s.advanced_only _⟩

/-- The state with one pending increment in effect. -/
theorem State.incTaken_holds {s : State} {k : Nat} {v : BitVec 64} (hp : s.dtm.incPending = [(k, v)]) (hk : k ≤ s.tick) :
    s.incTake.inc = v ∧ s.incTake.dtm.incPending = [] ∧ s.incTake.dtm.step = s.dtm.step := by
  rw [State.incTake_one hp hk]
  exact ⟨s.incTaken_inc k v, rfl, rfl⟩

theorem dclkTick_increment {s : State} {k : Nat} {v : BitVec 64} (hc : s.clockUp = true) (hp : s.dtm.incPending = [(k, v)]) (hk : k ≤ s.tick)
    (hd : s.pwr.dclk = true) (hs : s.dtm.step = none) :
    Does .dclkTick s [.datum, .replica, .tick, .dtm, .regs .datum] fun t => t.inc = v ∧ t.dtm.incPending = [] ∧
      t.datum = Datum.ofCount56 (s.datum.count56 + v.toNat) ∧ t.replica = Datum.ofCount56 (s.replica.count56 + v.toNat) := by
  obtain ⟨inc, pending, step⟩ := State.incTaken_holds hp hk
  have hx := (exec_dclkTick hc hd).trans (congrArg Host.Outcome.next (State.dclkTick_eq (u := s.incTake)
    (State.stepTake_none (s := s.incTake) fun r hr => absurd ((step.trans hs).symm.trans hr) (by simp))))
  have ho := s.incTake_only.onlyOf
  rw [inc] at hx
  generalize s.incTake = u at inc pending hx ho
  obtain ⟨datum, replica, -⟩ := u.advanced_counts v.toNat
  have ha := u.advanced_only v.toNat
  refine ⟨_, hx, ⟨?_, ?_, ?_, ?_⟩, (ho.trans ha).mono (by decide)⟩
  · exact (congrArg₂ (· ++ ·) (ha.rg (r := .DTM_INC_HI) (by decide) 0) (ha.rg (r := .DTM_INC_LO) (by decide) 0)).trans inc
  · exact (congrArg DtmState.incPending (ha.same .dtm (by decide))).trans pending
  · rw [datum, ho.same .datum (by decide)]
  · rw [replica, ho.same .replica (by decide)]

theorem incTakesEffect_takes {s : State} {k : Nat} {v : BitVec 64} (hc : s.clockUp = true) (hp : s.dtm.incPending = [(k, v)])
    (hk : k ≤ s.tick) : Does .incTakesEffect s [.dtm, .regs .datum] fun t => t.inc = v ∧ t.dtm.incPending = [] := by
  obtain ⟨inc, pending, -⟩ := State.incTaken_holds hp hk
  exact does_of_keeps (congrArg Host.Outcome.next (State.act_pos _ hc)) s.incTake_only ⟨inc, pending⟩

theorem State.inc_stepMoved (s : State) (r : StepReq) : (s.stepMoved r).inc = s.inc :=
  congrArg₂ (· ++ ·) ((s.stepMoved_only r).rg (r := .DTM_INC_HI) (by decide) 0) ((s.stepMoved_only r).rg (r := .DTM_INC_LO) (by decide) 0)

theorem stepApply_moves {s : State} {r : StepReq} (hc : s.clockUp = true) (hs : s.dtm.step = some r) (hk : r.tick ≤ s.tick) :
    Does .stepApply s ([.datum, .replica, .frames, .launches, .dtm, .trv, .tic, .ens, .syn, .prt, .regs .irq, .regs .ens,
        .regs .traverse] ++ notifying)
      fun t => t.datum = Datum.shift s.datum r.offset ∧ t.replica = Datum.shift s.replica r.offset ∧ t.dtm.step = none ∧
        t.fd Fld.DTM_MODE.MODE = 0 ∧ t.fb Fld.DTM_MODE.STEP_PEND = false ∧ t.fb Fld.DTM_MODE.STEP_USED = true ∧
        t.trv.basis = ⟨(Datum.ofCount56 (t.datum.count56 + s.inc.toNat)).word, sideOf r.bound.early, sideOf r.bound.late⟩ := by
  have hx : exec .stepApply s = .next (s.stepApply r) := by
    refine congrArg Host.Outcome.next ((State.act_pos _ hc).trans ?_)
    unfold State.stepTake
    rw [hs]
    exact if_pos hk
  obtain ⟨datum, replica, step, mode, pend, used, basis⟩ := s.stepApply_leaves r
  have hend : s.stepEnd r = (Datum.shift s.datum r.offset).count56 + s.inc.toNat := by
    unfold State.stepEnd
    rw [s.inc_stepMoved r, (s.stepMoved_moves r).1]
  refine does_of_keeps hx (State.stepApply_keeps (Keeps.refl _ s) (by decide) r) ⟨datum, replica, step, mode, pend, used, ?_⟩
  rw [basis, hend, datum]

/-! ### The first reached event -/

theorem State.blockAction_thread (s : State) {e : Event} {th : Nat} (he : e.target = .thread th) : s.blockAction e = s := by
  unfold State.blockAction
  rw [he]

theorem State.blockAction_source (s : State) {e : Event} {n : Nat} (he : e.target = .source n) : s.blockAction e = s := by
  unfold State.blockAction
  rw [he]

theorem State.blockAction_oneShot (s : State) {e : Event} {n : Nat} (he : e.target = .oneShot n) : s.blockAction e = s.osOpen n s.now := by
  unfold State.blockAction
  rw [he]

theorem State.fireEvent_oneShot (s : State) {h n : Nat} {e : Event} (he : e.target = .oneShot n) :
    s.fireEvent h e false false = s.freeSlot h true := by
  unfold State.fireEvent
  rw [he]

section
variable {s : State} {h : Nat} {e : Event} (hc : s.clockUp = true) (hf : s.firstEvent s.dueEvents = some (h, e))
include hc hf

theorem timelineEventFire_thread {th : Nat} (he : e.target = .thread th) (hr : (s.thread th).st = .ready) :
    Does .timelineEventFire s [.timeline, .threads, .regs .datum] fun t => t.slot h = ⟨none, .fired⟩ ∧
      (∀ k, k ≠ h → t.slot k = s.slot k) ∧ (∀ k, k ≠ th → t.thread k = s.thread k) ∧
      ∃ n, n = s.eventNotice h e ∧ t.thread th = { (s.thread th) with notices := insertNotice n (s.thread th).notices } := by
  have hx := exec_timelineEventFire hc hf
  rw [State.blockAction_thread _ he, State.fireEvent_thread he hr] at hx
  have hk := s.freeSlot_only h true
  have hsame := s.slot_freeSlot_same h
  have hother := fun k => s.slot_freeSlot_other h k true
  have hth := hk.thread (by decide)
  generalize s.freeSlot h true = u at hx hk hsame hother hth
  refine does_of_keeps hx (State.setThread_keeps (hk.mono (by decide)) (by decide) th _)
    ⟨hsame, hother, fun k hkt => ?_, _, rfl, u.thread_setThread_same th _⟩
  exact (u.thread_setThread_other th k _ hkt).trans (hth k)

theorem timelineEventFire_source {n : Nat} (he : e.target = .source n) (h1 : 256 ≤ n) (h2 : n < 512)
    (hen : s.fb Fld.IRQ_SRC_CFG.EN n = true) (hm : s.fb Fld.IRQ_SRC_CFG.MODE n = true) :
    Does .timelineEventFire s [.timeline, .regs .datum, .regs .irqStat] fun t => t.slot h = ⟨none, .fired⟩ ∧
      t.fb Fld.IRQ_SRC_STAT.PEND n = true := by
  have hx := exec_timelineEventFire hc hf
  rw [State.blockAction_source _ he, State.fireEvent_source he h1 h2 hen hm] at hx
  have hl := (s.freeSlot h true).irqLatch_only n 0
  refine does_of_keeps hx (State.irqLatch_keeps ((s.freeSlot_only h true).mono (by decide)) (by decide) n 0)
    ⟨?_, State.irqLatch_pends _ n 0⟩
  exact (slot_congr (hl.same .timeline (by decide)) h).trans (s.slot_freeSlot_same h)

theorem timelineEventFire_dropped {n : Nat} (he : e.target = .source n) (hen : s.fb Fld.IRQ_SRC_CFG.EN n = false) :
    Does .timelineEventFire s [.timeline, .regs .datum, .regs .irq] fun t => t.slot h = ⟨none, .fired⟩ ∧
      t.rg .IRQ_DB_DROP 0 = s.rg .IRQ_DB_DROP 0 + 1#32 ∧ t.fb Fld.IRQ_WSTAT.DB_DROP = true := by
  have hx := exec_timelineEventFire hc hf
  rw [State.blockAction_source _ he, State.fireEvent_dropped he hen] at hx
  have hk := s.freeSlot_only h true
  have hsame := s.slot_freeSlot_same h
  generalize s.freeSlot h true = u at hx hk hsame
  obtain ⟨count, flag⟩ := u.dropBell_counts
  have ho := (hk.onlyOf.trans u.dropBell_only.onlyOf).mono (k := [.timeline, .regs .datum, .regs .irq]) (by decide)
  refine ⟨_, hx, ⟨?_, ?_, flag⟩, ho⟩
  · exact (slot_congr (u.dropBell_only.same .timeline (by decide)) h).trans hsame
  · rw [count, hk.rg (by decide)]

theorem timelineEventFire_oneShot {n : Nat} (he : e.target = .oneShot n) (hos : (s.tch n).os = none) (hen : s.fb Fld.TIC_IN.EN n = true) :
    Does .timelineEventFire s [.timeline, .tic, .regs .tic, .regs .datum] fun t => t.fb Fld.TIC_STAT.OS_PEND n = true ∧
      ∃ o, (t.tch n).os = some o ∧ o.openAt = s.now ∧ o.closeAt = s.now.plus (s.fd Fld.TIC_OS.WINDOW n * usCount) ∧
        o.tag = s.fd Fld.TIC_OS.TAG n := by
  have hx := exec_timelineEventFire hc hf
  rw [State.blockAction_oneShot _ he, State.fireEvent_oneShot s he] at hx
  have hk := s.freeSlot_only h true
  have hch : (s.freeSlot h true).tch n = s.tch n :=
    congrArg (fun c : TicState => SMap.get (fun _ => TicChan.reset) c.ch n) (hk.same .tic (by decide))
  have hnow : (s.freeSlot h true).now = s.now := congrArg Datum.word (hk.same .datum (by decide))
  have hwin : (s.freeSlot h true).fd Fld.TIC_OS.WINDOW n = s.fd Fld.TIC_OS.WINDOW n := hk.fd (by decide) n
  have htag : (s.freeSlot h true).fd Fld.TIC_OS.TAG n = s.fd Fld.TIC_OS.TAG n := hk.fd (by decide) n
  have hin : (s.freeSlot h true).fb Fld.TIC_IN.EN n = true := (hk.fb (by decide) n).trans hen
  generalize s.freeSlot h true = u at hx hk hch hnow hwin htag hin
  obtain ⟨shows, chan⟩ := State.osOpen_shows u.now (by rw [hch, hos]) hin
  refine does_of_keeps hx (State.osOpen_keeps (hk.mono (by decide)) (by decide) n u.now)
    ⟨shows, _, congrArg TicChan.os chan, hnow, ?_, htag⟩
  rw [hnow, hwin]

end

theorem arbInDecodeChange_down {s : State} (hc : s.clockUp = true) (code : BitVec 2) (hd : s.coreUp = false) :
    Does (.arbInDecodeChange code) s [.pwr] fun t => t.pwr.arbIn = code.toNat :=
  ⟨_, congrArg Host.Outcome.next ((State.act_pos _ hc).trans (State.arbChange_down hd)), rfl, s.setArb_only _⟩

theorem arbInDecodeChange_up {s : State} (hc : s.clockUp = true) (code : BitVec 2) (hu : s.coreUp = true) :
    Does (.arbInDecodeChange code) s ([.frames, .launches, .dtm, .flt, .mat, .pwr, .regs .fltRec, .regs .fault, .regs .mate,
        .regs .service] ++ notifying) fun t => t.pwr.arbIn = code.toNat ∧ t.fd Fld.MAT_STAT.ARB = code.toNat :=
  does_of_keeps (congrArg Host.Outcome.next (State.act_pos _ hc)) (State.arbChange_keeps (Keeps.refl _ s) (by decide) _)
    (State.arbChange_shows code hu)

/-- Settles O28: the tick, the pending increment and the step by what they make of the counter, an event by its target, the decoded ARB_IN
by what the mate's status shows last, and a snapshot by the registers that it is latched in. -/
theorem counterAndTimeline : Obligations.CounterAndTimeline := by
  unfold Obligations.CounterAndTimeline
  intro s hc
  refine ⟨fun hd hi hs => dclkTick_plain hc hd hi hs, fun k v hp hk hd hs => dclkTick_increment hc hp hk hd hs,
    fun k v hp hk => incTakesEffect_takes hc hp hk, fun r hs hk => stepApply_moves hc hs hk, fun h e hf => ?_, fun code => ?_, fun v h => ?_⟩
  · exact ⟨fun _ he hr => timelineEventFire_thread hc hf he hr, fun _ he h1 h2 hen hm => timelineEventFire_source hc hf he h1 h2 hen hm,
      fun _ he hen => timelineEventFire_dropped hc hf he hen, fun _ he hos hen => timelineEventFire_oneShot hc hf he hos hen⟩
  · exact ⟨arbInDecodeChange_down hc code, arbInDecodeChange_up hc code⟩
  · refine ⟨fun hp => ?_, fun hp => snapGo_pending h hp v⟩
    obtain ⟨t, hx, ⟨pend, ⟨sec, ns, frac, early, late, inc, info⟩, done⟩, ho⟩ := snapGo_latches h hp v
    exact ⟨t, hx, ⟨pend, sec, ns, frac, early, late, inc, info, done⟩, ho⟩

end Sys2Proof.Machine
end

section
/-!
The front door of the host's register writes (R33, R314 to R316, R320, R367): one lemma for each check that turns a write away, and one for
a write that goes on.
-/
namespace Sys2Proof.Machine

/-! ### Violations recorded -/

/-- The fault of a host access violation. -/
def violFault (cause : Nat) : Raise := { rec_ := 469, cause := cause, cls := 0 }

theorem violFault_minor (cause : Nat) : (violFault cause).cls ≠ 3 := by
  show (0 : Nat) ≠ 3
  decide

/-- A host access violation: its register marked, its cause in record 469. -/
def State.hostViol (s : State) (x : Reg) (off cause : Nat) : State := (s.markViol x off).raise (violFault cause)

theorem violWord_bit31 {c o : Nat} (hc : c ≤ 63) (ho : o < 2 ^ 23) : (BitVec.ofNat 32 (2 ^ 31 + c * 2 ^ 25 + o * 4)).getLsbD 31 = true := by
  rw [BitVec.getLsbD_ofNat, Nat.testBit_eq_decide_div_mod_eq]
  simp only [Nat.reduceLT, decide_true, Bool.true_and, decide_eq_true_eq]
  omega

theorem State.markViol_marks (s : State) (x : Reg) (off : Nat) : ((s.markViol x off).rg x 0).getLsbD 31 = true := by
  unfold State.markViol
  rw [State.rg_wr_same]
  refine violWord_bit31 (Nat.min_le_left _ _) ?_
  split
  · exact Nat.mod_lt _ (by decide)
  · exact Nat.mod_lt _ (by decide)

section
variable {s : State} {x : Reg} {cause : Nat} (hx : x.group = .top)
include hx

theorem State.markViol_only (s : State) (off : Nat) : Keeps (maskOf [.regs .top]) s (s.markViol x off) :=
  State.markViol_keeps (Keeps.refl _ s) (Nat.zero_and _) (by unfold Reg.bit; rw [hx]; decide) off

theorem State.hostViol_only (s : State) (off cause : Nat) : Keeps (maskOf (raising ++ [.regs .top])) s (s.hostViol x off cause) :=
  State.raise_minor_keeps (violFault_minor cause) ((State.markViol_only hx s off).mono (by decide)) (by decide)

theorem State.hostViol_recorded (off : Nat) (hc : s.coreUp = true) (hb : cause < 32) :
    ((s.hostViol x off cause).rg x 0).getLsbD 31 = true ∧ Raised (s.hostViol x off cause) 469 cause := by
  have hm := State.markViol_only hx s off
  have hbit := s.markViol_marks x off
  have hup : (s.markViol x off).recordUp 469 = true := by
    unfold State.recordUp State.coreUp
    rw [hm.same .pwr (by decide)]
    exact hc
  unfold State.hostViol
  generalize s.markViol x off = u at hm hbit hup
  refine ⟨?_, State.raise_minor_raised (r := violFault cause) (violFault_minor cause) hup hb⟩
  rw [(State.raise_minor_keeps (r := violFault cause) (violFault_minor cause) (Keeps.refl (maskOf raising) u) (by decide)).rg
    (by rw [hx]; decide)]
  exact hbit

end

/-! ### The unlock and the write-once mark -/

/-- The state with the unlock consumed by a guarded register. -/
def State.unlockSpent (s : State) (r : Reg) (i : Nat) : State :=
  if r.guarded i then ({ s with hst := { s.hst with unlocked := false } }).setB Fld.TOP_UNLOCK.ARMED false else s

/-- The state with the write-once register marked written. -/
def State.onceMarked (s : State) (r : Reg) : State := if r = .MAT_PRIORITY then { s with hst := { s.hst with wosDone := true } } else s

theorem State.entered_eq (s : State) (r : Reg) (i : Nat) : s.entered r i = (s.unlockSpent r i).onceMarked r := rfl

/-- The host's own state replaced. -/
theorem State.setHst_keeps (s : State) (h : HstState) : Keeps (maskOf [.hst]) s { s with hst := h } := by
  refine ⟨rfl, id, id, id, Fuses.Le.refl _, fun p hp => ?_⟩
  cases p <;> first | exact rfl | exact fun _ _ _ => rfl | exact absurd hp (by decide)

theorem State.unlockSpent_only (s : State) (r : Reg) (i : Nat) : Keeps (maskOf unlocking) s (s.unlockSpent r i) := by
  unfold State.unlockSpent
  split
  · exact State.setB_keeps ((s.setHst_keeps _).mono (by decide)) (Nat.zero_and _) (by decide) _ _
  · exact Keeps.refl _ s

theorem State.onceMarked_only (s : State) (r : Reg) : Keeps (maskOf [.hst]) s (s.onceMarked r) := by
  unfold State.onceMarked
  split
  · exact s.setHst_keeps _
  · exact Keeps.refl _ s

theorem State.entered_only (s : State) (r : Reg) (i : Nat) : Keeps (maskOf unlocking) s (s.entered r i) :=
  (s.unlockSpent_only r i).trans (((s.unlockSpent r i).onceMarked_only r).mono (by decide))

theorem State.unlockSpent_wosDone (s : State) (r : Reg) (i : Nat) : (s.unlockSpent r i).hst.wosDone = s.hst.wosDone := by
  unfold State.unlockSpent
  split <;> rfl

/-- The ownership of the entries is read in TOP_OWN alone. -/
theorem owns_congr {s t : State} (o : Nat) (h : t.rg .TOP_OWN o = s.rg .TOP_OWN o) (p : Party) : t.owns p o = s.owns p o := by
  unfold State.owns
  rw [State.fb_congr (f := Fld.TOP_OWN.HELD) h, State.fb_congr (f := Fld.TOP_OWN.ORPHAN) h, State.fd_congr (f := Fld.TOP_OWN.KIND) h,
    State.fd_congr (f := Fld.TOP_OWN.OWNER) h]

theorem State.entered_owns (s : State) (r : Reg) (i : Nat) (p : Party) (o : Nat) : (s.entered r i).owns p o = s.owns p o :=
  owns_congr o ((s.entered_only r i).rg (by decide) o) p

/-! ### The checks -/

/-- The owner's check of a write that the other checks let through. -/
def State.ownerChecked (s : State) (r : Reg) (i : Nat) : State × Bool :=
  match regOwner r i with
  | some o => if ownFixed o || (s.onceMarked r).owns .hostReg o then (s.onceMarked r, true) else ((s.onceMarked r).ownViol (r.addr i), false)
  | none => (s.onceMarked r, true)

/-- The checks after the unlock: the write-once mark, the link, the owner. -/
def State.frontChecked (s : State) (r : Reg) (i : Nat) : State × Bool :=
  if decide (r = .MAT_PRIORITY) && s.hst.wosDone then (s.wosViol (r.addr i), false)
  else if r.onClock i && !s.d2dUp then (s.setB Fld.HST_WSTAT.D2D_DROP true, false)
  else s.ownerChecked r i

theorem State.frontChecked_unwritten {s : State} {r : Reg} {i : Nat} (hw : r = .MAT_PRIORITY → s.hst.wosDone = false) :
    ¬ (decide (r = .MAT_PRIORITY) && (s.unlockSpent r i).hst.wosDone) = true := by
  rw [s.unlockSpent_wosDone r i, Bool.and_eq_true, decide_eq_true_eq]
  rintro ⟨hr, hd⟩
  exact absurd ((hw hr).symm.trans hd) (by decide)

section
variable {s : State} {r : Reg} {i : Nat} (hc : s.coreUp = true) (hl : s.hst.pcieUp = true)
include hc hl

theorem State.front_enabled : ¬ (!s.coreUp || !s.hst.pcieUp) = true := by
  rw [hc, hl]
  decide

theorem State.front_gated (hg : s.regGated r i = true) : s.front r i = (s, false) :=
  (if_neg (State.front_enabled hc hl)).trans (if_pos hg)

theorem State.front_locked (hg : s.regGated r i = false) (hr : r.guarded i = true) (hu : s.hst.unlocked = false) :
    s.front r i = (s.lockViol (r.addr i), false) :=
  (if_neg (State.front_enabled hc hl)).trans ((if_neg (by rw [hg]; decide)).trans (if_pos (by rw [hr, hu]; rfl)))

variable (hg : s.regGated r i = false) (hu : r.guarded i = true → s.hst.unlocked = true)
include hg hu

theorem State.front_unlocked : s.front r i = (s.unlockSpent r i).frontChecked r i := by
  have h : ¬ (r.guarded i && !s.hst.unlocked) = true := by
    rw [Bool.and_eq_true]
    rintro ⟨hr, hn⟩
    rw [hu hr] at hn
    exact absurd hn (by decide)
  refine (if_neg (State.front_enabled hc hl)).trans ((if_neg (by rw [hg]; decide)).trans ((if_neg h).trans ?_))
  simp only [decide_eq_true_eq]
  rfl

theorem State.front_once (hr : r = .MAT_PRIORITY) (hw : s.hst.wosDone = true) :
    s.front r i = ((s.unlockSpent r i).wosViol (r.addr i), false) := by
  rw [State.front_unlocked hc hl hg hu]
  exact if_pos (by rw [s.unlockSpent_wosDone r i, hw, decide_eq_true hr]; rfl)

variable (hw : r = .MAT_PRIORITY → s.hst.wosDone = false)
include hw

theorem State.front_cut (hr : r.onClock i = true) (hd : s.d2dUp = false) :
    s.front r i = ((s.unlockSpent r i).setB Fld.HST_WSTAT.D2D_DROP true, false) := by
  have h : (s.unlockSpent r i).d2dUp = s.d2dUp := (s.unlockSpent_only r i).same .d2dUp (by decide)
  rw [State.front_unlocked hc hl hg hu]
  exact (if_neg (State.frontChecked_unwritten hw)).trans (if_pos (by rw [h, hr, hd]; rfl))

variable (hd : r.onClock i = true → s.d2dUp = true)
include hd

/-- The owner's check: the last one. -/
theorem State.front_linked : s.front r i = (s.unlockSpent r i).ownerChecked r i := by
  have h : (s.unlockSpent r i).d2dUp = s.d2dUp := (s.unlockSpent_only r i).same .d2dUp (by decide)
  have hn : ¬ (r.onClock i && !(s.unlockSpent r i).d2dUp) = true := by
    rw [Bool.and_eq_true, h]
    rintro ⟨hr, hx⟩
    rw [hd hr] at hx
    exact absurd hx (by decide)
  rw [State.front_unlocked hc hl hg hu]
  exact (if_neg (State.frontChecked_unwritten hw)).trans (if_neg hn)

theorem State.front_foreign {o : Nat} (hr : regOwner r i = some o) (hf : ownFixed o = false) (ho : s.owns .hostReg o = false) :
    s.front r i = ((s.entered r i).ownViol (r.addr i), false) := by
  rw [State.front_linked hc hl hg hu hw hd]
  unfold State.ownerChecked
  rw [hr]
  exact if_neg (by rw [← State.entered_eq, s.entered_owns, hf, ho]; decide)

theorem State.front_taken (ho : ∀ o, regOwner r i = some o → ownFixed o = true ∨ s.owns .hostReg o = true) :
    s.front r i = (s.entered r i, true) := by
  rw [State.front_linked hc hl hg hu hw hd]
  unfold State.ownerChecked
  cases hr : regOwner r i with
  | none => rfl
  | some o => exact if_pos (by rw [← State.entered_eq, s.entered_owns, Bool.or_eq_true]; exact ho o hr)

end

end Sys2Proof.Machine
end

section
/-!
Register writes of the host (R309, R315, R319) and the unlock (R314).
-/
namespace Sys2Proof.Machine

/-! ### A register write through BAR0 -/

section
variable {s u : State} {r : Reg} {i : Nat} (v : BitVec 32)

theorem State.hostPosted_discarded (h : s.front r i = (u, false)) : s.hostPosted r i v = u := by
  unfold State.hostPosted
  rw [h]
  rfl

theorem State.hostPosted_clock (h : s.front r i = (u, true)) (hk : r.onClock i = true) : s.hostPosted r i v = u.post .hostReg r i v := by
  unfold State.hostPosted
  rw [h]
  exact (if_pos rfl).trans (if_pos hk)

theorem State.hostPosted_core (h : s.front r i = (u, true)) (hk : r.onClock i = false) :
    s.hostPosted r i v = u.applyWrite .hostReg r i v := by
  unfold State.hostPosted
  rw [h]
  exact (if_pos rfl).trans (if_neg (by rw [hk]; decide))

end

/-- A write of the TOP block. -/
theorem State.applyWrite_top (s : State) {r : Reg} (i : Nat) (v : BitVec 32) (h : r.row.base < 0x10000) :
    s.applyWrite .hostReg r i v = s.topWrite r v := if_pos h

/-- A write of the host's block. -/
theorem State.applyWrite_hst (s : State) {r : Reg} (i : Nat) (v : BitVec 32) (h0 : ¬ r.row.base < 0x10000) (h : r.row.base < 0x20000) :
    s.applyWrite .hostReg r i v = s.hstWrite r i v := (if_neg h0).trans (if_pos h)

theorem State.coreUp_kept {m : Nat} {s t : State} (h : Keeps m s t) (hm : m.testBit Part.pwr.num = false) : t.coreUp = s.coreUp := by
  unfold State.coreUp
  rw [h.same .pwr hm]

section
variable {s : State} {off : BitVec 25} {size : Nat} {w : BitVec 64} (hc : s.coreUp = true) (hl : s.hst.pcieUp = true)
include hc hl

theorem registerWrite_misfit (hb : off.toNat < 0x1000000) (h : size ≠ 4 ∨ off.toNat % 4 ≠ 0 ∨ Reg.ofAddr off.toNat = none) :
    Does (.registerWrite off size w) s [] fun _ => True := by
  have hx : s.bar0Write off.toNat size w = s := by
    refine (if_neg (State.front_enabled hc hl)).trans ((if_neg fun x => absurd x.1 (Nat.not_le.2 hb)).trans ?_)
    by_cases h1 : size ≠ 4 ∨ off.toNat % 4 ≠ 0
    · exact if_pos h1
    · have h2 : Reg.ofAddr off.toNat = none := (or_assoc.2 h).resolve_left h1
      refine (if_neg h1).trans ?_
      rw [h2]
  exact does_of_keeps (congrArg Host.Outcome.next hx) (Keeps.refl _ s) trivial

variable {r : Reg} {i : Nat} (hp : size = 4 ∧ off.toNat % 4 = 0 ∧ off.toNat < 0x1000000 ∧ Reg.ofAddr off.toNat = some (r, i))
include hp

theorem exec_registerWrite : exec (.registerWrite off size w) s = .next (s.hostPosted r i (w.extractLsb' 0 32)) := by
  obtain ⟨hs, ha, hb, hr⟩ := hp
  refine congrArg Host.Outcome.next ((if_neg (State.front_enabled hc hl)).trans ((if_neg fun x => absurd x.1 (Nat.not_le.2 hb)).trans
    ((if_neg fun x => x.elim (absurd hs) (absurd ha)).trans ?_)))
  rw [hr]

theorem registerWrite_gated (hg : s.regGated r i = true) : Does (.registerWrite off size w) s [] fun _ => True :=
  does_of_keeps ((exec_registerWrite hc hl hp).trans (congrArg Host.Outcome.next (State.hostPosted_discarded _ (State.front_gated hc hl hg))))
    (Keeps.refl _ s) trivial

variable (hg : s.regGated r i = false)
include hg

theorem registerWrite_locked (hr : r.guarded i = true) (hu : s.hst.unlocked = false) :
    Does (.registerWrite off size w) s (raising ++ [.regs .top]) fun t =>
      (t.rg .TOP_LOCK_VIOL 0).getLsbD 31 = true ∧ Raised t 469 16 :=
  does_of_keeps ((exec_registerWrite hc hl hp).trans (congrArg Host.Outcome.next
      (State.hostPosted_discarded _ (State.front_locked hc hl hg hr hu))))
    (State.hostViol_only (x := .TOP_LOCK_VIOL) rfl s (r.addr i) 16) (State.hostViol_recorded rfl (r.addr i) hc (by decide))

variable (hu : r.guarded i = true → s.hst.unlocked = true)
include hu

theorem registerWrite_written (hr : r = .MAT_PRIORITY) (hw : s.hst.wosDone = true) :
    Does (.registerWrite off size w) s (raising ++ unlocking) fun t =>
      (t.rg .TOP_WOS_VIOL 0).getLsbD 31 = true ∧ Raised t 469 17 := by
  have hk := s.unlockSpent_only r i
  have hcu := (State.coreUp_kept hk (by decide)).trans hc
  refine does_of_keeps ((exec_registerWrite hc hl hp).trans (congrArg Host.Outcome.next
      (State.hostPosted_discarded _ (State.front_once hc hl hg hu hr hw)))) ?_
    (State.hostViol_recorded (x := .TOP_WOS_VIOL) rfl (r.addr i) hcu (by decide))
  exact (hk.mono (by decide)).trans ((State.hostViol_only (x := .TOP_WOS_VIOL) rfl _ (r.addr i) 17).mono (by decide))

variable (hw : r = .MAT_PRIORITY → s.hst.wosDone = false)
include hw

theorem registerWrite_cut (hr : r.onClock i = true) (hd : s.d2dUp = false) :
    Does (.registerWrite off size w) s (unlocking ++ [.regs .host]) fun t => t.fb Fld.HST_WSTAT.D2D_DROP = true :=
  does_of_keeps ((exec_registerWrite hc hl hp).trans (congrArg Host.Outcome.next
      (State.hostPosted_discarded _ (State.front_cut hc hl hg hu hw hr hd))))
    (State.setB_keeps ((s.unlockSpent_only r i).mono (by decide)) (Nat.zero_and _) (by decide) _ _)
    (State.fb_setB_same _ _ _ _ (by decide) (by decide))

variable (hd : r.onClock i = true → s.d2dUp = true)
include hd

theorem registerWrite_foreign {o : Nat} (hr : regOwner r i = some o) (hf : ownFixed o = false) (ho : s.owns .hostReg o = false) :
    Does (.registerWrite off size w) s (raising ++ unlocking) fun t =>
      (t.rg .TOP_OWN_VIOL 0).getLsbD 31 = true ∧ Raised t 469 18 := by
  have hk := s.entered_only r i
  have hcu := (State.coreUp_kept hk (by decide)).trans hc
  refine does_of_keeps ((exec_registerWrite hc hl hp).trans (congrArg Host.Outcome.next
      (State.hostPosted_discarded _ (State.front_foreign hc hl hg hu hw hd hr hf ho)))) ?_
    (State.hostViol_recorded (x := .TOP_OWN_VIOL) rfl (r.addr i) hcu (by decide))
  exact (hk.mono (by decide)).trans ((State.hostViol_only (x := .TOP_OWN_VIOL) rfl _ (r.addr i) 18).mono (by decide))

variable (ho : ∀ o, regOwner r i = some o → ownFixed o = true ∨ s.owns .hostReg o = true)
include ho

theorem registerWrite_posted (hk : r.onClock i = true) :
    Does (.registerWrite off size w) s unlocking fun t =>
      t.hst.posted = s.hst.posted ++ [⟨.hostReg, ⟨r, i⟩, w.extractLsb' 0 32⟩] := by
  refine does_of_keeps ((exec_registerWrite hc hl hp).trans (congrArg Host.Outcome.next
      (State.hostPosted_clock _ (State.front_taken hc hl hg hu hw hd ho) hk)))
    ((s.entered_only r i).trans ((State.setHst_keeps _ _).mono (by decide))) ?_
  show (s.entered r i).hst.posted ++ _ = _
  rw [entered_posted]

theorem registerWrite_core (hk : r.onClock i = false) :
    exec (.registerWrite off size w) s = .next ((s.entered r i).applyWrite .hostReg r i (w.extractLsb' 0 32)) :=
  (exec_registerWrite hc hl hp).trans (congrArg Host.Outcome.next (State.hostPosted_core _ (State.front_taken hc hl hg hu hw hd ho) hk))

end

/-! ### The unlock -/

/-- The unlock armed or disarmed. -/
def State.unlockSet (s : State) (b : Bool) : State := ({ s with hst := { s.hst with unlocked := b } }).setB Fld.TOP_UNLOCK.ARMED b

theorem State.unlockSet_only (s : State) (b : Bool) : Keeps (maskOf [.hst, .regs .top]) s (s.unlockSet b) :=
  State.setB_keeps ((s.setHst_keeps _).mono (by decide)) (Nat.zero_and _) (by decide) _ _

theorem State.unlockSet_armed (s : State) (b : Bool) : (s.unlockSet b).fb Fld.TOP_UNLOCK.ARMED = b :=
  State.fb_setB_same _ _ _ _ (by decide) (by decide)

theorem State.unlockSet_hst (s : State) (b : Bool) : (s.unlockSet b).hst = { s.hst with unlocked := b } := State.setB_hst _ _ _ _

theorem State.unlockWrite_eq (s : State) (v : BitVec 32) : s.unlockWrite v =
    if v = 0x00005EA1#32 then s.unlockSet true else (s.unlockSet false).lockViol (Reg.TOP_UNLOCK.addr 0) := by
  unfold State.unlockWrite
  by_cases h : v = 0x00005EA1#32
  · rw [if_pos h, decide_eq_true h]
    exact if_pos rfl
  · rw [if_neg h, decide_eq_false h]
    exact if_neg (by decide)

theorem State.lockViol_eq (s : State) (off : Nat) : s.lockViol off = s.hostViol .TOP_LOCK_VIOL off 16 := rfl

theorem exec_topUnlockWrite {s : State} (h : s.Takes .TOP_UNLOCK 0) (v : BitVec 32) :
    exec (.topUnlockWrite v) s = .next (s.unlockWrite v) := by
  refine congrArg Host.Outcome.next ((hostRow_takes v h).trans ?_)
  rw [entered_plain (by decide) (by decide), State.applyWrite_top _ _ _ (by decide)]
  exact if_pos rfl

theorem topUnlockWrite_arms {s : State} (h : s.Takes .TOP_UNLOCK 0) :
    Does (.topUnlockWrite 0x00005EA1#32) s [.hst, .regs .top] fun t => t.hst = { s.hst with unlocked := true } ∧
      t.fb Fld.TOP_UNLOCK.ARMED = true :=
  does_of_keeps ((exec_topUnlockWrite h _).trans (congrArg Host.Outcome.next ((s.unlockWrite_eq _).trans (if_pos rfl)))) (s.unlockSet_only true)
    ⟨s.unlockSet_hst true, s.unlockSet_armed true⟩

theorem topUnlockWrite_disarms {s : State} (h : s.Takes .TOP_UNLOCK 0) {v : BitVec 32} (hv : v ≠ 0x00005EA1#32) :
    Does (.topUnlockWrite v) s (raising ++ [.hst, .regs .top]) fun t => t.hst = { s.hst with unlocked := false } ∧
      t.fb Fld.TOP_UNLOCK.ARMED = false ∧ (t.rg .TOP_LOCK_VIOL 0).getLsbD 31 = true ∧ Raised t 469 16 := by
  have hx : s.unlockWrite v = (s.unlockSet false).hostViol .TOP_LOCK_VIOL (Reg.TOP_UNLOCK.addr 0) 16 := by
    rw [s.unlockWrite_eq, if_neg hv, State.lockViol_eq]
  have hk := s.unlockSet_only false
  have harm := s.unlockSet_armed false
  have hhst : (s.unlockSet false).hst = { s.hst with unlocked := false } := s.unlockSet_hst false
  have hcu := (State.coreUp_kept hk (by decide)).trans h.core
  generalize s.unlockSet false = u at hx hk harm hhst hcu
  have hv := State.hostViol_only (x := .TOP_LOCK_VIOL) rfl u (Reg.TOP_UNLOCK.addr 0) 16
  refine does_of_keeps ((exec_topUnlockWrite h v).trans (congrArg Host.Outcome.next hx)) ((hk.mono (by decide)).trans (hv.mono (by decide)))
    ⟨(hv.same .hst (by decide)).trans hhst, ?_, State.hostViol_recorded rfl _ hcu (by decide)⟩
  have hm : (u.hostViol .TOP_LOCK_VIOL (Reg.TOP_UNLOCK.addr 0) 16).rg .TOP_UNLOCK 0 = u.rg .TOP_UNLOCK 0 :=
    ((State.raise_minor_keeps (violFault_minor 16) (Keeps.refl (maskOf raising) _) (by decide)).rg (by decide) 0).trans
      (State.rg_wr_other _ _ _ _ _ _ (.inl (by decide)))
  exact (State.fb_congr hm).trans harm

end Sys2Proof.Machine
end

section
/-!
The host's queues: enabled and disabled (R323), moved by their doorbells (R324), aborted (R330).
-/
namespace Sys2Proof.Machine

/-- A field lies below the power of its width. -/
theorem State.fd_lt (s : State) (f : Fld) (i : Nat) : s.fd f i < 2 ^ (f.hi - f.lo + 1) := Nat.mod_lt _ (Nat.two_pow_pos _)

theorem exec_hstRow {s : State} {r : Reg} {i : Nat} (h : s.Takes r i) (v : BitVec 32) (hg : r.guarded i = false)
    (h0 : ¬ r.row.base < 0x10000) (h1 : r.row.base < 0x20000) (hr : r ≠ .MAT_PRIORITY) : s.hostRow r i v = s.hstWrite r i v := by
  rw [hostRow_takes v h, entered_plain hg hr, State.applyWrite_hst _ _ _ h0 h1]

/-! ### A queue enabled -/

/-- A queue's counters at zero. -/
def State.queueZeroed (s : State) (q : Nat) : State :=
  (((s.setF Fld.HST_Q_SQ_TAIL.SQ_TAIL 0 q).setF Fld.HST_Q_SQ_HEAD.SQ_HEAD 0 q).setF Fld.HST_Q_CQ_HEAD.CQ_HEAD 0 q).setF
    Fld.HST_Q_CQ_TAIL.CQ_TAIL 0 q

/-- The queue enabled, its phase the first. -/
def State.queueOpened (s : State) (q : Nat) : State := (s.setB Fld.HST_Q_CQ_TAIL.PHASE true q).setB Fld.HST_Q_CFG.EN true q

theorem State.queueZeroed_fields (s : State) (q : Nat) :
    (s.queueZeroed q).fd Fld.HST_Q_SQ_TAIL.SQ_TAIL q = 0 ∧ (s.queueZeroed q).fd Fld.HST_Q_SQ_HEAD.SQ_HEAD q = 0 ∧
      (s.queueZeroed q).fd Fld.HST_Q_CQ_HEAD.CQ_HEAD q = 0 ∧ (s.queueZeroed q).fd Fld.HST_Q_CQ_TAIL.CQ_TAIL q = 0 := by
  have other : ∀ (u : State) (f g : Fld), f.reg ≠ g.reg → (u.setF f 0 q).fd g q = u.fd g q := fun u f g h =>
    State.fd_congr (State.rg_setF_other u f 0 q q h)
  have same : ∀ (u : State) (f : Fld), f.lo ≤ f.hi → f.hi < 32 → (u.setF f 0 q).fd f q = 0 := fun u f h1 h2 =>
    (State.fd_setF_same u f 0 q h1 h2).trans (Nat.zero_mod _)
  unfold State.queueZeroed
  refine ⟨?_, ?_, ?_, same _ _ (by decide) (by decide)⟩
  · rw [other _ _ _ (by decide), other _ _ _ (by decide), other _ _ _ (by decide), same _ _ (by decide) (by decide)]
  · rw [other _ _ _ (by decide), other _ _ _ (by decide), same _ _ (by decide) (by decide)]
  · rw [other _ _ _ (by decide), same _ _ (by decide) (by decide)]

theorem State.queueOpened_fields (s : State) (q : Nat) :
    (s.queueOpened q).queueOn q = true ∧ (s.queueOpened q).fb Fld.HST_Q_CQ_TAIL.PHASE q = true ∧
      (s.queueOpened q).fd Fld.HST_Q_CQ_TAIL.CQ_TAIL q = s.fd Fld.HST_Q_CQ_TAIL.CQ_TAIL q ∧
      ∀ r, r ≠ .HST_Q_CFG → r ≠ .HST_Q_CQ_TAIL → (s.queueOpened q).rg r q = s.rg r q := by
  unfold State.queueOpened
  have hen : ∀ (u : State) r, r ≠ .HST_Q_CFG → (u.setB Fld.HST_Q_CFG.EN true q).rg r q = u.rg r q := fun u r h =>
    State.rg_setB_other u _ _ q q h.symm
  refine ⟨State.fb_setB_same _ _ _ _ (by decide) (by decide), ?_, ?_, fun r h1 h2 => ?_⟩
  · exact (State.fb_congr (hen _ _ (by decide))).trans (State.fb_setB_same _ _ _ _ (by decide) (by decide))
  · exact (State.fd_congr (hen _ _ (by decide))).trans
      (State.fd_setB_other _ _ _ _ _ _ (by decide) (by decide) (by decide) (.inr (.inl (by decide))))
  · exact (hen _ r h1).trans (State.rg_setB_other _ _ _ _ _ h2.symm)

/-- A queue's interrupt line shows and the write is accepted. -/
def State.lineAccepted (s : State) (q : Nat) : State := (s.cqLine q).setB Fld.HST_WSTAT.ACCEPT true

theorem State.lineAccepted_rg (s : State) (q : Nat) {r : Reg} (hr : r.group = .host) (hw : r ≠ .HST_WSTAT) (i : Nat) :
    (s.lineAccepted q).rg r i = s.rg r i :=
  (State.rg_setB_other _ _ _ _ _ hw.symm).trans
    ((State.cqLine_keeps (Keeps.refl (maskOf [.irq, .regs .irqStat]) s) (by decide) q).rg (by rw [hr]; decide) i)

theorem State.lineAccepted_accepts (s : State) (q : Nat) : (s.lineAccepted q).fb Fld.HST_WSTAT.ACCEPT = true :=
  State.fb_setB_same _ _ _ _ (by decide) (by decide)

theorem State.lineAccepted_keeps {m : Nat} {z s : State} (h : Keeps m z s) (hm : maskOf [.irq, .regs .host, .regs .irqStat] &&& m =
    maskOf [.irq, .regs .host, .regs .irqStat]) (q : Nat) : Keeps m z (s.lineAccepted q) :=
  State.setB_keeps (State.cqLine_keeps h (mask_sub (by decide) hm) q) (Nat.zero_and _) (mask_sub (by decide) hm) _ _

theorem State.queueZeroed_keeps (s : State) (q : Nat) : Keeps (maskOf [.regs .host]) s (s.queueZeroed q) :=
  State.setF_keeps (State.setF_keeps (State.setF_keeps (State.setF_keeps (Keeps.refl _ s) (Nat.zero_and _) (by decide) _ _)
    (Nat.zero_and _) (by decide) _ _) (Nat.zero_and _) (by decide) _ _) (Nat.zero_and _) (by decide) _ _

theorem State.queueOpened_keeps (s : State) (q : Nat) : Keeps (maskOf [.regs .host]) s (s.queueOpened q) :=
  State.setB_keeps (State.setB_keeps (Keeps.refl _ s) (Nat.zero_and _) (by decide) _ _) (Nat.zero_and _) (by decide) _ _

theorem State.queueEn_opens (s : State) (q : Nat) {v : BitVec 32} (hv : v.getLsbD 31 = true) :
    s.queueEn q v = ((s.queueZeroed q).queueOpened q).lineAccepted q := if_pos hv

theorem State.hstWrite_cfg (s : State) (q : Nat) (v : BitVec 32) : s.hstWrite .HST_Q_CFG q v = s.queueEn q v := by
  simp only [State.hstWrite, reduceCtorEq, if_false, if_true]

theorem exec_queueEnWrite {s : State} {q : Fin 64} (h : s.Takes .HST_Q_CFG q.val) (v : BitVec 32) :
    exec (.queueEnWrite q v) s = .next (s.queueEn q.val v) :=
  congrArg Host.Outcome.next ((exec_hstRow h v rfl (by decide) (by decide) (by decide)).trans
    (s.hstWrite_cfg q.val v))

theorem queueEnWrite_enables {s : State} {q : Fin 64} (h : s.Takes .HST_Q_CFG q.val) {v : BitVec 32} (hv : v.getLsbD 31 = true) :
    Does (.queueEnWrite q v) s [.irq, .regs .host, .regs .irqStat] fun t => t.queueOn q.val = true ∧
      t.fd Fld.HST_Q_SQ_TAIL.SQ_TAIL q.val = 0 ∧ t.fd Fld.HST_Q_SQ_HEAD.SQ_HEAD q.val = 0 ∧ t.fd Fld.HST_Q_CQ_HEAD.CQ_HEAD q.val = 0 ∧
        t.fd Fld.HST_Q_CQ_TAIL.CQ_TAIL q.val = 0 ∧ t.fb Fld.HST_Q_CQ_TAIL.PHASE q.val = true := by
  have hx := (exec_queueEnWrite h v).trans (congrArg Host.Outcome.next (s.queueEn_opens q.val hv))
  obtain ⟨sqTail, sqHead, cqHead, cqTail⟩ := s.queueZeroed_fields q.val
  have hz := s.queueZeroed_keeps q.val
  generalize s.queueZeroed q.val = u at hx sqTail sqHead cqHead cqTail hz
  obtain ⟨on, phase, tail, rest⟩ := u.queueOpened_fields q.val
  have hk := hz.trans (u.queueOpened_keeps q.val)
  generalize u.queueOpened q.val = w at hx on phase tail rest hk
  have hrg : ∀ r : Reg, r.group = .host → r ≠ .HST_WSTAT → (w.lineAccepted q.val).rg r q.val = w.rg r q.val := fun r hr hw =>
    w.lineAccepted_rg q.val hr hw q.val
  refine does_of_keeps hx (State.lineAccepted_keeps (hk.mono (by decide)) (by decide) q.val) ⟨?_, ?_, ?_, ?_, ?_, ?_⟩
  · exact (State.fb_congr (f := Fld.HST_Q_CFG.EN) (hrg _ rfl (by decide))).trans on
  · exact (State.fd_congr ((hrg _ rfl (by decide)).trans (rest _ (by decide) (by decide)))).trans sqTail
  · exact (State.fd_congr ((hrg _ rfl (by decide)).trans (rest _ (by decide) (by decide)))).trans sqHead
  · exact (State.fd_congr ((hrg _ rfl (by decide)).trans (rest _ (by decide) (by decide)))).trans cqHead
  · exact (State.fd_congr (hrg _ rfl (by decide))).trans (tail.trans cqTail)
  · exact (State.fb_congr (hrg _ rfl (by decide))).trans phase

/-! ### A queue disabled -/

theorem queueEnWrite_busy {s : State} {q : Fin 64} (h : s.Takes .HST_Q_CFG q.val) {v : BitVec 32} (hv : v.getLsbD 31 = false)
    (hon : s.queueOn q.val = true) (hb : s.waiting q.val ≠ 0 ∨ s.outstanding q.val = true) :
    Does (.queueEnWrite q v) s [.regs .host] fun t => t.queueOn q.val = true ∧ t.fb Fld.HST_WSTAT.BUSY = true := by
  have hx : s.queueEn q.val v = s.setB Fld.HST_WSTAT.BUSY true :=
    (if_neg (by rw [bitAt_toNat, hv]; decide)).trans (if_pos ⟨hon, hb⟩)
  refine does_of_keeps ((exec_queueEnWrite h v).trans (congrArg Host.Outcome.next hx))
    (State.setB_keeps (Keeps.refl _ s) (Nat.zero_and _) (by decide) _ _) ⟨?_, State.fb_setB_same _ _ _ _ (by decide) (by decide)⟩
  exact (State.fb_congr (f := Fld.HST_Q_CFG.EN) (State.rg_setB_other _ _ _ _ _ (by decide))).trans hon

/-- An entry of a party orphaned. -/
def State.orphanOwn (s : State) (p : Party) (i : Nat) : State :=
  if !ownFixed i && s.owns p i then s.setB Fld.TOP_OWN.ORPHAN true i else s

theorem State.orphan_eq (s : State) (p : Party) : s.orphan p = (List.range 384).foldl (fun s i => s.orphanOwn p i) s := rfl

theorem State.orphanOwn_other (s : State) (p : Party) {i k : Nat} (h : i ≠ k) : (s.orphanOwn p i).rg .TOP_OWN k = s.rg .TOP_OWN k := by
  unfold State.orphanOwn
  split
  · exact State.rg_wr_other _ _ _ _ _ _ (.inr h)
  · rfl

theorem State.orphanOwn_keeps_orphan (s : State) (p : Party) (i k : Nat) (h : s.fb Fld.TOP_OWN.ORPHAN k = true) :
    (s.orphanOwn p i).fb Fld.TOP_OWN.ORPHAN k = true := by
  by_cases hik : i = k
  · subst hik
    unfold State.orphanOwn
    split
    · exact State.fb_setB_same _ _ _ _ (by decide) (by decide)
    · exact h
  · exact (State.fb_congr (s.orphanOwn_other p hik)).trans h

theorem State.orphanOwn_sets {s : State} {p : Party} {k : Nat} (hf : ownFixed k = false) (ho : s.owns p k = true) :
    (s.orphanOwn p k).fb Fld.TOP_OWN.ORPHAN k = true := by
  unfold State.orphanOwn
  rw [if_pos (by rw [hf, ho]; rfl)]
  exact State.fb_setB_same _ _ _ _ (by decide) (by decide)

/-- An entry that is orphaned, or that stands in the list with the party as its owner, is orphaned in the end. -/
theorem foldl_orphanOwn {p : Party} {k : Nat} (hf : ownFixed k = false) (l : List Nat) :
    ∀ s : State, s.fb Fld.TOP_OWN.ORPHAN k = true ∨ (k ∈ l ∧ s.owns p k = true) →
      (l.foldl (fun s i => s.orphanOwn p i) s).fb Fld.TOP_OWN.ORPHAN k = true := by
  induction l with
  | nil =>
    rintro s (h | ⟨h, -⟩)
    · exact h
    · exact absurd h List.not_mem_nil
  | cons i r ih =>
    rintro s (h | ⟨hk, h⟩)
    · exact ih _ (.inl (s.orphanOwn_keeps_orphan p i k h))
    · by_cases hik : i = k
      · subst hik
        exact ih _ (.inl (State.orphanOwn_sets hf h))
      · exact ih _ (.inr ⟨(List.mem_cons.1 hk).resolve_left (Ne.symm hik), (owns_congr k (s.orphanOwn_other p hik) p).trans h⟩)

theorem State.orphan_orphans {s : State} {p : Party} {k : Nat} (hk : k < 384) (hf : ownFixed k = false) (ho : s.owns p k = true) :
    (s.orphan p).fb Fld.TOP_OWN.ORPHAN k = true := by
  rw [State.orphan_eq]
  exact foldl_orphanOwn hf _ s (.inr ⟨List.mem_range.2 hk, ho⟩)

/-- The queue disabled and the write accepted. -/
def State.queueShut (s : State) (q : Nat) : State := (s.setB Fld.HST_Q_CFG.EN false q).setB Fld.HST_WSTAT.ACCEPT true

theorem State.queueShut_keeps (s : State) (q : Nat) : Keeps (maskOf [.regs .host]) s (s.queueShut q) :=
  State.setB_keeps (State.setB_keeps (Keeps.refl _ s) (Nat.zero_and _) (by decide) _ _) (Nat.zero_and _) (by decide) _ _

theorem State.queueShut_off (s : State) (q : Nat) : (s.queueShut q).queueOn q = false :=
  (State.fb_congr (f := Fld.HST_Q_CFG.EN) (State.rg_setB_other _ _ _ _ _ (by decide))).trans
    (State.fb_setB_same _ _ _ _ (by decide) (by decide))

theorem queueEnWrite_disables {s : State} {q : Fin 64} (h : s.Takes .HST_Q_CFG q.val) {v : BitVec 32} (hv : v.getLsbD 31 = false)
    (hon : s.queueOn q.val = true) (hw : s.waiting q.val = 0) (ho : s.outstanding q.val = false) :
    Does (.queueEnWrite q v) s [.regs .host, .regs .own] fun t => t.queueOn q.val = false ∧
      ∀ o, o < 384 → ownFixed o = false → s.owns (.hostQueue q.val) o = true → t.fb Fld.TOP_OWN.ORPHAN o = true := by
  have hb : ¬ (s.queueOn q.val = true ∧ (s.waiting q.val ≠ 0 ∨ s.outstanding q.val = true)) := by
    rintro ⟨-, hn | hn⟩
    · exact hn hw
    · exact absurd (ho.symm.trans hn) (by decide)
  have hx : s.queueEn q.val v = (s.queueShut q.val).orphan (.hostQueue q.val) :=
    (if_neg (by rw [bitAt_toNat, hv]; decide)).trans ((if_neg hb).trans (if_pos hon))
  have hk := s.queueShut_keeps q.val
  have hoff := s.queueShut_off q.val
  generalize s.queueShut q.val = u at hx hk hoff
  have hr := State.orphan_keeps (Keeps.refl (maskOf [.regs .own]) u) (by decide) (.hostQueue q.val)
  refine does_of_keeps ((exec_queueEnWrite h v).trans (congrArg Host.Outcome.next hx)) ((hk.mono (by decide)).trans (hr.mono (by decide)))
    ⟨(hr.fb (f := Fld.HST_Q_CFG.EN) (by decide) q.val).trans hoff, fun o h1 h2 h3 => ?_⟩
  exact State.orphan_orphans h1 h2 ((owns_congr o (hk.rg (by decide) o) _).trans h3)

/-! ### Doorbells -/

/-- The fault of a doorbell turned away. -/
def bellFault : Raise := { rec_ := 467, cause := 31, cls := 0 }

theorem State.doorbellBad_only (s : State) : Keeps (maskOf (raising ++ [.regs .host])) s s.doorbellBad :=
  State.doorbellBad_keeps (Keeps.refl _ s) (by decide)

theorem State.doorbellBad_refuses {s : State} (hc : s.coreUp = true) :
    s.doorbellBad.fb Fld.HST_WSTAT.DOORBELL = true ∧ Raised s.doorbellBad 467 31 ∧
      ∀ r : Reg, r.group = .host → r ≠ .HST_WSTAT → ∀ i, s.doorbellBad.rg r i = s.rg r i := by
  have hb : (s.setB Fld.HST_WSTAT.DOORBELL true).fb Fld.HST_WSTAT.DOORBELL = true := State.fb_setB_same _ _ _ _ (by decide) (by decide)
  have hup : (s.setB Fld.HST_WSTAT.DOORBELL true).recordUp 467 = true := hc
  have hrg : ∀ r : Reg, r ≠ .HST_WSTAT → ∀ i, (s.setB Fld.HST_WSTAT.DOORBELL true).rg r i = s.rg r i := fun r hr i =>
    State.rg_setB_other _ _ _ _ _ hr.symm
  unfold State.doorbellBad
  generalize s.setB Fld.HST_WSTAT.DOORBELL true = u at hb hup hrg
  have hk := State.raise_minor_keeps (r := bellFault) (by decide) (Keeps.refl (maskOf raising) u) (by decide)
  refine ⟨(hk.fb (f := Fld.HST_WSTAT.DOORBELL) (by decide) 0).trans hb,
    State.raise_minor_raised (r := bellFault) (by decide) hup (by decide), fun r hr hw i => ?_⟩
  exact (hk.rg (by rw [hr]; decide) i).trans (hrg r hw i)

theorem doorbell_refused {s : State} {c : Instr} (hc : s.coreUp = true) (hx : exec c s = .next s.doorbellBad) (q : Nat) (f : Fld)
    (hf : f.reg.group = .host) (hw : f.reg ≠ .HST_WSTAT) :
    Does c s (raising ++ [.regs .host]) fun t => t.fb Fld.HST_WSTAT.DOORBELL = true ∧ Raised t 467 31 ∧ t.fd f q = s.fd f q := by
  obtain ⟨flag, raised, rest⟩ := State.doorbellBad_refuses hc
  exact does_of_keeps hx s.doorbellBad_only ⟨flag, raised, State.fd_congr (rest f.reg hf hw q)⟩

theorem State.hstWrite_sqTail (s : State) (q : Nat) (v : BitVec 32) : s.hstWrite .HST_Q_SQ_TAIL q v = s.sqTail q v := by
  simp only [State.hstWrite, reduceCtorEq, if_false, if_true, or_self]

theorem State.hstWrite_cqHead (s : State) (q : Nat) (v : BitVec 32) : s.hstWrite .HST_Q_CQ_HEAD q v = s.cqHead q v := by
  simp only [State.hstWrite, reduceCtorEq, if_false, if_true, or_self]

theorem exec_sqTailDoorbell {s : State} {q : Fin 64} (h : s.Takes .HST_Q_SQ_TAIL q.val) (v : BitVec 32) :
    exec (.sqTailDoorbell q v) s = .next (s.sqTail q.val v) :=
  congrArg Host.Outcome.next ((exec_hstRow h v rfl (by decide) (by decide) (by decide)).trans (s.hstWrite_sqTail q.val v))

theorem exec_cqHeadWrite {s : State} {q : Fin 64} (h : s.Takes .HST_Q_CQ_HEAD q.val) (v : BitVec 32) :
    exec (.cqHeadWrite q v) s = .next (s.cqHead q.val v) :=
  congrArg Host.Outcome.next ((exec_hstRow h v rfl (by decide) (by decide) (by decide)).trans (s.hstWrite_cqHead q.val v))

/-- Whether a new SQ_TAIL covers at most a ring of commands and of completions. -/
def State.tailFits (s : State) (q : Nat) (v : BitVec 32) : Prop :=
  s.queueOn q = true ∧ diff16 (v.toNat % 65536) (s.fd Fld.HST_Q_SQ_TAIL.SQ_TAIL q) ≤ 64 ∧
    diff16 (v.toNat % 65536) (s.fd Fld.HST_Q_CQ_HEAD.CQ_HEAD q) ≤ 64

/-- Whether a new CQ_HEAD passes over completions that are there. -/
def State.headFits (s : State) (q : Nat) (v : BitVec 32) : Prop :=
  s.queueOn q = true ∧ diff16 (v.toNat % 65536) (s.fd Fld.HST_Q_CQ_HEAD.CQ_HEAD q) ≤
    diff16 (s.fd Fld.HST_Q_CQ_TAIL.CQ_TAIL q) (s.fd Fld.HST_Q_CQ_HEAD.CQ_HEAD q)

theorem sqTailDoorbell_moves {s : State} {q : Fin 64} (h : s.Takes .HST_Q_SQ_TAIL q.val) {v : BitVec 32} (hf : s.tailFits q.val v) :
    Does (.sqTailDoorbell q v) s [.regs .host] fun t => t.fd Fld.HST_Q_SQ_TAIL.SQ_TAIL q.val = v.toNat % 65536 ∧
      t.fb Fld.HST_WSTAT.ACCEPT = true := by
  obtain ⟨hon, h1, h2⟩ := hf
  have hx : s.sqTail q.val v = (s.setF Fld.HST_Q_SQ_TAIL.SQ_TAIL (v.toNat % 65536) q.val).setB Fld.HST_WSTAT.ACCEPT true :=
    if_pos (by rw [hon, decide_eq_true h1, decide_eq_true h2]; rfl)
  refine does_of_keeps ((exec_sqTailDoorbell h v).trans (congrArg Host.Outcome.next hx))
    (State.setB_keeps (State.setF_keeps (Keeps.refl _ s) (Nat.zero_and _) (by decide) _ _) (Nat.zero_and _) (by decide) _ _)
    ⟨?_, State.fb_setB_same _ _ _ _ (by decide) (by decide)⟩
  refine (State.fd_congr (State.rg_setB_other _ _ _ _ _ (by decide))).trans ((State.fd_setF_same _ _ _ _ (by decide) (by decide)).trans ?_)
  exact Nat.mod_mod _ _

theorem sqTailDoorbell_refused {s : State} {q : Fin 64} (h : s.Takes .HST_Q_SQ_TAIL q.val) {v : BitVec 32} (hf : ¬ s.tailFits q.val v) :
    Does (.sqTailDoorbell q v) s (raising ++ [.regs .host]) fun t => t.fb Fld.HST_WSTAT.DOORBELL = true ∧ Raised t 467 31 ∧
      t.fd Fld.HST_Q_SQ_TAIL.SQ_TAIL q.val = s.fd Fld.HST_Q_SQ_TAIL.SQ_TAIL q.val := by
  have hx : s.sqTail q.val v = s.doorbellBad := if_neg fun hb => hf (by
    simpa only [Bool.and_eq_true, decide_eq_true_eq, and_assoc, State.tailFits] using hb)
  exact doorbell_refused h.core ((exec_sqTailDoorbell h v).trans (congrArg Host.Outcome.next hx)) q.val _ rfl (by decide)

theorem cqHeadWrite_moves {s : State} {q : Fin 64} (h : s.Takes .HST_Q_CQ_HEAD q.val) {v : BitVec 32} (hf : s.headFits q.val v) :
    Does (.cqHeadWrite q v) s [.irq, .regs .host, .regs .irqStat] fun t => t.fd Fld.HST_Q_CQ_HEAD.CQ_HEAD q.val = v.toNat % 65536 ∧
      t.fb Fld.HST_WSTAT.ACCEPT = true := by
  obtain ⟨hon, hd⟩ := hf
  have hx : s.cqHead q.val v = (s.setF Fld.HST_Q_CQ_HEAD.CQ_HEAD (v.toNat % 65536) q.val).lineAccepted q.val :=
    if_pos (by rw [hon, decide_eq_true hd]; rfl)
  refine does_of_keeps ((exec_cqHeadWrite h v).trans (congrArg Host.Outcome.next hx))
    (State.lineAccepted_keeps (State.setF_keeps (Keeps.refl _ s) (Nat.zero_and _) (by decide) _ _) (by decide) _)
    ⟨?_, State.lineAccepted_accepts _ _⟩
  refine (State.fd_congr (State.lineAccepted_rg _ _ rfl (by decide) _)).trans ((State.fd_setF_same _ _ _ _ (by decide) (by decide)).trans ?_)
  exact Nat.mod_mod _ _

theorem cqHeadWrite_refused {s : State} {q : Fin 64} (h : s.Takes .HST_Q_CQ_HEAD q.val) {v : BitVec 32} (hf : ¬ s.headFits q.val v) :
    Does (.cqHeadWrite q v) s (raising ++ [.regs .host]) fun t => t.fb Fld.HST_WSTAT.DOORBELL = true ∧ Raised t 467 31 ∧
      t.fd Fld.HST_Q_CQ_HEAD.CQ_HEAD q.val = s.fd Fld.HST_Q_CQ_HEAD.CQ_HEAD q.val := by
  have hx : s.cqHead q.val v = s.doorbellBad := if_neg fun hb => hf (by
    simpa only [Bool.and_eq_true, decide_eq_true_eq, State.headFits] using hb)
  exact doorbell_refused h.core ((exec_cqHeadWrite h v).trans (congrArg Host.Outcome.next hx)) q.val _ rfl (by decide)

/-! ### An abort -/

/-- One command ended by an abort. -/
def State.abortOne (s : State) (q : Nat) (cid : BitVec 32) : State := (s.fetchCmd q).complete q cid .aborted 0

theorem State.abortOne_moves (s : State) (q : Nat) (cid : BitVec 32) :
    (s.abortOne q cid).fd Fld.HST_Q_SQ_HEAD.SQ_HEAD q = (s.fd Fld.HST_Q_SQ_HEAD.SQ_HEAD q + 1) % 65536 ∧
      (s.abortOne q cid).fd Fld.HST_Q_CQ_TAIL.CQ_TAIL q = (s.fd Fld.HST_Q_CQ_TAIL.CQ_TAIL q + 1) % 65536 ∧
      (s.abortOne q cid).rg .HST_Q_SQ_TAIL q = s.rg .HST_Q_SQ_TAIL q := by
  have hrg : ∀ r : Reg, r ≠ .HST_Q_CQ_TAIL → r ≠ .IRQ_SRC_STAT → (s.abortOne q cid).rg r q = (s.fetchCmd q).rg r q := fun r h1 h2 =>
    State.rg_complete _ _ _ _ _ q (.inl h1) h2
  obtain ⟨htail, -⟩ := (s.fetchCmd q).complete_reports q cid .aborted 0
  refine ⟨(State.fd_congr (hrg _ (by decide) (by decide))).trans (s.fetchCmd_head q), ?_,
    (hrg _ (by decide) (by decide)).trans (s.rg_fetchCmd q q (by decide))⟩
  rwa [s.fd_fetchCmd q _ q (by decide)] at htail

/-- The completion of the only command that an abort ends. -/
theorem State.abortOne_reports (s : State) (q : Nat) (cid : BitVec 32) : Reports s (s.abortOne q cid) q cid .aborted 0 := by
  have h := (s.fetchCmd q).complete_reports q cid .aborted 0
  unfold Reports at h ⊢
  rwa [s.fd_fetchCmd q Fld.HST_Q_CQ_TAIL.CQ_TAIL q (by decide), s.fb_fetchCmd q Fld.HST_Q_CQ_TAIL.PHASE q (by decide)] at h

/-- The two counters of a queue after `n` commands ended, and its tail as it was. -/
theorem State.abortEach_moves (q : Nat) (n : Nat) : ∀ (s : State) (cids : List (BitVec 32)),
    (s.abortEach q cids n).fd Fld.HST_Q_SQ_HEAD.SQ_HEAD q = (s.fd Fld.HST_Q_SQ_HEAD.SQ_HEAD q + n) % 65536 ∧
      (s.abortEach q cids n).fd Fld.HST_Q_CQ_TAIL.CQ_TAIL q = (s.fd Fld.HST_Q_CQ_TAIL.CQ_TAIL q + n) % 65536 ∧
      (s.abortEach q cids n).rg .HST_Q_SQ_TAIL q = s.rg .HST_Q_SQ_TAIL q := by
  induction n with
  | zero =>
    intro s cids
    have e : s.abortEach q cids 0 = s := by cases cids <;> rfl
    rw [e]
    exact ⟨(Nat.mod_eq_of_lt (s.fd_lt Fld.HST_Q_SQ_HEAD.SQ_HEAD q)).symm, (Nat.mod_eq_of_lt (s.fd_lt Fld.HST_Q_CQ_TAIL.CQ_TAIL q)).symm, rfl⟩
  | succ n ih =>
    intro s cids
    obtain ⟨head, tail, sq⟩ := s.abortOne_moves q (cids.headD 0)
    obtain ⟨head', tail', sq'⟩ := ih (s.abortOne q (cids.headD 0)) (cids.drop 1)
    have e : s.abortEach q cids (n + 1) = (s.abortOne q (cids.headD 0)).abortEach q (cids.drop 1) n := by cases cids <;> rfl
    rw [e, head', tail', head, tail, Nat.mod_add_mod, Nat.mod_add_mod, Nat.add_assoc, Nat.add_assoc, Nat.add_comm 1 n]
    exact ⟨rfl, rfl, sq'.trans sq⟩

/-- Every waiting command of a queue ended: none waits. -/
theorem State.abortEach_empties (s : State) (q : Nat) (cids : List (BitVec 32)) : (s.abortEach q cids (s.waiting q)).waiting q = 0 := by
  obtain ⟨head, -, sq⟩ := State.abortEach_moves q (s.waiting q) s cids
  have ht : (s.abortEach q cids (s.waiting q)).fd Fld.HST_Q_SQ_TAIL.SQ_TAIL q = s.fd Fld.HST_Q_SQ_TAIL.SQ_TAIL q := State.fd_congr sq
  have h1 : s.fd Fld.HST_Q_SQ_TAIL.SQ_TAIL q < 65536 := s.fd_lt Fld.HST_Q_SQ_TAIL.SQ_TAIL q
  have h2 : s.fd Fld.HST_Q_SQ_HEAD.SQ_HEAD q < 65536 := s.fd_lt Fld.HST_Q_SQ_HEAD.SQ_HEAD q
  unfold State.waiting at head ht ⊢
  rw [head, ht]
  omega

theorem abortWord_bits (v : BitVec 32) : bitAt (v ||| 0x80000000#32).toNat 31 = true ∧ (v ||| 0x80000000#32).toNat % 64 = v.toNat % 64 := by
  refine ⟨?_, ?_⟩
  · rw [bitAt_toNat, BitVec.getLsbD_or]
    simp
  · rw [BitVec.toNat_or, show (64 : Nat) = 2 ^ 6 from rfl, Nat.or_mod_two_pow]
    exact Nat.or_zero _

/-- The state in which an abort begins. -/
def State.abortAccepted (s : State) : State := s.setB Fld.HST_WSTAT.ACCEPT true

theorem State.abortAccepted_keeps (s : State) : Keeps (maskOf [.regs .host]) s s.abortAccepted :=
  State.setB_keeps (Keeps.refl _ s) (Nat.zero_and _) (by decide) _ _

theorem State.abortAccepted_rg (s : State) {r : Reg} (hr : r ≠ .HST_WSTAT) (i : Nat) : s.abortAccepted.rg r i = s.rg r i :=
  State.rg_setB_other _ _ _ _ _ hr.symm

theorem exec_hstAbortGo {s : State} {q : Nat} {v : BitVec 32} (h : s.Takes .HST_ABORT 0) (hv : v.toNat % 64 = q)
    (hon : s.queueOn q = true) (cids : List (BitVec 32)) : exec (.hstAbortGo v cids) s = .next (s.abortAccepted.queueAbort q cids) := by
  have hf : s.front .HST_ABORT 0 = (s, true) := by
    rw [State.front_taken h.core h.link h.gate h.guard h.once h.d2d h.own, entered_plain (by decide) (by decide)]
  obtain ⟨hgo, hq⟩ := abortWord_bits v
  have hon' : s.abortAccepted.queueOn q = true := (State.fb_congr (f := Fld.HST_Q_CFG.EN) (s.abortAccepted_rg (by decide) q)).trans hon
  have ha : s.hstAbort (v ||| 0x80000000#32) cids = s.abortAccepted.queueAbort q cids := by
    unfold State.hstAbort
    rw [hq, hv]
    exact if_pos (by rw [hgo]; exact hon')
  unfold exec execHstAbortGo
  rw [hf]
  exact congrArg Host.Outcome.next ha

theorem State.abortAccepted_waiting (s : State) (q : Nat) : s.abortAccepted.waiting q = s.waiting q := by
  unfold State.waiting
  rw [State.fd_congr (s.abortAccepted_rg (by decide) q), State.fd_congr (s.abortAccepted_rg (by decide) q)]

theorem Reports.congr {s u t : State} {q : Nat} {cid : BitVec 32} {st : Status} {n : Nat} (h : Reports u t q cid st n)
    (hr : u.rg .HST_Q_CQ_TAIL q = s.rg .HST_Q_CQ_TAIL q) : Reports s t q cid st n := by
  unfold Reports at h ⊢
  rwa [State.fd_congr (f := Fld.HST_Q_CQ_TAIL.CQ_TAIL) hr, State.fb_congr (f := Fld.HST_Q_CQ_TAIL.PHASE) hr] at h

theorem hstAbortGo_ends {s : State} {q : Nat} {v : BitVec 32} (h : s.Takes .HST_ABORT 0) (hv : v.toNat % 64 = q)
    (hon : s.queueOn q = true) (cids : List (BitVec 32)) (ho : s.outstanding q = false) :
    Does (.hstAbortGo v cids) s completing fun t => t.waiting q = 0 ∧
      t.fd Fld.HST_Q_CQ_TAIL.CQ_TAIL q = (s.fd Fld.HST_Q_CQ_TAIL.CQ_TAIL q + s.waiting q) % 65536 ∧
        (s.waiting q = 1 → Reports s t q (cids.headD 0) .aborted 0) := by
  have hx := exec_hstAbortGo h hv hon cids
  have hk := s.abortAccepted_keeps
  have hw := s.abortAccepted_waiting q
  have htail := s.abortAccepted_rg (r := .HST_Q_CQ_TAIL) (by decide) q
  have ho' : s.abortAccepted.outstanding q = false := ho
  generalize s.abortAccepted = u at hx hk hw htail ho'
  have ha : u.queueAbort q cids = u.abortEach q cids (u.waiting q) := by
    unfold State.queueAbort
    rw [ho']
    rfl
  obtain ⟨-, tail, -⟩ := State.abortEach_moves q (u.waiting q) u cids
  refine does_of_keeps (hx.trans (congrArg Host.Outcome.next ha))
    (State.abortEach_keeps q _ cids (hk.mono (by decide)) (by decide)) ⟨u.abortEach_empties q cids, ?_, fun h1 => ?_⟩
  · rw [tail, hw, State.fd_congr htail]
  · have e : u.abortEach q cids 1 = u.abortOne q (cids.headD 0) := by cases cids <;> rfl
    rw [hw, h1, e]
    exact (u.abortOne_reports q _).congr htail

theorem State.envEnd_status {s : State} {x : KeyEnv} (hx : s.key.env = some x) : (s.envEnd 0x09).fd Fld.KEY_LAST.STATUS = 9 := by
  unfold State.envEnd State.keyLast
  rw [hx]
  dsimp only
  rw [if_pos rfl]
  refine (State.fd_congr (State.rg_setB_other _ _ _ _ _ (by decide))).trans ?_
  exact (State.fd_setF_other _ _ _ _ _ _ (by decide) (by decide) (by decide) (.inr (.inr (.inl (by decide))))).trans
    (State.fd_setF_same _ _ _ _ (by decide) (by decide))

theorem State.envStop_status {s : State} {x : KeyEnv} (hx : s.key.env = some x) (st : Status) :
    (s.envStop 0x09 st).fd Fld.KEY_LAST.STATUS = 9 := by
  have h := State.envEnd_status hx
  unfold State.envStop
  rw [hx]
  exact ((State.complete_parts _ _ _ _ _).fd (f := Fld.KEY_LAST.STATUS) (by decide) 0).trans h

theorem hstAbortGo_stops {s : State} {q : Nat} {v : BitVec 32} (h : s.Takes .HST_ABORT 0) (hv : v.toNat % 64 = q)
    (hon : s.queueOn q = true) (cids : List (BitVec 32)) (ho : s.outstanding q = true) :
    Does (.hstAbortGo v cids) s (completing ++ [.key, .regs .key]) fun t => t.waiting q = 0 ∧ t.key.env = none ∧
      t.fd Fld.KEY_LAST.STATUS = 9 := by
  have hx := exec_hstAbortGo h hv hon cids
  have hk := s.abortAccepted_keeps
  have ho' : s.abortAccepted.outstanding q = true := ho
  generalize s.abortAccepted = u at hx hk ho'
  have ha : u.queueAbort q cids = (u.envStop 0x09 .aborted).abortEach q cids ((u.envStop 0x09 .aborted).waiting q) := by
    unfold State.queueAbort
    rw [ho']
    rfl
  obtain ⟨x, henv⟩ : ∃ x, u.key.env = some x := by
    unfold State.outstanding at ho'
    cases he : u.key.env with
    | none => rw [he] at ho'; exact absurd ho' Bool.false_ne_true
    | some x => exact ⟨x, rfl⟩
  have hstop := State.envStop_keeps (Keeps.refl (maskOf (completing ++ [.key, .regs .key])) u) (by decide) 0x09 .aborted
  have hnone := u.envStop_env 0x09 .aborted
  have hstat := State.envStop_status henv .aborted
  generalize u.envStop 0x09 .aborted = w at ha hstop hnone hstat
  have heach := State.abortEach_keeps q (w.waiting q) cids (Keeps.refl (maskOf completing) w) (by decide)
  refine does_of_keeps (hx.trans (congrArg Host.Outcome.next ha)) (((hk.mono (by decide)).trans hstop).trans (heach.mono (by decide)))
    ⟨w.abortEach_empties q cids, (congrArg KeyState.env (heach.same .key (by decide))).trans hnone,
      (heach.fd (f := Fld.KEY_LAST.STATUS) (by decide) 0).trans hstat⟩

/-! ### The statement -/

/-- Settles O51: the unlock by the word written; a register write by the first of the front door's checks that it fails, or as it goes on;
the queues by their registers; an abort by induction on the commands that wait. -/
theorem hostWriteCommands : Obligations.HostWriteCommands := by
  unfold Obligations.HostWriteCommands
  intro s off size w r i q v cids
  refine ⟨fun h => ⟨?_, topUnlockWrite_disarms h⟩, fun hc hl => ⟨registerWrite_misfit hc hl, fun hp => ?_⟩,
    fun h => ⟨queueEnWrite_enables h, queueEnWrite_busy h, queueEnWrite_disables h⟩,
    fun h => ⟨sqTailDoorbell_moves h, sqTailDoorbell_refused h⟩, fun h => ⟨cqHeadWrite_moves h, cqHeadWrite_refused h⟩,
    fun h hv hon => ⟨hstAbortGo_ends h hv hon cids, hstAbortGo_stops h hv hon cids⟩⟩
  · rintro rfl
    exact topUnlockWrite_arms h
  · refine ⟨fun hg => registerWrite_gated hc hl hp (Bool.eq_true_of_not_eq_false hg), fun hg hu => ?_, fun hg hu ho => ?_,
      fun hg hu ho hk => ?_, fun hg hu ho hk hn => ?_, fun hg hu ho hk hn => ⟨registerWrite_posted hc hl hp hg hu ho hk hn,
        registerWrite_core hc hl hp hg hu ho hk hn⟩⟩
    · obtain ⟨hr, hn⟩ := Classical.not_imp.1 hu
      exact registerWrite_locked hc hl hp hg hr (Bool.eq_false_of_not_eq_true hn)
    · obtain ⟨hr, hn⟩ := Classical.not_imp.1 ho
      exact registerWrite_written hc hl hp hg hu hr (Bool.eq_true_of_not_eq_false hn)
    · obtain ⟨hr, hn⟩ := Classical.not_imp.1 hk
      exact registerWrite_cut hc hl hp hg hu ho hr (Bool.eq_false_of_not_eq_true hn)
    · obtain ⟨o, hn⟩ := Classical.not_forall.1 hn
      obtain ⟨hr, hn⟩ := Classical.not_imp.1 hn
      obtain ⟨hf, hown⟩ := not_or.1 hn
      exact registerWrite_foreign hc hl hp hg hu ho hk hr (Bool.eq_false_of_not_eq_true hf) (Bool.eq_false_of_not_eq_true hown)

end Sys2Proof.Machine
end

section
/-!
Writes of the increment (R39 to R43): the decision's limits, and what the host's write leaves of an accepted, a lost and a refused one.
-/
namespace Sys2Proof.Machine

/-! ### The limits -/

/-- Of a write that is not lost, the limits alone decide whether it is out of range: the slew limit has no say in it (R39, R40). -/
theorem State.incDecide_range_iff {s : State} {p : Party} {v : BitVec 64} (h : s.incLost p = false) :
    s.incDecide p v = .range ↔ v.toNat < incMin ∨ incMax < v.toNat := by
  unfold State.incDecide
  rw [if_neg (by rw [h]; decide)]
  split
  · next hr => exact iff_of_true rfl hr
  · next hr => exact iff_of_false (by split <;> decide) hr

/-- Settles O6: the decision on a write, and the limits as numbers. -/
theorem incrementLimits : Obligations.IncrementLimits := by
  unfold Obligations.IncrementLimits
  exact ⟨fun _ _ _ h => State.incDecide_range_iff h, by decide, by decide⟩

/-! ### A write of the Datum block -/

/-- A write of the DTM block. -/
theorem State.applyWrite_dtm (s : State) {r : Reg} (i : Nat) (v : BitVec 32) (h0 : 0x100000 ≤ r.row.base) (h1 : r.row.base < 0x110000) :
    s.applyWrite .hostReg r i v = s.dtmWrite r i v := by
  have hlow : ∀ n, n ≤ 0x100000 → ¬ r.row.base < n := fun n hn => Nat.not_lt.2 (hn.trans h0)
  unfold State.applyWrite
  simp only [reduceCtorEq, if_false, hlow 0x10000 (by decide), hlow 0x20000 (by decide), hlow 0x30000 (by decide), hlow 0x40000 (by decide),
    hlow 0x50000 (by decide), hlow 0x60000 (by decide), hlow 0x70000 (by decide), hlow 0x80000 (by decide), hlow 0x100000 (by decide), h1,
    if_true]

/-- A host write of the Datum block that is taken acts as the block says. -/
theorem State.hostRow_dtm {s : State} {r : Reg} {i : Nat} (h : s.Takes r i) (v : BitVec 32) (h0 : 0x100000 ≤ r.row.base)
    (h1 : r.row.base < 0x110000) : s.hostRow r i v = (s.entered r i).dtmWrite r i v :=
  (hostRow_takes v h).trans (State.applyWrite_dtm _ i v h0 h1)

theorem exec_incHiStage {s : State} (h : s.Takes .DTM_INC_HI 0) (v : BitVec 32) :
    exec (.incHiStage v) s = .next (s.setDtm { s.dtm with incStaged := v }) := by
  refine congrArg Host.Outcome.next ((State.hostRow_dtm h v (by decide) (by decide)).trans ?_)
  rw [entered_plain (by decide) (by decide)]
  rfl

theorem exec_incLoCommit {s : State} (h : s.Takes .DTM_INC_LO 0) (v : BitVec 32) : exec (.incLoCommit v) s = .next (s.incHost v) := by
  refine congrArg Host.Outcome.next ((State.hostRow_dtm h v (by decide) (by decide)).trans ?_)
  rw [entered_plain (by decide) (by decide)]
  rfl

theorem incHiStage_stages {s : State} (h : s.Takes .DTM_INC_HI 0) (v : BitVec 32) :
    Does (.incHiStage v) s [.dtm] (fun t => t.dtm = { s.dtm with incStaged := v }) :=
  ⟨_, exec_incHiStage h v, rfl, s.setDtm_only _⟩

/-! ### The host's write of the increment -/

/-- The staged high word after a commit: the value in effect. -/
def State.restaged (s : State) : State := s.setDtm { s.dtm with incStaged := s.rg .DTM_INC_HI 0 }

/-- A one-bit field of a register after a write of another field. -/
theorem State.fb_setF_other (s : State) (f g : Fld) (n i j : Nat) (h1 : f.lo ≤ f.hi) (h2 : f.hi < 32) (h0 : g.lo ≤ g.hi)
    (h3 : f.reg ≠ g.reg ∨ g.hi < f.lo ∨ f.hi < g.lo ∨ i ≠ j) : (s.setF f n i).fb g j = s.fb g j :=
  congrArg (fun n => decide (n = 1)) (State.fd_setF_other s f g n i j h1 h2 h0 h3)

/-- A request to the Datum block refused for a reason, as DTM_WSTAT shows it. -/
def State.refusedFor (s : State) (f : Fld) (reason : Nat) : State := (s.setB f true).setF Fld.DTM_WSTAT.REASON reason

theorem State.refusedFor_keeps (s : State) {f : Fld} (hf : f.reg = .DTM_WSTAT) (n : Nat) :
    Keeps (maskOf [.regs .datum]) s (s.refusedFor f n) :=
  State.setF_keeps (State.setB_keeps (Keeps.refl _ s) (Nat.zero_and _) (by rw [hf]; decide) _ _) (Nat.zero_and _) (by decide) _ _

/-- The flag of the request and the reason, beside each other in DTM_WSTAT. -/
theorem State.refusedFor_shows (s : State) {f : Fld} (h1 : f.lo = f.hi) (h2 : f.hi < Fld.DTM_WSTAT.REASON.lo) {n : Nat} (hn : n < 16) :
    (s.refusedFor f n).fb f = true ∧ (s.refusedFor f n).fd Fld.DTM_WSTAT.REASON = n :=
  ⟨(State.fb_setF_other _ _ f n 0 0 (by decide) (by decide) (Nat.le_of_eq h1) (.inr (.inl h2))).trans
      (State.fb_setB_same s f true 0 h1 (Nat.lt_trans h2 (by decide))),
    (State.fd_setF_same _ _ n 0 (by decide) (by decide)).trans (Nat.mod_eq_of_lt hn)⟩

/-- The fault of a request to the Datum block that is refused to the host. -/
def datumRefused : Raise := { rec_ := 459, cause := 15, cls := 0 }

theorem datumRefused_minor : datumRefused.cls ≠ 3 := by decide

/-- A commit, by the decision on the value that it makes up. -/
theorem State.incHost_eq (s : State) (v : BitVec 32) : s.incHost v =
    State.restaged (match s.incDecide .hostReg (s.dtm.incStaged ++ v) with
      | .accepted => s.incAccept .hostReg (s.dtm.incStaged ++ v)
      | .lost => s.setB Fld.DTM_WSTAT.INC_LOST true
      | .range => (s.refusedFor Fld.DTM_WSTAT.INC_REFUSED 6).raise datumRefused
      | .slew => (s.refusedFor Fld.DTM_WSTAT.INC_REFUSED 0xA).raise datumRefused) := rfl

theorem State.restaged_only {l : List Part} {s t : State} (h : Only l s t) : Only (.dtm :: l) s t.restaged :=
  (h.trans (t.setDtm_only _)).mono fun p hp => by
    rcases List.mem_append.1 hp with hp | hp
    · exact List.mem_cons_of_mem _ hp
    · exact List.mem_cons.2 (.inl (List.mem_singleton.1 hp))

/-- A write that waits for its tick: no register shows it yet. -/
def State.incWaits (s : State) (w : BitVec 64) : State :=
  { s with
    dtm := { s.dtm with incPending := s.dtm.incPending ++ [(s.tick + effectDelay, w)] }
    trv := { s.trv with wrote := true } }

/-- A write that waits, accepted from the host. -/
def State.incMarked (s : State) (w : BitVec 64) : State :=
  ((s.incWaits w).setB Fld.DTM_WSTAT.INC_ACCEPT true).setF Fld.DTM_WSTAT.INC_SRC 2

theorem State.incAccept_host (s : State) (w : BitVec 64) : s.incAccept .hostReg w =
    if s.fd Fld.DTM_MODE.MODE = 1 then (s.incMarked w).setB Fld.DTM_MODE.HOST_INC true else s.incMarked w := rfl

theorem State.incMarked_accepts (s : State) (w : BitVec 64) : (s.incMarked w).fb Fld.DTM_WSTAT.INC_ACCEPT = true := by
  unfold State.incMarked
  generalize s.incWaits w = u
  exact (State.fb_setF_other _ _ _ 2 0 0 (by decide) (by decide) (by decide) (by decide)).trans
    (State.fb_setB_same u _ true 0 (by decide) (by decide))

theorem State.rg_incMarked (s : State) (w : BitVec 64) {r : Reg} (hr : r ≠ .DTM_WSTAT) (i : Nat) : (s.incMarked w).rg r i = s.rg r i :=
  (State.rg_setF_other _ _ 2 0 i hr.symm).trans (State.rg_setB_other (s.incWaits w) _ true 0 i hr.symm)

/-- An accepted write of the host: it waits for its tick, and the increment in effect stays (R15, R42, R43). -/
theorem State.incAccept_host_leaves (s : State) (w : BitVec 64) :
    (s.incAccept .hostReg w).dtm.incPending = s.dtm.incPending ++ [(s.tick + 64, w)] ∧ (s.incAccept .hostReg w).trv.wrote = true ∧
      (s.incAccept .hostReg w).fb Fld.DTM_WSTAT.INC_ACCEPT = true ∧
      ∀ r, r ≠ .DTM_WSTAT → r ≠ .DTM_MODE → (s.incAccept .hostReg w).rg r 0 = s.rg r 0 := by
  have accepts := s.incMarked_accepts w
  have others : ∀ r, r ≠ .DTM_WSTAT → (s.incMarked w).rg r 0 = s.rg r 0 := fun r hr => s.rg_incMarked w hr 0
  rw [s.incAccept_host w]
  have waits : (s.incMarked w).dtm.incPending = s.dtm.incPending ++ [(s.tick + 64, w)] := rfl
  have wrote : (s.incMarked w).trv.wrote = true := rfl
  generalize s.incMarked w = u at *
  split
  · exact ⟨waits, wrote, (State.fb_setB_other u _ _ true 0 0 (by decide) (by decide) (by decide) (by decide)).trans accepts,
      fun r hw hm => (State.rg_setB_other u _ true 0 0 hm.symm).trans (others r hw)⟩
  · exact ⟨waits, wrote, accepts, fun r hw _ => others r hw⟩

theorem incLoCommit_accepted {s : State} (h : s.Takes .DTM_INC_LO 0) {v : BitVec 32}
    (ho : s.incDecide .hostReg (s.dtm.incStaged ++ v) = .accepted) :
    Does (.incLoCommit v) s [.dtm, .trv, .regs .datum] (fun t =>
      t.dtm.incPending = s.dtm.incPending ++ [(s.tick + 64, s.dtm.incStaged ++ v)] ∧ t.trv.wrote = true ∧
        t.fb Fld.DTM_WSTAT.INC_ACCEPT = true ∧ t.inc = s.inc ∧ t.dtm.incStaged = s.rg .DTM_INC_HI 0) := by
  have hx : s.incHost v = (s.incAccept .hostReg (s.dtm.incStaged ++ v)).restaged := by rw [s.incHost_eq, ho]
  obtain ⟨pending, wrote, accept, rest⟩ := s.incAccept_host_leaves (s.dtm.incStaged ++ v)
  have hk := State.incAccept_keeps (Keeps.refl (maskOf [.dtm, .trv, .regs .datum]) s) (by decide) .hostReg (s.dtm.incStaged ++ v)
  generalize s.incAccept .hostReg (s.dtm.incStaged ++ v) = u at *
  have hi := rest .DTM_INC_HI (by decide) (by decide)
  exact ⟨_, (exec_incLoCommit h v).trans (congrArg Host.Outcome.next hx),
    ⟨pending, wrote, accept, congrArg₂ (· ++ ·) hi (rest .DTM_INC_LO (by decide) (by decide)), hi⟩,
    (State.restaged_only hk.onlyOf).mono (by decide)⟩

theorem incLoCommit_lost {s : State} (h : s.Takes .DTM_INC_LO 0) {v : BitVec 32}
    (ho : s.incDecide .hostReg (s.dtm.incStaged ++ v) = .lost) :
    Does (.incLoCommit v) s [.dtm, .regs .datum] (fun t =>
      t.dtm.incPending = s.dtm.incPending ∧ t.fb Fld.DTM_WSTAT.INC_LOST = true) := by
  have hx : s.incHost v = (s.setB Fld.DTM_WSTAT.INC_LOST true).restaged := by rw [s.incHost_eq, ho]
  have hk : Keeps (maskOf [.regs .datum]) s (s.setB Fld.DTM_WSTAT.INC_LOST true) :=
    State.setB_keeps (Keeps.refl _ s) (Nat.zero_and _) (by decide) _ _
  have lost := State.fb_setB_same s Fld.DTM_WSTAT.INC_LOST true 0 (by decide) (by decide)
  have pending := congrArg DtmState.incPending (hk.same .dtm (by decide))
  exact ⟨_, (exec_incLoCommit h v).trans (congrArg Host.Outcome.next hx), ⟨pending, lost⟩, State.restaged_only hk.onlyOf⟩

/-- A refusal's fault: its record holds it where the Keeper region's supply holds, and the registers of the Datum block stay as the
refusal shows them. -/
theorem State.datumRefused_raises (s : State) (hv : s.pwr.vddKeep = true) :
    Raised (s.raise datumRefused) 459 15 ∧ DatumCalm s (s.raise datumRefused) ∧ Keeps (maskOf raising) s (s.raise datumRefused) :=
  ⟨State.raise_minor_raised datumRefused_minor hv (by decide), s.raise_datumCalm datumRefused_minor,
    State.raise_minor_keeps datumRefused_minor (Keeps.refl _ s) rfl⟩

theorem State.incHost_refused {s : State} {v : BitVec 32} {o : IncOutcome} {n : Nat} (hn : o = .range ∧ n = 6 ∨ o = .slew ∧ n = 0xA)
    (ho : s.incDecide .hostReg (s.dtm.incStaged ++ v) = o) :
    s.incHost v = ((s.refusedFor Fld.DTM_WSTAT.INC_REFUSED n).raise datumRefused).restaged := by
  rw [s.incHost_eq v, ho]
  rcases hn with ⟨rfl, rfl⟩ | ⟨rfl, rfl⟩ <;> rfl

theorem incLoCommit_refused {s : State} (h : s.Takes .DTM_INC_LO 0) {v : BitVec 32} (hv : s.pwr.vddKeep = true) {o : IncOutcome} {n : Nat}
    (hn : o = .range ∧ n = 6 ∨ o = .slew ∧ n = 0xA) (ho : s.incDecide .hostReg (s.dtm.incStaged ++ v) = o) :
    Does (.incLoCommit v) s (.dtm :: raising) (fun t => t.dtm.incPending = s.dtm.incPending ∧ t.fb Fld.DTM_WSTAT.INC_REFUSED = true ∧
      t.fd Fld.DTM_WSTAT.REASON = n ∧ Raised t 459 15) := by
  have hlt : n < 16 := by omega
  obtain ⟨refused, reason⟩ := s.refusedFor_shows (f := Fld.DTM_WSTAT.INC_REFUSED) rfl (by decide) hlt
  have hk := s.refusedFor_keeps (f := Fld.DTM_WSTAT.INC_REFUSED) rfl n
  obtain ⟨raised, calm, keeps⟩ := (s.refusedFor Fld.DTM_WSTAT.INC_REFUSED n).datumRefused_raises
    ((congrArg PwrState.vddKeep (hk.same .pwr (by decide))).trans hv)
  have hx := State.incHost_refused hn ho
  have pending := congrArg DtmState.incPending ((keeps.same .dtm (by decide)).trans (hk.same .dtm (by decide)))
  have refused := (calm.fb (f := Fld.DTM_WSTAT.INC_REFUSED) rfl (by decide) 0).trans refused
  have reason := (calm.fd (f := Fld.DTM_WSTAT.REASON) rfl (by decide) 0).trans reason
  have only := State.restaged_only ((hk.mono (by decide)).trans keeps).onlyOf
  exact ⟨_, (exec_incLoCommit h v).trans (congrArg Host.Outcome.next hx), ⟨pending, refused, reason, raised⟩, only⟩

end Sys2Proof.Machine
end

section
/-!
The SETTLE window (R44 to R47): the host's writes that open and close it, its timeout, and the Kindling.
-/
namespace Sys2Proof.Machine

/-! ### What a window that opens shows -/

/-- The registers of a SETTLE window that opens. -/
def State.settleShown (s : State) (kindling : Bool) : State :=
  ((((s.setF Fld.DTM_MODE.MODE 1).setB Fld.DTM_MODE.KINDLING kindling).setB Fld.DTM_MODE.STEP_USED false).setB
    Fld.DTM_MODE.HOST_INC false).setF Fld.DTM_SETTLE_LEFT.SECONDS (s.fd Fld.DTM_SETTLE_TIMEOUT.SECONDS)

/-- The end of a SETTLE window that opens now (R47). -/
def State.settleEnds (s : State) : TimeVal := s.now.plus (s.fd Fld.DTM_SETTLE_TIMEOUT.SECONDS * secCount)

theorem State.openSettle_eq (s : State) (kindling : Bool) : s.openSettle kindling =
    (((s.settleShown kindling).setDtm { s.dtm with settleEnd := some s.settleEnds, closeAsked := false }).engineArm hSettle
      s.settleEnds).irqPulse 99 1 := rfl

theorem State.settleShown_fields (s : State) (kindling : Bool) : (s.settleShown kindling).fd Fld.DTM_MODE.MODE = 1 ∧
    (s.settleShown kindling).fb Fld.DTM_MODE.KINDLING = kindling ∧ (s.settleShown kindling).fb Fld.DTM_MODE.STEP_USED = false ∧
      (s.settleShown kindling).fb Fld.DTM_MODE.HOST_INC = false ∧
      (s.settleShown kindling).fd Fld.DTM_SETTLE_LEFT.SECONDS = s.fd Fld.DTM_SETTLE_TIMEOUT.SECONDS := by
  have hlt : s.fd Fld.DTM_SETTLE_TIMEOUT.SECONDS % 2 ^ 17 = s.fd Fld.DTM_SETTLE_TIMEOUT.SECONDS := Nat.mod_eq_of_lt (s.fd_lt _ 0)
  unfold State.settleShown
  simp (disch := decide) only [State.fd_setF_other, State.fb_setF_other, State.fd_setB_other, State.fb_setB_other, State.fd_setF_same,
    State.fb_setB_same, true_and]
  exact ⟨rfl, hlt⟩

theorem State.rg_settleShown (s : State) (kindling : Bool) {r : Reg} (hm : r ≠ .DTM_MODE) (hl : r ≠ .DTM_SETTLE_LEFT) (i : Nat) :
    (s.settleShown kindling).rg r i = s.rg r i := by
  have hset : ∀ (u : State) (f : Fld) (n : Nat), f.reg = .DTM_MODE → (u.setF f n).rg r i = u.rg r i := fun u f n hf =>
    State.rg_setF_other u f n 0 i (by rw [hf]; exact hm.symm)
  exact (State.rg_setF_other _ _ _ 0 i hl.symm).trans
    ((hset _ _ _ rfl).trans ((hset _ _ _ rfl).trans ((hset _ _ _ rfl).trans (hset _ _ _ rfl))))

theorem State.slot_armSlot_same (s : State) (h : Nat) (e : Event) : ((s.armSlot h e).slot h).armed = some e := by
  unfold State.armSlot
  rw [slot_congr ((State.tlCount_only _).same .timeline (by decide)) h, State.slot_setSlot_same]

theorem State.irqPulse_only (s : State) (n detail : Nat) : Keeps (maskOf [.regs .irqStat]) s (s.irqPulse n detail) :=
  State.irqPulse_keeps (Keeps.refl _ s) (by decide) n detail

/-- What a window that opens leaves (R44, R45, R47): SETTLE with its flags fresh, and its end armed on the timeline. -/
def State.SettleOpens (s : State) (kindling : Bool) (t : State) : Prop :=
  let secs := s.fd Fld.DTM_SETTLE_TIMEOUT.SECONDS
  t.fd Fld.DTM_MODE.MODE = 1 ∧ t.fb Fld.DTM_MODE.KINDLING = kindling ∧
    t.fb Fld.DTM_MODE.STEP_USED = false ∧ t.fb Fld.DTM_MODE.HOST_INC = false ∧ t.fd Fld.DTM_SETTLE_LEFT.SECONDS = secs ∧
    t.dtm.settleEnd = some (s.now.plus (secs * secCount)) ∧ t.dtm.closeAsked = false ∧
    (t.slot hSettle).armed = some ⟨s.now.plus (secs * secCount), .engineTimer, true⟩

/-- What opens depends on the Datum and the timeout alone. -/
theorem State.SettleOpens.congr {s z t : State} {kindling : Bool} (h : z.SettleOpens kindling t) (hd : z.datum = s.datum)
    (hs : z.rg .DTM_SETTLE_TIMEOUT 0 = s.rg .DTM_SETTLE_TIMEOUT 0) : s.SettleOpens kindling t := by
  have hn : z.now = s.now := congrArg Datum.word hd
  have hf : z.fd Fld.DTM_SETTLE_TIMEOUT.SECONDS = s.fd Fld.DTM_SETTLE_TIMEOUT.SECONDS := State.fd_congr hs
  unfold State.SettleOpens at h ⊢
  rwa [← hn, ← hf]

theorem State.setDtm_datumCalm (s : State) (d : DtmState) : DatumCalm s (s.setDtm d) := DatumCalm.of_regs rfl

/-- The registers of the Datum block after a window opened, from those it shows. -/
theorem State.openSettle_calm (s : State) (kindling : Bool) : DatumCalm (s.settleShown kindling) (s.openSettle kindling) := by
  rw [State.openSettle_eq]
  generalize s.settleShown kindling = u
  exact ((u.setDtm_datumCalm _).trans (State.armSlot_datumCalm _ _ _)).trans ((State.irqPulse_only _ _ _).datumCalm (by decide))

theorem State.openSettle_opens (s : State) (kindling : Bool) : s.SettleOpens kindling (s.openSettle kindling) := by
  obtain ⟨mode, kind, used, hostInc, left⟩ := s.settleShown_fields kindling
  have calm := s.openSettle_calm kindling
  have hslot : ((s.openSettle kindling).slot hSettle).armed = some ⟨s.settleEnds, .engineTimer, true⟩ := by
    rw [State.openSettle_eq, slot_congr ((State.irqPulse_only _ _ _).same .timeline (by decide)) hSettle]
    exact State.slot_armSlot_same _ _ _
  have hdtm : (s.openSettle kindling).dtm = { s.dtm with settleEnd := some s.settleEnds, closeAsked := false } := by
    rw [State.openSettle_eq]
    exact ((State.irqPulse_only _ _ _).same .dtm (by decide)).trans
      ((State.engineArm_keeps (Keeps.refl (maskOf [.timeline, .regs .datum]) _) (by decide) hSettle s.settleEnds).same .dtm (by decide))
  exact ⟨(calm.fd (f := Fld.DTM_MODE.MODE) rfl (by decide) 0).trans mode,
    (calm.fb (f := Fld.DTM_MODE.KINDLING) rfl (by decide) 0).trans kind,
    (calm.fb (f := Fld.DTM_MODE.STEP_USED) rfl (by decide) 0).trans used,
    (calm.fb (f := Fld.DTM_MODE.HOST_INC) rfl (by decide) 0).trans hostInc,
    (calm.fd (f := Fld.DTM_SETTLE_LEFT.SECONDS) rfl (by decide) 0).trans left, congrArg DtmState.settleEnd hdtm,
    congrArg DtmState.closeAsked hdtm, hslot⟩

/-! ### What a window that closes leaves -/

/-- What a window that closes leaves (R44): RUN, with no increment withdrawn. -/
def State.SettleCloses (s t : State) : Prop :=
  t.fd Fld.DTM_MODE.MODE = 0 ∧ t.dtm.settleEnd = none ∧ t.fb Fld.DTM_MODE.HOST_INC = false ∧ t.fb Fld.DTM_MODE.KINDLING = false ∧
    t.dtm.incPending = s.dtm.incPending

theorem State.settleCleared_flags (s : State) :
    s.settleCleared.fb Fld.DTM_MODE.HOST_INC = false ∧ s.settleCleared.fb Fld.DTM_MODE.KINDLING = false := by
  have hd : ∀ (u : State) (d : DtmState) (f : Fld), (u.setDtm d).fb f = u.fb f := fun _ _ _ => rfl
  unfold State.settleCleared
  rw [hd, hd]
  simp (disch := decide) only [State.fb_setF_other, State.fb_setB_other, State.fb_setB_same, and_self]

theorem State.shutSettle_shuts (s : State) (hm : s.fd Fld.DTM_MODE.MODE ≠ 0) : s.SettleCloses s.shutSettle := by
  rw [State.shutSettle_eq, if_neg hm]
  obtain ⟨mode, -, -⟩ := s.settleCleared_fields
  obtain ⟨hostInc, kindling⟩ := s.settleCleared_flags
  have hdtm : s.settleCleared.dtm = { s.dtm with settleEnd := none, closeAsked := false } := rfl
  generalize s.settleCleared = z at *
  have hf := State.engineFree_keeps (Keeps.refl (maskOf [.timeline, .regs .datum]) z) (by decide) hSettle false
  have hp := (z.engineFree hSettle false).irqPulse_only 99 0
  have calm := (z.engineFree_datumCalm hSettle false).trans (hp.datumCalm (by decide))
  have hdtm := ((hp.same .dtm (by decide)).trans (hf.same .dtm (by decide))).trans hdtm
  exact ⟨(calm.fd (f := Fld.DTM_MODE.MODE) rfl (by decide) 0).trans mode, congrArg DtmState.settleEnd hdtm,
    (calm.fb (f := Fld.DTM_MODE.HOST_INC) rfl (by decide) 0).trans hostInc,
    (calm.fb (f := Fld.DTM_MODE.KINDLING) rfl (by decide) 0).trans kindling, by rw [hdtm]⟩

/-! ### The host's write of DTM_SETTLE_CTL -/

/-- Of the registers, the checks of a host write change TOP_UNLOCK alone. -/
theorem State.rg_entered (s : State) (r : Reg) (i : Nat) {q : Reg} (hq : q ≠ .TOP_UNLOCK) (j : Nat) :
    (s.entered r i).rg q j = s.rg q j := by
  have h : (s.unlockSpent r i).rg q j = s.rg q j := by
    unfold State.unlockSpent
    split
    · exact State.rg_setB_other _ _ _ _ _ hq.symm
    · rfl
  rw [s.entered_eq r i, ← h]
  unfold State.onceMarked
  split <;> rfl

/-- The source and mute fields of DTM_SETTLE_CTL written. -/
def State.settleWr (s : State) (v : BitVec 32) : State := s.wr .DTM_SETTLE_CTL 0 (v &&& 0x00000107#32)

theorem State.settleWr_keeps (s : State) (v : BitVec 32) : Keeps (maskOf [.regs .datum]) s (s.settleWr v) :=
  State.wr_keeps (Keeps.refl _ s) _ (by decide) _ _

theorem State.rg_settleWr (s : State) (v : BitVec 32) {r : Reg} (hr : r ≠ .DTM_SETTLE_CTL) (i : Nat) : (s.settleWr v).rg r i = s.rg r i :=
  State.rg_wr_other _ _ _ _ _ _ (.inl hr.symm)

/-- A write with OPEN, by what it finds (R46). -/
theorem State.settleCtl_open (s : State) {v : BitVec 32} (hv : bitAt v.toNat 31 = true) : s.settleCtl v =
    if s.svcState = 1 then s.refusedFor Fld.DTM_WSTAT.SETTLE_REFUSED 1
    else if s.fd Fld.DTM_MODE.MODE = 1 then s.refusedFor Fld.DTM_WSTAT.SETTLE_REFUSED 2
    else (s.settleWr v).openSettle false := if_pos hv

/-- A write with CLOSE and without OPEN in SETTLE (R47). -/
theorem State.settleCtl_close (s : State) {v : BitVec 32} (h31 : bitAt v.toNat 31 = false) (h30 : bitAt v.toNat 30 = true)
    (hm : s.fd Fld.DTM_MODE.MODE ≠ 0) : s.settleCtl v =
    if s.dtm.step.isSome then (s.settleWr v).setDtm { s.dtm with closeAsked := true } else (s.settleWr v).shutSettle := by
  have hz : (s.settleWr v).fd Fld.DTM_MODE.MODE = s.fd Fld.DTM_MODE.MODE := State.fd_congr (s.rg_settleWr v (by decide) 0)
  exact (if_neg (by rw [h31]; decide)).trans ((if_pos h30).trans (if_neg (by rw [← State.settleWr, hz]; exact hm)))

theorem bit31_open (v : BitVec 32) : bitAt (v ||| 0x80000000#32).toNat 31 = true := by
  rw [bitAt_toNat, BitVec.getLsbD_or]
  simp

theorem bits_close (v : BitVec 32) : bitAt ((v ||| 0x40000000#32) &&& 0x7FFFFFFF#32).toNat 31 = false ∧
    bitAt ((v ||| 0x40000000#32) &&& 0x7FFFFFFF#32).toNat 30 = true := by
  rw [bitAt_toNat, bitAt_toNat]
  simp

/-- OPEN is no field that stays written. -/
theorem openWord_fields (v : BitVec 32) : (v ||| 0x80000000#32) &&& 0x00000107#32 = v &&& 0x00000107#32 := by
  rw [BitVec.and_comm, BitVec.and_or_distrib_left, BitVec.and_comm]
  exact BitVec.or_zero

/-! ### The commands -/

/-- The state in which a host write of DTM_SETTLE_CTL acts reads as the one before it, but for the unlock. -/
theorem State.enteredSettle (s : State) : Keeps (maskOf unlocking) s (s.entered .DTM_SETTLE_CTL 0) ∧
    ∀ r, r ≠ .TOP_UNLOCK → ∀ i, (s.entered .DTM_SETTLE_CTL 0).rg r i = s.rg r i :=
  ⟨s.entered_only _ _, fun _ hr i => s.rg_entered _ _ hr i⟩

theorem exec_settleOpen {s : State} (h : s.Takes .DTM_SETTLE_CTL 0) (v : BitVec 32) :
    exec (.settleOpen v) s = .next ((s.entered .DTM_SETTLE_CTL 0).settleCtl (v ||| 0x80000000#32)) :=
  congrArg Host.Outcome.next (State.hostRow_dtm h _ (by decide) (by decide))

theorem exec_settleClose {s : State} (h : s.Takes .DTM_SETTLE_CTL 0) (v : BitVec 32) :
    exec (.settleClose v) s = .next ((s.entered .DTM_SETTLE_CTL 0).settleCtl ((v ||| 0x40000000#32) &&& 0x7FFFFFFF#32)) :=
  congrArg Host.Outcome.next (State.hostRow_dtm h _ (by decide) (by decide))

theorem settleOpen_opens {s : State} (h : s.Takes .DTM_SETTLE_CTL 0) (v : BitVec 32) (hs : s.svcState ≠ 1)
    (hm : s.fd Fld.DTM_MODE.MODE = 0) :
    Does (.settleOpen v) s (unlocking ++ [.timeline, .dtm, .regs .irqStat, .regs .datum]) (fun t => s.SettleOpens false t ∧
      t.rg .DTM_SETTLE_CTL 0 = v &&& 0x107#32) := by
  obtain ⟨hk, hr⟩ := s.enteredSettle
  have hx := exec_settleOpen h v
  generalize s.entered .DTM_SETTLE_CTL 0 = z at hk hr hx
  have hs : z.svcState ≠ 1 := (State.fd_congr (hr _ (by decide) 0)).trans_ne hs
  have hm : z.fd Fld.DTM_MODE.MODE ≠ 1 := by
    rw [State.fd_congr (f := Fld.DTM_MODE.MODE) (hr _ (by decide) 0), hm]
    decide
  rw [z.settleCtl_open (bit31_open v), if_neg hs, if_neg hm] at hx
  have hw := z.settleWr_keeps (v ||| 0x80000000#32)
  have hto := (z.rg_settleWr (v ||| 0x80000000#32) (r := .DTM_SETTLE_TIMEOUT) (by decide) 0).trans (hr _ (by decide) 0)
  have hctl : (z.settleWr (v ||| 0x80000000#32)).rg .DTM_SETTLE_CTL 0 = v &&& 0x107#32 :=
    (State.rg_wr_same _ _ _ _).trans (openWord_fields v)
  generalize z.settleWr (v ||| 0x80000000#32) = u at hx hw hto hctl
  have hd : u.datum = s.datum := (hw.same .datum (by decide)).trans (hk.same .datum (by decide))
  have ho := State.openSettle_keeps (Keeps.refl (maskOf [.timeline, .dtm, .regs .irqStat, .regs .datum]) u) (by decide) false
  refine does_of_keeps hx (((hk.mono (by decide)).trans (hw.mono (by decide))).trans (ho.mono (by decide)))
    ⟨(u.openSettle_opens false).congr hd hto, ?_⟩
  exact (u.openSettle_calm false .DTM_SETTLE_CTL 0 (by decide) (by decide)).trans
    ((u.rg_settleShown false (by decide) (by decide) 0).trans hctl)

/-- A write with OPEN that is refused leaves its reason in DTM_WSTAT, and no other register but the unlock's (R46). -/
theorem settleOpen_refuses {s : State} (h : s.Takes .DTM_SETTLE_CTL 0) (v : BitVec 32) {n : Nat}
    (hn : s.svcState = 1 ∧ n = 1 ∨ s.svcState ≠ 1 ∧ s.fd Fld.DTM_MODE.MODE = 1 ∧ n = 2) :
    Does (.settleOpen v) s (unlocking ++ [.regs .datum]) (fun t =>
      t.fb Fld.DTM_WSTAT.SETTLE_REFUSED = true ∧ t.fd Fld.DTM_WSTAT.REASON = n ∧
        ∀ r, r ≠ .DTM_WSTAT → r ≠ .TOP_UNLOCK → ∀ i, t.rg r i = s.rg r i) := by
  obtain ⟨hk, hr⟩ := s.enteredSettle
  have hx := exec_settleOpen h v
  generalize s.entered .DTM_SETTLE_CTL 0 = z at hk hr hx
  have hs : z.svcState = s.svcState := State.fd_congr (hr _ (by decide) 0)
  have hm : z.fd Fld.DTM_MODE.MODE = s.fd Fld.DTM_MODE.MODE := State.fd_congr (hr _ (by decide) 0)
  have hc : z.settleCtl (v ||| 0x80000000#32) = z.refusedFor Fld.DTM_WSTAT.SETTLE_REFUSED n := by
    rw [z.settleCtl_open (bit31_open v), hs, hm]
    rcases hn with ⟨hopen, rfl⟩ | ⟨hshut, hmode, rfl⟩
    · exact if_pos hopen
    · exact (if_neg hshut).trans (if_pos hmode)
  obtain ⟨refused, reason⟩ := z.refusedFor_shows (f := Fld.DTM_WSTAT.SETTLE_REFUSED) rfl (by decide) (n := n) (by omega)
  refine does_of_keeps (hx.trans (congrArg Host.Outcome.next hc))
    ((hk.mono (by decide)).trans ((z.refusedFor_keeps rfl n).mono (by decide))) ⟨refused, reason, fun r hw hu i => ?_⟩
  exact (State.rg_setF_other _ _ _ _ i hw.symm).trans ((State.rg_setB_other _ _ _ _ i hw.symm).trans (hr r hu i))

/-- A write with CLOSE in SETTLE, from the state in which it acts. -/
theorem exec_settleClose_inSettle {s : State} (h : s.Takes .DTM_SETTLE_CTL 0) (v : BitVec 32) (hm : s.fd Fld.DTM_MODE.MODE ≠ 0) :
    ∃ u, Keeps (maskOf (unlocking ++ [.regs .datum])) s u ∧ u.rg .DTM_MODE 0 = s.rg .DTM_MODE 0 ∧
      exec (.settleClose v) s = .next (if s.dtm.step.isSome then u.setDtm { s.dtm with closeAsked := true } else u.shutSettle) := by
  obtain ⟨hk, hr⟩ := s.enteredSettle
  have hx := exec_settleClose h v
  generalize s.entered .DTM_SETTLE_CTL 0 = z at hk hr hx
  have hmode := hr .DTM_MODE (by decide) 0
  have hz : z.fd Fld.DTM_MODE.MODE ≠ 0 := (State.fd_congr hmode).trans_ne hm
  obtain ⟨h31, h30⟩ := bits_close v
  rw [z.settleCtl_close h31 h30 hz, show z.dtm = s.dtm from hk.same .dtm (by decide)] at hx
  exact ⟨_, (hk.mono (by decide)).trans ((z.settleWr_keeps _).mono (by decide)), (z.rg_settleWr _ (by decide) 0).trans hmode, hx⟩

theorem settleClose_shuts {s : State} (h : s.Takes .DTM_SETTLE_CTL 0) (v : BitVec 32) (hm : s.fd Fld.DTM_MODE.MODE ≠ 0)
    (hstep : s.dtm.step = none) :
    Does (.settleClose v) s (unlocking ++ [.timeline, .dtm, .regs .irqStat, .regs .datum]) s.SettleCloses := by
  obtain ⟨u, hk, hmode, hx⟩ := exec_settleClose_inSettle h v hm
  rw [if_neg (by rw [hstep]; decide)] at hx
  obtain ⟨mode, ends, hostInc, kindling, pending⟩ := u.shutSettle_shuts ((State.fd_congr hmode).trans_ne hm)
  exact does_of_keeps hx ((hk.mono (by decide)).trans (u.shutSettle_only.mono (by decide)))
    ⟨mode, ends, hostInc, kindling, pending.trans (congrArg DtmState.incPending (hk.same .dtm (by decide)))⟩

theorem settleClose_waits {s : State} (h : s.Takes .DTM_SETTLE_CTL 0) (v : BitVec 32) (hm : s.fd Fld.DTM_MODE.MODE ≠ 0)
    (hstep : s.dtm.step ≠ none) :
    Does (.settleClose v) s (unlocking ++ [.dtm, .regs .datum])
      (fun t => t.dtm = { s.dtm with closeAsked := true } ∧ t.rg .DTM_MODE 0 = s.rg .DTM_MODE 0) := by
  obtain ⟨u, hk, hmode, hx⟩ := exec_settleClose_inSettle h v hm
  rw [if_pos (Option.isSome_iff_ne_none.2 hstep)] at hx
  exact ⟨_, hx, ⟨rfl, hmode⟩, (hk.onlyOf.trans (u.setDtm_only _)).mono (by decide)⟩

theorem settleTimeout_shuts {s : State} (hc : s.clockUp = true) (hd : s.settleDue = true) (hm : s.fd Fld.DTM_MODE.MODE ≠ 0)
    (hstep : s.dtm.step = none) : Does .settleTimeout s [.timeline, .dtm, .regs .irqStat, .regs .datum] s.SettleCloses :=
  does_of_keeps (congrArg Host.Outcome.next (State.act_pos _ (by rw [hc, hd, hstep]; rfl))) s.shutSettle_only (s.shutSettle_shuts hm)

/-- Before its end, a window's timeout does nothing. -/
theorem settleTimeout_early {s : State} (hd : s.settleDue = false) : Does .settleTimeout s [] (fun _ => True) :=
  does_nothing (congrArg Host.Outcome.next (if_neg (by rw [hd]; simp)))

/-- The Kindling's request spent. -/
def State.kindled (s : State) : State := { s with pwr := { s.pwr with kindle := false } }

theorem kindlingOpen_opens {s : State} (hc : s.coreUp = true) (hk : s.pwr.kindle = true) :
    Does .kindlingOpen s [.pwr, .timeline, .dtm, .regs .irqStat, .regs .datum]
      (fun t => s.SettleOpens true t ∧ t.pwr.kindle = false) := by
  have hp : Keeps (maskOf [.pwr, .timeline, .dtm, .regs .irqStat, .regs .datum]) s s.kindled :=
    State.setPwr_keeps (Keeps.refl _ s) (by decide) _ (Fuses.Le.refl _)
  have ho := State.openSettle_keeps (Keeps.refl (maskOf [.timeline, .dtm, .regs .irqStat, .regs .datum]) s.kindled) (by decide) true
  exact does_of_keeps (congrArg Host.Outcome.next (if_pos (by rw [hc, hk]; rfl))) (hp.trans (ho.mono (by decide)))
    ⟨(s.kindled.openSettle_opens true).congr rfl rfl, congrArg PwrState.kindle (ho.same .pwr (by decide))⟩

/-! ### The statement -/

/-- Settles O31: a commit by the decision on the value, a window by what opens, refuses or closes it. -/
theorem incrementAndSettleCommands : Obligations.IncrementAndSettleCommands := by
  unfold Obligations.IncrementAndSettleCommands
  intro s v
  refine ⟨fun h => incHiStage_stages h v, fun h => ⟨?_, ?_, ?_⟩, fun h => ⟨?_, ?_, ?_, ?_, ?_⟩, ?_, ?_, ?_⟩
  · exact incLoCommit_accepted h
  · exact incLoCommit_lost h
  · exact fun hv _ _ hn ho => incLoCommit_refused h hv hn ho
  · exact settleOpen_opens h v
  · exact fun hopen => settleOpen_refuses h v (.inl ⟨hopen, rfl⟩)
  · exact fun hshut hm => settleOpen_refuses h v (.inr ⟨hshut, hm, rfl⟩)
  · exact settleClose_shuts h v
  · exact settleClose_waits h v
  · exact settleTimeout_shuts
  · exact fun _ hd => settleTimeout_early hd
  · exact kindlingOpen_opens

end Sys2Proof.Machine
end

section
/-!
A step that a host queue asks for and that is refused (R48, R49, R328), and what its fault needs: a record held in the Keeper region.
-/
namespace Sys2Proof.Machine

/-- A fault whose record has no supply is not recorded (R258). -/
theorem State.raise_unheld {s : State} {r : Raise} (h : s.recordUp r.rec_ = false) : s.raise r = s := if_pos (by rw [h]; rfl)

/-- Why a step is refused is read in the Datum, the window's state and the registers of the Datum block. -/
theorem State.stepRefusal_congr {s t : State} (hc : DatumCalm s t) (hd : t.datum = s.datum) (hw : t.dtm = s.dtm) (b : Nat) (ns : BitVec 32)
    (off : Int) : t.stepRefusal b ns off = s.stepRefusal b ns off := by
  have hdue : t.settleDue = s.settleDue := by
    unfold State.settleDue State.reached State.tickEnd56
    rw [hw, hd, inc_congr hc]
  unfold State.stepRefusal State.now
  rw [hdue, hw, hd, hc.fd (f := Fld.DTM_MODE.MODE) rfl (by decide), hc.fb (f := Fld.DTM_MODE.STEP_USED) rfl (by decide),
    hc .DTM_SETTLE_CTL 0 rfl (by decide)]

theorem State.stepRefusal_fetchCmd (s : State) (q b : Nat) (ns : BitVec 32) (off : Int) :
    (s.fetchCmd q).stepRefusal b ns off = s.stepRefusal b ns off :=
  State.stepRefusal_congr ((s.fetchCmd_parts q).datumCalm (by decide)) ((s.fetchCmd_parts q).same .datum (by decide))
    ((s.fetchCmd_parts q).same .dtm (by decide)) b ns off

theorem State.stepRefusal_ne_ok (s : State) (b : Nat) (ns : BitVec 32) (off : Int) : s.stepRefusal b ns off ≠ some .ok := by
  unfold State.stepRefusal
  repeat' split
  all_goals decide

/-- DTM_STEP refused, by whether the Keeper region's supply holds: with it, record 459 holds the fault; without it, the record is as it
was. -/
theorem dtmStep_refused {s : State} {q : Fin 64} (cid : BitVec 32) {sec : BitVec 64} {ns frac : BitVec 32} (early late : BitVec 32)
    (hs : s.canStart q.val = true) (hd : s.d2dUp = true) {st : Status} (hr : s.stepRefusal 2 ns (stepOffset sec ns frac) = some st) :
    Answers (.dtmStep q cid sec ns frac early late) s q.val cid st 0 raising (fun t =>
      t.fb Fld.DTM_WSTAT.STEP_REFUSED = true ∧ t.fd Fld.DTM_WSTAT.REASON = stepReason st ∧ t.dtm = s.dtm ∧
        (s.pwr.vddKeep = true → Raised t 459 15) ∧
        (s.pwr.vddKeep = false → t.rg .FLT_REC_STAT 459 = s.rg .FLT_REC_STAT 459)) := by
  have hf := s.fetchCmd_parts q.val
  have hst : st ≠ .ok := fun e => s.stepRefusal_ne_ok _ _ _ (hr.trans (congrArg some e))
  have hb : (s.fetchCmd q.val).stepHost sec ns frac ⟨early, late⟩ =
      (((s.fetchCmd q.val).refusedFor Fld.DTM_WSTAT.STEP_REFUSED (stepReason st)).raise datumRefused, st) := by
    unfold State.stepHost
    simp only [s.stepRefusal_fetchCmd, hr]
    rfl
  have hlt : stepReason st < 16 := by cases st <;> decide
  obtain ⟨refused, reason⟩ := (s.fetchCmd q.val).refusedFor_shows (f := Fld.DTM_WSTAT.STEP_REFUSED) rfl (by decide) hlt
  have hk := (s.fetchCmd q.val).refusedFor_keeps (f := Fld.DTM_WSTAT.STEP_REFUSED) rfl (stepReason st)
  have hrec : ((s.fetchCmd q.val).refusedFor Fld.DTM_WSTAT.STEP_REFUSED (stepReason st)).rg .FLT_REC_STAT 459 =
      s.rg .FLT_REC_STAT 459 :=
    (hk.rg (by decide) 459).trans (hf.rg (by decide) 459)
  have hv : ((s.fetchCmd q.val).refusedFor Fld.DTM_WSTAT.STEP_REFUSED (stepReason st)).pwr = s.pwr :=
    (hk.same .pwr (by decide)).trans (hf.same .pwr (by decide))
  have hdtm := (hk.same .dtm (by decide)).trans (hf.same .dtm (by decide))
  generalize (s.fetchCmd q.val).refusedFor Fld.DTM_WSTAT.STEP_REFUSED (stepReason st) = u at *
  have calm := u.raise_datumCalm datumRefused_minor
  have hm := State.raise_minor_keeps datumRefused_minor (Keeps.refl (maskOf raising) u) rfl
  refine answers_clock (u := u.raise datumRefused) rfl hs hd ?_ ((hk.mono (by decide)).trans hm) (by decide) fun ho =>
    ⟨?_, ?_, ?_, ?_, ?_⟩
  · simp only [hb, if_neg hst]
  · exact (ho.fb (f := Fld.DTM_WSTAT.STEP_REFUSED) (by decide) 0).trans
      ((calm.fb (f := Fld.DTM_WSTAT.STEP_REFUSED) rfl (by decide) 0).trans refused)
  · exact (ho.fd (f := Fld.DTM_WSTAT.REASON) (by decide) 0).trans ((calm.fd (f := Fld.DTM_WSTAT.REASON) rfl (by decide) 0).trans reason)
  · exact (ho.same .dtm (by decide)).trans ((hm.same .dtm (by decide)).trans hdtm)
  · intro hup
    have raised := State.raise_minor_raised (s := u) datumRefused_minor ((congrArg PwrState.vddKeep hv).trans hup) (by decide)
    exact raised.congr (ho.fb (f := Fld.FLT_REC_STAT.ACTIVE) (by decide) 459) (ho.rg (r := .FLT_REC_CAUSE) (by decide) 459)
  · intro hdown
    have hx : u.raise datumRefused = u := State.raise_unheld ((congrArg PwrState.vddKeep hv).trans hdown)
    refine (ho.rg (by decide) 459).trans ?_
    rw [hx]
    exact hrec

/-- A core die that runs while no supply of the Keeper region holds, with one command waiting in queue 0. -/
def State.keeperless : State :=
  { (State.reset.setB Fld.HST_Q_CFG.EN true).setF Fld.HST_Q_SQ_TAIL.SQ_TAIL 1 with
    d2dUp := true, pwr := { State.reset.pwr with core := .running } }

/-- Refutes O52: the clause of a refused DTM_STEP says that record 459 holds the fault, without the premise that VDD_KEEP supplies the
Keeper region, where that record stands. In `State.keeperless` (core die running, VDD_KEEP absent: a state of the type, though no supply
sequence of R394 leads to it) the step is refused with NOT_SETTLE and the record stays inactive. -/
theorem not_hostQueueCommands : ¬ Obligations.HostQueueCommands := by
  unfold Obligations.HostQueueCommands
  intro h
  have hs : State.keeperless.canStart 0 = true := by decide
  have hr : State.keeperless.stepRefusal 2 0 (stepOffset 0 0 0) = some .notSettle := by decide
  obtain ⟨-, -, hup⟩ := h State.keeperless 0 0 0 0 0 0 0 0 0 0 TimeVal.zero 0 0 0 0 ⟨TimeVal.zero, .syncIn, false⟩ false none hs
  obtain ⟨-, -, -, -, ⟨-, hstep⟩, -⟩ := hup rfl
  obtain ⟨t, ht, -, -, ⟨-, -, ⟨active, -⟩, -⟩, -⟩ := hstep .notSettle hr
  obtain ⟨u, hu, -, -, ⟨-, -, -, -, unheld⟩, -⟩ := dtmStep_refused (q := 0) 0 0 0 hs rfl hr
  obtain rfl : u = t := Host.Outcome.next.inj (hu.symm.trans ht)
  have inactive : u.fb Fld.FLT_REC_STAT.ACTIVE 459 = false := (State.fb_congr (f := Fld.FLT_REC_STAT.ACTIVE) (unheld rfl)).trans (by decide)
  exact absurd (active.symm.trans inactive) (by decide)

end Sys2Proof.Machine
end

section
/-!
Compares, branches and jumps (R74): the condition of a compare, and what each instruction leaves of its thread's record.
-/
namespace Sys2Proof.Machine

/-- The condition of a compare, by its code (R74). -/
theorem condHolds_iff (c : BitVec 3) (x y : BitVec 64) : condHolds c x y = true ↔
    (c = 0 ∧ x = y) ∨ (c = 1 ∧ x ≠ y) ∨ (c = 2 ∧ x.toInt < y.toInt) ∨ (c = 3 ∧ x.toInt ≤ y.toInt) ∨
      (c = 4 ∧ x.toNat < y.toNat) ∨ (c = 5 ∧ x.toNat ≤ y.toNat) ∨ (c = 6 ∧ x &&& y ≠ 0) ∨ (c = 7 ∧ x &&& y = 0) := by
  have hc : ∀ c : BitVec 3, c = 0 ∨ c = 1 ∨ c = 2 ∨ c = 3 ∨ c = 4 ∨ c = 5 ∨ c = 6 ∨ c = 7 := by decide
  rcases hc c with rfl | rfl | rfl | rfl | rfl | rfl | rfl | rfl <;>
    simp [condHolds, BitVec.slt, BitVec.sle, BitVec.ult, BitVec.ule]

/-- A predicate read back. -/
theorem Thread.pr_setP (t : Thread) (p q : Nat) (v : Bool) : (t.setP p v).pr q = if q = p then v else t.pr q := by
  unfold Thread.pr Thread.setP
  split
  · next h => rw [h, SMap.get_set_same]
  · next h => rw [SMap.get_set_other _ _ _ _ _ _ h]

theorem setP_past (s : State) (th i : Nat) (v : Bool) : (s.setThread th (s.past th)).setP th i v =
    (s.setThread th (s.past th)).setThread th ((s.past th).setP i v) := by
  unfold State.setP
  rw [State.thread_setThread_same]

/-- An instruction that writes one predicate. -/
theorem completes_setP {c : Instr} {s : State} {th p : Nat} {insn : BitVec 32} {srcs : List Nat} {body : State → Eff} {v : Bool}
    (hc : exec c s = .next (s.issue th insn false srcs body)) (h : s.Issues th false srcs)
    (hb : body (s.setThread th (s.past th)) = .ok ((s.setThread th (s.past th)).setP th p v)) :
    Completes c s th ((s.past th).setP p v) [] (fun _ => True) :=
  completes_thread hc h (by rw [hb, setP_past])

/-- The address of the issued instruction itself. -/
theorem thisPc_past (s : State) (th : Nat) : (s.setThread th (s.past th)).thisPc th = (s.thread th).pc := by
  unfold State.thisPc State.past
  rw [State.thread_setThread_same, BitVec.add_sub_cancel]

/-- An instruction that does nothing but advance its program counter. -/
theorem completes_past {c : Instr} {s : State} {th : Nat} {insn : BitVec 32} {kOnly : Bool} {srcs : List Nat} {body : State → Eff}
    (hc : exec c s = .next (s.issue th insn kOnly srcs body)) (h : s.Issues th kOnly srcs)
    (hb : body (s.setThread th (s.past th)) = .ok (s.setThread th (s.past th))) :
    Completes c s th (s.past th) [] (fun _ => True) :=
  completes hc h hb (State.thread_setThread_same _ _ _) (fun _ hx => State.thread_setThread_other _ _ _ _ hx) (fun _ _ => trivial)
    (setThread_only s th _)

/-- An instruction that replaces its thread's record twice. -/
theorem completes_twice {c : Instr} {s : State} {th : Nat} {insn : BitVec 32} {kOnly : Bool} {srcs : List Nat} {body : State → Eff}
    {q r : Thread} (hc : exec c s = .next (s.issue th insn kOnly srcs body)) (h : s.Issues th kOnly srcs)
    (hb : body (s.setThread th (s.past th)) = .ok (((s.setThread th (s.past th)).setThread th q).setThread th r)) :
    Completes c s th r [] (fun _ => True) :=
  completes hc h hb (State.thread_setThread_same _ _ _)
    (fun x hx => by simp only [State.thread_setThread_other _ _ _ _ hx]) (fun _ _ => trivial)
    ((((setThread_only s th _).trans (setThread_only _ th q)).trans (setThread_only _ th r)).mono (by decide))

/-- An instruction that writes one general register and jumps. -/
theorem completes_link {c : Instr} {s : State} {th d : Nat} {insn : BitVec 32} {srcs : List Nat} {body : State → Eff} {v pc : BitVec 64}
    (hc : exec c s = .next (s.issue th insn false srcs body)) (h : s.Issues th false srcs)
    (hb : body (s.setThread th (s.past th)) = .ok (((s.setThread th (s.past th)).setG th d v).setPc th pc)) :
    Completes c s th { ((s.past th).setG d v) with pc := pc } [] (fun _ => True) := by
  refine completes_twice (q := (s.past th).setG d v) hc h ?_
  rw [hb, setG_past, State.setPc, State.thread_setThread_same]

/-- A signed offset in words, as octets. -/
theorem signExtend_mul_four {w : Nat} (off : BitVec w) : off.signExtend 64 * 4 = BitVec.ofInt 64 (off.toInt * 4) :=
  (BitVec.ofInt_mul off.toInt 4).symm

/-- Settles O11: a compare from its condition, a branch from its predicate, a jump from the address it links. -/
theorem predicateAndBranchResults : Obligations.PredicateAndBranchResults := by
  unfold Obligations.PredicateAndBranchResults
  refine ⟨fun s th p cond a b imm => ?_, fun s th p sense d a off imm far => ?_⟩
  · intro x y z holds
    refine ⟨fun h => ⟨condHolds cond x y, condHolds_iff cond x y, ?_⟩, fun h => ⟨condHolds cond x z, condHolds_iff cond x z, ?_⟩,
      fun t v q => ?_⟩
    · exact completes_setP rfl h (by rw [gr_past, gr_past])
    · exact completes_setP rfl h (by rw [gr_past]; rfl)
    · simp only [Thread.pr_setP, Fin.ext_iff]
  · intro pc u
    refine ⟨fun h => ⟨?_, ?_⟩, fun h => ?_⟩
    · have hp : ((s.setThread th.val (s.past th.val)).thread th.val).pr p.val = (s.thread th.val).pr p.val := by
        rw [State.thread_setThread_same]
        rfl
      split
      · next ht =>
        refine completes_thread rfl h ?_
        rw [if_pos (hp.trans ht), thisPc_past, signExtend_mul_four, State.setPc, State.thread_setThread_same]
      · next ht => exact completes_past rfl h (if_neg (by rwa [hp]))
    · refine completes_link rfl h ?_
      simp only [thisPc_past, signExtend_mul_four]
      rfl
    · refine completes_link rfl h ?_
      simp only [thisPc_past, gr_past]
      rfl

end Sys2Proof.Machine
end

section
/-!
Instructions whose effect on the rest of the engine comes before what they write of their thread's record, and the atomics (R71 to R73).
-/
namespace Sys2Proof.Machine

/-! ### An effect, then the thread's record -/

/-- The record of the issuing thread after an effect that leaves the threads alone. -/
theorem thread_effect {s v : State} {m th : Nat} (hv : Keeps m (s.setThread th (s.past th)) v) (hm : m.testBit (Part.threads).num = false) :
    v.thread th = s.past th := (hv.thread hm th).trans (State.thread_setThread_same _ _ _)

/-- An instruction whose effect leaves the threads alone, then replaces its thread's record. -/
theorem completes_then {c : Instr} {s v : State} {th : Nat} {insn : BitVec 32} {kOnly : Bool} {srcs : List Nat} {body : State → Eff}
    {l : List Part} {r : Thread} {P : State → Prop} (hc : exec c s = .next (s.issue th insn kOnly srcs body)) (h : s.Issues th kOnly srcs)
    (hb : body (s.setThread th (s.past th)) = .ok (v.setThread th r))
    (hv : Keeps (maskOf (counting ++ l)) (s.setThread th (s.past th)) v) (hl : Part.threads ∉ counting ++ l)
    (hP : ∀ t, Only (.threads :: counting) v t → P t) : Completes c s th r l P := by
  have ho := hv.onlyOf
  have hlast := setThread_only v th r
  have hi : Only counting _ (s.issue th insn kOnly srcs body) := issue_ok h hb
  have ht := thread_congr (hi.same .threads (by decide))
  refine ⟨_, hc, (ht th).trans (State.thread_setThread_same _ _ _), fun x hx => ?_, hP _ ((hlast.trans hi).mono (by decide)), ?_⟩
  · rw [ht, State.thread_setThread_other _ _ _ _ hx, thread_congr (ho.same .threads hl), State.thread_setThread_other _ _ _ _ hx]
  · refine (((setThread_only s th _).trans ho).trans (hlast.trans hi)).mono fun p hp => ?_
    simp only [List.mem_append, List.mem_cons, List.not_mem_nil, or_false] at hp ⊢
    tauto

/-- An instruction whose effect leaves the threads alone, and that writes nothing of its thread's record. -/
theorem completes_effect {c : Instr} {s v : State} {th : Nat} {insn : BitVec 32} {kOnly : Bool} {srcs : List Nat} {body : State → Eff}
    {l : List Part} {P : State → Prop} (hc : exec c s = .next (s.issue th insn kOnly srcs body)) (h : s.Issues th kOnly srcs)
    (hb : body (s.setThread th (s.past th)) = .ok v)
    (hv : Keeps (maskOf (counting ++ l)) (s.setThread th (s.past th)) v) (hl : Part.threads ∉ counting ++ l)
    (hP : ∀ t, Only (.threads :: counting) v t → P t) : Completes c s th (s.past th) l P := by
  have ho := hv.onlyOf
  have hi : Only counting v (s.issue th insn kOnly srcs body) := issue_ok h hb
  have ht : ∀ x, (s.issue th insn kOnly srcs body).thread x = (s.setThread th (s.past th)).thread x := fun x =>
    (thread_congr (hi.same .threads (by decide)) x).trans (thread_congr (ho.same .threads hl) x)
  refine ⟨_, hc, (ht th).trans (State.thread_setThread_same _ _ _),
    fun x hx => (ht x).trans (State.thread_setThread_other _ _ _ _ hx), hP _ (hi.mono fun _ => List.mem_cons_of_mem _), ?_⟩
  refine (((setThread_only s th _).trans ho).trans hi).mono fun p hp => ?_
  simp only [List.mem_append, List.mem_cons, List.not_mem_nil, or_false] at hp ⊢
  tauto

/-! ### What an effect writes of its thread's record -/

/-- The record with a destination marked poisoned (R73); g0 takes no mark. -/
def Thread.marked (t : Thread) (dest a : Nat) : Thread :=
  if dest = 0 then t else { t with poison := SMap.insert id t.poison dest (BitVec.ofNat 64 a) }

/-- An effect that leaves the threads alone, then a general register written. -/
theorem completes_effect_setG {c : Instr} {s v : State} {th d : Nat} {x : BitVec 64} {insn : BitVec 32} {kOnly : Bool} {srcs : List Nat}
    {body : State → Eff} {l : List Part} {P : State → Prop} (hc : exec c s = .next (s.issue th insn kOnly srcs body))
    (h : s.Issues th kOnly srcs) (hb : body (s.setThread th (s.past th)) = .ok (v.setG th d x))
    (hv : Keeps (maskOf (counting ++ l)) (s.setThread th (s.past th)) v)
    (hm : (maskOf (counting ++ l)).testBit (Part.threads).num = false) (hl : Part.threads ∉ counting ++ l)
    (hP : ∀ t, Only (.threads :: counting) v t → P t) : Completes c s th ((s.past th).setG d x) l P :=
  completes_then hc h (by rw [hb, State.setG, thread_effect hv hm]) hv hl hP

/-- An effect that leaves the threads alone, then a destination marked poisoned. -/
theorem completes_effect_marked {c : Instr} {s v : State} {th d a : Nat} {insn : BitVec 32} {kOnly : Bool} {srcs : List Nat}
    {body : State → Eff} {l : List Part} {P : State → Prop} (hc : exec c s = .next (s.issue th insn kOnly srcs body))
    (h : s.Issues th kOnly srcs) (hb : body (s.setThread th (s.past th)) = .ok (v.poisonDest th d a))
    (hv : Keeps (maskOf (counting ++ l)) (s.setThread th (s.past th)) v)
    (hm : (maskOf (counting ++ l)).testBit (Part.threads).num = false) (hl : Part.threads ∉ counting ++ l)
    (hP : ∀ t, Only (.threads :: counting) v t → P t) : Completes c s th ((s.past th).marked d a) l P := by
  unfold State.poisonDest at hb
  unfold Thread.marked
  split at hb
  · next hd =>
    rw [if_pos hd]
    exact completes_effect hc h hb hv hl hP
  · next hd =>
    rw [if_neg hd]
    refine completes_then hc h ?_ hv hl hP
    rw [hb, thread_effect hv hm]

/-! ### What an effect leaves of memory -/

theorem Only.stored {s v t : State} {l : List Part} {a : Nat} {bs : List Byte} (h : Only l v t) (hl : Part.mem ∉ l)
    (hs : Stored s v a bs) : Stored s t a bs := hs.congr (h.same .mem hl)

/-- What a store of the issued instruction leaves of memory. -/
theorem stored_past (s : State) (th a : Nat) (bs : List Byte) (r : Thread) : Stored s ((s.setThread th r).storeData a bs) a bs :=
  stored_storeData (s.setThread th r) a bs

theorem MemorySame.past {s t : State} {th : Nat} {r : Thread} (h : MemorySame (s.setThread th r) t) : MemorySame s t := h

/-! ### Atomics -/

/-- An atomic that stores and takes the old doubleword. -/
theorem State.atomic_swaps {s : State} {th d a x : Nat} {swap : Bool} {f : BitVec 64 → Option (BitVec 64)} {v : BitVec 64}
    (hx : s.access th a 8 true true = .ok x) (hm : s.mirrorStalls x 8 = false) (hp : s.poisonedIn x 8 = false)
    (hf : f (BitVec.ofNat 64 (leNat (s.octets x 8))) = some v) :
    s.atomic th d a swap f = .ok ((s.storeData x (leBytes 8 v.toNat)).setG th d (BitVec.ofNat 64 (leNat (s.octets x 8)))) := by
  simp only [State.atomic, hx, hm, hp, hf, Bool.false_and, Bool.false_eq_true, if_false]

/-- An atomic that stores nothing and takes the old doubleword. -/
theorem State.atomic_keeps_old {s : State} {th d a x : Nat} {swap : Bool} {f : BitVec 64 → Option (BitVec 64)}
    (hx : s.access th a 8 true true = .ok x) (hm : s.mirrorStalls x 8 = false) (hp : s.poisonedIn x 8 = false)
    (hf : f (BitVec.ofNat 64 (leNat (s.octets x 8))) = none) :
    s.atomic th d a swap f = .ok (s.setG th d (BitVec.ofNat 64 (leNat (s.octets x 8)))) := by
  simp only [State.atomic, hx, hm, hp, hf, Bool.false_and, Bool.false_eq_true, if_false]

/-- An atomic on a poisoned doubleword that computes from the old value stores nothing (R73). -/
theorem State.atomic_poisoned {s : State} {th d a x : Nat} {f : BitVec 64 → Option (BitVec 64)}
    (hx : s.access th a 8 true true = .ok x) (hm : s.mirrorStalls x 8 = false) (hp : s.poisonedIn x 8 = true) :
    s.atomic th d a false f = .ok (s.poisonDest th d a) := by
  simp only [State.atomic, hx, hm, hp, Bool.false_eq_true, Bool.not_false, Bool.and_true, if_false, if_true]

/-- A swap on a poisoned doubleword stores (R73). -/
theorem State.atomic_poisoned_swap {s : State} {th d a x : Nat} {f : BitVec 64 → Option (BitVec 64)} {v : BitVec 64}
    (hx : s.access th a 8 true true = .ok x) (hm : s.mirrorStalls x 8 = false) (hp : s.poisonedIn x 8 = true)
    (hf : f (BitVec.ofNat 64 (leNat (s.octets x 8))) = some v) :
    s.atomic th d a true f = .ok ((s.storeData x (leBytes 8 v.toNat)).poisonDest th d a) := by
  simp only [State.atomic, hx, hm, hp, hf, Bool.false_eq_true, Bool.not_true, Bool.and_false, if_false, if_true]

/-- What a store of an issued atomic or store keeps. -/
theorem storing_keeps (s : State) (th a : Nat) (bs : List Byte) (r : Thread) :
    Keeps (maskOf (counting ++ [.mem, .hst, .mat])) (s.setThread th r) ((s.setThread th r).storeData a bs) :=
  State.storeData_keeps (Keeps.refl _ _) (by decide) a bs

/-- The doubleword that an issued atomic finds, at the flat address of its access. -/
structure AtomicAt (s : State) (th a f : Nat) (bad : Bool) : Prop where
  access : s.access th (s.ea th a 0) 8 true true = .ok f
  stalls : s.mirrorStalls f 8 = false
  poison : s.poisonedIn f 8 = bad

theorem AtomicAt.past {s : State} {th a f : Nat} {bad : Bool} (h : AtomicAt s th a f bad) :
    AtomicAt (s.setThread th (s.past th)) th a f bad :=
  ⟨by rw [access_past, ea_past, h.access], h.stalls, h.poison⟩

/-- An instruction that is an atomic on the doubleword at a register. -/
def IsAtomic (c : Instr) (s : State) (th d a : Nat) (swap : Bool) (insn : BitVec 32) (srcs : List Nat)
    (g : State → BitVec 64 → Option (BitVec 64)) : Prop :=
  exec c s = .next (s.issue th insn false srcs fun s => s.atomic th d (s.ea th a 0) swap (g s))

/-- An atomic that stores. -/
theorem completes_atomic_swaps {c : Instr} {s : State} {th d a f : Nat} {swap : Bool} {insn : BitVec 32} {srcs : List Nat}
    {g : State → BitVec 64 → Option (BitVec 64)} {v : BitVec 64} (hc : IsAtomic c s th d a swap insn srcs g)
    (h : s.Issues th false srcs) (hx : AtomicAt s th a f false)
    (hg : g (s.setThread th (s.past th)) (BitVec.ofNat 64 (leNat (s.octets f 8))) = some v) :
    Completes c s th ((s.past th).setG d (BitVec.ofNat 64 (leNat (s.octets f 8)))) [.mem, .hst, .mat]
      (fun t => Stored s t f (leBytes 8 v.toNat)) := by
  obtain ⟨access, stalls, poison⟩ := hx.past
  exact completes_effect_setG hc h (State.atomic_swaps access stalls poison hg) (storing_keeps _ _ _ _ _) (by decide) (by decide)
    fun t ht => ht.stored (by decide) (stored_past s _ f _ _)

/-- An atomic that stores nothing. -/
theorem completes_atomic_keeps_old {c : Instr} {s : State} {th d a f : Nat} {swap : Bool} {insn : BitVec 32} {srcs : List Nat}
    {g : State → BitVec 64 → Option (BitVec 64)} (hc : IsAtomic c s th d a swap insn srcs g)
    (h : s.Issues th false srcs) (hx : AtomicAt s th a f false)
    (hg : g (s.setThread th (s.past th)) (BitVec.ofNat 64 (leNat (s.octets f 8))) = none) :
    Completes c s th ((s.past th).setG d (BitVec.ofNat 64 (leNat (s.octets f 8)))) [] (fun t => MemorySame s t) := by
  obtain ⟨access, stalls, poison⟩ := hx.past
  exact completes_effect_setG hc h (State.atomic_keeps_old access stalls poison hg) (Keeps.refl _ _) (by decide) (by decide)
    fun t ht => (ht.mem (by decide)).past

/-- An atomic that computes from a poisoned doubleword. -/
theorem completes_atomic_poisoned {c : Instr} {s : State} {th d a f : Nat} {insn : BitVec 32} {srcs : List Nat}
    {g : State → BitVec 64 → Option (BitVec 64)} (hc : IsAtomic c s th d a false insn srcs g)
    (h : s.Issues th false srcs) (hx : AtomicAt s th a f true) :
    Completes c s th ((s.past th).marked d (s.ea th a 0)) [] (fun t => MemorySame s t) := by
  obtain ⟨access, stalls, poison⟩ := hx.past
  exact completes_effect_marked hc h ((State.atomic_poisoned access stalls poison).trans (by rw [ea_past])) (Keeps.refl _ _)
    (by decide) (by decide) fun t ht => (ht.mem (by decide)).past

/-- A swap on a poisoned doubleword. -/
theorem completes_atomic_poisoned_swap {c : Instr} {s : State} {th d a f : Nat} {insn : BitVec 32} {srcs : List Nat}
    {g : State → BitVec 64 → Option (BitVec 64)} {v : BitVec 64} (hc : IsAtomic c s th d a true insn srcs g)
    (h : s.Issues th false srcs) (hx : AtomicAt s th a f true)
    (hg : g (s.setThread th (s.past th)) (BitVec.ofNat 64 (leNat (s.octets f 8))) = some v) :
    Completes c s th ((s.past th).marked d (s.ea th a 0)) [.mem, .hst, .mat] (fun t => Stored s t f (leBytes 8 v.toNat)) := by
  obtain ⟨access, stalls, poison⟩ := hx.past
  exact completes_effect_marked hc h ((State.atomic_poisoned_swap access stalls poison hg).trans (by rw [ea_past]))
    (storing_keeps _ _ _ _ _) (by decide) (by decide) fun t ht => ht.stored (by decide) (stored_past s _ f _ _)

/-- Settles O16: the old doubleword, poisoned or not, decides what is stored and what the register takes. -/
theorem atomicResults : Obligations.AtomicResults := by
  unfold Obligations.AtomicResults
  refine ⟨fun s th d a b f => ?_, fun s th d a b f => ?_⟩
  · intro old y u access stalls poison
    have hx : AtomicAt s th.val a.val f false := ⟨access, stalls, poison⟩
    refine ⟨fun h => ⟨completes_atomic_swaps rfl h hx (by rw [gr_past]), completes_atomic_swaps rfl h hx (by rw [gr_past])⟩,
      fun h => ⟨fun he => ?_, fun he => ?_⟩⟩
    · exact completes_atomic_swaps rfl h hx (by rw [gr_past, gr_past]; exact if_pos he)
    · exact completes_atomic_keeps_old rfl h hx (by rw [gr_past, gr_past]; exact if_neg he)
  · intro x w u access stalls poison
    have hx : AtomicAt s th.val a.val f true := ⟨access, stalls, poison⟩
    exact ⟨fun h => ⟨completes_atomic_poisoned rfl h hx, completes_atomic_poisoned_swap rfl h hx (by rw [gr_past])⟩,
      fun h => completes_atomic_poisoned rfl h hx⟩

end Sys2Proof.Machine
end

section
/-!
Loads and stores (R70, R72, R73, R362): the octets of a word, what a load finds of memory, and what a store leaves of it.
-/
namespace Sys2Proof.Machine

/-! ### The octets of a number -/

theorem leBytes_length (n : Nat) : ∀ v, (leBytes n v).length = n := by
  induction n with
  | zero => exact fun _ => rfl
  | succ n ih => exact fun v => congrArg (· + 1) (ih (v / 256))

/-- The octets of a sum of two words, the upper one above the lower. -/
theorem leBytes_append (m n : Nat) : ∀ lo hi, lo < 256 ^ m → leBytes (m + n) (hi * 256 ^ m + lo) = leBytes m lo ++ leBytes n hi := by
  induction m with
  | zero =>
    intro lo hi h
    have h0 : lo = 0 := by omega
    subst h0
    simp [leBytes]
  | succ m ih =>
    intro lo hi h
    have hd : (hi * 256 ^ (m + 1) + lo) / 256 = hi * 256 ^ m + lo / 256 := by
      rw [Nat.pow_succ, ← Nat.mul_assoc, Nat.add_comm, Nat.add_mul_div_right _ _ (by decide), Nat.add_comm]
    have hb : BitVec.ofNat 8 (hi * 256 ^ (m + 1) + lo) = BitVec.ofNat 8 lo := by
      refine BitVec.eq_of_toNat_eq ?_
      rw [BitVec.toNat_ofNat, BitVec.toNat_ofNat, Nat.pow_succ, ← Nat.mul_assoc, Nat.add_comm]
      exact Nat.add_mul_mod_self_right _ _ _
    have hl : lo / 256 < 256 ^ m := Nat.div_lt_of_lt_mul (by rw [Nat.mul_comm, ← Nat.pow_succ]; exact h)
    rw [Nat.add_right_comm, leBytes, hb, hd, ih _ _ hl]
    rfl

/-- A doubleword of two words, in memory: the lower one first. -/
theorem leBytes_words (hi lo : BitVec 32) : leBytes 8 (hi ++ lo).toNat = leBytes 4 lo.toNat ++ leBytes 4 hi.toNat := by
  rw [← leBytes_append 4 4 _ _ lo.isLt, BitVec.toNat_append, Nat.shiftLeft_eq]
  rw [Nat.mul_comm hi.toNat, Nat.mul_comm hi.toNat, ← Nat.two_pow_add_eq_or_of_lt lo.isLt]
  rfl

theorem extractLsb'_high (g : BitVec 64) : g.extractLsb' 32 32 = BitVec.ofNat 32 (g.toNat / 2 ^ 32) := by
  refine BitVec.eq_of_toNat_eq ?_
  simp [BitVec.extractLsb'_toNat, Nat.shiftRight_eq_div_pow]

theorem extractLsb'_low (g : BitVec 64) : g.extractLsb' 0 32 = BitVec.ofNat 32 g.toNat := by
  refine BitVec.eq_of_toNat_eq ?_
  simp [BitVec.extractLsb'_toNat]

/-- Nanoseconds and fraction in a doubleword (R65). -/
theorem timePut_low (v : TimeVal) (g : BitVec 64) : timePut v true g =
    if 999999999 < g.toNat / 2 ^ 32 then none else some ⟨v.sec, BitVec.ofNat 32 (g.toNat / 2 ^ 32), BitVec.ofNat 32 g.toNat⟩ := by
  have hn : (BitVec.ofNat 32 (g.toNat / 2 ^ 32)).toNat = g.toNat / 2 ^ 32 := by
    rw [BitVec.toNat_ofNat]
    have := g.isLt
    omega
  unfold timePut
  rw [if_pos rfl, extractLsb'_high, extractLsb'_low, hn]

/-! ### Loads -/

/-- Counting a load changes nothing that it reads. -/
theorem State.loadCount_only (s : State) (th a n : Nat) (insn : BitVec 32) : Keeps (maskOf counting) s (s.loadCount th a n insn) :=
  State.loadCount_keeps (Keeps.refl _ s) (by decide) th a n insn

theorem State.poisonedIn_congr {s t : State} (h : t.hst.poisoned = s.hst.poisoned) (a n : Nat) : t.poisonedIn a n = s.poisonedIn a n := by
  unfold State.poisonedIn
  rw [h]

theorem State.octets_congr {s t : State} (h : t.mem = s.mem) (n : Nat) : ∀ a, t.octets a n = s.octets a n := by
  induction n with
  | zero => exact fun _ => rfl
  | succ n ih =>
    intro a
    unfold State.octets
    rw [ih, State.octet_congr h]

theorem Keeps.octets {m : Nat} {s t : State} (h : Keeps m s t) (hm : m.testBit (Part.mem).num = false) (a n : Nat) :
    t.octets a n = s.octets a n := State.octets_congr (h.same .mem hm) n a

theorem Keeps.poisonedIn {m : Nat} {s t : State} (h : Keeps m s t) (hm : m.testBit (Part.hst).num = false) (a n : Nat) :
    t.poisonedIn a n = s.poisonedIn a n := State.poisonedIn_congr (congrArg HstState.poisoned (h.same .hst hm)) a n

/-- An access that memory takes lies outside the register window. -/
theorem windowOff_of_access {s : State} {th a n f : Nat} {write strict : Bool} (k : Bool) (h : s.access th a n write strict = .ok f) :
    windowOff k a n = none := by
  unfold windowOff
  refine if_neg fun hr => ?_
  have hd : s.dataAccess th (s.thread th).k a n write = none := by simp only [State.dataAccess, hr]
  unfold State.access at h
  simp only [hr, hd] at h
  split at h <;> exact absurd h (by simp)

/-! ### Time values and bounds in memory -/

/-- An instruction that writes one time register. -/
theorem setT_effect {s v : State} {m th : Nat} (hv : Keeps m (s.setThread th (s.past th)) v)
    (hm : m.testBit (Part.threads).num = false) (i : Nat) (x : TimeVal) : v.setT th i x = v.setThread th ((s.past th).setT i x) := by
  rw [State.setT, thread_effect hv hm]

theorem setBd_effect {s v : State} {m th : Nat} (hv : Keeps m (s.setThread th (s.past th)) v)
    (hm : m.testBit (Part.threads).num = false) (i : Nat) (x : TagBound) : v.setBd th i x = v.setThread th ((s.past th).setBd i x) := by
  rw [State.setBd, thread_effect hv hm]

/-- A load of a time value, from an access that memory takes. -/
theorem State.loadT_eq {s : State} {th td x f : Nat} (insn : BitVec 32) (h : s.access th x 16 false true = .ok f) :
    s.loadT th td x insn = if s.poisonedIn f 16 then .ok ((s.loadCount th x 16 insn).poisonDest th (32 + td) x)
      else (s.loadCount th x 16 insn).putT th td (timeOfMem (s.octets f 16)) := by
  have hk := s.loadCount_only th x 16 insn
  unfold State.loadT
  simp only [h, hk.poisonedIn (by decide), hk.octets (by decide)]
  rfl

/-- A load of a bound, from an access that memory takes. -/
theorem State.loadB_eq {s : State} {th bd x f : Nat} (insn : BitVec 32) (h : s.access th x 8 false true = .ok f) :
    s.loadB th bd x insn = if s.poisonedIn f 8 then .ok ((s.loadCount th x 8 insn).poisonDest th (40 + bd) x)
      else .ok ((s.loadCount th x 8 insn).setBd th bd ⟨boundOfWord (BitVec.ofNat 64 (leNat (s.octets f 8))), .program⟩) := by
  have hk := s.loadCount_only th x 8 insn
  unfold State.loadB
  simp only [h, hk.poisonedIn (by decide), hk.octets (by decide)]
  rfl

/-! ### Stores -/

/-- A store to memory that does not wait. -/
theorem State.put_stores {s : State} {th a f n : Nat} {bs : List Byte} {strict : Bool} (insn : BitVec 32) (hn : bs.length = n)
    (h : s.access th a n true strict = .ok f) (hm : s.mirrorStalls f n = false) :
    s.put th a bs strict insn = .ok ((s.storeData f bs).insnEvent th 0x0A insn) := by
  subst hn
  simp only [State.put, h, hm, Bool.false_eq_true, if_false]

/-- A store to a mirror window that waits for its END marker waits too (R362). -/
theorem State.put_waits {s : State} {th a f n : Nat} {bs : List Byte} {strict : Bool} (insn : BitVec 32) (hn : bs.length = n)
    (h : s.access th a n true strict = .ok f) (hm : s.mirrorStalls f n = true) : s.put th a bs strict insn = .stall := by
  subst hn
  simp only [State.put, h, hm, if_true]

/-- An issued store: the octets are stored at the access's address, and nowhere else. -/
theorem completes_put {c : Instr} {s : State} {th f : Nat} {bs : List Byte} {insn : BitVec 32} {kOnly : Bool} {srcs : List Nat}
    {body : State → Eff} (hc : exec c s = .next (s.issue th insn kOnly srcs body)) (h : s.Issues th kOnly srcs)
    (hb : body (s.setThread th (s.past th)) = .ok (((s.setThread th (s.past th)).storeData f bs).insnEvent th 0x0A insn)) :
    Completes c s th (s.past th) [.mem, .hst, .mat] (fun t => Stored s t f bs) := by
  have hk := State.insnEvent_keeps (Keeps.refl (maskOf counting) ((s.setThread th (s.past th)).storeData f bs)) (by decide) th 0x0A insn
  refine completes_effect hc h hb ((storing_keeps s th f bs _).trans (hk.mono (by decide))) (by decide) fun t ht => ?_
  exact ht.stored (by decide) (hk.onlyOf.stored (by decide) (stored_past s th f bs _))

/-- An issued instruction that stalls leaves everything as it was. -/
theorem issue_stall {s : State} {th : Nat} {insn : BitVec 32} {kOnly : Bool} {srcs : List Nat} {body : State → Eff}
    (h : s.Issues th kOnly srcs) (hb : body (s.setThread th (s.past th)) = .stall) : s.issue th insn kOnly srcs body = s := by
  have hr : s.runs th = true := by simp [State.runs, h.runs, h.ready]
  have hp := Thread.poisonOf_none h.clean
  have hk : (kOnly && !(s.thread th).k) = false := by
    cases kOnly with
    | false => rfl
    | true => simp [h.priv rfl]
  simp only [State.past] at hb
  unfold State.issue
  simp only [hr, h.fetch, hk, hp, Bool.not_true, Bool.false_eq_true, if_false, hb]

/-- The access of an issued load or store, at the address of its register and offset. -/
theorem access_issued {s : State} {th a n f : Nat} {off : Int} {write strict : Bool} (h : s.access th (s.ea th a off) n write strict = .ok f) :
    (s.setThread th (s.past th)).access th (s.ea th a off) n write strict = .ok f := by
  rw [access_past, h]

/-- The octets that an issued load finds. -/
theorem octets_setThread (s : State) (th : Nat) (r : Thread) (a n : Nat) : (s.setThread th r).octets a n = s.octets a n :=
  State.octets_congr (s := s) (t := s.setThread th r) rfl n a

/-- What counting an issued load keeps. -/
theorem loadCount_past (s : State) (th a n : Nat) (insn : BitVec 32) :
    Keeps (maskOf (counting ++ [])) (s.setThread th (s.past th)) ((s.setThread th (s.past th)).loadCount th a n insn) :=
  State.loadCount_only _ th a n insn

/-- An issued load of a time value finds no poison: the time value of its octets, or none. -/
theorem loadT_issued {s : State} {th td a f : Nat} {off : Int} (insn : BitVec 32) (h : s.access th (s.ea th a off) 16 false true = .ok f)
    (hp : s.poisonedIn f 16 = false) :
    let s1 := s.setThread th (s.past th)
    s1.loadT th td (s1.ea th a off) insn = (s1.loadCount th (s.ea th a off) 16 insn).putT th td (timeOfMem (s.octets f 16)) := by
  intro s1
  rw [ea_past, State.loadT_eq insn (access_issued h), octets_setThread]
  exact if_neg (Bool.eq_false_iff.1 hp)

/-- An issued load of poisoned octets marks its destination. -/
theorem loadT_issued_poisoned {s : State} {th td a f : Nat} {off : Int} (insn : BitVec 32)
    (h : s.access th (s.ea th a off) 16 false true = .ok f) (hp : s.poisonedIn f 16 = true) :
    let s1 := s.setThread th (s.past th)
    s1.loadT th td (s1.ea th a off) insn = .ok ((s1.loadCount th (s.ea th a off) 16 insn).poisonDest th (32 + td) (s.ea th a off)) := by
  intro s1
  rw [ea_past, State.loadT_eq insn (access_issued h)]
  exact if_pos hp

theorem loadB_issued {s : State} {th bd a f : Nat} {off : Int} (insn : BitVec 32) (h : s.access th (s.ea th a off) 8 false true = .ok f)
    (hp : s.poisonedIn f 8 = false) :
    let s1 := s.setThread th (s.past th)
    s1.loadB th bd (s1.ea th a off) insn = .ok ((s1.loadCount th (s.ea th a off) 8 insn).setBd th bd
      ⟨boundOfWord (BitVec.ofNat 64 (leNat (s.octets f 8))), .program⟩) := by
  intro s1
  rw [ea_past, State.loadB_eq insn (access_issued h), octets_setThread]
  exact if_neg (Bool.eq_false_iff.1 hp)

theorem loadB_issued_poisoned {s : State} {th bd a f : Nat} {off : Int} (insn : BitVec 32)
    (h : s.access th (s.ea th a off) 8 false true = .ok f) (hp : s.poisonedIn f 8 = true) :
    let s1 := s.setThread th (s.past th)
    s1.loadB th bd (s1.ea th a off) insn = .ok ((s1.loadCount th (s.ea th a off) 8 insn).poisonDest th (40 + bd) (s.ea th a off)) := by
  intro s1
  rw [ea_past, State.loadB_eq insn (access_issued h)]
  exact if_pos hp

/-- The octets of a bound register in memory: LATE first. -/
theorem leBytes_bound (b : Bound) : leBytes 8 (wordOfBound b).toNat = leBytes 4 b.late.toNat ++ leBytes 4 b.early.toNat := leBytes_words _ _

/-- The octets of a time register in memory: SEC, FRAC, NS. -/
theorem timeMem_eq (v : TimeVal) : timeMem v = leBytes 8 v.sec.toNat ++ leBytes 4 v.frac.toNat ++ leBytes 4 v.ns.toNat := by
  unfold timeMem timeGet
  rw [if_pos rfl, leBytes_words, List.append_assoc]

/-- A load into a time or bound register that is poisoned marks the register. -/
theorem completes_load_marked {c : Instr} {s : State} {th dest a n : Nat} {insn : BitVec 32} {srcs : List Nat} {body : State → Eff}
    (hc : exec c s = .next (s.issue th insn false srcs body)) (h : s.Issues th false srcs) (hd : dest ≠ 0)
    (hb : body (s.setThread th (s.past th)) = .ok (((s.setThread th (s.past th)).loadCount th a n insn).poisonDest th dest a)) :
    Completes c s th { (s.past th) with poison := SMap.insert id (s.thread th).poison dest (BitVec.ofNat 64 a) } []
      (fun t => MemorySame s t) := by
  have hm := completes_effect_marked (P := fun t => MemorySame s t) hc h hb (loadCount_past s th a n insn) (by decide) (by decide)
    fun t ht => (((loadCount_past s th a n insn).onlyOf.trans ht).mem (by decide)).past
  unfold Thread.marked at hm
  rwa [if_neg hd] at hm

/-- Settles O17: a load by what it finds at its access, a store by the octets of its register. -/
theorem timeMemoryResults : Obligations.TimeMemoryResults := by
  unfold Obligations.TimeMemoryResults
  intro s th td a off f x
  have same : ∀ {n : Nat} {insn : BitVec 32} {t : State},
      Only (.threads :: counting) ((s.setThread th.val (s.past th.val)).loadCount th.val x n insn) t → MemorySame s t := fun ht =>
    (((loadCount_past s th.val x _ _).onlyOf.trans ht).mem (by decide)).past
  refine ⟨fun h hp hx => ?_, fun h hp hx => ?_, fun h hp hx => ?_, fun h hp hx => ?_, fun h hx hm => ?_, fun h hx hm => ?_⟩
  · intro sec low
    have hload := loadT_issued (td := td.val) (encTM td.val 0 a.val off) hx hp
    rw [timeOfMem, timePut_low] at hload
    have hk := loadCount_past s th.val x 16 (encTM td.val 0 a.val off)
    refine ⟨fun hns => completes_then rfl h (hload.trans ?_) hk (by decide) fun t ht => same ht, fun hns hu =>
      trapsFromU (e := ⟨.timeRange, 0⟩) rfl h hu (hload.trans ?_)⟩
    · rw [if_neg (Nat.not_lt.2 hns)]
      exact congrArg Eff.ok (setT_effect hk (by decide) _ _)
    · rw [if_pos hns]
      rfl
  · intro w
    have hk := loadCount_past s th.val x 8 (encTM td.val 2 a.val off)
    refine completes_then rfl h ((loadB_issued _ hx hp).trans ?_) hk (by decide) fun t ht => same ht
    rw [setBd_effect hk (by decide), boundOfWord_eq]
  · exact completes_load_marked rfl h (by omega) (loadT_issued_poisoned _ hx hp)
  · exact completes_load_marked rfl h (by omega) (loadB_issued_poisoned _ hx hp)
  · intro v
    refine completes_put rfl h ?_
    rw [← timeMem_eq, ea_past, tr_past]
    exact State.put_stores _ (by simp [timeMem, leBytes_length]) (access_issued hx) hm
  · intro v
    refine completes_put rfl h ?_
    rw [← leBytes_bound, ea_past, br_past]
    exact State.put_stores _ (leBytes_length 8 _) (access_issued hx) hm

end Sys2Proof.Machine
end

section
/-!
LD and ST of general registers (R70, R72, R73, R318, R331 to R334, R362): memory, and registers through the window.
-/
namespace Sys2Proof.Machine

/-! ### What the check bits of a word leave -/

/-- The parts that reading a word with its check bits reaches. -/
def checking : List Part := [.timeline, .flt, .hst, .regs .fltRec, .regs .memory, .regs .datum]

theorem State.eccRead_parts (s : State) (f : Nat) (e : EccResult) : Keeps (maskOf (counting ++ checking)) s (s.eccRead f e) :=
  State.eccRead_keeps (Keeps.refl _ s) (by decide) f e

theorem raise_minor_poisoned {s : State} {r : Raise} (hc : r.cls ≠ 3) : (s.raise r).hst.poisoned = s.hst.poisoned :=
  congrArg HstState.poisoned ((State.raise_minor_keeps hc (Keeps.refl (maskOf raising) s) (by decide)).same .hst (by decide))

theorem State.ce2_poisoned (s : State) (c : Nat) : (s.ce2 c).hst.poisoned = s.hst.poisoned := by
  unfold State.ce2
  extract_lets n recent over_ s1 s2
  split
  · exact raise_minor_poisoned (by simp)
  · rfl

/-- A corrected word poisons nothing (R331). -/
theorem State.eccRead_corrected (s : State) (f : Nat) {e : EccResult} (h : e = .ce1 ∨ e = .ce2) :
    (s.eccRead f e).hst.poisoned = s.hst.poisoned := by
  rcases h with rfl | rfl
  · unfold State.eccRead
    dsimp only
    split <;> rfl
  · unfold State.eccRead
    dsimp only
    split
    · exact s.ce2_poisoned _
    · rfl

theorem SMap.mem_of_find {κ α : Type} [DecidableEq κ] {m : SMap κ α} {k : κ} {v : α} (h : SMap.find m k = some v) : (k, v) ∈ m := by
  induction m with
  | nil => simp [SMap.find] at h
  | cons e r ih =>
    obtain ⟨k', v'⟩ := e
    simp only [SMap.find] at h
    split at h
    · next hk =>
      obtain rfl := Option.some.inj h
      exact hk ▸ List.mem_cons_self
    · exact List.mem_cons_of_mem _ (ih h)

/-- A doubleword that is listed as poisoned is found so by every access of it. -/
theorem State.poisonedIn_of_find {s : State} {f n : Nat} {b : Bool} (h : SMap.find s.hst.poisoned (f / 8) = some b) (hn : 0 < n) :
    s.poisonedIn f n = true :=
  List.any_eq_true.2 ⟨_, SMap.mem_of_find h, decide_eq_true ⟨Nat.le_refl _, by dsimp only; omega⟩⟩

/-- A doubleword that reads as poisoned is listed. -/
theorem find_of_get {m : SMap Nat Bool} {k : Nat} (h : SMap.get (fun _ => false) m k = true) : SMap.find m k = some true := by
  unfold SMap.get at h
  cases hf : SMap.find m k with
  | none => simp [hf] at h
  | some b => simpa [hf] using h

/-- A word found uncorrectable is poisoned (R333). -/
theorem State.eccRead_ue (s : State) (f n : Nat) (hn : 0 < n) : (s.eccRead f .ue).poisonedIn f n = true := by
  refine State.poisonedIn_of_find (b := true) ?_ hn
  unfold State.eccRead State.foundUe State.uncorrectable
  dsimp only
  split
  · split
    · next h => exact find_of_get h
    · rw [raise_minor_poisoned (by simp)]
      exact SMap.find_insert_same _ _ _ _
  · split
    · next h => exact find_of_get h
    · rw [raise_minor_poisoned (by simp)]
      exact SMap.find_insert_same _ _ _ _

/-! ### LD from memory -/

theorem loadBytes_pos {size : BitVec 3} {n : Nat} (h : loadBytes size = some n) : 0 < n := by
  revert h
  unfold loadBytes
  split <;> simp <;> omega

theorem loadValue_eq (size : BitVec 3) (n v : Nat) : loadValue size n v =
    if size.toNat < 4 then BitVec.ofInt 64 (signedOf (8 * n) v) else BitVec.ofNat 64 v := by
  unfold loadValue
  by_cases h : size.toNat < 4
  · rw [if_pos h, if_neg (by omega)]
  · rw [if_neg h, if_pos (by omega)]

/-- A load from memory, by what the word's check bits leave. -/
theorem State.load_eq {s : State} {th d a n f : Nat} {size : BitVec 3} (e : EccResult) (insn : BitVec 32) (hn : loadBytes size = some n)
    (h : s.access th a n false false = .ok f) :
    let s2 := (s.eccRead f e).loadCount th a n insn
    s.load th d a size e insn = if (s.eccRead f e).poisonedIn f n then .ok (s2.poisonDest th d a)
      else .ok (s2.setG th d (loadValue size n (leNat (s.octets f n)))) := by
  intro s2
  have hk : Keeps (maskOf counting) (s.eccRead f e) s2 := State.loadCount_only _ th a n insn
  have hm : s2.octets f n = s.octets f n := (hk.octets (by decide) f n).trans ((s.eccRead_parts f e).octets (by decide) f n)
  rw [← hk.poisonedIn (by decide), ← hm]
  unfold State.load
  simp only [hn, h, windowOff_of_access _ h]
  rfl

/-- What reading and counting an issued load keeps. -/
theorem load_past (s : State) (th a n f : Nat) (e : EccResult) (insn : BitVec 32) :
    Keeps (maskOf (counting ++ checking)) (s.setThread th (s.past th)) (((s.setThread th (s.past th)).eccRead f e).loadCount th a n insn) :=
  (State.eccRead_parts _ f e).trans ((State.loadCount_only _ th a n insn).mono (by decide))

/-- An issued LD of a word that its check bits and its marks leave sound. -/
theorem completes_ld {s : State} {th : Fin 512} {d a : Fin 32} {size : BitVec 3} {off : BitVec 13} {e : EccResult} {n f : Nat}
    {l : List Part} (h : s.Issues th.val false [a.val]) (hn : loadBytes size = some n)
    (hx : s.access th.val (s.ea th.val a.val off.toInt) n false false = .ok f)
    (hp : ((s.setThread th.val (s.past th.val)).eccRead f e).poisonedIn f n = false)
    (hk : ∀ insn, Keeps (maskOf (counting ++ l)) (s.setThread th.val (s.past th.val))
      (((s.setThread th.val (s.past th.val)).eccRead f e).loadCount th.val (s.ea th.val a.val off.toInt) n insn))
    (hm : (maskOf (counting ++ l)).testBit (Part.threads).num = false) (hl : Part.threads ∉ counting ++ l) :
    Completes (.ld th d a size off e) s th.val ((s.past th.val).setG d.val (if size.toNat < 4 then
      BitVec.ofInt 64 (signedOf (8 * n) (leNat (s.octets f n))) else BitVec.ofNat 64 (leNat (s.octets f n)))) l (fun _ => True) := by
  refine completes_effect_setG rfl h ?_ (hk (encM 0x09 d.val a.val size off)) hm hl fun _ _ => trivial
  rw [← loadValue_eq, ea_past, State.load_eq _ _ hn (access_issued hx), octets_setThread]
  exact if_neg (Bool.eq_false_iff.1 hp)

/-- An issued LD of a poisoned word. -/
theorem completes_ld_marked {s : State} {th : Fin 512} {d a : Fin 32} {size : BitVec 3} {off : BitVec 13} {e : EccResult} {n f : Nat}
    (h : s.Issues th.val false [a.val]) (hn : loadBytes size = some n)
    (hx : s.access th.val (s.ea th.val a.val off.toInt) n false false = .ok f)
    (hp : ((s.setThread th.val (s.past th.val)).eccRead f e).poisonedIn f n = true) :
    Completes (.ld th d a size off e) s th.val ((s.past th.val).marked d.val (s.ea th.val a.val off.toInt)) checking (fun _ => True) := by
  refine completes_effect_marked rfl h ?_ (load_past s th.val (s.ea th.val a.val off.toInt) n f e (encM 0x09 d.val a.val size off)) (by decide) (by decide)
    fun _ _ => trivial
  rw [ea_past, State.load_eq _ _ hn (access_issued hx)]
  exact if_pos hp

/-! ### The register window -/

/-- A word access of a program in K that is a register's. -/
theorem windowOff_reg {a : Nat} (hr : areaOf a 4 = some .regs) (ha : a % 4 = 0) : windowOff true a 4 = some (.ok (a - 0x10000000)) := by
  unfold windowOff
  rw [if_pos hr]
  simp [ha]

/-- Registers that the window reads by the rule of R318 alone. -/
theorem State.regLoad_read {s : State} {off i : Nat} {r : Reg} (h : Reg.ofAddr off = some (r, i)) (h1 : r ≠ .DTM_NOW_SEC_HI)
    (h2 : r ≠ .DTM_NOW_SEC_LO) (h3 : r ≠ .DTM_NOW_NS) (h4 : r ≠ .DTM_NOW_FRAC) (h5 : r ≠ .IRQ_CLAIM) :
    s.regLoad off = (s, s.readReg r i) := by
  unfold State.regLoad
  simp only [h, if_neg h1, if_neg h2, if_neg h3, if_neg h4, if_neg h5]

/-- Of the registers, STK_THR_STAT alone shows a thread's record. -/
theorem State.readReg_setThread (s : State) (th : Nat) (t : Thread) {r : Reg} (i : Nat) (h : r ≠ .STK_THR_STAT) :
    (s.setThread th t).readReg r i = s.readReg r i := by
  have hv : (s.setThread th t).view r i = s.view r i := by
    unfold State.view
    simp only [if_neg h]
    rfl
  unfold State.readReg
  rw [hv]
  rfl

/-- A load of a word through the window by a program in K takes what the register reads as. -/
theorem State.load_reg {s : State} {th d a off : Nat} {w : BitVec 32} (e : EccResult) (insn : BitVec 32)
    (hw : windowOff (s.thread th).k a 4 = some (.ok off)) (hl : s.regLoad off = (s, w)) :
    s.load th d a 6 e insn = .ok (s.setG th d (BitVec.ofNat 64 w.toNat)) := by
  have hb : loadBytes 6 = some 4 := rfl
  have hv : loadValue 6 4 w.toNat = BitVec.ofNat 64 w.toNat := by
    rw [loadValue_eq, if_neg (by decide)]
  unfold State.load
  simp only [hb, hw, hl, hv]

/-- Settles O14: memory by what the check bits and the marks say of the word, a register by the rule of its read. -/
theorem loadResults : Obligations.LoadResults := by
  unfold Obligations.LoadResults
  refine ⟨fun s th d a size off ecc n f h hn hx => ?_, fun s th d a off r i => ?_⟩
  · intro x v u
    refine ⟨fun he hp => ?_, fun he hp => ?_, fun he => ?_⟩
    · subst he
      exact completes_ld h hn hx hp (fun insn => State.loadCount_only _ _ _ _ insn) (by decide) (by decide)
    · refine completes_ld h hn hx ?_ (fun insn => load_past s _ _ _ _ _ insn) (by decide) (by decide)
      rw [State.poisonedIn_congr (State.eccRead_corrected _ f he)]
      exact hp
    · refine completes_ld_marked h hn hx ?_
      rcases he with rfl | ⟨rfl, hp⟩
      · exact State.eccRead_ue _ f n (loadBytes_pos hn)
      · exact hp
  · intro x h hk hr ha hreg h1 h2 h3 h4 h5 h6
    have hk1 : ((s.setThread th.val (s.past th.val)).thread th.val).k = true := by rw [State.thread_setThread_same]; exact hk
    refine completes_setG rfl h ?_
    rw [ea_past, State.load_reg _ _ (by rw [hk1]; exact windowOff_reg hr ha) (State.regLoad_read hreg h1 h2 h3 h4 h5),
      State.readReg_setThread s _ _ i h6]

end Sys2Proof.Machine
end

section
/-!
ST of a general register (R70, R72, R362): to memory, and to a register through the window.
-/
namespace Sys2Proof.Machine

/-- The octets of a store, by its size code. -/
theorem loadBytes_store (size : BitVec 3) (h : size.toNat < 4) : loadBytes size = some (2 ^ size.toNat) := by
  revert size
  decide

/-- A store to memory is a store of its octets. -/
theorem State.storeReg_mem {s : State} {th d a f : Nat} {size : BitVec 3} (insn : BitVec 32) (hs : size.toNat < 4)
    (h : s.access th a (2 ^ size.toNat) true false = .ok f) :
    s.storeReg th d a size insn = s.put th a (leBytes (2 ^ size.toNat) (s.gr th d).toNat) false insn := by
  unfold State.storeReg
  simp only [if_pos hs, loadBytes_store size hs, windowOff_of_access _ h]

/-- A store of a word through the window is the program's write of the register. -/
theorem State.storeReg_reg {s : State} {th d a off i : Nat} {r : Reg} (insn : BitVec 32)
    (hw : windowOff (s.thread th).k a 4 = some (.ok off)) (hr : Reg.ofAddr off = some (r, i)) :
    s.storeReg th d a 2 insn = .ok ((s.progWrite th r i ((s.gr th d).extractLsb' 0 32) insn).insnEvent th 0x0A insn) := by
  have hb : (if (2 : BitVec 3).toNat < 4 then loadBytes 2 else none) = some 4 := rfl
  unfold State.storeReg State.regStore
  simp only [hb, hw, hr]

/-- Whether a program's write is a violation does not depend on its thread's record. -/
theorem State.writeViolation_setThread (s : State) (n : Nat) (t : Thread) (th : Nat) (r : Reg) (i : Nat) (v : BitVec 32) :
    (s.setThread n t).writeViolation th r i v = s.writeViolation th r i v := by
  unfold State.writeViolation
  simp only [State.owns_setThread]
  rfl

/-- A program's write of a clock-die register that is no violation is set out for the clock die (R18). -/
theorem State.progWrite_posts {s : State} {th : Nat} {r : Reg} {i : Nat} {v : BitVec 32} (insn : BitVec 32)
    (hg : s.regGated r i = false) (hc : r.onClock i = true) (hd : s.d2dUp = true) (hv : s.writeViolation th r i v = none)
    (h1 : r ≠ .DTM_INC_LO) (h2 : r ≠ .SVC_TALLY) : s.progWrite th r i v insn = s.post (.thread th) r i v := by
  simp only [State.progWrite, hg, hc, hd, hv, h1, h2, Bool.not_true, Bool.and_false, Bool.false_eq_true, if_false, if_true]

/-- Settles O15: a store to memory is put, or waits with its mirror window; a store through the window is the program's write. -/
theorem storeResults : Obligations.StoreResults := by
  unfold Obligations.StoreResults
  refine ⟨fun s th d a size off f => ?_, fun s th d a off r i => ?_⟩
  · intro n h hs hx
    have hst := State.storeReg_mem (d := d.val) (encM 0x0A d.val a.val size off) hs (access_issued hx)
    rw [gr_past] at hst
    refine ⟨fun hm => completes_put rfl h ?_, fun hm => congrArg Host.Outcome.next (issue_stall h ?_)⟩
    · rw [ea_past, hst]
      exact State.put_stores _ (leBytes_length _ _) (access_issued hx) hm
    · rw [ea_past, hst]
      exact State.put_waits _ (leBytes_length _ _) (access_issued hx) hm
  · intro x insn h hk hr ha hreg
    have hk1 : ((s.setThread th.val (s.past th.val)).thread th.val).k = true := by rw [State.thread_setThread_same]; exact hk
    have hst := State.storeReg_reg (s := s.setThread th.val (s.past th.val)) (d := d.val) (th := th.val) insn
      (by rw [hk1]; exact windowOff_reg hr ha) hreg
    rw [gr_past] at hst
    have hi := issue_ok (insn := insn) (body := fun s => s.storeReg th.val d.val (s.ea th.val a.val off.toInt) 2 insn) h
      (by rw [ea_past]; exact hst)
    have ho := (State.insnEvent_keeps (Keeps.refl (maskOf counting) ((s.setThread th.val (s.past th.val)).progWrite th.val r i
      ((s.gr th.val d.val).extractLsb' 0 32) insn)) (by decide) th.val 0x0A insn).onlyOf.trans hi
    refine ⟨_, rfl, ho.mono (by decide), fun hg hc hd hv h1 h2 => ?_⟩
    rw [State.progWrite_posts (s := s.setThread th.val (s.past th.val)) insn hg hc hd ((State.writeViolation_setThread _ _ _ _ _ _ _).trans hv) h1 h2] at ho
    exact ⟨congrArg HstState.posted (ho.same .hst (by decide)), ho.mem (by decide)⟩

end Sys2Proof.Machine
end

section
/-!
The time instructions (R65, R77, Table 3.9): sums and differences of time values, exact to 2^-32 ns, and comparisons.
-/
namespace Sys2Proof.Machine

/-! ### Arithmetic of time values -/

/-- The number of instants that a Datum word spells, as an integer. -/
theorem timeSpan_cast : (timeSpan : Int) = 2 ^ 64 * 10 ^ 9 * 2 ^ 32 := by decide

/-- One second in 2^-32 ns, as an integer. -/
theorem secCount_cast : (secCount : Int) = 10 ^ 9 * 2 ^ 32 := by decide

theorem timeAdd_word {x : TimeVal} {d : Int} (h0 : 0 ≤ (x.count : Int) + d) (h1 : (x.count : Int) + d < 2 ^ 64 * 10 ^ 9 * 2 ^ 32) :
    timeAdd x d = some (TimeVal.ofCount ((x.count : Int) + d).toNat) := by
  unfold timeAdd
  rw [timeSpan_cast]
  exact if_neg (not_or.2 ⟨Int.not_lt.2 h0, Int.not_le.2 h1⟩)

theorem timeAdd_none {x : TimeVal} {d : Int} (h : (x.count : Int) + d < 0 ∨ 2 ^ 64 * 10 ^ 9 * 2 ^ 32 ≤ (x.count : Int) + d) :
    timeAdd x d = none := by
  unfold timeAdd
  rw [timeSpan_cast]
  exact if_pos h

theorem timeDiff_exact {x y : TimeVal} (h : ((x.count : Int) - y.count).natAbs < 2 ^ 63) :
    timeDiff x y = (BitVec.ofInt 64 ((x.count : Int) - y.count), false) := by
  unfold timeDiff
  dsimp only
  rw [if_neg (by omega), if_neg (by omega)]

theorem timeDiff_above {x y : TimeVal} (h : 2 ^ 63 ≤ (x.count : Int) - y.count) : timeDiff x y = (0x7FFFFFFFFFFFFFFF#64, true) := by
  unfold timeDiff
  dsimp only
  rw [if_pos (by omega)]
  rfl

theorem timeDiff_below {x y : TimeVal} (h : (x.count : Int) - y.count ≤ -2 ^ 63) : timeDiff x y = (0x8000000000000001#64, true) := by
  unfold timeDiff
  dsimp only
  rw [if_neg (by omega), if_pos (by omega)]
  rfl

/-! ### Comparisons -/

/-- The conditions of TCMP, by code. -/
theorem timeCond_iff (c : BitVec 3) (x y : TimeVal) (hc : c.toNat < 4) : ∃ v, timeCond c x y = some v ∧
    (v = true ↔ (c = 0 ∧ x.count < y.count) ∨ (c = 1 ∧ x.count ≤ y.count) ∨ (c = 2 ∧ x = y) ∨ (c = 3 ∧ x ≠ y)) := by
  have h : ∀ c : BitVec 3, c.toNat < 4 → c = 0 ∨ c = 1 ∨ c = 2 ∨ c = 3 := by decide
  rcases h c hc with rfl | rfl | rfl | rfl <;> simp [timeCond, Decidable.em]

/-- The reserved conditions. -/
theorem timeCond_reserved (c : BitVec 3) (x y : TimeVal) (hc : 4 ≤ c.toNat) : timeCond c x y = none := by
  have h : ∀ c : BitVec 3, 4 ≤ c.toNat → c = 4 ∨ c = 5 ∨ c = 6 ∨ c = 7 := by decide
  rcases h c hc with rfl | rfl | rfl | rfl <;> rfl

theorem boundCovers_iff (a c : Bound) : boundCovers a c = true ↔ c.early.toNat ≤ a.early.toNat ∧ c.late.toNat ≤ a.late.toNat := by
  simp [boundCovers]

/-! ### Instructions that write a time register -/

theorem setT_past (s : State) (th i : Nat) (v : TimeVal) : (s.setThread th (s.past th)).setT th i v =
    (s.setThread th (s.past th)).setThread th ((s.past th).setT i v) := by
  unfold State.setT
  rw [State.thread_setThread_same]

/-- An instruction that writes one time register. -/
theorem completes_setT {c : Instr} {s : State} {th td : Nat} {insn : BitVec 32} {srcs : List Nat} {body : State → Eff} {v : TimeVal}
    (hc : exec c s = .next (s.issue th insn false srcs body)) (h : s.Issues th false srcs)
    (hb : body (s.setThread th (s.past th)) = .ok ((s.setThread th (s.past th)).setT th td v)) :
    Completes c s th ((s.past th).setT td v) [] (fun _ => True) :=
  completes_thread hc h (by rw [hb, setT_past])

/-- An instruction whose result is a Datum word. -/
theorem completes_putT {c : Instr} {s : State} {th td : Nat} {insn : BitVec 32} {srcs : List Nat} {body : State → Eff} {v : TimeVal}
    {o : Option TimeVal} (hc : exec c s = .next (s.issue th insn false srcs body)) (h : s.Issues th false srcs)
    (hb : body (s.setThread th (s.past th)) = (s.setThread th (s.past th)).putT th td o) (ho : o = some v) :
    Completes c s th ((s.past th).setT td v) [] (fun _ => True) := by
  subst ho
  exact completes_setT hc h hb

/-- An instruction whose result is no Datum word (R65). -/
theorem traps_putT {c : Instr} {s : State} {th td : Nat} {insn : BitVec 32} {srcs : List Nat} {body : State → Eff}
    {o : Option TimeVal} (hc : exec c s = .next (s.issue th insn false srcs body)) (h : s.Issues th false srcs)
    (hb : body (s.setThread th (s.past th)) = (s.setThread th (s.past th)).putT th td o) (hk : (s.thread th).k = false) (ho : o = none) :
    TrapsFromU c s th .timeRange 0 := by
  subst ho
  exact trapsFromU (e := ⟨.timeRange, 0⟩) hc h hk hb

/-- TSUB, from the difference. -/
theorem completes_tsub {s : State} {th : Fin 512} {g : Fin 32} {tx ty : Fin 8} {d : BitVec 64} {sat : Bool}
    (h : s.Issues th.val false [32 + tx.val, 32 + ty.val]) (hd : timeDiff (s.tr th.val tx.val) (s.tr th.val ty.val) = (d, sat)) :
    Completes (.tsub th g tx ty) s th.val { ((s.past th.val).setG g.val d) with sat := (s.past th.val).sat || sat } [] (fun _ => True) := by
  refine completes_thread rfl h ?_
  have hd' : timeDiff ((s.past th.val).tr tx.val) ((s.past th.val).tr ty.val) = (d, sat) := hd
  simp only [State.thread_setThread_same, hd']

theorem Thread.setG_sat (t : Thread) (i : Nat) (v : BitVec 64) : { (t.setG i v) with sat := t.sat } = t.setG i v := by
  unfold Thread.setG
  split <;> rfl

/-- Settles O19: each instruction from the arithmetic of its operands. -/
theorem timeResults : Obligations.TimeResults := by
  unfold Obligations.TimeResults
  refine ⟨fun s th td tx ty g low => ?_, fun s th p tx ty bx bz cond => ?_⟩
  · intro x y v u span sum secs diff
    refine ⟨fun h => completes_setT rfl h rfl, fun h => ⟨?_, ?_⟩, fun h => ⟨fun hs => ?_, fun hs => ?_, fun hk hs => ?_, fun hk hs => ?_⟩,
      fun h => ⟨fun hd => ?_, fun hd => ?_, fun hd => ?_⟩, fun h => ⟨?_, fun hv => ?_, fun hk hv => ?_⟩⟩
    · exact completes_setT rfl h (by rw [tr_past])
    · exact completes_setG rfl h (by rw [tr_past]; rfl)
    · exact completes_putT rfl h (by rw [tr_past, gr_past]) (timeAdd_word hs.1 hs.2)
    · refine completes_putT rfl h (by rw [tr_past, gr_past, secCount_cast]) (timeAdd_word hs.1 hs.2)
    · exact traps_putT rfl h (by rw [tr_past, gr_past]) hk (timeAdd_none hs)
    · exact traps_putT rfl h (by rw [tr_past, gr_past, secCount_cast]) hk (timeAdd_none hs)
    · have hc := completes_tsub (g := g) h (timeDiff_exact hd)
      rwa [Bool.or_false, Thread.setG_sat] at hc
    · have hc := completes_tsub (g := g) h (timeDiff_above hd)
      rwa [Bool.or_true] at hc
    · have hc := completes_tsub (g := g) h (timeDiff_below hd)
      rwa [Bool.or_true] at hc
    · exact completes_setT rfl h (by rw [tr_past, gr_past]; rfl)
    · exact completes_putT rfl h (by rw [tr_past, gr_past, timePut_low]) (if_neg (Nat.not_lt.2 hv))
    · exact traps_putT rfl h (by rw [tr_past, gr_past, timePut_low]) hk (if_pos hv)
  · intro x y a c holds
    refine ⟨fun h => ⟨fun hc => ?_, fun hc hk => ?_⟩, fun h => ⟨boundCovers a c, boundCovers_iff a c, ?_⟩⟩
    · obtain ⟨v, hv, hiff⟩ := timeCond_iff cond x y hc
      refine ⟨v, hiff, completes_setP rfl h ?_⟩
      simp only [tr_past, show timeCond cond (s.tr th.val tx.val) (s.tr th.val ty.val) = some v from hv]
    · refine trapsFromU (e := ⟨.illegal, _⟩) rfl h hk ?_
      simp only [timeCond_reserved _ _ _ hc]
      rfl
    · exact completes_setP rfl h (by rw [br_past, br_past])

end Sys2Proof.Machine
end

section
/-!
Exceptions (R85): which of the checks before an instruction's effect raises one, and what taking it leaves in U and in K.
-/
namespace Sys2Proof.Machine

/-! ### Taking an exception -/

/-- An exception taken in U. -/
theorem traps_takeTrap {c : Instr} {s : State} {th : Nat} {insn : BitVec 32} {kOnly : Bool} {srcs : List Nat} {body : State → Eff}
    {x : Exc} {v : BitVec 64} (hc : exec c s = .next (s.issue th insn kOnly srcs body))
    (hi : s.issue th insn kOnly srcs body = s.takeTrap th insn ⟨x, v⟩) (hk : (s.thread th).k = false) : TrapsFromU c s th x v := by
  rw [hi] at hc
  have hpmc := pmcEvent_only s th 0x0B false insn ((s.thread th).pc.extractLsb' 0 32)
  have hth := thread_congr (hpmc.same .threads (by decide))
  unfold State.takeTrap at hc
  simp only [hk, Bool.false_eq_true, if_false] at hc
  refine ⟨_, hc, ?_, fun x hx => ?_, trivial, ?_⟩
  · rw [State.thread_setThread_same, hth]
  · rw [State.thread_setThread_other _ _ _ _ hx, hth]
  · exact (hpmc.trans (setThread_only _ th _)).mono (by decide)

/-- The parts of an exception taken in K. -/
def faulting : List Part := [.timeline, .threads, .frames, .launches, .jobs, .derived, .irq, .dtm, .flt, .pmc, .freeCtr, .regs .own,
  .regs .fltRec, .regs .irqStat, .regs .datum, .regs .pmc]

/-- The fault of an exception in K (R85). -/
def exceptionFault (th : Nat) (e : Trap) : Raise :=
  { rec_ := 64 + coreOf th, cause := 1, cls := 1, thread := some th, reason := e.exc.code }

theorem exceptionFault_minor (th : Nat) (e : Trap) : (exceptionFault th e).cls ≠ 3 := by simp [exceptionFault]

/-- The record of a thread that takes an exception in K: cleaned up, with the cause. -/
def Thread.faultedBy (t : Thread) (e : Trap) : Thread := { (t.cleaned .faulted) with ecause := e.exc.code, eval := e.eval }

/-- The thread cleaned up, with the exception in its record. -/
def State.faultThread (s : State) (th : Nat) (e : Trap) : State :=
  (s.cleanupThread th .faulted).setThread th ((s.thread th).faultedBy e)

theorem State.takeTrap_inK {s : State} {th : Nat} {insn : BitVec 32} {e : Trap} (hk : (s.thread th).k = true) :
    s.takeTrap th insn e =
      ((s.pmcEvent th 0x0B true insn ((s.thread th).pc.extractLsb' 0 32)).faultThread th e).raise (exceptionFault th e) := by
  unfold State.takeTrap State.faultThread
  simp only [hk, if_true, State.cleanupThread_self]
  rfl

theorem State.faultThread_keeps (s : State) (th : Nat) (e : Trap) : Keeps (maskOf faulting) s (s.faultThread th e) :=
  State.setThread_keeps (State.cleanupThread_keeps (Keeps.refl _ s) (by decide) th .faulted) (by decide) th _

/-- A core-die record of a core, while the core die runs. -/
theorem recordUp_core {s : State} (th : Fin 512) (hup : s.coreUp = true) : s.recordUp (64 + coreOf th.val) = true := by
  have hn : keeperRecord (64 + coreOf th.val) = false := by
    have := th.isLt
    unfold keeperRecord coreOf
    exact decide_eq_false (by omega)
  simp only [State.recordUp, hn, Bool.false_eq_true, if_false, hup]

/-- What an exception in K leaves. -/
structure FaultedInK (s t : State) (th : Nat) (e : Trap) : Prop where
  self   : t.thread th = (s.thread th).faultedBy e
  others : ∀ h, h ≠ th → t.thread h = s.thread h
  raised : Raised t (64 + coreOf th) 1
  frame  : Only faulting s t

theorem State.takeTrap_faults {s : State} {th : Fin 512} {insn : BitVec 32} {e : Trap} (hk : (s.thread th.val).k = true)
    (hup : s.coreUp = true) : FaultedInK s (s.takeTrap th.val insn e) th.val e := by
  rw [State.takeTrap_inK hk]
  have h1 := (State.pmcEvent_keeps (Keeps.refl (maskOf counting) s) (by decide) th.val 0x0B true insn
    ((s.thread th.val).pc.extractLsb' 0 32))
  generalize s.pmcEvent th.val 0x0B true insn ((s.thread th.val).pc.extractLsb' 0 32) = s1 at h1 ⊢
  have h2 := s1.faultThread_keeps th.val e
  have hself : (s1.faultThread th.val e).thread th.val = (s1.thread th.val).faultedBy e := State.thread_setThread_same _ _ _
  have hother : ∀ x, x ≠ th.val → (s1.faultThread th.val e).thread x = s1.thread x := fun x hx =>
    (State.thread_setThread_other _ _ _ _ hx).trans (s1.cleanupThread_other _ x _ hx)
  generalize s1.faultThread th.val e = s2 at h2 hself hother ⊢
  have hup2 : s2.coreUp = true := by
    unfold State.coreUp at hup ⊢
    rwa [h2.same .pwr (by decide), h1.same .pwr (by decide)]
  have h3 := State.raise_minor_keeps (exceptionFault_minor th.val e) (Keeps.refl (maskOf raising) s2) (by decide)
  refine ⟨?_, fun x hx => ?_, State.raise_minor_raised (exceptionFault_minor th.val e) (recordUp_core th hup2) (by simp [exceptionFault]), ?_⟩
  · rw [h3.thread (by decide), hself, h1.thread (by decide)]
  · rw [h3.thread (by decide), hother x hx, h1.thread (by decide)]
  · exact (((h1.mono (by decide)).trans h2).trans (h3.mono (by decide))).onlyOf

/-! ### The checks before an effect -/

theorem State.runs_of {s : State} {th : Nat} (hup : s.coreUp = true) (hr : (s.thread th).st = .ready) : s.runs th = true := by
  simp [State.runs, hup, hr]

/-- A program counter that cannot be fetched. -/
theorem issue_fetch {s : State} {th : Nat} {insn : BitVec 32} {kOnly : Bool} {srcs : List Nat} {body : State → Eff}
    (hr : s.runs th = true) (hf : s.canFetch th = false) : s.issue th insn kOnly srcs body = s.takeTrap th insn ⟨.fetch, (s.thread th).pc⟩ := by
  unfold State.issue
  simp only [hr, hf, Bool.not_true, Bool.not_false, Bool.false_eq_true, if_false, if_true]

/-- An instruction of K that a thread in U issues. -/
theorem issue_privilege {s : State} {th : Nat} {insn : BitVec 32} {srcs : List Nat} {body : State → Eff}
    (hr : s.runs th = true) (hf : s.canFetch th = true) (hk : (s.thread th).k = false) :
    s.issue th insn true srcs body = s.takeTrap th insn ⟨.privilege, insn.setWidth 64⟩ := by
  unfold State.issue
  simp only [hr, hf, hk, Bool.not_true, Bool.not_false, Bool.and_true, Bool.false_eq_true, if_false, if_true]

/-- An instruction that reads a poisoned register. -/
theorem issue_poison {s : State} {th : Nat} {insn : BitVec 32} {srcs : List Nat} {body : State → Eff} {x : BitVec 64}
    (hr : s.runs th = true) (hf : s.canFetch th = true) (hp : (s.thread th).poisonOf srcs = some x) :
    s.issue th insn false srcs body = s.takeTrap th insn ⟨.poison, x⟩ := by
  unfold State.issue
  simp only [hr, hf, hp, Bool.not_true, Bool.false_and, Bool.false_eq_true, if_false]

/-- An instruction whose effect is an exception. -/
theorem issue_trap {s : State} {th : Nat} {insn : BitVec 32} {srcs : List Nat} {body : State → Eff} {e : Trap}
    (h : s.Issues th false srcs) (hb : body (s.setThread th (s.past th)) = .trap e) :
    s.issue th insn false srcs body = s.takeTrap th insn e := by
  have hp := Thread.poisonOf_none h.clean
  simp only [State.past] at hb
  unfold State.issue
  simp only [State.runs_of h.runs h.ready, h.fetch, hp, hb, Bool.not_true, Bool.false_and, Bool.false_eq_true, if_false]

/-- A load that no rule of the address space permits (R68, R69, R72). -/
theorem State.load_error {s : State} {th d a n : Nat} {size : BitVec 3} {ecc : EccResult} {insn : BitVec 32} {e : Trap}
    (hn : loadBytes size = some n) (hw : windowOff (s.thread th).k a n = none) (h : s.access th a n false false = .error e) :
    s.load th d a size ecc insn = .trap e := by
  unfold State.load
  simp only [hn, hw, h]

/-- Settles O13: the first check that an instruction fails, or its effect, raises the exception; its privilege says what becomes of the
thread. -/
theorem exceptionResults : Obligations.ExceptionResults := by
  unfold Obligations.ExceptionResults
  refine ⟨fun s th hup hready hk => ?_, fun s th imm h hk => ?_⟩
  · have hr := State.runs_of hup hready
    refine ⟨fun d a b hf => traps_takeTrap rfl (issue_fetch hr hf) hk, fun hf => ⟨fun imm => ?_, ?_, fun g => ?_,
      fun d a b x hx => ?_⟩, fun d a b h hz => ⟨?_, ?_⟩, fun d a size off ecc n e h hn hw hx => ?_⟩
    · have h : s.Issues th.val false [] := ⟨hup, hready, hf, by simp, by simp⟩
      exact trapsFromU (e := ⟨.trap, _⟩) rfl h hk rfl
    · exact traps_takeTrap rfl (issue_privilege hr hf hk) hk
    · exact traps_takeTrap rfl (issue_privilege hr hf hk) hk
    · have hp : (s.thread th.val).poisonOf [a.val, b.val] = some x := by simp [Thread.poisonOf, hx]
      exact traps_takeTrap rfl (issue_poison hr hf hp) hk
    · exact trapsFromU (e := ⟨.divide, 0⟩) rfl h hk (if_pos (by rw [gr_past, hz]))
    · exact trapsFromU (e := ⟨.divide, 0⟩) rfl h hk (if_pos (by rw [gr_past, hz]))
    · refine trapsFromU rfl h hk ?_
      have hk1 : ((s.setThread th.val (s.past th.val)).thread th.val).k = false := by rw [State.thread_setThread_same]; exact hk
      rw [ea_past]
      exact State.load_error hn (by rw [hk1]; exact hw) (by rw [access_past, hx])
  · obtain ⟨self, others, raised, frame⟩ := State.takeTrap_faults (insn := encTrap imm) (e := ⟨.trap, imm.setWidth 64⟩) hk h.runs
    refine ⟨_, congrArg Host.Outcome.next (issue_trap h rfl), ?_⟩
    rw [self]
    exact ⟨rfl, rfl, rfl, rfl, rfl, others, raised.1, raised.2, frame⟩

end Sys2Proof.Machine
end

section
/-!
Times and bounds written into a held frame (R78, R79, Table 3.10).
-/
namespace Sys2Proof.Machine

theorem beBytes_length (n v : Nat) : (beBytes n v).length = n := by
  unfold beBytes
  rw [List.length_reverse, leBytes_length]

/-- Octets stored into a frame, with its descriptor replaced. -/
def State.frameStore (s : State) (flat : Nat) (bs : List Byte) (h : Nat) (f : Frame) : State := (s.storeMem flat bs).setFrame h f

theorem State.frameStore_keeps (s : State) (flat : Nat) (bs : List Byte) (h : Nat) (f : Frame) :
    Keeps (maskOf [.mem, .hst, .frames]) s (s.frameStore flat bs h f) :=
  State.setFrame_keeps (State.storeMem_keeps (Keeps.refl _ s) (by decide) flat bs) (by decide) h f

theorem State.frameStore_stored (s : State) (flat : Nat) (bs : List Byte) (h : Nat) (f : Frame) : Stored s (s.frameStore flat bs h f) flat bs :=
  stored_storeMem s flat bs

theorem State.frameStore_frame (s : State) (flat : Nat) (bs : List Byte) (h : Nat) (f : Frame) :
    SMap.find (s.frameStore flat bs h f).frames h = some f := SMap.find_insert_same _ _ _ _

/-- An instruction that writes octets into a frame. -/
theorem completes_frameStore {c : Instr} {s : State} {th flat h : Nat} {bs : List Byte} {f : Frame} {insn : BitVec 32} {srcs : List Nat}
    {body : State → Eff} (hc : exec c s = .next (s.issue th insn false srcs body)) (hi : s.Issues th false srcs)
    (hb : body (s.setThread th (s.past th)) = .ok ((s.setThread th (s.past th)).frameStore flat bs h f)) :
    Completes c s th (s.past th) [.mem, .hst, .frames] (fun t => Stored s t flat bs ∧ SMap.find t.frames h = some f) := by
  have hk := (s.setThread th (s.past th)).frameStore_keeps flat bs h f
  refine completes_effect hc hi hb (hk.mono (by decide)) (by decide) fun t ht => ⟨?_, ?_⟩
  · exact ht.stored (by decide) (State.frameStore_stored (s.setThread th (s.past th)) flat bs h f)
  · rw [show t.frames = _ from ht.same .frames (by decide)]
    exact State.frameStore_frame _ flat bs h f

/-- The frame of a write does not depend on a thread's record. -/
theorem State.frameWrite_setThread (s : State) (th : Nat) (t : Thread) (n a m : Nat) :
    (s.setThread th t).frameWrite n a m = s.frameWrite n a m := rfl

/-- The octets of a bound in a frame: both fields in the unit, EARLY first, big-endian. -/
theorem boundWire_unit (b : Bound) (unit : BitVec 2) (widen : Bool) :
    let size := if unit = 0 then 1 else if unit = 1 then 256 else 256000
    let up := fun (n : Nat) => BitVec.ofNat 32 (if 0xFFFFFFFF ≤ n then 0xFFFFFFFF else (n + size - 1) / size)
    boundWire (boundUnit b unit.toNat widen) =
      beBytes 4 (up b.early.toNat).toNat ++ beBytes 4 (up (if widen then b.late.toNat + size else b.late.toNat)).toNat := by
  intro size up
  rw [boundUnit_eq, unitOf_unit]
  rfl

/-- A TWF whose frame is found and whose format is not that of a missing UTC offset. -/
theorem completes_twf {s : State} {th : Fin 512} {tx : Fin 8} {g : Fin 32} {fmt : BitVec 2} {flat h : Nat} {f : Frame} {bs : List Byte}
    (hi : s.Issues th.val false [32 + tx.val, g.val]) (hbs : s.timeBytes fmt.toNat (s.tr th.val tx.val) = some bs)
    (hf : s.frameWrite th.val (s.gr th.val g.val).toNat bs.length = some (flat, h, f))
    (hu : fmt = 1 → s.fb Fld.DTM_UTC_OFFSET.VALID = true) :
    Completes (.twf th tx g fmt) s th.val (s.past th.val) [.mem, .hst, .frames] (fun t => Stored s t flat bs ∧
      SMap.find t.frames h = some { f with times := f.times ++
        [⟨s.tr th.val tx.val, decide (s.replica.word.count < (s.tr th.val tx.val).count)⟩] }) := by
  refine completes_frameStore rfl hi ?_
  have hbs' : (s.setThread th.val (s.past th.val)).timeBytes fmt.toNat (s.tr th.val tx.val) = some bs := hbs
  have hn : ¬ (fmt = 1 ∧ (!s.fb Fld.DTM_UTC_OFFSET.VALID) = true) := fun ⟨h1, h2⟩ => by simp [hu h1] at h2
  simp only [tr_past, gr_past, hbs', State.frameWrite_setThread, hf, State.fb_setThread, if_neg hn]
  rfl

/-- TWF in the NTP format without a UTC offset writes nothing and sets TSTAT.UTC (Table 3.10). -/
theorem completes_twf_no_offset {s : State} {th : Fin 512} {tx : Fin 8} {g : Fin 32} {flat h : Nat} {f : Frame}
    (hi : s.Issues th.val false [32 + tx.val, g.val]) (hv : s.fb Fld.DTM_UTC_OFFSET.VALID = false)
    (hf : s.frameWrite th.val (s.gr th.val g.val).toNat 8 = some (flat, h, f)) :
    Completes (.twf th tx g 1) s th.val { (s.past th.val) with utc := true } [] (fun _ => True) := by
  have hbs : (s.setThread th.val (s.past th.val)).timeBytes (1 : BitVec 2).toNat (s.tr th.val tx.val) =
      some (beBytes 8 (s.ntpTime (s.tr th.val tx.val))) := rfl
  have hf8 : s.frameWrite th.val (s.gr th.val g.val).toNat (beBytes 8 (s.ntpTime (s.tr th.val tx.val))).length = some (flat, h, f) := by
    rw [beBytes_length]
    exact hf
  refine completes_thread rfl hi ?_
  simp only [tr_past, gr_past, hbs, State.frameWrite_setThread, hf8, State.fb_setThread, hv]
  refine (if_pos ⟨trivial, rfl⟩).trans ?_
  rw [State.thread_setThread_same]

/-- TWF in the PTP format where the address holds no frame that the thread may write. -/
theorem trapsFromU_twf {s : State} {th : Fin 512} {tx : Fin 8} {g : Fin 32} (hi : s.Issues th.val false [32 + tx.val, g.val])
    (hk : (s.thread th.val).k = false) (hf : s.frameWrite th.val (s.gr th.val g.val).toNat 10 = none) :
    TrapsFromU (.twf th tx g 0) s th.val .access (s.gr th.val g.val) := by
  have hbs : (s.setThread th.val (s.past th.val)).timeBytes (0 : BitVec 2).toNat (s.tr th.val tx.val) =
      some (beBytes 6 (s.tr th.val tx.val).sec.toNat ++ beBytes 4 (s.tr th.val tx.val).ns.toNat) := rfl
  have hf10 : s.frameWrite th.val (s.gr th.val g.val).toNat
      (beBytes 6 (s.tr th.val tx.val).sec.toNat ++ beBytes 4 (s.tr th.val tx.val).ns.toNat).length = none := by
    rw [List.length_append, beBytes_length, beBytes_length]
    exact hf
  refine trapsFromU (e := ⟨.access, s.gr th.val g.val⟩) rfl hi hk ?_
  simp only [tr_past, gr_past, hbs, State.frameWrite_setThread, hf10]

/-- A BWF of a bound whose tag is servable. -/
theorem completes_bwf {s : State} {th : Fin 512} {bx : Fin 8} {g : Fin 32} {unit : BitVec 2} {flat h : Nat} {f : Frame} {widen : Bool}
    (hi : s.Issues th.val false [40 + bx.val, g.val]) (hu : unit ≠ 3) (ht : tagServable (s.br th.val bx.val).tag = true)
    (hf : s.frameWrite th.val (s.gr th.val g.val).toNat 8 = some (flat, h, f)) :
    Completes (.bwf th bx g unit widen) s th.val (s.past th.val) [.mem, .hst, .frames] (fun t =>
      Stored s t flat (boundWire (boundUnit (s.br th.val bx.val).b unit.toNat widen)) ∧
        SMap.find t.frames h = some { f with bounds := f.bounds ++ [(s.br th.val bx.val).tag] }) := by
  refine completes_frameStore rfl hi ?_
  simp only [br_past, gr_past, if_neg hu, ht, Bool.not_true, Bool.false_eq_true, if_false, State.frameWrite_setThread, hf]
  rfl

/-- An instruction whose whole effect is a Damper violation. -/
theorem completes_violation_only {c : Instr} {s : State} {th : Fin 512} {insn : BitVec 32} {kOnly : Bool} {srcs : List Nat}
    {body : State → Eff} {P : State → Prop} {reason detail : Nat}
    (hc : exec c s = .next (s.issue th.val insn kOnly srcs body)) (h : s.Issues th.val kOnly srcs)
    (hb : body (s.setThread th.val (s.past th.val)) = .ok ((s.setThread th.val (s.past th.val)).violation th.val reason detail insn))
    (hP : ∀ t, Only (.threads :: (counting ++ violating)) s t → P t) :
    Completes c s th.val (s.past th.val) violating (fun t => Violated s t th.val reason ∧ P t) := by
  have hpast := setThread_only s th.val (s.past th.val)
  have hv := ((s.setThread th.val (s.past th.val)).violation_violated th reason detail insn h.runs).from_ hpast (by decide)
  have hk := State.violation_parts (l := counting ++ violating) (Keeps.refl _ (s.setThread th.val (s.past th.val))) rfl th.val reason detail
    insn
  exact completes_effect hc h hb hk (by decide) fun t ht =>
    ⟨hv.only ht (by decide), hP t (((hpast.trans hk.onlyOf).trans ht).mono (by decide))⟩

/-- Settles O21: the format's octets and the frame's record, or the check that a write fails. -/
theorem frameWriteResults : Obligations.FrameWriteResults := by
  unfold Obligations.FrameWriteResults
  intro s th tx bx g unit flat h f a v x u twf size up
  refine ⟨fun hi => ⟨fun hf => ?_, fun hv hf => ?_, fun hf => ?_, fun hv hf => ?_, fun hk hf => ?_⟩,
    fun hi hu => ⟨fun ht hf addOne => ?_, fun ht addOne => ?_⟩⟩
  · exact completes_twf hi rfl hf fun h => absurd h (by decide)
  · exact completes_twf hi rfl hf fun _ => hv
  · exact completes_twf hi rfl hf fun h => absurd h (by decide)
  · exact completes_twf_no_offset hi hv hf
  · exact trapsFromU_twf hi hk hf
  · rw [← boundWire_unit]
    refine completes_bwf hi hu ?_ hf
    rcases ht with ht | ⟨q, ht⟩
    · rw [show (s.br th.val bx.val).tag = .port from ht]
      rfl
    · rw [show (s.br th.val bx.val).tag = .projected q from ht]
      rfl
  · have hs : tagServable (s.br th.val bx.val).tag = false := by
      rcases ht with ht | ht
      · rw [show (s.br th.val bx.val).tag = .program from ht]
        rfl
      · rw [show (s.br th.val bx.val).tag = .datum from ht]
        rfl
    refine completes_violation_only (detail := 0x0E) rfl hi ?_ fun t ht => ht.mem (by decide)
    simp only [br_past, if_neg hu, hs, Bool.not_false, if_true]

end Sys2Proof.Machine
end

section
/-!
The event instructions and their status word (R75, R80, R81, Table 2.1).
-/
namespace Sys2Proof.Machine

/-! ### The status word (R75) -/

theorem statusCode_lt (st : Status) : st.code < 256 := by cases st <;> decide

/-- The fields of a status word whose detail and result fit. -/
theorem statusWord_toNat (st : Status) {detail result : Nat} (hd : detail < 256) (hr : result < 2 ^ 32) :
    (statusWord st detail result).toNat = st.code * 2 ^ 56 + detail * 2 ^ 48 + result := by
  have hc := statusCode_lt st
  rw [statusWord, BitVec.toNat_ofNat, Nat.mod_eq_of_lt hc, Nat.mod_eq_of_lt hd, Nat.mod_eq_of_lt hr, Nat.mod_eq_of_lt (by omega)]

/-- A field of a word, from the word's number. -/
theorem extract_eq_ofNat {w : BitVec 64} {start len x : Nat} (h : w.toNat / 2 ^ start % 2 ^ len = x % 2 ^ len) :
    w.extractLsb' start len = BitVec.ofNat len x := by
  apply BitVec.eq_of_toNat_eq
  rw [BitVec.extractLsb'_toNat, BitVec.toNat_ofNat, Nat.shiftRight_eq_div_pow, h]

theorem statusWord_fields (st : Status) {detail result : Nat} (hd : detail < 256) (hr : result < 2 ^ 32) :
    (statusWord st detail result).extractLsb' 56 8 = BitVec.ofNat 8 st.code ∧
    (statusWord st detail result).extractLsb' 48 8 = BitVec.ofNat 8 detail ∧
    (statusWord st detail result).extractLsb' 32 16 = 0 ∧
    (statusWord st detail result).extractLsb' 0 32 = BitVec.ofNat 32 result := by
  have hw := statusWord_toNat st hd hr
  have hc := statusCode_lt st
  exact ⟨extract_eq_ofNat (by omega), extract_eq_ofNat (by omega), extract_eq_ofNat (x := 0) (by omega), extract_eq_ofNat (by omega)⟩

/-! ### Arming and cancelling (R80) -/

/-- The event that an arm word and an instant name. -/
def earmEvent (w : BitVec 64) (t : TimeVal) : Event := ⟨t, .thread (w.extractLsb' 20 9).toNat, decide ((w.extractLsb' 16 3).toNat = 1)⟩

/-- What an arm word must say for its slot to be tried: a kind and a target that the thread may name, and a free slot of its own. -/
structure EarmReady (s : State) (th : Nat) (w : BitVec 64) : Prop where
  up     : s.d2dUp = true
  kind   : (w.extractLsb' 16 3).toNat ≤ 1
  high   : w.extractLsb' 29 35 = 0
  target : (s.thread th).k = true ∨ coreOf (w.extractLsb' 20 9).toNat = coreOf th
  block  : ownFixed (slotOwner (w.toNat % 65536)) = false
  owner  : s.owns (.thread th) (slotOwner (w.toNat % 65536)) = true
  free   : (s.slot (w.toNat % 65536)).armed = none
  power  : s.gatedCluster (clusterOf (w.extractLsb' 20 9).toNat) = false

theorem EarmReady.past {s : State} {th : Nat} {w : BitVec 64} (h : EarmReady s th w) :
    EarmReady (s.setThread th (s.past th)) th w := by
  obtain ⟨up, kind, high, target, block, owner, free, power⟩ := h
  refine ⟨up, kind, high, ?_, block, ?_, free, power⟩
  · rwa [State.thread_setThread_same]
  · rwa [State.owns_setThread]

theorem slotField_toNat (w : BitVec 64) : (w.extractLsb' 0 16).toNat = w.toNat % 65536 := by
  rw [BitVec.extractLsb'_toNat, Nat.shiftRight_zero]

/-- The arm that a ready arm word comes to. -/
theorem EarmReady.earm_eq {s : State} {th : Nat} {w : BitVec 64} {t : TimeVal} (h : EarmReady s th w) :
    s.earm th w t = s.arm (.thread th) (w.toNat % 65536) (earmEvent w t) (w.getLsbD 19) false := by
  obtain ⟨up, kind, high, target, -⟩ := h
  have hk : ¬ (1 < (w.extractLsb' 16 3).toNat ∨ w.extractLsb' 29 35 ≠ 0) := by
    rintro (hk | hk)
    · omega
    · exact hk high
  have ht : ¬ ((!(s.thread th).k) = true ∧ coreOf (w.extractLsb' 20 9).toNat ≠ coreOf th) := by
    rintro ⟨hk, hc⟩
    rcases target with target | target
    · rw [target] at hk
      cases hk
    · exact hc target
  unfold State.earm
  simp only [up, Bool.not_true, Bool.false_eq_true, if_false, if_neg hk, if_neg ht, slotField_toNat]
  rfl

/-- A ready arm word whose instant has its lead arms the slot. -/
theorem EarmReady.earm_ok {s : State} {th : Nat} {w : BitVec 64} {t : TimeVal} (h : EarmReady s th w)
    (hs : s.tooSoon t armLead = false) : s.earm th w t = (s.armSlot (w.toNat % 65536) (earmEvent w t), .ok) := by
  rw [h.earm_eq]
  obtain ⟨up, kind, high, target, block, owner, free, power⟩ := h
  have hg : s.targetGated (earmEvent w t).target = false := power
  have hs' : s.tooSoon (earmEvent w t).instant armLead = false := hs
  simp only [State.arm, block, owner, free, hg, hs', Bool.not_true, Bool.or_false, Option.isSome_none, Bool.false_eq_true, if_false]

/-- A ready arm word whose instant is too soon is refused, unless its policy fires it. -/
theorem EarmReady.earm_past {s : State} {th : Nat} {w : BitVec 64} {t : TimeVal} (h : EarmReady s th w)
    (hs : s.tooSoon t armLead = true) (hp : w.getLsbD 19 = false) : s.earm th w t = (s.count .DTM_TL_REFUSED, .past) := by
  rw [h.earm_eq]
  obtain ⟨up, kind, high, target, block, owner, free, power⟩ := h
  have hg : s.targetGated (earmEvent w t).target = false := power
  have hs' : s.tooSoon (earmEvent w t).instant armLead = true := hs
  simp only [State.arm, block, owner, free, hg, hs', hp, Bool.not_true, Bool.or_false, Option.isSome_none, Bool.false_eq_true, if_false,
    if_true, false_and]

theorem State.armSlot_only (s : State) (h : Nat) (e : Event) : Keeps (maskOf [.timeline, .regs .datum]) s (s.armSlot h e) :=
  State.armSlot_keeps (Keeps.refl _ s) (by decide) h e

theorem State.slot_armSlot_other (s : State) (h k : Nat) (e : Event) (hk : k ≠ h) : (s.armSlot h e).slot k = s.slot k := by
  unfold State.armSlot
  rw [slot_congr ((State.tlCount_only _).same .timeline (by decide)) k, State.slot_setSlot_other _ _ _ _ hk]

theorem State.slot_freeSlot_gone (s : State) (h : Nat) : ((s.freeSlot h false).slot h).armed = none := by
  unfold State.slot
  rw [State.freeSlot_timeline, SMap.get_set_same]

theorem State.rg_count_same (s : State) (r : Reg) : (s.count r).rg r 0 = s.rg r 0 + 1 := by
  simp [State.count, State.bump]

/-- The lead of Table 2.1 in the units of the Datum's low part. -/
theorem tooSoon_iff (s : State) (t : TimeVal) :
    s.tooSoon t armLead = true ↔ t.count * 2 ^ 24 < s.datum.count56 + 4000 * 2 ^ 56 := by
  have : armLead * 2 ^ 24 = 4000 * 2 ^ 56 := by decide
  rw [State.tooSoon, decide_eq_true_iff, this]

/-- EARM of a slot armed. -/
theorem completes_earm_ok {s : State} {th : Fin 512} {g : Fin 32} {tx : Fin 8} (hi : s.Issues th.val false [g.val, 32 + tx.val])
    (h : EarmReady s th.val (s.gr th.val g.val)) (ht : s.tooSoon (s.tr th.val tx.val) armLead = false) :
    let w := s.gr th.val g.val
    Completes (.earm th g tx) s th.val ((s.past th.val).setG g.val (statusWord .ok 0 0)) [.timeline, .regs .datum] (fun t =>
      (t.slot (w.toNat % 65536)).armed = some (earmEvent w (s.tr th.val tx.val)) ∧
        ∀ k, k ≠ w.toNat % 65536 → t.slot k = s.slot k) := by
  intro w
  refine completes_answer (u := (s.setThread th.val (s.past th.val)).armSlot (w.toNat % 65536) (earmEvent w (s.tr th.val tx.val)))
    rfl hi ?_ ((State.armSlot_only _ _ _).mono (by decide)) (by decide) fun t hu => ?_
  · rw [gr_past, tr_past, h.past.earm_ok ht]
  · have hl := slot_congr (hu.same .timeline (by decide))
    exact ⟨(congrArg Slot.armed (hl _)).trans (State.slot_armSlot_same _ _ _), fun k hk =>
      (hl k).trans (State.slot_armSlot_other _ _ _ _ hk)⟩

/-- EARM of an instant too soon. -/
theorem completes_earm_past {s : State} {th : Fin 512} {g : Fin 32} {tx : Fin 8} (hi : s.Issues th.val false [g.val, 32 + tx.val])
    (h : EarmReady s th.val (s.gr th.val g.val)) (ht : s.tooSoon (s.tr th.val tx.val) armLead = true)
    (hp : (s.gr th.val g.val).getLsbD 19 = false) :
    Completes (.earm th g tx) s th.val ((s.past th.val).setG g.val (statusWord .past 0 0)) [.regs .datum]
      (fun t => t.rg .DTM_TL_REFUSED 0 = s.rg .DTM_TL_REFUSED 0 + 1) := by
  refine completes_answer (u := (s.setThread th.val (s.past th.val)).count .DTM_TL_REFUSED) rfl hi ?_
    (State.bump_keeps (Keeps.refl _ _) (by decide) (by decide) 0) (by decide) fun t hu => ?_
  · rw [gr_past, tr_past, h.past.earm_past ht hp]
  · exact (hu.rg (r := .DTM_TL_REFUSED) (by decide) 0).trans (State.rg_count_same _ _)

/-- ECAN of an event that waits. -/
theorem completes_ecan_armed {s : State} {th : Fin 512} {g : Fin 32} {e : Event} (hi : s.Issues th.val false [g.val])
    (hup : s.d2dUp = true) (hf : ownFixed (slotOwner ((s.gr th.val g.val).toNat % 65536)) = false)
    (ho : s.owns (.thread th.val) (slotOwner ((s.gr th.val g.val).toNat % 65536)) = true)
    (ha : (s.slot ((s.gr th.val g.val).toNat % 65536)).armed = some e)
    (hl : SMap.find s.launches ((s.gr th.val g.val).toNat % 65536) = none) (hr : s.reached e.instant = false) :
    let h := (s.gr th.val g.val).toNat % 65536
    Completes (.ecan th g) s th.val ((s.past th.val).setG g.val (statusWord .cancelled 0 0)) [.timeline, .regs .datum]
      (fun t => (t.slot h).armed = none ∧ ∀ k, k ≠ h → t.slot k = s.slot k) := by
  intro h
  refine completes_answer (u := (s.setThread th.val (s.past th.val)).freeSlot h false) rfl hi ?_
    ((State.freeSlot_only _ _ _).mono (by decide)) (by decide) fun t hu => ?_
  · have ho' : (s.setThread th.val (s.past th.val)).owns (.thread th.val) (slotOwner h) = true := by rwa [State.owns_setThread]
    have he : (s.setThread th.val (s.past th.val)).ecan th.val h = ((s.setThread th.val (s.past th.val)).freeSlot h false, .cancelled) := by
      have hup' : (s.setThread th.val (s.past th.val)).d2dUp = true := hup
      have ha' : ((s.setThread th.val (s.past th.val)).slot h).armed = some e := ha
      have hl' : SMap.find (s.setThread th.val (s.past th.val)).launches h = none := hl
      have hr' : (s.setThread th.val (s.past th.val)).reached e.instant = false := hr
      have hf' : ownFixed (slotOwner h) = false := hf
      simp only [State.ecan, State.cancel, hup', hf', ho', ha', hl', hr', Bool.not_true, Bool.or_false, Bool.false_eq_true, if_false]
    rw [gr_past, he]
  · have hs := slot_congr (hu.same .timeline (by decide))
    exact ⟨(congrArg Slot.armed (hs _)).trans (State.slot_freeSlot_gone _ _), fun k hk =>
      (hs k).trans (State.slot_freeSlot_other _ _ _ _ hk)⟩

/-- ECAN of a slot that is free and whose last event did not fire. -/
theorem completes_ecan_empty {s : State} {th : Fin 512} {g : Fin 32} (hi : s.Issues th.val false [g.val]) (hup : s.d2dUp = true)
    (hf : ownFixed (slotOwner ((s.gr th.val g.val).toNat % 65536)) = false)
    (ho : s.owns (.thread th.val) (slotOwner ((s.gr th.val g.val).toNat % 65536)) = true)
    (ha : (s.slot ((s.gr th.val g.val).toNat % 65536)).armed = none) (hl : (s.slot ((s.gr th.val g.val).toNat % 65536)).last ≠ .fired) :
    Completes (.ecan th g) s th.val ((s.past th.val).setG g.val (statusWord .empty 0 0)) [] (fun _ => True) := by
  refine completes_status rfl hi ?_
  have he : (s.setThread th.val (s.past th.val)).ecan th.val ((s.gr th.val g.val).toNat % 65536) =
      (s.setThread th.val (s.past th.val), .empty) := by
    have hup' : (s.setThread th.val (s.past th.val)).d2dUp = true := hup
    have ha' : ((s.setThread th.val (s.past th.val)).slot ((s.gr th.val g.val).toNat % 65536)).armed = none := ha
    have hl' : ((s.setThread th.val (s.past th.val)).slot ((s.gr th.val g.val).toNat % 65536)).last ≠ .fired := hl
    simp only [State.ecan, State.cancel, hup', hf, State.owns_setThread, ho, ha', if_neg hl', Bool.not_true, Bool.or_false,
      Bool.false_eq_true, if_false]
  rw [gr_past, he]

/-! ### EWAIT (R81) -/

/-- The wait that EWAIT names: its destinations, and the expiry unless bit 16 says there is none. -/
def ewaitRec (td g : Nat) (w : BitVec 64) : WaitRec := ⟨td, g, if w.getLsbD 16 then none else some (w.toNat % 65536)⟩

/-- EWAIT with no notice present. -/
theorem completes_ewait_empty {s : State} {th : Fin 512} {td : Fin 8} {g : Fin 32} (hi : s.Issues th.val false [g.val])
    (hn : (s.thread th.val).notices = []) :
    Completes (.ewait th td g) s th.val { (s.past th.val) with st := .wait, wait := some (ewaitRec td.val g.val (s.gr th.val g.val)) } []
      (fun _ => True) := by
  refine completes_thread rfl hi ?_
  have hp : (s.past th.val).notices = [] := hn
  simp only [State.thread_setThread_same, gr_past, hp]
  rfl

/-- A notice that is no interrupt, returned with no expiry named: the thread's record alone, and the counters. -/
theorem State.returnNotice_plain (s : State) (th : Nat) (r : WaitRec) (n : Notice) (hn : n.kind ≠ .irq) (hr : r.timeout = none) :
    s.returnNotice th r n = (s.setThread th ((s.thread th).returned r n)).noticeEvent th := by
  have hc : s.claimNotice n = (s, n) := if_neg hn
  have hu : s.unwaited th r n = s := by rw [State.unwaited, hc, hr]; rfl
  rw [State.returnNotice_eq, hu, hc]

/-- Completion of an instruction whose own effect counts an event beside what it does to the threads. -/
theorem completes_counted {c : Instr} {s u : State} {th : Nat} {insn : BitVec 32} {kOnly : Bool} {srcs : List Nat} {body : State → Eff}
    {r : Thread} (hc : exec c s = .next (s.issue th insn kOnly srcs body)) (h : s.Issues th kOnly srcs)
    (hb : body (s.setThread th (s.past th)) = .ok u) (hr : u.thread th = r) (ho : ∀ x, x ≠ th → u.thread x = s.thread x)
    (hf : Only (.threads :: counting) s u) : Completes c s th r [] (fun _ => True) := by
  have hi := issue_ok (insn := insn) h hb
  have ht := thread_congr (hi.same .threads (by decide))
  exact ⟨_, hc, (ht th).trans hr, fun x hx => (ht x).trans (ho x hx), trivial, (hf.trans hi).mono (by decide)⟩

/-- An EWAIT's return on the state of the issued instruction: two records set, then the count. -/
theorem noticeReturned_only (s : State) (th : Nat) (q r v : Thread) :
    Only (.threads :: counting) s ((((s.setThread th q).setThread th r).setThread th v).noticeEvent th) :=
  ((((setThread_only s th q).trans (setThread_only _ th r)).trans (setThread_only _ th v)).trans (State.noticeEvent_only _ th).onlyOf).mono
    (by decide)

theorem noticeReturned_thread (s : State) (th x : Nat) (v : Thread) :
    ((s.setThread th v).noticeEvent th).thread x = (s.setThread th v).thread x := (State.noticeEvent_only _ th).thread (by decide) x

/-- EWAIT with a notice present that is no interrupt, and no expiry named. -/
theorem completes_ewait_notice {s : State} {th : Fin 512} {td : Fin 8} {g : Fin 32} {n : Notice} {r : List Notice}
    (hi : s.Issues th.val false [g.val]) (hn : (s.thread th.val).notices = n :: r) (hq : n.kind ≠ .irq)
    (hw : (s.gr th.val g.val).getLsbD 16 = true) :
    Completes (.ewait th td g) s th.val (({ (s.past th.val) with notices := r }).returned ⟨td.val, g.val, none⟩ n) [] (fun _ => True) := by
  refine completes_counted (u := (((s.setThread th.val (s.past th.val)).setThread th.val { (s.past th.val) with notices := r }).setThread
    th.val (({ (s.past th.val) with notices := r }).returned ⟨td.val, g.val, none⟩ n)).noticeEvent th.val) rfl hi ?_ ?_ (fun x hx => ?_)
    (noticeReturned_only _ _ _ _ _)
  · have hp : (s.past th.val).notices = n :: r := hn
    simp only [State.thread_setThread_same, gr_past, hp, hw, if_true]
    rw [State.returnNotice_plain _ _ _ _ hq rfl, State.thread_setThread_same]
  · rw [noticeReturned_thread, State.thread_setThread_same]
  · rw [noticeReturned_thread, State.thread_setThread_other _ _ _ _ hx, State.thread_setThread_other _ _ _ _ hx,
      State.thread_setThread_other _ _ _ _ hx]

/-- Settles O22: each instruction by the branch of its operation that the premises pick. -/
theorem eventInstructionResults : Obligations.EventInstructionResults := by
  unfold Obligations.EventInstructionResults
  refine ⟨fun st detail result => statusWord_fields st, fun s th g td tx => ?_⟩
  intro w at_ h target expiry u
  refine ⟨fun hi up kind high target block owner free power => ?_, fun hi up block owner => ⟨fun e => ?_, ?_⟩,
    fun hi => ⟨completes_ewait_empty hi, fun n r => completes_ewait_notice hi⟩⟩
  · have hready : EarmReady s th.val w := ⟨up, kind, high, target, block, owner, free, power⟩
    refine ⟨fun lead => completes_earm_ok hi hready ?_, fun soon => completes_earm_past hi hready ((tooSoon_iff _ _).mpr soon)⟩
    exact Bool.eq_false_iff.mpr fun hs => absurd ((tooSoon_iff _ _).mp hs) (Nat.not_lt.mpr lead)
  · exact completes_ecan_armed hi up block owner
  · exact completes_ecan_empty hi up block owner

end Sys2Proof.Machine
end

section
/-!
The packet instructions (R82).
-/
namespace Sys2Proof.Machine

/-! ### PADDR, PINFO, PFREE and PTSB -/

/-- A frame's PINFO word, field by field. -/
theorem Frame.info_eq (f : Frame) :
    f.info = BitVec.ofNat 16 f.len ++ (BitVec.ofNat 8 (f.port % 64)) ++ BitVec.ofNat 8 f.cls ++ 0#32 := by
  apply BitVec.eq_of_toNat_eq
  simp only [Frame.info, BitVec.toNat_append, BitVec.toNat_ofNat]
  rw [← Nat.shiftLeft_add_eq_or_of_lt (Nat.mod_lt _ (by decide)), ← Nat.shiftLeft_add_eq_or_of_lt (Nat.mod_lt _ (by decide)),
    ← Nat.shiftLeft_add_eq_or_of_lt (Nat.mod_lt _ (by decide))]
  simp only [Nat.shiftLeft_eq]
  omega

/-- A free value drawn: the count of free values alone. -/
theorem State.fresh_counting (s : State) : Keeps (maskOf counting) s s.fresh.2 := State.fresh_keeps (Keeps.refl _ s) (by decide)

/-- A frame looked up by an issued instruction. -/
theorem frame_past (s : State) (th : Nat) (t : Thread) (h : Nat) : (s.setThread th t).frame h = SMap.find s.frames h := rfl

theorem State.heldFrame_some {s : State} {th h : Nat} {f : Frame} (hf : SMap.find s.frames h = some f) (hh : f.holder = some th)
    (hz : f.frozen = false) : s.heldFrame th h = some f := by
  simp only [State.heldFrame, State.frame, hf, hh, hz, and_self, if_true]

theorem State.heldFrame_unheld {s : State} {th h : Nat} {f : Frame} (hf : SMap.find s.frames h = some f)
    (hh : f.holder ≠ some th ∨ f.frozen = true) : s.heldFrame th h = none := by
  simp only [State.heldFrame, State.frame, hf]
  refine if_neg fun ⟨h1, h2⟩ => ?_
  rcases hh with hh | hh
  · exact hh h1
  · rw [h2] at hh
    cases hh

theorem State.heldFrame_missing {s : State} {th h : Nat} (hf : SMap.find s.frames h = none) : s.heldFrame th h = none := by
  simp only [State.heldFrame, State.frame, hf]

theorem State.heldFrame_setThread (s : State) (n : Nat) (t : Thread) (th h : Nat) :
    (s.setThread n t).heldFrame th h = s.heldFrame th h := rfl

/-- PFREE of a held frame. -/
theorem completes_pfree {s : State} {th : Fin 512} {a : Fin 32} {f : Frame} (hi : s.Issues th.val false [a.val])
    (hf : SMap.find s.frames ((s.gr th.val a.val).toNat % 2 ^ 32) = some f) (hh : f.holder = some th.val) (hz : f.frozen = false) :
    let h := (s.gr th.val a.val).toNat % 2 ^ 32
    Completes (.pfree th a) s th.val (s.past th.val) [.frames]
      (fun t => SMap.find t.frames h = none ∧ ∀ k, k ≠ h → SMap.find t.frames k = SMap.find s.frames k) := by
  intro h
  refine completes_effect (v := (s.setThread th.val (s.past th.val)).freeFrame h) rfl hi ?_
    (State.freeFrame_keeps (Keeps.refl _ _) (by decide) h) (by decide) fun t ht => ?_
  · have hg : s.heldFrame th.val (handleOf (s.gr th.val a.val)) = some f := State.heldFrame_some hf hh hz
    simp only [gr_past, State.heldFrame_setThread, hg]
    rfl
  · have he : t.frames = SMap.erase s.frames h := ht.same .frames (by decide)
    rw [he]
    exact ⟨SMap.find_erase_same _ _, fun k hk => SMap.find_erase_other _ _ _ hk⟩

/-- PFREE of a frame that the thread does not hold. -/
theorem trapsFromU_pfree {s : State} {th : Fin 512} {a : Fin 32} {f : Frame} (hi : s.Issues th.val false [a.val])
    (hf : SMap.find s.frames ((s.gr th.val a.val).toNat % 2 ^ 32) = some f) (hh : f.holder ≠ some th.val ∨ f.frozen = true)
    (hk : (s.thread th.val).k = false) :
    TrapsFromU (.pfree th a) s th.val .access (BitVec.ofNat 64 ((s.gr th.val a.val).toNat % 2 ^ 32)) := by
  refine trapsFromU (e := ⟨.access, _⟩) rfl hi hk ?_
  have hg : s.heldFrame th.val (handleOf (s.gr th.val a.val)) = none := State.heldFrame_unheld hf hh
  simp only [gr_past, State.heldFrame_setThread, hg]
  rfl

/-! ### PALLOC -/

/-- The frame that PALLOC makes: empty of records, held by its thread; its port and its class are free values. -/
def pallocFrame (th len cell : Nat) (x : BitVec 64) : Frame :=
  { cluster := clusterOf th, cell := cell, len := len, holder := some th, frozen := false, port := x.toNat % 64,
    cls := x.toNat / 64 % 256, stamp := .none, stampOk := false, times := [], bounds := [] }

/-- PALLOC where the pool has room. -/
theorem State.palloc_room {s : State} {th len i : Nat} (h0 : 0 < len) (hm : len ≤ 9212)
    (hi : s.findCells (clusterOf th) (cellsOf len) = some i) :
    ∃ t, s.palloc th len = (t, .ok, frameHandle (clusterOf th) i) ∧ Keeps (maskOf (counting ++ [.frames, .prt])) s t ∧
      SMap.find t.frames (frameHandle (clusterOf th) i) = some (pallocFrame th len i s.fresh.1) := by
  have hi' : s.fresh.2.findCells (clusterOf th) (cellsOf len) = some i := hi
  have ha : s.fresh.2.allocFrame (clusterOf th) len (pallocFrame th len 0 s.fresh.1) =
      some (frameHandle (clusterOf th) i, { s.fresh.2.setFrame (frameHandle (clusterOf th) i) (pallocFrame th len i s.fresh.1) with
        prt := { s.prt with sent := SMap.erase s.prt.sent (frameHandle (clusterOf th) i) } }) := by
    simp only [State.allocFrame, hi']
    rfl
  refine ⟨_, ?_, State.allocFrame_keeps (s.fresh_counting.mono (by decide)) (by decide) ha, SMap.find_insert_same _ _ _ _⟩
  simp only [State.palloc, if_neg (Nat.pos_iff_ne_zero.mp h0), if_neg (Nat.not_lt.mpr hm)]
  have ha' := ha
  unfold pallocFrame at ha'
  rw [ha']
  rfl

theorem State.palloc_full {s : State} {th len : Nat} (h0 : 0 < len) (hm : len ≤ 9212)
    (hi : s.findCells (clusterOf th) (cellsOf len) = none) : s.palloc th len = (s, .empty, 0) := by
  have hi' : s.fresh.2.findCells (clusterOf th) (cellsOf len) = none := hi
  simp only [State.palloc, if_neg (Nat.pos_iff_ne_zero.mp h0), if_neg (Nat.not_lt.mpr hm), State.allocFrame, hi']

theorem State.palloc_zero (s : State) (th : Nat) : s.palloc th 0 = (s, .range, 0) := rfl

theorem State.palloc_long {s : State} {th len : Nat} (hm : 9212 < len) : s.palloc th len = (s, .tooLong, 0) := by
  simp only [State.palloc, if_neg (Nat.pos_iff_ne_zero.mp (Nat.zero_lt_of_lt hm)), if_pos hm]

/-- PALLOC that answers without a frame. -/
theorem completes_palloc_none {s : State} {th : Fin 512} {d a : Fin 32} {st : Status} (hi : s.Issues th.val false [a.val])
    (hp : (s.setThread th.val (s.past th.val)).palloc th.val (s.gr th.val a.val).toNat = (s.setThread th.val (s.past th.val), st, 0)) :
    Completes (.palloc th d a) s th.val ((s.past th.val).setG d.val (statusWord st 0 0)) [] (fun _ => True) := by
  refine completes_status rfl hi ?_
  simp only [gr_past, hp]

/-- PALLOC that answers with a frame. -/
theorem completes_palloc_ok {s : State} {th : Fin 512} {d a : Fin 32} {i : Nat} (hi : s.Issues th.val false [a.val])
    (h0 : 0 < (s.gr th.val a.val).toNat) (hm : (s.gr th.val a.val).toNat ≤ 9212)
    (hc : s.findCells (clusterOf th.val) (cellsOf (s.gr th.val a.val).toNat) = some i) :
    Completes (.palloc th d a) s th.val ((s.past th.val).setG d.val (statusWord .ok 0 (frameHandle (clusterOf th.val) i))) [.frames, .prt]
      (fun t => ∃ f, SMap.find t.frames (frameHandle (clusterOf th.val) i) = some f ∧ f.holder = some th.val ∧ f.frozen = false ∧
        f.len = (s.gr th.val a.val).toNat ∧ f.cell = i) := by
  obtain ⟨v, hv, hk, hf⟩ := State.palloc_room (s := s.setThread th.val (s.past th.val)) h0 hm hc
  refine completes_answer (u := v) rfl hi ?_ hk (by decide) fun t ht =>
    ⟨pallocFrame th.val (s.gr th.val a.val).toNat i s.fresh.1, ?_, rfl, rfl, rfl, rfl⟩
  · simp only [gr_past, hv]
  · exact (congrArg (fun m => SMap.find m _) (ht.same .frames (by decide))).trans hf

/-! ### PCOPY -/

/-- The address that a data access of an issued instruction may make. -/
theorem dataAccess_past (s : State) (th : Nat) (k : Bool) (a n : Nat) (write : Bool) :
    (s.setThread th (s.past th)).dataAccess th k a n write = s.dataAccess th k a n write := by
  unfold State.dataAccess
  rw [State.thread_setThread_same]
  rfl

/-- PCOPY of some octets. -/
theorem completes_pcopy {s : State} {th : Fin 512} {d a b : Fin 32} {n x y : Nat} (hi : s.Issues th.val false [d.val, a.val, b.val])
    (hn : Nat.min 4096 ((s.gr th.val d.val).toNat % 8192) = n) (h0 : n ≠ 0)
    (hx : s.dataAccess th.val (s.thread th.val).k (s.gr th.val b.val).toNat n false = some x)
    (hy : s.dataAccess th.val (s.thread th.val).k (s.gr th.val a.val).toNat n true = some y)
    (hp : s.poisonedIn x n = false) (hs : s.mirrorStalls y n = false) :
    Completes (.pcopy th d a b) s th.val (s.past th.val) [.mem, .hst, .mat] (fun t => Stored s t y (s.octets x n)) := by
  refine completes_effect (v := (s.setThread th.val (s.past th.val)).storeData y (s.octets x n)) rfl hi ?_
    (storing_keeps _ _ _ _ _) (by decide) fun t ht => ht.stored (by decide) (stored_past s _ _ _ _)
  have hk : ((s.setThread th.val (s.past th.val)).thread th.val).k = (s.thread th.val).k := by rw [State.thread_setThread_same]; rfl
  have hp' : (s.setThread th.val (s.past th.val)).poisonedIn x n = false := hp
  have hs' : (s.setThread th.val (s.past th.val)).mirrorStalls y n = false := hs
  simp only [gr_past, hn, State.pcopy, if_neg h0, hk, dataAccess_past, hx, hy, hp', hs', octets_setThread, Bool.false_eq_true, if_false]

/-! ### PSEND -/

theorem State.enqueue_prt (s : State) (n frame queue : Nat) (notify : Option Nat) : Keeps (maskOf [.prt]) s (s.enqueue n frame queue notify) :=
  State.setPort_keeps (Keeps.refl _ s) (by decide) n _

/-- A submission accepted: the token taken, the frame frozen and queued. -/
def State.sendAccepted (s : State) (h port queue : Nat) (f : Frame) : State :=
  ((s.takeToken (bucketIdx port queue)).setFrame h { f with frozen := true }).enqueue port h queue none

theorem State.sendAccepted_keeps (s : State) (h port queue : Nat) (f : Frame) :
    Keeps (maskOf [.frames, .prt, .flt]) s (s.sendAccepted h port queue f) :=
  (State.setFrame_keeps (State.takeToken_keeps (Keeps.refl _ s) (by decide) _) (by decide) h _).trans
    ((State.enqueue_prt _ _ _ _ _).mono (by decide))

theorem State.sendAccepted_frame (s : State) (h port queue : Nat) (f : Frame) :
    SMap.find (s.sendAccepted h port queue f).frames h = some { f with frozen := true } := by
  rw [show (s.sendAccepted h port queue f).frames = _ from (State.enqueue_prt _ _ _ _ _).same .frames (by decide)]
  exact SMap.find_insert_same _ _ _ _

/-- A frame that a thread may queue now: held, short enough, its port with a token and a link, its octets not poisoned. -/
structure Sendable (s : State) (th h port queue : Nat) (f : Frame) : Prop where
  held   : s.heldFrame th h = some f
  length : f.len + 4 ≤ s.fd Fld.PRT_MAXFRAME.MAX port
  token  : s.hasToken (port * 8 + queue) = true
  clean  : s.poisonedIn (cmemFlat f.cluster (cellAddr f.cell)) f.len = false
  link   : s.linkUp port = true

theorem Sendable.portSend_ok {s : State} {th h port queue : Nat} {f : Frame} (hs : Sendable s th h port queue f) (hq : queue < 5)
    (insn : BitVec 32) : s.portSend th h port queue false insn = (s.sendAccepted h port queue f, .ok, 0) := by
  obtain ⟨held, length, token, clean, link⟩ := hs
  have hl : ¬ s.fd Fld.PRT_MAXFRAME.MAX port - 4 < f.len := by omega
  have ht : s.hasToken (bucketIdx port queue) = true := token
  unfold State.portSend
  simp only [held, if_neg hl, if_neg (show ¬ queue = 7 by omega), if_neg (show ¬ 5 ≤ queue by omega), ht, clean, link, Bool.not_true,
    Bool.false_and, Bool.false_eq_true, if_false]
  rfl

/-- PSEND of a frame that may be queued. -/
theorem completes_psend {s : State} {th : Fin 512} {d a b : Fin 32} {f : Frame} (hi : s.Issues th.val false [a.val, b.val])
    (hs : Sendable s th.val ((s.gr th.val a.val).toNat % 2 ^ 32) ((s.gr th.val b.val).toNat % 64)
      ((s.gr th.val b.val).extractLsb' 8 3).toNat f)
    (hq : ((s.gr th.val b.val).extractLsb' 8 3).toNat < 5) (ht : (s.gr th.val b.val).getLsbD 11 = false) :
    Completes (.psend th d a b) s th.val ((s.past th.val).setG d.val (statusWord .ok 0 0)) [.frames, .prt, .flt]
      (fun t => SMap.find t.frames ((s.gr th.val a.val).toNat % 2 ^ 32) = some { f with frozen := true }) := by
  obtain ⟨held, length, token, clean, link⟩ := hs
  have hs' : Sendable (s.setThread th.val (s.past th.val)) th.val ((s.gr th.val a.val).toNat % 2 ^ 32) ((s.gr th.val b.val).toNat % 64)
      ((s.gr th.val b.val).extractLsb' 8 3).toNat f := ⟨held, length, token, clean, link⟩
  refine completes_answer (u := (s.setThread th.val (s.past th.val)).sendAccepted ((s.gr th.val a.val).toNat % 2 ^ 32)
    ((s.gr th.val b.val).toNat % 64) ((s.gr th.val b.val).extractLsb' 8 3).toNat f) rfl hi ?_
    ((State.sendAccepted_keeps _ _ _ _ _).mono (by decide)) (by decide) fun t ht => ?_
  · simp only [gr_past, ht]
    rw [show handleOf (s.gr th.val a.val) = (s.gr th.val a.val).toNat % 2 ^ 32 from rfl, hs'.portSend_ok hq]
  · rw [show t.frames = _ from ht.same .frames (by decide)]
    exact State.sendAccepted_frame _ _ _ _ _

/-- PSEND refused without an effect. -/
theorem completes_psend_refused {s : State} {th : Fin 512} {d a b : Fin 32} {st : Status} (hi : s.Issues th.val false [a.val, b.val])
    (hp : ∀ insn, (s.setThread th.val (s.past th.val)).portSend th.val ((s.gr th.val a.val).toNat % 2 ^ 32) ((s.gr th.val b.val).toNat % 64)
      ((s.gr th.val b.val).extractLsb' 8 3).toNat ((s.gr th.val b.val).getLsbD 11) insn = (s.setThread th.val (s.past th.val), st, 0)) :
    Completes (.psend th d a b) s th.val ((s.past th.val).setG d.val (statusWord st 0 0)) [] (fun _ => True) := by
  refine completes_status rfl hi ?_
  simp only [gr_past]
  rw [show handleOf (s.gr th.val a.val) = (s.gr th.val a.val).toNat % 2 ^ 32 from rfl, hp]

theorem State.portSend_missing {s : State} {th h : Nat} (hf : s.heldFrame th h = none) (port queue : Nat) (ts : Bool) (insn : BitVec 32) :
    s.portSend th h port queue ts insn = (s, .notOwner, 0) := by
  unfold State.portSend
  rw [hf]

theorem State.portSend_queue {s : State} {th h queue : Nat} {f : Frame} (hf : s.heldFrame th h = some f) (hq : queue = 7) (port : Nat)
    (ts : Bool) (insn : BitVec 32) : s.portSend th h port queue ts insn = (s, .queue, 0) := by
  unfold State.portSend
  simp only [hf, if_pos hq]

/-- Settles O23: each instruction by the branch of its operation that the premises pick. -/
theorem packetResults : Obligations.PacketResults := by
  unfold Obligations.PacketResults
  refine ⟨fun s th d a bd => ?_, fun s th d a b => ?_⟩
  · intro x h u hi
    have hx : handleOf (s.gr th.val a.val) = h := rfl
    refine ⟨fun f hf => ⟨?_, ?_, completes_pfree hi hf, trapsFromU_pfree hi hf⟩, fun hf => ⟨s.fresh.1, ?_⟩, fun hf => ⟨s.fresh.1, ?_⟩,
      fun h0 hm i => completes_palloc_ok hi h0 hm, fun h0 => completes_palloc_none hi ?_, fun hm => completes_palloc_none hi ?_,
      fun h0 hm hc => completes_palloc_none hi ?_, completes_setBd rfl hi ?_⟩
    · refine completes_setG rfl hi ?_
      simp only [gr_past, hx, frame_past, hf]
    · rw [← Frame.info_eq]
      refine completes_setG rfl hi ?_
      simp only [gr_past, hx, frame_past, hf]
    · refine completes_effect_setG (v := (s.setThread th.val (s.past th.val)).fresh.2) rfl hi ?_ ((State.fresh_counting _).mono (by decide))
        (by decide) (by decide) fun _ _ => trivial
      simp only [gr_past, hx, frame_past, hf]
      rfl
    · refine completes_effect_setG (v := (s.setThread th.val (s.past th.val)).fresh.2) rfl hi ?_ ((State.fresh_counting _).mono (by decide))
        (by decide) (by decide) fun _ _ => trivial
      simp only [gr_past, hx, frame_past, hf]
      rfl
    · rw [show (s.gr th.val a.val).toNat = 0 from h0]
      exact State.palloc_zero _ _
    · exact State.palloc_long hm
    · exact State.palloc_full h0 hm hc
    · simp only [gr_past]
      rfl
  · intro k n src dst h port queue
    refine ⟨fun hi => ⟨fun h0 => ?_, fun x y h0 hx hy => completes_pcopy hi rfl h0 hx hy⟩, fun hi f hf hh hz hq hts hl ht hp hlink =>
      completes_psend hi ⟨State.heldFrame_some hf hh hz, hl, ht, hp, hlink⟩ hq hts,
      fun hi => ⟨fun hf => completes_psend_refused hi fun insn => 
          State.portSend_missing (s := s.setThread th.val (s.past th.val)) (State.heldFrame_missing hf) _ _ _ _,
        fun f hf hh hz hq => completes_psend_refused hi fun insn => 
          State.portSend_queue (s := s.setThread th.val (s.past th.val)) (State.heldFrame_some hf hh hz) hq _ _ _⟩⟩
    refine completes_effect (v := s.setThread th.val (s.past th.val)) rfl hi ?_ (Keeps.refl _ _) (by decide) fun t ht => ?_
    · simp only [gr_past, show Nat.min 4096 ((s.gr th.val d.val).toNat % 8192) = 0 from h0]
      rfl
    · exact ht.mem (by decide)

end Sys2Proof.Machine
end

section
/-!
Launch points and launches (R83, Table 3.15).
-/
namespace Sys2Proof.Machine

/-! ### LGATE -/

/-- An instruction that writes a time register and then a status word. -/
theorem completes_time_status {c : Instr} {s : State} {th d g : Nat} {insn : BitVec 32} {srcs : List Nat} {body : State → Eff}
    {t : TimeVal} {st : Status} (hc : exec c s = .next (s.issue th insn false srcs body)) (h : s.Issues th false srcs)
    (hb : body (s.setThread th (s.past th)) = ((s.setThread th (s.past th)).setT th d t).answer th g st 0 0) :
    Completes c s th (((s.past th).setT d t).setG g (statusWord st 0 0)) [] (fun _ => True) := by
  refine completes_twice (q := (s.past th).setT d t) hc h ?_
  rw [hb, setT_past, State.answer, State.setG, State.thread_setThread_same]

section
variable {s : State} {th : Fin 512} {td tx : Fin 8} {g : Fin 32} (hi : s.Issues th.val false [32 + tx.val, g.val])
include hi

/-- LGATE of a ganged port. -/
theorem completes_lgate_ganged (hg : s.ganged ((s.gr th.val g.val).toNat % 64) = true) :
    Completes (.lgate th td tx g) s th.val (((s.past th.val).setT td.val .zero).setG g.val (statusWord .range 0 0)) [] (fun _ => True) := by
  have hg' : (s.setThread th.val (s.past th.val)).ganged ((s.gr th.val g.val).toNat % 64) = true := hg
  refine completes_time_status rfl hi ?_
  simp only [gr_past, hg', if_true]

/-- LGATE of a port without a link. -/
theorem completes_lgate_lost (hg : s.ganged ((s.gr th.val g.val).toNat % 64) = false)
    (hl : s.linkUp ((s.gr th.val g.val).toNat % 64) = false) :
    Completes (.lgate th td tx g) s th.val (((s.past th.val).setT td.val .zero).setG g.val (statusWord .lost 0 0)) [] (fun _ => True) := by
  have hg' : (s.setThread th.val (s.past th.val)).ganged ((s.gr th.val g.val).toNat % 64) = false := hg
  have hl' : (s.setThread th.val (s.past th.val)).linkUp ((s.gr th.val g.val).toNat % 64) = false := hl
  refine completes_time_status rfl hi ?_
  simp only [gr_past, hg', hl', Bool.false_eq_true, if_false]

/-- LGATE of a port with a launch point. -/
theorem completes_lgate_point {t : TimeVal} (hg : s.ganged ((s.gr th.val g.val).toNat % 64) = false)
    (hl : s.linkUp ((s.gr th.val g.val).toNat % 64) = true)
    (ht : s.launchPoint ((s.gr th.val g.val).toNat % 64) (s.tr th.val tx.val) = some t) :
    Completes (.lgate th td tx g) s th.val (((s.past th.val).setT td.val t).setG g.val (statusWord .ok 0 0)) [] (fun _ => True) := by
  have hg' : (s.setThread th.val (s.past th.val)).ganged ((s.gr th.val g.val).toNat % 64) = false := hg
  have hl' : (s.setThread th.val (s.past th.val)).linkUp ((s.gr th.val g.val).toNat % 64) = true := hl
  have ht' : (s.setThread th.val (s.past th.val)).launchPoint ((s.gr th.val g.val).toNat % 64) (s.tr th.val tx.val) = some t := ht
  refine completes_time_status rfl hi ?_
  simp only [gr_past, tr_past, hg', hl', ht', Bool.false_eq_true, if_false, if_true]

end

/-! ### LSEND -/

/-- A launch that passes the checks of Table 3.15 up to its frame's records: the frame held and short enough, the slot the thread's own and
free, the instant a launch point of a port with a link, the replica sound and the port's gate open. -/
structure Launchable (s : State) (th h slot port : Nat) (tx : TimeVal) (f : Frame) (k : Nat) : Prop where
  held    : s.heldFrame th h = some f
  block   : ownFixed (slotOwner slot) = false
  owner   : s.owns (.thread th) (slotOwner slot) = true
  free    : (s.slot slot).armed = none
  link    : s.linkUp port = true
  ganged  : s.ganged port = false
  index   : s.launchIndex port tx = some k
  point   : lineRound ((s.lineMode port).point (s.port port).phase k) = tx
  length  : f.len + 4 ≤ s.fd Fld.PRT_MAXFRAME.MAX port
  replica : s.replicaOk = true
  gate    : s.gateRefusal port = none

/-- The record of a launch accepted. -/
def State.launchOf (s : State) (th h slot port : Nat) (tx : TimeVal) (k : Nat) : Launch :=
  { thread := th, frame := h, port := port, slot := slot, instant := tx, point := k,
    start := (s.lineMode port).start (s.port port).phase k, since := s.now, lost := false }

/-- A launch accepted: the token taken, the frame frozen, the slot armed, the launch recorded. -/
def State.launchArmed (s : State) (th h slot port : Nat) (tx : TimeVal) (f : Frame) (k : Nat) : State :=
  let s2 := ((s.takeToken (bucketIdx port 7)).setFrame h { f with frozen := true }).armSlot slot
    ⟨TimeVal.ofCount ((s.lineMode port).start (s.port port).phase k / 825), .launch th h port, false⟩
  { s2 with launches := SMap.insert id s2.launches slot (s.launchOf th h slot port tx k) }

/-- A launch that passes those checks comes to the frame's records, the port's token and the lead. -/
theorem Launchable.launchSend_eq {s : State} {th h slot port k : Nat} {tx : TimeVal} {f : Frame}
    (hl : Launchable s th h slot port tx f k) (insn : BitVec 32) :
    s.launchSend th h slot port tx insn =
      if !f.launchOk tx then (s.violation th 0x05 0x0E insn, .damper, 0x0E)
      else if !s.hasToken (bucketIdx port 7) then (s.violation th 0x06 0x0E insn, .damper, 0x0E)
      else if s.tooSoon tx armLead then (s.count .DTM_TL_REFUSED, .past, 0)
      else (s.launchArmed th h slot port tx f k, .ok, 0) := by
  obtain ⟨held, block, owner, free, link, ganged, index, point, length, replica, gate⟩ := hl
  have hlen : ¬ s.fd Fld.PRT_MAXFRAME.MAX port - 4 < f.len := by omega
  have hpt : ¬ lineRound ((s.lineMode port).point (s.port port).phase k) ≠ tx := not_not_intro point
  unfold State.launchSend
  simp only [held, block, owner, free, link, ganged, index, if_neg hpt, if_neg hlen, replica, gate, Bool.not_true, Bool.not_false,
    Bool.or_self, Bool.and_self, Option.isSome_none, Bool.false_eq_true, if_false, if_true]
  rfl

/-- The launches replaced. -/
theorem State.setLaunches_keeps (s : State) (l : SMap Nat Launch) : Keeps (maskOf [.launches]) s { s with launches := l } := by
  refine ⟨rfl, id, id, id, Fuses.Le.refl _, fun p hp => ?_⟩
  cases p <;> first | exact rfl | exact fun _ _ _ => rfl | exact absurd hp (by decide)

theorem State.launchArmed_keeps (s : State) (th h slot port : Nat) (tx : TimeVal) (f : Frame) (k : Nat) :
    Keeps (maskOf [.timeline, .frames, .launches, .flt, .regs .datum]) s (s.launchArmed th h slot port tx f k) := by
  have hk := State.setFrame_keeps (m := maskOf [.frames, .flt]) (State.takeToken_keeps (Keeps.refl _ s) (by decide) (bucketIdx port 7))
    (by decide) h { f with frozen := true }
  exact ((hk.mono (by decide)).trans ((State.armSlot_only _ _ _).mono (by decide))).trans
    ((State.setLaunches_keeps _ _).mono (by decide))

theorem State.launchArmed_frame (s : State) (th h slot port : Nat) (tx : TimeVal) (f : Frame) (k : Nat) :
    SMap.find (s.launchArmed th h slot port tx f k).frames h = some { f with frozen := true } := by
  have hf : (s.launchArmed th h slot port tx f k).frames = SMap.insert id s.frames h { f with frozen := true } :=
    (State.armSlot_only _ _ _).same .frames (by decide)
  rw [hf]
  exact SMap.find_insert_same _ _ _ _

theorem State.launchArmed_slot (s : State) (th h slot port : Nat) (tx : TimeVal) (f : Frame) (k : Nat) :
    ((s.launchArmed th h slot port tx f k).slot slot).armed.isSome = true := by
  have ha := State.slot_armSlot_same ((s.takeToken (bucketIdx port 7)).setFrame h { f with frozen := true }) slot
    ⟨TimeVal.ofCount ((s.lineMode port).start (s.port port).phase k / 825), .launch th h port, false⟩
  exact congrArg Option.isSome ha

theorem State.launchArmed_launch (s : State) (th h slot port : Nat) (tx : TimeVal) (f : Frame) (k : Nat) :
    SMap.find (s.launchArmed th h slot port tx f k).launches slot = some (s.launchOf th h slot port tx k) :=
  SMap.find_insert_same _ _ _ _

section
variable {s : State} {th h slot port k : Nat} {tx : TimeVal} {f : Frame} (hl : Launchable s th h slot port tx f k) (insn : BitVec 32)
include hl

theorem Launchable.launchSend_ok (hr : f.launchOk tx = true) (ht : s.hasToken (bucketIdx port 7) = true)
    (hs : s.tooSoon tx armLead = false) : s.launchSend th h slot port tx insn = (s.launchArmed th h slot port tx f k, .ok, 0) := by
  simp only [hl.launchSend_eq, hr, ht, hs, Bool.not_true, Bool.false_eq_true, if_false]

theorem Launchable.launchSend_past (hr : f.launchOk tx = true) (ht : s.hasToken (bucketIdx port 7) = true)
    (hs : s.tooSoon tx armLead = true) : s.launchSend th h slot port tx insn = (s.count .DTM_TL_REFUSED, .past, 0) := by
  simp only [hl.launchSend_eq, hr, ht, hs, Bool.not_true, Bool.false_eq_true, if_false, if_true]

theorem Launchable.launchSend_records (hr : f.launchOk tx = false) :
    s.launchSend th h slot port tx insn = (s.violation th 0x05 0x0E insn, .damper, 0x0E) := by
  simp only [hl.launchSend_eq, hr, Bool.not_false, if_true]

theorem Launchable.launchSend_token (hr : f.launchOk tx = true) (ht : s.hasToken (bucketIdx port 7) = false) :
    s.launchSend th h slot port tx insn = (s.violation th 0x06 0x0E insn, .damper, 0x0E) := by
  simp only [hl.launchSend_eq, hr, ht, Bool.not_true, Bool.not_false, Bool.false_eq_true, if_false, if_true]

end

/-- The checks of a launch do not look at what issuing its instruction moves. -/
theorem Launchable.past {s : State} {th h slot port k : Nat} {tx : TimeVal} {f : Frame} (hl : Launchable s th h slot port tx f k) :
    Launchable (s.setThread th (s.past th)) th h slot port tx f k := by
  obtain ⟨held, block, owner, free, link, ganged, index, point, length, replica, gate⟩ := hl
  exact ⟨held, block, by rwa [State.owns_setThread], free, link, ganged, index, point, length, replica, gate⟩

/-- The launch word and the instant of an LSEND, taken apart. -/
structure LsendNames (s : State) (th : Fin 512) (g : Fin 32) (tx : Fin 8) (h slot port : Nat) (at_ : TimeVal) : Prop where
  issues  : s.Issues th.val false [g.val, 32 + tx.val]
  handle  : handleOf (s.gr th.val g.val) = h
  slot    : ((s.gr th.val g.val).extractLsb' 32 16).toNat = slot
  port    : ((s.gr th.val g.val).extractLsb' 48 6).toNat = port
  instant : s.tr th.val tx.val = at_

/-- The effect of LSEND, from that of the launch it names. -/
theorem LsendNames.lsend_eq {s v : State} {th : Fin 512} {g : Fin 32} {tx : Fin 8} {h slot port detail : Nat} {at_ : TimeVal} {st : Status}
    {insn : BitVec 32} (hn : LsendNames s th g tx h slot port at_)
    (he : (s.setThread th.val (s.past th.val)).launchSend th.val h slot port at_ insn = (v, st, detail)) :
    let z := s.setThread th.val (s.past th.val)
    z.lsend th.val g.val (z.gr th.val g.val) (z.tr th.val tx.val) insn =
      (if st = .ok then v.insnEvent th.val 0x0F insn else v).answer th.val g.val st detail 0 := by
  obtain ⟨-, rfl, rfl, rfl, rfl⟩ := hn
  intro z
  unfold State.lsend
  rw [show z.gr th.val g.val = s.gr th.val g.val from gr_past s th.val g.val, show z.tr th.val tx.val = s.tr th.val tx.val from
    tr_past s th.val tx.val, he]
  cases st <;> rfl

section
variable {s : State} {th : Fin 512} {g : Fin 32} {tx : Fin 8} {h slot port k : Nat} {at_ : TimeVal} {f : Frame}
  (hn : LsendNames s th g tx h slot port at_) (hl : Launchable s th.val h slot port at_ f k)
include hn hl

/-- LSEND of a launch that passes every check. -/
theorem completes_lsend_ok (hr : f.launchOk at_ = true) (ht : s.hasToken (bucketIdx port 7) = true) (hs : s.tooSoon at_ armLead = false) :
    Completes (.lsend th g tx) s th.val ((s.past th.val).setG g.val (statusWord .ok 0 0)) [.timeline, .frames, .launches, .flt, .regs .datum]
      (fun t => SMap.find t.frames h = some { f with frozen := true } ∧ (t.slot slot).armed.isSome ∧
        ∃ l, SMap.find t.launches slot = some l ∧ l.thread = th.val ∧ l.frame = h ∧ l.port = port ∧ l.instant = at_ ∧ l.lost = false) := by
  have hsend := hl.past.launchSend_ok (encT 0x15 0 tx.val 0 g.val 1 0) hr ht hs
  have hk := (s.setThread th.val (s.past th.val)).launchArmed_keeps th.val h slot port at_ f k
  have hframe := (s.setThread th.val (s.past th.val)).launchArmed_frame th.val h slot port at_ f k
  have hslot := (s.setThread th.val (s.past th.val)).launchArmed_slot th.val h slot port at_ f k
  have hlaunch := (s.setThread th.val (s.past th.val)).launchArmed_launch th.val h slot port at_ f k
  generalize (s.setThread th.val (s.past th.val)).launchArmed th.val h slot port at_ f k = v at hsend hk hframe hslot hlaunch
  have hcount : Keeps (maskOf counting) v (v.insnEvent th.val 0x0F (encT 0x15 0 tx.val 0 g.val 1 0)) :=
    State.insnEvent_keeps (Keeps.refl _ v) (by decide) _ _ _
  refine completes_answer rfl hn.issues (hn.lsend_eq hsend) ((hk.mono (by decide)).trans (hcount.mono (by decide))) (by decide)
    fun t ho => ?_
  have hv : Only (.threads :: counting) v t := (hcount.onlyOf.trans ho).mono (by decide)
  refine ⟨?_, ?_, (s.setThread th.val (s.past th.val)).launchOf th.val h slot port at_ k, ?_, rfl, rfl, rfl, rfl, rfl⟩
  · rwa [show t.frames = v.frames from hv.same .frames (by decide)]
  · rwa [slot_congr (hv.same .timeline (by decide))]
  · rwa [show t.launches = v.launches from hv.same .launches (by decide)]

/-- LSEND of an instant too soon. -/
theorem completes_lsend_past (hr : f.launchOk at_ = true) (ht : s.hasToken (bucketIdx port 7) = true) (hs : s.tooSoon at_ armLead = true)
    (hf : SMap.find s.frames h = some f) :
    Completes (.lsend th g tx) s th.val ((s.past th.val).setG g.val (statusWord .past 0 0)) [.regs .datum]
      (fun t => SMap.find t.frames h = some f) := by
  have hk : Keeps (maskOf [.regs .datum]) (s.setThread th.val (s.past th.val)) ((s.setThread th.val (s.past th.val)).count .DTM_TL_REFUSED) :=
    State.bump_keeps (Keeps.refl _ _) (by decide) (by decide) 0
  refine completes_answer rfl hn.issues (hn.lsend_eq (hl.past.launchSend_past _ hr ht hs)) (hk.mono (by decide)) (by decide) fun t ho => ?_
  exact (congrArg (fun m => SMap.find m h) ((ho.same .frames (by decide)).trans (hk.same .frames (by decide)))).trans hf

omit hl in
/-- LSEND that the Damper refuses, with the frame as it was. -/
theorem completes_lsend_damper {reason : Nat}
    (hs : ∀ insn, (s.setThread th.val (s.past th.val)).launchSend th.val h slot port at_ insn =
      ((s.setThread th.val (s.past th.val)).violation th.val reason 0x0E insn, .damper, 0x0E)) (hf : SMap.find s.frames h = some f) :
    Completes (.lsend th g tx) s th.val ((s.past th.val).setG g.val (statusWord .damper 0x0E 0)) violating
      (fun t => Violated s t th.val reason ∧ SMap.find t.frames h = some f) := by
  refine completes_violation rfl hn.issues (hn.lsend_eq (hs _)) (Keeps.refl _ _) fun t ho => ?_
  rwa [show t.frames = s.frames from ho.same .frames (by decide)]

end

/-- Settles O24: LGATE by its port, LSEND by the outcome of the checks that are left. -/
theorem launchResults : Obligations.LaunchResults := by
  unfold Obligations.LaunchResults
  refine ⟨fun s th td tx g hi => ?_, fun s th g tx f k => ?_⟩
  · intro port gives
    exact ⟨fun hg => completes_lgate_ganged hi hg, fun hg hl => completes_lgate_lost hi hg hl,
      fun hg hl t ht => completes_lgate_point hi hg hl ht⟩
  · intro w at_ h slot port u hi hf hh hz hblock howner hfree hlink hgang hindex hpoint hlen hrep hgate
    have hn : LsendNames s th g tx h slot port at_ := ⟨hi, rfl, rfl, rfl, rfl⟩
    have hl : Launchable s th.val h slot port at_ f k :=
      ⟨State.heldFrame_some hf hh hz, hblock, howner, hfree, hlink, hgang, hindex, hpoint, hlen, hrep, hgate⟩
    exact ⟨fun hr ht hs => completes_lsend_ok hn hl hr ht hs, fun hr ht hs => completes_lsend_past hn hl hr ht hs hf,
      fun hr => completes_lsend_damper hn (fun insn => hl.past.launchSend_records insn hr) hf,
      fun hr ht => completes_lsend_damper hn (fun insn => hl.past.launchSend_token insn hr ht) hf⟩

end Sys2Proof.Machine
end

section
/-!
Crypto jobs and derived keys (R84, R275).
-/
namespace Sys2Proof.Machine

/-! ### Lanes -/

theorem laneJobs_congr {s t : State} (h : t.jobs = s.jobs) (c : Nat) : t.laneJobs c = s.laneJobs c :=
  congrArg (fun m => SMap.get (fun _ => []) m c) h

theorem State.laneJobs_setJobs (s : State) (c : Nat) (js : List CryptoJob) : (s.setJobs c js).laneJobs c = js :=
  SMap.get_set_same _ _ _ _ _

/-- A lane with a job that runs starts none. -/
theorem State.laneStart_running {s : State} {c : Nat} (h : (s.laneJobs c).any (fun j => j.got.isSome) = true) : s.laneStart c = s := by
  simp only [State.laneStart, h, if_true]

/-- A lane with one job that waits starts it. -/
theorem State.laneStart_single {s : State} {c : Nat} {j : CryptoJob} (h : s.laneJobs c = [j]) (hw : j.got = none) :
    s.laneStart c = s.setJobs c [{ j with got := some (s.jobKey c j) }] := by
  cases he : j.event with
  | true => simp [State.laneStart, h, hw, he]
  | false => simp [State.laneStart, h, hw, he]

/-- Starting a job moves it within its lane. -/
theorem State.laneStart_length (s : State) (c : Nat) : ((s.laneStart c).laneJobs c).length = (s.laneJobs c).length := by
  unfold State.laneStart
  dsimp only
  split
  · rfl
  · split
    · next j _ _ hf =>
      have hj := List.mem_of_find?_eq_some hf
      rw [State.laneJobs_setJobs, List.length_cons, List.length_erase_of_mem hj]
      have := List.length_pos_of_mem hj
      omega
    · next hjs => rw [State.laneJobs_setJobs, hjs, List.length_cons, List.length_cons]
    · rfl

theorem State.laneStart_only (s : State) (c : Nat) : Keeps (maskOf [.jobs]) s (s.laneStart c) :=
  State.laneStart_keeps (Keeps.refl _ s) (by decide) c

/-! ### CSUB -/

/-- An instruction that changes its thread's record, has an effect that leaves the threads alone, then writes a status word. -/
theorem completes_record_answer {c : Instr} {s v : State} {th d : Nat} {q : Thread} {insn : BitVec 32} {srcs : List Nat}
    {body : State → Eff} {l : List Part} {P : State → Prop} {st : Status} (hc : exec c s = .next (s.issue th insn false srcs body))
    (h : s.Issues th false srcs) (hb : body (s.setThread th (s.past th)) = v.answer th d st 0 0)
    (hv : Keeps (maskOf (counting ++ l)) ((s.setThread th (s.past th)).setThread th q) v) (hl : Part.threads ∉ counting ++ l)
    (hP : ∀ t, Only (.threads :: counting) v t → P t) : Completes c s th (q.setG d (statusWord st 0 0)) l P := by
  have ho := hv.onlyOf
  have hth : ∀ x, v.thread x = ((s.setThread th (s.past th)).setThread th q).thread x := thread_congr (ho.same .threads hl)
  have hself : v.thread th = q := (hth th).trans (State.thread_setThread_same _ _ _)
  have hset := setThread_only v th (q.setG d (statusWord st 0 0))
  have hb' : body (s.setThread th (s.past th)) = .ok (v.setThread th (q.setG d (statusWord st 0 0))) := by
    rw [hb, State.answer, State.setG, hself]
  have hpast := (setThread_only s th (s.past th)).trans (setThread_only _ th q)
  obtain ⟨t, ht, hr, hx, hp, hf⟩ := completes (l := counting ++ l) (P := P) hc h hb' (State.thread_setThread_same _ _ _)
    (fun x hx => by simp only [State.thread_setThread_other _ _ _ _ hx, hth])
    (fun t hi => hP t ((hset.trans hi).mono (by decide))) (((hpast.trans ho).trans hset).mono fun p hp => by
      simp only [List.mem_append, List.mem_cons, List.not_mem_nil, or_false] at hp ⊢
      tauto)
  exact ⟨t, ht, hr, hx, hp, hf.mono fun p hp => by
    simp only [List.mem_append, List.mem_cons] at hp ⊢
    tauto⟩

/-- A job at the end of a lane's, started where the lane is idle. -/
def State.submitted (s : State) (c : Nat) (j : CryptoJob) : State := (s.setJobs c (s.laneJobs c ++ [j])).laneStart c

theorem State.submitted_keeps (s : State) (c : Nat) (j : CryptoJob) : Keeps (maskOf [.jobs]) s (s.submitted c j) :=
  State.laneStart_keeps (State.setJobs_keeps (Keeps.refl _ s) (by decide) _ _) (by decide) _

theorem State.submitted_running {s : State} {c : Nat} (j : CryptoJob) (h : (s.laneJobs c).any (fun j => j.got.isSome) = true) :
    (s.submitted c j).laneJobs c = s.laneJobs c ++ [j] := by
  have hr : ((s.setJobs c (s.laneJobs c ++ [j])).laneJobs c).any (fun j => j.got.isSome) = true := by
    rw [State.laneJobs_setJobs, List.any_append, h, Bool.true_or]
  rw [State.submitted, State.laneStart_running hr, State.laneJobs_setJobs]

theorem State.submitted_idle {s : State} {c : Nat} {j : CryptoJob} (h : s.laneJobs c = []) (hw : j.got = none) :
    (s.submitted c j).laneJobs c = [{ j with got := some (s.jobKey c j) }] := by
  have hj : (s.setJobs c (s.laneJobs c ++ [j])).laneJobs c = [j] := by rw [State.laneJobs_setJobs, h, List.nil_append]
  rw [State.submitted, State.laneStart_single hj hw, State.laneJobs_setJobs]
  rfl

/-- A descriptor with its octets sound. -/
structure DescAt (s : State) (flat : Nat) : Prop where
  clean : s.poisonedIn flat 64 = false
  codes : descOk (s.octets flat 64) = true

theorem DescAt.submit_busy {s : State} {th flat : Nat} (hd : DescAt s flat) (event : Bool) (hf : (s.thread th).hasFree = false) :
    s.submit th flat event = (s, .busy) := by
  obtain ⟨clean, codes⟩ := hd
  simp only [State.submit, clean, codes, hf, Bool.not_true, Bool.not_false, Bool.false_eq_true, if_false, if_true]

theorem DescAt.submit_ok {s : State} {th flat : Nat} (hd : DescAt s flat) (event : Bool) (hf : (s.thread th).hasFree = true) :
    s.submit th flat event =
      ((s.setThread th { (s.thread th) with reserved := (s.thread th).reserved + 1 }).submitted (clusterOf th)
        (jobOf th (s.thread th).k event (s.octets flat 64)), .ok) := by
  obtain ⟨clean, codes⟩ := hd
  simp only [State.submit, clean, codes, hf, Bool.not_true, Bool.false_eq_true, if_false]
  rfl

theorem cmemRead_past (s : State) (th a n : Nat) : (s.setThread th (s.past th)).cmemRead th a n = s.cmemRead th a n := by
  unfold State.cmemRead
  rw [State.thread_setThread_same, dataAccess_past]
  rfl

theorem DescAt.past {s : State} {flat : Nat} (hd : DescAt s flat) (th : Nat) (r : Thread) : DescAt (s.setThread th r) flat := by
  obtain ⟨clean, codes⟩ := hd
  exact ⟨clean, by rwa [octets_setThread]⟩

/-- CSUB that answers BUSY. -/
theorem completes_csub_busy {s : State} {th : Fin 512} {d a b : Fin 32} {flat : Nat} (hi : s.Issues th.val false [a.val, b.val])
    (hx : s.cmemRead th.val (s.gr th.val a.val).toNat 64 = some flat) (hd : DescAt s flat) (hf : (s.thread th.val).hasFree = false) :
    Completes (.csub th d a b) s th.val ((s.past th.val).setG d.val (statusWord .busy 0 0)) [] (fun _ => True) := by
  refine completes_status rfl hi ?_
  have hf' : ((s.setThread th.val (s.past th.val)).thread th.val).hasFree = false := by
    rw [State.thread_setThread_same]
    exact hf
  simp only [gr_past, cmemRead_past, hx, (hd.past th.val (s.past th.val)).submit_busy _ hf']
  rfl

/-- The state in which a CSUB submits its job: past the instruction, with one more notice entry reserved. -/
def State.reserving (s : State) (th : Nat) : State :=
  (s.setThread th (s.past th)).setThread th { (s.past th) with reserved := (s.thread th).reserved + 1 }

/-- CSUB of a sound descriptor by a thread with room for its notice. -/
theorem completes_csub_ok {s : State} {th : Fin 512} {d a b : Fin 32} {flat : Nat} {js : List CryptoJob}
    (hi : s.Issues th.val false [a.val, b.val])
    (hx : s.cmemRead th.val (s.gr th.val a.val).toNat 64 = some flat) (hd : DescAt s flat) (hf : (s.thread th.val).hasFree = true)
    (hj : ((s.reserving th.val).submitted (clusterOf th.val)
      (jobOf th.val (s.thread th.val).k ((s.gr th.val b.val).getLsbD 0) (s.octets flat 64))).laneJobs (clusterOf th.val) = js) :
    Completes (.csub th d a b) s th.val
      (({ (s.past th.val) with reserved := (s.thread th.val).reserved + 1 }).setG d.val (statusWord .ok 0 0)) [.jobs]
      (fun t => t.laneJobs (clusterOf th.val) = js) := by
  have hv := (s.reserving th.val).submitted_keeps (clusterOf th.val)
    (jobOf th.val (s.thread th.val).k ((s.gr th.val b.val).getLsbD 0) (s.octets flat 64))
  have hsub := (hd.past th.val (s.past th.val)).submit_ok (th := th.val) ((s.gr th.val b.val).getLsbD 0)
    (by rw [State.thread_setThread_same]; exact hf)
  rw [State.thread_setThread_same, octets_setThread] at hsub
  change _ = ((s.reserving th.val).submitted (clusterOf th.val)
    (jobOf th.val (s.thread th.val).k ((s.gr th.val b.val).getLsbD 0) (s.octets flat 64)), Status.ok) at hsub
  generalize (s.reserving th.val).submitted (clusterOf th.val)
    (jobOf th.val (s.thread th.val).k ((s.gr th.val b.val).getLsbD 0) (s.octets flat 64)) = v at hv hsub hj
  have hcount : Keeps (maskOf counting) v (v.insnEvent th.val 0x0D (encA 0x16 d.val a.val b.val 0 0)) :=
    State.insnEvent_keeps (Keeps.refl _ v) (by decide) _ _ _
  refine completes_record_answer rfl hi ?_ ((hv.mono (by decide)).trans (hcount.mono (by decide))) (by decide) fun t ho => ?_
  · simp only [gr_past, cmemRead_past, hx, hsub, if_true]
  · exact (laneJobs_congr ((hcount.onlyOf.trans ho).same .jobs (by decide)) _).trans hj

/-! ### CDRV and CREL -/

/-- The context that CDRV reads: none of its octets for length 0. -/
def State.ctxRead (s : State) (th a n : Nat) : Option Nat := if n = 0 then some 0 else s.cmemRead th a n

theorem ctxRead_past (s : State) (th a n : Nat) : (s.setThread th (s.past th)).ctxRead th a n = s.ctxRead th a n := by
  unfold State.ctxRead
  rw [cmemRead_past]

/-- What CDRV names: the octets of its context, found and sound. -/
structure CdrvNames (s : State) (th : Fin 512) (a b : Fin 32) (n flat : Nat) : Prop where
  issues : s.Issues th.val false [a.val, b.val]
  length : ((s.gr th.val a.val).extractLsb' 16 8).toNat = n
  short  : n ≤ 64
  read   : s.ctxRead th.val (s.gr th.val b.val).toNat n = some flat
  clean  : s.poisonedIn flat n = false

/-- The answer of CDRV, from the derivation. -/
theorem CdrvNames.body_eq {s v : State} {th : Fin 512} {d a b : Fin 32} {n flat x : Nat} {st : Status} (hn : CdrvNames s th a b n flat)
    (he : (s.setThread th.val (s.past th.val)).derive th.val ((s.gr th.val a.val).toNat % 64) (s.octets flat n)
      (encA 0x16 d.val a.val b.val 1 0) = (v, st, x)) :
    ∃ body, exec (.cdrv th d a b) s = .next (s.issue th.val (encA 0x16 d.val a.val b.val 1 0) false [a.val, b.val] body) ∧
      body (s.setThread th.val (s.past th.val)) =
        v.answer th.val d.val st (if st = .damper then 0x0E else 0) (if st = .ok then x else 0) := by
  obtain ⟨-, rfl, short, read, clean⟩ := hn
  refine ⟨_, rfl, ?_⟩
  have hr := (ctxRead_past s th.val (s.gr th.val b.val).toNat ((s.gr th.val a.val).extractLsb' 16 8).toNat).trans read
  unfold State.ctxRead at hr
  have hc : (s.setThread th.val (s.past th.val)).poisonedIn flat ((s.gr th.val a.val).extractLsb' 16 8).toNat = false := clean
  simp only [gr_past, if_neg (Nat.not_lt.mpr short), hr, hc, octets_setThread, he, Bool.false_eq_true, if_false]

/-- A derived key held under a number. -/
def State.holdKey (s : State) (k : Nat) (d : DerivedKey) : State := { s with derived := SMap.insert id s.derived k d }

/-- The lowest free handle of a lane holds the derived key. -/
theorem State.derive_free {s : State} {th slot i : Nat} {ctx : List Byte} {r : KeyRec} (insn : BitVec 32) (hr : s.slotKey slot = some r)
    (ha : r.attr = 4) (hm : r.dmode = 1)
    (hf : (List.range laneHandles).find? (fun i => (SMap.find s.derived (clusterOf th * laneHandles + i)).isNone) = some i) :
    s.derive th slot ctx insn =
      (s.holdKey (clusterOf th * laneHandles + i) ⟨th, slot, laneKdf r ctx, s.fd Fld.KEY_HGEN.GEN⟩, .ok, s.handleWord i) := by
  have hd : s.addDerived (clusterOf th) th slot (laneKdf r ctx) =
      (s.holdKey (clusterOf th * laneHandles + i) ⟨th, slot, laneKdf r ctx, s.fd Fld.KEY_HGEN.GEN⟩, .ok, s.handleWord i) := by
    unfold State.addDerived
    rw [hf]
    rfl
  unfold State.derive
  rw [hr]
  dsimp only
  rw [if_neg (not_not_intro ha), if_pos hm, hd]

theorem State.derive_refused {s : State} {th slot : Nat} {ctx : List Byte} {r : KeyRec} (insn : BitVec 32) (hr : s.slotKey slot = some r)
    (ha : r.attr ≠ 4) : s.derive th slot ctx insn = (s.violation th 0x09 0x0E insn, .damper, 0) := by
  simp only [State.derive, hr, if_pos ha]

/-- The derived keys replaced. -/
theorem State.setDerived_keeps (s : State) (l : SMap Nat DerivedKey) : Keeps (maskOf [.derived]) s { s with derived := l } := by
  refine ⟨rfl, id, id, id, Fuses.Le.refl _, fun p hp => ?_⟩
  cases p <;> first | exact rfl | exact fun _ _ _ => rfl | exact absurd hp (by decide)

/-- CDRV from a DERIVE_ONLY slot of mode 1. -/
theorem completes_cdrv {s : State} {th : Fin 512} {d a b : Fin 32} {n flat i : Nat} {r : KeyRec} (hn : CdrvNames s th a b n flat)
    (hr : s.slotKey ((s.gr th.val a.val).toNat % 64) = some r) (ha : r.attr = 4) (hm : r.dmode = 1)
    (hf : (List.range laneHandles).find? (fun i => (SMap.find s.derived (clusterOf th.val * laneHandles + i)).isNone) = some i) :
    Completes (.cdrv th d a b) s th.val ((s.past th.val).setG d.val (statusWord .ok 0 (s.handleWord i))) [.derived]
      (fun t => SMap.find t.derived (clusterOf th.val * laneHandles + i) =
        some ⟨th.val, (s.gr th.val a.val).toNat % 64, laneKdf r (s.octets flat n), s.fd Fld.KEY_HGEN.GEN⟩) := by
  obtain ⟨body, hc, hb⟩ := hn.body_eq (d := d)
    (State.derive_free (s := s.setThread th.val (s.past th.val)) (encA 0x16 d.val a.val b.val 1 0) hr ha hm hf)
  refine completes_answer hc hn.issues hb ((State.setDerived_keeps _ _).mono (by decide)) (by decide) fun t ho => ?_
  exact (congrArg (fun m => SMap.find m _) (ho.same .derived (by decide))).trans (SMap.find_insert_same _ _ _ _)

/-- CDRV from a slot that derives nothing. -/
theorem completes_cdrv_refused {s : State} {th : Fin 512} {d a b : Fin 32} {n flat : Nat} {r : KeyRec} (hn : CdrvNames s th a b n flat)
    (hr : s.slotKey ((s.gr th.val a.val).toNat % 64) = some r) (ha : r.attr ≠ 4) :
    Completes (.cdrv th d a b) s th.val ((s.past th.val).setG d.val (statusWord .damper 0x0E 0)) violating
      (fun t => Violated s t th.val 9 ∧ t.derived = s.derived) := by
  obtain ⟨body, hc, hb⟩ := hn.body_eq (d := d)
    (State.derive_refused (s := s.setThread th.val (s.past th.val)) (encA 0x16 d.val a.val b.val 1 0) hr ha)
  exact completes_violation hc hn.issues hb (Keeps.refl _ _) fun t ho => ho.same .derived (by decide)

/-- The derived keys after a release by handle. -/
theorem State.release_find {s : State} {c h : Nat} (hg : h / 4096 = s.fd Fld.KEY_HGEN.GEN) :
    SMap.find (s.release_ c h).derived (c * laneHandles + h % 4096) = none ∧
      ∀ k, k ≠ c * laneHandles + h % 4096 → SMap.find (s.release_ c h).derived k = SMap.find s.derived k := by
  unfold State.release_ State.derivedKey
  rw [if_pos hg]
  split
  · exact ⟨SMap.find_erase_same _ _, fun k hk => SMap.find_erase_other _ _ _ hk⟩
  · next hnone => exact ⟨hnone, fun _ _ => rfl⟩

theorem State.release_stale {s : State} {c h : Nat} (hg : h / 4096 ≠ s.fd Fld.KEY_HGEN.GEN) : s.release_ c h = s := by
  unfold State.release_ State.derivedKey
  rw [if_neg hg]

/-- CREL, by what the release leaves of the derived keys. -/
theorem completes_crel {s v : State} {th : Fin 512} {a : Fin 32} {l : List Part} {P : State → Prop} (hi : s.Issues th.val false [a.val])
    (hv : (s.setThread th.val (s.past th.val)).release_ (clusterOf th.val) ((s.gr th.val a.val).toNat % 2 ^ 32) = v)
    (hk : Keeps (maskOf (counting ++ l)) (s.setThread th.val (s.past th.val)) v) (hl : Part.threads ∉ counting ++ l)
    (hP : ∀ t, Only (.threads :: counting) v t → P t) : Completes (.crel th a) s th.val (s.past th.val) l P := by
  refine completes_effect rfl hi ?_ hk hl hP
  simp only [gr_past]
  rw [← hv]
  rfl

/-! ### The end of a job -/

/-- A lane without the job that ran, and the end counted. -/
def State.jobTaken (s : State) (c : Nat) (j : CryptoJob) : State :=
  (s.setJobs c ((s.laneJobs c).erase j)).pmcCluster c (if j.event then 0x42 else 0x43) none

/-- What a job comes to, by what its key came to. -/
def State.jobEnd (s : State) (j : CryptoJob) : State × Status :=
  match j.got with
  | some (.ok, key) => s.jobRun j key
  | some (.damper, _) => (s.violation j.thread 0x09 0x0E 0, .damper)
  | some (st, _) => (s, st)
  | none => (s, .ok)

/-- The chained send of a job that succeeded. -/
def State.jobChained (s : State) (j : CryptoJob) (st : Status) : State × Status :=
  if st = .ok ∧ j.chain then
    let w := j.chainW.toNat
    let r := s.portSend j.thread (w % 2 ^ 32) (bitsOf w 37 32) (bitsOf w 42 40) false 0
    (r.1, r.2.1)
  else (s, st)

/-- A job's result and its chained send. -/
def State.jobResulted (s : State) (j : CryptoJob) : State × Status := (s.jobEnd j).1.jobChained j (s.jobEnd j).2

theorem State.jobDone_eq {s : State} {c : Nat} {j : CryptoJob} (h : (s.laneJobs c).find? (fun j => j.got.isSome) = some j) :
    s.jobDone c = (((s.jobTaken c j).jobResulted j).1.jobNotice j ((s.jobTaken c j).jobResulted j).2).laneStart c := by
  unfold State.jobDone
  rw [h]
  rfl

/-- Every part but the lanes' jobs. -/
def exceptJobs : Nat := 0xFFFFFFFFFFFFEFFF

theorem State.jobResulted_keeps (s : State) (j : CryptoJob) : Keeps exceptJobs s (s.jobResulted j).1 := by
  have he : Keeps exceptJobs s (s.jobEnd j).1 := by
    unfold State.jobEnd
    split
    · exact State.jobRun_keeps (Keeps.refl _ s) (by decide) j _
    · exact State.violation_keeps (Keeps.refl _ s) (by decide) _ _ _ _
    · exact Keeps.refl _ s
    · exact Keeps.refl _ s
  unfold State.jobResulted State.jobChained
  split
  · exact State.portSend_keeps he (by decide) _ _ _ _ _ _
  · exact he

/-- A job that ended leaves its lane with one job fewer. -/
theorem State.jobDone_length {s : State} {c : Nat} {j : CryptoJob} (h : (s.laneJobs c).find? (fun j => j.got.isSome) = some j) :
    ((s.jobDone c).laneJobs c).length + 1 = (s.laneJobs c).length := by
  have hj := List.mem_of_find?_eq_some h
  have htaken : (s.jobTaken c j).laneJobs c = (s.laneJobs c).erase j :=
    (laneJobs_congr ((State.pmcCluster_keeps (Keeps.refl (maskOf counting) _) (by decide) c _ none).same .jobs (by decide)) c).trans
      (State.laneJobs_setJobs _ _ _)
  have hrest : (((s.jobTaken c j).jobResulted j).1.jobNotice j ((s.jobTaken c j).jobResulted j).2).laneJobs c =
      (s.jobTaken c j).laneJobs c :=
    laneJobs_congr ((State.jobNotice_keeps ((s.jobTaken c j).jobResulted_keeps j) (by decide) j _).same .jobs (by decide)) c
  have hpos := List.length_pos_of_mem hj
  rw [State.jobDone_eq h, State.laneStart_length, hrest, htaken, List.length_erase_of_mem hj]
  omega

/-- A job whose key was refused comes to that status, and nothing else happens. -/
theorem State.jobResulted_refused {s : State} {j : CryptoJob} {st : Status} {key : List Byte} (hg : j.got = some (st, key)) (ho : st ≠ .ok)
    (hd : st ≠ .damper) : s.jobResulted j = (s, st) := by
  have he : s.jobEnd j = (s, st) := by
    unfold State.jobEnd
    rw [hg]
    cases st with
    | ok => exact absurd rfl ho
    | damper => exact absurd rfl hd
    | _ => rfl
  unfold State.jobResulted
  rw [he]
  exact if_neg fun h => ho h.1

/-- The CRYPTO notice of a job at the Datum of the present tick. -/
def State.cryptoNotice (s : State) (j : CryptoJob) (st : Status) : Notice := s.mkNotice .crypto st.code j.jobTag.toNat s.now 5 j.thread

/-- The record of a thread to which the notice of its job is delivered. -/
def Thread.notified (t : Thread) (n : Notice) : Thread := { t with reserved := t.reserved - 1, notices := insertNotice n t.notices }

theorem State.jobNotice_ready {s : State} {j : CryptoJob} (st : Status) (hn : j.notify = true) (hr : (s.thread j.thread).st = .ready) :
    s.jobNotice j st = (s.unreserve j.thread).setThread j.thread
      ((s.thread j.thread).notified ((s.unreserve j.thread).cryptoNotice j st)) := by
  have hu : (s.unreserve j.thread).thread j.thread = { (s.thread j.thread) with reserved := (s.thread j.thread).reserved - 1 } :=
    State.thread_setThread_same _ _ _
  unfold State.jobNotice
  rw [if_pos hn]
  dsimp only
  rw [State.notify_ready (by rw [hu]; exact hr), hu]
  rfl

theorem insertNotice_length (n : Notice) (l : List Notice) : (insertNotice n l).length = l.length + 1 := by
  induction l with
  | nil => rfl
  | cons h r ih =>
    unfold insertNotice
    split
    · rfl
    · rw [List.length_cons, ih, List.length_cons]

theorem mem_insertNotice (n : Notice) (l : List Notice) : n ∈ insertNotice n l := by
  induction l with
  | nil => exact List.mem_singleton_self n
  | cons h r ih =>
    unfold insertNotice
    split
    · exact List.mem_cons_self
    · exact List.mem_cons_of_mem _ ih

/-- What the end of a job whose key was refused does (R84). -/
theorem State.jobDone_refused {s : State} {c : Nat} {j : CryptoJob} {st : Status} {key : List Byte}
    (h : (s.laneJobs c).find? (fun j => j.got.isSome) = some j) (hg : j.got = some (st, key)) (ho : st ≠ .ok) (hd : st ≠ .damper)
    (hn : j.notify = true) (hr : (s.thread j.thread).st = .ready) :
    (∃ n : Notice, n.kind = .crypto ∧ n.status = st.code ∧ n.handle = BitVec.ofNat 32 j.jobTag.toNat ∧
      (s.jobDone c).thread j.thread = (s.thread j.thread).notified n) ∧
      (∀ x, x ≠ j.thread → (s.jobDone c).thread x = s.thread x) ∧ Only (.threads :: .jobs :: counting) s (s.jobDone c) := by
  have htaken : Keeps (maskOf (.jobs :: counting)) s (s.jobTaken c j) :=
    State.pmcCluster_keeps (State.setJobs_keeps (Keeps.refl _ s) (by decide) _ _) (by decide) _ _ _
  have hth : ∀ x, (s.jobTaken c j).thread x = s.thread x := htaken.thread (by decide)
  rw [State.jobDone_eq h, State.jobResulted_refused hg ho hd, State.jobNotice_ready st hn (by rw [hth]; exact hr), hth]
  generalize s.jobTaken c j = z at htaken hth
  let n := (z.unreserve j.thread).cryptoNotice j st
  let v := (z.unreserve j.thread).setThread j.thread ((s.thread j.thread).notified n)
  have hstart := (State.laneStart_only v c).onlyOf
  have hx : ∀ x, (v.laneStart c).thread x = v.thread x := thread_congr (hstart.same .threads (by decide))
  refine ⟨⟨n, rfl, rfl, rfl, (hx _).trans (State.thread_setThread_same _ _ _)⟩, fun x hn => ?_, ?_⟩
  · refine (hx x).trans ((State.thread_setThread_other _ _ _ _ hn).trans ((State.thread_setThread_other _ _ _ _ hn).trans (hth x)))
  · exact (((htaken.onlyOf.trans (setThread_only z j.thread _)).trans (setThread_only _ j.thread _)).trans hstart).mono (by decide)

/-- Settles O25: CSUB by its lane, CDRV by its slot, CREL by the handle's generation; the end of a job by its lane and its notice. -/
theorem cryptoResults : Obligations.CryptoResults := by
  unfold Obligations.CryptoResults
  refine ⟨fun s th d a b flat => ?_, fun s lane j hup hj => ?_⟩
  · intro x c t u e
    refine ⟨fun hi hx hp hc => ?_, fun hi hp hflat r hr => ?_, fun hi => ?_⟩
    · have hd : DescAt s flat := ⟨hp, hc⟩
      refine ⟨fun hf hany => ?_, fun hf hempty => ?_, completes_csub_busy hi hx hd⟩
      · exact completes_csub_ok hi hx hd hf (State.submitted_running (s := s.reserving th.val) _ hany)
      · obtain ⟨v, hv, hr, ho, hP, hk⟩ := completes_csub_ok (d := d) hi hx hd hf (State.submitted_idle (s := s.reserving th.val) hempty rfl)
        exact ⟨v, hv, hr, ho, ⟨_, hP, rfl, rfl, rfl, rfl⟩, hk⟩
    · have hn : CdrvNames s th a b (x.extractLsb' 16 8).toNat flat := by
        refine ⟨hi, rfl, ?_, ?_, hp⟩
        · omega
        · rcases hflat with ⟨h0, rfl⟩ | ⟨h0, -, hread⟩
          · rw [State.ctxRead, if_pos h0]
          · rw [State.ctxRead, if_neg (Nat.pos_iff_ne_zero.mp h0), hread]
      exact ⟨fun ha hm i hf => completes_cdrv hn hr ha hm hf, fun ha => completes_cdrv_refused hn hr ha⟩
    · intro h
      refine ⟨fun hg => ?_, fun hg => ?_⟩
      · refine completes_crel hi rfl (State.release__keeps (Keeps.refl _ _) (by decide) _ _) (by decide) fun t ht => ?_
        rw [show t.derived = _ from ht.same .derived (by decide)]
        exact State.release_find (s := s.setThread th.val (s.past th.val)) hg
      · exact completes_crel hi (State.release_stale (s := s.setThread th.val (s.past th.val)) hg) (Keeps.refl _ _) (by decide) fun _ _ => trivial
  · refine ⟨s.jobDone lane.val, ?_, State.jobDone_length hj, fun st key hg ho hd hn hr => ?_⟩
    · exact (congrArg (fun t => (.next t : Out)) (if_pos hup))
    · obtain ⟨⟨n, hkind, hstatus, hhandle, hthread⟩, hother, honly⟩ := State.jobDone_refused hj hg ho hd hn hr
      refine ⟨honly.mem (by decide), ?_, ?_, ⟨n, ?_, hkind, hstatus, hhandle⟩, hother, honly⟩
      · rw [hthread]
        rfl
      · rw [hthread]
        exact insertNotice_length _ _
      · rw [hthread]
        exact mem_insertNotice _ _

end Sys2Proof.Machine
end

section
/-!
Threads aborted and restarted (R86, R87).
-/
namespace Sys2Proof.Machine

/-! ### One abort -/

/-- The threads that an abort cleans up: those that are READY, WAIT or HALTED. -/
def Thread.Running (t : Thread) : Prop := t.st = .ready ∨ t.st = .wait ∨ t.st = .halted

/-- What a cleanup leaves of an aborted thread: ABORTED, with no notice, no reserved entry and no wait. -/
def Thread.Gone (t : Thread) : Prop := t.st = .aborted ∧ t.notices = [] ∧ t.reserved = 0 ∧ t.wait = none

theorem Thread.cleaned_gone (t : Thread) : (t.cleaned .aborted).Gone := ⟨rfl, rfl, rfl, rfl⟩

/-- A cleanup with its thread marked DONE in STK_ABORT. -/
def State.abortDone (s : State) (th : Nat) : State :=
  let u := s.cleanupThread th .aborted
  u.wr .STK_ABORT (coreOf th) (u.rg .STK_ABORT (coreOf th) ||| BitVec.ofNat 32 (2 ^ (4 + th % 4)))

theorem State.abortThread_running {s : State} {th : Nat} (h : (s.thread th).Running) : s.abortThread th = s.abortDone th := by
  unfold State.abortThread
  rcases h with h | h | h <;> rw [h] <;> rfl

theorem State.abortThread_still {s : State} {th : Nat} (h : ¬ (s.thread th).Running) : s.abortThread th = s := by
  unfold State.abortThread
  cases hst : (s.thread th).st with
  | aborted => rfl
  | faulted => rfl
  | idle => rfl
  | ready => exact absurd (.inl hst) h
  | wait => exact absurd (.inr (.inl hst)) h
  | halted => exact absurd (.inr (.inr hst)) h

theorem State.abortDone_self (s : State) (th : Nat) : (s.abortDone th).thread th = (s.thread th).cleaned .aborted := by
  have h := s.cleanupThread_self th .aborted
  unfold State.abortDone
  generalize s.cleanupThread th .aborted = u at h
  exact (State.thread_wr _ _ _ _ _).trans h

/-- A register of a core beside STK_ABORT, and STK_ABORT itself, do not change in a cleanup. -/
theorem State.cleanupThread_stoker (s : State) (th : Nat) (final : ThreadSt) (i : Nat) :
    (s.cleanupThread th final).rg .STK_ABORT i = s.rg .STK_ABORT i :=
  (State.cleanupThread_keeps (Keeps.refl (maskOf (.threads :: cleaning)) s) (by decide) th final).rg (by decide) i

/-- The DONE bit of an aborted thread, and the bits that stood. -/
theorem State.abortDone_bits (s : State) (th i : Nat) (h : i = 4 + th % 4 ∨ bitAt (s.rg .STK_ABORT (coreOf th)).toNat i = true) :
    bitAt ((s.abortDone th).rg .STK_ABORT (coreOf th)).toNat i = true := by
  have hlt : th % 4 < 4 := Nat.mod_lt _ (by decide)
  have hpow : 2 ^ (4 + th % 4) < 2 ^ 32 := Nat.pow_lt_pow_right (by decide) (by omega)
  unfold State.abortDone
  dsimp only
  rw [State.rg_wr_same, State.cleanupThread_stoker, BitVec.toNat_or, BitVec.toNat_ofNat, Nat.mod_eq_of_lt hpow]
  unfold bitAt at h ⊢
  rw [Nat.testBit_or]
  rcases h with rfl | h
  · rw [Nat.testBit_two_pow_self, Bool.or_true]
  · rw [h, Bool.true_or]

theorem State.abortThread_bits (s : State) (th k i : Nat) (h : bitAt (s.rg .STK_ABORT k).toNat i = true) :
    bitAt ((s.abortThread th).rg .STK_ABORT k).toNat i = true := by
  by_cases hr : (s.thread th).Running
  · rw [State.abortThread_running hr]
    by_cases hk : coreOf th = k
    · subst hk
      exact s.abortDone_bits th i (.inr h)
    · unfold State.abortDone
      dsimp only
      rwa [State.rg_wr_other _ _ _ _ _ _ (.inr hk), State.cleanupThread_stoker]
  · rwa [State.abortThread_still hr]

/-! ### The threads of a core, one after another -/

/-- A thread that a write of STK_ABORT aborted: gone, and its DONE bit set. -/
def State.AbortedAt (s : State) (n j : Nat) : Prop :=
  (s.thread (4 * n + j)).Gone ∧ bitAt (s.rg .STK_ABORT n).toNat (4 + j) = true

/-- One thread of a core aborted, if the word written names it. -/
def State.abortNamed (s : State) (n : Nat) (v : BitVec 32) (j : Nat) : State := if bitAt v.toNat j then s.abortThread (4 * n + j) else s

theorem State.abortNamed_aborts {s : State} {n j : Nat} {v : BitVec 32} (hj : j < 4) (hv : bitAt v.toNat j = true)
    (h : s.AbortedAt n j ∨ (s.thread (4 * n + j)).Running) : (s.abortNamed n v j).AbortedAt n j := by
  have hc : coreOf (4 * n + j) = n := by
    unfold coreOf
    omega
  rw [State.abortNamed, if_pos hv]
  by_cases hr : (s.thread (4 * n + j)).Running
  · have hb := s.abortDone_bits (4 * n + j) (4 + j) (.inl (by omega))
    rw [hc] at hb
    rw [State.abortThread_running hr]
    refine ⟨?_, hb⟩
    rw [State.abortDone_self]
    exact Thread.cleaned_gone _
  · rw [State.abortThread_still hr]
    exact h.resolve_right hr

theorem State.abortNamed_other {s : State} {n i : Nat} {v : BitVec 32} {x : Nat} (h : x ≠ 4 * n + i) :
    (s.abortNamed n v i).thread x = s.thread x := by
  unfold State.abortNamed
  split
  · exact s.abortThread_other _ _ h
  · rfl

theorem State.abortNamed_stays {s : State} {n i j : Nat} {v : BitVec 32} (hij : j ≠ i) (h : s.AbortedAt n j) :
    (s.abortNamed n v i).AbortedAt n j := by
  obtain ⟨gone, done⟩ := h
  refine ⟨?_, ?_⟩
  · rwa [State.abortNamed_other (by omega)]
  · unfold State.abortNamed
    split
    · exact s.abortThread_bits _ _ _ done
    · exact done

/-- A named thread that runs is aborted by the end of the list it stands in. -/
theorem foldl_abortNamed {n j : Nat} {v : BitVec 32} (hj : j < 4) (hv : bitAt v.toNat j = true) (l : List Nat) : ∀ s : State,
    s.AbortedAt n j ∨ (j ∈ l ∧ (s.thread (4 * n + j)).Running) → (l.foldl (fun s i => s.abortNamed n v i) s).AbortedAt n j := by
  induction l with
  | nil =>
    rintro s (h | ⟨h, -⟩)
    · exact h
    · exact absurd h List.not_mem_nil
  | cons i r ih =>
    intro s h
    refine ih _ ?_
    by_cases hi : j = i
    · subst hi
      exact .inl (State.abortNamed_aborts hj hv (h.imp id And.right))
    · refine h.imp (State.abortNamed_stays hi) fun ⟨hm, hr⟩ => ⟨(List.mem_cons.1 hm).resolve_left hi, ?_⟩
      rwa [State.abortNamed_other (by omega)]

/-- A thread that the word does not name, or that is of another core, is left alone by an operation that reaches the named ones only. -/
theorem foldl_named_other {n x : Nat} {v : BitVec 32} {f : State → Nat → State}
    (hf : ∀ s j, bitAt v.toNat j = false ∨ x ≠ 4 * n + j → (f s j).thread x = s.thread x)
    (h : coreOf x ≠ n ∨ bitAt v.toNat (x % 4) = false) (s : State) :
    ((List.range 4).foldl f s).thread x = s.thread x := by
  refine List.foldlRecOn (motive := fun t : State => t.thread x = s.thread x) _ _ rfl fun t ht j hj => ?_
  have hlt : j < 4 := List.mem_range.1 hj
  refine (hf t j ?_).trans ht
  by_cases hx : x = 4 * n + j
  · rcases h with h | h
    · exact absurd (by rw [hx, coreOf]; omega) h
    · left
      rwa [show x % 4 = j by omega] at h
  · exact .inr hx

theorem State.abortNamed_unnamed {s : State} {n j x : Nat} {v : BitVec 32} (h : bitAt v.toNat j = false ∨ x ≠ 4 * n + j) :
    (s.abortNamed n v j).thread x = s.thread x := by
  rcases h with h | h
  · rw [State.abortNamed, if_neg (by rw [h]; decide)]
  · exact State.abortNamed_other h

/-! ### One restart -/

/-- A thread that a restart starts: ABORTED or FAULTED. -/
def Thread.Stopped (t : Thread) : Prop := t.st = .aborted ∨ t.st = .faulted

/-- The entry of a thread in its core's image. -/
def State.entryOf (s : State) (th : Nat) : Option (BitVec 64 × Bool) :=
  (s.image (coreOf th)).bind (fun x => x.entries.getD (th % 4) none)

/-- A thread's record started at an entry. -/
def Thread.started (t : Thread) (e : BitVec 64 × Bool) : Thread := { t with st := .ready, pc := e.1, k := e.2 }

theorem State.restartThread_stopped {s : State} {th : Nat} {e : BitVec 64 × Bool} (he : s.entryOf th = some e)
    (h : (s.thread th).Stopped) : s.restartThread th = some (s.setThread th ((s.thread th).started e)) := by
  unfold State.entryOf at he
  unfold State.restartThread
  dsimp only
  rw [he]
  rcases h with h | h <;> rw [h] <;> rfl

theorem State.restartThread_refused {s : State} {th : Nat} (h : s.entryOf th = none ∨ ¬ (s.thread th).Stopped) :
    s.restartThread th = none := by
  unfold State.entryOf at h
  unfold State.restartThread
  dsimp only
  rcases h with h | h
  · rw [h]
    cases (s.thread th).st <;> rfl
  · cases hst : (s.thread th).st with
    | aborted => exact absurd (.inl hst) h
    | faulted => exact absurd (.inr hst) h
    | _ => rfl

/-- One thread of a core restarted, if the word written names it and it can start. -/
def State.restartNamed (s : State) (n : Nat) (v : BitVec 32) (j : Nat) : State :=
  if bitAt v.toNat j then (s.restartThread (4 * n + j)).getD s else s

/-- A restart replaces one thread's record, or does nothing. -/
theorem State.restartNamed_cases (s : State) (n : Nat) (v : BitVec 32) (j : Nat) :
    s.restartNamed n v j = s ∨ ∃ t, s.restartNamed n v j = s.setThread (4 * n + j) t := by
  unfold State.restartNamed
  split
  · by_cases h : (s.thread (4 * n + j)).Stopped
    · cases he : s.entryOf (4 * n + j) with
      | none =>
        left
        rw [State.restartThread_refused (.inl he)]
        rfl
      | some e =>
        right
        rw [State.restartThread_stopped he h]
        exact ⟨_, rfl⟩
    · left
      rw [State.restartThread_refused (.inr h)]
      rfl
  · exact .inl rfl

theorem State.restartNamed_other {s : State} {n j x : Nat} {v : BitVec 32} (h : bitAt v.toNat j = false ∨ x ≠ 4 * n + j) :
    (s.restartNamed n v j).thread x = s.thread x := by
  rcases h with h | h
  · rw [State.restartNamed, if_neg (by rw [h]; decide)]
  · rcases s.restartNamed_cases n v j with hs | ⟨t, hs⟩
    · rw [hs]
    · rw [hs, State.thread_setThread_other _ _ _ _ h]

theorem State.restartNamed_entryOf (s : State) (n : Nat) (v : BitVec 32) (j th : Nat) :
    (s.restartNamed n v j).entryOf th = s.entryOf th := by
  rcases s.restartNamed_cases n v j with hs | ⟨t, hs⟩
  · rw [hs]
  · rw [hs]
    rfl

theorem State.restartNamed_starts {s : State} {n j : Nat} {v : BitVec 32} {e : BitVec 64 × Bool} {t : Thread} (hv : bitAt v.toNat j = true)
    (he : s.entryOf (4 * n + j) = some e) (ht : t.Stopped)
    (h : s.thread (4 * n + j) = t.started e ∨ s.thread (4 * n + j) = t) : (s.restartNamed n v j).thread (4 * n + j) = t.started e := by
  rw [State.restartNamed, if_pos hv]
  rcases h with h | h
  · have hr : ¬ (s.thread (4 * n + j)).Stopped := by
      rw [h]
      rintro (h | h) <;> cases h
    rw [State.restartThread_refused (.inr hr)]
    exact h
  · rw [State.restartThread_stopped he (by rw [h]; exact ht), Option.getD_some, State.thread_setThread_same, h]

/-- A named thread that is stopped is started by the end of the list it stands in. -/
theorem foldl_restartNamed {n j : Nat} {v : BitVec 32} {e : BitVec 64 × Bool} {t : Thread} (hv : bitAt v.toNat j = true) (ht : t.Stopped)
    (l : List Nat) : ∀ s : State, s.entryOf (4 * n + j) = some e →
      s.thread (4 * n + j) = t.started e ∨ (j ∈ l ∧ s.thread (4 * n + j) = t) →
        (l.foldl (fun s i => s.restartNamed n v i) s).thread (4 * n + j) = t.started e := by
  induction l with
  | nil =>
    rintro s he (h | ⟨h, -⟩)
    · exact h
    · exact absurd h List.not_mem_nil
  | cons i r ih =>
    intro s he h
    refine ih _ ((s.restartNamed_entryOf n v i _).trans he) ?_
    by_cases hi : j = i
    · subst hi
      exact .inl (State.restartNamed_starts hv he ht (h.imp id And.right))
    · have hx : 4 * n + j ≠ 4 * n + i := by omega
      rw [State.restartNamed_other (.inr hx)]
      exact h.imp id fun ⟨hm, hs⟩ => ⟨(List.mem_cons.1 hm).resolve_left hi, hs⟩

/-! ### The writes of a core's registers -/

theorem State.applyWrite_stk (s : State) {r : Reg} (i : Nat) (v : BitVec 32) (h0 : 0x600000 ≤ r.row.base) (h1 : r.row.base < 0x700000) :
    s.applyWrite .hostReg r i v = s.stkWrite r i v := by
  have hlow : ∀ n, n ≤ 0x600000 → ¬ r.row.base < n := fun n hn => Nat.not_lt.2 (hn.trans h0)
  unfold State.applyWrite
  simp only [reduceCtorEq, if_false, hlow 0x10000 (by decide), hlow 0x20000 (by decide), hlow 0x30000 (by decide), hlow 0x40000 (by decide),
    hlow 0x50000 (by decide), hlow 0x60000 (by decide), hlow 0x70000 (by decide), hlow 0x80000 (by decide), hlow 0x100000 (by decide),
    hlow 0x110000 (by decide), hlow 0x120000 (by decide), hlow 0x130000 (by decide), hlow 0x140000 (by decide), hlow 0x200000 (by decide),
    hlow 0x400000 (by decide), hlow 0x500000 (by decide), hlow 0x600000 (by decide), h1, if_true]

theorem hostRow_abort {s : State} {n : Nat} (h : s.Takes .STK_ABORT n) (v : BitVec 32) :
    s.hostRow .STK_ABORT n v = (List.range 4).foldl (fun s j => s.abortNamed n v j) (s.w1c .STK_ABORT n v) := by
  rw [hostRow_takes v h, entered_plain rfl (by decide), State.applyWrite_stk _ _ _ (by decide) (by decide)]
  rfl

theorem hostRow_restart {s : State} {n : Nat} (h : s.Takes .STK_RESTART n) (v : BitVec 32) :
    s.hostRow .STK_RESTART n v = (List.range 4).foldl (fun s j => s.restartNamed n v j) s := by
  rw [hostRow_takes v h, entered_plain rfl (by decide), State.applyWrite_stk _ _ _ (by decide) (by decide)]
  rfl

/-- The parts that aborting threads reaches. -/
def aborting : List Part := [.timeline, .threads, .frames, .launches, .jobs, .derived, .irq, .dtm, .regs .own, .regs .irqStat, .regs .datum,
  .regs .stoker]

/-- STK_ABORT written. -/
theorem stkAbort_does {s : State} {core : Fin 128} (h : s.Takes .STK_ABORT core.val) (v : BitVec 32) :
    Does (.stkAbortGo core v) s aborting (fun t =>
      (∀ j, j < 4 → v.getLsbD j = true → (s.thread (4 * core.val + j)).Running → t.AbortedAt core.val j) ∧
        ∀ x, (coreOf x ≠ core.val ∨ v.getLsbD (x % 4) = false) → t.thread x = s.thread x) := by
  refine does_of_keeps (congrArg Host.Outcome.next (hostRow_abort h v)) ?_ ⟨fun j hj hv hr => ?_, fun x hx => ?_⟩
  · refine keeps_foldl (State.w1c_keeps (Keeps.refl _ s) (Nat.zero_and _) (by decide) _ _) fun u j hu => ?_
    exact keeps_ite (State.abortThread_keeps hu (by decide) _) hu
  · exact foldl_abortNamed hj hv (List.range 4) _ (.inr ⟨List.mem_range.2 hj, hr⟩)
  · exact foldl_named_other (fun _ _ => State.abortNamed_unnamed) hx (s.w1c .STK_ABORT core.val v)

/-- STK_RESTART written. -/
theorem stkRestart_does {s : State} {core : Fin 128} (h : s.Takes .STK_RESTART core.val) (v : BitVec 32) :
    Does (.stkRestartGo core v) s [.threads] (fun t =>
      (∀ j e, j < 4 → v.getLsbD j = true → s.entryOf (4 * core.val + j) = some e → (s.thread (4 * core.val + j)).Stopped →
        t.thread (4 * core.val + j) = (s.thread (4 * core.val + j)).started e) ∧
        ∀ x, (coreOf x ≠ core.val ∨ v.getLsbD (x % 4) = false) → t.thread x = s.thread x) := by
  refine does_of_keeps (congrArg Host.Outcome.next (hostRow_restart h v)) ?_ ⟨fun j e hj hv he hr => ?_, fun x hx => ?_⟩
  · refine keeps_foldl (Keeps.refl _ s) fun u j hu => ?_
    rcases u.restartNamed_cases core.val v j with hs | ⟨t, hs⟩
    · rwa [hs]
    · rw [hs]
      exact State.setThread_keeps hu (by decide) _ t
  · exact foldl_restartNamed hv hr (List.range 4) s he (.inr ⟨List.mem_range.2 hj, rfl⟩)
  · exact foldl_named_other (fun _ _ => State.restartNamed_other) hx s

end Sys2Proof.Machine
end

section
/-!
The commands of threads and images: what an abort leaves of ownership and of the writer role, and what a loaded image leaves of its core
(R86 to R88).
-/
namespace Sys2Proof.Machine

/-! ### Ownership after a cleanup (R34, R87) -/

theorem State.owns_of_orphan {s : State} {k : Nat} (p : Party) (h : s.fb Fld.TOP_OWN.ORPHAN k = true) : s.owns p k = false := by
  unfold State.owns
  cases p <;> simp [h]

theorem State.orphanOwn_unowned {s : State} {p : Party} {i k : Nat} (h : s.owns p k = false) : (s.orphanOwn p i).owns p k = false := by
  by_cases hik : i = k
  · subst hik
    unfold State.orphanOwn
    rw [if_neg (by rw [h, Bool.and_false]; decide)]
    exact h
  · exact (owns_congr k (s.orphanOwn_other p hik) p).trans h

/-- A party that orphans its entries owns none but the fixed ones. -/
theorem State.orphan_disowns (s : State) (p : Party) {k : Nat} (hk : k < 384) (hf : ownFixed k = false) : (s.orphan p).owns p k = false := by
  cases ho : s.owns p k with
  | true => exact State.owns_of_orphan p (State.orphan_orphans hk hf ho)
  | false =>
    rw [State.orphan_eq]
    exact List.foldlRecOn (motive := fun t : State => t.owns p k = false) _ _ ho fun _ ht _ _ => State.orphanOwn_unowned ht

theorem ownValid_lt {i : Nat} (h : ownValid i = true) : i < 384 := by
  have := of_decide_eq_true h
  omega

theorem State.cutOwned_disowns (s : State) (th : Nat) {k : Nat} (hk : k < 384) (hf : ownFixed k = false) :
    (s.cutOwned th).owns (.thread th) k = false := by
  have h := s.orphan_disowns (.thread th) hk hf
  unfold State.cutOwned
  split
  · exact (owns_congr k ((State.endWriter_keeps (Keeps.refl (maskOf [.dtm, .regs .datum]) (s.orphan (.thread th))) (by decide)).rg
      (r := .TOP_OWN) (by decide) k) _).trans h
  · exact h

/-- The state of a cleanup before ownership. -/
def State.cutRest (s : State) (th : Nat) (final : ThreadSt) : State :=
  (((((s.repend (s.thread th).notices).setThread th ((s.thread th).cleaned final)).cutSecrets th).withdrawEvents
    (fun tg => decide (tg = .thread th))).cutLaunches th).cutFrames th

theorem State.cleanupThread_owned (s : State) (th : Nat) (final : ThreadSt) :
    s.cleanupThread th final = (s.cutRest th final).cutOwned th := s.cleanupThread_eq th final

theorem State.cutLaunches_only (s : State) (th : Nat) : Keeps (maskOf [.timeline, .frames, .launches, .regs .datum]) s (s.cutLaunches th) :=
  keeps_foldl (Keeps.refl _ s) fun _ _ hu =>
    keeps_ite (State.freeFrame_keeps (State.dropLaunch_keeps hu (by decide) _) (by decide) _) hu

/-- The Datum block's own state before ownership is that of the start. -/
theorem State.cutRest_dtm (s : State) (th : Nat) (final : ThreadSt) : (s.cutRest th final).dtm = s.dtm := by
  have h1 : (s.repend (s.thread th).notices).dtm = s.dtm :=
    (State.repend_keeps (Keeps.refl (maskOf [.irq, .regs .irqStat]) s) (by decide) _).same .dtm (by decide)
  have h2 : ∀ (u : State) (f : EvTarget → Bool), (u.withdrawEvents f).dtm = u.dtm := fun u f =>
    (State.withdrawEvents_keeps (Keeps.refl (maskOf [.timeline, .regs .datum]) u) (by decide) f).same .dtm (by decide)
  have h3 : ∀ u : State, (u.cutLaunches th).dtm = u.dtm := fun u => (u.cutLaunches_only th).same .dtm (by decide)
  exact (h3 _).trans ((h2 _ _).trans h1)

theorem State.cutOwned_writer {s : State} {th : Nat} (h : s.dtm.writer = some th) : (s.cutOwned th).dtm.writer = none := by
  have ho : (s.orphan (.thread th)).dtm.writer = some th := by
    rw [(State.orphan_keeps (Keeps.refl (maskOf [.regs .own]) s) (by decide) (.thread th)).same .dtm (by decide), h]
  rw [State.cutOwned, if_pos ho]
  rfl

/-- What a THREAD_ABORT leaves: the thread gone, the other threads as they were, its entries orphaned, its writer role ended. -/
structure AbortLeaves (s t : State) (th : Nat) : Prop where
  gone   : (t.thread th).Gone
  others : ∀ x, x ≠ th → t.thread x = s.thread x
  owned  : ∀ i, ownValid i = true → ownFixed i = false → t.owns (.thread th) i = false
  writer : s.dtm.writer = some th → t.dtm.writer = none

theorem State.abortDone_leaves (s : State) (th : Nat) : AbortLeaves s (s.abortDone th) th := by
  have hc := s.cleanupThread_owned th .aborted
  have hself := s.abortDone_self th
  refine ⟨?_, fun x hx => ?_, fun i hi hf => ?_, fun hw => ?_⟩
  · rw [hself]
    exact Thread.cleaned_gone _
  · exact (State.thread_wr _ _ _ _ _).trans (s.cleanupThread_other th x .aborted hx)
  · refine (owns_congr i (State.rg_wr_other _ _ _ _ _ _ (.inl (by decide))) _).trans ?_
    rw [hc]
    exact State.cutOwned_disowns _ th (ownValid_lt hi) hf
  · refine (congrArg DtmState.writer ((State.wr_keeps (Keeps.refl (maskOf [.regs .stoker]) _) .STK_ABORT (by decide) _ _).same .dtm
      (by decide))).trans ?_
    rw [hc]
    exact State.cutOwned_writer (by rw [State.cutRest_dtm, hw])

theorem AbortLeaves.only {s t u : State} {th : Nat} {l : List Part} (h : AbortLeaves s t th) (ho : Only l t u)
    (hl : Part.threads ∉ l ∧ Part.dtm ∉ l ∧ Part.regs .own ∉ l) : AbortLeaves s u th := by
  obtain ⟨gone, others, owned, writer⟩ := h
  obtain ⟨h1, h2, h3⟩ := hl
  have ht := thread_congr (ho.same .threads h1)
  refine ⟨by rwa [ht], fun x hx => (ht x).trans (others x hx), fun i hi hf => ?_, fun hw => ?_⟩
  · exact (owns_congr i (ho.rg (r := .TOP_OWN) h3 i) _).trans (owned i hi hf)
  · rw [show u.dtm = t.dtm from ho.same .dtm h2]
    exact writer hw

/-- THREAD_ABORT of a thread that runs. -/
theorem threadAbort_running {s : State} {q : Fin 64} {th : Fin 512} (cid : BitVec 32) (hs : s.canStart q.val = true)
    (hr : (s.thread th.val).Running) :
    Answers (.threadAbort q cid th) s q.val cid .ok 0 aborting (fun t => AbortLeaves s t th.val) := by
  have hleaves := (s.fetchCmd q.val).abortDone_leaves th.val
  have hk : Keeps (maskOf aborting) (s.fetchCmd q.val) ((s.fetchCmd q.val).abortThread th.val) :=
    State.abortThread_keeps (Keeps.refl _ _) (by decide) _
  rw [State.abortThread_running (s := s.fetchCmd q.val) hr] at hk
  refine answers rfl hs ?_ hk (by decide) fun ho => (AbortLeaves.only ?_ ho (by decide))
  · rw [State.abortThread_running (s := s.fetchCmd q.val) hr]
  · obtain ⟨gone, others, owned, writer⟩ := hleaves
    exact ⟨gone, others, owned, writer⟩

theorem threadAbort_still {s : State} {q : Fin 64} {th : Fin 512} (cid : BitVec 32) (hs : s.canStart q.val = true)
    (hr : ¬ (s.thread th.val).Running) : Answers (.threadAbort q cid th) s q.val cid .ok 0 [] (fun _ => True) := by
  refine answers_nothing rfl hs ?_
  rw [State.abortThread_still (s := s.fetchCmd q.val) hr]

/-- THREAD_RESTART of a stopped thread with an entry. -/
theorem threadRestart_stopped {s : State} {q : Fin 64} {th : Fin 512} {e : BitVec 64 × Bool} (cid : BitVec 32)
    (hs : s.canStart q.val = true) (he : s.entryOf th.val = some e) (hr : (s.thread th.val).Stopped) :
    Answers (.threadRestart q cid th) s q.val cid .ok 0 [.threads] (fun t => t.thread th.val = (s.thread th.val).started e ∧
      ∀ x, x ≠ th.val → t.thread x = s.thread x) := by
  have hstart := State.restartThread_stopped (s := s.fetchCmd q.val) he hr
  refine answers (u := (s.fetchCmd q.val).setThread th.val ((s.thread th.val).started e)) rfl hs ?_
    (State.setThread_keeps (Keeps.refl _ _) (by decide) _ _) (by decide) fun ho => ?_
  · rw [hstart]
    rfl
  · have ht := thread_congr (ho.same .threads (by decide))
    exact ⟨(ht _).trans (State.thread_setThread_same _ _ _), fun x hx => (ht x).trans (State.thread_setThread_other _ _ _ _ hx)⟩

theorem threadRestart_refused {s : State} {q : Fin 64} {th : Fin 512} (cid : BitVec 32) (hs : s.canStart q.val = true)
    (h : s.entryOf th.val = none ∨ ¬ (s.thread th.val).Stopped) :
    Answers (.threadRestart q cid th) s q.val cid .busy 0 [] (fun _ => True) := by
  refine answers_nothing rfl hs ?_
  rw [State.restartThread_refused (s := s.fetchCmd q.val) h]

/-! ### Images (R88) -/

/-- The threads after a list of them is set. -/
theorem foldl_setThread (f : Nat → Nat) (g : Nat → Thread) (x : Nat) (l : List Nat) : ∀ s : State,
    (l.foldl (fun s j => s.setThread (f j) (g (f j))) s).thread x = if x ∈ l.map f then g x else s.thread x := by
  induction l with
  | nil => exact fun s => by simp
  | cons j r ih =>
    intro s
    rw [List.foldl_cons, ih, List.map_cons]
    by_cases hr : x ∈ r.map f
    · rw [if_pos hr, if_pos (List.mem_cons_of_mem _ hr)]
    · rw [if_neg hr]
      by_cases hx : x = f j
      · rw [if_pos (hx ▸ List.mem_cons_self), ← hx, State.thread_setThread_same]
      · rw [if_neg (fun h => (List.mem_cons.1 h).elim hx hr), State.thread_setThread_other _ _ _ _ hx]

/-- The sections of an image file fit their memories: what the check of its header ensures. -/
structure ImageFile.Fits (x : ImageFile) : Prop where
  imem : x.imem.length ≤ 65536
  dmem : x.dmem.length + x.zero ≤ 65536

theorem imageParse_fits {f : List Byte} (h : imageForm f = true) : (imageParse f).Fits := by
  simp only [imageForm, Bool.and_eq_true, decide_eq_true_eq] at h
  obtain ⟨⟨⟨⟨⟨⟨⟨⟨-, -⟩, himem⟩, -⟩, -⟩, hinit⟩, hlen⟩, -⟩, -⟩ := h
  refine ⟨?_, ?_⟩
  · exact (List.length_take_le _ _).trans himem
  · have hd : (imageParse f).dmem.length = f.length - (208 + leAt f 0x14 4) := List.length_drop
    rw [hd]
    change f.length - (208 + leAt f 0x14 4) + leAt f 0x1C 4 ≤ 65536
    omega

/-- A check that came to an image was passed. -/
theorem inr_of_check {c : Prop} [Decidable c] {α β : Type} {a : α} {e : α ⊕ β} {x : β} (h : (if c then .inl a else e) = .inr x) :
    ¬ c ∧ e = .inr x := by
  split at h
  · cases h
  · next hc => exact ⟨hc, h⟩

theorem State.imageCheck_fits {s : State} {f : List Byte} {x : ImageFile} (h : s.imageCheck f = .inr x) : x.Fits := by
  unfold State.imageCheck at h
  obtain ⟨-, h⟩ := inr_of_check h
  obtain ⟨hform, h⟩ := inr_of_check h
  obtain ⟨-, h⟩ := inr_of_check h
  obtain ⟨-, h⟩ := inr_of_check h
  obtain ⟨-, h⟩ := inr_of_check h
  cases h
  exact imageParse_fits (by simpa using hform)

/-- Memory with the sections of an image stored. -/
def State.imageStore (s : State) (x : ImageFile) (k : Nat) : State :=
  ((s.store (imemBase k) x.imem).store (dmemBase k) x.dmem).store (dmemBase k + x.dmem.length) (zeros x.zero)

/-- What an image leaves of memory: its sections at the bases of its core, every octet outside the two memories as it was. -/
structure ImageStored (s t : State) (x : ImageFile) (k : Nat) : Prop where
  imem : ∀ i b, x.imem[i]? = some b → t.octet (imemBase k + i) = b
  dmem : ∀ i b, x.dmem[i]? = some b → t.octet (dmemBase k + i) = b
  rest : ∀ a, (a < imemBase k ∨ imemBase k + 65536 ≤ a) → (a < dmemBase k ∨ dmemBase k + 65536 ≤ a) → t.octet a = s.octet a

theorem State.imageStore_stored {s : State} {x : ImageFile} (h : x.Fits) (k : Nat) : ImageStored s (s.imageStore x k) x k := by
  obtain ⟨himem, hdmem⟩ := h
  have hz : (zeros x.zero).length = x.zero := List.length_replicate
  obtain ⟨in1, out1⟩ := stored_store s (imemBase k) x.imem
  obtain ⟨in2, out2⟩ := stored_store (s.store (imemBase k) x.imem) (dmemBase k) x.dmem
  obtain ⟨-, out3⟩ := stored_store ((s.store (imemBase k) x.imem).store (dmemBase k) x.dmem) (dmemBase k + x.dmem.length) (zeros x.zero)
  rw [hz] at out3
  have hbase : dmemBase k + 65536 ≤ imemBase k := by
    unfold dmemBase imemBase
    omega
  refine ⟨fun i b hi => ?_, fun i b hi => ?_, fun a ha hb => ?_⟩
  · exact (out3 _ (.inr (by omega))).trans ((out2 _ (.inr (by omega))).trans (in1 i b hi))
  · have hlt : i < x.dmem.length := (List.getElem?_eq_some_iff.1 hi).1
    exact (out3 _ (.inl (by omega))).trans (in2 i b hi)
  · exact (out3 _ (by omega)).trans ((out2 _ (by omega)).trans (out1 _ (by omega)))

/-- The registers and the record of an image in its core. -/
def State.imageNoted (s : State) (x : ImageFile) (k : Nat) : State :=
  (({ s with images := SMap.insert id s.images k x.image }).setPair .STK_IMG_ID_HI .STK_IMG_ID_LO x.image.id k).wr .STK_IMG_VER k
    x.image.version

theorem State.loadImage_eq (s : State) (x : ImageFile) (k : Nat) : s.loadImage x k =
    (List.range 4).foldl (fun s j => s.setThread (4 * k + j) (x.image.thread (4 * k + j))) ((s.imageStore x k).imageNoted x k) := rfl

/-- What a loaded image leaves of its core: its record, its registers, its threads at their entries, its sections in memory. -/
structure ImageLoaded (s t : State) (x : ImageFile) (k : Nat) : Prop where
  image   : t.image k = some x.image
  id      : t.pair .STK_IMG_ID_HI .STK_IMG_ID_LO k = x.image.id
  version : t.rg .STK_IMG_VER k = x.image.version
  threads : ∀ j, j < 4 → t.thread (4 * k + j) = x.image.thread (4 * k + j)
  others  : ∀ h, coreOf h ≠ k → t.thread h = s.thread h
  memory  : ImageStored s t x k

theorem State.setThreads_only (f : Nat → Nat) (g : Nat → Thread) (l : List Nat) (s : State) :
    Keeps (maskOf [.threads]) s (l.foldl (fun s j => s.setThread (f j) (g (f j))) s) :=
  keeps_foldl (Keeps.refl _ s) fun _ _ hu => State.setThread_keeps hu (by decide) _ _

theorem State.loadImage_loaded (s : State) {x : ImageFile} (hx : x.Fits) (k : Nat) : ImageLoaded s (s.loadImage x k) x k := by
  have hstored := State.imageStore_stored (s := s) hx k
  have hthreads : ∀ h, (s.imageStore x k).thread h = s.thread h := fun h =>
    thread_congr ((State.store_keeps _ (State.store_keeps _ (State.store_keeps _ (Keeps.refl (maskOf [.mem]) s) (by decide) _) (by decide) _)
      (by decide) _).same .threads (by decide)) h
  rw [State.loadImage_eq]
  generalize s.imageStore x k = u at hstored hthreads
  have hk := State.setThreads_only (fun j => 4 * k + j) (fun n => x.image.thread n) (List.range 4) (u.imageNoted x k)
  have hth := fun h => foldl_setThread (fun j => 4 * k + j) (fun n => x.image.thread n) h (List.range 4) (u.imageNoted x k)
  generalize (List.range 4).foldl (fun s j => s.setThread (4 * k + j) (x.image.thread (4 * k + j))) (u.imageNoted x k) = t at hk hth
  refine ⟨?_, ?_, ?_, fun j hj => ?_, fun h hc => ?_, ?_⟩
  · rw [State.image, hk.same .images (by decide)]
    exact SMap.find_insert_same _ _ _ _
  · rw [State.pair, hk.rg (by decide), hk.rg (by decide), State.imageNoted, State.rg_wr_other _ _ _ _ _ _ (.inl (by decide)),
      State.rg_wr_other _ _ _ _ _ _ (.inl (by decide))]
    exact State.pair_setPair_same _ (by decide) _ _
  · rw [hk.rg (by decide)]
    exact State.rg_wr_same _ _ _ _
  · rw [hth, if_pos (List.mem_map.2 ⟨j, List.mem_range.2 hj, rfl⟩)]
  · rw [hth, if_neg ?_]
    · exact hthreads h
    · rintro hm
      obtain ⟨j, hj, rfl⟩ := List.mem_map.1 hm
      have := List.mem_range.1 hj
      exact hc (by unfold coreOf; omega)
  · obtain ⟨imem, dmem, rest⟩ := hstored
    have hm : t.mem = u.mem := hk.same .mem (by decide)
    have ho := State.octet_congr hm
    exact ⟨fun i b hi => (ho _).trans (imem i b hi), fun i b hi => (ho _).trans (dmem i b hi), fun a ha hb => (ho _).trans (rest a ha hb)⟩

theorem ImageLoaded.only {s t u : State} {x : ImageFile} {k : Nat} {l : List Part} (h : ImageLoaded s t x k) (ho : Only l t u)
    (hl : Part.images ∉ l ∧ Part.threads ∉ l ∧ Part.mem ∉ l ∧ Part.regs .stoker ∉ l) : ImageLoaded s u x k := by
  obtain ⟨image, id, version, threads, others, ⟨imem, dmem, rest⟩⟩ := h
  obtain ⟨h1, h2, h3, h4⟩ := hl
  have ht := thread_congr (ho.same .threads h2)
  have hm := State.octet_congr (ho.same .mem h3)
  refine ⟨?_, ?_, (ho.rg (r := .STK_IMG_VER) h4 k).trans version, fun j hj => (ht _).trans (threads j hj), fun h hc => (ht h).trans (others h hc),
    fun i b hi => (hm _).trans (imem i b hi), fun i b hi => (hm _).trans (dmem i b hi), fun a ha hb => (hm a).trans (rest a ha hb)⟩
  · rw [State.image, show u.images = t.images from ho.same .images h1]
    exact image
  · rw [State.pair, ho.rg (r := .STK_IMG_ID_HI) h4, ho.rg (r := .STK_IMG_ID_LO) h4]
    exact id

/-- The parts that loading an image reaches. -/
def imageLoading : List Part := [.mem, .threads, .images, .pwr, .regs .stoker]

section
variable {s : State} {q : Fin 64} {mask : BitVec 128} {file : List Byte} {x : ImageFile} {k : Nat} (cid : BitVec 32) (commit : Bool)
  (hs : s.canStart q.val = true) (hc : s.imageCheck file = .inr x) (hm : maskCores mask = [k]) (hg : s.gatedCluster (k / 8) = false)
include hs hc hm hg

/-- IMAGE_LOAD into a core with a thread that runs. -/
theorem imageLoad_busy (hb : s.coreBusy k = true) : Answers (.imageLoad q cid mask commit file) s q.val cid .busy k [] (fun _ => True) := by
  refine answers_nothing rfl hs ?_
  have hc' : (s.fetchCmd q.val).imageCheck file = .inr x := hc
  have hg' : (s.fetchCmd q.val).gatedCluster (k / 8) = false := hg
  have hb' : (s.fetchCmd q.val).coreBusy k = true := hb
  simp only [State.imageLoad, hc', hm, List.any_cons, List.any_nil, hg', Bool.or_self, Bool.false_eq_true, if_false, List.find?_cons, hb']

/-- IMAGE_LOAD into a core none of whose threads runs. -/
theorem imageLoad_ok (hb : s.coreBusy k = false) :
    Answers (.imageLoad q cid mask commit file) s q.val cid .ok 0 imageLoading (fun t => ImageLoaded s t x k) := by
  have hc' : (s.fetchCmd q.val).imageCheck file = .inr x := hc
  have hg' : (s.fetchCmd q.val).gatedCluster (k / 8) = false := hg
  have hb' : (s.fetchCmd q.val).coreBusy k = false := hb
  let u := if commit then (s.fetchCmd q.val).commitVersion x.image else s.fetchCmd q.val
  have hu : Keeps (maskOf [.pwr]) (s.fetchCmd q.val) u :=
    keeps_ite (State.commitVersion_keeps (Keeps.refl _ _) (by decide) _) (Keeps.refl _ _)
  have hloaded : ImageLoaded s (u.loadImage x k) x k := by
    obtain ⟨image, id, version, threads, others, ⟨imem, dmem, rest⟩⟩ := u.loadImage_loaded (State.imageCheck_fits hc) k
    exact ⟨image, id, version, threads, fun h hn => (others h hn).trans (hu.thread (by decide) h), imem, dmem, fun a ha hn =>
      (rest a ha hn).trans (State.octet_congr (hu.same .mem (by decide)) a)⟩
  refine answers (u := u.loadImage x k) rfl hs ?_ (State.loadImage_keeps (hu.mono (by decide)) (by decide) x k) (by decide)
    fun ho => hloaded.only ho (by decide)
  simp only [State.imageLoad, hc', hm, List.any_cons, List.any_nil, hg', Bool.or_self, Bool.false_eq_true, if_false, List.find?_cons, hb',
    List.find?_nil, List.foldl_cons, List.foldl_nil]
  rfl

end

/-- IMAGE_LOAD of a file that the check refuses. -/
theorem imageLoad_refused {s : State} {q : Fin 64} {mask : BitVec 128} {file : List Byte} {r : Nat} (cid : BitVec 32) (commit : Bool)
    (hs : s.canStart q.val = true) (hc : s.imageCheck file = .inl r) :
    Answers (.imageLoad q cid mask commit file) s q.val cid .refused r raising (fun t => Raised t 466 25 ∧ t.threads = s.threads) := by
  have hs' := State.coreUp_of_canStart hs
  have hup : (s.fetchCmd q.val).coreUp = true := hs'
  have hraised := State.imageRefused_raises hup r
  have hk := (s.fetchCmd q.val).imageRefused_only r
  have hb : (s.fetchCmd q.val).imageLoad mask commit file = ((s.fetchCmd q.val).imageRefused r, .refused, r) := by
    have hc' : (s.fetchCmd q.val).imageCheck file = .inl r := hc
    simp only [State.imageLoad, hc']
  refine answers (c := .imageLoad q cid mask commit file) rfl hs hb hk (by decide) fun ho => ⟨?_, ?_⟩
  · exact hraised.keeps (State.complete_parts _ _ _ _ _) (by decide)
  · exact (ho.same .threads (by decide)).trans (hk.same .threads (by decide))

/-! ### The debugger (R63) -/

/-- A command that replaces one thread's record. -/
theorem does_setThread {c : Instr} {s : State} {th : Nat} {t : Thread} (h : exec c s = .next (s.setThread th t)) :
    Does c s [.threads] (fun u => u.thread th = t ∧ ∀ x, x ≠ th → u.thread x = s.thread x) :=
  does_of_keeps h (State.setThread_keeps (Keeps.refl _ s) (by decide) _ _)
    ⟨State.thread_setThread_same _ _ _, fun _ hx => State.thread_setThread_other _ _ _ _ hx⟩

/-- Settles O30: each command by the state of its threads, IMAGE_LOAD by its file and its core. -/
theorem threadControlCommands : Obligations.ThreadControlCommands := by
  unfold Obligations.ThreadControlCommands
  intro s q cid core v th cleaned runs gone entry
  refine ⟨fun h => ?_, fun h => ?_, fun hs => ⟨fun hr => ?_, threadAbort_still cid hs, fun pc k he hst => ?_, fun h => ?_,
    fun mask commit file x k hc hm hg => ⟨imageLoad_busy cid commit hs hc hm hg, fun hb => ?_⟩,
    fun mask commit file r hc => imageLoad_refused cid commit hs hc⟩, fun hup hd => ⟨fun hst => ?_, fun hst => ?_⟩⟩
  · exact stkAbort_does h v
  · obtain ⟨t, ht, ⟨starts, others⟩, ho⟩ := stkRestart_does h v
    exact ⟨t, ht, ⟨fun j pc k hj hv he hst => starts j (pc, k) hj hv he hst, others⟩, ho⟩
  · obtain ⟨t, ht, head, report, ⟨hgone, others, owned, writer⟩, ho⟩ := threadAbort_running cid hs hr
    exact ⟨t, ht, head, report, ⟨hgone, others, owned, writer⟩, ho⟩
  · exact threadRestart_stopped (e := (pc, k)) cid hs he hst
  · refine threadRestart_refused cid hs ?_
    rcases h with h | h | h
    · exact .inl h
    · refine .inr ?_
      rintro (hst | hst) <;> rcases h with h | h | h <;> rw [hst] at h <;> cases h
    · refine .inr ?_
      rintro (hst | hst) <;> rw [hst] at h <;> cases h
  · obtain ⟨t, ht, head, report, ⟨image, id, version, threads, others, ⟨imem, dmem, rest⟩⟩, ho⟩ := imageLoad_ok cid commit hs hc hm hg hb
    exact ⟨t, ht, head, report, ⟨image, id, version, threads, others, imem, dmem, rest⟩, ho⟩
  · refine does_setThread (congrArg Host.Outcome.next (State.act_pos _ ?_))
    rw [State.runs, hup, hst, hd]
    rfl
  · refine does_setThread (congrArg Host.Outcome.next (State.act_pos _ ?_))
    rw [hup, hst, hd]
    rfl

end Sys2Proof.Machine
end

section
/-!
Frames received by a port (R201 to R204, R211, R212).
-/
namespace Sys2Proof.Machine

/-! ### Ports and their counters -/

theorem port_congr {s t : State} (h : t.prt = s.prt) (n : Nat) : t.port n = s.port n :=
  congrArg (fun p : PrtState => SMap.get (fun _ => Port.reset) p.ports n) h

theorem State.port_setPort (s : State) (n : Nat) (p : Port) : (s.setPort n p).port n = p := SMap.get_set_same _ _ _ _ _

theorem State.setPort_only (s : State) (n : Nat) (p : Port) : Keeps (maskOf [.prt]) s (s.setPort n p) :=
  State.setPort_keeps (Keeps.refl _ s) (by decide) n p

theorem State.rg_bump_same (s : State) (r : Reg) (i : Nat) : (s.bump r i).rg r i = s.rg r i + 1 := by simp [State.bump]

theorem State.rg_bump_other (s : State) {r q : Reg} (h : r ≠ q) (i j : Nat) : (s.bump r i).rg q j = s.rg q j :=
  State.rg_wr_other _ _ _ _ _ _ (.inl h)

/-- A counter of the port block with one more count. -/
theorem State.bump_only (s : State) {r : Reg} (hr : r.bit &&& maskOf [.regs .port] = r.bit) (i : Nat) :
    Keeps (maskOf [.regs .port]) s (s.bump r i) := State.bump_keeps (Keeps.refl _ s) (Nat.zero_and _) hr i

/-- A command whose whole effect is one count of the port block. -/
theorem does_bump {c : Instr} {s : State} {r : Reg} {i : Nat} (h : exec c s = .next (s.bump r i))
    (hr : r.bit &&& maskOf [.regs .port] = r.bit) : Does c s [.regs .port] (fun t => t.rg r i = s.rg r i + 1) :=
  does_of_keeps h (s.bump_only hr i) (s.rg_bump_same r i)

/-! ### Cells and handles -/

/-- A fold that keeps what it has or takes the next element ends with what it began with or with an element. -/
theorem foldl_picks {α : Type} {f : Option α → α → Option α} (hf : ∀ m x, f m x = m ∨ f m x = some x) (l : List α) :
    ∀ m, l.foldl f m = m ∨ ∃ x ∈ l, l.foldl f m = some x := by
  induction l with
  | nil => exact fun m => .inl rfl
  | cons x r ih =>
    intro m
    rw [List.foldl_cons]
    rcases ih (f m x) with h | ⟨y, hy, h⟩
    · rcases hf m x with hm | hm
      · exact .inl (h.trans hm)
      · exact .inr ⟨x, List.mem_cons_self, h.trans hm⟩
    · exact .inr ⟨y, List.mem_cons_of_mem _ hy, h⟩

/-- The lesser of a start found so far and another. -/
def lesser (m : Option Nat) (i : Nat) : Option Nat :=
  match m with
  | none => some i
  | some j => some (Nat.min i j)

theorem lesser_picks (m : Option Nat) (i : Nat) : lesser m i = m ∨ lesser m i = some i := by
  cases m with
  | none => exact .inr rfl
  | some j =>
    rcases Nat.le_total i j with h | h
    · exact .inr (congrArg some (Nat.min_eq_left h))
    · exact .inl (congrArg some (Nat.min_eq_right h))

theorem State.findCells_eq (s : State) (c k : Nat) : s.findCells c k =
    ((0 :: (s.frames.filter (fun e => decide (e.2.cluster = c))).map (fun e => e.2.cell + cellsOf e.2.len)).filter
      (fun i => s.cellsFree c i k)).foldl lesser none := rfl

/-- Cells found lie inside the pool. -/
theorem State.findCells_fits {s : State} {c k i : Nat} (h : s.findCells c k = some i) : i + k ≤ poolCells := by
  rw [State.findCells_eq] at h
  rcases foldl_picks lesser_picks _ none with hn | ⟨x, hx, hn⟩
  · cases hn.symm.trans h
  · have hfree := (List.mem_filter.1 hx).2
    cases hn.symm.trans h
    unfold State.cellsFree at hfree
    rw [Bool.and_eq_true, decide_eq_true_eq] at hfree
    exact hfree.1

theorem cellsOf_pos {n : Nat} (h : 0 < n) : 0 < cellsOf n := by
  unfold cellsOf ceilDiv
  rw [if_neg (by decide)]
  omega

/-- The first cell of a frame, from its handle. -/
theorem frameHandle_cell {c i : Nat} (h : i < poolCells) : frameHandle c i % poolCells = i := by
  unfold frameHandle
  rw [Nat.mul_add_mod_self_right, Nat.mod_eq_of_lt h]

/-! ### A frame moved to the pool (R203, R204) -/

/-- The thread that takes the frames of a port's receive class. -/
def State.rxThread (s : State) (n cls : Nat) : Nat := 32 * (n / 4) + s.rxMap n cls % 32

/-- The descriptor of a received frame in its cells. -/
def rxFrame (n th c : Nat) (x : RxFrame) : Frame :=
  { cluster := n / 4, cell := c, len := x.data.length, holder := some th, frozen := false, port := n, cls := x.cls, stamp := .ingress x.at_,
    stampOk := x.ok, times := [], bounds := [] }

/-- The departure that PTSB would report of a handle forgotten. -/
def State.forgetSent (s : State) (h : Nat) : State := { s with prt := { s.prt with sent := SMap.erase s.prt.sent h } }

theorem State.forgetSent_keeps (s : State) (h : Nat) : Keeps (maskOf [.prt]) s (s.forgetSent h) := by
  refine ⟨rfl, id, id, id, Fuses.Le.refl _, fun p hp => ?_⟩
  cases p <;> first | exact rfl | exact fun _ _ _ => rfl | exact absurd hp (by decide)

/-- A received frame in the pool: its descriptor and its octets, its place in the buffer freed. -/
def State.rxHeld (s : State) (n th c : Nat) (x : RxFrame) : State :=
  (((s.setFrame (frameHandle (n / 4) c) (rxFrame n th c x)).forgetSent (frameHandle (n / 4) c)).storeMem
    (cmemFlat (n / 4) (cellAddr c)) x.data).rxPop n

/-- The descriptor of a received frame, before its octets are stored. -/
def State.rxNoted (s : State) (n th c : Nat) (x : RxFrame) : State :=
  (s.setFrame (frameHandle (n / 4) c) (rxFrame n th c x)).forgetSent (frameHandle (n / 4) c)

theorem State.rxHeld_eq (s : State) (n th c : Nat) (x : RxFrame) :
    s.rxHeld n th c x = ((s.rxNoted n th c x).storeMem (cmemFlat (n / 4) (cellAddr c)) x.data).rxPop n := rfl

theorem State.rxHeld_stored (s : State) (n th c : Nat) (x : RxFrame) :
    Stored s (s.rxHeld n th c x) (cmemFlat (n / 4) (cellAddr c)) x.data :=
  (stored_storeMem (s.rxNoted n th c x) (cmemFlat (n / 4) (cellAddr c)) x.data).congr rfl

/-- What storing octets of a received frame leaves alone. -/
theorem State.storeMem_only (s : State) (a : Nat) (bs : List Byte) : Keeps (maskOf [.mem, .hst]) s (s.storeMem a bs) :=
  State.storeMem_keeps (Keeps.refl _ s) (by decide) a bs

theorem State.rxHeld_frame (s : State) (n th c : Nat) (x : RxFrame) :
    SMap.find (s.rxHeld n th c x).frames (frameHandle (n / 4) c) = some (rxFrame n th c x) := by
  rw [State.rxHeld_eq, State.rxPop, (State.setPort_only _ _ _).same .frames (by decide), (State.storeMem_only _ _ _).same .frames (by decide)]
  exact SMap.find_insert_same _ _ _ _

theorem State.rxPop_rx (s : State) (n : Nat) : ((s.rxPop n).port n).rx = (s.port n).rx.drop 1 :=
  congrArg Port.rx (State.port_setPort _ _ _)

theorem State.rxHeld_rx (s : State) (n th c : Nat) (x : RxFrame) : ((s.rxHeld n th c x).port n).rx = (s.port n).rx.drop 1 := by
  rw [State.rxHeld_eq, State.rxPop_rx, port_congr ((State.storeMem_only _ _ _).same .prt (by decide)) n]
  rfl

/-- The same with the event counted. -/
def State.rxStored (s : State) (n th c : Nat) (x : RxFrame) : State := (s.rxHeld n th c x).pmcCluster (n / 4) 0x46 (some n)

/-- The notice of a received frame. -/
def State.rxNotice (s : State) (n c : Nat) (x : RxFrame) : Notice := s.mkNotice .frame 0 (frameHandle (n / 4) c) x.at_ 1 n

/-- Whether the target of a frame takes it: an octet of the map that does not drop, a READY thread with a free entry. -/
structure RxTaken (s : State) (n : Nat) (x : RxFrame) : Prop where
  head   : (s.port n).rx = [x]
  mapped : bitAt (s.rxMap n x.cls) 7 = false
  ready  : (s.thread (s.rxThread n x.cls)).st = .ready
  free   : (s.thread (s.rxThread n x.cls)).hasFree = true

theorem State.rxDrain_drop {s : State} {n : Nat} {x : RxFrame} (h : (s.port n).rx = [x]) (hm : bitAt (s.rxMap n x.cls) 7 = true) :
    s.rxDrain n 1 = (s.rxPop n).bump .PRT_RX_DROP n := by
  unfold State.rxDrain
  rw [h]
  dsimp only
  rw [if_pos hm]
  rfl

theorem RxTaken.rxDrain_full {s : State} {n : Nat} {x : RxFrame} (h : RxTaken s n x)
    (hc : s.findCells (n / 4) (cellsOf x.data.length) = none) : s.rxDrain n 1 = s := by
  obtain ⟨head, mapped, ready, free⟩ := h
  unfold State.rxThread at ready free
  unfold State.rxDrain
  rw [head]
  dsimp only
  rw [if_neg (by rw [mapped]; decide), if_neg (fun h => h.1 ready), free, if_neg (by decide), State.allocFrame, hc]

theorem RxTaken.rxDrain_room {s : State} {n c : Nat} {x : RxFrame} (h : RxTaken s n x) (hl : 0 < x.data.length)
    (hc : s.findCells (n / 4) (cellsOf x.data.length) = some c) :
    s.rxDrain n 1 = (s.rxStored n (s.rxThread n x.cls) c x).notify (s.rxThread n x.cls)
      ((s.rxStored n (s.rxThread n x.cls) c x).rxNotice n c x) := by
  obtain ⟨head, mapped, ready, free⟩ := h
  have hfit := State.findCells_fits hc
  have hpos := cellsOf_pos hl
  have hcell : frameHandle (n / 4) c % poolCells = c := frameHandle_cell (by omega)
  unfold State.rxThread at ready free
  unfold State.rxDrain
  rw [head]
  dsimp only
  rw [if_neg (by rw [mapped]; decide), if_neg (fun h => h.1 ready), free, if_neg (by decide), State.allocFrame, hc]
  dsimp only
  rw [hcell]
  rfl

theorem State.pmcCluster_only (s : State) (c code : Nat) (u : Option Nat) : Keeps (maskOf counting) s (s.pmcCluster c code u) :=
  State.pmcCluster_keeps (Keeps.refl _ s) (by decide) c code u

theorem State.rxHeld_keeps (s : State) (n th c : Nat) (x : RxFrame) :
    Keeps (maskOf [.mem, .hst, .frames, .prt]) s (s.rxHeld n th c x) := by
  have h1 := State.setFrame_keeps (Keeps.refl (maskOf [.mem, .hst, .frames, .prt]) s) (by decide) (frameHandle (n / 4) c) (rxFrame n th c x)
  have h2 := h1.trans ((State.forgetSent_keeps _ (frameHandle (n / 4) c)).mono (by decide))
  exact (State.storeMem_keeps h2 (by decide) _ _).trans ((State.setPort_only _ n _).mono (by decide))

/-- What a received frame leaves in the pool and with its thread. -/
structure RxPlaced (s t : State) (n th c : Nat) (x : RxFrame) : Prop where
  octets : Stored s t (cmemFlat (n / 4) (cellAddr c)) x.data
  frame  : t.frame (frameHandle (n / 4) c) = some (rxFrame n th c x)
  notice : ∃ k ∈ (t.thread th).notices, k.kind = .frame ∧ k.handle = BitVec.ofNat 32 (frameHandle (n / 4) c) ∧ k.instant = x.at_
  popped : (t.port n).rx = []

/-- The parts that moving a frame to the pool reaches. -/
def receiving : List Part := notifying ++ [.mem, .hst, .frames, .prt]

/-- A notice delivered to a READY thread stands in its queue; beside the thread nothing changes. -/
theorem State.notify_delivers {s : State} {th : Nat} (h : (s.thread th).st = .ready) (k : Notice) :
    k ∈ ((s.notify th k).thread th).notices ∧ Keeps (maskOf [.threads]) s (s.notify th k) := by
  rw [State.notify_ready h k]
  refine ⟨?_, State.setThread_keeps (Keeps.refl _ s) (by decide) _ _⟩
  rw [State.thread_setThread_same]
  exact mem_insertNotice _ _

theorem RxTaken.rxDrain_placed {s : State} {n c : Nat} {x : RxFrame} (h : RxTaken s n x) (hl : 0 < x.data.length)
    (hc : s.findCells (n / 4) (cellsOf x.data.length) = some c) :
    RxPlaced s (s.rxDrain n 1) n (s.rxThread n x.cls) c x ∧ Keeps (maskOf receiving) s (s.rxDrain n 1) := by
  rw [h.rxDrain_room hl hc]
  obtain ⟨head, -, ready, -⟩ := h
  generalize s.rxThread n x.cls = th at ready
  have hheld := s.rxHeld_keeps n th c x
  have hcount := (s.rxHeld n th c x).pmcCluster_only (n / 4) 0x46 (some n)
  have hready : ((s.rxStored n th c x).thread th).st = .ready := by
    rw [State.rxStored, hcount.thread (by decide), hheld.thread (by decide), ready]
  obtain ⟨hin, hnote⟩ := State.notify_delivers hready ((s.rxStored n th c x).rxNotice n c x)
  rw [State.rxStored] at hin hnote ⊢
  have hlast := hcount.onlyOf.trans hnote.onlyOf
  refine ⟨⟨?_, ?_, ⟨_, hin, rfl, rfl, rfl⟩, ?_⟩, ((hheld.mono (by decide)).trans (hcount.mono (by decide))).trans (hnote.mono (by decide))⟩
  · exact hlast.stored (by decide) (s.rxHeld_stored n th c x)
  · exact (congrArg (fun m => SMap.find m (frameHandle (n / 4) c)) (hlast.same .frames (by decide))).trans (s.rxHeld_frame n th c x)
  · rw [port_congr (hlast.same .prt (by decide)) n, State.rxHeld_rx, head]
    rfl

/-! ### A frame received (R201 to R204, R211) -/

theorem exec_frameReceive {s : State} (n : Fin 64) (data : List Byte) (bad : Bool) (a trx : TimeVal) (h : s.coreUp = true) :
    exec (.frameReceive n data bad a trx) s = .next (s.frameIn n.val data bad a trx) := congrArg Host.Outcome.next (State.act_pos _ h)

/-- The octets of a frame before its FCS. -/
def frameBody (data : List Byte) : List Byte := data.take (data.length - 4)

/-- A frame of a length that the port takes, while its link is up. -/
structure FrameSized (s : State) (n : Nat) (data : List Byte) : Prop where
  link : s.linkUp n = true
  low  : 64 ≤ data.length
  high : data.length ≤ s.fd Fld.PRT_MAXFRAME.MAX n

theorem State.frameIn_runt {s : State} {n : Nat} {data : List Byte} (hl : s.linkUp n = true) (h : data.length ≤ 63) (bad : Bool)
    (a trx : TimeVal) : s.frameIn n data bad a trx = s.bump .PRT_RX_RUNT n := by
  unfold State.frameIn
  rw [hl, if_neg (by decide), if_pos h]

theorem State.frameIn_oversize {s : State} {n : Nat} {data : List Byte} (hl : s.linkUp n = true) (h : 63 < data.length)
    (hm : s.fd Fld.PRT_MAXFRAME.MAX n < data.length) (bad : Bool) (a trx : TimeVal) :
    s.frameIn n data bad a trx = s.bump .PRT_RX_OVERSIZE n := by
  unfold State.frameIn
  rw [hl, if_neg (by decide), if_neg (Nat.not_le.2 h), if_pos hm]

theorem FrameSized.frameIn_fcs {s : State} {n : Nat} {data : List Byte} (h : FrameSized s n data) {bad : Bool}
    (hb : bad = true ∨ fcsOf (frameBody data) ≠ data.drop (data.length - 4)) (a trx : TimeVal) :
    s.frameIn n data bad a trx = s.bump .PRT_RX_FCS n := by
  obtain ⟨link, low, high⟩ := h
  unfold State.frameIn
  rw [link, if_neg (by decide), if_neg (by omega), if_neg (Nat.not_lt.2 high)]
  refine if_pos ?_
  rcases hb with rfl | hb
  · rfl
  · rw [Bool.or_eq_true, decide_eq_true_eq]
    exact .inr hb

/-- A frame of such a length without an error. -/
structure FrameGood (s : State) (n : Nat) (data : List Byte) : Prop extends FrameSized s n data where
  fcs : fcsOf (frameBody data) = data.drop (data.length - 4)

/-- The pause times that a frame names do not depend on the counters. -/
theorem pauseTimes_congr {s t : State} {n : Nat} (hc : t.rg .PRT_CFG n = s.rg .PRT_CFG n) (hm : t.rg .PRT_PFC_MAP n = s.rg .PRT_PFC_MAP n)
    (k : Nat) (bs : List Byte) : t.pauseTimes n k bs = s.pauseTimes n k bs := by
  unfold State.pauseTimes
  rw [State.fb_congr (f := Fld.PRT_CFG.RX_PAUSE) hc, State.fb_congr (f := Fld.PRT_CFG.RX_PFC) hc, hm]

/-- A flow-control frame counted. -/
def State.flowCounted (s : State) (n : Nat) : State := (s.bump .PRT_RX_OK n).bump .PRT_RX_PAUSE n

/-- A flow-control frame taken: its pauses wait for their T_act. -/
def State.flowTaken (s : State) (n k : Nat) (body : List Byte) (trx : TimeVal) : State :=
  if s.pauseTimes n k body = [] then s.flowCounted n
  else (s.flowCounted n).setPort n
    { (s.port n) with pauses := (s.port n).pauses ++ [⟨pauseAct trx, s.pauseTimes n k body⟩] }

theorem FrameGood.frameIn_flow {s : State} {n k : Nat} {data : List Byte} (h : FrameGood s n data) (hk : flowKind (frameBody data) = some k)
    (a trx : TimeVal) : s.frameIn n data false a trx = s.flowTaken n k (frameBody data) trx := by
  obtain ⟨⟨link, low, high⟩, fcs⟩ := h
  have hp : (s.flowCounted n).pauseTimes n k (frameBody data) = s.pauseTimes n k (frameBody data) :=
    pauseTimes_congr ((State.rg_bump_other _ (by decide) _ _).trans (State.rg_bump_other _ (by decide) _ _))
      ((State.rg_bump_other _ (by decide) _ _).trans (State.rg_bump_other _ (by decide) _ _)) _ _
  unfold State.frameIn
  rw [link, if_neg (by decide), if_neg (by omega), if_neg (Nat.not_lt.2 high)]
  dsimp only
  rw [if_neg (by simpa [frameBody] using fcs)]
  unfold frameBody at hk hp ⊢
  unfold State.flowCounted at hp
  rw [hk]
  dsimp only
  rw [hp]
  rfl

/-- The record of a received frame in its port's buffer. -/
def State.rxRecord (s : State) (data : List Byte) (a : TimeVal) : RxFrame :=
  ⟨frameBody data, rxClass (frameBody data), { a with frac := a.frac &&& 0xFF000000#32 }, s.replicaOk⟩

/-- A frame counted and put into the buffer. -/
def State.rxQueued (s : State) (n : Nat) (x : RxFrame) : State :=
  (s.bump .PRT_RX_OK n).setPort n { (s.port n) with rx := (s.port n).rx ++ [x] }

theorem rxCapacity_bump (s : State) (n i : Nat) : (s.bump .PRT_RX_OK i).rxCapacity n = s.rxCapacity n := by
  unfold State.rxCapacity
  rw [State.fd_congr (f := Fld.PRT_CFG.MODE) (State.rg_bump_other s (by decide) i n)]

theorem FrameGood.frameIn_plain {s : State} {n : Nat} {data : List Byte} (h : FrameGood s n data) (hk : flowKind (frameBody data) = none)
    (a trx : TimeVal) : s.frameIn n data false a trx =
      if s.rxCapacity n < (s.port n).rxUsed + data.length then (s.bump .PRT_RX_OK n).bump .PRT_RX_OVF n
      else (s.rxQueued n (s.rxRecord data a)).rxDrain n ((s.rxQueued n (s.rxRecord data a)).port n).rx.length := by
  obtain ⟨⟨link, low, high⟩, fcs⟩ := h
  have hcap := rxCapacity_bump s n n
  unfold State.frameIn
  rw [link, if_neg (by decide), if_neg (by omega), if_neg (Nat.not_lt.2 high)]
  dsimp only
  rw [if_neg (by simpa [frameBody] using fcs)]
  unfold frameBody at hk
  rw [hk]
  dsimp only
  rw [hcap]
  rfl

end Sys2Proof.Machine
end

section
/-!
What a frame received or moved to the pool leaves (R201 to R204, R211).
-/
namespace Sys2Proof.Machine

/-! ### Flow-control frames -/

theorem State.flowCounted_only (s : State) (n : Nat) : Keeps (maskOf [.regs .port]) s (s.flowCounted n) :=
  (s.bump_only (by decide) n).trans (State.bump_only _ (by decide) n)

theorem State.flowCounted_counts (s : State) (n : Nat) : (s.flowCounted n).rg .PRT_RX_OK n = s.rg .PRT_RX_OK n + 1 ∧
    (s.flowCounted n).rg .PRT_RX_PAUSE n = s.rg .PRT_RX_PAUSE n + 1 := by
  refine ⟨(State.rg_bump_other _ (by decide) _ _).trans (s.rg_bump_same _ _), (State.rg_bump_same _ _ _).trans ?_⟩
  rw [State.rg_bump_other s (by decide)]

/-- A flow-control frame received. -/
theorem frameReceive_flow {s : State} {n : Fin 64} {k : Nat} {data : List Byte} (hc : s.coreUp = true) (h : FrameGood s n.val data)
    (hk : flowKind (frameBody data) = some k) (a trx : TimeVal) :
    Does (.frameReceive n data false a trx) s [.prt, .regs .port] (fun t => t.rg .PRT_RX_OK n.val = s.rg .PRT_RX_OK n.val + 1 ∧
      t.rg .PRT_RX_PAUSE n.val = s.rg .PRT_RX_PAUSE n.val + 1 ∧
      (s.pauseTimes n.val k (frameBody data) ≠ [] → t.port n.val =
        { (s.port n.val) with pauses := (s.port n.val).pauses ++ [⟨pauseAct trx, s.pauseTimes n.val k (frameBody data)⟩] })) := by
  have hx := exec_frameReceive n data false a trx hc
  rw [h.frameIn_flow hk, State.flowTaken] at hx
  have hcount := s.flowCounted_only n.val
  obtain ⟨hok, hpause⟩ := s.flowCounted_counts n.val
  by_cases hp : s.pauseTimes n.val k (frameBody data) = []
  · rw [if_pos hp] at hx
    exact does_of_keeps hx (hcount.mono (by decide)) ⟨hok, hpause, fun h => absurd hp h⟩
  · rw [if_neg hp] at hx
    have hport := (s.flowCounted n.val).setPort_only n.val
      { (s.port n.val) with pauses := (s.port n.val).pauses ++ [⟨pauseAct trx, s.pauseTimes n.val k (frameBody data)⟩] }
    exact does_of_keeps hx ((hcount.mono (by decide)).trans (hport.mono (by decide)))
      ⟨(hport.rg (by decide) _).trans hok, (hport.rg (by decide) _).trans hpause, fun _ => State.port_setPort _ _ _⟩

/-! ### A frame in the buffer -/

/-- A frame for which the buffer has no room. -/
theorem frameReceive_overflow {s : State} {n : Fin 64} {data : List Byte} (hc : s.coreUp = true) (h : FrameGood s n.val data)
    (hk : flowKind (frameBody data) = none) (hf : s.rxCapacity n.val < (s.port n.val).rxUsed + data.length) (a trx : TimeVal) :
    Does (.frameReceive n data false a trx) s [.regs .port] (fun t => t.rg .PRT_RX_OVF n.val = s.rg .PRT_RX_OVF n.val + 1) := by
  have hx := exec_frameReceive n data false a trx hc
  rw [h.frameIn_plain hk, if_pos hf] at hx
  refine does_of_keeps hx ((s.bump_only (by decide) n.val).trans (State.bump_only _ (by decide) n.val)) ((State.rg_bump_same _ _ _).trans ?_)
  rw [State.rg_bump_other s (by decide)]

theorem State.rxQueued_keeps (s : State) (n : Nat) (x : RxFrame) : Keeps (maskOf [.prt, .regs .port]) s (s.rxQueued n x) :=
  ((s.bump_only (by decide) n).mono (by decide)).trans ((State.setPort_only _ n _).mono (by decide))

theorem State.rg_rxQueued (s : State) (n : Nat) (x : RxFrame) {r : Reg} (h : Reg.PRT_RX_OK ≠ r) (i : Nat) :
    (s.rxQueued n x).rg r i = s.rg r i := s.rg_bump_other h n i

theorem State.rxQueued_ok (s : State) (n : Nat) (x : RxFrame) : (s.rxQueued n x).rg .PRT_RX_OK n = s.rg .PRT_RX_OK n + 1 :=
  s.rg_bump_same _ _

theorem State.rxQueued_rx {s : State} {n : Nat} (x : RxFrame) (h : (s.port n).rx = []) : ((s.rxQueued n x).port n).rx = [x] := by
  rw [State.rxQueued, State.port_setPort, h]
  rfl

theorem rxMap_congr {s t : State} {n : Nat} (h0 : t.rg .PRT_RXMAP0 n = s.rg .PRT_RXMAP0 n) (h1 : t.rg .PRT_RXMAP1 n = s.rg .PRT_RXMAP1 n)
    (cls : Nat) : t.rxMap n cls = s.rxMap n cls := by
  unfold State.rxMap
  rw [h0, h1]

theorem State.rxMap_rxQueued (s : State) (n : Nat) (x : RxFrame) (cls : Nat) : (s.rxQueued n x).rxMap n cls = s.rxMap n cls :=
  rxMap_congr (s.rg_rxQueued n x (by decide) n) (s.rg_rxQueued n x (by decide) n) cls

/-- A good frame that is no flow control, into an empty buffer that holds it: buffered, then the buffer drained. -/
theorem FrameGood.frameIn_empty {s : State} {n : Nat} {data : List Byte} (h : FrameGood s n data) (hk : flowKind (frameBody data) = none)
    (he : (s.port n).rx = []) (hf : data.length ≤ s.rxCapacity n) (a trx : TimeVal) :
    s.frameIn n data false a trx = (s.rxQueued n (s.rxRecord data a)).rxDrain n 1 := by
  have hu : (s.port n).rxUsed = 0 := by rw [Port.rxUsed, he]; rfl
  rw [h.frameIn_plain hk, hu, Nat.zero_add, if_neg (Nat.not_lt.2 hf), State.rxQueued_rx _ he]
  rfl

theorem frameBody_pos {data : List Byte} (h : 64 ≤ data.length) : 0 < (frameBody data).length := by
  unfold frameBody
  rw [List.length_take]
  omega

/-- A frame whose class is mapped to a thread that takes it. -/
structure RxBound (s : State) (n cls : Nat) : Prop where
  mapped : bitAt (s.rxMap n cls) 7 = false
  ready  : (s.thread (s.rxThread n cls)).st = .ready
  free   : (s.thread (s.rxThread n cls)).hasFree = true

theorem State.rxThread_rxQueued (s : State) (n : Nat) (x : RxFrame) (cls : Nat) : (s.rxQueued n x).rxThread n cls = s.rxThread n cls := by
  unfold State.rxThread
  rw [State.rxMap_rxQueued]

theorem RxBound.taken {s : State} {n : Nat} {x : RxFrame} (h : RxBound s n x.cls) (he : (s.port n).rx = []) :
    RxTaken (s.rxQueued n x) n x := by
  obtain ⟨mapped, ready, free⟩ := h
  refine ⟨State.rxQueued_rx x he, ?_, ?_, ?_⟩
  · rwa [State.rxMap_rxQueued]
  · rw [State.rxThread_rxQueued]
    exact ready
  · rw [State.rxThread_rxQueued]
    exact free

theorem RxPlaced.from {s z t : State} {n th c : Nat} {x : RxFrame} (h : RxPlaced z t n th c x) (hm : z.mem = s.mem) :
    RxPlaced s t n th c x := by
  obtain ⟨⟨inside, outside⟩, frame, notice, popped⟩ := h
  exact ⟨⟨inside, fun a ha => (outside a ha).trans (State.octet_congr hm a)⟩, frame, notice, popped⟩

section
variable {s : State} {n : Fin 64} {data : List Byte} (hc : s.coreUp = true) (h : FrameGood s n.val data)
  (hk : flowKind (frameBody data) = none) (he : (s.port n.val).rx = []) (hf : data.length ≤ s.rxCapacity n.val) (a trx : TimeVal)
include hc h hk he hf

/-- A frame of a class that is dropped. -/
theorem frameReceive_drop (hm : bitAt (s.rxMap n.val (rxClass (frameBody data))) 7 = true) :
    Does (.frameReceive n data false a trx) s [.prt, .regs .port] (fun t => t.rg .PRT_RX_OK n.val = s.rg .PRT_RX_OK n.val + 1 ∧
      t.rg .PRT_RX_DROP n.val = s.rg .PRT_RX_DROP n.val + 1 ∧ (t.port n.val).rx = []) := by
  have hx := exec_frameReceive n data false a trx hc
  have hrx := State.rxQueued_rx (s.rxRecord data a) he
  have hok := s.rxQueued_ok n.val (s.rxRecord data a)
  have hdrop := s.rg_rxQueued n.val (s.rxRecord data a) (r := .PRT_RX_DROP) (by decide) n.val
  have hk' := s.rxQueued_keeps n.val (s.rxRecord data a)
  have hmap := s.rxMap_rxQueued n.val (s.rxRecord data a) (s.rxRecord data a).cls
  rw [h.frameIn_empty hk he hf, State.rxDrain_drop hrx (by rw [hmap]; exact hm)] at hx
  generalize s.rxQueued n.val (s.rxRecord data a) = u at hx hrx hok hdrop hk'
  have hpop : Keeps (maskOf [.prt]) u (u.rxPop n.val) := u.setPort_only n.val _
  have hb := (u.rxPop n.val).bump_only (r := .PRT_RX_DROP) (by decide) n.val
  refine does_of_keeps hx ((hk'.trans (hpop.mono (by decide))).trans (hb.mono (by decide))) ⟨?_, ?_, ?_⟩
  · exact (State.rg_bump_other _ (by decide) _ _).trans ((hpop.rg (by decide) _).trans hok)
  · rw [State.rg_bump_same, hpop.rg (by decide), hdrop]
  · rw [port_congr (hb.same .prt (by decide)), State.rxPop_rx, hrx]
    rfl

/-- A frame for which the pool has cells. -/
theorem frameReceive_placed (hb : RxBound s n.val (rxClass (frameBody data))) {c : Nat}
    (hcell : s.findCells (n.val / 4) (cellsOf (frameBody data).length) = some c) :
    Does (.frameReceive n data false a trx) s (receiving ++ [.regs .port]) (fun t =>
      t.rg .PRT_RX_OK n.val = s.rg .PRT_RX_OK n.val + 1 ∧
        RxPlaced s t n.val (s.rxThread n.val (rxClass (frameBody data))) c (s.rxRecord data a)) := by
  have hx := exec_frameReceive n data false a trx hc
  have htaken := RxBound.taken (x := s.rxRecord data a) hb he
  have hk' := s.rxQueued_keeps n.val (s.rxRecord data a)
  have hth := s.rxThread_rxQueued n.val (s.rxRecord data a) (s.rxRecord data a).cls
  have hok := s.rxQueued_ok n.val (s.rxRecord data a)
  obtain ⟨hplaced, hkept⟩ := htaken.rxDrain_placed (frameBody_pos h.low) hcell
  rw [h.frameIn_empty hk he hf] at hx
  rw [hth] at hplaced
  exact does_of_keeps hx ((hk'.mono (by decide)).trans (hkept.mono (by decide)))
    ⟨(hkept.rg (by decide) _).trans hok, hplaced.from (hk'.same .mem (by decide))⟩

/-- A frame for which the pool has no cells waits in the buffer. -/
theorem frameReceive_waits (hb : RxBound s n.val (rxClass (frameBody data)))
    (hcell : s.findCells (n.val / 4) (cellsOf (frameBody data).length) = none) :
    Does (.frameReceive n data false a trx) s [.prt, .regs .port] (fun t => (t.port n.val).rx = [s.rxRecord data a]) := by
  have hx := exec_frameReceive n data false a trx hc
  rw [h.frameIn_empty hk he hf, (RxBound.taken (x := s.rxRecord data a) hb he).rxDrain_full hcell] at hx
  exact does_of_keeps hx (s.rxQueued_keeps _ _) (State.rxQueued_rx _ he)

end

/-! ### Waiting frames (R204) -/

theorem exec_frameToPool {s : State} {n : Fin 64} {x : RxFrame} (hc : s.coreUp = true) (h : (s.port n.val).rx = [x]) :
    exec (.frameToPool n) s = .next (s.rxDrain n.val 1) := by
  refine congrArg Host.Outcome.next ((State.act_pos _ hc).trans ?_)
  rw [h]
  rfl

theorem frameToPool_placed {s : State} {n : Fin 64} {x : RxFrame} {c : Nat} (hc : s.coreUp = true) (h : RxTaken s n.val x)
    (hl : 60 ≤ x.data.length) (hcell : s.findCells (n.val / 4) (cellsOf x.data.length) = some c) :
    Does (.frameToPool n) s (receiving ++ [.regs .port]) (fun t => RxPlaced s t n.val (s.rxThread n.val x.cls) c x) := by
  obtain ⟨hplaced, hkept⟩ := h.rxDrain_placed (by omega) hcell
  exact does_of_keeps (exec_frameToPool hc h.head) (hkept.mono (by decide)) hplaced

theorem frameToPool_waits {s : State} {n : Fin 64} {x : RxFrame} (hc : s.coreUp = true) (h : RxTaken s n.val x)
    (hcell : s.findCells (n.val / 4) (cellsOf x.data.length) = none) : Does (.frameToPool n) s [] (fun _ => True) :=
  does_nothing ((exec_frameToPool hc h.head).trans (congrArg Host.Outcome.next (h.rxDrain_full hcell)))

end Sys2Proof.Machine
end

section
/-!
Frames that leave a port, and launches decided at their frame start (R83, R205, R206, R209, R210).
-/
namespace Sys2Proof.Machine

/-! ### A frame begins -/

/-- The octets of a frame that a port transmits; none where the handle names no frame. -/
def State.txData (s : State) (frame : Nat) : List Byte :=
  match s.frame frame with
  | some f => s.frameData f
  | none => []

/-- The record of a port whose transmitter begins a frame at a launch point. -/
def State.txBegun (s : State) (n k frame : Nat) (launch : Option Launch) (notify : Option Nat) : Port :=
  let body := padFrame (s.txData frame)
  let ends := (s.lineMode n).ends (s.port n).phase k (body.length + 4)
  { (s.port n) with
    tx := (s.port n).tx ++ [⟨frame, launch, notify, lineRound ((s.lineMode n).point (s.port n).phase k), ends.1⟩]
    free := ends.2
    line := body ++ fcsOf body }

theorem State.beginFrame_eq (s : State) (n k frame : Nat) (launch : Option Launch) (notify : Option Nat) :
    s.beginFrame n k frame launch notify =
      (if (s.txData frame).length < 60 then s.bump .PRT_TX_PAD n else s).setPort n (s.txBegun n k frame launch notify) := rfl

theorem State.padCounted_only (s : State) (n frame : Nat) :
    Keeps (maskOf [.regs .port]) s (if (s.txData frame).length < 60 then s.bump .PRT_TX_PAD n else s) :=
  keeps_ite (s.bump_only (by decide) n) (Keeps.refl _ s)

theorem State.beginFrame_only (s : State) (n k frame : Nat) (launch : Option Launch) (notify : Option Nat) :
    Keeps (maskOf [.prt, .regs .port]) s (s.beginFrame n k frame launch notify) := by
  rw [State.beginFrame_eq]
  exact ((s.padCounted_only n frame).mono (by decide)).trans ((State.setPort_only _ n _).mono (by decide))

theorem State.beginFrame_port (s : State) (n k frame : Nat) (launch : Option Launch) (notify : Option Nat) :
    (s.beginFrame n k frame launch notify).port n = s.txBegun n k frame launch notify := by
  rw [State.beginFrame_eq, State.port_setPort]

theorem State.rg_beginFrame (s : State) (n k frame : Nat) (launch : Option Launch) (notify : Option Nat) {r : Reg}
    (h : Reg.PRT_TX_PAD ≠ r) (i : Nat) : (s.beginFrame n k frame launch notify).rg r i = s.rg r i := by
  rw [State.beginFrame_eq, (State.setPort_only _ _ _).rg (by cases r <;> decide)]
  split
  · exact s.rg_bump_other h n i
  · rfl

/-! ### TX_FRAME_START (R205, R210) -/

/-- Whether a line instant has been reached by the end of the tick. -/
def State.lineDue (s : State) (x : Nat) : Bool := decide ((lineRound x).count * 2 ^ 24 < s.tickEnd56)

/-- The head frame that a port would begin next, with its start. -/
structure TxHead (s : State) (n : Nat) (x : TxItem) (k : Nat) : Prop where
  link : s.linkUp n = true
  next : s.txNext n = some (x, k)

/-- The start of a launch point of a port. -/
def State.txStartAt (s : State) (n k : Nat) : Nat := (s.lineMode n).start (s.port n).phase k

/-- A port's queue without a frame. -/
def State.dequeued (s : State) (n frame : Nat) : State :=
  s.setPort n { (s.port n) with q := (s.port n).q.filter (fun y => decide (y.frame ≠ frame)) }

/-- A head frame marked as held back by a guard band, and counted. -/
def State.guardHeld (s : State) (n frame : Nat) : State :=
  (s.bump .PRT_GUARD_HOLD n).setPort n
    { (s.port n) with q := (s.port n).q.map (fun y => if y.frame = frame then { y with held := true } else y) }

section
variable {s : State} {n k : Nat} {x : TxItem} (h : TxHead s n x k)
include h

theorem TxHead.txStart_early (hd : s.lineDue (s.txStartAt n k) = false) : s.txStart n = s := by
  obtain ⟨link, next⟩ := h
  unfold State.lineDue State.txStartAt at hd
  unfold State.txStart
  simp only [link, next, hd, Bool.not_true, Bool.not_false, Bool.false_eq_true, if_false, if_true]

theorem TxHead.txStart_held (hd : s.lineDue (s.txStartAt n k) = true) (hg : s.inGuard n (s.txStartAt n k) = true) (hx : x.held = false) :
    s.txStart n = s.guardHeld n x.frame := by
  obtain ⟨link, next⟩ := h
  unfold State.lineDue State.txStartAt at hd
  unfold State.txStartAt at hg
  unfold State.txStart
  simp only [link, next, hd, hg, hx, Bool.not_true, Bool.false_eq_true, if_false, if_true]
  rfl

theorem TxHead.txStart_begins (hd : s.lineDue (s.txStartAt n k) = true) (hg : s.inGuard n (s.txStartAt n k) = false) :
    s.txStart n = (s.dequeued n x.frame).beginFrame n k x.frame none x.notify := by
  obtain ⟨link, next⟩ := h
  unfold State.lineDue State.txStartAt at hd
  unfold State.txStartAt at hg
  unfold State.txStart
  simp only [link, next, hd, hg, Bool.not_true, Bool.false_eq_true, if_false]
  rfl

end

theorem exec_txFrameStart {s : State} (n : Fin 64) (h : s.coreUp = true) : exec (.txFrameStart n) s = .next (s.txStart n.val) :=
  congrArg Host.Outcome.next (State.act_pos _ h)

theorem txFrameStart_held {s : State} {n : Fin 64} {x : TxItem} {k : Nat} (hc : s.coreUp = true) (h : TxHead s n.val x k)
    (hd : s.lineDue (s.txStartAt n.val k) = true) (hg : s.inGuard n.val (s.txStartAt n.val k) = true) (hx : x.held = false) :
    Does (.txFrameStart n) s [.prt, .regs .port] (fun t => t.rg .PRT_GUARD_HOLD n.val = s.rg .PRT_GUARD_HOLD n.val + 1 ∧
      (t.port n.val).tx = (s.port n.val).tx) := by
  have hb := s.bump_only (r := .PRT_GUARD_HOLD) (by decide) n.val
  have hp := (s.bump .PRT_GUARD_HOLD n.val).setPort_only n.val
    { (s.port n.val) with q := (s.port n.val).q.map (fun y => if y.frame = x.frame then { y with held := true } else y) }
  refine does_of_keeps ((exec_txFrameStart n hc).trans (congrArg Host.Outcome.next (h.txStart_held hd hg hx)))
    ((hb.mono (by decide)).trans (hp.mono (by decide))) ⟨(hp.rg (by decide) _).trans (s.rg_bump_same _ _), ?_⟩
  rw [State.guardHeld, State.port_setPort]

theorem txFrameStart_begins {s : State} {n : Fin 64} {x : TxItem} {k : Nat} {f : Frame} (hc : s.coreUp = true) (h : TxHead s n.val x k)
    (hd : s.lineDue (s.txStartAt n.val k) = true) (hg : s.inGuard n.val (s.txStartAt n.val k) = false) (hf : s.frame x.frame = some f) :
    Does (.txFrameStart n) s [.prt, .regs .port] (fun t =>
      let sent := padFrame (s.frameData f)
      let ends := (s.lineMode n.val).ends (s.port n.val).phase k (sent.length + 4)
      (t.port n.val).line = sent ++ fcsOf sent ∧ (t.port n.val).free = ends.2 ∧
        (t.port n.val).q = (s.port n.val).q.filter (fun y => decide (y.frame ≠ x.frame)) ∧
        (t.port n.val).tx = (s.port n.val).tx ++
          [⟨x.frame, none, x.notify, lineRound ((s.lineMode n.val).point (s.port n.val).phase k), ends.1⟩]) := by
  refine does_of_keeps ((exec_txFrameStart n hc).trans (congrArg Host.Outcome.next (h.txStart_begins hd hg)))
    (((s.setPort_only n.val _).mono (by decide)).trans (State.beginFrame_only _ _ _ _ _ _)) ?_
  have hdata : (s.dequeued n.val x.frame).txData x.frame = s.frameData f := by
    unfold State.txData
    rw [show (s.dequeued n.val x.frame).frame x.frame = some f from hf]
    exact (s.setPort_only n.val _).octets (by decide) _ _
  have hport : (s.dequeued n.val x.frame).port n.val =
      { (s.port n.val) with q := (s.port n.val).q.filter (fun y => decide (y.frame ≠ x.frame)) } := State.port_setPort _ _ _
  have hmode : (s.dequeued n.val x.frame).lineMode n.val = s.lineMode n.val := rfl
  dsimp only
  rw [State.beginFrame_port, State.txBegun, hdata, hport, hmode]
  exact ⟨rfl, rfl, rfl, rfl⟩

end Sys2Proof.Machine
end

section
/-!
The end of a frame on the line, launches decided, and the port's statement (R83, R206, R209).
-/
namespace Sys2Proof.Machine

/-! ### TX_FRAME_END (R83, R206) -/

/-- A port whose head frame has left: the event counted, the frame freed, its departure kept for PTSB. -/
def State.txLeft (s : State) (n : Nat) (x : TxNow) (rest : List TxNow) : State :=
  let u := s.pmcCluster (n / 4) (if x.launch.isSome then 0x48 else 0x47) (some n)
  (u.setPort n { (u.port n) with tx := rest }).sentFrame x.frame n (some x.stamp)

/-- What a frame that left leaves behind. -/
structure TxGone (s t : State) (n : Nat) (x : TxNow) (rest : List TxNow) : Prop where
  frame : t.frame x.frame = none
  tx    : (t.port n).tx = rest
  sent  : SMap.find t.prt.sent x.frame = some (n, some x.stamp)
  kept  : Keeps (maskOf (counting ++ [.frames, .prt])) s t

theorem State.txLeft_gone (s : State) (n : Nat) (x : TxNow) (rest : List TxNow) : TxGone s (s.txLeft n x rest) n x rest := by
  have hk := s.pmcCluster_only (n / 4) (if x.launch.isSome then 0x48 else 0x47) (some n)
  unfold State.txLeft
  generalize s.pmcCluster (n / 4) (if x.launch.isSome then 0x48 else 0x47) (some n) = u at hk
  have hp := (hk.mono (b := maskOf (counting ++ [.frames, .prt])) (by decide)).trans
    ((u.setPort_only n { (u.port n) with tx := rest }).mono (by decide))
  exact ⟨SMap.find_erase_same _ _, congrArg Port.tx (State.port_setPort u n { (u.port n) with tx := rest }),
    SMap.find_insert_same _ _ _ _, State.sentFrame_keeps hp (by decide) _ _ _⟩

theorem TxGone.keeps {s t u : State} {n : Nat} {x : TxNow} {rest : List TxNow} {m : Nat} (h : TxGone s t n x rest) (hk : Keeps m t u)
    (hf : m.testBit (Part.frames).num = false) (hp : m.testBit (Part.prt).num = false) :
    u.frame x.frame = none ∧ (u.port n).tx = rest ∧ SMap.find u.prt.sent x.frame = some (n, some x.stamp) := by
  obtain ⟨frame, tx, sent, -⟩ := h
  refine ⟨?_, ?_, ?_⟩
  · rw [State.frame, hk.same .frames hf]
    exact frame
  · rw [port_congr (hk.same .prt hp)]
    exact tx
  · rw [hk.same .prt hp]
    exact sent

/-- The head frame of a port's line, the frames behind it, its end reached. -/
structure TxDue (s : State) (n : Nat) (x : TxNow) (rest : List TxNow) : Prop where
  head : (s.port n).tx = x :: rest
  due  : s.lineDue x.end_ = true

theorem State.txEnd_early {s : State} {n : Nat} {x : TxNow} {rest : List TxNow} (h : (s.port n).tx = x :: rest)
    (hd : s.lineDue x.end_ = false) : s.txEnd n = s := by
  unfold State.lineDue at hd
  unfold State.txEnd
  simp only [h, hd, Bool.not_false, if_true]

section
variable {s : State} {n : Nat} {x : TxNow} {rest : List TxNow} (h : TxDue s n x rest)
include h

theorem TxDue.txEnd_launch {l : Launch} (hl : x.launch = some l) : s.txEnd n =
    (s.txLeft n x rest).notify l.thread ((s.txLeft n x rest).mkNotice .launched 0 x.frame l.instant 4 n) := by
  obtain ⟨head, due⟩ := h
  unfold State.lineDue at due
  unfold State.txEnd State.txLeft
  simp only [head, due, hl, Bool.not_true, Bool.false_eq_true, if_false]

theorem TxDue.txEnd_plain (hl : x.launch = none) (hn : x.notify = none) : s.txEnd n = (s.txLeft n x rest).bump .PRT_TX_OK n := by
  obtain ⟨head, due⟩ := h
  unfold State.lineDue at due
  unfold State.txEnd State.txLeft
  simp only [head, due, hl, hn, Bool.not_true, Bool.false_eq_true, if_false]

theorem TxDue.txEnd_notify {th : Nat} (hl : x.launch = none) (hn : x.notify = some th) : s.txEnd n =
    let u := ((s.txLeft n x rest).bump .PRT_TX_OK n).unreserve th
    u.notify th (u.mkNotice .sentTs 0 x.frame x.stamp 4 n) := by
  obtain ⟨head, due⟩ := h
  unfold State.lineDue at due
  unfold State.txEnd State.txLeft
  simp only [head, due, hl, hn, Bool.not_true, Bool.false_eq_true, if_false]

end

theorem exec_txFrameEnd {s : State} (n : Fin 64) (h : s.coreUp = true) : exec (.txFrameEnd n) s = .next (s.txEnd n.val) :=
  congrArg Host.Outcome.next (State.act_pos _ h)

theorem txFrameEnd_plain {s : State} {n : Fin 64} {x : TxNow} {rest : List TxNow} (hc : s.coreUp = true) (h : TxDue s n.val x rest)
    (hl : x.launch = none) (hn : x.notify = none) :
    Does (.txFrameEnd n) s (counting ++ [.frames, .prt, .regs .port]) (fun t => t.frame x.frame = none ∧ (t.port n.val).tx = rest ∧
      t.rg .PRT_TX_OK n.val = s.rg .PRT_TX_OK n.val + 1 ∧ SMap.find t.prt.sent x.frame = some (n.val, some x.stamp)) := by
  have hx := (exec_txFrameEnd n hc).trans (congrArg Host.Outcome.next (h.txEnd_plain hl hn))
  have hgone := s.txLeft_gone n.val x rest
  generalize s.txLeft n.val x rest = u at hx hgone
  have hb := u.bump_only (r := .PRT_TX_OK) (by decide) n.val
  obtain ⟨frame, tx, sent⟩ := hgone.keeps hb (by decide) (by decide)
  refine does_of_keeps hx ((hgone.kept.mono (by decide)).trans (hb.mono (by decide))) ⟨frame, tx, ?_, sent⟩
  rw [State.rg_bump_same, hgone.kept.rg (by decide)]

theorem txFrameEnd_notify {s : State} {n : Fin 64} {x : TxNow} {rest : List TxNow} {th : Nat} (hc : s.coreUp = true)
    (h : TxDue s n.val x rest) (hl : x.launch = none) (hn : x.notify = some th) (hr : (s.thread th).st = .ready) :
    Does (.txFrameEnd n) s (notifying ++ [.frames, .prt, .regs .port]) (fun t => t.frame x.frame = none ∧
      ∃ k ∈ (t.thread th).notices, k.kind = .sentTs ∧ k.handle = BitVec.ofNat 32 x.frame ∧ k.instant = x.stamp) := by
  have hx := (exec_txFrameEnd n hc).trans (congrArg Host.Outcome.next (h.txEnd_notify hl hn))
  have hgone := s.txLeft_gone n.val x rest
  generalize s.txLeft n.val x rest = u at hx hgone
  have hb := u.bump_only (r := .PRT_TX_OK) (by decide) n.val
  have hth : (u.bump .PRT_TX_OK n.val).thread th = s.thread th := (hb.thread (by decide) th).trans (hgone.kept.thread (by decide) th)
  generalize u.bump .PRT_TX_OK n.val = v at hx hb hth
  have hu : Keeps (maskOf [.threads]) v (v.unreserve th) := State.setThread_keeps (Keeps.refl _ v) (by decide) _ _
  have hready : ((v.unreserve th).thread th).st = .ready := by
    refine (congrArg Thread.st (State.thread_setThread_same _ _ _)).trans ?_
    rw [← hr, ← hth]
  obtain ⟨hin, hnote⟩ := State.notify_delivers hready ((v.unreserve th).mkNotice .sentTs 0 x.frame x.stamp 4 n.val)
  have hk := ((hb.mono (b := maskOf [.threads, .regs .port]) (by decide)).trans (hu.mono (by decide))).trans (hnote.mono (by decide))
  obtain ⟨frame, -, -⟩ := hgone.keeps hk (by decide) (by decide)
  exact does_of_keeps hx ((hgone.kept.mono (by decide)).trans (hk.mono (by decide))) ⟨frame, _, hin, rfl, rfl, rfl⟩

theorem txFrameEnd_launch {s : State} {n : Fin 64} {x : TxNow} {rest : List TxNow} {l : Launch} (hc : s.coreUp = true)
    (h : TxDue s n.val x rest) (hl : x.launch = some l) (hr : (s.thread l.thread).st = .ready) :
    Does (.txFrameEnd n) s (notifying ++ [.frames, .prt, .regs .port]) (fun t => t.frame x.frame = none ∧
      ∃ k ∈ (t.thread l.thread).notices, k.kind = .launched ∧ k.handle = BitVec.ofNat 32 x.frame ∧ k.instant = l.instant) := by
  have hx := (exec_txFrameEnd n hc).trans (congrArg Host.Outcome.next (h.txEnd_launch hl))
  have hgone := s.txLeft_gone n.val x rest
  generalize s.txLeft n.val x rest = u at hx hgone
  have hready : (u.thread l.thread).st = .ready := by rw [hgone.kept.thread (by decide), hr]
  obtain ⟨hin, hnote⟩ := State.notify_delivers hready (u.mkNotice .launched 0 x.frame l.instant 4 n.val)
  obtain ⟨frame, -, -⟩ := hgone.keeps hnote (by decide) (by decide)
  exact does_of_keeps hx ((hgone.kept.mono (by decide)).trans (hnote.mono (by decide))) ⟨frame, _, hin, rfl, rfl, rfl⟩

/-! ### LAUNCH_DECIDE (R209) -/

theorem exec_launchDecide {s : State} (n : Fin 64) (h : s.coreUp = true) : exec (.launchDecide n) s = .next (s.launchDecide n.val) :=
  congrArg Host.Outcome.next (State.act_pos _ h)

/-- A launch taken off the timeline and off the list of launches. -/
def State.launchOff (s : State) (slot : Nat) : State := { (s.freeSlot slot true) with launches := SMap.erase s.launches slot }

theorem State.launchOff_keeps (s : State) (slot : Nat) : Keeps (maskOf [.timeline, .launches, .regs .datum]) s (s.launchOff slot) :=
  ((s.freeSlot_only slot true).mono (by decide)).trans ((State.setLaunches_keeps _ _).mono (by decide))

theorem State.launchOff_slot (s : State) (slot : Nat) : ((s.launchOff slot).slot slot).armed = none :=
  congrArg Slot.armed (s.slot_freeSlot_same slot)

theorem State.launchOff_find (s : State) (slot : Nat) : SMap.find (s.launchOff slot).launches slot = none := SMap.find_erase_same _ _

/-- What stands of a launch taken off, through what reaches neither the timeline nor the launches. -/
theorem State.launchOff_stands (s : State) (slot : Nat) {m : Nat} {t : State} (hk : Keeps m (s.launchOff slot) t)
    (ht : m.testBit (Part.timeline).num = false) (hl : m.testBit (Part.launches).num = false) :
    SMap.find t.launches slot = none ∧ (t.slot slot).armed = none := by
  refine ⟨?_, ?_⟩
  · rw [hk.same .launches hl]
    exact s.launchOff_find slot
  · rw [slot_congr (hk.same .timeline ht)]
    exact s.launchOff_slot slot

/-- The count of a launch that did not start, and the line kept free up to its start. -/
def State.launchCounted (s : State) (n : Nat) (l : Launch) (st : Status) : State :=
  (s.launchMissed n st).setPort n { (s.port n) with free := Nat.max (s.port n).free l.start }

/-- A launch whose start is due. -/
structure LaunchDue (s : State) (n : Nat) (l : Launch) : Prop where
  next : s.nextLaunch n = some l
  due  : s.lineDue l.start = true

theorem State.launchDecide_early {s : State} {n : Nat} {l : Launch} (h : s.nextLaunch n = some l) (hd : s.lineDue l.start = false) :
    s.launchDecide n = s := by
  unfold State.lineDue at hd
  unfold State.launchDecide
  simp only [h, hd, Bool.not_false, if_true]

theorem LaunchDue.launchDecide_starts {s : State} {n : Nat} {l : Launch} (h : LaunchDue s n l) (ho : s.launchOutcome l = none) :
    s.launchDecide n = ((s.launchOff l.slot).bump .PRT_LAUNCH_OK n).beginFrame n l.point l.frame (some l) none := by
  obtain ⟨next, due⟩ := h
  unfold State.lineDue at due
  unfold State.launchDecide
  simp only [next, due, ho, Bool.not_true, Bool.false_eq_true, if_false]
  rfl

theorem LaunchDue.launchDecide_fails {s : State} {n : Nat} {l : Launch} {st : Status} (h : LaunchDue s n l)
    (ho : s.launchOutcome l = some st) : s.launchDecide n = ((s.launchCounted n l st).launchOff l.slot).returnLaunch l st := by
  obtain ⟨next, due⟩ := h
  unfold State.lineDue at due
  unfold State.launchDecide
  simp only [next, due, ho, Bool.not_true, Bool.false_eq_true, if_false]
  rfl

/-- A launch that starts. -/
theorem launchDecide_starts {s : State} {n : Fin 64} {l : Launch} (hc : s.coreUp = true) (h : LaunchDue s n.val l)
    (ho : s.launchOutcome l = none) :
    Does (.launchDecide n) s [.timeline, .launches, .prt, .regs .port, .regs .datum] (fun t =>
      t.rg .PRT_LAUNCH_OK n.val = s.rg .PRT_LAUNCH_OK n.val + 1 ∧ SMap.find t.launches l.slot = none ∧ (t.slot l.slot).armed = none ∧
        ∃ x, (t.port n.val).tx = (s.port n.val).tx ++ [x] ∧ x.frame = l.frame ∧ x.launch = some l ∧
          x.stamp = lineRound ((s.lineMode n.val).point (s.port n.val).phase l.point)) := by
  have hx := (exec_launchDecide n hc).trans (congrArg Host.Outcome.next (h.launchDecide_starts ho))
  have hoff := s.launchOff_keeps l.slot
  have hb := (s.launchOff l.slot).bump_only (r := .PRT_LAUNCH_OK) (by decide) n.val
  have hbegin := ((s.launchOff l.slot).bump .PRT_LAUNCH_OK n.val).beginFrame_only n.val l.point l.frame (some l) none
  have hrest := (hb.mono (b := maskOf [.prt, .regs .port]) (by decide)).trans hbegin
  obtain ⟨hfind, hslot⟩ := s.launchOff_stands l.slot hrest (by decide) (by decide)
  have hport : ((s.launchOff l.slot).bump .PRT_LAUNCH_OK n.val).port n.val = s.port n.val :=
    (port_congr (hb.same .prt (by decide)) _).trans (port_congr (hoff.same .prt (by decide)) _)
  have hcfg : ((s.launchOff l.slot).bump .PRT_LAUNCH_OK n.val).rg .PRT_CFG n.val = s.rg .PRT_CFG n.val :=
    (State.rg_bump_other _ (by decide) _ _).trans (hoff.rg (by decide) _)
  have hmode : ((s.launchOff l.slot).bump .PRT_LAUNCH_OK n.val).lineMode n.val = s.lineMode n.val := by
    unfold State.lineMode
    rw [State.fd_congr (f := Fld.PRT_CFG.MODE) hcfg, State.fb_congr (f := Fld.PRT_CFG.FEC) hcfg]
  refine does_of_keeps hx ((hoff.mono (by decide)).trans (hrest.mono (by decide))) ⟨?_, hfind, hslot, ?_⟩
  · rw [State.rg_beginFrame _ _ _ _ _ _ (by decide), State.rg_bump_same, hoff.rg (by decide)]
  · rw [State.beginFrame_port, State.txBegun, hport, hmode]
    exact ⟨_, rfl, rfl, rfl, rfl⟩

/-! ### Launches that fail -/

/-- The counts of launches that did not start, one more for a reason. -/
structure LaunchMisses (s t : State) (n : Nat) (st : Status) : Prop where
  lost   : st = .lost → t.rg .PRT_LAUNCH_LOST n = s.rg .PRT_LAUNCH_LOST n + 1
  paused : st = .paused → t.rg .PRT_LAUNCH_PAUSED n = s.rg .PRT_LAUNCH_PAUSED n + 1
  busy   : st = .busy → t.rg .PRT_LAUNCH_COLL n = s.rg .PRT_LAUNCH_COLL n + 1

theorem State.launchMissed_misses (s : State) (n : Nat) (st : Status) : LaunchMisses s (s.launchMissed n st) n st := by
  refine ⟨?_, ?_, ?_⟩ <;> rintro rfl <;> exact s.rg_bump_same _ _

theorem LaunchMisses.keeps {s t u : State} {n m : Nat} {st : Status} (h : LaunchMisses s t n st) (hk : Keeps m t u)
    (hm : m.testBit (Part.regs .port).num = false) : LaunchMisses s u n st := by
  obtain ⟨lost, paused, busy⟩ := h
  exact ⟨fun hs => (hk.rg (r := .PRT_LAUNCH_LOST) hm n).trans (lost hs), fun hs => (hk.rg (r := .PRT_LAUNCH_PAUSED) hm n).trans (paused hs),
    fun hs => (hk.rg (r := .PRT_LAUNCH_COLL) hm n).trans (busy hs)⟩

theorem State.launchCounted_keeps (s : State) (n : Nat) (l : Launch) (st : Status) :
    Keeps (maskOf [.prt, .regs .port]) s (s.launchCounted n l st) :=
  State.setPort_keeps (State.launchMissed_keeps (Keeps.refl _ s) (by decide) n st) (by decide) n _

theorem State.launchCounted_tx (s : State) (n : Nat) (l : Launch) (st : Status) : ((s.launchCounted n l st).port n).tx = (s.port n).tx := by
  rw [State.launchCounted, State.port_setPort]

/-- The frame of a launch returned to its thread: unfrozen, without records. -/
def Launch.returned (l : Launch) (f : Frame) : Frame := { f with frozen := false, times := [], bounds := [], holder := some l.thread }

theorem State.returnLaunch_eq {s : State} {l : Launch} {f : Frame} (st : Status) (h : s.frame l.frame = some f) : s.returnLaunch l st =
    (s.setFrame l.frame (l.returned f)).notify l.thread
      ((s.setFrame l.frame (l.returned f)).mkNotice .launchFailed st.code l.frame l.instant 4 l.port) := by
  unfold State.returnLaunch
  rw [h]
  rfl

/-- What returning a launch to a READY thread leaves. -/
theorem State.returnLaunch_ready {s : State} {l : Launch} {f : Frame} (st : Status) (h : s.frame l.frame = some f)
    (hr : (s.thread l.thread).st = .ready) :
    (s.returnLaunch l st).frame l.frame = some (l.returned f) ∧
      (∃ k ∈ ((s.returnLaunch l st).thread l.thread).notices, k.kind = .launchFailed ∧ k.status = st.code ∧
        k.handle = BitVec.ofNat 32 l.frame) ∧ Keeps (maskOf [.threads, .frames]) s (s.returnLaunch l st) := by
  rw [State.returnLaunch_eq st h]
  have hset : Keeps (maskOf [.frames]) s (s.setFrame l.frame (l.returned f)) := State.setFrame_keeps (Keeps.refl _ s) (by decide) _ _
  have hready : ((s.setFrame l.frame (l.returned f)).thread l.thread).st = .ready := by rw [hset.thread (by decide), hr]
  obtain ⟨hin, hnote⟩ := State.notify_delivers hready
    ((s.setFrame l.frame (l.returned f)).mkNotice .launchFailed st.code l.frame l.instant 4 l.port)
  refine ⟨?_, ⟨_, hin, rfl, rfl, rfl⟩, (hset.mono (by decide)).trans (hnote.mono (by decide))⟩
  rw [State.frame, hnote.same .frames (by decide)]
  exact SMap.find_insert_same _ _ _ _

/-- A launch that fails. -/
theorem launchDecide_fails {s : State} {n : Fin 64} {l : Launch} {st : Status} {f : Frame} (hc : s.coreUp = true) (h : LaunchDue s n.val l)
    (ho : s.launchOutcome l = some st) (hf : s.frame l.frame = some f) (hr : (s.thread l.thread).st = .ready) :
    Does (.launchDecide n) s (notifying ++ [.frames, .launches, .prt, .regs .port]) (fun t =>
      (SMap.find t.launches l.slot = none ∧ (t.slot l.slot).armed = none) ∧ (t.port n.val).tx = (s.port n.val).tx ∧
        t.frame l.frame = some (l.returned f) ∧ LaunchMisses s t n.val st ∧
        ∃ k ∈ (t.thread l.thread).notices, k.kind = .launchFailed ∧ k.status = st.code ∧ k.handle = BitVec.ofNat 32 l.frame) := by
  have hx := (exec_launchDecide n hc).trans (congrArg Host.Outcome.next (h.launchDecide_fails ho))
  have hcounted := s.launchCounted_keeps n.val l st
  have htx := s.launchCounted_tx n.val l st
  have hmiss : LaunchMisses s (s.launchCounted n.val l st) n.val st :=
    (s.launchMissed_misses n.val st).keeps (State.setPort_only _ _ _) (by decide)
  generalize s.launchCounted n.val l st = u at hx hcounted htx hmiss
  have hoff := u.launchOff_keeps l.slot
  have hframe : (u.launchOff l.slot).frame l.frame = some f := by
    rw [State.frame, hoff.same .frames (by decide), hcounted.same .frames (by decide)]
    exact hf
  have hready : ((u.launchOff l.slot).thread l.thread).st = .ready := by
    rw [hoff.thread (by decide), hcounted.thread (by decide), hr]
  obtain ⟨hreturned, hnotice, hback⟩ := State.returnLaunch_ready st hframe hready
  refine does_of_keeps hx (((hcounted.mono (by decide)).trans (hoff.mono (by decide))).trans (hback.mono (by decide)))
    ⟨u.launchOff_stands l.slot hback (by decide) (by decide), ?_, hreturned, (hmiss.keeps hoff (by decide)).keeps hback (by decide), hnotice⟩
  rw [port_congr (hback.same .prt (by decide)), port_congr (hoff.same .prt (by decide)), htx]

/-! ### The statement -/

theorem State.lineDue_eq_false {s : State} {x : Nat} (h : s.tickEnd56 ≤ (lineRound x).count * 2 ^ 24) : s.lineDue x = false :=
  decide_eq_false (Nat.not_lt.2 h)

theorem State.lineDue_eq_true {s : State} {x : Nat} (h : (lineRound x).count * 2 ^ 24 < s.tickEnd56) : s.lineDue x = true :=
  decide_eq_true h

/-- Settles O43: each event of a port by the branch that its premises pick. -/
theorem portFrameCommands : Obligations.PortFrameCommands := by
  unfold Obligations.PortFrameCommands
  intro s n data bad a trx i p m body sound stamp moved placed hc
  refine ⟨fun hl => ⟨fun hlen => ?_, fun h63 hmax => ?_, fun hs hb => ?_, fun hs hb hfcs => ?_⟩, fun x hrx hlen hm hr hfree => ?_,
    fun hl x k hx => ?_, fun x rest htx => ?_, fun l hnext => ?_⟩
  · exact does_bump ((exec_frameReceive n data bad a trx hc).trans (congrArg Host.Outcome.next (State.frameIn_runt hl hlen bad a trx)))
      (by decide)
  · exact does_bump ((exec_frameReceive n data bad a trx hc).trans
      (congrArg Host.Outcome.next (State.frameIn_oversize hl h63 hmax bad a trx))) (by decide)
  · have hsize : FrameSized s n.val data := ⟨hl, hs.1, hs.2⟩
    exact does_bump ((exec_frameReceive n data bad a trx hc).trans (congrArg Host.Outcome.next (hsize.frameIn_fcs hb a trx))) (by decide)
  · subst hb
    have hgood : FrameGood s n.val data := ⟨⟨hl, hs.1, hs.2⟩, hfcs⟩
    refine ⟨fun k hk => frameReceive_flow hc hgood hk a trx, fun hk hf => frameReceive_overflow hc hgood hk hf a trx, fun hk he hf => ?_⟩
    refine ⟨frameReceive_drop hc hgood hk he hf a trx, fun hm hr hfree => ?_⟩
    have hbound : RxBound s n.val (rxClass (frameBody data)) := ⟨hm, hr, hfree⟩
    refine ⟨fun c hcell => ?_, frameReceive_waits hc hgood hk he hf a trx hbound⟩
    obtain ⟨t, ht, ⟨hok, ⟨octets, frame, notice, popped⟩⟩, honly⟩ := frameReceive_placed hc hgood hk he hf a trx hbound hcell
    exact ⟨t, ht, ⟨hok, popped, octets, ⟨_, frame, rfl, rfl, rfl, rfl, rfl, rfl, rfl, rfl⟩, notice⟩, honly.mono (by decide)⟩
  · have htaken : RxTaken s n.val x := ⟨hrx, hm, hr, hfree⟩
    refine ⟨fun c hcell => ?_, frameToPool_waits hc htaken⟩
    obtain ⟨t, ht, ⟨octets, frame, notice, popped⟩, honly⟩ := frameToPool_placed hc htaken hlen hcell
    exact ⟨t, ht, ⟨popped, octets, ⟨_, frame, rfl, rfl, rfl, rfl, rfl, rfl, rfl, rfl⟩, notice⟩, honly.mono (by decide)⟩
  · have hhead : TxHead s n.val x k := ⟨hl, hx⟩
    refine ⟨fun early => ?_, fun due => ⟨fun hg hheld => ?_, fun hg f hf => ?_⟩⟩
    · exact does_nothing ((exec_txFrameStart n hc).trans (congrArg Host.Outcome.next (hhead.txStart_early (State.lineDue_eq_false early))))
    · exact txFrameStart_held hc hhead (State.lineDue_eq_true due) hg hheld
    · exact txFrameStart_begins hc hhead (State.lineDue_eq_true due) hg hf
  · refine ⟨fun early => ?_, fun due => ?_⟩
    · exact does_nothing ((exec_txFrameEnd n hc).trans (congrArg Host.Outcome.next (State.txEnd_early htx (State.lineDue_eq_false early))))
    · have hdue : TxDue s n.val x rest := ⟨htx, State.lineDue_eq_true due⟩
      exact ⟨txFrameEnd_plain hc hdue, fun th hlaunch hnotify hr => txFrameEnd_notify hc hdue hlaunch hnotify hr,
        fun l hlaunch hr => txFrameEnd_launch hc hdue hlaunch hr⟩
  · refine ⟨fun early => ?_, fun due => ?_⟩
    · exact does_nothing ((exec_launchDecide n hc).trans
        (congrArg Host.Outcome.next (State.launchDecide_early hnext (State.lineDue_eq_false early))))
    · have hdue : LaunchDue s n.val l := ⟨hnext, State.lineDue_eq_true due⟩
      refine ⟨launchDecide_starts hc hdue, fun st f ho hf hr => ?_⟩
      obtain ⟨t, ht, ⟨⟨find, slot⟩, tx, frame, ⟨lost, paused, busy⟩, notice⟩, honly⟩ := launchDecide_fails hc hdue ho hf hr
      exact ⟨t, ht, ⟨find, slot, tx, frame, lost, paused, busy, notice⟩, honly⟩

end Sys2Proof.Machine
end

section
/-!
The interval counter bank (R89, R90): its channels, fields of a masked word, and the host's writes of the bank.
-/
namespace Sys2Proof.Machine

/-! ### Channels -/

theorem tch_congr {s t : State} (h : t.tic = s.tic) (n : Nat) : t.tch n = s.tch n :=
  congrArg (fun c : TicState => SMap.get (fun _ => TicChan.reset) c.ch n) h

@[simp] theorem State.tch_setTch_same (s : State) (n : Nat) (c : TicChan) : (s.setTch n c).tch n = c := SMap.get_set_same _ _ _ _ _

theorem State.tch_setTch_other (s : State) {n k : Nat} (c : TicChan) (h : k ≠ n) : (s.setTch n c).tch k = s.tch k :=
  SMap.get_set_other _ _ _ _ _ _ h

theorem State.setTch_only (s : State) (n : Nat) (c : TicChan) : Keeps (maskOf [.tic]) s (s.setTch n c) :=
  State.setTch_keeps (Keeps.refl _ s) (by decide) n c

/-! ### Fields of a masked word -/

theorem Fld.of_eq_extract (f : Fld) (v : BitVec 32) : f.of v = (v.extractLsb' f.lo (f.hi - f.lo + 1)).toNat := by
  rw [BitVec.extractLsb'_toNat, Nat.shiftRight_eq_div_pow]
  rfl

/-- Two words that agree under a mask have the same fields there. -/
theorem Fld.of_masked (f : Fld) {x y m : BitVec 32} (h : x &&& m = y &&& m) (hf : f.lo ≤ f.hi)
    (hm : ∀ i < 32, f.lo ≤ i → i ≤ f.hi → m.getLsbD i = true) (h2 : f.hi < 32) : f.of x = f.of y := by
  rw [f.of_eq_extract, f.of_eq_extract]
  refine congrArg BitVec.toNat (BitVec.eq_of_getLsbD_eq fun i hi => ?_)
  have hb := congrArg (fun w => w.getLsbD (f.lo + i)) h
  simp only [BitVec.getLsbD_and, hm (f.lo + i) (by omega) (by omega) (by omega), Bool.and_true] at hb
  simp only [BitVec.getLsbD_extractLsb', hb]

/-- Fields that share no bit: they stand in two registers, or beside each other in one. -/
abbrev Fld.Apart (f g : Fld) : Prop :=
  f.lo ≤ f.hi ∧ f.hi < 32 ∧ g.lo ≤ g.hi ∧ (f.reg ≠ g.reg ∨ g.hi < f.lo ∨ f.hi < g.lo)

theorem State.fd_setF_apart (s : State) {f g : Fld} (h : f.Apart g) (n i j : Nat) : (s.setF f n i).fd g j = s.fd g j := by
  obtain ⟨h1, h2, h0, h3⟩ := h
  exact State.fd_setF_other s f g n i j h1 h2 h0 (h3.imp_right (Or.imp_right .inl))

theorem State.fd_setB_apart (s : State) {f g : Fld} (h : f.Apart g) (b : Bool) (i j : Nat) : (s.setB f b i).fd g j = s.fd g j :=
  s.fd_setF_apart h (bit01 b) i j

theorem State.fb_setB_apart (s : State) {f g : Fld} (h : f.Apart g) (b : Bool) (i j : Nat) : (s.setB f b i).fb g j = s.fb g j :=
  congrArg (fun n => decide (n = 1)) (s.fd_setB_apart h b i j)

/-- The bits of a register that can be written read what is written. -/
theorem State.rg_wrRw_masked (s : State) {r : Reg} (i : Nat) (v : BitVec 32) {m : BitVec 32}
    (h : BitVec.ofNat 32 (r.row.rw ||| r.row.rwg) = m) : (s.wrRw r i v).rg r i &&& m = v &&& m := by
  unfold State.wrRw
  dsimp only
  rw [State.rg_wr_same, h]
  simp [BitVec.and_or_distrib_right, BitVec.and_assoc]

/-- A bit set outside a mask is not seen through it. -/
theorem masked_or (v : BitVec 32) {b m : BitVec 32} (h : b &&& m = 0#32) : (v ||| b) &&& m = v &&& m := by
  rw [BitVec.and_or_distrib_right, h, BitVec.or_zero]

/-! ### Host writes of the bank -/

/-- A write of the interval counter bank. -/
theorem State.applyWrite_tic (s : State) {r : Reg} (i : Nat) (v : BitVec 32) (h0 : 0x110000 ≤ r.row.base) (h1 : r.row.base < 0x120000) :
    s.applyWrite .hostReg r i v = s.ticWrite r i v := by
  have hlow : ∀ n, n ≤ 0x110000 → ¬ r.row.base < n := fun n hn => Nat.not_lt.2 (hn.trans h0)
  unfold State.applyWrite
  simp only [reduceCtorEq, if_false, hlow 0x10000 (by decide), hlow 0x20000 (by decide), hlow 0x30000 (by decide), hlow 0x40000 (by decide),
    hlow 0x50000 (by decide), hlow 0x60000 (by decide), hlow 0x70000 (by decide), hlow 0x80000 (by decide), hlow 0x100000 (by decide),
    hlow 0x110000 (by decide), h1, if_true]

/-- A host write of an unguarded register of the bank that is taken acts as the bank says. -/
theorem State.hostRow_tic {s : State} {r : Reg} {i : Nat} (h : s.Takes r i) (v : BitVec 32) (h0 : 0x110000 ≤ r.row.base)
    (h1 : r.row.base < 0x120000) (hg : r.guarded i = false) (hr : r ≠ .MAT_PRIORITY) : s.hostRow r i v = s.ticWrite r i v := by
  rw [hostRow_takes v h, entered_plain hg hr, State.applyWrite_tic _ i v h0 h1]

theorem State.rg_ticAccept (s : State) {r : Reg} (hr : r ≠ .TIC_WSTAT) (i : Nat) : s.ticAccept.rg r i = s.rg r i :=
  State.rg_setB_other _ _ _ _ _ hr.symm

theorem State.ticAccept_accepts (s : State) : s.ticAccept.fb Fld.TIC_WSTAT.ACCEPT = true :=
  State.fb_setB_same _ _ _ _ (by decide) (by decide)

theorem State.ticAccept_only (s : State) : Keeps (maskOf [.regs .tic]) s s.ticAccept := State.ticAccept_keeps (Keeps.refl _ s) (by decide)

/-- A command whose whole effect is a write discarded for a field out of range. -/
theorem does_ticRange {c : Instr} {s : State} (h : exec c s = .next s.ticRange) :
    Does c s [.regs .tic] (fun t => (∀ r, r ≠ .TIC_WSTAT → ∀ i, t.rg r i = s.rg r i) ∧ t.fb Fld.TIC_WSTAT.RANGE = true) :=
  does_of_keeps h (State.ticRange_keeps (Keeps.refl _ s) (by decide))
    ⟨fun _ hr _ => State.rg_setB_other _ _ _ _ _ hr.symm, State.fb_setB_same _ _ _ _ (by decide) (by decide)⟩

/-- A register of the bank written and accepted. -/
def State.ticTaken (s : State) (r : Reg) (n : Nat) (v : BitVec 32) : State := (s.wrRw r n v).ticAccept

theorem State.ticTaken_only (s : State) {r : Reg} (hr : r.bit &&& maskOf [.regs .tic] = r.bit) (n : Nat) (v : BitVec 32) :
    Keeps (maskOf [.regs .tic]) s (s.ticTaken r n v) :=
  (State.wrRw_keeps (Keeps.refl _ s) (Nat.zero_and _) hr n v).trans (State.ticAccept_only _)

theorem State.rg_ticTaken_same (s : State) {r : Reg} (hr : r ≠ .TIC_WSTAT) (n : Nat) (v : BitVec 32) {m : BitVec 32}
    (h : BitVec.ofNat 32 (r.row.rw ||| r.row.rwg) = m) : (s.ticTaken r n v).rg r n &&& m = v &&& m := by
  unfold State.ticTaken
  rw [State.rg_ticAccept _ hr, State.rg_wrRw_masked s n v h]

theorem State.rg_ticTaken_other (s : State) {r q : Reg} (hq : q ≠ .TIC_WSTAT) (hr : r ≠ q) (n : Nat) (v : BitVec 32) (i : Nat) :
    (s.ticTaken r n v).rg q i = s.rg q i := (State.rg_ticAccept _ hq i).trans (State.rg_wr_other _ _ _ _ _ _ (.inl hr))

/-! ### The input conditioning -/

theorem exec_ticInWrite {s : State} {n : Fin 16} (h : s.Takes .TIC_IN n.val) (v : BitVec 32) :
    exec (.ticInWrite n v) s = .next (s.ticIn n.val v) :=
  congrArg Host.Outcome.next (State.hostRow_tic h v (by decide) (by decide) rfl (by decide))

/-- The channel after a change of its input: its next record is discontinuous, and its sequence restarts where the input is enabled. -/
def State.inChanged (s : State) (n : Nat) (v : BitVec 32) : TicChan :=
  { (s.tch n) with
    discont := true
    seq := if (s.ticTaken .TIC_IN n v).fb Fld.TIC_IN.EN n && !Fld.TIC_IN.EN.of (s.rg .TIC_IN n) = 1 then 0 else (s.tch n).seq }

theorem State.ticIn_taken {s : State} {v : BitVec 32} (n : Nat) (h : Fld.TIC_IN.PRESC.of v ≤ 12) : s.ticIn n v =
    if (s.ticTaken .TIC_IN n v).rg .TIC_IN n = s.rg .TIC_IN n then s.ticTaken .TIC_IN n v
    else (s.ticTaken .TIC_IN n v).setTch n (s.inChanged n v) := if_neg (Nat.not_lt.2 h)

theorem ticInWrite_taken {s : State} {n : Fin 16} (h : s.Takes .TIC_IN n.val) {v : BitVec 32} (hp : Fld.TIC_IN.PRESC.of v ≤ 12) :
    Does (.ticInWrite n v) s [.tic, .regs .tic] (fun t =>
      t.rg .TIC_IN n.val &&& 0x9C0F0000#32 = v &&& 0x9C0F0000#32 ∧ t.fb Fld.TIC_WSTAT.ACCEPT = true ∧
        (t.rg .TIC_IN n.val ≠ s.rg .TIC_IN n.val → (t.tch n.val).discont = true) ∧
        (t.rg .TIC_IN n.val = s.rg .TIC_IN n.val → t.tic = s.tic) ∧ ∀ m, m ≠ n.val → t.tch m = s.tch m) := by
  have hx := exec_ticInWrite h v
  have hk := s.ticTaken_only (r := .TIC_IN) (by decide) n.val v
  have hw := s.rg_ticTaken_same (r := .TIC_IN) (by decide) n.val v rfl
  have ha : (s.ticTaken .TIC_IN n.val v).fb Fld.TIC_WSTAT.ACCEPT = true := State.ticAccept_accepts _
  have ht : (s.ticTaken .TIC_IN n.val v).tic = s.tic := hk.same .tic (by decide)
  rw [State.ticIn_taken n.val hp] at hx
  generalize s.ticTaken .TIC_IN n.val v = u at hx hk hw ha ht
  by_cases he : u.rg .TIC_IN n.val = s.rg .TIC_IN n.val
  · rw [if_pos he] at hx
    exact does_of_keeps hx (hk.mono (by decide)) ⟨hw, ha, fun hne => absurd he hne, fun _ => ht, fun m _ => tch_congr ht m⟩
  · rw [if_neg he] at hx
    exact does_of_keeps hx ((hk.mono (by decide)).trans ((u.setTch_only _ _).mono (by decide)))
      ⟨hw, ha, fun _ => congrArg TicChan.discont (State.tch_setTch_same _ _ _), fun hq => absurd hq he,
        fun m hm => (State.tch_setTch_other _ _ hm).trans (tch_congr ht m)⟩

theorem ticInWrite_range {s : State} {n : Fin 16} (h : s.Takes .TIC_IN n.val) {v : BitVec 32} (hp : 12 < Fld.TIC_IN.PRESC.of v) :
    Does (.ticInWrite n v) s [.regs .tic] (fun t => t.rg .TIC_IN n.val = s.rg .TIC_IN n.val ∧ t.fb Fld.TIC_WSTAT.RANGE = true) := by
  obtain ⟨t, ht, ⟨hr, range⟩, only⟩ := does_ticRange ((exec_ticInWrite h v).trans (congrArg Host.Outcome.next (if_pos hp)))
  exact ⟨t, ht, ⟨hr _ (by decide) _, range⟩, only⟩

end Sys2Proof.Machine
end

section
/-!
Records of the user channels (R90 to R96, R105): a record delivered to its ring, and a plain edge converted.
-/
namespace Sys2Proof.Machine

/-! ### A record delivered to its ring (R90, R105) -/

/-- The ring of a channel takes a record: the channel is not over its frequency, the core die and its link are up, and the ring has a place
that is free. -/
structure RingRoom (s : State) (n : Nat) : Prop where
  calm  : s.fb Fld.TIC_STAT.OVERFREQ n = false
  core  : s.coreUp = true
  link  : s.d2dUp = true
  sized : s.fd Fld.TIC_RING_SZ.LOG2SZ n ≠ 0
  free  : (s.rg .TIC_PROD n - s.rg .TIC_CONS n).toNat < 2 ^ s.fd Fld.TIC_RING_SZ.LOG2SZ n

/-- The address of the next place of a channel's ring. -/
def State.ringPlace (s : State) (n : Nat) : Nat :=
  (s.tch n).base + (s.rg .TIC_PROD n).toNat % 2 ^ s.fd Fld.TIC_RING_SZ.LOG2SZ n * 32

theorem State.ticRingLine_only (s : State) (n : Nat) : Keeps (maskOf [.irq, .regs .irqStat]) s (s.ticRingLine n) :=
  State.ticRingLine_keeps (Keeps.refl _ s) (by decide) n

theorem RingRoom.ticDeliver_eq {s : State} {n : Nat} (h : RingRoom s n) (bytes : List Byte) :
    s.ticDeliver n bytes = ((s.storeMem (s.ringPlace n) bytes).bump .TIC_PROD n).ticRingLine n := by
  obtain ⟨calm, core, link, sized, free⟩ := h
  unfold State.ticDeliver
  dsimp only
  rw [if_neg (by simp [calm, core, link, sized]), if_neg (Nat.not_le.2 free)]
  rfl

/-- What a delivered record leaves: its octets in the ring's next place, PROD past it, and the channels and the bank's other registers as
they were. -/
structure Delivered (s t : State) (n : Nat) (bytes : List Byte) : Prop where
  stored : Stored s t (s.ringPlace n) bytes
  prod   : t.rg .TIC_PROD n = s.rg .TIC_PROD n + 1#32
  others : ∀ r, r.group = .tic → r ≠ .TIC_PROD → ∀ i, t.rg r i = s.rg r i
  tic    : t.tic = s.tic
  keeps  : Keeps (maskOf [.mem, .irq, .hst, .regs .irqStat, .regs .tic]) s t

theorem RingRoom.delivered {s : State} {n : Nat} (h : RingRoom s n) (bytes : List Byte) : Delivered s (s.ticDeliver n bytes) n bytes := by
  rw [h.ticDeliver_eq bytes]
  have hs := stored_storeMem s (s.ringPlace n) bytes
  have hm := s.storeMem_only (s.ringPlace n) bytes
  generalize s.storeMem (s.ringPlace n) bytes = u at hs hm
  have hb : Keeps (maskOf [.regs .tic]) u (u.bump .TIC_PROD n) := State.bump_keeps (Keeps.refl _ u) (Nat.zero_and _) (by decide) n
  have hl := (u.bump .TIC_PROD n).ticRingLine_only n
  refine ⟨hs.congr ((hl.same .mem (by decide)).trans (hb.same .mem (by decide))), ?_, fun r hr hp i => ?_, ?_, ?_⟩
  · rw [hl.rg (by decide), State.rg_bump_same, hm.rg (by decide)]
    rfl
  · have hbit : (maskOf [.irq, .regs .irqStat]).testBit (Part.regs r.group).num = false := by rw [hr]; decide
    have hmem : (maskOf [.mem, .hst]).testBit (Part.regs r.group).num = false := by rw [hr]; decide
    rw [hl.rg hbit, State.rg_bump_other _ hp.symm, hm.rg hmem]
  · exact (hl.same .tic (by decide)).trans ((hb.same .tic (by decide)).trans (hm.same .tic (by decide)))
  · exact ((hm.mono (by decide)).trans (hb.mono (by decide))).trans (hl.mono (by decide))

theorem Delivered.fb {s t : State} {n : Nat} {bytes : List Byte} (h : Delivered s t n bytes) {f : Fld} (hf : f.reg.group = .tic)
    (hp : f.reg ≠ .TIC_PROD) (i : Nat) : t.fb f i = s.fb f i := State.fb_congr (h.others f.reg hf hp i)

/-! ### Edges of the user channels (R91 to R96) -/

/-- A user channel with an edge counted. -/
def State.edgeCounted (s : State) (n : Nat) : State :=
  s.setTch n { (s.tch n) with seq := (s.tch n).seq + 1#32, edges := (s.tch n).edges + 1 }

/-- A user channel with an edge converted: its marks go with the record. -/
def State.edgeConverted (s : State) (n : Nat) : State :=
  (s.edgeCounted n).setTch n { ((s.edgeCounted n).tch n) with lastConv := some s.tick, skipped := false, discont := false }

/-- The channel after a plain edge. -/
def State.edgeChannel (s : State) (n : Nat) : TicChan :=
  { (s.tch n) with
    seq := (s.tch n).seq + 1#32
    edges := (s.tch n).edges + 1
    lastConv := some s.tick
    skipped := false
    discont := false }

theorem State.edgeConverted_channel (s : State) (n : Nat) : (s.edgeConverted n).tch n = s.edgeChannel n := by
  unfold State.edgeConverted State.edgeCounted
  rw [State.tch_setTch_same, State.tch_setTch_same]
  rfl

/-- The record of a plain edge on a user channel. -/
def State.edgeRecord (s : State) (n code : Nat) : List Byte :=
  let p := edgePos (s.tch n).table code s.thm.clk
  ticRecordBytes (s.edgeTime n p) (s.edgeBound n p) ((s.tch n).seq + 1#32)
    (s.ticFlags n false 0 p.uncal (s.tch n).skipped (s.tch n).discont) 0

/-- An enabled channel in continuous mode with no stream, no one-shot, no calibration and no conversion before: every edge is a record. -/
structure PlainChannel (s : State) (n : Nat) : Prop where
  enabled    : s.fb Fld.TIC_IN.EN n = true
  noStream   : s.streamMark n = none
  continuous : s.fd Fld.TIC_CFG.MODE n = 1
  noShot     : (s.tch n).os = none
  noRun      : (s.tch n).run = none
  rested     : (s.tch n).lastConv = none

theorem PlainChannel.userEdge_eq {s : State} {n : Nat} (h : PlainChannel s n) (code : Nat) :
    s.userEdge n code = (s.edgeConverted n).ticDeliver n (s.edgeRecord n code) := by
  obtain ⟨enabled, noStream, continuous, noShot, noRun, rested⟩ := h
  unfold State.userEdge
  rw [if_neg (by simp [enabled])]
  extract_lets c0 z c p at_ b tooFast shot selected busy flags conv tag s1 user
  have hc : c = { c0 with seq := c0.seq + 1#32, edges := c0.edges + 1 } := State.tch_setTch_same _ _ _
  have htab : c.table = c0.table := by rw [hc]
  have hp : p = edgePos c0.table code s.thm.clk := congrArg (fun x => edgePos x code s.thm.clk) htab
  have hshot : shot = false := by dsimp only [shot]; rw [hc, noShot]
  have htag : tag = 0 := by dsimp only [tag]; rw [hc, noShot]
  have hbusy : busy = false := by dsimp only [busy]; rw [hc, rested]
  have hrun : c.run = none := by rw [hc, noRun]
  have hsel : selected = true := Bool.or_eq_true_iff.2 (.inl (decide_eq_true continuous))
  have huser : user = s1 := by dsimp only [user]; rw [hsel, hrun, hbusy, hshot]; rfl
  have hbytes : ticRecordBytes at_ b c.seq (flags shot) tag = s.edgeRecord n code := by
    dsimp only [at_, b, flags]
    rw [hshot, htag, hp, hc]
    rfl
  rw [show z.streamMark n = none from noStream]
  exact huser.trans (congrArg (conv.ticDeliver n) hbytes)

/-- A plain edge's record stands in the ring, and the channel has converted it. -/
theorem ticEdge_plain {s : State} {n : Fin 16} (hc : s.clockUp = true) (hd : s.pwr.dclk = true) (h : PlainChannel s n.val)
    (hroom : RingRoom s n.val) (code : BitVec 10) :
    Does (.ticEdge ⟨n.val, by omega⟩ code) s [.mem, .irq, .hst, .tic, .regs .irqStat, .regs .tic] (fun t =>
      Stored s t (s.ringPlace n.val) (s.edgeRecord n.val code.toNat) ∧
        t.rg .TIC_PROD n.val = s.rg .TIC_PROD n.val + 1#32 ∧ t.rg .TIC_CONS n.val = s.rg .TIC_CONS n.val ∧
        t.tch n.val = s.edgeChannel n.val) := by
  have hx : exec (.ticEdge ⟨n.val, by omega⟩ code) s =
      .next ((s.edgeConverted n.val).ticDeliver n.val (s.edgeRecord n.val code.toNat)) := by
    refine congrArg Host.Outcome.next ((State.act_pos _ (by rw [hc, hd]; rfl)).trans ?_)
    exact (if_pos n.isLt).trans (h.userEdge_eq code.toNat)
  have htch := s.edgeConverted_channel n.val
  have hk : Keeps (maskOf [.tic]) s (s.edgeConverted n.val) := (State.setTch_only _ _ _).trans (State.setTch_only _ _ _)
  have hplace : (s.edgeConverted n.val).ringPlace n.val = s.ringPlace n.val := by
    unfold State.ringPlace
    rw [htch]
    rfl
  have hroom' : RingRoom (s.edgeConverted n.val) n.val := ⟨hroom.calm, hroom.core, hroom.link, hroom.sized, hroom.free⟩
  obtain ⟨stored, prod, others, tic, keeps⟩ := hroom'.delivered (s.edgeRecord n.val code.toNat)
  rw [hplace] at stored
  exact does_of_keeps hx ((hk.mono (by decide)).trans (keeps.mono (by decide)))
    ⟨stored, prod, others _ (by decide) (by decide) _, (tch_congr tic n.val).trans htch⟩

end Sys2Proof.Machine
end

section
/-!
Edges of channel K and of the time channels, streams and the frequency monitor (R90, R92, R102, R179).
-/
namespace Sys2Proof.Machine

/-- An edge on an input that is not enabled changes nothing. -/
theorem ticEdge_disabled {s : State} {n : Fin 16} (hen : s.fb Fld.TIC_IN.EN n.val = false) (code : BitVec 10) :
    Does (.ticEdge ⟨n.val, by omega⟩ code) s [] (fun _ => True) := by
  refine does_nothing (congrArg Host.Outcome.next ?_)
  unfold State.act
  split
  · exact (if_pos n.isLt).trans (if_pos (by rw [hen]; rfl))
  · rfl

/-! ### Channel K and the time channels (R102, R179, R192) -/

/-- The state with another counter bank. -/
def State.setTic (s : State) (x : TicState) : State := { s with tic := x }

theorem State.setTic_only (s : State) (x : TicState) : Keeps (maskOf [.tic]) s (s.setTic x) := by
  refine ⟨rfl, id, id, id, Fuses.Le.refl _, fun p hp => ?_⟩
  cases p <;> first | exact rfl | exact fun _ _ _ => rfl | exact absurd hp (by decide)

/-- The instant of an edge on channel K. -/
def State.keeperInstant (s : State) (code : Nat) : TimeVal := s.edgeTime 16 (edgePos (s.tch 16).table code s.thm.clk)

/-- A record of channel K while no coast needs its bridge: only the counter's own part changes. -/
theorem State.keeperEdge_plain {s : State} (hco : s.trv.coast = none) (code : Nat) :
    (s.keeperEdge code).tic = { (s.setTch 16 { (s.tch 16) with seq := (s.tch 16).seq + 1#32 }).tic with
      kFirst := some (s.tic.kFirst.getD (s.keeperInstant code))
      kLast := some (s.keeperInstant code)
      kCount := s.tic.kCount + 1 } ∧ Keeps (maskOf [.tic]) s (s.keeperEdge code) := by
  have hco' : (s.setTch 16 { (s.tch 16) with seq := (s.tch 16).seq + 1#32 }).trv.coast = none := hco
  unfold State.keeperEdge
  dsimp only
  rw [hco']
  refine ⟨?_, (State.setTch_only _ _ _).trans (State.setTic_only _ _)⟩
  cases s.tic.kFirst <;> rfl

theorem ticEdge_keeper {s : State} (hc : s.clockUp = true) (hd : s.pwr.dclk = true) (hco : s.trv.coast = none) (code : BitVec 10) :
    Does (.ticEdge 16 code) s [.tic] (fun t => t.tic.kCount = s.tic.kCount + 1 ∧ (t.tch 16).seq = (s.tch 16).seq + 1#32 ∧
      t.tic.kLast = some (s.keeperInstant code.toNat) ∧ ∀ f, s.tic.kFirst = some f → t.tic.kFirst = some f) := by
  obtain ⟨htic, hk⟩ := State.keeperEdge_plain hco code.toNat
  have hx : exec (.ticEdge 16 code) s = .next (s.keeperEdge code.toNat) :=
    congrArg Host.Outcome.next (State.act_pos _ (by rw [hc, hd]; rfl))
  generalize s.keeperEdge code.toNat = t at htic hk hx
  refine does_of_keeps hx hk ⟨by rw [htic], ?_, by rw [htic], fun f hf => by rw [htic, hf]; rfl⟩
  have hch : t.tic.ch = (s.setTch 16 { (s.tch 16) with seq := (s.tch 16).seq + 1#32 }).tic.ch := by rw [htic]
  have htch : t.tch 16 = { (s.tch 16) with seq := (s.tch 16).seq + 1#32 } :=
    (congrArg (fun m => SMap.get (fun _ => TicChan.reset) m 16) hch).trans (State.tch_setTch_same _ _ _)
  rw [htch]

/-- A time channel's edge leaves its terms with the GNSS baseband. -/
theorem ticEdge_time {s : State} (hc : s.clockUp = true) (hd : s.pwr.dclk = true) {ch : Fin 21} (h : 17 ≤ ch.val) (code : BitVec 10) :
    Does (.ticEdge ch code) s [.gns] (fun t =>
      let e := edgePos (s.tch ch.val).table code.toNat s.thm.clk
      SMap.get (fun _ => 406000000) t.gns.tcTerm (ch.val - 17) = e.quant + e.stat + e.temp + 6000 * s.clkFactor.getD 1000) := by
  have hx : exec (.ticEdge ch code) s = .next (s.timeEdge (ch.val - 17) code.toNat) := by
    refine congrArg Host.Outcome.next ((State.act_pos _ (by rw [hc, hd]; rfl)).trans ?_)
    exact (if_neg (by omega)).trans (if_neg (by omega))
  refine does_of_keeps hx (State.timeEdge_keeps (Keeps.refl _ s) (by decide) _ _) ?_
  unfold State.timeEdge
  rw [show 17 + (ch.val - 17) = ch.val by omega]
  exact SMap.get_set_same _ _ _ _ _

/-! ### Streams (R92) -/

theorem ent_congr {s t : State} (h : t.ens = s.ens) (k : Nat) : t.ent k = s.ent k :=
  congrArg (fun e : EnsState => SMap.get (fun _ => EnsEntry.reset) e.ent k) h

theorem State.ent_setEnt_same (s : State) (r : Nat) (e : EnsEntry) : (s.setEnt r e).ent r = e := SMap.get_set_same _ _ _ _ _

theorem State.ent_setEnt_other (s : State) {r k : Nat} (e : EnsEntry) (h : k ≠ r) : (s.setEnt r e).ent k = s.ent k :=
  SMap.get_set_other _ _ _ _ _ _ h

theorem streamSampleMissing_moves {s : State} (hc : s.clockUp = true) {r : Fin 8} {m : TimeVal} (hm : (s.ent r.val).mark = some m)
    (hp : s.streamInstant r.val (s.nextMark r.val m) * 2 ^ 24 < s.tickEnd56) :
    Does (.streamSampleMissing r) s [.ens] (fun t => t.ent r.val = { (s.ent r.val) with mark := some (s.nextMark r.val m) } ∧
      ∀ k, k ≠ r.val → t.ent k = s.ent k) := by
  have hx : s.streamMissing r.val = s.setEnt r.val { (s.ent r.val) with mark := some (s.nextMark r.val m) } := by
    unfold State.streamMissing
    dsimp only
    rw [hm]
    exact if_pos hp
  exact does_of_keeps (congrArg Host.Outcome.next ((State.act_pos _ hc).trans hx)) (State.setEnt_keeps (Keeps.refl _ s) (by decide) _ _)
    ⟨State.ent_setEnt_same _ _ _, fun k hk => State.ent_setEnt_other _ _ hk⟩

/-! ### The frequency monitor (R90) -/

/-- The present second marked as taken by an action of each second. -/
def State.secTaken (s : State) (i : Nat) : State := { s with secDone := SMap.insert id s.secDone i s.now.sec.toNat }

theorem State.once_pos {s : State} {i : Nat} (f : State → State) (h : SMap.find s.secDone i ≠ some s.now.sec.toNat) :
    s.once i f = f (s.secTaken i) := if_neg h

theorem State.secTaken_only (s : State) (i : Nat) : Keeps (maskOf [.secDone]) s (s.secTaken i) := by
  refine ⟨rfl, id, id, id, Fuses.Le.refl _, fun p hp => ?_⟩
  cases p <;> first | exact rfl | exact fun _ _ _ => rfl | exact absurd hp (by decide)

/-- A channel's edges start again from zero, and OVERFREQ shows what they came to. -/
def State.monitored (s : State) (n : Nat) (flag : Bool) : State :=
  (s.setTch n { (s.tch n) with edges := 0 }).setB Fld.TIC_STAT.OVERFREQ flag n

theorem State.overfreq_eq (s : State) (n : Nat) : s.overfreq n = s.monitored n (decide (400000000 < (s.tch n).edges)) := rfl

theorem State.monitored_same (s : State) (n : Nat) (flag : Bool) :
    (s.monitored n flag).fb Fld.TIC_STAT.OVERFREQ n = flag ∧ ((s.monitored n flag).tch n).edges = 0 :=
  ⟨State.fb_setB_same _ _ _ _ (by decide) (by decide),
    congrArg TicChan.edges ((tch_congr (State.setB_tic _ _ _ _) n).trans (State.tch_setTch_same _ _ _))⟩

theorem State.monitored_other (s : State) {n k : Nat} (flag : Bool) (h : k ≠ n) :
    (s.monitored n flag).fb Fld.TIC_STAT.OVERFREQ k = s.fb Fld.TIC_STAT.OVERFREQ k ∧ (s.monitored n flag).tch k = s.tch k :=
  ⟨State.fb_setB_other _ _ _ _ _ _ (by decide) (by decide) (by decide) (.inr (.inr (.inr h.symm))),
    (tch_congr (State.setB_tic _ _ _ _) k).trans (State.tch_setTch_other _ _ h)⟩

theorem foldl_overfreq_other {k : Nat} (l : List Nat) : ∀ s : State, k ∉ l →
    (l.foldl State.overfreq s).fb Fld.TIC_STAT.OVERFREQ k = s.fb Fld.TIC_STAT.OVERFREQ k ∧ (l.foldl State.overfreq s).tch k = s.tch k := by
  induction l with
  | nil => exact fun _ _ => ⟨rfl, rfl⟩
  | cons x r ih =>
    intro s hk
    have hx : k ≠ x := List.ne_of_not_mem_cons hk
    have hr : k ∉ r := List.not_mem_of_not_mem_cons hk
    obtain ⟨flag, chan⟩ := s.monitored_other (decide (400000000 < (s.tch x).edges)) hx
    rw [← State.overfreq_eq] at flag chan
    obtain ⟨flagR, chanR⟩ := ih (s.overfreq x) hr
    exact ⟨flagR.trans flag, chanR.trans chan⟩

/-- Each channel of a list without repeats is judged by the edges that it has at the start. -/
theorem foldl_overfreq_mem {k : Nat} (l : List Nat) : ∀ s : State, l.Nodup → k ∈ l →
    (l.foldl State.overfreq s).fb Fld.TIC_STAT.OVERFREQ k = decide (400000000 < (s.tch k).edges) ∧
      ((l.foldl State.overfreq s).tch k).edges = 0 := by
  induction l with
  | nil => exact fun _ _ hk => absurd hk List.not_mem_nil
  | cons x r ih =>
    intro s hd hk
    obtain ⟨hx, hr⟩ := List.nodup_cons.1 hd
    rw [List.foldl_cons]
    by_cases hkx : k = x
    · subst hkx
      obtain ⟨flag, edges⟩ := s.monitored_same k (decide (400000000 < (s.tch k).edges))
      rw [← State.overfreq_eq] at flag edges
      obtain ⟨flagR, chanR⟩ := foldl_overfreq_other r (s.overfreq k) hx
      exact ⟨flagR.trans flag, by rw [chanR, edges]⟩
    · have h := ih (s.overfreq x) hr ((List.mem_cons.1 hk).resolve_left hkx)
      rwa [s.overfreq_eq x, (s.monitored_other _ hkx).2] at h

theorem overfreqCheck_judges {s : State} (hc : s.clockUp = true) (hs : SMap.find s.secDone 1 ≠ some s.now.sec.toNat) :
    Does .overfreqCheck s [.tic, .secDone, .regs .tic] (fun t => ∀ k, k < 16 →
      t.fb Fld.TIC_STAT.OVERFREQ k = decide (400000000 < (s.tch k).edges) ∧ (t.tch k).edges = 0) := by
  have hk : Keeps (maskOf [.tic, .regs .tic]) (s.secTaken 1) ((List.range 16).foldl State.overfreq (s.secTaken 1)) :=
    keeps_foldl (Keeps.refl _ _) fun _ n h => State.overfreq_keeps h (by decide) n
  exact does_of_keeps (congrArg Host.Outcome.next ((State.act_pos _ hc).trans (State.once_pos _ hs)))
    (((s.secTaken_only 1).mono (by decide)).trans (hk.mono (by decide)))
    fun k hk => foldl_overfreq_mem (List.range 16) (s.secTaken 1) List.nodup_range (List.mem_range.2 hk)

end Sys2Proof.Machine
end

section
/-!
One-shots of the interval counter (R94): one opened or refused by its owner, and one whose window expires.
-/
namespace Sys2Proof.Machine

/-! ### One-shots (R94) -/

theorem exec_ticOsGo {s : State} {n : Fin 16} (h : s.Takes .TIC_OS n.val) (v : BitVec 32) :
    exec (.ticOsGo n v) s = .next (s.ticOs n.val (v ||| 0x80000000#32)) :=
  congrArg Host.Outcome.next (State.hostRow_tic h _ (by decide) (by decide) rfl (by decide))

theorem bitAt31_set (v : BitVec 32) : bitAt (v ||| 0x80000000#32).toNat 31 = true := by
  have h : (v ||| 0x80000000#32).getLsbD 31 = true := by rw [BitVec.getLsbD_or, Bool.or_eq_true]; exact .inr (by decide)
  exact h

/-- A request with a window in range opens a one-shot, or is refused. -/
theorem State.ticOs_go {s : State} {n : Nat} {v : BitVec 32} (h0 : 0 < Fld.TIC_OS.WINDOW.of v) (h1 : Fld.TIC_OS.WINDOW.of v ≤ 1000000) :
    s.ticOs n (v ||| 0x80000000#32) =
      if (s.tch n).os.isSome || !s.fb Fld.TIC_IN.EN n then s.setB Fld.TIC_WSTAT.OS_REFUSED true
      else (s.ticTaken .TIC_OS n (v ||| 0x80000000#32)).osOpen n s.now := by
  have hw : Fld.TIC_OS.WINDOW.of (v ||| 0x80000000#32) = Fld.TIC_OS.WINDOW.of v :=
    Fld.TIC_OS.WINDOW.of_masked (m := 0xFFFFFFF#32) (masked_or v (by decide)) (by decide) (by decide) (by decide)
  unfold State.ticOs
  dsimp only
  rw [hw, if_neg (by omega), if_pos (bitAt31_set v)]
  rfl

theorem ticOsGo_opens {s : State} {n : Fin 16} (h : s.Takes .TIC_OS n.val) {v : BitVec 32} (h0 : 0 < Fld.TIC_OS.WINDOW.of v)
    (h1 : Fld.TIC_OS.WINDOW.of v ≤ 1000000) (ho : (s.tch n.val).os = none) (hen : s.fb Fld.TIC_IN.EN n.val = true) :
    let close := s.now.plus (Fld.TIC_OS.WINDOW.of v * usCount)
    Does (.ticOsGo n v) s [.timeline, .tic, .regs .tic, .regs .datum] (fun t =>
      (t.tch n.val).os = some ⟨Fld.TIC_OS.TAG.of v, s.now, close, false⟩ ∧ t.fb Fld.TIC_STAT.OS_PEND n.val = true ∧
        t.fb Fld.TIC_WSTAT.ACCEPT = true ∧ (t.slot (hTic n.val)).armed = some ⟨close, .engineTimer, true⟩) := by
  intro close
  have hx := exec_ticOsGo h v
  rw [State.ticOs_go h0 h1, if_neg (by rw [ho, hen]; decide)] at hx
  have hk := s.ticTaken_only (r := .TIC_OS) (by decide) n.val (v ||| 0x80000000#32)
  have hmask := (s.rg_ticTaken_same (r := .TIC_OS) (by decide) n.val (v ||| 0x80000000#32) rfl).trans
    (masked_or v (b := 0x80000000#32) (by decide))
  have accept : (s.ticTaken .TIC_OS n.val (v ||| 0x80000000#32)).fb Fld.TIC_WSTAT.ACCEPT = true := State.ticAccept_accepts _
  have henT : (s.ticTaken .TIC_OS n.val (v ||| 0x80000000#32)).fb Fld.TIC_IN.EN n.val = true :=
    (State.fb_congr (s.rg_ticTaken_other (by decide) (by decide) n.val _ n.val)).trans hen
  generalize s.ticTaken .TIC_OS n.val (v ||| 0x80000000#32) = u at hx hk hmask accept henT
  have hwin : u.fd Fld.TIC_OS.WINDOW n.val = Fld.TIC_OS.WINDOW.of v :=
    Fld.TIC_OS.WINDOW.of_masked hmask (by decide) (by decide) (by decide)
  have htag : u.fd Fld.TIC_OS.TAG n.val = Fld.TIC_OS.TAG.of v := Fld.TIC_OS.TAG.of_masked hmask (by decide) (by decide) (by decide)
  have hoT : (u.tch n.val).os = none := by rw [tch_congr (hk.same .tic (by decide)) n.val, ho]
  have heq := State.osOpen_opens s.now hoT henT
  obtain ⟨pend, chan⟩ := State.osOpen_shows s.now hoT henT
  have hok := State.osOpen_keeps (Keeps.refl (maskOf [.timeline, .tic, .regs .tic, .regs .datum]) u) (by decide) n.val s.now
  refine does_of_keeps hx ((hk.mono (by decide)).trans hok) ⟨?_, pend, ?_, ?_⟩
  · rw [chan]
    unfold State.shotOpen
    rw [hwin, htag]
  · rw [heq]
    have hke := State.engineArm_keeps (Keeps.refl (maskOf [.timeline, .regs .datum])
      ((u.setTch n.val (u.shotOpen n.val s.now)).setB Fld.TIC_STAT.OS_PEND true n.val)) (by decide) (hTic n.val)
      (s.now.plus (u.fd Fld.TIC_OS.WINDOW n.val * usCount))
    exact ((hke.fb (f := Fld.TIC_WSTAT.ACCEPT) (by decide) 0).trans
      (State.fb_setB_apart _ (by decide) _ _ _)).trans accept
  · rw [heq, hwin]
    exact State.slot_armSlot_same _ _ _

theorem ticOsGo_refused {s : State} {n : Fin 16} (h : s.Takes .TIC_OS n.val) {v : BitVec 32} (h0 : 0 < Fld.TIC_OS.WINDOW.of v)
    (h1 : Fld.TIC_OS.WINDOW.of v ≤ 1000000) (ho : (s.tch n.val).os ≠ none ∨ s.fb Fld.TIC_IN.EN n.val = false) :
    Does (.ticOsGo n v) s [.regs .tic] (fun t =>
      t.fb Fld.TIC_WSTAT.OS_REFUSED = true ∧ t.rg .TIC_OS n.val = s.rg .TIC_OS n.val) := by
  have hx := exec_ticOsGo h v
  have hbusy : ((s.tch n.val).os.isSome || !s.fb Fld.TIC_IN.EN n.val) = true := by
    rw [Bool.or_eq_true, Option.isSome_iff_ne_none, Bool.not_eq_true']
    exact ho
  rw [State.ticOs_go h0 h1, if_pos hbusy] at hx
  exact does_of_keeps hx (State.setB_keeps (Keeps.refl _ s) (Nat.zero_and _) (by decide) _ _)
    ⟨State.fb_setB_same _ _ _ _ (by decide) (by decide), State.rg_setB_other _ _ _ _ _ (by decide)⟩

/-- The status of a one-shot whose window expires (Table 4.2). -/
def State.shotStatus (s : State) (n : Nat) (o : OneShot) : Nat := if o.arrived then 1 else if (s.tch n).run.isSome then 3 else 2

/-- The record of a one-shot whose window expires. -/
def State.shotRecord (s : State) (n : Nat) (o : OneShot) : List Byte :=
  ticRecordBytes o.closeAt 0xFFFFFFFF#32 (s.tch n).seq
    (s.ticFlags n true (s.shotStatus n o) false (s.tch n).skipped (s.tch n).discont) o.tag

/-- A channel whose marks have gone with a record. -/
def State.unmarked (s : State) (n : Nat) : State := s.setTch n { (s.tch n) with skipped := false, discont := false }

theorem State.osClose_expires {s : State} {n : Nat} {o : OneShot} (ho : (s.tch n).os = some o) (hr : s.reached o.closeAt = true) :
    s.osClose n = ((s.unmarked n).ticDeliver n (s.shotRecord n o)).osDone n (s.shotStatus n o) := by
  unfold State.osClose State.shotRecord State.shotStatus State.unmarked
  dsimp only
  rw [ho]
  dsimp only
  rw [if_neg (by rw [hr]; decide)]

theorem State.slot_engineFree (s : State) (h : Nat) : ((s.engineFree h true).slot h).armed = none := by
  unfold State.engineFree
  split
  · exact congrArg Slot.armed (s.slot_freeSlot_same h)
  · next hn => exact Option.not_isSome_iff_eq_none.1 hn

theorem State.engineFree_only (s : State) (h : Nat) (b : Bool) : Keeps (maskOf [.timeline, .regs .datum]) s (s.engineFree h b) :=
  State.engineFree_keeps (Keeps.refl _ s) (by decide) h b

/-- What the end of a one-shot leaves: no one-shot, no slot, and of the bank's registers only OS_PEND is another. -/
structure ShotDone (s t : State) (n : Nat) : Prop where
  os     : (t.tch n).os = none
  pend   : t.fb Fld.TIC_STAT.OS_PEND n = false
  slot   : (t.slot (hTic n)).armed = none
  others : ∀ r, r.group = .tic → r ≠ .TIC_STAT → ∀ i, t.rg r i = s.rg r i
  keeps  : Keeps (maskOf [.timeline, .tic, .regs .irqStat, .regs .tic, .regs .datum]) s t

theorem State.osDone_done (s : State) (n status : Nat) : ShotDone s (s.osDone n status) n := by
  unfold State.osDone
  dsimp only
  have hs := s.setTch_only n { (s.tch n) with os := none }
  have ho : ((s.setTch n { (s.tch n) with os := none }).tch n).os = none := congrArg TicChan.os (State.tch_setTch_same _ _ _)
  generalize s.setTch n { (s.tch n) with os := none } = u at hs ho
  have hb : Keeps (maskOf [.regs .tic]) u (u.setB Fld.TIC_STAT.OS_PEND false n) :=
    State.setB_keeps (Keeps.refl _ u) (Nat.zero_and _) (by decide) _ _
  have hp := State.fb_setB_same u Fld.TIC_STAT.OS_PEND false n (by decide) (by decide)
  have hother : ∀ r, r ≠ .TIC_STAT → ∀ i, (u.setB Fld.TIC_STAT.OS_PEND false n).rg r i = u.rg r i := fun r hr i =>
    State.rg_setB_other _ _ _ _ _ hr.symm
  generalize u.setB Fld.TIC_STAT.OS_PEND false n = w at hb hp hother
  have hf := w.engineFree_only (hTic n) true
  have hi := (w.engineFree (hTic n) true).irqPulse_only (80 + n) status
  refine ⟨?_, ?_, ?_, fun r hr hne i => ?_, ?_⟩
  · rw [tch_congr (hi.same .tic (by decide)), tch_congr (hf.same .tic (by decide)), tch_congr (hb.same .tic (by decide)), ho]
  · rw [hi.fb (by decide), hf.fb (by decide), hp]
  · rw [slot_congr (hi.same .timeline (by decide)), State.slot_engineFree]
  · rw [hi.rg (by rw [hr]; decide), hf.rg (by rw [hr]; decide), hother r hne, hs.rg (by rw [hr]; decide)]
  · exact ((hs.mono (by decide)).trans (hb.mono (by decide))).trans ((hf.mono (by decide)).trans (hi.mono (by decide)))

theorem oneshotClose_expires {s : State} {n : Fin 16} {o : OneShot} (hc : s.clockUp = true) (ho : (s.tch n.val).os = some o)
    (hr : s.reached o.closeAt = true) (hroom : RingRoom s n.val) :
    Does (.oneshotClose n) s ([.timeline, .regs .datum] ++ [.mem, .irq, .hst, .tic, .regs .irqStat, .regs .tic]) (fun t =>
      (t.tch n.val).os = none ∧ t.fb Fld.TIC_STAT.OS_PEND n.val = false ∧ (t.slot (hTic n.val)).armed = none ∧
        t.rg .TIC_PROD n.val = s.rg .TIC_PROD n.val + 1#32 ∧ Stored s t (s.ringPlace n.val) (s.shotRecord n.val o)) := by
  have hx : exec (.oneshotClose n) s =
      .next (((s.unmarked n.val).ticDeliver n.val (s.shotRecord n.val o)).osDone n.val (s.shotStatus n.val o)) :=
    congrArg Host.Outcome.next ((State.act_pos _ hc).trans (State.osClose_expires ho hr))
  have hk : Keeps (maskOf [.tic]) s (s.unmarked n.val) := State.setTch_only _ _ _
  have hplace : (s.unmarked n.val).ringPlace n.val = s.ringPlace n.val := by
    unfold State.ringPlace State.unmarked
    rw [State.tch_setTch_same]
    rfl
  have hroomU : RingRoom (s.unmarked n.val) n.val := ⟨hroom.calm, hroom.core, hroom.link, hroom.sized, hroom.free⟩
  obtain ⟨stored, prod, -, -, keeps⟩ := hroomU.delivered (s.shotRecord n.val o)
  rw [hplace] at stored
  obtain ⟨os, pend, slot, others, keepsD⟩ :=
    ((s.unmarked n.val).ticDeliver n.val (s.shotRecord n.val o)).osDone_done n.val (s.shotStatus n.val o)
  exact does_of_keeps hx ((hk.mono (by decide)).trans ((keeps.mono (by decide)).trans (keepsD.mono (by decide))))
    ⟨os, pend, slot, (others _ (by decide) (by decide) _).trans prod, stored.congr (keepsD.same .mem (by decide))⟩

end Sys2Proof.Machine
end

section
/-!
The ring of a channel staged and committed (R105, R322), and the statement about the inputs and edges of the interval counter.
-/
namespace Sys2Proof.Machine

/-! ### The ring's base (R105, R322) -/

theorem exec_ticRingBaseStage_hi {s : State} {n : Fin 16} (h : s.Takes .TIC_RING_HI n.val) (v : BitVec 32) :
    exec (.ticRingBaseStage n true v) s = .next (s.wr .TIC_RING_HI n.val v).ticAccept :=
  congrArg Host.Outcome.next (State.hostRow_tic h v (by decide) (by decide) rfl (by decide))

theorem exec_ticRingBaseStage_lo {s : State} {n : Fin 16} (h : s.Takes .TIC_RING_LO n.val) (v : BitVec 32) :
    exec (.ticRingBaseStage n false v) s = .next (s.wr .TIC_RING_LO n.val (v &&& 0xFFFFFFE0#32)).ticAccept :=
  congrArg Host.Outcome.next (State.hostRow_tic h v (by decide) (by decide) rfl (by decide))

/-- A command whose whole effect is a register of the bank written and accepted. -/
theorem does_stage {c : Instr} {s : State} {r : Reg} {i : Nat} {v : BitVec 32} (h : exec c s = .next (s.wr r i v).ticAccept)
    (hr : r.bit &&& maskOf [.regs .tic] = r.bit) (hw : r ≠ .TIC_WSTAT) : Does c s [.regs .tic] (fun t => t.rg r i = v) :=
  does_of_keeps h ((State.wr_keeps (Keeps.refl _ s) r hr i v).trans (State.ticAccept_only _))
    ((State.rg_ticAccept _ hw i).trans (State.rg_wr_same _ _ _ _))

theorem exec_ticRingCommit {s : State} {n : Fin 16} (h : s.Takes .TIC_RING_SZ n.val) (v : BitVec 32) :
    exec (.ticRingCommit n v) s = .next (s.ringCommit n.val v) :=
  congrArg Host.Outcome.next (State.hostRow_tic h v (by decide) (by decide) rfl (by decide))

/-- The base that the staged registers of a channel's ring name. -/
def State.stagedBase (s : State) (n : Nat) : Nat := (s.rg .TIC_RING_HI n).toNat * 2 ^ 32 + (s.rg .TIC_RING_LO n).toNat

/-- A channel's ring at its staged base, empty. -/
def State.ringEmptied (s : State) (n sz : Nat) : State :=
  ((((s.setTch n { (s.tch n) with base := s.stagedBase n }).wr .TIC_RING_SZ n (BitVec.ofNat 32 sz)).wr .TIC_PROD n 0).wr .TIC_CONS n
    0).setB Fld.TIC_STAT.RING_FULL false n

/-- The staged base of a ring put back to the base in force. -/
def State.baseUnstaged (s : State) (n : Nat) : State :=
  (s.wr .TIC_RING_LO n (BitVec.ofNat 32 ((s.tch n).base % 2 ^ 32))).wr .TIC_RING_HI n (BitVec.ofNat 32 ((s.tch n).base / 2 ^ 32))

theorem State.ringCommit_eq (s : State) (n : Nat) (v : BitVec 32) : s.ringCommit n v =
    if (1 ≤ v.toNat % 16 ∧ v.toNat % 16 ≤ 3) ∨ (v.toNat % 16 ≠ 0 ∧ !s.inDdr (s.stagedBase n) (32 * 2 ^ (v.toNat % 16))) then
      s.ticRange.baseUnstaged n
    else ((s.ringEmptied n (v.toNat % 16)).ticRingLine n).ticAccept := rfl

theorem State.ringEmptied_only (s : State) (n sz : Nat) : Keeps (maskOf [.tic, .regs .tic]) s (s.ringEmptied n sz) := by
  have h0 := State.setTch_keeps (Keeps.refl (maskOf [.tic, .regs .tic]) s) (by decide) n { (s.tch n) with base := s.stagedBase n }
  exact State.setB_keeps (State.wr_keeps (State.wr_keeps (State.wr_keeps h0 .TIC_RING_SZ (by decide) n _) .TIC_PROD (by decide) n 0)
    .TIC_CONS (by decide) n 0) (Nat.zero_and _) (by decide) false n

/-- What an empty ring shows. -/
theorem State.ringEmptied_shows (s : State) (n : Nat) {sz : Nat} (hsz : sz < 16) :
    ((s.ringEmptied n sz).tch n).base = s.stagedBase n ∧ (s.ringEmptied n sz).fd Fld.TIC_RING_SZ.LOG2SZ n = sz ∧
      (s.ringEmptied n sz).rg .TIC_PROD n = 0 ∧ (s.ringEmptied n sz).rg .TIC_CONS n = 0 ∧
      (s.ringEmptied n sz).fb Fld.TIC_STAT.RING_FULL n = false := by
  unfold State.ringEmptied
  have hbase := congrArg TicChan.base (s.tch_setTch_same n { (s.tch n) with base := s.stagedBase n })
  generalize s.setTch n { (s.tch n) with base := s.stagedBase n } = u at hbase ⊢
  have hput : ∀ (w : State) (r : Reg) (i : Nat), Reg.TIC_STAT ≠ r → (w.setB Fld.TIC_STAT.RING_FULL false n).rg r i = w.rg r i :=
    fun w r i hr => State.rg_setB_other w _ _ _ i hr
  have hlog : Fld.TIC_RING_SZ.LOG2SZ.of (BitVec.ofNat 32 sz) = sz := by
    simp only [Fld.of, bitsOf, Fld.TIC_RING_SZ.LOG2SZ, BitVec.toNat_ofNat]
    omega
  refine ⟨?_, ?_, ?_, ?_, State.fb_setB_same _ _ _ _ (by decide) (by decide)⟩
  · refine (congrArg TicChan.base (tch_congr ?_ n)).trans hbase
    rw [State.setB_tic, State.wr_tic, State.wr_tic, State.wr_tic]
  · refine (congrArg Fld.TIC_RING_SZ.LOG2SZ.of ?_).trans hlog
    rw [hput _ _ _ (by decide), State.rg_wr_other _ _ _ _ _ _ (.inl (by decide)), State.rg_wr_other _ _ _ _ _ _ (.inl (by decide)),
      show Fld.TIC_RING_SZ.LOG2SZ.reg = .TIC_RING_SZ from rfl, State.rg_wr_same]
  · rw [hput _ _ _ (by decide), State.rg_wr_other _ _ _ _ _ _ (.inl (by decide)), State.rg_wr_same]
  · rw [hput _ _ _ (by decide), State.rg_wr_same]

theorem ticRingCommit_commits {s : State} {n : Fin 16} (h : s.Takes .TIC_RING_SZ n.val) {v : BitVec 32} (hk : 4 ≤ v.toNat % 16)
    (hd : s.inDdr (s.stagedBase n.val) (32 * 2 ^ (v.toNat % 16)) = true) :
    Does (.ticRingCommit n v) s [.irq, .tic, .regs .irqStat, .regs .tic] (fun t =>
      (t.tch n.val).base = s.stagedBase n.val ∧ t.fd Fld.TIC_RING_SZ.LOG2SZ n.val = v.toNat % 16 ∧ t.rg .TIC_PROD n.val = 0 ∧
        t.rg .TIC_CONS n.val = 0 ∧ t.fb Fld.TIC_STAT.RING_FULL n.val = false ∧ t.fb Fld.TIC_WSTAT.ACCEPT = true) := by
  have hx := exec_ticRingCommit h v
  rw [State.ringCommit_eq, if_neg (by rw [hd]; simp; omega)] at hx
  obtain ⟨base, size, prod, cons, full⟩ := s.ringEmptied_shows n.val (Nat.mod_lt v.toNat (by decide : 16 > 0))
  have he := s.ringEmptied_only n.val (v.toNat % 16)
  generalize s.ringEmptied n.val (v.toNat % 16) = u at *
  have hl := u.ticRingLine_only n.val
  have accept := (u.ticRingLine n.val).ticAccept_accepts
  have ha := (u.ticRingLine n.val).ticAccept_only
  have hreg : ∀ r, r ≠ .TIC_WSTAT → r.group = .tic → ∀ i, (u.ticRingLine n.val).ticAccept.rg r i = u.rg r i := fun r hr hg i =>
    (State.rg_ticAccept _ hr i).trans (hl.rg (by rw [hg]; decide) i)
  generalize (u.ticRingLine n.val).ticAccept = t at *
  refine does_of_keeps hx ((he.mono (by decide)).trans ((hl.mono (by decide)).trans (ha.mono (by decide)))) ⟨?_, ?_, ?_, ?_, ?_, accept⟩
  · rw [tch_congr ((ha.same .tic (by decide)).trans (hl.same .tic (by decide))), base]
  · exact (State.fd_congr (hreg _ (by decide) rfl _)).trans size
  · rw [hreg _ (by decide) rfl, prod]
  · rw [hreg _ (by decide) rfl, cons]
  · exact (State.fb_congr (hreg _ (by decide) rfl _)).trans full

theorem ticRingCommit_range {s : State} {n : Fin 16} (h : s.Takes .TIC_RING_SZ n.val) {v : BitVec 32}
    (hk : 1 ≤ v.toNat % 16 ∧ v.toNat % 16 ≤ 3 ∨
      4 ≤ v.toNat % 16 ∧ s.inDdr (s.stagedBase n.val) (32 * 2 ^ (v.toNat % 16)) = false) :
    Does (.ticRingCommit n v) s [.regs .tic] (fun t =>
      t.rg .TIC_RING_SZ n.val = s.rg .TIC_RING_SZ n.val ∧ t.fb Fld.TIC_WSTAT.RANGE = true ∧ t.tch n.val = s.tch n.val) := by
  have hbad : (1 ≤ v.toNat % 16 ∧ v.toNat % 16 ≤ 3) ∨
      (v.toNat % 16 ≠ 0 ∧ (!s.inDdr (s.stagedBase n.val) (32 * 2 ^ (v.toNat % 16))) = true) := by
    rcases hk with hsmall | ⟨hsize, hout⟩
    · exact .inl hsmall
    · exact .inr ⟨by omega, by rw [hout]; rfl⟩
  have hx := exec_ticRingCommit h v
  rw [State.ringCommit_eq, if_pos hbad] at hx
  have range : s.ticRange.fb Fld.TIC_WSTAT.RANGE = true := State.fb_setB_same _ _ _ _ (by decide) (by decide)
  have hother : ∀ r, r ≠ .TIC_RING_LO → r ≠ .TIC_RING_HI → ∀ i, (s.ticRange.baseUnstaged n.val).rg r i = s.ticRange.rg r i :=
    fun r hlo hhi i => (State.rg_wr_other _ _ _ _ _ _ (.inl hhi.symm)).trans (State.rg_wr_other _ _ _ _ _ _ (.inl hlo.symm))
  have hr : Keeps (maskOf [.regs .tic]) s s.ticRange := State.ticRange_keeps (Keeps.refl _ s) (by decide)
  have hb : Keeps (maskOf [.regs .tic]) s (s.ticRange.baseUnstaged n.val) :=
    State.wr_keeps (State.wr_keeps hr .TIC_RING_LO (by decide) _ _) .TIC_RING_HI (by decide) _ _
  exact does_of_keeps hx hb ⟨(hother _ (by decide) (by decide) _).trans (State.rg_setB_other _ _ _ _ _ (by decide)),
    (State.fb_congr (hother _ (by decide) (by decide) _)).trans range, tch_congr (hb.same .tic (by decide)) n.val⟩

/-! ### The statement -/

/-- Settles O33: each write of the bank by its range, each edge by the channel it reaches. -/
theorem intervalCounterCommands : Obligations.IntervalCounterCommands := by
  unfold Obligations.IntervalCounterCommands
  intro s n v code c sz room place delivers
  have toRoom : room → RingRoom s n.val := fun ⟨calm, core, link, sized, free⟩ => ⟨calm, core, link, sized, free⟩
  refine ⟨fun h => ⟨fun hp => ticInWrite_taken h hp, fun hp => ticInWrite_range h hp⟩, fun hc hd => ⟨?_, ?_, ?_, ?_⟩,
    fun hc r m hm hp => streamSampleMissing_moves hc hm hp, fun hc hs => overfreqCheck_judges hc hs, fun h h0 h1 => ⟨?_, ?_⟩,
    fun hc o ho hr hroom => oneshotClose_expires hc ho hr (toRoom hroom), fun h => ?_, fun h => ?_, fun h => ⟨?_, ?_⟩⟩
  · exact fun hen => ticEdge_disabled hen code
  · exact fun hen hm hmode ho hr hl hroom => ticEdge_plain hc hd ⟨hen, hm, hmode, ho, hr, hl⟩ (toRoom hroom) code
  · exact fun hco => ticEdge_keeper hc hd hco code
  · exact fun ch h17 => ticEdge_time hc hd h17 code
  · exact fun ho hen => ticOsGo_opens h h0 h1 ho hen
  · exact fun ho => ticOsGo_refused h h0 h1 ho
  · exact does_stage (exec_ticRingBaseStage_hi h v) (by decide) (by decide)
  · exact does_stage (exec_ticRingBaseStage_lo h v) (by decide) (by decide)
  · exact fun hk hd => ticRingCommit_commits h hk hd
  · exact fun hk => ticRingCommit_range h hk

end Sys2Proof.Machine
end

section
/-!
Calibrations of the interval counter requested and started (R97, R101).
-/
namespace Sys2Proof.Machine

/-! ### Requests (R101) -/

theorem State.calRequest_busy {s : State} {n : Nat} (h : (s.tch n).calBusy = true) (byOwner : Bool) : s.calRequest n byOwner = s := if_pos h

theorem State.calRequest_idle {s : State} {n : Nat} (h : (s.tch n).calBusy = false) (byOwner : Bool) :
    s.calRequest n byOwner = s.setTch n { (s.tch n) with req := some ⟨s.now, byOwner⟩ } := if_neg (by rw [h]; decide)

theorem exec_ticCalGo {s : State} {n : Fin 16} (h : s.Takes .TIC_CFG n.val) (v : BitVec 32) :
    exec (.ticCalGo n v) s = .next (s.ticCfg n.val (v ||| 0x80000000#32)) :=
  congrArg Host.Outcome.next (State.hostRow_tic h _ (by decide) (by decide) rfl (by decide))

/-- A channel's configuration written and accepted: the level of its ring follows. -/
def State.cfgTaken (s : State) (n : Nat) (v : BitVec 32) : State := ((s.wrRw .TIC_CFG n v).ticRingLine n).ticAccept

theorem State.ticCfg_go {s : State} {v : BitVec 32} (n : Nat) (h : Fld.TIC_CFG.MODE.of v ≤ 1) :
    s.ticCfg n (v ||| 0x80000000#32) = (s.cfgTaken n (v ||| 0x80000000#32)).calRequest n true := by
  have hm : Fld.TIC_CFG.MODE.of (v ||| 0x80000000#32) = Fld.TIC_CFG.MODE.of v :=
    Fld.TIC_CFG.MODE.of_masked (m := 0x700F0000#32) (masked_or v (by decide)) (by decide) (by decide) (by decide)
  unfold State.ticCfg
  dsimp only
  rw [hm, if_neg (Nat.not_lt.2 h), if_pos (bitAt31_set v)]
  rfl

theorem State.cfgTaken_keeps (s : State) (n : Nat) (v : BitVec 32) :
    Keeps (maskOf [.irq, .regs .irqStat, .regs .tic]) s (s.cfgTaken n v) :=
  State.ticAccept_keeps (State.ticRingLine_keeps (State.wrRw_keeps (Keeps.refl _ s) (Nat.zero_and _) (by decide) n v) (by decide) n) (by decide)

theorem State.rg_cfgTaken (s : State) (n : Nat) (v : BitVec 32) :
    (s.cfgTaken n v).rg .TIC_CFG n &&& 0x700F0000#32 = v &&& 0x700F0000#32 := by
  unfold State.cfgTaken
  rw [State.rg_ticAccept _ (by decide), (State.ticRingLine_only _ n).rg (by decide), State.rg_wrRw_masked s n v (m := 0x700F0000#32) rfl]

theorem ticCalGo_requests {s : State} {n : Fin 16} (h : s.Takes .TIC_CFG n.val) {v : BitVec 32} (hm : Fld.TIC_CFG.MODE.of v ≤ 1) :
    Does (.ticCalGo n v) s [.irq, .tic, .regs .irqStat, .regs .tic] (fun t =>
      t.rg .TIC_CFG n.val &&& 0x700F0000#32 = v &&& 0x700F0000#32 ∧ t.fb Fld.TIC_WSTAT.ACCEPT = true ∧
        ((s.tch n.val).calBusy = false → t.tch n.val = { (s.tch n.val) with req := some ⟨s.now, true⟩ }) ∧
        ((s.tch n.val).calBusy = true → t.tch n.val = s.tch n.val)) := by
  have hx := exec_ticCalGo h v
  rw [State.ticCfg_go n.val hm] at hx
  have hk := s.cfgTaken_keeps n.val (v ||| 0x80000000#32)
  have word := (s.rg_cfgTaken n.val (v ||| 0x80000000#32)).trans (masked_or v (by decide))
  have accept : (s.cfgTaken n.val (v ||| 0x80000000#32)).fb Fld.TIC_WSTAT.ACCEPT = true := State.ticAccept_accepts _
  generalize s.cfgTaken n.val (v ||| 0x80000000#32) = u at hx hk word accept
  have hch : u.tch n.val = s.tch n.val := tch_congr (hk.same .tic (by decide)) n.val
  have hnow : u.now = s.now := congrArg Datum.word (hk.same .datum (by decide))
  cases hb : (s.tch n.val).calBusy with
  | true =>
    rw [State.calRequest_busy (by rw [hch, hb]) true] at hx
    exact does_of_keeps hx (hk.mono (by decide)) ⟨word, accept, fun hf => absurd hf (by decide), fun _ => hch⟩
  | false =>
    rw [State.calRequest_idle (by rw [hch, hb]) true] at hx
    refine does_of_keeps hx ((hk.mono (by decide)).trans ((u.setTch_only _ _).mono (by decide)))
      ⟨word, accept, fun _ => ?_, fun ht => absurd ht (by decide)⟩
    rw [State.tch_setTch_same, hch, hnow]

theorem calSchedule_requests {s : State} {ch : Fin 21} (hc : s.clockUp = true) (hd : s.calDue ch.val = true)
    (hb : (s.tch ch.val).calBusy = false) :
    Does (.calSchedule ch) s [.tic] (fun t =>
      t.tch ch.val = { (s.tch ch.val) with started := true, req := some ⟨s.now, false⟩ } ∧ ∀ k, k ≠ ch.val → t.tch k = s.tch k) := by
  have hs := s.tch_setTch_same ch.val { (s.tch ch.val) with started := true }
  have ho : ∀ k, k ≠ ch.val → (s.setTch ch.val { (s.tch ch.val) with started := true }).tch k = s.tch k :=
    fun k hk => State.tch_setTch_other _ _ hk
  have hk := s.setTch_only ch.val { (s.tch ch.val) with started := true }
  have hx : exec (.calSchedule ch) s =
      .next ((s.setTch ch.val { (s.tch ch.val) with started := true }).calRequest ch.val false) :=
    congrArg Host.Outcome.next (State.act_pos _ (by rw [hc, hd]; rfl))
  generalize s.setTch ch.val { (s.tch ch.val) with started := true } = u at hs ho hk hx
  rw [State.calRequest_idle (by rw [hs]; exact hb) false] at hx
  refine does_of_keeps hx (hk.trans (u.setTch_only _ _)) ⟨?_, fun k hk => (State.tch_setTch_other _ _ hk).trans (ho k hk)⟩
  rw [State.tch_setTch_same, hs, show u.now = s.now from congrArg Datum.word (hk.same .datum (by decide))]

theorem calSchedule_notDue {s : State} {ch : Fin 21} (hd : s.calDue ch.val = false) : Does (.calSchedule ch) s [] (fun _ => True) :=
  does_nothing (congrArg Host.Outcome.next (if_neg (by rw [hd]; simp)))

/-! ### A calibration starts (R97) -/

theorem State.calMark_only (s : State) (n : Nat) (b : Bool) : Keeps (maskOf [.regs .tic]) s (s.calMark n b) :=
  State.calMark_keeps (Keeps.refl _ s) (by decide) n b

theorem State.calMark_marks (s : State) {n : Nat} (b : Bool) (h : n < 16) : (s.calMark n b).fb Fld.TIC_STAT.CALIBRATING n = b := by
  unfold State.calMark
  rw [if_pos h]
  exact State.fb_setB_same _ _ _ _ (by decide) (by decide)

/-- The channel of a collection that starts now. -/
def State.runStarted (s : State) (n : Nat) : TicChan :=
  { (s.tch n) with req := none, run := some ⟨s.now, s.fd Fld.TIC_CAL_HITS.LOG2N, s.thm.clk, s.thm.clk, false⟩ }

theorem State.calStart_eq (s : State) (n : Nat) : s.calStart n = (s.setTch n (s.runStarted n)).calMark n true := rfl

theorem calStart_starts {s : State} {ch : Fin 21} (hc : s.clockUp = true) (hm : s.calMayStart ch.val = true) :
    Does (.calStart ch) s [.tic, .regs .tic] (fun t => t.tch ch.val = s.runStarted ch.val ∧
      (ch.val < 16 → t.fb Fld.TIC_STAT.CALIBRATING ch.val = true) ∧ ∀ k, k ≠ ch.val → t.tch k = s.tch k) := by
  have hx : exec (.calStart ch) s = .next (s.calStart ch.val) := congrArg Host.Outcome.next (State.act_pos _ (by rw [hc, hm]; rfl))
  rw [State.calStart_eq] at hx
  have hs := s.tch_setTch_same ch.val (s.runStarted ch.val)
  have ho : ∀ k, k ≠ ch.val → (s.setTch ch.val (s.runStarted ch.val)).tch k = s.tch k := fun k hk => State.tch_setTch_other _ _ hk
  have hk := s.setTch_only ch.val (s.runStarted ch.val)
  generalize s.setTch ch.val (s.runStarted ch.val) = u at hx hs ho hk
  have hmark := u.calMark_only ch.val true
  have htic : (u.calMark ch.val true).tic = u.tic := hmark.same .tic (by decide)
  exact does_of_keeps hx ((hk.mono (by decide)).trans (hmark.mono (by decide)))
    ⟨(tch_congr htic _).trans hs, u.calMark_marks true, fun k hk => (tch_congr htic k).trans (ho k hk)⟩

theorem calStart_waits {s : State} {ch : Fin 21} (hm : s.calMayStart ch.val = false) : Does (.calStart ch) s [] (fun _ => True) :=
  does_nothing (congrArg Host.Outcome.next (if_neg (by rw [hm]; simp)))

end Sys2Proof.Machine
end

section
/-!
Calibrations of the interval counter that end (R97 to R100): with an accepted table, with a failing test of Table 4.3, or refused for want of a gap.
-/
namespace Sys2Proof.Machine

/-! ### A collection ends (R98 to R100) -/

/-- A channel whose collection has ended. -/
def State.runEnded (s : State) (n : Nat) : State := (s.setTch n { (s.tch n) with run := none }).calMark n false

/-- The result of a collection in TIC_CALSTAT of a user channel, with the length and the widest bin of its active span. -/
def State.resultShown (s : State) (n res log2n : Nat) (span : List Nat) : State :=
  if n < 16 then
    ((s.setF Fld.TIC_CALSTAT.RESULT res n).setF Fld.TIC_CALSTAT.ACTIVE (span.length % 2048) n).setF Fld.TIC_CALSTAT.MAXW
      (Nat.min 0xFFFF (ceilDiv (800000 * maxOf span) (2 ^ log2n))) n
  else s

/-- An accepted table put in force: for the channel, in its registers and in the Cairn store. -/
def State.tableTaken (s : State) (n : Nat) (t : CalTable) : State :=
  let u := (s.setTch n { (s.tch n) with table := some t }).showTable n t
  { u with cairn := { u.cairn with tic := SMap.insert id u.cairn.tic n t } }

/-- The flags of a user channel with an accepted table. -/
def State.tableMarked (s : State) (n : Nat) (drift : Bool) : State :=
  if n < 16 then
    ((s.setB Fld.TIC_STAT.STALE false n).setB Fld.TIC_STAT.UNCAL false n).setB Fld.TIC_CALSTAT.DRIFT drift n
  else s

/-- The flag of a user channel whose collection failed. -/
def State.staleMarked (s : State) (n : Nat) : State := if n < 16 then s.setB Fld.TIC_STAT.STALE true n else s

/-- A fault of a channel's record. -/
def ticFault (n cause cls : Nat) : Raise := { rec_ := ticRecord n, cause := cause, cls := cls }

/-- The table that a collection's counts make up (R96, R97). -/
def State.tableOf (s : State) (run : CalRun) (hits : List Nat) : CalTable :=
  ⟨(activeSpan hits).1, calWidths (activeSpan hits).2 (2 ^ run.log2n), run.log2n, s.thm.clk, s.now⟩

/-- The state in which a collection's result shows. -/
def State.calEnded (s : State) (n issued : Nat) (hits : List Nat) (run : CalRun) : State :=
  (s.runEnded n).resultShown n (calResult run issued hits) run.log2n (activeSpan hits).2

theorem State.calComplete_accepted {s : State} {n issued : Nat} {hits : List Nat} {run : CalRun} (hrun : (s.tch n).run = some run)
    (hr : s.reached (run.from_.plus (calLength run.log2n)) = true) (hres : calResult run issued hits = 1)
    (hd : calDrift (s.tch n).table (s.tableOf run hits).lo (s.tableOf run hits).widths = false) :
    s.calComplete n issued hits = ((s.calEnded n issued hits run).tableTaken n (s.tableOf run hits)).tableMarked n false := by
  unfold State.tableOf at hd
  unfold State.calComplete State.calEnded State.tableTaken State.tableMarked State.resultShown State.runEnded State.tableOf
  dsimp only at hd ⊢
  rw [hrun]
  dsimp only
  rw [if_neg (by rw [hr]; decide), if_pos hres, hd, if_neg (by decide)]

theorem State.calComplete_failed {s : State} {n issued : Nat} {hits : List Nat} {run : CalRun} (hrun : (s.tch n).run = some run)
    (hr : s.reached (run.from_.plus (calLength run.log2n)) = true) (hres : calResult run issued hits ≠ 1) :
    s.calComplete n issued hits = ((s.calEnded n issued hits run).staleMarked n).raise (ticFault n 3 1) := by
  unfold State.calComplete State.calEnded State.staleMarked State.resultShown State.runEnded ticFault
  dsimp only
  rw [hrun]
  dsimp only
  rw [if_neg (by rw [hr]; decide), if_neg hres]

/-- The RESULT of Table 4.3 lies in its field. -/
theorem calResult_lt (run : CalRun) (issued : Nat) (hits : List Nat) : calResult run issued hits < 16 := by
  unfold calResult
  dsimp only
  repeat' split
  all_goals decide

theorem State.resultShown_only (s : State) (n res log2n : Nat) (span : List Nat) :
    Keeps (maskOf [.regs .tic]) s (s.resultShown n res log2n span) := by
  unfold State.resultShown
  split
  · exact State.setF_keeps (State.setF_keeps (State.setF_keeps (Keeps.refl _ s) (Nat.zero_and _) (by decide) _ _) (Nat.zero_and _)
      (by decide) _ _) (Nat.zero_and _) (by decide) _ _
  · exact Keeps.refl _ s

theorem State.rg_resultShown (s : State) (n res log2n : Nat) (span : List Nat) {r : Reg} (hr : r ≠ .TIC_CALSTAT) (i : Nat) :
    (s.resultShown n res log2n span).rg r i = s.rg r i := by
  unfold State.resultShown
  split
  · rw [State.rg_setF_other _ _ _ _ _ hr.symm, State.rg_setF_other _ _ _ _ _ hr.symm, State.rg_setF_other _ _ _ _ _ hr.symm]
  · rfl

theorem State.resultShown_shows (s : State) {n res : Nat} (hn : n < 16) (hres : res < 16) (log2n : Nat) (span : List Nat) :
    (s.resultShown n res log2n span).fd Fld.TIC_CALSTAT.RESULT n = res := by
  unfold State.resultShown
  rw [if_pos hn, State.fd_setF_apart _ (by decide), State.fd_setF_apart _ (by decide),
    State.fd_setF_same _ _ _ _ (by decide) (by decide)]
  exact Nat.mod_eq_of_lt hres

/-- What a collection leaves when it ends, whatever its result. -/
structure CalEnded (s t : State) (n res : Nat) : Prop where
  chan   : t.tch n = { (s.tch n) with run := none }
  idle   : n < 16 → t.fb Fld.TIC_STAT.CALIBRATING n = false
  result : n < 16 → t.fd Fld.TIC_CALSTAT.RESULT n = res
  keeps  : Keeps (maskOf [.tic, .regs .tic]) s t

theorem State.calEnded_ended (s : State) (n issued : Nat) (hits : List Nat) (run : CalRun) :
    CalEnded s (s.calEnded n issued hits run) n (calResult run issued hits) := by
  unfold State.calEnded State.runEnded
  have hs := s.tch_setTch_same n { (s.tch n) with run := none }
  have hk := s.setTch_only n { (s.tch n) with run := none }
  generalize s.setTch n { (s.tch n) with run := none } = u at hs hk ⊢
  have hm := u.calMark_only n false
  have hmark := fun hn : n < 16 => u.calMark_marks false hn
  generalize u.calMark n false = w at hm hmark ⊢
  have ho := w.resultShown_only n (calResult run issued hits) run.log2n (activeSpan hits).2
  refine ⟨?_, fun hn => ?_, fun hn => w.resultShown_shows hn (calResult_lt run issued hits) _ _, ?_⟩
  · rw [tch_congr (ho.same .tic (by decide)), tch_congr (hm.same .tic (by decide)), hs]
  · exact (State.fb_congr (w.rg_resultShown _ _ _ _ (by decide) _)).trans (hmark hn)
  · exact ((hk.mono (by decide)).trans (hm.mono (by decide))).trans (ho.mono (by decide))

/-- The width registers alone show a table. -/
theorem State.rg_showTable (s : State) (n : Nat) (t : CalTable) {r : Reg} (hr : r ≠ .TIC_BIN) (i : Nat) :
    (s.showTable n t).rg r i = s.rg r i := by
  unfold State.showTable
  split
  · rfl
  · exact foldl_unchanged (f := fun u => u.rg r i) (fun u j => State.rg_wr_other _ _ _ _ _ _ (.inl hr.symm)) _ s

/-- The state with another Cairn store. -/
def State.setCairn (s : State) (c : Cairn) : State := { s with cairn := c }

theorem State.setCairn_only (s : State) (c : Cairn) : Keeps (maskOf [.cairn]) s (s.setCairn c) := by
  refine ⟨rfl, id, id, id, Fuses.Le.refl _, fun p hp => ?_⟩
  cases p <;> first | exact rfl | exact fun _ _ _ => rfl | exact absurd hp (by decide)

/-- What an accepted table leaves. -/
structure TableTaken (s t : State) (n : Nat) (tab : CalTable) : Prop where
  chan   : t.tch n = { (s.tch n) with table := some tab }
  stored : SMap.find t.cairn.tic n = some tab
  others : ∀ r, r.group = .tic → r ≠ .TIC_BIN → ∀ i, t.rg r i = s.rg r i
  keeps  : Keeps (maskOf [.tic, .cairn, .regs .tic]) s t

theorem State.tableTaken_taken (s : State) (n : Nat) (tab : CalTable) : TableTaken s (s.tableTaken n tab) n tab := by
  unfold State.tableTaken
  dsimp only
  have hs := s.tch_setTch_same n { (s.tch n) with table := some tab }
  have hk := s.setTch_only n { (s.tch n) with table := some tab }
  generalize s.setTch n { (s.tch n) with table := some tab } = u at hs hk ⊢
  have hshow : Keeps (maskOf [.regs .tic]) u (u.showTable n tab) := State.showTable_keeps (Keeps.refl _ u) (by decide) n tab
  have hreg := fun (r : Reg) (hr : r ≠ .TIC_BIN) i => u.rg_showTable n tab hr i
  generalize u.showTable n tab = w at hshow hreg ⊢
  have hc := w.setCairn_only { w.cairn with tic := SMap.insert id w.cairn.tic n tab }
  refine ⟨(tch_congr (hc.same .tic (by decide)) n).trans ((tch_congr (hshow.same .tic (by decide)) n).trans hs),
    SMap.find_insert_same _ _ _ _, fun r hg hr i => ?_,
    ((hk.mono (by decide)).trans (hshow.mono (by decide))).trans (hc.mono (by decide))⟩
  exact (hc.rg (by rw [hg]; decide) i).trans ((hreg r hr i).trans (hk.rg (by rw [hg]; decide) i))

theorem State.tableMarked_only (s : State) (n : Nat) (drift : Bool) : Keeps (maskOf [.regs .tic]) s (s.tableMarked n drift) := by
  unfold State.tableMarked
  split
  · exact State.setB_keeps (State.setB_keeps (State.setB_keeps (Keeps.refl _ s) (Nat.zero_and _) (by decide) _ _) (Nat.zero_and _)
      (by decide) _ _) (Nat.zero_and _) (by decide) _ _
  · exact Keeps.refl _ s

/-- A user channel with an accepted table is neither stale nor uncalibrated; its other flags and its result stay. -/
theorem State.tableMarked_shows (s : State) {n : Nat} (hn : n < 16) (drift : Bool) :
    (s.tableMarked n drift).fb Fld.TIC_STAT.STALE n = false ∧ (s.tableMarked n drift).fb Fld.TIC_STAT.UNCAL n = false ∧
      (s.tableMarked n drift).fb Fld.TIC_STAT.CALIBRATING n = s.fb Fld.TIC_STAT.CALIBRATING n ∧
      (s.tableMarked n drift).fd Fld.TIC_CALSTAT.RESULT n = s.fd Fld.TIC_CALSTAT.RESULT n := by
  unfold State.tableMarked
  rw [if_pos hn]
  refine ⟨?_, ?_, ?_, ?_⟩
  · rw [State.fb_setB_apart _ (by decide), State.fb_setB_apart _ (by decide), State.fb_setB_same _ _ _ _ (by decide) (by decide)]
  · rw [State.fb_setB_apart _ (by decide), State.fb_setB_same _ _ _ _ (by decide) (by decide)]
  · rw [State.fb_setB_apart _ (by decide), State.fb_setB_apart _ (by decide), State.fb_setB_apart _ (by decide)]
  · rw [State.fd_setB_apart _ (by decide), State.fd_setB_apart _ (by decide), State.fd_setB_apart _ (by decide)]

theorem calComplete_accepts {s : State} {ch : Fin 21} {issued : Nat} {hits : List Nat} {run : CalRun} (hc : s.clockUp = true)
    (hrun : (s.tch ch.val).run = some run) (hr : s.reached (run.from_.plus (calLength run.log2n)) = true)
    (hres : calResult run issued hits = 1)
    (hd : calDrift (s.tch ch.val).table (s.tableOf run hits).lo (s.tableOf run hits).widths = false) :
    Does (.calComplete ch issued hits) s [.tic, .cairn, .regs .tic] (fun t =>
      t.tch ch.val = { (s.tch ch.val) with run := none, table := some (s.tableOf run hits) } ∧
        SMap.find t.cairn.tic ch.val = some (s.tableOf run hits) ∧
        (ch.val < 16 → t.fb Fld.TIC_STAT.CALIBRATING ch.val = false ∧ t.fb Fld.TIC_STAT.STALE ch.val = false ∧
          t.fb Fld.TIC_STAT.UNCAL ch.val = false ∧ t.fd Fld.TIC_CALSTAT.RESULT ch.val = 1)) := by
  have hx : exec (.calComplete ch issued hits) s =
      .next (((s.calEnded ch.val issued hits run).tableTaken ch.val (s.tableOf run hits)).tableMarked ch.val false) :=
    congrArg Host.Outcome.next ((State.act_pos _ hc).trans (State.calComplete_accepted hrun hr hres hd))
  obtain ⟨chan, idle, result, keeps⟩ := s.calEnded_ended ch.val issued hits run
  generalize s.calEnded ch.val issued hits run = u at hx chan idle result keeps
  obtain ⟨chanT, stored, others, keepsT⟩ := u.tableTaken_taken ch.val (s.tableOf run hits)
  generalize u.tableTaken ch.val (s.tableOf run hits) = w at hx chanT stored others keepsT
  have hm := w.tableMarked_only ch.val false
  refine does_of_keeps hx (((keeps.mono (by decide)).trans keepsT).trans (hm.mono (by decide))) ⟨?_, ?_, fun hn => ?_⟩
  · rw [tch_congr (hm.same .tic (by decide)), chanT, chan]
  · exact (congrArg (fun c : Cairn => SMap.find c.tic ch.val) (hm.same .cairn (by decide))).trans stored
  · obtain ⟨stale, uncal, calibrating, res⟩ := w.tableMarked_shows hn false
    refine ⟨calibrating.trans ?_, stale, uncal, res.trans ?_⟩
    · exact (State.fb_congr (others _ (by decide) (by decide) _)).trans (idle hn)
    · exact (State.fd_congr (others _ (by decide) (by decide) _)).trans ((result hn).trans hres)

/-- A fault of a channel: its record stands in the Keeper region (Table 11.3). -/
theorem State.ticFault_raises (s : State) {n cause cls : Nat} (hn : n < 21) (hv : s.pwr.vddKeep = true) (hcls : cls ≠ 3)
    (hcause : cause < 32) : Raised (s.raise (ticFault n cause cls)) (226 + n) cause ∧
      Keeps (maskOf raising) s (s.raise (ticFault n cause cls)) := by
  have hk : keeperRecord (ticRecord n) = true := by
    unfold keeperRecord ticRecord
    exact decide_eq_true (.inl ⟨by omega, by omega⟩)
  have hup : s.recordUp (ticFault n cause cls).rec_ = true := (if_pos hk).trans hv
  exact ⟨State.raise_minor_raised (r := ticFault n cause cls) hcls hup hcause, State.raise_minor_keeps hcls (Keeps.refl _ s) rfl⟩

theorem State.staleMarked_only (s : State) (n : Nat) : Keeps (maskOf [.regs .tic]) s (s.staleMarked n) := by
  unfold State.staleMarked
  split
  · exact State.setB_keeps (Keeps.refl _ s) (Nat.zero_and _) (by decide) _ _
  · exact Keeps.refl _ s

theorem State.staleMarked_shows (s : State) {n : Nat} (hn : n < 16) : (s.staleMarked n).fb Fld.TIC_STAT.STALE n = true ∧
    (s.staleMarked n).fb Fld.TIC_STAT.CALIBRATING n = s.fb Fld.TIC_STAT.CALIBRATING n ∧
    (s.staleMarked n).fd Fld.TIC_CALSTAT.RESULT n = s.fd Fld.TIC_CALSTAT.RESULT n := by
  unfold State.staleMarked
  rw [if_pos hn]
  exact ⟨State.fb_setB_same _ _ _ _ (by decide) (by decide),
    State.fb_setB_apart _ (by decide) _ _ _, State.fd_setB_apart _ (by decide) _ _ _⟩

theorem calComplete_fails {s : State} {ch : Fin 21} {issued : Nat} {hits : List Nat} {run : CalRun} (hc : s.clockUp = true)
    (hrun : (s.tch ch.val).run = some run) (hr : s.reached (run.from_.plus (calLength run.log2n)) = true)
    (hres : calResult run issued hits ≠ 1) (hv : s.pwr.vddKeep = true) :
    Does (.calComplete ch issued hits) s ([.tic, .regs .tic] ++ raising) (fun t =>
      t.tch ch.val = { (s.tch ch.val) with run := none } ∧ Raised t (226 + ch.val) 3 ∧
        (ch.val < 16 → t.fb Fld.TIC_STAT.CALIBRATING ch.val = false ∧ t.fb Fld.TIC_STAT.STALE ch.val = true ∧
          t.fd Fld.TIC_CALSTAT.RESULT ch.val = calResult run issued hits)) := by
  have hx : exec (.calComplete ch issued hits) s =
      .next (((s.calEnded ch.val issued hits run).staleMarked ch.val).raise (ticFault ch.val 3 1)) :=
    congrArg Host.Outcome.next ((State.act_pos _ hc).trans (State.calComplete_failed hrun hr hres))
  obtain ⟨chan, idle, result, keeps⟩ := s.calEnded_ended ch.val issued hits run
  generalize s.calEnded ch.val issued hits run = u at hx chan idle result keeps
  have hm := u.staleMarked_only ch.val
  have hshows := fun hn : ch.val < 16 => u.staleMarked_shows hn
  generalize u.staleMarked ch.val = w at hx hm hshows
  have hpwr : w.pwr = s.pwr := (hm.same .pwr (by decide)).trans (keeps.same .pwr (by decide))
  obtain ⟨raised, hf⟩ := w.ticFault_raises (cause := 3) (cls := 1) ch.isLt (by rw [hpwr, hv]) (by decide) (by decide)
  refine does_of_keeps hx (((keeps.mono (by decide)).trans (hm.mono (by decide))).trans (hf.mono (by decide)))
    ⟨?_, raised, fun hn => ?_⟩
  · rw [tch_congr (hf.same .tic (by decide)), tch_congr (hm.same .tic (by decide)), chan]
  · obtain ⟨stale, calibrating, res⟩ := hshows hn
    exact ⟨(hf.fb (f := Fld.TIC_STAT.CALIBRATING) (by decide) _).trans (calibrating.trans (idle hn)),
      (hf.fb (f := Fld.TIC_STAT.STALE) (by decide) _).trans stale,
      (hf.fd (f := Fld.TIC_CALSTAT.RESULT) (by decide) _).trans (res.trans (result hn))⟩

/-! ### A request without a gap (R97) -/

/-- A request refused: it is withdrawn, and TIC_WSTAT and the channel's result say so. -/
def State.calWithdrawn (s : State) (n : Nat) : State :=
  let u := (s.setTch n { (s.tch n) with req := none }).setB Fld.TIC_WSTAT.CAL_REFUSED true
  if n < 16 then u.setF Fld.TIC_CALSTAT.RESULT 8 n else u

theorem State.calRefuse_eq {s : State} {n : Nat} {r : CalReq} (hr : (s.tch n).req = some r) (hm : (s.streamMark n).isSome = true)
    (ht : s.reached (r.at_.plus (10 * secCount)) = true) : s.calRefuse n = (s.calWithdrawn n).raise (ticFault n 31 0) := by
  unfold State.calRefuse State.calWithdrawn ticFault
  dsimp only
  rw [hr]
  dsimp only
  rw [if_pos ⟨hm, ht⟩]

theorem State.calWithdrawn_shows (s : State) (n : Nat) : (s.calWithdrawn n).tch n = { (s.tch n) with req := none } ∧
    (s.calWithdrawn n).fb Fld.TIC_WSTAT.CAL_REFUSED = true ∧ Keeps (maskOf [.tic, .regs .tic]) s (s.calWithdrawn n) := by
  unfold State.calWithdrawn
  dsimp only
  have hs := s.tch_setTch_same n { (s.tch n) with req := none }
  have hk := s.setTch_only n { (s.tch n) with req := none }
  generalize s.setTch n { (s.tch n) with req := none } = u at hs hk ⊢
  have hb : Keeps (maskOf [.regs .tic]) u (u.setB Fld.TIC_WSTAT.CAL_REFUSED true) :=
    State.setB_keeps (Keeps.refl _ u) (Nat.zero_and _) (by decide) _ _
  have hflag := State.fb_setB_same u Fld.TIC_WSTAT.CAL_REFUSED true 0 (by decide) (by decide)
  generalize u.setB Fld.TIC_WSTAT.CAL_REFUSED true = w at hb hflag ⊢
  have hw : Keeps (maskOf [.tic, .regs .tic]) s w := (hk.mono (by decide)).trans (hb.mono (by decide))
  have hch : w.tch n = { (s.tch n) with req := none } := (tch_congr (hb.same .tic (by decide)) n).trans hs
  split
  · have hf : Keeps (maskOf [.regs .tic]) w (w.setF Fld.TIC_CALSTAT.RESULT 8 n) :=
      State.setF_keeps (Keeps.refl _ w) (Nat.zero_and _) (by decide) _ _
    exact ⟨(tch_congr (hf.same .tic (by decide)) n).trans hch,
      (State.fb_congr (State.rg_setF_other _ _ _ _ _ (by decide))).trans hflag, hw.trans (hf.mono (by decide))⟩
  · exact ⟨hch, hflag, hw⟩

theorem calRefusedNoGap_refuses {s : State} {ch : Fin 21} {r : CalReq} (hc : s.clockUp = true) (hr : (s.tch ch.val).req = some r)
    (hm : (s.streamMark ch.val).isSome = true) (ht : s.reached (r.at_.plus (10 * secCount)) = true) (hv : s.pwr.vddKeep = true) :
    Does (.calRefusedNoGap ch) s ([.tic, .regs .tic] ++ raising) (fun t =>
      t.tch ch.val = { (s.tch ch.val) with req := none } ∧ t.fb Fld.TIC_WSTAT.CAL_REFUSED = true ∧ Raised t (226 + ch.val) 31) := by
  have hx : exec (.calRefusedNoGap ch) s = .next ((s.calWithdrawn ch.val).raise (ticFault ch.val 31 0)) :=
    congrArg Host.Outcome.next ((State.act_pos _ hc).trans (State.calRefuse_eq hr hm ht))
  obtain ⟨chan, refused, hk⟩ := s.calWithdrawn_shows ch.val
  generalize s.calWithdrawn ch.val = u at hx chan refused hk
  have hpwr : u.pwr = s.pwr := hk.same .pwr (by decide)
  obtain ⟨raised, hf⟩ := u.ticFault_raises (cause := 31) (cls := 0) ch.isLt (by rw [hpwr, hv]) (by decide) (by decide)
  exact does_of_keeps hx ((hk.mono (by decide)).trans (hf.mono (by decide)))
    ⟨(tch_congr (hf.same .tic (by decide)) _).trans chan, (hf.fb (f := Fld.TIC_WSTAT.CAL_REFUSED) (by decide) 0).trans refused, raised⟩

end Sys2Proof.Machine
end

section
/-!
The keeper check (R102, R103, R128, R140), and the statement about calibrations and the keeper.
-/
namespace Sys2Proof.Machine

/-! ### The keeper's deviation judged (R103, R128) -/

/-- Whether a deviation shows that the keeper disagrees: it was measured, and it exceeds the alarm. -/
def State.keeperBad (s : State) (dev : BitVec 32) : Bool :=
  decide (dev ≠ 0x80000000#32 ∧ (s.rg .TIC_KX_ALARM 0).toNat < dev.toInt.natAbs)

/-- KEEPER_DIS set, with its record at the change. -/
def State.disagreed (s : State) : State :=
  if s.fb Fld.ENS_STAT.KEEPER_DIS then s else (s.setB Fld.ENS_STAT.KEEPER_DIS true).journal 0x0B 0xFF 0 s.now 0 0 0 []

/-- The fault of a keeper that disagrees. -/
def keeperFault : Raise := { rec_ := 242, cause := 14, cls := 1 }

/-- The present second takes no part in learning. -/
def State.secExcluded (s : State) : State := { s with ens := { s.ens with exclUntil := Nat.max s.ens.exclUntil s.now.sec.toNat } }

/-- A second that shows no disagreement, after one that showed none, changes nothing. -/
theorem State.keeperJudge_calm {s : State} {dev : BitVec 32} (hb : s.keeperBad dev = false)
    (hdis : s.fb Fld.ENS_STAT.KEEPER_DIS = false) : s.keeperJudge dev = s := by
  unfold State.keeperBad at hb
  unfold State.keeperJudge
  dsimp only
  rw [hb, hdis]
  rfl

theorem State.keeperJudge_bad {s : State} {dev : BitVec 32} (hb : s.keeperBad dev = true) :
    s.keeperJudge dev = (s.disagreed.raise keeperFault).unbridge.secExcluded := by
  unfold State.keeperBad at hb
  unfold State.keeperJudge State.disagreed State.secExcluded keeperFault
  dsimp only
  rw [hb, if_pos rfl]
  cases s.fb Fld.ENS_STAT.KEEPER_DIS <;> rfl

theorem State.disagreed_disagrees (s : State) : s.disagreed.fb Fld.ENS_STAT.KEEPER_DIS = true ∧
    Keeps (maskOf [.trv, .regs .ens, .regs .traverse]) s s.disagreed := by
  unfold State.disagreed
  split
  · next h => exact ⟨h, Keeps.refl _ s⟩
  · have hb : Keeps (maskOf [.regs .ens]) s (s.setB Fld.ENS_STAT.KEEPER_DIS true) :=
      State.setB_keeps (Keeps.refl _ s) (Nat.zero_and _) (by decide) _ _
    have hflag := State.fb_setB_same s Fld.ENS_STAT.KEEPER_DIS true 0 (by decide) (by decide)
    have hj := State.journal_keeps (Keeps.refl (maskOf [.trv, .regs .traverse]) (s.setB Fld.ENS_STAT.KEEPER_DIS true)) (by decide)
      0x0B 0xFF 0 s.now 0 0 0 []
    exact ⟨(hj.fb (f := Fld.ENS_STAT.KEEPER_DIS) (by decide) 0).trans hflag, (hb.mono (by decide)).trans (hj.mono (by decide))⟩

theorem State.unbridge_unbridges (s : State) {k : Coast} (h : s.unbridge.trv.coast = some k) (hrun : k.running = true) :
    k.noBridge = true := by
  unfold State.unbridge at h
  obtain ⟨c, -, rfl⟩ := Option.map_eq_some_iff.1 h
  by_cases hc : c.running = true
  · rw [if_pos hc]
  · rw [if_neg hc] at hrun
    exact absurd hrun hc

theorem State.unbridge_only (s : State) : Keeps (maskOf [.trv]) s s.unbridge := State.unbridge_keeps (Keeps.refl _ s) (by decide)

theorem State.secExcluded_only (s : State) : Keeps (maskOf [.ens]) s s.secExcluded := by
  refine ⟨rfl, id, id, id, Fuses.Le.refl _, fun p hp => ?_⟩
  cases p <;> first | exact rfl | exact fun _ _ _ => rfl | exact absurd hp (by decide)

/-- What a second that shows a disagreement leaves: the flag, the fault, no bridge in a running coast, and a second that is not learnt
from. -/
structure KeeperDisagrees (s t : State) : Prop where
  flag     : t.fb Fld.ENS_STAT.KEEPER_DIS = true
  raised   : Raised t 242 14
  excluded : s.now.sec.toNat ≤ t.ens.exclUntil
  noBridge : ∀ k, t.trv.coast = some k → k.running = true → k.noBridge = true
  keeps    : Keeps (maskOf ([.trv, .ens, .regs .ens, .regs .traverse] ++ raising)) s t

theorem State.keeperJudge_disagrees {s : State} {dev : BitVec 32} (hb : s.keeperBad dev = true) (hv : s.pwr.vddKeep = true) :
    KeeperDisagrees s (s.keeperJudge dev) := by
  rw [State.keeperJudge_bad hb]
  obtain ⟨flag, hk⟩ := s.disagreed_disagrees
  generalize s.disagreed = u at flag hk ⊢
  have hup : u.recordUp keeperFault.rec_ = true := (congrArg PwrState.vddKeep (hk.same .pwr (by decide))).trans hv
  have raised := State.raise_minor_raised (s := u) (r := keeperFault) (by decide) hup (by decide)
  have hr : Keeps (maskOf raising) u (u.raise keeperFault) := State.raise_minor_keeps (by decide) (Keeps.refl _ u) rfl
  generalize u.raise keeperFault = w at raised hr ⊢
  have hun := w.unbridge_only
  have bridge := fun (k : Coast) (h : w.unbridge.trv.coast = some k) => w.unbridge_unbridges h
  generalize w.unbridge = x at hun bridge ⊢
  have hex := x.secExcluded_only
  have hnow : x.now = s.now := congrArg Datum.word ((hun.same .datum (by decide)).trans ((hr.same .datum (by decide)).trans
    (hk.same .datum (by decide))))
  refine ⟨?_, ?_, ?_, ?_, ?_⟩
  · rw [hex.fb (by decide), hun.fb (by decide), hr.fb (by decide), flag]
  · exact (raised.keeps hun (by decide)).keeps hex (by decide)
  · rw [← hnow]
    exact Nat.le_max_right _ _
  · rw [show x.secExcluded.trv = x.trv from hex.same .trv (by decide)]
    exact bridge
  · exact ((hk.mono (by decide)).trans (hr.mono (by decide))).trans ((hun.mono (by decide)).trans (hex.mono (by decide)))

/-! ### KEEPER_CHECK -/

/-- The bank with no record of channel K in the present second. -/
def State.recordsCleared (s : State) : TicState := { s.tic with kFirst := none, kLast := none, kCount := 0 }

/-- A second's deviation shown, and the count of channel K's records begun again. -/
def State.keeperShown (s : State) : State :=
  (s.setTic s.recordsCleared).wr .TIC_KX_DEV 0 s.keeperDev

theorem exec_keeperCheck {s : State} (hc : s.clockUp = true) (hs : SMap.find s.secDone 2 ≠ some s.now.sec.toNat) :
    exec .keeperCheck s = .next ((s.secTaken 2).keeperShown.keeperJudge s.keeperDev) :=
  congrArg Host.Outcome.next ((State.act_pos _ hc).trans (State.once_pos _ hs))

theorem State.keeperShown_shows (s : State) : s.keeperShown.rg .TIC_KX_DEV 0 = s.keeperDev ∧
    s.keeperShown.tic = s.recordsCleared ∧
    s.keeperShown.rg .TIC_KX_ALARM 0 = s.rg .TIC_KX_ALARM 0 ∧ Keeps (maskOf [.tic, .regs .tic]) s s.keeperShown := by
  unfold State.keeperShown
  have hk := s.setTic_only s.recordsCleared
  exact ⟨State.rg_wr_same _ _ _ _, State.wr_tic _ _ _ _,
    State.rg_wr_other (s.setTic s.recordsCleared) .TIC_KX_DEV .TIC_KX_ALARM 0 0 _ (.inl (by decide)),
    State.wr_keeps (hk.mono (by decide)) .TIC_KX_DEV (by decide) 0 _⟩

/-- The state that a second's judgement reads: the deviation shown, the alarm and the flag as they were. -/
structure KeeperRead (s t : State) : Prop where
  dev   : t.rg .TIC_KX_DEV 0 = s.keeperDev
  tic   : t.tic = s.recordsCleared
  judge : t.keeperBad s.keeperDev = s.keeperBad s.keeperDev
  keeps : Keeps (maskOf [.tic, .secDone, .regs .tic]) s t

theorem State.keeperShown_read (s : State) : KeeperRead s (s.secTaken 2).keeperShown := by
  obtain ⟨dev, tic, alarm, hk⟩ := (s.secTaken 2).keeperShown_shows
  refine ⟨dev, tic, ?_, ((s.secTaken_only 2).mono (by decide)).trans (hk.mono (by decide))⟩
  unfold State.keeperBad
  rw [alarm]
  rfl

theorem keeperCheck_agrees {s : State} (hc : s.clockUp = true) (hs : SMap.find s.secDone 2 ≠ some s.now.sec.toNat)
    (hb : s.keeperBad s.keeperDev = false) (hdis : s.fb Fld.ENS_STAT.KEEPER_DIS = false) :
    Does .keeperCheck s [.tic, .secDone, .regs .tic] (fun t =>
      t.rg .TIC_KX_DEV 0 = s.keeperDev ∧ t.tic = s.recordsCleared) := by
  have hx := exec_keeperCheck hc hs
  obtain ⟨dev, tic, judge, keeps⟩ := s.keeperShown_read
  generalize (s.secTaken 2).keeperShown = u at hx dev tic judge keeps
  rw [State.keeperJudge_calm (judge.trans hb) ((keeps.fb (f := Fld.ENS_STAT.KEEPER_DIS) (by decide) 0).trans hdis)] at hx
  exact does_of_keeps hx keeps ⟨dev, tic⟩

theorem keeperCheck_disagrees {s : State} (hc : s.clockUp = true) (hs : SMap.find s.secDone 2 ≠ some s.now.sec.toNat)
    (hb : s.keeperBad s.keeperDev = true) (hv : s.pwr.vddKeep = true) :
    Does .keeperCheck s ([.tic, .trv, .ens, .secDone, .regs .tic, .regs .ens, .regs .traverse] ++ raising) (fun t =>
      t.rg .TIC_KX_DEV 0 = s.keeperDev ∧ t.fb Fld.ENS_STAT.KEEPER_DIS = true ∧ Raised t 242 14 ∧
        s.now.sec.toNat ≤ t.ens.exclUntil ∧ ∀ k, t.trv.coast = some k → k.running = true → k.noBridge = true) := by
  have hx := exec_keeperCheck hc hs
  obtain ⟨dev, -, judge, keeps⟩ := s.keeperShown_read
  generalize (s.secTaken 2).keeperShown = u at hx dev judge keeps
  have hvu : u.pwr.vddKeep = true := (congrArg PwrState.vddKeep (keeps.same .pwr (by decide))).trans hv
  have hnow : u.now = s.now := congrArg Datum.word (keeps.same .datum (by decide))
  obtain ⟨flag, raised, excluded, noBridge, hj⟩ := State.keeperJudge_disagrees (judge.trans hb) hvu
  rw [hnow] at excluded
  exact does_of_keeps hx ((keeps.mono (by decide)).trans (hj.mono (by decide)))
    ⟨(hj.rg (by decide) 0).trans dev, flag, raised, excluded, noBridge⟩

/-! ### The statement -/

/-- Settles O34: each calibration by what its request, its gap and its result allow, each second's keeper check by its judgement. -/
theorem calibrationCommands : Obligations.CalibrationCommands := by
  unfold Obligations.CalibrationCommands
  intro s n ch v issued hits c
  refine ⟨fun h hm => ticCalGo_requests h hm, fun hc => ⟨?_, ?_, ?_, ?_, fun run hrun hr => ⟨?_, ?_⟩, ?_, fun hs => ⟨?_, ?_⟩⟩⟩
  · exact fun hd hb => calSchedule_requests hc hd hb
  · exact fun hd => calSchedule_notDue hd
  · exact fun hm => calStart_starts hc hm
  · exact fun hm => calStart_waits hm
  · exact fun hres hd => calComplete_accepts hc hrun hr hres hd
  · exact fun hres hv => calComplete_fails hc hrun hr hres hv
  · exact fun r hr hm ht hv => calRefusedNoGap_refuses hc hr hm ht hv
  · exact fun hb hdis => keeperCheck_agrees hc hs hb hdis
  · exact fun hb hv => keeperCheck_disagrees hc hs hb hv

end Sys2Proof.Machine
end

section
/-!
Holdover, the steering words and the external sensor (R125, R129, R131).
-/
namespace Sys2Proof.Machine

/-! ### The holdover commit (R125) -/

/-- The latest sequence number of some holdover records. -/
def newestSeq (l : List HoldRecord) (m : Nat) : Nat := l.foldl (fun m r => if m < r.seq then r.seq else m) m

theorem le_newestSeq (l : List HoldRecord) : ∀ m, m ≤ newestSeq l m ∧ ∀ x ∈ l, x.seq ≤ newestSeq l m := by
  induction l with
  | nil => exact fun m => ⟨Nat.le_refl m, fun x hx => nomatch hx⟩
  | cons r l ih =>
    intro m
    obtain ⟨hm, hl⟩ := ih (if m < r.seq then r.seq else m)
    obtain ⟨hmax, hseq⟩ : m ≤ (if m < r.seq then r.seq else m) ∧ r.seq ≤ (if m < r.seq then r.seq else m) := by split <;> omega
    exact ⟨hmax.trans hm, List.forall_mem_cons.2 ⟨hseq.trans hm, hl⟩⟩

/-- What a holdover commit stores. -/
def State.holdRecord (s : State) : HoldRecord :=
  { seq := newestSeq s.cairn.hold 0 + 1, fit := s.ens.fit, tref := s.ens.tref,
    regs := [Reg.ENS_HOLD_Y0, .ENS_HOLD_AGE, .ENS_HOLD_TC, .ENS_HOLD_UY, .ENS_HOLD_UA, .ENS_HOLD_UC, .ENS_HOLD_RES].map
      (fun r => s.rg r 0),
    refs := [s.rg .ENS_OSC_REF 0, s.rg .ENS_OSC_REF 1] }

theorem State.holdCommit_eq (s : State) :
    s.holdCommit = s.setCairn { s.cairn with hold := (s.holdRecord :: s.cairn.hold).take 2 } := rfl

/-- The commit of a second that none has been made in yet. -/
theorem holdoverCommit_commits {s : State} (hc : s.clockUp = true) (hs : SMap.find s.secDone 3 ≠ some s.now.sec.toNat) :
    Does .holdoverCommit s [.cairn, .secDone] (fun t => ∃ h, t.cairn.hold = (h :: s.cairn.hold).take 2 ∧ h.fit = s.ens.fit ∧
      h.tref = s.ens.tref ∧ h.refs = [s.rg .ENS_OSC_REF 0, s.rg .ENS_OSC_REF 1] ∧ ∀ x ∈ s.cairn.hold, x.seq < h.seq) := by
  have hx : exec .holdoverCommit s = .next (s.secTaken 3).holdCommit :=
    congrArg Host.Outcome.next ((State.act_pos _ hc).trans (State.once_pos _ hs))
  rw [State.holdCommit_eq] at hx
  exact does_of_keeps hx (((s.secTaken_only 3).mono (by decide)).trans ((State.setCairn_only _ _).mono (by decide)))
    ⟨(s.secTaken 3).holdRecord, rfl, rfl, rfl, rfl, fun x hm => Nat.lt_succ_of_le ((le_newestSeq s.cairn.hold 0).2 x hm)⟩

/-- An action of each second whose second is taken changes nothing. -/
theorem State.act_once_taken {s : State} {c : Bool} {i : Nat} (f : State → State) (h : SMap.find s.secDone i = some s.now.sec.toNat) :
    s.act c (fun s => s.once i f) = s := by
  have ho : s.once i f = s := if_pos h
  exact (congrArg (fun t => if c = true then t else s) ho).trans (ite_self s)

/-! ### The end of a steering word's transfer (R129) -/

/-- The state with another state of the ensemble assist. -/
def State.setEns (s : State) (x : EnsState) : State := { s with ens := x }

theorem State.setEns_only (s : State) (x : EnsState) : Keeps (maskOf [.ens]) s (s.setEns x) := by
  refine ⟨rfl, id, id, id, Fuses.Le.refl _, fun p hp => ?_⟩
  cases p <;> first | exact rfl | exact fun _ _ _ => rfl | exact absurd hp (by decide)

/-- A steering interface with no word on its way. -/
def State.oscSent (s : State) (i : Nat) : State := s.setEns { s.ens with osc := SMap.erase s.ens.osc i }

section
variable {s : State} {i : Fin 2} {w : OscWord} (hc : s.clockUp = true) (hw : SMap.find s.ens.osc i.val = some w)
include hc hw

theorem exec_oscSpiTransfer : exec (.oscSpiTransfer i) s = .next (if !s.coreUp then s.oscSent i.val
    else if s.reached (s.oscEnd i.val w) then (s.oscSent i.val).wr .ENS_OSC_LAST i.val w.code else s) := by
  refine congrArg Host.Outcome.next ((State.act_pos _ hc).trans ?_)
  rw [hw]
  rfl

theorem oscSpiTransfer_ends (hu : s.coreUp = true) (hr : s.reached (s.oscEnd i.val w) = true) :
    Does (.oscSpiTransfer i) s [.ens, .regs .ens] (fun t => t.rg .ENS_OSC_LAST i.val = w.code ∧
      SMap.find t.ens.osc i.val = none ∧ t.ens.fit = s.ens.fit) := by
  have hx := exec_oscSpiTransfer hc hw
  rw [hu, if_neg (by decide), if_pos hr] at hx
  exact does_of_keeps hx (State.wr_keeps ((s.setEns_only _).mono (by decide)) .ENS_OSC_LAST (by decide) _ _)
    ⟨State.rg_wr_same _ _ _ _, SMap.find_erase_same _ _, rfl⟩

theorem oscSpiTransfer_waits (hu : s.coreUp = true) (hr : s.reached (s.oscEnd i.val w) = false) :
    Does (.oscSpiTransfer i) s [] (fun _ => True) := by
  have hx := exec_oscSpiTransfer hc hw
  rw [hu, if_neg (by decide), hr, if_neg (by decide)] at hx
  exact does_nothing hx

theorem oscSpiTransfer_drops (hu : s.coreUp = false) :
    Does (.oscSpiTransfer i) s [.ens] (fun t => SMap.find t.ens.osc i.val = none) := by
  have hx := exec_oscSpiTransfer hc hw
  rw [hu, if_pos (by decide)] at hx
  exact does_of_keeps hx (s.setEns_only _) (SMap.find_erase_same _ _)

end

/-! ### The external sensor (R131) -/

/-- A reading of the sensor shown. -/
def State.tsnsTaken (s : State) (t : Nat) : State :=
  ((s.setB Fld.ENS_TSNS_T.VALID true).setF Fld.ENS_TSNS_T.FAILS 0).setF Fld.ENS_TSNS_T.T t

/-- A failed read of the sensor counted. -/
def State.tsnsMissed (s : State) : State :=
  (s.setB Fld.ENS_TSNS_T.VALID false).setF Fld.ENS_TSNS_T.FAILS (Nat.min 127 (s.fd Fld.ENS_TSNS_T.FAILS + 1))

/-- The clock die runs only while the keeper's supply holds. -/
theorem State.vddKeep_of_clockUp {s : State} (h : s.clockUp = true) : s.pwr.vddKeep = true := by
  unfold State.clockUp at h
  rw [Bool.and_eq_true, Bool.and_eq_true] at h
  obtain ⟨⟨hkeep, -⟩, -⟩ := h
  exact hkeep

/-- The fault of a sensor that stops answering. -/
def sensorFault : Raise := { rec_ := 461, cause := 31, cls := 1 }

theorem State.tsnsTaken_shows (s : State) {t : Nat} (ht : t < 2 ^ 16) : (s.tsnsTaken t).fb Fld.ENS_TSNS_T.VALID = true ∧
    (s.tsnsTaken t).fd Fld.ENS_TSNS_T.FAILS = 0 ∧ (s.tsnsTaken t).fd Fld.ENS_TSNS_T.T = t ∧
      Keeps (maskOf [.regs .ens]) s (s.tsnsTaken t) := by
  unfold State.tsnsTaken
  refine ⟨?_, ?_, ?_, ?_⟩
  · have hv := State.fb_setB_same s Fld.ENS_TSNS_T.VALID true 0 (by decide) (by decide)
    refine (congrArg (fun n => decide (n = 1)) ?_).trans hv
    rw [State.fd_setF_apart _ (by decide), State.fd_setF_apart _ (by decide)]
  · rw [State.fd_setF_apart _ (by decide), State.fd_setF_same _ _ _ _ (by decide) (by decide)]
    rfl
  · rw [State.fd_setF_same _ _ _ _ (by decide) (by decide)]
    exact Nat.mod_eq_of_lt ht
  · exact State.setF_keeps (State.setF_keeps (State.setB_keeps (Keeps.refl _ s) (Nat.zero_and _) (by decide) _ _) (Nat.zero_and _)
      (by decide) _ _) (Nat.zero_and _) (by decide) _ _

theorem State.tsnsMissed_shows (s : State) : s.tsnsMissed.fb Fld.ENS_TSNS_T.VALID = false ∧
    s.tsnsMissed.fd Fld.ENS_TSNS_T.FAILS = Nat.min 127 (s.fd Fld.ENS_TSNS_T.FAILS + 1) ∧ Keeps (maskOf [.regs .ens]) s s.tsnsMissed := by
  unfold State.tsnsMissed
  refine ⟨?_, ?_, ?_⟩
  · have hv := State.fb_setB_same s Fld.ENS_TSNS_T.VALID false 0 (by decide) (by decide)
    refine (congrArg (fun n => decide (n = 1)) ?_).trans hv
    rw [State.fd_setF_apart _ (by decide)]
  · rw [State.fd_setF_same _ _ _ _ (by decide) (by decide)]
    exact Nat.mod_eq_of_lt (Nat.lt_succ_of_le (Nat.min_le_left _ _))
  · exact State.setF_keeps (State.setB_keeps (Keeps.refl _ s) (Nat.zero_and _) (by decide) _ _) (Nat.zero_and _) (by decide) _ _

theorem State.tsnsFail_eq (s : State) :
    s.tsnsFail = if s.fb Fld.ENS_TSNS_T.VALID then s.tsnsMissed.raise sensorFault else s.tsnsMissed := rfl

section
variable {s : State} (hc : s.clockUp = true) (he : s.fb Fld.ENS_TSNS_CFG.EN = true) (hn : 500000000 ≤ s.now.ns.toNat)
  (hs : SMap.find s.secDone 4 ≠ some s.now.sec.toNat)
include hc he hn hs

theorem exec_tempSensorRead (reading : Option (BitVec 16)) :
    exec (.tempSensorRead reading) s = .next ((s.secTaken 4).tsnsRead reading) :=
  congrArg Host.Outcome.next ((State.act_pos _ (by rw [hc, he, decide_eq_true hn]; rfl)).trans (State.once_pos _ hs))

theorem tempSensorRead_reads {w : BitVec 16} (hw : s.tsnsOk w.toInt = true) :
    Does (.tempSensorRead (some w)) s [.secDone, .regs .ens] (fun t => t.fb Fld.ENS_TSNS_T.VALID = true ∧
      t.fd Fld.ENS_TSNS_T.FAILS = 0 ∧
      t.fd Fld.ENS_TSNS_T.T = (BitVec.ofInt 16 (w.toInt * 64 / 2 ^ s.fd Fld.ENS_TSNS_CFG.SCALE)).toNat) := by
  have hx := exec_tempSensorRead hc he hn hs (some w)
  rw [show (s.secTaken 4).tsnsRead (some w) = (s.secTaken 4).tsnsTaken
    (BitVec.ofInt 16 (w.toInt * 64 / 2 ^ s.fd Fld.ENS_TSNS_CFG.SCALE)).toNat from if_pos hw] at hx
  obtain ⟨valid, fails, temp, hk⟩ := (s.secTaken 4).tsnsTaken_shows
    (BitVec.ofInt 16 (w.toInt * 64 / 2 ^ s.fd Fld.ENS_TSNS_CFG.SCALE)).isLt
  exact does_of_keeps hx (((s.secTaken_only 4).mono (by decide)).trans (hk.mono (by decide))) ⟨valid, fails, temp⟩

theorem tempSensorRead_stays (hv : s.fb Fld.ENS_TSNS_T.VALID = false) :
    Does (.tempSensorRead none) s [.secDone, .regs .ens] (fun t => t.fb Fld.ENS_TSNS_T.VALID = false ∧
      t.fd Fld.ENS_TSNS_T.FAILS = Nat.min 127 (s.fd Fld.ENS_TSNS_T.FAILS + 1)) := by
  have hx := exec_tempSensorRead hc he hn hs none
  rw [show (s.secTaken 4).tsnsRead none = (s.secTaken 4).tsnsMissed from
    (State.tsnsFail_eq _).trans (if_neg (Bool.eq_false_iff.1 hv))] at hx
  obtain ⟨valid, fails, hk⟩ := (s.secTaken 4).tsnsMissed_shows
  exact does_of_keeps hx (((s.secTaken_only 4).mono (by decide)).trans (hk.mono (by decide))) ⟨valid, fails⟩

theorem tempSensorRead_fails (hv : s.fb Fld.ENS_TSNS_T.VALID = true) :
    Does (.tempSensorRead none) s ([.secDone, .regs .ens] ++ raising) (fun t => t.fb Fld.ENS_TSNS_T.VALID = false ∧
      t.fd Fld.ENS_TSNS_T.FAILS = Nat.min 127 (s.fd Fld.ENS_TSNS_T.FAILS + 1) ∧ Raised t 461 31) := by
  have hx := exec_tempSensorRead hc he hn hs none
  rw [show (s.secTaken 4).tsnsRead none = (s.secTaken 4).tsnsMissed.raise sensorFault from
    (State.tsnsFail_eq _).trans (if_pos hv)] at hx
  obtain ⟨valid, fails, hk⟩ := (s.secTaken 4).tsnsMissed_shows
  have hk1 : Keeps (maskOf [.secDone, .regs .ens]) s (s.secTaken 4).tsnsMissed :=
    ((s.secTaken_only 4).mono (by decide)).trans (hk.mono (by decide))
  generalize (s.secTaken 4).tsnsMissed = u at hx valid fails hk1
  have hup : u.recordUp sensorFault.rec_ = true :=
    (congrArg PwrState.vddKeep (hk1.same .pwr (by decide))).trans (State.vddKeep_of_clockUp hc)
  have hr : Keeps (maskOf raising) u (u.raise sensorFault) := State.raise_minor_keeps (by decide) (Keeps.refl _ u) rfl
  exact does_of_keeps hx ((hk1.mono (by decide)).trans (hr.mono (by decide)))
    ⟨(hr.fb (f := Fld.ENS_TSNS_T.VALID) (by decide) 0).trans valid, (hr.fd (f := Fld.ENS_TSNS_T.FAILS) (by decide) 0).trans fails,
      State.raise_minor_raised (r := sensorFault) (by decide) hup (by decide)⟩

end

end Sys2Proof.Machine
end

section
/-!
The benchmark journal (R148, R149), and the statement about holdover and the journal.
-/
namespace Sys2Proof.Machine

/-! ### Register pairs -/

/-- A register pair depends on its two words alone. -/
theorem State.pair_congr {s t : State} {hi lo : Reg} {i : Nat} (h1 : t.rg hi i = s.rg hi i) (h2 : t.rg lo i = s.rg lo i) :
    t.pair hi lo i = s.pair hi lo i := by
  unfold State.pair
  rw [h1, h2]

/-- A register pair apart from the one that is set. -/
theorem State.pair_setPair_other (s : State) {hi lo hi' lo' : Reg} (v : BitVec 64) (i j : Nat)
    (h : hi ≠ hi' ∧ lo ≠ hi' ∧ hi ≠ lo' ∧ lo ≠ lo') : (s.setPair hi lo v i).pair hi' lo' j = s.pair hi' lo' j := by
  obtain ⟨hihi, lohi, hilo, lolo⟩ := h
  exact State.pair_congr (s.rg_setPair_other v i j hihi lohi) (s.rg_setPair_other v i j hilo lolo)

/-- A register pair apart from the register that a field is put in. -/
theorem State.pair_setB_other (s : State) (f : Fld) (b : Bool) {hi lo : Reg} (i j : Nat) (h : f.reg ≠ hi ∧ f.reg ≠ lo) :
    (s.setB f b i).pair hi lo j = s.pair hi lo j :=
  State.pair_congr (s.rg_setB_other f b i j h.1) (s.rg_setB_other f b i j h.2)

/-! ### Records committed to the ring (R148) -/

/-- A record put in a free place of the ring. -/
def State.ringPut (s : State) (r : BmkRecord) : State := { s with trv := { s.trv with ring := s.trv.ring ++ [r] } }

/-- The numbers of the ring's latest and oldest records shown. -/
def State.ringShown (s : State) (seq : Nat) : State :=
  (s.setPair .TRV_JNL_SEQ_HI .TRV_JNL_SEQ_LO (BitVec.ofNat 64 seq)).setPair .TRV_JNL_OLD_HI .TRV_JNL_OLD_LO
    (BitVec.ofNat 64 s.trv.ringBase)

theorem State.ringPush_room {s : State} (r : BmkRecord) (h : s.trv.ring.length < 65536) :
    s.ringPush r = (s.ringPut r).ringShown r.seq := by
  unfold State.ringPush
  extract_lets oldSeq _ s0 s1 _ s2
  have h1 : s1 = s := if_neg (Nat.not_le.2 h)
  show (s1.ringPut r).ringShown r.seq = _
  rw [h1]

/-- What a ring with room for some records is when they are put in it: nothing is lost. -/
structure RingTook (s t : State) (l : List BmkRecord) : Prop where
  ring : t.trv.ring = s.trv.ring ++ l
  next : t.trv.nextSeq = s.trv.nextSeq
  lost : t.rg .TRV_JNL_LOST 0 = s.rg .TRV_JNL_LOST 0
  seq  : ∀ x, l.getLast? = some x → t.pair .TRV_JNL_SEQ_HI .TRV_JNL_SEQ_LO = BitVec.ofNat 64 x.seq

theorem RingTook.push {s t : State} {l : List BmkRecord} (h : RingTook s t l) (r : BmkRecord) (hl : t.trv.ring.length < 65536) :
    RingTook s (t.ringPush r) (l ++ [r]) := by
  obtain ⟨ring, next, lost, -⟩ := h
  rw [State.ringPush_room r hl]
  unfold State.ringShown
  refine ⟨?_, ?_, ?_, fun x hx => ?_⟩
  · rw [State.setPair_trv, State.setPair_trv, ← List.append_assoc, ← ring]
    rfl
  · rw [State.setPair_trv, State.setPair_trv]
    exact next
  · rw [State.rg_setPair_other _ _ _ _ (by decide) (by decide), State.rg_setPair_other _ _ _ _ (by decide) (by decide)]
    exact lost
  · rw [List.getLast?_append_of_ne_nil _ (by simp)] at hx
    obtain rfl : r = x := Option.some.inj hx
    exact (State.pair_setPair_other _ _ _ _ (by decide)).trans
      (State.pair_setPair_same _ (by decide) _ _)

theorem RingTook.pushAll {s : State} (l : List BmkRecord) : ∀ {t : State} {k : List BmkRecord}, RingTook s t k →
    t.trv.ring.length + l.length ≤ 65536 → RingTook s (l.foldl State.ringPush t) (k ++ l) := by
  induction l with
  | nil => exact fun h _ => by rwa [List.append_nil]
  | cons r l ih =>
    intro t k h hl
    rw [List.length_cons] at hl
    have hp := h.push r (by omega)
    have hlen : (t.ringPush r).trv.ring.length = t.trv.ring.length + 1 := by
      rw [hp.ring, h.ring]
      simp [Nat.add_assoc]
    have := ih hp (by omega)
    rwa [List.append_assoc] at this

theorem RingTook.refl (s : State) : RingTook s s [] := ⟨(List.append_nil _).symm, rfl, rfl, fun _ hx => nomatch hx⟩

theorem journalCommit_commits {s : State} (hc : s.clockUp = true) (hs : SMap.find s.secDone 5 ≠ some s.now.sec.toNat)
    (hl : s.trv.ring.length + s.trv.pendingR.length ≤ 65536) :
    Does .journalCommit s [.trv, .secDone, .regs .traverse] (fun t => t.trv.pendingR = [] ∧
      t.trv.ring = s.trv.ring ++ s.trv.pendingR ∧ t.trv.nextSeq = s.trv.nextSeq ∧ t.rg .TRV_JNL_LOST 0 = s.rg .TRV_JNL_LOST 0 ∧
        ∀ x, s.trv.pendingR.getLast? = some x → t.pair .TRV_JNL_SEQ_HI .TRV_JNL_SEQ_LO = BitVec.ofNat 64 x.seq) := by
  have hx : exec .journalCommit s = .next (s.secTaken 5).journalCommit :=
    congrArg Host.Outcome.next ((State.act_pos _ hc).trans (State.once_pos _ hs))
  obtain ⟨ring, next, lost, seq⟩ := RingTook.pushAll s.trv.pendingR (RingTook.refl (s.secTaken 5)) hl
  exact does_of_keeps hx (State.journalCommit_keeps ((s.secTaken_only 5).mono (by decide)) (by decide)) ⟨rfl, ring, next, lost, seq⟩

/-! ### The host's acknowledgement (R149) -/

/-- A host write of the TRV block. -/
theorem State.applyWrite_trv (s : State) {r : Reg} (i : Nat) (v : BitVec 32) (h0 : 0x130000 ≤ r.row.base) (h1 : r.row.base < 0x140000) :
    s.applyWrite .hostReg r i v = s.trvWrite r i v := by
  have hlow : ∀ n, n ≤ 0x130000 → ¬ r.row.base < n := fun n hn => Nat.not_lt.2 (hn.trans h0)
  unfold State.applyWrite
  simp only [reduceCtorEq, if_false, hlow 0x10000 (by decide), hlow 0x20000 (by decide), hlow 0x30000 (by decide), hlow 0x40000 (by decide),
    hlow 0x50000 (by decide), hlow 0x60000 (by decide), hlow 0x70000 (by decide), hlow 0x80000 (by decide), hlow 0x100000 (by decide),
    hlow 0x110000 (by decide), hlow 0x120000 (by decide), hlow 0x130000 (by decide), h1, if_true]

/-- A host write of an unguarded register of the block that is taken acts as the block says. -/
theorem State.hostRow_trv {s : State} {r : Reg} {i : Nat} (h : s.Takes r i) (v : BitVec 32) (h0 : 0x130000 ≤ r.row.base)
    (h1 : r.row.base < 0x140000) (hg : r.guarded i = false) (hr : r ≠ .MAT_PRIORITY) : s.hostRow r i v = s.trvWrite r i v := by
  rw [hostRow_takes v h, entered_plain hg hr, State.applyWrite_trv _ i v h0 h1]

/-- The state with another state of the Traverse engine. -/
def State.setTrv (s : State) (x : TrvState) : State := { s with trv := x }

theorem State.setTrv_only (s : State) (x : TrvState) : Keeps (maskOf [.trv]) s (s.setTrv x) := by
  refine ⟨rfl, id, id, id, Fuses.Le.refl _, fun p hp => ?_⟩
  cases p <;> first | exact rfl | exact fun _ _ _ => rfl | exact absurd hp (by decide)

theorem jnlAckHiStage_stages {s : State} (h : s.Takes .TRV_JNL_ACK_HI 0) (v : BitVec 32) :
    Does (.jnlAckHiStage v) s [.trv, .regs .traverse] (fun t => t.trv = { s.trv with ackStaged := v } ∧
      t.fb Fld.TRV_WSTAT.ACCEPT = true) := by
  have hx : exec (.jnlAckHiStage v) s = .next ((s.setTrv { s.trv with ackStaged := v }).setB Fld.TRV_WSTAT.ACCEPT true) :=
    congrArg Host.Outcome.next (State.hostRow_trv h v (by decide) (by decide) rfl (by decide))
  exact does_of_keeps hx (State.setB_keeps ((s.setTrv_only _).mono (by decide)) (Nat.zero_and _) (by decide) _ _)
    ⟨State.setB_trv _ _ _ _, State.fb_setB_same _ _ _ _ (by decide) (by decide)⟩

/-- An acknowledgement in its registers and the Cairn store. -/
def State.ackTaken (s : State) (v : BitVec 64) (lo : BitVec 32) : State :=
  let u := (s.setPair .TRV_JNL_ACK_HI .TRV_JNL_ACK_LO v).setB Fld.TRV_WSTAT.ACCEPT true
  let hi := SMap.set RegKey.ord RegKey.dflt u.cairn.regs ⟨.TRV_JNL_ACK_HI, 0⟩ (u.rg .TRV_JNL_ACK_HI 0)
  u.setCairn { u.cairn with regs := SMap.set RegKey.ord RegKey.dflt hi ⟨.TRV_JNL_ACK_LO, 0⟩ lo }

/-- The staged half of the acknowledgement takes the half in force. -/
def State.ackUnstaged (s : State) : State := s.setTrv { s.trv with ackStaged := s.rg .TRV_JNL_ACK_HI 0 }

theorem State.jnlAck_eq (s : State) (lo : BitVec 32) : s.jnlAck lo =
    (if (s.pair .TRV_JNL_SEQ_HI .TRV_JNL_SEQ_LO).toNat < (s.trv.ackStaged ++ lo).toNat ∨
        (s.trv.ackStaged ++ lo).toNat < (s.pair .TRV_JNL_ACK_HI .TRV_JNL_ACK_LO).toNat then s.setB Fld.TRV_WSTAT.RANGE true
      else s.ackTaken (s.trv.ackStaged ++ lo) lo).ackUnstaged := rfl

theorem State.ackTaken_shows (s : State) (v : BitVec 64) (lo : BitVec 32) :
    (s.ackTaken v lo).pair .TRV_JNL_ACK_HI .TRV_JNL_ACK_LO = v ∧ (s.ackTaken v lo).fb Fld.TRV_WSTAT.ACCEPT = true ∧
      Keeps (maskOf [.cairn, .regs .traverse]) s (s.ackTaken v lo) := by
  refine ⟨?_, State.fb_setB_same (s.setPair .TRV_JNL_ACK_HI .TRV_JNL_ACK_LO v) _ _ _ (by decide) (by decide), ?_⟩
  · exact (State.pair_setB_other (s.setPair .TRV_JNL_ACK_HI .TRV_JNL_ACK_LO v) _ _ _ _ (by decide)).trans
      (State.pair_setPair_same _ (by decide) _ _)
  · exact (State.setB_keeps (State.setPair_keeps (Keeps.refl _ s) (Nat.zero_and _) (by decide) (by decide) _ _) (Nat.zero_and _)
      (by decide) _ _).trans ((State.setCairn_only _ _).mono (by decide))

section
variable {s : State} (h : s.Takes .TRV_JNL_ACK_LO 0) {v : BitVec 32}
include h

theorem exec_jnlAckCommit (v : BitVec 32) : exec (.jnlAckCommit v) s = .next (s.jnlAck v) :=
  congrArg Host.Outcome.next (State.hostRow_trv h v (by decide) (by decide) rfl (by decide))

theorem jnlAckCommit_acknowledges (h1 : (s.pair .TRV_JNL_ACK_HI .TRV_JNL_ACK_LO).toNat ≤ (s.trv.ackStaged ++ v).toNat)
    (h2 : (s.trv.ackStaged ++ v).toNat ≤ (s.pair .TRV_JNL_SEQ_HI .TRV_JNL_SEQ_LO).toNat) :
    Does (.jnlAckCommit v) s [.trv, .cairn, .regs .traverse] (fun t =>
      t.pair .TRV_JNL_ACK_HI .TRV_JNL_ACK_LO = s.trv.ackStaged ++ v ∧ t.fb Fld.TRV_WSTAT.ACCEPT = true) := by
  have hx := exec_jnlAckCommit h v
  rw [s.jnlAck_eq, if_neg (not_or.2 ⟨Nat.not_lt.2 h2, Nat.not_lt.2 h1⟩)] at hx
  obtain ⟨ack, accept, hk⟩ := s.ackTaken_shows (s.trv.ackStaged ++ v) v
  exact does_of_keeps hx ((hk.mono (by decide)).trans ((State.setTrv_only _ _).mono (by decide))) ⟨ack, accept⟩

theorem jnlAckCommit_range (hr : (s.trv.ackStaged ++ v).toNat < (s.pair .TRV_JNL_ACK_HI .TRV_JNL_ACK_LO).toNat ∨
      (s.pair .TRV_JNL_SEQ_HI .TRV_JNL_SEQ_LO).toNat < (s.trv.ackStaged ++ v).toNat) :
    Does (.jnlAckCommit v) s [.trv, .regs .traverse] (fun t => t.fb Fld.TRV_WSTAT.RANGE = true ∧
      t.pair .TRV_JNL_ACK_HI .TRV_JNL_ACK_LO = s.pair .TRV_JNL_ACK_HI .TRV_JNL_ACK_LO) := by
  have hx := exec_jnlAckCommit h v
  rw [s.jnlAck_eq, if_pos hr.symm] at hx
  exact does_of_keeps hx ((State.setB_keeps (Keeps.refl _ s) (Nat.zero_and _) (by decide) _ _).trans ((State.setTrv_only _ _).mono (by decide)))
    ⟨State.fb_setB_same s _ _ _ (by decide) (by decide), State.pair_setB_other s _ _ _ _ (by decide)⟩

end

/-! ### The statement -/

/-- Settles O36: holdover and the journal are committed once a second, a steering word ends with its transfer, the sensor is judged by its
reading, and the host acknowledges what the ring holds. -/
theorem holdoverAndJournalCommands : Obligations.HoldoverAndJournalCommands := by
  unfold Obligations.HoldoverAndJournalCommands
  intro s i v ack
  refine ⟨fun hc => ⟨?_, ?_, fun w hw => ⟨?_, ?_, ?_⟩, fun he hn hs => ⟨?_, ?_, ?_⟩, ?_⟩, ?_, fun h => ⟨?_, ?_⟩⟩
  · exact fun hs => holdoverCommit_commits hc hs
  · exact fun hs => does_nothing (congrArg Host.Outcome.next (State.act_once_taken _ hs))
  · exact fun hu hr => oscSpiTransfer_ends hc hw hu hr
  · exact fun hu hr => oscSpiTransfer_waits hc hw hu hr
  · exact fun hu => oscSpiTransfer_drops hc hw hu
  · exact fun w hw => tempSensorRead_reads hc he hn hs hw
  · exact fun hv => tempSensorRead_fails hc he hn hs hv
  · exact fun hv => tempSensorRead_stays hc he hn hs hv
  · exact fun hs hl => journalCommit_commits hc hs hl
  · exact fun h => jnlAckHiStage_stages h v
  · exact fun h1 h2 => jnlAckCommit_acknowledges h h1 h2
  · exact fun hr => jnlAckCommit_range h hr

end Sys2Proof.Machine
end

section
/-!
What the condition of a processed second rests on (R121, R123), and what leaves it alone.
-/
namespace Sys2Proof.Machine

/-- The registers that the condition and its bank are read from. -/
def condRegs : List Reg := [.ENS_REF_STATE, .ENS_REF_CFG, .FLT_ESC, .ENS_BANK_AT_HI, .ENS_BANK_AT_LO]

/-- The condition of a second and all that it was decided from are the same: the entries, the condition, the bank with its bound. -/
structure CondSame (s t : State) : Prop where
  words  : ∀ q ∈ condRegs, ∀ i, t.rg q i = s.rg q i
  cond   : t.cond = s.cond
  banked : t.fb Fld.ENS_STAT.BANKED = s.fb Fld.ENS_STAT.BANKED
  bankB  : t.trv.bankB = s.trv.bankB

theorem CondSame.refl (s : State) : CondSame s s := ⟨fun _ _ _ => rfl, rfl, rfl, rfl⟩

theorem CondSame.trans {a b c : State} (h : CondSame a b) (g : CondSame b c) : CondSame a c :=
  ⟨fun q hq i => (g.words q hq i).trans (h.words q hq i), g.cond.trans h.cond, g.banked.trans h.banked, g.bankB.trans h.bankB⟩

theorem CondSame.foldl {α : Type} {f : State → α → State} (hf : ∀ s x, CondSame s (f s x)) (l : List α) :
    ∀ s, CondSame s (l.foldl f s) := by
  induction l with
  | nil => exact CondSame.refl
  | cons x r ih => exact fun s => (hf s x).trans (ih (f s x))

/-- Either branch of a choice. -/
theorem CondSame.ite {s a b : State} {c : Prop} [Decidable c] (ha : CondSame s a) (hb : CondSame s b) :
    CondSame s (if c then a else b) := by
  split
  · exact ha
  · exact hb

/-- A change beside the registers that leaves the bank's bound. -/
theorem CondSame.of_regs {s t : State} (h : t.regs = s.regs) (hb : t.trv.bankB = s.trv.bankB) : CondSame s t := by
  have hw : ∀ q i, t.rg q i = s.rg q i := fun q i => congrArg (fun m => SMap.get RegKey.dflt m ⟨q, i⟩) h
  exact ⟨fun q _ i => hw q i, State.fd_congr (hw _ _), State.fb_congr (hw _ _), hb⟩

theorem condRegs_group : ∀ q ∈ condRegs, q.group = .ens ∨ q.group = .fault := by decide

/-- What reaches none of the parts concerned. -/
theorem Keeps.condSame {m : Nat} {s t : State} (h : Keeps m s t) (hm : m.testBit Part.trv.num = false ∧
    m.testBit (Part.regs .ens).num = false ∧ m.testBit (Part.regs .traverse).num = false ∧ m.testBit (Part.regs .fault).num = false) :
    CondSame s t := by
  obtain ⟨htrv, hens, htra, hflt⟩ := hm
  refine ⟨fun q hq i => ?_, h.fd (f := Fld.TRV_STAT.COND) htra 0, h.fb (f := Fld.ENS_STAT.BANKED) hens 0,
    congrArg TrvState.bankB (h.same .trv htrv)⟩
  rcases condRegs_group q hq with hg | hg
  · exact h.rg (by rw [hg, hens]) i
  · exact h.rg (by rw [hg, hflt]) i

/-- A register on which the condition does not rest. -/
abbrev Reg.Beside (r : Reg) : Prop := r ∉ condRegs ∧ r ≠ .TRV_STAT ∧ r ≠ .ENS_STAT

theorem State.wr_condSame (s : State) {r : Reg} (h : r.Beside) (i : Nat) (v : BitVec 32) : CondSame s (s.wr r i v) := by
  obtain ⟨hr, ht, he⟩ := h
  exact ⟨fun q hq j => State.rg_wr_other _ _ _ _ _ _ (.inl fun e => hr (e ▸ hq)), State.fd_congr (State.rg_wr_other _ _ _ _ _ _ (.inl ht)),
    State.fb_congr (State.rg_wr_other _ _ _ _ _ _ (.inl he)), rfl⟩

theorem State.setPair_condSame (s : State) {hi lo : Reg} (h1 : hi.Beside) (h2 : lo.Beside) (v : BitVec 64) (i : Nat) :
    CondSame s (s.setPair hi lo v i) := (s.wr_condSame h1 i _).trans (State.wr_condSame _ h2 i _)

theorem State.bump_condSame (s : State) {r : Reg} (h : r.Beside) (i : Nat) : CondSame s (s.bump r i) := s.wr_condSame h i _

/-- A field beside the condition and BANKED. -/
theorem State.setF_condSame (s : State) {f : Fld} (hr : f.reg ∉ condRegs) (hc : f.Apart Fld.TRV_STAT.COND)
    (hb : f.Apart Fld.ENS_STAT.BANKED) (n i : Nat) : CondSame s (s.setF f n i) :=
  ⟨fun _ hq _ => State.rg_setF_other _ _ _ _ _ fun e => hr (e ▸ hq), s.fd_setF_apart hc n i 0,
    congrArg (fun n => decide (n = 1)) (s.fd_setF_apart hb n i 0), rfl⟩

theorem State.setB_condSame (s : State) {f : Fld} (hr : f.reg ∉ condRegs) (hc : f.Apart Fld.TRV_STAT.COND)
    (hb : f.Apart Fld.ENS_STAT.BANKED) (b : Bool) (i : Nat) : CondSame s (s.setB f b i) := s.setF_condSame hr hc hb _ i

/-! ### Records and interrupts -/

theorem State.ringPush_condSame (s : State) (r : BmkRecord) : CondSame s (s.ringPush r) := by
  unfold State.ringPush
  extract_lets oldSeq _ s0 s1 _ s2
  have h0 : CondSame s s0 := CondSame.of_regs rfl rfl
  have h1 : CondSame s s1 := CondSame.ite (CondSame.ite (h0.trans (s0.bump_condSame (r := .TRV_JNL_LOST) (by decide) 0)) h0)
    (CondSame.refl s)
  have h2 : CondSame s1 s2 := CondSame.of_regs rfl rfl
  exact ((h1.trans h2).trans (s2.setPair_condSame (by decide) (by decide) _ 0)).trans
    (State.setPair_condSame _ (by decide) (by decide) _ 0)

theorem State.journalCommit_condSame (s : State) : CondSame s s.journalCommit :=
  (CondSame.foldl State.ringPush_condSame _ s).trans (CondSame.of_regs rfl rfl)

theorem State.journal_condSame (s : State) (kind entry detail : Nat) (at_ : TimeVal) (phase : Int) (refE refL : BitVec 32)
    (image : List Byte) : CondSame s (s.journal kind entry detail at_ phase refE refL image) := by
  unfold State.journal
  extract_lets b prev r _ s1
  have h1 : CondSame s s1 := CondSame.of_regs rfl rfl
  exact CondSame.ite (h1.trans s1.journalCommit_condSame) h1

theorem State.irqPulse_condSame (s : State) (n detail : Nat) : CondSame s (s.irqPulse n detail) :=
  (s.irqPulse_only n detail).condSame (by decide)

theorem State.svcAuto_condSame (s : State) : CondSame s s.svcAuto :=
  (State.svcAuto_keeps (Keeps.refl (maskOf [.regs .irqStat, .regs .service]) s) (by decide)).condSame (by decide)

/-! ### Step 8: the ensemble phase -/

theorem State.acceptTerms_condSame (s : State) (ps : Phases) (d : Interval) : CondSame s (s.acceptTerms ps d) := by
  unfold State.acceptTerms
  refine CondSame.foldl (fun u a => ?_) _ s
  split
  · exact CondSame.refl u
  · exact CondSame.ite (CondSame.of_regs rfl rfl) (CondSame.of_regs rfl rfl)

theorem State.showAccept_condSame (s : State) : CondSame s s.showAccept :=
  ((s.wr_condSame (r := .TRV_ACCEPT_EARLY) (by decide) 0 _).trans (State.wr_condSame _ (r := .TRV_ACCEPT_LATE) (by decide) 0 _)).trans
    (State.setB_condSame _ (f := Fld.TRV_STAT.ACCEPT) (by decide) (by decide) (by decide) _ 0)

theorem State.ensBasis_condSame (s : State) (n : Nat) (ps : Phases) (q : SecondPhase) : CondSame s (s.ensBasis n ps q) := by
  unfold State.ensBasis
  extract_lets e0 l0 s1 a b _ s2
  have h1 : CondSame s s1 := (s.acceptTerms_condSame ps _).trans (State.showAccept_condSame _)
  have h2 : CondSame s1 s2 := CondSame.of_regs rfl rfl
  exact CondSame.ite h1 ((h1.trans h2).trans
    (s2.setB_condSame (f := Fld.TRV_STAT.STEP_BASIS) (by decide) (by decide) (by decide) false 0))

theorem State.ensStep8_condSame (s : State) (n : Nat) (ps : Phases) : CondSame s (s.ensStep8 n ps) := by
  unfold State.ensStep8
  split
  · exact CondSame.refl s
  · exact (((s.setPair_condSame (hi := .ENS_EPH_HI) (lo := .ENS_EPH_LO) (by decide) (by decide) _ 0).trans
      (State.wr_condSame _ (r := .ENS_EPH_EARLY) (by decide) 0 _)).trans (State.wr_condSame _ (r := .ENS_EPH_LATE) (by decide) 0 _)).trans
      (State.ensBasis_condSame _ n ps _)

/-! ### Step 9: learning and prediction -/

theorem State.showModel_condSame (s : State) : CondSame s s.showModel := by
  have hw : ∀ (u : State) (r : Reg) (v : BitVec 32), r.Beside → CondSame u (u.wr r 0 v) := fun u r v h => u.wr_condSame h 0 v
  have hv : ∀ (u : State) (b : Bool), CondSame u (u.setB Fld.ENS_STAT.MODEL_VALID b) := fun u b =>
    u.setB_condSame (by decide) (by decide) (by decide) b 0
  have he : ∀ (u : State) (e : EnsState), CondSame u { u with ens := e } := fun u e => CondSame.of_regs rfl rfl
  unfold State.showModel
  dsimp only
  split
  · exact ((((((((hw _ _ _ (by decide)).trans (hw _ _ _ (by decide))).trans (hw _ _ _ (by decide))).trans (hw _ _ _ (by decide))).trans
      (hw _ _ _ (by decide))).trans (hw _ _ _ (by decide))).trans (hw _ _ _ (by decide))).trans (hv _ true)).trans (he _ _)
  · exact (((((hw _ _ _ (by decide)).trans (hw _ _ _ (by decide))).trans (hw _ _ _ (by decide))).trans (hw _ _ _ (by decide))).trans
      (hv _ false)).trans (he _ _)

theorem State.learn_condSame (s : State) (n : Nat) (ps : Phases) : CondSame s (s.learn n ps) := by
  have he : ∀ (u : State) (e : EnsState), CondSame u { u with ens := e } := fun u e => CondSame.of_regs rfl rfl
  unfold State.learn
  dsimp only
  split
  · exact he s _
  · split
    · exact he s _
    · exact CondSame.ite (he s _) ((he s _).trans (State.showModel_condSame _))

theorem State.predict_condSame (s : State) : CondSame s s.predict := by
  unfold State.predict
  extract_lets f t model rate d s1 ok
  have h1 : CondSame s s1 := s.wr_condSame (by decide) 0 _
  exact h1.trans (CondSame.of_regs rfl rfl)

/-! ### The end of the second -/

theorem State.writerBack_condSame (s : State) : CondSame s s.writerBack := by
  have h1 : CondSame s (s.setTrv { s.trv with unsteered := none }) := CondSame.of_regs rfl rfl
  unfold State.writerBack
  exact CondSame.ite (h1.trans (State.setB_condSame _ (f := Fld.TRV_STAT.NOWRITER) (by decide) (by decide) (by decide) _ 0))
    (CondSame.refl s)

theorem State.comparisons_condSame (s : State) (n : Nat) (ps : Phases) : CondSame s (s.comparisons n ps) := by
  unfold State.comparisons
  dsimp only
  split
  · exact CondSame.refl s
  · exact CondSame.foldl (fun u e => CondSame.ite (u.journal_condSame _ _ _ _ _ _ _ _) (CondSame.refl u)) _ s

theorem State.setEnt_condSame (s : State) (r : Nat) (e : EnsEntry) : CondSame s (s.setEnt r e) := CondSame.of_regs rfl rfl

theorem State.adevStep_condSame (s : State) (n r : Nat) (x : Option Int) : CondSame s (s.adevStep n r x) := by
  unfold State.adevStep
  refine CondSame.foldl (fun u j => ?_) _ s
  dsimp only
  exact CondSame.ite ((u.setEnt_condSame r _).trans (State.wr_condSame _ (by decide) _ _)) (CondSame.refl u)

theorem State.closeSecond_condSame (s : State) (n : Nat) (ps : Phases) : CondSame s (s.closeSecond n ps) := by
  unfold State.closeSecond
  refine CondSame.foldl (fun u r => ?_) _ s
  refine CondSame.ite (CondSame.refl u) ?_
  dsimp only
  split
  · exact (u.setEnt_condSame r _).trans (State.adevStep_condSame _ n r none)
  · exact ((((u.setEnt_condSame r _).trans (State.setPair_condSame _ (by decide) (by decide) _ r)).trans
      (State.wr_condSame _ (by decide) r _)).trans (State.wr_condSame _ (by decide) r _)).trans (State.adevStep_condSame _ n r _)

/-- A clock class taking effect. -/
def State.classTaken (s : State) (n cur c : Nat) : State :=
  let s2 : State := { s with trv := { s.trv with run := 0, runWorst := 0 } }
  if c = cur then s2
  else ((s2.setF Fld.TRV_STAT.CC c).setB Fld.TRV_STAT.TRACEABLE (decide (c = 6 ∨ c = 7))).irqPulse 102 c
    |>.journal 0x0C 0xFF c (TimeVal.ofSec n) 0 0 0 []

theorem State.classTaken_condSame (s : State) (n cur c : Nat) : CondSame s (s.classTaken n cur c) := by
  unfold State.classTaken
  extract_lets _ s2
  have h2 : CondSame s s2 := CondSame.of_regs rfl rfl
  exact CondSame.ite h2 ((((h2.trans (s2.setF_condSame (f := Fld.TRV_STAT.CC) (by decide) (by decide) (by decide) c 0)).trans
    (State.setB_condSame _ (f := Fld.TRV_STAT.TRACEABLE) (by decide) (by decide) (by decide) _ 0)).trans
    (State.irqPulse_condSame _ 102 c)).trans (State.journal_condSame _ _ _ _ _ _ _ _ _))

theorem State.classStep_condSame (s : State) (n : Nat) : CondSame s (s.classStep n) := by
  have h1 : CondSame s (s.setF Fld.TRV_STAT.ACC (clockAccuracy (s.worstSide (TimeVal.ofSec n)))) :=
    s.setF_condSame (by decide) (by decide) (by decide) _ 0
  unfold State.classStep
  exact CondSame.ite (h1.trans (State.classTaken_condSame _ n _ _))
    (CondSame.ite (h1.trans (State.classTaken_condSame _ n _ _)) (h1.trans (CondSame.of_regs rfl rfl)))

/-! ### All that follows step 7 -/

/-- The steps of a second after its condition is decided (R115). -/
def State.afterCond (s : State) (n : Nat) (ps : Phases) : State :=
  let u := ((((((s.ensStep8 n ps).learn n ps).predict.writerBack).comparisons n ps).closeSecond n ps).classStep n)
  { u with ens := { u.ens with procNext := some (n + 1) } }

theorem State.afterCond_condSame (s : State) (n : Nat) (ps : Phases) : CondSame s (s.afterCond n ps) :=
  (((((((s.ensStep8_condSame n ps).trans (State.learn_condSame _ n ps)).trans (State.predict_condSame _)).trans
    (State.writerBack_condSame _)).trans (State.comparisons_condSame _ n ps)).trans (State.closeSecond_condSame _ n ps)).trans
    (State.classStep_condSame _ n)).trans (CondSame.of_regs rfl rfl)

end Sys2Proof.Machine
end

section
/-!
The processed second (R115): the condition it decides (R121, R265), and its entry into BANKED (R123).
-/
namespace Sys2Proof.Machine

/-! ### Step 7 -/

/-- The condition depends on the entries' states and kinds and on BANK_FORCED alone. -/
theorem State.newCond_congr {s t : State} (h : ∀ q, q = .ENS_REF_STATE ∨ q = .ENS_REF_CFG ∨ q = .FLT_ESC → ∀ i, t.rg q i = s.rg q i) :
    t.newCond = s.newCond := by
  have hs : t.refState = s.refState := funext fun i => State.fd_congr (h _ (.inl rfl) i)
  have hk : t.refTime = s.refTime := funext fun i => congrArg not (State.fb_congr (h _ (.inr (.inl rfl)) i))
  have hf : t.fb Fld.FLT_ESC.BANK_FORCED = s.fb Fld.FLT_ESC.BANK_FORCED := State.fb_congr (h _ (.inr (.inr rfl)) 0)
  unfold State.newCond
  rw [hs, hk, hf]

theorem State.newCond_lt (s : State) : s.newCond < 4 := by
  unfold State.newCond
  dsimp only
  repeat' split
  all_goals decide

/-- With no entry QUALIFIED a second is BANKED. -/
theorem State.newCond_banked {s : State} (h : ∀ r, r < 32 → s.refState r ≠ 3) : s.newCond = 2 := by
  have hq : (List.range 32).filter (fun r => decide (s.refState r = 3)) = [] :=
    List.filter_eq_nil_iff.2 fun r hr => by simpa using h r (List.mem_range.1 hr)
  unfold State.newCond
  dsimp only
  rw [hq, if_pos (.inr rfl)]

/-- The condition and the number of QUALIFIED entries shown. -/
def State.condShown (s : State) (c q : Nat) : State :=
  (((s.setF Fld.TRV_STAT.COND c).setB Fld.ENS_STAT.BANKED (decide (c = 2))).setB Fld.ENS_STAT.FREQ_HOLD (decide (c = 1))).setF
    Fld.ENS_STAT.NQUAL q

/-- The bank entered at a second that becomes BANKED. -/
def State.bankIf (s : State) (n : Nat) : State := if s.newCond = 2 ∧ s.cond ≠ 2 then s.bankEntry n else s

/-- The number of QUALIFIED entries. -/
def State.qualifiedCount (s : State) : Nat := ((List.range 32).filter (fun r => decide (s.refState r = 3))).length

theorem State.ensStep7_eq (s : State) (n : Nat) : s.ensStep7 n =
    if s.cond = 2 ∧ s.newCond ≠ 2 then
      ((s.bankIf n).condShown s.newCond s.qualifiedCount).journal 0x05 0xFF s.newCond (TimeVal.ofSec n) 0 0 0 []
    else (s.bankIf n).condShown s.newCond s.qualifiedCount := rfl

theorem State.condShown_shows (s : State) {c : Nat} (hc : c < 4) (q : Nat) :
    (s.condShown c q).cond = c ∧ (s.condShown c q).fb Fld.ENS_STAT.BANKED = decide (c = 2) ∧
      (s.condShown c q).trv = s.trv ∧ ∀ r, r ≠ .TRV_STAT → r ≠ .ENS_STAT → ∀ i, (s.condShown c q).rg r i = s.rg r i := by
  unfold State.condShown
  refine ⟨?_, ?_, ?_, fun r ht he i => ?_⟩
  · refine (State.fd_setF_apart _ (g := Fld.TRV_STAT.COND) (by decide) _ 0 0).trans ?_
    rw [State.fd_setB_apart _ (by decide), State.fd_setB_apart _ (by decide), State.fd_setF_same _ _ _ _ (by decide) (by decide)]
    exact Nat.mod_eq_of_lt hc
  · refine (congrArg (fun n => decide (n = 1)) (State.fd_setF_apart _ (g := Fld.ENS_STAT.BANKED) (by decide) _ 0 0)).trans ?_
    exact (State.fb_setB_apart _ (by decide) _ _ _).trans (State.fb_setB_same _ _ _ _ (by decide) (by decide))
  · rw [State.setF_trv, State.setB_trv, State.setB_trv, State.setF_trv]
  · rw [State.rg_setF_other _ _ _ _ _ he.symm, State.rg_setB_other _ _ _ _ _ he.symm, State.rg_setB_other _ _ _ _ _ he.symm,
      State.rg_setF_other _ _ _ _ _ ht.symm]

/-- What entering BANKED leaves: its second and the bound there; the entries and their configurations as they were. -/
theorem State.bankEntry_banks (s : State) (n : Nat) :
    (s.bankEntry n).pair .ENS_BANK_AT_HI .ENS_BANK_AT_LO = BitVec.ofNat 64 n ∧
      (s.bankEntry n).trv.bankB = ⟨TimeVal.ofSec n, (s.datumSides (TimeVal.ofSec n)).1, (s.datumSides (TimeVal.ofSec n)).2⟩ ∧
        ∀ q, q = .ENS_REF_STATE ∨ q = .ENS_REF_CFG ∨ q = .FLT_ESC → ∀ i, (s.bankEntry n).rg q i = s.rg q i := by
  unfold State.bankEntry
  extract_lets at_ b s1 _ _ s2
  obtain ⟨words, -, -, bank⟩ := s2.journal_condSame 0x04 0xFF 0 at_ 0 (Side.word b.1) (Side.word b.2) []
  refine ⟨?_, bank, fun q hq i => ?_⟩
  · exact (State.pair_congr (words _ (by decide) 0) (words _ (by decide) 0)).trans (State.pair_setPair_same s (by decide) _ 0)
  · obtain ⟨hm, hhi, hlo⟩ : q ∈ condRegs ∧ .ENS_BANK_AT_HI ≠ q ∧ .ENS_BANK_AT_LO ≠ q := by rcases hq with rfl | rfl | rfl <;> decide
    exact (words q hm i).trans (State.rg_setPair_other s _ _ _ hhi hlo)

/-- What step 7 leaves: the condition decided from the entries, which stay; on entry into BANKED its second and the bound there. -/
structure CondDecided (s t : State) (n : Nat) : Prop where
  cond   : t.cond = s.newCond
  banked : t.fb Fld.ENS_STAT.BANKED = decide (s.newCond = 2)
  words  : ∀ q, q = .ENS_REF_STATE ∨ q = .ENS_REF_CFG ∨ q = .FLT_ESC → ∀ i, t.rg q i = s.rg q i
  bank   : s.newCond = 2 → s.cond ≠ 2 → t.pair .ENS_BANK_AT_HI .ENS_BANK_AT_LO = BitVec.ofNat 64 n ∧
    t.trv.bankB = ⟨TimeVal.ofSec n, (s.datumSides (TimeVal.ofSec n)).1, (s.datumSides (TimeVal.ofSec n)).2⟩

theorem CondDecided.trans {s t u : State} {n : Nat} (h : CondDecided s t n) (g : CondSame t u) : CondDecided s u n := by
  obtain ⟨cond, banked, words, bank⟩ := h
  refine ⟨g.cond.trans cond, g.banked.trans banked, fun q hq i => (g.words q ?_ i).trans (words q hq i), fun h1 h2 => ?_⟩
  · rcases hq with rfl | rfl | rfl <;> decide
  · obtain ⟨second, bound⟩ := bank h1 h2
    exact ⟨(State.pair_congr (g.words _ (by decide) 0) (g.words _ (by decide) 0)).trans second, g.bankB.trans bound⟩

/-- The condition stands for the entries as they are after it. -/
theorem CondDecided.stands {s t : State} {n : Nat} (h : CondDecided s t n) : t.cond = t.newCond :=
  h.cond.trans (State.newCond_congr h.words).symm

theorem State.bankIf_decides (s : State) (n : Nat) :
    CondDecided s ((s.bankIf n).condShown s.newCond s.qualifiedCount) n := by
  obtain ⟨cond, banked, trv, other⟩ := (s.bankIf n).condShown_shows s.newCond_lt s.qualifiedCount
  have hpair : ((s.bankIf n).condShown s.newCond s.qualifiedCount).pair .ENS_BANK_AT_HI .ENS_BANK_AT_LO =
      (s.bankIf n).pair .ENS_BANK_AT_HI .ENS_BANK_AT_LO :=
    State.pair_congr (other _ (by decide) (by decide) 0) (other _ (by decide) (by decide) 0)
  obtain ⟨second, bound, words⟩ := s.bankEntry_banks n
  refine ⟨cond, banked, fun q hq i => ?_, fun h1 h2 => ?_⟩
  · obtain ⟨htrv, hens⟩ : q ≠ .TRV_STAT ∧ q ≠ .ENS_STAT := by rcases hq with rfl | rfl | rfl <;> decide
    refine (other q htrv hens i).trans ?_
    unfold State.bankIf
    split
    · exact words q hq i
    · rfl
  · have hb : s.bankIf n = s.bankEntry n := if_pos ⟨h1, h2⟩
    rw [hpair, trv, hb]
    exact ⟨second, bound⟩

theorem State.ensStep7_decides (s : State) (n : Nat) : CondDecided s (s.ensStep7 n) n := by
  rw [State.ensStep7_eq]
  split
  · exact (s.bankIf_decides n).trans (State.journal_condSame _ _ _ _ _ _ _ _ _)
  · exact s.bankIf_decides n

/-! ### The second as a whole -/

/-- The entries judged: steps 1 to 5 of a second. -/
def State.entriesJudged (s : State) (n : Nat) (ps : Phases) : State :=
  let all := List.range 32
  let s1 := all.foldl (fun s r => s.ensStep1 n ps r) s
  let s2 := all.foldl (fun s r => s.ensStep2 n ps r) s1
  let s3 := all.foldl (fun s r => s.ensStep3 n ps r) s2
  let s4 := all.foldl (fun s r => s.ensStep4 n r) s3
  all.foldl (fun s r => s.ensStep5 n ps r) s4

theorem State.processSecond_eq (s : State) (n : Nat) :
    s.processSecond n = ((s.entriesJudged n (s.phases n)).ensStep7 n).afterCond n (s.phases n) := rfl

theorem State.processSecond_decides (s : State) (n : Nat) :
    CondDecided (s.entriesJudged n (s.phases n)) (s.processSecond n).svcAuto n := by
  rw [State.processSecond_eq]
  exact ((State.ensStep7_decides _ n).trans (State.afterCond_condSame _ n _)).trans (State.svcAuto_condSame _)

theorem foldl_stays {α β : Type} {f : β → α → β} {b : β} {l : List α} (h : ∀ x ∈ l, f b x = b) : l.foldl f b = b := by
  induction l with
  | nil => rfl
  | cons x r ih =>
    rw [List.foldl_cons, h x List.mem_cons_self]
    exact ih fun y hy => h y (List.mem_cons_of_mem x hy)

/-- With every entry DISABLED there is no phase, and the judgement of the entries changes nothing. -/
theorem State.entriesJudged_disabled {s : State} (n : Nat) (h : ∀ r, r < 32 → s.refState r = 0) : s.entriesJudged n (s.phases n) = s := by
  have hps : s.phases n = [] := List.filterMap_eq_nil_iff.2 fun r hr => if_pos (h r (List.mem_range.1 hr))
  have hst : ∀ r ∈ List.range 32, s.refState r = 0 := fun r hr => h r (List.mem_range.1 hr)
  have h1 : ∀ r ∈ List.range 32, s.ensStep1 n [] r = s := fun r hr => if_pos (hst r hr)
  have h2 : ∀ r ∈ List.range 32, s.ensStep2 n [] r = s := fun r hr =>
    (if_neg (by rw [hst r hr]; simp)).trans (if_neg (by rw [hst r hr]; decide))
  have h4 : ∀ r ∈ List.range 32, s.ensStep4 n r = s := fun r hr => if_neg (by rw [hst r hr]; simp)
  unfold State.entriesJudged
  dsimp only
  rw [hps, foldl_stays (f := fun s r => State.ensStep1 s n [] r) h1, foldl_stays (f := fun s r => State.ensStep2 s n [] r) h2,
    foldl_stays (f := fun s r => State.ensStep3 s n [] r) (fun _ _ => rfl), foldl_stays (f := fun s r => State.ensStep4 s n r) h4,
    foldl_stays (f := fun s r => State.ensStep5 s n [] r) (fun _ _ => rfl)]

/-! ### ENS_PROCESS_SECOND -/

/-- The parts that a processed second reaches. -/
def secondParts : List Part := [.trv, .ens, .regs .irqStat, .regs .ens, .regs .traverse, .regs .service]

theorem State.processSecond_procNext (s : State) (n : Nat) : (s.processSecond n).svcAuto.ens.procNext = some (n + 1) :=
  congrArg EnsState.procNext ((State.svcAuto_keeps (Keeps.refl (maskOf [.regs .irqStat, .regs .service]) (s.processSecond n))
    (by decide)).same .ens (by decide))

section
variable {s : State} (hc : s.clockUp = true) (hr : s.reached (TimeVal.ofSec (s.procSecond + 2)) = true)
include hc hr

theorem exec_ensProcessSecond : exec .ensProcessSecond s = .next (s.processSecond s.procSecond).svcAuto :=
  congrArg Host.Outcome.next (State.act_pos _ (by rw [hc, hr]; rfl))

theorem does_processSecond {P : State → Prop} (h : P (s.processSecond s.procSecond).svcAuto) : Does .ensProcessSecond s secondParts P :=
  does_of_keeps (exec_ensProcessSecond hc hr)
    (State.svcAuto_keeps (State.processSecond_keeps (Keeps.refl _ s) (by decide) _) (by decide)) h

theorem ensProcessSecond_processes : Does .ensProcessSecond s secondParts (fun t =>
    t.ens.procNext = some (s.procSecond + 1) ∧ t.cond = t.newCond) :=
  does_processSecond hc hr ⟨s.processSecond_procNext _, (s.processSecond_decides _).stands⟩

theorem ensProcessSecond_banks (h0 : ∀ k, k < 32 → s.refState k = 0) (hb : s.cond ≠ 2) :
    Does .ensProcessSecond s secondParts (fun t => t.ens.procNext = some (s.procSecond + 1) ∧ t.cond = 2 ∧
      t.fb Fld.ENS_STAT.BANKED = true ∧ t.pair .ENS_BANK_AT_HI .ENS_BANK_AT_LO = BitVec.ofNat 64 s.procSecond ∧
        t.trv.bankB = ⟨TimeVal.ofSec s.procSecond, (s.datumSides (TimeVal.ofSec s.procSecond)).1,
          (s.datumSides (TimeVal.ofSec s.procSecond)).2⟩) := by
  have h2 : s.newCond = 2 := State.newCond_banked fun r hr => by rw [h0 r hr]; decide
  obtain ⟨cond, banked, -, bank⟩ := s.processSecond_decides s.procSecond
  rw [State.entriesJudged_disabled _ h0] at cond banked bank
  rw [h2] at cond banked
  exact does_processSecond hc hr ⟨s.processSecond_procNext _, cond, banked, bank h2 hb⟩

end

theorem ensProcessSecond_waits {s : State} (hr : s.reached (TimeVal.ofSec (s.procSecond + 2)) = false) :
    Does .ensProcessSecond s [] (fun _ => True) :=
  does_nothing (congrArg Host.Outcome.next (if_neg (by rw [hr, Bool.and_false]; decide)))

end Sys2Proof.Machine
end

section
/-!
An entry's change of state (Table 5.3), and the host's configuration and acceptance of an entry (R107 to R109, R117).
-/
namespace Sys2Proof.Machine

/-! ### A change of state -/

/-- An entry's registers at a change of its state, with the interrupt. -/
def State.transShown (s : State) (r st cause n : Nat) : State :=
  (((s.setF Fld.ENS_REF_STATE.STATE st r).setF Fld.ENS_REF_STATE.CAUSE cause r).wr .ENS_REF_LAST_AT r (BitVec.ofNat 32 n)).irqPulse 101 r

/-- The TRANSITION record of a change. -/
def State.transRecorded (s : State) (e : EnsEntry) (r st cause n : Nat) : State :=
  s.journal 0x02 r (st * 2 ^ 28 + cause * 2 ^ 24) (TimeVal.ofSec n) (match e.last with
    | some p => p.x
    | none => 0) (s.rg .ENS_REF_PHASE_EARLY r) (s.rg .ENS_REF_PHASE_LATE r) e.image

/-- A QUALIFIED entry ends PRE_SOURCE; any other loses its acceptance mark. -/
def State.transMarked (s : State) (r st : Nat) : State := if st = 3 then s.setB Fld.TRV_STAT.PRE_SOURCE false else s.unmark r

/-- The runs and the window of an entry at a change of its state. -/
def EnsEntry.moved (e : EnsEntry) (st n : Nat) : EnsEntry :=
  let e1 : EnsEntry := if st = 2 then { e with winFrom := n, winMiss := 0, winFit := ⟨0, 0, 0, 0, 0⟩ } else e
  let e2 : EnsEntry := if st = 4 then { e1 with suspRun := 0 } else e1
  if st ≤ 1 then { e2 with winDone := false, triRun := 0, diffs := [], align := none } else e2

theorem State.ensTrans_eq (s : State) (r st cause n : Nat) : s.ensTrans r st cause n =
    (((s.transShown r st cause n).transRecorded (s.ent r) r st cause n).transMarked r st).setEnt r ((s.ent r).moved st n) := rfl

theorem State.setEnt_only (s : State) (r : Nat) (e : EnsEntry) : Keeps (maskOf [.ens]) s (s.setEnt r e) :=
  State.setEnt_keeps (Keeps.refl _ s) (by decide) r e

theorem State.transMarked_only (s : State) (r st : Nat) : Keeps (maskOf [.trv, .regs .traverse]) s (s.transMarked r st) :=
  keeps_ite (State.setB_keeps (Keeps.refl _ s) (Nat.zero_and _) (by decide) _ _) (State.unmark_keeps (Keeps.refl _ s) (by decide) r)

/-- What a change of an entry's state leaves. -/
structure EntryMoved (s t : State) (r st cause n : Nat) : Prop where
  state  : t.refState r = st
  cause  : t.fd Fld.ENS_REF_STATE.CAUSE r = cause
  ent    : t.ent r = (s.ent r).moved st n
  regs   : ∀ q, q.group = .ens → q ≠ .ENS_REF_STATE → q ≠ .ENS_REF_LAST_AT → ∀ i, t.rg q i = s.rg q i
  source : st = 3 → t.fb Fld.TRV_STAT.PRE_SOURCE = false
  mark   : st ≠ 3 → SMap.find t.trv.accepted r = none

theorem State.transShown_shows (s : State) {r st cause : Nat} (hst : st < 16) (hcause : cause < 16) (n : Nat) :
    (s.transShown r st cause n).fd Fld.ENS_REF_STATE.STATE r = st ∧ (s.transShown r st cause n).fd Fld.ENS_REF_STATE.CAUSE r = cause ∧
      ∀ q, q ≠ .IRQ_SRC_STAT → q ≠ .ENS_REF_STATE → q ≠ .ENS_REF_LAST_AT → ∀ i, (s.transShown r st cause n).rg q i = s.rg q i := by
  unfold State.transShown
  have hword : ∀ u : State, ((u.wr .ENS_REF_LAST_AT r (BitVec.ofNat 32 n)).irqPulse 101 r).rg .ENS_REF_STATE r = u.rg .ENS_REF_STATE r :=
    fun u => (State.rg_irqPulse _ _ _ _ (by decide)).trans (State.rg_wr_other _ _ _ _ _ _ (.inl (by decide)))
  refine ⟨?_, ?_, fun q hi hs hl i => ?_⟩
  · refine (State.fd_congr (hword _)).trans ?_
    rw [State.fd_setF_apart _ (by decide), State.fd_setF_same _ _ _ _ (by decide) (by decide)]
    exact Nat.mod_eq_of_lt hst
  · refine (State.fd_congr (hword _)).trans ?_
    rw [State.fd_setF_same _ _ _ _ (by decide) (by decide)]
    exact Nat.mod_eq_of_lt hcause
  · rw [State.rg_irqPulse _ _ _ _ hi, State.rg_wr_other _ _ _ _ _ _ (.inl hl.symm), State.rg_setF_other _ _ _ _ _ hs.symm,
      State.rg_setF_other _ _ _ _ _ hs.symm]

theorem State.ensTrans_moves (s : State) {r st cause : Nat} (hst : st < 16) (hcause : cause < 16) (n : Nat) :
    EntryMoved s (s.ensTrans r st cause n) r st cause n := by
  rw [State.ensTrans_eq]
  obtain ⟨state, hc, other⟩ := s.transShown_shows (r := r) hst hcause n
  generalize s.transShown r st cause n = u at state hc other
  have h1 : Keeps (maskOf [.trv, .regs .traverse]) u (u.transRecorded (s.ent r) r st cause n) := u.journal_only _ _ _ _ _ _ _ _
  generalize u.transRecorded (s.ent r) r st cause n = w at h1
  have hk : Keeps (maskOf [.trv, .ens, .regs .traverse]) u ((w.transMarked r st).setEnt r ((s.ent r).moved st n)) :=
    ((h1.trans (w.transMarked_only r st)).mono (by decide)).trans ((State.setEnt_only _ _ _).mono (by decide))
  refine ⟨(hk.fd (f := Fld.ENS_REF_STATE.STATE) (by decide) r).trans state,
    (hk.fd (f := Fld.ENS_REF_STATE.CAUSE) (by decide) r).trans hc, State.ent_setEnt_same _ _ _, fun q hq hs hl i => ?_, fun h => ?_,
    fun h => ?_⟩
  · exact (hk.rg (by rw [hq]; decide) i).trans (other q (fun e => by rw [e] at hq; exact absurd hq (by decide)) hs hl i)
  · have hm : w.transMarked r st = w.setB Fld.TRV_STAT.PRE_SOURCE false := if_pos h
    rw [hm]
    exact State.fb_setB_same w _ _ _ (by decide) (by decide)
  · have hm : w.transMarked r st = w.unmark r := if_neg h
    rw [hm]
    exact SMap.find_erase_same _ _

/-! ### Host writes of the assist -/

/-- A write of the ENS block by a party other than the engine. -/
theorem State.applyWrite_ens (s : State) {p : Party} (hp : p ≠ .engine) {r : Reg} (i : Nat) (v : BitVec 32) (h0 : 0x120000 ≤ r.row.base)
    (h1 : r.row.base < 0x130000) : s.applyWrite p r i v = s.ensWrite p (s.imageOctets p) r i v := by
  have hlow : ∀ n, n ≤ 0x120000 → ¬ r.row.base < n := fun n hn => Nat.not_lt.2 (hn.trans h0)
  unfold State.applyWrite
  simp only [hp, if_false, hlow 0x10000 (by decide), hlow 0x20000 (by decide), hlow 0x30000 (by decide), hlow 0x40000 (by decide),
    hlow 0x50000 (by decide), hlow 0x60000 (by decide), hlow 0x70000 (by decide), hlow 0x80000 (by decide), hlow 0x100000 (by decide),
    hlow 0x110000 (by decide), hlow 0x120000 (by decide), h1, if_true]

/-- A host write of the block that is taken acts as the block says. -/
theorem State.hostRow_ens {s : State} {r : Reg} {i : Nat} (h : s.Takes r i) (v : BitVec 32) (h0 : 0x120000 ≤ r.row.base)
    (h1 : r.row.base < 0x130000) : s.hostRow r i v = (s.entered r i).ensWrite .hostReg [] r i v :=
  (hostRow_takes v h).trans (State.applyWrite_ens _ (by decide) i v h0 h1)

theorem State.ensAccept_only (s : State) : Keeps (maskOf [.regs .ens]) s s.ensAccept := State.ensAccept_keeps (Keeps.refl _ s) (by decide)

theorem State.ensAccept_accepts (s : State) : s.ensAccept.fb Fld.ENS_WSTAT.ACCEPT = true :=
  State.fb_setB_same _ _ _ _ (by decide) (by decide)

theorem State.rg_ensAccept (s : State) {r : Reg} (hr : r ≠ .ENS_WSTAT) (i : Nat) : s.ensAccept.rg r i = s.rg r i :=
  State.rg_setB_other _ _ _ _ _ hr.symm

/-! ### The configuration of an entry -/

/-- A configuration written and accepted: the TIC channel of a REFIN entry follows EN. -/
def State.refCfgTaken (s : State) (r : Nat) (v : BitVec 32) : State :=
  let u := (s.wrRw .ENS_REF_CFG r v).ensAccept
  if r < 8 then u.setB Fld.TIC_STAT.REF_STREAM (u.fb Fld.ENS_REF_CFG.EN r) r else u

/-- The entry of a reference that is enabled: a REFIN entry waits for the mark of the next second. -/
def State.enabledEntry (s : State) (r : Nat) : EnsEntry :=
  { EnsEntry.reset with mark := if r < 8 then some (TimeVal.ofSec (s.now.sec.toNat + 1)) else none }

/-- A reference entry begun. -/
def State.entryBegun (s : State) (r : Nat) (e : EnsEntry) : State := (s.setEnt r e).setF Fld.ENS_REF_STATE.RESTARTS 0 r

theorem State.ensCfg_range {s : State} {r : Nat} {v : BitVec 32} (h : s.refCfgOk r v = false) : s.ensCfg r v = s.ensRange :=
  if_pos (by rw [h]; rfl)

theorem State.ensCfg_taken {s : State} {r : Nat} {v : BitVec 32} (h : s.refCfgOk r v = true) : s.ensCfg r v =
    if (s.wrRw .ENS_REF_CFG r v).ensAccept.fb Fld.ENS_REF_CFG.EN r = true ∧ (!s.fb Fld.ENS_REF_CFG.EN r) = true then
      ((s.refCfgTaken r v).entryBegun r (s.enabledEntry r)).ensTrans r 1 1 s.now.sec.toNat
    else if (!(s.wrRw .ENS_REF_CFG r v).ensAccept.fb Fld.ENS_REF_CFG.EN r) = true ∧ s.fb Fld.ENS_REF_CFG.EN r = true then
      ((s.refCfgTaken r v).ensTrans r 0 1 s.now.sec.toNat).setEnt r EnsEntry.reset
    else s.refCfgTaken r v := if_neg (by rw [h]; decide)

theorem refCfg_en (x : BitVec 32) {v : BitVec 32} (h : x &&& 0x80000000#32 = v &&& 0x80000000#32) :
    decide (Fld.ENS_REF_CFG.EN.of x = 1) = v.getLsbD 31 := by
  rw [Fld.ENS_REF_CFG.EN.of_masked h (by decide) (by decide) (by decide), Fld.of_eq_extract]
  have hb : (v.extractLsb' Fld.ENS_REF_CFG.EN.lo (Fld.ENS_REF_CFG.EN.hi - Fld.ENS_REF_CFG.EN.lo + 1)).toNat = (v.getLsbD 31).toNat := by
    rw [BitVec.extractLsb'_toNat, Nat.shiftRight_eq_div_pow, BitVec.getLsbD, Nat.toNat_testBit]
    rfl
  rw [hb]
  cases v.getLsbD 31 <;> decide

theorem State.cfgWritten_en (s : State) (r : Nat) (v : BitVec 32) :
    (s.wrRw .ENS_REF_CFG r v).ensAccept.fb Fld.ENS_REF_CFG.EN r = v.getLsbD 31 := by
  have hw := State.rg_wrRw_masked s (r := .ENS_REF_CFG) r v (m := 0xFFE7FFFF#32) rfl
  have hm : ∀ x : BitVec 32, x &&& 0x80000000#32 = (x &&& 0xFFE7FFFF#32) &&& 0x80000000#32 := fun x => by
    rw [BitVec.and_assoc]
    rfl
  have he : (s.wrRw .ENS_REF_CFG r v).ensAccept.rg .ENS_REF_CFG r &&& 0x80000000#32 = v &&& 0x80000000#32 := by
    rw [State.rg_ensAccept _ (by decide), hm, hw, ← hm]
  exact refCfg_en _ he

/-- What taking a configuration leaves before the entry moves: the word, ACCEPT, the entries. -/
theorem State.refCfgTaken_takes (s : State) (r : Nat) (v : BitVec 32) : (s.refCfgTaken r v).fb Fld.ENS_REF_CFG.EN r = v.getLsbD 31 ∧
    (s.refCfgTaken r v).fb Fld.ENS_WSTAT.ACCEPT = true ∧ Keeps (maskOf [.regs .tic, .regs .ens]) s (s.refCfgTaken r v) := by
  have hw := s.cfgWritten_en r v
  have ha := (s.wrRw .ENS_REF_CFG r v).ensAccept_accepts
  have hk : Keeps (maskOf [.regs .tic, .regs .ens]) s (s.wrRw .ENS_REF_CFG r v).ensAccept :=
    State.ensAccept_keeps (State.wrRw_keeps (Keeps.refl _ s) (Nat.zero_and _) (by decide) r v) (by decide)
  unfold State.refCfgTaken
  dsimp only
  generalize (s.wrRw .ENS_REF_CFG r v).ensAccept = u at hw ha hk ⊢
  split
  · have hb : Keeps (maskOf [.regs .tic]) u (u.setB Fld.TIC_STAT.REF_STREAM (u.fb Fld.ENS_REF_CFG.EN r) r) :=
      State.setB_keeps (Keeps.refl _ u) (Nat.zero_and _) (by decide) _ _
    exact ⟨(hb.fb (f := Fld.ENS_REF_CFG.EN) (by decide) r).trans hw, (hb.fb (f := Fld.ENS_WSTAT.ACCEPT) (by decide) 0).trans ha,
      hk.trans (hb.mono (by decide))⟩
  · exact ⟨hw, ha, hk⟩

theorem State.entryBegun_begins (s : State) (r : Nat) (e : EnsEntry) : (s.entryBegun r e).ent r = e ∧
    ∀ q, q ≠ .ENS_REF_STATE → ∀ i, (s.entryBegun r e).rg q i = s.rg q i :=
  ⟨State.ent_setEnt_same _ _ _, fun _ hq _ => State.rg_setF_other (s.setEnt r e) _ _ _ _ hq.symm⟩

/-- The parts of the assist that a guarded write of an entry reaches. -/
def entryParts : List Part := [.trv, .ens, .regs .tic, .regs .ens, .regs .irqStat, .regs .traverse]

theorem State.refCfgOk_congr {s t : State} (h : ∀ q, q.group = .ens ∨ q.group = .tic → ∀ i, t.rg q i = s.rg q i) (r : Nat)
    (v : BitVec 32) : t.refCfgOk r v = s.refCfgOk r v := by
  have hp : t.fd Fld.TIC_IN.PRESC r = s.fd Fld.TIC_IN.PRESC r := State.fd_congr (h .TIC_IN (by decide) r)
  unfold State.refCfgOk
  rw [hp, h .ENS_REF_FREQ (by decide) r, h .ENS_REF_YACC (by decide) r, h .ENS_REF_YAGE (by decide) r, h .ENS_REF_ACC (by decide) r]

section
variable {s : State} {r : Fin 32} (h : s.Takes .ENS_REF_CFG r.val) {v : BitVec 32}
include h

theorem exec_ensRefCfgWrite (v : BitVec 32) :
    exec (.ensRefCfgWrite r v) s = .next ((s.entered .ENS_REF_CFG r.val).ensCfg r.val v) :=
  congrArg Host.Outcome.next (State.hostRow_ens h v (by decide) (by decide))

theorem ensRefCfgWrite_range (hv : s.refCfgOk r.val v = false) : Does (.ensRefCfgWrite r v) s (unlocking ++ [.regs .ens]) (fun t =>
    t.rg .ENS_REF_CFG r.val = s.rg .ENS_REF_CFG r.val ∧ t.fb Fld.ENS_WSTAT.RANGE = true) := by
  have hx := exec_ensRefCfgWrite h v
  have hk := s.entered_only .ENS_REF_CFG r.val
  generalize s.entered .ENS_REF_CFG r.val = u at hx hk
  have hu : u.refCfgOk r.val v = s.refCfgOk r.val v :=
    State.refCfgOk_congr (fun q hq i => hk.rg (by rcases hq with e | e <;> rw [e] <;> decide) i) _ _
  rw [State.ensCfg_range (hu.trans hv)] at hx
  exact does_of_keeps hx ((hk.mono (by decide)).trans (State.ensRange_keeps (Keeps.refl _ u) (by decide)))
    ⟨(State.rg_setB_other u _ _ _ _ (by decide)).trans (hk.rg (by decide) _), State.fb_setB_same u _ _ _ (by decide) (by decide)⟩

/-- A configuration in range that is taken acts in a state that differs in the unlock alone, and reaches the parts of the entry. -/
theorem does_refCfg {P : State → Prop} (hv : s.refCfgOk r.val v = true)
    (hP : ∀ u, Keeps (maskOf unlocking) s u → u.refCfgOk r.val v = true → P (u.ensCfg r.val v)) :
    Does (.ensRefCfgWrite r v) s (unlocking ++ entryParts) P := by
  have hk := s.entered_only .ENS_REF_CFG r.val
  have hu : (s.entered .ENS_REF_CFG r.val).refCfgOk r.val v = s.refCfgOk r.val v :=
    State.refCfgOk_congr (fun q hq i => hk.rg (by rcases hq with e | e <;> rw [e] <;> decide) i) _ _
  exact does_of_keeps (exec_ensRefCfgWrite h v) (State.ensCfg_keeps (hk.mono (by decide)) (by decide) _ _) (hP _ hk (hu.trans hv))

theorem ensRefCfgWrite_enables (hv : s.refCfgOk r.val v = true) (he : s.fb Fld.ENS_REF_CFG.EN r.val = false) (hb : v.getLsbD 31 = true) :
    Does (.ensRefCfgWrite r v) s (unlocking ++ entryParts) (fun t => t.refState r.val = 1 ∧ t.fb Fld.ENS_REF_CFG.EN r.val = true ∧
      t.fd Fld.ENS_REF_STATE.CAUSE r.val = 1 ∧ t.fb Fld.ENS_WSTAT.ACCEPT = true ∧ (t.ent r.val).samples = [] ∧
        (t.ent r.val).mark = if r.val < 8 then some (TimeVal.ofSec (s.now.sec.toNat + 1)) else none) := by
  refine does_refCfg h hv fun u hk hu => ?_
  have hnow : u.now = s.now := congrArg Datum.word (hk.same .datum (by decide))
  have hen : u.fb Fld.ENS_REF_CFG.EN r.val = false := (hk.fb (f := Fld.ENS_REF_CFG.EN) (by decide) _).trans he
  rw [State.ensCfg_taken hu, u.cfgWritten_en, hb, hen, if_pos (by decide)]
  obtain ⟨en, accept, -⟩ := u.refCfgTaken_takes r.val v
  obtain ⟨ent, other⟩ := (u.refCfgTaken r.val v).entryBegun_begins r.val (u.enabledEntry r.val)
  obtain ⟨state, cause, moved, regs, -, -⟩ := State.ensTrans_moves ((u.refCfgTaken r.val v).entryBegun r.val (u.enabledEntry r.val))
    (r := r.val) (st := 1) (cause := 1) (by decide) (by decide) u.now.sec.toNat
  have hword : ∀ q, q.group = .ens → q ≠ .ENS_REF_STATE → q ≠ .ENS_REF_LAST_AT → ∀ i, _ = (u.refCfgTaken r.val v).rg q i :=
    fun q hq hs hl i => (regs q hq hs hl i).trans (other q hs i)
  refine ⟨state, ?_, cause, ?_, ?_, ?_⟩
  · exact (State.fb_congr (f := Fld.ENS_REF_CFG.EN) (hword _ (by decide) (by decide) (by decide) _)).trans (en.trans hb)
  · exact (State.fb_congr (f := Fld.ENS_WSTAT.ACCEPT) (hword _ (by decide) (by decide) (by decide) _)).trans accept
  · rw [moved, ent]
    rfl
  · rw [moved, ent, ← hnow]
    rfl

theorem ensRefCfgWrite_disables (hv : s.refCfgOk r.val v = true) (he : s.fb Fld.ENS_REF_CFG.EN r.val = true) (hb : v.getLsbD 31 = false) :
    Does (.ensRefCfgWrite r v) s (unlocking ++ entryParts) (fun t => t.refState r.val = 0 ∧ t.ent r.val = EnsEntry.reset ∧
      t.fb Fld.ENS_REF_CFG.EN r.val = false ∧ SMap.find t.trv.accepted r.val = none) := by
  refine does_refCfg h hv fun u hk hu => ?_
  have hen : u.fb Fld.ENS_REF_CFG.EN r.val = true := (hk.fb (f := Fld.ENS_REF_CFG.EN) (by decide) _).trans he
  rw [State.ensCfg_taken hu, u.cfgWritten_en, hb, hen, if_neg (by decide), if_pos (by decide)]
  obtain ⟨en, -, -⟩ := u.refCfgTaken_takes r.val v
  obtain ⟨state, -, -, regs, -, mark⟩ := State.ensTrans_moves (u.refCfgTaken r.val v) (r := r.val) (st := 0) (cause := 1) (by decide)
    (by decide) u.now.sec.toNat
  refine ⟨state, State.ent_setEnt_same _ _ _, ?_, mark (by decide)⟩
  exact (State.fb_congr (f := Fld.ENS_REF_CFG.EN) (regs _ (by decide) (by decide) (by decide) _)).trans (en.trans hb)

end

/-! ### The operator's acceptance -/

theorem State.acceptMark_only (s : State) (r n how : Nat) (p : SecondPhase) :
    Keeps (maskOf [.trv, .regs .traverse]) s (s.acceptMark r n how p) := State.acceptMark_keeps (Keeps.refl _ s) (by decide) r n how p

/-- Becoming QUALIFIED is a change of state, from a state whose registers are the same. -/
theorem State.qualify_moves (s : State) (r cause n : Nat) (ps : Phases) (p : SecondPhase) :
    ∃ u, s.qualify r cause n ps p = u.ensTrans r 3 cause n ∧ Keeps (maskOf [.ens]) s u := by
  refine ⟨_, rfl, ?_⟩
  split
  · exact Keeps.refl _ s
  · exact s.setEnt_only r _

theorem State.refAccept_moves {s : State} {r : Nat} (h : s.refState r = 5) :
    ∃ u n, s.refAccept r = u.ensTrans r 3 0xC n ∧ Keeps (maskOf [.trv, .ens, .regs .traverse]) s.ensAccept u := by
  unfold State.refAccept
  dsimp only
  rw [if_neg (by rw [h]; decide)]
  split
  · next n p _ =>
    obtain ⟨u, hu, hk⟩ := (s.ensAccept.acceptMark r n 1 p).qualify_moves r 0xC n [(r, p)] p
    exact ⟨u, n, hu, ((State.acceptMark_only _ r n 1 p).mono (by decide)).trans (hk.mono (by decide))⟩
  · exact ⟨_, _, rfl, Keeps.refl _ _⟩

theorem bitAt0_or (v : BitVec 32) : bitAt (v ||| 1#32).toNat 0 = true := by
  unfold bitAt
  rw [BitVec.toNat_or, Nat.testBit_or]
  exact Bool.or_eq_true_iff.2 (.inr (by decide))

section
variable {s : State} {r : Fin 32} (h : s.Takes .ENS_REF_CMD r.val) (v : BitVec 32)
include h

theorem exec_refAcceptCmd : exec (.refAcceptCmd r v) s = .next ((s.entered .ENS_REF_CMD r.val).refAccept r.val) :=
  congrArg Host.Outcome.next ((State.hostRow_ens h (v ||| 1#32) (by decide) (by decide)).trans (if_pos (bitAt0_or v)))

theorem refAcceptCmd_accepts (hs : s.refState r.val = 5) :
    Does (.refAcceptCmd r v) s (unlocking ++ entryParts) (fun t => t.refState r.val = 3 ∧ t.fd Fld.ENS_REF_STATE.CAUSE r.val = 0xC ∧
      t.fb Fld.TRV_STAT.PRE_SOURCE = false ∧ t.fb Fld.ENS_WSTAT.ACCEPT = true) := by
  have hk := s.entered_only .ENS_REF_CMD r.val
  have hu : (s.entered .ENS_REF_CMD r.val).refState r.val = 5 := (hk.fd (f := Fld.ENS_REF_STATE.STATE) (by decide) _).trans hs
  refine does_of_keeps (exec_refAcceptCmd h v) (State.refAccept_keeps (hk.mono (by decide)) (by decide) _) ?_
  obtain ⟨w, n, hw, hkw⟩ := State.refAccept_moves hu
  obtain ⟨state, cause, -, regs, source, -⟩ := w.ensTrans_moves (r := r.val) (st := 3) (cause := 0xC) (by decide) (by decide) n
  rw [hw]
  refine ⟨state, cause, source rfl, (State.fb_congr (f := Fld.ENS_WSTAT.ACCEPT) (regs _ (by decide) (by decide) (by decide) _)).trans ?_⟩
  exact (hkw.fb (f := Fld.ENS_WSTAT.ACCEPT) (by decide) 0).trans (State.ensAccept_accepts _)

theorem refAcceptCmd_refuses (hs : s.refState r.val ≠ 5) :
    Does (.refAcceptCmd r v) s (unlocking ++ [.regs .ens]) (fun t => t.fb Fld.ENS_WSTAT.CMD_REFUSED = true ∧
      t.refState r.val = s.refState r.val) := by
  have hx := exec_refAcceptCmd h v
  have hk := s.entered_only .ENS_REF_CMD r.val
  generalize s.entered .ENS_REF_CMD r.val = u at hx hk
  have hu : u.refState r.val = s.refState r.val := hk.fd (f := Fld.ENS_REF_STATE.STATE) (by decide) _
  rw [show u.refAccept r.val = u.setB Fld.ENS_WSTAT.CMD_REFUSED true from if_pos (by rw [hu]; exact hs)] at hx
  exact does_of_keeps hx ((hk.mono (by decide)).trans (State.setB_keeps (Keeps.refl _ u) (Nat.zero_and _) (by decide) _ _))
    ⟨State.fb_setB_same u _ _ _ (by decide) (by decide), (State.fd_setB_apart u (by decide) _ _ _).trans hu⟩

end

end Sys2Proof.Machine
end

section
/-!
Weights (R119) and measurements (R111, R411) of the entries, and the statement about the processed second and the entries.
-/
namespace Sys2Proof.Machine

/-! ### Register stores of a thread -/

/-- A thread's store that crosses the link takes effect at once where no posted write stands before it. -/
theorem State.post_flushPosted {s : State} (h : s.hst.posted = []) (p : Party) (r : Reg) (i : Nat) (v : BitVec 32) :
    (s.post p r i v).flushPosted = s.applyWrite p r i v := by
  have hs : { s with hst := { s.hst with posted := [] } } = s := by rw [← h]
  unfold State.flushPosted State.post
  rw [h]
  exact congrArg (fun u : State => u.applyWrite p r i v) hs

/-- A running K thread that can store to a register of the clock die: the link is up, and no posted write is on its way. -/
structure State.Stores (s : State) (th : Nat) : Prop where
  runs  : s.runs th = true
  k     : (s.thread th).k = true
  link  : s.d2dUp = true
  clear : s.hst.posted = []

theorem State.Stores.coreUp {s : State} {th : Nat} (h : s.Stores th) : s.coreUp = true := by
  have hr := h.runs
  unfold State.runs at hr
  rw [Bool.and_eq_true] at hr
  exact hr.1

theorem State.Stores.threadWrite {s : State} {th : Nat} (h : s.Stores th) (r : Reg) (i : Nat) (v insn : BitVec 32) :
    s.threadWrite th r i v insn = (s.progWrite th r i v insn).flushPosted :=
  State.act_pos _ (by rw [h.runs, h.k]; rfl)

section
variable {s : State} {th i : Nat} {r : Reg} (h : s.Stores th) (hg : s.regGated r i = false) (v insn : BitVec 32)
include h hg

/-- A store of the assist that the Damper lets pass acts as the block says. -/
theorem State.Stores.ens (hc : r.onClock i = true) (h0 : 0x120000 ≤ r.row.base) (h1 : r.row.base < 0x130000)
    (hv : s.writeViolation th r i v = none) :
    s.threadWrite th r i v insn = s.ensWrite (.thread th) (s.imageOctets (.thread th)) r i v := by
  have hne : ∀ q : Reg, ¬ (0x120000 ≤ q.row.base ∧ q.row.base < 0x130000) → r ≠ q := fun q hq e => hq (e ▸ ⟨h0, h1⟩)
  rw [h.threadWrite, State.progWrite_posts insn hg hc h.link hv (hne _ (by decide)) (hne _ (by decide)), State.post_flushPosted h.clear,
    State.applyWrite_ens s (p := .thread th) nofun i v h0 h1]

/-- A store that the Damper forbids is a violation, and nothing else. -/
theorem State.Stores.violates {reason : Nat} (hv : s.writeViolation th r i v = some reason) :
    s.threadWrite th r i v insn = s.violation th reason 0x0E insn := by
  have hw : s.progWrite th r i v insn = s.violation th reason 0x0E insn := by
    simp only [State.progWrite, hg, h.link, hv, Bool.not_true, Bool.and_false, Bool.false_eq_true, if_false]
  have hk := State.violation_parts (Keeps.refl (maskOf (counting ++ violating)) s) rfl th reason 0x0E insn
  rw [h.threadWrite, hw, flushPosted_nil ((congrArg HstState.posted (hk.same .hst (by decide))).trans h.clear)]

end

/-- A command whose whole effect is a thread's Damper violation. -/
theorem does_violation {c : Instr} {s : State} {th : Fin 512} {reason : Nat} {insn : BitVec 32} {P : State → Prop} (h : s.Stores th.val)
    (hx : exec c s = .next (s.violation th.val reason 0x0E insn)) (hP : ∀ t, Keeps (maskOf (counting ++ violating)) s t → P t) :
    Does c s (counting ++ violating) (fun t => Violated s t th.val reason ∧ P t) := by
  have hk := State.violation_parts (Keeps.refl (maskOf (counting ++ violating)) s) rfl th.val reason 0x0E insn
  exact does_of_keeps hx hk ⟨s.violation_violated th reason 0x0E insn h.coreUp, hP _ hk⟩

/-! ### Weights (R119) -/

/-- A weight written and accepted. -/
def State.weightTaken (s : State) (r : Nat) (v : BitVec 32) : State := (s.wrRw .ENS_REF_WEIGHT r v).ensAccept

theorem does_weightTaken {c : Instr} {s : State} {r : Nat} {v : BitVec 32} (h : exec c s = .next (s.weightTaken r v)) :
    Does c s [.regs .ens] (fun t => t.rg .ENS_REF_WEIGHT r &&& 0xFFFF#32 = v &&& 0xFFFF#32 ∧ t.fb Fld.ENS_WSTAT.ACCEPT = true) := by
  refine does_of_keeps h ((State.wrRw_keeps (Keeps.refl _ s) (Nat.zero_and _) (by decide) r v).trans (State.ensAccept_only _))
    ⟨?_, State.ensAccept_accepts _⟩
  unfold State.weightTaken
  rw [State.rg_ensAccept _ (by decide), State.rg_wrRw_masked s r v (m := 0xFFFF#32) rfl]

theorem State.ensWrite_weight {s : State} {p : Party} {r : Nat} {v : BitVec 32} (im : List Byte) (h : s.mayWeigh p = true) :
    s.ensWrite p im .ENS_REF_WEIGHT r v = s.weightTaken r v := (if_pos h).trans (if_pos rfl)

theorem weightWrite_host {s : State} {r : Fin 32} (h : s.Takes .ENS_REF_WEIGHT r.val) {v : BitVec 32}
    (ha : s.fb Fld.DTM_MODE.ENS_ACTIVE = false) : Does (.weightWrite r v none) s [.regs .ens] (fun t =>
      t.rg .ENS_REF_WEIGHT r.val &&& 0xFFFF#32 = v &&& 0xFFFF#32 ∧ t.fb Fld.ENS_WSTAT.ACCEPT = true) := by
  refine does_weightTaken (congrArg Host.Outcome.next ((State.hostRow_ens h v (by decide) (by decide)).trans ?_))
  rw [entered_plain rfl (by decide)]
  exact State.ensWrite_weight _ (congrArg not ha)

theorem weightWrite_lost {s : State} {r : Fin 32} (h : s.Takes .ENS_REF_WEIGHT r.val) {v : BitVec 32}
    (ha : s.fb Fld.DTM_MODE.ENS_ACTIVE = true) : Does (.weightWrite r v none) s [.regs .ens] (fun t =>
      t.rg .ENS_REF_WEIGHT r.val = s.rg .ENS_REF_WEIGHT r.val ∧ t.fb Fld.ENS_WSTAT.W_LOST = true) := by
  have hm : ¬ s.mayWeigh .hostReg = true := by
    rw [show s.mayWeigh .hostReg = !s.fb Fld.DTM_MODE.ENS_ACTIVE from rfl, ha]
    decide
  have hx : exec (.weightWrite r v none) s = .next (s.setB Fld.ENS_WSTAT.W_LOST true) := by
    refine congrArg Host.Outcome.next ((State.hostRow_ens h v (by decide) (by decide)).trans ?_)
    rw [entered_plain rfl (by decide)]
    exact (if_neg hm).trans (if_pos rfl)
  exact does_of_keeps hx (State.setB_keeps (Keeps.refl _ s) (Nat.zero_and _) (by decide) _ _)
    ⟨State.rg_setB_other s _ _ _ _ (by decide), State.fb_setB_same s _ _ _ (by decide) (by decide)⟩

theorem regGated_weight (s : State) (r : Fin 32) : s.regGated .ENS_REF_WEIGHT r.val = false := by
  have hr : ∀ r : Fin 32, RegKey.region ⟨.ENS_REF_WEIGHT, r.val⟩ = none := by decide
  unfold State.regGated
  rw [hr r]

theorem State.writeViolation_weight (s : State) (th r : Nat) (v : BitVec 32) :
    s.writeViolation th .ENS_REF_WEIGHT r v = if s.mayWeigh (.thread th) then none else some 0x0E := rfl

section
variable {s : State} {th : Fin 512} (h : s.Stores th.val) (r : Fin 32) (v insn : BitVec 32)
include h

theorem weightWrite_writer (ha : s.fb Fld.DTM_MODE.ENS_ACTIVE = true) (hw : s.dtm.writer = some th.val) :
    Does (.weightWrite r v (some (th, insn))) s [.regs .ens] (fun t =>
      t.rg .ENS_REF_WEIGHT r.val &&& 0xFFFF#32 = v &&& 0xFFFF#32 ∧ t.fb Fld.ENS_WSTAT.ACCEPT = true) := by
  have hm : s.mayWeigh (.thread th.val) = true := Bool.and_eq_true_iff.2 ⟨ha, decide_eq_true hw⟩
  refine does_weightTaken (congrArg Host.Outcome.next ?_)
  rw [h.ens (regGated_weight s r) v insn rfl (by decide) (by decide) ((s.writeViolation_weight _ _ _).trans (if_pos hm))]
  exact State.ensWrite_weight _ hm

theorem weightWrite_foreign (hw : s.dtm.writer ≠ some th.val) :
    Does (.weightWrite r v (some (th, insn))) s (counting ++ violating) (fun t =>
      Violated s t th.val 0x0E ∧ t.rg .ENS_REF_WEIGHT r.val = s.rg .ENS_REF_WEIGHT r.val) := by
  have hm : ¬ s.mayWeigh (.thread th.val) = true := fun hm => hw (of_decide_eq_true (Bool.and_eq_true_iff.1 hm).2)
  exact does_violation h (congrArg Host.Outcome.next
      (h.violates (regGated_weight s r) v insn ((s.writeViolation_weight _ _ _).trans (if_neg hm))))
    fun t hk => hk.rg (by decide) r.val

end

/-! ### Network measurements (R111) -/

/-- The second of a submission's instant: the one with its low 32 bits that is nearest the present. -/
def nearestSecond (now at_ : Nat) : Nat :=
  let base := now / 2 ^ 32 * 2 ^ 32 + at_
  if now + 2 ^ 31 < base then base - 2 ^ 32 else if base + 2 ^ 31 < now then base + 2 ^ 32 else base

/-- The sample that a submission makes. -/
def State.netSample (s : State) (j : Nat) (image : List Byte) : EnsSample :=
  let off : Int := s.srg .ENS_NET_SEC j * secCount + ((s.rg .ENS_NET_NS j).toNat * 2 ^ 32 + (s.rg .ENS_NET_FRAC j).toNat : Nat)
  ⟨nearestSecond s.now.sec.toNat (s.rg .ENS_NET_AT j).toNat, off / 2 ^ 16, s.rg .ENS_NET_EARLY j, s.rg .ENS_NET_LATE j, false, image⟩

theorem State.netSubmit_taken {s : State} {j : Nat} (image : List Byte) (hns : (s.rg .ENS_NET_NS j).toNat ≤ 999999999)
    (hp : s.processed (s.netSample j image).sec = false) (he : s.refState (16 + j) ≠ 0) :
    s.netSubmit j image = s.ensAccept.addSample (16 + j) (s.netSample j image) :=
  (if_neg (Nat.not_lt.2 hns)).trans ((if_neg (Bool.eq_false_iff.1 hp)).trans (if_neg he))

/-- A sample handed to an entry is its last; the other entries are the same. -/
theorem State.addSample_adds (s : State) (r : Nat) (x : EnsSample) :
    (s.addSample r x).ent r = { (s.ent r) with samples := (s.ent r).samples ++ [x] } ∧ (∀ k, k ≠ r → (s.addSample r x).ent k = s.ent k) ∧
      Keeps (maskOf [.ens]) s (s.addSample r x) :=
  ⟨State.ent_setEnt_same _ _ _, fun _ hk => State.ent_setEnt_other _ _ hk, s.setEnt_only _ _⟩

theorem regGated_netGo (s : State) (j : Fin 16) : s.regGated .ENS_NET_GO j.val = false := by
  have hr : ∀ j : Fin 16, RegKey.region ⟨.ENS_NET_GO, j.val⟩ = none := by decide
  unfold State.regGated
  rw [hr j]

theorem State.writeViolation_netGo (s : State) (th j : Nat) (v : BitVec 32) :
    s.writeViolation th .ENS_NET_GO j v = if s.fd Fld.ENS_REF_CFG.THREAD (16 + j) = th then none else some 0x0D := rfl

section
variable {s : State} {th : Fin 512} (h : s.Stores th.val) (j : Fin 16) (v insn : BitVec 32)
include h

theorem ensNetGo_submits (ht : s.fd Fld.ENS_REF_CFG.THREAD (16 + j.val) = th.val) (hns : (s.rg .ENS_NET_NS j.val).toNat ≤ 999999999)
    (hp : s.processed (nearestSecond s.now.sec.toNat (s.rg .ENS_NET_AT j.val).toNat) = false) (he : s.refState (16 + j.val) ≠ 0) :
    Does (.ensNetGo j th v insn) s [.ens, .regs .ens] (fun t => t.fb Fld.ENS_WSTAT.ACCEPT = true ∧
      (∀ k, k ≠ 16 + j.val → t.ent k = s.ent k) ∧ ∃ im, (t.ent (16 + j.val)).samples =
        (s.ent (16 + j.val)).samples ++ [s.netSample j.val im]) := by
  have hx : exec (.ensNetGo j th v insn) s = .next (s.ensAccept.addSample (16 + j.val)
      (s.netSample j.val (s.imageOctets (.thread th.val)))) := by
    refine congrArg Host.Outcome.next ((h.ens (regGated_netGo s j) _ insn rfl (by decide) (by decide)
      ((s.writeViolation_netGo _ _ _).trans (if_pos ht))).trans ?_)
    exact (if_pos (bitAt0_or v)).trans (State.netSubmit_taken _ hns hp he)
  obtain ⟨ent, other, hk⟩ := s.ensAccept.addSample_adds (16 + j.val) (s.netSample j.val (s.imageOctets (.thread th.val)))
  have hens : s.ensAccept.ens = s.ens := s.ensAccept_only.same .ens (by decide)
  refine does_of_keeps hx ((s.ensAccept_only.mono (by decide)).trans (hk.mono (by decide)))
    ⟨(hk.fb (f := Fld.ENS_WSTAT.ACCEPT) (by decide) 0).trans s.ensAccept_accepts, fun k hne => (other k hne).trans (ent_congr hens k),
      s.imageOctets (.thread th.val), ?_⟩
  rw [ent, ent_congr hens]

theorem ensNetGo_foreign (ht : s.fd Fld.ENS_REF_CFG.THREAD (16 + j.val) ≠ th.val) :
    Does (.ensNetGo j th v insn) s (counting ++ violating) (fun t => Violated s t th.val 0x0D ∧ t.ens = s.ens) :=
  does_violation h (congrArg Host.Outcome.next
      (h.violates (regGated_netGo s j) (v ||| 1#32) insn ((s.writeViolation_netGo _ _ _).trans (if_neg ht))))
    fun _ hk => hk.same .ens (by decide)

end

/-! ### Measurements of GNSS and the mate (R411) -/

/-- A measurement taken from those on their way. -/
def State.measTaken (s : State) (m : Nat × EnsSample) : State := s.setEns { s.ens with meas := s.ens.meas.erase m }

section
variable {s : State} (hc : s.clockUp = true) {r : Fin 32} {m : Nat × EnsSample}
  (hm : s.ens.meas.find? (fun m => decide (m.1 = r.val)) = some m)
include hc hm

theorem exec_measDeliver : exec (.measDeliver r) s = .next (if s.processed m.2.sec then (s.measTaken m).setB Fld.ENS_WSTAT.MEAS_LATE true
    else if s.refState r.val = 0 then s.measTaken m else (s.measTaken m).addSample r.val m.2) := by
  refine congrArg Host.Outcome.next ((State.act_pos _ hc).trans ?_)
  unfold State.measDeliver
  rw [hm]
  rfl

theorem measDeliver_late (hp : s.processed m.2.sec = true) : Does (.measDeliver r) s [.ens, .regs .ens] (fun t =>
    t.ens.meas = s.ens.meas.erase m ∧ t.fb Fld.ENS_WSTAT.MEAS_LATE = true ∧ t.ens.ent = s.ens.ent) := by
  have hx := exec_measDeliver hc hm
  rw [if_pos hp] at hx
  have he : ((s.measTaken m).setB Fld.ENS_WSTAT.MEAS_LATE true).ens = (s.measTaken m).ens := State.setB_ens _ _ _ _
  exact does_of_keeps hx (State.setB_keeps ((s.setEns_only _).mono (by decide)) (Nat.zero_and _) (by decide) _ _)
    ⟨congrArg EnsState.meas he, State.fb_setB_same _ _ _ _ (by decide) (by decide), (congrArg EnsState.ent he :)⟩

theorem measDeliver_delivers (hp : s.processed m.2.sec = false) (he : s.refState r.val ≠ 0) : Does (.measDeliver r) s [.ens] (fun t =>
    t.ens.meas = s.ens.meas.erase m ∧ t.ent r.val = { (s.ent r.val) with samples := (s.ent r.val).samples ++ [m.2] }) := by
  have hx := exec_measDeliver hc hm
  rw [hp, if_neg (by decide), if_neg he] at hx
  obtain ⟨ent, -, hk⟩ := (s.measTaken m).addSample_adds r.val m.2
  exact does_of_keeps hx ((s.setEns_only _).trans hk) ⟨rfl, ent⟩

end

/-! ### The statement -/

/-- Settles O35: a second is processed when its time has come, an entry moves as its host configures and accepts it, weights and
network measurements are its writer's and its thread's alone, and a measurement reaches its entry unless its second is past. -/
theorem ensembleEntryCommands : Obligations.EnsembleEntryCommands := by
  unfold Obligations.EnsembleEntryCommands
  intro s r j th v insn n moved e base sec off stores
  have toStores : stores → s.Stores th.val := fun ⟨runs, k, link, clear⟩ => ⟨runs, k, link, clear⟩
  refine ⟨fun hc hr => ⟨?_, ?_⟩, ?_, fun h => ⟨?_, ?_, ?_⟩, fun h => ⟨?_, ?_⟩, fun h => ⟨?_, ?_⟩, fun h => ⟨?_, ?_, ?_, ?_⟩,
    fun hc m hm => ⟨?_, ?_⟩⟩
  · exact ensProcessSecond_processes hc hr
  · exact fun h0 hb => ensProcessSecond_banks hc hr h0 hb
  · exact fun _ hr => ensProcessSecond_waits hr
  · exact fun hv he hb => ensRefCfgWrite_enables h hv he hb
  · exact fun hv he hb => ensRefCfgWrite_disables h hv he hb
  · exact fun hv => ensRefCfgWrite_range h hv
  · exact fun hs => refAcceptCmd_accepts h v hs
  · exact fun hs => refAcceptCmd_refuses h v hs
  · exact fun ha => weightWrite_host h ha
  · exact fun ha => weightWrite_lost h ha
  · exact fun ha hw => weightWrite_writer (toStores h) r v insn ha hw
  · exact fun hw => weightWrite_foreign (toStores h) r v insn hw
  · intro ht hns hp he
    obtain ⟨t, hx, ⟨accept, other, im, hsamples⟩, only⟩ := ensNetGo_submits (toStores h) j v insn ht hns hp he
    exact ⟨t, hx, ⟨accept, other, s.netSample j.val im, hsamples, rfl, rfl, rfl, rfl, rfl⟩, only⟩
  · exact fun ht => ensNetGo_foreign (toStores h) j v insn ht
  · exact fun hp => measDeliver_late hc hm hp
  · exact fun hp he => measDeliver_delivers hc hm hp he

end Sys2Proof.Machine
end
